-- ==== Sys2Proof/Word.lean ====
section
/-! DEFINITION. The word types of the ZPD-880 and their plainest arithmetic. -/

namespace Sys2Proof

/-- One byte. -/
abbrev Byte := BitVec 8

/-- One register word (R4). -/
abbrev Word := BitVec 32

/-- Bytes in rising address order. -/
abbrev Bytes := List (BitVec 8)

end Sys2Proof
end

