-- ==== Sys2Proof/Syntax.lean ====
section
/-! DEFINITION. The commands of the block, one constructor for each row of spec/opcode_table.json, with the operands
that say which unit the command acts on and what arrives from outside (a value written, a frame, a measurement). -/

namespace Sys2Proof

/-- A requester of registers (R5): the host, the baker core of a die, or Crust.
(log entry 78: DESIGN CHOICE in part) -/
inductive Requester
  | host
  | baker (die : Nat)
  | crust
deriving DecidableEq, Repr

/-- What the error-correcting code finds while a command reads memory (R108, R188): nothing, a corrected error, an
uncorrectable one with the tile (0x3F for shared SRAM) and the 64-byte line, or an uncorrectable one in HBM or PSRAM.
(log entry 8: DESIGN CHOICE in part) -/
inductive Ecc
  | clean
  | corrected (tile line : Nat)
  | uncorrectable (tile line : Nat)
  | external
deriving DecidableEq, Repr

/-- What a read of a flash codeword takes (R194): hard decoding, with bits corrected or not, a number of shifted read
thresholds, soft decoding, or none of them succeeds. (log entry 8: DESIGN CHOICE in part) -/
inductive FlashDecode
  | hard (corrected : Bool)
  | shifted (count : Nat)
  | soft
  | uncorrectable
deriving DecidableEq, Repr

/-- What a read through translation meets in its range (R188, R194): what the decoding of its flash codewords takes, by their place
in the range (one that is not listed is decoded at once), and whether it meets an uncorrectable error in other memory.
(log entry 8: DESIGN CHOICE in part) (log entry 39: DESIGN CHOICE in part) -/
structure Found where
  flash : List (Nat × FlashDecode) := []
  lost : Bool := false
deriving DecidableEq, Repr

/-- What arrives on a CSI-2 virtual channel (R227, R242): a frame start, a packet of a data type, a packet whose header cannot
be corrected, or a frame end. (log entry 47: DEDUCED in part) -/
inductive CsiKind
  | start
  | packet
  | badHeader
  | finish
deriving DecidableEq, Repr

/-- The source of a request (R203, R242, R245): an operation of a running programme, a run-time prefetch, a residency
transfer of a context, a sequence-engine transfer of a die, a host access or the queue's ring of a context, the flash
journal or a log write-back, scrub, flash relocation and self-test, the fusion engine, the map store, a camera stream, a loop
engine (R319), or the translation walk of the request of another source. -/
inductive ReqSource
  | operation (run : Nat)
  | prefetch (run i : Nat)
  | residency (k : Nat)
  | seqSlot (die : Nat)
  | host (k : Nat)
  | journal
  | scrub
  | fusion
  | mapStore
  | camera (stream : Nat)
  | loop (engine : Nat)
  | walk (of : ReqSource)
deriving DecidableEq, Repr

/-- What the proof run finds of a checker on a die (R367): whether the injected fault was detected, and whether the detection took
the unit's normal reporting path. (log entry 63: DEDUCED in part) -/
structure ProofCheck where
  die : Nat
  id : Nat
  detected : Bool
  reported : Bool
deriving DecidableEq, Repr

/-- The commands of the block: one constructor for each row of the opcode table; each docstring gives the row's rule. -/
inductive Instr where
  /-- REGISTER_WRITE (R6). An aligned 32-bit BAR0 write to a register that has no row of its own, applied field by field under the field access codes. -/
  | registerWrite (who : Requester) (a value : Nat)
  /-- BAR0_INVALID_ACCESS (R4). A BAR0 access of another size or alignment, or to die ID 5-15, completes without effect and is never counted. -/
  | bar0InvalidAccess (a size : Nat) (write : Bool)
  /-- BAR0_ABSENT_DIE_ACCESS (R25). The Cache die answers an access to an absent, held or unlinked die with zero or no effect and counts it in bar0_absent. -/
  | bar0AbsentDieAccess (a : Nat) (write : Bool)
  /-- PAIR_LOW_READ (R5). A read of the low half of a 64-bit pair returns the low half and latches the high half for that requester. -/
  | pairLowRead (who : Requester) (a : Nat)
  /-- PAIR_HIGH_READ (R5). A read of the high half returns and consumes the latched value, or returns the current high half when no latch is pending. -/
  | pairHighRead (who : Requester) (a : Nat)
  /-- PAIR_LOW_WRITE (R5). A write of the low half is staged for that requester, replacing any earlier staged value. -/
  | pairLowWrite (who : Requester) (a value : Nat)
  /-- PAIR_HIGH_WRITE (R5). A write of the high half applies the full 64-bit value in one step with the staged or current low half. -/
  | pairHighWrite (who : Requester) (a value : Nat)
  /-- FLIT_RETRY (R16). A UCIe flit that fails its CRC is retried, which delays the transfer without changing data or order. -/
  | flitRetry
  /-- DEVICE_TIME_REALIGN (R19). Every 1 ms the Reflex die realigns the device-time copy on every other die to within 8 ns. -/
  | deviceTimeRealign (die : Nat)
  /-- REQUEST_ISSUE (R203). A master issues a request tagged with class, context and deadline: at a virtual address, with true for a write, or at none. -/
  | requestIssue (die master loc res : Nat) (src : ReqSource) (bytes : Nat) (va : Option (Nat × Bool))
  /-- ARBITER_GRANT (R210). An arbiter grants the pending request of lowest effective class after escalation and the tie-break order. -/
  | arbiterGrant (loc res : Nat)
  /-- BUDGET_WINDOW_START (R206). A new budget window of a record (the second number) begins on a die (the first) at a multiple of window_ns, and byte
  accounting restarts. -/
  | budgetWindowStart (at' : Nat × Nat)
  /-- REQUEST_COMPLETE (R213). A request completes; byte and late counters advance. -/
  | requestComplete (id : Nat)
  /-- TLB_WALK (R184). A translation-buffer miss walks the tables at the class of the access that missed. -/
  | tlbWalk (die ctx va : Nat) (write : Bool)
  /-- LAYOUT_FULL_LOAD (R63). LAY_CTRL start with op 0 copies, hashes, verifies and checks a full image through steps 2-7. -/
  | layoutFullLoad (who : Requester) (value : Nat)
  /-- LAYOUT_PARTIAL_LOAD (R63). LAY_CTRL start with op 1 loads and checks a partial image against the active layout. -/
  | layoutPartialLoad (who : Requester) (value : Nat)
  /-- LAYOUT_VALIDATE (R64). LAY_CTRL start with op 2 runs steps 2-6 and reports the result without changing the active layout. -/
  | layoutValidate (who : Requester) (value : Nat)
  /-- LAYOUT_COMMIT (R65). Once no TIER command runs, the loader commits the full or partial layout, sets sync objects and the digest, and starts residency. -/
  | layoutCommit
  /-- MAKE_RESIDENT (R72). LAY_CTX_CTRL op 1 sets LOADING, walks the context's translations and starts its residency transfers. -/
  | makeResident (who : Requester) (k : Nat)
  /-- MAKE_NONRESIDENT (R451). LAY_CTX_CTRL op 2 makes a quiesced context NONRESIDENT and clock-gates its tiles within 10 µs. -/
  | makeNonresident (who : Requester) (k : Nat)
  /-- RELEASE (R81). LAY_CTX_CTRL op 3 returns a STOPPED context to quiesced RESIDENT and records new sync bases. -/
  | release (who : Requester) (k : Nat)
  /-- RESIDENCY_TRANSFER_COMPLETE (R72). A residency transfer ends; the next one starts, or the context becomes RESIDENT. -/
  | residencyTransferComplete (k : Nat) (found : Found)
  /-- SCHEDULE_ACTIVATION (R75). At a periodic activation instant the schedule of an enabled RESIDENT context starts an activation. -/
  | scheduleActivation (k : Nat)
  /-- SCHEDULE_STEP_ISSUE (R76). A schedule step issues its programme at its start_cycle, or once its sync wait and an operation slot are available. -/
  | scheduleStepIssue (ctx k : Nat)
  /-- BUDGET_OVERRUN (R80). The budget counter reaches its limit before completion and the overrun action is applied. -/
  | budgetOverrun (ctx : Nat) (alone : Bool) (n : Nat)
  /-- OPERATION_COMPLETE (R115). An operation completes; the next operation of the programme starts, or the programme ends with its code. -/
  | operationComplete (run : Nat)
  /-- INVOCATION_COMPLETE (R98). An invocation publishes its outputs, sync signal, completion record and MSI-X in order. -/
  | invocationComplete (k n : Nat)
  /-- HOST_RESET (R407). A Function Level Reset, hot reset, PERST or link loss resets the host port or, while booting, the module. -/
  | hostReset
  /-- HOST_PORT_RECONFIGURE (R407). After the reset and link-up, firmware reconfigures the endpoint and sets HQ_DEV_STATE to HANDSHAKE. -/
  | hostPortReconfigure (width rate : Nat) (flit : Bool)
  /-- BAR2_READ (R86). A host read of so many bytes through a BAR2 window is translated, or faults and returns all ones; with what it
  meets. -/
  | bar2Read (off : Nat) (got : Nat × Found)
  /-- BAR2_WRITE (R86). A host write through a BAR2 window is translated, or faults and is discarded whole. -/
  | bar2Write (off : Nat) (data : Bytes)
  /-- BAR4_INVALID_WRITE (R87). A write to an unlisted BAR4 offset, or an invalid doorbell write, is ignored and sets db_invalid. -/
  | bar4InvalidWrite (off size value : Nat)
  /-- SUBMISSION_TAIL_DOORBELL (R94). A submission tail doorbell write advances sq_tail when the value is valid. -/
  | submissionTailDoorbell (k value : Nat)
  /-- COMPLETION_HEAD_DOORBELL (R94). A completion head doorbell write advances cq_head when the value is valid. -/
  | completionHeadDoorbell (k value : Nat)
  /-- SYNC_SLOT_WRITE (R99). A BAR4 sync-slot write signals a host_visible object by its value, or is ignored with sync_invalid. -/
  | syncSlotWrite (id off size value : Nat)
  /-- SYNC_SLOT_READ (R87, R99). A BAR4 read: the slot of an object, at a byte of it, returns the value, or zero with sync_invalid for an absent or hidden
  object; with no object, a read at an offset of the BAR. -/
  | syncSlotRead (id : Option Nat) (off size : Nat)
  /-- IF_PROPOSE (R89). A write of HQ_IF_CTRL.propose submits HQ_IF_DRV as the pending proposal. -/
  | ifPropose (who : Requester)
  /-- IF_ANSWER (R90). Firmware answers the proposal by agreeing, refusing or rejecting, and sets if_done. -/
  | ifAnswer
  /-- DESCRIPTOR_FETCH (R96). While run is 1, the host queue engine fetches submitted descriptors in count order. -/
  | descriptorFetch (k : Nat)
  /-- INVOCATION_START (R96). At its turn an invocation starts once its wait, fence, operation slot and completion room allow. -/
  | invocationStart (k : Nat)
  /-- SQ_FETCH_FAULT (R104). A submission ring read that completes with an error faults the queue with 0x0B20. -/
  | sqFetchFault (k : Nat)
  /-- CQ_WRITE_FAULT (R104). A completion ring write that AER reports as failed faults the queue with 0x0B21. -/
  | cqWriteFault (k : Nat)
  /-- QUEUE_STOP (R101). A write of run = 0 stops fetches, clears sched and clears fault. -/
  | queueStop (who : Requester) (k value : Nat)
  /-- QUEUE_RUN (R101). A write of run = 1 resumes fetching and sets sched. -/
  | queueRun (who : Requester) (k value : Nat)
  /-- QUEUE_ABORT (R101). abort = 1 clears run and sched, and ends fetched and running invocations with 0x0B34. -/
  | queueAbort (who : Requester) (k value : Nat)
  /-- NOTIFIER_ARM (R100). Setting HQ_NTF_CTRL.arm arms notifier k on a host_visible object. -/
  | notifierArm (who : Requester) (k value : Nat)
  /-- NOTIFIER_FIRE (R100). The object reaches the threshold; the notifier clears arm and raises its vector. -/
  | notifierFire (k : Nat)
  /-- BAKER_WATCHDOG_EXPIRY (R389). A baker-core watchdog expires; the core is held and reloaded from the firmware store. -/
  | bakerWatchdogExpiry (die : Nat)
  /-- BAKER_RESTART_COMPLETE (R389). The restarted core resumes and reattaches; HQ_DEV_STATE returns to READY once no core is restarting. -/
  | bakerRestartComplete (die : Nat)
  /-- GEMM (R116). A GEMM operation split over its tiles accumulates, biases and requantises its output. -/
  | gemm (run : Nat) (ecc : Ecc)
  /-- CONV (R110). A convolution runs as a GEMM over output pixels with im2col gather. -/
  | conv (run : Nat) (ecc : Ecc)
  /-- EW (R118). An element-wise operation passes A through stages 3-5 of the pipeline. -/
  | ew (run : Nat) (ecc : Ecc)
  /-- STEM_FIRST (R121). The stem engine runs a first-layer convolution with few input channels. -/
  | stemFirst (run : Nat) (ecc : Ecc)
  /-- STEM_LAST (R122). The stem engine runs a last-layer convolution with few output channels. -/
  | stemLast (run : Nat) (ecc : Ecc)
  /-- STEM_LAST_ARGMAX (R122). The stem engine runs a last-layer convolution and writes argmax records. -/
  | stemLastArgmax (run : Nat) (ecc : Ecc)
  /-- ARGMAX (R123). The argmax unit writes the winning channel of each pixel. -/
  | argmax (run : Nat) (ecc : Ecc)
  /-- HANDOFF_PUT (R128). HANDOFF_PUT of a run checks tags, ownership and lengths, then waits for ring space. -/
  | handoffPut (op : Nat × Ecc)
  /-- HANDOFF_PUT_PUBLISH (R128). Once the ring has space, appends are made visible, the append right moves, and the record is written before put_sync advances. -/
  | handoffPutPublish (run : Nat)
  /-- HANDOFF_TAKE (R129). HANDOFF_TAKE of a run adopts or rejects pending records into the decode batch and advances take_sync. -/
  | handoffTake (op : Nat × Ecc)
  /-- SPEC_VERIFY (R132). SPEC_VERIFY of a run compares drafts with target tokens per entry, commits the accepted lengths and rolls back
  the rest: so many entries by this command. -/
  | specVerify (part : Nat × Nat × Ecc)
  /-- KV_APPEND (R143). An append of one layer by a run is checked, quantised and written, opening or closing the append group; with what the code
  finds in its source. -/
  | kvAppend (op : Nat × Ecc)
  /-- ATTN (R151). Ragged causal attention over a batch list runs on the tiles. -/
  | attn (run : Nat) (ecc : Ecc)
  /-- KV_CREATE (R152). CREATE writes a length-table entry and links the sequence range into the owner's root. -/
  | kvCreate (who : Requester) (seq : Nat)
  /-- KV_FREE (R152). FREE closes the group, reclaims every page, increments gen_tag and clears valid. -/
  | kvFree (who : Requester) (seq : Nat)
  /-- KV_TRUNCATE (R152). TRUNCATE rolls a sequence back to length C. -/
  | kvTruncate (who : Requester) (seq : Nat)
  /-- KV_GRANT (R152). GRANT sets the holder of the append right. -/
  | kvGrant (who : Requester) (seq : Nat)
  /-- KV_READ (R152). READ copies a length-table entry into KV_CMD_DATA. -/
  | kvRead (who : Requester) (seq : Nat)
  /-- KV_CMD_TAKE_EFFECT (R153). A pending FREE or TRUNCATE takes effect once no KV_APPEND or ATTN names the sequence. -/
  | kvCmdTakeEffect
  /-- KV_POOL_WRITE (R154). A write of KV_POOL_BASE or KV_POOL_PAGES is accepted only while no entry is valid and no allocation is covered. -/
  | kvPoolWrite (who : Requester) (pages : Bool) (value : Nat)
  /-- SEQ_CHUNK (R169). A chunk of a run checks its slot tag, then runs S recurrent steps for R rows: so many of them by this command. -/
  | seqChunk (part : Nat × Nat) (ecc : Ecc)
  /-- SEQ_BIND (R168). BIND issues a tag, resets the rows and makes the slot live. -/
  | seqBind (who : Requester) (die value : Nat)
  /-- SEQ_SWAP_OUT (R168). SWAP_OUT is accepted and stops new chunks on the slot. -/
  | seqSwapOut (who : Requester) (die value : Nat)
  /-- SEQ_RESTORE (R168). RESTORE makes the slot restoring and reads its image back. -/
  | seqRestore (who : Requester) (die value : Nat)
  /-- SEQ_UNBIND (R168). UNBIND is accepted to make the slot empty. -/
  | seqUnbind (who : Requester) (die value : Nat)
  /-- SEQ_SLOT_RELEASE (R170). A pending SWAP_OUT or UNBIND takes effect once no chunk runs on the slot. -/
  | seqSlotRelease (die : Nat)
  /-- SEQ_TRANSFER_COMPLETE (R168). A swap-out or restore transfer finishes; the slot becomes empty or live, or restore_fail is set. -/
  | seqTransferComplete (die : Nat) (found : Found)
  /-- TIER_ALLOC (R178). ALLOC places, zeroes and maps an allocation. -/
  | tierAlloc (who : Requester) (value : Nat)
  /-- TIER_FREE (R178). FREE is accepted to unmap whole allocations in one root. -/
  | tierFree (who : Requester) (value : Nat)
  /-- TIER_SHARE (R178). SHARE maps the same memory into a second root. -/
  | tierShare (who : Requester) (value : Nat)
  /-- TIER_LINK_SEQ (R178). LINK_SEQ installs a sequence link in a root. -/
  | tierLinkSeq (who : Requester) (value : Nat)
  /-- TIER_UNLINK_SEQ (R178). UNLINK_SEQ is accepted to remove a sequence link. -/
  | tierUnlinkSeq (who : Requester) (value : Nat)
  /-- TIER_FLUSH (R178). FLUSH forces a journal commit. -/
  | tierFlush (who : Requester) (value : Nat)
  /-- TIER_UNMAP_TAKE_EFFECT (R179). A pending FREE or UNLINK_SEQ takes effect once no access through the range is in flight. -/
  | tierUnmapTakeEffect
  /-- PREFETCH_ISSUE (R189). A run-time prefetch record issues at t0 + P - lead_ns, subject to the limit of 8 in flight. -/
  | prefetchIssue (run : Nat)
  /-- PREFETCH_COMPLETE (R189). A prefetch transfer finishes, freeing a slot and releasing a waiting layer. -/
  | prefetchComplete (run i : Nat) (found : Found)
  /-- PREFETCH_DEADLINE (R190). At a layer's deadline with a record unfinished, the layer takes the path named by the lowest late record. -/
  | prefetchDeadline (run : Nat)
  /-- PREFETCH_WAIT_TIMEOUT (R191). wait_max_ns expires; the invocation completes with 0x0402 and the transfer is cancelled. -/
  | prefetchWaitTimeout (run : Nat)
  /-- MEMORY_SCRUB (R188). The background scrub reads T2 words at class 7 and writes corrections back. -/
  | memoryScrub (addr : Option Nat) (ecc : Ecc)
  /-- FLASH_READ (R194). A codeword of 4 KiB of a flash unit is read with hard decoding, retries and soft decoding; an uncorrectable read ends with 0x0401. -/
  | flashRead (word : Nat) (d : FlashDecode)
  /-- FLASH_WRITE (R197). A T3 write completes once its data and map change are in the journal buffer. -/
  | flashWrite (addr : Nat) (data : Bytes)
  /-- JOURNAL_COMMIT (R197). The journal commits to flash every 4 ms, at 64 MiB pending, or on FLUSH. -/
  | journalCommit
  /-- FLASH_RELOCATION (R195). A queued block is relocated at class 7, its map change is committed and it is erased. -/
  | flashRelocation (block fresh : Nat)
  /-- WEAR_LEVELLING (R196). Data move from the least-erased blocks when the erase spread exceeds 256. -/
  | wearLevelling (block fresh : Nat)
  /-- BLOCK_RETIRE (R196). A block whose program or erase fails is retired; spare exhaustion remounts the store READ_ONLY. -/
  | blockRetire (block fresh : Nat)
  /-- SNAPSHOT_ARM (R214). A write of the high half of MON_SNAP_TIME arms a snapshot, or sets missed. -/
  | snapshotArm (who : Requester) (die time : Nat)
  /-- SNAPSHOT_TAKE (R214). At time T the die copies all byte and late counters into their shadows. -/
  | snapshotTake (die : Nat)
  /-- LATENCY_MAX_CLEAR (R211). TCL_CTRL.lat_clr zeroes every class-0 latency maximum on the die. -/
  | latencyMaxClear (who : Requester) (die : Nat)
  /-- TIME_RATE_WRITE (R217). A TIME_RATE write sets the rate adjustment, clamped to ±200 ppm. -/
  | timeRateWrite (who : Requester) (value : Nat)
  /-- TIME_STEP (R218). TIME_CTRL.step applies TIME_STEP when permitted, or sets step_reject. -/
  | timeStep (who : Requester) (value : Nat)
  /-- ETH_FRAME_RECEIVE (R223). A port stamps a received frame, whose stamp point crossed the MDI `ago` periods of 0.4 ns ago,
  and delivers it to its consumer. -/
  | ethFrameReceive (port ago : Nat) (frame : Bytes)
  /-- ETH_FRAME_TRANSMIT (R223). A port stamps a departing frame, whose stamp point crossed the MDI `ago` periods of 0.4 ns ago. -/
  | ethFrameTransmit (port ago : Nat) (frame : Bytes)
  /-- PTP_FIFO_POP (R224). A read of FIFO_HDR pops the head PTP stamp entry. -/
  | ptpFifoPop (who : Requester) (port : Nat)
  /-- PPS_IN_EDGE (R228). A rising edge on PPS_IN is stamped and counted. -/
  | ppsInEdge
  /-- PPS_OUT_RISE (R229). PPS_OUT rises at each second boundary plus the offset. -/
  | ppsOutRise
  /-- PPS_OUT_FALL (R229). PPS_OUT falls after its width. -/
  | ppsOutFall
  /-- ETH_CTRL_WRITE (R230). An ETH_k_CTRL write sets mode and speed, except for modes fixed by STREAMS or JOINT on ports 8-11. -/
  | ethCtrlWrite (who : Requester) (port value : Nat)
  /-- JBUS_CMD_BUILD (R235). 2,000 ns before a transmit instant the engine builds the command frame, or transmits nothing. -/
  | jbusCmdBuild (i : Nat)
  /-- JBUS_CMD_TRANSMIT (R236). A command or substitute frame leaves a JOINT port at its transmit instant, protected by the guard band. -/
  | jbusCmdTransmit (i ago : Nat) (corrupt : Bool)
  /-- JBUS_FB_RECEIVE (R238). A feedback frame is checked for stream, CRC, counter and staleness, then written to its buffer. -/
  | jbusFbReceive
  /-- JBUS_FB_CHECK (R239). At the check instant a stream's cycle is judged served or missed. -/
  | jbusFbCheck (i : Nat)
  /-- ETH_LINK_DOWN (R240). A JOINT port loses its link; link_down is reported and every stream of the port faults. -/
  | ethLinkDown (port : Nat)
  /-- ETH_LINK_UP (R238). A port's link comes up; the next feedback frame is accepted whatever its counter. -/
  | ethLinkUp (port speed : Nat) (swapped : Bool)
  /-- JBUS_CLEAR (R239). JBUS_CLR.clear clears a stream fault after miss_limit served cycles. -/
  | jbusClear (who : Requester) (i : Nat)
  /-- CSI_FRAME_RECEIVE (R242). A CSI-2 frame is received on a virtual channel, stamped at frame start, checked and
  published: one of its packets arrives. -/
  | csiFrameReceive (port vc : Nat) (kind : CsiKind) (number ago ownStamp dt : Nat) (data : Bytes) (hdrCorr crcOk : Bool)
  /-- SIM_ENTRY_RELEASE (R243). A host-fed entry is processed at its release time as a received frame. -/
  | simEntryRelease (i : Nat)
  /-- FUSION_CUTOFF (R248). At a cut-off the fusion engine consumes samples and starts the slot, or skips it with 0x0802. -/
  | fusionCutoff
  /-- FUSION_SLOT_COMPLETE (R255). Marking finishes; the map epoch is committed, the mailbox published and sync_id signalled. -/
  | fusionSlotComplete
  /-- MAP_FORK (R275). FORK copies a slot's content into the target slot as a new epoch. -/
  | mapFork (who : Requester) (slot : Nat)
  /-- MAP_CLEAR (R275). CLEAR empties the slot as a new epoch. -/
  | mapClear (who : Requester) (slot : Nat)
  /-- MAP_WRITE (R276). WRITE applies host cell records to a slot as one batch. -/
  | mapWrite (who : Requester) (slot : Nat)
  /-- MAP_LOAD (R274). LOAD installs a snapshot into a slot as a new epoch. -/
  | mapLoad (who : Requester) (slot : Nat)
  /-- MAP_SNAPSHOT (R274). SNAPSHOT writes the slot's current epoch in pre-order. -/
  | mapSnapshot (who : Requester) (slot : Nat)
  /-- MAP_BUILD_SDF (R272). BUILD_SDF is accepted to rebuild the distance field from its source. -/
  | mapBuildSdf (who : Requester)
  /-- SDF_BUILD_BEGIN (R292). A BUILD_SDF deferred behind an SDF-mode batch begins once that batch completes. -/
  | sdfBuildBegin
  /-- MAP_ENTER_TREE (R273). ENTER_TREE requests TREE mode when the live slot epoch is at least 1. -/
  | mapEnterTree (who : Requester)
  /-- MAP_ENTER_SDF (R273). ENTER_SDF requests SDF mode when the field is VALID. -/
  | mapEnterSdf (who : Requester)
  /-- MAP_MODE_CHANGE (R273). A requested mode change takes effect once no planner batch runs. -/
  | mapModeChange
  /-- PLAN_BATCH (R285). A planner batch tests candidates, sieves, rechecks, time-scales and publishes PLAN or STOP. -/
  | planBatch (op : Nat × Ecc)
  /-- SOLV_RUN (R305). A solver operation factorises if needed and runs CG, MINRES or ADMM from the warm start. -/
  | solvRun (op : Nat × Ecc)
  /-- SOLVER_DEADLINE (R313). At deadline_ns the step in progress is abandoned and the output is chosen by acceptance. -/
  | solverDeadline (run outer inner : Nat)
  /-- FACTOR_BUDGET_EXPIRY (R311). A factorisation still running at fact_budget_ns is abandoned and fact_late is set. -/
  | factorBudgetExpiry (run : Nat)
  /-- LOOP_PASS (R320). At a pass instant an engine evaluates its due slots in ascending order. -/
  | loopPass (engine : Nat) (bad : List Nat)
  /-- LOOP_CLEAR (R335). A LOOP_CLR write requests that a slot leave FAULT at its next evaluation. -/
  | loopClear (who : Requester) (slot : Nat)
  /-- CRUST_EVENT (R345). The reaction unit applies an event's reaction level to its groups within 2 µs. -/
  | crustEvent
  /-- HEARTBEAT_MISS (R344). The SIO heartbeat is not refreshed within 1 ms and every STO output is de-energised. -/
  | heartbeatMiss
  /-- CLOCK_MONITOR_TRIP (R344). A monitored clock deviates by more than 2 % and every output is de-energised. -/
  | clockMonitorTrip (measured : Nat × Nat)
  /-- CRUST_LOCKSTEP_MISMATCH (R344). The Crust cores disagree and every output is de-energised. -/
  | crustLockstepMismatch
  /-- CMD_EGRESS_CHECK (R351). When no frame for cycle j has left by 4,000 ns after its transmit instant, Crust raises CMD_MISS. -/
  | cmdEgressCheck (i : Nat)
  /-- FALLBACK_BUILD (R352). For a stream it serves, the fallback unit builds a substitute frame 2,000 ns before the transmit instant. -/
  | fallbackBuild (i : Nat)
  /-- SS1_RAMP_END (R354). At takeover + ss1_ns a category-1 stop asserts safe torque off. -/
  | ss1RampEnd (g : Nat)
  /-- PSF_EVALUATE (R355). psf_eval_ns after a frame stamp Crust compares the masks and sets the speed factor. -/
  | psfEvaluate (frame : Nat)
  /-- PSF_VALIDITY_EXPIRY (R355). When no frame has been evaluated within psf_valid_ns, default_factor applies. -/
  | psfValidityExpiry
  /-- PSF_SPEED (R356). A feedback velocity above the scaled vmax for longer than speed_grace_ns raises PSF_SPEED. -/
  | psfSpeed (stream rec' : Nat)
  /-- STARTER_DIGEST (R358). On starter completion Crust hashes the output and raises STARTER_MISMATCH on a difference. -/
  | starterDigest (i : Nat)
  /-- STARTER_LATE (R358). A starter programme not complete bound_ns after activation raises STARTER_LATE. -/
  | starterLate (i : Nat)
  /-- STO_READBACK_FAULT (R359). A readback that differs from the output state for 1 ms raises SIO_FAULT. -/
  | stoReadbackFault (output : Nat) (high : Bool) (ns : Nat)
  /-- ESTOP_OPEN (R360). An emergency-stop channel open for 2 ms raises ESTOP. -/
  | estopOpen (channel : Nat × Bool) (ns : Nat)
  /-- ESTOP_DISCREPANCY (R360). Channels that disagree longer than estop_disc_ns raise SIO_FAULT. -/
  | estopDiscrepancy (closed : Bool × Bool) (ns : Nat)
  /-- ESTOP_RESET (R360). SIO_STO_CTRL.estop_reset clears the ESTOP latch when permitted, or sets reset_refused. -/
  | estopReset (who : Requester) (value : Nat) (held : Nat × Nat × Bool)
  /-- SIO_HOLD_WRITE (R361). A write of SIO_STO_CTRL.hold asserts a group at once or allows its release. -/
  | sioHoldWrite (who : Requester) (value : Nat)
  /-- CRUST_CLEAR (R362). CRUST_CLR.clear clears eligible groups' levels and hands their streams back, or sets rejected. -/
  | crustClear (who : Requester) (value : Nat)
  /-- CHG_NONCE (R364). CRUST_CHG_CTRL op NONCE issues a fresh nonce. -/
  | chgNonce (who : Requester)
  /-- CHG_STAGE (R364). op STAGE copies and checks a change record and one authority's signature. -/
  | chgStage (who : Requester) (party : Nat)
  /-- CHG_COMMIT (R364). op COMMIT checks the second signature and applies the TP write, key enrolment or debug unlock. -/
  | chgCommit (who : Requester) (party : Nat)
  /-- CHG_STAGE_EXPIRY (R364). A staged record expires 10 s after staging. -/
  | chgStageExpiry
  /-- PROOF_RUN_ON_DEMAND (R369). INJ_CTRL.proof starts a proof run when all groups are asserted and every context is quiesced. -/
  | proofRunOnDemand (who : Requester)
  /-- PROOF_FAIL_REPEAT (R368). While proof_fail is set, Crust raises SELFTEST every 1 ms. -/
  | proofFailRepeat
  /-- SELFTEST_SLOT (R370). At each 5 ms rotation slot Crust runs that slot's run-time self-test. -/
  | selftestSlot (g : Nat) (detected : Bool)
  /-- STO_PULSE_END (R370). A 200 µs STO pulse test ends and its readback is judged. -/
  | stoPulseEnd (high : Bool)
  /-- ESTOP_TEST_END (R370). A 100 µs internal-open test of an ESTOP channel ends and its reading is judged. -/
  | estopTestEnd (closed : Bool)
  /-- SELFTEST_OVERDUE (R371). A test whose last pass is more than 100 ms old raises SELFTEST. -/
  | selftestOverdue (slot g : Nat)
  /-- BRING_UP (R384). After release of RX_BOOT the ROM and firmware run the boot steps in order under their policies. -/
  | bringUp (ok : Bool) (data : List Nat)
  /-- STEP_TIMEOUT (R384). A boot step exceeds its bound and fails with 0x0C14. -/
  | stepTimeout
  /-- BOOT_UPDATE (R392). BOOT_UPD_CTRL.start verifies a staged image and programs a NOR slot. -/
  | bootUpdate (who : Requester) (value : Nat)
  /-- BOOT_UPDATE_COMPLETE (R393). The update finishes; the readback is checked and the directory written, or 0x0C07 is reported. -/
  | bootUpdateComplete (agrees : Bool)
  /-- BOOT_LOG_CLEAR (R386). BOOT_CTRL.log_clear clears every failure count when the state permits. -/
  | bootLogClear (who : Requester)
  /-- ATTESTATION_QUOTE (R401). KEY_ATT_CTRL.start samples the fields and writes a signed quote to BAR2. -/
  | attestationQuote (who : Requester)
  /-- DEBUG_UNLOCK_EXPIRY (R398). A debug unlock ends at its duration. -/
  | debugUnlockExpiry
  /-- POWER_ON_RESET (R403). VIN qualification or RAIL_AON retention loss begins a FULL reset episode. -/
  | powerOnReset
  /-- BROWNOUT (R403). A rail monitor trip begins a MODULE reset episode. -/
  | brownout (r depth ns : Nat)
  /-- PIN_RESET_ASSERT (R404). RST_IN_N is recognised low after 64 samples and a MODULE reset is held. -/
  | pinResetAssert (samples : Nat)
  /-- PIN_RESET_RELEASE (R404). RST_IN_N is recognised high after 64 samples and the PIN source clears. -/
  | pinResetRelease (samples : Nat)
  /-- CRUST_RESET (R403). 1 ms after a CRUST_INTERNAL or CLOCK event, the reaction unit raises a MODULE reset. -/
  | crustReset
  /-- THERM_SOURCE_CLEAR (R405). THERM clears after at least 1 s once every tripped unit reads below its clearing temperature. -/
  | thermSourceClear
  /-- SW_RESET_MODULE (R408). RST_SW_CTRL with scope MODULE resets domains 1-39. -/
  | swResetModule (who : Requester) (value : Nat)
  /-- SW_RESET_DIES (R408). RST_SW_CTRL with scope DIES resets the named spoke dies when none of their contexts is resident. -/
  | swResetDies (who : Requester) (value : Nat)
  /-- DIE_BRINGUP_REPEAT (R408). After a DIES reset, firmware repeats the die's bring-up step. -/
  | dieBringupRepeat (die mods : Nat) (ready : Bool)
  /-- RESET_HOLD_END (R409). 256 reference cycles after the last source clears, domain release begins. -/
  | resetHoldEnd
  /-- DOMAIN_RELEASE (R409). The next domain is released in ascending order every 64 reference cycles. -/
  | domainRelease
  /-- BLOCK_RESET_DRAIN (R414). RST_BLK_CTRL in DRAIN mode starts draining an eligible block. -/
  | blockResetDrain (who : Requester) (value : Nat)
  /-- BLOCK_RESET_SIRUG (R416). RST_BLK_CTRL in SIRUG mode resets the block at once, terminating work in flight. -/
  | blockResetSirug (who : Requester) (value : Nat)
  /-- BLOCK_DRAIN_DONE (R414). The draining block reports idle and is reset. -/
  | blockDrainDone
  /-- BLOCK_DRAIN_TIMEOUT (R414). RST_DRAIN_TIMEOUT expires; work in flight ends with 0x0D10 and blk_escalated is set. -/
  | blockDrainTimeout
  /-- BLOCK_RESET_RELEASE (R414). After 64 reference cycles the block is released, blk_done is set and waiting work starts. -/
  | blockResetRelease
  /-- POWER_SAMPLE (R425). Every 100 µs input power is sampled, energy accumulated and the cap limits adjusted. -/
  | powerSample (mw vinMv bankMv : Nat)
  /-- RAIL_TARGET_UPDATE (R424). Every 100 µs each rail's target is set from floor, preference and limits, and a step begins. -/
  | railTargetUpdate
  /-- RAIL_STEP_COMPLETE (R421). A one-point rail step completes and the clocks settle. -/
  | railStepComplete (r : Nat)
  /-- DROOP_DETECT (R422). A supply droop of 5 % starts clock stretching in the domain. -/
  | droopDetect (d depth : Nat)
  /-- DROOP_PERSIST (R423). Stretching for 10 µs without a break lowers the rail's droop limit. -/
  | droopPersist (d : Nat)
  /-- DROOP_LIMIT_RAISE (R423). After 10 ms without a persistence event, the droop limit rises by one point. -/
  | droopLimitRaise (r : Nat)
  /-- THERMAL_SAMPLE (R432). Every 100 µs the sensors are sampled and warn and sensor faults are judged. -/
  | thermalSample (readings : List Int)
  /-- THERM_THROTTLE_STEP (R433). Every 1 ms while above throttle, the unit's rail therm_limit drops a point. -/
  | thermThrottleStep (r : Nat)
  /-- THERM_RECOVER_STEP (R433). Every 10 ms after recovery, therm_limit rises a point. -/
  | thermRecoverStep (r : Nat)
  /-- INPUT_LOSS (R430). VIN low or high is qualified; the store stops writes and commits, and Cognition rails and sensor supplies drop. -/
  | inputLoss (vinMv ns : Nat)
  /-- INPUT_RESTORED (R430). VIN qualifies again before the bank is exhausted and input_loss clears. -/
  | inputRestored (vinMv ns : Nat)
  /-- HOLDUP_EXHAUSTED (R429). The bank falls below 28 V; every rail except RAIL_AON is switched off and BROWNOUT follows. -/
  | holdupExhausted (bankMv : Nat)
  /-- SPWR_OVERLOAD (R445). Sensor supply overcurrent trips the output off and clears en. -/
  | spwrOverload (k ma ns : Nat)
  /-- SPWR_OPEN (R445). Sensor supply current below 10 mA for 100 ms is reported as OPEN. -/
  | spwrOpen (k ma ns : Nat)
  /-- SPWR_BACKFEED (R445). A sensor supply pin above 13 V switches the output off. -/
  | spwrBackfeed (k mv : Nat)
  /-- SPWR_REVERSE (R445). A sensor supply pin below -0.5 V switches the output off. -/
  | spwrReverse (k : Nat) (mv : Int)
  /-- SPWR_ENABLE_WRITE (R446). A write of PWR_SPWR_k_CTRL.en switches a sensor supply unless a fault or the 100 ms lockout overrides it. -/
  | spwrEnableWrite (who : Requester) (k value : Nat)
  /-- STO_SHORT_GND (R445). An energised STO output at its current limit is switched off and raises SIO_FAULT. -/
  | stoShortGnd (x ma ns : Nat)
  /-- STO_EXTERNAL_VOLTAGE (R445). A de-energised STO readback above 3 V for 1 ms raises SIO_FAULT. -/
  | stoExternalVoltage (x mv ns : Nat)
  /-- STO_OPEN_WIRE (R445). An energised STO output below 2 mA for 10 ms raises SIO_FAULT. -/
  | stoOpenWire (x ma ns : Nat)
  /-- STO_REVERSE_SOURCE (R445). An STO pin below -1 V holds the output off and raises SIO_FAULT. -/
  | stoReverseSource (x : Nat) (mv : Int)
  /-- ESTOP_SOURCE_SHORT (R445). An ESTOP source at its current limit for 1 ms raises SIO_FAULT and reads open. -/
  | estopSourceShort (channel ma ns : Nat)
  /-- ETH_CABLE_DIAGNOSTIC (R445). Every 1 s while a link is down, the cable diagnostic updates ETH_k_PAIR. -/
  | ethCableDiagnostic (port cond distance : Nat)
  /-- SIO_WIRE_CLEAR (R445). SIO_WIRE_CLR.clear clears latched wiring conditions that are no longer live. -/
  | sioWireClear (who : Requester) (live : Nat)
  /-- SMBUS_READ_BYTE (R441). An SMBus Read Byte returns one byte of the status page. -/
  | smbusReadByte (c : Nat)
  /-- SMBUS_READ_WORD (R441). An SMBus Read Word returns two status bytes from one sample. -/
  | smbusReadWord (c : Nat)
  /-- SMBUS_WRITE (R441). An SMBus write is acknowledged and ignored. -/
  | smbusWrite (c : Nat) (data : Bytes)
  /-- STRETCH_END (R422). Clock stretching in a domain ends with the first cycle after its supply recovers from the droop. -/
  | stretchEnd (d cycles : Nat)
  /-- PROOF_RUN_COMPLETE (R369). An on-demand proof run finishes within 250 ms, records its result in INJ_PROOF_STATUS and ends the proof-run-in-progress state that blocks layout and context requests. -/
  | proofRunComplete (results : List ProofCheck)
  /-- SDF_BUILD_COMPLETE (R272). A running BUILD_SDF finishes, sets the field VALID or leaves it INVALID on failure, clears building and sets sdf_built. -/
  | sdfBuildComplete
deriving DecidableEq, Repr

end Sys2Proof
end

