-- ==== Sys2Proof/Decode.lean ====
section
/-! DEFINITION. The decoder the host's interface asks for. No row of the opcode table gives bits: a command of this
block has no encoding, so no word spells one. -/

namespace Sys2Proof

/-- The command a word spells by the table's bits. The table gives no row any bits, so there is none.
(log entry 3: DESIGN CHOICE in part) -/
def decodeTableWord (_nbits _w : Nat) : Option Instr := none

end Sys2Proof
end

