-- ==== Sys2Proof/Machine/Bytes.lean ====
section
/-! DEFINITION. Byte strings: byte order (R3), slices, two's complement, and sparse tables in one canonical form. -/

namespace Sys2Proof.Machine

/-- A number as `n` bytes, least significant first (R3). -/
def leBytes : Nat → Nat → Bytes
  | 0, _ => []
  | n + 1, v => BitVec.ofNat 8 v :: leBytes n (v / 256)

/-- The number a little-endian byte string spells (R3). -/
def leNat : Bytes → Nat
  | [] => 0
  | b :: bs => b.toNat + 256 * leNat bs

/-- A number as `n` bytes, most significant first (the exceptions to R3 that their own definitions name). -/
def beBytes (n v : Nat) : Bytes := (leBytes n v).reverse

/-- The number a big-endian byte string spells. -/
def beNat (bs : Bytes) : Nat := leNat bs.reverse

/-- `n` bytes of a string from offset `off`; bytes past its end are 0. -/
def slice (bs : Bytes) (off n : Nat) : Bytes :=
  let t := (bs.drop off).take n
  t ++ List.replicate (n - t.length) 0

/-- The little-endian field of `n` bytes at offset `off`. -/
def fieldAt (bs : Bytes) (off n : Nat) : Nat := leNat (slice bs off n)

/-- The string with `v` in place of what stands at offset `off`. -/
def patch (bs : Bytes) (off : Nat) (v : Bytes) : Bytes :=
  slice bs 0 off ++ v ++ bs.drop (off + v.length)

/-- The bits [lo + w - 1 : lo] of a number. -/
def bits (v lo w : Nat) : Nat := v / 2 ^ lo % 2 ^ w

/-- The number whose bits [lo + w - 1 : lo] are `x` and whose other bits are those of `v`. -/
def setBits (v lo w x : Nat) : Nat := v % 2 ^ lo + 2 ^ lo * (x % 2 ^ w) + v / 2 ^ (lo + w) * 2 ^ (lo + w)

/-- One bit of a number, as a Bool. -/
def bit (v i : Nat) : Bool := v.testBit i

/-- The two's complement reading of the low `w` bits (R3). -/
def toSigned (w v : Nat) : Int :=
  let u := v % 2 ^ w
  if 2 * u < 2 ^ w then (u : Int) else (u : Int) - (2 : Int) ^ w

/-- The two's complement word of `w` bits of an integer (R3). -/
def ofSigned (w : Nat) (i : Int) : Nat := (i % ((2 : Int) ^ w)).toNat

/-- The signed field of `n` bytes at offset `off`. -/
def sfieldAt (bs : Bytes) (off n : Nat) : Int := toSigned (8 * n) (fieldAt bs off n)

/-- An integer held to a range. -/
def clampI (lo hi v : Int) : Int := if v < lo then lo else if hi < v then hi else v

/-- A Bool as a bit. -/
def b2n (b : Bool) : Nat := if b then 1 else 0

/-- True where every byte is zero (the reserved bytes of R10). -/
def allZero (bs : Bytes) : Bool := bs.all (· == 0)

/-- Zero bytes up to the next multiple of `n`. -/
def padTo (n : Nat) (bs : Bytes) : Bytes := bs ++ List.replicate ((n - bs.length % n) % n) 0

/-- The bytes of a string in groups of `n`, with fuel for the number of groups. -/
def chunks (n : Nat) : Nat → Bytes → List Bytes
  | 0, _ => []
  | k + 1, bs => slice bs 0 n :: chunks n k (bs.drop n)

/-- The smallest multiple of `n` at or above `v`. -/
def alignUp (n v : Nat) : Nat := (v + n - 1) / n * n

/-- The quotient rounded up. -/
def ceilDiv (a b : Nat) : Nat := (a + b - 1) / b

/-! ### Sparse tables

A table by number: pairs with strictly rising keys, none of which holds the value an unlisted key reads as. -/

/-- A sparse table. -/
abbrev Sparse (α : Type) := List (Nat × α)

namespace Sparse

/-- What a key reads as, where `d` gives the unlisted value. -/
def get {α : Type} (d : Nat → α) : Sparse α → Nat → α
  | [], k => d k
  | (j, v) :: t, k => if j = k then v else get d t k

/-- The pair placed in the order of the keys. -/
def insertSorted {α : Type} (k : Nat) (v : α) : Sparse α → Sparse α
  | [] => [(k, v)]
  | (j, w) :: t => if k < j then (k, v) :: (j, w) :: t else (j, w) :: insertSorted k v t

/-- The table without a key. -/
def erase {α : Type} (k : Nat) : Sparse α → Sparse α
  | [] => []
  | (j, w) :: t => if j = k then erase k t else (j, w) :: erase k t

/-- The table with a key at a value; a value that the unlisted key reads as is not listed. -/
def put {α : Type} [DecidableEq α] (d : Nat → α) (m : Sparse α) (k : Nat) (v : α) : Sparse α :=
  if v = d k then erase k m else insertSorted k v (erase k m)

/-- The canonical form. -/
def wf {α : Type} [DecidableEq α] (d : Nat → α) : Sparse α → Bool
  | [] => true
  | (j, v) :: t => decide (v ≠ d j) && t.all (fun p => decide (j < p.1)) && wf d t

end Sparse

end Sys2Proof.Machine
end

