-- ==== Sys2Proof/Machine/Arith.lean ====
section
/-! DEFINITION. The integer arithmetic of chapter 02: rounding, the fifteen formats, shared scales, the INT48
accumulator, requantisation, the absmax quantiser and the softmax unit. -/

namespace Sys2Proof.Machine

/-- x × 2^-d rounded half to even (the rounding primitive of R29); 0 from d = 64 up.
(log entry 28: DEDUCED in part) -/
def rshiftRne (x : Int) (d : Int) : Int :=
  if d ≤ 0 then x * (2 : Int) ^ (-d).toNat
  else if 64 ≤ d then 0
  else
    let p : Int := (2 : Int) ^ d.toNat
    let q := x / p
    let rem := x - q * p
    if p < rem * 2 || (rem * 2 == p && q % 2 == 1) then q + 1 else q

/-- n / den rounded half to even, for den > 0 (R29). (log entry 28: DEDUCED in part) -/
def divRne (n den : Int) : Int :=
  let q := n / den
  let rem := n - q * den
  if den < rem * 2 || (rem * 2 == den && q % 2 == 1) then q + 1 else q

/-- The fifteen formats of R31. -/
inductive Format
  | bin1 | int2 | int3 | int4 | uint4 | int6 | int8 | uint8 | int12 | int16 | q15 | int24 | int32 | acc40 | int48
deriving DecidableEq, Repr

/-- The format of a code of R31; 0xF is the escape, which level 1 rejects. -/
def formatOf : Nat → Option Format
  | 0 => some .bin1 | 1 => some .int2 | 2 => some .int3 | 3 => some .int4 | 4 => some .uint4 | 5 => some .int6
  | 6 => some .int8 | 7 => some .uint8 | 8 => some .int12 | 9 => some .int16 | 10 => some .q15 | 11 => some .int24
  | 12 => some .int32 | 13 => some .acc40 | 14 => some .int48 | _ => none

/-- Width in bits (R31). -/
def formatWidth : Format → Nat
  | .bin1 => 1 | .int2 => 2 | .int3 => 3 | .int4 => 4 | .uint4 => 4 | .int6 => 6 | .int8 => 8 | .uint8 => 8
  | .int12 => 12 | .int16 => 16 | .q15 => 16 | .int24 => 24 | .int32 => 32 | .acc40 => 40 | .int48 => 48

/-- Bits an element occupies in memory: the containers of R33 are 64 bits. -/
def formatCell : Format → Nat
  | .acc40 => 64 | .int48 => 64 | f => formatWidth f

/-- Elements of a packing group (R31). -/
def groupElems : Format → Nat
  | .bin1 => 8 | .int2 => 4 | .int3 => 8 | .int4 => 2 | .uint4 => 2 | .int6 => 4 | .int12 => 2 | _ => 1

/-- Bytes of a packing group (R31). -/
def groupBytes (f : Format) : Nat := groupElems f * formatCell f / 8

/-- True for the two unsigned formats. -/
def formatUnsigned : Format → Bool
  | .uint4 => true | .uint8 => true | _ => false

/-- True where the format takes a shared scale (R31). -/
def formatScaled : Format → Bool
  | .q15 => false | .acc40 => false | .int48 => false | _ => true

/-- True for the matrix operands of R31. -/
def formatMatrix : Format → Bool
  | .q15 => false | .int24 => false | .int32 => false | .acc40 => false | .int48 => false | _ => true

/-- The largest integer of a format. -/
def formatHi (f : Format) : Int :=
  if f = .bin1 then 1 else if formatUnsigned f then (2 : Int) ^ formatWidth f - 1 else (2 : Int) ^ (formatWidth f - 1) - 1

/-- The smallest integer of a format in its full or symmetric range (R34). -/
def formatLo (f : Format) (sym : Bool) : Int :=
  if f = .bin1 then -1 else if formatUnsigned f then 0 else if sym then -formatHi f else -(2 : Int) ^ (formatWidth f - 1)

/-- Four times the rate factor ρ of a matrix operand (R105). -/
def formatRate4 : Format → Nat
  | .bin1 => 16 | .int2 => 16 | .int3 => 16 | .int4 => 8 | .uint4 => 8 | .int6 => 4 | .int8 => 4 | .uint8 => 4
  | _ => 1

/-- Saturation to a format (R30, R34): the value and whether the clamp changed it. BIN1 does not saturate: zero and
above become +1. -/
def satTo (f : Format) (sym : Bool) (v : Int) : Int × Bool :=
  if f = .bin1 then (if 0 ≤ v then 1 else -1, false)
  else
    let c := clampI (formatLo f sym) (formatHi f) v
    (c, decide (c ≠ v))

/-- Saturation to INT48, with the saturation flag (R39). -/
def sat48 (v : Int) : Int × Bool := satTo .int48 false v

/-- Saturation to INT32, with the saturation flag. -/
def sat32 (v : Int) : Int × Bool := satTo .int32 false v

/-- The integer that the `formatCell` bits of an element stand for (R31, R33). -/
def decodeElem (f : Format) (v : Nat) : Int :=
  match f with
  | .bin1 => if v % 2 = 0 then 1 else -1
  | f => if formatUnsigned f then (v % 2 ^ formatWidth f : Nat) else toSigned (formatWidth f) v

/-- The bits that stand for an integer in a format (R31, R33). -/
def encodeElem (f : Format) (q : Int) : Nat :=
  match f with
  | .bin1 => if 0 ≤ q then 0 else 1
  | f => ofSigned (formatCell f) q

/-- Bytes of a run of `n` elements, packed from a group boundary (R32). -/
def runBytes (f : Format) (n : Nat) : Nat := ceilDiv n (groupElems f) * groupBytes f

/-- Element `i` of a packed run (R32). -/
def elemAt (f : Format) (bs : Bytes) (i : Nat) : Int :=
  let g := fieldAt bs (i / groupElems f * groupBytes f) (groupBytes f)
  decodeElem f (bits g (i % groupElems f * formatCell f) (formatCell f))

/-- The first `n` elements of a packed run (R32). -/
def unpack (f : Format) (bs : Bytes) (n : Nat) : List Int := (List.range n).map (elemAt f bs)

/-- The integers of one packing group as one number, element 0 lowest (R32). -/
def packGroup (f : Format) : List Int → Nat
  | [] => 0
  | q :: qs => encodeElem f q + 2 ^ formatCell f * packGroup f qs

/-- A run packed from a group boundary; unused bits of its last group are zero (R32). -/
def packRun (f : Format) (qs : List Int) : Bytes :=
  ((List.range (ceilDiv qs.length (groupElems f))).map (fun g =>
    leBytes (groupBytes f) (packGroup f ((qs.drop (g * groupElems f)).take (groupElems f))))).flatten

/-- A scale word: multiplier and exponent. -/
structure Scale where
  m : Nat
  e : Int
deriving DecidableEq, Repr

/-- The scale word of its 16 bits. -/
def scaleOf (w : Nat) : Scale := ⟨w % 256, toSigned 8 (w / 256)⟩

/-- The 16 bits of a scale word. -/
def scaleWord (s : Scale) : Nat := s.m % 256 + 256 * ofSigned 8 s.e

/-- The scale of a format that takes no shared scale: Q15 is q × 2^-15; the others are bare (R31). -/
def fixedScale : Format → Scale
  | .q15 => ⟨1, -15⟩
  | _ => ⟨1, 0⟩

/-- Block width along the innermost dimension of granularity codes 2 to 5 (R36). -/
def blockWidth (g : Nat) : Option Nat :=
  if g = 2 then some 16 else if g = 3 then some 32 else if g = 4 then some 64 else if g = 5 then some 128 else none

/-- Scale words of one row of `inner` elements (R36); one in all for code 0. -/
def scalesPerRow (g inner : Nat) : Nat :=
  match blockWidth g with
  | some w => ceilDiv inner w
  | none => 1

/-- The index of the scale word of an element of a tensor (R36). -/
def scaleIndex (g inner row col : Nat) : Nat :=
  match blockWidth g with
  | some w => row * ceilDiv inner w + col / w
  | none => if g = 0 then 0 else row

/-- The saturation events of an operation (R49, R51): the four kinds and the number of clamped elements. -/
structure SatEvents where
  acc : Bool := false
  out : Bool := false
  scale : Bool := false
  func : Bool := false
  elems : Nat := 0
deriving DecidableEq, Repr

/-- The events of two parts of an operation together. (log entry 29: DEDUCED in part) -/
def SatEvents.join (a b : SatEvents) : SatEvents :=
  ⟨a.acc || b.acc, a.out || b.out, a.scale || b.scale, a.func || b.func, a.elems + b.elems⟩

/-- The completion code of R50: the lowest of 0x0101 to 0x0104 that occurred, or 0. (log entry 29: DEDUCED in part) -/
def SatEvents.code (e : SatEvents) : Nat :=
  if e.acc then 0x0101 else if e.out then 0x0102 else if e.scale then 0x0103 else if e.func then 0x0104 else 0

/-- One term of an accumulator: block sum, scale product and block exponent (R37). -/
structure Term where
  s : Int
  m : Nat
  e : Int
deriving DecidableEq, Repr

/-- The accumulator exponent of R38 over the blocks, of which those with M = 0 are empty; none when all are empty. -/
def accExponent (h : Nat) (ts : List Term) : Option Int :=
  ts.foldl (fun r t => if t.m = 0 then r else
    match r with
    | none => some (t.e + h)
    | some x => some (max x (t.e + h))) none

/-- The saturating sum of R39 over terms at one exponent, in their order: a term enters as it is, and the sum is held to
INT48. (log entry 29: DEDUCED in part) -/
def accSum (e : Int) (ts : List Term) : Int × Bool :=
  ts.foldl (fun (r : Int × Bool) t =>
    if t.m = 0 then r else
      let x := sat48 (r.1 + rshiftRne (t.s * t.m) (e - t.e))
      (x.1, r.2 || x.2)) (0, false)

/-- The accumulator of R38 and R39, with its exponent and saturation flag. The groups are the partial sums of a K
split, which are then combined in order; one group is an operation that is not split. -/
def accumulate (h : Nat) (groups : List (List Term)) : Int × Int × Bool :=
  match accExponent h groups.flatten with
  | none => (0, 0, false)
  | some e =>
    let parts := groups.map (accSum e)
    let r := parts.foldl (fun (r : Int × Bool) p =>
      let x := sat48 (r.1 + p.1)
      (x.1, r.2 || p.2 || x.2)) (0, false)
    (r.1, e, r.2)

/-- The requantisation of R42: the output integer and whether it saturated. -/
def requantise (f : Format) (sym : Bool) (a eacc : Int) (r : Nat) (t : Int) : Int × Bool :=
  satTo f sym (rshiftRne (a * r) (t - eacc))

/-- A block as the absmax quantiser leaves it (R43). -/
structure Quantised where
  scale : Scale
  qs : List Int
  clamped : List Bool
  scaleSat : Bool
deriving DecidableEq, Repr

/-- ⌈a × 2^-s / q⌉ of R43 step 3, where s = e - E. -/
def absmaxC (a q : Nat) (s : Int) : Nat :=
  if 0 ≤ s then ceilDiv a (q * 2 ^ s.toNat) else ceilDiv (a * 2 ^ (-s).toNat) q

/-- The smallest s = e - E with c ≤ 255 (R43 step 4). -/
def absmaxShift (a q : Nat) : Int :=
  match (List.range 256).find? (fun n => decide (absmaxC a q ((n : Int) - 128) ≤ 255)) with
  | some n => (n : Int) - 128
  | none => 128

/-- The absmax quantiser of R43 over pairs (x, E), into a signed format's symmetric range or an unsigned format. -/
def absmax (f : Format) (xs : List (Int × Int)) : Quantised :=
  let e0 := xs.foldl (fun r p => match r with | none => some p.2 | some x => some (max x p.2)) (none : Option Int)
  match e0 with
  | none => ⟨⟨0, 0⟩, [], [], false⟩
  | some em =>
    let ys := xs.map (fun p => rshiftRne p.1 (em - p.2))
    let a := ys.foldl (fun r y => max r y.natAbs) 0
    if a = 0 then ⟨⟨0, 0⟩, ys.map (fun _ => 0), ys.map (fun _ => false), false⟩
    else
      let q := (formatHi f).toNat
      let e := em + absmaxShift a q
      let sc : Scale × Bool :=
        if e < -128 then (⟨absmaxC a q (-128 - em), -128⟩, false)
        else if 127 < e then (⟨255, 127⟩, true)
        else (⟨absmaxC a q (e - em), e⟩, false)
      let outs := ys.map (fun y =>
        let d := em - sc.1.e
        satTo f true (if 0 ≤ d then divRne (y * (2 : Int) ^ d.toNat) sc.1.m
          else divRne y ((sc.1.m : Int) * (2 : Int) ^ (-d).toNat)))
      ⟨sc.1, outs.map (fun p => p.1), outs.map (fun p => p.2), sc.2⟩

end Sys2Proof.Machine
end

