-- ==== Sys2Proof/Machine/Tables.lean ====
section
/-! DEFINITION. The function units of chapter 02 (R44 to R48): each table entry is the exact value rounded, which is
computed here from integer roots, quotients and series with 288 fraction bits. -/

namespace Sys2Proof.Machine

/-- Newton's iteration for the integer square root, with fuel. -/
def isqrtIter : Nat → Nat → Nat → Nat
  | 0, _, g => g
  | k + 1, n, g =>
    let h := (g + n / g) / 2
    if h < g then isqrtIter k n h else g

/-- The integer square root, rounded down. -/
def isqrt (n : Nat) : Nat :=
  if n = 0 then 0 else isqrtIter (n.log2 + 8) n (2 ^ (n.log2 / 2 + 1))

/-- Fraction bits of the series. (log entry 31: DESIGN CHOICE in part) -/
def seriesBits : Nat := 288

/-- Σ x^n / n! in fixed point for x = num / den, over the next `k` terms. -/
def expSeries (num den : Nat) : Nat → Nat → Nat → Nat → Nat
  | 0, _, _, acc => acc
  | k + 1, n, t, acc => expSeries num den k (n + 1) (t * num / (den * (n + 1))) (acc + t)

/-- e^(num/den) with `seriesBits` fraction bits, for arguments up to 32. (log entry 31: DESIGN CHOICE in part) -/
def expFix (num den : Nat) : Nat := expSeries num den 260 0 (2 ^ seriesBits) 0

/-- arctan(1/x) in fixed point over the next `k` terms. -/
def atanSeries (x2 : Nat) : Nat → Nat → Nat → Int → Int → Int
  | 0, _, _, _, acc => acc
  | k + 1, n, t, sg, acc => atanSeries x2 k (n + 2) (t / x2) (-sg) (acc + sg * ((t / n : Nat) : Int))

/-- π with `seriesBits` fraction bits, by Machin's formula. -/
def piFix : Nat :=
  (16 * atanSeries 25 140 1 (2 ^ seriesBits / 5) 1 0 - 4 * atanSeries 57121 40 1 (2 ^ seriesBits / 239) 1 0).toNat

/-- Σ w^(2n+1) / (1·3·…·(2n+1)) in fixed point for w² = num / den, over the next `k` terms. -/
def phiSeries (num den : Nat) : Nat → Nat → Nat → Nat → Nat
  | 0, _, _, acc => acc
  | k + 1, n, t, acc => phiSeries num den k (n + 1) (t * num / (den * (2 * n + 3))) (acc + t)

/-- Φ(j/32) - 1/2 with `seriesBits` fraction bits. -/
def phiHalf (j : Nat) : Nat :=
  let sum := phiSeries (j * j) 1024 300 0 (j * 2 ^ seriesBits / 32) 0
  let e := expFix (j * j) 2048
  let root := isqrt (2 * piFix * 2 ^ seriesBits)
  sum * 2 ^ seriesBits / e * 2 ^ seriesBits / root

/-- A nonnegative fixed-point number with `seriesBits` fraction bits rounded half to even.
(log entry 31: DESIGN CHOICE in part) -/
def roundFix (v : Int) : Int := divRne v ((2 : Int) ^ seriesBits)

/-- Entry k of the exp2 table: 2^30 × 2^(k/256). (log entry 31: DESIGN CHOICE in part) -/
def tExp2 (k : Nat) : Int :=
  let w := isqrt (isqrt (isqrt (isqrt (isqrt (isqrt (isqrt (isqrt (2 ^ (256 * 31 + k)))))))))
  ((w + 1) / 2 : Nat)

/-- Entry k of the reciprocal table: 2^39 / (256 + k). (log entry 31: DESIGN CHOICE in part) -/
def tRcp (k : Nat) : Int := divRne (2 ^ 39) (256 + k)

/-- Entry k of the two rsqrt tables: 2^31 / √(1 + k/256), and 2^31 / √(2 (1 + k/256)) for odd t.
(log entry 31: DESIGN CHOICE in part) -/
def tRsqrt (odd : Bool) (k : Nat) : Int :=
  ((isqrt (2 ^ 72 / ((256 + k) * (if odd then 2 else 1))) + 1) / 2 : Nat)

/-- Entry k of the sigmoid table: 2^31 × sigmoid(k/32). (log entry 31: DESIGN CHOICE in part) -/
def tSigmoid (k : Nat) : Int :=
  let e := expFix k 32
  divRne ((2 : Int) ^ 31 * e) ((e : Int) + 2 ^ seriesBits)

/-- Entry k of the tanh table: 2^31 × tanh(k/64). (log entry 31: DESIGN CHOICE in part) -/
def tTanh (k : Nat) : Int :=
  let e := expFix k 32
  divRne ((2 : Int) ^ 31 * ((e : Int) - 2 ^ seriesBits)) ((e : Int) + 2 ^ seriesBits)

/-- Entry k of the GELU table: 2^16 × g(-8 + k/32) with g(w) = w × Φ(w). (log entry 31: DESIGN CHOICE in part) -/
def tGelu (k : Nat) : Int :=
  let j : Int := (k : Int) - 256
  let half : Int := 2 ^ (seriesBits - 1)
  let phi : Int := if 0 ≤ j then half + phiHalf j.natAbs else half - phiHalf j.natAbs
  divRne (j * 2 ^ 11 * phi) ((2 : Int) ^ seriesBits)

/-- Linear interpolation between entries k and k + 1 (chapter 02, function units).
(log entry 31: DESIGN CHOICE in part) -/
def interpolate (t : Nat → Int) (k u b : Nat) : Int := t k + rshiftRne ((t (k + 1) - t k) * u) b

/-- A raw result v × 2^p. -/
structure Raw where
  v : Int
  p : Int
deriving DecidableEq, Repr

/-- The exp2 unit over an INT32 with 16 fraction bits (R44). -/
def exp2Raw (x : Int) : Raw :=
  let f := (x % 65536).toNat
  ⟨interpolate tExp2 (f / 256) (f % 256) 8, x / 65536 - 30⟩

/-- The normalisation of R45: n and z for a nonzero integer. -/
def normalise (x : Int) : Nat × Nat :=
  let a := x.natAbs
  let n := a.log2
  let z := (rshiftRne a ((n : Int) - 23)).toNat
  if z = 2 ^ 24 then (n + 1, 2 ^ 23) else (n, z)

/-- The reciprocal unit over a nonzero integer x × 2^Ex (R44). -/
def rcpRaw (x ex : Int) : Raw :=
  let nz := normalise x
  let v := interpolate tRcp (nz.2 / 2 ^ 15 - 256) (nz.2 % 2 ^ 15) 15
  ⟨if x < 0 then -v else v, -31 - nz.1 - ex⟩

/-- The rsqrt unit over a positive x × 2^Ex (R44). -/
def rsqrtRaw (x ex : Int) : Raw :=
  let nz := normalise x
  let t := (nz.1 : Int) + ex
  let odd := t % 2 == 1
  let v := interpolate (tRsqrt odd) (nz.2 / 2 ^ 15 - 256) (nz.2 % 2 ^ 15) 15
  ⟨v, -31 - (if odd then (t - 1) / 2 else t / 2)⟩

/-- The sigmoid unit (R44). -/
def sigmoidRaw (x : Int) : Raw :=
  let s := x.natAbs
  let v := if 2 ^ 19 ≤ s then tSigmoid 256 else interpolate tSigmoid (s / 2 ^ 11) (s % 2 ^ 11) 11
  ⟨if x < 0 then 2 ^ 31 - v else v, -31⟩

/-- The tanh unit (R44). -/
def tanhRaw (x : Int) : Raw :=
  let s := x.natAbs
  let v := if 2 ^ 18 ≤ s then tTanh 256 else interpolate tTanh (s / 2 ^ 10) (s % 2 ^ 10) 10
  ⟨if x < 0 then -v else v, -31⟩

/-- The GELU unit (R44). -/
def geluRaw (x : Int) : Raw :=
  if x < -(2 ^ 19) then ⟨0, -16⟩
  else if 2 ^ 19 ≤ x then ⟨x, -16⟩
  else
    let s := (x + 2 ^ 19).toNat
    ⟨interpolate tGelu (s / 2 ^ 11) (s % 2 ^ 11) 11, -16⟩

/-- The SILU of R118 stage 4. -/
def siluRaw (x : Int) : Raw := ⟨rshiftRne (x * (sigmoidRaw x).v) 31, -16⟩

/-- The outcome of a function unit: a raw result, or the domain error of R46. -/
def funcRaw (func : Nat) (x ex : Int) : Option Raw :=
  match func with
  | 1 => some (exp2Raw x)
  | 2 => if x = 0 then none else some (rcpRaw x ex)
  | 3 => if x ≤ 0 then none else some (rsqrtRaw x ex)
  | 4 => some (sigmoidRaw x)
  | 5 => some (tanhRaw x)
  | 6 => some (geluRaw x)
  | 7 => some ⟨max x 0, -16⟩
  | 8 => some (siluRaw x)
  | _ => some ⟨x, -16⟩

/-- A function with its output conversion of R46 into a format: the value, its saturation flag and its domain flag. -/
def funcOut (f : Format) (func : Nat) (x ex : Int) (fo : Nat) : Int × Bool × Bool :=
  match funcRaw func x ex with
  | none => (formatHi f, false, true)
  | some r =>
    let y := satTo f false (rshiftRne r.v (-r.p - fo))
    (y.1, y.2, false)

/-- The integer softmax of R47 over a row; `none` is a masked element. The values and saturation flags. -/
def softmaxRow (f : Format) (fin fp : Nat) (xs : List (Option Int)) : List (Int × Bool) :=
  match xs.foldl (fun r x => match r, x with
      | none, x => x
      | some m, some y => some (max m y)
      | r, none => r) none with
  | none => xs.map (fun _ => (0, false))
  | some mx =>
    let es := xs.map (fun x => match x with
      | none => 0
      | some y =>
        let r := exp2Raw (max ((y - mx) * (2 : Int) ^ (16 - fin)) (-(2 ^ 31)))
        rshiftRne r.v (-r.p - 30))
    let r := rcpRaw (es.foldl (· + ·) 0) 0
    es.map (fun e => satTo f false (rshiftRne (e * r.v) (-r.p - fp)))

end Sys2Proof.Machine
end

