-- ==== Sys2Proof/Config.lean ====
section
/-! DEFINITION. The free values: what the spec leaves open and every implementation fills in its own way. Each is a
constant with no body, so no proof can rest on a value of it (log entries 4 and 6). -/

namespace Sys2Proof.Config

/-- A byte of a range of memory whose contents the spec calls undefined (R80, R101, R135, R406), by the number of the
range's undefined contents and the address. -/
opaque memByte (id addr : Nat) : BitVec 8

/-- A byte that the spec leaves open, by the index the model's counter of free values gives it. -/
opaque freeByte (index : Nat) : BitVec 8

/-- A number that the spec leaves open, by the index the model's counter of free values gives it. -/
opaque freeNat (index : Nat) : Nat

/-- The 16 bytes of a nonce that Crust issues (R364), by the index of the free value. -/
opaque nonce (index : Nat) : BitVec 128

/-- The private scalar of the module's identity key (R400). -/
opaque identityKey : Nat

/-- The number of raw blocks of the flash store (R196). -/
opaque flashBlocks : Nat

/-- The raw blocks that are marked bad at manufacture (R196). -/
opaque flashFactoryBad : List Nat

/-- The offset of a die's copy of device time after a realignment (R19), from 0 to 16 taken modulo 17: 8 less than it, in
ns, by the index of the free value. -/
opaque dieSkew (index : Nat) : Nat

/-- The MAC address base of the module (ETH_MAC: per module). -/
opaque ethMac : BitVec 48

/-- The version of the boot ROM (BOOT_ROM_VERSION: per ROM). -/
opaque romVersion : BitVec 24

/-- Byte `i` of the fused hash of the vendor's firmware key (R394). -/
opaque vendorKeyHash (i : Nat) : BitVec 8

/-- The clock in MHz of a link domain (R20 gives its lanes' rate alone). -/
opaque linkMhz (domain : Nat) : BitVec 12

/-- The bytes of one flit of a UCIe link (R210 names the flit as the unit of grant and gives no size). -/
opaque linkFlit : Nat

/-- Where FTL_STATUS.life lies between the remaining life of the most-erased block and 100 percent, by the number of erases:
the spec rates a block at 3,000 cycles and does not say how the blocks' counts make one figure. -/
opaque flashLife (erases : Nat) : Nat

/-- The fields of a planner STOP that the spec leaves open (R296, R297), as a function of what R299 lets them depend on: the
primitive table, the arguments, the start block, the candidates, the status and the contents of e0 and e1. -/
opaque planOpen (inputs : List (List (BitVec 8))) (index : Nat) : BitVec 8

end Sys2Proof.Config
end

