-- ==== Sys2Proof/Machine/RegMap.lean ====
section
/-! DEFINITION. The register map of BAR0: every register table of the spec (the tables under the headings of the
register sections of chapters 01 to 24), one `RegFam` row for each register or array of registers, and the names of
the registers, of their fields and of their event bits with the companion counters of R8. -/

namespace Sys2Proof.Machine

/-- The access codes of R6. -/
inductive Acc | ro | rw | wc | ws | sc | tp
deriving DecidableEq, Repr

/-- A field of a register table: lowest bit, width, access code and reset value. -/
structure RegField where
  lo : Nat
  width : Nat
  acc : Acc
  reset : Nat
deriving DecidableEq, Repr

/-- A register or array of registers: the dies that have it, its offset in its block, outer stride and count, inner
stride and count, its length in 32-bit words (2 for a pair of R5), and its fields. -/
structure RegFam where
  dies : List Nat
  base : Nat
  stride : Nat
  count : Nat
  stride2 : Nat
  count2 : Nat
  words : Nat
  fields : List RegField
deriving DecidableEq, Repr

/-- A field by absolute BAR0 offset, lowest bit and width. -/
structure Fld where
  addr : Nat
  lo : Nat
  width : Nat
deriving DecidableEq, Repr

/-- A WC status bit and the offset of its companion counter (R8). -/
structure Evt where
  status : Nat
  bit : Nat
  counter : Nat
deriving DecidableEq, Repr

/-- Block 0x00: ID_DIE_INFO (01 R25), ID_PART (01 R25), ID_CAP_COMPUTE (01 R25), ID_CAP_MEM (01 R25), ID_CAP_OPS (01 R25), ID_CAP_ENGINES (01 R25), ID_CAP_LINK (01 R25), ID_CAP_DEVICE (01 R25), ID_FEATURES (01 R25). -/
def regBlock00 : List RegFam := [
  ⟨[0], 0x0, 4, 1, 4, 1, 1, [⟨0, 4, .ro, 0⟩, ⟨4, 1, .ro, 1⟩, ⟨8, 4, .ro, 0⟩, ⟨12, 4, .ro, 0⟩, ⟨16, 8, .ro, 1⟩]⟩,
  ⟨[1], 0x0, 4, 1, 4, 1, 1, [⟨0, 4, .ro, 1⟩, ⟨4, 1, .ro, 1⟩, ⟨8, 4, .ro, 1⟩, ⟨12, 4, .ro, 0⟩, ⟨16, 8, .ro, 1⟩]⟩,
  ⟨[2], 0x0, 4, 1, 4, 1, 1, [⟨0, 4, .ro, 2⟩, ⟨4, 1, .ro, 1⟩, ⟨8, 4, .ro, 2⟩, ⟨12, 4, .ro, 0⟩, ⟨16, 8, .ro, 1⟩]⟩,
  ⟨[3], 0x0, 4, 1, 4, 1, 1, [⟨0, 4, .ro, 3⟩, ⟨4, 1, .ro, 1⟩, ⟨8, 4, .ro, 3⟩, ⟨12, 4, .ro, 0⟩, ⟨16, 8, .ro, 1⟩]⟩,
  ⟨[4], 0x0, 4, 1, 4, 1, 1, [⟨0, 4, .ro, 4⟩, ⟨4, 1, .ro, 1⟩, ⟨8, 4, .ro, 3⟩, ⟨12, 4, .ro, 0⟩, ⟨16, 8, .ro, 1⟩]⟩,
  ⟨[0, 1, 2, 3, 4], 0x4, 4, 1, 4, 1, 1, [⟨0, 16, .ro, 23070⟩, ⟨16, 16, .ro, 880⟩]⟩,
  ⟨[0], 0x10, 4, 1, 4, 1, 1, [⟨0, 8, .ro, 8⟩, ⟨8, 8, .ro, 32⟩, ⟨16, 4, .ro, 1⟩]⟩,
  ⟨[1], 0x10, 4, 1, 4, 1, 1, [⟨0, 8, .ro, 0⟩, ⟨8, 8, .ro, 0⟩, ⟨16, 4, .ro, 0⟩]⟩,
  ⟨[2], 0x10, 4, 1, 4, 1, 1, [⟨0, 8, .ro, 16⟩, ⟨8, 8, .ro, 64⟩, ⟨16, 4, .ro, 4⟩]⟩,
  ⟨[3], 0x10, 4, 1, 4, 1, 1, [⟨0, 8, .ro, 48⟩, ⟨8, 8, .ro, 64⟩, ⟨16, 4, .ro, 2⟩]⟩,
  ⟨[4], 0x10, 4, 1, 4, 1, 1, [⟨0, 8, .ro, 48⟩, ⟨8, 8, .ro, 64⟩, ⟨16, 4, .ro, 2⟩]⟩,
  ⟨[0], 0x14, 4, 1, 4, 1, 1, [⟨0, 10, .ro, 56⟩, ⟨16, 4, .ro, 2⟩, ⟨20, 4, .ro, 8⟩]⟩,
  ⟨[1], 0x14, 4, 1, 4, 1, 1, [⟨0, 10, .ro, 256⟩, ⟨16, 4, .ro, 1⟩, ⟨20, 4, .ro, 2⟩]⟩,
  ⟨[2], 0x14, 4, 1, 4, 1, 1, [⟨0, 10, .ro, 64⟩, ⟨16, 4, .ro, 0⟩, ⟨20, 4, .ro, 0⟩]⟩,
  ⟨[3], 0x14, 4, 1, 4, 1, 1, [⟨0, 10, .ro, 32⟩, ⟨16, 4, .ro, 0⟩, ⟨20, 4, .ro, 0⟩]⟩,
  ⟨[4], 0x14, 4, 1, 4, 1, 1, [⟨0, 10, .ro, 32⟩, ⟨16, 4, .ro, 0⟩, ⟨20, 4, .ro, 0⟩]⟩,
  ⟨[0], 0x18, 4, 1, 4, 1, 1, [⟨0, 16, .ro, 4096⟩, ⟨16, 16, .ro, 4096⟩]⟩,
  ⟨[1], 0x18, 4, 1, 4, 1, 1, [⟨0, 16, .ro, 4096⟩, ⟨16, 16, .ro, 4096⟩]⟩,
  ⟨[2], 0x18, 4, 1, 4, 1, 1, [⟨0, 16, .ro, 4096⟩, ⟨16, 16, .ro, 4096⟩]⟩,
  ⟨[3], 0x18, 4, 1, 4, 1, 1, [⟨0, 16, .ro, 2048⟩, ⟨16, 16, .ro, 2048⟩]⟩,
  ⟨[4], 0x18, 4, 1, 4, 1, 1, [⟨0, 16, .ro, 2048⟩, ⟨16, 16, .ro, 2048⟩]⟩,
  ⟨[0], 0x1C, 4, 1, 4, 1, 1, [⟨0, 3, .ro, 2⟩, ⟨3, 1, .ro, 0⟩, ⟨4, 1, .ro, 0⟩, ⟨5, 1, .ro, 0⟩, ⟨6, 1, .ro, 0⟩, ⟨7, 1, .ro, 0⟩, ⟨8, 3, .ro, 4⟩, ⟨12, 8, .ro, 128⟩, ⟨20, 1, .ro, 1⟩, ⟨21, 1, .ro, 1⟩, ⟨22, 1, .ro, 1⟩, ⟨23, 1, .ro, 1⟩, ⟨24, 1, .ro, 0⟩, ⟨25, 1, .ro, 0⟩, ⟨26, 1, .ro, 0⟩, ⟨27, 1, .ro, 0⟩]⟩,
  ⟨[1], 0x1C, 4, 1, 4, 1, 1, [⟨0, 3, .ro, 0⟩, ⟨3, 1, .ro, 0⟩, ⟨4, 1, .ro, 0⟩, ⟨5, 1, .ro, 0⟩, ⟨6, 1, .ro, 0⟩, ⟨7, 1, .ro, 0⟩, ⟨8, 3, .ro, 0⟩, ⟨12, 8, .ro, 0⟩, ⟨20, 1, .ro, 0⟩, ⟨21, 1, .ro, 0⟩, ⟨22, 1, .ro, 0⟩, ⟨23, 1, .ro, 0⟩, ⟨24, 1, .ro, 1⟩, ⟨25, 1, .ro, 1⟩, ⟨26, 1, .ro, 1⟩, ⟨27, 1, .ro, 1⟩]⟩,
  ⟨[2], 0x1C, 4, 1, 4, 1, 1, [⟨0, 3, .ro, 4⟩, ⟨3, 1, .ro, 0⟩, ⟨4, 1, .ro, 1⟩, ⟨5, 1, .ro, 1⟩, ⟨6, 1, .ro, 0⟩, ⟨7, 1, .ro, 0⟩, ⟨8, 3, .ro, 0⟩, ⟨12, 8, .ro, 0⟩, ⟨20, 1, .ro, 0⟩, ⟨21, 1, .ro, 0⟩, ⟨22, 1, .ro, 0⟩, ⟨23, 1, .ro, 0⟩, ⟨24, 1, .ro, 0⟩, ⟨25, 1, .ro, 0⟩, ⟨26, 1, .ro, 0⟩, ⟨27, 1, .ro, 0⟩]⟩,
  ⟨[3], 0x1C, 4, 1, 4, 1, 1, [⟨0, 3, .ro, 0⟩, ⟨3, 1, .ro, 1⟩, ⟨4, 1, .ro, 0⟩, ⟨5, 1, .ro, 0⟩, ⟨6, 1, .ro, 1⟩, ⟨7, 1, .ro, 1⟩, ⟨8, 3, .ro, 0⟩, ⟨12, 8, .ro, 0⟩, ⟨20, 1, .ro, 0⟩, ⟨21, 1, .ro, 0⟩, ⟨22, 1, .ro, 0⟩, ⟨23, 1, .ro, 0⟩, ⟨24, 1, .ro, 0⟩, ⟨25, 1, .ro, 0⟩, ⟨26, 1, .ro, 0⟩, ⟨27, 1, .ro, 0⟩]⟩,
  ⟨[4], 0x1C, 4, 1, 4, 1, 1, [⟨0, 3, .ro, 0⟩, ⟨3, 1, .ro, 1⟩, ⟨4, 1, .ro, 0⟩, ⟨5, 1, .ro, 0⟩, ⟨6, 1, .ro, 1⟩, ⟨7, 1, .ro, 1⟩, ⟨8, 3, .ro, 0⟩, ⟨12, 8, .ro, 0⟩, ⟨20, 1, .ro, 0⟩, ⟨21, 1, .ro, 0⟩, ⟨22, 1, .ro, 0⟩, ⟨23, 1, .ro, 0⟩, ⟨24, 1, .ro, 0⟩, ⟨25, 1, .ro, 0⟩, ⟨26, 1, .ro, 0⟩, ⟨27, 1, .ro, 0⟩]⟩,
  ⟨[0], 0x20, 4, 1, 4, 1, 1, [⟨0, 5, .ro, 1⟩, ⟨8, 5, .ro, 0⟩, ⟨16, 8, .ro, 32⟩, ⟨24, 1, .ro, 0⟩]⟩,
  ⟨[1], 0x20, 4, 1, 4, 1, 1, [⟨0, 5, .ro, 0⟩, ⟨8, 5, .ro, 0⟩, ⟨16, 8, .ro, 0⟩, ⟨24, 1, .ro, 0⟩]⟩,
  ⟨[2], 0x20, 4, 1, 4, 1, 1, [⟨0, 5, .ro, 10⟩, ⟨8, 5, .ro, 0⟩, ⟨16, 8, .ro, 32⟩, ⟨24, 1, .ro, 0⟩]⟩,
  ⟨[3], 0x20, 4, 1, 4, 1, 1, [⟨0, 5, .ro, 4⟩, ⟨8, 5, .ro, 0⟩, ⟨16, 8, .ro, 32⟩, ⟨24, 1, .ro, 0⟩]⟩,
  ⟨[4], 0x20, 4, 1, 4, 1, 1, [⟨0, 5, .ro, 4⟩, ⟨8, 5, .ro, 0⟩, ⟨16, 8, .ro, 32⟩, ⟨24, 1, .ro, 0⟩]⟩,
  ⟨[0, 1, 2, 3, 4], 0x30, 4, 1, 4, 1, 1, [⟨0, 5, .ro, 3⟩, ⟨8, 7, .ro, 64⟩, ⟨16, 4, .ro, 8⟩, ⟨20, 4, .ro, 15⟩]⟩,
  ⟨[0, 1, 2, 3, 4], 0x34, 4, 1, 4, 1, 1, [⟨0, 1, .ro, 0⟩, ⟨1, 1, .ro, 0⟩]⟩]

/-- Block 0x01: CLK_EVT_STATUS (23 R435), CLK_EVT_CNT_0 (23 R435), CLK_EVT_CNT_1 (23 R435), CLK_DOM_d (23 R435). -/
def regBlock01_0 : List RegFam := [
  ⟨[0, 1, 2, 3, 4], 0x0, 4, 1, 4, 1, 1, [⟨0, 1, .wc, 0⟩, ⟨1, 1, .wc, 0⟩]⟩,
  ⟨[0, 1, 2, 3, 4], 0x4, 4, 1, 4, 1, 1, [⟨0, 16, .ro, 0⟩]⟩,
  ⟨[0, 1, 2, 3, 4], 0x8, 4, 1, 4, 1, 1, [⟨0, 16, .ro, 0⟩]⟩,
  ⟨[0], 0x100, 4, 1, 4, 1, 1, [⟨0, 12, .ro, 100⟩, ⟨12, 1, .ro, 0⟩, ⟨16, 16, .ro, 0⟩]⟩,
  ⟨[0], 0x104, 4, 1, 4, 1, 1, [⟨0, 12, .ro, 200⟩, ⟨12, 1, .ro, 0⟩, ⟨16, 16, .ro, 0⟩]⟩,
  ⟨[0], 0x108, 4, 1, 4, 1, 1, [⟨0, 12, .ro, 500⟩, ⟨12, 1, .ro, 0⟩, ⟨16, 16, .ro, 0⟩]⟩,
  ⟨[0], 0x10C, 4, 1, 4, 1, 1, [⟨0, 12, .ro, 800⟩, ⟨12, 1, .ro, 0⟩, ⟨16, 16, .ro, 0⟩]⟩,
  ⟨[0], 0x110, 4, 1, 4, 1, 1, [⟨0, 12, .ro, 1000⟩, ⟨12, 1, .ro, 0⟩, ⟨16, 16, .ro, 0⟩]⟩,
  ⟨[0], 0x114, 4, 1, 4, 1, 1, [⟨0, 12, .ro, 0⟩, ⟨12, 1, .ro, 0⟩, ⟨16, 16, .ro, 0⟩]⟩,
  ⟨[0], 0x118, 4, 1, 4, 1, 1, [⟨0, 12, .ro, 200⟩, ⟨12, 1, .ro, 0⟩, ⟨16, 16, .ro, 0⟩]⟩,
  ⟨[0], 0x11C, 4, 1, 4, 1, 1, [⟨0, 12, .ro, 562⟩, ⟨12, 1, .ro, 0⟩, ⟨16, 16, .ro, 0⟩]⟩,
  ⟨[0], 0x120, 4, 1, 4, 1, 1, [⟨0, 12, .ro, 312⟩, ⟨12, 1, .ro, 0⟩, ⟨16, 16, .ro, 0⟩]⟩,
  ⟨[0], 0x124, 4, 1, 4, 1, 1, [⟨0, 12, .ro, 1000⟩, ⟨12, 1, .ro, 0⟩, ⟨16, 16, .ro, 0⟩]⟩,
  ⟨[0], 0x128, 4, 1, 4, 1, 1, [⟨0, 12, .ro, 1400⟩, ⟨12, 1, .ro, 0⟩, ⟨16, 16, .ro, 0⟩]⟩,
  ⟨[0], 0x12C, 4, 1, 4, 1, 1, [⟨0, 12, .ro, 1000⟩, ⟨12, 1, .ro, 0⟩, ⟨16, 16, .ro, 0⟩]⟩,
  ⟨[0], 0x130, 4, 1, 4, 1, 1, [⟨0, 12, .ro, 700⟩, ⟨12, 1, .ro, 0⟩, ⟨16, 16, .ro, 0⟩]⟩,
  ⟨[0], 0x134, 4, 1, 4, 1, 1, [⟨0, 12, .ro, 1400⟩, ⟨12, 1, .ro, 0⟩, ⟨16, 16, .ro, 0⟩]⟩,
  ⟨[1], 0x138, 4, 1, 4, 1, 1, [⟨0, 12, .ro, 800⟩, ⟨12, 1, .ro, 0⟩, ⟨16, 16, .ro, 0⟩]⟩,
  ⟨[1], 0x13C, 4, 1, 4, 1, 1, [⟨0, 12, .ro, 1200⟩, ⟨12, 1, .ro, 0⟩, ⟨16, 16, .ro, 0⟩]⟩,
  ⟨[1], 0x140, 4, 1, 4, 1, 1, [⟨0, 12, .ro, 1200⟩, ⟨12, 1, .ro, 0⟩, ⟨16, 16, .ro, 0⟩]⟩,
  ⟨[1], 0x144, 4, 1, 4, 1, 1, [⟨0, 12, .ro, 1200⟩, ⟨12, 1, .ro, 0⟩, ⟨16, 16, .ro, 0⟩]⟩,
  ⟨[1], 0x148, 4, 1, 4, 1, 1, [⟨0, 12, .ro, 1200⟩, ⟨12, 1, .ro, 0⟩, ⟨16, 16, .ro, 0⟩]⟩,
  ⟨[1], 0x14C, 4, 1, 4, 1, 1, [⟨0, 12, .ro, 0⟩, ⟨12, 1, .ro, 0⟩, ⟨16, 16, .ro, 0⟩]⟩,
  ⟨[1], 0x150, 4, 1, 4, 1, 1, [⟨0, 12, .ro, 1000⟩, ⟨12, 1, .ro, 0⟩, ⟨16, 16, .ro, 0⟩]⟩,
  ⟨[1], 0x154, 4, 1, 4, 1, 1, [⟨0, 12, .ro, 600⟩, ⟨12, 1, .ro, 0⟩, ⟨16, 16, .ro, 0⟩]⟩,
  ⟨[2], 0x158, 4, 1, 4, 1, 1, [⟨0, 12, .ro, 800⟩, ⟨12, 1, .ro, 0⟩, ⟨16, 16, .ro, 0⟩]⟩,
  ⟨[2], 0x15C, 4, 1, 4, 1, 1, [⟨0, 12, .ro, 1200⟩, ⟨12, 1, .ro, 0⟩, ⟨16, 16, .ro, 0⟩]⟩,
  ⟨[2], 0x160, 4, 1, 4, 1, 1, [⟨0, 12, .ro, 0⟩, ⟨12, 1, .ro, 0⟩, ⟨16, 16, .ro, 0⟩]⟩,
  ⟨[2], 0x164, 4, 1, 4, 1, 1, [⟨0, 12, .ro, 1400⟩, ⟨12, 1, .ro, 0⟩, ⟨16, 16, .ro, 0⟩]⟩,
  ⟨[2], 0x168, 4, 1, 4, 1, 1, [⟨0, 12, .ro, 1400⟩, ⟨12, 1, .ro, 0⟩, ⟨16, 16, .ro, 0⟩]⟩,
  ⟨[2], 0x16C, 4, 1, 4, 1, 1, [⟨0, 12, .ro, 1400⟩, ⟨12, 1, .ro, 0⟩, ⟨16, 16, .ro, 0⟩]⟩,
  ⟨[3], 0x170, 4, 1, 4, 1, 1, [⟨0, 12, .ro, 800⟩, ⟨12, 1, .ro, 0⟩, ⟨16, 16, .ro, 0⟩]⟩,
  ⟨[3], 0x174, 4, 1, 4, 1, 1, [⟨0, 12, .ro, 1200⟩, ⟨12, 1, .ro, 0⟩, ⟨16, 16, .ro, 0⟩]⟩,
  ⟨[3], 0x178, 4, 1, 4, 1, 1, [⟨0, 12, .ro, 0⟩, ⟨12, 1, .ro, 0⟩, ⟨16, 16, .ro, 0⟩]⟩,
  ⟨[3], 0x17C, 4, 1, 4, 1, 1, [⟨0, 12, .ro, 1400⟩, ⟨12, 1, .ro, 0⟩, ⟨16, 16, .ro, 0⟩]⟩,
  ⟨[3], 0x180, 4, 1, 4, 1, 1, [⟨0, 12, .ro, 1400⟩, ⟨12, 1, .ro, 0⟩, ⟨16, 16, .ro, 0⟩]⟩,
  ⟨[3], 0x184, 4, 1, 4, 1, 1, [⟨0, 12, .ro, 1400⟩, ⟨12, 1, .ro, 0⟩, ⟨16, 16, .ro, 0⟩]⟩,
  ⟨[4], 0x188, 4, 1, 4, 1, 1, [⟨0, 12, .ro, 800⟩, ⟨12, 1, .ro, 0⟩, ⟨16, 16, .ro, 0⟩]⟩,
  ⟨[4], 0x18C, 4, 1, 4, 1, 1, [⟨0, 12, .ro, 1200⟩, ⟨12, 1, .ro, 0⟩, ⟨16, 16, .ro, 0⟩]⟩,
  ⟨[4], 0x190, 4, 1, 4, 1, 1, [⟨0, 12, .ro, 0⟩, ⟨12, 1, .ro, 0⟩, ⟨16, 16, .ro, 0⟩]⟩]

/-- Block 0x01: CLK_DOM_d (23 R435). -/
def regBlock01_1 : List RegFam := [
  ⟨[4], 0x194, 4, 1, 4, 1, 1, [⟨0, 12, .ro, 1400⟩, ⟨12, 1, .ro, 0⟩, ⟨16, 16, .ro, 0⟩]⟩,
  ⟨[4], 0x198, 4, 1, 4, 1, 1, [⟨0, 12, .ro, 1400⟩, ⟨12, 1, .ro, 0⟩, ⟨16, 16, .ro, 0⟩]⟩,
  ⟨[4], 0x19C, 4, 1, 4, 1, 1, [⟨0, 12, .ro, 1400⟩, ⟨12, 1, .ro, 0⟩, ⟨16, 16, .ro, 0⟩]⟩]

/-- Block 0x01, whole. -/
def regBlock01 : List RegFam := regBlock01_0 ++ regBlock01_1

/-- Block 0x02: SYNC_VALUE_k (05 R104). -/
def regBlock02 : List RegFam := [
  ⟨[0, 1, 2], 0x0, 8, 4096, 4, 1, 2, [⟨0, 64, .ro, 0⟩]⟩,
  ⟨[3, 4], 0x0, 8, 2048, 4, 1, 2, [⟨0, 64, .ro, 0⟩]⟩]

/-- Block 0x03: QUE_OVR_STATUS (04 R83), QUE_OVR_CNT_OVERRUN (04 R83), QUE_OVR_CNT_SKIP (04 R83), QUE_OVR_LAST (04 R83). -/
def regBlock03 : List RegFam := [
  ⟨[0, 1, 2, 3, 4], 0x100, 4, 1, 4, 1, 1, [⟨0, 1, .wc, 0⟩, ⟨1, 1, .wc, 0⟩]⟩,
  ⟨[0, 1, 2, 3, 4], 0x104, 4, 1, 4, 1, 1, [⟨0, 16, .ro, 0⟩]⟩,
  ⟨[0, 1, 2, 3, 4], 0x108, 4, 1, 4, 1, 1, [⟨0, 16, .ro, 0⟩]⟩,
  ⟨[0, 1, 2, 3, 4], 0x10C, 4, 1, 4, 1, 1, [⟨0, 6, .ro, 0⟩, ⟨6, 2, .ro, 0⟩, ⟨8, 3, .ro, 0⟩, ⟨16, 16, .ro, 0⟩]⟩]

/-- Block 0x04: TCL_EVT_STATUS (11 R215), TCL_EVT_CNT (11 R215), TCL_C0_LAST (11 R215), TCL_CTRL (11 R215), TCL_HRAM (11 R215), TCL_C0_LAT_MAX_r (11 R215). -/
def regBlock04 : List RegFam := [
  ⟨[0, 1, 2, 3, 4], 0x0, 4, 1, 4, 1, 1, [⟨0, 1, .wc, 0⟩, ⟨1, 1, .wc, 0⟩, ⟨2, 1, .wc, 0⟩]⟩,
  ⟨[0, 1, 2, 3, 4], 0x4, 4, 3, 4, 1, 1, [⟨0, 16, .ro, 0⟩]⟩,
  ⟨[0, 1, 2, 3, 4], 0x10, 4, 1, 4, 1, 1, [⟨0, 6, .ro, 0⟩, ⟨8, 4, .ro, 0⟩, ⟨12, 1, .ro, 0⟩]⟩,
  ⟨[0, 1, 2, 3, 4], 0x20, 4, 1, 4, 1, 1, [⟨0, 1, .sc, 0⟩]⟩,
  ⟨[0], 0x40, 4, 1, 4, 1, 1, [⟨0, 1, .ro, 0⟩, ⟨4, 13, .ro, 4096⟩]⟩,
  ⟨[0, 1, 2, 3, 4], 0x100, 4, 10, 4, 1, 1, [⟨0, 24, .ro, 0⟩]⟩]

/-- Block 0x05: MON_SAT_STATUS (02 R51), MON_SAT_CNT_ACC (02 R51), MON_SAT_CNT_OUT (02 R51), MON_SAT_CNT_SCALE (02 R51), MON_SAT_CNT_FUNC (02 R51), MON_SAT_ELEMS (02 R51), MON_SNAP_TIME (11 R215), MON_SNAP_STATUS (11 R215), MON_SNAP_CNT_TAKEN (11 R215), MON_SNAP_CNT_MISSED (11 R215), MON_SNAP_AT (11 R215), MON_BYTES_r_c (11 R215), MON_BYTES_SHADOW_r_c (11 R215), MON_LATE_r_c (11 R215), MON_LATE_SHADOW_r_c (11 R215). -/
def regBlock05 : List RegFam := [
  ⟨[0, 1, 2, 3, 4], 0x800, 4, 1, 4, 1, 1, [⟨0, 1, .wc, 0⟩, ⟨1, 1, .wc, 0⟩, ⟨2, 1, .wc, 0⟩, ⟨3, 1, .wc, 0⟩]⟩,
  ⟨[0, 1, 2, 3, 4], 0x810, 4, 1, 4, 1, 1, [⟨0, 16, .ro, 0⟩]⟩,
  ⟨[0, 1, 2, 3, 4], 0x814, 4, 1, 4, 1, 1, [⟨0, 16, .ro, 0⟩]⟩,
  ⟨[0, 1, 2, 3, 4], 0x818, 4, 1, 4, 1, 1, [⟨0, 16, .ro, 0⟩]⟩,
  ⟨[0, 1, 2, 3, 4], 0x81C, 4, 1, 4, 1, 1, [⟨0, 16, .ro, 0⟩]⟩,
  ⟨[0, 1, 2, 3, 4], 0x820, 8, 1, 4, 1, 2, [⟨0, 64, .ro, 0⟩]⟩,
  ⟨[0, 1, 2, 3, 4], 0x0, 8, 1, 4, 1, 2, [⟨0, 64, .rw, 0⟩]⟩,
  ⟨[0, 1, 2, 3, 4], 0x8, 4, 1, 4, 1, 1, [⟨0, 1, .ro, 0⟩, ⟨1, 1, .wc, 0⟩, ⟨2, 1, .wc, 0⟩, ⟨16, 16, .ro, 0⟩]⟩,
  ⟨[0, 1, 2, 3, 4], 0xC, 4, 1, 4, 1, 1, [⟨0, 16, .ro, 0⟩]⟩,
  ⟨[0, 1, 2, 3, 4], 0x10, 4, 1, 4, 1, 1, [⟨0, 16, .ro, 0⟩]⟩,
  ⟨[0, 1, 2, 3, 4], 0x18, 8, 1, 4, 1, 2, [⟨0, 64, .ro, 0⟩]⟩,
  ⟨[0, 1, 2, 3, 4], 0x1000, 128, 10, 8, 8, 2, [⟨0, 64, .ro, 0⟩]⟩,
  ⟨[0, 1, 2, 3, 4], 0x2000, 128, 10, 8, 8, 2, [⟨0, 64, .ro, 0⟩]⟩,
  ⟨[0, 1, 2, 3, 4], 0x1040, 128, 10, 4, 8, 1, [⟨0, 32, .ro, 0⟩]⟩,
  ⟨[0, 1, 2, 3, 4], 0x2040, 128, 10, 4, 8, 1, [⟨0, 32, .ro, 0⟩]⟩]

/-- Block 0x06: XLT_EVT_STATUS (10 R201), XLT_EVT_CNT (10 R201), XLT_FAULT_LAST (10 R201), XLT_FAULT_VA (10 R201), XLT_TLB (10 R201). -/
def regBlock06 : List RegFam := [
  ⟨[0, 1, 2, 3, 4], 0x0, 4, 1, 4, 1, 1, [⟨0, 1, .wc, 0⟩, ⟨1, 1, .wc, 0⟩, ⟨2, 1, .wc, 0⟩, ⟨3, 1, .wc, 0⟩]⟩,
  ⟨[0, 1, 2, 3, 4], 0x4, 4, 4, 4, 1, 1, [⟨0, 16, .ro, 0⟩]⟩,
  ⟨[0, 1, 2, 3, 4], 0x20, 4, 1, 4, 1, 1, [⟨0, 6, .ro, 0⟩, ⟨16, 16, .ro, 0⟩]⟩,
  ⟨[0, 1, 2, 3, 4], 0x28, 8, 1, 4, 1, 2, [⟨0, 64, .ro, 0⟩]⟩,
  ⟨[0, 1, 2, 3, 4], 0x30, 4, 1, 4, 1, 1, [⟨0, 10, .ro, 0⟩, ⟨16, 10, .ro, 512⟩]⟩]

/-- Block 0x07: BKR_STATUS (21 R402), BKR_EVT_STATUS (21 R402), BKR_EVT_CNT_0 (21 R402), BKR_EVT_CNT_1 (21 R402). -/
def regBlock07 : List RegFam := [
  ⟨[0, 1, 2, 3, 4], 0x0, 4, 1, 4, 1, 1, [⟨0, 1, .ro, 0⟩, ⟨1, 1, .ro, 0⟩, ⟨16, 16, .ro, 0⟩]⟩,
  ⟨[0, 1, 2, 3, 4], 0x10, 4, 1, 4, 1, 1, [⟨0, 1, .wc, 0⟩, ⟨1, 1, .wc, 0⟩]⟩,
  ⟨[0, 1, 2, 3, 4], 0x14, 4, 1, 4, 1, 1, [⟨0, 16, .ro, 0⟩]⟩,
  ⟨[0, 1, 2, 3, 4], 0x18, 4, 1, 4, 1, 1, [⟨0, 16, .ro, 0⟩]⟩]

/-- Block 0x08: INJ_CTRL (20 R376), INJ_PROOF_STATUS (20 R376), INJ_EVT_STATUS (20 R376), INJ_EVT_CNT (20 R376), INJ_ST_AGE_s (20 R376). -/
def regBlock08 : List RegFam := [
  ⟨[0], 0x0, 4, 1, 4, 1, 1, [⟨0, 1, .sc, 0⟩]⟩,
  ⟨[0, 1, 2, 3, 4], 0x4, 4, 1, 4, 1, 1, [⟨0, 1, .ro, 0⟩, ⟨1, 1, .ro, 0⟩, ⟨8, 8, .ro, 0⟩]⟩,
  ⟨[0, 1, 2, 3, 4], 0x10, 4, 1, 4, 1, 1, [⟨0, 1, .wc, 0⟩, ⟨1, 1, .wc, 0⟩, ⟨2, 1, .wc, 0⟩]⟩,
  ⟨[0, 1, 2, 3, 4], 0x14, 4, 3, 4, 1, 1, [⟨0, 16, .ro, 0⟩]⟩,
  ⟨[0], 0x100, 4, 9, 4, 1, 1, [⟨0, 20, .ro, 0⟩]⟩]

/-- Block 0x0A: TILE_BUSY_LO (06 R123), TILE_BUSY_HI (06 R123), TILE_EVT_STATUS (06 R123), TILE_EVT_CNT_CORR (06 R123), TILE_EVT_CNT_UNCORR (06 R123), TILE_EVT_CNT_ABORT (06 R123), TILE_ECC_LAST (06 R123), TILE_OP_CNT (06 R123). -/
def regBlock0A : List RegFam := [
  ⟨[0, 2, 3, 4], 0x0, 4, 1, 4, 1, 1, [⟨0, 32, .ro, 0⟩]⟩,
  ⟨[0, 2, 3, 4], 0x4, 4, 1, 4, 1, 1, [⟨0, 32, .ro, 0⟩]⟩,
  ⟨[0, 2, 3, 4], 0x10, 4, 1, 4, 1, 1, [⟨0, 1, .wc, 0⟩, ⟨1, 1, .wc, 0⟩, ⟨2, 1, .wc, 0⟩]⟩,
  ⟨[0, 2, 3, 4], 0x14, 4, 1, 4, 1, 1, [⟨0, 16, .ro, 0⟩]⟩,
  ⟨[0, 2, 3, 4], 0x18, 4, 1, 4, 1, 1, [⟨0, 16, .ro, 0⟩]⟩,
  ⟨[0, 2, 3, 4], 0x1C, 4, 1, 4, 1, 1, [⟨0, 16, .ro, 0⟩]⟩,
  ⟨[0, 2, 3, 4], 0x20, 4, 1, 4, 1, 1, [⟨0, 6, .ro, 0⟩, ⟨6, 1, .ro, 0⟩, ⟨8, 20, .ro, 0⟩]⟩,
  ⟨[0, 2, 3, 4], 0x30, 8, 1, 4, 1, 2, [⟨0, 64, .ro, 0⟩]⟩]

/-- Block 0x0B: SEQ_CAP (09 R173), SEQ_CMD (09 R173), SEQ_CMD_VA (09 R173), SEQ_CMD_SRAM (09 R173), SEQ_CMD_STATUS (09 R173), SEQ_CMD_TAG (09 R173), SEQ_EVT_STATUS (09 R173), SEQ_EVT_CNT_MOVED (09 R173), SEQ_EVT_CNT_STEPUP (09 R173), SEQ_EVT_CNT_RESTORE (09 R173), SEQ_EVT_CNT_REJECT (09 R173), SEQ_STEPS (09 R173), SEQ_SLOT_e_k (09 R173). -/
def regBlock0B : List RegFam := [
  ⟨[0], 0x0, 4, 1, 4, 1, 1, [⟨0, 3, .ro, 2⟩, ⟨4, 7, .ro, 64⟩, ⟨16, 8, .ro, 32⟩]⟩,
  ⟨[2], 0x0, 4, 1, 4, 1, 1, [⟨0, 3, .ro, 4⟩, ⟨4, 7, .ro, 64⟩, ⟨16, 8, .ro, 64⟩]⟩,
  ⟨[0, 2], 0x10, 4, 1, 4, 1, 1, [⟨0, 1, .sc, 0⟩, ⟨1, 3, .rw, 0⟩, ⟨4, 2, .rw, 0⟩, ⟨8, 6, .rw, 0⟩, ⟨16, 3, .rw, 4⟩]⟩,
  ⟨[0, 2], 0x18, 8, 1, 4, 1, 2, [⟨6, 58, .rw, 0⟩]⟩,
  ⟨[0, 2], 0x20, 4, 1, 4, 1, 1, [⟨6, 26, .rw, 0⟩]⟩,
  ⟨[0, 2], 0x24, 4, 1, 4, 1, 1, [⟨0, 1, .ro, 0⟩, ⟨16, 16, .ro, 0⟩]⟩,
  ⟨[0, 2], 0x28, 4, 1, 4, 1, 1, [⟨0, 16, .ro, 0⟩]⟩,
  ⟨[0, 2], 0x40, 4, 1, 4, 1, 1, [⟨0, 1, .wc, 0⟩, ⟨1, 1, .wc, 0⟩, ⟨2, 1, .wc, 0⟩, ⟨3, 1, .wc, 0⟩]⟩,
  ⟨[0, 2], 0x44, 4, 1, 4, 1, 1, [⟨0, 16, .ro, 0⟩]⟩,
  ⟨[0, 2], 0x48, 4, 1, 4, 1, 1, [⟨0, 16, .ro, 0⟩]⟩,
  ⟨[0, 2], 0x4C, 4, 1, 4, 1, 1, [⟨0, 16, .ro, 0⟩]⟩,
  ⟨[0, 2], 0x50, 4, 1, 4, 1, 1, [⟨0, 16, .ro, 0⟩]⟩,
  ⟨[0, 2], 0x60, 8, 1, 4, 1, 2, [⟨0, 64, .ro, 0⟩]⟩,
  ⟨[0], 0x400, 4, 128, 4, 1, 1, [⟨0, 2, .ro, 0⟩, ⟨2, 1, .ro, 0⟩, ⟨16, 16, .ro, 0⟩]⟩,
  ⟨[2], 0x400, 4, 256, 4, 1, 1, [⟨0, 2, .ro, 0⟩, ⟨2, 1, .ro, 0⟩, ⟨16, 16, .ro, 0⟩]⟩]

/-- Block 0x20: RST_CAUSE (22 R418), RST_SW_CTRL (22 R418), RST_BLK_CTRL (22 R418), RST_DRAIN_TIMEOUT (22 R418), RST_BLK_STATUS (22 R418), RST_BLK_TERM (22 R418), RST_EVT_STATUS (22 R418), RST_EVT_CNT (22 R418), RST_CNT_s (22 R418). -/
def regBlock20 : List RegFam := [
  ⟨[0], 0x0, 4, 1, 4, 1, 1, [⟨0, 9, .ro, 1⟩, ⟨12, 4, .ro, 1⟩, ⟨16, 3, .ro, 0⟩]⟩,
  ⟨[0], 0x10, 4, 1, 4, 1, 1, [⟨0, 1, .sc, 0⟩, ⟨1, 1, .rw, 0⟩, ⟨2, 3, .rw, 0⟩]⟩,
  ⟨[0], 0x20, 4, 1, 4, 1, 1, [⟨0, 1, .sc, 0⟩, ⟨1, 1, .rw, 0⟩, ⟨8, 3, .rw, 0⟩, ⟨16, 8, .rw, 0⟩]⟩,
  ⟨[0], 0x24, 4, 1, 4, 1, 1, [⟨0, 20, .rw, 1000⟩]⟩,
  ⟨[0], 0x28, 4, 1, 4, 1, 1, [⟨0, 1, .ro, 0⟩, ⟨1, 2, .ro, 0⟩, ⟨16, 16, .ro, 0⟩]⟩,
  ⟨[0], 0x2C, 4, 1, 4, 1, 1, [⟨0, 16, .ro, 0⟩]⟩,
  ⟨[0], 0x40, 4, 1, 4, 1, 1, [⟨0, 1, .wc, 0⟩, ⟨1, 1, .wc, 0⟩, ⟨2, 1, .wc, 0⟩]⟩,
  ⟨[0], 0x44, 4, 3, 4, 1, 1, [⟨0, 16, .ro, 0⟩]⟩,
  ⟨[0], 0x104, 4, 9, 4, 1, 1, [⟨0, 16, .ro, 0⟩]⟩]

/-- Block 0x21: PWR_CAP (23 R435), PWR_RX_FLOOR (23 R435), PWR_STATUS (23 R435), PWR_INPUT (23 R435), PWR_VOLT (23 R435), PWR_HOLDUP (23 R435), PWR_ENERGY (23 R435), PWR_EVT_STATUS (23 R435), PWR_EVT_CNT (23 R435), PWR_RAIL_r_STATE (23 R435), PWR_RAIL_r_LIMIT (23 R435), PWR_SPWR_k_CTRL (24 R449), PWR_SPWR_k_STATUS (24 R449), PWR_SPWR_EVT (24 R449), PWR_SPWR_CNT (24 R449). -/
def regBlock21 : List RegFam := [
  ⟨[0], 0x0, 4, 1, 4, 1, 1, [⟨0, 9, .rw, 220⟩]⟩,
  ⟨[0], 0x4, 4, 1, 4, 1, 1, [⟨0, 4, .rw, 7⟩]⟩,
  ⟨[0], 0x10, 4, 1, 4, 1, 1, [⟨0, 1, .ro, 0⟩, ⟨1, 1, .ro, 0⟩, ⟨2, 1, .ro, 0⟩, ⟨3, 2, .ro, 0⟩, ⟨16, 16, .ro, 0⟩]⟩,
  ⟨[0], 0x14, 4, 1, 4, 1, 1, [⟨0, 24, .ro, 0⟩]⟩,
  ⟨[0], 0x18, 4, 1, 4, 1, 1, [⟨0, 16, .ro, 0⟩, ⟨16, 16, .ro, 0⟩]⟩,
  ⟨[0], 0x1C, 4, 1, 4, 1, 1, [⟨0, 16, .ro, 0⟩, ⟨16, 16, .ro, 0⟩]⟩,
  ⟨[0], 0x20, 8, 1, 4, 1, 2, [⟨0, 64, .ro, 0⟩]⟩,
  ⟨[0], 0x30, 4, 1, 4, 1, 1, [⟨0, 1, .wc, 0⟩, ⟨1, 1, .wc, 0⟩, ⟨2, 1, .wc, 0⟩, ⟨3, 1, .wc, 0⟩, ⟨4, 1, .wc, 0⟩]⟩,
  ⟨[0], 0x34, 4, 5, 4, 1, 1, [⟨0, 16, .ro, 0⟩]⟩,
  ⟨[0], 0x100, 4, 1, 4, 1, 1, [⟨0, 4, .ro, 15⟩, ⟨4, 4, .ro, 15⟩, ⟨8, 4, .ro, 15⟩, ⟨12, 4, .ro, 15⟩, ⟨16, 4, .ro, 15⟩, ⟨20, 4, .ro, 15⟩, ⟨24, 1, .ro, 0⟩]⟩,
  ⟨[0], 0x110, 4, 1, 4, 1, 1, [⟨0, 4, .ro, 15⟩, ⟨4, 4, .ro, 15⟩, ⟨8, 4, .ro, 7⟩, ⟨12, 4, .ro, 15⟩, ⟨16, 4, .ro, 15⟩, ⟨20, 4, .ro, 15⟩, ⟨24, 1, .ro, 0⟩]⟩,
  ⟨[0], 0x120, 4, 1, 4, 1, 1, [⟨0, 4, .ro, 15⟩, ⟨4, 4, .ro, 15⟩, ⟨8, 4, .ro, 11⟩, ⟨12, 4, .ro, 15⟩, ⟨16, 4, .ro, 15⟩, ⟨20, 4, .ro, 15⟩, ⟨24, 1, .ro, 0⟩]⟩,
  ⟨[0], 0x130, 4, 1, 4, 1, 1, [⟨0, 4, .ro, 15⟩, ⟨4, 4, .ro, 15⟩, ⟨8, 4, .ro, 2⟩, ⟨12, 4, .ro, 15⟩, ⟨16, 4, .ro, 15⟩, ⟨20, 4, .ro, 15⟩, ⟨24, 1, .ro, 0⟩]⟩,
  ⟨[0], 0x140, 4, 1, 4, 1, 1, [⟨0, 4, .ro, 15⟩, ⟨4, 4, .ro, 15⟩, ⟨8, 4, .ro, 2⟩, ⟨12, 4, .ro, 15⟩, ⟨16, 4, .ro, 15⟩, ⟨20, 4, .ro, 15⟩, ⟨24, 1, .ro, 0⟩]⟩,
  ⟨[0], 0x150, 4, 1, 4, 1, 1, [⟨0, 4, .ro, 15⟩, ⟨4, 4, .ro, 15⟩, ⟨8, 4, .ro, 2⟩, ⟨12, 4, .ro, 15⟩, ⟨16, 4, .ro, 15⟩, ⟨20, 4, .ro, 15⟩, ⟨24, 1, .ro, 0⟩]⟩,
  ⟨[0], 0x160, 4, 1, 4, 1, 1, [⟨0, 4, .ro, 15⟩, ⟨4, 4, .ro, 15⟩, ⟨8, 4, .ro, 11⟩, ⟨12, 4, .ro, 15⟩, ⟨16, 4, .ro, 15⟩, ⟨20, 4, .ro, 15⟩, ⟨24, 1, .ro, 0⟩]⟩,
  ⟨[0], 0x170, 4, 1, 4, 1, 1, [⟨0, 4, .ro, 15⟩, ⟨4, 4, .ro, 15⟩, ⟨8, 4, .ro, 15⟩, ⟨12, 4, .ro, 15⟩, ⟨16, 4, .ro, 15⟩, ⟨20, 4, .ro, 15⟩, ⟨24, 1, .ro, 0⟩]⟩,
  ⟨[0], 0x104, 16, 8, 4, 1, 1, [⟨0, 4, .rw, 15⟩]⟩,
  ⟨[0], 0x200, 16, 4, 4, 1, 1, [⟨0, 1, .rw, 0⟩]⟩,
  ⟨[0], 0x204, 16, 4, 4, 1, 1, [⟨0, 3, .ro, 0⟩, ⟨16, 16, .ro, 0⟩]⟩,
  ⟨[0], 0x240, 4, 1, 4, 1, 1, [⟨0, 1, .wc, 0⟩, ⟨1, 1, .wc, 0⟩, ⟨2, 1, .wc, 0⟩]⟩,
  ⟨[0], 0x244, 4, 3, 4, 1, 1, [⟨0, 16, .ro, 0⟩]⟩]

/-- Block 0x22: BKP_SIG (22 R418), BKP_EVT_STATUS (22 R418), BKP_EVT_CNT_0 (22 R418), BKP_EVT_CNT_1 (22 R418), BKP_REG_k (22 R418), BKP_RAM_k (22 R418). -/
def regBlock22 : List RegFam := [
  ⟨[0], 0x0, 4, 1, 4, 1, 1, [⟨0, 32, .ro, 0⟩]⟩,
  ⟨[0], 0x10, 4, 1, 4, 1, 1, [⟨0, 1, .wc, 0⟩, ⟨1, 1, .wc, 0⟩]⟩,
  ⟨[0], 0x14, 4, 1, 4, 1, 1, [⟨0, 16, .ro, 0⟩]⟩,
  ⟨[0], 0x18, 4, 1, 4, 1, 1, [⟨0, 16, .ro, 0⟩]⟩,
  ⟨[0], 0x100, 4, 32, 4, 1, 1, [⟨0, 32, .rw, 0⟩]⟩,
  ⟨[0], 0x1000, 4, 2048, 4, 1, 1, [⟨0, 32, .rw, 0⟩]⟩]

/-- Block 0x23: TIME_NOW (12 R229), TIME_CTRL (12 R229), TIME_RATE (12 R229), TIME_STEP (12 R229), TIME_STATUS (12 R229), TIME_EVT_STATUS (12 R229), TIME_EVT_CNT (12 R229), TIME_PPS_OUT_OFS (12 R229), TIME_PPS_OUT_WIDTH (12 R229), TIME_PPS_IN (12 R229), TIME_PORT_k_CTRL (12 R229), TIME_PORT_k_ING_PS (12 R229), TIME_PORT_k_EGR_PS (12 R229), TIME_PORT_k_ASYM_PS (12 R229), TIME_PORT_k_FIFO_HDR (12 R229), TIME_PORT_k_FIFO_FRAC (12 R229), TIME_PORT_k_FIFO_NS (12 R229), TIME_CSI_OFS_p_v (12 R229). -/
def regBlock23 : List RegFam := [
  ⟨[0], 0x0, 8, 1, 4, 1, 2, [⟨0, 64, .ro, 0⟩]⟩,
  ⟨[0], 0x10, 4, 1, 4, 1, 1, [⟨0, 1, .sc, 0⟩, ⟨1, 1, .rw, 0⟩, ⟨2, 1, .rw, 0⟩, ⟨3, 1, .rw, 1⟩]⟩,
  ⟨[0], 0x14, 4, 1, 4, 1, 1, [⟨0, 32, .rw, 0⟩]⟩,
  ⟨[0], 0x18, 8, 1, 4, 1, 2, [⟨0, 64, .rw, 0⟩]⟩,
  ⟨[0], 0x20, 4, 1, 4, 1, 1, [⟨0, 2, .ro, 0⟩, ⟨4, 7, .ro, 0⟩, ⟨16, 16, .ro, 0⟩]⟩,
  ⟨[0], 0x30, 4, 1, 4, 1, 1, [⟨0, 1, .wc, 0⟩, ⟨1, 1, .wc, 0⟩, ⟨2, 1, .wc, 0⟩, ⟨3, 1, .wc, 0⟩, ⟨4, 1, .wc, 0⟩, ⟨5, 1, .wc, 0⟩, ⟨6, 1, .wc, 0⟩]⟩,
  ⟨[0], 0x34, 4, 7, 4, 1, 1, [⟨0, 16, .ro, 0⟩]⟩,
  ⟨[0], 0x50, 4, 1, 4, 1, 1, [⟨0, 30, .rw, 0⟩]⟩,
  ⟨[0], 0x54, 4, 1, 4, 1, 1, [⟨0, 30, .rw, 100⟩]⟩,
  ⟨[0], 0x58, 8, 1, 4, 1, 2, [⟨0, 64, .ro, 0⟩]⟩,
  ⟨[0], 0x100, 32, 12, 4, 1, 1, [⟨0, 1, .rw, 0⟩, ⟨1, 1, .rw, 0⟩]⟩,
  ⟨[0], 0x104, 32, 12, 4, 1, 1, [⟨0, 24, .rw, 0⟩]⟩,
  ⟨[0], 0x108, 32, 12, 4, 1, 1, [⟨0, 24, .rw, 0⟩]⟩,
  ⟨[0], 0x10C, 32, 12, 4, 1, 1, [⟨0, 32, .rw, 0⟩]⟩,
  ⟨[0], 0x110, 32, 12, 4, 1, 1, [⟨0, 1, .ro, 0⟩, ⟨1, 1, .ro, 0⟩, ⟨2, 4, .ro, 0⟩, ⟨16, 16, .ro, 0⟩]⟩,
  ⟨[0], 0x114, 32, 12, 4, 1, 1, [⟨0, 16, .ro, 0⟩]⟩,
  ⟨[0], 0x118, 32, 12, 4, 1, 2, [⟨0, 64, .ro, 0⟩]⟩,
  ⟨[0], 0x300, 16, 4, 4, 4, 1, [⟨0, 32, .rw, 0⟩]⟩]

/-- Block 0x24: ETH_k_CTRL (13 R244), ETH_k_STATUS (13 R244), ETH_MAC (13 R244), ETH_k_PAIR (24 R449), ETH_PAIR_EVT (24 R449), ETH_PAIR_CNT (24 R449). -/
def regBlock24 : List RegFam := [
  ⟨[0], 0x0, 64, 12, 4, 1, 1, [⟨0, 2, .rw, 0⟩, ⟨2, 2, .rw, 0⟩, ⟨4, 1, .rw, 0⟩]⟩,
  ⟨[0], 0x4, 64, 12, 4, 1, 1, [⟨0, 1, .ro, 0⟩, ⟨1, 2, .ro, 0⟩, ⟨3, 1, .ro, 0⟩]⟩,
  ⟨[0], 0x400, 8, 1, 4, 1, 2, [⟨0, 48, .ro, 0⟩]⟩,
  ⟨[0], 0x8, 64, 12, 4, 1, 1, [⟨0, 3, .ro, 4⟩, ⟨3, 1, .ro, 0⟩, ⟨8, 12, .ro, 0⟩]⟩,
  ⟨[0], 0x410, 4, 1, 4, 1, 1, [⟨0, 1, .wc, 0⟩]⟩,
  ⟨[0], 0x414, 4, 1, 4, 1, 1, [⟨0, 16, .ro, 0⟩]⟩]

/-- Block 0x25: CSI_p_CTRL (13 R244), CSI_p_STATUS (13 R244), CSI_EVT_STATUS (13 R244), CSI_EVT_CNT (13 R244). -/
def regBlock25 : List RegFam := [
  ⟨[0], 0x0, 32, 4, 4, 1, 1, [⟨0, 1, .rw, 0⟩, ⟨1, 2, .rw, 0⟩]⟩,
  ⟨[0], 0x4, 32, 4, 4, 1, 1, [⟨0, 4, .ro, 0⟩, ⟨16, 16, .ro, 0⟩]⟩,
  ⟨[0], 0x100, 4, 1, 4, 1, 1, [⟨0, 1, .wc, 0⟩, ⟨1, 1, .wc, 0⟩, ⟨2, 1, .wc, 0⟩, ⟨3, 1, .wc, 0⟩]⟩,
  ⟨[0], 0x104, 4, 4, 4, 1, 1, [⟨0, 16, .ro, 0⟩]⟩]

/-- Block 0x26: JBUS_CFG (13 R244), JBUS_EVT_STATUS (13 R244), JBUS_EVT_CNT (13 R244), JBUS_FAULT_LAST (13 R244), JBUS_CLR (13 R244), JBUS_STREAM_s (13 R244). -/
def regBlock26 : List RegFam := [
  ⟨[0], 0x0, 4, 1, 4, 1, 1, [⟨0, 16, .rw, 34997⟩]⟩,
  ⟨[0], 0x10, 4, 1, 4, 1, 1, [⟨0, 1, .wc, 0⟩, ⟨1, 1, .wc, 0⟩, ⟨2, 1, .wc, 0⟩, ⟨3, 1, .wc, 0⟩, ⟨4, 1, .wc, 0⟩, ⟨5, 1, .wc, 0⟩, ⟨6, 1, .wc, 0⟩, ⟨7, 1, .wc, 0⟩, ⟨8, 1, .wc, 0⟩]⟩,
  ⟨[0], 0x14, 4, 9, 4, 1, 1, [⟨0, 16, .ro, 0⟩]⟩,
  ⟨[0], 0x40, 4, 1, 4, 1, 1, [⟨0, 8, .ro, 0⟩, ⟨8, 4, .ro, 0⟩, ⟨12, 4, .ro, 0⟩, ⟨16, 16, .ro, 0⟩]⟩,
  ⟨[0], 0x44, 4, 1, 4, 1, 1, [⟨0, 8, .rw, 0⟩, ⟨8, 1, .sc, 0⟩]⟩,
  ⟨[0], 0x100, 4, 160, 4, 1, 1, [⟨0, 1, .ro, 0⟩, ⟨1, 1, .ro, 0⟩, ⟨2, 8, .ro, 0⟩, ⟨16, 16, .ro, 0⟩]⟩]

/-- Block 0x27: FUSN_STATUS (14 R258), FUSN_SLOT (14 R258), FUSN_EVT_STATUS (14 R258), FUSN_EVT_CNT (14 R258), FUSN_LATE_s (14 R258), FUSN_STREAM_s (14 R258). -/
def regBlock27 : List RegFam := [
  ⟨[0], 0x0, 4, 1, 4, 1, 1, [⟨0, 1, .ro, 0⟩, ⟨1, 1, .ro, 0⟩, ⟨16, 16, .ro, 0⟩]⟩,
  ⟨[0], 0x8, 8, 1, 4, 1, 2, [⟨0, 64, .ro, 0⟩]⟩,
  ⟨[0], 0x10, 4, 1, 4, 1, 1, [⟨0, 1, .wc, 0⟩, ⟨1, 1, .wc, 0⟩, ⟨2, 1, .wc, 0⟩, ⟨3, 1, .wc, 0⟩, ⟨4, 1, .wc, 0⟩, ⟨5, 1, .wc, 0⟩, ⟨6, 1, .wc, 0⟩, ⟨7, 1, .wc, 0⟩, ⟨8, 1, .wc, 0⟩]⟩,
  ⟨[0], 0x14, 4, 9, 4, 1, 1, [⟨0, 16, .ro, 0⟩]⟩,
  ⟨[0], 0x100, 4, 32, 4, 1, 1, [⟨0, 32, .ro, 0⟩]⟩,
  ⟨[0], 0x200, 4, 32, 4, 1, 1, [⟨0, 1, .ro, 0⟩, ⟨1, 1, .ro, 0⟩, ⟨16, 16, .ro, 0⟩]⟩]

/-- Block 0x28: MAP_STATUS (15 R278), MAP_CMD (15 R278), MAP_CMD_ARG (15 R278), MAP_CMD_VA (15 R278), MAP_CMD_STATUS (15 R278), MAP_EVT_STATUS (15 R278), MAP_EVT_CNT (15 R278), MAP_NODES (15 R278), MAP_PINS (15 R278), MAP_DELTA_HEAD (15 R278), MAP_EPOCH_k (15 R278). -/
def regBlock28 : List RegFam := [
  ⟨[0], 0x0, 4, 1, 4, 1, 1, [⟨0, 1, .ro, 0⟩, ⟨1, 1, .ro, 0⟩, ⟨2, 1, .ro, 0⟩]⟩,
  ⟨[0], 0x10, 4, 1, 4, 1, 1, [⟨0, 1, .sc, 0⟩, ⟨1, 4, .rw, 0⟩, ⟨5, 10, .rw, 0⟩]⟩,
  ⟨[0], 0x14, 4, 1, 4, 1, 1, [⟨0, 17, .rw, 0⟩, ⟨20, 2, .rw, 0⟩, ⟨22, 10, .rw, 0⟩]⟩,
  ⟨[0], 0x18, 8, 1, 4, 1, 2, [⟨6, 58, .rw, 0⟩]⟩,
  ⟨[0], 0x20, 4, 1, 4, 1, 1, [⟨0, 1, .ro, 0⟩, ⟨16, 16, .ro, 0⟩]⟩,
  ⟨[0], 0x30, 4, 1, 4, 1, 1, [⟨0, 1, .wc, 0⟩, ⟨1, 1, .wc, 0⟩, ⟨2, 1, .wc, 0⟩, ⟨3, 1, .wc, 0⟩, ⟨4, 1, .wc, 0⟩, ⟨5, 1, .wc, 0⟩]⟩,
  ⟨[0], 0x34, 4, 6, 4, 1, 1, [⟨0, 16, .ro, 0⟩]⟩,
  ⟨[0], 0x50, 4, 1, 4, 1, 1, [⟨0, 24, .ro, 0⟩]⟩,
  ⟨[0], 0x54, 4, 1, 4, 1, 1, [⟨0, 9, .ro, 0⟩]⟩,
  ⟨[0], 0x58, 8, 1, 4, 1, 2, [⟨0, 64, .ro, 0⟩]⟩,
  ⟨[0], 0x1000, 8, 1024, 4, 1, 2, [⟨0, 64, .ro, 0⟩]⟩]

/-- Block 0x29: PLAN_CAP (16 R301), PLAN_CAP_MODEL (16 R301), PLAN_STATUS (16 R301), PLAN_BATCHES (16 R301), PLAN_EVT_STATUS (16 R301), PLAN_EVT_CNT (16 R301), PLAN_LAST (16 R301), PLAN_LAST_TESTS (16 R301), PLAN_LAST_QUERIES (16 R301), PLAN_LAST_CYCLES (16 R301). -/
def regBlock29 : List RegFam := [
  ⟨[0], 0x0, 4, 1, 4, 1, 1, [⟨0, 8, .ro, 128⟩, ⟨8, 13, .ro, 4096⟩]⟩,
  ⟨[0], 0x4, 4, 1, 4, 1, 1, [⟨0, 6, .ro, 48⟩, ⟨8, 7, .ro, 64⟩, ⟨16, 4, .ro, 8⟩]⟩,
  ⟨[0], 0x10, 4, 1, 4, 1, 1, [⟨0, 1, .ro, 0⟩, ⟨1, 1, .ro, 0⟩, ⟨16, 16, .ro, 0⟩]⟩,
  ⟨[0], 0x18, 8, 1, 4, 1, 2, [⟨0, 64, .ro, 0⟩]⟩,
  ⟨[0], 0x20, 4, 1, 4, 1, 1, [⟨0, 1, .wc, 0⟩, ⟨1, 1, .wc, 0⟩, ⟨2, 1, .wc, 0⟩, ⟨3, 1, .wc, 0⟩, ⟨4, 1, .wc, 0⟩, ⟨5, 1, .wc, 0⟩]⟩,
  ⟨[0], 0x24, 4, 6, 4, 1, 1, [⟨0, 16, .ro, 0⟩]⟩,
  ⟨[0], 0x40, 4, 1, 4, 1, 1, [⟨0, 12, .ro, 0⟩, ⟨12, 3, .ro, 0⟩, ⟨15, 1, .ro, 0⟩, ⟨16, 9, .ro, 0⟩]⟩,
  ⟨[0], 0x48, 8, 1, 4, 1, 2, [⟨0, 64, .ro, 0⟩]⟩,
  ⟨[0], 0x50, 8, 1, 4, 1, 2, [⟨0, 64, .ro, 0⟩]⟩,
  ⟨[0], 0x58, 4, 1, 4, 1, 1, [⟨0, 32, .ro, 0⟩]⟩]

/-- Block 0x2A: SOLV_CAP (17 R318), SOLV_STATUS (17 R318), SOLV_EVT_STATUS (17 R318), SOLV_EVT_CNT (17 R318), SOLV_LAST (17 R318), SOLV_SETUP_k (17 R318). -/
def regBlock2A : List RegFam := [
  ⟨[0], 0x0, 4, 1, 4, 1, 1, [⟨0, 13, .ro, 4096⟩, ⟨16, 15, .ro, 16384⟩]⟩,
  ⟨[0], 0x10, 4, 1, 4, 1, 1, [⟨0, 1, .ro, 0⟩, ⟨1, 1, .ro, 0⟩, ⟨2, 4, .ro, 0⟩]⟩,
  ⟨[0], 0x20, 4, 1, 4, 1, 1, [⟨0, 1, .wc, 0⟩, ⟨1, 1, .wc, 0⟩, ⟨2, 1, .wc, 0⟩, ⟨3, 1, .wc, 0⟩, ⟨4, 1, .wc, 0⟩, ⟨5, 1, .wc, 0⟩, ⟨6, 1, .wc, 0⟩, ⟨7, 1, .wc, 0⟩]⟩,
  ⟨[0], 0x24, 4, 8, 4, 1, 1, [⟨0, 16, .ro, 0⟩]⟩,
  ⟨[0], 0x50, 4, 1, 4, 1, 1, [⟨0, 11, .ro, 0⟩, ⟨12, 4, .ro, 0⟩, ⟨16, 16, .ro, 0⟩]⟩,
  ⟨[0], 0x100, 4, 16, 4, 1, 1, [⟨0, 1, .ro, 0⟩, ⟨1, 1, .ro, 0⟩, ⟨2, 1, .ro, 0⟩, ⟨3, 1, .ro, 0⟩, ⟨16, 16, .ro, 0⟩]⟩]

/-- Block 0x2B: LOOP_CAP (18 R342), LOOP_STATUS (18 R342), LOOP_EVT_STATUS (18 R342), LOOP_EVT_CNT (18 R342), LOOP_FAULT_LAST (18 R342), LOOP_CLR (18 R342), LOOP_EVALS (18 R342), LOOP_SLOT_n (18 R342). -/
def regBlock2B : List RegFam := [
  ⟨[0], 0x0, 4, 1, 4, 1, 1, [⟨0, 3, .ro, 4⟩, ⟨4, 8, .ro, 128⟩, ⟨12, 3, .ro, 4⟩]⟩,
  ⟨[0], 0x10, 4, 1, 4, 1, 1, [⟨0, 4, .ro, 0⟩, ⟨4, 4, .ro, 0⟩]⟩,
  ⟨[0], 0x20, 4, 1, 4, 1, 1, [⟨0, 1, .wc, 0⟩, ⟨1, 1, .wc, 0⟩, ⟨2, 1, .wc, 0⟩, ⟨3, 1, .wc, 0⟩, ⟨4, 1, .wc, 0⟩, ⟨5, 1, .wc, 0⟩, ⟨6, 1, .wc, 0⟩, ⟨7, 1, .wc, 0⟩, ⟨8, 1, .wc, 0⟩]⟩,
  ⟨[0], 0x24, 4, 9, 4, 1, 1, [⟨0, 16, .ro, 0⟩]⟩,
  ⟨[0], 0x50, 4, 1, 4, 1, 1, [⟨0, 9, .ro, 0⟩, ⟨9, 2, .ro, 0⟩, ⟨16, 16, .ro, 0⟩]⟩,
  ⟨[0], 0x54, 4, 1, 4, 1, 1, [⟨0, 9, .rw, 0⟩, ⟨9, 1, .sc, 0⟩]⟩,
  ⟨[0], 0x60, 8, 1, 4, 1, 2, [⟨0, 64, .ro, 0⟩]⟩,
  ⟨[0], 0x1000, 4, 512, 4, 1, 1, [⟨0, 2, .ro, 0⟩, ⟨2, 1, .ro, 0⟩, ⟨3, 1, .ro, 0⟩, ⟨4, 12, .ro, 0⟩, ⟨16, 16, .ro, 0⟩]⟩]

/-- Block 0x2C: CRUST_STATUS (19 R366), CRUST_GROUP_g (19 R366), CRUST_EVT_STATUS (19 R366), CRUST_EVT_CNT_k (19 R366), CRUST_EVT_LAST (19 R366), CRUST_PSF (19 R366), CRUST_CLR (19 R366), CRUST_NONCE (19 R366), CRUST_CHG_CTRL (19 R366), CRUST_CHG_ADDR (19 R366), CRUST_CHG_STATUS (19 R366). -/
def regBlock2C : List RegFam := [
  ⟨[0], 0x0, 4, 1, 4, 1, 1, [⟨0, 1, .ro, 0⟩, ⟨1, 1, .ro, 0⟩, ⟨2, 1, .ro, 0⟩, ⟨16, 16, .ro, 0⟩]⟩,
  ⟨[0], 0x10, 4, 4, 4, 1, 1, [⟨0, 3, .ro, 0⟩, ⟨3, 1, .ro, 0⟩, ⟨4, 1, .ro, 0⟩, ⟨16, 8, .ro, 0⟩]⟩,
  ⟨[0], 0x20, 4, 1, 4, 1, 1, [⟨1, 22, .wc, 0⟩]⟩,
  ⟨[0], 0x104, 4, 22, 4, 1, 1, [⟨0, 16, .ro, 0⟩]⟩,
  ⟨[0], 0x24, 4, 1, 4, 1, 1, [⟨0, 8, .ro, 0⟩, ⟨8, 4, .ro, 0⟩, ⟨16, 16, .ro, 0⟩]⟩,
  ⟨[0], 0x28, 4, 1, 4, 1, 1, [⟨0, 8, .ro, 0⟩, ⟨8, 24, .ro, 0⟩]⟩,
  ⟨[0], 0x30, 4, 1, 4, 1, 1, [⟨0, 4, .rw, 0⟩, ⟨4, 1, .rw, 0⟩, ⟨8, 1, .sc, 0⟩, ⟨9, 1, .ro, 0⟩]⟩,
  ⟨[0], 0x40, 4, 4, 4, 1, 1, [⟨0, 32, .ro, 0⟩]⟩,
  ⟨[0], 0x50, 4, 1, 4, 1, 1, [⟨0, 1, .sc, 0⟩, ⟨1, 2, .rw, 0⟩, ⟨3, 1, .rw, 0⟩]⟩,
  ⟨[0], 0x58, 8, 1, 4, 1, 2, [⟨6, 58, .rw, 0⟩]⟩,
  ⟨[0], 0x60, 4, 1, 4, 1, 1, [⟨0, 2, .ro, 0⟩, ⟨2, 1, .ro, 0⟩, ⟨16, 16, .ro, 0⟩]⟩]

/-- Block 0x2E: SIO_CFG (19 R366), SIO_STO_CTRL (19 R366), SIO_STO_STATUS (19 R366), SIO_WIRE_EVT (24 R449), SIO_WIRE_CNT (24 R449), SIO_WIRE_CLR (24 R449), SIO_WIRE_k (24 R449). -/
def regBlock2E : List RegFam := [
  ⟨[0], 0x0, 4, 1, 4, 1, 1, [⟨0, 1, .tp, 1⟩, ⟨1, 1, .tp, 0⟩, ⟨2, 1, .tp, 1⟩]⟩,
  ⟨[0], 0x10, 4, 1, 4, 1, 1, [⟨0, 4, .rw, 15⟩, ⟨8, 1, .sc, 0⟩]⟩,
  ⟨[0], 0x14, 4, 1, 4, 1, 1, [⟨0, 4, .ro, 15⟩, ⟨4, 8, .ro, 0⟩, ⟨12, 2, .ro, 0⟩, ⟨14, 1, .ro, 0⟩, ⟨15, 1, .ro, 0⟩, ⟨16, 1, .ro, 0⟩]⟩,
  ⟨[0], 0x20, 4, 1, 4, 1, 1, [⟨0, 1, .wc, 0⟩]⟩,
  ⟨[0], 0x24, 4, 1, 4, 1, 1, [⟨0, 16, .ro, 0⟩]⟩,
  ⟨[0], 0x28, 4, 1, 4, 1, 1, [⟨0, 1, .sc, 0⟩]⟩,
  ⟨[0], 0x100, 4, 10, 4, 1, 1, [⟨0, 3, .ro, 0⟩, ⟨3, 1, .ro, 0⟩, ⟨16, 16, .ro, 0⟩]⟩]

/-- Block 0x2F: BOOT_STATUS (21 R402), BOOT_ROM_VERSION (21 R402), BOOT_DIR (21 R402), BOOT_CTRL (21 R402), BOOT_UPD_CTRL (21 R402), BOOT_UPD_ADDR (21 R402), BOOT_UPD_STATUS (21 R402), BOOT_EVT_STATUS (21 R402), BOOT_EVT_CNT (21 R402), BOOT_LOG_k (21 R402). -/
def regBlock2F : List RegFam := [
  ⟨[0], 0x0, 4, 1, 4, 1, 1, [⟨0, 8, .ro, 0⟩, ⟨8, 1, .ro, 0⟩, ⟨9, 1, .ro, 0⟩, ⟨10, 2, .ro, 0⟩, ⟨16, 16, .ro, 0⟩]⟩,
  ⟨[0], 0x4, 4, 1, 4, 1, 1, [⟨0, 24, .ro, 0⟩]⟩,
  ⟨[0], 0x8, 4, 1, 4, 1, 1, [⟨0, 1, .ro, 0⟩, ⟨1, 2, .ro, 0⟩, ⟨3, 2, .ro, 0⟩, ⟨16, 16, .ro, 0⟩]⟩,
  ⟨[0], 0x10, 4, 1, 4, 1, 1, [⟨0, 1, .sc, 0⟩]⟩,
  ⟨[0], 0x20, 4, 1, 4, 1, 1, [⟨0, 1, .sc, 0⟩, ⟨1, 1, .rw, 0⟩]⟩,
  ⟨[0], 0x28, 8, 1, 4, 1, 2, [⟨6, 58, .rw, 0⟩]⟩,
  ⟨[0], 0x30, 4, 1, 4, 1, 1, [⟨0, 1, .ro, 0⟩, ⟨1, 7, .ro, 0⟩, ⟨16, 16, .ro, 0⟩]⟩,
  ⟨[0], 0x40, 4, 1, 4, 1, 1, [⟨0, 1, .wc, 0⟩, ⟨1, 1, .wc, 0⟩, ⟨2, 1, .wc, 0⟩, ⟨3, 1, .wc, 0⟩, ⟨4, 1, .wc, 0⟩]⟩,
  ⟨[0], 0x44, 4, 5, 4, 1, 1, [⟨0, 16, .ro, 0⟩]⟩,
  ⟨[0], 0x1000, 4, 512, 4, 1, 1, [⟨0, 32, .ro, 0⟩]⟩]

/-- Block 0x30: KEY_SLOT_STATUS (21 R402), KEY_FUSES (21 R402), KEY_DEBUG (21 R402), KEY_ID_PUB_k (21 R402), KEY_ATT_CTRL (21 R402), KEY_ATT_ADDR (21 R402), KEY_ATT_NONCE_k (21 R402), KEY_ATT_STATUS (21 R402). -/
def regBlock30 : List RegFam := [
  ⟨[0], 0x0, 4, 1, 4, 1, 1, [⟨0, 8, .ro, 0⟩, ⟨8, 8, .ro, 0⟩]⟩,
  ⟨[0], 0x4, 4, 1, 4, 1, 1, [⟨0, 7, .ro, 0⟩]⟩,
  ⟨[0], 0x8, 4, 1, 4, 1, 1, [⟨0, 3, .ro, 0⟩, ⟨4, 1, .ro, 0⟩, ⟨15, 17, .ro, 0⟩]⟩,
  ⟨[0], 0x100, 4, 34, 4, 1, 1, [⟨0, 32, .ro, 0⟩]⟩,
  ⟨[0], 0x200, 4, 1, 4, 1, 1, [⟨0, 1, .sc, 0⟩]⟩,
  ⟨[0], 0x208, 8, 1, 4, 1, 2, [⟨6, 58, .rw, 0⟩]⟩,
  ⟨[0], 0x210, 4, 8, 4, 1, 1, [⟨0, 32, .rw, 0⟩]⟩,
  ⟨[0], 0x230, 4, 1, 4, 1, 1, [⟨0, 1, .ro, 0⟩, ⟨16, 16, .ro, 0⟩]⟩]

/-- Block 0x31: THRM_LIMIT_u (23 R435), THRM_TEMP_u_s (23 R435), THRM_EVT_STATUS (23 R435), THRM_EVT_CNT (23 R435), THRM_TRIP_LAST (23 R435). -/
def regBlock31 : List RegFam := [
  ⟨[0], 0x0, 4, 1, 4, 1, 1, [⟨0, 8, .rw, 105⟩, ⟨8, 8, .rw, 95⟩]⟩,
  ⟨[0], 0x4, 4, 1, 4, 1, 1, [⟨0, 8, .rw, 105⟩, ⟨8, 8, .rw, 95⟩]⟩,
  ⟨[0], 0x8, 4, 1, 4, 1, 1, [⟨0, 8, .rw, 105⟩, ⟨8, 8, .rw, 95⟩]⟩,
  ⟨[0], 0xC, 4, 1, 4, 1, 1, [⟨0, 8, .rw, 105⟩, ⟨8, 8, .rw, 95⟩]⟩,
  ⟨[0], 0x10, 4, 1, 4, 1, 1, [⟨0, 8, .rw, 105⟩, ⟨8, 8, .rw, 95⟩]⟩,
  ⟨[0], 0x14, 4, 1, 4, 1, 1, [⟨0, 8, .rw, 95⟩, ⟨8, 8, .rw, 85⟩]⟩,
  ⟨[0], 0x18, 4, 1, 4, 1, 1, [⟨0, 8, .rw, 95⟩, ⟨8, 8, .rw, 85⟩]⟩,
  ⟨[0], 0x100, 32, 3, 4, 4, 1, [⟨0, 16, .ro, 0⟩, ⟨16, 1, .ro, 0⟩]⟩,
  ⟨[0], 0x160, 32, 2, 4, 6, 1, [⟨0, 16, .ro, 0⟩, ⟨16, 1, .ro, 0⟩]⟩,
  ⟨[0], 0x1A0, 32, 2, 4, 1, 1, [⟨0, 16, .ro, 0⟩, ⟨16, 1, .ro, 0⟩]⟩,
  ⟨[0], 0x80, 4, 1, 4, 1, 1, [⟨0, 1, .wc, 0⟩, ⟨1, 1, .wc, 0⟩, ⟨2, 1, .wc, 0⟩]⟩,
  ⟨[0], 0x84, 4, 3, 4, 1, 1, [⟨0, 16, .ro, 0⟩]⟩,
  ⟨[0], 0x90, 4, 1, 4, 1, 1, [⟨0, 3, .ro, 0⟩, ⟨3, 3, .ro, 0⟩, ⟨16, 16, .ro, 0⟩]⟩]

/-- Block 0x41: KV_CAP (08 R155), KV_POOL_BASE (08 R155), KV_POOL_PAGES (08 R155), KV_POOL_FREE (08 R155), KV_CMD (08 R155), KV_CMD_ARG_0 (08 R155), KV_CMD_ARG_1 (08 R155), KV_CMD_STATUS (08 R155), KV_CMD_DATA (08 R155), KV_EVT_STATUS (08 R155), KV_EVT_CNT_REFUSED (08 R155), KV_EVT_CNT_POOL (08 R155), KV_EVT_CNT_REJECT (08 R155), KV_EVT_CNT_ROLLBACK (08 R155), KV_REFUSE_LAST (08 R155), KV_TOKENS_APPENDED (08 R155), KV_PAGES_RECLAIMED (08 R155). -/
def regBlock41 : List RegFam := [
  ⟨[1], 0x0, 4, 1, 4, 1, 1, [⟨0, 13, .ro, 4096⟩, ⟨16, 4, .ro, 9⟩]⟩,
  ⟨[1], 0x8, 8, 1, 4, 1, 2, [⟨16, 48, .rw, 0⟩]⟩,
  ⟨[1], 0x10, 4, 1, 4, 1, 1, [⟨0, 21, .rw, 0⟩]⟩,
  ⟨[1], 0x14, 4, 1, 4, 1, 1, [⟨0, 21, .ro, 0⟩]⟩,
  ⟨[1], 0x20, 4, 1, 4, 1, 1, [⟨0, 1, .sc, 0⟩, ⟨1, 3, .rw, 0⟩, ⟨4, 12, .rw, 0⟩]⟩,
  ⟨[1], 0x24, 4, 1, 4, 1, 1, [⟨0, 6, .rw, 0⟩, ⟨8, 6, .rw, 0⟩, ⟨16, 8, .rw, 0⟩, ⟨24, 8, .rw, 0⟩]⟩,
  ⟨[1], 0x28, 4, 1, 4, 1, 1, [⟨0, 32, .rw, 0⟩]⟩,
  ⟨[1], 0x2C, 4, 1, 4, 1, 1, [⟨0, 1, .ro, 0⟩, ⟨16, 16, .ro, 0⟩]⟩,
  ⟨[1], 0x40, 4, 8, 4, 1, 1, [⟨0, 32, .ro, 0⟩]⟩,
  ⟨[1], 0x60, 4, 1, 4, 1, 1, [⟨0, 1, .wc, 0⟩, ⟨1, 1, .wc, 0⟩, ⟨2, 1, .wc, 0⟩, ⟨3, 1, .wc, 0⟩]⟩,
  ⟨[1], 0x64, 4, 1, 4, 1, 1, [⟨0, 16, .ro, 0⟩]⟩,
  ⟨[1], 0x68, 4, 1, 4, 1, 1, [⟨0, 16, .ro, 0⟩]⟩,
  ⟨[1], 0x6C, 4, 1, 4, 1, 1, [⟨0, 16, .ro, 0⟩]⟩,
  ⟨[1], 0x70, 4, 1, 4, 1, 1, [⟨0, 16, .ro, 0⟩]⟩,
  ⟨[1], 0x74, 4, 1, 4, 1, 1, [⟨0, 12, .ro, 0⟩, ⟨16, 16, .ro, 0⟩]⟩,
  ⟨[1], 0x80, 8, 1, 4, 1, 2, [⟨0, 64, .ro, 0⟩]⟩,
  ⟨[1], 0x88, 8, 1, 4, 1, 2, [⟨0, 64, .ro, 0⟩]⟩]

/-- Block 0x42: TIER_CMD (10 R201), TIER_CMD_VA (10 R201), TIER_CMD_LEN (10 R201), TIER_CMD_VA2 (10 R201), TIER_CMD_AUX (10 R201), TIER_CMD_STATUS (10 R201), TIER_EVT_STATUS (10 R201), TIER_EVT_CNT (10 R201), TIER_PATH_LAST (10 R201), TIER_PATH_PROG (10 R201), TIER_HBM_FREE (10 R201). -/
def regBlock42 : List RegFam := [
  ⟨[1], 0x0, 4, 1, 4, 1, 1, [⟨0, 1, .sc, 0⟩, ⟨1, 3, .rw, 0⟩, ⟨4, 6, .rw, 0⟩, ⟨10, 3, .rw, 0⟩, ⟨13, 2, .rw, 0⟩, ⟨15, 6, .rw, 0⟩]⟩,
  ⟨[1], 0x8, 8, 1, 4, 1, 2, [⟨0, 64, .rw, 0⟩]⟩,
  ⟨[1], 0x10, 8, 1, 4, 1, 2, [⟨0, 64, .rw, 0⟩]⟩,
  ⟨[1], 0x20, 8, 1, 4, 1, 2, [⟨0, 64, .rw, 0⟩]⟩,
  ⟨[1], 0x18, 4, 1, 4, 1, 1, [⟨0, 32, .rw, 0⟩]⟩,
  ⟨[1], 0x28, 4, 1, 4, 1, 1, [⟨0, 1, .ro, 0⟩, ⟨16, 16, .ro, 0⟩]⟩,
  ⟨[1], 0x40, 4, 1, 4, 1, 1, [⟨0, 1, .wc, 0⟩, ⟨1, 1, .wc, 0⟩, ⟨2, 1, .wc, 0⟩, ⟨3, 1, .wc, 0⟩, ⟨4, 1, .wc, 0⟩, ⟨5, 1, .wc, 0⟩, ⟨6, 1, .wc, 0⟩]⟩,
  ⟨[1], 0x44, 4, 7, 4, 1, 1, [⟨0, 16, .ro, 0⟩]⟩,
  ⟨[1], 0x60, 4, 1, 4, 1, 1, [⟨0, 6, .ro, 0⟩, ⟨6, 2, .ro, 0⟩, ⟨16, 16, .ro, 0⟩]⟩,
  ⟨[1], 0x64, 4, 1, 4, 1, 1, [⟨0, 6, .ro, 0⟩, ⟨6, 2, .ro, 0⟩, ⟨16, 16, .ro, 0⟩]⟩,
  ⟨[1], 0x70, 4, 1, 4, 1, 1, [⟨0, 21, .ro, 0⟩]⟩]

/-- Block 0x43: FTL_STATUS (10 R201), FTL_RD_THRESH (10 R201), FTL_EVT_STATUS (10 R201), FTL_EVT_CNT (10 R201), FTL_CORR_CNT (10 R201), FTL_UNITS_WRITTEN (10 R201). -/
def regBlock43 : List RegFam := [
  ⟨[1], 0x0, 4, 1, 4, 1, 1, [⟨0, 2, .ro, 0⟩, ⟨2, 2, .ro, 0⟩, ⟨8, 7, .ro, 0⟩]⟩,
  ⟨[1], 0x8, 4, 1, 4, 1, 1, [⟨0, 24, .rw, 200000⟩]⟩,
  ⟨[1], 0x10, 4, 1, 4, 1, 1, [⟨0, 1, .wc, 0⟩, ⟨1, 1, .wc, 0⟩, ⟨2, 1, .wc, 0⟩, ⟨3, 1, .wc, 0⟩]⟩,
  ⟨[1], 0x14, 4, 4, 4, 1, 1, [⟨0, 16, .ro, 0⟩]⟩,
  ⟨[1], 0x30, 8, 1, 4, 1, 2, [⟨0, 64, .ro, 0⟩]⟩,
  ⟨[1], 0x38, 8, 1, 4, 1, 2, [⟨0, 64, .ro, 0⟩]⟩]

/-- Block 0x44: PCIE_LINK_STATUS (05 R85). -/
def regBlock44 : List RegFam := [
  ⟨[1], 0x0, 4, 1, 4, 1, 1, [⟨0, 4, .ro, 0⟩, ⟨4, 4, .ro, 0⟩, ⟨8, 1, .ro, 0⟩, ⟨9, 1, .ro, 0⟩]⟩]

/-- Block 0x45: HQ_DEV_STATE (05 R104), HQ_IF_FW (05 R104), HQ_IF_DRV (05 R104), HQ_IF_CTRL (05 R104), HQ_IF_STATUS (05 R104), HQ_FW_VERSION (05 R104), HQ_FW_DIGEST (05 R104), HQ_EVT_STATUS (05 R104), HQ_EVT_CNT (05 R104), HQ_EVT_VEC (05 R104), HQ_Q_SQ_BASE_k (05 R104), HQ_Q_CQ_BASE_k (05 R104), HQ_Q_CTRL_k (05 R104), HQ_Q_STATUS_k (05 R104), HQ_Q_SQ_HEAD_k (05 R104), HQ_Q_CQ_TAIL_k (05 R104), HQ_WIN_BASE_k (05 R104), HQ_WIN_CTRL_k (05 R104), HQ_NTF_THRESH_k (05 R104), HQ_NTF_CTRL_k (05 R104). -/
def regBlock45 : List RegFam := [
  ⟨[1], 0x0, 4, 1, 4, 1, 1, [⟨0, 4, .ro, 0⟩, ⟨8, 5, .ro, 0⟩]⟩,
  ⟨[1], 0x4, 4, 1, 4, 1, 1, [⟨0, 16, .ro, 0⟩, ⟨16, 8, .ro, 0⟩]⟩,
  ⟨[1], 0x8, 4, 1, 4, 1, 1, [⟨0, 16, .rw, 0⟩, ⟨16, 8, .rw, 0⟩]⟩,
  ⟨[1], 0xC, 4, 1, 4, 1, 1, [⟨0, 1, .sc, 0⟩]⟩,
  ⟨[1], 0x10, 4, 1, 4, 1, 1, [⟨0, 4, .ro, 0⟩, ⟨4, 8, .ro, 0⟩, ⟨16, 16, .ro, 0⟩]⟩,
  ⟨[1], 0x14, 4, 1, 4, 1, 1, [⟨0, 8, .ro, 0⟩, ⟨8, 8, .ro, 0⟩, ⟨16, 8, .ro, 0⟩]⟩,
  ⟨[1], 0x100, 4, 16, 4, 1, 1, [⟨0, 32, .ro, 0⟩]⟩,
  ⟨[1], 0x20, 4, 1, 4, 1, 1, [⟨0, 1, .wc, 0⟩, ⟨1, 1, .wc, 0⟩, ⟨2, 1, .wc, 0⟩, ⟨3, 1, .wc, 0⟩, ⟨4, 1, .wc, 0⟩, ⟨5, 1, .wc, 0⟩, ⟨6, 1, .wc, 0⟩, ⟨7, 1, .wc, 0⟩]⟩,
  ⟨[1], 0x40, 4, 8, 4, 1, 1, [⟨0, 16, .ro, 0⟩]⟩,
  ⟨[1], 0x60, 4, 1, 4, 1, 1, [⟨0, 6, .rw, 0⟩, ⟨6, 1, .rw, 0⟩, ⟨16, 8, .rw, 0⟩]⟩,
  ⟨[1], 0x1000, 32, 64, 4, 1, 2, [⟨6, 58, .rw, 0⟩]⟩,
  ⟨[1], 0x1008, 32, 64, 4, 1, 2, [⟨5, 59, .rw, 0⟩]⟩,
  ⟨[1], 0x1010, 32, 64, 4, 1, 1, [⟨0, 1, .rw, 0⟩, ⟨1, 1, .sc, 0⟩, ⟨2, 6, .rw, 0⟩, ⟨8, 1, .rw, 0⟩]⟩,
  ⟨[1], 0x1014, 32, 64, 4, 1, 1, [⟨0, 1, .ro, 1⟩, ⟨1, 1, .ro, 0⟩, ⟨16, 16, .ro, 0⟩]⟩,
  ⟨[1], 0x1018, 32, 64, 4, 1, 1, [⟨0, 32, .ro, 0⟩]⟩,
  ⟨[1], 0x101C, 32, 64, 4, 1, 1, [⟨0, 32, .ro, 0⟩]⟩,
  ⟨[1], 0x2000, 16, 64, 4, 1, 2, [⟨21, 43, .rw, 0⟩]⟩,
  ⟨[1], 0x2008, 16, 64, 4, 1, 1, [⟨0, 2, .rw, 0⟩, ⟨8, 6, .rw, 0⟩]⟩,
  ⟨[1], 0x3000, 16, 64, 4, 1, 2, [⟨0, 64, .rw, 0⟩]⟩,
  ⟨[1], 0x3008, 16, 64, 4, 1, 1, [⟨0, 16, .rw, 0⟩, ⟨16, 6, .rw, 0⟩, ⟨22, 1, .ws, 0⟩]⟩]

/-- Block 0x46: LAY_VERSION (03 R68), LAY_CTRL (03 R68), LAY_IMG_ADDR (03 R68), LAY_IMG_LEN (03 R68), LAY_STATUS (03 R68), LAY_ERR_LOC (03 R68), LAY_ERR_OFFSET (03 R68), LAY_EVENT (03 R68), LAY_EVENT_CNT_DONE (03 R68), LAY_EVENT_CNT_FAIL (03 R68), LAY_EVENT_CNT_REJECT (03 R68), LAY_ACTIVE_DIGEST (03 R68), LAY_CTX_CTRL (04 R83), LAY_CTX_EVENT (04 R83), LAY_CTX_EVENT_CNT_RES (04 R83), LAY_CTX_EVENT_CNT_FAIL (04 R83), LAY_CTX_EVENT_CNT_REJECT (04 R83), LAY_CTX_EVENT_CNT_NONRES (04 R83), LAY_CTX_STATE (04 R83). -/
def regBlock46 : List RegFam := [
  ⟨[1], 0x0, 4, 1, 4, 1, 1, [⟨0, 8, .ro, 1⟩, ⟨8, 8, .ro, 0⟩, ⟨16, 8, .ro, 1⟩, ⟨24, 8, .ro, 1⟩]⟩,
  ⟨[1], 0x10, 4, 1, 4, 1, 1, [⟨0, 1, .sc, 0⟩, ⟨1, 3, .rw, 0⟩, ⟨4, 6, .rw, 0⟩, ⟨10, 1, .rw, 0⟩]⟩,
  ⟨[1], 0x18, 8, 1, 4, 1, 2, [⟨6, 58, .rw, 0⟩]⟩,
  ⟨[1], 0x20, 4, 1, 4, 1, 1, [⟨0, 27, .rw, 0⟩]⟩,
  ⟨[1], 0x30, 4, 1, 4, 1, 1, [⟨0, 2, .ro, 0⟩, ⟨2, 1, .ro, 0⟩, ⟨3, 3, .ro, 0⟩, ⟨16, 16, .ro, 0⟩]⟩,
  ⟨[1], 0x34, 4, 1, 4, 1, 1, [⟨0, 8, .ro, 0⟩, ⟨8, 24, .ro, 0⟩]⟩,
  ⟨[1], 0x38, 4, 1, 4, 1, 1, [⟨0, 27, .ro, 0⟩]⟩,
  ⟨[1], 0x40, 4, 1, 4, 1, 1, [⟨0, 1, .wc, 0⟩, ⟨1, 1, .wc, 0⟩, ⟨2, 1, .wc, 0⟩]⟩,
  ⟨[1], 0x44, 4, 1, 4, 1, 1, [⟨0, 16, .ro, 0⟩]⟩,
  ⟨[1], 0x48, 4, 1, 4, 1, 1, [⟨0, 16, .ro, 0⟩]⟩,
  ⟨[1], 0x4C, 4, 1, 4, 1, 1, [⟨0, 16, .ro, 0⟩]⟩,
  ⟨[1], 0x100, 4, 16, 4, 1, 1, [⟨0, 32, .ro, 0⟩]⟩,
  ⟨[1], 0x80, 4, 1, 4, 1, 1, [⟨0, 1, .sc, 0⟩, ⟨1, 2, .rw, 0⟩, ⟨8, 6, .rw, 0⟩]⟩,
  ⟨[1], 0x88, 4, 1, 4, 1, 1, [⟨0, 1, .wc, 0⟩, ⟨1, 1, .wc, 0⟩, ⟨2, 1, .wc, 0⟩, ⟨3, 1, .wc, 0⟩]⟩,
  ⟨[1], 0x8C, 4, 1, 4, 1, 1, [⟨0, 16, .ro, 0⟩]⟩,
  ⟨[1], 0x90, 4, 1, 4, 1, 1, [⟨0, 16, .ro, 0⟩]⟩,
  ⟨[1], 0x94, 4, 1, 4, 1, 1, [⟨0, 16, .ro, 0⟩]⟩,
  ⟨[1], 0x98, 4, 1, 4, 1, 1, [⟨0, 16, .ro, 0⟩]⟩,
  ⟨[1], 0x200, 4, 64, 4, 1, 1, [⟨0, 3, .ro, 0⟩, ⟨3, 1, .ro, 0⟩, ⟨4, 1, .ro, 0⟩, ⟨16, 16, .ro, 0⟩]⟩]

/-- Block 0x60: SPEC_CAP (07 R137), SPEC_EVT_STATUS (07 R137), SPEC_EVT_CNT_HANDOFF (07 R137), SPEC_EVT_CNT_STALE (07 R137), SPEC_EVT_CNT_LEN (07 R137), SPEC_HANDOFF_LAST (07 R137), SPEC_ROUNDS (07 R137), SPEC_PROPOSED (07 R137), SPEC_ACCEPTED (07 R137). -/
def regBlock60 : List RegFam := [
  ⟨[2], 0x0, 4, 1, 4, 1, 1, [⟨0, 4, .ro, 8⟩, ⟨16, 9, .ro, 256⟩]⟩,
  ⟨[2], 0x10, 4, 1, 4, 1, 1, [⟨0, 1, .wc, 0⟩, ⟨1, 1, .wc, 0⟩, ⟨2, 1, .wc, 0⟩]⟩,
  ⟨[2], 0x14, 4, 1, 4, 1, 1, [⟨0, 16, .ro, 0⟩]⟩,
  ⟨[2], 0x18, 4, 1, 4, 1, 1, [⟨0, 16, .ro, 0⟩]⟩,
  ⟨[2], 0x1C, 4, 1, 4, 1, 1, [⟨0, 16, .ro, 0⟩]⟩,
  ⟨[2], 0x20, 4, 1, 4, 1, 1, [⟨0, 12, .ro, 0⟩, ⟨16, 16, .ro, 0⟩]⟩,
  ⟨[2], 0x30, 8, 1, 4, 1, 2, [⟨0, 64, .ro, 0⟩]⟩,
  ⟨[2], 0x38, 8, 1, 4, 1, 2, [⟨0, 64, .ro, 0⟩]⟩,
  ⟨[2], 0x40, 8, 1, 4, 1, 2, [⟨0, 64, .ro, 0⟩]⟩]

/-- Block 0x68: STEM_CAP (06 R123), STEM_STATUS (06 R123). -/
def regBlock68 : List RegFam := [
  ⟨[3, 4], 0x0, 4, 1, 4, 1, 1, [⟨0, 4, .ro, 8⟩, ⟨4, 4, .ro, 11⟩, ⟨8, 5, .ro, 16⟩, ⟨16, 12, .ro, 2048⟩]⟩,
  ⟨[3, 4], 0x10, 4, 1, 4, 1, 1, [⟨0, 1, .ro, 0⟩, ⟨16, 16, .ro, 0⟩]⟩]

/-- Block 0x69: PPX_CAP (06 R123), PPX_STATUS (06 R123). -/
def regBlock69 : List RegFam := [
  ⟨[3, 4], 0x0, 4, 1, 4, 1, 1, [⟨0, 13, .ro, 4096⟩, ⟨16, 8, .ro, 64⟩]⟩,
  ⟨[3, 4], 0x10, 4, 1, 4, 1, 1, [⟨0, 1, .ro, 0⟩, ⟨16, 16, .ro, 0⟩]⟩]

/-- The registers of a block by its ID (R23, R24). -/
def regFamilies : Nat → List RegFam
  | 0x00 => regBlock00
  | 0x01 => regBlock01
  | 0x02 => regBlock02
  | 0x03 => regBlock03
  | 0x04 => regBlock04
  | 0x05 => regBlock05
  | 0x06 => regBlock06
  | 0x07 => regBlock07
  | 0x08 => regBlock08
  | 0x0A => regBlock0A
  | 0x0B => regBlock0B
  | 0x20 => regBlock20
  | 0x21 => regBlock21
  | 0x22 => regBlock22
  | 0x23 => regBlock23
  | 0x24 => regBlock24
  | 0x25 => regBlock25
  | 0x26 => regBlock26
  | 0x27 => regBlock27
  | 0x28 => regBlock28
  | 0x29 => regBlock29
  | 0x2A => regBlock2A
  | 0x2B => regBlock2B
  | 0x2C => regBlock2C
  | 0x2E => regBlock2E
  | 0x2F => regBlock2F
  | 0x30 => regBlock30
  | 0x31 => regBlock31
  | 0x41 => regBlock41
  | 0x42 => regBlock42
  | 0x43 => regBlock43
  | 0x44 => regBlock44
  | 0x45 => regBlock45
  | 0x46 => regBlock46
  | 0x60 => regBlock60
  | 0x68 => regBlock68
  | 0x69 => regBlock69
  | _ => []

abbrev Reg.ID_DIE_INFO (n : Nat) : Nat := n * 0x1000000 + 0x0
abbrev Reg.ID_PART (n : Nat) : Nat := n * 0x1000000 + 0x4
abbrev Reg.ID_CAP_COMPUTE (n : Nat) : Nat := n * 0x1000000 + 0x10
abbrev Reg.ID_CAP_MEM (n : Nat) : Nat := n * 0x1000000 + 0x14
abbrev Reg.ID_CAP_OPS (n : Nat) : Nat := n * 0x1000000 + 0x18
abbrev Reg.ID_CAP_ENGINES (n : Nat) : Nat := n * 0x1000000 + 0x1C
abbrev Reg.ID_CAP_LINK (n : Nat) : Nat := n * 0x1000000 + 0x20
abbrev Reg.ID_CAP_DEVICE (n : Nat) : Nat := n * 0x1000000 + 0x30
abbrev Reg.ID_FEATURES (n : Nat) : Nat := n * 0x1000000 + 0x34
abbrev Reg.MON_SAT_STATUS (n : Nat) : Nat := n * 0x1000000 + 0x50800
abbrev Reg.MON_SAT_CNT_ACC (n : Nat) : Nat := n * 0x1000000 + 0x50810
abbrev Reg.MON_SAT_CNT_OUT (n : Nat) : Nat := n * 0x1000000 + 0x50814
abbrev Reg.MON_SAT_CNT_SCALE (n : Nat) : Nat := n * 0x1000000 + 0x50818
abbrev Reg.MON_SAT_CNT_FUNC (n : Nat) : Nat := n * 0x1000000 + 0x5081C
abbrev Reg.MON_SAT_ELEMS (n : Nat) : Nat := n * 0x1000000 + 0x50820
abbrev Reg.LAY_VERSION : Nat := 0x1460000
abbrev Reg.LAY_CTRL : Nat := 0x1460010
abbrev Reg.LAY_IMG_ADDR : Nat := 0x1460018
abbrev Reg.LAY_IMG_LEN : Nat := 0x1460020
abbrev Reg.LAY_STATUS : Nat := 0x1460030
abbrev Reg.LAY_ERR_LOC : Nat := 0x1460034
abbrev Reg.LAY_ERR_OFFSET : Nat := 0x1460038
abbrev Reg.LAY_EVENT : Nat := 0x1460040
abbrev Reg.LAY_EVENT_CNT_DONE : Nat := 0x1460044
abbrev Reg.LAY_EVENT_CNT_FAIL : Nat := 0x1460048
abbrev Reg.LAY_EVENT_CNT_REJECT : Nat := 0x146004C
abbrev Reg.LAY_ACTIVE_DIGEST (k : Nat) : Nat := 0x1460100 + 4 * k
abbrev Reg.LAY_CTX_CTRL : Nat := 0x1460080
abbrev Reg.LAY_CTX_EVENT : Nat := 0x1460088
abbrev Reg.LAY_CTX_EVENT_CNT_RES : Nat := 0x146008C
abbrev Reg.LAY_CTX_EVENT_CNT_FAIL : Nat := 0x1460090
abbrev Reg.LAY_CTX_EVENT_CNT_REJECT : Nat := 0x1460094
abbrev Reg.LAY_CTX_EVENT_CNT_NONRES : Nat := 0x1460098
abbrev Reg.LAY_CTX_STATE (k : Nat) : Nat := 0x1460200 + 4 * k
abbrev Reg.QUE_OVR_STATUS (n : Nat) : Nat := n * 0x1000000 + 0x30100
abbrev Reg.QUE_OVR_CNT_OVERRUN (n : Nat) : Nat := n * 0x1000000 + 0x30104
abbrev Reg.QUE_OVR_CNT_SKIP (n : Nat) : Nat := n * 0x1000000 + 0x30108
abbrev Reg.QUE_OVR_LAST (n : Nat) : Nat := n * 0x1000000 + 0x3010C
abbrev Reg.PCIE_LINK_STATUS : Nat := 0x1440000
abbrev Reg.HQ_DEV_STATE : Nat := 0x1450000
abbrev Reg.HQ_IF_FW : Nat := 0x1450004
abbrev Reg.HQ_IF_DRV : Nat := 0x1450008
abbrev Reg.HQ_IF_CTRL : Nat := 0x145000C
abbrev Reg.HQ_IF_STATUS : Nat := 0x1450010
abbrev Reg.HQ_FW_VERSION : Nat := 0x1450014
abbrev Reg.HQ_FW_DIGEST (k : Nat) : Nat := 0x1450100 + 4 * k
abbrev Reg.HQ_EVT_STATUS : Nat := 0x1450020
abbrev Reg.HQ_EVT_CNT (k : Nat) : Nat := 0x1450040 + 4 * k
abbrev Reg.HQ_EVT_VEC : Nat := 0x1450060
abbrev Reg.HQ_Q_SQ_BASE (k : Nat) : Nat := 0x1451000 + 32 * k
abbrev Reg.HQ_Q_CQ_BASE (k : Nat) : Nat := 0x1451008 + 32 * k
abbrev Reg.HQ_Q_CTRL (k : Nat) : Nat := 0x1451010 + 32 * k
abbrev Reg.HQ_Q_STATUS (k : Nat) : Nat := 0x1451014 + 32 * k
abbrev Reg.HQ_Q_SQ_HEAD (k : Nat) : Nat := 0x1451018 + 32 * k
abbrev Reg.HQ_Q_CQ_TAIL (k : Nat) : Nat := 0x145101C + 32 * k
abbrev Reg.HQ_WIN_BASE (k : Nat) : Nat := 0x1452000 + 16 * k
abbrev Reg.HQ_WIN_CTRL (k : Nat) : Nat := 0x1452008 + 16 * k
abbrev Reg.HQ_NTF_THRESH (k : Nat) : Nat := 0x1453000 + 16 * k
abbrev Reg.HQ_NTF_CTRL (k : Nat) : Nat := 0x1453008 + 16 * k
abbrev Reg.SYNC_VALUE (n k : Nat) : Nat := n * 0x1000000 + 0x20000 + 8 * k
abbrev Reg.TILE_BUSY_LO (n : Nat) : Nat := n * 0x1000000 + 0xA0000
abbrev Reg.TILE_BUSY_HI (n : Nat) : Nat := n * 0x1000000 + 0xA0004
abbrev Reg.TILE_EVT_STATUS (n : Nat) : Nat := n * 0x1000000 + 0xA0010
abbrev Reg.TILE_EVT_CNT_CORR (n : Nat) : Nat := n * 0x1000000 + 0xA0014
abbrev Reg.TILE_EVT_CNT_UNCORR (n : Nat) : Nat := n * 0x1000000 + 0xA0018
abbrev Reg.TILE_EVT_CNT_ABORT (n : Nat) : Nat := n * 0x1000000 + 0xA001C
abbrev Reg.TILE_ECC_LAST (n : Nat) : Nat := n * 0x1000000 + 0xA0020
abbrev Reg.TILE_OP_CNT (n : Nat) : Nat := n * 0x1000000 + 0xA0030
abbrev Reg.STEM_CAP (n : Nat) : Nat := n * 0x1000000 + 0x680000
abbrev Reg.STEM_STATUS (n : Nat) : Nat := n * 0x1000000 + 0x680010
abbrev Reg.PPX_CAP (n : Nat) : Nat := n * 0x1000000 + 0x690000
abbrev Reg.PPX_STATUS (n : Nat) : Nat := n * 0x1000000 + 0x690010
abbrev Reg.SPEC_CAP : Nat := 0x2600000
abbrev Reg.SPEC_EVT_STATUS : Nat := 0x2600010
abbrev Reg.SPEC_EVT_CNT_HANDOFF : Nat := 0x2600014
abbrev Reg.SPEC_EVT_CNT_STALE : Nat := 0x2600018
abbrev Reg.SPEC_EVT_CNT_LEN : Nat := 0x260001C
abbrev Reg.SPEC_HANDOFF_LAST : Nat := 0x2600020
abbrev Reg.SPEC_ROUNDS : Nat := 0x2600030
abbrev Reg.SPEC_PROPOSED : Nat := 0x2600038
abbrev Reg.SPEC_ACCEPTED : Nat := 0x2600040
abbrev Reg.KV_CAP : Nat := 0x1410000
abbrev Reg.KV_POOL_BASE : Nat := 0x1410008
abbrev Reg.KV_POOL_PAGES : Nat := 0x1410010
abbrev Reg.KV_POOL_FREE : Nat := 0x1410014
abbrev Reg.KV_CMD : Nat := 0x1410020
abbrev Reg.KV_CMD_ARG_0 : Nat := 0x1410024
abbrev Reg.KV_CMD_ARG_1 : Nat := 0x1410028
abbrev Reg.KV_CMD_STATUS : Nat := 0x141002C
abbrev Reg.KV_CMD_DATA (k : Nat) : Nat := 0x1410040 + 4 * k
abbrev Reg.KV_EVT_STATUS : Nat := 0x1410060
abbrev Reg.KV_EVT_CNT_REFUSED : Nat := 0x1410064
abbrev Reg.KV_EVT_CNT_POOL : Nat := 0x1410068
abbrev Reg.KV_EVT_CNT_REJECT : Nat := 0x141006C
abbrev Reg.KV_EVT_CNT_ROLLBACK : Nat := 0x1410070
abbrev Reg.KV_REFUSE_LAST : Nat := 0x1410074
abbrev Reg.KV_TOKENS_APPENDED : Nat := 0x1410080
abbrev Reg.KV_PAGES_RECLAIMED : Nat := 0x1410088
abbrev Reg.SEQ_CAP (n : Nat) : Nat := n * 0x1000000 + 0xB0000
abbrev Reg.SEQ_CMD (n : Nat) : Nat := n * 0x1000000 + 0xB0010
abbrev Reg.SEQ_CMD_VA (n : Nat) : Nat := n * 0x1000000 + 0xB0018
abbrev Reg.SEQ_CMD_SRAM (n : Nat) : Nat := n * 0x1000000 + 0xB0020
abbrev Reg.SEQ_CMD_STATUS (n : Nat) : Nat := n * 0x1000000 + 0xB0024
abbrev Reg.SEQ_CMD_TAG (n : Nat) : Nat := n * 0x1000000 + 0xB0028
abbrev Reg.SEQ_EVT_STATUS (n : Nat) : Nat := n * 0x1000000 + 0xB0040
abbrev Reg.SEQ_EVT_CNT_MOVED (n : Nat) : Nat := n * 0x1000000 + 0xB0044
abbrev Reg.SEQ_EVT_CNT_STEPUP (n : Nat) : Nat := n * 0x1000000 + 0xB0048
abbrev Reg.SEQ_EVT_CNT_RESTORE (n : Nat) : Nat := n * 0x1000000 + 0xB004C
abbrev Reg.SEQ_EVT_CNT_REJECT (n : Nat) : Nat := n * 0x1000000 + 0xB0050
abbrev Reg.SEQ_STEPS (n : Nat) : Nat := n * 0x1000000 + 0xB0060
abbrev Reg.SEQ_SLOT (n k : Nat) : Nat := n * 0x1000000 + 0xB0400 + 4 * k
abbrev Reg.TIER_CMD : Nat := 0x1420000
abbrev Reg.TIER_CMD_VA : Nat := 0x1420008
abbrev Reg.TIER_CMD_LEN : Nat := 0x1420010
abbrev Reg.TIER_CMD_VA2 : Nat := 0x1420020
abbrev Reg.TIER_CMD_AUX : Nat := 0x1420018
abbrev Reg.TIER_CMD_STATUS : Nat := 0x1420028
abbrev Reg.TIER_EVT_STATUS : Nat := 0x1420040
abbrev Reg.TIER_EVT_CNT (k : Nat) : Nat := 0x1420044 + 4 * k
abbrev Reg.TIER_PATH_LAST : Nat := 0x1420060
abbrev Reg.TIER_PATH_PROG : Nat := 0x1420064
abbrev Reg.TIER_HBM_FREE : Nat := 0x1420070
abbrev Reg.XLT_EVT_STATUS (n : Nat) : Nat := n * 0x1000000 + 0x60000
abbrev Reg.XLT_EVT_CNT (n k : Nat) : Nat := n * 0x1000000 + 0x60004 + 4 * k
abbrev Reg.XLT_FAULT_LAST (n : Nat) : Nat := n * 0x1000000 + 0x60020
abbrev Reg.XLT_FAULT_VA (n : Nat) : Nat := n * 0x1000000 + 0x60028
abbrev Reg.XLT_TLB (n : Nat) : Nat := n * 0x1000000 + 0x60030
abbrev Reg.FTL_STATUS : Nat := 0x1430000
abbrev Reg.FTL_RD_THRESH : Nat := 0x1430008
abbrev Reg.FTL_EVT_STATUS : Nat := 0x1430010
abbrev Reg.FTL_EVT_CNT (k : Nat) : Nat := 0x1430014 + 4 * k
abbrev Reg.FTL_CORR_CNT : Nat := 0x1430030
abbrev Reg.FTL_UNITS_WRITTEN : Nat := 0x1430038
abbrev Reg.TCL_EVT_STATUS (n : Nat) : Nat := n * 0x1000000 + 0x40000
abbrev Reg.TCL_EVT_CNT (n k : Nat) : Nat := n * 0x1000000 + 0x40004 + 4 * k
abbrev Reg.TCL_C0_LAST (n : Nat) : Nat := n * 0x1000000 + 0x40010
abbrev Reg.TCL_CTRL (n : Nat) : Nat := n * 0x1000000 + 0x40020
abbrev Reg.TCL_HRAM : Nat := 0x40040
abbrev Reg.TCL_C0_LAT_MAX (n k : Nat) : Nat := n * 0x1000000 + 0x40100 + 4 * k
abbrev Reg.MON_SNAP_TIME (n : Nat) : Nat := n * 0x1000000 + 0x50000
abbrev Reg.MON_SNAP_STATUS (n : Nat) : Nat := n * 0x1000000 + 0x50008
abbrev Reg.MON_SNAP_CNT_TAKEN (n : Nat) : Nat := n * 0x1000000 + 0x5000C
abbrev Reg.MON_SNAP_CNT_MISSED (n : Nat) : Nat := n * 0x1000000 + 0x50010
abbrev Reg.MON_SNAP_AT (n : Nat) : Nat := n * 0x1000000 + 0x50018
abbrev Reg.MON_BYTES (n i j : Nat) : Nat := n * 0x1000000 + 0x51000 + 128 * i + 8 * j
abbrev Reg.MON_BYTES_SHADOW (n i j : Nat) : Nat := n * 0x1000000 + 0x52000 + 128 * i + 8 * j
abbrev Reg.MON_LATE (n i j : Nat) : Nat := n * 0x1000000 + 0x51040 + 128 * i + 4 * j
abbrev Reg.MON_LATE_SHADOW (n i j : Nat) : Nat := n * 0x1000000 + 0x52040 + 128 * i + 4 * j
abbrev Reg.TIME_NOW : Nat := 0x230000
abbrev Reg.TIME_CTRL : Nat := 0x230010
abbrev Reg.TIME_RATE : Nat := 0x230014
abbrev Reg.TIME_STEP : Nat := 0x230018
abbrev Reg.TIME_STATUS : Nat := 0x230020
abbrev Reg.TIME_EVT_STATUS : Nat := 0x230030
abbrev Reg.TIME_EVT_CNT (k : Nat) : Nat := 0x230034 + 4 * k
abbrev Reg.TIME_PPS_OUT_OFS : Nat := 0x230050
abbrev Reg.TIME_PPS_OUT_WIDTH : Nat := 0x230054
abbrev Reg.TIME_PPS_IN : Nat := 0x230058
abbrev Reg.TIME_PORT_CTRL (k : Nat) : Nat := 0x230100 + 32 * k
abbrev Reg.TIME_PORT_ING_PS (k : Nat) : Nat := 0x230104 + 32 * k
abbrev Reg.TIME_PORT_EGR_PS (k : Nat) : Nat := 0x230108 + 32 * k
abbrev Reg.TIME_PORT_ASYM_PS (k : Nat) : Nat := 0x23010C + 32 * k
abbrev Reg.TIME_PORT_FIFO_HDR (k : Nat) : Nat := 0x230110 + 32 * k
abbrev Reg.TIME_PORT_FIFO_FRAC (k : Nat) : Nat := 0x230114 + 32 * k
abbrev Reg.TIME_PORT_FIFO_NS (k : Nat) : Nat := 0x230118 + 32 * k
abbrev Reg.TIME_CSI_OFS (i j : Nat) : Nat := 0x230300 + 16 * i + 4 * j
abbrev Reg.ETH_CTRL (k : Nat) : Nat := 0x240000 + 64 * k
abbrev Reg.ETH_STATUS (k : Nat) : Nat := 0x240004 + 64 * k
abbrev Reg.ETH_MAC : Nat := 0x240400
abbrev Reg.JBUS_CFG : Nat := 0x260000
abbrev Reg.JBUS_EVT_STATUS : Nat := 0x260010
abbrev Reg.JBUS_EVT_CNT (k : Nat) : Nat := 0x260014 + 4 * k
abbrev Reg.JBUS_FAULT_LAST : Nat := 0x260040
abbrev Reg.JBUS_CLR : Nat := 0x260044
abbrev Reg.JBUS_STREAM (k : Nat) : Nat := 0x260100 + 4 * k
abbrev Reg.CSI_CTRL (k : Nat) : Nat := 0x250000 + 32 * k
abbrev Reg.CSI_STATUS (k : Nat) : Nat := 0x250004 + 32 * k
abbrev Reg.CSI_EVT_STATUS : Nat := 0x250100
abbrev Reg.CSI_EVT_CNT (k : Nat) : Nat := 0x250104 + 4 * k
abbrev Reg.FUSN_STATUS : Nat := 0x270000
abbrev Reg.FUSN_SLOT : Nat := 0x270008
abbrev Reg.FUSN_EVT_STATUS : Nat := 0x270010
abbrev Reg.FUSN_EVT_CNT (k : Nat) : Nat := 0x270014 + 4 * k
abbrev Reg.FUSN_LATE (k : Nat) : Nat := 0x270100 + 4 * k
abbrev Reg.FUSN_STREAM (k : Nat) : Nat := 0x270200 + 4 * k
abbrev Reg.MAP_STATUS : Nat := 0x280000
abbrev Reg.MAP_CMD : Nat := 0x280010
abbrev Reg.MAP_CMD_ARG : Nat := 0x280014
abbrev Reg.MAP_CMD_VA : Nat := 0x280018
abbrev Reg.MAP_CMD_STATUS : Nat := 0x280020
abbrev Reg.MAP_EVT_STATUS : Nat := 0x280030
abbrev Reg.MAP_EVT_CNT (k : Nat) : Nat := 0x280034 + 4 * k
abbrev Reg.MAP_NODES : Nat := 0x280050
abbrev Reg.MAP_PINS : Nat := 0x280054
abbrev Reg.MAP_DELTA_HEAD : Nat := 0x280058
abbrev Reg.MAP_EPOCH (k : Nat) : Nat := 0x281000 + 8 * k
abbrev Reg.PLAN_CAP : Nat := 0x290000
abbrev Reg.PLAN_CAP_MODEL : Nat := 0x290004
abbrev Reg.PLAN_STATUS : Nat := 0x290010
abbrev Reg.PLAN_BATCHES : Nat := 0x290018
abbrev Reg.PLAN_EVT_STATUS : Nat := 0x290020
abbrev Reg.PLAN_EVT_CNT (k : Nat) : Nat := 0x290024 + 4 * k
abbrev Reg.PLAN_LAST : Nat := 0x290040
abbrev Reg.PLAN_LAST_TESTS : Nat := 0x290048
abbrev Reg.PLAN_LAST_QUERIES : Nat := 0x290050
abbrev Reg.PLAN_LAST_CYCLES : Nat := 0x290058
abbrev Reg.SOLV_CAP : Nat := 0x2A0000
abbrev Reg.SOLV_STATUS : Nat := 0x2A0010
abbrev Reg.SOLV_EVT_STATUS : Nat := 0x2A0020
abbrev Reg.SOLV_EVT_CNT (k : Nat) : Nat := 0x2A0024 + 4 * k
abbrev Reg.SOLV_LAST : Nat := 0x2A0050
abbrev Reg.SOLV_SETUP (k : Nat) : Nat := 0x2A0100 + 4 * k
abbrev Reg.LOOP_CAP : Nat := 0x2B0000
abbrev Reg.LOOP_STATUS : Nat := 0x2B0010
abbrev Reg.LOOP_EVT_STATUS : Nat := 0x2B0020
abbrev Reg.LOOP_EVT_CNT (k : Nat) : Nat := 0x2B0024 + 4 * k
abbrev Reg.LOOP_FAULT_LAST : Nat := 0x2B0050
abbrev Reg.LOOP_CLR : Nat := 0x2B0054
abbrev Reg.LOOP_EVALS : Nat := 0x2B0060
abbrev Reg.LOOP_SLOT (k : Nat) : Nat := 0x2B1000 + 4 * k
abbrev Reg.CRUST_STATUS : Nat := 0x2C0000
abbrev Reg.CRUST_GROUP (k : Nat) : Nat := 0x2C0010 + 4 * k
abbrev Reg.CRUST_EVT_STATUS : Nat := 0x2C0020
abbrev Reg.CRUST_EVT_CNT (k : Nat) : Nat := 0x2C0100 + 4 * k
abbrev Reg.CRUST_EVT_LAST : Nat := 0x2C0024
abbrev Reg.CRUST_PSF : Nat := 0x2C0028
abbrev Reg.CRUST_CLR : Nat := 0x2C0030
abbrev Reg.CRUST_NONCE (k : Nat) : Nat := 0x2C0040 + 4 * k
abbrev Reg.CRUST_CHG_CTRL : Nat := 0x2C0050
abbrev Reg.CRUST_CHG_ADDR : Nat := 0x2C0058
abbrev Reg.CRUST_CHG_STATUS : Nat := 0x2C0060
abbrev Reg.SIO_CFG : Nat := 0x2E0000
abbrev Reg.SIO_STO_CTRL : Nat := 0x2E0010
abbrev Reg.SIO_STO_STATUS : Nat := 0x2E0014
abbrev Reg.INJ_CTRL : Nat := 0x80000
abbrev Reg.INJ_PROOF_STATUS (n : Nat) : Nat := n * 0x1000000 + 0x80004
abbrev Reg.INJ_EVT_STATUS (n : Nat) : Nat := n * 0x1000000 + 0x80010
abbrev Reg.INJ_EVT_CNT (n k : Nat) : Nat := n * 0x1000000 + 0x80014 + 4 * k
abbrev Reg.INJ_ST_AGE (k : Nat) : Nat := 0x80100 + 4 * k
abbrev Reg.BOOT_STATUS : Nat := 0x2F0000
abbrev Reg.BOOT_ROM_VERSION : Nat := 0x2F0004
abbrev Reg.BOOT_DIR : Nat := 0x2F0008
abbrev Reg.BOOT_CTRL : Nat := 0x2F0010
abbrev Reg.BOOT_UPD_CTRL : Nat := 0x2F0020
abbrev Reg.BOOT_UPD_ADDR : Nat := 0x2F0028
abbrev Reg.BOOT_UPD_STATUS : Nat := 0x2F0030
abbrev Reg.BOOT_EVT_STATUS : Nat := 0x2F0040
abbrev Reg.BOOT_EVT_CNT (k : Nat) : Nat := 0x2F0044 + 4 * k
abbrev Reg.BOOT_LOG (k : Nat) : Nat := 0x2F1000 + 4 * k
abbrev Reg.KEY_SLOT_STATUS : Nat := 0x300000
abbrev Reg.KEY_FUSES : Nat := 0x300004
abbrev Reg.KEY_DEBUG : Nat := 0x300008
abbrev Reg.KEY_ID_PUB (k : Nat) : Nat := 0x300100 + 4 * k
abbrev Reg.KEY_ATT_CTRL : Nat := 0x300200
abbrev Reg.KEY_ATT_ADDR : Nat := 0x300208
abbrev Reg.KEY_ATT_NONCE (k : Nat) : Nat := 0x300210 + 4 * k
abbrev Reg.KEY_ATT_STATUS : Nat := 0x300230
abbrev Reg.BKR_STATUS (n : Nat) : Nat := n * 0x1000000 + 0x70000
abbrev Reg.BKR_EVT_STATUS (n : Nat) : Nat := n * 0x1000000 + 0x70010
abbrev Reg.BKR_EVT_CNT_0 (n : Nat) : Nat := n * 0x1000000 + 0x70014
abbrev Reg.BKR_EVT_CNT_1 (n : Nat) : Nat := n * 0x1000000 + 0x70018
abbrev Reg.RST_CAUSE : Nat := 0x200000
abbrev Reg.RST_SW_CTRL : Nat := 0x200010
abbrev Reg.RST_BLK_CTRL : Nat := 0x200020
abbrev Reg.RST_DRAIN_TIMEOUT : Nat := 0x200024
abbrev Reg.RST_BLK_STATUS : Nat := 0x200028
abbrev Reg.RST_BLK_TERM : Nat := 0x20002C
abbrev Reg.RST_EVT_STATUS : Nat := 0x200040
abbrev Reg.RST_EVT_CNT (k : Nat) : Nat := 0x200044 + 4 * k
abbrev Reg.RST_CNT (k : Nat) : Nat := 0x200100 + 4 * k
abbrev Reg.BKP_SIG : Nat := 0x220000
abbrev Reg.BKP_EVT_STATUS : Nat := 0x220010
abbrev Reg.BKP_EVT_CNT_0 : Nat := 0x220014
abbrev Reg.BKP_EVT_CNT_1 : Nat := 0x220018
abbrev Reg.BKP_REG (k : Nat) : Nat := 0x220100 + 4 * k
abbrev Reg.BKP_RAM (k : Nat) : Nat := 0x221000 + 4 * k
abbrev Reg.PWR_CAP : Nat := 0x210000
abbrev Reg.PWR_RX_FLOOR : Nat := 0x210004
abbrev Reg.PWR_STATUS : Nat := 0x210010
abbrev Reg.PWR_INPUT : Nat := 0x210014
abbrev Reg.PWR_VOLT : Nat := 0x210018
abbrev Reg.PWR_HOLDUP : Nat := 0x21001C
abbrev Reg.PWR_ENERGY : Nat := 0x210020
abbrev Reg.PWR_EVT_STATUS : Nat := 0x210030
abbrev Reg.PWR_EVT_CNT (k : Nat) : Nat := 0x210034 + 4 * k
abbrev Reg.PWR_RAIL_STATE (k : Nat) : Nat := 0x210100 + 16 * k
abbrev Reg.PWR_RAIL_LIMIT (k : Nat) : Nat := 0x210104 + 16 * k
abbrev Reg.CLK_EVT_STATUS (n : Nat) : Nat := n * 0x1000000 + 0x10000
abbrev Reg.CLK_EVT_CNT_0 (n : Nat) : Nat := n * 0x1000000 + 0x10004
abbrev Reg.CLK_EVT_CNT_1 (n : Nat) : Nat := n * 0x1000000 + 0x10008
abbrev Reg.CLK_DOM (n k : Nat) : Nat := n * 0x1000000 + 0x10100 + 4 * k
abbrev Reg.THRM_LIMIT (k : Nat) : Nat := 0x310000 + 4 * k
abbrev Reg.THRM_TEMP (i j : Nat) : Nat := 0x310100 + 32 * i + 4 * j
abbrev Reg.THRM_EVT_STATUS : Nat := 0x310080
abbrev Reg.THRM_EVT_CNT (k : Nat) : Nat := 0x310084 + 4 * k
abbrev Reg.THRM_TRIP_LAST : Nat := 0x310090
abbrev Reg.PWR_SPWR_CTRL (k : Nat) : Nat := 0x210200 + 16 * k
abbrev Reg.PWR_SPWR_STATUS (k : Nat) : Nat := 0x210204 + 16 * k
abbrev Reg.PWR_SPWR_EVT : Nat := 0x210240
abbrev Reg.PWR_SPWR_CNT (k : Nat) : Nat := 0x210244 + 4 * k
abbrev Reg.SIO_WIRE_EVT : Nat := 0x2E0020
abbrev Reg.SIO_WIRE_CNT : Nat := 0x2E0024
abbrev Reg.SIO_WIRE_CLR : Nat := 0x2E0028
abbrev Reg.SIO_WIRE (k : Nat) : Nat := 0x2E0100 + 4 * k
abbrev Reg.ETH_PAIR (k : Nat) : Nat := 0x240008 + 64 * k
abbrev Reg.ETH_PAIR_EVT : Nat := 0x240410
abbrev Reg.ETH_PAIR_CNT : Nat := 0x240414

abbrev Fld.ID_DIE_INFO_die_id (n : Nat) : Fld := ⟨Reg.ID_DIE_INFO n, 0, 4⟩
abbrev Fld.ID_DIE_INFO_present (n : Nat) : Fld := ⟨Reg.ID_DIE_INFO n, 4, 1⟩
abbrev Fld.ID_DIE_INFO_die_kind (n : Nat) : Fld := ⟨Reg.ID_DIE_INFO n, 8, 4⟩
abbrev Fld.ID_DIE_INFO_stepping (n : Nat) : Fld := ⟨Reg.ID_DIE_INFO n, 12, 4⟩
abbrev Fld.ID_DIE_INFO_arch_level (n : Nat) : Fld := ⟨Reg.ID_DIE_INFO n, 16, 8⟩
abbrev Fld.ID_PART_vendor (n : Nat) : Fld := ⟨Reg.ID_PART n, 0, 16⟩
abbrev Fld.ID_PART_part (n : Nat) : Fld := ⟨Reg.ID_PART n, 16, 16⟩
abbrev Fld.ID_CAP_COMPUTE_tiles (n : Nat) : Fld := ⟨Reg.ID_CAP_COMPUTE n, 0, 8⟩
abbrev Fld.ID_CAP_COMPUTE_tile_dim (n : Nat) : Fld := ⟨Reg.ID_CAP_COMPUTE n, 8, 8⟩
abbrev Fld.ID_CAP_COMPUTE_tile_sram_mib (n : Nat) : Fld := ⟨Reg.ID_CAP_COMPUTE n, 16, 4⟩
abbrev Fld.ID_CAP_MEM_shared_sram_mib (n : Nat) : Fld := ⟨Reg.ID_CAP_MEM n, 0, 10⟩
abbrev Fld.ID_CAP_MEM_ext_kind (n : Nat) : Fld := ⟨Reg.ID_CAP_MEM n, 16, 4⟩
abbrev Fld.ID_CAP_MEM_ext_units (n : Nat) : Fld := ⟨Reg.ID_CAP_MEM n, 20, 4⟩
abbrev Fld.ID_CAP_OPS_ops_in_flight (n : Nat) : Fld := ⟨Reg.ID_CAP_OPS n, 0, 16⟩
abbrev Fld.ID_CAP_OPS_sync_objects (n : Nat) : Fld := ⟨Reg.ID_CAP_OPS n, 16, 16⟩
abbrev Fld.ID_CAP_ENGINES_seq_engines (n : Nat) : Fld := ⟨Reg.ID_CAP_ENGINES n, 0, 3⟩
abbrev Fld.ID_CAP_ENGINES_prefill_attn (n : Nat) : Fld := ⟨Reg.ID_CAP_ENGINES n, 3, 1⟩
abbrev Fld.ID_CAP_ENGINES_decode_attn (n : Nat) : Fld := ⟨Reg.ID_CAP_ENGINES n, 4, 1⟩
abbrev Fld.ID_CAP_ENGINES_spec_unit (n : Nat) : Fld := ⟨Reg.ID_CAP_ENGINES n, 5, 1⟩
abbrev Fld.ID_CAP_ENGINES_stem (n : Nat) : Fld := ⟨Reg.ID_CAP_ENGINES n, 6, 1⟩
abbrev Fld.ID_CAP_ENGINES_argmax (n : Nat) : Fld := ⟨Reg.ID_CAP_ENGINES n, 7, 1⟩
abbrev Fld.ID_CAP_ENGINES_loop_engines (n : Nat) : Fld := ⟨Reg.ID_CAP_ENGINES n, 8, 3⟩
abbrev Fld.ID_CAP_ENGINES_collision_engines (n : Nat) : Fld := ⟨Reg.ID_CAP_ENGINES n, 12, 8⟩
abbrev Fld.ID_CAP_ENGINES_solver (n : Nat) : Fld := ⟨Reg.ID_CAP_ENGINES n, 20, 1⟩
abbrev Fld.ID_CAP_ENGINES_fusion (n : Nat) : Fld := ⟨Reg.ID_CAP_ENGINES n, 21, 1⟩
abbrev Fld.ID_CAP_ENGINES_map (n : Nat) : Fld := ⟨Reg.ID_CAP_ENGINES n, 22, 1⟩
abbrev Fld.ID_CAP_ENGINES_crust (n : Nat) : Fld := ⟨Reg.ID_CAP_ENGINES n, 23, 1⟩
abbrev Fld.ID_CAP_ENGINES_kv (n : Nat) : Fld := ⟨Reg.ID_CAP_ENGINES n, 24, 1⟩
abbrev Fld.ID_CAP_ENGINES_tier (n : Nat) : Fld := ⟨Reg.ID_CAP_ENGINES n, 25, 1⟩
abbrev Fld.ID_CAP_ENGINES_flash (n : Nat) : Fld := ⟨Reg.ID_CAP_ENGINES n, 26, 1⟩
abbrev Fld.ID_CAP_ENGINES_host (n : Nat) : Fld := ⟨Reg.ID_CAP_ENGINES n, 27, 1⟩
abbrev Fld.ID_CAP_LINK_modules_built (n : Nat) : Fld := ⟨Reg.ID_CAP_LINK n, 0, 5⟩
abbrev Fld.ID_CAP_LINK_modules_active (n : Nat) : Fld := ⟨Reg.ID_CAP_LINK n, 8, 5⟩
abbrev Fld.ID_CAP_LINK_rate_gts (n : Nat) : Fld := ⟨Reg.ID_CAP_LINK n, 16, 8⟩
abbrev Fld.ID_CAP_LINK_up (n : Nat) : Fld := ⟨Reg.ID_CAP_LINK n, 24, 1⟩
abbrev Fld.ID_CAP_DEVICE_dies_present (n : Nat) : Fld := ⟨Reg.ID_CAP_DEVICE n, 0, 5⟩
abbrev Fld.ID_CAP_DEVICE_contexts_max (n : Nat) : Fld := ⟨Reg.ID_CAP_DEVICE n, 8, 7⟩
abbrev Fld.ID_CAP_DEVICE_traffic_classes (n : Nat) : Fld := ⟨Reg.ID_CAP_DEVICE n, 16, 4⟩
abbrev Fld.ID_CAP_DEVICE_formats (n : Nat) : Fld := ⟨Reg.ID_CAP_DEVICE n, 20, 4⟩
abbrev Fld.ID_FEATURES_va57 (n : Nat) : Fld := ⟨Reg.ID_FEATURES n, 0, 1⟩
abbrev Fld.ID_FEATURES_fmt_ext (n : Nat) : Fld := ⟨Reg.ID_FEATURES n, 1, 1⟩
abbrev Fld.MON_SAT_STATUS_acc (n : Nat) : Fld := ⟨Reg.MON_SAT_STATUS n, 0, 1⟩
abbrev Fld.MON_SAT_STATUS_out (n : Nat) : Fld := ⟨Reg.MON_SAT_STATUS n, 1, 1⟩
abbrev Fld.MON_SAT_STATUS_scale (n : Nat) : Fld := ⟨Reg.MON_SAT_STATUS n, 2, 1⟩
abbrev Fld.MON_SAT_STATUS_func (n : Nat) : Fld := ⟨Reg.MON_SAT_STATUS n, 3, 1⟩
abbrev Fld.MON_SAT_CNT_ACC_count (n : Nat) : Fld := ⟨Reg.MON_SAT_CNT_ACC n, 0, 16⟩
abbrev Fld.MON_SAT_CNT_OUT_count (n : Nat) : Fld := ⟨Reg.MON_SAT_CNT_OUT n, 0, 16⟩
abbrev Fld.MON_SAT_CNT_SCALE_count (n : Nat) : Fld := ⟨Reg.MON_SAT_CNT_SCALE n, 0, 16⟩
abbrev Fld.MON_SAT_CNT_FUNC_count (n : Nat) : Fld := ⟨Reg.MON_SAT_CNT_FUNC n, 0, 16⟩
abbrev Fld.MON_SAT_ELEMS_elems (n : Nat) : Fld := ⟨Reg.MON_SAT_ELEMS n, 0, 64⟩
abbrev Fld.LAY_VERSION_fmt_major : Fld := ⟨Reg.LAY_VERSION, 0, 8⟩
abbrev Fld.LAY_VERSION_fmt_minor : Fld := ⟨Reg.LAY_VERSION, 8, 8⟩
abbrev Fld.LAY_VERSION_sect_major : Fld := ⟨Reg.LAY_VERSION, 16, 8⟩
abbrev Fld.LAY_VERSION_arch_level : Fld := ⟨Reg.LAY_VERSION, 24, 8⟩
abbrev Fld.LAY_CTRL_start : Fld := ⟨Reg.LAY_CTRL, 0, 1⟩
abbrev Fld.LAY_CTRL_op : Fld := ⟨Reg.LAY_CTRL, 1, 3⟩
abbrev Fld.LAY_CTRL_msix : Fld := ⟨Reg.LAY_CTRL, 4, 6⟩
abbrev Fld.LAY_CTRL_irq_en : Fld := ⟨Reg.LAY_CTRL, 10, 1⟩
abbrev Fld.LAY_IMG_ADDR_addr : Fld := ⟨Reg.LAY_IMG_ADDR, 6, 58⟩
abbrev Fld.LAY_IMG_LEN_len : Fld := ⟨Reg.LAY_IMG_LEN, 0, 27⟩
abbrev Fld.LAY_STATUS_state : Fld := ⟨Reg.LAY_STATUS, 0, 2⟩
abbrev Fld.LAY_STATUS_copied : Fld := ⟨Reg.LAY_STATUS, 2, 1⟩
abbrev Fld.LAY_STATUS_last_op : Fld := ⟨Reg.LAY_STATUS, 3, 3⟩
abbrev Fld.LAY_STATUS_code : Fld := ⟨Reg.LAY_STATUS, 16, 16⟩
abbrev Fld.LAY_ERR_LOC_section : Fld := ⟨Reg.LAY_ERR_LOC, 0, 8⟩
abbrev Fld.LAY_ERR_LOC_record : Fld := ⟨Reg.LAY_ERR_LOC, 8, 24⟩
abbrev Fld.LAY_ERR_OFFSET_offset : Fld := ⟨Reg.LAY_ERR_OFFSET, 0, 27⟩
abbrev Fld.LAY_EVENT_done : Fld := ⟨Reg.LAY_EVENT, 0, 1⟩
abbrev Fld.LAY_EVENT_fail : Fld := ⟨Reg.LAY_EVENT, 1, 1⟩
abbrev Fld.LAY_EVENT_cmd_reject : Fld := ⟨Reg.LAY_EVENT, 2, 1⟩
abbrev Fld.LAY_EVENT_CNT_DONE_count : Fld := ⟨Reg.LAY_EVENT_CNT_DONE, 0, 16⟩
abbrev Fld.LAY_EVENT_CNT_FAIL_count : Fld := ⟨Reg.LAY_EVENT_CNT_FAIL, 0, 16⟩
abbrev Fld.LAY_EVENT_CNT_REJECT_count : Fld := ⟨Reg.LAY_EVENT_CNT_REJECT, 0, 16⟩
abbrev Fld.LAY_ACTIVE_DIGEST_bytes (k : Nat) : Fld := ⟨Reg.LAY_ACTIVE_DIGEST k, 0, 32⟩
abbrev Fld.LAY_CTX_CTRL_start : Fld := ⟨Reg.LAY_CTX_CTRL, 0, 1⟩
abbrev Fld.LAY_CTX_CTRL_op : Fld := ⟨Reg.LAY_CTX_CTRL, 1, 2⟩
abbrev Fld.LAY_CTX_CTRL_ctx_id : Fld := ⟨Reg.LAY_CTX_CTRL, 8, 6⟩
abbrev Fld.LAY_CTX_EVENT_resident : Fld := ⟨Reg.LAY_CTX_EVENT, 0, 1⟩
abbrev Fld.LAY_CTX_EVENT_res_fail : Fld := ⟨Reg.LAY_CTX_EVENT, 1, 1⟩
abbrev Fld.LAY_CTX_EVENT_cmd_reject : Fld := ⟨Reg.LAY_CTX_EVENT, 2, 1⟩
abbrev Fld.LAY_CTX_EVENT_nonresident : Fld := ⟨Reg.LAY_CTX_EVENT, 3, 1⟩
abbrev Fld.LAY_CTX_EVENT_CNT_RES_count : Fld := ⟨Reg.LAY_CTX_EVENT_CNT_RES, 0, 16⟩
abbrev Fld.LAY_CTX_EVENT_CNT_FAIL_count : Fld := ⟨Reg.LAY_CTX_EVENT_CNT_FAIL, 0, 16⟩
abbrev Fld.LAY_CTX_EVENT_CNT_REJECT_count : Fld := ⟨Reg.LAY_CTX_EVENT_CNT_REJECT, 0, 16⟩
abbrev Fld.LAY_CTX_EVENT_CNT_NONRES_count : Fld := ⟨Reg.LAY_CTX_EVENT_CNT_NONRES, 0, 16⟩
abbrev Fld.LAY_CTX_STATE_state (k : Nat) : Fld := ⟨Reg.LAY_CTX_STATE k, 0, 3⟩
abbrev Fld.LAY_CTX_STATE_crust_hold (k : Nat) : Fld := ⟨Reg.LAY_CTX_STATE k, 3, 1⟩
abbrev Fld.LAY_CTX_STATE_sched (k : Nat) : Fld := ⟨Reg.LAY_CTX_STATE k, 4, 1⟩
abbrev Fld.LAY_CTX_STATE_code (k : Nat) : Fld := ⟨Reg.LAY_CTX_STATE k, 16, 16⟩
abbrev Fld.QUE_OVR_STATUS_overrun (n : Nat) : Fld := ⟨Reg.QUE_OVR_STATUS n, 0, 1⟩
abbrev Fld.QUE_OVR_STATUS_skip (n : Nat) : Fld := ⟨Reg.QUE_OVR_STATUS n, 1, 1⟩
abbrev Fld.QUE_OVR_CNT_OVERRUN_count (n : Nat) : Fld := ⟨Reg.QUE_OVR_CNT_OVERRUN n, 0, 16⟩
abbrev Fld.QUE_OVR_CNT_SKIP_count (n : Nat) : Fld := ⟨Reg.QUE_OVR_CNT_SKIP n, 0, 16⟩
abbrev Fld.QUE_OVR_LAST_ctx_id (n : Nat) : Fld := ⟨Reg.QUE_OVR_LAST n, 0, 6⟩
abbrev Fld.QUE_OVR_LAST_action (n : Nat) : Fld := ⟨Reg.QUE_OVR_LAST n, 6, 2⟩
abbrev Fld.QUE_OVR_LAST_class (n : Nat) : Fld := ⟨Reg.QUE_OVR_LAST n, 8, 3⟩
abbrev Fld.QUE_OVR_LAST_activation (n : Nat) : Fld := ⟨Reg.QUE_OVR_LAST n, 16, 16⟩
abbrev Fld.PCIE_LINK_STATUS_width : Fld := ⟨Reg.PCIE_LINK_STATUS, 0, 4⟩
abbrev Fld.PCIE_LINK_STATUS_rate : Fld := ⟨Reg.PCIE_LINK_STATUS, 4, 4⟩
abbrev Fld.PCIE_LINK_STATUS_flit : Fld := ⟨Reg.PCIE_LINK_STATUS, 8, 1⟩
abbrev Fld.PCIE_LINK_STATUS_up : Fld := ⟨Reg.PCIE_LINK_STATUS, 9, 1⟩
abbrev Fld.HQ_DEV_STATE_state : Fld := ⟨Reg.HQ_DEV_STATE, 0, 4⟩
abbrev Fld.HQ_DEV_STATE_bkr_restarting : Fld := ⟨Reg.HQ_DEV_STATE, 8, 5⟩
abbrev Fld.HQ_IF_FW_majors : Fld := ⟨Reg.HQ_IF_FW, 0, 16⟩
abbrev Fld.HQ_IF_FW_minor : Fld := ⟨Reg.HQ_IF_FW, 16, 8⟩
abbrev Fld.HQ_IF_DRV_majors : Fld := ⟨Reg.HQ_IF_DRV, 0, 16⟩
abbrev Fld.HQ_IF_DRV_minor : Fld := ⟨Reg.HQ_IF_DRV, 16, 8⟩
abbrev Fld.HQ_IF_CTRL_propose : Fld := ⟨Reg.HQ_IF_CTRL, 0, 1⟩
abbrev Fld.HQ_IF_STATUS_major : Fld := ⟨Reg.HQ_IF_STATUS, 0, 4⟩
abbrev Fld.HQ_IF_STATUS_minor : Fld := ⟨Reg.HQ_IF_STATUS, 4, 8⟩
abbrev Fld.HQ_IF_STATUS_code : Fld := ⟨Reg.HQ_IF_STATUS, 16, 16⟩
abbrev Fld.HQ_FW_VERSION_patch : Fld := ⟨Reg.HQ_FW_VERSION, 0, 8⟩
abbrev Fld.HQ_FW_VERSION_minor : Fld := ⟨Reg.HQ_FW_VERSION, 8, 8⟩
abbrev Fld.HQ_FW_VERSION_major : Fld := ⟨Reg.HQ_FW_VERSION, 16, 8⟩
abbrev Fld.HQ_FW_DIGEST_bytes (k : Nat) : Fld := ⟨Reg.HQ_FW_DIGEST k, 0, 32⟩
abbrev Fld.HQ_EVT_STATUS_bar0_absent : Fld := ⟨Reg.HQ_EVT_STATUS, 0, 1⟩
abbrev Fld.HQ_EVT_STATUS_db_invalid : Fld := ⟨Reg.HQ_EVT_STATUS, 1, 1⟩
abbrev Fld.HQ_EVT_STATUS_sync_invalid : Fld := ⟨Reg.HQ_EVT_STATUS, 2, 1⟩
abbrev Fld.HQ_EVT_STATUS_sync_overflow : Fld := ⟨Reg.HQ_EVT_STATUS, 3, 1⟩
abbrev Fld.HQ_EVT_STATUS_win_fault : Fld := ⟨Reg.HQ_EVT_STATUS, 4, 1⟩
abbrev Fld.HQ_EVT_STATUS_q_fault : Fld := ⟨Reg.HQ_EVT_STATUS, 5, 1⟩
abbrev Fld.HQ_EVT_STATUS_if_done : Fld := ⟨Reg.HQ_EVT_STATUS, 6, 1⟩
abbrev Fld.HQ_EVT_STATUS_bkr_restart : Fld := ⟨Reg.HQ_EVT_STATUS, 7, 1⟩
abbrev Fld.HQ_EVT_CNT_count (k : Nat) : Fld := ⟨Reg.HQ_EVT_CNT k, 0, 16⟩
abbrev Fld.HQ_EVT_VEC_msix : Fld := ⟨Reg.HQ_EVT_VEC, 0, 6⟩
abbrev Fld.HQ_EVT_VEC_irq_en : Fld := ⟨Reg.HQ_EVT_VEC, 6, 1⟩
abbrev Fld.HQ_EVT_VEC_mask : Fld := ⟨Reg.HQ_EVT_VEC, 16, 8⟩
abbrev Fld.HQ_Q_SQ_BASE_addr (k : Nat) : Fld := ⟨Reg.HQ_Q_SQ_BASE k, 6, 58⟩
abbrev Fld.HQ_Q_CQ_BASE_addr (k : Nat) : Fld := ⟨Reg.HQ_Q_CQ_BASE k, 5, 59⟩
abbrev Fld.HQ_Q_CTRL_run (k : Nat) : Fld := ⟨Reg.HQ_Q_CTRL k, 0, 1⟩
abbrev Fld.HQ_Q_CTRL_abort (k : Nat) : Fld := ⟨Reg.HQ_Q_CTRL k, 1, 1⟩
abbrev Fld.HQ_Q_CTRL_msix (k : Nat) : Fld := ⟨Reg.HQ_Q_CTRL k, 2, 6⟩
abbrev Fld.HQ_Q_CTRL_irq_en (k : Nat) : Fld := ⟨Reg.HQ_Q_CTRL k, 8, 1⟩
abbrev Fld.HQ_Q_STATUS_quiesced (k : Nat) : Fld := ⟨Reg.HQ_Q_STATUS k, 0, 1⟩
abbrev Fld.HQ_Q_STATUS_fault (k : Nat) : Fld := ⟨Reg.HQ_Q_STATUS k, 1, 1⟩
abbrev Fld.HQ_Q_STATUS_code (k : Nat) : Fld := ⟨Reg.HQ_Q_STATUS k, 16, 16⟩
abbrev Fld.HQ_Q_SQ_HEAD_count (k : Nat) : Fld := ⟨Reg.HQ_Q_SQ_HEAD k, 0, 32⟩
abbrev Fld.HQ_Q_CQ_TAIL_count (k : Nat) : Fld := ⟨Reg.HQ_Q_CQ_TAIL k, 0, 32⟩
abbrev Fld.HQ_WIN_BASE_va (k : Nat) : Fld := ⟨Reg.HQ_WIN_BASE k, 21, 43⟩
abbrev Fld.HQ_WIN_CTRL_mode (k : Nat) : Fld := ⟨Reg.HQ_WIN_CTRL k, 0, 2⟩
abbrev Fld.HQ_WIN_CTRL_ctx_id (k : Nat) : Fld := ⟨Reg.HQ_WIN_CTRL k, 8, 6⟩
abbrev Fld.HQ_NTF_THRESH_value (k : Nat) : Fld := ⟨Reg.HQ_NTF_THRESH k, 0, 64⟩
abbrev Fld.HQ_NTF_CTRL_sync_id (k : Nat) : Fld := ⟨Reg.HQ_NTF_CTRL k, 0, 16⟩
abbrev Fld.HQ_NTF_CTRL_msix (k : Nat) : Fld := ⟨Reg.HQ_NTF_CTRL k, 16, 6⟩
abbrev Fld.HQ_NTF_CTRL_arm (k : Nat) : Fld := ⟨Reg.HQ_NTF_CTRL k, 22, 1⟩
abbrev Fld.SYNC_VALUE_value (n k : Nat) : Fld := ⟨Reg.SYNC_VALUE n k, 0, 64⟩
abbrev Fld.TILE_BUSY_LO_busy (n : Nat) : Fld := ⟨Reg.TILE_BUSY_LO n, 0, 32⟩
abbrev Fld.TILE_BUSY_HI_busy (n : Nat) : Fld := ⟨Reg.TILE_BUSY_HI n, 0, 32⟩
abbrev Fld.TILE_EVT_STATUS_ecc_corr (n : Nat) : Fld := ⟨Reg.TILE_EVT_STATUS n, 0, 1⟩
abbrev Fld.TILE_EVT_STATUS_ecc_uncorr (n : Nat) : Fld := ⟨Reg.TILE_EVT_STATUS n, 1, 1⟩
abbrev Fld.TILE_EVT_STATUS_op_abort (n : Nat) : Fld := ⟨Reg.TILE_EVT_STATUS n, 2, 1⟩
abbrev Fld.TILE_EVT_CNT_CORR_count (n : Nat) : Fld := ⟨Reg.TILE_EVT_CNT_CORR n, 0, 16⟩
abbrev Fld.TILE_EVT_CNT_UNCORR_count (n : Nat) : Fld := ⟨Reg.TILE_EVT_CNT_UNCORR n, 0, 16⟩
abbrev Fld.TILE_EVT_CNT_ABORT_count (n : Nat) : Fld := ⟨Reg.TILE_EVT_CNT_ABORT n, 0, 16⟩
abbrev Fld.TILE_ECC_LAST_tile (n : Nat) : Fld := ⟨Reg.TILE_ECC_LAST n, 0, 6⟩
abbrev Fld.TILE_ECC_LAST_uncorr (n : Nat) : Fld := ⟨Reg.TILE_ECC_LAST n, 6, 1⟩
abbrev Fld.TILE_ECC_LAST_line (n : Nat) : Fld := ⟨Reg.TILE_ECC_LAST n, 8, 20⟩
abbrev Fld.TILE_OP_CNT_ops (n : Nat) : Fld := ⟨Reg.TILE_OP_CNT n, 0, 64⟩
abbrev Fld.STEM_CAP_cin_first (n : Nat) : Fld := ⟨Reg.STEM_CAP n, 0, 4⟩
abbrev Fld.STEM_CAP_kernel_first (n : Nat) : Fld := ⟨Reg.STEM_CAP n, 4, 4⟩
abbrev Fld.STEM_CAP_cout_last (n : Nat) : Fld := ⟨Reg.STEM_CAP n, 8, 5⟩
abbrev Fld.STEM_CAP_macs (n : Nat) : Fld := ⟨Reg.STEM_CAP n, 16, 12⟩
abbrev Fld.STEM_STATUS_busy (n : Nat) : Fld := ⟨Reg.STEM_STATUS n, 0, 1⟩
abbrev Fld.STEM_STATUS_ops (n : Nat) : Fld := ⟨Reg.STEM_STATUS n, 16, 16⟩
abbrev Fld.PPX_CAP_channels (n : Nat) : Fld := ⟨Reg.PPX_CAP n, 0, 13⟩
abbrev Fld.PPX_CAP_lanes (n : Nat) : Fld := ⟨Reg.PPX_CAP n, 16, 8⟩
abbrev Fld.PPX_STATUS_busy (n : Nat) : Fld := ⟨Reg.PPX_STATUS n, 0, 1⟩
abbrev Fld.PPX_STATUS_ops (n : Nat) : Fld := ⟨Reg.PPX_STATUS n, 16, 16⟩
abbrev Fld.SPEC_CAP_max_draft : Fld := ⟨Reg.SPEC_CAP, 0, 4⟩
abbrev Fld.SPEC_CAP_max_batch : Fld := ⟨Reg.SPEC_CAP, 16, 9⟩
abbrev Fld.SPEC_EVT_STATUS_handoff_err : Fld := ⟨Reg.SPEC_EVT_STATUS, 0, 1⟩
abbrev Fld.SPEC_EVT_STATUS_stale : Fld := ⟨Reg.SPEC_EVT_STATUS, 1, 1⟩
abbrev Fld.SPEC_EVT_STATUS_len_err : Fld := ⟨Reg.SPEC_EVT_STATUS, 2, 1⟩
abbrev Fld.SPEC_EVT_CNT_HANDOFF_count : Fld := ⟨Reg.SPEC_EVT_CNT_HANDOFF, 0, 16⟩
abbrev Fld.SPEC_EVT_CNT_STALE_count : Fld := ⟨Reg.SPEC_EVT_CNT_STALE, 0, 16⟩
abbrev Fld.SPEC_EVT_CNT_LEN_count : Fld := ⟨Reg.SPEC_EVT_CNT_LEN, 0, 16⟩
abbrev Fld.SPEC_HANDOFF_LAST_seq_id : Fld := ⟨Reg.SPEC_HANDOFF_LAST, 0, 12⟩
abbrev Fld.SPEC_HANDOFF_LAST_code : Fld := ⟨Reg.SPEC_HANDOFF_LAST, 16, 16⟩
abbrev Fld.SPEC_ROUNDS_count : Fld := ⟨Reg.SPEC_ROUNDS, 0, 64⟩
abbrev Fld.SPEC_PROPOSED_count : Fld := ⟨Reg.SPEC_PROPOSED, 0, 64⟩
abbrev Fld.SPEC_ACCEPTED_count : Fld := ⟨Reg.SPEC_ACCEPTED, 0, 64⟩
abbrev Fld.KV_CAP_seqs : Fld := ⟨Reg.KV_CAP, 0, 13⟩
abbrev Fld.KV_CAP_max_tent : Fld := ⟨Reg.KV_CAP, 16, 4⟩
abbrev Fld.KV_POOL_BASE_addr : Fld := ⟨Reg.KV_POOL_BASE, 16, 48⟩
abbrev Fld.KV_POOL_PAGES_pages : Fld := ⟨Reg.KV_POOL_PAGES, 0, 21⟩
abbrev Fld.KV_POOL_FREE_pages : Fld := ⟨Reg.KV_POOL_FREE, 0, 21⟩
abbrev Fld.KV_CMD_start : Fld := ⟨Reg.KV_CMD, 0, 1⟩
abbrev Fld.KV_CMD_op : Fld := ⟨Reg.KV_CMD, 1, 3⟩
abbrev Fld.KV_CMD_seq_id : Fld := ⟨Reg.KV_CMD, 4, 12⟩
abbrev Fld.KV_CMD_ARG_0_owner : Fld := ⟨Reg.KV_CMD_ARG_0, 0, 6⟩
abbrev Fld.KV_CMD_ARG_0_holder : Fld := ⟨Reg.KV_CMD_ARG_0, 8, 6⟩
abbrev Fld.KV_CMD_ARG_0_geom : Fld := ⟨Reg.KV_CMD_ARG_0, 16, 8⟩
abbrev Fld.KV_CMD_ARG_0_layers : Fld := ⟨Reg.KV_CMD_ARG_0, 24, 8⟩
abbrev Fld.KV_CMD_ARG_1_value : Fld := ⟨Reg.KV_CMD_ARG_1, 0, 32⟩
abbrev Fld.KV_CMD_STATUS_busy : Fld := ⟨Reg.KV_CMD_STATUS, 0, 1⟩
abbrev Fld.KV_CMD_STATUS_code : Fld := ⟨Reg.KV_CMD_STATUS, 16, 16⟩
abbrev Fld.KV_CMD_DATA_bytes (k : Nat) : Fld := ⟨Reg.KV_CMD_DATA k, 0, 32⟩
abbrev Fld.KV_EVT_STATUS_refused : Fld := ⟨Reg.KV_EVT_STATUS, 0, 1⟩
abbrev Fld.KV_EVT_STATUS_pool_empty : Fld := ⟨Reg.KV_EVT_STATUS, 1, 1⟩
abbrev Fld.KV_EVT_STATUS_cmd_reject : Fld := ⟨Reg.KV_EVT_STATUS, 2, 1⟩
abbrev Fld.KV_EVT_STATUS_rollback : Fld := ⟨Reg.KV_EVT_STATUS, 3, 1⟩
abbrev Fld.KV_EVT_CNT_REFUSED_count : Fld := ⟨Reg.KV_EVT_CNT_REFUSED, 0, 16⟩
abbrev Fld.KV_EVT_CNT_POOL_count : Fld := ⟨Reg.KV_EVT_CNT_POOL, 0, 16⟩
abbrev Fld.KV_EVT_CNT_REJECT_count : Fld := ⟨Reg.KV_EVT_CNT_REJECT, 0, 16⟩
abbrev Fld.KV_EVT_CNT_ROLLBACK_count : Fld := ⟨Reg.KV_EVT_CNT_ROLLBACK, 0, 16⟩
abbrev Fld.KV_REFUSE_LAST_seq_id : Fld := ⟨Reg.KV_REFUSE_LAST, 0, 12⟩
abbrev Fld.KV_REFUSE_LAST_code : Fld := ⟨Reg.KV_REFUSE_LAST, 16, 16⟩
abbrev Fld.KV_TOKENS_APPENDED_count : Fld := ⟨Reg.KV_TOKENS_APPENDED, 0, 64⟩
abbrev Fld.KV_PAGES_RECLAIMED_count : Fld := ⟨Reg.KV_PAGES_RECLAIMED, 0, 64⟩
abbrev Fld.SEQ_CAP_engines (n : Nat) : Fld := ⟨Reg.SEQ_CAP n, 0, 3⟩
abbrev Fld.SEQ_CAP_slots (n : Nat) : Fld := ⟨Reg.SEQ_CAP n, 4, 7⟩
abbrev Fld.SEQ_CAP_lanes (n : Nat) : Fld := ⟨Reg.SEQ_CAP n, 16, 8⟩
abbrev Fld.SEQ_CMD_start (n : Nat) : Fld := ⟨Reg.SEQ_CMD n, 0, 1⟩
abbrev Fld.SEQ_CMD_op (n : Nat) : Fld := ⟨Reg.SEQ_CMD n, 1, 3⟩
abbrev Fld.SEQ_CMD_engine (n : Nat) : Fld := ⟨Reg.SEQ_CMD n, 4, 2⟩
abbrev Fld.SEQ_CMD_slot (n : Nat) : Fld := ⟨Reg.SEQ_CMD n, 8, 6⟩
abbrev Fld.SEQ_CMD_class (n : Nat) : Fld := ⟨Reg.SEQ_CMD n, 16, 3⟩
abbrev Fld.SEQ_CMD_VA_va (n : Nat) : Fld := ⟨Reg.SEQ_CMD_VA n, 6, 58⟩
abbrev Fld.SEQ_CMD_SRAM_addr (n : Nat) : Fld := ⟨Reg.SEQ_CMD_SRAM n, 6, 26⟩
abbrev Fld.SEQ_CMD_STATUS_busy (n : Nat) : Fld := ⟨Reg.SEQ_CMD_STATUS n, 0, 1⟩
abbrev Fld.SEQ_CMD_STATUS_code (n : Nat) : Fld := ⟨Reg.SEQ_CMD_STATUS n, 16, 16⟩
abbrev Fld.SEQ_CMD_TAG_tag (n : Nat) : Fld := ⟨Reg.SEQ_CMD_TAG n, 0, 16⟩
abbrev Fld.SEQ_EVT_STATUS_moved (n : Nat) : Fld := ⟨Reg.SEQ_EVT_STATUS n, 0, 1⟩
abbrev Fld.SEQ_EVT_STATUS_step_up (n : Nat) : Fld := ⟨Reg.SEQ_EVT_STATUS n, 1, 1⟩
abbrev Fld.SEQ_EVT_STATUS_restore_fail (n : Nat) : Fld := ⟨Reg.SEQ_EVT_STATUS n, 2, 1⟩
abbrev Fld.SEQ_EVT_STATUS_cmd_reject (n : Nat) : Fld := ⟨Reg.SEQ_EVT_STATUS n, 3, 1⟩
abbrev Fld.SEQ_EVT_CNT_MOVED_count (n : Nat) : Fld := ⟨Reg.SEQ_EVT_CNT_MOVED n, 0, 16⟩
abbrev Fld.SEQ_EVT_CNT_STEPUP_count (n : Nat) : Fld := ⟨Reg.SEQ_EVT_CNT_STEPUP n, 0, 16⟩
abbrev Fld.SEQ_EVT_CNT_RESTORE_count (n : Nat) : Fld := ⟨Reg.SEQ_EVT_CNT_RESTORE n, 0, 16⟩
abbrev Fld.SEQ_EVT_CNT_REJECT_count (n : Nat) : Fld := ⟨Reg.SEQ_EVT_CNT_REJECT n, 0, 16⟩
abbrev Fld.SEQ_STEPS_count (n : Nat) : Fld := ⟨Reg.SEQ_STEPS n, 0, 64⟩
abbrev Fld.SEQ_SLOT_state (n k : Nat) : Fld := ⟨Reg.SEQ_SLOT n k, 0, 2⟩
abbrev Fld.SEQ_SLOT_running (n k : Nat) : Fld := ⟨Reg.SEQ_SLOT n k, 2, 1⟩
abbrev Fld.SEQ_SLOT_tag (n k : Nat) : Fld := ⟨Reg.SEQ_SLOT n k, 16, 16⟩
abbrev Fld.TIER_CMD_start : Fld := ⟨Reg.TIER_CMD, 0, 1⟩
abbrev Fld.TIER_CMD_op : Fld := ⟨Reg.TIER_CMD, 1, 3⟩
abbrev Fld.TIER_CMD_ctx_id : Fld := ⟨Reg.TIER_CMD, 4, 6⟩
abbrev Fld.TIER_CMD_die : Fld := ⟨Reg.TIER_CMD, 10, 3⟩
abbrev Fld.TIER_CMD_page : Fld := ⟨Reg.TIER_CMD, 13, 2⟩
abbrev Fld.TIER_CMD_flags : Fld := ⟨Reg.TIER_CMD, 15, 6⟩
abbrev Fld.TIER_CMD_VA_value : Fld := ⟨Reg.TIER_CMD_VA, 0, 64⟩
abbrev Fld.TIER_CMD_LEN_value : Fld := ⟨Reg.TIER_CMD_LEN, 0, 64⟩
abbrev Fld.TIER_CMD_VA2_value : Fld := ⟨Reg.TIER_CMD_VA2, 0, 64⟩
abbrev Fld.TIER_CMD_AUX_value : Fld := ⟨Reg.TIER_CMD_AUX, 0, 32⟩
abbrev Fld.TIER_CMD_STATUS_busy : Fld := ⟨Reg.TIER_CMD_STATUS, 0, 1⟩
abbrev Fld.TIER_CMD_STATUS_code : Fld := ⟨Reg.TIER_CMD_STATUS, 16, 16⟩
abbrev Fld.TIER_EVT_STATUS_miss : Fld := ⟨Reg.TIER_EVT_STATUS, 0, 1⟩
abbrev Fld.TIER_EVT_STATUS_lower_err : Fld := ⟨Reg.TIER_EVT_STATUS, 1, 1⟩
abbrev Fld.TIER_EVT_STATUS_path_skip : Fld := ⟨Reg.TIER_EVT_STATUS, 2, 1⟩
abbrev Fld.TIER_EVT_STATUS_path_resident : Fld := ⟨Reg.TIER_EVT_STATUS, 3, 1⟩
abbrev Fld.TIER_EVT_STATUS_path_wait : Fld := ⟨Reg.TIER_EVT_STATUS, 4, 1⟩
abbrev Fld.TIER_EVT_STATUS_cancel : Fld := ⟨Reg.TIER_EVT_STATUS, 5, 1⟩
abbrev Fld.TIER_EVT_STATUS_cmd_reject : Fld := ⟨Reg.TIER_EVT_STATUS, 6, 1⟩
abbrev Fld.TIER_EVT_CNT_count (k : Nat) : Fld := ⟨Reg.TIER_EVT_CNT k, 0, 16⟩
abbrev Fld.TIER_PATH_LAST_ctx_id : Fld := ⟨Reg.TIER_PATH_LAST, 0, 6⟩
abbrev Fld.TIER_PATH_LAST_kind : Fld := ⟨Reg.TIER_PATH_LAST, 6, 2⟩
abbrev Fld.TIER_PATH_LAST_layer : Fld := ⟨Reg.TIER_PATH_LAST, 16, 16⟩
abbrev Fld.TIER_PATH_PROG_ctx_id : Fld := ⟨Reg.TIER_PATH_PROG, 0, 6⟩
abbrev Fld.TIER_PATH_PROG_kind : Fld := ⟨Reg.TIER_PATH_PROG, 6, 2⟩
abbrev Fld.TIER_PATH_PROG_layer : Fld := ⟨Reg.TIER_PATH_PROG, 16, 16⟩
abbrev Fld.TIER_HBM_FREE_units : Fld := ⟨Reg.TIER_HBM_FREE, 0, 21⟩
abbrev Fld.XLT_EVT_STATUS_unmapped (n : Nat) : Fld := ⟨Reg.XLT_EVT_STATUS n, 0, 1⟩
abbrev Fld.XLT_EVT_STATUS_write (n : Nat) : Fld := ⟨Reg.XLT_EVT_STATUS n, 1, 1⟩
abbrev Fld.XLT_EVT_STATUS_range (n : Nat) : Fld := ⟨Reg.XLT_EVT_STATUS n, 2, 1⟩
abbrev Fld.XLT_EVT_STATUS_lock_full (n : Nat) : Fld := ⟨Reg.XLT_EVT_STATUS n, 3, 1⟩
abbrev Fld.XLT_EVT_CNT_count (n k : Nat) : Fld := ⟨Reg.XLT_EVT_CNT n k, 0, 16⟩
abbrev Fld.XLT_FAULT_LAST_ctx_id (n : Nat) : Fld := ⟨Reg.XLT_FAULT_LAST n, 0, 6⟩
abbrev Fld.XLT_FAULT_LAST_code (n : Nat) : Fld := ⟨Reg.XLT_FAULT_LAST n, 16, 16⟩
abbrev Fld.XLT_FAULT_VA_va (n : Nat) : Fld := ⟨Reg.XLT_FAULT_VA n, 0, 64⟩
abbrev Fld.XLT_TLB_locked (n : Nat) : Fld := ⟨Reg.XLT_TLB n, 0, 10⟩
abbrev Fld.XLT_TLB_lock_max (n : Nat) : Fld := ⟨Reg.XLT_TLB n, 16, 10⟩
abbrev Fld.FTL_STATUS_mode : Fld := ⟨Reg.FTL_STATUS, 0, 2⟩
abbrev Fld.FTL_STATUS_ro_reason : Fld := ⟨Reg.FTL_STATUS, 2, 2⟩
abbrev Fld.FTL_STATUS_life : Fld := ⟨Reg.FTL_STATUS, 8, 7⟩
abbrev Fld.FTL_RD_THRESH_reads : Fld := ⟨Reg.FTL_RD_THRESH, 0, 24⟩
abbrev Fld.FTL_EVT_STATUS_uncorr : Fld := ⟨Reg.FTL_EVT_STATUS, 0, 1⟩
abbrev Fld.FTL_EVT_STATUS_relocate : Fld := ⟨Reg.FTL_EVT_STATUS, 1, 1⟩
abbrev Fld.FTL_EVT_STATUS_retire : Fld := ⟨Reg.FTL_EVT_STATUS, 2, 1⟩
abbrev Fld.FTL_EVT_STATUS_remount : Fld := ⟨Reg.FTL_EVT_STATUS, 3, 1⟩
abbrev Fld.FTL_EVT_CNT_count (k : Nat) : Fld := ⟨Reg.FTL_EVT_CNT k, 0, 16⟩
abbrev Fld.FTL_CORR_CNT_count : Fld := ⟨Reg.FTL_CORR_CNT, 0, 64⟩
abbrev Fld.FTL_UNITS_WRITTEN_count : Fld := ⟨Reg.FTL_UNITS_WRITTEN, 0, 64⟩
abbrev Fld.TCL_EVT_STATUS_c0_over (n : Nat) : Fld := ⟨Reg.TCL_EVT_STATUS n, 0, 1⟩
abbrev Fld.TCL_EVT_STATUS_dl_miss (n : Nat) : Fld := ⟨Reg.TCL_EVT_STATUS n, 1, 1⟩
abbrev Fld.TCL_EVT_STATUS_c0_target (n : Nat) : Fld := ⟨Reg.TCL_EVT_STATUS n, 2, 1⟩
abbrev Fld.TCL_EVT_CNT_count (n k : Nat) : Fld := ⟨Reg.TCL_EVT_CNT n k, 0, 16⟩
abbrev Fld.TCL_C0_LAST_ctx_id (n : Nat) : Fld := ⟨Reg.TCL_C0_LAST n, 0, 6⟩
abbrev Fld.TCL_C0_LAST_resource (n : Nat) : Fld := ⟨Reg.TCL_C0_LAST n, 8, 4⟩
abbrev Fld.TCL_C0_LAST_kind (n : Nat) : Fld := ⟨Reg.TCL_C0_LAST n, 12, 1⟩
abbrev Fld.TCL_CTRL_lat_clr (n : Nat) : Fld := ⟨Reg.TCL_CTRL n, 0, 1⟩
abbrev Fld.TCL_HRAM_cut : Fld := ⟨Reg.TCL_HRAM, 0, 1⟩
abbrev Fld.TCL_HRAM_burst_max : Fld := ⟨Reg.TCL_HRAM, 4, 13⟩
abbrev Fld.TCL_C0_LAT_MAX_ns (n k : Nat) : Fld := ⟨Reg.TCL_C0_LAT_MAX n k, 0, 24⟩
abbrev Fld.MON_SNAP_TIME_t (n : Nat) : Fld := ⟨Reg.MON_SNAP_TIME n, 0, 64⟩
abbrev Fld.MON_SNAP_STATUS_armed (n : Nat) : Fld := ⟨Reg.MON_SNAP_STATUS n, 0, 1⟩
abbrev Fld.MON_SNAP_STATUS_taken (n : Nat) : Fld := ⟨Reg.MON_SNAP_STATUS n, 1, 1⟩
abbrev Fld.MON_SNAP_STATUS_missed (n : Nat) : Fld := ⟨Reg.MON_SNAP_STATUS n, 2, 1⟩
abbrev Fld.MON_SNAP_STATUS_seq (n : Nat) : Fld := ⟨Reg.MON_SNAP_STATUS n, 16, 16⟩
abbrev Fld.MON_SNAP_CNT_TAKEN_count (n : Nat) : Fld := ⟨Reg.MON_SNAP_CNT_TAKEN n, 0, 16⟩
abbrev Fld.MON_SNAP_CNT_MISSED_count (n : Nat) : Fld := ⟨Reg.MON_SNAP_CNT_MISSED n, 0, 16⟩
abbrev Fld.MON_SNAP_AT_t (n : Nat) : Fld := ⟨Reg.MON_SNAP_AT n, 0, 64⟩
abbrev Fld.MON_BYTES_bytes (n i j : Nat) : Fld := ⟨Reg.MON_BYTES n i j, 0, 64⟩
abbrev Fld.MON_BYTES_SHADOW_bytes (n i j : Nat) : Fld := ⟨Reg.MON_BYTES_SHADOW n i j, 0, 64⟩
abbrev Fld.MON_LATE_count (n i j : Nat) : Fld := ⟨Reg.MON_LATE n i j, 0, 32⟩
abbrev Fld.MON_LATE_SHADOW_count (n i j : Nat) : Fld := ⟨Reg.MON_LATE_SHADOW n i j, 0, 32⟩
abbrev Fld.TIME_NOW_ns : Fld := ⟨Reg.TIME_NOW, 0, 64⟩
abbrev Fld.TIME_CTRL_step : Fld := ⟨Reg.TIME_CTRL, 0, 1⟩
abbrev Fld.TIME_CTRL_pps_in_en : Fld := ⟨Reg.TIME_CTRL, 1, 1⟩
abbrev Fld.TIME_CTRL_pps_out_en : Fld := ⟨Reg.TIME_CTRL, 2, 1⟩
abbrev Fld.TIME_CTRL_pps_gate : Fld := ⟨Reg.TIME_CTRL, 3, 1⟩
abbrev Fld.TIME_RATE_adj : Fld := ⟨Reg.TIME_RATE, 0, 32⟩
abbrev Fld.TIME_STEP_ns : Fld := ⟨Reg.TIME_STEP, 0, 64⟩
abbrev Fld.TIME_STATUS_servo : Fld := ⟨Reg.TIME_STATUS, 0, 2⟩
abbrev Fld.TIME_STATUS_domain : Fld := ⟨Reg.TIME_STATUS, 4, 7⟩
abbrev Fld.TIME_STATUS_pps_in_seq : Fld := ⟨Reg.TIME_STATUS, 16, 16⟩
abbrev Fld.TIME_EVT_STATUS_step_done : Fld := ⟨Reg.TIME_EVT_STATUS, 0, 1⟩
abbrev Fld.TIME_EVT_STATUS_step_reject : Fld := ⟨Reg.TIME_EVT_STATUS, 1, 1⟩
abbrev Fld.TIME_EVT_STATUS_rate_clamp : Fld := ⟨Reg.TIME_EVT_STATUS, 2, 1⟩
abbrev Fld.TIME_EVT_STATUS_fifo_ovf : Fld := ⟨Reg.TIME_EVT_STATUS, 3, 1⟩
abbrev Fld.TIME_EVT_STATUS_insert_err : Fld := ⟨Reg.TIME_EVT_STATUS, 4, 1⟩
abbrev Fld.TIME_EVT_STATUS_pps_in : Fld := ⟨Reg.TIME_EVT_STATUS, 5, 1⟩
abbrev Fld.TIME_EVT_STATUS_pps_in_glitch : Fld := ⟨Reg.TIME_EVT_STATUS, 6, 1⟩
abbrev Fld.TIME_EVT_CNT_count (k : Nat) : Fld := ⟨Reg.TIME_EVT_CNT k, 0, 16⟩
abbrev Fld.TIME_PPS_OUT_OFS_ns : Fld := ⟨Reg.TIME_PPS_OUT_OFS, 0, 30⟩
abbrev Fld.TIME_PPS_OUT_WIDTH_ms : Fld := ⟨Reg.TIME_PPS_OUT_WIDTH, 0, 30⟩
abbrev Fld.TIME_PPS_IN_ns : Fld := ⟨Reg.TIME_PPS_IN, 0, 64⟩
abbrev Fld.TIME_PORT_CTRL_ptp_en (k : Nat) : Fld := ⟨Reg.TIME_PORT_CTRL k, 0, 1⟩
abbrev Fld.TIME_PORT_CTRL_one_step (k : Nat) : Fld := ⟨Reg.TIME_PORT_CTRL k, 1, 1⟩
abbrev Fld.TIME_PORT_ING_PS_ps (k : Nat) : Fld := ⟨Reg.TIME_PORT_ING_PS k, 0, 24⟩
abbrev Fld.TIME_PORT_EGR_PS_ps (k : Nat) : Fld := ⟨Reg.TIME_PORT_EGR_PS k, 0, 24⟩
abbrev Fld.TIME_PORT_ASYM_PS_ps (k : Nat) : Fld := ⟨Reg.TIME_PORT_ASYM_PS k, 0, 32⟩
abbrev Fld.TIME_PORT_FIFO_HDR_valid (k : Nat) : Fld := ⟨Reg.TIME_PORT_FIFO_HDR k, 0, 1⟩
abbrev Fld.TIME_PORT_FIFO_HDR_egress (k : Nat) : Fld := ⟨Reg.TIME_PORT_FIFO_HDR k, 1, 1⟩
abbrev Fld.TIME_PORT_FIFO_HDR_msg_type (k : Nat) : Fld := ⟨Reg.TIME_PORT_FIFO_HDR k, 2, 4⟩
abbrev Fld.TIME_PORT_FIFO_HDR_seq_id (k : Nat) : Fld := ⟨Reg.TIME_PORT_FIFO_HDR k, 16, 16⟩
abbrev Fld.TIME_PORT_FIFO_FRAC_frac (k : Nat) : Fld := ⟨Reg.TIME_PORT_FIFO_FRAC k, 0, 16⟩
abbrev Fld.TIME_PORT_FIFO_NS_ns (k : Nat) : Fld := ⟨Reg.TIME_PORT_FIFO_NS k, 0, 64⟩
abbrev Fld.TIME_CSI_OFS_ns (i j : Nat) : Fld := ⟨Reg.TIME_CSI_OFS i j, 0, 32⟩
abbrev Fld.ETH_CTRL_mode (k : Nat) : Fld := ⟨Reg.ETH_CTRL k, 0, 2⟩
abbrev Fld.ETH_CTRL_speed (k : Nat) : Fld := ⟨Reg.ETH_CTRL k, 2, 2⟩
abbrev Fld.ETH_CTRL_phy_master (k : Nat) : Fld := ⟨Reg.ETH_CTRL k, 4, 1⟩
abbrev Fld.ETH_STATUS_link_up (k : Nat) : Fld := ⟨Reg.ETH_STATUS k, 0, 1⟩
abbrev Fld.ETH_STATUS_speed (k : Nat) : Fld := ⟨Reg.ETH_STATUS k, 1, 2⟩
abbrev Fld.ETH_STATUS_pair_fault (k : Nat) : Fld := ⟨Reg.ETH_STATUS k, 3, 1⟩
abbrev Fld.ETH_MAC_mac : Fld := ⟨Reg.ETH_MAC, 0, 48⟩
abbrev Fld.JBUS_CFG_ethertype : Fld := ⟨Reg.JBUS_CFG, 0, 16⟩
abbrev Fld.JBUS_EVT_STATUS_crc_err : Fld := ⟨Reg.JBUS_EVT_STATUS, 0, 1⟩
abbrev Fld.JBUS_EVT_STATUS_dup_old : Fld := ⟨Reg.JBUS_EVT_STATUS, 1, 1⟩
abbrev Fld.JBUS_EVT_STATUS_gap : Fld := ⟨Reg.JBUS_EVT_STATUS, 2, 1⟩
abbrev Fld.JBUS_EVT_STATUS_stale : Fld := ⟨Reg.JBUS_EVT_STATUS, 3, 1⟩
abbrev Fld.JBUS_EVT_STATUS_miss : Fld := ⟨Reg.JBUS_EVT_STATUS, 4, 1⟩
abbrev Fld.JBUS_EVT_STATUS_stream_fault : Fld := ⟨Reg.JBUS_EVT_STATUS, 5, 1⟩
abbrev Fld.JBUS_EVT_STATUS_link_down : Fld := ⟨Reg.JBUS_EVT_STATUS, 6, 1⟩
abbrev Fld.JBUS_EVT_STATUS_cmd_late : Fld := ⟨Reg.JBUS_EVT_STATUS, 7, 1⟩
abbrev Fld.JBUS_EVT_STATUS_unknown : Fld := ⟨Reg.JBUS_EVT_STATUS, 8, 1⟩
abbrev Fld.JBUS_EVT_CNT_count (k : Nat) : Fld := ⟨Reg.JBUS_EVT_CNT k, 0, 16⟩
abbrev Fld.JBUS_FAULT_LAST_stream : Fld := ⟨Reg.JBUS_FAULT_LAST, 0, 8⟩
abbrev Fld.JBUS_FAULT_LAST_port : Fld := ⟨Reg.JBUS_FAULT_LAST, 8, 4⟩
abbrev Fld.JBUS_FAULT_LAST_cause : Fld := ⟨Reg.JBUS_FAULT_LAST, 12, 4⟩
abbrev Fld.JBUS_FAULT_LAST_stream_id : Fld := ⟨Reg.JBUS_FAULT_LAST, 16, 16⟩
abbrev Fld.JBUS_CLR_stream : Fld := ⟨Reg.JBUS_CLR, 0, 8⟩
abbrev Fld.JBUS_CLR_clear : Fld := ⟨Reg.JBUS_CLR, 8, 1⟩
abbrev Fld.JBUS_STREAM_fault (k : Nat) : Fld := ⟨Reg.JBUS_STREAM k, 0, 1⟩
abbrev Fld.JBUS_STREAM_served (k : Nat) : Fld := ⟨Reg.JBUS_STREAM k, 1, 1⟩
abbrev Fld.JBUS_STREAM_misses (k : Nat) : Fld := ⟨Reg.JBUS_STREAM k, 2, 8⟩
abbrev Fld.JBUS_STREAM_counter (k : Nat) : Fld := ⟨Reg.JBUS_STREAM k, 16, 16⟩
abbrev Fld.CSI_CTRL_en (k : Nat) : Fld := ⟨Reg.CSI_CTRL k, 0, 1⟩
abbrev Fld.CSI_CTRL_lanes (k : Nat) : Fld := ⟨Reg.CSI_CTRL k, 1, 2⟩
abbrev Fld.CSI_STATUS_vc_busy (k : Nat) : Fld := ⟨Reg.CSI_STATUS k, 0, 4⟩
abbrev Fld.CSI_STATUS_frames (k : Nat) : Fld := ⟨Reg.CSI_STATUS k, 16, 16⟩
abbrev Fld.CSI_EVT_STATUS_hdr_corr : Fld := ⟨Reg.CSI_EVT_STATUS, 0, 1⟩
abbrev Fld.CSI_EVT_STATUS_crc_err : Fld := ⟨Reg.CSI_EVT_STATUS, 1, 1⟩
abbrev Fld.CSI_EVT_STATUS_truncated : Fld := ⟨Reg.CSI_EVT_STATUS, 2, 1⟩
abbrev Fld.CSI_EVT_STATUS_unmatched : Fld := ⟨Reg.CSI_EVT_STATUS, 3, 1⟩
abbrev Fld.CSI_EVT_CNT_count (k : Nat) : Fld := ⟨Reg.CSI_EVT_CNT k, 0, 16⟩
abbrev Fld.FUSN_STATUS_active : Fld := ⟨Reg.FUSN_STATUS, 0, 1⟩
abbrev Fld.FUSN_STATUS_busy : Fld := ⟨Reg.FUSN_STATUS, 1, 1⟩
abbrev Fld.FUSN_STATUS_code : Fld := ⟨Reg.FUSN_STATUS, 16, 16⟩
abbrev Fld.FUSN_SLOT_n : Fld := ⟨Reg.FUSN_SLOT, 0, 64⟩
abbrev Fld.FUSN_EVT_STATUS_late : Fld := ⟨Reg.FUSN_EVT_STATUS, 0, 1⟩
abbrev Fld.FUSN_EVT_STATUS_stale : Fld := ⟨Reg.FUSN_EVT_STATUS, 1, 1⟩
abbrev Fld.FUSN_EVT_STATUS_drop : Fld := ⟨Reg.FUSN_EVT_STATUS, 2, 1⟩
abbrev Fld.FUSN_EVT_STATUS_unpaired : Fld := ⟨Reg.FUSN_EVT_STATUS, 3, 1⟩
abbrev Fld.FUSN_EVT_STATUS_pose_miss : Fld := ⟨Reg.FUSN_EVT_STATUS, 4, 1⟩
abbrev Fld.FUSN_EVT_STATUS_grid_pose : Fld := ⟨Reg.FUSN_EVT_STATUS, 5, 1⟩
abbrev Fld.FUSN_EVT_STATUS_overrun : Fld := ⟨Reg.FUSN_EVT_STATUS, 6, 1⟩
abbrev Fld.FUSN_EVT_STATUS_dispute : Fld := ⟨Reg.FUSN_EVT_STATUS, 7, 1⟩
abbrev Fld.FUSN_EVT_STATUS_ring_fault : Fld := ⟨Reg.FUSN_EVT_STATUS, 8, 1⟩
abbrev Fld.FUSN_EVT_CNT_count (k : Nat) : Fld := ⟨Reg.FUSN_EVT_CNT k, 0, 16⟩
abbrev Fld.FUSN_LATE_count (k : Nat) : Fld := ⟨Reg.FUSN_LATE k, 0, 32⟩
abbrev Fld.FUSN_STREAM_fault (k : Nat) : Fld := ⟨Reg.FUSN_STREAM k, 0, 1⟩
abbrev Fld.FUSN_STREAM_pose_avail (k : Nat) : Fld := ⟨Reg.FUSN_STREAM k, 1, 1⟩
abbrev Fld.FUSN_STREAM_consumed (k : Nat) : Fld := ⟨Reg.FUSN_STREAM k, 16, 16⟩
abbrev Fld.MAP_STATUS_mode : Fld := ⟨Reg.MAP_STATUS, 0, 1⟩
abbrev Fld.MAP_STATUS_sdf_valid : Fld := ⟨Reg.MAP_STATUS, 1, 1⟩
abbrev Fld.MAP_STATUS_building : Fld := ⟨Reg.MAP_STATUS, 2, 1⟩
abbrev Fld.MAP_CMD_start : Fld := ⟨Reg.MAP_CMD, 0, 1⟩
abbrev Fld.MAP_CMD_op : Fld := ⟨Reg.MAP_CMD, 1, 4⟩
abbrev Fld.MAP_CMD_slot : Fld := ⟨Reg.MAP_CMD, 5, 10⟩
abbrev Fld.MAP_CMD_ARG_count : Fld := ⟨Reg.MAP_CMD_ARG, 0, 17⟩
abbrev Fld.MAP_CMD_ARG_src : Fld := ⟨Reg.MAP_CMD_ARG, 20, 2⟩
abbrev Fld.MAP_CMD_ARG_slot : Fld := ⟨Reg.MAP_CMD_ARG, 22, 10⟩
abbrev Fld.MAP_CMD_VA_va : Fld := ⟨Reg.MAP_CMD_VA, 6, 58⟩
abbrev Fld.MAP_CMD_STATUS_busy : Fld := ⟨Reg.MAP_CMD_STATUS, 0, 1⟩
abbrev Fld.MAP_CMD_STATUS_code : Fld := ⟨Reg.MAP_CMD_STATUS, 16, 16⟩
abbrev Fld.MAP_EVT_STATUS_nodes_full : Fld := ⟨Reg.MAP_EVT_STATUS, 0, 1⟩
abbrev Fld.MAP_EVT_STATUS_outside : Fld := ⟨Reg.MAP_EVT_STATUS, 1, 1⟩
abbrev Fld.MAP_EVT_STATUS_delta_lost : Fld := ⟨Reg.MAP_EVT_STATUS, 2, 1⟩
abbrev Fld.MAP_EVT_STATUS_mode_change : Fld := ⟨Reg.MAP_EVT_STATUS, 3, 1⟩
abbrev Fld.MAP_EVT_STATUS_sdf_built : Fld := ⟨Reg.MAP_EVT_STATUS, 4, 1⟩
abbrev Fld.MAP_EVT_STATUS_cmd_reject : Fld := ⟨Reg.MAP_EVT_STATUS, 5, 1⟩
abbrev Fld.MAP_EVT_CNT_count (k : Nat) : Fld := ⟨Reg.MAP_EVT_CNT k, 0, 16⟩
abbrev Fld.MAP_NODES_free : Fld := ⟨Reg.MAP_NODES, 0, 24⟩
abbrev Fld.MAP_PINS_used : Fld := ⟨Reg.MAP_PINS, 0, 9⟩
abbrev Fld.MAP_DELTA_HEAD_count : Fld := ⟨Reg.MAP_DELTA_HEAD, 0, 64⟩
abbrev Fld.MAP_EPOCH_epoch (k : Nat) : Fld := ⟨Reg.MAP_EPOCH k, 0, 64⟩
abbrev Fld.PLAN_CAP_engines : Fld := ⟨Reg.PLAN_CAP, 0, 8⟩
abbrev Fld.PLAN_CAP_candidates : Fld := ⟨Reg.PLAN_CAP, 8, 13⟩
abbrev Fld.PLAN_CAP_MODEL_joints : Fld := ⟨Reg.PLAN_CAP_MODEL, 0, 6⟩
abbrev Fld.PLAN_CAP_MODEL_capsules : Fld := ⟨Reg.PLAN_CAP_MODEL, 8, 7⟩
abbrev Fld.PLAN_CAP_MODEL_chain : Fld := ⟨Reg.PLAN_CAP_MODEL, 16, 4⟩
abbrev Fld.PLAN_STATUS_busy : Fld := ⟨Reg.PLAN_STATUS, 0, 1⟩
abbrev Fld.PLAN_STATUS_mode : Fld := ⟨Reg.PLAN_STATUS, 1, 1⟩
abbrev Fld.PLAN_STATUS_code : Fld := ⟨Reg.PLAN_STATUS, 16, 16⟩
abbrev Fld.PLAN_BATCHES_count : Fld := ⟨Reg.PLAN_BATCHES, 0, 64⟩
abbrev Fld.PLAN_EVT_STATUS_no_plan : Fld := ⟨Reg.PLAN_EVT_STATUS, 0, 1⟩
abbrev Fld.PLAN_EVT_STATUS_recheck_fail : Fld := ⟨Reg.PLAN_EVT_STATUS, 1, 1⟩
abbrev Fld.PLAN_EVT_STATUS_ts_fail : Fld := ⟨Reg.PLAN_EVT_STATUS, 2, 1⟩
abbrev Fld.PLAN_EVT_STATUS_cand_invalid : Fld := ⟨Reg.PLAN_EVT_STATUS, 3, 1⟩
abbrev Fld.PLAN_EVT_STATUS_delta_lost : Fld := ⟨Reg.PLAN_EVT_STATUS, 4, 1⟩
abbrev Fld.PLAN_EVT_STATUS_abandoned : Fld := ⟨Reg.PLAN_EVT_STATUS, 5, 1⟩
abbrev Fld.PLAN_EVT_CNT_count (k : Nat) : Fld := ⟨Reg.PLAN_EVT_CNT k, 0, 16⟩
abbrev Fld.PLAN_LAST_candidate : Fld := ⟨Reg.PLAN_LAST, 0, 12⟩
abbrev Fld.PLAN_LAST_rank : Fld := ⟨Reg.PLAN_LAST, 12, 3⟩
abbrev Fld.PLAN_LAST_kind : Fld := ⟨Reg.PLAN_LAST, 15, 1⟩
abbrev Fld.PLAN_LAST_lambda : Fld := ⟨Reg.PLAN_LAST, 16, 9⟩
abbrev Fld.PLAN_LAST_TESTS_count : Fld := ⟨Reg.PLAN_LAST_TESTS, 0, 64⟩
abbrev Fld.PLAN_LAST_QUERIES_count : Fld := ⟨Reg.PLAN_LAST_QUERIES, 0, 64⟩
abbrev Fld.PLAN_LAST_CYCLES_cycles : Fld := ⟨Reg.PLAN_LAST_CYCLES, 0, 32⟩
abbrev Fld.SOLV_CAP_rows : Fld := ⟨Reg.SOLV_CAP, 0, 13⟩
abbrev Fld.SOLV_CAP_blocks : Fld := ⟨Reg.SOLV_CAP, 16, 15⟩
abbrev Fld.SOLV_STATUS_busy : Fld := ⟨Reg.SOLV_STATUS, 0, 1⟩
abbrev Fld.SOLV_STATUS_factorising : Fld := ⟨Reg.SOLV_STATUS, 1, 1⟩
abbrev Fld.SOLV_STATUS_setup : Fld := ⟨Reg.SOLV_STATUS, 2, 4⟩
abbrev Fld.SOLV_EVT_STATUS_range : Fld := ⟨Reg.SOLV_EVT_STATUS, 0, 1⟩
abbrev Fld.SOLV_EVT_STATUS_pivot_floor : Fld := ⟨Reg.SOLV_EVT_STATUS, 1, 1⟩
abbrev Fld.SOLV_EVT_STATUS_degraded : Fld := ⟨Reg.SOLV_EVT_STATUS, 2, 1⟩
abbrev Fld.SOLV_EVT_STATUS_fact_late : Fld := ⟨Reg.SOLV_EVT_STATUS, 3, 1⟩
abbrev Fld.SOLV_EVT_STATUS_deadline : Fld := ⟨Reg.SOLV_EVT_STATUS, 4, 1⟩
abbrev Fld.SOLV_EVT_STATUS_breakdown : Fld := ⟨Reg.SOLV_EVT_STATUS, 5, 1⟩
abbrev Fld.SOLV_EVT_STATUS_fallback : Fld := ⟨Reg.SOLV_EVT_STATUS, 6, 1⟩
abbrev Fld.SOLV_EVT_STATUS_matrix_invalid : Fld := ⟨Reg.SOLV_EVT_STATUS, 7, 1⟩
abbrev Fld.SOLV_EVT_CNT_count (k : Nat) : Fld := ⟨Reg.SOLV_EVT_CNT k, 0, 16⟩
abbrev Fld.SOLV_LAST_iterations : Fld := ⟨Reg.SOLV_LAST, 0, 11⟩
abbrev Fld.SOLV_LAST_setup : Fld := ⟨Reg.SOLV_LAST, 12, 4⟩
abbrev Fld.SOLV_LAST_code : Fld := ⟨Reg.SOLV_LAST, 16, 16⟩
abbrev Fld.SOLV_SETUP_present (k : Nat) : Fld := ⟨Reg.SOLV_SETUP k, 0, 1⟩
abbrev Fld.SOLV_SETUP_front_valid (k : Nat) : Fld := ⟨Reg.SOLV_SETUP k, 1, 1⟩
abbrev Fld.SOLV_SETUP_degraded (k : Nat) : Fld := ⟨Reg.SOLV_SETUP k, 2, 1⟩
abbrev Fld.SOLV_SETUP_prev_valid (k : Nat) : Fld := ⟨Reg.SOLV_SETUP k, 3, 1⟩
abbrev Fld.SOLV_SETUP_invocations (k : Nat) : Fld := ⟨Reg.SOLV_SETUP k, 16, 16⟩
abbrev Fld.LOOP_CAP_engines : Fld := ⟨Reg.LOOP_CAP, 0, 3⟩
abbrev Fld.LOOP_CAP_slots : Fld := ⟨Reg.LOOP_CAP, 4, 8⟩
abbrev Fld.LOOP_CAP_biquads : Fld := ⟨Reg.LOOP_CAP, 12, 3⟩
abbrev Fld.LOOP_STATUS_busy : Fld := ⟨Reg.LOOP_STATUS, 0, 4⟩
abbrev Fld.LOOP_STATUS_configured : Fld := ⟨Reg.LOOP_STATUS, 4, 4⟩
abbrev Fld.LOOP_EVT_STATUS_fe_fault : Fld := ⟨Reg.LOOP_EVT_STATUS, 0, 1⟩
abbrev Fld.LOOP_EVT_STATUS_fb_fault : Fld := ⟨Reg.LOOP_EVT_STATUS, 1, 1⟩
abbrev Fld.LOOP_EVT_STATUS_sat : Fld := ⟨Reg.LOOP_EVT_STATUS, 2, 1⟩
abbrev Fld.LOOP_EVT_STATUS_limit : Fld := ⟨Reg.LOOP_EVT_STATUS, 3, 1⟩
abbrev Fld.LOOP_EVT_STATUS_stale_in : Fld := ⟨Reg.LOOP_EVT_STATUS, 4, 1⟩
abbrev Fld.LOOP_EVT_STATUS_bump : Fld := ⟨Reg.LOOP_EVT_STATUS, 5, 1⟩
abbrev Fld.LOOP_EVT_STATUS_ctrl_err : Fld := ⟨Reg.LOOP_EVT_STATUS, 6, 1⟩
abbrev Fld.LOOP_EVT_STATUS_lockstep : Fld := ⟨Reg.LOOP_EVT_STATUS, 7, 1⟩
abbrev Fld.LOOP_EVT_STATUS_clr_reject : Fld := ⟨Reg.LOOP_EVT_STATUS, 8, 1⟩
abbrev Fld.LOOP_EVT_CNT_count (k : Nat) : Fld := ⟨Reg.LOOP_EVT_CNT k, 0, 16⟩
abbrev Fld.LOOP_FAULT_LAST_slot : Fld := ⟨Reg.LOOP_FAULT_LAST, 0, 9⟩
abbrev Fld.LOOP_FAULT_LAST_group : Fld := ⟨Reg.LOOP_FAULT_LAST, 9, 2⟩
abbrev Fld.LOOP_FAULT_LAST_code : Fld := ⟨Reg.LOOP_FAULT_LAST, 16, 16⟩
abbrev Fld.LOOP_CLR_slot : Fld := ⟨Reg.LOOP_CLR, 0, 9⟩
abbrev Fld.LOOP_CLR_clear : Fld := ⟨Reg.LOOP_CLR, 9, 1⟩
abbrev Fld.LOOP_EVALS_count : Fld := ⟨Reg.LOOP_EVALS, 0, 64⟩
abbrev Fld.LOOP_SLOT_mode (k : Nat) : Fld := ⟨Reg.LOOP_SLOT k, 0, 2⟩
abbrev Fld.LOOP_SLOT_configured (k : Nat) : Fld := ⟨Reg.LOOP_SLOT k, 2, 1⟩
abbrev Fld.LOOP_SLOT_fe_cause (k : Nat) : Fld := ⟨Reg.LOOP_SLOT k, 3, 1⟩
abbrev Fld.LOOP_SLOT_timer (k : Nat) : Fld := ⟨Reg.LOOP_SLOT k, 4, 12⟩
abbrev Fld.LOOP_SLOT_u (k : Nat) : Fld := ⟨Reg.LOOP_SLOT k, 16, 16⟩
abbrev Fld.CRUST_STATUS_run : Fld := ⟨Reg.CRUST_STATUS, 0, 1⟩
abbrev Fld.CRUST_STATUS_psf_en : Fld := ⟨Reg.CRUST_STATUS, 1, 1⟩
abbrev Fld.CRUST_STATUS_trusted : Fld := ⟨Reg.CRUST_STATUS, 2, 1⟩
abbrev Fld.CRUST_STATUS_factor : Fld := ⟨Reg.CRUST_STATUS, 16, 16⟩
abbrev Fld.CRUST_GROUP_level (k : Nat) : Fld := ⟨Reg.CRUST_GROUP k, 0, 3⟩
abbrev Fld.CRUST_GROUP_stopping (k : Nat) : Fld := ⟨Reg.CRUST_GROUP k, 3, 1⟩
abbrev Fld.CRUST_GROUP_fallback (k : Nat) : Fld := ⟨Reg.CRUST_GROUP k, 4, 1⟩
abbrev Fld.CRUST_GROUP_cause (k : Nat) : Fld := ⟨Reg.CRUST_GROUP k, 16, 8⟩
abbrev Fld.CRUST_EVT_STATUS_evt : Fld := ⟨Reg.CRUST_EVT_STATUS, 1, 22⟩
abbrev Fld.CRUST_EVT_CNT_count (k : Nat) : Fld := ⟨Reg.CRUST_EVT_CNT k, 0, 16⟩
abbrev Fld.CRUST_EVT_LAST_event : Fld := ⟨Reg.CRUST_EVT_LAST, 0, 8⟩
abbrev Fld.CRUST_EVT_LAST_groups : Fld := ⟨Reg.CRUST_EVT_LAST, 8, 4⟩
abbrev Fld.CRUST_EVT_LAST_source : Fld := ⟨Reg.CRUST_EVT_LAST, 16, 16⟩
abbrev Fld.CRUST_PSF_disagree : Fld := ⟨Reg.CRUST_PSF, 0, 8⟩
abbrev Fld.CRUST_PSF_frame : Fld := ⟨Reg.CRUST_PSF, 8, 24⟩
abbrev Fld.CRUST_CLR_groups : Fld := ⟨Reg.CRUST_CLR, 0, 4⟩
abbrev Fld.CRUST_CLR_global : Fld := ⟨Reg.CRUST_CLR, 4, 1⟩
abbrev Fld.CRUST_CLR_clear : Fld := ⟨Reg.CRUST_CLR, 8, 1⟩
abbrev Fld.CRUST_CLR_rejected : Fld := ⟨Reg.CRUST_CLR, 9, 1⟩
abbrev Fld.CRUST_NONCE_bytes (k : Nat) : Fld := ⟨Reg.CRUST_NONCE k, 0, 32⟩
abbrev Fld.CRUST_CHG_CTRL_start : Fld := ⟨Reg.CRUST_CHG_CTRL, 0, 1⟩
abbrev Fld.CRUST_CHG_CTRL_op : Fld := ⟨Reg.CRUST_CHG_CTRL, 1, 2⟩
abbrev Fld.CRUST_CHG_CTRL_party : Fld := ⟨Reg.CRUST_CHG_CTRL, 3, 1⟩
abbrev Fld.CRUST_CHG_ADDR_addr : Fld := ⟨Reg.CRUST_CHG_ADDR, 6, 58⟩
abbrev Fld.CRUST_CHG_STATUS_state : Fld := ⟨Reg.CRUST_CHG_STATUS, 0, 2⟩
abbrev Fld.CRUST_CHG_STATUS_busy : Fld := ⟨Reg.CRUST_CHG_STATUS, 2, 1⟩
abbrev Fld.CRUST_CHG_STATUS_code : Fld := ⟨Reg.CRUST_CHG_STATUS, 16, 16⟩
abbrev Fld.SIO_CFG_estop_en : Fld := ⟨Reg.SIO_CFG, 0, 1⟩
abbrev Fld.SIO_CFG_estop_type : Fld := ⟨Reg.SIO_CFG, 1, 1⟩
abbrev Fld.SIO_CFG_sto_test : Fld := ⟨Reg.SIO_CFG, 2, 1⟩
abbrev Fld.SIO_STO_CTRL_hold : Fld := ⟨Reg.SIO_STO_CTRL, 0, 4⟩
abbrev Fld.SIO_STO_CTRL_estop_reset : Fld := ⟨Reg.SIO_STO_CTRL, 8, 1⟩
abbrev Fld.SIO_STO_STATUS_asserted : Fld := ⟨Reg.SIO_STO_STATUS, 0, 4⟩
abbrev Fld.SIO_STO_STATUS_readback : Fld := ⟨Reg.SIO_STO_STATUS, 4, 8⟩
abbrev Fld.SIO_STO_STATUS_estop : Fld := ⟨Reg.SIO_STO_STATUS, 12, 2⟩
abbrev Fld.SIO_STO_STATUS_estop_latched : Fld := ⟨Reg.SIO_STO_STATUS, 14, 1⟩
abbrev Fld.SIO_STO_STATUS_discrepancy : Fld := ⟨Reg.SIO_STO_STATUS, 15, 1⟩
abbrev Fld.SIO_STO_STATUS_reset_refused : Fld := ⟨Reg.SIO_STO_STATUS, 16, 1⟩
abbrev Fld.INJ_CTRL_proof : Fld := ⟨Reg.INJ_CTRL, 0, 1⟩
abbrev Fld.INJ_PROOF_STATUS_done (n : Nat) : Fld := ⟨Reg.INJ_PROOF_STATUS n, 0, 1⟩
abbrev Fld.INJ_PROOF_STATUS_proof_fail (n : Nat) : Fld := ⟨Reg.INJ_PROOF_STATUS n, 1, 1⟩
abbrev Fld.INJ_PROOF_STATUS_first_id (n : Nat) : Fld := ⟨Reg.INJ_PROOF_STATUS n, 8, 8⟩
abbrev Fld.INJ_EVT_STATUS_proof_fail (n : Nat) : Fld := ⟨Reg.INJ_EVT_STATUS n, 0, 1⟩
abbrev Fld.INJ_EVT_STATUS_st_fail (n : Nat) : Fld := ⟨Reg.INJ_EVT_STATUS n, 1, 1⟩
abbrev Fld.INJ_EVT_STATUS_cmd_reject (n : Nat) : Fld := ⟨Reg.INJ_EVT_STATUS n, 2, 1⟩
abbrev Fld.INJ_EVT_CNT_count (n k : Nat) : Fld := ⟨Reg.INJ_EVT_CNT n k, 0, 16⟩
abbrev Fld.INJ_ST_AGE_us (k : Nat) : Fld := ⟨Reg.INJ_ST_AGE k, 0, 20⟩
abbrev Fld.BOOT_STATUS_step : Fld := ⟨Reg.BOOT_STATUS, 0, 8⟩
abbrev Fld.BOOT_STATUS_slot : Fld := ⟨Reg.BOOT_STATUS, 8, 1⟩
abbrev Fld.BOOT_STATUS_alt_slot : Fld := ⟨Reg.BOOT_STATUS, 9, 1⟩
abbrev Fld.BOOT_STATUS_state : Fld := ⟨Reg.BOOT_STATUS, 10, 2⟩
abbrev Fld.BOOT_STATUS_code : Fld := ⟨Reg.BOOT_STATUS, 16, 16⟩
abbrev Fld.BOOT_ROM_VERSION_version : Fld := ⟨Reg.BOOT_ROM_VERSION, 0, 24⟩
abbrev Fld.BOOT_DIR_preferred : Fld := ⟨Reg.BOOT_DIR, 0, 1⟩
abbrev Fld.BOOT_DIR_state_a : Fld := ⟨Reg.BOOT_DIR, 1, 2⟩
abbrev Fld.BOOT_DIR_state_b : Fld := ⟨Reg.BOOT_DIR, 3, 2⟩
abbrev Fld.BOOT_DIR_seq : Fld := ⟨Reg.BOOT_DIR, 16, 16⟩
abbrev Fld.BOOT_CTRL_log_clear : Fld := ⟨Reg.BOOT_CTRL, 0, 1⟩
abbrev Fld.BOOT_UPD_CTRL_start : Fld := ⟨Reg.BOOT_UPD_CTRL, 0, 1⟩
abbrev Fld.BOOT_UPD_CTRL_slot : Fld := ⟨Reg.BOOT_UPD_CTRL, 1, 1⟩
abbrev Fld.BOOT_UPD_ADDR_addr : Fld := ⟨Reg.BOOT_UPD_ADDR, 6, 58⟩
abbrev Fld.BOOT_UPD_STATUS_busy : Fld := ⟨Reg.BOOT_UPD_STATUS, 0, 1⟩
abbrev Fld.BOOT_UPD_STATUS_progress : Fld := ⟨Reg.BOOT_UPD_STATUS, 1, 7⟩
abbrev Fld.BOOT_UPD_STATUS_code : Fld := ⟨Reg.BOOT_UPD_STATUS, 16, 16⟩
abbrev Fld.BOOT_EVT_STATUS_upd_done : Fld := ⟨Reg.BOOT_EVT_STATUS, 0, 1⟩
abbrev Fld.BOOT_EVT_STATUS_upd_fail : Fld := ⟨Reg.BOOT_EVT_STATUS, 1, 1⟩
abbrev Fld.BOOT_EVT_STATUS_alternative : Fld := ⟨Reg.BOOT_EVT_STATUS, 2, 1⟩
abbrev Fld.BOOT_EVT_STATUS_fw_fallback : Fld := ⟨Reg.BOOT_EVT_STATUS, 3, 1⟩
abbrev Fld.BOOT_EVT_STATUS_cmd_reject : Fld := ⟨Reg.BOOT_EVT_STATUS, 4, 1⟩
abbrev Fld.BOOT_EVT_CNT_count (k : Nat) : Fld := ⟨Reg.BOOT_EVT_CNT k, 0, 16⟩
abbrev Fld.BOOT_LOG_bytes (k : Nat) : Fld := ⟨Reg.BOOT_LOG k, 0, 32⟩
abbrev Fld.KEY_SLOT_STATUS_sa : Fld := ⟨Reg.KEY_SLOT_STATUS, 0, 8⟩
abbrev Fld.KEY_SLOT_STATUS_oa : Fld := ⟨Reg.KEY_SLOT_STATUS, 8, 8⟩
abbrev Fld.KEY_FUSES_rollback : Fld := ⟨Reg.KEY_FUSES, 0, 7⟩
abbrev Fld.KEY_DEBUG_scope : Fld := ⟨Reg.KEY_DEBUG, 0, 3⟩
abbrev Fld.KEY_DEBUG_forced_hold : Fld := ⟨Reg.KEY_DEBUG, 4, 1⟩
abbrev Fld.KEY_DEBUG_remaining : Fld := ⟨Reg.KEY_DEBUG, 15, 17⟩
abbrev Fld.KEY_ID_PUB_bytes (k : Nat) : Fld := ⟨Reg.KEY_ID_PUB k, 0, 32⟩
abbrev Fld.KEY_ATT_CTRL_start : Fld := ⟨Reg.KEY_ATT_CTRL, 0, 1⟩
abbrev Fld.KEY_ATT_ADDR_addr : Fld := ⟨Reg.KEY_ATT_ADDR, 6, 58⟩
abbrev Fld.KEY_ATT_NONCE_bytes (k : Nat) : Fld := ⟨Reg.KEY_ATT_NONCE k, 0, 32⟩
abbrev Fld.KEY_ATT_STATUS_busy : Fld := ⟨Reg.KEY_ATT_STATUS, 0, 1⟩
abbrev Fld.KEY_ATT_STATUS_code : Fld := ⟨Reg.KEY_ATT_STATUS, 16, 16⟩
abbrev Fld.BKR_STATUS_running (n : Nat) : Fld := ⟨Reg.BKR_STATUS n, 0, 1⟩
abbrev Fld.BKR_STATUS_restarting (n : Nat) : Fld := ⟨Reg.BKR_STATUS n, 1, 1⟩
abbrev Fld.BKR_STATUS_restarts (n : Nat) : Fld := ⟨Reg.BKR_STATUS n, 16, 16⟩
abbrev Fld.BKR_EVT_STATUS_wdog (n : Nat) : Fld := ⟨Reg.BKR_EVT_STATUS n, 0, 1⟩
abbrev Fld.BKR_EVT_STATUS_escalated (n : Nat) : Fld := ⟨Reg.BKR_EVT_STATUS n, 1, 1⟩
abbrev Fld.BKR_EVT_CNT_0_count (n : Nat) : Fld := ⟨Reg.BKR_EVT_CNT_0 n, 0, 16⟩
abbrev Fld.BKR_EVT_CNT_1_count (n : Nat) : Fld := ⟨Reg.BKR_EVT_CNT_1 n, 0, 16⟩
abbrev Fld.RST_CAUSE_sources : Fld := ⟨Reg.RST_CAUSE, 0, 9⟩
abbrev Fld.RST_CAUSE_first : Fld := ⟨Reg.RST_CAUSE, 12, 4⟩
abbrev Fld.RST_CAUSE_wdog_die : Fld := ⟨Reg.RST_CAUSE, 16, 3⟩
abbrev Fld.RST_SW_CTRL_start : Fld := ⟨Reg.RST_SW_CTRL, 0, 1⟩
abbrev Fld.RST_SW_CTRL_scope : Fld := ⟨Reg.RST_SW_CTRL, 1, 1⟩
abbrev Fld.RST_SW_CTRL_dies : Fld := ⟨Reg.RST_SW_CTRL, 2, 3⟩
abbrev Fld.RST_BLK_CTRL_start : Fld := ⟨Reg.RST_BLK_CTRL, 0, 1⟩
abbrev Fld.RST_BLK_CTRL_mode : Fld := ⟨Reg.RST_BLK_CTRL, 1, 1⟩
abbrev Fld.RST_BLK_CTRL_die : Fld := ⟨Reg.RST_BLK_CTRL, 8, 3⟩
abbrev Fld.RST_BLK_CTRL_block : Fld := ⟨Reg.RST_BLK_CTRL, 16, 8⟩
abbrev Fld.RST_DRAIN_TIMEOUT_us : Fld := ⟨Reg.RST_DRAIN_TIMEOUT, 0, 20⟩
abbrev Fld.RST_BLK_STATUS_busy : Fld := ⟨Reg.RST_BLK_STATUS, 0, 1⟩
abbrev Fld.RST_BLK_STATUS_phase : Fld := ⟨Reg.RST_BLK_STATUS, 1, 2⟩
abbrev Fld.RST_BLK_STATUS_code : Fld := ⟨Reg.RST_BLK_STATUS, 16, 16⟩
abbrev Fld.RST_BLK_TERM_ops : Fld := ⟨Reg.RST_BLK_TERM, 0, 16⟩
abbrev Fld.RST_EVT_STATUS_blk_done : Fld := ⟨Reg.RST_EVT_STATUS, 0, 1⟩
abbrev Fld.RST_EVT_STATUS_blk_escalated : Fld := ⟨Reg.RST_EVT_STATUS, 1, 1⟩
abbrev Fld.RST_EVT_STATUS_cmd_reject : Fld := ⟨Reg.RST_EVT_STATUS, 2, 1⟩
abbrev Fld.RST_EVT_CNT_count (k : Nat) : Fld := ⟨Reg.RST_EVT_CNT k, 0, 16⟩
abbrev Fld.RST_CNT_count (k : Nat) : Fld := ⟨Reg.RST_CNT k, 0, 16⟩
abbrev Fld.BKP_SIG_sig : Fld := ⟨Reg.BKP_SIG, 0, 32⟩
abbrev Fld.BKP_EVT_STATUS_ecc_corr : Fld := ⟨Reg.BKP_EVT_STATUS, 0, 1⟩
abbrev Fld.BKP_EVT_STATUS_ecc_lost : Fld := ⟨Reg.BKP_EVT_STATUS, 1, 1⟩
abbrev Fld.BKP_EVT_CNT_0_count : Fld := ⟨Reg.BKP_EVT_CNT_0, 0, 16⟩
abbrev Fld.BKP_EVT_CNT_1_count : Fld := ⟨Reg.BKP_EVT_CNT_1, 0, 16⟩
abbrev Fld.BKP_REG_value (k : Nat) : Fld := ⟨Reg.BKP_REG k, 0, 32⟩
abbrev Fld.BKP_RAM_bytes (k : Nat) : Fld := ⟨Reg.BKP_RAM k, 0, 32⟩
abbrev Fld.PWR_CAP_watts : Fld := ⟨Reg.PWR_CAP, 0, 9⟩
abbrev Fld.PWR_RX_FLOOR_opp : Fld := ⟨Reg.PWR_RX_FLOOR, 0, 4⟩
abbrev Fld.PWR_STATUS_input_loss : Fld := ⟨Reg.PWR_STATUS, 0, 1⟩
abbrev Fld.PWR_STATUS_capped : Fld := ⟨Reg.PWR_STATUS, 1, 1⟩
abbrev Fld.PWR_STATUS_cap_unmet : Fld := ⟨Reg.PWR_STATUS, 2, 1⟩
abbrev Fld.PWR_STATUS_holdup : Fld := ⟨Reg.PWR_STATUS, 3, 2⟩
abbrev Fld.PWR_STATUS_code : Fld := ⟨Reg.PWR_STATUS, 16, 16⟩
abbrev Fld.PWR_INPUT_mw : Fld := ⟨Reg.PWR_INPUT, 0, 24⟩
abbrev Fld.PWR_VOLT_vin_mv : Fld := ⟨Reg.PWR_VOLT, 0, 16⟩
abbrev Fld.PWR_VOLT_bank_mv : Fld := ⟨Reg.PWR_VOLT, 16, 16⟩
abbrev Fld.PWR_HOLDUP_c_uf : Fld := ⟨Reg.PWR_HOLDUP, 0, 16⟩
abbrev Fld.PWR_HOLDUP_e_mj : Fld := ⟨Reg.PWR_HOLDUP, 16, 16⟩
abbrev Fld.PWR_ENERGY_uj : Fld := ⟨Reg.PWR_ENERGY, 0, 64⟩
abbrev Fld.PWR_EVT_STATUS_input_loss : Fld := ⟨Reg.PWR_EVT_STATUS, 0, 1⟩
abbrev Fld.PWR_EVT_STATUS_cap_throttle : Fld := ⟨Reg.PWR_EVT_STATUS, 1, 1⟩
abbrev Fld.PWR_EVT_STATUS_cap_unmet : Fld := ⟨Reg.PWR_EVT_STATUS, 2, 1⟩
abbrev Fld.PWR_EVT_STATUS_holdup_low : Fld := ⟨Reg.PWR_EVT_STATUS, 3, 1⟩
abbrev Fld.PWR_EVT_STATUS_holdup_fault : Fld := ⟨Reg.PWR_EVT_STATUS, 4, 1⟩
abbrev Fld.PWR_EVT_CNT_count (k : Nat) : Fld := ⟨Reg.PWR_EVT_CNT k, 0, 16⟩
abbrev Fld.PWR_RAIL_STATE_current (k : Nat) : Fld := ⟨Reg.PWR_RAIL_STATE k, 0, 4⟩
abbrev Fld.PWR_RAIL_STATE_target (k : Nat) : Fld := ⟨Reg.PWR_RAIL_STATE k, 4, 4⟩
abbrev Fld.PWR_RAIL_STATE_floor (k : Nat) : Fld := ⟨Reg.PWR_RAIL_STATE k, 8, 4⟩
abbrev Fld.PWR_RAIL_STATE_cap_limit (k : Nat) : Fld := ⟨Reg.PWR_RAIL_STATE k, 12, 4⟩
abbrev Fld.PWR_RAIL_STATE_therm_limit (k : Nat) : Fld := ⟨Reg.PWR_RAIL_STATE k, 16, 4⟩
abbrev Fld.PWR_RAIL_STATE_droop_limit (k : Nat) : Fld := ⟨Reg.PWR_RAIL_STATE k, 20, 4⟩
abbrev Fld.PWR_RAIL_STATE_stepping (k : Nat) : Fld := ⟨Reg.PWR_RAIL_STATE k, 24, 1⟩
abbrev Fld.PWR_RAIL_LIMIT_sw_max (k : Nat) : Fld := ⟨Reg.PWR_RAIL_LIMIT k, 0, 4⟩
abbrev Fld.CLK_EVT_STATUS_droop (n : Nat) : Fld := ⟨Reg.CLK_EVT_STATUS n, 0, 1⟩
abbrev Fld.CLK_EVT_STATUS_droop_persist (n : Nat) : Fld := ⟨Reg.CLK_EVT_STATUS n, 1, 1⟩
abbrev Fld.CLK_EVT_CNT_0_count (n : Nat) : Fld := ⟨Reg.CLK_EVT_CNT_0 n, 0, 16⟩
abbrev Fld.CLK_EVT_CNT_1_count (n : Nat) : Fld := ⟨Reg.CLK_EVT_CNT_1 n, 0, 16⟩
abbrev Fld.CLK_DOM_mhz (n k : Nat) : Fld := ⟨Reg.CLK_DOM n k, 0, 12⟩
abbrev Fld.CLK_DOM_stretching (n k : Nat) : Fld := ⟨Reg.CLK_DOM n k, 12, 1⟩
abbrev Fld.CLK_DOM_stretched (n k : Nat) : Fld := ⟨Reg.CLK_DOM n k, 16, 16⟩
abbrev Fld.THRM_LIMIT_throttle_c (k : Nat) : Fld := ⟨Reg.THRM_LIMIT k, 0, 8⟩
abbrev Fld.THRM_LIMIT_warn_c (k : Nat) : Fld := ⟨Reg.THRM_LIMIT k, 8, 8⟩
abbrev Fld.THRM_TEMP_temp (i j : Nat) : Fld := ⟨Reg.THRM_TEMP i j, 0, 16⟩
abbrev Fld.THRM_TEMP_fault (i j : Nat) : Fld := ⟨Reg.THRM_TEMP i j, 16, 1⟩
abbrev Fld.THRM_EVT_STATUS_warn : Fld := ⟨Reg.THRM_EVT_STATUS, 0, 1⟩
abbrev Fld.THRM_EVT_STATUS_throttle : Fld := ⟨Reg.THRM_EVT_STATUS, 1, 1⟩
abbrev Fld.THRM_EVT_STATUS_sensor_fault : Fld := ⟨Reg.THRM_EVT_STATUS, 2, 1⟩
abbrev Fld.THRM_EVT_CNT_count (k : Nat) : Fld := ⟨Reg.THRM_EVT_CNT k, 0, 16⟩
abbrev Fld.THRM_TRIP_LAST_unit : Fld := ⟨Reg.THRM_TRIP_LAST, 0, 3⟩
abbrev Fld.THRM_TRIP_LAST_sensor : Fld := ⟨Reg.THRM_TRIP_LAST, 3, 3⟩
abbrev Fld.THRM_TRIP_LAST_temp : Fld := ⟨Reg.THRM_TRIP_LAST, 16, 16⟩
abbrev Fld.PWR_SPWR_CTRL_en (k : Nat) : Fld := ⟨Reg.PWR_SPWR_CTRL k, 0, 1⟩
abbrev Fld.PWR_SPWR_STATUS_state (k : Nat) : Fld := ⟨Reg.PWR_SPWR_STATUS k, 0, 3⟩
abbrev Fld.PWR_SPWR_STATUS_ma (k : Nat) : Fld := ⟨Reg.PWR_SPWR_STATUS k, 16, 16⟩
abbrev Fld.PWR_SPWR_EVT_trip : Fld := ⟨Reg.PWR_SPWR_EVT, 0, 1⟩
abbrev Fld.PWR_SPWR_EVT_open : Fld := ⟨Reg.PWR_SPWR_EVT, 1, 1⟩
abbrev Fld.PWR_SPWR_EVT_backfeed : Fld := ⟨Reg.PWR_SPWR_EVT, 2, 1⟩
abbrev Fld.PWR_SPWR_CNT_count (k : Nat) : Fld := ⟨Reg.PWR_SPWR_CNT k, 0, 16⟩
abbrev Fld.SIO_WIRE_EVT_wire : Fld := ⟨Reg.SIO_WIRE_EVT, 0, 1⟩
abbrev Fld.SIO_WIRE_CNT_count : Fld := ⟨Reg.SIO_WIRE_CNT, 0, 16⟩
abbrev Fld.SIO_WIRE_CLR_clear : Fld := ⟨Reg.SIO_WIRE_CLR, 0, 1⟩
abbrev Fld.SIO_WIRE_cond (k : Nat) : Fld := ⟨Reg.SIO_WIRE k, 0, 3⟩
abbrev Fld.SIO_WIRE_live (k : Nat) : Fld := ⟨Reg.SIO_WIRE k, 3, 1⟩
abbrev Fld.SIO_WIRE_ma (k : Nat) : Fld := ⟨Reg.SIO_WIRE k, 16, 16⟩
abbrev Fld.ETH_PAIR_cond (k : Nat) : Fld := ⟨Reg.ETH_PAIR k, 0, 3⟩
abbrev Fld.ETH_PAIR_polarity_rev (k : Nat) : Fld := ⟨Reg.ETH_PAIR k, 3, 1⟩
abbrev Fld.ETH_PAIR_distance (k : Nat) : Fld := ⟨Reg.ETH_PAIR k, 8, 12⟩
abbrev Fld.ETH_PAIR_EVT_pair_fault : Fld := ⟨Reg.ETH_PAIR_EVT, 0, 1⟩
abbrev Fld.ETH_PAIR_CNT_count : Fld := ⟨Reg.ETH_PAIR_CNT, 0, 16⟩

def Ev.MON_SAT_STATUS_acc (n : Nat) : Evt := ⟨Reg.MON_SAT_STATUS n, 0, n * 0x1000000 + 0x50810⟩
def Ev.MON_SAT_STATUS_out (n : Nat) : Evt := ⟨Reg.MON_SAT_STATUS n, 1, n * 0x1000000 + 0x50814⟩
def Ev.MON_SAT_STATUS_scale (n : Nat) : Evt := ⟨Reg.MON_SAT_STATUS n, 2, n * 0x1000000 + 0x50818⟩
def Ev.MON_SAT_STATUS_func (n : Nat) : Evt := ⟨Reg.MON_SAT_STATUS n, 3, n * 0x1000000 + 0x5081C⟩
def Ev.LAY_EVENT_done : Evt := ⟨Reg.LAY_EVENT, 0, 0x1460044⟩
def Ev.LAY_EVENT_fail : Evt := ⟨Reg.LAY_EVENT, 1, 0x1460048⟩
def Ev.LAY_EVENT_cmd_reject : Evt := ⟨Reg.LAY_EVENT, 2, 0x146004C⟩
def Ev.LAY_CTX_EVENT_resident : Evt := ⟨Reg.LAY_CTX_EVENT, 0, 0x146008C⟩
def Ev.LAY_CTX_EVENT_res_fail : Evt := ⟨Reg.LAY_CTX_EVENT, 1, 0x1460090⟩
def Ev.LAY_CTX_EVENT_cmd_reject : Evt := ⟨Reg.LAY_CTX_EVENT, 2, 0x1460094⟩
def Ev.LAY_CTX_EVENT_nonresident : Evt := ⟨Reg.LAY_CTX_EVENT, 3, 0x1460098⟩
def Ev.QUE_OVR_STATUS_overrun (n : Nat) : Evt := ⟨Reg.QUE_OVR_STATUS n, 0, n * 0x1000000 + 0x30104⟩
def Ev.QUE_OVR_STATUS_skip (n : Nat) : Evt := ⟨Reg.QUE_OVR_STATUS n, 1, n * 0x1000000 + 0x30108⟩
def Ev.HQ_EVT_STATUS_bar0_absent : Evt := ⟨Reg.HQ_EVT_STATUS, 0, 0x1450040⟩
def Ev.HQ_EVT_STATUS_db_invalid : Evt := ⟨Reg.HQ_EVT_STATUS, 1, 0x1450044⟩
def Ev.HQ_EVT_STATUS_sync_invalid : Evt := ⟨Reg.HQ_EVT_STATUS, 2, 0x1450048⟩
def Ev.HQ_EVT_STATUS_sync_overflow : Evt := ⟨Reg.HQ_EVT_STATUS, 3, 0x145004C⟩
def Ev.HQ_EVT_STATUS_win_fault : Evt := ⟨Reg.HQ_EVT_STATUS, 4, 0x1450050⟩
def Ev.HQ_EVT_STATUS_q_fault : Evt := ⟨Reg.HQ_EVT_STATUS, 5, 0x1450054⟩
def Ev.HQ_EVT_STATUS_if_done : Evt := ⟨Reg.HQ_EVT_STATUS, 6, 0x1450058⟩
def Ev.HQ_EVT_STATUS_bkr_restart : Evt := ⟨Reg.HQ_EVT_STATUS, 7, 0x145005C⟩
def Ev.TILE_EVT_STATUS_ecc_corr (n : Nat) : Evt := ⟨Reg.TILE_EVT_STATUS n, 0, n * 0x1000000 + 0xA0014⟩
def Ev.TILE_EVT_STATUS_ecc_uncorr (n : Nat) : Evt := ⟨Reg.TILE_EVT_STATUS n, 1, n * 0x1000000 + 0xA0018⟩
def Ev.TILE_EVT_STATUS_op_abort (n : Nat) : Evt := ⟨Reg.TILE_EVT_STATUS n, 2, n * 0x1000000 + 0xA001C⟩
def Ev.SPEC_EVT_STATUS_handoff_err : Evt := ⟨Reg.SPEC_EVT_STATUS, 0, 0x2600014⟩
def Ev.SPEC_EVT_STATUS_stale : Evt := ⟨Reg.SPEC_EVT_STATUS, 1, 0x2600018⟩
def Ev.SPEC_EVT_STATUS_len_err : Evt := ⟨Reg.SPEC_EVT_STATUS, 2, 0x260001C⟩
def Ev.KV_EVT_STATUS_refused : Evt := ⟨Reg.KV_EVT_STATUS, 0, 0x1410064⟩
def Ev.KV_EVT_STATUS_pool_empty : Evt := ⟨Reg.KV_EVT_STATUS, 1, 0x1410068⟩
def Ev.KV_EVT_STATUS_cmd_reject : Evt := ⟨Reg.KV_EVT_STATUS, 2, 0x141006C⟩
def Ev.KV_EVT_STATUS_rollback : Evt := ⟨Reg.KV_EVT_STATUS, 3, 0x1410070⟩
def Ev.SEQ_EVT_STATUS_moved (n : Nat) : Evt := ⟨Reg.SEQ_EVT_STATUS n, 0, n * 0x1000000 + 0xB0044⟩
def Ev.SEQ_EVT_STATUS_step_up (n : Nat) : Evt := ⟨Reg.SEQ_EVT_STATUS n, 1, n * 0x1000000 + 0xB0048⟩
def Ev.SEQ_EVT_STATUS_restore_fail (n : Nat) : Evt := ⟨Reg.SEQ_EVT_STATUS n, 2, n * 0x1000000 + 0xB004C⟩
def Ev.SEQ_EVT_STATUS_cmd_reject (n : Nat) : Evt := ⟨Reg.SEQ_EVT_STATUS n, 3, n * 0x1000000 + 0xB0050⟩
def Ev.TIER_EVT_STATUS_miss : Evt := ⟨Reg.TIER_EVT_STATUS, 0, 0x1420044⟩
def Ev.TIER_EVT_STATUS_lower_err : Evt := ⟨Reg.TIER_EVT_STATUS, 1, 0x1420048⟩
def Ev.TIER_EVT_STATUS_path_skip : Evt := ⟨Reg.TIER_EVT_STATUS, 2, 0x142004C⟩
def Ev.TIER_EVT_STATUS_path_resident : Evt := ⟨Reg.TIER_EVT_STATUS, 3, 0x1420050⟩
def Ev.TIER_EVT_STATUS_path_wait : Evt := ⟨Reg.TIER_EVT_STATUS, 4, 0x1420054⟩
def Ev.TIER_EVT_STATUS_cancel : Evt := ⟨Reg.TIER_EVT_STATUS, 5, 0x1420058⟩
def Ev.TIER_EVT_STATUS_cmd_reject : Evt := ⟨Reg.TIER_EVT_STATUS, 6, 0x142005C⟩
def Ev.XLT_EVT_STATUS_unmapped (n : Nat) : Evt := ⟨Reg.XLT_EVT_STATUS n, 0, n * 0x1000000 + 0x60004⟩
def Ev.XLT_EVT_STATUS_write (n : Nat) : Evt := ⟨Reg.XLT_EVT_STATUS n, 1, n * 0x1000000 + 0x60008⟩
def Ev.XLT_EVT_STATUS_range (n : Nat) : Evt := ⟨Reg.XLT_EVT_STATUS n, 2, n * 0x1000000 + 0x6000C⟩
def Ev.XLT_EVT_STATUS_lock_full (n : Nat) : Evt := ⟨Reg.XLT_EVT_STATUS n, 3, n * 0x1000000 + 0x60010⟩
def Ev.FTL_EVT_STATUS_uncorr : Evt := ⟨Reg.FTL_EVT_STATUS, 0, 0x1430014⟩
def Ev.FTL_EVT_STATUS_relocate : Evt := ⟨Reg.FTL_EVT_STATUS, 1, 0x1430018⟩
def Ev.FTL_EVT_STATUS_retire : Evt := ⟨Reg.FTL_EVT_STATUS, 2, 0x143001C⟩
def Ev.FTL_EVT_STATUS_remount : Evt := ⟨Reg.FTL_EVT_STATUS, 3, 0x1430020⟩
def Ev.TCL_EVT_STATUS_c0_over (n : Nat) : Evt := ⟨Reg.TCL_EVT_STATUS n, 0, n * 0x1000000 + 0x40004⟩
def Ev.TCL_EVT_STATUS_dl_miss (n : Nat) : Evt := ⟨Reg.TCL_EVT_STATUS n, 1, n * 0x1000000 + 0x40008⟩
def Ev.TCL_EVT_STATUS_c0_target (n : Nat) : Evt := ⟨Reg.TCL_EVT_STATUS n, 2, n * 0x1000000 + 0x4000C⟩
def Ev.MON_SNAP_STATUS_taken (n : Nat) : Evt := ⟨Reg.MON_SNAP_STATUS n, 1, n * 0x1000000 + 0x5000C⟩
def Ev.MON_SNAP_STATUS_missed (n : Nat) : Evt := ⟨Reg.MON_SNAP_STATUS n, 2, n * 0x1000000 + 0x50010⟩
def Ev.TIME_EVT_STATUS_step_done : Evt := ⟨Reg.TIME_EVT_STATUS, 0, 0x230034⟩
def Ev.TIME_EVT_STATUS_step_reject : Evt := ⟨Reg.TIME_EVT_STATUS, 1, 0x230038⟩
def Ev.TIME_EVT_STATUS_rate_clamp : Evt := ⟨Reg.TIME_EVT_STATUS, 2, 0x23003C⟩
def Ev.TIME_EVT_STATUS_fifo_ovf : Evt := ⟨Reg.TIME_EVT_STATUS, 3, 0x230040⟩
def Ev.TIME_EVT_STATUS_insert_err : Evt := ⟨Reg.TIME_EVT_STATUS, 4, 0x230044⟩
def Ev.TIME_EVT_STATUS_pps_in : Evt := ⟨Reg.TIME_EVT_STATUS, 5, 0x230048⟩
def Ev.TIME_EVT_STATUS_pps_in_glitch : Evt := ⟨Reg.TIME_EVT_STATUS, 6, 0x23004C⟩
def Ev.JBUS_EVT_STATUS_crc_err : Evt := ⟨Reg.JBUS_EVT_STATUS, 0, 0x260014⟩
def Ev.JBUS_EVT_STATUS_dup_old : Evt := ⟨Reg.JBUS_EVT_STATUS, 1, 0x260018⟩
def Ev.JBUS_EVT_STATUS_gap : Evt := ⟨Reg.JBUS_EVT_STATUS, 2, 0x26001C⟩
def Ev.JBUS_EVT_STATUS_stale : Evt := ⟨Reg.JBUS_EVT_STATUS, 3, 0x260020⟩
def Ev.JBUS_EVT_STATUS_miss : Evt := ⟨Reg.JBUS_EVT_STATUS, 4, 0x260024⟩
def Ev.JBUS_EVT_STATUS_stream_fault : Evt := ⟨Reg.JBUS_EVT_STATUS, 5, 0x260028⟩
def Ev.JBUS_EVT_STATUS_link_down : Evt := ⟨Reg.JBUS_EVT_STATUS, 6, 0x26002C⟩
def Ev.JBUS_EVT_STATUS_cmd_late : Evt := ⟨Reg.JBUS_EVT_STATUS, 7, 0x260030⟩
def Ev.JBUS_EVT_STATUS_unknown : Evt := ⟨Reg.JBUS_EVT_STATUS, 8, 0x260034⟩
def Ev.CSI_EVT_STATUS_hdr_corr : Evt := ⟨Reg.CSI_EVT_STATUS, 0, 0x250104⟩
def Ev.CSI_EVT_STATUS_crc_err : Evt := ⟨Reg.CSI_EVT_STATUS, 1, 0x250108⟩
def Ev.CSI_EVT_STATUS_truncated : Evt := ⟨Reg.CSI_EVT_STATUS, 2, 0x25010C⟩
def Ev.CSI_EVT_STATUS_unmatched : Evt := ⟨Reg.CSI_EVT_STATUS, 3, 0x250110⟩
def Ev.FUSN_EVT_STATUS_late : Evt := ⟨Reg.FUSN_EVT_STATUS, 0, 0x270014⟩
def Ev.FUSN_EVT_STATUS_stale : Evt := ⟨Reg.FUSN_EVT_STATUS, 1, 0x270018⟩
def Ev.FUSN_EVT_STATUS_drop : Evt := ⟨Reg.FUSN_EVT_STATUS, 2, 0x27001C⟩
def Ev.FUSN_EVT_STATUS_unpaired : Evt := ⟨Reg.FUSN_EVT_STATUS, 3, 0x270020⟩
def Ev.FUSN_EVT_STATUS_pose_miss : Evt := ⟨Reg.FUSN_EVT_STATUS, 4, 0x270024⟩
def Ev.FUSN_EVT_STATUS_grid_pose : Evt := ⟨Reg.FUSN_EVT_STATUS, 5, 0x270028⟩
def Ev.FUSN_EVT_STATUS_overrun : Evt := ⟨Reg.FUSN_EVT_STATUS, 6, 0x27002C⟩
def Ev.FUSN_EVT_STATUS_dispute : Evt := ⟨Reg.FUSN_EVT_STATUS, 7, 0x270030⟩
def Ev.FUSN_EVT_STATUS_ring_fault : Evt := ⟨Reg.FUSN_EVT_STATUS, 8, 0x270034⟩
def Ev.MAP_EVT_STATUS_nodes_full : Evt := ⟨Reg.MAP_EVT_STATUS, 0, 0x280034⟩
def Ev.MAP_EVT_STATUS_outside : Evt := ⟨Reg.MAP_EVT_STATUS, 1, 0x280038⟩
def Ev.MAP_EVT_STATUS_delta_lost : Evt := ⟨Reg.MAP_EVT_STATUS, 2, 0x28003C⟩
def Ev.MAP_EVT_STATUS_mode_change : Evt := ⟨Reg.MAP_EVT_STATUS, 3, 0x280040⟩
def Ev.MAP_EVT_STATUS_sdf_built : Evt := ⟨Reg.MAP_EVT_STATUS, 4, 0x280044⟩
def Ev.MAP_EVT_STATUS_cmd_reject : Evt := ⟨Reg.MAP_EVT_STATUS, 5, 0x280048⟩
def Ev.PLAN_EVT_STATUS_no_plan : Evt := ⟨Reg.PLAN_EVT_STATUS, 0, 0x290024⟩
def Ev.PLAN_EVT_STATUS_recheck_fail : Evt := ⟨Reg.PLAN_EVT_STATUS, 1, 0x290028⟩
def Ev.PLAN_EVT_STATUS_ts_fail : Evt := ⟨Reg.PLAN_EVT_STATUS, 2, 0x29002C⟩
def Ev.PLAN_EVT_STATUS_cand_invalid : Evt := ⟨Reg.PLAN_EVT_STATUS, 3, 0x290030⟩
def Ev.PLAN_EVT_STATUS_delta_lost : Evt := ⟨Reg.PLAN_EVT_STATUS, 4, 0x290034⟩
def Ev.PLAN_EVT_STATUS_abandoned : Evt := ⟨Reg.PLAN_EVT_STATUS, 5, 0x290038⟩
def Ev.SOLV_EVT_STATUS_range : Evt := ⟨Reg.SOLV_EVT_STATUS, 0, 0x2A0024⟩
def Ev.SOLV_EVT_STATUS_pivot_floor : Evt := ⟨Reg.SOLV_EVT_STATUS, 1, 0x2A0028⟩
def Ev.SOLV_EVT_STATUS_degraded : Evt := ⟨Reg.SOLV_EVT_STATUS, 2, 0x2A002C⟩
def Ev.SOLV_EVT_STATUS_fact_late : Evt := ⟨Reg.SOLV_EVT_STATUS, 3, 0x2A0030⟩
def Ev.SOLV_EVT_STATUS_deadline : Evt := ⟨Reg.SOLV_EVT_STATUS, 4, 0x2A0034⟩
def Ev.SOLV_EVT_STATUS_breakdown : Evt := ⟨Reg.SOLV_EVT_STATUS, 5, 0x2A0038⟩
def Ev.SOLV_EVT_STATUS_fallback : Evt := ⟨Reg.SOLV_EVT_STATUS, 6, 0x2A003C⟩
def Ev.SOLV_EVT_STATUS_matrix_invalid : Evt := ⟨Reg.SOLV_EVT_STATUS, 7, 0x2A0040⟩
def Ev.LOOP_EVT_STATUS_fe_fault : Evt := ⟨Reg.LOOP_EVT_STATUS, 0, 0x2B0024⟩
def Ev.LOOP_EVT_STATUS_fb_fault : Evt := ⟨Reg.LOOP_EVT_STATUS, 1, 0x2B0028⟩
def Ev.LOOP_EVT_STATUS_sat : Evt := ⟨Reg.LOOP_EVT_STATUS, 2, 0x2B002C⟩
def Ev.LOOP_EVT_STATUS_limit : Evt := ⟨Reg.LOOP_EVT_STATUS, 3, 0x2B0030⟩
def Ev.LOOP_EVT_STATUS_stale_in : Evt := ⟨Reg.LOOP_EVT_STATUS, 4, 0x2B0034⟩
def Ev.LOOP_EVT_STATUS_bump : Evt := ⟨Reg.LOOP_EVT_STATUS, 5, 0x2B0038⟩
def Ev.LOOP_EVT_STATUS_ctrl_err : Evt := ⟨Reg.LOOP_EVT_STATUS, 6, 0x2B003C⟩
def Ev.LOOP_EVT_STATUS_lockstep : Evt := ⟨Reg.LOOP_EVT_STATUS, 7, 0x2B0040⟩
def Ev.LOOP_EVT_STATUS_clr_reject : Evt := ⟨Reg.LOOP_EVT_STATUS, 8, 0x2B0044⟩
def Ev.CRUST_EVT_STATUS_evt (k : Nat) : Evt := ⟨Reg.CRUST_EVT_STATUS, k, 0x2C0100 + 4 * k⟩
def Ev.INJ_EVT_STATUS_proof_fail (n : Nat) : Evt := ⟨Reg.INJ_EVT_STATUS n, 0, n * 0x1000000 + 0x80014⟩
def Ev.INJ_EVT_STATUS_st_fail (n : Nat) : Evt := ⟨Reg.INJ_EVT_STATUS n, 1, n * 0x1000000 + 0x80018⟩
def Ev.INJ_EVT_STATUS_cmd_reject (n : Nat) : Evt := ⟨Reg.INJ_EVT_STATUS n, 2, n * 0x1000000 + 0x8001C⟩
def Ev.BOOT_EVT_STATUS_upd_done : Evt := ⟨Reg.BOOT_EVT_STATUS, 0, 0x2F0044⟩
def Ev.BOOT_EVT_STATUS_upd_fail : Evt := ⟨Reg.BOOT_EVT_STATUS, 1, 0x2F0048⟩
def Ev.BOOT_EVT_STATUS_alternative : Evt := ⟨Reg.BOOT_EVT_STATUS, 2, 0x2F004C⟩
def Ev.BOOT_EVT_STATUS_fw_fallback : Evt := ⟨Reg.BOOT_EVT_STATUS, 3, 0x2F0050⟩
def Ev.BOOT_EVT_STATUS_cmd_reject : Evt := ⟨Reg.BOOT_EVT_STATUS, 4, 0x2F0054⟩
def Ev.BKR_EVT_STATUS_wdog (n : Nat) : Evt := ⟨Reg.BKR_EVT_STATUS n, 0, n * 0x1000000 + 0x70014⟩
def Ev.BKR_EVT_STATUS_escalated (n : Nat) : Evt := ⟨Reg.BKR_EVT_STATUS n, 1, n * 0x1000000 + 0x70018⟩
def Ev.RST_EVT_STATUS_blk_done : Evt := ⟨Reg.RST_EVT_STATUS, 0, 0x200044⟩
def Ev.RST_EVT_STATUS_blk_escalated : Evt := ⟨Reg.RST_EVT_STATUS, 1, 0x200048⟩
def Ev.RST_EVT_STATUS_cmd_reject : Evt := ⟨Reg.RST_EVT_STATUS, 2, 0x20004C⟩
def Ev.BKP_EVT_STATUS_ecc_corr : Evt := ⟨Reg.BKP_EVT_STATUS, 0, 0x220014⟩
def Ev.BKP_EVT_STATUS_ecc_lost : Evt := ⟨Reg.BKP_EVT_STATUS, 1, 0x220018⟩
def Ev.PWR_EVT_STATUS_input_loss : Evt := ⟨Reg.PWR_EVT_STATUS, 0, 0x210034⟩
def Ev.PWR_EVT_STATUS_cap_throttle : Evt := ⟨Reg.PWR_EVT_STATUS, 1, 0x210038⟩
def Ev.PWR_EVT_STATUS_cap_unmet : Evt := ⟨Reg.PWR_EVT_STATUS, 2, 0x21003C⟩
def Ev.PWR_EVT_STATUS_holdup_low : Evt := ⟨Reg.PWR_EVT_STATUS, 3, 0x210040⟩
def Ev.PWR_EVT_STATUS_holdup_fault : Evt := ⟨Reg.PWR_EVT_STATUS, 4, 0x210044⟩
def Ev.CLK_EVT_STATUS_droop (n : Nat) : Evt := ⟨Reg.CLK_EVT_STATUS n, 0, n * 0x1000000 + 0x10004⟩
def Ev.CLK_EVT_STATUS_droop_persist (n : Nat) : Evt := ⟨Reg.CLK_EVT_STATUS n, 1, n * 0x1000000 + 0x10008⟩
def Ev.THRM_EVT_STATUS_warn : Evt := ⟨Reg.THRM_EVT_STATUS, 0, 0x310084⟩
def Ev.THRM_EVT_STATUS_throttle : Evt := ⟨Reg.THRM_EVT_STATUS, 1, 0x310088⟩
def Ev.THRM_EVT_STATUS_sensor_fault : Evt := ⟨Reg.THRM_EVT_STATUS, 2, 0x31008C⟩
def Ev.PWR_SPWR_EVT_trip : Evt := ⟨Reg.PWR_SPWR_EVT, 0, 0x210244⟩
def Ev.PWR_SPWR_EVT_open : Evt := ⟨Reg.PWR_SPWR_EVT, 1, 0x210248⟩
def Ev.PWR_SPWR_EVT_backfeed : Evt := ⟨Reg.PWR_SPWR_EVT, 2, 0x21024C⟩
def Ev.SIO_WIRE_EVT_wire : Evt := ⟨Reg.SIO_WIRE_EVT, 0, 0x2E0024⟩
def Ev.ETH_PAIR_EVT_pair_fault : Evt := ⟨Reg.ETH_PAIR_EVT, 0, 0x240414⟩

end Sys2Proof.Machine
end

