-- ==== Sys2Proof/Machine/State.lean ====
section
/-! DEFINITION. The state of the ZPD-880 as plain data, the reasons a step can stop, and the state after reset. -/

namespace Sys2Proof.Machine

/-- Why the machine stops. -/
inductive Fault
  /-- Raised by MEMORY_SCRUB, FLASH_READ and the other commands that name a physical address or a flash unit, when
  the spec says that none is there (R175, R194). Safe: the spec gives no effect for a place that does not exist. -/
  | noSuchMemory
deriving DecidableEq, Repr

/-- Why the model has no meaning for a command. -/
inductive Refusal
  /-- Raised by the dispatch for a row that has no meaning yet. Safe: no state follows. -/
  | notModelled (mnemonic : String)
deriving DecidableEq, Repr

/-! ### Memory -/

/-- A range of physical memory whose unlisted bytes are zero (`id` = 0: zeroed pages) or undefined (`id` > 0: the
number of the free contents, log entries 4 and 6). -/
structure Fill where
  base : Nat
  len : Nat
  id : Nat
deriving DecidableEq, Repr

/-- True where a fill covers an address. -/
def Fill.covers (f : Fill) (a : Nat) : Bool := f.base ≤ a && a < f.base + f.len

/-- A range of physical memory that a solver operation reads throughout, and whether something has been written in it since the
operation began (R305). -/
structure Watch where
  base : Nat
  len : Nat
  written : Bool
deriving DecidableEq, Repr

/-- Byte memory: the listed bytes, the fills, the latest first, and the ranges whose writes are watched. -/
structure Memory where
  cells : List Host.Cell
  fills : List Fill
  watch : List Watch := []
deriving DecidableEq, Repr

/-- What an unlisted address reads as: what the latest fill over it says, and 0 where there is none (log entry 4). The
one definition of unlisted contents. -/
def memDefault (fills : List Fill) (a : Nat) : BitVec 8 :=
  match fills.find? (fun f => f.covers a) with
  | none => 0
  | some f => if f.id = 0 then 0 else Config.memByte f.id a

/-! ### Registers -/

/-- A latch or a staged half of a 64-bit pair: requester, offset of the low half, value (R5). -/
structure PairHalf where
  who : Requester
  low : Nat
  value : BitVec 32
deriving DecidableEq, Repr

/-! ### Layout, contexts and the host link (chapters 03 to 05) -/

/-- A section of a layout: type code, records and blob (R56, R58). -/
structure Section where
  type : Nat
  records : List Bytes
  blob : Bytes
deriving DecidableEq, Repr

/-- A layout: its identifier and its sections in ascending order of type. -/
structure Layout where
  layoutId : Nat
  sections : List Section
deriving DecidableEq, Repr

/-- The context states of R71. -/
inductive CtxPhase | absent | nonresident | loading | resident | stopped
deriving DecidableEq, Repr

/-- A schedule activation (R75 to R77, R450): its index, start, next step, whether a programme failed, the codes by step, the
invocation that started it with its arguments, whether it overran, the cycles of the schedule's domain counted up to an
instant of the always-on time base (in 1/(16 × 10^6) of a cycle; R76), and that instant. -/
structure Activation where
  index : Nat
  start : Nat
  nextStep : Nat
  failed : Bool
  codes : List (Nat × Nat)
  inv : Option Nat
  args : Bytes
  overran : Bool
  ran : Int
  since : Int
deriving DecidableEq, Repr

/-- What the loader and the sequencer hold for a context (R71 to R81). -/
structure Ctx where
  phase : CtxPhase := .absent
  crustHold : Bool := false
  sched : Bool := false
  code : Nat := 0
  waiting : Bool := false
  resNext : Nat := 0
  bases : List (Nat × Nat) := []
  actCount : Nat := 0
  anchor : Nat := 0
  lastInstant : Nat := 0
  acts : List Activation := []
deriving DecidableEq, Repr

/-- The counts and state of a host queue (R93 to R101). `stopUpTo` is the submission count up to which descriptors
complete with 0x0B32 after a stop, `failUpTo` that up to which they complete with 0x0B33 after a failed residency
(R82); `discard` holds from a completion fault until run is next set (R94). -/
structure Queue where
  sqTail : Nat := 0
  sqHead : Nat := 0
  cqTail : Nat := 0
  cqHead : Nat := 0
  fetched : List (Nat × Bytes) := []
  fault : Bool := false
  code : Nat := 0
  discard : Bool := false
  stopUpTo : Option Nat := none
  failUpTo : Option Nat := none
deriving DecidableEq, Repr

/-- An invocation that has started and is not yet published (R96, R98). -/
structure Invocation where
  ctx : Nat
  sqIndex : Nat
  desc : Bytes
  start : Nat
  counted : Bool
  overran : Bool
  done : Option Nat
deriving DecidableEq, Repr

/-- What started a programme: an invocation that names it, or step `n` of the context's activation `k`. -/
inductive Origin
  | invocation (sqIndex : Nat)
  | step (k n : Nat)
deriving DecidableEq, Repr

/-- A run-time prefetch of a running programme (R189 to R192): its instant has not come, it has been issued and waits for one
of the eight to finish, its transfer runs, or it has ended. -/
inductive PrefetchPhase | waiting | issued | inFlight | done | failed | cancelled
deriving DecidableEq, Repr

/-- A programme that runs (R76, R96, R115). `executed` says that its current operation has had its effect, with the code
`opCode`, the arithmetic events `sat` of die `satDie` and the physical output ranges `outs`, and is not yet complete;
`codes` are the codes of the operations before it; `progress` counts the steps of a chunk that have run (R164, R165), or the
entries of a SPEC_VERIFY (R132, R134); `recs` are the programme's run-time PREFETCH records as they stood at its start, and
`prefetches` their phases by place in that list; `waitEnd` is the always-on instant at which the wait of a WAIT path ends (R191),
`substitute` the programme and operation that run in its place, `putReady` that a HANDOFF_PUT waits for ring space or a SEQ_CHUNK
for a restore, `done` the programme's code once it has ended. (log entry 38: DEDUCED in part) -/
structure Run where
  id : Nat
  ctx : Nat
  die : Nat
  prog : Nat
  op : Nat
  unit : Nat
  args : Bytes
  origin : Origin
  start : Nat
  executed : Bool
  opCode : Nat
  sat : SatEvents
  satDie : Nat
  outs : List (Nat × Nat)
  codes : List Nat
  recs : List Bytes
  prefetches : List (Nat × PrefetchPhase)
  waitEnd : Option Nat
  substitute : Option (Nat × Nat)
  putReady : Bool
  progress : Nat
  done : Option Nat
deriving DecidableEq, Repr

/-- A load in progress (R63): the operation, the copied image and the step reached. -/
structure Load where
  op : Nat
  image : Bytes
  committing : Bool
deriving DecidableEq, Repr

/-- The identity and the options of the PCI Express endpoint (R84): identifiers and class code, payload and read-request limits
and MSI-X vectors, the width of tags, and whether the options are supported: error reporting, function reset, ASPM L1, and then
virtual functions, further functions, ATS, PASID, MSI, legacy interrupts and peer-to-peer requests.
(log entry 75: DEDUCED in part) -/
structure Endpoint where
  vendor : Nat := 0x5A1E
  device : Nat := 0x0370
  classCode : Nat := 0x120000
  maxPayload : Nat := 512
  maxRead : Nat := 4096
  tagBits : Nat := 10
  vectors : Nat := 64
  aer : Bool := true
  flr : Bool := true
  aspmL1 : Bool := true
  sriov : Bool := false
  functions : Nat := 1
  ats : Bool := false
  pasid : Bool := false
  msi : Bool := false
  legacy : Bool := false
  peer : Bool := false
deriving DecidableEq, Repr

/-! ### Memory tiers (chapter 10) -/

/-- An allocation as one root maps it (R176 to R178): `extents` are the physical ranges (base, length) of tiers 0 and
1, or ranges of flash units (first unit, count) for tier 2 of the translation entry.
(log entry 76: DESIGN CHOICE in part) -/
structure Mapping where
  ctx : Nat
  va : Nat
  len : Nat
  page : Nat
  flags : Nat
  tier : Nat
  extents : List (Nat × Nat)
  alloc : Nat
deriving DecidableEq, Repr

/-- A flash object (R178): identifier, length in bytes and unit ranges. -/
structure FlashObject where
  id : Nat
  len : Nat
  units : List (Nat × Nat)
deriving DecidableEq, Repr

/-- A tier command that waits under R179: its opcode and the registers it was started with. -/
structure TierPending where
  op : Nat
  ctx : Nat
  va : Nat
  len : Nat
  aux : Nat
deriving DecidableEq, Repr

/-- What the flash translation layer holds (R194 to R199): contents, uncorrectable codewords, the block of each written unit,
per-block reads and erases, blocks queued for relocation, retired blocks, blocks marked bad at manufacture, flash objects, and the
journal: the units it holds, its bytes, and the time of the last commit. -/
structure FlashStore where
  bytes : Sparse (BitVec 8)
  bad : List Nat
  map : Sparse Nat
  reads : Sparse Nat
  erases : Sparse Nat
  relocate : List Nat
  retired : List Nat
  factoryBad : List Nat
  objects : List FlashObject
  journal : List Nat
  journalBytes : Nat
  lastCommit : Nat
deriving DecidableEq, Repr

/-! ### Key-value cache (chapter 08) -/

/-- An entry of the length table (R142). (log entry 5: DESIGN CHOICE in part) -/
structure KvEntry where
  committed : Nat := 0
  tentative : Nat := 0
  base : Nat := 0
  genTag : Nat := 1
  owner : Nat := 0
  holder : Nat := 0
  geom : Nat := 0
  layers : Nat := 0
  cursor : Nat := 0
  valid : Bool := false
  groupCommit : Bool := false
  groupOpen : Bool := false
  groupStart : Nat := 0
  groupN : Nat := 0
deriving DecidableEq, Repr

/-- A FREE or TRUNCATE that waits under R153. -/
structure KvPending where
  op : Nat
  seq : Nat
  arg : Nat
deriving DecidableEq, Repr

/-! ### Sequence engines (chapter 09) -/

/-- The states of a slot (R168). -/
inductive SlotPhase | empty | live | restoring | swapping
deriving DecidableEq, Repr

/-- A slot of a sequence engine (R167 to R170): its owner, tag, SRAM base and shape; `closing` from the acceptance of a
SWAP_OUT or UNBIND. (log entry 5: DESIGN CHOICE in part) -/
structure SeqSlot where
  phase : SlotPhase := .empty
  owner : Nat := 0
  tag : Nat := 0
  base : Nat := 0
  kind : Nat := 0
  rows : Nat := 0
  width : Nat := 0
  closing : Bool := false
deriving DecidableEq, Repr

/-- A sequence-engine command that waits or transfers on a die (R168, R170). -/
structure SeqCmd where
  op : Nat
  key : Nat
  va : Nat
  moving : Bool
deriving DecidableEq, Repr

/-! ### Traffic (chapter 11) -/

/-- A request (R202 to R210): master die and index, the die that arbitrates and counts it and the resource it stands at, the
resources it crosses after that, those it has crossed (die, resource, class, CLASSES record), the class its master gave it,
its class here, context, deadline field, deadline as an instant of the master's die, bytes, the applicable CLASSES record
here, issue time, the time it entered the die where it stands, arrival at the arbiter (none while it waits under R207), the
bytes not yet granted here, the time of the last grant at its last resource, and whether it is over budget.
(log entry 79: DESIGN CHOICE in part) -/
structure Request where
  id : Nat
  die : Nat
  master : Nat
  loc : Nat
  res : Nat
  route : List (Nat × Nat)
  passed : List (Nat × Nat × Nat × Option Nat)
  cls0 : Nat
  cls : Nat
  ctx : Nat
  deadline : Nat
  due : Option Int
  bytes : Nat
  record : Option Nat
  issued : Int
  entered : Int
  arrived : Option Int
  left : Nat
  granted : Option Nat
  overBudget : Bool
deriving DecidableEq, Repr

/-- The budget window of a CLASSES record at an arbiter: the device time at which the next one begins, and the bytes granted
in this one (R206). -/
structure BudgetWindow where
  next : Nat := 0
  bytes : Nat := 0
deriving DecidableEq, Repr

/-- An entry of a die's translation buffer that is not locked (R184): context, first address and length of its page, and the
translation entry of R181 that the walk found. (log entry 76: DESIGN CHOICE in part) -/
structure TlbEntry where
  ctx : Nat
  va : Nat
  len : Nat
  entry : Nat
deriving DecidableEq, Repr

/-! ### Time base, ports and joint bus (chapters 12 and 13) -/

/-- An entry of a PTP stamp FIFO (R224). -/
structure PtpStamp where
  egress : Bool
  msgType : Nat
  seq : Nat
  ns : Nat
  frac : Nat
deriving DecidableEq, Repr

/-- A frame that left a port, without its FCS; `fcsOk` is false where the FCS was inverted (R226). -/
structure SentFrame where
  port : Nat
  frame : Bytes
  fcsOk : Bool
deriving DecidableEq, Repr

/-- A frame that a port has stamped and delivered to its consumer (R223): the joint-bus engine, which has not yet checked it, or
firmware. -/
structure RxFrame where
  port : Nat
  stamp : Nat
  frame : Bytes
deriving DecidableEq, Repr

/-- A camera frame in progress on a virtual channel (R227, R242): its number, the capture of its frame start in units of 2^-16
ns, the stamp of its exposure, the sensor's own stamp, whether a packet of it was bad, and the data so far by data type.
(log entry 47: DEDUCED in part) -/
structure CamFrame where
  number : Nat
  capture : Int
  exposure : Nat
  own : Nat
  err : Bool
  data : List (Nat × Bytes)
deriving DecidableEq, Repr

/-- What the engines carry for a STREAMS record (R235 to R243, R350 to R354): the last accepted counter; the frames
accepted since the last check instant (ingress stamp, header stamp); the served cycles in a row; the next cycle to build
or check and the next whose egress Crust probes; the built frame with its cycle and whether it is a substitute; the
cycle of the last frame that left; a cycle found not delivered; publications; Crust's own last counter; the takeover
instant while the fallback unit serves the stream; the joints of the last command records; the velocities and positions
of the ramp by record; by record the instant since when the velocity is too high and whether it was reported; and the records
that Crust itself forms for the substitute that is built (R373). -/
structure StreamSt where
  last : Option Nat := none
  accepted : List (Nat × Nat) := []
  servedRun : Nat := 0
  next : Nat := 0
  probe : Nat := 0
  built : Option (Nat × Bytes × Bool) := none
  left : Option Nat := none
  missed : Option Nat := none
  pubs : Nat := 0
  crustLast : Option Nat := none
  takeover : Option Nat := none
  joints : List Nat := []
  ramp : List (Nat × Int) := []
  parked : List (Nat × Int) := []
  fast : List (Nat × Nat × Bool) := []
  formed : Bytes := []
deriving DecidableEq, Repr

/-- The ports: PTP FIFOs, PPS output (its level and the device time of its last rise), the steps of device time (the always-on
time of each and its offset in ns), frames that left, joint frames that
wait, frames delivered to firmware with their ingress stamp, the Ethertype in force, the streams, the camera frames in
progress and the last device stamp of each virtual channel (by 4 × port + channel). -/
structure PortsSt where
  fifos : Sparse (List PtpStamp) := []
  ppsHigh : Bool := false
  ppsRise : Int := 0
  steps : List (Nat × Int) := []
  ppsSeen : Bool := false
  sent : List SentFrame := []
  jbusIn : List RxFrame := []
  fwIn : List RxFrame := []
  ethertype : Nat := 0x88B5
  streams : Sparse StreamSt := []
  cams : Sparse (Option CamFrame) := []
  exposure : Sparse Nat := []
deriving DecidableEq, Repr

/-! ### Loop engines (chapter 18) -/

/-- A slot of a loop engine (R321 to R336): mode (0 OFF, 1 MANUAL, 2 AUTO, 3 FAULT), the section states
(x1, x2, y1, y2), the filtered error before, the integrator, the timer, the last output and command value, the base
cycle of the last evaluation that counts as delivered, whether it waits for OFF after a handback, and the cause of FAULT. -/
structure LoopSlot where
  mode : Nat := 0
  sections : List (Int × Int × Int × Int) := []
  efPrev : Int := 0
  integ : Int := 0
  timer : Nat := 0
  u : Int := 0
  c : Int := 0
  done : Option Nat := none
  rearm : Bool := false
  feCause : Bool := false
deriving DecidableEq, Repr

/-- The loop engines: the slots and the next base cycle of each engine. -/
structure LoopsSt where
  slots : Sparse LoopSlot := []
  next : Sparse Nat := []
deriving DecidableEq, Repr

/-! ### Crust and the safety outputs (chapters 19, 20 and 24) -/

/-- A stop of a group that is under way (R354): its category, the instant the ramp runs from, and the streams whose
first substitute has not departed. -/
structure GroupStop where
  cat : Nat
  rampFrom : Nat
  awaited : List Nat
deriving DecidableEq, Repr

/-- The perception comparison (R355, R357): the untrusted bits of the last frames, the frames evaluated, the instant of
the last evaluation, the factor, and the lidar mask with the instant it was published. -/
structure PsfSt where
  untrusted : List Bool := []
  frames : List (Nat × Nat) := []
  lastEval : Option Nat := none
  factor : Nat := 0
  lidar : Nat := 0
  lidarAt : Option Nat := none
deriving DecidableEq, Repr

/-- A starter programme of an activation that has started, not yet judged (R358): its record, the activation's index and start, the
run that executes it, none before its step issues, and the instant by which it must have completed. -/
structure StarterRun where
  index : Nat
  act : Nat
  start : Nat
  run : Option Nat
  due : Nat
  ended : Option Nat
  digested : Bool
  late : Bool
deriving DecidableEq, Repr

/-- A staged change record (R364). -/
structure StagedChange where
  record : Bytes
  party : Nat
  at' : Nat
deriving DecidableEq, Repr

/-- What Crust and the safety I/O hold: events not yet reacted to (event, source); the feedback copy by 64 × port +
joint (position, velocity); the stop of each group; DEGRADE; the perception comparison; the starters; the staged change;
outputs switched off by a wiring fault; the pulse test, the output that a proof run energises and the emergency-stop test that run
(output or channel, start); the last pass of each self-test and the tests reported overdue; the instant of an event that will reset the module; the wiring
conditions that are present on each output and channel; the rotation slot in which a pulse test last began, counted from device
time 0, with the first group that has not had its turn in it; and the instant of the last SELFTEST for a failed proof run. -/
structure CrustSt where
  reports : List (Nat × Nat) := []
  feedback : Sparse (Option (Int × Int)) := []
  stops : Sparse (Option GroupStop) := []
  degrade : Bool := false
  psf : PsfSt := {}
  starters : List StarterRun := []
  staged : Option StagedChange := none
  off : List Nat := []
  pulse : Option (Nat × Nat) := none
  proofOut : Option (Nat × Nat) := none
  estopTest : Option (Nat × Nat) := none
  passes : Sparse Nat := []
  overdue : List Nat := []
  trip : Option Nat := none
  wires : Sparse (List Nat) := []
  turn : Nat × Nat := (0, 0)
  failAt : Option Nat := none
deriving DecidableEq, Repr

/-! ### World map and sensor fusion (chapters 14 and 15) -/

/-- The content of a cell (R261): state, free count and the costs of layers 1 to 7. -/
structure MapCell where
  state : Nat
  free : Nat
  costs : Bytes
deriving DecidableEq, Repr

/-- A node of the voxel tree (R262): absent, a LEAF or UNIFORM node, or an INNER node with the index of the first node of its
child group and its eight children. (log entry 50: DEDUCED in part) -/
inductive MapTree
  | absent
  | cell (c : MapCell)
  | inner (group : Nat) (c0 c1 c2 c3 c4 c5 c6 c7 : MapTree)
deriving DecidableEq, Repr

/-- A world slot (R265): its epoch, the index of its root node and the tree. -/
structure World where
  epoch : Nat := 0
  root : Nat := 0
  tree : MapTree := .absent
deriving DecidableEq, Repr

/-- A pinned epoch (R266, R268): the run that pinned it (none for a build), the slot, what it holds, the delta head at
pinning, and whether its deltas are lost. -/
structure MapPin where
  owner : Option Nat
  slot : Nat
  world : World
  head : Nat
  lost : Bool
deriving DecidableEq, Repr

/-- A BUILD_SDF that waits or runs (R272, R292). -/
structure SdfBuild where
  src : Nat
  count : Nat
  slot : Nat
  va : Nat
  begun : Bool
deriving DecidableEq, Repr

/-- The map store: world slots, pins, the delta head, the build, the mode requested by a
command or by Crust and whether a command waits for it, and the mode. -/
structure MapSt where
  worlds : Sparse World := []
  pins : List MapPin := []
  head : Nat := 0
  build : Option SdfBuild := none
  wanted : Option Nat := none
  cmdWaits : Bool := false
deriving DecidableEq, Repr

/-- A pose: position and quaternion, with its stamp (R247, R249). -/
structure PoseSample where
  stamp : Nat
  pos : List Int
  quat : List Int
deriving DecidableEq, Repr

/-- A slot of the fusion engine that runs (R255): its number, status, pose and grid origin (none without a pose), the
samples applied, those applied late, and the lidar mask (R357). -/
structure FusionRun where
  n : Nat
  status : Nat
  pose : Option PoseSample
  origin : List Int
  applied : Nat
  late : Nat
  lidar : Nat
deriving DecidableEq, Repr

/-- The fusion engine: the next slot, the device time of a restart of its owner that no slot has followed (R257), publications taken
from each stream's ring, pose histories, the slot that runs and the publications of its mailbox. -/
structure FusionSt where
  next : Nat := 0
  restart : Option Nat := none
  taken : Sparse Nat := []
  poses : Sparse (List PoseSample) := []
  run : Option FusionRun := none
  pubs : Nat := 0
deriving DecidableEq, Repr

/-! ### Planner and solver (chapters 16 and 17) -/

/-- The most recent PLAN published (R296). -/
structure PrevPlan where
  n : Nat
  lambda : Nat
  index : Nat
  planTime : Nat
  prims : Bytes
  durations : Bytes
deriving DecidableEq, Repr

/-- A batch between its Sieve and its recheck (R285): the run, whether it reads the tree, the world slot, the retained
candidates (cost, index), the counts of CLEAR, HIT, INVALID or LIMIT, node tests, queries, the start block and the candidate
list as read, and its RX_PLAN cycles until an instant, in 1/(16 × 10^6) of a cycle. -/
structure PlanBatch where
  run : Nat
  tree : Bool
  slot : Nat
  retained : List (Nat × Nat)
  clear : Nat
  hit : Nat
  invalid : Nat
  tests : Nat
  queries : Nat
  block : Bytes
  cands : Bytes
  ran : Int
  since : Nat
deriving DecidableEq, Repr

/-- The planner: the previous plan, the instant of the first STOP after it, the batch that runs, and publications. -/
structure PlanSt where
  prev : Option PrevPlan := none
  tStop : Option Nat := none
  batch : Option PlanBatch := none
  pubs : Nat := 0
deriving DecidableEq, Repr

/-- An IC(0) factor (R310): the rows of L below the diagonal (column, value) and D. -/
structure Factor where
  rows : List (List (Nat × Int))
  diag : List Int
deriving DecidableEq, Repr

/-- A set-up of the solver (R304, R311, R312): previous solution, z and y, the front factor, the degraded mark, whether an
output was written, and invocations. -/
structure SolvSetup where
  x : List Int := []
  z : List Int := []
  y : List Int := []
  front : Option Factor := none
  degraded : Bool := false
  valid : Bool := false
  count : Nat := 0
deriving DecidableEq, Repr

/-- A solver operation that runs (R305, R311, R313): the run, the set-up, its start, whether it factorises, and whether
the factorisation was abandoned. -/
structure SolvRun where
  run : Nat
  setup : Nat
  start : Nat
  refactor : Bool
  budgetOut : Bool
deriving DecidableEq, Repr

/-- The solver engine. -/
structure SolvSt where
  setups : Sparse SolvSetup := []
  active : Option SolvRun := none
deriving DecidableEq, Repr

/-! ### Power (chapter 23) -/

/-- The points of a rail (R419 to R424): the point in force, the target, the limits, the direction of a step with its
start, whether the rail is off (R430), the instants from which the next changes of the droop limit and of the thermal limit
count, and since when every sensor of the rail's units has been cool (R433). -/
structure Rail where
  current : Nat := 15
  target : Nat := 15
  capLimit : Nat := 15
  thermLimit : Nat := 15
  droopLimit : Nat := 15
  step : Option (Bool × Nat) := none
  off : Bool := false
  droopAt : Nat := 0
  thermAt : Nat := 0
  coolSince : Option Nat := none
deriving DecidableEq, Repr

/-- What a junction sensor carries between samples (R432, R434): its reading, since when it has not changed, and the
samples in a row at or above the trip. -/
structure Sensor where
  reading : Int := 0
  since : Nat := 0
  trips : Nat := 0
deriving DecidableEq, Repr

/-- What the power controller carries between samples (R136, R422 to R434, R445, R446): the last ten samples, the energy below
1 µJ in units of 0.1 µJ, the instant of the last raise, the last activity of the phases PREFILL, GENERATE and CACHE, the
sensors by 8 × unit + sensor, the last trip of each sensor supply and its last back-feed or reverse, the start of stretching in each domain, and the operating
preferences that a partial load has replaced, with the phases active at its commit, until the next phase transition (R66). -/
structure PowerSt where
  samples : List Nat := []
  energyFrac : Nat := 0
  lastRaise : Option Nat := none
  phaseEnd : Sparse (Option Nat) := []
  sensors : Sparse Sensor := []
  spwrTrip : Sparse (Option Nat) := []
  spwrBack : Sparse (Option Nat) := []
  stretch : Sparse (Option Nat) := []
  oldPref : Option (List Bytes × List Nat) := none
deriving DecidableEq, Repr

/-! ### Resets (chapter 22) -/

/-- A block reset that runs (R414): the die, the block, its mode, and the always-on instant its phase began. -/
structure BlockReset where
  die : Nat
  block : Nat
  sirug : Bool
  since : Nat
deriving DecidableEq, Repr

/-- The reset controller (R403 to R417): the active sources of scope MODULE or FULL by the low digit of their code,
whether an episode runs and whether its scope is FULL, the instant the hold counts from and that of the last release,
the instant THERM became active, the units that tripped, the dies of a DIES reset, the dies whose bring-up step is to be
repeated, the block reset that runs, the reference cycle in which the episode began, and that of the last start by RST_SW_CTRL. -/
structure RstSt where
  active : List Nat := []
  episode : Bool := false
  full : Bool := false
  holdFrom : Nat := 0
  lastRelease : Option Nat := none
  thermAt : Nat := 0
  tripped : List Nat := []
  dies : List Nat := []
  repeatDies : List Nat := []
  blk : Option BlockReset := none
  began : Nat := 0
  swAt : Option Nat := none
deriving DecidableEq, Repr

/-! ### Boot and keys (chapter 21) -/

/-- An authority's key slot as its fuses say (R394): 0 EMPTY, 1 ENROLLED, 2 REVOKED, and the hash.
(log entry 5: DESIGN CHOICE in part) -/
structure KeySlot where
  state : Nat := 0
  hash : Bytes := []
deriving DecidableEq, Repr

/-- What boot firmware reports of the image that runs (R383, R391): slot, digest, version, interface word, counter. -/
structure Firmware where
  slot : Nat := 0
  digest : Bytes := []
  version : Nat := 0
  ifWord : Nat := 0
  counter : Nat := 0
deriving DecidableEq, Repr

/-- The boot controller and the key store (R377 to R401): the NOR, the key slots by 4 × authority + slot, the rollback
count, the next step, the step whose ENTER record stands with whether it takes its alternative and when it began, the
firmware that runs, the instant RX_BOOT was released, an update in progress (slot and image), the end of a debug unlock,
whether debug was unlocked since reset, quotes issued, by die the recent watchdog expiries and the start of a restart, and the
quote that is being formed, with the BAR2 offset it goes to. (log entry 5: DESIGN CHOICE in part) -/
structure BootSt where
  nor : Sparse (BitVec 8) := []
  keys : Sparse KeySlot := []
  rollback : Nat := 0
  next : Nat := 1
  entered : Option (Nat × Bool × Nat) := none
  fw : Option Firmware := none
  relAt : Nat := 0
  update : Option (Nat × Bytes) := none
  unlockEnd : Option Nat := none
  unlocked : Bool := false
  quotes : Nat := 0
  wdog : Sparse (List Nat) := []
  restart : Sparse (Option Nat) := []
  quote : Option (Nat × Bytes) := none
deriving DecidableEq, Repr

/-- A sequence that an invocation or a schedule of a context has appended to and that is not settled (R134, R145). -/
structure KvTouch where
  ctx : Nat
  inv : Option Nat
  seq : Nat
deriving DecidableEq, Repr

/-! ### The whole state -/

/-- The state of the block. `pending` is the queue of waiting commands; `freeCtr` counts the free values handed out;
every other field is state that the spec gives the module. -/
structure State where
  pending : List Instr
  freeCtr : Nat
  answer : Bytes
  regs : Sparse Word
  latches : List PairHalf
  staged : List PairHalf
  phys : Memory
  hostMem : Sparse (BitVec 8)
  devTime : Nat
  mono : Nat
  layout : Option Layout
  safetyDigest : Bytes
  load : Option Load
  ctxs : Sparse Ctx
  queues : Sparse Queue
  invs : List Invocation
  runs : List Run
  nextRun : Nat
  syncs : Sparse Nat
  msix : List Nat
  msixTable : Sparse Word
  msixPending : List Nat
  endpoint : Endpoint
  proposal : Option Word
  maps : List Mapping
  seqLinks : List (Nat × Nat)
  nextAlloc : Nat
  tierPending : Option TierPending
  flash : FlashStore
  kv : Sparse KvEntry
  kvPages : Sparse (Option Nat)
  kvPending : Option KvPending
  kvTouched : List KvTouch
  seqSlots : Sparse SeqSlot
  seqTags : Sparse Nat
  seqCmds : Sparse (Option SeqCmd)
  dieSkew : Sparse Nat
  dieLag : Sparse Int
  tlb : Sparse (List TlbEntry)
  requests : List Request
  nextReq : Nat
  windows : Sparse BudgetWindow
  ports : PortsSt
  loops : LoopsSt
  crust : CrustSt
  map : MapSt
  fusion : FusionSt
  plan : PlanSt
  solv : SolvSt
  diesPresent : Nat
  linkMods : List Nat
  held : List Nat
  proofRunning : Bool
  rails : List Rail
  power : PowerSt
  rst : RstSt
  boot : BootSt
deriving DecidableEq, Repr

/-- The machine right after a power-on reset, before bring-up: every register at its reset value, no layout, memory
with nothing listed, an empty queue. -/
def State.reset : State where
  pending := []
  freeCtr := 0
  answer := []
  regs := []
  latches := []
  staged := []
  phys := ⟨[], [], []⟩
  hostMem := []
  devTime := 0
  mono := 0
  layout := none
  safetyDigest := []
  load := none
  ctxs := []
  queues := []
  invs := []
  runs := []
  nextRun := 0
  syncs := []
  msix := []
  msixTable := []
  msixPending := []
  endpoint := {}
  proposal := none
  maps := []
  seqLinks := []
  nextAlloc := 0
  tierPending := none
  flash := ⟨[], [], [], [], [], [], [], Config.flashFactoryBad, [], [], 0, 0⟩
  kv := []
  kvPages := []
  kvPending := none
  kvTouched := []
  seqSlots := []
  seqTags := []
  seqCmds := []
  dieSkew := []
  dieLag := []
  tlb := []
  requests := []
  nextReq := 0
  windows := []
  ports := {}
  loops := {}
  crust := {}
  map := {}
  fusion := {}
  plan := {}
  solv := {}
  diesPresent := 3
  linkMods := [0, 0, 0, 0, 0]
  held := []
  proofRunning := false
  rails := List.replicate 8 {}
  power := {}
  rst := {}
  boot := {}

end Sys2Proof.Machine
end

