-- ==== Sys2Proof/Machine/Ops.lean ====
section
/-! DEFINITION. The named operations over registers, memory, time, sync objects, layouts and translation that the
meanings share. -/

namespace Sys2Proof.Machine

/-! ### Registers -/

/-- The word index of an offset in a register or array of registers. -/
def famWord (f : RegFam) (off : Nat) : Option Nat :=
  if off < f.base then none
  else
    let r := off - f.base
    if f.count ≤ r / f.stride then none
    else
      let q := r % f.stride
      if f.count2 = 1 then (if q < 4 * f.words then some (q / 4) else none)
      else if f.count2 ≤ q / f.stride2 then none
      else
        let u := q % f.stride2
        if u < 4 * f.words then some (u / 4) else none

/-- The register at a BAR0 offset, and which of its words (R22 to R24). -/
def regAt (a : Nat) : Option (RegFam × Nat) :=
  let die := a / 0x1000000
  let off := a % 0x10000
  (regFamilies (a / 0x10000 % 0x100)).findSome? (fun f =>
    if f.dies.contains die then (famWord f off).map (fun w => (f, w)) else none)

/-- The bits of a register's fields with an access code, in one of its words. -/
def accMask (f : RegFam) (w : Nat) (acc : Acc) : Word :=
  BitVec.ofNat 32 ((f.fields.foldl (fun m x =>
    if x.acc = acc then m + 2 ^ x.lo * (2 ^ x.width - 1) else m) 0) / 2 ^ (32 * w))

/-- The reset value at a BAR0 offset: what an unlisted register reads as. (log entry 5: DESIGN CHOICE in part) -/
def resetOf (a : Nat) : Word :=
  match regAt a with
  | none => 0
  | some (f, w) =>
    BitVec.ofNat 32 ((f.fields.foldl (fun m x => m + 2 ^ x.lo * (x.reset % 2 ^ x.width)) 0) / 2 ^ (32 * w))

/-- The stored value of a register. -/
def State.reg (s : State) (a : Nat) : Word := Sparse.get resetOf s.regs a

/-- The state with a register at a value. -/
def State.setReg (s : State) (a : Nat) (v : Word) : State := { s with regs := Sparse.put resetOf s.regs a v }

/-- The value of a pair of registers, low half first (R5). -/
def State.reg64 (s : State) (a : Nat) : Nat := (s.reg a).toNat + 2 ^ 32 * (s.reg (a + 4)).toNat

/-- The state with a pair of registers at a value. -/
def State.setReg64 (s : State) (a v : Nat) : State :=
  (s.setReg a (BitVec.ofNat 32 v)).setReg (a + 4) (BitVec.ofNat 32 (v / 2 ^ 32))

/-- The value of a field. -/
def State.fld (s : State) (f : Fld) : Nat :=
  if f.lo + f.width ≤ 32 then bits (s.reg f.addr).toNat f.lo f.width else bits (s.reg64 f.addr) f.lo f.width

/-- The state with a field at a value. -/
def State.setFld (s : State) (f : Fld) (v : Nat) : State :=
  if f.lo + f.width ≤ 32 then s.setReg f.addr (BitVec.ofNat 32 (setBits (s.reg f.addr).toNat f.lo f.width v))
  else s.setReg64 f.addr (setBits (s.reg64 f.addr) f.lo f.width v)

/-- True where a one-bit field is set. -/
def State.flag (s : State) (f : Fld) : Bool := s.fld f == 1

/-- A 64-bit counter register advanced. -/
def State.count64 (s : State) (a n : Nat) : State := s.setReg64 a ((s.reg64 a + n) % 2 ^ 64)

/-- The latches or staged halves without that of a requester on a pair (R5). -/
def dropHalf (ps : List PairHalf) (who : Requester) (low : Nat) : List PairHalf :=
  ps.filter (fun p => !(p.who == who && p.low == low))

/-- The registers of a block at their reset values, with their latches and staged halves discarded (R5, R414). -/
def State.resetBlock (s : State) (die block : Nat) : State :=
  let keep := fun (a : Nat) => !(a / 0x1000000 == die && a / 0x10000 % 0x100 == block)
  { s with
    regs := s.regs.filter (fun p => keep p.1)
    latches := s.latches.filter (fun p => keep p.low)
    staged := s.staged.filter (fun p => keep p.low) }

/-! ### Free values -/

/-- The next `n` free bytes (log entry 6). -/
def State.freeBytes (s : State) (n : Nat) : Bytes := (List.range n).map (fun i => Config.freeByte (s.freeCtr + i))

/-- One of a list of status codes: the one a command ends with where the spec names none (R13: an assigned code of the
subject). (log entry 6: DESIGN CHOICE in part) -/
def State.freeCode (s : State) (codes : List Nat) : Nat := codes.getD (Config.freeNat s.freeCtr % codes.length) 0

/-- The state after `n` free values have been handed out. (log entry 6: DESIGN CHOICE in part) -/
def State.useFree (s : State) (n : Nat) : State := { s with freeCtr := s.freeCtr + n }

/-! ### Time -/

/-- Device time in ns (R216): the whole part of the time base, whose unit is 1/(80 × 10^9) ns.
(log entry 42: DESIGN CHOICE in part) -/
def State.now (s : State) : Nat := s.devTime / 80000000000

/-- How far a die's copy of device time lags behind the steps that it has not yet adopted (R218).
(log entry 10: DESIGN CHOICE in part; log entry 42: DESIGN CHOICE in part) -/
def State.lag (s : State) (die : Nat) : Int := Sparse.get (fun _ => 0) s.dieLag die

/-- A die's own copy of device time (R19): the Reflex die's, and on the other dies within 8 ns of it, by an offset that
each realignment leaves open; a step of device time reaches it at the next realignment (R218).
(log entry 10: DESIGN CHOICE in part) -/
def State.localNow (s : State) (die : Nat) : Nat :=
  if die = 0 then s.now
  else ((s.now : Int) + (Config.dieSkew (Sparse.get (fun _ => 0) s.dieSkew die) % 17 : Nat) - 8 + s.lag die).toNat

/-- The 16-bit fraction of a nanosecond of device time (R216). (log entry 42: DESIGN CHOICE in part) -/
def State.nowFrac (s : State) : Nat := s.devTime % 80000000000 * 65536 / 80000000000

/-- Nanoseconds of the always-on time base, which nothing steps. -/
def State.monoNs (s : State) : Nat := s.mono / 10

/-- The cycle of the 25 MHz reference that an instant lies in (R20, R409). -/
def State.refCycle (s : State) : Nat := s.mono / 400

/-! ### Physical memory -/

/-- One byte of physical memory. (log entry 4: DESIGN CHOICE in part) -/
def State.byteAt (s : State) (a : Nat) : BitVec 8 := Sparse.get (memDefault s.phys.fills) s.phys.cells a

/-- The watched ranges of memory after a write of a range (R305). (log entry 56: DEDUCED in part) -/
def Memory.touch (m : Memory) (base len : Nat) : List Watch :=
  m.watch.map (fun w =>
    { w with written := w.written || (decide (0 < len) && decide (base < w.base + w.len) && decide (w.base < base + len)) })

/-- Physical memory with one byte written. -/
def State.setByte (s : State) (a : Nat) (b : BitVec 8) : State :=
  { s with phys := { s.phys with cells := Sparse.put (memDefault s.phys.fills) s.phys.cells a b, watch := s.phys.touch a 1 } }

/-- `n` bytes of physical memory. -/
def State.readPhys (s : State) (a n : Nat) : Bytes := (List.range n).map (fun i => s.byteAt (a + i))

/-- Physical memory with a byte string written. -/
def State.writePhys (s : State) (a : Nat) : Bytes → State
  | [] => s
  | b :: bs => (s.setByte a b).writePhys (a + 1) bs

/-- A range of memory filled: nothing listed in it, and its unlisted bytes as the fill says.
(log entry 4: DESIGN CHOICE in part) -/
def Memory.fill (m : Memory) (f : Fill) : Memory :=
  { cells := m.cells.filter (fun c => !f.covers c.1)
    fills := f :: m.fills.filter (fun g => !(f.base ≤ g.base && g.base + g.len ≤ f.base + f.len))
    watch := m.touch f.base f.len }

/-- A range of physical memory zeroed (R177). (log entry 4: DESIGN CHOICE in part) -/
def State.zeroRange (s : State) (base len : Nat) : State := { s with phys := s.phys.fill ⟨base, len, 0⟩ }

/-- A range of physical memory whose contents are undefined from here on (R80, R101, R135, R406).
(log entry 4: DESIGN CHOICE in part) -/
def State.undefRange (s : State) (base len : Nat) : State :=
  { s with phys := s.phys.fill ⟨base, len, s.freeCtr + 1⟩, freeCtr := s.freeCtr + 1 }

/-- Several ranges made undefined. -/
def State.undefRanges (s : State) : List (Nat × Nat) → State
  | [] => s
  | (b, n) :: rs => (s.undefRange b n).undefRanges rs

/-- The physical address of a die-local address (R107, R175). -/
def dieLocal (die x : Nat) : Nat := 0x2000000000 + die * 0x100000000 + x

/-- `n` bytes at a die-local address. -/
def State.readDie (s : State) (die x n : Nat) : Bytes := s.readPhys (dieLocal die x) n

/-- A byte string written at a die-local address. -/
def State.writeDie (s : State) (die x : Nat) (bs : Bytes) : State := s.writePhys (dieLocal die x) bs

/-- One byte of host memory, which the device reaches through PCI Express. (log entry 4: DESIGN CHOICE in part) -/
def State.hostByte (s : State) (a : Nat) : BitVec 8 := Sparse.get (fun _ => 0) s.hostMem a

/-- `n` bytes of host memory. -/
def State.readHost (s : State) (a n : Nat) : Bytes := (List.range n).map (fun i => s.hostByte (a + i))

/-- Host memory with a byte string written. -/
def State.writeHost (s : State) (a : Nat) : Bytes → State
  | [] => s
  | b :: bs => { s with hostMem := Sparse.put (fun _ => 0) s.hostMem a b }.writeHost (a + 1) bs

/-- True where a physical address names memory that exists (R175). (log entry 40: DEDUCED in part) -/
def physExists (a : Nat) : Bool :=
  a < 0x1200000000 || (0x3000000000 ≤ a && a < 0x3020000000) ||
    (0x2000000000 ≤ a && a < 0x2500000000 &&
      let die := (a - 0x2000000000) / 0x100000000
      let x := (a - 0x2000000000) % 0x100000000
      let shared := [56, 256, 64, 32, 32].getD die 0 * 0x100000
      let tiles := [8, 0, 16, 48, 48].getD die 0
      let tile := [1, 0, 4, 2, 2].getD die 0 * 0x100000
      x < shared || (0x08000000 ≤ x && (x - 0x08000000) / 0x400000 < tiles && (x - 0x08000000) % 0x400000 < tile))

/-- True where a physical address is memory of the Reflex die (R18). -/
def physDie0 (a : Nat) : Bool := (0x2000000000 ≤ a && a < 0x2100000000) || 0x3000000000 ≤ a

/-! ### Contexts, queues, entries -/

/-- The state of a context. -/
def State.ctx (s : State) (k : Nat) : Ctx := Sparse.get (fun _ => {}) s.ctxs k

/-- The state with a context at a value. -/
def State.setCtx (s : State) (k : Nat) (c : Ctx) : State := { s with ctxs := Sparse.put (fun _ => {}) s.ctxs k c }

/-- The queue of a context. -/
def State.queue (s : State) (k : Nat) : Queue := Sparse.get (fun _ => {}) s.queues k

/-- The state with a queue at a value. -/
def State.setQueue (s : State) (k : Nat) (q : Queue) : State :=
  { s with queues := Sparse.put (fun _ => {}) s.queues k q }

/-- A length-table entry (R142). -/
def State.kvEntry (s : State) (q : Nat) : KvEntry := Sparse.get (fun _ => {}) s.kv q

/-- The state with a length-table entry at a value. -/
def State.setKv (s : State) (q : Nat) (e : KvEntry) : State := { s with kv := Sparse.put (fun _ => {}) s.kv q e }

/-- The run with an identifier. -/
def State.run? (s : State) (r : Nat) : Option Run := s.runs.find? (fun x => x.id == r)

/-- The state with a run in place of the one with its identifier. -/
def State.setRun (s : State) (r : Run) : State := { s with runs := s.runs.map (fun x => if x.id = r.id then r else x) }

/-- A slot of a sequence engine: 64 to an engine, 256 to a die. -/
def State.seqSlot (s : State) (key : Nat) : SeqSlot := Sparse.get (fun _ => {}) s.seqSlots key

/-- The state with a slot at a value. -/
def State.setSlot (s : State) (key : Nat) (x : SeqSlot) : State :=
  { s with seqSlots := Sparse.put (fun _ => {}) s.seqSlots key x }

/-- The command of a die's sequence engines. -/
def State.seqCmd (s : State) (die : Nat) : Option SeqCmd := Sparse.get (fun _ => none) s.seqCmds die

/-- The state with a die's command at a value. -/
def State.setSeqCmd (s : State) (die : Nat) (c : Option SeqCmd) : State :=
  { s with seqCmds := Sparse.put (fun _ => none) s.seqCmds die c }

/-! ### Layouts (chapter 03) -/

/-- The section of a type. -/
def Layout.section? (l : Layout) (t : Nat) : Option Section := l.sections.find? (fun x => x.type == t)

/-- The records of a section, none where the layout has no such section. -/
def Layout.recs (l : Layout) (t : Nat) : List Bytes := (l.section? t).elim [] (·.records)

/-- The blob of a section. -/
def Layout.blob (l : Layout) (t : Nat) : Bytes := (l.section? t).elim [] (·.blob)

/-- The records of the active layout. -/
def State.recs (s : State) (t : Nat) : List Bytes := s.layout.elim [] (fun l => l.recs t)

/-- The blob of a section of the active layout. -/
def State.blob (s : State) (t : Nat) : Bytes := s.layout.elim [] (fun l => l.blob t)

/-- The CONTEXTS record of a context. -/
def Layout.ctxRec (l : Layout) (k : Nat) : Option Bytes := (l.recs 1).find? (fun r => fieldAt r 0 1 == k)

/-- True where the active layout holds a context. -/
def State.holds (s : State) (k : Nat) : Bool := s.layout.elim false (fun l => (l.ctxRec k).isSome)

/-- The default class of a context. -/
def State.defaultClass (s : State) (k : Nat) : Nat := (s.layout.bind (fun l => l.ctxRec k)).elim 0 (fun r => fieldAt r 1 1)

/-- A share: owner, die, kind, engine, first and count (R69). -/
structure Share where
  ctx : Nat
  die : Nat
  kind : Nat
  engine : Nat
  first : Nat
  count : Nat
deriving DecidableEq, Repr

/-- The share of a SHARES record. (log entry 17: DESIGN CHOICE in part) -/
def shareOf (r : Bytes) : Share :=
  ⟨fieldAt r 0 1, fieldAt r 1 1, fieldAt r 2 1, fieldAt r 3 1, fieldAt r 4 4, fieldAt r 8 4⟩

/-- The shares of a context on a die of a kind, in record order. -/
def Layout.sharesOf (l : Layout) (k die kind : Nat) : List Share :=
  ((l.recs 2).map shareOf).filter (fun h => h.ctx == k && h.die == die && h.kind == kind)

/-- Index `i` of a list of shares taken as one: the index on the die. -/
def shareIndex : List Share → Nat → Option Nat
  | [], _ => none
  | h :: hs, i => if i < h.count then some (h.first + i) else shareIndex hs (i - h.count)

/-- The number of units in a list of shares. -/
def shareCount (hs : List Share) : Nat := (hs.map (·.count)).sum

/-- The PROGRAMS record of a programme. -/
def Layout.progRec (l : Layout) (p : Nat) : Option Bytes := (l.recs 4).find? (fun r => fieldAt r 2 2 == p)

/-- The 64-byte operation descriptors of a programme. -/
def Layout.progOps (l : Layout) (p : Nat) : List Bytes :=
  match l.progRec p with
  | none => []
  | some r => chunks 64 (fieldAt r 8 4 / 64) (slice (l.blob 4) (fieldAt r 4 4) (fieldAt r 8 4))

/-- The traffic class of a programme: its own, or its context's default class. -/
def Layout.progClass (l : Layout) (p : Nat) : Nat :=
  match l.progRec p with
  | none => 0
  | some r => if fieldAt r 14 1 = 255 then ((l.ctxRec (fieldAt r 0 1)).elim 0 (fun c => fieldAt c 1 1)) else fieldAt r 14 1

/-- The SCHEDULES record of a context. -/
def Layout.schedRec (l : Layout) (k : Nat) : Option Bytes := (l.recs 3).find? (fun r => fieldAt r 0 1 == k)

/-- The 16-byte steps of a schedule. -/
def Layout.schedSteps (l : Layout) (k : Nat) : List Bytes :=
  match l.schedRec k with
  | none => []
  | some r => chunks 16 (fieldAt r 0x14 4) (slice (l.blob 3) (fieldAt r 0x18 4) (16 * fieldAt r 0x14 4))

/-- The SYNCMAP record of a layout sync ID. -/
def Layout.syncRec (l : Layout) (i : Nat) : Option Bytes := (l.recs 0x10).find? (fun r => fieldAt r 2 2 == i)

/-- The key of a sync object: its die and hardware index. -/
def syncKey (die idx : Nat) : Nat := die * 4096 + idx

/-- The key of the object a layout sync ID names. -/
def Layout.syncObj (l : Layout) (i : Nat) : Option Nat :=
  (l.syncRec i).bind (fun r =>
    (shareIndex (l.sharesOf (fieldAt r 0 1) (fieldAt r 1 1) 4) (fieldAt r 4 2)).map (syncKey (fieldAt r 1 1)))

/-- The die of a clock domain (R20). -/
def domainDie (d : Nat) : Nat := if d < 14 then 0 else if d < 22 then 1 else if d < 28 then 2 else if d < 34 then 3 else 4

/-- The rail of a clock domain (R20). -/
def domainRail (d : Nat) : Nat :=
  if d < 3 then 0 else if d < 14 then 1 else if d = 17 ∨ d = 18 then 6 else if d < 22 then 2 else if d < 28 then 3
  else if d < 34 then 4 else 5

/-! ### Clocks (R20, R419 to R421) -/

/-- A rail. -/
def State.rail (s : State) (r : Nat) : Rail := s.rails.getD r {}

/-- The state with a rail at a value. -/
def State.setRail (s : State) (r : Nat) (x : Rail) : State := { s with rails := s.rails.set r x }

/-- The nominal clock of a domain in kHz (R20); none for the link domains, whose clock in MHz the spec does not give.
(log entry 72: DEDUCED in part) -/
def nominalKhz (d : Nat) : Option Nat :=
  [some 100000, some 200000, some 500000, some 800000, some 1000000, none, some 200000, some 562500, some 312500, some 1000000,
    some 1400000, some 1000000, some 700000, some 1400000, some 800000, some 1200000, some 1200000, some 1200000, some 1200000,
    none, some 1000000, some 600000, some 800000, some 1200000, none, some 1400000, some 1400000, some 1400000, some 800000,
    some 1200000, none, some 1400000, some 1400000, some 1400000, some 800000, some 1200000, none, some 1400000, some 1400000,
    some 1400000].getD d none

/-- True for the domains that keep their nominal clock at every point (R420). -/
def keepsClock (d : Nat) : Bool := [0, 1, 2, 5, 7, 8, 19, 24, 30, 36].contains d

/-- F_top of a rail in kHz (R419). -/
def topKhz (r : Nat) : Nat := if r = 2 ∨ r = 6 then 1200000 else 1400000

/-- The clock of a domain at a point, in kHz times 16 (R420). (log entry 72: DEDUCED in part) -/
def clockAt (d p : Nat) : Option Nat :=
  (nominalKhz d).map (fun n => if keepsClock d then 16 * n else min (16 * n) (topKhz (domainRail d) * (p + 1)))

/-- The point whose clocks a rail's domains run at: the lower of the old and the new while a step is in progress (R421). -/
def Rail.clockPoint (x : Rail) : Nat := match x.step with | some (false, _) => x.current - 1 | _ => x.current

/-- The clock of a domain now, in kHz times 16; 1 for the link domains, in which nothing is counted.
(log entry 72: DEDUCED in part) -/
def State.clock16 (s : State) (d : Nat) : Nat := (clockAt d (s.rail (domainRail d)).clockPoint).getD 1

/-! ### Sync objects (R99) -/

/-- The value of a sync object. -/
def State.sync (s : State) (k : Nat) : Nat := Sparse.get (fun _ => 0) s.syncs k

/-- The state with a sync object at a value. -/
def State.setSync (s : State) (k v : Nat) : State := { s with syncs := Sparse.put (fun _ => 0) s.syncs k v }

/-- The value of the object a layout sync ID names. -/
def State.syncValue (s : State) (i : Nat) : Nat := ((s.layout.bind (fun l => l.syncObj i)).elim 0 s.sync)

/-! ### Dies and requests -/

/-- True where a die answers on the bus: present, not held in reset, and with an active link module (R25).
(log entry 13: DEDUCED in part) -/
def State.dieUp (s : State) (die : Nat) : Bool :=
  s.diesPresent.testBit die && !s.held.contains ([4, 15, 23, 29, 35].getD die 0) &&
    (die == 1 || decide (0 < s.linkMods.getD die 0))

/-- True unless a block reset runs on a block (R414): work newly addressed to it waits.
(log entry 13: DEDUCED in part) -/
def State.blkOpen (s : State) (die block : Nat) : Bool :=
  !(s.rst.blk.elim false (fun b => b.die == die && b.block == block))

/-- The block whose engine runs an operation (R127, R149, R413). -/
def opBlock (opcode : Nat) : Nat :=
  if opcode ≤ 3 then 0x0A else if opcode < 0x20 then 0x68 else if opcode < 0x30 then 0x69 else if opcode < 0x40 then 0x0B
  else if opcode = 0x41 ∨ opcode = 0x42 then 0x60 else if opcode < 0x60 then 0x0C
  else if opcode < 0x70 then 0x29 else 0x2A

/-- The blocks that an operation of a run on a die is addressed to, by die (R414): its engine, and the key-value cache manager for
those that change the length table (R128, R129, R132, R143). (log entry 70: DEDUCED in part) -/
def opBlocks (opcode die : Nat) : List (Nat × Nat) :=
  (die, opBlock opcode) :: (if [0x40, 0x41, 0x42, 0x50].contains opcode then [(1, 0x41)] else [])

/-- The blocks that BAR0 serves in recovery (R388). (log entry 13: DEDUCED in part) -/
def recoveryBlock (die block : Nat) : Bool :=
  if die = 0 then block == 0 || block == 0x20 || block == 0x2F || block == 0x30
  else die == 1 && (block == 0 || block == 0x44 || block == 0x45)

/-- Activity of a phase noted (R136): 0 PREFILL, 1 GENERATE, 2 CACHE. (log entry 72: DEDUCED in part) -/
def State.noteActive (s : State) (phase : Nat) : State :=
  { s with power := { s.power with phaseEnd := Sparse.put (fun _ => none) s.power.phaseEnd phase (some s.monoNs) } }

/-- Activity of a run on a die noted. -/
def State.noteDie (s : State) (die : Nat) : State := if 3 ≤ die then s.noteActive 0 else if die = 2 then s.noteActive 1 else s

/-- True while the device accepts doorbells and loader starts (R91): READY or CONTROL_PLANE_RESTARTING.
(log entry 13: DEDUCED in part) -/
def State.hostReady (s : State) : Bool :=
  s.fld Fld.HQ_DEV_STATE_state == 2 || s.fld Fld.HQ_DEV_STATE_state == 3

end Sys2Proof.Machine
end

