-- ==== Sys2Proof/Machine/Flags.lean ====
section
/-! DEFINITION. Event bits and their companion counters (R7, R8), interrupts, and the arithmetic events of R51: the
block's flag computations. -/

namespace Sys2Proof.Machine

/-- A hardware set of a WC status bit: the bit is 1 and its 16-bit companion counter advances, wrapping (R8). -/
def State.event (s : State) (e : Evt) : State :=
  let s1 := s.setReg e.status (s.reg e.status ||| BitVec.ofNat 32 (2 ^ e.bit))
  s1.setReg e.counter (BitVec.ofNat 32 (((s1.reg e.counter).toNat + 1) % 65536))

/-- The event where a condition holds. -/
def State.eventIf (s : State) (c : Bool) (e : Evt) : State := if c then s.event e else s

/-- `n` sets of one event. -/
def State.eventTimes (s : State) (e : Evt) : Nat → State
  | 0 => s
  | n + 1 => (s.event e).eventTimes e n

/-- What a doubleword of the MSI-X table holds before it is written: a vector-control word has its mask bit set.
(log entry 75: DEDUCED in part) -/
def msixDefault (a : Nat) : Word := if a % 4 = 3 then 1 else 0

/-- True where the MSI-X table masks a vector. (log entry 75: DEDUCED in part) -/
def State.msixMasked (s : State) (v : Nat) : Bool := (Sparse.get msixDefault s.msixTable (4 * v + 3)).getLsbD 0

/-- An MSI-X vector raised (R87, R98): its message is sent, or it is pending while the table masks it.
(log entry 75: DEDUCED in part) -/
def State.raise (s : State) (v : Nat) : State :=
  { s with
    msix := if s.msixMasked v then s.msix else s.msix ++ [v]
    msixPending := if s.msixMasked v && !s.msixPending.contains v then s.msixPending ++ [v] else s.msixPending }

/-- A host-interface event: its bit and counter, and the vector of HQ_EVT_VEC when the bit is enabled (R104). -/
def State.hqEvent (s : State) (e : Evt) : State :=
  let s1 := s.event e
  if s1.flag Fld.HQ_EVT_VEC_irq_en && (s1.fld Fld.HQ_EVT_VEC_mask).testBit e.bit
  then s1.raise (s1.fld Fld.HQ_EVT_VEC_msix) else s1

/-- A report to Crust of an event with its source (R346). (log entry 32: DEDUCED in part) -/
def State.report (s : State) (event source : Nat) : State := { s with crust := { s.crust with reports := s.crust.reports ++ [(event, source)] } }

/-- The arithmetic events of a completed operation on a die (R51). (log entry 29: DEDUCED in part) -/
def State.satEvents (s : State) (die : Nat) (e : SatEvents) : State :=
  let s1 := (s.eventIf e.acc (Ev.MON_SAT_STATUS_acc die)).eventIf e.out (Ev.MON_SAT_STATUS_out die)
  let s2 := (s1.eventIf e.scale (Ev.MON_SAT_STATUS_scale die)).eventIf e.func (Ev.MON_SAT_STATUS_func die)
  s2.count64 (Reg.MON_SAT_ELEMS die) e.elems

/-- A signal of a sync object by an amount: it saturates at 2^64 - 1 and then sets sync_overflow (R99). -/
def State.signal (s : State) (k amount : Nat) : State :=
  if s.sync k + amount < 2 ^ 64 then s.setSync k (s.sync k + amount)
  else (s.setSync k (2 ^ 64 - 1)).hqEvent Ev.HQ_EVT_STATUS_sync_overflow

/-- A signal of the object a layout sync ID names; 0xFFFF names none. -/
def State.signalId (s : State) (i amount : Nat) : State :=
  match s.layout.bind (fun l => l.syncObj i) with
  | none => s
  | some k => s.signal k amount

/-- How a BAR0 access of the host to a block ends: 0 served, 1 answered under R25 and counted (also while a block reset runs
on the block, R414), 2 completed without effect (the Cache die itself held, or a block that recovery does not serve, R388).
(log entry 13: DEDUCED in part) -/
def State.hostAccess (s : State) (die block : Nat) : Nat :=
  if s.held.contains 15 then 2
  else if !s.dieUp die || !s.blkOpen die block then 1
  else if s.fld Fld.BOOT_STATUS_state == 3 && !recoveryBlock die block then 2
  else 0

/-- A register write by a requester to a block. A host write has no effect in REFUSED (R91) except on the RST block and the
ROM update service, whose writes come with `always`. (log entry 13: DEDUCED in part; log entry 75: DEDUCED in part) -/
def State.busWrite (s : State) (who : Requester) (die block : Nat) (always : Bool) (f : State → State) : State :=
  match who with
  | .host =>
    if s.hostAccess die block = 1 then s.hqEvent Ev.HQ_EVT_STATUS_bar0_absent
    else if s.hostAccess die block = 2 ∨ (s.fld Fld.HQ_DEV_STATE_state = 4 ∧ always = false) then s
    else f s
  | _ => if s.blkOpen die block then f s else s

end Sys2Proof.Machine
end

