-- ==== Sys2Proof/Machine/Translate.lean ====
section
/-! DEFINITION. Translation of context virtual addresses (R180 to R187), the masters it distinguishes, and reads and
writes through it. -/

namespace Sys2Proof.Machine

/-- Who accesses: an engine on a die, the tier manager or a host BAR2 access (both of R18's list), or another master of
the Cache die. -/
inductive Master
  | engine (die : Nat)
  | tierManager
  | host
  | cacheOther
deriving DecidableEq, Repr

/-- What an access does to an entry with writable = 0: only engine writes fault (R176, R186). -/
inductive Access | read | engineWrite | transferWrite
deriving DecidableEq, Repr

/-- Where an address leads: physical memory, or a byte of the flash store. -/
inductive Target
  | phys (a : Nat)
  | flash (a : Nat)
deriving DecidableEq, Repr

/-- The byte a run of extents holds at an offset; extents count units of `u` bytes. -/
def extentByte (u : Nat) : List (Nat × Nat) → Nat → Nat
  | [], _ => 0
  | (b, n) :: es, off => if off < n * u then b * u + off else extentByte u es (off - n * u)

/-- The mapping of a context's root that covers an address. -/
def State.mapping? (s : State) (ctx va : Nat) : Option Mapping :=
  s.maps.find? (fun m => m.ctx == ctx && m.va ≤ va && va < m.va + m.len)

/-- The sequence linked into a context's root over an address (R183). -/
def State.linkedSeq? (s : State) (ctx va : Nat) : Option Nat :=
  (s.seqLinks.find? (fun p => p.1 == ctx && (s.kvEntry p.2).base == va / 0x100000000)).map (·.2)

/-- The physical page that a sequence's table set maps at a 64 KiB page of its range (R148). -/
def State.kvPage (s : State) (q page : Nat) : Option Nat := Sparse.get (fun _ => none) s.kvPages (q * 65536 + page)

/-- True where an accepted FREE or UNLINK_SEQ waits for an address of a root: accesses issued since then fault (R179). -/
def State.unmapPending (s : State) (ctx va : Nat) : Bool :=
  match s.tierPending with
  | none => false
  | some p =>
    p.ctx == ctx && (if p.op = 2 then p.va ≤ va && va < p.va + p.len
      else (s.kvEntry (p.aux % 4096)).base == va / 0x100000000 && (s.mapping? ctx va).isNone)

/-- Translation of one address (R180 to R186): the target, or the fault code. (log entry 76: DESIGN CHOICE in part) -/
def State.translate (s : State) (who : Master) (acc : Access) (ctx va : Nat) : Except Nat Target :=
  if 2 ^ 48 ≤ va then .error 0x0201
  else if s.unmapPending ctx va then .error 0x0201
  else
    match s.mapping? ctx va with
    | some m =>
      if acc = .engineWrite && m.flags.testBit 5 then .error 0x0202
      else if m.tier = 2 then .ok (.flash (extentByte 65536 m.extents (va - m.va)))
      else
        let p := extentByte 1 m.extents (va - m.va)
        if physDie0 p && !(who = .engine 0 || who = .tierManager || who = .host) then .error 0x0203 else .ok (.phys p)
    | none =>
      match s.linkedSeq? ctx va with
      | none => .error 0x0201
      | some q =>
        match s.kvPage q (va % 0x100000000 / 65536) with
        | none => .error 0x0201
        | some p => .ok (.phys (p + va % 65536))

/-! ### Translation entries (R180 to R183) -/

/-- Bytes of a page-size code (R178). -/
def pageBytes (p : Nat) : Nat := if p = 0 then 4096 else if p = 1 then 65536 else 2097152

/-- The 8 bytes of a valid translation entry (R181): `target` is the value of its target field. -/
def entryWord (kind : Nat) (size64 writable locked : Bool) (tier target : Nat) : Nat :=
  1 + 2 * kind + 8 * b2n size64 + 16 * b2n writable + 32 * b2n locked + 64 * tier + 4096 * target

/-- The shift of the address bits that index a table of a level (R180). -/
def levelShift (level : Nat) : Nat := 39 - 9 * level

/-- The tables under a root that map a range, down to a level: root, level and number (the address over the table's span). -/
def tablesUnder (root va len depth : Nat) : List (Nat × Nat × Nat) :=
  (List.range depth).flatMap (fun i =>
    let n := levelShift i
    (List.range ((va + len - 1) / 2 ^ n + 1 - va / 2 ^ n)).map (fun j => (root, i + 1, va / 2 ^ n + j)))

/-- The tables of the table region (R180, R183): a root for each context, the tables under it, and the table set of each
sequence, whose root is 64 more than its number. The place of a table in this list is its place in the region.
(log entry 76: DESIGN CHOICE in part) -/
def State.tables (s : State) : List (Nat × Nat × Nat) :=
  let roots : List (Nat × Nat × Nat) := (s.recs 1).map (fun r => (fieldAt r 0 1, 0, 0))
  let maps := s.maps.flatMap (fun m => tablesUnder m.ctx m.va m.len (if m.page = 2 then 2 else 3))
  let links := s.seqLinks.flatMap (fun p => tablesUnder p.1 ((s.kvEntry p.2).base * 0x100000000) 0x100000000 1 ++
    (List.range 4).map (fun j => (64 + p.2, 2, j)))
  let pages := s.kvPages.map (fun p => (64 + p.1 / 65536, 3, p.1 % 65536 / 32))
  (roots ++ maps ++ links ++ pages).eraseDups

/-- The physical address of a table (R175). (log entry 76: DESIGN CHOICE in part) -/
def State.tableAddr (s : State) (t : Nat × Nat × Nat) : Nat := 0x11E4000000 + 4096 * s.tables.idxOf t

/-- True for a context whose entries are locked in the buffers of its dies (R185): of class 0, and resident or STOPPED.
(log entry 76: DESIGN CHOICE in part) -/
def State.locks (s : State) (k : Nat) : Bool :=
  ((s.ctx k).phase == .resident || (s.ctx k).phase == .stopped) && s.defaultClass k == 0

/-- The PAGE entry of a mapping over an address (R181, R182). The target of a 64 KiB page of tiers 0 and 1 counts the entry's
4 KiB. (log entry 76: DESIGN CHOICE in part) -/
def State.pageEntry (s : State) (m : Mapping) (va : Nat) : Nat :=
  let off := (va - m.va) / pageBytes m.page * pageBytes m.page
  let target :=
    if m.tier = 2 then extentByte 65536 m.extents off / 65536
    else extentByte 1 m.extents off / 4096 + (if m.page = 1 then va / 4096 % 16 else 0)
  entryWord 1 (m.page == 1) (!m.flags.testBit 5) (s.locks m.ctx) m.tier target

/-- The entry of a table of a level under a root that covers an address (R180 to R183); 0 where it maps nothing. In a
sequence's table set the address counts from the sequence's base. (log entry 76: DESIGN CHOICE in part) -/
def State.entry (s : State) (root level va : Nat) : Nat :=
  if 64 ≤ root then
    if s.tables.contains (root, level + 1, va / 2 ^ levelShift level) ∧ level = 2 then
      entryWord 0 false true false 1 (s.tableAddr (root, 3, va / 2 ^ 21) / 4096)
    else match s.kvPage (root - 64) (va / 65536) with
      | none => 0
      | some p => entryWord 1 true true false 1 (p / 4096 + va / 4096 % 16)
  else
    match (if level = 1 then s.linkedSeq? root va else none), s.mapping? root va with
    | some q, _ => entryWord 2 false true false 1 q
    | none, some m =>
      if (if m.page = 2 then 2 else 3) ≤ level then s.pageEntry m va
      else entryWord 0 false true false 1 (s.tableAddr (root, level + 1, va / 2 ^ levelShift level) / 4096)
    | none, none =>
      if level < 3 ∧ s.tables.contains (root, level + 1, va / 2 ^ levelShift level) then
        entryWord 0 false true false 1 (s.tableAddr (root, level + 1, va / 2 ^ levelShift level) / 4096)
      else 0

/-- A walk of the tables from a level, with fuel for the levels (R180, R183): the entry that ends it.
(log entry 76: DESIGN CHOICE in part) -/
def State.walk (s : State) (root level va : Nat) : Nat → Nat
  | 0 => 0
  | n + 1 =>
    let e := s.entry root level va
    if e % 2 = 0 ∨ bits e 1 2 = 1 then e
    else if bits e 1 2 = 2 then s.walk (64 + bits e 12 12) 2 (va % 0x100000000) n
    else s.walk root (level + 1) va n

/-- A read of one byte of the flash store: the mode of R198, and uncorrectable codewords of R194.
(log entry 4: DESIGN CHOICE in part) -/
def State.flashRead (s : State) (a : Nat) : Except Nat (BitVec 8) :=
  if s.fld Fld.FTL_STATUS_mode = 0 then .error 0x0403
  else if s.flash.bad.contains (a / 4096) then .error 0x0401
  else .ok (Sparse.get (fun _ => 0) s.flash.bytes a)

/-- Whether the store accepts a write (R198): 0, or the failure code. -/
def State.flashWritable (s : State) : Nat :=
  if s.fld Fld.FTL_STATUS_mode = 0 then 0x0403 else if s.fld Fld.FTL_STATUS_mode = 2 then 0 else 0x0405

/-- A read of one byte through translation. -/
def State.readVaByte (s : State) (who : Master) (ctx va : Nat) : Except Nat (BitVec 8) :=
  match s.translate who .read ctx va with
  | .error e => .error e
  | .ok (.phys p) => .ok (s.byteAt p)
  | .ok (.flash a) => s.flashRead a

/-- A read of `n` bytes through translation; the first byte that fails gives the code and its address. -/
def State.readVa (s : State) (who : Master) (ctx : Nat) : Nat → Nat → Except (Nat × Nat) Bytes
  | _, 0 => .ok []
  | va, n + 1 =>
    match s.readVaByte who ctx va with
    | .error e => .error (e, va)
    | .ok b =>
      match s.readVa who ctx (va + 1) n with
      | .error e => .error e
      | .ok bs => .ok (b :: bs)

/-- The first address of a write that fails to translate or that the store refuses, with its code. -/
def State.writeFault (s : State) (who : Master) (acc : Access) (ctx : Nat) : Nat → Nat → Option (Nat × Nat)
  | _, 0 => none
  | va, n + 1 =>
    match s.translate who acc ctx va with
    | .error e => some (e, va)
    | .ok (.flash _) => if s.flashWritable = 0 then s.writeFault who acc ctx (va + 1) n else some (s.flashWritable, va)
    | .ok (.phys _) => s.writeFault who acc ctx (va + 1) n

/-- An uncorrectable codeword that a write takes up again (R194): the bytes that it lost are undefined.
(log entry 39: DESIGN CHOICE in part) -/
def State.renewCodeword (s : State) (c : Nat) : State :=
  let f := s.flash
  { s with
    flash := { f with
      bytes := (List.range 4096).foldl (fun m i => Sparse.put (fun _ => 0) m (c * 4096 + i) (Config.memByte (s.freeCtr + 1) i)) f.bytes
      bad := f.bad.filter (fun x => x != c) }
    freeCtr := s.freeCtr + 1 }

/-- A byte written into the flash store, through the journal buffer (R197). -/
def State.flashPut (s : State) (a : Nat) (b : BitVec 8) : State :=
  let s1 := if s.flash.bad.contains (a / 4096) then s.renewCodeword (a / 4096) else s
  let f := s1.flash
  { s1 with flash := { f with
      bytes := Sparse.put (fun _ => 0) f.bytes a b
      journal := if f.journal.contains (a / 65536) then f.journal else f.journal ++ [a / 65536]
      journalBytes := f.journalBytes + 1 } }

/-- A write through translation of bytes that `writeFault` has passed. -/
def State.putVa (s : State) (who : Master) (acc : Access) (ctx : Nat) : Nat → Bytes → State
  | _, [] => s
  | va, b :: bs =>
    match s.translate who acc ctx va with
    | .ok (.phys p) => (s.setByte p b).putVa who acc ctx (va + 1) bs
    | .ok (.flash a) => (s.flashPut a b).putVa who acc ctx (va + 1) bs
    | .error _ => s.putVa who acc ctx (va + 1) bs

/-- A write through translation as a whole: the written state, or the code and address of the fault. -/
def State.writeVa (s : State) (who : Master) (acc : Access) (ctx va : Nat) (bs : Bytes) : Except (Nat × Nat) State :=
  match s.writeFault who acc ctx va bs.length with
  | some e => .error e
  | none => .ok (s.putVa who acc ctx va bs)

/-- The page addresses of a range. -/
def pageAddrs (va len : Nat) : List Nat :=
  (List.range (ceilDiv (va % 4096 + len) 4096)).map (fun i => max va ((va / 4096 + i) * 4096))

/-- A block queued for relocation once (R195). (log entry 39: DESIGN CHOICE in part) -/
def FlashStore.queue (f : FlashStore) (b : Nat) : FlashStore :=
  { f with relocate := if f.relocate.contains b then f.relocate else f.relocate ++ [b] }

/-- One more read of the block that holds a flash unit, with the threshold shifts it took (R195); a unit that no block holds
is read from the journal buffer or was never written. (log entry 39: DESIGN CHOICE in part) -/
def State.countRead (s : State) (unit shifts : Nat) : State :=
  match s.flash.map.find? (fun p => p.1 == unit) with
  | none => s
  | some p =>
    let f := s.flash
    let n := Sparse.get (fun _ => 0) f.reads p.2 + 1
    let f1 := { f with reads := Sparse.put (fun _ => 0) f.reads p.2 n }
    { s with flash := if max (s.fld Fld.FTL_RD_THRESH_reads) 10000 ≤ n ∨ 4 < shifts then f1.queue p.2 else f1 }

/-- What a read of a codeword takes: one that is uncorrectable stays so until its unit is written (R194).
(log entry 39: DESIGN CHOICE in part) -/
def State.readOutcome (s : State) (c : Nat) (d : FlashDecode) : FlashDecode := if s.flash.bad.contains c then .uncorrectable else d

/-- The effect of a read of a codeword (R194, R195): its block's reads are counted, a corrected codeword is counted, and one that
cannot be corrected is noted. (log entry 39: DESIGN CHOICE in part) -/
def State.readCodeword (s : State) (c : Nat) (d : FlashDecode) : State :=
  let s1 := s.countRead (c / 16) (match d with | .hard _ => 0 | .shifted k => k | _ => 8)
  match d with
  | .hard false => s1
  | .uncorrectable => { s1 with flash := { s1.flash with bad := if s1.flash.bad.contains c then s1.flash.bad else c :: s1.flash.bad } }
  | _ => s1.count64 Reg.FTL_CORR_CNT 1

/-- The codewords of a range read in order, from place i on; the read ends at one that is uncorrectable.
(log entry 39: DESIGN CHOICE in part) -/
def State.readCodewords (s : State) (ctx : Nat) (found : Found) : Nat → List Nat → State
  | _, [] => s
  | i, x :: xs =>
    match s.translate .tierManager .read ctx x with
    | .ok (.flash p) =>
      let d := s.readOutcome (p / 4096) ((found.flash.find? (fun y => y.1 == i)).elim (.hard false) (·.2))
      let a := s.readCodeword (p / 4096) d
      if d = .uncorrectable then a else a.readCodewords ctx found (i + 1) xs
    | _ => s.readCodewords ctx found (i + 1) xs

/-- The flash reads of a transfer from a range of a root: one for each 4 KiB codeword (R194, R195); in OFFLINE there are none
(R198). (log entry 39: DESIGN CHOICE in part) -/
def State.countReads (s : State) (ctx va len : Nat) (found : Found) : State :=
  if s.fld Fld.FTL_STATUS_mode = 0 then s else s.readCodewords ctx found 0 (pageAddrs va len)

/-- The XLT's report of a fault on a die (R186): the event bit, the last fault and its address. -/
def State.xltFault (s : State) (die ctx code va : Nat) : State :=
  if code < 0x0201 ∨ 0x0203 < code then s
  else
    let ev := if code = 0x0201 then Ev.XLT_EVT_STATUS_unmapped die
      else if code = 0x0202 then Ev.XLT_EVT_STATUS_write die else Ev.XLT_EVT_STATUS_range die
    let s1 := (s.event ev).setFld (Fld.XLT_FAULT_LAST_ctx_id die) ctx
    (s1.setFld (Fld.XLT_FAULT_LAST_code die) code).setFld (Fld.XLT_FAULT_VA_va die) va

/-- The report of an access that failed (R186, R188, R194): the XLT's fault, the flash controller's uncorrectable codeword, or
Crust's MEM_UNCORR. -/
def State.accessFault (s : State) (die ctx code va : Nat) : State :=
  if code = 0x0401 then s.event Ev.FTL_EVT_STATUS_uncorr
  else if code = 0x0204 then s.report 0x0B 0
  else s.xltFault die ctx code va

/-! ### Translation buffers (R184, R185, R187) -/

/-- The entries of a die's translation buffer that are not locked. -/
def State.tlbOf (s : State) (die : Nat) : List TlbEntry := Sparse.get (fun _ => []) s.tlb die

/-- True where a die's buffer holds an entry for an address of a context: one a walk filled, or a locked one, which every
page of a resident class-0 root has on the dies of its die_mask (R185). -/
def State.tlbHit (s : State) (die ctx va : Nat) : Bool :=
  (s.tlbOf die).any (fun e => e.ctx == ctx && e.va ≤ va && va < e.va + e.len) ||
    (s.locks ctx && (s.mapping? ctx va).isSome &&
      (s.layout.bind (fun l => l.ctxRec ctx)).elim false (fun r => (fieldAt r 2 1).testBit die))

/-- A walk's entry put into a die's buffer of 4,096 entries, `locked` of which are locked (R184): where it is full an entry
that is not locked makes room, and the spec leaves open which. (log entry 76: DESIGN CHOICE in part) -/
def State.tlbFill (s : State) (die locked : Nat) (e : TlbEntry) : State :=
  let es := s.tlbOf die
  if es.length + locked < 4096 then { s with tlb := Sparse.put (fun _ => []) s.tlb die (es ++ [e]) }
  else
    { s with
      tlb := Sparse.put (fun _ => []) s.tlb die (es.eraseIdx (Config.freeNat s.freeCtr % es.length) ++ [e])
      freeCtr := s.freeCtr + 1 }

/-- Entries of a die's buffer, none of them locked, that make room for entries that are locked now (R184): so many, and the spec
leaves open which. (log entry 76: DESIGN CHOICE in part) -/
def State.tlbEvict (s : State) (die : Nat) : Nat → State
  | 0 => s
  | n + 1 =>
    let es := s.tlbOf die
    { s with
      tlb := Sparse.put (fun _ => []) s.tlb die (es.eraseIdx (Config.freeNat s.freeCtr % es.length))
      freeCtr := s.freeCtr + 1 }.tlbEvict die n

/-- The buffer entries of every die that an unmapping affects are invalidated (R187). -/
def State.tlbDrop (s : State) (gone : TlbEntry → Bool) : State :=
  { s with tlb := s.tlb.filterMap (fun p =>
      match p.2.filter (fun e => !gone e) with
      | [] => none
      | es => some (p.1, es)) }

end Sys2Proof.Machine
end

