-- ==== Sys2Proof/Machine/Operands.lean ====
section
/-! DEFINITION. The operand forms of operation descriptors: tile, stem and argmax operations (R109 to R114), key-value
appends and attention (R149, R150), hand-offs and speculation (R127), and the formatted tensors they name. -/

namespace Sys2Proof.Machine

/-- The descriptor of R112. -/
structure TileOp where
  opcode : Nat
  fmtA : Nat
  fmtB : Nat
  fmtOut : Nat
  sym : Bool
  rqPerCh : Bool
  biasEn : Bool
  bKn : Bool
  granA : Nat
  granB : Nat
  granHigh : Nat
  h : Nat
  granO : Nat
  dyn : Bool
  ewOp : Nat
  func : Nat
  fo : Nat
  foHigh : Nat
  tile0 : Nat
  tileN : Nat
  split : Nat
  argM : Nat
  m : Nat
  n : Nat
  k : Nat
  aAddr : Nat
  bAddr : Nat
  saAddr : Nat
  sbAddr : Nat
  biasAddr : Nat
  rqAddr : Nat
  outAddr : Nat
  soAddr : Nat
  ewAddr : Nat
  geom : Nat
deriving DecidableEq, Repr

/-- The fields of a 64-byte descriptor under R112. -/
def tileOpOf (d : Bytes) : TileOp where
  opcode := fieldAt d 0 1
  fmtA := bits (fieldAt d 1 1) 0 4
  fmtB := bits (fieldAt d 1 1) 4 4
  fmtOut := bits (fieldAt d 2 1) 0 4
  sym := bit (fieldAt d 2 1) 4
  rqPerCh := bit (fieldAt d 2 1) 5
  biasEn := bit (fieldAt d 2 1) 6
  bKn := bit (fieldAt d 2 1) 7
  granA := bits (fieldAt d 3 1) 0 3
  granB := bits (fieldAt d 3 1) 3 3
  granHigh := bits (fieldAt d 3 1) 6 2
  h := bits (fieldAt d 4 1) 0 4
  granO := bits (fieldAt d 4 1) 4 3
  dyn := bit (fieldAt d 4 1) 7
  ewOp := fieldAt d 5 1
  func := fieldAt d 6 1
  fo := bits (fieldAt d 7 1) 0 5
  foHigh := bits (fieldAt d 7 1) 5 3
  tile0 := fieldAt d 8 1
  tileN := fieldAt d 9 1
  split := fieldAt d 0xA 1
  argM := fieldAt d 0xB 1
  m := fieldAt d 0xC 4
  n := fieldAt d 0x10 4
  k := fieldAt d 0x14 4
  aAddr := fieldAt d 0x18 4
  bAddr := fieldAt d 0x1C 4
  saAddr := fieldAt d 0x20 4
  sbAddr := fieldAt d 0x24 4
  biasAddr := fieldAt d 0x28 4
  rqAddr := fieldAt d 0x2C 4
  outAddr := fieldAt d 0x30 4
  soAddr := fieldAt d 0x34 4
  ewAddr := fieldAt d 0x38 4
  geom := fieldAt d 0x3C 4

/-- The geometry of a convolution (R112, offset 0x3C). -/
structure ConvGeom where
  kh : Nat
  kw : Nat
  sh : Nat
  sw : Nat
  dh : Nat
  dw : Nat
  pt : Nat
  pl : Nat
  pb : Nat
  pr : Nat
deriving DecidableEq, Repr

/-- The geometry field of a descriptor. (log entry 30: DEDUCED in part) -/
def convGeomOf (g : Nat) : ConvGeom :=
  ⟨bits g 0 4 + 1, bits g 4 4 + 1, bits g 8 2 + 1, bits g 10 2 + 1, bits g 12 2 + 1, bits g 14 2 + 1,
    bits g 16 4, bits g 20 4, bits g 24 4, bits g 28 4⟩

/-- An output extent of a convolution (chapter 06): 0 where the kernel does not fit.
(log entry 30: DEDUCED in part) -/
def convExtent (size pad0 pad1 dil kk stride : Nat) : Nat :=
  if size + pad0 + pad1 < dil * (kk - 1) + 1 then 0 else (size + pad0 + pad1 - dil * (kk - 1) - 1) / stride + 1

/-- A tensor in a die's SRAM: data and scale addresses, format, granularity, its rows and the length of its innermost
dimension. A matrix row begins at a 64-byte boundary (R109); `pixels` is the image width of an NHWC tensor, whose pixels
are contiguous within an image row (R110), and 0 for a matrix. -/
structure Tensor where
  die : Nat
  addr : Nat
  sAddr : Nat
  fmt : Format
  gran : Nat
  inner : Nat
  pixels : Nat
deriving DecidableEq, Repr

/-- The offset of a row (or pixel) of a tensor from its data address. -/
def Tensor.rowOff (t : Tensor) (row : Nat) : Nat :=
  if t.pixels = 0 then row * alignUp 64 (runBytes t.fmt t.inner)
  else row / t.pixels * alignUp 64 (t.pixels * runBytes t.fmt t.inner) + row % t.pixels * runBytes t.fmt t.inner

/-- The bytes a tensor of `rows` rows occupies. -/
def Tensor.size (t : Tensor) (rows : Nat) : Nat :=
  if t.pixels = 0 then t.rowOff rows else ceilDiv rows t.pixels * alignUp 64 (t.pixels * runBytes t.fmt t.inner)

/-- The integer of an element. -/
def State.tensorElem (s : State) (t : Tensor) (row col : Nat) : Int :=
  let g := col / groupElems t.fmt
  elemAt t.fmt (s.readDie t.die (t.addr + t.rowOff row + g * groupBytes t.fmt) (groupBytes t.fmt)) (col % groupElems t.fmt)

/-- The scale word stored for an element of a tensor (R36). (log entry 30: DEDUCED in part) -/
def State.tensorWord (s : State) (t : Tensor) (row col : Nat) : Scale :=
  scaleOf (leNat (s.readDie t.die (t.sAddr + 2 * scaleIndex t.gran t.inner row col) 2))

/-- The scale word of an element (R31, R36). -/
def State.tensorScale (s : State) (t : Tensor) (row col : Nat) : Scale :=
  if formatScaled t.fmt then s.tensorWord t row col else fixedScale t.fmt

/-- The scale words of a tensor at a granularity code (R36). (log entry 30: DEDUCED in part) -/
def granWords (g rows inner : Nat) : Nat :=
  if g = 0 then 1 else if g = 1 then rows else rows * scalesPerRow g inner

/-- The number of scale words of a tensor (R36); none where the format takes no scale. -/
def scaleCount (f : Format) (g rows inner : Nat) : Nat :=
  if formatScaled f then granWords g rows inner else 0

/-- One row of integers written into a tensor, with the bytes up to the next row's boundary zero (R109, R110). -/
def State.writeRow (s : State) (t : Tensor) (row : Nat) (qs : List Int) : State :=
  let bs := packRun t.fmt qs
  let endOff :=
    if t.pixels = 0 then t.rowOff (row + 1)
    else if row % t.pixels + 1 = t.pixels then (row / t.pixels + 1) * alignUp 64 (t.pixels * runBytes t.fmt t.inner)
    else t.rowOff (row + 1)
  s.writeDie t.die (t.addr + t.rowOff row) (bs ++ List.replicate (endOff - t.rowOff row - bs.length) 0)

/-- The rows of a tensor written in order. -/
def State.writeRows (s : State) (t : Tensor) (row : Nat) : List (List Int) → State
  | [] => s
  | q :: qs => (s.writeRow t row q).writeRows t (row + 1) qs

/-- Scale words written in order at an address. -/
def State.writeScales (s : State) (die addr : Nat) : List Scale → State
  | [] => s
  | w :: ws => (s.writeDie die addr (leBytes 2 (scaleWord w))).writeScales die (addr + 2) ws

/-- The first of the tile indices of an operation, on the die: the context's TILES share, with the step's unit. -/
def Layout.opTiles (l : Layout) (ctx die unit : Nat) (o : TileOp) : List Nat :=
  (List.range o.tileN).filterMap (fun i => shareIndex (l.sharesOf ctx die 0) (unit + o.tile0 + i))

/-- The run-time M of an operation: read from the invocation arguments where arg_m names an offset (R114). -/
def TileOp.rows (o : TileOp) (args : Bytes) : Nat := if o.argM = 0xFF then o.m else fieldAt args o.argM 4

/-- An entry of a KV_APPEND or ATTN list after R150: sequence, tag, start, count and first row. -/
structure KvWork where
  seq : Nat
  tag : Nat
  start : Nat
  count : Nat
  row : Nat
deriving DecidableEq, Repr

/-- An entry of a decode batch (R130). -/
structure BatchEntry where
  seq : Nat
  tag : Nat
  draft : Nat
  draftTag : Nat
  pending : Nat
  d : Nat
  accepted : Nat
  flags : Nat
  lag : Nat
deriving DecidableEq, Repr

/-- The entry of its 16 bytes. -/
def batchOf (b : Bytes) : BatchEntry :=
  ⟨fieldAt b 0 2, fieldAt b 2 2, fieldAt b 4 2, fieldAt b 6 2, fieldAt b 8 4, fieldAt b 12 1, fieldAt b 13 1,
    fieldAt b 14 1, fieldAt b 15 1⟩

/-- The 16 bytes of an entry. -/
def batchBytes (e : BatchEntry) : Bytes :=
  leBytes 2 e.seq ++ leBytes 2 e.tag ++ leBytes 2 e.draft ++ leBytes 2 e.draftTag ++ leBytes 4 e.pending ++
    leBytes 1 e.d ++ leBytes 1 e.accepted ++ leBytes 1 e.flags ++ leBytes 1 e.lag

/-- Active, and with a pending token (R130). -/
def BatchEntry.inRound (e : BatchEntry) : Bool := e.flags.testBit 0 && !e.flags.testBit 3

end Sys2Proof.Machine
end

