-- ==== Sys2Proof/Machine/Tiles.lean ====
section
/-! DEFINITION. Matrix tiles, stem engine and channel argmax (chapter 06): GEMM, CONV, EW, STEM_FIRST, STEM_LAST,
STEM_LAST_ARGMAX and ARGMAX. -/

namespace Sys2Proof.Machine

/-! ### What a command of a running programme needs -/

/-- The descriptor of the operation a run stands at: the programme's, or the substitute's of a RESIDENT path. -/
def State.currentOp (s : State) (r : Run) : Option Bytes :=
  match s.layout, r.substitute with
  | none, _ => none
  | some l, some (p, i) => (l.progOps p)[i]?
  | some l, none => (l.progOps r.prog)[r.op]?

/-- Layers of a programme's run-time prefetch records that are unfinished for the operation a run stands at (R190). -/
def Run.layerUnfinished (r : Run) : Bool :=
  r.substitute.isNone && r.prefetches.any (fun p =>
    p.2 ≠ .done && fieldAt (r.recs.getD p.1 []) 2 2 == r.op)

/-- True unless a block reset holds off the run's operation (R414, R417); one whose engine has begun it goes on. -/
def State.engineOpen (s : State) (r : Run) (opcode : Nat) : Bool :=
  (opBlocks opcode r.die).all (fun p => s.blkOpen p.1 p.2) || r.putReady || 0 < r.progress || s.plan.batch.elim false (fun b => b.run == r.id) ||
    s.solv.active.elim false (fun a => a.run == r.id)

/-- The run that a command of an operation executes: it stands at an operation of that opcode which has not run, and
no prefetch of its layer is unfinished. (log entry 32: DEDUCED in part) -/
def State.startable (s : State) (run opcode : Nat) : Option (Run × Bytes) :=
  match s.run? run with
  | none => none
  | some r =>
    if r.executed || r.done.isSome || r.layerUnfinished then none
    else
      match s.currentOp r with
      | none => none
      | some d => if fieldAt d 0 1 = opcode ∧ s.engineOpen r opcode = true then some (r, d) else none

/-- The tiles that the operation a run stands at names: those of a tile operation or of a chunk, and the context's tiles for
attention (R112, R115, R120). -/
def State.opTilesOf (s : State) (r : Run) : List Nat :=
  match s.layout, s.currentOp r with
  | some l, some d =>
    let o := tileOpOf d
    if o.opcode = 1 ∨ o.opcode = 2 ∨ o.opcode = 3 ∨ o.opcode = 0x30 then l.opTiles r.ctx r.die r.unit o
    else if o.opcode = 0x51 then
      (List.range (shareCount (l.sharesOf r.ctx r.die 0))).filterMap (shareIndex (l.sharesOf r.ctx r.die 0))
    else []
  | _, _ => []

/-- The tiles a run keeps busy while its operation runs (R24, R115). -/
def State.runTiles (s : State) (r : Run) : List Nat := if (r.executed || 0 < r.progress) && r.done.isNone then s.opTilesOf r else []

/-- The busy tiles of a die. -/
def State.busyTiles (s : State) (die : Nat) : List Nat :=
  (s.runs.filter (fun r => r.die == die)).flatMap s.runTiles

/-- True while a run's operation, which has issued, waits for a tile or an engine: it would start otherwise (R115).
(log entry 32: DEDUCED in part) -/
def State.waitsForTile (s : State) (r : Run) : Bool :=
  !r.executed && r.progress == 0 && r.done.isNone && !r.layerUnfinished && s.engineOpen r ((s.currentOp r).elim 0 (fun d => fieldAt d 0 1))

/-- True where the operation a run stands at finds its tiles free: none runs an operation, and no operation that issued before
it waits for one (R115). Runs stand in the order in which their operations issued. (log entry 32: DEDUCED in part) -/
def State.tilesFree (s : State) (r : Run) : Bool :=
  let ahead := (s.runs.takeWhile (fun x => x.id != r.id)).filter (fun x => x.die == r.die && s.waitsForTile x)
  (s.opTilesOf r).all (fun t => !(s.busyTiles r.die).contains t && !(ahead.flatMap s.opTilesOf).contains t)

/-- True where the engine that a run's operation takes is free: it runs no other, and no operation that issued before waits for it
(R115). (log entry 32: DEDUCED in part) -/
def State.engineFree (s : State) (r : Run) : Bool :=
  let block := fun (x : Run) => (s.currentOp x).elim 0 (fun d => opBlock (fieldAt d 0 1))
  let same := fun (x : Run) => x.id != r.id && x.die == r.die && x.done.isNone && block x == block r
  !s.runs.any (fun x => same x && (x.executed || decide (0 < x.progress))) &&
    !(s.runs.takeWhile (fun x => x.id != r.id)).any (fun x => same x && s.waitsForTile x)

/-- The state with a run whose next operation issues: it takes its place after the operations that have issued.
(log entry 32: DEDUCED in part) -/
def State.issueRun (s : State) (r : Run) : State := { s with runs := s.runs.filter (fun x => x.id != r.id) ++ [r] }

/-- The run with its current operation executed. (log entry 29: DEDUCED in part) -/
def Run.finishOp (r : Run) (code : Nat) (sat : SatEvents) (satDie : Nat) (outs : List (Nat × Nat)) : Run :=
  { r with executed := true, opCode := code, sat := sat, satDie := satDie, outs := outs, waitEnd := none }

/-! ### The pipeline -/

/-- An element on its way through the stages of R118: accumulator, exponent, event flags, and whether it is an operand whose
scale word marks an empty block (R35, R41). -/
structure Elem where
  a : Int
  e : Int
  acc : Bool := false
  out : Bool := false
  func : Bool := false
  empty : Bool := false
deriving DecidableEq, Repr

/-- Stage 2 (R40). -/
def biasStage (q eb : Int) (x : Elem) : Elem :=
  let t := sat48 (rshiftRne q (x.e - eb))
  let y := sat48 (x.a + t.1)
  { x with a := y.1, acc := x.acc || t.2 || y.2 }

/-- Stage 3 (R118): ADD and MUL with a second operand. An accumulator that is itself an empty operand takes no part in an
ADD (R38, R41). (log entry 30: DEDUCED in part) -/
def ewStage (op : Nat) (q : Int) (w : Scale) (x : Elem) : Elem :=
  if op = 1 then
    if w.m = 0 then (if x.empty then { x with e := 0 } else x)
    else if x.empty then
      let y := sat48 (q * w.m)
      { x with a := y.1, e := w.e, acc := x.acc || y.2, empty := false }
    else
      let e := max x.e w.e
      let y := sat48 (rshiftRne x.a (e - x.e) + rshiftRne (q * w.m) (e - w.e))
      { x with a := y.1, e := e, acc := x.acc || y.2 }
  else if op = 2 then
    if w.m = 0 then { x with a := 0 }
    else
      let y := sat48 (x.a * q * w.m)
      { x with a := y.1, e := x.e + w.e, acc := x.acc || y.2 }
  else x

/-- The conversion to INT32 with 16 fraction bits that enters stage 4 and SOFTMAX (R118). -/
def toFixed16 (x : Elem) : Int × Bool := sat32 (rshiftRne x.a (-16 - x.e))

/-- Stage 4 (R118): a function unit, whose result becomes the accumulator with exponent -F_o. -/
def funcStage (func fo : Nat) (x : Elem) : Elem :=
  if func = 0 ∨ func = 9 then x
  else
    let v := toFixed16 x
    let y := funcOut .int32 func v.1 (-16) fo
    { x with a := y.1, e := -(fo : Int), out := x.out || v.2 || y.2.1, func := x.func || y.2.2 }

/-- The second element-wise operand: scale words at ew_addr, data at the next 64-byte boundary (R113). (log entry 30: DEDUCED in part) -/
def ewTensor (die : Nat) (o : TileOp) (f : Format) (rows inner pixels : Nat) : Tensor :=
  ⟨die, alignUp 64 (o.ewAddr + 2 * granWords o.granO rows inner), o.ewAddr, f, o.granO, inner, pixels⟩

/-- Stages 2 to 4 for the element at a row and channel. (log entry 30: DEDUCED in part) -/
def State.midStages (s : State) (die : Nat) (o : TileOp) (ew : Tensor) (row col : Nat) (x : Elem) : Elem :=
  let x1 :=
    if o.biasEn then
      let b := s.readDie die (o.biasAddr + 8 * col) 8
      biasStage (sfieldAt b 0 4) (sfieldAt b 4 2) x
    else x
  let x2 := if o.ewOp = 0 then x1 else ewStage o.ewOp (s.tensorElem ew row col) (s.tensorWord ew row col) x1
  funcStage o.func o.fo x2

/-- The rows, scale words and events of an output (stage 5). -/
structure OutData where
  rows : List (List Int)
  scales : List Scale
  sat : SatEvents
deriving DecidableEq, Repr

/-- The elements of a row cut into blocks of a width. -/
def blocksOf {α : Type} (w : Nat) (xs : List α) : List (List α) :=
  (List.range (ceilDiv xs.length w)).map (fun b => (xs.drop (b * w)).take w)

/-- The events of elements, given the clamp flags of their outputs. (log entry 29: DEDUCED in part) -/
def elemEvents (xs : List Elem) (clamped : List Bool) (scaleSat : Bool) : SatEvents :=
  let zs := xs.zip clamped
  { acc := xs.any (·.acc)
    out := xs.any (·.out) || clamped.any id
    scale := scaleSat
    func := xs.any (·.func)
    elems := (zs.filter (fun p => p.1.acc || p.1.out || p.1.func || p.2)).length }

/-- The absmax form of stage 5 (R43): quantised blocks in row-major order. -/
def outDyn (f : Format) (g : Nat) (xss : List (List Elem)) : OutData :=
  let q := fun (b : List Elem) => absmax f (b.map (fun x => (x.a, x.e)))
  if g = 0 then
    let r := q xss.flatten
    ⟨(List.range xss.length).map (fun i => (r.qs.drop (i * (xss.headD []).length)).take (xss.headD []).length),
      [r.scale], elemEvents xss.flatten r.clamped r.scaleSat⟩
  else
    let rs := xss.map (fun xs => (match blockWidth g with | some w => blocksOf w xs | none => [xs]).map q)
    ⟨rs.map (fun bs => (bs.map (·.qs)).flatten), (rs.map (fun bs => bs.map (·.scale))).flatten,
      elemEvents xss.flatten (rs.flatten.map (·.clamped)).flatten (rs.flatten.any (·.scaleSat))⟩

/-- The SOFTMAX form of stage 5 (R47, R118). -/
def outSoftmax (f : Format) (g fp : Nat) (xss : List (List Elem)) : OutData :=
  let conv := xss.map (fun xs => xs.map toFixed16)
  let ps := conv.map (fun xs => softmaxRow f 16 fp (xs.map (fun x => some x.1)))
  let cl := (List.zipWith (fun c p => c.2 || p.2) conv.flatten ps.flatten)
  ⟨ps.map (fun r => r.map (·.1)), List.replicate (scaleCount f g xss.length (xss.headD []).length) ⟨1, -(fp : Int)⟩,
    elemEvents xss.flatten cl false⟩

/-- A requantisation entry: multiplier and exponent (R113). -/
def State.rqEntry (s : State) (die addr i : Nat) : Nat × Int :=
  let b := s.readDie die (addr + 4 * i) 4
  (fieldAt b 0 2, sfieldAt b 2 2)

/-- The output scale words that follow the requantisation entries, repeated for every row (R113). -/
def State.rqScales (s : State) (die : Nat) (o : TileOp) (f : Format) (rows inner : Nat) : List Scale :=
  if formatScaled f then
    let base := alignUp 64 (o.rqAddr + 4 * (if o.rqPerCh then o.n else 1))
    let ws := (List.range (scalesPerRow o.granO inner)).map (fun i => scaleOf (leNat (s.readDie die (base + 2 * i) 2)))
    if o.granO = 0 then ws else (List.replicate rows ws).flatten
  else []

/-- The requantised form of stage 5 (R42). -/
def State.outRequant (s : State) (die : Nat) (o : TileOp) (f : Format) (xss : List (List Elem)) : OutData :=
  let ys := xss.map (fun xs => xs.zipIdx.map (fun p =>
    let r := s.rqEntry die o.rqAddr (if o.rqPerCh then p.2 else 0)
    requantise f o.sym p.1.a p.1.e r.1 r.2))
  ⟨ys.map (fun r => r.map (·.1)), s.rqScales die o f xss.length (xss.headD []).length,
    elemEvents xss.flatten (ys.flatten.map (·.2)) false⟩

/-- Stage 5 as the descriptor selects it (R118); SOFTMAX holds where a descriptor sets dyn beside it.
(log entry 30: DEDUCED in part) -/
def State.outStage (s : State) (die : Nat) (o : TileOp) (f : Format) (xss : List (List Elem)) : OutData :=
  if o.func = 9 then outSoftmax f o.granO o.fo xss
  else if o.dyn then outDyn f o.granO xss
  else s.outRequant die o f xss

/-- True where every requantisation entry the operation uses has t in -512 to 511 (R114). -/
def State.rqOk (s : State) (die : Nat) (o : TileOp) : Bool :=
  o.dyn || o.func == 9 || (List.range (if o.rqPerCh then o.n else 1)).all (fun i =>
    let t := (s.rqEntry die o.rqAddr i).2
    decide (-512 ≤ t) && decide (t ≤ 511))

/-! ### Accumulation -/

/-- A weight element: row j of an N × K operand, or column j of a K × N operand (R109). -/
def State.weightElem (s : State) (o : TileOp) (b : Tensor) (j k : Nat) : Int :=
  if o.bKn then s.tensorElem b k j else s.tensorElem b j k

/-- The tile whose partial sum a reduction block belongs to under a K split (R116): by its first element.
(log entry 30: DEDUCED in part) -/
def kSplitGroup (units tiles k0 : Nat) : Nat :=
  ((List.range tiles).find? (fun i => i * units / tiles ≤ k0 / 128 && k0 / 128 < (i + 1) * units / tiles)).getD 0

/-- The terms of one output element grouped by tile for a K split, one group otherwise (R39, R116).
(log entry 30: DEDUCED in part) -/
def groupTerms (o : TileOp) (klen : Nat) (ts : List (Nat × Term)) : List (List Term) :=
  if o.split = 2 ∧ o.tileN ≠ 0 then
    (List.range o.tileN).map (fun i =>
      (ts.filter (fun t => kSplitGroup (ceilDiv klen 128) o.tileN t.1 == i)).map (·.2))
  else [ts.map (·.2)]

/-- The combination block width of a GEMM (R37, R111). (log entry 30: DEDUCED in part) -/
def combineWidth (o : TileOp) : Nat :=
  if o.bKn && o.granB ≠ 0 then 1
  else
    let a := (blockWidth o.granA).getD 128
    let b := if o.bKn then 128 else (blockWidth o.granB).getD 128
    min a b

/-- The blocks [k0, k1) of a length in widths of w from an origin. (log entry 30: DEDUCED in part) -/
def spanBlocks (w origin len : Nat) : List (Nat × Nat) :=
  (List.range (ceilDiv len w)).map (fun b => (origin + b * w, origin + min len ((b + 1) * w)))

/-- The accumulator of a GEMM's output element (R37 to R39). (log entry 30: DEDUCED in part) -/
def State.gemmElem (s : State) (o : TileOp) (a b : Tensor) (i j : Nat) : Elem :=
  let ts := (spanBlocks (combineWidth o) 0 o.k).map (fun p =>
    let sm := ((List.range (p.2 - p.1)).map (fun x => s.tensorElem a i (p.1 + x) * s.weightElem o b j (p.1 + x))).sum
    let wa := s.tensorScale a i p.1
    let wb := if o.bKn then s.tensorScale b p.1 j else s.tensorScale b j p.1
    (p.1, (⟨sm, wa.m * wb.m, wa.e + wb.e⟩ : Term)))
  let r := accumulate o.h (groupTerms o o.k ts)
  { a := r.1, e := r.2.1, acc := r.2.2 }

/-- The accumulator of a convolution's output element (R110, R111): blocks start afresh at every tap where an operand
has a granularity along its channels; a block whose activation scale word would belong to a pixel outside the image is
empty. (log entry 30: DEDUCED in part) -/
def State.convElem (s : State) (o : TileOp) (g : ConvGeom) (hin win wout : Nat) (a b : Tensor) (row j : Nat) : Elem :=
  let oy := row / wout
  let ox := row % wout
  let pixel := fun (tap : Nat) =>
    let y := oy * g.sh + tap / g.kw * g.dh
    let x := ox * g.sw + tap % g.kw * g.dw
    if g.pt ≤ y && y - g.pt < hin && g.pl ≤ x && x - g.pl < win then some ((y - g.pt) * win + (x - g.pl)) else none
  let taps := g.kh * g.kw
  let perTap := o.granA ≠ 0 || (blockWidth o.granB).isSome
  let w := combineWidth o
  let blocks := if perTap then (List.range taps).flatMap (fun t => spanBlocks w (t * o.k) o.k) else spanBlocks w 0 (taps * o.k)
  let ts := blocks.map (fun p =>
    let sm := ((List.range (p.2 - p.1)).map (fun x =>
      let kk := p.1 + x
      match pixel (kk / o.k) with
      | none => 0
      | some px => s.tensorElem a px (kk % o.k) * s.weightElem o b j kk)).sum
    let tap := p.1 / o.k
    let wa :=
      match pixel tap with
      | some px => s.tensorScale a px (p.1 % o.k)
      | none => if o.granA = 0 then s.tensorScale a 0 0 else ⟨0, 0⟩
    let wb :=
      if o.bKn then s.tensorScale b p.1 j
      else
        match blockWidth o.granB with
        | none => s.tensorScale b j 0
        | some bw => scaleOf (leNat (s.readDie b.die (b.sAddr + 2 * (j * (taps * ceilDiv o.k bw) + tap * ceilDiv o.k bw + p.1 % o.k / bw)) 2))
    (p.1, (⟨sm, wa.m * wb.m, wa.e + wb.e⟩ : Term)))
  let r := accumulate o.h (groupTerms o (taps * o.k) ts)
  { a := r.1, e := r.2.1, acc := r.2.2 }

/-- The element of A that an element-wise operation takes into stage 3 (R118); one of an empty block enters as zero
at the word's exponent. (log entry 30: DEDUCED in part) -/
def State.ewElem (s : State) (a : Tensor) (i j : Nat) : Elem :=
  let w := s.tensorScale a i j
  { a := s.tensorElem a i j * w.m, e := w.e, empty := w.m == 0 }

/-! ### Whole operations -/

/-- What an operation leaves: the state with its outputs, its code, events and output ranges. -/
structure OpResult where
  state : State
  code : Nat
  sat : SatEvents
  outs : List (Nat × Nat)
deriving DecidableEq, Repr

/-- An operation that ends with a code and writes nothing. (log entry 32: DEDUCED in part) -/
def OpResult.stop (s : State) (code : Nat) : OpResult := ⟨s, code, {}, []⟩

/-- The outputs of an operation written: rows, then scale words (R109, R113). -/
def State.writeOut (s : State) (t : Tensor) (od : OutData) : OpResult :=
  ⟨(s.writeRows t 0 od.rows).writeScales t.die t.sAddr od.scales, od.sat.code, od.sat,
    [(dieLocal t.die t.addr, t.size od.rows.length), (dieLocal t.die t.sAddr, 2 * od.scales.length)]⟩

/-- GEMM on a die (R105 to R118). -/
def State.gemmResult (s : State) (die : Nat) (args : Bytes) (o : TileOp) : OpResult :=
  match formatOf o.fmtA, formatOf o.fmtB, formatOf o.fmtOut with
  | some fa, some fb, some fo =>
    let m := o.rows args
    if o.m < m then OpResult.stop s 0x0107
    else if m = 0 then OpResult.stop s 0
    else if !s.rqOk die o then OpResult.stop s 0x0107
    else
      let a : Tensor := ⟨die, o.aAddr, o.saAddr, fa, o.granA, o.k, 0⟩
      let b : Tensor := ⟨die, o.bAddr, o.sbAddr, fb, o.granB, if o.bKn then o.n else o.k, 0⟩
      let ew := ewTensor die o fo m o.n 0
      let xss := (List.range m).map (fun i => (List.range o.n).map (fun j =>
        s.midStages die o ew i j (s.gemmElem o a b i j)))
      s.writeOut ⟨die, o.outAddr, o.soAddr, fo, o.granO, o.n, 0⟩ (s.outStage die o fo xss)
  | _, _, _ => OpResult.stop s 0x0105

/-- The accumulated and staged elements of a convolution, one row for each output pixel (R110, R118). -/
def State.convElems (s : State) (die : Nat) (o : TileOp) (fa fb fo : Format) : List (List Elem) :=
  let g := convGeomOf o.geom
  let hin := o.m % 65536
  let win := o.m / 65536
  let hout := convExtent hin g.pt g.pb g.dh g.kh g.sh
  let wout := convExtent win g.pl g.pr g.dw g.kw g.sw
  let a : Tensor := ⟨die, o.aAddr, o.saAddr, fa, o.granA, o.k, win⟩
  let b : Tensor := ⟨die, o.bAddr, o.sbAddr, fb, o.granB, if o.bKn then o.n else g.kh * g.kw * o.k, 0⟩
  let ew := ewTensor die o fo (hout * wout) o.n wout
  (List.range (hout * wout)).map (fun r => (List.range o.n).map (fun j =>
    s.midStages die o ew r j (s.convElem o g hin win wout a b r j)))

/-- A convolution on a die, on tiles or on the stem engine (R110, R122). (log entry 30: DEDUCED in part) -/
def State.convResult (s : State) (die : Nat) (o : TileOp) : OpResult :=
  match formatOf o.fmtA, formatOf o.fmtB, formatOf o.fmtOut with
  | some fa, some fb, some fo =>
    if !s.rqOk die o then OpResult.stop s 0x0107
    else
      let g := convGeomOf o.geom
      let wout := convExtent (o.m / 65536) g.pl g.pr g.dw g.kw g.sw
      s.writeOut ⟨die, o.outAddr, o.soAddr, fo, o.granO, o.n, wout⟩ (s.outStage die o fo (s.convElems die o fa fb fo))
  | _, _, _ => OpResult.stop s 0x0105

/-- An element-wise operation on a die (R118). -/
def State.ewResult (s : State) (die : Nat) (args : Bytes) (o : TileOp) : OpResult :=
  match formatOf o.fmtA, formatOf o.fmtOut with
  | some fa, some fo =>
    let m := o.rows args
    if o.m < m then OpResult.stop s 0x0107
    else if m = 0 then OpResult.stop s 0
    else if !s.rqOk die o then OpResult.stop s 0x0107
    else
      let a : Tensor := ⟨die, o.aAddr, o.saAddr, fa, o.granA, o.n, 0⟩
      let ew := ewTensor die o fo m o.n 0
      let xss := (List.range m).map (fun i => (List.range o.n).map (fun j => s.midStages die o ew i j (s.ewElem a i j)))
      s.writeOut ⟨die, o.outAddr, o.soAddr, fo, o.granO, o.n, 0⟩ (s.outStage die o fo xss)
  | _, _ => OpResult.stop s 0x0105

/-- The better of two channels by exact value q × m × 2^e; an earlier one wins a tie (R123). -/
def argmaxBetter (x y : Int × Scale) : Bool :=
  let v := fun (p : Int × Scale) => p.1 * (p.2.m : Int) * (2 : Int) ^ (p.2.e + 128).toNat
  decide (v x < v y)

/-- The 8-byte record of the winner of a pixel's channels (R123). -/
def argmaxRecord (xs : List (Int × Scale)) : Bytes :=
  let best := xs.zipIdx.foldl (fun (r : Option ((Int × Scale) × Nat)) p =>
    match r with
    | none => some p
    | some b => if argmaxBetter b.1 p.1 then some p else some b) none
  match best with
  | none => List.replicate 8 0
  | some b =>
    let w : Scale := if b.1.2.m = 0 then ⟨0, 0⟩ else b.1.2
    leBytes 2 b.2 ++ leBytes 2 (scaleWord w) ++ leBytes 4 (ofSigned 32 (if b.1.2.m = 0 then 0 else b.1.1))

/-- Argmax records written in pixel order. -/
def State.writeRecords (s : State) (die addr : Nat) : List Bytes → State
  | [] => s
  | r :: rs => (s.writeDie die addr r).writeRecords die (addr + r.length) rs

/-- STEM_LAST_ARGMAX (R122): the convolution's elements after stage 5, reduced per pixel. (log entry 30: DEDUCED in part) -/
def State.stemArgmaxResult (s : State) (die : Nat) (o : TileOp) : OpResult :=
  match formatOf o.fmtA, formatOf o.fmtB, formatOf o.fmtOut with
  | some fa, some fb, some fo =>
    if !s.rqOk die o then OpResult.stop s 0x0107
    else
      let xss := s.convElems die o fa fb fo
      let od := s.outStage die o fo xss
      let scaleFor := fun (row col : Nat) =>
        if formatScaled fo then od.scales.getD (scaleIndex o.granO o.n row col) ⟨0, 0⟩ else fixedScale fo
      let recs := od.rows.zipIdx.map (fun p => argmaxRecord (p.1.zipIdx.map (fun q => (q.1, scaleFor p.2 q.2))))
      ⟨s.writeRecords die o.outAddr recs, od.sat.code, od.sat, [(dieLocal die o.outAddr, 8 * recs.length)]⟩
  | _, _, _ => OpResult.stop s 0x0105

/-- ARGMAX over an NHWC tensor of C = k channels (R123). (log entry 30: DEDUCED in part) -/
def State.argmaxResult (s : State) (die : Nat) (o : TileOp) : OpResult :=
  match formatOf o.fmtA with
  | some fa =>
    let hin := o.m % 65536
    let win := o.m / 65536
    let a : Tensor := ⟨die, o.aAddr, o.saAddr, fa, o.granA, o.k, win⟩
    let recs := (List.range (hin * win)).map (fun px =>
      argmaxRecord ((List.range o.k).map (fun c => (s.tensorElem a px c, s.tensorScale a px c))))
    ⟨s.writeRecords die o.outAddr recs, 0, {}, [(dieLocal die o.outAddr, 8 * recs.length)]⟩
  | none => OpResult.stop s 0x0105

/-- What the error-correcting code finds while an operation reads (R108): the state, and whether the operation ends.
(log entry 32: DEDUCED in part) -/
def State.eccCheck (s : State) (die : Nat) : Ecc → State × Bool
  | .clean => (s, false)
  | .corrected t line =>
    let s1 := (s.event (Ev.TILE_EVT_STATUS_ecc_corr die)).setFld (Fld.TILE_ECC_LAST_tile die) t
    ((s1.setFld (Fld.TILE_ECC_LAST_uncorr die) 0).setFld (Fld.TILE_ECC_LAST_line die) line, false)
  | .external => (s.report 0x0B 0, true)
  | .uncorrectable t line =>
    let s1 := (s.event (Ev.TILE_EVT_STATUS_ecc_uncorr die)).setFld (Fld.TILE_ECC_LAST_tile die) t
    (((s1.setFld (Fld.TILE_ECC_LAST_uncorr die) 1).setFld (Fld.TILE_ECC_LAST_line die) line).report 0x0B 0, true)

/-- An operation executed by a run: the error check, the outputs, and the run marked. What an operation that an
uncorrectable error ends has left in its outputs is open.
(log entry 32: DEDUCED in part) -/
def State.execOp (s : State) (r : Run) (ecc : Ecc) (f : State → OpResult) : State :=
  let c := s.eccCheck r.die ecc
  if c.2 then (c.1.undefRanges (f c.1).outs).setRun (r.finishOp 0x0204 {} r.die [])
  else
    let x := f c.1
    x.state.setRun (r.finishOp x.code x.sat r.die x.outs)

/-- A tile operation executed, once its tiles are free (R115). (log entry 32: DEDUCED in part) -/
def State.doTileOp (s : State) (run opcode : Nat) (ecc : Ecc) (f : Run → TileOp → State → OpResult) : State :=
  match s.startable run opcode with
  | some (r, d) => if s.tilesFree r then s.execOp r ecc (f r (tileOpOf d)) else s
  | none => s

/-- An operation of an engine that is not a tile, executed once its engine is free (R115). (log entry 32: DEDUCED in part) -/
def State.doEngineOp (s : State) (run opcode : Nat) (ecc : Ecc) (f : Run → TileOp → State → OpResult) : State :=
  match s.startable run opcode with
  | some (r, d) => if s.engineFree r then s.execOp r ecc (f r (tileOpOf d)) else s
  | none => s

/-- GEMM (R116): the run's current operation, a GEMM, is executed. -/
def execGemm (run : Nat) (ecc : Ecc) (s : State) : Host.Outcome State Fault Refusal :=
  .next (s.doTileOp run 0x01 ecc (fun r o t => t.gemmResult r.die r.args o))

/-- CONV (R110). -/
def execConv (run : Nat) (ecc : Ecc) (s : State) : Host.Outcome State Fault Refusal :=
  .next (s.doTileOp run 0x02 ecc (fun r o t => t.convResult r.die o))

/-- EW (R118). -/
def execEw (run : Nat) (ecc : Ecc) (s : State) : Host.Outcome State Fault Refusal :=
  .next (s.doTileOp run 0x03 ecc (fun r o t => t.ewResult r.die r.args o))

/-- STEM_FIRST (R121): as CONV with the same fields (R122). -/
def execStemFirst (run : Nat) (ecc : Ecc) (s : State) : Host.Outcome State Fault Refusal :=
  .next (s.doEngineOp run 0x10 ecc (fun r o t => t.convResult r.die o))

/-- STEM_LAST (R122). -/
def execStemLast (run : Nat) (ecc : Ecc) (s : State) : Host.Outcome State Fault Refusal :=
  .next (s.doEngineOp run 0x11 ecc (fun r o t => t.convResult r.die o))

/-- STEM_LAST_ARGMAX (R122). -/
def execStemLastArgmax (run : Nat) (ecc : Ecc) (s : State) : Host.Outcome State Fault Refusal :=
  .next (s.doEngineOp run 0x12 ecc (fun r o t => t.stemArgmaxResult r.die o))

/-- ARGMAX (R123). -/
def execArgmax (run : Nat) (ecc : Ecc) (s : State) : Host.Outcome State Fault Refusal :=
  .next (s.doEngineOp run 0x20 ecc (fun r o t => t.argmaxResult r.die o))

end Sys2Proof.Machine
end

