-- ==== Sys2Proof/Machine/Kv.lean ====
section
/-! DEFINITION. The key-value cache (chapter 08): geometry, append groups, appends, ragged attention, pages and the pool,
rollback, and the host's commands. -/

namespace Sys2Proof.Machine

/-! ### Geometry (R138 to R141) -/

/-- A geometry: H heads, d elements of a vector, d × b bytes of a vector, and the cache format. -/
structure KvGeom where
  heads : Nat
  dim : Nat
  vec : Nat
  fmt : Format
deriving DecidableEq, Repr

/-- The geometry of a geometry byte, where R138 and R139 accept it. -/
def kvGeom? (g : Nat) : Option KvGeom :=
  let fmt := if bits g 0 2 = 1 then some Format.int8 else if bits g 0 2 = 2 then some Format.int4 else none
  match fmt with
  | none => none
  | some f =>
    let hd := 2 ^ bits g 2 3
    let d := 64 * 2 ^ bits g 5 2
    let v := runBytes f d
    if bits g 2 3 = 7 ∨ bits g 5 2 = 3 ∨ bit g 7 = true ∨ 4096 < hd * v ∨ v < 64 then none else some ⟨hd, d, v, f⟩

/-- The geometry of an entry; a valid entry always has one (R152). -/
def kvGeom (e : KvEntry) : KvGeom := (kvGeom? e.geom).getD ⟨1, 64, 64, .int8⟩

/-- Tokens per page (R139). -/
def KvGeom.tokens (g : KvGeom) : Nat := 65536 / (2 * g.heads * g.vec)

/-- Data pages of a layer's window, D_w (R140). -/
def kvDw (layers : Nat) : Nat := 61440 / layers

/-- Scale pages of a layer's window, S_w (R140). -/
def kvSw (layers : Nat) : Nat := 4096 / layers

/-- The maximum length of a sequence (R139). -/
def kvMaxLen (e : KvEntry) : Nat := min (kvDw e.layers * (kvGeom e).tokens) 65536

/-- Data pages that one scale page serves (R140). -/
def KvGeom.perScalePage (g : KvGeom) : Nat := g.vec / 2

/-- The page of the range that holds data page p of layer l. -/
def kvDataPage (e : KvEntry) (l p : Nat) : Nat := l * kvDw e.layers + p

/-- The page of the range that holds the scale block of data page p of layer l. -/
def kvScalePage (e : KvEntry) (l p : Nat) : Nat := 0xF000 + l * kvSw e.layers + p / (kvGeom e).perScalePage

/-- The offset from the range base of a vector (R140, R141). -/
def kvVecOff (e : KvEntry) (l pos kv h : Nat) : Nat :=
  let g := kvGeom e
  kvDataPage e l (pos / g.tokens) * 65536 + ((kv * g.heads + h) * g.tokens + pos % g.tokens) * g.vec

/-- The offset from the range base of a vector's scale word (R140, R141). -/
def kvScaleOff (e : KvEntry) (l pos kv h : Nat) : Nat :=
  let g := kvGeom e
  0xF0000000 + l * kvSw e.layers * 65536 + pos / g.tokens * (4 * g.heads * g.tokens) +
    2 * ((kv * g.heads + h) * g.tokens + pos % g.tokens)

/-- The 32 bytes of an entry (R142). -/
def kvEntryBytes (e : KvEntry) : Bytes :=
  leBytes 4 e.committed ++ leBytes 4 e.tentative ++ leBytes 2 e.base ++ leBytes 2 e.genTag ++ leBytes 1 e.owner ++
    leBytes 1 e.holder ++ leBytes 1 e.geom ++ leBytes 1 e.layers ++ leBytes 1 e.cursor ++
    leBytes 1 (b2n e.valid + 2 * b2n e.groupCommit + 4 * b2n e.groupOpen) ++ leBytes 2 0 ++ leBytes 4 e.groupStart ++
    leBytes 4 e.groupN ++ leBytes 4 0

/-! ### Pages and the pool -/

/-- The physical pages in use. -/
def State.kvUsed (s : State) : List Nat := s.kvPages.filterMap (·.2)

/-- The pages free in the pool, lowest first. -/
def State.poolFree (s : State) : List Nat :=
  ((List.range (s.fld Fld.KV_POOL_PAGES_pages)).map (fun i => s.reg64 Reg.KV_POOL_BASE + i * 65536)).filter
    (fun p => !s.kvUsed.contains p)

/-- A page of a sequence's range mapped to the lowest free page of the pool, zeroed first (R147).
(log entry 34: DEDUCED in part) -/
def State.kvMap (s : State) (q page : Nat) : State :=
  match s.poolFree with
  | [] => s
  | p :: _ => { s.zeroRange p 65536 with kvPages := Sparse.put (fun _ => none) s.kvPages (q * 65536 + page) (some p) }

/-- Pages mapped in order. (log entry 34: DEDUCED in part) -/
def State.kvMapAll (s : State) (q : Nat) : List Nat → State
  | [] => s
  | p :: ps => (s.kvMap q p).kvMapAll q ps

/-- The pages that an append of n tokens at P in layer l must map: each data page whose first position it writes, and
each scale page with the first data page it serves (R147). (log entry 34: DEDUCED in part) -/
def kvNewPages (e : KvEntry) (l p n : Nat) : List Nat :=
  let t := (kvGeom e).tokens
  ((List.range (ceilDiv (p + n) t)).filter (fun i => p ≤ i * t && i * t < p + n)).flatMap (fun i =>
    kvDataPage e l i :: (if i % (kvGeom e).perScalePage = 0 then [kvScalePage e l i] else []))

/-- The pages of a sequence that a rollback to length C returns: data pages whose first position is at or above C, and
scale pages all of whose data pages are (R133, R154). -/
def kvDrops (e : KvEntry) (c page : Nat) : Bool :=
  if page < 0xF000 then c ≤ page % kvDw e.layers * (kvGeom e).tokens
  else c ≤ (page - 0xF000) % kvSw e.layers * (kvGeom e).perScalePage * (kvGeom e).tokens

/-- A rollback of a sequence to committed length C, with the buffer entries of its pages invalidated (R133, R187). -/
def State.kvRollback (s : State) (q c : Nat) : State :=
  let e := s.kvEntry q
  let drop := fun (k : Nat) => k / 65536 == q && kvDrops e c (k % 65536)
  let n := (s.kvPages.filter (fun p => drop p.1)).length
  let s1 := s.setKv q { e with committed := c, tentative := c }
  let gone := fun (x : TlbEntry) => s.linkedSeq? x.ctx x.va == some q && drop (q * 65536 + x.va % 0x100000000 / 65536)
  ({ s1.tlbDrop gone with kvPages := s1.kvPages.filter (fun p => !drop p.1) }).count64 Reg.KV_PAGES_RECLAIMED n

/-- An open group closed without changing either length (R145). -/
def KvEntry.closeGroup (e : KvEntry) : KvEntry := { e with groupOpen := false, cursor := 0 }

/-- FREE's effect (R152): the group closed, every page reclaimed, the tag advanced, the entry not valid, and the links
to the sequence gone with it. (log entry 35: DEDUCED in part) -/
def State.kvFree (s : State) (q : Nat) : State :=
  let s1 := (s.setKv q (s.kvEntry q).closeGroup).kvRollback q 0
  let e := s1.kvEntry q
  let s2 := s1.setKv q { e with genTag := if e.genTag = 65535 then 1 else e.genTag + 1, valid := false }
  { s2 with seqLinks := s2.seqLinks.filter (fun p => p.2 != q), kvTouched := s2.kvTouched.filter (fun t => t.seq != q) }

/-- The sequences that an ending invocation or schedule leaves unsettled, each rolled back to its committed length
(R134, R145); a rollback of an open group is reported. -/
def State.kvSettle (s : State) : List KvTouch → State
  | [] => s
  | t :: ts =>
    let e := s.kvEntry t.seq
    let s1 :=
      if e.valid && (e.groupOpen || e.tentative != e.committed) then
        ((s.setKv t.seq e.closeGroup).kvRollback t.seq e.committed).eventIf e.groupOpen Ev.KV_EVT_STATUS_rollback
      else s
    { s1 with kvTouched := s1.kvTouched.filter (fun x => x != t) }.kvSettle ts

/-! ### Lists (R150) -/

/-- The entries of a list after R150. -/
def State.kvList (s : State) (die kind addr len : Nat) : List KvWork :=
  if kind = 0 then
    (List.range len).map (fun i =>
      let b := s.readDie die (addr + 16 * i) 16
      ⟨fieldAt b 0 2, fieldAt b 2 2, fieldAt b 4 4, fieldAt b 8 2, fieldAt b 12 4⟩)
  else
    let es := ((List.range len).map (fun i => batchOf (s.readDie die (addr + 16 * i) 16))).filter (fun e =>
      e.inRound && (kind == 1 || e.draft != 0xFFFF))
    (es.foldl (fun (r : List KvWork × Nat) b =>
      let w : KvWork :=
        if kind = 1 then ⟨b.seq, b.tag, (s.kvEntry b.seq).committed, b.d + 1, r.2⟩
        else
          let e := s.kvEntry b.draft
          ⟨b.draft, b.draftTag, e.tentative, if e.tentative = e.committed then b.lag + 1 else 1, r.2⟩
      (r.1 ++ [w], r.2 + w.count)) ([], 0)).1

/-- True where ranges (first, end) cover all from an address to an end, with fuel for the ranges. -/
def covered (rs : List (Nat × Nat)) (e : Nat) : Nat → Nat → Bool
  | 0, a => e ≤ a
  | n + 1, a =>
    if e ≤ a then true
    else match rs.find? (fun r => r.1 ≤ a && a < r.2) with
      | none => false
      | some r => covered rs e n r.2

/-- The die-local ranges of a context's shared-SRAM shares, within the SRAM that the die has (R107). -/
def Layout.sramRanges (l : Layout) (ctx die : Nat) : List (Nat × Nat) :=
  let size := [56, 256, 64, 32, 32].getD die 0 * 0x100000
  (l.sharesOf ctx die 1).map (fun h => (h.first * 65536, min size ((h.first + h.count) * 65536)))

/-- The die-local ranges of a context's tile shares, within the tiles that the die has (R107). -/
def Layout.tileShareRanges (l : Layout) (ctx die : Nat) : List (Nat × Nat) :=
  let tile := [1, 0, 4, 2, 2].getD die 0 * 0x100000
  let held := l.sharesOf ctx die 0
  ((List.range ([8, 0, 16, 48, 48].getD die 0)).filter (fun t => held.any (fun h => decide (h.first ≤ t ∧ t < h.first + h.count)))).map
    (fun t => (0x08000000 + t * 0x400000, 0x08000000 + t * 0x400000 + tile))

/-- True where a die-local range lies in the SRAM and tile SRAM that a context's shares give it (R107).
(log entry 17: DESIGN CHOICE in part) -/
def Layout.inShares (l : Layout) (ctx die addr len : Nat) : Bool :=
  let rs := l.sramRanges ctx die ++ l.tileShareRanges ctx die
  covered rs (addr + len) rs.length addr

/-- The checks of a list's own bytes and counts: reserved bytes and bits are zero (R10), and each count is in its range and
in that of the engine, 1 to 9 in an ATTN of the decode engine (R124, R150). (log entry 34: DEDUCED in part) -/
def State.kvListOk (s : State) (die kind addr len : Nat) (attn : Bool) (ws : List KvWork) : Bool :=
  (List.range len).all (fun i =>
    let b := s.readDie die (addr + 16 * i) 16
    if kind = 0 then fieldAt b 10 2 == 0 else !(batchOf b).inRound || bits (fieldAt b 14 1) 4 4 == 0) &&
    ws.all (fun w => 1 ≤ w.count && (!attn || die != 2 || w.count ≤ 9))

/-- The batch checks of R150 that do not depend on the operation: no sequence twice, no row in two entries, and the row
ranges in the context's shares; `rowLen` gives the bytes of a row of an entry. (log entry 34: DEDUCED in part) -/
def State.kvBatchOk (s : State) (ctx die src : Nat) (rowLen : KvWork → Nat) (ws : List KvWork) : Bool :=
  let seqs := ws.map (·.seq)
  let disjoint := ws.zipIdx.all (fun p => ws.zipIdx.all (fun q =>
    p.2 == q.2 || p.1.row + p.1.count ≤ q.1.row || q.1.row + q.1.count ≤ p.1.row))
  decide seqs.Nodup && disjoint && ws.all (fun w =>
    s.layout.elim false (fun l => l.inShares ctx die (src + w.row * alignUp 64 (rowLen w)) (w.count * alignUp 64 (rowLen w))))

/-! ### KV_APPEND (R143 to R147) -/

/-- The first refusal of an append, in the order of R143; 0 when it is accepted. (log entry 34: DEDUCED in part) -/
def State.appendRefusal (s : State) (ctx layer : Nat) (tent : Bool) (w : KvWork) : Nat :=
  let e := s.kvEntry w.seq
  if 4095 < w.seq ∨ e.valid = false then 0x0302
  else if w.tag ≠ e.genTag then 0x0303
  else if ctx ≠ e.holder then 0x0304
  else if !(if layer = 0 then !e.groupOpen && w.start == e.tentative && (tent || e.tentative == e.committed)
      else e.groupOpen && layer == e.cursor && w.start == e.groupStart && w.count == e.groupN && (e.groupCommit == !tent))
    then 0x0305
  else if tent && decide (9 < e.tentative + w.count - e.committed) then 0x0306
  else if kvMaxLen e < w.start + w.count then 0x0307
  else if s.poolFree.length < (kvNewPages e layer w.start w.count).length then 0x0308
  else 0

/-- The entry after an accepted append of a layer (R143). -/
def KvEntry.appended (e : KvEntry) (layer : Nat) (tent : Bool) (w : KvWork) : KvEntry :=
  let e1 := if layer = 0 then
      { e with groupOpen := true, groupStart := w.start, groupN := w.count, groupCommit := !tent, cursor := 1 }
    else { e with cursor := e.cursor + 1 }
  if layer + 1 = e.layers then
    { e1.closeGroup with
      tentative := e.tentative + w.count
      committed := if tent then e.committed else e.committed + w.count }
  else e1

/-- One vector quantised and written, with its scale word (R146); the saturation events. -/
def State.appendVec (s : State) (q layer pos kv h : Nat) (src : Tensor) (row : Nat) : State × SatEvents :=
  let e := s.kvEntry q
  let g := kvGeom e
  let xs := (List.range g.dim).map (fun i =>
    let col := (kv * g.heads + h) * g.dim + i
    let w := s.tensorScale src row col
    ((if w.m = 0 then 0 else s.tensorElem src row col * (w.m : Int)), w.e))
  let z := absmax g.fmt xs
  let at' := fun (off : Nat) => (s.kvPage q (off / 65536)).getD 0 + off % 65536
  let s1 := s.writePhys (at' (kvVecOff e layer pos kv h)) (packRun g.fmt z.qs)
  (s1.writePhys (at' (kvScaleOff e layer pos kv h)) (leBytes 2 (scaleWord z.scale)),
    { out := z.clamped.any id, scale := z.scaleSat, elems := (z.clamped.filter id).length })

/-- Every vector of an accepted entry: tokens, then keys and values, then heads. -/
def State.appendTokens (s : State) (layer : Nat) (w : KvWork) (src : Tensor) : State × SatEvents :=
  let g := kvGeom (s.kvEntry w.seq)
  let idx := (List.range w.count).flatMap (fun t => (List.range 2).flatMap (fun kv =>
    (List.range g.heads).map (fun h => (t, kv, h))))
  idx.foldl (fun (r : State × SatEvents) i =>
    let x := r.1.appendVec w.seq layer (w.start + i.1) i.2.1 i.2.2 src (w.row + i.1)
    (x.1, r.2.join x.2)) (s, {})

/-- An entry of a KV_APPEND: refused (R144) or appended. The result is the state, the refusal code and the events. -/
def State.appendEntry (s : State) (ctx : Nat) (inv : Option Nat) (layer : Nat) (tent : Bool) (src : Tensor)
    (w : KvWork) : State × Nat × SatEvents :=
  let code := s.appendRefusal ctx layer tent w
  if code ≠ 0 then
    let s1 := (s.event Ev.KV_EVT_STATUS_refused).eventIf (code == 0x0308) Ev.KV_EVT_STATUS_pool_empty
    ((s1.setFld Fld.KV_REFUSE_LAST_seq_id w.seq).setFld Fld.KV_REFUSE_LAST_code code, code, {})
  else
    let e := s.kvEntry w.seq
    let g := kvGeom e
    let s1 := s.kvMapAll w.seq (kvNewPages e layer w.start w.count)
    let x := s1.appendTokens layer w { src with inner := 2 * g.heads * g.dim }
    let s2 := (x.1.setKv w.seq (e.appended layer tent w)).count64 Reg.KV_TOKENS_APPENDED w.count
    let t : KvTouch := ⟨ctx, inv, w.seq⟩
    ({ s2 with kvTouched := if s2.kvTouched.contains t then s2.kvTouched else s2.kvTouched ++ [t] }, 0, x.2)

/-- The invocation that a run belongs to, if any: its own, or that of the activation whose step it is (R450). -/
def State.runInv (s : State) (r : Run) : Option Nat :=
  match r.origin with
  | .invocation n => some n
  | .step k _ => ((s.ctx r.ctx).acts.find? (fun a => a.index == k)).bind (·.inv)

/-- The lowest of the codes that are not 0, and 0 when there is none. -/
def lowestCode (cs : List Nat) : Nat := ((cs.filter (· != 0)).min?).getD 0

/-- KV_APPEND of a run's descriptor (R149, R150). -/
def State.kvAppendResult (s : State) (r : Run) (d : Bytes) : OpResult :=
  let kind := bits (fieldAt d 1 1) 0 2
  let tent := bit (fieldAt d 1 1) 2
  let layer := fieldAt d 2 1
  match formatOf (bits (fieldAt d 3 1) 0 4) with
  | none => OpResult.stop s 0x0105
  | some f =>
    let src : Tensor := ⟨r.die, fieldAt d 0xC 4, fieldAt d 0x10 4, f, bits (fieldAt d 3 1) 4 3, 0, 0⟩
    let ws := s.kvList r.die kind (fieldAt d 4 4) (fieldAt d 8 2)
    let rowLen := fun (w : KvWork) => let g := kvGeom (s.kvEntry w.seq); runBytes f (2 * g.heads * g.dim)
    if !s.kvListOk r.die kind (fieldAt d 4 4) (fieldAt d 8 2) false ws || !s.kvBatchOk r.ctx r.die src.addr rowLen ws
    then OpResult.stop s 0x030A
    else
      let x := ws.foldl (fun (a : State × List Nat × SatEvents) w =>
        let y := a.1.appendEntry r.ctx (s.runInv r) layer tent src w
        (y.1, a.2.1 ++ [y.2.1], a.2.2.join y.2.2)) (s, [], {})
      let bad := lowestCode x.2.1
      ⟨x.1, if bad = 0 then x.2.2.code else bad, x.2.2, []⟩

/-- KV_APPEND: the run's current operation, an append of one layer, is executed on the Cache die's manager (R143). An
uncorrectable error of its source ends it before it appends. (log entry 34: DEDUCED in part) -/
def execKvAppend (op : Nat × Ecc) (s : State) : Host.Outcome State Fault Refusal :=
  .next (match s.startable op.1 0x50 with
    | none => s
    | some (r, d) =>
      let c := s.eccCheck r.die op.2
      if c.2 then (c.1.setRun (r.finishOp 0x0204 {} 1 [])).noteActive 2
      else
        let x := c.1.kvAppendResult r d
        (x.state.setRun (r.finishOp x.code x.sat 1 [])).noteActive 2)

/-! ### ATTN (R149 to R151) -/

/-- What a context may read of a sequence (R151). -/
def kvReadable (e : KvEntry) (ctx layer pos : Nat) : Bool :=
  if ctx = e.holder then
    pos < e.tentative || (e.groupOpen && decide (layer < e.cursor) && decide (e.groupStart ≤ pos) && decide (pos < e.groupStart + e.groupN))
  else pos < e.committed

/-- A key or value vector and its scale word, read through a context's root (R141, R148). -/
def State.kvVec (s : State) (die ctx q layer pos kv h : Nat) : Except (Nat × Nat) (List Int × Scale) :=
  let e := s.kvEntry q
  let g := kvGeom e
  let base := e.base * 0x100000000
  match s.readVa (.engine die) ctx (base + kvVecOff e layer pos kv h) g.vec with
  | .error x => .error x
  | .ok bs =>
    match s.readVa (.engine die) ctx (base + kvScaleOff e layer pos kv h) 2 with
    | .error x => .error x
    | .ok ws => .ok (unpack g.fmt bs g.dim, scaleOf (leNat ws))

/-- The vectors of positions 0 to n - 1 of a head. -/
def State.kvVecs (s : State) (die ctx q layer kv h : Nat) : Nat → Except (Nat × Nat) (List (List Int × Scale))
  | 0 => .ok []
  | n + 1 =>
    match s.kvVecs die ctx q layer kv h n with
    | .error x => .error x
    | .ok vs =>
      match s.kvVec die ctx q layer n kv h with
      | .error x => .error x
      | .ok v => .ok (vs ++ [v])

/-- One output row of one head (R120, R151): scores, softmax, values, requantised. (log entry 34: DEDUCED in part) -/
def attnRow (h1 h2 fo : Nat) (rs rv : Nat × Int) (fout : Format) (q : List Int) (qw : Scale)
    (ks vs : List (List Int × Scale)) : List Int × SatEvents :=
  let score := fun (k : List Int × Scale) =>
    let ts := (spanBlocks 128 0 q.length).map (fun p =>
      (⟨(List.zipWith (· * ·) ((q.drop p.1).take (p.2 - p.1)) ((k.1.drop p.1).take (p.2 - p.1))).sum, qw.m * k.2.m, qw.e + k.2.e⟩ : Term))
    let r := accumulate h1 [ts]
    let y := requantise .int32 false r.1 r.2.1 rs.1 rs.2
    (y.1, r.2.2, y.2)
  let sc := ks.map score
  let ps := softmaxRow .uint8 16 fo (sc.map (fun x => some x.1))
  let out := (List.range q.length).map (fun i =>
    let ts := List.zipWith (fun (p : Int × Bool) (v : List Int × Scale) =>
      (⟨p.1 * v.1.getD i 0, v.2.m, v.2.e - fo⟩ : Term)) ps vs
    let r := accumulate h2 [ts]
    let y := requantise fout false r.1 r.2.1 rv.1 rv.2
    (y.1, r.2.2, y.2))
  let all := sc ++ out
  (out.map (·.1),
    { acc := all.any (fun x => x.2.1), out := all.any (fun x => x.2.2) || ps.any (·.2)
      elems := (all.filter (fun x => x.2.1 || x.2.2)).length + (ps.filter (·.2)).length })

/-- The output row of a query: every query head in turn, with its key-value head (R149).
(log entry 34: DEDUCED in part) -/
def State.attnQuery (s : State) (r : Run) (d : Bytes) (fq fout : Format) (w : KvWork) (j : Nat) :
    Except (Nat × Nat) (List Int × SatEvents) :=
  let e := s.kvEntry w.seq
  let g := kvGeom e
  let group := fieldAt d 3 1
  let qt : Tensor := ⟨r.die, fieldAt d 0xC 4, fieldAt d 0x10 4, fq, 0, g.heads * group * g.dim, 0⟩
  let row := w.row + j
  (List.range (g.heads * group)).foldl (fun (acc : Except (Nat × Nat) (List Int × SatEvents)) hq =>
    match acc with
    | .error x => .error x
    | .ok (xs, ev) =>
      match s.kvVecs r.die r.ctx w.seq (fieldAt d 2 1) 0 (hq / group) (w.start + j + 1),
          s.kvVecs r.die r.ctx w.seq (fieldAt d 2 1) 1 (hq / group) (w.start + j + 1) with
      | .ok ks, .ok vs =>
        let q := (List.range g.dim).map (fun i => s.tensorElem qt row (hq * g.dim + i))
        let qw := scaleOf (leNat (s.readDie r.die (qt.sAddr + 2 * (row * (g.heads * group) + hq)) 2))
        let o := attnRow (bits (fieldAt d 0x24 1) 0 4) (bits (fieldAt d 0x24 1) 4 4) (bits (fieldAt d 0xB 1) 0 3)
          (s.rqEntry r.die (fieldAt d 0x1C 4) 0) (s.rqEntry r.die (fieldAt d 0x20 4) 0) fout q qw ks vs
        .ok (xs ++ o.1, ev.join o.2)
      | .error x, _ => .error x
      | _, .error x => .error x) (.ok ([], {}))

/-- The queries of a batch in order: entry, row and output row of each, and the events. -/
def State.attnAll (s : State) (r : Run) (d : Bytes) (fq fout : Format) :
    List (KvWork × Nat) → Except (Nat × Nat) (List (KvWork × Nat × List Int) × SatEvents)
  | [] => .ok ([], {})
  | (w, j) :: js =>
    match s.attnQuery r d fq fout w j with
    | .error x => .error x
    | .ok o =>
      match s.attnAll r d fq fout js with
      | .error x => .error x
      | .ok (os, ev) => .ok ((w, w.row + j, o.1) :: os, o.2.join ev)

/-- ATTN of a run's descriptor (R149 to R151). (log entry 34: DEDUCED in part) -/
def State.attnResult (s : State) (r : Run) (d : Bytes) : OpResult :=
  let layer := fieldAt d 2 1
  let group := fieldAt d 3 1
  let ws := s.kvList r.die (bits (fieldAt d 1 1) 0 2) (fieldAt d 4 4) (fieldAt d 8 2)
  match formatOf (bits (fieldAt d 0xA 1) 0 4), formatOf (bits (fieldAt d 0xA 1) 4 4) with
  | some fq, some fout =>
    let rs := (s.rqEntry r.die (fieldAt d 0x1C 4) 0).2
    let rv := (s.rqEntry r.die (fieldAt d 0x20 4) 0).2
    let width := fun (w : KvWork) => let g := kvGeom (s.kvEntry w.seq); g.heads * group * g.dim
    let stale := lowestCode (ws.map (fun w =>
      let e := s.kvEntry w.seq
      if 4095 < w.seq ∨ e.valid = false then 0x0302 else if e.genTag ≠ w.tag then 0x0303 else 0))
    if rs < -512 ∨ 511 < rs ∨ rv < -512 ∨ 511 < rv then OpResult.stop s 0x0107
    else if stale ≠ 0 then OpResult.stop s stale
    else if !s.kvListOk r.die (bits (fieldAt d 1 1) 0 2) (fieldAt d 4 4) (fieldAt d 8 2) true ws ||
        !s.kvBatchOk r.ctx r.die (fieldAt d 0xC 4) (fun w => runBytes fq (width w)) ws ||
        ws.any (fun w => !(List.range (w.start + w.count)).all (fun p => kvReadable (s.kvEntry w.seq) r.ctx layer p))
      then OpResult.stop s 0x030A
    else
      let jobs := ws.flatMap (fun w => (List.range w.count).map (fun j => (w, j)))
      let res := s.attnAll r d fq fout jobs
      match res with
      | .error (code, va) => OpResult.stop (s.xltFault r.die r.ctx code va) code
      | .ok (os, ev) =>
        let t := fun (w : KvWork) => (⟨r.die, fieldAt d 0x14 4, fieldAt d 0x18 4, fout, 0, width w, 0⟩ : Tensor)
        let s1 := os.foldl (fun (a : State) o => a.writeRow (t o.1) o.2.1 o.2.2) s
        let sw := if formatScaled fout then [scaleOf (leNat (s.readDie r.die (alignUp 64 (fieldAt d 0x20 4 + 4)) 2))] else []
        ⟨s1.writeScales r.die (fieldAt d 0x18 4) sw, ev.code, ev,
          os.map (fun o => (dieLocal r.die (fieldAt d 0x14 4 + (t o.1).rowOff o.2.1), (t o.1).rowOff 1))⟩
  | _, _ => OpResult.stop s 0x0105

/-- ATTN: the run's current operation, ragged causal attention, is executed once the tiles of its share are free (R115,
R120, R151). -/
def execAttn (run : Nat) (ecc : Ecc) (s : State) : Host.Outcome State Fault Refusal :=
  .next (match s.startable run 0x51 with
    | none => s
    | some (r, d) => if s.tilesFree r then s.execOp r ecc (fun t => t.attnResult r d) else s)

/-! ### Commands of the host (R152 to R154) -/

/-- The sequences that a run's current KV_APPEND or ATTN names while it runs (R153). -/
def State.runSeqs (s : State) (r : Run) : List Nat :=
  if r.executed && r.done.isNone then
    match s.currentOp r with
    | some d =>
      if fieldAt d 0 1 = 0x50 ∨ fieldAt d 0 1 = 0x51 then
        (s.kvList r.die (bits (fieldAt d 1 1) 0 2) (fieldAt d 4 4) (fieldAt d 8 2)).map (·.seq)
      else []
    | none => []
  else []

/-- The assigned codes of the key-value subject (R137, R155). (log entry 6: DESIGN CHOICE in part) -/
def kvCodes : List Nat :=
  [0x0301, 0x0302, 0x0303, 0x0304, 0x0305, 0x0306, 0x0307, 0x0308, 0x0309, 0x030A, 0x030B, 0x0380, 0x0381, 0x0382, 0x0383]

/-- A start of a KV command: ignored with cmd_reject while one waits (R152). The opcode and sequence stand in KV_CMD. -/
def State.kvStart (s : State) (who : Requester) (op seq : Nat) (f : State → State) : State :=
  s.busWrite who 1 0x41 false (fun s =>
    let s1 := (s.setFld Fld.KV_CMD_op op).setFld Fld.KV_CMD_seq_id seq
    if s1.flag Fld.KV_CMD_STATUS_busy then s1.event Ev.KV_EVT_STATUS_cmd_reject else f s1)

/-- The status of a command that has ended. -/
def State.kvStatus (s : State) (code : Nat) : State :=
  (s.setFld Fld.KV_CMD_STATUS_busy 0).setFld Fld.KV_CMD_STATUS_code code

/-- The code CREATE fails with, `none` where the spec names no code for the failed requirement; 0 when it succeeds.
(log entry 34: DEDUCED in part) -/
def State.kvCreateCode (s : State) (q : Nat) : Option Nat :=
  let owner := s.fld Fld.KV_CMD_ARG_0_owner
  let base := s.fld Fld.KV_CMD_ARG_1_value % 65536
  if (s.kvEntry q).valid then none
  else if (kvGeom? (s.fld Fld.KV_CMD_ARG_0_geom)).isNone ∨ s.fld Fld.KV_CMD_ARG_0_layers = 0 then some 0x0301
  else if (s.ctx owner).phase ≠ .resident ∨ (s.ctx (s.fld Fld.KV_CMD_ARG_0_holder)).phase ≠ .resident then none
  else if s.kv.any (fun p => p.2.valid && p.2.owner == owner && p.2.base == base) then some 0x030B
  else some 0

/-- KV_CREATE (R152): writes the entry with both lengths 0, links the range into the owner's root, sets valid. -/
def execKvCreate (who : Requester) (seq : Nat) (s : State) : Host.Outcome State Fault Refusal :=
  .next (s.kvStart who 1 seq (fun s =>
    match s.kvCreateCode seq with
    | none => (s.kvStatus (s.freeCode kvCodes)).useFree 1
    | some 0 =>
      let owner := s.fld Fld.KV_CMD_ARG_0_owner
      let e : KvEntry :=
        { genTag := (s.kvEntry seq).genTag, base := s.fld Fld.KV_CMD_ARG_1_value % 65536, owner := owner
          holder := s.fld Fld.KV_CMD_ARG_0_holder, geom := s.fld Fld.KV_CMD_ARG_0_geom
          layers := s.fld Fld.KV_CMD_ARG_0_layers, valid := true }
      let s1 := s.setKv seq e
      { s1 with seqLinks := s1.seqLinks ++ [(owner, seq)] }.kvStatus 0
    | some c => s.kvStatus c))

/-- KV_FREE (R152, R153): accepted, and waits for the operations that name the sequence. -/
def execKvFree (who : Requester) (seq : Nat) (s : State) : Host.Outcome State Fault Refusal :=
  .next (s.kvStart who 2 seq (fun s =>
    if (s.kvEntry seq).valid then { s.setFld Fld.KV_CMD_STATUS_busy 1 with kvPending := some ⟨2, seq, 0⟩ }
    else s.kvStatus 0x0302))

/-- KV_TRUNCATE (R152, R153): accepted to roll back to length C. (log entry 34: DEDUCED in part) -/
def execKvTruncate (who : Requester) (seq : Nat) (s : State) : Host.Outcome State Fault Refusal :=
  .next (s.kvStart who 3 seq (fun s =>
    let e := s.kvEntry seq
    let c := s.fld Fld.KV_CMD_ARG_1_value
    if e.valid = false then s.kvStatus 0x0302
    else if e.groupOpen then s.kvStatus 0x0309
    else if e.committed < c then (s.kvStatus (s.freeCode kvCodes)).useFree 1
    else { s.setFld Fld.KV_CMD_STATUS_busy 1 with kvPending := some ⟨3, seq, c⟩ }))

/-- KV_GRANT (R152): sets the holder of the append right. (log entry 34: DEDUCED in part) -/
def execKvGrant (who : Requester) (seq : Nat) (s : State) : Host.Outcome State Fault Refusal :=
  .next (s.kvStart who 4 seq (fun s =>
    let e := s.kvEntry seq
    let h := s.fld Fld.KV_CMD_ARG_0_holder
    if e.valid = false then s.kvStatus 0x0302
    else if e.groupOpen then s.kvStatus 0x0309
    else if (s.ctx h).phase ≠ .resident then (s.kvStatus (s.freeCode kvCodes)).useFree 1
    else (s.setKv seq { e with holder := h }).kvStatus 0))

/-- Bytes written into consecutive registers, four to a register, the lowest byte in bits [7:0]. -/
def State.setRegBytes (s : State) (a : Nat) : Nat → Bytes → State
  | 0, _ => s
  | n + 1, bs => (s.setReg a (BitVec.ofNat 32 (fieldAt bs 0 4))).setRegBytes (a + 4) n (bs.drop 4)

/-- KV_READ (R152): copies the entry into KV_CMD_DATA_0 to KV_CMD_DATA_7. (log entry 34: DEDUCED in part) -/
def execKvRead (who : Requester) (seq : Nat) (s : State) : Host.Outcome State Fault Refusal :=
  .next (s.kvStart who 5 seq (fun s =>
    (s.setRegBytes (Reg.KV_CMD_DATA 0) 8 (kvEntryBytes (s.kvEntry seq))).kvStatus 0))

/-- KV_CMD_TAKE_EFFECT (R153): the waiting FREE or TRUNCATE, once no KV_APPEND or ATTN that names the sequence runs.
(log entry 34: DEDUCED in part) -/
def execKvCmdTakeEffect (s : State) : Host.Outcome State Fault Refusal :=
  .next (match s.kvPending with
    | none => s
    | some p =>
      if s.runs.any (fun r => (s.runSeqs r).contains p.seq) then s
      else
        let s0 := { s with kvPending := none }
        let e := s0.kvEntry p.seq
        if e.valid = false then s0.kvStatus 0x0302
        else if p.op = 2 then (s0.kvFree p.seq).kvStatus 0
        else if e.groupOpen then s0.kvStatus 0x0309
        else if e.committed < p.arg then (s0.kvStatus (s0.freeCode kvCodes)).useFree 1
        else (s0.kvRollback p.seq p.arg).kvStatus 0)

/-- True where a range of HBM covers a placed allocation (R175). -/
def State.coversAlloc (s : State) (base len : Nat) : Bool :=
  s.maps.any (fun m => decide (m.tier ≠ 2) && m.extents.any (fun x => x.1 < base + len && base < x.1 + x.2))

/-- KV_POOL_WRITE (R154, R175): a write of the pool's base (`pages` = false; the requester's staged half is consumed, R5) or
of its page count. -/
def execKvPoolWrite (who : Requester) (pages : Bool) (value : Nat) (s : State) : Host.Outcome State Fault Refusal :=
  .next (s.busWrite who 1 0x41 false (fun s =>
    let base := if pages then s.reg64 Reg.KV_POOL_BASE else value % 2 ^ 64 / 65536 * 65536
    let n := if pages then value % 2 ^ 21 else s.fld Fld.KV_POOL_PAGES_pages
    let s := if pages then s else { s with staged := dropHalf s.staged who Reg.KV_POOL_BASE }
    if s.kv.any (fun p => p.2.valid) || s.coversAlloc base (n * 65536) then s.event Ev.KV_EVT_STATUS_cmd_reject
    else if pages then s.setFld Fld.KV_POOL_PAGES_pages n else s.setReg64 Reg.KV_POOL_BASE base))

end Sys2Proof.Machine
end

