-- ==== Sys2Proof/Machine/Nodes.lean ====
section
/-! DEFINITION. The configuration of the world map and its node pool (R259, R262, R266, R269): nodes in memory form, their
places in the two node areas, and their return. -/

namespace Sys2Proof.Machine

/-- A range placed in order of base. -/
def insertRange (r : Nat × Nat) : List (Nat × Nat) → List (Nat × Nat)
  | [] => [r]
  | x :: xs => if r.1 ≤ x.1 then r :: x :: xs else x :: insertRange r xs

/-- Ranges in order of base. -/
def sortRanges (rs : List (Nat × Nat)) : List (Nat × Nat) := rs.foldl (fun a r => insertRange r a) []

/-- The gaps between `lo` and `hi` that sorted ranges leave. (log entry 36: DESIGN CHOICE in part) -/
def gapsIn (hi : Nat) : Nat → List (Nat × Nat) → List (Nat × Nat)
  | lo, [] => if lo < hi then [(lo, hi - lo)] else []
  | lo, (b, n) :: rs => if lo < b then (lo, min b hi - lo) :: gapsIn hi (max lo (b + n)) rs else gapsIn hi (max lo (b + n)) rs

/-! ### Configuration (R259) -/

/-- The MAPCFG record. -/
structure MapCfg where
  owner : Nat
  depth : Nat
  unknownBlocks : Bool
  leafMm : Nat
  freeConfirm : Nat
  deltaLevel : Nat
  origin : List Int
  nodes : Nat
  slots : Nat
  deltaEntries : Nat
  deltaVa : Nat
  sdfVa : Nat
  sdfN : List Nat
  sdfShift : Nat
  sdfOrigin : List Int
  nodeSram : Nat
  sramNodes : Nat
  nodeVa : Nat
  psramNodes : Nat
  sramLevels : Nat
deriving DecidableEq, Repr

/-- Three INT32 at an offset. -/
def int3 (b : Bytes) (off : Nat) : List Int := [sfieldAt b off 4, sfieldAt b (off + 4) 4, sfieldAt b (off + 8) 4]

/-- The fields of a MAPCFG record. -/
def mapCfgOf (r : Bytes) : MapCfg where
  owner := fieldAt r 1 1
  depth := fieldAt r 2 1
  unknownBlocks := bit (fieldAt r 3 1) 0
  leafMm := fieldAt r 4 2
  freeConfirm := fieldAt r 6 1
  deltaLevel := fieldAt r 7 1
  origin := int3 r 8
  nodes := fieldAt r 0x18 4 + fieldAt r 0x1C 4
  slots := fieldAt r 0x28 2
  deltaEntries := fieldAt r 0x2C 4
  deltaVa := fieldAt r 0x30 8
  sdfVa := fieldAt r 0x38 8
  sdfN := [fieldAt r 0x40 2, fieldAt r 0x42 2, fieldAt r 0x44 2]
  sdfShift := fieldAt r 0x46 1
  sdfOrigin := int3 r 0x4C
  nodeSram := fieldAt r 0x14 4
  sramNodes := fieldAt r 0x18 4
  nodeVa := fieldAt r 0x20 8
  psramNodes := fieldAt r 0x1C 4
  sramLevels := fieldAt r 0x48 1

/-- The active map configuration. -/
def State.mapCfg? (s : State) : Option MapCfg := (s.recs 8).head?.map mapCfgOf

/-! ### The tree (R262, R263) -/

/-- What an absent cell holds (R262). -/
def unknownCell : MapCell := ⟨0, 0, List.replicate 7 0⟩

/-- The eight children a node stands for. -/
def MapTree.kids : MapTree → List MapTree
  | .absent => List.replicate 8 .absent
  | .cell c => List.replicate 8 (.cell c)
  | .inner _ c0 c1 c2 c3 c4 c5 c6 c7 => [c0, c1, c2, c3, c4, c5, c6, c7]

/-- The child groups of a tree with their present children. (log entry 50: DEDUCED in part) -/
def MapTree.groups : MapTree → List (Nat × Nat)
  | .absent => []
  | .cell _ => []
  | .inner g c0 c1 c2 c3 c4 c5 c6 c7 =>
    (g, ([c0, c1, c2, c3, c4, c5, c6, c7].filter (fun t => t != .absent)).length) ::
      (c0.groups ++ c1.groups ++ c2.groups ++ c3.groups ++ c4.groups ++ c5.groups ++ c6.groups ++ c7.groups)

/-- The state mask and the highest costs of what a node covers (R262). -/
def MapTree.summary : MapTree → Nat × Bytes
  | .absent => (1, List.replicate 7 0)
  | .cell c => (2 ^ c.state, c.costs)
  | .inner _ c0 c1 c2 c3 c4 c5 c6 c7 =>
    [c0.summary, c1.summary, c2.summary, c3.summary, c4.summary, c5.summary, c6.summary, c7.summary].foldl
      (fun (r : Nat × Bytes) x => (r.1 ||| x.1, (r.2.zip x.2).map (fun p => if p.1.toNat < p.2.toNat then p.2 else p.1)))
      (0, List.replicate 7 0)

/-- The group of a node whose children have no place yet: no node index (R259) is as high.
(log entry 50: DEDUCED in part) -/
def newGroup : Nat := 2 ^ 23

/-- One node in memory form with its child_base, at remaining depth `d` (R262). -/
def nodeBytes (d : Nat) (t : MapTree) (base : Nat) : Bytes :=
  match t with
  | .absent => []
  | .cell c => leBytes 4 ((if d = 0 then 2 else 3) + 4 * c.state + 16 * 2 ^ c.state + 256 * c.free) ++ leBytes 4 0 ++ c.costs ++ [0]
  | t =>
    let m := t.summary
    let mask := ((t.kids.zipIdx.filter (fun p => p.1 != .absent)).map (fun p => 2 ^ p.2)).sum
    leBytes 4 (1 + 16 * m.1 + 4096 * mask) ++ leBytes 4 base ++ m.2 ++ [0]

/-- The group of an INNER node; 0 for the others. -/
def MapTree.group : MapTree → Nat
  | .inner g _ _ _ _ _ _ _ _ => g
  | _ => 0

/-! ### Node pool (R266, R269, R270) -/

/-- The worlds that are current or pinned. (log entry 50: DEDUCED in part) -/
def State.heldWorlds (s : State) : List World := s.map.worlds.map (·.2) ++ s.map.pins.map (·.world)

/-- The nodes that some of the worlds can reach; shared nodes count once. (log entry 50: DEDUCED in part) -/
def nodesUsed (ws : List World) : Nat :=
  let live := ws.filter (fun w => w.tree != .absent)
  (live.map (·.root)).dedup.length + (((live.flatMap (fun w => w.tree.groups)).dedup).map (·.2)).sum

/-- The world slot of a number. -/
def State.world (s : State) (k : Nat) : World := Sparse.get (fun _ => {}) s.map.worlds k

/-- The registers of the map store as its state stands. -/
def State.mapRegs (s : State) : State :=
  let total := s.mapCfg?.elim 0 (·.nodes)
  ((s.setFld Fld.MAP_NODES_free (total - nodesUsed s.heldWorlds)).setFld Fld.MAP_PINS_used s.map.pins.length).setReg64
    Reg.MAP_DELTA_HEAD s.map.head

/-! ### Places (R269) -/

/-- Placement under way: the ranges of node indices in use, rising; the free values taken; and the nodes to be written. -/
structure Placing where
  used : List (Nat × Nat)
  taken : Nat
  made : List (Nat × Bytes)
deriving DecidableEq, Repr

/-- The r-th place of `k` consecutive numbers in some gaps. -/
def nthPlace (k : Nat) : List (Nat × Nat) → Nat → Nat
  | [], _ => 0
  | (b, n) :: gs, r => if r < n + 1 - k then b + r else nthPlace k gs (r - (n + 1 - k))

/-- A place of `k` consecutive indices among free ones from `lo` to below `hi`, or none; which of them is open (R266).
(log entry 50: DEDUCED in part) -/
def Placing.take (x : Placing) (free lo hi k : Nat) : Option (Nat × Placing) :=
  let gs := (gapsIn hi lo x.used).filter (fun g => decide (k ≤ g.2))
  let n := (gs.map (fun g => g.2 + 1 - k)).sum
  if n = 0 then none
  else
    let b := nthPlace k gs (Config.freeNat (free + x.taken) % n)
    some (b, { x with used := insertRange (b, k) x.used, taken := x.taken + 1 })

/-- A place for the group of a node at a level: SRAM first above sram_levels, PSRAM first below (R269).
(log entry 50: DEDUCED in part) -/
def Placing.group (x : Placing) (cfg : MapCfg) (free level k : Nat) : Option (Nat × Placing) :=
  let sram := x.take free 0 cfg.sramNodes k
  let psram := x.take free cfg.sramNodes cfg.nodes k
  if level < cfg.sramLevels then sram.orElse (fun _ => psram) else psram.orElse (fun _ => sram)

/-- The nodes of a group noted, each at its index, at remaining depth `d`. -/
def Placing.note (x : Placing) (d base : Nat) (cs : List MapTree) : Placing :=
  { x with made := x.made ++ ((cs.filter (fun t => t != .absent)).zipIdx.map (fun p => (base + p.2, nodeBytes d p.1 p.1.group))) }

/-- The groups of a tree that have no place yet placed, from the node at `level` down (R265, R269).
(log entry 50: DEDUCED in part) -/
def MapTree.place (cfg : MapCfg) (free : Nat) : MapTree → Nat → Placing → Option (MapTree × Placing)
  | .absent, _, x => some (.absent, x)
  | .cell c, _, x => some (.cell c, x)
  | .inner g c0 c1 c2 c3 c4 c5 c6 c7, level, x =>
    if g ≠ newGroup then some (.inner g c0 c1 c2 c3 c4 c5 c6 c7, x)
    else
      (x.group cfg free level (([c0, c1, c2, c3, c4, c5, c6, c7].filter (fun t => t != .absent)).length)).bind fun b =>
      (c0.place cfg free (level + 1) b.2).bind fun y0 =>
      (c1.place cfg free (level + 1) y0.2).bind fun y1 =>
      (c2.place cfg free (level + 1) y1.2).bind fun y2 =>
      (c3.place cfg free (level + 1) y2.2).bind fun y3 =>
      (c4.place cfg free (level + 1) y3.2).bind fun y4 =>
      (c5.place cfg free (level + 1) y4.2).bind fun y5 =>
      (c6.place cfg free (level + 1) y5.2).bind fun y6 =>
      (c7.place cfg free (level + 1) y6.2).map fun y7 =>
        (.inner b.1 y0.1 y1.1 y2.1 y3.1 y4.1 y5.1 y6.1 y7.1,
          y7.2.note (cfg.depth - level - 1) b.1 [y0.1, y1.1, y2.1, y3.1, y4.1, y5.1, y6.1, y7.1])

/-- The ranges of node indices that some worlds use, rising. -/
def nodeRangesOf (ws : List World) : List (Nat × Nat) :=
  let live := ws.filter (fun w => w.tree != .absent)
  sortRanges (live.map (fun w => (w.root, 1)) ++ live.flatMap (fun w => w.tree.groups))

/-- The bytes of a node written at its place (R259): Reflex SRAM, or the owner's PSRAM mapping.
(log entry 50: DEDUCED in part) -/
def State.writeNode (s : State) (cfg : MapCfg) (i : Nat) (bs : Bytes) : State :=
  if i < cfg.sramNodes then s.writeDie 0 (cfg.nodeSram + 16 * i) bs
  else
    match s.writeVa (.engine 0) .engineWrite cfg.owner (cfg.nodeVa + 16 * (i - cfg.sramNodes)) bs with
    | .ok t => t
    | .error e => s.xltFault 0 cfg.owner e.1 e.2

/-- A tree with its root placed and its new nodes written, or none where the store has not the nodes (R265, R269, R270).
(log entry 50: DEDUCED in part) -/
def State.placeTree (s : State) (cfg : MapCfg) (tree : MapTree) : Option (State × Nat × MapTree) :=
  if tree = .absent then some (s, 0, .absent)
  else
    ((Placing.mk (nodeRangesOf s.heldWorlds) 0 []).group cfg s.freeCtr 0 1).bind fun r =>
    (tree.place cfg s.freeCtr 0 r.2).map fun x =>
      (((x.2.note cfg.depth r.1 [x.1]).made.foldl (fun (a : State) p => a.writeNode cfg p.1 p.2) (s.useFree x.2.taken)), r.1, x.1)

/-- The parts of a range that rising ranges do not cover. (log entry 17: DESIGN CHOICE in part) -/
def outside (r : Nat × Nat) (used : List (Nat × Nat)) : List (Nat × Nat) := gapsIn (r.1 + r.2) r.1 used

/-- The nodes that the worlds held before could reach and none can reach now returned to the pool: their kind is UNUSED, their
other bits are open (R262, R266). (log entry 50: DEDUCED in part) -/
def State.releaseNodes (s : State) (before : List World) : State :=
  match s.mapCfg? with
  | none => s
  | some cfg =>
    let used := nodeRangesOf s.heldWorlds
    let gone := ((nodeRangesOf before).flatMap (fun r => outside r used)).flatMap (fun r => (List.range r.2).map (r.1 + ·))
    gone.dedup.foldl (fun (a : State) i =>
      let bs := a.freeBytes 16
      (a.useFree 16).writeNode cfg i ((bs.headD 0 &&& 0xFC) :: bs.tail)) s

/-- The pins of a reader released (R266). (log entry 50: DEDUCED in part) -/
def State.dropPins (s : State) (owner : Option Nat) : State :=
  ({ s with map := { s.map with pins := s.map.pins.filter (fun p => p.owner != owner) } }.releaseNodes s.heldWorlds).mapRegs

end Sys2Proof.Machine
end

