-- ==== Sys2Proof/Machine/Contexts.lean ====
section
/-! DEFINITION. Resident contexts and static schedules (chapter 04), and the running of programmes (R115, R450):
residency, activations, steps, overruns, completion of operations. -/

namespace Sys2Proof.Machine

/-! ### Programmes that run -/

/-- The run-time prefetch records of a programme, in record order (R189). -/
def State.runtimePrefetches (s : State) (ctx prog : Nat) : List Bytes :=
  (s.recs 6).filter (fun p => fieldAt p 0 1 == ctx && fieldAt p 4 2 == prog && fieldAt p 0x1C 4 != 0xFFFFFFFF)

/-- A programme started (R76, R96). -/
def State.startRun (s : State) (ctx prog unit : Nat) (args : Bytes) (origin : Origin) : State :=
  let die := (s.layout.bind (fun l => l.progRec prog)).elim 0 (fun r => fieldAt r 1 1)
  let r : Run :=
    { id := s.nextRun, ctx := ctx, die := die, prog := prog, op := 0, unit := unit, args := args, origin := origin
      start := s.now, executed := false, opCode := 0, sat := {}, satDie := die, outs := [], codes := []
      recs := s.runtimePrefetches ctx prog
      prefetches := (List.range (s.runtimePrefetches ctx prog).length).map (fun i => (i, PrefetchPhase.waiting))
      waitEnd := none, substitute := none, putReady := false, progress := 0, done := none }
  { s with runs := s.runs ++ [r], nextRun := s.nextRun + 1 }

/-- True where a context holds a free operation slot on a die (R96). -/
def State.slotFree (s : State) (ctx die : Nat) : Bool :=
  decide ((s.runs.filter (fun r => r.ctx == ctx && r.die == die)).length <
    s.layout.elim 0 (fun l => shareCount (l.sharesOf ctx die 5)))

/-- True for the codes that complete with results (R49, R98). -/
def codeOk (c : Nat) : Bool := c == 0 || (0x0101 ≤ c && c ≤ 0x0104)

/-- The invocation of a context by its submission count. -/
def State.inv? (s : State) (ctx n : Nat) : Option Invocation := s.invs.find? (fun i => i.ctx == ctx && i.sqIndex == n)

/-- An invocation given its status, if it has none yet. -/
def State.setInvDone (s : State) (ctx n code : Nat) : State :=
  { s with invs := s.invs.map (fun i => if i.ctx == ctx && i.sqIndex == n && i.done.isNone then { i with done := some code } else i) }

/-- The status of an invocation that ran an activation (R450): the first failure in step order, else the lowest of
0x0101 to 0x0104, else 0. -/
def activationStatus (codes : List (Nat × Nat)) : Nat :=
  match codes.filter (fun p => !codeOk p.2) with
  | [] => lowestCode (codes.map (·.2))
  | b :: bs => (bs.foldl (fun (x y : Nat × Nat) => if y.1 < x.1 then y else x) b).2

/-- An activation that has issued its last step and whose programmes have all ended is over (R75, R450). -/
def State.settleActivation (s : State) (ctx k : Nat) : State :=
  let c := s.ctx ctx
  match c.acts.find? (fun a => a.index == k) with
  | none => s
  | some a =>
    let steps := s.layout.elim 0 (fun l => (l.schedSteps ctx).length)
    let running := s.runs.any (fun r => r.ctx == ctx && (match r.origin with | .step k' _ => k' == k | _ => false))
    if (a.failed || a.nextStep == steps) && !running then
      let s1 := s.setCtx ctx { c with acts := c.acts.filter (fun x => x.index != k) }
      match a.inv with
      | none => s1
      | some n => s1.setInvDone ctx n (activationStatus a.codes)
    else s

/-- The SAFETY records of a kind with their indices in the section (R348). -/
def State.safetyRecs (s : State) (kind : Nat) : List (Bytes × Nat) :=
  (s.recs 0xE).zipIdx.filter (fun p => fieldAt p.1 1 1 == kind)

/-- The STARTER record of a programme, with its index (R348, R358). -/
def State.starterOf (s : State) (prog : Nat) : Option (Bytes × Nat) :=
  (s.safetyRecs 3).find? (fun p => fieldAt p.1 2 2 == prog)

/-- The starters with the end of a run noted (R358). -/
def CrustSt.starterEnds (c : CrustSt) (run t : Nat) : CrustSt :=
  { c with starters := c.starters.map (fun x => if x.run = some run then { x with ended := some t } else x) }

/-- A programme ends with a code (R77, R115, R450). -/
def State.endRun (s0 : State) (r : Run) (code : Nat) : State :=
  let s := { s0 with crust := s0.crust.starterEnds r.id s0.now }.noteDie r.die
  match r.origin with
  | .invocation n => (s.setRun { r with executed := false, done := some code }).setInvDone r.ctx n code
  | .step k n =>
    let step := (s.layout.elim [] (fun l => l.schedSteps r.ctx)).getD n []
    let s1 := { s with runs := s.runs.filter (fun x => x.id != r.id) }
    let s2 := if codeOk code && fieldAt step 0xA 2 != 0xFFFF then s1.signalId (fieldAt step 0xA 2) 1 else s1
    let c := s2.ctx r.ctx
    let acts := c.acts.map (fun a =>
      if a.index = k then { a with codes := a.codes ++ [(n, code)], failed := a.failed || (a.inv.isSome && !codeOk code) } else a)
    (s2.setCtx r.ctx { c with acts := acts }).settleActivation r.ctx k

/-- The prefetches that an abort finds issued: each is cancelled and counted, one that has not started is dropped, and the
destination range holds undefined contents (R135). (log entry 38: DEDUCED in part) -/
def State.cancelPrefetches (s : State) (r : Run) : List (Nat × PrefetchPhase) → State
  | [] => s
  | p :: ps =>
    let s1 :=
      if p.2 = .inFlight ∨ p.2 = .issued then
        let rec' := r.recs.getD p.1 []
        let bs := (List.range (fieldAt rec' 0x18 4)).map (fun i => Config.freeByte (s.freeCtr + i))
        let s2 := ((s.useFree bs.length).event Ev.TIER_EVT_STATUS_cancel).noteActive 2
        s2.putVa .tierManager .transferWrite r.ctx (fieldAt rec' 0x10 8) bs
      else s
    s1.cancelPrefetches r ps

/-- The counters of a completed or aborted operation (R123). -/
def State.countOp (s : State) (die opcode : Nat) : State :=
  if opcode = 1 ∨ opcode = 2 ∨ opcode = 3 then s.count64 (Reg.TILE_OP_CNT die) 1
  else if opcode = 0x10 ∨ opcode = 0x11 ∨ opcode = 0x12 then
    s.setFld (Fld.STEM_STATUS_ops die) (s.fld (Fld.STEM_STATUS_ops die) + 1)
  else if opcode = 0x20 then s.setFld (Fld.PPX_STATUS_ops die) (s.fld (Fld.PPX_STATUS_ops die) + 1)
  else s

/-- The planner batch and the solver operation of an aborted run ended (R298, R316): the batch's pins are released, its
result array is undefined and it is counted as abandoned; the solver writes nothing. -/
def State.dropEngineWork (s : State) (r : Run) : State :=
  let s1 :=
    if s.plan.batch.elim false (fun b => b.run == r.id) then
      let d := (s.currentOp r).getD []
      let n := 8 * (if fieldAt d 4 1 = 255 then fieldAt d 0xC 2 else min (fieldAt d 0xC 2) (fieldAt r.args (fieldAt d 4 1) 4))
      let a := { s with plan := { s.plan with batch := none } }.dropPins (some r.id)
      let b := (a.setFld Fld.PLAN_STATUS_busy 0).event Ev.PLAN_EVT_STATUS_abandoned
      if fieldAt d 0x14 4 = 0 then b else b.undefRange (dieLocal 0 (fieldAt d 0x14 4)) n
    else s
  if s1.solv.active.elim false (fun x => x.run == r.id) then
    ({ s1 with solv := { s1.solv with active := none }, phys := { s1.phys with watch := [] } }.setFld Fld.SOLV_STATUS_busy 0).setFld
      Fld.SOLV_STATUS_factorising 0
  else s1

/-- A run whose unfinished prefetches have been cancelled (R135). -/
def Run.dropPrefetches (r : Run) : Run :=
  { r with prefetches := r.prefetches.map (fun p =>
      (p.1, if p.2 = .waiting ∨ p.2 = .issued ∨ p.2 = .inFlight then .cancelled else p.2)) }

/-- A running programme aborted (R80, R101): outputs of its running operation are undefined, its prefetches are
cancelled, and it signals nothing; of a chunk the outputs of the steps that have not run are undefined, and the events of those
that have are recorded (R165). A programme that an invocation runs keeps its operation slot until the invocation is
published (R96); a step's is taken away. (log entry 23: DEDUCED in part) -/
def State.abortRun (s : State) (code : Nat) (r : Run) : State :=
  let op := (s.currentOp r).elim 0 (fun d => fieldAt d 0 1)
  let s0 := if r.executed = true ∧ op = 0x50 then (s.noteDie r.die).noteActive 2 else s.noteDie r.die
  let s1 := (s0.dropEngineWork r).cancelPrefetches r r.prefetches
  let s2 :=
    if r.done.isSome then s1
    else if op = 0x30 then (s1.undefRanges r.outs).satEvents r.satDie r.sat
    else if r.executed then
      ((s1.undefRanges r.outs).eventIf (op == 1 || op == 2 || op == 3) (Ev.TILE_EVT_STATUS_op_abort r.die)).countOp r.die
        (if op ≤ 3 then op else 0)
    else s1
  match r.origin with
  | .invocation _ => s2.setRun { r.dropPrefetches with executed := false, done := some code }
  | .step _ _ => { s2 with runs := s2.runs.filter (fun x => x.id != r.id) }

/-- Programmes aborted in order. (log entry 23: DEDUCED in part) -/
def State.abortRuns (s : State) (code : Nat) : List Run → State
  | [] => s
  | r :: rs => (s.abortRun code r).abortRuns code rs

/-- A programme started; one without operations ends at once. -/
def State.startProgram (s : State) (ctx prog unit : Nat) (args : Bytes) (origin : Origin) : State :=
  let s1 := s.startRun ctx prog unit args origin
  if (s.layout.elim 0 (fun l => (l.progOps prog).length)) = 0 then
    (s1.run? s.nextRun).elim s1 (fun r => s1.endRun r 0)
  else s1

/-! ### Quiescence and stops -/

/-- True where a context is quiesced (R66): queue stopped, schedule disabled, nothing in flight. (log entry 24: DEDUCED in part) -/
def State.quiesced (s : State) (k : Nat) : Bool :=
  !s.flag (Fld.HQ_Q_CTRL_run k) && !(s.ctx k).sched && !s.invs.any (fun i => i.ctx == k) && (s.ctx k).acts.isEmpty

/-- A context enters STOPPED (R80, R101): its programmes are aborted with a code, its invocations end with it, what
was submitted up to now will complete with 0x0B32, and run and sched are cleared. -/
def State.stopContext (s : State) (k code : Nat) : State :=
  let s1 := s.abortRuns code (s.runs.filter (fun r => r.ctx == k && r.done.isNone))
  let s2 := { s1 with invs := s1.invs.map (fun (i : Invocation) => if i.ctx = k ∧ i.done.isNone = true then { i with done := some code } else i) }
  let s3 := s2.kvSettle (s2.kvTouched.filter (fun t => t.ctx == k))
  let s4 := s3.setCtx k { s3.ctx k with phase := .stopped, sched := false, code := code, acts := [] }
  let q := s4.queue k
  let q1 := { q with stopUpTo := if q.fetched.isEmpty && q.sqHead == q.sqTail then none else some q.sqTail }
  (s4.setQueue k q1).setFld (Fld.HQ_Q_CTRL_run k) 0

/-! ### Residency (R72 to R74) -/

/-- The residency transfers of a context, in record order. -/
def State.residencyRecs (s : State) (k : Nat) : List Bytes :=
  (s.recs 6).filter (fun r => fieldAt r 0 1 == k && fieldAt r 0x1C 4 == 0xFFFFFFFF)

/-- The first fault of a walk over a range by the tier manager, with its address. -/
def State.walkFault (s : State) (ctx va len : Nat) (acc : Access) : Option (Nat × Nat) :=
  (pageAddrs va len).findSome? (fun a =>
    match s.translate .tierManager acc ctx a with
    | .error e => some (e, a)
    | .ok _ => none)

/-- The code of that fault (R72 step 2); 0 when every address is mapped. -/
def State.walkRange (s : State) (ctx va len : Nat) (acc : Access) : Nat := (s.walkFault ctx va len acc).elim 0 (·.1)

/-- The first fault of the walk over every residency transfer of a context. (log entry 22: DEDUCED in part) -/
def State.walkResidency (s : State) (k : Nat) : Nat :=
  (s.residencyRecs k).foldl (fun c r =>
    if c ≠ 0 then c
    else
      let a := s.walkRange k (fieldAt r 8 8) (fieldAt r 0x18 4) .read
      if a ≠ 0 then a else s.walkRange k (fieldAt r 0x10 8) (fieldAt r 0x18 4) .transferWrite) 0

/-- Pages mapped in a context's root, sequence ranges excepted (R185). -/
def State.pagesMapped (s : State) (k : Nat) : Nat :=
  ((s.maps.filter (fun m => m.ctx == k)).map (fun m => m.len / pageBytes m.page)).sum

/-- The dies of a context's die_mask. -/
def State.ctxDies (s : State) (k : Nat) : List Nat :=
  match s.layout.bind (fun l => l.ctxRec k) with
  | none => []
  | some r => (List.range 5).filter (fun d => (fieldAt r 2 1).testBit d)

/-- Locked translation entries of a die (R185): the pages of class-0 contexts that are resident, one that is STOPPED among them.
(log entry 76: DESIGN CHOICE in part) -/
def State.lockedOn (s : State) (die : Nat) : Nat :=
  ((s.ctxs.filter (fun p => s.locks p.1 && (s.ctxDies p.1).contains die)).map (fun p => s.pagesMapped p.1)).sum

/-- The buffers of the dies of a context once the pages of its root are locked there (R184, R185): entries of those pages that a walk
filled are locked ones now, and others make room where a buffer would hold more than 4,096.
(log entry 76: DESIGN CHOICE in part) -/
def State.lockEntries (s : State) (k : Nat) : State :=
  if s.locks k then
    (s.ctxDies k).foldl (fun (a : State) d =>
      let es := (a.tlbOf d).filter (fun e => !(e.ctx == k && (a.mapping? k e.va).isSome))
      { a with tlb := Sparse.put (fun _ => []) a.tlb d es }.tlbEvict d (es.length + a.lockedOn d - 4096)) s
  else s

/-- True where locking `n` more entries for a context would exceed the limit of a die (R185).
(log entry 22: DEDUCED in part) -/
def State.lockFull (s : State) (k n : Nat) : Bool :=
  s.defaultClass k == 0 && (s.ctxDies k).any (fun d => 512 < s.lockedOn d + n)

/-- The die whose QUE block reports a context's budget events and whose copy of device time its schedule follows: that of
its schedule's domain (R19, R80). (log entry 23: DEDUCED in part) -/
def State.queDie (s : State) (k : Nat) : Nat :=
  (s.layout.bind (fun l => l.schedRec k)).elim 1 (fun r => domainDie (fieldAt r 2 1))

/-- The die of the budget counter of an invocation: the schedule's, or that of the programme it names where the context has no
schedule (R80). (log entry 23: DEDUCED in part) -/
def State.invDie (s : State) (k : Nat) (d : Bytes) : Nat :=
  match s.layout.bind (fun l => l.schedRec k) with
  | some r => domainDie (fieldAt r 2 1)
  | none => (s.layout.bind (fun l => l.progRec (fieldAt d 2 2))).elim 1 (fun r => fieldAt r 1 1)

/-- The SYNCMAP objects of the layout with their values: the bases of R77. -/
def State.syncBases (s : State) : List (Nat × Nat) :=
  (s.recs 0x10).map (fun r => (fieldAt r 2 2, s.syncValue (fieldAt r 2 2)))

/-- The context that SHARES grants an engine of a kind. -/
def State.engineCtx (s : State) (engine : Nat) : Option Nat :=
  (((s.recs 2).map shareOf).find? (fun h => h.kind == 2 && h.engine == engine)).map (·.ctx)

/-- The lidar mask of an earlier stay of the fusion owner in RESIDENT is not used again (R357).
(log entry 61: DEDUCED in part) -/
def State.dropLidar (s : State) (k : Nat) : State :=
  if s.engineCtx 6 = some k then { s with crust := { s.crust with psf := { s.crust.psf with lidarAt := none } } } else s

/-- A restart of the fusion owner (R257): a slot that ran is gone, and the first one after is the first whose cut-off falls after
the restart. (log entry 49: DEDUCED in part) -/
def State.noteRestart (s : State) (k : Nat) : State :=
  if s.engineCtx 6 = some k then
    { s with fusion := { s.fusion with restart := some s.now, run := none } }.setFld Fld.FUSN_STATUS_busy 0
  else s

/-- Entry into RESIDENT (R72 step 4, R77, R81). (log entry 22: DEDUCED in part) -/
def State.enterResident (s : State) (k : Nat) : State :=
  let s1 := (s.dropLidar k).noteRestart k
  ((s1.setCtx k { s1.ctx k with
    phase := .resident, waiting := false, bases := s1.syncBases, actCount := 0, anchor := s.localNow (s.queDie k), lastInstant := 0,
    acts := [] }).lockEntries k).event
    Ev.LAY_CTX_EVENT_resident

/-- A failed residency (R73); what waits in the queue will complete with 0x0B33 (R82).
(log entry 22: DEDUCED in part) -/
def State.residencyFailed (s : State) (k code : Nat) : State :=
  let q := s.queue k
  let q1 := { q with failUpTo := if q.fetched.isEmpty && q.sqHead == q.sqTail then none else some q.sqTail }
  ((s.setQueue k q1).setCtx k { s.ctx k with phase := .nonresident, waiting := false, code := code }).event
    Ev.LAY_CTX_EVENT_res_fail

/-- The lock_full event of every die on which a lock would exceed the limit (R185). -/
def State.lockFullEvents (s : State) (k n : Nat) : State :=
  ((s.ctxDies k).filter (fun d => decide (512 < s.lockedOn d + n))).foldl (fun (a : State) d =>
    a.event (Ev.XLT_EVT_STATUS_lock_full d)) s

/-- The end of a residency whose transfers have ended: RESIDENT, or a failure where the pages mapped by now exceed the locked
entries of a die (R72, R73, R185). (log entry 22: DEDUCED in part) -/
def State.finishResidency (s : State) (k : Nat) : State :=
  if s.lockFull k (s.pagesMapped k) then s.residencyFailed k 0x0208 else s.enterResident k

/-- The start of a residency (R72 step 2): LOADING, the walk, the locked entries, and RESIDENT at once when the
context has no residency transfer. (log entry 22: DEDUCED in part) -/
def State.beginResidency (s : State) (k : Nat) : State :=
  let s1 := s.setCtx k { s.ctx k with phase := .loading, waiting := false, resNext := 0 }
  let w := s1.walkResidency k
  if w ≠ 0 then s1.residencyFailed k w
  else if (s1.residencyRecs k).isEmpty then s1.finishResidency k
  else if s1.lockFull k (s1.pagesMapped k) then s1.residencyFailed k 0x0208
  else s1

/-- The next context of the sequence of R74, by default class and then ID; none starts while the tier manager is reset
(R414). With fuel for the contexts.
(log entry 22: DEDUCED in part) -/
def State.startWaiting (s : State) : Nat → State
  | 0 => s
  | n + 1 =>
    if s.ctxs.any (fun p => p.2.phase == .loading) || !s.blkOpen 1 0x42 then s
    else
      match (s.ctxs.filter (fun p => p.2.waiting)).foldl (fun (b : Option Nat) p =>
          match b with
          | none => some p.1
          | some x => if s.defaultClass p.1 < s.defaultClass x then some p.1 else b) none with
      | none => s
      | some k => (s.beginResidency k).startWaiting n

/-- The residency request is rejected: cmd_reject and nothing else (R81, R91). -/
def State.ctxReject (s : State) : State := s.event Ev.LAY_CTX_EVENT_cmd_reject

/-- A request of LAY_CTX_CTRL (R81, R91): rejected while the state is not READY, while a load is LOADING, during a
proof run, and for a context that waits under R74. (log entry 22: DEDUCED in part) -/
def State.ctxRequest (s : State) (who : Requester) (op k : Nat) (f : State → State) : State :=
  s.busWrite who 1 0x46 false (fun s =>
    let s1 := (s.setFld Fld.LAY_CTX_CTRL_op op).setFld Fld.LAY_CTX_CTRL_ctx_id k
    if !s1.hostReady || s1.load.isSome || s1.proofRunning || (s1.ctx k).waiting then s1.ctxReject else f s1)

/-- A residency requested: it starts, or waits for the end of a reset of the tier manager (R72, R414).
(log entry 22: DEDUCED in part; log entry 70: DEDUCED in part) -/
def State.askResidency (s : State) (k : Nat) : State :=
  if s.blkOpen 1 0x42 then s.beginResidency k else s.setCtx k { s.ctx k with waiting := true }

/-- MAKE_RESIDENT (R72). (log entry 22: DEDUCED in part) -/
def execMakeResident (who : Requester) (k : Nat) (s : State) : Host.Outcome State Fault Refusal :=
  .next (s.ctxRequest who 1 k (fun s =>
    if (s.ctx k).phase = .nonresident then s.askResidency k else s.ctxReject))

/-- The SRAM of a context's shares, whose contents are not kept while it is not resident (R71).
(log entry 22: DEDUCED in part) -/
def State.dropShares (s : State) (k : Nat) : State :=
  match s.layout with
  | none => s
  | some l =>
    let hs := ((l.recs 2).map shareOf).filter (fun h => h.ctx == k && (h.kind == 0 || h.kind == 1))
    s.undefRanges (hs.flatMap (fun h =>
      if h.kind = 1 then [(dieLocal h.die (h.first * 65536), h.count * 65536)]
      else (List.range h.count).map (fun i =>
        (dieLocal h.die (0x08000000 + (h.first + i) * 0x400000), [1, 0, 4, 2, 2].getD h.die 0 * 0x100000))))

/-- Every slot of a context empty, with no command pending on it; a restore that was under way has failed (R168).
(log entry 22: DEDUCED in part; log entry 35: DEDUCED in part) -/
def State.dropSlots (s : State) (k : Nat) : State :=
  let mine := fun (key : Nat) => (s.seqSlot key).phase != .empty && (s.seqSlot key).owner == k
  let cmds := s.seqCmds.filter (fun p => p.2.elim false (fun c => mine c.key))
  let s1 := cmds.foldl (fun (a : State) p =>
    let b := a.eventIf (p.2.elim false (fun c => c.op == 3)) (Ev.SEQ_EVT_STATUS_restore_fail p.1)
    ((b.setSeqCmd p.1 none).setFld (Fld.SEQ_CMD_STATUS_busy p.1) 0).setFld (Fld.SEQ_CMD_STATUS_code p.1) 0x0481) s
  { s1 with seqSlots := s1.seqSlots.filter (fun p => !mine p.1) }

/-- MAKE_NONRESIDENT (R451): a quiesced RESIDENT or STOPPED context becomes NONRESIDENT.
(log entry 22: DEDUCED in part) -/
def execMakeNonresident (who : Requester) (k : Nat) (s : State) : Host.Outcome State Fault Refusal :=
  .next (s.ctxRequest who 2 k (fun s =>
    let c := s.ctx k
    if (c.phase = .resident ∨ c.phase = .stopped) ∧ s.quiesced k = true then
      let s1 := s.setCtx k { c with phase := .nonresident }
      ((s1.dropSlots k).dropShares k).event Ev.LAY_CTX_EVENT_nonresident
    else s.ctxReject))

/-- RELEASE (R77, R81): a STOPPED context enters RESIDENT again, quiesced, and records its bases.
(log entry 22: DEDUCED in part) -/
def execRelease (who : Requester) (k : Nat) (s : State) : Host.Outcome State Fault Refusal :=
  .next (s.ctxRequest who 3 k (fun s =>
    let c := s.ctx k
    if c.phase = .stopped ∧ c.crustHold = false then (s.setCtx k { c with sched := false }).enterResident k else s.ctxReject))

/-- True where a range of a root meets what an accepted FREE or UNLINK_SEQ is about to unmap (R179).
(log entry 22: DEDUCED in part) -/
def State.pendingIn (s : State) (ctx va len : Nat) : Bool := (pageAddrs va len).any (s.unmapPending ctx)

/-- The next residency transfer of a context issued; one through a range that a command unmaps faults (R73, R179), and after
the last one the residency ends. (log entry 22: DEDUCED in part) -/
def State.nextTransfer (s : State) (k : Nat) : State :=
  let n := (s.ctx k).resNext + 1
  match (s.residencyRecs k)[n]? with
  | none => s.finishResidency k
  | some r =>
    if s.pendingIn k (fieldAt r 8 8) (fieldAt r 0x18 4) || s.pendingIn k (fieldAt r 0x10 8) (fieldAt r 0x18 4) then
      s.residencyFailed k 0x0201
    else s.setCtx k { s.ctx k with resNext := n }

/-- A transfer of the tier manager's that was issued before any command that now waits to unmap its ranges (R179): the bytes of
its source moved to its destination, or the code and address of the failure. (log entry 22: DEDUCED in part) -/
def State.transfer (s : State) (ctx src dst len : Nat) : Except (Nat × Nat) State :=
  let free := { s with tierPending := none }
  match free.readVa .tierManager ctx src len with
  | .error e => .error e
  | .ok bs =>
    match free.writeVa .tierManager .transferWrite ctx dst bs with
    | .error e => .error e
    | .ok t => .ok { t with tierPending := s.tierPending }

/-- True where an address of a root lies in flash. -/
def State.inFlash (s : State) (ctx va : Nat) : Bool := (s.mapping? ctx va).elim false (fun m => m.tier == 2)

/-- RESIDENCY_TRANSFER_COMPLETE (R72, R73, R188, R194): the transfer that runs ends, with its data moved or with an
uncorrectable error, which Crust or the flash controller reports; the next one starts, or the context becomes RESIDENT.
(log entry 22: DEDUCED in part) -/
def execResidencyTransferComplete (k : Nat) (found : Found) (s : State) : Host.Outcome State Fault Refusal :=
  .next (match (s.ctx k).phase, (s.residencyRecs k)[(s.ctx k).resNext]? with
    | .loading, some r =>
      let s := (s.noteActive 2).countReads k (fieldAt r 8 8) (fieldAt r 0x18 4) found
      let failed := fun (code : Nat) =>
        (if code = 0x0401 ∨ code = 0x0204 then s.accessFault 1 k code 0 else s).residencyFailed k code
      let s1 :=
        if found.lost && !s.inFlash k (fieldAt r 8 8) then failed 0x0204
        else
          match s.transfer k (fieldAt r 8 8) (fieldAt r 0x10 8) (fieldAt r 0x18 4) with
          | .error e => failed e.1
          | .ok t => t.nextTransfer k
      s1.startWaiting 64
    | _, _ => s)

/-! ### Schedules (R75 to R77) -/

/-- The first activation instant strictly after a time: the index j of phase + j × period (R75).
(log entry 23: DEDUCED in part) -/
def firstInstantAfter (phase period t : Nat) : Nat := if t < phase then 0 else (t - phase) / period + 1

/-- The instant a context's schedule is at: the next index that has not been handled, when its time has come.
(log entry 23: DEDUCED in part) -/
def State.dueInstant (s : State) (k : Nat) : Option (Nat × Nat) :=
  match s.layout.bind (fun l => l.schedRec k) with
  | none => none
  | some r =>
    let period := fieldAt r 4 4
    let phase := fieldAt r 8 4
    if period = 0 then none
    else
      let j := max (firstInstantAfter phase period (s.ctx k).anchor) (s.ctx k).lastInstant
      if phase + j * period ≤ s.localNow (domainDie (fieldAt r 2 1)) then some (j, phase + j * period) else none

/-- An activation that starts at an instant of its die's device time, for an invocation or none (R75, R450). Its cycles count
from that instant (R76). (log entry 23: DEDUCED in part) -/
def State.newActivation (s : State) (k t : Nat) (inv : Option Nat) (args : Bytes) : Activation :=
  ⟨(s.ctx k).actCount, t, 0, false, [], inv, args, false, 0, (s.monoNs : Int) - (s.localNow (s.queDie k) - t : Nat)⟩

/-- The starters of activation k of a context: each of its STARTER records whose turn it is (R358).
(log entry 23: DEDUCED in part) -/
def State.newStarters (s : State) (ctx k start : Nat) : List StarterRun :=
  ((s.safetyRecs 3).filter (fun p => fieldAt p.1 0 1 == ctx && k % max (fieldAt p.1 4 2) 1 == 0)).map (fun p =>
    ⟨p.2, k, start, none, start + fieldAt p.1 8 4, none, false, false⟩)

/-- The starters with the run of an activation's step noted (R358). (log entry 61: DEDUCED in part) -/
def CrustSt.starterIssues (c : CrustSt) (index act start run : Nat) : CrustSt :=
  { c with starters := c.starters.map (fun x =>
      if x.index = index ∧ x.act = act ∧ x.start = start then { x with run := some run } else x) }

/-- SCHEDULE_ACTIVATION (R75): at a due instant an enabled RESIDENT context starts an activation, or counts a skip
while the previous one runs. (log entry 23: DEDUCED in part) -/
def execScheduleActivation (k : Nat) (s : State) : Host.Outcome State Fault Refusal :=
  .next (
    let c := s.ctx k
    if c.phase ≠ .resident ∨ c.sched = false then s
    else
      match s.dueInstant k with
      | none => s
      | some (j, t) =>
        if c.acts.isEmpty then
          { s with crust := { s.crust with starters := s.crust.starters ++ s.newStarters k c.actCount t } }.setCtx k
            { c with acts := [s.newActivation k t none []], actCount := c.actCount + 1, lastInstant := j + 1 }
        else (s.setCtx k { c with lastInstant := j + 1 }).event (Ev.QUE_OVR_STATUS_skip (s.queDie k)))

/-- The cycles of a context's schedule domain since the start of an activation, in 1/(16 × 10^6) of a cycle: each interval
counts at the clock that the domain had in it (R20, R76, R420). (log entry 23: DEDUCED in part) -/
def State.cyclesRun (s : State) (ctx : Nat) (a : Activation) : Int :=
  a.ran + ((s.monoNs : Int) - a.since) * (s.layout.bind (fun l => l.schedRec ctx)).elim 0 (fun r => s.clock16 (fieldAt r 2 1))

/-- The RX_PLAN cycles of a planner batch since its step 1, in 1/(16 × 10^6) of a cycle (PLAN_LAST_CYCLES). -/
def State.batchRun (s : State) (b : PlanBatch) : Int := b.ran + ((s.monoNs : Int) - b.since) * s.clock16 10

/-- The cycles of every activation and of the planner batch noted before the clocks of some domains change, less what the
domains have lost. (log entry 23: DEDUCED in part) -/
def State.noteCycles (s : State) (doms : Nat → Bool) (lost : Int) : State :=
  { s with
    plan := { s.plan with batch := s.plan.batch.map (fun b =>
      if doms 10 then { b with ran := s.batchRun b - lost, since := s.monoNs } else b) }
    ctxs := s.ctxs.map (fun p =>
      if (s.layout.bind (fun l => l.schedRec p.1)).elim false (fun r => doms (fieldAt r 2 1)) then
        (p.1, { p.2 with acts := p.2.acts.map (fun a => { a with ran := s.cyclesRun p.1 a - lost, since := s.monoNs }) })
      else p) }

/-- True where a step's wait is satisfied: value ≥ base + k + 1 (R77). (log entry 23: DEDUCED in part) -/
def State.stepWaitOk (s : State) (ctx k : Nat) (step : Bytes) : Bool :=
  let w := fieldAt step 8 2
  w == 0xFFFF || decide ((((s.ctx ctx).bases.find? (fun p => p.1 == w)).elim 0 (·.2)) + k + 1 ≤ s.syncValue w)

/-- An activation of a context moved past its next step. (log entry 23: DEDUCED in part) -/
def State.passStep (s : State) (ctx k : Nat) : State :=
  let c := s.ctx ctx
  s.setCtx ctx { c with acts := c.acts.map (fun x => if x.index = k then { x with nextStep := x.nextStep + 1 } else x) }

/-- True where a step of activation k starts a starter programme whose turn it is not (R358).
(log entry 23: DEDUCED in part) -/
def State.starterRests (s : State) (k prog : Nat) : Bool :=
  match s.starterOf prog with
  | none => false
  | some (sr, _) => decide (0 < fieldAt sr 4 2) && k % fieldAt sr 4 2 != 0

/-- SCHEDULE_STEP_ISSUE (R76, R77): the next step of activation k issues its programme, at its start_cycle or once its
wait and an operation slot are available. The step of a starter programme whose turn it is not issues nothing and
signals at its start_cycle (R358). (log entry 23: DEDUCED in part) -/
def execScheduleStepIssue (ctx k : Nat) (s : State) : Host.Outcome State Fault Refusal :=
  .next (
    let c := s.ctx ctx
    match s.layout, c.acts.find? (fun a => a.index == k) with
    | some l, some a =>
      match (l.schedSteps ctx)[a.nextStep]? with
      | some st =>
        let prog := fieldAt st 4 2
        let die := (l.progRec prog).elim 0 (fun p => fieldAt p 1 1)
        let rest := a.inv.isNone && s.starterRests k prog
        if c.phase ≠ .resident ∨ a.failed ∨ s.cyclesRun ctx a < fieldAt st 0 4 * 16000000 ∨
            (rest = false ∧ (s.stepWaitOk ctx k st = false ∨ s.slotFree ctx die = false)) then s
        else if rest then
          let s1 := s.passStep ctx k
          (if fieldAt st 0xA 2 = 0xFFFF then s1 else s1.signalId (fieldAt st 0xA 2) 1).settleActivation ctx k
        else
          let s1 := s.passStep ctx k
          match (if a.inv.isNone then s.starterOf prog else none) with
          | none => s1.startProgram ctx prog (fieldAt st 6 2) a.args (.step k a.nextStep)
          | some (_, i) =>
            { s1 with crust := s1.crust.starterIssues i k a.start s1.nextRun }.startProgram ctx prog (fieldAt st 6 2) a.args
              (.step k a.nextStep)
      | none => s
    | _, _ => s)

/-- The limit of a budget counter (R80); none where there is no counter. -/
def State.budgetLimit (s : State) (k : Nat) (periodic : Bool) : Option Nat :=
  match s.layout.bind (fun l => l.ctxRec k) with
  | none => none
  | some c =>
    let b := fieldAt c 4 4
    let p := (s.layout.bind (fun l => l.schedRec k)).elim 0 (fun r => fieldAt r 4 4)
    if b = 0 then none else some (if periodic then min b p else b)

/-- The reaction to an overrun of a context (R80): the event, the last overrun, and the overrun action; COUNT_ONLY leaves the
context's code.
(log entry 23: DEDUCED in part) -/
def State.overrun (s : State) (ctx k die : Nat) : State :=
  let action := (s.layout.bind (fun l => l.ctxRec ctx)).elim 0 (fun c => fieldAt c 8 1)
  let s1 := (s.event (Ev.QUE_OVR_STATUS_overrun die)).setFld (Fld.QUE_OVR_LAST_ctx_id die) ctx
  let s2 := (s1.setFld (Fld.QUE_OVR_LAST_action die) action).setFld (Fld.QUE_OVR_LAST_class die) (s.defaultClass ctx)
  let s3 := s2.setFld (Fld.QUE_OVR_LAST_activation die) (k % 65536)
  if action = 2 then s3
  else
    let s4 := s3.stopContext ctx 0x0B31
    if action = 1 then (s4.setCtx ctx { s4.ctx ctx with crustHold := true }).report 0x0A 0 else s4

/-- BUDGET_OVERRUN (R80): the budget counter of activation n (`alone` = false), or of the invocation n that runs a
programme alone, passes its limit before completion. The last overrun of such an invocation names the activations that have
started. (log entry 23: DEDUCED in part) -/
def execBudgetOverrun (ctx : Nat) (alone : Bool) (n : Nat) (s : State) : Host.Outcome State Fault Refusal :=
  .next (
    if alone then
      match s.inv? ctx n, s.budgetLimit ctx false with
      | some i, some b =>
        if i.done.isSome ∨ i.overran ∨ i.counted = false ∨ s.localNow (s.invDie ctx i.desc) ≤ i.start + b ∨ (s.ctx ctx).acts.any (fun a => a.inv == some n) then s
        else
          let s1 := { s with invs := s.invs.map (fun (x : Invocation) => if x.ctx = ctx ∧ x.sqIndex = n then { x with overran := true } else x) }
          s1.overrun ctx (s.ctx ctx).actCount (s.invDie ctx i.desc)
      | _, _ => s
    else
      match (s.ctx ctx).acts.find? (fun a => a.index == n) with
      | none => s
      | some a =>
        match s.budgetLimit ctx a.inv.isNone with
        | none => s
        | some b =>
          if a.overran ∨ s.localNow (s.queDie ctx) ≤ a.start + b then s
          else
            let c := s.ctx ctx
            let s1 := s.setCtx ctx { c with acts := c.acts.map (fun x => if x.index = n then { x with overran := true } else x) }
            s1.overrun ctx n (s.queDie ctx))

/-! ### Completion of operations (R115) -/

/-- The run moved past its operation: past the substitute's operations first, then to the next descriptor. -/
def State.advanceRun (s : State) (r : Run) : Run :=
  let r1 := { r with executed := false, opCode := 0, sat := {}, outs := [], putReady := false, progress := 0, codes := r.codes ++ [r.opCode] }
  match r.substitute with
  | some (p, i) =>
    if i + 1 < (s.layout.elim 0 (fun l => (l.progOps p).length)) then { r1 with substitute := some (p, i + 1) }
    else { r1 with substitute := none, op := r.op + 1 }
  | none => { r1 with op := r.op + 1 }

/-- OPERATION_COMPLETE (R115): the executed operation of a run completes; its events are counted whatever its code (R30); the
programme goes on with its next operation, or ends with its code. -/
def execOperationComplete (run : Nat) (s : State) : Host.Outcome State Fault Refusal :=
  .next (match s.run? run with
    | none => s
    | some r =>
      if r.executed = false ∨ r.done.isSome then s
      else
        let op := (s.currentOp r).elim 0 (fun d => fieldAt d 0 1)
        let s0 := if op = 0x50 then s.noteActive 2 else s
        let s1 := (s0.satEvents r.satDie r.sat).countOp r.die op
        if !codeOk r.opCode then s1.endRun r r.opCode
        else
          let r1 := s.advanceRun r
          if (s.layout.elim 0 (fun l => (l.progOps r.prog).length)) ≤ r1.op then s1.endRun r1 (lowestCode r1.codes)
          else s1.issueRun r1)

end Sys2Proof.Machine
end

