-- ==== Sys2Proof/Machine/Crypto.lean ====
section
/-! DEFINITION. The check and the cryptographic functions that the spec names: CRC-32C (R126), SHA-512 and ECDSA over
curve P-521 (R61), and its deterministic signature (R400), as their public standards define them (log entry 7). -/

namespace Sys2Proof.Machine

/-! ### CRC-32C (R126) -/

/-- One bit step of the reflected Castagnoli polynomial. -/
def crcStep (c : Nat) : Nat := if c % 2 = 1 then (c / 2) ^^^ 0x82F63B78 else c / 2

/-- One byte taken into the remainder. -/
def crcByte (c : Nat) (b : BitVec 8) : Nat := (List.range 8).foldl (fun x _ => crcStep x) (c ^^^ b.toNat)

/-- CRC-32C of a byte string (R126). (log entry 7: PRESUMED in part) -/
def crc32c (bs : Bytes) : Nat := bs.foldl crcByte 0xFFFFFFFF ^^^ 0xFFFFFFFF

/-! ### SHA-512 -/

/-- The initial hash value: the fractions of the square roots of the first eight primes. -/
def shaInit : List Nat :=
  [0x6A09E667F3BCC908, 0xBB67AE8584CAA73B, 0x3C6EF372FE94F82B, 0xA54FF53A5F1D36F1,
   0x510E527FADE682D1, 0x9B05688C2B3E6C1F, 0x1F83D9ABFB41BD6B, 0x5BE0CD19137E2179]

/-- The round constants: the fractions of the cube roots of the first 80 primes. -/
def shaK : List Nat :=
  [0x428A2F98D728AE22, 0x7137449123EF65CD, 0xB5C0FBCFEC4D3B2F, 0xE9B5DBA58189DBBC,
   0x3956C25BF348B538, 0x59F111F1B605D019, 0x923F82A4AF194F9B, 0xAB1C5ED5DA6D8118,
   0xD807AA98A3030242, 0x12835B0145706FBE, 0x243185BE4EE4B28C, 0x550C7DC3D5FFB4E2,
   0x72BE5D74F27B896F, 0x80DEB1FE3B1696B1, 0x9BDC06A725C71235, 0xC19BF174CF692694,
   0xE49B69C19EF14AD2, 0xEFBE4786384F25E3, 0x0FC19DC68B8CD5B5, 0x240CA1CC77AC9C65,
   0x2DE92C6F592B0275, 0x4A7484AA6EA6E483, 0x5CB0A9DCBD41FBD4, 0x76F988DA831153B5,
   0x983E5152EE66DFAB, 0xA831C66D2DB43210, 0xB00327C898FB213F, 0xBF597FC7BEEF0EE4,
   0xC6E00BF33DA88FC2, 0xD5A79147930AA725, 0x06CA6351E003826F, 0x142929670A0E6E70,
   0x27B70A8546D22FFC, 0x2E1B21385C26C926, 0x4D2C6DFC5AC42AED, 0x53380D139D95B3DF,
   0x650A73548BAF63DE, 0x766A0ABB3C77B2A8, 0x81C2C92E47EDAEE6, 0x92722C851482353B,
   0xA2BFE8A14CF10364, 0xA81A664BBC423001, 0xC24B8B70D0F89791, 0xC76C51A30654BE30,
   0xD192E819D6EF5218, 0xD69906245565A910, 0xF40E35855771202A, 0x106AA07032BBD1B8,
   0x19A4C116B8D2D0C8, 0x1E376C085141AB53, 0x2748774CDF8EEB99, 0x34B0BCB5E19B48A8,
   0x391C0CB3C5C95A63, 0x4ED8AA4AE3418ACB, 0x5B9CCA4F7763E373, 0x682E6FF3D6B2B8A3,
   0x748F82EE5DEFB2FC, 0x78A5636F43172F60, 0x84C87814A1F0AB72, 0x8CC702081A6439EC,
   0x90BEFFFA23631E28, 0xA4506CEBDE82BDE9, 0xBEF9A3F7B2C67915, 0xC67178F2E372532B,
   0xCA273ECEEA26619C, 0xD186B8C721C0C207, 0xEADA7DD6CDE0EB1E, 0xF57D4F7FEE6ED178,
   0x06F067AA72176FBA, 0x0A637DC5A2C898A6, 0x113F9804BEF90DAE, 0x1B710B35131C471B,
   0x28DB77F523047D84, 0x32CAAB7B40C72493, 0x3C9EBE0A15C9BEBC, 0x431D67C49C100D4C,
   0x4CC5D4BECB3E42B6, 0x597F299CFC657E2A, 0x5FCB6FAB3AD6FAEC, 0x6C44198C4A475817]

/-- A 64-bit word rotated right. -/
def rotr64 (x n : Nat) : Nat := ((x / 2 ^ n) ||| (x * 2 ^ (64 - n))) % 2 ^ 64

/-- The eight working variables. -/
structure ShaVars where
  a : Nat
  b : Nat
  c : Nat
  d : Nat
  e : Nat
  f : Nat
  g : Nat
  h : Nat

/-- The next word of the message schedule from the last sixteen, the latest first. -/
def shaNext (w : List Nat) : Nat :=
  let x := w.getD 14 0
  let y := w.getD 1 0
  let s0 := rotr64 x 1 ^^^ rotr64 x 8 ^^^ (x / 2 ^ 7)
  let s1 := rotr64 y 19 ^^^ rotr64 y 61 ^^^ (y / 2 ^ 6)
  (w.getD 15 0 + s0 + w.getD 6 0 + s1) % 2 ^ 64

/-- One round. -/
def shaRound (v : ShaVars) (kw : Nat) : ShaVars :=
  let s1 := rotr64 v.e 14 ^^^ rotr64 v.e 18 ^^^ rotr64 v.e 41
  let ch := (v.e &&& v.f) ^^^ ((v.e ^^^ (2 ^ 64 - 1)) &&& v.g)
  let t1 := v.h + s1 + ch + kw
  let s0 := rotr64 v.a 28 ^^^ rotr64 v.a 34 ^^^ rotr64 v.a 39
  let maj := (v.a &&& v.b) ^^^ (v.a &&& v.c) ^^^ (v.b &&& v.c)
  ⟨(t1 + s0 + maj) % 2 ^ 64, v.a, v.b, v.c, (v.d + t1) % 2 ^ 64, v.e, v.f, v.g⟩

/-- The rounds: message words while they last, then the schedule's from the window, which holds the latest first. -/
def shaRounds : List Nat → List Nat → List Nat → ShaVars → ShaVars
  | [], _, _, v => v
  | k :: ks, w :: ws, win, v => shaRounds ks ws (w :: win) (shaRound v (k + w))
  | k :: ks, [], win, v =>
    let w := shaNext win
    shaRounds ks [] (w :: win.take 15) (shaRound v (k + w))

/-- One block of 128 bytes taken into the hash value. -/
def shaBlock (h : List Nat) (blk : Bytes) : List Nat :=
  let ws := (chunks 8 16 blk).map beNat
  let g := fun (i : Nat) => h.getD i 0
  let v := shaRounds shaK ws [] ⟨g 0, g 1, g 2, g 3, g 4, g 5, g 6, g 7⟩
  List.zipWith (fun x y => (x + y) % 2 ^ 64) [v.a, v.b, v.c, v.d, v.e, v.f, v.g, v.h] h

/-- The message with its padding and length. -/
def shaPad (m : Bytes) : Bytes :=
  m ++ [0x80] ++ List.replicate ((239 - m.length % 128) % 128) 0 ++ beBytes 16 (8 * m.length)

/-- SHA-512. (log entry 7: PRESUMED in part) -/
def sha512 (m : Bytes) : Bytes :=
  let p := shaPad m
  ((chunks 128 (p.length / 128) p).foldl shaBlock shaInit).flatMap (beBytes 8)

/-- HMAC with SHA-512, for keys of at most a block. (log entry 7: PRESUMED in part) -/
def hmac512 (key m : Bytes) : Bytes :=
  let k := slice key 0 128
  sha512 (k.map (· ^^^ 0x5C) ++ sha512 (k.map (· ^^^ 0x36) ++ m))

/-! ### Curve P-521 and ECDSA -/

/-- The field's prime. -/
def p521 : Nat := 2 ^ 521 - 1

/-- The curve's constant b. -/
def p521b : Nat := 0x51953EB9618E1C9A1F929A21A0B68540EEA2DA725B99B315F3B8B489918EF109E156193951EC7E937B1652C0BD3BB1BF073573DF883D2C34F1EF451FD46B503F00

/-- The order of the base point. -/
def p521n : Nat := 0x1FFFFFFFFFFFFFFFFFFFFFFFFFFFFFFFFFFFFFFFFFFFFFFFFFFFFFFFFFFFFFFFFFA51868783BF2F966B7FCC0148F709A5D03BB5C9B8899C47AEBB6FB71E91386409

/-- The base point. -/
def p521g : Nat × Nat := (0xC6858E06B70404E9CD9E3ECB662395B4429C648139053FB521F828AF606B4D3DBAA14B5E77EFE75928FE1DC127A2FFA8DE3348B3C1856A429BF97E7E31C2E5BD66,
  0x11839296A789A3BC0045C8A5FB42C7D1BD998F54449579B446817AFBD17273E662C97EE72995EF42640C550B9013FAD0761353C7086A272C24088BE94769FD16650)

/-- The power of a number to a modulus, by squaring, with fuel for the bits of the exponent. -/
def powMod (m : Nat) : Nat → Nat → Nat → Nat
  | 0, _, _ => 1 % m
  | n + 1, b, e =>
    let r := powMod m n (b * b % m) (e / 2)
    if e % 2 = 1 then r * b % m else r

/-- The inverse to a prime modulus. -/
def invMod (m x : Nat) : Nat := powMod m 521 x (m - 2)

/-- A point in Jacobian coordinates; z = 0 is the point at infinity. -/
structure JPoint where
  x : Nat
  y : Nat
  z : Nat

/-- A difference in the field. -/
def subP (a b : Nat) : Nat := (a + p521 - b % p521) % p521

/-- A point doubled. -/
def JPoint.double (p : JPoint) : JPoint :=
  let d := p.z * p.z % p521
  let g := p.y * p.y % p521
  let b := p.x * g % p521
  let a := 3 * subP p.x d * (p.x + d) % p521
  let x := subP (a * a) (8 * b)
  ⟨x, subP (a * subP (4 * b) x) (8 * g * g), subP (subP ((p.y + p.z) * (p.y + p.z)) g) d⟩

/-- Two points added. -/
def JPoint.add (p q : JPoint) : JPoint :=
  if p.z = 0 then q
  else if q.z = 0 then p
  else
    let a := p.z * p.z % p521
    let c := q.z * q.z % p521
    let u := p.x * c % p521
    let s := p.y * q.z * c % p521
    let h := subP (q.x * a) u
    let r := subP (q.y * p.z * a) s
    if h = 0 then (if r = 0 then p.double else ⟨1, 1, 0⟩)
    else
      let hh := h * h % p521
      let v := u * hh % p521
      let x := subP (subP (r * r) (h * hh)) (2 * v)
      ⟨x, subP (r * subP v x) (s * h * hh), p.z * q.z * h % p521⟩

/-- A multiple of a point, over the bits of the number from the lowest. -/
def JPoint.mul : Nat → Nat → JPoint → JPoint
  | 0, _, _ => ⟨1, 1, 0⟩
  | n + 1, k, p =>
    let r := JPoint.mul n (k / 2) p.double
    if k % 2 = 1 then r.add p else r

/-- The affine coordinates of a point that is not at infinity. -/
def JPoint.affine (p : JPoint) : Nat × Nat :=
  let i := invMod p521 p.z
  (p.x * (i * i % p521) % p521, p.y * (i * i * i % p521) % p521)

/-- True where a pair lies on the curve. -/
def onCurve (q : Nat × Nat) : Bool :=
  q.1 < p521 && q.2 < p521 && q.2 * q.2 % p521 == subP (q.1 * q.1 * q.1 + p521b) (3 * q.1)

/-- Verification of a signature over a message: r and s of 66 bytes each, most significant first (R61).
(log entry 7: PRESUMED in part) -/
def ecdsaVerify (q : Nat × Nat) (m sig : Bytes) : Bool :=
  let r := beNat (slice sig 0 66)
  let s := beNat (slice sig 66 66)
  if r = 0 ∨ p521n ≤ r ∨ s = 0 ∨ p521n ≤ s ∨ onCurve q = false then false
  else
    let e := beNat (sha512 m)
    let w := invMod p521n s
    let x := (JPoint.mul 521 (e * w % p521n) ⟨p521g.1, p521g.2, 1⟩).add (JPoint.mul 521 (r * w % p521n) ⟨q.1, q.2, 1⟩)
    x.z != 0 && x.affine.1 % p521n == r

/-- The public point of a private scalar. -/
def publicPoint (d : Nat) : Nat × Nat := (JPoint.mul 521 d ⟨p521g.1, p521g.2, 1⟩).affine

/-- A public key as an uncompressed point of 133 bytes. -/
def pointBytes (q : Nat × Nat) : Bytes := 4 :: (beBytes 66 q.1 ++ beBytes 66 q.2)

/-- The candidates for the per-signature value of RFC 6979, with fuel. (log entry 7: PRESUMED in part) -/
def rfc6979 : Nat → Bytes → Bytes → Nat
  | 0, _, _ => 1
  | n + 1, key, v0 =>
    let v1 := hmac512 key v0
    let v2 := hmac512 key v1
    let k := beNat (v1 ++ v2) / 2 ^ 503
    if k ≠ 0 ∧ k < p521n then k
    else
      let key2 := hmac512 key (v2 ++ [0])
      rfc6979 n key2 (hmac512 key2 v2)

/-- The deterministic signature of a message (R400). (log entry 7: PRESUMED in part) -/
def ecdsaSign (d : Nat) (m : Bytes) : Bytes :=
  let h := sha512 m
  let seed := beBytes 66 d ++ beBytes 66 (beNat h)
  let v := List.replicate 64 (1 : BitVec 8)
  let k1 := hmac512 (List.replicate 64 0) (v ++ [0] ++ seed)
  let v1 := hmac512 k1 v
  let k2 := hmac512 k1 (v1 ++ [1] ++ seed)
  let k := rfc6979 64 k2 (hmac512 k2 v1)
  let r := (publicPoint k).1 % p521n
  beBytes 66 r ++ beBytes 66 (invMod p521n k * (beNat h + r * d) % p521n)

end Sys2Proof.Machine
end

