-- ==== Sys2Proof/Machine/Prompt.lean ====
section
/-! DEFINITION. Handoff and speculation (chapter 07): HANDOFF_PUT, its publication, HANDOFF_TAKE and SPEC_VERIFY. -/

namespace Sys2Proof.Machine

/-! ### Tables of the operations -/

/-- True where a sequence reference is current: an entry of the table that is valid and has the tag (R137).
(log entry 33: DEDUCED in part) -/
def State.seqCurrent (s : State) (q tag : Nat) : Bool :=
  decide (q < 4096) && (s.kvEntry q).valid && (s.kvEntry q).genTag == tag

/-- The argument group of a HANDOFF_PUT (R127). -/
def putArgs (r : Run) (d : Bytes) : Bytes := slice r.args (fieldAt d 4 1) 16

/-- The sequences of an argument group: the target, and the draft unless there is none. -/
def putSeqs (g : Bytes) : List (Nat × Nat) :=
  (fieldAt g 0 2, fieldAt g 2 2) :: (if fieldAt g 4 2 = 0xFFFF then [] else [(fieldAt g 4 2, fieldAt g 6 2)])

/-- Step 1 of R128: the code of the first check that fails, 0 when all pass. (log entry 33: DEDUCED in part) -/
def State.putCheck (s : State) (ctx : Nat) (g : Bytes) : Nat :=
  let qs := putSeqs g
  if qs.any (fun q => !s.seqCurrent q.1 q.2) then 0x0381
  else if qs.any (fun q => (s.kvEntry q.1).holder != ctx) then 0x0383
  else if qs.any (fun q => (s.kvEntry q.1).tentative != (s.kvEntry q.1).committed) ||
      qs.any (fun q => (s.kvEntry q.1).committed != (s.kvEntry (fieldAt g 0 2)).committed) then 0x0382
  else 0

/-- HANDOFF_PUT (R128 step 1): the checks; an operation that passes waits for ring space.
(log entry 32: DEDUCED in part) (log entry 33: DEDUCED in part) -/
def execHandoffPut (op : Nat × Ecc) (s : State) : Host.Outcome State Fault Refusal :=
  .next (match s.startable op.1 0x40 with
    | none => s
    | some (r, d) =>
      if r.putReady then s
      else
        let e := s.eccCheck r.die op.2
        let c := if e.2 then 0x0204 else s.putCheck r.ctx (putArgs r d)
        if c = 0 then e.1.setRun { r with putReady := true } else e.1.setRun (r.finishOp c {} r.die []))

/-- The append right of sequences moved to a context (R128 step 4). -/
def State.moveRight (s : State) (ctx : Nat) : List (Nat × Nat) → State
  | [] => s
  | q :: qs => (s.setKv q.1 { s.kvEntry q.1 with holder := ctx }).moveRight ctx qs

/-- A handoff record without its check (R126). (log entry 33: DEDUCED in part) -/
def handoffBody (src dst : Nat) (g : Bytes) (committed stateVa stateLen n : Nat) : Bytes :=
  leBytes 2 1 ++ leBytes 1 src ++ leBytes 1 dst ++ slice g 0 6 ++
    (if fieldAt g 4 2 = 0xFFFF then leBytes 2 0 else slice g 6 2) ++ leBytes 4 committed ++ slice g 8 8 ++
    leBytes 8 stateVa ++ leBytes 4 stateLen ++ leBytes 4 0 ++ leBytes 8 n ++ leBytes 12 0

/-- A handoff record (R126). (log entry 33: DEDUCED in part) -/
def handoffRecord (src dst : Nat) (g : Bytes) (committed stateVa stateLen n : Nat) : Bytes :=
  let b := handoffBody src dst g committed stateVa stateLen n
  b ++ leBytes 4 (crc32c b)

/-- A sequence that no invocation of a context has to settle any more, unless a group of it is open, which the end of its
invocation closes (R145). (log entry 24: DEDUCED in part) -/
def State.settled (s : State) (ctx q : Nat) : State :=
  if (s.kvEntry q).groupOpen then s
  else { s with kvTouched := s.kvTouched.filter (fun t => !(t.ctx == ctx && t.seq == q)) }

/-- HANDOFF_PUT_PUBLISH (R128 steps 2 to 6): once put_sync − take_sync is below ring_slots, the append right moves, record
n is written and put_sync advances. (log entry 33: DEDUCED in part) -/
def execHandoffPutPublish (run : Nat) (s : State) : Host.Outcome State Fault Refusal :=
  .next (match s.startable run 0x40, s.layout with
    | some (r, d), some l =>
      let put := s.syncValue (fieldAt d 0x10 2)
      let slots := fieldAt d 2 2
      if r.putReady = false ∨ slots ≤ put - s.syncValue (fieldAt d 0x12 2) then s
      else
        let g := putArgs r d
        let q := fieldAt g 0 2
        let rec' := handoffRecord r.ctx (fieldAt d 1 1) g (s.kvEntry q).committed (fieldAt d 0x18 8) (fieldAt d 0x14 4) put
        let s1 := s.moveRight (fieldAt d 1 1) (putSeqs g)
        match s1.writeVa (.engine r.die) .engineWrite r.ctx (fieldAt d 8 8 + put % slots * 64) rec' with
        | .error (code, va) => (s.xltFault r.die r.ctx code va).setRun (r.finishOp code {} r.die [])
        | .ok t =>
          let t1 := (l.syncObj (fieldAt d 0x10 2)).elim t (fun k => t.signal k 1)
          ((putSeqs g).foldl (fun (a : State) x => a.settled r.ctx x.1) t1).setRun (r.finishOp 0 {} r.die [])
    | _, _ => s)

/-! ### HANDOFF_TAKE (R129, R130) -/

/-- The lowest free entry of a decode batch. -/
def State.freeBatchEntry (s : State) (die addr len : Nat) : Option Nat :=
  (List.range len).find? (fun i => !bit (fieldAt (s.readDie die (addr + 16 * i) 16) 0xE 1) 0)

/-- The code of a record at take, 0 when it passes (R129, R137); a record with a nonzero reserved byte is rejected too
(R10, R126). (log entry 33: DEDUCED in part) -/
def State.takeCheck (s : State) (ctx : Nat) (b : Bytes) : Nat :=
  let q := fieldAt b 4 2
  if crc32c (slice b 0 0x3C) ≠ fieldAt b 0x3C 4 ∨ fieldAt b 0 2 ≠ 1 ∨ fieldAt b 3 1 ≠ ctx ∨ fieldAt b 0x24 4 ≠ 0 ∨
      fieldAt b 0x30 12 ≠ 0 then 0x0380
  else if (putSeqs (slice b 4 8)).any (fun x => !s.seqCurrent x.1 x.2) then 0x0381
  else if fieldAt b 0xC 4 ≠ (s.kvEntry q).committed then 0x0382
  else 0

/-- The batch entry that adoption writes (R130). (log entry 33: DEDUCED in part) -/
def adoptedEntry (b : Bytes) : Bytes :=
  slice b 4 8 ++ slice b 0x14 4 ++ leBytes 2 0 ++ leBytes 1 (if fieldAt b 0x14 4 = 0xFFFFFFFF then 9 else 1) ++ leBytes 1 0

/-- Records taken one by one, with fuel max_take; the failure codes, or the fault of a read of the ring.
(log entry 33: DEDUCED in part) -/
def State.takeRecords (s : State) (r : Run) (d : Bytes) : Nat → List Nat → State × List Nat × Option (Nat × Nat)
  | 0, cs => (s, cs, none)
  | n + 1, cs =>
    let take := s.syncValue (fieldAt d 0x12 2)
    if s.syncValue (fieldAt d 0x10 2) ≤ take then (s, cs, none)
    else
      match s.freeBatchEntry r.die (fieldAt d 0x20 4) (fieldAt d 0x24 2) with
      | none => (s, cs, none)
      | some i =>
        match s.readVa (.engine r.die) r.ctx (fieldAt d 8 8 + take % fieldAt d 2 2 * 64) 64 with
        | .error e => (s, cs, some e)
        | .ok b =>
          let c := s.takeCheck r.ctx b
          let s1 :=
            if c = 0 then s.writeDie r.die (fieldAt d 0x20 4 + 16 * i) (adoptedEntry b)
            else ((s.event Ev.SPEC_EVT_STATUS_handoff_err).setFld Fld.SPEC_HANDOFF_LAST_seq_id (fieldAt b 4 2 % 4096)).setFld
              Fld.SPEC_HANDOFF_LAST_code c
          (s1.signalId (fieldAt d 0x12 2) 1).takeRecords r d n (cs ++ [c])

/-- HANDOFF_TAKE (R129). One that meets an uncorrectable error takes no record (R108). (log entry 32: DEDUCED in part) -/
def execHandoffTake (op : Nat × Ecc) (s : State) : Host.Outcome State Fault Refusal :=
  .next (match s.startable op.1 0x41 with
    | none => s
    | some (r, d) =>
      let e := s.eccCheck r.die op.2
      if e.2 then e.1.setRun (r.finishOp 0x0204 {} r.die [])
      else
        let x := e.1.takeRecords r d (fieldAt d 5 1) []
        match x.2.2 with
        | some (code, va) => (x.1.xltFault r.die r.ctx code va).setRun (r.finishOp code {} r.die [])
        | none => x.1.setRun (r.finishOp (lowestCode x.2.1) {} r.die []))

/-! ### SPEC_VERIFY (R132) -/

/-- The largest a for which the first a drafts equal the target's tokens. (log entry 33: DEDUCED in part) -/
def acceptedPrefix : List Nat → List Nat → Nat
  | y :: ys, t :: ts => if y = t then acceptedPrefix ys ts + 1 else 0
  | _, _ => 0

/-- Four-byte tokens of a die. -/
def State.tokens (s : State) (die addr n : Nat) : List Nat :=
  (List.range n).map (fun i => leNat (s.readDie die (addr + 4 * i) 4))

/-- One entry of a batch verified (R132 steps 1 to 6). (log entry 33: DEDUCED in part) -/
def State.verifyEntry (s : State) (r : Run) (d : Bytes) (i : Nat) : State :=
  let addr := fieldAt d 0x20 4 + 16 * i
  let b := s.readDie r.die addr 16
  let flags := fieldAt b 0xE 1
  if bit flags 0 = false ∨ bit flags 3 = true then s
  else
    let q := fieldAt b 0 2
    let qs := putSeqs b
    let e := s.kvEntry q
    let k := fieldAt b 0xC 1
    if qs.any (fun x => !s.seqCurrent x.1 x.2) then
      (s.writeDie r.die (addr + 0xE) (leBytes 1 (setBits flags 0 2 2))).event Ev.SPEC_EVT_STATUS_stale
    else if e.tentative ≠ e.committed + k + 1 then
      let s1 := qs.foldl (fun (a : State) x => (a.kvRollback x.1 (a.kvEntry x.1).committed).settled r.ctx x.1) s
      (s1.writeDie r.die (addr + 0xE) (leBytes 1 (setBits flags 2 1 1))).event Ev.SPEC_EVT_STATUS_len_err
    else
      let ts := s.tokens r.die (fieldAt d 0x2C 4 + 64 * i) (k + 1)
      let a := acceptedPrefix (s.tokens r.die (fieldAt d 0x28 4 + 32 * i) k) ts
      let l' := e.committed + a + 1
      let s1 := (s.kvRollback q l').settled r.ctx q
      let s2 :=
        if fieldAt b 4 2 = 0xFFFF then s1
        else
          let dq := fieldAt b 4 2
          let dl := min l' (s.kvEntry dq).tentative
          ((s1.kvRollback dq dl).settled r.ctx dq).writeDie r.die (addr + 0xF) (leBytes 1 (l' - dl))
      let s3 := (s2.writeDie r.die (addr + 8) (leBytes 4 (ts.getD a 0))).writeDie r.die (addr + 0xD) (leBytes 1 a)
      ((s3.count64 Reg.SPEC_ROUNDS 1).count64 Reg.SPEC_PROPOSED k).count64 Reg.SPEC_ACCEPTED a

/-- The entries of a batch verified in ascending order. -/
def State.verifyEntries (s : State) (r : Run) (d : Bytes) : List Nat → State
  | [] => s
  | i :: is => (s.verifyEntry r d i).verifyEntries r d is

/-- SPEC_VERIFY (R132): so many further entries of the batch; an abort falls between two entries (R134), and an uncorrectable
error before the next one (R108). (log entry 32: DEDUCED in part) (log entry 33: DEDUCED in part) -/
def execSpecVerify (part : Nat × Nat × Ecc) (s : State) : Host.Outcome State Fault Refusal :=
  .next (match s.startable part.1 0x42 with
    | none => s
    | some (r, d) =>
      let len := fieldAt d 0x24 2
      let e := s.eccCheck r.die part.2.2
      let m := min part.2.1 (len - r.progress)
      if e.2 then e.1.setRun (r.finishOp 0x0204 {} r.die [])
      else
        let t := e.1.verifyEntries r d ((List.range m).map (r.progress + ·))
        t.setRun (if r.progress + m < len then { r with progress := r.progress + m } else r.finishOp 0 {} r.die []))

end Sys2Proof.Machine
end

