-- ==== Sys2Proof/Machine/HostLink.lean ====
section
/-! DEFINITION. The host link (chapter 05): windows, doorbells, sync slots, the version handshake, submission queues,
completions and notifiers. -/

namespace Sys2Proof.Machine

/-! ### Counts (R93) -/

/-- Slots of a context's rings. -/
def State.queueSlots (s : State) (k : Nat) : Nat :=
  (s.layout.bind (fun l => l.ctxRec k)).elim 1 (fun r => fieldAt r 0xC 2)

/-- The modulus W of a context's counts (R93). -/
def State.queueW (s : State) (k : Nat) : Nat := 2 * s.queueSlots k * (2 ^ 31 / s.queueSlots k)

/-- The difference a − b of two counts modulo w. -/
def countDiff (w a b : Nat) : Nat := (a + w - b % w) % w

/-- True where count `n` lies before the limit `u`, by at most half of the counts. -/
def State.beforeLimit (s : State) (k : Nat) (u : Option Nat) (n : Nat) : Bool :=
  match u with
  | none => false
  | some u =>
    let d := countDiff (s.queueW k) u n
    decide (0 < d) && decide (2 * d ≤ s.queueW k)

/-- True for an invocation that a reset of the host port left without a completion record (R407): its count lies at or above
2^32, where no count of R93 does. -/
def Invocation.orphan (i : Invocation) : Bool := decide (2 ^ 32 ≤ i.sqIndex)

/-- Invocations of a context in flight: started, or completed and not published. -/
def State.inFlight (s : State) (k : Nat) : Nat := (s.invs.filter (fun i => i.ctx == k)).length

/-- True while a completion slot is free for one more invocation (R96). -/
def State.completionRoom (s : State) (k : Nat) : Bool :=
  decide (countDiff (s.queueW k) (s.queue k).cqTail (s.queue k).cqHead +
    (s.invs.filter (fun i => i.ctx == k && !i.orphan)).length < s.queueSlots k)

/-! ### Windows (R86) -/

/-- The physical base of the STAGING window (R86, R175): in HBM, or in recovery the SRAM of the Cache die (R388).
(log entry 27: DESIGN CHOICE in part) -/
def State.stagingBase (s : State) : Nat := if s.fld Fld.BOOT_STATUS_state = 3 then dieLocal 1 0 else 0x11FC000000

/-- Where a byte of BAR2 leads; none where the access faults. (log entry 27: DESIGN CHOICE in part) -/
def State.bar2Target (s : State) (acc : Access) (off : Nat) : Option Target :=
  let k := off / 0x40000000
  let x := off % 0x40000000
  if 64 ≤ k then none
  else if s.fld (Fld.HQ_WIN_CTRL_mode k) = 1 then
    match s.translate .host acc (s.fld (Fld.HQ_WIN_CTRL_ctx_id k)) (s.reg64 (Reg.HQ_WIN_BASE k) + x) with
    | .ok t => some t
    | .error _ => none
  else if s.fld (Fld.HQ_WIN_CTRL_mode k) = 2 then
    if x < 0x4000000 then some (.phys (s.stagingBase + x)) else none
  else none

/-- A byte of BAR2 read. -/
def State.bar2Byte (s : State) (off : Nat) : Option (BitVec 8) :=
  match s.bar2Target .read off with
  | none => none
  | some (.phys p) => some (s.byteAt p)
  | some (.flash a) => match s.flashRead a with | .ok b => some b | .error _ => none

/-- A read of BAR2; none where any byte faults. (log entry 27: DESIGN CHOICE in part) -/
def State.bar2Bytes (s : State) (off : Nat) : Nat → Option Bytes
  | 0 => some []
  | n + 1 =>
    match s.bar2Byte off, s.bar2Bytes (off + 1) n with
    | some b, some bs => some (b :: bs)
    | _, _ => none

/-- True where every byte of a BAR2 write is taken. (log entry 27: DESIGN CHOICE in part) -/
def State.bar2WriteOk (s : State) (off : Nat) : Nat → Bool
  | 0 => true
  | n + 1 =>
    (match s.bar2Target .transferWrite off with
      | none => false
      | some (.phys _) => true
      | some (.flash _) => s.flashWritable == 0) && s.bar2WriteOk (off + 1) n

/-- Bytes written through BAR2. (log entry 27: DESIGN CHOICE in part) -/
def State.bar2Put (s : State) (off : Nat) : Bytes → State
  | [] => s
  | b :: bs =>
    (match s.bar2Target .transferWrite off with
      | some (.phys p) => s.setByte p b
      | some (.flash a) => s.flashPut a b
      | none => s).bar2Put (off + 1) bs

/-- True where some byte of a BAR2 access lies in flash. (log entry 27: DESIGN CHOICE in part) -/
def State.bar2Flash (s : State) (acc : Access) (off len : Nat) : Bool :=
  (List.range len).any (fun i => match s.bar2Target acc (off + i) with | some (.flash _) => true | _ => false)

/-- True where some byte of a BAR2 read lies in a flash codeword that is uncorrectable (R194).
(log entry 27: DESIGN CHOICE in part) -/
def State.bar2Lost (s : State) (off len : Nat) : Bool :=
  (List.range len).any (fun i => match s.bar2Target .read (off + i) with
    | some (.flash a) => (match s.flashRead a with | .error e => e == 0x0401 | .ok _ => false)
    | _ => false)

/-- BAR2_READ (R86, R188, R194, R195): the bytes, or all ones in every byte with win_fault; a read that meets an uncorrectable
error faults, and Crust or the flash controller reports it. (log entry 27: DESIGN CHOICE in part) -/
def execBar2Read (off : Nat) (got : Nat × Found) (s : State) : Host.Outcome State Fault Refusal :=
  .next (
    let len := got.1
    let flash := s.bar2Flash .read off len
    let w := off / 0x40000000
    let s1 := if flash then
        (s.noteActive 2).countReads (s.fld (Fld.HQ_WIN_CTRL_ctx_id w)) (s.reg64 (Reg.HQ_WIN_BASE w) + off % 0x40000000) len got.2
      else s
    let fault := fun (t : State) => { t with answer := List.replicate len 255 }.hqEvent Ev.HQ_EVT_STATUS_win_fault
    match s1.bar2Bytes off len with
    | some bs => if got.2.lost && !flash then fault (s1.accessFault 1 0 0x0204 0) else { s1 with answer := bs }
    | none => fault (if s1.bar2Lost off len then s1.event Ev.FTL_EVT_STATUS_uncorr else s1))

/-- BAR2_WRITE (R86): the bytes are written, or the whole write is discarded with win_fault.
(log entry 27: DESIGN CHOICE in part) -/
def execBar2Write (off : Nat) (data : Bytes) (s : State) : Host.Outcome State Fault Refusal :=
  .next (
    if s.bar2WriteOk off data.length then
      let s1 := s.bar2Put off data
      if s.bar2Flash .transferWrite off data.length then s1.noteActive 2 else s1
    else s.hqEvent Ev.HQ_EVT_STATUS_win_fault)

/-! ### Doorbells and sync slots (R87, R91, R94, R99) -/

/-- A submission tail doorbell (R94). -/
def State.tailDoorbell (s : State) (k v : Nat) : State :=
  let q := s.queue k
  let w := s.queueW k
  let n := s.queueSlots k
  if s.hostReady && s.holds k && decide (v < w) && decide (countDiff w v q.sqTail ≤ n) && decide (countDiff w v q.sqHead ≤ n)
  then s.setQueue k { q with sqTail := v }
  else s.hqEvent Ev.HQ_EVT_STATUS_db_invalid

/-- A completion head doorbell (R94). -/
def State.headDoorbell (s : State) (k v : Nat) : State :=
  let q := s.queue k
  let w := s.queueW k
  if s.hostReady && s.holds k && decide (v < w) && decide (countDiff w v q.cqHead ≤ countDiff w q.cqTail q.cqHead)
  then s.setQueue k { q with cqHead := v }
  else s.hqEvent Ev.HQ_EVT_STATUS_db_invalid

/-- SUBMISSION_TAIL_DOORBELL (R94). -/
def execSubmissionTailDoorbell (k value : Nat) (s : State) : Host.Outcome State Fault Refusal :=
  .next (s.tailDoorbell k value)

/-- COMPLETION_HEAD_DOORBELL (R94). -/
def execCompletionHeadDoorbell (k value : Nat) (s : State) : Host.Outcome State Fault Refusal :=
  .next (s.headDoorbell k value)

/-- The object behind a sync slot, where the layout sync ID is present and host_visible. -/
def State.slotObj (s : State) (id : Nat) : Option Nat :=
  match s.layout with
  | none => none
  | some l =>
    match l.syncRec id with
    | none => none
    | some r => if bit (fieldAt r 6 2) 0 then l.syncObj id else none

/-- A write of a sync slot (R91, R99): size in bytes and offset in the slot. (log entry 27: DESIGN CHOICE in part) -/
def State.syncSlotWrite (s : State) (id off size v : Nat) : State :=
  if !s.hostReady then s.hqEvent Ev.HQ_EVT_STATUS_db_invalid
  else if off = 0 ∧ (size = 8 ∨ size = 4) then
    match s.slotObj id with
    | some o => s.signal o (v % 2 ^ (8 * size))
    | none => s.hqEvent Ev.HQ_EVT_STATUS_sync_invalid
  else s.hqEvent Ev.HQ_EVT_STATUS_sync_invalid

/-- SYNC_SLOT_WRITE (R99). (log entry 27: DESIGN CHOICE in part) -/
def execSyncSlotWrite (id off size value : Nat) (s : State) : Host.Outcome State Fault Refusal :=
  .next (s.syncSlotWrite id off size value)

/-- A byte of the MSI-X pending-bit array. (log entry 75: DEDUCED in part) -/
def State.msixPendingByte (s : State) (i : Nat) : Byte :=
  BitVec.ofNat 8 ((List.range 8).map (fun b => if s.msixPending.contains (8 * i + b) then 2 ^ b else 0)).sum

/-- What a BAR4 offset outside the sync slots reads as (R87): the MSI-X table, its pending bits, and zero elsewhere.
(log entry 75: DEDUCED in part) -/
def State.bar4Byte (s : State) (off : Nat) : Byte :=
  if 0xFF0000 ≤ off ∧ off < 0xFF0400 then
    (leBytes 4 (Sparse.get msixDefault s.msixTable ((off - 0xFF0000) / 4)).toNat).getD (off % 4) 0
  else if 0xFF8000 ≤ off ∧ off < 0xFF8008 then s.msixPendingByte (off - 0xFF8000)
  else 0

/-- SYNC_SLOT_READ (R87, R99): a read of BAR4. Of a sync slot it returns the whole value, or the half that a 32-bit read names;
zero with sync_invalid where the slot is absent or hidden. A read elsewhere sets no event.
(log entry 27: DESIGN CHOICE in part) -/
def execSyncSlotRead (id : Option Nat) (off size : Nat) (s : State) : Host.Outcome State Fault Refusal :=
  .next (
    let off := id.elim off (fun o => 0x100000 + 8 * o + off)
    if 0x100000 ≤ off ∧ off < 0x180000 - 8 then
      match s.slotObj ((off - 0x100000) / 8) with
      | some o => { s with answer := leBytes size (s.sync o / 2 ^ (8 * (off % 8))) }
      | none => { s with answer := leBytes size 0 }.hqEvent Ev.HQ_EVT_STATUS_sync_invalid
    else { s with answer := (List.range size).map (fun i => s.bar4Byte (off + i)) })

/-- A write of the MSI-X table (R87): an aligned 32-bit or 64-bit one is taken, of a vector-control word the mask bit alone; a
vector that is pending and no longer masked is sent. (log entry 75: DEDUCED in part) -/
def State.msixWrite (s : State) (off size v : Nat) : State :=
  if (size = 4 ∨ size = 8) ∧ off % size = 0 then
    let put := fun (m : Sparse Word) (a x : Nat) =>
      Sparse.put msixDefault m a (BitVec.ofNat 32 (if a % 4 = 3 then x % 2 else x))
    let a := (off - 0xFF0000) / 4
    let m1 := put s.msixTable a v
    let s1 := { s with msixTable := if size = 8 then put m1 (a + 1) (v / 2 ^ 32) else m1 }
    let sent := s1.msixPending.filter (fun x => !s1.msixMasked x)
    { s1 with msix := s1.msix ++ sent, msixPending := s1.msixPending.filter (fun x => s1.msixMasked x) }
  else s

/-- BAR4_INVALID_WRITE (R87): an unlisted offset, or a doorbell written with another size, is ignored and sets
db_invalid; a slot write of another form is R99's, and the MSI-X table and pending bits are PCI Express's.
(log entry 27: DESIGN CHOICE in part; log entry 75: DEDUCED in part) -/
def execBar4InvalidWrite (off size value : Nat) (s : State) : Host.Outcome State Fault Refusal :=
  .next (
    let k := off / 0x1000
    if off < 0x40000 ∧ off % 0x1000 = 0 ∧ size = 4 then s.tailDoorbell k value
    else if off < 0x40000 ∧ off % 0x1000 = 8 ∧ size = 4 then s.headDoorbell k value
    else if 0x100000 ≤ off ∧ off < 0x180000 - 8 then
      s.syncSlotWrite ((off - 0x100000) / 8) ((off - 0x100000) % 8) size value
    else if 0xFF0000 ≤ off ∧ off < 0xFF0400 then s.msixWrite off size value
    else if 0xFF8000 ≤ off ∧ off < 0xFF8008 then s
    else s.hqEvent Ev.HQ_EVT_STATUS_db_invalid)

/-! ### The handshake (R88 to R92) -/

/-- IF_PROPOSE (R89): a write of propose = 1. It takes HQ_IF_DRV as it stands; one while a proposal is pending, or in a
state that takes none (R90), is ignored. (log entry 26: DESIGN CHOICE in part) -/
def execIfPropose (who : Requester) (s : State) : Host.Outcome State Fault Refusal :=
  .next (s.busWrite who 1 0x45 false (fun s =>
    let st := s.fld Fld.HQ_DEV_STATE_state
    if s.flag Fld.HQ_IF_CTRL_propose || !(st == 1 || st == 2 || st == 3) then s
    else { s with proposal := some (s.reg Reg.HQ_IF_DRV) }.setFld Fld.HQ_IF_CTRL_propose 1))

/-- The highest common major, 0 where there is none. (log entry 26: DESIGN CHOICE in part) -/
def commonMajor (a b : Nat) : Nat := ((List.range 16).filter (fun m => a.testBit m && b.testBit m)).foldl max 0

/-- The agreed minor (R89 step 3). (log entry 26: DESIGN CHOICE in part) -/
def agreedMinor (m fw fwMinor drv drvMinor : Nat) : Nat :=
  if commonMajor fw fw = m ∧ commonMajor drv drv = m then min fwMinor drvMinor else 0

/-- The answer to a proposal (R90). (log entry 26: DESIGN CHOICE in part) -/
def State.answerProposal (s : State) (p : Word) : State :=
  let drv := bits p.toNat 0 16
  let fw := s.fld Fld.HQ_IF_FW_majors
  let m := commonMajor fw drv
  let ready := s.hostReady
  if drv = 0 ∨ bit drv 0 then s.setFld Fld.HQ_IF_STATUS_code 0x0B11
  else if m = 0 then
    if ready then s.setFld Fld.HQ_IF_STATUS_code 0x0B12
    else (s.setFld Fld.HQ_IF_STATUS_code 0x0B10).setFld Fld.HQ_DEV_STATE_state 4
  else
    let s1 := (s.setFld Fld.HQ_IF_STATUS_major m).setFld Fld.HQ_IF_STATUS_minor
      (agreedMinor m fw (s.fld Fld.HQ_IF_FW_minor) drv (bits p.toNat 16 8))
    let s2 := s1.setFld Fld.HQ_IF_STATUS_code 0
    if ready then s2 else s2.setFld Fld.HQ_DEV_STATE_state (if s2.fld Fld.HQ_DEV_STATE_bkr_restarting = 0 then 2 else 3)

/-- IF_ANSWER (R89): firmware on the Cache die answers the pending proposal; it waits while that core restarts.
(log entry 26: DESIGN CHOICE in part; log entry 78: DESIGN CHOICE in part) -/
def execIfAnswer (s : State) : Host.Outcome State Fault Refusal :=
  .next (match s.proposal with
    | none => s
    | some p =>
      let st := s.fld Fld.HQ_DEV_STATE_state
      if bit (s.fld Fld.HQ_DEV_STATE_bkr_restarting) 1 then s
      else
        let s1 := { s with proposal := none }.setFld Fld.HQ_IF_CTRL_propose 0
        if st = 1 ∨ st = 2 ∨ st = 3 then (s1.answerProposal p).hqEvent Ev.HQ_EVT_STATUS_if_done else s1)

/-- The core of a die restarts no longer (R92): the device is READY again once none does.
(log entry 69: DEDUCED in part) -/
def State.coreBack (s : State) (die : Nat) : State :=
  let s1 := s.setFld Fld.HQ_DEV_STATE_bkr_restarting (setBits (s.fld Fld.HQ_DEV_STATE_bkr_restarting) die 1 0)
  if s1.fld Fld.HQ_DEV_STATE_bkr_restarting == 0 && s1.fld Fld.HQ_DEV_STATE_state == 3 then s1.setFld Fld.HQ_DEV_STATE_state 2
  else s1

/-! ### Queues (R94 to R101) -/

/-- DESCRIPTOR_FETCH (R94, R96): the next descriptor of a queue is read while run is 1, and after a stop up to the count
that the stop covers. -/
def execDescriptorFetch (k : Nat) (s : State) : Host.Outcome State Fault Refusal :=
  .next (
    let q := s.queue k
    if s.holds k && q.sqHead != q.sqTail && !q.fault &&
        (s.flag (Fld.HQ_Q_CTRL_run k) || s.beforeLimit k q.stopUpTo q.sqHead) then
      let d := s.readHost (s.reg64 (Reg.HQ_Q_SQ_BASE k) + q.sqHead % s.queueSlots k * 64) 64
      s.setQueue k { q with fetched := q.fetched ++ [(q.sqHead, d)], sqHead := (q.sqHead + 1) % s.queueW k }
    else s)

/-- The SCHEDULES record of a context when its schedule runs once per invocation (R450). -/
def Layout.onceSched (l : Layout) (k : Nat) : Option Bytes :=
  (l.schedRec k).bind (fun r => if fieldAt r 4 4 = 0 then some r else none)

/-- True where a descriptor's fields, the argument area apart, are valid (R95, R104). -/
def descFieldsOk (k : Nat) (d : Bytes) : Bool :=
  fieldAt d 0 1 == k && fieldAt d 1 1 / 4 == 0 &&
    (if fieldAt d 0xA 2 = 0xFFFF then fieldAt d 0xC 4 == 0 else fieldAt d 0xC 4 != 0) &&
    (if fieldAt d 8 2 = 0xFFFF then fieldAt d 0x10 8 == 0 else true) && fieldAt d 0x18 8 == 0

/-- True where a sync ID may be signalled by a programme of a context (R99). -/
def Layout.maySignal (l : Layout) (k i : Nat) : Bool :=
  (l.syncRec i).elim false (fun r => fieldAt r 0 1 == k || bit (fieldAt r 6 2) 1)

/-- The checks 1 to 4 of R96 on a descriptor; 0 when all pass. -/
def Layout.descCheck (l : Layout) (k : Nat) (d : Bytes) : Nat :=
  let p := fieldAt d 2 2
  if !descFieldsOk k d then 0x0B01
  else
    match l.progRec p with
    | none => 0x0B02
    | some r =>
      let inSched := (l.onceSched k).isNone || (l.schedSteps k).any (fun t => fieldAt t 4 2 == p)
      if fieldAt r 0 1 ≠ k ∨ inSched = false then 0x0B02
      else if !allZero (slice d (0x20 + fieldAt r 0xC 2) (32 - fieldAt r 0xC 2)) then 0x0B01
      else if (fieldAt d 8 2 ≠ 0xFFFF ∧ (l.syncRec (fieldAt d 8 2)).isNone = true) ∨
          (fieldAt d 0xA 2 ≠ 0xFFFF ∧ l.maySignal k (fieldAt d 0xA 2) = false) then 0x0B03
      else 0

/-- The status with which a descriptor at its turn completes without running (R82, R96, R101), in the check order of R96 also
for one that a stop or a failed residency ends; 0 when it is to run or to wait. (log entry 24: DEDUCED in part) -/
def State.descReject (s : State) (k n : Nat) (d : Bytes) : Nat :=
  let q := s.queue k
  let c := s.layout.elim 0 (fun l => l.descCheck k d)
  if c ≠ 0 then c
  else if s.beforeLimit k q.stopUpTo n then 0x0B32
  else if s.beforeLimit k q.failUpTo n then 0x0B33
  else
    match (s.ctx k).phase with
    | .absent => 0x0B30
    | .nonresident => 0x0B30
    | .stopped => 0x0B32
    | _ => 0

/-- The queue with its head descriptor taken, and limits that it reached cleared. -/
def State.popFetched (s : State) (k n : Nat) : State :=
  let q := s.queue k
  let next := (n + 1) % s.queueW k
  let q1 := { q with
    fetched := q.fetched.drop 1
    stopUpTo := if q.stopUpTo = some next then none else q.stopUpTo
    failUpTo := if q.failUpTo = some next then none else q.failUpTo }
  s.setQueue k q1

/-- What R96 asks for the start of a valid descriptor: RESIDENT, the wait, the fence, an operation slot, and the die's
baker core running (R83). -/
def State.mayStart (s : State) (k : Nat) (d : Bytes) (die : Nat) : Bool :=
  (s.ctx k).phase == .resident && (fieldAt d 8 2 == 0xFFFF || decide (fieldAt d 0x10 8 ≤ s.syncValue (fieldAt d 8 2))) &&
    (!bit (fieldAt d 1 1) 1 || s.inFlight k == 0) && s.slotFree k die && !bit (s.fld Fld.HQ_DEV_STATE_bkr_restarting) die

/-- An invocation put in flight. -/
def State.addInv (s : State) (i : Invocation) : State := { s with invs := s.invs ++ [i] }

/-- A valid invocation started: one activation of a schedule with period 0, or its programme alone (R450). Its start is an
instant of the die that holds its budget counter (R19, R80). (log entry 23: DEDUCED in part) -/
def State.startInvocation (s : State) (l : Layout) (k n : Nat) (d : Bytes) : State :=
  let args := slice d 0x20 32
  let t := s.localNow (s.invDie k d)
  let s1 := s.addInv ⟨k, n, d, t, true, false, none⟩
  if (l.onceSched k).isSome then
    let c := s1.ctx k
    s1.setCtx k { c with acts := c.acts ++ [s1.newActivation k t (some n) args], actCount := c.actCount + 1 }
  else s1.startProgram k (fieldAt d 2 2) 0 args (.invocation n)

/-- INVOCATION_START (R96): the head descriptor of a queue starts, or completes without running. -/
def execInvocationStart (k : Nat) (s : State) : Host.Outcome State Fault Refusal :=
  .next (match (s.queue k).fetched, s.layout with
    | (n, d) :: _, some l =>
      if s.completionRoom k = false then s
      else
        let c := s.descReject k n d
        let die := (l.progRec (fieldAt d 2 2)).elim 0 (fun r => fieldAt r 1 1)
        if c ≠ 0 then (s.popFetched k n).addInv ⟨k, n, d, 0, false, false, some c⟩
        else if s.mayStart k d die then (s.popFetched k n).startInvocation l k n d
        else s
    | _, _ => s)

/-- A completion record (R97); every field but the count, the times and the phase is the descriptor's.
(log entry 24: DEDUCED in part) -/
def completionRecord (i : Invocation) (code cqIndex slots tEnd : Nat) : Bytes :=
  slice i.desc 4 4 ++ leBytes 2 code ++ slice i.desc 2 2 ++ slice i.desc 0 1 ++ leBytes 1 ((cqIndex / slots + 1) % 2) ++
    leBytes 2 0 ++ leBytes 4 i.sqIndex ++ leBytes 8 i.start ++ leBytes 8 tEnd

/-- A completion record in host memory, by two posted writes (R97): all 32 bytes with the phase bit inverted, then byte 0x09.
(log entry 24: DEDUCED in part) -/
def State.postRecord (s : State) (a : Nat) (b : Bytes) : State :=
  (s.writeHost a (b.set 9 (b.getD 9 0 ^^^ 1))).writeHost (a + 9) (slice b 9 1)

/-- The completion record written and cq_tail advanced, unless the queue discards (R94).
(log entry 24: DEDUCED in part; log entry 75: DEDUCED in part) -/
def State.publish (s : State) (i : Invocation) (code : Nat) : State :=
  let q := s.queue i.ctx
  let slots := s.queueSlots i.ctx
  if q.discard || i.orphan then s
  else
    (s.postRecord (s.reg64 (Reg.HQ_Q_CQ_BASE i.ctx) + q.cqTail % slots * 32)
      (completionRecord i code q.cqTail slots (s.localNow (s.invDie i.ctx i.desc)))).setQueue i.ctx
      { q with cqTail := (q.cqTail + 1) % s.queueW i.ctx }

/-- True where an invocation is the next of its context to complete with 0x0B32, which go in count order (R101).
(log entry 24: DEDUCED in part) -/
def State.stoppedInTurn (s : State) (k n : Nat) : Bool :=
  (s.invs.find? (fun i => i.ctx == k && i.done == some 0x0B32)).elim false (fun i => i.sqIndex == n)

/-- INVOCATION_COMPLETE (R98): sequences settled, the sync signal, the completion record and the interrupt, in order.
(log entry 24: DEDUCED in part) -/
def execInvocationComplete (k n : Nat) (s : State) : Host.Outcome State Fault Refusal :=
  .next (match s.inv? k n with
    | none => s
    | some i =>
      match i.done with
      | none => s
      | some code =>
        let q := s.queue k
        if (q.discard = false ∧ i.orphan = false ∧ s.queueSlots k ≤ countDiff (s.queueW k) q.cqTail q.cqHead) ∨
            (code = 0x0B32 ∧ s.stoppedInTurn k n = false) then s
        else
          let s1 := s.kvSettle (s.kvTouched.filter (fun t => t.ctx == k && t.inv == some n))
          let s2 := if codeOk code then s1.signalId (fieldAt i.desc 0xA 2) (fieldAt i.desc 0xC 4) else s1
          let s3 := s2.publish i code
          let s4 := { s3 with
            invs := s3.invs.filter (fun x => !(x.ctx == k && x.sqIndex == n))
            runs := s3.runs.filter (fun r => !(r.ctx == k && r.origin == .invocation n)) }
          if bit (fieldAt i.desc 1 1) 0 && !i.orphan && s4.flag (Fld.HQ_Q_CTRL_irq_en k) then s4.raise (s4.fld (Fld.HQ_Q_CTRL_msix k))
          else s4)

/-- A queue stopped by a fault on ring access (R101): run is cleared, fault set and the code recorded. (log entry 24: DEDUCED in part) -/
def State.queueFault (s : State) (k code : Nat) : State :=
  let q := s.queue k
  let s1 := s.setFld (Fld.HQ_Q_CTRL_run k) 0
  (s1.setQueue k { q with fault := true, code := code, discard := q.discard || code == 0x0B21 }).hqEvent
    Ev.HQ_EVT_STATUS_q_fault

/-- SQ_FETCH_FAULT (R101, R104): the read of a descriptor completes with an error. -/
def execSqFetchFault (k : Nat) (s : State) : Host.Outcome State Fault Refusal :=
  .next (if s.holds k && (s.queue k).sqHead != (s.queue k).sqTail &&
      (s.flag (Fld.HQ_Q_CTRL_run k) || (s.queue k).stopUpTo.isSome) then s.queueFault k 0x0B20 else s)

/-- CQ_WRITE_FAULT (R101, R104): Advanced Error Reporting reports a failed write of a completion record.
(log entry 24: DEDUCED in part) -/
def execCqWriteFault (k : Nat) (s : State) : Host.Outcome State Fault Refusal :=
  .next (if s.holds k then s.queueFault k 0x0B21 else s)

/-- The invocations of a context aborted (R101): those fetched and not started, and those that run. What an earlier stop covers and
is not fetched yet still ends with 0x0B32. (log entry 24: DEDUCED in part) -/
def State.abortQueue (s : State) (k : Nat) : State :=
  let q := s.queue k
  let live := fun (r : Run) => r.ctx == k && r.done.isNone && (s.runInv r).isSome
  let s1 := s.abortRuns 0x0B34 (s.runs.filter live)
  let s2 := { s1 with
    invs := s1.invs.map (fun (i : Invocation) => if i.ctx = k ∧ i.done.isNone = true then { i with done := some 0x0B34 } else i) ++
      q.fetched.map (fun (p : Nat × Bytes) => (⟨k, p.1, p.2, 0, false, false, some 0x0B34⟩ : Invocation)) }
  let s3 := s2.kvSettle (s2.kvTouched.filter (fun t => t.ctx == k && t.inv.isSome))
  let c := s3.ctx k
  let q1 := s3.queue k
  (s3.setCtx k { c with acts := c.acts.filter (fun a => a.inv.isNone), sched := false }).setQueue k { q1 with
    fetched := []
    stopUpTo := q1.stopUpTo.filter (fun n => n != q1.sqHead)
    failUpTo := q1.failUpTo.filter (fun n => n != q1.sqHead) }

/-- A write of HQ_Q_CTRL_k (R101): msix and irq_en, then abort, run = 0 or run = 1. A write that clears fault leaves the code. (log entry 24: DEDUCED in part) -/
def State.writeQueueCtrl (s : State) (k v : Nat) : State :=
  if !s.holds k then s
  else
    let was := s.flag (Fld.HQ_Q_CTRL_run k)
    let s1 := (s.setFld (Fld.HQ_Q_CTRL_msix k) (bits v 2 6)).setFld (Fld.HQ_Q_CTRL_irq_en k) (bits v 8 1)
    let stop := fun (t : State) =>
      ((t.setFld (Fld.HQ_Q_CTRL_run k) 0).setCtx k { t.ctx k with sched := false })
    let clear := fun (t : State) => t.setQueue k { t.queue k with fault := false }
    if bit v 1 then
      let s2 := (stop s1).abortQueue k
      if bit v 0 then s2 else clear s2
    else if !bit v 0 then clear (stop s1)
    else if was || (s1.ctx k).phase == .stopped || (s1.queue k).fault then s1
    else
      let s0 := if s.quiesced k then s1.noteRestart k else s1
      let s2 := (s0.setFld (Fld.HQ_Q_CTRL_run k) 1).setCtx k { s1.ctx k with sched := true, anchor := s1.localNow (s1.queDie k), lastInstant := 0 }
      s2.setQueue k { s2.queue k with discard := false }

/-- QUEUE_STOP (R101): a write of HQ_Q_CTRL_k with run = 0. (log entry 24: DEDUCED in part) -/
def execQueueStop (who : Requester) (k value : Nat) (s : State) : Host.Outcome State Fault Refusal :=
  .next (s.busWrite who 1 0x45 false (fun s => s.writeQueueCtrl k (setBits value 0 2 0)))

/-- QUEUE_RUN (R101): a write of HQ_Q_CTRL_k with run = 1. (log entry 24: DEDUCED in part) -/
def execQueueRun (who : Requester) (k value : Nat) (s : State) : Host.Outcome State Fault Refusal :=
  .next (s.busWrite who 1 0x45 false (fun s => s.writeQueueCtrl k (setBits value 0 2 1)))

/-- QUEUE_ABORT (R101): a write of HQ_Q_CTRL_k with abort = 1. (log entry 24: DEDUCED in part) -/
def execQueueAbort (who : Requester) (k value : Nat) (s : State) : Host.Outcome State Fault Refusal :=
  .next (s.busWrite who 1 0x45 false (fun s => s.writeQueueCtrl k (setBits value 1 1 1)))

/-! ### Notifiers (R100) -/

/-- A write of HQ_NTF_CTRL_k. (log entry 25: DEDUCED in part) -/
def State.writeNotifier (s : State) (k v : Nat) : State :=
  let s1 := (s.setFld (Fld.HQ_NTF_CTRL_sync_id k) (bits v 0 16)).setFld (Fld.HQ_NTF_CTRL_msix k) (bits v 16 6)
  if !bit v 22 then s1
  else if (s1.slotObj (bits v 0 16)).isSome then s1.setFld (Fld.HQ_NTF_CTRL_arm k) 1
  else s1.hqEvent Ev.HQ_EVT_STATUS_sync_invalid

/-- NOTIFIER_ARM (R100): a write of HQ_NTF_CTRL_k with arm = 1. (log entry 25: DEDUCED in part) -/
def execNotifierArm (who : Requester) (k value : Nat) (s : State) : Host.Outcome State Fault Refusal :=
  .next (s.busWrite who 1 0x45 false (fun s => s.writeNotifier k (setBits value 22 1 1)))

/-- NOTIFIER_FIRE (R100): an armed notifier whose object has reached the threshold.
(log entry 25: DEDUCED in part; log entry 75: DEDUCED in part) -/
def execNotifierFire (k : Nat) (s : State) : Host.Outcome State Fault Refusal :=
  .next (
    if s.flag (Fld.HQ_NTF_CTRL_arm k) && decide (s.reg64 (Reg.HQ_NTF_THRESH k) ≤ s.syncValue (s.fld (Fld.HQ_NTF_CTRL_sync_id k)))
    then (s.setFld (Fld.HQ_NTF_CTRL_arm k) 0).raise (s.fld (Fld.HQ_NTF_CTRL_msix k))
    else s)

end Sys2Proof.Machine
end

