-- ==== Sys2Proof/Machine/Tiers.lean ====
section
/-! DEFINITION. Memory tiers (chapter 10): allocations and their placement, the commands of the tier manager, run-time
prefetches and their paths, walks and scrubs. -/

namespace Sys2Proof.Machine

/-! ### Placement (R175 to R177) -/

/-- `need` units taken from gaps, lowest first, in multiples of `page`. (log entry 36: DESIGN CHOICE in part) -/
def takeGaps (page : Nat) : Nat → List (Nat × Nat) → Option (List (Nat × Nat))
  | 0, _ => some []
  | _ + 1, [] => none
  | need + 1, (b, n) :: gs =>
    let a := alignUp page b
    let room := (b + n - a) / page * page
    if room = 0 then takeGaps page (need + 1) gs
    else if need + 1 ≤ room then some [(a, need + 1)]
    else (takeGaps page (need + 1 - room) gs).map (fun xs => (a, room) :: xs)

/-- The physical ranges placed in tiers 0 and 1. (log entry 36: DESIGN CHOICE in part) -/
def State.placed (s : State) : List (Nat × Nat) := (s.maps.filter (fun m => m.tier != 2)).flatMap (·.extents)

/-- The range of the key-value pool. -/
def State.poolRange (s : State) : Nat × Nat := (s.reg64 Reg.KV_POOL_BASE, s.fld Fld.KV_POOL_PAGES_pages * 65536)

/-- A placement in HBM, outside the pool. (log entry 36: DESIGN CHOICE in part) -/
def State.placeHbm (s : State) (page len : Nat) : Option (List (Nat × Nat)) :=
  takeGaps page len (gapsIn 0x11E4000000 0 (sortRanges (s.poolRange :: s.placed)))

/-- A placement in PSRAM. (log entry 36: DESIGN CHOICE in part) -/
def State.placePsram (s : State) (page len : Nat) : Option (List (Nat × Nat)) :=
  takeGaps page len (gapsIn 0x3020000000 0x3000000000 (sortRanges (s.placed.filter (fun r => decide (0x3000000000 ≤ r.1)))))

/-- Free 64 KiB units of HBM (TIER_HBM_FREE). -/
def State.hbmFree (s : State) : Nat :=
  ((gapsIn 0x11E4000000 0 (sortRanges (s.poolRange :: s.placed))).map (fun g => g.2 / 65536)).sum

/-- Free flash units, lowest first; an object of whole 2 MiB stands at units that a 2 MiB page can name (R181, R182) as long
as there are such. (log entry 36: DESIGN CHOICE in part) -/
def State.placeFlash (s : State) (units : Nat) : Option (List (Nat × Nat)) :=
  let gaps := gapsIn 33554432 0 (sortRanges (s.flash.objects.flatMap (·.units)))
  let whole := if units % 32 = 0 then takeGaps 32 units gaps else none
  if whole.isSome then whole else takeGaps 1 units gaps

/-- True where extents of units can be mapped by pages of a size (R182): each begins and ends at a page.
(log entry 36: DESIGN CHOICE in part) -/
def unitsFit (page : Nat) (us : List (Nat × Nat)) : Bool := page != 2 || us.all (fun u => u.1 % 32 == 0 && u.2 % 32 == 0)

/-- The number of distinct numbers in sorted ranges given by first and last, those below `lo` left out. -/
def countUnion : Nat → List (Nat × Nat) → Nat
  | _, [] => 0
  | lo, (a, b) :: rs => if b < lo then countUnion lo rs else b + 1 - max a lo + countUnion (b + 1) rs

/-- The tables that a list of mappings needs at a level of 2^n bytes to a table.
(log entry 76: DESIGN CHOICE in part) -/
def tablesAt (n : Nat) (ms : List Mapping) : Nat :=
  countUnion 0 (sortRanges (ms.map (fun m => ((m.ctx * 2 ^ 48 + m.va) / 2 ^ n, (m.ctx * 2 ^ 48 + m.va + m.len - 1) / 2 ^ n))))

/-- The 4 KiB tables of the table region in use (R180 to R183): a root per context, and the tables below it.
(log entry 76: DESIGN CHOICE in part) -/
def State.tableCount (s : State) (ms : List Mapping) (links : List (Nat × Nat)) : Nat :=
  let seqs := links.map (fun p => (⟨p.1, (s.kvEntry p.2).base * 0x100000000, 0x100000000, 0, 0, 1, [], 0⟩ : Mapping))
  (s.recs 1).length + tablesAt 39 (ms ++ seqs) + tablesAt 30 ms + tablesAt 21 (ms.filter (fun m => m.page != 2))

/-- True where the translation tables of a list of mappings fit into their region (R175).
(log entry 76: DESIGN CHOICE in part) -/
def State.tablesFit (s : State) (ms : List Mapping) (links : List (Nat × Nat)) : Bool := decide (s.tableCount ms links ≤ 65536)

/-! ### Commands (R178) -/

/-- True where a range of a root is unmapped: no allocation and no sequence range meets it. -/
def State.rangeFree (s : State) (ctx va len : Nat) : Bool :=
  !s.maps.any (fun m => m.ctx == ctx && decide (m.va < va + len) && decide (va < m.va + m.len)) &&
    !s.seqLinks.any (fun p => p.1 == ctx && decide ((s.kvEntry p.2).base * 0x100000000 < va + len) &&
      decide (va < ((s.kvEntry p.2).base + 1) * 0x100000000))

/-- A start of a tier command (R178): rejected while one waits and during a commit. The word's fields stand in TIER_CMD. -/
def State.tierStart (s : State) (who : Requester) (op v : Nat) (f : State → State) : State :=
  s.busWrite who 1 0x42 false (fun s =>
    let s1 := (((s.setFld Fld.TIER_CMD_op op).setFld Fld.TIER_CMD_ctx_id (bits v 4 6)).setFld Fld.TIER_CMD_die (bits v 10 3))
    let s2 := (s1.setFld Fld.TIER_CMD_page (bits v 13 2)).setFld Fld.TIER_CMD_flags (bits v 15 6)
    if s2.flag Fld.TIER_CMD_STATUS_busy || s2.load.elim false (·.committing) then s2.event Ev.TIER_EVT_STATUS_cmd_reject
    else f s2)

/-- The assigned codes of the memory subject (R200). (log entry 6: DESIGN CHOICE in part) -/
def tierCodes : List Nat := [0x0201, 0x0202, 0x0203, 0x0204, 0x0205, 0x0206, 0x0207, 0x0208]

/-- The status of a tier command. -/
def State.tierStatus (s : State) (code : Nat) : State := s.setFld Fld.TIER_CMD_STATUS_code code

/-- The flag combinations that R176 rejects, and the page sizes that R177 does not allow.
(log entry 37: DEDUCED in part) -/
def allocFlagsBad (flags page : Nat) : Bool :=
  let near := bit flags 0
  let bulk := bit flags 1
  let persist := bit flags 2
  (near && (bulk || persist || bit flags 4)) || (bulk && persist) || (bit flags 3 && bit flags 4) ||
    ((near || persist) && page == 0)

/-- The tier code and the extents of a new allocation, or the failure code.
(log entry 36: DESIGN CHOICE in part; log entry 37: DEDUCED in part) -/
def State.placeAlloc (s : State) (ctx len aux die page flags : Nat) : Except Nat (Nat × List (Nat × Nat)) :=
  if bit flags 0 then
    if s.layout.elim false (fun l => l.inShares ctx die aux len) && aux % pageBytes page == 0 then
      .ok (0, [(dieLocal die aux, len)])
    else .error 0x0207
  else if bit flags 2 then
    match s.flash.objects.find? (fun o => o.id == aux) with
    | some o => if o.len = len ∧ unitsFit page o.units = true then .ok (2, o.units) else .error 0x0207
    | none =>
      match s.placeFlash (len / 65536) with
      | none => .error 0x0406
      | some us => if s.flashWritable ≠ 0 then .error s.flashWritable else if unitsFit page us then .ok (2, us) else .error 0x0406
  else
    match (if bit flags 1 = true ∨ die ≠ 0 then s.placeHbm (pageBytes page) len else s.placePsram (pageBytes page) len) with
    | none => .error 0x0205
    | some es => .ok (1, es)

/-- Ranges of physical memory zeroed (R177). -/
def State.zeroRanges (s : State) : List (Nat × Nat) → State
  | [] => s
  | (b, n) :: rs => (s.zeroRange b n).zeroRanges rs

/-- A flash object created over zeroed units. -/
def State.newObject (s : State) (id len : Nat) (units : List (Nat × Nat)) : State :=
  let inUnits := fun (a : Nat) => units.any (fun u => u.1 ≤ a / 65536 && a / 65536 < u.1 + u.2)
  let f := s.flash
  { s with flash := { f with
      bytes := f.bytes.filter (fun p => !inUnits p.1)
      bad := f.bad.filter (fun c => !inUnits (c * 4096))
      objects := f.objects ++ [⟨id, len, units⟩] } }

/-- The effect of ALLOC (R176 to R178). (log entry 37: DEDUCED in part) -/
def State.tierAlloc (s : State) : State :=
  let ctx := s.fld Fld.TIER_CMD_ctx_id
  let die := s.fld Fld.TIER_CMD_die
  let page := s.fld Fld.TIER_CMD_page
  let flags := s.fld Fld.TIER_CMD_flags
  let va := s.reg64 Reg.TIER_CMD_VA
  let len := s.reg64 Reg.TIER_CMD_LEN
  let aux := s.fld Fld.TIER_CMD_AUX_value
  if s.holds ctx = false ∨ page = 3 ∨ 4 < die ∨ len = 0 ∨ 2 ^ 48 < va + len ∨ va % pageBytes page ≠ 0 ∨ len % pageBytes page ≠ 0
  then s.tierStatus 0x0207
  else if !s.rangeFree ctx va len then s.tierStatus 0x0206
  else if allocFlagsBad flags page then s.tierStatus 0x0207
  else
    match s.placeAlloc ctx len aux die page flags with
    | .error c => s.tierStatus c
    | .ok (tier, es) =>
      let m : Mapping := ⟨ctx, va, len, page, flags, tier, es, s.nextAlloc⟩
      let n := len / pageBytes page
      if !s.tablesFit (s.maps ++ [m]) s.seqLinks then s.tierStatus 0x0205
      else if s.locks ctx && s.lockFull ctx n then (s.lockFullEvents ctx n).tierStatus 0x0208
      else
        let s1 :=
          if tier ≠ 2 then s.zeroRanges es
          else if s.flash.objects.any (fun o => o.id == aux) then s
          else s.newObject aux len es
        ({ s1 with maps := s1.maps ++ [m], nextAlloc := s1.nextAlloc + 1 }.lockEntries ctx).tierStatus 0

/-- TIER_ALLOC (R178). (log entry 37: DEDUCED in part) -/
def execTierAlloc (who : Requester) (value : Nat) (s : State) : Host.Outcome State Fault Refusal :=
  .next (s.tierStart who 1 value State.tierAlloc)

/-- The allocations of a root that a range equals as a whole; none where it does not.
(log entry 37: DEDUCED in part) -/
def State.wholeAllocs (s : State) (ctx va len : Nat) : Option (List Mapping) :=
  let ms := s.maps.filter (fun m => m.ctx == ctx && decide (va ≤ m.va) && decide (m.va + m.len ≤ va + len))
  if ms.isEmpty ∨ (ms.map (·.len)).sum ≠ len then none else some ms

/-- TIER_FREE (R178, R179): accepted, and waits for the accesses in flight. (log entry 37: DEDUCED in part) -/
def execTierFree (who : Requester) (value : Nat) (s : State) : Host.Outcome State Fault Refusal :=
  .next (s.tierStart who 2 value (fun s =>
    let ctx := s.fld Fld.TIER_CMD_ctx_id
    let va := s.reg64 Reg.TIER_CMD_VA
    let len := s.reg64 Reg.TIER_CMD_LEN
    if !s.holds ctx then s.tierStatus 0x0207
    else if (s.wholeAllocs ctx va len).isNone then s.tierStatus 0x0206
    else { s with tierPending := some ⟨2, ctx, va, len, 0⟩ }.setFld Fld.TIER_CMD_STATUS_busy 1))

/-- TIER_SHARE (R178). -/
def execTierShare (who : Requester) (value : Nat) (s : State) : Host.Outcome State Fault Refusal :=
  .next (s.tierStart who 3 value (fun s =>
    let ctx := s.fld Fld.TIER_CMD_ctx_id
    let va := s.reg64 Reg.TIER_CMD_VA
    let len := s.reg64 Reg.TIER_CMD_LEN
    let ctx2 := bits (s.fld Fld.TIER_CMD_AUX_value) 0 6
    let va2 := s.reg64 Reg.TIER_CMD_VA2
    if s.holds ctx = false ∨ s.holds ctx2 = false then s.tierStatus 0x0207
    else
      match s.wholeAllocs ctx va len with
      | none => s.tierStatus 0x0206
      | some ms =>
        let new := ms.map (fun m => { m with ctx := ctx2, va := va2 + (m.va - va) })
        let n := (ms.map (fun m => m.len / pageBytes m.page)).sum
        if 2 ^ 48 < va2 + len ∨ new.any (fun m => m.va % pageBytes m.page != 0) then s.tierStatus 0x0207
        else if !s.rangeFree ctx2 va2 len then s.tierStatus 0x0206
        else if !s.tablesFit (s.maps ++ new) s.seqLinks then s.tierStatus 0x0205
        else if s.locks ctx2 && s.lockFull ctx2 n then (s.lockFullEvents ctx2 n).tierStatus 0x0208
        else ({ s with maps := s.maps ++ new }.lockEntries ctx2).tierStatus 0))

/-- TIER_LINK_SEQ (R178, R183). (log entry 37: DEDUCED in part) -/
def execTierLinkSeq (who : Requester) (value : Nat) (s : State) : Host.Outcome State Fault Refusal :=
  .next (s.tierStart who 4 value (fun s =>
    let ctx := s.fld Fld.TIER_CMD_ctx_id
    let q := bits (s.fld Fld.TIER_CMD_AUX_value) 0 12
    if !s.holds ctx then s.tierStatus 0x0207
    else if !(s.kvEntry q).valid then s.tierStatus 0x0302
    else if !s.rangeFree ctx ((s.kvEntry q).base * 0x100000000) 0x100000000 then s.tierStatus 0x0206
    else if !s.tablesFit s.maps (s.seqLinks ++ [(ctx, q)]) then s.tierStatus 0x0205
    else { s with seqLinks := s.seqLinks ++ [(ctx, q)] }.tierStatus 0))

/-- TIER_UNLINK_SEQ (R178, R179): accepted where the link is present and the context is not the owner.
(log entry 37: DEDUCED in part) -/
def execTierUnlinkSeq (who : Requester) (value : Nat) (s : State) : Host.Outcome State Fault Refusal :=
  .next (s.tierStart who 5 value (fun s =>
    let ctx := s.fld Fld.TIER_CMD_ctx_id
    let q := bits (s.fld Fld.TIER_CMD_AUX_value) 0 12
    if !s.holds ctx then s.tierStatus 0x0207
    else if !s.seqLinks.contains (ctx, q) || (s.kvEntry q).owner == ctx then (s.tierStatus (s.freeCode tierCodes)).useFree 1
    else { s with tierPending := some ⟨5, ctx, 0, 0, q⟩ }.setFld Fld.TIER_CMD_STATUS_busy 1))

/-- The journal committed to flash (R197): its units are written in the free block with the lowest erase count, the
lowest-numbered of those that R196 leaves equal; a block marked bad at manufacture is never free. (log entry 39: DESIGN CHOICE in part) -/
def State.commitJournal (s : State) : State :=
  let f := s.flash
  let used := f.map.map (·.2)
  let out := used ++ f.retired ++ f.factoryBad
  let free := (List.range (out.length + f.erases.length + 1)).filter (fun b => !out.contains b)
  let er := fun (b : Nat) => Sparse.get (fun _ => 0) f.erases b
  let blk := free.foldl (fun (x : Nat) b => if er b < er x then b else x) (free.headD 0)
  let s1 := s.count64 Reg.FTL_UNITS_WRITTEN f.journal.length
  { s1 with flash := { f with
      map := f.journal.foldl (fun m u => insertMap m u blk) f.map
      journal := [], journalBytes := 0, lastCommit := s.now } }
where
  /-- A unit's block noted. -/
  insertMap (m : Sparse Nat) (u b : Nat) : Sparse Nat := Sparse.insertSorted u b (Sparse.erase u m)

/-- TIER_FLUSH (R178, R197): it names no context. (log entry 37: DEDUCED in part) -/
def execTierFlush (who : Requester) (value : Nat) (s : State) : Host.Outcome State Fault Refusal :=
  .next (s.tierStart who 6 value (fun s => (s.commitJournal.noteActive 2).tierStatus 0))

/-! ### Slot images (R167) -/

/-- The areas of a slot image: offsets of the initial hidden row, the exponents, the pairs and the hidden rows, and the
image's length. -/
structure SeqImage where
  hid0 : Nat
  exps : Nat
  pairs : Nat
  hidden : Nat
  len : Nat
deriving DecidableEq, Repr

/-- The areas for a kind, R rows and W elements. -/
def seqImage (kind rows width : Nat) : SeqImage :=
  let l := kind == 1
  let e := alignUp 64 (64 + 4 * width + (if l then 2 * width else 0))
  let p := alignUp 64 (e + 2 * rows)
  let h := alignUp 64 (p + 8 * rows * width)
  ⟨64 + 4 * width, e, p, h, if l then h + 2 * rows * width else p + 8 * rows * width⟩

/-! ### Unmapping (R179, R187) -/

/-- The ranges (context, address, length) that a transfer of a PREFETCH record reads and writes. -/
def recRanges (r : Bytes) : List (Nat × Nat × Nat) :=
  [(fieldAt r 0 1, fieldAt r 8 8, fieldAt r 0x18 4), (fieldAt r 0 1, fieldAt r 0x10 8, fieldAt r 0x18 4)]

/-- The ranges of the transfers in flight: run-time prefetches, the residency transfer that a loading context runs, and the
swap or restore that a die's sequence engines run. -/
def State.transferRanges (s : State) : List (Nat × Nat × Nat) :=
  (s.runs.flatMap (fun r => (r.prefetches.filter (fun p => p.2 == .inFlight)).flatMap (fun p => recRanges (r.recs.getD p.1 [])))) ++
    ((s.ctxs.filter (fun p => p.2.phase == .loading)).flatMap (fun p => ((s.residencyRecs p.1)[p.2.resNext]?).elim [] recRanges)) ++
    (s.seqCmds.filterMap (fun p => p.2.bind (fun c =>
      let x := s.seqSlot c.key
      if c.moving then some (x.owner, c.va, max 64 (seqImage x.kind x.rows x.width).len) else none)))

/-- TIER_UNMAP_TAKE_EFFECT (R179, R187): the waiting FREE or UNLINK_SEQ, once no access through its range is in flight; the
buffer entries of the range are invalidated on every die. The memory is free again once no root maps it. -/
def execTierUnmapTakeEffect (s : State) : Host.Outcome State Fault Refusal :=
  .next (match s.tierPending with
    | none => s
    | some p =>
      let range := if p.op = 2 then (p.va, p.len) else ((s.kvEntry p.aux).base * 0x100000000, 0x100000000)
      let hit := fun (x : Nat × Nat × Nat) =>
        x.1 == p.ctx && decide (x.2.1 < range.1 + range.2) && decide (range.1 < x.2.1 + x.2.2)
      if s.transferRanges.any hit then s
      else
        let s1 := { s.tlbDrop (fun e => hit (e.ctx, e.va, e.len)) with tierPending := none }
        let s2 :=
          if p.op = 2 then
            { s1 with maps := s1.maps.filter (fun m => !(m.ctx == p.ctx && decide (p.va ≤ m.va) && decide (m.va < p.va + p.len))) }
          else { s1 with seqLinks := s1.seqLinks.filter (fun x => x != (p.ctx, p.aux)) }
        (s2.setFld Fld.TIER_CMD_STATUS_busy 0).tierStatus 0)

/-! ### Run-time prefetches (R189 to R193) -/

/-- MHz of the clock domain of an operation with a cycle bound (R20): tiles and sequence engines, or the stem and argmax
units of a Prompt die's fabric domain. -/
def opMhz (opcode : Nat) : Nat := if opcode = 1 ∨ opcode = 2 ∨ opcode = 3 ∨ opcode = 0x30 then 1400 else 1200

/-- Gates of a recurrent kind (R158). -/
def seqGates (kind : Nat) : Nat := if kind = 0 then 3 else if kind = 1 then 4 else 2

/-- Four times the rate factor of a format's code (R105). -/
def rate4 (f : Nat) : Nat := (formatOf f).elim 4 formatRate4

/-- The tile edge D of a die (R25). -/
def tileEdge (die : Nat) : Nat := if die = 0 then 32 else 64

/-- Σ over slabs of up to 1,024 rows of max(m_s, D) (R119). -/
def slabRows (d rows : Nat) : Nat := rows / 1024 * 1024 + (if rows % 1024 = 0 then 0 else max (rows % 1024) d)

/-- The share of tile i of U units (R116). -/
def tileShare (u t i : Nat) : Nat := (i + 1) * u / t - i * u / t

/-- The cycle bound of a tile operation (R119). (log entry 38: DEDUCED in part) -/
def tileCycles (die : Nat) (o : TileOp) : Nat :=
  let d := tileEdge die
  let g := convGeomOf o.geom
  let ho := convExtent (o.m % 65536) g.pt g.pb g.dh g.kh g.sh
  let wo := convExtent (o.m / 65536) g.pl g.pr g.dw g.kw g.sw
  let rows := if o.opcode = 2 then ho * wo else o.m
  let klen := if o.opcode = 2 then g.kh * g.kw * o.k else o.k
  let t := max o.tileN 1
  let chunk4 := d * min (rate4 o.fmtA) (rate4 o.fmtB)
  let per := fun (i : Nat) =>
    if o.opcode = 3 then
      96 + ceilDiv (if o.split = 1 then tileShare o.m t i * o.n
        else o.m * (min o.n ((i + 1) * ceilDiv o.n d / t * d) - min o.n (i * ceilDiv o.n d / t * d))) d
    else
      let gi := if o.split = 0 then tileShare (ceilDiv o.n d) t i else ceilDiv o.n d
      let ki := if o.split = 2 then min klen ((i + 1) * ceilDiv klen 128 / t * 128) - i * ceilDiv klen 128 / t * 128 else klen
      let mi := if o.split = 1 then (if o.opcode = 2 then tileShare ho t i * wo else tileShare o.m t i) else rows
      96 + gi * ceilDiv (4 * ki) chunk4 * slabRows d mi
  ((List.range t).map per).foldl max 0 + (if o.split = 2 then 32 else 0)

/-- The cycle bound of a chunk (R172), with S at its largest. -/
def seqCycles (die : Nat) (b : Bytes) : Nat :=
  let kind := bits (fieldAt b 1 1) 0 2
  let w := fieldAt b 0xC 2
  let r := fieldAt b 0xA 2
  let d := tileEdge die
  let t := max (fieldAt b 9 1) 1
  let gw := ceilDiv (seqGates kind * w) d
  let wf := rate4 (bits (fieldAt b 4 1) 0 4)
  let bx := if kind = 2 then 0 else gw * ceilDiv (4 * fieldAt b 0xE 2) (d * min wf (rate4 (bits (fieldAt b 5 1) 0 4)))
  let bh := if kind = 2 then 0 else gw * ceilDiv (4 * w) (d * min wf (rate4 (bits (fieldAt b 4 1) 4 4)))
  let v := (if kind = 1 then 10 else 8) * w * r
  160 + 2 * ceilDiv v 256 + fieldAt b 0x10 4 * (48 + (ceilDiv bx t + ceilDiv bh t) * r + 2 * ceilDiv w d * r)

/-- The cycle bound of an operation: R119, R122, R123 and R172; 0 where its chapter states none (R189).
(log entry 38: DEDUCED in part) -/
def opCycles (die : Nat) (b : Bytes) : Nat :=
  let o := tileOpOf b
  let g := convGeomOf o.geom
  if o.opcode = 1 ∨ o.opcode = 2 ∨ o.opcode = 3 then tileCycles die o
  else if o.opcode = 0x10 ∨ o.opcode = 0x11 ∨ o.opcode = 0x12 then
    256 + convExtent (o.m % 65536) g.pt g.pb g.dh g.kh g.sh * convExtent (o.m / 65536) g.pl g.pr g.dw g.kw g.sw *
      ceilDiv o.n 16 * ceilDiv (4 * (g.kh * g.kw * o.k)) (128 * min (rate4 o.fmtA) (rate4 o.fmtB))
  else if o.opcode = 0x30 then seqCycles die b
  else if o.opcode = 0x20 then 64 + o.m % 65536 * (o.m / 65536) * ceilDiv o.k 64
  else 0

/-- The planned offset P of an operation, in ns (R189). (log entry 38: DEDUCED in part) -/
def Layout.plannedOffset (l : Layout) (prog n : Nat) : Nat :=
  let die := (l.progRec prog).elim 0 (fun r => fieldAt r 1 1)
  (((l.progOps prog).take n).map (fun b => opCycles die b * 1000 / opMhz (fieldAt b 0 1))).sum

/-- A record's phase in a run. -/
def Run.setPrefetch (r : Run) (i : Nat) (p : PrefetchPhase) : Run :=
  { r with prefetches := r.prefetches.map (fun x => if x.1 = i then (i, p) else x) }

/-- The runs of one invocation, whose transfers R189 counts together: those that its activation runs, or the run alone.
(log entry 38: DEDUCED in part) -/
def State.invRuns (s : State) (ctx run : Nat) (inv : Option Nat) : List Run :=
  s.runs.filter (fun x => x.id == run || (x.ctx == ctx && inv.isSome && s.runInv x == inv))

/-- The transfers in flight of some runs. -/
def transfersOf (rs : List Run) : Nat := ((rs.flatMap (·.prefetches)).filter (fun p => p.2 == .inFlight)).length

/-- The unfinished transfers of a layer cancelled (R190, R135): dropped, or cut with their destination undefined.
(log entry 38: DEDUCED in part) -/
def State.cancelLayer (s : State) (r : Run) (ps : List (Nat × PrefetchPhase)) : State × Run :=
  let open' := ps.filter (fun p => p.2 == .waiting || p.2 == .issued || p.2 == .inFlight)
  (s.cancelPrefetches r open', open'.foldl (fun (a : Run) p => a.setPrefetch p.1 .cancelled) r)

/-- A programme that ends early: its transfers are cancelled and it ends with a code; one that has ended stays so. -/
def State.cutRun (s : State) (r : Run) (code : Nat) : State :=
  if r.done.isSome then s.setRun r
  else
    let x := s.cancelLayer r r.prefetches
    (x.1.setRun x.2).endRun x.2 code

/-- The range of a record that an accepted FREE or UNLINK_SEQ is about to unmap, with its context (R179). -/
def State.pendingRange (s : State) (rec' : Bytes) : Option (Nat × Nat × Nat) :=
  (recRanges rec').find? (fun x => s.pendingIn x.1 x.2.1 x.2.2)

/-- Transfers of an invocation that wait for one of its eight to finish start, the earliest programme's first, with fuel (R189); one
through a range that a command unmaps faults (R179). (log entry 38: DEDUCED in part) -/
def State.promote (s : State) (ctx run : Nat) (inv : Option Nat) : Nat → State
  | 0 => s
  | n + 1 =>
    let g := s.invRuns ctx run inv
    match g.find? (fun x => x.prefetches.any (fun p => p.2 == .issued)) with
    | none => s
    | some x =>
      if 8 ≤ transfersOf g then s
      else
        match x.prefetches.find? (fun p => p.2 == .issued) with
        | none => s
        | some p =>
          match s.pendingRange (x.recs.getD p.1 []) with
          | some y => ((s.xltFault 1 x.ctx 0x0201 y.2.1).cutRun (x.setPrefetch p.1 .failed) 0x0201).promote ctx run inv n
          | none => (s.setRun (x.setPrefetch p.1 .inFlight)).promote ctx run inv n

/-- A programme that ends early, and the transfers of its invocation that start in place of its own. -/
def State.failRun (s : State) (r : Run) (code : Nat) : State :=
  (s.cutRun r code).promote r.ctx r.id (s.runInv r) 16

/-- PREFETCH_ISSUE (R179, R189): the next record of a run, at t0 + P − lead. With eight transfers of the invocation in flight
it waits for one to finish; one through a range that a command unmaps faults. (log entry 38: DEDUCED in part) -/
def execPrefetchIssue (run : Nat) (s : State) : Host.Outcome State Fault Refusal :=
  .next (match s.run? run, s.layout with
    | some r, some l =>
      match r.prefetches.find? (fun p => p.2 == .waiting) with
      | none => s
      | some p =>
        let rec' := r.recs.getD p.1 []
        if r.done.isSome ∨ s.blkOpen 1 0x42 = false ∨
            s.now + fieldAt rec' 0x1C 4 < r.start + l.plannedOffset r.prog (fieldAt rec' 2 2) then s
        else
          match s.pendingRange rec' with
          | some x => (s.xltFault 1 r.ctx 0x0201 x.2.1).failRun (r.setPrefetch p.1 .failed) 0x0201
          | none =>
            let full := 8 ≤ transfersOf (s.invRuns r.ctx r.id (s.runInv r))
            s.setRun (r.setPrefetch p.1 (if full then .issued else .inFlight))
    | _, _ => s)

/-- The record of a path of a context. -/
def State.pathRec (s : State) (ctx path : Nat) : Bytes :=
  ((s.recs 7).find? (fun r => fieldAt r 0 1 == ctx && fieldAt r 2 2 == path)).getD []

/-- The events of a path taken for a layer (R193). (log entry 38: DEDUCED in part) -/
def State.pathTaken (s : State) (r : Run) (layer kind : Nat) (lower : Bool) : State :=
  let s1 := if lower then s.event Ev.TIER_EVT_STATUS_lower_err else s.event Ev.TIER_EVT_STATUS_miss
  let s2 := s1.event (if kind = 0 then Ev.TIER_EVT_STATUS_path_skip else if kind = 1 then Ev.TIER_EVT_STATUS_path_resident
    else Ev.TIER_EVT_STATUS_path_wait)
  let s3 := ((s2.setFld Fld.TIER_PATH_LAST_ctx_id r.ctx).setFld Fld.TIER_PATH_LAST_kind kind).setFld Fld.TIER_PATH_LAST_layer layer
  s3.setReg Reg.TIER_PATH_PROG (BitVec.ofNat 32 r.prog)

/-- The end of a transfer whose source is lost (R188, R192, R194): reported, and a WAIT path ends the programme at once.
(log entry 38: DEDUCED in part) -/
def State.prefetchLost (s : State) (r : Run) (i : Nat) (code : Nat) : State :=
  let rec' := r.recs.getD i []
  let r1 := r.setPrefetch i .failed
  let s1 := (s.accessFault 1 r.ctx code (fieldAt rec' 8 8)).setRun r1
  if fieldAt (s.pathRec r.ctx (fieldAt rec' 6 2)) 1 1 = 2 ∧ r.done.isNone then
    (s1.pathTaken r1 (fieldAt rec' 2 2) 2 true).failRun r1 0x0401
  else s1

/-- PREFETCH_COMPLETE (R189, R192, R194): the transfer of a record ends, with its data moved, with a fault, or with an
uncorrectable error in its source; a transfer that waits for it starts. (log entry 38: DEDUCED in part) -/
def execPrefetchComplete (run i : Nat) (found : Found) (s : State) : Host.Outcome State Fault Refusal :=
  .next (match s.run? run with
    | none => s
    | some r =>
      if !r.prefetches.contains (i, .inFlight) then s
      else
        let rec' := r.recs.getD i []
        let s1 := (s.noteActive 2).countReads r.ctx (fieldAt rec' 8 8) (fieldAt rec' 0x18 4) found
        let s2 :=
          if found.lost && !s.inFlash r.ctx (fieldAt rec' 8 8) then s1.prefetchLost r i 0x0204
          else
            match s1.transfer r.ctx (fieldAt rec' 8 8) (fieldAt rec' 0x10 8) (fieldAt rec' 0x18 4) with
            | .ok t => t.setRun (r.setPrefetch i .done)
            | .error e =>
              if e.1 = 0x0401 then s1.prefetchLost r i e.1
              else
                let r1 := r.setPrefetch i .failed
                let s3 := (s1.accessFault 1 r.ctx e.1 e.2).setRun r1
                if r.done.isSome then s3 else s3.failRun r1 e.1
        s2.promote r.ctx run (s.runInv r) 16)

/-- The rows and scale words of a tensor of a die zeroed. (log entry 38: DEDUCED in part) -/
def State.zeroTensor (s : State) (t : Tensor) (rows cols : Nat) : State :=
  (s.zeroRange (dieLocal t.die t.addr) (t.size rows)).zeroRange (dieLocal t.die t.sAddr) (2 * scaleCount t.fmt t.gran rows cols)

/-- The output rows that an ATTN would write, zeroed, with their scale word. (log entry 38: DEDUCED in part) -/
def State.zeroAttn (s : State) (r : Run) (d : Bytes) (f : Format) : State :=
  let ws := s.kvList r.die (bits (fieldAt d 1 1) 0 2) (fieldAt d 4 4) (fieldAt d 8 2)
  ws.foldl (fun (a : State) w =>
    let g := kvGeom (a.kvEntry w.seq)
    let t : Tensor := ⟨r.die, fieldAt d 0x14 4, fieldAt d 0x18 4, f, 0, g.heads * fieldAt d 3 1 * g.dim, 0⟩
    let b := a.zeroRange (dieLocal r.die (t.addr + t.rowOff w.row)) (t.rowOff w.count)
    if formatScaled f then b.zeroRange (dieLocal r.die t.sAddr) 2 else b) s

/-- The steps that a chunk of a run takes, at most its descriptor's (R166). -/
def chunkSteps (r : Run) (d : Bytes) : Nat := if fieldAt d 7 1 = 0xFF then fieldAt d 0x10 4 else fieldAt r.args (fieldAt d 7 1) 4

/-- The output of an operation written as all-zero blocks (R191, SKIP). (log entry 38: DEDUCED in part) -/
def State.zeroOutput (s : State) (r : Run) (d : Bytes) : State :=
  let o := tileOpOf d
  if o.opcode = 0x30 then
    let rows := min (chunkSteps r d) (fieldAt d 0x10 4) * fieldAt d 0xA 2
    s.zeroTensor ⟨r.die, fieldAt d 0x30 4, fieldAt d 0x34 4, .int16, 1, fieldAt d 0xC 2, 0⟩ rows (fieldAt d 0xC 2)
  else if o.opcode = 0x51 then (formatOf (bits (fieldAt d 0xA 1) 4 4)).elim s (s.zeroAttn r d)
  else
  match formatOf o.fmtOut with
  | none => s
  | some f =>
    let g := convGeomOf o.geom
    let ho := convExtent (o.m % 65536) g.pt g.pb g.dh g.kh g.sh
    let wo := convExtent (o.m / 65536) g.pl g.pr g.dw g.kw g.sw
    let conv := o.opcode == 2 || o.opcode == 0x10 || o.opcode == 0x11
    let rows := if conv then ho * wo else o.rows r.args
    if conv || o.opcode == 1 || o.opcode == 3 then
      s.zeroTensor ⟨r.die, o.outAddr, o.soAddr, f, o.granO, o.n, if conv then wo else 0⟩ rows o.n
    else if o.opcode = 0x12 then s.zeroRange (dieLocal r.die o.outAddr) (8 * (ho * wo))
    else if o.opcode = 0x20 then s.zeroRange (dieLocal r.die o.outAddr) (8 * (o.m % 65536) * (o.m / 65536))
    else s

/-- True where a range of a root lies wholly in T1 or T2: shared SRAM of a die, HBM or PSRAM (R191). -/
def State.inT1T2 (s : State) (ctx va len : Nat) : Bool :=
  (pageAddrs va len).all (fun a =>
    match s.translate .tierManager .read ctx a with
    | .ok (.phys p) => !(0x2000000000 ≤ p && p < 0x3000000000 && decide (0x08000000 ≤ p % 0x100000000))
    | _ => false)

/-- The run moved on to its next operation, or ended after its last. -/
def State.nextOp (s : State) (r1 : Run) : State :=
  if (s.layout.elim 0 (fun l => (l.progOps r1.prog).length)) ≤ r1.op then s.endRun r1 (lowestCode r1.codes) else s.issueRun r1

/-- The engine index of a run's sequence operation on its die. -/
def Layout.seqEngine (l : Layout) (ctx die unit : Nat) : Option Nat :=
  shareIndex ((l.sharesOf ctx die 2).filter (fun h => h.engine == 2)) unit

/-- True while another run holds a sequence engine: its chunk runs, or waits for a restore (R156, R169). -/
def State.engineBusy (s : State) (l : Layout) (r : Run) (e : Nat) : Bool :=
  s.runs.any (fun x => x.id != r.id && x.die == r.die && x.done.isNone && (x.executed || x.putReady || 0 < x.progress) &&
    (s.currentOp x).elim false (fun d => fieldAt d 0 1 == 0x30) && l.seqEngine x.ctx x.die x.unit == some e)

/-- True where the operation a run stands at would start but for its layer's records (R115, R190): its block is open, its tiles
are free, and its engine runs nothing else. (log entry 38: DEDUCED in part) -/
def State.couldStart (s : State) (r : Run) (d : Bytes) : Bool :=
  let op := fieldAt d 0 1
  s.engineOpen r op && s.tilesFree r && (!(op == 0x10 || op == 0x11 || op == 0x12 || op == 0x20) || s.engineFree r) &&
    (op != 0x30 || s.layout.elim true (fun l => (l.seqEngine r.ctx r.die r.unit).elim true (fun e => !s.engineBusy l r e))) &&
    (op != 0x60 || s.plan.batch.isNone) && (op != 0x70 || s.solv.active.isNone)

/-- The records of the layer that a run stands at which have not completed. -/
def Run.lateRecords (r : Run) : List (Nat × PrefetchPhase) :=
  r.prefetches.filter (fun p => p.2 ≠ .done && fieldAt (r.recs.getD p.1 []) 2 2 == r.op)

/-- PREFETCH_DEADLINE (R190 to R193): the operation that a run stands at would start, and a record of its layer is
unfinished: the layer takes the path of the lowest-indexed late record. (log entry 38: DEDUCED in part) -/
def execPrefetchDeadline (run : Nat) (s : State) : Host.Outcome State Fault Refusal :=
  .next (match s.run? run with
    | none => s
    | some r =>
      match r.lateRecords, s.currentOp r with
      | p :: _, some d =>
        if r.executed || r.done.isSome || r.substitute.isSome || r.waitEnd.isSome || !s.couldStart r d then s
        else
          let path := s.pathRec r.ctx (fieldAt (r.recs.getD p.1 []) 6 2)
          let kind := fieldAt path 1 1
          let s1 := s.pathTaken r r.op kind (p.2 == .failed)
          if kind = 2 then s1.setRun { r with waitEnd := some (s.monoNs + fieldAt path 0x14 4) }
          else
            let x := s1.cancelLayer r r.lateRecords
            let next := { x.2 with op := r.op + 1, codes := r.codes ++ [0] }
            let s2 :=
              if kind = 0 then (x.1.zeroOutput r d).nextOp next
              else
                let sub := fieldAt path 4 2
                if x.1.inT1T2 r.ctx (fieldAt path 8 8) (fieldAt path 0x10 4) = false then (x.1.setRun x.2).failRun x.2 0x0404
                else if (s.layout.elim 0 (fun l => (l.progOps sub).length)) = 0 then x.1.nextOp next
                else x.1.issueRun { x.2 with substitute := some (sub, 0) }
            s2.promote r.ctx run (s.runInv r) 16
      | _, _ => s)

/-- PREFETCH_WAIT_TIMEOUT (R191): wait_max_ns of the WAIT path taken have passed since the deadline, and a transfer of the layer has
not completed. (log entry 38: DEDUCED in part) -/
def execPrefetchWaitTimeout (run : Nat) (s : State) : Host.Outcome State Fault Refusal :=
  .next (match s.run? run with
    | none => s
    | some r =>
      match r.waitEnd, r.lateRecords with
      | some t, _ :: _ => if r.done.isSome ∨ s.monoNs < t then s else s.failRun r 0x0402
      | _, _ => s)

/-! ### Walks and scrubs (R184, R188) -/

/-- What a walk for an address of a context puts into a translation buffer (R184): the page it lies in and its entry; none where
the walk finds no valid PAGE entry. (log entry 76: DESIGN CHOICE in part) -/
def State.walkEntry (s : State) (ctx va : Nat) : Option TlbEntry :=
  let e := s.walk ctx 0 va 4
  let n := (s.mapping? ctx va).elim 65536 (fun m => pageBytes m.page)
  if 2 ^ 48 ≤ va ∨ e % 2 = 0 then none else some ⟨ctx, va / n * n, n, e⟩

/-- The state after an access of a die to an address has looked in the die's buffer: a miss is filled by a walk (R184).
(log entry 76: DESIGN CHOICE in part) -/
def State.walked (s : State) (die ctx va : Nat) : State :=
  if s.tlbHit die ctx va || s.unmapPending ctx va then s else (s.walkEntry ctx va).elim s (s.tlbFill die (s.lockedOn die))

/-- TLB_WALK (R184, R186): an access of a context to an address on a die. Where the die's buffer has no entry, a walk of the
tables fills one; one that finds no entry, or one that the access may not use, faults.
(log entry 76: DESIGN CHOICE in part) -/
def execTlbWalk (die ctx va : Nat) (write : Bool) (s : State) : Host.Outcome State Fault Refusal :=
  .next (
    match s.translate (.engine die) (if write then .engineWrite else .read) ctx va with
    | .ok _ => s.walked die ctx va
    | .error c => (s.walked die ctx va).xltFault die ctx c va)

/-- True for an outcome of the error-correcting code that corrects nothing. -/
def eccLost : Ecc → Bool
  | .uncorrectable _ _ => true
  | .external => true
  | _ => false

/-- MEMORY_SCRUB (R188, R343): a word of T2 is read, or with no address a word of Crust's own SRAM; a corrected error is written back,
which changes no value that a read returns, and an uncorrectable one is reported to Crust: as MEM_UNCORR, or in its own SRAM as
CRUST_INTERNAL (R346). (log entry 40: DEDUCED in part) -/
def execMemoryScrub (addr : Option Nat) (ecc : Ecc) (s : State) : Host.Outcome State Fault Refusal :=
  match addr with
  | none => .next (if eccLost ecc then s.report 0x14 0 else s)
  | some a =>
    if physExists a = false ∨ (0x2000000000 ≤ a ∧ a < 0x3000000000) then .fault .noSuchMemory
    else .next (if eccLost ecc then s.report 0x0B 0 else s)

end Sys2Proof.Machine
end

