-- ==== Sys2Proof/Machine/Flash.lean ====
section
/-! DEFINITION. The flash store (chapter 10): reads, writes, the journal, relocation, wear levelling and retirement. -/

namespace Sys2Proof.Machine

/-- FLASH_READ (R194, R195): a codeword of a unit is read; the reads of the unit's block are counted. In OFFLINE the read
fails and touches nothing (R198). (log entry 39: DESIGN CHOICE in part; log entry 40: DEDUCED in part) -/
def execFlashRead (word : Nat) (d : FlashDecode) (s : State) : Host.Outcome State Fault Refusal :=
  if 33554432 ≤ word / 16 then .fault .noSuchMemory
  else
    .next (if !s.blkOpen 1 0x43 then s
      else if s.fld Fld.FTL_STATUS_mode = 0 then { s with answer := leBytes 2 0x0403 }
      else
        let o := s.readOutcome word d
        let s1 := (s.readCodeword word o).noteActive 2
        { s1.eventIf (o = .uncorrectable) Ev.FTL_EVT_STATUS_uncorr with answer := leBytes 2 (if o = .uncorrectable then 0x0401 else 0) })

/-- Bytes written into the store. -/
def State.flashPuts (s : State) (a : Nat) : Bytes → State
  | [] => s
  | b :: bs => (s.flashPut a b).flashPuts (a + 1) bs

/-- FLASH_WRITE (R197, R198): a write into T3 completes in the journal buffer, or fails with the mode's code.
(log entry 39: DESIGN CHOICE in part; log entry 40: DEDUCED in part) -/
def execFlashWrite (addr : Nat) (data : Bytes) (s : State) : Host.Outcome State Fault Refusal :=
  if 33554432 * 65536 < addr + data.length then .fault .noSuchMemory
  else
    .next (if !s.blkOpen 1 0x43 then s
      else if s.flashWritable ≠ 0 then { s with answer := leBytes 2 s.flashWritable }
      else { (s.flashPuts addr data).noteActive 2 with answer := leBytes 2 0 })

/-- JOURNAL_COMMIT (R197): every 4 ms, or with 64 MiB pending. (log entry 39: DESIGN CHOICE in part) -/
def execJournalCommit (s : State) : Host.Outcome State Fault Refusal :=
  .next (
    if s.blkOpen 1 0x43 = true ∧ s.fld Fld.FTL_STATUS_mode ≠ 0 ∧ (s.flash.lastCommit + 4000000 ≤ s.now ∨ 0x4000000 ≤ s.flash.journalBytes)
    then s.commitJournal.noteActive 2 else s)

/-- The valid units of a block moved to another block, and the block erased. (log entry 39: DESIGN CHOICE in part) -/
def FlashStore.move (f : FlashStore) (src dst : Nat) : FlashStore :=
  { f with
    map := f.map.map (fun p => if p.2 = src then (p.1, dst) else p)
    reads := Sparse.erase src f.reads
    erases := Sparse.put (fun _ => 0) f.erases src (Sparse.get (fun _ => 0) f.erases src + 1)
    relocate := f.relocate.filter (fun b => b != src) }

/-- True for a block that may take new data: it holds no valid unit, is not retired, and was not bad at manufacture (R196).
(log entry 39: DESIGN CHOICE in part) -/
def FlashStore.isFree (f : FlashStore) (b : Nat) : Bool :=
  !(f.map.any (fun p => p.2 == b)) && !f.retired.contains b && !f.factoryBad.contains b

/-- FLASH_RELOCATION (R195): a queued block's units move to a fresh block, and the old block is erased.
(log entry 39: DESIGN CHOICE in part) -/
def execFlashRelocation (block fresh : Nat) (s : State) : Host.Outcome State Fault Refusal :=
  .next (
    if s.blkOpen 1 0x43 && s.flash.relocate.contains block && s.flash.isFree fresh && block != fresh && s.fld Fld.FTL_STATUS_mode == 2 then
      { s.noteActive 2 with flash := s.flash.move block fresh }.event Ev.FTL_EVT_STATUS_relocate
    else s)

/-- The spread of the erase counts of the blocks in use (R196). (log entry 39: DESIGN CHOICE in part) -/
def FlashStore.spread (f : FlashStore) : Nat :=
  let counts := (f.map.map (·.2) ++ f.erases.map (·.1)).map (fun b => Sparse.get (fun _ => 0) f.erases b)
  counts.foldl max 0 - (counts.min?).getD 0

/-- WEAR_LEVELLING (R196): with a spread above 256, the data of a least-erased block move to a free block.
(log entry 39: DESIGN CHOICE in part) -/
def execWearLevelling (block fresh : Nat) (s : State) : Host.Outcome State Fault Refusal :=
  .next (
    let f := s.flash
    let er := fun (b : Nat) => Sparse.get (fun _ => 0) f.erases b
    if s.blkOpen 1 0x43 && 256 < f.spread && f.isFree fresh && block != fresh && f.map.any (fun p => p.2 == block) &&
        f.map.all (fun p => er block ≤ er p.2) && s.fld Fld.FTL_STATUS_mode == 2 then
      { s.noteActive 2 with flash := f.move block fresh }
    else s)

/-- The store changes to READ_ONLY with a reason (R198). (log entry 39: DESIGN CHOICE in part) -/
def State.storeReadOnly (s : State) (reason : Nat) : State :=
  if s.fld Fld.FTL_STATUS_mode = 2 then
    ((s.setFld Fld.FTL_STATUS_mode 1).setFld Fld.FTL_STATUS_ro_reason reason).event Ev.FTL_EVT_STATUS_remount
  else s

/-- Spare blocks left: the raw capacity above the 2 TiB of user capacity, less the blocks retired and
those bad at manufacture (R196).
(log entry 39: DESIGN CHOICE in part) -/
def State.spareBlocks (s : State) : Nat := Config.flashBlocks / 5 - s.flash.retired.length - s.flash.factoryBad.length

/-- BLOCK_RETIRE (R196): a block whose program or erase failed is retired after its valid units have moved; below 2 % of
raw blocks as spares the store changes to READ_ONLY. (log entry 39: DESIGN CHOICE in part) -/
def execBlockRetire (block fresh : Nat) (s : State) : Host.Outcome State Fault Refusal :=
  .next (
    if !s.blkOpen 1 0x43 || s.flash.retired.contains block || !s.flash.isFree fresh || block == fresh then s
    else
      let f := s.flash.move block fresh
      let s1 := { s.noteActive 2 with flash := { f with retired := f.retired ++ [block] } }.event Ev.FTL_EVT_STATUS_retire
      if s1.spareBlocks * 50 < Config.flashBlocks then s1.storeReadOnly 2 else s1)

end Sys2Proof.Machine
end

