-- ==== Sys2Proof/Machine/Seq.lean ====
section
/-! DEFINITION. The sequence engines (chapter 09): chunks, the gate pipeline, the state arithmetic, slots and their
commands. -/

namespace Sys2Proof.Machine

/-! ### Slot images (R167, R168) -/

/-- The lowest row exponent of a kind (R162). -/
def seqMinExp (kind : Nat) : Int := if kind = 2 then -16 else -30

/-- True where a header's version, kind, R, W, E0 and length are valid and its reserved bytes zero (R10, R166 to R168). -/
def seqHeaderOk (b : Bytes) : Bool :=
  let kind := fieldAt b 2 1
  let w := fieldAt b 6 2
  let r := fieldAt b 4 2
  let e0 := sfieldAt b 0xA 2
  fieldAt b 0 2 == 1 && decide (kind < 3) && decide (1 ≤ r) && decide (r ≤ 256) && decide (16 ≤ w) && w % 16 == 0 &&
    decide (w ≤ if kind = 2 then 16384 else 4096) && decide (seqMinExp kind ≤ e0) && decide (e0 ≤ 111) &&
    fieldAt b 0xC 4 == (seqImage kind r w).len && fieldAt b 3 1 == 0 && allZero (slice b 0x14 40)

/-! ### Row states -/

/-- The state of a row: exponent, pairs (s, c), and the hidden row of an LSTM. -/
structure SeqRow where
  e : Int
  sc : List (Int × Int)
  hid : List Int
deriving DecidableEq, Repr

/-- The row after a reset (R164): the initial vector, remainders 0, exponent E0. -/
def State.seqInit (s : State) (die : Nat) (x : SeqSlot) : SeqRow :=
  let at' := fun (o n : Nat) => s.readDie die (x.base + o) n
  { e := sfieldAt (at' 0xA 2) 0 2
    sc := (List.range x.width).map (fun i => (sfieldAt (at' (64 + 4 * i) 4) 0 4, 0))
    hid := if x.kind = 1 then (List.range x.width).map (fun i => sfieldAt (at' ((seqImage 1 x.rows x.width).hid0 + 2 * i) 2) 0 2)
      else [] }

/-- A row read from a live slot's image. -/
def State.seqRow (s : State) (die : Nat) (x : SeqSlot) (r : Nat) : SeqRow :=
  let im := seqImage x.kind x.rows x.width
  let at' := fun (o n : Nat) => s.readDie die (x.base + o) n
  { e := sfieldAt (at' (im.exps + 2 * r) 2) 0 2
    sc := (List.range x.width).map (fun i =>
      let b := at' (im.pairs + 8 * (r * x.width + i)) 8
      (sfieldAt b 0 4, sfieldAt b 4 4))
    hid := if x.kind = 1 then (List.range x.width).map (fun i => sfieldAt (at' (im.hidden + 2 * (r * x.width + i)) 2) 0 2) else [] }

/-- A row written into a live slot's image. -/
def State.putSeqRow (s : State) (die : Nat) (x : SeqSlot) (r : Nat) (v : SeqRow) : State :=
  let im := seqImage x.kind x.rows x.width
  let s1 := s.writeDie die (x.base + im.exps + 2 * r) (leBytes 2 (ofSigned 16 v.e))
  let s2 := s1.writeDie die (x.base + im.pairs + 8 * r * x.width)
    (v.sc.flatMap (fun p => leBytes 4 (ofSigned 32 p.1) ++ leBytes 4 (ofSigned 32 p.2)))
  if x.kind = 1 then s2.writeDie die (x.base + im.hidden + 2 * r * x.width) (v.hid.flatMap (fun q => leBytes 2 (ofSigned 16 q)))
  else s2

/-- Rows written in order. -/
def State.putSeqRows (s : State) (die : Nat) (x : SeqSlot) (r : Nat) : List SeqRow → State
  | [] => s
  | v :: vs => (s.putSeqRow die x r v).putSeqRows die x (r + 1) vs

/-! ### The products (R157, R166) -/

/-- The tile-SRAM tensor and row that hold output channel j of a weight operand split over the chunk's tiles. -/
def seqWeight (die : Nat) (tiles : List Nat) (f : Format) (gw klen addr sAddr j : Nat) : Tensor × Nat :=
  let d := tileEdge die
  let u := ceilDiv gw d
  let n := tiles.length
  let i := ((List.range n).find? (fun i => i * u / n ≤ j / d && j / d < (i + 1) * u / n)).getD 0
  let base := 0x08000000 + tiles.getD i 0 * 0x400000
  (⟨die, base + addr, base + sAddr, f, 1, klen, 0⟩, j - i * u / n * d)

/-- An entry of the bias table. -/
def State.seqBias (s : State) (die addr i : Nat) (x : Elem) : Elem :=
  let b := s.readDie die (addr + 8 * i) 8
  biasStage (sfieldAt b 0 4) (sfieldAt b 4 2) x

/-- A pre-activation (R158): the accumulator as INT32 with 16 fraction bits. -/
def preAct (x : Elem) : Int × Bool × Bool :=
  let y := toFixed16 x
  (y.1, x.acc, y.2)

/-- The fields of a chunk descriptor that its computation uses (R166). -/
structure SeqOp where
  kind : Nat
  fmtW : Format
  fmtH : Format
  fmtX : Format
  granX : Nat
  hx : Nat
  hh : Nat
  w : Nat
  x : Nat
  rows : Nat
  tiles : List Nat
  d : Bytes

/-- The input pre-activation of channel j for input row i. -/
def State.seqIn (s : State) (die : Nat) (o : SeqOp) (i j : Nat) : Int × Bool × Bool :=
  let gw := seqGates o.kind * o.w
  let wt := seqWeight die o.tiles o.fmtW gw o.x (fieldAt o.d 0x1C 4) (fieldAt o.d 0x20 4) j
  let a : Tensor := ⟨die, fieldAt o.d 0x14 4, fieldAt o.d 0x18 4, o.fmtX, o.granX, o.x, 0⟩
  let t := { tileOpOf [] with k := o.x, granA := o.granX, granB := 1, h := o.hx }
  preAct (s.seqBias die (fieldAt o.d 0x2C 4) j (s.gemmElem t a wt.1 i wt.2))

/-- The recurrent pre-activation of channel j for a quantised operand row. -/
def State.seqRec (s : State) (die : Nat) (o : SeqOp) (q : Quantised) (j : Nat) : Int × Bool × Bool :=
  let gw := seqGates o.kind * o.w
  let wt := seqWeight die o.tiles o.fmtW gw o.w (fieldAt o.d 0x24 4) (fieldAt o.d 0x28 4) j
  let ts := (spanBlocks 128 0 o.w).map (fun p =>
    let sm := ((List.range (p.2 - p.1)).map (fun x => q.qs.getD (p.1 + x) 0 * s.tensorElem wt.1 wt.2 (p.1 + x))).sum
    let sw := s.tensorScale wt.1 wt.2 p.1
    (⟨sm, q.scale.m * sw.m, q.scale.e + sw.e⟩ : Term))
  let r := accumulate o.hh [ts]
  preAct (s.seqBias die (fieldAt o.d 0x2C 4) (gw + j) { a := r.1, e := r.2.1, acc := r.2.2 })

/-! ### The gate pipeline (R158, R159) -/

/-- A function unit on a value with 16 fraction bits, to 16 fraction bits. -/
def unit16 (func : Nat) (v : Int) : Int := (funcOut .int32 func v (-16) 16).1

/-- The gate values of an element: a, B and the output gate O, with the flags of its saturations. -/
structure Gate where
  a : Int
  b : Int
  o : Int
  acc : Bool
  out : Bool

/-- The sum of two pre-activations with saturation. -/
def addPre (x y : Int × Bool × Bool) : Int × Bool × Bool :=
  let z := sat32 (x.1 + y.1)
  (z.1, x.2.1 || y.2.1, x.2.2 || y.2.2 || z.2)

/-- The gates of element i of a GRU or LSTM row (R158), from the input and recurrent pre-activations. -/
def recurGate (kind : Nat) (es : Int) (px ph : Nat → Int × Bool × Bool) (w i : Nat) : Gate :=
  let sum := fun (g : Nat) => addPre (px (g * w + i)) (ph (g * w + i))
  if kind = 0 then
    let z := unit16 4 (sum 0).1
    let rg := unit16 4 (sum 1).1
    let hn := ph (2 * w + i)
    let xn := px (2 * w + i)
    let m := sat32 (rshiftRne (rg * hn.1) 16)
    let n := addPre xn (m.1, hn.2.1, hn.2.2 || m.2)
    ⟨z, rshiftRne ((65536 - z) * unit16 5 n.1) (16 + es), 0, (sum 0).2.1 || (sum 1).2.1 || n.2.1,
      (sum 0).2.2 || (sum 1).2.2 || n.2.2⟩
  else
    let ig := unit16 4 (sum 0).1
    let fg := unit16 4 (sum 1).1
    let gv := unit16 5 (sum 2).1
    ⟨fg, rshiftRne (ig * gv) (16 + es), unit16 4 (sum 3).1, (sum 0).2.1 || (sum 1).2.1 || (sum 2).2.1 || (sum 3).2.1,
      (sum 0).2.2 || (sum 1).2.2 || (sum 2).2.2 || (sum 3).2.2⟩

/-- The gates of element i of a SELECTIVE row (R158). -/
def State.selectGate (s : State) (die : Nat) (o : SeqOp) (es : Int) (row i : Nat) : Gate :=
  let t : Tensor := ⟨die, fieldAt o.d 0x14 4, 0, .int32, 0, 2 * o.w, 0⟩
  let lam := s.tensorElem t row i
  ⟨unit16 1 (min lam 0), rshiftRne (s.tensorElem t row (o.w + i)) es, 0, false, decide (0 < lam)⟩

/-! ### The state update (R161, R162) -/

/-- The smallest k for which the stepped row stays below the threshold, with fuel. (log entry 35: DEDUCED in part) -/
def stepUp (vs : List Int) : Nat → Nat → Nat
  | 0, k => k
  | n + 1, k => if vs.all (fun v => decide ((rshiftRne (rshiftRne v k) 16).natAbs < 2 ^ 30)) then k else stepUp vs n (k + 1)

/-- One update of a row: the new row, whether the exponent stepped up, and the elements that the clamp of R162 changed. -/
def updateRow (row : SeqRow) (gs : List Gate) : SeqRow × Bool × List Bool :=
  let vs := List.zipWith (fun (p : Int × Int) (g : Gate) => rshiftRne (g.a * (p.1 * 65536 + p.2)) 16 + g.b) row.sc gs
  let k := stepUp vs 256 0
  let top := decide (111 < row.e + k)
  let at' := fun (v : Int) => rshiftRne (rshiftRne v (111 - row.e)) 16
  let clamped := fun (v : Int) => clampI (-(2 ^ 30 - 1)) (2 ^ 30 - 1) (at' v)
  let sc := vs.map (fun v =>
    if top then (clamped v, 0)
    else
      let u := rshiftRne v k
      let t := rshiftRne u 16
      (t, u - t * 65536))
  ({ row with e := if top then 111 else row.e + k, sc := sc }, k != 0, vs.map (fun v => top && clamped v != at' v))

/-- The hidden row of an LSTM (R159), with the saturations of its conversion (R30). -/
def hiddenRow (row : SeqRow) (gs : List Gate) : List (Int × Bool) :=
  List.zipWith (fun (p : Int × Int) (g : Gate) =>
    let x := sat32 (rshiftRne p.1 (-16 - row.e))
    (rshiftRne (rshiftRne (g.o * unit16 5 x.1) 16) 1, x.2)) row.sc gs

/-! ### Chunks (R164, R169) -/

/-- One row of one step (R164): the state with the output written, the row, its events and whether it stepped up. A row on
hold forms its operand and its products too, and discards them. (log entry 35: DEDUCED in part) -/
def State.seqStepRow (s : State) (die : Nat) (o : SeqOp) (init : SeqRow) (reset hold : Bool) (outRow : Nat) (row0 : SeqRow) :
    State × SeqRow × SatEvents × Bool :=
  let row := if reset then init else row0
  let xs := if o.kind = 1 then row.hid.map (fun q => (2 * q, (-16 : Int))) else row.sc.map (fun p => (p.1, row.e))
  let q := absmax o.fmtH xs
  let qx := if o.kind = 2 then ([] : List Bool) else q.clamped
  let events := fun (flags : List (Bool × Bool)) => (⟨flags.any (·.1), flags.any (·.2) || qx.any id, o.kind != 2 && q.scaleSat, false,
    (flags.filter (fun f => f.1 || f.2)).length + (qx.filter id).length⟩ : SatEvents)
  let gs := (List.range o.w).map (fun i =>
    if o.kind = 2 then s.selectGate die o row.e outRow i
    else recurGate o.kind row.e (s.seqIn die o outRow) (s.seqRec die o q) o.w i)
  if hold then (s, row, events (gs.map (fun g => (g.acc, false))), false)
  else
    let u := updateRow row gs
    let h := if o.kind = 1 then hiddenRow u.1 gs else []
    let row1 := if o.kind = 1 then { u.1 with hid := h.map (·.1) } else u.1
    let out := if o.kind = 1 then row1.hid else row1.sc.map (fun p => rshiftRne p.1 16)
    let sw : Scale := if out.all (· == 0) then ⟨0, 0⟩ else if o.kind = 1 then ⟨1, -15⟩ else ⟨1, row1.e + 16⟩
    let t : Tensor := ⟨die, fieldAt o.d 0x30 4, fieldAt o.d 0x34 4, .int16, 1, o.w, 0⟩
    let s1 := (s.writeRow t outRow out).writeScales die (t.sAddr + 2 * outRow) [sw]
    let flags := (gs.zip u.2.2).zipIdx.map (fun p => (p.1.1.acc, p.1.1.out || p.1.2 || (h[p.2]?).elim false (·.2)))
    (s1, row1, events flags, u.2.1)

/-- One step of a chunk over its rows. -/
def State.seqStep (s : State) (die : Nat) (o : SeqOp) (init : SeqRow) (t : Nat) (rows : List SeqRow) :
    State × List SeqRow × SatEvents × Nat :=
  let mask := fieldAt o.d 0x38 4
  let m := s.readDie die (mask + 64 * t) 64
  let mbit := fun (off r : Nat) => mask != 0 && bit (fieldAt m (off + r / 8) 1) (r % 8)
  rows.zipIdx.foldl (fun (a : State × List SeqRow × SatEvents × Nat) p =>
    let x := a.1.seqStepRow die o init (mbit 0 p.2) (mbit 32 p.2) (t * o.rows + p.2) p.1
    (x.1, a.2.1 ++ [x.2.1], a.2.2.1.join x.2.2.1, a.2.2.2 + b2n x.2.2.2)) (s, [], {}, 0)

/-- Steps of a chunk in order, from step t on. -/
def State.seqSteps (s : State) (die : Nat) (o : SeqOp) (init : SeqRow) : Nat → Nat → List SeqRow → SatEvents → State × List SeqRow × SatEvents
  | 0, _, rows, ev => (s, rows, ev)
  | n + 1, t, rows, ev =>
    let x := s.seqStep die o init t rows
    (x.1.eventTimes (Ev.SEQ_EVT_STATUS_step_up die) x.2.2.2).seqSteps die o init n (t + 1) x.2.1 (ev.join x.2.2.1)

/-- The output rows of a chunk from a step on: the physical ranges of the rows and of their scale words. -/
def chunkOuts (die : Nat) (d : Bytes) (t steps : Nat) : List (Nat × Nat) :=
  let rows := fieldAt d 0xA 2
  let o : Tensor := ⟨die, fieldAt d 0x30 4, fieldAt d 0x34 4, .int16, 1, fieldAt d 0xC 2, 0⟩
  [(dieLocal die (o.addr + o.rowOff (t * rows)), o.rowOff ((steps - t) * rows)),
    (dieLocal die (o.sAddr + 2 * (t * rows)), 2 * ((steps - t) * rows))]

/-- The next n steps of a chunk on its slot (R164): the state with the slot after them, the events of all steps so far, and the
run, whose operation is executed with its last step. (log entry 35: DEDUCED in part) -/
def State.runChunk (s : State) (l : Layout) (r : Run) (d : Bytes) (x : SeqSlot) (n steps : Nat) : State :=
  match formatOf (bits (fieldAt d 4 1) 0 4), formatOf (bits (fieldAt d 4 1) 4 4), formatOf (bits (fieldAt d 5 1) 0 4) with
  | some fw, some fh, some fx =>
    let tiles := l.opTiles r.ctx r.die r.unit (tileOpOf d)
    let o : SeqOp := ⟨bits (fieldAt d 1 1) 0 2, fw, fh, fx, bits (fieldAt d 5 1) 4 3, bits (fieldAt d 6 1) 0 4, bits (fieldAt d 6 1) 4 4,
      fieldAt d 0xC 2, fieldAt d 0xE 2, fieldAt d 0xA 2, tiles, d⟩
    let m := min n (steps - r.progress)
    let y := s.seqSteps r.die o (s.seqInit r.die x) m r.progress ((List.range x.rows).map (s.seqRow r.die x)) r.sat
    let s1 := (y.1.putSeqRows r.die x 0 y.2.1).count64 (Reg.SEQ_STEPS r.die) (m * x.rows)
    let t := r.progress + m
    let r1 := { r with putReady := false, progress := t, sat := y.2.2, satDie := r.die, outs := chunkOuts r.die d t steps }
    s1.setRun (if t < steps then r1 else { r1.finishOp y.2.2.code y.2.2 r.die [] with progress := t })
  | _, _, _ => s.setRun (r.finishOp 0x0105 {} r.die [])

/-- The key of the slot that a chunk of a run names, where its engine is granted. -/
def State.chunkKey (s : State) (r : Run) (d : Bytes) : Option Nat :=
  (s.layout.bind (fun l => l.seqEngine r.ctx r.die r.unit)).map (fun e => r.die * 256 + e * 64 + fieldAt d 2 1 % 64)

/-- True where a slot is the one that a chunk expects: its context's, with the expected tag (R169). -/
def SeqSlot.expected (x : SeqSlot) (r : Run) (d : Bytes) : Bool :=
  (fieldAt d 3 1 == 0xFF || fieldAt r.args (fieldAt d 3 1) 2 == x.tag) && x.owner == r.ctx

/-- A chunk that completes without effect (R169). (log entry 35: DEDUCED in part) -/
def State.chunkMoved (s : State) (r : Run) : State :=
  (s.event (Ev.SEQ_EVT_STATUS_moved r.die)).setRun ({ r with putReady := false }.finishOp 0x0480 {} r.die [])

/-- The next steps of a chunk that runs, or its end by an uncorrectable error: the slot keeps the steps that have run.
(log entry 35: DEDUCED in part) -/
def State.chunkSteps (s : State) (l : Layout) (r : Run) (d : Bytes) (x : SeqSlot) (n steps : Nat) (ecc : Ecc) : State :=
  let c := s.eccCheck r.die ecc
  if c.2 then (c.1.undefRanges (chunkOuts r.die d r.progress steps)).setRun ({ r with putReady := false }.finishOp 0x0204 r.sat r.die [])
  else c.1.runChunk l r d x n steps

/-- SEQ_CHUNK (R164 to R169): the run's current operation, a chunk, runs its next n steps on its slot, waits for a restore, or
completes without effect. An abort can fall between two of these commands (R165). (log entry 35: DEDUCED in part) -/
def execSeqChunk (part : Nat × Nat) (ecc : Ecc) (s : State) : Host.Outcome State Fault Refusal :=
  .next (match s.startable part.1 0x30, s.layout with
    | some (r, d), some l =>
      let steps := chunkSteps r d
      let fin := fun (c : Nat) => s.setRun ({ r with putReady := false }.finishOp c {} r.die [])
      if steps = 0 then fin 0
      else if fieldAt d 0x10 4 < steps then fin 0x0107
      else
        match s.chunkKey r d with
        | none => fin 0x0480
        | some key =>
          let x := s.seqSlot key
          if 0 < r.progress then s.chunkSteps l r d x part.2 steps ecc
          else if s.engineBusy l r (key / 64 % 4) || !s.tilesFree r then s
          else if x.expected r d && x.phase == .restoring && !x.closing then s.setRun { r with putReady := true }
          else if x.expected r d && x.phase == .live && (!x.closing || r.putReady) then
            if x.kind ≠ bits (fieldAt d 1 1) 0 2 ∨ x.rows ≠ fieldAt d 0xA 2 ∨ x.width ≠ fieldAt d 0xC 2 then fin 0x0483
            else s.chunkSteps l r d x part.2 steps ecc
          else s.chunkMoved r
    | _, _ => s)

/-! ### Commands (R168, R170) -/

/-- A start of a sequence-engine command (R168). (log entry 35: DEDUCED in part) -/
def State.seqStart (s : State) (who : Requester) (die op v : Nat) (f : Nat → State → State) : State :=
  s.busWrite who die 0x0B false (fun s =>
    let s1 := ((s.setFld (Fld.SEQ_CMD_op die) op).setFld (Fld.SEQ_CMD_engine die) (bits v 4 2)).setFld (Fld.SEQ_CMD_slot die) (bits v 8 6)
    let s2 := s1.setFld (Fld.SEQ_CMD_class die) (bits v 16 3)
    if s2.flag (Fld.SEQ_CMD_STATUS_busy die) then s2.event (Ev.SEQ_EVT_STATUS_cmd_reject die)
    else if s2.fld (Fld.SEQ_CAP_engines die) ≤ bits v 4 2 then
      (s2.eventIf (op == 3) (Ev.SEQ_EVT_STATUS_restore_fail die)).setFld (Fld.SEQ_CMD_STATUS_code die) 0x0481
    else f (die * 256 + bits v 4 2 * 64 + bits v 8 6) s2)

/-- The end of a sequence-engine command. -/
def State.seqStatus (s : State) (die code : Nat) : State :=
  ((s.setSeqCmd die none).setFld (Fld.SEQ_CMD_STATUS_busy die) 0).setFld (Fld.SEQ_CMD_STATUS_code die) code

/-- The resident context to which the engine of a slot is granted. -/
def State.engineOwner (s : State) (key : Nat) : Option Nat :=
  ((s.recs 2).map shareOf).findSome? (fun h =>
    if h.kind == 2 && h.engine == 2 && h.die == key / 256 && decide (h.first ≤ key / 64 % 4) && decide (key / 64 % 4 < h.first + h.count) &&
      (s.ctx h.ctx).phase == .resident then some h.ctx else none)

/-- True where a range lies in a context's SRAM shares on a die. -/
def State.inSram (s : State) (ctx die addr len : Nat) : Bool :=
  s.layout.elim false (fun l => (l.sharesOf ctx die 1).any (fun h => h.first * 65536 ≤ addr && addr + len ≤ (h.first + h.count) * 65536))

/-- The next generation tag of an engine (R168). (log entry 35: DEDUCED in part) -/
def State.nextTag (s : State) (key : Nat) : Nat := Sparse.get (fun _ => 1) s.seqTags (key / 64)

/-- The counter of an engine past a tag. (log entry 35: DEDUCED in part) -/
def State.takeTag (s : State) (key : Nat) : State :=
  let t := s.nextTag key
  { s with seqTags := Sparse.put (fun _ => 1) s.seqTags (key / 64) (if t = 65535 then 1 else t + 1) }

/-- SEQ_BIND (R168): a new tag into the header, every row reset, the slot live. -/
def execSeqBind (who : Requester) (die value : Nat) (s : State) : Host.Outcome State Fault Refusal :=
  .next (s.seqStart who die 1 value (fun key s =>
    let base := (s.reg (Reg.SEQ_CMD_SRAM die)).toNat
    match s.engineOwner key with
    | none => s.seqStatus die 0x0481
    | some k =>
      let h := s.readDie die base 64
      if (s.seqSlot key).phase ≠ .empty then s.seqStatus die 0x0481
      else if !s.inSram k die base 64 then s.seqStatus die 0x0484
      else if !seqHeaderOk h then s.seqStatus die 0x0482
      else if !s.inSram k die base (fieldAt h 0xC 4) then s.seqStatus die 0x0484
      else
        let x : SeqSlot := ⟨.live, k, s.nextTag key, base, fieldAt h 2 1, fieldAt h 4 2, fieldAt h 6 2, false⟩
        let s1 := (s.takeTag key).writeDie die (base + 8) (leBytes 2 x.tag)
        let s2 := s1.putSeqRows die x 0 (List.replicate x.rows (s1.seqInit die x))
        ((s2.setSlot key x).setFld (Fld.SEQ_CMD_TAG_tag die) x.tag).seqStatus die 0))

/-- A SWAP_OUT or UNBIND accepted: it waits until no chunk runs on the slot (R170). (log entry 35: DEDUCED in part) -/
def State.seqClose (s : State) (die key op va : Nat) : State :=
  ((s.setSlot key { s.seqSlot key with closing := true }).setSeqCmd die (some ⟨op, key, va, false⟩)).setFld (Fld.SEQ_CMD_STATUS_busy die) 1

/-- The code of a slot command whose access fails (R173): 0x0484 for an address that does not translate, and the flash controller's
own code where it refuses the access (R194, R198). (log entry 35: DEDUCED in part) -/
def slotCode (code : Nat) : Nat := if code < 0x0204 then 0x0484 else code

/-- SEQ_SWAP_OUT (R168, R170, R186). (log entry 35: DEDUCED in part) -/
def execSeqSwapOut (who : Requester) (die value : Nat) (s : State) : Host.Outcome State Fault Refusal :=
  .next (s.seqStart who die 2 value (fun key s =>
    let x := s.seqSlot key
    let va := s.reg64 (Reg.SEQ_CMD_VA die)
    if x.phase ≠ .live then s.seqStatus die 0x0481
    else
      match s.walkFault x.owner va (seqImage x.kind x.rows x.width).len .transferWrite with
      | some e => (s.xltFault 1 x.owner e.1 e.2).seqStatus die (slotCode e.1)
      | none => s.seqClose die key 2 va))

/-- SEQ_UNBIND (R168, R170). (log entry 35: DEDUCED in part) -/
def execSeqUnbind (who : Requester) (die value : Nat) (s : State) : Host.Outcome State Fault Refusal :=
  .next (s.seqStart who die 4 value (fun key s => s.seqClose die key 4 0))

/-- The end of a RESTORE that fails (R168): restore_fail and the code. (log entry 35: DEDUCED in part) -/
def State.restoreFailed (s : State) (die code : Nat) : State := (s.event (Ev.SEQ_EVT_STATUS_restore_fail die)).seqStatus die code

/-- SEQ_RESTORE (R168, R186): the slot becomes restoring, with the tag of the image. (log entry 35: DEDUCED in part) -/
def execSeqRestore (who : Requester) (die value : Nat) (s : State) : Host.Outcome State Fault Refusal :=
  .next (s.seqStart who die 3 value (fun key s =>
    let base := (s.reg (Reg.SEQ_CMD_SRAM die)).toNat
    let va := s.reg64 (Reg.SEQ_CMD_VA die)
    match s.engineOwner key with
    | none => s.restoreFailed die 0x0481
    | some k =>
      if (s.seqSlot key).phase ≠ .empty then s.restoreFailed die 0x0481
      else
        match s.readVa .tierManager k va 64 with
        | .error e => (s.accessFault 1 k e.1 e.2).restoreFailed die (slotCode e.1)
        | .ok h =>
          if !s.inSram k die base 64 then s.restoreFailed die 0x0484
          else
            let x : SeqSlot := ⟨.restoring, k, fieldAt h 8 2, base, fieldAt h 2 1, fieldAt h 4 2, fieldAt h 6 2, false⟩
            ((s.setSlot key x).setSeqCmd die (some ⟨3, key, va, true⟩)).setFld (Fld.SEQ_CMD_STATUS_busy die) 1))

/-- The runs whose chunk names a slot. -/
def State.chunksOn (s : State) (key : Nat) : List Run :=
  s.runs.filter (fun r => r.done.isNone && (s.currentOp r).elim false (fun d =>
    fieldAt d 0 1 == 0x30 && r.die == key / 256 && s.chunkKey r d == some key))

/-- True while a chunk runs on a slot, and has not ended without a step of its own; one that waited for the slot's restore has it from the restore's end (R169). -/
def State.chunkRuns (s : State) (key : Nat) : Bool :=
  (s.chunksOn key).any (fun r => r.putReady || 0 < r.progress)

/-- The chunks that waited for a slot's restore, at its end: one that does not find the state it expects completes without
effect (R169). (log entry 35: DEDUCED in part) -/
def State.endWaits (s : State) (key : Nat) : State :=
  ((s.chunksOn key).filter (fun r => r.putReady && !r.executed)).foldl (fun (a : State) r =>
    let x := a.seqSlot key
    if x.phase == .live && (a.currentOp r).elim false (x.expected r) then a else a.chunkMoved r) s

/-- SEQ_SLOT_RELEASE (R170): the waiting SWAP_OUT or UNBIND of a die, once no chunk runs on its slot: an UNBIND empties the
slot, a SWAP_OUT starts its transfer. (log entry 35: DEDUCED in part) -/
def execSeqSlotRelease (die : Nat) (s : State) : Host.Outcome State Fault Refusal :=
  .next (match s.seqCmd die with
    | none => s
    | some c =>
      if c.moving || s.chunkRuns c.key then s
      else if c.op = 4 then (s.setSlot c.key {}).seqStatus die 0
      else (s.setSlot c.key { s.seqSlot c.key with phase := .swapping }).setSeqCmd die (some { c with moving := true }))

/-- A slot image with both checks (R167). -/
def sealImage (b : Bytes) : Bytes :=
  let b1 := patch b 0x10 (leBytes 4 (crc32c (b.drop 0x40)))
  patch b1 0x3C (leBytes 4 (crc32c (slice b1 0 0x3C)))

/-- The check of a restored image (R168). -/
def imageOk (b : Bytes) : Bool :=
  seqHeaderOk b && b.length == fieldAt b 0xC 4 && fieldAt b 0x10 4 == crc32c (b.drop 0x40) &&
    fieldAt b 0x3C 4 == crc32c (slice b 0 0x3C)

/-- The result of a restore's transfer, which no command that waits to unmap its range disturbs (R179): the slot live, or the
command's code with the access that failed, if one did. (log entry 35: DEDUCED in part) -/
def State.restoreResult (s : State) (die : Nat) (c : SeqCmd) : Except (Nat × Option (Nat × Nat)) State :=
  let x := s.seqSlot c.key
  let free := { s with tierPending := none }
  match free.readVa .tierManager x.owner c.va 64 with
  | .error e => .error (slotCode e.1, some e)
  | .ok h =>
    if !seqHeaderOk h then .error (0x0482, none)
    else
      match free.readVa .tierManager x.owner c.va (fieldAt h 0xC 4) with
      | .error e => .error (slotCode e.1, some e)
      | .ok b =>
        if !imageOk b then .error (0x0482, none)
        else if !s.inSram x.owner die x.base b.length then .error (0x0484, none)
        else
          let y : SeqSlot := ⟨.live, x.owner, fieldAt b 8 2, x.base, fieldAt b 2 1, fieldAt b 4 2, fieldAt b 6 2, false⟩
          .ok (((s.writeDie die x.base b).setSlot c.key y).setFld (Fld.SEQ_CMD_TAG_tag die) y.tag)

/-- SEQ_TRANSFER_COMPLETE (R168, R169, R171, R186, R188): the transfer of a SWAP_OUT or RESTORE ends. A failed access is reported
as R186, R188 and R194 say. (log entry 35: DEDUCED in part) -/
def execSeqTransferComplete (die : Nat) (found : Found) (s : State) : Host.Outcome State Fault Refusal :=
  .next (match s.seqCmd die with
    | none => s
    | some c =>
      let x := s.seqSlot c.key
      if c.moving = false then s
      else if c.op = 2 then
        let s := s.noteActive 2
        let b := sealImage (s.readDie die x.base (seqImage x.kind x.rows x.width).len)
        let back := s.setSlot c.key { x with phase := .live, closing := false }
        if found.lost then (back.accessFault 1 x.owner 0x0204 0).seqStatus die 0x0204
        else
          match { s with tierPending := none }.writeVa .tierManager .transferWrite x.owner c.va b with
          | .error e => (back.accessFault 1 x.owner e.1 e.2).seqStatus die (slotCode e.1)
          | .ok t => (({ t with tierPending := s.tierPending }.setSlot c.key {}).setFld (Fld.SEQ_CMD_TAG_tag die) x.tag).seqStatus die 0
      else
        let s := (s.noteActive 2).countReads x.owner c.va (max 64 (seqImage x.kind x.rows x.width).len) found
        let failed := fun (code : Nat) (e : Option (Nat × Nat)) =>
          (((e.elim s (fun f => s.accessFault 1 x.owner f.1 f.2)).setSlot c.key {}).restoreFailed die code).endWaits c.key
        if found.lost && !s.inFlash x.owner c.va then failed 0x0204 (some (0x0204, c.va))
        else
          match s.restoreResult die c with
          | .ok t => (t.seqStatus die 0).endWaits c.key
          | .error e => failed e.1 e.2)

end Sys2Proof.Machine
end

