-- ==== Sys2Proof/Machine/Traffic.lean ====
section
/-! DEFINITION. Traffic classes, arbitration, budgets, counters and snapshots (chapter 11), and the links and local
time copies of chapter 01. -/

namespace Sys2Proof.Machine

/-! ### Request tags (R202, R203, R205) -/

/-- A remaining time in ns as a deadline field (R203); none is 0xFFFF. -/
def deadlineField : Option Int → Nat
  | none => 0xFFFF
  | some r => if r ≤ 0 then 0 else min (r.toNat / 32) 0xFFFE

/-- The instant at which the budget of a run's activation or invocation ends. -/
def State.runBudgetEnd (s : State) (r : Run) : Option Nat :=
  match r.origin with
  | .invocation n => (s.inv? r.ctx n).bind (fun i => (s.budgetLimit r.ctx false).map (fun b => i.start + b))
  | .step k _ =>
    ((s.ctx r.ctx).acts.find? (fun a => a.index == k)).bind (fun a => (s.budgetLimit r.ctx a.inv.isNone).map (fun b => a.start + b))

/-- The class and context that a source gives its requests, and the instant of their deadline on the master's die (R203, R242,
R245, R259, R319): the end of an activation's budget, or the planned start of a prefetch's layer.
(log entry 79: DESIGN CHOICE in part) -/
def State.requestTag (s : State) : ReqSource → Nat × Nat × Option Int
  | .operation id =>
    match s.run? id, s.layout with
    | some r, some l => (l.progClass r.prog, r.ctx, (s.runBudgetEnd r).map (fun e => (e : Int)))
    | _, _ => (7, 0, none)
  | .prefetch id i =>
    match s.run? id, s.layout with
    | some r, some l =>
      let p := r.recs.getD i []
      (fieldAt p 1 1, r.ctx, some ((r.start + l.plannedOffset r.prog (fieldAt p 2 2) : Nat) : Int))
    | _, _ => (7, 0, none)
  | .residency k => (((s.residencyRecs k)[(s.ctx k).resNext]?).elim 4 (fun r => fieldAt r 1 1), k, none)
  | .seqSlot d => (s.fld (Fld.SEQ_CMD_class d), (s.seqCmd d).elim 0 (fun c => (s.seqSlot c.key).owner), none)
  | .host k => (5, k, none)
  | .journal => (6, 0, none)
  | .scrub => (7, 0, none)
  | .fusion => (((s.recs 0xA).head?).elim 7 (fun r => fieldAt r 1 1), (s.engineCtx 6).getD 0, none)
  | .mapStore => (((s.recs 8).head?).elim 7 (fun r => fieldAt r 0x47 1), ((s.recs 8).head?).elim 0 (fun r => fieldAt r 1 1), none)
  | .camera i => (1, ((s.recs 0xD)[i]?).elim 0 (fun r => fieldAt r 0 1), none)
  | .loop e => (0, ((s.recs 0xB).find? (fun r => fieldAt r 1 1 == e)).elim 0 (fun r => fieldAt r 0 1), none)
  | .walk x => s.requestTag x

/-- True where a source has its master on a die. (log entry 79: DESIGN CHOICE in part) -/
def sourceDie (die : Nat) : ReqSource → Bool
  | .operation _ => true
  | .scrub => true
  | .fusion => die == 0
  | .mapStore => die == 0
  | .camera _ => die == 0
  | .loop _ => die == 0
  | .walk x => sourceDie die x
  | _ => die == 1

/-- The master of R18 and R186 behind a source: the tier manager's transfers, the host, an engine, or another master of the
Cache die. (log entry 79: DESIGN CHOICE in part) -/
def sourceMaster (die : Nat) : ReqSource → Master
  | .prefetch _ _ => .tierManager
  | .residency _ => .tierManager
  | .seqSlot _ => .tierManager
  | .host _ => .host
  | .walk x => sourceMaster die x
  | .operation _ => .engine die
  | _ => if die = 1 then .cacheOther else .engine die

/-- True where a source may send a request to a resource: a loop engine reaches SRAM of the Reflex die alone, by die-local
addresses (R319). (log entry 79: DESIGN CHOICE in part) -/
def sourceReaches (loc res : Nat) (va : Option (Nat × Bool)) : ReqSource → Bool
  | .loop _ => loc == 0 && res == 0 && va.isNone
  | _ => true

/-- The class on a die of a request that its master on another die gave a class: the ingress port of the Reflex die re-tags
class 0 as class 1 (R18, R205). (log entry 79: DESIGN CHOICE in part) -/
def ingressClass (die loc cls : Nat) : Nat := if die ≠ 0 ∧ loc = 0 ∧ cls = 0 then 1 else cls

/-- The index of the applicable CLASSES record (R205). (log entry 41: DEDUCED in part) -/
def State.classRecord (s : State) (ctx cls res : Nat) : Option Nat :=
  let find := fun (o : Nat) => (s.recs 5).findIdx? (fun r => fieldAt r 0 1 == o && fieldAt r 1 1 == cls && fieldAt r 2 1 == res)
  (find ctx).orElse (fun _ => find 0xFF)

/-- The latency target of a request (R205). -/
def State.latencyTarget (s : State) (rec' : Option Nat) (cls : Nat) : Nat :=
  match rec'.bind (fun i => (s.recs 5)[i]?) with
  | some r => fieldAt r 0xC 4
  | none => [1000, 20000, 50000, 200000, 500000, 1000000, 10000000, 100000000].getD cls 100000000

/-- The outstanding limit of a request's class (R205, R207). -/
def State.outstandingMax (s : State) (rec' : Option Nat) : Nat :=
  match rec'.bind (fun i => (s.recs 5)[i]?) with
  | some r => fieldAt r 0x10 2
  | none => 64

/-- More than the CLASSES records that a layout can hold: one for each of 65 owners, 8 classes and 10 resources (R205). -/
def windowStride : Nat := 65536

/-- The key of a CLASSES record's window at the arbiters of a die. -/
def windowKey (loc i : Nat) : Nat := loc * windowStride + i

/-- The first window boundary of a record after a time (R206). (log entry 41: DEDUCED in part) -/
def State.nextWindow (s : State) (i t : Nat) : Nat :=
  let w := max (fieldAt ((s.recs 5).getD i []) 4 4) 1
  (t / w + 1) * w

/-- The window of a record on a die brought up to the die's device time: once the next boundary has come a new window begins,
and the record's requests that wait there are no longer over budget (R206). (log entry 41: DEDUCED in part) -/
def State.rollWindow (s : State) (loc : Nat) (rec' : Option Nat) : State :=
  match rec' with
  | none => s
  | some i =>
    let t := s.localNow loc
    if (Sparse.get (fun _ => {}) s.windows (windowKey loc i)).next ≤ t then
      { s with
        windows := Sparse.put (fun _ => {}) s.windows (windowKey loc i) ⟨s.nextWindow i t, 0⟩
        requests := s.requests.map (fun (x : Request) =>
          if x.loc = loc ∧ x.record = some i ∧ x.granted.isNone = true then { x with overBudget := false } else x) }
    else s

/-- The windows of a die brought up to its device time before a step moves it: those that have ended hold no bytes (R206).
(log entry 41: DEDUCED in part) -/
def State.rollAll (s : State) (loc : Nat) : State :=
  s.windows.foldl (fun (a : State) p => if p.1 / windowStride = loc then a.rollWindow loc (some (p.1 % windowStride)) else a) s

/-- The windows of a die aimed at the first boundary of its device time after a step; one that the step lands on begins a window
there (R218). (log entry 41: DEDUCED in part) -/
def State.retarget (s : State) (loc : Nat) : State :=
  { s with windows := s.windows.map (fun p =>
      if p.1 / windowStride = loc then
        let w := max (fieldAt ((s.recs 5).getD (p.1 % windowStride) []) 4 4) 1
        (p.1, { p.2 with next := ceilDiv (s.localNow loc) w * w })
      else p) }

/-- A request when the copy of device time on a die moves by `d` ns: the stamps it took there move with it, so that what it has
waited, and what remains to its deadline, are the same (R204, R209, R213, R218). (log entry 41: DEDUCED in part) -/
def Request.shift (die : Nat) (d : Int) (q : Request) : Request :=
  let q1 := if q.loc = die then { q with entered := q.entered + d, arrived := q.arrived.map (· + d) } else q
  if q.die = die then { q1 with issued := q1.issued + d, due := q1.due.map (· + d) } else q1

/-- The requests when the copy of device time on a die moves by `d` ns. (log entry 41: DEDUCED in part) -/
def State.shiftRequests (s : State) (die : Nat) (d : Int) : State := { s with requests := s.requests.map (Request.shift die d) }

/-- The bytes granted against a record in the window that runs on a die. -/
def State.windowBytes (s : State) (loc i : Nat) : Nat := (Sparse.get (fun _ => {}) s.windows (windowKey loc i)).bytes

/-- True where a request of a number of bytes is over budget when it arrives on a die (R205, R206).
(log entry 41: DEDUCED in part) -/
def State.isOverBudget (s : State) (loc : Nat) (rec' : Option Nat) (cls bytes : Nat) : Bool :=
  match rec' with
  | none => cls == 0
  | some i => decide (fieldAt ((s.recs 5).getD i []) 8 4 < s.windowBytes loc i + bytes)

/-- The die on which the counters of R213 count a resource; a link counts at its sending end. -/
def countsOn (die res : Nat) : Bool :=
  if die = 0 then res ≤ 2 else if die = 1 then 2 ≤ res && res ≤ 9 else res == die + 1

/-! ### Routes -/

/-- The link of a die, the Cache die's apart (R16, R208). -/
def linkRes (die : Nat) : Nat := if die = 0 then 2 else die + 1

/-- The links, at their sending ends, from one die to another (R18: every crossing passes the Cache die).
(log entry 79: DESIGN CHOICE in part) -/
def linkPath (src dst : Nat) : List (Nat × Nat) :=
  if src = dst then []
  else (if src = 1 then [] else [(src, linkRes src)]) ++ (if dst = 1 then [] else [(1, linkRes dst)])

/-- The die that holds a physical address, and the resource that guards it there; SRAM of a spoke die has none of R208's.
(log entry 79: DESIGN CHOICE in part) -/
def memRes (p : Nat) : Nat × Option Nat :=
  if 0x3000000000 ≤ p then (0, some 1)
  else if p < 0x2000000000 then (1, some 6)
  else
    let d := (p - 0x2000000000) / 0x100000000
    (d, if d = 0 then some 0 else if d = 1 then some 7 else none)

/-- The resources that a request of a die crosses to a target, in order. (log entry 79: DESIGN CHOICE in part) -/
def routeTo (die : Nat) : Target → List (Nat × Nat)
  | .flash _ => linkPath die 1 ++ [(1, 8)]
  | .phys p =>
    let m := memRes p
    linkPath die m.1 ++ m.2.elim [] (fun r => [(m.1, r)])

/-- The resources that a request of a die crosses to a resource that is named without an address, none where R18 lets no such
request through. (log entry 79: DESIGN CHOICE in part) -/
def routeRes (die loc res : Nat) (who : Master) : List (Nat × Nat) :=
  if countsOn loc res = false ∨ (loc = 0 ∧ die ≠ 0 ∧ who ≠ .tierManager ∧ who ≠ .host) then [] else linkPath die loc ++ [(loc, res)]

/-! ### Issue and arrival -/

/-- A request put into its arbiter's queue, with the class-0 event of R206. (log entry 41: DEDUCED in part) -/
def State.arrive (s0 : State) (q0 : Request) : State :=
  let s := s0.rollWindow q0.loc q0.record
  let t := s.localNow q0.loc
  let ob := s.isOverBudget q0.loc q0.record q0.cls q0.bytes
  let q := { q0 with arrived := some t, left := q0.bytes, overBudget := ob }
  let s1 := { s with requests := s.requests.map (fun (x : Request) => if x.id = q.id then q else x) }
  if ob && q.cls == 0 then
    let s2 := (s1.event (Ev.TCL_EVT_STATUS_c0_over q.loc)).setFld (Fld.TCL_C0_LAST_ctx_id q.loc) q.ctx
    ((s2.setFld (Fld.TCL_C0_LAST_resource q.loc) q.res).setFld (Fld.TCL_C0_LAST_kind q.loc) 0).report 0x0C 0
  else s1

/-- The resources of a request, those it has passed and those ahead. -/
def Request.path (q : Request) : List (Nat × Nat) := q.passed.map (fun p => (p.1, p.2.1)) ++ (q.loc, q.res) :: q.route

/-- True where a request's master is within outstanding_max of its class on every resource that the request crosses (R207):
`arrived` says which requests it has sent. (log entry 79: DESIGN CHOICE in part) -/
def State.admits (s : State) (q : Request) : Bool :=
  let sent := s.requests.filter (fun x => x.die == q.die && x.master == q.master && x.cls0 == q.cls0 && x.arrived.isSome)
  q.path.all (fun p => decide ((sent.filter (fun x => x.path.contains p)).length <
    s.outstandingMax (s.classRecord q.ctx (ingressClass q.die p.1 q.cls0) p.2)))

/-- A request that waits at its master sent, with the time that remains to its deadline (R203, R207); one beyond its limit waits
on. (log entry 79: DESIGN CHOICE in part) -/
def State.send (s : State) (q : Request) : State :=
  if s.admits q then
    let t := s.localNow q.die
    s.arrive { q with deadline := deadlineField (q.due.map (fun d => d - t)), entered := t }
  else s

/-- A request tagged and issued along a route (R203); one that crosses none of R208's resources needs no arbiter.
(log entry 79: DESIGN CHOICE in part) -/
def State.issue (s : State) (die master : Nat) (src : ReqSource) (bytes : Nat) : List (Nat × Nat) → State
  | [] => s
  | (loc, res) :: route =>
    let tag := s.requestTag src
    let cls := ingressClass die loc tag.1
    let q : Request :=
      { id := s.nextReq, die := die, master := master, loc := loc, res := res, route := route, passed := [], cls0 := tag.1, cls := cls
        ctx := tag.2.1, deadline := 0xFFFF, due := tag.2.2, bytes := bytes, record := s.classRecord tag.2.1 cls res
        issued := s.localNow die, entered := 0, arrived := none, left := bytes, granted := none, overBudget := false }
    { s with requests := s.requests ++ [q], nextReq := s.nextReq + 1 }.send q

/-- REQUEST_ISSUE (R18, R203, R207): a master tags and issues a request, with an address of its context, or to a resource that
die `loc` arbitrates. It crosses the links between its die and the memory; it waits at the master while the master is at its
limit. An access that does not translate ends with its fault (R186).
(log entry 41: DEDUCED in part; log entry 79: DESIGN CHOICE in part) -/
def execRequestIssue (die master loc res : Nat) (src : ReqSource) (bytes : Nat) (va : Option (Nat × Bool)) (s : State) :
    Host.Outcome State Fault Refusal :=
  .next (
    let who := sourceMaster die src
    let ctx := (s.requestTag src).2.1
    if (sourceDie die src && sourceReaches loc res va src) = false then s
    else
      match va with
      | none => s.issue die master src bytes (routeRes die loc res who)
      | some (a, write) =>
        let acc : Access := if write then (if who = .tierManager ∨ who = .host then .transferWrite else .engineWrite) else .read
        match s.translate who acc ctx a with
        | .error c => s.xltFault die ctx c a
        | .ok x => (s.walked die ctx a).issue die master src bytes (routeTo die x))

/-! ### Arbitration (R209, R210) -/

/-- The escalation level of a waiting request (R209). (log entry 41: DEDUCED in part) -/
def State.escalation (s : State) (q : Request) (t : Nat) : Nat :=
  let w := ((t : Int) - q.arrived.getD t).toNat
  let lat := min 7 (7 * w / max (s.latencyTarget q.record q.cls) 1)
  let r : Int := 32 * q.deadline - w
  let dl := if q.deadline = 0xFFFF then 0 else if r ≤ 0 then 7 else 7 - r.toNat / 256
  max lat dl

/-- The effective class of a waiting request (R206, R209). (log entry 41: DEDUCED in part) -/
def State.effectiveClass (s : State) (q : Request) (t : Nat) : Nat :=
  if q.overBudget then (if q.cls = 0 then 1 else 7)
  else if q.cls = 0 then 0
  else max 1 (q.cls - s.escalation q t)

/-- True where a request is granted before another (R210); of class 0, one without a deadline comes after all that have one. (log entry 41: DEDUCED in part) -/
def State.before (s : State) (t : Nat) (x y : Request) : Bool :=
  let ex := s.effectiveClass x t
  let ey := s.effectiveClass y t
  let rem := fun (q : Request) => (32 * q.deadline : Int) - (if q.deadline = 0xFFFF then 0 else (t : Int) - q.arrived.getD t)
  let dx := if x.cls = 0 then rem x else 0
  let dy := if y.cls = 0 then rem y else 0
  if ex ≠ ey then ex < ey
  else if x.cls ≠ y.cls then x.cls < y.cls
  else if dx ≠ dy then decide (dx < dy)
  else if x.arrived ≠ y.arrived then decide (x.arrived.getD 0 < y.arrived.getD 0)
  else if x.master ≠ y.master then x.master < y.master
  else x.id < y.id

/-! ### Snapshots (R213, R214) -/

/-- Copies of a list of register words. -/
def State.copyRegs (s : State) : List (Nat × Nat) → State
  | [] => s
  | (a, b) :: xs => (s.setReg b (s.reg a)).copyRegs xs

/-- The words of the counters of a die and those of their shadows. -/
def shadowPairs (die : Nat) : List (Nat × Nat) :=
  (List.range 10).flatMap (fun r => (List.range 8).flatMap (fun c =>
    [(Reg.MON_BYTES die r c, Reg.MON_BYTES_SHADOW die r c), (Reg.MON_BYTES die r c + 4, Reg.MON_BYTES_SHADOW die r c + 4),
      (Reg.MON_LATE die r c, Reg.MON_LATE_SHADOW die r c)]))

/-- An armed snapshot whose time has come is taken (R214). (log entry 41: DEDUCED in part) -/
def State.takeSnapshot (s : State) (die : Nat) : State :=
  let t := s.reg64 (Reg.MON_SNAP_TIME die)
  if s.flag (Fld.MON_SNAP_STATUS_armed die) && decide (t ≤ s.localNow die) then
    let s1 := (s.copyRegs (shadowPairs die)).setReg64 (Reg.MON_SNAP_AT die) t
    let s2 := (s1.setFld (Fld.MON_SNAP_STATUS_seq die) (s1.fld (Fld.MON_SNAP_STATUS_seq die) + 1)).setFld (Fld.MON_SNAP_STATUS_armed die) 0
    s2.event (Ev.MON_SNAP_STATUS_taken die)
  else s

/-- SNAPSHOT_TAKE (R214). -/
def execSnapshotTake (die : Nat) (s : State) : Host.Outcome State Fault Refusal :=
  .next (if s.blkOpen die 0x05 then s.takeSnapshot die else s)

/-- The arming write of MON_SNAP_TIME on a die (R214). (log entry 41: DEDUCED in part) -/
def State.armSnapshot (s : State) (die t : Nat) : State :=
  let s1 := s.setReg64 (Reg.MON_SNAP_TIME die) t
  if t < s.localNow die + 100 then (s1.setFld (Fld.MON_SNAP_STATUS_armed die) 0).event (Ev.MON_SNAP_STATUS_missed die)
  else s1.setFld (Fld.MON_SNAP_STATUS_armed die) 1

/-- SNAPSHOT_ARM (R5, R214): the write of the high half of MON_SNAP_TIME, which makes the whole value `time` and consumes the
requester's staged low half. -/
def execSnapshotArm (who : Requester) (die time : Nat) (s : State) : Host.Outcome State Fault Refusal :=
  .next (s.busWrite who die 0x05 false (fun s =>
    { s with staged := dropHalf s.staged who (Reg.MON_SNAP_TIME die) }.armSnapshot die time))

/-- True while the burst cut is in force (R212). -/
def State.burstCut (s : State) : Bool :=
  s.ctxs.any (fun p => p.2.phase == .resident &&
    (s.classRecord p.1 0 1).elim false (fun i => fieldAt ((s.recs 5).getD i []) 8 4 != 0))

/-- The bytes that one grant serves of a request on a resource (R210, R212): 64 bytes of SRAM, a flit of a link, 256 bytes of
HBM, a burst of PSRAM; the spec gives no unit for flash and PCI Express, where the whole request is granted.
(log entry 79: DESIGN CHOICE in part) -/
def State.grantUnit (s : State) (q : Request) : Nat :=
  if q.res = 0 ∨ q.res = 7 then 64
  else if q.res = 1 then (if q.cls ≠ 0 ∧ s.burstCut then 512 else 4096)
  else if q.res < 6 then max Config.linkFlit 1
  else if q.res = 6 then 256
  else q.left

/-- A request that has been served whole where it stands: it waits for its completion, or leaves the die over the link, less the
time it spent on the die (R204), and arrives at the next arbiter. (log entry 79: DESIGN CHOICE in part) -/
def State.pass (s : State) (q : Request) : State :=
  let t := s.localNow q.loc
  match q.route with
  | [] => { s with requests := s.requests.map (fun (x : Request) => if x.id = q.id then { q with granted := some t } else x) }
  | (loc, res) :: route =>
    let cls := ingressClass q.die loc q.cls0
    s.arrive { q with
      loc := loc, res := res, route := route, passed := q.passed ++ [(q.loc, q.res, q.cls, q.record)], cls := cls
      deadline := if q.deadline = 0xFFFF then 0xFFFF else q.deadline - ceilDiv ((t : Int) - q.entered).toNat 32
      record := s.classRecord q.ctx cls res, entered := s.localNow loc }

/-- ARBITER_GRANT (R210, R212): the arbiter of a resource on a die grants a unit of the first of its pending requests; the bytes
count against the window and in the byte counter. Shadows that fall due hold what was granted before (R214).
(log entry 41: DEDUCED in part; log entry 79: DESIGN CHOICE in part) -/
def execArbiterGrant (loc res : Nat) (s : State) : Host.Outcome State Fault Refusal :=
  .next (
    let here := fun (q : Request) => q.loc == loc && q.res == res && q.arrived.isSome && q.granted.isNone
    let s0 := ((s.requests.filter here).foldl (fun (a : State) q => a.rollWindow loc q.record) s).takeSnapshot loc
    let t := s0.localNow loc
    match s0.requests.filter here with
    | [] => s
    | p :: rest =>
      let q := rest.foldl (fun (b x : Request) => if s0.before t x b then x else b) p
      let n := min q.left (s0.grantUnit q)
      let s1 := match q.record with
        | none => s0
        | some i =>
          let w : BudgetWindow := Sparse.get (fun _ => {}) s0.windows (windowKey loc i)
          { s0 with windows := Sparse.put (fun _ => {}) s0.windows (windowKey loc i) { w with bytes := w.bytes + n } }
      let s2 := s1.count64 (Reg.MON_BYTES loc res q.cls) n
      if n < q.left then
        { s2 with requests := s2.requests.map (fun (x : Request) => if x.id = q.id then { x with left := q.left - n } else x) }
      else s2.pass { q with left := 0 })

/-- BUDGET_WINDOW_START (R206): a window boundary of a CLASSES record comes on a die: a new window begins, and the record's
requests that wait there are no longer over budget. (log entry 41: DEDUCED in part) -/
def execBudgetWindowStart (at' : Nat × Nat) (s : State) : Host.Outcome State Fault Refusal :=
  .next (if (s.recs 5)[at'.2]?.isSome then s.rollWindow at'.1 (some at'.2) else s)

/-- The longest class-0 latency of a master's die on a resource (R211). (log entry 41: DEDUCED in part) -/
def State.noteLatency (s : State) (die res ns : Nat) : State :=
  let f := Fld.TCL_C0_LAT_MAX_ns die res
  s.setFld f (max (s.fld f) (min ns 0xFFFFFF))

/-- The late counters of the resources that a request has crossed, each against its target there (R213).
(log entry 79: DESIGN CHOICE in part) -/
def State.countLate (s : State) (lat : Nat) : List (Nat × Nat × Nat × Option Nat) → State
  | [] => s
  | (loc, res, cls, rec') :: ps =>
    (if s.latencyTarget rec' cls < lat then s.setReg (Reg.MON_LATE loc res cls) (s.reg (Reg.MON_LATE loc res cls) + 1) else s).countLate lat ps

/-- The requests that wait at a master sent as far as its limits admit them, in order of issue (R207).
(log entry 79: DESIGN CHOICE in part) -/
def State.release (s : State) (die master : Nat) : State :=
  (s.requests.filter (fun x => x.die == die && x.master == master && x.arrived.isNone)).foldl (fun (a : State) x => a.send x) s

/-- REQUEST_COMPLETE (R207, R210, R213): a request that its last resource has served completes; late, missed and longest latencies
are noted, and requests that wait at its master go out. (log entry 41: DEDUCED in part; log entry 79: DESIGN CHOICE in part) -/
def execRequestComplete (id : Nat) (s : State) : Host.Outcome State Fault Refusal :=
  .next (match s.requests.find? (fun q => q.id == id) with
    | none => s
    | some q =>
      if q.granted.isNone then s
      else
        let t := s.localNow q.die
        let lat := ((t : Int) - q.issued).toNat
        let late := decide (s.latencyTarget q.record q.cls < lat)
        let s1 := { s with requests := s.requests.filter (fun x => x.id != id) }
        let s2 := s1.countLate lat (q.passed ++ [(q.loc, q.res, q.cls, q.record)])
        let s3 := s2.eventIf (q.due.elim false (fun d => decide (d < t))) (Ev.TCL_EVT_STATUS_dl_miss q.die)
        let s4 := if q.cls = 0 then
            let a := s3.noteLatency q.die q.res lat
            if late then
              ((a.event (Ev.TCL_EVT_STATUS_c0_target q.die)).setFld (Fld.TCL_C0_LAST_ctx_id q.die) q.ctx
                ).setFld (Fld.TCL_C0_LAST_resource q.die) q.res |>.setFld (Fld.TCL_C0_LAST_kind q.die) 1
            else a
          else s3
        s4.release q.die q.master)

/-- LATENCY_MAX_CLEAR (R211): a write of TCL_CTRL with lat_clr = 1 on a die. -/
def execLatencyMaxClear (who : Requester) (die : Nat) (s : State) : Host.Outcome State Fault Refusal :=
  .next (s.busWrite who die 0x04 false (fun s =>
    (List.range 10).foldl (fun (a : State) r => a.setReg (Reg.TCL_C0_LAT_MAX die r) 0) s))

/-! ### Links and time copies (chapter 01) -/

/-- FLIT_RETRY (R16): a corrupted flit is sent again; the transfer is late, its data and order are the same.
(log entry 77: DEDUCED in part) -/
def execFlitRetry (s : State) : Host.Outcome State Fault Refusal := .next s

/-- DEVICE_TIME_REALIGN (R19, R218): the Reflex die realigns a die's copy of device time, which adopts a step; the offset that
remains is open. (log entry 10: DESIGN CHOICE in part) -/
def execDeviceTimeRealign (die : Nat) (s : State) : Host.Outcome State Fault Refusal :=
  .next (
    let adopt := fun (a : State) => { a with
      dieSkew := Sparse.put (fun _ => 0) a.dieSkew die (a.freeCtr + 1)
      dieLag := Sparse.put (fun _ => 0) a.dieLag die 0
      freeCtr := a.freeCtr + 1 }
    if die = 0 then s
    else if s.lag die = 0 then adopt s
    else ((adopt (s.rollAll die)).retarget die).shiftRequests die (-(s.lag die)))

end Sys2Proof.Machine
end

