-- ==== Sys2Proof/Machine/Time.lean ====
section
/-! DEFINITION. The time base (chapter 12): device time, its rate and steps, stamps, PTP stamp FIFOs and the pulse per
second. -/

namespace Sys2Proof.Machine

/-- A register read by a requester, which answers 32 bits; zero where the block does not answer (R25, R388). -/
def State.busRead (s : State) (who : Requester) (die block : Nat) (f : State → State) : State :=
  match who with
  | .host =>
    if s.hostAccess die block = 1 then { s with answer := leBytes 4 0 }.hqEvent Ev.HQ_EVT_STATUS_bar0_absent
    else if s.hostAccess die block = 2 then { s with answer := leBytes 4 0 }
    else f s
  | _ => if s.blkOpen die block then f s else { s with answer := leBytes 4 0 }

/-- `n` hardware sets of a status bit at once (R8). -/
def State.eventAdd (s : State) (e : Evt) (n : Nat) : State :=
  if n = 0 then s
  else
    let s1 := s.setReg e.status (s.reg e.status ||| BitVec.ofNat 32 (2 ^ e.bit))
    s1.setReg e.counter (BitVec.ofNat 32 (((s1.reg e.counter).toNat + n) % 65536))

/-- The stamp of a time in units of 2^-16 ns (R220). (log entry 43: DEDUCED in part) -/
def stampOf (t : Int) : Nat := ((rshiftRne t 16) % ((2 : Int) ^ 32)).toNat

/-- The age of b against a (R221). -/
def age (a b : Nat) : Int := toSigned 32 (ofSigned 32 ((a : Int) - b))

/-- Picoseconds as units of 2^-16 ns (R223). -/
def psUnits (ps : Int) : Int := divRne (ps * 65536) 1000

/-- The ns by which device time has stepped since an instant `ago` periods of 0.4 ns before now (R218).
(log entry 43: DEDUCED in part) -/
def State.steppedSince (s : State) (ago : Nat) : Int :=
  (s.ports.steps.filter (fun p => decide (s.mono < p.1 + 4 * ago))).foldl (fun (a : Int) p => a + p.2) 0

/-- The capture of an edge that crossed the MDI `ago` periods of 0.4 ns before now (R223): it resolves 0.4 ns, is given to the
nearest 2^-16 ns, and keeps the time of its edge where device time has stepped since (R218).
(log entry 43: DEDUCED in part) -/
def State.capture (s : State) (ago : Nat) : Int :=
  divRne (((s.devTime / 32000000000 : Nat) - (ago : Int)) * 262144) 10 - s.steppedSince ago * 65536

/-- The corrected ingress time of a capture on a port (R223), both in units of 2^-16 ns.
(log entry 43: DEDUCED in part) -/
def State.ingressTime (s : State) (port : Nat) (capture : Int) : Int :=
  capture - psUnits (s.fld (Fld.TIME_PORT_ING_PS_ps port) : Int) - psUnits (toSigned 32 (s.fld (Fld.TIME_PORT_ASYM_PS_ps port)))

/-- The corrected egress time of a capture on a port (R223). (log entry 43: DEDUCED in part) -/
def State.egressTime (s : State) (port : Nat) (capture : Int) : Int :=
  capture + psUnits (s.fld (Fld.TIME_PORT_EGR_PS_ps port) : Int)

/-! ### Rate and steps (R217, R218) -/

/-- A write of TIME_RATE: the adjustment is held to ±51,200,000 (R217). (log entry 44: DESIGN CHOICE in part) -/
def State.writeTimeRate (s : State) (v : Nat) : State :=
  let a := toSigned 32 v
  let c := clampI (-51200000) 51200000 a
  (s.setFld Fld.TIME_RATE_adj (ofSigned 32 c)).eventIf (decide (a ≠ c)) Ev.TIME_EVT_STATUS_rate_clamp

/-- TIME_RATE_WRITE (R217). (log entry 44: DESIGN CHOICE in part) -/
def execTimeRateWrite (who : Requester) (value : Nat) (s : State) : Host.Outcome State Fault Refusal :=
  .next (s.busWrite who 0 0x23 false (fun s => s.writeTimeRate value))

/-- True while the owner of a LOOPS record is RESIDENT or STOPPED, so that a slot evaluates (R320). -/
def State.loopsActive (s : State) : Bool :=
  (s.recs 0xB).any (fun r => (s.ctx (fieldAt r 0 1)).phase == .resident || (s.ctx (fieldAt r 0 1)).phase == .stopped)

/-- True where a context with a periodic schedule is RESIDENT and not quiesced (R218). -/
def State.periodicRuns (s : State) : Bool :=
  (s.recs 3).any (fun r => fieldAt r 4 4 != 0 && (s.ctx (fieldAt r 0 1)).phase == .resident && !s.quiesced (fieldAt r 0 1))

/-- The fusion owner (R245). -/
def State.fusionOwner (s : State) : Option Nat := s.engineCtx 6

/-- True while the fusion engine is active (FUSN_STATUS.active): a FUSIONGRID record is installed and its owner is RESIDENT
and not quiesced. -/
def State.fusionActive (s : State) : Bool :=
  !(s.recs 0xA).isEmpty && s.fusionOwner.elim false (fun k => (s.ctx k).phase == .resident && !s.quiesced k)

/-- True where the conditions of R218 on a step hold, but for the sign of its result.
(log entry 42: DESIGN CHOICE in part) -/
def State.stepAllowed (s : State) : Bool :=
  !s.periodicRuns && !s.loopsActive && !(s.recs 0xD).any (fun r => fieldAt r 1 1 < 2) &&
    !s.fusionActive && !(List.range 5).any (fun d => s.flag (Fld.MON_SNAP_STATUS_armed d))

/-- Device time moved by an offset in ns, to a time that is not negative (R218): the other dies' copies keep theirs until their
next realignment, the Reflex die's budget windows begin again at their first boundary, its requests keep what they have waited,
and a pulse on PPS_OUT keeps its width. Nothing counted in always-on time moves with it. (log entry 42: DESIGN CHOICE in part) -/
def State.moveTime (s : State) (d : Int) : State :=
  let s1 := s.rollAll 0
  ({ s1 with
    devTime := ((s.devTime : Int) + d * 80000000000).toNat
    dieLag := [1, 2, 3, 4].foldl (fun m k => Sparse.put (fun _ => 0) m k (s.lag k - d)) s.dieLag
    ports := { s.ports with ppsRise := s.ports.ppsRise + d, steps := s.ports.steps ++ [(s.mono, d)] } }.retarget 0).shiftRequests 0 d

/-- TIME_STEP's offset applied where R218 allows it. (log entry 42: DESIGN CHOICE in part) -/
def State.timeStep (s : State) : State :=
  let d := toSigned 64 (s.reg64 Reg.TIME_STEP)
  if s.stepAllowed && decide (0 ≤ (s.devTime : Int) + d * 80000000000) then
    (s.moveTime d).event Ev.TIME_EVT_STATUS_step_done
  else s.event Ev.TIME_EVT_STATUS_step_reject

/-- A write of TIME_CTRL: its PPS controls, and a step where bit 0 is set. (log entry 44: DESIGN CHOICE in part) -/
def State.writeTimeCtrl (s : State) (v : Nat) : State :=
  let s1 := (s.setFld Fld.TIME_CTRL_pps_in_en (bits v 1 1)).setFld Fld.TIME_CTRL_pps_out_en (bits v 2 1)
  let s2 := s1.setFld Fld.TIME_CTRL_pps_gate (bits v 3 1)
  if bit v 0 then s2.timeStep else s2

/-- TIME_STEP (R218): the write of TIME_CTRL with step = 1. (log entry 44: DESIGN CHOICE in part) -/
def execTimeStep (who : Requester) (value : Nat) (s : State) : Host.Outcome State Fault Refusal :=
  .next (s.busWrite who 0 0x23 false (fun s => s.writeTimeCtrl (setBits value 0 1 1)))

/-! ### PTP event messages (R224, R225) -/

/-- True where a frame carries one 802.1Q tag. -/
def frameTagged (f : Bytes) : Bool := beNat (slice f 12 2) == 0x8100

/-- The offset of what follows the Ethertype of a frame. -/
def frameBody (f : Bytes) : Nat := if frameTagged f then 18 else 14

/-- The Ethertype of a frame, behind its tag. -/
def frameType (f : Bytes) : Nat := beNat (slice f (frameBody f - 2) 2)

/-- The messageType of a PTP event message; none for other frames (R219, R224).
(log entry 44: DESIGN CHOICE in part) -/
def ptpEvent (f : Bytes) : Option Nat :=
  let m := fieldAt f (frameBody f) 1 % 16
  if frameType f = 0x88F7 ∧ m < 4 then some m else none

/-- The PTP stamp FIFO of a port. -/
def State.fifo (s : State) (port : Nat) : List PtpStamp := Sparse.get (fun _ => []) s.ports.fifos port

/-- The state with a port's FIFO at a value. -/
def State.setFifo (s : State) (port : Nat) (q : List PtpStamp) : State :=
  { s with ports := { s.ports with fifos := Sparse.put (fun _ => []) s.ports.fifos port q } }

/-- A PTP event message noted in the port's FIFO, or dropped with fifo_ovf when it is full (R224).
(log entry 43: DEDUCED in part) -/
def State.notePtp (s : State) (port : Nat) (egress : Bool) (t : Int) (f : Bytes) : State :=
  match ptpEvent f with
  | none => s
  | some m =>
    if !s.flag (Fld.TIME_PORT_CTRL_ptp_en port) then s
    else if (s.fifo port).length < 64 then
      let e : PtpStamp := ⟨egress, m, beNat (slice f (frameBody f + 30) 2), ofSigned 64 (t / 65536), (t % 65536).toNat⟩
      s.setFifo port (s.fifo port ++ [e])
    else s.event Ev.TIME_EVT_STATUS_fifo_ovf

/-- A departing Sync completed on the fly (R225): originTimestamp and correctionField from the egress time.
(log entry 43: DEDUCED in part) -/
def oneStepSync (t : Int) (f : Bytes) : Bytes :=
  let b := frameBody f
  let ns := ofSigned 64 (t / 65536)
  let f1 := patch f (b + 34) (beBytes 6 (ns / 1000000000) ++ beBytes 4 (ns % 1000000000))
  patch f1 (b + 8) (beBytes 8 ((beNat (slice f (b + 8) 8) + (t % 65536).toNat) % 2 ^ 64))

/-- True for a Sync that the port completes: one-step mode and twoStepFlag 0. (log entry 43: DEDUCED in part) -/
def State.completesSync (s : State) (port : Nat) (f : Bytes) : Bool :=
  s.flag (Fld.TIME_PORT_CTRL_one_step port) && ptpEvent f == some 0 && !bit (fieldAt f (frameBody f + 6) 1) 1

/-- The head entry popped into the three FIFO registers of a port, or a read that returned no entry (R224). -/
def State.popFifo (s : State) (port : Nat) : State :=
  match s.fifo port with
  | [] => s.setReg (Reg.TIME_PORT_FIFO_HDR port) 0
  | e :: q =>
    let s1 := ((s.setFifo port q).setReg64 (Reg.TIME_PORT_FIFO_NS port) e.ns).setReg (Reg.TIME_PORT_FIFO_FRAC port)
      (BitVec.ofNat 32 e.frac)
    s1.setReg (Reg.TIME_PORT_FIFO_HDR port) (BitVec.ofNat 32 (1 + 2 * b2n e.egress + 4 * e.msgType + 65536 * e.seq))

/-- PTP_FIFO_POP (R224): a read of FIFO_HDR. (log entry 44: DESIGN CHOICE in part) -/
def execPtpFifoPop (who : Requester) (port : Nat) (s : State) : Host.Outcome State Fault Refusal :=
  .next (s.busRead who 0 0x23 (fun s =>
    let s1 := s.popFifo port
    { s1 with answer := leBytes 4 (s1.reg (Reg.TIME_PORT_FIFO_HDR port)).toNat }))

/-! ### PPS (R228, R229) -/

/-- PPS_IN_EDGE (R228): a rising edge on PPS_IN. -/
def execPpsInEdge (s : State) : Host.Outcome State Fault Refusal :=
  .next (if !s.flag Fld.TIME_CTRL_pps_in_en then s
    else
      let glitch := s.ports.ppsSeen && decide ((s.now : Int) - (s.reg64 Reg.TIME_PPS_IN : Int) < 500000000)
      let s1 := { s with ports := { s.ports with ppsSeen := true } }.setReg64 Reg.TIME_PPS_IN s.now
      let s2 := s1.setFld Fld.TIME_STATUS_pps_in_seq (s1.fld Fld.TIME_STATUS_pps_in_seq + 1)
      (s2.event Ev.TIME_EVT_STATUS_pps_in).eventIf glitch Ev.TIME_EVT_STATUS_pps_in_glitch)

/-- True within 2 ns of an edge instant of PPS_OUT (R229), on the exact device time. (log entry 43: DEDUCED in part) -/
def State.ppsDue (s : State) : Bool :=
  let d := ((s.devTime : Int) - (s.fld Fld.TIME_PPS_OUT_OFS_ns : Int) * 80000000000) % 80000000000000000000
  decide (d ≤ 160000000000) || decide (79999999840000000000 ≤ d)

/-- PPS_OUT_RISE (R229): the output rises at an edge instant, unless it is gated. (log entry 43: DEDUCED in part) -/
def execPpsOutRise (s : State) : Host.Outcome State Fault Refusal :=
  .next (if s.flag Fld.TIME_CTRL_pps_out_en && s.ppsDue && !s.ports.ppsHigh &&
      !(s.flag Fld.TIME_CTRL_pps_gate && s.fld Fld.TIME_STATUS_servo != 2)
    then { s with ports := { s.ports with ppsHigh := true, ppsRise := s.now } }
    else s)

/-- The width of the pulse in ns (TIME_PPS_OUT_WIDTH). -/
def State.ppsWidth (s : State) : Nat :=
  let w := s.fld Fld.TIME_PPS_OUT_WIDTH_ms
  (if 1 ≤ w ∧ w ≤ 500 then w else 100) * 1000000

/-- PPS_OUT_FALL (R229): the output falls after its width. -/
def execPpsOutFall (s : State) : Host.Outcome State Fault Refusal :=
  .next (if s.ports.ppsHigh && decide (s.ports.ppsRise + s.ppsWidth ≤ (s.now : Int))
    then { s with ports := { s.ports with ppsHigh := false } }
    else s)

end Sys2Proof.Machine
end

