-- ==== Sys2Proof/Machine/Sto.lean ====
section
/-! DEFINITION. The safe-torque-off outputs and their groups (R354, R359, R361): what asserts them, releases them and
reads them back. -/

namespace Sys2Proof.Machine

/-- The stop of a group that is under way. -/
def State.groupStop (s : State) (g : Nat) : Option GroupStop := Sparse.get (fun _ => none) s.crust.stops g

/-- The state with the stop of a group at a value; CRUST_GROUP_g.stopping is set during a category-1 ramp. -/
def State.setGroupStop (s : State) (g : Nat) (x : Option GroupStop) : State :=
  { s with crust := { s.crust with stops := Sparse.put (fun _ => none) s.crust.stops g x } }.setFld
    (Fld.CRUST_GROUP_stopping g) (b2n (x.elim false (fun y => y.cat == 1)))

/-- True where safe torque off is asserted on a group (R359). -/
def State.asserted (s : State) (g : Nat) : Bool := (s.fld Fld.SIO_STO_STATUS_asserted).testBit g

/-- True where a safe-torque-off output is energised: output 2g is STO_A_g, 2g + 1 is STO_B_g. A pulse test de-energises one of a
released group, and the proof run energises one of an asserted group (R359, R367, R370, R445). -/
def State.energised (s : State) (x : Nat) : Bool :=
  !s.crust.off.contains x &&
    (if s.asserted (x / 2) then s.crust.proofOut.elim false (fun p => p.1 == x) else !(s.crust.pulse.elim false (fun p => p.1 == x)))

/-- The readback of the outputs as they are driven. -/
def State.driveOutputs (s : State) : State :=
  s.setFld Fld.SIO_STO_STATUS_readback (((List.range 8).map (fun x => if s.energised x then 2 ^ x else 0)).sum)

/-- A test of an output of a group abandoned (R359). -/
def CrustSt.dropTests (c : CrustSt) (g : Nat) : CrustSt :=
  { c with pulse := c.pulse.filter (fun p => p.1 / 2 != g), proofOut := c.proofOut.filter (fun p => p.1 / 2 != g) }

/-- Safe torque off asserted on a group at once: a test on it is abandoned and a stop under way has ended
(R354, R359, R372). -/
def State.assertGroup (s : State) (g : Nat) : State :=
  let s1 := s.setFld Fld.SIO_STO_STATUS_asserted (setBits (s.fld Fld.SIO_STO_STATUS_asserted) g 1 1)
  ({ s1 with crust := s1.crust.dropTests g }.setGroupStop g none).driveOutputs

/-- Safe torque off asserted on every group. -/
def State.assertAll (s : State) : State := (List.range 4).foldl (fun a g => a.assertGroup g) s

/-- True where the committed layout holds a host-fed stream (R244). -/
def State.simLayout (s : State) : Bool := (s.recs 0xD).any (fun r => bit (fieldAt r 3 1) 7)

/-- The dies that are present. -/
def State.presentDies (s : State) : List Nat := (List.range 5).filter (fun d => s.diesPresent.testBit d)

/-- True while a die that is present holds a failed proof run (R368). -/
def State.proofFailed (s : State) : Bool := s.presentDies.any (fun d => s.flag (Fld.INJ_PROOF_STATUS_proof_fail d))

/-- True where safe torque off on a group may be released (R344, R361); it stays asserted in a halted start (R388), and while a die
holds a failed proof run (R368). -/
def State.releasable (s : State) (g : Nat) : Bool :=
  s.flag Fld.CRUST_STATUS_run && !(s.fld Fld.SIO_STO_CTRL_hold).testBit g && s.fld (Fld.CRUST_GROUP_level g) == 0 &&
    !s.flag Fld.SIO_STO_STATUS_estop_latched && !s.simLayout && decide (s.fld Fld.BOOT_STATUS_state < 2) && !s.proofFailed

/-- The last pass of a self-test set to the present (R371 to R373); 4 × slot + group. -/
def State.notePass (s : State) (key : Nat) : State :=
  { s with crust := { s.crust with passes := Sparse.put (fun _ => 0) s.crust.passes key s.monoNs
                                   overdue := s.crust.overdue.filter (fun k => k != key) } }

/-- The conditions of R445 that are present now on an output (0 to 7) or a channel (8, 9). -/
def State.wire (s : State) (k : Nat) : List Nat := Sparse.get (fun _ => []) s.crust.wires k

/-- The state with the conditions present on a wire at a value, which SIO_WIRE_k.live shows.
(log entry 74: DEDUCED in part) -/
def State.setWire (s : State) (k : Nat) (cs : List Nat) : State :=
  { s with crust := { s.crust with wires := Sparse.put (fun _ => []) s.crust.wires k cs } }.setFld (Fld.SIO_WIRE_live k)
    (b2n (!cs.isEmpty))

/-- True where the pin of an output reads a reversed source now, so that the output is held off (R445).
(log entry 74: DEDUCED in part) -/
def State.reversed (s : State) (x : Nat) : Bool := (s.wire x).contains 5

/-- A wiring condition of an output or of a channel found, with its current (R445): it is live, and is latched where none is.
(log entry 74: DEDUCED in part) -/
def State.latchWire (s : State) (k cond ma : Nat) : State :=
  let s1 := (s.setWire k (if (s.wire k).contains cond then s.wire k else s.wire k ++ [cond])).setFld (Fld.SIO_WIRE_ma k) ma
  if s.fld (Fld.SIO_WIRE_cond k) = 0 then (s1.setFld (Fld.SIO_WIRE_cond k) cond).event Ev.SIO_WIRE_EVT_wire else s1

/-- A measurement that does not find a condition (R445): it is not present now, and the current is shown.
(log entry 74: DEDUCED in part) -/
def State.endWire (s : State) (k cond ma : Nat) : State :=
  (s.setWire k ((s.wire k).filter (fun c => c != cond))).setFld (Fld.SIO_WIRE_ma k) (min ma 65535)

/-- A group released where R361 allows it: both outputs are energised and their test intervals restart (R372). -/
def State.releaseGroup (s : State) (g : Nat) : State :=
  if s.asserted g && s.releasable g then
    let s1 := s.setFld Fld.SIO_STO_STATUS_asserted (setBits (s.fld Fld.SIO_STO_STATUS_asserted) g 1 0)
    let c := s1.crust.dropTests g
    let s2 := { s1 with crust := { c with off := c.off.filter (fun x => x / 2 != g || s1.reversed x) } }
    ((s2.notePass (20 + g)).notePass (28 + g)).driveOutputs
  else s

/-- Every group released that R361 lets go. -/
def State.releaseGroups (s : State) : State := (List.range 4).foldl (fun a g => a.releaseGroup g) s

/-- The STREAM record of a stream (R348). -/
def State.streamSafety (s : State) (i : Nat) : Option Bytes :=
  ((s.safetyRecs 1).find? (fun p => fieldAt p.1 2 1 == i)).map (·.1)

/-- The group of a stream. -/
def State.streamGroup (s : State) (i : Nat) : Option Nat := (s.streamSafety i).map (fun r => fieldAt r 3 1)

/-- The GLOBAL record (R348). -/
def State.safetyGlobal (s : State) : Option Bytes := (s.safetyRecs 0).head?.map (·.1)

/-- The first substitute of a stream has departed: a category-0 stop asserts once every stream it awaits has (R354).
(log entry 59: DEDUCED in part) -/
def State.substituteLeft (s : State) (i : Nat) : State :=
  (List.range 4).foldl (fun (a : State) g =>
    match a.groupStop g with
    | none => a
    | some x =>
      let y := { x with awaited := x.awaited.filter (fun j => j != i) }
      if x.cat = 0 ∧ x.awaited.contains i = true ∧ y.awaited.isEmpty = true then a.assertGroup g
      else a.setGroupStop g (some y)) s

end Sys2Proof.Machine
end

