-- ==== Sys2Proof/Machine/Ports.lean ====
section
/-! DEFINITION. The joint bus and the sensor ports (chapter 13): frames, the joint-bus engine, rings, cameras and
host-fed streams. -/

namespace Sys2Proof.Machine

/-! ### Streams (R231) -/

/-- A STREAMS record by its index. -/
def State.streamRec (s : State) (i : Nat) : Option Bytes := (s.recs 0xD)[i]?

/-- The engine state of a stream. -/
def State.stream (s : State) (i : Nat) : StreamSt := Sparse.get (fun _ => {}) s.ports.streams i

/-- The state with a stream at a value. -/
def State.setStream (s : State) (i : Nat) (x : StreamSt) : State :=
  { s with ports := { s.ports with streams := Sparse.put (fun _ => {}) s.ports.streams i x } }

/-- Kinds of streams (R231). -/
def streamKind (r : Bytes) : Nat := fieldAt r 1 1

/-- True for a host-fed stream. -/
def streamSim (r : Bytes) : Bool := bit (fieldAt r 3 1) 7

/-- The transmit or check instant of cycle j of a joint stream (R235, R239). -/
def cycleInstant (r : Bytes) (j : Nat) : Nat := fieldAt r 0xC 4 + j * fieldAt r 8 4

/-- The first cycle of a joint stream whose instant, less a lead, lies after a time. -/
def firstCycle (r : Bytes) (lead t : Nat) : Nat :=
  if t + lead < fieldAt r 0xC 4 then 0 else (t + lead - fieldAt r 0xC 4) / max (fieldAt r 8 4) 1 + 1

/-- The indices of the streams of a port of some kinds. -/
def State.portStreams (s : State) (port : Nat) (kinds : List Nat) : List Nat :=
  ((s.recs 0xD).zipIdx.filter (fun p => fieldAt p.1 2 1 == port && kinds.contains (streamKind p.1))).map (·.2)

/-- The mode of a port, 3 acting as OFF (R230). -/
def State.portMode (s : State) (port : Nat) : Nat :=
  if s.fld (Fld.ETH_CTRL_mode port) = 3 then 0 else s.fld (Fld.ETH_CTRL_mode port)

/-- A stream enters its fault (R239, R240): the bit, the event, the last fault, and the report to Crust. -/
def State.faultStream (s : State) (i cause : Nat) : State :=
  match s.streamRec i with
  | none => s
  | some r =>
    let s1 := (s.setFld (Fld.JBUS_STREAM_fault i) 1).event Ev.JBUS_EVT_STATUS_stream_fault
    (s1.setReg Reg.JBUS_FAULT_LAST
      (BitVec.ofNat 32 (i % 256 + 256 * (fieldAt r 2 1 % 16) + 4096 * cause + 65536 * fieldAt r 4 2))).report 0x05 i

/-! ### Frames (R233, R234) -/

/-- The CRC-32C of a joint frame over its header and payload (R233). -/
def jointCrc (f : Bytes) : Nat :=
  let b := frameBody f
  crc32c (slice f b (16 + fieldAt f (b + 6) 2))

/-- True where the CRC-32C stored in a joint frame is right. -/
def jointCrcOk (f : Bytes) : Bool :=
  let b := frameBody f
  fieldAt f (b + 16 + fieldAt f (b + 6) 2) 4 == jointCrc f

/-- A stamp inserted in a joint frame, with the CRC-32C computed again (R226). (log entry 43: DEDUCED in part) -/
def insertStamp (stamp : Nat) (f : Bytes) : Bytes :=
  let b := frameBody f
  let f1 := patch f (b + 8) (leBytes 4 stamp)
  patch f1 (b + 16 + fieldAt f (b + 6) 2) (leBytes 4 (jointCrc f1))

/-- A command frame of a stream for cycle j over its records, the stamp zero (R233, R235).
(log entry 45: DEDUCED in part) -/
def State.commandFrame (s : State) (r : Bytes) (j : Nat) (payload : Bytes) : Bytes :=
  let tag := if bit (fieldAt r 0x23 1) 1 then [0x81, 0x00] ++ slice r 0x2E 2 else []
  let head := [0x01, 0x00] ++ leBytes 2 (fieldAt r 4 2) ++ leBytes 2 j ++ leBytes 2 payload.length ++ List.replicate 8 0
  let body := head ++ payload
  let f := slice r 0x28 6 ++ leBytes 6 (Config.ethMac.toNat + fieldAt r 2 1) ++ tag ++ beBytes 2 s.ports.ethertype ++ body ++
    leBytes 4 (crc32c body)
  f ++ List.replicate (60 - f.length) 0

/-! ### Rings (R241) -/

/-- The address of the ring entry of publication c. (log entry 47: DEDUCED in part) -/
def ringEntry (r : Bytes) (c : Nat) : Nat := fieldAt r 0x18 8 + (c - 1) % max (fieldAt r 0x20 2) 1 * fieldAt r 0x24 4

/-- What the header of a ring entry holds. -/
structure EntryHead where
  tIn : Nat
  stamp : Nat
  counter : Nat
  err : Bool
  truncated : Bool
  own : Bool
  release : Nat
deriving DecidableEq, Repr

/-- The 64-byte header of publication c. (log entry 47: DEDUCED in part) -/
def headBytes (c len : Nat) (truncated : Bool) (h : EntryHead) : Bytes :=
  leBytes 4 (2 * c) ++ leBytes 4 len ++ leBytes 8 h.tIn ++ leBytes 4 h.stamp ++ leBytes 4 h.counter ++
    leBytes 2 (b2n h.err + 2 * b2n truncated + 4 * b2n h.own) ++ List.replicate 6 0 ++ leBytes 8 h.release ++ List.replicate 24 0

/-- A ring entry published: data that do not fit are dropped, the entry is stable with its even seq, and sync_id is
signalled. A ring address that does not translate ends the publication with its fault (R186).
(log entry 47: DEDUCED in part) -/
def State.publishEntry (s : State) (i : Nat) (r : Bytes) (h : EntryHead) (data : Bytes) : State :=
  let c := (s.stream i).pubs + 1
  let room := fieldAt r 0x24 4 - 64
  let kept := data.take room
  let cut := h.truncated || decide (room < data.length)
  match s.writeVa (.engine 0) .engineWrite (fieldAt r 0 1) (ringEntry r c) (headBytes c kept.length cut h ++ kept) with
  | .error e => s.xltFault 0 (fieldAt r 0 1) e.1 e.2
  | .ok t => (t.setStream i { t.stream i with pubs := c }).signalId (fieldAt r 0x30 2) 1

/-! ### Feedback (R238, R239, R350) -/

/-- A record of a feedback frame. -/
def jointRecord (f : Bytes) (n : Nat) : Bytes := slice f (frameBody f + 16 + 16 * n) 16

/-- True where a joint frame belongs to a JBUS_FB stream: kind, version, reserved bytes and stream_id as R238 says, and the source
address and tag of the stream's record (R231). (log entry 46: DEDUCED in part) -/
def feedbackMatch (r f : Bytes) : Bool :=
  let b := frameBody f
  fieldAt f b 1 == 0x11 && allZero (slice f (b + 1) 1) && allZero (slice f (b + 12) 4) &&
    fieldAt r 4 2 == fieldAt f (b + 2) 2 && slice r 0x28 6 == slice f 6 6 &&
    (if bit (fieldAt r 0x23 1) 1 then frameTagged f && slice r 0x2E 2 == slice f 14 2 else !frameTagged f)

/-- True where the payload of a feedback frame has the length of the stream's record (R231) and the reserved bits of its records'
drive states are zero (R10, R234). (log entry 46: DEDUCED in part) -/
def feedbackFormed (r f : Bytes) : Bool :=
  fieldAt f (frameBody f + 6) 2 == 16 * fieldAt r 6 1 && (List.range (fieldAt r 6 1)).all (fun n => fieldAt (jointRecord f n) 1 1 < 8)

/-- The JBUS_FB stream that a joint frame received on a port belongs to; a host-fed stream takes none (R243).
(log entry 46: DEDUCED in part) -/
def State.feedbackStream (s : State) (port : Nat) (f : Bytes) : Option Nat :=
  (s.portStreams port [1]).find? (fun i =>
    let r := (s.streamRec i).getD []
    !streamSim r && feedbackMatch r f)

/-- The advance of a counter from the last one (R238). (log entry 46: DEDUCED in part) -/
def counterStep (last c : Nat) : Nat := (c + 65536 - last % 65536) % 65536

/-- The feedback copy of a joint on a port: position and velocity (R350). -/
def State.feedbackCopy (s : State) (port joint : Nat) : Option (Int × Int) :=
  Sparse.get (fun _ => none) s.crust.feedback (64 * port + joint)

/-- One record of a frame that passed Crust's checks (R350, R356): the feedback copy, and the instant since when the
velocity exceeds the scaled limit. -/
def State.noteFeedback (s : State) (i port vmax n : Nat) (rec' : Bytes) : State :=
  let v := sfieldAt rec' 8 4
  let x := s.stream i
  let fast := decide (vmax ≠ 0) && decide (rshiftRne (vmax * s.fld Fld.CRUST_STATUS_factor : Nat) 15 < v.natAbs)
  let others := x.fast.filter (fun p => p.1 != n)
  let now' := if fast then (x.fast.find? (fun p => p.1 == n)).getD (n, s.now, false) :: others else others
  let copy := Sparse.put (fun _ => none) s.crust.feedback (64 * port + fieldAt rec' 0 1 % 64) (some (sfieldAt rec' 4 4, v))
  { s with crust := { s.crust with feedback := copy } }.setStream i { x with fast := now' }

/-- Crust's own check of a feedback frame of a stream that has a STREAM record (R350). -/
def State.crustFeedback (s : State) (i port ingress : Nat) (f : Bytes) : State :=
  match s.streamSafety i with
  | none => s
  | some sr =>
    let b := frameBody f
    let c := fieldAt f (b + 4) 2
    let d := (s.stream i).crustLast.elim 1 (fun l => counterStep l c)
    let crcOk := jointCrcOk f
    let a := age ingress (fieldAt f (b + 8) 4)
    let inWin := decide (sfieldAt sr 8 4 ≤ a) && decide (a ≤ sfieldAt sr 0xC 4)
    let s1 := if crcOk && decide (1 ≤ d) && decide (d < 32768) then s.setStream i { s.stream i with crustLast := some c } else s
    if crcOk && decide (1 ≤ d) && decide (d ≤ fieldAt sr 4 1 + 1) && inWin then
      (List.range (fieldAt f (b + 6) 2 / 16)).foldl (fun (t : State) n =>
        t.noteFeedback i port (fieldAt sr 0x10 4) n (jointRecord f n)) s1
    else s1.report 0x04 i

/-- The joint-bus engine's treatment of a feedback frame of a stream (R238 from step 2 on).
(log entry 46: DEDUCED in part) -/
def State.acceptFeedback (s : State) (i ingress : Nat) (r f : Bytes) : State :=
  let b := frameBody f
  let c := fieldAt f (b + 4) 2
  let x := s.stream i
  let d := x.last.elim 1 (fun l => counterStep l c)
  if !jointCrcOk f then s.event Ev.JBUS_EVT_STATUS_crc_err
  else if d = 0 ∨ 32768 ≤ d then s.event Ev.JBUS_EVT_STATUS_dup_old
  else
    let s1 := (s.eventTimes Ev.JBUS_EVT_STATUS_gap (d - 1)).setFld (Fld.JBUS_STREAM_counter i) c
    let stamp := fieldAt f (b + 8) 4
    let a := age ingress stamp
    if a < 0 ∨ (fieldAt r 0x10 4 : Int) < a then
      (s1.setStream i { x with last := some c }).event Ev.JBUS_EVT_STATUS_stale
    else
      (s1.setStream i { x with last := some c, accepted := x.accepted ++ [(ingress, stamp)] }).writeDie 0 (fieldAt r 0x14 4)
        (slice f b (16 + fieldAt f (b + 6) 2))

/-- A joint frame at the engine, the stream it belongs to and its ingress stamp (R238); one whose CRC-32C is right and whose payload
is not that of its stream counts as unknown. (log entry 46: DEDUCED in part) -/
def State.jointFrame (s : State) (stream : Option Nat) (port ingress : Nat) (f : Bytes) : State :=
  match stream with
  | none => s.event Ev.JBUS_EVT_STATUS_unknown
  | some i =>
    let r := (s.streamRec i).getD []
    if jointCrcOk f && !feedbackFormed r f then s.event Ev.JBUS_EVT_STATUS_unknown
    else (s.crustFeedback i port ingress f).acceptFeedback i ingress r f

/-- JBUS_FB_RECEIVE (R238): the engine takes the joint frame that has waited longest.
(log entry 46: DEDUCED in part) -/
def execJbusFbReceive (s : State) : Host.Outcome State Fault Refusal :=
  .next (match s.ports.jbusIn with
    | [] => s
    | x :: xs =>
      if s.blkOpen 0 0x26 = false then s
      else { s with ports := { s.ports with jbusIn := xs } }.jointFrame (s.feedbackStream x.port x.frame) x.port x.stamp x.frame)

/-- JBUS_FB_CHECK (R239): the next check instant of a stream has come; its cycle is served or missed.
(log entry 46: DEDUCED in part) -/
def execJbusFbCheck (i : Nat) (s : State) : Host.Outcome State Fault Refusal :=
  .next (match s.streamRec i with
    | none => s
    | some r =>
      let x := s.stream i
      let t := cycleInstant r x.next
      if streamKind r ≠ 1 ∨ s.now < t ∨ s.blkOpen 0 0x26 = false then s
      else
        let chk := t % 2 ^ 32
        let mine := x.accepted.filter (fun p => decide (0 ≤ age chk p.1))
        let served := mine.any (fun p => decide (0 ≤ age chk p.2) && decide (age chk p.2 ≤ (fieldAt r 0x10 4 : Int)))
        let y := { x with next := x.next + 1, accepted := x.accepted.filter (fun p => decide (age chk p.1 < 0))
                          servedRun := if served then x.servedRun + 1 else 0 }
        let misses := if served then 0 else min 255 (s.fld (Fld.JBUS_STREAM_misses i) + 1)
        let s1 := ((s.setStream i y).setFld (Fld.JBUS_STREAM_served i) (b2n served)).setFld (Fld.JBUS_STREAM_misses i) misses
        let s2 := s1.eventIf (!served) Ev.JBUS_EVT_STATUS_miss
        if !served && decide (fieldAt r 7 1 ≤ misses) && !s.flag (Fld.JBUS_STREAM_fault i) then s2.faultStream i 0 else s2)

/-- A write of JBUS_CLR (R239): the fault of a stream is cleared after miss_limit served cycles in a row.
(log entry 46: DEDUCED in part) -/
def State.writeJbusClr (s : State) (v : Nat) : State :=
  let i := bits v 0 8
  let s1 := s.setFld Fld.JBUS_CLR_stream i
  match s.streamRec i with
  | none => s1
  | some r => if bit v 8 && decide (fieldAt r 7 1 ≤ (s.stream i).servedRun) then s1.setFld (Fld.JBUS_STREAM_fault i) 0 else s1

/-- JBUS_CLEAR (R239): the write of JBUS_CLR with clear = 1. -/
def execJbusClear (who : Requester) (i : Nat) (s : State) : Host.Outcome State Fault Refusal :=
  .next (s.busWrite who 0 0x26 false (fun s => s.writeJbusClr (i % 256 + 256)))

/-! ### Ports (R223, R230, R240) -/

/-- The ETH_IN stream of a frame on a SENSOR port: source address and tag (R230, R231); PTP frames are no stream's.
(log entry 47: DEDUCED in part) -/
def State.sensorStream (s : State) (port : Nat) (f : Bytes) : Option Nat :=
  if s.portMode port ≠ 2 ∨ frameType f = 0x88F7 then none
  else
    (s.portStreams port [2]).find? (fun i =>
      let r := (s.streamRec i).getD []
      !streamSim r && slice r 0x28 6 == slice f 6 6 &&
        (if bit (fieldAt r 0x23 1) 1 then frameTagged f && slice r 0x2E 2 == slice f 14 2 else !frameTagged f))

/-- ETH_FRAME_RECEIVE (R223): a frame (without its FCS) whose stamp point crossed the MDI `ago` periods of 0.4 ns ago. The
port stamps it, notes a PTP event message, and delivers the frame with its stamp to the joint-bus engine, to the ring of its
stream, or to firmware (R230). (log entry 47: DEDUCED in part) -/
def execEthFrameReceive (port ago : Nat) (frame : Bytes) (s : State) : Host.Outcome State Fault Refusal :=
  .next (
    if 12 ≤ port ∨ s.blkOpen 0 0x24 = false ∨ s.portMode port = 0 ∨ s.flag (Fld.ETH_STATUS_link_up port) = false then s
    else
      let t := s.ingressTime port (s.capture ago)
      let s1 := s.notePtp port false t frame
      let x : RxFrame := ⟨port, stampOf t, frame⟩
      if s.portMode port = 1 ∧ frameType frame = s.ports.ethertype then
        { s1 with ports := { s1.ports with jbusIn := s1.ports.jbusIn ++ [x] } }
      else
        match s1.sensorStream port frame with
        | none => { s1 with ports := { s1.ports with fwIn := s1.ports.fwIn ++ [x] } }
        | some i => s1.publishEntry i ((s1.streamRec i).getD []) ⟨ofSigned 64 (t / 65536), 0, 0, false, false, false, 0⟩ frame)

/-- The rate of a port in Gb/s × 2 (R230). -/
def State.portRate2 (s : State) (port : Nat) : Nat := [20, 10, 5, 2].getD (s.fld (Fld.ETH_STATUS_speed port)) 20

/-- The time of a frame of `n` bytes without FCS on the wire, with preamble and FCS, in ns rounded up.
(log entry 43: DEDUCED in part; log entry 45: DEDUCED in part) -/
def State.frameNs (s : State) (port n : Nat) : Nat := ceilDiv (16 * (n + 12)) (s.portRate2 port)

/-- True where a frame on a JOINT port would leave later than 100 ns before a scheduled transmit instant, ahead or reached with the
command frame still waiting (R236).
(log entry 45: DEDUCED in part) -/
def State.guarded (s : State) (port n : Nat) : Bool :=
  s.portMode port == 1 && (s.portStreams port [0]).any (fun i =>
    let r := (s.streamRec i).getD []
    !streamSim r && (decide (cycleInstant r (firstCycle r 0 s.now) < s.now + s.frameNs port n + 100) ||
      (s.stream i).built.any (fun b => decide (cycleInstant r b.1 < s.now + s.frameNs port n + 100))))

/-- A frame put on the wire of a port. (log entry 43: DEDUCED in part) -/
def State.sendFrame (s : State) (port : Nat) (f : Bytes) (ok : Bool) : State :=
  { s with ports := { s.ports with sent := s.ports.sent ++ [⟨port, f, ok⟩] } }

/-- ETH_FRAME_TRANSMIT (R223): a frame of firmware leaves a port, its stamp point `ago` periods of 0.4 ns ago; one that the
guard of R236 holds back does not start. (log entry 43: DEDUCED in part) -/
def execEthFrameTransmit (port ago : Nat) (frame : Bytes) (s : State) : Host.Outcome State Fault Refusal :=
  .next (
    if 12 ≤ port ∨ s.blkOpen 0 0x24 = false ∨ s.portMode port = 0 ∨ s.flag (Fld.ETH_STATUS_link_up port) = false ∨
        s.guarded port frame.length = true then s
    else
      let t := s.egressTime port (s.capture ago)
      let s1 := s.notePtp port true t frame
      s1.sendFrame port (if s.completesSync port frame then oneStepSync t frame else frame) true)

/-- True where STREAMS names an Ethernet port, so that the layout fixes its mode (R230). -/
def State.portNamed (s : State) (port : Nat) : Bool := !(s.portStreams port [0, 1, 2]).isEmpty

/-- A port at a mode: an OFF port has no link and no cable diagnostic (R230, R445). -/
def State.setPortMode (s : State) (port m : Nat) : State :=
  let s1 := s.setFld (Fld.ETH_CTRL_mode port) m
  if m = 0 ∨ m = 3 then
    ((s1.setFld (Fld.ETH_STATUS_link_up port) 0).setFld (Fld.ETH_PAIR_cond port) 4 |>.setFld (Fld.ETH_PAIR_distance port) 0).setFld
      (Fld.ETH_STATUS_pair_fault port) 0
  else s1

/-- A write of ETH_k_CTRL (R230). -/
def State.writeEthCtrl (s : State) (port v : Nat) : State :=
  let s1 := (s.setFld (Fld.ETH_CTRL_speed port) (bits v 2 2)).setFld (Fld.ETH_CTRL_phy_master port) (bits v 4 1)
  if s.portNamed port || (decide (8 ≤ port) && bits v 0 2 == 1) then s1 else s1.setPortMode port (bits v 0 2)

/-- ETH_CTRL_WRITE (R230). -/
def execEthCtrlWrite (who : Requester) (port value : Nat) (s : State) : Host.Outcome State Fault Refusal :=
  .next (s.busWrite who 0 0x24 false (fun s => if port < 12 then s.writeEthCtrl port value else s))

/-- ETH_LINK_DOWN (R240): a port loses its link. On a JOINT port every stream that is not in fault faults, each with its
report to Crust; where none is left to fault, the loss is reported for the port's first stream.
(log entry 46: DEDUCED in part) -/
def execEthLinkDown (port : Nat) (s : State) : Host.Outcome State Fault Refusal :=
  .next (
    if s.flag (Fld.ETH_STATUS_link_up port) = false then s
    else
      let s1 := s.setFld (Fld.ETH_STATUS_link_up port) 0
      if s.portMode port = 1 then
        let mine := (s.portStreams port [0, 1]).filter (fun i => !streamSim ((s.streamRec i).getD []))
        let fresh := mine.filter (fun i => !s.flag (Fld.JBUS_STREAM_fault i))
        let s2 := mine.foldl (fun (a : State) i => a.setStream i { a.stream i with servedRun := 0 })
          (s1.event Ev.JBUS_EVT_STATUS_link_down)
        if fresh.isEmpty then s2.report 0x05 (mine.headD ((s.portStreams port [0, 1]).headD 0xFF))
        else fresh.foldl (fun (a : State) i => a.faultStream i 1) s2
      else s1)

/-- ETH_LINK_UP (R238): a port that is not OFF gets its link, at a speed and with or without a swapped pair; its next
feedback frames are accepted whatever their counters. (log entry 46: DEDUCED in part) -/
def execEthLinkUp (port speed : Nat) (swapped : Bool) (s : State) : Host.Outcome State Fault Refusal :=
  .next (
    if 12 ≤ port ∨ s.portMode port = 0 then s
    else
      let s1 := (s.setFld (Fld.ETH_STATUS_link_up port) 1).setFld (Fld.ETH_STATUS_speed port)
        (if 8 ≤ port then 3 else if speed = 3 then 0 else speed)
      let s2 := s1.setFld (Fld.ETH_PAIR_polarity_rev port) (b2n swapped)
      (s.portStreams port [1]).foldl (fun (a : State) i => a.setStream i { a.stream i with last := none, crustLast := none }) s2)

/-! ### Commands (R226, R235, R338, R350) -/

/-- True where cycle j of a JBUS_CMD stream is delivered (R338): every slot that writes into it and is due in the pass
before has completed that pass with its lockstep comparison passed, and was not in FAULT when the pass began.
(log entry 45: DEDUCED in part) -/
def State.delivered (s : State) (i j : Nat) : Bool :=
  match s.streamRec i with
  | none => false
  | some r =>
    (s.recs 0xB).all (fun l =>
      if fieldAt l 0x28 1 ≠ i then true
      else
        let p := max (fieldAt l 4 4) 1
        let t := cycleInstant r j
        if t < fieldAt l 8 4 then true
        else
          let n := (t - fieldAt l 8 4) / p
          n % max (fieldAt l 0xC 1) 1 != 0 ||
            (Sparse.get (fun _ => ({} : LoopSlot)) s.loops.slots (128 * fieldAt l 1 1 + fieldAt l 2 1)).done == some n)

/-- The records of a stream as its buffer holds them. -/
def State.bufferRecords (s : State) (r : Bytes) : Bytes := s.readDie 0 (fieldAt r 0x14 4 + 16) (16 * fieldAt r 6 1)

/-- JBUS_CMD_BUILD (R235): 2,000 ns before the transmit instant of its next cycle, the engine builds the frame of a
stream, or finds the cycle not delivered, transmits nothing and reports it. A stream that the fallback unit serves is
built by FALLBACK_BUILD. (log entry 45: DEDUCED in part) -/
def execJbusCmdBuild (i : Nat) (s : State) : Host.Outcome State Fault Refusal :=
  .next (match s.streamRec i with
    | none => s
    | some r =>
      let x := s.stream i
      if streamKind r ≠ 0 ∨ s.blkOpen 0 0x26 = false ∨ x.takeover.isSome ∨ s.now + 2000 < cycleInstant r x.next then s
      else if s.delivered i x.next then
        let f := s.commandFrame r (x.next % 65536) (s.bufferRecords r)
        s.setStream i { x with built := some (x.next, f, false), next := x.next + 1 }
      else
        let s1 := (s.setStream i { x with next := x.next + 1, missed := some x.next }).event Ev.JBUS_EVT_STATUS_cmd_late
        (s1.setReg Reg.JBUS_FAULT_LAST (BitVec.ofNat 32 (i % 256 + 256 * (fieldAt r 2 1 % 16) + 4096 * 2 + 65536 * fieldAt r 4 2))
          ).report 0x01 i)

/-- Crust's check of a departing frame (R350): the age of its egress stamp at the transmit instant.
(log entry 45: DEDUCED in part) -/
def State.crustCommand (s : State) (i stamp t : Nat) (crcOk : Bool) : State :=
  match s.streamSafety i with
  | none => s
  | some sr =>
    let a := age stamp (t % 2 ^ 32)
    if crcOk && decide (sfieldAt sr 8 4 ≤ a) && decide (a ≤ sfieldAt sr 0xC 4) then s else s.report 0x04 i

/-- Crust's comparison of a departing substitute's records with those that it formed itself; a difference raises SELFTEST (R373).
(log entry 59: DEDUCED in part) -/
def State.checkSubstitute (s : State) (i : Nat) (f : Bytes) : State :=
  if slice f (frameBody f + 16) (fieldAt f (frameBody f + 6) 2) = (s.stream i).formed then s else s.report 0x11 0

/-- A substitute frame that departs: it is compared, and a stop that awaits it goes on (R354, R373). -/
def State.substituteDeparts (s : State) (i : Nat) (f : Bytes) : State := (s.checkSubstitute i f).substituteLeft i

/-- The joints of a frame's records, in order. -/
def frameJoints (f : Bytes) : List Nat :=
  (List.range (fieldAt f (frameBody f + 6) 2 / 16)).map (fun n => fieldAt (jointRecord f n) 0 1)

/-- JBUS_CMD_TRANSMIT (R226, R236): the built frame of a stream leaves at its transmit instant, with its egress stamp
inserted; one that was corrupted on the way to the port leaves with an inverted FCS. A host-fed stream writes its frame
into its ring, stamped with the transmit instant (R243); a port without link sends nothing.
(log entry 45: DEDUCED in part) -/
def execJbusCmdTransmit (i ago : Nat) (corrupt : Bool) (s : State) : Host.Outcome State Fault Refusal :=
  .next (match s.streamRec i, (s.stream i).built with
    | some r, some (j, f, sub) =>
      let t := cycleInstant r j
      let x := s.stream i
      let port := fieldAt r 2 1
      if s.now < t then s
      else
        let s1 := s.setStream i { x with built := none, left := some j, joints := frameJoints f }
        if streamSim r then
          let g := insertStamp (t % 2 ^ 32) f
          let s2 := (s1.setFld (Fld.JBUS_STREAM_counter i) (j % 65536)).publishEntry i r ⟨t, t % 2 ^ 32, j % 65536, false, false, false, 0⟩ g
          let s3 := s2.crustCommand i (t % 2 ^ 32) t true
          if sub then s3.substituteDeparts i f else s3
        else if s.flag (Fld.ETH_STATUS_link_up port) = false then s.setStream i { x with built := none }
        else
          let stamp := stampOf (s.egressTime port (s.capture ago))
          let s2 :=
            if corrupt then ((s1.sendFrame port f false).event Ev.TIME_EVT_STATUS_insert_err).report 0x01 i
            else (s1.sendFrame port (insertStamp stamp f) true).setFld (Fld.JBUS_STREAM_counter i) (j % 65536)
          let s3 := s2.crustCommand i stamp t (!corrupt)
          if sub then s3.substituteDeparts i f else s3
    | _, _ => s)

/-! ### Cameras (R227, R242) -/

/-- The data types a CSI-2 receiver accepts: RAW8, RAW10, RAW12, RAW16, YUV422 8-bit and RGB888 (R242).
(log entry 47: PRESUMED in part) -/
def csiTypes : List Nat := [0x2A, 0x2B, 0x2C, 0x2E, 0x1E, 0x24]

/-- The CSI_IN stream of a port, a virtual channel and a data type. (log entry 47: DEDUCED in part) -/
def State.cameraStream (s : State) (port vc dt : Nat) : Option Nat :=
  if csiTypes.contains dt = false then none
  else
    (s.portStreams port [3]).find? (fun i =>
      let r := (s.streamRec i).getD []
      !streamSim r && bits (fieldAt r 3 1) 0 4 == vc && fieldAt r 0x22 1 == dt)

/-- Crust's check of a camera entry (R350). (log entry 47: DEDUCED in part) -/
def State.crustCamera (s : State) (i number tIn stamp : Nat) : State :=
  match s.streamSafety i with
  | none => s
  | some sr =>
    let d := (s.stream i).crustLast.elim 1 (fun l => counterStep l number)
    let a := age (tIn % 2 ^ 32) stamp
    let s1 := s.setStream i { s.stream i with crustLast := some (number % 65536) }
    if decide (1 ≤ d) && decide (d ≤ fieldAt sr 4 1 + 1) && decide (sfieldAt sr 8 4 ≤ a) && decide (a ≤ sfieldAt sr 0xC 4)
    then s1 else s1.report 0x04 i

/-- The exposure stamp of a camera frame (R227): its capture, in units of 2^-16 ns, less the offset of the port and channel.
(log entry 43: DEDUCED in part) -/
def State.exposureStamp (s : State) (port vc : Nat) (capture : Int) : Nat :=
  stampOf (capture - toSigned 32 (s.fld (Fld.TIME_CSI_OFS_ns port vc)) * 65536)

/-- The stamp of the last exposure on a virtual channel recorded, whatever stamp its stream uses (R227).
(log entry 47: DEDUCED in part) -/
def State.noteExposure (s : State) (port vc stamp : Nat) : State :=
  { s with ports := { s.ports with exposure := Sparse.put (fun _ => 0) s.ports.exposure (4 * port + vc) stamp } }

/-- The camera frame in progress on a virtual channel. -/
def State.camFrame (s : State) (port vc : Nat) : Option CamFrame := Sparse.get (fun _ => none) s.ports.cams (4 * port + vc)

/-- The state with a virtual channel's frame in progress at a value, and vc_busy with it. -/
def State.setCam (s : State) (port vc : Nat) (x : Option CamFrame) : State :=
  let s1 := { s with ports := { s.ports with cams := Sparse.put (fun _ => none) s.ports.cams (4 * port + vc) x } }
  s1.setFld (Fld.CSI_STATUS_vc_busy port) (setBits (s1.fld (Fld.CSI_STATUS_vc_busy port)) vc 1 (b2n x.isSome))

/-- The entry of a camera stream: its flags, its stamp (the sensor's own one under own_stamp) and Crust's check.
(log entry 47: DEDUCED in part) -/
def State.publishCamera (s : State) (i tIn number exposure own release : Nat) (err cut : Bool) (data : Bytes) : State :=
  let r := (s.streamRec i).getD []
  let isOwn := bit (fieldAt r 0x23 1) 0
  let stamp := if isOwn then own % 2 ^ 32 else exposure
  (s.publishEntry i r ⟨tIn, stamp, number % 65536, err, cut, isOwn, release⟩ data).crustCamera i number tIn stamp

/-- The events of a camera frame that ends: published with err, published truncated, and the count of frames.
(log entry 47: DEDUCED in part) -/
def State.cameraEvents (s : State) (port : Nat) (err cut : Bool) : State :=
  let s1 := (s.eventIf err Ev.CSI_EVT_STATUS_crc_err).eventIf cut Ev.CSI_EVT_STATUS_truncated
  s1.setFld (Fld.CSI_STATUS_frames port) (s1.fld (Fld.CSI_STATUS_frames port) + 1)

/-- The CSI_IN streams of a virtual channel. (log entry 47: DEDUCED in part) -/
def State.channelStreams (s : State) (port vc : Nat) : List Nat :=
  (s.portStreams port [3]).filter (fun i =>
    let r := (s.streamRec i).getD []
    !streamSim r && bits (fieldAt r 3 1) 0 4 == vc)

/-- The entries of a camera frame: one for each stream it brought data for; where no packet of it had a header that could be read,
an empty one for each stream of its channel. (log entry 47: DEDUCED in part) -/
def State.cameraEntries (s : State) (port vc : Nat) (x : CamFrame) : List (Nat × Bytes) :=
  if x.err && x.data.isEmpty then (s.channelStreams port vc).map (fun i => (i, []))
  else x.data.filterMap (fun p => (s.cameraStream port vc p.1).map (fun i => (i, p.2)))

/-- A camera frame that ends, with a frame end or at the next frame start: its entries are published.
(log entry 47: DEDUCED in part) -/
def State.endCamera (s : State) (port vc : Nat) (cut : Bool) : State :=
  match s.camFrame port vc with
  | none => s
  | some x =>
    let t := s.setCam port vc none
    let es := s.cameraEntries port vc x
    es.foldl (fun (a : State) p =>
      a.publishCamera p.1 (ofSigned 64 (x.capture / 65536)) x.number x.exposure x.own 0 x.err cut p.2)
      (t.cameraEvents port (x.err && !es.isEmpty) (cut && !es.isEmpty))

/-- A packet's payload added to the data of its type. -/
def CamFrame.add (x : CamFrame) (dt : Nat) (bs : Bytes) (err : Bool) : CamFrame :=
  { x with
    err := x.err || err
    data := if x.data.any (fun p => p.1 == dt) then x.data.map (fun p => if p.1 = dt then (dt, p.2 ++ bs) else p)
      else x.data ++ [(dt, bs)] }

/-- A frame start: it ends the frame before it and is stamped (R227, R242). (log entry 47: DEDUCED in part) -/
def State.csiStart (s : State) (port vc number ago own : Nat) : State :=
  let c := s.capture ago
  let stamp := s.exposureStamp port vc c
  ((s.endCamera port vc true).setCam port vc (some ⟨number, c, stamp, own, false, []⟩)).noteExposure port vc stamp

/-- A packet of a data type (R242): one that no stream takes is unmatched, and a CRC error marks its frame.
(log entry 47: DEDUCED in part) -/
def State.csiPayload (s : State) (port vc dt : Nat) (bs : Bytes) (crcOk : Bool) : State :=
  if (s.cameraStream port vc dt).isNone then s.event Ev.CSI_EVT_STATUS_unmatched
  else (s.camFrame port vc).elim s (fun x => s.setCam port vc (some (x.add dt bs (!crcOk))))

/-- CSI_FRAME_RECEIVE (R227, R242): a packet of a frame on a virtual channel of a receiver that is enabled; a single-bit error of
its header is corrected and counted, whatever the packet is.
(log entry 47: DEDUCED in part) -/
def execCsiFrameReceive (port vc : Nat) (kind : CsiKind) (number ago ownStamp dt : Nat) (data : Bytes) (hdrCorr crcOk : Bool)
    (s : State) : Host.Outcome State Fault Refusal :=
  .next (
    if 4 ≤ port ∨ 4 ≤ vc ∨ s.blkOpen 0 0x25 = false ∨ s.flag (Fld.CSI_CTRL_en port) = false ∨ s.fld (Fld.CSI_CTRL_lanes port) = 3 then s
    else
      let s1 := s.eventIf (hdrCorr && kind != .badHeader) Ev.CSI_EVT_STATUS_hdr_corr
      match kind with
      | .start => s1.csiStart port vc number ago ownStamp
      | .packet => s1.csiPayload port vc dt data crcOk
      | .badHeader => (s1.camFrame port vc).elim s1 (fun x => s1.setCam port vc (some { x with err := true }))
      | .finish => s1.endCamera port vc false)

/-! ### Host-fed streams (R243) -/

/-- The device time at which a host-fed entry is taken, in units of 2^-16 ns (R243): its release time, or now where that
passed more than an RX_ETH cycle ago. (log entry 47: DEDUCED in part) -/
def State.simTime (s : State) (release : Nat) : Int :=
  if s.now < release + 4 then release * 65536 else (s.devTime * 65536 / 80000000000 : Nat)

/-- A pending entry of a host-fed input stream processed as a frame received at its time, and published (R243): what its length
counts beyond the entry is dropped, and marked truncated (R241); a frame without the Ethertype is not the joint-bus engine's
(R238). (log entry 47: DEDUCED in part) -/
def State.simEntry (s : State) (i : Nat) (r e : Bytes) : State :=
  let room := fieldAt r 0x24 4 - 64
  let long := decide (room < fieldAt e 4 4)
  let data := slice e 0x40 (min (fieldAt e 4 4) room)
  let release := fieldAt e 0x20 8
  let t := s.simTime release
  let ns := (t / 65536).toNat
  let b := frameBody data
  if streamKind r = 1 then
    let s1 := s.publishEntry i r ⟨ns, fieldAt data (b + 8) 4, fieldAt data (b + 4) 2, false, long, false, release⟩ data
    if frameType data = s.ports.ethertype then
      s1.jointFrame (if feedbackMatch r data then some i else none) (fieldAt r 2 1) (stampOf t) data
    else s1
  else if streamKind r = 3 then
    let err := bit (fieldAt e 0x18 2) 0
    let cut := bit (fieldAt e 0x18 2) 1
    let port := fieldAt r 2 1
    let vc := bits (fieldAt r 3 1) 0 4
    let stamp := s.exposureStamp port vc t
    ((s.cameraEvents port err cut).noteExposure port vc stamp).publishCamera i ns (fieldAt e 0x14 4) stamp (fieldAt e 0x10 4)
      release err (cut || long) data
  else s.publishEntry i r ⟨ns, 0, 0, false, long, false, release⟩ data

/-- SIM_ENTRY_RELEASE (R243): the next pending entry of a host-fed input stream is taken once its release time has
come. (log entry 47: DEDUCED in part) -/
def execSimEntryRelease (i : Nat) (s : State) : Host.Outcome State Fault Refusal :=
  .next (match s.streamRec i with
    | none => s
    | some r =>
      if streamSim r = false ∨ streamKind r = 0 ∨ s.blkOpen 0 0x26 = false then s
      else
        let ctx := fieldAt r 0 1
        let c := (s.stream i).pubs + 1
        let va := ringEntry r c
        match s.readVa (.engine 0) ctx va (fieldAt r 0x24 4) with
        | .error e => s.xltFault 0 ctx e.1 e.2
        | .ok e =>
          if fieldAt e 0 4 ≠ 1 ∨ s.now < fieldAt e 0x20 8 then s
          else s.simEntry i r e)

end Sys2Proof.Machine
end

