-- ==== Sys2Proof/Machine/Loops.lean ====
section
/-! DEFINITION. The loop engines (chapter 18): sources, the filter chain, the PID law, modes, faults and passes. -/

namespace Sys2Proof.Machine

/-! ### Slots and records (R319, R321) -/

/-- A slot by its global number. -/
def State.loopSlot (s : State) (n : Nat) : LoopSlot := Sparse.get (fun _ => {}) s.loops.slots n

/-- LOOP_SLOT_n as the slot stands. -/
def slotWord (x : LoopSlot) : Word :=
  BitVec.ofNat 32 (x.mode + 4 + 8 * b2n (x.mode == 3 && x.feCause) + 16 * min x.timer 4095 + 65536 * ofSigned 16 x.u)

/-- The state with a configured slot at a value, and its register. -/
def State.setLoopSlot (s : State) (n : Nat) (x : LoopSlot) : State :=
  { s with loops := { s.loops with slots := Sparse.put (fun _ => {}) s.loops.slots n x } }.setReg (Reg.LOOP_SLOT n) (slotWord x)

/-- The global slot number of a LOOPS record. -/
def loopNumber (r : Bytes) : Nat := 128 * fieldAt r 1 1 + fieldAt r 2 1

/-- The LOOPS record of a slot. -/
def State.loopRec (s : State) (n : Nat) : Option Bytes := (s.recs 0xB).find? (fun r => loopNumber r == n)

/-- The LOOPS records of an engine in ascending slot number. (log entry 58: DEDUCED in part) -/
def State.engineLoops (s : State) (e : Nat) : List Bytes :=
  (List.range 128).filterMap (fun k => s.loopRec (128 * e + k))

/-- A slot with its section states, filtered error, integrator and timer cleared, in OFF (R330, R336, R341). -/
def LoopSlot.cleared (x : LoopSlot) : LoopSlot :=
  { x with mode := 0, sections := [], efPrev := 0, integ := 0, timer := 0, u := 0 }

/-! ### Held slots (R336) -/

/-- True where the fallback unit serves a stream of a group, and its takeover instant has come by a time.
(log entry 58: DEDUCED in part) -/
def State.groupHeld (s : State) (g t : Nat) : Bool :=
  (List.range (s.recs 0xD).length).any (fun i =>
    s.streamGroup i == some g && (s.stream i).takeover.elim false (fun t0 => decide (t0 ≤ t)))

/-- The held slots that are in MANUAL or AUTO go to OFF, and wait for OFF after the handback.
(log entry 58: DEDUCED in part) -/
def State.holdSlots (s : State) (g t : Nat) : State :=
  if s.groupHeld g t then
    (s.recs 0xB).foldl (fun (a : State) r =>
      if fieldAt r 0xF 1 = g then
        let x := a.loopSlot (loopNumber r)
        a.setLoopSlot (loopNumber r) (if x.mode = 3 then { x with rearm := true } else { x.cleared with rearm := true })
      else a) s
  else s

/-! ### Sources (R322) -/

/-- The raw value of a source descriptor. -/
def State.loopSource (s : State) (src : Bytes) : Int :=
  let kind := fieldAt src 0 1
  let sel := fieldAt src 1 1
  let idx := fieldAt src 2 2
  if kind = 1 then toSigned 32 (leNat (s.readDie 0 (fieldAt src 4 4) 4))
  else if kind = 2 then
    let r := (s.streamRec (idx % 256)).getD []
    toSigned 32 (leNat (s.readDie 0 (fieldAt r 0x14 4 + 16 + 16 * (idx / 256) + 4 + 4 * sel) 4))
  else if kind = 3 then (s.loopSlot idx).c
  else 0

/-- The feedback streams of a record's sources. -/
def loopFeedback (r : Bytes) : List Nat :=
  ([slice r 0x10 8, slice r 0x18 8, slice r 0x20 8].filter (fun d => fieldAt d 0 1 == 2)).map (fun d => fieldAt d 2 2 % 256)

/-! ### Arithmetic of one evaluation (R324 to R329) -/

/-- A clamp to INT16 and whether it changed the value. -/
def sat16 (v : Int) : Int × Bool := satTo .int16 false v

/-- A clamp to ACC40 and whether it changed the value. -/
def sat40 (v : Int) : Int × Bool := satTo .acc40 false v

/-- The filter chain (R325): its output, the shifted states and the number of saturations. -/
def filterChain : List (Bytes × (Int × Int × Int × Int)) → Int → Int × List (Int × Int × Int × Int) × Nat
  | [], x => (x, [], 0)
  | (c, (x1, x2, y1, y2)) :: rest, x =>
    let acc := sfieldAt c 0 2 * x + sfieldAt c 2 2 * x1 + sfieldAt c 4 2 * x2 - sfieldAt c 6 2 * y1 - sfieldAt c 8 2 * y2
    let out := sat16 (rshiftRne acc (15 - (fieldAt c 0xA 1 : Int)))
    let more := filterChain rest out.1
    (more.1, (x, x1, out.1, y1) :: more.2.1, more.2.2 + b2n out.2)

/-- The sections of a record with the states of a slot. -/
def loopChain (r : Bytes) (x : LoopSlot) : List (Bytes × (Int × Int × Int × Int)) :=
  (List.range (fieldAt r 0xD 1)).map (fun i => (slice r (0x60 + 12 * i) 12, x.sections.getD i (0, 0, 0, 0)))

/-- What one evaluation yields beside the slot: the following error, the status flags, and the events counted. -/
structure LoopEval where
  slot : LoopSlot
  d : Int
  limited : Bool := false
  awHold : Bool := false
  bump : Bool := false
  sats : Nat := 0
deriving DecidableEq, Repr

/-- The MANUAL output (R330). -/
def manualOut (r : Bytes) (uMan : Int) : Int := min (max uMan (sfieldAt r 0x4C 2)) (sfieldAt r 0x4E 2)

/-- The AUTO law over a filtered error (R327, R328, R331). `entry` is set in the evaluation that enters AUTO. -/
def autoLaw (r : Bytes) (x : LoopSlot) (entry : Bool) (uMan ef fq d : Int) (sats : Nat) : LoopEval :=
  let sg : Int := (2 : Int) ^ fieldAt r 0x37 1
  let lim := sfieldAt r 0x50 8
  let p := sfieldAt r 0x44 2 * ef * sg
  let dd := sfieldAt r 0x48 2 * (ef - x.efPrev) * sg
  let preset := manualOut r uMan * 32768 - p - dd - fq * 32768
  let i0 := if entry then clampI (-lim) lim preset else x.integ
  let a1 := sat40 (p + i0)
  let a2 := sat40 (a1.1 + dd)
  let a3 := sat40 (a2.1 + fq * 32768)
  let uRaw := rshiftRne a3.1 15
  let lo := sfieldAt r 0x4C 2
  let hi := sfieldAt r 0x4E 2
  let u := min (max uRaw lo) hi
  let di := sfieldAt r 0x46 2 * ef * sg
  let hold := !entry && (decide (hi < uRaw ∧ 0 < di) || decide (uRaw < lo ∧ di < 0))
  let i1 := if entry || hold then i0 else clampI (-lim) lim (i0 + di)
  let clamps := b2n a1.2 + b2n a2.2 + b2n a3.2
  { slot := { x with integ := i1, efPrev := ef, u := u }
    d := d
    limited := decide (u ≠ uRaw)
    awHold := hold
    bump := entry && (decide (i0 ≠ preset) || decide (0 < clamps))
    sats := sats + clamps }

/-- One evaluation in a mode that is not FAULT (R324 to R332), before the command value.
(log entry 57: DEDUCED in part) -/
def evalMode (r : Bytes) (x : LoopSlot) (mode : Nat) (uMan rv yv fv : Int) : LoopEval :=
  let d := rv - yv
  let e := sat16 (rshiftRne (d * sfieldAt r 0x34 2) (fieldAt r 0x36 1 : Int))
  let fq := sat16 (rshiftRne (fv * sfieldAt r 0x38 2) (fieldAt r 0x3A 1 : Int))
  let sats := b2n e.2 + b2n fq.2
  if mode = 0 then { slot := x.cleared, d := d, sats := sats }
  else
    let ch := filterChain (loopChain r x) e.1
    let y := { x with sections := ch.2.1, mode := mode }
    if mode = 1 then
      { slot := { y with efPrev := ch.1, timer := 0, u := manualOut r uMan }, d := d, sats := sats + ch.2.2 }
    else
      let a := autoLaw r y (x.mode != 2) uMan ch.1 fq.1 d (sats + ch.2.2)
      { a with slot := { a.slot with timer := if decide (sfieldAt r 0x58 4 < (d.natAbs : Int)) then x.timer + 1 else 0 } }

/-- The evaluations in a row that make a following error a fault (R332). (log entry 57: DEDUCED in part) -/
def faultCount (r : Bytes) : Nat := ceilDiv (fieldAt r 0x5C 4) (max (fieldAt r 0xC 1 * fieldAt r 4 4) 1)

/-! ### Command records and status blocks (R323, R329) -/

/-- True where some slot writes a field of a record of a stream. -/
def State.fieldWritten (s : State) (stream rec' field : Nat) : Bool :=
  (s.recs 0xB).any (fun r => fieldAt r 0x28 1 == stream && fieldAt r 0x29 1 == rec' && fieldAt r 0x2A 1 == field)

/-- The command value of a slot and the bytes of its record written (R329). -/
def State.writeCommand (s : State) (r : Bytes) (mode : Nat) (c : Int) : State :=
  let st := fieldAt r 0x28 1
  let n := fieldAt r 0x29 1
  let base := fieldAt ((s.streamRec st).getD []) 0x14 4 + 16 + 16 * n
  let s1 := s.writeDie 0 (base + 4 + 4 * fieldAt r 0x2A 1) (leBytes 4 (ofSigned 32 c))
  if bit (fieldAt r 3 1) 0 then
    let s2 := (s1.writeDie 0 base [BitVec.ofNat 8 (fieldAt r 0x2B 1), BitVec.ofNat 8 (if mode = 0 then 0 else fieldAt r 0x3B 1), 0, 0]).writeDie 0
      (base + 0xC) (slice r 0x42 2 ++ [0, 0])
    [0, 1].foldl (fun (a : State) f => if a.fieldWritten st n f then a else a.writeDie 0 (base + 4 + 4 * f) [0, 0, 0, 0]) s2
  else s1

/-- The 32-byte status block of an evaluation (R323). (log entry 57: DEDUCED in part) -/
def statusBlock (j : Nat) (e : LoopEval) (stale : Bool) (c : Int) : Bytes :=
  leBytes 8 j ++ leBytes 1 e.slot.mode ++ leBytes 1 (b2n e.limited + 2 * b2n e.awHold + 4 * b2n stale + 8 * b2n e.bump) ++
    leBytes 2 (ofSigned 16 e.slot.u) ++ leBytes 4 (ofSigned 32 (sat32 e.d).1) ++ leBytes 8 (ofSigned 64 e.slot.integ) ++
    leBytes 4 (ofSigned 32 c) ++ List.replicate 4 0

/-! ### Faults (R334, R335) -/

/-- The last fault or mismatch of a slot recorded, and reported to Crust. (log entry 57: DEDUCED in part) -/
def State.loopFault (s : State) (n group code event : Nat) : State :=
  (s.setReg Reg.LOOP_FAULT_LAST (BitVec.ofNat 32 (n % 512 + 512 * (group % 4) + 65536 * code))).report event n

/-- A pending LOOP_CLR acts at the slot's evaluation (R335): a slot in FAULT enters OFF where safe torque off is asserted
on its group. (log entry 57: DEDUCED in part) -/
def State.loopClear (s : State) (n group : Nat) : State :=
  if s.flag Fld.LOOP_CLR_clear && s.fld Fld.LOOP_CLR_slot == n then
    let s1 := s.setFld Fld.LOOP_CLR_clear 0
    let x := s1.loopSlot n
    if s1.asserted group then
      if x.mode = 3 then s1.setLoopSlot n x.cleared else s1
    else s1.event Ev.LOOP_EVT_STATUS_clr_reject
  else s

/-- The mode of an evaluation (R323, R330, R335, R336): the request of a good control block, unless the slot is held, has
just left FAULT, or still waits to read OFF after a handback; and whether it waits on. (log entry 57: DEDUCED in part) -/
def evalModeOf (x : LoopSlot) (held left good : Bool) (req : Nat) : Nat × Bool :=
  if held then (0, true)
  else if left then (0, x.rearm && !(good && req == 0))
  else if !good then (x.mode, x.rearm)
  else if x.rearm then (0, req != 0)
  else (req, false)

/-- One evaluation of a slot that is not in FAULT, at base cycle j; `mismatch` is a lockstep difference (R339).
(log entry 57: DEDUCED in part) -/
def State.evalSlot (s : State) (r : Bytes) (j : Nat) (held left mismatch : Bool) : State :=
  let n := loopNumber r
  let g := fieldAt r 0xF 1
  let x := s.loopSlot n
  let blk := s.readDie 0 (fieldAt r 0x2C 4) 16
  let good := decide (fieldAt blk 0 1 ≤ 2) && allZero (slice blk 1 1) && allZero (slice blk 4 12)
  let m := evalModeOf x held left good (fieldAt blk 0 1)
  let e := evalMode r { x with rearm := m.2 } m.1 (sfieldAt blk 2 2) (s.loopSource (slice r 0x10 8)) (s.loopSource (slice r 0x18 8))
    (s.loopSource (slice r 0x20 8))
  let c := sat32 (rshiftRne (e.slot.u * sfieldAt r 0x3C 4) (fieldAt r 0x40 1 : Int))
  let stale := (loopFeedback r).any (fun i => !s.flag (Fld.JBUS_STREAM_served i))
  let fb := (loopFeedback r).any (fun i => s.flag (Fld.JBUS_STREAM_fault i))
  let fe := m.1 == 2 && decide (faultCount r ≤ e.slot.timer)
  let slot := { e.slot with mode := if fb || fe then 3 else m.1, c := c.1, feCause := fe && !fb
                            done := if mismatch then x.done else some j }
  let s1 := (s.setLoopSlot n slot).writeCommand r m.1 c.1
  let s2 := if fieldAt r 0x30 4 = 0 then s1 else s1.writeDie 0 (fieldAt r 0x30 4) (statusBlock j { e with slot := slot } stale c.1)
  let sats := e.sats + b2n c.2 + b2n (fieldAt r 0x30 4 != 0 && (sat32 e.d).2)
  let s3 := (s2.eventTimes Ev.LOOP_EVT_STATUS_sat sats).eventIf e.limited Ev.LOOP_EVT_STATUS_limit
  let s4 := ((s3.eventIf stale Ev.LOOP_EVT_STATUS_stale_in).eventIf e.bump Ev.LOOP_EVT_STATUS_bump).eventIf (!good) Ev.LOOP_EVT_STATUS_ctrl_err
  let s5 := if fb then (s4.event Ev.LOOP_EVT_STATUS_fb_fault).loopFault n g 0x0702 0x03
    else if fe then (s4.event Ev.LOOP_EVT_STATUS_fe_fault).loopFault n g 0x0701 0x03 else s4
  if mismatch then (s5.event Ev.LOOP_EVT_STATUS_lockstep).loopFault n g 0x0703 0x02 else s5

/-- The evaluation of one due slot in a pass (R320, R334, R335): a slot that stays in FAULT writes nothing.
(log entry 58: DEDUCED in part) -/
def State.passSlot (s : State) (r : Bytes) (j t : Nat) (bad : List Nat) : State :=
  let n := loopNumber r
  let phase := (s.ctx (fieldAt r 0 1)).phase
  if phase ≠ .resident ∧ phase ≠ .stopped then s
  else
    let g := fieldAt r 0xF 1
    let s1 := s.loopClear n g
    let left := (s.loopSlot n).mode == 3 && (s1.loopSlot n).mode == 0
    let s2 := if (s1.loopSlot n).mode = 3 then s1 else s1.evalSlot r j (s.groupHeld g t) left (bad.contains n)
    s2.count64 Reg.LOOP_EVALS 1

/-- LOOP_PASS (R320): the next pass instant of an engine has come; its due slots are evaluated in ascending order. `bad`
names the slots whose lockstep copies differ. (log entry 57: DEDUCED in part) -/
def execLoopPass (engine : Nat) (bad : List Nat) (s : State) : Host.Outcome State Fault Refusal :=
  .next (match s.engineLoops engine with
    | [] => s
    | r0 :: rest =>
      let j := Sparse.get (fun _ => 0) s.loops.next engine
      let t := fieldAt r0 8 4 + j * fieldAt r0 4 4
      if s.now < t ∨ s.blkOpen 0 0x2B = false then s
      else
        let s0 := (List.range 4).foldl (fun (a : State) g => a.holdSlots g t) s
        let due := (r0 :: rest).filter (fun r => j % max (fieldAt r 0xC 1) 1 == 0)
        let s1 := due.foldl (fun (a : State) r => a.passSlot r j t bad) s0
        { s1 with loops := { s1.loops with next := Sparse.put (fun _ => 0) s1.loops.next engine (j + 1) } })

/-- LOOP_CLEAR (R335): a write of LOOP_CLR, which acts at the slot's next evaluation.
(log entry 57: DEDUCED in part) -/
def State.writeLoopClr (s : State) (v : Nat) : State :=
  let s1 := s.setFld Fld.LOOP_CLR_slot (bits v 0 9)
  if bit v 9 then s1.setFld Fld.LOOP_CLR_clear 1 else s1

/-- LOOP_CLEAR (R335). -/
def execLoopClear (who : Requester) (slot : Nat) (s : State) : Host.Outcome State Fault Refusal :=
  .next (s.busWrite who 0 0x2B false (fun s => s.writeLoopClr (slot % 512 + 512)))

/-- The slots and the next base cycles as a commit leaves them (R341): every slot of the records given enters OFF, and each
engine goes on at its first pass after the commit. (log entry 58: DEDUCED in part) -/
def State.startLoops (s : State) (rs : List Bytes) : State :=
  let s1 := rs.foldl (fun (a : State) r => a.setLoopSlot (loopNumber r) { rearm := (a.loopSlot (loopNumber r)).rearm }) s
  (List.range 4).foldl (fun (a : State) e =>
    match a.engineLoops e with
    | [] => a
    | r :: _ =>
      let j := if a.now < fieldAt r 8 4 then 0 else (a.now - fieldAt r 8 4) / max (fieldAt r 4 4) 1 + 1
      { a with loops := { a.loops with next := Sparse.put (fun _ => 0) a.loops.next e j } }) s1

end Sys2Proof.Machine
end

