-- ==== Sys2Proof/Machine/Map.lean ====
section
/-! DEFINITION. The world map (chapter 15): cells, the voxel tree in canonical form, epochs, deltas, snapshots, the
distance field and the map commands. -/

namespace Sys2Proof.Machine

/-- The relative index of a world cell; none outside the tree (R260). -/
def MapCfg.relative (c : MapCfg) (p : List Int) : Option (List Nat) :=
  let r := (p.zip c.origin).map (fun x => x.1 - x.2)
  if r.all (fun v => decide (0 ≤ v) && decide (v < (2 : Int) ^ c.depth)) then some (r.map Int.toNat) else none

/-! ### Cells (R260, R261, R264) -/

/-- True for a blocking state (R261). -/
def MapCfg.blocking (c : MapCfg) (state : Nat) : Bool := state == 2 || state == 3 || (state == 0 && c.unknownBlocks)

/-- A write of a result to a cell (R264): 1 FREE, 2 OCCUPIED, 3 DISPUTED. -/
def writeCell (confirm r : Nat) (costs : Bytes) (old : MapCell) : MapCell :=
  if r = 2 ∨ r = 3 then ⟨r, 0, costs⟩
  else if old.state = 0 ∨ old.state = 1 then ⟨1, 0, List.replicate 7 0⟩
  else if confirm ≤ old.free + 1 then ⟨1, 0, List.replicate 7 0⟩
  else { old with free := old.free + 1 }

/-! ### The tree (R262, R263) -/

/-- A node over eight children in canonical form (R263); its child group has no place yet (R265).
(log entry 50: DEDUCED in part) -/
def canonNode (cs : List MapTree) : MapTree :=
  let c := fun (i : Nat) => cs.getD i .absent
  if cs.all (fun t => t == .absent) then .absent
  else
    match c 0 with
    | .cell x => if cs.all (fun t => t == .cell x) then .cell x else .inner newGroup (c 0) (c 1) (c 2) (c 3) (c 4) (c 5) (c 6) (c 7)
    | _ => .inner newGroup (c 0) (c 1) (c 2) (c 3) (c 4) (c 5) (c 6) (c 7)

/-- The child number of a relative index at remaining depth d + 1 (R260). -/
def childNumber (d : Nat) (p : List Nat) : Nat :=
  b2n (bit (p.getD 0 0) d) + 2 * b2n (bit (p.getD 1 0) d) + 4 * b2n (bit (p.getD 2 0) d)

/-- The content of a cell of a tree of remaining depth `d`. -/
def MapTree.get : Nat → MapTree → List Nat → MapCell
  | 0, .cell c, _ => c
  | 0, _, _ => unknownCell
  | _ + 1, .absent, _ => unknownCell
  | _ + 1, .cell c, _ => c
  | d + 1, t, p => MapTree.get d (t.kids.getD (childNumber d p) .absent) p

/-- A cell of a content: absent where it is unknown (R262). -/
def MapTree.ofCell (c : MapCell) : MapTree := if c = unknownCell then .absent else .cell c

/-- The tree with one cell at a content: the nodes on its path are copied, each with its child group (R263, R265).
(log entry 50: DEDUCED in part) -/
def MapTree.put : Nat → MapTree → List Nat → MapCell → MapTree
  | 0, _, _, c => .ofCell c
  | d + 1, t, p, c =>
    let j := childNumber d p
    canonNode (t.kids.set j (MapTree.put d (t.kids.getD j .absent) p c))

/-- A key inserted in a rising list without repeats. -/
def insertKey (k : Nat) : List Nat → List Nat
  | [] => [k]
  | x :: xs => if k < x then k :: x :: xs else if k = x then x :: xs else x :: insertKey k xs

/-- Delta records appended to the ring (R268): 8-byte heads of one slot's epoch. (log entry 52: DEDUCED in part) -/
def State.appendDeltas (s : State) (cfg : MapCfg) (epoch : Nat) : List Bytes → State
  | [] => s
  | h :: hs =>
    let va := cfg.deltaVa + s.map.head % max cfg.deltaEntries 1 * 16
    let s1 := match s.writeVa (.engine 0) .engineWrite cfg.owner va (h ++ leBytes 8 epoch) with
      | .ok t => t
      | .error e => s.xltFault 0 cfg.owner e.1 e.2
    { s1 with map := { s1.map with head := s1.map.head + 1 } }.appendDeltas cfg epoch hs

/-- Pins whose deltas have been overwritten marked (R268). (log entry 52: DEDUCED in part) -/
def State.markLost (s : State) (entries : Nat) : State :=
  let lost := fun (p : MapPin) => !p.lost && decide (p.head + entries < s.map.head)
  if s.map.pins.any lost then
    { s with map := { s.map with pins := s.map.pins.map (fun p => if lost p then { p with lost := true } else p) } }.event
      Ev.MAP_EVT_STATUS_delta_lost
  else s

/-- A world made the current epoch of a slot with its deltas; what no epoch reaches any more returns to the pool (R265, R266,
R268). (log entry 50: DEDUCED in part) -/
def State.setWorld (s : State) (cfg : MapCfg) (slot : Nat) (w : World) (heads : List Bytes) : State :=
  let s1 := { s with map := { s.map with worlds := Sparse.put (fun _ => {}) s.map.worlds slot w } }
  ((((s1.appendDeltas cfg w.epoch heads).markLost cfg.deltaEntries).setReg64 (Reg.MAP_EPOCH slot) w.epoch).releaseNodes
    s.heldWorlds).mapRegs

/-- A new epoch of a slot that takes a tree, its new nodes placed and written, or none where the store has not the nodes
(R265, R269, R270). (log entry 50: DEDUCED in part) -/
def State.newEpoch (s : State) (cfg : MapCfg) (slot : Nat) (tree : MapTree) (heads : List Bytes) : Option State :=
  (s.placeTree cfg tree).map (fun x =>
    (x.1.setWorld cfg slot ⟨(s.world slot).epoch + 1, x.2.1, x.2.2⟩ heads))

/-- The head of a whole-slot delta record. (log entry 52: DEDUCED in part) -/
def wholeSlot (slot : Nat) : Bytes := leBytes 2 slot ++ [0xFF, 0xFF, 0, 0, 0, 0]

/-- The regions in which cells of two trees differ in state or costs, over the cells written, sorted by z, y, x (R268).
(log entry 52: DEDUCED in part) -/
def changedRegions (cfg : MapCfg) (old new : MapTree) (cells : List (List Nat)) : List Nat :=
  cells.foldl (fun (ks : List Nat) p =>
    let a := old.get cfg.depth p
    let b := new.get cfg.depth p
    if a.state = b.state ∧ a.costs = b.costs then ks
    else insertKey (p.getD 2 0 / 2 ^ cfg.deltaLevel * 2 ^ 32 + p.getD 1 0 / 2 ^ cfg.deltaLevel * 2 ^ 16 + p.getD 0 0 / 2 ^ cfg.deltaLevel) ks) []

/-- The head of a region's delta record. (log entry 52: DEDUCED in part) -/
def regionHead (slot k : Nat) : Bytes :=
  leBytes 2 slot ++ leBytes 2 (k % 65536) ++ leBytes 2 (k / 65536 % 65536) ++ leBytes 2 (k / 2 ^ 32)

/-- Writes applied in order to a tree. -/
def applyWrites (cfg : MapCfg) : List (List Nat × (MapCell → MapCell)) → MapTree → MapTree
  | [], t => t
  | (p, f) :: ws, t => applyWrites cfg ws (t.put cfg.depth p (f (t.get cfg.depth p)))

/-- A batch of writes on a slot (R260, R264, R265, R270): cells outside the tree are counted; a batch that writes no cell
makes no epoch. None where the nodes do not suffice. (log entry 50: DEDUCED in part) -/
def State.mapBatch (s : State) (cfg : MapCfg) (slot : Nat) (ws : List (List Int × (MapCell → MapCell))) : Option State :=
  let inside := ws.filterMap (fun (w : List Int × (MapCell → MapCell)) => (cfg.relative w.1).map (fun p => (p, w.2)))
  let s1 := s.eventTimes Ev.MAP_EVT_STATUS_outside (ws.length - inside.length)
  if inside.isEmpty then some s1
  else
    let old := (s.world slot).tree
    let new := applyWrites cfg inside old
    s1.newEpoch cfg slot new ((changedRegions cfg old new (inside.map (·.1))).map (regionHead slot))

/-- A batch abandoned for want of nodes: the event and the report to Crust (R270). (log entry 50: DEDUCED in part) -/
def State.nodesFull (s : State) : State := (s.event Ev.MAP_EVT_STATUS_nodes_full).report 0x0F 0

/-! ### Snapshots (R274) -/

/-- The nodes of a tree in pre-order. -/
def MapTree.preorder : MapTree → Nat → List Bytes
  | .absent, _ => []
  | .cell c, d => [nodeBytes d (.cell c) 0]
  | .inner g c0 c1 c2 c3 c4 c5 c6 c7, d =>
    nodeBytes d (.inner g c0 c1 c2 c3 c4 c5 c6 c7) 0 :: (c0.preorder (d - 1) ++ c1.preorder (d - 1) ++ c2.preorder (d - 1) ++
      c3.preorder (d - 1) ++ c4.preorder (d - 1) ++ c5.preorder (d - 1) ++ c6.preorder (d - 1) ++ c7.preorder (d - 1))

/-- The snapshot of a world. -/
def snapshotBytes (cfg : MapCfg) (w : World) : Bytes :=
  let ns := w.tree.preorder cfg.depth
  let body := ns.flatten
  let h := [0x5A, 0x4D, 0x41, 0x50] ++ leBytes 2 1 ++ leBytes 1 cfg.depth ++ [0] ++ leBytes 2 cfg.leafMm ++ [0, 0] ++
    (cfg.origin.map (fun v => leBytes 4 (ofSigned 32 v))).flatten ++ leBytes 8 w.epoch ++ leBytes 4 ns.length ++
    leBytes 4 (crc32c body) ++ List.replicate 20 0
  h ++ leBytes 4 (crc32c h) ++ body

/-- True where a snapshot header fits the configuration (R274) and its reserved bytes are zero (R10), the body CRC excepted.
(log entry 51: DEDUCED in part) -/
def snapshotHeadOk (cfg : MapCfg) (h : Bytes) : Bool :=
  slice h 0 4 == [0x5A, 0x4D, 0x41, 0x50] && fieldAt h 4 2 == 1 && fieldAt h 6 1 == cfg.depth && fieldAt h 8 2 == cfg.leafMm &&
    int3 h 0xC == cfg.origin && allZero (slice h 7 1) && allZero (slice h 0xA 2) && allZero (slice h 0x28 20) &&
    fieldAt h 0x3C 4 == crc32c (slice h 0 0x3C)

/-- True where the reserved bits of a node are zero (R10, R262). (log entry 51: DEDUCED in part) -/
def nodeReservedOk (n : Bytes) : Bool := decide (fieldAt n 0 4 < 2 ^ 20) && decide (fieldAt n 4 4 < 2 ^ 23) && allZero (slice n 15 1)

/-- A tree read from nodes in pre-order at remaining depth `d`, in canonical form, and the nodes left (R263, R274).
(log entry 51: DEDUCED in part) -/
def parseTree : Nat → List Bytes → Option (MapTree × List Bytes)
  | _, [] => none
  | 0, n :: ns =>
    if fieldAt n 0 4 % 4 = 2 ∧ nodeReservedOk n = true then some (.ofCell ⟨bits (fieldAt n 0 4) 2 2, bits (fieldAt n 0 4) 8 4, slice n 8 7⟩, ns)
    else none
  | d + 1, n :: ns =>
    let w := fieldAt n 0 4
    if !nodeReservedOk n then none
    else if w % 4 = 3 then some (.ofCell ⟨bits w 2 2, bits w 8 4, slice n 8 7⟩, ns)
    else if w % 4 = 1 then
      let r := (List.range 8).foldl (fun (r : Option (List MapTree × List Bytes)) j =>
        match r with
        | none => none
        | some (cs, rest) =>
          if bit w (12 + j) then (parseTree d rest).map (fun x => (cs ++ [x.1], x.2)) else some (cs ++ [.absent], rest))
        (some ([], ns))
      r.map (fun x => (canonNode x.1, x.2))
    else none

/-- The tree of a snapshot at an address, or a failure code. (log entry 51: DEDUCED in part) -/
def State.readSnapshot (s : State) (cfg : MapCfg) (va : Nat) : Except (Nat × Nat) MapTree :=
  match s.readVa (.engine 0) cfg.owner va 64 with
  | .error e => .error e
  | .ok h =>
    if !snapshotHeadOk cfg h then .error (0x0585, va)
    else
      let n := fieldAt h 0x20 4
      match s.readVa (.engine 0) cfg.owner (va + 64) (16 * n) with
      | .error e => .error e
      | .ok body =>
        if crc32c body ≠ fieldAt h 0x24 4 then .error (0x0585, va)
        else if n = 0 then .ok .absent
        else
          match parseTree cfg.depth (chunks 16 n body) with
          | some (t, []) => .ok t
          | _ => .error (0x0585, va)

/-! ### The distance field (R271, R272) -/

/-- The nearest integer to √v. (log entry 52: DEDUCED in part) -/
def nearestRoot (v : Nat) : Nat := (isqrt (4 * v) + 1) / 2

/-- The field cells in memory order, x fastest. -/
def fieldCells (cfg : MapCfg) : List (List Nat) :=
  (List.range (cfg.sdfN.getD 2 0)).flatMap (fun z => (List.range (cfg.sdfN.getD 1 0)).flatMap (fun y =>
    (List.range (cfg.sdfN.getD 0 0)).map (fun x => [x, y, z])))

/-- The squared distance of two cells in cell indices. (log entry 52: DEDUCED in part) -/
def cellDist (a b : List Nat) : Nat := ((a.zip b).map (fun p => ((p.1 : Int) - p.2).natAbs ^ 2)).sum

/-- The value of a field cell (R271). (log entry 52: DEDUCED in part) -/
def fieldValue (cfg : MapCfg) (solid : List Nat → Bool) (cells : List (List Nat)) (p : List Nat) : Int :=
  let ef := cfg.leafMm * 2 ^ cfg.sdfShift
  let mine := solid p
  let ns := (cells.filter (fun q => solid q != mine)).map (cellDist p)
  match ns with
  | [] => if mine then -32767 else 32767
  | n :: rest =>
    let v : Int := min 32767 (nearestRoot (ef * ef * rest.foldl min n))
    if mine then -v else v

/-- True where a leaf of a field cell of a tree is blocking. -/
def solidCell (cfg : MapCfg) (t : MapTree) (p : List Nat) : Bool :=
  let w := 2 ^ cfg.sdfShift
  let base := (p.zip cfg.sdfOrigin).map (fun (x : Nat × Int) => x.2 + ((w * x.1 : Nat) : Int))
  (List.range w).any (fun x => (List.range w).any (fun y => (List.range w).any (fun z =>
    let c : List Int := [base.getD 0 0 + (x : Int), base.getD 1 0 + (y : Int), base.getD 2 0 + (z : Int)]
    cfg.blocking ((cfg.relative c).elim 0 (fun q => (t.get cfg.depth q).state)))))

/-- True where a box record covers a field cell (R272). -/
def inBox (r : Bytes) (p : List Nat) : Bool :=
  [0, 1, 2].all (fun i => decide (sfieldAt r (2 * i) 2 ≤ p.getD i 0) && decide ((p.getD i 0 : Int) ≤ sfieldAt r (6 + 2 * i) 2))

/-- What a build finds solid, or its failure; a box record with nonzero reserved bytes is rejected (R10, R272). (log entry 51: DEDUCED in part) -/
def State.buildSource (s : State) (cfg : MapCfg) (b : SdfBuild) : Except (Nat × Nat) (List Nat → Bool) :=
  if b.src = 0 then
    match s.readVa (.engine 0) cfg.owner b.va (16 * b.count) with
    | .error e => .error e
    | .ok bs =>
      let rs := chunks 16 b.count bs
      if rs.all (fun r => allZero (slice r 12 4)) then .ok (fun p => rs.any (fun r => inBox r p))
      else .error (s.freeCode [0x0585, 0x0587], b.va)
  else if b.src = 1 then
    match s.readSnapshot cfg b.va with
    | .error e => .error e
    | .ok t => .ok (solidCell cfg t)
  else .ok (solidCell cfg ((s.map.pins.find? (fun p => p.owner == none)).elim .absent (fun p => p.world.tree)))

/-! ### Commands (R275) -/

/-- MAP_CMD_STATUS.busy as it stands: a build waits or runs, or a mode change waits (R273).
(log entry 52: DEDUCED in part) -/
def State.mapBusy (s : State) : State := s.setFld Fld.MAP_CMD_STATUS_busy (b2n (s.map.build.isSome || s.map.wanted.isSome))

/-- The status of a map command that has ended. -/
def State.mapStatus (s : State) (code : Nat) : State := (s.setFld Fld.MAP_CMD_STATUS_code code).mapBusy

/-- A failure of a map command: an access fault is reported as well (R186). -/
def State.mapFault (s : State) (cfg : MapCfg) (e : Nat × Nat) : State :=
  if e.1 / 256 = 2 then s.xltFault 0 cfg.owner e.1 e.2 else s

/-- A map command failed by what it read or wrote. -/
def State.mapAccessFault (s : State) (cfg : MapCfg) (e : Nat × Nat) : State := (s.mapFault cfg e).mapStatus e.1

/-- The end of a command whose epoch was made, or whose nodes the store had not (R270). -/
def State.mapOutcome (s : State) (r : Option State) : State :=
  match r with
  | some u => u.mapStatus 0
  | none => s.nodesFull.mapStatus 0x0580

/-- One WRITE record as a cell write (R276); none where it is invalid. -/
def writeRecord (cfg : MapCfg) (r : Bytes) : Option (List Int × (MapCell → MapCell)) :=
  let op := fieldAt r 0xC 1
  let res := op % 4
  let force := bit op 2
  let costs := slice r 0x10 7
  if 8 ≤ op ∨ allZero (slice r 0xD 3) = false ∨ allZero (slice r 0x17 9) = false ∨ (force = false ∧ res = 0) then none
  else some (int3 r 0, fun (old : MapCell) => if force then MapCell.mk res 0 costs else writeCell cfg.freeConfirm res costs old)

/-- The WRITE command over its records. (log entry 51: DEDUCED in part) -/
def State.mapWriteRecords (s : State) (cfg : MapCfg) (slot : Nat) (rs : List Bytes) : State :=
  let ws := rs.filterMap (writeRecord cfg)
  if ws.length ≠ rs.length then s.mapStatus 0x0587
  else
    s.mapOutcome (s.mapBatch cfg slot ws)

/-- True where a pin is free (R266). (log entry 50: DEDUCED in part) -/
def State.pinFree (s : State) (n : Nat) : Bool := decide (s.map.pins.length + n ≤ 256)

/-- A pin of a slot's current epoch. (log entry 50: DEDUCED in part) -/
def State.pin (s : State) (owner : Option Nat) (slot : Nat) : State :=
  { s with map := { s.map with pins := s.map.pins ++ [MapPin.mk owner slot (s.world slot) s.map.head false] } }.mapRegs

/-- A build ended with a code: its pin is released. (log entry 51: DEDUCED in part) -/
def State.endBuild (s : State) (code : Nat) : State :=
  (({ s with map := { s.map with build := none } }.setFld Fld.MAP_STATUS_building 0).dropPins none).mapStatus code

/-- A build begins (R272): the field is INVALID, and a SLOT source is pinned; a build that cannot begin has failed and leaves
the field INVALID. (log entry 51: DEDUCED in part) -/
def State.beginBuild (s : State) (cfg : MapCfg) (b : SdfBuild) : State :=
  let s1 := (s.setFld Fld.MAP_STATUS_sdf_valid 0).setFld Fld.MAP_STATUS_building 1
  let s2 := { s1 with map := { s1.map with build := some { b with begun := true } } }
  if b.src = 3 then s2.endBuild 0x0585
  else if b.src ≠ 2 then s2
  else if cfg.slots ≤ b.slot then s2.endBuild 0x0581
  else if s.pinFree 1 = false then s2.endBuild 0x0586
  else s2.pin none b.slot

/-- True while a planner batch reads the field. -/
def State.sdfBatchRuns (s : State) : Bool := s.plan.batch.elim false (fun b => !b.tree)

/-- BUILD_SDF accepted (R272, R292): it begins, or waits behind a batch that reads the field.
(log entry 51: DEDUCED in part) -/
def State.startBuild (s : State) (cfg : MapCfg) : State :=
  let b : SdfBuild := ⟨s.fld Fld.MAP_CMD_ARG_src, s.fld Fld.MAP_CMD_ARG_count, s.fld Fld.MAP_CMD_ARG_slot, s.reg64 Reg.MAP_CMD_VA, false⟩
  if s.sdfBatchRuns then { s with map := { s.map with build := some b } }.mapBusy else (s.beginBuild cfg b).mapBusy

/-- A mode change requested (R273); it holds busy until it takes effect. (log entry 52: DEDUCED in part) -/
def State.wantMode (s : State) (mode : Nat) (byCommand : Bool) : State :=
  { s with map := { s.map with wanted := some mode, cmdWaits := s.map.cmdWaits || byCommand } }.mapBusy

/-- A requested mode change takes effect, unless a planner batch runs (R273). (log entry 52: DEDUCED in part) -/
def State.settleMode (s : State) : State :=
  match s.map.wanted with
  | none => s
  | some m =>
    if s.plan.batch.isSome then s
    else
      let s1 := { s with map := { s.map with wanted := none, cmdWaits := false } }
      let s2 := (s1.setFld Fld.MAP_STATUS_mode m).eventIf (s.fld Fld.MAP_STATUS_mode != m) Ev.MAP_EVT_STATUS_mode_change
      if s.map.cmdWaits then s2.mapStatus 0 else s2.mapBusy

/-- ENTER_SDF as a request of Crust (R346): it leaves the mode unchanged while the field is INVALID.
(log entry 52: DEDUCED in part) -/
def State.crustSdf (s : State) : State := if s.flag Fld.MAP_STATUS_sdf_valid then s.wantMode 0 false else s

/-- The codes that a map command may fail with (R277).
(log entry 6: DESIGN CHOICE in part; log entry 51: DEDUCED in part) -/
def mapCodes : List Nat := [0x0580, 0x0581, 0x0582, 0x0583, 0x0584, 0x0585, 0x0586, 0x0587]

/-- The effect of a map command that has started (R275). (log entry 51: DEDUCED in part) -/
def State.runMapCommand (s : State) (op slot : Nat) : State :=
  if op = 7 then
    if (s.world 0).epoch = 0 then s.mapStatus 0x0584 else s.wantMode 1 true
  else if op = 8 then
    if s.flag Fld.MAP_STATUS_sdf_valid then s.wantMode 0 true else s.mapStatus 0x0583
  else
    match s.mapCfg? with
    | none => s.mapStatus 0x0581
    | some cfg =>
      let va := s.reg64 Reg.MAP_CMD_VA
      let count := s.fld Fld.MAP_CMD_ARG_count
      if op = 6 then s.startBuild cfg
      else if cfg.slots ≤ slot ∨ (op = 1 ∧ cfg.slots ≤ count % 1024) then s.mapStatus 0x0581
      else if (op = 1 ∨ op = 2 ∨ op = 4) ∧ slot = 0 ∧ s.fusionActive = true then s.mapStatus 0x0582
      else if (op = 1 ∨ op = 5) ∧ s.pinFree 1 = false then s.mapStatus 0x0586
      else if op = 1 then
        let w := s.world (count % 1024)
        (s.setWorld cfg slot { w with epoch := (s.world slot).epoch + 1 } [wholeSlot slot]).mapStatus 0
      else if op = 2 then s.mapOutcome (s.newEpoch cfg slot .absent [wholeSlot slot])
      else if op = 3 then
        if count = 0 ∨ 65536 < count then (s.mapStatus (s.freeCode mapCodes)).useFree 1
        else
          match s.readVa (.engine 0) cfg.owner va (32 * count) with
          | .error e => s.mapAccessFault cfg e
          | .ok bs => s.mapWriteRecords cfg slot (chunks 32 count bs)
      else if op = 4 then
        match s.readSnapshot cfg va with
        | .error e => s.mapAccessFault cfg e
        | .ok t => s.mapOutcome (s.newEpoch cfg slot t [wholeSlot slot])
      else
        match s.writeVa (.engine 0) .engineWrite cfg.owner va (snapshotBytes cfg (s.world slot)) with
        | .error e => s.mapAccessFault cfg e
        | .ok t => t.mapStatus 0

/-- A write of MAP_CMD (R275). (log entry 51: DEDUCED in part) -/
def State.writeMapCmd (s : State) (v : Nat) : State :=
  let op := bits v 1 4
  let s1 := (s.setFld Fld.MAP_CMD_op op).setFld Fld.MAP_CMD_slot (bits v 5 10)
  if !bit v 0 then s1
  else if s1.flag Fld.MAP_CMD_STATUS_busy || op == 0 || decide (8 < op) then s1.event Ev.MAP_EVT_STATUS_cmd_reject
  else s1.runMapCommand op (bits v 5 10)

/-- A start of MAP_CMD by a requester. (log entry 51: DEDUCED in part) -/
def State.mapStart (s : State) (who : Requester) (op slot : Nat) : State :=
  s.busWrite who 0 0x28 false (fun s => s.writeMapCmd (1 + 2 * op + 32 * (slot % 1024)))

/-- MAP_FORK (R275). -/
def execMapFork (who : Requester) (slot : Nat) (s : State) : Host.Outcome State Fault Refusal := .next (s.mapStart who 1 slot)

/-- MAP_CLEAR (R275). -/
def execMapClear (who : Requester) (slot : Nat) (s : State) : Host.Outcome State Fault Refusal := .next (s.mapStart who 2 slot)

/-- MAP_WRITE (R276). -/
def execMapWrite (who : Requester) (slot : Nat) (s : State) : Host.Outcome State Fault Refusal := .next (s.mapStart who 3 slot)

/-- MAP_LOAD (R274). -/
def execMapLoad (who : Requester) (slot : Nat) (s : State) : Host.Outcome State Fault Refusal := .next (s.mapStart who 4 slot)

/-- MAP_SNAPSHOT (R274). -/
def execMapSnapshot (who : Requester) (slot : Nat) (s : State) : Host.Outcome State Fault Refusal := .next (s.mapStart who 5 slot)

/-- MAP_BUILD_SDF (R272). -/
def execMapBuildSdf (who : Requester) (s : State) : Host.Outcome State Fault Refusal := .next (s.mapStart who 6 0)

/-- MAP_ENTER_TREE (R273). -/
def execMapEnterTree (who : Requester) (s : State) : Host.Outcome State Fault Refusal := .next (s.mapStart who 7 0)

/-- MAP_ENTER_SDF (R273). -/
def execMapEnterSdf (who : Requester) (s : State) : Host.Outcome State Fault Refusal := .next (s.mapStart who 8 0)

/-- SDF_BUILD_BEGIN (R292): a build that waited behind an SDF-mode batch begins. (log entry 52: DEDUCED in part) -/
def execSdfBuildBegin (s : State) : Host.Outcome State Fault Refusal :=
  .next (match s.map.build, s.mapCfg? with
    | some b, some cfg => if b.begun ∨ s.sdfBatchRuns = true ∨ s.blkOpen 0 0x28 = false then s else s.beginBuild cfg b
    | _, _ => s)

/-- The build that runs finished: its field written and VALID, or INVALID after a failure (R272).
(log entry 52: DEDUCED in part) (log entry 51: DEDUCED in part) -/
def State.finishBuild (s : State) (cfg : MapCfg) (b : SdfBuild) : State :=
  match s.buildSource cfg b with
  | .error e => ((s.mapFault cfg e).useFree 1).endBuild e.1
  | .ok solid =>
    let bs := ((fieldCells cfg).map (fun p => leBytes 2 (ofSigned 16 (fieldValue cfg solid (fieldCells cfg) p)))).flatten
    match s.writeVa (.engine 0) .engineWrite cfg.owner cfg.sdfVa bs with
    | .error e => (s.mapFault cfg e).endBuild e.1
    | .ok t => ((t.setFld Fld.MAP_STATUS_sdf_valid 1).endBuild 0).event Ev.MAP_EVT_STATUS_sdf_built

/-- SDF_BUILD_COMPLETE (R272): the build that runs finishes. (log entry 52: DEDUCED in part) -/
def execSdfBuildComplete (s : State) : Host.Outcome State Fault Refusal :=
  .next (match s.map.build, s.mapCfg? with
    | some b, some cfg => if b.begun then s.finishBuild cfg b else s
    | _, _ => s)

/-- MAP_MODE_CHANGE (R273): the requested mode takes effect while no planner batch runs.
(log entry 52: DEDUCED in part) -/
def execMapModeChange (s : State) : Host.Outcome State Fault Refusal := .next s.settleMode

/-- The map as the commit of a full load leaves it (R259): every slot empty at epoch 0, the field INVALID, mode SDF. -/
def State.resetMap (s : State) : State :=
  let s1 := { s with map := {} }
  let s2 := ((s1.setReg Reg.MAP_STATUS 0).setFld Fld.MAP_CMD_STATUS_busy 0)
  { s2 with regs := s2.regs.filter (fun p => !(0x281000 ≤ p.1 && p.1 < 0x283000)) }.mapRegs

end Sys2Proof.Machine
end

