-- ==== Sys2Proof/Machine/Fusion.lean ====
section
/-! DEFINITION. The sensor fusion engine (chapter 14): poses, transforms, samples, the body grid and its slots, and the
lidar mask of the protective separation (R357). -/

namespace Sys2Proof.Machine

/-! ### Mailboxes (R102) -/

/-- Publication c of a mailbox: seq is odd while buffer c mod 2 is written, and ends at 2c.
(log entry 49: DEDUCED in part) -/
def State.publishMailbox (s : State) (ctx va c : Nat) (payload : Bytes) : Except (Nat × Nat) State :=
  let p := alignUp 64 payload.length
  match s.writeVa (.engine 0) .engineWrite ctx va (leBytes 4 (2 * c - 1) ++ leBytes 4 payload.length) with
  | .error e => .error e
  | .ok a =>
    match a.writeVa (.engine 0) .engineWrite ctx (va + 0x40 + c % 2 * p) payload with
    | .error e => .error e
    | .ok b => b.writeVa (.engine 0) .engineWrite ctx va (leBytes 4 (2 * c))

/-! ### Transforms (R249, R250) -/

/-- The sum of the products of two vectors. -/
def dot (a b : List Int) : Int := ((a.zip b).map (fun (p : Int × Int) => p.1 * p.2)).sum

/-- A quaternion normalised (R250); none for N = 0. (log entry 48: DEDUCED in part) -/
def normQuat (q : List Int) : Option (List Int) :=
  let n := dot q q
  if n = 0 then none
  else
    let y := (funcOut .int32 3 n (-60) 30).1
    some (q.map (fun v => rshiftRne (v * y) 30))

/-- The matrix of a quaternion w, x, y, z, by rows, with 30 fraction bits (R250). (log entry 48: DEDUCED in part) -/
def quatMatrix (q : List Int) : List (List Int) :=
  let w := q.getD 0 0
  let x := q.getD 1 0
  let y := q.getD 2 0
  let z := q.getD 3 0
  let one : Int := 2 ^ 30
  [[one - rshiftRne (y * y + z * z) 29, rshiftRne (x * y - w * z) 29, rshiftRne (x * z + w * y) 29],
    [rshiftRne (x * y + w * z) 29, one - rshiftRne (x * x + z * z) 29, rshiftRne (y * z - w * x) 29],
    [rshiftRne (x * z - w * y) 29, rshiftRne (y * z + w * x) 29, one - rshiftRne (x * x + y * y) 29]]

/-- A transform applied to a point (R250). -/
def applyFrame (m : List (List Int)) (t p : List Int) : List Int :=
  (m.zip t).map (fun (r : List Int × Int) => rshiftRne (dot r.1 p) 30 + r.2)

/-- The columns of a matrix as rows. -/
def transpose3 (m : List (List Int)) : List (List Int) := [0, 1, 2].map (fun i => m.map (fun r => r.getD i 0))

/-- Vectors combined element by element. -/
def vmap2 (f : Int → Int → Int) (a b : List Int) : List Int := (a.zip b).map (fun (p : Int × Int) => f p.1 p.2)

/-- Interpolation or extrapolation of two samples (R249): `a + (b − c) × u`, the far sample's quaternion turned to the side
of the near one. (log entry 48: DEDUCED in part) -/
def blendPose (t : Nat) (a b c : PoseSample) (far : Bool) (u : Int) : Option PoseSample :=
  let step := fun (p q r : List Int) => vmap2 (fun x d => x + rshiftRne (d * u) 16) p (vmap2 (· - ·) q r)
  let flip := fun (q : List Int) => if dot a.quat q < 0 then q.map (fun v => -v) else q
  let qb := if far then flip b.quat else b.quat
  let qc := if far then c.quat else flip c.quat
  (normQuat (step a.quat qb qc)).map (fun q => ⟨t, step a.pos b.pos c.pos, q⟩)

/-- The pose of a history at an instant (R249); none where it is unavailable. (log entry 48: DEDUCED in part) -/
def poseAt (hist : List PoseSample) (maxGap extrap t : Nat) : Option PoseSample :=
  let before := hist.filter (fun x => decide (0 ≤ age t x.stamp))
  let after := hist.filter (fun x => decide (age t x.stamp < 0))
  match before.reverse, after with
  | a :: _, b :: _ =>
    if age b.stamp a.stamp ≤ maxGap then
      blendPose t a b a true (divRne (age t a.stamp * 65536) (age b.stamp a.stamp))
    else none
  | a :: a' :: _, [] =>
    if age a.stamp a'.stamp ≤ maxGap ∧ age t a.stamp ≤ extrap then
      blendPose t a a a' false (divRne (age t a.stamp * 65536) (age a.stamp a'.stamp))
    else none
  | _, _ => none

/-- A pose sample inserted in stamp order; one with the same stamp is replaced (R249).
(log entry 48: DEDUCED in part) -/
def insertPose (x : PoseSample) : List PoseSample → List PoseSample
  | [] => [x]
  | y :: ys =>
    if x.stamp = y.stamp then x :: ys
    else if 0 < age y.stamp x.stamp then x :: y :: ys
    else y :: insertPose x ys

/-! ### Streams (R246, R248) -/

/-- The FUSIONGRID record. -/
def State.fusionRec (s : State) : Option Bytes := (s.recs 0xA).head?

/-- The descriptor of a fusion stream. -/
def State.fusionStream (s : State) (i : Nat) : Bytes :=
  slice (s.blob 0xA) (fieldAt (s.fusionRec.getD []) 0x20 4 + 128 * i) 128

/-- The instant of a grid slot (R245). -/
def gridInstant (r : Bytes) (n : Nat) : Nat := n * fieldAt r 4 4 + fieldAt r 8 4

/-- An entry that a cut-off takes: stream, stamp, data, and whether it is late. -/
structure FusionSample where
  stream : Nat
  stamp : Nat
  data : Bytes
  late : Bool
deriving DecidableEq, Repr

/-- The next stable publication of a stream's ring at or after the one wanted: its number and its entry, nothing, or a
fault (R103, R248). -/
def State.fusionEntry (s : State) (owner : Nat) (d : Bytes) (want : Nat) : Except (Nat × Nat) (Option (Nat × Bytes)) :=
  let va := fieldAt d 4 8 + (want - 1) % max (fieldAt d 0xC 2) 1 * fieldAt d 0x10 4
  match s.readVa (.engine 0) owner va 64 with
  | .error e => .error e
  | .ok h =>
    let ahead := (fieldAt h 0 4 + 2 ^ 32 - 2 * want % 2 ^ 32) % 2 ^ 32
    if fieldAt h 0 4 % 2 = 1 ∨ 2 ^ 31 ≤ ahead then .ok none
    else
      match s.readVa (.engine 0) owner (va + 64) (min (fieldAt h 4 4) (fieldAt d 0x10 4 - 64)) with
      | .error e => .error e
      | .ok data => .ok (some (want + ahead / 2, slice h 0x10 4 ++ data))

/-- A stream stopped by a ring read fault (R257). -/
def State.stopFusionStream (s : State) (owner i : Nat) (e : Nat × Nat) : State :=
  ((s.xltFault 0 owner e.1 e.2).setFld (Fld.FUSN_STREAM_fault i) 1).event Ev.FUSN_EVT_STATUS_ring_fault

/-- The poses of a stream. -/
def State.poseHistory (s : State) (i : Nat) : List PoseSample := Sparse.get (fun _ => []) s.fusion.poses i

/-- The pose of a stream at an instant. -/
def State.streamPose (s : State) (i t : Nat) : Option PoseSample :=
  let r := s.fusionRec.getD []
  poseAt (s.poseHistory i) (fieldAt r 0x14 4) (fieldAt r 0x10 4) t

/-- A stream's entries taken at the cut-off of slot n, with fuel for the entries of its ring (R248). A data sample after
t_n ends the taking; a POSE sample is put into the history whatever its instant, unless its
reserved bytes reject it (R10). (log entry 48: DEDUCED in part) -/
def State.takeStream (s : State) (owner n i : Nat) : Nat → List FusionSample → State × List FusionSample
  | 0, acc => (s, acc)
  | fuel + 1, acc =>
    let r := s.fusionRec.getD []
    let d := s.fusionStream i
    let want := Sparse.get (fun _ => 0) s.fusion.taken i + 1
    match s.fusionEntry owner d want with
    | .error e => (s.stopFusionStream owner i e, acc)
    | .ok none => (s, acc)
    | .ok (some (c, x)) =>
      let stamp := fieldAt x 0 4
      let data := x.drop 4
      let pose := fieldAt d 0 1 == 0
      let a := age (gridInstant r n % 2 ^ 32) stamp
      if !pose && decide (a < 0) then (s, acc)
      else
        let s1 := ({ s with fusion := { s.fusion with taken := Sparse.put (fun _ => 0) s.fusion.taken i c } }.eventAdd
          Ev.FUSN_EVT_STATUS_drop (c - want)).setFld (Fld.FUSN_STREAM_consumed i) (s.fld (Fld.FUSN_STREAM_consumed i) + 1)
        if pose && !allZero (slice data 0xC 4) then s1.takeStream owner n i fuel acc
        else if (fieldAt d 0x14 4 : Int) < a then (s1.event Ev.FUSN_EVT_STATUS_stale).takeStream owner n i fuel acc
        else if pose then
          let p : PoseSample := ⟨stamp, int3 data 0, int3 data 0x10 ++ [sfieldAt data 0x1C 4]⟩
          let h := insertPose p (s1.poseHistory i)
          { s1 with fusion := { s1.fusion with poses := Sparse.put (fun _ => []) s1.fusion.poses i (h.drop (h.length - 16)) } }.takeStream
            owner n i fuel acc
        else
          let late := decide (n ≠ 0) && decide ((fieldAt r 4 4 : Int) ≤ a)
          s1.takeStream owner n i fuel (acc ++ [⟨i, stamp, data, late⟩])

/-- Every stream's entries taken in ascending stream index (R248); stopped streams are passed over.
(log entry 48: DEDUCED in part) -/
def State.takeSamples (s : State) (owner n : Nat) : Nat → Nat → List FusionSample → State × List FusionSample
  | 0, _, acc => (s, acc)
  | k + 1, i, acc =>
    if s.flag (Fld.FUSN_STREAM_fault i) then s.takeSamples owner n k (i + 1) acc
    else
      let x := s.takeStream owner n i (fieldAt (s.fusionStream i) 0xC 2) acc
      x.1.takeSamples owner n k (i + 1) x.2

/-! ### Points (R247, R251) -/

/-- A point in its sensor's frame: coordinates, instant, no_return and labels. -/
structure FusionPoint where
  p : List Int
  t : Nat
  noReturn : Bool
  labels : List Nat
deriving DecidableEq, Repr

/-- The points of a POINTS entry before any is discarded; one with nonzero reserved bits is rejected (R10).
(log entry 48: DEDUCED in part) -/
def lidarPoints (stamp : Nat) (data : Bytes) : List FusionPoint :=
  ((chunks 16 (data.length / 16) data).filter (fun b => decide (fieldAt b 0xC 1 < 2))).map (fun b =>
    ⟨int3 b 0, ofSigned 32 (stamp + 1000 * toSigned 24 (fieldAt b 0xD 3)), bit (fieldAt b 0xC 1) 0, []⟩)

/-- The point of a depth pixel (R251). -/
def depthPoint (d : Bytes) (stamp col row v : Nat) (labels : List Nat) : FusionPoint :=
  let z := divRne (v * 65536) 1000
  let x := divRne ((col * 65536 + 32768 - sfieldAt d 0x40 4) * z) (max (sfieldAt d 0x38 4) 1)
  let y := divRne ((row * 65536 + 32768 - sfieldAt d 0x44 4) * z) (max (sfieldAt d 0x3C 4) 1)
  ⟨[x, y, z], stamp, false, labels⟩

/-- The points of a DEPTH entry with the labels of its partners. (log entry 48: DEDUCED in part) -/
def depthPoints (d : Bytes) (stamp : Nat) (data : Bytes) (labels : List Bytes) : List FusionPoint :=
  let w := fieldAt d 0x34 2
  let step := max (fieldAt d 0xF 1) 1
  (List.range (ceilDiv (fieldAt d 0x36 2) step)).flatMap (fun r =>
    (List.range (ceilDiv w step)).filterMap (fun c =>
      let i := r * step * w + c * step
      let v := fieldAt data (2 * i) 2
      if v = 0 then none else some (depthPoint d stamp (c * step) (r * step) v (labels.map (fun l => fieldAt l i 1)))))

/-- True where a point is in range (R247, R251). (log entry 48: DEDUCED in part) -/
def pointInRange (d : Bytes) (p : List Int) : Bool :=
  let r2 := dot p p
  p.all (fun v => decide (v.natAbs ≤ 2 ^ 23)) && decide (((fieldAt d 0x48 4) ^ 2 : Nat) ≤ r2) && decide (r2 ≤ ((fieldAt d 0x4C 4) ^ 2 : Nat))

/-! ### The body grid (R252 to R254) -/

/-- The world cell of a coordinate (chapter 14, the body grid). -/
def worldCell (leafMm : Nat) (p : Int) : Int := p * 1000 / ((leafMm * 65536 : Nat) : Int)

/-- The frame in which a slot marks: leaf edge, grid origin and size, the buffer's die-local address, and the class table. -/
structure GridFrame where
  leafMm : Nat
  origin : List Int
  size : List Nat
  buf : Nat
  classes : Bytes
deriving DecidableEq, Repr

/-- The address of a grid cell, x fastest; none outside the grid. (log entry 49: DEDUCED in part) -/
def GridFrame.cellAddr (g : GridFrame) (c : List Int) : Option Nat :=
  let r := vmap2 (· - ·) c g.origin
  let x := r.getD 0 0
  let y := r.getD 1 0
  let z := r.getD 2 0
  let nx := g.size.getD 0 0
  let ny := g.size.getD 1 0
  if 0 ≤ x ∧ x < nx ∧ 0 ≤ y ∧ y < ny ∧ 0 ≤ z ∧ z < (g.size.getD 2 0 : Int) then
    some (dieLocal 0 (g.buf + 16 * ((z.toNat * ny + y.toNat) * nx + x.toNat)))
  else none

/-- A stream's bit set in the hit or pass mask of a cell. (log entry 49: DEDUCED in part) -/
def State.markCell (s : State) (g : GridFrame) (c : List Int) (stream : Nat) (hit : Bool) : State :=
  match g.cellAddr c with
  | none => s
  | some a =>
    let b := a + (if hit then 0 else 4) + stream / 8
    s.setByte b (s.byteAt b ||| BitVec.ofNat 8 (2 ^ (stream % 8)))

/-- The cost layer of a label raised in a cell (R253 step 4). -/
def State.raiseCost (s : State) (g : GridFrame) (c : List Int) (l : Nat) : State :=
  match g.cellAddr c with
  | some a =>
    let layer := fieldAt g.classes (4 * l) 1
    let cost := fieldAt g.classes (4 * l + 1) 1
    if 1 ≤ layer ∧ layer ≤ 7 ∧ (s.byteAt (a + 7 + layer)).toNat < cost then s.setByte (a + 7 + layer) (BitVec.ofNat 8 cost) else s
  | none => s

/-- The marks of one point with world origin o and endpoint e (R253). -/
def State.markPoint (s : State) (g : GridFrame) (stream margin : Nat) (o e : List Int) (noReturn : Bool) (labels : List Nat) : State :=
  let cellOf := fun (p : List Int) => p.map (worldCell g.leafMm)
  let ec := cellOf e
  let n := (vmap2 (· - ·) e o).foldl (fun (m : Nat) v => max m (ceilDiv (2 * v.natAbs * 1000) (g.leafMm * 65536))) 1
  let s1 := (List.range n).foldl (fun (a : State) k =>
    let c := cellOf (vmap2 (fun x y => x + divRne ((y - x) * (k : Int)) n) o e)
    let far := (vmap2 (· - ·) c ec).foldl (fun (m : Nat) v => max m v.natAbs) 0
    if noReturn || decide (margin < far) then a.markCell g c stream false else a) s
  if noReturn then s1.markCell g ec stream false else labels.foldl (fun (a : State) l => a.raiseCost g ec l) (s1.markCell g ec stream true)

/-- What the marking of a slot carries: the state, the body-frame points of safety streams, and the entries that were
discarded whole for want of a mount pose, by stream and stamp (R250). -/
structure MarkRun where
  state : State
  body : List (List Int)
  missed : List (Nat × Nat)

/-- One point with its mount's pose carried to the world and marked; the body-frame point of a safety stream is kept (R250,
R357). (log entry 49: DEDUCED in part) -/
def MarkRun.point (m : MarkRun) (g : Option GridFrame) (grid : Option PoseSample) (i : Nat) (d : Bytes) (x : FusionPoint)
    (mount : PoseSample) : MarkRun :=
  let ext := quatMatrix (int3 d 0x18 ++ [sfieldAt d 0x24 4])
  let place := fun (p : List Int) => applyFrame (quatMatrix mount.quat) mount.pos (applyFrame ext (int3 d 0x28) p)
  let e := place x.p
  let s1 := match g with
    | none => m.state
    | some g => m.state.markPoint g i (fieldAt d 0xE 1) (place [0, 0, 0]) e x.noReturn x.labels
  let inBody := match grid with
    | some b =>
      if bit (fieldAt d 1 1) 3 then [applyFrame (transpose3 (quatMatrix b.quat)) [0, 0, 0] (vmap2 (· - ·) e b.pos)] else []
    | none => []
  { m with state := s1, body := m.body ++ inBody }

/-- The points of one entry in range whose mount pose is available applied; the others are discarded (R250, R251).
(log entry 48: DEDUCED in part) -/
def MarkRun.points (m : MarkRun) (g : Option GridFrame) (grid : Option PoseSample) (i : Nat) (d : Bytes) (ps : List FusionPoint) :
    MarkRun :=
  ps.foldl (fun (a : MarkRun) x =>
    if !pointInRange d x.p then a
    else
      match a.state.streamPose (fieldAt d 2 1) x.t with
      | none => a
      | some mount => a.point g grid i d x mount) m

/-- The instants at which an entry needs its mount's pose: a DEPTH entry's stamp, a POINTS entry's points.
(log entry 48: DEDUCED in part) -/
def poseInstants (kind stamp : Nat) (ps : List FusionPoint) : List Nat := if kind = 2 then [stamp] else ps.map (·.t)

/-- The entries of one stream applied in order, with the points it may still use (R248); an entry with a point that has no
mount pose counts once under pose_miss, and one with no other is discarded whole (R250).
(log entry 48: DEDUCED in part) -/
def MarkRun.entries (m : MarkRun) (g : Option GridFrame) (grid : Option PoseSample) (all : List FusionSample) (i : Nat) (d : Bytes) :
    Nat → List FusionSample → MarkRun
  | _, [] => m
  | left, x :: xs =>
    let labels := all.filter (fun y => y.stamp == x.stamp && fieldAt (m.state.fusionStream y.stream) 0 1 == 3 &&
      fieldAt (m.state.fusionStream y.stream) 3 1 == i)
    let ps := if fieldAt d 0 1 = 1 then lidarPoints x.stamp x.data else depthPoints d x.stamp x.data (labels.map (·.data))
    let ts := poseInstants (fieldAt d 0 1) x.stamp (ps.take left)
    let lost := ts.filter (fun t => (m.state.streamPose (fieldAt d 2 1) t).isNone)
    let s1 := (m.state.eventAdd Ev.FUSN_EVT_STATUS_drop (ps.length - left)).eventIf (!lost.isEmpty) Ev.FUSN_EVT_STATUS_pose_miss
    let m1 := { m with
      state := s1
      missed := if !lost.isEmpty && lost.length == ts.length then (i, x.stamp) :: m.missed else m.missed }
    (m1.points g grid i d (ps.take left)).entries g grid all i d (left - ps.length) xs

/-- Every POINTS and DEPTH stream's entries applied. -/
def MarkRun.streams (m : MarkRun) (g : Option GridFrame) (grid : Option PoseSample) (all : List FusionSample) : Nat → Nat → MarkRun
  | 0, _ => m
  | k + 1, i =>
    let d := m.state.fusionStream i
    let m1 := if fieldAt d 0 1 = 1 ∨ fieldAt d 0 1 = 2 then
        m.entries g grid all i d (fieldAt d 0x50 4) (all.filter (fun x => x.stream == i))
      else m
    m1.streams g grid all k (i + 1)

/-! ### The lidar mask (R357) -/

/-- The bits of every zone that SAFETY defines. -/
def State.allZones (s : State) : Nat := (((s.safetyRecs 2).map (fun p => fieldAt p.1 2 1 % 32)).dedup.map (fun z => 2 ^ z)).sum

/-- The zones whose count of body-frame points reaches min_points. -/
def State.zoneMask (s : State) (pts : List (List Int)) : Nat :=
  ((s.safetyRecs 2).map (fun z =>
    let lo := int3 z.1 4
    let hi := int3 z.1 0x10
    let n := (pts.filter (fun p => [0, 1, 2].all (fun i => decide (lo.getD i 0 ≤ p.getD i 0) && decide (p.getD i 0 ≤ hi.getD i 0)))).length
    if fieldAt z.1 0x22 2 ≤ n then 2 ^ (fieldAt z.1 2 1 % 32) else 0)).foldl (· ||| ·) 0

/-- True while a stream flagged safety is stopped. -/
def State.safetyStopped (s : State) : Bool :=
  (List.range (fieldAt (s.fusionRec.getD []) 2 1)).any (fun i => bit (fieldAt (s.fusionStream i) 1 1) 3 && s.flag (Fld.FUSN_STREAM_fault i))

/-! ### Slots (R255 to R257) -/

/-- The mailbox payload (R256). (log entry 49: DEDUCED in part) -/
def fusionPayload (n status epoch : Nat) (pose origin : Bytes) (disputed applied late : Nat) : Bytes :=
  leBytes 8 n ++ leBytes 2 status ++ List.replicate 6 0 ++ leBytes 8 epoch ++ pose ++ origin ++ leBytes 4 disputed ++
    leBytes 4 applied ++ leBytes 4 late

/-- A slot published (R255 steps 4 and 5): the mailbox, then the registers, the lidar mask and sync_id; a mailbox that does not
translate ends it with its fault. (log entry 49: DEDUCED in part) -/
def State.publishSlot (s : State) (r : Bytes) (owner n status lidar : Nat) (payload : Bytes) : State :=
  let c := s.fusion.pubs + 1
  match s.publishMailbox owner (fieldAt r 0x30 8) c payload with
  | .error e => s.xltFault 0 owner e.1 e.2
  | .ok t =>
    let s2 := ({ t with fusion := { t.fusion with pubs := c } }.setReg64 Reg.FUSN_SLOT n).setFld Fld.FUSN_STATUS_code status
    { s2 with crust := { s2.crust with psf := { s2.crust.psf with lidar := lidar, lidarAt := some s2.now } } }.signalId
      (fieldAt r 0x2A 2) 1

/-- The 32-byte form of a pose (R247). (log entry 49: DEDUCED in part) -/
def poseBytes (p : PoseSample) : Bytes :=
  (p.pos.map (fun v => leBytes 4 (ofSigned 32 v))).flatten ++ [0, 0, 0, 0] ++ (p.quat.map (fun v => leBytes 4 (ofSigned 32 v))).flatten

/-- The first grid slot whose cut-off falls after a time. (log entry 49: DEDUCED in part) -/
def slotAfter (r : Bytes) (t : Nat) : Nat :=
  let first := gridInstant r 0 + fieldAt r 0xC 4
  if t < first then 0 else (t - first) / max (fieldAt r 4 4) 1 + 1

/-- The slot that the next cut-off belongs to: after a restart of the owner, the first whose cut-off falls after it (R257).
(log entry 49: DEDUCED in part) -/
def State.fusionNext (s : State) (r : Bytes) : Nat := s.fusion.restart.elim s.fusion.next (slotAfter r)

/-- True where a slot that was started goes on: its owner is active; a restart ends it (R257).
(log entry 49: DEDUCED in part) -/
def State.slotRuns (s : State) : Bool := s.fusionActive && s.fusion.run.isSome

/-- The grid slot after `n` as the next one. -/
def State.afterSlot (s : State) (n : Nat) : State := { s with fusion := { s.fusion with next := n + 1, restart := none } }

/-- The samples that a slot applies: LABEL entries without their partner are left out (R248).
(log entry 48: DEDUCED in part) -/
def State.pairedSamples (s : State) (xs : List FusionSample) : List FusionSample :=
  let kind := fun (i : Nat) => fieldAt (s.fusionStream i) 0 1
  xs.filter (fun y => kind y.stream != 3 ||
    xs.any (fun z => z.stream == fieldAt (s.fusionStream y.stream) 3 1 && z.stamp == y.stamp && kind z.stream == 2))

/-- The samples that were applied: those that a missing mount pose did not discard, with their labels (R248, R250).
(log entry 48: DEDUCED in part) -/
def State.appliedSamples (s : State) (xs : List FusionSample) (missed : List (Nat × Nat)) : List FusionSample :=
  xs.filter (fun y =>
    let i := if fieldAt (s.fusionStream y.stream) 0 1 = 3 then fieldAt (s.fusionStream y.stream) 3 1 else y.stream
    !missed.contains (i, y.stamp))

/-- Late samples applied counted, for the device and for their streams (R248). (log entry 48: DEDUCED in part) -/
def State.countLates (s : State) (lates : List FusionSample) : State :=
  lates.foldl (fun (a : State) y => a.setReg (Reg.FUSN_LATE y.stream) (a.reg (Reg.FUSN_LATE y.stream) + 1))
    (s.eventAdd Ev.FUSN_EVT_STATUS_late lates.length)

/-- The frame of the body grid around a pose (R252). -/
def State.gridFrame (s : State) (r : Bytes) (p : PoseSample) : GridFrame :=
  let size := [fieldAt r 0x18 2, fieldAt r 0x1A 2, fieldAt r 0x1C 2]
  let leaf := s.mapCfg?.elim 50 (·.leafMm)
  ⟨leaf, (p.pos.zip size).map (fun (q : Int × Nat) => worldCell leaf q.1 - ((q.2 / 2 : Nat) : Int)), size, fieldAt r 0x2C 4,
    slice (s.blob 0xA) (fieldAt r 0x24 4) (fieldAt r 0x28 2)⟩

/-- The samples of a slot taken and its cells marked (R255 steps 1 and 2). (log entry 48: DEDUCED in part) -/
def State.startSlot (s : State) (r : Bytes) (owner n : Nat) : State :=
  let t := gridInstant r n % 2 ^ 32
  let streams := fieldAt r 2 1
  let x := s.takeSamples owner n streams 0 []
  let used := x.1.pairedSamples x.2
  let s1 := x.1.eventAdd Ev.FUSN_EVT_STATUS_unpaired (x.2.length - used.length)
  let s2 := (List.range streams).foldl (fun (a : State) i =>
    if fieldAt (a.fusionStream i) 0 1 = 0 then a.setFld (Fld.FUSN_STREAM_pose_avail i) (b2n (a.streamPose i t).isSome) else a) s1
  let grid := s2.streamPose (fieldAt r 3 1) t
  let frame := grid.map (s2.gridFrame r)
  let s3 := s2.zeroRange (dieLocal 0 (fieldAt r 0x2C 4)) (16 * (fieldAt r 0x18 2 * fieldAt r 0x1A 2 * fieldAt r 0x1C 2))
  let m := MarkRun.streams ⟨s3, [], []⟩ frame grid used streams 0
  let applied := m.state.appliedSamples used m.missed
  let lates := applied.filter (·.late)
  let s4 := m.state.countLates lates
  let stopped := (List.range streams).any (fun i => s4.flag (Fld.FUSN_STREAM_fault i))
  let status := if grid.isNone then 0x0801 else if stopped then 0x0803 else 0
  let lidar := if grid.isNone || s4.safetyStopped then s4.allZones else s4.zoneMask m.body
  let run : FusionRun := ⟨n, status, grid, frame.elim [] (·.origin), applied.length, lates.length, lidar⟩
  let s5 := { s4 with fusion := { s4.fusion with run := some run } }
  let s6 := (s5.afterSlot n).setFld Fld.FUSN_STATUS_busy 1
  if grid.isNone then (s6.event Ev.FUSN_EVT_STATUS_grid_pose).report 0x0D 0 else s6

/-- A slot skipped because the one before it still runs (R255): the event, and the payload that it publishes.
(log entry 49: DEDUCED in part) -/
def State.slotSkipped (s : State) (n : Nat) : State × Bytes :=
  (((s.afterSlot n).event Ev.FUSN_EVT_STATUS_overrun).useFree 44,
    fusionPayload n 0x0802 (s.world 0).epoch (s.freeBytes 32) ((s.useFree 32).freeBytes 12) 0 0 0)

/-- FUSION_CUTOFF (R248, R255): the cut-off of the next slot has come; it starts, or is skipped with 0x0802 while the slot
before it still runs. (log entry 49: DEDUCED in part) -/
def execFusionCutoff (s : State) : Host.Outcome State Fault Refusal :=
  .next (match s.fusionRec, s.fusionOwner with
    | some r, some owner =>
      let n := s.fusionNext r
      if s.fusionActive = false ∨ s.blkOpen 0 0x27 = false ∨ s.now < gridInstant r n + fieldAt r 0xC 4 then s
      else if s.slotRuns then
        let x := s.slotSkipped n
        x.1.publishSlot r owner n 0x0802 s.allZones x.2
      else s.startSlot r owner n
    | _, _ => s)

/-- The groups of the streams whose bits a mask holds. (log entry 49: DEDUCED in part) -/
def State.maskGroups (s : State) (mask : Nat) : List Nat :=
  ((List.range 32).filter (fun i => bit mask i)).map (fun i => fieldAt (s.fusionStream i) 1 1 % 8)

/-- The result of a grid cell (R254): 0 for no write. -/
def State.resolveCell (s : State) (a : Nat) : Nat :=
  let hit := leNat (s.readPhys a 4)
  let pass := leNat (s.readPhys (a + 4) 4)
  if hit = 0 then (if pass = 0 then 0 else 1)
  else if (s.maskGroups pass).any (fun g => (s.maskGroups hit).any (fun h => h != g)) then 3
  else 2

/-- The writes of a slot to the live slot of the map, in grid order, with their results.
(log entry 49: DEDUCED in part) -/
def State.slotWrites (s : State) (cfg : MapCfg) (r : Bytes) (origin : List Int) : List (Nat × List Int × Bytes) :=
  let nx := fieldAt r 0x18 2
  let ny := fieldAt r 0x1A 2
  (List.range (nx * ny * fieldAt r 0x1C 2)).filterMap (fun i =>
    let a := dieLocal 0 (fieldAt r 0x2C 4 + 16 * i)
    let res := s.resolveCell a
    let c := vmap2 (· + ·) origin [((i % nx : Nat) : Int), ((i / nx % ny : Nat) : Int), ((i / nx / ny : Nat) : Int)]
    if res = 0 ∨ cfg.depth = 0 then none else some (res, c, s.readPhys (a + 8) 7))

/-- The map write of a slot that ends, and the payload that it publishes (R255 step 3, R256): without a pose of the grid it writes no
cell. (log entry 49: DEDUCED in part) -/
def State.slotResult (s : State) (r : Bytes) (f : FusionRun) : State × Bytes :=
  match s.mapCfg?, f.pose with
  | some cfg, some pose =>
    let ws := s.slotWrites cfg r f.origin
    let disputed := (ws.filter (fun w => w.1 == 3)).length
    let s1 := match s.mapBatch cfg 0 (ws.map (fun (w : Nat × List Int × Bytes) =>
        (w.2.1, fun (old : MapCell) => writeCell cfg.freeConfirm w.1 w.2.2 old))) with
      | some u => u
      | none => s.nodesFull
    (s1.eventAdd Ev.FUSN_EVT_STATUS_dispute disputed, fusionPayload f.n f.status (s1.world 0).epoch (poseBytes pose)
      ((f.origin.map (fun v => leBytes 4 (ofSigned 32 v))).flatten) disputed f.applied f.late)
  | _, _ => (s.useFree 44, fusionPayload f.n f.status (s.world 0).epoch (s.freeBytes 32) ((s.useFree 32).freeBytes 12) 0 f.applied f.late)

/-- The state with no slot running. -/
def State.slotEnds (s : State) : State := { s with fusion := { s.fusion with run := none } }.setFld Fld.FUSN_STATUS_busy 0

/-- FUSION_SLOT_COMPLETE (R255 steps 3 to 5): the slot's writes become one epoch of the live slot, and the slot is
published; a slot whose owner has stopped since writes and publishes nothing (R257). (log entry 49: DEDUCED in part) -/
def execFusionSlotComplete (s : State) : Host.Outcome State Fault Refusal :=
  .next (match s.fusionRec, s.fusionOwner, s.fusion.run with
    | some r, some owner, some f =>
      if s.slotRuns = false then s.slotEnds
      else
        let x := s.slotEnds.slotResult r f
        x.1.publishSlot r owner f.n f.status f.lidar x.2
    | _, _, _ => s)

end Sys2Proof.Machine
end

