-- ==== Sys2Proof/Machine/Plan.lean ====
section
/-! DEFINITION. The motion planner (chapter 16): the robot model, candidates and kinematics, collision queries, the Sieve,
recheck, time-scaling and the mailbox. -/

namespace Sys2Proof.Machine

/-! ### Robot model and primitives (R279 to R281) -/

/-- A joint of the robot model (R280). -/
structure PlanJoint where
  parent : Nat
  kind : Nat
  rot : List (List Int)
  off : List Int
  qMin : Int
  qMax : Int
  tauEnv : Nat
deriving DecidableEq, Repr

/-- A capsule of the robot model (R280). -/
structure PlanCapsule where
  joint : Nat
  a : List Int
  b : List Int
  r : Nat
deriving DecidableEq, Repr

/-- The robot model at the head of the PLANTAB blob (R279). -/
structure PlanModel where
  stopNs : Nat
  weights : List Nat
  mbox : Nat
  joints : List PlanJoint
  capsules : List PlanCapsule
deriving DecidableEq, Repr

/-- The fields of a joint record. -/
def planJointOf (r : Bytes) : PlanJoint :=
  ⟨fieldAt r 0 1, fieldAt r 1 1, [int3 r 4, int3 r 0x10, int3 r 0x1C], int3 r 0x28, sfieldAt r 0x34 4, sfieldAt r 0x38 4, fieldAt r 0x3C 4⟩

/-- The robot model of a blob. -/
def planModelOf (blob : Bytes) : PlanModel :=
  let nj := fieldAt blob 0 1
  ⟨fieldAt blob 4 4, (List.range 7).map (fun i => fieldAt blob (8 + 2 * i) 2), fieldAt blob 0x18 8,
    (List.range nj).map (fun j => planJointOf (slice blob (64 + 64 * j) 64)),
    (List.range (fieldAt blob 1 1)).map (fun i =>
      let r := slice blob (64 + 64 * nj + 32 * i) 32
      ⟨fieldAt r 0 1, int3 r 4, int3 r 0x10, fieldAt r 0x1C 4⟩)⟩

/-- The joint entry of a primitive: dq, mq, ta, tb (R281). -/
def primJoint (blob prim : Bytes) (j : Nat) : Int × Int × Nat × Nat :=
  let e := slice blob (fieldAt prim 0x10 4 + 16 * j) 16
  (sfieldAt e 0 4, sfieldAt e 4 4, fieldAt e 8 4, fieldAt e 0xC 4)

/-- The margin of a capsule in a primitive, in µm. -/
def primMargin (blob prim : Bytes) (i : Nat) : Nat := fieldAt blob (fieldAt prim 0x18 4 + 4 * i) 4

/-! ### Kinematics (R288, R289) -/

/-- Σ (-1)^n x^(2n+1) / (2n+1)! in fixed point for x² with `seriesBits` fraction bits, over the next `k` terms. -/
def sinSeries (x2 : Nat) : Nat → Nat → Nat → Int → Int → Int
  | 0, _, _, _, acc => acc
  | k + 1, n, t, sg, acc => sinSeries x2 k (n + 2) (t * x2 / 2 ^ seriesBits / ((n + 1) * (n + 2))) (-sg) (acc + sg * (t : Int))

/-- Entry k of the sine table: 2^30 × sin(πk / 2,048). -/
def tSin (k : Nat) : Int :=
  let x := piFix * k / 2048
  roundFix ((2 : Int) ^ 30 * sinSeries (x * x / 2 ^ seriesBits) 60 1 x 1 0)

/-- The interpolation of R288 over a quarter turn. -/
def sinQuarter (x : Nat) : Int :=
  if x = 2 ^ 22 then tSin 1024 else interpolate tSin (x / 2 ^ 12) (x % 2 ^ 12) 12

/-- The sine of an angle of 24 fraction bits of a turn (R288). -/
def sinTurn (theta : Nat) : Int :=
  let f := theta % 2 ^ 22
  match theta % 2 ^ 24 / 2 ^ 22 with
  | 0 => sinQuarter f
  | 1 => sinQuarter (2 ^ 22 - f)
  | 2 => -sinQuarter f
  | _ => -sinQuarter (2 ^ 22 - f)

/-- A frame: rotation by rows and translation. -/
structure PlanFrame where
  rot : List (List Int)
  t : List Int
deriving DecidableEq, Repr

/-- The product of two rotations, each element rounded once (R289). -/
def mulFrame (a b : List (List Int)) : List (List Int) :=
  let cols := transpose3 b
  a.map (fun r => cols.map (fun c => rshiftRne (dot r c) 30))

/-- The frame of a joint from its parent's frame at a position (R289). -/
def linkFrame (p : PlanFrame) (j : PlanJoint) (q : Int) : PlanFrame :=
  let mo := mulFrame p.rot j.rot
  let to' := applyFrame p.rot p.t j.off
  if j.kind = 0 then
    let theta := (q % (2 : Int) ^ 24).toNat
    let s := sinTurn theta
    let c := sinTurn ((theta + 2 ^ 22) % 2 ^ 24)
    ⟨mo.map (fun r =>
      let x := r.getD 0 0
      let y := r.getD 1 0
      [rshiftRne (x * c + y * s) 30, rshiftRne (y * c - x * s) 30, r.getD 2 0]), to'⟩
  else if j.kind = 1 then ⟨mo, (mo.zip to').map (fun (x : List Int × Int) => x.2 + rshiftRne (x.1.getD 2 0 * q) 30)⟩
  else ⟨mo, to'⟩

/-- The frames of the joints in ascending order. -/
def jointFrames (base : PlanFrame) (js : List PlanJoint) (qs : List Int) : List PlanFrame :=
  (js.zip qs).foldl (fun (fs : List PlanFrame) x =>
    fs ++ [linkFrame (if x.1.parent = 255 then base else fs.getD x.1.parent base) x.1 x.2]) []

/-- A capsule placed in the world, in µm, with its test radius. -/
structure PlacedCapsule where
  a : List Int
  b : List Int
  r : Int
deriving DecidableEq, Repr

/-- 2^-16 m as µm (R289). -/
def toMicron (p : Int) : Int := divRne (p * 15625) 1024

/-- The capsules of a segment at its midpoint positions (R289). -/
def segmentCapsules (m : PlanModel) (blob prim : Bytes) (base : PlanFrame) (qm : List Int) : List PlacedCapsule :=
  let fs := jointFrames base m.joints qm
  m.capsules.zipIdx.map (fun c =>
    let f := fs.getD c.1.joint base
    ⟨(applyFrame f.rot f.t c.1.a).map toMicron, (applyFrame f.rot f.t c.1.b).map toMicron,
      ((c.1.r + primMargin blob prim c.2 : Nat) : Int)⟩)

/-! ### Collision tests (R290 to R292) -/

/-- The touch rule of R290 for a sphere of centre c and radius h. -/
def touches (x : PlacedCapsule) (c : List Int) (h : Int) : Bool :=
  let v := vmap2 (· - ·) x.b x.a
  let w := vmap2 (· - ·) c x.a
  let rho := x.r + h
  let wv := dot w v
  let vv := dot v v
  if wv ≤ 0 then decide (dot w w ≤ rho * rho)
  else if vv ≤ wv then
    let u := vmap2 (· - ·) c x.b
    decide (dot u u ≤ rho * rho)
  else decide (dot w w * vv - wv * wv ≤ rho * rho * vv)

/-- The smallest h with h² ≥ n. -/
def ceilRoot (n : Nat) : Nat := if isqrt n * isqrt n = n then isqrt n else isqrt n + 1

/-- What a query carries: whether it has hit, the segment's running maxima, and node tests. -/
structure QueryAcc where
  hit : Bool
  maxima : List Nat
  tests : Nat
deriving DecidableEq, Repr

/-- The running maxima raised to a node's costs. -/
def raiseMaxima (m : List Nat) (costs : Bytes) : List Nat := (m.zip costs).map (fun (x : Nat × Byte) => max x.1 x.2.toNat)

/-- The walk of R291 from a node at remaining depth `d` whose first leaf has a relative index.
(log entry 54: DEDUCED in part) -/
def queryTree (cfg : MapCfg) (x : PlacedCapsule) : Nat → MapTree → List Nat → QueryAcc → QueryAcc
  | d, t, base, acc =>
    if acc.hit then acc
    else
      let side := cfg.leafMm * 2 ^ d
      let c := (base.zip cfg.origin).map (fun (p : Nat × Int) =>
        1000 * (cfg.leafMm : Int) * (p.2 + (p.1 : Int)) + 500 * (side : Int))
      let acc1 := { acc with tests := acc.tests + 1 }
      if !touches x c (ceilRoot (750000 * side ^ 2)) then acc1
      else
        match d, t with
        | _, .absent => { acc1 with hit := cfg.blocking 0 }
        | _, .cell y => if cfg.blocking y.state then { acc1 with hit := true } else { acc1 with maxima := raiseMaxima acc1.maxima y.costs }
        | 0, .inner _ _ _ _ _ _ _ _ _ => acc1
        | d' + 1, .inner g c0 c1 c2 c3 c4 c5 c6 c7 =>
          let t := MapTree.inner g c0 c1 c2 c3 c4 c5 c6 c7
          let m := t.summary
          if [0, 1, 2, 3].any (fun i => m.1.testBit i && cfg.blocking i) ||
              (acc1.maxima.zip m.2).any (fun (p : Nat × Byte) => decide (p.1 < p.2.toNat)) then
            (List.range 8).foldl (fun (a : QueryAcc) j =>
              queryTree cfg x d' (t.kids.getD j .absent)
                (base.zipIdx.map (fun p => p.1 + (if j.testBit p.2 then 2 ^ d' else 0))) a) acc1
          else acc1

/-- The leaf indices of a capsule's box on the three axes, lowest and highest, relative to the tree.
(log entry 54: DEDUCED in part) -/
def boxLeaves (cfg : MapCfg) (x : PlacedCapsule) : List (Int × Int) :=
  let e : Int := 1000 * cfg.leafMm
  ((x.a.zip x.b).zip cfg.origin).map (fun (p : (Int × Int) × Int) =>
    ((min p.1.1 p.1.2 - x.r) / e - p.2, (max p.1.1 p.1.2 + x.r) / e - p.2))

/-- A query of one capsule in TREE mode with running maxima (R291). (log entry 54: DEDUCED in part) -/
def queryWorld (cfg : MapCfg) (tree : MapTree) (x : PlacedCapsule) (maxima : List Nat) : QueryAcc :=
  let outside := (boxLeaves cfg x).any (fun b => decide (b.1 < 0) || decide ((2 : Int) ^ cfg.depth ≤ b.2))
  queryTree cfg x cfg.depth tree [0, 0, 0] ⟨outside && cfg.blocking 0, maxima, 0⟩

/-- The smallest N of at least 1 with N² × g² ≥ |b - a|² (R292). (log entry 54: DEDUCED in part) -/
def sampleCount (g : Nat) (x : PlacedCapsule) : Nat :=
  let v := vmap2 (· - ·) x.b x.a
  let n := (dot v v).toNat
  max 1 (ceilDiv (ceilRoot n) (max g 1))

/-- A sample of the field at a point in µm: the value, −32,767 outside the field (R271, R292). -/
def State.fieldSample (s : State) (cfg : MapCfg) (p : List Int) : Except (Nat × Nat) Int :=
  let e : Int := 1000 * cfg.leafMm
  let c := (p.zip cfg.sdfOrigin).map (fun (x : Int × Int) => (x.1 / e - x.2) / (2 : Int) ^ cfg.sdfShift)
  if (c.zip cfg.sdfN).all (fun (x : Int × Nat) => decide (0 ≤ x.1) && decide (x.1 < x.2)) then
    let i := ((c.getD 2 0 * (cfg.sdfN.getD 1 0 : Nat) + c.getD 1 0) * (cfg.sdfN.getD 0 0 : Nat) + c.getD 0 0).toNat
    match s.readVa (.engine 0) cfg.owner (cfg.sdfVa + 2 * i) 2 with
    | .error err => .error err
    | .ok b => .ok (sfieldAt b 0 2)
  else .ok (-32767)

/-- A query of one capsule in SDF mode (R292): whether it hits, or the fault of a read of the field.
(log entry 54: DEDUCED in part) -/
def State.queryField (s : State) (cfg : MapCfg) (x : PlacedCapsule) : Except (Nat × Nat) QueryAcc :=
  let ef := cfg.leafMm * 2 ^ cfg.sdfShift
  let g := 1000 * ef
  let n := sampleCount g x
  let limit : Int := x.r + 2 * (ceilRoot (750000 * ef ^ 2) : Int) + (ceilDiv g 2 : Int)
  if !s.flag Fld.MAP_STATUS_sdf_valid then .ok ⟨true, List.replicate 7 0, n + 1⟩
  else
    (List.range (n + 1)).foldl (fun (r : Except (Nat × Nat) QueryAcc) k =>
      match r with
      | .error e => .error e
      | .ok a =>
        match s.fieldSample cfg (vmap2 (fun p q => p + divRne ((q - p) * (k : Int)) n) x.a x.b) with
        | .error e => .error e
        | .ok d => .ok { a with hit := a.hit || decide (1000 * d ≤ limit) }) (.ok ⟨false, List.replicate 7 0, n + 1⟩)

/-! ### Candidates (R284, R286, R287, R293) -/

/-- What a batch works with: the map, the robot model, the PLANTAB records and blob, the base frame, start positions and
start class, and the tree of e0 (none in SDF mode). -/
structure PlanCtx where
  cfg : MapCfg
  model : PlanModel
  prims : List Bytes
  blob : Bytes
  base : PlanFrame
  q0 : List Int
  startClass : Nat
  tree : Option MapTree

/-- The primitive numbers of a candidate. -/
def candPrims (c : Bytes) : List Nat := (List.range (fieldAt c 0 1)).map (fun k => fieldAt c (2 + 2 * k) 2)

/-- True for a valid candidate (R286). -/
def PlanCtx.candOk (p : PlanCtx) (c : Bytes) : Bool :=
  let n := fieldAt c 0 1
  let ps := candPrims c
  let rec' := fun (k : Nat) => p.prims.getD (ps.getD k 0) []
  decide (1 ≤ n) && decide (n ≤ 8) && ps.all (fun x => decide (x < p.prims.length)) &&
    fieldAt (rec' 0) 1 1 == p.startClass &&
    (List.range (n - 1)).all (fun k => fieldAt (rec' k) 2 1 == fieldAt (rec' (k + 1)) 1 1) &&
    fieldAt c 1 1 == 0 && allZero (slice c (2 + 2 * n) (16 - 2 * n)) && allZero (slice c 0x12 14)

/-- The segments of a candidate: primitive record, start positions (R287). -/
def PlanCtx.segments (p : PlanCtx) (c : Bytes) : List (Bytes × List Int) :=
  ((candPrims c).foldl (fun (r : List (Bytes × List Int) × List Int) x =>
    let rec' := p.prims.getD x []
    (r.1 ++ [(rec', r.2)], r.2.zipIdx.map (fun q => q.1 + (primJoint p.blob rec' q.2).1))) ([], p.q0)).1

/-- The midpoint positions of a segment. -/
def PlanCtx.midpoint (p : PlanCtx) (x : Bytes × List Int) : List Int :=
  x.2.zipIdx.map (fun q => q.1 + (primJoint p.blob x.1 q.2).2.1)

/-- True where every position of a segment is within its joint's limits (R287). -/
def PlanCtx.inLimits (p : PlanCtx) (x : Bytes × List Int) : Bool :=
  let ok := fun (qs : List Int) => (p.model.joints.zip qs).all (fun j => decide (j.1.qMin ≤ j.2) && decide (j.2 ≤ j.1.qMax))
  ok x.2 && ok (p.midpoint x) && ok (x.2.zipIdx.map (fun q => q.1 + (primJoint p.blob x.1 q.2).1))

/-- The capsules of a segment. -/
def PlanCtx.capsules (p : PlanCtx) (x : Bytes × List Int) : List PlacedCapsule :=
  segmentCapsules p.model p.blob x.1 p.base (p.midpoint x)

/-- The outcome of a candidate: its code (0 CLEAR, 1 HIT, 2 INVALID, 3 LIMIT), cost, hit segment and capsule, tests and
queries (R297). -/
structure CandResult where
  outcome : Nat := 0
  cost : Nat := 0
  seg : Nat := 255
  cap : Nat := 255
  tests : Nat := 0
  queries : Nat := 0
deriving DecidableEq, Repr

/-- The capsules of segment `k` queried in order, from capsule `i` on: the running maxima and the result so far.
(log entry 54: DEDUCED in part) -/
def State.querySegment (s : State) (p : PlanCtx) (k : Nat) : Nat → List PlacedCapsule → List Nat → CandResult →
    Except (Nat × Nat) (List Nat × CandResult)
  | _, [], m, r => .ok (m, r)
  | i, x :: xs, m, r =>
    match (match p.tree with
      | some t => Except.ok (queryWorld p.cfg t x m)
      | none => s.queryField p.cfg x) with
    | .error e => .error e
    | .ok a =>
      let r1 := { r with tests := r.tests + a.tests, queries := r.queries + 1 }
      if a.hit then .ok (m, { r1 with outcome := 1, seg := k, cap := i })
      else s.querySegment p k (i + 1) xs (if p.tree.isSome then a.maxima else m) r1

/-- The segments of a candidate queried in order (R291, R293). -/
def State.querySegments (s : State) (p : PlanCtx) : Nat → List (Bytes × List Int) → CandResult → Except (Nat × Nat) CandResult
  | _, [], r => .ok r
  | k, x :: xs, r =>
    match s.querySegment p k 0 (p.capsules x) (List.replicate 7 0) r with
    | .error e => .error e
    | .ok (m, r1) =>
      if r1.outcome = 1 then .ok r1
      else
        let c := fieldAt x.1 8 2 + ((p.model.weights.zip m).map (fun (w : Nat × Nat) => w.1 * w.2)).sum
        s.querySegments p (k + 1) xs { r1 with cost := r1.cost + c }

/-- One candidate tested (R285 steps 2 and 3). (log entry 54: DEDUCED in part) -/
def State.testCandidate (s : State) (p : PlanCtx) (c : Bytes) : Except (Nat × Nat) CandResult :=
  if !p.candOk c then .ok { outcome := 2 }
  else if !(p.segments c).all p.inLimits then .ok { outcome := 3 }
  else s.querySegments p 0 (p.segments c) {}

/-- Every candidate tested. -/
def State.testCandidates (s : State) (p : PlanCtx) : List Bytes → Except (Nat × Nat) (List CandResult)
  | [] => .ok []
  | c :: cs =>
    match s.testCandidate p c with
    | .error e => .error e
    | .ok r =>
      match s.testCandidates p cs with
      | .error e => .error e
      | .ok rs => .ok (r :: rs)

/-- The result record of a candidate (R297). -/
def candRecord (r : CandResult) : Bytes :=
  leBytes 4 (if r.outcome = 0 then r.cost else 0xFFFFFFFF) ++ leBytes 1 r.outcome ++ leBytes 1 r.seg ++ leBytes 1 r.cap ++ [0]

/-- A clear candidate placed by (cost, index) among the retained (R293). -/
def insertRank (x : Nat × Nat) : List (Nat × Nat) → List (Nat × Nat)
  | [] => [x]
  | y :: ys => if x.1 < y.1 ∨ (x.1 = y.1 ∧ x.2 < y.2) then x :: y :: ys else y :: insertRank x ys

/-- The Sieve (R293): the eight clear candidates with the smallest pairs (cost, index), in rank order.
(log entry 54: DEDUCED in part) -/
def sieve (rs : List CandResult) : List (Nat × Nat) :=
  (rs.zipIdx.foldl (fun (l : List (Nat × Nat)) r => if r.1.outcome = 0 then insertRank (r.1.cost, r.2) l else l) []).take 8

/-! ### Recheck and time-scaling (R294, R295) -/

/-- The delta records of a slot between two heads with epochs in (e0, e1] (R268, R294): region indices, or a whole slot.
(log entry 54: DEDUCED in part) -/
def State.deltaRegions (s : State) (cfg : MapCfg) (slot e0 e1 h0 h1 : Nat) : Except (Nat × Nat) (List (Option (List Nat))) :=
  (List.range (h1 - h0)).foldl (fun (r : Except (Nat × Nat) (List (Option (List Nat)))) i =>
    match r with
    | .error e => .error e
    | .ok l =>
      match s.readVa (.engine 0) cfg.owner (cfg.deltaVa + (h0 + i) % max cfg.deltaEntries 1 * 16) 16 with
      | .error e => .error e
      | .ok b =>
        let ep := fieldAt b 8 8
        if fieldAt b 0 2 = slot ∧ e0 < ep ∧ ep ≤ e1 then
          .ok (l ++ [if fieldAt b 2 2 = 0xFFFF then none else some [fieldAt b 2 2, fieldAt b 4 2, fieldAt b 6 2]])
        else .ok l) (.ok [])

/-- True for a capsule that the changes since e0 may touch (R294). (log entry 54: DEDUCED in part) -/
def affected (cfg : MapCfg) (lost : Bool) (regions : List (Option (List Nat))) (x : PlacedCapsule) : Bool :=
  lost || regions.any (fun r =>
    match r with
    | none => true
    | some g => ((boxLeaves cfg x).zip g).all (fun (p : (Int × Int) × Nat) =>
        decide (p.1.1 < ((p.2 + 1) * 2 ^ cfg.deltaLevel : Nat)) && decide (((p.2 * 2 ^ cfg.deltaLevel : Nat) : Int) ≤ p.1.2)))

/-- The recheck of a candidate's affected capsules against e1, for blocking only: whether it passes, tests, queries.
(log entry 54: DEDUCED in part) -/
def recheck (cfg : MapCfg) (e1 : MapTree) : List PlacedCapsule → Bool × Nat × Nat
  | [] => (true, 0, 0)
  | x :: xs =>
    let a := queryWorld cfg e1 x (List.replicate 7 255)
    if a.hit then (false, a.tests, 1)
    else
      let r := recheck cfg e1 xs
      (r.1, a.tests + r.2.1, r.2.2 + 1)

/-- True where a path rate of λ / 256 keeps every joint within its torque envelope (R295). -/
def PlanCtx.rateOk (p : PlanCtx) (segs : List (Bytes × List Int)) (lambda : Nat) : Bool :=
  segs.all (fun x => p.model.joints.zipIdx.all (fun j =>
    let e := primJoint p.blob x.1 j.2
    decide (e.2.2.1 * lambda ^ 2 + e.2.2.2 * 256 * lambda ≤ j.1.tauEnv * 65536)))

/-- The largest λ from 1 to n that holds (R295); none where λ = 1 fails. -/
def PlanCtx.lambda (p : PlanCtx) (segs : List (Bytes × List Int)) : Nat → Option Nat
  | 0 => none
  | n + 1 => if p.rateOk segs (n + 1) then some (n + 1) else p.lambda segs n

/-- The outcome of step 6: the chosen candidate (rank, cost, index, λ), and what was counted. -/
structure PlanChoice where
  chosen : Option (Nat × Nat × Nat × Nat) := none
  recheckFails : Nat := 0
  tsFails : Nat := 0
  tests : Nat := 0
  queries : Nat := 0
deriving DecidableEq, Repr

/-- Step 6 over the retained candidates in rank order (R285, R294, R295). `check` names the capsules to query again.
(log entry 54: DEDUCED in part) -/
def PlanCtx.choose (p : PlanCtx) (cand : Nat → Bytes) (e1 : MapTree) (check : PlacedCapsule → Bool) :
    Nat → List (Nat × Nat) → PlanChoice → PlanChoice
  | _, [], r => r
  | rank, (cost, i) :: rest, r =>
    let segs := p.segments (cand i)
    let k := recheck p.cfg e1 ((segs.flatMap p.capsules).filter check)
    let r1 := { r with tests := r.tests + k.2.1, queries := r.queries + k.2.2 }
    if !k.1 then p.choose cand e1 check (rank + 1) rest { r1 with recheckFails := r1.recheckFails + 1 }
    else
      match p.lambda segs 256 with
      | none => p.choose cand e1 check (rank + 1) rest { r1 with tsFails := r1.tsFails + 1 }
      | some l => { r1 with chosen := some (rank, cost, i, l) }

/-! ### The mailbox (R296, R297) -/

/-- What a mailbox payload states. -/
structure PlanOut where
  status : Nat
  kind : Nat
  n : Nat
  rank : Nat
  lambda : Nat
  index : Nat
  cost : Nat
  e0 : Nat
  e1 : Nat
  planTime : Nat
  prims : Bytes
  durations : Bytes
  clear : Nat
  hit : Nat
  invalid : Nat
  tStop : Nat
deriving DecidableEq, Repr

/-- The 128 bytes of a mailbox payload. (log entry 53: DEDUCED in part) -/
def planPayload (number : Nat) (o : PlanOut) : Bytes :=
  leBytes 8 number ++ leBytes 2 o.status ++ leBytes 1 o.kind ++ leBytes 1 o.n ++ leBytes 1 o.rank ++ [0] ++ leBytes 2 o.lambda ++
    leBytes 4 o.index ++ leBytes 4 o.cost ++ leBytes 8 o.e0 ++ leBytes 8 o.e1 ++ leBytes 8 o.planTime ++ slice o.prims 0 16 ++
    slice o.durations 0 32 ++ leBytes 4 o.clear ++ leBytes 4 o.hit ++ leBytes 4 o.invalid ++ leBytes 4 0 ++ leBytes 8 o.tStop ++
    leBytes 8 0

/-- A batch ended for a run: its pins released and the run marked with the operation's code. -/
def State.endBatch (s : State) (r : Run) (code : Nat) : State :=
  let s1 := { s with plan := { s.plan with batch := none } }.dropPins (some r.id)
  (s1.setFld Fld.PLAN_STATUS_busy 0).setRun (r.finishOp code {} r.die [])

/-- A batch ended by a translation fault (R186, R298). (log entry 53: DEDUCED in part) -/
def State.faultBatch (s : State) (r : Run) (ctx : Nat) (e : Nat × Nat) : State := (s.xltFault 0 ctx e.1 e.2).endBatch r e.1

/-- The registers of a published batch: counts of tests, queries and cycles. (log entry 53: DEDUCED in part) -/
def State.planCounts (s : State) (o : PlanOut) (b : PlanBatch) : State :=
  let s1 := (s.count64 Reg.PLAN_BATCHES 1).setFld Fld.PLAN_STATUS_code o.status
  let s2 := ((s1.setFld Fld.PLAN_LAST_candidate o.index).setFld Fld.PLAN_LAST_rank (if o.kind = 1 then 0 else o.rank)).setFld
    Fld.PLAN_LAST_kind o.kind
  let s3 := ((s2.setFld Fld.PLAN_LAST_lambda o.lambda).setReg64 Reg.PLAN_LAST_TESTS b.tests).setReg64 Reg.PLAN_LAST_QUERIES b.queries
  s3.setFld Fld.PLAN_LAST_CYCLES_cycles (min 0xFFFFFFFF ((s3.batchRun b).toNat / 16000000))

/-- A batch published and completed (R285 step 7, R296): the previous plan and t_stop, the mailbox, the registers.
(log entry 53: DEDUCED in part) -/
def State.publishPlan (s : State) (r : Run) (b : PlanBatch) (o : PlanOut) (code : Nat) : State :=
  let m := planModelOf (s.blob 9)
  let owner := (s.engineCtx 7).getD 0
  match s.publishMailbox owner m.mbox (s.plan.pubs + 1) (planPayload (s.reg64 Reg.PLAN_BATCHES) o) with
  | .error e => s.faultBatch r owner e
  | .ok t =>
    let p := t.plan
    let p1 : PlanSt :=
      if o.kind = 0 then { p with prev := some ⟨o.n, o.lambda, o.index, o.planTime, o.prims, o.durations⟩, tStop := none }
      else { p with tStop := if p.prev.isSome then some o.tStop else none }
    (({ t with plan := { p1 with pubs := p.pubs + 1 } }.planCounts o b).eventIf (o.kind == 1)
      Ev.PLAN_EVT_STATUS_no_plan).endBatch r code

/-- What the open fields of a STOP may depend on (R299). (log entry 53: DEDUCED in part) -/
def State.stopInputs (s : State) (r : Run) (b : PlanBatch) (status : Nat) : List Bytes :=
  let nodes := fun (t : MapTree) => (t.preorder 14).flatten
  [leBytes 2 status, (s.recs 9).flatten, s.blob 9, r.args, b.block, b.cands,
    (s.map.pins.find? (fun p => p.owner == some r.id)).elim [] (fun p => nodes p.world.tree),
    if b.tree then nodes (s.world b.slot).tree else []]

/-- A STOP (R296): it repeats the previous plan; its cost is open, and so are, with no previous plan, the fields that it would
repeat, and e0 and e1 where the batch ended before it pinned them. (log entry 53: DEDUCED in part) -/
def State.stopOut (s : State) (r : Run) (b : PlanBatch) (status : Nat) (e0 e1 : Option Nat) : PlanOut :=
  let f := (List.range 42).map (Config.planOpen (s.stopInputs r b status))
  let planTime := fieldAt b.block 0x28 8
  let old : PrevPlan := s.plan.prev.getD ⟨0, fieldAt f 4 2, fieldAt f 6 4, fieldAt f 10 8, [], []⟩
  let tStop := if s.plan.prev.isNone then fieldAt f 18 8 else s.plan.tStop.getD planTime
  ⟨status, 1, old.n, 255, old.lambda, old.index, fieldAt f 0 4, e0.getD (fieldAt f 26 8), e1.getD (fieldAt f 34 8), old.planTime,
    old.prims, old.durations, b.clear, b.hit, b.invalid, tStop⟩

/-- A STOP published. (log entry 53: DEDUCED in part) -/
def State.publishStop (s : State) (r : Run) (b : PlanBatch) (status code : Nat) (e0 e1 : Option Nat) : State :=
  s.publishPlan r b (s.stopOut r b status e0 e1) code

/-! ### The two halves of a batch (R285) -/

/-- The base pose of a start block as a frame (R286, R289); none where its quaternion normalises to N = 0. -/
def startBase (b : Bytes) : Option PlanFrame := (normQuat (int3 b 0x10 ++ [sfieldAt b 0x1C 4])).map (fun q => ⟨quatMatrix q, int3 b 0⟩)

/-- True for a start block with positions in range and zero reserved bytes (R286). (log entry 53: DEDUCED in part) -/
def startOk (m : PlanModel) (b : Bytes) : Bool :=
  m.joints.zipIdx.all (fun j =>
    let q := sfieldAt b (0x40 + 4 * j.2) 4
    decide (j.1.qMin ≤ q) && decide (q ≤ j.1.qMax)) &&
  allZero (slice b 0xC 4) && allZero (slice b 0x21 7) && allZero (slice b 0x30 16)

/-- The run-time candidate count and slot of a batch (R283). (log entry 53: DEDUCED in part) -/
def batchCount (d args : Bytes) : Nat := if fieldAt d 4 1 = 255 then fieldAt d 0xC 2 else fieldAt args (fieldAt d 4 1) 4

/-- The world slot of a batch. (log entry 53: DEDUCED in part) -/
def batchSlot (d args : Bytes) : Nat := if fieldAt d 5 1 = 255 then fieldAt d 2 2 else fieldAt args (fieldAt d 5 1) 2

/-- The start block of a batch. (log entry 53: DEDUCED in part) -/
def State.startBlock (s : State) (d : Bytes) (m : PlanModel) : Bytes :=
  s.readDie 0 (fieldAt d 0x10 4) (64 + 4 * m.joints.length)

/-- What a batch with a start block works with. -/
def State.planCtx (s : State) (cfg : MapCfg) (b : Bytes) (base : PlanFrame) (tree : Option MapTree) : PlanCtx :=
  let m := planModelOf (s.blob 9)
  ⟨cfg, m, s.recs 9, s.blob 9, base, (List.range m.joints.length).map (fun j => sfieldAt b (0x40 + 4 * j) 4), fieldAt b 0x20 1, tree⟩

/-- The start block and the candidates of a batch read (R285 step 1). (log entry 53: DEDUCED in part) -/
def State.openBatch (s : State) (r : Run) (d : Bytes) (tree : Bool) : PlanBatch :=
  ⟨r.id, tree, batchSlot d r.args, [], 0, 0, 0, 0, 0, s.startBlock d (planModelOf (s.blob 9)),
    s.readDie 0 (fieldAt d 8 4) (32 * batchCount d r.args), 0, s.monoNs⟩

/-- A batch whose candidates have been tested (R285 steps 3 and 4): the result array and the Sieve.
(log entry 54: DEDUCED in part) (log entry 53: DEDUCED in part) -/
def State.tested (s : State) (d : Bytes) (b : PlanBatch) (rs : List CandResult) : State :=
  let num := fun (o : Nat) => (rs.filter (fun x => x.outcome == o)).length
  let b1 := { b with
    retained := sieve rs, clear := num 0, hit := num 1, invalid := num 2 + num 3
    tests := (rs.map (·.tests)).sum, queries := (rs.map (·.queries)).sum }
  let s1 := if fieldAt d 0x14 4 = 0 then s else s.writeDie 0 (fieldAt d 0x14 4) (rs.map candRecord).flatten
  ({ s1 with plan := { s1.plan with batch := some b1 } }.setFld Fld.PLAN_STATUS_busy 1).eventAdd Ev.PLAN_EVT_STATUS_cand_invalid (num 2)

/-- Steps 1 to 4 of a batch (R285). (log entry 53: DEDUCED in part) -/
def State.planFirst (s : State) (r : Run) (d : Bytes) : State :=
  match s.mapCfg? with
  | none => s.setRun (r.finishOp 0x0107 {} r.die [])
  | some cfg =>
    if fieldAt d 0xC 2 < batchCount d r.args ∨ cfg.slots ≤ batchSlot d r.args then s.setRun (r.finishOp 0x0107 {} r.die [])
    else if batchCount d r.args = 0 then s.setRun (r.finishOp 0 {} r.die [])
    else
      let tree := s.flag Fld.MAP_STATUS_mode
      let b := s.openBatch r d tree
      let s1 := s.setFld Fld.PLAN_STATUS_mode (b2n tree)
      if tree && !s1.pinFree 2 then s1.publishStop r b 0x0586 0x0586 none none
      else
        let e0 := if tree then (s.world b.slot).epoch else 0
        let s2 := if tree then (s1.pin (some r.id) b.slot).pin (some r.id) b.slot else s1
        match (if startOk (planModelOf (s.blob 9)) b.block then startBase b.block else none) with
        | none => s2.publishStop r b 0x0503 0x0503 (some e0) (if tree then none else some 0)
        | some base =>
          match s2.testCandidates (s2.planCtx cfg b.block base (if tree then some (s.world b.slot).tree else none))
              (chunks 32 (batchCount d r.args) b.cands) with
          | .error e => s2.faultBatch r cfg.owner e
          | .ok rs => s2.tested d b rs

/-- The scaled durations of a candidate's segments (R295). (log entry 54: DEDUCED in part) -/
def scaledDurations (segs : List (Bytes × List Int)) (lambda : Nat) : Bytes :=
  (segs.map (fun x => leBytes 4 (ceilDiv (fieldAt x.1 4 4 * 256) lambda))).flatten

/-- Steps 5 to 7 of a batch (R285), on the start block and the candidates read in step 1. (log entry 53: DEDUCED in part) -/
def State.planSecond (s : State) (r : Run) (b : PlanBatch) : State :=
  let pin := s.map.pins.find? (fun p => p.owner == some r.id)
  let e0 := if b.tree then pin.elim 0 (·.world.epoch) else 0
  let e1 := if b.tree then (s.world b.slot).epoch else 0
  let h0 := if b.tree then pin.elim 0 (·.head) else 0
  let lost := b.tree && pin.elim false (·.lost)
  match s.mapCfg?, startBase b.block with
  | some cfg, some base =>
    match (if e0 = e1 ∨ lost = true then Except.ok [] else s.deltaRegions cfg b.slot e0 e1 h0 s.map.head) with
    | .error e => s.faultBatch r cfg.owner e
    | .ok regions =>
      let p := s.planCtx cfg b.block base none
      let cand := fun (i : Nat) => slice b.cands (32 * i) 32
      let x := p.choose cand (s.world b.slot).tree (fun c => e0 != e1 && affected cfg lost regions c) 0 b.retained {}
      let s1 := ((s.eventAdd Ev.PLAN_EVT_STATUS_recheck_fail x.recheckFails).eventAdd Ev.PLAN_EVT_STATUS_ts_fail x.tsFails).eventIf
        lost Ev.PLAN_EVT_STATUS_delta_lost
      let b1 := { b with tests := b.tests + x.tests, queries := b.queries + x.queries }
      match x.chosen with
      | some (rank, cost, i, l) =>
        let c := cand i
        s1.publishPlan r b1 ⟨0, 0, fieldAt c 0 1, rank, l, i, cost, e0, e1, fieldAt b.block 0x28 8, slice c 2 (2 * fieldAt c 0 1),
          scaledDurations (p.segments c) l, b.clear, b.hit, b.invalid, 0⟩ 0
      | none => s1.publishStop r b1 (if b.retained.isEmpty then 0x0501 else 0x0502) 0 (some e0) (some e1)
  | _, _ => s.publishStop r b 0x0503 0x0503 (some e0) (some e1)

/-- PLAN_BATCH (R285): the first command of a run takes steps 1 to 4, after a mode change that waited (R273); the second takes
steps 5 to 7. One batch runs at a time. One that meets an uncorrectable error ends without a publication (R108).
(log entry 32: DEDUCED in part) -/
def execPlanBatch (op : Nat × Ecc) (s : State) : Host.Outcome State Fault Refusal :=
  .next (match s.startable op.1 0x60 with
    | none => s
    | some (r, d) =>
      if s.plan.batch.elim false (fun b => b.run != op.1) then s
      else
        let c := s.eccCheck 0 op.2
        if c.2 then c.1.endBatch r 0x0204
        else
          match c.1.plan.batch with
          | none => c.1.settleMode.planFirst r d
          | some b => c.1.planSecond r b)

end Sys2Proof.Machine
end

