-- ==== Sys2Proof/Machine/Solver.lean ====
section
/-! DEFINITION. The sparse solver engine (chapter 17): scalars and vector updates, matrices, preconditioners, CG, MINRES
and ADMM, the ends of a solve and its output. -/

namespace Sys2Proof.Machine

/-! ### Arithmetic (R306 to R308). A computation carries the number of range events so far. -/

/-- A scalar m × 2^e (R306). (log entry 55: DEDUCED in part) -/
structure SNum where
  m : Int
  e : Int
deriving DecidableEq, Repr

/-- The scalar 1 as a coefficient. -/
def SNum.one : SNum := ⟨1, 0⟩

/-- A scalar with its sign changed. -/
def SNum.neg (a : SNum) : SNum := ⟨-a.m, a.e⟩

/-- num / den × 2^exp rounded to a scalar (R306); an exponent that clamps is a range event.
(log entry 28: DEDUCED in part; log entry 55: DEDUCED in part) -/
def roundNum (num : Int) (den : Nat) (exp : Int) : StateM Nat SNum := do
  if num = 0 ∨ den = 0 then return ⟨0, 0⟩
  let a := num.natAbs
  let t0 : Int := (a.log2 : Int) - (den.log2 : Int) - 29
  let small := if 0 ≤ t0 then decide (a < den * 2 ^ (t0.toNat + 29)) else decide (a * 2 ^ (-t0).toNat < den * 2 ^ 29)
  let t := if small then t0 - 1 else t0
  let q := if 0 ≤ t then divRne a (den * 2 ^ t.toNat : Nat) else divRne ((a * 2 ^ (-t).toNat : Nat) : Int) den
  let m : Int := if q = 2 ^ 30 then 2 ^ 29 else q
  let e : Int := exp + t + (if q = 2 ^ 30 then 1 else 0)
  let c := clampI (-32768) 32767 e
  if c ≠ e then modify (· + 1)
  return ⟨if num < 0 then -m else m, c⟩

/-- A product of scalars. -/
def SNum.mul (a b : SNum) : StateM Nat SNum := roundNum (a.m * b.m) 1 (a.e + b.e)

/-- A sum of scalars. -/
def SNum.add (a b : SNum) : StateM Nat SNum :=
  if a.m = 0 then roundNum b.m 1 b.e
  else if b.m = 0 then roundNum a.m 1 a.e
  else
    let e := min a.e b.e
    roundNum (a.m * 2 ^ (a.e - e).toNat + b.m * 2 ^ (b.e - e).toNat) 1 e

/-- A quotient of scalars. (log entry 55: DEDUCED in part) -/
def SNum.div (a b : SNum) : StateM Nat SNum := roundNum (if b.m < 0 then -a.m else a.m) b.m.natAbs (a.e - b.e)

/-- A square root; none for a negative value (R306). -/
def SNum.sqrt (a : SNum) : StateM Nat (Option SNum) := do
  if a.m < 0 then return none
  let odd := a.e % 2 == 1
  let m := if odd then 2 * a.m.toNat else a.m.toNat
  let e := if odd then a.e - 1 else a.e
  let r := isqrt (m * 2 ^ 80)
  let v ← roundNum ((2 * r + (if r * r = m * 2 ^ 80 then 0 else 1) : Nat) : Int) 1 (e / 2 - 41)
  return some v

/-- rshift_rne with a shift that may be negative (R29): 0 from a shift of 64 on. (log entry 28: DEDUCED in part) -/
def roundShift (x d : Int) : Int := if d ≤ 0 then x * 2 ^ (-d).toNat else if 64 ≤ d then 0 else divRne x (2 ^ d.toNat)

/-- Saturation to INT32; a clamp is a range event (R307). (log entry 55: DEDUCED in part) -/
def satRange (v : Int) : StateM Nat Int := do
  let x := sat32 v
  if x.2 then modify (· + 1)
  return x.1

/-- The lowest exponent of a list of terms (integer, exponent). -/
def lowExp (ts : List (Int × Int)) : Int := ((ts.map (·.2)).min?).getD 0

/-- The integer that a list of terms sums to at its lowest exponent. -/
def sumTerms (ts : List (Int × Int)) : Int := (ts.map (fun (t : Int × Int) => t.1 * 2 ^ (t.2 - lowExp ts).toNat)).sum

/-- One element of a vector update: the exact sum of terms rounded once to an exponent, and saturated (R307).
(log entry 55: DEDUCED in part) -/
def updateElem (ed : Int) (ts : List (Int × Int)) : StateM Nat Int := satRange (roundShift (sumTerms ts) (ed - lowExp ts))

/-- The linear combination of vectors, each with its coefficient and exponent, as one vector update.
(log entry 55: DEDUCED in part) -/
def combine (ed : Int) (n : Nat) (parts : List (SNum × Int × List Int)) : StateM Nat (List Int) :=
  (List.range n).mapM (fun i => updateElem ed (parts.map (fun (p : SNum × Int × List Int) => (p.1.m * p.2.2.getD i 0, p.1.e + p.2.1))))

/-- A quotient num × 2^sh / den rounded once, for den > 0. -/
def divAt (num sh den : Int) : Int :=
  if 0 ≤ sh then divRne (num * 2 ^ sh.toNat) den else divRne num (den * 2 ^ (-sh).toNat)

/-- A dot product of vectors whose exponents sum to e, as a scalar. (log entry 55: DEDUCED in part) -/
def dotNum (e : Int) (a b : List Int) : StateM Nat SNum := roundNum (dot a b) 1 e

/-- rr′ and bb′ of the residual test of two exact values with exponents (R308). (log entry 55: DEDUCED in part) -/
def residualPair (rr er bb eb : Int) : Nat × Nat :=
  let e := min er eb
  let r := (rr * 2 ^ (er - e).toNat).toNat
  let b := (bb * 2 ^ (eb - e).toNat).toNat
  let len := if max r b = 0 then 0 else (max r b).log2 + 1
  let sh : Int := ((len - 31 : Nat) : Int)
  ((roundShift r sh).toNat, (roundShift b sh).toNat)

/-- True where a threshold is met (R308). (log entry 55: DEDUCED in part) -/
def residualMet (t : Nat) (p : Nat × Nat) : Bool := decide (p.1 * 2 ^ 32 ≤ t * p.2)

/-! ### Set-ups and matrices (R302, R303) -/

/-- The entries of a sparse row: column and value. -/
abbrev SRow := List (Nat × Int)

/-- A set-up with what it reads: the fields of its record, the rows of K (strictly lower, diagonal, and full), the rows of C
and of its transpose, the right-hand side and the bounds. -/
structure SolvProb where
  minres : Bool
  ic0 : Bool
  admm : Bool
  maxIter : Nat
  n : Nat
  m : Nat
  ea : Int
  ex : Int
  er : Int
  ed : Int
  ec : Int
  el : Int
  steps : Nat
  tol : Nat
  accept : Nat
  floor : Int
  xStride : Nat
  cStride : Nat
  sigma : SNum
  rho : SNum
  lower : List SRow
  diag : List Int
  full : List SRow
  c : List SRow
  ct : List SRow
  b : List Int
  l : List Int
  u : List Int
deriving DecidableEq, Repr

/-- The stored blocks of the block rows of a matrix image: column and offset of the values. -/
def State.blockRows (s : State) (addr rows maxBlocks : Nat) : List (List (Nat × Nat)) :=
  let colAt := addr + alignUp 64 (4 * (rows + 1))
  let valAt := colAt + alignUp 64 (2 * maxBlocks)
  (List.range rows).map (fun i =>
    let lo := leNat (s.readDie 0 (addr + 4 * i) 4)
    let hi := leNat (s.readDie 0 (addr + 4 * i + 4) 4)
    (List.range (hi - lo)).map (fun k => (leNat (s.readDie 0 (colAt + 2 * (lo + k)) 2), valAt + 64 * (lo + k))))

/-- True for a rising list of columns. -/
def strictlyRising : List Nat → Bool
  | [] => true
  | [_] => true
  | a :: b :: t => decide (a < b) && strictlyRising (b :: t)

/-- The check of R303 on a matrix image; `lower` for K. -/
def State.matrixOk (s : State) (addr rows maxBlocks cols : Nat) (lower : Bool) : Bool :=
  let p := fun (i : Nat) => leNat (s.readDie 0 (addr + 4 * i) 4)
  p 0 == 0 && (List.range rows).all (fun i => decide (p i ≤ p (i + 1))) && decide (p rows ≤ maxBlocks) &&
    (s.blockRows addr rows maxBlocks).zipIdx.all (fun r =>
      let cs := r.1.map (·.1)
      strictlyRising cs && (if lower then cs.getLast? == some r.2 else cs.all (fun c => decide (c < cols))))

/-- The entries of a block row's scalar row `a`. -/
def State.scalarRow (s : State) (blocks : List (Nat × Nat)) (a : Nat) : SRow :=
  blocks.flatMap (fun x => (List.range 4).map (fun b => (4 * x.1 + b, toSigned 32 (leNat (s.readDie 0 (x.2 + 16 * a + 4 * b) 4)))))

/-- The scalar rows of a matrix image. -/
def State.scalarRows (s : State) (addr rows maxBlocks : Nat) : List SRow :=
  (s.blockRows addr rows maxBlocks).flatMap (fun blocks => (List.range 4).map (s.scalarRow blocks))

/-- The columns of rows as rows. -/
def transposeRows (n : Nat) (rows : List SRow) : List SRow :=
  (List.range n).map (fun j => rows.zipIdx.filterMap (fun r => (r.1.find? (fun x => x.1 == j)).map (fun x => (r.2, x.2))))

/-- A vector of INT32 at an address. -/
def State.vecAt (s : State) (addr n : Nat) : List Int :=
  (List.range n).map (fun i => toSigned 32 (leNat (s.readDie 0 (addr + 4 * i) 4)))

/-- A scalar of a record: INT32 mantissa, INT16 exponent. -/
def recNum (r : Bytes) (off : Nat) : SNum := ((roundNum (sfieldAt r off 4) 1 (sfieldAt r (off + 4) 2)).run 0).1

/-- The problem of a set-up as its record and memory stand. -/
def State.solvProb (s : State) (r : Bytes) : SolvProb :=
  let kr := fieldAt r 4 2
  let cr := fieldAt r 6 2
  let n := 4 * kr
  let m := 4 * cr
  let rows := s.scalarRows (fieldAt r 0x30 4) kr (fieldAt r 8 4)
  let lower := rows.zipIdx.map (fun x => x.1.filter (fun e => decide (e.1 < x.2)))
  let diag := rows.zipIdx.map (fun x => ((x.1.find? (fun e => e.1 == x.2)).map (·.2)).getD 0)
  let up := transposeRows n lower
  let c := s.scalarRows (fieldAt r 0x34 4) cr (fieldAt r 0xC 4)
  { minres := bit (fieldAt r 1 1) 0, ic0 := bit (fieldAt r 1 1) 1, admm := bit (fieldAt r 1 1) 2, maxIter := fieldAt r 2 2
    n := n, m := m
    ea := sfieldAt r 0x10 1, ex := sfieldAt r 0x11 1, er := sfieldAt r 0x12 1, ed := sfieldAt r 0x13 1, ec := sfieldAt r 0x14 1
    el := sfieldAt r 0x15 1
    steps := fieldAt r 0x16 1, tol := fieldAt r 0x18 4, accept := fieldAt r 0x1C 4, floor := sfieldAt r 0x28 4
    xStride := fieldAt r 0x2C 2, cStride := fieldAt r 0x2E 2, sigma := recNum r 0x4C, rho := recNum r 0x52
    lower := lower, diag := diag
    full := (List.range n).map (fun i => lower.getD i [] ++ [(i, diag.getD i 0)] ++ up.getD i [])
    c := c, ct := transposeRows n c
    b := s.vecAt (fieldAt r 0x38 4) n, l := s.vecAt (fieldAt r 0x3C 4) m, u := s.vecAt (fieldAt r 0x3C 4 + 4 * m) m }

/-- The exact product of a sparse row and a vector. -/
def rowDot (row : SRow) (x : List Int) : Int := (row.map (fun (e : Nat × Int) => e.2 * x.getD e.1 0)).sum

/-- K v for v at an exponent, at e_r. -/
def SolvProb.mulK (p : SolvProb) (ev : Int) (v : List Int) : StateM Nat (List Int) :=
  p.full.mapM (fun row => updateElem p.er [(rowDot row v, p.ea + ev)])

/-- b - K x at e_r. -/
def SolvProb.residual (p : SolvProb) (b x : List Int) : StateM Nat (List Int) :=
  (List.range p.n).mapM (fun i => updateElem p.er [(b.getD i 0, p.er), (-rowDot (p.full.getD i []) x, p.ea + p.ex)])

/-! ### Preconditioners (R309, R310) -/

/-- The preconditioner of a solve: the scalar diagonal, or a factor with the columns of L. -/
inductive Precond
  | jacobi (diag : List Int)
  | ic0 (f : Factor) (cols : List SRow)

/-- M(r) (R309). -/
def SolvProb.precond (p : SolvProb) (m : Precond) (r : List Int) : StateM Nat (List Int) :=
  match m with
  | .jacobi diag => (r.zip diag).mapM (fun x => satRange (divAt x.1 (p.er - p.ea - p.ed) x.2))
  | .ic0 f cols => do
    let ys ← (List.range p.n).foldlM (fun (ys : List Int) i => do
      let v ← updateElem p.er [(r.getD i 0, p.er), (-rowDot (f.rows.getD i []) ys, p.el + p.er)]
      return ys ++ [v]) []
    let us ← (ys.zip f.diag).mapM (fun (x : Int × Int) => satRange (divAt x.1 (p.er - p.ea - p.ed) x.2))
    (List.range p.n).reverse.foldlM (fun (zs : List Int) i => do
      let sum := ((cols.getD i []).map (fun (e : Nat × Int) => e.2 * zs.getD (e.1 - i - 1) 0)).sum
      let v ← updateElem p.ed [(us.getD i 0, p.ed), (-sum, p.el + p.ed)]
      return v :: zs) []

/-- What a factorisation leaves: rows and diagonal, pivot events, and whether a value saturated. -/
structure FactorRun where
  rows : List SRow := []
  diag : List Int := []
  pivots : Nat := 0
  overflow : Bool := false
deriving DecidableEq, Repr

/-- The value of a row at a column; 0 outside the pattern. -/
def rowAt (row : SRow) (j : Nat) : Int := ((row.find? (fun e => e.1 == j)).map (·.2)).getD 0

/-- One row of the IC(0) factorisation (R310). -/
def FactorRun.row (ea el floor : Int) (lower : SRow) (aii : Int) (f : FactorRun) : FactorRun :=
  let r := lower.foldl (fun (x : SRow × Bool) e =>
    let rk := f.rows.getD e.1 []
    let ts := (e.2, (0 : Int)) :: x.1.map (fun (y : Nat × Int) => (-(y.2 * rowAt rk y.1 * f.diag.getD y.1 0), 2 * el))
    let v := sat32 (divAt (sumTerms ts) (lowExp ts - el) (f.diag.getD e.1 1))
    (x.1 ++ [(e.1, v.1)], x.2 || v.2)) ([], f.overflow)
  let ts := (aii, ea) :: r.1.map (fun (y : Nat × Int) => (-(y.2 * y.2 * f.diag.getD y.1 0), 2 * el + ea))
  let d := sat32 (roundShift (sumTerms ts) (ea - lowExp ts))
  { rows := f.rows ++ [r.1], diag := f.diag ++ [max d.1 floor], pivots := f.pivots + (if d.1 < floor then 1 else 0)
    overflow := r.2 || d.2 }

/-- The factorisation of K. -/
def SolvProb.factorise (p : SolvProb) : FactorRun :=
  (p.lower.zip p.diag).foldl (fun (f : FactorRun) x => f.row p.ea p.el p.floor x.1 x.2) {}

/-! ### Methods (R308) -/

/-- How a solve ends (R313). -/
inductive SolveEnd | converged | cap | breakdown | deadline
deriving DecidableEq, Repr

/-- An inner solve that has ended: how, the current iterate, its iterations, and the last residual test. -/
structure SolveOut where
  how : SolveEnd
  x : List Int
  iters : Nat
  last : Option (Nat × Nat)
deriving DecidableEq, Repr

/-- The end when the iterations allowed are used up: the deadline, or the cap. -/
def exhausted (late : Bool) : SolveEnd := if late then .deadline else .cap

/-- The residual test of CG. -/
def cgTest (r b : List Int) : Nat × Nat := residualPair (dot r r) 0 (dot b b) 0

/-- The iterations of CG. -/
def SolvProb.cgLoop (p : SolvProb) (pre : Precond) (b : List Int) (late : Bool) :
    Nat → Nat → List Int → List Int → List Int → SNum → StateM Nat SolveOut
  | 0, it, x, r, _, _ => return ⟨exhausted late, x, it, some (cgTest r b)⟩
  | k + 1, it, x, r, d, rz => do
    let w ← p.mulK p.ed d
    let pw ← dotNum (p.ed + p.er) d w
    if pw.m ≤ 0 ∨ rz.m ≤ 0 then return ⟨.breakdown, x, it, some (cgTest r b)⟩
    let alpha ← rz.div pw
    let x1 ← combine p.ex p.n [(SNum.one, p.ex, x), (alpha, p.ed, d)]
    let r1 ← combine p.er p.n [(SNum.one, p.er, r), (alpha.neg, p.er, w)]
    if residualMet p.tol (cgTest r1 b) then return ⟨.converged, x1, it + 1, some (cgTest r1 b)⟩
    let z ← p.precond pre r1
    let rz1 ← dotNum (p.er + p.ed) r1 z
    let beta ← rz1.div rz
    let d1 ← combine p.ed p.n [(SNum.one, p.ed, z), (beta, p.ed, d)]
    p.cgLoop pre b late k (it + 1) x1 r1 d1 rz1

/-- CG from a start x, with at most `cap` iterations. (log entry 56: DEDUCED in part) -/
def SolvProb.cg (p : SolvProb) (pre : Precond) (b x : List Int) (late : Bool) (cap : Nat) : StateM Nat SolveOut := do
  let r ← p.residual b x
  if residualMet p.tol (cgTest r b) then return ⟨.converged, x, 0, some (cgTest r b)⟩
  let z ← p.precond pre r
  let rz ← dotNum (p.er + p.ed) r z
  p.cgLoop pre b late cap 0 x r z rz

/-- What MINRES carries from one iteration to the next. -/
structure MinresSt where
  x : List Int
  r1 : List Int
  r2 : List Int
  yPre : List Int
  w : List Int
  w2 : List Int
  beta : SNum
  oldb : SNum
  dbar : SNum
  eps : SNum
  phibar : SNum
  cs : SNum
  sn : SNum

/-- The residual test of MINRES: the squares of φ̄ and β1. -/
def minresTest (phibar beta1 : SNum) : Nat × Nat :=
  residualPair (phibar.m * phibar.m) (2 * phibar.e) (beta1.m * beta1.m) (2 * beta1.e)

/-- One iteration of MINRES; none for a breakdown. -/
def SolvProb.minresStep (p : SolvProb) (pre : Precond) (first : Bool) (a : MinresSt) : StateM Nat (Option MinresSt) := do
  let inv ← SNum.one.div a.beta
  let v ← combine p.ed p.n [(inv, p.ed, a.yPre)]
  let y0 ← p.mulK p.ed v
  let ratio ← if first then pure ⟨0, 0⟩ else a.beta.div a.oldb
  let y1 ← if first then pure y0 else combine p.er p.n [(SNum.one, p.er, y0), (ratio.neg, p.er, a.r1)]
  let alfa ← dotNum (p.ed + p.er) v y1
  let q ← alfa.div a.beta
  let y2 ← combine p.er p.n [(SNum.one, p.er, y1), (q.neg, p.er, a.r2)]
  let pre2 ← p.precond pre y2
  let bb ← dotNum (p.er + p.ed) y2 pre2
  let root ← bb.sqrt
  match root with
  | none => return none
  | some beta => do
    let d1 ← a.cs.mul a.dbar
    let d2 ← a.sn.mul alfa
    let delta ← d1.add d2
    let g1 ← a.sn.mul a.dbar
    let g2 ← a.cs.mul alfa
    let gbar ← g1.add g2.neg
    let eps ← a.sn.mul beta
    let dbar ← a.cs.neg.mul beta
    let h1 ← gbar.mul gbar
    let h2 ← beta.mul beta
    let h ← h1.add h2
    let gr ← h.sqrt
    match gr with
    | none => return none
    | some gamma => do
      if gamma.m = 0 then return none
      let cs ← gbar.div gamma
      let sn ← beta.div gamma
      let phi ← cs.mul a.phibar
      let phibar ← sn.mul a.phibar
      let c0 ← SNum.one.div gamma
      let c1 ← a.eps.div gamma
      let c2 ← delta.div gamma
      let w ← combine p.ed p.n [(c0, p.ed, v), (c1.neg, p.ed, a.w2), (c2.neg, p.ed, a.w)]
      let x ← combine p.ex p.n [(SNum.one, p.ex, a.x), (phi, p.ed, w)]
      return some ⟨x, a.r2, y2, pre2, w, a.w, beta, a.beta, dbar, eps, phibar, cs, sn⟩

/-- The iterations of MINRES. -/
def SolvProb.minresLoop (p : SolvProb) (pre : Precond) (beta1 : SNum) (late : Bool) : Nat → Nat → MinresSt → StateM Nat SolveOut
  | 0, it, a => return ⟨exhausted late, a.x, it, some (minresTest a.phibar beta1)⟩
  | k + 1, it, a => do
    let next ← p.minresStep pre (it == 0) a
    match next with
    | none => return ⟨.breakdown, a.x, it, some (minresTest a.phibar beta1)⟩
    | some b =>
      if residualMet p.tol (minresTest b.phibar beta1) then
        return ⟨.converged, b.x, it + 1, some (minresTest b.phibar beta1)⟩
      else p.minresLoop pre beta1 late k (it + 1) b

/-- MINRES from a start x, with at most `cap` iterations. (log entry 56: DEDUCED in part) -/
def SolvProb.minresSolve (p : SolvProb) (pre : Precond) (b x : List Int) (late : Bool) (cap : Nat) : StateM Nat SolveOut := do
  let r ← p.residual b x
  let y ← p.precond pre r
  let ry ← dotNum (p.er + p.ed) r y
  let root ← ry.sqrt
  match root with
  | none => return ⟨.breakdown, x, 0, none⟩
  | some beta1 => do
    if beta1.m = 0 then return ⟨.converged, x, 0, some (0, 0)⟩
    let zero : SNum := ⟨0, 0⟩
    let zeros := List.replicate p.n 0
    p.minresLoop pre beta1 late cap 0 ⟨x, r, r, y, zeros, zeros, beta1, zero, zero, zero, beta1, ⟨-1, 0⟩, zero⟩

/-- An inner solve; `limit` is the number of iterations completed when the deadline falls in it. -/
def SolvProb.inner (p : SolvProb) (pre : Precond) (b x : List Int) (limit : Option Nat) : StateM Nat SolveOut :=
  let late := limit.elim false (fun k => decide (k < p.maxIter))
  let cap := limit.elim p.maxIter (fun k => min k p.maxIter)
  if p.minres then p.minresSolve pre b x late cap else p.cg pre b x late cap

/-- The code of an ended solve (R313). (log entry 56: DEDUCED in part) -/
def SolvProb.endCode (p : SolvProb) (o : SolveOut) : Nat :=
  let ok := o.last.elim false (residualMet p.accept)
  match o.how with
  | .converged => 0
  | .deadline => if ok then 0x0601 else 0x0603
  | .cap => if ok then 0x0602 else 0x0604
  | .breakdown => 0x0605

/-! ### Warm start, ADMM and the result (R312 to R315) -/

/-- A vector of `n` elements moved down by a stride (R312). (log entry 55: DEDUCED in part) -/
def shiftDown (n stride : Nat) (v : List Int) : List Int :=
  (List.range n).map (fun i => if i + stride < n then v.getD (i + stride) 0 else v.getD i 0)

/-- An invocation that has ended: code, output, z and y, inner iterations in all and in the last solve, outer steps, the
last residual test, how the last solve ended. -/
structure SolvOut where
  code : Nat
  x : List Int
  z : List Int
  y : List Int
  iters : Nat
  lastIters : Nat
  outer : Nat
  last : Option (Nat × Nat)
  how : SolveEnd
deriving DecidableEq, Repr

/-- The right-hand side of an outer step, as one vector update at e_r (R314). (log entry 55: DEDUCED in part) -/
def SolvProb.admmRhs (p : SolvProb) (x z y : List Int) : StateM Nat (List Int) :=
  (List.range p.n).mapM (fun i =>
    let row := p.ct.getD i []
    updateElem p.er [(p.sigma.m * x.getD i 0, p.sigma.e + p.ex), (-p.b.getD i 0, p.er),
      (p.rho.m * rowDot row z, p.rho.e + p.ea + p.ec), (-rowDot row y, p.ea + p.ec)])

/-- The outer steps of ADMM from step `k` on (R314). `stop` is the step and the iterations at which the deadline falls; x0,
z0 and y0 are the shifted previous vectors. (log entry 55: DEDUCED in part) -/
def SolvProb.admmLoop (p : SolvProb) (pre : Precond) (invRho : SNum) (stop : Option (Nat × Nat)) (x0 z0 y0 : List Int) :
    Nat → Nat → List Int → List Int → List Int → Nat → Nat → Nat → Option (Nat × Nat) → StateM Nat SolvOut
  | 0, k, x, z, y, code, iters, li, last => return ⟨code, x, z, y, iters, li, k - 1, last, .converged⟩
  | n + 1, k, x, z, y, code, iters, _, last => do
    let rhs ← p.admmRhs x z y
    let limit := stop.bind (fun (t : Nat × Nat) => if t.1 = k then some t.2 else none)
    let o ← p.inner pre rhs x limit
    let c := p.endCode o
    let test := o.last <|> last
    if o.how = .deadline ∧ 2 ≤ k then return ⟨0x0601, x, z, y, iters + o.iters, o.iters, k - 1, test, .deadline⟩
    if 0x0603 ≤ c then return ⟨c, x0, z0, y0, iters + o.iters, o.iters, k - 1, test, o.how⟩
    if o.how = .deadline then return ⟨c, o.x, z, y, iters + o.iters, o.iters, k - 1, test, .deadline⟩
    if limit.isSome then
      return ⟨0x0601, if 2 ≤ k then x else o.x, z, y, iters + o.iters, o.iters, k - 1, test, .deadline⟩
    let v ← p.c.mapM (fun row => updateElem p.ec [(rowDot row o.x, p.ea + p.ex)])
    let t ← combine p.ec p.m [(SNum.one, p.ec, v), (invRho, p.ec, y)]
    let zn := ((t.zip p.l).zip p.u).map (fun (e : (Int × Int) × Int) => clampI e.1.2 e.2 e.1.1)
    let y1 ← combine p.ec p.m [(SNum.one, p.ec, y), (p.rho, p.ec, v), (p.rho.neg, p.ec, zn)]
    p.admmLoop pre invRho stop x0 z0 y0 n (k + 1) o.x zn y1 (if code = 0 then c else code) (iters + o.iters) o.iters test

/-- An invocation from a set-up's previous vectors; `stop` is the outer step and iterations at which the deadline falls.
(log entry 56: DEDUCED in part) -/
def SolvProb.solve (p : SolvProb) (pre : Precond) (invRho : SNum) (st : SolvSetup) (stop : Option (Nat × Nat)) : StateM Nat SolvOut := do
  let x0 := shiftDown p.n p.xStride st.x
  let z0 := shiftDown p.m p.cStride st.z
  let y0 := shiftDown p.m p.cStride st.y
  if p.admm then p.admmLoop pre invRho stop x0 z0 y0 p.steps 1 x0 z0 y0 0 0 0 none
  else do
    let o ← p.inner pre p.b x0 (stop.map (·.2))
    let c := p.endCode o
    return ⟨c, if 0x0603 ≤ c then x0 else o.x, [], [], o.iters, o.iters, 0, o.last, o.how⟩

/-! ### The engine (R305, R311, R315) -/

/-- A set-up of the solver. -/
def State.solvSetup (s : State) (k : Nat) : SolvSetup := Sparse.get (fun _ => {}) s.solv.setups k

/-- SOLV_SETUP_k as the set-up stands. -/
def State.solvReg (s : State) (k : Nat) : State :=
  let x := s.solvSetup k
  s.setReg (Reg.SOLV_SETUP k) (BitVec.ofNat 32 (b2n (decide (k < (s.recs 0xC).length)) + 2 * b2n x.front.isSome + 4 * b2n x.degraded +
    8 * b2n x.valid + 65536 * (x.count % 65536)))

/-- The state with a set-up at a value. (log entry 56: DEDUCED in part) -/
def State.setSolvSetup (s : State) (k : Nat) (x : SolvSetup) : State :=
  { s with solv := { s.solv with setups := Sparse.put (fun _ => {}) s.solv.setups k x } }.solvReg k

/-- Set-ups reset under R312. -/
def State.resetSetups (s : State) (ks : List Nat) : State := ks.foldl (fun (a : State) k => a.setSolvSetup k {}) s

/-- What an operation reads throughout, watched from its start: the images of K and C, b, l and u (R305).
(log entry 56: DEDUCED in part) -/
def solvWatch (r : Bytes) : List Watch :=
  let image := fun (rows blocks : Nat) => alignUp 64 (4 * (rows + 1)) + alignUp 64 (2 * blocks) + 64 * blocks
  let range := fun (off n : Nat) => (⟨dieLocal 0 (fieldAt r off 4), n, false⟩ : Watch)
  [range 0x30 (image (fieldAt r 4 2) (fieldAt r 8 4)), range 0x38 (16 * fieldAt r 4 2)] ++
    (if bit (fieldAt r 1 1) 2 then [range 0x34 (image (fieldAt r 6 2) (fieldAt r 0xC 4)), range 0x3C (32 * fieldAt r 6 2)] else [])

/-- The ranges whose writes are watched. -/
def State.watching (s : State) (ws : List Watch) : State := { s with phys := { s.phys with watch := ws } }

/-- The length of the state area of a set-up (R304). -/
def solvAreaLen (r : Bytes) : Nat :=
  64 + 192 * fieldAt r 4 2 + 96 * fieldAt r 6 2 + (if bit (fieldAt r 1 1) 1 then 128 * fieldAt r 8 4 + 32 * fieldAt r 4 2 else 0)

/-- The state area of a set-up made undefined: its layout is the engine's own (R304).
(log entry 56: DEDUCED in part) -/
def State.solvArea (s : State) (r : Bytes) : State := s.undefRange (dieLocal 0 (fieldAt r 0x44 4)) (solvAreaLen r)

/-- The registers of an operation that has completed. -/
def State.solvLast (s : State) (k code iters : Nat) : State :=
  (((s.setFld Fld.SOLV_LAST_iterations iters).setFld Fld.SOLV_LAST_setup k).setFld Fld.SOLV_LAST_code code).setFld Fld.SOLV_STATUS_setup k

/-- The start of an operation (R303, R311). (log entry 56: DEDUCED in part) -/
def State.solvFirst (s : State) (r : Run) (d : Bytes) : State :=
  let k := fieldAt d 1 1 % 16
  let rec' := (s.recs 0xC).getD k []
  let st := s.solvSetup k
  let kOk := s.matrixOk (fieldAt rec' 0x30 4) (fieldAt rec' 4 2) (fieldAt rec' 8 4) 0 true
  let cOk := !bit (fieldAt rec' 1 1) 2 || s.matrixOk (fieldAt rec' 0x34 4) (fieldAt rec' 6 2) (fieldAt rec' 0xC 4) (fieldAt rec' 4 2) false
  if !(kOk && cOk) then
    (((s.setSolvSetup k { st with count := st.count + 1 }).solvLast k 0x0611 0).event Ev.SOLV_EVT_STATUS_matrix_invalid).report 0x0E 0
      |>.setRun (r.finishOp 0x0611 {} r.die [])
  else
    let refactor := bit (fieldAt rec' 1 1) 1 && !st.degraded && (st.front.isNone || bit (fieldAt d 2 1) 0)
    let s1 := { s with solv := { s.solv with active := some (SolvRun.mk r.id k s.monoNs refactor false) } }.solvArea rec'
      |>.watching (solvWatch rec')
    ((s1.setFld Fld.SOLV_STATUS_busy 1).setFld Fld.SOLV_STATUS_factorising (b2n refactor)).setFld Fld.SOLV_STATUS_setup k

/-- The preconditioner of R311 and what its choice leaves. -/
structure SolvPlan where
  pre : Precond
  used : Nat
  front : Option Factor
  degraded : Bool
  pivots : Nat
  overflow : Bool

/-- The choice of R311 for an operation; how far a factorisation that the budget ends had come is free: its pivot events, and whether
it had overflowed. (log entry 56: DEDUCED in part) -/
def SolvProb.plan (p : SolvProb) (st : SolvSetup) (refactor budgetOut : Bool) (free : Nat) : SolvPlan :=
  let jac := Precond.jacobi (p.diag.map (fun v => max v p.floor))
  let jacPivots := (p.diag.filter (fun v => decide (v < p.floor))).length
  let use := fun (f : Factor) => Precond.ic0 f (transposeRows p.n f.rows)
  if !p.ic0 then ⟨jac, 0, none, false, jacPivots, false⟩
  else if st.degraded then ⟨jac, 0, st.front, false, jacPivots, false⟩
  else if !refactor then
    match st.front with
    | some f => ⟨use f, 2, some f, false, 0, false⟩
    | none => ⟨jac, 0, none, false, jacPivots, false⟩
  else
    let f := p.factorise
    let pivots := if budgetOut then free % 2 ^ 31 % (f.pivots + 1) else f.pivots
    let ovf := f.overflow && (!budgetOut || free / 2 ^ 31 == 1)
    if !budgetOut && !ovf then ⟨use ⟨f.rows, f.diag⟩, 1, some ⟨f.rows, f.diag⟩, false, pivots, false⟩
    else
      match st.front with
      | some g => ⟨use g, 2, some g, ovf, pivots, ovf⟩
      | none => ⟨jac, 0, none, ovf, pivots + jacPivots, ovf⟩

/-- The result record (R315). (log entry 56: DEDUCED in part) -/
def solvRecord (o : SolvOut) (pl : SolvPlan) (late : Bool) (ranges count : Nat) (test : Nat × Nat) : Bytes :=
  leBytes 2 o.code ++ leBytes 1 pl.used ++
    leBytes 1 (b2n (decide (0 < ranges)) + 2 * b2n (decide (0 < pl.pivots)) + 4 * b2n pl.overflow + 8 * b2n late) ++
    leBytes 2 (min o.iters 65535) ++ leBytes 1 o.outer ++ [0] ++ leBytes 4 test.1 ++ leBytes 4 test.2 ++ leBytes 8 count ++
    leBytes 4 pl.pivots ++ leBytes 4 ranges ++ List.replicate 32 0

/-- What an operation leaves at its end: code, vectors, factor, events, iterations and the result record.
(log entry 56: DEDUCED in part) -/
structure SolvResult where
  code : Nat
  x : List Int
  z : List Int
  y : List Int
  front : Option Factor
  degraded : Bool
  overflow : Bool
  late : Bool
  ranges : Nat
  pivots : Nat
  iters : Nat
  record : Bytes

/-- The result of an operation (R311 to R315) and the free values it took: `stop` is the outer step and the iterations at which
the deadline falls. (log entry 56: DEDUCED in part) -/
def State.solvResult (s : State) (a : SolvRun) (p : SolvProb) (stop : Option (Nat × Nat)) : SolvResult × Nat :=
  let st := s.solvSetup a.setup
  let free := s.freeBytes 22
  let pl := p.plan st a.refactor a.budgetOut (fieldAt free 0 4)
  let invRho := if !p.admm then (SNum.one, 0) else if p.rho.m = 0 then (roundNum (sfieldAt free 4 4) 1 (sfieldAt free 8 2)).run 0 else (SNum.one.div p.rho).run 0
  let res := (p.solve pl.pre invRho.1 st stop).run invRho.2
  let o := res.1
  (⟨o.code, o.x, o.z, o.y, pl.front, pl.degraded, pl.overflow, o.how == .deadline, res.2, pl.pivots, o.lastIters,
    solvRecord o pl a.budgetOut res.2 (st.count + 1) (o.last.getD (fieldAt free 10 4, fieldAt free 14 4))⟩, 22)

/-- The next free INT32 values (log entry 6). -/
def State.freeInts (s : State) (from' n : Nat) : List Int :=
  (List.range n).map (fun i => toSigned 32 (Config.freeNat (s.freeCtr + from' + i) % 2 ^ 32))

/-- The result of an operation whose inputs were written meanwhile: everything that depends on them is a free value (R305).
(log entry 56: DEDUCED in part) -/
def State.solvUnknown (s : State) (a : SolvRun) (p : SolvProb) : SolvResult × Nat :=
  let st := s.solvSetup a.setup
  let f := fun (i : Nat) => Config.freeNat (s.freeCtr + i)
  let at' := fun (i : Nat) => 80 + p.n * i
  let code := [0, 0x0601, 0x0602, 0x0603, 0x0604, 0x0605].getD (f 0 % 6) 0
  let rows := p.lower.map (fun row => row.zipIdx.map (fun e => (e.1.1, (s.freeInts (at' (4 + p.m) + p.n * (e.2 + 1)) 1).headD 0)))
  let made : Option Factor := some ⟨rows, s.freeInts (at' (3 + p.m)) p.n⟩
  let front := if a.refactor then [none, st.front, made].getD (f 1 % 3) none else if p.ic0 then st.front else none
  (⟨code, s.freeInts (at' 0) p.n, if p.admm then s.freeInts (at' 1) p.m else [], if p.admm then s.freeInts (at' (1 + p.m)) p.m else [],
    front, a.refactor && f 2 % 2 == 1, a.refactor && f 2 % 2 == 1, decide (code = 0x0601 ∨ code = 0x0603), f 3 % 65536, f 4 % 65536,
    f 5 % 2048, (List.range 64).map (fun i => BitVec.ofNat 8 (f (8 + i)))⟩, at' (4 + p.m) + p.n * (p.n + 2))

/-- The events of an operation that has ended. (log entry 56: DEDUCED in part) -/
def State.solvEvents (s : State) (o : SolvResult) : State :=
  let s1 := (s.eventAdd Ev.SOLV_EVT_STATUS_range o.ranges).eventAdd Ev.SOLV_EVT_STATUS_pivot_floor o.pivots
  let s2 := (s1.eventIf o.overflow Ev.SOLV_EVT_STATUS_degraded).eventIf o.late Ev.SOLV_EVT_STATUS_deadline
  (s2.eventIf (o.code == 0x0605) Ev.SOLV_EVT_STATUS_breakdown).eventIf (decide (0x0603 ≤ o.code)) Ev.SOLV_EVT_STATUS_fallback

/-- A vector of INT32 as bytes. -/
def vecBytes (v : List Int) : Bytes := (v.map (fun x => leBytes 4 (ofSigned 32 x))).flatten

/-- An operation ended (R313 to R315): x, the record, the set-up, the events and the registers.
(log entry 56: DEDUCED in part) -/
def State.solvEnd (s : State) (r : Run) (a : SolvRun) (stop : Option (Nat × Nat)) : State :=
  let rec' := (s.recs 0xC).getD a.setup []
  let p := s.solvProb rec'
  let x := if s.phys.watch.any (·.written) then s.solvUnknown a p else s.solvResult a p stop
  let o := x.1
  let s1 := (((s.watching []).useFree x.2).writeDie 0 (fieldAt rec' 0x40 4) (vecBytes o.x)).writeDie 0 (fieldAt rec' 0x48 4) o.record
  let s2 := (s1.solvArea rec').setSolvSetup a.setup ⟨o.x, o.z, o.y, o.front, o.degraded, true, (s.solvSetup a.setup).count + 1⟩
  let s3 := { (s2.solvLast a.setup o.code o.iters).solvEvents o with solv := { s2.solv with active := none } }
  ((s3.setFld Fld.SOLV_STATUS_busy 0).setFld Fld.SOLV_STATUS_factorising 0).setRun (r.finishOp 0 {} r.die [])

/-- The deadline of an operation, which no step of device time moves. (log entry 56: DEDUCED in part) -/
def State.solvDeadline (s : State) (a : SolvRun) : Nat := a.start + fieldAt ((s.recs 0xC).getD a.setup []) 0x20 4

/-- SOLV_RUN (R305): the first command of a run starts the operation; the second ends it, by its deadline, with what its
solve reaches. One operation runs at a time. One that meets an uncorrectable error writes nothing (R108).
(log entry 32: DEDUCED in part) -/
def execSolvRun (op : Nat × Ecc) (s : State) : Host.Outcome State Fault Refusal :=
  .next (match s.startable op.1 0x70 with
    | none => s
    | some (r, d) =>
      if s.solv.active.elim false (fun a => a.run != op.1 || decide (s.solvDeadline a < s.monoNs)) then s
      else
        let c := s.eccCheck 0 op.2
        if c.2 then (c.1.dropEngineWork r).setRun (r.finishOp 0x0204 {} r.die [])
        else c.1.solv.active.elim (c.1.solvFirst r d) (fun a => c.1.solvEnd r a none))

/-- SOLVER_DEADLINE (R313, R314): the deadline falls in outer step `outer` (1 without admm) after `inner` completed
iterations. (log entry 56: DEDUCED in part) -/
def execSolverDeadline (run outer inner : Nat) (s : State) : Host.Outcome State Fault Refusal :=
  .next (match s.startable run 0x70, s.solv.active with
    | some (r, _), some a => if a.run = run ∧ s.solvDeadline a ≤ s.monoNs then s.solvEnd r a (some (outer, inner)) else s
    | _, _ => s)

/-- FACTOR_BUDGET_EXPIRY (R311): a factorisation that still runs when its budget expires is abandoned.
(log entry 56: DEDUCED in part) -/
def execFactorBudgetExpiry (run : Nat) (s : State) : Host.Outcome State Fault Refusal :=
  .next (match s.solv.active with
    | some a =>
      if a.run = run ∧ a.refactor = true ∧ a.budgetOut = false ∧
          a.start + fieldAt ((s.recs 0xC).getD a.setup []) 0x24 4 ≤ s.monoNs then
        ({ s with solv := { s.solv with active := some { a with budgetOut := true } } }.event Ev.SOLV_EVT_STATUS_fact_late).setFld
          Fld.SOLV_STATUS_factorising 0
      else s
    | none => s)

end Sys2Proof.Machine
end

