-- ==== Sys2Proof/Machine/Crust.lean ====
section
/-! DEFINITION. The Crust island (chapter 19): events and reactions, stops and the fallback unit, protective separation,
starters, safe torque off, the emergency stop and clears. -/

namespace Sys2Proof.Machine

/-! ### Speed factor (R355, R356) -/

/-- The factor published: the lower of the perception factor and, while DEGRADE is latched, degrade_factor. A new value goes
to speed_addr and to CRUST_STATUS. (log entry 61: DEDUCED in part) -/
def State.publishFactor (s : State) : State :=
  match s.safetyGlobal with
  | none => s
  | some g =>
    let f := if s.crust.degrade then min s.crust.psf.factor (fieldAt g 0x2A 2) else s.crust.psf.factor
    if s.fld Fld.CRUST_STATUS_factor = f then s
    else
      let a := fieldAt g 0x3C 4
      (if a = 0 then s else s.writeDie 0 a (leBytes 2 f)).setFld Fld.CRUST_STATUS_factor f

/-! ### Takeover and stops (R352 to R354) -/

/-- The JBUS_CMD streams of a group. -/
def State.groupStreams (s : State) (g : Nat) : List Nat :=
  (List.range (s.recs 0xD).length).filter (fun i =>
    s.streamGroup i == some g && streamKind ((s.streamRec i).getD []) == 0)

/-- A stream handed to the fallback unit from a cycle on. (log entry 59: DEDUCED in part) -/
def State.handOver (s : State) (i cycle : Nat) : State :=
  match s.streamRec i with
  | none => s
  | some r =>
    let x := s.stream i
    if x.takeover.isSome then s
    else
      s.setStream i { x with takeover := some (cycleInstant r cycle), next := cycle, missed := none, ramp := [], parked := []
                             built := x.built.filter (fun b => decide (b.1 < cycle)) }

/-- The cycle from which the fallback unit serves a stream: its missed cycle, or the next to be built.
(log entry 59: DEDUCED in part) -/
def State.handOverCycle (s : State) (i : Nat) : Nat :=
  let x := s.stream i
  x.missed.elim x.next (fun j => min j x.next)

/-- The stop category of a group (R348, R354): estop_cat for an ESTOP. (log entry 59: DEDUCED in part) -/
def State.stopCat (s : State) (g : Nat) (estop : Bool) : Nat :=
  s.safetyGlobal.elim 0 (fun r => if estop then fieldAt r 8 1 % 2 else fieldAt r (0xC + g) 1)

/-- The velocity ramp of a group, in ns. -/
def State.ss1Ns (s : State) (g : Nat) : Nat := s.safetyGlobal.elim 0 (fun r => fieldAt r (0x10 + 4 * g) 4)

/-- True where the port of a stream can send. (log entry 59: DEDUCED in part) -/
def State.canSend (s : State) (i : Nat) : Bool :=
  (s.streamRec i).elim false (fun r => streamSim r || s.flag (Fld.ETH_STATUS_link_up (fieldAt r 2 1)))

/-- A group stopped (R354): its streams go to the fallback unit, and its slots to OFF where the takeover instant has come (R336). A
group that is not asserted starts its stop; one that is in its ramp goes over to category 0 where that is what is asked for, and
waits for the first substitutes that can still depart. (log entry 59: DEDUCED in part) -/
def State.stopGroup (s : State) (g : Nat) (estop : Bool) : State :=
  let is := s.groupStreams g
  let s1 := is.foldl (fun (a : State) i => a.handOver i (a.handOverCycle i)) s
  let s2 := (if is.isEmpty then s1 else s1.setFld (Fld.CRUST_GROUP_fallback g) 1).holdSlots g s.now
  if s2.asserted g then s2
  else
    let from' := ((is.filterMap (fun i => (s2.stream i).takeover)).min?).getD s.now
    let x := (s2.groupStop g).elim (⟨s.stopCat g estop, from', is⟩ : GroupStop) (fun x => { x with cat := min x.cat (s.stopCat g estop) })
    let y := { x with awaited := x.awaited.filter s2.canSend }
    if y.cat = 0 ∧ y.awaited.isEmpty = true then s2.assertGroup g else s2.setGroupStop g (some y)

/-! ### Events and reactions (R345 to R347) -/

/-- The floor of an event (R346). (log entry 60: DEDUCED in part) -/
def eventFloor (e : Nat) : Nat :=
  [0, 2, 2, 2, 0, 2, 3, 2, 3, 3, 0, 0, 0, 0, 0, 0, 3, 3, 4, 4, 4, 0, 3].getD e 0

/-- The REACTION record of an event. -/
def State.reactionRec (s : State) (e : Nat) : Option Bytes :=
  ((s.safetyRecs 4).find? (fun p => fieldAt p.1 2 1 == e)).map (·.1)

/-- The level of an event. (log entry 60: DEDUCED in part) -/
def State.eventLevel (s : State) (e : Nat) : Nat :=
  if e = 0x10 then 3 else (s.reactionRec e).elim (eventFloor e) (fun r => max (eventFloor e) (fieldAt r 3 1))

/-- The groups of an event before its level is seen: the stream's, the slot's, those of the mask, or all (R346).
(log entry 60: DEDUCED in part) -/
def State.eventGroups (s : State) (e source : Nat) : List Nat :=
  let mask := (s.reactionRec e).elim [0, 1, 2, 3] (fun r => [0, 1, 2, 3].filter (fun g => bit (fieldAt r 4 1) g))
  if e = 0x01 ∨ e = 0x05 ∨ e = 0x07 then (s.streamGroup source).toList
  else if e = 0x02 ∨ e = 0x03 then ((s.loopRec source).map (fun r => fieldAt r 0xF 1)).toList
  else if e = 0x04 then (if (s.reactionRec e).isSome then mask else (s.streamGroup source).toList)
  else if e = 0x06 ∨ e = 0x10 ∨ e = 0x11 ∨ e = 0x12 ∨ e = 0x13 ∨ e = 0x14 ∨ e = 0x16 then [0, 1, 2, 3]
  else mask

/-- The level latched on a group by an event (R347). (log entry 60: DEDUCED in part) -/
def State.latchLevel (s : State) (g level e : Nat) : State :=
  if s.fld (Fld.CRUST_GROUP_level g) < level then (s.setFld (Fld.CRUST_GROUP_level g) level).setFld (Fld.CRUST_GROUP_cause g) e else s

/-- The reaction to an event with its source (R345 to R347, R353, R360). (log entry 60: DEDUCED in part) -/
def State.react (s : State) (e source : Nat) : State :=
  let level := s.eventLevel e
  let groups := if 3 ≤ level then [0, 1, 2, 3] else s.eventGroups e source
  let mask := (groups.map (fun g => 2 ^ g)).sum
  let s1 := (s.event (Ev.CRUST_EVT_STATUS_evt e)).setReg Reg.CRUST_EVT_LAST (BitVec.ofNat 32 (e % 256 + 256 * mask + 65536 * (source % 65536)))
  let s2 := if e = 0x10 then s1.setFld Fld.SIO_STO_STATUS_estop_latched 1 else s1
  let s3 := groups.foldl (fun (a : State) g => a.latchLevel g level e) s2
  let s4 := if level = 1 then { s3 with crust := { s3.crust with degrade := true } }.publishFactor else s3
  let s5 := if 2 ≤ level then groups.foldl (fun (a : State) g => a.stopGroup g (e == 0x10)) s4 else s4
  let s6 := if level = 4 then s5.assertAll else s5
  let s7 := if (e = 0x12 ∨ e = 0x14) ∧ s6.crust.trip = none then { s6 with crust := { s6.crust with trip := some s6.monoNs } } else s6
  if (s.reactionRec e).elim false (fun r => bit (fieldAt r 4 4) 8) then s7.crustSdf else s7

/-- CRUST_EVENT (R345): the reaction unit applies the reaction to the event that has waited longest. -/
def execCrustEvent (s : State) : Host.Outcome State Fault Refusal :=
  .next (match s.crust.reports with
    | [] => s
    | x :: xs => { s with crust := { s.crust with reports := xs } }.react x.1 x.2)

/-- Every output de-energised in hardware (R344), and the event reported. (log entry 59: DEDUCED in part) -/
def State.hardStop (s : State) (event : Nat) : State := s.assertAll.report event 0

/-- HEARTBEAT_MISS (R344). (log entry 60: DEDUCED in part) -/
def execHeartbeatMiss (s : State) : Host.Outcome State Fault Refusal :=
  .next ((s.setFld Fld.CRUST_STATUS_run 0).hardStop 0x14)

/-- The domains that a clock monitor watches: RX_AON, RX_ETH and RX_LOOP (R344). (log entry 60: DEDUCED in part) -/
def monitored (d : Nat) : Bool := d == 0 || d == 8 || d == 12

/-- True where a measured clock of a domain, in kHz, is more than 2 % from the frequency set for it at its rail's current operating
point, the lower of the old and the new during a step (R344). (log entry 60: DEDUCED in part) -/
def State.clockTrips (s : State) (d khz : Nat) : Bool :=
  decide (2 * (s.clock16 d : Int) < 100 * ((16 * (khz : Int) - s.clock16 d).natAbs : Int))

/-- CLOCK_MONITOR_TRIP (R344): a monitor measures the clock of a domain over a window, in kHz, and trips where it is more than 2 %
from the one that is set. (log entry 60: DEDUCED in part) -/
def execClockMonitorTrip (measured : Nat × Nat) (s : State) : Host.Outcome State Fault Refusal :=
  .next (if monitored measured.1 && s.clockTrips measured.1 measured.2 then s.hardStop 0x12 else s)

/-- CRUST_LOCKSTEP_MISMATCH (R344). (log entry 60: DEDUCED in part) -/
def execCrustLockstepMismatch (s : State) : Host.Outcome State Fault Refusal :=
  .next ((s.setFld Fld.CRUST_STATUS_run 0).hardStop 0x14)

/-! ### Egress check and the fallback unit (R351 to R354) -/

/-- CMD_EGRESS_CHECK (R351): 4,000 ns after the transmit instant of the next cycle it probes, Crust raises CMD_MISS where no
frame of that cycle has left. (log entry 59: DEDUCED in part) -/
def execCmdEgressCheck (i : Nat) (s : State) : Host.Outcome State Fault Refusal :=
  .next (match s.streamRec i with
    | none => s
    | some r =>
      let x := s.stream i
      if streamKind r ≠ 0 ∨ s.now < cycleInstant r x.probe + 4000 then s
      else if x.left.elim false (fun j => decide (x.probe ≤ j)) then s.setStream i { x with probe := x.probe + 1 }
      else
        let y := { x with probe := x.probe + 1, missed := if x.takeover.isSome then none else x.missed <|> some x.probe }
        (s.setStream i y).report 0x01 i)

/-- One record of a substitute frame (R352): joint, mode, setpoint and torque limit, and the stream with the velocity or
position that the row keeps. (log entry 59: DEDUCED in part) -/
def State.substituteRecord (s : State) (i g port e n joint : Nat) (x : StreamSt) : Bytes × StreamSt :=
  let tlim := (s.streamSafety i).elim 0 (fun sr => fieldAt sr 6 2)
  let form := fun (mode : Nat) (v : Int) (lim : Nat) =>
    leBytes 1 joint ++ leBytes 1 mode ++ [0, 0] ++ leBytes 4 (ofSigned 32 v) ++ leBytes 4 0 ++ leBytes 2 lim ++ [0, 0]
  let cat := (s.groupStop g).elim (s.stopCat g false) (·.cat)
  match s.feedbackCopy port joint with
  | none => (form 0 0 0, x)
  | some (pos, vel) =>
    if s.asserted g then (form 0 0 0, x)
    else if cat = 1 ∧ e < s.ss1Ns g then
      let v0 := ((x.ramp.find? (fun p => p.1 == n)).map (·.2)).getD vel
      let y := if x.ramp.any (fun p => p.1 == n) then x else { x with ramp := x.ramp ++ [(n, vel)] }
      (form 3 (divRne (v0 * ((s.ss1Ns g : Int) - e)) (s.ss1Ns g)) tlim, y)
    else
      let x0 := ((x.parked.find? (fun p => p.1 == n)).map (·.2)).getD pos
      let y := if x.parked.any (fun p => p.1 == n) then x else { x with parked := x.parked ++ [(n, pos)] }
      (form 2 x0 tlim, y)

/-- The records of the substitute of a stream's next cycle, `e` ns after the takeover instant (R352): the joints are those of its
last command records. (log entry 59: DEDUCED in part) -/
def State.substituteRecords (s : State) (i : Nat) (r : Bytes) (e : Nat) : Bytes × StreamSt :=
  let x := s.stream i
  let buf := s.bufferRecords r
  let joints := if x.joints.isEmpty then (List.range (fieldAt r 6 1)).map (fun n => fieldAt buf (16 * n) 1) else x.joints
  joints.zipIdx.foldl (fun (a : Bytes × StreamSt) j =>
    let y := s.substituteRecord i ((s.streamGroup i).getD 0) (fieldAt r 2 1) e j.2 j.1 a.2
    (a.1 ++ y.1, y.2)) (([] : Bytes), x)

/-- FALLBACK_BUILD (R352): the fallback unit builds the substitute of the next cycle of a stream that it serves, from
2,000 ns before its transmit instant, and Crust forms its records too (R373). (log entry 59: DEDUCED in part) -/
def execFallbackBuild (i : Nat) (s : State) : Host.Outcome State Fault Refusal :=
  .next (match s.streamRec i, (s.stream i).takeover with
    | some r, some t0 =>
      let x := s.stream i
      let t := cycleInstant r x.next
      if s.now + 2000 < t then s
      else
        let recs := s.substituteRecords i r (t - t0)
        let f := s.commandFrame r (x.next % 65536) recs.1
        s.setStream i { recs.2 with built := some (x.next, f, true), next := x.next + 1, formed := recs.1 }
    | _, _ => s)

/-- SS1_RAMP_END (R354): the ramp of a category-1 stop has ended. (log entry 59: DEDUCED in part) -/
def execSs1RampEnd (g : Nat) (s : State) : Host.Outcome State Fault Refusal :=
  .next (match s.groupStop g with
    | some x => if x.cat = 1 ∧ x.rampFrom + s.ss1Ns g ≤ s.now then s.assertGroup g else s
    | none => s)

/-! ### Protective separation (R355 to R357) -/

/-- The stable entry of a frame in a perception ring: exposure stamp and zone mask. Entries take 128 bytes.
(log entry 61: DEDUCED in part) -/
def State.psfEntry (s : State) (ring entries frame : Nat) : Option (Nat × Nat) :=
  (List.range entries).findSome? (fun k =>
    let b := s.readDie 0 (ring + 128 * k) 128
    let seq := fieldAt b 0 4
    if seq ≠ 0 ∧ seq % 2 = 0 ∧ fieldAt b 0x40 8 = frame then some (fieldAt b 0x48 4, fieldAt b 0x4C 4) else none)

/-- The lowest factor of the zones set in a mask; 32,768 when none is set. (log entry 61: DEDUCED in part) -/
def State.zoneFactor (s : State) (mask : Nat) : Nat :=
  (s.safetyRecs 2).foldl (fun (m : Nat) z => if bit mask (fieldAt z.1 2 1) then min m (fieldAt z.1 0x20 2) else m) 32768

/-- The lidar mask that an evaluation uses (R357). -/
def State.lidarMask (s : State) (valid : Nat) : Nat :=
  match s.crust.psf.lidarAt with
  | none => s.allZones
  | some t => if t + valid < s.now then s.allZones else s.crust.psf.lidar

/-- PSF_EVALUATE (R355): psf_eval_ns after the stamp of a frame that is in a ring and not yet evaluated, Crust compares the
masks, sets the factor, and raises PSF_FAULT when psf_k of the last psf_m frames are untrusted.
(log entry 61: DEDUCED in part) -/
def execPsfEvaluate (frame : Nat) (s : State) : Host.Outcome State Fault Refusal :=
  .next (match s.safetyGlobal with
    | none => s
    | some g =>
      let k := fieldAt g 9 1
      let m := fieldAt g 0xA 1
      let n := fieldAt g 0x28 2
      let main := s.psfEntry (fieldAt g 0x20 4) n frame
      let chk := s.psfEntry (fieldAt g 0x24 4) n frame
      let p := s.crust.psf
      match main <|> chk with
      | none => s
      | some (stamp, _) =>
        if k = 0 ∨ age (s.now % 2 ^ 32) stamp < fieldAt g 0x30 4 ∨ p.frames.contains (frame, stamp) = true then s
        else
          let checker := (chk.elim 0 (·.2)) ||| s.lidarMask (fieldAt g 0x34 4)
          let mainMask := main.elim 0 (·.2)
          let trusted := main.isSome && chk.isSome && mainMask == checker
          let factor := if trusted then s.zoneFactor mainMask else min (s.zoneFactor (mainMask ||| checker)) (fieldAt g 0x2C 2)
          let last := (p.untrusted ++ [!trusted]).drop (p.untrusted.length + 1 - max m 1)
          let bad := (last.filter id).length
          let q := { p with untrusted := last, frames := (p.frames ++ [(frame, stamp)]).drop (p.frames.length + 1 - max n 1)
                            lastEval := some s.now, factor := factor }
          let s1 := ({ s with crust := { s.crust with psf := q } }.setFld Fld.CRUST_STATUS_trusted (b2n trusted)).setReg Reg.CRUST_PSF
            (BitVec.ofNat 32 (bad % 256 + 256 * (frame % 2 ^ 24)))
          (if !trusted && decide (k ≤ bad) then s1.report 0x06 0 else s1).publishFactor)

/-- PSF_VALIDITY_EXPIRY (R355): no frame has been evaluated for psf_valid_ns; default_factor applies.
(log entry 61: DEDUCED in part) -/
def execPsfValidityExpiry (s : State) : Host.Outcome State Fault Refusal :=
  .next (match s.safetyGlobal, s.crust.psf.lastEval with
    | some g, some t =>
      if fieldAt g 9 1 = 0 ∨ s.now < t + fieldAt g 0x34 4 then s
      else
        { s with crust := { s.crust with psf := { s.crust.psf with factor := fieldAt g 0x2C 2, lastEval := none } } }.publishFactor
    | _, _ => s)

/-- PSF_SPEED (R356): the velocity of a feedback record has been above its scaled limit for longer than speed_grace_ns.
(log entry 61: DEDUCED in part) -/
def execPsfSpeed (stream rec' : Nat) (s : State) : Host.Outcome State Fault Refusal :=
  .next (
    let x := s.stream stream
    match s.safetyGlobal, x.fast.find? (fun p => p.1 == rec') with
    | some g, some (n, since, false) =>
      if s.now ≤ since + fieldAt g 0x38 4 then s
      else (s.setStream stream { x with fast := (n, since, true) :: x.fast.filter (fun p => p.1 != rec') }).report 0x07 stream
    | _, _ => s)

/-! ### Starters (R358) -/

/-- A starter forgotten once its digest and its time are judged. (log entry 61: DEDUCED in part) -/
def CrustSt.settleStarters (c : CrustSt) : CrustSt :=
  { c with starters := c.starters.filter (fun x =>
      !(x.digested && (x.late || x.ended.elim false (fun t => decide (t ≤ x.due))))) }

/-- The starters with the one at a position changed. -/
def CrustSt.setStarter (c : CrustSt) (i : Nat) (x : StarterRun) : CrustSt :=
  { c with starters := c.starters.set i x }.settleStarters

/-- STARTER_DIGEST (R358): the output of a starter programme that has completed is hashed and compared. An output that does
not read gives no digest that matches. (log entry 61: DEDUCED in part) -/
def execStarterDigest (i : Nat) (s : State) : Host.Outcome State Fault Refusal :=
  .next (match s.crust.starters[i]? with
    | none => s
    | some x =>
      if x.ended.isNone ∨ x.digested then s
      else
        let sr := (s.recs 0xE).getD x.index []
        let s1 := { s with crust := s.crust.setStarter i { x with digested := true } }
        match s.readVa (.engine 0) (fieldAt sr 0 1) (fieldAt sr 0x10 8) (fieldAt sr 0xC 4) with
        | .error e => (s1.xltFault 0 (fieldAt sr 0 1) e.1 e.2).report 0x08 0
        | .ok bs => if (sha512 bs).take 32 = slice sr 0x20 32 then s1 else s1.report 0x08 0)

/-- STARTER_LATE (R358): a starter programme has not completed bound_ns after its activation's start, or the activation was stopped
or aborted, whether or not its step had issued.
(log entry 61: DEDUCED in part) -/
def execStarterLate (i : Nat) (s : State) : Host.Outcome State Fault Refusal :=
  .next (match s.crust.starters[i]? with
    | none => s
    | some x =>
      let sr := (s.recs 0xE).getD x.index []
      let gone := x.ended.isNone && (match x.run with
        | some id => (s.run? id).isNone
        | none => !(s.ctx (fieldAt sr 0 1)).acts.any (fun a => a.index == x.act && a.start == x.start))
      if x.late ∨ (gone = false ∧ s.now ≤ x.due) ∨ x.ended.elim false (fun t => decide (t ≤ x.due)) = true then s
      else { s with crust := s.crust.setStarter i { x with late := true, digested := x.digested || gone } }.report 0x09 0)

/-! ### Safe torque off and the emergency stop (R359 to R361) -/

/-- STO_READBACK_FAULT (R359): the readback of an output has differed from its commanded or test state for some ns. -/
def execStoReadbackFault (output : Nat) (high : Bool) (ns : Nat) (s : State) : Host.Outcome State Fault Refusal :=
  .next (
    if 8 ≤ output ∨ high = s.energised output then s
    else
      let s1 := s.setFld Fld.SIO_STO_STATUS_readback (setBits (s.fld Fld.SIO_STO_STATUS_readback) output 1 (b2n high))
      if 1000000 < ns then s1.report 0x16 0 else s1)

/-- True where a channel (0 ESTOP_A, 1 ESTOP_B) that reads closed or open is in its run state: closed, but for an ESTOP_B that
SIO_CFG types as normally open (R360). (log entry 60: DEDUCED in part) -/
def State.inRun (s : State) (channel : Nat) (closed : Bool) : Bool :=
  if channel = 1 ∧ s.flag Fld.SIO_CFG_estop_type = true then !closed else closed

/-- ESTOP_OPEN (R360): a channel (0 ESTOP_A, 1 ESTOP_B) has read closed or open for some ns; 2 ms out of its run state raise ESTOP,
once while it holds. (log entry 60: DEDUCED in part) -/
def execEstopOpen (channel : Nat × Bool) (ns : Nat) (s : State) : Host.Outcome State Fault Refusal :=
  .next (
    if !s.flag Fld.SIO_CFG_estop_en ∨ ns < 2000000 ∨ 2 ≤ channel.1 ∨ s.inRun channel.1 channel.2 = true then s
    else
      let s1 := s.setFld Fld.SIO_STO_STATUS_estop (setBits (s.fld Fld.SIO_STO_STATUS_estop) channel.1 1 0)
      if s.flag Fld.SIO_STO_STATUS_estop_latched || s.crust.reports.any (fun p => p.1 == 0x10) then s1 else s1.report 0x10 0)

/-- ESTOP_DISCREPANCY (R360): the channels have read closed or open for some ns; they disagree where one is in its run state and the
other is not. (log entry 60: DEDUCED in part) -/
def execEstopDiscrepancy (closed : Bool × Bool) (ns : Nat) (s : State) : Host.Outcome State Fault Refusal :=
  .next (match s.safetyGlobal with
    | none => s
    | some g =>
      if !s.flag Fld.SIO_CFG_estop_en ∨ ns ≤ fieldAt g 4 4 ∨ s.inRun 0 closed.1 = s.inRun 1 closed.2 then s
      else
        let s1 := s.setFld Fld.SIO_STO_STATUS_estop (if s.inRun 0 closed.1 then 1 else 2)
        if s1.flag Fld.SIO_STO_STATUS_discrepancy then s1 else (s1.setFld Fld.SIO_STO_STATUS_discrepancy 1).report 0x16 0)

/-- The hold bits written (R361): a change to 1 asserts at once; groups that may be released are. While debug was unlocked
since reset, hold reads 0xF and ignores writes (R398). -/
def State.writeHold (s : State) (v : Nat) : State :=
  if s.flag Fld.KEY_DEBUG_forced_hold then s
  else
    let h := v % 16
    let s1 := [0, 1, 2, 3].foldl (fun (a : State) g => if h.testBit g && !a.asserted g then a.assertGroup g else a) s
    (s1.setFld Fld.SIO_STO_CTRL_hold h).releaseGroups

/-- SIO_HOLD_WRITE (R361): a write of SIO_STO_CTRL with estop_reset = 0. -/
def execSioHoldWrite (who : Requester) (value : Nat) (s : State) : Host.Outcome State Fault Refusal :=
  .next (s.busWrite who 0 0x2E false (fun s => s.writeHold value))

/-- ESTOP_RESET (R360): a write of SIO_STO_CTRL with estop_reset = 1; `held` says for how many ns ESTOP_A has read closed, and
ESTOP_B what it reads now, and whether that is closed. (log entry 60: DEDUCED in part) -/
def execEstopReset (who : Requester) (value : Nat) (held : Nat × Nat × Bool) (s : State) : Host.Outcome State Fault Refusal :=
  .next (s.busWrite who 0 0x2E false (fun s =>
    let s1 := s.writeHold value
    if 100000000 ≤ held.1 ∧ 100000000 ≤ held.2.1 ∧ s.inRun 1 held.2.2 = true ∧ s1.flag Fld.SIO_STO_STATUS_discrepancy = false then
      (((s1.setFld Fld.SIO_STO_STATUS_estop 3).setFld Fld.SIO_STO_STATUS_estop_latched 0).setFld Fld.SIO_STO_STATUS_reset_refused
        0).releaseGroups
    else s1.setFld Fld.SIO_STO_STATUS_reset_refused 1))

/-! ### Clears (R362) -/

/-- True where a selected group may be cleared. (log entry 60: DEDUCED in part) -/
def State.clearable (s : State) (g : Nat) : Bool :=
  s.asserted g && !(List.range (s.recs 0xD).length).any (fun i => s.streamGroup i == some g && s.flag (Fld.JBUS_STREAM_fault i)) &&
    !(s.recs 0xB).any (fun r => fieldAt r 0xF 1 == g && (s.loopSlot (loopNumber r)).mode == 3)

/-- A group's streams handed back: its slots are OFF and wait for OFF (R336, R362). -/
def State.handBack (s : State) (g : Nat) : State :=
  let served := (s.groupStreams g).filter (fun i => (s.stream i).takeover.isSome)
  let s1 := served.foldl (fun (a : State) i =>
    a.setStream i { a.stream i with takeover := none, missed := none, ramp := [], parked := [] }) s
  let s2 := (s.recs 0xB).foldl (fun (a : State) r =>
    if fieldAt r 0xF 1 = g then a.setLoopSlot (loopNumber r) { (a.loopSlot (loopNumber r)).cleared with rearm := true } else a) s1
  let s3 := s2.setFld (Fld.CRUST_GROUP_fallback g) 0
  if !served.isEmpty && !(List.range (s.recs 0xD).length).any (fun i => (s3.stream i).takeover.isSome) then s3.notePass 12 else s3

/-- A selected group cleared, or left with `rejected` set. (log entry 60: DEDUCED in part) -/
def State.clearGroup (s : State) (g : Nat) : State :=
  if s.clearable g then
    (((s.setFld (Fld.CRUST_GROUP_level g) 0).setFld (Fld.CRUST_GROUP_cause g) 0).setGroupStop g none).handBack g
  else s.setFld Fld.CRUST_CLR_rejected 1

/-- DEGRADE, every crust_hold and every latched level of DEGRADE cleared. (log entry 60: DEDUCED in part) -/
def State.clearGlobal (s : State) : State :=
  let s0 := { s with crust := { s.crust with degrade := false } }
  let s1 := s.ctxs.foldl (fun (a : State) p => a.setCtx p.1 { a.ctx p.1 with crustHold := false }) s0
  let s2 := [0, 1, 2, 3].foldl (fun (a : State) g =>
    if a.fld (Fld.CRUST_GROUP_level g) = 1 then (a.setFld (Fld.CRUST_GROUP_level g) 0).setFld (Fld.CRUST_GROUP_cause g) 0 else a) s1
  s2.publishFactor

/-- A write of CRUST_CLR (R362). (log entry 60: DEDUCED in part) -/
def State.writeCrustClr (s : State) (v : Nat) : State :=
  let s1 := ((s.setFld Fld.CRUST_CLR_groups (v % 16)).setFld Fld.CRUST_CLR_global (bits v 4 1)).setFld Fld.CRUST_CLR_rejected 0
  if !bit v 8 then s1
  else
    let s2 := [0, 1, 2, 3].foldl (fun (a : State) g => if bit v g then a.clearGroup g else a) s1
    (if bit v 4 then s2.clearGlobal else s2).releaseGroups

/-- CRUST_CLEAR (R362): the write of CRUST_CLR with clear = 1. -/
def execCrustClear (who : Requester) (value : Nat) (s : State) : Host.Outcome State Fault Refusal :=
  .next (s.busWrite who 0 0x2C false (fun s => s.writeCrustClr (setBits value 8 1 1)))

end Sys2Proof.Machine
end

