-- ==== Sys2Proof/Machine/Selftest.lean ====
section
/-! DEFINITION. The proof run and the rotating self-tests (chapter 20). -/

namespace Sys2Proof.Machine

/-! ### The proof run (R367 to R369) -/

/-- PROOF_RUN_ON_DEMAND (R369): INJ_CTRL.proof = 1 on die 0. (log entry 63: DEDUCED in part) -/
def execProofRunOnDemand (who : Requester) (s : State) : Host.Outcome State Fault Refusal :=
  .next (s.busWrite who 0 0x08 false (fun s =>
    if s.fld Fld.SIO_STO_STATUS_asserted = 15 ∧ s.proofRunning = false ∧
        (s.ctxs.all (fun p => p.2.phase != .resident || s.quiesced p.1)) = true then { s with proofRunning := true }
    else s.event (Ev.INJ_EVT_STATUS_cmd_reject 0)))

/-- The result of a proof run on a die: the first failing checker, 0 for none (R368).
(log entry 63: DEDUCED in part) -/
def State.proofResult (s : State) (die first : Nat) : State :=
  let s1 := s.setFld (Fld.INJ_PROOF_STATUS_done die) 1
  if first ≠ 0 then
    ((s1.setFld (Fld.INJ_PROOF_STATUS_proof_fail die) 1).setFld (Fld.INJ_PROOF_STATUS_first_id die) first).event
      (Ev.INJ_EVT_STATUS_proof_fail die)
  else if s1.flag (Fld.INJ_PROOF_STATUS_proof_fail die) then s1
  else s1.setFld (Fld.INJ_PROOF_STATUS_first_id die) 0

/-- A checker passes only where the fault is detected and the detection takes the unit's normal reporting path (R367).
(log entry 63: DEDUCED in part) -/
def checkPassed (c : ProofCheck) : Bool := c.detected && c.reported

/-- The first checker of a die that fails in a proof run, 0 for none (R368). -/
def firstFailing (results : List ProofCheck) (die : Nat) : Nat :=
  (results.find? (fun c => c.die == die && !checkPassed c)).elim 0 (·.id)

/-- The results of a proof run on every die that is present, in the order in which the checkers ran.
(log entry 63: DEDUCED in part) -/
def State.proofResults (s : State) (results : List ProofCheck) : State :=
  s.presentDies.foldl (fun (a : State) d => a.proofResult d (firstFailing results d)) s

/-- The output that the proof run's test energises, if any, and the readback with it (R359, R367).
(log entry 63: DEDUCED in part) -/
def State.setProofOut (s : State) (x : Option (Nat × Nat)) : State :=
  { s with crust := { s.crust with proofOut := x } }.driveOutputs

/-- A cycle of an on-demand proof run as the outputs see it (R359, R367): it energises one output of an asserted group at a time,
for at most 200 µs; which, and when, is open. (log entry 63: DEDUCED in part) -/
def State.proofPulse (s : State) : State :=
  if !s.proofRunning then s
  else
    let n := Config.freeNat s.freeCtr
    let s1 := s.useFree 1
    match s.crust.proofOut with
    | some (_, t) => if t + 199996 ≤ s.monoNs ∨ n % 2 = 0 then s1.setProofOut none else s1
    | none => if n < 8 ∧ s.asserted (n / 2) = true then s1.setProofOut (some (n, s.monoNs)) else s1

/-- PROOF_RUN_COMPLETE (R367, R369): the on-demand run that is in progress ends with what it found of the checkers.
(log entry 63: DEDUCED in part) -/
def execProofRunComplete (results : List ProofCheck) (s : State) : Host.Outcome State Fault Refusal :=
  .next (if s.proofRunning then ({ s with proofRunning := false }.setProofOut none).proofResults results else s)

/-- PROOF_FAIL_REPEAT (R368): while proof_fail reads 1 on a die that is present, Crust raises SELFTEST every 1 ms.
(log entry 63: DEDUCED in part) -/
def execProofFailRepeat (s : State) : Host.Outcome State Fault Refusal :=
  .next (if s.proofFailed && s.crust.failAt.elim true (fun t => decide (t + 1000000 ≤ s.monoNs)) then
    { s with crust := { s.crust with failAt := some s.monoNs } }.report 0x11 0
  else s)

/-! ### Rotating self-tests (R370 to R373) -/

/-- A test that found no detection (R371). -/
def State.selftestFail (s : State) : State := (s.event (Ev.INJ_EVT_STATUS_st_fail 0)).report 0x11 0

/-- A test judged: a pass of its key, or SELFTEST. (log entry 63: DEDUCED in part) -/
def State.judgeTest (s : State) (key : Nat) (detected : Bool) : State := if detected then s.notePass key else s.selftestFail

/-- True where at least 2,000 ns remain before the next pass of an engine that has slots.
(log entry 63: DEDUCED in part) -/
def State.passGap (s : State) (engine : Nat) : Bool :=
  match (s.engineLoops engine).head? with
  | none => true
  | some r =>
    let p := max (fieldAt r 4 4) 1
    let t := fieldAt r 8 4
    if s.now ≤ t then decide (s.now + 2000 ≤ t) else decide (2000 ≤ p - 1 - (s.now - t - 1) % p)

/-- True while the fallback unit serves a stream (R373). -/
def State.fallbackServes (s : State) : Bool := (List.range (s.recs 0xD).length).any (fun i => (s.stream i).takeover.isSome)

/-- True where the output pulse tests of a group run (R372). -/
def State.pulsable (s : State) (g : Nat) : Bool :=
  s.fld (Fld.CRUST_GROUP_level g) == 0 && !s.asserted g && s.flag Fld.SIO_CFG_sto_test && decide (g < 4)

/-- The group whose output a pulse slot tests next: 0 to 3 in turn, without those that are skipped (R370, R372); `visit` counts the
rotation slots. (log entry 63: DEDUCED in part) -/
def State.pulseTurn (s : State) (visit : Nat) : Option Nat :=
  let first := if s.crust.turn.1 = visit then s.crust.turn.2 else 0
  (List.range 4).find? (fun g => decide (first ≤ g) && s.pulsable g)

/-- SELFTEST_SLOT (R370): in the rotation slot that device time is in, Crust runs its test; `g` is the group of a pulse test,
and `detected` what a test that ends at once finds. A test that cannot run is left for its next slot.
(log entry 63: DEDUCED in part) -/
def execSelftestSlot (g : Nat) (detected : Bool) (s : State) : Host.Outcome State Fault Refusal :=
  .next (
    let slot := s.now % 50000000 / 5000000
    if !s.flag Fld.CRUST_STATUS_run then s
    else if slot = 0 ∨ slot = 4 then s.judgeTest (4 * slot) detected
    else if slot = 1 ∨ slot = 2 then
      (if s.passGap (2 * slot - 2) && s.passGap (2 * slot - 1) then s.judgeTest (4 * slot) detected else s)
    else if slot = 3 then (if s.fallbackServes then s else s.judgeTest 12 detected)
    else if slot = 5 ∨ slot = 7 then
      (if s.pulseTurn (s.now / 5000000) = some g ∧ s.crust.pulse.isNone = true then
        { s with crust := { s.crust with pulse := some (2 * g + (slot - 5) / 2, s.monoNs), turn := (s.now / 5000000, g + 1) } }.driveOutputs
      else s)
    else if slot = 6 ∨ slot = 8 then
      (if s.crust.estopTest.isNone then { s with crust := { s.crust with estopTest := some ((slot - 6) / 2, s.monoNs) } } else s)
    else s)

/-- STO_PULSE_END (R370): the 200 µs pulse on an output ends; its readback was energised or not.
(log entry 63: DEDUCED in part) -/
def execStoPulseEnd (high : Bool) (s : State) : Host.Outcome State Fault Refusal :=
  .next (match s.crust.pulse with
    | none => s
    | some (x, t) =>
      if s.monoNs < t + 200000 then s
      else
        let s1 := { s with crust := { s.crust with pulse := none } }.driveOutputs
        let ma := s1.fld (Fld.SIO_WIRE_ma x)
        (if high then s1.latchWire x 4 ma else s1.endWire x 4 ma).judgeTest (4 * (5 + 2 * (x % 2)) + x / 2) (!high))

/-- ESTOP_TEST_END (R370): the 100 µs internal open of a channel ends; the channel read closed or open.
(log entry 63: DEDUCED in part) -/
def execEstopTestEnd (closed : Bool) (s : State) : Host.Outcome State Fault Refusal :=
  .next (match s.crust.estopTest with
    | none => s
    | some (c, t) =>
      if s.monoNs < t + 100000 then s
      else
        let s1 := { s with crust := { s.crust with estopTest := none } }
        let ma := s1.fld (Fld.SIO_WIRE_ma (8 + c))
        (if closed then s1.latchWire (8 + c) 6 ma else s1.endWire (8 + c) 6 ma).judgeTest (4 * (6 + 2 * c)) (!closed))

/-- The last pass of a test. (log entry 63: DEDUCED in part) -/
def State.lastPass (s : State) (key : Nat) : Nat := Sparse.get (fun _ => 0) s.crust.passes key

/-- True where the 100 ms interval of a test runs (R371 to R373). -/
def State.intervalRuns (s : State) (slot g : Nat) : Bool :=
  if slot = 3 then !s.fallbackServes && g == 0
  else if slot = 5 ∨ slot = 7 then s.pulsable g
  else decide (slot < 9) && g == 0

/-- SELFTEST_OVERDUE (R371): the last pass of a test lies more than 100 ms in the past; raised once until it passes.
(log entry 63: DEDUCED in part) -/
def execSelftestOverdue (slot g : Nat) (s : State) : Host.Outcome State Fault Refusal :=
  .next (
    let key := 4 * slot + g
    if s.flag Fld.CRUST_STATUS_run = false ∨ s.intervalRuns slot g = false ∨ s.monoNs ≤ s.lastPass key + 100000000 ∨
        s.crust.overdue.contains key = true then s
    else { s with crust := { s.crust with overdue := s.crust.overdue ++ [key] } }.selftestFail)

end Sys2Proof.Machine
end

