-- ==== Sys2Proof/Machine/Reset.lean ====
section
/-! DEFINITION. The reset controller (chapter 22): sources and episodes, what each scope clears, the release of the
domains, the host port's reset and single-block resets. -/

namespace Sys2Proof.Machine

/-! ### What a reset leaves (R406) -/

/-- True for a register of a block in RX_AON: RST, PWR, BKP and THRM of the Reflex die.
(log entry 69: DEDUCED in part) -/
def aonReg (a : Nat) : Bool :=
  a / 0x1000000 == 0 && [0x20, 0x21, 0x22, 0x31].contains (a / 0x10000 % 0x100)

/-- True for the registers that every reset keeps: the flash counters FTL_CORR_CNT and FTL_UNITS_WRITTEN.
(log entry 69: DEDUCED in part) -/
def ftlKept (a : Nat) : Bool :=
  (Reg.FTL_CORR_CNT ≤ a && a < Reg.FTL_CORR_CNT + 8) || (Reg.FTL_UNITS_WRITTEN ≤ a && a < Reg.FTL_UNITS_WRITTEN + 8)

/-- The status of a key slot in KEY_SLOT_STATUS, as its fuses say. -/
def BootSt.key (b : BootSt) (i : Nat) : KeySlot := Sparse.get (fun _ => {}) b.keys i

/-- The key registers as the fuses say (R394). -/
def State.keyRegs (s : State) : State :=
  let word := fun (a : Nat) => ((List.range 4).map (fun i => 4 ^ i * (s.boot.key (4 * a + i)).state)).sum
  ((s.setFld Fld.KEY_SLOT_STATUS_sa (word 0)).setFld Fld.KEY_SLOT_STATUS_oa (word 1)).setFld Fld.KEY_FUSES_rollback s.boot.rollback

/-- What the boot controller keeps through a reset: the NOR and the fuses (R393, R394, R398).
(log entry 69: DEDUCED in part) -/
def BootSt.kept (b : BootSt) : BootSt := { nor := b.nor, keys := b.keys, rollback := b.rollback }

/-- What every reset of the module keeps: the commands that wait, host memory and what has reached the host and the robot,
the flash store, the NOR and the fuses, and the counts of the model. Device memory holds undefined contents.
(log entry 69: DEDUCED in part) -/
def State.keptByReset (s : State) (regs : Sparse Word) (latches staged : List PairHalf) : State :=
  { State.reset with
    pending := s.pending, freeCtr := s.freeCtr + 1, answer := s.answer, regs := regs, latches := latches, staged := staged
    phys := ⟨[], [⟨0, 0x4000000000, s.freeCtr + 1⟩], []⟩
    hostMem := s.hostMem, mono := s.mono, nextRun := s.nextRun, msix := s.msix, nextAlloc := s.nextAlloc
    flash := { s.flash with lastCommit := 0 }
    ports := { sent := s.ports.sent }
    boot := s.boot.kept }

/-- The effect of scope MODULE (R406): everything but RX_AON. (log entry 69: DEDUCED in part) -/
def State.moduleReset (s : State) : State :=
  { s.keptByReset (s.regs.filter (fun p => aonReg p.1 || ftlKept p.1)) (s.latches.filter (fun p => aonReg p.low))
      (s.staged.filter (fun p => aonReg p.low)) with
    rails := s.rails, power := { s.power with stretch := [] }, rst := s.rst }.keyRegs

/-- True for the registers that tell what reset the module: RST_CAUSE and RST_CNT_s. -/
def causeReg (a : Nat) : Bool := a == Reg.RST_CAUSE || (decide (Reg.RST_CNT 1 ≤ a) && decide (a ≤ Reg.RST_CNT 9))

/-- The effect of scope FULL (R406). (log entry 69: DEDUCED in part) -/
def State.fullReset (s : State) : State := (s.keptByReset (s.regs.filter (fun p => ftlKept p.1)) [] []).keyRegs

/-- The effect of a source of scope MODULE that joins an episode of scope FULL (R405, R410): every domain of the combined scope is
reset, and the causes and counts of the episode stand. (log entry 69: DEDUCED in part) -/
def State.combinedReset (s : State) : State :=
  { s.keptByReset (s.regs.filter (fun p => ftlKept p.1 || causeReg p.1)) [] [] with rst := s.rst }.keyRegs

/-! ### Sources and episodes (R403 to R405, R410) -/

/-- True for the sources that stay active: PIN and THERM; the others end at once. (log entry 68: DEDUCED in part) -/
def lasting (code : Nat) : Bool := code == 3 || code == 7

/-- A 16-bit count advanced, wrapping. (log entry 68: DEDUCED in part) -/
def State.countReset (s : State) (code : Nat) : State :=
  s.setFld (Fld.RST_CNT_count code) ((s.fld (Fld.RST_CNT_count code) + 1) % 65536)

/-- A source of scope MODULE or FULL becomes active (R403, R405, R410): it begins an episode or joins the one that runs, and
every domain of the combined scope is held. Of the sources that begin it in one reference cycle the lowest code is the first. POR (1) has scope FULL and clears the history. A DIES or a block reset that
runs is superseded. (log entry 68: DEDUCED in part) -/
def State.activate (s : State) (code : Nat) : State :=
  let full := code == 1 || (s.rst.episode && s.rst.full)
  let old := if s.rst.episode && code != 1 then s.fld Fld.RST_CAUSE_sources else 0
  let s1 := if code = 1 then s.fullReset else if full then s.combinedReset else s.moduleReset
  let joins := s.rst.episode && code != 1
  let first := if joins && s.rst.began == s.refCycle then min code (s.fld Fld.RST_CAUSE_first)
    else if joins then s.fld Fld.RST_CAUSE_first else code
  let s1' := if s.rst.episode && code != 1 then s1 else s1.setFld Fld.RST_CAUSE_wdog_die 0
  let s2 := (s1'.setFld Fld.RST_CAUSE_sources (setBits old (code - 1) 1 1)).setFld Fld.RST_CAUSE_first first
  let s3 := if code = 1 ∨ old.testBit (code - 1) = true then s2 else s2.countReset code
  let s4 := ((s3.setFld Fld.RST_BLK_STATUS_busy 0).setFld Fld.RST_BLK_STATUS_phase 0)
  let r := if code = 1 then ({} : RstSt) else s.rst
  { s4 with
    rst := { r with
      active := if lasting code && !r.active.contains code then r.active ++ [code] else r.active
      episode := true, full := full, holdFrom := s.monoNs, lastRelease := none, dies := [], repeatDies := [], blk := none
      began := if joins then r.began else s.refCycle }
    held := if full then List.range 40 else (List.range 39).map (· + 1) }

/-- A lasting source ends; when it was the last, the hold counts from here (R409). (log entry 68: DEDUCED in part) -/
def State.deactivate (s : State) (code : Nat) : State :=
  { s with rst := { s.rst with active := s.rst.active.filter (fun c => c != code), holdFrom := s.monoNs } }

/-- POWER_ON_RESET (R403, R429): VIN has qualified. (log entry 68: DEDUCED in part) -/
def execPowerOnReset (s : State) : Host.Outcome State Fault Refusal := .next (s.activate 1)

/-- PIN_RESET_ASSERT (R404): RST_IN_N has been sampled low `samples` times in a row at 25 MHz.
(log entry 68: DEDUCED in part) -/
def execPinResetAssert (samples : Nat) (s : State) : Host.Outcome State Fault Refusal :=
  .next (if samples < 64 ∨ s.rst.active.contains 3 = true then s else s.activate 3)

/-- PIN_RESET_RELEASE (R404): RST_IN_N has been sampled high `samples` times in a row.
(log entry 68: DEDUCED in part) -/
def execPinResetRelease (samples : Nat) (s : State) : Host.Outcome State Fault Refusal :=
  .next (if 64 ≤ samples ∧ s.rst.active.contains 3 = true then s.deactivate 3 else s)

/-- CRUST_RESET (R403): 1 ms after a CRUST_INTERNAL or CLOCK event. (log entry 68: DEDUCED in part) -/
def execCrustReset (s : State) : Host.Outcome State Fault Refusal :=
  .next (match s.crust.trip with
    | none => s
    | some t => if s.monoNs < t + 1000000 then s else s.activate 5)

/-- The temperature below which a tripped unit is clear, in 1/8 °C (R432). -/
def clearTemp (u : Nat) : Int := if u < 5 then 800 else 720

/-- The number of sensors of a thermal unit (R432). -/
def unitSensors (u : Nat) : Nat := [4, 4, 4, 6, 6, 1, 1].getD u 0

/-- A junction sensor. -/
def State.sensor (s : State) (u i : Nat) : Sensor := Sparse.get (fun _ => {}) s.power.sensors (8 * u + i)

/-- The trip temperature of a thermal unit in °C (R432). -/
def tripC (u : Nat) : Nat := if u < 5 then 115 else 105

/-- The throttle threshold in force of a thermal unit, in °C: one above the trip − 5 acts as the trip − 5. -/
def State.throttleC (s : State) (u : Nat) : Nat := min (s.fld (Fld.THRM_LIMIT_throttle_c u)) (tripC u - 5)

/-- The warn threshold in force, in °C: one above the throttle threshold acts as that. -/
def State.warnC (s : State) (u : Nat) : Nat := min (s.fld (Fld.THRM_LIMIT_warn_c u)) (s.throttleC u)

/-- What a sensor counts as, in 1/8 °C: its reading, or its unit's throttle threshold while it is faulty (R432). -/
def State.temp (s : State) (u i : Nat) : Int :=
  if s.flag (Fld.THRM_TEMP_fault u i) then 8 * (s.throttleC u : Int) else (s.sensor u i).reading

/-- THERM_SOURCE_CLEAR (R405, R434): THERM ends after 1 s once every sensor of every tripped unit reads below its unit's
clearing temperature. (log entry 68: DEDUCED in part) -/
def execThermSourceClear (s : State) : Host.Outcome State Fault Refusal :=
  .next (
    let cool := s.rst.tripped.all (fun u => (List.range (unitSensors u)).all (fun i => decide (s.temp u i < clearTemp u)))
    if s.rst.active.contains 7 = true ∧ s.rst.thermAt + 1000000000 ≤ s.monoNs ∧ cool = true then
      let s1 := s.deactivate 7
      { s1 with rst := { s1.rst with tripped := [] } }
    else s)

/-! ### Software resets (R408) -/

/-- A request of the reset controller ignored: cmd_reject. -/
def State.rstReject (s : State) : State := s.event Ev.RST_EVT_STATUS_cmd_reject

/-- The effect of scope DIES on one die (R406, R408): its registers, engines and SRAM; its copy of device time starts again and
adopts device time at the die's next realignment (R19); it leaves service until firmware has repeated its bring-up step. (log entry 69: DEDUCED in part) -/
def State.dieReset (s : State) (die : Nat) : State :=
  let s1 := { s with
    regs := s.regs.filter (fun p => p.1 / 0x1000000 != die)
    latches := s.latches.filter (fun p => p.low / 0x1000000 != die)
    staged := s.staged.filter (fun p => p.low / 0x1000000 != die)
    seqSlots := s.seqSlots.filter (fun p => p.1 / 256 != die)
    seqCmds := s.seqCmds.filter (fun p => p.1 != die)
    seqTags := s.seqTags.filter (fun p => p.1 / 4 != die)
    requests := s.requests.filter (fun r => r.die != die && r.loc != die)
    windows := s.windows.filter (fun p => p.1 / windowStride != die)
    tlb := Sparse.erase die s.tlb
    dieSkew := Sparse.erase die s.dieSkew
    dieLag := Sparse.put (fun _ => 0) s.dieLag die (-(s.now : Int))
    power := { s.power with stretch := s.power.stretch.filter (fun p => domainDie p.1 != die) }
    boot := { s.boot with wdog := Sparse.erase die s.boot.wdog, restart := Sparse.erase die s.boot.restart }
    diesPresent := if s.diesPresent.testBit die then s.diesPresent - 2 ^ die else s.diesPresent
    linkMods := s.linkMods.set die 0 }
  (s1.coreBack die).undefRange (dieLocal die 0) 0x100000000

/-- True where every context that uses a die is NONRESIDENT or ABSENT (R408). -/
def State.dieIdle (s : State) (die : Nat) : Bool :=
  s.ctxs.all (fun p => !(s.ctxDies p.1).contains die || p.2.phase == .nonresident || p.2.phase == .absent)

/-- A DIES reset of the dies of a mask whose bit i is die i + 2 (R408, R410). (log entry 69: DEDUCED in part) -/
def State.diesReset (s : State) (mask : Nat) : State :=
  let ds := [2, 3, 4].filter (fun d => mask.testBit (d - 2))
  if ds.isEmpty || s.rst.episode || !ds.all s.dieIdle then s.rstReject
  else
    let s1 := (ds.foldl (fun (a : State) d => a.dieReset d) s).countReset 8
    { s1 with
      rst := { s1.rst with
        holdFrom := s1.monoNs
        lastRelease := none
        dies := [2, 3, 4].filter (fun d => ds.contains d || s.rst.dies.contains d)
        repeatDies := s.rst.repeatDies.filter (fun d => !ds.contains d) }
      held := (List.range 40).filter (fun d => s.held.contains d || ds.contains (domainDie d)) }

/-- A write of RST_SW_CTRL (R408): 0 in `scope` is MODULE. A MODULE request joins an episode that runs (R405). -/
def State.writeSwCtrl (s : State) (v : Nat) : State :=
  let s1 := (s.setFld Fld.RST_SW_CTRL_scope (bits v 1 1)).setFld Fld.RST_SW_CTRL_dies (bits v 2 3)
  let s2 := { s1 with rst := { s1.rst with swAt := some s1.refCycle } }
  if !bit v 0 then s1
  else if bit v 1 then s2.diesReset (bits v 2 3)
  else s2.activate 8

/-- True for a write of RST_SW_CTRL with start = 1. -/
def startsSwReset : Instr → Bool
  | .swResetModule _ _ => true
  | .swResetDies _ _ => true
  | .registerWrite _ a v => a == Reg.RST_SW_CTRL && bit v 0
  | _ => false

/-- True where RST_SW_CTRL is written with start = 1 in this reference cycle (R417): it has been, or the write waits behind this
command, since no cycle passes while a command waits (log entry 2). (log entry 70: DEDUCED in part) -/
def State.swResetNow (s : State) : Bool := s.rst.swAt == some s.refCycle || s.pending.any startsSwReset

/-- SW_RESET_MODULE (R408): a write of RST_SW_CTRL with start = 1 and scope MODULE. -/
def execSwResetModule (who : Requester) (value : Nat) (s : State) : Host.Outcome State Fault Refusal :=
  .next (s.busWrite who 0 0x20 true (fun s => s.writeSwCtrl (setBits value 0 2 1)))

/-- SW_RESET_DIES (R408): a write of RST_SW_CTRL with start = 1 and scope DIES. -/
def execSwResetDies (who : Requester) (value : Nat) (s : State) : Host.Outcome State Fault Refusal :=
  .next (s.busWrite who 0 0x20 true (fun s => s.writeSwCtrl (setBits value 0 2 3)))

/-! ### Release (R409) -/

/-- The first held domain released; the release of RX_BOOT begins a start (R384), and that of the last domain ends the episode
or hands the dies of a DIES reset to firmware. (log entry 68: DEDUCED in part) -/
def State.releaseNext (s : State) : State :=
  match s.held with
  | [] => s
  | d :: ds =>
    let s1 := { s with held := ds, rst := { s.rst with lastRelease := some s.monoNs } }
    let s2 := if d = 1 then { s1 with boot := { s1.boot with relAt := s1.monoNs } } else s1
    if ds.isEmpty then
      { s2 with rst := { s2.rst with
        episode := false, full := false, lastRelease := none, dies := [], repeatDies := s2.rst.repeatDies ++ s2.rst.dies } }
    else s2

/-- True while a rail is switched off, so that the monitor's BROWNOUT lasts (R429, R430).
(log entry 68: DEDUCED in part) -/
def State.railsOff (s : State) : Bool := s.rails.any (fun r => r.off)

/-- RESET_HOLD_END (R409): 256 reference cycles (10.24 µs) after the last source has cleared, the first domain is released.
(log entry 68: DEDUCED in part) -/
def execResetHoldEnd (s : State) : Host.Outcome State Fault Refusal :=
  .next (if s.rst.active.isEmpty && s.rst.lastRelease.isNone && !s.railsOff && decide (s.rst.holdFrom + 10240 ≤ s.monoNs) then s.releaseNext
    else s)

/-- DOMAIN_RELEASE (R409): 64 reference cycles (2.56 µs) after a release, the next domain is released. -/
def execDomainRelease (s : State) : Host.Outcome State Fault Refusal :=
  .next (match s.rst.lastRelease with
    | none => s
    | some t => if s.rst.active.isEmpty && !s.railsOff && decide (t + 2560 ≤ s.monoNs) then s.releaseNext else s)

/-! ### The host port (R407) -/

/-- The count of an invocation that has lost its completion record. (log entry 69: DEDUCED in part) -/
def orphanOf (n : Nat) : Nat := n + 2 ^ 32

/-- The queue of a context after a reset of the host port: the counts are 0, and what was fetched and not started is gone.
(log entry 69: DEDUCED in part) -/
def State.orphanInvs (s : State) : State :=
  { s with
    queues := []
    invs := (s.invs.filter (fun i => i.counted)).map (fun i => { i with sqIndex := orphanOf i.sqIndex })
    runs := s.runs.map (fun r => { r with origin := match r.origin with | .invocation n => .invocation (orphanOf n) | o => o })
    ctxs := s.ctxs.map (fun p => (p.1, { p.2 with acts := p.2.acts.map (fun a => { a with inv := a.inv.map orphanOf }) }))
    kvTouched := s.kvTouched.map (fun t => { t with inv := t.inv.map orphanOf }) }

/-- A reset of scope HOST_PORT (R407): the PCIE and HQ blocks return to their reset values, invocations that run go on without
completion records, and a load in progress is abandoned (R406). (log entry 69: DEDUCED in part) -/
def State.hostPortReset (s : State) : State :=
  let s1 := (((s.orphanInvs.resetBlock 1 0x44).resetBlock 1 0x45).countReset 6).setFld Fld.HQ_DEV_STATE_bkr_restarting
    (s.fld Fld.HQ_DEV_STATE_bkr_restarting)
  let s2 := if s1.load.isSome then (s1.setFld Fld.LAY_STATUS_state (if s1.layout.isSome then 1 else 0)) else s1
  { s2 with proposal := none, load := none, msixTable := [], msixPending := [] }

/-- HOST_RESET (R407): a Function Level Reset, a hot reset or the loss of the link.
(log entry 71: DESIGN CHOICE in part) -/
def execHostReset (s : State) : Host.Outcome State Fault Refusal :=
  .next (if s.fld Fld.BOOT_STATUS_state = 0 then s.activate 6 else s.hostPortReset)

/-- The registers in which firmware shows itself to the host (R391). (log entry 26: DESIGN CHOICE in part) -/
def State.showFirmware (s : State) : State :=
  match s.boot.fw with
  | none => s
  | some f =>
    (((s.setReg Reg.HQ_FW_VERSION (BitVec.ofNat 32 f.version)).setReg Reg.HQ_IF_FW (BitVec.ofNat 32 f.ifWord)).setRegBytes
      (Reg.HQ_FW_DIGEST 0) 16 f.digest)

/-- The host link in the active state, as it trained (05, PCIE_LINK_STATUS).
(log entry 65: DEDUCED in part; log entry 71: DESIGN CHOICE in part) -/
def State.linkUp (s : State) (width rate : Nat) (flit : Bool) : State :=
  (((s.setFld Fld.PCIE_LINK_STATUS_width width).setFld Fld.PCIE_LINK_STATUS_rate rate).setFld Fld.PCIE_LINK_STATUS_flit
    (b2n flit)).setFld Fld.PCIE_LINK_STATUS_up 1

/-- HOST_PORT_RECONFIGURE (R407): the source has ended and the link is active with `width` lanes at a rate, in flit mode or not;
firmware configures the endpoint and sets the state to HANDSHAKE, or to what a halted start shows.
(log entry 71: DESIGN CHOICE in part; log entry 78: DESIGN CHOICE in part) -/
def execHostPortReconfigure (width rate : Nat) (flit : Bool) (s : State) : Host.Outcome State Fault Refusal :=
  .next (
    let st := s.fld Fld.BOOT_STATUS_state
    if st = 0 ∨ s.fld Fld.HQ_DEV_STATE_state ≠ 0 then s
    else
      (s.linkUp width rate flit).showFirmware.setFld Fld.HQ_DEV_STATE_state (if st = 1 then 1 else 5))

/-! ### Block resets (R413 to R417) -/

/-- True for the blocks that may be reset alone, on the dies that have them (R413). (log entry 70: DEDUCED in part) -/
def blockResettable (die block : Nat) : Bool :=
  (block == 0x05 && decide (die < 5)) || (block == 0x0A && (die == 0 || (2 ≤ die && decide (die < 5)))) ||
    (block == 0x0B && (die == 0 || die == 2)) || (block == 0x0C && (2 ≤ die && decide (die < 5))) ||
    (block == 0x60 && die == 2) || ((block == 0x68 || block == 0x69) && (die == 3 || die == 4)) ||
    ([0x41, 0x42, 0x43].contains block && die == 1) ||
    ([0x27, 0x28, 0x29, 0x2A, 0x31, 0x24, 0x25, 0x26, 0x2B].contains block && die == 0)

/-- The blocks that carry joint and sensor traffic: they are reset only with safe torque off on every group (R413).
(log entry 70: DEDUCED in part) -/
def blockNeedsSto (block : Nat) : Bool := [0x24, 0x25, 0x26, 0x2B].contains block

/-- The runs whose operation a block carries out now: executed and not complete, or begun by its engine. -/
def State.blockRuns (s : State) (die block : Nat) : List Run :=
  s.runs.filter (fun r => r.done.isNone &&
    (let op := (s.currentOp r).elim 0 (fun d => fieldAt d 0 1)
     ((opBlocks op r.die).contains (die, block) &&
      (r.executed || r.putReady || s.plan.batch.elim false (fun b => b.run == r.id) || s.solv.active.elim false (fun a => a.run == r.id))) ||
     (block == 0x42 && die == 1 && r.prefetches.any (fun p => p.2 == .inFlight || p.2 == .issued))))

/-- The swap-outs and restores whose transfers the tier manager runs, by die (R168, R188).
(log entry 70: DEDUCED in part) -/
def State.slotTransfers (s : State) : List Nat := (s.seqCmds.filter (fun p => p.2.elim false (·.moving))).map (·.1)

/-- The number of commands of a block's own interface, and of transfers it runs for others, that are in flight (R414, R415): of the
tier manager its command, the residencies and the transfers of slots. (log entry 70: DEDUCED in part) -/
def State.blockCmds (s : State) (die block : Nat) : Nat :=
  if block = 0x41 then b2n s.kvPending.isSome
  else if block = 0x42 then
    b2n s.tierPending.isSome + (s.ctxs.filter (fun p => p.2.phase == .loading)).length + s.slotTransfers.length
  else if block = 0x0B then b2n (s.seqCmd die).isSome
  else if block = 0x28 then b2n (s.map.build.isSome || s.map.cmdWaits)
  else b2n (block == 0x27 && s.fusion.run.isSome)

/-- An operation terminated by a block reset (R415): its outputs are undefined, and the programme ends with 0x0D10.
(log entry 70: DEDUCED in part) -/
def State.terminateRun (s : State) (r : Run) : State :=
  ((((s.dropEngineWork r).cancelPrefetches r r.prefetches).undefRanges r.outs)).endRun r 0x0D10

/-- A restore that a reset of its engine ends has failed (R168, R415).
(log entry 35: DEDUCED in part; log entry 70: DEDUCED in part) -/
def State.restoreEnded (s : State) (die : Nat) (c : Option SeqCmd) : State :=
  s.eventIf (c.elim false (fun x => x.op == 3)) (Ev.SEQ_EVT_STATUS_restore_fail die)

/-- The command of a block's own interface that `was` had in flight ended with 0x0D10 (R415). (log entry 70: DEDUCED in part) -/
def State.endBlockCmd (s was : State) (die block : Nat) : State :=
  if block = 0x41 then (if was.kvPending.isSome then s.kvStatus 0x0D10 else s)
  else if block = 0x42 then (if was.tierPending.isSome then (s.setFld Fld.TIER_CMD_STATUS_busy 0).tierStatus 0x0D10 else s)
  else if block = 0x0B then (if (was.seqCmd die).isSome then (s.seqStatus die 0x0D10).restoreEnded die (was.seqCmd die) else s)
  else if block = 0x28 then (if was.blockCmds 0 0x28 = 0 then s else s.mapStatus 0x0D10)
  else s

/-- The transfer of a die's swap-out or restore ended by a reset of the tier manager (R168, R415): the command ends with 0x0D10; the
slot is live again, or a restore has failed and leaves it empty. (log entry 70: DEDUCED in part) -/
def State.endSlotTransfer (s : State) (die : Nat) : State :=
  match s.seqCmd die with
  | none => s
  | some c =>
    if c.op = 2 then (s.setSlot c.key { s.seqSlot c.key with phase := .live, closing := false }).seqStatus die 0x0D10
    else ((s.setSlot c.key {}).restoreFailed die 0x0D10).endWaits c.key

/-- The residencies that a reset of the tier manager ends (R73, R415). (log entry 70: DEDUCED in part) -/
def State.failResidencies (s : State) : State :=
  ((s.ctxs.filter (fun p => p.2.phase == .loading)).map (·.1)).foldl (fun (a : State) k => a.residencyFailed k 0x0D10) s

/-- The joint-bus engine restarted: counters unseen, nothing built, each stream from its next cycle on.
(log entry 70: DEDUCED in part) -/
def State.restartStreams (s : State) : State :=
  let s1 := { s with ports := { s.ports with jbusIn := [] } }
  ((s1.recs 0xD).zipIdx).foldl (fun (a : State) p =>
    let x := a.stream p.2
    let lead := if streamKind p.1 = 0 then 2000 else 0
    a.setStream p.2 { x with last := none, accepted := [], servedRun := 0, built := none, missed := none
                             next := firstCycle p.1 lead a.now }) s1

/-- The fusion engine with nothing taken and no slot: the next is the first whose cut-off is to come.
(log entry 70: DEDUCED in part) -/
def State.restartFusion (s : State) : State := { s with fusion := { restart := some s.now } }

/-- The state of a block cleared, as its own chapter says (R413). (log entry 70: DEDUCED in part) -/
def State.clearBlock (s : State) (die block : Nat) : State :=
  let s1 := s.resetBlock die block
  if block = 0x43 then { s1 with regs := s.regs.filter (fun p => p.1 / 0x10000 != 0x143 || ftlKept p.1) }
  else if block = 0x0B then
    { s1 with seqSlots := s1.seqSlots.filter (fun p => p.1 / 256 != die), seqCmds := s1.seqCmds.filter (fun p => p.1 != die)
              seqTags := s1.seqTags.filter (fun p => p.1 / 4 != die) }
  else if block = 0x41 then
    { s1.tlbDrop (fun e => (s.linkedSeq? e.ctx e.va).isSome) with kv := [], kvPages := [], kvPending := none, kvTouched := [], seqLinks := [] }
  else if block = 0x42 then { s1 with tierPending := none }
  else if block = 0x26 then s1.restartStreams
  else if block = 0x24 then { s1 with ports := { s1.ports with fwIn := [] } }
  else if block = 0x25 then { s1 with ports := { s1.ports with cams := [] } }
  else if block = 0x27 then s1.restartFusion
  else if block = 0x28 then s1.resetMap
  else if block = 0x29 then { s1 with plan := {} }
  else if block = 0x2A then ({ s1 with solv := {} } : State).resetSetups (List.range 16)
  else if block = 0x2B then s1.startLoops (s1.recs 0xB)
  else if block = 0x31 then { s1 with power := { s1.power with sensors := [] } }
  else s1

/-- The number of operations and commands that a block has in flight. (log entry 70: DEDUCED in part) -/
def State.blockLoad (s : State) (die block : Nat) : Nat := (s.blockRuns die block).length + s.blockCmds die block

/-- The reset of a block (R414 step 4, R415): what is in flight is terminated and counted, and the block's state is cleared.
(log entry 70: DEDUCED in part) -/
def State.resetNow (s : State) (die block : Nat) (sirug : Bool) : State :=
  let n := s.blockLoad die block
  let s1 := (s.blockRuns die block).foldl (fun (a : State) r => a.terminateRun r) s
  let s2 := if block = 0x42 then s1.slotTransfers.foldl (fun (a : State) d => a.endSlotTransfer d) s1.failResidencies else s1
  let s4 := (s2.clearBlock die block).endBlockCmd s die block
  let s5 := ((s4.setFld Fld.RST_BLK_TERM_ops (min n 65535)).setFld Fld.RST_BLK_STATUS_phase 2).setFld Fld.RST_BLK_STATUS_code
    (if n = 0 then 0 else 0x0D10)
  { s5 with rst := { s5.rst with blk := some ⟨die, block, sirug, s5.monoNs⟩ } }

/-- A block reset requested (R413, R416, R417): ignored with cmd_reject, or begun. (log entry 70: DEDUCED in part) -/
def State.startBlockReset (s : State) (die block : Nat) (sirug : Bool) : State :=
  if s.rst.episode || s.rst.blk.isSome || s.swResetNow || !blockResettable die block ||
      (blockNeedsSto block && s.fld Fld.SIO_STO_STATUS_asserted != 15) then s.rstReject
  else
    let s1 := ((s.countReset 9).setFld Fld.RST_BLK_STATUS_busy 1).setFld Fld.RST_BLK_STATUS_code 0
    let s2 := s1.setFld Fld.RST_BLK_TERM_ops 0
    if sirug then s2.resetNow die block true
    else
      { s2.setFld Fld.RST_BLK_STATUS_phase 1 with rst := { s2.rst with blk := some ⟨die, block, false, s2.monoNs⟩ } }

/-- A write of RST_BLK_CTRL. (log entry 70: DEDUCED in part) -/
def State.writeBlkCtrl (s : State) (v : Nat) : State :=
  let s1 := ((s.setFld Fld.RST_BLK_CTRL_mode (bits v 1 1)).setFld Fld.RST_BLK_CTRL_die (bits v 8 3)).setFld
    Fld.RST_BLK_CTRL_block (bits v 16 8)
  if bit v 0 then s1.startBlockReset (bits v 8 3) (bits v 16 8) (bit v 1) else s1

/-- BLOCK_RESET_DRAIN (R414): a write of RST_BLK_CTRL with start = 1 in drain mode. -/
def execBlockResetDrain (who : Requester) (value : Nat) (s : State) : Host.Outcome State Fault Refusal :=
  .next (s.busWrite who 0 0x20 true (fun s => s.writeBlkCtrl (setBits value 0 2 1)))

/-- BLOCK_RESET_SIRUG (R416): a write of RST_BLK_CTRL with start = 1 in Sirug-compatible mode. -/
def execBlockResetSirug (who : Requester) (value : Nat) (s : State) : Host.Outcome State Fault Refusal :=
  .next (s.busWrite who 0 0x20 true (fun s => s.writeBlkCtrl (setBits value 0 2 3)))

/-- BLOCK_DRAIN_DONE (R414): the draining block has nothing in flight, and is reset.
(log entry 70: DEDUCED in part) -/
def execBlockDrainDone (s : State) : Host.Outcome State Fault Refusal :=
  .next (match s.rst.blk with
    | none => s
    | some b =>
      if s.fld Fld.RST_BLK_STATUS_phase = 1 ∧ s.blockLoad b.die b.block = 0 then s.resetNow b.die b.block false else s)

/-- The drain limit in ns (RST_DRAIN_TIMEOUT). -/
def State.drainNs (s : State) : Nat := min (max (s.fld Fld.RST_DRAIN_TIMEOUT_us) 1) 1000000 * 1000

/-- BLOCK_DRAIN_TIMEOUT (R414, R415): the limit expires, and what is in flight ends with 0x0D10.
(log entry 70: DEDUCED in part) -/
def execBlockDrainTimeout (s : State) : Host.Outcome State Fault Refusal :=
  .next (match s.rst.blk with
    | none => s
    | some b =>
      if s.fld Fld.RST_BLK_STATUS_phase = 1 ∧ b.since + s.drainNs ≤ s.monoNs ∧ s.blockLoad b.die b.block ≠ 0 then
        (s.resetNow b.die b.block false).event Ev.RST_EVT_STATUS_blk_escalated
      else s)

/-- BLOCK_RESET_RELEASE (R414): 64 reference cycles (2.56 µs) later the block is released, and waiting work starts.
(log entry 70: DEDUCED in part) -/
def execBlockResetRelease (s : State) : Host.Outcome State Fault Refusal :=
  .next (match s.rst.blk with
    | none => s
    | some b =>
      if s.fld Fld.RST_BLK_STATUS_phase = 2 ∧ b.since + 2560 ≤ s.monoNs then
        ((({ s with rst := { s.rst with blk := none } }.setFld Fld.RST_BLK_STATUS_busy 0).setFld Fld.RST_BLK_STATUS_phase 0).event
          Ev.RST_EVT_STATUS_blk_done).startWaiting 64
      else s)

end Sys2Proof.Machine
end

