-- ==== Sys2Proof/Machine/Power.lean ====
section
/-! DEFINITION. Power, clocks and thermal control (chapter 23), the wiring faults and sensor supplies (chapter 24), and the
SMBus status page. Commands carry what the monitors and sensors measure. -/

namespace Sys2Proof.Machine

/-! ### Rails (R419 to R424) -/

/-- The lowest permitted point of a rail (R419). -/
def lowestPoint (r : Nat) : Nat := [15, 4, 11, 2, 2, 2, 11, 15].getD r 15

/-- True for the rails that stay at OPP_15: RAIL_AON and RAIL_IO (R420). -/
def fixedRail (r : Nat) : Bool := r == 0 || r == 7

/-- The floors of R79 on a rail: the ref_opp of every resident, non-quiesced context of class 0 or 1 that schedules there. -/
def State.scheduleFloor (s : State) (r : Nat) : Nat :=
  ((s.recs 3).filter (fun x => domainRail (fieldAt x 2 1) == r && (s.ctx (fieldAt x 0 1)).phase == .resident &&
    !s.quiesced (fieldAt x 0 1) && decide (s.defaultClass (fieldAt x 0 1) ≤ 1))).foldl (fun m x => max m (fieldAt x 1 1)) 0

/-- The Reflex floor (R424). -/
def State.reflexFloor (s : State) : Nat :=
  let f := max (s.fld Fld.PWR_RX_FLOOR_opp) 4
  if s.loopsActive then max f 7 else f

/-- The floor of a rail (R424). -/
def State.railFloor (s : State) (r : Nat) : Nat :=
  min 15 (max (max (lowestPoint r) (s.scheduleFloor r)) (if r = 1 then s.reflexFloor else 0))

/-- True where a phase ended less than 1 ms ago. -/
def State.recentPhase (s : State) (i : Nat) : Bool :=
  (Sparse.get (fun _ => none) s.power.phaseEnd i).elim false (fun t => decide (s.monoNs < t + 1000000))

/-- The phases that are active (R136): 0 PREFILL, 1 GENERATE, 2 CACHE, 3 REFLEX, 4 IDLE. -/
def State.activePhases (s : State) : List Nat :=
  let work := fun (ds : List Nat) => s.runs.any (fun r => ds.contains r.die && r.done.isNone)
  let prefill := work [3, 4] || s.recentPhase 0
  let generate := work [2] || s.recentPhase 1
  let cache := s.recentPhase 2 || s.ctxs.any (fun p => p.2.phase == .loading) ||
    s.seqCmds.any (fun p => p.2.elim false (·.moving)) || s.runs.any (fun r => r.prefetches.any (fun p => p.2 == .inFlight)) ||
    s.runs.any (fun r => r.executed && r.done.isNone && (s.currentOp r).elim 0 (fun d => fieldAt d 0 1) == 0x50)
  let reflex := (s.recs 2).any (fun h => (shareOf h).die == 0 && (s.ctx (shareOf h).ctx).phase == .resident)
  (if prefill then [0] else []) ++ (if generate then [1] else []) ++ (if cache then [2] else []) ++
    (if reflex then [3] else []) ++ (if prefill || generate || cache then [] else [4])

/-- The preferred point of a rail (R136): the current point where no active phase names the rail. -/
def State.preferred (s : State) (r : Nat) : Nat :=
  let recs := match s.power.oldPref with | some x => x.1 | none => s.recs 0xF
  let ps := (recs.filter (fun x => s.activePhases.contains (fieldAt x 1 1) && fieldAt x (8 + r) 1 != 255)).map
    (fun x => fieldAt x (8 + r) 1)
  if ps.isEmpty then (s.rail r).current else min 15 (ps.foldl max 0)

/-- The replaced preferences dropped once a phase transition has come (R66): once the phases that are active differ from those
at the commit. (log entry 72: DEDUCED in part) -/
def State.dropPref (s : State) : State :=
  match s.power.oldPref with
  | none => s
  | some x => if x.2 = s.activePhases then s else { s with power := { s.power with oldPref := none } }

/-- The target of a rail (R424). (log entry 72: DEDUCED in part) -/
def State.railTarget (s : State) (r : Nat) : Nat :=
  if fixedRail r then 15
  else
    let x := s.rail r
    max (s.railFloor r) (min (s.preferred r) (min x.capLimit (min x.thermLimit (min x.droopLimit
      (s.fld (Fld.PWR_RAIL_LIMIT_sw_max r))))))

/-- The next step of a rail begun, when none is in progress and its point is not the target (R421).
(log entry 72: DEDUCED in part) -/
def Rail.begin (x : Rail) (now : Nat) : Rail :=
  if x.off || x.step.isSome || x.current == x.target then x else { x with step := some (decide (x.current < x.target), now) }

/-- RAIL_TARGET_UPDATE (R424): every 100 µs each rail's target is set, and a rail off its target begins a step.
(log entry 72: DEDUCED in part) -/
def execRailTargetUpdate (s : State) : Host.Outcome State Fault Refusal :=
  .next (
    let s := s.dropPref.noteCycles (fun _ => true) 0
    (List.range 8).foldl (fun (a : State) r =>
      a.setRail r ({ a.rail r with target := s.railTarget r }.begin s.monoNs)) s)

/-- RAIL_STEP_COMPLETE (R421): 25 µs after its start, a step of one point is complete, and the rail goes on to its target.
(log entry 72: DEDUCED in part) -/
def execRailStepComplete (r : Nat) (s : State) : Host.Outcome State Fault Refusal :=
  .next (
    let x := s.rail r
    match x.step with
    | none => s
    | some (up, t) =>
      if s.monoNs < t + 25000 ∨ fixedRail r = true ∨ 8 ≤ r then s
      else
        let c := if up then min 15 (x.current + 1) else x.current - 1
        (s.noteCycles (fun d => domainRail d == r) 0).setRail r ({ x with current := max (lowestPoint r) c, step := none }.begin s.monoNs))

/-- CLK_DOM_d.mhz (R420): the clock of a domain in MHz, rounded down. (log entry 72: DEDUCED in part) -/
def State.domainMhz (s : State) (d : Nat) : Nat :=
  match clockAt d (s.rail (domainRail d)).clockPoint with
  | none => (Config.linkMhz d).toNat
  | some f => f / 16000

/-! ### Droop (R422, R423) -/

/-- The start of stretching in a domain. -/
def State.stretchFrom (s : State) (d : Nat) : Option Nat := Sparse.get (fun _ => none) s.power.stretch d

/-- The state with stretching in a domain noted. -/
def State.setStretch (s : State) (d : Nat) (x : Option Nat) : State :=
  { s with power := { s.power with stretch := Sparse.put (fun _ => none) s.power.stretch d x } }.setFld
    (Fld.CLK_DOM_stretching (domainDie d) d) (b2n x.isSome)

/-- DROOP_DETECT (R422): the supply of a domain lies `depth` tenths of a percent below its rail's set voltage; 5 % trip the
detector. -/
def execDroopDetect (d depth : Nat) (s : State) : Host.Outcome State Fault Refusal :=
  .next (
    if 40 ≤ d ∨ depth < 50 ∨ (s.stretchFrom d).isSome = true ∨ s.held.contains d = true then s
    else (s.setStretch d (some s.monoNs)).event (Ev.CLK_EVT_STATUS_droop (domainDie d)))

/-- STRETCH_END (R422): the supply has recovered after `cycles` stretched cycles, of which no two fall within 16; each lasts
1.5 periods, so the domain has lost half a cycle by each. -/
def execStretchEnd (d cycles : Nat) (s : State) : Host.Outcome State Fault Refusal :=
  .next (match s.stretchFrom d with
    | none => s
    | some _ =>
      ((s.noteCycles (fun x => x == d) (8000000 * cycles)).setStretch d none).setFld (Fld.CLK_DOM_stretched (domainDie d) d)
        ((s.fld (Fld.CLK_DOM_stretched (domainDie d) d) + cycles) % 65536))

/-- DROOP_PERSIST (R423): a domain has stretched for 10 µs without a break; its rail's droop limit falls by one point.
(log entry 72: DEDUCED in part) -/
def execDroopPersist (d : Nat) (s : State) : Host.Outcome State Fault Refusal :=
  .next (match s.stretchFrom d with
    | none => s
    | some t =>
      if s.monoNs < t + 10000 then s
      else
        let r := domainRail d
        let x := s.rail r
        ((s.setRail r { x with droopLimit := x.droopLimit - 1, droopAt := s.monoNs }).setStretch d (some s.monoNs)).event
          (Ev.CLK_EVT_STATUS_droop_persist (domainDie d)))

/-- DROOP_LIMIT_RAISE (R423): 10 ms after the last change, the droop limit rises by one point.
(log entry 72: DEDUCED in part) -/
def execDroopLimitRaise (r : Nat) (s : State) : Host.Outcome State Fault Refusal :=
  .next (
    let x := s.rail r
    if x.droopLimit < 15 ∧ x.droopAt + 10000000 ≤ s.monoNs then s.setRail r { x with droopLimit := x.droopLimit + 1, droopAt := s.monoNs }
    else s)

/-! ### The power cap (R425 to R428) -/

/-- The rails in throttle order (R419). (log entry 72: DEDUCED in part) -/
def throttleOrder : List Nat := [5, 4, 3, 2, 6, 1]

/-- The cap in mW (R425). -/
def State.capMw (s : State) : Nat := min (max (s.fld Fld.PWR_CAP_watts) 60) 300 * 1000

/-- PWR_STATUS.capped as the cap limits say. (log entry 72: DEDUCED in part) -/
def State.cappedBit (s : State) : State := s.setFld Fld.PWR_STATUS_capped (b2n (s.rails.any (fun x => decide (x.capLimit < 15))))

/-- The cap limits of some rails lowered by one point. (log entry 72: DEDUCED in part) -/
def State.lowerCaps (s : State) (rs : List Nat) : State :=
  (rs.foldl (fun (a : State) r => a.setRail r { a.rail r with capLimit := (a.rail r).capLimit - 1 }) s).cappedBit

/-- The reaction to a sample above the cap (R427, R428): cap limits fall, and cap_unmet is set where every rail that may be lowered
stands at its floor. (log entry 72: DEDUCED in part) -/
def State.overCap (s : State) (mw : Nat) : State :=
  let cap := s.capMw
  let n := if (mw - cap) * 20 ≤ cap then 1 else if (mw - cap) * 5 ≤ cap then 2 else 4
  let rs := throttleOrder.filter (fun r => decide (s.railFloor r < (s.rail r).capLimit))
  let s1 := s.event Ev.PWR_EVT_STATUS_cap_throttle
  let s2 := if throttleOrder.all (fun r => decide ((s.rail r).current ≤ s.railFloor r)) then
      ((s1.setFld Fld.PWR_STATUS_cap_unmet 1).setFld Fld.PWR_STATUS_code 0x0D43).event Ev.PWR_EVT_STATUS_cap_unmet
    else s1
  s2.lowerCaps (rs.take n)

/-- The raise of R428, where it is due. (log entry 72: DEDUCED in part) -/
def State.raiseCap (s : State) : State :=
  let xs := s.power.samples
  if xs.length < 10 ∨ s.capMw * 9 < xs.sum ∨ s.flag Fld.PWR_STATUS_input_loss = true ∨
      s.power.lastRaise.elim false (fun t => decide (s.monoNs < t + 1000000)) = true then s
  else
    match throttleOrder.reverse.find? (fun r => decide ((s.rail r).capLimit < 15)) with
    | none => s
    | some r =>
      { s.setRail r { s.rail r with capLimit := (s.rail r).capLimit + 1 } with
        power := { s.power with lastRaise := some s.monoNs } }.cappedBit

/-- POWER_SAMPLE (R425 to R428): the mean input power of the last 100 µs in mW, VIN and the bank in mV.
(log entry 73: DEDUCED in part) -/
def execPowerSample (mw vinMv bankMv : Nat) (s : State) : Host.Outcome State Fault Refusal :=
  .next (
    let s1 := ((s.setFld Fld.PWR_INPUT_mw mw).setFld Fld.PWR_VOLT_vin_mv vinMv).setFld Fld.PWR_VOLT_bank_mv bankMv
    let e := s1.power.energyFrac + mw
    let s2 := { s1 with power := { s1.power with
      samples := (s1.power.samples ++ [mw]).drop (s1.power.samples.length - 9), energyFrac := e % 10 } }.count64 Reg.PWR_ENERGY (e / 10)
    (if s2.capMw < mw then s2.overCap mw else s2.setFld Fld.PWR_STATUS_cap_unmet 0).raiseCap)

/-! ### Sensors (R432 to R434) -/

/-- The thermal units of a rail. -/
def railUnits (r : Nat) : List Nat :=
  if r = 1 then [0] else if r = 2 then [1] else if r = 3 then [2] else if r = 4 then [3] else if r = 5 then [4]
  else if r = 6 then [5, 6] else []

/-- The sensors of a rail's units. -/
def railSensors (r : Nat) : List (Nat × Nat) := (railUnits r).flatMap (fun u => (List.range (unitSensors u)).map (fun i => (u, i)))

/-- Every sensor, by unit. -/
def allSensors : List (Nat × Nat) := (List.range 7).flatMap (fun u => (List.range (unitSensors u)).map (fun i => (u, i)))

/-- One sensor's sample (R432): its register, whether it is faulty, and its samples in a row at or above the trip.
(log entry 73: DEDUCED in part) -/
def State.sampleSensor (s : State) (u i : Nat) (reading : Int) : State :=
  let x := s.sensor u i
  let since := if s.power.sensors.any (fun p => p.1 == 8 * u + i) && x.reading == reading then x.since else s.monoNs
  let faulty := decide (reading < -320) || decide (1200 < reading) || decide (since + 1000000 ≤ s.monoNs)
  let hot := !faulty && decide (8 * (tripC u : Int) ≤ reading)
  let y : Sensor := ⟨reading, since, if hot then min (x.trips + 1) 3 else 0⟩
  let s1 := { s with power := { s.power with sensors := Sparse.put (fun _ => {}) s.power.sensors (8 * u + i) y } }
  let s2 := (s1.setFld (Fld.THRM_TEMP_temp u i) (ofSigned 16 reading)).setFld (Fld.THRM_TEMP_fault u i) (b2n faulty)
  if faulty then (s2.setFld Fld.PWR_STATUS_code 0x0D45).event Ev.THRM_EVT_STATUS_sensor_fault else s2

/-- A trip (R434): recorded, and THERM made active. (log entry 73: DEDUCED in part) -/
def State.trip (s : State) (u i : Nat) : State :=
  let s1 := ((s.setFld Fld.THRM_TRIP_LAST_unit u).setFld Fld.THRM_TRIP_LAST_sensor i).setFld Fld.THRM_TRIP_LAST_temp
    (ofSigned 16 (s.sensor u i).reading)
  let s2 := s1.setFld Fld.PWR_STATUS_code 0x0D44
  let s3 := if s2.rst.active.contains 7 then s2
    else
      let t := s2.activate 7
      { t with rst := { t.rst with thermAt := t.monoNs, tripped := [] } }
  { s3 with rst := { s3.rst with tripped := if s3.rst.tripped.contains u then s3.rst.tripped else s3.rst.tripped ++ [u] } }

/-- Since when every sensor of each rail's units has been 5 °C below its throttle threshold (R433).
(log entry 73: DEDUCED in part) -/
def State.noteCool (s : State) : State :=
  (List.range 8).foldl (fun (a : State) r =>
    let cool := (railSensors r).all (fun p => decide (s.temp p.1 p.2 < 8 * (s.throttleC p.1 : Int) - 40))
    let x := a.rail r
    a.setRail r { x with coolSince := if cool then some (x.coolSince.getD s.monoNs) else none }) s

/-- THERMAL_SAMPLE (R432 to R434): the readings of the 26 sensors in 1/8 °C, by unit and sensor.
(log entry 73: DEDUCED in part) -/
def execThermalSample (readings : List Int) (s : State) : Host.Outcome State Fault Refusal :=
  .next (
    if !s.blkOpen 0 0x31 || readings.length != 26 then s
    else
      let s1 := (allSensors.zip readings).foldl (fun (a : State) p => a.sampleSensor p.1.1 p.1.2 p.2) s
      let warm := allSensors.any (fun p => decide (8 * (s1.warnC p.1 : Int) ≤ s1.temp p.1 p.2))
      let s2 := (s1.noteCool).eventIf warm Ev.THRM_EVT_STATUS_warn
      (allSensors.filter (fun p => decide ((s2.sensor p.1 p.2).trips = 3))).foldl (fun (a : State) p => a.trip p.1 p.2) s2)

/-- THERM_THROTTLE_STEP (R433): every 1 ms while a sensor of a rail's units is at or above its throttle threshold, therm_limit
falls by one point. (log entry 73: DEDUCED in part) -/
def execThermThrottleStep (r : Nat) (s : State) : Host.Outcome State Fault Refusal :=
  .next (
    let x := s.rail r
    let hot := (railSensors r).any (fun p => decide (8 * (s.throttleC p.1 : Int) ≤ s.temp p.1 p.2))
    if hot ∧ x.thermAt + 1000000 ≤ s.monoNs then
      (s.setRail r { x with thermLimit := x.thermLimit - 1, thermAt := s.monoNs }).event Ev.THRM_EVT_STATUS_throttle
    else s)

/-- THERM_RECOVER_STEP (R433): every 10 ms after 10 ms below the thresholds less 5 °C, therm_limit rises by one point.
(log entry 73: DEDUCED in part) -/
def execThermRecoverStep (r : Nat) (s : State) : Host.Outcome State Fault Refusal :=
  .next (
    let x := s.rail r
    match x.coolSince with
    | none => s
    | some t =>
      if x.thermLimit < 15 ∧ max t x.thermAt + 10000000 ≤ s.monoNs then
        s.setRail r { x with thermLimit := x.thermLimit + 1, thermAt := s.monoNs }
      else s)

/-! ### Input and hold-up (R429, R430) -/

/-- A sensor supply switched off (R446). (log entry 74: DEDUCED in part) -/
def State.spwrOff (s : State) (k state : Nat) : State :=
  ((s.setFld (Fld.PWR_SPWR_CTRL_en k) 0).setFld (Fld.PWR_SPWR_STATUS_state k) state).setFld (Fld.PWR_SPWR_STATUS_ma k) 0

/-- INPUT_LOSS (R430 steps 1 to 3): VIN has been below 32 V for 50 µs, or above 62 V for 10 µs.
(log entry 39: DESIGN CHOICE in part) -/
def execInputLoss (vinMv ns : Nat) (s : State) : Host.Outcome State Fault Refusal :=
  .next (
    if s.flag Fld.PWR_STATUS_input_loss = true ∨ ¬((vinMv < 32000 ∧ 50000 ≤ ns) ∨ (62000 < vinMv ∧ 10000 ≤ ns)) then s
    else
      let s1 := ((s.setFld Fld.PWR_STATUS_input_loss 1).setFld Fld.PWR_STATUS_code 0x0D42).event Ev.PWR_EVT_STATUS_input_loss
      let s2 := (s1.setFld Fld.PWR_VOLT_vin_mv vinMv)
      let s3 := if s2.fld Fld.FTL_STATUS_mode = 0 then s2 else ((s2.storeReadOnly 3).commitJournal).noteActive 2
      let s4 := ([2, 3, 4, 5, 6].foldl (fun (a : State) r => a.setRail r { a.rail r with capLimit := s3.railFloor r }) s3).cappedBit
      (List.range 4).foldl (fun (a : State) k => a.spwrOff k 0) s4)

/-- INPUT_RESTORED (R403, R429, R430): VIN has been above 34 V for 10 ms: before the bank is exhausted the input loss ends, and after
it the module starts as at power-on. (log entry 73: DEDUCED in part) -/
def execInputRestored (vinMv ns : Nat) (s : State) : Host.Outcome State Fault Refusal :=
  .next (
    if s.flag Fld.PWR_STATUS_input_loss = true ∧ 34000 < vinMv ∧ vinMv ≤ 62000 ∧ 10000000 ≤ ns then
      if s.railsOff then s.activate 1
      else (s.setFld Fld.PWR_STATUS_input_loss 0).setFld Fld.PWR_VOLT_vin_mv vinMv
    else s)

/-- HOLDUP_EXHAUSTED (R429, R430 step 4): the bank, which supplies the module or has been charged to 56 V (R431), falls below 28 V; every rail but RAIL_AON is switched off, and BROWNOUT
follows. (log entry 73: DEDUCED in part) -/
def execHoldupExhausted (bankMv : Nat) (s : State) : Host.Outcome State Fault Refusal :=
  .next (
    if (s.flag Fld.PWR_STATUS_input_loss = true ∨ s.fld Fld.PWR_STATUS_holdup = 1 ∨ s.fld Fld.PWR_STATUS_holdup = 2) ∧ bankMv < 28000 then
      let s1 := (List.range 7).foldl (fun (a : State) i => a.setRail (i + 1) { a.rail (i + 1) with off := true, step := none }) s
      (s1.setFld Fld.PWR_VOLT_bank_mv bankMv).activate 2
    else s)

/-- BROWNOUT (R403, R429): a rail lies `depth` tenths of a percent below its set voltage; more than 8 % for 1 µs trip its monitor, and
for RAIL_RX and RAIL_IO Crust is told too (R346). RAIL_AON, set to 0.750 V (R419), has its retention monitor: below 0.700 V it is POR.
(log entry 68: DEDUCED in part) -/
def execBrownout (r depth ns : Nat) (s : State) : Host.Outcome State Fault Refusal :=
  .next (
    if r = 0 then (if 750 * (1000 - depth) < 700000 then s.activate 1 else s)
    else if 8 ≤ r ∨ depth ≤ 80 ∨ ns < 1000 then s
    else (if r = 1 ∨ r = 7 then s.report 0x13 0 else s).activate 2)

/-! ### Sensor supplies (R445, R446) -/

/-- The current of a supply that is on, as measured (PWR_SPWR_k_STATUS). -/
def State.spwrMa (s : State) (k ma : Nat) : State :=
  if s.fld (Fld.PWR_SPWR_STATUS_state k) = 1 ∨ s.fld (Fld.PWR_SPWR_STATUS_state k) = 3 then
    s.setFld (Fld.PWR_SPWR_STATUS_ma k) (min ma 65535)
  else s

/-- SPWR_OVERLOAD (R445): the current of a supply has been above 2.0 A for 1 ms, or is above 5.0 A; another current is shown.
(log entry 74: DEDUCED in part) -/
def execSpwrOverload (k ma ns : Nat) (s : State) : Host.Outcome State Fault Refusal :=
  .next (
    if 4 ≤ k then s
    else if s.flag (Fld.PWR_SPWR_CTRL_en k) = false ∨ ¬((2000 < ma ∧ 1000000 ≤ ns) ∨ 5000 < ma) then s.spwrMa k ma
    else
      { s with power := { s.power with spwrTrip := Sparse.put (fun _ => none) s.power.spwrTrip k (some s.monoNs) } }.spwrOff k 2
        |>.event Ev.PWR_SPWR_EVT_trip)

/-- SPWR_OPEN (R445): an enabled supply has carried less than 10 mA for 100 ms; another current is shown.
(log entry 74: DEDUCED in part) -/
def execSpwrOpen (k ma ns : Nat) (s : State) : Host.Outcome State Fault Refusal :=
  .next (
    if 4 ≤ k then s
    else if s.fld (Fld.PWR_SPWR_STATUS_state k) ≠ 1 ∨ 10 ≤ ma ∨ ns < 100000000 then s.spwrMa k ma
    else
      ((s.setFld (Fld.PWR_SPWR_STATUS_state k) 3).setFld (Fld.PWR_SPWR_STATUS_ma k) ma).event Ev.PWR_SPWR_EVT_open)

/-- A supply that a back-feed (4) or a reversed source (5) switches off, in this reference cycle (R445, R446).
(log entry 74: DEDUCED in part) -/
def State.spwrBackfed (s : State) (k state : Nat) : State :=
  ({ s with power := { s.power with spwrBack := Sparse.put (fun _ => none) s.power.spwrBack k (some s.refCycle) } }.spwrOff k state).event
    Ev.PWR_SPWR_EVT_backfeed

/-- SPWR_BACKFEED (R445): the pin of a supply is above 13.0 V. (log entry 74: DEDUCED in part) -/
def execSpwrBackfeed (k mv : Nat) (s : State) : Host.Outcome State Fault Refusal :=
  .next (if 4 ≤ k ∨ mv ≤ 13000 then s else s.spwrBackfed k 4)

/-- SPWR_REVERSE (R445): the pin of a supply is below −0.5 V. -/
def execSpwrReverse (k : Nat) (mv : Int) (s : State) : Host.Outcome State Fault Refusal :=
  .next (if 4 ≤ k ∨ -500 ≤ mv then s else s.spwrBackfed k 5)

/-- A write of PWR_SPWR_k_CTRL (R446): en = 1 is ignored within 100 ms after a trip, and overridden in the cycle of a back-feed or a
reverse.
(log entry 74: DEDUCED in part) -/
def State.writeSpwr (s : State) (k v : Nat) : State :=
  if bit v 0 then
    if (Sparse.get (fun _ => none) s.power.spwrTrip k).elim false (fun t => decide (s.monoNs < t + 100000000)) ||
        Sparse.get (fun _ => none) s.power.spwrBack k == some s.refCycle then s
    else (s.setFld (Fld.PWR_SPWR_CTRL_en k) 1).setFld (Fld.PWR_SPWR_STATUS_state k) 1
  else
    let st := s.fld (Fld.PWR_SPWR_STATUS_state k)
    if st = 1 ∨ st = 3 then s.spwrOff k 0 else s.setFld (Fld.PWR_SPWR_CTRL_en k) 0

/-- SPWR_ENABLE_WRITE (R446). (log entry 74: DEDUCED in part) -/
def execSpwrEnableWrite (who : Requester) (k value : Nat) (s : State) : Host.Outcome State Fault Refusal :=
  .next (s.busWrite who 0 0x21 false (fun s => if k < 4 then s.writeSpwr k value else s))

/-! ### Safety wiring (R445) -/

/-- A wiring fault that raises SIO_FAULT. (log entry 74: DEDUCED in part) -/
def State.wireFault (s : State) (k cond ma : Nat) : State := (s.latchWire k cond ma).report 0x16 0

/-- An output switched off by the hardware (R445). -/
def State.outputOff (s : State) (x : Nat) : State :=
  { s with crust := { s.crust with off := if s.crust.off.contains x then s.crust.off else s.crust.off ++ [x] } }.driveOutputs

/-- STO_SHORT_GND (R445): an energised output has been at its 300 mA limit for 50 µs; below it the condition is not present. -/
def execStoShortGnd (x ma ns : Nat) (s : State) : Host.Outcome State Fault Refusal :=
  .next (
    if 8 ≤ x then s
    else if s.energised x = false ∨ ma < 300 then s.endWire x 2 ma
    else if ns < 50000 then s
    else (s.wireFault x 2 ma).outputOff x)

/-- STO_EXTERNAL_VOLTAGE (R445): a de-energised output has read above 3 V for 1 ms; otherwise the condition is not present. -/
def execStoExternalVoltage (x mv ns : Nat) (s : State) : Host.Outcome State Fault Refusal :=
  .next (
    if 8 ≤ x then s
    else if s.energised x = true ∨ mv ≤ 3000 then s.endWire x 3 (s.fld (Fld.SIO_WIRE_ma x))
    else if ns < 1000000 then s
    else s.wireFault x 3 (s.fld (Fld.SIO_WIRE_ma x)))

/-- STO_OPEN_WIRE (R445): an energised output has carried less than 2 mA for 10 ms; otherwise the condition is not present. -/
def execStoOpenWire (x ma ns : Nat) (s : State) : Host.Outcome State Fault Refusal :=
  .next (
    if 8 ≤ x then s
    else if s.energised x = false ∨ 2 ≤ ma then s.endWire x 1 ma
    else if ns < 10000000 then s
    else s.wireFault x 1 ma)

/-- STO_REVERSE_SOURCE (R445): the pin of an output is below −1 V; otherwise the condition is not present. -/
def execStoReverseSource (x : Nat) (mv : Int) (s : State) : Host.Outcome State Fault Refusal :=
  .next (
    if 8 ≤ x then s
    else if -1000 ≤ mv then s.endWire x 5 (s.fld (Fld.SIO_WIRE_ma x))
    else (s.wireFault x 5 (s.fld (Fld.SIO_WIRE_ma x))).outputOff x)

/-- ESTOP_SOURCE_SHORT (R445): the source of a channel has been at its 20 mA limit for 1 ms; the channel reads open. Below the limit
the condition is not present. (log entry 74: DEDUCED in part) -/
def execEstopSourceShort (channel ma ns : Nat) (s : State) : Host.Outcome State Fault Refusal :=
  .next (
    if 2 ≤ channel then s
    else if ma < 20 then s.endWire (8 + channel) 2 ma
    else if ns < 1000000 then s
    else (s.wireFault (8 + channel) 2 ma).setFld Fld.SIO_STO_STATUS_estop
      (setBits (s.fld Fld.SIO_STO_STATUS_estop) channel 1 (b2n (s.inRun channel false))))

/-- A write of SIO_WIRE_CLR with the conditions that are present now: every latched condition that is not live is cleared.
(log entry 74: DEDUCED in part) -/
def State.clearWires (s : State) (live : Nat) : State :=
  (List.range 10).foldl (fun (a : State) k =>
    if a.flag (Fld.SIO_WIRE_live k) && live.testBit k then a else (a.setWire k []).setFld (Fld.SIO_WIRE_cond k) 0) s

/-- SIO_WIRE_CLEAR (R445): a write of SIO_WIRE_CLR with clear = 1; `live` is the mask of the conditions that are present now.
(log entry 74: DEDUCED in part) -/
def execSioWireClear (who : Requester) (live : Nat) (s : State) : Host.Outcome State Fault Refusal :=
  .next (s.busWrite who 0 0x2E false (fun s => s.clearWires live))

/-- ETH_CABLE_DIAGNOSTIC (R445): the diagnostic of a port whose link is down finds 0 OK, 1 OPEN, 2 SHORT or 3 SHORT_SHIELD at a
distance in 0.1 m. (log entry 74: DEDUCED in part) -/
def execEthCableDiagnostic (port cond distance : Nat) (s : State) : Host.Outcome State Fault Refusal :=
  .next (
    if 12 ≤ port ∨ 4 ≤ cond ∨ s.portMode port = 0 ∨ s.flag (Fld.ETH_STATUS_link_up port) = true ∨ s.blkOpen 0 0x24 = false then s
    else
      let s1 := (s.setFld (Fld.ETH_PAIR_cond port) cond).setFld (Fld.ETH_PAIR_distance port) (if cond = 0 then 0 else distance)
      (s1.setFld (Fld.ETH_STATUS_pair_fault port) (b2n (cond != 0))).eventIf (cond != 0) Ev.ETH_PAIR_EVT_pair_fault)

/-! ### SMBus (R441) -/

/-- The highest reading of a sensor, rounded to whole °C (R29). (log entry 73: DEDUCED in part) -/
def State.hottest (s : State) : Int :=
  rshiftRne ((allSensors.map (fun p => toSigned 16 (s.fld (Fld.THRM_TEMP_temp p.1 p.2)))).foldl max (-32768)) 3

/-- The status page. (log entry 74: DEDUCED in part) -/
def State.statusPage (s : State) : Bytes :=
  leBytes 2 0x5A1E ++ leBytes 2 0x0370 ++ leBytes 1 1 ++
    leBytes 1 (if s.dieUp 0 && s.dieUp 1 then s.fld Fld.HQ_DEV_STATE_state else 0xFF) ++
    leBytes 1 (s.fld Fld.BOOT_STATUS_step) ++ leBytes 1 (s.fld Fld.BOOT_STATUS_state) ++ leBytes 2 (s.fld Fld.BOOT_STATUS_code) ++
    leBytes 2 (divRne (s.fld Fld.PWR_INPUT_mw) 1000).toNat ++ leBytes 2 (s.fld Fld.PWR_VOLT_vin_mv) ++ leBytes 1 (ofSigned 8 s.hottest) ++
    leBytes 1 (s.fld Fld.SIO_STO_STATUS_asserted)

/-- SMB_ALERT_N is driven low. -/
def State.smbAlert (s : State) : Bool :=
  s.flag Fld.THRM_EVT_STATUS_warn || s.flag Fld.PWR_STATUS_input_loss || (List.range 10).any (fun k => s.flag (Fld.SIO_WIRE_live k))

/-- SMBUS_READ_BYTE (R441): byte c of the status page; codes past it read as zero. (log entry 74: DEDUCED in part) -/
def execSmbusReadByte (c : Nat) (s : State) : Host.Outcome State Fault Refusal :=
  .next (if s.held.contains 0 then s else { s with answer := slice s.statusPage (c % 256) 1 })

/-- SMBUS_READ_WORD (R441): bytes c and c + 1 of one sample; the spec gives no result for an odd c.
(log entry 74: DEDUCED in part) -/
def execSmbusReadWord (c : Nat) (s : State) : Host.Outcome State Fault Refusal :=
  .next (
    if s.held.contains 0 then s
    else if c % 2 = 0 then { s with answer := slice s.statusPage (c % 256) 2 }
    else { s.useFree 2 with answer := s.freeBytes 2 })

/-- SMBUS_WRITE (R441): acknowledged and ignored. -/
def execSmbusWrite (_c : Nat) (_data : Bytes) (s : State) : Host.Outcome State Fault Refusal := .next s

end Sys2Proof.Machine
end

