-- ==== Sys2Proof/Machine/Boot.lean ====
section
/-! DEFINITION. Boot, firmware and keys (chapter 21): the boot NOR, firmware images, the boot log, the steps of bring-up, the
update service, the baker cores' watchdogs, attestation and the end of a debug unlock. -/

namespace Sys2Proof.Machine

/-! ### The boot NOR (R377, R382) -/

/-- What an unlisted byte of the NOR reads as: erased (log entry 5). -/
def norDefault (_ : Nat) : BitVec 8 := 0xFF

/-- `n` bytes of the NOR. -/
def BootSt.norBytes (b : BootSt) (a n : Nat) : Bytes := (List.range n).map (fun i => Sparse.get norDefault b.nor (a + i))

/-- Bytes programmed into the NOR. -/
def BootSt.norPut (b : BootSt) (a : Nat) : Bytes → BootSt
  | [] => b
  | x :: xs => { b with nor := Sparse.put norDefault b.nor a x }.norPut (a + 1) xs

/-- A firmware slot's base. -/
def slotBase (slot : Nat) : Nat := if slot = 0 then 0x100000 else 0x2000000

/-- The bytes of a firmware slot. -/
def slotBytes : Nat := 0x1F00000

/-- A firmware slot erased. (log entry 66: DEDUCED in part) -/
def BootSt.eraseSlot (b : BootSt) (slot : Nat) : BootSt :=
  { b with nor := b.nor.filter (fun p => !(slotBase slot ≤ p.1 && p.1 < slotBase slot + slotBytes)) }

/-- A directory record: sequence number, preferred slot and the states of A and B. -/
structure DirRec where
  seq : Nat
  preferred : Nat
  stateA : Nat
  stateB : Nat
deriving DecidableEq, Repr

/-- The state of a slot. -/
def DirRec.state (d : DirRec) (slot : Nat) : Nat := if slot = 0 then d.stateA else d.stateB

/-- The record with a slot at a state. -/
def DirRec.withState (d : DirRec) (slot st : Nat) : DirRec := if slot = 0 then { d with stateA := st } else { d with stateB := st }

/-- A copy of the directory, when it is valid (R382). (log entry 66: DEDUCED in part) -/
def parseDir (b : Bytes) : Option DirRec :=
  if slice b 0 4 = [0x5A, 0x44, 0x49, 0x52] ∧ fieldAt b 8 1 < 2 ∧ fieldAt b 9 1 < 4 ∧ fieldAt b 10 1 < 4 ∧
      allZero (slice b 11 49) = true ∧ fieldAt b 0x3C 4 = crc32c (slice b 0 0x3C) then
    some ⟨fieldAt b 4 4, fieldAt b 8 1, fieldAt b 9 1, fieldAt b 10 1⟩
  else none

/-- The directory in use and the copy it stands in; with no valid copy both slots count as UNCONFIRMED and A is preferred.
(log entry 66: DEDUCED in part) -/
def BootSt.dir (b : BootSt) : DirRec × Nat :=
  match parseDir (b.norBytes 0 64), parseDir (b.norBytes 0x8000 64) with
  | some x, some y => if y.seq > x.seq then (y, 1) else (x, 0)
  | some x, none => (x, 0)
  | none, some y => (y, 1)
  | none, none => (⟨0, 0, 1, 1⟩, 1)

/-- The bytes of a directory record. -/
def DirRec.bytes (d : DirRec) : Bytes :=
  let b := ([0x5A, 0x44, 0x49, 0x52] : Bytes) ++ leBytes 4 d.seq ++ leBytes 1 d.preferred ++ leBytes 1 d.stateA ++
    leBytes 1 d.stateB ++ List.replicate 49 0
  b ++ leBytes 4 (crc32c b)

/-- BOOT_DIR as the directory in use says. -/
def State.showDir (s : State) : State :=
  let d := s.boot.dir.1
  (((s.setFld Fld.BOOT_DIR_preferred d.preferred).setFld Fld.BOOT_DIR_state_a d.stateA).setFld Fld.BOOT_DIR_state_b d.stateB).setFld
    Fld.BOOT_DIR_seq d.seq

/-- A new directory record, with the next sequence number, in the copy that is not in use (R382).
(log entry 66: DEDUCED in part) -/
def State.writeDir (s : State) (f : DirRec → DirRec) : State :=
  let d := s.boot.dir
  let n := f d.1
  { s with boot := s.boot.norPut (if d.2 = 0 then 0x8000 else 0) { n with seq := (d.1.seq + 1) % 2 ^ 32 }.bytes }.showDir

/-! ### Firmware images (R379 to R381) -/

/-- The components of an image: target, offset and length in the body. -/
def fwComponents (h : Bytes) : List (Nat × Nat × Nat) :=
  ((List.range 8).map (fun i => (fieldAt h (0x40 + 16 * i) 1, fieldAt h (0x44 + 16 * i) 4, fieldAt h (0x48 + 16 * i) 4))).filter
    (fun c => c.1 != 255)

/-- True where no two ranges of a list overlap. -/
def disjoint : List (Nat × Nat) → Bool
  | [] => true
  | r :: rs => rs.all (fun q => decide (r.1 + r.2 ≤ q.1) || decide (q.1 + q.2 ≤ r.1)) && disjoint rs

/-- True where no number stands twice in a list. -/
def distinct : List Nat → Bool
  | [] => true
  | x :: xs => !xs.contains x && distinct xs

/-- Item 1 of R381: the header and the trailer are well formed. (log entry 66: DEDUCED in part) -/
def fwFormOk (h t : Bytes) : Bool :=
  let len := fieldAt h 0x10 8
  let cs := fwComponents h
  slice h 0 4 == [0x5A, 0x46, 0x57, 0x49] && fieldAt h 4 1 == 1 && decide (1024 ≤ len) && decide (len ≤ slotBytes) &&
    (len - 1024) % 64 == 0 && fieldAt h 5 1 != 0 && allZero (slice h 6 2) && fieldAt h 0xB 1 == 0 && decide (fieldAt h 0xC 4 ≤ 64) &&
    allZero (slice h 0x18 40) && allZero (slice h 0x103 253) && fieldAt h 0x100 2 % 2 == 0 &&
    (List.range 8).all (fun i => allZero (slice h (0x41 + 16 * i) 3) && allZero (slice h (0x4C + 16 * i) 4)) &&
    cs.all (fun c => decide (c.1 ≤ 5) && c.2.1 % 64 == 0 && decide (c.2.1 + c.2.2 ≤ len - 1024)) && distinct (cs.map (·.1)) &&
    [0, 1, 5].all (fun k => (cs.map (·.1)).contains k) && disjoint (cs.map (·.2)) &&
    slice t 0 4 == [0x5A, 0x46, 0x57, 0x53] && allZero (slice t 4 12) && allZero (slice t 0x95 3) && allZero (slice t 0x11C 228)

/-- A public key in SEC 1 uncompressed form. -/
def keyPoint (k : Bytes) : Nat × Nat := (beNat (slice k 1 66), beNat (slice k 67 66))

/-- A signature by a SEC 1 key over a message (R61). -/
def verifyKey (k m sig : Bytes) : Bool := fieldAt k 0 1 == 4 && ecdsaVerify (keyPoint k) m sig

/-- The checks of R381 over an image: the code of the first that fails, 0 when all hold.
(log entry 66: DEDUCED in part) -/
def fwCheck (rollback : Nat) (img : Bytes) : Nat :=
  let h := slice img 0 512
  let len := fieldAt h 0x10 8
  let t := slice img (len - 512) 512
  let body := slice img 512 (len - 1024)
  if !fwFormOk h t then 0x0C03
  else if sha512 (slice t 0x10 133) ≠ (List.range 64).map Config.vendorKeyHash then 0x0C02
  else if !verifyKey (slice t 0x10 133) (h ++ slice t 0 0x98) (slice t 0x98 132) then 0x0C01
  else if sha512 body ≠ slice h 0xC0 64 then 0x0C01
  else if 1 < fieldAt h 5 1 then 0x0C05
  else if fieldAt h 0xC 4 < rollback then 0x0C04
  else 0

/-- The image of a slot: as many bytes as its header says, at most a slot. -/
def BootSt.image (b : BootSt) (slot : Nat) : Bytes :=
  b.norBytes (slotBase slot) (min (max (fieldAt (b.norBytes (slotBase slot) 512) 0x10 8) 512) slotBytes)

/-- What an image tells of itself. (log entry 26: DESIGN CHOICE in part) -/
def firmwareOf (slot : Nat) (img : Bytes) : Firmware :=
  ⟨slot, sha512 (slice img 0 (fieldAt img 0x10 8 - 512)), fieldAt img 8 4, fieldAt img 0x100 3, fieldAt img 0xC 4⟩

/-! ### The boot log (R385) -/

/-- `n` bytes of retained SRAM. -/
def State.ramBytes (s : State) (off n : Nat) : Bytes :=
  (List.range n).map (fun i => BitVec.ofNat 8 ((s.reg (Reg.BKP_RAM ((off + i) / 4))).toNat / 256 ^ ((off + i) % 4)))

/-- Bytes written into retained SRAM. -/
def State.ramPut (s : State) (off : Nat) : Bytes → State
  | [] => s
  | x :: xs =>
    let a := Reg.BKP_RAM (off / 4)
    (s.setReg a (BitVec.ofNat 32 (setBits (s.reg a).toNat (8 * (off % 4)) 8 x.toNat))).ramPut (off + 1) xs

/-- The failure count of a step. -/
def State.failCount (s : State) (step : Nat) : Nat := fieldAt (s.ramBytes (0x08 + step - 1) 1) 0 1

/-- The state with the failure count of a step at a value. -/
def State.setFailCount (s : State) (step n : Nat) : State := s.ramPut (0x08 + step - 1) (leBytes 1 (min n 255))

/-- The start count. -/
def State.startCount (s : State) : Nat := fieldAt (s.ramBytes 0 4) 0 4

/-- Milliseconds since this start's release of RX_BOOT. -/
def State.startMs (s : State) : Nat := min ((s.monoNs - s.boot.relAt) / 1000000) 65535

/-- A record written into the log: kinds 1 ENTER, 2 EXIT_OK, 3 EXIT_FAIL, 4 SKIPPED, 5 ALTERNATE, 6 RESTART.
(log entry 64: DEDUCED in part) -/
def State.logRecord (s : State) (step kind code : Nat) : State :=
  let w := fieldAt (s.ramBytes 4 4) 0 4
  let slot := (s.boot.fw.elim s.boot.dir.1.preferred (·.slot))
  let r := leBytes 1 step ++ leBytes 1 kind ++ leBytes 1 (s.failCount step) ++
    leBytes 1 (slot % 2 + 2 * (s.startCount % 128)) ++ leBytes 2 code ++ leBytes 2 s.startMs
  (s.ramPut (0x40 + w % 248 * 8) r).ramPut 4 (leBytes 4 (w + 1))

/-- The last record of the log: step, kind and slot; none for an empty log. -/
def State.lastRecord (s : State) : Option (Nat × Nat × Nat) :=
  let w := fieldAt (s.ramBytes 4 4) 0 4
  if w = 0 then none
  else
    let r := s.ramBytes (0x40 + (w + 247) % 248 * 8) 8
    some (fieldAt r 0 1, fieldAt r 1 1, fieldAt r 3 1 % 2)

/-- The code of the latest EXIT_FAIL record among the last `n` of the log. -/
def State.lastFailure (s : State) : Nat → Nat
  | 0 => 0
  | n + 1 =>
    let w := fieldAt (s.ramBytes 4 4) 0 4
    let k := 248 - (n + 1)
    if w ≤ k then 0
    else
      let r := s.ramBytes (0x40 + (w - 1 - k) % 248 * 8) 8
      if fieldAt r 1 1 = 3 then fieldAt r 4 2 else s.lastFailure n

/-! ### Steps and policies (R384 to R388) -/

/-- The policies of R387. -/
inductive BootPolicy | halt | retry | skip
deriving DecidableEq, Repr

/-- The policy of a step (R384). (log entry 64: DEDUCED in part) -/
def stepPolicy (n : Nat) : BootPolicy :=
  if n = 0x0B ∨ n = 0x0C ∨ n = 0x0D then .skip
  else if n = 2 ∨ n = 3 ∨ n = 5 ∨ n = 8 ∨ n = 9 then .retry
  else .halt

/-- A halted start (R388): HALTED at or after PCIE_UP, else recovery, in which the ROM trains the Reflex–Cache link and the
endpoint with fixed settings, unless the halt is at CACHE_LINK. The width, rate and mode of those settings are free.
(log entry 64: DEDUCED in part; log entry 65: DEDUCED in part) -/
def State.haltAt (s : State) (n : Nat) : State :=
  let s1 := (s.setFld Fld.BOOT_STATUS_step n).setFld Fld.BOOT_STATUS_state (if 0x0A ≤ n then 2 else 3)
  let free := s1.freeBytes 3
  let s2 := if n < 0x0A ∧ n ≠ 6 then
      (({ s1 with linkMods := s1.linkMods.set 0 1 }.useFree 3).linkUp (if bit (fieldAt free 0 1) 0 then 4 else 8)
        (1 + fieldAt free 1 1 % 6) (bit (fieldAt free 2 1) 0))
    else s1
  s2.setFld Fld.HQ_DEV_STATE_state 5

/-- The step is not run (R387). (log entry 64: DEDUCED in part) -/
def State.skipStep (s : State) (n : Nat) : State :=
  let s1 := ((s.setFld Fld.BOOT_STATUS_step n).logRecord n 4 0).event Ev.BOOT_EVT_STATUS_alternative
  { s1 with boot := { s1.boot with next := n + 1 } }

/-- The step is entered: ENTER, and ALTERNATE where it takes its alternative path (R385, R387).
(log entry 64: DEDUCED in part) -/
def State.enterStep (s : State) (n : Nat) (alt : Bool) : State :=
  let s1 := (s.setFld Fld.BOOT_STATUS_step n).logRecord n 1 0
  let s2 := if alt then (s1.logRecord n 5 0).event Ev.BOOT_EVT_STATUS_alternative else s1
  { s2 with boot := { s2.boot with entered := some (n, alt, s2.monoNs) } }

/-- The action that the failure count of a step selects (R387). -/
def State.beginStep (s : State) (n : Nat) : State :=
  let f := s.failCount n
  match stepPolicy n with
  | .halt => if f < 2 then s.enterStep n false else s.haltAt n
  | .skip => if f = 0 then s.enterStep n false else s.skipStep n
  | .retry => if f = 0 then s.enterStep n false else if f = 1 then s.enterStep n true else s.haltAt n

/-- The failed step: EXIT_FAIL, its count unless an UNCONFIRMED image is charged, and the reset that firmware requests (R383,
R386). (log entry 64: DEDUCED in part) -/
def State.exitFail (s : State) (n code : Nat) : State :=
  let charged := s.boot.fw.elim false (fun f => s.boot.dir.1.state f.slot == 1)
  let s1 := if charged then s else s.setFailCount n (s.failCount n + 1)
  let s2 := (s1.setFld Fld.BOOT_STATUS_code code).logRecord n 3 code
  { s2 with boot := { s2.boot with entered := none } }.activate 8

/-- The step completed: EXIT_OK with a code, and its count cleared on the normal path (R386).
(log entry 64: DEDUCED in part) -/
def State.exitOk (s : State) (n : Nat) (alt : Bool) (code : Nat) : State :=
  let s1 := (if alt then s else s.setFailCount n 0).logRecord n 2 code
  { s1 with boot := { s1.boot with entered := none, next := n + 1 } }

/-- What the ROM does before step ROM_START (R386, R411): retained memory checked, the start counted, and the step that the
last start left judged: a failure charged to the step or to an UNCONFIRMED image (R383), or a RESTART record.
(log entry 64: DEDUCED in part) -/
def State.romStart (s : State) (corrected uncorrectable : Bool) : State :=
  let lost := uncorrectable || s.fld Fld.BKP_SIG_sig != 0x5A1E0001
  let s1 := (s.eventIf uncorrectable Ev.BKP_EVT_STATUS_ecc_lost).eventIf corrected Ev.BKP_EVT_STATUS_ecc_corr
  let s2 := if lost then { s1 with regs := s1.regs.filter (fun p => !(0x220100 ≤ p.1 && p.1 < 0x223000)) } else s1
  let s3 := (s2.setFld Fld.BKP_SIG_sig 0x5A1E0001).showDir
  let s4 := s3.ramPut 0 (leBytes 4 (s3.startCount + 1))
  let src := s4.fld Fld.RST_CAUSE_first
  let s5 := s4.setFld Fld.BOOT_STATUS_code (s4.lastFailure 248)
  let fallback := fun (t : State) (slot : Nat) =>
    (t.writeDir (fun d => { d.withState slot 3 with preferred := 1 - slot })).event Ev.BOOT_EVT_STATUS_fw_fallback
  match s5.lastRecord with
  | none => s5
  | some (n, kind, slot) =>
    let unconfirmed := decide (3 ≤ n) && s5.boot.dir.1.state slot == 1
    if kind = 1 ∨ kind = 5 then
      if src = 2 ∨ src = 4 ∨ src = 5 ∨ src = 7 then
        if unconfirmed then fallback s5 slot else s5.setFailCount n (s5.failCount n + 1)
      else if src = 3 ∨ src = 6 ∨ src = 8 then s5.logRecord n 6 (0x0D00 + src)
      else s5
    else if kind = 3 ∧ unconfirmed = true then fallback s5 slot
    else s5

/-- The slots in the order in which FW_VERIFY tries them: EMPTY and REJECTED ones are skipped.
(log entry 64: DEDUCED in part) -/
def State.slotOrder (s : State) (alt : Bool) : List Nat :=
  let d := s.boot.dir.1
  let p := if alt then 1 - d.preferred else d.preferred
  [p, 1 - p].filter (fun k => d.state k == 1 || d.state k == 2)

/-- The slots that FW_VERIFY tries, with what R381 says of each: in order up to the first that passes.
(log entry 64: DEDUCED in part) -/
def State.slotsTried (s : State) (alt : Bool) : List (Nat × Nat) :=
  let codes := (s.slotOrder alt).map (fun k => (k, fwCheck s.boot.rollback (s.boot.image k)))
  codes.take ((codes.takeWhile (fun p => p.2 != 0)).length + 1)

/-- The bound of a step in ms (R384): FW_VERIFY's is 100 for each slot tried, HBM_TRAIN's alternative takes 400.
(log entry 64: DEDUCED in part) -/
def State.stepBound (s : State) (n : Nat) (alt : Bool) : Nat :=
  if n = 2 then 100 * max 1 (s.slotsTried alt).length
  else if n = 8 ∧ alt = true then 400
  else [0, 1, 100, 50, 20, 500, 20, 30, 100, 200, 10, 40, 40, 40, 250, 1].getD n 0

/-- FW_VERIFY (R382): the first slot in order that passes R381 starts; where a tried slot has failed, or for a fallback of this start,
ALTERNATE is logged. (log entry 64: DEDUCED in part) -/
def State.fwVerify (s : State) (alt : Bool) : State :=
  let d := s.boot.dir.1
  let codes := s.slotsTried alt
  let s1 := if codes.any (fun p => p.2 != 0) ∨ s.flag Fld.BOOT_EVT_STATUS_fw_fallback = true then s.logRecord 2 5 0 else s
  match codes.find? (fun p => p.2 == 0) with
  | none => s1.exitFail 2 (((codes.find? (fun p => p.1 == d.preferred)).or codes.head?).elim 0x0C03 (·.2))
  | some p =>
    let s2 := { s1 with boot := { s1.boot with fw := some (firmwareOf p.1 (s1.boot.image p.1)) } }
    let s3 := (s2.setFld Fld.BOOT_STATUS_slot p.1).setFld Fld.BOOT_STATUS_alt_slot (b2n (p.1 != d.preferred))
    (s3.setFld (Fld.BKR_STATUS_running 0) 1).exitOk 2 alt 0

/-- The NOR record of a key slot agrees with its fused hash (R395). -/
def BootSt.keyMatches (b : BootSt) (i : Nat) : Bool := sha512 (b.norBytes (0x10000 + 0x100 * i) 133) == (b.key i).hash

/-- KEY_SLOT_STATUS after REFLEX_UP (R395): an ENROLLED slot whose record does not agree reads MISMATCH.
(log entry 65: DEDUCED in part) -/
def State.checkKeys (s : State) : State :=
  let v := fun (i : Nat) => if (s.boot.key i).state = 1 ∧ s.boot.keyMatches i = false then 3 else (s.boot.key i).state
  let word := fun (a : Nat) => ((List.range 4).map (fun i => 4 ^ i * v (4 * a + i))).sum
  (s.setFld Fld.KEY_SLOT_STATUS_sa (word 0)).setFld Fld.KEY_SLOT_STATUS_oa (word 1)

/-- HOLDUP (R431, R444): the times t2 (56 V to 50 V at 2.0 A) and t1 (50 V to 56 V at 5.0 A) in ns, unless the measurement did
not end: a bound was exceeded, or the bank is reversed and was not charged. PWR_HOLDUP holds what was measured, at most what its
fields hold. (log entry 65: DEDUCED in part; log entry 73: DEDUCED in part) -/
def State.holdupStep (s : State) (t1 t2 : Nat) (unmeasured : Bool) : State :=
  let c1 := 5 * t1
  let c2 := 2 * t2
  let c := min c1 c2
  let inRange := fun (x : Nat) => decide (60000000 ≤ x) && decide (x ≤ 180000000)
  let s1 := if unmeasured then s else
    (s.setFld Fld.PWR_HOLDUP_c_uf (min 65535 (divRne c 6000).toNat)).setFld Fld.PWR_HOLDUP_e_mj
      (min 65535 (divRne (c * 1176) 6000000).toNat)
  if unmeasured || !inRange c1 || !inRange c2 || decide (c < 5 * (max c1 c2 - c)) then
    (((s1.setFld Fld.PWR_STATUS_holdup 3).setFld Fld.PWR_STATUS_code 0x0D41).event Ev.PWR_EVT_STATUS_holdup_fault).exitFail 5 0x0D41
  else if c * 1176 < 18000 * 6000000 then
    (((s1.setFld Fld.PWR_STATUS_holdup 2).setFld Fld.PWR_STATUS_code 0x0D40).event Ev.PWR_EVT_STATUS_holdup_low).exitOk 5 false 0x0D40
  else (s1.setFld Fld.PWR_STATUS_holdup 1).exitOk 5 false 0

/-- STORE_MOUNT (R198): the mode in which the store mounts. (log entry 65: DEDUCED in part) -/
def State.mountStore (s : State) (readable : Bool) : State :=
  if !readable then (s.setFld Fld.FTL_STATUS_mode 0).setFld Fld.FTL_STATUS_ro_reason 0
  else
    let reason := if s.flag Fld.PWR_STATUS_input_loss then 3 else if s.fld Fld.PWR_STATUS_holdup ≠ 1 then 1
      else if s.spareBlocks * 50 < Config.flashBlocks then 2 else 0
    (s.setFld Fld.FTL_STATUS_mode (if reason = 0 then 2 else 1)).setFld Fld.FTL_STATUS_ro_reason reason

/-- The die that a bring-up step puts into service. -/
def stepDie (n : Nat) : Nat := n - 9

/-- A spoke die's step (R384, R395): its link trains `mods` modules, and its baker core reports ready.
(log entry 65: DEDUCED in part) -/
def State.dieUpCode (s : State) (die mods : Nat) (ready : Bool) : Nat :=
  let h := s.boot.norBytes (slotBase (s.boot.fw.elim 0 (·.slot))) 512
  if mods = 0 then 0x0C10
  else if !ready || !((fwComponents h).map (·.1)).contains die then 0x0C12
  else 0

/-- A spoke die in service. (log entry 65: DEDUCED in part) -/
def State.dieInService (s : State) (die mods : Nat) : State :=
  { s with
    linkMods := s.linkMods.set die (min mods ([1, 0, 10, 4, 4].getD die 0))
    diesPresent := if s.diesPresent.testBit die then s.diesPresent else s.diesPresent + 2 ^ die }.setFld (Fld.BKR_STATUS_running die) 1

/-- DONE (R383, R384): the running slot is confirmed, the rollback count raised, and the host may shake hands.
(log entry 65: DEDUCED in part) -/
def State.bootDone (s : State) : State :=
  let s1 := match s.boot.fw with
    | none => s
    | some f =>
      let t := if s.boot.dir.1.state f.slot = 2 then s else s.writeDir (fun d => d.withState f.slot 2)
      ({ t with boot := { t.boot with rollback := max t.boot.rollback f.counter } } : State).setFld Fld.KEY_FUSES_rollback
        (max t.boot.rollback f.counter)
  ((s1.exitOk 0x0F false 0).setFld Fld.BOOT_STATUS_state 1).setFld Fld.HQ_DEV_STATE_state 1

/-- The failure code of a step whose own check finds a failure (R402); the spec gives none for the others, which end with
one of the codes with which a step fails (log entry 6).
(log entry 64: DEDUCED in part) -/
def State.stepFailCode (s : State) (n : Nat) : Nat :=
  if n = 1 ∨ n = 4 then 0x0C13 else if n = 3 ∨ n = 8 then 0x0C11 else if n = 6 then 0x0C10 else if n = 7 then 0x0C12
  else s.freeCode [0x0C10, 0x0C11, 0x0C12, 0x0C13, 0x0C14]

/-- The results of the proof run at bring-up, four numbers each: die, checker, detected, reported (R367). -/
def checksOf : List Nat → List ProofCheck
  | a :: b :: c :: d :: xs => ⟨a, b, c != 0, d != 0⟩ :: checksOf xs
  | _ => []

/-- The self-tests' intervals start with Crust (R371). (log entry 65: DEDUCED in part) -/
def State.startPasses (s : State) : State := (List.range 36).foldl (fun (a : State) k => a.notePass k) s

/-- The action of a step that has been entered, with what its hardware finds: `ok` is false where the step's own check fails
(for a spoke die: its core not ready; FW_VERIFY checks the images itself), and `data` holds its measurements: HOLDUP t1, t2, 1 where a
bound was exceeded and the magnitude in mV of a bank that is below 0 V at the start of charging;
STORE_MOUNT 0 where the map or the journal is unreadable; PCIE_UP the link's width and rate and 1 in flit mode; a spoke die its trained modules;
PROOF_RUN pairs of a die and its first failing checker. (log entry 64: DEDUCED in part) -/
def State.runStep (s : State) (n : Nat) (alt : Bool) (ok : Bool) (data : List Nat) : State :=
  let d := fun (i : Nat) => data.getD i 0
  if n = 0x0B ∨ n = 0x0C ∨ n = 0x0D then
    let c := s.dieUpCode (stepDie n) (d 0) ok
    if c = 0 then (s.dieInService (stepDie n) (d 0)).exitOk n alt 0 else s.exitFail n c
  else if n = 2 then s.fwVerify alt
  else if n = 5 then
    (if alt then (s.setFld Fld.PWR_STATUS_holdup 0).exitOk 5 true 0
    else s.holdupStep (d 0) (d 1) (!ok || d 2 != 0 || decide (1000 < d 3)))
  else if !ok then
    let s1 := if n ≤ 8 then s else s.useFree 1
    s1.exitFail n (s.stepFailCode n)
  else if n = 3 then s.checkKeys.exitOk 3 alt 0
  else if n = 4 then
    ((s.setFld Fld.CRUST_STATUS_run 1).startPasses).exitOk 4 alt 0
  else if n = 6 then { s with linkMods := s.linkMods.set 0 1 }.exitOk 6 alt 0
  else if n = 7 then (s.setFld (Fld.BKR_STATUS_running 1) 1).exitOk 7 alt 0
  else if n = 9 then (s.mountStore (d 0 != 0 && !alt)).exitOk 9 alt 0
  else if n = 0x0A then
    ((s.linkUp (d 0) (d 1) (d 2 != 0)).showFirmware).exitOk 0x0A alt 0
  else if n = 0x0E then (s.proofResults (checksOf data)).exitOk 0x0E alt 0
  else if n = 0x0F then s.bootDone
  else s.exitOk n alt 0

/-- True where the domains that a step runs on are released (R384): the Reflex die's baker core starts at the boot-ROM entry when
RX_MGT is released (R409). (log entry 64: DEDUCED in part) -/
def State.stepDomains (s : State) (n : Nat) : Bool := if n ≤ 2 then !s.held.contains 3 else s.held.isEmpty

/-- BRING_UP (R384): the first command of a step chooses its action, and the second carries it out. At ROM_START `data` says
whether retained memory held a corrected or an uncorrectable error.
(log entry 64: DEDUCED in part; log entry 78: DESIGN CHOICE in part) -/
def execBringUp (ok : Bool) (data : List Nat) (s : State) : Host.Outcome State Fault Refusal :=
  .next (
    if s.fld Fld.BOOT_STATUS_state ≠ 0 ∨ s.stepDomains s.boot.next = false ∨ 0x0F < s.boot.next then s
    else
      match s.boot.entered with
      | some (n, alt, t) => if s.stepBound n alt * 1000000 < s.monoNs - t then s else s.runStep n alt ok data
      | none =>
        if s.boot.next = 1 then (s.romStart (data.getD 0 0 != 0) (data.getD 1 0 != 0)).beginStep 1 else s.beginStep s.boot.next)

/-- STEP_TIMEOUT (R384): a step that exceeds its bound fails with 0x0C14. (log entry 64: DEDUCED in part) -/
def execStepTimeout (s : State) : Host.Outcome State Fault Refusal :=
  .next (match s.boot.entered with
    | none => s
    | some (n, alt, t) => if s.stepBound n alt * 1000000 < s.monoNs - t then s.exitFail n 0x0C14 else s)

/-- DIE_BRINGUP_REPEAT (R408): after a DIES reset firmware repeats the die's step; a die whose step fails stays out.
(log entry 65: DEDUCED in part) -/
def execDieBringupRepeat (die mods : Nat) (ready : Bool) (s : State) : Host.Outcome State Fault Refusal :=
  .next (
    if !s.rst.repeatDies.contains die || !s.held.isEmpty then s
    else
      let n := die + 9
      let s1 := { s with rst := { s.rst with repeatDies := s.rst.repeatDies.filter (fun d => d != die) } }
      if s1.failCount n ≠ 0 then (s1.logRecord n 4 0).event Ev.BOOT_EVT_STATUS_alternative
      else
        let c := s1.dieUpCode die mods ready
        let s2 := s1.logRecord n 1 0
        if c = 0 then ((s2.dieInService die mods).setFailCount n 0).logRecord n 2 0
        else ((s2.setFailCount n (s2.failCount n + 1)).setFld Fld.BOOT_STATUS_code c).logRecord n 3 c)

/-- A write of BOOT_CTRL with log_clear = 1 (R386): accepted in DONE, HALTED and RECOVERY. -/
def State.clearLog (s : State) : State :=
  if s.fld Fld.BOOT_STATUS_state = 0 then s.event Ev.BOOT_EVT_STATUS_cmd_reject else s.ramPut 8 (List.replicate 15 0)

/-- BOOT_LOG_CLEAR (R386). -/
def execBootLogClear (who : Requester) (s : State) : Host.Outcome State Fault Refusal :=
  .next (s.busWrite who 0 0x2F false (fun s => s.clearLog))

/-! ### The update service (R392, R393) -/

/-- The staged image as the service reads it: through the window, all ones where an access faults, with win_fault.
(log entry 66: DEDUCED in part) -/
def State.stagedImage (s : State) (a : Nat) : Bytes × Bool :=
  match s.bar2Bytes a 512 with
  | none => (List.replicate 512 255, true)
  | some h =>
    let n := fieldAt h 0x10 8
    if n < 512 ∨ slotBytes < n then (h, false)
    else match s.bar2Bytes a n with
      | none => (List.replicate 512 255, true)
      | some b => (b, false)

/-- A failed update. (log entry 66: DEDUCED in part) -/
def State.updateFails (s : State) (code : Nat) : State :=
  (((s.setFld Fld.BOOT_UPD_STATUS_busy 0).setFld Fld.BOOT_UPD_STATUS_code code)).event Ev.BOOT_EVT_STATUS_upd_fail

/-- A start of the update service (R392 steps 1 to 3): the image is read and checked, and the slot is erased.
(log entry 66: DEDUCED in part) -/
def State.startUpdate (s : State) (slot : Nat) : State :=
  if s.fld Fld.HQ_DEV_STATE_state = 0 then s.event Ev.BOOT_EVT_STATUS_cmd_reject
  else if s.boot.update.isSome then s
  else if s.boot.fw.elim false (fun f => f.slot == slot) then s.updateFails 0x0C06
  else
    let x := s.stagedImage (s.reg64 Reg.BOOT_UPD_ADDR / 64 * 64)
    let s1 := if x.2 then s.hqEvent Ev.HQ_EVT_STATUS_win_fault else s
    let c := fwCheck s1.boot.rollback x.1
    if c ≠ 0 then s1.updateFails c
    else
      let b := s1.boot.eraseSlot slot
      ({ s1 with boot := { b with update := some (slot, x.1) } }.setFld Fld.BOOT_UPD_STATUS_busy 1).setFld Fld.BOOT_UPD_STATUS_progress 0

/-- A write of BOOT_UPD_CTRL. (log entry 66: DEDUCED in part) -/
def State.writeUpdCtrl (s : State) (v : Nat) : State :=
  let s1 := s.setFld Fld.BOOT_UPD_CTRL_slot (bits v 1 1)
  if bit v 0 then s1.startUpdate (bits v 1 1) else s1

/-- BOOT_UPDATE (R392): a write of BOOT_UPD_CTRL with start = 1. -/
def execBootUpdate (who : Requester) (value : Nat) (s : State) : Host.Outcome State Fault Refusal :=
  .next (s.busWrite who 0 0x2F true (fun s => s.writeUpdCtrl (setBits value 0 1 1)))

/-- BOOT_UPDATE_COMPLETE (R392 steps 3 to 5, R393): the slot has been programmed and read back; with a readback that agrees the
directory prefers it, UNCONFIRMED, else the update fails with 0x0C07 and the directory is unchanged.
(log entry 66: DEDUCED in part) -/
def execBootUpdateComplete (agrees : Bool) (s : State) : Host.Outcome State Fault Refusal :=
  .next (match s.boot.update with
    | none => s
    | some (slot, img) =>
      let s1 := { s with boot := { s.boot with update := none } }
      if !agrees then s1.updateFails 0x0C07
      else
        let s2 := ({ s1 with boot := s1.boot.norPut (slotBase slot) img } : State).writeDir (fun d =>
          { d.withState slot 1 with preferred := slot })
        (((s2.setFld Fld.BOOT_UPD_STATUS_busy 0).setFld Fld.BOOT_UPD_STATUS_progress 100).setFld Fld.BOOT_UPD_STATUS_code 0).event
          Ev.BOOT_EVT_STATUS_upd_done)

/-! ### Baker cores (R389, R390) -/

/-- The expiries of a core's watchdog in the last 10 s. (log entry 67: DEDUCED in part) -/
def State.recentExpiries (s : State) (die : Nat) : List Nat :=
  (Sparse.get (fun _ => []) s.boot.wdog die).filter (fun t => decide (s.monoNs < t + 10000000000))

/-- The start of a core's restart. (log entry 67: DEDUCED in part) -/
def State.restartOf (s : State) (die : Nat) : Option Nat := Sparse.get (fun _ => none) s.boot.restart die

/-- BAKER_WATCHDOG_EXPIRY (R389, R390): the core is held and reloaded; a fourth expiry within 10 s raises WDOG for the die.
(log entry 67: DEDUCED in part) -/
def execBakerWatchdogExpiry (die : Nat) (s : State) : Host.Outcome State Fault Refusal :=
  .next (
    if 5 ≤ die ∨ s.flag (Fld.BKR_STATUS_running die) = false ∨ (s.restartOf die).isSome = true then s
    else
      let ts := s.recentExpiries die
      let s1 := { s with boot := { s.boot with wdog := Sparse.put (fun _ => []) s.boot.wdog die (ts ++ [s.monoNs]) } }.event
        (Ev.BKR_EVT_STATUS_wdog die)
      if 3 ≤ ts.length then
        ((s1.event (Ev.BKR_EVT_STATUS_escalated die)).activate 4).setFld Fld.RST_CAUSE_wdog_die die
      else
        let s2 := { s1 with boot := { s1.boot with restart := Sparse.put (fun _ => none) s1.boot.restart die (some s1.monoNs) } }
        let s3 := (s2.setFld (Fld.BKR_STATUS_running die) 0).setFld (Fld.BKR_STATUS_restarting die) 1
        let s4 := s3.setFld Fld.HQ_DEV_STATE_bkr_restarting (setBits (s3.fld Fld.HQ_DEV_STATE_bkr_restarting) die 1 1)
        (if s4.fld Fld.HQ_DEV_STATE_state = 2 then s4.setFld Fld.HQ_DEV_STATE_state 3 else s4).hqEvent Ev.HQ_EVT_STATUS_bkr_restart)

/-- BAKER_RESTART_COMPLETE (R389, R92): the core resumes and re-attaches.
(log entry 67: DEDUCED in part; log entry 78: DESIGN CHOICE in part) -/
def execBakerRestartComplete (die : Nat) (s : State) : Host.Outcome State Fault Refusal :=
  .next (
    if (s.restartOf die).isNone then s
    else
      let s1 := { s with boot := { s.boot with restart := Sparse.erase die s.boot.restart } }
      let s2 := ((s1.setFld (Fld.BKR_STATUS_running die) 1).setFld (Fld.BKR_STATUS_restarting die) 0).setFld
        (Fld.BKR_STATUS_restarts die) ((s1.fld (Fld.BKR_STATUS_restarts die) + 1) % 65536)
      s2.coreBack die)

/-! ### Attestation and debug (R398 to R401) -/

/-- The first 288 bytes of a quote (R400). (log entry 67: DEDUCED in part) -/
def State.quoteBody (s : State) : Bytes :=
  let flags := b2n s.boot.unlocked + 2 * b2n (s.presentDies.any (fun d => s.flag (Fld.INJ_PROOF_STATUS_proof_fail d))) +
    4 * b2n (s.fld Fld.FTL_STATUS_mode != 2) + 8 * b2n (s.boot.fw.elim false (fun f => s.boot.dir.1.state f.slot == 1))
  let regs := fun (a n : Nat) => (List.range n).flatMap (fun i => leBytes 4 (s.reg (a + 4 * i)).toNat)
  ([0x5A, 0x51, 0x54, 0x45] : Bytes) ++ leBytes 1 1 ++ leBytes 1 flags ++ leBytes 1 s.diesPresent ++ leBytes 1 1 ++
    leBytes 4 (s.boot.fw.elim 0 (·.version)) ++ leBytes 4 0 ++ leBytes 8 s.now ++ leBytes 8 s.boot.quotes ++
    regs (Reg.KEY_ATT_NONCE 0) 8 ++ slice (s.boot.fw.elim [] (·.digest)) 0 64 ++ regs (Reg.LAY_ACTIVE_DIGEST 0) 16 ++
    slice s.safetyDigest 0 64 ++ leBytes 2 (s.reg Reg.KEY_SLOT_STATUS).toNat ++ List.replicate 30 0

/-- A quote requested (R401): every field is sampled, and the quote is being formed; a start while one is, is ignored.
(log entry 67: DEDUCED in part) -/
def State.quote (s : State) : State :=
  if s.boot.quote.isSome then s
  else
    { s with boot := { s.boot with quote := some (s.reg64 Reg.KEY_ATT_ADDR / 64 * 64, s.quoteBody) } }.setFld Fld.KEY_ATT_STATUS_busy 1

/-- The quote that is being formed signed and written through BAR2, or ended by a fault of its window (R400, R401).
(log entry 67: DEDUCED in part) -/
def State.finishQuote (s : State) : State :=
  match s.boot.quote with
  | none => s
  | some (a, b) =>
    let s1 := { s with boot := { s.boot with quote := none } }.setFld Fld.KEY_ATT_STATUS_busy 0
    if s1.bar2WriteOk a 512 then
      let s2 := s1.bar2Put a (b ++ ecdsaSign Config.identityKey b ++ List.replicate 92 0)
      { s2 with boot := { s2.boot with quotes := s2.boot.quotes + 1 } }.setFld Fld.KEY_ATT_STATUS_code 0
    else (s1.setFld Fld.KEY_ATT_STATUS_code 0x0C20).hqEvent Ev.HQ_EVT_STATUS_win_fault

/-- ATTESTATION_QUOTE (R401): a write of KEY_ATT_CTRL with start = 1. (log entry 67: DEDUCED in part) -/
def execAttestationQuote (who : Requester) (s : State) : Host.Outcome State Fault Refusal :=
  .next (s.busWrite who 0 0x30 false (fun s => s.quote))

/-- DEBUG_UNLOCK_EXPIRY (R398): the unlock ends at the end of its duration; forced_hold stays until the next reset.
(log entry 67: DEDUCED in part) -/
def execDebugUnlockExpiry (s : State) : Host.Outcome State Fault Refusal :=
  .next (match s.boot.unlockEnd with
    | none => s
    | some t =>
      if s.monoNs < t then s
      else { s with boot := { s.boot with unlockEnd := none } }.setFld Fld.KEY_DEBUG_scope 0)

end Sys2Proof.Machine
end

