-- ==== Sys2Proof/Machine/Change.lean ====
section
/-! DEFINITION. Two-party changes (R363 to R366, R396 to R398): the nonce, staging, commit and expiry of a change record. -/

namespace Sys2Proof.Machine

/-! ### Keys (R394 to R397) -/

/-- The status of a key slot in KEY_SLOT_STATUS, by 4 × authority + slot. -/
def State.slotStatus (s : State) (i : Nat) : Nat :=
  bits (if i < 4 then s.fld Fld.KEY_SLOT_STATUS_sa else s.fld Fld.KEY_SLOT_STATUS_oa) (2 * (i % 4)) 2

/-- The enrolled public key of an authority's slot (0 Safety, 1 Operations); none for a slot with no enrolled key. -/
def State.enrolledKey (s : State) (authority slot : Nat) : Option Bytes :=
  if slot < 4 ∧ s.slotStatus (4 * authority + slot) = 1 then some (s.boot.norBytes (0x10000 + 0x100 * (4 * authority + slot)) 133)
  else none

/-- True where an authority has an ENROLLED slot. -/
def hasKey (keys : Nat → Nat) (authority : Nat) : Bool := (List.range 4).any (fun i => keys (4 * authority + i) == 1)

/-- True where a record is a commissioning record (R397): neither authority has an ENROLLED slot, and it enrols one key of
each. (log entry 62: DEDUCED in part) -/
def commissions (keys : Nat → Nat) (items : List Bytes) : Bool :=
  !hasKey keys 0 && !hasKey keys 1 &&
    (match items with
      | [x, y] => fieldAt x 0 1 == 1 && fieldAt y 0 1 == 1 && fieldAt x 1 1 + fieldAt y 1 1 == 1
      | _ => false)

/-- The key of an authority in a commissioning record. -/
def commissionKey (items : List Bytes) (authority : Nat) : Option Bytes :=
  (items.find? (fun x => fieldAt x 1 1 == authority)).map (fun x => slice x 16 133)

/-! ### The record (R363) -/

/-- The length of a record's body. -/
def chgBody (r : Bytes) : Nat := fieldAt r 6 2

/-- The offset behind the body. -/
def chgB (r : Bytes) : Nat := 0x20 + chgBody r

/-- The bytes that the signatures cover. -/
def chgSigned (r : Bytes) : Bytes := slice r 0 (chgB r + 2)

/-- The record read through the window; all ones where an access faults, with win_fault.
(log entry 62: DEDUCED in part) -/
def State.readChange (s : State) : Bytes × Bool :=
  let a := s.reg64 Reg.CRUST_CHG_ADDR / 64 * 64
  match s.bar2Bytes a 0x20 with
  | none => ([], true)
  | some h =>
    if 4096 < fieldAt h 6 2 then (h, false)
    else match s.bar2Bytes a (chgB h + 0x10C) with
      | none => ([], true)
      | some r => (r, false)

/-- The 16-byte items of a TP_WRITE body. -/
def tpItems (r : Bytes) : List Bytes := chunks 16 (chgBody r / 16) (slice r 0x20 (chgBody r))

/-- The 160-byte items of a KEY_ENROL body. -/
def keyItems (r : Bytes) : List Bytes := chunks 160 (chgBody r / 160) (slice r 0x20 (chgBody r))

/-- The bits of the word at a BAR0 offset that lie in TP fields. -/
def tpMask (a : Nat) : Word := (regAt a).elim 0 (fun p => accMask p.1 p.2 .tp)

/-- A TP_WRITE item is well formed: every mask bit lies in a TP field. (log entry 62: DEDUCED in part) -/
def tpItemOk (x : Bytes) : Bool :=
  fieldAt x 0 4 % 4 == 0 && BitVec.ofNat 32 (fieldAt x 4 4) &&& ~~~ tpMask (fieldAt x 0 4) == 0 && allZero (slice x 12 4)

/-- A KEY_ENROL item is well formed, and possible with the slots as they are (R396).
(log entry 62: DEDUCED in part) -/
def keyItemOk (keys : Nat → Nat) (x : Bytes) : Bool :=
  let op := fieldAt x 0 1
  let i := 4 * fieldAt x 1 1 + fieldAt x 2 1
  decide (fieldAt x 1 1 < 2) && decide (fieldAt x 2 1 < 4) && allZero (slice x 3 13) &&
    ((op == 1 && fieldAt x 16 1 == 4 && allZero (slice x 149 11) && keys i == 0) ||
      (op == 2 && allZero (slice x 16 144) && keys i == 1))

/-- The slots after an item. -/
def keyItemApply (keys : Nat → Nat) (x : Bytes) : Nat → Nat := fun i =>
  if i = 4 * fieldAt x 1 1 + fieldAt x 2 1 then (if fieldAt x 0 1 = 1 then 1 else 2) else keys i

/-- The items of a KEY_ENROL are possible in order, and leave each authority an ENROLLED slot. -/
def keyItemsOk (keys : Nat → Nat) : List Bytes → Bool
  | [] => hasKey keys 0 && hasKey keys 1
  | x :: xs => keyItemOk keys x && keyItemsOk (keyItemApply keys x) xs

/-- The form of a record (R363, R396, R398). (log entry 62: DEDUCED in part) -/
def changeFormOk (keys : Nat → Nat) (r : Bytes) : Bool :=
  let n := chgBody r
  let b := chgB r
  let kind := fieldAt r 5 1
  slice r 0 4 == [0x5A, 0x43, 0x48, 0x47] && fieldAt r 4 1 == 1 && n % 16 == 0 && decide (16 ≤ n) && decide (n ≤ 4096) &&
    allZero (slice r 0x18 8) && decide (fieldAt r b 1 < 4) && decide (fieldAt r (b + 1) 1 < 4) && allZero (slice r (b + 2) 2) &&
    (if kind = 1 then (tpItems r).all tpItemOk
      else if kind = 2 then (n == 160 || n == 320) && keyItemsOk keys (keyItems r)
      else kind == 3 && n == 16 && decide (fieldAt r 0x20 4 < 8) && decide (1 ≤ fieldAt r 0x24 4) &&
        decide (fieldAt r 0x24 4 ≤ 86400) && allZero (slice r 0x28 8))

/-- The states of the key slots as the fuses say. -/
def BootSt.keyStates (b : BootSt) : Nat → Nat := fun i => (b.key i).state

/-- The signature of a party over a record verifies (R396, R397). (log entry 62: DEDUCED in part) -/
def State.partySigned (s : State) (r : Bytes) (party : Nat) : Bool :=
  let b := chgB r
  let items := if fieldAt r 5 1 = 2 then keyItems r else []
  let key := if commissions s.boot.keyStates items then commissionKey items party
    else s.enrolledKey party (fieldAt r (b + party) 1)
  key.elim false (fun k => verifyKey k (chgSigned r) (slice r (b + 4 + 132 * party) 132))

/-! ### Steps (R364) -/

/-- A change step failed: the state is IDLE, and the nonce is no longer valid. (log entry 62: DEDUCED in part) -/
def State.chgFail (s : State) (code : Nat) : State :=
  { (s.setFld Fld.CRUST_CHG_STATUS_state 0).setFld Fld.CRUST_CHG_STATUS_code code with crust := { s.crust with staged := none } }

/-- NONCE: a fresh nonce; a staged record is discarded. (log entry 62: DEDUCED in part) -/
def State.chgNonce (s : State) : State :=
  let n := (Config.nonce s.freeCtr).toNat
  let s1 := { s.useFree 1 with crust := { s.crust with staged := none } }.setRegBytes (Reg.CRUST_NONCE 0) 4 (leBytes 16 n)
  (s1.setFld Fld.CRUST_CHG_STATUS_state 1).setFld Fld.CRUST_CHG_STATUS_code 0

/-- The nonce in force. -/
def State.nonceBytes (s : State) : Bytes := (List.range 4).flatMap (fun i => leBytes 4 (s.reg (Reg.CRUST_NONCE i)).toNat)

/-- STAGE: the record is copied, and its form, its nonce and the party's signature are checked.
(log entry 62: DEDUCED in part) -/
def State.chgStage (s : State) (party : Nat) : State :=
  let x := s.readChange
  let s1 := if x.2 then s.hqEvent Ev.HQ_EVT_STATUS_win_fault else s
  let r := x.1
  if !changeFormOk s1.boot.keyStates r then s1.chgFail 0x0905
  else if s1.fld Fld.CRUST_CHG_STATUS_state = 0 ∨ slice r 8 16 ≠ s1.nonceBytes then s1.chgFail 0x0902
  else if !s1.partySigned r party then s1.chgFail 0x0901
  else
    ({ s1 with crust := { s1.crust with staged := some ⟨r, party, s1.monoNs⟩ } }.setFld Fld.CRUST_CHG_STATUS_state 2).setFld
      Fld.CRUST_CHG_STATUS_code 0

/-- A TP_WRITE item applied. (log entry 62: DEDUCED in part) -/
def State.applyTp (s : State) (x : Bytes) : State :=
  let a := fieldAt x 0 4
  let m := BitVec.ofNat 32 (fieldAt x 4 4)
  s.setReg a ((s.reg a &&& ~~~ m) ||| (BitVec.ofNat 32 (fieldAt x 8 4) &&& m))

/-- A key slot at a state, in the fuses and in KEY_SLOT_STATUS. -/
def State.setKeySlot (s : State) (i : Nat) (k : KeySlot) : State :=
  let s1 := { s with boot := { s.boot with keys := Sparse.put (fun _ => {}) s.boot.keys i k } }
  if i < 4 then s1.setFld Fld.KEY_SLOT_STATUS_sa (setBits (s1.fld Fld.KEY_SLOT_STATUS_sa) (2 * i) 2 k.state)
  else s1.setFld Fld.KEY_SLOT_STATUS_oa (setBits (s1.fld Fld.KEY_SLOT_STATUS_oa) (2 * (i - 4)) 2 k.state)

/-- A KEY_ENROL item applied (R396): ENROL blows the hash and writes the NOR record.
(log entry 62: DEDUCED in part) -/
def State.applyKey (s : State) (x : Bytes) : State :=
  let i := 4 * fieldAt x 1 1 + fieldAt x 2 1
  if fieldAt x 0 1 = 1 then
    let k := slice x 16 133
    ({ s with boot := s.boot.norPut (0x10000 + 0x100 * i) (slice k 0 256) } : State).setKeySlot i ⟨1, sha512 k⟩
  else s.setKeySlot i { s.boot.key i with state := 2 }

/-- A DEBUG_UNLOCK applied (R398): the scope for its duration, and safe torque off held until the next reset.
(log entry 62: DEDUCED in part) -/
def State.applyUnlock (s : State) (scope seconds : Nat) : State :=
  let s1 := (s.setFld Fld.KEY_DEBUG_scope scope).setFld Fld.KEY_DEBUG_forced_hold 1
  let s2 := { s1 with boot := { s1.boot with unlocked := true, unlockEnd := some (s1.monoNs + seconds * 1000000000) } }
  (s2.setFld Fld.SIO_STO_CTRL_hold 15).assertAll

/-- A record applied, in list order as one action. (log entry 62: DEDUCED in part) -/
def State.applyChange (s : State) (r : Bytes) : State :=
  let kind := fieldAt r 5 1
  if kind = 1 then (tpItems r).foldl (fun (a : State) x => a.applyTp x) s
  else if kind = 2 then (keyItems r).foldl (fun (a : State) x => a.applyKey x) s
  else s.applyUnlock (fieldAt r 0x20 4) (fieldAt r 0x24 4)

/-- COMMIT: the other authority's signature over the same bytes, within 10 s. (log entry 62: DEDUCED in part) -/
def State.chgCommit (s : State) (party : Nat) : State :=
  match s.crust.staged with
  | none => s.chgFail 0x0904
  | some c =>
    if c.at' + 10000000000 ≤ s.monoNs then s.chgFail 0x0904
    else if party = c.party then s.chgFail 0x0903
    else
      let x := s.readChange
      let s1 := if x.2 then s.hqEvent Ev.HQ_EVT_STATUS_win_fault else s
      if x.2 then s1.chgFail 0x0905
      else if chgSigned x.1 ≠ chgSigned c.record then (s1.useFree 1).chgFail (s1.freeCode [0x0901, 0x0902, 0x0903, 0x0904, 0x0905])
      else if !s1.partySigned x.1 (1 - c.party) then s1.chgFail 0x0901
      else (s1.chgFail 0).applyChange c.record

/-- A write of CRUST_CHG_CTRL. -/
def State.writeChgCtrl (s : State) (v : Nat) : State :=
  let s1 := (s.setFld Fld.CRUST_CHG_CTRL_op (bits v 1 2)).setFld Fld.CRUST_CHG_CTRL_party (bits v 3 1)
  if !bit v 0 then s1
  else if bits v 1 2 = 1 then s1.chgNonce
  else if bits v 1 2 = 2 then s1.chgStage (bits v 3 1)
  else if bits v 1 2 = 3 then s1.chgCommit (bits v 3 1)
  else s1

/-- CHG_NONCE (R364): a write of CRUST_CHG_CTRL with op NONCE. -/
def execChgNonce (who : Requester) (s : State) : Host.Outcome State Fault Refusal :=
  .next (s.busWrite who 0 0x2C false (fun s => s.writeChgCtrl 3))

/-- CHG_STAGE (R364): a write with op STAGE and a party. -/
def execChgStage (who : Requester) (party : Nat) (s : State) : Host.Outcome State Fault Refusal :=
  .next (s.busWrite who 0 0x2C false (fun s => s.writeChgCtrl (5 + 8 * (party % 2))))

/-- CHG_COMMIT (R364): a write with op COMMIT by a party. -/
def execChgCommit (who : Requester) (party : Nat) (s : State) : Host.Outcome State Fault Refusal :=
  .next (s.busWrite who 0 0x2C false (fun s => s.writeChgCtrl (7 + 8 * (party % 2))))

/-- CHG_STAGE_EXPIRY (R364): a staged record expires 10 s after it was staged. -/
def execChgStageExpiry (s : State) : Host.Outcome State Fault Refusal :=
  .next (match s.crust.staged with
    | none => s
    | some c => if s.monoNs < c.at' + 10000000000 then s
      else { s.setFld Fld.CRUST_CHG_STATUS_state 0 with crust := { s.crust with staged := none } })

end Sys2Proof.Machine
end

