-- ==== Sys2Proof/Machine/Image.lean ====
section
/-! DEFINITION. Layout images (chapter 03): sections, the findings of the loader with their places, and the checks of steps 2
to 5 of R63. -/

namespace Sys2Proof.Machine

/-! ### Findings (R63, R64) -/

/-- A fault in a record: whether it lies in the section's blob, the offset of the first offending byte in the record or blob,
and the code. -/
structure Hit where
  blob : Bool
  off : Nat
  code : Nat
deriving DecidableEq, Repr

/-- A failing check: its place (0 the header, 1 + i section i, 100 the trailer or no section), the record by whose index it is
ordered, the image offset of the first offending byte, and the code. -/
structure Finding where
  place : Nat
  order : Nat
  off : Nat
  code : Nat
deriving DecidableEq, Repr

/-- A record at fault under a condition. -/
def hitIf (c : Bool) (off code : Nat) : List Hit := if c then [⟨false, off, code⟩] else []

/-- A field of `n` bytes outside a range. -/
def hitRange (r : Bytes) (off n lo hi code : Nat) : List Hit :=
  hitIf (decide (fieldAt r off n < lo) || decide (hi < fieldAt r off n)) off code

/-- Reserved bits that are not zero: `n` bytes under a mask (R10). -/
def hitZero (r : Bytes) (off n mask code : Nat) : List Hit :=
  match (List.range n).find? (fun i => fieldAt r (off + i) 1 &&& mask != 0) with
  | none => []
  | some i => [⟨false, off + i, code⟩]

/-- Several reserved fields of a record, with code 0x0A0C. -/
def hitReserved (r : Bytes) (fs : List (Nat × Nat × Nat)) : List Hit := fs.flatMap (fun f => hitZero r f.1 f.2.1 f.2.2 0x0A0C)

/-- Hits of an item of the blob at an offset. (log entry 14: DESIGN CHOICE in part) -/
def inBlob (base : Nat) (hs : List Hit) : List Hit := hs.map (fun h => ⟨true, base + h.off, h.code⟩)

/-- The failure that a pass reports: the lowest place and in it the lowest record, the first found there.
(log entry 15: DEDUCED in part) -/
def firstFinding : List Finding → Option Finding
  | [] => none
  | f :: fs =>
    match firstFinding fs with
    | none => some f
    | some g => if g.place < f.place ∨ (g.place = f.place ∧ g.order < f.order) then some g else some f

/-- The failure of passes that run in order, each only when the earlier ones have found nothing. -/
def firstPass : List (Unit → List Finding) → Option Finding
  | [] => none
  | p :: ps => match firstFinding (p ()) with | some f => some f | none => firstPass ps

/-! ### Sections (R56 to R58) -/

/-- A section as it stands in an image: index in body order, type, version, flags, offset of its header, payload length, the
preamble, and the records and blob that it spans. -/
structure Sec where
  idx : Nat
  type : Nat
  major : Nat
  minor : Nat
  flags : Nat
  base : Nat
  len : Nat
  count : Nat
  stride : Nat
  blobOff : Nat
  blobLen : Nat
  recs : List Bytes
  blob : Bytes
deriving DecidableEq, Repr

/-- The record sizes of the types 1 to 16 (chapter 03). -/
def sectionStride (t : Nat) : Nat := [0, 32, 16, 32, 16, 32, 48, 32, 128, 64, 128, 256, 128, 64, 64, 16, 16].getD t 0

/-- The most records of a type, and whether there must be one (chapter 03, engine sections).
(log entry 16: DESIGN CHOICE in part) -/
def sectionMax (t : Nat) : Option Nat :=
  if t = 8 ∨ t = 10 then some 1 else if t = 9 ∨ t = 14 then some 1024 else if t = 11 then some 512
  else if t = 12 then some 16 else if t = 13 then some 160 else none

/-- True for the types of level 1. -/
def knownType (t : Nat) : Bool := decide (1 ≤ t) && decide (t ≤ 16)

/-- The section whose header stands at an offset of an image, without records where it runs past the end of the body. (log entry 16: DESIGN CHOICE in part) -/
def secAt (img : Bytes) (stop idx p : Nat) : Sec :=
  let h := slice img p 32
  let n := fieldAt h 0x10 4
  let st := fieldAt h 0x14 4
  let len := fieldAt h 8 8
  let k := if st = 0 then 0 else min n (len / st)
  let none := len < 16 ∨ stop < p + 16 + len
  { idx := idx, type := fieldAt h 0 2, major := fieldAt h 2 1, minor := fieldAt h 3 1, flags := fieldAt h 4 4, base := p
    len := len, count := n, stride := st, blobOff := fieldAt h 0x18 4, blobLen := fieldAt h 0x1C 4
    recs := if none then [] else chunks st k (slice img (p + 32) (k * st))
    blob := if none then [] else slice img (p + 32 + k * st) (min (fieldAt h 0x1C 4) (len - 16 - k * st)) }

/-- The walk of the sections from an offset to the end of the body, up to the first one that runs past it.
(log entry 15: DEDUCED in part) -/
def walkSections (img : Bytes) (stop : Nat) : Nat → Nat → Nat → List Sec
  | 0, _, _ => []
  | k + 1, idx, p =>
    if stop ≤ p then []
    else
      let x := secAt img stop idx p
      if p + 16 + x.len ≤ stop then x :: walkSections img stop k (idx + 1) (alignUp 64 (p + 16 + x.len)) else [x]

/-- The end of the body of an image. -/
def bodyEnd (img : Bytes) : Nat := 256 + fieldAt img 0x10 8

/-- The sections of an image; one more than the 64 that R55 permits is enough to refuse it. -/
def imageSections (img : Bytes) : List Sec := walkSections img (bodyEnd img) 65 0 256

/-- The layout that an image's known sections make. -/
def layoutOf (img : Bytes) : Layout :=
  ⟨fieldAt img 0x20 8, ((imageSections img).filter (fun x => knownType x.type)).map (fun x => ⟨x.type, x.recs, x.blob⟩)⟩

/-- The findings of a check of every record of the known sections. (log entry 15: DEDUCED in part) -/
def recordFindings (secs : List Sec) (c : Sec → Nat → Bytes → List Hit) : List Finding :=
  (secs.filter (fun x => knownType x.type)).flatMap (fun x => (x.recs.zipIdx).flatMap (fun p =>
    (c x p.2 p.1).map (fun h =>
      ⟨x.idx + 1, p.2, x.base + 32 + (if h.blob then x.count * x.stride else p.2 * x.stride) + h.off, h.code⟩)))

/-- The findings of a check of sections as a whole; offsets count from the section header.
(log entry 15: DEDUCED in part) -/
def sectionFindings (secs : List Sec) (c : Sec → List Hit) : List Finding :=
  secs.flatMap (fun x => (c x).map (fun h => ⟨x.idx + 1, 0xFFFFFF, x.base + h.off, h.code⟩))

/-- The record index that LAY_ERR_LOC shows for an image offset: the record that holds it, or 0xFF_FFFF.
(log entry 16: DESIGN CHOICE in part) -/
def errRecord (secs : List Sec) (f : Finding) : Nat :=
  match secs.find? (fun x => x.idx + 1 == f.place) with
  | none => 0xFFFFFF
  | some x =>
    if x.base + 32 ≤ f.off ∧ f.off < x.base + 32 + x.count * x.stride then (f.off - x.base - 32) / x.stride else 0xFFFFFF

/-! ### Step 2: the header -/

/-- A check of the header or trailer. (log entry 14: DESIGN CHOICE in part) -/
def headIf (c : Bool) (place off code : Nat) : List Finding := if c then [⟨place, 0, off, code⟩] else []

/-- The header checks of step 2, in the order of R63; `op` is LAY_CTRL.op and `len` LAY_IMG_LEN.
(log entry 15: DEDUCED in part) -/
def headerFindings (h : Bytes) (op len : Nat) : List Finding :=
  headIf (fieldAt h 0 4 != 0x59414C5A) 0 0 0x0A01 ++
  headIf (fieldAt h 4 1 != 1) 0 4 0x0A02 ++ headIf (decide (0 < fieldAt h 5 1)) 0 5 0x0A02 ++
  headIf (fieldAt h 6 1 != 1) 0 6 0x0A03 ++
  headIf (decide (op < 2) && fieldAt h 7 1 % 2 != op) 0 7 0x0A18 ++
  headIf (fieldAt h 8 2 != 256) 0 8 0x0A04 ++
  headIf (fieldAt h 0xA 2 == 0 || decide (64 < fieldAt h 0xA 2)) 0 0xA 0x0A04 ++
  headIf (fieldAt h 0x10 8 % 64 != 0) 0 0x10 0x0A04 ++
  headIf (fieldAt h 0x18 8 != 256 + fieldAt h 0x10 8 + 512 || decide (0x4000000 < fieldAt h 0x18 8) || fieldAt h 0x18 8 != len) 0 0x18
    0x0A04

/-! ### Steps 3 and 4: digests and signatures (R61, R62) -/

/-- The SAFETY section of an image. -/
def safetySec (img : Bytes) : Option Sec := (imageSections img).find? (fun x => x.type == 14)

/-- safety_digest as computed: over the header and payload of the SAFETY section, zero without one. -/
def safetyDigestOf (img : Bytes) : Bytes :=
  match safetySec img with
  | none => List.replicate 64 0
  | some x => sha512 (slice img x.base (min (16 + x.len) (bodyEnd img - x.base)))

/-- body_digest as computed. (log entry 15: DEDUCED in part) -/
def bodyDigestOf (img : Bytes) : Bytes := sha512 (slice img 256 (bodyEnd img - 256))

/-- The trailer magic, the last check of step 2. (log entry 15: DEDUCED in part) -/
def trailerFindings (img : Bytes) : List Finding :=
  headIf (fieldAt img (bodyEnd img) 4 != 0x4749535A) 100 (bodyEnd img) 0x0A01

/-- The digests (step 3). (log entry 15: DEDUCED in part) -/
def digestFindings (img : Bytes) : List Finding :=
  headIf (slice img 0x40 64 != bodyDigestOf img) 0 0x40 0x0A05 ++
  headIf (slice img 0x80 64 != safetyDigestOf img) 0 0x80 0x0A05

/-- The signatures (step 4): the Operations Authority's over the header and 16 bytes of the trailer, then with a SAFETY section the
Safety Authority's over safety_digest. (log entry 15: DEDUCED in part) -/
def State.signatureFindings (s : State) (img : Bytes) : List Finding :=
  let t := bodyEnd img
  let bad := fun (authority key sig code : Nat) (m : Bytes) =>
    match s.enrolledKey authority (fieldAt img (t + key) 1) with
    | none => headIf true 100 (t + key) code
    | some k => headIf (!verifyKey k m (slice img (t + sig) 132)) 100 (t + sig) code
  match firstFinding (bad 1 4 0x10 0x0A06 (slice img 0 256 ++ slice img t 16)) with
  | some f => [f]
  | none => if (safetySec img).isSome then bad 0 5 0x94 0x0A07 (slice img 0x80 64) else []

/-! ### Step 5: structure -/

/-- True where an earlier record has the same value under a key. (log entry 16: DESIGN CHOICE in part) -/
def repeated (x : Sec) (i : Nat) (key : Bytes → Nat) : Bool :=
  let k := key (x.recs.getD i [])
  (x.recs.take i).any (fun r => key r == k)

/-- A blob range of a record that is not a multiple of 16 or not wholly inside the blob (R58).
(log entry 14: DESIGN CHOICE in part) -/
def hitBlob (x : Sec) (off start len : Nat) : List Hit :=
  hitIf (start % 16 != 0 || len % 16 != 0 || decide (x.blob.length < start + len)) off 0x0A08

/-- Pass (a) for a record: ascending owners, keys that are unique, ranges inside the blob (R58, R59).
(log entry 15: DEDUCED in part) -/
def walkRecord (x : Sec) (i : Nat) (r : Bytes) : List Hit :=
  hitIf (decide (0 < i) && decide (fieldAt r 0 1 < fieldAt (x.recs.getD (i - 1) []) 0 1)) 0 0x0A08 ++
  (match x.type with
  | 1 => hitIf (repeated x i (fun r => fieldAt r 0 1)) 0 0x0A08
  | 3 => hitIf (repeated x i (fun r => fieldAt r 0 1)) 0 0x0A08 ++ hitBlob x 0x18 (fieldAt r 0x18 4) (16 * fieldAt r 0x14 4)
  | 4 => hitIf (repeated x i (fun r => fieldAt r 2 2)) 2 0x0A08 ++ hitBlob x 4 (fieldAt r 4 4) (fieldAt r 8 4)
  | 5 => hitIf (repeated x i (fun r => fieldAt r 0 3)) 2 0x0A08
  | 7 => hitIf (repeated x i (fun r => fieldAt r 0 1 + 256 * fieldAt r 2 2)) 2 0x0A08
  | 9 => hitBlob x 0x10 (fieldAt r 0x10 4) (fieldAt r 0x14 4) ++ hitBlob x 0x18 (fieldAt r 0x18 4) (fieldAt r 0x1C 4)
  | 10 => hitBlob x 0x20 (fieldAt r 0x20 4) (128 * fieldAt r 2 1) ++
      (if fieldAt r 0x28 2 = 0 then [] else hitBlob x 0x24 (fieldAt r 0x24 4) (fieldAt r 0x28 2))
  | 15 => hitIf (repeated x i (fun r => fieldAt r 1 1)) 1 0x0A08
  | 16 => hitIf (repeated x i (fun r => fieldAt r 2 2)) 2 0x0A08
  | _ => [])

/-- Pass (a) for a section: ascending types, its end, its preamble and its padding (R56 to R58). Chapter 03 fixes the stride and
the count of the known types only. (log entry 15: DEDUCED in part) -/
def walkSec (img : Bytes) (prev : Option Sec) (x : Sec) : List Hit :=
  let stop := bodyEnd img
  let recs := x.count * x.stride
  hitIf (prev.elim false (fun p => decide (x.type ≤ p.type))) 0 0x0A08 ++
  (if stop < x.base + 16 + x.len then [⟨false, 8, 0x0A08⟩]
  else
    hitIf (decide (x.len < 16) || x.len != 16 + recs + x.blobLen) 8 0x0A08 ++
    hitIf ((sectionMax x.type).elim false (fun m => x.count == 0 || decide (m < x.count))) 0x10 0x0A08 ++
    hitIf (knownType x.type && x.stride != sectionStride x.type) 0x14 0x0A08 ++
    hitIf (x.blobOff != if x.blobLen = 0 then 0 else 16 + recs) 0x18 0x0A08 ++
    hitIf (x.blobLen % 16 != 0) 0x1C 0x0A08 ++
    hitZero (slice img x.base (alignUp 64 (16 + x.len))) (16 + x.len) (alignUp 64 (16 + x.len) - 16 - x.len) 0xFF 0x0A08)

/-- Pass (a): the walk, then section_count and safety_present. (log entry 15: DEDUCED in part) -/
def walkFindings (img : Bytes) : List Finding :=
  let secs := imageSections img
  recordFindings secs walkRecord ++
  sectionFindings secs (fun x => walkSec img (if x.idx = 0 then none else secs[x.idx - 1]?) x) ++
  headIf (fieldAt img 0xA 2 != secs.length) 100 0xA 0x0A08 ++
  headIf (bit (fieldAt img 7 1) 1 != (safetySec img).isSome) 100 7 0x0A08

/-- Pass (b): unknown types and section versions (R57). (log entry 16: DESIGN CHOICE in part) -/
def typeFindings (secs : List Sec) : List Finding :=
  sectionFindings secs (fun x =>
    if knownType x.type then hitIf (x.major != 1) 2 0x0A0A ++ hitIf (x.minor != 0) 3 0x0A0A
    else hitIf (x.type == 0 || !bit x.flags 0) 0 0x0A09)

/-- Pass (c): the sections that a full image must hold (R60). (log entry 16: DESIGN CHOICE in part) -/
def missingFindings (l : Layout) : List Finding :=
  let grants := fun (e : Nat) => ((l.recs 2).map shareOf).any (fun h => h.kind == 2 && h.engine == e)
  let need := [1, 2, 3, 4, 5, 16] ++ (if grants 6 then [10, 8] else []) ++ (if grants 7 then [9, 8] else []) ++
    (if grants 8 then [12] else []) ++ (if grants 9 then [11] else []) ++
    (if (l.section? 11).isSome || (l.recs 13).any (fun r => decide (fieldAt r 1 1 < 2)) then [14] else [])
  headIf (need.any (fun t => (l.section? t).isNone)) 100 0 0x0A0B

/-! ### Step 5, pass (d): reserved fields and encodings (R10, R11) -/

/-- The fields of an operation descriptor that R112 reserves for its opcode and settings. -/
def tileReserved (d : Bytes) : List Hit :=
  let o := tileOpOf d
  let ew := o.opcode = 3 ∨ o.opcode = 0x20
  let nz := fun (c : Bool) (off n : Nat) => if c then hitZero d off n 0xFF 0x0A0C else []
  hitIf (decide (2 < o.ewOp)) 5 0x0A0C ++ hitIf (decide (9 < o.func)) 6 0x0A0C ++ hitIf (decide (2 < o.split)) 0xA 0x0A0C ++
  hitReserved d [(3, 1, 0xC0), (7, 1, 0xE0)] ++
  nz (decide ew) 0x1C 4 ++ (if ew then hitZero d 2 1 0x40 0x0A0C else []) ++ nz (decide ew || !o.biasEn) 0x28 4 ++
  nz (o.opcode == 0x20 || o.dyn || o.func == 9) 0x2C 4 ++ nz (o.ewOp == 0) 0x38 4 ++
  nz (o.opcode == 1 || decide ew) 0x3C 4 ++ nz (decide (0x10 ≤ o.opcode)) 8 2 ++
  nz (o.opcode == 0x12 || o.opcode == 0x20 || (formatOf o.fmtOut).elim false (fun f => !formatScaled f)) 0x34 4

/-- The reserved fields and encodings of an operation descriptor (R112, R127, R149, R166, R283, R305). -/
def opReserved (d : Bytes) : List Hit :=
  match fieldAt d 0 1 with
  | 0x01 => tileReserved d
  | 0x02 => tileReserved d
  | 0x03 => tileReserved d
  | 0x10 => tileReserved d
  | 0x11 => tileReserved d
  | 0x12 => tileReserved d
  | 0x20 => tileReserved d
  | 0x30 => hitReserved d [(1, 1, 0xFC), (5, 1, 0x80), (0x3C, 4, 0xFF)] ++ hitIf (fieldAt d 1 1 % 4 == 3) 1 0x0A0C
  | 0x40 => hitReserved d [(5, 3, 0xFF), (0x20, 32, 0xFF)]
  | 0x41 => hitReserved d [(1, 1, 0xFF), (4, 1, 0xFF), (6, 2, 0xFF), (0x14, 12, 0xFF), (0x26, 26, 0xFF)]
  | 0x42 => hitReserved d [(1, 31, 0xFF), (0x26, 2, 0xFF), (0x30, 16, 0xFF)]
  | 0x50 => hitReserved d [(1, 1, 0xF8), (3, 1, 0x80), (0xA, 2, 0xFF), (0x14, 44, 0xFF)] ++ hitIf (fieldAt d 1 1 % 4 == 3) 1 0x0A0C
  | 0x51 => hitReserved d [(1, 1, 0xFC), (0xB, 1, 0xF8), (0x25, 27, 0xFF)] ++ hitIf (fieldAt d 1 1 % 4 == 3) 1 0x0A0C
  | 0x60 => hitReserved d [(1, 1, 0xFF), (6, 2, 0xFF), (0xE, 2, 0xFF), (0x18, 40, 0xFF)]
  | 0x70 => hitReserved d [(2, 1, 0xFE), (3, 61, 0xFF)]
  | _ => [⟨false, 0, 0x0A0C⟩]

/-- The descriptors of a PROGRAMS record with their blob offsets. -/
def opsOf (x : Sec) (r : Bytes) : List (Nat × Bytes) :=
  (chunks 64 (fieldAt r 8 4 / 64) (slice x.blob (fieldAt r 4 4) (fieldAt r 8 4))).zipIdx.map (fun p => (fieldAt r 4 4 + 64 * p.2, p.1))

/-- The steps of a SCHEDULES record with their blob offsets. -/
def stepsOf (x : Sec) (r : Bytes) : List (Nat × Bytes) :=
  (chunks 16 (fieldAt r 0x14 4) (slice x.blob (fieldAt r 0x18 4) (16 * fieldAt r 0x14 4))).zipIdx.map
    (fun p => (fieldAt r 0x18 4 + 16 * p.2, p.1))

/-- The reserved fields of a SAFETY record by its kind (R348). (log entry 19: DESIGN CHOICE in part) -/
def safetyReserved (r : Bytes) : List Hit :=
  match fieldAt r 1 1 with
  | 0 => hitReserved r [(2, 2, 0xFF), (8, 1, 0xFE), (0xB, 1, 0xF0), (0x2E, 2, 0xFF)]
  | 1 => hitReserved r [(5, 1, 0xFF), (0x14, 44, 0xFF)]
  | 2 => hitReserved r [(3, 1, 0xFF), (0x1C, 4, 0xFF), (0x24, 28, 0xFF)]
  | 3 => hitReserved r [(6, 2, 0xFF), (0x18, 8, 0xFF)]
  | 4 => hitReserved r [(4, 1, 0xF0), (5, 1, 0xFE), (6, 2, 0xFF), (8, 56, 0xFF)]
  | _ => [⟨false, 1, 0x0A0C⟩]

/-- The reserved fields of the robot model and of the fusion streams, in the blob. -/
def blobReserved (x : Sec) (i : Nat) (r : Bytes) : List Hit :=
  if x.type = 9 ∧ i = 0 then
    let m := fun (off : Nat) (fs : List (Nat × Nat × Nat)) => inBlob off (hitReserved (slice x.blob off 64) fs)
    let j := fieldAt x.blob 0 1
    m 0 [(2, 2, 0xFF), (0x16, 2, 0xFF), (0x20, 32, 0xFF)] ++ (List.range j).flatMap (fun i => m (64 + 64 * i) [(2, 2, 0xFF)]) ++
      (List.range (fieldAt x.blob 1 1)).flatMap (fun i => m (64 + 64 * j + 32 * i) [(1, 3, 0xFF)])
  else if x.type = 10 then
    (List.range (fieldAt r 2 1)).flatMap (fun i =>
      let a := fieldAt r 0x20 4 + 128 * i
      let d := slice x.blob a 128
      inBlob a (hitIf (decide (3 < fieldAt d 0 1)) 0 0x0A0C ++ hitReserved d [(1, 1, 0xF0), (0x54, 44, 0xFF)])) ++
    (List.range (fieldAt r 0x28 2 / 4)).flatMap (fun i =>
      let a := fieldAt r 0x24 4 + 4 * i
      inBlob a (hitReserved (slice x.blob a 4) [(2, 2, 0xFF)]))
  else []

/-- Pass (d) for a record. A value outside the range that chapter 03 gives a field counts as a reserved value. -/
def reservedRecord (x : Sec) (i : Nat) (r : Bytes) : List Hit :=
  let big := fun (off hi : Nat) => hitIf (decide (hi < fieldAt r off 1)) off 0x0A0C
  (match x.type with
  | 1 => big 1 7 ++ hitReserved r [(2, 1, 0xE0), (3, 1, 0xFC)] ++ big 8 2 ++ hitReserved r [(9, 3, 0xFF)] ++
      hitIf (fieldAt r 0xC 2 == 0) 0xC 0x0A0C ++ hitReserved r [(0xE, 18, 0xFF)]
  | 2 => big 2 5 ++ big 3 (if fieldAt r 2 1 = 2 then 9 else 0) ++ hitIf (fieldAt r 8 4 == 0) 8 0x0A0C ++ hitReserved r [(0xC, 4, 0xFF)]
  | 3 => big 1 15 ++ big 2 39 ++ hitReserved r [(3, 1, 0xFF)] ++ hitIf (decide (max (fieldAt r 4 4) 1 ≤ fieldAt r 8 4)) 8 0x0A0C ++
      hitRange r 0x14 4 1 65536 0x0A0C ++ hitReserved r [(0x1C, 4, 0xFF)] ++
      (stepsOf x r).flatMap (fun p => inBlob p.1 (hitReserved p.2 [(0xC, 4, 0xFF)]))
  | 4 => hitIf (fieldAt r 2 2 == 0xFFFF) 2 0x0A0C ++ hitIf (fieldAt r 8 4 % 64 != 0) 8 0x0A0C ++ hitRange r 0xC 2 0 32 0x0A0C ++
      hitIf (fieldAt r 0xE 1 != 0xFF && decide (7 < fieldAt r 0xE 1)) 0xE 0x0A0C ++ hitReserved r [(0xF, 1, 0xFF)] ++
      (opsOf x r).flatMap (fun p => inBlob p.1 (opReserved p.2))
  | 5 => big 1 7 ++ big 2 9 ++ hitReserved r [(3, 1, 0xFF)] ++ hitRange r 0x10 2 1 256 0x0A0C ++
      hitReserved r [(0x12, 14, 0xFF)]
  | 6 => big 1 7 ++ hitIf (fieldAt r 0x18 4 % 64 != 0) 0x18 0x0A0C ++ hitReserved r [(0x20, 16, 0xFF)]
  | 7 => big 1 2 ++ hitIf (fieldAt r 1 1 != 1 && fieldAt r 4 2 != 0xFFFF) 4 0x0A0C ++ hitReserved r [(6, 1, 0xFE), (7, 1, 0xFF)] ++
      (if fieldAt r 1 1 = 1 then [] else hitReserved r [(8, 8, 0xFF)]) ++
      (if fieldAt r 1 1 = 2 then [] else hitReserved r [(0x14, 4, 0xFF)]) ++ hitReserved r [(0x18, 8, 0xFF)]
  | 8 => hitReserved r [(3, 1, 0xFE), (0x2A, 2, 0xFF), (0x49, 3, 0xFF), (0x58, 40, 0xFF)]
  | 9 => hitReserved r [(3, 1, 0xFF), (0x20, 32, 0xFF)]
  | 10 => hitReserved r [(0x1E, 2, 0xFF), (0x38, 72, 0xFF)]
  | 11 => hitReserved r [(3, 1, 0xFE), (0xE, 1, 0xF0), (0x41, 1, 0xFF), (0x4A, 2, 0xFF)] ++
      (List.range 4).flatMap (fun i =>
        if i < fieldAt r 0xD 1 then hitReserved r [(0x60 + 12 * i + 11, 1, 0xFF)] else hitReserved r [(0x60 + 12 * i, 12, 0xFF)]) ++
      hitReserved r [(0x90, 112, 0xFF)]
  | 13 => big 1 3 ++ hitReserved r [(3, 1, 0x70), (0x23, 1, 0xFC), (0x32, 14, 0xFF)]
  | 14 => safetyReserved r
  | 15 => hitIf (fieldAt r 0 1 != 0xFF) 0 0x0A0C ++ big 1 4 ++ hitReserved r [(2, 6, 0xFF)] ++
      (List.range 8).flatMap (fun i => hitIf (decide (15 < fieldAt r (8 + i) 1) && fieldAt r (8 + i) 1 != 0xFF) (8 + i) 0x0A0C)
  | 16 => hitIf (fieldAt r 2 2 == 0xFFFF) 2 0x0A0C ++ hitReserved r [(6, 1, 0xFC), (7, 1, 0xFF)]
  | _ => []) ++ blobReserved x i r

/-- Pass (d): the header, then the body, then the trailer. (log entry 15: DEDUCED in part) -/
def reservedFindings (img : Bytes) : List Finding :=
  let secs := imageSections img
  let t := bodyEnd img
  let head := hitReserved img ([(7, 1, 0xFC), (0xC, 4, 0xFF), (0x28, 24, 0xFF)] ++
    (if fieldAt img 7 1 % 2 = 0 then [(0xC0, 64, 0xFF)] else []))
  let tail := hitReserved (slice img t 512) ([(6, 10, 0xFF)] ++ (if (safetySec img).isSome then [] else [(0x94, 132, 0xFF)]) ++
    [(0x118, 232, 0xFF)])
  head.map (fun h => ⟨0, 0, h.off, h.code⟩) ++ recordFindings secs reservedRecord ++
    sectionFindings secs (fun x => hitReserved (slice img x.base 16) [(4, 1, 0xFE), (5, 3, 0xFF)]) ++
    headIf ((safetySec img).isNone && fieldAt img (t + 5) 1 != 0xFF) 100 (t + 5) 0x0A0C ++
    tail.map (fun h => ⟨100, 0, t + h.off, h.code⟩)

/-- The passes of step 5. (log entry 15: DEDUCED in part) -/
def structurePasses (img : Bytes) : List (Unit → List Finding) :=
  [fun _ => walkFindings img, fun _ => typeFindings (imageSections img),
    fun _ => if fieldAt img 7 1 % 2 = 0 then missingFindings (layoutOf img) else [], fun _ => reservedFindings img]

end Sys2Proof.Machine
end

