-- ==== Sys2Proof/Machine/LoadCheck.lean ====
section
/-! DEFINITION. Step 6 of a layout load (R63): the passes over references, share overlaps, capacities, dies, schedules, path
rules, arithmetic parameters and engine sections, and the checks of a partial image. -/

namespace Sys2Proof.Machine

/-! ### The layout that the commit would install (R65) -/

/-- A record put after the records of lower or equal owner. -/
def insertOwner (r : Bytes) : List Bytes → List Bytes
  | [] => [r]
  | x :: xs => if fieldAt r 0 1 < fieldAt x 0 1 then r :: x :: xs else x :: insertOwner r xs

/-- A section after a partial load: the records of every owner that the image names are replaced, and OPPREF phase by phase. -/
def mergeSection (old new : Section) : Section :=
  let key := fun (r : Bytes) => if old.type = 15 then fieldAt r 1 1 else fieldAt r 0 1
  let kept := old.records.filter (fun r => !(new.records.map key).contains (key r))
  ⟨old.type, new.records.foldl (fun rs r => insertOwner r rs) kept, if new.records.isEmpty then old.blob else new.blob⟩

/-- The layout after a partial load. -/
def mergeLayout (old new : Layout) : Layout :=
  ⟨old.layoutId, (List.range 17).filterMap (fun t =>
    match old.section? t, new.section? t with
    | some a, some b => some (mergeSection a b)
    | some a, none => some a
    | none, b => b)⟩

/-- What the commit of an image would install. -/
def State.merged (s : State) (img : Bytes) : Layout :=
  if fieldAt img 7 1 % 2 = 0 then layoutOf img else mergeLayout (s.layout.getD ⟨0, []⟩) (layoutOf img)

/-! ### Shares and owners -/

/-- A reference at fault. (log entry 17: DESIGN CHOICE in part) -/
def hitRef (c : Bool) (off : Nat) : List Hit := hitIf c off 0x0A0D

/-- True for a value outside a range. (log entry 17: DESIGN CHOICE in part) (log entry 18: DESIGN CHOICE in part) -/
def outRange (v lo hi : Nat) : Bool := decide (v < lo) || decide (hi < v)

/-- True for a power of two in a range. (log entry 17: DESIGN CHOICE in part) -/
def powerIn (v lo hi : Nat) : Bool := !outRange v lo hi && 2 ^ v.log2 == v

/-- The units of an engine that a context holds on a die. -/
def Layout.engineUnits (l : Layout) (k die e : Nat) : Nat := shareCount ((l.sharesOf k die 2).filter (fun h => h.engine == e))

/-- The context to which an engine of die 0 is granted. -/
def Layout.engineOwner (l : Layout) (e : Nat) : Option Nat :=
  (((l.recs 2).map shareOf).find? (fun h => h.kind == 2 && h.engine == e && h.die == 0)).map (·.ctx)

/-- True where a range lies in a context's shared-SRAM shares on a die. -/
def Layout.inSram (l : Layout) (k die addr len : Nat) : Bool :=
  let rs := l.sramRanges k die
  covered rs (addr + len) rs.length addr

/-- True where a range of the Reflex die lies in the shares of some context. (log entry 17: DESIGN CHOICE in part) -/
def Layout.inAnyShare (l : Layout) (addr len : Nat) : Bool := (l.recs 1).any (fun r => l.inShares (fieldAt r 0 1) 0 addr len)

/-- True where a range of a context's addresses is mapped in its root as the load is checked, in PSRAM where that is asked
(R232, R255, R259). (log entry 17: DESIGN CHOICE in part) -/
def State.inMaps (s : State) (k va len : Nat) (psram : Bool) : Bool :=
  let ms := s.maps.filter (fun m => m.ctx == k && (!psram || m.extents.all (fun e => m.tier != 2 && decide (0x3000000000 ≤ e.1))))
  covered (ms.map (fun m => (m.va, m.va + m.len))) (va + len) ms.length va

/-- True where a layout sync ID is absent; 0xFFFF names none. -/
def Layout.syncAbsent (l : Layout) (i : Nat) : Bool := i != 0xFFFF && (l.syncRec i).isNone

/-- True where a context may not signal a layout sync ID. (log entry 17: DESIGN CHOICE in part) -/
def Layout.noSignal (l : Layout) (k i : Nat) : Bool := i != 0xFFFF && !l.maySignal k i

/-- True where a programme is absent from a context. -/
def Layout.progAbsent (l : Layout) (k p : Nat) : Bool := (l.progRec p).elim true (fun r => fieldAt r 0 1 != k)

/-! ### Byte ranges of operation descriptors (R107) -/

/-- Bytes of a tensor; 0 in a format that is not one. -/
def tensorBytes (f : Option Format) (inner pixels rows : Nat) : Nat :=
  f.elim 0 (fun f => (⟨0, 0, 0, f, 0, inner, pixels⟩ : Tensor).size rows)

/-- Bytes of a scale tensor. -/
def scaleBytes (f : Option Format) (g rows inner : Nat) : Nat := f.elim 0 (fun f => 2 * scaleCount f g rows inner)

/-- Bytes of the requantisation table with its output scale words (R113). -/
def rqBytes (o : TileOp) : Nat :=
  let n := 4 * (if o.rqPerCh then o.n else 1)
  if (formatOf o.fmtOut).elim false formatScaled then
    alignUp 64 n + 2 * (if o.granO = 0 then 1 else scalesPerRow o.granO o.n) else n

/-- The ranges of a tile, stem or argmax descriptor: offset of the address field, address and bytes (R109 to R113, R123). -/
def tileRanges (o : TileOp) : List (Nat × Nat × Nat) :=
  let fa := formatOf o.fmtA
  let fb := formatOf o.fmtB
  let fo := formatOf o.fmtOut
  let g := convGeomOf o.geom
  let conv := o.opcode == 2 || (decide (0x10 ≤ o.opcode) && decide (o.opcode ≤ 0x12))
  let hin := o.m % 65536
  let win := o.m / 65536
  let hout := convExtent hin g.pt g.pb g.dh g.kh g.sh
  let wout := convExtent win g.pl g.pr g.dw g.kw g.sw
  let taps := g.kh * g.kw
  let image := conv || o.opcode == 0x20
  let rowsA := if image then hin * win else o.m
  let innerA := if o.opcode = 3 then o.n else o.k
  let klen := if conv then taps * o.k else o.k
  let pixO := if conv then wout else 0
  let rowsO := if conv then hout * wout else o.m
  let argmax := o.opcode == 0x12 || o.opcode == 0x20
  let hasB := o.opcode != 3 && o.opcode != 0x20
  let scaleB :=
    match conv && !o.bKn, blockWidth o.granB with
    | true, some w => if fb.elim false formatScaled then 2 * (o.n * (taps * ceilDiv o.k w)) else 0
    | _, _ => if o.bKn then scaleBytes fb o.granB klen o.n else scaleBytes fb o.granB o.n klen
  [(0x18, o.aAddr, tensorBytes fa innerA (if image then win else 0) rowsA), (0x20, o.saAddr, scaleBytes fa o.granA rowsA innerA),
    (0x1C, o.bAddr, if hasB then (if o.bKn then tensorBytes fb o.n 0 klen else tensorBytes fb klen 0 o.n) else 0),
    (0x24, o.sbAddr, if hasB then scaleB else 0), (0x28, o.biasAddr, if o.biasEn then 8 * o.n else 0),
    (0x2C, o.rqAddr, if o.dyn || o.func == 9 || o.opcode == 0x20 then 0 else rqBytes o),
    (0x30, o.outAddr, if argmax then 8 * (if conv then rowsO else hin * win) else tensorBytes fo o.n pixO rowsO),
    (0x34, o.soAddr, if argmax then 0 else scaleBytes fo o.granO rowsO o.n),
    (0x38, o.ewAddr, if o.ewOp = 0 then 0 else alignUp 64 (2 * granWords o.granO rowsO o.n) + tensorBytes fo o.n pixO rowsO)]

/-- The ranges of a SEQ_CHUNK descriptor but for its weights (R166). -/
def seqRanges (d : Bytes) : List (Nat × Nat × Nat) :=
  let kind := bits (fieldAt d 1 1) 0 2
  let w := fieldAt d 0xC 2
  let rows := fieldAt d 0x10 4 * fieldAt d 0xA 2
  let fx := formatOf (bits (fieldAt d 5 1) 0 4)
  let gw := (if kind = 0 then 3 else 4) * w
  [(0x14, fieldAt d 0x14 4, if kind = 2 then rows * alignUp 64 (8 * w) else tensorBytes fx (fieldAt d 0xE 2) 0 rows),
    (0x18, fieldAt d 0x18 4, if kind = 2 then 0 else scaleBytes fx (bits (fieldAt d 5 1) 4 3) rows (fieldAt d 0xE 2)),
    (0x2C, fieldAt d 0x2C 4, if kind = 2 then 0 else 16 * gw), (0x30, fieldAt d 0x30 4, tensorBytes (some .int16) w 0 rows),
    (0x34, fieldAt d 0x34 4, 2 * rows), (0x38, fieldAt d 0x38 4, if fieldAt d 0x38 4 = 0 then 0 else 64 * fieldAt d 0x10 4)]

/-- The weights of a SEQ_CHUNK descriptor against the SRAM of a tile: offsets, each tile with its channel groups (R116, R166). -/
def seqWeightHits (die : Nat) (d : Bytes) : List Hit :=
  let kind := bits (fieldAt d 1 1) 0 2
  let gw := (if kind = 0 then 3 else 4) * fieldAt d 0xC 2
  let edge := if die = 0 then 32 else 64
  let rows := min gw (ceilDiv (ceilDiv gw edge) (max (fieldAt d 9 1) 1) * edge)
  let room := [1, 0, 4, 2, 2].getD die 0 * 0x100000
  let f := formatOf (bits (fieldAt d 4 1) 0 4)
  let bad := fun (off len : Nat) => hitRef (fieldAt d off 4 % 64 != 0 || decide (room < fieldAt d off 4 + len)) off
  if kind = 2 then []
  else bad 0x1C (tensorBytes f (fieldAt d 0xE 2) 0 rows) ++ bad 0x20 (2 * rows) ++ bad 0x24 (tensorBytes f (fieldAt d 0xC 2) 0 rows) ++
    bad 0x28 (2 * rows)

/-- The ranges of a KV_APPEND or ATTN descriptor (R149, R150): lists and tables in full, and the first bytes of the tensors whose
extent the sequences decide at run time. (log entry 17: DESIGN CHOICE in part) -/
def kvRanges (d : Bytes) : List (Nat × Nat × Nat) :=
  let list := (4, fieldAt d 4 4, 16 * fieldAt d 8 2)
  if fieldAt d 0 1 = 0x50 then [list, (0xC, fieldAt d 0xC 4, 1), (0x10, fieldAt d 0x10 4, 2)]
  else
    let scaled := (formatOf (bits (fieldAt d 0xA 1) 4 4)).elim false formatScaled
    [list, (0xC, fieldAt d 0xC 4, 1), (0x10, fieldAt d 0x10 4, 2), (0x14, fieldAt d 0x14 4, 1),
      (0x18, fieldAt d 0x18 4, if scaled then 2 else 0), (0x1C, fieldAt d 0x1C 4, 4), (0x20, fieldAt d 0x20 4, if scaled then 66 else 4)]

/-- The joints of the robot model of a layout. -/
def Layout.joints (l : Layout) : Nat := fieldAt (l.blob 9) 0 1

/-- The ranges of a descriptor by its opcode. (log entry 17: DESIGN CHOICE in part) -/
def Layout.opRanges (l : Layout) (d : Bytes) : List (Nat × Nat × Nat) :=
  let op := fieldAt d 0 1
  if op < 0x30 then tileRanges (tileOpOf d)
  else if op < 0x40 then seqRanges d
  else if op = 0x40 then []
  else if op = 0x41 then [(0x20, fieldAt d 0x20 4, 16 * fieldAt d 0x24 2)]
  else if op = 0x42 then
    [(0x20, fieldAt d 0x20 4, 16 * fieldAt d 0x24 2), (0x28, fieldAt d 0x28 4, 32 * fieldAt d 0x24 2),
      (0x2C, fieldAt d 0x2C 4, 64 * fieldAt d 0x24 2)]
  else if op < 0x60 then kvRanges d
  else if op = 0x60 then
    [(8, fieldAt d 8 4, 32 * fieldAt d 0xC 2), (0x10, fieldAt d 0x10 4, 64 + 4 * l.joints),
      (0x14, fieldAt d 0x14 4, if fieldAt d 0x14 4 = 0 then 0 else 8 * fieldAt d 0xC 2)]
  else []

/-! ### References (0x0A0D) -/

/-- True where a die has the engine of an opcode and the context a share of it.
(log entry 17: DESIGN CHOICE in part) -/
def Layout.opHosted (l : Layout) (k die op : Nat) : Bool :=
  let has := fun (e : Nat) => decide (0 < l.engineUnits k die e)
  if op < 0x10 then die != 1
  else if op < 0x20 then decide (3 ≤ die) && has 4
  else if op < 0x30 then decide (3 ≤ die) && has 5
  else if op < 0x40 then (die == 0 || die == 2) && has 2
  else if op = 0x40 then decide (3 ≤ die) && has 0
  else if op < 0x50 then die == 2 && has 3
  else if op < 0x60 then (decide (3 ≤ die) && has 0) || (die == 2 && has 1)
  else if op < 0x70 then die == 0 && has 7
  else die == 0 && has 8

/-- True for the opcodes whose descriptors name tiles. -/
def opHasTiles (d : Bytes) : Bool :=
  let op := fieldAt d 0 1
  decide (op ≤ 3) || (op == 0x30 && bits (fieldAt d 1 1) 0 2 != 2)

/-- The references of a descriptor (R107, R112, R114, R127, R149, R166, R283, R305).
(log entry 17: DESIGN CHOICE in part) -/
def Layout.opRefs (l : Layout) (k die : Nat) (d : Bytes) : List Hit :=
  let op := fieldAt d 0 1
  let tiles := shareCount (l.sharesOf k die 0)
  hitRef (!l.opHosted k die op) 0 ++
  (if op = 0x40 then
    hitRef (l.ctxRec (fieldAt d 1 1)).isNone 1 ++ hitRef (!l.maySignal k (fieldAt d 0x10 2)) 0x10 ++
      hitRef (l.syncRec (fieldAt d 0x12 2)).isNone 0x12
  else if op = 0x41 then
    hitRef (l.syncRec (fieldAt d 0x10 2)).isNone 0x10 ++ hitRef (!l.maySignal k (fieldAt d 0x12 2)) 0x12
  else if op = 0x70 then hitRef (((l.recs 12)[fieldAt d 1 1]?).elim true (fun r => fieldAt r 0 1 != k)) 1
  else if opHasTiles d then hitRef (decide (fieldAt d 9 1 ≤ tiles) && decide (tiles < fieldAt d 8 1 + fieldAt d 9 1)) 8
  else []) ++
  (if op = 0x30 then seqWeightHits die d else []) ++
  (l.opRanges d).flatMap (fun x => hitRef (x.2.1 % 64 != 0 || (decide (0 < x.2.2) && !l.inShares k die x.2.1 x.2.2)) x.1)

/-- The references of a schedule step: its programme, its sync IDs, and its unit on every descriptor (R112, R166).
(log entry 17: DESIGN CHOICE in part) -/
def Layout.stepRefs (l : Layout) (k : Nat) (t : Bytes) : List Hit :=
  let p := fieldAt t 4 2
  let u := fieldAt t 6 2
  let die := (l.progRec p).elim 0 (fun r => fieldAt r 1 1)
  hitRef (l.progAbsent k p) 4 ++
  hitRef ((l.progOps p).any (fun d =>
    (opHasTiles d && decide (shareCount (l.sharesOf k die 0) < u + fieldAt d 8 1 + fieldAt d 9 1)) ||
      (fieldAt d 0 1 == 0x30 && decide (l.engineUnits k die 2 ≤ u)))) 6 ++
  hitRef (l.syncAbsent (fieldAt t 8 2)) 8 ++ hitRef (l.noSignal k (fieldAt t 0xA 2)) 0xA

/-- Bytes of a solver matrix image (R303). -/
def matrixBytes (rows blocks : Nat) : Nat := alignUp 64 (4 * (rows + 1)) + alignUp 64 (2 * blocks) + 64 * blocks

/-- The addresses of a SOLVER record with their lengths (R302 to R304, R313). -/
def solverRanges (r : Bytes) : List (Nat × Nat) :=
  let n := 4 * fieldAt r 4 2
  let m := 4 * fieldAt r 6 2
  let ic0 := bit (fieldAt r 1 1) 1
  [(0x30, matrixBytes (fieldAt r 4 2) (fieldAt r 8 4)), (0x38, 4 * n), (0x40, 4 * n),
    (0x44, 64 + 48 * n + 24 * m + (if ic0 then 128 * fieldAt r 8 4 + 8 * n else 0)), (0x48, 64)] ++
  (if bit (fieldAt r 1 1) 2 then [(0x34, matrixBytes (fieldAt r 6 2) (fieldAt r 0xC 4)), (0x3C, 8 * m)] else [])

/-- The references of a LOOPS record: the slot's engine, and its addresses (R319, R340). -/
def Layout.loopRefs (l : Layout) (r : Bytes) : List Hit :=
  let k := fieldAt r 0 1
  let held := (l.sharesOf k 0 2).any (fun h => h.engine == 9 && decide (h.first ≤ fieldAt r 1 1) && decide (fieldAt r 1 1 < h.first + h.count))
  hitRef (!held) 1 ++
  [0x10, 0x18, 0x20].flatMap (fun o => hitRef (fieldAt r o 1 == 1 && !l.inSram k 0 (fieldAt r (o + 4) 4) 4) (o + 4)) ++
  hitRef (!l.inSram k 0 (fieldAt r 0x2C 4) 16) 0x2C ++
  hitRef (fieldAt r 0x30 4 != 0 && !l.inSram k 0 (fieldAt r 0x30 4) 32) 0x30

/-- The fault of a PREFETCH record's path: it is absent from the context, or a RESIDENT one whose programme runs on another die
(R191). (log entry 17: DESIGN CHOICE in part) (log entry 18: DESIGN CHOICE in part) -/
def Layout.pathRefBad (l : Layout) (r : Bytes) : Bool :=
  let path := (l.recs 7).find? (fun p => fieldAt p 0 1 == fieldAt r 0 1 && fieldAt p 2 2 == fieldAt r 6 2)
  let dieOf := fun (p : Nat) => (l.progRec p).map (fun q => fieldAt q 1 1)
  path.elim true (fun p => fieldAt p 1 1 == 1 && dieOf (fieldAt p 4 2) != dieOf (fieldAt r 4 2))

/-- The references of a record within the layout. (log entry 17: DESIGN CHOICE in part) -/
def Layout.recordRefs (l : Layout) (x : Sec) (_ : Nat) (r : Bytes) : List Hit :=
  let k := fieldAt r 0 1
  let owner := hitRef (l.ctxRec k).isNone 0
  match x.type with
  | 2 => owner ++ hitRef (!((l.ctxRec k).elim 0 (fun c => fieldAt c 2 1)).testBit (fieldAt r 1 1)) 1
  | 3 => owner ++ (stepsOf x r).flatMap (fun p => inBlob p.1 (l.stepRefs k p.2))
  | 4 => owner ++ hitRef (l.sharesOf k (fieldAt r 1 1) 5).isEmpty 1 ++
      (opsOf x r).flatMap (fun p => inBlob p.1 (l.opRefs k (fieldAt r 1 1) p.2))
  | 5 => if k = 0xFF then [] else owner
  | 6 =>
    owner ++ hitRef (decide ((l.progOps (fieldAt r 4 2)).length ≤ fieldAt r 2 2)) 2 ++ hitRef (l.progAbsent k (fieldAt r 4 2)) 4 ++
      hitRef (l.pathRefBad r) 6
  | 7 => owner ++ hitRef (fieldAt r 1 1 == 1 && l.progAbsent k (fieldAt r 4 2)) 4
  | 8 =>
    let o := fieldAt r 1 1
    hitRef (l.ctxRec o).isNone 1 ++
      hitRef (fieldAt r 0x18 4 != 0 && !l.inSram o 0 (fieldAt r 0x14 4) (16 * fieldAt r 0x18 4)) 0x14
  | 9 => hitRef (l.engineOwner 7).isNone 0
  | 10 =>
    let o := l.engineOwner 6
    hitRef o.isNone 0 ++ hitRef (o.elim (l.syncAbsent (fieldAt r 0x2A 2)) (fun k => l.noSignal k (fieldAt r 0x2A 2))) 0x2A ++
      hitRef (!(o.elim false (fun k => l.inSram k 0 (fieldAt r 0x2C 4) (16 * (fieldAt r 0x18 2 * fieldAt r 0x1A 2 * fieldAt r 0x1C 2))))) 0x2C
  | 11 => owner ++ l.loopRefs r
  | 12 => owner ++ hitRef (l.engineUnits k 0 8 == 0) 0 ++
      (solverRanges r).flatMap (fun p => hitRef (!l.inSram k 0 (fieldAt r p.1 4) p.2) p.1)
  | 13 => owner ++ hitRef (decide (fieldAt r 1 1 < 2) && !l.inShares k 0 (fieldAt r 0x14 4) (16 + 16 * fieldAt r 6 1)) 0x14 ++
      hitRef (l.noSignal k (fieldAt r 0x30 2)) 0x30
  | 14 =>
    if fieldAt r 1 1 = 3 then owner ++ hitRef (l.progAbsent k (fieldAt r 2 2)) 2
    else if fieldAt r 1 1 = 0 then
      let ring := 128 * fieldAt r 0x28 2
      (if fieldAt r 9 1 = 0 then []
        else hitRef (!l.inAnyShare (fieldAt r 0x20 4) ring) 0x20 ++ hitRef (!l.inAnyShare (fieldAt r 0x24 4) ring) 0x24) ++
        hitRef (fieldAt r 0x3C 4 != 0 && !l.inAnyShare (fieldAt r 0x3C 4) 2) 0x3C
    else []
  | 16 => owner ++ hitRef (decide (shareCount (l.sharesOf k (fieldAt r 1 1) 4) ≤ fieldAt r 4 2)) 4
  | _ => []

/-- The references of a record to what stands outside the image: the rings, areas and fields in the owner's mappings (R232,
R255, R259), and for a partial image the loop slot that its context owns in the active layout and the path of an active PREFETCH
record whose PATHS records it replaces. (log entry 17: DESIGN CHOICE in part) -/
def State.mapRefs (s : State) (l : Layout) (partial' : Bool) (secs : List Sec) (x : Sec) (_ : Nat) (r : Bytes) : List Hit :=
  let k := fieldAt r 0 1
  match x.type with
  | 7 =>
    let listed := secs.any (fun y => y.type == 6 && y.recs.any (fun q => fieldAt q 0 1 == k))
    hitRef (partial' && !listed && (l.recs 6).any (fun q => fieldAt q 0 1 == k && l.pathRefBad q)) 0
  | 8 =>
    let o := fieldAt r 1 1
    hitRef (fieldAt r 0x1C 4 != 0 && !s.inMaps o (fieldAt r 0x20 8) (16 * fieldAt r 0x1C 4) true) 0x20 ++
      hitRef (!s.inMaps o (fieldAt r 0x30 8) (16 * fieldAt r 0x2C 4) true) 0x30 ++
      hitRef (!s.inMaps o (fieldAt r 0x38 8) (2 * (fieldAt r 0x40 2 * fieldAt r 0x42 2 * fieldAt r 0x44 2)) true) 0x38
  | 10 =>
    let o := (l.engineOwner 6).getD 0
    (List.range (fieldAt r 2 1)).flatMap (fun i =>
      let a := fieldAt r 0x20 4 + 128 * i
      let d := slice x.blob a 128
      inBlob a (hitRef (!s.inMaps o (fieldAt d 4 8) (fieldAt d 0xC 2 * fieldAt d 0x10 4) false) 4))
  | 11 => hitRef (partial' && !(s.recs 11).any (fun q => loopNumber q == loopNumber r && fieldAt q 0 1 == k)) 2
  | 13 => hitRef (fieldAt r 0x20 2 != 0 && !s.inMaps k (fieldAt r 0x18 8) (fieldAt r 0x20 2 * fieldAt r 0x24 4) false) 0x18
  | _ => []

/-! ### Overlaps and capacities (0x0A0E, 0x0A0F) -/

/-- A share that overlaps an earlier one of the same resource (R69). -/
def overlapRecord (x : Sec) (i : Nat) (r : Bytes) : List Hit :=
  if x.type = 2 then
    let h := shareOf r
    hitIf ((x.recs.take i).any (fun q =>
      let g := shareOf q
      g.die == h.die && g.kind == h.kind && g.engine == h.engine && decide (g.first < h.first + h.count) &&
        decide (h.first < g.first + g.count))) 4 0x0A0E
  else []

/-- The units of a resource that a die has (ID_CAP_COMPUTE, ID_CAP_MEM, ID_CAP_OPS, ID_CAP_ENGINES).
(log entry 18: DESIGN CHOICE in part) -/
def shareCapacity (h : Share) : Nat :=
  match h.kind with
  | 0 => [8, 0, 16, 48, 48].getD h.die 0
  | 1 => 16 * [56, 256, 64, 32, 32].getD h.die 0
  | 2 =>
    (match h.engine with
    | 0 => [0, 0, 0, 1, 1]
    | 1 => [0, 0, 1]
    | 2 => [2, 0, 4]
    | 3 => [0, 0, 1]
    | 4 => [0, 0, 0, 1, 1]
    | 5 => [0, 0, 0, 1, 1]
    | 9 => [4]
    | _ => [1]).getD h.die 0
  | 3 => 4096
  | _ => [4096, 4096, 4096, 2048, 2048].getD h.die 0

/-- Ten times the peak rate of a resource in bytes per ns (R208). (log entry 18: DESIGN CHOICE in part) -/
def State.peakRate (s : State) (res : Nat) : Nat :=
  if res = 9 then (if s.fld Fld.PCIE_LINK_STATUS_width = 4 then 300 else 600)
  else [2560, 64, 2560, 25600, 10240, 10240, 24576, 12288, 96].getD res 0

/-- How often a class-0 CLASSES record counts: once, or for a 0xFF record once for every context of class-0 default class without a
record of its own for class 0 on that resource (R208). (log entry 18: DESIGN CHOICE in part) -/
def Layout.classWeight (l : Layout) (r : Bytes) : Nat :=
  if fieldAt r 0 1 = 0xFF then
    ((l.recs 1).filter (fun c => fieldAt c 1 1 == 0 && !(l.recs 5).any (fun q =>
      fieldAt q 0 1 == fieldAt c 0 1 && fieldAt q 1 1 == 0 && fieldAt q 2 1 == fieldAt r 2 1))).length
  else 1

/-- True where the class-0 budgets of some records on a resource exceed half of its peak rate (R208).
(log entry 18: DESIGN CHOICE in part) -/
def State.overHalf (s : State) (l : Layout) (rs : List Bytes) (res : Nat) : Bool :=
  let sum := (rs.filter (fun r => fieldAt r 1 1 == 0 && fieldAt r 2 1 == res)).foldl (fun (a : Nat × Nat) r =>
    (a.1 * max (fieldAt r 4 4) 1 + l.classWeight r * fieldAt r 8 4 * a.2, a.2 * max (fieldAt r 4 4) 1)) (0, 1)
  decide (s.peakRate res * sum.2 < 20 * sum.1)

/-- Capacities (R63, R208); the budget sum is at fault at the first record that takes it too far.
(log entry 18: DESIGN CHOICE in part) -/
def State.capacityRecord (s : State) (l : Layout) (x : Sec) (i : Nat) (r : Bytes) : List Hit :=
  match x.type with
  | 1 => hitIf (decide (63 < fieldAt r 0 1)) 0 0x0A0F ++ hitIf (decide (4096 < fieldAt r 0xC 2)) 0xC 0x0A0F
  | 2 => let h := shareOf r; hitIf (decide (shareCapacity h < h.first + h.count)) (if shareCapacity h < h.first then 4 else 8) 0x0A0F
  | 5 => hitIf (fieldAt r 1 1 == 0 && s.overHalf l (x.recs.take (i + 1)) (fieldAt r 2 1)) 8 0x0A0F
  | _ => []

/-! ### Dies, schedules and paths (0x0A10 to 0x0A12) -/

/-- True where a die is not in service. (log entry 18: DESIGN CHOICE in part) -/
def State.dieAbsent (s : State) (die : Nat) : Bool := decide (4 < die) || !s.diesPresent.testBit die

/-- The die of a CLASSES resource: a link's spoke die, or the die of the memory. -/
def resourceDie (res : Nat) : Nat := [0, 0, 0, 2, 3, 4].getD res 1

/-- Dies that a record names (0x0A10). -/
def State.dieRecord (s : State) (x : Sec) (_ : Nat) (r : Bytes) : List Hit :=
  let bad := fun (die off : Nat) => hitIf (s.dieAbsent die) off 0x0A10
  match x.type with
  | 1 => hitIf ((List.range 5).any (fun d => bit (fieldAt r 2 1) d && s.dieAbsent d)) 2 0x0A10
  | 2 => bad (fieldAt r 1 1) 1
  | 4 => bad (fieldAt r 1 1) 1
  | 5 => bad (resourceDie (fieldAt r 2 1)) 2
  | 16 => bad (fieldAt r 1 1) 1
  | _ => []

/-- Schedules (R76 to R78): a link domain, the worst-case execution time against the period, and the order of the steps.
(log entry 18: DESIGN CHOICE in part) -/
def scheduleRecord (x : Sec) (_ : Nat) (r : Bytes) : List Hit :=
  if x.type = 3 then
    let wcet := fieldAt r 0xC 4
    let late := (clockAt (fieldAt r 2 1) (fieldAt r 1 1)).elim false (fun f =>
      decide (fieldAt r 4 4 * f < wcet * 16000000 + fieldAt r 0x10 4 * f))
    let steps := stepsOf x r
    hitIf ([5, 19, 24, 30, 36].contains (fieldAt r 2 1)) 2 0x0A11 ++ hitIf (fieldAt r 4 4 != 0 && late) 0xC 0x0A11 ++
    (steps.zipIdx).flatMap (fun p =>
      let t := fieldAt p.1.2 0 4
      inBlob p.1.1 (hitIf (decide (wcet ≤ t) || (decide (0 < p.2) && decide (t < fieldAt (steps.getD (p.2 - 1) (0, [])).2 0 4))) 0 0x0A11))
  else []

/-- Path rules and the fields whose values a class forbids (0x0A12). (log entry 18: DESIGN CHOICE in part) -/
def Layout.pathRecord (l : Layout) (x : Sec) (_ : Nat) (r : Bytes) : List Hit :=
  match x.type with
  | 1 => hitIf (decide (fieldAt r 1 1 < 4) && fieldAt r 4 4 == 0) 4 0x0A12 ++
      hitIf (decide (fieldAt r 1 1 < 3) && fieldAt r 8 1 == 2) 8 0x0A12
  | 6 => hitIf (decide (fieldAt r 1 1 < 2) && (l.recs 7).any (fun p => fieldAt p 0 1 == fieldAt r 0 1 && fieldAt p 2 2 == fieldAt r 6 2 && fieldAt p 1 1 == 2)) 6 0x0A12
  | 7 => hitIf (fieldAt r 1 1 == 0 && !bit (fieldAt r 6 2) 0) 6 0x0A12 ++
      hitIf (fieldAt r 1 1 == 2 && (l.recs 6).any (fun p => decide (fieldAt p 1 1 < 2) &&
        fieldAt p 0 1 == fieldAt r 0 1 && fieldAt p 6 2 == fieldAt r 2 2)) 1 0x0A12
  | _ => []

/-! ### Arithmetic parameters (0x0105 to 0x0107) -/

/-- The limits of R121 and R123 on a stem or argmax descriptor. (log entry 19: DESIGN CHOICE in part) -/
def stemHits (o : TileOp) : List Hit :=
  let g := convGeomOf o.geom
  let bad := fun (c : Bool) (off : Nat) => hitIf c off 0x0107
  let fmts := fun (f : Nat) (fs : List Format) => !((formatOf f).elim true fs.contains)
  if o.opcode = 0x10 then
    bad (fmts o.fmtA [.uint8, .int8, .int12, .int16] || fmts o.fmtB [.int8, .int4]) 1 ++ bad (outRange o.n 1 256) 0x10 ++
      bad (outRange o.k 1 8) 0x14 ++ bad (decide (11 < g.kh) || decide (11 < g.kw) || decide (1 < g.dh) || decide (1 < g.dw)) 0x3C
  else if o.opcode = 0x11 ∨ o.opcode = 0x12 then
    bad (fmts o.fmtA [.int8, .uint8, .int4, .int16] || fmts o.fmtB [.int8, .int4]) 1 ++ bad (outRange o.n 1 16) 0x10 ++
      bad (outRange o.k 1 4096) 0x14 ++ bad (decide (3 < g.kh) || decide (3 < g.kw) || decide (2 < g.sh) || decide (2 < g.sw)) 0x3C
  else if o.opcode = 0x20 then
    bad (fmts o.fmtA [.int4, .int8, .uint8, .int16, .int32]) 1 ++ bad (outRange o.k 1 4096) 0x14
  else []

/-- True where a granularity code is reserved, or not 0 on a format that takes no shared scale (R36).
(log entry 19: DESIGN CHOICE in part) -/
def granBad (f : Nat) (g : Nat) : Bool := decide (5 < g) || (g != 0 && !((formatOf f).elim true formatScaled))

/-- The parameters of a tile, stem or argmax descriptor (R48, R114, R121, R123).
(log entry 19: DESIGN CHOICE in part) -/
def tileParams (tiles : Nat) (d : Bytes) : List Hit :=
  let o := tileOpOf d
  let hasB := o.opcode != 3 && o.opcode != 0x20
  let hasO := o.opcode != 0x20
  let matrix := fun (f : Nat) => (formatOf f).elim true formatMatrix
  let fo := formatOf o.fmtOut
  let image := o.opcode == 2 || decide (0x10 ≤ o.opcode)
  let bad := fun (c : Bool) (off : Nat) => hitIf c off 0x0107
  hitIf (o.fmtA == 15 || o.fmtB == 15 || (hasB && (!matrix o.fmtA || !matrix o.fmtB)) ||
    (o.opcode == 3 && (formatOf o.fmtA == some .acc40 || formatOf o.fmtA == some .int48))) 1 0x0105 ++
  hitIf (o.fmtOut == 15) 2 0x0105 ++
  hitIf (granBad o.fmtA o.granA || (if hasB then granBad o.fmtB o.granB else decide (5 < o.granB))) 3 0x0106 ++
  hitIf (granBad o.fmtOut o.granO || (o.granO == 1 && !o.dyn) || (o.dyn && !(fo.elim true formatScaled))) 4 0x0106 ++
  bad (o.func == 9 && (!(fo.elim true formatUnsigned) || decide (65536 < o.n))) 6 ++
  bad (o.func == 9 && fo.elim false (fun f => decide (formatHi f < (2 : Int) ^ o.fo))) 7 ++
  bad (o.dyn && fo == some .bin1) 4 ++
  (if o.opcode ≤ 3 then bad (outRange o.tileN 1 48 || decide (tiles < o.tileN)) 9 ++ bad (o.opcode == 3 && o.split == 2) 0xA else []) ++
  bad (o.argM != 0xFF && decide (28 < o.argM)) 0xB ++
  bad (if image then o.m % 65536 == 0 || o.m / 65536 == 0 else outRange o.m 1 (2 ^ 24)) 0xC ++
  bad (hasO && outRange o.n 1 (2 ^ 20)) 0x10 ++ bad (o.opcode != 3 && outRange o.k 1 (2 ^ 20)) 0x14 ++ stemHits o

/-- The parameters of a SEQ_CHUNK descriptor (R166). (log entry 19: DESIGN CHOICE in part) -/
def seqParams (tiles : Nat) (d : Bytes) : List Hit :=
  let sel := bits (fieldAt d 1 1) 0 2 == 2
  let bad := fun (c : Bool) (off : Nat) => hitIf c off 0x0107
  let fw := bits (fieldAt d 4 1) 0 4
  let fx := bits (fieldAt d 5 1) 0 4
  let matrix := fun (f : Nat) => (formatOf f).elim false formatMatrix
  let zero := fun (off n : Nat) => bad (sel && fieldAt d off n != 0) off
  hitIf (!matrix fw || !([3, 6, 9].contains (bits (fieldAt d 4 1) 4 4))) 4 0x0105 ++ hitIf (!sel && !matrix fx) 5 0x0105 ++
  hitIf (!sel && granBad fx (bits (fieldAt d 5 1) 4 3)) 5 0x0106 ++
  bad (decide (63 < fieldAt d 2 1)) 2 ++ bad (fieldAt d 3 1 != 0xFF && decide (30 < fieldAt d 3 1)) 3 ++ zero 5 1 ++
  bad (fieldAt d 7 1 != 0xFF && decide (28 < fieldAt d 7 1)) 7 ++ zero 8 2 ++
  bad (!sel && (outRange (fieldAt d 9 1) 1 48 || decide (tiles < fieldAt d 9 1))) 9 ++ bad (outRange (fieldAt d 0xA 2) 1 256) 0xA ++
  bad (outRange (fieldAt d 0xC 2) 16 (if sel then 16384 else 4096) || fieldAt d 0xC 2 % 16 != 0) 0xC ++ zero 0xE 2 ++
  bad (!sel && outRange (fieldAt d 0xE 2) 1 16384) 0xE ++ bad (outRange (fieldAt d 0x10 4) 1 65536) 0x10 ++ zero 0x18 4 ++ zero 0x24 4

/-- The parameters of a KV_APPEND or ATTN descriptor (R149). (log entry 19: DESIGN CHOICE in part) -/
def kvParams (d : Bytes) : List Hit :=
  let bad := fun (c : Bool) (off : Nat) => hitIf c off 0x0107
  if fieldAt d 0 1 = 0x50 then
    let f := bits (fieldAt d 3 1) 0 4
    hitIf (f == 15) 3 0x0105 ++ hitIf (granBad f (bits (fieldAt d 3 1) 4 3)) 3 0x0106 ++ bad (f != 9 && f != 0xC) 3 ++
      bad (outRange (fieldAt d 8 2) 1 256) 8
  else
    let q := bits (fieldAt d 0xA 1) 0 4
    hitIf (q == 15 || bits (fieldAt d 0xA 1) 4 4 == 15) 0xA 0x0105 ++ bad (outRange (fieldAt d 3 1) 1 16) 3 ++
      bad (outRange (fieldAt d 8 2) 1 256) 8 ++ bad (q != 6 && q != 9) 0xA

/-- The ring descriptors of a layout: programme record, opcode, context, address, slots, put and take objects (R125).
(log entry 18: DESIGN CHOICE in part) -/
def Layout.rings (l : Layout) : List (Nat × Nat × Nat × Nat × Nat × Nat × Nat) :=
  (l.recs 4).zipIdx.flatMap (fun p => ((l.progOps (fieldAt p.1 2 2)).filter (fun d => fieldAt d 0 1 == 0x40 || fieldAt d 0 1 == 0x41)).map
    (fun d => (p.2, fieldAt d 0 1, fieldAt p.1 0 1, fieldAt d 8 8, fieldAt d 2 2, fieldAt d 0x10 2, fieldAt d 0x12 2)))

/-- The parameters of a hand-off or speculation descriptor of programme record `i` (R125, R127).
(log entry 18: DESIGN CHOICE in part) -/
def Layout.handoffParams (l : Layout) (i k : Nat) (d : Bytes) : List Hit :=
  let bad := fun (c : Bool) (off : Nat) => hitIf c off 0x0107
  let initial := fun (id : Nat) => (l.syncRec id).elim 0 (fun r => fieldAt r 8 8)
  let op := fieldAt d 0 1
  let twice := l.rings.any (fun (j, op', k', va, n, p, t) => decide (j ≤ i) && p == fieldAt d 0x10 2 && t == fieldAt d 0x12 2 &&
    (n != fieldAt d 2 2 || (op' == op && (k' != k || va != fieldAt d 8 8))))
  if op = 0x42 then bad (outRange (fieldAt d 0x24 2) 1 256) 0x24
  else
    bad (!powerIn (fieldAt d 2 2) 1 4096) 2 ++ (if op = 0x40 then bad (decide (16 < fieldAt d 4 1)) 4 else bad (fieldAt d 5 1 == 0) 5) ++
    bad (initial (fieldAt d 0x10 2) != 0 || twice) 0x10 ++ bad (initial (fieldAt d 0x12 2) != 0) 0x12 ++
    (if op = 0x40 then bad (fieldAt d 0x14 4 % 64 != 0) 0x14 else bad (outRange (fieldAt d 0x24 2) 1 256) 0x24)

/-- The parameters of a PLAN_BATCH descriptor (R283). (log entry 19: DESIGN CHOICE in part) -/
def Layout.planParams (l : Layout) (d : Bytes) : List Hit :=
  let bad := fun (c : Bool) (off : Nat) => hitIf c off 0x0107
  bad (((l.recs 8).head?).elim false (fun r => decide (fieldAt r 0x28 2 ≤ fieldAt d 2 2))) 2 ++
    bad (fieldAt d 4 1 != 0xFF && decide (28 < fieldAt d 4 1)) 4 ++ bad (fieldAt d 5 1 != 0xFF && decide (30 < fieldAt d 5 1)) 5 ++
    bad (outRange (fieldAt d 0xC 2) 1 4096) 0xC

/-- The arithmetic parameters of a record. (log entry 19: DESIGN CHOICE in part) -/
def Layout.paramRecord (l : Layout) (x : Sec) (i : Nat) (r : Bytes) : List Hit :=
  if x.type = 4 then
    let k := fieldAt r 0 1
    let tiles := shareCount (l.sharesOf k (fieldAt r 1 1) 0)
    (opsOf x r).flatMap (fun p =>
      let op := fieldAt p.2 0 1
      inBlob p.1 (if op < 0x30 then tileParams tiles p.2 else if op < 0x40 then seqParams tiles p.2
        else if op < 0x50 then l.handoffParams i k p.2 else if op < 0x60 then kvParams p.2
        else if op = 0x60 then l.planParams p.2 else []))
  else []

/-! ### Engine sections -/

/-- A STREAMS record (R231, R232). -/
def streamHits (x : Sec) (i : Nat) (r : Bytes) : List Hit :=
  let bad := fun (c : Bool) (off : Nat) => hitIf c off 0x0107
  let kind := fieldAt r 1 1
  let port := fieldAt r 2 1
  let joint := decide (kind < 2)
  let ring := decide (1 < kind) || bit (fieldAt r 3 1) 7
  let zero := fun (c : Bool) (off n : Nat) => bad (c && fieldAt r off n != 0) off
  let same := fun (q : Bytes) => decide (fieldAt q 1 1 < 2) && fieldAt q 2 1 == port
  let cmds := x.recs.filter (fun q => same q && fieldAt q 1 1 == 0)
  let before := x.recs.take i
  let vlan := bit (fieldAt r 0x23 1) 1
  bad (if joint then decide (7 < port) else if kind = 2 then decide (11 < port) else decide (3 < port)) 2 ++
  bad (if kind = 3 then decide (3 < fieldAt r 3 1 % 16) else kind != 1 && fieldAt r 3 1 % 16 != 0) 3 ++
  zero (!joint) 4 2 ++ bad (if joint then outRange (fieldAt r 6 1) 1 88 else fieldAt r 6 1 != 0) 6 ++
  bad (if kind = 1 then fieldAt r 7 1 == 0 else fieldAt r 7 1 != 0) 7 ++
  bad (if joint then outRange (fieldAt r 8 4) 25000 10000000 else fieldAt r 8 4 != 0) 8 ++
  bad (if joint then decide (fieldAt r 8 4 ≤ fieldAt r 0xC 4) else fieldAt r 0xC 4 != 0) 0xC ++
  bad (outRange (fieldAt r 0x10 4) 1 2000000000) 0x10 ++ zero (!joint) 0x14 4 ++ zero (!ring) 0x18 8 ++
  bad (if ring then !powerIn (fieldAt r 0x20 2) 2 256 else fieldAt r 0x20 2 != 0) 0x20 ++ zero (kind != 3) 0x22 1 ++
  bad ((bit (fieldAt r 0x23 1) 0 && kind != 3) || (vlan && kind == 3)) 0x23 ++
  bad (if ring then fieldAt r 0x24 4 == 0 || fieldAt r 0x24 4 % 64 != 0 else fieldAt r 0x24 4 != 0) 0x24 ++
  zero (kind == 3) 0x28 6 ++ zero (!vlan) 0x2E 2 ++
  (if joint then
    bad (cmds.length == 0 || (kind == 0 && before.any (fun q => same q && fieldAt q 1 1 == 0)) ||
      (kind == 1 && decide (16 ≤ (before.filter (fun q => same q && fieldAt q 1 1 == 1)).length))) 2 ++
    bad (before.any (fun q => same q && fieldAt q 4 2 == fieldAt r 4 2)) 4 ++
    bad (kind == 1 && cmds.any (fun q => fieldAt q 8 4 != fieldAt r 8 4)) 8
  else [])

/-- A MAPCFG record (R259). -/
def mapHits (r : Bytes) : List Hit :=
  let bad := fun (c : Bool) (off : Nat) => hitIf c off 0x0588
  let n := fieldAt r 0x18 4
  let m := fieldAt r 0x1C 4
  bad (fieldAt r 0 1 != 0xFF) 0 ++ bad (outRange (fieldAt r 2 1) 1 14) 2 ++ bad (outRange (fieldAt r 4 2) 5 100) 4 ++
  bad (outRange (fieldAt r 6 1) 1 15) 6 ++ bad (decide (6 < fieldAt r 7 1)) 7 ++ bad (fieldAt r 0x14 4 % 64 != 0) 0x14 ++
  bad (decide (4194304 < n) || n % 4 != 0 || outRange (n + m) 16 8388608) 0x18 ++ bad (decide (8388608 < m) || m % 4 != 0) 0x1C ++
  bad (m == 0 && fieldAt r 0x20 8 != 0) 0x20 ++ bad (outRange (fieldAt r 0x28 2) 1 1024) 0x28 ++
  bad (!powerIn (fieldAt r 0x2C 4) 1024 1048576) 0x2C ++
  [0x40, 0x42, 0x44].flatMap (fun o => bad (outRange (fieldAt r o 2) 8 256 || fieldAt r o 2 % 8 != 0) o) ++
  bad (decide (4 < fieldAt r 0x46 1)) 0x46 ++ bad (decide (7 < fieldAt r 0x47 1)) 0x47 ++ bad (decide (15 < fieldAt r 0x48 1)) 0x48

/-- The squared norm of integers outside 2^60 ± 2^34. -/
def normBad (q : List Int) : Bool :=
  let n := dot q q
  decide (n < 2 ^ 60 - 2 ^ 34) || decide ((2 : Int) ^ 60 + 2 ^ 34 < n)

/-- The robot model of a PLANTAB blob (R279, R280, R282). -/
def modelHits (b : Bytes) : List Hit :=
  let bad := fun (c : Bool) (off : Nat) => inBlob 0 (hitIf c off 0x0510)
  let j := fieldAt b 0 1
  bad (outRange j 1 48) 0 ++ bad (outRange (fieldAt b 1 1) 1 64 || decide (b.length < 64 + 64 * j + 32 * fieldAt b 1 1)) 1 ++
  bad (outRange (fieldAt b 4 4) 1000000 500000000) 4 ++
  (List.range j).flatMap (fun i =>
    let a := 64 + 64 * i
    let p := planJointOf (slice b a 64)
    bad (p.parent != 0xFF && decide (i ≤ p.parent)) a ++ bad (decide (2 < p.kind)) (a + 1) ++
      (p.rot.zipIdx).flatMap (fun q => bad (normBad q.1) (a + 4 + 12 * q.2)) ++ bad (decide (p.qMax < p.qMin)) (a + 0x34)) ++
  (List.range (fieldAt b 1 1)).flatMap (fun i => let a := 64 + 64 * j + 32 * i; bad (decide (j ≤ fieldAt b a 1)) a)

/-- A PLANTAB record (R279, R281, R282). (log entry 18: DESIGN CHOICE in part) -/
def Layout.planHits (l : Layout) (x : Sec) (i : Nat) (r : Bytes) : List Hit :=
  let bad := fun (c : Bool) (off : Nat) => hitIf c off 0x0510
  let j := fieldAt x.blob 0 1
  let c := fieldAt x.blob 1 1
  let range := fun (off len : Nat) =>
    bad (fieldAt r off 4 % 16 != 0 || decide (fieldAt r off 4 < 64 + 64 * j + 32 * c) || decide (x.blob.length < fieldAt r off 4 + len)) off
  (if i = 0 then modelHits x.blob else []) ++ bad (l.engineOwner 7 != some (fieldAt r 0 1)) 0 ++
  bad (outRange (fieldAt r 4 4) 100000 10000000) 4 ++ [0xA, 0xC, 0xE].flatMap (fun o => bad (decide (32768 < fieldAt r o 2)) o) ++
  range 0x10 (16 * j) ++ bad (fieldAt r 0x14 4 != 16 * j) 0x14 ++ range 0x18 (alignUp 16 (4 * c)) ++
  bad (fieldAt r 0x1C 4 != alignUp 16 (4 * c)) 0x1C

/-- The cycle bound of a fusion slot (R255), with the leaf edge of MAPCFG. -/
def fusionBound (leafMm : Nat) (r : Bytes) (ds : List Bytes) : Nat :=
  4000 + ceilDiv (fieldAt r 0x18 2 * fieldAt r 0x1A 2 * fieldAt r 0x1C 2) 4 +
    (ds.map (fun d => fieldAt d 0x50 4 * (8 + ceilDiv (2 * fieldAt d 0x4C 4 * 1000) (max leafMm 1 * 65536)))).sum

/-- A fusion stream descriptor (R246). (log entry 19: DESIGN CHOICE in part) -/
def fusionStreamHits (ds : List Bytes) (d : Bytes) : List Hit :=
  let bad := fun (c : Bool) (off : Nat) => hitIf c off 0x0810
  let kind := fieldAt d 0 1
  let isKind := fun (i k : Nat) => (ds[i]?).elim false (fun q => fieldAt q 0 1 == k)
  let image := kind == 2 || kind == 3
  bad (if kind = 0 then fieldAt d 2 1 != 0xFF else !isKind (fieldAt d 2 1) 0) 2 ++
  bad (if kind = 3 then !isKind (fieldAt d 3 1) 2 else fieldAt d 3 1 != 0xFF) 3 ++ bad (!powerIn (fieldAt d 0xC 2) 2 256) 0xC ++
  bad (decide (15 < fieldAt d 0xE 1)) 0xE ++ bad (if kind = 2 then outRange (fieldAt d 0xF 1) 1 16 else fieldAt d 0xF 1 != 1) 0xF ++
  bad (fieldAt d 0x10 4 == 0 || fieldAt d 0x10 4 % 64 != 0) 0x10 ++ bad (fieldAt d 0x14 4 == 0) 0x14 ++
  hitIf (decide (2000000000 < fieldAt d 0x14 4)) 0x14 0x0107 ++ bad (normBad (int3 d 0x18 ++ [sfieldAt d 0x24 4])) 0x18 ++ bad (image && outRange (fieldAt d 0x34 2) 1 4096) 0x34 ++
  bad (image && outRange (fieldAt d 0x36 2) 1 4096) 0x36 ++
  bad (kind == 2 && (decide (sfieldAt d 0x38 4 ≤ 0) || decide (sfieldAt d 0x3C 4 ≤ 0))) 0x38 ++
  bad (decide (2 ^ 23 < fieldAt d 0x4C 4)) 0x4C ++ bad (outRange (fieldAt d 0x50 4) 1 1048576) 0x50

/-- A FUSIONGRID record (R245, R246, R255). (log entry 19: DESIGN CHOICE in part) -/
def Layout.fusionHits (l : Layout) (x : Sec) (r : Bytes) : List Hit :=
  let bad := fun (c : Bool) (off : Nat) => hitIf c off 0x0810
  let ds := (List.range (fieldAt r 2 1)).map (fun i => slice x.blob (fieldAt r 0x20 4 + 128 * i) 128)
  let dims := [0x18, 0x1A, 0x1C]
  let leaf := ((l.recs 8).head?).elim 1 (fun c => fieldAt c 4 2)
  bad (fieldAt r 0 1 != 0xFF) 0 ++ bad (decide (7 < fieldAt r 1 1)) 1 ++ bad (outRange (fieldAt r 2 1) 1 32) 2 ++
  bad ((ds[fieldAt r 3 1]?).elim true (fun d => fieldAt d 0 1 != 0)) 3 ++
  bad (outRange (fieldAt r 4 4) 1000000 100000000 || decide (fieldAt r 4 4 < fusionBound leaf r ds)) 4 ++
  bad (decide (fieldAt r 4 4 ≤ fieldAt r 8 4)) 8 ++ bad (decide (min (8 * fieldAt r 4 4) 100000000 < fieldAt r 0xC 4)) 0xC ++
  bad (decide (50000000 < fieldAt r 0x10 4)) 0x10 ++ bad (outRange (fieldAt r 0x14 4) 1 100000000) 0x14 ++
  dims.flatMap (fun o => bad (outRange (fieldAt r o 2) 8 512 || fieldAt r o 2 % 8 != 0) o) ++
  bad (decide (1048576 < fieldAt r 0x18 2 * fieldAt r 0x1A 2 * fieldAt r 0x1C 2)) 0x18 ++
  bad (fieldAt r 0x28 2 != 0 && fieldAt r 0x28 2 != 1024) 0x28 ++
  (ds.zipIdx).flatMap (fun p => inBlob (fieldAt r 0x20 4 + 128 * p.2) (fusionStreamHits ds p.1)) ++
  (List.range (fieldAt r 0x28 2 / 4)).flatMap (fun i =>
    inBlob (fieldAt r 0x24 4 + 4 * i) (bad (decide (7 < fieldAt x.blob (fieldAt r 0x24 4 + 4 * i) 1)) 0))

/-- A source descriptor at an offset of a LOOPS record (R322). -/
def Layout.sourceHits (l : Layout) (r : Bytes) (o : Nat) : List Hit :=
  let bad := fun (c : Bool) (off : Nat) => hitIf c (o + off) 0x0710
  let kind := fieldAt r o 1
  let idx := fieldAt r (o + 2) 2
  bad (decide (3 < kind)) 0 ++ bad (if kind = 2 then decide (2 < fieldAt r (o + 1) 1) else fieldAt r (o + 1) 1 != 0) 1 ++
  bad (if kind = 2 then ((l.recs 13)[idx % 256]?).elim true (fun q => fieldAt q 1 1 != 1 || decide (fieldAt q 6 1 ≤ idx / 256))
    else if kind = 3 then
      idx / 128 != fieldAt r 1 1 || decide (fieldAt r 2 1 ≤ idx % 128) ||
        !(l.recs 11).any (fun q => loopNumber q == idx && fieldAt q 0xC 1 == fieldAt r 0xC 1)
    else idx != 0) 2 ++
  bad (if kind = 1 then fieldAt r (o + 4) 4 % 4 != 0 else fieldAt r (o + 4) 4 != 0) 4

/-- A filter section of a LOOPS record (R321, R326). -/
def sectionHits (r : Bytes) (i : Nat) : List Hit :=
  let a := 0x60 + 12 * i
  let b0 := sfieldAt r a 2
  let g := fieldAt r (a + 0xA) 1
  hitIf (decide (2 < g)) (a + 0xA) 0x0710 ++
  hitIf (bit (fieldAt r 0xE 1) i && !(decide (0 < b0) && b0 == sfieldAt r (a + 4) 2 && decide ((sfieldAt r (a + 2) 2).natAbs ≤ 2 * b0.natAbs) &&
    decide (0 ≤ sfieldAt r (a + 8) 2) && decide (sfieldAt r (a + 8) 2 < 2 ^ (15 - g)))) a 0x0710

/-- Seven times the worst pass of an engine with its stretch allowance, in ns (R337, R338). -/
def Layout.worstPass7 (l : Layout) (e : Nat) : Nat :=
  let c := (((l.recs 11).filter (fun q => fieldAt q 1 1 == e)).map (fun q => 48 + 16 * fieldAt q 0xD 1)).sum
  let b := 4200 + 10 * c
  b + 7 * (ceilDiv b 224 + 16)

/-- The timing of the stream that a slot writes (R338). -/
def Layout.loopLate (l : Layout) (r : Bytes) : Bool :=
  let p := fieldAt r 4 4
  let b := l.worstPass7 (fieldAt r 1 1)
  ((l.recs 13)[fieldAt r 0x28 1]?).elim false (fun q =>
    let delta := (fieldAt q 0xC 4 + p - fieldAt r 8 4 % max p 1) % max p 1
    fieldAt q 8 4 != p || decide (7 * delta < b + 14000) || decide (7 * p < b))

/-- A LOOPS record of the layout (R321, R322, R326, R329, R338, R340), and its group against SAFETY's (R349) when the image has no
SAFETY section. (log entry 18: DESIGN CHOICE in part) -/
def Layout.loopHits (l : Layout) (safety : Bool) (x : Sec) (i : Nat) (r : Bytes) : List Hit :=
  let bad := fun (c : Bool) (off : Nat) => hitIf c off 0x0710
  let own := bit (fieldAt r 3 1) 0
  let others := (l.recs 11).filter (fun q => loopNumber q != loopNumber r)
  let stream := (l.recs 13)[fieldAt r 0x28 1]?
  let group := ((l.recs 14).find? (fun q => fieldAt q 1 1 == 1 && fieldAt q 2 1 == fieldAt r 0x28 1)).map (fun q => fieldAt q 3 1)
  let sameRec := fun (q : Bytes) => fieldAt q 0x28 1 == fieldAt r 0x28 1 && fieldAt q 0x29 1 == fieldAt r 0x29 1
  let prior := x.recs.take i ++ others.filter (fun q => !x.recs.contains q)
  let engine := prior.find? (fun q => fieldAt q 1 1 == fieldAt r 1 1)
  bad (decide (3 < fieldAt r 1 1)) 1 ++
  bad (decide (127 < fieldAt r 2 1) || (x.recs.take i).any (fun q => loopNumber q == loopNumber r)) 2 ++
  bad (outRange (fieldAt r 4 4) 25000 10000000 || engine.elim false (fun q => fieldAt q 4 4 != fieldAt r 4 4)) 4 ++
  bad (decide (fieldAt r 4 4 ≤ fieldAt r 8 4) || engine.elim false (fun q => fieldAt q 8 4 != fieldAt r 8 4)) 8 ++
  bad (fieldAt r 0xC 1 == 0) 0xC ++ bad (outRange (fieldAt r 0xD 1) 1 4) 0xD ++
  bad (fieldAt r 0xE 1 % 2 ^ min (fieldAt r 0xD 1) 4 == 0) 0xE ++ bad (decide (3 < fieldAt r 0xF 1)) 0xF ++
  [0x10, 0x18, 0x20].flatMap (l.sourceHits r) ++
  bad (stream.elim true (fun q => fieldAt q 1 1 != 0)) 0x28 ++ bad (stream.elim false (fun q => decide (fieldAt q 6 1 ≤ fieldAt r 0x29 1))) 0x29 ++
  bad (own && prior.any (fun q => sameRec q && bit (fieldAt q 3 1) 0) || !own && !others.any (fun q => sameRec q && bit (fieldAt q 3 1) 0)) 0x29 ++
  bad (decide (1 < fieldAt r 0x2A 1) || prior.any (fun q => sameRec q && fieldAt q 0x2A 1 == fieldAt r 0x2A 1)) 0x2A ++
  bad (if own then decide (47 < fieldAt r 0x2B 1) else fieldAt r 0x2B 1 != 0) 0x2B ++ bad (fieldAt r 0x2C 4 % 64 != 0) 0x2C ++
  bad (fieldAt r 0x30 4 % 64 != 0) 0x30 ++ bad (decide (62 < fieldAt r 0x36 1)) 0x36 ++ bad (decide (8 < fieldAt r 0x37 1)) 0x37 ++
  bad (decide (62 < fieldAt r 0x3A 1)) 0x3A ++ bad (if own then outRange (fieldAt r 0x3B 1) 1 3 else fieldAt r 0x3B 1 != 0) 0x3B ++
  bad (decide (62 < fieldAt r 0x40 1)) 0x40 ++ bad (if own then decide (32767 < fieldAt r 0x42 2) else fieldAt r 0x42 2 != 0) 0x42 ++
  bad (decide (sfieldAt r 0x4E 2 ≤ sfieldAt r 0x4C 2)) 0x4E ++ bad (outRange (fieldAt r 0x50 8) 1 (2 ^ 39 - 1)) 0x50 ++
  bad (outRange (fieldAt r 0x58 4) 1 (2 ^ 31 - 1)) 0x58 ++ bad (outRange (fieldAt r 0x5C 4) 1 2000000000) 0x5C ++
  (List.range (min (fieldAt r 0xD 1) 4)).flatMap (sectionHits r) ++
  hitIf (l.loopLate r) 0x28 0x0711 ++ hitIf (!safety && group.elim false (fun g => g != fieldAt r 0xF 1)) 0xF 0x0910

/-- Records of JBUS_CMD streams that no slot owns (R329). -/
def Layout.unownedRecords (l : Layout) : Bool :=
  (l.recs 13).zipIdx.any (fun p => fieldAt p.1 1 1 == 0 && (List.range (fieldAt p.1 6 1)).any (fun i =>
    !(l.recs 11).any (fun q => bit (fieldAt q 3 1) 0 && fieldAt q 0x28 1 == p.2 && fieldAt q 0x29 1 == i)))

/-- A SOLVER record (R302). -/
def solverHits (r : Bytes) : List Hit :=
  let bad := fun (c : Bool) (off : Nat) => hitIf c off 0x0610
  let m := fieldAt r 1 1
  let admm := bit m 2
  let sized := fun (off n hi : Nat) => bad (if admm then outRange (fieldAt r off n) 1 hi else fieldAt r off n != 0) off
  let stride := fun (off n : Nat) =>
    let v := fieldAt r off 2
    bad (decide (n < v) || (v != 0 && (v % 4 != 0 || n % v != 0))) off
  bad (decide (7 < m)) 1 ++ bad (outRange (fieldAt r 2 2) 1 1024) 2 ++ bad (outRange (fieldAt r 4 2) 1 4096) 4 ++ sized 6 2 4096 ++
  bad (outRange (fieldAt r 8 4) 1 16384) 8 ++ sized 0xC 4 16384 ++ sized 0x16 1 64 ++ bad (fieldAt r 0x17 1 != 0) 0x17 ++
  bad (decide (fieldAt r 0x1C 4 < fieldAt r 0x18 4)) 0x1C ++ bad (outRange (fieldAt r 0x20 4) 1000 10000000) 0x20 ++
  bad (if bit m 1 then decide (fieldAt r 0x20 4 < fieldAt r 0x24 4) else fieldAt r 0x24 4 != 0) 0x24 ++
  bad (decide (sfieldAt r 0x28 4 < 1)) 0x28 ++ stride 0x2C (4 * fieldAt r 4 2) ++ stride 0x2E (4 * fieldAt r 6 2) ++
  [0x30, 0x38, 0x40, 0x44, 0x48].flatMap (fun o => bad (fieldAt r o 4 % 64 != 0) o) ++
  bad (if admm then fieldAt r 0x34 4 % 64 != 0 else fieldAt r 0x34 4 != 0) 0x34 ++ bad (admm && fieldAt r 0x3C 4 % 64 != 0) 0x3C ++
  hitZero r 0x58 40 0xFF 0x0610

/-- The steps of a context's periodic schedule that start a programme. -/
def Layout.periodicStarts (l : Layout) (k p : Nat) : Nat :=
  if (l.schedRec k).elim 0 (fun r => fieldAt r 4 4) = 0 then 0 else ((l.schedSteps k).filter (fun t => fieldAt t 4 2 == p)).length

/-- A SAFETY record (R348, R349). (log entry 18: DESIGN CHOICE in part; log entry 19: DESIGN CHOICE in part) -/
def Layout.safetyHits (l : Layout) (x : Sec) (i : Nat) (r : Bytes) : List Hit :=
  let bad := fun (c : Bool) (off : Nat) => hitIf c off 0x0910
  let kind := fieldAt r 1 1
  let before := x.recs.take i
  let same := fun (q : Bytes) => fieldAt q 1 1 == kind && fieldAt q 2 1 == fieldAt r 2 1
  let used := ((x.recs.find? (fun q => fieldAt q 1 1 == 0)).elim 0 (fun q => fieldAt q 0xB 1 % 16))
  bad (kind != 3 && fieldAt r 0 1 != 0xFF) 0 ++
  (match kind with
  | 0 =>
    let k := fieldAt r 9 1
    bad (before.any (fun q => fieldAt q 1 1 == 0)) 1 ++ bad (outRange (fieldAt r 4 4) 10000000 500000000) 4 ++
    bad (decide (fieldAt r 0xA 1 < k)) 9 ++ (List.range 4).flatMap (fun g => bad (decide (1 < fieldAt r (0xC + g) 1)) (0xC + g)) ++
    (List.range 4).flatMap (fun g => bad (outRange (fieldAt r (0x10 + 4 * g) 4) 1000000 4000000000) (0x10 + 4 * g)) ++
    bad (k == 0 && fieldAt r 0x20 4 != 0) 0x20 ++ bad (k == 0 && fieldAt r 0x24 4 != 0) 0x24 ++
    bad (!powerIn (fieldAt r 0x28 2) 2 256) 0x28 ++ bad (decide (32768 < fieldAt r 0x2A 2)) 0x2A ++
    bad (decide (32768 < fieldAt r 0x2C 2)) 0x2C
  | 1 =>
    let s := (l.recs 13)[fieldAt r 2 1]?
    bad (s.elim true (fun q => fieldAt q 1 1 == 2) || before.any same) 2 ++
    bad (decide (3 < fieldAt r 3 1) || !used.testBit (fieldAt r 3 1) ||
      (l.recs 11).any (fun q => fieldAt q 0x28 1 == fieldAt r 2 1 && fieldAt q 0xF 1 != fieldAt r 3 1)) 3 ++
    hitIf (decide (2000000000 < fieldAt r 0xC 4)) 0xC 0x0107
  | 2 =>
    bad (decide (31 < fieldAt r 2 1) || before.any same) 2 ++
    (List.range 3).flatMap (fun a => bad (decide (sfieldAt r (0x10 + 4 * a) 4 < sfieldAt r (4 + 4 * a) 4)) (4 + 4 * a)) ++
    bad (decide (32768 < fieldAt r 0x20 2)) 0x20 ++ bad (fieldAt r 0x22 2 == 0) 0x22
  | 3 =>
    let k := fieldAt r 0 1
    bad (l.periodicStarts k (fieldAt r 2 2) != 1) 2 ++
    bad (fieldAt r 4 2 == 0 || decide (100000000 < fieldAt r 4 2 * (l.schedRec k).elim 0 (fun q => fieldAt q 4 4))) 4 ++
    bad (outRange (fieldAt r 8 4) 1 100000000) 8 ++ bad (outRange (fieldAt r 0xC 4) 64 1048576 || fieldAt r 0xC 4 % 64 != 0) 0xC
  | _ =>
    let e := fieldAt r 2 1
    bad (e == 0x10 || outRange e 1 0x16 || before.any same) 2 ++ bad (decide (4 < fieldAt r 3 1) || decide (fieldAt r 3 1 < eventFloor e)) 3)

/-- The rules of the engine sections on a record. -/
def Layout.engineRecord (l : Layout) (safety : Bool) (x : Sec) (i : Nat) (r : Bytes) : List Hit :=
  match x.type with
  | 8 => mapHits r
  | 9 => l.planHits x i r
  | 10 => l.fusionHits x r
  | 11 => l.loopHits safety x i r
  | 12 => solverHits r
  | 13 => streamHits x i r
  | 14 => l.safetyHits x i r
  | _ => []

/-- The rules of the engine sections on a section as a whole (R329, R349). -/
def Layout.engineSection (l : Layout) (x : Sec) : List Hit :=
  if x.type = 11 then hitIf l.unownedRecords 0 0x0710
  else if x.type = 14 then
    let kind := fun (n : Nat) => x.recs.filter (fun r => fieldAt r 1 1 == n)
    hitIf ((kind 0).isEmpty || (l.recs 13).zipIdx.any (fun p => decide (fieldAt p.1 1 1 < 2) &&
      !(kind 1).any (fun r => fieldAt r 2 1 == p.2))) 0 0x0910
  else []

/-! ### The passes -/

/-- What a partial image may not hold (R66, 0x0A15). -/
def notReplaceable (secs : List Sec) : List Finding :=
  recordFindings secs (fun x _ r => hitIf (x.type != 15 && fieldAt r 0 1 == 0xFF) 0 0x0A15) ++
  sectionFindings secs (fun x => hitIf ([1, 2, 3, 4, 5, 8, 10, 13, 14, 16].contains x.type) 0 0x0A15)

/-- LAY_ACTIVE_DIGEST. -/
def State.activeDigest (s : State) : Bytes := (List.range 16).flatMap (fun k => leBytes 4 (s.reg (Reg.LAY_ACTIVE_DIGEST k)).toNat)

/-- The findings of a check of every record; in a partial image a record of no owner is left to the check of R66.
(log entry 15: DEDUCED in part) (log entry 18: DESIGN CHOICE in part) -/
def judged (partial' : Bool) (secs : List Sec) (c : Sec → Nat → Bytes → List Hit) : List Finding :=
  recordFindings secs (fun x i r => if partial' && x.type != 15 && fieldAt r 0 1 == 0xFF then [] else c x i r)

/-- The passes of step 6 (R63). -/
def State.semanticPasses (s : State) (img : Bytes) : List (Unit → List Finding) :=
  let secs := imageSections img
  let l := s.merged img
  let safety := secs.any (fun x => x.type == 14)
  let part := fieldAt img 7 1 % 2 != 0
  let refs := fun (x : Sec) (i : Nat) (r : Bytes) => l.recordRefs x i r ++ s.mapRefs l part secs x i r
  [fun _ => judged part secs refs, fun _ => judged part secs overlapRecord, fun _ => judged part secs (s.capacityRecord l),
    fun _ => judged part secs s.dieRecord, fun _ => judged part secs scheduleRecord, fun _ => judged part secs l.pathRecord,
    fun _ => judged part secs l.paramRecord,
    fun _ => judged part secs (l.engineRecord safety) ++ sectionFindings secs l.engineSection ++
      headIf (l.unownedRecords && (l.section? 11).isNone) 100 0 0x0710] ++
  (if !part then []
  else [fun _ => notReplaceable secs, fun _ => headIf s.layout.isNone 100 0 0x0A17, fun _ => headIf (slice img 0xC0 64 != s.activeDigest) 100 0xC0 0x0A16])

/-- The failure of steps 3 to 6 on a copied image. -/
def State.imageFailure (s : State) (img : Bytes) : Option Finding :=
  firstPass ([fun _ => trailerFindings img, fun _ => digestFindings img, fun _ => s.signatureFindings img] ++ structurePasses img ++ s.semanticPasses img)

end Sys2Proof.Machine
end

