-- ==== Sys2Proof/Machine/Loader.lean ====
section
/-! DEFINITION. The layout loader (chapter 03): requests, the copy, the outcome of a load, quiescence and the commit. -/

namespace Sys2Proof.Machine

/-! ### The copy (R63, R18, R86) -/

/-- A byte of an image behind a BAR2 offset as the loader reads it: none where the access faults.
(log entry 20: DEDUCED in part) -/
def State.imageByte (s : State) (off : Nat) : Option (BitVec 8) := s.bar2Byte off

/-- `n` bytes of an image; a byte that faults reads as ones. -/
def State.imageBytes (s : State) (off n : Nat) : Bytes := (List.range n).map (fun i => (s.imageByte (off + i)).getD 0xFF)

/-- True where some byte of a range faults in its window (R86). (log entry 20: DEDUCED in part) -/
def State.imageFault (s : State) (off n : Nat) : Bool := (List.range n).any (fun i => (s.imageByte (off + i)).isNone)

/-- The first byte of a range whose translation names memory of the Reflex die, which the loader may not reach (R18).
(log entry 20: DEDUCED in part) -/
def State.imageDie0 (s : State) (off n : Nat) : Option Nat :=
  (List.range n).find? (fun i => match s.bar2Target .read (off + i) with | some (.phys p) => physDie0 p | _ => false)

/-! ### Outcomes (R64) -/

/-- LAY_STATUS.state while no load is in progress: ACTIVE with a layout, else EMPTY. -/
def State.layIdle (s : State) : State := s.setFld Fld.LAY_STATUS_state (b2n s.layout.isSome)

/-- A load that ends with a status: LAY_STATUS, LAY_EVENT and the vector of LAY_CTRL. -/
def State.loadEnds (s : State) (op code : Nat) : State :=
  let s1 := ({ s with load := none }.layIdle.setFld Fld.LAY_STATUS_last_op op).setFld Fld.LAY_STATUS_code code
  let s2 := s1.event (if code = 0 then Ev.LAY_EVENT_done else Ev.LAY_EVENT_fail)
  if s2.flag Fld.LAY_CTRL_irq_en then s2.raise (s2.fld Fld.LAY_CTRL_msix) else s2

/-- A load that fails at a place of its image. (log entry 14: DESIGN CHOICE in part) -/
def State.loadFails (s : State) (op : Nat) (secs : List Sec) (f : Finding) : State :=
  let at' := if f.place = 0 ∨ 100 ≤ f.place then 0xFF else f.place - 1
  let s1 := (s.setFld Fld.LAY_ERR_LOC_section at').setFld Fld.LAY_ERR_LOC_record (errRecord secs f)
  (s1.setFld Fld.LAY_ERR_OFFSET_offset f.off).loadEnds op f.code

/-- A failure that belongs to no section. (log entry 14: DESIGN CHOICE in part) -/
def noPlace (off code : Nat) : Finding := ⟨100, 0, off, code⟩

/-! ### Requests (R63, R68) -/

/-- Steps 2 to 6 of a load that has been accepted. A validation ends here; another load that has passed is LOADING and waits for its
commit. (log entry 20: DEDUCED in part) -/
def State.beginLoad (s : State) (op : Nat) : State :=
  let off := s.reg64 Reg.LAY_IMG_ADDR / 64 * 64
  let len := s.fld Fld.LAY_IMG_LEN_len
  let s1 := s.setFld Fld.LAY_STATUS_copied 0
  match s.imageDie0 off 256, firstFinding (headerFindings (s.imageBytes off 256) op len) with
  | some i, _ => s1.loadFails op [] (noPlace i 0x0203)
  | none, some f =>
    (if s.imageFault off 256 then s1.hqEvent Ev.HQ_EVT_STATUS_win_fault else s1).loadFails op [] f
  | none, none =>
    match s.imageDie0 off len with
    | some i => s1.loadFails op [] (noPlace i 0x0203)
    | none =>
      let img := s.imageBytes off len
      let s2 := (if s.imageFault off len then s1.hqEvent Ev.HQ_EVT_STATUS_win_fault else s1).setFld Fld.LAY_STATUS_copied 1
      match s.imageFailure img with
      | some f => s2.loadFails op (imageSections img) f
      | none => if op = 2 then s2.loadEnds op 0 else { s2 with load := some ⟨op, img, false⟩ }.setFld Fld.LAY_STATUS_state 2

/-- A write of LAY_CTRL (R63, R68, R91). A start during a load is ignored as a whole; one that may not run sets cmd_reject.
(log entry 20: DEDUCED in part) -/
def State.writeLayCtrl (s : State) (v : Nat) : State :=
  let fields := ((s.setFld Fld.LAY_CTRL_op (bits v 1 3)).setFld Fld.LAY_CTRL_msix (bits v 4 6)).setFld Fld.LAY_CTRL_irq_en (bits v 10 1)
  if !bit v 0 then fields
  else if s.load.isSome then s.event Ev.LAY_EVENT_cmd_reject
  else if !s.hostReady || s.proofRunning || decide (2 < bits v 1 3) then fields.event Ev.LAY_EVENT_cmd_reject
  else fields.beginLoad (bits v 1 3)

/-- A start of the loader with an op. (log entry 20: DEDUCED in part) -/
def State.layStart (s : State) (who : Requester) (op v : Nat) : State :=
  s.busWrite who 1 0x46 false (fun s => s.writeLayCtrl (setBits (setBits v 0 1 1) 1 3 op))

/-- LAYOUT_FULL_LOAD (R63): LAY_CTRL with start = 1 and op = 0. (log entry 20: DEDUCED in part) -/
def execLayoutFullLoad (who : Requester) (value : Nat) (s : State) : Host.Outcome State Fault Refusal := .next (s.layStart who 0 value)

/-- LAYOUT_PARTIAL_LOAD (R63): LAY_CTRL with start = 1 and op = 1. (log entry 20: DEDUCED in part) -/
def execLayoutPartialLoad (who : Requester) (value : Nat) (s : State) : Host.Outcome State Fault Refusal := .next (s.layStart who 1 value)

/-- LAYOUT_VALIDATE (R64): LAY_CTRL with start = 1 and op = 2. (log entry 20: DEDUCED in part) -/
def execLayoutValidate (who : Requester) (value : Nat) (s : State) : Host.Outcome State Fault Refusal := .next (s.layStart who 2 value)

/-! ### Quiescence and motion (R66, R67) -/

/-- The owners of the active records that a partial image replaces, OPPREF apart (R65, R66). (log entry 21: DEDUCED in part) -/
def replacedOwners (old l : Layout) : List Nat :=
  (l.sections.filter (fun x => x.type != 15)).flatMap (fun x =>
    (x.records.map (fun r => fieldAt r 0 1)).filter (fun k => (old.recs x.type).any (fun r => fieldAt r 0 1 == k)))

/-- True where the contexts that a load concerns are quiesced (R66). -/
def State.loadQuiesced (s : State) (op : Nat) (l : Layout) : Bool :=
  if op = 0 then s.ctxs.all (fun p => !(p.2.phase == .resident || p.2.phase == .stopped) || s.quiesced p.1)
  else (replacedOwners (s.layout.getD ⟨0, []⟩) l).all s.quiesced

/-- The safe-torque-off groups that the loop slots affected by a load drive (R67). -/
def State.loadGroups (s : State) (op : Nat) (l : Layout) : List Nat :=
  if op = 0 then
    if (s.recs 13).any (fun r => decide (fieldAt r 1 1 < 2)) then (s.recs 11).map (fun r => fieldAt r 0xF 1) else []
  else
    let owners := (l.recs 11).map (fun r => fieldAt r 0 1)
    (l.recs 11 ++ (s.recs 11).filter (fun r => owners.contains (fieldAt r 0 1))).map (fun r => fieldAt r 0xF 1)

/-- The failure of step 7; 0 when its conditions hold. (log entry 20: DEDUCED in part) -/
def State.commitCode (s : State) (op : Nat) (l : Layout) : Nat :=
  if !s.loadQuiesced op l then 0x0A13
  else if !(s.loadGroups op l).all s.asserted then 0x0A14
  else 0

/-! ### Commit (R65) -/

/-- Step 1 of a full commit: the contexts of the old layout leave with their shares, roots and allocations; every valid length-table
entry is freed, and every sequence slot is empty. (log entry 21: DEDUCED in part) -/
def State.removeLayout (s : State) : State :=
  let s1 := (s.ctxs.map (·.1)).foldl (fun (a : State) k => a.dropSlots k) s
  let s2 := ((s1.kv.filter (fun p => p.2.valid)).map (·.1)).foldl (fun (a : State) q => a.kvFree q) s1
  let s3 := (List.range 64).foldl (fun (a : State) k => a.setFld (Fld.HQ_Q_CTRL_run k) 0) s2
  { s3 with ctxs := [], queues := [], invs := [], runs := [], maps := [], seqLinks := [], windows := [], tlb := []
            requests := s3.requests.map (fun q => { q with record := none })
            seqSlots := s3.seqSlots.filter (fun p => p.2.phase == .empty)
            power := { s3.power with oldPref := none } }

/-- The contexts of a new layout, NONRESIDENT; those with resident_at_load wait in the order of R74.
(log entry 21: DEDUCED in part) -/
def freshContexts (l : Layout) : Sparse Ctx :=
  (l.recs 1).foldl (fun m r =>
    Sparse.put (fun _ => {}) m (fieldAt r 0 1) { phase := .nonresident, waiting := bit (fieldAt r 3 1) 0 }) []

/-- The sync objects that SYNCMAP names at their initial values. (log entry 21: DEDUCED in part) -/
def State.initSyncs (s : State) (l : Layout) : State :=
  (l.recs 16).foldl (fun (a : State) r => (l.syncObj (fieldAt r 2 2)).elim a (fun k => a.setSync k (fieldAt r 8 8))) s

/-- The registers of an array of `n` words at their reset values. -/
def State.clearRegs (s : State) (a n : Nat) : State := { s with regs := s.regs.filter (fun p => !(a ≤ p.1 && p.1 < a + 4 * n)) }

/-- The joint bus and the ports at the commit of a full load (R230, R238, R353): streams start afresh, the Ethertype of JBUS_CFG takes
effect, and the ports that STREAMS names take their mode. (log entry 21: DEDUCED in part) -/
def State.installStreams (s : State) : State :=
  let s1 := ({ s with ports := { s.ports with streams := [], ethertype := s.fld Fld.JBUS_CFG_ethertype } }.clearRegs (Reg.JBUS_STREAM 0)
    160).restartStreams
  let s2 := (List.range (s1.recs 13).length).foldl (fun (a : State) i => a.setStream i { a.stream i with probe := (a.stream i).next }) s1
  (List.range 12).foldl (fun (a : State) p =>
    if !(a.portStreams p [0, 1]).isEmpty then a.setPortMode p 1
    else if !(a.portStreams p [2]).isEmpty then a.setPortMode p 2
    else a) s2

/-- Crust under a new SAFETY section: stops under way, feedback copies, perception and starters begin afresh; latched levels stay.
(log entry 21: DEDUCED in part) -/
def State.installSafety (s : State) : State :=
  let f := s.safetyGlobal.elim 32768 (fun g => if fieldAt g 9 1 = 0 then 32768 else fieldAt g 0x2C 2)
  let s1 := { s with crust := { s.crust with feedback := [], stops := [], starters := [], psf := { factor := f } } }
  ((List.range 4).foldl (fun (a : State) g => a.setFld (Fld.CRUST_GROUP_fallback g) 0) s1).publishFactor

/-- The engines of the Reflex die at the commit of a full load (R259, R296, R312, R341).
(log entry 21: DEDUCED in part) -/
def State.installEngines (s : State) : State :=
  let s1 := { s.resetMap with plan := {}, fusion := {}, solv := {}, loops := {} }
  let s2 := (List.range 32).foldl (fun (a : State) i => a.setFld (Fld.FUSN_STREAM_fault i) 0)
    ((s1.setReg64 Reg.PLAN_BATCHES 0).clearRegs (Reg.LOOP_SLOT 0) 512)
  (s2.resetSetups (List.range 16)).startLoops (s2.recs 11)

/-- The layout digest. (log entry 21: DEDUCED in part) -/
def State.setDigest (s : State) (d : Bytes) : State := s.setRegBytes (Reg.LAY_ACTIVE_DIGEST 0) 16 d

/-- The commit of a full load (R65), in its order. (log entry 21: DEDUCED in part) -/
def State.commitFull (s : State) (img : Bytes) : State :=
  let l := layoutOf img
  let s1 := s.removeLayout
  let s2 := { s1 with layout := some l, safetyDigest := slice img 0x80 64, ctxs := freshContexts l }
  let s3 := ((s2.initSyncs l).setDigest (slice img 0x40 64)).installStreams
  let s4 := s3.installSafety.installEngines
  let s5 := if s4.simLayout then s4.assertAll else s4.releaseGroups
  (s5.loadEnds 0 0).startWaiting 64

/-- The set-ups that a partial SOLVER section replaces: those before or after the load whose owner it names.
(log entry 21: DEDUCED in part) -/
def replacedSetups (old new l : Layout) : List Nat :=
  let owners := (l.recs 12).map (fun r => fieldAt r 0 1)
  (List.range 16).filter (fun i =>
    [old, new].any (fun x => ((x.recs 12)[i]?).elim false (fun r => owners.contains (fieldAt r 0 1))) ||
      (old.recs 12)[i]? != (new.recs 12)[i]?)

/-- The base cycles of the engines whose period and phase a partial load leaves as they were.
(log entry 21: DEDUCED in part) -/
def State.keepPasses (s t : State) : State :=
  let grid := fun (a : State) (e : Nat) => ((a.engineLoops e).head?).map (fun r => (fieldAt r 4 4, fieldAt r 8 4))
  (List.range 4).foldl (fun (a : State) e =>
    if grid s e = grid t e then
      { a with loops := { a.loops with next := Sparse.put (fun _ => 0) a.loops.next e (Sparse.get (fun _ => 0) s.loops.next e) } }
    else a) t

/-- The commit of a partial load (R65). New operating preferences wait for the next phase transition (R66).
(log entry 21: DEDUCED in part) -/
def State.commitPartial (s : State) (img : Bytes) : State :=
  let l := layoutOf img
  let old := s.layout.getD ⟨0, []⟩
  let new := mergeLayout old l
  let pref := if (l.section? 15).isSome && s.power.oldPref.isNone then some (s.recs 15, s.activePhases) else s.power.oldPref
  let s1 := { s with layout := some new, power := { s.power with oldPref := pref } }
  let s2 := if (l.section? 11).isSome then s.keepPasses (s1.startLoops (l.recs 11)) else s1
  let s3 := if (l.section? 12).isSome then s2.resetSetups (replacedSetups old new l) else s2
  (s3.setDigest (sha512 (s.activeDigest ++ slice img 0x40 64))).loadEnds 1 0

/-- LAYOUT_COMMIT (R65 to R67): the load in progress reaches step 7, and with its conditions met step 8. A full load waits there while a
TIER command runs. (log entry 20: DEDUCED in part) -/
def execLayoutCommit (s : State) : Host.Outcome State Fault Refusal :=
  .next (match s.load with
    | none => s
    | some d =>
      let c := s.commitCode d.op (layoutOf d.image)
      if c ≠ 0 then s.loadFails d.op [] (noPlace 0 c)
      else if d.op ≠ 0 then s.commitPartial d.image
      else if s.flag Fld.TIER_CMD_STATUS_busy then { s with load := some { d with committing := true } }
      else s.commitFull d.image)

end Sys2Proof.Machine
end

