-- ==== Sys2Proof/Machine/Bar0.lean ====
section
/-! DEFINITION. Register accesses through BAR0 (chapters 00 and 01): the access codes, 64-bit pairs, and the registers whose
value follows from the rest of the state. -/

namespace Sys2Proof.Machine

/-! ### Reads (R5, R6) -/

/-- The reading of one register per instance of an array: the instance, when the offset is in the array. -/
def instanceOf (off base stride count : Nat) : Option Nat :=
  if base ≤ off ∧ (off - base) % stride = 0 ∧ (off - base) / stride < count then some ((off - base) / stride) else none

/-- The word of bytes at an offset of a register array that shows a byte string. -/
def byteWord (bs : Bytes) (i : Nat) : Nat := fieldAt bs (4 * i) 4

/-- LAY_CTX_STATE_k (R71, R83). (log entry 9: DEDUCED in part) -/
def State.ctxWord (s : State) (k : Nat) : Nat :=
  let c := s.ctx k
  let n := match c.phase with | .absent => 0 | .nonresident => 1 | .loading => 2 | .resident => 3 | .stopped => 4
  n + 8 * b2n c.crustHold + 16 * b2n c.sched + 65536 * c.code

/-- HQ_Q_STATUS_k (R101). (log entry 9: DEDUCED in part) -/
def State.queueWord (s : State) (k : Nat) : Nat :=
  if s.holds k then b2n (s.quiesced k) + 2 * b2n (s.queue k).fault + 65536 * (s.queue k).code else 1

/-- SEQ_SLOT_e_k (R168). (log entry 9: DEDUCED in part) -/
def State.seqWord (s : State) (key : Nat) : Nat :=
  let x := s.seqSlot key
  let n := match x.phase with | .empty => 0 | .live => 1 | .restoring => 2 | .swapping => 3
  n + 4 * b2n (s.chunkRuns key) + 65536 * (if n = 0 then 0 else x.tag)

/-- PWR_RAIL_r_STATE (R419 to R424). (log entry 9: DEDUCED in part) -/
def State.railWord (s : State) (r : Nat) : Nat :=
  let x := s.rail r
  x.current + 16 * x.target + 256 * s.railFloor r + 4096 * x.capLimit + 65536 * x.thermLimit + 1048576 * x.droopLimit +
    16777216 * b2n x.step.isSome

/-- The busy tiles of a die as bits (R123). (log entry 9: DEDUCED in part) -/
def State.busyMask (s : State) (die lo : Nat) : Nat :=
  ((List.range 32).map (fun i => if (s.busyTiles die).contains (lo + i) then 2 ^ i else 0)).sum

/-- FTL_STATUS.life: percent of the rated 3,000 program and erase cycles that remain. How the counts of the blocks make one
figure is open: a free figure between that of the most-erased block and 100. (log entry 39: DESIGN CHOICE in part) -/
def FlashStore.life (f : FlashStore) : Nat :=
  let worst := (3000 - (f.erases.map (·.2)).foldl max 0) * 100 / 3000
  worst + Config.flashLife ((f.erases.map (·.2)).sum) % (101 - worst)

/-- True while the action that a start bit of a command register started runs (R6). (log entry 9: DEDUCED in part) -/
def State.actionRuns (s : State) (a : Nat) : Bool :=
  let die := a / 0x1000000
  let v := (s.reg a).toNat
  match a / 0x10000 % 0x100, a % 0x10000 with
  | 0x08, 0x00 => die == 0 && s.proofRunning
  | 0x0B, 0x10 => s.flag (Fld.SEQ_CMD_STATUS_busy die)
  | 0x20, 0x10 => !s.rst.dies.isEmpty
  | 0x20, 0x20 => s.rst.blk.isSome
  | 0x28, 0x10 => s.flag Fld.MAP_CMD_STATUS_busy
  | 0x2F, 0x20 => s.boot.update.isSome
  | 0x30, 0x200 => s.boot.quote.isSome
  | 0x41, 0x20 => s.flag Fld.KV_CMD_STATUS_busy
  | 0x42, 0x00 => s.flag Fld.TIER_CMD_STATUS_busy
  | 0x46, 0x10 => s.load.isSome
  | 0x46, 0x80 => bits v 1 2 == 1 && ((s.ctx (bits v 8 6)).waiting || (s.ctx (bits v 8 6)).phase == .loading)
  | _, _ => false

/-- The value of a register that the rest of the state gives, where it is such a register (log entry 9); the other bits of it are as
stored. -/
def State.view (s : State) (a : Nat) : Option Nat :=
  let die := a / 0x1000000
  let off := a % 0x10000
  let v := (s.reg a).toNat
  if s.actionRuns a then some (setBits v 0 1 1) else
  match a / 0x10000 % 0x100 with
  | 0x00 =>
    if off = 0x30 then some (setBits v 0 5 s.diesPresent)
    else if off = 0x20 ∧ die ≠ 1 then
      some (setBits (setBits v 8 5 (s.linkMods.getD die 0)) 24 1 (b2n (s.dieUp die)))
    else none
  | 0x01 => (instanceOf off 0x100 4 40).map (fun d => setBits v 0 12 (s.domainMhz d))
  | 0x02 => (instanceOf off 0 4 8192).map (fun i => s.sync (syncKey die (i / 2)) / 2 ^ (32 * (i % 2)))
  | 0x04 => if off = 0x40 then some (b2n s.burstCut + 16 * (if s.burstCut then 512 else 4096)) else none
  | 0x06 => if off = 0x30 then some (setBits v 0 10 (s.lockedOn die)) else none
  | 0x08 => (instanceOf off 0x100 4 9).map (fun i => 
      min ((s.monoNs - ((List.range 4).map (fun g => s.lastPass (4 * i + g))).foldl max 0) / 1000) 0xFFFFF)
  | 0x0A => if off = 0 then some (s.busyMask die 0) else if off = 4 then some (s.busyMask die 32 % 65536) else none
  | 0x0B => (instanceOf off 0x400 4 256).map (fun i => s.seqWord (die * 256 + i))
  | 0x21 => (instanceOf off 0x100 0x10 8).map s.railWord
  | 0x23 => if off = 0 ∨ off = 4 then some (s.now / 2 ^ (8 * off)) else none
  | 0x24 => if off = 0x400 ∨ off = 0x404 then some (Config.ethMac.toNat / 2 ^ (8 * (off - 0x400))) else none
  | 0x27 => if off = 0 then some (setBits v 0 1 (b2n s.fusionActive)) else none
  | 0x2B =>
    if off = 0x10 then
      some (setBits v 4 4 ((List.range 4).map (fun e => if (s.engineLoops e).isEmpty then 0 else 2 ^ e)).sum)
    else (instanceOf off 0x1000 4 512).map (fun n => if (s.loopRec n).isSome then (Machine.slotWord (s.loopSlot n)).toNat else 0)
  | 0x2C => if 0x40 ≤ off ∧ off < 0x50 ∧ s.fld Fld.CRUST_CHG_STATUS_state = 0 then some 0 else if off = 0 then some (setBits v 1 1 (s.safetyGlobal.elim 0 (fun g => b2n (fieldAt g 9 1 != 0)))) else none
  | 0x2F =>
    if off = 4 then some Config.romVersion.toNat
    else (instanceOf off 0x1000 4 512).map (fun k => (s.reg (Reg.BKP_RAM k)).toNat)
  | 0x30 =>
    if off = 8 then some (setBits v 15 17 (s.boot.unlockEnd.elim 0 (fun t => ceilDiv (t - s.monoNs) 1000000000)))
    else (instanceOf off 0x100 4 34).map (byteWord (pointBytes (publicPoint Config.identityKey)))
  | 0x41 => if off = 0x14 then some s.poolFree.length else none
  | 0x42 => if off = 0x70 then some s.hbmFree else none
  | 0x43 => if off = 0 ∧ v % 4 ≠ 0 then some (setBits v 8 7 s.flash.life) else none
  | 0x45 =>
    if 0x1000 ≤ off ∧ off < 0x1800 then
      let k := (off - 0x1000) / 0x20
      let q := s.queue k
      if off % 0x20 = 0x14 then some (s.queueWord k)
      else if off % 0x20 = 0x18 then some q.sqHead
      else if off % 0x20 = 0x1C then some q.cqTail
      else none
    else none
  | 0x46 => (instanceOf off 0x200 4 64).map s.ctxWord
  | 0x68 => if off = 0x10 then some (setBits v 0 1 (b2n (s.runs.any (fun r => r.die == die && r.executed && r.done.isNone &&
      (s.currentOp r).elim false (fun d => opBlock (fieldAt d 0 1) == 0x68))))) else none
  | 0x69 => if off = 0x10 then some (setBits v 0 1 (b2n (s.runs.any (fun r => r.die == die && r.executed && r.done.isNone &&
      (s.currentOp r).elim false (fun d => opBlock (fieldAt d 0 1) == 0x69))))) else none
  | _ => none

/-- What a read of a register returns; an offset without a register reads as zero (R4, R6).
(log entry 9: DEDUCED in part) -/
def State.readReg (s : State) (a : Nat) : Word :=
  if (regAt a).isSome then BitVec.ofNat 32 ((s.view a).getD (s.reg a).toNat) else 0

/-- The latch of a requester on a pair (R5). -/
def State.latch (s : State) (who : Requester) (low : Nat) : Option Word :=
  (s.latches.find? (fun p => p.who == who && p.low == low)).map (·.value)

/-- True for the low half of a pair of R5. -/
def pairLow (a : Nat) : Bool := (regAt a).elim false (fun p => p.1.words == 2 && p.2 == 0)

/-- True for the high half of a pair of R5. -/
def pairHigh (a : Nat) : Bool := (regAt a).elim false (fun p => p.1.words == 2 && p.2 == 1)

/-- A read of the low half: it latches the high half for its requester (R5). -/
def State.readLow (s : State) (who : Requester) (a : Nat) : State :=
  { s with answer := leBytes 4 (s.readReg a).toNat, latches := dropHalf s.latches who a ++ [⟨who, a, s.readReg (a + 4)⟩] }

/-- A read of the high half: the latch of its requester, which it consumes, or the current high half (R5). -/
def State.readHigh (s : State) (who : Requester) (a : Nat) : State :=
  match s.latch who (a - 4) with
  | some v => { s with answer := leBytes 4 v.toNat, latches := dropHalf s.latches who (a - 4) }
  | none => { s with answer := leBytes 4 (s.readReg a).toNat }

/-- PAIR_LOW_READ (R5). (log entry 12: DESIGN CHOICE in part) -/
def execPairLowRead (who : Requester) (a : Nat) (s : State) : Host.Outcome State Fault Refusal :=
  .next (if pairLow a then s.busRead who (a / 0x1000000) (a / 0x10000 % 0x100) (fun s => s.readLow who a) else s)

/-- PAIR_HIGH_READ (R5). (log entry 12: DESIGN CHOICE in part) -/
def execPairHighRead (who : Requester) (a : Nat) (s : State) : Host.Outcome State Fault Refusal :=
  .next (if pairHigh a then s.busRead who (a / 0x1000000) (a / 0x10000 % 0x100) (fun s => s.readHigh who a) else s)

/-! ### Writes (R5, R6, R9) -/

/-- A word after a write, field by field (R6): RW fields take the value, WC bits are cleared and WS bits set by ones; RO, SC, TP
and reserved bits stay as they are. -/
def writeWord (f : RegFam) (w : Nat) (old v : Word) : Word :=
  let rw := accMask f w .rw
  let wc := accMask f w .wc
  let ws := accMask f w .ws
  (old &&& ~~~(rw ||| wc)) ||| (v &&& rw) ||| (old &&& wc &&& ~~~v) ||| (v &&& ws)

/-- A write to a word of a register. One that differs in a TP bit raises TP_VIOLATION (R365).
(log entry 12: DESIGN CHOICE in part) -/
def State.putReg (s : State) (a : Nat) (v : Word) : State :=
  match regAt a with
  | none => s
  | some (f, w) =>
    let s1 := s.setReg a (writeWord f w (s.reg a) v)
    if (s.reg a ^^^ v) &&& accMask f w .tp ≠ 0 then s1.report 0x15 0 else s1

/-- The state a meaning goes on with. -/
def State.after (s : State) (o : Host.Outcome State Fault Refusal) : State := match o with | .next t => t | _ => s

/-- The value that a write of a pair's high half makes: the staged or current low half below it (R5). -/
def State.pairValue (s : State) (who : Requester) (low v : Nat) : Nat :=
  (((s.staged.find? (fun p => p.who == who && p.low == low)).map (·.value)).getD (s.reg low)).toNat + 2 ^ 32 * (v % 2 ^ 32)

/-- A pair given a 64-bit value in one step: MON_SNAP_TIME arms its snapshot (R214), KV_POOL_BASE keeps R154, and a ring base is
writable while run is 0. -/
def State.putPair (s : State) (who : Requester) (low v : Nat) : State :=
  let off := low % 0x10000
  let plain := (s.putReg low (BitVec.ofNat 32 v)).putReg (low + 4) (BitVec.ofNat 32 (v / 2 ^ 32))
  match low / 0x10000 % 0x100 with
  | 0x05 => if off = 0 then s.armSnapshot (low / 0x1000000) v else plain
  | 0x41 => if off = 8 then s.after (execKvPoolWrite who false v s) else plain
  | 0x45 => if 0x1000 ≤ off ∧ off < 0x1800 ∧ s.flag (Fld.HQ_Q_CTRL_run ((off - 0x1000) / 0x20)) = true then s else plain
  | _ => plain

/-- A write of a pair's low half: staged for its requester (R5). -/
def State.writeLow (s : State) (who : Requester) (a v : Nat) : State :=
  { s with staged := dropHalf s.staged who a ++ [⟨who, a, BitVec.ofNat 32 v⟩] }

/-- A write of a pair's high half (R5). -/
def State.writeHigh (s : State) (who : Requester) (a v : Nat) : State :=
  { s with staged := dropHalf s.staged who (a - 4) }.putPair who (a - 4) (s.pairValue who (a - 4) v)

/-- A command register with start = 1: the command of its op field, or a start with a reserved op. -/
def State.writeCommand? (s : State) (who : Requester) (a v : Nat) : Option State :=
  let die := a / 0x1000000
  match a / 0x10000 % 0x100, a % 0x10000 with
  | 0x41, 0x20 =>
    let q := bits v 4 12
    let rej := (s.putReg a (BitVec.ofNat 32 v)).event Ev.KV_EVT_STATUS_cmd_reject
    some (match bits v 1 3 with
      | 1 => s.after (execKvCreate who q s)
      | 2 => s.after (execKvFree who q s)
      | 3 => s.after (execKvTruncate who q s)
      | 4 => s.after (execKvGrant who q s)
      | 5 => s.after (execKvRead who q s)
      | _ => rej)
  | 0x42, 0x00 =>
    some (match bits v 1 3 with
      | 1 => s.after (execTierAlloc who v s)
      | 2 => s.after (execTierFree who v s)
      | 3 => s.after (execTierShare who v s)
      | 4 => s.after (execTierLinkSeq who v s)
      | 5 => s.after (execTierUnlinkSeq who v s)
      | 6 => s.after (execTierFlush who v s)
      | _ => (s.putReg a (BitVec.ofNat 32 v)).event Ev.TIER_EVT_STATUS_cmd_reject)
  | 0x0B, 0x10 =>
    some (match bits v 1 3 with
      | 1 => s.after (execSeqBind who die v s)
      | 2 => s.after (execSeqSwapOut who die v s)
      | 3 => s.after (execSeqRestore who die v s)
      | 4 => s.after (execSeqUnbind who die v s)
      | _ => (s.putReg a (BitVec.ofNat 32 v)).event (Ev.SEQ_EVT_STATUS_cmd_reject die))
  | 0x46, 0x80 =>
    some (match bits v 1 2 with
      | 1 => s.after (execMakeResident who (bits v 8 6) s)
      | 2 => s.after (execMakeNonresident who (bits v 8 6) s)
      | 3 => s.after (execRelease who (bits v 8 6) s)
      | _ => (s.putReg a (BitVec.ofNat 32 v)).ctxReject)
  | 0x45, 0x0C => some (s.after (execIfPropose who s))
  | 0x04, 0x20 => some (s.after (execLatencyMaxClear who die s))
  | 0x08, 0x00 => some (s.after (execProofRunOnDemand who s))
  | 0x2F, 0x10 => some s.clearLog
  | 0x30, 0x200 => some s.quote
  | _, _ => none

/-- The words of retained SRAM that host software does not write: the boot log and firmware's logs (R412). -/
def hostBarred (a : Nat) : Bool := decide (Reg.BKP_RAM 0 ≤ a) && decide (a < Reg.BKP_RAM 1024)

/-- The backup registers and the words of retained SRAM that firmware does not write: registers 16 to 31 and the host area (R412). -/
def firmwareBarred (a : Nat) : Bool :=
  (decide (Reg.BKP_REG 16 ≤ a) && decide (a < Reg.BKP_REG 31 + 4)) || (decide (Reg.BKP_RAM 1024 ≤ a) && decide (a < Reg.BKP_RAM 2047 + 4))

/-- A register whose writes have a meaning of their own whatever their value. The live conditions of SIO_WIRE_CLR and the closed time
of an estop_reset arrive with the rows of these writes. (log entry 12: DESIGN CHOICE in part) -/
def State.writeSpecial? (s : State) (who : Requester) (a v : Nat) : Option State :=
  let off := a % 0x10000
  match a / 0x10000 % 0x100 with
  | 0x20 =>
    if a = Reg.RST_SW_CTRL then some (s.writeSwCtrl v) else if a = Reg.RST_BLK_CTRL then some (s.writeBlkCtrl v) else none
  | 0x21 => (instanceOf off 0x200 0x10 4).map (fun k => s.writeSpwr k v)
  | 0x22 => if (who = .host ∧ hostBarred a = true) ∨ (who ≠ .host ∧ firmwareBarred a = true) then some s else none
  | 0x23 =>
    if a = Reg.TIME_RATE then some (s.writeTimeRate v)
    else if a = Reg.TIME_CTRL then some (s.writeTimeCtrl v)
    else if a = Reg.TIME_STATUS ∧ who = .baker 0 then
      some ((s.setFld Fld.TIME_STATUS_servo (bits v 0 2)).setFld Fld.TIME_STATUS_domain (bits v 4 7))
    else none
  | 0x24 => (instanceOf off 0 0x40 12).map (fun k => s.writeEthCtrl k v)
  | 0x26 => if a = Reg.JBUS_CLR then some (s.writeJbusClr v) else none
  | 0x28 => if a = Reg.MAP_CMD then some (s.writeMapCmd v) else none
  | 0x2B => if a = Reg.LOOP_CLR then some (s.writeLoopClr v) else none
  | 0x2C =>
    if a = Reg.CRUST_CLR then some (s.writeCrustClr v) else if a = Reg.CRUST_CHG_CTRL then some (s.writeChgCtrl v) else none
  | 0x2E => if a = Reg.SIO_STO_CTRL then some (s.writeHold v) else none
  | 0x2F => if a = Reg.BOOT_UPD_CTRL then some (s.writeUpdCtrl v) else none
  | 0x41 => if a = Reg.KV_POOL_PAGES then some (s.after (execKvPoolWrite who true v s)) else none
  | 0x45 =>
    if 0x3000 ≤ off ∧ (off - 0x3000) % 0x10 = 8 ∧ a ≤ Reg.HQ_NTF_CTRL 63 then some (s.writeNotifier ((off - 0x3000) / 0x10) v)
    else (instanceOf off 0x1010 0x20 64).map (fun k => s.writeQueueCtrl k v)
  | 0x46 => if a = Reg.LAY_CTRL then some (s.writeLayCtrl v) else none
  | _ => none

/-- A write of a register by a requester to whom the block answers; where the die has no register it has no effect (R4, R23). Firmware's
private interface to the servo state and the domain of TIME_STATUS is a write of it by the Reflex die's baker core.
(log entry 12: DESIGN CHOICE in part) (log entry 44: DESIGN CHOICE in part) -/
def State.writeReg (s : State) (who : Requester) (a v : Nat) : State :=
  if (regAt a).isNone then s
  else if pairLow a then s.writeLow who a v
  else if pairHigh a then s.writeHigh who a v
  else match if bit v 0 then s.writeCommand? who a v else none with
    | some t => t
    | none => (s.writeSpecial? who a v).getD (s.putReg a (BitVec.ofNat 32 v))

/-- True for the writes that a REFUSED device still takes (R91): those of the RST block and of the ROM update service. -/
def alwaysWritable (a : Nat) : Bool :=
  a / 0x10000 == 0x20 || a == Reg.BOOT_UPD_CTRL || a == Reg.BOOT_UPD_ADDR || a == Reg.BOOT_UPD_ADDR + 4

/-- True for an aligned 32-bit access that BAR0 decodes: a die ID below 5 (R4, R22).
(log entry 12: DESIGN CHOICE in part) -/
def bar0Ok (a : Nat) : Bool := a % 4 == 0 && decide (a / 0x1000000 < 5)

/-- REGISTER_WRITE (R6). (log entry 12: DESIGN CHOICE in part) -/
def execRegisterWrite (who : Requester) (a value : Nat) (s : State) : Host.Outcome State Fault Refusal :=
  .next (if bar0Ok a then
      s.busWrite who (a / 0x1000000) (a / 0x10000 % 0x100) (alwaysWritable a) (fun s => s.writeReg who a (value % 2 ^ 32))
    else s)

/-- PAIR_LOW_WRITE (R5). (log entry 12: DESIGN CHOICE in part) -/
def execPairLowWrite (who : Requester) (a value : Nat) (s : State) : Host.Outcome State Fault Refusal :=
  .next (if pairLow a then
      s.busWrite who (a / 0x1000000) (a / 0x10000 % 0x100) (alwaysWritable a) (fun s => s.writeLow who a value)
    else s)

/-- PAIR_HIGH_WRITE (R5). (log entry 12: DESIGN CHOICE in part) -/
def execPairHighWrite (who : Requester) (a value : Nat) (s : State) : Host.Outcome State Fault Refusal :=
  .next (if pairHigh a then
      s.busWrite who (a / 0x1000000) (a / 0x10000 % 0x100) (alwaysWritable a) (fun s => s.writeHigh who a value)
    else s)

/-- BAR0_INVALID_ACCESS (R4, R25): an access of another size or alignment is without effect and reads all ones; an aligned 32-bit read of
die ID 5 to 15, and of an offset without a register, reads zero, and its write has no effect. None is counted, but an aligned one to a
die that does not answer. (log entry 12: DESIGN CHOICE in part) -/
def execBar0InvalidAccess (a size : Nat) (write : Bool) (s : State) : Host.Outcome State Fault Refusal :=
  let zero := if write then s else { s with answer := leBytes 4 0 }
  .next (if size ≠ 4 ∨ a % 4 ≠ 0 then (if write then s else { s with answer := List.replicate size 0xFF })
    else if 5 ≤ a / 0x1000000 % 16 then zero
    else if s.hostAccess (a / 0x1000000 % 16) (a / 0x10000 % 0x100) = 1 then zero.hqEvent Ev.HQ_EVT_STATUS_bar0_absent
    else if (regAt a).isNone then zero
    else s)

/-- BAR0_ABSENT_DIE_ACCESS (R25): an access of the host to a die that does not answer. -/
def execBar0AbsentDieAccess (a : Nat) (write : Bool) (s : State) : Host.Outcome State Fault Refusal :=
  .next (if bar0Ok a ∧ s.hostAccess (a / 0x1000000) (a / 0x10000 % 0x100) = 1 then
      (if write then s else { s with answer := leBytes 4 0 }).hqEvent Ev.HQ_EVT_STATUS_bar0_absent
    else s)

end Sys2Proof.Machine
end

