-- ==== Sys2Proof/Machine/Dispatch.lean ====
section
/-! DEFINITION. The dispatch: one arm per command, one direct call of its meaning. -/

namespace Sys2Proof.Machine

def exec (i : Instr) (s : State) : Host.Outcome State Fault Refusal :=
  match i with
  | .registerWrite who a value => Sys2Proof.Machine.execRegisterWrite who a value s
  | .bar0InvalidAccess a size write => Sys2Proof.Machine.execBar0InvalidAccess a size write s
  | .bar0AbsentDieAccess a write => Sys2Proof.Machine.execBar0AbsentDieAccess a write s
  | .pairLowRead who a => Sys2Proof.Machine.execPairLowRead who a s
  | .pairHighRead who a => Sys2Proof.Machine.execPairHighRead who a s
  | .pairLowWrite who a value => Sys2Proof.Machine.execPairLowWrite who a value s
  | .pairHighWrite who a value => Sys2Proof.Machine.execPairHighWrite who a value s
  | .flitRetry => Sys2Proof.Machine.execFlitRetry s
  | .deviceTimeRealign die => Sys2Proof.Machine.execDeviceTimeRealign die s
  | .requestIssue die master loc res src bytes va => Sys2Proof.Machine.execRequestIssue die master loc res src bytes va s
  | .arbiterGrant loc res => Sys2Proof.Machine.execArbiterGrant loc res s
  | .budgetWindowStart at' => Sys2Proof.Machine.execBudgetWindowStart at' s
  | .requestComplete id => Sys2Proof.Machine.execRequestComplete id s
  | .tlbWalk die ctx va write => Sys2Proof.Machine.execTlbWalk die ctx va write s
  | .layoutFullLoad who value => Sys2Proof.Machine.execLayoutFullLoad who value s
  | .layoutPartialLoad who value => Sys2Proof.Machine.execLayoutPartialLoad who value s
  | .layoutValidate who value => Sys2Proof.Machine.execLayoutValidate who value s
  | .layoutCommit => Sys2Proof.Machine.execLayoutCommit s
  | .makeResident who k => Sys2Proof.Machine.execMakeResident who k s
  | .makeNonresident who k => Sys2Proof.Machine.execMakeNonresident who k s
  | .release who k => Sys2Proof.Machine.execRelease who k s
  | .residencyTransferComplete k found => Sys2Proof.Machine.execResidencyTransferComplete k found s
  | .scheduleActivation k => Sys2Proof.Machine.execScheduleActivation k s
  | .scheduleStepIssue ctx k => Sys2Proof.Machine.execScheduleStepIssue ctx k s
  | .budgetOverrun ctx alone n => Sys2Proof.Machine.execBudgetOverrun ctx alone n s
  | .operationComplete run => Sys2Proof.Machine.execOperationComplete run s
  | .invocationComplete k n => Sys2Proof.Machine.execInvocationComplete k n s
  | .hostReset => Sys2Proof.Machine.execHostReset s
  | .hostPortReconfigure width rate flit => Sys2Proof.Machine.execHostPortReconfigure width rate flit s
  | .bar2Read off got => Sys2Proof.Machine.execBar2Read off got s
  | .bar2Write off data => Sys2Proof.Machine.execBar2Write off data s
  | .bar4InvalidWrite off size value => Sys2Proof.Machine.execBar4InvalidWrite off size value s
  | .submissionTailDoorbell k value => Sys2Proof.Machine.execSubmissionTailDoorbell k value s
  | .completionHeadDoorbell k value => Sys2Proof.Machine.execCompletionHeadDoorbell k value s
  | .syncSlotWrite id off size value => Sys2Proof.Machine.execSyncSlotWrite id off size value s
  | .syncSlotRead id off size => Sys2Proof.Machine.execSyncSlotRead id off size s
  | .ifPropose who => Sys2Proof.Machine.execIfPropose who s
  | .ifAnswer => Sys2Proof.Machine.execIfAnswer s
  | .descriptorFetch k => Sys2Proof.Machine.execDescriptorFetch k s
  | .invocationStart k => Sys2Proof.Machine.execInvocationStart k s
  | .sqFetchFault k => Sys2Proof.Machine.execSqFetchFault k s
  | .cqWriteFault k => Sys2Proof.Machine.execCqWriteFault k s
  | .queueStop who k value => Sys2Proof.Machine.execQueueStop who k value s
  | .queueRun who k value => Sys2Proof.Machine.execQueueRun who k value s
  | .queueAbort who k value => Sys2Proof.Machine.execQueueAbort who k value s
  | .notifierArm who k value => Sys2Proof.Machine.execNotifierArm who k value s
  | .notifierFire k => Sys2Proof.Machine.execNotifierFire k s
  | .bakerWatchdogExpiry die => Sys2Proof.Machine.execBakerWatchdogExpiry die s
  | .bakerRestartComplete die => Sys2Proof.Machine.execBakerRestartComplete die s
  | .gemm run ecc => Sys2Proof.Machine.execGemm run ecc s
  | .conv run ecc => Sys2Proof.Machine.execConv run ecc s
  | .ew run ecc => Sys2Proof.Machine.execEw run ecc s
  | .stemFirst run ecc => Sys2Proof.Machine.execStemFirst run ecc s
  | .stemLast run ecc => Sys2Proof.Machine.execStemLast run ecc s
  | .stemLastArgmax run ecc => Sys2Proof.Machine.execStemLastArgmax run ecc s
  | .argmax run ecc => Sys2Proof.Machine.execArgmax run ecc s
  | .handoffPut op => Sys2Proof.Machine.execHandoffPut op s
  | .handoffPutPublish run => Sys2Proof.Machine.execHandoffPutPublish run s
  | .handoffTake op => Sys2Proof.Machine.execHandoffTake op s
  | .specVerify part => Sys2Proof.Machine.execSpecVerify part s
  | .kvAppend op => Sys2Proof.Machine.execKvAppend op s
  | .attn run ecc => Sys2Proof.Machine.execAttn run ecc s
  | .kvCreate who seq => Sys2Proof.Machine.execKvCreate who seq s
  | .kvFree who seq => Sys2Proof.Machine.execKvFree who seq s
  | .kvTruncate who seq => Sys2Proof.Machine.execKvTruncate who seq s
  | .kvGrant who seq => Sys2Proof.Machine.execKvGrant who seq s
  | .kvRead who seq => Sys2Proof.Machine.execKvRead who seq s
  | .kvCmdTakeEffect => Sys2Proof.Machine.execKvCmdTakeEffect s
  | .kvPoolWrite who pages value => Sys2Proof.Machine.execKvPoolWrite who pages value s
  | .seqChunk part ecc => Sys2Proof.Machine.execSeqChunk part ecc s
  | .seqBind who die value => Sys2Proof.Machine.execSeqBind who die value s
  | .seqSwapOut who die value => Sys2Proof.Machine.execSeqSwapOut who die value s
  | .seqRestore who die value => Sys2Proof.Machine.execSeqRestore who die value s
  | .seqUnbind who die value => Sys2Proof.Machine.execSeqUnbind who die value s
  | .seqSlotRelease die => Sys2Proof.Machine.execSeqSlotRelease die s
  | .seqTransferComplete die found => Sys2Proof.Machine.execSeqTransferComplete die found s
  | .tierAlloc who value => Sys2Proof.Machine.execTierAlloc who value s
  | .tierFree who value => Sys2Proof.Machine.execTierFree who value s
  | .tierShare who value => Sys2Proof.Machine.execTierShare who value s
  | .tierLinkSeq who value => Sys2Proof.Machine.execTierLinkSeq who value s
  | .tierUnlinkSeq who value => Sys2Proof.Machine.execTierUnlinkSeq who value s
  | .tierFlush who value => Sys2Proof.Machine.execTierFlush who value s
  | .tierUnmapTakeEffect => Sys2Proof.Machine.execTierUnmapTakeEffect s
  | .prefetchIssue run => Sys2Proof.Machine.execPrefetchIssue run s
  | .prefetchComplete run idx found => Sys2Proof.Machine.execPrefetchComplete run idx found s
  | .prefetchDeadline run => Sys2Proof.Machine.execPrefetchDeadline run s
  | .prefetchWaitTimeout run => Sys2Proof.Machine.execPrefetchWaitTimeout run s
  | .memoryScrub addr ecc => Sys2Proof.Machine.execMemoryScrub addr ecc s
  | .flashRead word d => Sys2Proof.Machine.execFlashRead word d s
  | .flashWrite addr data => Sys2Proof.Machine.execFlashWrite addr data s
  | .journalCommit => Sys2Proof.Machine.execJournalCommit s
  | .flashRelocation block fresh => Sys2Proof.Machine.execFlashRelocation block fresh s
  | .wearLevelling block fresh => Sys2Proof.Machine.execWearLevelling block fresh s
  | .blockRetire block fresh => Sys2Proof.Machine.execBlockRetire block fresh s
  | .snapshotArm who die time => Sys2Proof.Machine.execSnapshotArm who die time s
  | .snapshotTake die => Sys2Proof.Machine.execSnapshotTake die s
  | .latencyMaxClear who die => Sys2Proof.Machine.execLatencyMaxClear who die s
  | .timeRateWrite who value => Sys2Proof.Machine.execTimeRateWrite who value s
  | .timeStep who value => Sys2Proof.Machine.execTimeStep who value s
  | .ethFrameReceive port ago frame => Sys2Proof.Machine.execEthFrameReceive port ago frame s
  | .ethFrameTransmit port ago frame => Sys2Proof.Machine.execEthFrameTransmit port ago frame s
  | .ptpFifoPop who port => Sys2Proof.Machine.execPtpFifoPop who port s
  | .ppsInEdge => Sys2Proof.Machine.execPpsInEdge s
  | .ppsOutRise => Sys2Proof.Machine.execPpsOutRise s
  | .ppsOutFall => Sys2Proof.Machine.execPpsOutFall s
  | .ethCtrlWrite who port value => Sys2Proof.Machine.execEthCtrlWrite who port value s
  | .jbusCmdBuild idx => Sys2Proof.Machine.execJbusCmdBuild idx s
  | .jbusCmdTransmit idx ago corrupt => Sys2Proof.Machine.execJbusCmdTransmit idx ago corrupt s
  | .jbusFbReceive => Sys2Proof.Machine.execJbusFbReceive s
  | .jbusFbCheck idx => Sys2Proof.Machine.execJbusFbCheck idx s
  | .ethLinkDown port => Sys2Proof.Machine.execEthLinkDown port s
  | .ethLinkUp port speed swapped => Sys2Proof.Machine.execEthLinkUp port speed swapped s
  | .jbusClear who idx => Sys2Proof.Machine.execJbusClear who idx s
  | .csiFrameReceive port vc kind number ago ownStamp dt data hdrCorr crcOk => Sys2Proof.Machine.execCsiFrameReceive port vc kind number ago ownStamp dt data hdrCorr crcOk s
  | .simEntryRelease idx => Sys2Proof.Machine.execSimEntryRelease idx s
  | .fusionCutoff => Sys2Proof.Machine.execFusionCutoff s
  | .fusionSlotComplete => Sys2Proof.Machine.execFusionSlotComplete s
  | .mapFork who slot => Sys2Proof.Machine.execMapFork who slot s
  | .mapClear who slot => Sys2Proof.Machine.execMapClear who slot s
  | .mapWrite who slot => Sys2Proof.Machine.execMapWrite who slot s
  | .mapLoad who slot => Sys2Proof.Machine.execMapLoad who slot s
  | .mapSnapshot who slot => Sys2Proof.Machine.execMapSnapshot who slot s
  | .mapBuildSdf who => Sys2Proof.Machine.execMapBuildSdf who s
  | .sdfBuildBegin => Sys2Proof.Machine.execSdfBuildBegin s
  | .mapEnterTree who => Sys2Proof.Machine.execMapEnterTree who s
  | .mapEnterSdf who => Sys2Proof.Machine.execMapEnterSdf who s
  | .mapModeChange => Sys2Proof.Machine.execMapModeChange s
  | .planBatch op => Sys2Proof.Machine.execPlanBatch op s
  | .solvRun op => Sys2Proof.Machine.execSolvRun op s
  | .solverDeadline run outer inner => Sys2Proof.Machine.execSolverDeadline run outer inner s
  | .factorBudgetExpiry run => Sys2Proof.Machine.execFactorBudgetExpiry run s
  | .loopPass engine bad => Sys2Proof.Machine.execLoopPass engine bad s
  | .loopClear who slot => Sys2Proof.Machine.execLoopClear who slot s
  | .crustEvent => Sys2Proof.Machine.execCrustEvent s
  | .heartbeatMiss => Sys2Proof.Machine.execHeartbeatMiss s
  | .clockMonitorTrip deviation => Sys2Proof.Machine.execClockMonitorTrip deviation s
  | .crustLockstepMismatch => Sys2Proof.Machine.execCrustLockstepMismatch s
  | .cmdEgressCheck idx => Sys2Proof.Machine.execCmdEgressCheck idx s
  | .fallbackBuild idx => Sys2Proof.Machine.execFallbackBuild idx s
  | .ss1RampEnd g => Sys2Proof.Machine.execSs1RampEnd g s
  | .psfEvaluate frame => Sys2Proof.Machine.execPsfEvaluate frame s
  | .psfValidityExpiry => Sys2Proof.Machine.execPsfValidityExpiry s
  | .psfSpeed stream rec' => Sys2Proof.Machine.execPsfSpeed stream rec' s
  | .starterDigest idx => Sys2Proof.Machine.execStarterDigest idx s
  | .starterLate idx => Sys2Proof.Machine.execStarterLate idx s
  | .stoReadbackFault output high ns => Sys2Proof.Machine.execStoReadbackFault output high ns s
  | .estopOpen channel ns => Sys2Proof.Machine.execEstopOpen channel ns s
  | .estopDiscrepancy aClosed ns => Sys2Proof.Machine.execEstopDiscrepancy aClosed ns s
  | .estopReset who value closedNs => Sys2Proof.Machine.execEstopReset who value closedNs s
  | .sioHoldWrite who value => Sys2Proof.Machine.execSioHoldWrite who value s
  | .crustClear who value => Sys2Proof.Machine.execCrustClear who value s
  | .chgNonce who => Sys2Proof.Machine.execChgNonce who s
  | .chgStage who party => Sys2Proof.Machine.execChgStage who party s
  | .chgCommit who party => Sys2Proof.Machine.execChgCommit who party s
  | .chgStageExpiry => Sys2Proof.Machine.execChgStageExpiry s
  | .proofRunOnDemand who => Sys2Proof.Machine.execProofRunOnDemand who s
  | .proofFailRepeat => Sys2Proof.Machine.execProofFailRepeat s
  | .selftestSlot g detected => Sys2Proof.Machine.execSelftestSlot g detected s
  | .stoPulseEnd high => Sys2Proof.Machine.execStoPulseEnd high s
  | .estopTestEnd closed => Sys2Proof.Machine.execEstopTestEnd closed s
  | .selftestOverdue slot g => Sys2Proof.Machine.execSelftestOverdue slot g s
  | .bringUp ok data => Sys2Proof.Machine.execBringUp ok data s
  | .stepTimeout => Sys2Proof.Machine.execStepTimeout s
  | .bootUpdate who value => Sys2Proof.Machine.execBootUpdate who value s
  | .bootUpdateComplete agrees => Sys2Proof.Machine.execBootUpdateComplete agrees s
  | .bootLogClear who => Sys2Proof.Machine.execBootLogClear who s
  | .attestationQuote who => Sys2Proof.Machine.execAttestationQuote who s
  | .debugUnlockExpiry => Sys2Proof.Machine.execDebugUnlockExpiry s
  | .powerOnReset => Sys2Proof.Machine.execPowerOnReset s
  | .brownout r depth ns => Sys2Proof.Machine.execBrownout r depth ns s
  | .pinResetAssert samples => Sys2Proof.Machine.execPinResetAssert samples s
  | .pinResetRelease samples => Sys2Proof.Machine.execPinResetRelease samples s
  | .crustReset => Sys2Proof.Machine.execCrustReset s
  | .thermSourceClear => Sys2Proof.Machine.execThermSourceClear s
  | .swResetModule who value => Sys2Proof.Machine.execSwResetModule who value s
  | .swResetDies who value => Sys2Proof.Machine.execSwResetDies who value s
  | .dieBringupRepeat die mods ready => Sys2Proof.Machine.execDieBringupRepeat die mods ready s
  | .resetHoldEnd => Sys2Proof.Machine.execResetHoldEnd s
  | .domainRelease => Sys2Proof.Machine.execDomainRelease s
  | .blockResetDrain who value => Sys2Proof.Machine.execBlockResetDrain who value s
  | .blockResetSirug who value => Sys2Proof.Machine.execBlockResetSirug who value s
  | .blockDrainDone => Sys2Proof.Machine.execBlockDrainDone s
  | .blockDrainTimeout => Sys2Proof.Machine.execBlockDrainTimeout s
  | .blockResetRelease => Sys2Proof.Machine.execBlockResetRelease s
  | .powerSample mw vinMv bankMv => Sys2Proof.Machine.execPowerSample mw vinMv bankMv s
  | .railTargetUpdate => Sys2Proof.Machine.execRailTargetUpdate s
  | .railStepComplete r => Sys2Proof.Machine.execRailStepComplete r s
  | .droopDetect d depth => Sys2Proof.Machine.execDroopDetect d depth s
  | .droopPersist d => Sys2Proof.Machine.execDroopPersist d s
  | .droopLimitRaise r => Sys2Proof.Machine.execDroopLimitRaise r s
  | .thermalSample readings => Sys2Proof.Machine.execThermalSample readings s
  | .thermThrottleStep r => Sys2Proof.Machine.execThermThrottleStep r s
  | .thermRecoverStep r => Sys2Proof.Machine.execThermRecoverStep r s
  | .inputLoss vinMv ns => Sys2Proof.Machine.execInputLoss vinMv ns s
  | .inputRestored vinMv ns => Sys2Proof.Machine.execInputRestored vinMv ns s
  | .holdupExhausted bankMv => Sys2Proof.Machine.execHoldupExhausted bankMv s
  | .spwrOverload k ma ns => Sys2Proof.Machine.execSpwrOverload k ma ns s
  | .spwrOpen k ma ns => Sys2Proof.Machine.execSpwrOpen k ma ns s
  | .spwrBackfeed k mv => Sys2Proof.Machine.execSpwrBackfeed k mv s
  | .spwrReverse k mv => Sys2Proof.Machine.execSpwrReverse k mv s
  | .spwrEnableWrite who k value => Sys2Proof.Machine.execSpwrEnableWrite who k value s
  | .stoShortGnd x ma ns => Sys2Proof.Machine.execStoShortGnd x ma ns s
  | .stoExternalVoltage x mv ns => Sys2Proof.Machine.execStoExternalVoltage x mv ns s
  | .stoOpenWire x ma ns => Sys2Proof.Machine.execStoOpenWire x ma ns s
  | .stoReverseSource x mv => Sys2Proof.Machine.execStoReverseSource x mv s
  | .estopSourceShort channel ma ns => Sys2Proof.Machine.execEstopSourceShort channel ma ns s
  | .ethCableDiagnostic port cond distance => Sys2Proof.Machine.execEthCableDiagnostic port cond distance s
  | .sioWireClear who live => Sys2Proof.Machine.execSioWireClear who live s
  | .smbusReadByte c => Sys2Proof.Machine.execSmbusReadByte c s
  | .smbusReadWord c => Sys2Proof.Machine.execSmbusReadWord c s
  | .smbusWrite c data => Sys2Proof.Machine.execSmbusWrite c data s
  | .stretchEnd d cycles => Sys2Proof.Machine.execStretchEnd d cycles s
  | .proofRunComplete fails => Sys2Proof.Machine.execProofRunComplete fails s
  | .sdfBuildComplete => Sys2Proof.Machine.execSdfBuildComplete s

end Sys2Proof.Machine
end

