-- ==== Sys2Proof/Machine/Tick.lean ====
section
/-! DEFINITION. What one RX_ETH cycle does while no command waits: the time bases advance (R216, R217), slots whose takeover instant
comes go to OFF (R336), the proof run tests the outputs (R367), and a quote that is being formed is written (R401). -/

namespace Sys2Proof.Machine

/-- The advance of device time in one RX_ETH cycle of 3.2 ns, with the rate adjustment: in units of 1/(80 × 10^9) ns, one
unit of adj (2^-8 ppb of 3.2 ns) is exactly 1.
(log entry 2: DESIGN CHOICE in part; log entry 42: DESIGN CHOICE in part) -/
def State.tickStep (s : State) : Int := 256000000000 + toSigned 32 (s.fld Fld.TIME_RATE_adj)

/-- One RX_ETH cycle: device time advances by 3.2 ns × (1 + a) unless its domain (8) is held in reset, and the always-on time
base by 3.2 ns. (log entry 2: DESIGN CHOICE in part; log entry 42: DESIGN CHOICE in part) -/
def State.tick (s : State) : State :=
  { s with
    devTime := if s.held.contains 8 then s.devTime else ((s.devTime : Int) + s.tickStep).toNat
    mono := s.mono + 32 }

/-- The slots of every group whose takeover instant has come go to OFF (R336). (log entry 58: DEDUCED in part) -/
def State.holdAll (s : State) : State := (List.range 4).foldl (fun (a : State) g => a.holdSlots g a.now) s

/-- What happens in a cycle in which no command waits: time advances, slots are held, a proof run tests the outputs, and a quote that
is being formed is written, which R401 bounds to 10 ms. (log entry 2: DESIGN CHOICE in part; log entry 67: DEDUCED in part) -/
def State.idle (s : State) : State := s.tick.holdAll.proofPulse.finishQuote

end Sys2Proof.Machine
end

