-- ==== Sys2Proof/Safety.lean ====
section
/-! DEFINITION. What a safe state of the module is, in the terms the claims use. -/

namespace Sys2Proof.Machine

/-- Physical memory in its canonical form: addresses strictly rising, and no entry equal to what an unlisted address reads
as. -/
def Memory.wf (m : Memory) : Bool := Sparse.wf (memDefault m.fills) m.cells

/-- The register file in its canonical form. -/
def State.regsWf (s : State) : Bool := Sparse.wf resetOf s.regs

/-- A rail within the bounds of R419 and R420: its points lie between its lowest permitted point and OPP_15, its limits at or
below OPP_15, and RAIL_AON and RAIL_IO stay at OPP_15. -/
def railOk (r : Nat) (x : Rail) : Bool :=
  decide (lowestPoint r ≤ x.current) && decide (x.current ≤ 15) && decide (lowestPoint r ≤ x.target) && decide (x.target ≤ 15) &&
    decide (x.capLimit ≤ 15) && decide (x.thermLimit ≤ 15) && decide (x.droopLimit ≤ 15) &&
    (!fixedRail r || (x.current == 15 && x.target == 15))

/-- The eight rails of the module, each within its bounds. -/
def State.railsOk (s : State) : Bool :=
  decide (s.rails.length = 8) && (List.range 8).all (fun r => railOk r (s.rail r))

/-- A length-table entry within R142 and R143: the committed length does not exceed the tentative one, and no layer is named
outside an open group. -/
def KvEntry.ok (e : KvEntry) : Bool := decide (e.committed ≤ e.tentative) && (e.groupOpen || e.cursor == 0)

/-- True where safe torque off is asserted on every group. -/
def State.allAsserted (s : State) : Bool := s.fld Fld.SIO_STO_STATUS_asserted == 15

/-- True where a register write by a requester reaches a block (R4, R25, R91, R388, R414): the die answers, no reset of the block
runs, recovery serves the block, and in REFUSED the host reaches only what is `always` served. -/
def State.served (s : State) (who : Requester) (die block : Nat) (always : Bool) : Bool :=
  match who with
  | .host => s.hostAccess die block == 0 && (s.fld Fld.HQ_DEV_STATE_state != 4 || always)
  | _ => s.blkOpen die block

/-- True where a register read by a requester reaches a block (R4, R25, R388, R414). -/
def State.readable (s : State) (who : Requester) (die block : Nat) : Bool :=
  match who with
  | .host => s.hostAccess die block == 0
  | _ => s.blkOpen die block

/-- A status bit has been set by hardware once (R8): the bit reads 1 and its companion counter has advanced by one, wrapping
at 2^16. -/
def Counted (s t : State) (e : Evt) : Prop :=
  (t.reg e.status).getLsbD e.bit = true ∧ (t.reg e.counter).toNat = ((s.reg e.counter).toNat + 1) % 65536

/-- The registers of an event: its status register and its counter. -/
def Evt.regs (e : Evt) : List Nat := [e.status, e.counter]

/-- Every register keeps its value but those at the offsets listed. -/
def RegsKept (s t : State) (except : List Nat) : Prop := ∀ a, a ∉ except → t.reg a = s.reg a

/-- Every register outside the blocks listed keeps its value; block b of die d is d * 256 + b (R25). -/
def BlocksKept (s t : State) (blocks : List Nat) : Prop := ∀ a, a / 65536 ∉ blocks → t.reg a = s.reg a

end Sys2Proof.Machine
end

