-- ==== Sys2Proof/Certificates/Slice0/Obligations.lean ====
section
/-! DEFINITION. The statements for the provers. Each is about the machine, never about a program; its docstring names the rules of
spec/ that it formalises, and the commands whose completion it states. -/

open Sys2Proof Sys2Proof.Machine

/-! ### The queue and the clock -/

/-- A step takes the command at the front of the queue and executes it on the state with the queue's rest. -/
def Obligations.StepRunsFront : Prop :=
  ∀ (c : Instr) (rest : List Instr) (s : State), step { s with pending := c :: rest } = exec c { s with pending := rest }

/-! ### Power, clocks and thermal control (chapter 23) -/

/-- R421, R424 (RAIL_TARGET_UPDATE): every rail's target is set, RAIL_AON and RAIL_IO to OPP_15 and the others to the lesser of
preference and limits, held up to the floor; a powered rail that rests off its target begins a step, and nothing but rails, the
preferences held over by a partial load (R66) and the cycles noted before the clocks change (R76) changes.

R421 (RAIL_STEP_COMPLETE): 25 µs after its start a step of one point is complete: a rail within its bounds has moved by
exactly one point, and goes on towards its target; every other rail and every other part of the state stays, but the cycles noted
before its clocks change (R76).

R422, R423 (DROOP_DETECT, STRETCH_END, DROOP_PERSIST, DROOP_LIMIT_RAISE): a droop of 5 % starts clock stretching in a domain
and is counted; the end of stretching adds the stretched cycles; 10 µs of stretching lower the rail's droop limit by one point
and are counted; 10 ms after the last change the limit rises by one point.
Where the spec is silent it follows the model's choices and readings of log entry 72. -/
def Obligations.RailControl : Prop :=
  (∀ s : State, s.rails.length = 8 → ∃ t, exec .railTargetUpdate s = .next t ∧
    (∀ r, r < 8 →
      (t.rail r).target = (if fixedRail r then 15 else
        max (s.dropPref.railFloor r) (min (s.dropPref.preferred r) (min (s.rail r).capLimit (min (s.rail r).thermLimit
          (min (s.rail r).droopLimit (s.fld (Fld.PWR_RAIL_LIMIT_sw_max r))))))) ∧
      (t.rail r).step = (if (s.rail r).off || (s.rail r).step.isSome || (s.rail r).current == (t.rail r).target then (s.rail r).step
        else some (decide ((s.rail r).current < (t.rail r).target), s.monoNs)) ∧
      { t.rail r with target := (s.rail r).target, step := (s.rail r).step } = s.rail r) ∧
    t = { s.dropPref.noteCycles (fun _ => true) 0 with rails := t.rails } ∧ { t.power with oldPref := s.power.oldPref } = s.power) ∧
  (∀ (r : Nat) (s : State) (up : Bool) (start : Nat), r < 8 → s.rails.length = 8 → railOk r (s.rail r) = true →
    fixedRail r = false → (s.rail r).step = some (up, start) → start + 25000 ≤ s.monoNs →
    (if up then (s.rail r).current < 15 else lowestPoint r < (s.rail r).current) →
    ∃ t, exec (.railStepComplete r) s = .next t ∧
      (t.rail r).current = (if up then (s.rail r).current + 1 else (s.rail r).current - 1) ∧
      (t.rail r).step = (if (s.rail r).off || (t.rail r).current == (s.rail r).target then none
        else some (decide ((t.rail r).current < (s.rail r).target), s.monoNs)) ∧
      { t.rail r with current := (s.rail r).current, step := (s.rail r).step } = s.rail r ∧
      (∀ q, q ≠ r → t.rail q = s.rail q) ∧ t = { s.noteCycles (fun d => domainRail d == r) 0 with rails := t.rails }) ∧
  (∀ (d depth : Nat) (s : State), d < 40 → 50 ≤ depth → s.stretchFrom d = none → s.held.contains d = false →
    ∃ t, exec (.droopDetect d depth) s = .next t ∧ t.stretchFrom d = some s.monoNs ∧
      t.fld (Fld.CLK_DOM_stretching (domainDie d) d) = 1 ∧ Counted s t (Ev.CLK_EVT_STATUS_droop (domainDie d)) ∧
      RegsKept s t ((Fld.CLK_DOM_stretching (domainDie d) d).addr :: (Ev.CLK_EVT_STATUS_droop (domainDie d)).regs) ∧
      t = { s with regs := t.regs, power := t.power }) ∧
  (∀ (d cycles start : Nat) (s : State), d < 40 → s.stretchFrom d = some start →
    ∃ t, exec (.stretchEnd d cycles) s = .next t ∧ t.stretchFrom d = none ∧
      t.fld (Fld.CLK_DOM_stretching (domainDie d) d) = 0 ∧
      t.fld (Fld.CLK_DOM_stretched (domainDie d) d) = (s.fld (Fld.CLK_DOM_stretched (domainDie d) d) + cycles) % 65536 ∧
      RegsKept s t [(Fld.CLK_DOM_stretching (domainDie d) d).addr] ∧
      t = { s.noteCycles (fun x => x == d) (8000000 * cycles) with regs := t.regs, power := t.power }) ∧
  (∀ (d start : Nat) (s : State), d < 40 → s.rails.length = 8 → s.stretchFrom d = some start → start + 10000 ≤ s.monoNs →
    ∃ t, exec (.droopPersist d) s = .next t ∧
      t.rails = s.rails.set (domainRail d)
        { s.rail (domainRail d) with droopLimit := (s.rail (domainRail d)).droopLimit - 1, droopAt := s.monoNs } ∧
      Counted s t (Ev.CLK_EVT_STATUS_droop_persist (domainDie d)) ∧
      t = { s with regs := t.regs, power := t.power, rails := t.rails } ∧
     BlocksKept s t [domainDie d * 256 + 1]) ∧
  (∀ (r : Nat) (s : State), r < 8 → s.rails.length = 8 → (s.rail r).droopLimit < 15 → (s.rail r).droopAt + 10000000 ≤ s.monoNs →
    ∃ t, exec (.droopLimitRaise r) s = .next t ∧
      t = { s with rails := s.rails.set r { s.rail r with droopLimit := (s.rail r).droopLimit + 1, droopAt := s.monoNs } })

/-- The rails whose cap limit lies above their floor, in throttle order (R419, R427). -/
def lowerable (s : State) : List Nat := throttleOrder.filter (fun r => decide (s.railFloor r < (s.rail r).capLimit))

/-- The samples that the mean of R428 takes in once one more has come. -/
def samplesWith (s : State) (mw : Nat) : List Nat := (s.power.samples ++ [mw]).drop (s.power.samples.length - 9)

/-- R432 (THERMAL_SAMPLE): each of the 26 sensors holds its reading, in its register too; while every reading lies below its unit's
trip temperature, nothing but registers, the sensors' samples and the rails' cooling times changes.

R433 (THERM_THROTTLE_STEP, THERM_RECOVER_STEP): a rail with a sensor at or above its unit's throttle threshold loses one point
of its thermal limit each 1 ms, and one that has been cool for 10 ms gains one each 10 ms.
Where the spec is silent it follows the model's choices and readings of log entry 73. -/
def Obligations.ThermalControl : Prop :=
  (∀ (readings : List Int) (s : State), s.blkOpen 0 0x31 = true → readings.length = 26 → s.rails.length = 8 →
    (∀ p, p ∈ allSensors.zip readings → p.2 < 8 * (tripC p.1.1 : Int)) →
    ∃ t, exec (.thermalSample readings) s = .next t ∧
      (∀ p, p ∈ allSensors.zip readings → (t.sensor p.1.1 p.1.2).reading = p.2 ∧
        t.fld (Fld.THRM_TEMP_temp p.1.1 p.1.2) = ofSigned 16 p.2) ∧
      t = { s with regs := t.regs, power := t.power, rails := t.rails } ∧
      (∀ r, r < 8 → { t.rail r with coolSince := (s.rail r).coolSince } = s.rail r) ∧
   BlocksKept s t [0x21, 0x31]) ∧
  (∀ (r : Nat) (s : State), r < 8 → s.rails.length = 8 →
    (railSensors r).any (fun p => decide (8 * (s.throttleC p.1 : Int) ≤ s.temp p.1 p.2)) = true →
    (s.rail r).thermAt + 1000000 ≤ s.monoNs →
    ∃ t, exec (.thermThrottleStep r) s = .next t ∧
      t.rails = s.rails.set r { s.rail r with thermLimit := (s.rail r).thermLimit - 1, thermAt := s.monoNs } ∧
      Counted s t Ev.THRM_EVT_STATUS_throttle ∧ RegsKept s t Ev.THRM_EVT_STATUS_throttle.regs ∧
      t = { s with regs := t.regs, rails := t.rails }) ∧
  (∀ (r since : Nat) (s : State), r < 8 → s.rails.length = 8 → (s.rail r).coolSince = some since → (s.rail r).thermLimit < 15 →
    since + 10000000 ≤ s.monoNs → (s.rail r).thermAt + 10000000 ≤ s.monoNs →
    ∃ t, exec (.thermRecoverStep r) s = .next t ∧
      t = { s with rails := s.rails.set r { s.rail r with thermLimit := (s.rail r).thermLimit + 1, thermAt := s.monoNs } })

/-- R427 (POWER_SAMPLE above the cap): cap_throttle is counted, and the first n rails in throttle order whose cap limit lies
above their floor lose one point of it, n being 1 up to 5 % of excess, 2 up to 20 % and 4 beyond; no other rail changes while the mean of ten samples is above 90 % of the cap.

R425, R428 (POWER_SAMPLE at or below the cap): the energy accumulator advances by the sample, the last ten samples are kept,
cap_unmet clears, and no rail's limit falls.

R429, R430 (INPUT_LOSS, INPUT_RESTORED, HOLDUP_EXHAUSTED, BROWNOUT): a supply below 32 V for 50 µs is input loss, which is
counted, puts the cap limit of every Cognition rail at its floor and switches the sensor supplies off; 10 ms above 34 V end it;
a bank below 28 V switches off every rail but RAIL_AON and resets the module, as a rail more than 8 % low for 1 µs does. A RAIL_AON
below 0.700 V, and a supply that qualifies again after the bank has gone, start the module as at power-on.
Where the spec is silent it follows the model's choices and readings of log entries 72 and 73. -/
def Obligations.PowerCap : Prop :=
  (∀ (mw vin bank : Nat) (s : State), s.rails.length = 8 → s.capMw < mw → lowerable s ≠ [] →
    ((samplesWith s mw).length < 10 ∨ s.capMw * 9 < (samplesWith s mw).sum) →
    ∃ t, exec (.powerSample mw vin bank) s = .next t ∧
      (let n := if (mw - s.capMw) * 20 ≤ s.capMw then 1 else if (mw - s.capMw) * 5 ≤ s.capMw then 2 else 4
       ∀ r, r < 8 → t.rail r = if r ∈ (lowerable s).take n then { s.rail r with capLimit := (s.rail r).capLimit - 1 } else s.rail r) ∧
      Counted s t Ev.PWR_EVT_STATUS_cap_throttle ∧ t.rails.length = 8 ∧
      t = { s with regs := t.regs, power := t.power, rails := t.rails } ∧
   BlocksKept s t [0x21]) ∧
  (∀ (mw vin bank : Nat) (s : State), s.rails.length = 8 → mw ≤ s.capMw →
    ∃ t, exec (.powerSample mw vin bank) s = .next t ∧
      t.reg64 Reg.PWR_ENERGY = (s.reg64 Reg.PWR_ENERGY + (s.power.energyFrac + mw) / 10) % 2 ^ 64 ∧
      t.power.samples = samplesWith s mw ∧
      t.fld Fld.PWR_STATUS_cap_unmet = 0 ∧ t.fld Fld.PWR_INPUT_mw = mw % 2 ^ Fld.PWR_INPUT_mw.width ∧
      (∀ r, r < 8 → (s.rail r).capLimit ≤ (t.rail r).capLimit ∧ { t.rail r with capLimit := (s.rail r).capLimit } = s.rail r) ∧
      t = { s with regs := t.regs, power := t.power, rails := t.rails } ∧
   RegsKept s t [Reg.PWR_STATUS, Reg.PWR_INPUT, Reg.PWR_VOLT, Reg.PWR_ENERGY, Reg.PWR_ENERGY + 4]) ∧
  (∀ (vin ns : Nat) (s : State), s.rails.length = 8 → s.flag Fld.PWR_STATUS_input_loss = false → vin < 32000 → 50000 ≤ ns →
    ∃ t, exec (.inputLoss vin ns) s = .next t ∧ t.flag Fld.PWR_STATUS_input_loss = true ∧ t.fld Fld.PWR_STATUS_code = 0x0D42 ∧
      Counted s t Ev.PWR_EVT_STATUS_input_loss ∧ (∀ k, k < 4 → t.fld (Fld.PWR_SPWR_CTRL_en k) = 0) ∧
      (∀ r, r < 8 → t.rail r = if 2 ≤ r ∧ r ≤ 6 then { s.rail r with capLimit := s.railFloor r } else s.rail r) ∧
     BlocksKept s t [0x21, 0x143] ∧ t = { s with regs := t.regs, rails := t.rails, flash := t.flash, power := t.power }) ∧
  (∀ (vin ns : Nat) (s : State), s.flag Fld.PWR_STATUS_input_loss = true → s.railsOff = false → 34000 < vin → vin ≤ 62000 →
    10000000 ≤ ns → ∃ t, exec (.inputRestored vin ns) s = .next t ∧ t.flag Fld.PWR_STATUS_input_loss = false ∧
      t.fld Fld.PWR_VOLT_vin_mv = vin % 2 ^ Fld.PWR_VOLT_vin_mv.width ∧
      RegsKept s t [Fld.PWR_STATUS_input_loss.addr, Fld.PWR_VOLT_vin_mv.addr] ∧ t = { s with regs := t.regs }) ∧
  (∀ (bank : Nat) (s : State), s.rails.length = 8 → s.flag Fld.PWR_STATUS_input_loss = true → bank < 28000 →
    ∃ t, exec (.holdupExhausted bank) s = .next t ∧ (∀ r, r < 8 → (t.rail r).off = ((s.rail r).off || decide (1 ≤ r))) ∧
      t.rst.episode = true ∧ (∀ d, 1 ≤ d → d < 40 → t.held.contains d = true)) ∧
  (∀ (r depth ns : Nat) (s : State), 1 ≤ r → r < 8 → 80 < depth → 1000 ≤ ns →
    ∃ t, exec (.brownout r depth ns) s = .next t ∧ t.rst.episode = true ∧ (∀ d, 1 ≤ d → d < 40 → t.held.contains d = true) ∧
      t.rails = s.rails) ∧
  (∀ (depth ns : Nat) (s : State), 67 ≤ depth →
    ∃ t, exec (.brownout 0 depth ns) s = .next t ∧ t.rst.episode = true ∧ t.rst.full = true ∧ t.held = List.range 40 ∧
      t.fld Fld.RST_CAUSE_first = 1) ∧
  (∀ (vin ns : Nat) (s : State), s.flag Fld.PWR_STATUS_input_loss = true → s.railsOff = true → 34000 < vin → vin ≤ 62000 →
    10000000 ≤ ns → ∃ t, exec (.inputRestored vin ns) s = .next t ∧ t.rst.episode = true ∧ t.rst.full = true ∧
      t.held = List.range 40 ∧ t.railsOff = false ∧ t.fld Fld.RST_CAUSE_first = 1)

/-! ### Wiring, sensor supplies and the status page (chapter 24) -/

/-- R445, R446 (SPWR_OVERLOAD, SPWR_OPEN, SPWR_BACKFEED, SPWR_REVERSE, SPWR_ENABLE_WRITE): an overload trips a sensor supply off,
a current below 10 mA is reported as OPEN, an outside voltage switches the output off, and a write of en switches it on outside
the 100 ms after a trip, unless an outside voltage has switched it off in the same reference cycle; each is counted and changes that
supply's two registers alone.

R445 (STO_SHORT_GND, STO_EXTERNAL_VOLTAGE, STO_OPEN_WIRE, STO_REVERSE_SOURCE, ESTOP_SOURCE_SHORT): a wiring fault of an output
or an emergency-stop channel is live in its entry, its condition is latched where none was, and SIO_FAULT (event 0x16 of R346)
goes to Crust; a short or a reversed source switches the output off, and a shorted channel reads open. A measurement that does not find
the condition any more ends it, and the latch stays.

R445 (SIO_WIRE_CLEAR, ETH_CABLE_DIAGNOSTIC): the clear ends every latched condition that is not present now and keeps the
others; a cable diagnostic reports its condition and distance, and is counted where it finds a fault.

R441 (SMBUS_READ_BYTE, SMBUS_READ_WORD, SMBUS_WRITE): a Read Byte answers one byte of the status page and a Read Word with an
even code two bytes of one sample; a write has no effect. Read Byte 0 and 1 spell the vendor 0x5A1E.
Where the spec is silent it follows the model's choices and readings of log entry 74. -/
def Obligations.Wiring : Prop :=
  (∀ (k ma ns : Nat) (s : State), k < 4 → s.flag (Fld.PWR_SPWR_CTRL_en k) = true → (5000 < ma ∨ (2000 < ma ∧ 1000000 ≤ ns)) →
    ∃ t, exec (.spwrOverload k ma ns) s = .next t ∧ t.flag (Fld.PWR_SPWR_CTRL_en k) = false ∧
      t.fld (Fld.PWR_SPWR_STATUS_state k) = 2 ∧ t.fld (Fld.PWR_SPWR_STATUS_ma k) = 0 ∧ Counted s t Ev.PWR_SPWR_EVT_trip ∧
      RegsKept s t (Reg.PWR_SPWR_CTRL k :: Reg.PWR_SPWR_STATUS k :: Ev.PWR_SPWR_EVT_trip.regs) ∧
      Sparse.get (fun _ => none) t.power.spwrTrip k = some s.monoNs ∧ t = { s with regs := t.regs, power := t.power }) ∧
  (∀ (k ma ns : Nat) (s : State), k < 4 → s.fld (Fld.PWR_SPWR_STATUS_state k) = 1 → ma < 10 → 100000000 ≤ ns →
    ∃ t, exec (.spwrOpen k ma ns) s = .next t ∧ t.fld (Fld.PWR_SPWR_STATUS_state k) = 3 ∧ t.fld (Fld.PWR_SPWR_STATUS_ma k) = ma ∧
      Counted s t Ev.PWR_SPWR_EVT_open ∧ RegsKept s t (Reg.PWR_SPWR_STATUS k :: Ev.PWR_SPWR_EVT_open.regs) ∧
      t = { s with regs := t.regs }) ∧
  (∀ (k mv : Nat) (s : State), k < 4 → 13000 < mv →
    ∃ t, exec (.spwrBackfeed k mv) s = .next t ∧ t.flag (Fld.PWR_SPWR_CTRL_en k) = false ∧
      t.fld (Fld.PWR_SPWR_STATUS_state k) = 4 ∧ Counted s t Ev.PWR_SPWR_EVT_backfeed ∧
      RegsKept s t (Reg.PWR_SPWR_CTRL k :: Reg.PWR_SPWR_STATUS k :: Ev.PWR_SPWR_EVT_backfeed.regs) ∧
      Sparse.get (fun _ => none) t.power.spwrBack k = some s.refCycle ∧ t = { s with regs := t.regs, power := t.power }) ∧
  (∀ (k : Nat) (mv : Int) (s : State), k < 4 → mv < -500 →
    ∃ t, exec (.spwrReverse k mv) s = .next t ∧ t.flag (Fld.PWR_SPWR_CTRL_en k) = false ∧
      t.fld (Fld.PWR_SPWR_STATUS_state k) = 5 ∧ Counted s t Ev.PWR_SPWR_EVT_backfeed ∧
      RegsKept s t (Reg.PWR_SPWR_CTRL k :: Reg.PWR_SPWR_STATUS k :: Ev.PWR_SPWR_EVT_backfeed.regs) ∧
      Sparse.get (fun _ => none) t.power.spwrBack k = some s.refCycle ∧ t = { s with regs := t.regs, power := t.power }) ∧
  (∀ (who : Requester) (k value : Nat) (s : State), s.served who 0 0x21 false = true → k < 4 → value.testBit 0 = true →
    (∀ at', Sparse.get (fun _ => none) s.power.spwrTrip k = some at' → at' + 100000000 ≤ s.monoNs) →
    Sparse.get (fun _ => none) s.power.spwrBack k ≠ some s.refCycle →
    ∃ t, exec (.spwrEnableWrite who k value) s = .next t ∧ t.flag (Fld.PWR_SPWR_CTRL_en k) = true ∧
      t.fld (Fld.PWR_SPWR_STATUS_state k) = 1 ∧ RegsKept s t [Reg.PWR_SPWR_CTRL k, Reg.PWR_SPWR_STATUS k] ∧
      t = { s with regs := t.regs }) ∧
  (∀ (who : Requester) (k value : Nat) (s : State), s.served who 0 0x21 false = true → k < 4 → value.testBit 0 = true →
    Sparse.get (fun _ => none) s.power.spwrBack k = some s.refCycle → exec (.spwrEnableWrite who k value) s = .next s) ∧
  (∀ (x ma ns : Nat) (s : State), x < 8 → s.energised x = true → 300 ≤ ma → 50000 ≤ ns → s.fld (Fld.SIO_WIRE_cond x) = 0 →
    ∃ t, exec (.stoShortGnd x ma ns) s = .next t ∧ t.fld (Fld.SIO_WIRE_cond x) = 2 ∧ t.flag (Fld.SIO_WIRE_live x) = true ∧
      t.energised x = false ∧ (0x16, 0) ∈ t.crust.reports ∧ t = { s with regs := t.regs, crust := t.crust } ∧
     RegsKept s t (Reg.SIO_STO_STATUS :: Reg.SIO_WIRE x :: Ev.SIO_WIRE_EVT_wire.regs)) ∧
  (∀ (x mv ns : Nat) (s : State), x < 8 → s.energised x = false → 3000 < mv → 1000000 ≤ ns → s.fld (Fld.SIO_WIRE_cond x) = 0 →
    ∃ t, exec (.stoExternalVoltage x mv ns) s = .next t ∧ t.fld (Fld.SIO_WIRE_cond x) = 3 ∧ t.flag (Fld.SIO_WIRE_live x) = true ∧
      (0x16, 0) ∈ t.crust.reports ∧ t = { s with regs := t.regs, crust := t.crust } ∧
     RegsKept s t (Reg.SIO_WIRE x :: Ev.SIO_WIRE_EVT_wire.regs)) ∧
  (∀ (x ma ns : Nat) (s : State), x < 8 → s.energised x = true → ma < 2 → 10000000 ≤ ns → s.fld (Fld.SIO_WIRE_cond x) = 0 →
    ∃ t, exec (.stoOpenWire x ma ns) s = .next t ∧ t.fld (Fld.SIO_WIRE_cond x) = 1 ∧ t.flag (Fld.SIO_WIRE_live x) = true ∧
      (0x16, 0) ∈ t.crust.reports ∧ t = { s with regs := t.regs, crust := t.crust } ∧
     RegsKept s t (Reg.SIO_WIRE x :: Ev.SIO_WIRE_EVT_wire.regs)) ∧
  (∀ (x : Nat) (mv : Int) (s : State), x < 8 → mv < -1000 → s.fld (Fld.SIO_WIRE_cond x) = 0 →
    ∃ t, exec (.stoReverseSource x mv) s = .next t ∧ t.fld (Fld.SIO_WIRE_cond x) = 5 ∧ t.flag (Fld.SIO_WIRE_live x) = true ∧
      t.energised x = false ∧ (0x16, 0) ∈ t.crust.reports ∧ t = { s with regs := t.regs, crust := t.crust } ∧
     RegsKept s t (Reg.SIO_STO_STATUS :: Reg.SIO_WIRE x :: Ev.SIO_WIRE_EVT_wire.regs)) ∧
  (∀ (c ma ns : Nat) (s : State), c < 2 → 20 ≤ ma → 1000000 ≤ ns → s.fld (Fld.SIO_WIRE_cond (8 + c)) = 0 →
    ∃ t, exec (.estopSourceShort c ma ns) s = .next t ∧ t.fld (Fld.SIO_WIRE_cond (8 + c)) = 2 ∧
      (t.fld Fld.SIO_STO_STATUS_estop).testBit c = s.inRun c false ∧ (0x16, 0) ∈ t.crust.reports ∧
      t = { s with regs := t.regs, crust := t.crust } ∧
     RegsKept s t (Reg.SIO_STO_STATUS :: Reg.SIO_WIRE (8 + c) :: Ev.SIO_WIRE_EVT_wire.regs)) ∧
  (∀ (x ma ns : Nat) (s : State), x < 8 → ma < 300 → s.wire x = [2] →
    ∃ t, exec (.stoShortGnd x ma ns) s = .next t ∧ t.flag (Fld.SIO_WIRE_live x) = false ∧ t.wire x = [] ∧
      t.fld (Fld.SIO_WIRE_cond x) = s.fld (Fld.SIO_WIRE_cond x) ∧ t.fld (Fld.SIO_WIRE_ma x) = ma ∧ RegsKept s t [Reg.SIO_WIRE x] ∧
      t = { s with regs := t.regs, crust := t.crust }) ∧
  (∀ (who : Requester) (live : Nat) (s : State), s.served who 0 0x2E false = true →
    ∃ t, exec (.sioWireClear who live) s = .next t ∧
      (∀ k, k < 10 → t.fld (Fld.SIO_WIRE_cond k) =
        if s.flag (Fld.SIO_WIRE_live k) && live.testBit k then s.fld (Fld.SIO_WIRE_cond k) else 0) ∧
      RegsKept s t ((List.range 10).map Reg.SIO_WIRE) ∧ t = { s with regs := t.regs, crust := t.crust }) ∧
  (∀ (port cond distance : Nat) (s : State), port < 12 → cond < 4 → cond ≠ 0 → s.portMode port ≠ 0 →
    s.flag (Fld.ETH_STATUS_link_up port) = false → s.blkOpen 0 0x24 = true →
    ∃ t, exec (.ethCableDiagnostic port cond distance) s = .next t ∧ t.fld (Fld.ETH_PAIR_cond port) = cond ∧
      t.flag (Fld.ETH_STATUS_pair_fault port) = true ∧ Counted s t Ev.ETH_PAIR_EVT_pair_fault ∧ t = { s with regs := t.regs } ∧
     RegsKept s t (Reg.ETH_PAIR port :: Reg.ETH_STATUS port :: Ev.ETH_PAIR_EVT_pair_fault.regs)) ∧
  (∀ (c : Nat) (s : State), c < 256 → s.held.contains 0 = false →
    ∃ t, exec (.smbusReadByte c) s = .next t ∧ t = { s with answer := [s.statusPage.getD c 0] }) ∧
  (∀ (c : Nat) (s : State), c < 256 → c % 2 = 0 → s.held.contains 0 = false →
    ∃ t, exec (.smbusReadWord c) s = .next t ∧
      t = { s with answer := [s.statusPage.getD c 0, s.statusPage.getD (c + 1) 0] } ∧ (c = 0 → t.answer = [0x1E, 0x5A])) ∧
  (∀ (c : Nat) (data : Bytes) (s : State), ∃ t, exec (.smbusWrite c data) s = .next t ∧ t = s)

/-! ### Resets (chapter 22) -/

/-- R403, R405, R406 (POWER_ON_RESET): a power-on reset begins an episode of scope FULL. Every domain is held, no layout, context,
queue, run or length-table entry is left, RST_CAUSE names the source, and what outlives every reset stays: the commands that wait,
host memory, the flash store's bytes, the boot NOR, the fuses and the always-on time base.

R403 to R406 (PIN_RESET_ASSERT, CRUST_RESET, SW_RESET_MODULE): each source of scope MODULE begins an episode or joins the one
that runs. Every domain but RX_AON is held at least; layout, contexts, queues and runs are gone; RST_CAUSE holds the source and
its count has advanced where the source was not active in the episode; rails and backup registers stay.

R404, R405, R434 (PIN_RESET_RELEASE, THERM_SOURCE_CLEAR): a lasting source ends, and the hold counts from that instant;
nothing else changes.

R409 (RESET_HOLD_END, DOMAIN_RELEASE): 256 reference cycles after the last source has cleared the first held domain is
released, and each further one 64 reference cycles after the one before; the release of the last domain ends the episode.
Where the spec is silent it follows the model's choices and readings of log entries 5, 68 and 69. -/
def Obligations.ModuleResets : Prop :=
  (∀ s : State, ∃ t, exec .powerOnReset s = .next t ∧ t.rst.episode = true ∧ t.rst.full = true ∧ t.held = List.range 40 ∧
    t.layout = none ∧ t.ctxs = [] ∧ t.queues = [] ∧ t.runs = [] ∧ t.kv = [] ∧ t.syncs = [] ∧ t.rails = List.replicate 8 {} ∧
    t.devTime = 0 ∧ t.fld Fld.RST_CAUSE_sources = 1 ∧ t.fld Fld.RST_CAUSE_first = 1 ∧ t.pending = s.pending ∧
    t.hostMem = s.hostMem ∧ t.flash.bytes = s.flash.bytes ∧ t.boot.nor = s.boot.nor ∧ t.boot.keys = s.boot.keys ∧
    t.boot.rollback = s.boot.rollback ∧ t.mono = s.mono) ∧
  (∀ (n : Nat) (s : State), 64 ≤ n → s.rst.active.contains 3 = false → s.rst.episode = false →
    ∃ t, exec (.pinResetAssert n) s = .next t ∧ t.rst.active.contains 3 = true ∧ t.rst.episode = true ∧
      t.held = (List.range 39).map (· + 1) ∧ t.layout = none ∧ t.ctxs = [] ∧ t.queues = [] ∧ t.runs = [] ∧
      t.fld Fld.RST_CAUSE_sources = 4 ∧ t.fld Fld.RST_CAUSE_first = 3 ∧
      t.fld (Fld.RST_CNT_count 3) = (s.fld (Fld.RST_CNT_count 3) + 1) % 65536 ∧ t.rails = s.rails ∧
      (∀ k, k < 32 → t.reg (Reg.BKP_RAM k) = s.reg (Reg.BKP_RAM k))) ∧
  (∀ (at' : Nat) (s : State), s.crust.trip = some at' → at' + 1000000 ≤ s.monoNs → s.rst.episode = false →
    ∃ t, exec .crustReset s = .next t ∧ t.rst.episode = true ∧ t.held = (List.range 39).map (· + 1) ∧ t.layout = none ∧
      t.runs = [] ∧ t.crust = {} ∧ t.fld Fld.RST_CAUSE_sources = 16 ∧ t.fld Fld.RST_CAUSE_first = 5 ∧
      t.fld (Fld.RST_CNT_count 5) = (s.fld (Fld.RST_CNT_count 5) + 1) % 65536 ∧ t.rails = s.rails) ∧
  (∀ (who : Requester) (value : Nat) (s : State), s.served who 0 0x20 true = true → s.rst.episode = false →
    ∃ t, exec (.swResetModule who value) s = .next t ∧ t.rst.episode = true ∧ t.held = (List.range 39).map (· + 1) ∧
      t.layout = none ∧ t.ctxs = [] ∧ t.queues = [] ∧ t.runs = [] ∧ t.fld Fld.RST_CAUSE_first = 8 ∧
      t.fld (Fld.RST_CNT_count 8) = (s.fld (Fld.RST_CNT_count 8) + 1) % 65536 ∧ t.rails = s.rails) ∧
  (∀ (n : Nat) (s : State), 64 ≤ n → s.rst.active.contains 3 = true →
    ∃ t, exec (.pinResetRelease n) s = .next t ∧ t.rst.active.contains 3 = false ∧ t.rst.holdFrom = s.monoNs ∧
      t = { s with rst := t.rst } ∧ { t.rst with active := s.rst.active, holdFrom := s.rst.holdFrom } = s.rst) ∧
  (∀ s : State, s.rst.active.contains 7 = true → s.rst.thermAt + 1000000000 ≤ s.monoNs →
    (∀ u ∈ s.rst.tripped, ∀ i, i < unitSensors u → s.temp u i < clearTemp u) →
    ∃ t, exec .thermSourceClear s = .next t ∧ t.rst.active.contains 7 = false ∧ t.rst.tripped = [] ∧ t.rst.holdFrom = s.monoNs ∧
      t = { s with rst := t.rst }) ∧
  (∀ (d : Nat) (ds : List Nat) (s : State), s.held = d :: ds → s.rst.active = [] → s.rst.lastRelease = none → s.railsOff = false →
    s.rst.holdFrom + 10240 ≤ s.monoNs →
    ∃ t, exec .resetHoldEnd s = .next t ∧ t.held = ds ∧ (ds ≠ [] → t.rst.lastRelease = some s.monoNs) ∧
      (ds = [] → t.rst.episode = false) ∧ t = { s with held := t.held, rst := t.rst, boot := t.boot }) ∧
  (∀ (d last : Nat) (ds : List Nat) (s : State), s.held = d :: ds → s.rst.active = [] → s.rst.lastRelease = some last →
    s.railsOff = false → last + 2560 ≤ s.monoNs →
    ∃ t, exec .domainRelease s = .next t ∧ t.held = ds ∧ (ds ≠ [] → t.rst.lastRelease = some s.monoNs) ∧
      (ds = [] → t.rst.episode = false) ∧ t = { s with held := t.held, rst := t.rst, boot := t.boot })

/-- A request for a block reset that is not accepted (R413, R417). -/
def blockRefused (s : State) (value : Nat) : Prop :=
  blockResettable (bits value 8 3) (bits value 16 8) = false ∨ s.rst.episode = true ∨ s.rst.blk ≠ none ∨ s.swResetNow = true ∨
    (blockNeedsSto (bits value 16 8) = true ∧ s.allAsserted = false)

/-- R408 (SW_RESET_DIES): a request for spoke dies none of whose contexts is resident holds, beside the domains held already, the
domains of those dies alone, takes them out of service, and counts once; one that names no spoke die, comes in an episode, or names a
die that a context in another phase than NONRESIDENT and ABSENT uses is ignored with cmd_reject. That a request joins the domains held
already and counts once is the model's choice (log entry 68).

R407 (HOST_RESET, HOST_PORT_RECONFIGURE): while the module runs or its start has halted, a host reset clears the PCIe and
host-queue blocks and every queue, counts once, and leaves contexts, layout and memory; while booting it has scope MODULE. Once the
link is back, firmware sets the device state to HANDSHAKE.

R413, R414, R416, R417 (BLOCK_RESET_DRAIN, BLOCK_RESET_SIRUG): a request for a block that may be reset alone, while no other reset
runs and none is requested in the same reference cycle, with torque safely off where the block needs it, is accepted: the drain begins,
or in Sirug-compatible mode the block is reset at once. Any other request, in either mode, is ignored with cmd_reject. That an accepted
request counts once is the model's choice (log entry 68).

R414, R415 (BLOCK_DRAIN_DONE, BLOCK_DRAIN_TIMEOUT, BLOCK_RESET_RELEASE): a drained block is reset with nothing terminated; a
drain that expires with work in flight terminates it, counts it, and is counted as escalated; 2.56 µs later the block is open
again, and blk_done is counted; nothing else changes where no residency waits for the block (R74).
Where the spec is silent it follows the model's choices and readings of log entries 68, 69, 70 and 71. -/
def Obligations.PartialResets : Prop :=
  (∀ (who : Requester) (value : Nat) (s : State), s.served who 0 0x20 true = true → bits value 2 3 ≠ 0 → s.rst.episode = false →
    (∀ d, 2 ≤ d → d ≤ 4 → value.testBit d = true → s.dieIdle d = true) →
    ∃ t, exec (.swResetDies who value) s = .next t ∧
      (∀ d, d < 40 → t.held.contains d = (s.held.contains d || (decide (2 ≤ domainDie d) && value.testBit (domainDie d)))) ∧
      (∀ d, 2 ≤ d → d ≤ 4 → value.testBit d = true → t.diesPresent.testBit d = false ∧ t.linkMods.getD d 0 = 0) ∧
      t.fld (Fld.RST_CNT_count 8) = (s.fld (Fld.RST_CNT_count 8) + 1) % 65536 ∧ t.layout = s.layout ∧ t.ctxs = s.ctxs) ∧
  (∀ (who : Requester) (value : Nat) (s : State), s.served who 0 0x20 true = true →
    (bits value 2 3 = 0 ∨ s.rst.episode = true ∨ ∃ d, 2 ≤ d ∧ d ≤ 4 ∧ value.testBit d = true ∧ s.dieIdle d = false) →
    ∃ t, exec (.swResetDies who value) s = .next t ∧ Counted s t Ev.RST_EVT_STATUS_cmd_reject ∧
      RegsKept s t (Reg.RST_SW_CTRL :: Ev.RST_EVT_STATUS_cmd_reject.regs) ∧ { t.rst with swAt := s.rst.swAt } = s.rst ∧
      t = { s with regs := t.regs, rst := t.rst }) ∧
  (∀ s : State, s.fld Fld.BOOT_STATUS_state ≠ 0 → s.load = none →
    ∃ t, exec .hostReset s = .next t ∧ t.queues = [] ∧ t.proposal = none ∧ t.fld Fld.HQ_DEV_STATE_state = 0 ∧
      t.fld (Fld.RST_CNT_count 6) = (s.fld (Fld.RST_CNT_count 6) + 1) % 65536 ∧ t.layout = s.layout ∧ t.phys = s.phys ∧
      t.syncs = s.syncs ∧ t.kv = s.kv ∧ t.held = s.held ∧ (∀ k, (t.ctx k).phase = (s.ctx k).phase)) ∧
  (∀ s : State, s.fld Fld.BOOT_STATUS_state = 0 → s.rst.episode = false →
    ∃ t, exec .hostReset s = .next t ∧ t.rst.episode = true ∧ t.held = (List.range 39).map (· + 1) ∧
      t.fld Fld.RST_CAUSE_first = 6 ∧ t.layout = none) ∧
  (∀ (width rate : Nat) (flit : Bool) (s : State), s.fld Fld.BOOT_STATUS_state = 1 → s.fld Fld.HQ_DEV_STATE_state = 0 →
    width < 16 → rate < 16 →
    ∃ t, exec (.hostPortReconfigure width rate flit) s = .next t ∧ t.fld Fld.HQ_DEV_STATE_state = 1 ∧
      t.fld Fld.PCIE_LINK_STATUS_width = width ∧ t.fld Fld.PCIE_LINK_STATUS_rate = rate ∧
      t.flag Fld.PCIE_LINK_STATUS_flit = flit ∧ t.flag Fld.PCIE_LINK_STATUS_up = true ∧
      (∀ f, s.boot.fw = some f → t.reg Reg.HQ_FW_VERSION = BitVec.ofNat 32 f.version ∧ t.reg Reg.HQ_IF_FW = BitVec.ofNat 32 f.ifWord) ∧
      BlocksKept s t [0x144, 0x145] ∧ t = { s with regs := t.regs }) ∧
  (∀ (who : Requester) (value : Nat) (s : State), s.served who 0 0x20 true = true →
    blockResettable (bits value 8 3) (bits value 16 8) = true → s.rst.episode = false → s.rst.blk = none →
    (blockNeedsSto (bits value 16 8) = true → s.allAsserted = true) → s.swResetNow = false →
    ∃ t, exec (.blockResetDrain who value) s = .next t ∧
      t.rst.blk = some ⟨bits value 8 3, bits value 16 8, false, s.monoNs⟩ ∧ t.fld Fld.RST_BLK_STATUS_busy = 1 ∧
      t.fld Fld.RST_BLK_STATUS_phase = 1 ∧ t.blkOpen (bits value 8 3) (bits value 16 8) = false ∧
      t.fld (Fld.RST_CNT_count 9) = (s.fld (Fld.RST_CNT_count 9) + 1) % 65536 ∧ t = { s with regs := t.regs, rst := t.rst } ∧
     BlocksKept s t [0x20]) ∧
  (∀ (who : Requester) (value : Nat) (s : State), s.served who 0 0x20 true = true →
    blockResettable (bits value 8 3) (bits value 16 8) = true → s.rst.episode = false → s.rst.blk = none →
    (blockNeedsSto (bits value 16 8) = true → s.allAsserted = true) → s.swResetNow = false → s.blockLoad (bits value 8 3) (bits value 16 8) = 0 →
    ∃ t, exec (.blockResetSirug who value) s = .next t ∧
      t.rst.blk = some ⟨bits value 8 3, bits value 16 8, true, s.monoNs⟩ ∧ t.fld Fld.RST_BLK_STATUS_busy = 1 ∧
      t.fld Fld.RST_BLK_STATUS_phase = 2 ∧ t.fld Fld.RST_BLK_TERM_ops = 0) ∧
  (∀ (who : Requester) (value : Nat) (s : State), s.served who 0 0x20 true = true → blockRefused s value →
    ∃ t, exec (.blockResetDrain who value) s = .next t ∧ Counted s t Ev.RST_EVT_STATUS_cmd_reject ∧
      RegsKept s t (Reg.RST_BLK_CTRL :: Ev.RST_EVT_STATUS_cmd_reject.regs) ∧ t = { s with regs := t.regs }) ∧
  (∀ (who : Requester) (value : Nat) (s : State), s.served who 0 0x20 true = true → blockRefused s value →
    ∃ t, exec (.blockResetSirug who value) s = .next t ∧ Counted s t Ev.RST_EVT_STATUS_cmd_reject ∧
      RegsKept s t (Reg.RST_BLK_CTRL :: Ev.RST_EVT_STATUS_cmd_reject.regs) ∧ t = { s with regs := t.regs }) ∧
  (∀ (b : BlockReset) (s : State), s.rst.blk = some b → s.fld Fld.RST_BLK_STATUS_phase = 1 → s.blockLoad b.die b.block = 0 →
    ∃ t, exec .blockDrainDone s = .next t ∧ t.fld Fld.RST_BLK_STATUS_phase = 2 ∧ t.fld Fld.RST_BLK_TERM_ops = 0 ∧
      t.rst.blk = some ⟨b.die, b.block, false, s.monoNs⟩) ∧
  (∀ (b : BlockReset) (s : State), s.rst.blk = some b → s.fld Fld.RST_BLK_STATUS_phase = 1 → s.blockLoad b.die b.block ≠ 0 →
    b.since + s.drainNs ≤ s.monoNs →
    ∃ t, exec .blockDrainTimeout s = .next t ∧ t.fld Fld.RST_BLK_STATUS_phase = 2 ∧
      t.fld Fld.RST_BLK_TERM_ops = min (s.blockLoad b.die b.block) 65535 ∧ t.fld Fld.RST_BLK_STATUS_code = 0x0D10 ∧
      t.flag Fld.RST_EVT_STATUS_blk_escalated = true) ∧
  (∀ (b : BlockReset) (s : State), s.rst.blk = some b → s.fld Fld.RST_BLK_STATUS_phase = 2 → b.since + 2560 ≤ s.monoNs →
    ∃ t, exec .blockResetRelease s = .next t ∧ t.rst.blk = none ∧ (∀ die block, t.blkOpen die block = true) ∧
      t.fld Fld.RST_BLK_STATUS_busy = 0 ∧ t.fld Fld.RST_BLK_STATUS_phase = 0 ∧ Counted s t Ev.RST_EVT_STATUS_blk_done) ∧
  (∀ (b : BlockReset) (s : State), s.rst.blk = some b → s.fld Fld.RST_BLK_STATUS_phase = 2 → b.since + 2560 ≤ s.monoNs →
    s.ctxs.any (fun p => p.2.waiting) = false →
    ∃ t, exec .blockResetRelease s = .next t ∧ { t.rst with blk := s.rst.blk } = s.rst ∧
      RegsKept s t (Reg.RST_BLK_STATUS :: Ev.RST_EVT_STATUS_blk_done.regs) ∧ t = { s with regs := t.regs, rst := t.rst })

/-! ### The key-value cache (chapter 08) -/

/-- True where a start of KV_CMD is taken (R152): the write reaches the KV block and no command is busy. -/
def kvReady (s : State) (who : Requester) : Bool := s.served who 1 0x41 false && !s.flag Fld.KV_CMD_STATUS_busy

/-- R152 (KV_CREATE): with an accepted geometry, layers, resident owner and holder, an entry that is not valid and a range of its
own, CREATE makes the entry valid with both lengths 0 under its tag, links the range into the owner's root and reports code 0.

R152, R153 (KV_FREE, KV_TRUNCATE, KV_GRANT, KV_READ): FREE and TRUNCATE of a valid sequence are accepted and wait; GRANT moves
the append right to a resident context; READ copies the 32 bytes of the entry into KV_CMD_DATA. A start while a command is busy
is ignored with cmd_reject.

R133, R152 to R154 (KV_CMD_TAKE_EFFECT): once no running append or attention names the sequence, a waiting FREE closes its
group, returns every page, advances its tag (65,535 to 1) and clears valid, and no sequence link to it is left, which is the model's
reading of log entry 35 (DEDUCED); a waiting TRUNCATE sets both lengths to C and returns
every page that starts at or above C. No other entry changes.

R154, R175 (KV_POOL_WRITE): while no entry is valid, a write of the pool's page count or base over memory that no allocation
holds takes effect; while one is valid it is ignored with cmd_reject. A write of the base consumes its requester's staged half (R5).
Where the spec is silent it follows the model's choices and readings of log entries 34 and 35. -/
def Obligations.KvCommands : Prop :=
  (∀ (who : Requester) (q : Nat) (s : State), kvReady s who = true → (s.kvEntry q).valid = false →
    (kvGeom? (s.fld Fld.KV_CMD_ARG_0_geom)).isSome = true → s.fld Fld.KV_CMD_ARG_0_layers ≠ 0 →
    (s.ctx (s.fld Fld.KV_CMD_ARG_0_owner)).phase = .resident → (s.ctx (s.fld Fld.KV_CMD_ARG_0_holder)).phase = .resident →
    (∀ p ∈ s.kv, ¬(p.2.valid = true ∧ p.2.owner = s.fld Fld.KV_CMD_ARG_0_owner ∧ p.2.base = s.fld Fld.KV_CMD_ARG_1_value % 65536)) →
    ∃ t, exec (.kvCreate who q) s = .next t ∧
      t.kvEntry q = { genTag := (s.kvEntry q).genTag, base := s.fld Fld.KV_CMD_ARG_1_value % 65536,
                      owner := s.fld Fld.KV_CMD_ARG_0_owner, holder := s.fld Fld.KV_CMD_ARG_0_holder,
                      geom := s.fld Fld.KV_CMD_ARG_0_geom, layers := s.fld Fld.KV_CMD_ARG_0_layers, valid := true } ∧
      (∀ p, p ≠ q → t.kvEntry p = s.kvEntry p) ∧ t.seqLinks = s.seqLinks ++ [(s.fld Fld.KV_CMD_ARG_0_owner, q)] ∧
      t.fld Fld.KV_CMD_STATUS_code = 0 ∧ t.fld Fld.KV_CMD_STATUS_busy = 0 ∧
      RegsKept s t [Reg.KV_CMD, Reg.KV_CMD_STATUS] ∧ t = { s with regs := t.regs, kv := t.kv, seqLinks := t.seqLinks }) ∧
  (∀ (who : Requester) (q : Nat) (s : State), kvReady s who = true → (s.kvEntry q).valid = true →
    ∃ t, exec (.kvFree who q) s = .next t ∧ t.kvPending = some ⟨2, q, 0⟩ ∧ t.fld Fld.KV_CMD_STATUS_busy = 1 ∧
      RegsKept s t [Reg.KV_CMD, Reg.KV_CMD_STATUS] ∧ t = { s with regs := t.regs, kvPending := t.kvPending }) ∧
  (∀ (who : Requester) (q : Nat) (s : State), kvReady s who = true → (s.kvEntry q).valid = true → (s.kvEntry q).groupOpen = false →
    s.fld Fld.KV_CMD_ARG_1_value ≤ (s.kvEntry q).committed →
    ∃ t, exec (.kvTruncate who q) s = .next t ∧ t.kvPending = some ⟨3, q, s.fld Fld.KV_CMD_ARG_1_value⟩ ∧
      t.fld Fld.KV_CMD_STATUS_busy = 1 ∧ RegsKept s t [Reg.KV_CMD, Reg.KV_CMD_STATUS] ∧
      t = { s with regs := t.regs, kvPending := t.kvPending }) ∧
  (∀ (who : Requester) (q : Nat) (s : State), kvReady s who = true → (s.kvEntry q).valid = true → (s.kvEntry q).groupOpen = false →
    (s.ctx (s.fld Fld.KV_CMD_ARG_0_holder)).phase = .resident →
    ∃ t, exec (.kvGrant who q) s = .next t ∧ t.kvEntry q = { s.kvEntry q with holder := s.fld Fld.KV_CMD_ARG_0_holder } ∧
      (∀ p, p ≠ q → t.kvEntry p = s.kvEntry p) ∧ t.fld Fld.KV_CMD_STATUS_code = 0 ∧
      RegsKept s t [Reg.KV_CMD, Reg.KV_CMD_STATUS] ∧ t = { s with regs := t.regs, kv := t.kv }) ∧
  (∀ (who : Requester) (q : Nat) (s : State), kvReady s who = true →
    ∃ t, exec (.kvRead who q) s = .next t ∧
      (∀ k, k < 8 → (t.reg (Reg.KV_CMD_DATA k)).toNat = fieldAt (kvEntryBytes (s.kvEntry q)) (4 * k) 4) ∧
      t.fld Fld.KV_CMD_STATUS_code = 0 ∧
      RegsKept s t ([Reg.KV_CMD, Reg.KV_CMD_STATUS] ++ (List.range 8).map Reg.KV_CMD_DATA) ∧ t = { s with regs := t.regs }) ∧
  (∀ (who : Requester) (q : Nat) (s : State), s.served who 1 0x41 false = true → s.flag Fld.KV_CMD_STATUS_busy = true →
    ∃ t, exec (.kvFree who q) s = .next t ∧ Counted s t Ev.KV_EVT_STATUS_cmd_reject ∧ t.kvPending = s.kvPending ∧ t.kv = s.kv ∧
      t = { s with regs := t.regs } ∧
     RegsKept s t (Reg.KV_CMD :: Ev.KV_EVT_STATUS_cmd_reject.regs)) ∧
  (∀ (p : KvPending) (s : State), s.kvPending = some p → p.op = 2 → p.seq < 4096 → (∀ r ∈ s.runs, p.seq ∉ s.runSeqs r) →
    (s.kvEntry p.seq).valid = true →
    ∃ t, exec .kvCmdTakeEffect s = .next t ∧ t.kvPending = none ∧ (t.kvEntry p.seq).valid = false ∧
      (t.kvEntry p.seq).committed = 0 ∧ (t.kvEntry p.seq).tentative = 0 ∧ (t.kvEntry p.seq).groupOpen = false ∧
      (t.kvEntry p.seq).genTag = (if (s.kvEntry p.seq).genTag = 65535 then 1 else (s.kvEntry p.seq).genTag + 1) ∧
      (∀ x ∈ t.seqLinks, x.2 ≠ p.seq) ∧ (∀ j, j ≠ p.seq → t.kvEntry j = s.kvEntry j) ∧
      t.fld Fld.KV_CMD_STATUS_busy = 0 ∧ t.fld Fld.KV_CMD_STATUS_code = 0 ∧
     RegsKept s t [Reg.KV_CMD_STATUS, Reg.KV_PAGES_RECLAIMED, Reg.KV_PAGES_RECLAIMED + 4] ∧ t = { s with regs := t.regs, kv := t.kv, kvPages := t.kvPages, kvPending := none, seqLinks := t.seqLinks, tlb := t.tlb }) ∧
  (∀ (p : KvPending) (s : State), s.kvPending = some p → p.op = 3 → (∀ r ∈ s.runs, p.seq ∉ s.runSeqs r) →
    (s.kvEntry p.seq).valid = true → (s.kvEntry p.seq).groupOpen = false → p.arg ≤ (s.kvEntry p.seq).committed →
    ∃ t, exec .kvCmdTakeEffect s = .next t ∧ t.kvPending = none ∧
      t.kvEntry p.seq = { s.kvEntry p.seq with committed := p.arg, tentative := p.arg } ∧
      (∀ x ∈ t.kvPages, ¬(x.1 / 65536 = p.seq ∧ kvDrops (s.kvEntry p.seq) p.arg (x.1 % 65536) = true)) ∧
      (∀ x ∈ s.kvPages, x.1 / 65536 ≠ p.seq → x ∈ t.kvPages) ∧ (∀ j, j ≠ p.seq → t.kvEntry j = s.kvEntry j) ∧
      t.fld Fld.KV_CMD_STATUS_busy = 0 ∧ t.fld Fld.KV_CMD_STATUS_code = 0 ∧
      t = { s with regs := t.regs, kv := t.kv, kvPages := t.kvPages, kvPending := none, tlb := t.tlb } ∧
     RegsKept s t [Reg.KV_CMD_STATUS, Reg.KV_PAGES_RECLAIMED, Reg.KV_PAGES_RECLAIMED + 4]) ∧
  (∀ (who : Requester) (value : Nat) (s : State), s.served who 1 0x41 false = true → (∀ p ∈ s.kv, p.2.valid = false) →
    s.coversAlloc (s.reg64 Reg.KV_POOL_BASE) (value % 2 ^ 21 * 65536) = false →
    ∃ t, exec (.kvPoolWrite who true value) s = .next t ∧ t.fld Fld.KV_POOL_PAGES_pages = value % 2 ^ 21 ∧
      RegsKept s t [Reg.KV_POOL_PAGES] ∧ t = { s with regs := t.regs }) ∧
  (∀ (who : Requester) (value : Nat) (s : State), s.served who 1 0x41 false = true → (∀ p ∈ s.kv, p.2.valid = false) →
    s.coversAlloc (value % 2 ^ 64 / 65536 * 65536) (s.fld Fld.KV_POOL_PAGES_pages * 65536) = false →
    ∃ t, exec (.kvPoolWrite who false value) s = .next t ∧ t.reg64 Reg.KV_POOL_BASE = value % 2 ^ 64 / 65536 * 65536 ∧
      RegsKept s t [Reg.KV_POOL_BASE, Reg.KV_POOL_BASE + 4] ∧
      t = { s with regs := t.regs, staged := dropHalf s.staged who Reg.KV_POOL_BASE }) ∧
  (∀ (who : Requester) (pages : Bool) (value : Nat) (s : State), s.served who 1 0x41 false = true →
    (∃ p ∈ s.kv, p.2.valid = true) →
    ∃ t, exec (.kvPoolWrite who pages value) s = .next t ∧ Counted s t Ev.KV_EVT_STATUS_cmd_reject ∧
      RegsKept s t Ev.KV_EVT_STATUS_cmd_reject.regs ∧
      t = { s with regs := t.regs, staged := if pages then s.staged else dropHalf s.staged who Reg.KV_POOL_BASE })

/-! ### Register accesses (chapters 00 and 01) -/

/-- R4, R6 (REGISTER_WRITE): a write that reaches a register without a meaning of its own changes that register alone, bit by bit:
an RW bit takes the value, a WC bit is cleared by a one, a WS bit is set by a one, and every other bit stays.

R4, R25 (BAR0_INVALID_ACCESS, BAR0_ABSENT_DIE_ACCESS): an access of another size or alignment reads all ones and writes nothing,
uncounted; die ID 5 to 15, and an offset without a register of a die that answers, reads as zero and a write there has no effect; an
aligned read of a die that does not answer gives zero, its write has no effect, and either is counted in bar0_absent, whatever its offset.

R6, R25, R91, R414: a register write of any kind that does not reach its block changes no register but the counted
bar0_absent; of the others' requesters it leaves no trace.

R5 (PAIR_LOW_READ, PAIR_HIGH_READ): a read of a pair's low half answers it and latches the high half for its requester; a read of
the high half answers and consumes the latch where there is one, whatever the register has become, and the current half where
there is none. The latches of the other requesters stay.

R5 (PAIR_LOW_WRITE, PAIR_HIGH_WRITE): a write of a low half is staged for its requester and changes no register; the write of the
high half applies the whole 64-bit value at once, with the staged low half where there is one, and consumes it. The pair here is
TIME_STEP, whose 64 bits are all RW.
Where the spec is silent it follows the model's choices and readings of log entries 9, 12 and 13. -/
def Obligations.RegisterAccess : Prop :=
  (∀ (who : Requester) (a value w : Nat) (f : RegFam) (s : State), bar0Ok a = true →
    s.served who (a / 0x1000000) (a / 0x10000 % 0x100) (alwaysWritable a) = true → regAt a = some (f, w) → pairLow a = false →
    pairHigh a = false → s.writeCommand? who a (value % 2 ^ 32) = none → s.writeSpecial? who a (value % 2 ^ 32) = none →
    ∃ t, exec (.registerWrite who a value) s = .next t ∧
      (∀ i, i < 32 → (t.reg a).getLsbD i =
        (if (accMask f w .rw).getLsbD i && !(accMask f w .wc).getLsbD i then value.testBit i
         else if (accMask f w .wc).getLsbD i then
           ((s.reg a).getLsbD i && !value.testBit i) || (value.testBit i && ((accMask f w .rw).getLsbD i || (accMask f w .ws).getLsbD i))
         else (s.reg a).getLsbD i || (value.testBit i && (accMask f w .ws).getLsbD i))) ∧
      RegsKept s t [a] ∧ t = { s with regs := t.regs, crust := t.crust }) ∧
  (∀ (a size : Nat) (s : State), (size ≠ 4 ∨ a % 4 ≠ 0) → ∃ t, exec (.bar0InvalidAccess a size true) s = .next t ∧ t = s) ∧
  (∀ (a size : Nat) (s : State), (size ≠ 4 ∨ a % 4 ≠ 0) →
    ∃ t, exec (.bar0InvalidAccess a size false) s = .next t ∧ t = { s with answer := List.replicate size 0xFF }) ∧
  (∀ (a : Nat) (s : State), a % 4 = 0 → a < 0x10000000 → 5 ≤ a / 0x1000000 →
    ∃ t, exec (.bar0InvalidAccess a 4 false) s = .next t ∧ t = { s with answer := [0, 0, 0, 0] }) ∧
  (∀ (a : Nat) (s : State), a % 4 = 0 → a < 0x5000000 → regAt a = none → s.hostAccess (a / 0x1000000) (a / 0x10000 % 0x100) ≠ 1 →
    ∃ t, exec (.bar0InvalidAccess a 4 false) s = .next t ∧ t = { s with answer := [0, 0, 0, 0] }) ∧
  (∀ (a : Nat) (write : Bool) (s : State), a % 4 = 0 → a < 0x5000000 → s.hostAccess (a / 0x1000000) (a / 0x10000 % 0x100) = 1 →
    ∃ t, exec (.bar0InvalidAccess a 4 write) s = .next t ∧ Counted s t Ev.HQ_EVT_STATUS_bar0_absent ∧
      (write = false → t.answer = [0, 0, 0, 0]) ∧ (write = true → t.answer = s.answer) ∧
      RegsKept s t Ev.HQ_EVT_STATUS_bar0_absent.regs ∧
      t = { s with regs := t.regs, msix := t.msix, msixPending := t.msixPending, answer := t.answer }) ∧
  (∀ (who : Requester) (a value : Nat) (s : State), bar0Ok a = true → regAt a = none →
    s.served who (a / 0x1000000) (a / 0x10000 % 0x100) (alwaysWritable a) = true →
    ∃ t, exec (.registerWrite who a value) s = .next t ∧ t = s) ∧
  (∀ (a : Nat) (write : Bool) (s : State), bar0Ok a = true → s.hostAccess (a / 0x1000000) (a / 0x10000 % 0x100) = 1 →
    ∃ t, exec (.bar0AbsentDieAccess a write) s = .next t ∧ Counted s t Ev.HQ_EVT_STATUS_bar0_absent ∧
      (write = false → t.answer = [0, 0, 0, 0]) ∧ (write = true → t.answer = s.answer) ∧
      RegsKept s t Ev.HQ_EVT_STATUS_bar0_absent.regs ∧ t = { s with regs := t.regs, msix := t.msix, msixPending := t.msixPending, answer := t.answer }) ∧
  (∀ (who : Requester) (die block : Nat) (always : Bool) (f : State → State) (s : State), s.served who die block always = false →
    RegsKept s (s.busWrite who die block always f) Ev.HQ_EVT_STATUS_bar0_absent.regs ∧
    s.busWrite who die block always f =
      { s with regs := (s.busWrite who die block always f).regs, msix := (s.busWrite who die block always f).msix,
               msixPending := (s.busWrite who die block always f).msixPending } ∧
    (who ≠ .host → s.busWrite who die block always f = s)) ∧
  (∀ (who : Requester) (a : Nat) (s : State), pairLow a = true → s.readable who (a / 0x1000000) (a / 0x10000 % 0x100) = true →
    ∃ t, exec (.pairLowRead who a) s = .next t ∧ t.answer = leBytes 4 (s.readReg a).toNat ∧
      t.latch who a = some (s.readReg (a + 4)) ∧ (∀ w b, (w ≠ who ∨ b ≠ a) → t.latch w b = s.latch w b) ∧
      t = { s with answer := t.answer, latches := t.latches }) ∧
  (∀ (who : Requester) (a : Nat) (v : Word) (s : State), pairHigh a = true →
    s.readable who (a / 0x1000000) (a / 0x10000 % 0x100) = true → s.latch who (a - 4) = some v →
    ∃ t, exec (.pairHighRead who a) s = .next t ∧ t.answer = leBytes 4 v.toNat ∧ t.latch who (a - 4) = none ∧
      (∀ w b, (w ≠ who ∨ b ≠ a - 4) → t.latch w b = s.latch w b) ∧ t = { s with answer := t.answer, latches := t.latches }) ∧
  (∀ (who : Requester) (a : Nat) (s : State), pairHigh a = true → s.readable who (a / 0x1000000) (a / 0x10000 % 0x100) = true →
    s.latch who (a - 4) = none →
    ∃ t, exec (.pairHighRead who a) s = .next t ∧ t = { s with answer := leBytes 4 (s.readReg a).toNat }) ∧
  (∀ (who : Requester) (a value : Nat) (s : State), pairLow a = true →
    s.served who (a / 0x1000000) (a / 0x10000 % 0x100) (alwaysWritable a) = true →
    ∃ t, exec (.pairLowWrite who a value) s = .next t ∧ t.pairValue who a 0 = value % 2 ^ 32 ∧ t = { s with staged := t.staged }) ∧
  (∀ (who : Requester) (value : Nat) (s : State), s.served who 0 0x23 false = true →
    ∃ t, exec (.pairHighWrite who (Reg.TIME_STEP + 4) value) s = .next t ∧
      t.reg64 Reg.TIME_STEP = s.pairValue who Reg.TIME_STEP value ∧
      (s.staged.find? (fun p => p.who == who && p.low == Reg.TIME_STEP) = none →
        t.reg64 Reg.TIME_STEP = (s.reg Reg.TIME_STEP).toNat + 2 ^ 32 * (value % 2 ^ 32)) ∧
      (∀ p ∈ t.staged, ¬(p.who = who ∧ p.low = Reg.TIME_STEP)) ∧ RegsKept s t [Reg.TIME_STEP, Reg.TIME_STEP + 4] ∧
      t = { s with regs := t.regs, staged := t.staged })

/-! ### Links and the time base (chapters 01 and 12) -/

/-- R217 (TIME_RATE_WRITE): the signed adjustment is held to ±51,200,000, and a write outside that is counted in rate_clamp.

R216, R217, R336, R401 (a cycle of RX_ETH, the model's step on an empty queue, log entry 2): device time advances by
3.2 ns × (1 + a), so that it rises strictly; while its domain is held it stays. The always-on time base advances by 3.2 ns, and nothing
else changes while no quote is being formed, no proof run tests the outputs and no slot is held. The slots of a group that the fallback
unit serves are in OFF or FAULT from the takeover instant on, and a quote that is being formed ends.
Where the spec is silent it follows the model's choices and readings of log entries 2 and 42. -/
def Obligations.RateAdjustment : Prop :=
  (∀ (who : Requester) (value : Nat) (s : State), s.served who 0 0x23 false = true →
    ∃ t, exec (.timeRateWrite who value) s = .next t ∧
      toSigned 32 (t.fld Fld.TIME_RATE_adj) = max (-51200000) (min 51200000 (toSigned 32 value)) ∧
      ((toSigned 32 value < -51200000 ∨ 51200000 < toSigned 32 value) → Counted s t Ev.TIME_EVT_STATUS_rate_clamp) ∧
      (-51200000 ≤ toSigned 32 value → toSigned 32 value ≤ 51200000 → RegsKept s t [Reg.TIME_RATE]) ∧
      RegsKept s t (Reg.TIME_RATE :: Ev.TIME_EVT_STATUS_rate_clamp.regs) ∧ t = { s with regs := t.regs }) ∧
  (∀ s : State, s.pending = [] → s.boot.quote = none → s.proofRunning = false → (∀ g, g < 4 → s.tick.groupHeld g s.tick.now = false) →
    ∃ t, step s = .next t ∧
      (t.devTime : Int) = s.devTime + (if s.held.contains 8 then 0 else 256000000000 + toSigned 32 (s.fld Fld.TIME_RATE_adj)) ∧
      (s.held.contains 8 = false → s.devTime < t.devTime) ∧ t.mono = s.mono + 32 ∧
      t = { s with devTime := t.devTime, mono := t.mono }) ∧
  (∀ (g : Nat) (r : Bytes) (s : State), s.pending = [] → s.boot.quote = none → s.proofRunning = false → g < 4 → r ∈ s.recs 0xB →
    fieldAt r 0xF 1 = g → s.tick.groupHeld g s.tick.now = true →
    ∃ t, step s = .next t ∧ (t.loopSlot (loopNumber r)).mode = (if (s.loopSlot (loopNumber r)).mode = 3 then 3 else 0) ∧
      (t.loopSlot (loopNumber r)).rearm = true ∧ (t.loopSlot (loopNumber r)).c = (s.loopSlot (loopNumber r)).c) ∧
  (∀ (q : Nat × Bytes) (s : State), s.pending = [] → s.boot.quote = some q →
    ∃ t, step s = .next t ∧ t.boot.quote = none ∧ t.mono = s.mono + 32)

/-- R218 (TIME_STEP): where its conditions hold and the result is not negative, device time moves by TIME_STEP and step_done is
counted; the copies of the other dies stay until their next realignment, and a pending request keeps what it has waited (log entry
41). Otherwise device time stays and step_reject is counted. Nothing counted in always-on time moves.

R224 (PTP_FIFO_POP): a read of FIFO_HDR pops the oldest stamp of its port into the FIFO registers and answers its header, whose
bit 0 says that there was an entry; an empty FIFO answers zero.

R228, R229 (PPS_IN_EDGE, PPS_OUT_RISE, PPS_OUT_FALL): an edge on PPS_IN is stamped with device time and counted; PPS_OUT rises at
an edge instant while it is enabled and not gated, and falls after its width.
Where the spec is silent it follows the model's choices and readings of log entries 42 and 43. -/
def Obligations.TimeStepsAndStamps : Prop :=
  (∀ (who : Requester) (value : Nat) (s : State), s.served who 0 0x23 false = true → s.stepAllowed = true →
    0 ≤ (s.devTime : Int) + toSigned 64 (s.reg64 Reg.TIME_STEP) * 80000000000 →
    ∃ t, exec (.timeStep who value) s = .next t ∧
      (t.devTime : Int) = s.devTime + toSigned 64 (s.reg64 Reg.TIME_STEP) * 80000000000 ∧
      Counted s t Ev.TIME_EVT_STATUS_step_done ∧ (∀ d, 1 ≤ d → d < 5 → t.localNow d = s.localNow d) ∧
      t = { s with devTime := t.devTime, regs := t.regs, dieLag := t.dieLag, windows := t.windows,
                   requests := (s.rollAll 0).requests.map (Request.shift 0 (toSigned 64 (s.reg64 Reg.TIME_STEP))),
                   ports := { s.ports with ppsRise := s.ports.ppsRise + toSigned 64 (s.reg64 Reg.TIME_STEP),
                                           steps := s.ports.steps ++ [(s.mono, toSigned 64 (s.reg64 Reg.TIME_STEP))] } } ∧
     RegsKept s t (Reg.TIME_CTRL :: Ev.TIME_EVT_STATUS_step_done.regs)) ∧
  (∀ (who : Requester) (value : Nat) (s : State), s.served who 0 0x23 false = true →
    (s.stepAllowed = false ∨ (s.devTime : Int) + toSigned 64 (s.reg64 Reg.TIME_STEP) * 80000000000 < 0) →
    ∃ t, exec (.timeStep who value) s = .next t ∧ Counted s t Ev.TIME_EVT_STATUS_step_reject ∧ t = { s with regs := t.regs } ∧
     RegsKept s t (Reg.TIME_CTRL :: Ev.TIME_EVT_STATUS_step_reject.regs)) ∧
  (∀ (who : Requester) (port : Nat) (e : PtpStamp) (q : List PtpStamp) (s : State), s.readable who 0 0x23 = true → port < 12 →
    s.fifo port = e :: q → e.msgType < 4 → e.seq < 65536 → e.ns < 2 ^ 64 → e.frac < 65536 →
    ∃ t, exec (.ptpFifoPop who port) s = .next t ∧ t.fifo port = q ∧
      t.answer = leBytes 4 (1 + 2 * b2n e.egress + 4 * e.msgType + 65536 * e.seq) ∧
      t.reg64 (Reg.TIME_PORT_FIFO_NS port) = e.ns ∧ (t.reg (Reg.TIME_PORT_FIFO_FRAC port)).toNat = e.frac ∧
      (∀ p, p ≠ port → t.fifo p = s.fifo p) ∧ t = { s with regs := t.regs, ports := t.ports, answer := t.answer } ∧
     RegsKept s t [Reg.TIME_PORT_FIFO_HDR port, Reg.TIME_PORT_FIFO_NS port, Reg.TIME_PORT_FIFO_NS port + 4,
       Reg.TIME_PORT_FIFO_FRAC port]) ∧
  (∀ (who : Requester) (port : Nat) (s : State), s.readable who 0 0x23 = true → port < 12 → s.fifo port = [] →
    ∃ t, exec (.ptpFifoPop who port) s = .next t ∧ t.answer = [0, 0, 0, 0] ∧ t.ports = s.ports ∧
      t = { s with regs := t.regs, answer := t.answer } ∧
     RegsKept s t [Reg.TIME_PORT_FIFO_HDR port]) ∧
  (∀ s : State, s.flag Fld.TIME_CTRL_pps_in_en = true →
    ∃ t, exec .ppsInEdge s = .next t ∧ t.reg64 Reg.TIME_PPS_IN = s.now % 2 ^ 64 ∧
      t.fld Fld.TIME_STATUS_pps_in_seq = (s.fld Fld.TIME_STATUS_pps_in_seq + 1) % 2 ^ Fld.TIME_STATUS_pps_in_seq.width ∧
      Counted s t Ev.TIME_EVT_STATUS_pps_in ∧ t = { s with regs := t.regs, ports := t.ports } ∧
     RegsKept s t ([Reg.TIME_PPS_IN, Reg.TIME_PPS_IN + 4, Reg.TIME_STATUS] ++ Ev.TIME_EVT_STATUS_pps_in.regs ++
       Ev.TIME_EVT_STATUS_pps_in_glitch.regs)) ∧
  (∀ s : State, s.flag Fld.TIME_CTRL_pps_out_en = true → s.ppsDue = true → s.ports.ppsHigh = false →
    (s.flag Fld.TIME_CTRL_pps_gate = true → s.fld Fld.TIME_STATUS_servo = 2) →
    ∃ t, exec .ppsOutRise s = .next t ∧ t = { s with ports := { s.ports with ppsHigh := true, ppsRise := s.now } }) ∧
  (∀ s : State, s.ports.ppsHigh = true → s.ports.ppsRise + s.ppsWidth ≤ (s.now : Int) →
    ∃ t, exec .ppsOutFall s = .next t ∧ t = { s with ports := { s.ports with ppsHigh := false } })

/-! ### Traffic regulation (chapter 11) -/

/-- The requests that wait at the arbiter of a resource on a die (R210). -/
def waitingAt (s : State) (loc res : Nat) : List Request :=
  s.requests.filter (fun q => q.loc == loc && q.res == res && q.arrived.isSome && q.granted.isNone)

/-- Every request but one is as it was, but for what R206 takes off at a window boundary. -/
def othersKept (s t : State) (id : Nat) : Prop :=
  ∀ x ∈ s.requests, x.id ≠ id → ∃ y ∈ t.requests, { y with overBudget := x.overBudget } = x

/-- Every register outside the blocks TCL and MON of the dies keeps its value. -/
def TrafficRegsOnly (s t : State) : Prop := ∀ a, a / 65536 % 256 ≠ 4 → a / 65536 % 256 ≠ 5 → t.reg a = s.reg a

/-- The state of an arbiter's requests when it grants: the windows of their records brought up to device time (R206). -/
def rolledAt (s : State) (loc res : Nat) : State := (waitingAt s loc res).foldl (fun (a : State) q => a.rollWindow loc q.record) s

/-- R18, R203, R205, R207 (REQUEST_ISSUE): a request of a master that the die has enters with the class, context and deadline of its
source, along the links and the resource that it crosses; on the Reflex die a class-0 request from another die is class 1. It reaches
its first arbiter at once while its master is below its limit on every resource it crosses, and waits at the master otherwise. That a
request goes by links and resources with an arbiter each, and that the limit holds on each of them, is the model's choice (log entry 79).

R204, R206, R209, R210, R212, R213 (ARBITER_GRANT): the arbiter grants a unit of one of the requests that wait, of the lowest
effective class among them, and the unit's bytes are added to the byte counter of its class on the resource. A request with bytes left
waits on; one served whole waits for its completion at its last resource, and otherwise stands at the next with the time it spent on
the die, in units of 32 ns rounded up, taken from its deadline, and never below 0. The units of grant that R210 does not give, and that
the time on a die counts from the arrival to the last grant, are the model's choice (log entry 79).
Where the spec is silent it follows the model's choices and readings of log entries 41 and 79. -/
def Obligations.Requests : Prop :=
  (∀ (die master loc res bytes : Nat) (src : ReqSource) (s : State), sourceDie die src = true → sourceReaches loc res none src = true →
    routeRes die loc res (sourceMaster die src) ≠ [] →
    ∃ t, exec (.requestIssue die master loc res src bytes none) s = .next t ∧ t.nextReq = s.nextReq + 1 ∧
      (∃ q ∈ t.requests, q.id = s.nextReq ∧ q.die = die ∧ q.master = master ∧ q.bytes = bytes ∧ q.granted = none ∧
        q.path = routeRes die loc res (sourceMaster die src) ∧ q.cls0 = (s.requestTag src).1 ∧ q.ctx = (s.requestTag src).2.1 ∧
        q.cls = (if die ≠ 0 ∧ q.loc = 0 ∧ q.cls0 = 0 then 1 else q.cls0) ∧ q.issued = s.localNow die ∧
        (q.deadline = if s.admits q then deadlineField ((s.requestTag src).2.2.map (fun d => d - s.localNow die)) else 65535) ∧
        (q.arrived = if s.admits q then some (s.localNow q.loc) else none)) ∧
      othersKept s t s.nextReq ∧ TrafficRegsOnly s t ∧
      t = { s with requests := t.requests, nextReq := t.nextReq, windows := t.windows, regs := t.regs, crust := t.crust }) ∧
  (∀ (die master loc res bytes va : Nat) (write : Bool) (p : Nat) (s : State),
    s.translate (.engine die) (if write then .engineWrite else .read) (s.requestTag .scrub).2.1 va = .ok (.phys p) → die ≠ 1 →
    routeTo die (.phys p) ≠ [] →
    ∃ t, exec (.requestIssue die master loc res .scrub bytes (some (va, write))) s = .next t ∧
      (∃ q ∈ t.requests, q.id = s.nextReq ∧ q.path = routeTo die (.phys p) ∧ q.cls0 = 7) ∧ othersKept s t s.nextReq ∧
      TrafficRegsOnly s t) ∧
  (∀ (loc res : Nat) (s : State), loc < 5 → res < 10 → waitingAt s loc res ≠ [] → (∀ q ∈ waitingAt s loc res, q.cls < 8) →
    ∃ t, exec (.arbiterGrant loc res) s = .next t ∧
      (∃ q ∈ waitingAt (rolledAt s loc res) loc res,
        (∀ x ∈ waitingAt (rolledAt s loc res) loc res,
          (rolledAt s loc res).effectiveClass q (s.localNow loc) ≤ (rolledAt s loc res).effectiveClass x (s.localNow loc)) ∧
        t.reg64 (Reg.MON_BYTES loc res q.cls) = (s.reg64 (Reg.MON_BYTES loc res q.cls) + min q.left (s.grantUnit q)) % 2 ^ 64 ∧
        (s.grantUnit q < q.left → ({ q with left := q.left - s.grantUnit q } : Request) ∈ t.requests) ∧
        (q.left ≤ s.grantUnit q → q.route = [] → ({ q with left := 0, granted := some (s.localNow loc) } : Request) ∈ t.requests) ∧
        (q.left ≤ s.grantUnit q → q.route ≠ [] → ∃ y ∈ t.requests, y.id = q.id ∧ y.path = q.path ∧ (y.loc, y.res) = q.route.headD (0, 0) ∧
          y.left = q.bytes ∧ y.arrived = some (s.localNow y.loc) ∧
          y.deadline = (if q.deadline = 65535 then 65535 else q.deadline - ceilDiv ((s.localNow loc : Int) - q.entered).toNat 32)) ∧
        othersKept s t q.id) ∧
      TrafficRegsOnly s t ∧ t = { s with requests := t.requests, windows := t.windows, regs := t.regs, crust := t.crust })

/-- R206, R213 (BUDGET_WINDOW_START, REQUEST_COMPLETE): once a window boundary has come on a die the accounting of a record restarts
there and its waiting requests are over budget no longer, and before it nothing changes; a request that its last resource has served
leaves when it completes, and counts as late on each resource it crossed where its latency exceeds its target there; one that
completes after its deadline sets dl_miss. That late counts on each resource crossed, and that the deadline is judged by the copy of
device time of the master's die, is the model's choice (log entry 79).

R211, R214 (SNAPSHOT_ARM, SNAPSHOT_TAKE, LATENCY_MAX_CLEAR): a time at least 100 ns ahead arms a die's snapshot, and a nearer one
sets missed; when the time has come the shadows take the counters' values; lat_clr zeroes every class-0 maximum of the die.

R16, R19, R218 (FLIT_RETRY, DEVICE_TIME_REALIGN): a retried flit changes nothing; a realignment leaves a die's own copy of device
time within 8 ns of the Reflex die's, whatever it was, and moves what requests noted there by the step it adopts (log entry 41).
Where the spec is silent it follows the model's choices and readings of log entries 10, 41 and 79. -/
def Obligations.Windows : Prop :=
  (∀ (loc i : Nat) (r : Bytes) (s : State), (s.recs 5)[i]? = some r →
    (Sparse.get (fun _ => {}) s.windows (windowKey loc i)).next ≤ s.localNow loc →
    ∃ t, exec (.budgetWindowStart (loc, i)) s = .next t ∧
      Sparse.get (fun _ => {}) t.windows (windowKey loc i) = ⟨s.nextWindow i (s.localNow loc), 0⟩ ∧
      (∀ q ∈ t.requests, q.loc = loc → q.record = some i → q.granted = none → q.overBudget = false) ∧
      t.requests.length = s.requests.length ∧ t = { s with windows := t.windows, requests := t.requests }) ∧
  (∀ (loc i : Nat) (s : State), s.localNow loc < (Sparse.get (fun _ => {}) s.windows (windowKey loc i)).next →
    ∃ t, exec (.budgetWindowStart (loc, i)) s = .next t ∧ t = s) ∧
  (∀ (id : Nat) (q : Request) (s : State), s.requests.find? (fun x => x.id == id) = some q → q.granted.isSome = true →
    q.die < 5 → q.res < 10 → (∀ p ∈ q.passed ++ [(q.loc, q.res, q.cls, q.record)], p.1 < 5 ∧ p.2.1 < 10 ∧ p.2.2.1 < 8) →
    ∃ t, exec (.requestComplete id) s = .next t ∧ (∀ x ∈ t.requests, x.id ≠ id) ∧
      (∀ loc res cls, loc < 5 → res < 10 → cls < 8 →
        t.reg (Reg.MON_LATE loc res cls) = s.reg (Reg.MON_LATE loc res cls) +
          BitVec.ofNat 32 ((q.passed ++ [(q.loc, q.res, q.cls, q.record)]).countP (fun p =>
            p.1 == loc && p.2.1 == res && p.2.2.1 == cls && decide (s.latencyTarget p.2.2.2 p.2.2.1 < ((s.localNow q.die : Int) - q.issued).toNat)))) ∧
      (∀ d, q.due = some d → d < s.localNow q.die → Counted s t (Ev.TCL_EVT_STATUS_dl_miss q.die)) ∧ TrafficRegsOnly s t ∧
      t = { s with requests := t.requests, windows := t.windows, regs := t.regs, crust := t.crust }) ∧
  (∀ (who : Requester) (die time : Nat) (s : State), die < 5 → s.served who die 0x05 false = true → time < 2 ^ 64 →
    s.localNow die + 100 ≤ time →
    ∃ t, exec (.snapshotArm who die time) s = .next t ∧ t.flag (Fld.MON_SNAP_STATUS_armed die) = true ∧
      t.reg64 (Reg.MON_SNAP_TIME die) = time ∧
      RegsKept s t [Reg.MON_SNAP_TIME die, Reg.MON_SNAP_TIME die + 4, Reg.MON_SNAP_STATUS die] ∧
      t = { s with regs := t.regs, staged := dropHalf s.staged who (Reg.MON_SNAP_TIME die) }) ∧
  (∀ (who : Requester) (die time : Nat) (s : State), die < 5 → s.served who die 0x05 false = true →
    time < s.localNow die + 100 →
    ∃ t, exec (.snapshotArm who die time) s = .next t ∧ t.flag (Fld.MON_SNAP_STATUS_armed die) = false ∧
      t.flag (Fld.MON_SNAP_STATUS_missed die) = true ∧
      t = { s with regs := t.regs, staged := dropHalf s.staged who (Reg.MON_SNAP_TIME die) } ∧
     RegsKept s t (Reg.MON_SNAP_TIME die :: (Reg.MON_SNAP_TIME die + 4) :: (Ev.MON_SNAP_STATUS_missed die).regs)) ∧
  (∀ (die : Nat) (s : State), die < 5 → s.blkOpen die 0x05 = true → s.flag (Fld.MON_SNAP_STATUS_armed die) = true →
    s.reg64 (Reg.MON_SNAP_TIME die) ≤ s.localNow die →
    ∃ t, exec (.snapshotTake die) s = .next t ∧ t.flag (Fld.MON_SNAP_STATUS_armed die) = false ∧
      (∀ r c, r < 10 → c < 8 → t.reg64 (Reg.MON_BYTES_SHADOW die r c) = s.reg64 (Reg.MON_BYTES die r c) ∧
        t.reg (Reg.MON_LATE_SHADOW die r c) = s.reg (Reg.MON_LATE die r c) ∧
        t.reg64 (Reg.MON_BYTES die r c) = s.reg64 (Reg.MON_BYTES die r c)) ∧
      t.reg64 (Reg.MON_SNAP_AT die) = s.reg64 (Reg.MON_SNAP_TIME die) ∧ t = { s with regs := t.regs } ∧
     BlocksKept s t [die * 256 + 5]) ∧
  (∀ (who : Requester) (die : Nat) (s : State), die < 5 → s.served who die 0x04 false = true →
    ∃ t, exec (.latencyMaxClear who die) s = .next t ∧ (∀ r, r < 10 → t.reg (Reg.TCL_C0_LAT_MAX die r) = 0) ∧
      RegsKept s t ((List.range 10).map (Reg.TCL_C0_LAT_MAX die)) ∧ t = { s with regs := t.regs }) ∧
  (∀ s : State, ∃ t, exec .flitRetry s = .next t ∧ t = s) ∧
  (∀ (die : Nat) (s : State), 1 ≤ die → die < 5 → 8 ≤ s.now →
    ∃ t, exec (.deviceTimeRealign die) s = .next t ∧ t.now = s.now ∧ s.now ≤ t.localNow die + 8 ∧ t.localNow die ≤ s.now + 8 ∧
      (∀ d, d ≠ die → t.localNow d = s.localNow d) ∧
      t.requests = (if s.lag die = 0 then s.requests else (s.rollAll die).requests.map (Request.shift die (-(s.lag die)))) ∧
      t = { s with dieSkew := t.dieSkew, dieLag := t.dieLag, freeCtr := t.freeCtr, windows := t.windows, requests := t.requests })

/-! ### Resident contexts and schedules (chapter 04) -/

/-- True where a request of LAY_CTX_CTRL is taken (R81, R91): the write reaches the block, the device is ready, no load and no proof
run is in progress, and the context does not wait for its residency (R74). -/
def ctxTaken (s : State) (who : Requester) (k : Nat) : Bool :=
  s.served who 1 0x46 false && s.hostReady && s.load.isNone && !s.proofRunning && !(s.ctx k).waiting

/-- What the entry of a context into RESIDENT changes besides contexts: its event, the buffers of its dies where its entries are locked
(R184, R185), and the engine and the mask of the fusion owner, whose slots begin anew (R257, R357). -/
def EntryKeeps (s t : State) (k : Nat) : Prop :=
  RegsKept s t (Reg.LAY_CTX_CTRL :: Ev.LAY_CTX_EVENT_resident.regs ++ if s.engineCtx 6 = some k then [Reg.FUSN_STATUS] else []) ∧
  (s.defaultClass k ≠ 0 → t.tlb = s.tlb ∧ t.freeCtr = s.freeCtr) ∧
  t = { s.dropLidar k with
        regs := t.regs, ctxs := t.ctxs, tlb := t.tlb, freeCtr := t.freeCtr,
        fusion := if s.engineCtx 6 = some k then { s.fusion with restart := some s.now, run := none } else s.fusion }

/-- R71 to R73, R81, R185, R257, R414 (MAKE_RESIDENT): a NONRESIDENT context whose walk finds every page and whose locked entries fit becomes
RESIDENT at once when it has no residency transfer, and LOADING otherwise; one whose walk faults, or whose locked entries do not fit,
stays NONRESIDENT with the fault's code or 0x0208; while the tier manager is reset the request waits; a request that is not taken is
counted in cmd_reject and changes no context.

R72, R73, R185, R188 (RESIDENCY_TRANSFER_COMPLETE): the last transfer's data are written through the context's root and the context
becomes RESIDENT where its locked entries fit; an uncorrectable read from another tier than flash leaves it NONRESIDENT with 0x0204, and
is reported to Crust.

R77, R81, R451 (MAKE_NONRESIDENT, RELEASE): a quiesced RESIDENT or STOPPED context becomes NONRESIDENT, and Crust's hold on it stays;
a STOPPED context that Crust does not hold enters RESIDENT again, with its schedule off and its bases recorded anew.
Where the spec is silent it follows the model's choices and readings of log entry 22. -/
def Obligations.Residency : Prop :=
  (∀ (who : Requester) (k : Nat) (s : State), ctxTaken s who k = true → s.blkOpen 1 0x42 = true → (s.ctx k).phase = .nonresident →
    s.walkResidency k = 0 → s.lockFull k (s.pagesMapped k) = false → s.residencyRecs k = [] →
    ∃ t, exec (.makeResident who k) s = .next t ∧ (t.ctx k).phase = .resident ∧ (t.ctx k).anchor = s.localNow (s.queDie k) ∧
      (t.ctx k).acts = [] ∧ (t.ctx k).bases = s.syncBases ∧ Counted s t Ev.LAY_CTX_EVENT_resident ∧
      (∀ j, j ≠ k → t.ctx j = s.ctx j) ∧ EntryKeeps s t k) ∧
  (∀ (who : Requester) (k : Nat) (s : State), ctxTaken s who k = true → s.blkOpen 1 0x42 = true → (s.ctx k).phase = .nonresident →
    s.walkResidency k = 0 → s.lockFull k (s.pagesMapped k) = false → s.residencyRecs k ≠ [] →
    ∃ t, exec (.makeResident who k) s = .next t ∧ t.ctx k = { s.ctx k with phase := .loading, waiting := false, resNext := 0 } ∧
      (∀ j, j ≠ k → t.ctx j = s.ctx j) ∧ RegsKept s t [Reg.LAY_CTX_CTRL] ∧ t = { s with regs := t.regs, ctxs := t.ctxs }) ∧
  (∀ (who : Requester) (k : Nat) (s : State), ctxTaken s who k = true → s.blkOpen 1 0x42 = true → (s.ctx k).phase = .nonresident →
    (s.walkResidency k ≠ 0 ∨ s.lockFull k (s.pagesMapped k) = true) →
    ∃ t, exec (.makeResident who k) s = .next t ∧ (t.ctx k).phase = .nonresident ∧
      (t.ctx k).code = (if s.walkResidency k ≠ 0 then s.walkResidency k else 0x0208) ∧
      Counted s t Ev.LAY_CTX_EVENT_res_fail ∧ t = { s with regs := t.regs, ctxs := t.ctxs, queues := t.queues } ∧
     BlocksKept s t [0x146]) ∧
  (∀ (who : Requester) (k : Nat) (s : State), ctxTaken s who k = true → s.blkOpen 1 0x42 = false → (s.ctx k).phase = .nonresident →
    ∃ t, exec (.makeResident who k) s = .next t ∧ t.ctx k = { s.ctx k with waiting := true } ∧
      (∀ j, j ≠ k → t.ctx j = s.ctx j) ∧ RegsKept s t [Reg.LAY_CTX_CTRL] ∧ t = { s with regs := t.regs, ctxs := t.ctxs }) ∧
  (∀ (who : Requester) (k : Nat) (s : State), s.served who 1 0x46 false = true →
    (ctxTaken s who k = false ∨ (s.ctx k).phase ≠ .nonresident) →
    ∃ t, exec (.makeResident who k) s = .next t ∧ Counted s t Ev.LAY_CTX_EVENT_cmd_reject ∧ t = { s with regs := t.regs } ∧
     RegsKept s t (Reg.LAY_CTX_CTRL :: Ev.LAY_CTX_EVENT_cmd_reject.regs)) ∧
  (∀ (k : Nat) (found : Found) (r : Bytes) (m : State) (s : State), found.lost = false → (s.ctx k).phase = .loading →
    (s.residencyRecs k)[(s.ctx k).resNext]? = some r → (s.residencyRecs k).length = (s.ctx k).resNext + 1 →
    s.lockFull k (s.pagesMapped k) = false →
    ((s.noteActive 2).countReads k (fieldAt r 8 8) (fieldAt r 0x18 4) found).transfer k (fieldAt r 8 8) (fieldAt r 0x10 8)
      (fieldAt r 0x18 4) = .ok m →
    ∃ t, exec (.residencyTransferComplete k found) s = .next t ∧ (t.ctx k).phase = .resident ∧ t.phys = m.phys ∧
      t.flash = m.flash ∧ t.flag Fld.LAY_CTX_EVENT_resident = true) ∧
  (∀ (k : Nat) (found : Found) (r : Bytes) (s : State), found.lost = true → (s.ctx k).phase = .loading →
    (s.residencyRecs k)[(s.ctx k).resNext]? = some r → s.inFlash k (fieldAt r 8 8) = false → (∀ p ∈ s.ctxs, p.2.waiting = false) →
    ∃ t, exec (.residencyTransferComplete k found) s = .next t ∧ (t.ctx k).phase = .nonresident ∧ (t.ctx k).code = 0x0204 ∧
      Counted s t Ev.LAY_CTX_EVENT_res_fail ∧ t.phys = s.phys ∧ t.crust.reports = s.crust.reports ++ [(0x0B, 0)] ∧
      t.flash.bytes = s.flash.bytes ∧ BlocksKept s t [0x143, 0x146] ∧
      t = { s with regs := t.regs, ctxs := t.ctxs, queues := t.queues, power := t.power, crust := t.crust, flash := t.flash }) ∧
  (∀ (who : Requester) (k : Nat) (s : State), ctxTaken s who k = true → ((s.ctx k).phase = .resident ∨ (s.ctx k).phase = .stopped) →
    s.quiesced k = true →
    ∃ t, exec (.makeNonresident who k) s = .next t ∧ t.ctx k = { s.ctx k with phase := .nonresident } ∧
      t.flag Fld.LAY_CTX_EVENT_nonresident = true ∧ (∀ j, j ≠ k → t.ctx j = s.ctx j) ∧ t.layout = s.layout ∧ t.maps = s.maps ∧
      t.syncs = s.syncs ∧ t.kv = s.kv) ∧
  (∀ (who : Requester) (k : Nat) (s : State), ctxTaken s who k = true → (s.ctx k).phase = .stopped → (s.ctx k).crustHold = false →
    ∃ t, exec (.release who k) s = .next t ∧ (t.ctx k).phase = .resident ∧ (t.ctx k).sched = false ∧
      (t.ctx k).bases = s.syncBases ∧ (t.ctx k).anchor = s.localNow (s.queDie k) ∧ (t.ctx k).acts = [] ∧
      Counted s t Ev.LAY_CTX_EVENT_resident ∧ (∀ j, j ≠ k → t.ctx j = s.ctx j) ∧ EntryKeeps s t k)

/-- R75 to R77 (SCHEDULE_ACTIVATION, SCHEDULE_STEP_ISSUE): at a due instant an enabled RESIDENT context with no activation under way
starts one, with the starters whose turn it is (R358, log entry 61), and counts a skip otherwise; a step whose time, wait and operation slot have come starts its programme, which is no
starter, as the run of the next number, and the activation moves on to its next step.

R80 (BUDGET_OVERRUN): an activation past its budget is marked, the overrun is counted on the die of its schedule, and unless the
context's action is 2 the context is STOPPED with 0x0B31 and nothing of it is under way; action 1 also puts it under Crust's hold. No
other context changes.
Where the spec is silent it follows the model's choices and readings of log entries 23 and 61. -/
def Obligations.Activations : Prop :=
  (∀ (k j at' : Nat) (s : State), (s.ctx k).phase = .resident → (s.ctx k).sched = true → s.dueInstant k = some (j, at') →
    (s.ctx k).acts = [] →
    ∃ t, exec (.scheduleActivation k) s = .next t ∧
      t.ctx k = { s.ctx k with acts := [⟨(s.ctx k).actCount, at', 0, false, [], none, [], false, 0,
                                 (s.monoNs : Int) - (s.localNow (s.queDie k) - at' : Nat)⟩],
                               actCount := (s.ctx k).actCount + 1, lastInstant := j + 1 } ∧
      (∀ i, i ≠ k → t.ctx i = s.ctx i) ∧
      t = { s with ctxs := t.ctxs,
                   crust := { s.crust with starters := s.crust.starters ++ s.newStarters k (s.ctx k).actCount at' } }) ∧
  (∀ (k j at' : Nat) (s : State), (s.ctx k).phase = .resident → (s.ctx k).sched = true → s.dueInstant k = some (j, at') →
    (s.ctx k).acts ≠ [] →
    ∃ t, exec (.scheduleActivation k) s = .next t ∧ t.ctx k = { s.ctx k with lastInstant := j + 1 } ∧
      Counted s t (Ev.QUE_OVR_STATUS_skip (s.queDie k)) ∧ t = { s with ctxs := t.ctxs, regs := t.regs } ∧
     RegsKept s t (Ev.QUE_OVR_STATUS_skip (s.queDie k)).regs) ∧
  (∀ (k n : Nat) (l : Layout) (a : Activation) (step : Bytes) (s : State), s.layout = some l → (s.ctx k).phase = .resident →
    (s.ctx k).acts.find? (fun x => x.index == n) = some a → a.failed = false → (l.schedSteps k)[a.nextStep]? = some step →
    s.starterOf (fieldAt step 4 2) = none → l.progOps (fieldAt step 4 2) ≠ [] →
    fieldAt step 0 4 * 16000000 ≤ s.cyclesRun k a →
    s.stepWaitOk k n step = true → s.slotFree k ((l.progRec (fieldAt step 4 2)).elim 0 (fun p => fieldAt p 1 1)) = true →
    ∃ t, exec (.scheduleStepIssue k n) s = .next t ∧
      (∃ r, t.runs = s.runs ++ [r] ∧ r.id = s.nextRun ∧ r.ctx = k ∧ r.prog = fieldAt step 4 2 ∧ r.op = 0 ∧ r.executed = false ∧
        r.done = none ∧ r.origin = .step n a.nextStep ∧ r.unit = fieldAt step 6 2) ∧
      (t.ctx k).acts = (s.ctx k).acts.map (fun x => if x.index = n then { x with nextStep := x.nextStep + 1 } else x) ∧
      t = { s with ctxs := t.ctxs, runs := t.runs, nextRun := s.nextRun + 1 }) ∧
  (∀ (k n b : Nat) (a : Activation) (rec' : Bytes) (l : Layout) (s : State), s.layout = some l → l.ctxRec k = some rec' →
    (s.ctx k).acts.find? (fun x => x.index == n) = some a → s.budgetLimit k a.inv.isNone = some b → a.overran = false →
    a.start + b < s.localNow (s.queDie k) →
    ∃ t, exec (.budgetOverrun k false n) s = .next t ∧ Counted s t (Ev.QUE_OVR_STATUS_overrun (s.queDie k)) ∧
      (∀ j, j ≠ k → t.ctx j = s.ctx j) ∧
      t.fld (Fld.QUE_OVR_LAST_ctx_id (s.queDie k)) = k % 64 ∧
      (fieldAt rec' 8 1 = 2 →
        t.ctx k = { s.ctx k with acts := (s.ctx k).acts.map (fun x => if x.index = n then { x with overran := true } else x) } ∧
        t = { s with ctxs := t.ctxs, regs := t.regs }) ∧
      (fieldAt rec' 8 1 ≠ 2 → (t.ctx k).phase = .stopped ∧ (t.ctx k).code = 0x0B31 ∧ (t.ctx k).acts = [] ∧
        (t.ctx k).sched = false ∧ t.flag (Fld.HQ_Q_CTRL_run k) = false) ∧
      (fieldAt rec' 8 1 = 1 → (t.ctx k).crustHold = true ∧ (0x0A, 0) ∈ t.crust.reports))

/-- R98, R115 (OPERATION_COMPLETE): a run whose operation has ended well goes on with its next descriptor; after the last one its
invocation is done with the lowest code of its operations that is not 0, or 0. -/
def Obligations.OperationComplete : Prop :=
  (∀ (run : Nat) (r : Run) (l : Layout) (s : State), s.run? run = some r → s.layout = some l → r.executed = true → r.done = none →
    codeOk r.opCode = true → r.substitute = none → r.op + 1 < (l.progOps r.prog).length →
    ∃ t, exec (.operationComplete run) s = .next t ∧
      t.run? run = some { r with executed := false, opCode := 0, sat := {}, outs := [], putReady := false, progress := 0,
                                 codes := r.codes ++ [r.opCode], op := r.op + 1 } ∧
      (∀ j, j ≠ run → t.run? j = s.run? j) ∧ t = { s with regs := t.regs, runs := t.runs, power := t.power } ∧
     BlocksKept s t [r.satDie * 256 + 5, r.die * 256 + 0x0A, r.die * 256 + 0x68, r.die * 256 + 0x69]) ∧
  (∀ (run n : Nat) (r : Run) (l : Layout) (i : Invocation) (s : State), s.run? run = some r → s.layout = some l → r.executed = true →
    r.done = none → codeOk r.opCode = true → r.substitute = none → (l.progOps r.prog).length = r.op + 1 →
    r.origin = .invocation n → s.inv? r.ctx n = some i → i.done = none →
    ∃ t, exec (.operationComplete run) s = .next t ∧
      (∃ r', t.run? run = some r' ∧ r'.executed = false ∧ r'.done = some (lowestCode (r.codes ++ [r.opCode]))) ∧
      (∃ i', t.inv? r.ctx n = some i' ∧ i'.done = some (lowestCode (r.codes ++ [r.opCode]))) ∧
      t = { s with regs := t.regs, runs := t.runs, invs := t.invs, crust := t.crust, power := t.power } ∧
     BlocksKept s t [r.satDie * 256 + 5, r.die * 256 + 0x0A, r.die * 256 + 0x68, r.die * 256 + 0x69])

/-! ### The host link (chapter 05) -/

/-- The base of the 64 MiB that a window in mode STAGING reaches: the staging region in HBM (R86), or in recovery the SRAM of the Cache
die (R388). -/
def stagingAt (s : State) : Nat := if s.fld Fld.BOOT_STATUS_state = 3 then dieLocal 1 0 else 0x11FC000000

/-- R86, R188, R388 (BAR2_READ, BAR2_WRITE): an access whose every byte leads somewhere reads or writes those bytes: here through a
window in mode STAGING, which reaches its 64 MiB and nothing else. An access with a byte that leads nowhere, here through a window
in mode OFF, reads all ones or is discarded whole, and is counted in win_fault; so does a read that meets an uncorrectable error, which
is reported to Crust.
Where the spec is silent it follows the model's choices and readings of log entry 27. -/
def Obligations.Bar2 : Prop :=
  (∀ (k x len : Nat) (s : State), k < 64 → s.fld (Fld.HQ_WIN_CTRL_mode k) = 2 → x + len ≤ 0x4000000 →
    ∃ t, exec (.bar2Read (k * 0x40000000 + x) (len, ⟨[], false⟩)) s = .next t ∧ t = { s with answer := s.readPhys (stagingAt s + x) len }) ∧
  (∀ (k x len : Nat) (s : State), k < 64 → s.fld (Fld.HQ_WIN_CTRL_mode k) = 2 → x + len ≤ 0x4000000 →
    ∃ t, exec (.bar2Read (k * 0x40000000 + x) (len, ⟨[], true⟩)) s = .next t ∧ t.answer = List.replicate len 255 ∧
      t.crust.reports = s.crust.reports ++ [(0x0B, 0)] ∧ Counted s t Ev.HQ_EVT_STATUS_win_fault ∧
      RegsKept s t Ev.HQ_EVT_STATUS_win_fault.regs ∧
      t = { s with regs := t.regs, msix := t.msix, msixPending := t.msixPending, answer := t.answer, crust := t.crust }) ∧
  (∀ (k x : Nat) (data : Bytes) (s : State), k < 64 → s.fld (Fld.HQ_WIN_CTRL_mode k) = 2 → x + data.length ≤ 0x4000000 →
    ∃ t, exec (.bar2Write (k * 0x40000000 + x) data) s = .next t ∧ t.readPhys (stagingAt s + x) data.length = data ∧
      (∀ a, (a < stagingAt s + x ∨ stagingAt s + x + data.length ≤ a) → t.byteAt a = s.byteAt a) ∧ t = { s with phys := t.phys }) ∧
  (∀ (k x len : Nat) (found : Found) (s : State), k < 64 → s.fld (Fld.HQ_WIN_CTRL_mode k) = 0 → x + len ≤ 0x40000000 → 1 ≤ len →
    ∃ t, exec (.bar2Read (k * 0x40000000 + x) (len, found)) s = .next t ∧ t.answer = List.replicate len 255 ∧
      Counted s t Ev.HQ_EVT_STATUS_win_fault ∧ t = { s with regs := t.regs, msix := t.msix, msixPending := t.msixPending, answer := t.answer } ∧
     RegsKept s t Ev.HQ_EVT_STATUS_win_fault.regs) ∧
  (∀ (k x : Nat) (data : Bytes) (s : State), k < 64 → s.fld (Fld.HQ_WIN_CTRL_mode k) = 0 → x + data.length ≤ 0x40000000 → data ≠ [] →
    ∃ t, exec (.bar2Write (k * 0x40000000 + x) data) s = .next t ∧ Counted s t Ev.HQ_EVT_STATUS_win_fault ∧
      t = { s with regs := t.regs, msix := t.msix, msixPending := t.msixPending } ∧
     RegsKept s t Ev.HQ_EVT_STATUS_win_fault.regs)

/-- True where a submission tail doorbell is valid (R91, R94): the device is ready, the layout holds the context, the value is a count,
and neither the advance nor the distance from the head exceeds the ring. -/
def tailValid (s : State) (k v : Nat) : Bool :=
  s.hostReady && s.holds k && decide (v < s.queueW k) && decide (countDiff (s.queueW k) v (s.queue k).sqTail ≤ s.queueSlots k) &&
    decide (countDiff (s.queueW k) v (s.queue k).sqHead ≤ s.queueSlots k)

/-- R87, R91, R94 (SUBMISSION_TAIL_DOORBELL, COMPLETION_HEAD_DOORBELL, BAR4_INVALID_WRITE): a valid doorbell moves its count alone; an
invalid one, a doorbell of another size and a write to an offset that is not listed are counted in db_invalid and move nothing.

R87, R99 (SYNC_SLOT_WRITE, SYNC_SLOT_READ): an aligned 64-bit or low 32-bit write signals a host_visible object by its value, held at
2^64 - 1; a read answers its value; a slot that is absent or hidden reads zero and is counted in sync_invalid; a
doorbell or an unlisted offset reads zero and nothing is counted.
Where the spec is silent it follows the model's choices and readings of log entry 27. -/
def Obligations.Bar4 : Prop :=
  (∀ (k v : Nat) (s : State), tailValid s k v = true →
    ∃ t, exec (.submissionTailDoorbell k v) s = .next t ∧ t.queue k = { s.queue k with sqTail := v } ∧
      (∀ j, j ≠ k → t.queue j = s.queue j) ∧ t = { s with queues := t.queues }) ∧
  (∀ (k v : Nat) (s : State), tailValid s k v = false →
    ∃ t, exec (.submissionTailDoorbell k v) s = .next t ∧ Counted s t Ev.HQ_EVT_STATUS_db_invalid ∧
      t = { s with regs := t.regs, msix := t.msix, msixPending := t.msixPending } ∧
     RegsKept s t Ev.HQ_EVT_STATUS_db_invalid.regs) ∧
  (∀ (k v : Nat) (s : State), s.hostReady = true → s.holds k = true → v < s.queueW k →
    countDiff (s.queueW k) v (s.queue k).cqHead ≤ countDiff (s.queueW k) (s.queue k).cqTail (s.queue k).cqHead →
    ∃ t, exec (.completionHeadDoorbell k v) s = .next t ∧ t.queue k = { s.queue k with cqHead := v } ∧
      (∀ j, j ≠ k → t.queue j = s.queue j) ∧ t = { s with queues := t.queues }) ∧
  (∀ (off size value : Nat) (s : State), (off < 0x40000 ∧ size ≠ 4) ∨ (0x40000 ≤ off ∧ off < 0x100000) →
    ∃ t, exec (.bar4InvalidWrite off size value) s = .next t ∧ Counted s t Ev.HQ_EVT_STATUS_db_invalid ∧
      t = { s with regs := t.regs, msix := t.msix, msixPending := t.msixPending } ∧
     RegsKept s t Ev.HQ_EVT_STATUS_db_invalid.regs) ∧
  (∀ (id size value o : Nat) (s : State), s.hostReady = true → (size = 4 ∨ size = 8) → s.slotObj id = some o → s.sync o < 2 ^ 64 →
    ∃ t, exec (.syncSlotWrite id 0 size value) s = .next t ∧ t.sync o = min (s.sync o + value % 2 ^ (8 * size)) (2 ^ 64 - 1) ∧
      (2 ^ 64 ≤ s.sync o + value % 2 ^ (8 * size) → Counted s t Ev.HQ_EVT_STATUS_sync_overflow) ∧
      (s.sync o + value % 2 ^ (8 * size) < 2 ^ 64 → t.regs = s.regs) ∧ (∀ j, j ≠ o → t.sync j = s.sync j) ∧
      t = { s with syncs := t.syncs, regs := t.regs, msix := t.msix, msixPending := t.msixPending } ∧
     RegsKept s t Ev.HQ_EVT_STATUS_sync_overflow.regs) ∧
  (∀ (id o : Nat) (s : State), id < 65535 → s.slotObj id = some o →
    ∃ t, exec (.syncSlotRead (some id) 0 8) s = .next t ∧ t = { s with answer := leBytes 8 (s.sync o) }) ∧
  (∀ (off size : Nat) (s : State), (off + size ≤ 0x100000 ∨ (0x17FFF8 ≤ off ∧ off + size ≤ 0xFF0000)) →
    ∃ t, exec (.syncSlotRead none off size) s = .next t ∧ t = { s with answer := List.replicate size 0 }) ∧
  (∀ (id off size : Nat) (s : State), id < 65535 → off < 8 → s.slotObj id = none →
    ∃ t, exec (.syncSlotRead (some id) off size) s = .next t ∧ t.answer = leBytes size 0 ∧ Counted s t Ev.HQ_EVT_STATUS_sync_invalid ∧
      t = { s with answer := t.answer, regs := t.regs, msix := t.msix, msixPending := t.msixPending } ∧
     RegsKept s t Ev.HQ_EVT_STATUS_sync_invalid.regs)

/-- R89, R90 (IF_PROPOSE, IF_ANSWER): a proposal takes HQ_IF_DRV and stands until firmware answers it; agreement on a common major in
HANDSHAKE makes the device READY with that major and code 0, no common major makes it REFUSED with 0x0B10, and either is counted
in if_done.
Where the spec is silent it follows the model's choices and readings of log entry 26. -/
def Obligations.Handshake : Prop :=
  (∀ (who : Requester) (s : State), s.served who 1 0x45 false = true → s.flag Fld.HQ_IF_CTRL_propose = false →
    (s.fld Fld.HQ_DEV_STATE_state = 1 ∨ s.fld Fld.HQ_DEV_STATE_state = 2 ∨ s.fld Fld.HQ_DEV_STATE_state = 3) →
    ∃ t, exec (.ifPropose who) s = .next t ∧ t.proposal = some (s.reg Reg.HQ_IF_DRV) ∧ t.flag Fld.HQ_IF_CTRL_propose = true ∧
      RegsKept s t [Reg.HQ_IF_CTRL] ∧ t = { s with regs := t.regs, proposal := t.proposal }) ∧
  (∀ (p : Word) (s : State), s.proposal = some p → s.fld Fld.HQ_DEV_STATE_state = 1 → s.fld Fld.HQ_DEV_STATE_bkr_restarting = 0 →
    bits p.toNat 0 16 ≠ 0 → p.getLsbD 0 = false → commonMajor (s.fld Fld.HQ_IF_FW_majors) (bits p.toNat 0 16) ≠ 0 →
    ∃ t, exec .ifAnswer s = .next t ∧ t.proposal = none ∧ t.flag Fld.HQ_IF_CTRL_propose = false ∧
      t.fld Fld.HQ_DEV_STATE_state = 2 ∧ t.fld Fld.HQ_IF_STATUS_code = 0 ∧
      t.fld Fld.HQ_IF_STATUS_major = commonMajor (s.fld Fld.HQ_IF_FW_majors) (bits p.toNat 0 16) ∧
      Counted s t Ev.HQ_EVT_STATUS_if_done ∧ t = { s with regs := t.regs, msix := t.msix, msixPending := t.msixPending, proposal := none } ∧
     RegsKept s t ([Reg.HQ_DEV_STATE, Reg.HQ_IF_CTRL, Reg.HQ_IF_STATUS] ++ Ev.HQ_EVT_STATUS_if_done.regs)) ∧
  (∀ (p : Word) (s : State), s.proposal = some p → s.fld Fld.HQ_DEV_STATE_state = 1 → s.fld Fld.HQ_DEV_STATE_bkr_restarting = 0 →
    bits p.toNat 0 16 ≠ 0 → p.getLsbD 0 = false → commonMajor (s.fld Fld.HQ_IF_FW_majors) (bits p.toNat 0 16) = 0 →
    ∃ t, exec .ifAnswer s = .next t ∧ t.proposal = none ∧ t.fld Fld.HQ_DEV_STATE_state = 4 ∧
      t.fld Fld.HQ_IF_STATUS_code = 0x0B10 ∧ Counted s t Ev.HQ_EVT_STATUS_if_done ∧
     RegsKept s t ([Reg.HQ_DEV_STATE, Reg.HQ_IF_CTRL, Reg.HQ_IF_STATUS] ++ Ev.HQ_EVT_STATUS_if_done.regs) ∧ t = { s with regs := t.regs, msix := t.msix, msixPending := t.msixPending, proposal := none })

/-- R94, R96, R450 (DESCRIPTOR_FETCH, INVOCATION_START): while run is 1 the engine fetches the descriptor at sq_head from host memory;
at its turn a valid descriptor of a context without a once-only schedule starts its programme as the next run, and one that is
turned away is done with its status without running.

R94, R97, R98, R101 (INVOCATION_COMPLETE): an invocation that is done, with room in its completion ring and no unsettled sequence,
and with 0x0B32 at its turn, writes its 32-byte record at cq_tail, advances cq_tail and is in flight no longer; with a code other than
a result it signals nothing.
Where the spec is silent it follows the model's choices and readings of log entry 24. -/
def Obligations.Invocations : Prop :=
  (∀ (k : Nat) (s : State), s.holds k = true → (s.queue k).sqHead ≠ (s.queue k).sqTail → (s.queue k).fault = false →
    s.flag (Fld.HQ_Q_CTRL_run k) = true →
    ∃ t, exec (.descriptorFetch k) s = .next t ∧ (t.queue k).fetched = (s.queue k).fetched ++ [((s.queue k).sqHead,
        s.readHost (s.reg64 (Reg.HQ_Q_SQ_BASE k) + (s.queue k).sqHead % s.queueSlots k * 64) 64)] ∧
      (t.queue k).sqHead = ((s.queue k).sqHead + 1) % s.queueW k ∧ (∀ j, j ≠ k → t.queue j = s.queue j) ∧
      t = { s with queues := t.queues }) ∧
  (∀ (k n : Nat) (d : Bytes) (rest : List (Nat × Bytes)) (l : Layout) (s : State), s.layout = some l →
    (s.queue k).fetched = (n, d) :: rest → s.completionRoom k = true → s.descReject k n d = 0 →
    s.mayStart k d ((l.progRec (fieldAt d 2 2)).elim 0 (fun r => fieldAt r 1 1)) = true → l.onceSched k = none →
    l.progOps (fieldAt d 2 2) ≠ [] →
    ∃ t, exec (.invocationStart k) s = .next t ∧ (t.queue k).fetched = rest ∧
      t.invs = s.invs ++ [⟨k, n, d, s.localNow (s.invDie k d), true, false, none⟩] ∧
      (∃ r, t.runs = s.runs ++ [r] ∧ r.id = s.nextRun ∧ r.ctx = k ∧ r.prog = fieldAt d 2 2 ∧ r.args = slice d 0x20 32 ∧
        r.origin = .invocation n ∧ r.executed = false ∧ r.done = none) ∧
      t = { s with queues := t.queues, invs := t.invs, runs := t.runs, nextRun := s.nextRun + 1 }) ∧
  (∀ (k n c : Nat) (d : Bytes) (rest : List (Nat × Bytes)) (l : Layout) (s : State), s.layout = some l →
    (s.queue k).fetched = (n, d) :: rest → s.completionRoom k = true → s.descReject k n d = c → c ≠ 0 →
    ∃ t, exec (.invocationStart k) s = .next t ∧ (t.queue k).fetched = rest ∧
      t.invs = s.invs ++ [⟨k, n, d, 0, false, false, some c⟩] ∧ t = { s with queues := t.queues, invs := t.invs }) ∧
  (∀ (k n code : Nat) (i : Invocation) (s : State), s.inv? k n = some i → i.done = some code → codeOk code = false →
    i.ctx = k → n < 2 ^ 32 → (s.queue k).discard = false →
    countDiff (s.queueW k) (s.queue k).cqTail (s.queue k).cqHead < s.queueSlots k →
    (code = 0x0B32 → s.stoppedInTurn k n = true) → (∀ x ∈ s.kvTouched, ¬(x.ctx = k ∧ x.inv = some n)) →
    ∃ t, exec (.invocationComplete k n) s = .next t ∧
      t.readHost (s.reg64 (Reg.HQ_Q_CQ_BASE k) + (s.queue k).cqTail % s.queueSlots k * 32) 32 =
        completionRecord i code (s.queue k).cqTail (s.queueSlots k) (s.localNow (s.invDie k i.desc)) ∧
      (t.queue k).cqTail = ((s.queue k).cqTail + 1) % s.queueW k ∧ t.inv? k n = none ∧ t.syncs = s.syncs ∧
      t.msix = (if (fieldAt i.desc 1 1).testBit 0 && s.flag (Fld.HQ_Q_CTRL_irq_en k) && !s.msixMasked (s.fld (Fld.HQ_Q_CTRL_msix k))
        then s.msix ++ [s.fld (Fld.HQ_Q_CTRL_msix k)] else s.msix) ∧
      t = { s with hostMem := t.hostMem, queues := t.queues, invs := t.invs, runs := t.runs, msix := t.msix, msixPending := t.msixPending })

/-- R101, R104 (QUEUE_STOP, QUEUE_RUN, QUEUE_ABORT, SQ_FETCH_FAULT, CQ_WRITE_FAULT): run = 0 stops fetches and the schedule and clears
the fault; run = 1 resumes both, and a quiesced fusion owner begins anew (R257); an abort ends what was fetched with 0x0B34; a failed ring access stops the queue with its code,
counted in q_fault.
Where the spec is silent it follows the model's choices and readings of log entry 24. -/
def Obligations.QueueControl : Prop :=
  (∀ (who : Requester) (k value : Nat) (s : State), k < 64 → s.served who 1 0x45 false = true → s.holds k = true →
    ∃ t, exec (.queueStop who k value) s = .next t ∧ t.flag (Fld.HQ_Q_CTRL_run k) = false ∧ (t.ctx k).sched = false ∧
      t.queue k = { s.queue k with fault := false } ∧ RegsKept s t [Reg.HQ_Q_CTRL k] ∧
      t = { s with regs := t.regs, ctxs := t.ctxs, queues := t.queues }) ∧
  (∀ (who : Requester) (k value : Nat) (s : State), k < 64 → s.served who 1 0x45 false = true → s.holds k = true →
    s.flag (Fld.HQ_Q_CTRL_run k) = false → (s.ctx k).phase ≠ .stopped → (s.queue k).fault = false →
    ∃ t, exec (.queueRun who k value) s = .next t ∧ t.flag (Fld.HQ_Q_CTRL_run k) = true ∧ (t.ctx k).sched = true ∧
      t.queue k = { s.queue k with discard := false } ∧ RegsKept s t [Reg.HQ_Q_CTRL k, Reg.FUSN_STATUS] ∧
      ((s.quiesced k = false ∨ s.engineCtx 6 ≠ some k) → RegsKept s t [Reg.HQ_Q_CTRL k]) ∧
      t = { s with regs := t.regs, ctxs := t.ctxs, queues := t.queues,
                   fusion := if s.quiesced k = true ∧ s.engineCtx 6 = some k then
                       { s.fusion with restart := some s.now, run := none } else s.fusion }) ∧
  (∀ (who : Requester) (k value : Nat) (s : State), k < 64 → s.served who 1 0x45 false = true → s.holds k = true →
    ∃ t, exec (.queueAbort who k value) s = .next t ∧ t.flag (Fld.HQ_Q_CTRL_run k) = false ∧ (t.ctx k).sched = false ∧
      (t.queue k).fetched = [] ∧ (∀ i ∈ t.invs, i.ctx = k → i.done ≠ none) ∧
      (∀ p ∈ (s.queue k).fetched, (⟨k, p.1, p.2, 0, false, false, some 0x0B34⟩ : Invocation) ∈ t.invs)) ∧
  (∀ (k : Nat) (s : State), k < 64 → s.holds k = true → (s.queue k).sqHead ≠ (s.queue k).sqTail →
    s.flag (Fld.HQ_Q_CTRL_run k) = true →
    ∃ t, exec (.sqFetchFault k) s = .next t ∧ (t.queue k).fault = true ∧ (t.queue k).code = 0x0B20 ∧
      t.flag (Fld.HQ_Q_CTRL_run k) = false ∧ Counted s t Ev.HQ_EVT_STATUS_q_fault ∧
     RegsKept s t (Reg.HQ_Q_CTRL k :: Ev.HQ_EVT_STATUS_q_fault.regs) ∧ (∀ j, j ≠ k → t.queue j = s.queue j) ∧
       t = { s with regs := t.regs, msix := t.msix, msixPending := t.msixPending, queues := t.queues }) ∧
  (∀ (k : Nat) (s : State), k < 64 → s.holds k = true →
    ∃ t, exec (.cqWriteFault k) s = .next t ∧ (t.queue k).fault = true ∧ (t.queue k).code = 0x0B21 ∧
      (t.queue k).discard = true ∧ t.flag (Fld.HQ_Q_CTRL_run k) = false ∧ Counted s t Ev.HQ_EVT_STATUS_q_fault ∧
     RegsKept s t (Reg.HQ_Q_CTRL k :: Ev.HQ_EVT_STATUS_q_fault.regs) ∧ (∀ j, j ≠ k → t.queue j = s.queue j) ∧
       t = { s with regs := t.regs, msix := t.msix, msixPending := t.msixPending, queues := t.queues })

/-- R100 (NOTIFIER_ARM, NOTIFIER_FIRE): a notifier on a host_visible object is armed, and on another the write does not arm it and sets
sync_invalid; an armed one whose object has reached the threshold, at the moment of arming or later, disarms and raises its vector;
one that is not armed, or whose object lies below the threshold, does nothing.
Where the spec is silent it follows the model's choices and readings of log entries 25 and 75. -/
def Obligations.Notifiers : Prop :=
  (∀ (who : Requester) (k value o : Nat) (s : State), k < 64 → s.served who 1 0x45 false = true →
    s.slotObj (bits value 0 16) = some o →
    ∃ t, exec (.notifierArm who k value) s = .next t ∧ t.flag (Fld.HQ_NTF_CTRL_arm k) = true ∧
      t.fld (Fld.HQ_NTF_CTRL_sync_id k) = bits value 0 16 ∧ t.fld (Fld.HQ_NTF_CTRL_msix k) = bits value 16 6 ∧
      RegsKept s t [Reg.HQ_NTF_CTRL k] ∧ t = { s with regs := t.regs }) ∧
  (∀ (who : Requester) (k value : Nat) (s : State), k < 64 → s.served who 1 0x45 false = true →
    s.slotObj (bits value 0 16) = none →
    ∃ t, exec (.notifierArm who k value) s = .next t ∧ t.flag (Fld.HQ_NTF_CTRL_arm k) = s.flag (Fld.HQ_NTF_CTRL_arm k) ∧
      Counted s t Ev.HQ_EVT_STATUS_sync_invalid ∧ t = { s with regs := t.regs, msix := t.msix, msixPending := t.msixPending } ∧
     RegsKept s t (Reg.HQ_NTF_CTRL k :: Ev.HQ_EVT_STATUS_sync_invalid.regs)) ∧
  (∀ (k : Nat) (s : State), k < 64 → s.flag (Fld.HQ_NTF_CTRL_arm k) = true →
    s.reg64 (Reg.HQ_NTF_THRESH k) ≤ s.syncValue (s.fld (Fld.HQ_NTF_CTRL_sync_id k)) →
    ∃ t, exec (.notifierFire k) s = .next t ∧ t.flag (Fld.HQ_NTF_CTRL_arm k) = false ∧
      (let v := s.fld (Fld.HQ_NTF_CTRL_msix k)
       if s.msixMasked v then t.msix = s.msix ∧ v ∈ t.msixPending else t.msix = s.msix ++ [v] ∧ t.msixPending = s.msixPending) ∧
      RegsKept s t [Reg.HQ_NTF_CTRL k] ∧
      t = { s with regs := t.regs, msix := t.msix, msixPending := t.msixPending }) ∧
  (∀ (k : Nat) (s : State), (s.flag (Fld.HQ_NTF_CTRL_arm k) = false ∨
      s.syncValue (s.fld (Fld.HQ_NTF_CTRL_sync_id k)) < s.reg64 (Reg.HQ_NTF_THRESH k)) → exec (.notifierFire k) s = .next s)

/-! ### Arithmetic, tiles, stem engine, arg-max and attention (chapters 02, 06 and 08) -/

/-- R29, R30: rshift_rne is the nearest integer to x × 2^-d, an exact half going to the even one, exact for a left shift and 0 from a
shift of 64 on; div_rne is the same for a quotient; a saturation clamps into the format's range, counts exactly the values that it
changes, and leaves a value within the range alone. -/
def Obligations.RoundingAndSaturation : Prop :=
  (∀ (x d : Int), 0 < d → d < 64 →
    2 * (x - rshiftRne x d * 2 ^ d.toNat).natAbs ≤ 2 ^ d.toNat ∧
    (2 * (x - rshiftRne x d * 2 ^ d.toNat).natAbs = 2 ^ d.toNat → rshiftRne x d % 2 = 0)) ∧
  (∀ (x : Int) (n : Nat), rshiftRne x (-(n : Int)) = x * 2 ^ n) ∧
  (∀ (x d : Int), 64 ≤ d → rshiftRne x d = 0) ∧
  (∀ (n den : Int), 0 < den → 2 * (n - divRne n den * den).natAbs ≤ den.natAbs ∧
    (2 * ((n - divRne n den * den).natAbs : Int) = den → divRne n den % 2 = 0)) ∧
  (∀ (f : Format) (sym : Bool) (v : Int), f ≠ .bin1 →
    formatLo f sym ≤ (satTo f sym v).1 ∧ (satTo f sym v).1 ≤ formatHi f ∧ ((satTo f sym v).2 = true ↔ (satTo f sym v).1 ≠ v) ∧
    (formatLo f sym ≤ v → v ≤ formatHi f → satTo f sym v = (v, false)))

/-- R37 to R39, and chapter 02's remark that with per-tensor or per-row scales and h = 0 the accumulator is exact: where both operands
have one scale word for an output element, neither with m = 0, and no prefix of its products leaves INT48, the accumulator of a GEMM
that is not split over K is the whole sum of products times the product of the multipliers, at the sum of the exponents, unsaturated. -/
def Obligations.GemmExact : Prop :=
  ∀ (s : State) (o : TileOp) (a b : Tensor) (i j : Nat), o.h = 0 → o.split ≠ 2 → o.bKn = false → o.granA = a.gran → o.granB = b.gran →
    a.gran ≤ 1 → b.gran ≤ 1 → 0 < o.k → (s.tensorScale a i 0).m ≠ 0 → (s.tensorScale b j 0).m ≠ 0 →
    (∀ n, n ≤ o.k → (((List.range n).map (fun x => s.tensorElem a i x * s.tensorElem b j x)).sum *
      ((s.tensorScale a i 0).m * (s.tensorScale b j 0).m : Nat)).natAbs < 2 ^ 47) →
    (s.gemmElem o a b i j).a = ((List.range o.k).map (fun x => s.tensorElem a i x * s.tensorElem b j x)).sum *
      ((s.tensorScale a i 0).m * (s.tensorScale b j 0).m : Nat) ∧
    (s.gemmElem o a b i j).e = (s.tensorScale a i 0).e + (s.tensorScale b j 0).e ∧ (s.gemmElem o a b i j).acc = false

/-- What an executed operation leaves in memory and in its run, and nowhere else: the outputs, and the run marked as executed with the
operation's code, events and output ranges, its number, programme and position as before. -/
def Executed (s t : State) (run : Nat) (r : Run) (x : OpResult) : Prop :=
  (∃ r', t.run? run = some r' ∧ r'.executed = true ∧ r'.opCode = x.code ∧ r'.sat = x.sat ∧ r'.outs = x.outs ∧ r'.op = r.op ∧
    r'.prog = r.prog ∧ r'.ctx = r.ctx ∧ r'.codes = r.codes ∧ r'.done = r.done) ∧
  t.phys = x.state.phys ∧ t = { s with phys := t.phys, runs := t.runs }

/-- R108, R115, R116, R122 (GEMM, CONV, EW, STEM_FIRST, STEM_LAST, STEM_LAST_ARGMAX, ARGMAX): an operation whose engine is free
executes: the run takes the code, events and output ranges, memory takes the outputs, and nothing else changes. STEM_FIRST and
STEM_LAST write what CONV writes for the same descriptor. An uncorrectable read ends the operation with 0x0204 and is reported to Crust,
one in SRAM is counted too; what the operation has left in its outputs is open, and no other byte changes. An operation whose tiles or
engine are not free waits (log entry 32).
Where the spec is silent it follows the model's choices and readings of log entries 30 and 32. -/
def Obligations.TileOperations : Prop :=
  (∀ (run : Nat) (r : Run) (d : Bytes) (s : State), s.tilesFree r = true → s.startable run 0x01 = some (r, d) →
    ∃ t, exec (.gemm run .clean) s = .next t ∧ Executed s t run r (s.gemmResult r.die r.args (tileOpOf d))) ∧
  (∀ (run : Nat) (r : Run) (d : Bytes) (s : State), s.tilesFree r = true → s.startable run 0x02 = some (r, d) →
    ∃ t, exec (.conv run .clean) s = .next t ∧ Executed s t run r (s.convResult r.die (tileOpOf d))) ∧
  (∀ (run : Nat) (r : Run) (d : Bytes) (s : State), s.tilesFree r = true → s.startable run 0x03 = some (r, d) →
    ∃ t, exec (.ew run .clean) s = .next t ∧ Executed s t run r (s.ewResult r.die r.args (tileOpOf d))) ∧
  (∀ (run : Nat) (r : Run) (d : Bytes) (s : State), s.engineFree r = true → s.startable run 0x10 = some (r, d) →
    ∃ t, exec (.stemFirst run .clean) s = .next t ∧ Executed s t run r (s.convResult r.die (tileOpOf d))) ∧
  (∀ (run : Nat) (r : Run) (d : Bytes) (s : State), s.engineFree r = true → s.startable run 0x11 = some (r, d) →
    ∃ t, exec (.stemLast run .clean) s = .next t ∧ Executed s t run r (s.convResult r.die (tileOpOf d))) ∧
  (∀ (run : Nat) (r : Run) (d : Bytes) (s : State), s.engineFree r = true → s.startable run 0x12 = some (r, d) →
    ∃ t, exec (.stemLastArgmax run .clean) s = .next t ∧ Executed s t run r (s.stemArgmaxResult r.die (tileOpOf d))) ∧
  (∀ (run : Nat) (r : Run) (d : Bytes) (s : State), s.engineFree r = true → s.startable run 0x20 = some (r, d) →
    ∃ t, exec (.argmax run .clean) s = .next t ∧ Executed s t run r (s.argmaxResult r.die (tileOpOf d))) ∧
  (∀ (run : Nat) (ecc : Ecc) (r : Run) (d : Bytes) (s : State), s.tilesFree r = true → s.startable run 0x01 = some (r, d) →
    (∀ tile line, ecc ≠ .corrected tile line) → ecc ≠ .clean →
    ∃ t, exec (.gemm run ecc) s = .next t ∧
      (∃ r', t.run? run = some r' ∧ r'.executed = true ∧ r'.opCode = 0x0204 ∧ r'.outs = []) ∧
      (∀ tile line, ecc = .uncorrectable tile line → Counted s t (Ev.TILE_EVT_STATUS_ecc_uncorr r.die)) ∧
      t.crust = { s.crust with reports := s.crust.reports ++ [(0x0B, 0)] } ∧
      (∀ p, (∀ y ∈ (s.gemmResult r.die r.args (tileOpOf d)).outs, p < y.1 ∨ y.1 + y.2 ≤ p) → t.byteAt p = s.byteAt p) ∧
      t = { s with runs := t.runs, regs := t.regs, crust := t.crust, phys := t.phys, freeCtr := t.freeCtr } ∧
     RegsKept s t (Reg.TILE_ECC_LAST r.die :: (Ev.TILE_EVT_STATUS_ecc_uncorr r.die).regs)) ∧
  (∀ (run : Nat) (ecc : Ecc) (r : Run) (d : Bytes) (s : State), s.tilesFree r = false → s.startable run 0x01 = some (r, d) →
    exec (.gemm run ecc) s = .next s) ∧
  (∀ (run : Nat) (ecc : Ecc) (r : Run) (d : Bytes) (s : State), s.engineFree r = false → s.startable run 0x20 = some (r, d) →
    exec (.argmax run ecc) s = .next s)

/-- R109, R110, R113, R114, R123: an operation writes no byte outside the output ranges that its run records; with a run-time M of 0
it completes with 0x0000, and with one above its descriptor's or with a requantisation exponent outside -512 to 511 it ends with
0x0107, and then nothing is written.
Where the spec is silent it follows the model's choices and readings of log entry 32. -/
def Obligations.TileOutputs : Prop :=
  (∀ (s : State) (die : Nat) (args : Bytes) (o : TileOp) (x : OpResult) (p : Nat),
    x ∈ [s.gemmResult die args o, s.convResult die o, s.ewResult die args o, s.stemArgmaxResult die o, s.argmaxResult die o] →
    (∀ y ∈ x.outs, p < y.1 ∨ y.1 + y.2 ≤ p) → x.state.byteAt p = s.byteAt p) ∧
  (∀ (s : State) (die : Nat) (args : Bytes) (o : TileOp) (fa fb fo : Format), formatOf o.fmtA = some fa → formatOf o.fmtB = some fb →
    formatOf o.fmtOut = some fo → o.rows args = 0 →
    s.gemmResult die args o = OpResult.stop s 0 ∧ s.ewResult die args o = OpResult.stop s 0) ∧
  (∀ (s : State) (die : Nat) (args : Bytes) (o : TileOp) (fa fb fo : Format), formatOf o.fmtA = some fa → formatOf o.fmtB = some fb →
    formatOf o.fmtOut = some fo → o.m < o.rows args →
    s.gemmResult die args o = OpResult.stop s 0x0107 ∧ s.ewResult die args o = OpResult.stop s 0x0107) ∧
  (∀ (s : State) (die i : Nat) (args : Bytes) (o : TileOp) (fa fb fo : Format), formatOf o.fmtA = some fa → formatOf o.fmtB = some fb →
    formatOf o.fmtOut = some fo → o.rows args ≤ o.m → 0 < o.rows args → o.dyn = false → o.func ≠ 9 →
    i < (if o.rqPerCh then o.n else 1) → ((s.rqEntry die o.rqAddr i).2 < -512 ∨ 511 < (s.rqEntry die o.rqAddr i).2) →
    s.gemmResult die args o = OpResult.stop s 0x0107 ∧ s.ewResult die args o = OpResult.stop s 0x0107 ∧
      s.convResult die o = OpResult.stop s 0x0107 ∧ s.stemArgmaxResult die o = OpResult.stop s 0x0107)

/-- R142, R143, R152: an entry with its committed length at or below its tentative one keeps that through an accepted append of
any layer, through the closing of a group and through a rollback; the whole group counts once its last layer is appended.

R108, R115, R143, R151 (KV_APPEND, ATTN): both record their result in the run. An append that is accepted advances its own entry
alone, as above; one whose source cannot be read appends nothing and ends with 0x0204. An attention over a stale sequence ends with its code, and then nothing is written.
Where the spec is silent it follows the model's choices and readings of log entry 34. -/
def Obligations.AppendsAndAttention : Prop :=
  (∀ (e : KvEntry) (layer : Nat) (tent : Bool) (w : KvWork), e.ok = true → layer < e.layers →
    (layer ≠ 0 → e.groupOpen = true) → (e.appended layer tent w).ok = true ∧
      (layer + 1 = e.layers → (e.appended layer tent w).tentative = e.tentative + w.count ∧
        (e.appended layer tent w).committed = (if tent then e.committed else e.committed + w.count) ∧
        (e.appended layer tent w).groupOpen = false) ∧
      (layer + 1 < e.layers → (e.appended layer tent w).tentative = e.tentative ∧ (e.appended layer tent w).groupOpen = true)) ∧
  (∀ (s : State) (q c : Nat), ((s.kvRollback q c).kvEntry q).committed = c ∧ ((s.kvRollback q c).kvEntry q).tentative = c ∧
    (∀ j, j ≠ q → (s.kvRollback q c).kvEntry j = s.kvEntry j)) ∧
  (∀ (run : Nat) (r : Run) (d : Bytes) (s : State), s.startable run 0x50 = some (r, d) →
    ∃ t, exec (.kvAppend (run, .clean)) s = .next t ∧
      (∃ r', t.run? run = some r' ∧ r'.executed = true ∧ r'.opCode = (s.kvAppendResult r d).code ∧
        r'.sat = (s.kvAppendResult r d).sat ∧ r'.satDie = 1 ∧ r'.done = r.done) ∧
      t.phys = (s.kvAppendResult r d).state.phys ∧ t.kv = (s.kvAppendResult r d).state.kv ∧
      t = { s with phys := t.phys, regs := t.regs, kv := t.kv, kvPages := t.kvPages, kvTouched := t.kvTouched, runs := t.runs,
                   power := t.power } ∧
     BlocksKept s t [0x141]) ∧
  (∀ (run : Nat) (r : Run) (d : Bytes) (s : State), s.startable run 0x50 = some (r, d) →
    ∃ t, exec (.kvAppend (run, .external)) s = .next t ∧
      (∃ r', t.run? run = some r' ∧ r'.executed = true ∧ r'.opCode = 0x0204 ∧ r'.done = r.done) ∧
      t.crust = { s.crust with reports := s.crust.reports ++ [(0x0B, 0)] } ∧
      t = { s with runs := t.runs, crust := t.crust, power := t.power }) ∧
  (∀ (s : State) (ctx layer : Nat) (inv : Option Nat) (tent : Bool) (src : Tensor) (w : KvWork), s.appendRefusal ctx layer tent w = 0 →
    (s.appendEntry ctx inv layer tent src w).2.1 = 0 ∧
    (s.appendEntry ctx inv layer tent src w).1.kvEntry w.seq = (s.kvEntry w.seq).appended layer tent w ∧
    (∀ q, q ≠ w.seq → (s.appendEntry ctx inv layer tent src w).1.kvEntry q = s.kvEntry q) ∧
    ⟨ctx, inv, w.seq⟩ ∈ (s.appendEntry ctx inv layer tent src w).1.kvTouched) ∧
  (∀ (run : Nat) (r : Run) (d : Bytes) (s : State), s.startable run 0x51 = some (r, d) →
    s.tilesFree r = true → ∃ t, exec (.attn run .clean) s = .next t ∧
      (∃ r', t.run? run = some r' ∧ r'.executed = true ∧ r'.opCode = (s.attnResult r d).code ∧ r'.outs = (s.attnResult r d).outs ∧
        r'.op = r.op ∧ r'.done = r.done) ∧
      t.phys = (s.attnResult r d).state.phys ∧ t.kv = s.kv ∧ t = { s with phys := t.phys, regs := t.regs, runs := t.runs } ∧
     BlocksKept s t [r.die * 256 + 6]) ∧
  (∀ (s : State) (r : Run) (d : Bytes) (fq fo : Format) (w : KvWork), formatOf (bits (fieldAt d 0xA 1) 0 4) = some fq →
    formatOf (bits (fieldAt d 0xA 1) 4 4) = some fo →
    (∀ a ∈ [fieldAt d 0x1C 4, fieldAt d 0x20 4], -512 ≤ (s.rqEntry r.die a 0).2 ∧ (s.rqEntry r.die a 0).2 ≤ 511) →
    s.kvList r.die (bits (fieldAt d 1 1) 0 2) (fieldAt d 4 4) (fieldAt d 8 2) = [w] →
    (4095 < w.seq ∨ (s.kvEntry w.seq).valid = false) → s.attnResult r d = OpResult.stop s 0x0302)

/-- R144 (KV_APPEND): an append that is refused writes and maps nothing and leaves the entry, and any open group of it, as it was; the
operation completes with the refusal's code, refused is counted, and the refusal is recorded in KV_REFUSE_LAST. The first clause is about
each entry of an operation's list, in the state that the entries before it have left; the second about an operation with one entry. -/
def Obligations.RefusedAppend : Prop :=
  (∀ (s : State) (ctx layer : Nat) (inv : Option Nat) (tent : Bool) (src : Tensor) (w : KvWork), s.appendRefusal ctx layer tent w ≠ 0 →
    (s.appendEntry ctx inv layer tent src w).2.1 = s.appendRefusal ctx layer tent w ∧
    (s.appendEntry ctx inv layer tent src w).1.fld Fld.KV_REFUSE_LAST_seq_id = w.seq % 2 ^ Fld.KV_REFUSE_LAST_seq_id.width ∧
    (s.appendEntry ctx inv layer tent src w).1.fld Fld.KV_REFUSE_LAST_code = s.appendRefusal ctx layer tent w ∧
    Counted s (s.appendEntry ctx inv layer tent src w).1 Ev.KV_EVT_STATUS_refused ∧
    (s.appendEntry ctx inv layer tent src w).1 = { s with regs := (s.appendEntry ctx inv layer tent src w).1.regs }) ∧
  (∀ (run : Nat) (r : Run) (d : Bytes) (f : Format) (w : KvWork) (s : State), s.startable run 0x50 = some (r, d) →
    formatOf (bits (fieldAt d 3 1) 0 4) = some f → s.kvList r.die (bits (fieldAt d 1 1) 0 2) (fieldAt d 4 4) (fieldAt d 8 2) = [w] →
    s.kvBatchOk r.ctx r.die (fieldAt d 0xC 4) (fun x => runBytes f (2 * (kvGeom (s.kvEntry x.seq)).heads * (kvGeom (s.kvEntry x.seq)).dim))
      [w] = true → s.kvListOk r.die (bits (fieldAt d 1 1) 0 2) (fieldAt d 4 4) (fieldAt d 8 2) false [w] = true →
    s.appendRefusal r.ctx (fieldAt d 2 1) (bit (fieldAt d 1 1) 2) w ≠ 0 →
    ∃ t, exec (.kvAppend (run, .clean)) s = .next t ∧
      (∃ r', t.run? run = some r' ∧ r'.executed = true ∧
        r'.opCode = s.appendRefusal r.ctx (fieldAt d 2 1) (bit (fieldAt d 1 1) 2) w ∧ r'.done = r.done) ∧
      t.fld Fld.KV_REFUSE_LAST_seq_id = w.seq % 2 ^ Fld.KV_REFUSE_LAST_seq_id.width ∧
      t.fld Fld.KV_REFUSE_LAST_code = s.appendRefusal r.ctx (fieldAt d 2 1) (bit (fieldAt d 1 1) 2) w ∧
      Counted s t Ev.KV_EVT_STATUS_refused ∧ t.phys = s.phys ∧ t.kv = s.kv ∧ t.kvPages = s.kvPages ∧
      RegsKept s t (Reg.KV_REFUSE_LAST :: Ev.KV_EVT_STATUS_refused.regs ++ Ev.KV_EVT_STATUS_pool_empty.regs) ∧
      t = { s with regs := t.regs, runs := t.runs, power := t.power })

/-! ### Handoff, speculation and sequence slots (chapters 07 and 09) -/

/-- R108, R128, R129 (HANDOFF_PUT, HANDOFF_PUT_PUBLISH, HANDOFF_TAKE): a put whose checks fail ends with their code and changes no sequence;
one that passes waits until put_sync - take_sync is below ring_slots, and then moves the append right of its sequences, writes its
record and adds 1 to put_sync. A take writes a record that passes into the lowest free batch entry and adds 1 to take_sync; with no
record it completes with 0x0000 and changes nothing. A put or take that meets an uncorrectable error ends with 0x0204, which Crust is told,
and moves no right and takes no record.
Where the spec is silent it follows the model's choices and readings of log entry 33. -/
def Obligations.Handoff : Prop :=
  (∀ (run : Nat) (r : Run) (d : Bytes) (s : State), s.startable run 0x40 = some (r, d) → r.putReady = false →
    s.putCheck r.ctx (putArgs r d) ≠ 0 →
    ∃ t, exec (.handoffPut (run, .clean)) s = .next t ∧
      (∃ r', t.run? run = some r' ∧ r'.executed = true ∧ r'.opCode = s.putCheck r.ctx (putArgs r d)) ∧ t = { s with runs := t.runs }) ∧
  (∀ (run : Nat) (r : Run) (d : Bytes) (s : State), s.startable run 0x40 = some (r, d) → r.putReady = false →
    s.putCheck r.ctx (putArgs r d) = 0 →
    ∃ t, exec (.handoffPut (run, .clean)) s = .next t ∧ t.run? run = some { r with putReady := true } ∧ t = { s with runs := t.runs }) ∧
  (∀ (run k : Nat) (r : Run) (d : Bytes) (l : Layout) (m : State) (s : State), s.startable run 0x40 = some (r, d) → s.layout = some l →
    r.putReady = true → l.syncObj (fieldAt d 0x10 2) = some k → s.sync k + 1 < 2 ^ 64 →
    s.sync k - s.syncValue (fieldAt d 0x12 2) < fieldAt d 2 2 →
    (s.moveRight (fieldAt d 1 1) (putSeqs (putArgs r d))).writeVa (.engine r.die) .engineWrite r.ctx
      (fieldAt d 8 8 + s.sync k % fieldAt d 2 2 * 64) (handoffRecord r.ctx (fieldAt d 1 1) (putArgs r d)
        (s.kvEntry (fieldAt (putArgs r d) 0 2)).committed (fieldAt d 0x18 8) (fieldAt d 0x14 4) (s.sync k)) = .ok m →
    ∃ t, exec (.handoffPutPublish run) s = .next t ∧ (∃ r', t.run? run = some r' ∧ r'.executed = true ∧ r'.opCode = 0) ∧
      t.sync k = s.sync k + 1 ∧ (∀ j, j ≠ k → t.sync j = s.sync j) ∧ t.phys = m.phys ∧
      (∀ q ∈ putSeqs (putArgs r d), (t.kvEntry q.1).holder = fieldAt d 1 1 ∧
        (t.kvEntry q.1).committed = (s.kvEntry q.1).committed ∧ (t.kvEntry q.1).tentative = (s.kvEntry q.1).tentative) ∧
      (∀ q, q ∉ (putSeqs (putArgs r d)).map (·.1) → t.kvEntry q = s.kvEntry q) ∧
     t = { m with runs := t.runs, syncs := t.syncs, kv := t.kv }) ∧
  (∀ (run i k : Nat) (r : Run) (d b : Bytes) (l : Layout) (s : State), s.startable run 0x41 = some (r, d) → s.layout = some l →
    fieldAt d 5 1 = 1 → l.syncObj (fieldAt d 0x12 2) = some k → s.sync k < s.syncValue (fieldAt d 0x10 2) → s.sync k + 1 < 2 ^ 64 →
    s.freeBatchEntry r.die (fieldAt d 0x20 4) (fieldAt d 0x24 2) = some i →
    s.readVa (.engine r.die) r.ctx (fieldAt d 8 8 + s.sync k % fieldAt d 2 2 * 64) 64 = .ok b → s.takeCheck r.ctx b = 0 →
    ∃ t, exec (.handoffTake (run, .clean)) s = .next t ∧ (∃ r', t.run? run = some r' ∧ r'.executed = true ∧ r'.opCode = 0) ∧
      t.sync k = s.sync k + 1 ∧ t.readDie r.die (fieldAt d 0x20 4 + 16 * i) 16 = adoptedEntry b ∧
      (∀ p, (p < dieLocal r.die (fieldAt d 0x20 4 + 16 * i) ∨ dieLocal r.die (fieldAt d 0x20 4 + 16 * i) + 16 ≤ p) →
        t.byteAt p = s.byteAt p) ∧ t = { s with phys := t.phys, syncs := t.syncs, runs := t.runs }) ∧
  (∀ (run i k : Nat) (r : Run) (d b : Bytes) (l : Layout) (s : State), s.startable run 0x41 = some (r, d) → s.layout = some l →
    fieldAt d 5 1 = 1 → l.syncObj (fieldAt d 0x12 2) = some k → s.sync k < s.syncValue (fieldAt d 0x10 2) → s.sync k + 1 < 2 ^ 64 →
    s.freeBatchEntry r.die (fieldAt d 0x20 4) (fieldAt d 0x24 2) = some i →
    s.readVa (.engine r.die) r.ctx (fieldAt d 8 8 + s.sync k % fieldAt d 2 2 * 64) 64 = .ok b → s.takeCheck r.ctx b ≠ 0 →
    ∃ t, exec (.handoffTake (run, .clean)) s = .next t ∧ (∃ r', t.run? run = some r' ∧ r'.executed = true ∧ r'.opCode = s.takeCheck r.ctx b) ∧
      t.sync k = s.sync k + 1 ∧ t.fld Fld.SPEC_HANDOFF_LAST_code = s.takeCheck r.ctx b ∧
      Counted s t Ev.SPEC_EVT_STATUS_handoff_err ∧ t = { s with regs := t.regs, syncs := t.syncs, runs := t.runs } ∧
     RegsKept s t (Reg.SPEC_HANDOFF_LAST :: Ev.SPEC_EVT_STATUS_handoff_err.regs)) ∧
  (∀ (run : Nat) (r : Run) (d : Bytes) (s : State), s.startable run 0x41 = some (r, d) →
    s.syncValue (fieldAt d 0x10 2) ≤ s.syncValue (fieldAt d 0x12 2) →
    ∃ t, exec (.handoffTake (run, .clean)) s = .next t ∧ (∃ r', t.run? run = some r' ∧ r'.executed = true ∧ r'.opCode = 0) ∧
      t = { s with runs := t.runs }) ∧
  (∀ (run : Nat) (r : Run) (d : Bytes) (s : State), s.startable run 0x40 = some (r, d) → r.putReady = false →
    ∃ t, exec (.handoffPut (run, .external)) s = .next t ∧ (∃ r', t.run? run = some r' ∧ r'.executed = true ∧ r'.opCode = 0x0204) ∧
      t.crust = { s.crust with reports := s.crust.reports ++ [(0x0B, 0)] } ∧ t = { s with runs := t.runs, crust := t.crust }) ∧
  (∀ (run : Nat) (r : Run) (d : Bytes) (s : State), s.startable run 0x41 = some (r, d) →
    ∃ t, exec (.handoffTake (run, .external)) s = .next t ∧ (∃ r', t.run? run = some r' ∧ r'.executed = true ∧ r'.opCode = 0x0204) ∧
      t.crust = { s.crust with reports := s.crust.reports ++ [(0x0B, 0)] } ∧ t = { s with runs := t.runs, crust := t.crust })

/-- R108, R132, R134 (SPEC_VERIFY): a command handles the next n entries of the batch, in ascending order, and the operation
completes with 0x0000 after the last one; an uncorrectable error before the next one ends it with 0x0204 and leaves the rest. The accepted count a is the length of the longest common prefix of the
drafts and the target's tokens; an entry without a draft sequence whose tentative length is L + d + 1 ends with both lengths at
L + a + 1 and t_a pending; an entry that is not active or has no pending token is left unchanged; a stale tag rolls nothing back. -/
def Obligations.Speculation : Prop :=
  (∀ (run n m : Nat) (r : Run) (d : Bytes) (s : State), s.startable run 0x42 = some (r, d) → m = min n (fieldAt d 0x24 2 - r.progress) →
    ∃ t, exec (.specVerify (run, n, .clean)) s = .next t ∧
      (r.progress + m < fieldAt d 0x24 2 → t.run? run = some { r with progress := r.progress + m }) ∧
      (fieldAt d 0x24 2 ≤ r.progress + m → ∃ r', t.run? run = some r' ∧ r'.executed = true ∧ r'.opCode = 0) ∧
      t.kv = (s.verifyEntries r d ((List.range m).map (r.progress + ·))).kv ∧
      t.phys = (s.verifyEntries r d ((List.range m).map (r.progress + ·))).phys ∧
     BlocksKept s t [0x141, 0x260] ∧ t = { s with regs := t.regs, phys := t.phys, runs := t.runs, kv := t.kv, kvPages := t.kvPages, kvTouched := t.kvTouched, tlb := t.tlb }) ∧
  (∀ (run n : Nat) (r : Run) (d : Bytes) (s : State), s.startable run 0x42 = some (r, d) →
    ∃ t, exec (.specVerify (run, n, .external)) s = .next t ∧ (∃ r', t.run? run = some r' ∧ r'.executed = true ∧ r'.opCode = 0x0204) ∧
      t.crust = { s.crust with reports := s.crust.reports ++ [(0x0B, 0)] } ∧ t = { s with runs := t.runs, crust := t.crust }) ∧
  (∀ (ys ts : List Nat), acceptedPrefix ys ts ≤ ys.length ∧ acceptedPrefix ys ts ≤ ts.length ∧
    ys.take (acceptedPrefix ys ts) = ts.take (acceptedPrefix ys ts) ∧
    (∀ y t, ys[acceptedPrefix ys ts]? = some y → ts[acceptedPrefix ys ts]? = some t → y ≠ t)) ∧
  (∀ (r : Run) (d b : Bytes) (i a : Nat) (s : State), b = s.readDie r.die (fieldAt d 0x20 4 + 16 * i) 16 → bit (fieldAt b 0xE 1) 0 = true →
    bit (fieldAt b 0xE 1) 3 = false → fieldAt b 4 2 = 0xFFFF → s.seqCurrent (fieldAt b 0 2) (fieldAt b 2 2) = true →
    (s.kvEntry (fieldAt b 0 2)).tentative = (s.kvEntry (fieldAt b 0 2)).committed + fieldAt b 0xC 1 + 1 →
    a = acceptedPrefix (s.tokens r.die (fieldAt d 0x28 4 + 32 * i) (fieldAt b 0xC 1))
      (s.tokens r.die (fieldAt d 0x2C 4 + 64 * i) (fieldAt b 0xC 1 + 1)) →
    ((s.verifyEntry r d i).kvEntry (fieldAt b 0 2)).committed = (s.kvEntry (fieldAt b 0 2)).committed + a + 1 ∧
    ((s.verifyEntry r d i).kvEntry (fieldAt b 0 2)).tentative = (s.kvEntry (fieldAt b 0 2)).committed + a + 1 ∧
    (∀ q, q ≠ fieldAt b 0 2 → (s.verifyEntry r d i).kvEntry q = s.kvEntry q) ∧
    (s.verifyEntry r d i).readDie r.die (fieldAt d 0x20 4 + 16 * i + 8) 4 =
      s.readDie r.die (fieldAt d 0x2C 4 + 64 * i + 4 * a) 4 ∧
    (s.verifyEntry r d i).readDie r.die (fieldAt d 0x20 4 + 16 * i + 0xD) 1 = leBytes 1 a) ∧
  (∀ (r : Run) (d b : Bytes) (i : Nat) (s : State), b = s.readDie r.die (fieldAt d 0x20 4 + 16 * i) 16 →
    (bit (fieldAt b 0xE 1) 0 = false ∨ bit (fieldAt b 0xE 1) 3 = true) → s.verifyEntry r d i = s) ∧
  (∀ (r : Run) (d b : Bytes) (i : Nat) (s : State), b = s.readDie r.die (fieldAt d 0x20 4 + 16 * i) 16 → bit (fieldAt b 0xE 1) 0 = true →
    bit (fieldAt b 0xE 1) 3 = false → s.seqCurrent (fieldAt b 0 2) (fieldAt b 2 2) = false →
    (s.verifyEntry r d i).kv = s.kv ∧ Counted s (s.verifyEntry r d i) Ev.SPEC_EVT_STATUS_stale ∧
    (s.verifyEntry r d i).readDie r.die (fieldAt d 0x20 4 + 16 * i + 0xE) 1 = leBytes 1 (setBits (fieldAt b 0xE 1) 0 2 2))

/-- True where a start of SEQ_CMD is taken (R168): the write reaches the engines' block, no command of the die is busy, and the engine
exists. -/
def seqReady (s : State) (who : Requester) (die v : Nat) : Bool :=
  s.served who die 0x0B false && !s.flag (Fld.SEQ_CMD_STATUS_busy die) && decide (bits v 4 2 < s.fld (Fld.SEQ_CAP_engines die))

/-- The slot that a value written to SEQ_CMD names on a die. -/
def seqKey (die v : Nat) : Nat := die * 256 + bits v 4 2 * 64 + bits v 8 6

/-- True where a chunk of a run starts on the slot x (R156, R164, R169): its engine and its tiles are free, and x is the slot it expects,
live, and not closing unless the chunk already waited for it. -/
def chunkStarts (s : State) (l : Layout) (r : Run) (d : Bytes) (key : Nat) : Bool :=
  !s.engineBusy l r (key / 64 % 4) && s.tilesFree r && (s.seqSlot key).expected r d && (s.seqSlot key).phase == .live &&
    (!(s.seqSlot key).closing || r.putReady)

/-- True where a slot has the kind and the form that a chunk's descriptor gives (R169). -/
def slotForm (x : SeqSlot) (d : Bytes) : Bool := x.kind == bits (fieldAt d 1 1) 0 2 && x.rows == fieldAt d 0xA 2 && x.width == fieldAt d 0xC 2

/-- The state in which the result of a restore's transfer is judged: what it read from flash is counted (R194, R195). -/
def restoreReads (s : State) (c : SeqCmd) (found : Found) : State :=
  let x := s.seqSlot c.key
  (s.noteActive 2).countReads x.owner c.va (max 64 (seqImage x.kind x.rows x.width).len) found

/-- R156, R164, R165, R169 (SEQ_CHUNK): a chunk of 0 steps completes without effect, one of more than its descriptor allows ends with
0x0107, one whose slot is not live under its tag ends with 0x0480 and is counted as moved, one whose slot has another form ends with
0x0483, and one whose slot restores waits; otherwise, with its engine and tiles free, the command runs its next n steps (no more than are
left), the steps are counted, and the operation is executed with its last step. An uncorrectable error between two steps ends it with
0x0204 and keeps the slot as the last step left it.

R168, R170, R171 (SEQ_BIND, SEQ_UNBIND, SEQ_SWAP_OUT, SEQ_RESTORE, SEQ_SLOT_RELEASE, SEQ_TRANSFER_COMPLETE): a bind makes an empty
slot live under the engine's next tag; an unbind or swap-out of a slot closes it and waits for its chunk, then empties it or starts its
transfer; a restore makes an empty slot restoring; a transfer that ends frees the swapped slot and reports its tag, or gives the slot
back with 0x0204 when a read was uncorrectable; a restore that fails leaves its slot empty and is counted, with its code.
Where the spec is silent it follows the model's choices and readings of log entry 35. -/
def Obligations.Sequences : Prop :=
  (∀ (run n : Nat) (r : Run) (d : Bytes) (s : State), s.startable run 0x30 = some (r, d) → s.layout.isSome = true →
    chunkSteps r d = 0 →
    ∃ t, exec (.seqChunk (run, n) .clean) s = .next t ∧ (∃ r', t.run? run = some r' ∧ r'.executed = true ∧ r'.opCode = 0) ∧
      t = { s with runs := t.runs }) ∧
  (∀ (run n : Nat) (r : Run) (d : Bytes) (s : State), s.startable run 0x30 = some (r, d) → s.layout.isSome = true →
    fieldAt d 0x10 4 < chunkSteps r d →
    ∃ t, exec (.seqChunk (run, n) .clean) s = .next t ∧ (∃ r', t.run? run = some r' ∧ r'.executed = true ∧ r'.opCode = 0x0107) ∧
      t = { s with runs := t.runs }) ∧
  (∀ (run n key : Nat) (r : Run) (d : Bytes) (l : Layout) (s : State), s.startable run 0x30 = some (r, d) → s.layout = some l →
    0 < chunkSteps r d → chunkSteps r d ≤ fieldAt d 0x10 4 → s.chunkKey r d = some key → r.progress = 0 →
    s.engineBusy l r (key / 64 % 4) = false → s.tilesFree r = true →
    ((s.seqSlot key).expected r d = false ∨ ((s.seqSlot key).closing = true ∧ r.putReady = false) ∨
      ((s.seqSlot key).phase ≠ .live ∧ (s.seqSlot key).phase ≠ .restoring)) →
    ∃ t, exec (.seqChunk (run, n) .clean) s = .next t ∧ (∃ r', t.run? run = some r' ∧ r'.executed = true ∧ r'.opCode = 0x0480) ∧
      Counted s t (Ev.SEQ_EVT_STATUS_moved r.die) ∧ t.seqSlots = s.seqSlots ∧ t = { s with runs := t.runs, regs := t.regs } ∧
     RegsKept s t (Ev.SEQ_EVT_STATUS_moved r.die).regs) ∧
  (∀ (run n m key : Nat) (r : Run) (d : Bytes) (l : Layout) (fw fh fx : Format) (s : State), s.startable run 0x30 = some (r, d) →
    s.layout = some l → 0 < chunkSteps r d → chunkSteps r d ≤ fieldAt d 0x10 4 → s.chunkKey r d = some key →
    r.progress < chunkSteps r d → (0 < r.progress ∨ (chunkStarts s l r d key = true ∧ slotForm (s.seqSlot key) d = true)) →
    formatOf (bits (fieldAt d 4 1) 0 4) = some fw → formatOf (bits (fieldAt d 4 1) 4 4) = some fh →
    formatOf (bits (fieldAt d 5 1) 0 4) = some fx → m = min n (chunkSteps r d - r.progress) →
    ∃ t, exec (.seqChunk (run, n) .clean) s = .next t ∧ t = s.runChunk l r d (s.seqSlot key) n (chunkSteps r d) ∧
      (∃ r', t.run? run = some r' ∧ r'.progress = r.progress + m ∧ r'.putReady = false ∧ r'.done = none ∧ r'.op = r.op ∧
        r'.executed = decide (r.progress + m = chunkSteps r d) ∧ (r'.executed = true → r'.opCode = r'.sat.code)) ∧
      t.reg64 (Reg.SEQ_STEPS r.die) = (s.reg64 (Reg.SEQ_STEPS r.die) + m * (s.seqSlot key).rows) % 2 ^ 64 ∧
      t.seqSlots = s.seqSlots ∧ t = { s with phys := t.phys, regs := t.regs, runs := t.runs } ∧
     BlocksKept s t [r.die * 256 + 0x0B]) ∧
  (∀ (run n key : Nat) (r : Run) (d : Bytes) (l : Layout) (s : State), s.startable run 0x30 = some (r, d) → s.layout = some l →
    0 < chunkSteps r d → chunkSteps r d ≤ fieldAt d 0x10 4 → s.chunkKey r d = some key → r.progress = 0 →
    chunkStarts s l r d key = true → slotForm (s.seqSlot key) d = false →
    ∃ t, exec (.seqChunk (run, n) .clean) s = .next t ∧ (∃ r', t.run? run = some r' ∧ r'.executed = true ∧ r'.opCode = 0x0483) ∧
      t = { s with runs := t.runs }) ∧
  (∀ (run n key : Nat) (r : Run) (d : Bytes) (l : Layout) (s : State), s.startable run 0x30 = some (r, d) → s.layout = some l →
    0 < chunkSteps r d → chunkSteps r d ≤ fieldAt d 0x10 4 → s.chunkKey r d = some key → r.progress = 0 →
    s.engineBusy l r (key / 64 % 4) = false → s.tilesFree r = true → (s.seqSlot key).expected r d = true →
    (s.seqSlot key).phase = .restoring → (s.seqSlot key).closing = false →
    exec (.seqChunk (run, n) .clean) s = .next (s.setRun { r with putReady := true })) ∧
  (∀ (run n key : Nat) (r : Run) (d : Bytes) (s : State), s.startable run 0x30 = some (r, d) → s.layout.isSome = true →
    0 < chunkSteps r d → chunkSteps r d ≤ fieldAt d 0x10 4 → s.chunkKey r d = some key → 0 < r.progress →
    ∃ t, exec (.seqChunk (run, n) .external) s = .next t ∧
      (∃ r', t.run? run = some r' ∧ r'.executed = true ∧ r'.opCode = 0x0204 ∧ r'.sat = r.sat) ∧
      t.crust = { s.crust with reports := s.crust.reports ++ [(0x0B, 0)] } ∧ t.seqSlots = s.seqSlots ∧
      t = { s with phys := t.phys, crust := t.crust, freeCtr := t.freeCtr, runs := t.runs }) ∧
  (∀ (who : Requester) (die v k : Nat) (s : State), seqReady s who die v = true → s.engineOwner (seqKey die v) = some k →
    (s.seqSlot (seqKey die v)).phase = .empty → s.inSram k die (s.reg (Reg.SEQ_CMD_SRAM die)).toNat 64 = true →
    seqHeaderOk (s.readDie die (s.reg (Reg.SEQ_CMD_SRAM die)).toNat 64) = true →
    s.inSram k die (s.reg (Reg.SEQ_CMD_SRAM die)).toNat
      (fieldAt (s.readDie die (s.reg (Reg.SEQ_CMD_SRAM die)).toNat 64) 0xC 4) = true →
    ∃ t, exec (.seqBind who die v) s = .next t ∧ (t.seqSlot (seqKey die v)).phase = .live ∧ (t.seqSlot (seqKey die v)).owner = k ∧
      (t.seqSlot (seqKey die v)).tag = s.nextTag (seqKey die v) ∧ (t.seqSlot (seqKey die v)).closing = false ∧
      t.nextTag (seqKey die v) = (if s.nextTag (seqKey die v) = 65535 then 1 else s.nextTag (seqKey die v) + 1) ∧
      (∀ j, j ≠ seqKey die v → t.seqSlot j = s.seqSlot j) ∧ t.fld (Fld.SEQ_CMD_STATUS_code die) = 0 ∧
      t = { s with regs := t.regs, phys := t.phys, seqSlots := t.seqSlots, seqTags := t.seqTags, seqCmds := t.seqCmds } ∧
     RegsKept s t [Reg.SEQ_CMD die, Reg.SEQ_CMD_STATUS die, Reg.SEQ_CMD_TAG die]) ∧
  (∀ (who : Requester) (die v : Nat) (s : State), seqReady s who die v = true →
    ∃ t, exec (.seqUnbind who die v) s = .next t ∧ t.seqSlot (seqKey die v) = { s.seqSlot (seqKey die v) with closing := true } ∧
      t.seqCmd die = some ⟨4, seqKey die v, 0, false⟩ ∧ t.fld (Fld.SEQ_CMD_STATUS_busy die) = 1 ∧
      RegsKept s t [Reg.SEQ_CMD die, Reg.SEQ_CMD_STATUS die] ∧ t = { s with regs := t.regs, seqSlots := t.seqSlots, seqCmds := t.seqCmds }) ∧
  (∀ (who : Requester) (die v : Nat) (s : State), seqReady s who die v = true → (s.seqSlot (seqKey die v)).phase = .live →
    s.walkFault (s.seqSlot (seqKey die v)).owner (s.reg64 (Reg.SEQ_CMD_VA die)) (seqImage (s.seqSlot (seqKey die v)).kind
      (s.seqSlot (seqKey die v)).rows (s.seqSlot (seqKey die v)).width).len .transferWrite = none →
    ∃ t, exec (.seqSwapOut who die v) s = .next t ∧ t.seqSlot (seqKey die v) = { s.seqSlot (seqKey die v) with closing := true } ∧
      t.seqCmd die = some ⟨2, seqKey die v, s.reg64 (Reg.SEQ_CMD_VA die), false⟩ ∧ t.fld (Fld.SEQ_CMD_STATUS_busy die) = 1 ∧
      t = { s with regs := t.regs, seqSlots := t.seqSlots, seqCmds := t.seqCmds } ∧
     RegsKept s t [Reg.SEQ_CMD die, Reg.SEQ_CMD_STATUS die]) ∧
  (∀ (who : Requester) (die v k : Nat) (h : Bytes) (s : State), seqReady s who die v = true → s.engineOwner (seqKey die v) = some k →
    (s.seqSlot (seqKey die v)).phase = .empty → s.readVa .tierManager k (s.reg64 (Reg.SEQ_CMD_VA die)) 64 = .ok h →
    s.inSram k die (s.reg (Reg.SEQ_CMD_SRAM die)).toNat 64 = true →
    ∃ t, exec (.seqRestore who die v) s = .next t ∧ (t.seqSlot (seqKey die v)).phase = .restoring ∧
      (t.seqSlot (seqKey die v)).owner = k ∧ (t.seqSlot (seqKey die v)).tag = fieldAt h 8 2 ∧
      t.seqCmd die = some ⟨3, seqKey die v, s.reg64 (Reg.SEQ_CMD_VA die), true⟩ ∧ t.fld (Fld.SEQ_CMD_STATUS_busy die) = 1 ∧
      t = { s with regs := t.regs, seqSlots := t.seqSlots, seqCmds := t.seqCmds } ∧
     RegsKept s t [Reg.SEQ_CMD die, Reg.SEQ_CMD_STATUS die]) ∧
  (∀ (who : Requester) (die v : Nat) (s : State), seqReady s who die v = true →
    (s.engineOwner (seqKey die v) = none ∨ (s.seqSlot (seqKey die v)).phase ≠ .empty) →
    ∃ t, exec (.seqRestore who die v) s = .next t ∧ t.fld (Fld.SEQ_CMD_STATUS_code die) = 0x0481 ∧
      Counted s t (Ev.SEQ_EVT_STATUS_restore_fail die) ∧ t = { s with regs := t.regs } ∧
     RegsKept s t (Reg.SEQ_CMD die :: Reg.SEQ_CMD_STATUS die :: (Ev.SEQ_EVT_STATUS_restore_fail die).regs)) ∧
  (∀ (die : Nat) (c : SeqCmd) (s : State), s.seqCmd die = some c → c.moving = false → s.chunkRuns c.key = false → c.op = 4 →
    ∃ t, exec (.seqSlotRelease die) s = .next t ∧ t.seqSlot c.key = {} ∧ t.seqCmd die = none ∧
      t.fld (Fld.SEQ_CMD_STATUS_busy die) = 0 ∧ t.fld (Fld.SEQ_CMD_STATUS_code die) = 0 ∧
      t = { s with regs := t.regs, seqSlots := t.seqSlots, seqCmds := t.seqCmds } ∧
     RegsKept s t [Reg.SEQ_CMD_STATUS die]) ∧
  (∀ (die : Nat) (c : SeqCmd) (s : State), s.seqCmd die = some c → c.moving = false → s.chunkRuns c.key = false → c.op ≠ 4 →
    ∃ t, exec (.seqSlotRelease die) s = .next t ∧ t.seqSlot c.key = { s.seqSlot c.key with phase := .swapping } ∧
      t.seqCmd die = some { c with moving := true } ∧ t = { s with seqSlots := t.seqSlots, seqCmds := t.seqCmds }) ∧
  (∀ (die : Nat) (found : Found) (c : SeqCmd) (m : State) (s : State), found.lost = false → s.seqCmd die = some c → c.moving = true →
    c.op = 2 → (s.seqSlot c.key).tag < 65536 →
    { s.noteActive 2 with tierPending := none }.writeVa .tierManager .transferWrite (s.seqSlot c.key).owner c.va (sealImage (s.readDie die (s.seqSlot c.key).base
      (seqImage (s.seqSlot c.key).kind (s.seqSlot c.key).rows (s.seqSlot c.key).width).len)) = .ok m →
    ∃ t, exec (.seqTransferComplete die found) s = .next t ∧ t.seqSlot c.key = {} ∧ t.seqCmd die = none ∧ t.phys = m.phys ∧
      t.flash = m.flash ∧ t.fld (Fld.SEQ_CMD_TAG_tag die) = (s.seqSlot c.key).tag ∧ t.fld (Fld.SEQ_CMD_STATUS_code die) = 0 ∧
     RegsKept s t [Reg.SEQ_CMD_STATUS die, Reg.SEQ_CMD_TAG die] ∧ (∀ j, j ≠ c.key → t.seqSlot j = s.seqSlot j) ∧ t = { m with regs := t.regs, seqSlots := t.seqSlots, seqCmds := t.seqCmds, tierPending := s.tierPending }) ∧
  (∀ (die : Nat) (found : Found) (c : SeqCmd) (s : State), found.lost = true → s.seqCmd die = some c → c.moving = true → c.op = 2 →
    ∃ t, exec (.seqTransferComplete die found) s = .next t ∧
      t.seqSlot c.key = { s.seqSlot c.key with phase := .live, closing := false } ∧ t.seqCmd die = none ∧ t.phys = s.phys ∧
      t.fld (Fld.SEQ_CMD_STATUS_code die) = 0x0204 ∧
     RegsKept s t [Reg.SEQ_CMD_STATUS die] ∧ (∀ j, j ≠ c.key → t.seqSlot j = s.seqSlot j) ∧
      t.crust = { s.crust with reports := s.crust.reports ++ [(0x0B, 0)] } ∧
      t = { s with regs := t.regs, seqSlots := t.seqSlots, seqCmds := t.seqCmds, power := t.power, crust := t.crust }) ∧
  (∀ (die : Nat) (found : Found) (c : SeqCmd) (m : State) (s : State), found.lost = false → s.seqCmd die = some c → c.moving = true →
    c.op = 3 → (s.chunksOn c.key).all (fun r => !r.putReady || r.executed) = true →
    (restoreReads s c found).restoreResult die c = .ok m →
    ∃ t, exec (.seqTransferComplete die found) s = .next t ∧ t.seqSlot c.key = m.seqSlot c.key ∧ (t.seqSlot c.key).phase = .live ∧
      t.seqCmd die = none ∧ t.fld (Fld.SEQ_CMD_TAG_tag die) = (m.seqSlot c.key).tag ∧ t.fld (Fld.SEQ_CMD_STATUS_code die) = 0 ∧
      t.phys = m.phys ∧ (∀ j, j ≠ c.key → t.seqSlot j = s.seqSlot j) ∧
      RegsKept s t [Reg.SEQ_CMD_STATUS die, Reg.SEQ_CMD_TAG die, Reg.FTL_CORR_CNT, Reg.FTL_CORR_CNT + 4] ∧
      t = { m with regs := t.regs, seqCmds := t.seqCmds, flash := t.flash }) ∧
  (∀ (die : Nat) (found : Found) (c : SeqCmd) (s : State), found.lost = true → s.seqCmd die = some c → c.moving = true → c.op = 3 →
    s.inFlash (s.seqSlot c.key).owner c.va = false →
    ∃ t, exec (.seqTransferComplete die found) s = .next t ∧ t.seqSlot c.key = {} ∧ t.seqCmd die = none ∧ t.phys = s.phys ∧
      Counted s t (Ev.SEQ_EVT_STATUS_restore_fail die) ∧ t.fld (Fld.SEQ_CMD_STATUS_code die) = 0x0204 ∧
      t.crust = { s.crust with reports := s.crust.reports ++ [(0x0B, 0)] } ∧
      (∀ q ∈ s.chunksOn c.key, q.putReady = true → q.executed = false → ∃ q', t.run? q.id = some q' ∧ q'.executed = true ∧ q'.opCode = 0x0480) ∧
      (∀ j, j ≠ c.key → t.seqSlot j = s.seqSlot j) ∧
      t = { s with regs := t.regs, seqSlots := t.seqSlots, seqCmds := t.seqCmds, power := t.power, runs := t.runs, crust := t.crust,
                   flash := t.flash }) ∧
  (∀ (die code : Nat) (found : Found) (c : SeqCmd) (e : Option (Nat × Nat)) (s : State), found.lost = false → s.seqCmd die = some c →
    c.moving = true → c.op = 3 → (restoreReads s c found).restoreResult die c = .error (code, e) →
    ∃ t, exec (.seqTransferComplete die found) s = .next t ∧ t.seqSlot c.key = {} ∧ t.seqCmd die = none ∧ t.phys = s.phys ∧
      Counted s t (Ev.SEQ_EVT_STATUS_restore_fail die) ∧
      t.fld (Fld.SEQ_CMD_STATUS_code die) = code % 2 ^ (Fld.SEQ_CMD_STATUS_code die).width ∧ (∀ j, j ≠ c.key → t.seqSlot j = s.seqSlot j))

/-! ### Memory tiers, translation and the flash store (chapter 10) -/

/-- True where a start of TIER_CMD is taken (R178): the write reaches the tier manager, no command is busy and no commit waits. -/
def tierReady (s : State) (who : Requester) : Bool :=
  s.served who 1 0x42 false && !s.flag Fld.TIER_CMD_STATUS_busy && !s.load.elim false (·.committing)

/-- R176 to R178, R184, R185 (TIER_ALLOC): an allocation in HBM or SRAM whose range is free, aligned and placeable adds its mapping,
zeroes the memory that it takes and no other, and reports code 0; one whose entries would not fit beside the locked ones of a die is
answered with 0x0208, and a length of 0 with 0x0207, and either maps nothing.

R178, R179, R183, R197 (TIER_FREE, TIER_SHARE, TIER_LINK_SEQ, TIER_UNLINK_SEQ, TIER_FLUSH, TIER_UNMAP_TAKE_EFFECT): a free of whole
allocations and an unlink wait for the accesses in flight and then remove exactly what they name; a share maps the same memory at the
second root; a link makes a sequence's range readable there; a flush commits the journal.
Where the spec is silent it follows the model's choices and readings of log entries 36 and 37. -/
def Obligations.TierCommands : Prop :=
  (∀ (who : Requester) (v tier : Nat) (es : List (Nat × Nat)) (m : Mapping) (s : State), tierReady s who = true →
    m.ctx = bits v 4 6 → m.page = bits v 13 2 → m.flags = bits v 15 6 → m.va = s.reg64 Reg.TIER_CMD_VA →
    m.len = s.reg64 Reg.TIER_CMD_LEN → m.tier = tier → m.extents = es → m.alloc = s.nextAlloc →
    s.holds m.ctx = true → m.page ≠ 3 → bits v 10 3 ≤ 4 → m.len ≠ 0 → m.va + m.len ≤ 2 ^ 48 → m.va % pageBytes m.page = 0 →
    m.len % pageBytes m.page = 0 → s.rangeFree m.ctx m.va m.len = true → allocFlagsBad m.flags m.page = false →
    s.placeAlloc m.ctx m.len (s.fld Fld.TIER_CMD_AUX_value) (bits v 10 3) m.page m.flags = .ok (tier, es) → tier ≠ 2 →
    s.tablesFit (s.maps ++ [m]) s.seqLinks = true → (s.locks m.ctx && s.lockFull m.ctx (m.len / pageBytes m.page)) = false →
    ∃ t, exec (.tierAlloc who v) s = .next t ∧ t.maps = s.maps ++ [m] ∧ t.fld Fld.TIER_CMD_STATUS_code = 0 ∧
      (∀ e ∈ es, ∀ a, e.1 ≤ a → a < e.1 + e.2 → t.byteAt a = 0) ∧
      (∀ a, (∀ e ∈ es, a < e.1 ∨ e.1 + e.2 ≤ a) → t.byteAt a = s.byteAt a) ∧
      RegsKept s t [Reg.TIER_CMD, Reg.TIER_CMD_STATUS] ∧
      (s.locks m.ctx = false → t.tlb = s.tlb ∧ t.freeCtr = s.freeCtr) ∧
      t = { s with regs := t.regs, phys := t.phys, maps := t.maps, nextAlloc := s.nextAlloc + 1, tlb := t.tlb, freeCtr := t.freeCtr }) ∧
  (∀ (who : Requester) (v tier : Nat) (es : List (Nat × Nat)) (m : Mapping) (s : State), tierReady s who = true →
    m.ctx = bits v 4 6 → m.page = bits v 13 2 → m.flags = bits v 15 6 → m.va = s.reg64 Reg.TIER_CMD_VA →
    m.len = s.reg64 Reg.TIER_CMD_LEN → m.tier = tier → m.extents = es → m.alloc = s.nextAlloc →
    s.holds m.ctx = true → m.page ≠ 3 → bits v 10 3 ≤ 4 → m.len ≠ 0 → m.va + m.len ≤ 2 ^ 48 → m.va % pageBytes m.page = 0 →
    m.len % pageBytes m.page = 0 → s.rangeFree m.ctx m.va m.len = true → allocFlagsBad m.flags m.page = false →
    s.placeAlloc m.ctx m.len (s.fld Fld.TIER_CMD_AUX_value) (bits v 10 3) m.page m.flags = .ok (tier, es) →
    s.tablesFit (s.maps ++ [m]) s.seqLinks = true → (s.locks m.ctx && s.lockFull m.ctx (m.len / pageBytes m.page)) = true →
    ∃ t, exec (.tierAlloc who v) s = .next t ∧ t.fld Fld.TIER_CMD_STATUS_code = 0x0208 ∧ t = { s with regs := t.regs }) ∧
  (∀ (who : Requester) (v : Nat) (s : State), tierReady s who = true → s.reg64 Reg.TIER_CMD_LEN = 0 →
    ∃ t, exec (.tierAlloc who v) s = .next t ∧ t.fld Fld.TIER_CMD_STATUS_code = 0x0207 ∧
      RegsKept s t [Reg.TIER_CMD, Reg.TIER_CMD_STATUS] ∧ t = { s with regs := t.regs }) ∧
  (∀ (who : Requester) (v : Nat) (s : State), s.served who 1 0x42 false = true → s.flag Fld.TIER_CMD_STATUS_busy = true →
    ∃ t, exec (.tierAlloc who v) s = .next t ∧ Counted s t Ev.TIER_EVT_STATUS_cmd_reject ∧ t = { s with regs := t.regs } ∧
     RegsKept s t (Reg.TIER_CMD :: Ev.TIER_EVT_STATUS_cmd_reject.regs)) ∧
  (∀ (who : Requester) (v : Nat) (s : State), tierReady s who = true → s.holds (bits v 4 6) = true →
    (s.wholeAllocs (bits v 4 6) (s.reg64 Reg.TIER_CMD_VA) (s.reg64 Reg.TIER_CMD_LEN)).isSome = true →
    ∃ t, exec (.tierFree who v) s = .next t ∧
      t.tierPending = some ⟨2, bits v 4 6, s.reg64 Reg.TIER_CMD_VA, s.reg64 Reg.TIER_CMD_LEN, 0⟩ ∧
      t.fld Fld.TIER_CMD_STATUS_busy = 1 ∧ t = { s with regs := t.regs, tierPending := t.tierPending } ∧
     RegsKept s t [Reg.TIER_CMD, Reg.TIER_CMD_STATUS]) ∧
  (∀ (who : Requester) (v k2 va va2 len : Nat) (ms : List Mapping) (s : State), tierReady s who = true → s.holds (bits v 4 6) = true →
    k2 = bits (s.fld Fld.TIER_CMD_AUX_value) 0 6 → va = s.reg64 Reg.TIER_CMD_VA → va2 = s.reg64 Reg.TIER_CMD_VA2 →
    len = s.reg64 Reg.TIER_CMD_LEN → s.holds k2 = true → s.wholeAllocs (bits v 4 6) va len = some ms → va2 + len ≤ 2 ^ 48 →
    (∀ m ∈ ms, (va2 + (m.va - va)) % pageBytes m.page = 0) → s.rangeFree k2 va2 len = true →
    s.tablesFit (s.maps ++ ms.map (fun m => { m with ctx := k2, va := va2 + (m.va - va) })) s.seqLinks = true →
    (s.locks k2 && s.lockFull k2 ((ms.map (fun m => m.len / pageBytes m.page)).sum)) = false →
    ∃ t, exec (.tierShare who v) s = .next t ∧ t.maps = s.maps ++ ms.map (fun m => { m with ctx := k2, va := va2 + (m.va - va) }) ∧
      t.fld Fld.TIER_CMD_STATUS_code = 0 ∧ (s.locks k2 = false → t.tlb = s.tlb ∧ t.freeCtr = s.freeCtr) ∧
      t = { s with regs := t.regs, maps := t.maps, tlb := t.tlb, freeCtr := t.freeCtr } ∧
     RegsKept s t [Reg.TIER_CMD, Reg.TIER_CMD_STATUS]) ∧
  (∀ (who : Requester) (v q : Nat) (s : State), tierReady s who = true → s.holds (bits v 4 6) = true →
    q = bits (s.fld Fld.TIER_CMD_AUX_value) 0 12 → (s.kvEntry q).valid = true →
    s.rangeFree (bits v 4 6) ((s.kvEntry q).base * 0x100000000) 0x100000000 = true →
    s.tablesFit s.maps (s.seqLinks ++ [(bits v 4 6, q)]) = true →
    ∃ t, exec (.tierLinkSeq who v) s = .next t ∧ t.seqLinks = s.seqLinks ++ [(bits v 4 6, q)] ∧
      t.fld Fld.TIER_CMD_STATUS_code = 0 ∧ t = { s with regs := t.regs, seqLinks := t.seqLinks } ∧
     RegsKept s t [Reg.TIER_CMD, Reg.TIER_CMD_STATUS]) ∧
  (∀ (who : Requester) (v q : Nat) (s : State), tierReady s who = true → s.holds (bits v 4 6) = true →
    q = bits (s.fld Fld.TIER_CMD_AUX_value) 0 12 → (bits v 4 6, q) ∈ s.seqLinks → (s.kvEntry q).owner ≠ bits v 4 6 →
    ∃ t, exec (.tierUnlinkSeq who v) s = .next t ∧ t.tierPending = some ⟨5, bits v 4 6, 0, 0, q⟩ ∧
      t.fld Fld.TIER_CMD_STATUS_busy = 1 ∧ t = { s with regs := t.regs, tierPending := t.tierPending } ∧
     RegsKept s t [Reg.TIER_CMD, Reg.TIER_CMD_STATUS]) ∧
  (∀ (who : Requester) (v : Nat) (s : State), tierReady s who = true →
    ∃ t, exec (.tierFlush who v) s = .next t ∧ t.fld Fld.TIER_CMD_STATUS_code = 0 ∧ t.flash.journal = [] ∧
      t.flash.bytes = s.flash.bytes ∧ t.reg64 Reg.FTL_UNITS_WRITTEN = (s.reg64 Reg.FTL_UNITS_WRITTEN + s.flash.journal.length) % 2 ^ 64 ∧
      t = { s with regs := t.regs, flash := t.flash, power := t.power } ∧
     RegsKept s t [Reg.TIER_CMD, Reg.TIER_CMD_STATUS, Reg.FTL_UNITS_WRITTEN, Reg.FTL_UNITS_WRITTEN + 4]) ∧
  (∀ (p : TierPending) (s : State), s.tierPending = some p → p.op = 2 → s.transferRanges = [] →
    ∃ t, exec .tierUnmapTakeEffect s = .next t ∧ t.tierPending = none ∧ t.fld Fld.TIER_CMD_STATUS_busy = 0 ∧
      t.fld Fld.TIER_CMD_STATUS_code = 0 ∧ (∀ m, m ∈ t.maps ↔ m ∈ s.maps ∧ ¬(m.ctx = p.ctx ∧ p.va ≤ m.va ∧ m.va < p.va + p.len)) ∧
      (∀ (die : Nat) (e : TlbEntry), e ∈ t.tlbOf die → ¬(e.ctx = p.ctx ∧ e.va < p.va + p.len ∧ p.va < e.va + e.len)) ∧
      (∀ (die : Nat) (e : TlbEntry), e ∈ s.tlbOf die → ¬(e.ctx = p.ctx ∧ e.va < p.va + p.len ∧ p.va < e.va + e.len) → e ∈ t.tlbOf die) ∧
      t = { s with regs := t.regs, maps := t.maps, tierPending := none, tlb := t.tlb } ∧
     RegsKept s t [Reg.TIER_CMD_STATUS]) ∧
  (∀ (p : TierPending) (s : State), s.tierPending = some p → p.op = 5 → s.transferRanges = [] →
    ∃ t, exec .tierUnmapTakeEffect s = .next t ∧ t.tierPending = none ∧ t.fld Fld.TIER_CMD_STATUS_busy = 0 ∧
      (∀ x, x ∈ t.seqLinks ↔ x ∈ s.seqLinks ∧ x ≠ (p.ctx, p.aux)) ∧
      (∀ (die : Nat) (e : TlbEntry), e ∈ t.tlbOf die → ¬(e.ctx = p.ctx ∧ e.va / 0x100000000 = (s.kvEntry p.aux).base)) ∧
      t = { s with regs := t.regs, seqLinks := t.seqLinks, tierPending := none, tlb := t.tlb } ∧
     RegsKept s t [Reg.TIER_CMD_STATUS])

/-- True where no transfer that waits for one of its invocation's eight runs through a range that a command is about to unmap (R179). -/
def waitersClear (s : State) : Prop :=
  ∀ x ∈ s.runs, ∀ q ∈ x.prefetches, q.2 = .issued → s.pendingRange (x.recs.getD q.1 []) = none

/-- R189 to R193 (PREFETCH_ISSUE, PREFETCH_COMPLETE, PREFETCH_DEADLINE, PREFETCH_WAIT_TIMEOUT): the next waiting record starts at its
time, or waits for one of its invocation's eight transfers to finish; a transfer that ends moves its data, and one that waited for it
starts; a late layer whose path is SKIP is passed over with the path counted and an all-zero output, one whose path is WAIT waits from
the deadline, and wait_max_ns later its programme ends with 0x0402.
Where the spec is silent it follows the model's choices and readings of log entry 38. -/
def Obligations.Prefetches : Prop :=
  (∀ (run : Nat) (r : Run) (l : Layout) (p : Nat × PrefetchPhase) (s : State), s.run? run = some r → s.layout = some l →
    r.prefetches.find? (fun x => x.2 == .waiting) = some p → r.done = none → s.blkOpen 1 0x42 = true →
    r.start + l.plannedOffset r.prog (fieldAt (r.recs.getD p.1 []) 2 2) ≤ s.now + fieldAt (r.recs.getD p.1 []) 0x1C 4 →
    (∀ x ∈ recRanges (r.recs.getD p.1 []), s.pendingIn x.1 x.2.1 x.2.2 = false) →
    ∃ t, exec (.prefetchIssue run) s = .next t ∧ t.run? run = some (r.setPrefetch p.1
      (if transfersOf (s.invRuns r.ctx r.id (s.runInv r)) < 8 then .inFlight else .issued)) ∧ t = { s with runs := t.runs }) ∧
  (∀ (run i : Nat) (found : Found) (r : Run) (m : State) (s : State), found.lost = false → s.run? run = some r →
    (i, PrefetchPhase.inFlight) ∈ r.prefetches → waitersClear s →
    ((s.noteActive 2).countReads r.ctx (fieldAt (r.recs.getD i []) 8 8) (fieldAt (r.recs.getD i []) 0x18 4) found).transfer r.ctx
      (fieldAt (r.recs.getD i []) 8 8) (fieldAt (r.recs.getD i []) 0x10 8) (fieldAt (r.recs.getD i []) 0x18 4) = .ok m →
    ∃ t, exec (.prefetchComplete run i found) s = .next t ∧ RegsKept s t [Reg.FTL_CORR_CNT, Reg.FTL_CORR_CNT + 4] ∧
      (∃ r', t.run? run = some r' ∧ (i, PrefetchPhase.done) ∈ r'.prefetches) ∧
      ((∀ x ∈ s.runs, ∀ q ∈ x.prefetches, q.2 ≠ .issued) → t.run? run = some (r.setPrefetch i .done)) ∧
      (∀ q, s.invRuns r.ctx run (s.runInv r) = [r] → transfersOf [r] ≤ 8 → r.prefetches.find? (fun x => x.2 == .issued) = some q →
        q.1 ≠ i → ∃ r', t.run? run = some r' ∧ (q.1, PrefetchPhase.inFlight) ∈ r'.prefetches) ∧
      t = { m with runs := t.runs }) ∧
  (∀ (run : Nat) (r : Run) (d : Bytes) (l : Layout) (p : Nat × PrefetchPhase) (ps : List (Nat × PrefetchPhase)) (f : Format) (s : State),
    s.run? run = some r → s.layout = some l → s.currentOp r = some d → s.couldStart r d = true → r.executed = false → r.done = none →
    r.substitute = none → r.waitEnd = none → r.lateRecords = p :: ps → waitersClear s →
    p.2 ≠ .failed → fieldAt (s.pathRec r.ctx (fieldAt (r.recs.getD p.1 []) 6 2)) 1 1 = 0 → r.op + 1 < (l.progOps r.prog).length →
    fieldAt d 0 1 = 1 → formatOf (tileOpOf d).fmtOut = some f →
    ∃ t, exec (.prefetchDeadline run) s = .next t ∧
      (∃ r', t.run? run = some r' ∧ r'.op = r.op + 1 ∧ r'.codes = r.codes ++ [0] ∧ r'.executed = false ∧ r'.done = none ∧
        (∀ x ∈ r'.prefetches, x.1 ∈ r.lateRecords.map (·.1) → x.2 ≠ .inFlight ∧ x.2 ≠ .waiting ∧ x.2 ≠ .issued)) ∧
      Counted s t Ev.TIER_EVT_STATUS_miss ∧ Counted s t Ev.TIER_EVT_STATUS_path_skip ∧ t.fld Fld.TIER_PATH_LAST_kind = 0 ∧
      (∀ a, dieLocal r.die (tileOpOf d).outAddr ≤ a →
        a < dieLocal r.die (tileOpOf d).outAddr +
          (⟨r.die, (tileOpOf d).outAddr, (tileOpOf d).soAddr, f, (tileOpOf d).granO, (tileOpOf d).n, 0⟩ : Tensor).size
            ((tileOpOf d).rows r.args) → t.byteAt a = 0) ∧
     BlocksKept s t [0x142]) ∧
  (∀ (run : Nat) (r : Run) (d : Bytes) (p : Nat × PrefetchPhase) (ps : List (Nat × PrefetchPhase)) (s : State), s.run? run = some r →
    s.currentOp r = some d → s.couldStart r d = true → r.executed = false → r.done = none → r.substitute = none → r.waitEnd = none →
    r.lateRecords = p :: ps → p.2 ≠ .failed → fieldAt (s.pathRec r.ctx (fieldAt (r.recs.getD p.1 []) 6 2)) 1 1 = 2 →
    ∃ t, exec (.prefetchDeadline run) s = .next t ∧ 
      t.run? run = some { r with waitEnd := some (s.monoNs + fieldAt (s.pathRec r.ctx (fieldAt (r.recs.getD p.1 []) 6 2)) 0x14 4) } ∧
      Counted s t Ev.TIER_EVT_STATUS_miss ∧ Counted s t Ev.TIER_EVT_STATUS_path_wait ∧ t.fld Fld.TIER_PATH_LAST_kind = 2 ∧
      t = { s with regs := t.regs, runs := t.runs } ∧
     RegsKept s t ([Reg.TIER_PATH_LAST, Reg.TIER_PATH_PROG] ++ Ev.TIER_EVT_STATUS_miss.regs ++ Ev.TIER_EVT_STATUS_path_wait.regs)) ∧
  (∀ (run n at' : Nat) (r : Run) (s : State), s.run? run = some r → r.origin = .invocation n → r.done = none →
    r.waitEnd = some at' → r.lateRecords ≠ [] → at' ≤ s.monoNs → waitersClear s →
    ∃ t, exec (.prefetchWaitTimeout run) s = .next t ∧
      (∃ r', t.run? run = some r' ∧ r'.done = some 0x0402 ∧ (∀ x ∈ r'.prefetches, x.2 ≠ .inFlight ∧ x.2 ≠ .waiting ∧ x.2 ≠ .issued)) ∧
     BlocksKept s t [0x142])

/-- R184, R186, R188 (TLB_WALK, MEMORY_SCRUB): an access that its die's translation buffer serves changes nothing; one that misses there
walks the tables, and the entry the walk finds joins the buffer of that die; one that finds none faults with 0x0201, counted on its die
with the context and address. A scrub of a word of T2 changes nothing, except that an uncorrectable word is reported to Crust as event
0x0B; one of a word of Crust's own SRAM likewise as event 0x14 (R343, R346); a scrub of an address that does not exist faults.
Where the spec is silent it follows the model's choices and readings of log entries 40 and 76. -/
def Obligations.WalksAndScrubs : Prop :=
  (∀ (die k va p : Nat) (write : Bool) (s : State),
    s.translate (.engine die) (if write then .engineWrite else .read) k va = .ok (.phys p) → s.tlbHit die k va = true →
    exec (.tlbWalk die k va write) s = .next s) ∧
  (∀ (die k va p : Nat) (write : Bool) (e : TlbEntry) (s : State),
    s.translate (.engine die) (if write then .engineWrite else .read) k va = .ok (.phys p) → s.tlbHit die k va = false →
    s.walkEntry k va = some e → (s.tlbOf die).length + s.lockedOn die < 4096 →
    ∃ t, exec (.tlbWalk die k va write) s = .next t ∧ t.tlbOf die = s.tlbOf die ++ [e] ∧ t.tlbHit die k va = true ∧
      (∀ d, d ≠ die → t.tlbOf d = s.tlbOf d) ∧ t = { s with tlb := t.tlb }) ∧
  (∀ (die k va : Nat) (write : Bool) (s : State), k < 64 → va < 2 ^ 48 →
    s.translate (.engine die) (if write then .engineWrite else .read) k va = .error 0x0201 →
    ∃ t, exec (.tlbWalk die k va write) s = .next t ∧ Counted s t (Ev.XLT_EVT_STATUS_unmapped die) ∧
      t.fld (Fld.XLT_FAULT_LAST_ctx_id die) = k ∧ t.fld (Fld.XLT_FAULT_LAST_code die) = 0x0201 ∧ t.fld (Fld.XLT_FAULT_VA_va die) = va ∧
      t = { s.walked die k va with regs := t.regs } ∧
     RegsKept s t ([Reg.XLT_FAULT_LAST die, Reg.XLT_FAULT_VA die, Reg.XLT_FAULT_VA die + 4] ++ (Ev.XLT_EVT_STATUS_unmapped
       die).regs)) ∧
  (∀ (addr : Nat) (e : Ecc) (s : State), physExists addr = true → (addr < 0x2000000000 ∨ 0x3000000000 ≤ addr) →
    (e = .clean ∨ ∃ tile line, e = .corrected tile line) → exec (.memoryScrub (some addr) e) s = .next s) ∧
  (∀ (addr : Nat) (e : Ecc) (s : State), physExists addr = true → (addr < 0x2000000000 ∨ 0x3000000000 ≤ addr) →
    ((∃ tile line, e = .uncorrectable tile line) ∨ e = .external) →
    ∃ t, exec (.memoryScrub (some addr) e) s = .next t ∧
      t = { s with crust := { s.crust with reports := s.crust.reports ++ [(0x0B, 0)] } }) ∧
  (∀ (e : Ecc) (s : State), ((∃ tile line, e = .uncorrectable tile line) ∨ e = .external) →
    ∃ t, exec (.memoryScrub none e) s = .next t ∧ t = { s with crust := { s.crust with reports := s.crust.reports ++ [(0x14, 0)] } }) ∧
  (∀ (addr : Nat) (e : Ecc) (s : State), physExists addr = false → exec (.memoryScrub (some addr) e) s = .fault .noSuchMemory)

/-- R194, R195, R197, R198 (FLASH_READ, FLASH_WRITE, JOURNAL_COMMIT): a read of a codeword that needs no help answers 0 and counts one
read of the block that holds it; an uncorrectable one answers 0x0401, is counted, and leaves that codeword unreadable until it is next
written; OFFLINE answers 0x0403 and touches nothing. A write in READ_WRITE stores its bytes and no other, but for what an unreadable
codeword that it takes up held; the modes OFFLINE and READ_ONLY answer 0x0403 and 0x0405. A commit empties the journal buffer and changes
no byte. A codeword or byte past the end of the store faults.

R195, R196, R198 (FLASH_RELOCATION, WEAR_LEVELLING, BLOCK_RETIRE): each moves the valid units of one block to a free block, counts
an erase of the old block and changes no byte of the store; a relocation leaves the queue and is counted; a retired block is never free
again, and below 2 % of spares a store in READ_WRITE becomes READ_ONLY with reason 2.
Where the spec is silent it follows the model's choices and readings of log entries 39 and 40. -/
def Obligations.FlashStore : Prop :=
  (∀ (word b : Nat) (s : State), word / 16 < 33554432 → s.blkOpen 1 0x43 = true → s.fld Fld.FTL_STATUS_mode ≠ 0 →
    word ∉ s.flash.bad → s.flash.map.find? (fun p => p.1 == word / 16) = some (word / 16, b) →
    ∃ t, exec (.flashRead word (.hard false)) s = .next t ∧ t.answer = leBytes 2 0 ∧
      Sparse.get (fun _ => 0) t.flash.reads b = Sparse.get (fun _ => 0) s.flash.reads b + 1 ∧
      (∀ c, c ≠ b → Sparse.get (fun _ => 0) t.flash.reads c = Sparse.get (fun _ => 0) s.flash.reads c) ∧
      (max (s.fld Fld.FTL_RD_THRESH_reads) 10000 ≤ Sparse.get (fun _ => 0) t.flash.reads b → b ∈ t.flash.relocate) ∧
      t.flash.bytes = s.flash.bytes ∧ t.flash.bad = s.flash.bad ∧ t.regs = s.regs ∧
      t = { s with flash := t.flash, answer := t.answer, power := t.power }) ∧
  (∀ (word : Nat) (s : State), word / 16 < 33554432 → s.blkOpen 1 0x43 = true → s.fld Fld.FTL_STATUS_mode ≠ 0 →
    word ∉ s.flash.bad → s.flash.map.find? (fun p => p.1 == word / 16) = none →
    ∃ t, exec (.flashRead word (.hard false)) s = .next t ∧ t = { s with answer := leBytes 2 0, power := t.power }) ∧
  (∀ (word : Nat) (d : FlashDecode) (s : State), word / 16 < 33554432 → s.blkOpen 1 0x43 = true → s.fld Fld.FTL_STATUS_mode ≠ 0 →
    (d = .uncorrectable ∨ word ∈ s.flash.bad) →
    ∃ t, exec (.flashRead word d) s = .next t ∧ t.answer = leBytes 2 0x0401 ∧
      (∀ c, c ∈ t.flash.bad ↔ c = word ∨ c ∈ s.flash.bad) ∧
      t.flash.bytes = s.flash.bytes ∧ Counted s t Ev.FTL_EVT_STATUS_uncorr ∧
     RegsKept s t Ev.FTL_EVT_STATUS_uncorr.regs ∧ t = { s with answer := t.answer, regs := t.regs, flash := t.flash, power := t.power }) ∧
  (∀ (word : Nat) (d : FlashDecode) (s : State), word / 16 < 33554432 → s.blkOpen 1 0x43 = true → s.fld Fld.FTL_STATUS_mode = 0 →
    ∃ t, exec (.flashRead word d) s = .next t ∧ t = { s with answer := leBytes 2 0x0403 }) ∧
  (∀ (addr : Nat) (data : Bytes) (s : State), addr + data.length ≤ 33554432 * 65536 → s.blkOpen 1 0x43 = true →
    s.fld Fld.FTL_STATUS_mode = 2 →
    ∃ t, exec (.flashWrite addr data) s = .next t ∧ t.answer = leBytes 2 0 ∧
      (∀ i, i < data.length → Sparse.get (fun _ => 0) t.flash.bytes (addr + i) = data.getD i 0) ∧
      (∀ a, (a < addr ∨ addr + data.length ≤ a) → a / 4096 ∉ s.flash.bad →
        Sparse.get (fun _ => 0) t.flash.bytes a = Sparse.get (fun _ => 0) s.flash.bytes a) ∧
      (∀ c ∈ t.flash.bad, c ∈ s.flash.bad ∧ ∀ i, i < data.length → c ≠ (addr + i) / 4096) ∧
      t.flash.journalBytes = s.flash.journalBytes + data.length ∧ t.regs = s.regs ∧
      t = { s with flash := t.flash, answer := t.answer, power := t.power, freeCtr := t.freeCtr }) ∧
  (∀ (addr : Nat) (data : Bytes) (s : State), addr + data.length ≤ 33554432 * 65536 → s.blkOpen 1 0x43 = true →
    (s.fld Fld.FTL_STATUS_mode = 0 ∨ s.fld Fld.FTL_STATUS_mode = 1) →
    ∃ t, exec (.flashWrite addr data) s = .next t ∧
      t = { s with answer := leBytes 2 (if s.fld Fld.FTL_STATUS_mode = 0 then 0x0403 else 0x0405) }) ∧
  (∀ s : State, s.blkOpen 1 0x43 = true → s.fld Fld.FTL_STATUS_mode ≠ 0 →
    (s.flash.lastCommit + 4000000 ≤ s.now ∨ 0x4000000 ≤ s.flash.journalBytes) →
    ∃ t, exec .journalCommit s = .next t ∧ t.flash.journal = [] ∧ t.flash.journalBytes = 0 ∧ t.flash.lastCommit = s.now ∧
      t.flash.bytes = s.flash.bytes ∧ t.flash.bad = s.flash.bad ∧
      t.reg64 Reg.FTL_UNITS_WRITTEN = (s.reg64 Reg.FTL_UNITS_WRITTEN + s.flash.journal.length) % 2 ^ 64 ∧
      t = { s with regs := t.regs, flash := t.flash, power := t.power } ∧
     RegsKept s t [Reg.FTL_UNITS_WRITTEN, Reg.FTL_UNITS_WRITTEN + 4]) ∧
  (∀ (word : Nat) (d : FlashDecode) (s : State), 33554432 * 16 ≤ word → exec (.flashRead word d) s = .fault .noSuchMemory) ∧
  (∀ (addr : Nat) (data : Bytes) (s : State), 33554432 * 65536 < addr + data.length →
    exec (.flashWrite addr data) s = .fault .noSuchMemory) ∧
  (∀ (block fresh : Nat) (s : State), s.blkOpen 1 0x43 = true → block ∈ s.flash.relocate → s.flash.isFree fresh = true → block ≠ fresh →
    s.fld Fld.FTL_STATUS_mode = 2 →
    ∃ t, exec (.flashRelocation block fresh) s = .next t ∧ block ∉ t.flash.relocate ∧ t.flash.isFree block = (!s.flash.retired.contains block && !s.flash.factoryBad.contains block) ∧
      (∀ u, (u, block) ∈ s.flash.map → (u, fresh) ∈ t.flash.map) ∧
      Sparse.get (fun _ => 0) t.flash.erases block = Sparse.get (fun _ => 0) s.flash.erases block + 1 ∧
      t.flash.bytes = s.flash.bytes ∧ Counted s t Ev.FTL_EVT_STATUS_relocate ∧
      t = { s with regs := t.regs, flash := t.flash, power := t.power } ∧
     RegsKept s t Ev.FTL_EVT_STATUS_relocate.regs) ∧
  (∀ (block fresh : Nat) (s : State), s.blkOpen 1 0x43 = true → 256 < s.flash.spread → s.flash.isFree fresh = true → block ≠ fresh →
    s.flash.map.any (fun p => p.2 == block) = true →
    (∀ p ∈ s.flash.map, Sparse.get (fun _ => 0) s.flash.erases block ≤ Sparse.get (fun _ => 0) s.flash.erases p.2) →
    s.fld Fld.FTL_STATUS_mode = 2 →
    ∃ t, exec (.wearLevelling block fresh) s = .next t ∧ (∀ u, (u, block) ∈ s.flash.map → (u, fresh) ∈ t.flash.map) ∧
      Sparse.get (fun _ => 0) t.flash.erases block = Sparse.get (fun _ => 0) s.flash.erases block + 1 ∧
      t.flash.bytes = s.flash.bytes ∧ t = { s with flash := t.flash, power := t.power }) ∧
  (∀ (block fresh : Nat) (s : State), s.blkOpen 1 0x43 = true → block ∉ s.flash.retired → s.flash.isFree fresh = true → block ≠ fresh →
    s.fld Fld.FTL_STATUS_mode = 2 →
    ∃ t, exec (.blockRetire block fresh) s = .next t ∧ t.flash.isFree block = false ∧ t.flash.bytes = s.flash.bytes ∧
      (∀ u, (u, block) ∈ s.flash.map → (u, fresh) ∈ t.flash.map) ∧ (∀ u, (u, block) ∉ t.flash.map) ∧
      Sparse.get (fun _ => 0) t.flash.erases block = Sparse.get (fun _ => 0) s.flash.erases block + 1 ∧
      t.flash.retired = s.flash.retired ++ [block] ∧ Counted s t Ev.FTL_EVT_STATUS_retire ∧
      t.fld Fld.FTL_STATUS_mode = (if t.spareBlocks * 50 < Config.flashBlocks then 1 else 2) ∧
      (t.spareBlocks * 50 < Config.flashBlocks → t.fld Fld.FTL_STATUS_ro_reason = 2 ∧ Counted s t Ev.FTL_EVT_STATUS_remount) ∧
      t = { s with regs := t.regs, flash := t.flash, power := t.power } ∧
     RegsKept s t (Reg.FTL_STATUS :: Ev.FTL_EVT_STATUS_retire.regs ++ Ev.FTL_EVT_STATUS_remount.regs))

/-! ### The layout loader (chapter 03) -/

/-- True where a start of LAY_CTRL is taken (R63, R68, R91): the write reaches the loader, the device is ready, no load is in progress and
no proof run is. -/
def layReady (s : State) (who : Requester) : Bool :=
  s.served who 1 0x46 false && s.load.isNone && s.hostReady && !s.proofRunning

/-- The offset of the image that LAY_IMG_ADDR names, and its bytes. -/
def imageOff (s : State) : Nat := s.reg64 Reg.LAY_IMG_ADDR / 64 * 64

/-- True where an image passes steps 2 to 6 of a load under an op (R64): its header, its copy and its sections. -/
def imagePasses (s : State) (op : Nat) : Bool :=
  (s.imageDie0 (imageOff s) 256).isNone &&
  (firstFinding (headerFindings (s.imageBytes (imageOff s) 256) op (s.fld Fld.LAY_IMG_LEN_len))).isNone &&
    (s.imageDie0 (imageOff s) (s.fld Fld.LAY_IMG_LEN_len)).isNone &&
    (s.imageFailure (s.imageBytes (imageOff s) (s.fld Fld.LAY_IMG_LEN_len))).isNone

/-- R63, R64, R68 (LAYOUT_FULL_LOAD, LAYOUT_PARTIAL_LOAD, LAYOUT_VALIDATE): an image that passes is LOADING and waits for its commit, the
active layout unchanged; a validation of it ends with code 0 and loads nothing; an image in memory of die 0 ends the load with 0x0203,
unread, and one whose header fails with the code of its first finding, counted as fail; a start while a load is in progress is ignored with cmd_reject.
Where the spec is silent it follows the model's choices and readings of log entry 20. -/
def Obligations.LayoutLoads : Prop :=
  (∀ (who : Requester) (v : Nat) (s : State), layReady s who = true → imagePasses s 0 = true →
    ∃ t, exec (.layoutFullLoad who v) s = .next t ∧
      t.load = some ⟨0, s.imageBytes (imageOff s) (s.fld Fld.LAY_IMG_LEN_len), false⟩ ∧ t.fld Fld.LAY_STATUS_state = 2 ∧
      t.flag Fld.LAY_STATUS_copied = true ∧ t = { s with regs := t.regs, msix := t.msix, msixPending := t.msixPending, load := t.load } ∧
     BlocksKept s t [0x145, 0x146]) ∧
  (∀ (who : Requester) (v : Nat) (s : State), layReady s who = true → imagePasses s 1 = true →
    ∃ t, exec (.layoutPartialLoad who v) s = .next t ∧
      t.load = some ⟨1, s.imageBytes (imageOff s) (s.fld Fld.LAY_IMG_LEN_len), false⟩ ∧ t.fld Fld.LAY_STATUS_state = 2 ∧
      t.flag Fld.LAY_STATUS_copied = true ∧ t = { s with regs := t.regs, msix := t.msix, msixPending := t.msixPending, load := t.load } ∧
     BlocksKept s t [0x145, 0x146]) ∧
  (∀ (who : Requester) (v : Nat) (s : State), layReady s who = true → imagePasses s 2 = true →
    ∃ t, exec (.layoutValidate who v) s = .next t ∧ t.fld Fld.LAY_STATUS_code = 0 ∧ t.fld Fld.LAY_STATUS_last_op = 2 ∧
      t.fld Fld.LAY_STATUS_state = b2n s.layout.isSome ∧ Counted s t Ev.LAY_EVENT_done ∧
      t = { s with regs := t.regs, msix := t.msix, msixPending := t.msixPending } ∧
     BlocksKept s t [0x145, 0x146]) ∧
  (∀ (who : Requester) (v i : Nat) (s : State), layReady s who = true → s.imageDie0 (imageOff s) 256 = some i →
    ∃ t, exec (.layoutFullLoad who v) s = .next t ∧ t.fld Fld.LAY_STATUS_code = 0x0203 ∧ t.fld Fld.LAY_STATUS_last_op = 0 ∧
      t.flag Fld.LAY_STATUS_copied = false ∧ Counted s t Ev.LAY_EVENT_fail ∧ t = { s with regs := t.regs, msix := t.msix, msixPending := t.msixPending } ∧
     BlocksKept s t [0x145, 0x146]) ∧
  (∀ (who : Requester) (v : Nat) (f : Finding) (s : State), layReady s who = true → f.code < 65536 →
    s.imageDie0 (imageOff s) 256 = none →
    firstFinding (headerFindings (s.imageBytes (imageOff s) 256) 0 (s.fld Fld.LAY_IMG_LEN_len)) = some f →
    ∃ t, exec (.layoutFullLoad who v) s = .next t ∧ t.fld Fld.LAY_STATUS_code = f.code ∧ t.fld Fld.LAY_STATUS_last_op = 0 ∧
      t.flag Fld.LAY_STATUS_copied = false ∧ Counted s t Ev.LAY_EVENT_fail ∧ t = { s with regs := t.regs, msix := t.msix, msixPending := t.msixPending } ∧
     BlocksKept s t [0x145, 0x146]) ∧
  (∀ (who : Requester) (v : Nat) (d : Load) (s : State), s.served who 1 0x46 false = true → s.load = some d →
    ∃ t, exec (.layoutFullLoad who v) s = .next t ∧ Counted s t Ev.LAY_EVENT_cmd_reject ∧
      RegsKept s t Ev.LAY_EVENT_cmd_reject.regs ∧ t = { s with regs := t.regs })

/-- R65 to R67 (LAYOUT_COMMIT): contexts that are not quiesced end the load with 0x0A13, torque that is not safely off with 0x0A14, and
then the active layout stays. A full commit makes the image the layout, with no context resident, no mapping, no invocation and no
programme, every length-table entry free; a partial commit replaces the sections that its image holds and keeps the rest.
Where the spec is silent it follows the model's choices and readings of log entries 20 and 21. -/
def Obligations.LayoutCommits : Prop :=
  (∀ (d : Load) (s : State), s.load = some d → s.loadQuiesced d.op (layoutOf d.image) = false →
    ∃ t, exec .layoutCommit s = .next t ∧ t.fld Fld.LAY_STATUS_code = 0x0A13 ∧ t.layout = s.layout ∧ t.load = none ∧
      Counted s t Ev.LAY_EVENT_fail ∧ t = { s with regs := t.regs, msix := t.msix, msixPending := t.msixPending, load := none } ∧
     BlocksKept s t [0x146]) ∧
  (∀ (d : Load) (s : State), s.load = some d → s.loadQuiesced d.op (layoutOf d.image) = true →
    (s.loadGroups d.op (layoutOf d.image)).all s.asserted = false →
    ∃ t, exec .layoutCommit s = .next t ∧ t.fld Fld.LAY_STATUS_code = 0x0A14 ∧ t.layout = s.layout ∧ t.load = none ∧
      Counted s t Ev.LAY_EVENT_fail ∧ t = { s with regs := t.regs, msix := t.msix, msixPending := t.msixPending, load := none } ∧
     BlocksKept s t [0x146]) ∧
  (∀ (d : Load) (s : State), s.load = some d → d.op = 0 → s.commitCode 0 (layoutOf d.image) = 0 → s.flag Fld.TIER_CMD_STATUS_busy = false →
    (∀ r ∈ (layoutOf d.image).recs 1, bit (fieldAt r 3 1) 0 = false) →
    ∃ t, exec .layoutCommit s = .next t ∧ t.layout = some (layoutOf d.image) ∧ t.load = none ∧ t.maps = [] ∧ t.seqLinks = [] ∧
      t.invs = [] ∧ t.runs = [] ∧ (∀ q, (t.kvEntry q).valid = false) ∧
      (∀ k, (t.ctx k).phase = .nonresident ∨ (t.ctx k).phase = .absent) ∧ t.fld Fld.LAY_STATUS_code = 0 ∧
      t.fld Fld.LAY_STATUS_state = 1 ∧ Counted s t Ev.LAY_EVENT_done) ∧
  (∀ (d : Load) (s : State), s.load = some d → d.op = 0 → s.commitCode 0 (layoutOf d.image) = 0 → s.flag Fld.TIER_CMD_STATUS_busy = true →
    ∃ t, exec .layoutCommit s = .next t ∧ t = { s with load := some { d with committing := true } }) ∧
  (∀ (d : Load) (old : Layout) (s : State), s.load = some d → d.op = 1 → s.layout = some old → s.commitCode 1 (layoutOf d.image) = 0 →
    ∃ t, exec .layoutCommit s = .next t ∧ t.layout = some (mergeLayout old (layoutOf d.image)) ∧ t.load = none ∧ t.maps = s.maps ∧
      t.ctxs = s.ctxs ∧ t.kv = s.kv ∧ t.fld Fld.LAY_STATUS_code = 0 ∧ t.fld Fld.LAY_STATUS_last_op = 1 ∧
      Counted s t Ev.LAY_EVENT_done)

/-! ### Ports, the joint bus and the loops (chapters 12, 13 and 18) -/

/-- R223, R230, R236, R238, R240 (ETH_FRAME_RECEIVE, ETH_FRAME_TRANSMIT, ETH_CTRL_WRITE, ETH_LINK_DOWN, ETH_LINK_UP): a joint frame joins
the end of the engine's queue with its ingress stamp, a frame of a sensor stream is the next entry of the stream's ring, and every other
frame goes to firmware with its stamp; a frame of firmware that the guard lets pass leaves last on its port; a port that STREAMS does not
name takes the mode written, and OFF takes its link away; a JOINT port that loses its link is counted and reported to Crust, and its
streams fault.
Where the spec is silent it follows the model's choices and readings of log entries 43, 45, 46 and 47. -/
def Obligations.EthernetPorts : Prop :=
  (∀ (port ago : Nat) (f : Bytes) (s : State), port < 12 → s.blkOpen 0 0x24 = true → s.portMode port = 1 →
    s.flag (Fld.ETH_STATUS_link_up port) = true → frameType f = s.ports.ethertype →
    ∃ t, exec (.ethFrameReceive port ago f) s = .next t ∧
      t.ports.jbusIn = s.ports.jbusIn ++ [⟨port, stampOf (s.ingressTime port (s.capture ago)), f⟩] ∧ t.ports.sent = s.ports.sent ∧
      t.ports.streams = s.ports.streams ∧ t.ports.fwIn = s.ports.fwIn ∧ t = { s with ports := t.ports, regs := t.regs } ∧
     BlocksKept s t [0x23]) ∧
  (∀ (port ago : Nat) (f : Bytes) (s : State), port < 12 → s.blkOpen 0 0x24 = true → s.portMode port ≠ 0 →
    s.flag (Fld.ETH_STATUS_link_up port) = true → (s.portMode port = 1 → frameType f ≠ s.ports.ethertype) → s.sensorStream port f = none →
    ∃ t, exec (.ethFrameReceive port ago f) s = .next t ∧
      t.ports.fwIn = s.ports.fwIn ++ [⟨port, stampOf (s.ingressTime port (s.capture ago)), f⟩] ∧ t.ports.jbusIn = s.ports.jbusIn ∧
      t.ports.sent = s.ports.sent ∧ t.ports.streams = s.ports.streams ∧ t = { s with ports := t.ports, regs := t.regs } ∧
     BlocksKept s t [0x23]) ∧
  (∀ (port ago i : Nat) (f r : Bytes) (m : State) (s : State), port < 12 → s.blkOpen 0 0x24 = true → s.portMode port = 2 →
    s.flag (Fld.ETH_STATUS_link_up port) = true → ptpEvent f = none → s.sensorStream port f = some i → s.streamRec i = some r →
    f.length + 64 ≤ fieldAt r 0x24 4 →
    s.writeVa (.engine 0) .engineWrite (fieldAt r 0 1) (ringEntry r ((s.stream i).pubs + 1))
      (headBytes ((s.stream i).pubs + 1) f.length false
        ⟨ofSigned 64 (s.ingressTime port (s.capture ago) / 65536), 0, 0, false, false, false, 0⟩ ++ f) = .ok m →
    ∃ t, exec (.ethFrameReceive port ago f) s = .next t ∧ t.phys = m.phys ∧ (t.stream i).pubs = (s.stream i).pubs + 1 ∧
      (∀ j, j ≠ i → t.stream j = s.stream j) ∧ t.ports.fwIn = s.ports.fwIn ∧ t.ports.jbusIn = s.ports.jbusIn ∧ BlocksKept s t [0x145] ∧
      t = { m with regs := t.regs, msix := t.msix, msixPending := t.msixPending, ports := t.ports, syncs := t.syncs }) ∧
  (∀ (port ago : Nat) (f : Bytes) (s : State), s.flag (Fld.ETH_STATUS_link_up port) = false →
    exec (.ethFrameReceive port ago f) s = .next s) ∧
  (∀ (port ago : Nat) (f : Bytes) (s : State), port < 12 → s.blkOpen 0 0x24 = true → s.portMode port ≠ 0 →
    s.flag (Fld.ETH_STATUS_link_up port) = true → s.guarded port f.length = false → ptpEvent f = none →
    ∃ t, exec (.ethFrameTransmit port ago f) s = .next t ∧
      t = { s with ports := { s.ports with sent := s.ports.sent ++ [⟨port, f, true⟩] } }) ∧
  (∀ (who : Requester) (port v : Nat) (s : State), s.served who 0 0x24 false = true → port < 12 → s.portNamed port = false →
    (8 ≤ port → bits v 0 2 ≠ 1) →
    ∃ t, exec (.ethCtrlWrite who port v) s = .next t ∧ t.fld (Fld.ETH_CTRL_mode port) = bits v 0 2 ∧
      t.fld (Fld.ETH_CTRL_speed port) = bits v 2 2 ∧ (bits v 0 2 = 0 → t.flag (Fld.ETH_STATUS_link_up port) = false) ∧
      RegsKept s t [Reg.ETH_CTRL port, Reg.ETH_STATUS port, Reg.ETH_PAIR port] ∧ t = { s with regs := t.regs }) ∧
  (∀ (who : Requester) (port v : Nat) (s : State), s.served who 0 0x24 false = true → port < 12 → s.portNamed port = true →
    ∃ t, exec (.ethCtrlWrite who port v) s = .next t ∧ t.fld (Fld.ETH_CTRL_mode port) = s.fld (Fld.ETH_CTRL_mode port) ∧
      RegsKept s t [Reg.ETH_CTRL port] ∧ t = { s with regs := t.regs }) ∧
  (∀ (port : Nat) (s : State), port < 12 → s.flag (Fld.ETH_STATUS_link_up port) = true → s.portMode port = 1 →
    s.portStreams port [0, 1] = [] →
    ∃ t, exec (.ethLinkDown port) s = .next t ∧ t.flag (Fld.ETH_STATUS_link_up port) = false ∧
      Counted s t Ev.JBUS_EVT_STATUS_link_down ∧ RegsKept s t (Reg.ETH_STATUS port :: Ev.JBUS_EVT_STATUS_link_down.regs) ∧
      t.crust = { s.crust with reports := s.crust.reports ++ [(0x05, 0xFF)] } ∧ t = { s with regs := t.regs, crust := t.crust }) ∧
  (∀ (port : Nat) (s : State), port < 12 → s.flag (Fld.ETH_STATUS_link_up port) = true → s.portMode port = 1 →
    (∀ i ∈ s.portStreams port [0, 1], i < 160) →
    ∃ t, exec (.ethLinkDown port) s = .next t ∧ t.flag (Fld.ETH_STATUS_link_up port) = false ∧
      Counted s t Ev.JBUS_EVT_STATUS_link_down ∧ s.crust.reports.length < t.crust.reports.length ∧
      (∀ i ∈ s.portStreams port [0, 1], streamSim ((s.streamRec i).getD []) = false →
        t.flag (Fld.JBUS_STREAM_fault i) = true ∧ (t.stream i).servedRun = 0 ∧
        (s.flag (Fld.JBUS_STREAM_fault i) = false → (0x05, i) ∈ t.crust.reports)) ∧
      BlocksKept s t [0x24, 0x26] ∧ t = { s with regs := t.regs, ports := t.ports, crust := t.crust }) ∧
  (∀ (port speed : Nat) (swapped : Bool) (s : State), port < 12 → s.portMode port ≠ 0 →
    ∃ t, exec (.ethLinkUp port speed swapped) s = .next t ∧ t.flag (Fld.ETH_STATUS_link_up port) = true ∧
      (∀ i ∈ s.portStreams port [1], (t.stream i).last = none) ∧
      RegsKept s t [Reg.ETH_STATUS port, Reg.ETH_PAIR port] ∧ t = { s with regs := t.regs, ports := t.ports })

/-- R238 (JBUS_FB_RECEIVE): the frame that waited longest leaves the queue; a feedback frame with a right CRC-32C, whose counter advances
and whose age is not above its bound, is copied from its header on to its stream's feedback buffer; one with a wrong CRC-32C, that
belongs to no stream, or whose payload is not its stream's (R231, log entry 46), writes nothing and is counted.

R226, R235, R239 (JBUS_FB_CHECK, JBUS_CLEAR, JBUS_CMD_BUILD, JBUS_CMD_TRANSMIT): a check instant without an accepted frame is a miss,
and miss_limit misses in a row fault the stream and are reported to Crust; a clear after miss_limit served cycles takes the fault away;
a delivered cycle's frame is built from the stream's buffer, and one that is not delivered is not built, is counted and reported; a
built frame leaves at its transmit instant with its egress stamp.
Where the spec is silent it follows the model's choices and readings of log entries 45 and 46. -/
def Obligations.JointBus : Prop :=
  (∀ (i n : Nat) (x : RxFrame) (xs : List RxFrame) (r : Bytes) (s : State), s.ports.jbusIn = x :: xs → s.blkOpen 0 0x26 = true →
    s.feedbackStream x.port x.frame = some i → s.streamRec i = some r → s.streamSafety i = none → jointCrcOk x.frame = true →
    feedbackFormed r x.frame = true → (s.stream i).last = none → n = 16 + fieldAt x.frame (frameBody x.frame + 6) 2 → frameBody x.frame + n ≤ x.frame.length →
    0 ≤ age x.stamp (fieldAt x.frame (frameBody x.frame + 8) 4) →
    age x.stamp (fieldAt x.frame (frameBody x.frame + 8) 4) ≤ fieldAt r 0x10 4 →
    ∃ t, exec .jbusFbReceive s = .next t ∧ t.ports.jbusIn = xs ∧ t.readDie 0 (fieldAt r 0x14 4) n = slice x.frame (frameBody x.frame) n ∧
      (∀ a, (a < dieLocal 0 (fieldAt r 0x14 4) ∨ dieLocal 0 (fieldAt r 0x14 4) + n ≤ a) → t.byteAt a = s.byteAt a) ∧
      (t.stream i).last = some (fieldAt x.frame (frameBody x.frame + 4) 2) ∧
      (t.stream i).accepted = (s.stream i).accepted ++ [(x.stamp, fieldAt x.frame (frameBody x.frame + 8) 4)] ∧
      t = { s with ports := t.ports, phys := t.phys, regs := t.regs } ∧
     RegsKept s t [Reg.JBUS_STREAM i]) ∧
  (∀ (i : Nat) (x : RxFrame) (xs : List RxFrame) (s : State), s.ports.jbusIn = x :: xs → s.blkOpen 0 0x26 = true →
    s.feedbackStream x.port x.frame = some i → s.streamSafety i = none → jointCrcOk x.frame = false →
    ∃ t, exec .jbusFbReceive s = .next t ∧ t.ports = { s.ports with jbusIn := xs } ∧ Counted s t Ev.JBUS_EVT_STATUS_crc_err ∧
      RegsKept s t Ev.JBUS_EVT_STATUS_crc_err.regs ∧ t = { s with ports := t.ports, regs := t.regs }) ∧
  (∀ (x : RxFrame) (xs : List RxFrame) (s : State), s.ports.jbusIn = x :: xs → s.blkOpen 0 0x26 = true →
    (s.feedbackStream x.port x.frame = none ∨ ∃ i, s.feedbackStream x.port x.frame = some i ∧ jointCrcOk x.frame = true ∧
      feedbackFormed ((s.streamRec i).getD []) x.frame = false) →
    ∃ t, exec .jbusFbReceive s = .next t ∧ t.ports = { s.ports with jbusIn := xs } ∧ Counted s t Ev.JBUS_EVT_STATUS_unknown ∧
      RegsKept s t Ev.JBUS_EVT_STATUS_unknown.regs ∧ t = { s with ports := t.ports, regs := t.regs }) ∧
  (∀ (i m : Nat) (r : Bytes) (s : State), i < 160 → s.streamRec i = some r → streamKind r = 1 → s.blkOpen 0 0x26 = true →
    cycleInstant r (s.stream i).next ≤ s.now → (s.stream i).accepted = [] → m = min 255 (s.fld (Fld.JBUS_STREAM_misses i) + 1) →
    ∃ t, exec (.jbusFbCheck i) s = .next t ∧ (t.stream i).next = (s.stream i).next + 1 ∧ (t.stream i).servedRun = 0 ∧
      t.fld (Fld.JBUS_STREAM_misses i) = m ∧ t.flag (Fld.JBUS_STREAM_served i) = false ∧ Counted s t Ev.JBUS_EVT_STATUS_miss ∧
      (fieldAt r 7 1 ≤ m → s.flag (Fld.JBUS_STREAM_fault i) = false →
        t.flag (Fld.JBUS_STREAM_fault i) = true ∧ t.crust.reports = s.crust.reports ++ [(0x05, i)] ∧
        Counted s t Ev.JBUS_EVT_STATUS_stream_fault) ∧
      (m < fieldAt r 7 1 → t.flag (Fld.JBUS_STREAM_fault i) = s.flag (Fld.JBUS_STREAM_fault i) ∧ t.crust = s.crust) ∧
      (∀ j, j ≠ i → t.stream j = s.stream j) ∧ t = { s with ports := t.ports, regs := t.regs, crust := t.crust } ∧
     RegsKept s t (Reg.JBUS_STREAM i :: Reg.JBUS_FAULT_LAST :: Ev.JBUS_EVT_STATUS_miss.regs ++
       Ev.JBUS_EVT_STATUS_stream_fault.regs)) ∧
  (∀ (i ingress stamp : Nat) (r : Bytes) (s : State), i < 160 → s.streamRec i = some r → streamKind r = 1 → s.blkOpen 0 0x26 = true →
    cycleInstant r (s.stream i).next ≤ s.now → (s.stream i).accepted = [(ingress, stamp)] →
    0 ≤ age (cycleInstant r (s.stream i).next % 2 ^ 32) ingress → 0 ≤ age (cycleInstant r (s.stream i).next % 2 ^ 32) stamp →
    age (cycleInstant r (s.stream i).next % 2 ^ 32) stamp ≤ fieldAt r 0x10 4 →
    ∃ t, exec (.jbusFbCheck i) s = .next t ∧ (t.stream i).next = (s.stream i).next + 1 ∧
      (t.stream i).servedRun = (s.stream i).servedRun + 1 ∧ (t.stream i).accepted = [] ∧ t.fld (Fld.JBUS_STREAM_misses i) = 0 ∧
      t.flag (Fld.JBUS_STREAM_served i) = true ∧ RegsKept s t [Reg.JBUS_STREAM i] ∧ t = { s with ports := t.ports, regs := t.regs }) ∧
  (∀ (who : Requester) (i : Nat) (r : Bytes) (s : State), i < 160 → s.served who 0 0x26 false = true → s.streamRec i = some r →
    fieldAt r 7 1 ≤ (s.stream i).servedRun →
    ∃ t, exec (.jbusClear who i) s = .next t ∧ t.flag (Fld.JBUS_STREAM_fault i) = false ∧
      RegsKept s t [Reg.JBUS_CLR, Reg.JBUS_STREAM i] ∧ t = { s with regs := t.regs }) ∧
  (∀ (i : Nat) (r : Bytes) (x : StreamSt) (s : State), s.streamRec i = some r → streamKind r = 0 → s.blkOpen 0 0x26 = true →
    s.stream i = x → x.takeover = none → cycleInstant r x.next ≤ s.now + 2000 → s.delivered i x.next = true →
    ∃ t, exec (.jbusCmdBuild i) s = .next t ∧
      t.stream i = { x with built := some (x.next, s.commandFrame r (x.next % 65536) (s.bufferRecords r), false), next := x.next + 1 } ∧
      (∀ j, j ≠ i → t.stream j = s.stream j) ∧ t = { s with ports := t.ports }) ∧
  (∀ (i : Nat) (r : Bytes) (x : StreamSt) (s : State), s.streamRec i = some r → streamKind r = 0 → s.blkOpen 0 0x26 = true →
    s.stream i = x → x.takeover = none → cycleInstant r x.next ≤ s.now + 2000 → s.delivered i x.next = false →
    ∃ t, exec (.jbusCmdBuild i) s = .next t ∧ t.stream i = { x with next := x.next + 1, missed := some x.next } ∧
      Counted s t Ev.JBUS_EVT_STATUS_cmd_late ∧ t.crust.reports = s.crust.reports ++ [(0x01, i)] ∧
      t = { s with ports := t.ports, regs := t.regs, crust := t.crust } ∧
     RegsKept s t (Reg.JBUS_FAULT_LAST :: Ev.JBUS_EVT_STATUS_cmd_late.regs)) ∧
  (∀ (i j ago port : Nat) (r f : Bytes) (s : State), i < 160 → s.streamRec i = some r → streamSim r = false → fieldAt r 2 1 = port →
    (s.stream i).built = some (j, f, false) → cycleInstant r j ≤ s.now → s.flag (Fld.ETH_STATUS_link_up port) = true →
    s.streamSafety i = none →
    ∃ t, exec (.jbusCmdTransmit i ago false) s = .next t ∧
      t.ports.sent = s.ports.sent ++ [⟨port, insertStamp (stampOf (s.egressTime port (s.capture ago))) f, true⟩] ∧
      (t.stream i).built = none ∧ (t.stream i).left = some j ∧ t.fld (Fld.JBUS_STREAM_counter i) = j % 65536 ∧
      RegsKept s t [Reg.JBUS_STREAM i] ∧ t = { s with ports := t.ports, regs := t.regs })

/-- True where a CSI-2 receiver takes packets of a virtual channel (R242): its block is open and it is enabled with lanes. -/
def csiReady (s : State) (port vc : Nat) : Bool :=
  decide (port < 4) && decide (vc < 4) && s.blkOpen 0 0x25 && s.flag (Fld.CSI_CTRL_en port) && s.fld (Fld.CSI_CTRL_lanes port) != 3

/-- R227, R242, R243 (CSI_FRAME_RECEIVE, SIM_ENTRY_RELEASE): a frame start is stamped and makes its channel busy; a packet of no stream is
counted as unmatched and kept nowhere, one of a stream joins the frame in progress, and a corrected header is counted; a frame end
publishes the data as the next entry of the stream's ring, with the exposure stamp of its start or the sensor's own one, and counts the frame
on its port; a pending entry of a host-fed stream whose release time has come is published, and one that is not pending yet is left
alone.
Where the spec is silent it follows the model's choices and readings of log entry 47. -/
def Obligations.CamerasAndHostFed : Prop :=
  (∀ (port vc number ago own dt : Nat) (data : Bytes) (hdr crc : Bool) (s : State), csiReady s port vc = true →
    s.camFrame port vc = none →
    ∃ t, exec (.csiFrameReceive port vc .start number ago own dt data hdr crc) s = .next t ∧
      t.camFrame port vc = some ⟨number, s.capture ago, s.exposureStamp port vc (s.capture ago), own, false, []⟩ ∧ bit (t.fld (Fld.CSI_STATUS_vc_busy port)) vc = true ∧
      Sparse.get (fun _ => 0) t.ports.exposure (4 * port + vc) = s.exposureStamp port vc (s.capture ago) ∧
      RegsKept s t (Reg.CSI_STATUS port :: Ev.CSI_EVT_STATUS_hdr_corr.regs) ∧ (hdr = true → Counted s t Ev.CSI_EVT_STATUS_hdr_corr) ∧
      (hdr = false → RegsKept s t [Reg.CSI_STATUS port]) ∧ t.ports.streams = s.ports.streams ∧
      t = { s with ports := t.ports, regs := t.regs }) ∧
  (∀ (port vc number ago own dt : Nat) (data : Bytes) (crc : Bool) (s : State), csiReady s port vc = true →
    s.cameraStream port vc dt = none →
    ∃ t, exec (.csiFrameReceive port vc .packet number ago own dt data false crc) s = .next t ∧
      Counted s t Ev.CSI_EVT_STATUS_unmatched ∧ RegsKept s t Ev.CSI_EVT_STATUS_unmatched.regs ∧ t = { s with regs := t.regs }) ∧
  (∀ (port vc number ago own dt i : Nat) (data : Bytes) (crc : Bool) (x : CamFrame) (s : State), csiReady s port vc = true →
    s.cameraStream port vc dt = some i → s.camFrame port vc = some x →
    ∃ t, exec (.csiFrameReceive port vc .packet number ago own dt data true crc) s = .next t ∧
      t.camFrame port vc = some (x.add dt data (!crc)) ∧ Counted s t Ev.CSI_EVT_STATUS_hdr_corr ∧ t.ports.streams = s.ports.streams ∧
      RegsKept s t (Reg.CSI_STATUS port :: Ev.CSI_EVT_STATUS_hdr_corr.regs) ∧ t = { s with ports := t.ports, regs := t.regs }) ∧
  (∀ (port vc number ago own dt dt' i : Nat) (data bs r : Bytes) (hdr crc isOwn : Bool) (x : CamFrame) (m : State) (s : State),
    csiReady s port vc = true → s.camFrame port vc = some x → x.data = [(dt, data)] → x.err = false → s.cameraStream port vc dt = some i →
    s.streamRec i = some r → s.streamSafety i = none → isOwn = bit (fieldAt r 0x23 1) 0 → data.length + 64 ≤ fieldAt r 0x24 4 →
    s.writeVa (.engine 0) .engineWrite (fieldAt r 0 1) (ringEntry r ((s.stream i).pubs + 1))
      (headBytes ((s.stream i).pubs + 1) data.length false ⟨ofSigned 64 (x.capture / 65536),
        if isOwn then x.own % 2 ^ 32 else x.exposure, x.number % 65536, false, false, isOwn, 0⟩ ++ data)
      = .ok m →
    ∃ t, exec (.csiFrameReceive port vc .finish number ago own dt' bs hdr crc) s = .next t ∧ t.phys = m.phys ∧
      (t.stream i).pubs = (s.stream i).pubs + 1 ∧ t.camFrame port vc = none ∧ bit (t.fld (Fld.CSI_STATUS_vc_busy port)) vc = false ∧
      t.fld (Fld.CSI_STATUS_frames port) = (s.fld (Fld.CSI_STATUS_frames port) + 1) % 65536 ∧
     BlocksKept s t [0x25, 0x145] ∧ (∀ j, j ≠ i → t.stream j = s.stream j) ∧
     t = { m with regs := t.regs, msix := t.msix, msixPending := t.msixPending, ports := t.ports, syncs := t.syncs }) ∧
  (∀ (i : Nat) (r e : Bytes) (m : State) (s : State), s.streamRec i = some r → streamSim r = true → streamKind r = 2 →
    s.blkOpen 0 0x26 = true → s.readVa (.engine 0) (fieldAt r 0 1) (ringEntry r ((s.stream i).pubs + 1)) (fieldAt r 0x24 4) = .ok e →
    fieldAt e 0 4 = 1 → fieldAt e 0x20 8 ≤ s.now → fieldAt e 4 4 + 64 ≤ fieldAt r 0x24 4 →
    s.writeVa (.engine 0) .engineWrite (fieldAt r 0 1) (ringEntry r ((s.stream i).pubs + 1))
      (headBytes ((s.stream i).pubs + 1) (fieldAt e 4 4) false
        ⟨(s.simTime (fieldAt e 0x20 8) / 65536).toNat, 0, 0, false, false, false, fieldAt e 0x20 8⟩ ++
        slice e 0x40 (fieldAt e 4 4)) = .ok m →
    ∃ t, exec (.simEntryRelease i) s = .next t ∧ t.phys = m.phys ∧ (t.stream i).pubs = (s.stream i).pubs + 1 ∧
      (∀ j, j ≠ i → t.stream j = s.stream j) ∧
     BlocksKept s t [0x145] ∧ t = { m with regs := t.regs, msix := t.msix, msixPending := t.msixPending, ports := t.ports, syncs := t.syncs }) ∧
  (∀ (i : Nat) (r e : Bytes) (s : State), s.streamRec i = some r → streamSim r = true → streamKind r ≠ 0 → s.blkOpen 0 0x26 = true →
    s.readVa (.engine 0) (fieldAt r 0 1) (ringEntry r ((s.stream i).pubs + 1)) (fieldAt r 0x24 4) = .ok e →
    (fieldAt e 0 4 ≠ 1 ∨ s.now < fieldAt e 0x20 8) → exec (.simEntryRelease i) s = .next s)

/-- The evaluation of a LOOPS record's slot in a mode, from its sources and its control block (R324 to R332). -/
def slotEval (s : State) (r : Bytes) (m : Nat) : LoopEval :=
  evalMode r { s.loopSlot (loopNumber r) with rearm := false } m (sfieldAt (s.readDie 0 (fieldAt r 0x2C 4) 16) 2 2)
    (s.loopSource (slice r 0x10 8)) (s.loopSource (slice r 0x18 8)) (s.loopSource (slice r 0x20 8))

/-- The command value of an output u (R329). -/
def slotCommand (r : Bytes) (u : Int) : Int := (sat32 (rshiftRne (u * sfieldAt r 0x3C 4) (fieldAt r 0x40 1 : Int))).1

/-- The address of the command record that a slot writes into, local to the Reflex die (R234, R329). -/
def slotRecord (s : State) (r : Bytes) : Nat :=
  fieldAt ((s.streamRec (fieldAt r 0x28 1)).getD []) 0x14 4 + 16 + 16 * fieldAt r 0x29 1

/-- The due records of a pass whose owners let them evaluate (R320). -/
def evaluates (s : State) (r : Bytes) : Bool :=
  (s.ctx (fieldAt r 0 1)).phase == .resident || (s.ctx (fieldAt r 0 1)).phase == .stopped

/-- R320, R323 to R332, R334, R335 (LOOP_PASS, LOOP_CLEAR): a pass whose instant has come evaluates its due slots once, in ascending
order, and advances its engine alone; a slot takes the mode of its control block, its output follows that mode, and its command value
goes into its record; a slot in FAULT stays there and writes nothing; a slot whose feedback stream is faulted enters FAULT with 0x0702,
counted and reported; a clear is held for the slot's next evaluation.
Where the spec is silent it follows the model's choices and readings of log entries 57 and 58. -/
def Obligations.LoopPasses : Prop :=
  (∀ (e j n : Nat) (r : Bytes) (s : State), e < 4 → s.engineLoops e = [r] → j = Sparse.get (fun _ => 0) s.loops.next e → n = loopNumber r →
    fieldAt r 8 4 + j * fieldAt r 4 4 ≤ s.now → s.blkOpen 0 0x2B = true → (∀ g t, s.groupHeld g t = false) →
    j % max (fieldAt r 0xC 1) 1 = 0 → (s.ctx (fieldAt r 0 1)).phase = .resident → s.flag Fld.LOOP_CLR_clear = false →
    (s.loopSlot n).mode = 3 →
    ∃ t, exec (.loopPass e []) s = .next t ∧ t.loopSlot n = s.loopSlot n ∧ Sparse.get (fun _ => 0) t.loops.next e = j + 1 ∧
      (∀ x, x ≠ e → Sparse.get (fun _ => 0) t.loops.next x = Sparse.get (fun _ => 0) s.loops.next x) ∧
      t.reg64 Reg.LOOP_EVALS = (s.reg64 Reg.LOOP_EVALS + 1) % 2 ^ 64 ∧ t.phys = s.phys ∧
      t = { s with loops := t.loops, regs := t.regs } ∧
     RegsKept s t [Reg.LOOP_EVALS, Reg.LOOP_EVALS + 4]) ∧
  (∀ (e j n : Nat) (r : Bytes) (s : State), e < 4 → s.engineLoops e = [r] → j = Sparse.get (fun _ => 0) s.loops.next e → n = loopNumber r →
    fieldAt r 8 4 + j * fieldAt r 4 4 ≤ s.now → s.blkOpen 0 0x2B = true → (∀ g t, s.groupHeld g t = false) →
    j % max (fieldAt r 0xC 1) 1 = 0 → (s.ctx (fieldAt r 0 1)).phase = .resident → s.flag Fld.LOOP_CLR_clear = false →
    (s.loopSlot n).mode ≠ 3 → (∃ i ∈ loopFeedback r, s.flag (Fld.JBUS_STREAM_fault i) = true) →
    ∃ t, exec (.loopPass e []) s = .next t ∧ (t.loopSlot n).mode = 3 ∧ (t.loopSlot n).feCause = false ∧
      Counted s t Ev.LOOP_EVT_STATUS_fb_fault ∧ t.crust.reports = s.crust.reports ++ [(0x03, n)] ∧
      (∀ k, k ≠ n → t.loopSlot k = s.loopSlot k) ∧ t.reg64 Reg.LOOP_EVALS = (s.reg64 Reg.LOOP_EVALS + 1) % 2 ^ 64 ∧
      t = { s with loops := t.loops, regs := t.regs, phys := t.phys, crust := t.crust } ∧
     BlocksKept s t [0x2B]) ∧
  (∀ (e j n m : Nat) (r blk : Bytes) (f : LoopEval) (s : State), e < 4 → s.engineLoops e = [r] →
    j = Sparse.get (fun _ => 0) s.loops.next e → n = loopNumber r →
    fieldAt r 8 4 + j * fieldAt r 4 4 ≤ s.now → s.blkOpen 0 0x2B = true → (∀ g t, s.groupHeld g t = false) →
    j % max (fieldAt r 0xC 1) 1 = 0 → evaluates s r = true → s.flag Fld.LOOP_CLR_clear = false →
    (s.loopSlot n).mode ≠ 3 → (s.loopSlot n).rearm = false → (∀ i ∈ loopFeedback r, s.flag (Fld.JBUS_STREAM_fault i) = false) →
    blk = s.readDie 0 (fieldAt r 0x2C 4) 16 → m = fieldAt blk 0 1 → m ≤ 2 → fieldAt blk 1 1 = 0 →
    slice blk 4 12 = List.replicate 12 0 → fieldAt r 0x2A 1 < 2 → f = slotEval s r m → (m = 2 → f.slot.timer < faultCount r) →
    ∃ t, exec (.loopPass e []) s = .next t ∧
      t.loopSlot n = { f.slot with mode := m, c := slotCommand r f.slot.u, feCause := false, done := some j } ∧
      (m = 0 → f.slot.u = 0 ∧ f.slot.integ = 0 ∧ f.slot.sections = [] ∧ f.slot.timer = 0) ∧
      (m = 1 → f.slot.u = min (max (sfieldAt blk 2 2) (sfieldAt r 0x4C 2)) (sfieldAt r 0x4E 2) ∧
        f.slot.integ = (s.loopSlot n).integ ∧ f.slot.timer = 0) ∧
      (m = 2 → f.slot.u ≤ sfieldAt r 0x4E 2 ∧ (sfieldAt r 0x4C 2 ≤ sfieldAt r 0x4E 2 → sfieldAt r 0x4C 2 ≤ f.slot.u)) ∧
      (fieldAt r 0x30 4 = 0 → t.readDie 0 (slotRecord s r + 4 + 4 * fieldAt r 0x2A 1) 4 =
        leBytes 4 (ofSigned 32 (slotCommand r f.slot.u))) ∧
      (fieldAt r 0x30 4 ≠ 0 → t.readDie 0 (fieldAt r 0x30 4) 32 = statusBlock j { f with slot := t.loopSlot n }
        ((loopFeedback r).any (fun i => !s.flag (Fld.JBUS_STREAM_served i))) (slotCommand r f.slot.u)) ∧
      (∀ a, (a < dieLocal 0 (slotRecord s r) ∨ dieLocal 0 (slotRecord s r) + 16 ≤ a) →
        (fieldAt r 0x30 4 = 0 ∨ a < dieLocal 0 (fieldAt r 0x30 4) ∨ dieLocal 0 (fieldAt r 0x30 4) + 32 ≤ a) → t.byteAt a = s.byteAt a) ∧
      (∀ k, k ≠ n → t.loopSlot k = s.loopSlot k) ∧ Sparse.get (fun _ => 0) t.loops.next e = j + 1 ∧
      t.reg64 Reg.LOOP_EVALS = (s.reg64 Reg.LOOP_EVALS + 1) % 2 ^ 64 ∧
      t = { s with loops := t.loops, regs := t.regs, phys := t.phys } ∧
     BlocksKept s t [0x2B]) ∧
  (∀ (e j at' : Nat) (bad : List Nat) (r : Bytes) (rs due : List Bytes) (s : State), e < 4 → s.engineLoops e = r :: rs →
    j = Sparse.get (fun _ => 0) s.loops.next e → at' = fieldAt r 8 4 + j * fieldAt r 4 4 → at' ≤ s.now → s.blkOpen 0 0x2B = true →
    (∀ g t, s.groupHeld g t = false) → due = (r :: rs).filter (fun x => j % max (fieldAt x 0xC 1) 1 == 0) →
    ∃ t, exec (.loopPass e bad) s = .next t ∧ Sparse.get (fun _ => 0) t.loops.next e = j + 1 ∧
      t.phys = (due.foldl (fun a x => a.passSlot x j at' bad) s).phys ∧
      t.reg64 Reg.LOOP_EVALS = (s.reg64 Reg.LOOP_EVALS + (due.filter (evaluates s)).length) % 2 ^ 64 ∧
      (∀ n, n ∉ (due.filter (evaluates s)).map loopNumber → t.loopSlot n = s.loopSlot n) ∧
      (∀ x ∈ due, evaluates s x = true → (s.loopSlot (loopNumber x)).mode ≠ 3 → loopNumber x ∉ bad →
        (t.loopSlot (loopNumber x)).done = some j) ∧
      t = { s with loops := t.loops, regs := t.regs, phys := t.phys, crust := t.crust } ∧
     BlocksKept s t [0x2B]) ∧
  (∀ (e : Nat) (r : Bytes) (rs : List Bytes) (s : State), s.engineLoops e = r :: rs →
    s.now < fieldAt r 8 4 + Sparse.get (fun _ => 0) s.loops.next e * fieldAt r 4 4 → exec (.loopPass e []) s = .next s) ∧
  (∀ (who : Requester) (n : Nat) (s : State), s.served who 0 0x2B false = true → n < 512 →
    ∃ t, exec (.loopClear who n) s = .next t ∧ t.fld Fld.LOOP_CLR_slot = n ∧ t.flag Fld.LOOP_CLR_clear = true ∧
      RegsKept s t [Reg.LOOP_CLR] ∧ t = { s with regs := t.regs })

/-! ### Fusion and the map (chapters 14 and 15) -/

/-- R248, R255, R257 (FUSION_CUTOFF, FUSION_SLOT_COMPLETE): a cut-off that comes while the slot before it runs skips its slot, publishes
0x0802 and is counted as an overrun; one that comes with no slot running starts its slot, which runs until its completion; the completion
ends the slot and publishes its number and status, unless its owner has stopped since: then it publishes nothing and writes no cell. A
slot whose mailbox faults publishes nothing and signals nothing (log entry 49). A cut-off that has not come changes nothing.
Where the spec is silent it follows the model's choices and readings of log entries 48 and 49. -/
def Obligations.FusionSlots : Prop :=
  (∀ (n owner : Nat) (r : Bytes) (f : FusionRun) (m : State) (s : State), s.fusionRec = some r → s.fusionOwner = some owner →
    s.fusionActive = true → s.blkOpen 0 0x27 = true → n = s.fusionNext r → gridInstant r n + fieldAt r 0xC 4 ≤ s.now →
    s.fusion.run = some f → n < 2 ^ 64 →
    (s.slotSkipped n).1.publishMailbox owner (fieldAt r 0x30 8) (s.fusion.pubs + 1) (s.slotSkipped n).2 = .ok m →
    ∃ t, exec .fusionCutoff s = .next t ∧ t.fusion.run = some f ∧ t.fusion.next = n + 1 ∧ t.fusion.restart = none ∧
      t.fld Fld.FUSN_STATUS_code = 0x0802 ∧ t.reg64 Reg.FUSN_SLOT = n ∧ Counted s t Ev.FUSN_EVT_STATUS_overrun ∧ t.phys = m.phys ∧
      t.map = s.map ∧ BlocksKept s t [0x27, 0x145] ∧
     t = { s with regs := t.regs, msix := t.msix, msixPending := t.msixPending, phys := t.phys, flash := m.flash, syncs := t.syncs,
                  crust := t.crust, fusion := t.fusion, freeCtr := m.freeCtr }) ∧
  (∀ (n owner : Nat) (e : Nat × Nat) (r : Bytes) (f : FusionRun) (s : State), s.fusionRec = some r → s.fusionOwner = some owner →
    s.fusionActive = true → s.blkOpen 0 0x27 = true → n = s.fusionNext r → gridInstant r n + fieldAt r 0xC 4 ≤ s.now →
    s.fusion.run = some f →
    (s.slotSkipped n).1.publishMailbox owner (fieldAt r 0x30 8) (s.fusion.pubs + 1) (s.slotSkipped n).2 = .error e →
    ∃ t, exec .fusionCutoff s = .next t ∧ t.fusion = { s.fusion with next := n + 1, restart := none } ∧
      Counted s t Ev.FUSN_EVT_STATUS_overrun ∧ BlocksKept s t [0x27, 6] ∧ t.reg Reg.FUSN_STATUS = s.reg Reg.FUSN_STATUS ∧
      t.reg64 Reg.FUSN_SLOT = s.reg64 Reg.FUSN_SLOT ∧ t = { s with regs := t.regs, fusion := t.fusion, freeCtr := s.freeCtr + 44 }) ∧
  (∀ (n owner : Nat) (r : Bytes) (s : State), s.fusionRec = some r → s.fusionOwner = some owner → s.fusionActive = true →
    s.blkOpen 0 0x27 = true → n = s.fusionNext r → gridInstant r n + fieldAt r 0xC 4 ≤ s.now → s.fusion.run = none →
    ∃ t, exec .fusionCutoff s = .next t ∧ (∃ f, t.fusion.run = some f ∧ f.n = n) ∧ t.fusion.next = n + 1 ∧
      t.flag Fld.FUSN_STATUS_busy = true ∧ t.map = s.map ∧
     BlocksKept s t [0x27, 6] ∧ t = { s with regs := t.regs, phys := t.phys, crust := t.crust, fusion := t.fusion, freeCtr := t.freeCtr }) ∧
  (∀ (owner : Nat) (r : Bytes) (s : State), s.fusionRec = some r → s.fusionOwner = some owner →
    s.now < gridInstant r (s.fusionNext r) + fieldAt r 0xC 4 → exec .fusionCutoff s = .next s) ∧
  (∀ (owner : Nat) (r : Bytes) (f : FusionRun) (m : State) (s : State), s.fusionRec = some r → s.fusionOwner = some owner →
    s.fusion.run = some f → s.fusionActive = true → f.n < 2 ^ 64 → f.status < 65536 →
    (s.slotEnds.slotResult r f).1.publishMailbox owner (fieldAt r 0x30 8) (s.fusion.pubs + 1) (s.slotEnds.slotResult r f).2 = .ok m →
    ∃ t, exec .fusionSlotComplete s = .next t ∧ t.fusion = { s.fusion with run := none, pubs := s.fusion.pubs + 1 } ∧
      t.flag Fld.FUSN_STATUS_busy = false ∧ t.reg64 Reg.FUSN_SLOT = f.n ∧ t.fld Fld.FUSN_STATUS_code = f.status ∧
      t.crust.psf.lidar = f.lidar ∧ t.phys = m.phys ∧ t.map = (s.slotEnds.slotResult r f).1.map ∧
     BlocksKept s t [0x27, 0x28, 6, 0x145] ∧
     t = { s with regs := t.regs, msix := t.msix, msixPending := t.msixPending, phys := t.phys, flash := t.flash, syncs := t.syncs, crust := t.crust,
                  map := t.map, fusion := t.fusion, freeCtr := t.freeCtr }) ∧
  (∀ (owner : Nat) (e : Nat × Nat) (r : Bytes) (f : FusionRun) (s : State), s.fusionRec = some r → s.fusionOwner = some owner →
    s.fusion.run = some f → s.fusionActive = true →
    (s.slotEnds.slotResult r f).1.publishMailbox owner (fieldAt r 0x30 8) (s.fusion.pubs + 1) (s.slotEnds.slotResult r f).2 = .error e →
    ∃ t, exec .fusionSlotComplete s = .next t ∧ t.fusion = { s.fusion with run := none } ∧ t.flag Fld.FUSN_STATUS_busy = false ∧
      t.reg64 Reg.FUSN_SLOT = s.reg64 Reg.FUSN_SLOT ∧ t.map = (s.slotEnds.slotResult r f).1.map ∧
     t = { s with regs := t.regs, phys := t.phys, flash := t.flash, crust := t.crust, map := t.map, fusion := t.fusion,
                  freeCtr := t.freeCtr }) ∧
  (∀ (owner : Nat) (r : Bytes) (f : FusionRun) (s : State), s.fusionRec = some r → s.fusionOwner = some owner → s.fusion.run = some f →
    s.fusionActive = false →
    ∃ t, exec .fusionSlotComplete s = .next t ∧ t.fusion = { s.fusion with run := none } ∧ t.flag Fld.FUSN_STATUS_busy = false ∧
      RegsKept s t [Reg.FUSN_STATUS] ∧ t = { s with regs := t.regs, fusion := t.fusion })

/-- R264: a write of result r (1 FREE, 2 OCCUPIED, 3 DISPUTED) to a cell. OCCUPIED and DISPUTED take effect at once with the costs as
written; FREE makes an unknown or free cell FREE, and clears an occupied or disputed one only as the free_confirm-th FREE in a row,
counting until then and leaving its state and costs. -/
def Obligations.WriteFollowsTable : Prop :=
  ∀ (confirm : Nat) (costs : Bytes) (old : MapCell), writeCell confirm 2 costs old = ⟨2, 0, costs⟩ ∧
    writeCell confirm 3 costs old = ⟨3, 0, costs⟩ ∧
    ((old.state = 0 ∨ old.state = 1) → writeCell confirm 1 costs old = ⟨1, 0, List.replicate 7 0⟩) ∧
    ((old.state = 2 ∨ old.state = 3) → old.free + 1 < confirm →
      writeCell confirm 1 costs old = ⟨old.state, old.free + 1, old.costs⟩) ∧
    ((old.state = 2 ∨ old.state = 3) → confirm ≤ old.free + 1 → writeCell confirm 1 costs old = ⟨1, 0, List.replicate 7 0⟩)

/-- True where a start of MAP_CMD is taken (R275): the write reaches the map store and no command is busy. -/
def mapReady (s : State) (who : Requester) : Bool := s.served who 0 0x28 false && !s.flag Fld.MAP_CMD_STATUS_busy

/-- A slot that commands may write: it is configured, and it is not the live slot of an active fusion engine (R275). -/
abbrev slotOpen (s : State) (cfg : MapCfg) (slot : Nat) : Prop := slot < 1024 ∧ slot < cfg.slots ∧ ¬(slot = 0 ∧ s.fusionActive = true)

/-- MAP_CMD_STATUS.busy as it must stand (R273, R275): a build or a mode change is under way. -/
def mapWaits (s : State) : Bool := s.map.build.isSome || s.map.wanted.isSome

/-- R262, R263: writing one cell of a tree makes that cell read as written and leaves the content of every other cell; the canonical form
merges and removes nodes without changing any cell.

R265, R269, R270, R274 to R276 (MAP_FORK, MAP_CLEAR, MAP_WRITE, MAP_LOAD, MAP_SNAPSHOT): a command whose nodes the pool can place makes
the slot's next epoch, a fork with the source's nodes, a clear with no cell, a load with the snapshot's cells, a write with its cell
written under R264; one whose nodes it cannot place ends with 0x0580 and every slot as it was. No other slot changes. A snapshot changes no
slot and writes the world's bytes. A start while a command is busy is ignored with cmd_reject.

R272, R273, R292 (MAP_BUILD_SDF, SDF_BUILD_BEGIN, SDF_BUILD_COMPLETE, MAP_ENTER_TREE, MAP_ENTER_SDF, MAP_MODE_CHANGE): a build makes the
field INVALID while it runs, a waiting one once no batch reads the field, and its end makes the field VALID; TREE mode is entered with
a live slot, and SDF mode with a VALID field, at a moment when no batch runs.
Where the spec is silent it follows the model's choices and readings of log entries 50, 51 and 52. -/
def Obligations.MapStore : Prop :=
  (∀ (d : Nat) (t : MapTree) (p : List Nat) (c : MapCell), (t.put d p c).get d p = c ∧
    (∀ q, (p.getD 0 0 % 2 ^ d ≠ q.getD 0 0 % 2 ^ d ∨ p.getD 1 0 % 2 ^ d ≠ q.getD 1 0 % 2 ^ d ∨ p.getD 2 0 % 2 ^ d ≠ q.getD 2 0 % 2 ^ d) →
      (t.put d p c).get d q = t.get d q)) ∧
  (∀ (who : Requester) (slot src : Nat) (cfg : MapCfg) (s : State), mapReady s who = true → s.mapCfg? = some cfg → slotOpen s cfg slot →
    src = s.fld Fld.MAP_CMD_ARG_count % 1024 → src < cfg.slots → s.pinFree 1 = true →
    ∃ t, exec (.mapFork who slot) s = .next t ∧ t.world slot = ⟨(s.world slot).epoch + 1, (s.world src).root, (s.world src).tree⟩ ∧
      (∀ k, k ≠ slot → t.world k = s.world k) ∧ t.map.head = s.map.head + 1 ∧ t.fld Fld.MAP_CMD_STATUS_code = 0 ∧
      t.flag Fld.MAP_CMD_STATUS_busy = mapWaits s ∧
     BlocksKept s t [0x28, 6] ∧ t = { s with regs := t.regs, phys := t.phys, flash := t.flash, map := t.map, crust := t.crust, freeCtr := t.freeCtr }) ∧
  (∀ (who : Requester) (slot : Nat) (cfg : MapCfg) (s : State), mapReady s who = true → s.mapCfg? = some cfg → slotOpen s cfg slot →
    ∃ t, exec (.mapClear who slot) s = .next t ∧ t.world slot = ⟨(s.world slot).epoch + 1, 0, .absent⟩ ∧
      (∀ k, k ≠ slot → t.world k = s.world k) ∧ t.fld Fld.MAP_CMD_STATUS_code = 0 ∧
     BlocksKept s t [0x28, 6] ∧ t = { s with regs := t.regs, phys := t.phys, flash := t.flash, map := t.map, crust := t.crust, freeCtr := t.freeCtr }) ∧
  (∀ (who : Requester) (slot : Nat) (cfg : MapCfg) (tree : MapTree) (s : State), mapReady s who = true → s.mapCfg? = some cfg →
    slotOpen s cfg slot → s.readSnapshot cfg (s.reg64 Reg.MAP_CMD_VA) = .ok tree → s.placeTree cfg tree = none →
    ∃ t, exec (.mapLoad who slot) s = .next t ∧ t.map = s.map ∧ t.fld Fld.MAP_CMD_STATUS_code = 0x0580 ∧
      Counted s t Ev.MAP_EVT_STATUS_nodes_full ∧ t.crust = { s.crust with reports := s.crust.reports ++ [(0x0F, 0)] } ∧
     BlocksKept s t [0x28] ∧ t = { s with regs := t.regs, crust := t.crust }) ∧
  (∀ (who : Requester) (slot root : Nat) (cfg : MapCfg) (b : Bytes) (p : List Int) (q : List Nat) (f : MapCell → MapCell)
    (new placed : MapTree) (s : State),
    mapReady s who = true → s.mapCfg? = some cfg → slot < 1024 → slot < cfg.slots → s.fld Fld.MAP_CMD_ARG_count = 1 →
    s.readVa (.engine 0) cfg.owner (s.reg64 Reg.MAP_CMD_VA) 32 = .ok b → writeRecord cfg b = some (p, f) → cfg.relative p = some q →
    new = (s.world slot).tree.put cfg.depth q (f ((s.world slot).tree.get cfg.depth q)) →
    (s.placeTree cfg new).map (·.2) = some (root, placed) →
    ∃ t, exec (.mapWrite who slot) s = .next t ∧ t.flag Fld.MAP_CMD_STATUS_busy = mapWaits s ∧ (∀ k, k ≠ slot → t.world k = s.world k) ∧
      t.fld Fld.MAP_CMD_STATUS_code = 0 ∧ t.world slot = ⟨(s.world slot).epoch + 1, root, placed⟩ ∧
      placed.get cfg.depth q = f ((s.world slot).tree.get cfg.depth q) ∧
      (∀ u, (∃ i < 3, u.getD i 0 % 2 ^ cfg.depth ≠ q.getD i 0 % 2 ^ cfg.depth) →
        placed.get cfg.depth u = (s.world slot).tree.get cfg.depth u) ∧
     BlocksKept s t [0x28, 6] ∧ t = { s with regs := t.regs, phys := t.phys, flash := t.flash, map := t.map, crust := t.crust, freeCtr := t.freeCtr }) ∧
  (∀ (who : Requester) (slot : Nat) (cfg : MapCfg) (b : Bytes) (p : List Int) (q : List Nat) (f : MapCell → MapCell) (new : MapTree)
    (s : State),
    mapReady s who = true → s.mapCfg? = some cfg → slot < 1024 → slot < cfg.slots → s.fld Fld.MAP_CMD_ARG_count = 1 →
    s.readVa (.engine 0) cfg.owner (s.reg64 Reg.MAP_CMD_VA) 32 = .ok b → writeRecord cfg b = some (p, f) → cfg.relative p = some q →
    new = (s.world slot).tree.put cfg.depth q (f ((s.world slot).tree.get cfg.depth q)) →
    s.placeTree cfg new = none →
    ∃ t, exec (.mapWrite who slot) s = .next t ∧ t.map = s.map ∧ t.fld Fld.MAP_CMD_STATUS_code = 0x0580 ∧
      Counted s t Ev.MAP_EVT_STATUS_nodes_full ∧ t.crust = { s.crust with reports := s.crust.reports ++ [(0x0F, 0)] } ∧
     BlocksKept s t [0x28] ∧ t = { s with regs := t.regs, crust := t.crust }) ∧
  (∀ (who : Requester) (slot root : Nat) (cfg : MapCfg) (tree placed : MapTree) (s : State), mapReady s who = true →
    s.mapCfg? = some cfg → slotOpen s cfg slot → s.readSnapshot cfg (s.reg64 Reg.MAP_CMD_VA) = .ok tree →
    (s.placeTree cfg tree).map (·.2) = some (root, placed) →
    ∃ t, exec (.mapLoad who slot) s = .next t ∧ t.world slot = ⟨(s.world slot).epoch + 1, root, placed⟩ ∧
      (∀ q, placed.get cfg.depth q = tree.get cfg.depth q) ∧
      (∀ k, k ≠ slot → t.world k = s.world k) ∧ t.fld Fld.MAP_CMD_STATUS_code = 0 ∧
     BlocksKept s t [0x28, 6] ∧ t = { s with regs := t.regs, phys := t.phys, flash := t.flash, map := t.map, crust := t.crust, freeCtr := t.freeCtr }) ∧
  (∀ (who : Requester) (slot : Nat) (cfg : MapCfg) (m : State) (s : State), mapReady s who = true → s.mapCfg? = some cfg → slot < 1024 →
    slot < cfg.slots → s.pinFree 1 = true →
    s.writeVa (.engine 0) .engineWrite cfg.owner (s.reg64 Reg.MAP_CMD_VA) (snapshotBytes cfg (s.world slot)) = .ok m →
    ∃ t, exec (.mapSnapshot who slot) s = .next t ∧ t.phys = m.phys ∧ t.map = s.map ∧ t.fld Fld.MAP_CMD_STATUS_code = 0 ∧
     BlocksKept s t [0x28] ∧ t = { m with regs := t.regs }) ∧
  (∀ (who : Requester) (slot : Nat) (s : State), s.served who 0 0x28 false = true → s.flag Fld.MAP_CMD_STATUS_busy = true →
    ∃ t, exec (.mapClear who slot) s = .next t ∧ Counted s t Ev.MAP_EVT_STATUS_cmd_reject ∧ t = { s with regs := t.regs } ∧
     RegsKept s t (Reg.MAP_CMD :: Ev.MAP_EVT_STATUS_cmd_reject.regs)) ∧
  (∀ (who : Requester) (cfg : MapCfg) (s : State), mapReady s who = true → s.mapCfg? = some cfg → s.fld Fld.MAP_CMD_ARG_src < 2 →
    s.plan.batch = none →
    ∃ t, exec (.mapBuildSdf who) s = .next t ∧ t.flag Fld.MAP_STATUS_sdf_valid = false ∧ t.flag Fld.MAP_STATUS_building = true ∧
      t.flag Fld.MAP_CMD_STATUS_busy = true ∧ (∃ b, t.map.build = some b ∧ b.begun = true ∧ b.src = s.fld Fld.MAP_CMD_ARG_src ∧
        b.va = s.reg64 Reg.MAP_CMD_VA) ∧ t.map.worlds = s.map.worlds ∧ t = { s with regs := t.regs, map := t.map } ∧
     BlocksKept s t [0x28]) ∧
  (∀ (b : SdfBuild) (cfg : MapCfg) (s : State), s.map.build = some b → s.mapCfg? = some cfg → b.begun = false → b.src < 2 → s.plan.batch = none → s.blkOpen 0 0x28 = true →
    ∃ t, exec .sdfBuildBegin s = .next t ∧ t.flag Fld.MAP_STATUS_sdf_valid = false ∧ t.flag Fld.MAP_STATUS_building = true ∧
      t.map = { s.map with build := some { b with begun := true } } ∧ t = { s with regs := t.regs, map := t.map } ∧
     BlocksKept s t [0x28]) ∧
  (∀ (b : SdfBuild) (cfg : MapCfg) (solid : List Nat → Bool) (m : State) (s : State), s.map.build = some b → b.begun = true →
    s.mapCfg? = some cfg → s.buildSource cfg b = .ok solid →
    s.writeVa (.engine 0) .engineWrite cfg.owner cfg.sdfVa
      (((fieldCells cfg).map (fun p => leBytes 2 (ofSigned 16 (fieldValue cfg solid (fieldCells cfg) p)))).flatten) = .ok m →
    ∃ t, exec .sdfBuildComplete s = .next t ∧ t.flag Fld.MAP_STATUS_sdf_valid = true ∧ t.flag Fld.MAP_STATUS_building = false ∧
      t.map.build = none ∧ t.fld Fld.MAP_CMD_STATUS_code = 0 ∧ t.flag Fld.MAP_CMD_STATUS_busy = s.map.wanted.isSome ∧
      Counted s t Ev.MAP_EVT_STATUS_sdf_built ∧ t.map.worlds = s.map.worlds ∧ t.map.pins = s.map.pins.filter (fun p => p.owner != none) ∧
      ((∀ p ∈ s.map.pins, p.owner ≠ none) → t.phys = m.phys ∧ t.flash = m.flash ∧ t.freeCtr = m.freeCtr) ∧
     BlocksKept s t [0x28, 6] ∧ t = { m with regs := t.regs, phys := t.phys, flash := t.flash, map := t.map, freeCtr := t.freeCtr }) ∧
  (∀ (who : Requester) (s : State), mapReady s who = true → (s.world 0).epoch ≠ 0 →
    ∃ t, exec (.mapEnterTree who) s = .next t ∧ t.map.wanted = some 1 ∧ t.map.cmdWaits = true ∧
      t.flag Fld.MAP_CMD_STATUS_busy = true ∧ t.fld Fld.MAP_STATUS_mode = s.fld Fld.MAP_STATUS_mode ∧
      t = { s with regs := t.regs, map := t.map } ∧
     RegsKept s t [Reg.MAP_CMD, Reg.MAP_CMD_STATUS]) ∧
  (∀ (who : Requester) (s : State), mapReady s who = true → s.flag Fld.MAP_STATUS_sdf_valid = true →
    ∃ t, exec (.mapEnterSdf who) s = .next t ∧ t.map.wanted = some 0 ∧ t.flag Fld.MAP_CMD_STATUS_busy = true ∧
      t = { s with regs := t.regs, map := t.map } ∧
     RegsKept s t [Reg.MAP_CMD, Reg.MAP_CMD_STATUS]) ∧
  (∀ (who : Requester) (s : State), mapReady s who = true → s.flag Fld.MAP_STATUS_sdf_valid = false →
    ∃ t, exec (.mapEnterSdf who) s = .next t ∧ t.map = s.map ∧ t.fld Fld.MAP_CMD_STATUS_code = 0x0583 ∧ t = { s with regs := t.regs } ∧
     RegsKept s t [Reg.MAP_CMD, Reg.MAP_CMD_STATUS]) ∧
  (∀ (m : Nat) (s : State), s.map.wanted = some m → m < 2 → s.plan.batch = none →
    ∃ t, exec .mapModeChange s = .next t ∧ t.fld Fld.MAP_STATUS_mode = m ∧ t.map.wanted = none ∧
      (s.fld Fld.MAP_STATUS_mode ≠ m → Counted s t Ev.MAP_EVT_STATUS_mode_change) ∧
      t.flag Fld.MAP_CMD_STATUS_busy = s.map.build.isSome ∧ (s.map.cmdWaits = true → t.fld Fld.MAP_CMD_STATUS_code = 0) ∧
      t = { s with regs := t.regs, map := t.map } ∧
     BlocksKept s t [0x28])

/-! ### The planner and the solver (chapters 16 and 17) -/

/-- R293: the Sieve retains at most eight candidates, only CLEAR ones, each with its own cost and index, in rising order of the pair
(cost, index), and every CLEAR candidate that it leaves out comes after all it retains, of which there are then eight.

R295: time-scaling finds the largest λ from 1 to 256 that holds, and none only where none holds.
Where the spec is silent it follows the model's choices and readings of log entry 54. -/
def Obligations.PlannerChoice : Prop :=
  (∀ rs : List CandResult, (sieve rs).length ≤ 8 ∧
    (∀ x ∈ sieve rs, ∃ c, rs[x.2]? = some c ∧ c.outcome = 0 ∧ c.cost = x.1) ∧
    (sieve rs).Pairwise (fun x y => x.1 < y.1 ∨ (x.1 = y.1 ∧ x.2 < y.2)) ∧
    (∀ (i : Nat) (c : CandResult), rs[i]? = some c → c.outcome = 0 → (c.cost, i) ∉ sieve rs →
      (sieve rs).length = 8 ∧ ∀ x ∈ sieve rs, x.1 < c.cost ∨ (x.1 = c.cost ∧ x.2 < i))) ∧
  (∀ (p : PlanCtx) (segs : List (Bytes × List Int)) (l : Nat), p.lambda segs 256 = some l →
    1 ≤ l ∧ l ≤ 256 ∧ p.rateOk segs l = true ∧ (∀ k, l < k → k ≤ 256 → p.rateOk segs k = false)) ∧
  (∀ (p : PlanCtx) (segs : List (Bytes × List Int)) (k : Nat), p.lambda segs 256 = none → 1 ≤ k → k ≤ 256 → p.rateOk segs k = false)

/-- The write of the STOP that an SDF-mode batch publishes when it retained nothing (R285 step 7, R296): its state, or the fault. -/
def stopMail (s : State) (r : Run) (b : PlanBatch) : Except (Nat × Nat) State :=
  s.publishMailbox ((s.engineCtx 7).getD 0) (planModelOf (s.blob 9)).mbox (s.plan.pubs + 1)
    (planPayload (s.reg64 Reg.PLAN_BATCHES) (s.stopOut r b 0x0501 (some 0) (some 0)))

/-- R108, R283, R285, R296 (PLAN_BATCH): a batch with more candidates than its descriptor or an unconfigured slot ends with 0x0107, and one with
none completes with 0x0000, without effect but for a mode change that waited for the batch before it (R273); in SDF mode a batch whose tests end without a fault retains what the Sieve retains and runs
on; at its end, with nothing retained and a mailbox that can be written, it publishes a STOP counted as no_plan, and its run ends with 0;
a mailbox that faults ends the run with the fault's code and publishes nothing (log entry 53). An uncorrectable error ends the batch with
0x0204 and publishes nothing.
Where the spec is silent it follows the model's choices and readings of log entries 53 and 54. -/
def Obligations.PlannerBatches : Prop :=
  (∀ (run : Nat) (r : Run) (d : Bytes) (cfg : MapCfg) (s : State), s.startable run 0x60 = some (r, d) → s.plan.batch = none →
    s.mapCfg? = some cfg → (fieldAt d 0xC 2 < batchCount d r.args ∨ cfg.slots ≤ batchSlot d r.args) →
    ∃ t, exec (.planBatch (run, .clean)) s = .next t ∧ (∃ r', t.run? run = some r' ∧ r'.executed = true ∧ r'.opCode = 0x0107) ∧
      t = { s.settleMode with runs := t.runs }) ∧
  (∀ (run : Nat) (r : Run) (d : Bytes) (cfg : MapCfg) (s : State), s.startable run 0x60 = some (r, d) → s.plan.batch = none →
    s.mapCfg? = some cfg → batchCount d r.args = 0 → batchSlot d r.args < cfg.slots →
    ∃ t, exec (.planBatch (run, .clean)) s = .next t ∧ (∃ r', t.run? run = some r' ∧ r'.executed = true ∧ r'.opCode = 0) ∧
      t = { s.settleMode with runs := t.runs }) ∧
  (∀ (run n : Nat) (r : Run) (d : Bytes) (cfg : MapCfg) (base : PlanFrame) (rs : List CandResult) (s : State),
    s.startable run 0x60 = some (r, d) → s.plan.batch = none → s.mapCfg? = some cfg → batchCount d r.args = n → 0 < n →
    n ≤ fieldAt d 0xC 2 → batchSlot d r.args < cfg.slots → s.settleMode.flag Fld.MAP_STATUS_mode = false →
    startOk (planModelOf (s.blob 9)) (s.startBlock d (planModelOf (s.blob 9))) = true →
    startBase (s.startBlock d (planModelOf (s.blob 9))) = some base →
    s.testCandidates (s.planCtx cfg (s.startBlock d (planModelOf (s.blob 9))) base none) (chunks 32 n (s.readDie 0 (fieldAt d 8 4) (32 * n))) = .ok rs →
    ∃ t, exec (.planBatch (run, .clean)) s = .next t ∧ t.run? run = some r ∧ t.flag Fld.PLAN_STATUS_busy = true ∧
      t.flag Fld.PLAN_STATUS_mode = false ∧
      (∃ b, t.plan.batch = some b ∧ b.run = run ∧ b.tree = false ∧ b.retained = sieve rs ∧ b.ran = 0 ∧ b.since = s.monoNs ∧
        b.block = s.startBlock d (planModelOf (s.blob 9)) ∧ b.cands = s.readDie 0 (fieldAt d 8 4) (32 * n)) ∧
      (fieldAt d 0x14 4 ≠ 0 → t.readDie 0 (fieldAt d 0x14 4) (8 * rs.length) = (rs.map candRecord).flatten) ∧ t.map = s.settleMode.map) ∧
  (∀ (run : Nat) (r : Run) (d : Bytes) (cfg : MapCfg) (base : PlanFrame) (b : PlanBatch) (m : State) (s : State),
    s.startable run 0x60 = some (r, d) → s.plan.batch = some b → b.run = run → b.tree = false → b.retained = [] →
    s.mapCfg? = some cfg → startBase b.block = some base → stopMail s r b = .ok m →
    ∃ t, exec (.planBatch (run, .clean)) s = .next t ∧ t.plan.batch = none ∧ t.plan.pubs = s.plan.pubs + 1 ∧ t.plan.prev = s.plan.prev ∧
      t.flag Fld.PLAN_STATUS_busy = false ∧ (∃ r', t.run? run = some r' ∧ r'.executed = true ∧ r'.opCode = 0) ∧
      t.fld Fld.PLAN_STATUS_code = 0x0501 ∧ Counted s t Ev.PLAN_EVT_STATUS_no_plan ∧
      (∀ p ∈ t.map.pins, p.owner ≠ some run) ∧ ((∀ p ∈ s.map.pins, p.owner ≠ some run) → t.phys = m.phys ∧ t.flash = m.flash) ∧
     BlocksKept s t [6, 0x28, 0x29] ∧
     t = { s with regs := t.regs, phys := t.phys, flash := t.flash, runs := t.runs, plan := t.plan, map := t.map,
                  freeCtr := t.freeCtr }) ∧
  (∀ (run : Nat) (e : Nat × Nat) (r : Run) (d : Bytes) (cfg : MapCfg) (base : PlanFrame) (b : PlanBatch) (s : State),
    s.startable run 0x60 = some (r, d) → s.plan.batch = some b → b.run = run → b.tree = false → b.retained = [] →
    s.mapCfg? = some cfg → startBase b.block = some base → stopMail s r b = .error e →
    ∃ t, exec (.planBatch (run, .clean)) s = .next t ∧ t.plan = { s.plan with batch := none } ∧
      (∃ r', t.run? run = some r' ∧ r'.executed = true ∧ r'.opCode = e.1) ∧ BlocksKept s t [6, 0x28, 0x29] ∧
     t = { s with regs := t.regs, phys := t.phys, flash := t.flash, runs := t.runs, plan := t.plan, map := t.map,
                  freeCtr := t.freeCtr }) ∧
  (∀ (run : Nat) (r : Run) (d : Bytes) (s : State), s.startable run 0x60 = some (r, d) →
    s.plan.batch.elim true (fun b => b.run == run) = true →
    ∃ t, exec (.planBatch (run, .external)) s = .next t ∧ t.plan = { s.plan with batch := none } ∧
      (∃ r', t.run? run = some r' ∧ r'.executed = true ∧ r'.opCode = 0x0204) ∧
      t.crust = { s.crust with reports := s.crust.reports ++ [(0x0B, 0)] } ∧
     t = { s with regs := t.regs, phys := t.phys, flash := t.flash, runs := t.runs, plan := t.plan, map := t.map, crust := t.crust,
                  freeCtr := t.freeCtr })

/-- What an operation that ends leaves (R311 to R315): what its solve reaches, or, where its inputs were written meanwhile, free values
(R305). -/
def solvOutcome (s : State) (a : SolvRun) (stop : Option (Nat × Nat)) : SolvResult :=
  let p := s.solvProb ((s.recs 0xC).getD a.setup [])
  if s.phys.watch.any (·.written) then (s.solvUnknown a p).1 else (s.solvResult a p stop).1

/-- True where two ranges do not meet. -/
def apart (a n b m : Nat) : Prop := a + n ≤ b ∨ b + m ≤ a

/-- What the end of an operation writes into SRAM of the Reflex die: its vector x and its result record, where its ranges do not meet,
and its state area, whose contents are the engine's own (R304, R315); every other byte stays. -/
def SolvWrites (s t : State) (r : Bytes) (o : SolvResult) : Prop :=
  (apart (fieldAt r 0x40 4) (4 * o.x.length) (fieldAt r 0x44 4) (solvAreaLen r) →
    apart (fieldAt r 0x48 4) o.record.length (fieldAt r 0x44 4) (solvAreaLen r) →
    apart (fieldAt r 0x40 4) (4 * o.x.length) (fieldAt r 0x48 4) o.record.length →
    t.readDie 0 (fieldAt r 0x40 4) (4 * o.x.length) = vecBytes o.x ∧ t.readDie 0 (fieldAt r 0x48 4) o.record.length = o.record) ∧
  (∀ p, apart p 1 (dieLocal 0 (fieldAt r 0x40 4)) (4 * o.x.length) → apart p 1 (dieLocal 0 (fieldAt r 0x48 4)) o.record.length →
    apart p 1 (dieLocal 0 (fieldAt r 0x44 4)) (solvAreaLen r) → t.byteAt p = s.byteAt p)

/-- R108, R303, R305, R311, R313 to R315 (SOLV_RUN, SOLVER_DEADLINE, FACTOR_BUDGET_EXPIRY): an operation whose matrices are invalid ends
with 0x0611, counted and reported; one that may start runs, until its solve ends it or its deadline does; its end writes its results,
keeps them in its set-up, adds one to the set-up's count and completes its programme's operation with 0; an uncorrectable error ends it
with 0x0204 and writes nothing; a factorisation past its budget is given up and counted.
Where the spec is silent it follows the model's choices and readings of log entries 55 and 56. -/
def Obligations.SolverRuns : Prop :=
  (∀ (run : Nat) (r : Run) (d rec' : Bytes) (s : State), s.startable run 0x70 = some (r, d) → s.solv.active = none →
    rec' = (s.recs 0xC).getD (fieldAt d 1 1 % 16) [] →
    s.matrixOk (fieldAt rec' 0x30 4) (fieldAt rec' 4 2) (fieldAt rec' 8 4) 0 true = false →
    ∃ t, exec (.solvRun (run, .clean)) s = .next t ∧ (∃ r', t.run? run = some r' ∧ r'.executed = true ∧ r'.opCode = 0x0611) ∧
      Counted s t Ev.SOLV_EVT_STATUS_matrix_invalid ∧ t.crust.reports = s.crust.reports ++ [(0x0E, 0)] ∧ t.phys = s.phys ∧
      (t.solvSetup (fieldAt d 1 1 % 16)).count = (s.solvSetup (fieldAt d 1 1 % 16)).count + 1 ∧
     BlocksKept s t [0x2A] ∧ t = { s with regs := t.regs, runs := t.runs, solv := t.solv, crust := t.crust }) ∧
  (∀ (run : Nat) (r : Run) (d rec' : Bytes) (s : State), s.startable run 0x70 = some (r, d) → s.solv.active = none →
    rec' = (s.recs 0xC).getD (fieldAt d 1 1 % 16) [] → bit (fieldAt rec' 1 1) 2 = false →
    s.matrixOk (fieldAt rec' 0x30 4) (fieldAt rec' 4 2) (fieldAt rec' 8 4) 0 true = true →
    ∃ t, exec (.solvRun (run, .clean)) s = .next t ∧ t.run? run = some r ∧ t.flag Fld.SOLV_STATUS_busy = true ∧
      t.fld Fld.SOLV_STATUS_setup = fieldAt d 1 1 % 16 ∧
      (∃ a, t.solv.active = some a ∧ a.run = run ∧ a.setup = fieldAt d 1 1 % 16 ∧ a.start = s.monoNs ∧ a.budgetOut = false) ∧
     RegsKept s t [Reg.SOLV_STATUS] ∧ t = { s with regs := t.regs, phys := t.phys, solv := t.solv, freeCtr := t.freeCtr }) ∧
  (∀ (run : Nat) (r : Run) (d : Bytes) (a : SolvRun) (o : SolvResult) (s : State), s.startable run 0x70 = some (r, d) →
    s.solv.active = some a → a.run = run → s.monoNs ≤ s.solvDeadline a →
    o = solvOutcome s a none →
    ∃ t, exec (.solvRun (run, .clean)) s = .next t ∧ t.solv.active = none ∧ t.flag Fld.SOLV_STATUS_busy = false ∧
      (∃ r', t.run? run = some r' ∧ r'.executed = true ∧ r'.opCode = 0) ∧
      t.solvSetup a.setup = ⟨o.x, o.z, o.y, o.front, o.degraded, true, (s.solvSetup a.setup).count + 1⟩ ∧
      (∀ k, k ≠ a.setup → t.solvSetup k = s.solvSetup k) ∧ t.fld Fld.SOLV_LAST_code = o.code % 2 ^ Fld.SOLV_LAST_code.width ∧
      SolvWrites s t ((s.recs 0xC).getD a.setup []) o ∧
     BlocksKept s t [0x2A] ∧ t = { s with regs := t.regs, phys := t.phys, runs := t.runs, solv := t.solv, freeCtr := t.freeCtr }) ∧
  (∀ (run outer inner : Nat) (r : Run) (d : Bytes) (a : SolvRun) (o : SolvResult) (s : State), s.startable run 0x70 = some (r, d) →
    s.solv.active = some a → a.run = run → s.solvDeadline a ≤ s.monoNs →
    o = solvOutcome s a (some (outer, inner)) →
    ∃ t, exec (.solverDeadline run outer inner) s = .next t ∧ t.solv.active = none ∧ t.flag Fld.SOLV_STATUS_busy = false ∧
      (∃ r', t.run? run = some r' ∧ r'.executed = true ∧ r'.opCode = 0) ∧
      t.solvSetup a.setup = ⟨o.x, o.z, o.y, o.front, o.degraded, true, (s.solvSetup a.setup).count + 1⟩ ∧
      (∀ k, k ≠ a.setup → t.solvSetup k = s.solvSetup k) ∧ t.fld Fld.SOLV_LAST_code = o.code % 2 ^ Fld.SOLV_LAST_code.width ∧
      SolvWrites s t ((s.recs 0xC).getD a.setup []) o ∧
     BlocksKept s t [0x2A] ∧ t = { s with regs := t.regs, phys := t.phys, runs := t.runs, solv := t.solv, freeCtr := t.freeCtr }) ∧
  (∀ (run : Nat) (a : SolvRun) (s : State), s.solv.active = some a → a.run = run → a.refactor = true → a.budgetOut = false →
    a.start + fieldAt ((s.recs 0xC).getD a.setup []) 0x24 4 ≤ s.monoNs →
    ∃ t, exec (.factorBudgetExpiry run) s = .next t ∧ t.solv.active = some { a with budgetOut := true } ∧
      t.flag Fld.SOLV_STATUS_factorising = false ∧ Counted s t Ev.SOLV_EVT_STATUS_fact_late ∧
      t = { s with solv := t.solv, regs := t.regs } ∧
     RegsKept s t (Reg.SOLV_STATUS :: Ev.SOLV_EVT_STATUS_fact_late.regs)) ∧
  (∀ (run : Nat) (r : Run) (d : Bytes) (a : SolvRun) (s : State), s.startable run 0x70 = some (r, d) → s.solv.active = some a →
    a.run = run → s.monoNs ≤ s.solvDeadline a → s.plan.batch = none →
    ∃ t, exec (.solvRun (run, .external)) s = .next t ∧ t.solv = { s.solv with active := none } ∧ t.flag Fld.SOLV_STATUS_busy = false ∧
      (∃ r', t.run? run = some r' ∧ r'.executed = true ∧ r'.opCode = 0x0204) ∧ (∀ p, t.byteAt p = s.byteAt p) ∧
      t.crust = { s.crust with reports := s.crust.reports ++ [(0x0B, 0)] } ∧ RegsKept s t [Reg.SOLV_STATUS] ∧
      t = { s with regs := t.regs, phys := t.phys, runs := t.runs, solv := t.solv, crust := t.crust })

/-! ### Crust: events, stops and safe torque off (chapter 19) -/

/-- R345 to R347 (CRUST_EVENT): the reaction unit takes the report that has waited longest and no other, counts it, records it in
CRUST_EVT_LAST, and latches its level as the level of each of its groups whose level was lower; at level 4 safe torque off is asserted
on every group.
Where the spec is silent it follows the model's choices and readings of log entry 60. -/
def Obligations.CrustEvents : Prop :=
  (∀ (e src : Nat) (xs : List (Nat × Nat)) (s : State), s.crust.reports = (e, src) :: xs → e ≤ 0x16 →
    ∃ t, exec .crustEvent s = .next t ∧ t.crust.reports = xs ∧ Counted s t (Ev.CRUST_EVT_STATUS_evt e) ∧
      (t.reg Reg.CRUST_EVT_LAST).toNat % 256 = e ∧ (t.reg Reg.CRUST_EVT_LAST).toNat / 65536 = src % 65536 ∧
      (∀ g, g < 4 → (3 ≤ s.eventLevel e ∨ g ∈ s.eventGroups e src) → s.eventLevel e ≤ 4 →
        t.fld (Fld.CRUST_GROUP_level g) = max (s.fld (Fld.CRUST_GROUP_level g)) (s.eventLevel e)) ∧
      (∀ g, g < 4 → s.eventLevel e < 3 → g ∉ s.eventGroups e src →
        t.fld (Fld.CRUST_GROUP_level g) = s.fld (Fld.CRUST_GROUP_level g)) ∧
      (s.eventLevel e = 4 → t.allAsserted = true) ∧ (∀ g, s.asserted g = true → t.asserted g = true)) ∧
  (∀ s : State, s.crust.reports = [] → exec .crustEvent s = .next s)

/-- R344 (HEARTBEAT_MISS, CLOCK_MONITOR_TRIP, CRUST_LOCKSTEP_MISMATCH): each asserts safe torque off on every group in hardware, before
any reaction, and reports its event; a clock within 2 % of the frequency set for it, or of a domain that no monitor watches, does nothing.
Where the spec is silent it follows the model's choices and readings of log entry 60. -/
def Obligations.HardwareStops : Prop :=
  (∀ s : State, ∃ t, exec .heartbeatMiss s = .next t ∧ t.allAsserted = true ∧ t.flag Fld.CRUST_STATUS_run = false ∧
    t.crust.reports = s.crust.reports ++ [(0x14, 0)] ∧ (∀ g, g < 4 → t.groupStop g = none) ∧
    t = { s with regs := t.regs, crust := t.crust } ∧
     RegsKept s t [Reg.SIO_STO_STATUS, Reg.CRUST_STATUS, Reg.CRUST_GROUP 0, Reg.CRUST_GROUP 1, Reg.CRUST_GROUP 2, Reg.CRUST_GROUP
       3]) ∧
  (∀ s : State, ∃ t, exec .crustLockstepMismatch s = .next t ∧ t.allAsserted = true ∧ t.flag Fld.CRUST_STATUS_run = false ∧
    t.crust.reports = s.crust.reports ++ [(0x14, 0)] ∧ t = { s with regs := t.regs, crust := t.crust } ∧
     RegsKept s t [Reg.SIO_STO_STATUS, Reg.CRUST_STATUS, Reg.CRUST_GROUP 0, Reg.CRUST_GROUP 1, Reg.CRUST_GROUP 2, Reg.CRUST_GROUP
       3]) ∧
  (∀ (d khz : Nat) (s : State), (d = 0 ∨ d = 8 ∨ d = 12) →
    (98 * s.clock16 d > 1600 * khz ∨ 1600 * khz > 102 * s.clock16 d) →
    ∃ t, exec (.clockMonitorTrip (d, khz)) s = .next t ∧ t.allAsserted = true ∧ t.crust.reports = s.crust.reports ++ [(0x12, 0)] ∧
      t = { s with regs := t.regs, crust := t.crust } ∧
     RegsKept s t [Reg.SIO_STO_STATUS, Reg.CRUST_GROUP 0, Reg.CRUST_GROUP 1, Reg.CRUST_GROUP 2, Reg.CRUST_GROUP 3]) ∧
  (∀ (d khz : Nat) (s : State), ((d ≠ 0 ∧ d ≠ 8 ∧ d ≠ 12) ∨ (98 * s.clock16 d ≤ 1600 * khz ∧ 1600 * khz ≤ 102 * s.clock16 d)) →
    exec (.clockMonitorTrip (d, khz)) s = .next s)

/-- R351, R352, R354 (CMD_EGRESS_CHECK, FALLBACK_BUILD, SS1_RAMP_END): a cycle of which no frame has left is reported as CMD_MISS, and
one of which a frame has left is not; the substitute of a stream that the fallback unit serves is built as the frame of its next cycle, its
records those of `State.substituteRecords`: mode 0 where safe torque off is asserted or the feedback of the joint is not known, the velocity
of the takeover taken down evenly to 0 during the ramp of category 1, and otherwise the position held. At the end of a category-1 ramp, and
not before, safe torque off is asserted on the group.
Where the spec is silent it follows the model's choices and readings of log entry 59. -/
def Obligations.FallbackUnit : Prop :=
  (∀ (i : Nat) (r : Bytes) (x : StreamSt) (s : State), s.streamRec i = some r → streamKind r = 0 → s.stream i = x →
    cycleInstant r x.probe + 4000 ≤ s.now → (∀ j, x.left = some j → j < x.probe) →
    ∃ t, exec (.cmdEgressCheck i) s = .next t ∧
      t.stream i = { x with probe := x.probe + 1, missed := if x.takeover.isSome then none else x.missed <|> some x.probe } ∧
      t.crust.reports = s.crust.reports ++ [(0x01, i)] ∧ t = { s with ports := t.ports, crust := t.crust }) ∧
  (∀ (i j : Nat) (r : Bytes) (x : StreamSt) (s : State), s.streamRec i = some r → streamKind r = 0 → s.stream i = x →
    cycleInstant r x.probe + 4000 ≤ s.now → x.left = some j → x.probe ≤ j →
    ∃ t, exec (.cmdEgressCheck i) s = .next t ∧ t.stream i = { x with probe := x.probe + 1 } ∧ t = { s with ports := t.ports }) ∧
  (∀ (i : Nat) (r : Bytes) (s : State), s.streamRec i = some r → s.now < cycleInstant r (s.stream i).probe + 4000 →
    exec (.cmdEgressCheck i) s = .next s) ∧
  (∀ (i t0 : Nat) (r : Bytes) (x : StreamSt) (s : State), s.streamRec i = some r → s.stream i = x → x.takeover = some t0 →
    cycleInstant r x.next ≤ s.now + 2000 →
    ∃ t, exec (.fallbackBuild i) s = .next t ∧
      (let recs := s.substituteRecords i r (cycleInstant r x.next - t0)
      t.stream i = { recs.2 with built := some (x.next, s.commandFrame r (x.next % 65536) recs.1, true), next := x.next + 1, formed := recs.1 }) ∧
      (∀ j, j ≠ i → t.stream j = s.stream j) ∧ t = { s with ports := t.ports }) ∧
  (∀ (i t0 : Nat) (r : Bytes) (s : State), s.streamRec i = some r → (s.stream i).takeover = some t0 →
    s.now + 2000 < cycleInstant r (s.stream i).next → exec (.fallbackBuild i) s = .next s) ∧
  (∀ (i g port e n joint : Nat) (x : StreamSt) (s : State), (s.asserted g = true ∨ s.feedbackCopy port joint = none) →
    s.substituteRecord i g port e n joint x = (leBytes 1 joint ++ List.replicate 15 0, x)) ∧
  (∀ (i g port e n joint : Nat) (pos vel : Int) (sr : Bytes) (y : GroupStop) (x : StreamSt) (s : State), s.asserted g = false →
    s.feedbackCopy port joint = some (pos, vel) → s.streamSafety i = some sr → s.groupStop g = some y → y.cat = 1 → e < s.ss1Ns g →
    (∀ p ∈ x.ramp, p.1 ≠ n) →
    s.substituteRecord i g port e n joint x =
      (leBytes 1 joint ++ [3, 0, 0] ++ leBytes 4 (ofSigned 32 (divRne (vel * ((s.ss1Ns g : Int) - e)) (s.ss1Ns g))) ++ [0, 0, 0, 0] ++
        leBytes 2 (fieldAt sr 6 2) ++ [0, 0], { x with ramp := x.ramp ++ [(n, vel)] })) ∧
  (∀ (i g port e n joint : Nat) (pos vel : Int) (sr : Bytes) (y : GroupStop) (x : StreamSt) (s : State), s.asserted g = false →
    s.feedbackCopy port joint = some (pos, vel) → s.streamSafety i = some sr → s.groupStop g = some y → (y.cat ≠ 1 ∨ s.ss1Ns g ≤ e) →
    (∀ p ∈ x.parked, p.1 ≠ n) →
    s.substituteRecord i g port e n joint x =
      (leBytes 1 joint ++ [2, 0, 0] ++ leBytes 4 (ofSigned 32 pos) ++ [0, 0, 0, 0] ++ leBytes 2 (fieldAt sr 6 2) ++ [0, 0],
        { x with parked := x.parked ++ [(n, pos)] })) ∧
  (∀ (g : Nat) (x : GroupStop) (s : State), g < 4 → s.groupStop g = some x → x.cat = 1 → x.rampFrom + s.ss1Ns g ≤ s.now →
    ∃ t, exec (.ss1RampEnd g) s = .next t ∧ t.asserted g = true ∧ t.groupStop g = none ∧ (∀ h, s.asserted h = true → t.asserted h = true) ∧
      t = { s with regs := t.regs, crust := t.crust } ∧
     RegsKept s t [Reg.SIO_STO_STATUS, Reg.CRUST_GROUP g]) ∧
  (∀ (g : Nat) (s : State), (∀ x, s.groupStop g = some x → x.cat = 1 → s.now < x.rampFrom + s.ss1Ns g) → exec (.ss1RampEnd g) s = .next s)

/-- R355, R356 (PSF_EVALUATE, PSF_VALIDITY_EXPIRY, PSF_SPEED): a frame that both rings hold with equal masks, the checker's taken with the
lidar's, is trusted and sets the lowest factor of its zones; an untrusted one sets no more than the default factor; the default factor
applies once no frame has been evaluated for psf_valid_ns; a joint above its scaled limit for longer than the grace is reported once.

R358 (STARTER_DIGEST, STARTER_LATE): a starter's output whose SHA-512 begins with the digest of its record raises nothing, one with
another digest raises STARTER_MISMATCH, and a starter that has not ended by its bound, or whose activation was stopped or aborted before its
step issued or before its run ended, raises STARTER_LATE, each once; one that still has time raises nothing.
Where the spec is silent it follows the model's choices and readings of log entry 61. -/
def Obligations.Perception : Prop :=
  (∀ (frame stamp mask : Nat) (g : Bytes) (s : State), s.safetyGlobal = some g → fieldAt g 9 1 ≠ 0 →
    s.psfEntry (fieldAt g 0x20 4) (fieldAt g 0x28 2) frame = some (stamp, mask) →
    (∃ st c, s.psfEntry (fieldAt g 0x24 4) (fieldAt g 0x28 2) frame = some (st, c) ∧ c ||| s.lidarMask (fieldAt g 0x34 4) = mask) →
    fieldAt g 0x30 4 ≤ age (s.now % 2 ^ 32) stamp → s.crust.psf.frames.contains (frame, stamp) = false →
    ∃ t, exec (.psfEvaluate frame) s = .next t ∧ t.flag Fld.CRUST_STATUS_trusted = true ∧ t.crust.psf.factor = s.zoneFactor mask ∧
      t.crust.psf.lastEval = some s.now ∧ t.crust.reports = s.crust.reports ∧
     BlocksKept s t [0x2C] ∧ t = { s with regs := t.regs, phys := t.phys, crust := t.crust }) ∧
  (∀ (frame stamp mask : Nat) (g : Bytes) (s : State), s.safetyGlobal = some g → fieldAt g 9 1 ≠ 0 →
    s.psfEntry (fieldAt g 0x20 4) (fieldAt g 0x28 2) frame = some (stamp, mask) →
    s.psfEntry (fieldAt g 0x24 4) (fieldAt g 0x28 2) frame = none →
    fieldAt g 0x30 4 ≤ age (s.now % 2 ^ 32) stamp → s.crust.psf.frames.contains (frame, stamp) = false →
    ∃ t, exec (.psfEvaluate frame) s = .next t ∧ t.flag Fld.CRUST_STATUS_trusted = false ∧ t.crust.psf.factor ≤ fieldAt g 0x2C 2 ∧
      t.crust.psf.lastEval = some s.now ∧
     BlocksKept s t [0x2C] ∧ t = { s with regs := t.regs, phys := t.phys, crust := t.crust }) ∧
  (∀ (t0 : Nat) (g : Bytes) (s : State), s.safetyGlobal = some g → fieldAt g 9 1 ≠ 0 → s.crust.psf.lastEval = some t0 →
    t0 + fieldAt g 0x34 4 ≤ s.now →
    ∃ t, exec .psfValidityExpiry s = .next t ∧ t.crust.psf.factor = fieldAt g 0x2C 2 ∧ t.crust.psf.lastEval = none ∧
      t.crust.reports = s.crust.reports ∧
     BlocksKept s t [0x2C] ∧ t = { s with regs := t.regs, phys := t.phys, crust := t.crust }) ∧
  (∀ (i n since : Nat) (g : Bytes) (s : State), s.safetyGlobal = some g → (s.stream i).fast.find? (fun p => p.1 == n) = some (n, since, false) →
    since + fieldAt g 0x38 4 < s.now →
    ∃ t, exec (.psfSpeed i n) s = .next t ∧ t.crust.reports = s.crust.reports ++ [(0x07, i)] ∧
      (t.stream i).fast.find? (fun p => p.1 == n) = some (n, since, true) ∧ t = { s with ports := t.ports, crust := t.crust }) ∧
  (∀ (i : Nat) (x : StarterRun) (sr bs : Bytes) (s : State), s.crust.starters[i]? = some x → x.ended.isSome = true → x.digested = false →
    sr = (s.recs 0xE).getD x.index [] → s.readVa (.engine 0) (fieldAt sr 0 1) (fieldAt sr 0x10 8) (fieldAt sr 0xC 4) = .ok bs →
    ∃ t, exec (.starterDigest i) s = .next t ∧
      t.crust.reports = s.crust.reports ++ (if (sha512 bs).take 32 = slice sr 0x20 32 then [] else [(0x08, 0)]) ∧
      t = { s with crust := t.crust }) ∧
  (∀ (i : Nat) (x : StarterRun) (s : State), s.crust.starters[i]? = some x → x.digested = true → exec (.starterDigest i) s = .next s) ∧
  (∀ (i : Nat) (x : StarterRun) (s : State), s.crust.starters[i]? = some x → x.ended = none → x.late = false → x.due < s.now →
    ∃ t, exec (.starterLate i) s = .next t ∧ t.crust.reports = s.crust.reports ++ [(0x09, 0)] ∧ t = { s with crust := t.crust }) ∧
  (∀ (i id : Nat) (x : StarterRun) (s : State), s.crust.starters[i]? = some x → x.ended = none → x.late = false →
    x.run = some id → s.run? id = none →
    ∃ t, exec (.starterLate i) s = .next t ∧ t.crust.reports = s.crust.reports ++ [(0x09, 0)] ∧ t = { s with crust := t.crust }) ∧
  (∀ (i : Nat) (x : StarterRun) (s : State), s.crust.starters[i]? = some x → x.ended = none → x.late = false → x.run = none →
    (∀ a ∈ (s.ctx (fieldAt ((s.recs 0xE).getD x.index []) 0 1)).acts, a.index = x.act → a.start ≠ x.start) →
    ∃ t, exec (.starterLate i) s = .next t ∧ t.crust.reports = s.crust.reports ++ [(0x09, 0)] ∧ t = { s with crust := t.crust }) ∧
  (∀ (i id : Nat) (x : StarterRun) (s : State), s.crust.starters[i]? = some x → x.run = some id → (s.run? id).isSome = true → s.now ≤ x.due →
    exec (.starterLate i) s = .next s) ∧
  (∀ (i : Nat) (x : StarterRun) (s : State), s.crust.starters[i]? = some x → x.late = true → exec (.starterLate i) s = .next s)

/-- R359 to R361 (STO_READBACK_FAULT, ESTOP_OPEN, ESTOP_DISCREPANCY, ESTOP_RESET, SIO_HOLD_WRITE): a readback that differs for more than
1 ms is reported; a channel out of its run state for 2 ms raises ESTOP unless one holds, and one in its run state, open for a normally open ESTOP_B, raises
nothing; a disagreement longer than the bound latches a discrepancy; a
reset with both channels closed for 100 ms and no discrepancy unlatches the stop, and is refused otherwise; a hold bit written 1 asserts
its group at once. No release happens while Crust does not run, or while an emergency stop is latched.

R362 (CRUST_CLEAR): a selected group that may not be cleared keeps its level and sets rejected; one that may be has its level, its
cause and its stop cleared, its streams handed back and its loop slots put to OFF; a global clear takes DEGRADE and every crust_hold away.
Where the spec is silent it follows the model's choices and readings of log entry 60. -/
def Obligations.TorqueOff : Prop :=
  (∀ (x ns : Nat) (s : State), x < 8 → 1000000 < ns →
    ∃ t, exec (.stoReadbackFault x (!s.energised x) ns) s = .next t ∧ t.crust.reports = s.crust.reports ++ [(0x16, 0)] ∧
      (t.fld Fld.SIO_STO_STATUS_readback).testBit x = (!s.energised x) ∧ RegsKept s t [Reg.SIO_STO_STATUS] ∧
      t = { s with regs := t.regs, crust := t.crust }) ∧
  (∀ (c ns : Nat) (closed : Bool) (s : State), c < 2 → 2000000 ≤ ns → s.flag Fld.SIO_CFG_estop_en = true → s.inRun c closed = false →
    s.flag Fld.SIO_STO_STATUS_estop_latched = false → (∀ p ∈ s.crust.reports, p.1 ≠ 0x10) →
    ∃ t, exec (.estopOpen (c, closed) ns) s = .next t ∧ t.crust.reports = s.crust.reports ++ [(0x10, 0)] ∧
      (t.fld Fld.SIO_STO_STATUS_estop).testBit c = false ∧ RegsKept s t [Reg.SIO_STO_STATUS] ∧
      t = { s with regs := t.regs, crust := t.crust }) ∧
  (∀ (c ns : Nat) (closed : Bool) (s : State), s.inRun c closed = true → exec (.estopOpen (c, closed) ns) s = .next s) ∧
  (∀ (closed : Bool) (s : State), s.inRun 0 closed = closed ∧ s.inRun 1 closed = (closed != s.flag Fld.SIO_CFG_estop_type)) ∧
  (∀ (a b : Bool) (ns : Nat) (g : Bytes) (s : State), s.safetyGlobal = some g → s.flag Fld.SIO_CFG_estop_en = true → fieldAt g 4 4 < ns →
    s.inRun 0 a ≠ s.inRun 1 b → s.flag Fld.SIO_STO_STATUS_discrepancy = false →
    ∃ t, exec (.estopDiscrepancy (a, b) ns) s = .next t ∧ t.flag Fld.SIO_STO_STATUS_discrepancy = true ∧
      t.crust.reports = s.crust.reports ++ [(0x16, 0)] ∧ RegsKept s t [Reg.SIO_STO_STATUS] ∧ t = { s with regs := t.regs, crust := t.crust }) ∧
  (∀ (a b : Bool) (ns : Nat) (s : State), s.inRun 0 a = s.inRun 1 b → exec (.estopDiscrepancy (a, b) ns) s = .next s) ∧
  (∀ (who : Requester) (v ns ms : Nat) (closed : Bool) (s : State), s.served who 0 0x2E false = true → 100000000 ≤ ns → 100000000 ≤ ms →
    s.inRun 1 closed = true → s.flag Fld.SIO_STO_STATUS_discrepancy = false →
    ∃ t, exec (.estopReset who v (ns, ms, closed)) s = .next t ∧ t.flag Fld.SIO_STO_STATUS_estop_latched = false ∧
      t.flag Fld.SIO_STO_STATUS_reset_refused = false ∧ (s.flag Fld.CRUST_STATUS_run = false → ∀ g, s.asserted g = true → t.asserted g = true) ∧
     BlocksKept s t [0x2C, 0x2E] ∧ t = { s with regs := t.regs, crust := t.crust }) ∧
  (∀ (who : Requester) (v ns ms : Nat) (closed : Bool) (s : State), s.served who 0 0x2E false = true →
    (ns < 100000000 ∨ ms < 100000000 ∨ s.inRun 1 closed = false ∨ s.flag Fld.SIO_STO_STATUS_discrepancy = true) →
    ∃ t, exec (.estopReset who v (ns, ms, closed)) s = .next t ∧ t.flag Fld.SIO_STO_STATUS_reset_refused = true ∧
      t.flag Fld.SIO_STO_STATUS_estop_latched = s.flag Fld.SIO_STO_STATUS_estop_latched ∧
     BlocksKept s t [0x2C, 0x2E] ∧ t = { s with regs := t.regs, crust := t.crust }) ∧
  (∀ (who : Requester) (v : Nat) (s : State), s.served who 0 0x2E false = true → s.flag Fld.KEY_DEBUG_forced_hold = false →
    ∃ t, exec (.sioHoldWrite who v) s = .next t ∧ t.fld Fld.SIO_STO_CTRL_hold = v % 16 ∧ (∀ g, g < 4 → v.testBit g = true → t.asserted g = true) ∧
      ((s.flag Fld.CRUST_STATUS_run = false ∨ s.flag Fld.SIO_STO_STATUS_estop_latched = true) →
        ∀ g, s.asserted g = true → t.asserted g = true) ∧
     BlocksKept s t [0x2C, 0x2E] ∧ t = { s with regs := t.regs, crust := t.crust }) ∧
  (∀ (who : Requester) (v g : Nat) (s : State), s.served who 0 0x2C false = true → g < 4 → v % 32 = 2 ^ g → s.clearable g = true →
    ∃ t, exec (.crustClear who v) s = .next t ∧ t.fld (Fld.CRUST_GROUP_level g) = 0 ∧ t.fld (Fld.CRUST_GROUP_cause g) = 0 ∧
      t.groupStop g = none ∧ (∀ i ∈ s.groupStreams g, (t.stream i).takeover = none) ∧
      (∀ r ∈ s.recs 0xB, fieldAt r 0xF 1 = g → (t.loopSlot (loopNumber r)).mode = 0 ∧ (t.loopSlot (loopNumber r)).rearm = true) ∧ t.flag Fld.CRUST_CLR_rejected = false ∧
      (∀ h, h < 4 → h ≠ g → t.fld (Fld.CRUST_GROUP_level h) = s.fld (Fld.CRUST_GROUP_level h)) ∧
     BlocksKept s t [0x2C, 0x2E] ∧ t = { s with regs := t.regs, ports := t.ports, loops := t.loops, crust := t.crust }) ∧
  (∀ (who : Requester) (v g : Nat) (s : State), s.served who 0 0x2C false = true → g < 4 → v % 32 = 2 ^ g → s.clearable g = false →
    ∃ t, exec (.crustClear who v) s = .next t ∧ t.flag Fld.CRUST_CLR_rejected = true ∧
      (∀ h, h < 4 → t.fld (Fld.CRUST_GROUP_level h) = s.fld (Fld.CRUST_GROUP_level h)) ∧ t.ports = s.ports ∧
     BlocksKept s t [0x2C, 0x2E] ∧ t = { s with regs := t.regs, crust := t.crust }) ∧
  (∀ (who : Requester) (v : Nat) (s : State), s.served who 0 0x2C false = true → v % 32 = 16 →
    ∃ t, exec (.crustClear who v) s = .next t ∧ t.crust.degrade = false ∧ (∀ k, (t.ctx k).crustHold = false) ∧
      (∀ h, h < 4 → t.fld (Fld.CRUST_GROUP_level h) =
        if s.fld (Fld.CRUST_GROUP_level h) = 1 then 0 else s.fld (Fld.CRUST_GROUP_level h)) ∧
     BlocksKept s t [0x2C, 0x2E] ∧ t = { s with regs := t.regs, phys := t.phys, ctxs := t.ctxs, crust := t.crust })

/-! ### Two-party changes and self-tests (chapters 19 and 20) -/

/-- R363, R364, R396 (CHG_NONCE, CHG_STAGE, CHG_COMMIT, CHG_STAGE_EXPIRY): a nonce begins a change and discards what was staged; a record
whose form fails is answered with 0x0905, one under another nonce with 0x0902, one whose signature fails with 0x0901, and none of them
is staged; a commit with nothing staged or later than 10 s is answered with 0x0904, one by the party that staged with 0x0903, one whose
bytes differ from those staged with one of the codes 0x0901 to 0x0905 (log entry 62: the spec names none), and one whose signature
fails with 0x0901: none of them applies anything. Only a commit with the other party's signature over the same bytes applies the record,
once, whatever its kind.

R364, R396: a TP_WRITE item changes exactly the masked bits of its word; no other register changes.
Where the spec is silent it follows the model's choices and readings of log entry 62. -/
def Obligations.Changes : Prop :=
  (∀ (who : Requester) (s : State), s.served who 0 0x2C false = true →
    ∃ t, exec (.chgNonce who) s = .next t ∧ t.crust.staged = none ∧ t.fld Fld.CRUST_CHG_STATUS_state = 1 ∧
      t.fld Fld.CRUST_CHG_STATUS_code = 0 ∧ t.nonceBytes = leBytes 16 (Config.nonce s.freeCtr).toNat ∧
      t = { s with regs := t.regs, crust := t.crust, freeCtr := s.freeCtr + 1 } ∧
     BlocksKept s t [0x2C]) ∧
  (∀ (who : Requester) (party : Nat) (r : Bytes) (s : State), s.served who 0 0x2C false = true → party < 2 → s.readChange = (r, false) →
    changeFormOk s.boot.keyStates r = true → s.fld Fld.CRUST_CHG_STATUS_state ≠ 0 → slice r 8 16 = s.nonceBytes →
    s.partySigned r party = true →
    ∃ t, exec (.chgStage who party) s = .next t ∧ t.crust.staged = some ⟨r, party, s.monoNs⟩ ∧ t.fld Fld.CRUST_CHG_STATUS_state = 2 ∧
      t.fld Fld.CRUST_CHG_STATUS_code = 0 ∧ RegsKept s t [Reg.CRUST_CHG_CTRL, Reg.CRUST_CHG_STATUS] ∧
      t = { s with regs := t.regs, crust := t.crust }) ∧
  (∀ (who : Requester) (party : Nat) (r : Bytes) (s : State), s.served who 0 0x2C false = true → party < 2 → s.readChange = (r, false) →
    (changeFormOk s.boot.keyStates r = false ∨ s.fld Fld.CRUST_CHG_STATUS_state = 0 ∨ slice r 8 16 ≠ s.nonceBytes ∨
      s.partySigned r party = false) →
    ∃ t, exec (.chgStage who party) s = .next t ∧ t.crust.staged = none ∧ t.fld Fld.CRUST_CHG_STATUS_state = 0 ∧
      t.fld Fld.CRUST_CHG_STATUS_code = (if changeFormOk s.boot.keyStates r = false then 0x0905
        else if s.fld Fld.CRUST_CHG_STATUS_state = 0 ∨ slice r 8 16 ≠ s.nonceBytes then 0x0902 else 0x0901) ∧
      t = { s with regs := t.regs, crust := t.crust } ∧
     RegsKept s t [Reg.CRUST_CHG_CTRL, Reg.CRUST_CHG_STATUS]) ∧
  (∀ (who : Requester) (party : Nat) (s : State), s.served who 0 0x2C false = true → party < 2 →
    (s.crust.staged = none ∨ ∃ c, s.crust.staged = some c ∧ (c.at' + 10000000000 ≤ s.monoNs ∨ c.party = party)) →
    ∃ t, exec (.chgCommit who party) s = .next t ∧ t.crust.staged = none ∧ t.fld Fld.CRUST_CHG_STATUS_state = 0 ∧
      t.fld Fld.CRUST_CHG_STATUS_code =
        (if s.crust.staged.elim true (fun c => decide (c.at' + 10000000000 ≤ s.monoNs)) then 0x0904 else 0x0903) ∧
      RegsKept s t [Reg.CRUST_CHG_CTRL, Reg.CRUST_CHG_STATUS] ∧ t = { s with regs := t.regs, crust := t.crust }) ∧
  (∀ (who : Requester) (party : Nat) (c : StagedChange) (r : Bytes) (s : State), s.served who 0 0x2C false = true → party < 2 →
    s.crust.staged = some c → s.monoNs < c.at' + 10000000000 → c.party = 1 - party → s.readChange = (r, false) →
    chgSigned r = chgSigned c.record → s.partySigned r party = true → fieldAt c.record 5 1 = 3 →
    ∃ t, exec (.chgCommit who party) s = .next t ∧ t.crust.staged = none ∧ t.fld Fld.CRUST_CHG_STATUS_state = 0 ∧
      t.fld Fld.CRUST_CHG_STATUS_code = 0 ∧ t.fld Fld.KEY_DEBUG_scope = fieldAt c.record 0x20 4 % 8 ∧
      t.flag Fld.KEY_DEBUG_forced_hold = true ∧ t.fld Fld.SIO_STO_CTRL_hold = 15 ∧ t.allAsserted = true ∧
      t.boot.unlockEnd = some (s.monoNs + fieldAt c.record 0x24 4 * 1000000000) ∧
     BlocksKept s t [0x2C, 0x2E, 0x30] ∧ t = { s with regs := t.regs, crust := t.crust, boot := t.boot }) ∧
  (∀ (c : StagedChange) (s : State), s.crust.staged = some c → c.at' + 10000000000 ≤ s.monoNs →
    ∃ t, exec .chgStageExpiry s = .next t ∧ t.crust = { s.crust with staged := none } ∧ t.fld Fld.CRUST_CHG_STATUS_state = 0 ∧
      RegsKept s t [Reg.CRUST_CHG_STATUS] ∧ t = { s with regs := t.regs, crust := t.crust }) ∧
  (∀ (who : Requester) (party : Nat) (c : StagedChange) (r : Bytes) (s : State), s.served who 0 0x2C false = true → party < 2 →
    s.crust.staged = some c → s.monoNs < c.at' + 10000000000 → c.party = 1 - party → s.readChange = (r, false) →
    chgSigned r = chgSigned c.record → s.partySigned r party = false →
    ∃ t, exec (.chgCommit who party) s = .next t ∧ t.crust.staged = none ∧ t.fld Fld.CRUST_CHG_STATUS_state = 0 ∧
      t.fld Fld.CRUST_CHG_STATUS_code = 0x0901 ∧ RegsKept s t [Reg.CRUST_CHG_CTRL, Reg.CRUST_CHG_STATUS] ∧
      t = { s with regs := t.regs, crust := t.crust }) ∧
  (∀ (who : Requester) (party : Nat) (c : StagedChange) (r : Bytes) (s : State), s.served who 0 0x2C false = true → party < 2 →
    s.crust.staged = some c → s.monoNs < c.at' + 10000000000 → c.party = 1 - party → s.readChange = (r, false) →
    chgSigned r ≠ chgSigned c.record →
    ∃ t, exec (.chgCommit who party) s = .next t ∧ t.crust.staged = none ∧ t.fld Fld.CRUST_CHG_STATUS_state = 0 ∧
      t.fld Fld.CRUST_CHG_STATUS_code ∈ [0x0901, 0x0902, 0x0903, 0x0904, 0x0905] ∧
      RegsKept s t [Reg.CRUST_CHG_CTRL, Reg.CRUST_CHG_STATUS] ∧
      t = { s with regs := t.regs, crust := t.crust, freeCtr := s.freeCtr + 1 }) ∧
  (∀ (who : Requester) (party : Nat) (c : StagedChange) (r : Bytes) (s : State), s.served who 0 0x2C false = true → party < 2 →
    s.crust.staged = some c → s.monoNs < c.at' + 10000000000 → c.party = 1 - party → s.readChange = (r, false) →
    chgSigned r = chgSigned c.record → s.partySigned r party = true → fieldAt c.record 5 1 = 1 →
    ∃ t, exec (.chgCommit who party) s = .next t ∧ t.crust.staged = none ∧
      (∀ a, a ≠ Reg.CRUST_CHG_CTRL → a ≠ Reg.CRUST_CHG_STATUS →
        t.reg a = ((tpItems c.record).foldl (fun (u : State) x => u.applyTp x) s).reg a) ∧
      ((∀ x ∈ tpItems c.record, fieldAt x 0 4 ≠ Reg.CRUST_CHG_STATUS) →
        t.fld Fld.CRUST_CHG_STATUS_state = 0 ∧ t.fld Fld.CRUST_CHG_STATUS_code = 0) ∧
      t = { s with regs := t.regs, crust := t.crust }) ∧
  (∀ (who : Requester) (party : Nat) (c : StagedChange) (r : Bytes) (s : State), s.served who 0 0x2C false = true → party < 2 →
    s.crust.staged = some c → s.monoNs < c.at' + 10000000000 → c.party = 1 - party → s.readChange = (r, false) →
    chgSigned r = chgSigned c.record → s.partySigned r party = true → fieldAt c.record 5 1 = 2 →
    ∃ t, exec (.chgCommit who party) s = .next t ∧ t.crust.staged = none ∧ t.fld Fld.CRUST_CHG_STATUS_state = 0 ∧
      t.fld Fld.CRUST_CHG_STATUS_code = 0 ∧ t.boot = ((keyItems c.record).foldl (fun (u : State) x => u.applyKey x) s).boot ∧
      BlocksKept s t [0x2C, 0x30] ∧ t = { s with regs := t.regs, crust := t.crust, boot := t.boot }) ∧
  (∀ (s : State) (x : Bytes), (∀ i, i < 32 → ((s.applyTp x).reg (fieldAt x 0 4)).getLsbD i =
      if (fieldAt x 4 4).testBit i then (fieldAt x 8 4).testBit i else (s.reg (fieldAt x 0 4)).getLsbD i) ∧
    RegsKept s (s.applyTp x) [fieldAt x 0 4] ∧ s.applyTp x = { s with regs := (s.applyTp x).regs })

/-- R368 to R373 (PROOF_RUN_ON_DEMAND, PROOF_RUN_COMPLETE, PROOF_FAIL_REPEAT, SELFTEST_SLOT, STO_PULSE_END, ESTOP_TEST_END,
SELFTEST_OVERDUE): a proof run starts only with every group's torque safely off and every resident context quiesced, and is rejected
otherwise; its end marks every present die as done, with the first checker that was not detected, or not on its reporting path, as
failed; a die whose proof failed raises SELFTEST every 1 ms; a test that detects its injection notes a pass, one that does not raises
SELFTEST; the outputs of the groups are pulsed in turn; a test without a pass for 100 ms is overdue, once.
Where the spec is silent it follows the model's choices and readings of log entry 63. -/
def Obligations.SelfTests : Prop :=
  (∀ (who : Requester) (s : State), s.served who 0 0x08 false = true → s.allAsserted = true → s.proofRunning = false →
    (∀ p ∈ s.ctxs, p.2.phase = .resident → s.quiesced p.1 = true) →
    exec (.proofRunOnDemand who) s = .next { s with proofRunning := true }) ∧
  (∀ (who : Requester) (s : State), s.served who 0 0x08 false = true →
    (s.allAsserted = false ∨ s.proofRunning = true ∨ ∃ p ∈ s.ctxs, p.2.phase = .resident ∧ s.quiesced p.1 = false) →
    ∃ t, exec (.proofRunOnDemand who) s = .next t ∧ Counted s t (Ev.INJ_EVT_STATUS_cmd_reject 0) ∧ t = { s with regs := t.regs } ∧
     RegsKept s t (Ev.INJ_EVT_STATUS_cmd_reject 0).regs) ∧
  (∀ (rs : List ProofCheck) (s : State), s.proofRunning = true →
    ∃ t, exec (.proofRunComplete rs) s = .next t ∧ t.proofRunning = false ∧ t.crust.proofOut = none ∧
      (∀ d ∈ s.presentDies, t.flag (Fld.INJ_PROOF_STATUS_done d) = true) ∧
      (∀ d ∈ s.presentDies, (∀ c ∈ rs, c.die = d → c.detected = true ∧ c.reported = true) →
        t.flag (Fld.INJ_PROOF_STATUS_proof_fail d) = s.flag (Fld.INJ_PROOF_STATUS_proof_fail d)) ∧
      t = { s with regs := t.regs, crust := t.crust, proofRunning := false } ∧ { t.crust with proofOut := s.crust.proofOut } = s.crust ∧
     BlocksKept s t [8, 0x2E, 0x108, 0x208, 0x308, 0x408]) ∧
  (∀ (rs : List ProofCheck) (d : Nat) (c : ProofCheck) (s : State), s.proofRunning = true → d ∈ s.presentDies →
    rs.find? (fun x => x.die == d && !(x.detected && x.reported)) = some c → c.id ≠ 0 → c.id < 256 →
    ∃ t, exec (.proofRunComplete rs) s = .next t ∧ t.flag (Fld.INJ_PROOF_STATUS_proof_fail d) = true ∧
      t.fld (Fld.INJ_PROOF_STATUS_first_id d) = c.id ∧ Counted s t (Ev.INJ_EVT_STATUS_proof_fail d)) ∧
  (∀ (d : Nat) (s : State), d ∈ s.presentDies → s.flag (Fld.INJ_PROOF_STATUS_proof_fail d) = true →
    (∀ t0, s.crust.failAt = some t0 → t0 + 1000000 ≤ s.monoNs) →
    ∃ t, exec .proofFailRepeat s = .next t ∧ t.crust = { s.crust with failAt := some s.monoNs, reports := s.crust.reports ++ [(0x11, 0)] } ∧
      (∀ g, t.releasable g = false) ∧ exec .proofFailRepeat t = .next t ∧ t = { s with crust := t.crust }) ∧
  (∀ (g : Nat) (s : State), s.now % 50000000 / 5000000 = 0 → s.flag Fld.CRUST_STATUS_run = true →
    ∃ t, exec (.selftestSlot g true) s = .next t ∧ t.lastPass 0 = s.monoNs ∧ t.crust.reports = s.crust.reports ∧
      t = { s with crust := t.crust }) ∧
  (∀ (g : Nat) (s : State), s.now % 50000000 / 5000000 = 0 → s.flag Fld.CRUST_STATUS_run = true →
    ∃ t, exec (.selftestSlot g false) s = .next t ∧ t.crust.reports = s.crust.reports ++ [(0x11, 0)] ∧
      Counted s t (Ev.INJ_EVT_STATUS_st_fail 0) ∧ t = { s with regs := t.regs, crust := t.crust } ∧
     RegsKept s t (Ev.INJ_EVT_STATUS_st_fail 0).regs) ∧
  (∀ (g : Nat) (s : State), s.now % 50000000 / 5000000 = 5 → s.flag Fld.CRUST_STATUS_run = true →
    s.pulseTurn (s.now / 5000000) = some g → s.crust.pulse = none →
    ∃ t, exec (.selftestSlot g true) s = .next t ∧ t.crust.pulse = some (2 * g, s.monoNs) ∧ t.energised (2 * g) = false ∧
      t.crust.turn = (s.now / 5000000, g + 1) ∧ (∀ h, t.asserted h = s.asserted h) ∧ t = { s with regs := t.regs, crust := t.crust } ∧
     RegsKept s t [Reg.SIO_STO_STATUS]) ∧
  (∀ (x t0 : Nat) (s : State), s.crust.pulse = some (x, t0) → t0 + 200000 ≤ s.monoNs → x < 8 →
    ∃ t, exec (.stoPulseEnd false) s = .next t ∧ t.crust.pulse = none ∧ t.lastPass (4 * (5 + 2 * (x % 2)) + x / 2) = s.monoNs ∧
      t.crust.reports = s.crust.reports ∧ (∀ h, t.asserted h = s.asserted h) ∧ t = { s with regs := t.regs, crust := t.crust } ∧
     RegsKept s t [Reg.SIO_STO_STATUS, Reg.SIO_WIRE x]) ∧
  (∀ (x t0 : Nat) (s : State), s.crust.pulse = some (x, t0) → t0 + 200000 ≤ s.monoNs → x < 8 → s.fld (Fld.SIO_WIRE_cond x) = 0 →
    ∃ t, exec (.stoPulseEnd true) s = .next t ∧ t.crust.pulse = none ∧ t.fld (Fld.SIO_WIRE_cond x) = 4 ∧
      t.flag (Fld.SIO_WIRE_live x) = true ∧ t.crust.reports = s.crust.reports ++ [(0x11, 0)] ∧ Counted s t (Ev.INJ_EVT_STATUS_st_fail 0) ∧
     RegsKept s t (Reg.SIO_STO_STATUS :: Reg.SIO_WIRE x :: Ev.SIO_WIRE_EVT_wire.regs ++ (Ev.INJ_EVT_STATUS_st_fail 0).regs) ∧ t =
       { s with regs := t.regs, crust := t.crust }) ∧
  (∀ (c t0 : Nat) (s : State), s.crust.estopTest = some (c, t0) → t0 + 100000 ≤ s.monoNs → c < 2 →
    ∃ t, exec (.estopTestEnd false) s = .next t ∧ t.crust.estopTest = none ∧ t.lastPass (4 * (6 + 2 * c)) = s.monoNs ∧
      t.crust.reports = s.crust.reports ∧ RegsKept s t [Reg.SIO_WIRE (8 + c)] ∧ t = { s with regs := t.regs, crust := t.crust }) ∧
  (∀ (slot g : Nat) (s : State), s.flag Fld.CRUST_STATUS_run = true → s.intervalRuns slot g = true →
    s.lastPass (4 * slot + g) + 100000000 < s.monoNs → s.crust.overdue.contains (4 * slot + g) = false →
    ∃ t, exec (.selftestOverdue slot g) s = .next t ∧ t.crust.overdue = s.crust.overdue ++ [4 * slot + g] ∧
      t.crust.reports = s.crust.reports ++ [(0x11, 0)] ∧ Counted s t (Ev.INJ_EVT_STATUS_st_fail 0) ∧
      exec (.selftestOverdue slot g) t = .next t ∧
     RegsKept s t (Ev.INJ_EVT_STATUS_st_fail 0).regs ∧ t = { s with regs := t.regs, crust := t.crust })

/-! ### Bring-up, updates, baker cores and attestation (chapters 21 and 22) -/

/-- True where step n has ended with an EXIT_FAIL record of its code, its failure count raised where no image is charged, and the SW reset
that firmware requests (R386). -/
def exitFailed (s t : State) (n code : Nat) : Prop :=
  t.boot.entered = none ∧ t.held ≠ [] ∧ (t.fld Fld.RST_CAUSE_sources).testBit 7 = true ∧
    (s.boot.fw = none → t.failCount n = min (s.failCount n + 1) 255) ∧
    (∀ w, w = fieldAt (s.ramBytes 4 4) 0 4 % 248 → fieldAt (t.ramBytes (0x40 + w * 8) 8) 0 1 = n ∧
      fieldAt (t.ramBytes (0x40 + w * 8) 8) 1 1 = 3 ∧ fieldAt (t.ramBytes (0x40 + w * 8) 8) 4 2 = code)

/-- R384, R386, R402 (BRING_UP, STEP_TIMEOUT, DIE_BRINGUP_REPEAT): a step whose check succeeds completes, and the next step follows; one
that fails, or that exceeds its bound with 0x0C14, ends with an EXIT_FAIL record of its code and requests an SW reset; DONE opens the host
handshake; a die whose repeated step succeeds is in service again, and one whose link does not train stays out.

R386, R392, R393 (BOOT_LOG_CLEAR, BOOT_UPDATE, BOOT_UPDATE_COMPLETE): outside bring-up a clear empties the failure counts, and during
it is rejected; an update of the running slot ends with 0x0C06, one whose staged image fails its check with that code, and no slot is
erased; one that passes erases its slot and runs; a readback that agrees makes the slot preferred and UNCONFIRMED, and one that does not
ends with 0x0C07.
Where the spec is silent it follows the model's choices and readings of log entries 64, 65 and 66. -/
def Obligations.Boot : Prop :=
  (∀ (t0 : Nat) (data : List Nat) (s : State), s.fld Fld.BOOT_STATUS_state = 0 → s.stepDomains s.boot.next = true →
    s.boot.next ≤ 0x0F → s.boot.entered = some (7, false, t0) → s.monoNs - t0 ≤ s.stepBound 7 false * 1000000 →
    ∃ t, exec (.bringUp true data) s = .next t ∧ t.boot.next = 8 ∧ t.boot.entered = none ∧ t.flag (Fld.BKR_STATUS_running 1) = true ∧
      t.held = s.held ∧ t.rst = s.rst) ∧
  (∀ (t0 : Nat) (data : List Nat) (s : State), s.fld Fld.BOOT_STATUS_state = 0 → s.stepDomains s.boot.next = true →
    s.boot.next ≤ 0x0F → s.boot.entered = some (6, false, t0) → s.monoNs - t0 ≤ s.stepBound 6 false * 1000000 →
    ∃ t, exec (.bringUp false data) s = .next t ∧ exitFailed s t 6 0x0C10) ∧
  (∀ (n t0 : Nat) (alt : Bool) (s : State), s.boot.entered = some (n, alt, t0) → 1 ≤ n → n ≤ 0x0F →
    s.stepBound n alt * 1000000 < s.monoNs - t0 →
    ∃ t, exec .stepTimeout s = .next t ∧ exitFailed s t n 0x0C14) ∧
  (∀ (t0 : Nat) (data : List Nat) (s : State), s.fld Fld.BOOT_STATUS_state = 0 → s.stepDomains s.boot.next = true →
    s.boot.next ≤ 0x0F → s.boot.entered = some (0x0F, false, t0) → s.monoNs - t0 ≤ s.stepBound 0x0F false * 1000000 →
    ∃ t, exec (.bringUp true data) s = .next t ∧ t.fld Fld.BOOT_STATUS_state = 1 ∧ t.fld Fld.HQ_DEV_STATE_state = 1) ∧
  (∀ (d mods : Nat) (s : State), (d = 2 ∨ d = 3 ∨ d = 4) → d ∈ s.rst.repeatDies → s.held = [] → s.failCount (d + 9) = 0 →
    s.dieUpCode d mods true = 0 →
    ∃ t, exec (.dieBringupRepeat d mods true) s = .next t ∧ t.diesPresent.testBit d = true ∧ d ∉ t.rst.repeatDies ∧
      t.flag (Fld.BKR_STATUS_running d) = true ∧
     BlocksKept s t [0x22, d * 256 + 7] ∧ t = { s with regs := t.regs, boot := t.boot, rst := t.rst, linkMods := t.linkMods, diesPresent := t.diesPresent }) ∧
  (∀ (d : Nat) (ready : Bool) (s : State), (d = 2 ∨ d = 3 ∨ d = 4) → d ∈ s.rst.repeatDies → s.held = [] → s.failCount (d + 9) = 0 →
    ∃ t, exec (.dieBringupRepeat d 0 ready) s = .next t ∧ t.diesPresent = s.diesPresent ∧ t.linkMods = s.linkMods ∧
      t.fld Fld.BOOT_STATUS_code = 0x0C10 ∧ d ∉ t.rst.repeatDies) ∧
  (∀ (who : Requester) (s : State), s.served who 0 0x2F false = true → s.fld Fld.BOOT_STATUS_state ≠ 0 →
    ∃ t, exec (.bootLogClear who) s = .next t ∧ (∀ n, 1 ≤ n → n ≤ 0x0F → t.failCount n = 0) ∧ t.boot = s.boot ∧ t = { s with regs := t.regs } ∧
     BlocksKept s t [0x22, 0x2F]) ∧
  (∀ (who : Requester) (s : State), s.served who 0 0x2F false = true → s.fld Fld.BOOT_STATUS_state = 0 →
    ∃ t, exec (.bootLogClear who) s = .next t ∧ Counted s t Ev.BOOT_EVT_STATUS_cmd_reject ∧ t = { s with regs := t.regs } ∧
     BlocksKept s t [0x2F]) ∧
  (∀ (who : Requester) (v : Nat) (f : Firmware) (s : State), s.served who 0 0x2F true = true → s.fld Fld.HQ_DEV_STATE_state ≠ 0 →
    s.boot.update = none → s.boot.fw = some f → f.slot = bits v 1 1 →
    ∃ t, exec (.bootUpdate who v) s = .next t ∧ t.fld Fld.BOOT_UPD_STATUS_code = 0x0C06 ∧ t.boot = s.boot ∧
      Counted s t Ev.BOOT_EVT_STATUS_upd_fail ∧ t = { s with regs := t.regs } ∧
     BlocksKept s t [0x2F]) ∧
  (∀ (who : Requester) (v : Nat) (img : Bytes) (s : State), s.served who 0 0x2F true = true → s.fld Fld.HQ_DEV_STATE_state ≠ 0 →
    s.boot.update = none → s.boot.fw = none → s.stagedImage (s.reg64 Reg.BOOT_UPD_ADDR / 64 * 64) = (img, false) →
    ∃ t, exec (.bootUpdate who v) s = .next t ∧
      (fwCheck s.boot.rollback img ≠ 0 → t.fld Fld.BOOT_UPD_STATUS_code = fwCheck s.boot.rollback img ∧ t.boot = s.boot ∧
        Counted s t Ev.BOOT_EVT_STATUS_upd_fail ∧ t = { s with regs := t.regs }) ∧
      (fwCheck s.boot.rollback img = 0 → t.boot = { s.boot.eraseSlot (bits v 1 1) with update := some (bits v 1 1, img) } ∧
        t.flag Fld.BOOT_UPD_STATUS_busy = true ∧ t = { s with regs := t.regs, boot := t.boot })) ∧
  (∀ (slot : Nat) (img : Bytes) (s : State), s.boot.update = some (slot, img) → slot < 2 →
    ∃ t, exec (.bootUpdateComplete true) s = .next t ∧ t.boot.update = none ∧ t.boot.dir.1.preferred = slot ∧
      t.boot.dir.1.state slot = 1 ∧ t.fld Fld.BOOT_UPD_STATUS_code = 0 ∧ t.flag Fld.BOOT_UPD_STATUS_busy = false ∧
      Counted s t Ev.BOOT_EVT_STATUS_upd_done ∧
     BlocksKept s t [0x2F] ∧ t = { s with regs := t.regs, boot := t.boot }) ∧
  (∀ (slot : Nat) (img : Bytes) (s : State), s.boot.update = some (slot, img) →
    ∃ t, exec (.bootUpdateComplete false) s = .next t ∧ t.boot = { s.boot with update := none } ∧
      t.fld Fld.BOOT_UPD_STATUS_code = 0x0C07 ∧ Counted s t Ev.BOOT_EVT_STATUS_upd_fail ∧ t = { s with regs := t.regs, boot := t.boot } ∧
     BlocksKept s t [0x2F])

/-- R389, R390, R398, R401 (BAKER_WATCHDOG_EXPIRY, BAKER_RESTART_COMPLETE, ATTESTATION_QUOTE, DEBUG_UNLOCK_EXPIRY): a core whose watchdog
expires restarts, and READY becomes CONTROL_PLANE_RESTARTING until no core restarts; a fourth expiry within 10 s raises the WDOG source
in place of a restart; a quote samples its fields at its start, and a start while one is being formed changes nothing; it is written
through its window and counted, or ends with 0x0C20; an unlock ends with its duration, and the forced hold stays.
Where the spec is silent it follows the model's choices and readings of log entry 67. -/
def Obligations.BakersAndQuotes : Prop :=
  (∀ (d : Nat) (s : State), d < 5 → s.flag (Fld.BKR_STATUS_running d) = true → s.restartOf d = none → (s.recentExpiries d).length < 3 →
    s.fld Fld.HQ_DEV_STATE_state = 2 →
    ∃ t, exec (.bakerWatchdogExpiry d) s = .next t ∧ t.flag (Fld.BKR_STATUS_running d) = false ∧ t.restartOf d = some s.monoNs ∧
      (t.fld Fld.HQ_DEV_STATE_bkr_restarting).testBit d = true ∧ t.fld Fld.HQ_DEV_STATE_state = 3 ∧
      Counted s t (Ev.BKR_EVT_STATUS_wdog d) ∧ Counted s t Ev.HQ_EVT_STATUS_bkr_restart ∧
      t = { s with regs := t.regs, boot := t.boot, msix := t.msix, msixPending := t.msixPending } ∧
     BlocksKept s t [0x145, d * 256 + 7]) ∧
  (∀ (d : Nat) (s : State), d < 5 → s.flag (Fld.BKR_STATUS_running d) = true → s.restartOf d = none → 3 ≤ (s.recentExpiries d).length →
    ∃ t, exec (.bakerWatchdogExpiry d) s = .next t ∧ t.fld Fld.RST_CAUSE_wdog_die = d ∧ t.restartOf d = none ∧ t.held ≠ []) ∧
  (∀ (d : Nat) (s : State), d < 5 → (s.restartOf d).isSome = true → s.fld Fld.HQ_DEV_STATE_state = 3 →
    s.fld Fld.HQ_DEV_STATE_bkr_restarting = 2 ^ d →
    ∃ t, exec (.bakerRestartComplete d) s = .next t ∧ t.flag (Fld.BKR_STATUS_running d) = true ∧ t.restartOf d = none ∧
      t.fld Fld.HQ_DEV_STATE_bkr_restarting = 0 ∧ t.fld Fld.HQ_DEV_STATE_state = 2 ∧
      t.fld (Fld.BKR_STATUS_restarts d) = (s.fld (Fld.BKR_STATUS_restarts d) + 1) % 65536 ∧ t = { s with regs := t.regs, boot := t.boot } ∧
     BlocksKept s t [0x145, d * 256 + 7]) ∧
  (∀ (who : Requester) (s : State), s.served who 0 0x30 false = true → s.boot.quote = none →
    ∃ t, exec (.attestationQuote who) s = .next t ∧ t.flag Fld.KEY_ATT_STATUS_busy = true ∧
      t.boot = { s.boot with quote := some (s.reg64 Reg.KEY_ATT_ADDR / 64 * 64, s.quoteBody) } ∧
      RegsKept s t [Reg.KEY_ATT_STATUS] ∧ t = { s with regs := t.regs, boot := t.boot }) ∧
  (∀ (who : Requester) (s : State), s.served who 0 0x30 false = true → s.boot.quote.isSome = true →
    exec (.attestationQuote who) s = .next s) ∧
  (∀ (stop : Nat) (s : State), s.boot.unlockEnd = some stop → stop ≤ s.monoNs →
    ∃ t, exec .debugUnlockExpiry s = .next t ∧ t.fld Fld.KEY_DEBUG_scope = 0 ∧ t.boot = { s.boot with unlockEnd := none } ∧
      t.flag Fld.KEY_DEBUG_forced_hold = s.flag Fld.KEY_DEBUG_forced_hold ∧ RegsKept s t [Reg.KEY_DEBUG] ∧
      t = { s with regs := t.regs, boot := t.boot }) ∧
  (∀ (a : Nat) (b : Bytes) (s : State), s.pending = [] → s.boot.quote = some (a, b) → s.proofRunning = false →
    (∀ g, g < 4 → s.tick.groupHeld g s.tick.now = false) → s.bar2WriteOk a 512 = true →
    ∃ t, step s = .next t ∧ t.boot = { s.boot with quote := none, quotes := s.boot.quotes + 1 } ∧
      t.flag Fld.KEY_ATT_STATUS_busy = false ∧ t.fld Fld.KEY_ATT_STATUS_code = 0 ∧
      t.phys = (s.bar2Put a (b ++ ecdsaSign Config.identityKey b ++ List.replicate 92 0)).phys ∧ RegsKept s t [Reg.KEY_ATT_STATUS]) ∧
  (∀ (a : Nat) (b : Bytes) (s : State), s.pending = [] → s.boot.quote = some (a, b) → s.proofRunning = false →
    (∀ g, g < 4 → s.tick.groupHeld g s.tick.now = false) → s.bar2WriteOk a 512 = false →
    ∃ t, step s = .next t ∧ t.boot = { s.boot with quote := none } ∧ t.flag Fld.KEY_ATT_STATUS_busy = false ∧
      t.fld Fld.KEY_ATT_STATUS_code = 0x0C20 ∧ Counted s t Ev.HQ_EVT_STATUS_win_fault ∧ t.phys = s.phys)

/-! ### The memory, and invariants that every step keeps -/

/-- R3, R6 and log entry 4: a range of physical memory reads back what was written to it, every other byte as before; a field that is
written reads as written, and leaves every field of other bits of the register file as it was.
Where the spec is silent it follows the model's choices and readings of log entry 4. -/
def Obligations.ReadAfterWrite : Prop :=
  (∀ (s : State) (a : Nat) (bs : Bytes), (s.writePhys a bs).readPhys a bs.length = bs ∧
    (∀ x, (x < a ∨ a + bs.length ≤ x) → (s.writePhys a bs).byteAt x = s.byteAt x) ∧
    s.writePhys a bs = { s with phys := (s.writePhys a bs).phys }) ∧
  (∀ (s : State) (f : Fld) (v : Nat), f.lo + f.width ≤ 32 → (s.setFld f v).fld f = v % 2 ^ f.width ∧
    RegsKept s (s.setFld f v) [f.addr] ∧
    (∀ g : Fld, g.lo + g.width ≤ 32 → (g.addr ≠ f.addr ∨ g.lo + g.width ≤ f.lo ∨ f.lo + f.width ≤ g.lo) →
      (s.setFld f v).fld g = s.fld g)) ∧
  (∀ (s : State) (e : Evt), e.status ≠ e.counter → e.bit < 32 → Counted s (s.event e) e ∧ RegsKept s (s.event e) e.regs)

/-- Log entry 4: every step keeps physical memory in its canonical form, so that equal memories are equal data.
Where the spec is silent it follows the model's choices and readings of log entry 4. -/
def Obligations.MemoryStaysCanonical : Prop :=
  ∀ s t : State, s.phys.wf = true → step s = .next t → t.phys.wf = true

/-- R419, R420: every step keeps each of the eight rails within its bounds: its points between its lowest permitted point and OPP_15, its
limits at or below OPP_15, and RAIL_AON and RAIL_IO at OPP_15. -/
def Obligations.RailsStayInBounds : Prop :=
  ∀ s t : State, s.railsOk = true → step s = .next t → t.railsOk = true

/-- R419, R420 and log entries 4 and 5: after reset physical memory and the register file are in canonical form, with nothing listed in
memory, every rail is within its bounds, safe torque off is asserted on every group, and no command waits. -/
def Obligations.ResetMeetsInvariants : Prop :=
  State.reset.phys.wf = true ∧ State.reset.phys.cells = [] ∧ State.reset.regsWf = true ∧ State.reset.railsOk = true ∧
    State.reset.allAsserted = true ∧ State.reset.pending = []
end

