-- ==== Sys2Proof/Laws/Sparse.lean ====
section
/-! SUPPORT. The laws of sparse tables: a read after a write, and the canonical form that every write keeps. -/

namespace Sys2Proof.Machine.Sparse

variable {α : Type} {d : Nat → α} {m : Sparse α} {j k : Nat} {v : α}

theorem get_erase_same : get d (erase k m) k = d k := by
  induction m with
  | nil => rfl
  | cons p t ih =>
    simp only [erase]
    split
    · exact ih
    · next h => simp [get, h, ih]

theorem get_erase_ne (h : j ≠ k) : get d (erase k m) j = get d m j := by
  induction m with
  | nil => rfl
  | cons p t ih =>
    simp only [erase]
    split
    · next e => subst e; simp [get, Ne.symm h, ih]
    · simp [get, ih]

theorem get_insertSorted_ne (h : j ≠ k) : get d (insertSorted k v m) j = get d m j := by
  induction m with
  | nil => simp [insertSorted, get, Ne.symm h]
  | cons p t ih =>
    simp only [insertSorted]
    split
    · simp [get, Ne.symm h]
    · simp [get, ih]

theorem get_insertSorted_erase : get d (insertSorted k v (erase k m)) k = v := by
  induction m with
  | nil => simp [erase, insertSorted, get]
  | cons p t ih =>
    simp only [erase]
    split
    · exact ih
    · next h =>
      simp only [insertSorted]
      split
      · simp [get]
      · simp [get, h, ih]

/-- A read after a write to the same key gives the value written. -/
@[simp] theorem get_put_same [DecidableEq α] : get d (put d m k v) k = v := by
  unfold put
  split
  · next h => rw [get_erase_same, h]
  · exact get_insertSorted_erase

/-- A write leaves every other key alone. -/
theorem get_put_ne [DecidableEq α] (h : j ≠ k) : get d (put d m k v) j = get d m j := by
  unfold put
  split
  · exact get_erase_ne h
  · rw [get_insertSorted_ne h, get_erase_ne h]

/-- What a table reads as after a write, at any key. -/
theorem get_put [DecidableEq α] : get d (put d m k v) j = if j = k then v else get d m j := by
  split
  · next h => subst h; exact get_put_same
  · next h => exact get_put_ne h

theorem mem_erase {p : Nat × α} (h : p ∈ erase k m) : p ∈ m := by
  induction m with
  | nil => cases h
  | cons q t ih =>
    simp only [erase] at h
    split at h
    · exact List.mem_cons_of_mem _ (ih h)
    · rcases List.mem_cons.1 h with rfl | h
      · exact List.mem_cons_self
      · exact List.mem_cons_of_mem _ (ih h)

theorem mem_insertSorted {p : Nat × α} (h : p ∈ insertSorted k v m) : p = (k, v) ∨ p ∈ m := by
  induction m with
  | nil => exact Or.inl (List.mem_singleton.1 h)
  | cons q t ih =>
    simp only [insertSorted] at h
    split at h
    · rcases List.mem_cons.1 h with h | h
      · exact Or.inl h
      · exact Or.inr h
    · rcases List.mem_cons.1 h with rfl | h
      · exact Or.inr List.mem_cons_self
      · exact (ih h).imp id (List.mem_cons_of_mem _)

theorem key_ne_of_mem_erase {p : Nat × α} (h : p ∈ erase k m) : p.1 ≠ k := by
  induction m with
  | nil => cases h
  | cons q t ih =>
    simp only [erase] at h
    split at h
    · exact ih h
    · next e =>
      rcases List.mem_cons.1 h with rfl | h
      · exact e
      · exact ih h

/-- The canonical form in words: the entry in front has the lowest key and a value of its own, and the rest is canonical. -/
theorem wf_cons [DecidableEq α] {w : α} :
    wf d ((j, w) :: m) = true ↔ w ≠ d j ∧ (∀ p ∈ m, j < p.1) ∧ wf d m = true := by
  simp [wf, and_assoc]

theorem wf_erase [DecidableEq α] (h : wf d m = true) : wf d (erase k m) = true := by
  induction m with
  | nil => rfl
  | cons p t ih =>
    obtain ⟨h1, h2, h3⟩ := wf_cons.1 h
    simp only [erase]
    split
    · exact ih h3
    · exact wf_cons.2 ⟨h1, fun q hq => h2 q (mem_erase hq), ih h3⟩

theorem wf_insertSorted [DecidableEq α] (h : wf d m = true) (hk : ∀ p ∈ m, p.1 ≠ k) (hv : v ≠ d k) :
    wf d (insertSorted k v m) = true := by
  induction m with
  | nil => simp [insertSorted, wf, hv]
  | cons p t ih =>
    obtain ⟨h1, h2, h3⟩ := wf_cons.1 h
    have hp : p.1 ≠ k := hk p List.mem_cons_self
    simp only [insertSorted]
    split
    · next lt =>
      refine wf_cons.2 ⟨hv, fun q hq => ?_, h⟩
      rcases List.mem_cons.1 hq with rfl | hq
      · exact lt
      · exact Nat.lt_trans lt (h2 q hq)
    · next ge =>
      refine wf_cons.2 ⟨h1, fun q hq => ?_, ih h3 (fun q hq => hk q (List.mem_cons_of_mem _ hq))⟩
      rcases mem_insertSorted hq with rfl | hq
      · exact Nat.lt_of_le_of_ne (Nat.le_of_not_lt ge) hp
      · exact h2 q hq

/-- A write keeps the canonical form. -/
theorem wf_put [DecidableEq α] (h : wf d m = true) : wf d (put d m k v) = true := by
  unfold put
  split
  · exact wf_erase h
  · next hv => exact wf_insertSorted (wf_erase h) (fun p hp => key_ne_of_mem_erase hp) hv

theorem wf_filter [DecidableEq α] {f : Nat × α → Bool} (h : wf d m = true) : wf d (m.filter f) = true := by
  induction m with
  | nil => rfl
  | cons p t ih =>
    obtain ⟨h1, h2, h3⟩ := wf_cons.1 h
    simp only [List.filter_cons]
    split
    · exact wf_cons.2 ⟨h1, fun q hq => h2 q (List.mem_of_mem_filter hq), ih h3⟩
    · exact ih h3

end Sys2Proof.Machine.Sparse
end

