-- ==== Sys2Proof/Laws/State.lean ====
section
/-! SUPPORT. What each update of the state leaves as it was, one lemma for each field, and what it writes. -/

namespace Sys2Proof.Machine

/-- A field written changes the register file alone. -/
theorem State.setFld_regs_only (s : State) (f : Fld) (v : Nat) :
    s.setFld f v = { s with regs := (s.setFld f v).regs } := by unfold State.setFld; split <;> rfl

/-- A conditional event changes the register file alone. -/
theorem State.eventIf_regs_only (s : State) (c : Bool) (e : Evt) :
    s.eventIf c e = { s with regs := (s.eventIf c e).regs } := by cases c <;> rfl

/-- A host-interface event changes the register file, the vectors raised and the pending bits alone. -/
theorem State.hqEvent_only (s : State) (e : Evt) :
    s.hqEvent e = { s with regs := (s.hqEvent e).regs, msix := (s.hqEvent e).msix, msixPending := (s.hqEvent e).msixPending } := by
  unfold State.hqEvent; dsimp only; split <;> rfl

@[simp] theorem State.setReg_pending (s : State) (a : Nat) (v : Word) : (s.setReg a v).pending = s.pending := rfl
@[simp] theorem State.setReg_freeCtr (s : State) (a : Nat) (v : Word) : (s.setReg a v).freeCtr = s.freeCtr := rfl
@[simp] theorem State.setReg_answer (s : State) (a : Nat) (v : Word) : (s.setReg a v).answer = s.answer := rfl
@[simp] theorem State.setReg_latches (s : State) (a : Nat) (v : Word) : (s.setReg a v).latches = s.latches := rfl
@[simp] theorem State.setReg_staged (s : State) (a : Nat) (v : Word) : (s.setReg a v).staged = s.staged := rfl
@[simp] theorem State.setReg_phys (s : State) (a : Nat) (v : Word) : (s.setReg a v).phys = s.phys := rfl
@[simp] theorem State.setReg_hostMem (s : State) (a : Nat) (v : Word) : (s.setReg a v).hostMem = s.hostMem := rfl
@[simp] theorem State.setReg_devTime (s : State) (a : Nat) (v : Word) : (s.setReg a v).devTime = s.devTime := rfl
@[simp] theorem State.setReg_mono (s : State) (a : Nat) (v : Word) : (s.setReg a v).mono = s.mono := rfl
@[simp] theorem State.setReg_layout (s : State) (a : Nat) (v : Word) : (s.setReg a v).layout = s.layout := rfl
@[simp] theorem State.setReg_safetyDigest (s : State) (a : Nat) (v : Word) : (s.setReg a v).safetyDigest = s.safetyDigest := rfl
@[simp] theorem State.setReg_load (s : State) (a : Nat) (v : Word) : (s.setReg a v).load = s.load := rfl
@[simp] theorem State.setReg_ctxs (s : State) (a : Nat) (v : Word) : (s.setReg a v).ctxs = s.ctxs := rfl
@[simp] theorem State.setReg_queues (s : State) (a : Nat) (v : Word) : (s.setReg a v).queues = s.queues := rfl
@[simp] theorem State.setReg_invs (s : State) (a : Nat) (v : Word) : (s.setReg a v).invs = s.invs := rfl
@[simp] theorem State.setReg_runs (s : State) (a : Nat) (v : Word) : (s.setReg a v).runs = s.runs := rfl
@[simp] theorem State.setReg_nextRun (s : State) (a : Nat) (v : Word) : (s.setReg a v).nextRun = s.nextRun := rfl
@[simp] theorem State.setReg_syncs (s : State) (a : Nat) (v : Word) : (s.setReg a v).syncs = s.syncs := rfl
@[simp] theorem State.setReg_msix (s : State) (a : Nat) (v : Word) : (s.setReg a v).msix = s.msix := rfl
@[simp] theorem State.setReg_msixTable (s : State) (a : Nat) (v : Word) : (s.setReg a v).msixTable = s.msixTable := rfl
@[simp] theorem State.setReg_msixPending (s : State) (a : Nat) (v : Word) : (s.setReg a v).msixPending = s.msixPending := rfl
@[simp] theorem State.setReg_endpoint (s : State) (a : Nat) (v : Word) : (s.setReg a v).endpoint = s.endpoint := rfl
@[simp] theorem State.setReg_proposal (s : State) (a : Nat) (v : Word) : (s.setReg a v).proposal = s.proposal := rfl
@[simp] theorem State.setReg_maps (s : State) (a : Nat) (v : Word) : (s.setReg a v).maps = s.maps := rfl
@[simp] theorem State.setReg_seqLinks (s : State) (a : Nat) (v : Word) : (s.setReg a v).seqLinks = s.seqLinks := rfl
@[simp] theorem State.setReg_nextAlloc (s : State) (a : Nat) (v : Word) : (s.setReg a v).nextAlloc = s.nextAlloc := rfl
@[simp] theorem State.setReg_tierPending (s : State) (a : Nat) (v : Word) : (s.setReg a v).tierPending = s.tierPending := rfl
@[simp] theorem State.setReg_flash (s : State) (a : Nat) (v : Word) : (s.setReg a v).flash = s.flash := rfl
@[simp] theorem State.setReg_kv (s : State) (a : Nat) (v : Word) : (s.setReg a v).kv = s.kv := rfl
@[simp] theorem State.setReg_kvPages (s : State) (a : Nat) (v : Word) : (s.setReg a v).kvPages = s.kvPages := rfl
@[simp] theorem State.setReg_kvPending (s : State) (a : Nat) (v : Word) : (s.setReg a v).kvPending = s.kvPending := rfl
@[simp] theorem State.setReg_kvTouched (s : State) (a : Nat) (v : Word) : (s.setReg a v).kvTouched = s.kvTouched := rfl
@[simp] theorem State.setReg_seqSlots (s : State) (a : Nat) (v : Word) : (s.setReg a v).seqSlots = s.seqSlots := rfl
@[simp] theorem State.setReg_seqTags (s : State) (a : Nat) (v : Word) : (s.setReg a v).seqTags = s.seqTags := rfl
@[simp] theorem State.setReg_seqCmds (s : State) (a : Nat) (v : Word) : (s.setReg a v).seqCmds = s.seqCmds := rfl
@[simp] theorem State.setReg_dieSkew (s : State) (a : Nat) (v : Word) : (s.setReg a v).dieSkew = s.dieSkew := rfl
@[simp] theorem State.setReg_dieLag (s : State) (a : Nat) (v : Word) : (s.setReg a v).dieLag = s.dieLag := rfl
@[simp] theorem State.setReg_tlb (s : State) (a : Nat) (v : Word) : (s.setReg a v).tlb = s.tlb := rfl
@[simp] theorem State.setReg_requests (s : State) (a : Nat) (v : Word) : (s.setReg a v).requests = s.requests := rfl
@[simp] theorem State.setReg_nextReq (s : State) (a : Nat) (v : Word) : (s.setReg a v).nextReq = s.nextReq := rfl
@[simp] theorem State.setReg_windows (s : State) (a : Nat) (v : Word) : (s.setReg a v).windows = s.windows := rfl
@[simp] theorem State.setReg_ports (s : State) (a : Nat) (v : Word) : (s.setReg a v).ports = s.ports := rfl
@[simp] theorem State.setReg_loops (s : State) (a : Nat) (v : Word) : (s.setReg a v).loops = s.loops := rfl
@[simp] theorem State.setReg_crust (s : State) (a : Nat) (v : Word) : (s.setReg a v).crust = s.crust := rfl
@[simp] theorem State.setReg_map (s : State) (a : Nat) (v : Word) : (s.setReg a v).map = s.map := rfl
@[simp] theorem State.setReg_fusion (s : State) (a : Nat) (v : Word) : (s.setReg a v).fusion = s.fusion := rfl
@[simp] theorem State.setReg_plan (s : State) (a : Nat) (v : Word) : (s.setReg a v).plan = s.plan := rfl
@[simp] theorem State.setReg_solv (s : State) (a : Nat) (v : Word) : (s.setReg a v).solv = s.solv := rfl
@[simp] theorem State.setReg_diesPresent (s : State) (a : Nat) (v : Word) : (s.setReg a v).diesPresent = s.diesPresent := rfl
@[simp] theorem State.setReg_linkMods (s : State) (a : Nat) (v : Word) : (s.setReg a v).linkMods = s.linkMods := rfl
@[simp] theorem State.setReg_held (s : State) (a : Nat) (v : Word) : (s.setReg a v).held = s.held := rfl
@[simp] theorem State.setReg_proofRunning (s : State) (a : Nat) (v : Word) : (s.setReg a v).proofRunning = s.proofRunning := rfl
@[simp] theorem State.setReg_rails (s : State) (a : Nat) (v : Word) : (s.setReg a v).rails = s.rails := rfl
@[simp] theorem State.setReg_power (s : State) (a : Nat) (v : Word) : (s.setReg a v).power = s.power := rfl
@[simp] theorem State.setReg_rst (s : State) (a : Nat) (v : Word) : (s.setReg a v).rst = s.rst := rfl
@[simp] theorem State.setReg_boot (s : State) (a : Nat) (v : Word) : (s.setReg a v).boot = s.boot := rfl

@[simp] theorem State.setReg64_pending (s : State) (a v : Nat) : (s.setReg64 a v).pending = s.pending := rfl
@[simp] theorem State.setReg64_freeCtr (s : State) (a v : Nat) : (s.setReg64 a v).freeCtr = s.freeCtr := rfl
@[simp] theorem State.setReg64_answer (s : State) (a v : Nat) : (s.setReg64 a v).answer = s.answer := rfl
@[simp] theorem State.setReg64_latches (s : State) (a v : Nat) : (s.setReg64 a v).latches = s.latches := rfl
@[simp] theorem State.setReg64_staged (s : State) (a v : Nat) : (s.setReg64 a v).staged = s.staged := rfl
@[simp] theorem State.setReg64_phys (s : State) (a v : Nat) : (s.setReg64 a v).phys = s.phys := rfl
@[simp] theorem State.setReg64_hostMem (s : State) (a v : Nat) : (s.setReg64 a v).hostMem = s.hostMem := rfl
@[simp] theorem State.setReg64_devTime (s : State) (a v : Nat) : (s.setReg64 a v).devTime = s.devTime := rfl
@[simp] theorem State.setReg64_mono (s : State) (a v : Nat) : (s.setReg64 a v).mono = s.mono := rfl
@[simp] theorem State.setReg64_layout (s : State) (a v : Nat) : (s.setReg64 a v).layout = s.layout := rfl
@[simp] theorem State.setReg64_safetyDigest (s : State) (a v : Nat) : (s.setReg64 a v).safetyDigest = s.safetyDigest := rfl
@[simp] theorem State.setReg64_load (s : State) (a v : Nat) : (s.setReg64 a v).load = s.load := rfl
@[simp] theorem State.setReg64_ctxs (s : State) (a v : Nat) : (s.setReg64 a v).ctxs = s.ctxs := rfl
@[simp] theorem State.setReg64_queues (s : State) (a v : Nat) : (s.setReg64 a v).queues = s.queues := rfl
@[simp] theorem State.setReg64_invs (s : State) (a v : Nat) : (s.setReg64 a v).invs = s.invs := rfl
@[simp] theorem State.setReg64_runs (s : State) (a v : Nat) : (s.setReg64 a v).runs = s.runs := rfl
@[simp] theorem State.setReg64_nextRun (s : State) (a v : Nat) : (s.setReg64 a v).nextRun = s.nextRun := rfl
@[simp] theorem State.setReg64_syncs (s : State) (a v : Nat) : (s.setReg64 a v).syncs = s.syncs := rfl
@[simp] theorem State.setReg64_msix (s : State) (a v : Nat) : (s.setReg64 a v).msix = s.msix := rfl
@[simp] theorem State.setReg64_msixTable (s : State) (a v : Nat) : (s.setReg64 a v).msixTable = s.msixTable := rfl
@[simp] theorem State.setReg64_msixPending (s : State) (a v : Nat) : (s.setReg64 a v).msixPending = s.msixPending := rfl
@[simp] theorem State.setReg64_endpoint (s : State) (a v : Nat) : (s.setReg64 a v).endpoint = s.endpoint := rfl
@[simp] theorem State.setReg64_proposal (s : State) (a v : Nat) : (s.setReg64 a v).proposal = s.proposal := rfl
@[simp] theorem State.setReg64_maps (s : State) (a v : Nat) : (s.setReg64 a v).maps = s.maps := rfl
@[simp] theorem State.setReg64_seqLinks (s : State) (a v : Nat) : (s.setReg64 a v).seqLinks = s.seqLinks := rfl
@[simp] theorem State.setReg64_nextAlloc (s : State) (a v : Nat) : (s.setReg64 a v).nextAlloc = s.nextAlloc := rfl
@[simp] theorem State.setReg64_tierPending (s : State) (a v : Nat) : (s.setReg64 a v).tierPending = s.tierPending := rfl
@[simp] theorem State.setReg64_flash (s : State) (a v : Nat) : (s.setReg64 a v).flash = s.flash := rfl
@[simp] theorem State.setReg64_kv (s : State) (a v : Nat) : (s.setReg64 a v).kv = s.kv := rfl
@[simp] theorem State.setReg64_kvPages (s : State) (a v : Nat) : (s.setReg64 a v).kvPages = s.kvPages := rfl
@[simp] theorem State.setReg64_kvPending (s : State) (a v : Nat) : (s.setReg64 a v).kvPending = s.kvPending := rfl
@[simp] theorem State.setReg64_kvTouched (s : State) (a v : Nat) : (s.setReg64 a v).kvTouched = s.kvTouched := rfl
@[simp] theorem State.setReg64_seqSlots (s : State) (a v : Nat) : (s.setReg64 a v).seqSlots = s.seqSlots := rfl
@[simp] theorem State.setReg64_seqTags (s : State) (a v : Nat) : (s.setReg64 a v).seqTags = s.seqTags := rfl
@[simp] theorem State.setReg64_seqCmds (s : State) (a v : Nat) : (s.setReg64 a v).seqCmds = s.seqCmds := rfl
@[simp] theorem State.setReg64_dieSkew (s : State) (a v : Nat) : (s.setReg64 a v).dieSkew = s.dieSkew := rfl
@[simp] theorem State.setReg64_dieLag (s : State) (a v : Nat) : (s.setReg64 a v).dieLag = s.dieLag := rfl
@[simp] theorem State.setReg64_tlb (s : State) (a v : Nat) : (s.setReg64 a v).tlb = s.tlb := rfl
@[simp] theorem State.setReg64_requests (s : State) (a v : Nat) : (s.setReg64 a v).requests = s.requests := rfl
@[simp] theorem State.setReg64_nextReq (s : State) (a v : Nat) : (s.setReg64 a v).nextReq = s.nextReq := rfl
@[simp] theorem State.setReg64_windows (s : State) (a v : Nat) : (s.setReg64 a v).windows = s.windows := rfl
@[simp] theorem State.setReg64_ports (s : State) (a v : Nat) : (s.setReg64 a v).ports = s.ports := rfl
@[simp] theorem State.setReg64_loops (s : State) (a v : Nat) : (s.setReg64 a v).loops = s.loops := rfl
@[simp] theorem State.setReg64_crust (s : State) (a v : Nat) : (s.setReg64 a v).crust = s.crust := rfl
@[simp] theorem State.setReg64_map (s : State) (a v : Nat) : (s.setReg64 a v).map = s.map := rfl
@[simp] theorem State.setReg64_fusion (s : State) (a v : Nat) : (s.setReg64 a v).fusion = s.fusion := rfl
@[simp] theorem State.setReg64_plan (s : State) (a v : Nat) : (s.setReg64 a v).plan = s.plan := rfl
@[simp] theorem State.setReg64_solv (s : State) (a v : Nat) : (s.setReg64 a v).solv = s.solv := rfl
@[simp] theorem State.setReg64_diesPresent (s : State) (a v : Nat) : (s.setReg64 a v).diesPresent = s.diesPresent := rfl
@[simp] theorem State.setReg64_linkMods (s : State) (a v : Nat) : (s.setReg64 a v).linkMods = s.linkMods := rfl
@[simp] theorem State.setReg64_held (s : State) (a v : Nat) : (s.setReg64 a v).held = s.held := rfl
@[simp] theorem State.setReg64_proofRunning (s : State) (a v : Nat) : (s.setReg64 a v).proofRunning = s.proofRunning := rfl
@[simp] theorem State.setReg64_rails (s : State) (a v : Nat) : (s.setReg64 a v).rails = s.rails := rfl
@[simp] theorem State.setReg64_power (s : State) (a v : Nat) : (s.setReg64 a v).power = s.power := rfl
@[simp] theorem State.setReg64_rst (s : State) (a v : Nat) : (s.setReg64 a v).rst = s.rst := rfl
@[simp] theorem State.setReg64_boot (s : State) (a v : Nat) : (s.setReg64 a v).boot = s.boot := rfl

@[simp] theorem State.setFld_pending (s : State) (f : Fld) (v : Nat) : (s.setFld f v).pending = s.pending := (congrArg State.pending (s.setFld_regs_only f v)).trans rfl
@[simp] theorem State.setFld_freeCtr (s : State) (f : Fld) (v : Nat) : (s.setFld f v).freeCtr = s.freeCtr := (congrArg State.freeCtr (s.setFld_regs_only f v)).trans rfl
@[simp] theorem State.setFld_answer (s : State) (f : Fld) (v : Nat) : (s.setFld f v).answer = s.answer := (congrArg State.answer (s.setFld_regs_only f v)).trans rfl
@[simp] theorem State.setFld_latches (s : State) (f : Fld) (v : Nat) : (s.setFld f v).latches = s.latches := (congrArg State.latches (s.setFld_regs_only f v)).trans rfl
@[simp] theorem State.setFld_staged (s : State) (f : Fld) (v : Nat) : (s.setFld f v).staged = s.staged := (congrArg State.staged (s.setFld_regs_only f v)).trans rfl
@[simp] theorem State.setFld_phys (s : State) (f : Fld) (v : Nat) : (s.setFld f v).phys = s.phys := (congrArg State.phys (s.setFld_regs_only f v)).trans rfl
@[simp] theorem State.setFld_hostMem (s : State) (f : Fld) (v : Nat) : (s.setFld f v).hostMem = s.hostMem := (congrArg State.hostMem (s.setFld_regs_only f v)).trans rfl
@[simp] theorem State.setFld_devTime (s : State) (f : Fld) (v : Nat) : (s.setFld f v).devTime = s.devTime := (congrArg State.devTime (s.setFld_regs_only f v)).trans rfl
@[simp] theorem State.setFld_mono (s : State) (f : Fld) (v : Nat) : (s.setFld f v).mono = s.mono := (congrArg State.mono (s.setFld_regs_only f v)).trans rfl
@[simp] theorem State.setFld_layout (s : State) (f : Fld) (v : Nat) : (s.setFld f v).layout = s.layout := (congrArg State.layout (s.setFld_regs_only f v)).trans rfl
@[simp] theorem State.setFld_safetyDigest (s : State) (f : Fld) (v : Nat) : (s.setFld f v).safetyDigest = s.safetyDigest := (congrArg State.safetyDigest (s.setFld_regs_only f v)).trans rfl
@[simp] theorem State.setFld_load (s : State) (f : Fld) (v : Nat) : (s.setFld f v).load = s.load := (congrArg State.load (s.setFld_regs_only f v)).trans rfl
@[simp] theorem State.setFld_ctxs (s : State) (f : Fld) (v : Nat) : (s.setFld f v).ctxs = s.ctxs := (congrArg State.ctxs (s.setFld_regs_only f v)).trans rfl
@[simp] theorem State.setFld_queues (s : State) (f : Fld) (v : Nat) : (s.setFld f v).queues = s.queues := (congrArg State.queues (s.setFld_regs_only f v)).trans rfl
@[simp] theorem State.setFld_invs (s : State) (f : Fld) (v : Nat) : (s.setFld f v).invs = s.invs := (congrArg State.invs (s.setFld_regs_only f v)).trans rfl
@[simp] theorem State.setFld_runs (s : State) (f : Fld) (v : Nat) : (s.setFld f v).runs = s.runs := (congrArg State.runs (s.setFld_regs_only f v)).trans rfl
@[simp] theorem State.setFld_nextRun (s : State) (f : Fld) (v : Nat) : (s.setFld f v).nextRun = s.nextRun := (congrArg State.nextRun (s.setFld_regs_only f v)).trans rfl
@[simp] theorem State.setFld_syncs (s : State) (f : Fld) (v : Nat) : (s.setFld f v).syncs = s.syncs := (congrArg State.syncs (s.setFld_regs_only f v)).trans rfl
@[simp] theorem State.setFld_msix (s : State) (f : Fld) (v : Nat) : (s.setFld f v).msix = s.msix := (congrArg State.msix (s.setFld_regs_only f v)).trans rfl
@[simp] theorem State.setFld_msixTable (s : State) (f : Fld) (v : Nat) : (s.setFld f v).msixTable = s.msixTable := (congrArg State.msixTable (s.setFld_regs_only f v)).trans rfl
@[simp] theorem State.setFld_msixPending (s : State) (f : Fld) (v : Nat) : (s.setFld f v).msixPending = s.msixPending := (congrArg State.msixPending (s.setFld_regs_only f v)).trans rfl
@[simp] theorem State.setFld_endpoint (s : State) (f : Fld) (v : Nat) : (s.setFld f v).endpoint = s.endpoint := (congrArg State.endpoint (s.setFld_regs_only f v)).trans rfl
@[simp] theorem State.setFld_proposal (s : State) (f : Fld) (v : Nat) : (s.setFld f v).proposal = s.proposal := (congrArg State.proposal (s.setFld_regs_only f v)).trans rfl
@[simp] theorem State.setFld_maps (s : State) (f : Fld) (v : Nat) : (s.setFld f v).maps = s.maps := (congrArg State.maps (s.setFld_regs_only f v)).trans rfl
@[simp] theorem State.setFld_seqLinks (s : State) (f : Fld) (v : Nat) : (s.setFld f v).seqLinks = s.seqLinks := (congrArg State.seqLinks (s.setFld_regs_only f v)).trans rfl
@[simp] theorem State.setFld_nextAlloc (s : State) (f : Fld) (v : Nat) : (s.setFld f v).nextAlloc = s.nextAlloc := (congrArg State.nextAlloc (s.setFld_regs_only f v)).trans rfl
@[simp] theorem State.setFld_tierPending (s : State) (f : Fld) (v : Nat) : (s.setFld f v).tierPending = s.tierPending := (congrArg State.tierPending (s.setFld_regs_only f v)).trans rfl
@[simp] theorem State.setFld_flash (s : State) (f : Fld) (v : Nat) : (s.setFld f v).flash = s.flash := (congrArg State.flash (s.setFld_regs_only f v)).trans rfl
@[simp] theorem State.setFld_kv (s : State) (f : Fld) (v : Nat) : (s.setFld f v).kv = s.kv := (congrArg State.kv (s.setFld_regs_only f v)).trans rfl
@[simp] theorem State.setFld_kvPages (s : State) (f : Fld) (v : Nat) : (s.setFld f v).kvPages = s.kvPages := (congrArg State.kvPages (s.setFld_regs_only f v)).trans rfl
@[simp] theorem State.setFld_kvPending (s : State) (f : Fld) (v : Nat) : (s.setFld f v).kvPending = s.kvPending := (congrArg State.kvPending (s.setFld_regs_only f v)).trans rfl
@[simp] theorem State.setFld_kvTouched (s : State) (f : Fld) (v : Nat) : (s.setFld f v).kvTouched = s.kvTouched := (congrArg State.kvTouched (s.setFld_regs_only f v)).trans rfl
@[simp] theorem State.setFld_seqSlots (s : State) (f : Fld) (v : Nat) : (s.setFld f v).seqSlots = s.seqSlots := (congrArg State.seqSlots (s.setFld_regs_only f v)).trans rfl
@[simp] theorem State.setFld_seqTags (s : State) (f : Fld) (v : Nat) : (s.setFld f v).seqTags = s.seqTags := (congrArg State.seqTags (s.setFld_regs_only f v)).trans rfl
@[simp] theorem State.setFld_seqCmds (s : State) (f : Fld) (v : Nat) : (s.setFld f v).seqCmds = s.seqCmds := (congrArg State.seqCmds (s.setFld_regs_only f v)).trans rfl
@[simp] theorem State.setFld_dieSkew (s : State) (f : Fld) (v : Nat) : (s.setFld f v).dieSkew = s.dieSkew := (congrArg State.dieSkew (s.setFld_regs_only f v)).trans rfl
@[simp] theorem State.setFld_dieLag (s : State) (f : Fld) (v : Nat) : (s.setFld f v).dieLag = s.dieLag := (congrArg State.dieLag (s.setFld_regs_only f v)).trans rfl
@[simp] theorem State.setFld_tlb (s : State) (f : Fld) (v : Nat) : (s.setFld f v).tlb = s.tlb := (congrArg State.tlb (s.setFld_regs_only f v)).trans rfl
@[simp] theorem State.setFld_requests (s : State) (f : Fld) (v : Nat) : (s.setFld f v).requests = s.requests := (congrArg State.requests (s.setFld_regs_only f v)).trans rfl
@[simp] theorem State.setFld_nextReq (s : State) (f : Fld) (v : Nat) : (s.setFld f v).nextReq = s.nextReq := (congrArg State.nextReq (s.setFld_regs_only f v)).trans rfl
@[simp] theorem State.setFld_windows (s : State) (f : Fld) (v : Nat) : (s.setFld f v).windows = s.windows := (congrArg State.windows (s.setFld_regs_only f v)).trans rfl
@[simp] theorem State.setFld_ports (s : State) (f : Fld) (v : Nat) : (s.setFld f v).ports = s.ports := (congrArg State.ports (s.setFld_regs_only f v)).trans rfl
@[simp] theorem State.setFld_loops (s : State) (f : Fld) (v : Nat) : (s.setFld f v).loops = s.loops := (congrArg State.loops (s.setFld_regs_only f v)).trans rfl
@[simp] theorem State.setFld_crust (s : State) (f : Fld) (v : Nat) : (s.setFld f v).crust = s.crust := (congrArg State.crust (s.setFld_regs_only f v)).trans rfl
@[simp] theorem State.setFld_map (s : State) (f : Fld) (v : Nat) : (s.setFld f v).map = s.map := (congrArg State.map (s.setFld_regs_only f v)).trans rfl
@[simp] theorem State.setFld_fusion (s : State) (f : Fld) (v : Nat) : (s.setFld f v).fusion = s.fusion := (congrArg State.fusion (s.setFld_regs_only f v)).trans rfl
@[simp] theorem State.setFld_plan (s : State) (f : Fld) (v : Nat) : (s.setFld f v).plan = s.plan := (congrArg State.plan (s.setFld_regs_only f v)).trans rfl
@[simp] theorem State.setFld_solv (s : State) (f : Fld) (v : Nat) : (s.setFld f v).solv = s.solv := (congrArg State.solv (s.setFld_regs_only f v)).trans rfl
@[simp] theorem State.setFld_diesPresent (s : State) (f : Fld) (v : Nat) : (s.setFld f v).diesPresent = s.diesPresent := (congrArg State.diesPresent (s.setFld_regs_only f v)).trans rfl
@[simp] theorem State.setFld_linkMods (s : State) (f : Fld) (v : Nat) : (s.setFld f v).linkMods = s.linkMods := (congrArg State.linkMods (s.setFld_regs_only f v)).trans rfl
@[simp] theorem State.setFld_held (s : State) (f : Fld) (v : Nat) : (s.setFld f v).held = s.held := (congrArg State.held (s.setFld_regs_only f v)).trans rfl
@[simp] theorem State.setFld_proofRunning (s : State) (f : Fld) (v : Nat) : (s.setFld f v).proofRunning = s.proofRunning := (congrArg State.proofRunning (s.setFld_regs_only f v)).trans rfl
@[simp] theorem State.setFld_rails (s : State) (f : Fld) (v : Nat) : (s.setFld f v).rails = s.rails := (congrArg State.rails (s.setFld_regs_only f v)).trans rfl
@[simp] theorem State.setFld_power (s : State) (f : Fld) (v : Nat) : (s.setFld f v).power = s.power := (congrArg State.power (s.setFld_regs_only f v)).trans rfl
@[simp] theorem State.setFld_rst (s : State) (f : Fld) (v : Nat) : (s.setFld f v).rst = s.rst := (congrArg State.rst (s.setFld_regs_only f v)).trans rfl
@[simp] theorem State.setFld_boot (s : State) (f : Fld) (v : Nat) : (s.setFld f v).boot = s.boot := (congrArg State.boot (s.setFld_regs_only f v)).trans rfl

@[simp] theorem State.count64_pending (s : State) (a n : Nat) : (s.count64 a n).pending = s.pending := rfl
@[simp] theorem State.count64_freeCtr (s : State) (a n : Nat) : (s.count64 a n).freeCtr = s.freeCtr := rfl
@[simp] theorem State.count64_answer (s : State) (a n : Nat) : (s.count64 a n).answer = s.answer := rfl
@[simp] theorem State.count64_latches (s : State) (a n : Nat) : (s.count64 a n).latches = s.latches := rfl
@[simp] theorem State.count64_staged (s : State) (a n : Nat) : (s.count64 a n).staged = s.staged := rfl
@[simp] theorem State.count64_phys (s : State) (a n : Nat) : (s.count64 a n).phys = s.phys := rfl
@[simp] theorem State.count64_hostMem (s : State) (a n : Nat) : (s.count64 a n).hostMem = s.hostMem := rfl
@[simp] theorem State.count64_devTime (s : State) (a n : Nat) : (s.count64 a n).devTime = s.devTime := rfl
@[simp] theorem State.count64_mono (s : State) (a n : Nat) : (s.count64 a n).mono = s.mono := rfl
@[simp] theorem State.count64_layout (s : State) (a n : Nat) : (s.count64 a n).layout = s.layout := rfl
@[simp] theorem State.count64_safetyDigest (s : State) (a n : Nat) : (s.count64 a n).safetyDigest = s.safetyDigest := rfl
@[simp] theorem State.count64_load (s : State) (a n : Nat) : (s.count64 a n).load = s.load := rfl
@[simp] theorem State.count64_ctxs (s : State) (a n : Nat) : (s.count64 a n).ctxs = s.ctxs := rfl
@[simp] theorem State.count64_queues (s : State) (a n : Nat) : (s.count64 a n).queues = s.queues := rfl
@[simp] theorem State.count64_invs (s : State) (a n : Nat) : (s.count64 a n).invs = s.invs := rfl
@[simp] theorem State.count64_runs (s : State) (a n : Nat) : (s.count64 a n).runs = s.runs := rfl
@[simp] theorem State.count64_nextRun (s : State) (a n : Nat) : (s.count64 a n).nextRun = s.nextRun := rfl
@[simp] theorem State.count64_syncs (s : State) (a n : Nat) : (s.count64 a n).syncs = s.syncs := rfl
@[simp] theorem State.count64_msix (s : State) (a n : Nat) : (s.count64 a n).msix = s.msix := rfl
@[simp] theorem State.count64_msixTable (s : State) (a n : Nat) : (s.count64 a n).msixTable = s.msixTable := rfl
@[simp] theorem State.count64_msixPending (s : State) (a n : Nat) : (s.count64 a n).msixPending = s.msixPending := rfl
@[simp] theorem State.count64_endpoint (s : State) (a n : Nat) : (s.count64 a n).endpoint = s.endpoint := rfl
@[simp] theorem State.count64_proposal (s : State) (a n : Nat) : (s.count64 a n).proposal = s.proposal := rfl
@[simp] theorem State.count64_maps (s : State) (a n : Nat) : (s.count64 a n).maps = s.maps := rfl
@[simp] theorem State.count64_seqLinks (s : State) (a n : Nat) : (s.count64 a n).seqLinks = s.seqLinks := rfl
@[simp] theorem State.count64_nextAlloc (s : State) (a n : Nat) : (s.count64 a n).nextAlloc = s.nextAlloc := rfl
@[simp] theorem State.count64_tierPending (s : State) (a n : Nat) : (s.count64 a n).tierPending = s.tierPending := rfl
@[simp] theorem State.count64_flash (s : State) (a n : Nat) : (s.count64 a n).flash = s.flash := rfl
@[simp] theorem State.count64_kv (s : State) (a n : Nat) : (s.count64 a n).kv = s.kv := rfl
@[simp] theorem State.count64_kvPages (s : State) (a n : Nat) : (s.count64 a n).kvPages = s.kvPages := rfl
@[simp] theorem State.count64_kvPending (s : State) (a n : Nat) : (s.count64 a n).kvPending = s.kvPending := rfl
@[simp] theorem State.count64_kvTouched (s : State) (a n : Nat) : (s.count64 a n).kvTouched = s.kvTouched := rfl
@[simp] theorem State.count64_seqSlots (s : State) (a n : Nat) : (s.count64 a n).seqSlots = s.seqSlots := rfl
@[simp] theorem State.count64_seqTags (s : State) (a n : Nat) : (s.count64 a n).seqTags = s.seqTags := rfl
@[simp] theorem State.count64_seqCmds (s : State) (a n : Nat) : (s.count64 a n).seqCmds = s.seqCmds := rfl
@[simp] theorem State.count64_dieSkew (s : State) (a n : Nat) : (s.count64 a n).dieSkew = s.dieSkew := rfl
@[simp] theorem State.count64_dieLag (s : State) (a n : Nat) : (s.count64 a n).dieLag = s.dieLag := rfl
@[simp] theorem State.count64_tlb (s : State) (a n : Nat) : (s.count64 a n).tlb = s.tlb := rfl
@[simp] theorem State.count64_requests (s : State) (a n : Nat) : (s.count64 a n).requests = s.requests := rfl
@[simp] theorem State.count64_nextReq (s : State) (a n : Nat) : (s.count64 a n).nextReq = s.nextReq := rfl
@[simp] theorem State.count64_windows (s : State) (a n : Nat) : (s.count64 a n).windows = s.windows := rfl
@[simp] theorem State.count64_ports (s : State) (a n : Nat) : (s.count64 a n).ports = s.ports := rfl
@[simp] theorem State.count64_loops (s : State) (a n : Nat) : (s.count64 a n).loops = s.loops := rfl
@[simp] theorem State.count64_crust (s : State) (a n : Nat) : (s.count64 a n).crust = s.crust := rfl
@[simp] theorem State.count64_map (s : State) (a n : Nat) : (s.count64 a n).map = s.map := rfl
@[simp] theorem State.count64_fusion (s : State) (a n : Nat) : (s.count64 a n).fusion = s.fusion := rfl
@[simp] theorem State.count64_plan (s : State) (a n : Nat) : (s.count64 a n).plan = s.plan := rfl
@[simp] theorem State.count64_solv (s : State) (a n : Nat) : (s.count64 a n).solv = s.solv := rfl
@[simp] theorem State.count64_diesPresent (s : State) (a n : Nat) : (s.count64 a n).diesPresent = s.diesPresent := rfl
@[simp] theorem State.count64_linkMods (s : State) (a n : Nat) : (s.count64 a n).linkMods = s.linkMods := rfl
@[simp] theorem State.count64_held (s : State) (a n : Nat) : (s.count64 a n).held = s.held := rfl
@[simp] theorem State.count64_proofRunning (s : State) (a n : Nat) : (s.count64 a n).proofRunning = s.proofRunning := rfl
@[simp] theorem State.count64_rails (s : State) (a n : Nat) : (s.count64 a n).rails = s.rails := rfl
@[simp] theorem State.count64_power (s : State) (a n : Nat) : (s.count64 a n).power = s.power := rfl
@[simp] theorem State.count64_rst (s : State) (a n : Nat) : (s.count64 a n).rst = s.rst := rfl
@[simp] theorem State.count64_boot (s : State) (a n : Nat) : (s.count64 a n).boot = s.boot := rfl

@[simp] theorem State.event_pending (s : State) (e : Evt) : (s.event e).pending = s.pending := rfl
@[simp] theorem State.event_freeCtr (s : State) (e : Evt) : (s.event e).freeCtr = s.freeCtr := rfl
@[simp] theorem State.event_answer (s : State) (e : Evt) : (s.event e).answer = s.answer := rfl
@[simp] theorem State.event_latches (s : State) (e : Evt) : (s.event e).latches = s.latches := rfl
@[simp] theorem State.event_staged (s : State) (e : Evt) : (s.event e).staged = s.staged := rfl
@[simp] theorem State.event_phys (s : State) (e : Evt) : (s.event e).phys = s.phys := rfl
@[simp] theorem State.event_hostMem (s : State) (e : Evt) : (s.event e).hostMem = s.hostMem := rfl
@[simp] theorem State.event_devTime (s : State) (e : Evt) : (s.event e).devTime = s.devTime := rfl
@[simp] theorem State.event_mono (s : State) (e : Evt) : (s.event e).mono = s.mono := rfl
@[simp] theorem State.event_layout (s : State) (e : Evt) : (s.event e).layout = s.layout := rfl
@[simp] theorem State.event_safetyDigest (s : State) (e : Evt) : (s.event e).safetyDigest = s.safetyDigest := rfl
@[simp] theorem State.event_load (s : State) (e : Evt) : (s.event e).load = s.load := rfl
@[simp] theorem State.event_ctxs (s : State) (e : Evt) : (s.event e).ctxs = s.ctxs := rfl
@[simp] theorem State.event_queues (s : State) (e : Evt) : (s.event e).queues = s.queues := rfl
@[simp] theorem State.event_invs (s : State) (e : Evt) : (s.event e).invs = s.invs := rfl
@[simp] theorem State.event_runs (s : State) (e : Evt) : (s.event e).runs = s.runs := rfl
@[simp] theorem State.event_nextRun (s : State) (e : Evt) : (s.event e).nextRun = s.nextRun := rfl
@[simp] theorem State.event_syncs (s : State) (e : Evt) : (s.event e).syncs = s.syncs := rfl
@[simp] theorem State.event_msix (s : State) (e : Evt) : (s.event e).msix = s.msix := rfl
@[simp] theorem State.event_msixTable (s : State) (e : Evt) : (s.event e).msixTable = s.msixTable := rfl
@[simp] theorem State.event_msixPending (s : State) (e : Evt) : (s.event e).msixPending = s.msixPending := rfl
@[simp] theorem State.event_endpoint (s : State) (e : Evt) : (s.event e).endpoint = s.endpoint := rfl
@[simp] theorem State.event_proposal (s : State) (e : Evt) : (s.event e).proposal = s.proposal := rfl
@[simp] theorem State.event_maps (s : State) (e : Evt) : (s.event e).maps = s.maps := rfl
@[simp] theorem State.event_seqLinks (s : State) (e : Evt) : (s.event e).seqLinks = s.seqLinks := rfl
@[simp] theorem State.event_nextAlloc (s : State) (e : Evt) : (s.event e).nextAlloc = s.nextAlloc := rfl
@[simp] theorem State.event_tierPending (s : State) (e : Evt) : (s.event e).tierPending = s.tierPending := rfl
@[simp] theorem State.event_flash (s : State) (e : Evt) : (s.event e).flash = s.flash := rfl
@[simp] theorem State.event_kv (s : State) (e : Evt) : (s.event e).kv = s.kv := rfl
@[simp] theorem State.event_kvPages (s : State) (e : Evt) : (s.event e).kvPages = s.kvPages := rfl
@[simp] theorem State.event_kvPending (s : State) (e : Evt) : (s.event e).kvPending = s.kvPending := rfl
@[simp] theorem State.event_kvTouched (s : State) (e : Evt) : (s.event e).kvTouched = s.kvTouched := rfl
@[simp] theorem State.event_seqSlots (s : State) (e : Evt) : (s.event e).seqSlots = s.seqSlots := rfl
@[simp] theorem State.event_seqTags (s : State) (e : Evt) : (s.event e).seqTags = s.seqTags := rfl
@[simp] theorem State.event_seqCmds (s : State) (e : Evt) : (s.event e).seqCmds = s.seqCmds := rfl
@[simp] theorem State.event_dieSkew (s : State) (e : Evt) : (s.event e).dieSkew = s.dieSkew := rfl
@[simp] theorem State.event_dieLag (s : State) (e : Evt) : (s.event e).dieLag = s.dieLag := rfl
@[simp] theorem State.event_tlb (s : State) (e : Evt) : (s.event e).tlb = s.tlb := rfl
@[simp] theorem State.event_requests (s : State) (e : Evt) : (s.event e).requests = s.requests := rfl
@[simp] theorem State.event_nextReq (s : State) (e : Evt) : (s.event e).nextReq = s.nextReq := rfl
@[simp] theorem State.event_windows (s : State) (e : Evt) : (s.event e).windows = s.windows := rfl
@[simp] theorem State.event_ports (s : State) (e : Evt) : (s.event e).ports = s.ports := rfl
@[simp] theorem State.event_loops (s : State) (e : Evt) : (s.event e).loops = s.loops := rfl
@[simp] theorem State.event_crust (s : State) (e : Evt) : (s.event e).crust = s.crust := rfl
@[simp] theorem State.event_map (s : State) (e : Evt) : (s.event e).map = s.map := rfl
@[simp] theorem State.event_fusion (s : State) (e : Evt) : (s.event e).fusion = s.fusion := rfl
@[simp] theorem State.event_plan (s : State) (e : Evt) : (s.event e).plan = s.plan := rfl
@[simp] theorem State.event_solv (s : State) (e : Evt) : (s.event e).solv = s.solv := rfl
@[simp] theorem State.event_diesPresent (s : State) (e : Evt) : (s.event e).diesPresent = s.diesPresent := rfl
@[simp] theorem State.event_linkMods (s : State) (e : Evt) : (s.event e).linkMods = s.linkMods := rfl
@[simp] theorem State.event_held (s : State) (e : Evt) : (s.event e).held = s.held := rfl
@[simp] theorem State.event_proofRunning (s : State) (e : Evt) : (s.event e).proofRunning = s.proofRunning := rfl
@[simp] theorem State.event_rails (s : State) (e : Evt) : (s.event e).rails = s.rails := rfl
@[simp] theorem State.event_power (s : State) (e : Evt) : (s.event e).power = s.power := rfl
@[simp] theorem State.event_rst (s : State) (e : Evt) : (s.event e).rst = s.rst := rfl
@[simp] theorem State.event_boot (s : State) (e : Evt) : (s.event e).boot = s.boot := rfl

@[simp] theorem State.eventIf_pending (s : State) (c : Bool) (e : Evt) : (s.eventIf c e).pending = s.pending := (congrArg State.pending (s.eventIf_regs_only c e)).trans rfl
@[simp] theorem State.eventIf_freeCtr (s : State) (c : Bool) (e : Evt) : (s.eventIf c e).freeCtr = s.freeCtr := (congrArg State.freeCtr (s.eventIf_regs_only c e)).trans rfl
@[simp] theorem State.eventIf_answer (s : State) (c : Bool) (e : Evt) : (s.eventIf c e).answer = s.answer := (congrArg State.answer (s.eventIf_regs_only c e)).trans rfl
@[simp] theorem State.eventIf_latches (s : State) (c : Bool) (e : Evt) : (s.eventIf c e).latches = s.latches := (congrArg State.latches (s.eventIf_regs_only c e)).trans rfl
@[simp] theorem State.eventIf_staged (s : State) (c : Bool) (e : Evt) : (s.eventIf c e).staged = s.staged := (congrArg State.staged (s.eventIf_regs_only c e)).trans rfl
@[simp] theorem State.eventIf_phys (s : State) (c : Bool) (e : Evt) : (s.eventIf c e).phys = s.phys := (congrArg State.phys (s.eventIf_regs_only c e)).trans rfl
@[simp] theorem State.eventIf_hostMem (s : State) (c : Bool) (e : Evt) : (s.eventIf c e).hostMem = s.hostMem := (congrArg State.hostMem (s.eventIf_regs_only c e)).trans rfl
@[simp] theorem State.eventIf_devTime (s : State) (c : Bool) (e : Evt) : (s.eventIf c e).devTime = s.devTime := (congrArg State.devTime (s.eventIf_regs_only c e)).trans rfl
@[simp] theorem State.eventIf_mono (s : State) (c : Bool) (e : Evt) : (s.eventIf c e).mono = s.mono := (congrArg State.mono (s.eventIf_regs_only c e)).trans rfl
@[simp] theorem State.eventIf_layout (s : State) (c : Bool) (e : Evt) : (s.eventIf c e).layout = s.layout := (congrArg State.layout (s.eventIf_regs_only c e)).trans rfl
@[simp] theorem State.eventIf_safetyDigest (s : State) (c : Bool) (e : Evt) : (s.eventIf c e).safetyDigest = s.safetyDigest := (congrArg State.safetyDigest (s.eventIf_regs_only c e)).trans rfl
@[simp] theorem State.eventIf_load (s : State) (c : Bool) (e : Evt) : (s.eventIf c e).load = s.load := (congrArg State.load (s.eventIf_regs_only c e)).trans rfl
@[simp] theorem State.eventIf_ctxs (s : State) (c : Bool) (e : Evt) : (s.eventIf c e).ctxs = s.ctxs := (congrArg State.ctxs (s.eventIf_regs_only c e)).trans rfl
@[simp] theorem State.eventIf_queues (s : State) (c : Bool) (e : Evt) : (s.eventIf c e).queues = s.queues := (congrArg State.queues (s.eventIf_regs_only c e)).trans rfl
@[simp] theorem State.eventIf_invs (s : State) (c : Bool) (e : Evt) : (s.eventIf c e).invs = s.invs := (congrArg State.invs (s.eventIf_regs_only c e)).trans rfl
@[simp] theorem State.eventIf_runs (s : State) (c : Bool) (e : Evt) : (s.eventIf c e).runs = s.runs := (congrArg State.runs (s.eventIf_regs_only c e)).trans rfl
@[simp] theorem State.eventIf_nextRun (s : State) (c : Bool) (e : Evt) : (s.eventIf c e).nextRun = s.nextRun := (congrArg State.nextRun (s.eventIf_regs_only c e)).trans rfl
@[simp] theorem State.eventIf_syncs (s : State) (c : Bool) (e : Evt) : (s.eventIf c e).syncs = s.syncs := (congrArg State.syncs (s.eventIf_regs_only c e)).trans rfl
@[simp] theorem State.eventIf_msix (s : State) (c : Bool) (e : Evt) : (s.eventIf c e).msix = s.msix := (congrArg State.msix (s.eventIf_regs_only c e)).trans rfl
@[simp] theorem State.eventIf_msixTable (s : State) (c : Bool) (e : Evt) : (s.eventIf c e).msixTable = s.msixTable := (congrArg State.msixTable (s.eventIf_regs_only c e)).trans rfl
@[simp] theorem State.eventIf_msixPending (s : State) (c : Bool) (e : Evt) : (s.eventIf c e).msixPending = s.msixPending := (congrArg State.msixPending (s.eventIf_regs_only c e)).trans rfl
@[simp] theorem State.eventIf_endpoint (s : State) (c : Bool) (e : Evt) : (s.eventIf c e).endpoint = s.endpoint := (congrArg State.endpoint (s.eventIf_regs_only c e)).trans rfl
@[simp] theorem State.eventIf_proposal (s : State) (c : Bool) (e : Evt) : (s.eventIf c e).proposal = s.proposal := (congrArg State.proposal (s.eventIf_regs_only c e)).trans rfl
@[simp] theorem State.eventIf_maps (s : State) (c : Bool) (e : Evt) : (s.eventIf c e).maps = s.maps := (congrArg State.maps (s.eventIf_regs_only c e)).trans rfl
@[simp] theorem State.eventIf_seqLinks (s : State) (c : Bool) (e : Evt) : (s.eventIf c e).seqLinks = s.seqLinks := (congrArg State.seqLinks (s.eventIf_regs_only c e)).trans rfl
@[simp] theorem State.eventIf_nextAlloc (s : State) (c : Bool) (e : Evt) : (s.eventIf c e).nextAlloc = s.nextAlloc := (congrArg State.nextAlloc (s.eventIf_regs_only c e)).trans rfl
@[simp] theorem State.eventIf_tierPending (s : State) (c : Bool) (e : Evt) : (s.eventIf c e).tierPending = s.tierPending := (congrArg State.tierPending (s.eventIf_regs_only c e)).trans rfl
@[simp] theorem State.eventIf_flash (s : State) (c : Bool) (e : Evt) : (s.eventIf c e).flash = s.flash := (congrArg State.flash (s.eventIf_regs_only c e)).trans rfl
@[simp] theorem State.eventIf_kv (s : State) (c : Bool) (e : Evt) : (s.eventIf c e).kv = s.kv := (congrArg State.kv (s.eventIf_regs_only c e)).trans rfl
@[simp] theorem State.eventIf_kvPages (s : State) (c : Bool) (e : Evt) : (s.eventIf c e).kvPages = s.kvPages := (congrArg State.kvPages (s.eventIf_regs_only c e)).trans rfl
@[simp] theorem State.eventIf_kvPending (s : State) (c : Bool) (e : Evt) : (s.eventIf c e).kvPending = s.kvPending := (congrArg State.kvPending (s.eventIf_regs_only c e)).trans rfl
@[simp] theorem State.eventIf_kvTouched (s : State) (c : Bool) (e : Evt) : (s.eventIf c e).kvTouched = s.kvTouched := (congrArg State.kvTouched (s.eventIf_regs_only c e)).trans rfl
@[simp] theorem State.eventIf_seqSlots (s : State) (c : Bool) (e : Evt) : (s.eventIf c e).seqSlots = s.seqSlots := (congrArg State.seqSlots (s.eventIf_regs_only c e)).trans rfl
@[simp] theorem State.eventIf_seqTags (s : State) (c : Bool) (e : Evt) : (s.eventIf c e).seqTags = s.seqTags := (congrArg State.seqTags (s.eventIf_regs_only c e)).trans rfl
@[simp] theorem State.eventIf_seqCmds (s : State) (c : Bool) (e : Evt) : (s.eventIf c e).seqCmds = s.seqCmds := (congrArg State.seqCmds (s.eventIf_regs_only c e)).trans rfl
@[simp] theorem State.eventIf_dieSkew (s : State) (c : Bool) (e : Evt) : (s.eventIf c e).dieSkew = s.dieSkew := (congrArg State.dieSkew (s.eventIf_regs_only c e)).trans rfl
@[simp] theorem State.eventIf_dieLag (s : State) (c : Bool) (e : Evt) : (s.eventIf c e).dieLag = s.dieLag := (congrArg State.dieLag (s.eventIf_regs_only c e)).trans rfl
@[simp] theorem State.eventIf_tlb (s : State) (c : Bool) (e : Evt) : (s.eventIf c e).tlb = s.tlb := (congrArg State.tlb (s.eventIf_regs_only c e)).trans rfl
@[simp] theorem State.eventIf_requests (s : State) (c : Bool) (e : Evt) : (s.eventIf c e).requests = s.requests := (congrArg State.requests (s.eventIf_regs_only c e)).trans rfl
@[simp] theorem State.eventIf_nextReq (s : State) (c : Bool) (e : Evt) : (s.eventIf c e).nextReq = s.nextReq := (congrArg State.nextReq (s.eventIf_regs_only c e)).trans rfl
@[simp] theorem State.eventIf_windows (s : State) (c : Bool) (e : Evt) : (s.eventIf c e).windows = s.windows := (congrArg State.windows (s.eventIf_regs_only c e)).trans rfl
@[simp] theorem State.eventIf_ports (s : State) (c : Bool) (e : Evt) : (s.eventIf c e).ports = s.ports := (congrArg State.ports (s.eventIf_regs_only c e)).trans rfl
@[simp] theorem State.eventIf_loops (s : State) (c : Bool) (e : Evt) : (s.eventIf c e).loops = s.loops := (congrArg State.loops (s.eventIf_regs_only c e)).trans rfl
@[simp] theorem State.eventIf_crust (s : State) (c : Bool) (e : Evt) : (s.eventIf c e).crust = s.crust := (congrArg State.crust (s.eventIf_regs_only c e)).trans rfl
@[simp] theorem State.eventIf_map (s : State) (c : Bool) (e : Evt) : (s.eventIf c e).map = s.map := (congrArg State.map (s.eventIf_regs_only c e)).trans rfl
@[simp] theorem State.eventIf_fusion (s : State) (c : Bool) (e : Evt) : (s.eventIf c e).fusion = s.fusion := (congrArg State.fusion (s.eventIf_regs_only c e)).trans rfl
@[simp] theorem State.eventIf_plan (s : State) (c : Bool) (e : Evt) : (s.eventIf c e).plan = s.plan := (congrArg State.plan (s.eventIf_regs_only c e)).trans rfl
@[simp] theorem State.eventIf_solv (s : State) (c : Bool) (e : Evt) : (s.eventIf c e).solv = s.solv := (congrArg State.solv (s.eventIf_regs_only c e)).trans rfl
@[simp] theorem State.eventIf_diesPresent (s : State) (c : Bool) (e : Evt) : (s.eventIf c e).diesPresent = s.diesPresent := (congrArg State.diesPresent (s.eventIf_regs_only c e)).trans rfl
@[simp] theorem State.eventIf_linkMods (s : State) (c : Bool) (e : Evt) : (s.eventIf c e).linkMods = s.linkMods := (congrArg State.linkMods (s.eventIf_regs_only c e)).trans rfl
@[simp] theorem State.eventIf_held (s : State) (c : Bool) (e : Evt) : (s.eventIf c e).held = s.held := (congrArg State.held (s.eventIf_regs_only c e)).trans rfl
@[simp] theorem State.eventIf_proofRunning (s : State) (c : Bool) (e : Evt) : (s.eventIf c e).proofRunning = s.proofRunning := (congrArg State.proofRunning (s.eventIf_regs_only c e)).trans rfl
@[simp] theorem State.eventIf_rails (s : State) (c : Bool) (e : Evt) : (s.eventIf c e).rails = s.rails := (congrArg State.rails (s.eventIf_regs_only c e)).trans rfl
@[simp] theorem State.eventIf_power (s : State) (c : Bool) (e : Evt) : (s.eventIf c e).power = s.power := (congrArg State.power (s.eventIf_regs_only c e)).trans rfl
@[simp] theorem State.eventIf_rst (s : State) (c : Bool) (e : Evt) : (s.eventIf c e).rst = s.rst := (congrArg State.rst (s.eventIf_regs_only c e)).trans rfl
@[simp] theorem State.eventIf_boot (s : State) (c : Bool) (e : Evt) : (s.eventIf c e).boot = s.boot := (congrArg State.boot (s.eventIf_regs_only c e)).trans rfl

@[simp] theorem State.raise_pending (s : State) (v : Nat) : (s.raise v).pending = s.pending := rfl
@[simp] theorem State.raise_freeCtr (s : State) (v : Nat) : (s.raise v).freeCtr = s.freeCtr := rfl
@[simp] theorem State.raise_answer (s : State) (v : Nat) : (s.raise v).answer = s.answer := rfl
@[simp] theorem State.raise_regs (s : State) (v : Nat) : (s.raise v).regs = s.regs := rfl
@[simp] theorem State.raise_latches (s : State) (v : Nat) : (s.raise v).latches = s.latches := rfl
@[simp] theorem State.raise_staged (s : State) (v : Nat) : (s.raise v).staged = s.staged := rfl
@[simp] theorem State.raise_phys (s : State) (v : Nat) : (s.raise v).phys = s.phys := rfl
@[simp] theorem State.raise_hostMem (s : State) (v : Nat) : (s.raise v).hostMem = s.hostMem := rfl
@[simp] theorem State.raise_devTime (s : State) (v : Nat) : (s.raise v).devTime = s.devTime := rfl
@[simp] theorem State.raise_mono (s : State) (v : Nat) : (s.raise v).mono = s.mono := rfl
@[simp] theorem State.raise_layout (s : State) (v : Nat) : (s.raise v).layout = s.layout := rfl
@[simp] theorem State.raise_safetyDigest (s : State) (v : Nat) : (s.raise v).safetyDigest = s.safetyDigest := rfl
@[simp] theorem State.raise_load (s : State) (v : Nat) : (s.raise v).load = s.load := rfl
@[simp] theorem State.raise_ctxs (s : State) (v : Nat) : (s.raise v).ctxs = s.ctxs := rfl
@[simp] theorem State.raise_queues (s : State) (v : Nat) : (s.raise v).queues = s.queues := rfl
@[simp] theorem State.raise_invs (s : State) (v : Nat) : (s.raise v).invs = s.invs := rfl
@[simp] theorem State.raise_runs (s : State) (v : Nat) : (s.raise v).runs = s.runs := rfl
@[simp] theorem State.raise_nextRun (s : State) (v : Nat) : (s.raise v).nextRun = s.nextRun := rfl
@[simp] theorem State.raise_syncs (s : State) (v : Nat) : (s.raise v).syncs = s.syncs := rfl
@[simp] theorem State.raise_msixTable (s : State) (v : Nat) : (s.raise v).msixTable = s.msixTable := rfl
@[simp] theorem State.raise_endpoint (s : State) (v : Nat) : (s.raise v).endpoint = s.endpoint := rfl
@[simp] theorem State.raise_proposal (s : State) (v : Nat) : (s.raise v).proposal = s.proposal := rfl
@[simp] theorem State.raise_maps (s : State) (v : Nat) : (s.raise v).maps = s.maps := rfl
@[simp] theorem State.raise_seqLinks (s : State) (v : Nat) : (s.raise v).seqLinks = s.seqLinks := rfl
@[simp] theorem State.raise_nextAlloc (s : State) (v : Nat) : (s.raise v).nextAlloc = s.nextAlloc := rfl
@[simp] theorem State.raise_tierPending (s : State) (v : Nat) : (s.raise v).tierPending = s.tierPending := rfl
@[simp] theorem State.raise_flash (s : State) (v : Nat) : (s.raise v).flash = s.flash := rfl
@[simp] theorem State.raise_kv (s : State) (v : Nat) : (s.raise v).kv = s.kv := rfl
@[simp] theorem State.raise_kvPages (s : State) (v : Nat) : (s.raise v).kvPages = s.kvPages := rfl
@[simp] theorem State.raise_kvPending (s : State) (v : Nat) : (s.raise v).kvPending = s.kvPending := rfl
@[simp] theorem State.raise_kvTouched (s : State) (v : Nat) : (s.raise v).kvTouched = s.kvTouched := rfl
@[simp] theorem State.raise_seqSlots (s : State) (v : Nat) : (s.raise v).seqSlots = s.seqSlots := rfl
@[simp] theorem State.raise_seqTags (s : State) (v : Nat) : (s.raise v).seqTags = s.seqTags := rfl
@[simp] theorem State.raise_seqCmds (s : State) (v : Nat) : (s.raise v).seqCmds = s.seqCmds := rfl
@[simp] theorem State.raise_dieSkew (s : State) (v : Nat) : (s.raise v).dieSkew = s.dieSkew := rfl
@[simp] theorem State.raise_dieLag (s : State) (v : Nat) : (s.raise v).dieLag = s.dieLag := rfl
@[simp] theorem State.raise_tlb (s : State) (v : Nat) : (s.raise v).tlb = s.tlb := rfl
@[simp] theorem State.raise_requests (s : State) (v : Nat) : (s.raise v).requests = s.requests := rfl
@[simp] theorem State.raise_nextReq (s : State) (v : Nat) : (s.raise v).nextReq = s.nextReq := rfl
@[simp] theorem State.raise_windows (s : State) (v : Nat) : (s.raise v).windows = s.windows := rfl
@[simp] theorem State.raise_ports (s : State) (v : Nat) : (s.raise v).ports = s.ports := rfl
@[simp] theorem State.raise_loops (s : State) (v : Nat) : (s.raise v).loops = s.loops := rfl
@[simp] theorem State.raise_crust (s : State) (v : Nat) : (s.raise v).crust = s.crust := rfl
@[simp] theorem State.raise_map (s : State) (v : Nat) : (s.raise v).map = s.map := rfl
@[simp] theorem State.raise_fusion (s : State) (v : Nat) : (s.raise v).fusion = s.fusion := rfl
@[simp] theorem State.raise_plan (s : State) (v : Nat) : (s.raise v).plan = s.plan := rfl
@[simp] theorem State.raise_solv (s : State) (v : Nat) : (s.raise v).solv = s.solv := rfl
@[simp] theorem State.raise_diesPresent (s : State) (v : Nat) : (s.raise v).diesPresent = s.diesPresent := rfl
@[simp] theorem State.raise_linkMods (s : State) (v : Nat) : (s.raise v).linkMods = s.linkMods := rfl
@[simp] theorem State.raise_held (s : State) (v : Nat) : (s.raise v).held = s.held := rfl
@[simp] theorem State.raise_proofRunning (s : State) (v : Nat) : (s.raise v).proofRunning = s.proofRunning := rfl
@[simp] theorem State.raise_rails (s : State) (v : Nat) : (s.raise v).rails = s.rails := rfl
@[simp] theorem State.raise_power (s : State) (v : Nat) : (s.raise v).power = s.power := rfl
@[simp] theorem State.raise_rst (s : State) (v : Nat) : (s.raise v).rst = s.rst := rfl
@[simp] theorem State.raise_boot (s : State) (v : Nat) : (s.raise v).boot = s.boot := rfl

@[simp] theorem State.hqEvent_pending (s : State) (e : Evt) : (s.hqEvent e).pending = s.pending := (congrArg State.pending (s.hqEvent_only e)).trans rfl
@[simp] theorem State.hqEvent_freeCtr (s : State) (e : Evt) : (s.hqEvent e).freeCtr = s.freeCtr := (congrArg State.freeCtr (s.hqEvent_only e)).trans rfl
@[simp] theorem State.hqEvent_answer (s : State) (e : Evt) : (s.hqEvent e).answer = s.answer := (congrArg State.answer (s.hqEvent_only e)).trans rfl
@[simp] theorem State.hqEvent_latches (s : State) (e : Evt) : (s.hqEvent e).latches = s.latches := (congrArg State.latches (s.hqEvent_only e)).trans rfl
@[simp] theorem State.hqEvent_staged (s : State) (e : Evt) : (s.hqEvent e).staged = s.staged := (congrArg State.staged (s.hqEvent_only e)).trans rfl
@[simp] theorem State.hqEvent_phys (s : State) (e : Evt) : (s.hqEvent e).phys = s.phys := (congrArg State.phys (s.hqEvent_only e)).trans rfl
@[simp] theorem State.hqEvent_hostMem (s : State) (e : Evt) : (s.hqEvent e).hostMem = s.hostMem := (congrArg State.hostMem (s.hqEvent_only e)).trans rfl
@[simp] theorem State.hqEvent_devTime (s : State) (e : Evt) : (s.hqEvent e).devTime = s.devTime := (congrArg State.devTime (s.hqEvent_only e)).trans rfl
@[simp] theorem State.hqEvent_mono (s : State) (e : Evt) : (s.hqEvent e).mono = s.mono := (congrArg State.mono (s.hqEvent_only e)).trans rfl
@[simp] theorem State.hqEvent_layout (s : State) (e : Evt) : (s.hqEvent e).layout = s.layout := (congrArg State.layout (s.hqEvent_only e)).trans rfl
@[simp] theorem State.hqEvent_safetyDigest (s : State) (e : Evt) : (s.hqEvent e).safetyDigest = s.safetyDigest := (congrArg State.safetyDigest (s.hqEvent_only e)).trans rfl
@[simp] theorem State.hqEvent_load (s : State) (e : Evt) : (s.hqEvent e).load = s.load := (congrArg State.load (s.hqEvent_only e)).trans rfl
@[simp] theorem State.hqEvent_ctxs (s : State) (e : Evt) : (s.hqEvent e).ctxs = s.ctxs := (congrArg State.ctxs (s.hqEvent_only e)).trans rfl
@[simp] theorem State.hqEvent_queues (s : State) (e : Evt) : (s.hqEvent e).queues = s.queues := (congrArg State.queues (s.hqEvent_only e)).trans rfl
@[simp] theorem State.hqEvent_invs (s : State) (e : Evt) : (s.hqEvent e).invs = s.invs := (congrArg State.invs (s.hqEvent_only e)).trans rfl
@[simp] theorem State.hqEvent_runs (s : State) (e : Evt) : (s.hqEvent e).runs = s.runs := (congrArg State.runs (s.hqEvent_only e)).trans rfl
@[simp] theorem State.hqEvent_nextRun (s : State) (e : Evt) : (s.hqEvent e).nextRun = s.nextRun := (congrArg State.nextRun (s.hqEvent_only e)).trans rfl
@[simp] theorem State.hqEvent_syncs (s : State) (e : Evt) : (s.hqEvent e).syncs = s.syncs := (congrArg State.syncs (s.hqEvent_only e)).trans rfl
@[simp] theorem State.hqEvent_msixTable (s : State) (e : Evt) : (s.hqEvent e).msixTable = s.msixTable := (congrArg State.msixTable (s.hqEvent_only e)).trans rfl
@[simp] theorem State.hqEvent_endpoint (s : State) (e : Evt) : (s.hqEvent e).endpoint = s.endpoint := (congrArg State.endpoint (s.hqEvent_only e)).trans rfl
@[simp] theorem State.hqEvent_proposal (s : State) (e : Evt) : (s.hqEvent e).proposal = s.proposal := (congrArg State.proposal (s.hqEvent_only e)).trans rfl
@[simp] theorem State.hqEvent_maps (s : State) (e : Evt) : (s.hqEvent e).maps = s.maps := (congrArg State.maps (s.hqEvent_only e)).trans rfl
@[simp] theorem State.hqEvent_seqLinks (s : State) (e : Evt) : (s.hqEvent e).seqLinks = s.seqLinks := (congrArg State.seqLinks (s.hqEvent_only e)).trans rfl
@[simp] theorem State.hqEvent_nextAlloc (s : State) (e : Evt) : (s.hqEvent e).nextAlloc = s.nextAlloc := (congrArg State.nextAlloc (s.hqEvent_only e)).trans rfl
@[simp] theorem State.hqEvent_tierPending (s : State) (e : Evt) : (s.hqEvent e).tierPending = s.tierPending := (congrArg State.tierPending (s.hqEvent_only e)).trans rfl
@[simp] theorem State.hqEvent_flash (s : State) (e : Evt) : (s.hqEvent e).flash = s.flash := (congrArg State.flash (s.hqEvent_only e)).trans rfl
@[simp] theorem State.hqEvent_kv (s : State) (e : Evt) : (s.hqEvent e).kv = s.kv := (congrArg State.kv (s.hqEvent_only e)).trans rfl
@[simp] theorem State.hqEvent_kvPages (s : State) (e : Evt) : (s.hqEvent e).kvPages = s.kvPages := (congrArg State.kvPages (s.hqEvent_only e)).trans rfl
@[simp] theorem State.hqEvent_kvPending (s : State) (e : Evt) : (s.hqEvent e).kvPending = s.kvPending := (congrArg State.kvPending (s.hqEvent_only e)).trans rfl
@[simp] theorem State.hqEvent_kvTouched (s : State) (e : Evt) : (s.hqEvent e).kvTouched = s.kvTouched := (congrArg State.kvTouched (s.hqEvent_only e)).trans rfl
@[simp] theorem State.hqEvent_seqSlots (s : State) (e : Evt) : (s.hqEvent e).seqSlots = s.seqSlots := (congrArg State.seqSlots (s.hqEvent_only e)).trans rfl
@[simp] theorem State.hqEvent_seqTags (s : State) (e : Evt) : (s.hqEvent e).seqTags = s.seqTags := (congrArg State.seqTags (s.hqEvent_only e)).trans rfl
@[simp] theorem State.hqEvent_seqCmds (s : State) (e : Evt) : (s.hqEvent e).seqCmds = s.seqCmds := (congrArg State.seqCmds (s.hqEvent_only e)).trans rfl
@[simp] theorem State.hqEvent_dieSkew (s : State) (e : Evt) : (s.hqEvent e).dieSkew = s.dieSkew := (congrArg State.dieSkew (s.hqEvent_only e)).trans rfl
@[simp] theorem State.hqEvent_dieLag (s : State) (e : Evt) : (s.hqEvent e).dieLag = s.dieLag := (congrArg State.dieLag (s.hqEvent_only e)).trans rfl
@[simp] theorem State.hqEvent_tlb (s : State) (e : Evt) : (s.hqEvent e).tlb = s.tlb := (congrArg State.tlb (s.hqEvent_only e)).trans rfl
@[simp] theorem State.hqEvent_requests (s : State) (e : Evt) : (s.hqEvent e).requests = s.requests := (congrArg State.requests (s.hqEvent_only e)).trans rfl
@[simp] theorem State.hqEvent_nextReq (s : State) (e : Evt) : (s.hqEvent e).nextReq = s.nextReq := (congrArg State.nextReq (s.hqEvent_only e)).trans rfl
@[simp] theorem State.hqEvent_windows (s : State) (e : Evt) : (s.hqEvent e).windows = s.windows := (congrArg State.windows (s.hqEvent_only e)).trans rfl
@[simp] theorem State.hqEvent_ports (s : State) (e : Evt) : (s.hqEvent e).ports = s.ports := (congrArg State.ports (s.hqEvent_only e)).trans rfl
@[simp] theorem State.hqEvent_loops (s : State) (e : Evt) : (s.hqEvent e).loops = s.loops := (congrArg State.loops (s.hqEvent_only e)).trans rfl
@[simp] theorem State.hqEvent_crust (s : State) (e : Evt) : (s.hqEvent e).crust = s.crust := (congrArg State.crust (s.hqEvent_only e)).trans rfl
@[simp] theorem State.hqEvent_map (s : State) (e : Evt) : (s.hqEvent e).map = s.map := (congrArg State.map (s.hqEvent_only e)).trans rfl
@[simp] theorem State.hqEvent_fusion (s : State) (e : Evt) : (s.hqEvent e).fusion = s.fusion := (congrArg State.fusion (s.hqEvent_only e)).trans rfl
@[simp] theorem State.hqEvent_plan (s : State) (e : Evt) : (s.hqEvent e).plan = s.plan := (congrArg State.plan (s.hqEvent_only e)).trans rfl
@[simp] theorem State.hqEvent_solv (s : State) (e : Evt) : (s.hqEvent e).solv = s.solv := (congrArg State.solv (s.hqEvent_only e)).trans rfl
@[simp] theorem State.hqEvent_diesPresent (s : State) (e : Evt) : (s.hqEvent e).diesPresent = s.diesPresent := (congrArg State.diesPresent (s.hqEvent_only e)).trans rfl
@[simp] theorem State.hqEvent_linkMods (s : State) (e : Evt) : (s.hqEvent e).linkMods = s.linkMods := (congrArg State.linkMods (s.hqEvent_only e)).trans rfl
@[simp] theorem State.hqEvent_held (s : State) (e : Evt) : (s.hqEvent e).held = s.held := (congrArg State.held (s.hqEvent_only e)).trans rfl
@[simp] theorem State.hqEvent_proofRunning (s : State) (e : Evt) : (s.hqEvent e).proofRunning = s.proofRunning := (congrArg State.proofRunning (s.hqEvent_only e)).trans rfl
@[simp] theorem State.hqEvent_rails (s : State) (e : Evt) : (s.hqEvent e).rails = s.rails := (congrArg State.rails (s.hqEvent_only e)).trans rfl
@[simp] theorem State.hqEvent_power (s : State) (e : Evt) : (s.hqEvent e).power = s.power := (congrArg State.power (s.hqEvent_only e)).trans rfl
@[simp] theorem State.hqEvent_rst (s : State) (e : Evt) : (s.hqEvent e).rst = s.rst := (congrArg State.rst (s.hqEvent_only e)).trans rfl
@[simp] theorem State.hqEvent_boot (s : State) (e : Evt) : (s.hqEvent e).boot = s.boot := (congrArg State.boot (s.hqEvent_only e)).trans rfl

@[simp] theorem State.useFree_pending (s : State) (n : Nat) : (s.useFree n).pending = s.pending := rfl
@[simp] theorem State.useFree_answer (s : State) (n : Nat) : (s.useFree n).answer = s.answer := rfl
@[simp] theorem State.useFree_regs (s : State) (n : Nat) : (s.useFree n).regs = s.regs := rfl
@[simp] theorem State.useFree_latches (s : State) (n : Nat) : (s.useFree n).latches = s.latches := rfl
@[simp] theorem State.useFree_staged (s : State) (n : Nat) : (s.useFree n).staged = s.staged := rfl
@[simp] theorem State.useFree_phys (s : State) (n : Nat) : (s.useFree n).phys = s.phys := rfl
@[simp] theorem State.useFree_hostMem (s : State) (n : Nat) : (s.useFree n).hostMem = s.hostMem := rfl
@[simp] theorem State.useFree_devTime (s : State) (n : Nat) : (s.useFree n).devTime = s.devTime := rfl
@[simp] theorem State.useFree_mono (s : State) (n : Nat) : (s.useFree n).mono = s.mono := rfl
@[simp] theorem State.useFree_layout (s : State) (n : Nat) : (s.useFree n).layout = s.layout := rfl
@[simp] theorem State.useFree_safetyDigest (s : State) (n : Nat) : (s.useFree n).safetyDigest = s.safetyDigest := rfl
@[simp] theorem State.useFree_load (s : State) (n : Nat) : (s.useFree n).load = s.load := rfl
@[simp] theorem State.useFree_ctxs (s : State) (n : Nat) : (s.useFree n).ctxs = s.ctxs := rfl
@[simp] theorem State.useFree_queues (s : State) (n : Nat) : (s.useFree n).queues = s.queues := rfl
@[simp] theorem State.useFree_invs (s : State) (n : Nat) : (s.useFree n).invs = s.invs := rfl
@[simp] theorem State.useFree_runs (s : State) (n : Nat) : (s.useFree n).runs = s.runs := rfl
@[simp] theorem State.useFree_nextRun (s : State) (n : Nat) : (s.useFree n).nextRun = s.nextRun := rfl
@[simp] theorem State.useFree_syncs (s : State) (n : Nat) : (s.useFree n).syncs = s.syncs := rfl
@[simp] theorem State.useFree_msix (s : State) (n : Nat) : (s.useFree n).msix = s.msix := rfl
@[simp] theorem State.useFree_msixTable (s : State) (n : Nat) : (s.useFree n).msixTable = s.msixTable := rfl
@[simp] theorem State.useFree_msixPending (s : State) (n : Nat) : (s.useFree n).msixPending = s.msixPending := rfl
@[simp] theorem State.useFree_endpoint (s : State) (n : Nat) : (s.useFree n).endpoint = s.endpoint := rfl
@[simp] theorem State.useFree_proposal (s : State) (n : Nat) : (s.useFree n).proposal = s.proposal := rfl
@[simp] theorem State.useFree_maps (s : State) (n : Nat) : (s.useFree n).maps = s.maps := rfl
@[simp] theorem State.useFree_seqLinks (s : State) (n : Nat) : (s.useFree n).seqLinks = s.seqLinks := rfl
@[simp] theorem State.useFree_nextAlloc (s : State) (n : Nat) : (s.useFree n).nextAlloc = s.nextAlloc := rfl
@[simp] theorem State.useFree_tierPending (s : State) (n : Nat) : (s.useFree n).tierPending = s.tierPending := rfl
@[simp] theorem State.useFree_flash (s : State) (n : Nat) : (s.useFree n).flash = s.flash := rfl
@[simp] theorem State.useFree_kv (s : State) (n : Nat) : (s.useFree n).kv = s.kv := rfl
@[simp] theorem State.useFree_kvPages (s : State) (n : Nat) : (s.useFree n).kvPages = s.kvPages := rfl
@[simp] theorem State.useFree_kvPending (s : State) (n : Nat) : (s.useFree n).kvPending = s.kvPending := rfl
@[simp] theorem State.useFree_kvTouched (s : State) (n : Nat) : (s.useFree n).kvTouched = s.kvTouched := rfl
@[simp] theorem State.useFree_seqSlots (s : State) (n : Nat) : (s.useFree n).seqSlots = s.seqSlots := rfl
@[simp] theorem State.useFree_seqTags (s : State) (n : Nat) : (s.useFree n).seqTags = s.seqTags := rfl
@[simp] theorem State.useFree_seqCmds (s : State) (n : Nat) : (s.useFree n).seqCmds = s.seqCmds := rfl
@[simp] theorem State.useFree_dieSkew (s : State) (n : Nat) : (s.useFree n).dieSkew = s.dieSkew := rfl
@[simp] theorem State.useFree_dieLag (s : State) (n : Nat) : (s.useFree n).dieLag = s.dieLag := rfl
@[simp] theorem State.useFree_tlb (s : State) (n : Nat) : (s.useFree n).tlb = s.tlb := rfl
@[simp] theorem State.useFree_requests (s : State) (n : Nat) : (s.useFree n).requests = s.requests := rfl
@[simp] theorem State.useFree_nextReq (s : State) (n : Nat) : (s.useFree n).nextReq = s.nextReq := rfl
@[simp] theorem State.useFree_windows (s : State) (n : Nat) : (s.useFree n).windows = s.windows := rfl
@[simp] theorem State.useFree_ports (s : State) (n : Nat) : (s.useFree n).ports = s.ports := rfl
@[simp] theorem State.useFree_loops (s : State) (n : Nat) : (s.useFree n).loops = s.loops := rfl
@[simp] theorem State.useFree_crust (s : State) (n : Nat) : (s.useFree n).crust = s.crust := rfl
@[simp] theorem State.useFree_map (s : State) (n : Nat) : (s.useFree n).map = s.map := rfl
@[simp] theorem State.useFree_fusion (s : State) (n : Nat) : (s.useFree n).fusion = s.fusion := rfl
@[simp] theorem State.useFree_plan (s : State) (n : Nat) : (s.useFree n).plan = s.plan := rfl
@[simp] theorem State.useFree_solv (s : State) (n : Nat) : (s.useFree n).solv = s.solv := rfl
@[simp] theorem State.useFree_diesPresent (s : State) (n : Nat) : (s.useFree n).diesPresent = s.diesPresent := rfl
@[simp] theorem State.useFree_linkMods (s : State) (n : Nat) : (s.useFree n).linkMods = s.linkMods := rfl
@[simp] theorem State.useFree_held (s : State) (n : Nat) : (s.useFree n).held = s.held := rfl
@[simp] theorem State.useFree_proofRunning (s : State) (n : Nat) : (s.useFree n).proofRunning = s.proofRunning := rfl
@[simp] theorem State.useFree_rails (s : State) (n : Nat) : (s.useFree n).rails = s.rails := rfl
@[simp] theorem State.useFree_power (s : State) (n : Nat) : (s.useFree n).power = s.power := rfl
@[simp] theorem State.useFree_rst (s : State) (n : Nat) : (s.useFree n).rst = s.rst := rfl
@[simp] theorem State.useFree_boot (s : State) (n : Nat) : (s.useFree n).boot = s.boot := rfl

@[simp] theorem State.setByte_pending (s : State) (a : Nat) (b : BitVec 8) : (s.setByte a b).pending = s.pending := rfl
@[simp] theorem State.setByte_freeCtr (s : State) (a : Nat) (b : BitVec 8) : (s.setByte a b).freeCtr = s.freeCtr := rfl
@[simp] theorem State.setByte_answer (s : State) (a : Nat) (b : BitVec 8) : (s.setByte a b).answer = s.answer := rfl
@[simp] theorem State.setByte_regs (s : State) (a : Nat) (b : BitVec 8) : (s.setByte a b).regs = s.regs := rfl
@[simp] theorem State.setByte_latches (s : State) (a : Nat) (b : BitVec 8) : (s.setByte a b).latches = s.latches := rfl
@[simp] theorem State.setByte_staged (s : State) (a : Nat) (b : BitVec 8) : (s.setByte a b).staged = s.staged := rfl
@[simp] theorem State.setByte_hostMem (s : State) (a : Nat) (b : BitVec 8) : (s.setByte a b).hostMem = s.hostMem := rfl
@[simp] theorem State.setByte_devTime (s : State) (a : Nat) (b : BitVec 8) : (s.setByte a b).devTime = s.devTime := rfl
@[simp] theorem State.setByte_mono (s : State) (a : Nat) (b : BitVec 8) : (s.setByte a b).mono = s.mono := rfl
@[simp] theorem State.setByte_layout (s : State) (a : Nat) (b : BitVec 8) : (s.setByte a b).layout = s.layout := rfl
@[simp] theorem State.setByte_safetyDigest (s : State) (a : Nat) (b : BitVec 8) : (s.setByte a b).safetyDigest = s.safetyDigest := rfl
@[simp] theorem State.setByte_load (s : State) (a : Nat) (b : BitVec 8) : (s.setByte a b).load = s.load := rfl
@[simp] theorem State.setByte_ctxs (s : State) (a : Nat) (b : BitVec 8) : (s.setByte a b).ctxs = s.ctxs := rfl
@[simp] theorem State.setByte_queues (s : State) (a : Nat) (b : BitVec 8) : (s.setByte a b).queues = s.queues := rfl
@[simp] theorem State.setByte_invs (s : State) (a : Nat) (b : BitVec 8) : (s.setByte a b).invs = s.invs := rfl
@[simp] theorem State.setByte_runs (s : State) (a : Nat) (b : BitVec 8) : (s.setByte a b).runs = s.runs := rfl
@[simp] theorem State.setByte_nextRun (s : State) (a : Nat) (b : BitVec 8) : (s.setByte a b).nextRun = s.nextRun := rfl
@[simp] theorem State.setByte_syncs (s : State) (a : Nat) (b : BitVec 8) : (s.setByte a b).syncs = s.syncs := rfl
@[simp] theorem State.setByte_msix (s : State) (a : Nat) (b : BitVec 8) : (s.setByte a b).msix = s.msix := rfl
@[simp] theorem State.setByte_msixTable (s : State) (a : Nat) (b : BitVec 8) : (s.setByte a b).msixTable = s.msixTable := rfl
@[simp] theorem State.setByte_msixPending (s : State) (a : Nat) (b : BitVec 8) : (s.setByte a b).msixPending = s.msixPending := rfl
@[simp] theorem State.setByte_endpoint (s : State) (a : Nat) (b : BitVec 8) : (s.setByte a b).endpoint = s.endpoint := rfl
@[simp] theorem State.setByte_proposal (s : State) (a : Nat) (b : BitVec 8) : (s.setByte a b).proposal = s.proposal := rfl
@[simp] theorem State.setByte_maps (s : State) (a : Nat) (b : BitVec 8) : (s.setByte a b).maps = s.maps := rfl
@[simp] theorem State.setByte_seqLinks (s : State) (a : Nat) (b : BitVec 8) : (s.setByte a b).seqLinks = s.seqLinks := rfl
@[simp] theorem State.setByte_nextAlloc (s : State) (a : Nat) (b : BitVec 8) : (s.setByte a b).nextAlloc = s.nextAlloc := rfl
@[simp] theorem State.setByte_tierPending (s : State) (a : Nat) (b : BitVec 8) : (s.setByte a b).tierPending = s.tierPending := rfl
@[simp] theorem State.setByte_flash (s : State) (a : Nat) (b : BitVec 8) : (s.setByte a b).flash = s.flash := rfl
@[simp] theorem State.setByte_kv (s : State) (a : Nat) (b : BitVec 8) : (s.setByte a b).kv = s.kv := rfl
@[simp] theorem State.setByte_kvPages (s : State) (a : Nat) (b : BitVec 8) : (s.setByte a b).kvPages = s.kvPages := rfl
@[simp] theorem State.setByte_kvPending (s : State) (a : Nat) (b : BitVec 8) : (s.setByte a b).kvPending = s.kvPending := rfl
@[simp] theorem State.setByte_kvTouched (s : State) (a : Nat) (b : BitVec 8) : (s.setByte a b).kvTouched = s.kvTouched := rfl
@[simp] theorem State.setByte_seqSlots (s : State) (a : Nat) (b : BitVec 8) : (s.setByte a b).seqSlots = s.seqSlots := rfl
@[simp] theorem State.setByte_seqTags (s : State) (a : Nat) (b : BitVec 8) : (s.setByte a b).seqTags = s.seqTags := rfl
@[simp] theorem State.setByte_seqCmds (s : State) (a : Nat) (b : BitVec 8) : (s.setByte a b).seqCmds = s.seqCmds := rfl
@[simp] theorem State.setByte_dieSkew (s : State) (a : Nat) (b : BitVec 8) : (s.setByte a b).dieSkew = s.dieSkew := rfl
@[simp] theorem State.setByte_dieLag (s : State) (a : Nat) (b : BitVec 8) : (s.setByte a b).dieLag = s.dieLag := rfl
@[simp] theorem State.setByte_tlb (s : State) (a : Nat) (b : BitVec 8) : (s.setByte a b).tlb = s.tlb := rfl
@[simp] theorem State.setByte_requests (s : State) (a : Nat) (b : BitVec 8) : (s.setByte a b).requests = s.requests := rfl
@[simp] theorem State.setByte_nextReq (s : State) (a : Nat) (b : BitVec 8) : (s.setByte a b).nextReq = s.nextReq := rfl
@[simp] theorem State.setByte_windows (s : State) (a : Nat) (b : BitVec 8) : (s.setByte a b).windows = s.windows := rfl
@[simp] theorem State.setByte_ports (s : State) (a : Nat) (b : BitVec 8) : (s.setByte a b).ports = s.ports := rfl
@[simp] theorem State.setByte_loops (s : State) (a : Nat) (b : BitVec 8) : (s.setByte a b).loops = s.loops := rfl
@[simp] theorem State.setByte_crust (s : State) (a : Nat) (b : BitVec 8) : (s.setByte a b).crust = s.crust := rfl
@[simp] theorem State.setByte_map (s : State) (a : Nat) (b : BitVec 8) : (s.setByte a b).map = s.map := rfl
@[simp] theorem State.setByte_fusion (s : State) (a : Nat) (b : BitVec 8) : (s.setByte a b).fusion = s.fusion := rfl
@[simp] theorem State.setByte_plan (s : State) (a : Nat) (b : BitVec 8) : (s.setByte a b).plan = s.plan := rfl
@[simp] theorem State.setByte_solv (s : State) (a : Nat) (b : BitVec 8) : (s.setByte a b).solv = s.solv := rfl
@[simp] theorem State.setByte_diesPresent (s : State) (a : Nat) (b : BitVec 8) : (s.setByte a b).diesPresent = s.diesPresent := rfl
@[simp] theorem State.setByte_linkMods (s : State) (a : Nat) (b : BitVec 8) : (s.setByte a b).linkMods = s.linkMods := rfl
@[simp] theorem State.setByte_held (s : State) (a : Nat) (b : BitVec 8) : (s.setByte a b).held = s.held := rfl
@[simp] theorem State.setByte_proofRunning (s : State) (a : Nat) (b : BitVec 8) : (s.setByte a b).proofRunning = s.proofRunning := rfl
@[simp] theorem State.setByte_rails (s : State) (a : Nat) (b : BitVec 8) : (s.setByte a b).rails = s.rails := rfl
@[simp] theorem State.setByte_power (s : State) (a : Nat) (b : BitVec 8) : (s.setByte a b).power = s.power := rfl
@[simp] theorem State.setByte_rst (s : State) (a : Nat) (b : BitVec 8) : (s.setByte a b).rst = s.rst := rfl
@[simp] theorem State.setByte_boot (s : State) (a : Nat) (b : BitVec 8) : (s.setByte a b).boot = s.boot := rfl

@[simp] theorem State.setSync_pending (s : State) (k v : Nat) : (s.setSync k v).pending = s.pending := rfl
@[simp] theorem State.setSync_freeCtr (s : State) (k v : Nat) : (s.setSync k v).freeCtr = s.freeCtr := rfl
@[simp] theorem State.setSync_answer (s : State) (k v : Nat) : (s.setSync k v).answer = s.answer := rfl
@[simp] theorem State.setSync_regs (s : State) (k v : Nat) : (s.setSync k v).regs = s.regs := rfl
@[simp] theorem State.setSync_latches (s : State) (k v : Nat) : (s.setSync k v).latches = s.latches := rfl
@[simp] theorem State.setSync_staged (s : State) (k v : Nat) : (s.setSync k v).staged = s.staged := rfl
@[simp] theorem State.setSync_phys (s : State) (k v : Nat) : (s.setSync k v).phys = s.phys := rfl
@[simp] theorem State.setSync_hostMem (s : State) (k v : Nat) : (s.setSync k v).hostMem = s.hostMem := rfl
@[simp] theorem State.setSync_devTime (s : State) (k v : Nat) : (s.setSync k v).devTime = s.devTime := rfl
@[simp] theorem State.setSync_mono (s : State) (k v : Nat) : (s.setSync k v).mono = s.mono := rfl
@[simp] theorem State.setSync_layout (s : State) (k v : Nat) : (s.setSync k v).layout = s.layout := rfl
@[simp] theorem State.setSync_safetyDigest (s : State) (k v : Nat) : (s.setSync k v).safetyDigest = s.safetyDigest := rfl
@[simp] theorem State.setSync_load (s : State) (k v : Nat) : (s.setSync k v).load = s.load := rfl
@[simp] theorem State.setSync_ctxs (s : State) (k v : Nat) : (s.setSync k v).ctxs = s.ctxs := rfl
@[simp] theorem State.setSync_queues (s : State) (k v : Nat) : (s.setSync k v).queues = s.queues := rfl
@[simp] theorem State.setSync_invs (s : State) (k v : Nat) : (s.setSync k v).invs = s.invs := rfl
@[simp] theorem State.setSync_runs (s : State) (k v : Nat) : (s.setSync k v).runs = s.runs := rfl
@[simp] theorem State.setSync_nextRun (s : State) (k v : Nat) : (s.setSync k v).nextRun = s.nextRun := rfl
@[simp] theorem State.setSync_msix (s : State) (k v : Nat) : (s.setSync k v).msix = s.msix := rfl
@[simp] theorem State.setSync_msixTable (s : State) (k v : Nat) : (s.setSync k v).msixTable = s.msixTable := rfl
@[simp] theorem State.setSync_msixPending (s : State) (k v : Nat) : (s.setSync k v).msixPending = s.msixPending := rfl
@[simp] theorem State.setSync_endpoint (s : State) (k v : Nat) : (s.setSync k v).endpoint = s.endpoint := rfl
@[simp] theorem State.setSync_proposal (s : State) (k v : Nat) : (s.setSync k v).proposal = s.proposal := rfl
@[simp] theorem State.setSync_maps (s : State) (k v : Nat) : (s.setSync k v).maps = s.maps := rfl
@[simp] theorem State.setSync_seqLinks (s : State) (k v : Nat) : (s.setSync k v).seqLinks = s.seqLinks := rfl
@[simp] theorem State.setSync_nextAlloc (s : State) (k v : Nat) : (s.setSync k v).nextAlloc = s.nextAlloc := rfl
@[simp] theorem State.setSync_tierPending (s : State) (k v : Nat) : (s.setSync k v).tierPending = s.tierPending := rfl
@[simp] theorem State.setSync_flash (s : State) (k v : Nat) : (s.setSync k v).flash = s.flash := rfl
@[simp] theorem State.setSync_kv (s : State) (k v : Nat) : (s.setSync k v).kv = s.kv := rfl
@[simp] theorem State.setSync_kvPages (s : State) (k v : Nat) : (s.setSync k v).kvPages = s.kvPages := rfl
@[simp] theorem State.setSync_kvPending (s : State) (k v : Nat) : (s.setSync k v).kvPending = s.kvPending := rfl
@[simp] theorem State.setSync_kvTouched (s : State) (k v : Nat) : (s.setSync k v).kvTouched = s.kvTouched := rfl
@[simp] theorem State.setSync_seqSlots (s : State) (k v : Nat) : (s.setSync k v).seqSlots = s.seqSlots := rfl
@[simp] theorem State.setSync_seqTags (s : State) (k v : Nat) : (s.setSync k v).seqTags = s.seqTags := rfl
@[simp] theorem State.setSync_seqCmds (s : State) (k v : Nat) : (s.setSync k v).seqCmds = s.seqCmds := rfl
@[simp] theorem State.setSync_dieSkew (s : State) (k v : Nat) : (s.setSync k v).dieSkew = s.dieSkew := rfl
@[simp] theorem State.setSync_dieLag (s : State) (k v : Nat) : (s.setSync k v).dieLag = s.dieLag := rfl
@[simp] theorem State.setSync_tlb (s : State) (k v : Nat) : (s.setSync k v).tlb = s.tlb := rfl
@[simp] theorem State.setSync_requests (s : State) (k v : Nat) : (s.setSync k v).requests = s.requests := rfl
@[simp] theorem State.setSync_nextReq (s : State) (k v : Nat) : (s.setSync k v).nextReq = s.nextReq := rfl
@[simp] theorem State.setSync_windows (s : State) (k v : Nat) : (s.setSync k v).windows = s.windows := rfl
@[simp] theorem State.setSync_ports (s : State) (k v : Nat) : (s.setSync k v).ports = s.ports := rfl
@[simp] theorem State.setSync_loops (s : State) (k v : Nat) : (s.setSync k v).loops = s.loops := rfl
@[simp] theorem State.setSync_crust (s : State) (k v : Nat) : (s.setSync k v).crust = s.crust := rfl
@[simp] theorem State.setSync_map (s : State) (k v : Nat) : (s.setSync k v).map = s.map := rfl
@[simp] theorem State.setSync_fusion (s : State) (k v : Nat) : (s.setSync k v).fusion = s.fusion := rfl
@[simp] theorem State.setSync_plan (s : State) (k v : Nat) : (s.setSync k v).plan = s.plan := rfl
@[simp] theorem State.setSync_solv (s : State) (k v : Nat) : (s.setSync k v).solv = s.solv := rfl
@[simp] theorem State.setSync_diesPresent (s : State) (k v : Nat) : (s.setSync k v).diesPresent = s.diesPresent := rfl
@[simp] theorem State.setSync_linkMods (s : State) (k v : Nat) : (s.setSync k v).linkMods = s.linkMods := rfl
@[simp] theorem State.setSync_held (s : State) (k v : Nat) : (s.setSync k v).held = s.held := rfl
@[simp] theorem State.setSync_proofRunning (s : State) (k v : Nat) : (s.setSync k v).proofRunning = s.proofRunning := rfl
@[simp] theorem State.setSync_rails (s : State) (k v : Nat) : (s.setSync k v).rails = s.rails := rfl
@[simp] theorem State.setSync_power (s : State) (k v : Nat) : (s.setSync k v).power = s.power := rfl
@[simp] theorem State.setSync_rst (s : State) (k v : Nat) : (s.setSync k v).rst = s.rst := rfl
@[simp] theorem State.setSync_boot (s : State) (k v : Nat) : (s.setSync k v).boot = s.boot := rfl

@[simp] theorem State.setCtx_pending (s : State) (k : Nat) (c : Ctx) : (s.setCtx k c).pending = s.pending := rfl
@[simp] theorem State.setCtx_freeCtr (s : State) (k : Nat) (c : Ctx) : (s.setCtx k c).freeCtr = s.freeCtr := rfl
@[simp] theorem State.setCtx_answer (s : State) (k : Nat) (c : Ctx) : (s.setCtx k c).answer = s.answer := rfl
@[simp] theorem State.setCtx_regs (s : State) (k : Nat) (c : Ctx) : (s.setCtx k c).regs = s.regs := rfl
@[simp] theorem State.setCtx_latches (s : State) (k : Nat) (c : Ctx) : (s.setCtx k c).latches = s.latches := rfl
@[simp] theorem State.setCtx_staged (s : State) (k : Nat) (c : Ctx) : (s.setCtx k c).staged = s.staged := rfl
@[simp] theorem State.setCtx_phys (s : State) (k : Nat) (c : Ctx) : (s.setCtx k c).phys = s.phys := rfl
@[simp] theorem State.setCtx_hostMem (s : State) (k : Nat) (c : Ctx) : (s.setCtx k c).hostMem = s.hostMem := rfl
@[simp] theorem State.setCtx_devTime (s : State) (k : Nat) (c : Ctx) : (s.setCtx k c).devTime = s.devTime := rfl
@[simp] theorem State.setCtx_mono (s : State) (k : Nat) (c : Ctx) : (s.setCtx k c).mono = s.mono := rfl
@[simp] theorem State.setCtx_layout (s : State) (k : Nat) (c : Ctx) : (s.setCtx k c).layout = s.layout := rfl
@[simp] theorem State.setCtx_safetyDigest (s : State) (k : Nat) (c : Ctx) : (s.setCtx k c).safetyDigest = s.safetyDigest := rfl
@[simp] theorem State.setCtx_load (s : State) (k : Nat) (c : Ctx) : (s.setCtx k c).load = s.load := rfl
@[simp] theorem State.setCtx_queues (s : State) (k : Nat) (c : Ctx) : (s.setCtx k c).queues = s.queues := rfl
@[simp] theorem State.setCtx_invs (s : State) (k : Nat) (c : Ctx) : (s.setCtx k c).invs = s.invs := rfl
@[simp] theorem State.setCtx_runs (s : State) (k : Nat) (c : Ctx) : (s.setCtx k c).runs = s.runs := rfl
@[simp] theorem State.setCtx_nextRun (s : State) (k : Nat) (c : Ctx) : (s.setCtx k c).nextRun = s.nextRun := rfl
@[simp] theorem State.setCtx_syncs (s : State) (k : Nat) (c : Ctx) : (s.setCtx k c).syncs = s.syncs := rfl
@[simp] theorem State.setCtx_msix (s : State) (k : Nat) (c : Ctx) : (s.setCtx k c).msix = s.msix := rfl
@[simp] theorem State.setCtx_msixTable (s : State) (k : Nat) (c : Ctx) : (s.setCtx k c).msixTable = s.msixTable := rfl
@[simp] theorem State.setCtx_msixPending (s : State) (k : Nat) (c : Ctx) : (s.setCtx k c).msixPending = s.msixPending := rfl
@[simp] theorem State.setCtx_endpoint (s : State) (k : Nat) (c : Ctx) : (s.setCtx k c).endpoint = s.endpoint := rfl
@[simp] theorem State.setCtx_proposal (s : State) (k : Nat) (c : Ctx) : (s.setCtx k c).proposal = s.proposal := rfl
@[simp] theorem State.setCtx_maps (s : State) (k : Nat) (c : Ctx) : (s.setCtx k c).maps = s.maps := rfl
@[simp] theorem State.setCtx_seqLinks (s : State) (k : Nat) (c : Ctx) : (s.setCtx k c).seqLinks = s.seqLinks := rfl
@[simp] theorem State.setCtx_nextAlloc (s : State) (k : Nat) (c : Ctx) : (s.setCtx k c).nextAlloc = s.nextAlloc := rfl
@[simp] theorem State.setCtx_tierPending (s : State) (k : Nat) (c : Ctx) : (s.setCtx k c).tierPending = s.tierPending := rfl
@[simp] theorem State.setCtx_flash (s : State) (k : Nat) (c : Ctx) : (s.setCtx k c).flash = s.flash := rfl
@[simp] theorem State.setCtx_kv (s : State) (k : Nat) (c : Ctx) : (s.setCtx k c).kv = s.kv := rfl
@[simp] theorem State.setCtx_kvPages (s : State) (k : Nat) (c : Ctx) : (s.setCtx k c).kvPages = s.kvPages := rfl
@[simp] theorem State.setCtx_kvPending (s : State) (k : Nat) (c : Ctx) : (s.setCtx k c).kvPending = s.kvPending := rfl
@[simp] theorem State.setCtx_kvTouched (s : State) (k : Nat) (c : Ctx) : (s.setCtx k c).kvTouched = s.kvTouched := rfl
@[simp] theorem State.setCtx_seqSlots (s : State) (k : Nat) (c : Ctx) : (s.setCtx k c).seqSlots = s.seqSlots := rfl
@[simp] theorem State.setCtx_seqTags (s : State) (k : Nat) (c : Ctx) : (s.setCtx k c).seqTags = s.seqTags := rfl
@[simp] theorem State.setCtx_seqCmds (s : State) (k : Nat) (c : Ctx) : (s.setCtx k c).seqCmds = s.seqCmds := rfl
@[simp] theorem State.setCtx_dieSkew (s : State) (k : Nat) (c : Ctx) : (s.setCtx k c).dieSkew = s.dieSkew := rfl
@[simp] theorem State.setCtx_dieLag (s : State) (k : Nat) (c : Ctx) : (s.setCtx k c).dieLag = s.dieLag := rfl
@[simp] theorem State.setCtx_tlb (s : State) (k : Nat) (c : Ctx) : (s.setCtx k c).tlb = s.tlb := rfl
@[simp] theorem State.setCtx_requests (s : State) (k : Nat) (c : Ctx) : (s.setCtx k c).requests = s.requests := rfl
@[simp] theorem State.setCtx_nextReq (s : State) (k : Nat) (c : Ctx) : (s.setCtx k c).nextReq = s.nextReq := rfl
@[simp] theorem State.setCtx_windows (s : State) (k : Nat) (c : Ctx) : (s.setCtx k c).windows = s.windows := rfl
@[simp] theorem State.setCtx_ports (s : State) (k : Nat) (c : Ctx) : (s.setCtx k c).ports = s.ports := rfl
@[simp] theorem State.setCtx_loops (s : State) (k : Nat) (c : Ctx) : (s.setCtx k c).loops = s.loops := rfl
@[simp] theorem State.setCtx_crust (s : State) (k : Nat) (c : Ctx) : (s.setCtx k c).crust = s.crust := rfl
@[simp] theorem State.setCtx_map (s : State) (k : Nat) (c : Ctx) : (s.setCtx k c).map = s.map := rfl
@[simp] theorem State.setCtx_fusion (s : State) (k : Nat) (c : Ctx) : (s.setCtx k c).fusion = s.fusion := rfl
@[simp] theorem State.setCtx_plan (s : State) (k : Nat) (c : Ctx) : (s.setCtx k c).plan = s.plan := rfl
@[simp] theorem State.setCtx_solv (s : State) (k : Nat) (c : Ctx) : (s.setCtx k c).solv = s.solv := rfl
@[simp] theorem State.setCtx_diesPresent (s : State) (k : Nat) (c : Ctx) : (s.setCtx k c).diesPresent = s.diesPresent := rfl
@[simp] theorem State.setCtx_linkMods (s : State) (k : Nat) (c : Ctx) : (s.setCtx k c).linkMods = s.linkMods := rfl
@[simp] theorem State.setCtx_held (s : State) (k : Nat) (c : Ctx) : (s.setCtx k c).held = s.held := rfl
@[simp] theorem State.setCtx_proofRunning (s : State) (k : Nat) (c : Ctx) : (s.setCtx k c).proofRunning = s.proofRunning := rfl
@[simp] theorem State.setCtx_rails (s : State) (k : Nat) (c : Ctx) : (s.setCtx k c).rails = s.rails := rfl
@[simp] theorem State.setCtx_power (s : State) (k : Nat) (c : Ctx) : (s.setCtx k c).power = s.power := rfl
@[simp] theorem State.setCtx_rst (s : State) (k : Nat) (c : Ctx) : (s.setCtx k c).rst = s.rst := rfl
@[simp] theorem State.setCtx_boot (s : State) (k : Nat) (c : Ctx) : (s.setCtx k c).boot = s.boot := rfl

@[simp] theorem State.setQueue_pending (s : State) (k : Nat) (q : Queue) : (s.setQueue k q).pending = s.pending := rfl
@[simp] theorem State.setQueue_freeCtr (s : State) (k : Nat) (q : Queue) : (s.setQueue k q).freeCtr = s.freeCtr := rfl
@[simp] theorem State.setQueue_answer (s : State) (k : Nat) (q : Queue) : (s.setQueue k q).answer = s.answer := rfl
@[simp] theorem State.setQueue_regs (s : State) (k : Nat) (q : Queue) : (s.setQueue k q).regs = s.regs := rfl
@[simp] theorem State.setQueue_latches (s : State) (k : Nat) (q : Queue) : (s.setQueue k q).latches = s.latches := rfl
@[simp] theorem State.setQueue_staged (s : State) (k : Nat) (q : Queue) : (s.setQueue k q).staged = s.staged := rfl
@[simp] theorem State.setQueue_phys (s : State) (k : Nat) (q : Queue) : (s.setQueue k q).phys = s.phys := rfl
@[simp] theorem State.setQueue_hostMem (s : State) (k : Nat) (q : Queue) : (s.setQueue k q).hostMem = s.hostMem := rfl
@[simp] theorem State.setQueue_devTime (s : State) (k : Nat) (q : Queue) : (s.setQueue k q).devTime = s.devTime := rfl
@[simp] theorem State.setQueue_mono (s : State) (k : Nat) (q : Queue) : (s.setQueue k q).mono = s.mono := rfl
@[simp] theorem State.setQueue_layout (s : State) (k : Nat) (q : Queue) : (s.setQueue k q).layout = s.layout := rfl
@[simp] theorem State.setQueue_safetyDigest (s : State) (k : Nat) (q : Queue) : (s.setQueue k q).safetyDigest = s.safetyDigest := rfl
@[simp] theorem State.setQueue_load (s : State) (k : Nat) (q : Queue) : (s.setQueue k q).load = s.load := rfl
@[simp] theorem State.setQueue_ctxs (s : State) (k : Nat) (q : Queue) : (s.setQueue k q).ctxs = s.ctxs := rfl
@[simp] theorem State.setQueue_invs (s : State) (k : Nat) (q : Queue) : (s.setQueue k q).invs = s.invs := rfl
@[simp] theorem State.setQueue_runs (s : State) (k : Nat) (q : Queue) : (s.setQueue k q).runs = s.runs := rfl
@[simp] theorem State.setQueue_nextRun (s : State) (k : Nat) (q : Queue) : (s.setQueue k q).nextRun = s.nextRun := rfl
@[simp] theorem State.setQueue_syncs (s : State) (k : Nat) (q : Queue) : (s.setQueue k q).syncs = s.syncs := rfl
@[simp] theorem State.setQueue_msix (s : State) (k : Nat) (q : Queue) : (s.setQueue k q).msix = s.msix := rfl
@[simp] theorem State.setQueue_msixTable (s : State) (k : Nat) (q : Queue) : (s.setQueue k q).msixTable = s.msixTable := rfl
@[simp] theorem State.setQueue_msixPending (s : State) (k : Nat) (q : Queue) : (s.setQueue k q).msixPending = s.msixPending := rfl
@[simp] theorem State.setQueue_endpoint (s : State) (k : Nat) (q : Queue) : (s.setQueue k q).endpoint = s.endpoint := rfl
@[simp] theorem State.setQueue_proposal (s : State) (k : Nat) (q : Queue) : (s.setQueue k q).proposal = s.proposal := rfl
@[simp] theorem State.setQueue_maps (s : State) (k : Nat) (q : Queue) : (s.setQueue k q).maps = s.maps := rfl
@[simp] theorem State.setQueue_seqLinks (s : State) (k : Nat) (q : Queue) : (s.setQueue k q).seqLinks = s.seqLinks := rfl
@[simp] theorem State.setQueue_nextAlloc (s : State) (k : Nat) (q : Queue) : (s.setQueue k q).nextAlloc = s.nextAlloc := rfl
@[simp] theorem State.setQueue_tierPending (s : State) (k : Nat) (q : Queue) : (s.setQueue k q).tierPending = s.tierPending := rfl
@[simp] theorem State.setQueue_flash (s : State) (k : Nat) (q : Queue) : (s.setQueue k q).flash = s.flash := rfl
@[simp] theorem State.setQueue_kv (s : State) (k : Nat) (q : Queue) : (s.setQueue k q).kv = s.kv := rfl
@[simp] theorem State.setQueue_kvPages (s : State) (k : Nat) (q : Queue) : (s.setQueue k q).kvPages = s.kvPages := rfl
@[simp] theorem State.setQueue_kvPending (s : State) (k : Nat) (q : Queue) : (s.setQueue k q).kvPending = s.kvPending := rfl
@[simp] theorem State.setQueue_kvTouched (s : State) (k : Nat) (q : Queue) : (s.setQueue k q).kvTouched = s.kvTouched := rfl
@[simp] theorem State.setQueue_seqSlots (s : State) (k : Nat) (q : Queue) : (s.setQueue k q).seqSlots = s.seqSlots := rfl
@[simp] theorem State.setQueue_seqTags (s : State) (k : Nat) (q : Queue) : (s.setQueue k q).seqTags = s.seqTags := rfl
@[simp] theorem State.setQueue_seqCmds (s : State) (k : Nat) (q : Queue) : (s.setQueue k q).seqCmds = s.seqCmds := rfl
@[simp] theorem State.setQueue_dieSkew (s : State) (k : Nat) (q : Queue) : (s.setQueue k q).dieSkew = s.dieSkew := rfl
@[simp] theorem State.setQueue_dieLag (s : State) (k : Nat) (q : Queue) : (s.setQueue k q).dieLag = s.dieLag := rfl
@[simp] theorem State.setQueue_tlb (s : State) (k : Nat) (q : Queue) : (s.setQueue k q).tlb = s.tlb := rfl
@[simp] theorem State.setQueue_requests (s : State) (k : Nat) (q : Queue) : (s.setQueue k q).requests = s.requests := rfl
@[simp] theorem State.setQueue_nextReq (s : State) (k : Nat) (q : Queue) : (s.setQueue k q).nextReq = s.nextReq := rfl
@[simp] theorem State.setQueue_windows (s : State) (k : Nat) (q : Queue) : (s.setQueue k q).windows = s.windows := rfl
@[simp] theorem State.setQueue_ports (s : State) (k : Nat) (q : Queue) : (s.setQueue k q).ports = s.ports := rfl
@[simp] theorem State.setQueue_loops (s : State) (k : Nat) (q : Queue) : (s.setQueue k q).loops = s.loops := rfl
@[simp] theorem State.setQueue_crust (s : State) (k : Nat) (q : Queue) : (s.setQueue k q).crust = s.crust := rfl
@[simp] theorem State.setQueue_map (s : State) (k : Nat) (q : Queue) : (s.setQueue k q).map = s.map := rfl
@[simp] theorem State.setQueue_fusion (s : State) (k : Nat) (q : Queue) : (s.setQueue k q).fusion = s.fusion := rfl
@[simp] theorem State.setQueue_plan (s : State) (k : Nat) (q : Queue) : (s.setQueue k q).plan = s.plan := rfl
@[simp] theorem State.setQueue_solv (s : State) (k : Nat) (q : Queue) : (s.setQueue k q).solv = s.solv := rfl
@[simp] theorem State.setQueue_diesPresent (s : State) (k : Nat) (q : Queue) : (s.setQueue k q).diesPresent = s.diesPresent := rfl
@[simp] theorem State.setQueue_linkMods (s : State) (k : Nat) (q : Queue) : (s.setQueue k q).linkMods = s.linkMods := rfl
@[simp] theorem State.setQueue_held (s : State) (k : Nat) (q : Queue) : (s.setQueue k q).held = s.held := rfl
@[simp] theorem State.setQueue_proofRunning (s : State) (k : Nat) (q : Queue) : (s.setQueue k q).proofRunning = s.proofRunning := rfl
@[simp] theorem State.setQueue_rails (s : State) (k : Nat) (q : Queue) : (s.setQueue k q).rails = s.rails := rfl
@[simp] theorem State.setQueue_power (s : State) (k : Nat) (q : Queue) : (s.setQueue k q).power = s.power := rfl
@[simp] theorem State.setQueue_rst (s : State) (k : Nat) (q : Queue) : (s.setQueue k q).rst = s.rst := rfl
@[simp] theorem State.setQueue_boot (s : State) (k : Nat) (q : Queue) : (s.setQueue k q).boot = s.boot := rfl

@[simp] theorem State.setKv_pending (s : State) (q : Nat) (e : KvEntry) : (s.setKv q e).pending = s.pending := rfl
@[simp] theorem State.setKv_freeCtr (s : State) (q : Nat) (e : KvEntry) : (s.setKv q e).freeCtr = s.freeCtr := rfl
@[simp] theorem State.setKv_answer (s : State) (q : Nat) (e : KvEntry) : (s.setKv q e).answer = s.answer := rfl
@[simp] theorem State.setKv_regs (s : State) (q : Nat) (e : KvEntry) : (s.setKv q e).regs = s.regs := rfl
@[simp] theorem State.setKv_latches (s : State) (q : Nat) (e : KvEntry) : (s.setKv q e).latches = s.latches := rfl
@[simp] theorem State.setKv_staged (s : State) (q : Nat) (e : KvEntry) : (s.setKv q e).staged = s.staged := rfl
@[simp] theorem State.setKv_phys (s : State) (q : Nat) (e : KvEntry) : (s.setKv q e).phys = s.phys := rfl
@[simp] theorem State.setKv_hostMem (s : State) (q : Nat) (e : KvEntry) : (s.setKv q e).hostMem = s.hostMem := rfl
@[simp] theorem State.setKv_devTime (s : State) (q : Nat) (e : KvEntry) : (s.setKv q e).devTime = s.devTime := rfl
@[simp] theorem State.setKv_mono (s : State) (q : Nat) (e : KvEntry) : (s.setKv q e).mono = s.mono := rfl
@[simp] theorem State.setKv_layout (s : State) (q : Nat) (e : KvEntry) : (s.setKv q e).layout = s.layout := rfl
@[simp] theorem State.setKv_safetyDigest (s : State) (q : Nat) (e : KvEntry) : (s.setKv q e).safetyDigest = s.safetyDigest := rfl
@[simp] theorem State.setKv_load (s : State) (q : Nat) (e : KvEntry) : (s.setKv q e).load = s.load := rfl
@[simp] theorem State.setKv_ctxs (s : State) (q : Nat) (e : KvEntry) : (s.setKv q e).ctxs = s.ctxs := rfl
@[simp] theorem State.setKv_queues (s : State) (q : Nat) (e : KvEntry) : (s.setKv q e).queues = s.queues := rfl
@[simp] theorem State.setKv_invs (s : State) (q : Nat) (e : KvEntry) : (s.setKv q e).invs = s.invs := rfl
@[simp] theorem State.setKv_runs (s : State) (q : Nat) (e : KvEntry) : (s.setKv q e).runs = s.runs := rfl
@[simp] theorem State.setKv_nextRun (s : State) (q : Nat) (e : KvEntry) : (s.setKv q e).nextRun = s.nextRun := rfl
@[simp] theorem State.setKv_syncs (s : State) (q : Nat) (e : KvEntry) : (s.setKv q e).syncs = s.syncs := rfl
@[simp] theorem State.setKv_msix (s : State) (q : Nat) (e : KvEntry) : (s.setKv q e).msix = s.msix := rfl
@[simp] theorem State.setKv_msixTable (s : State) (q : Nat) (e : KvEntry) : (s.setKv q e).msixTable = s.msixTable := rfl
@[simp] theorem State.setKv_msixPending (s : State) (q : Nat) (e : KvEntry) : (s.setKv q e).msixPending = s.msixPending := rfl
@[simp] theorem State.setKv_endpoint (s : State) (q : Nat) (e : KvEntry) : (s.setKv q e).endpoint = s.endpoint := rfl
@[simp] theorem State.setKv_proposal (s : State) (q : Nat) (e : KvEntry) : (s.setKv q e).proposal = s.proposal := rfl
@[simp] theorem State.setKv_maps (s : State) (q : Nat) (e : KvEntry) : (s.setKv q e).maps = s.maps := rfl
@[simp] theorem State.setKv_seqLinks (s : State) (q : Nat) (e : KvEntry) : (s.setKv q e).seqLinks = s.seqLinks := rfl
@[simp] theorem State.setKv_nextAlloc (s : State) (q : Nat) (e : KvEntry) : (s.setKv q e).nextAlloc = s.nextAlloc := rfl
@[simp] theorem State.setKv_tierPending (s : State) (q : Nat) (e : KvEntry) : (s.setKv q e).tierPending = s.tierPending := rfl
@[simp] theorem State.setKv_flash (s : State) (q : Nat) (e : KvEntry) : (s.setKv q e).flash = s.flash := rfl
@[simp] theorem State.setKv_kvPages (s : State) (q : Nat) (e : KvEntry) : (s.setKv q e).kvPages = s.kvPages := rfl
@[simp] theorem State.setKv_kvPending (s : State) (q : Nat) (e : KvEntry) : (s.setKv q e).kvPending = s.kvPending := rfl
@[simp] theorem State.setKv_kvTouched (s : State) (q : Nat) (e : KvEntry) : (s.setKv q e).kvTouched = s.kvTouched := rfl
@[simp] theorem State.setKv_seqSlots (s : State) (q : Nat) (e : KvEntry) : (s.setKv q e).seqSlots = s.seqSlots := rfl
@[simp] theorem State.setKv_seqTags (s : State) (q : Nat) (e : KvEntry) : (s.setKv q e).seqTags = s.seqTags := rfl
@[simp] theorem State.setKv_seqCmds (s : State) (q : Nat) (e : KvEntry) : (s.setKv q e).seqCmds = s.seqCmds := rfl
@[simp] theorem State.setKv_dieSkew (s : State) (q : Nat) (e : KvEntry) : (s.setKv q e).dieSkew = s.dieSkew := rfl
@[simp] theorem State.setKv_dieLag (s : State) (q : Nat) (e : KvEntry) : (s.setKv q e).dieLag = s.dieLag := rfl
@[simp] theorem State.setKv_tlb (s : State) (q : Nat) (e : KvEntry) : (s.setKv q e).tlb = s.tlb := rfl
@[simp] theorem State.setKv_requests (s : State) (q : Nat) (e : KvEntry) : (s.setKv q e).requests = s.requests := rfl
@[simp] theorem State.setKv_nextReq (s : State) (q : Nat) (e : KvEntry) : (s.setKv q e).nextReq = s.nextReq := rfl
@[simp] theorem State.setKv_windows (s : State) (q : Nat) (e : KvEntry) : (s.setKv q e).windows = s.windows := rfl
@[simp] theorem State.setKv_ports (s : State) (q : Nat) (e : KvEntry) : (s.setKv q e).ports = s.ports := rfl
@[simp] theorem State.setKv_loops (s : State) (q : Nat) (e : KvEntry) : (s.setKv q e).loops = s.loops := rfl
@[simp] theorem State.setKv_crust (s : State) (q : Nat) (e : KvEntry) : (s.setKv q e).crust = s.crust := rfl
@[simp] theorem State.setKv_map (s : State) (q : Nat) (e : KvEntry) : (s.setKv q e).map = s.map := rfl
@[simp] theorem State.setKv_fusion (s : State) (q : Nat) (e : KvEntry) : (s.setKv q e).fusion = s.fusion := rfl
@[simp] theorem State.setKv_plan (s : State) (q : Nat) (e : KvEntry) : (s.setKv q e).plan = s.plan := rfl
@[simp] theorem State.setKv_solv (s : State) (q : Nat) (e : KvEntry) : (s.setKv q e).solv = s.solv := rfl
@[simp] theorem State.setKv_diesPresent (s : State) (q : Nat) (e : KvEntry) : (s.setKv q e).diesPresent = s.diesPresent := rfl
@[simp] theorem State.setKv_linkMods (s : State) (q : Nat) (e : KvEntry) : (s.setKv q e).linkMods = s.linkMods := rfl
@[simp] theorem State.setKv_held (s : State) (q : Nat) (e : KvEntry) : (s.setKv q e).held = s.held := rfl
@[simp] theorem State.setKv_proofRunning (s : State) (q : Nat) (e : KvEntry) : (s.setKv q e).proofRunning = s.proofRunning := rfl
@[simp] theorem State.setKv_rails (s : State) (q : Nat) (e : KvEntry) : (s.setKv q e).rails = s.rails := rfl
@[simp] theorem State.setKv_power (s : State) (q : Nat) (e : KvEntry) : (s.setKv q e).power = s.power := rfl
@[simp] theorem State.setKv_rst (s : State) (q : Nat) (e : KvEntry) : (s.setKv q e).rst = s.rst := rfl
@[simp] theorem State.setKv_boot (s : State) (q : Nat) (e : KvEntry) : (s.setKv q e).boot = s.boot := rfl

@[simp] theorem State.setRun_pending (s : State) (r : Run) : (s.setRun r).pending = s.pending := rfl
@[simp] theorem State.setRun_freeCtr (s : State) (r : Run) : (s.setRun r).freeCtr = s.freeCtr := rfl
@[simp] theorem State.setRun_answer (s : State) (r : Run) : (s.setRun r).answer = s.answer := rfl
@[simp] theorem State.setRun_regs (s : State) (r : Run) : (s.setRun r).regs = s.regs := rfl
@[simp] theorem State.setRun_latches (s : State) (r : Run) : (s.setRun r).latches = s.latches := rfl
@[simp] theorem State.setRun_staged (s : State) (r : Run) : (s.setRun r).staged = s.staged := rfl
@[simp] theorem State.setRun_phys (s : State) (r : Run) : (s.setRun r).phys = s.phys := rfl
@[simp] theorem State.setRun_hostMem (s : State) (r : Run) : (s.setRun r).hostMem = s.hostMem := rfl
@[simp] theorem State.setRun_devTime (s : State) (r : Run) : (s.setRun r).devTime = s.devTime := rfl
@[simp] theorem State.setRun_mono (s : State) (r : Run) : (s.setRun r).mono = s.mono := rfl
@[simp] theorem State.setRun_layout (s : State) (r : Run) : (s.setRun r).layout = s.layout := rfl
@[simp] theorem State.setRun_safetyDigest (s : State) (r : Run) : (s.setRun r).safetyDigest = s.safetyDigest := rfl
@[simp] theorem State.setRun_load (s : State) (r : Run) : (s.setRun r).load = s.load := rfl
@[simp] theorem State.setRun_ctxs (s : State) (r : Run) : (s.setRun r).ctxs = s.ctxs := rfl
@[simp] theorem State.setRun_queues (s : State) (r : Run) : (s.setRun r).queues = s.queues := rfl
@[simp] theorem State.setRun_invs (s : State) (r : Run) : (s.setRun r).invs = s.invs := rfl
@[simp] theorem State.setRun_nextRun (s : State) (r : Run) : (s.setRun r).nextRun = s.nextRun := rfl
@[simp] theorem State.setRun_syncs (s : State) (r : Run) : (s.setRun r).syncs = s.syncs := rfl
@[simp] theorem State.setRun_msix (s : State) (r : Run) : (s.setRun r).msix = s.msix := rfl
@[simp] theorem State.setRun_msixTable (s : State) (r : Run) : (s.setRun r).msixTable = s.msixTable := rfl
@[simp] theorem State.setRun_msixPending (s : State) (r : Run) : (s.setRun r).msixPending = s.msixPending := rfl
@[simp] theorem State.setRun_endpoint (s : State) (r : Run) : (s.setRun r).endpoint = s.endpoint := rfl
@[simp] theorem State.setRun_proposal (s : State) (r : Run) : (s.setRun r).proposal = s.proposal := rfl
@[simp] theorem State.setRun_maps (s : State) (r : Run) : (s.setRun r).maps = s.maps := rfl
@[simp] theorem State.setRun_seqLinks (s : State) (r : Run) : (s.setRun r).seqLinks = s.seqLinks := rfl
@[simp] theorem State.setRun_nextAlloc (s : State) (r : Run) : (s.setRun r).nextAlloc = s.nextAlloc := rfl
@[simp] theorem State.setRun_tierPending (s : State) (r : Run) : (s.setRun r).tierPending = s.tierPending := rfl
@[simp] theorem State.setRun_flash (s : State) (r : Run) : (s.setRun r).flash = s.flash := rfl
@[simp] theorem State.setRun_kv (s : State) (r : Run) : (s.setRun r).kv = s.kv := rfl
@[simp] theorem State.setRun_kvPages (s : State) (r : Run) : (s.setRun r).kvPages = s.kvPages := rfl
@[simp] theorem State.setRun_kvPending (s : State) (r : Run) : (s.setRun r).kvPending = s.kvPending := rfl
@[simp] theorem State.setRun_kvTouched (s : State) (r : Run) : (s.setRun r).kvTouched = s.kvTouched := rfl
@[simp] theorem State.setRun_seqSlots (s : State) (r : Run) : (s.setRun r).seqSlots = s.seqSlots := rfl
@[simp] theorem State.setRun_seqTags (s : State) (r : Run) : (s.setRun r).seqTags = s.seqTags := rfl
@[simp] theorem State.setRun_seqCmds (s : State) (r : Run) : (s.setRun r).seqCmds = s.seqCmds := rfl
@[simp] theorem State.setRun_dieSkew (s : State) (r : Run) : (s.setRun r).dieSkew = s.dieSkew := rfl
@[simp] theorem State.setRun_dieLag (s : State) (r : Run) : (s.setRun r).dieLag = s.dieLag := rfl
@[simp] theorem State.setRun_tlb (s : State) (r : Run) : (s.setRun r).tlb = s.tlb := rfl
@[simp] theorem State.setRun_requests (s : State) (r : Run) : (s.setRun r).requests = s.requests := rfl
@[simp] theorem State.setRun_nextReq (s : State) (r : Run) : (s.setRun r).nextReq = s.nextReq := rfl
@[simp] theorem State.setRun_windows (s : State) (r : Run) : (s.setRun r).windows = s.windows := rfl
@[simp] theorem State.setRun_ports (s : State) (r : Run) : (s.setRun r).ports = s.ports := rfl
@[simp] theorem State.setRun_loops (s : State) (r : Run) : (s.setRun r).loops = s.loops := rfl
@[simp] theorem State.setRun_crust (s : State) (r : Run) : (s.setRun r).crust = s.crust := rfl
@[simp] theorem State.setRun_map (s : State) (r : Run) : (s.setRun r).map = s.map := rfl
@[simp] theorem State.setRun_fusion (s : State) (r : Run) : (s.setRun r).fusion = s.fusion := rfl
@[simp] theorem State.setRun_plan (s : State) (r : Run) : (s.setRun r).plan = s.plan := rfl
@[simp] theorem State.setRun_solv (s : State) (r : Run) : (s.setRun r).solv = s.solv := rfl
@[simp] theorem State.setRun_diesPresent (s : State) (r : Run) : (s.setRun r).diesPresent = s.diesPresent := rfl
@[simp] theorem State.setRun_linkMods (s : State) (r : Run) : (s.setRun r).linkMods = s.linkMods := rfl
@[simp] theorem State.setRun_held (s : State) (r : Run) : (s.setRun r).held = s.held := rfl
@[simp] theorem State.setRun_proofRunning (s : State) (r : Run) : (s.setRun r).proofRunning = s.proofRunning := rfl
@[simp] theorem State.setRun_rails (s : State) (r : Run) : (s.setRun r).rails = s.rails := rfl
@[simp] theorem State.setRun_power (s : State) (r : Run) : (s.setRun r).power = s.power := rfl
@[simp] theorem State.setRun_rst (s : State) (r : Run) : (s.setRun r).rst = s.rst := rfl
@[simp] theorem State.setRun_boot (s : State) (r : Run) : (s.setRun r).boot = s.boot := rfl

@[simp] theorem State.setSlot_pending (s : State) (k : Nat) (x : SeqSlot) : (s.setSlot k x).pending = s.pending := rfl
@[simp] theorem State.setSlot_freeCtr (s : State) (k : Nat) (x : SeqSlot) : (s.setSlot k x).freeCtr = s.freeCtr := rfl
@[simp] theorem State.setSlot_answer (s : State) (k : Nat) (x : SeqSlot) : (s.setSlot k x).answer = s.answer := rfl
@[simp] theorem State.setSlot_regs (s : State) (k : Nat) (x : SeqSlot) : (s.setSlot k x).regs = s.regs := rfl
@[simp] theorem State.setSlot_latches (s : State) (k : Nat) (x : SeqSlot) : (s.setSlot k x).latches = s.latches := rfl
@[simp] theorem State.setSlot_staged (s : State) (k : Nat) (x : SeqSlot) : (s.setSlot k x).staged = s.staged := rfl
@[simp] theorem State.setSlot_phys (s : State) (k : Nat) (x : SeqSlot) : (s.setSlot k x).phys = s.phys := rfl
@[simp] theorem State.setSlot_hostMem (s : State) (k : Nat) (x : SeqSlot) : (s.setSlot k x).hostMem = s.hostMem := rfl
@[simp] theorem State.setSlot_devTime (s : State) (k : Nat) (x : SeqSlot) : (s.setSlot k x).devTime = s.devTime := rfl
@[simp] theorem State.setSlot_mono (s : State) (k : Nat) (x : SeqSlot) : (s.setSlot k x).mono = s.mono := rfl
@[simp] theorem State.setSlot_layout (s : State) (k : Nat) (x : SeqSlot) : (s.setSlot k x).layout = s.layout := rfl
@[simp] theorem State.setSlot_safetyDigest (s : State) (k : Nat) (x : SeqSlot) : (s.setSlot k x).safetyDigest = s.safetyDigest := rfl
@[simp] theorem State.setSlot_load (s : State) (k : Nat) (x : SeqSlot) : (s.setSlot k x).load = s.load := rfl
@[simp] theorem State.setSlot_ctxs (s : State) (k : Nat) (x : SeqSlot) : (s.setSlot k x).ctxs = s.ctxs := rfl
@[simp] theorem State.setSlot_queues (s : State) (k : Nat) (x : SeqSlot) : (s.setSlot k x).queues = s.queues := rfl
@[simp] theorem State.setSlot_invs (s : State) (k : Nat) (x : SeqSlot) : (s.setSlot k x).invs = s.invs := rfl
@[simp] theorem State.setSlot_runs (s : State) (k : Nat) (x : SeqSlot) : (s.setSlot k x).runs = s.runs := rfl
@[simp] theorem State.setSlot_nextRun (s : State) (k : Nat) (x : SeqSlot) : (s.setSlot k x).nextRun = s.nextRun := rfl
@[simp] theorem State.setSlot_syncs (s : State) (k : Nat) (x : SeqSlot) : (s.setSlot k x).syncs = s.syncs := rfl
@[simp] theorem State.setSlot_msix (s : State) (k : Nat) (x : SeqSlot) : (s.setSlot k x).msix = s.msix := rfl
@[simp] theorem State.setSlot_msixTable (s : State) (k : Nat) (x : SeqSlot) : (s.setSlot k x).msixTable = s.msixTable := rfl
@[simp] theorem State.setSlot_msixPending (s : State) (k : Nat) (x : SeqSlot) : (s.setSlot k x).msixPending = s.msixPending := rfl
@[simp] theorem State.setSlot_endpoint (s : State) (k : Nat) (x : SeqSlot) : (s.setSlot k x).endpoint = s.endpoint := rfl
@[simp] theorem State.setSlot_proposal (s : State) (k : Nat) (x : SeqSlot) : (s.setSlot k x).proposal = s.proposal := rfl
@[simp] theorem State.setSlot_maps (s : State) (k : Nat) (x : SeqSlot) : (s.setSlot k x).maps = s.maps := rfl
@[simp] theorem State.setSlot_seqLinks (s : State) (k : Nat) (x : SeqSlot) : (s.setSlot k x).seqLinks = s.seqLinks := rfl
@[simp] theorem State.setSlot_nextAlloc (s : State) (k : Nat) (x : SeqSlot) : (s.setSlot k x).nextAlloc = s.nextAlloc := rfl
@[simp] theorem State.setSlot_tierPending (s : State) (k : Nat) (x : SeqSlot) : (s.setSlot k x).tierPending = s.tierPending := rfl
@[simp] theorem State.setSlot_flash (s : State) (k : Nat) (x : SeqSlot) : (s.setSlot k x).flash = s.flash := rfl
@[simp] theorem State.setSlot_kv (s : State) (k : Nat) (x : SeqSlot) : (s.setSlot k x).kv = s.kv := rfl
@[simp] theorem State.setSlot_kvPages (s : State) (k : Nat) (x : SeqSlot) : (s.setSlot k x).kvPages = s.kvPages := rfl
@[simp] theorem State.setSlot_kvPending (s : State) (k : Nat) (x : SeqSlot) : (s.setSlot k x).kvPending = s.kvPending := rfl
@[simp] theorem State.setSlot_kvTouched (s : State) (k : Nat) (x : SeqSlot) : (s.setSlot k x).kvTouched = s.kvTouched := rfl
@[simp] theorem State.setSlot_seqTags (s : State) (k : Nat) (x : SeqSlot) : (s.setSlot k x).seqTags = s.seqTags := rfl
@[simp] theorem State.setSlot_seqCmds (s : State) (k : Nat) (x : SeqSlot) : (s.setSlot k x).seqCmds = s.seqCmds := rfl
@[simp] theorem State.setSlot_dieSkew (s : State) (k : Nat) (x : SeqSlot) : (s.setSlot k x).dieSkew = s.dieSkew := rfl
@[simp] theorem State.setSlot_dieLag (s : State) (k : Nat) (x : SeqSlot) : (s.setSlot k x).dieLag = s.dieLag := rfl
@[simp] theorem State.setSlot_tlb (s : State) (k : Nat) (x : SeqSlot) : (s.setSlot k x).tlb = s.tlb := rfl
@[simp] theorem State.setSlot_requests (s : State) (k : Nat) (x : SeqSlot) : (s.setSlot k x).requests = s.requests := rfl
@[simp] theorem State.setSlot_nextReq (s : State) (k : Nat) (x : SeqSlot) : (s.setSlot k x).nextReq = s.nextReq := rfl
@[simp] theorem State.setSlot_windows (s : State) (k : Nat) (x : SeqSlot) : (s.setSlot k x).windows = s.windows := rfl
@[simp] theorem State.setSlot_ports (s : State) (k : Nat) (x : SeqSlot) : (s.setSlot k x).ports = s.ports := rfl
@[simp] theorem State.setSlot_loops (s : State) (k : Nat) (x : SeqSlot) : (s.setSlot k x).loops = s.loops := rfl
@[simp] theorem State.setSlot_crust (s : State) (k : Nat) (x : SeqSlot) : (s.setSlot k x).crust = s.crust := rfl
@[simp] theorem State.setSlot_map (s : State) (k : Nat) (x : SeqSlot) : (s.setSlot k x).map = s.map := rfl
@[simp] theorem State.setSlot_fusion (s : State) (k : Nat) (x : SeqSlot) : (s.setSlot k x).fusion = s.fusion := rfl
@[simp] theorem State.setSlot_plan (s : State) (k : Nat) (x : SeqSlot) : (s.setSlot k x).plan = s.plan := rfl
@[simp] theorem State.setSlot_solv (s : State) (k : Nat) (x : SeqSlot) : (s.setSlot k x).solv = s.solv := rfl
@[simp] theorem State.setSlot_diesPresent (s : State) (k : Nat) (x : SeqSlot) : (s.setSlot k x).diesPresent = s.diesPresent := rfl
@[simp] theorem State.setSlot_linkMods (s : State) (k : Nat) (x : SeqSlot) : (s.setSlot k x).linkMods = s.linkMods := rfl
@[simp] theorem State.setSlot_held (s : State) (k : Nat) (x : SeqSlot) : (s.setSlot k x).held = s.held := rfl
@[simp] theorem State.setSlot_proofRunning (s : State) (k : Nat) (x : SeqSlot) : (s.setSlot k x).proofRunning = s.proofRunning := rfl
@[simp] theorem State.setSlot_rails (s : State) (k : Nat) (x : SeqSlot) : (s.setSlot k x).rails = s.rails := rfl
@[simp] theorem State.setSlot_power (s : State) (k : Nat) (x : SeqSlot) : (s.setSlot k x).power = s.power := rfl
@[simp] theorem State.setSlot_rst (s : State) (k : Nat) (x : SeqSlot) : (s.setSlot k x).rst = s.rst := rfl
@[simp] theorem State.setSlot_boot (s : State) (k : Nat) (x : SeqSlot) : (s.setSlot k x).boot = s.boot := rfl

@[simp] theorem State.setSeqCmd_pending (s : State) (die : Nat) (c : Option SeqCmd) : (s.setSeqCmd die c).pending = s.pending := rfl
@[simp] theorem State.setSeqCmd_freeCtr (s : State) (die : Nat) (c : Option SeqCmd) : (s.setSeqCmd die c).freeCtr = s.freeCtr := rfl
@[simp] theorem State.setSeqCmd_answer (s : State) (die : Nat) (c : Option SeqCmd) : (s.setSeqCmd die c).answer = s.answer := rfl
@[simp] theorem State.setSeqCmd_regs (s : State) (die : Nat) (c : Option SeqCmd) : (s.setSeqCmd die c).regs = s.regs := rfl
@[simp] theorem State.setSeqCmd_latches (s : State) (die : Nat) (c : Option SeqCmd) : (s.setSeqCmd die c).latches = s.latches := rfl
@[simp] theorem State.setSeqCmd_staged (s : State) (die : Nat) (c : Option SeqCmd) : (s.setSeqCmd die c).staged = s.staged := rfl
@[simp] theorem State.setSeqCmd_phys (s : State) (die : Nat) (c : Option SeqCmd) : (s.setSeqCmd die c).phys = s.phys := rfl
@[simp] theorem State.setSeqCmd_hostMem (s : State) (die : Nat) (c : Option SeqCmd) : (s.setSeqCmd die c).hostMem = s.hostMem := rfl
@[simp] theorem State.setSeqCmd_devTime (s : State) (die : Nat) (c : Option SeqCmd) : (s.setSeqCmd die c).devTime = s.devTime := rfl
@[simp] theorem State.setSeqCmd_mono (s : State) (die : Nat) (c : Option SeqCmd) : (s.setSeqCmd die c).mono = s.mono := rfl
@[simp] theorem State.setSeqCmd_layout (s : State) (die : Nat) (c : Option SeqCmd) : (s.setSeqCmd die c).layout = s.layout := rfl
@[simp] theorem State.setSeqCmd_safetyDigest (s : State) (die : Nat) (c : Option SeqCmd) : (s.setSeqCmd die c).safetyDigest = s.safetyDigest := rfl
@[simp] theorem State.setSeqCmd_load (s : State) (die : Nat) (c : Option SeqCmd) : (s.setSeqCmd die c).load = s.load := rfl
@[simp] theorem State.setSeqCmd_ctxs (s : State) (die : Nat) (c : Option SeqCmd) : (s.setSeqCmd die c).ctxs = s.ctxs := rfl
@[simp] theorem State.setSeqCmd_queues (s : State) (die : Nat) (c : Option SeqCmd) : (s.setSeqCmd die c).queues = s.queues := rfl
@[simp] theorem State.setSeqCmd_invs (s : State) (die : Nat) (c : Option SeqCmd) : (s.setSeqCmd die c).invs = s.invs := rfl
@[simp] theorem State.setSeqCmd_runs (s : State) (die : Nat) (c : Option SeqCmd) : (s.setSeqCmd die c).runs = s.runs := rfl
@[simp] theorem State.setSeqCmd_nextRun (s : State) (die : Nat) (c : Option SeqCmd) : (s.setSeqCmd die c).nextRun = s.nextRun := rfl
@[simp] theorem State.setSeqCmd_syncs (s : State) (die : Nat) (c : Option SeqCmd) : (s.setSeqCmd die c).syncs = s.syncs := rfl
@[simp] theorem State.setSeqCmd_msix (s : State) (die : Nat) (c : Option SeqCmd) : (s.setSeqCmd die c).msix = s.msix := rfl
@[simp] theorem State.setSeqCmd_msixTable (s : State) (die : Nat) (c : Option SeqCmd) : (s.setSeqCmd die c).msixTable = s.msixTable := rfl
@[simp] theorem State.setSeqCmd_msixPending (s : State) (die : Nat) (c : Option SeqCmd) : (s.setSeqCmd die c).msixPending = s.msixPending := rfl
@[simp] theorem State.setSeqCmd_endpoint (s : State) (die : Nat) (c : Option SeqCmd) : (s.setSeqCmd die c).endpoint = s.endpoint := rfl
@[simp] theorem State.setSeqCmd_proposal (s : State) (die : Nat) (c : Option SeqCmd) : (s.setSeqCmd die c).proposal = s.proposal := rfl
@[simp] theorem State.setSeqCmd_maps (s : State) (die : Nat) (c : Option SeqCmd) : (s.setSeqCmd die c).maps = s.maps := rfl
@[simp] theorem State.setSeqCmd_seqLinks (s : State) (die : Nat) (c : Option SeqCmd) : (s.setSeqCmd die c).seqLinks = s.seqLinks := rfl
@[simp] theorem State.setSeqCmd_nextAlloc (s : State) (die : Nat) (c : Option SeqCmd) : (s.setSeqCmd die c).nextAlloc = s.nextAlloc := rfl
@[simp] theorem State.setSeqCmd_tierPending (s : State) (die : Nat) (c : Option SeqCmd) : (s.setSeqCmd die c).tierPending = s.tierPending := rfl
@[simp] theorem State.setSeqCmd_flash (s : State) (die : Nat) (c : Option SeqCmd) : (s.setSeqCmd die c).flash = s.flash := rfl
@[simp] theorem State.setSeqCmd_kv (s : State) (die : Nat) (c : Option SeqCmd) : (s.setSeqCmd die c).kv = s.kv := rfl
@[simp] theorem State.setSeqCmd_kvPages (s : State) (die : Nat) (c : Option SeqCmd) : (s.setSeqCmd die c).kvPages = s.kvPages := rfl
@[simp] theorem State.setSeqCmd_kvPending (s : State) (die : Nat) (c : Option SeqCmd) : (s.setSeqCmd die c).kvPending = s.kvPending := rfl
@[simp] theorem State.setSeqCmd_kvTouched (s : State) (die : Nat) (c : Option SeqCmd) : (s.setSeqCmd die c).kvTouched = s.kvTouched := rfl
@[simp] theorem State.setSeqCmd_seqSlots (s : State) (die : Nat) (c : Option SeqCmd) : (s.setSeqCmd die c).seqSlots = s.seqSlots := rfl
@[simp] theorem State.setSeqCmd_seqTags (s : State) (die : Nat) (c : Option SeqCmd) : (s.setSeqCmd die c).seqTags = s.seqTags := rfl
@[simp] theorem State.setSeqCmd_dieSkew (s : State) (die : Nat) (c : Option SeqCmd) : (s.setSeqCmd die c).dieSkew = s.dieSkew := rfl
@[simp] theorem State.setSeqCmd_dieLag (s : State) (die : Nat) (c : Option SeqCmd) : (s.setSeqCmd die c).dieLag = s.dieLag := rfl
@[simp] theorem State.setSeqCmd_tlb (s : State) (die : Nat) (c : Option SeqCmd) : (s.setSeqCmd die c).tlb = s.tlb := rfl
@[simp] theorem State.setSeqCmd_requests (s : State) (die : Nat) (c : Option SeqCmd) : (s.setSeqCmd die c).requests = s.requests := rfl
@[simp] theorem State.setSeqCmd_nextReq (s : State) (die : Nat) (c : Option SeqCmd) : (s.setSeqCmd die c).nextReq = s.nextReq := rfl
@[simp] theorem State.setSeqCmd_windows (s : State) (die : Nat) (c : Option SeqCmd) : (s.setSeqCmd die c).windows = s.windows := rfl
@[simp] theorem State.setSeqCmd_ports (s : State) (die : Nat) (c : Option SeqCmd) : (s.setSeqCmd die c).ports = s.ports := rfl
@[simp] theorem State.setSeqCmd_loops (s : State) (die : Nat) (c : Option SeqCmd) : (s.setSeqCmd die c).loops = s.loops := rfl
@[simp] theorem State.setSeqCmd_crust (s : State) (die : Nat) (c : Option SeqCmd) : (s.setSeqCmd die c).crust = s.crust := rfl
@[simp] theorem State.setSeqCmd_map (s : State) (die : Nat) (c : Option SeqCmd) : (s.setSeqCmd die c).map = s.map := rfl
@[simp] theorem State.setSeqCmd_fusion (s : State) (die : Nat) (c : Option SeqCmd) : (s.setSeqCmd die c).fusion = s.fusion := rfl
@[simp] theorem State.setSeqCmd_plan (s : State) (die : Nat) (c : Option SeqCmd) : (s.setSeqCmd die c).plan = s.plan := rfl
@[simp] theorem State.setSeqCmd_solv (s : State) (die : Nat) (c : Option SeqCmd) : (s.setSeqCmd die c).solv = s.solv := rfl
@[simp] theorem State.setSeqCmd_diesPresent (s : State) (die : Nat) (c : Option SeqCmd) : (s.setSeqCmd die c).diesPresent = s.diesPresent := rfl
@[simp] theorem State.setSeqCmd_linkMods (s : State) (die : Nat) (c : Option SeqCmd) : (s.setSeqCmd die c).linkMods = s.linkMods := rfl
@[simp] theorem State.setSeqCmd_held (s : State) (die : Nat) (c : Option SeqCmd) : (s.setSeqCmd die c).held = s.held := rfl
@[simp] theorem State.setSeqCmd_proofRunning (s : State) (die : Nat) (c : Option SeqCmd) : (s.setSeqCmd die c).proofRunning = s.proofRunning := rfl
@[simp] theorem State.setSeqCmd_rails (s : State) (die : Nat) (c : Option SeqCmd) : (s.setSeqCmd die c).rails = s.rails := rfl
@[simp] theorem State.setSeqCmd_power (s : State) (die : Nat) (c : Option SeqCmd) : (s.setSeqCmd die c).power = s.power := rfl
@[simp] theorem State.setSeqCmd_rst (s : State) (die : Nat) (c : Option SeqCmd) : (s.setSeqCmd die c).rst = s.rst := rfl
@[simp] theorem State.setSeqCmd_boot (s : State) (die : Nat) (c : Option SeqCmd) : (s.setSeqCmd die c).boot = s.boot := rfl

@[simp] theorem State.setRail_pending (s : State) (r : Nat) (x : Rail) : (s.setRail r x).pending = s.pending := rfl
@[simp] theorem State.setRail_freeCtr (s : State) (r : Nat) (x : Rail) : (s.setRail r x).freeCtr = s.freeCtr := rfl
@[simp] theorem State.setRail_answer (s : State) (r : Nat) (x : Rail) : (s.setRail r x).answer = s.answer := rfl
@[simp] theorem State.setRail_regs (s : State) (r : Nat) (x : Rail) : (s.setRail r x).regs = s.regs := rfl
@[simp] theorem State.setRail_latches (s : State) (r : Nat) (x : Rail) : (s.setRail r x).latches = s.latches := rfl
@[simp] theorem State.setRail_staged (s : State) (r : Nat) (x : Rail) : (s.setRail r x).staged = s.staged := rfl
@[simp] theorem State.setRail_phys (s : State) (r : Nat) (x : Rail) : (s.setRail r x).phys = s.phys := rfl
@[simp] theorem State.setRail_hostMem (s : State) (r : Nat) (x : Rail) : (s.setRail r x).hostMem = s.hostMem := rfl
@[simp] theorem State.setRail_devTime (s : State) (r : Nat) (x : Rail) : (s.setRail r x).devTime = s.devTime := rfl
@[simp] theorem State.setRail_mono (s : State) (r : Nat) (x : Rail) : (s.setRail r x).mono = s.mono := rfl
@[simp] theorem State.setRail_layout (s : State) (r : Nat) (x : Rail) : (s.setRail r x).layout = s.layout := rfl
@[simp] theorem State.setRail_safetyDigest (s : State) (r : Nat) (x : Rail) : (s.setRail r x).safetyDigest = s.safetyDigest := rfl
@[simp] theorem State.setRail_load (s : State) (r : Nat) (x : Rail) : (s.setRail r x).load = s.load := rfl
@[simp] theorem State.setRail_ctxs (s : State) (r : Nat) (x : Rail) : (s.setRail r x).ctxs = s.ctxs := rfl
@[simp] theorem State.setRail_queues (s : State) (r : Nat) (x : Rail) : (s.setRail r x).queues = s.queues := rfl
@[simp] theorem State.setRail_invs (s : State) (r : Nat) (x : Rail) : (s.setRail r x).invs = s.invs := rfl
@[simp] theorem State.setRail_runs (s : State) (r : Nat) (x : Rail) : (s.setRail r x).runs = s.runs := rfl
@[simp] theorem State.setRail_nextRun (s : State) (r : Nat) (x : Rail) : (s.setRail r x).nextRun = s.nextRun := rfl
@[simp] theorem State.setRail_syncs (s : State) (r : Nat) (x : Rail) : (s.setRail r x).syncs = s.syncs := rfl
@[simp] theorem State.setRail_msix (s : State) (r : Nat) (x : Rail) : (s.setRail r x).msix = s.msix := rfl
@[simp] theorem State.setRail_msixTable (s : State) (r : Nat) (x : Rail) : (s.setRail r x).msixTable = s.msixTable := rfl
@[simp] theorem State.setRail_msixPending (s : State) (r : Nat) (x : Rail) : (s.setRail r x).msixPending = s.msixPending := rfl
@[simp] theorem State.setRail_endpoint (s : State) (r : Nat) (x : Rail) : (s.setRail r x).endpoint = s.endpoint := rfl
@[simp] theorem State.setRail_proposal (s : State) (r : Nat) (x : Rail) : (s.setRail r x).proposal = s.proposal := rfl
@[simp] theorem State.setRail_maps (s : State) (r : Nat) (x : Rail) : (s.setRail r x).maps = s.maps := rfl
@[simp] theorem State.setRail_seqLinks (s : State) (r : Nat) (x : Rail) : (s.setRail r x).seqLinks = s.seqLinks := rfl
@[simp] theorem State.setRail_nextAlloc (s : State) (r : Nat) (x : Rail) : (s.setRail r x).nextAlloc = s.nextAlloc := rfl
@[simp] theorem State.setRail_tierPending (s : State) (r : Nat) (x : Rail) : (s.setRail r x).tierPending = s.tierPending := rfl
@[simp] theorem State.setRail_flash (s : State) (r : Nat) (x : Rail) : (s.setRail r x).flash = s.flash := rfl
@[simp] theorem State.setRail_kv (s : State) (r : Nat) (x : Rail) : (s.setRail r x).kv = s.kv := rfl
@[simp] theorem State.setRail_kvPages (s : State) (r : Nat) (x : Rail) : (s.setRail r x).kvPages = s.kvPages := rfl
@[simp] theorem State.setRail_kvPending (s : State) (r : Nat) (x : Rail) : (s.setRail r x).kvPending = s.kvPending := rfl
@[simp] theorem State.setRail_kvTouched (s : State) (r : Nat) (x : Rail) : (s.setRail r x).kvTouched = s.kvTouched := rfl
@[simp] theorem State.setRail_seqSlots (s : State) (r : Nat) (x : Rail) : (s.setRail r x).seqSlots = s.seqSlots := rfl
@[simp] theorem State.setRail_seqTags (s : State) (r : Nat) (x : Rail) : (s.setRail r x).seqTags = s.seqTags := rfl
@[simp] theorem State.setRail_seqCmds (s : State) (r : Nat) (x : Rail) : (s.setRail r x).seqCmds = s.seqCmds := rfl
@[simp] theorem State.setRail_dieSkew (s : State) (r : Nat) (x : Rail) : (s.setRail r x).dieSkew = s.dieSkew := rfl
@[simp] theorem State.setRail_dieLag (s : State) (r : Nat) (x : Rail) : (s.setRail r x).dieLag = s.dieLag := rfl
@[simp] theorem State.setRail_tlb (s : State) (r : Nat) (x : Rail) : (s.setRail r x).tlb = s.tlb := rfl
@[simp] theorem State.setRail_requests (s : State) (r : Nat) (x : Rail) : (s.setRail r x).requests = s.requests := rfl
@[simp] theorem State.setRail_nextReq (s : State) (r : Nat) (x : Rail) : (s.setRail r x).nextReq = s.nextReq := rfl
@[simp] theorem State.setRail_windows (s : State) (r : Nat) (x : Rail) : (s.setRail r x).windows = s.windows := rfl
@[simp] theorem State.setRail_ports (s : State) (r : Nat) (x : Rail) : (s.setRail r x).ports = s.ports := rfl
@[simp] theorem State.setRail_loops (s : State) (r : Nat) (x : Rail) : (s.setRail r x).loops = s.loops := rfl
@[simp] theorem State.setRail_crust (s : State) (r : Nat) (x : Rail) : (s.setRail r x).crust = s.crust := rfl
@[simp] theorem State.setRail_map (s : State) (r : Nat) (x : Rail) : (s.setRail r x).map = s.map := rfl
@[simp] theorem State.setRail_fusion (s : State) (r : Nat) (x : Rail) : (s.setRail r x).fusion = s.fusion := rfl
@[simp] theorem State.setRail_plan (s : State) (r : Nat) (x : Rail) : (s.setRail r x).plan = s.plan := rfl
@[simp] theorem State.setRail_solv (s : State) (r : Nat) (x : Rail) : (s.setRail r x).solv = s.solv := rfl
@[simp] theorem State.setRail_diesPresent (s : State) (r : Nat) (x : Rail) : (s.setRail r x).diesPresent = s.diesPresent := rfl
@[simp] theorem State.setRail_linkMods (s : State) (r : Nat) (x : Rail) : (s.setRail r x).linkMods = s.linkMods := rfl
@[simp] theorem State.setRail_held (s : State) (r : Nat) (x : Rail) : (s.setRail r x).held = s.held := rfl
@[simp] theorem State.setRail_proofRunning (s : State) (r : Nat) (x : Rail) : (s.setRail r x).proofRunning = s.proofRunning := rfl
@[simp] theorem State.setRail_power (s : State) (r : Nat) (x : Rail) : (s.setRail r x).power = s.power := rfl
@[simp] theorem State.setRail_rst (s : State) (r : Nat) (x : Rail) : (s.setRail r x).rst = s.rst := rfl
@[simp] theorem State.setRail_boot (s : State) (r : Nat) (x : Rail) : (s.setRail r x).boot = s.boot := rfl

end Sys2Proof.Machine
end

