-- ==== Sys2Proof/Laws/Regs.lean ====
section
/-! SUPPORT. What registers, fields, pairs and event bits read as after each operation that writes them. -/

namespace Sys2Proof.Machine

/-! ### Bit fields of numbers -/

theorem bits_lt (v lo w : Nat) : bits v lo w < 2 ^ w := Nat.mod_lt _ (Nat.two_pow_pos w)

/-- A field of a number, bit by bit. -/
theorem testBit_bits (v lo w i : Nat) : (bits v lo w).testBit i = (decide (i < w) && v.testBit (lo + i)) := by
  unfold bits
  rw [Nat.testBit_mod_two_pow, Nat.testBit_div_two_pow]
  rw [Nat.add_comm]

theorem setBits_eq_or (v lo w x : Nat) :
    setBits v lo w x = (v / 2 ^ (lo + w)) * 2 ^ (lo + w) + (2 ^ lo * (x % 2 ^ w) + v % 2 ^ lo) := by
  unfold setBits; omega

theorem setBits_low_lt (v lo w x : Nat) : 2 ^ lo * (x % 2 ^ w) + v % 2 ^ lo < 2 ^ (lo + w) := by
  have h1 : x % 2 ^ w + 1 ≤ 2 ^ w := Nat.mod_lt _ (Nat.two_pow_pos w)
  have h2 : v % 2 ^ lo < 2 ^ lo := Nat.mod_lt _ (Nat.two_pow_pos lo)
  have h3 : 2 ^ lo * (x % 2 ^ w + 1) ≤ 2 ^ lo * 2 ^ w := Nat.mul_le_mul_left _ h1
  rw [Nat.pow_add]
  rw [Nat.mul_add] at h3
  omega

/-- A number after one of its fields is written, bit by bit: the field's bits are the value's, every other bit stays. -/
theorem testBit_setBits (v lo w x i : Nat) :
    (setBits v lo w x).testBit i = if lo ≤ i ∧ i < lo + w then x.testBit (i - lo) else v.testBit i := by
  rw [setBits_eq_or, Nat.mul_comm, Nat.testBit_two_pow_mul_add _ (setBits_low_lt v lo w x)]
  split
  · next h =>
    rw [Nat.testBit_two_pow_mul_add _ (Nat.mod_lt _ (Nat.two_pow_pos lo)), Nat.testBit_mod_two_pow]
    split
    · next h2 => rw [if_neg (by omega)]; simp [h2]
    · next h2 =>
      rw [if_pos (by omega), Nat.testBit_mod_two_pow]
      simp [show i - lo < w by omega]
  · next h =>
    rw [if_neg (by omega), Nat.testBit_div_two_pow]
    congr 1; omega

theorem bits_setBits_same (v lo w x : Nat) : bits (setBits v lo w x) lo w = x % 2 ^ w := by
  apply Nat.eq_of_testBit_eq
  intro i
  rw [testBit_bits, testBit_setBits, Nat.testBit_mod_two_pow]
  by_cases h : i < w
  · simp [h]
  · simp [h]

theorem bits_setBits_disjoint {v lo w x lo' w' : Nat} (h : lo' + w' ≤ lo ∨ lo + w ≤ lo') :
    bits (setBits v lo w x) lo' w' = bits v lo' w' := by
  apply Nat.eq_of_testBit_eq
  intro i
  rw [testBit_bits, testBit_bits, testBit_setBits]
  by_cases hi : i < w'
  · rw [if_neg (by omega)]
  · simp [hi]

theorem setBits_lt {v lo w x n : Nat} (hv : v < 2 ^ n) (h : lo + w ≤ n) : setBits v lo w x < 2 ^ n := by
  apply Nat.lt_pow_two_of_testBit
  intro i hi
  rw [testBit_setBits, if_neg (by omega)]
  exact Nat.testBit_lt_two_pow (Nat.lt_of_lt_of_le hv (Nat.pow_le_pow_right (by decide) hi))

/-! ### Registers -/

@[simp] theorem State.reg_setReg_same (s : State) (a : Nat) (v : Word) : (s.setReg a v).reg a = v :=
  Sparse.get_put_same

theorem State.reg_setReg_ne (s : State) {a b : Nat} (v : Word) (h : b ≠ a) : (s.setReg a v).reg b = s.reg b :=
  Sparse.get_put_ne h

theorem State.reg_setReg (s : State) (a b : Nat) (v : Word) : (s.setReg a v).reg b = if b = a then v else s.reg b :=
  Sparse.get_put

/-- A register reads the same in two states with the same register file. -/
theorem State.reg_congr {s t : State} (h : t.regs = s.regs) (a : Nat) : t.reg a = s.reg a := by
  unfold State.reg; rw [h]

theorem State.fld_congr {s t : State} (h : t.regs = s.regs) (f : Fld) : t.fld f = s.fld f := by
  unfold State.fld State.reg64 State.reg; rw [h]

/-- A field of one word. -/
theorem State.fld_word (s : State) {f : Fld} (h : f.lo + f.width ≤ 32) :
    s.fld f = bits (s.reg f.addr).toNat f.lo f.width := by simp [State.fld, h]

theorem State.setFld_word (s : State) {f : Fld} (v : Nat) (h : f.lo + f.width ≤ 32) :
    s.setFld f v = s.setReg f.addr (BitVec.ofNat 32 (setBits (s.reg f.addr).toNat f.lo f.width v)) := by
  simp [State.setFld, h]

/-- A field reads the value written to it, in its width. -/
theorem State.fld_setFld_same (s : State) {f : Fld} (v : Nat) (h : f.lo + f.width ≤ 32) :
    (s.setFld f v).fld f = v % 2 ^ f.width := by
  rw [State.fld_word _ h, State.setFld_word _ _ h, State.reg_setReg_same, BitVec.toNat_ofNat,
    Nat.mod_eq_of_lt (setBits_lt (s.reg f.addr).isLt h), bits_setBits_same]

/-- A field written leaves every other register alone. -/
theorem State.reg_setFld_ne (s : State) {f : Fld} {a : Nat} (v : Nat) (h : f.lo + f.width ≤ 32) (ha : a ≠ f.addr) :
    (s.setFld f v).reg a = s.reg a := by
  rw [State.setFld_word _ _ h, State.reg_setReg_ne _ _ ha]

/-- A field written leaves every field of another register, and every other field of its own, alone. -/
theorem State.fld_setFld_ne (s : State) {f g : Fld} (v : Nat) (hf : f.lo + f.width ≤ 32) (hg : g.lo + g.width ≤ 32)
    (h : g.addr ≠ f.addr ∨ g.lo + g.width ≤ f.lo ∨ f.lo + f.width ≤ g.lo) : (s.setFld f v).fld g = s.fld g := by
  rw [State.fld_word _ hg, State.fld_word _ hg]
  by_cases ha : g.addr = f.addr
  · rw [State.setFld_word _ _ hf, ha, State.reg_setReg_same, BitVec.toNat_ofNat,
      Nat.mod_eq_of_lt (setBits_lt (s.reg f.addr).isLt hf), bits_setBits_disjoint (by tauto)]
  · rw [State.reg_setFld_ne _ _ hf ha]

theorem State.fld_setReg_ne (s : State) {a : Nat} (v : Word) {g : Fld} (hg : g.lo + g.width ≤ 32) (h : g.addr ≠ a) :
    (s.setReg a v).fld g = s.fld g := by
  rw [State.fld_word _ hg, State.fld_word _ hg, State.reg_setReg_ne _ _ h]

/-! ### Pairs -/

theorem State.reg_setReg64_ne (s : State) {a b : Nat} (v : Nat) (h : b ≠ a) (h' : b ≠ a + 4) :
    (s.setReg64 a v).reg b = s.reg b := by
  unfold State.setReg64
  rw [State.reg_setReg_ne _ _ h', State.reg_setReg_ne _ _ h]

/-- A pair reads the value written to it, modulo 2^64. -/
theorem State.reg64_setReg64 (s : State) (a v : Nat) : (s.setReg64 a v).reg64 a = v % 2 ^ 64 := by
  unfold State.reg64 State.setReg64
  rw [State.reg_setReg_same, State.reg_setReg_ne _ _ (by omega), State.reg_setReg_same, BitVec.toNat_ofNat, BitVec.toNat_ofNat]
  omega

/-- A pair advanced by a count, modulo 2^64. -/
theorem State.reg64_count64 (s : State) (a n : Nat) : (s.count64 a n).reg64 a = (s.reg64 a + n) % 2 ^ 64 := by
  unfold State.count64
  rw [State.reg64_setReg64, Nat.mod_mod]

/-! ### Events (R8) -/

/-- An event changes its status register and its counter alone. -/
theorem State.reg_event_ne (s : State) {e : Evt} {a : Nat} (h : a ≠ e.status) (h' : a ≠ e.counter) :
    (s.event e).reg a = s.reg a := by
  unfold State.event
  rw [State.reg_setReg_ne _ _ h', State.reg_setReg_ne _ _ h]

/-- The status register after an event has its bit set and its other bits as they were. -/
theorem State.reg_event_status (s : State) {e : Evt} (h : e.status ≠ e.counter) :
    (s.event e).reg e.status = s.reg e.status ||| BitVec.ofNat 32 (2 ^ e.bit) := by
  unfold State.event
  rw [State.reg_setReg_ne _ _ h, State.reg_setReg_same]

/-- The companion counter after an event has advanced by one, wrapping at 2^16. -/
theorem State.reg_event_counter (s : State) {e : Evt} (h : e.status ≠ e.counter) :
    ((s.event e).reg e.counter).toNat = ((s.reg e.counter).toNat + 1) % 65536 := by
  unfold State.event
  rw [State.reg_setReg_same, State.reg_setReg_ne _ _ (Ne.symm h), BitVec.toNat_ofNat]
  omega

/-- An event leaves every field of another register alone. -/
theorem State.fld_event_ne (s : State) {e : Evt} {g : Fld} (hg : g.lo + g.width ≤ 32) (h : g.addr ≠ e.status)
    (h' : g.addr ≠ e.counter) : (s.event e).fld g = s.fld g := by
  rw [State.fld_word _ hg, State.fld_word _ hg, State.reg_event_ne _ h h']

end Sys2Proof.Machine
end

