-- ==== Sys2Proof/Laws/Memory.lean ====
section
/-! SUPPORT. Physical memory: a read after a write, and the canonical form that every operation on it keeps. -/

namespace Sys2Proof.Machine

/-- A byte after one byte is written. -/
theorem State.byteAt_setByte (s : State) (a x : Nat) (b : BitVec 8) :
    (s.setByte a b).byteAt x = if x = a then b else s.byteAt x := Sparse.get_put

@[simp] theorem State.setByte_fills (s : State) (a : Nat) (b : BitVec 8) : (s.setByte a b).phys.fills = s.phys.fills := rfl

/-- Writing a byte string changes physical memory alone. -/
theorem State.writePhys_phys_only (bs : Bytes) (s : State) (a : Nat) :
    s.writePhys a bs = { s with phys := (s.writePhys a bs).phys } := by
  induction bs generalizing s a with
  | nil => rfl
  | cons b bs ih => exact (ih (s.setByte a b) (a + 1)).trans rfl

/-- A byte after a byte string is written: the string's byte inside the range written, and what stood there outside it. -/
theorem State.byteAt_writePhys (bs : Bytes) (s : State) (a x : Nat) :
    (s.writePhys a bs).byteAt x = if a ≤ x ∧ x < a + bs.length then bs.getD (x - a) 0 else s.byteAt x := by
  induction bs generalizing s a with
  | nil => simp [State.writePhys]
  | cons b bs ih =>
    simp only [State.writePhys, ih, State.byteAt_setByte, List.length_cons]
    by_cases h : x = a
    · subst h; simp
    · by_cases h2 : a + 1 ≤ x ∧ x < a + 1 + bs.length
      · rw [if_pos h2, if_pos (by omega)]
        obtain ⟨k, rfl⟩ : ∃ k, x = a + 1 + k := ⟨x - (a + 1), by omega⟩
        rw [show a + 1 + k - a = k + 1 by omega, show a + 1 + k - (a + 1) = k by omega]
        rfl
      · rw [if_neg h2, if_neg h, if_neg (by omega)]

/-- A byte string read back where it was written. -/
theorem State.readPhys_writePhys (bs : Bytes) (s : State) (a : Nat) : (s.writePhys a bs).readPhys a bs.length = bs := by
  apply List.ext_getElem
  · simp [State.readPhys]
  · intro i h1 h2
    simp only [State.readPhys, List.getElem_map, List.getElem_range, State.byteAt_writePhys]
    rw [if_pos (by omega)]
    simp [h2]

theorem Memory.wf_setByte {s : State} (a : Nat) (b : BitVec 8) (h : s.phys.wf = true) : (s.setByte a b).phys.wf = true :=
  Sparse.wf_put h

theorem Memory.wf_writePhys (bs : Bytes) {s : State} (a : Nat) (h : s.phys.wf = true) :
    (s.writePhys a bs).phys.wf = true := by
  induction bs generalizing s a with
  | nil => exact h
  | cons b bs ih => exact ih (a + 1) (Memory.wf_setByte a b h)

/-- Outside a fill, memory reads as before it. -/
theorem memDefault_fill {fs : List Fill} {f : Fill} {a : Nat} (h : f.covers a = false) :
    memDefault (f :: fs.filter (fun g => !(f.base ≤ g.base && g.base + g.len ≤ f.base + f.len))) a = memDefault fs a := by
  have key : (fs.filter (fun g => !(f.base ≤ g.base && g.base + g.len ≤ f.base + f.len))).find? (fun g => g.covers a) =
      fs.find? (fun g => g.covers a) := by
    induction fs with
    | nil => rfl
    | cons g gs ih =>
      simp only [List.filter_cons]
      by_cases hg : (!(decide (f.base ≤ g.base) && decide (g.base + g.len ≤ f.base + f.len))) = true
      · rw [if_pos hg]; simp only [List.find?_cons, ih]
      · rw [if_neg hg]
        have hc : g.covers a = false := by
          simp [Fill.covers] at h hg ⊢; omega
        rw [ih, List.find?_cons_of_neg (by simp [hc])]
  unfold memDefault
  rw [List.find?_cons_of_neg (by simp [h]), key]

theorem Sparse.wf_congr {d d' : Nat → BitVec 8} {m : Sparse (BitVec 8)} (h : ∀ p ∈ m, d p.1 = d' p.1)
    (hw : Sparse.wf d m = true) : Sparse.wf d' m = true := by
  induction m with
  | nil => rfl
  | cons p t ih =>
    obtain ⟨h1, h2, h3⟩ := Sparse.wf_cons.1 hw
    refine Sparse.wf_cons.2 ⟨?_, h2, ih (fun q hq => h q (List.mem_cons_of_mem _ hq)) h3⟩
    rw [← h p List.mem_cons_self]; exact h1

theorem Memory.wf_fill {m : Memory} (f : Fill) (h : m.wf = true) : (m.fill f).wf = true := by
  refine Sparse.wf_congr (d := memDefault m.fills) (fun p hp => ?_) (Sparse.wf_filter h)
  have : f.covers p.1 = false := by simpa using (List.mem_filter.1 hp).2
  exact (memDefault_fill this).symm

theorem Memory.wf_zeroRange {s : State} (b n : Nat) (h : s.phys.wf = true) : (s.zeroRange b n).phys.wf = true :=
  Memory.wf_fill _ h

theorem Memory.wf_undefRange {s : State} (b n : Nat) (h : s.phys.wf = true) : (s.undefRange b n).phys.wf = true :=
  Memory.wf_fill _ h

theorem Memory.wf_undefRanges (rs : List (Nat × Nat)) {s : State} (h : s.phys.wf = true) : (s.undefRanges rs).phys.wf = true := by
  induction rs generalizing s with
  | nil => exact h
  | cons r rs ih => exact ih (Memory.wf_undefRange r.1 r.2 h)

/-- Memory right after reset is in its canonical form. -/
theorem Memory.wf_reset : State.reset.phys.wf = true := rfl

end Sys2Proof.Machine
end

