-- ==== Sys2Proof/Laws/Power.lean ====
section
/-! SUPPORT. The rails: what a rail reads as after one is written, and folds over the rails. -/

namespace Sys2Proof.Machine

@[simp] theorem State.rails_setRail (s : State) (r : Nat) (x : Rail) : (s.setRail r x).rails = s.rails.set r x := rfl

@[simp] theorem State.length_setRail (s : State) (r : Nat) (x : Rail) : (s.setRail r x).rails.length = s.rails.length := by
  simp [State.setRail]

/-- A rail after one is written. -/
theorem State.rail_setRail (s : State) (r q : Nat) (x : Rail) :
    (s.setRail r x).rail q = if q = r ∧ r < s.rails.length then x else s.rail q := by
  unfold State.rail State.setRail
  simp only [List.getD_eq_getElem?_getD, List.getElem?_set]
  by_cases h : r = q
  · subst h
    by_cases h2 : r < s.rails.length
    · simp [h2]
    · simp [h2]
  · simp [h, Ne.symm h]

/-- Two states with the same rails read the same at every rail. -/
theorem State.rail_congr {s t : State} (h : t.rails = s.rails) (r : Nat) : t.rail r = s.rail r := by
  unfold State.rail; rw [h]

/-- A fold that rewrites rails one after the other, each by a function of that rail as it stood, changes each rail once. -/
theorem State.fold_setRail (f : Nat → Rail → Rail) (rs : List Nat) (hn : rs.Nodup) (s : State) (hr : ∀ r ∈ rs, r < s.rails.length) :
    (∀ q, (rs.foldl (fun (a : State) r => a.setRail r (f r (a.rail r))) s).rail q = if q ∈ rs then f q (s.rail q) else s.rail q) ∧
      (rs.foldl (fun (a : State) r => a.setRail r (f r (a.rail r))) s).rails.length = s.rails.length ∧
      rs.foldl (fun (a : State) r => a.setRail r (f r (a.rail r))) s =
        { s with rails := (rs.foldl (fun (a : State) r => a.setRail r (f r (a.rail r))) s).rails } := by
  induction rs generalizing s with
  | nil => exact ⟨fun q => by simp, rfl, rfl⟩
  | cons r rs ih =>
    obtain ⟨h1, h2⟩ := List.nodup_cons.1 hn
    obtain ⟨i1, i2, i3⟩ := ih h2 (s.setRail r (f r (s.rail r))) (fun q hq => by
      rw [State.length_setRail]; exact hr q (List.mem_cons_of_mem _ hq))
    refine ⟨fun q => ?_, by rw [List.foldl_cons, i2, State.length_setRail], by rw [List.foldl_cons]; exact i3.trans rfl⟩
    rw [List.foldl_cons, i1, State.rail_setRail]
    have hl : r < s.rails.length := hr r List.mem_cons_self
    by_cases hq : q = r
    · subst hq; simp [h1, hl]
    · simp [hq]

/-- Stretching in a domain changes the register file and the power controller's notes alone. -/
theorem State.setStretch_only (s : State) (d : Nat) (x : Option Nat) :
    s.setStretch d x = { s with regs := (s.setStretch d x).regs, power := (s.setStretch d x).power } := by
  unfold State.setStretch
  rw [State.setFld_regs_only]

end Sys2Proof.Machine
end

