-- ==== Sys2Proof/WellFormed.lean ====
section
/-! DEFINITION. The well-formed commands: every operand lies in the range that the module's units, wires and registers
give it. -/

namespace Sys2Proof

/-- A requester that exists (R5, R14): the baker cores are those of dies 0 to 4. -/
def Requester.wellFormed : Requester → Bool
  | .baker die => decide (die < 5)
  | _ => true

/-- A tile number and a 64-byte line of the reports of R108: 0x3F stands for shared SRAM, and lines have 20 bits. -/
def Ecc.wellFormed : Ecc → Bool
  | .clean | .external => true
  | .corrected tile line | .uncorrectable tile line => decide (tile < 64) && decide (line < 1048576)

/-- A source of a request (R203) that names a context, a die or a stream that exists. -/
def ReqSource.wellFormed : ReqSource → Bool
  | .residency k | .host k => decide (k < 64)
  | .seqSlot die => decide (die < 5)
  | .camera stream => decide (stream < 160)
  | .walk src => src.wellFormed
  | _ => true

/-- A register word. -/
def isWord (v : Nat) : Bool := decide (v < 4294967296)

/-- A 64-bit number, such as an instant or a virtual address. -/
def isLong (v : Nat) : Bool := decide (v < 18446744073709551616)

/-- An aligned BAR0 offset (R4, R22). -/
def isOffset (a : Nat) : Bool := decide (a < 0x10000000) && decide (a % 4 = 0)

/-- A die of the module (R14). -/
def isDie (d : Nat) : Bool := decide (d < 5)

/-- A context number, which is also that of its queue (R71, R93), or a notifier (R100). -/
def isCtx (k : Nat) : Bool := decide (k < 64)

/-- A sequence key (R142). -/
def isSeq (q : Nat) : Bool := decide (q < 4096)

/-- An Ethernet port (R223). -/
def isPort (p : Nat) : Bool := decide (p < 12)

/-- The index of a STREAMS record. -/
def isStream (i : Nat) : Bool := decide (i < 160)

/-- A world slot (R265). -/
def isWorld (w : Nat) : Bool := decide (w < 1024)

/-- A rail (R419). -/
def isRail (r : Nat) : Bool := decide (r < 8)

/-- A clock domain (R20). -/
def isDomain (d : Nat) : Bool := decide (d < 40)

/-- A safe-torque-off output: 2g and 2g + 1 are those of group g (R359). -/
def isOutput (x : Nat) : Bool := decide (x < 8)

/-- A joint group (R345), a sensor supply (R446), or an engine of loops (R319): there are four of each. -/
def isQuad (g : Nat) : Bool := decide (g < 4)

/-- An emergency-stop channel (R360), or an authority of a change (R364): there are two of each. -/
def isTwo (c : Nat) : Bool := decide (c < 2)

/-- True where a result of the proof run is one of a checker that its table lists for the die (R367). -/
def ProofCheck.wellFormed (c : ProofCheck) : Bool :=
  isDie c.die && decide (1 ≤ c.id ∧ c.id ≤ 0x0F) &&
    (c.die == 0 || c.id == 1 || c.id == 3 || c.id == 4 || c.id == 9 || (c.id == 2 && c.die == 1))

/-- The checks on a command. -/
def Instr.wellFormed : Instr → Bool
  | .registerWrite who a value | .pairLowWrite who a value | .pairHighWrite who a value =>
    who.wellFormed && isOffset a && isWord value
  | .pairLowRead who a | .pairHighRead who a => who.wellFormed && isOffset a
  | .bar0InvalidAccess a size _ => decide (a < 0x10000000) && decide (size ≠ 0)
  | .bar0AbsentDieAccess a _ => isOffset a && isDie (a / 0x1000000)
  | .deviceTimeRealign die | .snapshotTake die | .seqSlotRelease die | .seqTransferComplete die _
  | .bakerWatchdogExpiry die | .bakerRestartComplete die => isDie die
  | .latencyMaxClear who die => who.wellFormed && isDie die
  | .snapshotArm who die v => who.wellFormed && isDie die && isLong v
  | .seqBind who die v | .seqSwapOut who die v | .seqRestore who die v | .seqUnbind who die v =>
    who.wellFormed && isDie die && isWord v
  | .dieBringupRepeat die _ _ => isDie die && decide (2 ≤ die)
  | .requestIssue die _ loc _ src _ va => isDie die && isDie loc && src.wellFormed && va.elim true (fun p => isLong p.1)
  | .arbiterGrant loc _ | .budgetWindowStart (loc, _) => isDie loc
  | .tlbWalk die ctx va _ => isDie die && isCtx ctx && isLong va
  | .layoutFullLoad who v | .layoutPartialLoad who v | .layoutValidate who v | .tierAlloc who v | .tierFree who v
  | .tierShare who v | .tierLinkSeq who v | .tierUnlinkSeq who v | .tierFlush who v | .timeRateWrite who v
  | .timeStep who v | .estopReset who v _ | .sioHoldWrite who v | .crustClear who v | .bootUpdate who v
  | .swResetModule who v | .swResetDies who v | .blockResetDrain who v | .blockResetSirug who v => who.wellFormed && isWord v
  | .makeResident who k | .makeNonresident who k | .release who k => who.wellFormed && isCtx k
  | .queueStop who k v | .queueRun who k v | .queueAbort who k v | .notifierArm who k v =>
    who.wellFormed && isCtx k && isWord v
  | .residencyTransferComplete k _ | .scheduleActivation k | .budgetOverrun k _ _ | .scheduleStepIssue k _
  | .invocationComplete k _ | .descriptorFetch k | .invocationStart k | .sqFetchFault k | .cqWriteFault k
  | .notifierFire k => isCtx k
  | .submissionTailDoorbell k v | .completionHeadDoorbell k v => isCtx k && isWord v
  | .gemm _ e | .conv _ e | .ew _ e | .stemFirst _ e | .stemLast _ e | .stemLastArgmax _ e | .argmax _ e | .attn _ e
  | .kvAppend (_, e) | .handoffPut (_, e) | .handoffTake (_, e) | .planBatch (_, e) | .solvRun (_, e) => e.wellFormed
  | .specVerify (_, n, e) => decide (1 ≤ n) && e.wellFormed
  | .seqChunk (_, n) e => decide (1 ≤ n) && e.wellFormed
  | .memoryScrub a e => a.elim true isLong && e.wellFormed
  | .kvCreate who q | .kvFree who q | .kvTruncate who q | .kvGrant who q | .kvRead who q => who.wellFormed && isSeq q
  | .kvPoolWrite who _ v => who.wellFormed && isWord v
  | .ifPropose who | .mapBuildSdf who | .mapEnterTree who | .mapEnterSdf who | .chgNonce who | .proofRunOnDemand who
  | .bootLogClear who | .attestationQuote who => who.wellFormed
  | .chgStage who p | .chgCommit who p => who.wellFormed && isTwo p
  | .mapFork who w | .mapClear who w | .mapWrite who w | .mapLoad who w | .mapSnapshot who w => who.wellFormed && isWorld w
  | .loopClear who i => who.wellFormed && decide (i < 512)
  | .jbusClear who i => who.wellFormed && isStream i
  | .ptpFifoPop who p => who.wellFormed && isPort p
  | .ethCtrlWrite who p v => who.wellFormed && isPort p && isWord v
  | .spwrEnableWrite who k v => who.wellFormed && isQuad k && isWord v
  | .sioWireClear who m => who.wellFormed && decide (m < 1024)
  | .ethFrameReceive p _ _ | .ethFrameTransmit p _ _ | .ethLinkDown p | .ethLinkUp p _ _ | .ethCableDiagnostic p _ _ => isPort p
  | .csiFrameReceive p vc _ _ _ _ dt _ _ _ => isQuad p && isQuad vc && decide (dt < 64)
  | .jbusCmdBuild i | .jbusCmdTransmit i _ _ | .jbusFbCheck i | .simEntryRelease i | .cmdEgressCheck i | .fallbackBuild i
  | .psfSpeed i _ => isStream i
  | .loopPass e bad => isQuad e && bad.all (fun b => decide (b < 512))
  | .ss1RampEnd g | .selftestSlot g _ | .spwrOverload g _ _ | .spwrOpen g _ _ | .spwrBackfeed g _ | .spwrReverse g _ => isQuad g
  | .selftestOverdue slot g => decide (slot < 10) && isQuad g
  | .stoReadbackFault x _ _ | .stoShortGnd x _ _ | .stoExternalVoltage x _ _ | .stoOpenWire x _ _ | .stoReverseSource x _ =>
    isOutput x
  | .estopOpen c _ => isTwo c.1
  | .estopSourceShort c _ _ => isTwo c
  | .clockMonitorTrip m => m.1 == 0 || m.1 == 8 || m.1 == 12
  | .brownout r _ _ | .railStepComplete r | .droopLimitRaise r | .thermThrottleStep r | .thermRecoverStep r => isRail r
  | .droopDetect d _ | .droopPersist d | .stretchEnd d _ => isDomain d
  | .thermalSample readings => decide (readings.length = 26)
  | .proofRunComplete rs => rs.all (·.wellFormed)
  | .bar2Read off (len, _) => decide (off + len ≤ 0x1000000000)
  | .bar2Write off data => decide (off + data.length ≤ 0x1000000000)
  | .bar4InvalidWrite off _ _ => decide (off < 0x1000000)
  | .syncSlotWrite id off _ _ => decide (id < 65535) && decide (off < 8)
  | .syncSlotRead none off _ => decide (off < 0x1000000)
  | .syncSlotRead (some id) off _ => decide (id < 65535) && decide (off < 8)
  | .smbusReadByte c | .smbusReadWord c | .smbusWrite c _ => decide (c < 256)
  | .flashRead word _ => decide (word < 536870912)
  | .flashWrite a data => decide (a + data.length ≤ 33554432 * 65536)
  | .hostPortReconfigure w r _ => (w == 4 || w == 8) && decide (1 ≤ r) && decide (r ≤ 6)
  | .flitRetry | .requestComplete _ | .layoutCommit | .operationComplete _ | .hostReset | .ifAnswer
  | .handoffPutPublish _ | .kvCmdTakeEffect
  | .tierUnmapTakeEffect | .prefetchIssue _ | .prefetchComplete _ _ _ | .prefetchDeadline _ | .prefetchWaitTimeout _
  | .journalCommit | .flashRelocation _ _ | .wearLevelling _ _ | .blockRetire _ _ | .ppsInEdge | .ppsOutRise | .ppsOutFall
  | .jbusFbReceive | .fusionCutoff | .fusionSlotComplete | .sdfBuildBegin | .mapModeChange
  | .solverDeadline _ _ _ | .factorBudgetExpiry _ | .crustEvent | .heartbeatMiss
  | .crustLockstepMismatch | .psfEvaluate _ | .psfValidityExpiry | .starterDigest _ | .starterLate _ | .estopDiscrepancy _ _
  | .chgStageExpiry | .proofFailRepeat | .stoPulseEnd _ | .estopTestEnd _ | .bringUp _ _ | .stepTimeout
  | .bootUpdateComplete _ | .debugUnlockExpiry | .powerOnReset | .pinResetAssert _ | .pinResetRelease _ | .crustReset
  | .thermSourceClear | .resetHoldEnd | .domainRelease | .blockDrainDone | .blockDrainTimeout | .blockResetRelease
  | .powerSample _ _ _ | .railTargetUpdate | .inputLoss _ _ | .inputRestored _ _ | .holdupExhausted _ | .sdfBuildComplete => true

end Sys2Proof
end

