-- ==== Sys2Proof/Tests/Slice0.lean ====
section
/-! SUPPORT. The model's own tests: for every statement with hypotheses a state and operands that meet them, for every clause; an
ill-formed term for each check of WellFormed; worked examples of the spec. -/

set_option Elab.async false
set_option linter.unusedVariables false
set_option maxRecDepth 10000

namespace Sys2Proof.Tests

open Sys2Proof Sys2Proof.Machine

/-! ### States -/

/-- A record of n bytes from its fields: offset, width in bytes and value. -/
def recOf (n : Nat) (fs : List (Nat × Nat × Nat)) : Bytes :=
  fs.foldl (fun b x => patch b x.1 (leBytes x.2.1 x.2.2)) (List.replicate n 0)

/-- A state with fields set. -/
def flds (s : State) (fs : List (Fld × Nat)) : State := fs.foldl (fun a x => a.setFld x.1 x.2) s

/-- An empty store without a block that was bad from the start. -/
def flash0 : FlashStore := { State.reset.flash with factoryBad := [] }

/-- The module in service: every die present with its link, device state RUNNING and boot state BOOTED. -/
def up : State :=
  flds { State.reset with diesPresent := 31, linkMods := [1, 1, 1, 1, 1], flash := flash0 } [(Fld.HQ_DEV_STATE_state, 2), (Fld.BOOT_STATUS_state, 1)]

/-- The module in service after a time on the always-on time base, in ns. -/
def upAt (ns : Nat) : State := { up with mono := 10 * ns }

/-- The module in service with a context resident and the arguments of a CREATE set. -/
def kvUp : State := flds (up.setCtx 0 { phase := .resident }) [(Fld.KV_CMD_ARG_0_geom, 1), (Fld.KV_CMD_ARG_0_layers, 1)]

/-- The same with sequence 4,095 valid. -/
def kvLive : State := kvUp.setKv 4095 { committed := 10, tentative := 10, geom := 1, layers := 1, valid := true }

/-- A mapping of 64 KiB of HBM at address 0 of context 0's root. -/
def mapHbm : Mapping := ⟨0, 0, 65536, 1, 0, 0, [(0x1000000000, 65536)], 0⟩

/-- The register family of an offset. -/
def famAt (a : Nat) : RegFam := (regAt a).elim ⟨[], 0, 0, 0, 0, 0, 0, []⟩ (·.1)

/-- A layout with one context, 5, whose overrun action is given: four operation slots on every die, a schedule of 1 µs on RX_AON
with one step, programme 7 of two operations on the Reflex die, a traffic record, sync ID 3, and further sections. -/
def lay (action : Nat) (more : List Section) : Layout :=
  ⟨9, [⟨1, [recOf 32 [(0, 1, 5), (1, 1, 2), (2, 1, 31), (4, 4, 500), (8, 1, action), (12, 2, 4)]], []⟩,
    ⟨2, (List.range 5).map (fun d => recOf 16 [(0, 1, 5), (1, 1, d), (2, 1, 5), (8, 4, 4)]) ++
      [recOf 16 [(0, 1, 5), (1, 1, 1), (2, 1, 4), (8, 4, 8)]], []⟩,
    ⟨3, [recOf 32 [(0, 1, 5), (1, 1, 15), (4, 4, 1000), (12, 4, 100), (20, 4, 1)]], recOf 16 [(4, 2, 7), (8, 2, 65535), (10, 2, 65535)]⟩,
    ⟨4, [recOf 16 [(0, 1, 5), (2, 2, 7), (8, 4, 128), (14, 1, 255)]], recOf 128 [(0, 1, 1), (64, 1, 1)]⟩,
    ⟨5, [recOf 32 [(0, 1, 5), (1, 1, 2), (2, 1, 1), (4, 4, 1000), (8, 4, 100), (12, 4, 10), (16, 2, 1)]], []⟩,
    ⟨0x10, [recOf 16 [(0, 1, 5), (1, 1, 1), (2, 2, 3), (4, 2, 6), (6, 2, 1)]], []⟩] ++ more⟩

/-- The module with that layout and context 5 in a phase. -/
def laid (p : CtxPhase) : State := { up with layout := some (lay 0 []) }.setCtx 5 { phase := p }

/-- The same at a device time in ns. -/
def laidAt (p : CtxPhase) (ns : Nat) : State := { laid p with devTime := ns * 80000000000 }

/-- A schedule activation of context 5. -/
def act0 : Activation := ⟨0, 0, 0, false, [], none, [], false, 0, 0⟩

/-- A run of a programme on a die, at its first operation. -/
def runOf (id prog die : Nat) (origin : Origin) : Run :=
  { id := id, ctx := 5, die := die, prog := prog, op := 0, unit := 0, args := [], origin := origin, start := 0, executed := false
    opCode := 0, sat := {}, satDie := die, outs := [], codes := [], recs := [], prefetches := [], waitEnd := none, substitute := none
    putReady := false, progress := 0, done := none }

/-- The layout with a residency transfer of 64 bytes from 0 to 0x1000 of context 5's root, whose first 64 KiB are mapped. -/
def resid (p : CtxPhase) : State :=
  { up with layout := some (lay 0 [⟨6, [recOf 48 [(0, 1, 5), (4, 2, 7), (8, 8, 0), (16, 8, 4096), (24, 4, 64), (28, 4, 0xFFFFFFFF)]], []⟩])
            maps := [⟨5, 0, 65536, 1, 0, 0, [(0, 65536)], 0⟩] }.setCtx 5 { phase := p }

/-- A request of 64 bytes at a resource. -/
def reqOf (id : Nat) (granted : Option Nat) : Request := ⟨id, 1, 0, 1, 6, [], [], 2, 2, 5, 65535, none, 64, none, 0, 0, some 0, 64, granted, false⟩

/-- A descriptor of context 5 that names programme 7 without conditions. -/
def desc5 : Bytes := recOf 64 [(0, 1, 5), (2, 2, 7), (8, 2, 65535), (10, 2, 65535)]

/-- A layout with one context, 5, and one programme, 7, of given operations on a die: the context holds operation slots on every die,
8 tiles, 4 MiB of shared SRAM and one instance of every engine on that die, 8 sync objects on the Cache die, and further sections. -/
def opLay (die : Nat) (ops : Bytes) (more : List Section) : Layout :=
  ⟨9, [⟨1, [recOf 32 [(0, 1, 5), (1, 1, 2), (2, 1, 31), (12, 2, 4)]], []⟩,
    ⟨2, [recOf 16 [(0, 1, 5), (1, 1, die), (8, 4, 8)], recOf 16 [(0, 1, 5), (1, 1, die), (2, 1, 1), (8, 4, 64)]] ++
      (List.range 5).map (fun d => recOf 16 [(0, 1, 5), (1, 1, d), (2, 1, 5), (8, 4, 4)]) ++
      (List.range 10).map (fun e => recOf 16 [(0, 1, 5), (1, 1, die), (2, 1, 2), (3, 1, e), (8, 4, 1)]) ++
      [recOf 16 [(0, 1, 5), (1, 1, 1), (2, 1, 4), (8, 4, 8)]], []⟩,
    ⟨4, [recOf 16 [(0, 1, 5), (1, 1, die), (2, 2, 7), (8, 4, ops.length), (14, 1, 255)]], ops⟩] ++ more⟩

/-- The module with that layout, context 5 resident and run 0 at the programme's first operation. -/
def opState (die : Nat) (ops : Bytes) (more : List Section) : State :=
  { up with layout := some (opLay die ops more), runs := [runOf 0 7 die (.invocation 3)] }.setCtx 5 { phase := .resident }

/-- A tile operation of 1 × 1 × 2 INT8 elements with its requantisation entry at 0x800 and its output at 0xA00. -/
def tileD (opcode : Nat) : Bytes :=
  recOf 64 [(0, 1, opcode), (1, 1, 0x66), (2, 1, 6), (9, 1, 1), (11, 1, 255), (12, 4, 1), (16, 4, 1), (20, 4, 2), (24, 4, 0),
    (28, 4, 0x200), (32, 4, 0x400), (36, 4, 0x600), (44, 4, 0x800), (48, 4, 0xA00), (52, 4, 0xC00)]

/-- A state in which that operation has operands with scales: A = (3, 5), B = (7, 9). -/
def tileMem (s : State) (die : Nat) : State :=
  ((((s.writeDie die 0 [3, 5]).writeDie die 0x200 [7, 9]).writeDie die 0x400 [1, 0]).writeDie die 0x600 [1, 0]).writeDie die 0x800 [1, 0, 0, 0]

/-- Sync IDs 3 and 4: objects 6 and 7 of the Cache die. -/
def syncSec : Section :=
  ⟨0x10, [recOf 16 [(0, 1, 5), (1, 1, 1), (2, 2, 3), (4, 2, 6), (6, 2, 1)], recOf 16 [(0, 1, 5), (1, 1, 1), (2, 2, 4), (4, 2, 7), (6, 2, 1)]], []⟩

/-- The state that a write answered, or another. -/
def okOr {ε : Type} (x : Except ε State) (s : State) : State :=
  match x with
  | .ok m => m
  | .error _ => s

/-- A state with one run, a mapping of context 5's first 64 KiB and a current sequence, 9. -/
def seqHome (s : State) (r : Run) : State :=
  { s with runs := [r], maps := [⟨5, 0, 65536, 1, 0, 0, [(0, 65536)], 0⟩] }.setKv 9
    { committed := 10, tentative := 10, holder := 5, owner := 5, geom := 1, layers := 1, valid := true }

/-- A HANDOFF_PUT descriptor: ring of 4 records at address 0 for context 6, sync IDs 3 and 4. -/
def putD : Bytes := recOf 64 [(0, 1, 0x40), (1, 1, 6), (2, 2, 4), (0x10, 2, 3), (0x12, 2, 4)]

/-- A HANDOFF_TAKE descriptor over the same ring, with a batch of one entry at address 0x100. -/
def takeD : Bytes := recOf 64 [(0, 1, 0x41), (2, 2, 4), (5, 1, 1), (0x10, 2, 3), (0x12, 2, 4), (0x20, 4, 0x100), (0x24, 2, 1)]

/-- The argument group of sequence 9 without a draft. -/
def group9 : Bytes := recOf 16 [(0, 2, 9), (2, 2, 1), (4, 2, 0xFFFF)]

/-- A run on the Generation die with that argument group. -/
def run9 (ready : Bool) : Run := { runOf 0 7 2 (.invocation 3) with args := group9, putReady := ready }

/-- A handoff record for context 5 of sequence 9. -/
def rec9 (committed : Nat) : Bytes := handoffRecord 5 5 group9 committed 0 0 0

/-- A state before a take of that record. -/
def takeAt (committed : Nat) : State :=
  ((seqHome (opState 2 takeD [syncSec]) (run9 false)).writePhys 0 (rec9 committed)).setSync (syncKey 1 6) 1

/-- A SPEC_VERIFY descriptor with its tables, and a batch of one entry for sequence 9 with one draft token. -/
def specD : Bytes := recOf 64 [(0, 1, 0x42), (0x20, 4, 0x100), (0x24, 2, 1), (0x28, 4, 0x1000), (0x2C, 4, 0x2000)]

/-- A state with a batch entry with given flags. -/
def specAt (flags tentative : Nat) : State :=
  ((seqHome (opState 2 specD []) (runOf 0 7 2 (.invocation 3))).writeDie 2 0x100
    (recOf 16 [(0, 2, 9), (2, 2, 1), (4, 2, 0xFFFF), (0xC, 1, 1), (0xE, 1, flags)])).setKv 9
    { committed := 10, tentative := tentative, holder := 5, owner := 5, geom := 1, layers := 1, valid := true }

/-- A SEQ_CHUNK descriptor: GRU of one row of 16 elements, n steps. -/
def chunkD (at7 n : Nat) : Bytes :=
  recOf 64 [(0, 1, 0x30), (3, 1, 255), (4, 1, 0x66), (5, 1, 6), (7, 1, at7), (9, 1, 1), (10, 2, 1), (12, 2, 16), (14, 2, 16), (16, 4, n),
    (0x14, 4, 0x8000), (0x18, 4, 0x9000), (0x2C, 4, 0xA000), (0x30, 4, 0xB000), (0x34, 4, 0xC000)]

/-- The slot image header of one GRU row of 16 elements. -/
def slotHead : Bytes := recOf 64 [(0, 2, 1), (4, 2, 1), (6, 2, 16), (12, 4, (seqImage 0 1 16).len)]

/-- A state of the Generation die with slot 3 of its sequence engine given. -/
def slotAt (x : SeqSlot) : State :=
  (seqHome (opState 2 (chunkD 255 1) []) (runOf 0 7 2 (.invocation 3))).setSlot (2 * 256 + 3) x

/-- The same slot while a command moves it out. -/
def swapAt (op : Nat) : State :=
  (slotAt { phase := .swapping, owner := 5, tag := 4, rows := 1, width := 16, closing := true }).setSeqCmd 2 (some ⟨op, 515, 0, true⟩)

/-- The same slot while a command restores it from an image at address 0 of its owner. -/
def restAt : State :=
  ((slotAt { phase := .restoring, owner := 5, tag := 4, rows := 1, width := 16 }).setSeqCmd 2 (some ⟨3, 515, 0, true⟩)).writePhys 0
    (sealImage (padTo 64 slotHead ++ List.replicate ((seqImage 0 1 16).len - 64) 0))

/-- A computation that answers a state answers that one. -/
theorem ok_okOr {ε : Type} {x : Except ε State} {s : State} (h : x.isOk = true) : x = .ok (okOr x s) := by
  cases x with
  | error e => simp [Except.isOk, Except.toBool] at h
  | ok m => rfl

/-- A state with the command registers of the tier manager set. -/
def tierRegs (s : State) (va len va2 aux : Nat) : State :=
  (((s.setReg64 Reg.TIER_CMD_VA va).setReg64 Reg.TIER_CMD_LEN len).setReg64 Reg.TIER_CMD_VA2 va2).setFld Fld.TIER_CMD_AUX_value aux

/-- The mapping of context 5's first 64 KiB. -/
def map5 : Mapping := ⟨5, 0, 65536, 1, 0, 0, [(0, 65536)], 0⟩

/-- A PREFETCH record of 64 bytes from 0 to 0x1000, with path 1. -/
def prefRec : Bytes := recOf 48 [(0, 1, 5), (4, 2, 7), (6, 2, 1), (8, 8, 0), (16, 8, 4096), (24, 4, 64)]

/-- A run with a run-time prefetch of its first operation in a phase. -/
def runP (p : PrefetchPhase) (wait : Option Nat) : Run := 
  { runOf 0 7 3 (.invocation 3) with recs := [prefRec], prefetches := [(0, p)], waitEnd := wait }

/-- A programme of two GEMMs whose first has that prefetch, with a cheaper path of a kind. -/
def prefAt (kind : Nat) (r : Run) : State :=
  { opState 3 (tileD 1 ++ tileD 1)
      [⟨6, [prefRec], []⟩,
        ⟨7, [recOf 32 [(0, 1, 5), (1, 1, kind), (2, 2, 1)]], []⟩] with
    runs := [r], maps := [map5] }

/-- The store in a mode. -/
def ftl (mode : Nat) (f : FlashStore) : State := { up.setFld Fld.FTL_STATUS_mode mode with flash := f }

/-- A load of an empty image. -/
def load0 (op : Nat) : Load := ⟨op, List.replicate 768 0, false⟩

/-- A section of an image with records of a stride and no blob. -/
def imgSec (t stride : Nat) (recs : List Bytes) : Bytes :=
  padTo 64 (recOf 32 [(0, 2, t), (2, 1, 1), (8, 8, 16 + stride * recs.length), (16, 4, recs.length), (20, 4, stride)] ++ recs.flatten)

/-- An image: header with the body's digest, body, and trailer with a signature of the Operations Authority's slot 0. -/
def imgOf (partial' : Nat) (base : Bytes) (n : Nat) (body sig : Bytes) : Bytes :=
  patch (patch (recOf 256 [(0, 4, 0x59414C5A), (4, 1, 1), (6, 1, 1), (7, 1, partial'), (8, 2, 256), (10, 2, n), (16, 8, body.length),
      (24, 8, 768 + body.length), (32, 8, 9)]) 0x40 (sha512 body)) 0xC0 base ++
    body ++ patch (recOf 512 [(0, 4, 0x4749535A), (5, 1, 0xFF)]) 16 sig

/-- The smallest body of a full image: the six sections of R60, empty. -/
def body0 : Bytes := [1, 2, 3, 4, 5, 16].flatMap (fun t => imgSec t (sectionStride t) [])

/-- The public key of the test's Operations Authority, slot 0 (made outside the package). -/
def oaKey : Bytes := beBytes 133 3089510561896869495055582462069932087926041247606251666358650987960052584709358375157669138138026047342767117138044880335001992510511316644719459295112115089135111738870253201204042598868988989635482714752519313475395632041109455513762417270924420335000646540280656841674157186461644455533766012119949141352414212692338

/-- A full image signed with it. -/
def imgFull : Bytes := imgOf 0 (List.replicate 64 0) 6 body0 (beBytes 132 5521207232080744544922919731823828589252217456799205295173729339525851318031737663543766655579084878954672729805082462382382454373677516252685028239014387182761902369081258835219381942981143873870846601003539071269174383363318023832727690288391123185331687462161286104651362576185075836629733493342937178071544132194)

/-- A partial image, an empty PATHS section, signed with it. -/
def imgPart : Bytes := imgOf 1 (List.replicate 64 0) 1 (imgSec 7 32 []) (beBytes 132 4442005369384869055456643739846101158921366729245050634182857748957703920091468455293741041740940320212246055191052155914272791408081102376877876386326889836851105410703056912120124843131622125792760648060175403837435218809733613912930084820313588685479929046960149829558175355395869713899679962713609743042891356724)

/-- Bytes from an address on, as a list of cells without those that an unlisted address reads as. -/
def cellsOf (unlisted : BitVec 8) : Nat → Bytes → Sparse (BitVec 8)
  | _, [] => []
  | a, b :: bs => if b = unlisted then cellsOf unlisted (a + 1) bs else (a, b) :: cellsOf unlisted (a + 1) bs

/-- A state whose memory holds bytes at the start of the window of record addresses, and nothing else. -/
def inWindow (s : State) (bs : Bytes) : State := { s with phys := { s.phys with cells := cellsOf 0 0x11FC000000 bs } }

/-- An image staged for the loader, with the Operations Authority's key enrolled and the layout of the full image active. -/
def staged (img : Bytes) : State :=
  { inWindow (flds up [(Fld.HQ_WIN_CTRL_mode 0, 2), (Fld.LAY_IMG_LEN_len, img.length), (Fld.KEY_SLOT_STATUS_oa, 1)]) img with
    layout := some (layoutOf imgFull), boot := { nor := cellsOf 255 0x10400 oaKey } }

/-- What those cells read as. -/
theorem get_cellsOf (u : BitVec 8) (d : Nat → BitVec 8) (hd : ∀ x, d x = u) (bs : Bytes) :
    ∀ a x : Nat, Sparse.get d (cellsOf u a bs) x = if a ≤ x then bs.getD (x - a) u else u := by
  induction bs with
  | nil => intro a x; simp [cellsOf, Sparse.get, hd]
  | cons b t ih =>
    intro a x
    unfold cellsOf
    split
    · rename_i hb
      rw [ih]
      by_cases hx : x = a
      · subst hx; simp [hb]
      · by_cases h : a ≤ x
        · have h1 : a + 1 ≤ x := by omega
          have h2 : x - a = x - (a + 1) + 1 := by omega
          simp [h, h1, h2]
        · have h1 : ¬ a + 1 ≤ x := by omega
          simp [h, h1]
    · simp only [Sparse.get]
      split
      · rename_i hx; subst hx; simp
      · rename_i hx
        rw [ih]
        by_cases h : a ≤ x
        · have h1 : a + 1 ≤ x := by omega
          have h2 : x - a = x - (a + 1) + 1 := by omega
          simp [h, h1, h2]
        · have h1 : ¬ a + 1 ≤ x := by omega
          simp [h, h1]

/-- An image at the start of the window of record addresses reads back, and none of its bytes lies on the Reflex die. -/
theorem image_read (s : State) (img : Bytes) (n : Nat) (hm : s.fld (Fld.HQ_WIN_CTRL_mode 0) = 2)
    (hb : s.stagingBase = 0x11FC000000) (hc : s.phys.cells = cellsOf 0 0x11FC000000 img) (hf : s.phys.fills = []) (hn : n ≤ img.length) (hl : n ≤ 0x4000000) :
    s.imageBytes 0 n = img.take n ∧ s.imageDie0 0 n = none := by
  have ht : ∀ i, i < n → s.bar2Target .read (0 + i) = some (.phys (0x11FC000000 + i)) := by
    intro i hi
    have h0 : (0 + i) / 0x40000000 = 0 := by omega
    have h1 : (0 + i) % 0x40000000 = i := by omega
    have h2 : i < 0x4000000 := by omega
    unfold State.bar2Target
    simp only [h0, h1, hm, h2, hb]
    rfl
  constructor
  · apply List.ext_getElem
    · simp [State.imageBytes, Nat.min_eq_left hn]
    · intro i h1 h2
      have hi : i < n := by simpa [State.imageBytes] using h1
      have hb : i < img.length := by omega
      have hd : ∀ x, memDefault s.phys.fills x = 0 := by intro x; simp [memDefault, hf]
      simp only [State.imageBytes, List.getElem_map, List.getElem_range, State.imageByte, State.bar2Byte, ht i hi, State.byteAt, hc,
        get_cellsOf 0 _ hd]
      simp [hb]
  · unfold State.imageDie0
    rw [List.find?_eq_none]
    intro i hi
    have hi' : i < n := by simpa using hi
    rw [ht i hi']
    simp [physDie0]
    omega

/-- An image passes steps 2 to 6 of a load where its header and its sections, read from it alone, do. -/
theorem staged_passes (img : Bytes) (op : Nat) (ho : imageOff (staged img) = 0) (hm : (staged img).fld (Fld.HQ_WIN_CTRL_mode 0) = 2)
    (hb : (staged img).stagingBase = 0x11FC000000) (hl : (staged img).fld Fld.LAY_IMG_LEN_len = img.length) (hn : 256 ≤ img.length ∧ img.length ≤ 0x4000000)
    (hh : (firstFinding (headerFindings (img.take 256) op img.length)).isNone = true)
    (hi : ((staged img).imageFailure img).isNone = true) : imagePasses (staged img) op = true := by
  have hf : (staged img).phys.fills = [] := rfl
  have h1 := image_read (staged img) img 256 hm hb rfl hf hn.1 (by omega)
  have h2 := image_read (staged img) img img.length hm hb rfl hf (Nat.le_refl _) hn.2
  unfold imagePasses
  rw [ho, hl, h1.1, h1.2, h2.1, h2.2, List.take_length, hh, hi]
  rfl

/-- The full image's sections pass. -/
theorem full_sections : ((staged imgFull).imageFailure imgFull).isNone = true := by decide +kernel

/-- Streams: a command stream of port 2, a feedback stream of port 2, a camera stream of port 1, and a host-fed stream. -/
def cmdStream : Bytes := recOf 64 [(0, 1, 5), (2, 1, 2), (4, 2, 7), (6, 1, 1), (8, 4, 1000000), (16, 4, 1000), (20, 4, 0x1000), (0x28, 1, 2)]

/-- The feedback stream. -/
def fbStream : Bytes :=
  recOf 64 [(0, 1, 5), (1, 1, 1), (2, 1, 2), (4, 2, 8), (6, 1, 1), (7, 1, 2), (8, 4, 1000000), (16, 4, 1000), (20, 4, 0x2000), (0x28, 1, 4)]

/-- The camera stream, with the sensor's own stamps. -/
def csiStream : Bytes :=
  recOf 64 [(0, 1, 5), (1, 1, 3), (2, 1, 1), (3, 1, 2), (32, 2, 2), (34, 1, 0x2A), (35, 1, 1), (36, 4, 128), (48, 2, 0xFFFF)]

/-- The host-fed stream. -/
def simStream : Bytes :=
  recOf 64 [(0, 1, 5), (1, 1, 2), (2, 1, 3), (3, 1, 0x80), (24, 8, 4096), (32, 2, 2), (36, 4, 128), (48, 2, 0xFFFF)]

/-- The module with those streams and further sections, joint port 2 with its link up, and context 5's first 64 KiB mapped. -/
def portsOf (more : List Section) : State :=
  { (flds up [(Fld.ETH_CTRL_mode 2, 1), (Fld.ETH_STATUS_link_up 2, 1), (Fld.CSI_CTRL_en 1, 1), (Fld.CSI_CTRL_lanes 1, 1)]) with
    layout := some (lay 0 (⟨13, [cmdStream, fbStream, csiStream, simStream], []⟩ :: more)), maps := [map5] }.setCtx 5 { phase := .resident }

/-- A feedback frame with a counter and a stamp. -/
def fbFrame (counter stamp : Nat) : Bytes :=
  let b := recOf 32 [(0, 1, 0x11), (2, 2, 8), (4, 2, counter), (6, 2, 16), (8, 4, stamp), (20, 4, 77)]
  leBytes 6 1 ++ leBytes 6 4 ++ [0x88, 0xB5] ++ b ++ leBytes 4 (crc32c b)

/-- The same frame with a wrong check. -/
def badFrame : Bytes := patch (fbFrame 3 0) 46 [0, 0, 0, 0]

/-- The streams with one frame waiting at the engine. -/
def waiting (f : Bytes) : State := { portsOf [] with ports := { jbusIn := [⟨2, 100, f⟩] } }

/-- A slot of loop engine 1 with a phase, and feedback from stream 9. -/
def loopRec9 (phase : Nat) : Bytes :=
  recOf 256 [(0, 1, 5), (1, 1, 1), (2, 1, 127), (4, 4, 25000), (8, 4, phase), (12, 1, 1), (0x10, 1, 2), (0x12, 2, 9), (0x30, 4, 0x3000)]

/-- The module with that slot in a mode. -/
def loopAt (phase mode : Nat) : State :=
  { up with layout := some (lay 0 [⟨11, [loopRec9 phase], []⟩]), loops := { slots := [(255, { mode := mode })] } }.setCtx 5 { phase := .resident }

/-- The module with a frame of camera port 1, virtual channel 2, in progress. -/
def camAt (x : CamFrame) : State :=
  { (portsOf []).setFld (Fld.CSI_STATUS_vc_busy 1) 4 with ports := { cams := [(6, some x)] } }

/-- A stream of all frames of sensor port 11. -/
def ethStream : Bytes := recOf 64 [(0, 1, 5), (1, 1, 2), (2, 1, 11), (4, 2, 0), (24, 8, 8192), (32, 2, 2), (36, 4, 128), (48, 2, 0xFFFF)]

/-- The streams with that one, and its port in mode SENSOR with its link up. -/
def sensAt : State :=
  { flds (portsOf []) [(Fld.ETH_CTRL_mode 11, 2), (Fld.ETH_STATUS_link_up 11, 1)] with
    layout := some (lay 0 [⟨13, [cmdStream, fbStream, csiStream, simStream, ethStream], []⟩]) }

/-- The slot of that engine with a control block of a mode and its feedback. -/
def loopIn (m : Nat) : State := (loopAt 0 m).writeDie 0 0 [m]

/-- A MAPCFG record: owner 5, depth 2, 50 mm leaves, 100 nodes, 4 slots, 16 delta records at 0x4000, a field of 2 × 2 × 2 at 0x5000. -/
def mapRec : Bytes :=
  recOf 96 [(0, 1, 1), (1, 1, 5), (2, 1, 2), (4, 2, 50), (6, 1, 2), (7, 1, 1), (0x18, 4, 100), (0x28, 2, 4), (0x2C, 4, 16), (0x30, 8, 0x4000),
    (0x38, 8, 0x5000), (0x40, 2, 2), (0x42, 2, 2), (0x44, 2, 2)]

/-- The map's configuration. -/
def mapC : MapCfg := mapCfgOf mapRec

/-- The module with that map, a programme of given operations on the Reflex die, and further sections. -/
def mapOf (ops : Bytes) (more : List Section) : State :=
  { opState 0 ops (⟨8, [mapRec], []⟩ :: more) with maps := [map5] }

/-- A tree whose child groups stand at places from `g` on, one for each level. -/
def atPlaces : Nat → MapTree → MapTree
  | _, .absent => .absent
  | _, .cell c => .cell c
  | g, .inner _ a b c d e f h i =>
    .inner g (atPlaces (g + 1) a) (atPlaces (g + 1) b) (atPlaces (g + 1) c) (atPlaces (g + 1) d) (atPlaces (g + 1) e) (atPlaces (g + 1) f)
      (atPlaces (g + 1) h) (atPlaces (g + 1) i)

/-- A tree of depth 2 with one occupied cell at 1, 2, 3. -/
def tree123 : MapTree := atPlaces 8 (MapTree.put 2 .absent [1, 2, 3] ⟨2, 0, [1, 2, 3, 4, 5, 6, 7]⟩)

/-- The map store with one occupied cell at 1, 2, 3 in slot 0, and the count argument of a command. -/
def mapAt (count : Nat) : State :=
  { (mapOf [] []).setFld Fld.MAP_CMD_ARG_count count with
    map := { worlds := [(0, ⟨4, 7, tree123⟩)] } }

/-- The same with a store that has no node left. -/
def mapFull : State :=
  { mapAt 0 with layout := some (opLay 0 [] [⟨8, [patch mapRec 0x18 [0]], []⟩]) }

/-- A FUSIONGRID record without streams: slots of 1 ms, cut-off after 1 µs, mailbox at 0x6000. -/
def fusRec : Bytes := recOf 64 [(4, 4, 1000000), (0xC, 4, 1000), (0x30, 8, 0x6000)]

/-- The fusion engine active at a device time in ns, with a slot that runs or none. -/
def fusAt (ns : Nat) (f : Option FusionRun) : State :=
  { (mapOf [] [⟨10, [fusRec], []⟩]).setFld (Fld.HQ_Q_CTRL_run 5) 1 with devTime := ns * 80000000000, fusion := { run := f } }

/-- A slot that runs. -/
def fusRun : FusionRun := ⟨3, 0, none, [], 0, 0, 5⟩

/-- A record of MAP_WRITE: cell 1, 2, 3 becomes OCCUPIED. -/
def writeRec : Bytes := recOf 32 [(0, 4, 1), (4, 4, 2), (8, 4, 3), (0xC, 1, 2), (0x10, 1, 9)]

/-- A PLAN_BATCH descriptor with one candidate at 0x100, its start block at 0x200 and its results at 0x300. -/
def planD : Bytes := recOf 64 [(0, 1, 0x60), (4, 1, 255), (5, 1, 255), (8, 4, 0x100), (0xC, 2, 1), (0x10, 4, 0x200), (0x14, 4, 0x300)]

/-- The PLANTAB section of a robot without joints: one primitive of cost 5, mailbox at 0x6000. -/
def planSec : Section := ⟨9, [recOf 32 [(8, 2, 5)]], recOf 64 [(0x18, 8, 0x6000)]⟩

/-- The run of a batch with a count argument. -/
def planRun (args : Bytes) : Run := { runOf 0 7 0 (.invocation 3) with args := args }

/-- A state before that batch. -/
def planAt (d args : Bytes) : State :=
  { ((mapOf d [planSec]).writeDie 0 0x100 (recOf 32 [(0, 1, 1)])).writeDie 0 0x200 (recOf 64 [(0x10, 4, 2 ^ 30)]) with runs := [planRun args] }

/-- A batch that runs with nothing retained. -/
def emptyBatch : PlanBatch := ⟨0, false, 0, [], 0, 0, 0, 0, 0, recOf 80 [(0x10, 4, 2 ^ 30)], [], 0, 0⟩

/-- A robot of one joint with a torque envelope, and one segment whose primitive needs it. -/
def scaleP (env : Nat) : PlanCtx :=
  ⟨mapC, ⟨0, [], 0, [⟨255, 0, [], [], 0, 0, env⟩], []⟩, [], recOf 80 [(0x18, 4, 65536)], ⟨[], []⟩, [], 0, none⟩

/-- That segment. -/
def scaleSeg : Bytes × List Int := (recOf 32 [(0x10, 4, 0x10)], [0])

/-- A SOLV_RUN descriptor of set-up 0. -/
def solvD : Bytes := recOf 64 [(0, 1, 0x70)]

/-- A set-up with a K of one block row at 0x100, vectors and results elsewhere, and a deadline and a factorisation budget. -/
def solvRec : Bytes :=
  recOf 96 [(2, 2, 4), (4, 2, 1), (8, 4, 1), (0x18, 4, 1), (0x20, 4, 1000000), (0x24, 4, 500), (0x28, 4, 1), (0x30, 4, 0x100), (0x38, 4, 0x400),
    (0x40, 4, 0x500), (0x44, 4, 0x1000), (0x48, 4, 0x600)]

/-- A state before that operation. -/
def solvAt : State := { opState 0 solvD [⟨12, [solvRec], []⟩] with maps := [map5] }

/-- The same with a valid K: the identity. -/
def solvOk : State :=
  ((solvAt.writeDie 0 0x104 [1]).writeDie 0 0x180 (((List.range 4).map (fun i => recOf 16 [(4 * i, 4, 1)])).flatten)).setSolvSetup 0 { count := 4 }

/-- That state with the operation running. -/
def solvBusy (refactor : Bool) (ns : Nat) : State :=
  { solvOk with devTime := ns * 80000000000, mono := 10 * ns, solv := { solvOk.solv with active := some ⟨0, 0, 0, refactor, false⟩ } }

/-- A command MAP_WRITE of that record into the empty slot's tree, and the tree that it asks for. -/
def mapW : State := ((mapAt 1).writePhys 0x100 writeRec).setReg64 Reg.MAP_CMD_VA 0x100

/-- The same tree with the cell written. -/
def treeW : MapTree := (mapW.world 0).tree.put 2 [1, 2, 3] (((writeRecord mapC writeRec).getD ([], id)).2 ((mapW.world 0).tree.get 2 [1, 2, 3]))

/-- The same map in a store that has no node. -/
def mapW0 : State := { mapW with layout := some (opLay 0 [] [⟨8, [patch mapRec 0x18 [0]], []⟩]) }

/-- A batch whose run is at its end. -/
def planEnd : State := { planAt planD [] with plan := { batch := some emptyBatch } }

/-- SAFETY records: GLOBAL with a category-1 ramp of 1,000 ns for group 2, perception rings of one entry at 0x100 and 0x200, psf_k 1 and a
default factor of 100; stream 0 in group 2; a starter with 4 bytes of output at 0x800. -/
def safeSec : Section :=
  ⟨14, [recOf 128 [(4, 4, 1000), (9, 1, 1), (10, 1, 1), (0xE, 1, 1), (0x18, 4, 1000), (0x20, 4, 0x100), (0x24, 4, 0x200), (0x28, 2, 1),
      (0x2C, 2, 100), (0x34, 4, 1000000)],
    recOf 128 [(1, 1, 1), (3, 1, 2)],
    recOf 128 [(0, 1, 5), (1, 1, 3), (2, 2, 7), (0xC, 4, 4), (0x10, 8, 0x800)]], []⟩

/-- The streams with those records, Crust running, at a device time in ns. -/
def safeAt (ns : Nat) : State :=
  { (portsOf [safeSec]).setFld Fld.CRUST_STATUS_run 1 with devTime := ns * 80000000000, mono := 10 * ns }

/-- A stop of category 1. -/
def ramp1 : GroupStop := ⟨1, 0, []⟩

/-- A perception entry of frame 9 with a stamp of 0 and an empty mask. -/
def psfRec : Bytes := recOf 128 [(0, 4, 2), (0x40, 8, 9)]

/-- A starter of an activation at 0 whose run is given. -/
def starter (run ended : Option Nat) (digested late : Bool) : StarterRun := ⟨2, 0, 0, run, 50, ended, digested, late⟩

/-- The state with one starter. -/
def starterAt (x : StarterRun) : State :=
  { safeAt 100 with crust := { (safeAt 100).crust with starters := [x] }, runs := [runOf 0 7 0 (.invocation 3)] }

/-- A two-party record that unlocks debug for 60 s, with the signatures of the test's key for both parties. -/
def chgRec : Bytes :=
  let sig := beBytes 132 4681421905852100964681874887746614981268231844667871133811325760546307169917866055122005418379761818997910809914553288025962782539597739566416844213721702593231557823460216520556157200306714108611660344656537063917944912195310988978613520018497996402106057179821701028212156584005654165954991234123852731025668667769
  patch (patch (recOf 316 [(0, 4, 0x4748435A), (4, 1, 1), (5, 1, 3), (6, 2, 16), (0x20, 4, 5), (0x24, 4, 60)]) 52 sig) 184 sig

/-- That record in the window of record addresses, a nonce in force, and the key enrolled in slot 0 of both authorities. -/
def chgAt (r : Bytes) (c : Option StagedChange) : State :=
  { inWindow (flds up [(Fld.HQ_WIN_CTRL_mode 0, 2), (Fld.CRUST_CHG_STATUS_state, 1), (Fld.KEY_SLOT_STATUS_sa, 1), (Fld.KEY_SLOT_STATUS_oa, 1)]) r with
    boot := { nor := cellsOf 255 0x10000 oaKey ++ cellsOf 255 0x10400 oaKey }, crust := { staged := c } }

/-- Self-tests: every group released, Crust running, at a device time. -/
def testAt (ns : Nat) (c : CrustSt) : State :=
  { flds up [(Fld.CRUST_STATUS_run, 1), (Fld.SIO_STO_STATUS_asserted, 0), (Fld.SIO_CFG_sto_test, 1)] with
    devTime := ns * 80000000000, mono := 10 * ns, crust := c }

/-- A start in bring-up with a step entered at time 0. -/
def bootAt (n : Nat) (ns : Nat) : State :=
  { State.reset with boot := { next := n, entered := some (n, false, 0) }, mono := 10 * ns }

/-- The module in service with boot state given. -/
def booted (b : BootSt) : State := { up with boot := b }

/-- A spoke die that repeats its bring-up step, with an image of the running slot that has a component of it. -/
def repeatAt (d : Nat) : State :=
  { up with rst := { repeatDies := [d] }, boot := { fw := some {}, nor := cellsOf 255 (slotBase 0 + 0x40) [BitVec.ofNat 8 d] } }

/-- A two-party record that puts SIO_CFG.estop_en to 0, signed with the test's key for both parties. -/
def tpRec : Bytes :=
  let sig := beBytes 132 2338855939812928320724018997246799002770051855741125618853922113290468896207796472898308880440531832658276617412735305430839649489223910348135519903972502134798702412620737551952103492138703695698499284532665202328878545546986262147006945379584173000592870483202550521231886782449399031471289114282058047670775592063
  patch (patch (recOf 316 [(0, 4, 0x4748435A), (4, 1, 1), (5, 1, 1), (6, 2, 16), (0x20, 4, 0x2E0000), (0x24, 4, 1)]) 52 sig) 184 sig

/-- A two-party record that revokes slot 1 of the Safety Authority, signed likewise. -/
def keyRec : Bytes :=
  let sig := beBytes 132 2338855939812928320724018997246799002770051855741125618853922113290468896207796472898308880440531832658276617412735305430839649489223910348135519903972502134798708744934718930253010331788611544146178489561478515071224244547458026410746134647422733442807960689977062475930730563736638265744895932408125623291846946073
  patch (patch (recOf 460 [(0, 4, 0x4748435A), (4, 1, 1), (5, 1, 2), (6, 2, 160), (0x20, 1, 2), (0x22, 1, 1)]) 196 sig) 328 sig

/-- A stop of group 2 in a category, its outputs energised, with feedback of joint 3 of port 2. -/
def stopped2 (cat : Nat) : State :=
  { (safeAt 0).setFld Fld.SIO_STO_STATUS_asserted 0 with crust := { feedback := [(131, some (7, 1000))], stops := [(2, some ⟨cat, 0, []⟩)] } }

/-- The fallback unit serving stream 0, whose group 2 has a loop slot in AUTO. -/
def heldAt : State :=
  { portsOf [safeSec, ⟨11, [patch (loopRec9 0) 15 [2]], []⟩] with
    ports := { streams := [(0, { takeover := some 0 })] }, loops := { slots := [(255, { mode := 2 })] } }

/-- A context of class 0 that is resident, with its command registers set for 513 pages of 64 KiB of HBM. -/
def lockAt : State :=
  tierRegs ({ up with layout := some ⟨9, [⟨1, [recOf 32 [(0, 1, 5), (2, 1, 31)]], []⟩]⟩ }.setCtx 5 { phase := .resident }) 0 33619968 0 0

/-- A computation that answers a value is that answer. -/
theorem ok_of {ε α : Type} [DecidableEq α] {x : Except ε α} {a : α} (h : (match x with | .ok b => decide (b = a) | .error _ => false) = true) :
    x = .ok a := by
  cases x with
  | error e => simp at h
  | ok b => simp only [decide_eq_true_eq] at h; rw [h]

/-! ### Well-formed commands: an ill-formed term for each check -/

/-- Register accesses, dies and numbers out of range. -/
theorem test_wf_registers :
    [Instr.registerWrite (.baker 5) 0 0, .registerWrite .host 2 0, .registerWrite .host 0x10000000 0, .registerWrite .host 0 0x100000000,
      .pairLowRead .host 1, .pairHighRead (.baker 9) 0, .pairLowWrite .host 3 0, .pairHighWrite .host 0 0x100000000,
      .bar0InvalidAccess 0 0 true, .bar0InvalidAccess 0x10000000 1 true, .bar0AbsentDieAccess 0x5000000 true,
      .deviceTimeRealign 5, .latencyMaxClear .host 5, .snapshotArm .host 0 0x10000000000000000, .seqBind .host 5 0,
      .seqBind .host 0 0x100000000, .dieBringupRepeat 1 0 true, .requestIssue 0 0 5 0 .journal 0 none, .requestIssue 0 0 0 0 (.host 64) 0 none,
      .requestIssue 0 0 0 0 (.seqSlot 5) 0 none, .requestIssue 0 0 0 0 (.walk (.camera 160)) 0 none, .requestIssue 0 0 0 0 .scrub 0 (some 0x10000000000000000), .arbiterGrant 5 0,
      .tlbWalk 0 64 0 true, .layoutFullLoad .host 0x100000000].all (fun i => !i.wellFormed) = true := by decide

/-- Contexts, memory, sequences and changes out of range. -/
theorem test_wf_units :
    [Instr.makeResident .host 64, .queueStop .host 0 0x100000000, .invocationStart 64, .submissionTailDoorbell 0 0x100000000,
      .seqChunk (0, 0) .clean, .gemm 0 (.corrected 64 0), .attn 0 (.uncorrectable 0 1048576), .memoryScrub (some 0x10000000000000000) .clean, .kvCreate .host 4096,
      .kvPoolWrite .host true 0x100000000, .mapBuildSdf (.baker 5), .chgStage .host 2, .mapFork .host 1024, .loopClear .host 512,
      .jbusClear .host 160, .ptpFifoPop .host 12, .ethCtrlWrite .host 0 0x100000000, .spwrEnableWrite .host 4 0, .sioWireClear .host 1024,
      .ethLinkDown 12, .csiFrameReceive 0 4 .start 0 0 0 0 [] true true, .csiFrameReceive 0 0 .packet 0 0 0 64 [] true true, .jbusCmdBuild 160,
      .loopPass 4 [], .loopPass 0 [512]].all (fun i => !i.wellFormed) = true := by decide

/-- Pins, rails, domains, sensors and buses out of range. -/
theorem test_wf_pins :
    [Instr.ss1RampEnd 4, .selftestOverdue 10 0, .stoReadbackFault 8 true 0, .estopOpen (2, false) 0, .brownout 8 0 0, .droopDetect 40 0,
      .thermalSample [0], .proofRunComplete [⟨5, 1, true, true⟩], .bar2Read 0x1000000000 (1, {}), .bar2Write 0xFFFFFFFFF [0, 0], .bar4InvalidWrite 0x1000000 4 0,
      .syncSlotWrite 65535 0 8 0, .syncSlotRead (some 0) 8 8, .syncSlotRead none 0x1000000 4, .smbusReadByte 256, .flashRead 536870912 .soft, .flashWrite 2199023255552 [0],
      .hostPortReconfigure 16 6 true, .hostPortReconfigure 8 7 true, .hostPortReconfigure 4 0 false].all (fun i => !i.wellFormed) = true := by decide

/-! ### Worked examples of the spec -/

/-- Chapter 02, the dot product with two combination blocks and its requantisation. -/
theorem test_dot_product : accumulate 2 [[⟨-185, 32361, -18⟩, ⟨1120, 28800, -17⟩]] = (7315652, -15, false) ∧
    requantise .int8 false 7315652 (-15) 18641 16 = (64, false) := by decide

/-- Chapter 02, the absmax quantiser over {100, −37, 0, 58}. -/
theorem test_absmax : absmax .int4 [(100, 0), (-37, 0), (0, 0), (58, 0)] =
    ⟨⟨229, -4⟩, [7, -3, 0, 4], [false, false, false, false], false⟩ := by decide +kernel

/-- Chapter 02, the softmax of {48, 32, 0}. -/
theorem test_softmax : (softmaxRow .uint8 4 7 [some 48, some 32, some 0]).map (·.1) = [79, 39, 10] := by decide +kernel

/-- Chapter 14, the body pose at slot 1,000. -/
theorem test_pose : poseAt [⟨1999600000, [65536, 0, 0], [2 ^ 30, 0, 0, 0]⟩, ⟨2000600000, [66191, 0, 0], [2 ^ 30, 0, 0, 0]⟩] 2000000 0
    2000000000 = some ⟨2000000000, [65798, 0, 0], [2 ^ 30, 0, 0, 0]⟩ := by decide +kernel

/-- Chapter 15, three FREE results clear an occupied cell of cost 90. -/
theorem test_free_confirm : writeCell 3 1 [] ⟨2, 1, [90]⟩ = ⟨2, 2, [90]⟩ ∧ (writeCell 3 1 [] ⟨2, 2, [90]⟩).state = 1 := by decide

/-- Chapter 16, the winner's segment 0: λ = 215, and 476,280 ns. -/
theorem test_lambda : PlanCtx.lambda ⟨mapC, ⟨0, [], 0, [⟨255, 0, [], [], 0, 0, 24576⟩], []⟩, [],
      recOf 80 [(0x18, 4, 30000), (0x1C, 4, 4000)], ⟨[], []⟩, [], 0, none⟩ [(recOf 32 [(0x10, 4, 0x10)], [0])] 256 = some 215 ∧
    scaledDurations [(recOf 32 [(4, 4, 400000)], [])] 215 = leBytes 4 476280 := by decide +kernel

/-- Chapter 17, the residual test after iteration 29: not converged, accepted. -/
theorem test_residual : residualPair 2150000000 0 9000000000000 0 = (262451, 1098632812) ∧
    residualMet 4295 (262451, 1098632812) = false ∧ residualMet 1717987 (262451, 1098632812) = true := by decide

/-- Chapter 18, the switch to AUTO and the evaluation after it. -/
theorem test_loop :
    let r := recOf 256 [(0x37, 1, 2), (0x44, 2, 16384), (0x46, 2, 512), (0x48, 2, 4096), (0x4C, 2, 65536 - 16384), (0x4E, 2, 16384),
      (0x50, 8, 2 ^ 39 - 1)]
    let a := autoLaw r { efPrev := 1150 } true 9830 1200 2000 0 0
    a.slot.integ = 177111040 ∧ a.slot.u = 9830 ∧ (autoLaw r a.slot false 9830 1230 2000 0 0).slot.u = 9880 ∧
      (autoLaw r a.slot false 9830 1230 2000 0 0).slot.integ = 179630080 := by decide +kernel

/-! ### Single steps -/

/-- A command waits behind the one that runs (the queue is first in, first out). -/
theorem test_step_takes_front : (match step { up with pending := [.heartbeatMiss, .chgStageExpiry] } with
    | .next t => t.pending == [.chgStageExpiry] && t.allAsserted
    | _ => false) = true := by decide +kernel

/-- One cycle of the clock: 3.2 ns on both time bases (R216). -/
theorem test_idle : (match step up with
    | .next t => t.mono == 32 && t.devTime == 256000000000
    | _ => false) = true := by decide +kernel

/-! ### Witnesses: every hypothesis of every clause is met together -/

/-- The hypotheses of RateAdjustment. -/
theorem witness_RateAdjustment :
    (∃ (who : Requester) (value : Nat) (s : State), s.served who 0 0x23 false = true) ∧
    (∃ (s : State), s.pending = [] ∧ s.boot.quote = none ∧ s.proofRunning = false ∧ (∀ g, g < 4 → s.tick.groupHeld g s.tick.now = false)) ∧
    (∃ (g : Nat) (r : Bytes) (s : State), s.pending = [] ∧ s.boot.quote = none ∧ s.proofRunning = false ∧ g < 4 ∧ r ∈ s.recs 0xB ∧
      fieldAt r 0xF 1 = g ∧ s.tick.groupHeld g s.tick.now = true) ∧
    (∃ (q : Nat × Bytes) (s : State), s.pending = [] ∧ s.boot.quote = some q) :=
  ⟨⟨.host, 51200001, up, by decide +kernel⟩,
    ⟨{ up with pending := [] }, by decide +kernel⟩,
    ⟨2, patch (loopRec9 0) 15 [2], heldAt, by decide +kernel⟩,
    ⟨(0, []), { up with boot := { quote := some (0, []) } }, by decide +kernel⟩⟩

/-- The hypotheses of RailControl. -/
theorem witness_RailControl :
    (∃ (s : State), s.rails.length = 8) ∧
    (∃ (r : Nat) (s : State) (up : Bool) (start : Nat), r < 8 ∧ s.rails.length = 8 ∧ railOk r (s.rail r) = true ∧ fixedRail r = false ∧
      (s.rail r).step = some (up, start) ∧ start + 25000 ≤ s.monoNs ∧
      (if up then (s.rail r).current < 15 else lowestPoint r < (s.rail r).current)) ∧
    (∃ (d : Nat) (depth : Nat) (s : State), d < 40 ∧ 50 ≤ depth ∧ s.stretchFrom d = none ∧ s.held.contains d = false) ∧
    (∃ (d : Nat) (cycles : Nat) (start : Nat) (s : State), d < 40 ∧ s.stretchFrom d = some start) ∧
    (∃ (d : Nat) (start : Nat) (s : State), d < 40 ∧ s.rails.length = 8 ∧ s.stretchFrom d = some start ∧ start + 10000 ≤ s.monoNs) ∧
    (∃ (r : Nat) (s : State), r < 8 ∧ s.rails.length = 8 ∧ (s.rail r).droopLimit < 15 ∧ (s.rail r).droopAt + 10000000 ≤ s.monoNs) :=
  ⟨⟨up, by decide +kernel⟩,
    ⟨2, (upAt 25000).setRail 2 { current := 14, step := some (true, 0) }, true, 0, by decide +kernel⟩,
    ⟨39, 50, up, by decide +kernel⟩,
    ⟨39, 70000, 0, { up with power := { stretch := [(39, some 0)] } }, by decide +kernel⟩,
    ⟨39, 0, { upAt 10000 with power := { stretch := [(39, some 0)] } }, by decide +kernel⟩,
    ⟨7, (upAt 10000000).setRail 7 { droopLimit := 14 }, by decide +kernel⟩⟩

/-- The hypotheses of PowerCap. -/
theorem witness_PowerCap :
    (∃ (mw : Nat) (vin : Nat) (bank : Nat) (s : State), s.rails.length = 8 ∧ s.capMw < mw ∧ lowerable s ≠ [] ∧
      ((samplesWith s mw).length < 10 ∨ s.capMw * 9 < (samplesWith s mw).sum)) ∧
    (∃ (mw : Nat) (vin : Nat) (bank : Nat) (s : State), s.rails.length = 8 ∧ mw ≤ s.capMw) ∧
    (∃ (vin : Nat) (ns : Nat) (s : State), s.rails.length = 8 ∧ s.flag Fld.PWR_STATUS_input_loss = false ∧ vin < 32000 ∧ 50000 ≤ ns) ∧
    (∃ (vin : Nat) (ns : Nat) (s : State), s.flag Fld.PWR_STATUS_input_loss = true ∧ s.railsOff = false ∧ 34000 < vin ∧ vin ≤ 62000 ∧
      10000000 ≤ ns) ∧
    (∃ (bank : Nat) (s : State), s.rails.length = 8 ∧ s.flag Fld.PWR_STATUS_input_loss = true ∧ bank < 28000) ∧
    (∃ (r : Nat) (depth : Nat) (ns : Nat) (s : State), 1 ≤ r ∧ r < 8 ∧ 80 < depth ∧ 1000 ≤ ns) ∧
    (∃ (depth : Nat) (ns : Nat) (s : State), 67 ≤ depth) ∧
    (∃ (vin : Nat) (ns : Nat) (s : State), s.flag Fld.PWR_STATUS_input_loss = true ∧ s.railsOff = true ∧ 34000 < vin ∧ vin ≤ 62000 ∧
      10000000 ≤ ns) :=
  ⟨⟨60001, 48000, 48000, up.setFld Fld.PWR_CAP_watts 0, by decide +kernel⟩,
    ⟨60000, 48000, 48000, up, by decide +kernel⟩,
    ⟨31999, 50000, up, by decide +kernel⟩,
    ⟨34001, 10000000, up.setFld Fld.PWR_STATUS_input_loss 1, by decide +kernel⟩,
    ⟨27999, up.setFld Fld.PWR_STATUS_input_loss 1, by decide +kernel⟩,
    ⟨7, 81, 1000, up, by decide +kernel⟩,
    ⟨67, 1, up, by decide +kernel⟩,
    ⟨34001, 10000000, (up.setFld Fld.PWR_STATUS_input_loss 1).setRail 1 { off := true }, by decide +kernel⟩⟩

/-- The hypotheses of ThermalControl. -/
theorem witness_ThermalControl :
    (∃ (readings : List Int) (s : State), s.blkOpen 0 0x31 = true ∧ readings.length = 26 ∧ s.rails.length = 8 ∧
      (∀ p, p ∈ allSensors.zip readings → p.2 < 8 * (tripC p.1.1 : Int))) ∧
    (∃ (r : Nat) (s : State), r < 8 ∧ s.rails.length = 8 ∧
      (railSensors r).any (fun p => decide (8 * (s.throttleC p.1 : Int) ≤ s.temp p.1 p.2)) = true ∧
      (s.rail r).thermAt + 1000000 ≤ s.monoNs) ∧
    (∃ (r : Nat) (since : Nat) (s : State), r < 8 ∧ s.rails.length = 8 ∧ (s.rail r).coolSince = some since ∧ (s.rail r).thermLimit < 15 ∧
      since + 10000000 ≤ s.monoNs ∧ (s.rail r).thermAt + 10000000 ≤ s.monoNs) :=
  ⟨⟨List.replicate 26 839, up, by decide +kernel⟩,
    ⟨2, { upAt 1000000 with power := { sensors := (List.range 80).map (fun k => (k, { reading := 880 })) } }, by decide +kernel⟩,
    ⟨2, 0, (upAt 10000000).setRail 2 { thermLimit := 14, coolSince := some 0 }, by decide +kernel⟩⟩

/-- The hypotheses of Wiring. -/
theorem witness_Wiring :
    (∃ (k : Nat) (ma : Nat) (ns : Nat) (s : State), k < 4 ∧ s.flag (Fld.PWR_SPWR_CTRL_en k) = true ∧
      (5000 < ma ∨ (2000 < ma ∧ 1000000 ≤ ns))) ∧
    (∃ (k : Nat) (ma : Nat) (ns : Nat) (s : State), k < 4 ∧ s.fld (Fld.PWR_SPWR_STATUS_state k) = 1 ∧ ma < 10 ∧ 100000000 ≤ ns) ∧
    (∃ (k : Nat) (mv : Nat) (s : State), k < 4 ∧ 13000 < mv) ∧
    (∃ (k : Nat) (mv : Int) (s : State), k < 4 ∧ mv < -500) ∧
    (∃ (who : Requester) (k : Nat) (value : Nat) (s : State), s.served who 0 0x21 false = true ∧ k < 4 ∧ value.testBit 0 = true ∧
      (∀ at', Sparse.get (fun _ => none) s.power.spwrTrip k = some at' → at' + 100000000 ≤ s.monoNs) ∧
      Sparse.get (fun _ => none) s.power.spwrBack k ≠ some s.refCycle) ∧
    (∃ (who : Requester) (k : Nat) (value : Nat) (s : State), s.served who 0 0x21 false = true ∧ k < 4 ∧ value.testBit 0 = true ∧
      Sparse.get (fun _ => none) s.power.spwrBack k = some s.refCycle) ∧
    (∃ (x : Nat) (ma : Nat) (ns : Nat) (s : State), x < 8 ∧ s.energised x = true ∧ 300 ≤ ma ∧ 50000 ≤ ns ∧ s.fld (Fld.SIO_WIRE_cond x) = 0) ∧
    (∃ (x : Nat) (mv : Nat) (ns : Nat) (s : State), x < 8 ∧ s.energised x = false ∧ 3000 < mv ∧ 1000000 ≤ ns ∧
      s.fld (Fld.SIO_WIRE_cond x) = 0) ∧
    (∃ (x : Nat) (ma : Nat) (ns : Nat) (s : State), x < 8 ∧ s.energised x = true ∧ ma < 2 ∧ 10000000 ≤ ns ∧
      s.fld (Fld.SIO_WIRE_cond x) = 0) ∧
    (∃ (x : Nat) (mv : Int) (s : State), x < 8 ∧ mv < -1000 ∧ s.fld (Fld.SIO_WIRE_cond x) = 0) ∧
    (∃ (c : Nat) (ma : Nat) (ns : Nat) (s : State), c < 2 ∧ 20 ≤ ma ∧ 1000000 ≤ ns ∧ s.fld (Fld.SIO_WIRE_cond (8 + c)) = 0) ∧
    (∃ (x : Nat) (ma : Nat) (ns : Nat) (s : State), x < 8 ∧ ma < 300 ∧ s.wire x = [2]) ∧
    (∃ (who : Requester) (live : Nat) (s : State), s.served who 0 0x2E false = true) ∧
    (∃ (port : Nat) (cond : Nat) (distance : Nat) (s : State), port < 12 ∧ cond < 4 ∧ cond ≠ 0 ∧ s.portMode port ≠ 0 ∧
      s.flag (Fld.ETH_STATUS_link_up port) = false ∧ s.blkOpen 0 0x24 = true) ∧
    (∃ (c : Nat) (s : State), c < 256 ∧ s.held.contains 0 = false) ∧
    (∃ (c : Nat) (s : State), c < 256 ∧ c % 2 = 0 ∧ s.held.contains 0 = false) :=
  ⟨⟨3, 5001, 0, up.setFld (Fld.PWR_SPWR_CTRL_en 3) 1, by decide +kernel⟩,
    ⟨3, 9, 100000000, up.setFld (Fld.PWR_SPWR_STATUS_state 3) 1, by decide +kernel⟩,
    ⟨3, 13001, up, by decide +kernel⟩,
    ⟨3, -501, up, by decide +kernel⟩,
    ⟨.host, 3, 1, up, by decide +kernel⟩,
    ⟨.host, 3, 1, { upAt 3200 with power := { spwrBack := [(3, some (upAt 3200).refCycle)] } }, by decide +kernel⟩,
    ⟨7, 300, 50000, up.setFld Fld.SIO_STO_STATUS_asserted 0, by decide +kernel⟩,
    ⟨7, 3001, 1000000, up, by decide +kernel⟩,
    ⟨7, 1, 10000000, up.setFld Fld.SIO_STO_STATUS_asserted 0, by decide +kernel⟩,
    ⟨7, -1001, up, by decide +kernel⟩,
    ⟨1, 20, 1000000, up, by decide +kernel⟩,
    ⟨7, 299, 5, { up with crust := { wires := [(7, [2])] } }, by decide +kernel⟩,
    ⟨.host, 0, flds up [(Fld.SIO_WIRE_cond 9, 2), (Fld.SIO_WIRE_live 9, 1)], by decide +kernel⟩,
    ⟨11, 3, 70, up.setFld (Fld.ETH_CTRL_mode 11) 1, by decide +kernel⟩,
    ⟨255, up, by decide +kernel⟩,
    ⟨0, up, by decide +kernel⟩⟩

/-- The hypotheses of ModuleResets. -/
theorem witness_ModuleResets :
    (∃ (n : Nat) (s : State), 64 ≤ n ∧ s.rst.active.contains 3 = false ∧ s.rst.episode = false) ∧
    (∃ (at' : Nat) (s : State), s.crust.trip = some at' ∧ at' + 1000000 ≤ s.monoNs ∧ s.rst.episode = false) ∧
    (∃ (who : Requester) (value : Nat) (s : State), s.served who 0 0x20 true = true ∧ s.rst.episode = false) ∧
    (∃ (n : Nat) (s : State), 64 ≤ n ∧ s.rst.active.contains 3 = true) ∧
    (∃ (s : State), s.rst.active.contains 7 = true ∧ s.rst.thermAt + 1000000000 ≤ s.monoNs ∧
      (∀ u ∈ s.rst.tripped, ∀ i, i < unitSensors u → s.temp u i < clearTemp u)) ∧
    (∃ (d : Nat) (ds : List Nat) (s : State), s.held = d :: ds ∧ s.rst.active = [] ∧ s.rst.lastRelease = none ∧ s.railsOff = false ∧
      s.rst.holdFrom + 10240 ≤ s.monoNs) ∧
    (∃ (d : Nat) (last : Nat) (ds : List Nat) (s : State), s.held = d :: ds ∧ s.rst.active = [] ∧ s.rst.lastRelease = some last ∧
      s.railsOff = false ∧ last + 2560 ≤ s.monoNs) :=
  ⟨⟨64, kvLive, by decide +kernel⟩,
    ⟨0, { upAt 1000000 with crust := { trip := some 0 } }, by decide +kernel⟩,
    ⟨.host, 0, kvLive, by decide +kernel⟩,
    ⟨64, { up with rst := { active := [3] } }, by decide +kernel⟩,
    ⟨{ upAt 1000000000 with rst := { active := [7], tripped := [0] } }, by decide +kernel⟩,
    ⟨39, [], { upAt 10240 with held := [39] }, by decide +kernel⟩,
    ⟨39, 0, [], { upAt 2560 with held := [39], rst := { lastRelease := some 0 } }, by decide +kernel⟩⟩

/-- The hypotheses of PartialResets. -/
theorem witness_PartialResets :
    (∃ (who : Requester) (value : Nat) (s : State), s.served who 0 0x20 true = true ∧ bits value 2 3 ≠ 0 ∧ s.rst.episode = false ∧
      (∀ d, 2 ≤ d → d ≤ 4 → value.testBit d = true → s.dieIdle d = true)) ∧
    (∃ (who : Requester) (value : Nat) (s : State), (bits value 2 3 = 0 ∨ s.rst.episode = true ∨ ∃ d, 2 ≤ d ∧ d ≤ 4 ∧ value.testBit d = true ∧ s.dieIdle d = false) ∧
      s.served who 0 0x20 true = true) ∧
    (∃ (s : State), s.fld Fld.BOOT_STATUS_state ≠ 0 ∧ s.load = none) ∧
    (∃ (s : State), s.fld Fld.BOOT_STATUS_state = 0 ∧ s.rst.episode = false) ∧
    (∃ (width : Nat) (rate : Nat) (flit : Bool) (s : State), s.fld Fld.BOOT_STATUS_state = 1 ∧ s.fld Fld.HQ_DEV_STATE_state = 0 ∧
      width < 16 ∧ rate < 16) ∧
    (∃ (who : Requester) (value : Nat) (s : State), s.served who 0 0x20 true = true ∧
      blockResettable (bits value 8 3) (bits value 16 8) = true ∧ s.rst.episode = false ∧ s.rst.blk = none ∧
      (blockNeedsSto (bits value 16 8) = true → s.allAsserted = true) ∧ s.swResetNow = false) ∧
    (∃ (who : Requester) (value : Nat) (s : State), s.served who 0 0x20 true = true ∧
      blockResettable (bits value 8 3) (bits value 16 8) = true ∧ s.rst.episode = false ∧ s.rst.blk = none ∧
      (blockNeedsSto (bits value 16 8) = true → s.allAsserted = true) ∧ s.swResetNow = false ∧
      s.blockLoad (bits value 8 3) (bits value 16 8) = 0) ∧
    (∃ (who : Requester) (value : Nat) (s : State), blockRefused s value ∧ s.served who 0 0x20 true = true) ∧
    (∃ (who : Requester) (value : Nat) (s : State), blockRefused s value ∧ s.served who 0 0x20 true = true) ∧
    (∃ (b : BlockReset) (s : State), s.rst.blk = some b ∧ s.fld Fld.RST_BLK_STATUS_phase = 1 ∧ s.blockLoad b.die b.block = 0) ∧
    (∃ (b : BlockReset) (s : State), s.rst.blk = some b ∧ s.fld Fld.RST_BLK_STATUS_phase = 1 ∧ s.blockLoad b.die b.block ≠ 0 ∧
      b.since + s.drainNs ≤ s.monoNs) ∧
    (∃ (b : BlockReset) (s : State), s.rst.blk = some b ∧ s.fld Fld.RST_BLK_STATUS_phase = 2 ∧ b.since + 2560 ≤ s.monoNs) ∧
    (∃ (b : BlockReset) (s : State), s.rst.blk = some b ∧ s.fld Fld.RST_BLK_STATUS_phase = 2 ∧ b.since + 2560 ≤ s.monoNs ∧
      s.ctxs.any (fun p => p.2.waiting) = false) :=
  ⟨⟨.host, 28, up, by decide +kernel⟩,
    ⟨.host, 0, up, .inl (by decide +kernel), by decide +kernel⟩,
    ⟨kvLive, by decide +kernel⟩,
    ⟨State.reset, by decide +kernel⟩,
    ⟨8, 6, true, up.setFld Fld.HQ_DEV_STATE_state 0, by decide +kernel⟩,
    ⟨.host, 0x410100, up, by decide +kernel⟩,
    ⟨.host, 0x410100, up, by decide +kernel⟩,
    ⟨.host, 0, up, by unfold blockRefused; decide +kernel, by decide +kernel⟩,
    ⟨.host, 0, up, by unfold blockRefused; decide +kernel, by decide +kernel⟩,
    ⟨⟨1, 0x41, false, 0⟩, { up.setFld Fld.RST_BLK_STATUS_phase 1 with rst := { blk := some ⟨1, 0x41, false, 0⟩ } }, by decide +kernel⟩,
    ⟨⟨1, 0x41, false, 0⟩,
      { (upAt 1000000000).setFld Fld.RST_BLK_STATUS_phase 1 with rst := { blk := some ⟨1, 0x41, false, 0⟩ }, kvPending := some ⟨2, 5, 0⟩ },
      by decide +kernel⟩,
    ⟨⟨1, 0x41, false, 0⟩, { (upAt 2560).setFld Fld.RST_BLK_STATUS_phase 2 with rst := { blk := some ⟨1, 0x41, false, 0⟩ } },
      by decide +kernel⟩,
    ⟨⟨1, 0x41, false, 0⟩, { (upAt 2560).setFld Fld.RST_BLK_STATUS_phase 2 with rst := { blk := some ⟨1, 0x41, false, 0⟩ } },
      by decide +kernel⟩⟩

/-- The hypotheses of KvCommands. -/
theorem witness_KvCommands :
    (∃ (who : Requester) (q : Nat) (s : State), kvReady s who = true ∧ (s.kvEntry q).valid = false ∧
      (kvGeom? (s.fld Fld.KV_CMD_ARG_0_geom)).isSome = true ∧ s.fld Fld.KV_CMD_ARG_0_layers ≠ 0 ∧
      (s.ctx (s.fld Fld.KV_CMD_ARG_0_owner)).phase = .resident ∧ (s.ctx (s.fld Fld.KV_CMD_ARG_0_holder)).phase = .resident ∧
      (∀ p ∈ s.kv, ¬(p.2.valid = true ∧ p.2.owner = s.fld Fld.KV_CMD_ARG_0_owner ∧ p.2.base = s.fld Fld.KV_CMD_ARG_1_value % 65536))) ∧
    (∃ (who : Requester) (q : Nat) (s : State), kvReady s who = true ∧ (s.kvEntry q).valid = true) ∧
    (∃ (who : Requester) (q : Nat) (s : State), kvReady s who = true ∧ (s.kvEntry q).valid = true ∧ (s.kvEntry q).groupOpen = false ∧
      s.fld Fld.KV_CMD_ARG_1_value ≤ (s.kvEntry q).committed) ∧
    (∃ (who : Requester) (q : Nat) (s : State), kvReady s who = true ∧ (s.kvEntry q).valid = true ∧ (s.kvEntry q).groupOpen = false ∧
      (s.ctx (s.fld Fld.KV_CMD_ARG_0_holder)).phase = .resident) ∧
    (∃ (who : Requester) (q : Nat) (s : State), kvReady s who = true) ∧
    (∃ (who : Requester) (q : Nat) (s : State), s.served who 1 0x41 false = true ∧ s.flag Fld.KV_CMD_STATUS_busy = true) ∧
    (∃ (p : KvPending) (s : State), s.kvPending = some p ∧ p.op = 2 ∧ p.seq < 4096 ∧ (∀ r ∈ s.runs, p.seq ∉ s.runSeqs r) ∧
      (s.kvEntry p.seq).valid = true) ∧
    (∃ (p : KvPending) (s : State), s.kvPending = some p ∧ p.op = 3 ∧ (∀ r ∈ s.runs, p.seq ∉ s.runSeqs r) ∧ (s.kvEntry p.seq).valid = true ∧
      (s.kvEntry p.seq).groupOpen = false ∧ p.arg ≤ (s.kvEntry p.seq).committed) ∧
    (∃ (who : Requester) (value : Nat) (s : State), s.served who 1 0x41 false = true ∧ (∀ p ∈ s.kv, p.2.valid = false) ∧
      s.coversAlloc (s.reg64 Reg.KV_POOL_BASE) (value % 2 ^ 21 * 65536) = false) ∧
    (∃ (who : Requester) (value : Nat) (s : State), s.served who 1 0x41 false = true ∧ (∀ p ∈ s.kv, p.2.valid = false) ∧
      s.coversAlloc (value % 2 ^ 64 / 65536 * 65536) (s.fld Fld.KV_POOL_PAGES_pages * 65536) = false) ∧
    (∃ (who : Requester) (pages : Bool) (value : Nat) (s : State), s.served who 1 0x41 false = true ∧ (∃ p ∈ s.kv, p.2.valid = true)) :=
  ⟨⟨.host, 4095, kvUp, by decide +kernel⟩,
    ⟨.host, 4095, kvLive, by decide +kernel⟩,
    ⟨.host, 4095, kvLive, by decide +kernel⟩,
    ⟨.host, 4095, kvLive, by decide +kernel⟩,
    ⟨.host, 4095, kvLive, by decide +kernel⟩,
    ⟨.host, 4095, up.setFld Fld.KV_CMD_STATUS_busy 1, by decide +kernel⟩,
    ⟨⟨2, 4095, 0⟩, { kvLive with kvPending := some ⟨2, 4095, 0⟩, seqLinks := [(0, 4095)], kvPages := [(4095 * 65536, some 3)] },
      by decide +kernel⟩,
    ⟨⟨3, 4095, 10⟩,
      { kvLive with kvPending := some ⟨3, 4095, 10⟩, kvPages := [(4095 * 65536, some 3), (4095 * 65536+1, some 4), (4095 * 65536+0xF000, some 5)] },
      by decide +kernel⟩,
    ⟨.host, 5, up, by decide +kernel⟩,
    ⟨.host, 0x20000010000, up, by decide +kernel⟩,
    ⟨.host, true, 5, kvLive, by decide +kernel⟩⟩

/-- The hypotheses of RegisterAccess. -/
theorem witness_RegisterAccess :
    (∃ (who : Requester) (a : Nat) (value : Nat) (w : Nat) (f : RegFam) (s : State), bar0Ok a = true ∧
      s.served who (a / 0x1000000) (a / 0x10000 % 0x100) (alwaysWritable a) = true ∧ regAt a = some (f, w) ∧ pairLow a = false ∧
      pairHigh a = false ∧ s.writeCommand? who a (value % 2 ^ 32) = none ∧ s.writeSpecial? who a (value % 2 ^ 32) = none) ∧
    (∃ (a : Nat) (size : Nat) (s : State), (size ≠ 4 ∨ a % 4 ≠ 0)) ∧
    (∃ (a : Nat) (size : Nat) (s : State), (size ≠ 4 ∨ a % 4 ≠ 0)) ∧
    (∃ (a : Nat) (s : State), a % 4 = 0 ∧ a < 0x10000000 ∧ 5 ≤ a / 0x1000000) ∧
    (∃ (a : Nat) (s : State), a % 4 = 0 ∧ a < 0x5000000 ∧ regAt a = none ∧ s.hostAccess (a / 0x1000000) (a / 0x10000 % 0x100) ≠ 1) ∧
    (∃ (a : Nat) (write : Bool) (s : State), a % 4 = 0 ∧ a < 0x5000000 ∧ s.hostAccess (a / 0x1000000) (a / 0x10000 % 0x100) = 1) ∧
    (∃ (who : Requester) (a : Nat) (value : Nat) (s : State), bar0Ok a = true ∧ regAt a = none ∧
      s.served who (a / 0x1000000) (a / 0x10000 % 0x100) (alwaysWritable a) = true) ∧
    (∃ (a : Nat) (write : Bool) (s : State), bar0Ok a = true ∧ s.hostAccess (a / 0x1000000) (a / 0x10000 % 0x100) = 1) ∧
    (∃ (who : Requester) (die : Nat) (block : Nat) (always : Bool) (f : State → State) (s : State), s.served who die block always = false) ∧
    (∃ (who : Requester) (a : Nat) (s : State), pairLow a = true ∧ s.readable who (a / 0x1000000) (a / 0x10000 % 0x100) = true) ∧
    (∃ (who : Requester) (a : Nat) (v : Word) (s : State), pairHigh a = true ∧ s.readable who (a / 0x1000000) (a / 0x10000 % 0x100) = true ∧
      s.latch who (a - 4) = some v) ∧
    (∃ (who : Requester) (a : Nat) (s : State), pairHigh a = true ∧ s.readable who (a / 0x1000000) (a / 0x10000 % 0x100) = true ∧
      s.latch who (a - 4) = none) ∧
    (∃ (who : Requester) (a : Nat) (value : Nat) (s : State), pairLow a = true ∧
      s.served who (a / 0x1000000) (a / 0x10000 % 0x100) (alwaysWritable a) = true) ∧
    (∃ (who : Requester) (value : Nat) (s : State), s.served who 0 0x23 false = true) :=
  ⟨⟨.host, Reg.HQ_IF_DRV, 0x1234, 0, famAt Reg.HQ_IF_DRV, up, by decide +kernel⟩,
    ⟨0, 8, up, by decide +kernel⟩,
    ⟨0, 8, up, by decide +kernel⟩,
    ⟨0x5000000, up, by decide +kernel⟩,
    ⟨0x00FFFFFC, up, by decide +kernel⟩,
    ⟨0x020FFFFC, true, { up with diesPresent := 27 }, by decide +kernel⟩,
    ⟨.host, 0x00FFFFFC, 5, up, by decide +kernel⟩,
    ⟨0x4000000, true, State.reset, by decide +kernel⟩,
    ⟨.host, 4, 0, false, fun s => s, State.reset, by decide +kernel⟩,
    ⟨.host, Reg.TIME_STEP, up, by decide +kernel⟩,
    ⟨.host, Reg.TIME_STEP + 4, 7, { up with latches := [⟨.host, Reg.TIME_STEP, 7⟩] }, by decide +kernel⟩,
    ⟨.host, Reg.TIME_STEP + 4, up, by decide +kernel⟩,
    ⟨.host, Reg.TIME_STEP, 5, up, by decide +kernel⟩,
    ⟨.host, 5, up, by decide +kernel⟩⟩

/-- The hypotheses of TimeStepsAndStamps. -/
theorem witness_TimeStepsAndStamps :
    (∃ (who : Requester) (value : Nat) (s : State), s.served who 0 0x23 false = true ∧ s.stepAllowed = true ∧
      0 ≤ (s.devTime : Int) + toSigned 64 (s.reg64 Reg.TIME_STEP) * 80000000000) ∧
    (∃ (who : Requester) (value : Nat) (s : State), s.served who 0 0x23 false = true ∧
      (s.stepAllowed = false ∨ (s.devTime : Int) + toSigned 64 (s.reg64 Reg.TIME_STEP) * 80000000000 < 0)) ∧
    (∃ (who : Requester) (port : Nat) (e : PtpStamp) (q : List PtpStamp) (s : State), s.readable who 0 0x23 = true ∧ port < 12 ∧
      s.fifo port = e :: q ∧ e.msgType < 4 ∧ e.seq < 65536 ∧ e.ns < 2 ^ 64 ∧ e.frac < 65536) ∧
    (∃ (who : Requester) (port : Nat) (s : State), s.readable who 0 0x23 = true ∧ port < 12 ∧ s.fifo port = []) ∧
    (∃ (s : State), s.flag Fld.TIME_CTRL_pps_in_en = true) ∧
    (∃ (s : State), s.flag Fld.TIME_CTRL_pps_out_en = true ∧ s.ppsDue = true ∧ s.ports.ppsHigh = false ∧
      (s.flag Fld.TIME_CTRL_pps_gate = true → s.fld Fld.TIME_STATUS_servo = 2)) ∧
    (∃ (s : State), s.ports.ppsHigh = true ∧ s.ports.ppsRise + s.ppsWidth ≤ (s.now : Int)) :=
  ⟨⟨.host, 1, up.setReg64 Reg.TIME_STEP 5, by decide +kernel⟩,
    ⟨.host, 1, up.setReg64 Reg.TIME_STEP (2 ^ 64 - 1), by decide +kernel⟩,
    ⟨.host, 11, ⟨true, 3, 65535, 2 ^ 64 - 1, 65535⟩, [], { up with ports := { fifos := [(11, [⟨true, 3, 65535, 2 ^ 64 - 1, 65535⟩])] } },
      by decide +kernel⟩,
    ⟨.host, 11, up, by decide +kernel⟩,
    ⟨up.setFld Fld.TIME_CTRL_pps_in_en 1, by decide +kernel⟩,
    ⟨flds up [(Fld.TIME_CTRL_pps_out_en, 1), (Fld.TIME_CTRL_pps_gate, 1), (Fld.TIME_STATUS_servo, 2)], by decide +kernel⟩,
    ⟨{ up with ports := { ppsHigh := true }, devTime := 500000000 * 80000000000 }, by decide +kernel⟩⟩

/-- The hypotheses of Requests. -/
theorem witness_Requests :
    (∃ (die : Nat) (master : Nat) (loc : Nat) (res : Nat) (bytes : Nat) (src : ReqSource) (s : State), sourceDie die src = true ∧
      sourceReaches loc res none src = true ∧ routeRes die loc res (sourceMaster die src) ≠ []) ∧
    (∃ (die : Nat) (master : Nat) (loc : Nat) (res : Nat) (bytes : Nat) (va : Nat) (write : Bool) (p : Nat) (s : State), s.translate (.engine die) (if write then .engineWrite else .read) (s.requestTag .scrub).2.1 va = .ok (.phys p) ∧
      die ≠ 1 ∧ routeTo die (.phys p) ≠ []) ∧
    (∃ (loc : Nat) (res : Nat) (s : State), loc < 5 ∧ res < 10 ∧ waitingAt s loc res ≠ [] ∧ (∀ q ∈ waitingAt s loc res, q.cls < 8)) :=
  ⟨⟨1, 0, 1, 6, 64, .journal, up, by decide +kernel⟩,
    ⟨2, 0, 2, 0, 64, 0, false, 0x1000000000, { up with maps := [mapHbm] }, ok_of (by decide +kernel), by decide +kernel⟩,
    ⟨1, 6, { up with requests := [reqOf 0 none, reqOf 1 none] }, by decide +kernel⟩⟩

/-- The hypotheses of Windows. -/
theorem witness_Windows :
    (∃ (loc : Nat) (i : Nat) (r : Bytes) (s : State), (s.recs 5)[i]? = some r ∧
      (Sparse.get (fun _ => {}) s.windows (windowKey loc i)).next ≤ s.localNow loc) ∧
    (∃ (loc : Nat) (i : Nat) (s : State), s.localNow loc < (Sparse.get (fun _ => {}) s.windows (windowKey loc i)).next) ∧
    (∃ (id : Nat) (q : Request) (s : State), s.requests.find? (fun x => x.id == id) = some q ∧ q.granted.isSome = true ∧ q.die < 5 ∧
      q.res < 10 ∧ (∀ p ∈ q.passed ++ [(q.loc, q.res, q.cls, q.record)], p.1 < 5 ∧ p.2.1 < 10 ∧ p.2.2.1 < 8)) ∧
    (∃ (who : Requester) (die : Nat) (time : Nat) (s : State), die < 5 ∧ s.served who die 0x05 false = true ∧ time < 2 ^ 64 ∧
      s.localNow die + 100 ≤ time) ∧
    (∃ (who : Requester) (die : Nat) (time : Nat) (s : State), die < 5 ∧ s.served who die 0x05 false = true ∧ time < s.localNow die + 100) ∧
    (∃ (die : Nat) (s : State), die < 5 ∧ s.blkOpen die 0x05 = true ∧ s.flag (Fld.MON_SNAP_STATUS_armed die) = true ∧
      s.reg64 (Reg.MON_SNAP_TIME die) ≤ s.localNow die) ∧
    (∃ (who : Requester) (die : Nat) (s : State), die < 5 ∧ s.served who die 0x04 false = true) ∧
    (∃ (die : Nat) (s : State), 1 ≤ die ∧ die < 5 ∧ 8 ≤ s.now) :=
  ⟨⟨0, 0, recOf 32 [(0, 1, 5), (1, 1, 2), (2, 1, 1), (4, 4, 1000), (8, 4, 100), (12, 4, 10), (16, 2, 1)], laidAt .resident 1000,
      by decide +kernel⟩,
    ⟨0, 0, { laidAt .resident 1000 with windows := [(windowKey 0 0, ⟨2000, 5⟩)] }, by decide +kernel⟩,
    ⟨0, { reqOf 0 (some 0) with die := 0 }, { up with requests := [{ reqOf 0 (some 0) with die := 0 }] }, by decide +kernel⟩,
    ⟨.host, 0, 100, up, by decide +kernel⟩,
    ⟨.host, 4, 99, up, by decide +kernel⟩,
    ⟨4, up.setFld (Fld.MON_SNAP_STATUS_armed 4) 1, by decide +kernel⟩,
    ⟨.host, 4, up, by decide +kernel⟩,
    ⟨4, { up with devTime := 8 * 80000000000 }, by decide +kernel⟩⟩

/-- The hypotheses of Residency. -/
theorem witness_Residency :
    (∃ (who : Requester) (k : Nat) (s : State), ctxTaken s who k = true ∧ s.blkOpen 1 0x42 = true ∧ (s.ctx k).phase = .nonresident ∧
      s.walkResidency k = 0 ∧ s.lockFull k (s.pagesMapped k) = false ∧ s.residencyRecs k = []) ∧
    (∃ (who : Requester) (k : Nat) (s : State), ctxTaken s who k = true ∧ s.blkOpen 1 0x42 = true ∧ (s.ctx k).phase = .nonresident ∧
      s.walkResidency k = 0 ∧ s.lockFull k (s.pagesMapped k) = false ∧ s.residencyRecs k ≠ []) ∧
    (∃ (who : Requester) (k : Nat) (s : State), ctxTaken s who k = true ∧ s.blkOpen 1 0x42 = true ∧ (s.ctx k).phase = .nonresident ∧
      (s.walkResidency k ≠ 0 ∨ s.lockFull k (s.pagesMapped k) = true)) ∧
    (∃ (who : Requester) (k : Nat) (s : State), ctxTaken s who k = true ∧ s.blkOpen 1 0x42 = false ∧ (s.ctx k).phase = .nonresident) ∧
    (∃ (who : Requester) (k : Nat) (s : State), s.served who 1 0x46 false = true ∧
      (ctxTaken s who k = false ∨ (s.ctx k).phase ≠ .nonresident)) ∧
    (∃ (k : Nat) (found : Found) (r : Bytes) (m : State) (s : State), ((s.noteActive 2).countReads k (fieldAt r 8 8) (fieldAt r 0x18 4) found).transfer k (fieldAt r 8 8) (fieldAt r 0x10 8) (fieldAt r 0x18 4) = .ok m ∧
      found.lost = false ∧ (s.ctx k).phase = .loading ∧ (s.residencyRecs k)[(s.ctx k).resNext]? = some r ∧
      (s.residencyRecs k).length = (s.ctx k).resNext + 1 ∧ s.lockFull k (s.pagesMapped k) = false) ∧
    (∃ (k : Nat) (found : Found) (r : Bytes) (s : State), found.lost = true ∧ (s.ctx k).phase = .loading ∧
      (s.residencyRecs k)[(s.ctx k).resNext]? = some r ∧ s.inFlash k (fieldAt r 8 8) = false ∧ (∀ p ∈ s.ctxs, p.2.waiting = false)) ∧
    (∃ (who : Requester) (k : Nat) (s : State), ctxTaken s who k = true ∧ ((s.ctx k).phase = .resident ∨ (s.ctx k).phase = .stopped) ∧
      s.quiesced k = true) ∧
    (∃ (who : Requester) (k : Nat) (s : State), ctxTaken s who k = true ∧ (s.ctx k).phase = .stopped ∧ (s.ctx k).crustHold = false) :=
  ⟨⟨.host, 5, laid .nonresident, by decide +kernel⟩,
    ⟨.host, 5, resid .nonresident, by decide +kernel⟩,
    ⟨.host, 5, { resid .nonresident with maps := [] }, by decide +kernel⟩,
    ⟨.host, 5, { laid .nonresident with rst := { blk := some ⟨1, 0x42, false, 0⟩ } }, by decide +kernel⟩,
    ⟨.host, 5, laid .resident, by decide +kernel⟩,
    ⟨5, {}, recOf 48 [(0, 1, 5), (4, 2, 7), (8, 8, 0), (16, 8, 4096), (24, 4, 64), (28, 4, 0xFFFFFFFF)],
      okOr (((resid .loading).noteActive 2).countReads 5 0 64 {} |>.transfer 5 0 4096 64) up, resid .loading, ok_of (by decide +kernel),
      by decide +kernel⟩,
    ⟨5, { lost := true }, recOf 48 [(0, 1, 5), (4, 2, 7), (8, 8, 0), (16, 8, 4096), (24, 4, 64), (28, 4, 0xFFFFFFFF)], resid .loading,
      by decide +kernel⟩,
    ⟨.host, 5, laid .stopped, by decide +kernel⟩,
    ⟨.host, 5, laid .stopped, by decide +kernel⟩⟩

/-- The hypotheses of Activations. -/
theorem witness_Activations :
    (∃ (k : Nat) (j : Nat) (at' : Nat) (s : State), (s.ctx k).phase = .resident ∧ (s.ctx k).sched = true ∧ s.dueInstant k = some (j, at') ∧
      (s.ctx k).acts = []) ∧
    (∃ (k : Nat) (j : Nat) (at' : Nat) (s : State), (s.ctx k).phase = .resident ∧ (s.ctx k).sched = true ∧ s.dueInstant k = some (j, at') ∧
      (s.ctx k).acts ≠ []) ∧
    (∃ (k : Nat) (n : Nat) (l : Layout) (a : Activation) (step : Bytes) (s : State), s.layout = some l ∧ (s.ctx k).phase = .resident ∧
      (s.ctx k).acts.find? (fun x => x.index == n) = some a ∧ a.failed = false ∧ (l.schedSteps k)[a.nextStep]? = some step ∧
      s.starterOf (fieldAt step 4 2) = none ∧ l.progOps (fieldAt step 4 2) ≠ [] ∧ fieldAt step 0 4 * 16000000 ≤ s.cyclesRun k a ∧
      s.stepWaitOk k n step = true ∧ s.slotFree k ((l.progRec (fieldAt step 4 2)).elim 0 (fun p => fieldAt p 1 1)) = true) ∧
    (∃ (k : Nat) (n : Nat) (b : Nat) (a : Activation) (rec' : Bytes) (l : Layout) (s : State), s.layout = some l ∧ l.ctxRec k = some rec' ∧
      (s.ctx k).acts.find? (fun x => x.index == n) = some a ∧ s.budgetLimit k a.inv.isNone = some b ∧ a.overran = false ∧
      a.start + b < s.localNow (s.queDie k)) :=
  ⟨⟨5, 1, 1000, (laidAt .resident 1000).setCtx 5 { phase := .resident, sched := true }, by decide +kernel⟩,
    ⟨5, 1, 1000, (laidAt .resident 1000).setCtx 5 { phase := .resident, sched := true, acts := [act0] }, by decide +kernel⟩,
    ⟨5, 0, lay 0 [], act0, recOf 16 [(4, 2, 7), (8, 2, 65535), (10, 2, 65535)],
      (laid .resident).setCtx 5 { phase := .resident, sched := true, acts := [act0] }, by decide +kernel⟩,
    ⟨5, 0, 500, act0, recOf 32 [(0, 1, 5), (1, 1, 2), (2, 1, 31), (4, 4, 500), (8, 1, 1), (12, 2, 4)], lay 1 [],
      { (laidAt .resident 501).setCtx 5 { phase := .resident, sched := true, acts := [act0] } with layout := some (lay 1 []) },
      by decide +kernel⟩⟩

/-- The hypotheses of OperationComplete. -/
theorem witness_OperationComplete :
    (∃ (run : Nat) (r : Run) (l : Layout) (s : State), s.run? run = some r ∧ s.layout = some l ∧ r.executed = true ∧ r.done = none ∧
      codeOk r.opCode = true ∧ r.substitute = none ∧ r.op + 1 < (l.progOps r.prog).length) ∧
    (∃ (run : Nat) (n : Nat) (r : Run) (l : Layout) (i : Invocation) (s : State), s.run? run = some r ∧ s.layout = some l ∧
      r.executed = true ∧ r.done = none ∧ codeOk r.opCode = true ∧ r.substitute = none ∧ (l.progOps r.prog).length = r.op + 1 ∧
      r.origin = .invocation n ∧ s.inv? r.ctx n = some i ∧ i.done = none) :=
  ⟨⟨0, { runOf 0 7 0 (.step 0 0) with executed := true, opCode := 0x0104 }, lay 0 [],
      { laid .resident with runs := [{ runOf 0 7 0 (.step 0 0) with executed := true, opCode := 0x0104 }] }, by decide +kernel⟩,
    ⟨0, 3, { runOf 0 7 0 (.invocation 3) with executed := true, op := 1, codes := [0x0102] }, lay 0 [],
      ⟨5, 3, desc5, 0, true, false, none⟩,
      { laid .resident with runs := [{ runOf 0 7 0 (.invocation 3) with executed := true, op := 1, codes := [0x0102] }], invs := [⟨5, 3, desc5, 0, true, false, none⟩] },
      by decide +kernel⟩⟩

/-- The hypotheses of Bar2. -/
theorem witness_Bar2 :
    (∃ (k : Nat) (x : Nat) (len : Nat) (s : State), k < 64 ∧ s.fld (Fld.HQ_WIN_CTRL_mode k) = 2 ∧ x + len ≤ 0x4000000) ∧
    (∃ (k : Nat) (x : Nat) (len : Nat) (s : State), k < 64 ∧ s.fld (Fld.HQ_WIN_CTRL_mode k) = 2 ∧ x + len ≤ 0x4000000) ∧
    (∃ (k : Nat) (x : Nat) (data : Bytes) (s : State), k < 64 ∧ s.fld (Fld.HQ_WIN_CTRL_mode k) = 2 ∧ x + data.length ≤ 0x4000000) ∧
    (∃ (k : Nat) (x : Nat) (len : Nat) (found : Found) (s : State), k < 64 ∧ s.fld (Fld.HQ_WIN_CTRL_mode k) = 0 ∧ x + len ≤ 0x40000000 ∧
      1 ≤ len) ∧
    (∃ (k : Nat) (x : Nat) (data : Bytes) (s : State), k < 64 ∧ s.fld (Fld.HQ_WIN_CTRL_mode k) = 0 ∧ x + data.length ≤ 0x40000000 ∧
      data ≠ []) :=
  ⟨⟨63, 0x3FFFFF8, 8, up.setFld (Fld.HQ_WIN_CTRL_mode 63) 2, by decide +kernel⟩,
    ⟨63, 0x3FFFFF8, 8, up.setFld (Fld.HQ_WIN_CTRL_mode 63) 2, by decide +kernel⟩,
    ⟨63, 0x3FFFFFE, [1, 2], up.setFld (Fld.HQ_WIN_CTRL_mode 63) 2, by decide +kernel⟩,
    ⟨63, 0x3FFFFFFF, 1, { lost := true }, up.setFld (Fld.HQ_WIN_CTRL_mode 63) 0, by decide +kernel⟩,
    ⟨63, 0x3FFFFFFF, [1], up.setFld (Fld.HQ_WIN_CTRL_mode 63) 0, by decide +kernel⟩⟩

/-- The hypotheses of Bar4. -/
theorem witness_Bar4 :
    (∃ (k : Nat) (v : Nat) (s : State), tailValid s k v = true) ∧
    (∃ (k : Nat) (v : Nat) (s : State), tailValid s k v = false) ∧
    (∃ (k : Nat) (v : Nat) (s : State), s.hostReady = true ∧ s.holds k = true ∧ v < s.queueW k ∧
      countDiff (s.queueW k) v (s.queue k).cqHead ≤ countDiff (s.queueW k) (s.queue k).cqTail (s.queue k).cqHead) ∧
    (∃ (off : Nat) (size : Nat) (value : Nat) (s : State), (off < 0x40000 ∧ size ≠ 4) ∨ (0x40000 ≤ off ∧ off < 0x100000)) ∧
    (∃ (id : Nat) (size : Nat) (value : Nat) (o : Nat) (s : State), s.hostReady = true ∧ (size = 4 ∨ size = 8) ∧ s.slotObj id = some o ∧
      s.sync o < 2 ^ 64) ∧
    (∃ (id : Nat) (o : Nat) (s : State), id < 65535 ∧ s.slotObj id = some o) ∧
    (∃ (off : Nat) (size : Nat) (s : State), (off + size ≤ 0x100000 ∨ (0x17FFF8 ≤ off ∧ off + size ≤ 0xFF0000))) ∧
    (∃ (id : Nat) (off : Nat) (size : Nat) (s : State), id < 65535 ∧ off < 8 ∧ s.slotObj id = none) :=
  ⟨⟨5, 4, laid .resident, by decide +kernel⟩,
    ⟨5, 5, laid .resident, by decide +kernel⟩,
    ⟨5, 1, (laid .resident).setQueue 5 { cqTail := 1 }, by decide +kernel⟩,
    ⟨0x40000, 4, 0, up, by decide +kernel⟩,
    ⟨3, 8, 2, syncKey 1 6, laid .resident, by decide +kernel⟩,
    ⟨3, syncKey 1 6, (laid .resident).setSync (syncKey 1 6) 9, by decide +kernel⟩,
    ⟨0x3FFF8, 8, up, by decide +kernel⟩,
    ⟨4, 0, 8, laid .resident, by decide +kernel⟩⟩

/-- The hypotheses of Notifiers. -/
theorem witness_Notifiers :
    (∃ (who : Requester) (k : Nat) (value : Nat) (o : Nat) (s : State), k < 64 ∧ s.served who 1 0x45 false = true ∧
      s.slotObj (bits value 0 16) = some o) ∧
    (∃ (who : Requester) (k : Nat) (value : Nat) (s : State), k < 64 ∧ s.served who 1 0x45 false = true ∧
      s.slotObj (bits value 0 16) = none) ∧
    (∃ (k : Nat) (s : State), k < 64 ∧ s.flag (Fld.HQ_NTF_CTRL_arm k) = true ∧
      s.reg64 (Reg.HQ_NTF_THRESH k) ≤ s.syncValue (s.fld (Fld.HQ_NTF_CTRL_sync_id k))) ∧
    (∃ (k : Nat) (s : State), (s.flag (Fld.HQ_NTF_CTRL_arm k) = false ∨ s.syncValue (s.fld (Fld.HQ_NTF_CTRL_sync_id k)) < s.reg64 (Reg.HQ_NTF_THRESH k))) :=
  ⟨⟨.host, 63, 0x80050003, syncKey 1 6, laid .resident, by decide +kernel⟩,
    ⟨.host, 63, 0x80050004, laid .resident, by decide +kernel⟩,
    ⟨63, flds (laid .resident) [(Fld.HQ_NTF_CTRL_arm 63, 1), (Fld.HQ_NTF_CTRL_sync_id 63, 3)], by decide +kernel⟩,
    ⟨63, laid .resident, by decide +kernel⟩⟩

/-- The hypotheses of Handshake. -/
theorem witness_Handshake :
    (∃ (who : Requester) (s : State), s.served who 1 0x45 false = true ∧ s.flag Fld.HQ_IF_CTRL_propose = false ∧
      (s.fld Fld.HQ_DEV_STATE_state = 1 ∨ s.fld Fld.HQ_DEV_STATE_state = 2 ∨ s.fld Fld.HQ_DEV_STATE_state = 3)) ∧
    (∃ (p : Word) (s : State), s.proposal = some p ∧ s.fld Fld.HQ_DEV_STATE_state = 1 ∧ s.fld Fld.HQ_DEV_STATE_bkr_restarting = 0 ∧
      bits p.toNat 0 16 ≠ 0 ∧ p.getLsbD 0 = false ∧ commonMajor (s.fld Fld.HQ_IF_FW_majors) (bits p.toNat 0 16) ≠ 0) ∧
    (∃ (p : Word) (s : State), s.proposal = some p ∧ s.fld Fld.HQ_DEV_STATE_state = 1 ∧ s.fld Fld.HQ_DEV_STATE_bkr_restarting = 0 ∧
      bits p.toNat 0 16 ≠ 0 ∧ p.getLsbD 0 = false ∧ commonMajor (s.fld Fld.HQ_IF_FW_majors) (bits p.toNat 0 16) = 0) :=
  ⟨⟨.host, up.setReg Reg.HQ_IF_DRV 2, by decide +kernel⟩,
    ⟨0x00008000 + 2, { flds up [(Fld.HQ_DEV_STATE_state, 1), (Fld.HQ_IF_FW_majors, 2)] with proposal := some 0x8002 }, by decide +kernel⟩,
    ⟨4, { flds up [(Fld.HQ_DEV_STATE_state, 1), (Fld.HQ_IF_FW_majors, 2)] with proposal := some 4 }, by decide +kernel⟩⟩

/-- The hypotheses of Invocations. -/
theorem witness_Invocations :
    (∃ (k : Nat) (s : State), s.holds k = true ∧ (s.queue k).sqHead ≠ (s.queue k).sqTail ∧ (s.queue k).fault = false ∧
      s.flag (Fld.HQ_Q_CTRL_run k) = true) ∧
    (∃ (k : Nat) (n : Nat) (d : Bytes) (rest : List (Nat × Bytes)) (l : Layout) (s : State), s.layout = some l ∧
      (s.queue k).fetched = (n, d) :: rest ∧ s.completionRoom k = true ∧ s.descReject k n d = 0 ∧
      s.mayStart k d ((l.progRec (fieldAt d 2 2)).elim 0 (fun r => fieldAt r 1 1)) = true ∧ l.onceSched k = none ∧
      l.progOps (fieldAt d 2 2) ≠ []) ∧
    (∃ (k : Nat) (n : Nat) (c : Nat) (d : Bytes) (rest : List (Nat × Bytes)) (l : Layout) (s : State), s.layout = some l ∧
      (s.queue k).fetched = (n, d) :: rest ∧ s.completionRoom k = true ∧ s.descReject k n d = c ∧ c ≠ 0) ∧
    (∃ (k : Nat) (n : Nat) (code : Nat) (i : Invocation) (s : State), s.inv? k n = some i ∧ i.done = some code ∧ codeOk code = false ∧
      i.ctx = k ∧ n < 2 ^ 32 ∧ (s.queue k).discard = false ∧ countDiff (s.queueW k) (s.queue k).cqTail (s.queue k).cqHead < s.queueSlots k ∧
      (code = 0x0B32 → s.stoppedInTurn k n = true) ∧ (∀ x ∈ s.kvTouched, ¬(x.ctx = k ∧ x.inv = some n))) :=
  ⟨⟨5, ((laid .resident).setQueue 5 { sqTail := 1 }).setFld (Fld.HQ_Q_CTRL_run 5) 1, by decide +kernel⟩,
    ⟨5, 0, desc5, [], lay 0 [], (laid .resident).setQueue 5 { fetched := [(0, desc5)], sqHead := 1, sqTail := 1 }, by decide +kernel⟩,
    ⟨5, 0, 0x0B30, desc5, [], lay 0 [], (laid .nonresident).setQueue 5 { fetched := [(0, desc5)], sqHead := 1, sqTail := 1 },
      by decide +kernel⟩,
    ⟨5, 3, 0x0B30, ⟨5, 3, desc5, 0, false, false, some 0x0B30⟩,
      { laid .resident with invs := [⟨5, 3, desc5, 0, false, false, some 0x0B30⟩] }, by decide +kernel⟩⟩

/-- The hypotheses of QueueControl. -/
theorem witness_QueueControl :
    (∃ (who : Requester) (k : Nat) (value : Nat) (s : State), k < 64 ∧ s.served who 1 0x45 false = true ∧ s.holds k = true) ∧
    (∃ (who : Requester) (k : Nat) (value : Nat) (s : State), k < 64 ∧ s.served who 1 0x45 false = true ∧ s.holds k = true ∧
      s.flag (Fld.HQ_Q_CTRL_run k) = false ∧ (s.ctx k).phase ≠ .stopped ∧ (s.queue k).fault = false) ∧
    (∃ (who : Requester) (k : Nat) (value : Nat) (s : State), k < 64 ∧ s.served who 1 0x45 false = true ∧ s.holds k = true) ∧
    (∃ (k : Nat) (s : State), k < 64 ∧ s.holds k = true ∧ (s.queue k).sqHead ≠ (s.queue k).sqTail ∧ s.flag (Fld.HQ_Q_CTRL_run k) = true) ∧
    (∃ (k : Nat) (s : State), k < 64 ∧ s.holds k = true) :=
  ⟨⟨.host, 5, 0, laid .resident, by decide +kernel⟩,
    ⟨.host, 5, 1, laid .resident, by decide +kernel⟩,
    ⟨.host, 5, 4,
      { (laid .resident).setQueue 5 { fetched := [(0, desc5)], sqHead := 1, sqTail := 1 } with invs := [⟨5, 3, desc5, 0, true, false, none⟩], runs := [runOf 0 7 0 (.invocation 3)] },
      by decide +kernel⟩,
    ⟨5, ((laid .resident).setQueue 5 { sqTail := 1 }).setFld (Fld.HQ_Q_CTRL_run 5) 1, by decide +kernel⟩,
    ⟨5, laid .resident, by decide +kernel⟩⟩

/-- The hypotheses of RoundingAndSaturation. -/
theorem witness_RoundingAndSaturation :
    (∃ (x : Int) (d : Int), 0 < d ∧ d < 64) ∧
    (∃ (x : Int) (d : Int), 64 ≤ d) ∧
    (∃ (n : Int) (den : Int), 0 < den) ∧
    (∃ (f : Format) (sym : Bool) (v : Int), f ≠ .bin1) :=
  ⟨⟨3, 1, by decide +kernel⟩,
    ⟨3, 64, by decide +kernel⟩,
    ⟨-7, 2, by decide +kernel⟩,
    ⟨.int8, true, -128, by decide +kernel⟩⟩

/-- The hypotheses of GemmExact. -/
theorem witness_GemmExact :
    ∃ (s : State) (o : TileOp) (a : Tensor) (b : Tensor) (i : Nat) (j : Nat), o.h = 0 ∧ o.split ≠ 2 ∧ o.bKn = false ∧ o.granA = a.gran ∧
      o.granB = b.gran ∧ a.gran ≤ 1 ∧ b.gran ≤ 1 ∧ 0 < o.k ∧ (s.tensorScale a i 0).m ≠ 0 ∧ (s.tensorScale b j 0).m ≠ 0 ∧
      (∀ n, n ≤ o.k → (((List.range n).map (fun x => s.tensorElem a i x * s.tensorElem b j x)).sum * ((s.tensorScale a i 0).m * (s.tensorScale b j 0).m : Nat)).natAbs < 2 ^ 47) :=
  ⟨tileMem up 3, tileOpOf (tileD 1), ⟨3, 0, 0x400, .int8, 0, 2, 0⟩, ⟨3, 0x200, 0x600, .int8, 0, 2, 0⟩, 0, 0, by decide +kernel⟩

/-- The hypotheses of TileOperations. -/
theorem witness_TileOperations :
    (∃ (run : Nat) (r : Run) (d : Bytes) (s : State), s.tilesFree r = true ∧ s.startable run 0x01 = some (r, d)) ∧
    (∃ (run : Nat) (r : Run) (d : Bytes) (s : State), s.tilesFree r = true ∧ s.startable run 0x02 = some (r, d)) ∧
    (∃ (run : Nat) (r : Run) (d : Bytes) (s : State), s.tilesFree r = true ∧ s.startable run 0x03 = some (r, d)) ∧
    (∃ (run : Nat) (r : Run) (d : Bytes) (s : State), s.engineFree r = true ∧ s.startable run 0x10 = some (r, d)) ∧
    (∃ (run : Nat) (r : Run) (d : Bytes) (s : State), s.engineFree r = true ∧ s.startable run 0x11 = some (r, d)) ∧
    (∃ (run : Nat) (r : Run) (d : Bytes) (s : State), s.engineFree r = true ∧ s.startable run 0x12 = some (r, d)) ∧
    (∃ (run : Nat) (r : Run) (d : Bytes) (s : State), s.engineFree r = true ∧ s.startable run 0x20 = some (r, d)) ∧
    (∃ (run : Nat) (ecc : Ecc) (r : Run) (d : Bytes) (s : State), (∀ tile line, ecc ≠ .corrected tile line) ∧ s.tilesFree r = true ∧
      s.startable run 0x01 = some (r, d) ∧ ecc ≠ .clean) ∧
    (∃ (run : Nat) (ecc : Ecc) (r : Run) (d : Bytes) (s : State), s.tilesFree r = false ∧ s.startable run 0x01 = some (r, d)) ∧
    (∃ (run : Nat) (ecc : Ecc) (r : Run) (d : Bytes) (s : State), s.engineFree r = false ∧ s.startable run 0x20 = some (r, d)) :=
  ⟨⟨0, runOf 0 7 3 (.invocation 3), tileD 1, tileMem (opState 3 (tileD 1) []) 3, by decide +kernel⟩,
    ⟨0, runOf 0 7 3 (.invocation 3), tileD 2, tileMem (opState 3 (tileD 2) []) 3, by decide +kernel⟩,
    ⟨0, runOf 0 7 3 (.invocation 3), tileD 3, tileMem (opState 3 (tileD 3) []) 3, by decide +kernel⟩,
    ⟨0, runOf 0 7 3 (.invocation 3), tileD 0x10, tileMem (opState 3 (tileD 0x10) []) 3, by decide +kernel⟩,
    ⟨0, runOf 0 7 3 (.invocation 3), tileD 0x11, tileMem (opState 3 (tileD 0x11) []) 3, by decide +kernel⟩,
    ⟨0, runOf 0 7 3 (.invocation 3), tileD 0x12, tileMem (opState 3 (tileD 0x12) []) 3, by decide +kernel⟩,
    ⟨0, runOf 0 7 3 (.invocation 3), tileD 0x20, tileMem (opState 3 (tileD 0x20) []) 3, by decide +kernel⟩,
    ⟨0, .uncorrectable 3 5, runOf 0 7 3 (.invocation 3), tileD 1, tileMem (opState 3 (tileD 1) []) 3, (fun _ _ h => by cases h),
      by decide +kernel⟩,
    ⟨0, .clean, runOf 0 7 3 (.invocation 3), tileD 1,
      { tileMem (opState 3 (tileD 1) []) 3 with runs := [{ runOf 1 7 3 (.invocation 4) with executed := true }, runOf 0 7 3 (.invocation 3)] },
      by decide +kernel⟩,
    ⟨0, .clean, runOf 0 7 3 (.invocation 3), tileD 0x20,
      { tileMem (opState 3 (tileD 0x20) []) 3 with runs := [{ runOf 1 7 3 (.invocation 4) with executed := true }, runOf 0 7 3 (.invocation 3)] },
      by decide +kernel⟩⟩

/-- The hypotheses of TileOutputs. -/
theorem witness_TileOutputs :
    (∃ (s : State) (die : Nat) (args : Bytes) (o : TileOp) (x : OpResult) (p : Nat), x ∈ [s.gemmResult die args o, s.convResult die o, s.ewResult die args o, s.stemArgmaxResult die o, s.argmaxResult die o] ∧
      (∀ y ∈ x.outs, p < y.1 ∨ y.1 + y.2 ≤ p)) ∧
    (∃ (s : State) (die : Nat) (args : Bytes) (o : TileOp) (fa : Format) (fb : Format) (fo : Format), formatOf o.fmtA = some fa ∧
      formatOf o.fmtB = some fb ∧ formatOf o.fmtOut = some fo ∧ o.rows args = 0) ∧
    (∃ (s : State) (die : Nat) (args : Bytes) (o : TileOp) (fa : Format) (fb : Format) (fo : Format), formatOf o.fmtA = some fa ∧
      formatOf o.fmtB = some fb ∧ formatOf o.fmtOut = some fo ∧ o.m < o.rows args) ∧
    (∃ (s : State) (die : Nat) (i : Nat) (args : Bytes) (o : TileOp) (fa : Format) (fb : Format) (fo : Format), formatOf o.fmtA = some fa ∧
      formatOf o.fmtB = some fb ∧ formatOf o.fmtOut = some fo ∧ o.rows args ≤ o.m ∧ 0 < o.rows args ∧ o.dyn = false ∧ o.func ≠ 9 ∧
      i < (if o.rqPerCh then o.n else 1) ∧ ((s.rqEntry die o.rqAddr i).2 < -512 ∨ 511 < (s.rqEntry die o.rqAddr i).2)) :=
  ⟨⟨tileMem up 3, 3, [], tileOpOf (tileD 1), (tileMem up 3).gemmResult 3 [] (tileOpOf (tileD 1)), 0, by decide +kernel⟩,
    ⟨up, 3, [], tileOpOf (patch (tileD 1) 11 [0]), .int8, .int8, .int8, by decide +kernel⟩,
    ⟨up, 3, leBytes 4 2, tileOpOf (patch (tileD 1) 11 [0]), .int8, .int8, .int8, by decide +kernel⟩,
    ⟨up.writeDie 3 0x800 [0, 0, 0, 2], 3, 0, [], tileOpOf (tileD 1), .int8, .int8, .int8, by decide +kernel⟩⟩

/-- The hypotheses of AppendsAndAttention. -/
theorem witness_AppendsAndAttention :
    (∃ (e : KvEntry) (layer : Nat) (tent : Bool) (w : KvWork), e.ok = true ∧ layer < e.layers ∧ (layer ≠ 0 → e.groupOpen = true)) ∧
    (∃ (run : Nat) (r : Run) (d : Bytes) (s : State), s.startable run 0x50 = some (r, d)) ∧
    (∃ (run : Nat) (r : Run) (d : Bytes) (s : State), s.startable run 0x50 = some (r, d)) ∧
    (∃ (s : State) (ctx : Nat) (layer : Nat) (inv : Option Nat) (tent : Bool) (src : Tensor) (w : KvWork), s.appendRefusal ctx layer tent w = 0) ∧
    (∃ (run : Nat) (r : Run) (d : Bytes) (s : State), s.startable run 0x51 = some (r, d) ∧ s.tilesFree r = true) ∧
    (∃ (s : State) (r : Run) (d : Bytes) (fq : Format) (fo : Format) (w : KvWork), formatOf (bits (fieldAt d 0xA 1) 0 4) = some fq ∧
      formatOf (bits (fieldAt d 0xA 1) 4 4) = some fo ∧
      (∀ a ∈ [fieldAt d 0x1C 4, fieldAt d 0x20 4], -512 ≤ (s.rqEntry r.die a 0).2 ∧ (s.rqEntry r.die a 0).2 ≤ 511) ∧
      s.kvList r.die (bits (fieldAt d 1 1) 0 2) (fieldAt d 4 4) (fieldAt d 8 2) = [w] ∧ (4095 < w.seq ∨ (s.kvEntry w.seq).valid = false)) :=
  ⟨⟨{ layers := 1 }, 0, true, ⟨0, 3, 0, 0, 0⟩, by decide +kernel⟩,
    ⟨0, runOf 0 7 2 (.invocation 3), recOf 64 [(0, 1, 0x50)], opState 2 (recOf 64 [(0, 1, 0x50)]) [], by decide +kernel⟩,
    ⟨0, runOf 0 7 2 (.invocation 3), recOf 64 [(0, 1, 0x50)], opState 2 (recOf 64 [(0, 1, 0x50)]) [], by decide +kernel⟩,
    ⟨kvLive.setFld Fld.KV_POOL_PAGES_pages 4, 0, 0, none, false, ⟨3, 0, 0x400, .int8, 0, 64, 0⟩, ⟨4095, 1, 10, 1, 0⟩, by decide +kernel⟩,
    ⟨0, runOf 0 7 2 (.invocation 3), recOf 64 [(0, 1, 0x51)], opState 2 (recOf 64 [(0, 1, 0x51)]) [], by decide +kernel⟩,
    ⟨up, runOf 0 7 2 (.invocation 3), recOf 64 [(0, 1, 0x51), (8, 2, 1), (10, 1, 0x66)], .int8, .int8, ⟨0, 0, 0, 0, 0⟩, by decide +kernel⟩⟩

/-- The hypotheses of RefusedAppend. -/
theorem witness_RefusedAppend :
    (∃ (s : State) (ctx : Nat) (layer : Nat) (inv : Option Nat) (tent : Bool) (src : Tensor) (w : KvWork), s.appendRefusal ctx layer tent w ≠ 0) ∧
    (∃ (run : Nat) (r : Run) (d : Bytes) (f : Format) (w : KvWork) (s : State), s.startable run 0x50 = some (r, d) ∧
      formatOf (bits (fieldAt d 3 1) 0 4) = some f ∧ s.kvList r.die (bits (fieldAt d 1 1) 0 2) (fieldAt d 4 4) (fieldAt d 8 2) = [w] ∧
      s.kvBatchOk r.ctx r.die (fieldAt d 0xC 4) (fun x => runBytes f (2 * (kvGeom (s.kvEntry x.seq)).heads * (kvGeom (s.kvEntry x.seq)).dim)) [w] = true ∧
      s.kvListOk r.die (bits (fieldAt d 1 1) 0 2) (fieldAt d 4 4) (fieldAt d 8 2) false [w] = true ∧
      s.appendRefusal r.ctx (fieldAt d 2 1) (bit (fieldAt d 1 1) 2) w ≠ 0) :=
  ⟨⟨up, 0, 0, none, false, ⟨3, 0, 0x400, .int8, 0, 64, 0⟩, ⟨4095, 1, 0, 1, 0⟩, by decide +kernel⟩,
    ⟨0, runOf 0 7 2 (.invocation 3), recOf 64 [(0, 1, 0x50), (3, 1, 6), (8, 2, 1)], .int8, ⟨0, 0, 0, 1, 0⟩,
      (opState 2 (recOf 64 [(0, 1, 0x50), (3, 1, 6), (8, 2, 1)]) []).writeDie 2 8 [1], by decide +kernel⟩⟩

/-- The hypotheses of Handoff. -/
theorem witness_Handoff :
    (∃ (run : Nat) (r : Run) (d : Bytes) (s : State), s.startable run 0x40 = some (r, d) ∧ r.putReady = false ∧
      s.putCheck r.ctx (putArgs r d) ≠ 0) ∧
    (∃ (run : Nat) (r : Run) (d : Bytes) (s : State), s.startable run 0x40 = some (r, d) ∧ r.putReady = false ∧
      s.putCheck r.ctx (putArgs r d) = 0) ∧
    (∃ (run : Nat) (k : Nat) (r : Run) (d : Bytes) (l : Layout) (m : State) (s : State), (s.moveRight (fieldAt d 1 1) (putSeqs (putArgs r d))).writeVa (.engine r.die) .engineWrite r.ctx (fieldAt d 8 8 + s.sync k % fieldAt d 2 2 * 64) (handoffRecord r.ctx (fieldAt d 1 1) (putArgs r d) (s.kvEntry (fieldAt (putArgs r d) 0 2)).committed (fieldAt d 0x18 8) (fieldAt d 0x14 4) (s.sync k)) = .ok m ∧
      s.startable run 0x40 = some (r, d) ∧ s.layout = some l ∧ r.putReady = true ∧ l.syncObj (fieldAt d 0x10 2) = some k ∧
      s.sync k + 1 < 2 ^ 64 ∧ s.sync k - s.syncValue (fieldAt d 0x12 2) < fieldAt d 2 2) ∧
    (∃ (run : Nat) (i : Nat) (k : Nat) (r : Run) (d : Bytes) (b : Bytes) (l : Layout) (s : State), s.readVa (.engine r.die) r.ctx (fieldAt d 8 8 + s.sync k % fieldAt d 2 2 * 64) 64 = .ok b ∧
      s.startable run 0x41 = some (r, d) ∧ s.layout = some l ∧ fieldAt d 5 1 = 1 ∧ l.syncObj (fieldAt d 0x12 2) = some k ∧
      s.sync k < s.syncValue (fieldAt d 0x10 2) ∧ s.sync k + 1 < 2 ^ 64 ∧
      s.freeBatchEntry r.die (fieldAt d 0x20 4) (fieldAt d 0x24 2) = some i ∧ s.takeCheck r.ctx b = 0) ∧
    (∃ (run : Nat) (i : Nat) (k : Nat) (r : Run) (d : Bytes) (b : Bytes) (l : Layout) (s : State), s.readVa (.engine r.die) r.ctx (fieldAt d 8 8 + s.sync k % fieldAt d 2 2 * 64) 64 = .ok b ∧
      s.startable run 0x41 = some (r, d) ∧ s.layout = some l ∧ fieldAt d 5 1 = 1 ∧ l.syncObj (fieldAt d 0x12 2) = some k ∧
      s.sync k < s.syncValue (fieldAt d 0x10 2) ∧ s.sync k + 1 < 2 ^ 64 ∧
      s.freeBatchEntry r.die (fieldAt d 0x20 4) (fieldAt d 0x24 2) = some i ∧ s.takeCheck r.ctx b ≠ 0) ∧
    (∃ (run : Nat) (r : Run) (d : Bytes) (s : State), s.startable run 0x41 = some (r, d) ∧
      s.syncValue (fieldAt d 0x10 2) ≤ s.syncValue (fieldAt d 0x12 2)) ∧
    (∃ (run : Nat) (r : Run) (d : Bytes) (s : State), s.startable run 0x40 = some (r, d) ∧ r.putReady = false) ∧
    (∃ (run : Nat) (r : Run) (d : Bytes) (s : State), s.startable run 0x41 = some (r, d)) :=
  ⟨⟨0, run9 false, putD, (seqHome (opState 2 putD [syncSec]) (run9 false)).setKv 9 {}, by decide +kernel⟩,
    ⟨0, run9 false, putD, seqHome (opState 2 putD [syncSec]) (run9 false), by decide +kernel⟩,
    ⟨0, syncKey 1 6, run9 true, putD, opLay 2 putD [syncSec],
      okOr (((seqHome (opState 2 putD [syncSec]) (run9 true)).moveRight 6 (putSeqs group9)).writeVa (.engine 2) .engineWrite 5 0 (handoffRecord 5 6 group9 10 0 0 0)) up,
      seqHome (opState 2 putD [syncSec]) (run9 true), ok_of (by decide +kernel), by decide +kernel⟩,
    ⟨0, 0, syncKey 1 7, run9 false, takeD, rec9 10, opLay 2 takeD [syncSec], takeAt 10, ok_of (by decide +kernel), by decide +kernel⟩,
    ⟨0, 0, syncKey 1 7, run9 false, takeD, rec9 11, opLay 2 takeD [syncSec], takeAt 11, ok_of (by decide +kernel), by decide +kernel⟩,
    ⟨0, run9 false, takeD, seqHome (opState 2 takeD [syncSec]) (run9 false), by decide +kernel⟩,
    ⟨0, run9 false, putD, seqHome (opState 2 putD [syncSec]) (run9 false), by decide +kernel⟩,
    ⟨0, run9 false, takeD, takeAt 10, by decide +kernel⟩⟩

/-- The hypotheses of Speculation. -/
theorem witness_Speculation :
    (∃ (run : Nat) (n : Nat) (m : Nat) (r : Run) (d : Bytes) (s : State), s.startable run 0x42 = some (r, d) ∧
      m = min n (fieldAt d 0x24 2 - r.progress)) ∧
    (∃ (run : Nat) (n : Nat) (r : Run) (d : Bytes) (s : State), s.startable run 0x42 = some (r, d)) ∧
    (∃ (r : Run) (d : Bytes) (b : Bytes) (i : Nat) (a : Nat) (s : State), b = s.readDie r.die (fieldAt d 0x20 4 + 16 * i) 16 ∧
      bit (fieldAt b 0xE 1) 0 = true ∧ bit (fieldAt b 0xE 1) 3 = false ∧ fieldAt b 4 2 = 0xFFFF ∧
      s.seqCurrent (fieldAt b 0 2) (fieldAt b 2 2) = true ∧
      (s.kvEntry (fieldAt b 0 2)).tentative = (s.kvEntry (fieldAt b 0 2)).committed + fieldAt b 0xC 1 + 1 ∧
      a = acceptedPrefix (s.tokens r.die (fieldAt d 0x28 4 + 32 * i) (fieldAt b 0xC 1)) (s.tokens r.die (fieldAt d 0x2C 4 + 64 * i) (fieldAt b 0xC 1 + 1))) ∧
    (∃ (r : Run) (d : Bytes) (b : Bytes) (i : Nat) (s : State), b = s.readDie r.die (fieldAt d 0x20 4 + 16 * i) 16 ∧
      (bit (fieldAt b 0xE 1) 0 = false ∨ bit (fieldAt b 0xE 1) 3 = true)) ∧
    (∃ (r : Run) (d : Bytes) (b : Bytes) (i : Nat) (s : State), b = s.readDie r.die (fieldAt d 0x20 4 + 16 * i) 16 ∧
      bit (fieldAt b 0xE 1) 0 = true ∧ bit (fieldAt b 0xE 1) 3 = false ∧ s.seqCurrent (fieldAt b 0 2) (fieldAt b 2 2) = false) :=
  ⟨⟨0, 1, 1, runOf 0 7 2 (.invocation 3), specD, specAt 1 12, by decide +kernel⟩,
    ⟨0, 0, runOf 0 7 2 (.invocation 3), specD, specAt 1 12, by decide +kernel⟩,
    ⟨runOf 0 7 2 (.invocation 3), specD, recOf 16 [(0, 2, 9), (2, 2, 1), (4, 2, 0xFFFF), (0xC, 1, 1), (0xE, 1, 1)], 0, 1, specAt 1 12,
      by decide +kernel⟩,
    ⟨runOf 0 7 2 (.invocation 3), specD, recOf 16 [(0, 2, 9), (2, 2, 1), (4, 2, 0xFFFF), (0xC, 1, 1), (0xE, 1, 8)], 0, specAt 8 12,
      by decide +kernel⟩,
    ⟨runOf 0 7 2 (.invocation 3), specD, recOf 16 [(0, 2, 9), (2, 2, 1), (4, 2, 0xFFFF), (0xC, 1, 1), (0xE, 1, 1)], 0,
      (specAt 1 12).setKv 9 {}, by decide +kernel⟩⟩

/-- The hypotheses of Sequences. -/
theorem witness_Sequences :
    (∃ (run : Nat) (n : Nat) (r : Run) (d : Bytes) (s : State), s.startable run 0x30 = some (r, d) ∧ s.layout.isSome = true ∧
      chunkSteps r d = 0) ∧
    (∃ (run : Nat) (n : Nat) (r : Run) (d : Bytes) (s : State), s.startable run 0x30 = some (r, d) ∧ s.layout.isSome = true ∧
      fieldAt d 0x10 4 < chunkSteps r d) ∧
    (∃ (run : Nat) (n : Nat) (key : Nat) (r : Run) (d : Bytes) (l : Layout) (s : State), s.startable run 0x30 = some (r, d) ∧
      s.layout = some l ∧ 0 < chunkSteps r d ∧ chunkSteps r d ≤ fieldAt d 0x10 4 ∧ s.chunkKey r d = some key ∧ r.progress = 0 ∧
      s.engineBusy l r (key / 64 % 4) = false ∧ s.tilesFree r = true ∧
      ((s.seqSlot key).expected r d = false ∨ ((s.seqSlot key).closing = true ∧ r.putReady = false) ∨ ((s.seqSlot key).phase ≠ .live ∧ (s.seqSlot key).phase ≠ .restoring))) ∧
    (∃ (run : Nat) (n : Nat) (m : Nat) (key : Nat) (r : Run) (d : Bytes) (l : Layout) (fw : Format) (fh : Format) (fx : Format) (s : State), s.startable run 0x30 = some (r, d) ∧
      s.layout = some l ∧ 0 < chunkSteps r d ∧ chunkSteps r d ≤ fieldAt d 0x10 4 ∧ s.chunkKey r d = some key ∧ r.progress < chunkSteps r d ∧
      (0 < r.progress ∨ (chunkStarts s l r d key = true ∧ slotForm (s.seqSlot key) d = true)) ∧
      formatOf (bits (fieldAt d 4 1) 0 4) = some fw ∧ formatOf (bits (fieldAt d 4 1) 4 4) = some fh ∧
      formatOf (bits (fieldAt d 5 1) 0 4) = some fx ∧ m = min n (chunkSteps r d - r.progress)) ∧
    (∃ (run : Nat) (n : Nat) (key : Nat) (r : Run) (d : Bytes) (l : Layout) (s : State), s.startable run 0x30 = some (r, d) ∧
      s.layout = some l ∧ 0 < chunkSteps r d ∧ chunkSteps r d ≤ fieldAt d 0x10 4 ∧ s.chunkKey r d = some key ∧ r.progress = 0 ∧
      chunkStarts s l r d key = true ∧ slotForm (s.seqSlot key) d = false) ∧
    (∃ (run : Nat) (n : Nat) (key : Nat) (r : Run) (d : Bytes) (l : Layout) (s : State), s.startable run 0x30 = some (r, d) ∧
      s.layout = some l ∧ 0 < chunkSteps r d ∧ chunkSteps r d ≤ fieldAt d 0x10 4 ∧ s.chunkKey r d = some key ∧ r.progress = 0 ∧
      s.engineBusy l r (key / 64 % 4) = false ∧ s.tilesFree r = true ∧ (s.seqSlot key).expected r d = true ∧
      (s.seqSlot key).phase = .restoring ∧ (s.seqSlot key).closing = false) ∧
    (∃ (run : Nat) (n : Nat) (key : Nat) (r : Run) (d : Bytes) (s : State), s.startable run 0x30 = some (r, d) ∧ s.layout.isSome = true ∧
      0 < chunkSteps r d ∧ chunkSteps r d ≤ fieldAt d 0x10 4 ∧ s.chunkKey r d = some key ∧ 0 < r.progress) ∧
    (∃ (who : Requester) (die : Nat) (v : Nat) (k : Nat) (s : State), seqReady s who die v = true ∧ s.engineOwner (seqKey die v) = some k ∧
      (s.seqSlot (seqKey die v)).phase = .empty ∧ s.inSram k die (s.reg (Reg.SEQ_CMD_SRAM die)).toNat 64 = true ∧
      seqHeaderOk (s.readDie die (s.reg (Reg.SEQ_CMD_SRAM die)).toNat 64) = true ∧
      s.inSram k die (s.reg (Reg.SEQ_CMD_SRAM die)).toNat (fieldAt (s.readDie die (s.reg (Reg.SEQ_CMD_SRAM die)).toNat 64) 0xC 4) = true) ∧
    (∃ (who : Requester) (die : Nat) (v : Nat) (s : State), seqReady s who die v = true) ∧
    (∃ (who : Requester) (die : Nat) (v : Nat) (s : State), seqReady s who die v = true ∧ (s.seqSlot (seqKey die v)).phase = .live ∧
      s.walkFault (s.seqSlot (seqKey die v)).owner (s.reg64 (Reg.SEQ_CMD_VA die)) (seqImage (s.seqSlot (seqKey die v)).kind (s.seqSlot (seqKey die v)).rows (s.seqSlot (seqKey die v)).width).len .transferWrite = none) ∧
    (∃ (who : Requester) (die : Nat) (v : Nat) (k : Nat) (h : Bytes) (s : State), s.readVa .tierManager k (s.reg64 (Reg.SEQ_CMD_VA die)) 64 = .ok h ∧
      seqReady s who die v = true ∧ s.engineOwner (seqKey die v) = some k ∧ (s.seqSlot (seqKey die v)).phase = .empty ∧
      s.inSram k die (s.reg (Reg.SEQ_CMD_SRAM die)).toNat 64 = true) ∧
    (∃ (who : Requester) (die : Nat) (v : Nat) (s : State), seqReady s who die v = true ∧
      (s.engineOwner (seqKey die v) = none ∨ (s.seqSlot (seqKey die v)).phase ≠ .empty)) ∧
    (∃ (die : Nat) (c : SeqCmd) (s : State), s.seqCmd die = some c ∧ c.moving = false ∧ s.chunkRuns c.key = false ∧ c.op = 4) ∧
    (∃ (die : Nat) (c : SeqCmd) (s : State), s.seqCmd die = some c ∧ c.moving = false ∧ s.chunkRuns c.key = false ∧ c.op ≠ 4) ∧
    (∃ (die : Nat) (found : Found) (c : SeqCmd) (m : State) (s : State), found.lost = false ∧ s.seqCmd die = some c ∧ c.moving = true ∧
      c.op = 2 ∧ (s.seqSlot c.key).tag < 65536 ∧
      { s.noteActive 2 with tierPending := none }.writeVa .tierManager .transferWrite (s.seqSlot c.key).owner c.va (sealImage (s.readDie die (s.seqSlot c.key).base (seqImage (s.seqSlot c.key).kind (s.seqSlot c.key).rows (s.seqSlot c.key).width).len)) = .ok m) ∧
    (∃ (die : Nat) (found : Found) (c : SeqCmd) (s : State), found.lost = true ∧ s.seqCmd die = some c ∧ c.moving = true ∧ c.op = 2) ∧
    (∃ (die : Nat) (found : Found) (c : SeqCmd) (m : State) (s : State), (restoreReads s c found).restoreResult die c = .ok m ∧
      found.lost = false ∧ s.seqCmd die = some c ∧ c.moving = true ∧ c.op = 3 ∧
      (s.chunksOn c.key).all (fun r => !r.putReady || r.executed) = true) ∧
    (∃ (die : Nat) (found : Found) (c : SeqCmd) (s : State), found.lost = true ∧ s.seqCmd die = some c ∧ c.moving = true ∧ c.op = 3 ∧
      s.inFlash (s.seqSlot c.key).owner c.va = false) ∧
    (∃ (die : Nat) (code : Nat) (found : Found) (c : SeqCmd) (e : Option (Nat × Nat)) (s : State), found.lost = false ∧
      s.seqCmd die = some c ∧ c.moving = true ∧ c.op = 3 ∧ (restoreReads s c found).restoreResult die c = .error (code, e)) :=
  ⟨⟨0, 1, runOf 0 7 2 (.invocation 3), chunkD 255 0, opState 2 (chunkD 255 0) [], by decide +kernel⟩,
    ⟨0, 1, { runOf 0 7 2 (.invocation 3) with args := leBytes 4 2 }, chunkD 0 1,
      { opState 2 (chunkD 0 1) [] with runs := [{ runOf 0 7 2 (.invocation 3) with args := leBytes 4 2 }] }, by decide +kernel⟩,
    ⟨0, 1, 512, runOf 0 7 2 (.invocation 3), chunkD 255 1, opLay 2 (chunkD 255 1) [], opState 2 (chunkD 255 1) [], by decide +kernel⟩,
    ⟨0, 5, 1, 512, runOf 0 7 2 (.invocation 3), chunkD 255 1, opLay 2 (chunkD 255 1) [], .int8, .int8, .int8,
      (opState 2 (chunkD 255 1) []).setSlot 512 { phase := .live, owner := 5, rows := 1, width := 16 }, by decide +kernel⟩,
    ⟨0, 1, 512, runOf 0 7 2 (.invocation 3), chunkD 255 1, opLay 2 (chunkD 255 1) [],
      (opState 2 (chunkD 255 1) []).setSlot 512 { phase := .live, owner := 5, rows := 2, width := 16 }, by decide +kernel⟩,
    ⟨0, 1, 512, runOf 0 7 2 (.invocation 3), chunkD 255 1, opLay 2 (chunkD 255 1) [],
      (opState 2 (chunkD 255 1) []).setSlot 512 { phase := .restoring, owner := 5, rows := 1, width := 16 }, by decide +kernel⟩,
    ⟨0, 1, 512, { runOf 0 7 2 (.invocation 3) with progress := 1 }, chunkD 255 3,
      { opState 2 (chunkD 255 3) [] with runs := [{ runOf 0 7 2 (.invocation 3) with progress := 1 }] }.setSlot 512 { phase := .live, owner := 5, rows := 1, width := 16 },
      by decide +kernel⟩,
    ⟨.host, 2, 0x300, 5, (slotAt {}).writeDie 2 0 slotHead, by decide +kernel⟩,
    ⟨.host, 2, 0x300, slotAt { phase := .live, owner := 5, rows := 1, width := 16 }, by decide +kernel⟩,
    ⟨.host, 2, 0x300, slotAt { phase := .live, owner := 5, rows := 1, width := 16 }, by decide +kernel⟩,
    ⟨.host, 2, 0x300, 5, slotHead, (slotAt {}).writePhys 0 slotHead, ok_of (by decide +kernel), by decide +kernel⟩,
    ⟨.host, 2, 0x300, slotAt { phase := .live, owner := 5, rows := 1, width := 16 }, by decide +kernel⟩,
    ⟨2, ⟨4, 515, 0, false⟩,
      (slotAt { phase := .live, owner := 5, rows := 1, width := 16, closing := true }).setSeqCmd 2 (some ⟨4, 515, 0, false⟩),
      by decide +kernel⟩,
    ⟨2, ⟨2, 515, 0, false⟩,
      (slotAt { phase := .live, owner := 5, rows := 1, width := 16, closing := true }).setSeqCmd 2 (some ⟨2, 515, 0, false⟩),
      by decide +kernel⟩,
    ⟨2, {}, ⟨2, 515, 0, true⟩,
      okOr ({ (swapAt 2).noteActive 2 with tierPending := none }.writeVa .tierManager .transferWrite 5 0 (sealImage ((swapAt 2).readDie 2 0 (seqImage 0 1 16).len))) up,
      swapAt 2, by decide +kernel⟩,
    ⟨2, { lost := true }, ⟨2, 515, 0, true⟩, swapAt 2, by decide +kernel⟩,
    ⟨2, {}, ⟨3, 515, 0, true⟩, okOr ((restoreReads restAt ⟨3, 515, 0, true⟩ {}).restoreResult 2 ⟨3, 515, 0, true⟩) up, restAt,
      ok_of (by decide +kernel), by decide +kernel⟩,
    ⟨2, { lost := true }, ⟨3, 515, 0, true⟩, restAt, by decide +kernel⟩,
    ⟨2, 0x0482, {}, ⟨3, 515, 0, true⟩, none,
      (slotAt { phase := .restoring, owner := 5, tag := 4, rows := 1, width := 16 }).setSeqCmd 2 (some ⟨3, 515, 0, true⟩),
      by decide +kernel⟩⟩

/-- The hypotheses of TierCommands. -/
theorem witness_TierCommands :
    (∃ (who : Requester) (v : Nat) (tier : Nat) (es : List (Nat × Nat)) (m : Mapping) (s : State), s.placeAlloc m.ctx m.len (s.fld Fld.TIER_CMD_AUX_value) (bits v 10 3) m.page m.flags = .ok (tier, es) ∧
      tierReady s who = true ∧ m.ctx = bits v 4 6 ∧ m.page = bits v 13 2 ∧ m.flags = bits v 15 6 ∧ m.va = s.reg64 Reg.TIER_CMD_VA ∧
      m.len = s.reg64 Reg.TIER_CMD_LEN ∧ m.tier = tier ∧ m.extents = es ∧ m.alloc = s.nextAlloc ∧ s.holds m.ctx = true ∧ m.page ≠ 3 ∧
      bits v 10 3 ≤ 4 ∧ m.len ≠ 0 ∧ m.va + m.len ≤ 2 ^ 48 ∧ m.va % pageBytes m.page = 0 ∧ m.len % pageBytes m.page = 0 ∧
      s.rangeFree m.ctx m.va m.len = true ∧ allocFlagsBad m.flags m.page = false ∧ tier ≠ 2 ∧
      s.tablesFit (s.maps ++ [m]) s.seqLinks = true ∧ (s.locks m.ctx && s.lockFull m.ctx (m.len / pageBytes m.page)) = false) ∧
    (∃ (who : Requester) (v : Nat) (tier : Nat) (es : List (Nat × Nat)) (m : Mapping) (s : State), s.placeAlloc m.ctx m.len (s.fld Fld.TIER_CMD_AUX_value) (bits v 10 3) m.page m.flags = .ok (tier, es) ∧
      tierReady s who = true ∧ m.ctx = bits v 4 6 ∧ m.page = bits v 13 2 ∧ m.flags = bits v 15 6 ∧ m.va = s.reg64 Reg.TIER_CMD_VA ∧
      m.len = s.reg64 Reg.TIER_CMD_LEN ∧ m.tier = tier ∧ m.extents = es ∧ m.alloc = s.nextAlloc ∧ s.holds m.ctx = true ∧ m.page ≠ 3 ∧
      bits v 10 3 ≤ 4 ∧ m.len ≠ 0 ∧ m.va + m.len ≤ 2 ^ 48 ∧ m.va % pageBytes m.page = 0 ∧ m.len % pageBytes m.page = 0 ∧
      s.rangeFree m.ctx m.va m.len = true ∧ allocFlagsBad m.flags m.page = false ∧ s.tablesFit (s.maps ++ [m]) s.seqLinks = true ∧
      (s.locks m.ctx && s.lockFull m.ctx (m.len / pageBytes m.page)) = true) ∧
    (∃ (who : Requester) (v : Nat) (s : State), tierReady s who = true ∧ s.reg64 Reg.TIER_CMD_LEN = 0) ∧
    (∃ (who : Requester) (v : Nat) (s : State), s.served who 1 0x42 false = true ∧ s.flag Fld.TIER_CMD_STATUS_busy = true) ∧
    (∃ (who : Requester) (v : Nat) (s : State), tierReady s who = true ∧ s.holds (bits v 4 6) = true ∧
      (s.wholeAllocs (bits v 4 6) (s.reg64 Reg.TIER_CMD_VA) (s.reg64 Reg.TIER_CMD_LEN)).isSome = true) ∧
    (∃ (who : Requester) (v : Nat) (k2 : Nat) (va : Nat) (va2 : Nat) (len : Nat) (ms : List Mapping) (s : State), tierReady s who = true ∧
      s.holds (bits v 4 6) = true ∧ k2 = bits (s.fld Fld.TIER_CMD_AUX_value) 0 6 ∧ va = s.reg64 Reg.TIER_CMD_VA ∧
      va2 = s.reg64 Reg.TIER_CMD_VA2 ∧ len = s.reg64 Reg.TIER_CMD_LEN ∧ s.holds k2 = true ∧ s.wholeAllocs (bits v 4 6) va len = some ms ∧
      va2 + len ≤ 2 ^ 48 ∧ (∀ m ∈ ms, (va2 + (m.va - va)) % pageBytes m.page = 0) ∧ s.rangeFree k2 va2 len = true ∧
      s.tablesFit (s.maps ++ ms.map (fun m => { m with ctx := k2, va := va2 + (m.va - va) })) s.seqLinks = true ∧
      (s.locks k2 && s.lockFull k2 ((ms.map (fun m => m.len / pageBytes m.page)).sum)) = false) ∧
    (∃ (who : Requester) (v : Nat) (q : Nat) (s : State), tierReady s who = true ∧ s.holds (bits v 4 6) = true ∧
      q = bits (s.fld Fld.TIER_CMD_AUX_value) 0 12 ∧ (s.kvEntry q).valid = true ∧
      s.rangeFree (bits v 4 6) ((s.kvEntry q).base * 0x100000000) 0x100000000 = true ∧
      s.tablesFit s.maps (s.seqLinks ++ [(bits v 4 6, q)]) = true) ∧
    (∃ (who : Requester) (v : Nat) (q : Nat) (s : State), tierReady s who = true ∧ s.holds (bits v 4 6) = true ∧
      q = bits (s.fld Fld.TIER_CMD_AUX_value) 0 12 ∧ (bits v 4 6, q) ∈ s.seqLinks ∧ (s.kvEntry q).owner ≠ bits v 4 6) ∧
    (∃ (who : Requester) (v : Nat) (s : State), tierReady s who = true) ∧
    (∃ (p : TierPending) (s : State), s.tierPending = some p ∧ p.op = 2 ∧ s.transferRanges = []) ∧
    (∃ (p : TierPending) (s : State), s.tierPending = some p ∧ p.op = 5 ∧ s.transferRanges = []) :=
  ⟨⟨.host, 0x2450, 1, [(0, 65536)], ⟨5, 0, 65536, 1, 0, 1, [(0, 65536)], 0⟩, tierRegs (laid .nonresident) 0 65536 0 0,
      ok_of (by decide +kernel), by decide +kernel⟩,
    ⟨.host, 0x2450, 1, [(0, 33619968)], ⟨5, 0, 33619968, 1, 0, 1, [(0, 33619968)], 0⟩, lockAt, ok_of (by decide +kernel),
      by decide +kernel⟩,
    ⟨.host, 0x2450, laid .nonresident, by decide +kernel⟩,
    ⟨.host, 0x2450, up.setFld Fld.TIER_CMD_STATUS_busy 1, by decide +kernel⟩,
    ⟨.host, 0x50, tierRegs (resid .nonresident) 0 65536 0 0, by decide +kernel⟩,
    ⟨.host, 0x50, 5, 0, 0x10000, 65536, [map5], tierRegs (resid .nonresident) 0 65536 0x10000 5, by decide +kernel⟩,
    ⟨.host, 0x50, 9, (tierRegs (laid .nonresident) 0 0 0 9).setKv 9 { valid := true, base := 1 }, by decide +kernel⟩,
    ⟨.host, 0x50, 9, { (tierRegs (laid .nonresident) 0 0 0 9).setKv 9 { valid := true, base := 1, owner := 6 } with seqLinks := [(5, 9)] },
      by decide +kernel⟩,
    ⟨.host, 0x50, { laid .nonresident with flash := { flash0 with journal := [3, 4], journalBytes := 9 } }, by decide +kernel⟩,
    ⟨⟨2, 5, 0, 65536, 0⟩, { resid .nonresident with tierPending := some ⟨2, 5, 0, 65536, 0⟩ }, by decide +kernel⟩,
    ⟨⟨5, 5, 0, 0, 9⟩, { laid .nonresident with tierPending := some ⟨5, 5, 0, 0, 9⟩, seqLinks := [(5, 8), (5, 9)] }, by decide +kernel⟩⟩

/-- The hypotheses of Prefetches. -/
theorem witness_Prefetches :
    (∃ (run : Nat) (r : Run) (l : Layout) (p : Nat × PrefetchPhase) (s : State), s.run? run = some r ∧ s.layout = some l ∧
      r.prefetches.find? (fun x => x.2 == .waiting) = some p ∧ r.done = none ∧ s.blkOpen 1 0x42 = true ∧
      r.start + l.plannedOffset r.prog (fieldAt (r.recs.getD p.1 []) 2 2) ≤ s.now + fieldAt (r.recs.getD p.1 []) 0x1C 4 ∧
      (∀ x ∈ recRanges (r.recs.getD p.1 []), s.pendingIn x.1 x.2.1 x.2.2 = false)) ∧
    (∃ (run : Nat) (i : Nat) (found : Found) (r : Run) (m : State) (s : State), waitersClear s ∧
      ((s.noteActive 2).countReads r.ctx (fieldAt (r.recs.getD i []) 8 8) (fieldAt (r.recs.getD i []) 0x18 4) found).transfer r.ctx (fieldAt (r.recs.getD i []) 8 8) (fieldAt (r.recs.getD i []) 0x10 8) (fieldAt (r.recs.getD i []) 0x18 4) = .ok m ∧
      found.lost = false ∧ s.run? run = some r ∧ (i, PrefetchPhase.inFlight) ∈ r.prefetches) ∧
    (∃ (run : Nat) (r : Run) (d : Bytes) (l : Layout) (p : Nat × PrefetchPhase) (ps : List (Nat × PrefetchPhase)) (f : Format) (s : State), waitersClear s ∧
      s.run? run = some r ∧ s.layout = some l ∧ s.currentOp r = some d ∧ s.couldStart r d = true ∧ r.executed = false ∧ r.done = none ∧
      r.substitute = none ∧ r.waitEnd = none ∧ r.lateRecords = p :: ps ∧ p.2 ≠ .failed ∧
      fieldAt (s.pathRec r.ctx (fieldAt (r.recs.getD p.1 []) 6 2)) 1 1 = 0 ∧ r.op + 1 < (l.progOps r.prog).length ∧ fieldAt d 0 1 = 1 ∧
      formatOf (tileOpOf d).fmtOut = some f) ∧
    (∃ (run : Nat) (r : Run) (d : Bytes) (p : Nat × PrefetchPhase) (ps : List (Nat × PrefetchPhase)) (s : State), s.run? run = some r ∧
      s.currentOp r = some d ∧ s.couldStart r d = true ∧ r.executed = false ∧ r.done = none ∧ r.substitute = none ∧ r.waitEnd = none ∧
      r.lateRecords = p :: ps ∧ p.2 ≠ .failed ∧ fieldAt (s.pathRec r.ctx (fieldAt (r.recs.getD p.1 []) 6 2)) 1 1 = 2) ∧
    (∃ (run : Nat) (n : Nat) (at' : Nat) (r : Run) (s : State), waitersClear s ∧ s.run? run = some r ∧ r.origin = .invocation n ∧
      r.done = none ∧ r.waitEnd = some at' ∧ r.lateRecords ≠ [] ∧ at' ≤ s.monoNs) :=
  ⟨⟨0, runP .waiting none, opLay 3 (tileD 1 ++ tileD 1) [⟨6, [prefRec], []⟩, ⟨7, [recOf 32 [(0, 1, 5), (1, 1, 0), (2, 2, 1)]], []⟩],
      (0, .waiting), prefAt 0 (runP .waiting none), by decide +kernel⟩,
    ⟨0, 0, {}, runP .inFlight none, okOr (((prefAt 0 (runP .inFlight none)).noteActive 2).countReads 5 0 64 {} |>.transfer 5 0 4096 64) up,
      prefAt 0 (runP .inFlight none), by unfold waitersClear; decide +kernel, ok_of (by decide +kernel), by decide +kernel⟩,
    ⟨0, runP .waiting none, tileD 1,
      opLay 3 (tileD 1 ++ tileD 1) [⟨6, [prefRec], []⟩, ⟨7, [recOf 32 [(0, 1, 5), (1, 1, 0), (2, 2, 1)]], []⟩], (0, .waiting), [], .int8,
      prefAt 0 (runP .waiting none), by unfold waitersClear; decide +kernel, by decide +kernel⟩,
    ⟨0, runP .inFlight none, tileD 1, (0, .inFlight), [], prefAt 2 (runP .inFlight none), by decide +kernel⟩,
    ⟨0, 3, 0, runP .inFlight (some 0), prefAt 2 (runP .inFlight (some 0)), by unfold waitersClear; decide +kernel, by decide +kernel⟩⟩

/-- The hypotheses of WalksAndScrubs. -/
theorem witness_WalksAndScrubs :
    (∃ (die : Nat) (k : Nat) (va : Nat) (p : Nat) (write : Bool) (s : State), s.translate (.engine die) (if write then .engineWrite else .read) k va = .ok (.phys p) ∧
      s.tlbHit die k va = true) ∧
    (∃ (die : Nat) (k : Nat) (va : Nat) (p : Nat) (write : Bool) (e : TlbEntry) (s : State), s.translate (.engine die) (if write then .engineWrite else .read) k va = .ok (.phys p) ∧
      s.tlbHit die k va = false ∧ s.walkEntry k va = some e ∧ (s.tlbOf die).length + s.lockedOn die < 4096) ∧
    (∃ (die : Nat) (k : Nat) (va : Nat) (write : Bool) (s : State), k < 64 ∧ va < 2 ^ 48 ∧
      s.translate (.engine die) (if write then .engineWrite else .read) k va = .error 0x0201) ∧
    (∃ (addr : Nat) (e : Ecc) (s : State), (e = .clean ∨ ∃ tile line, e = .corrected tile line) ∧ physExists addr = true ∧
      (addr < 0x2000000000 ∨ 0x3000000000 ≤ addr)) ∧
    (∃ (addr : Nat) (e : Ecc) (s : State), ((∃ tile line, e = .uncorrectable tile line) ∨ e = .external) ∧ physExists addr = true ∧
      (addr < 0x2000000000 ∨ 0x3000000000 ≤ addr)) ∧
    (∃ (e : Ecc) (s : State), ((∃ tile line, e = .uncorrectable tile line) ∨ e = .external)) ∧
    (∃ (addr : Nat) (e : Ecc) (s : State), physExists addr = false) :=
  ⟨⟨1, 0, 0, 0x1000000000, false, { up with maps := [mapHbm], tlb := [(1, [⟨0, 0, 65536, 0⟩])] }, ok_of (by decide +kernel),
      by decide +kernel⟩,
    ⟨1, 0, 0, 0x1000000000, true, (((({ up with maps := [mapHbm] }).walkEntry 0 0).getD ⟨0, 0, 0, 0⟩)), { up with maps := [mapHbm] },
      ok_of (by decide +kernel), by decide +kernel⟩,
    ⟨1, 63, 2 ^ 48 - 1, true, resid .resident, by decide +kernel⟩,
    ⟨0x11FFFFFFFF, .clean, up, .inl rfl, by decide +kernel⟩,
    ⟨0x301FFFFFFF, .uncorrectable 3 4, up, .inl ⟨3, 4, rfl⟩, by decide +kernel⟩,
    ⟨.uncorrectable 1 2, up, .inl ⟨1, 2, rfl⟩⟩,
    ⟨0x1200000000, .clean, up, by decide +kernel⟩⟩

/-- The hypotheses of FlashStore. -/
theorem witness_FlashStore :
    (∃ (word : Nat) (b : Nat) (s : State), word / 16 < 33554432 ∧ s.blkOpen 1 0x43 = true ∧ s.fld Fld.FTL_STATUS_mode ≠ 0 ∧
      word ∉ s.flash.bad ∧ s.flash.map.find? (fun p => p.1 == word / 16) = some (word / 16, b)) ∧
    (∃ (word : Nat) (s : State), word / 16 < 33554432 ∧ s.blkOpen 1 0x43 = true ∧ s.fld Fld.FTL_STATUS_mode ≠ 0 ∧ word ∉ s.flash.bad ∧
      s.flash.map.find? (fun p => p.1 == word / 16) = none) ∧
    (∃ (word : Nat) (d : FlashDecode) (s : State), word / 16 < 33554432 ∧ s.blkOpen 1 0x43 = true ∧ s.fld Fld.FTL_STATUS_mode ≠ 0 ∧
      (d = .uncorrectable ∨ word ∈ s.flash.bad)) ∧
    (∃ (word : Nat) (d : FlashDecode) (s : State), word / 16 < 33554432 ∧ s.blkOpen 1 0x43 = true ∧ s.fld Fld.FTL_STATUS_mode = 0) ∧
    (∃ (addr : Nat) (data : Bytes) (s : State), addr + data.length ≤ 33554432 * 65536 ∧ s.blkOpen 1 0x43 = true ∧
      s.fld Fld.FTL_STATUS_mode = 2) ∧
    (∃ (addr : Nat) (data : Bytes) (s : State), addr + data.length ≤ 33554432 * 65536 ∧ s.blkOpen 1 0x43 = true ∧
      (s.fld Fld.FTL_STATUS_mode = 0 ∨ s.fld Fld.FTL_STATUS_mode = 1)) ∧
    (∃ (s : State), s.blkOpen 1 0x43 = true ∧ s.fld Fld.FTL_STATUS_mode ≠ 0 ∧
      (s.flash.lastCommit + 4000000 ≤ s.now ∨ 0x4000000 ≤ s.flash.journalBytes)) ∧
    (∃ (word : Nat) (d : FlashDecode) (s : State), 33554432 * 16 ≤ word) ∧
    (∃ (addr : Nat) (data : Bytes) (s : State), 33554432 * 65536 < addr + data.length) ∧
    (∃ (block : Nat) (fresh : Nat) (s : State), s.blkOpen 1 0x43 = true ∧ block ∈ s.flash.relocate ∧ s.flash.isFree fresh = true ∧
      block ≠ fresh ∧ s.fld Fld.FTL_STATUS_mode = 2) ∧
    (∃ (block : Nat) (fresh : Nat) (s : State), s.blkOpen 1 0x43 = true ∧ 256 < s.flash.spread ∧ s.flash.isFree fresh = true ∧
      block ≠ fresh ∧ s.flash.map.any (fun p => p.2 == block) = true ∧
      (∀ p ∈ s.flash.map, Sparse.get (fun _ => 0) s.flash.erases block ≤ Sparse.get (fun _ => 0) s.flash.erases p.2) ∧
      s.fld Fld.FTL_STATUS_mode = 2) ∧
    (∃ (block : Nat) (fresh : Nat) (s : State), s.blkOpen 1 0x43 = true ∧ block ∉ s.flash.retired ∧ s.flash.isFree fresh = true ∧
      block ≠ fresh ∧ s.fld Fld.FTL_STATUS_mode = 2) :=
  ⟨⟨33554431 * 16, 5, ftl 1 { flash0 with map := [(33554431, 5)] }, by decide +kernel⟩,
    ⟨33554431 * 16, ftl 1 flash0, by decide +kernel⟩,
    ⟨33554431 * 16 + 15, .uncorrectable, ftl 1 flash0, by decide +kernel⟩,
    ⟨33554431 * 16, .hard true, ftl 0 flash0, by decide +kernel⟩,
    ⟨33554431 * 65536 + 65534, [1, 2], ftl 2 flash0, by decide +kernel⟩,
    ⟨33554431 * 65536 + 65534, [1, 2], ftl 1 flash0, by decide +kernel⟩,
    ⟨{ ftl 1 { flash0 with journal := [3, 4], journalBytes := 9 } with devTime := 4000000 * 80000000000 }, by decide +kernel⟩,
    ⟨33554432 * 16, .hard false, up, by decide +kernel⟩,
    ⟨33554431 * 65536 + 65535, [1, 2], up, by decide +kernel⟩,
    ⟨2, 5, ftl 2 { flash0 with map := [(0, 2), (1, 3)], relocate := [3, 2] }, by decide +kernel⟩,
    ⟨2, 5, ftl 2 { flash0 with map := [(0, 2), (1, 3)], erases := [(3, 257)] }, by decide +kernel⟩,
    ⟨2, 5, ftl 2 { flash0 with map := [(0, 2), (1, 3)] }, by decide +kernel⟩⟩

/-- The hypotheses of LayoutLoads. -/
theorem witness_LayoutLoads :
    (∃ (who : Requester) (v : Nat) (s : State), imagePasses s 0 = true ∧ layReady s who = true) ∧
    (∃ (who : Requester) (v : Nat) (s : State), imagePasses s 1 = true ∧ layReady s who = true) ∧
    (∃ (who : Requester) (v : Nat) (s : State), imagePasses s 2 = true ∧ layReady s who = true) ∧
    (∃ (who : Requester) (v : Nat) (i : Nat) (s : State), layReady s who = true ∧ s.imageDie0 (imageOff s) 256 = some i) ∧
    (∃ (who : Requester) (v : Nat) (f : Finding) (s : State), layReady s who = true ∧ f.code < 65536 ∧ s.imageDie0 (imageOff s) 256 = none ∧
      firstFinding (headerFindings (s.imageBytes (imageOff s) 256) 0 (s.fld Fld.LAY_IMG_LEN_len)) = some f) ∧
    (∃ (who : Requester) (v : Nat) (d : Load) (s : State), s.served who 1 0x46 false = true ∧ s.load = some d) :=
  ⟨⟨.host, 1, staged imgFull,
      staged_passes imgFull 0 (by decide +kernel) (by decide +kernel) (by decide +kernel) (by decide +kernel) (by decide +kernel) (by decide +kernel) full_sections,
      by decide +kernel⟩,
    ⟨.host, 1, staged imgPart,
      staged_passes imgPart 1 (by decide +kernel) (by decide +kernel) (by decide +kernel) (by decide +kernel) (by decide +kernel) (by decide +kernel) (by decide +kernel),
      by decide +kernel⟩,
    ⟨.host, 1, staged imgFull,
      staged_passes imgFull 2 (by decide +kernel) (by decide +kernel) (by decide +kernel) (by decide +kernel) (by decide +kernel) (by decide +kernel) full_sections,
      by decide +kernel⟩,
    ⟨.host, 1, 0,
      flds { laid .resident with maps := [⟨5, 0, 65536, 1, 0, 0, [(0x3000000000, 65536)], 0⟩] } [(Fld.HQ_WIN_CTRL_mode 0, 1), (Fld.HQ_WIN_CTRL_ctx_id 0, 5)],
      by decide +kernel⟩,
    ⟨.host, 1, ⟨0, 0, 0, 0x0A01⟩, up, by decide +kernel⟩,
    ⟨.host, 1, load0 0, { up with load := some (load0 0) }, by decide +kernel⟩⟩

/-- The hypotheses of LayoutCommits. -/
theorem witness_LayoutCommits :
    (∃ (d : Load) (s : State), s.load = some d ∧ s.loadQuiesced d.op (layoutOf d.image) = false) ∧
    (∃ (d : Load) (s : State), s.load = some d ∧ s.loadQuiesced d.op (layoutOf d.image) = true ∧
      (s.loadGroups d.op (layoutOf d.image)).all s.asserted = false) ∧
    (∃ (d : Load) (s : State), s.load = some d ∧ d.op = 0 ∧ s.commitCode 0 (layoutOf d.image) = 0 ∧
      s.flag Fld.TIER_CMD_STATUS_busy = false ∧ (∀ r ∈ (layoutOf d.image).recs 1, bit (fieldAt r 3 1) 0 = false)) ∧
    (∃ (d : Load) (s : State), s.load = some d ∧ d.op = 0 ∧ s.commitCode 0 (layoutOf d.image) = 0 ∧ s.flag Fld.TIER_CMD_STATUS_busy = true) ∧
    (∃ (d : Load) (old : Layout) (s : State), s.load = some d ∧ d.op = 1 ∧ s.layout = some old ∧ s.commitCode 1 (layoutOf d.image) = 0) :=
  ⟨⟨load0 0, { (laid .resident).setFld (Fld.HQ_Q_CTRL_run 5) 1 with load := some (load0 0) }, by decide +kernel⟩,
    ⟨load0 0,
      { up.setFld Fld.SIO_STO_STATUS_asserted 7 with layout := some (lay 0 [⟨11, [recOf 256 [(15, 1, 3)]], []⟩, ⟨13, [recOf 64 []], []⟩]), load := some (load0 0) },
      by decide +kernel⟩,
    ⟨load0 0, { laid .nonresident with load := some (load0 0) }, by decide +kernel⟩,
    ⟨load0 0, { up.setFld Fld.TIER_CMD_STATUS_busy 1 with load := some (load0 0) }, by decide +kernel⟩,
    ⟨load0 1, lay 0 [], { laid .nonresident with load := some (load0 1) }, by decide +kernel⟩⟩

/-- The hypotheses of EthernetPorts. -/
theorem witness_EthernetPorts :
    (∃ (port : Nat) (ago : Nat) (f : Bytes) (s : State), port < 12 ∧ s.blkOpen 0 0x24 = true ∧ s.portMode port = 1 ∧
      s.flag (Fld.ETH_STATUS_link_up port) = true ∧ frameType f = s.ports.ethertype) ∧
    (∃ (port : Nat) (ago : Nat) (f : Bytes) (s : State), port < 12 ∧ s.blkOpen 0 0x24 = true ∧ s.portMode port ≠ 0 ∧
      s.flag (Fld.ETH_STATUS_link_up port) = true ∧ (s.portMode port = 1 → frameType f ≠ s.ports.ethertype) ∧ s.sensorStream port f = none) ∧
    (∃ (port : Nat) (ago : Nat) (i : Nat) (f : Bytes) (r : Bytes) (m : State) (s : State), s.writeVa (.engine 0) .engineWrite (fieldAt r 0 1) (ringEntry r ((s.stream i).pubs + 1)) (headBytes ((s.stream i).pubs + 1) f.length false ⟨ofSigned 64 (s.ingressTime port (s.capture ago) / 65536), 0, 0, false, false, false, 0⟩ ++ f) = .ok m ∧
      port < 12 ∧ s.blkOpen 0 0x24 = true ∧ s.portMode port = 2 ∧ s.flag (Fld.ETH_STATUS_link_up port) = true ∧ ptpEvent f = none ∧
      s.sensorStream port f = some i ∧ s.streamRec i = some r ∧ f.length + 64 ≤ fieldAt r 0x24 4) ∧
    (∃ (port : Nat) (ago : Nat) (f : Bytes) (s : State), s.flag (Fld.ETH_STATUS_link_up port) = false) ∧
    (∃ (port : Nat) (ago : Nat) (f : Bytes) (s : State), port < 12 ∧ s.blkOpen 0 0x24 = true ∧ s.portMode port ≠ 0 ∧
      s.flag (Fld.ETH_STATUS_link_up port) = true ∧ s.guarded port f.length = false ∧ ptpEvent f = none) ∧
    (∃ (who : Requester) (port : Nat) (v : Nat) (s : State), s.served who 0 0x24 false = true ∧ port < 12 ∧ s.portNamed port = false ∧
      (8 ≤ port → bits v 0 2 ≠ 1)) ∧
    (∃ (who : Requester) (port : Nat) (v : Nat) (s : State), s.served who 0 0x24 false = true ∧ port < 12 ∧ s.portNamed port = true) ∧
    (∃ (port : Nat) (s : State), port < 12 ∧ s.flag (Fld.ETH_STATUS_link_up port) = true ∧ s.portMode port = 1 ∧
      s.portStreams port [0, 1] = []) ∧
    (∃ (port : Nat) (s : State), port < 12 ∧ s.flag (Fld.ETH_STATUS_link_up port) = true ∧ s.portMode port = 1 ∧
      (∀ i ∈ s.portStreams port [0, 1], i < 160)) ∧
    (∃ (port : Nat) (speed : Nat) (swapped : Bool) (s : State), port < 12 ∧ s.portMode port ≠ 0) :=
  ⟨⟨2, 0, fbFrame 3 0, portsOf [], by decide +kernel⟩,
    ⟨11, 5, fbFrame 3 0, flds (portsOf []) [(Fld.ETH_CTRL_mode 11, 2), (Fld.ETH_STATUS_link_up 11, 1)], by decide +kernel⟩,
    ⟨11, 0, 4, [1, 2], ethStream,
      okOr (sensAt.writeVa (.engine 0) .engineWrite 5 8192 (headBytes 1 2 false ⟨ofSigned 64 (sensAt.ingressTime 11 (sensAt.capture 0) / 65536), 0, 0, false, false, false, 0⟩ ++ [1, 2])) up,
      sensAt, ok_of (by decide +kernel), by decide +kernel⟩,
    ⟨11, 0, fbFrame 3 0, up, by decide +kernel⟩,
    ⟨11, 0, fbFrame 3 0, flds up [(Fld.ETH_CTRL_mode 11, 2), (Fld.ETH_STATUS_link_up 11, 1)], by decide +kernel⟩,
    ⟨.host, 11, 2, portsOf [], by decide +kernel⟩,
    ⟨.host, 2, 0, portsOf [], by decide +kernel⟩,
    ⟨1, flds (portsOf []) [(Fld.ETH_CTRL_mode 1, 1), (Fld.ETH_STATUS_link_up 1, 1)], by decide +kernel⟩,
    ⟨2, portsOf [], by decide +kernel⟩,
    ⟨2, 3, true, { portsOf [] with ports := { streams := [(1, { last := some 4 })] } }, by decide +kernel⟩⟩

/-- The hypotheses of JointBus. -/
theorem witness_JointBus :
    (∃ (i : Nat) (n : Nat) (x : RxFrame) (xs : List RxFrame) (r : Bytes) (s : State), s.ports.jbusIn = x :: xs ∧ s.blkOpen 0 0x26 = true ∧
      s.feedbackStream x.port x.frame = some i ∧ s.streamRec i = some r ∧ s.streamSafety i = none ∧ jointCrcOk x.frame = true ∧
      feedbackFormed r x.frame = true ∧ (s.stream i).last = none ∧ n = 16 + fieldAt x.frame (frameBody x.frame + 6) 2 ∧
      frameBody x.frame + n ≤ x.frame.length ∧ 0 ≤ age x.stamp (fieldAt x.frame (frameBody x.frame + 8) 4) ∧
      age x.stamp (fieldAt x.frame (frameBody x.frame + 8) 4) ≤ fieldAt r 0x10 4) ∧
    (∃ (i : Nat) (x : RxFrame) (xs : List RxFrame) (s : State), s.ports.jbusIn = x :: xs ∧ s.blkOpen 0 0x26 = true ∧
      s.feedbackStream x.port x.frame = some i ∧ s.streamSafety i = none ∧ jointCrcOk x.frame = false) ∧
    (∃ (x : RxFrame) (xs : List RxFrame) (s : State), s.ports.jbusIn = x :: xs ∧ s.blkOpen 0 0x26 = true ∧
      (s.feedbackStream x.port x.frame = none ∨ ∃ i, s.feedbackStream x.port x.frame = some i ∧ jointCrcOk x.frame = true  ∧  feedbackFormed ((s.streamRec i).getD []) x.frame = false)) ∧
    (∃ (i : Nat) (m : Nat) (r : Bytes) (s : State), i < 160 ∧ s.streamRec i = some r ∧ streamKind r = 1 ∧ s.blkOpen 0 0x26 = true ∧
      cycleInstant r (s.stream i).next ≤ s.now ∧ (s.stream i).accepted = [] ∧ m = min 255 (s.fld (Fld.JBUS_STREAM_misses i) + 1)) ∧
    (∃ (i : Nat) (ingress : Nat) (stamp : Nat) (r : Bytes) (s : State), i < 160 ∧ s.streamRec i = some r ∧ streamKind r = 1 ∧
      s.blkOpen 0 0x26 = true ∧ cycleInstant r (s.stream i).next ≤ s.now ∧ (s.stream i).accepted = [(ingress, stamp)] ∧
      0 ≤ age (cycleInstant r (s.stream i).next % 2 ^ 32) ingress ∧ 0 ≤ age (cycleInstant r (s.stream i).next % 2 ^ 32) stamp ∧
      age (cycleInstant r (s.stream i).next % 2 ^ 32) stamp ≤ fieldAt r 0x10 4) ∧
    (∃ (who : Requester) (i : Nat) (r : Bytes) (s : State), i < 160 ∧ s.served who 0 0x26 false = true ∧ s.streamRec i = some r ∧
      fieldAt r 7 1 ≤ (s.stream i).servedRun) ∧
    (∃ (i : Nat) (r : Bytes) (x : StreamSt) (s : State), s.streamRec i = some r ∧ streamKind r = 0 ∧ s.blkOpen 0 0x26 = true ∧
      s.stream i = x ∧ x.takeover = none ∧ cycleInstant r x.next ≤ s.now + 2000 ∧ s.delivered i x.next = true) ∧
    (∃ (i : Nat) (r : Bytes) (x : StreamSt) (s : State), s.streamRec i = some r ∧ streamKind r = 0 ∧ s.blkOpen 0 0x26 = true ∧
      s.stream i = x ∧ x.takeover = none ∧ cycleInstant r x.next ≤ s.now + 2000 ∧ s.delivered i x.next = false) ∧
    (∃ (i : Nat) (j : Nat) (ago : Nat) (port : Nat) (r : Bytes) (f : Bytes) (s : State), i < 160 ∧ s.streamRec i = some r ∧
      streamSim r = false ∧ fieldAt r 2 1 = port ∧ (s.stream i).built = some (j, f, false) ∧ cycleInstant r j ≤ s.now ∧
      s.flag (Fld.ETH_STATUS_link_up port) = true ∧ s.streamSafety i = none) :=
  ⟨⟨1, 32, ⟨2, 100, fbFrame 3 0⟩, [], fbStream, waiting (fbFrame 3 0), by decide +kernel⟩,
    ⟨1, ⟨2, 100, badFrame⟩, [], waiting badFrame, by decide +kernel⟩,
    ⟨⟨2, 100, [1, 2]⟩, [], waiting [1, 2], by decide +kernel⟩,
    ⟨1, 1, fbStream, portsOf [], by decide +kernel⟩,
    ⟨1, 0, 0, fbStream, { portsOf [] with ports := { streams := [(1, { accepted := [(0, 0)] })] } }, by decide +kernel⟩,
    ⟨.host, 1, fbStream, { (portsOf []).setFld (Fld.JBUS_STREAM_fault 1) 1 with ports := { streams := [(1, { servedRun := 2 })] } },
      by decide +kernel⟩,
    ⟨0, cmdStream, {}, portsOf [], by decide +kernel⟩,
    ⟨0, cmdStream, {}, portsOf [⟨11, [recOf 256 [(0, 1, 5), (4, 4, 25000), (12, 1, 1)]], []⟩], by decide +kernel⟩,
    ⟨0, 0, 65536, 2, cmdStream, fbFrame 0 0, { portsOf [] with ports := { streams := [(0, { built := some (0, fbFrame 0 0, false) })] } },
      by decide +kernel⟩⟩

/-- The hypotheses of CamerasAndHostFed. -/
theorem witness_CamerasAndHostFed :
    (∃ (port : Nat) (vc : Nat) (number : Nat) (ago : Nat) (own : Nat) (dt : Nat) (data : Bytes) (hdr : Bool) (crc : Bool) (s : State), csiReady s port vc = true ∧
      s.camFrame port vc = none) ∧
    (∃ (port : Nat) (vc : Nat) (number : Nat) (ago : Nat) (own : Nat) (dt : Nat) (data : Bytes) (crc : Bool) (s : State), csiReady s port vc = true ∧
      s.cameraStream port vc dt = none) ∧
    (∃ (port : Nat) (vc : Nat) (number : Nat) (ago : Nat) (own : Nat) (dt : Nat) (i : Nat) (data : Bytes) (crc : Bool) (x : CamFrame) (s : State), csiReady s port vc = true ∧
      s.cameraStream port vc dt = some i ∧ s.camFrame port vc = some x) ∧
    (∃ (port : Nat) (vc : Nat) (number : Nat) (ago : Nat) (own : Nat) (dt : Nat) (dt' : Nat) (i : Nat) (data : Bytes) (bs : Bytes) (r : Bytes) (hdr : Bool) (crc : Bool) (isOwn : Bool) (x : CamFrame) (m : State) (s : State), s.writeVa (.engine 0) .engineWrite (fieldAt r 0 1) (ringEntry r ((s.stream i).pubs + 1)) (headBytes ((s.stream i).pubs + 1) data.length false ⟨ofSigned 64 (x.capture / 65536), if isOwn then x.own % 2 ^ 32 else x.exposure, x.number % 65536, false, false, isOwn, 0⟩ ++ data) = .ok m ∧
      csiReady s port vc = true ∧ s.camFrame port vc = some x ∧ x.data = [(dt, data)] ∧ x.err = false ∧ s.cameraStream port vc dt = some i ∧
      s.streamRec i = some r ∧ s.streamSafety i = none ∧ isOwn = bit (fieldAt r 0x23 1) 0 ∧ data.length + 64 ≤ fieldAt r 0x24 4) ∧
    (∃ (i : Nat) (r : Bytes) (e : Bytes) (m : State) (s : State), s.readVa (.engine 0) (fieldAt r 0 1) (ringEntry r ((s.stream i).pubs + 1)) (fieldAt r 0x24 4) = .ok e ∧
      s.writeVa (.engine 0) .engineWrite (fieldAt r 0 1) (ringEntry r ((s.stream i).pubs + 1)) (headBytes ((s.stream i).pubs + 1) (fieldAt e 4 4) false ⟨(s.simTime (fieldAt e 0x20 8) / 65536).toNat, 0, 0, false, false, false, fieldAt e 0x20 8⟩ ++ slice e 0x40 (fieldAt e 4 4)) = .ok m ∧
      s.streamRec i = some r ∧ streamSim r = true ∧ streamKind r = 2 ∧ s.blkOpen 0 0x26 = true ∧ fieldAt e 0 4 = 1 ∧
      fieldAt e 0x20 8 ≤ s.now ∧ fieldAt e 4 4 + 64 ≤ fieldAt r 0x24 4) ∧
    (∃ (i : Nat) (r : Bytes) (e : Bytes) (s : State), s.readVa (.engine 0) (fieldAt r 0 1) (ringEntry r ((s.stream i).pubs + 1)) (fieldAt r 0x24 4) = .ok e ∧
      s.streamRec i = some r ∧ streamSim r = true ∧ streamKind r ≠ 0 ∧ s.blkOpen 0 0x26 = true ∧
      (fieldAt e 0 4 ≠ 1 ∨ s.now < fieldAt e 0x20 8)) :=
  ⟨⟨1, 3, 7, 0, 9, 0, [1], true, true, portsOf [], by decide +kernel⟩,
    ⟨1, 3, 7, 0, 9, 0x2A, [1], true, portsOf [], by decide +kernel⟩,
    ⟨1, 2, 7, 0, 9, 0x2A, 2, [1], true, ⟨7, 65536, 0, 9, false, [(0x2A, [1, 2])]⟩, camAt ⟨7, 65536, 0, 9, false, [(0x2A, [1, 2])]⟩,
      by decide +kernel⟩,
    ⟨1, 2, 7, 0, 9, 0x2A, 0, 2, [1, 2], [], csiStream, false, true, true, ⟨7, 65536, 0, 9, false, [(0x2A, [1, 2])]⟩,
      okOr ((camAt ⟨7, 65536, 0, 9, false, [(0x2A, [1, 2])]⟩).writeVa (.engine 0) .engineWrite 5 0 (headBytes 1 2 false ⟨1, 9, 7, false, false, true, 0⟩ ++ [1, 2])) up,
      camAt ⟨7, 65536, 0, 9, false, [(0x2A, [1, 2])]⟩, ok_of (by decide +kernel), by decide +kernel⟩,
    ⟨3, simStream, recOf 128 [(0, 4, 1), (4, 4, 2), (64, 1, 5)],
      okOr (((portsOf []).writePhys 4096 (recOf 128 [(0, 4, 1), (4, 4, 2), (64, 1, 5)])).writeVa (.engine 0) .engineWrite 5 4096 (headBytes 1 2 false ⟨0, 0, 0, false, false, false, 0⟩ ++ [5, 0])) up,
      (portsOf []).writePhys 4096 (recOf 128 [(0, 4, 1), (4, 4, 2), (64, 1, 5)]), ok_of (by decide +kernel), ok_of (by decide +kernel),
      by decide +kernel⟩,
    ⟨3, simStream, List.replicate 128 0, portsOf [], ok_of (by decide +kernel), by decide +kernel⟩⟩

/-- The hypotheses of LoopPasses. -/
theorem witness_LoopPasses :
    (∃ (e : Nat) (j : Nat) (n : Nat) (r : Bytes) (s : State), (∀ g t, s.groupHeld g t = false) ∧ e < 4 ∧ s.engineLoops e = [r] ∧
      j = Sparse.get (fun _ => 0) s.loops.next e ∧ n = loopNumber r ∧ fieldAt r 8 4 + j * fieldAt r 4 4 ≤ s.now ∧ s.blkOpen 0 0x2B = true ∧
      j % max (fieldAt r 0xC 1) 1 = 0 ∧ (s.ctx (fieldAt r 0 1)).phase = .resident ∧ s.flag Fld.LOOP_CLR_clear = false ∧
      (s.loopSlot n).mode = 3) ∧
    (∃ (e : Nat) (j : Nat) (n : Nat) (r : Bytes) (s : State), (∀ g t, s.groupHeld g t = false) ∧ e < 4 ∧ s.engineLoops e = [r] ∧
      j = Sparse.get (fun _ => 0) s.loops.next e ∧ n = loopNumber r ∧ fieldAt r 8 4 + j * fieldAt r 4 4 ≤ s.now ∧ s.blkOpen 0 0x2B = true ∧
      j % max (fieldAt r 0xC 1) 1 = 0 ∧ (s.ctx (fieldAt r 0 1)).phase = .resident ∧ s.flag Fld.LOOP_CLR_clear = false ∧
      (s.loopSlot n).mode ≠ 3 ∧ (∃ i ∈ loopFeedback r, s.flag (Fld.JBUS_STREAM_fault i) = true)) ∧
    (∃ (e : Nat) (j : Nat) (n : Nat) (m : Nat) (r : Bytes) (blk : Bytes) (f : LoopEval) (s : State), (∀ g t, s.groupHeld g t = false) ∧
      e < 4 ∧ s.engineLoops e = [r] ∧ j = Sparse.get (fun _ => 0) s.loops.next e ∧ n = loopNumber r ∧
      fieldAt r 8 4 + j * fieldAt r 4 4 ≤ s.now ∧ s.blkOpen 0 0x2B = true ∧ j % max (fieldAt r 0xC 1) 1 = 0 ∧ evaluates s r = true ∧
      s.flag Fld.LOOP_CLR_clear = false ∧ (s.loopSlot n).mode ≠ 3 ∧ (s.loopSlot n).rearm = false ∧
      (∀ i ∈ loopFeedback r, s.flag (Fld.JBUS_STREAM_fault i) = false) ∧ blk = s.readDie 0 (fieldAt r 0x2C 4) 16 ∧ m = fieldAt blk 0 1 ∧
      m ≤ 2 ∧ fieldAt blk 1 1 = 0 ∧ slice blk 4 12 = List.replicate 12 0 ∧ fieldAt r 0x2A 1 < 2 ∧ f = slotEval s r m ∧
      (m = 2 → f.slot.timer < faultCount r)) ∧
    (∃ (e : Nat) (j : Nat) (at' : Nat) (bad : List Nat) (r : Bytes) (rs : List Bytes) (due : List Bytes) (s : State), (∀ g t, s.groupHeld g t = false) ∧
      e < 4 ∧ s.engineLoops e = r :: rs ∧ j = Sparse.get (fun _ => 0) s.loops.next e ∧ at' = fieldAt r 8 4 + j * fieldAt r 4 4 ∧
      at' ≤ s.now ∧ s.blkOpen 0 0x2B = true ∧ due = (r :: rs).filter (fun x => j % max (fieldAt x 0xC 1) 1 == 0)) ∧
    (∃ (e : Nat) (r : Bytes) (rs : List Bytes) (s : State), s.engineLoops e = r :: rs ∧
      s.now < fieldAt r 8 4 + Sparse.get (fun _ => 0) s.loops.next e * fieldAt r 4 4) ∧
    (∃ (who : Requester) (n : Nat) (s : State), s.served who 0 0x2B false = true ∧ n < 512) :=
  ⟨⟨1, 0, 255, loopRec9 0, loopAt 0 3, fun _ _ => rfl, by decide +kernel⟩,
    ⟨1, 0, 255, loopRec9 0, (loopAt 0 2).setFld (Fld.JBUS_STREAM_fault 9) 1, fun _ _ => rfl, by decide +kernel⟩,
    ⟨1, 0, 255, 1, loopRec9 0, (loopIn 1).readDie 0 0 16, slotEval (loopIn 1) (loopRec9 0) 1, loopIn 1, fun _ _ => rfl, by decide +kernel⟩,
    ⟨1, 0, 0, [], patch (loopRec9 0) 2 [126], [loopRec9 0], [patch (loopRec9 0) 2 [126], loopRec9 0],
      { loopAt 0 3 with layout := some (lay 0 [⟨11, [loopRec9 0, patch (loopRec9 0) 2 [126]], []⟩]) }, fun _ _ => rfl, by decide +kernel⟩,
    ⟨1, loopRec9 9, [], loopAt 9 0, by decide +kernel⟩,
    ⟨.host, 511, up, by decide +kernel⟩⟩

/-- The hypotheses of FusionSlots. -/
theorem witness_FusionSlots :
    (∃ (n : Nat) (owner : Nat) (r : Bytes) (f : FusionRun) (m : State) (s : State), (s.slotSkipped n).1.publishMailbox owner (fieldAt r 0x30 8) (s.fusion.pubs + 1) (s.slotSkipped n).2 = .ok m ∧
      s.fusionRec = some r ∧ s.fusionOwner = some owner ∧ s.fusionActive = true ∧ s.blkOpen 0 0x27 = true ∧ n = s.fusionNext r ∧
      gridInstant r n + fieldAt r 0xC 4 ≤ s.now ∧ s.fusion.run = some f ∧ n < 2 ^ 64) ∧
    (∃ (n : Nat) (owner : Nat) (e : Nat × Nat) (r : Bytes) (f : FusionRun) (s : State), s.fusionRec = some r ∧ s.fusionOwner = some owner ∧
      s.fusionActive = true ∧ s.blkOpen 0 0x27 = true ∧ n = s.fusionNext r ∧ gridInstant r n + fieldAt r 0xC 4 ≤ s.now ∧
      s.fusion.run = some f ∧
      (s.slotSkipped n).1.publishMailbox owner (fieldAt r 0x30 8) (s.fusion.pubs + 1) (s.slotSkipped n).2 = .error e) ∧
    (∃ (n : Nat) (owner : Nat) (r : Bytes) (s : State), s.fusionRec = some r ∧ s.fusionOwner = some owner ∧ s.fusionActive = true ∧
      s.blkOpen 0 0x27 = true ∧ n = s.fusionNext r ∧ gridInstant r n + fieldAt r 0xC 4 ≤ s.now ∧ s.fusion.run = none) ∧
    (∃ (owner : Nat) (r : Bytes) (s : State), s.fusionRec = some r ∧ s.fusionOwner = some owner ∧
      s.now < gridInstant r (s.fusionNext r) + fieldAt r 0xC 4) ∧
    (∃ (owner : Nat) (r : Bytes) (f : FusionRun) (m : State) (s : State), (s.slotEnds.slotResult r f).1.publishMailbox owner (fieldAt r 0x30 8) (s.fusion.pubs + 1) (s.slotEnds.slotResult r f).2 = .ok m ∧
      s.fusionRec = some r ∧ s.fusionOwner = some owner ∧ s.fusion.run = some f ∧ s.fusionActive = true ∧ f.n < 2 ^ 64 ∧ f.status < 65536) ∧
    (∃ (owner : Nat) (e : Nat × Nat) (r : Bytes) (f : FusionRun) (s : State), s.fusionRec = some r ∧ s.fusionOwner = some owner ∧
      s.fusion.run = some f ∧ s.fusionActive = true ∧
      (s.slotEnds.slotResult r f).1.publishMailbox owner (fieldAt r 0x30 8) (s.fusion.pubs + 1) (s.slotEnds.slotResult r f).2 = .error e) ∧
    (∃ (owner : Nat) (r : Bytes) (f : FusionRun) (s : State), s.fusionRec = some r ∧ s.fusionOwner = some owner ∧ s.fusion.run = some f ∧
      s.fusionActive = false) :=
  ⟨⟨0, 5, fusRec, fusRun,
      okOr (((fusAt 2000 (some fusRun)).slotSkipped 0).1.publishMailbox 5 0x6000 1 ((fusAt 2000 (some fusRun)).slotSkipped 0).2) up,
      fusAt 2000 (some fusRun), ok_okOr (by decide +kernel), by decide +kernel⟩,
    ⟨0, 5, (513, 0x6000), fusRec, fusRun, { fusAt 2000 (some fusRun) with maps := [] }, by decide +kernel⟩,
    ⟨0, 5, fusRec, fusAt 1000 none, by decide +kernel⟩,
    ⟨5, fusRec, fusAt 999 none, by decide +kernel⟩,
    ⟨5, fusRec, fusRun,
      okOr (((fusAt 2000 (some fusRun)).slotEnds.slotResult fusRec fusRun).1.publishMailbox 5 0x6000 1 ((fusAt 2000 (some fusRun)).slotEnds.slotResult fusRec fusRun).2) up,
      fusAt 2000 (some fusRun), ok_okOr (by decide +kernel), by decide +kernel⟩,
    ⟨5, (513, 0x6000), fusRec, fusRun, { fusAt 2000 (some fusRun) with maps := [] }, by decide +kernel⟩,
    ⟨5, fusRec, fusRun, (fusAt 2000 (some fusRun)).setFld (Fld.HQ_Q_CTRL_run 5) 0, by decide +kernel⟩⟩

/-- The hypotheses of MapStore. -/
theorem witness_MapStore :
    (∃ (who : Requester) (slot : Nat) (src : Nat) (cfg : MapCfg) (s : State), mapReady s who = true ∧ s.mapCfg? = some cfg ∧
      slotOpen s cfg slot ∧ src = s.fld Fld.MAP_CMD_ARG_count % 1024 ∧ src < cfg.slots ∧ s.pinFree 1 = true) ∧
    (∃ (who : Requester) (slot : Nat) (cfg : MapCfg) (s : State), mapReady s who = true ∧ s.mapCfg? = some cfg ∧ slotOpen s cfg slot) ∧
    (∃ (who : Requester) (slot : Nat) (cfg : MapCfg) (tree : MapTree) (s : State), s.readSnapshot cfg (s.reg64 Reg.MAP_CMD_VA) = .ok tree ∧
      mapReady s who = true ∧ s.mapCfg? = some cfg ∧ slotOpen s cfg slot ∧ s.placeTree cfg tree = none) ∧
    (∃ (who : Requester) (slot : Nat) (root : Nat) (cfg : MapCfg) (b : Bytes) (p : List Int) (q : List Nat) (f : MapCell → MapCell) (new : MapTree) (placed : MapTree) (s : State), s.readVa (.engine 0) cfg.owner (s.reg64 Reg.MAP_CMD_VA) 32 = .ok b ∧
      writeRecord cfg b = some (p, f) ∧ mapReady s who = true ∧ s.mapCfg? = some cfg ∧ slot < 1024 ∧ slot < cfg.slots ∧
      s.fld Fld.MAP_CMD_ARG_count = 1 ∧ cfg.relative p = some q ∧
      new = (s.world slot).tree.put cfg.depth q (f ((s.world slot).tree.get cfg.depth q)) ∧
      (s.placeTree cfg new).map (·.2) = some (root, placed)) ∧
    (∃ (who : Requester) (slot : Nat) (cfg : MapCfg) (b : Bytes) (p : List Int) (q : List Nat) (f : MapCell → MapCell) (new : MapTree) (s : State), s.readVa (.engine 0) cfg.owner (s.reg64 Reg.MAP_CMD_VA) 32 = .ok b ∧
      writeRecord cfg b = some (p, f) ∧ mapReady s who = true ∧ s.mapCfg? = some cfg ∧ slot < 1024 ∧ slot < cfg.slots ∧
      s.fld Fld.MAP_CMD_ARG_count = 1 ∧ cfg.relative p = some q ∧
      new = (s.world slot).tree.put cfg.depth q (f ((s.world slot).tree.get cfg.depth q)) ∧ s.placeTree cfg new = none) ∧
    (∃ (who : Requester) (slot : Nat) (root : Nat) (cfg : MapCfg) (tree : MapTree) (placed : MapTree) (s : State), s.readSnapshot cfg (s.reg64 Reg.MAP_CMD_VA) = .ok tree ∧
      mapReady s who = true ∧ s.mapCfg? = some cfg ∧ slotOpen s cfg slot ∧ (s.placeTree cfg tree).map (·.2) = some (root, placed)) ∧
    (∃ (who : Requester) (slot : Nat) (cfg : MapCfg) (m : State) (s : State), s.writeVa (.engine 0) .engineWrite cfg.owner (s.reg64 Reg.MAP_CMD_VA) (snapshotBytes cfg (s.world slot)) = .ok m ∧
      mapReady s who = true ∧ s.mapCfg? = some cfg ∧ slot < 1024 ∧ slot < cfg.slots ∧ s.pinFree 1 = true) ∧
    (∃ (who : Requester) (slot : Nat) (s : State), s.served who 0 0x28 false = true ∧ s.flag Fld.MAP_CMD_STATUS_busy = true) ∧
    (∃ (who : Requester) (cfg : MapCfg) (s : State), mapReady s who = true ∧ s.mapCfg? = some cfg ∧ s.fld Fld.MAP_CMD_ARG_src < 2 ∧
      s.plan.batch = none) ∧
    (∃ (b : SdfBuild) (cfg : MapCfg) (s : State), s.map.build = some b ∧ s.mapCfg? = some cfg ∧ b.begun = false ∧ b.src < 2 ∧
      s.plan.batch = none ∧ s.blkOpen 0 0x28 = true) ∧
    (∃ (b : SdfBuild) (cfg : MapCfg) (solid : List Nat → Bool) (m : State) (s : State), s.buildSource cfg b = .ok solid ∧
      s.map.build = some b ∧ b.begun = true ∧ s.mapCfg? = some cfg ∧
      s.writeVa (.engine 0) .engineWrite cfg.owner cfg.sdfVa (((fieldCells cfg).map (fun p => leBytes 2 (ofSigned 16 (fieldValue cfg solid (fieldCells cfg) p)))).flatten) = .ok m) ∧
    (∃ (who : Requester) (s : State), mapReady s who = true ∧ (s.world 0).epoch ≠ 0) ∧
    (∃ (who : Requester) (s : State), mapReady s who = true ∧ s.flag Fld.MAP_STATUS_sdf_valid = true) ∧
    (∃ (who : Requester) (s : State), mapReady s who = true ∧ s.flag Fld.MAP_STATUS_sdf_valid = false) ∧
    (∃ (m : Nat) (s : State), s.map.wanted = some m ∧ m < 2 ∧ s.plan.batch = none) :=
  ⟨⟨.host, 1, 0, mapC, mapAt 0, by decide +kernel⟩,
    ⟨.host, 0, mapC, mapAt 0, by decide +kernel⟩,
    ⟨.host, 1, { mapC with nodes := 0, sramNodes := 0 }, .cell ⟨2, 0, [0, 0, 0, 0, 0, 0, 0]⟩,
      (mapFull.writePhys 0x100 (snapshotBytes mapC ⟨0, 0, .cell ⟨2, 0, [0, 0, 0, 0, 0, 0, 0]⟩⟩)).setReg64 Reg.MAP_CMD_VA 0x100,
      ok_of (by decide +kernel), by decide +kernel⟩,
    ⟨.host, 0, 0, mapC, patch writeRec 0xC [4, 0, 0, 0, 0], [1, 2, 3], [1, 2, 3],
      ((writeRecord mapC (patch writeRec 0xC [4, 0, 0, 0, 0])).getD ([], id)).2, .absent, .absent,
      ((mapAt 1).writePhys 0x100 (patch writeRec 0xC [4, 0, 0, 0, 0])).setReg64 Reg.MAP_CMD_VA 0x100, ok_of (by decide +kernel), rfl,
      by decide +kernel⟩,
    ⟨.host, 0, mapCfgOf (patch mapRec 0x18 [0]), writeRec, [1, 2, 3], [1, 2, 3], ((writeRecord mapC writeRec).getD ([], id)).2, treeW,
      mapW0, ok_of (by decide +kernel), rfl, by decide +kernel⟩,
    ⟨.host, 2, 0, mapC, .absent, .absent, ((mapAt 1).writePhys 0x100 (snapshotBytes mapC {})).setReg64 Reg.MAP_CMD_VA 0x100,
      ok_of (by decide +kernel), by decide +kernel⟩,
    ⟨.host, 0, mapC, ((mapAt 1).setReg64 Reg.MAP_CMD_VA 0x100).writePhys 0x100 (snapshotBytes mapC ((mapAt 1).world 0)),
      (mapAt 1).setReg64 Reg.MAP_CMD_VA 0x100, ok_of (by decide +kernel), by decide +kernel⟩,
    ⟨.host, 0, up.setFld Fld.MAP_CMD_STATUS_busy 1, by decide +kernel⟩,
    ⟨.host, mapC, mapAt 0, by decide +kernel⟩,
    ⟨⟨0, 0, 0, 0, false⟩, mapC, { mapAt 0 with map := { build := some ⟨0, 0, 0, 0, false⟩ } }, by decide +kernel⟩,
    ⟨⟨0, 0, 0, 0, true⟩, mapC, (fun p => (chunks 16 0 []).any (fun r => inBox r p)),
      okOr ({ mapAt 0 with map := { build := some ⟨0, 0, 0, 0, true⟩ } }.writeVa (.engine 0) .engineWrite 5 0x5000 (List.replicate 8 [0xFF, 0x7F]).flatten) up,
      { mapAt 0 with map := { build := some ⟨0, 0, 0, 0, true⟩ } }, rfl, by decide +kernel⟩,
    ⟨.host, mapAt 0, by decide +kernel⟩,
    ⟨.host, up.setFld Fld.MAP_STATUS_sdf_valid 1, by decide +kernel⟩,
    ⟨.host, up, by decide +kernel⟩,
    ⟨1, { up with map := { wanted := some 1, cmdWaits := true } }, by decide +kernel⟩⟩

/-- The hypotheses of PlannerChoice. -/
theorem witness_PlannerChoice :
    (∃ (p : PlanCtx) (segs : List (Bytes × List Int)) (l : Nat), p.lambda segs 256 = some l) ∧
    (∃ (p : PlanCtx) (segs : List (Bytes × List Int)) (k : Nat), p.lambda segs 256 = none ∧ 1 ≤ k ∧ k ≤ 256) :=
  ⟨⟨scaleP 1, [scaleSeg], 1, by decide +kernel⟩,
    ⟨scaleP 0, [scaleSeg], 1, by decide +kernel⟩⟩

/-- The hypotheses of PlannerBatches. -/
theorem witness_PlannerBatches :
    (∃ (run : Nat) (r : Run) (d : Bytes) (cfg : MapCfg) (s : State), s.startable run 0x60 = some (r, d) ∧ s.plan.batch = none ∧
      s.mapCfg? = some cfg ∧ (fieldAt d 0xC 2 < batchCount d r.args ∨ cfg.slots ≤ batchSlot d r.args)) ∧
    (∃ (run : Nat) (r : Run) (d : Bytes) (cfg : MapCfg) (s : State), s.startable run 0x60 = some (r, d) ∧ s.plan.batch = none ∧
      s.mapCfg? = some cfg ∧ batchCount d r.args = 0 ∧ batchSlot d r.args < cfg.slots) ∧
    (∃ (run : Nat) (n : Nat) (r : Run) (d : Bytes) (cfg : MapCfg) (base : PlanFrame) (rs : List CandResult) (s : State), s.testCandidates (s.planCtx cfg (s.startBlock d (planModelOf (s.blob 9))) base none) (chunks 32 n (s.readDie 0 (fieldAt d 8 4) (32 * n))) = .ok rs ∧
      s.startable run 0x60 = some (r, d) ∧ s.plan.batch = none ∧ s.mapCfg? = some cfg ∧ batchCount d r.args = n ∧ 0 < n ∧
      n ≤ fieldAt d 0xC 2 ∧ batchSlot d r.args < cfg.slots ∧ s.settleMode.flag Fld.MAP_STATUS_mode = false ∧
      startOk (planModelOf (s.blob 9)) (s.startBlock d (planModelOf (s.blob 9))) = true ∧
      startBase (s.startBlock d (planModelOf (s.blob 9))) = some base) ∧
    (∃ (run : Nat) (r : Run) (d : Bytes) (cfg : MapCfg) (base : PlanFrame) (b : PlanBatch) (m : State) (s : State), stopMail s r b = .ok m ∧
      s.startable run 0x60 = some (r, d) ∧ s.plan.batch = some b ∧ b.run = run ∧ b.tree = false ∧ b.retained = [] ∧ s.mapCfg? = some cfg ∧
      startBase b.block = some base) ∧
    (∃ (run : Nat) (e : Nat × Nat) (r : Run) (d : Bytes) (cfg : MapCfg) (base : PlanFrame) (b : PlanBatch) (s : State), s.startable run 0x60 = some (r, d) ∧
      s.plan.batch = some b ∧ b.run = run ∧ b.tree = false ∧ b.retained = [] ∧ s.mapCfg? = some cfg ∧ startBase b.block = some base ∧
      stopMail s r b = .error e) ∧
    (∃ (run : Nat) (r : Run) (d : Bytes) (s : State), s.startable run 0x60 = some (r, d) ∧
      s.plan.batch.elim true (fun b => b.run == run) = true) :=
  ⟨⟨0, planRun [2, 0, 0, 0], patch planD 4 [0], mapC, planAt (patch planD 4 [0]) [2, 0, 0, 0], by decide +kernel⟩,
    ⟨0, planRun [0, 0, 0, 0], patch planD 4 [0], mapC, planAt (patch planD 4 [0]) [0, 0, 0, 0], by decide +kernel⟩,
    ⟨0, 1, planRun [], planD, mapC, ⟨[[2 ^ 30, 0, 0], [0, 2 ^ 30, 0], [0, 0, 2 ^ 30]], [0, 0, 0]⟩, [{ cost := 5 }], planAt planD [],
      ok_of (by decide +kernel), by decide +kernel⟩,
    ⟨0, planRun [], planD, mapC, ⟨[[2 ^ 30, 0, 0], [0, 2 ^ 30, 0], [0, 0, 2 ^ 30]], [0, 0, 0]⟩, emptyBatch,
      okOr (stopMail planEnd (planRun []) emptyBatch) up, planEnd, ok_okOr (by decide +kernel), by decide +kernel⟩,
    ⟨0, (513, 0x6000), planRun [], planD, mapC, ⟨[[2 ^ 30, 0, 0], [0, 2 ^ 30, 0], [0, 0, 2 ^ 30]], [0, 0, 0]⟩, emptyBatch,
      { planEnd with maps := [] }, by decide +kernel⟩,
    ⟨0, planRun [], planD, planEnd, by decide +kernel⟩⟩

/-- The hypotheses of SolverRuns. -/
theorem witness_SolverRuns :
    (∃ (run : Nat) (r : Run) (d : Bytes) (rec' : Bytes) (s : State), s.startable run 0x70 = some (r, d) ∧ s.solv.active = none ∧
      rec' = (s.recs 0xC).getD (fieldAt d 1 1 % 16) [] ∧
      s.matrixOk (fieldAt rec' 0x30 4) (fieldAt rec' 4 2) (fieldAt rec' 8 4) 0 true = false) ∧
    (∃ (run : Nat) (r : Run) (d : Bytes) (rec' : Bytes) (s : State), s.startable run 0x70 = some (r, d) ∧ s.solv.active = none ∧
      rec' = (s.recs 0xC).getD (fieldAt d 1 1 % 16) [] ∧ bit (fieldAt rec' 1 1) 2 = false ∧
      s.matrixOk (fieldAt rec' 0x30 4) (fieldAt rec' 4 2) (fieldAt rec' 8 4) 0 true = true) ∧
    (∃ (run : Nat) (r : Run) (d : Bytes) (a : SolvRun) (o : SolvResult) (s : State), o = solvOutcome s a none ∧
      s.startable run 0x70 = some (r, d) ∧ s.solv.active = some a ∧ a.run = run ∧ s.monoNs ≤ s.solvDeadline a) ∧
    (∃ (run : Nat) (outer : Nat) (inner : Nat) (r : Run) (d : Bytes) (a : SolvRun) (o : SolvResult) (s : State), o = solvOutcome s a (some (outer, inner)) ∧
      s.startable run 0x70 = some (r, d) ∧ s.solv.active = some a ∧ a.run = run ∧ s.solvDeadline a ≤ s.monoNs) ∧
    (∃ (run : Nat) (a : SolvRun) (s : State), s.solv.active = some a ∧ a.run = run ∧ a.refactor = true ∧ a.budgetOut = false ∧
      a.start + fieldAt ((s.recs 0xC).getD a.setup []) 0x24 4 ≤ s.monoNs) ∧
    (∃ (run : Nat) (r : Run) (d : Bytes) (a : SolvRun) (s : State), s.startable run 0x70 = some (r, d) ∧ s.solv.active = some a ∧
      a.run = run ∧ s.monoNs ≤ s.solvDeadline a ∧ s.plan.batch = none) :=
  ⟨⟨0, runOf 0 7 0 (.invocation 3), solvD, solvRec, solvAt, by decide +kernel⟩,
    ⟨0, runOf 0 7 0 (.invocation 3), solvD, solvRec, solvOk, by decide +kernel⟩,
    ⟨0, runOf 0 7 0 (.invocation 3), solvD, ⟨0, 0, 0, false, false⟩, solvOutcome (solvBusy false 10) ⟨0, 0, 0, false, false⟩ none,
      solvBusy false 10, rfl, by decide +kernel⟩,
    ⟨0, 1, 2, runOf 0 7 0 (.invocation 3), solvD, ⟨0, 0, 0, false, false⟩,
      solvOutcome (solvBusy false 1000000) ⟨0, 0, 0, false, false⟩ (some (1, 2)), solvBusy false 1000000, rfl, by decide +kernel⟩,
    ⟨0, ⟨0, 0, 0, true, false⟩, solvBusy true 500, by decide +kernel⟩,
    ⟨0, runOf 0 7 0 (.invocation 3), solvD, ⟨0, 0, 0, false, false⟩, solvBusy false 10, by decide +kernel⟩⟩

/-- The hypotheses of CrustEvents. -/
theorem witness_CrustEvents :
    (∃ (e : Nat) (src : Nat) (xs : List (Nat × Nat)) (s : State), s.crust.reports = (e, src) :: xs ∧ e ≤ 0x16) ∧
    (∃ (s : State), s.crust.reports = []) :=
  ⟨⟨1, 0, [(2, 3)], { safeAt 100 with crust := { reports := [(1, 0), (2, 3)] } }, by decide +kernel⟩,
    ⟨up, by decide +kernel⟩⟩

/-- The hypotheses of HardwareStops. -/
theorem witness_HardwareStops :
    (∃ (d : Nat) (khz : Nat) (s : State), (d = 0 ∨ d = 8 ∨ d = 12) ∧ (98 * s.clock16 d > 1600 * khz ∨ 1600 * khz > 102 * s.clock16 d)) ∧
    (∃ (d : Nat) (khz : Nat) (s : State), ((d ≠ 0 ∧ d ≠ 8 ∧ d ≠ 12) ∨ (98 * s.clock16 d ≤ 1600 * khz ∧ 1600 * khz ≤ 102 * s.clock16 d))) :=
  ⟨⟨12, 714001, up, by decide +kernel⟩,
    ⟨12, 714000, up, by decide +kernel⟩⟩

/-- The hypotheses of FallbackUnit. -/
theorem witness_FallbackUnit :
    (∃ (i : Nat) (r : Bytes) (x : StreamSt) (s : State), s.streamRec i = some r ∧ streamKind r = 0 ∧ s.stream i = x ∧
      cycleInstant r x.probe + 4000 ≤ s.now ∧ (∀ j, x.left = some j → j < x.probe)) ∧
    (∃ (i : Nat) (j : Nat) (r : Bytes) (x : StreamSt) (s : State), s.streamRec i = some r ∧ streamKind r = 0 ∧ s.stream i = x ∧
      cycleInstant r x.probe + 4000 ≤ s.now ∧ x.left = some j ∧ x.probe ≤ j) ∧
    (∃ (i : Nat) (r : Bytes) (s : State), s.streamRec i = some r ∧ s.now < cycleInstant r (s.stream i).probe + 4000) ∧
    (∃ (i : Nat) (t0 : Nat) (r : Bytes) (x : StreamSt) (s : State), s.streamRec i = some r ∧ s.stream i = x ∧ x.takeover = some t0 ∧
      cycleInstant r x.next ≤ s.now + 2000) ∧
    (∃ (i : Nat) (t0 : Nat) (r : Bytes) (s : State), s.streamRec i = some r ∧ (s.stream i).takeover = some t0 ∧
      s.now + 2000 < cycleInstant r (s.stream i).next) ∧
    (∃ (i : Nat) (g : Nat) (port : Nat) (e : Nat) (n : Nat) (joint : Nat) (x : StreamSt) (s : State), (s.asserted g = true ∨ s.feedbackCopy port joint = none)) ∧
    (∃ (i : Nat) (g : Nat) (port : Nat) (e : Nat) (n : Nat) (joint : Nat) (pos : Int) (vel : Int) (sr : Bytes) (y : GroupStop) (x : StreamSt) (s : State), s.asserted g = false ∧
      s.feedbackCopy port joint = some (pos, vel) ∧ s.streamSafety i = some sr ∧ s.groupStop g = some y ∧ y.cat = 1 ∧ e < s.ss1Ns g ∧
      (∀ p ∈ x.ramp, p.1 ≠ n)) ∧
    (∃ (i : Nat) (g : Nat) (port : Nat) (e : Nat) (n : Nat) (joint : Nat) (pos : Int) (vel : Int) (sr : Bytes) (y : GroupStop) (x : StreamSt) (s : State), s.asserted g = false ∧
      s.feedbackCopy port joint = some (pos, vel) ∧ s.streamSafety i = some sr ∧ s.groupStop g = some y ∧ (y.cat ≠ 1 ∨ s.ss1Ns g ≤ e) ∧
      (∀ p ∈ x.parked, p.1 ≠ n)) ∧
    (∃ (g : Nat) (x : GroupStop) (s : State), g < 4 ∧ s.groupStop g = some x ∧ x.cat = 1 ∧ x.rampFrom + s.ss1Ns g ≤ s.now) ∧
    (∃ (g : Nat) (s : State), (∀ x, s.groupStop g = some x → x.cat = 1 → s.now < x.rampFrom + s.ss1Ns g)) :=
  ⟨⟨0, cmdStream, {}, safeAt 5000, by decide +kernel⟩,
    ⟨0, 0, cmdStream, { left := some 0 }, { safeAt 5000 with ports := { streams := [(0, { left := some 0 })] } }, by decide +kernel⟩,
    ⟨0, cmdStream, safeAt 3999, by decide +kernel⟩,
    ⟨0, 0, cmdStream, { takeover := some 0 }, { safeAt 5000 with ports := { streams := [(0, { takeover := some 0 })] } },
      by decide +kernel⟩,
    ⟨0, 0, cmdStream, { safeAt 0 with ports := { (safeAt 0).ports with streams := [(0, { takeover := some 0, next := 1 })] } },
      by decide +kernel⟩,
    ⟨0, 2, 2, 0, 0, 3, {}, safeAt 0, by decide +kernel⟩,
    ⟨0, 2, 2, 999, 0, 3, 7, 1000, safeSec.records.getD 1 [], ramp1, {}, stopped2 1, by decide +kernel⟩,
    ⟨0, 2, 2, 1000, 0, 3, 7, 1000, safeSec.records.getD 1 [], ramp1, {}, stopped2 1, by decide +kernel⟩,
    ⟨2, ramp1, { (safeAt 1000).setFld Fld.SIO_STO_STATUS_asserted 0 with crust := { stops := [(2, some ramp1)] } }, by decide +kernel⟩,
    ⟨2, { safeAt 999 with crust := { stops := [(2, some ramp1)] } }, by decide +kernel⟩⟩

/-- The hypotheses of Perception. -/
theorem witness_Perception :
    (∃ (frame : Nat) (stamp : Nat) (mask : Nat) (g : Bytes) (s : State), (∃ st c, s.psfEntry (fieldAt g 0x24 4) (fieldAt g 0x28 2) frame = some (st, c) ∧ c ||| s.lidarMask (fieldAt g 0x34 4) = mask) ∧
      s.safetyGlobal = some g ∧ fieldAt g 9 1 ≠ 0 ∧ s.psfEntry (fieldAt g 0x20 4) (fieldAt g 0x28 2) frame = some (stamp, mask) ∧
      fieldAt g 0x30 4 ≤ age (s.now % 2 ^ 32) stamp ∧ s.crust.psf.frames.contains (frame, stamp) = false) ∧
    (∃ (frame : Nat) (stamp : Nat) (mask : Nat) (g : Bytes) (s : State), s.safetyGlobal = some g ∧ fieldAt g 9 1 ≠ 0 ∧
      s.psfEntry (fieldAt g 0x20 4) (fieldAt g 0x28 2) frame = some (stamp, mask) ∧
      s.psfEntry (fieldAt g 0x24 4) (fieldAt g 0x28 2) frame = none ∧ fieldAt g 0x30 4 ≤ age (s.now % 2 ^ 32) stamp ∧
      s.crust.psf.frames.contains (frame, stamp) = false) ∧
    (∃ (t0 : Nat) (g : Bytes) (s : State), s.safetyGlobal = some g ∧ fieldAt g 9 1 ≠ 0 ∧ s.crust.psf.lastEval = some t0 ∧
      t0 + fieldAt g 0x34 4 ≤ s.now) ∧
    (∃ (i : Nat) (n : Nat) (since : Nat) (g : Bytes) (s : State), s.safetyGlobal = some g ∧
      (s.stream i).fast.find? (fun p => p.1 == n) = some (n, since, false) ∧ since + fieldAt g 0x38 4 < s.now) ∧
    (∃ (i : Nat) (x : StarterRun) (sr : Bytes) (bs : Bytes) (s : State), s.readVa (.engine 0) (fieldAt sr 0 1) (fieldAt sr 0x10 8) (fieldAt sr 0xC 4) = .ok bs ∧
      s.crust.starters[i]? = some x ∧ x.ended.isSome = true ∧ x.digested = false ∧ sr = (s.recs 0xE).getD x.index []) ∧
    (∃ (i : Nat) (x : StarterRun) (s : State), s.crust.starters[i]? = some x ∧ x.digested = true) ∧
    (∃ (i : Nat) (x : StarterRun) (s : State), s.crust.starters[i]? = some x ∧ x.ended = none ∧ x.late = false ∧ x.due < s.now) ∧
    (∃ (i : Nat) (id : Nat) (x : StarterRun) (s : State), s.crust.starters[i]? = some x ∧ x.ended = none ∧ x.late = false ∧
      x.run = some id ∧ s.run? id = none) ∧
    (∃ (i : Nat) (x : StarterRun) (s : State), s.crust.starters[i]? = some x ∧ x.ended = none ∧ x.late = false ∧ x.run = none ∧
      (∀ a ∈ (s.ctx (fieldAt ((s.recs 0xE).getD x.index []) 0 1)).acts, a.index = x.act → a.start ≠ x.start)) ∧
    (∃ (i : Nat) (id : Nat) (x : StarterRun) (s : State), s.crust.starters[i]? = some x ∧ x.run = some id ∧ (s.run? id).isSome = true ∧
      s.now ≤ x.due) ∧
    (∃ (i : Nat) (x : StarterRun) (s : State), s.crust.starters[i]? = some x ∧ x.late = true) :=
  ⟨⟨9, 0, 0, safeSec.records.getD 0 [], ((safeAt 100).writeDie 0 0x100 psfRec).writeDie 0 0x200 psfRec,
      ⟨0, 0, by decide +kernel, by decide +kernel⟩, by decide +kernel⟩,
    ⟨9, 0, 0, safeSec.records.getD 0 [], (safeAt 100).writeDie 0 0x100 psfRec, by decide +kernel⟩,
    ⟨100, safeSec.records.getD 0 [], { safeAt 1000100 with crust := { psf := { lastEval := some 100 } } }, by decide +kernel⟩,
    ⟨1, 0, 5, safeSec.records.getD 0 [], { safeAt 100 with ports := { streams := [(1, { fast := [(0, 5, false)] })] } },
      by decide +kernel⟩,
    ⟨0, starter none (some 40) false false, safeSec.records.getD 2 [], [0, 0, 0, 0], starterAt (starter none (some 40) false false),
      ok_of (by decide +kernel), by decide +kernel⟩,
    ⟨0, starter none (some 60) true false, starterAt (starter none (some 60) true false), by decide +kernel⟩,
    ⟨0, starter none none false false, starterAt (starter none none false false), by decide +kernel⟩,
    ⟨0, 1, starter (some 1) none false false, { starterAt (starter (some 1) none false false) with devTime := 0 }, by decide +kernel⟩,
    ⟨0, starter none none false false, { starterAt (starter none none false false) with devTime := 0 }, by decide +kernel⟩,
    ⟨0, 0, starter (some 0) none false false, { starterAt (starter (some 0) none false false) with devTime := 50 * 80000000000 },
      by decide +kernel⟩,
    ⟨0, starter none none false true, starterAt (starter none none false true), by decide +kernel⟩⟩

/-- The hypotheses of TorqueOff. -/
theorem witness_TorqueOff :
    (∃ (x : Nat) (ns : Nat) (s : State), x < 8 ∧ 1000000 < ns) ∧
    (∃ (c : Nat) (ns : Nat) (closed : Bool) (s : State), c < 2 ∧ 2000000 ≤ ns ∧ s.flag Fld.SIO_CFG_estop_en = true ∧
      s.inRun c closed = false ∧ s.flag Fld.SIO_STO_STATUS_estop_latched = false ∧ (∀ p ∈ s.crust.reports, p.1 ≠ 0x10)) ∧
    (∃ (c : Nat) (ns : Nat) (closed : Bool) (s : State), s.inRun c closed = true) ∧
    (∃ (a : Bool) (b : Bool) (ns : Nat) (g : Bytes) (s : State), s.safetyGlobal = some g ∧ s.flag Fld.SIO_CFG_estop_en = true ∧
      fieldAt g 4 4 < ns ∧ s.inRun 0 a ≠ s.inRun 1 b ∧ s.flag Fld.SIO_STO_STATUS_discrepancy = false) ∧
    (∃ (a : Bool) (b : Bool) (ns : Nat) (s : State), s.inRun 0 a = s.inRun 1 b) ∧
    (∃ (who : Requester) (v : Nat) (ns : Nat) (ms : Nat) (closed : Bool) (s : State), s.served who 0 0x2E false = true ∧ 100000000 ≤ ns ∧
      100000000 ≤ ms ∧ s.inRun 1 closed = true ∧ s.flag Fld.SIO_STO_STATUS_discrepancy = false) ∧
    (∃ (who : Requester) (v : Nat) (ns : Nat) (ms : Nat) (closed : Bool) (s : State), s.served who 0 0x2E false = true ∧
      (ns < 100000000 ∨ ms < 100000000 ∨ s.inRun 1 closed = false ∨ s.flag Fld.SIO_STO_STATUS_discrepancy = true)) ∧
    (∃ (who : Requester) (v : Nat) (s : State), s.served who 0 0x2E false = true ∧ s.flag Fld.KEY_DEBUG_forced_hold = false) ∧
    (∃ (who : Requester) (v : Nat) (g : Nat) (s : State), s.served who 0 0x2C false = true ∧ g < 4 ∧ v % 32 = 2 ^ g ∧ s.clearable g = true) ∧
    (∃ (who : Requester) (v : Nat) (g : Nat) (s : State), s.served who 0 0x2C false = true ∧ g < 4 ∧ v % 32 = 2 ^ g ∧
      s.clearable g = false) ∧
    (∃ (who : Requester) (v : Nat) (s : State), s.served who 0 0x2C false = true ∧ v % 32 = 16) :=
  ⟨⟨3, 1000001, safeAt 100, by decide +kernel⟩,
    ⟨1, 2000000, false, up.setFld Fld.SIO_CFG_estop_en 1, by decide +kernel⟩,
    ⟨1, 2000000, false, flds up [(Fld.SIO_CFG_estop_en, 1), (Fld.SIO_CFG_estop_type, 1)], by decide +kernel⟩,
    ⟨true, false, 1001, safeSec.records.getD 0 [], (safeAt 100).setFld Fld.SIO_CFG_estop_en 1, by decide +kernel⟩,
    ⟨true, false, 1001, flds (safeAt 100) [(Fld.SIO_CFG_estop_en, 1), (Fld.SIO_CFG_estop_type, 1)], by decide +kernel⟩,
    ⟨.host, 0, 100000000, 100000000, true, up.setFld Fld.SIO_STO_STATUS_estop_latched 1, by decide +kernel⟩,
    ⟨.host, 0, 99999999, 100000000, true, up, by decide +kernel⟩,
    ⟨.host, 5, up.setFld Fld.SIO_STO_STATUS_asserted 0, by decide +kernel⟩,
    ⟨.host, 4, 2, (safeAt 100).setFld (Fld.CRUST_GROUP_level 2) 3, by decide +kernel⟩,
    ⟨.host, 4, 2, (safeAt 100).setFld Fld.SIO_STO_STATUS_asserted 0, by decide +kernel⟩,
    ⟨.host, 16, (safeAt 100).setFld (Fld.CRUST_GROUP_level 1) 1, by decide +kernel⟩⟩

/-- The hypotheses of Changes. -/
theorem witness_Changes :
    (∃ (who : Requester) (s : State), s.served who 0 0x2C false = true) ∧
    (∃ (who : Requester) (party : Nat) (r : Bytes) (s : State), s.served who 0 0x2C false = true ∧ party < 2 ∧ s.readChange = (r, false) ∧
      changeFormOk s.boot.keyStates r = true ∧ s.fld Fld.CRUST_CHG_STATUS_state ≠ 0 ∧ slice r 8 16 = s.nonceBytes ∧
      s.partySigned r party = true) ∧
    (∃ (who : Requester) (party : Nat) (r : Bytes) (s : State), s.served who 0 0x2C false = true ∧ party < 2 ∧ s.readChange = (r, false) ∧
      (changeFormOk s.boot.keyStates r = false ∨ s.fld Fld.CRUST_CHG_STATUS_state = 0 ∨ slice r 8 16 ≠ s.nonceBytes ∨ s.partySigned r party = false)) ∧
    (∃ (who : Requester) (party : Nat) (s : State), s.served who 0 0x2C false = true ∧ party < 2 ∧
      (s.crust.staged = none ∨ ∃ c, s.crust.staged = some c ∧ (c.at' + 10000000000 ≤ s.monoNs ∨ c.party = party))) ∧
    (∃ (who : Requester) (party : Nat) (c : StagedChange) (r : Bytes) (s : State), s.served who 0 0x2C false = true ∧ party < 2 ∧
      s.crust.staged = some c ∧ s.monoNs < c.at' + 10000000000 ∧ c.party = 1 - party ∧ s.readChange = (r, false) ∧
      chgSigned r = chgSigned c.record ∧ s.partySigned r party = true ∧ fieldAt c.record 5 1 = 3) ∧
    (∃ (c : StagedChange) (s : State), s.crust.staged = some c ∧ c.at' + 10000000000 ≤ s.monoNs) ∧
    (∃ (who : Requester) (party : Nat) (c : StagedChange) (r : Bytes) (s : State), s.served who 0 0x2C false = true ∧ party < 2 ∧
      s.crust.staged = some c ∧ s.monoNs < c.at' + 10000000000 ∧ c.party = 1 - party ∧ s.readChange = (r, false) ∧
      chgSigned r = chgSigned c.record ∧ s.partySigned r party = false) ∧
    (∃ (who : Requester) (party : Nat) (c : StagedChange) (r : Bytes) (s : State), s.served who 0 0x2C false = true ∧ party < 2 ∧
      s.crust.staged = some c ∧ s.monoNs < c.at' + 10000000000 ∧ c.party = 1 - party ∧ s.readChange = (r, false) ∧
      chgSigned r ≠ chgSigned c.record) ∧
    (∃ (who : Requester) (party : Nat) (c : StagedChange) (r : Bytes) (s : State), s.served who 0 0x2C false = true ∧ party < 2 ∧
      s.crust.staged = some c ∧ s.monoNs < c.at' + 10000000000 ∧ c.party = 1 - party ∧ s.readChange = (r, false) ∧
      chgSigned r = chgSigned c.record ∧ s.partySigned r party = true ∧ fieldAt c.record 5 1 = 1) ∧
    (∃ (who : Requester) (party : Nat) (c : StagedChange) (r : Bytes) (s : State), s.served who 0 0x2C false = true ∧ party < 2 ∧
      s.crust.staged = some c ∧ s.monoNs < c.at' + 10000000000 ∧ c.party = 1 - party ∧ s.readChange = (r, false) ∧
      chgSigned r = chgSigned c.record ∧ s.partySigned r party = true ∧ fieldAt c.record 5 1 = 2) :=
  ⟨⟨.host, up, by decide +kernel⟩,
    ⟨.host, 1, chgRec, chgAt chgRec none, by decide +kernel⟩,
    ⟨.host, 1, patch chgRec 4 [2], chgAt (patch chgRec 4 [2]) none, by decide +kernel⟩,
    ⟨.host, 1, up, by decide +kernel⟩,
    ⟨.host, 0, ⟨chgRec, 1, 0⟩, chgRec, chgAt chgRec (some ⟨chgRec, 1, 0⟩), by decide +kernel⟩,
    ⟨⟨[], 1, 0⟩, { upAt 10000000000 with crust := { staged := some ⟨[], 1, 0⟩ } }, by decide +kernel⟩,
    ⟨.host, 0, ⟨chgRec, 1, 0⟩, chgRec, (chgAt chgRec (some ⟨chgRec, 1, 0⟩)).setFld Fld.KEY_SLOT_STATUS_sa 0, by decide +kernel⟩,
    ⟨.host, 0, ⟨chgRec, 1, 0⟩, patch chgRec 0x24 [61], chgAt (patch chgRec 0x24 [61]) (some ⟨chgRec, 1, 0⟩), by decide +kernel⟩,
    ⟨.host, 0, ⟨tpRec, 1, 0⟩, tpRec, chgAt tpRec (some ⟨tpRec, 1, 0⟩), by decide +kernel⟩,
    ⟨.host, 0, ⟨keyRec, 1, 0⟩, keyRec, chgAt keyRec (some ⟨keyRec, 1, 0⟩), by decide +kernel⟩⟩

/-- The hypotheses of SelfTests. -/
theorem witness_SelfTests :
    (∃ (who : Requester) (s : State), s.served who 0 0x08 false = true ∧ s.allAsserted = true ∧ s.proofRunning = false ∧
      (∀ p ∈ s.ctxs, p.2.phase = .resident → s.quiesced p.1 = true)) ∧
    (∃ (who : Requester) (s : State), s.served who 0 0x08 false = true ∧
      (s.allAsserted = false ∨ s.proofRunning = true ∨ ∃ p ∈ s.ctxs, p.2.phase = .resident ∧ s.quiesced p.1 = false)) ∧
    (∃ (rs : List ProofCheck) (s : State), s.proofRunning = true) ∧
    (∃ (rs : List ProofCheck) (d : Nat) (c : ProofCheck) (s : State), s.proofRunning = true ∧ d ∈ s.presentDies ∧
      rs.find? (fun x => x.die == d && !(x.detected && x.reported)) = some c ∧ c.id ≠ 0 ∧ c.id < 256) ∧
    (∃ (d : Nat) (s : State), d ∈ s.presentDies ∧ s.flag (Fld.INJ_PROOF_STATUS_proof_fail d) = true ∧
      (∀ t0, s.crust.failAt = some t0 → t0 + 1000000 ≤ s.monoNs)) ∧
    (∃ (g : Nat) (s : State), s.now % 50000000 / 5000000 = 0 ∧ s.flag Fld.CRUST_STATUS_run = true) ∧
    (∃ (g : Nat) (s : State), s.now % 50000000 / 5000000 = 0 ∧ s.flag Fld.CRUST_STATUS_run = true) ∧
    (∃ (g : Nat) (s : State), s.now % 50000000 / 5000000 = 5 ∧ s.flag Fld.CRUST_STATUS_run = true ∧ s.pulseTurn (s.now / 5000000) = some g ∧
      s.crust.pulse = none) ∧
    (∃ (x : Nat) (t0 : Nat) (s : State), s.crust.pulse = some (x, t0) ∧ t0 + 200000 ≤ s.monoNs ∧ x < 8) ∧
    (∃ (x : Nat) (t0 : Nat) (s : State), s.crust.pulse = some (x, t0) ∧ t0 + 200000 ≤ s.monoNs ∧ x < 8 ∧ s.fld (Fld.SIO_WIRE_cond x) = 0) ∧
    (∃ (c : Nat) (t0 : Nat) (s : State), s.crust.estopTest = some (c, t0) ∧ t0 + 100000 ≤ s.monoNs ∧ c < 2) ∧
    (∃ (slot : Nat) (g : Nat) (s : State), s.flag Fld.CRUST_STATUS_run = true ∧ s.intervalRuns slot g = true ∧
      s.lastPass (4 * slot + g) + 100000000 < s.monoNs ∧ s.crust.overdue.contains (4 * slot + g) = false) :=
  ⟨⟨.host, up, by decide +kernel⟩,
    ⟨.host, up.setFld Fld.SIO_STO_STATUS_asserted 7, by decide +kernel⟩,
    ⟨[], { up with proofRunning := true }, by decide +kernel⟩,
    ⟨[⟨1, 3, true, false⟩], 1, ⟨1, 3, true, false⟩, { up with proofRunning := true }, by decide +kernel⟩,
    ⟨2, up.setFld (Fld.INJ_PROOF_STATUS_proof_fail 2) 1, by decide +kernel⟩,
    ⟨0, testAt 50000000 {}, by decide +kernel⟩,
    ⟨0, testAt 50000000 {}, by decide +kernel⟩,
    ⟨3, testAt 25000000 { turn := (5, 3) }, by decide +kernel⟩,
    ⟨7, 100, testAt 200100 { pulse := some (7, 100) }, by decide +kernel⟩,
    ⟨7, 100, testAt 200100 { pulse := some (7, 100) }, by decide +kernel⟩,
    ⟨1, 0, testAt 100000 { estopTest := some (1, 0) }, by decide +kernel⟩,
    ⟨5, 2, testAt 100000001 {}, by decide +kernel⟩⟩

/-- The hypotheses of Boot. -/
theorem witness_Boot :
    (∃ (t0 : Nat) (data : List Nat) (s : State), s.fld Fld.BOOT_STATUS_state = 0 ∧ s.stepDomains s.boot.next = true ∧ s.boot.next ≤ 0x0F ∧
      s.boot.entered = some (7, false, t0) ∧ s.monoNs - t0 ≤ s.stepBound 7 false * 1000000) ∧
    (∃ (t0 : Nat) (data : List Nat) (s : State), s.fld Fld.BOOT_STATUS_state = 0 ∧ s.stepDomains s.boot.next = true ∧ s.boot.next ≤ 0x0F ∧
      s.boot.entered = some (6, false, t0) ∧ s.monoNs - t0 ≤ s.stepBound 6 false * 1000000) ∧
    (∃ (n : Nat) (t0 : Nat) (alt : Bool) (s : State), s.boot.entered = some (n, alt, t0) ∧ 1 ≤ n ∧ n ≤ 0x0F ∧
      s.stepBound n alt * 1000000 < s.monoNs - t0) ∧
    (∃ (t0 : Nat) (data : List Nat) (s : State), s.fld Fld.BOOT_STATUS_state = 0 ∧ s.stepDomains s.boot.next = true ∧ s.boot.next ≤ 0x0F ∧
      s.boot.entered = some (0x0F, false, t0) ∧ s.monoNs - t0 ≤ s.stepBound 0x0F false * 1000000) ∧
    (∃ (d : Nat) (mods : Nat) (s : State), (d = 2 ∨ d = 3 ∨ d = 4) ∧ d ∈ s.rst.repeatDies ∧ s.held = [] ∧ s.failCount (d + 9) = 0 ∧
      s.dieUpCode d mods true = 0) ∧
    (∃ (d : Nat) (ready : Bool) (s : State), (d = 2 ∨ d = 3 ∨ d = 4) ∧ d ∈ s.rst.repeatDies ∧ s.held = [] ∧ s.failCount (d + 9) = 0) ∧
    (∃ (who : Requester) (s : State), s.served who 0 0x2F false = true ∧ s.fld Fld.BOOT_STATUS_state ≠ 0) ∧
    (∃ (who : Requester) (s : State), s.served who 0 0x2F false = true ∧ s.fld Fld.BOOT_STATUS_state = 0) ∧
    (∃ (who : Requester) (v : Nat) (f : Firmware) (s : State), s.served who 0 0x2F true = true ∧ s.fld Fld.HQ_DEV_STATE_state ≠ 0 ∧
      s.boot.update = none ∧ s.boot.fw = some f ∧ f.slot = bits v 1 1) ∧
    (∃ (who : Requester) (v : Nat) (img : Bytes) (s : State), s.served who 0 0x2F true = true ∧ s.fld Fld.HQ_DEV_STATE_state ≠ 0 ∧
      s.boot.update = none ∧ s.boot.fw = none ∧ s.stagedImage (s.reg64 Reg.BOOT_UPD_ADDR / 64 * 64) = (img, false)) ∧
    (∃ (slot : Nat) (img : Bytes) (s : State), s.boot.update = some (slot, img) ∧ slot < 2) ∧
    (∃ (slot : Nat) (img : Bytes) (s : State), s.boot.update = some (slot, img)) :=
  ⟨⟨0, [], bootAt 7 0, by decide +kernel⟩,
    ⟨0, [], bootAt 6 0, by decide +kernel⟩,
    ⟨7, 0, false, bootAt 7 40000000, by decide +kernel⟩,
    ⟨0, [], bootAt 15 0, by decide +kernel⟩,
    ⟨2, 3, repeatAt 2, by decide +kernel⟩,
    ⟨4, true, repeatAt 4, by decide +kernel⟩,
    ⟨.host, up, by decide +kernel⟩,
    ⟨.host, up.setFld Fld.BOOT_STATUS_state 0, by decide +kernel⟩,
    ⟨.host, 2, { slot := 1 }, booted { fw := some { slot := 1 } }, by decide +kernel⟩,
    ⟨.host, 2, List.replicate 512 0, up.setFld (Fld.HQ_WIN_CTRL_mode 0) 2, by decide +kernel⟩,
    ⟨1, [1, 2], booted { update := some (1, [1, 2]) }, by decide +kernel⟩,
    ⟨1, [1, 2], booted { update := some (1, [1, 2]) }, by decide +kernel⟩⟩

/-- The hypotheses of BakersAndQuotes. -/
theorem witness_BakersAndQuotes :
    (∃ (d : Nat) (s : State), d < 5 ∧ s.flag (Fld.BKR_STATUS_running d) = true ∧ s.restartOf d = none ∧ (s.recentExpiries d).length < 3 ∧
      s.fld Fld.HQ_DEV_STATE_state = 2) ∧
    (∃ (d : Nat) (s : State), d < 5 ∧ s.flag (Fld.BKR_STATUS_running d) = true ∧ s.restartOf d = none ∧ 3 ≤ (s.recentExpiries d).length) ∧
    (∃ (d : Nat) (s : State), d < 5 ∧ (s.restartOf d).isSome = true ∧ s.fld Fld.HQ_DEV_STATE_state = 3 ∧
      s.fld Fld.HQ_DEV_STATE_bkr_restarting = 2 ^ d) ∧
    (∃ (who : Requester) (s : State), s.served who 0 0x30 false = true ∧ s.boot.quote = none) ∧
    (∃ (who : Requester) (s : State), s.served who 0 0x30 false = true ∧ s.boot.quote.isSome = true) ∧
    (∃ (stop : Nat) (s : State), s.boot.unlockEnd = some stop ∧ stop ≤ s.monoNs) ∧
    (∃ (a : Nat) (b : Bytes) (s : State), s.pending = [] ∧ s.boot.quote = some (a, b) ∧ s.proofRunning = false ∧
      (∀ g, g < 4 → s.tick.groupHeld g s.tick.now = false) ∧ s.bar2WriteOk a 512 = true) ∧
    (∃ (a : Nat) (b : Bytes) (s : State), s.pending = [] ∧ s.boot.quote = some (a, b) ∧ s.proofRunning = false ∧
      (∀ g, g < 4 → s.tick.groupHeld g s.tick.now = false) ∧ s.bar2WriteOk a 512 = false) :=
  ⟨⟨3, up.setFld (Fld.BKR_STATUS_running 3) 1, by decide +kernel⟩,
    ⟨3, { up.setFld (Fld.BKR_STATUS_running 3) 1 with boot := { wdog := [(3, [0, 0, 0])] } }, by decide +kernel⟩,
    ⟨3, { flds up [(Fld.HQ_DEV_STATE_state, 3), (Fld.HQ_DEV_STATE_bkr_restarting, 8)] with boot := { restart := [(3, some 0)] } },
      by decide +kernel⟩,
    ⟨.host, up, by decide +kernel⟩,
    ⟨.host, { up with boot := { quote := some (0, []) } }, by decide +kernel⟩,
    ⟨0, booted { unlockEnd := some 0 }, by decide +kernel⟩,
    ⟨0, [], { up.setFld (Fld.HQ_WIN_CTRL_mode 0) 2 with boot := { quote := some (0, []) } }, by decide +kernel⟩,
    ⟨0, [], { up with boot := { quote := some (0, []) } }, by decide +kernel⟩⟩

/-- The hypotheses of ReadAfterWrite. -/
theorem witness_ReadAfterWrite :
    (∃ (s : State) (f : Fld) (v : Nat), f.lo + f.width ≤ 32) ∧
    (∃ (s : State) (e : Evt), e.status ≠ e.counter ∧ e.bit < 32) :=
  ⟨⟨up, Fld.HQ_DEV_STATE_state, 5, by decide +kernel⟩,
    ⟨up, Ev.HQ_EVT_STATUS_win_fault, by decide +kernel⟩⟩

/-- The hypotheses of MemoryStaysCanonical. -/
theorem witness_MemoryStaysCanonical :
    ∃ (s : State) (t : State), step s = .next t ∧ s.phys.wf = true :=
  ⟨up, up.tick, rfl, by decide +kernel⟩

/-- The hypotheses of RailsStayInBounds. -/
theorem witness_RailsStayInBounds :
    ∃ (s : State) (t : State), step s = .next t ∧ s.railsOk = true :=
  ⟨up, up.tick, rfl, by decide +kernel⟩

end Sys2Proof.Tests
end

section
/-! The rules of register accesses through BAR0: what an event of the host interface counts and leaves alone, when a write or read
reaches its block, what a word of a register is after a write, and the latches and staged halves of pairs. -/

namespace Sys2Proof.Machine

/-! ### Events (R8) -/

/-- An event sets its bit and advances its companion counter. -/
theorem counted_event (s : State) {e : Evt} (he : e.status ≠ e.counter) (hb : e.bit < 32) : Counted s (s.event e) e := by
  refine ⟨?_, s.reg_event_counter he⟩
  rw [s.reg_event_status he, BitVec.getLsbD_or, BitVec.getLsbD_ofNat, Nat.testBit_two_pow_self]
  simp [hb]

theorem regsKept_event (s : State) (e : Evt) : RegsKept s (s.event e) e.regs := by
  intro a ha
  simp only [Evt.regs, List.mem_cons, List.not_mem_nil, or_false, not_or] at ha
  exact s.reg_event_ne ha.1 ha.2

/-- On the register file a host-interface event is an event: the vector that it may raise is no register (R104). -/
@[simp] theorem State.hqEvent_regs (s : State) (e : Evt) : (s.hqEvent e).regs = (s.event e).regs := by
  unfold State.hqEvent; dsimp only; split <;> rfl

theorem State.reg_hqEvent (s : State) (e : Evt) (a : Nat) : (s.hqEvent e).reg a = (s.event e).reg a :=
  State.reg_congr (s.hqEvent_regs e) a

theorem counted_hqEvent (s : State) {e : Evt} (he : e.status ≠ e.counter) (hb : e.bit < 32) : Counted s (s.hqEvent e) e := by
  unfold Counted
  rw [State.reg_hqEvent, State.reg_hqEvent]
  exact counted_event s he hb

theorem regsKept_hqEvent (s : State) (e : Evt) : RegsKept s (s.hqEvent e) e.regs := fun a ha =>
  (s.reg_hqEvent e a).trans (regsKept_event s e a ha)

/-- An access that is answered under R25 counts bar0_absent and changes no other register; a read answers zero. -/
theorem absentAccess_effect (s : State) (write : Bool) {t : State}
    (ht : t = (if write then s else { s with answer := leBytes 4 0 }).hqEvent Ev.HQ_EVT_STATUS_bar0_absent) :
    Counted s t Ev.HQ_EVT_STATUS_bar0_absent ∧ (write = false → t.answer = [0, 0, 0, 0]) ∧ (write = true → t.answer = s.answer) ∧
      RegsKept s t Ev.HQ_EVT_STATUS_bar0_absent.regs ∧
      t = { s with regs := t.regs, msix := t.msix, msixPending := t.msixPending, answer := t.answer } := by
  subst ht
  cases write with
  | true =>
    exact ⟨counted_hqEvent s (by decide) (by decide), nofun, fun _ => State.hqEvent_answer .., regsKept_hqEvent s _,
      by rw [if_pos rfl, State.hqEvent_answer]; exact s.hqEvent_only _⟩
  | false =>
    exact ⟨counted_hqEvent { s with answer := leBytes 4 0 } (by decide) (by decide), fun _ => State.hqEvent_answer .., nofun,
      regsKept_hqEvent { s with answer := leBytes 4 0 } _,
      by rw [if_neg nofun, State.hqEvent_answer]; exact State.hqEvent_only _ _⟩

/-! ### Access to a block (R4, R25, R91, R388, R414) -/

/-- A host access is served, answered under R25 and counted, or completed without effect. -/
theorem State.hostAccess_cases (s : State) (die block : Nat) :
    s.hostAccess die block = 0 ∨ s.hostAccess die block = 1 ∨ s.hostAccess die block = 2 := by
  unfold State.hostAccess
  split
  · exact .inr (.inr rfl)
  · split
    · exact .inr (.inl rfl)
    · split
      · exact .inr (.inr rfl)
      · exact .inl rfl

theorem State.busWrite_of_served {s : State} {who : Requester} {die block : Nat} {always : Bool} (f : State → State)
    (h : s.served who die block always = true) : s.busWrite who die block always f = f s := by
  cases who with
  | host =>
    simp only [State.served, Bool.and_eq_true, beq_iff_eq, Bool.or_eq_true, bne_iff_ne] at h
    obtain ⟨hacc, hstate⟩ := h
    have hopen : ¬(s.fld Fld.HQ_DEV_STATE_state = 4 ∧ always = false) := by
      rintro ⟨hrefused, rfl⟩
      exact hstate.elim (· hrefused) nofun
    simp [State.busWrite, hacc, hopen]
  | baker die => exact if_pos h
  | crust => exact if_pos h

/-- A write that does not reach its block is counted where it is the host's and R25 answers it, and leaves no trace otherwise. -/
theorem State.busWrite_of_not_served {s : State} {who : Requester} {die block : Nat} {always : Bool} (f : State → State)
    (h : s.served who die block always = false) :
    s.busWrite who die block always f =
      if who = .host ∧ s.hostAccess die block = 1 then s.hqEvent Ev.HQ_EVT_STATUS_bar0_absent else s := by
  cases who with
  | host =>
    rcases s.hostAccess_cases die block with hacc | hacc | hacc
    · have hrefused : s.fld Fld.HQ_DEV_STATE_state = 4 ∧ always = false := by simpa [State.served, hacc] using h
      simp [State.busWrite, hacc, hrefused]
    · simp [State.busWrite, hacc]
    · simp [State.busWrite, hacc]
  | baker die => exact if_neg (ne_true_of_eq_false h)
  | crust => exact if_neg (ne_true_of_eq_false h)

/-- A write that does not reach its block changes no register but the counted bar0_absent, and nothing unless it is the host's. -/
theorem State.busWrite_unserved_effect {s : State} {who : Requester} {die block : Nat} {always : Bool} (f : State → State)
    (h : s.served who die block always = false) {t : State} (ht : t = s.busWrite who die block always f) :
    RegsKept s t Ev.HQ_EVT_STATUS_bar0_absent.regs ∧
      t = { s with regs := t.regs, msix := t.msix, msixPending := t.msixPending } ∧ (who ≠ .host → t = s) := by
  rw [State.busWrite_of_not_served f h] at ht
  split at ht
  · next hhost =>
    subst ht
    exact ⟨regsKept_hqEvent s _, s.hqEvent_only _, fun hne => absurd hhost.1 hne⟩
  · subst ht
    exact ⟨fun _ _ => rfl, rfl, fun _ => rfl⟩

theorem State.busRead_of_readable {s : State} {who : Requester} {die block : Nat} (f : State → State)
    (h : s.readable who die block = true) : s.busRead who die block f = f s := by
  cases who with
  | host =>
    have hacc : s.hostAccess die block = 0 := by simpa [State.readable] using h
    simp [State.busRead, hacc]
  | baker die => exact if_pos h
  | crust => exact if_pos h

/-! ### Words (R6) -/

/-- A word after a write, bit by bit: an RW bit takes the value, a WC bit is cleared and a WS bit is set by a one, and every other
bit stays. -/
theorem getLsbD_writeWord (f : RegFam) (w : Nat) (old v : Word) {i : Nat} (hi : i < 32) :
    (writeWord f w old v).getLsbD i =
      if (accMask f w .rw).getLsbD i && !(accMask f w .wc).getLsbD i then v.getLsbD i
      else if (accMask f w .wc).getLsbD i then
        (old.getLsbD i && !v.getLsbD i) || (v.getLsbD i && ((accMask f w .rw).getLsbD i || (accMask f w .ws).getLsbD i))
      else old.getLsbD i || (v.getLsbD i && (accMask f w .ws).getLsbD i) := by
  simp only [writeWord, BitVec.getLsbD_or, BitVec.getLsbD_and, BitVec.getLsbD_not, hi, decide_true, Bool.true_and]
  cases (accMask f w .wc).getLsbD i with
  | true => cases old.getLsbD i <;> cases v.getLsbD i <;> simp
  | false =>
    cases (accMask f w .rw).getLsbD i with
    | true => cases v.getLsbD i <;> simp
    | false => simp

/-- A word whose bits are all RW takes the value. -/
theorem writeWord_of_all_rw {f : RegFam} {w : Nat} (old v : Word) (hrw : accMask f w .rw = BitVec.allOnes 32)
    (hwc : accMask f w .wc = 0) : writeWord f w old v = v := by
  apply BitVec.eq_of_getLsbD_eq
  intro i hi
  rw [getLsbD_writeWord f w old v hi, hrw, hwc, BitVec.getLsbD_allOnes]
  simp only [hi, BitVec.ofNat_eq_ofNat, BitVec.getLsbD_zero, decide_true, Bool.not_false, Bool.and_self, if_true]

/-- A write of a register's word gives it the word of R6, and may report a violation of its TP bits. -/
theorem State.putReg_of_regAt (s : State) {a w : Nat} {f : RegFam} (v : Word) (ha : regAt a = some (f, w)) :
    s.putReg a v = if (s.reg a ^^^ v) &&& accMask f w .tp ≠ 0 then (s.setReg a (writeWord f w (s.reg a) v)).report 0x15 0
      else s.setReg a (writeWord f w (s.reg a) v) := by
  simp only [State.putReg, ha]

theorem State.putReg_regs_of_regAt (s : State) {a w : Nat} {f : RegFam} (v : Word) (ha : regAt a = some (f, w)) :
    (s.putReg a v).regs = (s.setReg a (writeWord f w (s.reg a) v)).regs := by
  rw [s.putReg_of_regAt v ha]; split <;> rfl

/-- A write of a register's word changes the register file and Crust's reports alone. -/
theorem State.putReg_only (s : State) (a : Nat) (v : Word) :
    s.putReg a v = { s with regs := (s.putReg a v).regs, crust := (s.putReg a v).crust } := by
  cases ha : regAt a with
  | none => simp only [State.putReg, ha]
  | some p => obtain ⟨f, w⟩ := p; rw [s.putReg_of_regAt v ha]; split <;> rfl

/-- A register all of whose bits are RW takes the value, with nothing else changed. -/
theorem State.putReg_of_all_rw (s : State) {a w : Nat} {f : RegFam} (v : Word) (ha : regAt a = some (f, w))
    (hrw : accMask f w .rw = BitVec.allOnes 32) (hwc : accMask f w .wc = 0) (htp : accMask f w .tp = 0) :
    s.putReg a v = s.setReg a v := by
  rw [s.putReg_of_regAt v ha, writeWord_of_all_rw _ _ hrw hwc, htp, if_neg (by simp)]

/-- A write that reaches a register without a meaning of its own is a write of its word. -/
theorem State.writeReg_plain {s : State} {who : Requester} {a v w : Nat} {f : RegFam} (ha : regAt a = some (f, w))
    (hlow : pairLow a = false) (hhigh : pairHigh a = false) (hcmd : s.writeCommand? who a v = none)
    (hspecial : s.writeSpecial? who a v = none) : s.writeReg who a v = s.putReg a (BitVec.ofNat 32 v) := by
  simp [State.writeReg, ha, hlow, hhigh, hcmd, hspecial]

theorem State.writeReg_of_no_register {s : State} {who : Requester} {a v : Nat} (ha : regAt a = none) :
    s.writeReg who a v = s := by simp [State.writeReg, ha]

/-! ### Latches and staged halves (R5) -/

theorem mem_dropHalf {ps : List PairHalf} {who : Requester} {low : Nat} {p : PairHalf} :
    p ∈ dropHalf ps who low ↔ p ∈ ps ∧ ¬(p.who = who ∧ p.low = low) := by
  rw [dropHalf, List.mem_filter]
  simp [imp_iff_not_or]

theorem find?_dropHalf_same (ps : List PairHalf) (who : Requester) (low : Nat) :
    (dropHalf ps who low).find? (fun p => p.who == who && p.low == low) = none :=
  List.find?_eq_none.mpr fun _ hp => by simpa using (mem_dropHalf.mp hp).2

/-- A half put in a list of halves is what its requester finds there for its pair. -/
theorem find?_dropHalf_append_same (ps : List PairHalf) (who : Requester) (low : Nat) (v : Word) :
    (dropHalf ps who low ++ [(⟨who, low, v⟩ : PairHalf)]).find? (fun p => p.who == who && p.low == low) = some ⟨who, low, v⟩ := by
  rw [List.find?_append, find?_dropHalf_same]
  simp

/-- The halves of another requester or pair are found as before. -/
theorem find?_dropHalf_ne (ps : List PairHalf) {who who' : Requester} {low low' : Nat} (h : who' ≠ who ∨ low' ≠ low) :
    (dropHalf ps who low).find? (fun p => p.who == who' && p.low == low') =
      ps.find? (fun p => p.who == who' && p.low == low') := by
  rw [dropHalf, List.find?_filter]
  congr 1
  funext p
  by_cases hp : p.who = who' ∧ p.low = low'
  · obtain ⟨rfl, rfl⟩ := hp
    have hkept : (p.who == who && p.low == low) = false := by
      simpa using fun hwho hlow => h.elim (· hwho) (· hlow)
    simp [hkept]
  · have hother : (p.who == who' && p.low == low') = false := by simpa using hp
    simp [hother]

/-- A read of a low half latches the high half for its requester. -/
theorem State.latch_readLow_same (s : State) (who : Requester) (a : Nat) :
    (s.readLow who a).latch who a = some (s.readReg (a + 4)) := by
  simp only [State.latch, State.readLow, find?_dropHalf_append_same, Option.map_some]

theorem State.latch_readLow_ne (s : State) {who who' : Requester} {a b : Nat} (h : who' ≠ who ∨ b ≠ a) :
    (s.readLow who a).latch who' b = s.latch who' b := by
  have hnew : ¬(who = who' ∧ a = b) := fun hs => h.elim (· hs.1.symm) (· hs.2.symm)
  simp only [State.latch, State.readLow, List.find?_append, find?_dropHalf_ne s.latches h]
  simp [hnew]

/-- A read of a high half whose requester holds a latch answers the latch and consumes it. -/
theorem State.readHigh_of_latch {s : State} {who : Requester} {a : Nat} {v : Word} (h : s.latch who (a - 4) = some v) :
    s.readHigh who a = { s with answer := leBytes 4 v.toNat, latches := dropHalf s.latches who (a - 4) } := by
  simp only [State.readHigh, h]

theorem State.readHigh_of_no_latch {s : State} {who : Requester} {a : Nat} (h : s.latch who (a - 4) = none) :
    s.readHigh who a = { s with answer := leBytes 4 (s.readReg a).toNat } := by
  simp only [State.readHigh, h]

theorem State.pairValue_writeLow (s : State) (who : Requester) (a v : Nat) :
    (s.writeLow who a v).pairValue who a 0 = v % 2 ^ 32 := by
  simp only [State.pairValue, State.writeLow, find?_dropHalf_append_same]
  simp

theorem State.pairValue_lt (s : State) (who : Requester) (low v : Nat) : s.pairValue who low v < 2 ^ 64 := by
  unfold State.pairValue
  have hlow := (((s.staged.find? (fun p => p.who == who && p.low == low)).map (·.value)).getD (s.reg low)).isLt
  omega

/-- Where nothing is staged, the low half of the pair's value is the register's. -/
theorem State.pairValue_of_none {s : State} {who : Requester} {low : Nat} (v : Nat)
    (h : s.staged.find? (fun p => p.who == who && p.low == low) = none) :
    s.pairValue who low v = (s.reg low).toNat + 2 ^ 32 * (v % 2 ^ 32) := by
  simp only [State.pairValue, h, Option.map_none, Option.getD_none]

/-! ### The pair TIME_STEP (R218) -/

/-- The register table's entry for TIME_STEP: one pair, whose 64 bits are all RW. -/
def timeStepFam : RegFam := ⟨[0], 0x18, 8, 1, 4, 1, 2, [⟨0, 64, .rw, 0⟩]⟩

theorem regAt_timeStep_low : regAt Reg.TIME_STEP = some (timeStepFam, 0) := by decide

theorem regAt_timeStep_high : regAt (Reg.TIME_STEP + 4) = some (timeStepFam, 1) := by decide

/-- TIME_STEP given a value takes all 64 bits of it. -/
theorem State.putPair_timeStep (s : State) (who : Requester) (v : Nat) :
    s.putPair who Reg.TIME_STEP v = s.setReg64 Reg.TIME_STEP v := by
  have hplain : s.putPair who Reg.TIME_STEP v =
      (s.putReg Reg.TIME_STEP (BitVec.ofNat 32 v)).putReg (Reg.TIME_STEP + 4) (BitVec.ofNat 32 (v / 2 ^ 32)) := rfl
  rw [hplain, State.putReg_of_all_rw _ _ regAt_timeStep_high (by decide) (by decide) (by decide),
    State.putReg_of_all_rw _ _ regAt_timeStep_low (by decide) (by decide) (by decide)]
  rfl

theorem State.writeHigh_timeStep (s : State) (who : Requester) (v : Nat) :
    s.writeHigh who (Reg.TIME_STEP + 4) v =
      { s with staged := dropHalf s.staged who Reg.TIME_STEP }.setReg64 Reg.TIME_STEP (s.pairValue who Reg.TIME_STEP v) :=
  State.putPair_timeStep _ who _

/-! ### The commands of BAR0, where they reach their register -/

section Commands
variable {s : State} {who : Requester} {a value : Nat}

theorem exec_registerWrite_of_served (hok : bar0Ok a = true)
    (hs : s.served who (a / 0x1000000) (a / 0x10000 % 0x100) (alwaysWritable a) = true) :
    exec (.registerWrite who a value) s = .next (s.writeReg who a (value % 2 ^ 32)) := by
  change execRegisterWrite who a value s = _
  rw [execRegisterWrite, if_pos hok, State.busWrite_of_served _ hs]

theorem exec_pairLowRead_of_readable (hlow : pairLow a = true)
    (hs : s.readable who (a / 0x1000000) (a / 0x10000 % 0x100) = true) :
    exec (.pairLowRead who a) s = .next (s.readLow who a) := by
  change execPairLowRead who a s = _
  rw [execPairLowRead, if_pos hlow, State.busRead_of_readable _ hs]

theorem exec_pairHighRead_of_readable (hhigh : pairHigh a = true)
    (hs : s.readable who (a / 0x1000000) (a / 0x10000 % 0x100) = true) :
    exec (.pairHighRead who a) s = .next (s.readHigh who a) := by
  change execPairHighRead who a s = _
  rw [execPairHighRead, if_pos hhigh, State.busRead_of_readable _ hs]

theorem exec_pairLowWrite_of_served (hlow : pairLow a = true)
    (hs : s.served who (a / 0x1000000) (a / 0x10000 % 0x100) (alwaysWritable a) = true) :
    exec (.pairLowWrite who a value) s = .next (s.writeLow who a value) := by
  change execPairLowWrite who a value s = _
  rw [execPairLowWrite, if_pos hlow, State.busWrite_of_served _ hs]

theorem exec_pairHighWrite_of_served (hhigh : pairHigh a = true)
    (hs : s.served who (a / 0x1000000) (a / 0x10000 % 0x100) (alwaysWritable a) = true) :
    exec (.pairHighWrite who a value) s = .next (s.writeHigh who a value) := by
  change execPairHighWrite who a value s = _
  rw [execPairHighWrite, if_pos hhigh, State.busWrite_of_served _ hs]

end Commands

/-- An access of another size or alignment reads all ones and writes nothing (R4). -/
theorem exec_bar0InvalidAccess_of_misaligned {a size : Nat} (write : Bool) (s : State) (h : size ≠ 4 ∨ a % 4 ≠ 0) :
    exec (.bar0InvalidAccess a size write) s = .next (if write then s else { s with answer := List.replicate size 0xFF }) := by
  change execBar0InvalidAccess a size write s = _
  rw [execBar0InvalidAccess, if_pos h]

/-- An aligned access to a die ID above 4 reads zero and writes nothing. -/
theorem exec_bar0InvalidAccess_of_no_die {a : Nat} (write : Bool) (s : State) (hal : a % 4 = 0) (hdie : 5 ≤ a / 0x1000000 % 16) :
    exec (.bar0InvalidAccess a 4 write) s = .next (if write then s else { s with answer := leBytes 4 0 }) := by
  change execBar0InvalidAccess a 4 write s = _
  rw [execBar0InvalidAccess, if_neg (by omega), if_pos hdie]

/-- An aligned access to one of the five dies is counted where R25 answers it, reads zero where no register is, and is not the
command's business otherwise. -/
theorem exec_bar0InvalidAccess_of_die {a : Nat} (write : Bool) (s : State) (hal : a % 4 = 0) (hdie : a < 0x5000000) :
    exec (.bar0InvalidAccess a 4 write) s = .next
      (if s.hostAccess (a / 0x1000000) (a / 0x10000 % 0x100) = 1 then
        (if write then s else { s with answer := leBytes 4 0 }).hqEvent Ev.HQ_EVT_STATUS_bar0_absent
      else if (regAt a).isNone then (if write then s else { s with answer := leBytes 4 0 }) else s) := by
  change execBar0InvalidAccess a 4 write s = _
  have hid : a / 0x1000000 % 16 = a / 0x1000000 := by omega
  rw [execBar0InvalidAccess, if_neg (by omega), if_neg (by omega), hid]

theorem exec_bar0AbsentDieAccess_of_absent {a : Nat} (write : Bool) {s : State} (hok : bar0Ok a = true)
    (hacc : s.hostAccess (a / 0x1000000) (a / 0x10000 % 0x100) = 1) :
    exec (.bar0AbsentDieAccess a write) s =
      .next ((if write then s else { s with answer := leBytes 4 0 }).hqEvent Ev.HQ_EVT_STATUS_bar0_absent) := by
  change execBar0AbsentDieAccess a write s = _
  rw [execBar0AbsentDieAccess, if_pos ⟨hok, hacc⟩]

end Sys2Proof.Machine
end

section
/-! The statements about register accesses and about reads after writes. -/

namespace Sys2Proof.Machine

/-! ### What each access does to its register (R4 to R6) -/

/-- REGISTER_WRITE of a register without a meaning of its own changes that register alone, bit by bit (R6). -/
theorem registerWrite_plain {who : Requester} {a value w : Nat} {f : RegFam} {s : State} (hok : bar0Ok a = true)
    (hs : s.served who (a / 0x1000000) (a / 0x10000 % 0x100) (alwaysWritable a) = true) (ha : regAt a = some (f, w))
    (hlow : pairLow a = false) (hhigh : pairHigh a = false) (hcmd : s.writeCommand? who a (value % 2 ^ 32) = none)
    (hspecial : s.writeSpecial? who a (value % 2 ^ 32) = none) :
    ∃ t, exec (.registerWrite who a value) s = .next t ∧
      (∀ i, i < 32 → (t.reg a).getLsbD i =
        (if (accMask f w .rw).getLsbD i && !(accMask f w .wc).getLsbD i then value.testBit i
         else if (accMask f w .wc).getLsbD i then
           ((s.reg a).getLsbD i && !value.testBit i) || (value.testBit i && ((accMask f w .rw).getLsbD i || (accMask f w .ws).getLsbD i))
         else (s.reg a).getLsbD i || (value.testBit i && (accMask f w .ws).getLsbD i))) ∧
      RegsKept s t [a] ∧ t = { s with regs := t.regs, crust := t.crust } := by
  have hregs := s.putReg_regs_of_regAt (BitVec.ofNat 32 (value % 2 ^ 32)) ha
  refine ⟨_, (exec_registerWrite_of_served hok hs).trans (congrArg _ (State.writeReg_plain ha hlow hhigh hcmd hspecial)),
    fun i hi => ?_, fun b hb => ?_, s.putReg_only a _⟩
  · have hbit : (BitVec.ofNat 32 (value % 2 ^ 32)).getLsbD i = value.testBit i := by
      rw [BitVec.getLsbD_ofNat, Nat.testBit_mod_two_pow]
      simp [hi]
    rw [State.reg_congr hregs, State.reg_setReg_same, getLsbD_writeWord f w _ _ hi, hbit]
  · rw [State.reg_congr hregs, State.reg_setReg_ne _ _ (by simpa using hb)]

/-- PAIR_LOW_READ answers the low half and latches the high half for its requester alone (R5). -/
theorem pairLowRead_latches {who : Requester} {a : Nat} {s : State} (hlow : pairLow a = true)
    (hs : s.readable who (a / 0x1000000) (a / 0x10000 % 0x100) = true) :
    ∃ t, exec (.pairLowRead who a) s = .next t ∧ t.answer = leBytes 4 (s.readReg a).toNat ∧
      t.latch who a = some (s.readReg (a + 4)) ∧ (∀ w b, (w ≠ who ∨ b ≠ a) → t.latch w b = s.latch w b) ∧
      t = { s with answer := t.answer, latches := t.latches } :=
  ⟨_, exec_pairLowRead_of_readable hlow hs, rfl, s.latch_readLow_same who a, fun _ _ h => s.latch_readLow_ne h, rfl⟩

/-- PAIR_HIGH_READ answers the latch that its requester holds and consumes it (R5). -/
theorem pairHighRead_consumes_latch {who : Requester} {a : Nat} {v : Word} {s : State} (hhigh : pairHigh a = true)
    (hs : s.readable who (a / 0x1000000) (a / 0x10000 % 0x100) = true) (hlatch : s.latch who (a - 4) = some v) :
    ∃ t, exec (.pairHighRead who a) s = .next t ∧ t.answer = leBytes 4 v.toNat ∧ t.latch who (a - 4) = none ∧
      (∀ w b, (w ≠ who ∨ b ≠ a - 4) → t.latch w b = s.latch w b) ∧ t = { s with answer := t.answer, latches := t.latches } :=
  ⟨_, (exec_pairHighRead_of_readable hhigh hs).trans (congrArg _ (State.readHigh_of_latch hlatch)), rfl,
    congrArg (Option.map _) (find?_dropHalf_same s.latches who (a - 4)),
    fun _ _ h => congrArg (Option.map _) (find?_dropHalf_ne s.latches h), rfl⟩

/-- PAIR_HIGH_WRITE of TIME_STEP applies the 64-bit value at once and consumes the staged low half (R5). -/
theorem pairHighWrite_timeStep {who : Requester} (value : Nat) {s : State} (hs : s.served who 0 0x23 false = true) :
    ∃ t, exec (.pairHighWrite who (Reg.TIME_STEP + 4) value) s = .next t ∧
      t.reg64 Reg.TIME_STEP = s.pairValue who Reg.TIME_STEP value ∧
      (s.staged.find? (fun p => p.who == who && p.low == Reg.TIME_STEP) = none →
        t.reg64 Reg.TIME_STEP = (s.reg Reg.TIME_STEP).toNat + 2 ^ 32 * (value % 2 ^ 32)) ∧
      (∀ p ∈ t.staged, ¬(p.who = who ∧ p.low = Reg.TIME_STEP)) ∧ RegsKept s t [Reg.TIME_STEP, Reg.TIME_STEP + 4] ∧
      t = { s with regs := t.regs, staged := t.staged } := by
  have hhigh : pairHigh (Reg.TIME_STEP + 4) = true := by rw [pairHigh, regAt_timeStep_high]; rfl
  have hvalue (r : State) : (r.setReg64 Reg.TIME_STEP (s.pairValue who Reg.TIME_STEP value)).reg64 Reg.TIME_STEP =
      s.pairValue who Reg.TIME_STEP value := by
    rw [State.reg64_setReg64, Nat.mod_eq_of_lt (s.pairValue_lt ..)]
  refine ⟨_, (exec_pairHighWrite_of_served hhigh hs).trans (congrArg _ (s.writeHigh_timeStep who value)), hvalue _,
    fun hnone => (hvalue _).trans (State.pairValue_of_none value hnone), fun p hp => (mem_dropHalf.mp hp).2, fun b hb => ?_, rfl⟩
  simp only [List.mem_cons, List.not_mem_nil, or_false, not_or] at hb
  exact State.reg_setReg64_ne { s with staged := dropHalf s.staged who Reg.TIME_STEP } _ hb.1 hb.2

/-! ### The obligations -/

/-- Settles O10: each access is reduced to its effect on the registers that it reaches (`exec_…_of_…`); the bits of a word after a
write, the count of an access that R25 answers and the halves of a pair have a lemma each. -/
theorem registerAccess : Obligations.RegisterAccess := by
  unfold Obligations.RegisterAccess
  refine ⟨fun who a value w f s => registerWrite_plain, fun a size s h => ?invalidWrite, fun a size s h => ?invalidRead,
    fun a s hal hlt hdie => ?noDie, fun a s hal hlt hreg hacc => ?noRegister, fun a write s hal hlt hacc => ?absentDie,
    fun who a value s hok hreg hs => ?writeNoRegister, fun a write s hok hacc => ?absentAccess,
    fun who die block always f s h => State.busWrite_unserved_effect f h rfl, fun who a s => pairLowRead_latches,
    fun who a v s => pairHighRead_consumes_latch, fun who a s hhigh hs hlatch => ?highRead,
    fun who a value s hlow hs => ?lowWrite, fun who value s => pairHighWrite_timeStep value⟩
  case invalidWrite => exact ⟨s, exec_bar0InvalidAccess_of_misaligned true s h, rfl⟩
  case invalidRead => exact ⟨_, exec_bar0InvalidAccess_of_misaligned false s h, rfl⟩
  case noDie => exact ⟨_, exec_bar0InvalidAccess_of_no_die false s hal (by omega), rfl⟩
  case noRegister =>
    have hexec := exec_bar0InvalidAccess_of_die false s hal hlt
    rw [if_neg hacc, hreg] at hexec
    exact ⟨_, hexec, rfl⟩
  case absentDie =>
    have hexec := exec_bar0InvalidAccess_of_die write s hal hlt
    rw [if_pos hacc] at hexec
    exact ⟨_, hexec, absentAccess_effect s write rfl⟩
  case writeNoRegister =>
    exact ⟨s, (exec_registerWrite_of_served hok hs).trans (congrArg _ (State.writeReg_of_no_register hreg)), rfl⟩
  case absentAccess => exact ⟨_, exec_bar0AbsentDieAccess_of_absent write hok hacc, absentAccess_effect s write rfl⟩
  case highRead =>
    exact ⟨_, (exec_pairHighRead_of_readable hhigh hs).trans (congrArg _ (State.readHigh_of_no_latch hlatch)), rfl⟩
  case lowWrite => exact ⟨_, exec_pairLowWrite_of_served hlow hs, s.pairValue_writeLow who a value, rfl⟩

/-- Settles O57, from the laws of byte strings, of fields and of events. -/
theorem readAfterWrite : Obligations.ReadAfterWrite := by
  unfold Obligations.ReadAfterWrite
  refine ⟨fun s a bs => ⟨s.readPhys_writePhys bs a, fun x hx => ?outside, s.writePhys_phys_only bs a⟩,
    fun s f v hf => ⟨s.fld_setFld_same v hf, fun a ha => ?otherRegister, fun g hg h => s.fld_setFld_ne v hf hg h⟩,
    fun s e he hb => ⟨counted_event s he hb, regsKept_event s e⟩⟩
  case outside => rw [State.byteAt_writePhys, if_neg (by omega)]
  case otherRegister => exact s.reg_setFld_ne v hf (by simpa using ha)

end Sys2Proof.Machine
end

section
/-! Traffic regulation (chapter 11): what the roll of a window, an arrival, a snapshot and a grant change and leave as it was, and
the statement about requests. -/

namespace Sys2Proof.Machine

/-! ### What the arbiters may change -/

/-- The second state is the first but for what the arbiters hold: requests, windows, registers and reports to Crust. -/
def TrafficFrame (s t : State) : Prop :=
  t = { s with requests := t.requests, windows := t.windows, regs := t.regs, crust := t.crust }

theorem State.reg_with_requests (s : State) (rs : List Request) (a : Nat) : { s with requests := rs }.reg a = s.reg a := rfl

namespace TrafficFrame
variable {s t u : State}

theorem refl (s : State) : TrafficFrame s s := rfl

theorem with_requests (s : State) (rs : List Request) : TrafficFrame s { s with requests := rs } := rfl

theorem trans (hst : TrafficFrame s t) (htu : TrafficFrame t u) : TrafficFrame s u :=
  Eq.trans htu (congrArg (fun a : State =>
    { a with requests := u.requests, windows := u.windows, regs := u.regs, crust := u.crust }) hst)

theorem localNow (h : TrafficFrame s t) (die : Nat) : t.localNow die = s.localNow die :=
  (congrArg (fun a : State => a.localNow die) h :)

theorem effectiveClass (h : TrafficFrame s t) (q : Request) (n : Nat) : t.effectiveClass q n = s.effectiveClass q n :=
  (congrArg (fun a : State => a.effectiveClass q n) h :)

theorem grantUnit (h : TrafficFrame s t) (q : Request) : t.grantUnit q = s.grantUnit q :=
  (congrArg (fun a : State => a.grantUnit q) h :)

end TrafficFrame

theorem TrafficRegsOnly.trans {s t u : State} (hst : TrafficRegsOnly s t) (htu : TrafficRegsOnly t u) : TrafficRegsOnly s u :=
  fun a h4 h5 => (htu a h4 h5).trans (hst a h4 h5)

theorem trafficRegsOnly_of_regs_eq {s t : State} (h : t.regs = s.regs) : TrafficRegsOnly s t := fun a _ _ => State.reg_congr h a

theorem othersKept.trans {s t u : State} {id : Nat} (hst : othersKept s t id) (htu : othersKept t u id) : othersKept s u id := by
  intro x hx hid
  obtain ⟨y, hy, hyx⟩ := hst x hx hid
  have hyid : y.id = x.id := (congrArg Request.id hyx :)
  obtain ⟨z, hz, hzy⟩ := htu y hy (hyid ▸ hid)
  exact ⟨z, hz, (congrArg (fun r : Request => { r with overBudget := x.overBudget }) hzy).trans hyx⟩

/-- The requests of one identifier changed, and no other. -/
theorem othersKept_of_map {s t : State} {id : Nat} {f : Request → Request}
    (h : t.requests = s.requests.map (fun x => if x.id = id then f x else x)) : othersKept s t id := by
  intro x hx hid
  refine ⟨x, ?_, rfl⟩
  rw [h, List.mem_map]
  exact ⟨x, hx, if_neg hid⟩

theorem mem_waitingAt {s : State} {loc res : Nat} {q : Request} :
    q ∈ waitingAt s loc res ↔
      q ∈ s.requests ∧ q.loc = loc ∧ q.res = res ∧ q.arrived.isSome = true ∧ q.granted.isNone = true := by
  simp only [waitingAt, List.mem_filter, Bool.and_eq_true, beq_iff_eq, and_assoc]

/-! ### Windows (R206) -/

/-- The second state is the first with windows begun anew: what changes of a request is whether it is over budget. -/
def Rolled (s t : State) : Prop :=
  (∃ mark : Request → Bool, t.requests = s.requests.map (fun x => { x with overBudget := mark x })) ∧
    t = { s with requests := t.requests, windows := t.windows }

namespace Rolled
variable {s t u : State}

theorem refl (s : State) : Rolled s s := ⟨⟨Request.overBudget, s.requests.map_id.symm⟩, rfl⟩

theorem trans (hst : Rolled s t) (htu : Rolled t u) : Rolled s u := by
  obtain ⟨⟨mark, hreqs⟩, honly⟩ := hst
  obtain ⟨⟨mark', hreqs'⟩, honly'⟩ := htu
  refine ⟨⟨fun x => mark' { x with overBudget := mark x }, ?_⟩,
    honly'.trans (congrArg (fun a : State => { a with requests := u.requests, windows := u.windows }) honly)⟩
  rw [hreqs', hreqs, List.map_map]
  rfl

theorem foldl {α : Type} {f : State → α → State} (hf : ∀ a x, Rolled a (f a x)) (xs : List α) (s : State) :
    Rolled s (xs.foldl f s) := by
  induction xs generalizing s with
  | nil => exact refl s
  | cons x xs ih => exact (hf s x).trans (ih (f s x))

theorem regs (h : Rolled s t) : t.regs = s.regs := (congrArg State.regs h.2 :)

theorem crust (h : Rolled s t) : t.crust = s.crust := (congrArg State.crust h.2 :)

theorem frame (h : Rolled s t) : TrafficFrame s t :=
  h.2.trans (by rw [h.regs, h.crust])

theorem othersKept (h : Rolled s t) (id : Nat) : othersKept s t id := by
  obtain ⟨⟨mark, hreqs⟩, -⟩ := h
  intro x hx _
  rw [hreqs]
  exact ⟨_, List.mem_map_of_mem hx, rfl⟩

/-- The requests that wait at an arbiter are those that waited there. -/
theorem waitingAt_eq (h : Rolled s t) (loc res : Nat) :
    ∃ mark : Request → Bool, waitingAt t loc res = (waitingAt s loc res).map (fun x => { x with overBudget := mark x }) := by
  obtain ⟨⟨mark, hreqs⟩, -⟩ := h
  refine ⟨mark, ?_⟩
  rw [waitingAt, hreqs, List.filter_map]
  rfl

end Rolled

theorem rolled_rollWindow (s : State) (loc : Nat) (rec' : Option Nat) : Rolled s (s.rollWindow loc rec') := by
  cases rec' with
  | none => exact Rolled.refl s
  | some i =>
    simp only [State.rollWindow]
    split
    · refine ⟨⟨fun x => if x.loc = loc ∧ x.record = some i ∧ x.granted.isNone = true then false else x.overBudget,
        List.map_congr_left fun x _ => ?_⟩, rfl⟩
      dsimp only
      split
      · rfl
      · rfl
    · exact Rolled.refl s

theorem rolled_rolledAt (s : State) (loc res : Nat) : Rolled s (rolledAt s loc res) :=
  Rolled.foldl (fun a (q : Request) => rolled_rollWindow a loc q.record) _ s

/-! ### Arrivals (R205, R206) -/

/-- A request as it stands in its arbiter's queue. -/
def State.arrivedRequest (s : State) (q : Request) : Request :=
  { q with arrived := some (s.localNow q.loc), left := q.bytes
           overBudget := (s.rollWindow q.loc q.record).isOverBudget q.loc q.record q.cls q.bytes }

/-- An offset of one block of a die lies in no other block. -/
theorem ne_of_block_ne {a die offset : Nat} (h : a / 65536 % 256 ≠ offset / 65536 % 256) : a ≠ die * 0x1000000 + offset := by
  rintro rfl
  omega

/-- An event counted, the three fields that describe the last one, and a report to Crust. It is stated over any event and fields:
its laws then hold without the offsets of a die's registers being computed. -/
def State.describeEvent (s : State) (e : Evt) (f g h : Fld) (a b : Nat) : State :=
  ((((s.event e).setFld f a).setFld g b).setFld h 0).report 0x0C 0

theorem State.describeEvent_only (s : State) (e : Evt) (f g h : Fld) (a b : Nat) :
    s.describeEvent e f g h a b =
      { s with regs := (s.describeEvent e f g h a b).regs, crust := (s.describeEvent e f g h a b).crust } := by
  unfold State.describeEvent
  rw [State.setFld_regs_only (((s.event e).setFld f a).setFld g b), State.setFld_regs_only ((s.event e).setFld f a),
    State.setFld_regs_only (s.event e)]
  rfl

/-- Only the event's two registers and the one that holds the fields change. -/
theorem State.reg_describeEvent_ne (s : State) {status bit counter addr lo lo' lo'' w w' w'' r : Nat} (a b : Nat)
    (hw : lo + w ≤ 32) (hw' : lo' + w' ≤ 32) (hw'' : lo'' + w'' ≤ 32) (hs : r ≠ status) (hc : r ≠ counter) (ha : r ≠ addr) :
    (s.describeEvent ⟨status, bit, counter⟩ ⟨addr, lo, w⟩ ⟨addr, lo', w'⟩ ⟨addr, lo'', w''⟩ a b).reg r = s.reg r := by
  refine (State.reg_setFld_ne _ (f := ⟨addr, lo'', w''⟩) 0 hw'' ha).trans ?_
  rw [State.reg_setFld_ne _ b hw' ha, State.reg_setFld_ne _ a hw ha, State.reg_event_ne _ hs hc]

/-- The class-0 event of a request over budget, and its report to Crust. -/
def State.reportOverBudget (s : State) (q : Request) : State :=
  s.describeEvent (Ev.TCL_EVT_STATUS_c0_over q.loc) (Fld.TCL_C0_LAST_ctx_id q.loc) (Fld.TCL_C0_LAST_resource q.loc)
    (Fld.TCL_C0_LAST_kind q.loc) q.ctx q.res

theorem State.reportOverBudget_only (s : State) (q : Request) :
    s.reportOverBudget q = { s with regs := (s.reportOverBudget q).regs, crust := (s.reportOverBudget q).crust } :=
  State.describeEvent_only ..

theorem State.reportOverBudget_requests (s : State) (q : Request) : (s.reportOverBudget q).requests = s.requests :=
  (congrArg State.requests (s.reportOverBudget_only q) :)

theorem State.reportOverBudget_frame (s : State) (q : Request) : TrafficFrame s (s.reportOverBudget q) := by
  have hwindows : (s.reportOverBudget q).windows = s.windows := (congrArg State.windows (s.reportOverBudget_only q) :)
  unfold TrafficFrame
  rw [s.reportOverBudget_requests q, hwindows]
  exact s.reportOverBudget_only q

theorem State.reg_reportOverBudget_ne (s : State) (q : Request) {a : Nat} (ha : a / 65536 % 256 ≠ 4) :
    (s.reportOverBudget q).reg a = s.reg a := by
  have hlast : a ≠ Reg.TCL_C0_LAST q.loc := ne_of_block_ne ha
  have hstatus : a ≠ Reg.TCL_EVT_STATUS q.loc := ne_of_block_ne ha
  have hcounter : a ≠ q.loc * 0x1000000 + 0x40004 := ne_of_block_ne ha
  exact State.reg_describeEvent_ne s q.ctx q.res (by decide) (by decide) (by decide) hstatus hcounter hlast

/-- An arrival changes the request in place, and is reported where a class-0 request is over budget. -/
theorem State.arrive_eq (s : State) (q : Request) :
    s.arrive q =
      let r := s.rollWindow q.loc q.record
      let s1 := { r with requests := r.requests.map (fun x => if x.id = q.id then s.arrivedRequest q else x) }
      if (s.arrivedRequest q).overBudget && q.cls == 0 then s1.reportOverBudget q else s1 := by
  simp only [State.arrive, State.arrivedRequest, (rolled_rollWindow s q.loc q.record).frame.localNow q.loc]
  rfl

/-- An arrival puts the request into its arbiter's queue, and changes no register outside the block TCL. -/
theorem State.arrive_effect (s : State) (q : Request) :
    (s.arrive q).requests =
        (s.rollWindow q.loc q.record).requests.map (fun x => if x.id = q.id then s.arrivedRequest q else x) ∧
      (∀ a, a / 65536 % 256 ≠ 4 → (s.arrive q).reg a = s.reg a) ∧ TrafficFrame s (s.arrive q) := by
  have hroll := rolled_rollWindow s q.loc q.record
  rw [s.arrive_eq q]
  dsimp only
  split
  · refine ⟨State.reportOverBudget_requests .., fun a ha => ?_,
      (hroll.frame.trans (.with_requests ..)).trans (State.reportOverBudget_frame ..)⟩
    exact (State.reg_reportOverBudget_ne _ q ha).trans (State.reg_congr hroll.regs a)
  · exact ⟨rfl, fun a _ => State.reg_congr hroll.regs a, hroll.frame.trans (.with_requests ..)⟩

theorem State.arrive_othersKept (s : State) (q : Request) : othersKept s (s.arrive q) q.id :=
  othersKept.trans ((rolled_rollWindow s q.loc q.record).othersKept q.id) (othersKept_of_map (s.arrive_effect q).1)

/-- A request that is held reaches its arbiter. -/
theorem State.arrivedRequest_mem {s : State} {q x : Request} (hx : x ∈ s.requests) (hid : x.id = q.id) :
    s.arrivedRequest q ∈ (s.arrive q).requests := by
  obtain ⟨⟨mark, hreqs⟩, -⟩ := rolled_rollWindow s q.loc q.record
  rw [(s.arrive_effect q).1, hreqs, List.map_map]
  exact List.mem_map.mpr ⟨x, hx, if_pos hid⟩

theorem State.arrive_trafficRegsOnly (s : State) (q : Request) : TrafficRegsOnly s (s.arrive q) :=
  let ⟨_, hregs, _⟩ := s.arrive_effect q
  fun a h4 _ => hregs a h4

/-! ### Issue (R203, R207) -/

/-- A request as its master issues it, before it is sent. -/
def State.issuedRequest (s : State) (die master : Nat) (src : ReqSource) (bytes loc res : Nat) (route : List (Nat × Nat)) :
    Request :=
  let tag := s.requestTag src
  let cls := ingressClass die loc tag.1
  { id := s.nextReq, die := die, master := master, loc := loc, res := res, route := route, passed := [], cls0 := tag.1, cls := cls
    ctx := tag.2.1, deadline := 0xFFFF, due := tag.2.2, bytes := bytes, record := s.classRecord tag.2.1 cls res
    issued := s.localNow die, entered := 0, arrived := none, left := bytes, granted := none, overBudget := false }

/-- The state that holds a new request, which waits at its master. -/
def State.hold (s : State) (q : Request) : State := { s with requests := s.requests ++ [q], nextReq := s.nextReq + 1 }

theorem State.issue_cons (s : State) (die master : Nat) (src : ReqSource) (bytes loc res : Nat) (route : List (Nat × Nat)) :
    s.issue die master src bytes ((loc, res) :: route) =
      (s.hold (s.issuedRequest die master src bytes loc res route)).send (s.issuedRequest die master src bytes loc res route) := rfl

/-- A request that waits at its master counts against no limit. -/
theorem State.hold_admits {s : State} {q : Request} (h : q.arrived = none) (r : Request) : (s.hold q).admits r = s.admits r := by
  simp only [State.admits, State.hold, List.filter_append, List.filter_cons, h, Option.isSome_none, Bool.and_false,
    Bool.false_eq_true, if_false, List.filter_nil, List.append_nil]
  rfl

/-- The form in which a request leaves its master: with the time that remains to its deadline. -/
def State.sentRequest (s : State) (q : Request) : Request :=
  { q with deadline := deadlineField (q.due.map (fun d => d - s.localNow q.die)), entered := s.localNow q.die }

/-- A request is sent, or waits at its master beyond a limit. -/
theorem State.send_eq (s : State) (q : Request) : s.send q = if s.admits q then s.arrive (s.sentRequest q) else s := rfl

theorem State.send_trafficRegsOnly (s : State) (q : Request) : TrafficRegsOnly s (s.send q) := by
  rw [s.send_eq q]
  split
  · exact s.arrive_trafficRegsOnly _
  · exact trafficRegsOnly_of_regs_eq rfl

theorem State.send_frame (s : State) (q : Request) : TrafficFrame s (s.send q) := by
  rw [s.send_eq q]
  split
  · obtain ⟨-, -, hframe⟩ := s.arrive_effect (s.sentRequest q)
    exact hframe
  · exact TrafficFrame.refl s

theorem State.send_othersKept (s : State) (q : Request) : othersKept s (s.send q) q.id := by
  rw [s.send_eq q]
  split
  · exact s.arrive_othersKept (s.sentRequest q)
  · exact fun x hx _ => ⟨x, hx, rfl⟩

/-- What becomes of a request that is issued: it has arrived at its first arbiter, or waits at its master. -/
theorem State.send_mem {s : State} {q : Request} (hq : q ∈ s.requests) :
    (if s.admits q then s.arrivedRequest (s.sentRequest q) else q) ∈ (s.send q).requests := by
  rw [s.send_eq q]
  split
  · exact State.arrivedRequest_mem hq rfl
  · exact hq

/-- What an issue along a route does: the request is held and, within its master's limits, has arrived. -/
theorem State.issue_effect (s : State) (die master : Nat) (src : ReqSource) (bytes loc res : Nat) (route : List (Nat × Nat))
    {q : Request} (hq : q = s.issuedRequest die master src bytes loc res route) {t : State}
    (ht : t = s.issue die master src bytes ((loc, res) :: route)) :
    t.nextReq = s.nextReq + 1 ∧ (if s.admits q then (s.hold q).arrivedRequest ((s.hold q).sentRequest q) else q) ∈ t.requests ∧
      othersKept s t s.nextReq ∧ TrafficRegsOnly s t ∧
      t = { s with requests := t.requests, nextReq := t.nextReq, windows := t.windows, regs := t.regs, crust := t.crust } := by
  rw [State.issue_cons, ← hq] at ht
  have hframe : TrafficFrame (s.hold q) t := ht ▸ (s.hold q).send_frame q
  have hnext : t.nextReq = s.nextReq + 1 := (congrArg State.nextReq hframe :)
  have harrived : q.arrived = none := hq ▸ rfl
  have hid : q.id = s.nextReq := hq ▸ rfl
  have hmem : q ∈ (s.hold q).requests := List.mem_append_right _ (List.mem_singleton_self q)
  have hheld : othersKept s (s.hold q) s.nextReq := fun x hx _ => ⟨x, List.mem_append_left _ hx, rfl⟩
  refine ⟨hnext, ?_, othersKept.trans hheld (hid ▸ ht ▸ (s.hold q).send_othersKept q),
    TrafficRegsOnly.trans (trafficRegsOnly_of_regs_eq rfl) (ht ▸ (s.hold q).send_trafficRegsOnly q), ?_⟩
  · rw [ht, ← State.hold_admits harrived]
    exact State.send_mem hmem
  · rw [hnext]
    exact hframe

/-- REQUEST_ISSUE of a source on a die that has it, to a resource that it may reach. -/
theorem exec_requestIssue_of_reaches {die loc res : Nat} {src : ReqSource} (master bytes : Nat) (s : State)
    (hdie : sourceDie die src = true) (hreach : sourceReaches loc res none src = true) :
    exec (.requestIssue die master loc res src bytes none) s =
      .next (s.issue die master src bytes (routeRes die loc res (sourceMaster die src))) := by
  change execRequestIssue die master loc res src bytes none s = _
  rw [execRequestIssue, hdie, hreach]
  rfl

/-- REQUEST_ISSUE of a scrub at an address that translates. -/
theorem exec_requestIssue_scrub {die va : Nat} {write : Bool} {s : State} {x : Target} (master loc res bytes : Nat)
    (hx : s.translate (.engine die) (if write then .engineWrite else .read) (s.requestTag .scrub).2.1 va = .ok x) (hdie : die ≠ 1) :
    exec (.requestIssue die master loc res .scrub bytes (some (va, write))) s =
      .next ((s.walked die (s.requestTag .scrub).2.1 va).issue die master .scrub bytes (routeTo die x)) := by
  have hmaster : sourceMaster die .scrub = .engine die := if_neg hdie
  change execRequestIssue die master loc res .scrub bytes (some (va, write)) s = _
  simp only [execRequestIssue, hmaster, sourceDie, sourceReaches, Bool.and_self, Bool.true_eq_false, reduceCtorEq, or_self,
    if_false, hx]

/-- A walk fills a translation buffer and changes nothing else. -/
theorem State.walked_only (s : State) (die ctx va : Nat) :
    s.walked die ctx va = { s with tlb := (s.walked die ctx va).tlb, freeCtr := (s.walked die ctx va).freeCtr } := by
  unfold State.walked
  split
  · rfl
  · cases s.walkEntry ctx va with
    | none => rfl
    | some e =>
      simp only [Option.elim_some, State.tlbFill]
      split
      · rfl
      · rfl

/-- REQUEST_ISSUE without an address: the request enters with its source's tag, and arrives within its master's limits. -/
theorem requestIssue_tagged (die master loc res bytes : Nat) (src : ReqSource) (s : State) (hdie : sourceDie die src = true)
    (hreach : sourceReaches loc res none src = true) (hroute : routeRes die loc res (sourceMaster die src) ≠ []) :
    ∃ t, exec (.requestIssue die master loc res src bytes none) s = .next t ∧ t.nextReq = s.nextReq + 1 ∧
      (∃ q ∈ t.requests, q.id = s.nextReq ∧ q.die = die ∧ q.master = master ∧ q.bytes = bytes ∧ q.granted = none ∧
        q.path = routeRes die loc res (sourceMaster die src) ∧ q.cls0 = (s.requestTag src).1 ∧ q.ctx = (s.requestTag src).2.1 ∧
        q.cls = (if die ≠ 0 ∧ q.loc = 0 ∧ q.cls0 = 0 then 1 else q.cls0) ∧ q.issued = s.localNow die ∧
        (q.deadline = if s.admits q then deadlineField ((s.requestTag src).2.2.map (fun d => d - s.localNow die)) else 65535) ∧
        (q.arrived = if s.admits q then some (s.localNow q.loc) else none)) ∧
      othersKept s t s.nextReq ∧ TrafficRegsOnly s t ∧
      t = { s with requests := t.requests, nextReq := t.nextReq, windows := t.windows, regs := t.regs, crust := t.crust } := by
  obtain ⟨⟨loc', res'⟩, route, hpath⟩ := List.exists_cons_of_ne_nil hroute
  have hexec := exec_requestIssue_of_reaches master bytes s hdie hreach
  rw [hpath] at hexec ⊢
  obtain ⟨hnext, hmem, hrest⟩ := s.issue_effect die master src bytes loc' res' route rfl rfl
  refine ⟨_, hexec, hnext, ⟨_, hmem, ?_⟩, hrest⟩
  set q := s.issuedRequest die master src bytes loc' res' route with hq
  by_cases hadmits : s.admits q = true
  · have hadmits' : s.admits ((s.hold q).arrivedRequest ((s.hold q).sentRequest q)) = true := hadmits
    rw [if_pos hadmits, if_pos hadmits', if_pos hadmits']
    exact ⟨rfl, rfl, rfl, rfl, rfl, rfl, rfl, rfl, rfl, rfl, rfl, rfl⟩
  · rw [if_neg hadmits, if_neg hadmits, if_neg hadmits]
    exact ⟨rfl, rfl, rfl, rfl, rfl, rfl, rfl, rfl, rfl, rfl, rfl, rfl⟩

/-- REQUEST_ISSUE of a scrub: the request goes to where its address leads. -/
theorem requestIssue_scrub {die va p : Nat} {write : Bool} {s : State} (master loc res bytes : Nat)
    (hx : s.translate (.engine die) (if write then .engineWrite else .read) (s.requestTag .scrub).2.1 va = .ok (.phys p))
    (hdie : die ≠ 1) (hroute : routeTo die (.phys p) ≠ []) :
    ∃ t, exec (.requestIssue die master loc res .scrub bytes (some (va, write))) s = .next t ∧
      (∃ q ∈ t.requests, q.id = s.nextReq ∧ q.path = routeTo die (.phys p) ∧ q.cls0 = 7) ∧ othersKept s t s.nextReq ∧
      TrafficRegsOnly s t := by
  obtain ⟨⟨loc', res'⟩, route, hpath⟩ := List.exists_cons_of_ne_nil hroute
  have hexec := exec_requestIssue_scrub master loc res bytes hx hdie
  have hwalked := s.walked_only die (s.requestTag .scrub).2.1 va
  have hregs := (congrArg State.regs hwalked :)
  have hreqs : (s.walked die (s.requestTag .scrub).2.1 va).requests = s.requests := (congrArg State.requests hwalked :)
  have hnext : (s.walked die (s.requestTag .scrub).2.1 va).nextReq = s.nextReq := (congrArg State.nextReq hwalked :)
  rw [hpath] at hexec ⊢
  obtain ⟨-, hmem, hothers, hblocks, -⟩ := (s.walked die (s.requestTag .scrub).2.1 va).issue_effect die master .scrub bytes loc' res'
    route rfl rfl
  rw [hnext] at hothers
  refine ⟨_, hexec, ⟨_, hmem, ?_⟩, fun x hx hid => hothers x (hreqs ▸ hx) hid,
    TrafficRegsOnly.trans (trafficRegsOnly_of_regs_eq hregs) hblocks⟩
  split
  · exact ⟨hnext, rfl, rfl⟩
  · exact ⟨hnext, rfl, rfl⟩

/-! ### Snapshots (R214) -/

theorem State.copyRegs_regs_only (s : State) (ps : List (Nat × Nat)) :
    s.copyRegs ps = { s with regs := (s.copyRegs ps).regs } := by
  induction ps generalizing s with
  | nil => rfl
  | cons p ps ih => exact ih (s.setReg p.2 (s.reg p.1))

theorem State.reg_copyRegs_ne (s : State) {ps : List (Nat × Nat)} {a : Nat} (h : ∀ p ∈ ps, a ≠ p.2) :
    (s.copyRegs ps).reg a = s.reg a := by
  induction ps generalizing s with
  | nil => rfl
  | cons p ps ih =>
    obtain ⟨hp, hps⟩ := List.forall_mem_cons.mp h
    exact (ih _ hps).trans (s.reg_setReg_ne _ hp)

/-- The shadows of a die lie in 4 KiB of their own. -/
theorem shadowPairs_range {die : Nat} {p : Nat × Nat} (hp : p ∈ shadowPairs die) :
    die * 0x1000000 + 0x52000 ≤ p.2 ∧ p.2 < die * 0x1000000 + 0x53000 := by
  simp only [shadowPairs, List.mem_flatMap, List.mem_range, List.mem_cons, List.not_mem_nil, or_false] at hp
  obtain ⟨r, hr, c, hc, rfl | rfl | rfl⟩ := hp
  · unfold Reg.MON_BYTES_SHADOW; dsimp only; omega
  · unfold Reg.MON_BYTES_SHADOW; dsimp only; omega
  · unfold Reg.MON_LATE_SHADOW; dsimp only; omega

/-- Registers copied to their shadows, with the instant, the number and the event of the snapshot. -/
def State.shadowed (s : State) (ps : List (Nat × Nat)) (at' time : Nat) (seq armed : Fld) (e : Evt) : State :=
  let s1 := (s.copyRegs ps).setReg64 at' time
  ((s1.setFld seq (s1.fld seq + 1)).setFld armed 0).event e

theorem State.takeSnapshot_eq (s : State) (die : Nat) :
    s.takeSnapshot die =
      if s.flag (Fld.MON_SNAP_STATUS_armed die) && decide (s.reg64 (Reg.MON_SNAP_TIME die) ≤ s.localNow die) then
        s.shadowed (shadowPairs die) (Reg.MON_SNAP_AT die) (s.reg64 (Reg.MON_SNAP_TIME die)) (Fld.MON_SNAP_STATUS_seq die)
          (Fld.MON_SNAP_STATUS_armed die) (Ev.MON_SNAP_STATUS_taken die)
      else s := rfl

theorem State.shadowed_regs_only (s : State) (ps : List (Nat × Nat)) (at' time : Nat) (seq armed : Fld) (e : Evt) :
    s.shadowed ps at' time seq armed e = { s with regs := (s.shadowed ps at' time seq armed e).regs } := by
  unfold State.shadowed
  dsimp only
  rw [State.setFld_regs_only (State.setFld ..) armed, State.setFld_regs_only _ seq, State.copyRegs_regs_only s ps]
  rfl

theorem State.reg_shadowed_ne (s : State) {ps : List (Nat × Nat)} {at' addr lo lo' w w' bit counter a : Nat} (time : Nat)
    (hw : lo + w ≤ 32) (hw' : lo' + w' ≤ 32) (hps : ∀ p ∈ ps, a ≠ p.2) (hat : a ≠ at') (hat' : a ≠ at' + 4) (ha : a ≠ addr)
    (hc : a ≠ counter) :
    (s.shadowed ps at' time ⟨addr, lo, w⟩ ⟨addr, lo', w'⟩ ⟨addr, bit, counter⟩).reg a = s.reg a := by
  unfold State.shadowed
  dsimp only
  rw [State.reg_event_ne _ ha hc, State.reg_setFld_ne _ 0 hw' ha, State.reg_setFld_ne _ _ hw ha, State.reg_setReg64_ne _ _ hat hat',
    State.reg_copyRegs_ne _ hps]

theorem State.takeSnapshot_regs_only (s : State) (die : Nat) : s.takeSnapshot die = { s with regs := (s.takeSnapshot die).regs } := by
  rw [s.takeSnapshot_eq die]
  split
  · exact State.shadowed_regs_only ..
  · rfl

/-- A snapshot changes the status of snapshots and the shadows of its die alone. -/
theorem State.reg_takeSnapshot_ne (s : State) {die a : Nat}
    (h : ¬(die * 0x1000000 + 0x50000 ≤ a ∧ a < die * 0x1000000 + 0x51000))
    (h' : ¬(die * 0x1000000 + 0x52000 ≤ a ∧ a < die * 0x1000000 + 0x53000)) : (s.takeSnapshot die).reg a = s.reg a := by
  have hps : ∀ p ∈ shadowPairs die, a ≠ p.2 := fun p hp hap => h' (hap ▸ shadowPairs_range hp)
  have hne (offset : Nat) (hle : 0x50000 ≤ offset) (hlt : offset < 0x51000) : a ≠ die * 0x1000000 + offset := by omega
  rw [s.takeSnapshot_eq die]
  split
  · exact State.reg_shadowed_ne s _ (by decide) (by decide) hps (hne 0x50018 (by decide) (by decide))
      (hne 0x5001C (by decide) (by decide)) (hne 0x50008 (by decide) (by decide)) (hne 0x5000C (by decide) (by decide))
  · rfl

theorem State.takeSnapshot_requests (s : State) (die : Nat) : (s.takeSnapshot die).requests = s.requests :=
  (congrArg State.requests (s.takeSnapshot_regs_only die) :)

theorem State.takeSnapshot_frame (s : State) (die : Nat) : TrafficFrame s (s.takeSnapshot die) := by
  have hwindows : (s.takeSnapshot die).windows = s.windows := (congrArg State.windows (s.takeSnapshot_regs_only die) :)
  have hcrust : (s.takeSnapshot die).crust = s.crust := (congrArg State.crust (s.takeSnapshot_regs_only die) :)
  unfold TrafficFrame
  rw [s.takeSnapshot_requests die, hwindows, hcrust]
  exact s.takeSnapshot_regs_only die

theorem State.takeSnapshot_trafficRegsOnly (s : State) (die : Nat) : TrafficRegsOnly s (s.takeSnapshot die) :=
  fun _ _ h5 => s.reg_takeSnapshot_ne (by omega) (by omega)

theorem State.waitingAt_takeSnapshot (s : State) (die loc res : Nat) : waitingAt (s.takeSnapshot die) loc res = waitingAt s loc res := by
  rw [waitingAt, s.takeSnapshot_requests die]
  rfl

/-- The byte counters lie outside the shadows and the status of snapshots. -/
theorem State.reg64_bytes_takeSnapshot (s : State) (die : Nat) {res cls : Nat} (hres : res < 10) (hcls : cls < 8) :
    (s.takeSnapshot die).reg64 (Reg.MON_BYTES die res cls) = s.reg64 (Reg.MON_BYTES die res cls) := by
  unfold State.reg64 Reg.MON_BYTES
  rw [s.reg_takeSnapshot_ne (by omega) (by omega), s.reg_takeSnapshot_ne (by omega) (by omega)]

/-! ### The choice of an arbiter (R210) -/

/-- The request that is granted of those that wait. -/
def State.firstGranted (s : State) (t : Nat) (p : Request) (rest : List Request) : Request :=
  rest.foldl (fun (b x : Request) => if s.before t x b then x else b) p

theorem State.effectiveClass_le_of_before {s : State} {t : Nat} {x y : Request} (h : s.before t x y = true) :
    s.effectiveClass x t ≤ s.effectiveClass y t := by
  by_contra hlt
  have hne : s.effectiveClass x t ≠ s.effectiveClass y t := by omega
  simp only [State.before, hne, ne_eq, not_false_eq_true, if_true, decide_eq_true_eq] at h
  omega

theorem State.effectiveClass_le_of_not_before {s : State} {t : Nat} {x y : Request} (h : s.before t x y = false) :
    s.effectiveClass y t ≤ s.effectiveClass x t := by
  by_contra hlt
  have hne : s.effectiveClass x t ≠ s.effectiveClass y t := by omega
  simp only [State.before, hne, ne_eq, not_false_eq_true, if_true, decide_eq_false_iff_not] at h
  omega

theorem State.firstGranted_mem (s : State) (t : Nat) (p : Request) (rest : List Request) : s.firstGranted t p rest ∈ p :: rest := by
  induction rest generalizing p with
  | nil => exact List.mem_singleton_self p
  | cons x xs ih =>
    have hrec : s.firstGranted t p (x :: xs) = s.firstGranted t (if s.before t x p then x else p) xs := rfl
    rw [hrec]
    rcases List.mem_cons.mp (ih (if s.before t x p then x else p)) with hhead | htail
    · rw [hhead]
      split
      · exact List.mem_cons_of_mem _ List.mem_cons_self
      · exact List.mem_cons_self
    · exact List.mem_cons_of_mem _ (List.mem_cons_of_mem _ htail)

/-- No request that waits is of a lower effective class than the one granted. -/
theorem State.effectiveClass_firstGranted_le (s : State) (t : Nat) (p : Request) (rest : List Request) {x : Request}
    (hx : x ∈ p :: rest) : s.effectiveClass (s.firstGranted t p rest) t ≤ s.effectiveClass x t := by
  induction rest generalizing p x with
  | nil =>
    obtain rfl := List.mem_singleton.mp hx
    exact Nat.le_refl _
  | cons y ys ih =>
    have hrec : s.firstGranted t p (y :: ys) = s.firstGranted t (if s.before t y p then y else p) ys := rfl
    rw [hrec]
    have hbest := ih (if s.before t y p then y else p) List.mem_cons_self
    rcases List.mem_cons.mp hx with rfl | hx
    · refine hbest.trans ?_
      split
      · next h => exact State.effectiveClass_le_of_before h
      · exact Nat.le_refl _
    · rcases List.mem_cons.mp hx with rfl | hx
      · refine hbest.trans ?_
        split
        · exact Nat.le_refl _
        · next h => exact State.effectiveClass_le_of_not_before (Bool.eq_false_of_not_eq_true h)
      · exact ih _ (List.mem_cons_of_mem _ hx)

/-! ### Grants (R204, R210, R212, R213) -/

/-- A grant's bytes counted against the window of the request's record. -/
def State.chargeWindow (s : State) (loc : Nat) (q : Request) (n : Nat) : State :=
  match q.record with
  | none => s
  | some i =>
    let w : BudgetWindow := Sparse.get (fun _ => {}) s.windows (windowKey loc i)
    { s with windows := Sparse.put (fun _ => {}) s.windows (windowKey loc i) { w with bytes := w.bytes + n } }

/-- A unit granted to a request counted against its window and in the byte counter of its class. -/
def State.charge (s : State) (loc res : Nat) (q : Request) : State :=
  (s.chargeWindow loc q (min q.left (s.grantUnit q))).count64 (Reg.MON_BYTES loc res q.cls) (min q.left (s.grantUnit q))

/-- A unit granted to a request: it waits on with the rest, or passes on. -/
def State.grantTo (s : State) (loc res : Nat) (q : Request) : State :=
  if min q.left (s.grantUnit q) < q.left then
    { s.charge loc res q with
      requests := (s.charge loc res q).requests.map
        (fun (x : Request) => if x.id = q.id then { x with left := q.left - min q.left (s.grantUnit q) } else x) }
  else (s.charge loc res q).pass { q with left := 0 }

/-- ARBITER_GRANT where requests wait. -/
theorem exec_arbiterGrant {loc res : Nat} {s s0 : State} {p : Request} {rest : List Request}
    (hs0 : s0 = (rolledAt s loc res).takeSnapshot loc) (h : waitingAt s0 loc res = p :: rest) :
    exec (.arbiterGrant loc res) s = .next (s0.grantTo loc res (s0.firstGranted (s0.localNow loc) p rest)) := by
  subst hs0
  change execArbiterGrant loc res s = _
  unfold execArbiterGrant
  dsimp only
  congr 1
  split
  · next hnil => exact absurd (h.symm.trans hnil) nofun
  · next p' rest' hcons =>
    obtain ⟨rfl, rfl⟩ := List.cons.inj (h.symm.trans hcons)
    rfl

theorem State.chargeWindow_windows_only (s : State) (loc : Nat) (q : Request) (n : Nat) :
    s.chargeWindow loc q n = { s with windows := (s.chargeWindow loc q n).windows } := by
  unfold State.chargeWindow
  cases q.record with
  | none => rfl
  | some i => rfl

theorem State.chargeWindow_regs (s : State) (loc : Nat) (q : Request) (n : Nat) : (s.chargeWindow loc q n).regs = s.regs :=
  (congrArg State.regs (s.chargeWindow_windows_only loc q n) :)

theorem State.count64_chargeWindow_only (s : State) (loc : Nat) (q : Request) (n a m : Nat) :
    (s.chargeWindow loc q n).count64 a m =
      { s with windows := ((s.chargeWindow loc q n).count64 a m).windows, regs := ((s.chargeWindow loc q n).count64 a m).regs } :=
  (congrArg (fun r : State => { r with regs := ((s.chargeWindow loc q n).count64 a m).regs }) (s.chargeWindow_windows_only loc q n) :)

theorem State.charge_only (s : State) (loc res : Nat) (q : Request) :
    s.charge loc res q = { s with windows := (s.charge loc res q).windows, regs := (s.charge loc res q).regs } := by
  unfold State.charge
  exact State.count64_chargeWindow_only ..

theorem State.charge_requests (s : State) (loc res : Nat) (q : Request) : (s.charge loc res q).requests = s.requests :=
  (congrArg State.requests (s.charge_only loc res q) :)

theorem State.charge_frame (s : State) (loc res : Nat) (q : Request) : TrafficFrame s (s.charge loc res q) := by
  have hcrust : (s.charge loc res q).crust = s.crust := (congrArg State.crust (s.charge_only loc res q) :)
  unfold TrafficFrame
  rw [s.charge_requests loc res q, hcrust]
  exact s.charge_only loc res q

theorem State.reg64_charge (s : State) (loc res : Nat) (q : Request) :
    (s.charge loc res q).reg64 (Reg.MON_BYTES loc res q.cls) =
      (s.reg64 (Reg.MON_BYTES loc res q.cls) + min q.left (s.grantUnit q)) % 2 ^ 64 := by
  have hregs := s.chargeWindow_regs loc q (min q.left (s.grantUnit q))
  have hold (a : Nat) : (s.chargeWindow loc q (min q.left (s.grantUnit q))).reg64 a = s.reg64 a := by
    unfold State.reg64
    rw [State.reg_congr hregs, State.reg_congr hregs]
  rw [State.charge, State.reg64_count64, hold]

theorem State.charge_trafficRegsOnly (s : State) {loc res : Nat} {q : Request} (hres : res < 10) (hcls : q.cls < 8) :
    TrafficRegsOnly s (s.charge loc res q) := by
  intro a _ h5
  unfold State.charge State.count64 Reg.MON_BYTES
  rw [State.reg_setReg64_ne _ _ (by omega) (by omega), State.reg_congr (State.chargeWindow_regs ..)]

/-- A request that stands at its next arbiter, with what remains to its deadline when it leaves the die (R204). -/
def State.passedOn (s : State) (q : Request) (loc res : Nat) (route : List (Nat × Nat)) : Request :=
  { q with
    loc := loc, res := res, route := route, passed := q.passed ++ [(q.loc, q.res, q.cls, q.record)]
    cls := ingressClass q.die loc q.cls0
    deadline := if q.deadline = 0xFFFF then 0xFFFF else q.deadline - ceilDiv ((s.localNow q.loc : Int) - q.entered).toNat 32
    record := s.classRecord q.ctx (ingressClass q.die loc q.cls0) res, entered := s.localNow loc }

theorem State.pass_of_last {s : State} {q : Request} (h : q.route = []) :
    s.pass q = { s with requests := s.requests.map (fun (x : Request) =>
      if x.id = q.id then { q with granted := some (s.localNow q.loc) } else x) } := by
  simp only [State.pass, h]

theorem State.pass_of_next {s : State} {q : Request} {loc res : Nat} {route : List (Nat × Nat)} (h : q.route = (loc, res) :: route) :
    s.pass q = s.arrive (s.passedOn q loc res route) := by
  simp only [State.pass, h, State.passedOn]

/-- A request that has been served where it stands leaves every other request, and every register outside the block TCL. -/
theorem State.pass_keeps (s : State) (q : Request) :
    othersKept s (s.pass q) q.id ∧ (∀ a, a / 65536 % 256 ≠ 4 → (s.pass q).reg a = s.reg a) ∧ TrafficFrame s (s.pass q) := by
  cases hroute : q.route with
  | nil =>
    rw [State.pass_of_last hroute]
    exact ⟨othersKept_of_map rfl, fun a _ => State.reg_with_requests .., .with_requests ..⟩
  | cons p route =>
    obtain ⟨loc, res⟩ := p
    rw [State.pass_of_next hroute]
    obtain ⟨-, hregs, hframe⟩ := s.arrive_effect (s.passedOn q loc res route)
    exact ⟨s.arrive_othersKept (s.passedOn q loc res route), hregs, hframe⟩

theorem State.grantTo_of_partial {s : State} {q : Request} (loc res : Nat) (h : s.grantUnit q < q.left) :
    s.grantTo loc res q = { s.charge loc res q with
      requests := s.requests.map (fun (x : Request) => if x.id = q.id then { x with left := q.left - s.grantUnit q } else x) } := by
  have hunit : min q.left (s.grantUnit q) = s.grantUnit q := Nat.min_eq_right (Nat.le_of_lt h)
  simp only [State.grantTo, hunit, if_pos h, State.charge_requests]

theorem State.grantTo_of_whole {s : State} {q : Request} (loc res : Nat) (h : q.left ≤ s.grantUnit q) :
    s.grantTo loc res q = (s.charge loc res q).pass { q with left := 0 } := by
  have hunit : ¬ min q.left (s.grantUnit q) < q.left := by omega
  rw [State.grantTo, if_neg hunit]

/-- Once a grant's bytes are counted, it changes one request, and no register outside the block TCL. -/
theorem State.grantTo_effect (s : State) (loc res : Nat) (q : Request) :
    othersKept s (s.grantTo loc res q) q.id ∧
      (∀ a, a / 65536 % 256 ≠ 4 → (s.grantTo loc res q).reg a = (s.charge loc res q).reg a) ∧
      TrafficFrame s (s.grantTo loc res q) := by
  have hcharge := s.charge_frame loc res q
  by_cases h : s.grantUnit q < q.left
  · rw [State.grantTo_of_partial loc res h]
    exact ⟨othersKept_of_map rfl, fun a _ => State.reg_with_requests .., hcharge.trans (.with_requests ..)⟩
  · rw [State.grantTo_of_whole loc res (Nat.le_of_not_lt h)]
    obtain ⟨hothers, hregs, hframe⟩ := (s.charge loc res q).pass_keeps { q with left := 0 }
    exact ⟨fun x hx => hothers x (s.charge_requests loc res q ▸ hx), hregs, hcharge.trans hframe⟩

/-- The byte counters lie in the block MON. -/
theorem bytes_block_ne {loc res cls : Nat} (hres : res < 10) (hcls : cls < 8) :
    Reg.MON_BYTES loc res cls / 65536 % 256 ≠ 4 ∧ (Reg.MON_BYTES loc res cls + 4) / 65536 % 256 ≠ 4 := by
  unfold Reg.MON_BYTES
  omega

theorem State.reg64_bytes_grantTo (s : State) {loc res : Nat} {q : Request} (hres : res < 10) (hcls : q.cls < 8) :
    (s.grantTo loc res q).reg64 (Reg.MON_BYTES loc res q.cls) =
      (s.reg64 (Reg.MON_BYTES loc res q.cls) + min q.left (s.grantUnit q)) % 2 ^ 64 := by
  obtain ⟨-, hregs, -⟩ := s.grantTo_effect loc res q
  obtain ⟨hlow, hhigh⟩ := bytes_block_ne (loc := loc) hres hcls
  rw [← s.reg64_charge loc res q, State.reg64, hregs _ hlow, hregs _ hhigh, State.reg64]

/-- A request with bytes left waits on. -/
theorem State.grantTo_mem_of_partial {s : State} {q : Request} (loc res : Nat) (hq : q ∈ s.requests) (h : s.grantUnit q < q.left) :
    ({ q with left := q.left - s.grantUnit q } : Request) ∈ (s.grantTo loc res q).requests := by
  rw [State.grantTo_of_partial loc res h]
  exact List.mem_map.mpr ⟨q, hq, if_pos rfl⟩

/-- A request served whole at its last resource waits for its completion. -/
theorem State.grantTo_mem_of_last {s : State} {q : Request} (loc res : Nat) (hq : q ∈ s.requests) (h : q.left ≤ s.grantUnit q)
    (hroute : q.route = []) :
    ({ q with left := 0, granted := some (s.localNow q.loc) } : Request) ∈ (s.grantTo loc res q).requests := by
  have hnow := (s.charge_frame loc res q).localNow q.loc
  rw [State.grantTo_of_whole loc res h, State.pass_of_last (q := { q with left := 0 }) hroute, s.charge_requests loc res q]
  exact List.mem_map.mpr ⟨q, hq, (if_pos rfl).trans (by rw [hnow])⟩

/-- A request served whole before its last resource stands at the next, less the time it spent on the die (R204). -/
theorem State.grantTo_mem_of_next {s : State} {q : Request} (loc res : Nat) (hq : q ∈ s.requests) (h : q.left ≤ s.grantUnit q)
    (hroute : q.route ≠ []) :
    ∃ y ∈ (s.grantTo loc res q).requests, y.id = q.id ∧ y.path = q.path ∧ (y.loc, y.res) = q.route.headD (0, 0) ∧
      y.left = q.bytes ∧ y.arrived = some (s.localNow y.loc : Int) ∧
      y.deadline = (if q.deadline = 65535 then 65535 else q.deadline - ceilDiv ((s.localNow q.loc : Int) - q.entered).toNat 32) := by
  obtain ⟨⟨loc', res'⟩, route, hpath⟩ := List.exists_cons_of_ne_nil hroute
  have hnow := (s.charge_frame loc res q).localNow
  have hmem : q ∈ (s.charge loc res q).requests := s.charge_requests loc res q ▸ hq
  rw [State.grantTo_of_whole loc res h, State.pass_of_next (q := { q with left := 0 }) hpath]
  refine ⟨_, State.arrivedRequest_mem hmem rfl, rfl, ?_, by rw [hpath]; rfl, rfl, ?_, ?_⟩
  · simp only [Request.path, State.arrivedRequest, State.passedOn, hpath, List.map_append, List.append_assoc]
    rfl
  · exact congrArg (fun n : Nat => some (n : Int)) (hnow loc')
  · simp only [State.arrivedRequest, State.passedOn, hnow]

/-- ARBITER_GRANT: a unit of one of the waiting requests of the lowest effective class is granted and counted. -/
theorem arbiterGrant_grants_lowest {loc res : Nat} {s : State} (hres : res < 10) (hwait : waitingAt s loc res ≠ [])
    (hcls : ∀ q ∈ waitingAt s loc res, q.cls < 8) :
    ∃ t, exec (.arbiterGrant loc res) s = .next t ∧
      (∃ q ∈ waitingAt (rolledAt s loc res) loc res,
        (∀ x ∈ waitingAt (rolledAt s loc res) loc res,
          (rolledAt s loc res).effectiveClass q (s.localNow loc) ≤ (rolledAt s loc res).effectiveClass x (s.localNow loc)) ∧
        t.reg64 (Reg.MON_BYTES loc res q.cls) = (s.reg64 (Reg.MON_BYTES loc res q.cls) + min q.left (s.grantUnit q)) % 2 ^ 64 ∧
        (s.grantUnit q < q.left → ({ q with left := q.left - s.grantUnit q } : Request) ∈ t.requests) ∧
        (q.left ≤ s.grantUnit q → q.route = [] →
          ({ q with left := 0, granted := some (s.localNow loc) } : Request) ∈ t.requests) ∧
        (q.left ≤ s.grantUnit q → q.route ≠ [] →
          ∃ y ∈ t.requests, y.id = q.id ∧ y.path = q.path ∧ (y.loc, y.res) = q.route.headD (0, 0) ∧
          y.left = q.bytes ∧ y.arrived = some (s.localNow y.loc) ∧
          y.deadline = (if q.deadline = 65535 then 65535 else q.deadline - ceilDiv ((s.localNow loc : Int) - q.entered).toNat 32)) ∧
        othersKept s t q.id) ∧
      TrafficRegsOnly s t ∧ t = { s with requests := t.requests, windows := t.windows, regs := t.regs, crust := t.crust } := by
  have hroll := rolled_rolledAt s loc res
  obtain ⟨mark, hmarked⟩ := hroll.waitingAt_eq loc res
  obtain ⟨p, rest, hcons⟩ : ∃ p rest, waitingAt (rolledAt s loc res) loc res = p :: rest :=
    List.exists_cons_of_ne_nil (by rw [hmarked]; simpa using hwait)
  have hsnap := (rolledAt s loc res).takeSnapshot_frame loc
  have hreqs := (rolledAt s loc res).takeSnapshot_requests loc
  have hkeeps := (rolledAt s loc res).takeSnapshot_trafficRegsOnly loc
  have hbytes (c : Nat) := (rolledAt s loc res).reg64_bytes_takeSnapshot loc (cls := c) hres
  have hhere := (rolledAt s loc res).waitingAt_takeSnapshot loc loc res
  have hexec := exec_arbiterGrant rfl (hhere.trans hcons)
  set s0 := (rolledAt s loc res).takeSnapshot loc
  have hframe : TrafficFrame s s0 := hroll.frame.trans hsnap
  have hnow : s0.localNow loc = s.localNow loc := hframe.localNow loc
  rw [hnow] at hexec
  set q := s0.firstGranted (s.localNow loc) p rest
  have hq : q ∈ waitingAt (rolledAt s loc res) loc res := hcons ▸ s0.firstGranted_mem (s.localNow loc) p rest
  obtain ⟨hstood, hloc, -⟩ := mem_waitingAt.mp hq
  have hheld : q ∈ s0.requests := hreqs ▸ hstood
  have hclass : q.cls < 8 := by
    obtain ⟨x, hx, hxq⟩ := List.mem_map.mp (hmarked ▸ hq)
    exact hxq ▸ hcls x hx
  have hunit : s0.grantUnit q = s.grantUnit q := hframe.grantUnit q
  obtain ⟨hothers, hregs, hgrant⟩ := s0.grantTo_effect loc res q
  refine ⟨_, hexec, ⟨q, hq, fun x hx => ?lowest, ?counted, fun hpart => ?waitsOn, fun hall hlast => ?served, fun hall hnext => ?passed,
    othersKept.trans (hroll.othersKept q.id) fun x hx => hothers x (hreqs ▸ hx)⟩, ?blocks, hframe.trans hgrant⟩
  case lowest =>
    rw [← hsnap.effectiveClass, ← hsnap.effectiveClass]
    exact s0.effectiveClass_firstGranted_le _ p rest (hcons ▸ hx)
  case counted =>
    have hcount := s0.reg64_bytes_grantTo (loc := loc) hres hclass
    rw [hbytes q.cls hclass, hunit] at hcount
    rw [hcount]
    unfold State.reg64
    rw [State.reg_congr hroll.regs, State.reg_congr hroll.regs]
  case waitsOn => exact hunit ▸ State.grantTo_mem_of_partial loc res hheld (hunit ▸ hpart)
  case served =>
    have hmem := State.grantTo_mem_of_last loc res hheld (hunit ▸ hall) hlast
    rwa [(congrArg s0.localNow hloc).trans hnow] at hmem
  case passed =>
    have hmem := State.grantTo_mem_of_next loc res hheld (hunit ▸ hall) hnext
    simp only [hloc, hframe.localNow] at hmem
    exact hmem
  case blocks =>
    exact TrafficRegsOnly.trans (trafficRegsOnly_of_regs_eq hroll.regs) (TrafficRegsOnly.trans hkeeps
      (TrafficRegsOnly.trans (s0.charge_trafficRegsOnly hres hclass) fun a h4 _ => hregs a h4))

/-! ### The obligation -/

/-- Settles O12: a request that is issued is held and sent (`State.issue_effect`); the request that is granted is first in the order
of R210, and what becomes of it is what `State.grantTo` does, once windows are rolled and a snapshot that is due is taken. -/
theorem requests : Obligations.Requests := by
  unfold Obligations.Requests
  exact ⟨requestIssue_tagged, fun die master loc res bytes va write p s => requestIssue_scrub master loc res bytes,
    fun loc res s _ hres => arbiterGrant_grants_lowest hres⟩

end Sys2Proof.Machine
end

section
/-! Integer arithmetic (chapter 02): the rounding primitives and saturation, accumulators whose blocks share one scale product and one
exponent, the block sums of a GEMM element, and the statements about them. -/

namespace Sys2Proof.Machine

/-! ### Rounding (R29) -/

/-- A rounded quotient is the floor, which leaves the remainder, where that is below half the divisor or is half of it over an even
floor; otherwise it is the floor plus one, which leaves the remainder less the divisor. -/
theorem divRne_cases (n den : Int) :
    (divRne n den = n / den ∧ n - divRne n den * den = n % den ∧
      (2 * (n % den) < den ∨ 2 * (n % den) = den ∧ n / den % 2 = 0)) ∨
    (divRne n den = n / den + 1 ∧ n - divRne n den * den = n % den - den ∧
      (den < 2 * (n % den) ∨ 2 * (n % den) = den ∧ n / den % 2 = 1)) := by
  have hrem : n - n / den * den = n % den := by rw [Int.emod_def, Int.mul_comm]
  unfold divRne
  simp only [hrem, Bool.or_eq_true, Bool.and_eq_true, decide_eq_true_eq, beq_iff_eq]
  split
  · exact .inr ⟨rfl, by rw [Int.add_mul, Int.one_mul, ← hrem, sub_sub], by omega⟩
  · exact .inl ⟨rfl, hrem, by omega⟩

/-- A rounded quotient is a nearest integer. -/
theorem two_mul_natAbs_sub_divRne_le (n : Int) {den : Int} (hden : 0 < den) :
    2 * ((n - divRne n den * den).natAbs : Int) ≤ den := by
  have hpos := Int.emod_nonneg n hden.ne'
  have hlt := Int.emod_lt_of_pos n hden
  rcases divRne_cases n den with ⟨-, hleft, hhalf⟩ | ⟨-, hleft, hhalf⟩ <;> rw [hleft] <;> omega

/-- A rounded quotient is even where two integers are nearest. -/
theorem divRne_even_of_tie {n den : Int} (hden : 0 < den) (htie : 2 * ((n - divRne n den * den).natAbs : Int) = den) :
    divRne n den % 2 = 0 := by
  have hpos := Int.emod_nonneg n hden.ne'
  have hlt := Int.emod_lt_of_pos n hden
  rcases divRne_cases n den with ⟨hq, hleft, hhalf⟩ | ⟨hq, hleft, hhalf⟩ <;> rw [hleft] at htie <;> omega

/-- A right shift below 64 is the rounded quotient by its power of two. -/
theorem rshiftRne_eq_divRne (x : Int) {d : Int} (hpos : 0 < d) (hlt : d < 64) : rshiftRne x d = divRne x (2 ^ d.toNat) := by
  rw [rshiftRne, if_neg (by omega), if_neg (by omega), divRne]

theorem rshiftRne_neg (x : Int) (n : Nat) : rshiftRne x (-(n : Int)) = x * 2 ^ n := by
  rw [rshiftRne, if_pos (by omega), Int.neg_neg, Int.toNat_natCast]

@[simp] theorem rshiftRne_zero (x : Int) : rshiftRne x 0 = x := by
  simpa using rshiftRne_neg x 0

theorem rshiftRne_of_ge (x : Int) {d : Int} (h : 64 ≤ d) : rshiftRne x d = 0 := by
  rw [rshiftRne, if_neg (by omega), if_pos h]

/-! ### Saturation (R30, R34) -/

theorem clampI_mem {lo hi : Int} (h : lo ≤ hi) (v : Int) : lo ≤ clampI lo hi v ∧ clampI lo hi v ≤ hi := by
  unfold clampI
  split_ifs <;> omega

theorem clampI_of_mem {lo hi v : Int} (hlo : lo ≤ v) (hhi : v ≤ hi) : clampI lo hi v = v := by
  rw [clampI, if_neg (by omega), if_neg (by omega)]

theorem formatHi_nonneg (f : Format) : 0 ≤ formatHi f := by
  have hpow (k : Nat) : (0 : Int) < 2 ^ k := by positivity
  unfold formatHi
  split_ifs
  · decide
  · have := hpow (formatWidth f); omega
  · have := hpow (formatWidth f - 1); omega

theorem formatLo_nonpos (f : Format) (sym : Bool) : formatLo f sym ≤ 0 := by
  unfold formatLo
  split_ifs
  · decide
  · exact le_rfl
  · exact neg_nonpos.mpr (formatHi_nonneg f)
  · exact neg_nonpos.mpr (by positivity)

theorem satTo_eq {f : Format} (sym : Bool) (v : Int) (hf : f ≠ .bin1) :
    satTo f sym v = (clampI (formatLo f sym) (formatHi f) v, decide (clampI (formatLo f sym) (formatHi f) v ≠ v)) := by
  rw [satTo, if_neg hf]

theorem satTo_mem {f : Format} (sym : Bool) (v : Int) (hf : f ≠ .bin1) :
    formatLo f sym ≤ (satTo f sym v).1 ∧ (satTo f sym v).1 ≤ formatHi f := by
  rw [satTo_eq sym v hf]
  exact clampI_mem ((formatLo_nonpos f sym).trans (formatHi_nonneg f)) v

theorem satTo_flag_iff {f : Format} (sym : Bool) (v : Int) (hf : f ≠ .bin1) :
    (satTo f sym v).2 = true ↔ (satTo f sym v).1 ≠ v := by
  rw [satTo_eq sym v hf, decide_eq_true_iff]

theorem satTo_of_mem {f : Format} {sym : Bool} {v : Int} (hf : f ≠ .bin1) (hlo : formatLo f sym ≤ v) (hhi : v ≤ formatHi f) :
    satTo f sym v = (v, false) := by
  rw [satTo_eq sym v hf, clampI_of_mem hlo hhi, decide_eq_false (not_not.mpr rfl)]

/-- A value within INT48 enters an accumulator as it is. -/
theorem sat48_of_natAbs_lt {v : Int} (h : v.natAbs < 2 ^ 47) : sat48 v = (v, false) := by
  have hlo : formatLo .int48 false = -2 ^ 47 := rfl
  have hhi : formatHi .int48 = 2 ^ 47 - 1 := rfl
  exact satTo_of_mem (by decide) (by rw [hlo]; omega) (by rw [hhi]; omega)

/-- Settles O23: a right shift is a rounded quotient (`rshiftRne_eq_divRne`), a rounded quotient leaves at most half the divisor
(`divRne_cases`), and a saturation is a clamp into a range that is not empty. -/
theorem roundingAndSaturation : Obligations.RoundingAndSaturation := by
  unfold Obligations.RoundingAndSaturation
  refine ⟨fun x d hpos hlt => ?shift, rshiftRne_neg, fun x d => rshiftRne_of_ge x, fun n den hden => ?quotient,
    fun f sym v hf => ?saturation⟩
  case shift =>
    have hden : (0 : Int) < 2 ^ d.toNat := by positivity
    rw [rshiftRne_eq_divRne x hpos hlt]
    exact ⟨by exact_mod_cast two_mul_natAbs_sub_divRne_le x hden, fun htie => divRne_even_of_tie hden (by exact_mod_cast htie)⟩
  case quotient =>
    have hle := two_mul_natAbs_sub_divRne_le n hden
    exact ⟨by omega, divRne_even_of_tie hden⟩
  case saturation =>
    obtain ⟨hlo, hhi⟩ := satTo_mem sym v hf
    exact ⟨hlo, hhi, satTo_flag_iff sym v hf, satTo_of_mem hf⟩

/-! ### Accumulators whose terms share one scale product and one exponent (R38, R39) -/

/-- The terms of an accumulator whose blocks all have one scale product and one exponent. -/
def uniformTerms (m : Nat) (e : Int) (sums : List Int) : List Term := sums.map fun q => ⟨q, m, e⟩

section Uniform
variable {m : Nat} (e : Int)

theorem uniformTerms_concat (sums : List Int) (q : Int) :
    uniformTerms m e (sums ++ [q]) = uniformTerms m e sums ++ [⟨q, m, e⟩] := List.map_append

/-- The accumulator's exponent is the one of its terms. -/
theorem accExponent_uniformTerms (hm : m ≠ 0) {sums : List Int} (h : sums ≠ []) :
    accExponent 0 (uniformTerms m e sums) = some e := by
  induction sums using List.reverseRecOn with
  | nil => exact absurd rfl h
  | append_singleton sums q ih =>
    rw [uniformTerms_concat, accExponent, List.foldl_append, ← accExponent]
    by_cases hnil : sums = []
    · subst hnil
      simp [uniformTerms, accExponent, hm]
    · simp [ih hnil, hm]

/-- Every shift is 0, so the accumulator is exact where no partial sum leaves INT48. -/
theorem accSum_uniformTerms (hm : m ≠ 0) {sums : List Int} (h : ∀ p, p <+: sums → (p.sum * m).natAbs < 2 ^ 47) :
    accSum e (uniformTerms m e sums) = (sums.sum * m, false) := by
  induction sums using List.reverseRecOn with
  | nil => simp [uniformTerms, accSum]
  | append_singleton sums q ih =>
    have hsum : sums.sum * m + q * m = (sums ++ [q]).sum * m := by simp [add_mul]
    have hfits := sat48_of_natAbs_lt (h _ List.prefix_rfl)
    rw [uniformTerms_concat, accSum, List.foldl_append, ← accSum, ih fun p hp => h p (hp.trans (List.prefix_append ..))]
    simp only [List.foldl_cons, List.foldl_nil, if_neg hm, sub_self, rshiftRne_zero, hsum, hfits, Bool.or_self]

theorem accumulate_uniformTerms (hm : m ≠ 0) {sums : List Int} (hne : sums ≠ [])
    (h : ∀ p, p <+: sums → (p.sum * m).natAbs < 2 ^ 47) :
    accumulate 0 [uniformTerms m e sums] = (sums.sum * m, e, false) := by
  have hexp : accExponent 0 [uniformTerms m e sums].flatten = some e := by
    rw [List.flatten_singleton, accExponent_uniformTerms e hm hne]
  have hfits := sat48_of_natAbs_lt (h _ List.prefix_rfl)
  simp only [accumulate, hexp, List.map_cons, List.map_nil, List.foldl_cons, List.foldl_nil, accSum_uniformTerms e hm h, zero_add,
    hfits, Bool.or_self]

end Uniform

/-! ### The blocks of a reduction (R37) -/

/-- The sum S_b of block b, in blocks of w over the k products f. -/
def blockSum (f : Nat → Int) (w k b : Nat) : Int :=
  ((List.range (min k ((b + 1) * w) - b * w)).map fun x => f (b * w + x)).sum

/-- The first c blocks sum the products before the end of block c - 1. -/
theorem sum_blockSum (f : Nat → Int) (w k c : Nat) :
    ((List.range c).map (blockSum f w k)).sum = ((List.range (min k (c * w))).map f).sum := by
  induction c with
  | zero => simp
  | succ c ih =>
    rw [List.range_succ, List.map_append, List.sum_append, ih, List.map_singleton, List.sum_singleton, blockSum]
    have hstep : c * w ≤ (c + 1) * w := Nat.mul_le_mul_right w (Nat.le_succ c)
    rcases Nat.le_total k (c * w) with hk | hk
    · rw [Nat.min_eq_left hk, Nat.min_eq_left (hk.trans hstep), Nat.sub_eq_zero_of_le hk]
      simp
    · obtain ⟨r, hr⟩ := Nat.exists_eq_add_of_le (Nat.le_min.mpr ⟨hk, hstep⟩)
      rw [hr, Nat.min_eq_right hk, Nat.add_sub_cancel_left, List.range_add, List.map_append, List.sum_append, List.map_map]
      rfl

theorem le_ceilDiv_mul (k : Nat) {w : Nat} (hw : 0 < w) : k ≤ ceilDiv k w * w := by
  have hdiv := Nat.div_add_mod' (k + w - 1) w
  have hmod := Nat.mod_lt (k + w - 1) hw
  unfold ceilDiv
  omega

/-- All blocks together sum all products. -/
theorem sum_blockSum_all (f : Nat → Int) {w : Nat} (k : Nat) (hw : 0 < w) :
    ((List.range (ceilDiv k w)).map (blockSum f w k)).sum = ((List.range k).map f).sum := by
  rw [sum_blockSum, Nat.min_eq_left (le_ceilDiv_mul k hw)]

theorem map_blockSum_ne_nil (f : Nat → Int) {w k : Nat} (hk : 0 < k) (hw : 0 < w) :
    (List.range (ceilDiv k w)).map (blockSum f w k) ≠ [] := by
  have hblocks : 0 < ceilDiv k w := Nat.pos_of_mul_pos_right (hk.trans_le (le_ceilDiv_mul k hw))
  simpa using hblocks.ne'

/-- The sum of the leading blocks is a sum of the leading products. -/
theorem sum_prefix_blockSum (f : Nat → Int) {w k c : Nat} {p : List Int} (hp : p <+: (List.range c).map (blockSum f w k)) :
    ∃ n ≤ k, p.sum = ((List.range n).map f).sum := by
  rw [List.prefix_iff_eq_take, ← List.map_take, List.take_range] at hp
  exact ⟨_, Nat.min_le_left .., (congrArg List.sum hp).trans (sum_blockSum f w k _)⟩

/-! ### The blocks of a GEMM element (R36, R37) -/

theorem blockWidth_of_le_one {g : Nat} (h : g ≤ 1) : blockWidth g = none := by
  rw [blockWidth, if_neg (by omega), if_neg (by omega), if_neg (by omega), if_neg (by omega)]

/-- With a scale per tensor or per row, the elements of a row share their scale word. -/
theorem State.tensorScale_of_gran_le_one (s : State) {t : Tensor} (h : t.gran ≤ 1) (row col : Nat) :
    s.tensorScale t row col = s.tensorScale t row 0 := by
  simp only [State.tensorScale, State.tensorWord, scaleIndex, blockWidth_of_le_one h]

theorem combineWidth_of_gran_le_one {o : TileOp} (hb : o.bKn = false) (hA : o.granA ≤ 1) (hB : o.granB ≤ 1) :
    combineWidth o = 128 := by
  simp [combineWidth, hb, blockWidth_of_le_one hA, blockWidth_of_le_one hB]

theorem groupTerms_of_not_split {o : TileOp} (h : o.split ≠ 2) (klen : Nat) (ts : List (Nat × Term)) :
    groupTerms o klen ts = [ts.map (·.2)] := if_neg fun hsplit => h hsplit.1

/-- With scales per tensor or per row and no split over K, a GEMM element accumulates the sums of its blocks of 128, all with one
scale product and one exponent. -/
theorem State.gemmElem_of_gran_le_one (s : State) {o : TileOp} {a b : Tensor} (i j : Nat) (hsplit : o.split ≠ 2)
    (hb : o.bKn = false) (hA : o.granA = a.gran) (hB : o.granB = b.gran) (ha1 : a.gran ≤ 1) (hb1 : b.gran ≤ 1) :
    s.gemmElem o a b i j =
      (let r := accumulate o.h [uniformTerms ((s.tensorScale a i 0).m * (s.tensorScale b j 0).m)
        ((s.tensorScale a i 0).e + (s.tensorScale b j 0).e)
        ((List.range (ceilDiv o.k 128)).map (blockSum (fun x => s.tensorElem a i x * s.tensorElem b j x) 128 o.k))]
      { a := r.1, e := r.2.1, acc := r.2.2 }) := by
  simp only [State.gemmElem, groupTerms_of_not_split hsplit, combineWidth_of_gran_le_one hb (hA ▸ ha1) (hB ▸ hb1), spanBlocks,
    uniformTerms, blockSum, State.weightElem, hb, s.tensorScale_of_gran_le_one ha1, s.tensorScale_of_gran_le_one hb1,
    List.map_map, Function.comp_def, zero_add, Bool.false_eq_true, if_false]

/-- Settles O24: the element accumulates block sums with one scale product and one exponent (`State.gemmElem_of_gran_le_one`), each
partial sum of which is a partial sum of its products (`sum_prefix_blockSum`), so that nothing is shifted or saturated. -/
theorem gemmExact : Obligations.GemmExact := by
  unfold Obligations.GemmExact
  intro s o a b i j hh hsplit hb hA hB ha1 hb1 hk hma hmb hfits
  have hacc := accumulate_uniformTerms ((s.tensorScale a i 0).e + (s.tensorScale b j 0).e) (Nat.mul_ne_zero hma hmb)
    (map_blockSum_ne_nil (fun x => s.tensorElem a i x * s.tensorElem b j x) hk (by decide : 0 < 128)) fun p hp => by
      obtain ⟨n, hn, hsum⟩ := sum_prefix_blockSum _ hp
      rw [hsum]
      exact hfits n hn
  rw [sum_blockSum_all _ o.k (by decide)] at hacc
  rw [s.gemmElem_of_gran_le_one i j hsplit hb hA hB ha1 hb1, hh, hacc]
  exact ⟨rfl, rfl, rfl⟩

end Sys2Proof.Machine
end

section
/-! The layout loader (chapter 03): what a write of LAY_CTRL leaves as the loader reads it, how a load ends, and what a start does. -/

namespace Sys2Proof.Machine

/-! ### Registers moved, and vectors raised -/

/-- The second state is the first but for the registers listed and the vectors raised. -/
structure OnlyMoved (s t : State) (moved : List Nat) : Prop where
  only : t = { s with regs := t.regs, msix := t.msix, msixPending := t.msixPending }
  kept : RegsKept s t moved

/-- The state with a load in progress, or none. -/
def State.withLoad (s : State) (d : Option Load) : State := { s with load := d }

theorem State.withLoad_eq_self {s : State} {d : Option Load} (h : s.load = d) : s.withLoad d = s := by
  rw [← h]
  rfl

namespace OnlyMoved
variable {s t u : State} {l l' : List Nat}

theorem refl (s : State) : OnlyMoved s s [] := ⟨rfl, fun _ _ => rfl⟩

theorem trans (hst : OnlyMoved s t l) (htu : OnlyMoved t u l') : OnlyMoved s u (l ++ l') := by
  obtain ⟨hst, hkept⟩ := hst
  obtain ⟨htu, hkept'⟩ := htu
  refine ⟨htu.trans (congrArg (fun a : State => { a with regs := u.regs, msix := u.msix, msixPending := u.msixPending }) hst),
    fun a ha => ?_⟩
  rw [List.mem_append, not_or] at ha
  exact (hkept' a ha.2).trans (hkept a ha.1)

theorem reg (h : OnlyMoved s t l) {a : Nat} (ha : a ∉ l) : t.reg a = s.reg a := h.kept a ha

theorem fld (h : OnlyMoved s t l) {f : Fld} (ha : f.addr ∉ l) (hf : f.lo + f.width ≤ 32) : t.fld f = s.fld f := by
  rw [State.fld_word _ hf, State.fld_word _ hf, h.reg ha]

theorem reg64 (h : OnlyMoved s t l) {a : Nat} (ha : a ∉ l) (ha' : a + 4 ∉ l) : t.reg64 a = s.reg64 a := by
  rw [State.reg64, State.reg64, h.reg ha, h.reg ha']

theorem mono (h : OnlyMoved s t l) (hl : l ⊆ l') : OnlyMoved s t l' := ⟨h.only, fun a ha => h.kept a fun hal => ha (hl hal)⟩

theorem withLoad (h : OnlyMoved s t l) (d : Option Load) : OnlyMoved (s.withLoad d) (t.withLoad d) l :=
  ⟨congrArg (fun a : State => a.withLoad d) h.only, h.kept⟩

theorem layout (h : OnlyMoved s t l) : t.layout = s.layout := (congrArg State.layout h.only :)

end OnlyMoved

theorem onlyMoved_setFld (s : State) {f : Fld} (v : Nat) (hf : f.lo + f.width ≤ 32) : OnlyMoved s (s.setFld f v) [f.addr] := by
  refine ⟨?_, fun a ha => s.reg_setFld_ne v hf (by simpa using ha)⟩
  rw [s.setFld_word v hf]
  rfl

theorem onlyMoved_event (s : State) (e : Evt) : OnlyMoved s (s.event e) e.regs := ⟨rfl, regsKept_event s e⟩

theorem onlyMoved_hqEvent (s : State) (e : Evt) : OnlyMoved s (s.hqEvent e) e.regs := ⟨s.hqEvent_only e, regsKept_hqEvent s e⟩

/-- Registers that all lie in some blocks. -/
theorem OnlyMoved.blocksKept {s t : State} {l blocks : List Nat} (h : OnlyMoved s t l) (hl : ∀ a ∈ l, a / 65536 ∈ blocks) :
    BlocksKept s t blocks := fun _ ha => h.reg fun hal => ha (hl _ hal)

/-- An event counted since a state in which its counter still stood as in an earlier one. -/
theorem Counted.since {s m t : State} {e : Evt} (h : Counted m t e) (hm : m.reg e.counter = s.reg e.counter) : Counted s t e :=
  ⟨h.1, hm ▸ h.2⟩

/-! ### The loader's reading of an image does not depend on LAY_CTRL (R63) -/

namespace OnlyMoved
variable {s t : State}

theorem bar2Target (h : OnlyMoved s t [Reg.LAY_CTRL]) (acc : Access) (off : Nat) : t.bar2Target acc off = s.bar2Target acc off := by
  have htranslate : t.translate = s.translate := (congrArg State.translate h.only :)
  have hstaging : t.stagingBase = s.stagingBase := by
    rw [State.stagingBase, State.stagingBase, h.fld (f := Fld.BOOT_STATUS_state) (by decide) (by decide)]
  unfold State.bar2Target
  by_cases hk : 64 ≤ off / 0x40000000
  · simp only [hk, if_true]
  · have hctrl : Reg.HQ_WIN_CTRL (off / 0x40000000) ∉ [Reg.LAY_CTRL] := by simp [Reg.LAY_CTRL, Reg.HQ_WIN_CTRL]; omega
    have hmode := h.fld (f := Fld.HQ_WIN_CTRL_mode (off / 0x40000000)) hctrl (by simp)
    have hctx := h.fld (f := Fld.HQ_WIN_CTRL_ctx_id (off / 0x40000000)) hctrl (by simp)
    have hbase := h.reg64 (a := Reg.HQ_WIN_BASE (off / 0x40000000)) (by simp [Reg.LAY_CTRL, Reg.HQ_WIN_BASE]; omega)
      (by simp [Reg.LAY_CTRL, Reg.HQ_WIN_BASE]; omega)
    simp only [htranslate, hmode, hctx, hbase, hstaging]

theorem imageByte (h : OnlyMoved s t [Reg.LAY_CTRL]) (off : Nat) : t.imageByte off = s.imageByte off := by
  have hphys : t.byteAt = s.byteAt := (congrArg State.byteAt h.only :)
  have hflash : t.flash = s.flash := (congrArg State.flash h.only :)
  have hread : t.flashRead = s.flashRead := by
    funext a
    rw [State.flashRead, State.flashRead, hflash, h.fld (f := Fld.FTL_STATUS_mode) (by decide) (by decide)]
  simp only [State.imageByte, State.bar2Byte, h.bar2Target, hphys, hread]

theorem imageBytes (h : OnlyMoved s t [Reg.LAY_CTRL]) (off n : Nat) : t.imageBytes off n = s.imageBytes off n := by
  simp only [State.imageBytes, h.imageByte]

theorem imageDie0 (h : OnlyMoved s t [Reg.LAY_CTRL]) (off n : Nat) : t.imageDie0 off n = s.imageDie0 off n := by
  simp only [State.imageDie0, h.bar2Target]

theorem signatureFindings (h : OnlyMoved s t [Reg.LAY_CTRL]) : t.signatureFindings = s.signatureFindings := by
  have hboot : t.boot = s.boot := (congrArg State.boot h.only :)
  have hslot : t.slotStatus = s.slotStatus := by
    funext i
    rw [State.slotStatus, State.slotStatus, h.fld (f := Fld.KEY_SLOT_STATUS_sa) (by decide) (by decide),
      h.fld (f := Fld.KEY_SLOT_STATUS_oa) (by decide) (by decide)]
  have hkey : t.enrolledKey = s.enrolledKey := by
    funext authority slot
    rw [State.enrolledKey, State.enrolledKey, hslot, hboot]
  funext img
  rw [State.signatureFindings, State.signatureFindings, hkey]

theorem capacityRecord (h : OnlyMoved s t [Reg.LAY_CTRL]) : t.capacityRecord = s.capacityRecord := by
  have hrate : t.peakRate = s.peakRate := by
    funext res
    rw [State.peakRate, State.peakRate, h.fld (f := Fld.PCIE_LINK_STATUS_width) (by decide) (by decide)]
  have hhalf : t.overHalf = s.overHalf := by
    funext l rs res
    rw [State.overHalf, State.overHalf, hrate]
  funext l x i r
  rw [State.capacityRecord, State.capacityRecord, hhalf]

theorem activeDigest (h : OnlyMoved s t [Reg.LAY_CTRL]) : t.activeDigest = s.activeDigest := by
  have hreg (k : Nat) : t.reg (Reg.LAY_ACTIVE_DIGEST k) = s.reg (Reg.LAY_ACTIVE_DIGEST k) :=
    h.reg (by simp [Reg.LAY_CTRL, Reg.LAY_ACTIVE_DIGEST]; omega)
  simp only [State.activeDigest, hreg]

/-- The checks of steps 3 to 6 read the enrolled keys, the layout and its digest, the mappings, the dies present and the width of the
host link. -/
theorem imageFailure (h : OnlyMoved s t [Reg.LAY_CTRL]) (img : Bytes) : t.imageFailure img = s.imageFailure img := by
  have hmerged : t.merged = s.merged := (congrArg State.merged h.only :)
  have hmaps : t.mapRefs = s.mapRefs := (congrArg State.mapRefs h.only :)
  have hdies : t.dieRecord = s.dieRecord := (congrArg State.dieRecord h.only :)
  simp only [State.imageFailure, State.semanticPasses, hmerged, hmaps, hdies, h.capacityRecord, h.activeDigest, h.signatureFindings,
    h.layout]

end OnlyMoved

namespace OnlyMoved
variable {s t : State}

theorem imageLen_eq (h : OnlyMoved s t [Reg.LAY_CTRL]) : t.fld Fld.LAY_IMG_LEN_len = s.fld Fld.LAY_IMG_LEN_len :=
  h.fld (by decide) (by decide)

theorem imageOff_eq (h : OnlyMoved s t [Reg.LAY_CTRL]) : imageOff t = imageOff s := by
  unfold imageOff
  rw [h.reg64 (by decide) (by decide)]

theorem imagePasses_eq (h : OnlyMoved s t [Reg.LAY_CTRL]) (op : Nat) : imagePasses t op = imagePasses s op := by
  simp only [imagePasses, h.imageOff_eq, h.imageLen_eq, h.imageBytes, h.imageDie0, h.imageFailure]

end OnlyMoved

/-! ### How a load ends (R64) -/

/-- The event of a load that ends with a code. -/
def endEvent (code : Nat) : Evt := if code = 0 then Ev.LAY_EVENT_done else Ev.LAY_EVENT_fail

/-- LAY_STATUS at the end of a load, which is then no longer in progress. -/
def State.endStatus (s : State) (op code : Nat) : State :=
  (((s.withLoad none).setFld Fld.LAY_STATUS_state (b2n s.layout.isSome)).setFld Fld.LAY_STATUS_last_op op).setFld
    Fld.LAY_STATUS_code code

/-- The vector that LAY_CTRL enables at the end of a load. -/
def State.raiseLoader (s : State) : State :=
  if s.flag Fld.LAY_CTRL_irq_en then s.raise (s.fld Fld.LAY_CTRL_msix) else s

theorem State.loadEnds_eq (s : State) (op code : Nat) :
    s.loadEnds op code = ((s.endStatus op code).event (endEvent code)).raiseLoader := rfl

theorem onlyMoved_raiseLoader (s : State) : OnlyMoved s s.raiseLoader [] := by
  unfold State.raiseLoader
  split
  · exact ⟨rfl, fun _ _ => rfl⟩
  · exact OnlyMoved.refl s

theorem State.loadEnds_regs (s : State) (op code : Nat) :
    (s.loadEnds op code).regs = ((s.endStatus op code).event (endEvent code)).regs := by
  rw [s.loadEnds_eq op code]
  unfold State.raiseLoader
  split
  · rfl
  · rfl

theorem endEvent_separate (code : Nat) : (endEvent code).status ≠ (endEvent code).counter ∧ (endEvent code).bit < 32 := by
  unfold endEvent
  split
  · decide
  · decide

theorem onlyMoved_endStatus (s : State) (op code : Nat) : OnlyMoved (s.withLoad none) (s.endStatus op code) [Reg.LAY_STATUS] := by
  have hstate := onlyMoved_setFld (s.withLoad none) (f := Fld.LAY_STATUS_state) (b2n s.layout.isSome) (by decide)
  have hop := hstate.trans (onlyMoved_setFld _ (f := Fld.LAY_STATUS_last_op) op (by decide))
  exact (hop.trans (onlyMoved_setFld _ (f := Fld.LAY_STATUS_code) code (by decide))).mono (by simp)

theorem onlyMoved_loadEnds (s : State) (op code : Nat) :
    OnlyMoved (s.withLoad none) (s.loadEnds op code) (Reg.LAY_STATUS :: (endEvent code).regs) := by
  have hevent := (onlyMoved_endStatus s op code).trans (onlyMoved_event _ (endEvent code))
  exact (hevent.trans (onlyMoved_raiseLoader _)).mono (by simp)

/-- The fields of LAY_STATUS after the end of a load are those that it wrote. -/
theorem State.fld_loadEnds (s : State) (op code : Nat) {lo w : Nat} (hw : lo + w ≤ 32) :
    (s.loadEnds op code).fld ⟨Reg.LAY_STATUS, lo, w⟩ = (s.endStatus op code).fld ⟨Reg.LAY_STATUS, lo, w⟩ := by
  rw [State.fld_congr (s.loadEnds_regs op code), endEvent]
  split
  · exact State.fld_event_ne _ hw (by simp [Ev.LAY_EVENT_done]) (by simp [Ev.LAY_EVENT_done])
  · exact State.fld_event_ne _ hw (by simp [Ev.LAY_EVENT_fail]) (by simp [Ev.LAY_EVENT_fail])

theorem State.copied_loadEnds (s : State) (op code : Nat) :
    (s.loadEnds op code).flag Fld.LAY_STATUS_copied = s.flag Fld.LAY_STATUS_copied := by
  rw [State.flag, State.flag, s.fld_loadEnds op code (by decide), State.endStatus,
    State.fld_setFld_ne _ _ (by decide) (by decide) (by decide), State.fld_setFld_ne _ _ (by decide) (by decide) (by decide),
    State.fld_setFld_ne _ _ (by decide) (by decide) (by decide)]
  rfl

theorem counted_loadEnds (s : State) (op code : Nat) : Counted s (s.loadEnds op code) (endEvent code) := by
  obtain ⟨hsep, hbit⟩ := endEvent_separate code
  have hcounter : (endEvent code).counter ∉ [Reg.LAY_STATUS] := by
    unfold endEvent
    split
    · decide
    · decide
  have hcounted : Counted (s.endStatus op code) (s.loadEnds op code) (endEvent code) := by
    unfold Counted
    rw [State.reg_congr (s.loadEnds_regs op code), State.reg_congr (s.loadEnds_regs op code)]
    exact counted_event _ hsep hbit
  exact hcounted.since ((onlyMoved_endStatus s op code).reg hcounter)

/-- A load that has ended with a code (R64): its status, its event counted, no load in progress, and nothing else but the registers
listed and the vectors raised. -/
structure LoadEnded (s t : State) (op code : Nat) (moved : List Nat) : Prop where
  code_eq : t.fld Fld.LAY_STATUS_code = code % 2 ^ 16
  lastOp_eq : t.fld Fld.LAY_STATUS_last_op = op % 2 ^ 3
  state_eq : t.fld Fld.LAY_STATUS_state = b2n s.layout.isSome
  counted : Counted s t (endEvent code)
  onlyMoved : OnlyMoved (s.withLoad none) t (moved ++ Reg.LAY_STATUS :: (endEvent code).regs)

/-- What the end of a load leaves alone of the layout, its contexts and their work. -/
theorem LoadEnded.keeps {s t : State} {op code : Nat} {moved : List Nat} (h : LoadEnded s t op code moved) :
    t.load = none ∧ t.layout = s.layout ∧ t.ctxs = s.ctxs ∧ t.maps = s.maps ∧ t.seqLinks = s.seqLinks ∧ t.invs = s.invs ∧
      t.runs = s.runs ∧ t.kv = s.kv := by
  rw [h.onlyMoved.only]
  exact ⟨rfl, rfl, rfl, rfl, rfl, rfl, rfl, rfl⟩

theorem b2n_lt (b : Bool) : b2n b < 2 ^ 2 := by
  cases b with
  | false => decide
  | true => decide

theorem OnlyMoved.loadEnded {s m : State} {moved : List Nat} (h : OnlyMoved s m moved) (op code : Nat)
    (hmoved : (endEvent code).counter ∉ moved) : LoadEnded s (m.loadEnds op code) op code moved where
  code_eq := by
    rw [m.fld_loadEnds op code (by decide)]
    exact State.fld_setFld_same _ _ (by decide)
  lastOp_eq := by
    rw [m.fld_loadEnds op code (by decide), State.endStatus, State.fld_setFld_ne _ _ (by decide) (by decide) (by decide)]
    exact State.fld_setFld_same _ _ (by decide)
  state_eq := by
    rw [m.fld_loadEnds op code (by decide), State.endStatus, State.fld_setFld_ne _ _ (by decide) (by decide) (by decide),
      State.fld_setFld_ne _ _ (by decide) (by decide) (by decide), State.fld_setFld_same _ _ (by decide), h.layout]
    exact Nat.mod_eq_of_lt (b2n_lt _)
  counted := (counted_loadEnds m op code).since (h.reg hmoved)
  onlyMoved := (h.withLoad none).trans (onlyMoved_loadEnds m op code)

/-! ### Loads that fail (R64) -/

/-- The place of a failure, in the registers that hold it. -/
def State.noteFinding (s : State) (secs : List Sec) (f : Finding) : State :=
  ((s.setFld Fld.LAY_ERR_LOC_section (if f.place = 0 ∨ 100 ≤ f.place then 0xFF else f.place - 1)).setFld Fld.LAY_ERR_LOC_record
    (errRecord secs f)).setFld Fld.LAY_ERR_OFFSET_offset f.off

theorem State.loadFails_eq (s : State) (op : Nat) (secs : List Sec) (f : Finding) :
    s.loadFails op secs f = (s.noteFinding secs f).loadEnds op f.code := rfl

theorem onlyMoved_noteFinding (s : State) (secs : List Sec) (f : Finding) :
    OnlyMoved s (s.noteFinding secs f) [Reg.LAY_ERR_LOC, Reg.LAY_ERR_OFFSET] := by
  have hsection := onlyMoved_setFld s (f := Fld.LAY_ERR_LOC_section) (if f.place = 0 ∨ 100 ≤ f.place then 0xFF else f.place - 1)
    (by decide)
  have hrecord := hsection.trans (onlyMoved_setFld _ (f := Fld.LAY_ERR_LOC_record) (errRecord secs f) (by decide))
  exact (hrecord.trans (onlyMoved_setFld _ (f := Fld.LAY_ERR_OFFSET_offset) f.off (by decide))).mono (by simp)

/-- A load fails with a code: it ends as every load ends, with the place of the failure noted. -/
theorem OnlyMoved.loadFailed {s m : State} {moved : List Nat} (h : OnlyMoved s m moved) (op : Nat) (secs : List Sec) {f : Finding}
    (hf : f.code ≠ 0) (hmoved : Ev.LAY_EVENT_fail.counter ∉ moved) :
    LoadEnded s (m.loadFails op secs f) op f.code (moved ++ [Reg.LAY_ERR_LOC, Reg.LAY_ERR_OFFSET]) := by
  rw [m.loadFails_eq op secs f]
  refine (h.trans (onlyMoved_noteFinding m secs f)).loadEnded op f.code ?_
  rw [endEvent, if_neg hf, List.mem_append, not_or]
  exact ⟨hmoved, by decide⟩

theorem State.copied_loadFails (s : State) (op : Nat) (secs : List Sec) (f : Finding) :
    (s.loadFails op secs f).flag Fld.LAY_STATUS_copied = s.flag Fld.LAY_STATUS_copied := by
  rw [s.loadFails_eq op secs f, State.copied_loadEnds, State.flag, State.flag,
    (onlyMoved_noteFinding s secs f).fld (by decide) (by decide)]

end Sys2Proof.Machine
end

section
/-! Starts of the layout loader (chapter 03): what a header may fail with, and what a start of LAY_CTRL does. -/

namespace Sys2Proof.Machine

/-! ### The findings of a header (R63) -/

theorem firstFinding_mem {fs : List Finding} {f : Finding} (h : firstFinding fs = some f) : f ∈ fs := by
  induction fs generalizing f with
  | nil => cases h
  | cons g gs ih =>
    rw [firstFinding] at h
    cases hgs : firstFinding gs with
    | none =>
      rw [hgs] at h
      cases h
      exact List.mem_cons_self
    | some x =>
      rw [hgs] at h
      dsimp only at h
      split at h
      · cases h
        exact List.mem_cons_of_mem _ (ih hgs)
      · cases h
        exact List.mem_cons_self

theorem code_of_mem_headIf {c : Bool} {place off code : Nat} {f : Finding} (h : f ∈ headIf c place off code) : f.code = code := by
  unfold headIf at h
  split at h
  · rw [List.mem_singleton.mp h]
  · cases h

/-- Every finding of a header has a code of a failure. -/
theorem headerFindings_code_ne_zero {hdr : Bytes} {op len : Nat} {f : Finding} (h : f ∈ headerFindings hdr op len) : f.code ≠ 0 := by
  simp only [headerFindings, List.mem_append] at h
  obtain (((((((h | h) | h) | h) | h) | h) | h) | h) | h := h
  all_goals rw [code_of_mem_headIf h]; decide

/-! ### Steps 2 to 6 of a load (R64) -/

/-- A fault of the host's window while the image was read, counted. -/
def State.countFault (s : State) (faulted : Bool) : State := if faulted then s.hqEvent Ev.HQ_EVT_STATUS_win_fault else s

theorem onlyMoved_countFault (s : State) (faulted : Bool) :
    OnlyMoved s (s.countFault faulted) Ev.HQ_EVT_STATUS_win_fault.regs := by
  cases faulted with
  | true => exact onlyMoved_hqEvent s _
  | false => exact (OnlyMoved.refl s).mono (by simp)

/-- The image is copied, its faults counted. -/
def State.copyImage (s : State) : State :=
  ((s.setFld Fld.LAY_STATUS_copied 0).countFault (s.imageFault (imageOff s) (s.fld Fld.LAY_IMG_LEN_len))).setFld
    Fld.LAY_STATUS_copied 1

/-- The image that LAY_IMG_ADDR and LAY_IMG_LEN name. -/
def State.namedImage (s : State) : Bytes := s.imageBytes (imageOff s) (s.fld Fld.LAY_IMG_LEN_len)

theorem State.beginLoad_of_passes {s : State} {op : Nat} (h : imagePasses s op = true) :
    s.beginLoad op = if op = 2 then s.copyImage.loadEnds 2 0
      else { s.copyImage with load := some ⟨op, s.namedImage, false⟩ }.setFld Fld.LAY_STATUS_state 2 := by
  simp only [imagePasses, Bool.and_eq_true, Option.isNone_iff_eq_none] at h
  obtain ⟨⟨⟨hhead, hheader⟩, hbody⟩, hsections⟩ := h
  unfold imageOff at hhead hheader hbody hsections
  simp only [State.beginLoad, hhead, hheader, hbody, hsections]
  split
  · next hop => rw [hop]; rfl
  · rfl

theorem State.beginLoad_of_die0 {s : State} {op i : Nat} (h : s.imageDie0 (imageOff s) 256 = some i) :
    s.beginLoad op = (s.setFld Fld.LAY_STATUS_copied 0).loadFails op [] (noPlace i 0x0203) := by
  unfold imageOff at h
  simp only [State.beginLoad, h]

theorem State.beginLoad_of_header {s : State} {op : Nat} {f : Finding} (hdie : s.imageDie0 (imageOff s) 256 = none)
    (h : firstFinding (headerFindings (s.imageBytes (imageOff s) 256) op (s.fld Fld.LAY_IMG_LEN_len)) = some f) :
    s.beginLoad op =
      ((s.setFld Fld.LAY_STATUS_copied 0).countFault (s.imageFault (imageOff s) 256)).loadFails op [] f := by
  unfold imageOff at h hdie
  simp only [State.beginLoad, h, hdie]
  rfl

theorem onlyMoved_notCopied (s : State) (faulted : Bool) :
    OnlyMoved s ((s.setFld Fld.LAY_STATUS_copied 0).countFault faulted) (Reg.LAY_STATUS :: Ev.HQ_EVT_STATUS_win_fault.regs) :=
  (onlyMoved_setFld s (f := Fld.LAY_STATUS_copied) 0 (by decide)).trans (onlyMoved_countFault _ faulted)

theorem State.flag_notCopied (s : State) (faulted : Bool) :
    ((s.setFld Fld.LAY_STATUS_copied 0).countFault faulted).flag Fld.LAY_STATUS_copied = false := by
  rw [State.flag, (onlyMoved_countFault _ faulted).fld (by decide) (by decide), State.fld_setFld_same _ _ (by decide)]
  rfl

theorem onlyMoved_copyImage (s : State) : OnlyMoved s s.copyImage (Reg.LAY_STATUS :: Ev.HQ_EVT_STATUS_win_fault.regs) :=
  ((onlyMoved_notCopied s _).trans (onlyMoved_setFld _ (f := Fld.LAY_STATUS_copied) 1 (by decide))).mono (by simp)

/-! ### A start of LAY_CTRL (R63, R68, R91) -/

/-- The value of LAY_CTRL that starts an op. -/
def startValue (op v : Nat) : Nat := setBits (setBits v 0 1 1) 1 3 op

theorem bit_startValue (op v : Nat) : bit (startValue op v) 0 = true := by
  rw [bit, startValue, testBit_setBits, if_neg (by omega), testBit_setBits, if_pos (by omega)]
  rfl

theorem op_startValue {op : Nat} (v : Nat) (hop : op ≤ 2) : bits (startValue op v) 1 3 = op := by
  rw [startValue, bits_setBits_same]
  omega

/-- LAY_CTRL with the fields of a value. -/
def State.layFields (s : State) (v : Nat) : State :=
  ((s.setFld Fld.LAY_CTRL_op (bits v 1 3)).setFld Fld.LAY_CTRL_msix (bits v 4 6)).setFld Fld.LAY_CTRL_irq_en (bits v 10 1)

theorem onlyMoved_layFields (s : State) (v : Nat) : OnlyMoved s (s.layFields v) [Reg.LAY_CTRL] := by
  have hop := onlyMoved_setFld s (f := Fld.LAY_CTRL_op) (bits v 1 3) (by decide)
  have hmsix := hop.trans (onlyMoved_setFld _ (f := Fld.LAY_CTRL_msix) (bits v 4 6) (by decide))
  exact (hmsix.trans (onlyMoved_setFld _ (f := Fld.LAY_CTRL_irq_en) (bits v 10 1) (by decide))).mono (by simp)

theorem load_of_layReady {s : State} {who : Requester} (h : layReady s who = true) : s.load = none := by
  simp only [layReady, Bool.and_eq_true, Option.isNone_iff_eq_none] at h
  obtain ⟨⟨⟨-, hload⟩, -⟩, -⟩ := h
  exact hload

/-- A start that is taken sets the fields of LAY_CTRL and begins its load. -/
theorem State.layStart_of_ready {s : State} {who : Requester} {op : Nat} (v : Nat) (h : layReady s who = true) (hop : op ≤ 2) :
    s.layStart who op v = (s.layFields (startValue op v)).beginLoad op := by
  simp only [layReady, Bool.and_eq_true, Option.isNone_iff_eq_none, Bool.not_eq_true'] at h
  obtain ⟨⟨⟨hserved, hload⟩, hready⟩, hproof⟩ := h
  rw [State.layStart, State.busWrite_of_served _ hserved]
  change s.writeLayCtrl (startValue op v) = _
  have hop' : decide (2 < op) = false := decide_eq_false (Nat.not_lt.mpr hop)
  simp only [State.writeLayCtrl, bit_startValue, op_startValue v hop, hload, hready, hproof, hop', Bool.not_true,
    Option.isSome_none, Bool.or_self, Bool.false_eq_true, if_false]
  rw [State.layFields, op_startValue v hop]

/-- A start while a load is in progress is ignored as a whole and counted. -/
theorem State.layStart_of_load {s : State} {who : Requester} {d : Load} (op v : Nat) (hserved : s.served who 1 0x46 false = true)
    (hload : s.load = some d) : s.layStart who op v = s.event Ev.LAY_EVENT_cmd_reject := by
  rw [State.layStart, State.busWrite_of_served _ hserved]
  change s.writeLayCtrl (startValue op v) = _
  simp only [State.writeLayCtrl, bit_startValue, hload, Bool.not_true, Bool.false_eq_true, if_false, Option.isSome_some, if_true]

/-! ### The effect of a start -/

theorem exec_layoutFullLoad (who : Requester) (v : Nat) (s : State) : exec (.layoutFullLoad who v) s = .next (s.layStart who 0 v) := rfl

theorem exec_layoutPartialLoad (who : Requester) (v : Nat) (s : State) :
    exec (.layoutPartialLoad who v) s = .next (s.layStart who 1 v) := rfl

theorem exec_layoutValidate (who : Requester) (v : Nat) (s : State) : exec (.layoutValidate who v) s = .next (s.layStart who 2 v) := rfl

/-- The registers that a start may move before its load ends. -/
def startMoved : List Nat := Reg.LAY_CTRL :: Reg.LAY_STATUS :: Ev.HQ_EVT_STATUS_win_fault.regs

/-- A start of an image that passes, except for a validation: the load is in progress and waits for its commit. -/
theorem layStart_loading {s : State} {who : Requester} {op : Nat} (v : Nat) (h : layReady s who = true) (hop : op < 2)
    (hpass : imagePasses s op = true) {t : State} (ht : t = s.layStart who op v) :
    t.load = some ⟨op, s.namedImage, false⟩ ∧ t.fld Fld.LAY_STATUS_state = 2 ∧ t.flag Fld.LAY_STATUS_copied = true ∧
      t = { s with regs := t.regs, msix := t.msix, msixPending := t.msixPending, load := t.load } ∧ BlocksKept s t [0x145, 0x146] := by
  have hfields := onlyMoved_layFields s (startValue op v)
  have himage : (s.layFields (startValue op v)).namedImage = s.namedImage := by
    rw [State.namedImage, State.namedImage, hfields.imageBytes, hfields.imageOff_eq, hfields.imageLen_eq]
  rw [State.layStart_of_ready v h (by omega), State.beginLoad_of_passes ((hfields.imagePasses_eq op).trans hpass), if_neg (by omega),
    himage] at ht
  set m := (s.layFields (startValue op v)).copyImage with hm
  have hmoved : OnlyMoved s m startMoved := hfields.trans (onlyMoved_copyImage _)
  have hend : OnlyMoved (m.withLoad (some ⟨op, s.namedImage, false⟩)) t [Reg.LAY_STATUS] := ht ▸ onlyMoved_setFld _ 2 (by decide)
  have honly := (hmoved.withLoad _).trans hend
  have hload : t.load = some ⟨op, s.namedImage, false⟩ := (congrArg State.load honly.only :)
  refine ⟨hload, ?_, ?_, hload ▸ honly.only, honly.blocksKept (by decide)⟩
  · rw [ht]
    exact State.fld_setFld_same _ 2 (by decide)
  · rw [ht, State.flag, State.fld_setFld_ne _ _ (by decide) (by decide) (by decide)]
    change m.flag Fld.LAY_STATUS_copied = true
    rw [hm, State.copyImage, State.flag, State.fld_setFld_same _ _ (by decide)]
    rfl

/-- A load that has ended, where none was in progress, in the registers of the loader and the host queues. -/
theorem LoadEnded.frame {s t : State} {op code : Nat} {moved : List Nat} (h : LoadEnded s t op code moved) (hload : s.load = none)
    (hmoved : ∀ a ∈ moved, a / 65536 ∈ [0x145, 0x146]) :
    t = { s with regs := t.regs, msix := t.msix, msixPending := t.msixPending } ∧ BlocksKept s t [0x145, 0x146] := by
  have honly := h.onlyMoved
  rw [State.withLoad_eq_self hload] at honly
  have hend : ∀ a ∈ Reg.LAY_STATUS :: (endEvent code).regs, a / 65536 ∈ [0x145, 0x146] := by
    unfold endEvent
    split
    · decide
    · decide
  exact ⟨honly.only, honly.blocksKept fun a ha => (List.mem_append.mp ha).elim (hmoved a) (hend a)⟩

/-- A validation of an image that passes ends with code 0 and loads nothing. -/
theorem layStart_validates {s : State} {who : Requester} (v : Nat) (h : layReady s who = true) (hpass : imagePasses s 2 = true) :
    LoadEnded s (s.layStart who 2 v) 2 0 startMoved := by
  have hfields := onlyMoved_layFields s (startValue 2 v)
  rw [State.layStart_of_ready v h (by omega), State.beginLoad_of_passes ((hfields.imagePasses_eq 2).trans hpass), if_pos rfl]
  exact OnlyMoved.loadEnded (hfields.trans (onlyMoved_copyImage _)) 2 0 (by decide)

/-- The registers that a start may move before a load that fails ends. -/
def failMoved : List Nat := startMoved ++ [Reg.LAY_ERR_LOC, Reg.LAY_ERR_OFFSET]

/-- A start whose image is not copied, because it fails before: the load ends with the code of its failure. -/
theorem loadFailed_notCopied {s r t : State} {op : Nat} {f : Finding} (faulted : Bool) (hr : OnlyMoved s r [Reg.LAY_CTRL])
    (hf : f.code ≠ 0) (ht : t = ((r.setFld Fld.LAY_STATUS_copied 0).countFault faulted).loadFails op [] f) :
    LoadEnded s t op f.code failMoved ∧ t.flag Fld.LAY_STATUS_copied = false := by
  subst ht
  exact ⟨(hr.trans (onlyMoved_notCopied r faulted)).loadFailed op [] hf (by decide),
    (State.copied_loadFails ..).trans (r.flag_notCopied faulted)⟩

/-- An image in memory of die 0 ends the load with 0x0203. -/
theorem layStart_die0 {s : State} {who : Requester} {op i : Nat} (v : Nat) (h : layReady s who = true) (hop : op ≤ 2)
    (hdie : s.imageDie0 (imageOff s) 256 = some i) :
    LoadEnded s (s.layStart who op v) op 0x0203 failMoved ∧ (s.layStart who op v).flag Fld.LAY_STATUS_copied = false := by
  have hfields := onlyMoved_layFields s (startValue op v)
  refine loadFailed_notCopied (f := noPlace i 0x0203) false hfields (by simp [noPlace]) ?_
  rw [← hfields.imageDie0, ← hfields.imageOff_eq] at hdie
  rw [State.layStart_of_ready v h hop, State.beginLoad_of_die0 hdie]
  rfl

/-- A header that fails ends the load with the code of its first finding. -/
theorem layStart_header {s : State} {who : Requester} {op : Nat} {f : Finding} (v : Nat) (h : layReady s who = true) (hop : op ≤ 2)
    (hdie : s.imageDie0 (imageOff s) 256 = none)
    (hf : firstFinding (headerFindings (s.imageBytes (imageOff s) 256) op (s.fld Fld.LAY_IMG_LEN_len)) = some f) :
    LoadEnded s (s.layStart who op v) op f.code failMoved ∧ (s.layStart who op v).flag Fld.LAY_STATUS_copied = false := by
  have hfields := onlyMoved_layFields s (startValue op v)
  have hcode := headerFindings_code_ne_zero (firstFinding_mem hf)
  rw [← hfields.imageDie0, ← hfields.imageOff_eq] at hdie
  rw [← hfields.imageBytes, ← hfields.imageOff_eq, ← hfields.imageLen_eq] at hf
  rw [State.layStart_of_ready v h hop, State.beginLoad_of_header hdie hf]
  exact loadFailed_notCopied _ hfields hcode rfl

/-- Settles O36: a start reads its image as LAY_CTRL leaves it (`OnlyMoved.imagePasses_eq`), and either sets the load in progress
(`layStart_loading`) or ends it (`layStart_validates`, `layStart_die0`, `layStart_header`). -/
theorem layoutLoads : Obligations.LayoutLoads := by
  unfold Obligations.LayoutLoads
  refine ⟨fun who v s h hpass => ?_, fun who v s h hpass => ?_, fun who v s h hpass => ?_, fun who v i s h hdie => ?_,
    fun who v f s h hcode hdie hf => ?_, fun who v d s hserved hload => ?_⟩
  · exact ⟨_, exec_layoutFullLoad who v s, layStart_loading v h (by decide) hpass rfl⟩
  · exact ⟨_, exec_layoutPartialLoad who v s, layStart_loading v h (by decide) hpass rfl⟩
  · have hend := layStart_validates v h hpass
    exact ⟨_, exec_layoutValidate who v s, hend.code_eq, hend.lastOp_eq, hend.state_eq, hend.counted,
      hend.frame (load_of_layReady h) (by decide)⟩
  · obtain ⟨hend, hcopied⟩ := layStart_die0 (op := 0) v h (by decide) hdie
    exact ⟨_, exec_layoutFullLoad who v s, hend.code_eq, hend.lastOp_eq, hcopied, hend.counted,
      hend.frame (load_of_layReady h) (by decide)⟩
  · obtain ⟨hend, hcopied⟩ := layStart_header (op := 0) v h (by decide) hdie hf
    have hfail : endEvent f.code = Ev.LAY_EVENT_fail := if_neg (headerFindings_code_ne_zero (firstFinding_mem hf))
    exact ⟨_, exec_layoutFullLoad who v s, hend.code_eq.trans (Nat.mod_eq_of_lt hcode), hend.lastOp_eq, hcopied, hfail ▸ hend.counted,
      hend.frame (load_of_layReady h) (by decide)⟩
  · refine ⟨s.event Ev.LAY_EVENT_cmd_reject, ?_, counted_event s (by decide) (by decide), regsKept_event s _, rfl⟩
    rw [exec_layoutFullLoad, State.layStart_of_load 0 v hserved hload]

end Sys2Proof.Machine
end

section
/-! What a commit of the layout loader keeps (R65): the layout installed, its contexts, mappings, programmes, length table and event
counter, through every engine that begins afresh. -/

namespace Sys2Proof.Machine

/-! ### Tables -/

theorem Sparse.get_eq_default_or_mem {α : Type} (d : Nat → α) (m : Sparse α) (k : Nat) :
    Sparse.get d m k = d k ∨ (k, Sparse.get d m k) ∈ m := by
  induction m with
  | nil => exact .inl rfl
  | cons p m ih =>
    obtain ⟨j, v⟩ := p
    simp only [Sparse.get]
    split
    · next hj => exact .inr (hj ▸ List.mem_cons_self)
    · exact ih.imp_right (List.mem_cons_of_mem _)

theorem Sparse.mem_put {α : Type} [DecidableEq α] {d : Nat → α} {m : Sparse α} {k : Nat} {v : α} {p : Nat × α}
    (h : p ∈ Sparse.put d m k v) : p = (k, v) ∨ p ∈ m := by
  unfold Sparse.put at h
  split at h
  · exact .inr (Sparse.mem_erase h)
  · exact (Sparse.mem_insertSorted h).imp_right Sparse.mem_erase

/-- What holds of every value put into a table holds of every value there. -/
theorem Sparse.forall_mem_foldl_put {α β : Type} [DecidableEq α] {d : Nat → α} {P : α → Prop} {key : β → Nat} {value : β → α}
    {xs : List β} (hxs : ∀ x ∈ xs, P (value x)) {m : Sparse α} (hm : ∀ p ∈ m, P p.2) :
    ∀ p ∈ xs.foldl (fun m x => Sparse.put d m (key x) (value x)) m, P p.2 := by
  induction xs generalizing m with
  | nil => exact hm
  | cons x xs ih =>
    obtain ⟨hx, hxs⟩ := List.forall_mem_cons.mp hxs
    refine ih hxs fun p hp => ?_
    rcases Sparse.mem_put hp with rfl | hp
    · exact hx
    · exact hm p hp

theorem Sparse.get_filter {α : Type} (d : Nat → α) (keep : Nat → Bool) (m : Sparse α) {k : Nat} (hk : keep k = true) :
    Sparse.get d (m.filter fun p => keep p.1) k = Sparse.get d m k := by
  induction m with
  | nil => rfl
  | cons p m ih =>
    obtain ⟨j, v⟩ := p
    by_cases hj : j = k
    · subst hj
      simp [hk, Sparse.get]
    · rw [List.filter_cons]
      split
      · simp [Sparse.get, hj, ih]
      · simp [Sparse.get, hj, ih]

/-! ### Fields of records -/

theorem leNat_lt (bs : Bytes) : leNat bs < 256 ^ bs.length := by
  induction bs with
  | nil => decide
  | cons b bs ih =>
    have hb : b.toNat < 256 := b.isLt
    rw [leNat, List.length_cons, Nat.pow_succ]
    omega

theorem length_slice (bs : Bytes) (off n : Nat) : (slice bs off n).length = n := by
  simp only [slice, List.length_append, List.length_replicate, List.length_take]
  omega

theorem fieldAt_lt (bs : Bytes) (off n : Nat) : fieldAt bs off n < 256 ^ n :=
  (leNat_lt _).trans_eq (congrArg _ (length_slice bs off n))

/-- A loop record names a slot whose register lies in the engine's block. -/
theorem loopNumber_lt (r : Bytes) : loopNumber r < 65536 := by
  have hengine := fieldAt_lt r 1 1
  have hslot := fieldAt_lt r 2 1
  unfold loopNumber
  omega

/-! ### What a commit keeps once the layout stands -/

/-- The second state has the layout, the contexts, the mappings and links, the invocations and programmes, the length table and the
count of loads done of the first. -/
structure CommitFrame (s t : State) : Prop where
  layout : t.layout = s.layout
  ctxs : t.ctxs = s.ctxs
  maps : t.maps = s.maps
  seqLinks : t.seqLinks = s.seqLinks
  invs : t.invs = s.invs
  runs : t.runs = s.runs
  kv : t.kv = s.kv
  doneCount : t.reg Ev.LAY_EVENT_done.counter = s.reg Ev.LAY_EVENT_done.counter

namespace CommitFrame
variable {s t u : State}

theorem refl (s : State) : CommitFrame s s := ⟨rfl, rfl, rfl, rfl, rfl, rfl, rfl, rfl⟩

theorem trans (hst : CommitFrame s t) (htu : CommitFrame t u) : CommitFrame s u where
  layout := htu.layout.trans hst.layout
  ctxs := htu.ctxs.trans hst.ctxs
  maps := htu.maps.trans hst.maps
  seqLinks := htu.seqLinks.trans hst.seqLinks
  invs := htu.invs.trans hst.invs
  runs := htu.runs.trans hst.runs
  kv := htu.kv.trans hst.kv
  doneCount := htu.doneCount.trans hst.doneCount

theorem foldl {α : Type} {f : State → α → State} (xs : List α) (hf : ∀ a, ∀ x ∈ xs, CommitFrame a (f a x)) (s : State) :
    CommitFrame s (xs.foldl f s) := by
  induction xs generalizing s with
  | nil => exact refl s
  | cons x xs ih =>
    obtain ⟨hx, hxs⟩ := forall_and.mp fun a => List.forall_mem_cons.mp (hf a)
    exact (hx s).trans (ih (fun a => hxs a) (f s x))

/-- A change of registers other than the counter. -/
theorem of_regs (h : t = { s with regs := t.regs }) (hcount : t.reg Ev.LAY_EVENT_done.counter = s.reg Ev.LAY_EVENT_done.counter) :
    CommitFrame s t where
  layout := (congrArg State.layout h :)
  ctxs := (congrArg State.ctxs h :)
  maps := (congrArg State.maps h :)
  seqLinks := (congrArg State.seqLinks h :)
  invs := (congrArg State.invs h :)
  runs := (congrArg State.runs h :)
  kv := (congrArg State.kv h :)
  doneCount := hcount

theorem setReg (s : State) {a : Nat} (v : Word) (ha : a ≠ Ev.LAY_EVENT_done.counter) : CommitFrame s (s.setReg a v) :=
  of_regs rfl (s.reg_setReg_ne v ha.symm)

theorem setFld (s : State) {f : Fld} (v : Nat) (hf : f.lo + f.width ≤ 32) (ha : f.addr ≠ Ev.LAY_EVENT_done.counter) :
    CommitFrame s (s.setFld f v) :=
  of_regs (s.setFld_regs_only f v) (s.reg_setFld_ne v hf ha.symm)

theorem setReg64 (s : State) {a : Nat} (v : Nat) (ha : a ≠ Ev.LAY_EVENT_done.counter) (ha' : a + 4 ≠ Ev.LAY_EVENT_done.counter) :
    CommitFrame s (s.setReg64 a v) :=
  of_regs rfl (s.reg_setReg64_ne v ha.symm ha'.symm)

theorem eventIf (s : State) (c : Bool) {e : Evt} (hs : e.status ≠ Ev.LAY_EVENT_done.counter)
    (hc : e.counter ≠ Ev.LAY_EVENT_done.counter) : CommitFrame s (s.eventIf c e) := by
  refine of_regs (s.eventIf_regs_only c e) ?_
  cases c with
  | true => exact s.reg_event_ne hs.symm hc.symm
  | false => rfl

/-- Registers put back to their reset values, the counter not among them. -/
theorem filterRegs (s : State) (keep : Nat → Bool) (hk : keep Ev.LAY_EVENT_done.counter = true) :
    CommitFrame s { s with regs := s.regs.filter fun p => keep p.1 } :=
  of_regs rfl (Sparse.get_filter resetOf keep s.regs hk)

theorem clearRegs (s : State) {a n : Nat} (h : a + 4 * n ≤ Ev.LAY_EVENT_done.counter) : CommitFrame s (s.clearRegs a n) :=
  filterRegs s (fun x => !(a ≤ x && x < a + 4 * n)) (by simp; omega)

/-! ### Sync objects, the digest, streams and ports -/

theorem initSyncs (s : State) (l : Layout) : CommitFrame s (s.initSyncs l) := by
  refine foldl _ (fun a r _ => ?_) s
  cases l.syncObj (fieldAt r 2 2) with
  | none => exact refl a
  | some k => exact ⟨rfl, rfl, rfl, rfl, rfl, rfl, rfl, rfl⟩

theorem setRegBytes (n : Nat) (s : State) {a : Nat} (bs : Bytes) (ha : Ev.LAY_EVENT_done.counter < a) :
    CommitFrame s (s.setRegBytes a n bs) := by
  induction n generalizing s a bs with
  | zero => exact refl s
  | succ n ih => exact (setReg s _ ha.ne').trans (ih _ _ (by omega))

theorem setDigest (s : State) (d : Bytes) : CommitFrame s (s.setDigest d) := setRegBytes 16 s d (by decide)

/-! The engines, the ports and Crust hold nothing of it. -/

theorem withPorts (s : State) (x : PortsSt) : CommitFrame s { s with ports := x } := ⟨rfl, rfl, rfl, rfl, rfl, rfl, rfl, rfl⟩
theorem withLoops (s : State) (x : LoopsSt) : CommitFrame s { s with loops := x } := ⟨rfl, rfl, rfl, rfl, rfl, rfl, rfl, rfl⟩
theorem withCrust (s : State) (x : CrustSt) : CommitFrame s { s with crust := x } := ⟨rfl, rfl, rfl, rfl, rfl, rfl, rfl, rfl⟩
theorem withMap (s : State) (x : MapSt) : CommitFrame s { s with map := x } := ⟨rfl, rfl, rfl, rfl, rfl, rfl, rfl, rfl⟩
theorem withSolv (s : State) (x : SolvSt) : CommitFrame s { s with solv := x } := ⟨rfl, rfl, rfl, rfl, rfl, rfl, rfl, rfl⟩

theorem withFreshEngines (s : State) : CommitFrame s { s with plan := {}, fusion := {}, solv := {}, loops := {} } :=
  ⟨rfl, rfl, rfl, rfl, rfl, rfl, rfl, rfl⟩

theorem restartStreams (s : State) : CommitFrame s s.restartStreams :=
  (withPorts s { s.ports with jbusIn := [] }).trans (foldl _ (fun a _ _ => withPorts a _) _)

theorem setPortMode (s : State) {port : Nat} (m : Nat) (hp : port < 12) : CommitFrame s (s.setPortMode port m) := by
  have hctrl : Reg.ETH_CTRL port ≠ Ev.LAY_EVENT_done.counter := by simp [Reg.ETH_CTRL, Ev.LAY_EVENT_done]; omega
  have hstatus : Reg.ETH_STATUS port ≠ Ev.LAY_EVENT_done.counter := by simp [Reg.ETH_STATUS, Ev.LAY_EVENT_done]; omega
  have hpair : Reg.ETH_PAIR port ≠ Ev.LAY_EVENT_done.counter := by simp [Reg.ETH_PAIR, Ev.LAY_EVENT_done]; omega
  have hmode := setFld s (f := Fld.ETH_CTRL_mode port) m (by simp) hctrl
  unfold State.setPortMode
  split
  · have hlink := hmode.trans (setFld _ (f := Fld.ETH_STATUS_link_up port) 0 (by simp) hstatus)
    have hcond := hlink.trans (setFld _ (f := Fld.ETH_PAIR_cond port) 4 (by simp) hpair)
    have hdist := hcond.trans (setFld _ (f := Fld.ETH_PAIR_distance port) 0 (by simp) hpair)
    exact hdist.trans (setFld _ (f := Fld.ETH_STATUS_pair_fault port) 0 (by simp) hstatus)
  · exact hmode

theorem installStreams (s : State) : CommitFrame s s.installStreams := by
  unfold State.installStreams
  refine trans ?_ (foldl _ (fun a p hp => ?_) _)
  · refine trans ?_ (foldl _ (fun a _ _ => withPorts a _) _)
    exact ((withPorts s _).trans (clearRegs _ (by decide))).trans (restartStreams _)
  · have hp : p < 12 := List.mem_range.mp hp
    split
    · exact setPortMode a 1 hp
    · split
      · exact setPortMode a 2 hp
      · exact refl a

/-! ### Crust and safe torque off -/

theorem writePhys (bs : Bytes) (s : State) (a : Nat) : CommitFrame s (s.writePhys a bs) := by
  induction bs generalizing s a with
  | nil => exact refl s
  | cons b bs ih => exact trans (t := s.setByte a b) ⟨rfl, rfl, rfl, rfl, rfl, rfl, rfl, rfl⟩ (ih _ _)

theorem publishFactor (s : State) : CommitFrame s s.publishFactor := by
  unfold State.publishFactor
  split
  · exact refl s
  · extract_lets f
    split
    · exact refl s
    · refine trans ?_ (setFld _ _ (by decide) (by decide))
      split
      · exact refl s
      · exact writePhys ..

theorem crustGroup_ne {g : Nat} (hg : g < 4) : Reg.CRUST_GROUP g ≠ Ev.LAY_EVENT_done.counter := by
  simp [Reg.CRUST_GROUP, Ev.LAY_EVENT_done]; omega

theorem installSafety (s : State) : CommitFrame s s.installSafety := by
  unfold State.installSafety
  refine trans ?_ (publishFactor _)
  exact (withCrust s _).trans (foldl _ (fun a g hg => setFld a 0 (by simp) (crustGroup_ne (List.mem_range.mp hg))) _)

theorem driveOutputs (s : State) : CommitFrame s s.driveOutputs :=
  setFld s (f := Fld.SIO_STO_STATUS_readback) _ (by decide) (by decide)

theorem setAsserted (s : State) (v : Nat) : CommitFrame s (s.setFld Fld.SIO_STO_STATUS_asserted v) :=
  setFld s v (by decide) (by decide)

theorem assertGroup (s : State) {g : Nat} (hg : g < 4) : CommitFrame s (s.assertGroup g) := by
  unfold State.assertGroup
  refine trans ?_ (driveOutputs _)
  refine trans ?_ (setFld _ _ (by simp) (crustGroup_ne hg))
  exact ((setAsserted s _).trans (withCrust _ _)).trans (withCrust _ _)

theorem releaseGroup (s : State) (g : Nat) : CommitFrame s (s.releaseGroup g) := by
  unfold State.releaseGroup
  split
  · refine trans ?_ (driveOutputs _)
    exact (((setAsserted s _).trans (withCrust _ _)).trans (withCrust _ _)).trans (withCrust _ _)
  · exact refl s

theorem assertAll (s : State) : CommitFrame s s.assertAll := foldl _ (fun a _ hg => assertGroup a (List.mem_range.mp hg)) s

theorem releaseGroups (s : State) : CommitFrame s s.releaseGroups := foldl _ (fun a g _ => releaseGroup a g) s

/-! ### The engines of the Reflex die -/

theorem fusnStream_ne {i : Nat} (hi : i < 32) : Reg.FUSN_STREAM i ≠ Ev.LAY_EVENT_done.counter := by
  simp [Reg.FUSN_STREAM, Ev.LAY_EVENT_done]; omega

theorem mapRegs (s : State) : CommitFrame s s.mapRegs :=
  ((setFld s _ (by decide) (by decide)).trans (setFld _ _ (by decide) (by decide))).trans (setReg64 _ _ (by decide) (by decide))

theorem resetMap (s : State) : CommitFrame s s.resetMap := by
  unfold State.resetMap
  refine trans ?_ (mapRegs _)
  refine trans ?_ (filterRegs _ (fun a => !(0x281000 ≤ a && a < 0x283000)) (by decide))
  exact ((withMap s _).trans (setReg _ _ (by decide))).trans (setFld _ _ (by decide) (by decide))

theorem resetSetups (s : State) {ks : List Nat} (h : ∀ k ∈ ks, k < 16) : CommitFrame s (s.resetSetups ks) := by
  refine foldl ks (fun a k hk => ?_) s
  have hk := h k hk
  exact (withSolv a _).trans (setReg _ _ (by simp [Reg.SOLV_SETUP, Ev.LAY_EVENT_done]; omega))

theorem setLoopSlot (s : State) {n : Nat} (x : LoopSlot) (hn : n < 65536) : CommitFrame s (s.setLoopSlot n x) :=
  (withLoops s _).trans (setReg _ _ (by simp [Reg.LOOP_SLOT, Ev.LAY_EVENT_done]; omega))

theorem startLoops (s : State) (rs : List Bytes) : CommitFrame s (s.startLoops rs) := by
  refine (foldl rs (fun a r _ => setLoopSlot a _ (loopNumber_lt r)) s).trans (foldl _ (fun a e _ => ?_) _)
  split
  · exact refl a
  · exact withLoops a _

theorem installEngines (s : State) : CommitFrame s s.installEngines := by
  unfold State.installEngines
  refine trans ?_ (startLoops _ _)
  refine trans ?_ (resetSetups _ fun k hk => List.mem_range.mp hk)
  refine trans ?_ (foldl _ (fun a i hi => setFld a 0 (by simp) (fusnStream_ne (List.mem_range.mp hi))) _)
  refine trans ?_ (clearRegs _ (by decide))
  refine trans ?_ (setReg64 _ 0 (by decide) (by decide))
  exact (resetMap s).trans (withFreshEngines _)

theorem keepPasses (s t : State) : CommitFrame t (s.keepPasses t) := by
  refine foldl _ (fun a e _ => ?_) t
  split
  · exact withLoops a _
  · exact refl a

end CommitFrame
end Sys2Proof.Machine
end

section
/-! Commits of the layout loader (chapter 03): how the old layout leaves, what a full and a partial commit install, and what keeps a
commit from happening. -/

namespace Sys2Proof.Machine

/-! ### The old layout leaves (R65) -/

theorem CommitFrame.dropSlots (s : State) (k : Nat) : CommitFrame s (s.dropSlots k) := by
  unfold State.dropSlots
  extract_lets mine cmds s1
  have hslots : CommitFrame s1 { s1 with seqSlots := s1.seqSlots.filter (fun p => !mine p.1) } :=
    ⟨rfl, rfl, rfl, rfl, rfl, rfl, rfl, rfl⟩
  refine trans (foldl _ (fun a p _ => ?_) s) hslots
  have hstatus : Reg.SEQ_CMD_STATUS p.1 ≠ Ev.LAY_EVENT_done.counter := (ne_of_block_ne (by decide)).symm
  have hevent := CommitFrame.eventIf a (p.2.elim false (fun c => c.op == 3)) (e := Ev.SEQ_EVT_STATUS_restore_fail p.1)
    (ne_of_block_ne (by decide)).symm (ne_of_block_ne (by decide)).symm
  have hcmd (b : State) : CommitFrame b (b.setSeqCmd p.1 none) := ⟨rfl, rfl, rfl, rfl, rfl, rfl, rfl, rfl⟩
  exact ((hevent.trans (hcmd _)).trans (setFld _ 0 (by simp) hstatus)).trans (setFld _ _ (by simp) hstatus)

theorem State.kvEntry_setKv_same (s : State) (q : Nat) (e : KvEntry) : (s.setKv q e).kvEntry q = e := Sparse.get_put_same

theorem State.kvEntry_setKv_ne (s : State) {q x : Nat} (e : KvEntry) (h : x ≠ q) : (s.setKv q e).kvEntry x = s.kvEntry x :=
  Sparse.get_put_ne h

theorem State.kvEntry_kvRollback_ne (s : State) {q x : Nat} (c : Nat) (h : x ≠ q) : (s.kvRollback q c).kvEntry x = s.kvEntry x :=
  s.kvEntry_setKv_ne _ h

theorem State.doneCount_kvRollback (s : State) (q c : Nat) :
    (s.kvRollback q c).reg Ev.LAY_EVENT_done.counter = s.reg Ev.LAY_EVENT_done.counter := by
  unfold State.kvRollback
  extract_lets e drop n s1 gone
  exact State.reg_setReg64_ne _ _ (by decide) (by decide)

/-- A length-table entry made free, with its links. -/
def State.freeEntry (s : State) (q : Nat) (e : KvEntry) : State :=
  let t := s.setKv q { e with genTag := if e.genTag = 65535 then 1 else e.genTag + 1, valid := false }
  { t with seqLinks := t.seqLinks.filter (fun p => p.2 != q), kvTouched := t.kvTouched.filter (fun x => x.seq != q) }

theorem State.freeEntry_effect (s : State) (q : Nat) (e : KvEntry) :
    ((s.freeEntry q e).kvEntry q).valid = false ∧ (∀ x, x ≠ q → (s.freeEntry q e).kvEntry x = s.kvEntry x) ∧
      (s.freeEntry q e).regs = s.regs :=
  ⟨(congrArg KvEntry.valid (s.kvEntry_setKv_same q _) :), fun _ hx => s.kvEntry_setKv_ne _ hx, rfl⟩

theorem State.kvFree_eq (s : State) (q : Nat) :
    s.kvFree q = ((s.setKv q (s.kvEntry q).closeGroup).kvRollback q 0).freeEntry q
      (((s.setKv q (s.kvEntry q).closeGroup).kvRollback q 0).kvEntry q) := by
  simp only [State.kvFree, State.freeEntry]

/-- A length-table entry freed is not valid; the other entries and the count of loads done stay. -/
theorem State.kvFree_effect (s : State) (q : Nat) :
    ((s.kvFree q).kvEntry q).valid = false ∧ (∀ x, x ≠ q → (s.kvFree q).kvEntry x = s.kvEntry x) ∧
      (s.kvFree q).reg Ev.LAY_EVENT_done.counter = s.reg Ev.LAY_EVENT_done.counter := by
  rw [s.kvFree_eq q]
  generalize hrolled : (s.setKv q (s.kvEntry q).closeGroup).kvRollback q 0 = r
  obtain ⟨hfree, hother, hregs⟩ := r.freeEntry_effect q (r.kvEntry q)
  refine ⟨hfree, fun x hx => ?_, ?_⟩
  · rw [hother x hx, ← hrolled, State.kvEntry_kvRollback_ne _ 0 hx, State.kvEntry_setKv_ne _ _ hx]
  · rw [State.reg_congr hregs, ← hrolled, State.doneCount_kvRollback]
    rfl

/-- The entries that stay valid while some are freed are not among them. -/
theorem State.valid_foldl_kvFree {qs : List Nat} {s : State} {x : Nat} (h : ((qs.foldl State.kvFree s).kvEntry x).valid = true) :
    x ∉ qs ∧ (s.kvEntry x).valid = true := by
  induction qs generalizing s with
  | nil => exact ⟨List.not_mem_nil, h⟩
  | cons q qs ih =>
    rw [List.foldl_cons] at h
    obtain ⟨hqs, hvalid⟩ := ih h
    obtain ⟨hfree, hother, -⟩ := s.kvFree_effect q
    have hne : x ≠ q := by
      rintro rfl
      rw [hfree] at hvalid
      cases hvalid
    rw [hother x hne] at hvalid
    exact ⟨fun hmem => (List.mem_cons.mp hmem).elim hne hqs, hvalid⟩

theorem State.doneCount_foldl_kvFree (qs : List Nat) (s : State) :
    (qs.foldl State.kvFree s).reg Ev.LAY_EVENT_done.counter = s.reg Ev.LAY_EVENT_done.counter := by
  induction qs generalizing s with
  | nil => rfl
  | cons q qs ih =>
    obtain ⟨-, -, hcount⟩ := s.kvFree_effect q
    rw [List.foldl_cons, ih, hcount]

/-- The state with every valid length-table entry freed. -/
def State.freeTable (s : State) : State := ((s.kv.filter (fun p => p.2.valid)).map (·.1)).foldl State.kvFree s

theorem State.valid_freeTable (s : State) (x : Nat) : (s.freeTable.kvEntry x).valid = false := by
  by_contra hfree
  obtain ⟨hx, hvalid⟩ := State.valid_foldl_kvFree (Bool.eq_true_of_not_eq_false hfree)
  rcases Sparse.get_eq_default_or_mem (fun _ => ({} : KvEntry)) s.kv x with hdefault | hmem
  · rw [State.kvEntry, hdefault] at hvalid
    cases hvalid
  · exact hx (List.mem_map.mpr ⟨_, List.mem_filter.mpr ⟨hmem, hvalid⟩, rfl⟩)

/-- The old layout's contexts have left with their slots, the length table is free and the queues are stopped. -/
def State.emptied (s : State) : State :=
  (List.range 64).foldl (fun (a : State) k => a.setFld (Fld.HQ_Q_CTRL_run k) 0)
    ((s.ctxs.map (·.1)).foldl State.dropSlots s).freeTable

theorem commitFrame_stopQueues (s : State) :
    CommitFrame s ((List.range 64).foldl (fun (a : State) k => a.setFld (Fld.HQ_Q_CTRL_run k) 0) s) := by
  refine CommitFrame.foldl _ (fun a k hk => CommitFrame.setFld a 0 (by simp) ?_) s
  have hk := List.mem_range.mp hk
  simp [Reg.HQ_Q_CTRL, Ev.LAY_EVENT_done]; omega

/-- What a full commit clears beside slots, length table and queues. -/
def State.cleared (s : State) : State :=
  { s with ctxs := [], queues := [], invs := [], runs := [], maps := [], seqLinks := [], windows := [], tlb := []
           requests := s.requests.map (fun q => { q with record := none })
           seqSlots := s.seqSlots.filter (fun p => p.2.phase == .empty)
           power := { s.power with oldPref := none } }

theorem State.removeLayout_eq (s : State) : s.removeLayout = s.emptied.cleared := by
  simp only [State.removeLayout, State.emptied, State.freeTable, State.cleared]

theorem State.valid_cleared (s : State) (x : Nat) : (s.cleared.kvEntry x).valid = (s.kvEntry x).valid := rfl

theorem State.reg_cleared (s : State) (a : Nat) : s.cleared.reg a = s.reg a := rfl

theorem State.valid_removeLayout (s : State) (x : Nat) : (s.removeLayout.kvEntry x).valid = false := by
  rw [s.removeLayout_eq, State.valid_cleared, State.emptied, State.kvEntry, (commitFrame_stopQueues _).kv]
  exact State.valid_freeTable _ x

theorem State.doneCount_removeLayout (s : State) :
    s.removeLayout.reg Ev.LAY_EVENT_done.counter = s.reg Ev.LAY_EVENT_done.counter := by
  have hslots := CommitFrame.foldl (s.ctxs.map (·.1)) (fun a k _ => CommitFrame.dropSlots a k) s
  rw [s.removeLayout_eq, State.reg_cleared, State.emptied, (commitFrame_stopQueues _).doneCount, State.freeTable,
    State.doneCount_foldl_kvFree, hslots.doneCount]

/-! ### The contexts of the new layout (R65, R74) -/

/-- The contexts of a new layout are NONRESIDENT, and none waits when no record asks for residency at the load. -/
theorem mem_freshContexts {l : Layout} (hl : ∀ r ∈ l.recs 1, bit (fieldAt r 3 1) 0 = false) {p : Nat × Ctx}
    (hp : p ∈ freshContexts l) : p.2.phase = .nonresident ∧ p.2.waiting = false := by
  exact Sparse.forall_mem_foldl_put (P := fun c : Ctx => c.phase = .nonresident ∧ c.waiting = false) (fun r hr => ⟨rfl, hl r hr⟩)
    (m := []) (fun _ hp => nomatch hp) p hp

/-- No context begins its residency where none waits. -/
theorem State.startWaiting_of_none {s : State} (h : ∀ p ∈ s.ctxs, p.2.waiting = false) (n : Nat) : s.startWaiting n = s := by
  have hnone : s.ctxs.filter (fun p => p.2.waiting) = [] := List.filter_eq_nil_iff.mpr fun p hp => by simp [h p hp]
  cases n with
  | zero => rfl
  | succ n =>
    rw [State.startWaiting, hnone]
    split
    · rfl
    · rfl

/-! ### The commits -/

/-- A state with the layout of an image and its contexts. -/
def State.withImage (s : State) (img : Bytes) : State :=
  { s with layout := some (layoutOf img), safetyDigest := slice img 0x80 64, ctxs := freshContexts (layoutOf img) }

theorem State.valid_withImage (s : State) (img : Bytes) (x : Nat) : ((s.withImage img).kvEntry x).valid = (s.kvEntry x).valid := rfl

theorem State.reg_withImage (s : State) (img : Bytes) (a : Nat) : (s.withImage img).reg a = s.reg a := rfl

/-- The state of a full commit once its layout stands. -/
def State.laidOut (s : State) (img : Bytes) : State := s.removeLayout.withImage img

/-- Nothing of the old layout is left. -/
theorem State.laidOut_fresh (s : State) (img : Bytes) :
    (s.laidOut img).layout = some (layoutOf img) ∧ (s.laidOut img).ctxs = freshContexts (layoutOf img) ∧ (s.laidOut img).maps = [] ∧
      (s.laidOut img).seqLinks = [] ∧ (s.laidOut img).invs = [] ∧ (s.laidOut img).runs = [] ∧
      (∀ x, ((s.laidOut img).kvEntry x).valid = false) := by
  have hvalid (x : Nat) : ((s.laidOut img).kvEntry x).valid = false := by
    rw [State.laidOut, State.valid_withImage, State.valid_removeLayout]
  rw [State.laidOut, s.removeLayout_eq] at hvalid ⊢
  exact ⟨rfl, rfl, rfl, rfl, rfl, rfl, hvalid⟩

theorem State.doneCount_laidOut (s : State) (img : Bytes) :
    (s.laidOut img).reg Ev.LAY_EVENT_done.counter = s.reg Ev.LAY_EVENT_done.counter := by
  rw [State.laidOut, State.reg_withImage, s.doneCount_removeLayout]

/-- The state of a full commit once its engines stand. -/
def State.installed (s : State) (img : Bytes) : State :=
  let e := ((((s.laidOut img).initSyncs (layoutOf img)).setDigest (slice img 0x40 64)).installStreams).installSafety.installEngines
  if e.simLayout then e.assertAll else e.releaseGroups

theorem State.commitFull_eq (s : State) (img : Bytes) : s.commitFull img = ((s.installed img).loadEnds 0 0).startWaiting 64 := rfl

theorem commitFrame_installed (s : State) (img : Bytes) : CommitFrame (s.laidOut img) (s.installed img) := by
  unfold State.installed
  extract_lets e
  have he : CommitFrame (s.laidOut img) e :=
    ((((CommitFrame.initSyncs _ _).trans (.setDigest _ _)).trans (.installStreams _)).trans (.installSafety _)).trans (.installEngines _)
  split
  · exact he.trans (.assertAll e)
  · exact he.trans (.releaseGroups e)

/-- The operating preferences that hold until the next phase transition, while a partial commit is done (R66). -/
def State.heldPref (s : State) (l : Layout) : Option (List Bytes × List Nat) :=
  if (l.section? 15).isSome && s.power.oldPref.isNone then some (s.recs 15, s.activePhases) else s.power.oldPref

/-- The state of a partial commit once its sections stand. -/
def State.replaced (s : State) (img : Bytes) : State :=
  let l := layoutOf img
  let old := s.layout.getD ⟨0, []⟩
  let s1 := { s with layout := some (mergeLayout old l), power := { s.power with oldPref := s.heldPref l } }
  let s2 := if (l.section? 11).isSome then s.keepPasses (s1.startLoops (l.recs 11)) else s1
  let s3 := if (l.section? 12).isSome then s2.resetSetups (replacedSetups old (mergeLayout old l) l) else s2
  s3.setDigest (sha512 (s.activeDigest ++ slice img 0x40 64))

theorem State.commitPartial_eq (s : State) (img : Bytes) : s.commitPartial img = (s.replaced img).loadEnds 1 0 := rfl

theorem commitFrame_replaced {s : State} {old : Layout} (img : Bytes) (hold : s.layout = some old) :
    CommitFrame { s with layout := some (mergeLayout old (layoutOf img)) } (s.replaced img) := by
  unfold State.replaced
  rw [hold]
  extract_lets l old' pow s1 s2 s3
  have h1 : CommitFrame { s with layout := some (mergeLayout old (layoutOf img)) } s1 := ⟨rfl, rfl, rfl, rfl, rfl, rfl, rfl, rfl⟩
  have h2 : CommitFrame s1 s2 := by
    unfold s2
    split
    · exact (CommitFrame.startLoops s1 _).trans (.keepPasses s _)
    · exact .refl s1
  have h3 : CommitFrame s2 s3 := by
    unfold s3
    split
    · refine .resetSetups s2 fun k hk => ?_
      unfold replacedSetups at hk
      exact List.mem_range.mp (List.mem_of_mem_filter hk)
    · exact .refl s2
  exact ((h1.trans h2).trans h3).trans (.setDigest s3 _)

/-- The code of a commit whose contexts are not quiesced, or else of one whose torque is not safely off. -/
theorem State.commitCode_of_not_quiesced {s : State} {op : Nat} {l : Layout} (h : s.loadQuiesced op l = false) :
    s.commitCode op l = 0x0A13 := by
  simp [State.commitCode, h]

theorem State.commitCode_of_not_asserted {s : State} {op : Nat} {l : Layout} (h : s.loadQuiesced op l = true)
    (hgroups : (s.loadGroups op l).all s.asserted = false) : s.commitCode op l = 0x0A14 := by
  simp [State.commitCode, h, hgroups]

section Commit
variable {s : State} {d : Load}

theorem exec_layoutCommit_of_code (hload : s.load = some d) (hcode : s.commitCode d.op (layoutOf d.image) ≠ 0) :
    exec .layoutCommit s = .next (s.loadFails d.op [] (noPlace 0 (s.commitCode d.op (layoutOf d.image)))) := by
  change execLayoutCommit s = _
  simp only [execLayoutCommit, hload, if_pos hcode]

theorem exec_layoutCommit_of_partial (hload : s.load = some d) (hop : d.op = 1) (hcode : s.commitCode 1 (layoutOf d.image) = 0) :
    exec .layoutCommit s = .next (s.commitPartial d.image) := by
  change execLayoutCommit s = _
  simp only [execLayoutCommit, hload, hop, hcode, ne_eq, not_true_eq_false, one_ne_zero, not_false_eq_true, if_false, if_true]

theorem exec_layoutCommit_of_full (hload : s.load = some d) (hop : d.op = 0) (hcode : s.commitCode 0 (layoutOf d.image) = 0) :
    exec .layoutCommit s = .next (if s.flag Fld.TIER_CMD_STATUS_busy then { s with load := some { d with committing := true } }
      else s.commitFull d.image) := by
  change execLayoutCommit s = _
  simp only [execLayoutCommit, hload, hop, hcode, ne_eq, not_true_eq_false, if_false]

/-- A commit whose conditions do not hold ends the load with their code, and the active layout stays (R66, R67). -/
theorem layoutCommit_fails (hload : s.load = some d) (hcode : s.commitCode d.op (layoutOf d.image) ≠ 0) :
    ∃ t, exec .layoutCommit s = .next t ∧
      t.fld Fld.LAY_STATUS_code = s.commitCode d.op (layoutOf d.image) % 2 ^ 16 ∧ t.layout = s.layout ∧ t.load = none ∧
      Counted s t Ev.LAY_EVENT_fail ∧ t = { s with regs := t.regs, msix := t.msix, msixPending := t.msixPending, load := none } ∧
      BlocksKept s t [0x146] := by
  have hend := (OnlyMoved.refl s).loadFailed d.op [] (f := noPlace 0 (s.commitCode d.op (layoutOf d.image))) hcode (by simp)
  have hfail : endEvent (noPlace 0 (s.commitCode d.op (layoutOf d.image))).code = Ev.LAY_EVENT_fail := if_neg hcode
  have honly := hend.onlyMoved
  have hcounted := hend.counted
  rw [hfail] at honly hcounted
  exact ⟨_, exec_layoutCommit_of_code hload hcode, hend.code_eq, honly.layout, (congrArg State.load honly.only :), hcounted, honly.only,
    honly.blocksKept (by decide)⟩

end Commit

/-- A full commit (R65): the image is the layout, nothing of the old one is left, and its contexts wait for their residency. -/
theorem commitFull_installs {s : State} {img : Bytes} (hl : ∀ r ∈ (layoutOf img).recs 1, bit (fieldAt r 3 1) 0 = false) {t : State}
    (ht : t = s.commitFull img) :
    t.layout = some (layoutOf img) ∧ t.load = none ∧ t.maps = [] ∧ t.seqLinks = [] ∧ t.invs = [] ∧ t.runs = [] ∧
      (∀ q, (t.kvEntry q).valid = false) ∧ (∀ k, (t.ctx k).phase = .nonresident ∨ (t.ctx k).phase = .absent) ∧
      t.fld Fld.LAY_STATUS_code = 0 ∧ t.fld Fld.LAY_STATUS_state = 1 ∧ Counted s t Ev.LAY_EVENT_done := by
  have hframe := commitFrame_installed s img
  have hend := (OnlyMoved.refl (s.installed img)).loadEnded 0 0 (by simp)
  obtain ⟨hload, hlayout, hctxs, hmaps, hlinks, hinvs, hruns, hkv⟩ := hend.keeps
  obtain ⟨hlayout', hctxs', hmaps', hlinks', hinvs', hruns', hvalid⟩ := s.laidOut_fresh img
  rw [hframe.ctxs, hctxs'] at hctxs
  have hwaiting := State.startWaiting_of_none (fun p hp => (mem_freshContexts hl (hctxs ▸ hp)).2) 64
  rw [s.commitFull_eq img, hwaiting] at ht
  rw [← ht] at hend hload hlayout hctxs hmaps hlinks hinvs hruns hkv
  refine ⟨hlayout.trans (hframe.layout.trans hlayout'), hload, hmaps.trans (hframe.maps.trans hmaps'),
    hlinks.trans (hframe.seqLinks.trans hlinks'), hinvs.trans (hframe.invs.trans hinvs'), hruns.trans (hframe.runs.trans hruns'),
    fun q => ?_, fun k => ?_, hend.code_eq, ?_, hend.counted.since (hframe.doneCount.trans (s.doneCount_laidOut img))⟩
  · rw [State.kvEntry, hkv, hframe.kv]
    exact hvalid q
  · rw [State.ctx, hctxs]
    rcases Sparse.get_eq_default_or_mem (fun _ => ({} : Ctx)) (freshContexts (layoutOf img)) k with hdefault | hmem
    · exact .inr (congrArg Ctx.phase hdefault)
    · exact .inl (mem_freshContexts hl hmem).1
  · rw [hend.state_eq, hframe.layout, hlayout']
    rfl

/-- A partial commit (R65): the sections of the image replace those of the layout, and the rest stays. -/
theorem commitPartial_replaces {s : State} {old : Layout} {img : Bytes} (hold : s.layout = some old) {t : State}
    (ht : t = s.commitPartial img) :
    t.layout = some (mergeLayout old (layoutOf img)) ∧ t.load = none ∧ t.maps = s.maps ∧ t.ctxs = s.ctxs ∧ t.kv = s.kv ∧
      t.fld Fld.LAY_STATUS_code = 0 ∧ t.fld Fld.LAY_STATUS_last_op = 1 ∧ Counted s t Ev.LAY_EVENT_done := by
  have hframe := commitFrame_replaced img hold
  have hend := (OnlyMoved.refl (s.replaced img)).loadEnded 1 0 (by simp)
  rw [← s.commitPartial_eq img, ← ht] at hend
  obtain ⟨hload, hlayout, hctxs, hmaps, -, -, -, hkv⟩ := hend.keeps
  exact ⟨hlayout.trans hframe.layout, hload, hmaps.trans hframe.maps, hctxs.trans hframe.ctxs, hkv.trans hframe.kv, hend.code_eq,
    hend.lastOp_eq, hend.counted.since hframe.doneCount⟩

/-- Settles O37: a commit whose conditions fail ends its load (`layoutCommit_fails`), a full one installs its image over an emptied
state (`commitFull_installs`), a partial one its sections (`commitPartial_replaces`); what comes after the layout stands keeps it
(`commitFrame_installed`, `commitFrame_replaced`). -/
theorem layoutCommits : Obligations.LayoutCommits := by
  unfold Obligations.LayoutCommits
  refine ⟨fun d s hload h => ?_, fun d s hload hq h => ?_, fun d s hload hop hcode hbusy hl => ?_, fun d s hload hop hcode hbusy => ?_,
    fun d old s hload hop hold hcode => ?_⟩
  · have hcode := State.commitCode_of_not_quiesced h
    have hfails := layoutCommit_fails hload (by rw [hcode]; decide)
    rwa [hcode] at hfails
  · have hcode := State.commitCode_of_not_asserted hq h
    have hfails := layoutCommit_fails hload (by rw [hcode]; decide)
    rwa [hcode] at hfails
  · have hexec := exec_layoutCommit_of_full hload hop hcode
    rw [hbusy, if_neg Bool.false_ne_true] at hexec
    exact ⟨_, hexec, commitFull_installs hl rfl⟩
  · have hexec := exec_layoutCommit_of_full hload hop hcode
    rw [hbusy, if_pos rfl] at hexec
    exact ⟨_, hexec, rfl⟩
  · exact ⟨_, exec_layoutCommit_of_partial hload hop hcode, commitPartial_replaces hold rfl⟩

end Sys2Proof.Machine
end

section
/-! The rules that residencies and stops of contexts (chapter 04) need: contexts and tables after a write, memory through translation,
flash reads, translation buffers and locked entries. -/

namespace Sys2Proof.Machine

/-! ### Tables and contexts -/

theorem Sparse.filter_erase {α : Type} {m : Sparse α} {k : Nat} {P : Nat × α → Bool} (hP : ∀ v, P (k, v) = false) :
    (Sparse.erase k m).filter P = m.filter P := by
  induction m with
  | nil => rfl
  | cons p m ih =>
    obtain ⟨j, v⟩ := p
    simp only [Sparse.erase]
    split
    · next hj => rw [ih, List.filter_cons_of_neg (by simp [hj, hP])]
    · rw [List.filter_cons, List.filter_cons, ih]

theorem Sparse.filter_insertSorted {α : Type} {m : Sparse α} {k : Nat} {v : α} {P : Nat × α → Bool} (hP : P (k, v) = false) :
    (Sparse.insertSorted k v m).filter P = m.filter P := by
  induction m with
  | nil => simp [Sparse.insertSorted, hP]
  | cons p m ih =>
    obtain ⟨j, w⟩ := p
    simp only [Sparse.insertSorted]
    split
    · rw [List.filter_cons_of_neg (by simp [hP])]
    · rw [List.filter_cons, List.filter_cons, ih]

/-- A write to a table is not seen where its key is left out. -/
theorem Sparse.filter_put {α : Type} [DecidableEq α] {d : Nat → α} {m : Sparse α} {k : Nat} {v : α} {P : Nat × α → Bool}
    (hP : ∀ v, P (k, v) = false) : (Sparse.put d m k v).filter P = m.filter P := by
  unfold Sparse.put
  split
  · exact Sparse.filter_erase hP
  · rw [Sparse.filter_insertSorted (hP v), Sparse.filter_erase hP]

/-- The entries of a table after a write: the one written, and those of other keys. -/
theorem Sparse.eq_or_mem_ne_of_mem_put {α : Type} [DecidableEq α] {d : Nat → α} {m : Sparse α} {k : Nat} {v : α} {p : Nat × α}
    (h : p ∈ Sparse.put d m k v) : p = (k, v) ∨ p ∈ m ∧ p.1 ≠ k := by
  unfold Sparse.put at h
  split at h
  · exact .inr ⟨Sparse.mem_erase h, Sparse.key_ne_of_mem_erase h⟩
  · exact (Sparse.mem_insertSorted h).imp_right fun h => ⟨Sparse.mem_erase h, Sparse.key_ne_of_mem_erase h⟩

@[simp] theorem State.ctx_setCtx_same (s : State) (k : Nat) (c : Ctx) : (s.setCtx k c).ctx k = c := Sparse.get_put_same

theorem State.ctx_setCtx_ne (s : State) {j k : Nat} (c : Ctx) (h : j ≠ k) : (s.setCtx k c).ctx j = s.ctx j := Sparse.get_put_ne h

/-- The entries of the contexts after one is written. -/
theorem State.entries_setCtx {s : State} {k : Nat} {c : Ctx} {p : Nat × Ctx} (h : p ∈ (s.setCtx k c).ctxs) :
    p = (k, c) ∨ p ∈ s.ctxs ∧ p.1 ≠ k := Sparse.eq_or_mem_ne_of_mem_put (d := fun _ => ({} : Ctx)) h

/-- A context reads the same in two states with the same contexts. -/
theorem State.ctx_congr {s t : State} (h : t.ctxs = s.ctxs) (k : Nat) : t.ctx k = s.ctx k := by
  unfold State.ctx
  rw [h]

/-! ### Event bits -/

/-- A one-bit field is set where its bit is. -/
theorem State.flag_of_getLsbD {s : State} {a i : Nat} (hi : i + 1 ≤ 32) (h : (s.reg a).getLsbD i = true) :
    s.flag ⟨a, i, 1⟩ = true := by
  have hbit : (bits (s.reg a).toNat i 1).testBit 0 = true := by
    rw [testBit_bits]
    exact h
  have hlt := bits_lt (s.reg a).toNat i 1
  rw [State.flag, State.fld_word _ hi, beq_iff_eq]
  rw [Nat.testBit_zero, decide_eq_true_eq] at hbit
  change bits (s.reg a).toNat i 1 = 1
  omega

/-- An event leaves the bits that are set in the registers other than its counter. -/
theorem State.getLsbD_event_of_set {s : State} {e : Evt} {a i : Nat} (hc : a ≠ e.counter) (h : (s.reg a).getLsbD i = true) :
    ((s.event e).reg a).getLsbD i = true := by
  by_cases hs : a = e.status
  · subst hs
    rw [s.reg_event_status hc, BitVec.getLsbD_or, h, Bool.true_or]
  · rwa [s.reg_event_ne hs hc]

/-! ### Memory through translation (R180 to R188) -/

/-- A byte put into the flash store changes it alone, and takes a free value where it renews a codeword. -/
theorem State.flashPut_only (s : State) (a : Nat) (b : BitVec 8) :
    s.flashPut a b = { s with flash := (s.flashPut a b).flash, freeCtr := (s.flashPut a b).freeCtr } := by
  unfold State.flashPut
  extract_lets s1 f
  have h : s1 = { s with flash := s1.flash, freeCtr := s1.freeCtr } := by
    unfold s1
    split
    · rfl
    · rfl
  rw [h]

/-- A write through translation changes memory and the flash store alone. -/
theorem State.putVa_only (bs : Bytes) (s : State) (who : Master) (acc : Access) (ctx va : Nat) :
    s.putVa who acc ctx va bs = { s with
      phys := (s.putVa who acc ctx va bs).phys, flash := (s.putVa who acc ctx va bs).flash,
      freeCtr := (s.putVa who acc ctx va bs).freeCtr } := by
  induction bs generalizing s va with
  | nil => rfl
  | cons b bs ih =>
    rw [State.putVa]
    split
    · next p _ => exact (ih (s.setByte p b) (va + 1)).trans rfl
    · next a _ =>
      refine (ih (s.flashPut a b) (va + 1)).trans ?_
      generalize (s.flashPut a b).putVa who acc ctx (va + 1) bs = t
      rw [s.flashPut_only a b]
    · exact ih s (va + 1)

theorem State.writeVa_only {s t : State} {who : Master} {acc : Access} {ctx va : Nat} {bs : Bytes}
    (h : s.writeVa who acc ctx va bs = .ok t) : t = { s with phys := t.phys, flash := t.flash, freeCtr := t.freeCtr } := by
  unfold State.writeVa at h
  split at h
  · cases h
  · cases h
    exact s.putVa_only bs who acc ctx va

/-- A transfer of the tier manager's changes memory and the flash store alone. -/
theorem State.transfer_only {s t : State} {ctx src dst len : Nat} (h : s.transfer ctx src dst len = .ok t) :
    t = { s with phys := t.phys, flash := t.flash, freeCtr := t.freeCtr } := by
  unfold State.transfer at h
  extract_lets free at h
  split at h
  · cases h
  · split at h
    · cases h
    · next hw =>
      cases h
      rw [State.writeVa_only hw]

/-- Ranges made undefined change memory alone, with the number of the free contents. -/
theorem State.undefRanges_only (rs : List (Nat × Nat)) (s : State) :
    s.undefRanges rs = { s with phys := (s.undefRanges rs).phys, freeCtr := (s.undefRanges rs).freeCtr } := by
  induction rs generalizing s with
  | nil => rfl
  | cons r rs ih => exact (ih (s.undefRange r.1 r.2)).trans rfl

/-! ### Flash reads (R194, R195) -/

/-- What reads of the flash store change: its counts of reads and of bad codewords, but no byte, and the count of corrected
codewords. -/
structure FlashReadFrame (s t : State) : Prop where
  only : t = { s with regs := t.regs, flash := t.flash }
  kept : RegsKept s t [Reg.FTL_CORR_CNT, Reg.FTL_CORR_CNT + 4]
  bytes : t.flash.bytes = s.flash.bytes

namespace FlashReadFrame

theorem refl (s : State) : FlashReadFrame s s := ⟨rfl, fun _ _ => rfl, rfl⟩

theorem trans {s t u : State} (hst : FlashReadFrame s t) (htu : FlashReadFrame t u) : FlashReadFrame s u where
  only := htu.only.trans (congrArg (fun a : State => { a with regs := u.regs, flash := u.flash }) hst.only)
  kept a ha := (htu.kept a ha).trans (hst.kept a ha)
  bytes := htu.bytes.trans hst.bytes

theorem with_flash (s : State) {f : FlashStore} (h : f.bytes = s.flash.bytes) : FlashReadFrame s { s with flash := f } :=
  ⟨rfl, fun _ _ => rfl, h⟩

theorem countRead (s : State) (unit shifts : Nat) : FlashReadFrame s (s.countRead unit shifts) := by
  unfold State.countRead
  split
  · exact refl s
  · refine with_flash s ?_
    split
    · rfl
    · rfl

theorem countCorrected (s : State) : FlashReadFrame s (s.count64 Reg.FTL_CORR_CNT 1) := by
  refine ⟨rfl, fun a ha => ?_, rfl⟩
  simp only [List.mem_cons, List.not_mem_nil, or_false, not_or] at ha
  exact s.reg_setReg64_ne _ ha.1 ha.2

theorem readCodeword (s : State) (c : Nat) (d : FlashDecode) : FlashReadFrame s (s.readCodeword c d) := by
  unfold State.readCodeword
  extract_lets s1
  have hread : FlashReadFrame s s1 := countRead s _ _
  split
  · exact hread
  · exact hread.trans (with_flash _ rfl)
  · exact hread.trans (countCorrected _)

theorem readCodewords (ctx : Nat) (found : Found) (xs : List Nat) (s : State) (i : Nat) :
    FlashReadFrame s (s.readCodewords ctx found i xs) := by
  induction xs generalizing s i with
  | nil => exact refl s
  | cons x xs ih =>
    rw [State.readCodewords]
    split
    · extract_lets d a
      have hread : FlashReadFrame s a := readCodeword s _ _
      split
      · exact hread
      · exact hread.trans (ih _ _)
    · exact ih s (i + 1)

theorem countReads (s : State) (ctx va len : Nat) (found : Found) : FlashReadFrame s (s.countReads ctx va len found) := by
  unfold State.countReads
  split
  · exact refl s
  · exact readCodewords ..

end FlashReadFrame

/-! ### Translation buffers and locked entries (R184, R185) -/

theorem State.tlbEvict_only (n : Nat) (s : State) (die : Nat) :
    s.tlbEvict die n = { s with tlb := (s.tlbEvict die n).tlb, freeCtr := (s.tlbEvict die n).freeCtr } := by
  induction n generalizing s with
  | zero => rfl
  | succ n ih =>
    rw [State.tlbEvict]
    exact (ih _).trans rfl

/-- The buffer of a die once the pages of a context's root are locked there. -/
def State.lockOn (s : State) (k die : Nat) : State :=
  let es := (s.tlbOf die).filter (fun e => !(e.ctx == k && (s.mapping? k e.va).isSome))
  { s with tlb := Sparse.put (fun _ => []) s.tlb die es }.tlbEvict die (es.length + s.lockedOn die - 4096)

theorem State.lockEntries_eq (s : State) (k : Nat) :
    s.lockEntries k = if s.locks k then (s.ctxDies k).foldl (fun (a : State) d => a.lockOn k d) s else s := rfl

theorem State.tlbEvict_with_tlb (s : State) (tlb : Sparse (List TlbEntry)) (die n : Nat) :
    ({ s with tlb := tlb } : State).tlbEvict die n =
      { s with tlb := (({ s with tlb := tlb } : State).tlbEvict die n).tlb
               freeCtr := (({ s with tlb := tlb } : State).tlbEvict die n).freeCtr } := (State.tlbEvict_only n _ die).trans rfl

theorem State.lockOn_only (s : State) (k die : Nat) :
    s.lockOn k die = { s with tlb := (s.lockOn k die).tlb, freeCtr := (s.lockOn k die).freeCtr } := State.tlbEvict_with_tlb s _ die _

/-- The locking of a context's entries changes the buffers alone, and takes free values for the entries that make room. -/
theorem State.lockEntries_only (s : State) (k : Nat) :
    s.lockEntries k = { s with tlb := (s.lockEntries k).tlb, freeCtr := (s.lockEntries k).freeCtr } := by
  rw [State.lockEntries_eq]
  split
  · refine List.foldlRecOn (motive := fun t : State => t = { s with tlb := t.tlb, freeCtr := t.freeCtr }) _ _ rfl fun a ha d _ => ?_
    refine (a.lockOn_only k d).trans ?_
    generalize a.lockOn k d = t
    rw [ha]
  · rfl

theorem State.lockEntries_of_class {s : State} {k : Nat} (h : s.defaultClass k ≠ 0) : s.lockEntries k = s :=
  if_neg (by simp [State.locks, h])

/-- The locked entries of a die count the contexts that lock theirs: one that does not, before and after, may change. -/
theorem State.lockedOn_setCtx {s : State} {k : Nat} {c : Ctx} (h : s.locks k = false) (h' : (s.setCtx k c).locks k = false) (die : Nat) :
    (s.setCtx k c).lockedOn die = s.lockedOn die := by
  have hlocks : (s.setCtx k c).locks = s.locks := by
    funext j
    by_cases hj : j = k
    · rw [hj, h, h']
    · unfold State.locks
      rw [s.ctx_setCtx_ne c hj]
      rfl
  have hfilter := Sparse.filter_put (d := fun _ => {}) (m := s.ctxs) (k := k) (v := c)
    (P := fun p => s.locks p.1 && (s.ctxDies p.1).contains die) fun v => by simp [h]
  unfold State.lockedOn
  rw [hlocks]
  exact congrArg (fun ps : Sparse Ctx => (ps.map (fun p => s.pagesMapped p.1)).sum) hfilter

end Sys2Proof.Machine
end

section
/-! Residencies of contexts (chapter 04): the requests of LAY_CTX_CTRL, the entry into RESIDENT, a failed residency, and what the
sequence of R74 leaves of a context that does not wait. -/

namespace Sys2Proof.Machine

/-! ### Requests of LAY_CTX_CTRL (R81, R91) -/

/-- The state with another register file. -/
def State.withRegs (s : State) (r : Sparse Word) : State := { s with regs := r }

/-- The state with the fields of LAY_CTX_CTRL as a request writes them. -/
def State.ctxFields (s : State) (op k : Nat) : State := (s.setFld Fld.LAY_CTX_CTRL_op op).setFld Fld.LAY_CTX_CTRL_ctx_id k

theorem State.event_withRegs (s : State) (e : Evt) : s.event e = s.withRegs (s.event e).regs := rfl

theorem State.ctxFields_eq (s : State) (op k : Nat) :
    ∃ r, s.ctxFields op k = s.withRegs r ∧ RegsKept s (s.withRegs r) [Reg.LAY_CTX_CTRL] := by
  have honly : s.ctxFields op k = s.withRegs (s.ctxFields op k).regs := by
    unfold State.ctxFields State.withRegs
    rw [State.setFld_regs_only (s.setFld _ op), State.setFld_regs_only s]
  refine ⟨_, honly, fun a ha => ?_⟩
  have hne : a ≠ Reg.LAY_CTX_CTRL := by simpa using ha
  rw [← honly, State.ctxFields, State.reg_setFld_ne _ _ (by decide) hne, State.reg_setFld_ne _ _ (by decide) hne]

theorem State.hostReady_ctxFields (s : State) (op k : Nat) : (s.ctxFields op k).hostReady = s.hostReady := by
  have hfld : (s.ctxFields op k).fld Fld.HQ_DEV_STATE_state = s.fld Fld.HQ_DEV_STATE_state := by
    rw [State.ctxFields, State.fld_setFld_ne _ _ (by decide) (by decide) (by decide),
      State.fld_setFld_ne _ _ (by decide) (by decide) (by decide)]
  unfold State.hostReady
  rw [hfld]

/-- A request that reaches the loader is taken, or counted in cmd_reject. -/
theorem State.ctxRequest_of_served {s : State} {who : Requester} {op k : Nat} (f : State → State)
    (h : s.served who 1 0x46 false = true) :
    s.ctxRequest who op k f = if ctxTaken s who k then f (s.ctxFields op k) else (s.ctxFields op k).ctxReject := by
  have hready := s.hostReady_ctxFields op k
  obtain ⟨r, hr, -⟩ := s.ctxFields_eq op k
  unfold State.ctxRequest
  rw [State.busWrite_of_served _ h]
  change (if (!(s.ctxFields op k).hostReady || (s.ctxFields op k).load.isSome || (s.ctxFields op k).proofRunning ||
    ((s.ctxFields op k).ctx k).waiting) = true then _ else _) = _
  have hcond : (!(s.ctxFields op k).hostReady || (s.ctxFields op k).load.isSome || (s.ctxFields op k).proofRunning ||
      ((s.ctxFields op k).ctx k).waiting) = !ctxTaken s who k := by
    rw [hready, hr]
    change (!s.hostReady || s.load.isSome || s.proofRunning || (s.ctx k).waiting) = _
    simp [ctxTaken, h]
  rw [hcond]
  cases ctxTaken s who k
  · rfl
  · rfl

theorem served_of_ctxTaken {s : State} {who : Requester} {k : Nat} (h : ctxTaken s who k = true) : s.served who 1 0x46 false = true := by
  unfold ctxTaken at h
  simp only [Bool.and_eq_true] at h
  obtain ⟨⟨⟨⟨hserved, -⟩, -⟩, -⟩, -⟩ := h
  exact hserved

theorem State.ctxRequest_of_taken {s : State} {who : Requester} {op k : Nat} (f : State → State) (h : ctxTaken s who k = true) :
    s.ctxRequest who op k f = f (s.ctxFields op k) := by
  rw [State.ctxRequest_of_served f (served_of_ctxTaken h), if_pos h]

/-! ### Entry into RESIDENT (R72 step 4, R77, R81) -/

/-- The fusion engine after the entry of a context into RESIDENT: that of its owner begins anew (R257). -/
def State.fusionAnew (s : State) (k : Nat) : FusionSt :=
  if s.engineCtx 6 = some k then { s.fusion with restart := some s.now, run := none } else s.fusion

/-- The register that a restart of the fusion engine writes. -/
def State.fusionRegs (s : State) (k : Nat) : List Nat := if s.engineCtx 6 = some k then [Reg.FUSN_STATUS] else []

/-- What Crust holds after the entry of a context into RESIDENT: the lidar mask of the fusion owner is dropped (R357). -/
def State.crustAnew (s : State) (k : Nat) : CrustSt :=
  if s.engineCtx 6 = some k then { s.crust with psf := { s.crust.psf with lidarAt := none } } else s.crust

theorem State.dropLidar_eq (s : State) (k : Nat) : s.dropLidar k = { s with crust := s.crustAnew k } := by
  unfold State.dropLidar State.crustAnew
  split
  · rfl
  · rfl

/-- An entry into RESIDENT begins the mask and the slots of the fusion owner anew (R257, R357). -/
theorem State.noteRestart_dropLidar (s : State) (k : Nat) :
    ∃ r, (s.dropLidar k).noteRestart k = { s with regs := r, crust := s.crustAnew k, fusion := s.fusionAnew k } ∧
      RegsKept s (s.withRegs r) (s.fusionRegs k) := by
  rw [s.dropLidar_eq k]
  by_cases howner : s.engineCtx 6 = some k
  · rw [State.fusionAnew, State.fusionRegs, if_pos howner, if_pos howner]
    exact ⟨(s.setFld Fld.FUSN_STATUS_busy 0).regs, (if_pos howner).trans (State.setFld_regs_only ..),
      fun a ha => s.reg_setFld_ne 0 (by decide) (by simpa using ha)⟩
  · rw [State.fusionAnew, State.fusionRegs, if_neg howner, if_neg howner]
    exact ⟨s.regs, if_neg howner, fun _ _ => rfl⟩

/-- A context as it enters RESIDENT, with the bases and the anchor of its schedule (R77). -/
def Ctx.entering (c : Ctx) (bases : List (Nat × Nat)) (anchor : Nat) : Ctx :=
  { c with phase := .resident, waiting := false, bases := bases, actCount := 0, anchor := anchor, lastInstant := 0, acts := [] }

/-- The state with a context that enters RESIDENT and a register file, before its entries are locked. -/
def State.entering (s : State) (k : Nat) (r : Sparse Word) : State :=
  { s with
    regs := r, ctxs := (s.setCtx k ((s.ctx k).entering s.syncBases (s.localNow (s.queDie k)))).ctxs, crust := s.crustAnew k
    fusion := s.fusionAnew k }

theorem State.enterResident_eq (s : State) (k : Nat) :
    ∃ r, s.enterResident k = ((s.entering k r).lockEntries k).event Ev.LAY_CTX_EVENT_resident ∧
      RegsKept s (s.withRegs r) (s.fusionRegs k) := by
  obtain ⟨r, hrestart, hkept⟩ := s.noteRestart_dropLidar k
  refine ⟨r, ?_, hkept⟩
  unfold State.enterResident
  rw [hrestart]
  rfl

/-- The second state is the first with a context that has entered RESIDENT. -/
structure Entered (s t : State) (k : Nat) : Prop where
  ctx : t.ctx k = (s.ctx k).entering s.syncBases (s.localNow (s.queDie k))
  others : ∀ j, j ≠ k → t.ctx j = s.ctx j
  entries : ∀ p ∈ t.ctxs, p = (k, t.ctx k) ∨ p ∈ s.ctxs ∧ p.1 ≠ k
  counted : Counted s t Ev.LAY_CTX_EVENT_resident
  kept : RegsKept s t (Ev.LAY_CTX_EVENT_resident.regs ++ s.fusionRegs k)
  buffers : s.defaultClass k ≠ 0 → t.tlb = s.tlb ∧ t.freeCtr = s.freeCtr
  only : t = { s with
    regs := t.regs, ctxs := t.ctxs, tlb := t.tlb, freeCtr := t.freeCtr, crust := s.crustAnew k, fusion := s.fusionAnew k }

theorem State.enterResident_entered (s : State) (k : Nat) : Entered s (s.enterResident k) k := by
  obtain ⟨r, henter, hkept⟩ := s.enterResident_eq k
  have hlock := State.lockEntries_only (s.entering k r) k
  have hclass (h : s.defaultClass k ≠ 0) := State.lockEntries_of_class (s := (s.entering k r)) (k := k) h
  have hcounter : Ev.LAY_CTX_EVENT_resident.counter ∉ s.fusionRegs k := by
    unfold State.fusionRegs
    split
    · decide
    · exact List.not_mem_nil
  rw [henter]
  generalize (s.entering k r).lockEntries k = x at hlock hclass
  have hctxs : (x.event Ev.LAY_CTX_EVENT_resident).ctxs = (s.setCtx k ((s.ctx k).entering s.syncBases (s.localNow (s.queDie k)))).ctxs :=
    (congrArg State.ctxs hlock :)
  have hregs (a : Nat) : x.reg a = (s.withRegs r).reg a := State.reg_congr (congrArg State.regs hlock :) a
  have hctx : (x.event Ev.LAY_CTX_EVENT_resident).ctx k = (s.ctx k).entering s.syncBases (s.localNow (s.queDie k)) :=
    (State.ctx_congr hctxs k).trans (State.ctx_setCtx_same ..)
  exact {
    ctx := hctx
    others := fun j hj => (State.ctx_congr hctxs j).trans (State.ctx_setCtx_ne _ _ hj)
    entries := fun p hp => by
      rw [hctxs] at hp
      rw [hctx]
      exact State.entries_setCtx hp
    counted := (counted_event x (by decide) (by decide)).since ((hregs _).trans (hkept _ hcounter))
    kept := fun a ha => by
      rw [List.mem_append, not_or] at ha
      exact (regsKept_event x _ a ha.1).trans ((hregs a).trans (hkept a ha.2))
    buffers := fun h => by
      rw [hclass h]
      exact ⟨rfl, rfl⟩
    only := by
      rw [hctxs]
      exact (x.event_withRegs _).trans (congrArg (fun a => State.withRegs a (x.event Ev.LAY_CTX_EVENT_resident).regs) hlock) }

/-- What the statements say of an entry into RESIDENT, where the request has written LAY_CTX_CTRL and the context beforehand. -/
theorem Entered.of_request {s t : State} {k : Nat} {r : Sparse Word} {c : Ctx}
    (h : Entered ((s.withRegs r).setCtx k c) t k) (hkept : RegsKept s (s.withRegs r) [Reg.LAY_CTX_CTRL]) :
    (t.ctx k).bases = s.syncBases ∧ (t.ctx k).anchor = s.localNow (s.queDie k) ∧ (t.ctx k).acts = [] ∧
      Counted s t Ev.LAY_CTX_EVENT_resident ∧ (∀ j, j ≠ k → t.ctx j = s.ctx j) ∧ EntryKeeps s t k := by
  refine ⟨(congrArg Ctx.bases h.ctx :), (congrArg Ctx.anchor h.ctx :), (congrArg Ctx.acts h.ctx :),
    h.counted.since (hkept _ (by decide)), fun j hj => (h.others j hj).trans (State.ctx_setCtx_ne _ _ hj), fun a ha => ?_, h.buffers, ?_⟩
  · rw [List.cons_append, List.mem_cons, not_or] at ha
    exact (h.kept a ha.2).trans (hkept a (by simpa using ha.1))
  · rw [s.dropLidar_eq k]
    exact h.only


/-! ### A failed residency (R73) -/

/-- A context as its residency fails with a code. -/
def Ctx.failing (c : Ctx) (code : Nat) : Ctx := { c with phase := .nonresident, waiting := false, code := code }

/-- The second state is the first with a context whose residency has failed with a code. -/
structure ResidencyFails (s t : State) (k code : Nat) : Prop where
  ctx : t.ctx k = (s.ctx k).failing code
  others : ∀ j, j ≠ k → t.ctx j = s.ctx j
  entries : ∀ p ∈ t.ctxs, p = (k, t.ctx k) ∨ p ∈ s.ctxs ∧ p.1 ≠ k
  counted : Counted s t Ev.LAY_CTX_EVENT_res_fail
  kept : RegsKept s t Ev.LAY_CTX_EVENT_res_fail.regs
  status : ∀ i, (s.reg Reg.LAY_CTX_EVENT).getLsbD i = true → (t.reg Reg.LAY_CTX_EVENT).getLsbD i = true
  only : t = { s with regs := t.regs, ctxs := t.ctxs, queues := t.queues }

/-- The state with queues, and a context NONRESIDENT with a code. -/
def State.failing (s : State) (k code : Nat) (q : Sparse Queue) : State :=
  { s with queues := q, ctxs := (s.setCtx k ((s.ctx k).failing code)).ctxs }

theorem State.residencyFailed_eq (s : State) (k code : Nat) :
    ∃ q, s.residencyFailed k code = (s.failing k code q).event Ev.LAY_CTX_EVENT_res_fail := ⟨_, rfl⟩

theorem State.residencyFailed_fails (s : State) (k code : Nat) : ResidencyFails s (s.residencyFailed k code) k code := by
  obtain ⟨q, hfailed⟩ := s.residencyFailed_eq k code
  rw [hfailed]
  have hctxs : ((s.failing k code q).event Ev.LAY_CTX_EVENT_res_fail).ctxs = (s.setCtx k ((s.ctx k).failing code)).ctxs := rfl
  have hctx := (State.ctx_congr hctxs k).trans (State.ctx_setCtx_same ..)
  exact {
    ctx := hctx
    others := fun j hj => (State.ctx_congr hctxs j).trans (State.ctx_setCtx_ne _ _ hj)
    entries := fun p hp => by
      rw [hctxs] at hp
      rw [hctx]
      exact State.entries_setCtx hp
    counted := counted_event (s.failing k code q) (by decide) (by decide)
    kept := regsKept_event (s.failing k code q) _
    status := fun _ hi => State.getLsbD_event_of_set (s := s.failing k code q) (by decide) hi
    only := rfl }

/-! ### The start of a residency (R72 step 2) -/

/-- The state with a context LOADING from its first transfer on. -/
def State.loading (s : State) (k : Nat) : State := s.setCtx k { s.ctx k with phase := .loading, waiting := false, resNext := 0 }

/-- A context that loads locks nothing yet. -/
theorem State.lockFull_loading {s : State} {k : Nat} (h : (s.ctx k).phase = .nonresident) (n : Nat) :
    (s.loading k).lockFull k n = s.lockFull k n := by
  have hlocked : (s.loading k).lockedOn = s.lockedOn := by
    funext die
    refine State.lockedOn_setCtx ?_ ?_ die
    · simp [State.locks, h]
    · simp [State.locks]
  unfold State.lockFull
  rw [hlocked]
  rfl

theorem State.beginResidency_eq (s : State) (k : Nat) :
    s.beginResidency k =
      if (s.loading k).walkResidency k ≠ 0 then (s.loading k).residencyFailed k ((s.loading k).walkResidency k)
      else if ((s.loading k).residencyRecs k).isEmpty then (s.loading k).finishResidency k
      else if (s.loading k).lockFull k ((s.loading k).pagesMapped k) then (s.loading k).residencyFailed k 0x0208
      else s.loading k := rfl

/-- What the start of a residency can come to: a failure, RESIDENT at once, or LOADING. -/
theorem State.beginResidency_cases (s : State) (k : Nat) :
    (∃ code, s.beginResidency k = (s.loading k).residencyFailed k code) ∨ s.beginResidency k = (s.loading k).enterResident k ∨
      s.beginResidency k = s.loading k := by
  rw [State.beginResidency_eq, State.finishResidency]
  split
  · exact .inl ⟨_, rfl⟩
  · split
    · split
      · exact .inl ⟨_, rfl⟩
      · exact .inr (.inl rfl)
    · split
      · exact .inl ⟨_, rfl⟩
      · exact .inr (.inr rfl)

section Begin
variable {s : State} {k : Nat}

theorem State.beginResidency_of_fault (h : s.walkResidency k ≠ 0) :
    s.beginResidency k = (s.loading k).residencyFailed k (s.walkResidency k) := if_pos h

theorem State.beginResidency_of_lockFull (hphase : (s.ctx k).phase = .nonresident) (hwalk : s.walkResidency k = 0)
    (hlock : s.lockFull k (s.pagesMapped k) = true) : s.beginResidency k = (s.loading k).residencyFailed k 0x0208 := by
  have hlock' : (s.loading k).lockFull k ((s.loading k).pagesMapped k) = true := (State.lockFull_loading hphase _).trans hlock
  refine (if_neg (not_not.mpr hwalk)).trans ?_
  split
  · exact if_pos hlock'
  · exact if_pos hlock'

theorem State.beginResidency_of_no_transfer (hphase : (s.ctx k).phase = .nonresident) (hwalk : s.walkResidency k = 0)
    (hlock : s.lockFull k (s.pagesMapped k) = false) (hrecs : s.residencyRecs k = []) :
    s.beginResidency k = (s.loading k).enterResident k := by
  have hlock' : (s.loading k).lockFull k ((s.loading k).pagesMapped k) = false := (State.lockFull_loading hphase _).trans hlock
  refine (if_neg (not_not.mpr hwalk)).trans ((if_pos ?_).trans (if_neg (ne_true_of_eq_false hlock')))
  exact List.isEmpty_iff.mpr hrecs

theorem State.beginResidency_of_transfers (hphase : (s.ctx k).phase = .nonresident) (hwalk : s.walkResidency k = 0)
    (hlock : s.lockFull k (s.pagesMapped k) = false) (hrecs : s.residencyRecs k ≠ []) : s.beginResidency k = s.loading k := by
  have hlock' : (s.loading k).lockFull k ((s.loading k).pagesMapped k) = false := (State.lockFull_loading hphase _).trans hlock
  refine (if_neg (not_not.mpr hwalk)).trans ((if_neg ?_).trans (if_neg (ne_true_of_eq_false hlock')))
  exact fun hempty => hrecs (List.isEmpty_iff.mp hempty)

end Begin

end Sys2Proof.Machine
end

section
/-! The statements about residencies (chapter 04): requests of LAY_CTX_CTRL, the end of a residency transfer, and what the sequence of
R74 leaves of a context that does not wait. -/

namespace Sys2Proof.Machine

/-! ### The sequence of R74 -/

/-- What the residencies of other contexts leave: a context with its entry, memory and the flash store, and the event bit of an entry
into RESIDENT. -/
structure ContextKept (k : Nat) (s t : State) : Prop where
  ctx : t.ctx k = s.ctx k
  entries : ∀ p ∈ t.ctxs, p.1 = k → p ∈ s.ctxs
  phys : t.phys = s.phys
  flash : t.flash = s.flash
  resident : (s.reg Reg.LAY_CTX_EVENT).getLsbD 0 = true → (t.reg Reg.LAY_CTX_EVENT).getLsbD 0 = true

namespace ContextKept
variable {s t u : State} {j k : Nat}

theorem refl (k : Nat) (s : State) : ContextKept k s s := ⟨rfl, fun _ hp _ => hp, rfl, rfl, id⟩

theorem trans (hst : ContextKept k s t) (htu : ContextKept k t u) : ContextKept k s u where
  ctx := htu.ctx.trans hst.ctx
  entries p hp hk := hst.entries p (htu.entries p hp hk) hk
  phys := htu.phys.trans hst.phys
  flash := htu.flash.trans hst.flash
  resident := htu.resident ∘ hst.resident

theorem setCtx (s : State) (c : Ctx) (h : k ≠ j) : ContextKept k s (s.setCtx j c) where
  ctx := s.ctx_setCtx_ne c h
  entries p hp hk := by
    rcases State.entries_setCtx hp with rfl | hp
    · exact absurd hk h.symm
    · exact hp.1
  phys := rfl
  flash := rfl
  resident := id

theorem of_entered (ht : Entered s t j) (h : k ≠ j) : ContextKept k s t where
  ctx := ht.others k h
  entries p hp hk := by
    rcases ht.entries p hp with rfl | hp
    · exact absurd hk h.symm
    · exact hp.1
  phys := (congrArg State.phys ht.only :)
  flash := (congrArg State.flash ht.only :)
  resident _ := ht.counted.1

theorem of_fails {code : Nat} (ht : ResidencyFails s t j code) (h : k ≠ j) : ContextKept k s t where
  ctx := ht.others k h
  entries p hp hk := by
    rcases ht.entries p hp with rfl | hp
    · exact absurd hk h.symm
    · exact hp.1
  phys := (congrArg State.phys ht.only :)
  flash := (congrArg State.flash ht.only :)
  resident := ht.status 0

theorem beginResidency (s : State) (h : k ≠ j) : ContextKept k s (s.beginResidency j) := by
  have hloading : ContextKept k s (s.loading j) := setCtx s _ h
  rcases s.beginResidency_cases j with ⟨code, hfailed⟩ | hentered | hloads
  · rw [hfailed]
    exact hloading.trans (of_fails (State.residencyFailed_fails _ j code) h)
  · rw [hentered]
    exact hloading.trans (of_entered (State.enterResident_entered _ j) h)
  · rw [hloads]
    exact hloading

end ContextKept

/-- The sequence of R74 goes on with a context that waits, or rests. -/
theorem State.startWaiting_succ (s : State) (n : Nat) :
    s.startWaiting (n + 1) = s ∨
      ∃ p ∈ s.ctxs, p.2.waiting = true ∧ s.startWaiting (n + 1) = (s.beginResidency p.1).startWaiting n := by
  rw [State.startWaiting]
  split
  · exact .inl rfl
  · split
    · exact .inl rfl
    · next j hj =>
      have hmem := List.foldlRecOn (motive := fun b => ∀ j, b = some j → ∃ p ∈ s.ctxs, p.2.waiting = true ∧ p.1 = j) _ _
        (b := none) nofun (fun b hb p hp i hi => ?_) j hj
      · obtain ⟨p, hp, hwaits, rfl⟩ := hmem
        exact .inr ⟨p, hp, hwaits, rfl⟩
      · obtain ⟨hp, hwaits⟩ := List.mem_filter.mp hp
        split at hi
        · cases hi
          exact ⟨p, hp, hwaits, rfl⟩
        · split at hi
          · cases hi
            exact ⟨p, hp, hwaits, rfl⟩
          · exact hb i hi

/-- The sequence of R74 leaves a context that does not wait. -/
theorem State.startWaiting_kept {s : State} {k : Nat} (h : ∀ p ∈ s.ctxs, p.1 = k → p.2.waiting = false) (n : Nat) :
    ContextKept k s (s.startWaiting n) := by
  induction n generalizing s with
  | zero => exact ContextKept.refl k s
  | succ n ih =>
    rcases s.startWaiting_succ n with hrests | ⟨p, hp, hwaits, hbegins⟩
    · rw [hrests]
      exact ContextKept.refl k s
    · have hne : k ≠ p.1 := fun hk => by
        rw [h p hp hk.symm] at hwaits
        cases hwaits
      have hkept := ContextKept.beginResidency s hne
      rw [hbegins]
      exact hkept.trans (ih fun q hq hk => h q (hkept.entries q hq hk) hk)

end Sys2Proof.Machine
end

section
/-! The statements about residencies (chapter 04). -/

namespace Sys2Proof.Machine

/-! ### MAKE_RESIDENT (R72, R73, R81) -/

section MakeResident
variable {s : State} {who : Requester} {k : Nat}

theorem exec_makeResident_of_taken (htaken : ctxTaken s who k = true) (hphase : (s.ctx k).phase = .nonresident) :
    exec (.makeResident who k) s = .next ((s.ctxFields 1 k).askResidency k) := by
  change execMakeResident who k s = _
  obtain ⟨r, hr, -⟩ := s.ctxFields_eq 1 k
  rw [execMakeResident, State.ctxRequest_of_taken _ htaken, hr]
  exact congrArg _ (if_pos hphase)

theorem makeResident_at_once (htaken : ctxTaken s who k = true) (hopen : s.blkOpen 1 0x42 = true)
    (hphase : (s.ctx k).phase = .nonresident) (hwalk : s.walkResidency k = 0) (hlock : s.lockFull k (s.pagesMapped k) = false)
    (hrecs : s.residencyRecs k = []) :
    ∃ t, exec (.makeResident who k) s = .next t ∧ (t.ctx k).phase = .resident ∧ (t.ctx k).anchor = s.localNow (s.queDie k) ∧
      (t.ctx k).acts = [] ∧ (t.ctx k).bases = s.syncBases ∧ Counted s t Ev.LAY_CTX_EVENT_resident ∧
      (∀ j, j ≠ k → t.ctx j = s.ctx j) ∧ EntryKeeps s t k := by
  obtain ⟨r, hr, hkept⟩ := s.ctxFields_eq 1 k
  have hbegins : (s.withRegs r).askResidency k = ((s.withRegs r).loading k).enterResident k :=
    (if_pos hopen).trans (State.beginResidency_of_no_transfer hphase hwalk hlock hrecs)
  have hentered := State.enterResident_entered ((s.withRegs r).loading k) k
  obtain ⟨hbases, hanchor, hacts, hcounted, hothers, hkeeps⟩ := hentered.of_request hkept
  refine ⟨_, ?_, (congrArg Ctx.phase hentered.ctx :), hanchor, hacts, hbases, hcounted, hothers, hkeeps⟩
  rw [exec_makeResident_of_taken htaken hphase, hr, hbegins]

theorem makeResident_loads (htaken : ctxTaken s who k = true) (hopen : s.blkOpen 1 0x42 = true)
    (hphase : (s.ctx k).phase = .nonresident) (hwalk : s.walkResidency k = 0) (hlock : s.lockFull k (s.pagesMapped k) = false)
    (hrecs : s.residencyRecs k ≠ []) :
    ∃ t, exec (.makeResident who k) s = .next t ∧ t.ctx k = { s.ctx k with phase := .loading, waiting := false, resNext := 0 } ∧
      (∀ j, j ≠ k → t.ctx j = s.ctx j) ∧ RegsKept s t [Reg.LAY_CTX_CTRL] ∧ t = { s with regs := t.regs, ctxs := t.ctxs } := by
  obtain ⟨r, hr, hkept⟩ := s.ctxFields_eq 1 k
  have hbegins : (s.withRegs r).askResidency k = (s.withRegs r).loading k :=
    (if_pos hopen).trans (State.beginResidency_of_transfers hphase hwalk hlock hrecs)
  refine ⟨_, ?_, State.ctx_setCtx_same (s.withRegs r) k _, fun j hj => State.ctx_setCtx_ne (s.withRegs r) _ hj, hkept, rfl⟩
  rw [exec_makeResident_of_taken htaken hphase, hr, hbegins]
  rfl

theorem makeResident_waits (htaken : ctxTaken s who k = true) (hclosed : s.blkOpen 1 0x42 = false)
    (hphase : (s.ctx k).phase = .nonresident) :
    ∃ t, exec (.makeResident who k) s = .next t ∧ t.ctx k = { s.ctx k with waiting := true } ∧
      (∀ j, j ≠ k → t.ctx j = s.ctx j) ∧ RegsKept s t [Reg.LAY_CTX_CTRL] ∧ t = { s with regs := t.regs, ctxs := t.ctxs } := by
  obtain ⟨r, hr, hkept⟩ := s.ctxFields_eq 1 k
  have hwaits : (s.withRegs r).askResidency k = (s.withRegs r).setCtx k { s.ctx k with waiting := true } :=
    if_neg (ne_true_of_eq_false hclosed)
  refine ⟨_, ?_, State.ctx_setCtx_same (s.withRegs r) k _, fun j hj => State.ctx_setCtx_ne (s.withRegs r) _ hj, hkept, rfl⟩
  rw [exec_makeResident_of_taken htaken hphase, hr, hwaits]

/-- The code of a walk that faults, or of locked entries that do not fit. -/
theorem beginResidency_fails (hphase : (s.ctx k).phase = .nonresident)
    (hfail : s.walkResidency k ≠ 0 ∨ s.lockFull k (s.pagesMapped k) = true) :
    s.beginResidency k = (s.loading k).residencyFailed k (if s.walkResidency k ≠ 0 then s.walkResidency k else 0x0208) := by
  by_cases hwalk : s.walkResidency k = 0
  · rw [if_neg (not_not.mpr hwalk)]
    exact State.beginResidency_of_lockFull hphase hwalk (hfail.resolve_left (not_not.mpr hwalk))
  · rw [if_pos hwalk]
    exact State.beginResidency_of_fault hwalk

theorem makeResident_fails (htaken : ctxTaken s who k = true) (hopen : s.blkOpen 1 0x42 = true)
    (hphase : (s.ctx k).phase = .nonresident) (hfail : s.walkResidency k ≠ 0 ∨ s.lockFull k (s.pagesMapped k) = true) :
    ∃ t, exec (.makeResident who k) s = .next t ∧ (t.ctx k).phase = .nonresident ∧
      (t.ctx k).code = (if s.walkResidency k ≠ 0 then s.walkResidency k else 0x0208) ∧
      Counted s t Ev.LAY_CTX_EVENT_res_fail ∧ t = { s with regs := t.regs, ctxs := t.ctxs, queues := t.queues } ∧
      BlocksKept s t [0x146] := by
  obtain ⟨r, hr, hkept⟩ := s.ctxFields_eq 1 k
  have hbegins : (s.withRegs r).askResidency k = ((s.withRegs r).loading k).residencyFailed k
      (if s.walkResidency k ≠ 0 then s.walkResidency k else 0x0208) :=
    (if_pos hopen).trans (beginResidency_fails (s := s.withRegs r) hphase hfail)
  have hfails := State.residencyFailed_fails ((s.withRegs r).loading k) k (if s.walkResidency k ≠ 0 then s.walkResidency k else 0x0208)
  have hblock : ∀ a ∈ Reg.LAY_CTX_CTRL :: Ev.LAY_CTX_EVENT_res_fail.regs, a / 65536 ∈ [0x146] := by decide
  refine ⟨_, ?_, (congrArg Ctx.phase hfails.ctx :), (congrArg Ctx.code hfails.ctx :), hfails.counted.since (hkept _ (by decide)),
    hfails.only, fun a ha => ?_⟩
  · rw [exec_makeResident_of_taken htaken hphase, hr, hbegins]
  · have hne : a ∉ Reg.LAY_CTX_CTRL :: Ev.LAY_CTX_EVENT_res_fail.regs := fun hmem => ha (hblock a hmem)
    rw [List.mem_cons, not_or] at hne
    exact (hfails.kept a hne.2).trans (hkept a (by simpa using hne.1))

/-- A request that is not taken is counted in cmd_reject and changes nothing else (R81, R91). -/
theorem makeResident_rejected (hserved : s.served who 1 0x46 false = true)
    (h : ctxTaken s who k = false ∨ (s.ctx k).phase ≠ .nonresident) :
    ∃ t, exec (.makeResident who k) s = .next t ∧ Counted s t Ev.LAY_CTX_EVENT_cmd_reject ∧ t = { s with regs := t.regs } ∧
      RegsKept s t (Reg.LAY_CTX_CTRL :: Ev.LAY_CTX_EVENT_cmd_reject.regs) := by
  obtain ⟨r, hr, hkept⟩ := s.ctxFields_eq 1 k
  have hrejects : exec (.makeResident who k) s = .next ((s.withRegs r).event Ev.LAY_CTX_EVENT_cmd_reject) := by
    change execMakeResident who k s = _
    rw [execMakeResident, State.ctxRequest_of_served _ hserved, hr]
    split
    · next htaken => exact congrArg _ (if_neg (h.resolve_left (ne_false_of_eq_true htaken)))
    · rfl
  refine ⟨_, hrejects, (counted_event _ (by decide) (by decide)).since (hkept _ (by decide)), rfl, fun a ha => ?_⟩
  rw [List.mem_cons, not_or] at ha
  exact (regsKept_event (s.withRegs r) _ a ha.2).trans (hkept a (by simpa using ha.1))

end MakeResident

/-! ### RESIDENCY_TRANSFER_COMPLETE (R72, R73, R188) -/

section Transfer
variable {s m : State} {k : Nat} {found : Found} {r : Bytes}

/-- The state with the flash reads of a residency transfer counted. -/
def State.transferRead (s : State) (k : Nat) (r : Bytes) (found : Found) : State :=
  (s.noteActive 2).countReads k (fieldAt r 8 8) (fieldAt r 0x18 4) found

theorem exec_residencyTransferComplete_of_moved (hlost : found.lost = false) (hphase : (s.ctx k).phase = .loading)
    (hrec : (s.residencyRecs k)[(s.ctx k).resNext]? = some r)
    (hmoved : (s.transferRead k r found).transfer k (fieldAt r 8 8) (fieldAt r 0x10 8) (fieldAt r 0x18 4) = .ok m) :
    exec (.residencyTransferComplete k found) s = .next ((m.nextTransfer k).startWaiting 64) := by
  change execResidencyTransferComplete k found s = _
  rw [State.transferRead] at hmoved
  simp only [execResidencyTransferComplete, hphase, hrec, hlost, Bool.false_and, Bool.false_eq_true, if_false, hmoved]

theorem exec_residencyTransferComplete_of_lost (hlost : found.lost = true) (hphase : (s.ctx k).phase = .loading)
    (hrec : (s.residencyRecs k)[(s.ctx k).resNext]? = some r) (htier : s.inFlash k (fieldAt r 8 8) = false) :
    exec (.residencyTransferComplete k found) s =
      .next ((((s.transferRead k r found).report 0x0B 0).residencyFailed k 0x0204).startWaiting 64) := by
  change execResidencyTransferComplete k found s = _
  have hread : s.transferRead k r found = _ := (FlashReadFrame.countReads (s.noteActive 2) k _ _ found).only
  have htier' : (s.transferRead k r found).inFlash k (fieldAt r 8 8) = false := by
    rw [hread]
    exact htier
  rw [State.transferRead] at htier' ⊢
  simp only [execResidencyTransferComplete, hphase, hrec, hlost, htier', Bool.not_false, Bool.and_true, if_true, State.accessFault,
    or_true, (by decide : ¬(0x0204 = 0x0401)), if_false]

/-- A transfer that has moved its data has changed registers, memory and the flash store, and the activity of the tiers. -/
theorem moved_only (hmoved : (s.transferRead k r found).transfer k (fieldAt r 8 8) (fieldAt r 0x10 8) (fieldAt r 0x18 4) = .ok m) :
    m = { s with power := m.power, regs := m.regs, phys := m.phys, flash := m.flash, freeCtr := m.freeCtr } := by
  have hread := (FlashReadFrame.countReads (s.noteActive 2) k (fieldAt r 8 8) (fieldAt r 0x18 4) found).only
  have hmove := State.transfer_only hmoved
  rw [State.transferRead, hread] at hmove
  rw [hmove]
  rfl

theorem residencyTransferComplete_enters (hlost : found.lost = false) (hphase : (s.ctx k).phase = .loading)
    (hrec : (s.residencyRecs k)[(s.ctx k).resNext]? = some r) (hlast : (s.residencyRecs k).length = (s.ctx k).resNext + 1)
    (hlock : s.lockFull k (s.pagesMapped k) = false)
    (hmoved : (s.transferRead k r found).transfer k (fieldAt r 8 8) (fieldAt r 0x10 8) (fieldAt r 0x18 4) = .ok m) :
    ∃ t, exec (.residencyTransferComplete k found) s = .next t ∧ (t.ctx k).phase = .resident ∧ t.phys = m.phys ∧
      t.flash = m.flash ∧ t.flag Fld.LAY_CTX_EVENT_resident = true := by
  have hm := moved_only hmoved
  have hlayout : m.layout = s.layout := (congrArg State.layout hm :)
  have hctxs : m.ctxs = s.ctxs := (congrArg State.ctxs hm :)
  have hlast' : (m.residencyRecs k)[(m.ctx k).resNext + 1]? = none := by
    rw [hm]
    exact List.getElem?_eq_none hlast.le
  have hlock' : m.lockFull k (m.pagesMapped k) = false := by
    rw [hm]
    exact hlock
  have hnext : m.nextTransfer k = m.enterResident k := by
    rw [State.nextTransfer, hlast']
    exact if_neg (ne_true_of_eq_false hlock')
  have hentered := m.enterResident_entered k
  have hkept : ContextKept k (m.enterResident k) ((m.enterResident k).startWaiting 64) :=
    State.startWaiting_kept (fun p hp hk => by
      rcases hentered.entries p hp with rfl | ⟨-, hne⟩
      · exact (congrArg Ctx.waiting hentered.ctx :)
      · exact absurd hk hne) 64
  refine ⟨_, exec_residencyTransferComplete_of_moved hlost hphase hrec hmoved, ?_⟩
  rw [hnext]
  exact ⟨congrArg Ctx.phase (hkept.ctx.trans hentered.ctx), hkept.phys.trans (congrArg State.phys hentered.only :),
    hkept.flash.trans (congrArg State.flash hentered.only :),
    State.flag_of_getLsbD (by decide) (hkept.resident hentered.counted.1)⟩

theorem residencyTransferComplete_loses (hlost : found.lost = true) (hphase : (s.ctx k).phase = .loading)
    (hrec : (s.residencyRecs k)[(s.ctx k).resNext]? = some r) (htier : s.inFlash k (fieldAt r 8 8) = false)
    (hwaits : ∀ p ∈ s.ctxs, p.2.waiting = false) :
    ∃ t, exec (.residencyTransferComplete k found) s = .next t ∧ (t.ctx k).phase = .nonresident ∧ (t.ctx k).code = 0x0204 ∧
      Counted s t Ev.LAY_CTX_EVENT_res_fail ∧ t.phys = s.phys ∧ t.crust.reports = s.crust.reports ++ [(0x0B, 0)] ∧
      t.flash.bytes = s.flash.bytes ∧ BlocksKept s t [0x143, 0x146] ∧
      t = { s with regs := t.regs, ctxs := t.ctxs, queues := t.queues, power := t.power, crust := t.crust, flash := t.flash } := by
  have hread := FlashReadFrame.countReads (s.noteActive 2) k (fieldAt r 8 8) (fieldAt r 0x18 4) found
  have hexec := exec_residencyTransferComplete_of_lost hlost hphase hrec htier
  rw [State.transferRead] at hexec
  generalize (s.noteActive 2).countReads k (fieldAt r 8 8) (fieldAt r 0x18 4) found = m at hread hexec
  have hctxs : m.ctxs = s.ctxs := (congrArg State.ctxs hread.only :)
  have hfails := (m.report 0x0B 0).residencyFailed_fails k 0x0204
  rw [State.startWaiting_of_none fun p hp => by
    rcases hfails.entries p hp with rfl | ⟨hp, -⟩
    · exact (congrArg Ctx.waiting hfails.ctx :)
    · exact hwaits p (hctxs ▸ hp)] at hexec
  generalize (m.report 0x0B 0).residencyFailed k 0x0204 = t at hfails hexec
  have hcrust : m.crust = s.crust := (congrArg State.crust hread.only :)
  have hregs (a : Nat) (ha : a ∉ [Reg.FTL_CORR_CNT, Reg.FTL_CORR_CNT + 4]) : m.reg a = s.reg a := hread.kept a ha
  refine ⟨t, hexec, (congrArg Ctx.phase hfails.ctx :), (congrArg Ctx.code hfails.ctx :),
    hfails.counted.since (hregs _ (by decide)), ?_, ?_, ?_, fun a ha => ?_, ?_⟩
  · exact (congrArg State.phys hfails.only :).trans (congrArg State.phys hread.only :)
  · rw [show t.crust = _ from congrArg State.crust hfails.only, ← hcrust]
    rfl
  · exact (congrArg (·.flash.bytes) hfails.only :).trans hread.bytes
  · have hfail : ∀ a ∈ Ev.LAY_CTX_EVENT_res_fail.regs, a / 65536 ∈ [0x143, 0x146] := by decide
    have hcorr : ∀ a ∈ [Reg.FTL_CORR_CNT, Reg.FTL_CORR_CNT + 4], a / 65536 ∈ [0x143, 0x146] := by decide
    exact (hfails.kept a fun hmem => ha (hfail a hmem)).trans (hregs a fun hmem => ha (hcorr a hmem))
  · have hpower : t.power = (s.noteActive 2).power := (congrArg State.power hfails.only :).trans (congrArg State.power hread.only :)
    have hflash : t.flash = m.flash := (congrArg State.flash hfails.only :)
    have hreport : t.crust = (s.report 0x0B 0).crust :=
      (congrArg State.crust hfails.only :).trans (congrArg (fun a : State => (a.report 0x0B 0).crust) hread.only :)
    rw [hpower, hflash, hreport]
    exact hfails.only.trans (congrArg (fun a : State => { a.report 0x0B 0 with regs := t.regs, ctxs := t.ctxs, queues := t.queues })
      hread.only)

end Transfer

/-! ### MAKE_NONRESIDENT and RELEASE (R77, R81, R451) -/

/-- The loss of a context's slots signals nothing; what else it leaves is `CommitFrame.dropSlots`. -/
theorem State.dropSlots_syncs (s : State) (k : Nat) : (s.dropSlots k).syncs = s.syncs := by
  unfold State.dropSlots
  refine List.foldlRecOn (motive := fun t : State => t.syncs = s.syncs) _ _ rfl fun a ha p _ => ?_
  simp only [State.setFld_syncs, State.setSeqCmd_syncs, State.eventIf_syncs, ha]

theorem State.dropShares_only (s : State) (k : Nat) :
    s.dropShares k = { s with phys := (s.dropShares k).phys, freeCtr := (s.dropShares k).freeCtr } := by
  unfold State.dropShares
  split
  · rfl
  · exact State.undefRanges_only _ s


/-- Quiescence does not depend on LAY_CTX_CTRL, which no queue's control register is. -/
theorem State.quiesced_ctxFields (s : State) (op k : Nat) : (s.ctxFields op k).quiesced k = s.quiesced k := by
  obtain ⟨r, hr, hkept⟩ := s.ctxFields_eq op k
  have hrun : (s.withRegs r).flag (Fld.HQ_Q_CTRL_run k) = s.flag (Fld.HQ_Q_CTRL_run k) := by
    have hne : Reg.HQ_Q_CTRL k ∉ [Reg.LAY_CTX_CTRL] := by
      simp [Reg.HQ_Q_CTRL, Reg.LAY_CTX_CTRL]
      omega
    rw [State.flag, State.flag, State.fld_word _ (by simp), State.fld_word _ (by simp), hkept _ hne]
  rw [hr]
  unfold State.quiesced
  rw [hrun]
  rfl

section Leave
variable {s : State} {who : Requester} {k : Nat}

theorem makeNonresident_leaves (htaken : ctxTaken s who k = true) (hphase : (s.ctx k).phase = .resident ∨ (s.ctx k).phase = .stopped)
    (hquiesced : s.quiesced k = true) :
    ∃ t, exec (.makeNonresident who k) s = .next t ∧ t.ctx k = { s.ctx k with phase := .nonresident } ∧
      t.flag Fld.LAY_CTX_EVENT_nonresident = true ∧ (∀ j, j ≠ k → t.ctx j = s.ctx j) ∧ t.layout = s.layout ∧ t.maps = s.maps ∧
      t.syncs = s.syncs ∧ t.kv = s.kv := by
  have hquiesced' := (s.quiesced_ctxFields 2 k).trans hquiesced
  obtain ⟨r, hr, -⟩ := s.ctxFields_eq 2 k
  rw [hr] at hquiesced'
  have hleaves : exec (.makeNonresident who k) s = .next
      (((((s.withRegs r).setCtx k { s.ctx k with phase := .nonresident }).dropSlots k).dropShares k).event
        Ev.LAY_CTX_EVENT_nonresident) := by
    change execMakeNonresident who k s = _
    rw [execMakeNonresident, State.ctxRequest_of_taken _ htaken, hr]
    exact congrArg _ (if_pos ⟨hphase, hquiesced'⟩)
  generalize hx : (s.withRegs r).setCtx k { s.ctx k with phase := .nonresident } = x at hleaves
  have hframe := CommitFrame.dropSlots x k
  have hsyncs := x.dropSlots_syncs k
  have hshares := (x.dropSlots k).dropShares_only k
  generalize x.dropSlots k = y at hframe hsyncs hshares hleaves
  generalize y.dropShares k = z at hshares hleaves
  have hctxs : (z.event Ev.LAY_CTX_EVENT_nonresident).ctxs = x.ctxs := (congrArg State.ctxs hshares :).trans hframe.ctxs
  refine ⟨_, hleaves, ?_, State.flag_of_getLsbD (by decide) (counted_event z (by decide) (by decide)).1, fun j hj => ?_, ?_, ?_, ?_, ?_⟩
  · rw [State.ctx_congr hctxs, ← hx, State.ctx_setCtx_same]
  · rw [State.ctx_congr hctxs, ← hx, State.ctx_setCtx_ne _ _ hj]
    rfl
  · exact ((congrArg State.layout hshares :).trans hframe.layout).trans (hx ▸ rfl)
  · exact ((congrArg State.maps hshares :).trans hframe.maps).trans (hx ▸ rfl)
  · exact ((congrArg State.syncs hshares :).trans hsyncs).trans (hx ▸ rfl)
  · exact ((congrArg State.kv hshares :).trans hframe.kv).trans (hx ▸ rfl)

theorem release_enters (htaken : ctxTaken s who k = true) (hphase : (s.ctx k).phase = .stopped) (hhold : (s.ctx k).crustHold = false) :
    ∃ t, exec (.release who k) s = .next t ∧ (t.ctx k).phase = .resident ∧ (t.ctx k).sched = false ∧
      (t.ctx k).bases = s.syncBases ∧ (t.ctx k).anchor = s.localNow (s.queDie k) ∧ (t.ctx k).acts = [] ∧
      Counted s t Ev.LAY_CTX_EVENT_resident ∧ (∀ j, j ≠ k → t.ctx j = s.ctx j) ∧ EntryKeeps s t k := by
  obtain ⟨r, hr, hkept⟩ := s.ctxFields_eq 3 k
  have henters : exec (.release who k) s = .next (((s.withRegs r).setCtx k { s.ctx k with sched := false }).enterResident k) := by
    change execRelease who k s = _
    rw [execRelease, State.ctxRequest_of_taken _ htaken, hr]
    exact congrArg _ (if_pos ⟨hphase, hhold⟩)
  have hentered := State.enterResident_entered ((s.withRegs r).setCtx k { s.ctx k with sched := false }) k
  obtain ⟨hbases, hanchor, hacts, hcounted, hothers, hkeeps⟩ := hentered.of_request hkept
  have hctx := hentered.ctx
  rw [State.ctx_setCtx_same] at hctx
  exact ⟨_, henters, (congrArg Ctx.phase hctx :), (congrArg Ctx.sched hctx :), hbases, hanchor, hacts, hcounted, hothers, hkeeps⟩

end Leave

/-- Settles O14: a request that is taken starts a residency (`State.beginResidency_of_…`) whose context enters RESIDENT
(`Entered.of_request`), loads or fails (`State.residencyFailed_fails`); after the last transfer the context stays RESIDENT while the
sequence of R74 goes on (`State.startWaiting_kept`). -/
theorem residency : Obligations.Residency := by
  unfold Obligations.Residency
  exact ⟨fun _ _ _ => makeResident_at_once, fun _ _ _ => makeResident_loads, fun _ _ _ => makeResident_fails,
    fun _ _ _ => makeResident_waits, fun _ _ _ => makeResident_rejected,
    fun _ _ _ _ _ hlost hphase hrec hlast hlock hmoved => residencyTransferComplete_enters hlost hphase hrec hlast hlock hmoved,
    fun _ _ _ _ => residencyTransferComplete_loses, fun _ _ _ => makeNonresident_leaves, fun _ _ _ => release_enters⟩

end Sys2Proof.Machine
end

section
/-! What the stop of a context (chapter 04) keeps: the contexts and the blocks QUE, while its programmes are aborted and its sequences are
rolled back. -/

namespace Sys2Proof.Machine

/-- True for the offsets outside the blocks QUE of the dies. -/
def notQue (a : Nat) : Bool := a / 65536 % 256 != 3

/-- Whether an offset lies in a block QUE does not depend on the die. -/
theorem notQue_die (die offset : Nat) : notQue (die * 0x1000000 + offset) = notQue offset := by
  unfold notQue
  rw [show (die * 0x1000000 + offset) / 65536 % 256 = offset / 65536 % 256 by omega]

/-- A sequence that was left unsettled, rolled back to its committed length. -/
def State.kvSettled (s : State) (t : KvTouch) : State :=
  let e := s.kvEntry t.seq
  if e.valid && (e.groupOpen || e.tentative != e.committed) then
    ((s.setKv t.seq e.closeGroup).kvRollback t.seq e.committed).eventIf e.groupOpen Ev.KV_EVT_STATUS_rollback
  else s

/-- The state without a mark that a sequence is unsettled. -/
def State.dropTouch (s : State) (t : KvTouch) : State := { s with kvTouched := s.kvTouched.filter (fun x => x != t) }

theorem State.kvSettle_cons (s : State) (t : KvTouch) (ts : List KvTouch) :
    s.kvSettle (t :: ts) = ((s.kvSettled t).dropTouch t).kvSettle ts := rfl

/-- The second state has the contexts and the blocks QUE of the first. -/
structure StopFrame (s t : State) : Prop where
  ctxs : t.ctxs = s.ctxs
  que : ∀ a, notQue a = false → t.reg a = s.reg a

namespace StopFrame
variable {s t u : State}

theorem refl (s : State) : StopFrame s s := ⟨rfl, fun _ _ => rfl⟩

theorem trans (hst : StopFrame s t) (htu : StopFrame t u) : StopFrame s u :=
  ⟨htu.ctxs.trans hst.ctxs, fun a ha => (htu.que a ha).trans (hst.que a ha)⟩

/-- A change of neither contexts nor registers. -/
theorem of_eq (hctxs : t.ctxs = s.ctxs) (hregs : t.regs = s.regs) : StopFrame s t := ⟨hctxs, fun a _ => State.reg_congr hregs a⟩

theorem foldl {α : Type} {f : State → α → State} (hf : ∀ a x, StopFrame a (f a x)) (xs : List α) (s : State) :
    StopFrame s (xs.foldl f s) :=
  List.foldlRecOn (motive := StopFrame s) xs f (refl s) fun a ha x _ => ha.trans (hf a x)

/-! ### Registers -/

section Registers
variable (s : State)

theorem setReg {a : Nat} (v : Word) (ha : notQue a = true) : StopFrame s (s.setReg a v) :=
  ⟨rfl, fun _ hb => s.reg_setReg_ne v fun hab => Bool.false_ne_true (hb.symm.trans (hab ▸ ha))⟩

theorem setReg64 {a : Nat} (v : Nat) (ha : notQue a = true) (ha' : notQue (a + 4) = true) : StopFrame s (s.setReg64 a v) :=
  (setReg s _ ha).trans (setReg _ _ ha')

theorem setFld {f : Fld} (v : Nat) (ha : notQue f.addr = true) (ha' : notQue (f.addr + 4) = true) : StopFrame s (s.setFld f v) := by
  unfold State.setFld
  split
  · exact setReg s _ ha
  · exact setReg64 s _ ha ha'

theorem eventIf (c : Bool) {e : Evt} (hs : notQue e.status = true) (hc : notQue e.counter = true) : StopFrame s (s.eventIf c e) := by
  cases c with
  | true => exact (setReg s _ hs).trans (setReg _ _ hc)
  | false => exact refl s

/-! The registers of a die, by their offsets there. -/

theorem dieCount (die offset n : Nat) (h : notQue offset = true) (h' : notQue (offset + 4) = true) :
    StopFrame s (s.count64 (die * 0x1000000 + offset) n) := by
  refine setReg64 s _ ((notQue_die die offset).trans h) ?_
  rw [Nat.add_assoc, notQue_die, h']

theorem dieFld (die offset lo w v : Nat) (h : notQue offset = true) (h' : notQue (offset + 4) = true) :
    StopFrame s (s.setFld ⟨die * 0x1000000 + offset, lo, w⟩ v) := by
  refine setFld s v ((notQue_die die offset).trans h) ?_
  rw [Nat.add_assoc, notQue_die, h']

theorem dieEvent (c : Bool) (die status bit counter : Nat) (hs : notQue status = true) (hc : notQue counter = true) :
    StopFrame s (s.eventIf c ⟨die * 0x1000000 + status, bit, die * 0x1000000 + counter⟩) :=
  eventIf s c ((notQue_die die status).trans hs) ((notQue_die die counter).trans hc)

theorem satEvents (die : Nat) (e : SatEvents) : StopFrame s (s.satEvents die e) := by
  unfold State.satEvents
  have hacc := dieEvent s e.acc die 0x50800 0 0x50810 (by decide) (by decide)
  have hout := hacc.trans (dieEvent _ e.out die 0x50800 1 0x50814 (by decide) (by decide))
  have hscale := hout.trans (dieEvent _ e.scale die 0x50800 2 0x50818 (by decide) (by decide))
  have hfunc := hscale.trans (dieEvent _ e.func die 0x50800 3 0x5081C (by decide) (by decide))
  exact hfunc.trans (dieCount _ die 0x50820 _ (by decide) (by decide))

theorem countOp (die opcode : Nat) : StopFrame s (s.countOp die opcode) := by
  unfold State.countOp
  split
  · exact dieCount s die 0xA0030 1 (by decide) (by decide)
  · split
    · exact dieFld s die 0x680010 16 16 _ (by decide) (by decide)
    · split
      · exact dieFld s die 0x690010 16 16 _ (by decide) (by decide)
      · exact refl s

theorem xltFault (die ctx code va : Nat) : StopFrame s (s.xltFault die ctx code va) := by
  have hevent : StopFrame s (s.event
      (if code = 0x0201 then Ev.XLT_EVT_STATUS_unmapped die
        else if code = 0x0202 then Ev.XLT_EVT_STATUS_write die else Ev.XLT_EVT_STATUS_range die)) := by
    split
    · exact dieEvent s true die 0x60000 0 0x60004 (by decide) (by decide)
    · split
      · exact dieEvent s true die 0x60000 1 0x60008 (by decide) (by decide)
      · exact dieEvent s true die 0x60000 2 0x6000C (by decide) (by decide)
  have hctx := hevent.trans (dieFld _ die 0x60020 0 6 ctx (by decide) (by decide))
  have hcode := hctx.trans (dieFld _ die 0x60020 16 16 code (by decide) (by decide))
  unfold State.xltFault
  split
  · exact refl s
  · exact hcode.trans (dieFld _ die 0x60028 0 64 va (by decide) (by decide))

end Registers

/-! ### Memory -/

theorem writePhys (bs : Bytes) (s : State) (a : Nat) : StopFrame s (s.writePhys a bs) := by
  rw [State.writePhys_phys_only]
  exact of_eq rfl rfl

theorem putVa (s : State) (who : Master) (acc : Access) (ctx va : Nat) (bs : Bytes) : StopFrame s (s.putVa who acc ctx va bs) := by
  rw [State.putVa_only]
  exact of_eq rfl rfl

theorem undefRange (s : State) (base len : Nat) : StopFrame s (s.undefRange base len) := of_eq rfl rfl

theorem undefRanges (s : State) (rs : List (Nat × Nat)) : StopFrame s (s.undefRanges rs) := by
  rw [State.undefRanges_only]
  exact of_eq rfl rfl

theorem noteDie (s : State) (die : Nat) : StopFrame s (s.noteDie die) := by
  unfold State.noteDie
  split
  · exact of_eq rfl rfl
  · split
    · exact of_eq rfl rfl
    · exact refl s

/-! ### The engines' work (R266, R298, R316) -/

theorem writeNode (s : State) (cfg : MapCfg) (i : Nat) (bs : Bytes) : StopFrame s (s.writeNode cfg i bs) := by
  unfold State.writeNode
  split
  · exact writePhys bs s _
  · split
    · next hw =>
      rw [State.writeVa_only hw]
      exact of_eq rfl rfl
    · exact xltFault s 0 _ _ _

theorem releaseNodes (s : State) (before : List World) : StopFrame s (s.releaseNodes before) := by
  unfold State.releaseNodes
  split
  · exact refl s
  · refine foldl (fun a i => ?_) _ s
    exact trans (t := a.useFree 16) (of_eq rfl rfl) (writeNode _ _ _ _)

theorem mapRegs (s : State) : StopFrame s s.mapRegs :=
  ((setFld s _ (by decide) (by decide)).trans (setFld _ _ (by decide) (by decide))).trans (setReg64 _ _ (by decide) (by decide))

theorem dropPins (s : State) (owner : Option Nat) : StopFrame s (s.dropPins owner) :=
  trans (t := { s with map := { s.map with pins := s.map.pins.filter (fun p => p.owner != owner) } }) (of_eq rfl rfl)
    ((releaseNodes _ _).trans (mapRegs _))

theorem dropEngineWork (s : State) (r : Run) : StopFrame s (s.dropEngineWork r) := by
  unfold State.dropEngineWork
  extract_lets d n p a b s1
  have ha : StopFrame s a :=
    trans (t := { s with plan := { s.plan with batch := none } }) (of_eq rfl rfl) (dropPins _ (some r.id))
  have hbusy := ha.trans (setFld a (f := Fld.PLAN_STATUS_busy) 0 (by decide) (by decide))
  have hb : StopFrame s b := hbusy.trans (eventIf _ true (e := Ev.PLAN_EVT_STATUS_abandoned) (by decide) (by decide))
  have h1 : StopFrame s s1 := by
    unfold s1
    split
    · split
      · exact hb
      · exact hb.trans (undefRange _ _ _)
    · exact refl s
  split
  · have hsolv : StopFrame s1 { s1 with solv := { s1.solv with active := none }, phys := { s1.phys with watch := [] } } := of_eq rfl rfl
    have hbusy := hsolv.trans (setFld _ (f := Fld.SOLV_STATUS_busy) 0 (by decide) (by decide))
    exact h1.trans (hbusy.trans (setFld _ (f := Fld.SOLV_STATUS_factorising) 0 (by decide) (by decide)))
  · exact h1

/-! ### Runs (R80, R101, R135) -/

theorem cancelPrefetches (r : Run) (ps : List (Nat × PrefetchPhase)) (s : State) : StopFrame s (s.cancelPrefetches r ps) := by
  induction ps generalizing s with
  | nil => exact refl s
  | cons p ps ih =>
    rw [State.cancelPrefetches]
    refine trans ?_ (ih _)
    split
    · extract_lets rec' bs s2
      have hfree : StopFrame s (s.useFree bs.length) := of_eq rfl rfl
      have hevent := hfree.trans (eventIf _ true (e := Ev.TIER_EVT_STATUS_cancel) (by decide) (by decide))
      have hactive : StopFrame s s2 := hevent.trans (of_eq rfl rfl)
      exact hactive.trans (putVa _ _ _ _ _ _)
    · exact refl s

theorem abortRun (s : State) (code : Nat) (r : Run) : StopFrame s (s.abortRun code r) := by
  unfold State.abortRun
  extract_lets op s0 s1 s2
  have h0 : StopFrame s s0 := by
    unfold s0
    split
    · exact (noteDie s r.die).trans (of_eq rfl rfl)
    · exact noteDie s r.die
  have h1 : StopFrame s s1 := (h0.trans (dropEngineWork _ r)).trans (cancelPrefetches r _ _)
  have h2 : StopFrame s1 s2 := by
    unfold s2
    split
    · exact refl s1
    · split
      · exact (undefRanges s1 _).trans (satEvents _ _ _)
      · split
        · have habort := dieEvent (s1.undefRanges r.outs) (op == 1 || op == 2 || op == 3) r.die 0xA0010 2 0xA001C (by decide) (by decide)
          exact ((undefRanges s1 _).trans habort).trans (countOp _ _ _)
        · exact refl s1
  refine (h1.trans h2).trans ?_
  split
  · exact of_eq rfl rfl
  · exact of_eq rfl rfl

theorem abortRuns (code : Nat) (rs : List Run) (s : State) : StopFrame s (s.abortRuns code rs) := by
  induction rs generalizing s with
  | nil => exact refl s
  | cons r rs ih => exact (abortRun s code r).trans (ih _)

/-! ### Sequences (R134, R145) -/

theorem kvRollback (s : State) (q c : Nat) : StopFrame s (s.kvRollback q c) := by
  unfold State.kvRollback
  extract_lets e drop n s1 gone
  exact trans (t := { s1.tlbDrop gone with kvPages := s1.kvPages.filter (fun p => !drop p.1) }) (of_eq rfl rfl)
    (setReg64 _ _ (by decide) (by decide))

theorem kvSettled (s : State) (t : KvTouch) : StopFrame s (s.kvSettled t) := by
  unfold State.kvSettled
  extract_lets e
  split
  · have hclose : StopFrame s (s.setKv t.seq e.closeGroup) := of_eq rfl rfl
    have hroll := hclose.trans (kvRollback _ t.seq e.committed)
    exact hroll.trans (eventIf _ _ (e := Ev.KV_EVT_STATUS_rollback) (by decide) (by decide))
  · exact refl s

theorem kvSettle (ts : List KvTouch) (s : State) : StopFrame s (s.kvSettle ts) := by
  induction ts generalizing s with
  | nil => exact refl s
  | cons t ts ih =>
    rw [State.kvSettle_cons]
    exact ((kvSettled s t).trans (of_eq (t := (s.kvSettled t).dropTouch t) rfl rfl)).trans (ih _)

end StopFrame

/-- The state with the invocations of a context that have no status ended with a code. -/
def State.endInvs (s : State) (k code : Nat) : State :=
  { s with invs := s.invs.map (fun (i : Invocation) => if i.ctx = k ∧ i.done.isNone = true then { i with done := some code } else i) }

/-- A context as it is STOPPED with a code. -/
def Ctx.stopped (c : Ctx) (code : Nat) : Ctx := { c with phase := .stopped, sched := false, code := code, acts := [] }

/-- A queue at the stop of its context: what was submitted up to now completes with 0x0B32 (R80). -/
def Queue.stopped (q : Queue) : Queue :=
  { q with stopUpTo := if q.fetched.isEmpty && q.sqHead == q.sqTail then none else some q.sqTail }

/-- A stop aborts and settles what a context has under way; then the context, its queue and its run bit are written. -/
theorem State.stopContext_eq (s : State) (k code : Nat) :
    ∃ m, StopFrame s m ∧
      s.stopContext k code =
        ((m.setCtx k ((m.ctx k).stopped code)).setQueue k (m.queue k).stopped).setFld (Fld.HQ_Q_CTRL_run k) 0 := by
  have habort := StopFrame.abortRuns code (s.runs.filter (fun r => r.ctx == k && r.done.isNone)) s
  generalize ha : s.abortRuns code (s.runs.filter (fun r => r.ctx == k && r.done.isNone)) = a at habort
  have hends : StopFrame a (a.endInvs k code) := StopFrame.of_eq rfl rfl
  have hsettles := StopFrame.kvSettle ((a.endInvs k code).kvTouched.filter (fun t => t.ctx == k)) (a.endInvs k code)
  refine ⟨_, (habort.trans hends).trans hsettles, ?_⟩
  rw [State.stopContext, ha]
  rfl

end Sys2Proof.Machine
end

section
/-! The statements about activations (chapter 04): their start at a due instant, the issue of a step, and budget overruns. -/

namespace Sys2Proof.Machine

/-! ### SCHEDULE_ACTIVATION (R75) -/

/-- A state that differs from one with a context written in registers alone. -/
theorem ctx_of_setCtx_withRegs {s t : State} {k : Nat} {c : Ctx} (h : t = (s.setCtx k c).withRegs t.regs) :
    t.ctx k = c ∧ t = { s with ctxs := t.ctxs, regs := t.regs } := by
  have hctxs : t.ctxs = (s.setCtx k c).ctxs := (congrArg State.ctxs h :)
  refine ⟨(State.ctx_congr hctxs k).trans (s.ctx_setCtx_same k c), ?_⟩
  rw [hctxs]
  exact h

section Activation
variable {s : State} {k j at' : Nat}

theorem scheduleActivation_starts (hphase : (s.ctx k).phase = .resident) (hsched : (s.ctx k).sched = true)
    (hdue : s.dueInstant k = some (j, at')) (hacts : (s.ctx k).acts = []) :
    ∃ t, exec (.scheduleActivation k) s = .next t ∧
      t.ctx k = { s.ctx k with acts := [⟨(s.ctx k).actCount, at', 0, false, [], none, [], false, 0,
                                 (s.monoNs : Int) - (s.localNow (s.queDie k) - at' : Nat)⟩],
                               actCount := (s.ctx k).actCount + 1, lastInstant := j + 1 } ∧
      (∀ i, i ≠ k → t.ctx i = s.ctx i) ∧
      t = { s with ctxs := t.ctxs,
                   crust := { s.crust with starters := s.crust.starters ++ s.newStarters k (s.ctx k).actCount at' } } := by
  have hexec : exec (.scheduleActivation k) s = .next
      (({ s with crust := { s.crust with starters := s.crust.starters ++ s.newStarters k (s.ctx k).actCount at' } } : State).setCtx k
        { s.ctx k with acts := [s.newActivation k at' none []], actCount := (s.ctx k).actCount + 1, lastInstant := j + 1 }) := by
    change execScheduleActivation k s = _
    simp [execScheduleActivation, hphase, hsched, hdue, hacts]
  exact ⟨_, hexec, State.ctx_setCtx_same .., fun i hi => State.ctx_setCtx_ne _ _ hi, rfl⟩

/-- A context written and an event counted. -/
theorem setCtx_event_effect (s : State) (k : Nat) (c : Ctx) {e : Evt} (hseparate : e.status ≠ e.counter) (hbit : e.bit < 32) {t : State}
    (ht : t = (s.setCtx k c).event e) :
    t.ctx k = c ∧ Counted s t e ∧ t = { s with ctxs := t.ctxs, regs := t.regs } ∧ RegsKept s t e.regs := by
  have hregs : t = (s.setCtx k c).withRegs t.regs := ht ▸ State.event_withRegs _ e
  obtain ⟨hctx, honly⟩ := ctx_of_setCtx_withRegs hregs
  exact ⟨hctx, ht ▸ counted_event (s.setCtx k c) hseparate hbit, honly, ht ▸ regsKept_event (s.setCtx k c) e⟩

theorem exec_scheduleActivation_of_running (hphase : (s.ctx k).phase = .resident) (hsched : (s.ctx k).sched = true)
    (hdue : s.dueInstant k = some (j, at')) (hacts : (s.ctx k).acts ≠ []) :
    exec (.scheduleActivation k) s = .next
      ((s.setCtx k { s.ctx k with lastInstant := j + 1 }).event (Ev.QUE_OVR_STATUS_skip (s.queDie k))) := by
  change execScheduleActivation k s = _
  simp [execScheduleActivation, hphase, hsched, hdue, hacts]

theorem skip_separate (die : Nat) :
    (Ev.QUE_OVR_STATUS_skip die).status ≠ (Ev.QUE_OVR_STATUS_skip die).counter ∧ (Ev.QUE_OVR_STATUS_skip die).bit < 32 := by
  simp [Ev.QUE_OVR_STATUS_skip]

theorem scheduleActivation_skips (hphase : (s.ctx k).phase = .resident) (hsched : (s.ctx k).sched = true)
    (hdue : s.dueInstant k = some (j, at')) (hacts : (s.ctx k).acts ≠ []) :
    ∃ t, exec (.scheduleActivation k) s = .next t ∧ t.ctx k = { s.ctx k with lastInstant := j + 1 } ∧
      Counted s t (Ev.QUE_OVR_STATUS_skip (s.queDie k)) ∧ t = { s with ctxs := t.ctxs, regs := t.regs } ∧
      RegsKept s t (Ev.QUE_OVR_STATUS_skip (s.queDie k)).regs := by
  obtain ⟨hseparate, hbit⟩ := skip_separate (s.queDie k)
  exact ⟨_, exec_scheduleActivation_of_running hphase hsched hdue hacts, setCtx_event_effect s k _ hseparate hbit rfl⟩

end Activation

/-! ### SCHEDULE_STEP_ISSUE (R76, R77) -/

section Step
variable {s : State} {k n : Nat} {l : Layout} {a : Activation} {step : Bytes}

/-- A step whose time, wait and operation slot have come starts its programme, where that is no starter. -/
theorem exec_scheduleStepIssue_of_due (hlayout : s.layout = some l) (hphase : (s.ctx k).phase = .resident)
    (hact : (s.ctx k).acts.find? (fun x => x.index == n) = some a) (hrunning : a.failed = false)
    (hstep : (l.schedSteps k)[a.nextStep]? = some step) (hstarter : s.starterOf (fieldAt step 4 2) = none)
    (htime : fieldAt step 0 4 * 16000000 ≤ s.cyclesRun k a) (hwait : s.stepWaitOk k n step = true)
    (hslot : s.slotFree k ((l.progRec (fieldAt step 4 2)).elim 0 (fun p => fieldAt p 1 1)) = true) :
    exec (.scheduleStepIssue k n) s =
      .next ((s.passStep k n).startProgram k (fieldAt step 4 2) (fieldAt step 6 2) a.args (.step n a.nextStep)) := by
  have hrests : s.starterRests n (fieldAt step 4 2) = false := by rw [State.starterRests, hstarter]
  change execScheduleStepIssue k n s = _
  simp [execScheduleStepIssue, hlayout, hact, hstep, hphase, hrunning, htime, hwait, hslot, hrests, hstarter]

theorem scheduleStepIssue_starts (hlayout : s.layout = some l) (hphase : (s.ctx k).phase = .resident)
    (hact : (s.ctx k).acts.find? (fun x => x.index == n) = some a) (hrunning : a.failed = false)
    (hstep : (l.schedSteps k)[a.nextStep]? = some step) (hstarter : s.starterOf (fieldAt step 4 2) = none)
    (hops : l.progOps (fieldAt step 4 2) ≠ []) (htime : fieldAt step 0 4 * 16000000 ≤ s.cyclesRun k a)
    (hwait : s.stepWaitOk k n step = true)
    (hslot : s.slotFree k ((l.progRec (fieldAt step 4 2)).elim 0 (fun p => fieldAt p 1 1)) = true) :
    ∃ t : State, exec (.scheduleStepIssue k n) s = .next t ∧
      (∃ r : Run, t.runs = s.runs ++ [r] ∧ r.id = s.nextRun ∧ r.ctx = k ∧ r.prog = fieldAt step 4 2 ∧ r.op = 0 ∧ r.executed = false ∧
        r.done = none ∧ r.origin = .step n a.nextStep ∧ r.unit = fieldAt step 6 2) ∧
      (t.ctx k).acts = (s.ctx k).acts.map (fun x => if x.index = n then { x with nextStep := x.nextStep + 1 } else x) ∧
      t = { s with ctxs := t.ctxs, runs := t.runs, nextRun := s.nextRun + 1 } := by
  have hstarts : (s.passStep k n).startProgram k (fieldAt step 4 2) (fieldAt step 6 2) a.args (.step n a.nextStep) =
      (s.passStep k n).startRun k (fieldAt step 4 2) (fieldAt step 6 2) a.args (.step n a.nextStep) := by
    refine if_neg fun hempty => hops (List.length_eq_zero_iff.mp ?_)
    rwa [show (s.passStep k n).layout = some l from hlayout] at hempty
  refine ⟨_, (exec_scheduleStepIssue_of_due hlayout hphase hact hrunning hstep hstarter htime hwait hslot).trans
    (congrArg _ hstarts), ⟨_, rfl, rfl, rfl, rfl, rfl, rfl, rfl, rfl, rfl⟩, ?_, rfl⟩
  exact congrArg Ctx.acts (State.ctx_setCtx_same s k _)

end Step

/-! ### BUDGET_OVERRUN (R80) -/

/-- What a stop writes: its context, the blocks QUE unchanged, and the run bit of its queue. -/
structure Stopped (s t : State) (k code : Nat) : Prop where
  ctx : t.ctx k = (s.ctx k).stopped code
  others : ∀ j, j ≠ k → t.ctx j = s.ctx j
  que : ∀ a, notQue a = false → t.reg a = s.reg a
  run : t.flag (Fld.HQ_Q_CTRL_run k) = false

theorem notQue_queue {k : Nat} (hk : k < 256) : notQue (Reg.HQ_Q_CTRL k) = true ∧ notQue (Reg.HQ_Q_CTRL k + 4) = true := by
  simp only [notQue, Reg.HQ_Q_CTRL, bne_iff_ne]
  omega

theorem State.stopContext_stopped (s : State) {k : Nat} (code : Nat) (hk : k < 256) : Stopped s (s.stopContext k code) k code := by
  obtain ⟨m, hframe, hstop⟩ := s.stopContext_eq k code
  obtain ⟨hrun, hrun'⟩ := notQue_queue hk
  generalize hx : (m.setCtx k ((m.ctx k).stopped code)).setQueue k (m.queue k).stopped = x at hstop
  have hctxs : (s.stopContext k code).ctxs = (m.setCtx k ((m.ctx k).stopped code)).ctxs := by
    rw [hstop, State.setFld_ctxs, ← hx]
    rfl
  have hregs : x.regs = m.regs := hx ▸ rfl
  exact {
    ctx := by rw [State.ctx_congr hctxs, State.ctx_setCtx_same, State.ctx_congr hframe.ctxs]
    others := fun j hj => by rw [State.ctx_congr hctxs, State.ctx_setCtx_ne _ _ hj, State.ctx_congr hframe.ctxs]
    que := fun a ha => by
      rw [hstop, (StopFrame.setFld x (f := Fld.HQ_Q_CTRL_run k) 0 hrun hrun').que a ha, State.reg_congr hregs, hframe.que a ha]
    run := by
      rw [hstop, State.flag, State.fld_setFld_same _ _ (by simp)]
      rfl }

/-- A field written in a state that differs from another in registers alone. -/
theorem State.setFld_of_withRegs {s t : State} (h : t = s.withRegs t.regs) (f : Fld) (v : Nat) :
    t.setFld f v = s.withRegs (t.setFld f v).regs :=
  (t.setFld_regs_only f v).trans (congrArg (fun a : State => { a with regs := (t.setFld f v).regs }) h)

/-- The report of an overrun in the QUE block of a die (R83). -/
def State.noteOverrun (s : State) (ctx n die action : Nat) : State :=
  let s1 := (s.event (Ev.QUE_OVR_STATUS_overrun die)).setFld (Fld.QUE_OVR_LAST_ctx_id die) ctx
  let s2 := (s1.setFld (Fld.QUE_OVR_LAST_action die) action).setFld (Fld.QUE_OVR_LAST_class die) (s.defaultClass ctx)
  s2.setFld (Fld.QUE_OVR_LAST_activation die) (n % 65536)

section Overrun
variable (s : State) (ctx n die action : Nat)

theorem State.noteOverrun_only : s.noteOverrun ctx n die action = s.withRegs (s.noteOverrun ctx n die action).regs := by
  have hevent := s.event_withRegs (Ev.QUE_OVR_STATUS_overrun die)
  have hctx := State.setFld_of_withRegs hevent (Fld.QUE_OVR_LAST_ctx_id die) ctx
  have haction := State.setFld_of_withRegs hctx (Fld.QUE_OVR_LAST_action die) action
  have hclass := State.setFld_of_withRegs haction (Fld.QUE_OVR_LAST_class die) (s.defaultClass ctx)
  exact State.setFld_of_withRegs hclass (Fld.QUE_OVR_LAST_activation die) (n % 65536)

theorem State.ctx_noteOverrun (j : Nat) : (s.noteOverrun ctx n die action).ctx j = s.ctx j := by
  refine State.ctx_congr ?_ j
  unfold State.noteOverrun
  rw [State.setFld_ctxs, State.setFld_ctxs, State.setFld_ctxs, State.setFld_ctxs, State.event_ctxs]

/-- Beside the event's registers the report writes one register. -/
theorem State.reg_noteOverrun {a : Nat} (ha : a ≠ Reg.QUE_OVR_LAST die) :
    (s.noteOverrun ctx n die action).reg a = (s.event (Ev.QUE_OVR_STATUS_overrun die)).reg a := by
  unfold State.noteOverrun
  rw [State.reg_setFld_ne _ _ (by simp) ha, State.reg_setFld_ne _ _ (by simp) ha, State.reg_setFld_ne _ _ (by simp) ha,
    State.reg_setFld_ne _ _ (by simp) ha]

theorem State.ctxId_noteOverrun : (s.noteOverrun ctx n die action).fld (Fld.QUE_OVR_LAST_ctx_id die) = ctx % 64 := by
  unfold State.noteOverrun
  rw [State.fld_setFld_ne _ _ (by simp) (by simp) (by simp), State.fld_setFld_ne _ _ (by simp) (by simp) (by simp),
    State.fld_setFld_ne _ _ (by simp) (by simp) (by simp), State.fld_setFld_same _ _ (by simp)]
  rfl

theorem counted_noteOverrun : Counted s (s.noteOverrun ctx n die action) (Ev.QUE_OVR_STATUS_overrun die) := by
  unfold Counted
  rw [State.reg_noteOverrun _ _ _ _ _ (by simp [Ev.QUE_OVR_STATUS_overrun]),
    State.reg_noteOverrun _ _ _ _ _ (by simp [Ev.QUE_OVR_STATUS_overrun])]
  exact counted_event s (by simp [Ev.QUE_OVR_STATUS_overrun]) (by simp [Ev.QUE_OVR_STATUS_overrun])

/-- What comes after the report and keeps the blocks QUE keeps the report. -/
theorem reported_of_que {t : State} (h : ∀ a, notQue a = false → t.reg a = (s.noteOverrun ctx n die action).reg a) :
    Counted s t (Ev.QUE_OVR_STATUS_overrun die) ∧ t.fld (Fld.QUE_OVR_LAST_ctx_id die) = ctx % 64 := by
  have hstatus := h (Ev.QUE_OVR_STATUS_overrun die).status ((notQue_die die _).trans (by decide))
  have hcounter := h (Ev.QUE_OVR_STATUS_overrun die).counter ((notQue_die die _).trans (by decide))
  have hlast := h (Fld.QUE_OVR_LAST_ctx_id die).addr ((notQue_die die _).trans (by decide))
  constructor
  · unfold Counted
    rw [hstatus, hcounter]
    exact counted_noteOverrun s ctx n die action
  · rw [State.fld_word _ (by simp), hlast, ← State.fld_word _ (by simp)]
    exact s.ctxId_noteOverrun ctx n die action

end Overrun

section Reaction
variable {s : State} {k n die : Nat} {l : Layout} {rec' : Bytes}

/-- A context that is put under Crust's hold (R80). -/
def State.holdContext (s : State) (k : Nat) : State := (s.setCtx k { s.ctx k with crustHold := true }).report 0x0A 0

theorem State.overrun_eq (hlayout : s.layout = some l) (hrec : l.ctxRec k = some rec') :
    s.overrun k n die =
      if fieldAt rec' 8 1 = 2 then s.noteOverrun k n die (fieldAt rec' 8 1)
      else if fieldAt rec' 8 1 = 1 then ((s.noteOverrun k n die (fieldAt rec' 8 1)).stopContext k 0x0B31).holdContext k
      else (s.noteOverrun k n die (fieldAt rec' 8 1)).stopContext k 0x0B31 := by
  have haction : (s.layout.bind (fun l => l.ctxRec k)).elim 0 (fun c => fieldAt c 8 1) = fieldAt rec' 8 1 := by
    rw [hlayout]
    exact congrArg (fun r : Option Bytes => r.elim 0 (fun c => fieldAt c 8 1)) hrec
  unfold State.overrun
  rw [haction]
  rfl

theorem ctx_lt_of_ctxRec (hrec : l.ctxRec k = some rec') : k < 256 := by
  have hid : fieldAt rec' 0 1 = k := by simpa using List.find?_some hrec
  exact hid ▸ fieldAt_lt rec' 0 1

/-- A context that is held stays as it was stopped, and Crust has the report. -/
theorem State.holdContext_effect (s : State) (k : Nat) :
    (s.holdContext k).ctx k = { s.ctx k with crustHold := true } ∧ (∀ j, j ≠ k → (s.holdContext k).ctx j = s.ctx j) ∧
      (s.holdContext k).regs = s.regs ∧ (0x0A, 0) ∈ (s.holdContext k).crust.reports :=
  ⟨s.ctx_setCtx_same k _, fun _ hj => s.ctx_setCtx_ne _ hj, rfl, List.mem_append_right _ List.mem_cons_self⟩

/-- The reaction to an overrun (R80): the report, and unless the action is 2 the stop, with action 1 under Crust's hold. -/
theorem State.overrun_effect (hlayout : s.layout = some l) (hrec : l.ctxRec k = some rec') {t : State} (ht : t = s.overrun k n die) :
    Counted s t (Ev.QUE_OVR_STATUS_overrun die) ∧ t.fld (Fld.QUE_OVR_LAST_ctx_id die) = k % 64 ∧ (∀ j, j ≠ k → t.ctx j = s.ctx j) ∧
      (fieldAt rec' 8 1 = 2 → t = s.withRegs t.regs) ∧
      (fieldAt rec' 8 1 ≠ 2 → (t.ctx k).phase = .stopped ∧ (t.ctx k).code = 0x0B31 ∧ (t.ctx k).acts = [] ∧
        (t.ctx k).sched = false ∧ t.flag (Fld.HQ_Q_CTRL_run k) = false) ∧
      (fieldAt rec' 8 1 = 1 → (t.ctx k).crustHold = true ∧ (0x0A, 0) ∈ t.crust.reports) := by
  rw [State.overrun_eq hlayout hrec] at ht
  have honly := s.noteOverrun_only k n die (fieldAt rec' 8 1)
  have hm := s.ctx_noteOverrun k n die (fieldAt rec' 8 1)
  have hreported {u : State} := reported_of_que s k n die (fieldAt rec' 8 1) (t := u)
  generalize s.noteOverrun k n die (fieldAt rec' 8 1) = m at ht honly hm hreported
  have hstopped := m.stopContext_stopped 0x0B31 (ctx_lt_of_ctxRec hrec)
  generalize m.stopContext k 0x0B31 = u at ht hstopped
  by_cases hcount : fieldAt rec' 8 1 = 2
  · rw [if_pos hcount] at ht
    subst ht
    obtain ⟨hcounted, hid⟩ := hreported fun _ _ => rfl
    exact ⟨hcounted, hid, fun j _ => hm j, fun _ => honly, fun hne => absurd hcount hne,
      fun hhold => absurd (hhold.symm.trans hcount) (by decide)⟩
  · rw [if_neg hcount] at ht
    by_cases hhold : fieldAt rec' 8 1 = 1
    · rw [if_pos hhold] at ht
      obtain ⟨hctx, hothers, hregs, hreport⟩ := u.holdContext_effect k
      rw [← ht] at hctx hothers hregs hreport
      obtain ⟨hcounted, hid⟩ := hreported fun a ha => (State.reg_congr hregs a).trans (hstopped.que a ha)
      rw [hstopped.ctx] at hctx
      exact ⟨hcounted, hid, fun j hj => (hothers j hj).trans ((hstopped.others j hj).trans (hm j)), fun h2 => absurd h2 hcount,
        fun _ => ⟨(congrArg Ctx.phase hctx :), (congrArg Ctx.code hctx :), (congrArg Ctx.acts hctx :), (congrArg Ctx.sched hctx :),
          (congrArg (· == 1) (State.fld_congr hregs _)).trans hstopped.run⟩,
        fun _ => ⟨(congrArg Ctx.crustHold hctx :), hreport⟩⟩
    · rw [if_neg hhold] at ht
      subst ht
      obtain ⟨hcounted, hid⟩ := hreported hstopped.que
      have hctx := hstopped.ctx
      exact ⟨hcounted, hid, fun j hj => (hstopped.others j hj).trans (hm j), fun h2 => absurd h2 hcount,
        fun _ => ⟨(congrArg Ctx.phase hctx :), (congrArg Ctx.code hctx :), (congrArg Ctx.acts hctx :), (congrArg Ctx.sched hctx :),
          hstopped.run⟩,
        fun h1 => absurd h1 hhold⟩

/-- The state with an activation of a context marked as one that overran. -/
def State.markOverran (s : State) (k n : Nat) : State :=
  s.setCtx k { s.ctx k with acts := (s.ctx k).acts.map (fun x => if x.index = n then { x with overran := true } else x) }

theorem State.reg_markOverran (s : State) (k n a : Nat) : (s.markOverran k n).reg a = s.reg a := rfl

theorem exec_budgetOverrun_of_past {a : Activation} {b : Nat} (hact : (s.ctx k).acts.find? (fun x => x.index == n) = some a)
    (hlimit : s.budgetLimit k a.inv.isNone = some b) (hfirst : a.overran = false) (hpast : a.start + b < s.localNow (s.queDie k)) :
    exec (.budgetOverrun k false n) s = .next ((s.markOverran k n).overrun k n (s.queDie k)) := by
  change execBudgetOverrun k false n s = _
  simp [execBudgetOverrun, hact, hlimit, hfirst, hpast, State.markOverran]

theorem budgetOverrun_reacts {a : Activation} {b : Nat} (hlayout : s.layout = some l) (hrec : l.ctxRec k = some rec')
    (hact : (s.ctx k).acts.find? (fun x => x.index == n) = some a) (hlimit : s.budgetLimit k a.inv.isNone = some b)
    (hfirst : a.overran = false) (hpast : a.start + b < s.localNow (s.queDie k)) :
    ∃ t, exec (.budgetOverrun k false n) s = .next t ∧ Counted s t (Ev.QUE_OVR_STATUS_overrun (s.queDie k)) ∧
      (∀ j, j ≠ k → t.ctx j = s.ctx j) ∧
      t.fld (Fld.QUE_OVR_LAST_ctx_id (s.queDie k)) = k % 64 ∧
      (fieldAt rec' 8 1 = 2 →
        t.ctx k = { s.ctx k with acts := (s.ctx k).acts.map (fun x => if x.index = n then { x with overran := true } else x) } ∧
        t = { s with ctxs := t.ctxs, regs := t.regs }) ∧
      (fieldAt rec' 8 1 ≠ 2 → (t.ctx k).phase = .stopped ∧ (t.ctx k).code = 0x0B31 ∧ (t.ctx k).acts = [] ∧
        (t.ctx k).sched = false ∧ t.flag (Fld.HQ_Q_CTRL_run k) = false) ∧
      (fieldAt rec' 8 1 = 1 → (t.ctx k).crustHold = true ∧ (0x0A, 0) ∈ t.crust.reports) := by
  obtain ⟨t, ht⟩ : ∃ t, t = (s.markOverran k n).overrun k n (s.queDie k) := ⟨_, rfl⟩
  obtain ⟨hcounted, hid, hothers, hcount, hstop, hhold⟩ := State.overrun_effect (s := s.markOverran k n) hlayout hrec ht
  exact ⟨t, ht ▸ exec_budgetOverrun_of_past hact hlimit hfirst hpast, hcounted.since (s.reg_markOverran k n _),
    fun j hj => (hothers j hj).trans (s.ctx_setCtx_ne _ hj), hid, fun h2 => ctx_of_setCtx_withRegs (hcount h2), hstop, hhold⟩

end Reaction

/-- Settles O15: a due instant starts an activation or counts a skip (`setCtx_event_effect`), a due step starts its programme
(`exec_scheduleStepIssue_of_due`), and an overrun is reported and its context stopped (`State.overrun_effect`), where the stop keeps
the other contexts and the report (`State.stopContext_eq`). -/
theorem activations : Obligations.Activations := by
  unfold Obligations.Activations
  exact ⟨fun _ _ _ _ => scheduleActivation_starts, fun _ _ _ _ => scheduleActivation_skips,
    fun _ _ _ _ _ _ => scheduleStepIssue_starts, fun _ _ _ _ _ _ _ => budgetOverrun_reacts⟩

end Sys2Proof.Machine
end

section
/-! The rules of the host link (chapter 05): queues and fields after a write, and what an event of the host interface changes. -/

namespace Sys2Proof.Machine

/-! ### Queues and fields after a write -/

@[simp] theorem State.queue_setQueue_same (s : State) (k : Nat) (q : Queue) : (s.setQueue k q).queue k = q := Sparse.get_put_same

theorem State.queue_setQueue_ne (s : State) {j k : Nat} (q : Queue) (h : j ≠ k) : (s.setQueue k q).queue j = s.queue j :=
  Sparse.get_put_ne h

/-- A queue reads the same in two states with the same queues. -/
theorem State.queue_congr {s t : State} (h : t.queues = s.queues) (k : Nat) : t.queue k = s.queue k := by
  unfold State.queue
  rw [h]

/-- A field of one word reads the same where its register does. -/
theorem State.fld_of_reg {s t : State} {f : Fld} (hf : f.lo + f.width ≤ 32) (h : t.reg f.addr = s.reg f.addr) : t.fld f = s.fld f := by
  rw [State.fld_word _ hf, State.fld_word _ hf, h]

/-! ### Events of the host interface (R8, R104) -/

/-- What an event of the host interface does: it is counted, and moves its two registers and the vectors alone. -/
theorem hqEvent_effect (s : State) {e : Evt} (hseparate : e.status ≠ e.counter) (hbit : e.bit < 32) {t : State}
    (ht : t = s.hqEvent e) :
    Counted s t e ∧ t = { s with regs := t.regs, msix := t.msix, msixPending := t.msixPending } ∧ RegsKept s t e.regs := by
  subst ht
  exact ⟨counted_hqEvent s hseparate hbit, s.hqEvent_only e, regsKept_hqEvent s e⟩

/-- An event that is counted moves the register file. -/
theorem Counted.regs_ne {s t : State} {e : Evt} (h : Counted s t e) : t.regs ≠ s.regs := by
  intro hregs
  have hcount := h.2
  rw [State.reg_congr hregs] at hcount
  omega

end Sys2Proof.Machine
end

section
/-! The statement about operations of programmes (chapter 04): what the counters of an operation move, and how a run goes on or ends. -/

namespace Sys2Proof.Machine

/-! ### The counters of an operation (R51, R123) -/

/-- The second state is the first but for registers, which lie in the blocks listed. -/
structure CountsIn (s t : State) (blocks : List Nat) : Prop where
  only : t = s.withRegs t.regs
  kept : BlocksKept s t blocks

namespace CountsIn
variable {s t u : State} {l l' : List Nat}

theorem refl (s : State) (l : List Nat) : CountsIn s s l := ⟨rfl, fun _ _ => rfl⟩

theorem trans (hst : CountsIn s t l) (htu : CountsIn t u l) : CountsIn s u l := by
  obtain ⟨hst, hkept⟩ := hst
  obtain ⟨htu, hkept'⟩ := htu
  exact ⟨htu.trans (congrArg (fun a : State => a.withRegs u.regs) hst :), fun a ha => (hkept' a ha).trans (hkept a ha)⟩

theorem mono (h : CountsIn s t l) (hl : l ⊆ l') : CountsIn s t l' := ⟨h.only, fun a ha => h.kept a fun hal => ha (hl hal)⟩

theorem setReg (s : State) {a b : Nat} (v : Word) (ha : a / 65536 = b) : CountsIn s (s.setReg a v) [b] :=
  ⟨rfl, fun _ hx => s.reg_setReg_ne v fun hxa => hx (by simp [hxa, ha])⟩

theorem setReg64 (s : State) {a b : Nat} (v : Nat) (ha : a / 65536 = b) (ha' : (a + 4) / 65536 = b) :
    CountsIn s (s.setReg64 a v) [b] := (setReg s _ ha).trans (setReg _ _ ha')

/-! The registers of a die, by their offsets there. -/

theorem block_of_offset (die : Nat) {offset b : Nat} (h : offset / 65536 = b) : (die * 0x1000000 + offset) / 65536 = die * 256 + b := by
  omega

theorem dieCount (s : State) (die offset n : Nat) {b : Nat} (h : offset / 65536 = b) (h' : (offset + 4) / 65536 = b) :
    CountsIn s (s.count64 (die * 0x1000000 + offset) n) [die * 256 + b] :=
  setReg64 s _ (block_of_offset die h) (by rw [Nat.add_assoc, block_of_offset die h'])

theorem dieFld (s : State) (die offset lo w v : Nat) {b : Nat} (h : offset / 65536 = b) (h' : (offset + 4) / 65536 = b) :
    CountsIn s (s.setFld ⟨die * 0x1000000 + offset, lo, w⟩ v) [die * 256 + b] := by
  unfold State.setFld
  split
  · exact setReg s _ (block_of_offset die h)
  · exact setReg64 s _ (block_of_offset die h) (by rw [Nat.add_assoc, block_of_offset die h'])

theorem dieEvent (s : State) (c : Bool) (die status bit counter : Nat) {b : Nat} (hs : status / 65536 = b) (hc : counter / 65536 = b) :
    CountsIn s (s.eventIf c ⟨die * 0x1000000 + status, bit, die * 0x1000000 + counter⟩) [die * 256 + b] := by
  cases c with
  | true => exact (setReg s _ (block_of_offset die hs)).trans (setReg _ _ (block_of_offset die hc))
  | false => exact refl s _

/-- The arithmetic events of an operation move the block MON of their die alone. -/
theorem satEvents (s : State) (die : Nat) (e : SatEvents) : CountsIn s (s.satEvents die e) [die * 256 + 5] := by
  have hacc := dieEvent s e.acc die 0x50800 0 0x50810 (b := 5) (by decide) (by decide)
  have hout := hacc.trans (dieEvent _ e.out die 0x50800 1 0x50814 (by decide) (by decide))
  have hscale := hout.trans (dieEvent _ e.scale die 0x50800 2 0x50818 (by decide) (by decide))
  have hfunc := hscale.trans (dieEvent _ e.func die 0x50800 3 0x5081C (by decide) (by decide))
  exact hfunc.trans (dieCount _ die 0x50820 _ (by decide) (by decide))

/-- The counter of an operation lies in the block of the tiles, of the stem engine or of the arg-max engine. -/
theorem countOp (s : State) (die opcode : Nat) :
    CountsIn s (s.countOp die opcode) [die * 256 + 0x0A, die * 256 + 0x68, die * 256 + 0x69] := by
  unfold State.countOp
  split
  · exact (dieCount s die 0xA0030 1 (b := 0x0A) (by decide) (by decide)).mono (by simp)
  · split
    · exact (dieFld s die 0x680010 16 16 _ (b := 0x68) (by decide) (by decide)).mono (by simp)
    · split
      · exact (dieFld s die 0x690010 16 16 _ (b := 0x69) (by decide) (by decide)).mono (by simp)
      · exact refl s _

end CountsIn

/-- The state once the counters of a run's operation have moved (R30, R51, R123). -/
def State.operationCounted (s : State) (r : Run) : State :=
  let op := (s.currentOp r).elim 0 (fun d => fieldAt d 0 1)
  ((if op = 0x50 then s.noteActive 2 else s).satEvents r.satDie r.sat).countOp r.die op

/-- The blocks that the counters of a run's operation lie in. -/
def Run.countBlocks (r : Run) : List Nat := [r.satDie * 256 + 5, r.die * 256 + 0x0A, r.die * 256 + 0x68, r.die * 256 + 0x69]

/-- The counters move registers of their blocks alone, and the activity noted is the power controller's. -/
theorem State.operationCounted_eq (s : State) (r : Run) :
    ∃ regs power, s.operationCounted r = { s with regs := regs, power := power } ∧ BlocksKept s (s.withRegs regs) r.countBlocks := by
  unfold State.operationCounted
  extract_lets op
  obtain ⟨p, hnoted⟩ : ∃ p, (if op = 0x50 then s.noteActive 2 else s) = { s with power := p } := by
    split
    · exact ⟨_, rfl⟩
    · exact ⟨_, rfl⟩
  rw [hnoted]
  have hsat := (CountsIn.satEvents { s with power := p } r.satDie r.sat).mono (l' := r.countBlocks) (by simp [Run.countBlocks])
  obtain ⟨honly, hkept⟩ := hsat.trans ((CountsIn.countOp _ r.die op).mono (List.subset_cons_self _ _))
  exact ⟨_, p, honly, hkept⟩

/-! ### Runs and invocations after a write -/

theorem State.id_of_run? {s : State} {n : Nat} {r : Run} (h : s.run? n = some r) : r.id = n := by
  simpa using List.find?_some h

/-- A run whose next operation issues stands where it is looked for. -/
theorem State.run?_issueRun_same (s : State) (r : Run) : (s.issueRun r).run? r.id = some r := by
  have hold : (s.runs.filter (fun x => x.id != r.id)).find? (fun x => x.id == r.id) = none :=
    List.find?_eq_none.mpr fun x hx => by simpa using (List.mem_filter.mp hx).2
  rw [State.run?, State.issueRun, List.find?_append, hold]
  simp

theorem State.run?_issueRun_ne (s : State) {r : Run} {n : Nat} (h : n ≠ r.id) : (s.issueRun r).run? n = s.run? n := by
  have hnew : [r].find? (fun x => x.id == n) = none := by simpa using h.symm
  rw [State.run?, State.issueRun, List.find?_append, hnew, Option.or_none, List.find?_filter, State.run?]
  congr 1
  funext x
  by_cases hx : x.id = n
  · simp [hx, h]
  · simp [hx]

theorem State.run?_setRun_same {s : State} {r x : Run} (h : s.run? r.id = some x) : (s.setRun r).run? r.id = some r := by
  have hpred : (fun y : Run => y.id == r.id) ∘ (fun y => if y.id = r.id then r else y) = fun y => y.id == r.id := by
    funext y
    by_cases hy : y.id = r.id
    · simp [hy]
    · simp [hy]
  rw [State.run?, State.setRun, List.find?_map, hpred]
  rw [State.run?] at h
  rw [h, Option.map_some, if_pos (State.id_of_run? h)]

theorem State.inv?_setInvDone_same {s : State} {k n : Nat} {i : Invocation} (code : Nat) (h : s.inv? k n = some i) (hdone : i.done = none) :
    (s.setInvDone k n code).inv? k n = some { i with done := some code } := by
  have hpred : (fun y : Invocation => y.ctx == k && y.sqIndex == n) ∘
      (fun y => if y.ctx == k && y.sqIndex == n && y.done.isNone then { y with done := some code } else y) =
      fun y => y.ctx == k && y.sqIndex == n := by
    funext y
    simp only [Function.comp_apply]
    split
    · rfl
    · rfl
  have hi : i.ctx = k ∧ i.sqIndex = n := by simpa using List.find?_some h
  rw [State.inv?, State.setInvDone, List.find?_map, hpred]
  rw [State.inv?] at h
  rw [h, Option.map_some, if_pos (by simp [hi, hdone])]

/-! ### OPERATION_COMPLETE (R98, R115) -/

section OperationComplete
variable {run n : Nat} {r : Run} {l : Layout} {i : Invocation} {s : State}

/-- A run with its operation behind it, at its next descriptor. -/
def Run.next (r : Run) : Run :=
  { r with executed := false, opCode := 0, sat := {}, outs := [], putReady := false, progress := 0, codes := r.codes ++ [r.opCode],
           op := r.op + 1 }

theorem State.advanceRun_of_own (h : r.substitute = none) : s.advanceRun r = r.next := by
  simp only [State.advanceRun, Run.next, h]

/-- An operation that has ended well is counted; the run goes on where it has a next descriptor, and ends otherwise. -/
theorem exec_operationComplete_of_ok (hrun : s.run? run = some r) (hlayout : s.layout = some l) (hexecuted : r.executed = true)
    (hdone : r.done = none) (hok : codeOk r.opCode = true) (hown : r.substitute = none) :
    exec (.operationComplete run) s = .next
      (if (l.progOps r.prog).length ≤ r.op + 1 then (s.operationCounted r).endRun r.next (lowestCode r.next.codes)
       else (s.operationCounted r).issueRun r.next) := by
  change execOperationComplete run s = _
  simp only [execOperationComplete, hrun, hexecuted, hdone, hok, State.advanceRun_of_own hown, hlayout]
  rfl

/-- The end of a run that an invocation started gives its code to both, and Crust and the power controller note it. -/
theorem State.endRun_of_invocation (s : State) (code : Nat) (h : r.origin = .invocation n) :
    ∃ crust power, s.endRun r code = ({ s with crust := crust, power := power }.setRun
      { r with executed := false, done := some code }).setInvDone r.ctx n code := by
  have hnoted (m : State) : ∃ power, m.noteDie r.die = { m with power := power } := by
    unfold State.noteDie
    split
    · exact ⟨_, rfl⟩
    · split
      · exact ⟨_, rfl⟩
      · exact ⟨_, rfl⟩
  obtain ⟨power, hpower⟩ := hnoted { s with crust := s.crust.starterEnds r.id s.now }
  refine ⟨s.crust.starterEnds r.id s.now, power, ?_⟩
  simp only [State.endRun, h, hpower]

theorem operationComplete_goes_on (hrun : s.run? run = some r) (hlayout : s.layout = some l) (hexecuted : r.executed = true)
    (hdone : r.done = none) (hok : codeOk r.opCode = true) (hown : r.substitute = none) (hmore : r.op + 1 < (l.progOps r.prog).length) :
    ∃ t : State, exec (.operationComplete run) s = .next t ∧ t.run? run = some r.next ∧
      (∀ j, j ≠ run → t.run? j = s.run? j) ∧ t = { s with regs := t.regs, runs := t.runs, power := t.power } ∧
      BlocksKept s t r.countBlocks := by
  have hexec := exec_operationComplete_of_ok hrun hlayout hexecuted hdone hok hown
  obtain ⟨regs, power, hcounted, hkept⟩ := s.operationCounted_eq r
  obtain rfl := State.id_of_run? hrun
  rw [if_neg (by omega), hcounted] at hexec
  exact ⟨_, hexec, State.run?_issueRun_same _ r.next, fun j hj => State.run?_issueRun_ne (r := r.next) _ hj, rfl, hkept⟩

theorem operationComplete_ends (hrun : s.run? run = some r) (hlayout : s.layout = some l) (hexecuted : r.executed = true)
    (hdone : r.done = none) (hok : codeOk r.opCode = true) (hown : r.substitute = none)
    (hlast : (l.progOps r.prog).length = r.op + 1) (horigin : r.origin = .invocation n) (hinv : s.inv? r.ctx n = some i)
    (hopen : i.done = none) :
    ∃ t : State, exec (.operationComplete run) s = .next t ∧
      (∃ r', t.run? run = some r' ∧ r'.executed = false ∧ r'.done = some (lowestCode (r.codes ++ [r.opCode]))) ∧
      (∃ i', t.inv? r.ctx n = some i' ∧ i'.done = some (lowestCode (r.codes ++ [r.opCode]))) ∧
      t = { s with regs := t.regs, runs := t.runs, invs := t.invs, crust := t.crust, power := t.power } ∧
      BlocksKept s t r.countBlocks := by
  have hexec := exec_operationComplete_of_ok hrun hlayout hexecuted hdone hok hown
  obtain ⟨regs, power, hcounted, hkept⟩ := s.operationCounted_eq r
  obtain rfl := State.id_of_run? hrun
  obtain ⟨crust, power', hends⟩ := State.endRun_of_invocation (r := r.next) { s with regs := regs, power := power }
    (lowestCode r.next.codes) horigin
  rw [if_pos (by omega), hcounted, hends] at hexec
  exact ⟨_, hexec,
    ⟨_, State.run?_setRun_same (s := { s with regs := regs, crust := crust, power := power' })
      (r := { r.next with executed := false, done := some (lowestCode r.next.codes) }) hrun, rfl, rfl⟩,
    ⟨_, State.inv?_setInvDone_same (s := ({ s with regs := regs, crust := crust, power := power' } : State).setRun _) _ hinv hopen,
      rfl⟩,
    rfl, hkept⟩

end OperationComplete

/-- Settles O16: an operation that has ended well is counted (`State.operationCounted_eq`); its run goes on with the next descriptor
(`operationComplete_goes_on`), and after the last one gives its code to its invocation (`operationComplete_ends`). -/
theorem operationComplete : Obligations.OperationComplete := by
  unfold Obligations.OperationComplete
  exact ⟨fun _ _ _ _ => operationComplete_goes_on, fun _ _ _ _ _ _ => operationComplete_ends⟩

end Sys2Proof.Machine
end

section
/-! The statement about BAR2 (chapter 05): where the bytes of a window lead, and accesses that succeed or fault as a whole. -/

namespace Sys2Proof.Machine

/-! ### Where a byte leads (R86) -/

section Window
variable {s : State} {k x : Nat} (acc : Access)

theorem State.bar2Target_of_staging (hk : k < 64) (hmode : s.fld (Fld.HQ_WIN_CTRL_mode k) = 2) (hx : x < 0x4000000) :
    s.bar2Target acc ((k * 0x40000000 + x)) = some (.phys (stagingAt s + x)) := by
  have hwindow : (k * 0x40000000 + x) / 0x40000000 = k := by omega
  have hoffset : (k * 0x40000000 + x) % 0x40000000 = x := by omega
  rw [State.bar2Target, hwindow, hoffset, hmode, if_neg (by omega), if_neg (by decide), if_pos rfl, if_pos hx]
  rfl

theorem State.bar2Target_of_off (hk : k < 64) (hmode : s.fld (Fld.HQ_WIN_CTRL_mode k) = 0) (hx : x < 0x40000000) :
    s.bar2Target acc ((k * 0x40000000 + x)) = none := by
  have hwindow : (k * 0x40000000 + x) / 0x40000000 = k := by omega
  rw [State.bar2Target, hwindow, hmode, if_neg (by omega), if_neg (by decide), if_neg (by decide)]

end Window

/-! ### Ranges that lead to physical memory, or nowhere -/

/-- Every byte of a range of BAR2 leads to the byte of physical memory at its place from a base. -/
def State.bar2Maps (s : State) (acc : Access) (off n p : Nat) : Prop := ∀ i, i < n → s.bar2Target acc (off + i) = some (.phys (p + i))

/-- No byte of a range of BAR2 leads anywhere. -/
def State.bar2Closed (s : State) (acc : Access) (off n : Nat) : Prop := ∀ i, i < n → s.bar2Target acc (off + i) = none

section Ranges
variable {s : State} {acc : Access} {off n p : Nat}

theorem State.bar2Maps.head (h : s.bar2Maps acc off (n + 1) p) : s.bar2Target acc off = some (.phys p) := h 0 (by omega)

theorem State.bar2Maps.tail (h : s.bar2Maps acc off (n + 1) p) : s.bar2Maps acc (off + 1) n (p + 1) := fun i hi => by
  rw [Nat.add_right_comm, Nat.add_assoc, h (i + 1) (by omega), ← Nat.add_assoc, Nat.add_right_comm]

theorem State.readPhys_succ (s : State) (p n : Nat) : s.readPhys p (n + 1) = s.byteAt p :: s.readPhys (p + 1) n := by
  rw [State.readPhys, List.range_succ_eq_map, List.map_cons, List.map_map, State.readPhys]
  congr 1
  exact List.map_congr_left fun i _ => congrArg s.byteAt (by simp only [Nat.succ_eq_add_one]; omega)

theorem State.bar2Bytes_of_maps (h : s.bar2Maps .read off n p) : s.bar2Bytes off n = some (s.readPhys p n) := by
  induction n generalizing off p with
  | zero => rfl
  | succ n ih => simp only [State.bar2Bytes, State.bar2Byte, h.head, ih h.tail, State.readPhys_succ]

theorem State.bar2WriteOk_of_maps (h : s.bar2Maps .transferWrite off n p) : s.bar2WriteOk off n = true := by
  induction n generalizing off p with
  | zero => rfl
  | succ n ih => simp only [State.bar2WriteOk, h.head, ih h.tail, Bool.and_self]

/-- Bytes written through a range that leads to physical memory are written there. -/
theorem State.bar2Put_of_maps {data : Bytes} (h : s.bar2Maps .transferWrite off data.length p) :
    s.bar2Put off data = s.writePhys p data := by
  induction data generalizing s off p with
  | nil => rfl
  | cons b bs ih =>
    have hrest : (s.setByte p b).bar2Maps .transferWrite (off + 1) bs.length (p + 1) := h.tail
    simp only [State.bar2Put, h.head, State.writePhys, ih hrest]

theorem State.bar2Flash_of_maps (h : s.bar2Maps acc off n p) : s.bar2Flash acc off n = false := by
  rw [State.bar2Flash, List.any_eq_false]
  intro i hi
  simp [h i (List.mem_range.mp hi)]

theorem State.bar2Flash_of_closed (h : s.bar2Closed acc off n) : s.bar2Flash acc off n = false := by
  rw [State.bar2Flash, List.any_eq_false]
  intro i hi
  simp [h i (List.mem_range.mp hi)]

theorem State.bar2Lost_of_closed (h : s.bar2Closed .read off n) : s.bar2Lost off n = false := by
  rw [State.bar2Lost, List.any_eq_false]
  intro i hi
  simp [h i (List.mem_range.mp hi)]

theorem State.bar2Bytes_of_closed (h : s.bar2Closed .read off n) (hn : 1 ≤ n) : s.bar2Bytes off n = none := by
  obtain ⟨m, rfl⟩ := Nat.exists_eq_add_of_le' hn
  have hfirst : s.bar2Target .read off = none := h 0 (by omega)
  simp only [State.bar2Bytes, State.bar2Byte, hfirst]

theorem State.bar2WriteOk_of_closed (h : s.bar2Closed .transferWrite off n) (hn : 1 ≤ n) : s.bar2WriteOk off n = false := by
  obtain ⟨m, rfl⟩ := Nat.exists_eq_add_of_le' hn
  have hfirst : s.bar2Target .transferWrite off = none := h 0 (by omega)
  simp only [State.bar2WriteOk, hfirst, Bool.false_and]

end Ranges

/-! ### BAR2_READ and BAR2_WRITE (R86, R188, R388) -/

/-- The state of a read of BAR2 that faults: all ones and win_fault. -/
def State.bar2Fault (s : State) (len : Nat) : State :=
  { s with answer := List.replicate len 255 }.hqEvent Ev.HQ_EVT_STATUS_win_fault

section Access
variable {s : State} {off len p : Nat} {data : Bytes}

theorem exec_bar2Read_of_maps (h : s.bar2Maps .read off len p) :
    exec (.bar2Read off (len, ⟨[], false⟩)) s = .next { s with answer := s.readPhys p len } := by
  change execBar2Read off (len, ⟨[], false⟩) s = _
  simp only [execBar2Read, State.bar2Flash_of_maps h, State.bar2Bytes_of_maps h, Bool.false_eq_true, if_false, Bool.false_and]

/-- A read that meets an uncorrectable error in memory is reported to Crust and faults. -/
theorem exec_bar2Read_of_lost (h : s.bar2Maps .read off len p) :
    exec (.bar2Read off (len, ⟨[], true⟩)) s = .next ((s.report 0x0B 0).bar2Fault len) := by
  change execBar2Read off (len, ⟨[], true⟩) s = _
  simp only [execBar2Read, State.bar2Flash_of_maps h, State.bar2Bytes_of_maps h, Bool.false_eq_true, if_false, Bool.not_false,
    Bool.and_self]
  rfl

theorem exec_bar2Read_of_closed (found : Found) (h : s.bar2Closed .read off len) (hlen : 1 ≤ len) :
    exec (.bar2Read off (len, found)) s = .next (s.bar2Fault len) := by
  change execBar2Read off (len, found) s = _
  simp only [execBar2Read, State.bar2Flash_of_closed h, State.bar2Lost_of_closed h, State.bar2Bytes_of_closed h hlen,
    Bool.false_eq_true, if_false]
  rfl

theorem exec_bar2Write_of_maps (h : s.bar2Maps .transferWrite off data.length p) :
    exec (.bar2Write off data) s = .next (s.writePhys p data) := by
  change execBar2Write off data s = _
  simp only [execBar2Write, State.bar2WriteOk_of_maps h, State.bar2Put_of_maps h, State.bar2Flash_of_maps h, Bool.false_eq_true,
    if_true, if_false]

theorem exec_bar2Write_of_closed (h : s.bar2Closed .transferWrite off data.length) (hdata : data ≠ []) :
    exec (.bar2Write off data) s = .next (s.hqEvent Ev.HQ_EVT_STATUS_win_fault) := by
  change execBar2Write off data s = _
  simp only [execBar2Write, State.bar2WriteOk_of_closed h (List.length_pos_iff.mpr hdata), Bool.false_eq_true, if_false]

/-- What a read that faults does. -/
theorem State.bar2Fault_effect (s : State) (len : Nat) {t : State} (ht : t = s.bar2Fault len) :
    t.answer = List.replicate len 255 ∧ Counted s t Ev.HQ_EVT_STATUS_win_fault ∧
      t = { s with regs := t.regs, msix := t.msix, msixPending := t.msixPending, answer := t.answer } ∧
      RegsKept s t Ev.HQ_EVT_STATUS_win_fault.regs := by
  obtain ⟨hcounted, honly, hkept⟩ := hqEvent_effect { s with answer := List.replicate len 255 } (by decide) (by decide) ht
  have hanswer : t.answer = List.replicate len 255 := (congrArg State.answer honly :)
  exact ⟨hanswer, hcounted, by rw [hanswer]; exact honly, hkept⟩

end Access

/-- Settles O17: a range of a window in mode STAGING leads to physical memory byte by byte (`State.bar2Maps`), so that a read answers
what stands there or reports its error, and a write is one of physical memory; a range of a window in mode OFF leads nowhere
(`State.bar2Closed`), and the access faults. -/
theorem bar2 : Obligations.Bar2 := by
  unfold Obligations.Bar2
  have hmaps {k x n : Nat} {s : State} (acc : Access) (hk : k < 64) (hmode : s.fld (Fld.HQ_WIN_CTRL_mode k) = 2)
      (hx : x + n ≤ 0x4000000) : s.bar2Maps acc (k * 0x40000000 + x) n (stagingAt s + x) := fun i hi => by
    rw [Nat.add_assoc, Nat.add_assoc]
    exact State.bar2Target_of_staging acc hk hmode (by omega)
  have hclosed {k x n : Nat} {s : State} (acc : Access) (hk : k < 64) (hmode : s.fld (Fld.HQ_WIN_CTRL_mode k) = 0)
      (hx : x + n ≤ 0x40000000) : s.bar2Closed acc (k * 0x40000000 + x) n := fun i hi => by
    rw [Nat.add_assoc]
    exact State.bar2Target_of_off acc hk hmode (by omega)
  refine ⟨fun k x len s hk hmode hx => ?read, fun k x len s hk hmode hx => ?lost, fun k x data s hk hmode hx => ?write,
    fun k x len found s hk hmode hx hlen => ?readOff, fun k x data s hk hmode hx hdata => ?writeOff⟩
  case read => exact ⟨_, exec_bar2Read_of_maps (hmaps .read hk hmode hx), rfl⟩
  case lost =>
    refine ⟨_, exec_bar2Read_of_lost (hmaps .read hk hmode hx), ?_⟩
    obtain ⟨hanswer, hcounted, honly, hkept⟩ := (s.report 0x0B 0).bar2Fault_effect len rfl
    exact ⟨hanswer, (congrArg (fun t : State => t.crust.reports) honly :), hcounted, hkept,
      honly.trans (by rw [(congrArg State.crust honly :)]; rfl)⟩
  case write =>
    refine ⟨_, exec_bar2Write_of_maps (hmaps .transferWrite hk hmode hx), s.readPhys_writePhys data _, fun a ha => ?_,
      s.writePhys_phys_only data _⟩
    rw [State.byteAt_writePhys, if_neg (by omega)]
  case readOff =>
    exact ⟨_, exec_bar2Read_of_closed found (hclosed .read hk hmode hx) hlen, s.bar2Fault_effect len rfl⟩
  case writeOff =>
    exact ⟨_, exec_bar2Write_of_closed (hclosed .transferWrite hk hmode hx) hdata, hqEvent_effect s (by decide) (by decide) rfl⟩

end Sys2Proof.Machine
end

section
/-! The statement about BAR4 (chapter 05), which a read of no bytes at the first sync slot refutes. -/

namespace Sys2Proof.Machine

/-- A read that begins in a sync slot which names no host_visible object is counted in sync_invalid, however short it is. -/
theorem exec_syncSlotRead_of_no_object {s : State} {off : Nat} (size : Nat) (hoff : 0x100000 ≤ off ∧ off < 0x17FFF8)
    (hslot : s.slotObj ((off - 0x100000) / 8) = none) :
    exec (.syncSlotRead none off size) s =
      .next ({ s with answer := leBytes size 0 }.hqEvent Ev.HQ_EVT_STATUS_sync_invalid) := by
  change execSyncSlotRead none off size s = _
  refine congrArg Host.Outcome.next ((if_pos hoff).trans ?_)
  simp only [Option.elim_none, hslot]

/-- Refutes O18: its clause for a read outside the sync slots admits a read of no bytes at 0x100000, since 0x100000 + 0 ≤ 0x100000. That
offset is the first sync slot; right after reset, when no layout is active, the slot names no object, and the read is counted in
sync_invalid where the clause says that nothing but the answer changes. -/
theorem not_bar4 : ¬ Obligations.Bar4 := by
  unfold Obligations.Bar4
  rintro ⟨-, -, -, -, -, -, hread, -⟩
  obtain ⟨t, hexec, honly⟩ := hread 0x100000 0 State.reset (.inl (by decide))
  rw [exec_syncSlotRead_of_no_object 0 (by decide) rfl] at hexec
  injection hexec with ht
  obtain ⟨hcounted, -, -⟩ := hqEvent_effect { State.reset with answer := leBytes 0 0 } (by decide) (by decide) ht.symm
  exact hcounted.regs_ne (congrArg State.regs honly :)

end Sys2Proof.Machine
end

section
/-! The statement about notifiers (chapter 05): what a write of HQ_NTF_CTRL arms, and when a notifier fires. -/

namespace Sys2Proof.Machine

/-! ### NOTIFIER_ARM (R100) -/

section Arm
variable {s : State} {who : Requester} {k value o : Nat}

/-- The state with the fields of HQ_NTF_CTRL that any write of it takes. -/
def State.notifierFields (s : State) (k value : Nat) : State :=
  (s.setFld (Fld.HQ_NTF_CTRL_sync_id k) (bits value 0 16)).setFld (Fld.HQ_NTF_CTRL_msix k) (bits value 16 6)

theorem onlyMoved_notifierFields (s : State) (k value : Nat) : OnlyMoved s (s.notifierFields k value) [Reg.HQ_NTF_CTRL k] :=
  ((onlyMoved_setFld s _ (by simp)).trans (onlyMoved_setFld _ _ (by simp))).mono (by simp)

theorem State.notifierFields_only (s : State) (k value : Nat) :
    s.notifierFields k value = s.withRegs (s.notifierFields k value).regs := by
  unfold State.notifierFields State.withRegs
  rw [State.setFld_regs_only (s.setFld _ _), State.setFld_regs_only s]

theorem State.writeNotifier_eq (s : State) (k v : Nat) :
    s.writeNotifier k v =
      if !bit v 22 then s.notifierFields k v
      else if ((s.notifierFields k v).slotObj (bits v 0 16)).isSome then (s.notifierFields k v).setFld (Fld.HQ_NTF_CTRL_arm k) 1
      else (s.notifierFields k v).hqEvent Ev.HQ_EVT_STATUS_sync_invalid := rfl

theorem State.slotObj_congr {s t : State} (h : t.layout = s.layout) (id : Nat) : t.slotObj id = s.slotObj id := by
  unfold State.slotObj
  rw [h]

/-- A write with arm = 1 arms the notifier where the object that it names is host_visible, and is counted otherwise. -/
theorem exec_notifierArm_of_served (hserved : s.served who 1 0x45 false = true) :
    exec (.notifierArm who k value) s = .next
      (if (s.slotObj (bits value 0 16)).isSome then (s.notifierFields k value).setFld (Fld.HQ_NTF_CTRL_arm k) 1
       else (s.notifierFields k value).hqEvent Ev.HQ_EVT_STATUS_sync_invalid) := by
  have hsync : bits (setBits value 22 1 1) 0 16 = bits value 0 16 := bits_setBits_disjoint (.inl (by decide))
  have hmsix : bits (setBits value 22 1 1) 16 6 = bits value 16 6 := bits_setBits_disjoint (.inl (by decide))
  have harm : bit (setBits value 22 1 1) 22 = true := by simp [bit, testBit_setBits]
  have hfields : s.notifierFields k (setBits value 22 1 1) = s.notifierFields k value := by
    rw [State.notifierFields, hsync, hmsix, State.notifierFields]
  have hslot : (s.notifierFields k value).slotObj (bits value 0 16) = s.slotObj (bits value 0 16) :=
    State.slotObj_congr (by rw [State.notifierFields, State.setFld_layout, State.setFld_layout]) _
  refine congrArg Host.Outcome.next ((State.busWrite_of_served _ hserved).trans ?_)
  rw [State.writeNotifier_eq, hfields, hsync, harm, hslot]
  exact if_neg (by decide)

theorem notifierArm_arms (hserved : s.served who 1 0x45 false = true) (hslot : s.slotObj (bits value 0 16) = some o) :
    ∃ t : State, exec (.notifierArm who k value) s = .next t ∧ t.flag (Fld.HQ_NTF_CTRL_arm k) = true ∧
      t.fld (Fld.HQ_NTF_CTRL_sync_id k) = bits value 0 16 ∧ t.fld (Fld.HQ_NTF_CTRL_msix k) = bits value 16 6 ∧
      RegsKept s t [Reg.HQ_NTF_CTRL k] ∧ t = { s with regs := t.regs } := by
  refine ⟨_, (exec_notifierArm_of_served hserved).trans (congrArg _ (if_pos (by rw [hslot]; rfl))), ?_, ?_, ?_, ?_, ?_⟩
  · rw [State.flag, State.fld_setFld_same _ _ (by simp)]
    rfl
  · rw [State.fld_setFld_ne _ _ (by simp) (by simp) (by simp), State.notifierFields,
      State.fld_setFld_ne _ _ (by simp) (by simp) (by simp), State.fld_setFld_same _ _ (by simp), Nat.mod_eq_of_lt (bits_lt ..)]
  · rw [State.fld_setFld_ne _ _ (by simp) (by simp) (by simp), State.notifierFields, State.fld_setFld_same _ _ (by simp),
      Nat.mod_eq_of_lt (bits_lt ..)]
  · exact (((onlyMoved_notifierFields s k value).trans (onlyMoved_setFld _ _ (by simp))).mono (by simp)).kept
  · exact State.setFld_of_withRegs (s.notifierFields_only k value) _ _

/-- The registers of the notifiers lie above those of the events. -/
theorem notifier_above (k : Nat) :
    Ev.HQ_EVT_STATUS_sync_invalid.status < Reg.HQ_NTF_CTRL k ∧ Ev.HQ_EVT_STATUS_sync_invalid.counter < Reg.HQ_NTF_CTRL k :=
  ⟨Nat.lt_add_right _ (by decide), Nat.lt_add_right _ (by decide)⟩

theorem notifierArm_counts (hserved : s.served who 1 0x45 false = true) (hslot : s.slotObj (bits value 0 16) = none) :
    ∃ t : State, exec (.notifierArm who k value) s = .next t ∧ t.flag (Fld.HQ_NTF_CTRL_arm k) = s.flag (Fld.HQ_NTF_CTRL_arm k) ∧
      Counted s t Ev.HQ_EVT_STATUS_sync_invalid ∧ t = { s with regs := t.regs, msix := t.msix, msixPending := t.msixPending } ∧
      RegsKept s t (Reg.HQ_NTF_CTRL k :: Ev.HQ_EVT_STATUS_sync_invalid.regs) := by
  have hmoved := onlyMoved_notifierFields s k value
  obtain ⟨hstatus, hcounter⟩ := notifier_above k
  have hevent := onlyMoved_hqEvent (s.notifierFields k value) Ev.HQ_EVT_STATUS_sync_invalid
  refine ⟨_, (exec_notifierArm_of_served hserved).trans (congrArg _ (if_neg (by rw [hslot]; simp))), ?_, ?_, ?_⟩
  · have harm : (s.notifierFields k value).fld (Fld.HQ_NTF_CTRL_arm k) = s.fld (Fld.HQ_NTF_CTRL_arm k) := by
      rw [State.notifierFields, State.fld_setFld_ne _ _ (by simp) (by simp) (by simp),
        State.fld_setFld_ne _ _ (by simp) (by simp) (by simp)]
    rw [State.flag, hevent.fld (by simp [Evt.regs, hstatus.ne', hcounter.ne']) (by simp), harm, State.flag]
  · exact (counted_hqEvent _ (by decide) (by decide)).since (hmoved.reg (by simp [hcounter.ne]))
  · obtain ⟨honly, hkept⟩ := hmoved.trans hevent
    exact ⟨honly, hkept⟩

end Arm

/-! ### NOTIFIER_FIRE (R100) -/

/-- What raising a vector does: its message is sent, or it is pending while the table masks it. -/
theorem State.raise_effect (s : State) (v : Nat) {t : State} (ht : t = s.raise v) :
    (if s.msixMasked v then t.msix = s.msix ∧ v ∈ t.msixPending else t.msix = s.msix ++ [v] ∧ t.msixPending = s.msixPending) ∧
      t = { s with msix := t.msix, msixPending := t.msixPending } := by
  subst ht
  refine ⟨?_, rfl⟩
  split
  · next hmasked =>
    refine ⟨if_pos hmasked, ?_⟩
    by_cases hpending : v ∈ s.msixPending
    · simp [State.raise, hpending]
    · simp [State.raise, hmasked, hpending]
  · next hopen => exact ⟨if_neg hopen, if_neg (by simp [hopen])⟩

/-- A notifier disarmed: its arm bit is clear, and its register alone has changed. -/
theorem State.disarm_eq (s : State) (k : Nat) :
    ∃ r, s.setFld (Fld.HQ_NTF_CTRL_arm k) 0 = s.withRegs r ∧ (s.withRegs r).flag (Fld.HQ_NTF_CTRL_arm k) = false ∧
      RegsKept s (s.withRegs r) [Reg.HQ_NTF_CTRL k] := by
  have honly : s.setFld (Fld.HQ_NTF_CTRL_arm k) 0 = s.withRegs (s.setFld (Fld.HQ_NTF_CTRL_arm k) 0).regs := s.setFld_regs_only _ _
  refine ⟨_, honly, ?_, ?_⟩
  · rw [← honly, State.flag, State.fld_setFld_same _ _ (by simp)]
    rfl
  · rw [← honly]
    exact (onlyMoved_setFld s _ (by simp)).kept

theorem exec_notifierFire (k : Nat) (s : State) :
    exec (.notifierFire k) s = .next
      (if s.flag (Fld.HQ_NTF_CTRL_arm k) && decide (s.reg64 (Reg.HQ_NTF_THRESH k) ≤ s.syncValue (s.fld (Fld.HQ_NTF_CTRL_sync_id k)))
       then (s.setFld (Fld.HQ_NTF_CTRL_arm k) 0).raise (s.fld (Fld.HQ_NTF_CTRL_msix k)) else s) := rfl

theorem notifierFire_fires {k : Nat} {s : State} (harmed : s.flag (Fld.HQ_NTF_CTRL_arm k) = true)
    (hreached : s.reg64 (Reg.HQ_NTF_THRESH k) ≤ s.syncValue (s.fld (Fld.HQ_NTF_CTRL_sync_id k))) :
    ∃ t : State, exec (.notifierFire k) s = .next t ∧ t.flag (Fld.HQ_NTF_CTRL_arm k) = false ∧
      (let v := s.fld (Fld.HQ_NTF_CTRL_msix k)
       if s.msixMasked v then t.msix = s.msix ∧ v ∈ t.msixPending else t.msix = s.msix ++ [v] ∧ t.msixPending = s.msixPending) ∧
      RegsKept s t [Reg.HQ_NTF_CTRL k] ∧
      t = { s with regs := t.regs, msix := t.msix, msixPending := t.msixPending } := by
  obtain ⟨r, hdisarm, harm, hkept⟩ := s.disarm_eq k
  have hexec := exec_notifierFire k s
  rw [if_pos (by simp [harmed, hreached]), hdisarm] at hexec
  obtain ⟨hraised, -⟩ := (s.withRegs r).raise_effect (s.fld (Fld.HQ_NTF_CTRL_msix k)) rfl
  exact ⟨_, hexec, harm, hraised, hkept, rfl⟩

/-- Settles O19: a write arms or is counted (`exec_notifierArm_of_served`), and a notifier fires where it is armed and its object has
reached the threshold (`exec_notifierFire`), which raises its vector (`State.raise_effect`). -/
theorem notifiers : Obligations.Notifiers := by
  unfold Obligations.Notifiers
  refine ⟨fun who k value o s _ => notifierArm_arms, fun who k value s _ => notifierArm_counts, fun k s _ => notifierFire_fires,
    fun k s hrests => ?_⟩
  rw [exec_notifierFire, if_neg]
  rcases hrests with hunarmed | hbelow
  · simp [hunarmed]
  · simp [hbelow]

end Sys2Proof.Machine
end

section
/-! The statement about the interface handshake (chapter 05): a proposal is taken, and firmware answers it. -/

namespace Sys2Proof.Machine

/-! ### IF_PROPOSE (R89, R90) -/

theorem exec_ifPropose_of_served {s : State} {who : Requester} (hserved : s.served who 1 0x45 false = true)
    (hfree : s.flag Fld.HQ_IF_CTRL_propose = false)
    (hstate : s.fld Fld.HQ_DEV_STATE_state = 1 ∨ s.fld Fld.HQ_DEV_STATE_state = 2 ∨ s.fld Fld.HQ_DEV_STATE_state = 3) :
    exec (.ifPropose who) s =
      .next ({ s with proposal := some (s.reg Reg.HQ_IF_DRV) }.setFld Fld.HQ_IF_CTRL_propose 1) := by
  have htakes : (s.fld Fld.HQ_DEV_STATE_state == 1 || s.fld Fld.HQ_DEV_STATE_state == 2 || s.fld Fld.HQ_DEV_STATE_state == 3) = true := by
    simpa [or_assoc] using hstate
  refine congrArg Host.Outcome.next ((State.busWrite_of_served _ hserved).trans (if_neg ?_))
  rw [hfree, htakes]
  decide

theorem ifPropose_takes {s : State} {who : Requester} (hserved : s.served who 1 0x45 false = true)
    (hfree : s.flag Fld.HQ_IF_CTRL_propose = false)
    (hstate : s.fld Fld.HQ_DEV_STATE_state = 1 ∨ s.fld Fld.HQ_DEV_STATE_state = 2 ∨ s.fld Fld.HQ_DEV_STATE_state = 3) :
    ∃ t : State, exec (.ifPropose who) s = .next t ∧ t.proposal = some (s.reg Reg.HQ_IF_DRV) ∧
      t.flag Fld.HQ_IF_CTRL_propose = true ∧ RegsKept s t [Reg.HQ_IF_CTRL] ∧
      t = { s with regs := t.regs, proposal := t.proposal } := by
  obtain ⟨m, hm⟩ : ∃ m : State, m = { s with proposal := some (s.reg Reg.HQ_IF_DRV) } := ⟨_, rfl⟩
  have hproposal : (m.setFld Fld.HQ_IF_CTRL_propose 1).proposal = some (s.reg Reg.HQ_IF_DRV) := by
    rw [State.setFld_proposal, hm]
  refine ⟨_, exec_ifPropose_of_served hserved hfree hstate, ?_⟩
  rw [← hm]
  refine ⟨hproposal, ?_, fun a ha => ?_, ?_⟩
  · rw [State.flag, State.fld_setFld_same _ _ (by decide)]
    rfl
  · rw [State.reg_setFld_ne _ _ (by decide) (by simpa using ha), hm]
    rfl
  · rw [hproposal, State.setFld_regs_only, hm]

/-! ### IF_ANSWER (R90) -/

theorem commonMajor_lt (a b : Nat) : commonMajor a b < 16 := by
  refine List.foldlRecOn (motive := fun m : Nat => m < 16) _ _ (by decide) fun m hm x hx => ?_
  have hx : x < 16 := List.mem_range.mp (List.mem_of_mem_filter hx)
  omega

/-- The driver's side of a proposal is no malformed one: it offers a major, and not major 0. -/
theorem bit_majors {p : Word} (h : p.getLsbD 0 = false) : bit (bits p.toNat 0 16) 0 = false := by
  rw [bit, testBit_bits]
  exact h

section Answer
variable {s : State} {p : Word}

/-- The state with the pending proposal taken by firmware. -/
def State.takeProposal (s : State) : State := { s with proposal := none }.setFld Fld.HQ_IF_CTRL_propose 0

theorem onlyMoved_takeProposal (s : State) : OnlyMoved { s with proposal := none } s.takeProposal [Reg.HQ_IF_CTRL] :=
  onlyMoved_setFld _ _ (by decide)

/-- A field outside HQ_IF_CTRL reads as before the proposal was taken. -/
theorem State.fld_takeProposal (s : State) {f : Fld} (ha : f.addr ≠ Reg.HQ_IF_CTRL) (hf : f.lo + f.width ≤ 32) :
    s.takeProposal.fld f = s.fld f := (onlyMoved_takeProposal s).fld (by simpa using ha) hf

theorem State.hostReady_of_handshake (h : s.fld Fld.HQ_DEV_STATE_state = 1) : s.hostReady = false := by
  rw [State.hostReady, h]
  rfl

/-- Without a common major the device is REFUSED with 0x0B10. -/
theorem State.answerProposal_refuses (hready : s.hostReady = false) (hdrv : bits p.toNat 0 16 ≠ 0) (hzero : p.getLsbD 0 = false)
    (hmajor : commonMajor (s.fld Fld.HQ_IF_FW_majors) (bits p.toNat 0 16) = 0) :
    s.answerProposal p = (s.setFld Fld.HQ_IF_STATUS_code 0x0B10).setFld Fld.HQ_DEV_STATE_state 4 := by
  simp [State.answerProposal, hready, hdrv, bit_majors hzero, hmajor]

/-- The state with an agreed major and minor, and code 0. -/
def State.agree (s : State) (major minor : Nat) : State :=
  ((s.setFld Fld.HQ_IF_STATUS_major major).setFld Fld.HQ_IF_STATUS_minor minor).setFld Fld.HQ_IF_STATUS_code 0

theorem onlyMoved_agree (s : State) (major minor : Nat) : OnlyMoved s (s.agree major minor) [Reg.HQ_IF_STATUS] :=
  (((onlyMoved_setFld s _ (by decide)).trans (onlyMoved_setFld _ _ (by decide))).trans (onlyMoved_setFld _ _ (by decide))).mono (by simp)

/-- On a common major, with no core restarting, the device is READY with it. -/
theorem State.answerProposal_agrees (hready : s.hostReady = false) (hcores : s.fld Fld.HQ_DEV_STATE_bkr_restarting = 0)
    (hdrv : bits p.toNat 0 16 ≠ 0) (hzero : p.getLsbD 0 = false)
    (hmajor : commonMajor (s.fld Fld.HQ_IF_FW_majors) (bits p.toNat 0 16) ≠ 0) :
    ∃ minor, s.answerProposal p =
      (s.agree (commonMajor (s.fld Fld.HQ_IF_FW_majors) (bits p.toNat 0 16)) minor).setFld Fld.HQ_DEV_STATE_state 2 := by
  have hcores' (major minor : Nat) : (s.agree major minor).fld Fld.HQ_DEV_STATE_bkr_restarting = 0 :=
    ((onlyMoved_agree s major minor).fld (by decide) (by decide)).trans hcores
  refine ⟨agreedMinor (commonMajor (s.fld Fld.HQ_IF_FW_majors) (bits p.toNat 0 16)) (s.fld Fld.HQ_IF_FW_majors)
    (s.fld Fld.HQ_IF_FW_minor) (bits p.toNat 0 16) (bits p.toNat 16 8), ?_⟩
  simp only [State.answerProposal, hready, hdrv, bit_majors hzero, hmajor, Bool.false_eq_true, or_self, if_false]
  exact congrArg (State.setFld (s.agree _ _) Fld.HQ_DEV_STATE_state) (if_pos (hcores' _ _))

theorem exec_ifAnswer_of_handshake (hproposal : s.proposal = some p) (hstate : s.fld Fld.HQ_DEV_STATE_state = 1)
    (hcores : s.fld Fld.HQ_DEV_STATE_bkr_restarting = 0) :
    exec .ifAnswer s = .next ((s.takeProposal.answerProposal p).hqEvent Ev.HQ_EVT_STATUS_if_done) := by
  change execIfAnswer s = _
  simp [execIfAnswer, hproposal, hstate, hcores, bit, State.takeProposal]

/-- The registers that an answer moves in HANDSHAKE. -/
def answerMoved : List Nat := [Reg.HQ_DEV_STATE, Reg.HQ_IF_CTRL, Reg.HQ_IF_STATUS] ++ Ev.HQ_EVT_STATUS_if_done.regs

theorem ifAnswer_agrees (hproposal : s.proposal = some p) (hstate : s.fld Fld.HQ_DEV_STATE_state = 1)
    (hcores : s.fld Fld.HQ_DEV_STATE_bkr_restarting = 0) (hdrv : bits p.toNat 0 16 ≠ 0) (hzero : p.getLsbD 0 = false)
    (hmajor : commonMajor (s.fld Fld.HQ_IF_FW_majors) (bits p.toNat 0 16) ≠ 0) :
    ∃ t : State, exec .ifAnswer s = .next t ∧ t.proposal = none ∧ t.flag Fld.HQ_IF_CTRL_propose = false ∧
      t.fld Fld.HQ_DEV_STATE_state = 2 ∧ t.fld Fld.HQ_IF_STATUS_code = 0 ∧
      t.fld Fld.HQ_IF_STATUS_major = commonMajor (s.fld Fld.HQ_IF_FW_majors) (bits p.toNat 0 16) ∧
      Counted s t Ev.HQ_EVT_STATUS_if_done ∧
      t = { s with regs := t.regs, msix := t.msix, msixPending := t.msixPending, proposal := none } ∧
      RegsKept s t answerMoved := by
  have hexec := exec_ifAnswer_of_handshake hproposal hstate hcores
  have htaken := onlyMoved_takeProposal s
  have hpropose : s.takeProposal.fld Fld.HQ_IF_CTRL_propose = 0 := State.fld_setFld_same _ _ (by decide)
  have hmajors := s.fld_takeProposal (f := Fld.HQ_IF_FW_majors) (by decide) (by decide)
  obtain ⟨minor, hanswer⟩ := State.answerProposal_agrees (s := s.takeProposal) (p := p)
    (State.hostReady_of_handshake ((s.fld_takeProposal (by decide) (by decide)).trans hstate))
    ((s.fld_takeProposal (by decide) (by decide)).trans hcores) hdrv hzero (hmajors ▸ hmajor)
  rw [hanswer, hmajors] at hexec
  have hlt := commonMajor_lt (s.fld Fld.HQ_IF_FW_majors) (bits p.toNat 0 16)
  generalize commonMajor (s.fld Fld.HQ_IF_FW_majors) (bits p.toNat 0 16) = major at hexec hlt
  generalize s.takeProposal = m at hexec htaken hpropose
  have hagree := (htaken.trans (onlyMoved_agree m major minor)).trans (onlyMoved_setFld _ (f := Fld.HQ_DEV_STATE_state) 2 (by decide))
  have hevent := onlyMoved_hqEvent ((m.agree major minor).setFld Fld.HQ_DEV_STATE_state 2) Ev.HQ_EVT_STATUS_if_done
  have hmoved := (hagree.trans hevent).mono (l' := answerMoved) (by decide)
  refine ⟨_, hexec, (congrArg State.proposal hmoved.only :), ?_, ?_, ?_, ?_, ?_, hmoved.only, hmoved.kept⟩
  · rw [State.flag, hevent.fld (by decide) (by decide), State.fld_setFld_ne _ _ (by decide) (by decide) (by decide),
      (onlyMoved_agree m major minor).fld (by decide) (by decide), hpropose]
    rfl
  · rw [hevent.fld (by decide) (by decide), State.fld_setFld_same _ _ (by decide)]
    rfl
  · rw [hevent.fld (by decide) (by decide), State.fld_setFld_ne _ _ (by decide) (by decide) (by decide), State.agree,
      State.fld_setFld_same _ _ (by decide)]
    rfl
  · rw [hevent.fld (by decide) (by decide), State.fld_setFld_ne _ _ (by decide) (by decide) (by decide), State.agree,
      State.fld_setFld_ne _ _ (by decide) (by decide) (by decide), State.fld_setFld_ne _ _ (by decide) (by decide) (by decide),
      State.fld_setFld_same _ _ (by decide)]
    exact Nat.mod_eq_of_lt hlt
  · exact (counted_hqEvent _ (by decide) (by decide)).since (hagree.reg (by decide))

theorem ifAnswer_refuses (hproposal : s.proposal = some p) (hstate : s.fld Fld.HQ_DEV_STATE_state = 1)
    (hcores : s.fld Fld.HQ_DEV_STATE_bkr_restarting = 0) (hdrv : bits p.toNat 0 16 ≠ 0) (hzero : p.getLsbD 0 = false)
    (hmajor : commonMajor (s.fld Fld.HQ_IF_FW_majors) (bits p.toNat 0 16) = 0) :
    ∃ t : State, exec .ifAnswer s = .next t ∧ t.proposal = none ∧ t.fld Fld.HQ_DEV_STATE_state = 4 ∧
      t.fld Fld.HQ_IF_STATUS_code = 0x0B10 ∧ Counted s t Ev.HQ_EVT_STATUS_if_done ∧ RegsKept s t answerMoved ∧
      t = { s with regs := t.regs, msix := t.msix, msixPending := t.msixPending, proposal := none } := by
  have hexec := exec_ifAnswer_of_handshake hproposal hstate hcores
  have htaken := onlyMoved_takeProposal s
  have hanswer := State.answerProposal_refuses (s := s.takeProposal) (p := p)
    (State.hostReady_of_handshake ((s.fld_takeProposal (by decide) (by decide)).trans hstate)) hdrv hzero
    ((congrArg (fun fw => commonMajor fw _) (s.fld_takeProposal (by decide) (by decide))).trans hmajor)
  rw [hanswer] at hexec
  generalize s.takeProposal = m at hexec htaken
  have hrefused := (htaken.trans (onlyMoved_setFld m (f := Fld.HQ_IF_STATUS_code) 0x0B10 (by decide))).trans
    (onlyMoved_setFld _ (f := Fld.HQ_DEV_STATE_state) 4 (by decide))
  have hevent := onlyMoved_hqEvent ((m.setFld Fld.HQ_IF_STATUS_code 0x0B10).setFld Fld.HQ_DEV_STATE_state 4) Ev.HQ_EVT_STATUS_if_done
  have hmoved := (hrefused.trans hevent).mono (l' := answerMoved) (by decide)
  refine ⟨_, hexec, (congrArg State.proposal hmoved.only :), ?_, ?_, ?_, hmoved.kept, hmoved.only⟩
  · rw [hevent.fld (by decide) (by decide), State.fld_setFld_same _ _ (by decide)]
    rfl
  · rw [hevent.fld (by decide) (by decide), State.fld_setFld_ne _ _ (by decide) (by decide) (by decide),
      State.fld_setFld_same _ _ (by decide)]
    rfl
  · exact (counted_hqEvent _ (by decide) (by decide)).since (hrefused.reg (by decide))

end Answer

/-- Settles O20: a proposal is taken where none is pending (`ifPropose_takes`); in HANDSHAKE firmware answers it with a common major
(`ifAnswer_agrees`) or refuses it (`ifAnswer_refuses`). -/
theorem handshake : Obligations.Handshake := by
  unfold Obligations.Handshake
  exact ⟨fun _ _ => ifPropose_takes, fun _ _ => ifAnswer_agrees, fun _ _ => ifAnswer_refuses⟩

end Sys2Proof.Machine
end

section
/-! The statement about invocations (chapter 05): descriptors are fetched, invocations start, and their completion records are written to
host memory. -/

namespace Sys2Proof.Machine

/-! ### Host memory -/

theorem State.hostByte_cons (s : State) (a x : Nat) (b : BitVec 8) :
    { s with hostMem := Sparse.put (fun _ => 0) s.hostMem a b }.hostByte x = if x = a then b else s.hostByte x := Sparse.get_put

/-- Writing a byte string to the host changes host memory alone. -/
theorem State.writeHost_only (bs : Bytes) (s : State) (a : Nat) : s.writeHost a bs = { s with hostMem := (s.writeHost a bs).hostMem } := by
  induction bs generalizing s a with
  | nil => rfl
  | cons b bs ih => exact (ih _ (a + 1)).trans rfl

/-- A byte of host memory after a byte string is written. -/
theorem State.hostByte_writeHost (bs : Bytes) (s : State) (a x : Nat) :
    (s.writeHost a bs).hostByte x = if a ≤ x ∧ x < a + bs.length then bs.getD (x - a) 0 else s.hostByte x := by
  induction bs generalizing s a with
  | nil => simp [State.writeHost]
  | cons b bs ih =>
    rw [State.writeHost, ih, State.hostByte_cons, List.length_cons]
    by_cases hx : x = a
    · subst hx
      simp
    · by_cases hin : a + 1 ≤ x ∧ x < a + 1 + bs.length
      · obtain ⟨i, rfl⟩ := Nat.exists_eq_add_of_le hin.1
        rw [if_pos hin, if_pos (by omega), show a + 1 + i - a = i + 1 by omega, Nat.add_sub_cancel_left]
        rfl
      · rw [if_neg hin, if_neg hx, if_neg (by omega)]

/-! ### Completion records (R97) -/

theorem length_leBytes (n v : Nat) : (leBytes n v).length = n := by
  induction n generalizing v with
  | zero => rfl
  | succ n ih => rw [leBytes, List.length_cons, ih]

theorem length_completionRecord (i : Invocation) (code cqIndex slots tEnd : Nat) :
    (completionRecord i code cqIndex slots tEnd).length = 32 := by
  simp [completionRecord, length_slice, length_leBytes]

theorem slice_one {b : Bytes} {j : Nat} (h : j < b.length) : slice b j 1 = [b.getD j 0] := by
  have htake : (b.drop j).take 1 = [b.getD j 0] := by
    rw [List.drop_eq_getElem_cons h, List.take_succ_cons, List.take_zero, List.getD_eq_getElem _ _ h]
  rw [slice, htake]
  rfl

/-- A record posted in two writes reads back as itself: the second write sets the byte that the first held inverted. -/
theorem State.readHost_postRecord (s : State) (a : Nat) {b : Bytes} (h : b.length = 32) : (s.postRecord a b).readHost a 32 = b := by
  apply List.ext_getElem
  · simp [State.readHost, h]
  · intro j hj hj'
    simp only [State.readHost, List.getElem_map, List.getElem_range, State.postRecord, State.hostByte_writeHost, List.length_set, h,
      slice_one (show 9 < b.length by omega), List.length_singleton]
    by_cases hphase : j = 9
    · subst hphase
      rw [if_pos (by simp)]
      simp [hj']
    · rw [if_neg (by simp; omega), if_pos (by omega)]
      simp [Ne.symm hphase, hj']

/-! ### DESCRIPTOR_FETCH (R94) -/

theorem descriptorFetch_fetches {k : Nat} {s : State} (hholds : s.holds k = true) (hmore : (s.queue k).sqHead ≠ (s.queue k).sqTail)
    (hfault : (s.queue k).fault = false) (hrun : s.flag (Fld.HQ_Q_CTRL_run k) = true) :
    ∃ t : State, exec (.descriptorFetch k) s = .next t ∧ (t.queue k).fetched = (s.queue k).fetched ++ [((s.queue k).sqHead,
        s.readHost (s.reg64 (Reg.HQ_Q_SQ_BASE k) + (s.queue k).sqHead % s.queueSlots k * 64) 64)] ∧
      (t.queue k).sqHead = ((s.queue k).sqHead + 1) % s.queueW k ∧ (∀ j, j ≠ k → t.queue j = s.queue j) ∧
      t = { s with queues := t.queues } := by
  have hfetches : (s.holds k && (s.queue k).sqHead != (s.queue k).sqTail && !(s.queue k).fault &&
      (s.flag (Fld.HQ_Q_CTRL_run k) || s.beforeLimit k (s.queue k).stopUpTo (s.queue k).sqHead)) = true := by
    simp [hholds, hmore, hfault, hrun]
  refine ⟨_, congrArg Host.Outcome.next (if_pos hfetches), ?_, ?_, fun j hj => s.queue_setQueue_ne _ hj, rfl⟩
  · rw [State.queue_setQueue_same]
  · rw [State.queue_setQueue_same]

/-! ### INVOCATION_START (R96, R450) -/

section Start
variable {k n c : Nat} {d : Bytes} {rest : List (Nat × Bytes)} {l : Layout} {s : State}

theorem State.fetched_popFetched (hfetched : (s.queue k).fetched = (n, d) :: rest) : ((s.popFetched k n).queue k).fetched = rest := by
  rw [State.popFetched, State.queue_setQueue_same, hfetched]
  rfl

/-- A valid descriptor whose turn has come is taken from its queue and started. -/
theorem exec_invocationStart_of_valid (hlayout : s.layout = some l) (hfetched : (s.queue k).fetched = (n, d) :: rest)
    (hroom : s.completionRoom k = true) (hvalid : s.descReject k n d = 0)
    (hmay : s.mayStart k d ((l.progRec (fieldAt d 2 2)).elim 0 (fun r => fieldAt r 1 1)) = true) :
    exec (.invocationStart k) s = .next ((s.popFetched k n).startInvocation l k n d) := by
  change execInvocationStart k s = _
  simp [execInvocationStart, hfetched, hlayout, hroom, hvalid, hmay]

/-- A descriptor that is turned away is taken from its queue and done with its status. -/
theorem exec_invocationStart_of_rejected (hlayout : s.layout = some l) (hfetched : (s.queue k).fetched = (n, d) :: rest)
    (hroom : s.completionRoom k = true) (hreject : s.descReject k n d = c) (hc : c ≠ 0) :
    exec (.invocationStart k) s = .next ((s.popFetched k n).addInv ⟨k, n, d, 0, false, false, some c⟩) := by
  change execInvocationStart k s = _
  simp [execInvocationStart, hfetched, hlayout, hroom, hreject, hc]

/-- Without a once-only schedule an invocation is put in flight and its programme starts as a run. -/
theorem State.startInvocation_of_programme (m : State) (hlayout : m.layout = some l) (honce : l.onceSched k = none)
    (hops : l.progOps (fieldAt d 2 2) ≠ []) :
    m.startInvocation l k n d = (m.addInv ⟨k, n, d, m.localNow (m.invDie k d), true, false, none⟩).startRun k (fieldAt d 2 2) 0
      (slice d 0x20 32) (.invocation n) := by
  have hstart : m.startInvocation l k n d = (m.addInv ⟨k, n, d, m.localNow (m.invDie k d), true, false, none⟩).startProgram k
      (fieldAt d 2 2) 0 (slice d 0x20 32) (.invocation n) := if_neg (by rw [honce]; decide)
  rw [hstart]
  refine if_neg fun hempty => hops (List.length_eq_zero_iff.mp ?_)
  rwa [show (m.addInv _).layout = some l from hlayout] at hempty

theorem invocationStart_starts (hlayout : s.layout = some l) (hfetched : (s.queue k).fetched = (n, d) :: rest)
    (hroom : s.completionRoom k = true) (hvalid : s.descReject k n d = 0)
    (hmay : s.mayStart k d ((l.progRec (fieldAt d 2 2)).elim 0 (fun r => fieldAt r 1 1)) = true) (honce : l.onceSched k = none)
    (hops : l.progOps (fieldAt d 2 2) ≠ []) :
    ∃ t : State, exec (.invocationStart k) s = .next t ∧ (t.queue k).fetched = rest ∧
      t.invs = s.invs ++ [⟨k, n, d, s.localNow (s.invDie k d), true, false, none⟩] ∧
      (∃ r : Run, t.runs = s.runs ++ [r] ∧ r.id = s.nextRun ∧ r.ctx = k ∧ r.prog = fieldAt d 2 2 ∧ r.args = slice d 0x20 32 ∧
        r.origin = .invocation n ∧ r.executed = false ∧ r.done = none) ∧
      t = { s with queues := t.queues, invs := t.invs, runs := t.runs, nextRun := s.nextRun + 1 } := by
  have hexec := exec_invocationStart_of_valid hlayout hfetched hroom hvalid hmay
  rw [State.startInvocation_of_programme (s.popFetched k n) hlayout honce hops] at hexec
  exact ⟨_, hexec, State.fetched_popFetched hfetched, rfl, ⟨_, rfl, rfl, rfl, rfl, rfl, rfl, rfl, rfl⟩, rfl⟩

theorem invocationStart_rejects (hlayout : s.layout = some l) (hfetched : (s.queue k).fetched = (n, d) :: rest)
    (hroom : s.completionRoom k = true) (hreject : s.descReject k n d = c) (hc : c ≠ 0) :
    ∃ t : State, exec (.invocationStart k) s = .next t ∧ (t.queue k).fetched = rest ∧
      t.invs = s.invs ++ [⟨k, n, d, 0, false, false, some c⟩] ∧ t = { s with queues := t.queues, invs := t.invs } :=
  ⟨_, exec_invocationStart_of_rejected hlayout hfetched hroom hreject hc, State.fetched_popFetched hfetched, rfl, rfl⟩

end Start

/-! ### INVOCATION_COMPLETE (R97, R98, R101) -/

section Complete
variable {k n code : Nat} {i : Invocation} {s : State}

theorem State.ctx_of_inv? (h : s.inv? k n = some i) : i.ctx = k ∧ i.sqIndex = n := by simpa using List.find?_some h

/-- The address of the record that a queue's next completion takes. -/
def State.recordAt (s : State) (k : Nat) : Nat := s.reg64 (Reg.HQ_Q_CQ_BASE k) + (s.queue k).cqTail % s.queueSlots k * 32

/-- The completion record that an invocation publishes. -/
def State.recordOf (s : State) (i : Invocation) (code : Nat) : Bytes :=
  completionRecord i code (s.queue i.ctx).cqTail (s.queueSlots i.ctx) (s.localNow (s.invDie i.ctx i.desc))

/-- The state with the completion record of an invocation in host memory and cq_tail advanced. -/
def State.recorded (s : State) (i : Invocation) (code : Nat) : State :=
  (s.postRecord (s.recordAt i.ctx) (s.recordOf i code)).setQueue i.ctx
    { s.queue i.ctx with cqTail := ((s.queue i.ctx).cqTail + 1) % s.queueW i.ctx }

/-- The state with an invocation, and its run, in flight no longer. -/
def State.dropInv (s : State) (k n : Nat) : State :=
  { s with
    invs := s.invs.filter (fun x => !(x.ctx == k && x.sqIndex == n))
    runs := s.runs.filter (fun r => !(r.ctx == k && r.origin == .invocation n)) }

theorem State.publish_of_kept (hctx : i.ctx = k) (hdiscard : (s.queue k).discard = false) (horphan : i.orphan = false) :
    s.publish i code = s.recorded i code := by
  subst hctx
  refine if_neg ?_
  rw [hdiscard, horphan]
  decide

/-- The interrupt of an invocation that is done: where its descriptor asks for one and its queue enables it (R98). -/
def State.interrupt (s : State) (i : Invocation) : State :=
  if bit (fieldAt i.desc 1 1) 0 && s.flag (Fld.HQ_Q_CTRL_irq_en i.ctx) then s.raise (s.fld (Fld.HQ_Q_CTRL_msix i.ctx)) else s

theorem exec_invocationComplete_of_failed (hinv : s.inv? k n = some i) (hdone : i.done = some code) (hfailed : codeOk code = false)
    (hn : n < 2 ^ 32) (hdiscard : (s.queue k).discard = false)
    (hroom : countDiff (s.queueW k) (s.queue k).cqTail (s.queue k).cqHead < s.queueSlots k)
    (hturn : code = 0x0B32 → s.stoppedInTurn k n = true) (hsettled : ∀ x ∈ s.kvTouched, ¬(x.ctx = k ∧ x.inv = some n)) :
    exec (.invocationComplete k n) s = .next (((s.recorded i code).dropInv k n).interrupt i) := by
  obtain ⟨rfl, rfl⟩ := State.ctx_of_inv? hinv
  have horphan : i.orphan = false := decide_eq_false (by omega)
  have hnone : s.kvTouched.filter (fun t => t.ctx == i.ctx && t.inv == some i.sqIndex) = [] :=
    List.filter_eq_nil_iff.mpr fun x hx => by simpa using hsettled x hx
  have hgoes : ¬(((s.queue i.ctx).discard = false ∧ i.orphan = false ∧
      s.queueSlots i.ctx ≤ countDiff (s.queueW i.ctx) (s.queue i.ctx).cqTail (s.queue i.ctx).cqHead) ∨
      (code = 0x0B32 ∧ s.stoppedInTurn i.ctx i.sqIndex = false)) := by
    rintro (⟨-, -, hfull⟩ | ⟨hcode, hwaits⟩)
    · omega
    · rw [hturn hcode] at hwaits
      cases hwaits
  change execInvocationComplete i.ctx i.sqIndex s = _
  simp only [execInvocationComplete, hinv, hdone]
  refine congrArg Host.Outcome.next ((if_neg hgoes).trans ?_)
  simp only [hnone, State.kvSettle, hfailed, Bool.false_eq_true, if_false, State.publish_of_kept rfl hdiscard horphan, horphan,
    Bool.not_false, Bool.and_true]
  rfl

theorem State.postRecord_only (s : State) (a : Nat) (b : Bytes) :
    s.postRecord a b = { s with hostMem := (s.postRecord a b).hostMem } := by
  rw [State.postRecord, State.writeHost_only (slice b 9 1), State.writeHost_only (b.set 9 _)]

/-- A record published: host memory and the queue alone change, the record reads back, and cq_tail has advanced. -/
theorem State.recorded_eq (s : State) (i : Invocation) (code : Nat) :
    ∃ mem queues, s.recorded i code = { s with hostMem := mem, queues := queues } ∧
      { s with hostMem := mem, queues := queues }.readHost (s.recordAt i.ctx) 32 = s.recordOf i code ∧
      ({ s with hostMem := mem, queues := queues }.queue i.ctx).cqTail = ((s.queue i.ctx).cqTail + 1) % s.queueW i.ctx := by
  have hread := s.readHost_postRecord (s.recordAt i.ctx) (b := s.recordOf i code) (length_completionRecord ..)
  have htail := congrArg Queue.cqTail (State.queue_setQueue_same (s.postRecord (s.recordAt i.ctx) (s.recordOf i code)) i.ctx
    { s.queue i.ctx with cqTail := ((s.queue i.ctx).cqTail + 1) % s.queueW i.ctx })
  unfold State.recorded
  rw [State.postRecord_only] at hread htail ⊢
  generalize (s.postRecord (s.recordAt i.ctx) (s.recordOf i code)).hostMem = mem at hread htail
  exact ⟨mem, _, rfl, hread, htail⟩

theorem State.inv?_dropInv (s : State) (k n : Nat) : (s.dropInv k n).inv? k n = none :=
  List.find?_eq_none.mpr fun _ hx => by simpa only [Bool.not_eq_true', Bool.not_eq_true] using (List.mem_filter.mp hx).2

/-- The interrupt changes the vectors alone, and sends its vector unless the table masks it. -/
theorem State.interrupt_eq (m : State) (i : Invocation) :
    ∃ msix pending, m.interrupt i = { m with msix := msix, msixPending := pending } ∧
      msix = (if (fieldAt i.desc 1 1).testBit 0 && m.flag (Fld.HQ_Q_CTRL_irq_en i.ctx) &&
        !m.msixMasked (m.fld (Fld.HQ_Q_CTRL_msix i.ctx)) then m.msix ++ [m.fld (Fld.HQ_Q_CTRL_msix i.ctx)] else m.msix) := by
  unfold State.interrupt bit
  by_cases hasks : ((fieldAt i.desc 1 1).testBit 0 && m.flag (Fld.HQ_Q_CTRL_irq_en i.ctx)) = true
  · rw [if_pos hasks, hasks, Bool.true_and]
    refine ⟨_, _, rfl, ?_⟩
    cases hmasked : m.msixMasked (m.fld (Fld.HQ_Q_CTRL_msix i.ctx))
    · exact if_neg Bool.false_ne_true
    · exact if_pos rfl
  · rw [if_neg hasks, eq_false_of_ne_true hasks]
    exact ⟨_, _, rfl, rfl⟩

theorem invocationComplete_fails (hinv : s.inv? k n = some i) (hdone : i.done = some code) (hfailed : codeOk code = false)
    (hctx : i.ctx = k) (hn : n < 2 ^ 32) (hdiscard : (s.queue k).discard = false)
    (hroom : countDiff (s.queueW k) (s.queue k).cqTail (s.queue k).cqHead < s.queueSlots k)
    (hturn : code = 0x0B32 → s.stoppedInTurn k n = true) (hsettled : ∀ x ∈ s.kvTouched, ¬(x.ctx = k ∧ x.inv = some n)) :
    ∃ t : State, exec (.invocationComplete k n) s = .next t ∧
      t.readHost (s.reg64 (Reg.HQ_Q_CQ_BASE k) + (s.queue k).cqTail % s.queueSlots k * 32) 32 =
        completionRecord i code (s.queue k).cqTail (s.queueSlots k) (s.localNow (s.invDie k i.desc)) ∧
      (t.queue k).cqTail = ((s.queue k).cqTail + 1) % s.queueW k ∧ t.inv? k n = none ∧ t.syncs = s.syncs ∧
      t.msix = (if (fieldAt i.desc 1 1).testBit 0 && s.flag (Fld.HQ_Q_CTRL_irq_en k) && !s.msixMasked (s.fld (Fld.HQ_Q_CTRL_msix k))
        then s.msix ++ [s.fld (Fld.HQ_Q_CTRL_msix k)] else s.msix) ∧
      t = { s with
        hostMem := t.hostMem, queues := t.queues, invs := t.invs, runs := t.runs, msix := t.msix, msixPending := t.msixPending } := by
  have hexec := exec_invocationComplete_of_failed hinv hdone hfailed hn hdiscard hroom hturn hsettled
  subst hctx
  obtain ⟨mem, queues, hrecorded, hread, htail⟩ := s.recorded_eq i code
  obtain ⟨msix, pending, hraised, hmsix⟩ := (({ s with hostMem := mem, queues := queues } : State).dropInv i.ctx n).interrupt_eq i
  rw [hrecorded, hraised] at hexec
  exact ⟨_, hexec, hread, htail, State.inv?_dropInv { s with hostMem := mem, queues := queues } i.ctx n, rfl, hmsix, rfl⟩

end Complete

/-- Settles O21: the engine fetches the next descriptor (`descriptorFetch_fetches`); at its turn a descriptor starts its programme
(`invocationStart_starts`) or is done without running (`invocationStart_rejects`); and an invocation done with a code that is no result
publishes its record, which reads back from host memory (`State.readHost_postRecord`), and signals nothing. -/
theorem invocations : Obligations.Invocations := by
  unfold Obligations.Invocations
  exact ⟨fun _ _ => descriptorFetch_fetches, fun _ _ _ _ _ _ => invocationStart_starts, fun _ _ _ _ _ _ _ => invocationStart_rejects,
    fun _ _ _ _ _ => invocationComplete_fails⟩

end Sys2Proof.Machine
end

section
/-! What the abort of a queue (chapter 05) keeps: the list of invocations, and every block of registers that no abort of a programme and
no rollback of a sequence writes, where `StopFrame` speaks of the contexts and of the blocks QUE. -/

namespace Sys2Proof.Machine

/-- The blocks that aborts of programmes and rollbacks of sequences write, on any die: the counters of operations, translation, the world
map, the planner, the solver, the key-value cache and the tiers. -/
def abortBlocks : List Nat := [0x05, 0x06, 0x0A, 0x28, 0x29, 0x2A, 0x41, 0x42, 0x68, 0x69]

/-- True for the registers of the blocks that aborts write. -/
def abortWrites (a : Nat) : Bool := abortBlocks.contains (a / 65536 % 256)

/-- The second state has the invocations of the first, and its registers outside the blocks that aborts write. -/
structure AbortFrame (s t : State) : Prop where
  invs : t.invs = s.invs
  kept : ∀ a, abortWrites a = false → t.reg a = s.reg a

namespace AbortFrame
variable {s t u : State}

theorem refl (s : State) : AbortFrame s s := ⟨rfl, fun _ _ => rfl⟩

theorem trans (hst : AbortFrame s t) (htu : AbortFrame t u) : AbortFrame s u :=
  ⟨htu.invs.trans hst.invs, fun a ha => (htu.kept a ha).trans (hst.kept a ha)⟩

/-- A change of neither invocations nor registers. -/
theorem of_eq (hinvs : t.invs = s.invs) (hregs : t.regs = s.regs) : AbortFrame s t := ⟨hinvs, fun a _ => State.reg_congr hregs a⟩

theorem foldl {α : Type} {f : State → α → State} (hf : ∀ a x, AbortFrame a (f a x)) (xs : List α) (s : State) :
    AbortFrame s (xs.foldl f s) :=
  List.foldlRecOn (motive := AbortFrame s) xs f (refl s) fun a ha x _ => ha.trans (hf a x)

/-! ### Registers -/

/-- What moves registers of one block alone. -/
theorem of_countsIn {b : Nat} (h : CountsIn s t [b]) (hb : abortBlocks.contains (b % 256) = true) : AbortFrame s t :=
  ⟨(congrArg State.invs h.only :), fun a ha => h.kept a fun hab => by
    rw [abortWrites, List.mem_singleton.mp hab, hb] at ha
    cases ha⟩

theorem setFld (s : State) {f : Fld} (v : Nat) (hw : f.lo + f.width ≤ 32) (hf : abortWrites f.addr = true) :
    AbortFrame s (s.setFld f v) := by
  rw [State.setFld_word _ _ hw]
  exact of_countsIn (CountsIn.setReg s _ rfl) hf

theorem contains_of_die (die : Nat) {b : Nat} (hb : b < 256 ∧ abortBlocks.contains b = true) :
    abortBlocks.contains ((die * 256 + b) % 256) = true := by
  rw [show (die * 256 + b) % 256 = b by omega, hb.2]

theorem abortWrites_die (die : Nat) {offset : Nat} (h : abortWrites offset = true) : abortWrites (die * 0x1000000 + offset) = true := by
  unfold abortWrites
  rw [show (die * 0x1000000 + offset) / 65536 % 256 = offset / 65536 % 256 by omega]
  exact h

theorem setReg64 (s : State) {a : Nat} (v : Nat) (ha : abortWrites a = true) (hpair : (a + 4) / 65536 = a / 65536) :
    AbortFrame s (s.setReg64 a v) := of_countsIn (CountsIn.setReg64 s v rfl hpair) ha

theorem eventIf (s : State) (c : Bool) {e : Evt} (hs : abortWrites e.status = true) (hc : abortWrites e.counter = true) :
    AbortFrame s (s.eventIf c e) := by
  cases c with
  | true => exact (of_countsIn (CountsIn.setReg s _ rfl) hs).trans (of_countsIn (CountsIn.setReg _ _ rfl) hc)
  | false => exact refl s

theorem satEvents (s : State) (die : Nat) (e : SatEvents) : AbortFrame s (s.satEvents die e) :=
  of_countsIn (CountsIn.satEvents s die e) (contains_of_die die (by decide))

theorem countOp (s : State) (die opcode : Nat) : AbortFrame s (s.countOp die opcode) := by
  have h := CountsIn.countOp s die opcode
  refine ⟨(congrArg State.invs h.only :), fun a ha => h.kept a fun hab => ?_⟩
  simp only [List.mem_cons, List.not_mem_nil, or_false] at hab
  rcases hab with hab | hab | hab
  all_goals
    rw [abortWrites, hab, contains_of_die die (by decide)] at ha
    cases ha

theorem xltFault (s : State) (die ctx code va : Nat) : AbortFrame s (s.xltFault die ctx code va) := by
  unfold State.xltFault
  split
  · exact refl s
  · refine of_countsIn (b := die * 256 + 6) ?_ (contains_of_die die (by decide))
    have hevent : CountsIn s (s.event
        (if code = 0x0201 then Ev.XLT_EVT_STATUS_unmapped die
          else if code = 0x0202 then Ev.XLT_EVT_STATUS_write die else Ev.XLT_EVT_STATUS_range die)) [die * 256 + 6] := by
      split
      · exact CountsIn.dieEvent s true die 0x60000 0 0x60004 (by decide) (by decide)
      · split
        · exact CountsIn.dieEvent s true die 0x60000 1 0x60008 (by decide) (by decide)
        · exact CountsIn.dieEvent s true die 0x60000 2 0x6000C (by decide) (by decide)
    have hctx := hevent.trans (CountsIn.dieFld _ die 0x60020 0 6 ctx (by decide) (by decide))
    have hcode := hctx.trans (CountsIn.dieFld _ die 0x60020 16 16 code (by decide) (by decide))
    exact hcode.trans (CountsIn.dieFld _ die 0x60028 0 64 va (by decide) (by decide))

/-! ### Memory and pages (R133, R145) -/

theorem putVa (s : State) (who : Master) (acc : Access) (ctx va : Nat) (bs : Bytes) : AbortFrame s (s.putVa who acc ctx va bs) := by
  rw [State.putVa_only]
  exact of_eq rfl rfl

theorem undefRange (s : State) (base len : Nat) : AbortFrame s (s.undefRange base len) := of_eq rfl rfl

theorem undefRanges (s : State) (rs : List (Nat × Nat)) : AbortFrame s (s.undefRanges rs) := by
  rw [State.undefRanges_only]
  exact of_eq rfl rfl

theorem kvSettled (s : State) (t : KvTouch) : AbortFrame s (s.kvSettled t) := by
  have hroll (m : State) (q c : Nat) : AbortFrame m (m.kvRollback q c) := by
    unfold State.kvRollback
    extract_lets e drop n m1 gone
    exact trans (t := { m1.tlbDrop gone with kvPages := m1.kvPages.filter (fun p => !drop p.1) }) (of_eq rfl rfl)
      (setReg64 _ _ (by decide) (by decide))
  unfold State.kvSettled
  extract_lets e
  split
  · have hclose : AbortFrame s (s.setKv t.seq e.closeGroup) := of_eq rfl rfl
    exact (hclose.trans (hroll _ t.seq e.committed)).trans (eventIf _ _ (e := Ev.KV_EVT_STATUS_rollback) (by decide) (by decide))
  · exact refl s

theorem kvSettle (ts : List KvTouch) (s : State) : AbortFrame s (s.kvSettle ts) := by
  induction ts generalizing s with
  | nil => exact refl s
  | cons t ts ih =>
    rw [State.kvSettle_cons]
    exact ((kvSettled s t).trans (of_eq (t := (s.kvSettled t).dropTouch t) rfl rfl)).trans (ih _)

/-! ### The engines' work (R266, R298, R316) -/

theorem dropPins (s : State) (owner : Option Nat) : AbortFrame s (s.dropPins owner) := by
  have hnode (m : State) (cfg : MapCfg) (i : Nat) (bs : Bytes) : AbortFrame m (m.writeNode cfg i bs) := by
    unfold State.writeNode
    split
    · rw [State.writeDie, State.writePhys_phys_only]
      exact of_eq rfl rfl
    · split
      · next hw =>
        rw [State.writeVa_only hw]
        exact of_eq rfl rfl
      · exact xltFault m 0 _ _ _
  have hnodes (m : State) (before : List World) : AbortFrame m (m.releaseNodes before) := by
    unfold State.releaseNodes
    split
    · exact refl m
    · exact foldl (fun a i => trans (t := a.useFree 16) (of_eq rfl rfl) (hnode _ _ _ _)) _ m
  have hregs (m : State) : AbortFrame m m.mapRegs :=
    ((setFld m _ (by decide) (by decide)).trans (setFld _ _ (by decide) (by decide))).trans (setReg64 _ _ (by decide) (by decide))
  exact trans (t := { s with map := { s.map with pins := s.map.pins.filter (fun p => p.owner != owner) } }) (of_eq rfl rfl)
    ((hnodes _ _).trans (hregs _))

theorem dropEngineWork (s : State) (r : Run) : AbortFrame s (s.dropEngineWork r) := by
  unfold State.dropEngineWork
  extract_lets d n p a b s1
  have h1 : AbortFrame s s1 := by
    have ha : AbortFrame s a :=
      trans (t := { s with plan := { s.plan with batch := none } }) (of_eq rfl rfl) (dropPins _ (some r.id))
    have hbusy := ha.trans (setFld a (f := Fld.PLAN_STATUS_busy) 0 (by decide) (by decide))
    have hb : AbortFrame s b := hbusy.trans (eventIf _ true (e := Ev.PLAN_EVT_STATUS_abandoned) (by decide) (by decide))
    unfold s1
    split
    · split
      · exact hb
      · exact hb.trans (undefRange _ _ _)
    · exact refl s
  split
  · have hsolv : AbortFrame s1 { s1 with solv := { s1.solv with active := none }, phys := { s1.phys with watch := [] } } := of_eq rfl rfl
    have hbusy := hsolv.trans (setFld _ (f := Fld.SOLV_STATUS_busy) 0 (by decide) (by decide))
    exact h1.trans (hbusy.trans (setFld _ (f := Fld.SOLV_STATUS_factorising) 0 (by decide) (by decide)))
  · exact h1

/-! ### Runs (R101, R135) -/

theorem cancelPrefetches (r : Run) (ps : List (Nat × PrefetchPhase)) (s : State) : AbortFrame s (s.cancelPrefetches r ps) := by
  induction ps generalizing s with
  | nil => exact refl s
  | cons p ps ih =>
    rw [State.cancelPrefetches]
    refine trans ?_ (ih _)
    split
    · extract_lets rec' bs s2
      have hfree : AbortFrame s (s.useFree bs.length) := of_eq rfl rfl
      have hevent := hfree.trans (eventIf _ true (e := Ev.TIER_EVT_STATUS_cancel) (by decide) (by decide))
      have hactive : AbortFrame s s2 := hevent.trans (of_eq rfl rfl)
      exact hactive.trans (putVa _ _ _ _ _ _)
    · exact refl s

theorem abortRun (s : State) (code : Nat) (r : Run) : AbortFrame s (s.abortRun code r) := by
  have hnoted (m : State) : AbortFrame m (m.noteDie r.die) := by
    unfold State.noteDie
    split
    · exact of_eq rfl rfl
    · split
      · exact of_eq rfl rfl
      · exact refl m
  unfold State.abortRun
  extract_lets op s0 s1 s2
  have h0 : AbortFrame s s0 := by
    unfold s0
    split
    · exact (hnoted s).trans (of_eq rfl rfl)
    · exact hnoted s
  have h1 : AbortFrame s s1 := (h0.trans (dropEngineWork _ r)).trans (cancelPrefetches r _ _)
  have h2 : AbortFrame s1 s2 := by
    unfold s2
    split
    · exact refl s1
    · split
      · exact (undefRanges s1 _).trans (satEvents _ _ _)
      · split
        · have habort := eventIf (s1.undefRanges r.outs) (op == 1 || op == 2 || op == 3) (e := Ev.TILE_EVT_STATUS_op_abort r.die)
            (abortWrites_die r.die (offset := 0xA0010) (by decide)) (abortWrites_die r.die (offset := 0xA001C) (by decide))
          exact ((undefRanges s1 _).trans habort).trans (countOp _ _ _)
        · exact refl s1
  refine (h1.trans h2).trans ?_
  split
  · exact of_eq rfl rfl
  · exact of_eq rfl rfl

theorem abortRuns (code : Nat) (rs : List Run) (s : State) : AbortFrame s (s.abortRuns code rs) := by
  induction rs generalizing s with
  | nil => exact refl s
  | cons r rs ih => exact (abortRun s code r).trans (ih _)

end AbortFrame

end Sys2Proof.Machine
end

section
/-! The statement about the control of a queue (chapter 05): it is stopped, run and aborted, and faults on its rings stop it. -/

namespace Sys2Proof.Machine

/-! ### The register HQ_Q_CTRL (R101) -/

/-- The state with the fields of HQ_Q_CTRL that any write of it takes. -/
def State.queueFields (s : State) (k v : Nat) : State :=
  (s.setFld (Fld.HQ_Q_CTRL_msix k) (bits v 2 6)).setFld (Fld.HQ_Q_CTRL_irq_en k) (bits v 8 1)

/-- The state with fetches and the schedule of a context stopped. -/
def State.haltQueue (s : State) (k : Nat) : State := (s.setFld (Fld.HQ_Q_CTRL_run k) 0).setCtx k { s.ctx k with sched := false }

/-- The state with the fault of a queue cleared. -/
def State.clearFault (s : State) (k : Nat) : State := s.setQueue k { s.queue k with fault := false }

/-- A context with its schedule enabled from an anchor on. -/
def Ctx.scheduled (c : Ctx) (anchor : Nat) : Ctx := { c with sched := true, anchor := anchor, lastInstant := 0 }

/-- The state with the run bit of a queue set, its context written, and no completion record discarded any more. -/
def State.runQueue (s : State) (k : Nat) (c : Ctx) : State :=
  let m := (s.setFld (Fld.HQ_Q_CTRL_run k) 1).setCtx k c
  m.setQueue k { m.queue k with discard := false }

theorem bit_setBits {v lo w x i : Nat} (h : lo ≤ i ∧ i < lo + w) : bit (setBits v lo w x) i = x.testBit (i - lo) :=
  (testBit_setBits ..).trans (if_pos h)

theorem State.queueFields_eq (s : State) (k v : Nat) :
    ∃ r, s.queueFields k v = s.withRegs r ∧ RegsKept s (s.withRegs r) [Reg.HQ_Q_CTRL k] := by
  have honly : s.queueFields k v = s.withRegs (s.queueFields k v).regs := by
    unfold State.queueFields State.withRegs
    rw [State.setFld_regs_only (s.setFld _ _), State.setFld_regs_only s]
  refine ⟨_, honly, fun a ha => ?_⟩
  have hne : a ≠ Reg.HQ_Q_CTRL k := by simpa using ha
  rw [← honly, State.queueFields, State.reg_setFld_ne _ _ (by simp) hne, State.reg_setFld_ne _ _ (by simp) hne]

/-- The run bit written: it reads as written, and its register alone has changed. -/
theorem State.setRunBit_eq (s : State) (k : Nat) (b : Bool) :
    ∃ r, s.setFld (Fld.HQ_Q_CTRL_run k) b.toNat = s.withRegs r ∧ (s.withRegs r).flag (Fld.HQ_Q_CTRL_run k) = b ∧
      RegsKept s (s.withRegs r) [Reg.HQ_Q_CTRL k] := by
  have honly : s.setFld (Fld.HQ_Q_CTRL_run k) b.toNat = s.withRegs (s.setFld (Fld.HQ_Q_CTRL_run k) b.toNat).regs :=
    s.setFld_regs_only _ _
  refine ⟨_, honly, ?_, ?_⟩
  · rw [← honly, State.flag, State.fld_setFld_same _ _ (by simp)]
    cases b
    · rfl
    · rfl
  · rw [← honly]
    exact (onlyMoved_setFld s _ (by simp)).kept

/-- A write of HQ_Q_CTRL that stops its queue writes that register alone, beside the schedule. -/
theorem State.haltQueue_queueFields (s : State) (k v : Nat) :
    ∃ r, (s.queueFields k v).haltQueue k = (s.withRegs r).setCtx k { s.ctx k with sched := false } ∧
      (s.withRegs r).flag (Fld.HQ_Q_CTRL_run k) = false ∧ RegsKept s (s.withRegs r) [Reg.HQ_Q_CTRL k] := by
  obtain ⟨r, hfields, hkept⟩ := s.queueFields_eq k v
  obtain ⟨r', hrun, hflag, hkept'⟩ := (s.withRegs r).setRunBit_eq k false
  refine ⟨r', ?_, hflag, fun a ha => (hkept' a ha).trans (hkept a ha)⟩
  rw [hfields]
  exact congrArg (fun m : State => m.setCtx k { s.ctx k with sched := false }) hrun

theorem State.writeQueueCtrl_of_holds {s : State} {k : Nat} (v : Nat) (h : s.holds k = true) :
    s.writeQueueCtrl k v =
      if bit v 1 then
        if bit v 0 then ((s.queueFields k v).haltQueue k).abortQueue k else (((s.queueFields k v).haltQueue k).abortQueue k).clearFault k
      else if !bit v 0 then ((s.queueFields k v).haltQueue k).clearFault k
      else if s.flag (Fld.HQ_Q_CTRL_run k) || ((s.queueFields k v).ctx k).phase == .stopped || ((s.queueFields k v).queue k).fault then
        s.queueFields k v
      else
        (if s.quiesced k then (s.queueFields k v).noteRestart k else s.queueFields k v).runQueue k
          (((s.queueFields k v).ctx k).scheduled ((s.queueFields k v).localNow ((s.queueFields k v).queDie k))) := by
  refine (if_neg ?_).trans rfl
  rw [h]
  decide

/-! ### QUEUE_STOP (R101) -/

section Control
variable {s : State} {who : Requester} {k value : Nat}

theorem queueStop_stops (hserved : s.served who 1 0x45 false = true) (hholds : s.holds k = true) :
    ∃ t : State, exec (.queueStop who k value) s = .next t ∧ t.flag (Fld.HQ_Q_CTRL_run k) = false ∧ (t.ctx k).sched = false ∧
      t.queue k = { s.queue k with fault := false } ∧ RegsKept s t [Reg.HQ_Q_CTRL k] ∧
      t = { s with regs := t.regs, ctxs := t.ctxs, queues := t.queues } := by
  have habort : bit (setBits value 0 2 0) 1 = false := (bit_setBits (by decide)).trans (by decide)
  have hstop : bit (setBits value 0 2 0) 0 = false := (bit_setBits (by decide)).trans (by decide)
  have hwrite := State.writeQueueCtrl_of_holds (setBits value 0 2 0) hholds
  obtain ⟨r, hhalt, hflag, hkept⟩ := s.haltQueue_queueFields k (setBits value 0 2 0)
  rw [habort, hstop, if_neg Bool.false_ne_true, if_pos (by decide), hhalt] at hwrite
  exact ⟨_, congrArg Host.Outcome.next ((State.busWrite_of_served _ hserved).trans hwrite), hflag,
    congrArg Ctx.sched ((s.withRegs r).ctx_setCtx_same k _), State.queue_setQueue_same .., hkept, rfl⟩

/-! ### QUEUE_RUN (R101, R257) -/

/-- The fusion engine after the queue of a context is run: that of a quiesced owner begins anew. -/
def State.fusionRun (s : State) (k : Nat) : FusionSt :=
  if s.quiesced k = true ∧ s.engineCtx 6 = some k then { s.fusion with restart := some s.now, run := none } else s.fusion

theorem State.restart_eq (s : State) (k : Nat) (r : Sparse Word) :
    ∃ r', (if s.quiesced k then (s.withRegs r).noteRestart k else s.withRegs r) =
        { s with regs := r', fusion := s.fusionRun k } ∧
      RegsKept (s.withRegs r) (s.withRegs r') [Reg.FUSN_STATUS] ∧ (s.quiesced k = false ∨ s.engineCtx 6 ≠ some k → r' = r) := by
  unfold State.fusionRun
  by_cases hanew : s.quiesced k = true ∧ s.engineCtx 6 = some k
  · obtain ⟨hquiesced, howner⟩ := hanew
    rw [if_pos hquiesced, if_pos ⟨hquiesced, howner⟩]
    refine ⟨((s.withRegs r).setFld Fld.FUSN_STATUS_busy 0).regs, (if_pos howner).trans (State.setFld_regs_only ..), ?_, ?_⟩
    · exact fun a ha => (s.withRegs r).reg_setFld_ne 0 (by decide) (by simpa using ha)
    · rintro (hnot | hnot)
      · rw [hquiesced] at hnot
        cases hnot
      · exact absurd howner hnot
  · refine ⟨r, ?_, fun _ _ => rfl, fun _ => rfl⟩
    rw [if_neg hanew]
    split
    · next hquiesced => exact if_neg fun howner => hanew ⟨hquiesced, howner⟩
    · rfl

theorem State.runQueue_eq (s : State) (k : Nat) (c : Ctx) :
    ∃ r, s.runQueue k c = ((s.withRegs r).setCtx k c).setQueue k { s.queue k with discard := false } ∧
      (s.withRegs r).flag (Fld.HQ_Q_CTRL_run k) = true ∧ RegsKept s (s.withRegs r) [Reg.HQ_Q_CTRL k] := by
  obtain ⟨r, hrun, hflag, hkept⟩ := s.setRunBit_eq k true
  exact ⟨r, congrArg (fun m : State => (m.setCtx k c).setQueue k { (m.setCtx k c).queue k with discard := false }) hrun, hflag, hkept⟩

theorem queueRun_runs (hserved : s.served who 1 0x45 false = true) (hholds : s.holds k = true)
    (hidle : s.flag (Fld.HQ_Q_CTRL_run k) = false) (hphase : (s.ctx k).phase ≠ .stopped) (hfault : (s.queue k).fault = false) :
    ∃ t : State, exec (.queueRun who k value) s = .next t ∧ t.flag (Fld.HQ_Q_CTRL_run k) = true ∧ (t.ctx k).sched = true ∧
      t.queue k = { s.queue k with discard := false } ∧ RegsKept s t [Reg.HQ_Q_CTRL k, Reg.FUSN_STATUS] ∧
      ((s.quiesced k = false ∨ s.engineCtx 6 ≠ some k) → RegsKept s t [Reg.HQ_Q_CTRL k]) ∧
      t = { s with regs := t.regs, ctxs := t.ctxs, queues := t.queues,
                   fusion := if s.quiesced k = true ∧ s.engineCtx 6 = some k then
                       { s.fusion with restart := some s.now, run := none } else s.fusion } := by
  have habort : bit (setBits value 0 2 1) 1 = false := (bit_setBits (by decide)).trans (by decide)
  have hrun : bit (setBits value 0 2 1) 0 = true := (bit_setBits (by decide)).trans (by decide)
  have hwrite := State.writeQueueCtrl_of_holds (setBits value 0 2 1) hholds
  obtain ⟨r, hfields, hkept⟩ := s.queueFields_eq k (setBits value 0 2 1)
  obtain ⟨r', hrestart, hkept', hsame⟩ := s.restart_eq k r
  have hstarts : ¬(s.flag (Fld.HQ_Q_CTRL_run k) || ((s.withRegs r).ctx k).phase == .stopped || ((s.withRegs r).queue k).fault) = true := by
    change ¬(s.flag (Fld.HQ_Q_CTRL_run k) || (s.ctx k).phase == .stopped || (s.queue k).fault) = true
    simp [hidle, hphase, hfault]
  rw [habort, hrun, if_neg Bool.false_ne_true, if_neg (by decide), hfields, if_neg hstarts, hrestart] at hwrite
  obtain ⟨r'', hruns, hflag, hkept''⟩ := State.runQueue_eq { s with regs := r', fusion := s.fusionRun k } k
    ((s.ctx k).scheduled ((s.withRegs r).localNow ((s.withRegs r).queDie k)))
  refine ⟨_, congrArg Host.Outcome.next ((State.busWrite_of_served _ hserved).trans (hwrite.trans hruns)), hflag,
    congrArg Ctx.sched (State.ctx_setCtx_same (s.withRegs r'') k _), State.queue_setQueue_same .., fun a ha => ?_,
    fun hnot a ha => ?_, rfl⟩
  · simp only [List.mem_cons, List.not_mem_nil, or_false, not_or] at ha
    exact (hkept'' a (by simpa using ha.1)).trans ((hkept' a (by simpa using ha.2)).trans (hkept a (by simpa using ha.1)))
  · exact (hkept'' a ha).trans (hsame hnot ▸ hkept a ha)

/-! ### QUEUE_ABORT (R101) -/

/-- The invocations of a context aborted: those that run get their status, and those fetched are done with it. -/
def State.abortedInvs (s : State) (k : Nat) : List Invocation :=
  s.invs.map (fun (i : Invocation) => if i.ctx = k ∧ i.done.isNone = true then { i with done := some 0x0B34 } else i) ++
    (s.queue k).fetched.map (fun (p : Nat × Bytes) => (⟨k, p.1, p.2, 0, false, false, some 0x0B34⟩ : Invocation))

/-- The second state is the first with the queue of a context aborted. -/
structure Aborted (s t : State) (k : Nat) : Prop where
  invs : t.invs = s.abortedInvs k
  kept : ∀ a, abortWrites a = false → t.reg a = s.reg a
  sched : (t.ctx k).sched = false
  fetched : (t.queue k).fetched = []

theorem State.abortQueue_aborted (s : State) (k : Nat) : Aborted s (s.abortQueue k) k := by
  unfold State.abortQueue
  extract_lets q live s1 s2 s3 c q1
  have hruns : AbortFrame s s1 := AbortFrame.abortRuns 0x0B34 _ s
  have hended : s2.invs = s.abortedInvs k := by
    unfold State.abortedInvs
    rw [← hruns.invs]
  have hsettles : AbortFrame s2 s3 := AbortFrame.kvSettle _ s2
  clear_value s3
  exact {
    invs := hsettles.invs.trans hended
    kept := fun a ha => (hsettles.kept a ha).trans (hruns.kept a ha)
    sched := congrArg Ctx.sched (s3.ctx_setCtx_same k _)
    fetched := congrArg Queue.fetched (State.queue_setQueue_same ..) }

theorem Aborted.clearFault {t : State} (h : Aborted s t k) : Aborted s (t.clearFault k) k where
  invs := h.invs
  kept := h.kept
  sched := h.sched
  fetched := (congrArg Queue.fetched (State.queue_setQueue_same ..)).trans h.fetched

theorem abortWrites_queue (hk : k < 64) : abortWrites (Reg.HQ_Q_CTRL k) = false := by
  have hblock : Reg.HQ_Q_CTRL k / 65536 % 256 = 0x45 := by
    simp only [Reg.HQ_Q_CTRL]
    omega
  rw [abortWrites, hblock]
  decide

theorem queueAbort_aborts (hk : k < 64) (hserved : s.served who 1 0x45 false = true) (hholds : s.holds k = true) :
    ∃ t : State, exec (.queueAbort who k value) s = .next t ∧ t.flag (Fld.HQ_Q_CTRL_run k) = false ∧ (t.ctx k).sched = false ∧
      (t.queue k).fetched = [] ∧ (∀ i ∈ t.invs, i.ctx = k → i.done ≠ none) ∧
      (∀ p ∈ (s.queue k).fetched, (⟨k, p.1, p.2, 0, false, false, some 0x0B34⟩ : Invocation) ∈ t.invs) := by
  have habort : bit (setBits value 1 1 1) 1 = true := (bit_setBits (by decide)).trans (by decide)
  have hwrite := State.writeQueueCtrl_of_holds (setBits value 1 1 1) hholds
  obtain ⟨r, hhalt, hflag, -⟩ := s.haltQueue_queueFields k (setBits value 1 1 1)
  rw [habort, if_pos rfl, hhalt] at hwrite
  generalize hm : (s.withRegs r).setCtx k { s.ctx k with sched := false } = m at hwrite
  have hflag : m.flag (Fld.HQ_Q_CTRL_run k) = false := hm ▸ hflag
  have hfetched : (m.queue k).fetched = (s.queue k).fetched := hm ▸ rfl
  obtain ⟨t, hwrite, haborted⟩ : ∃ t, s.writeQueueCtrl k (setBits value 1 1 1) = t ∧ Aborted m t k := by
    refine ⟨_, hwrite, ?_⟩
    split
    · exact m.abortQueue_aborted k
    · exact (m.abortQueue_aborted k).clearFault
  refine ⟨t, congrArg Host.Outcome.next ((State.busWrite_of_served _ hserved).trans hwrite), ?_, haborted.sched, haborted.fetched,
    fun i hi hctx => ?_, fun p hp => ?_⟩
  · have hfld := State.fld_of_reg (f := Fld.HQ_Q_CTRL_run k) (by simp) (haborted.kept _ (abortWrites_queue hk))
    rw [State.flag, hfld]
    exact hflag
  · rw [haborted.invs, State.abortedInvs, List.mem_append, List.mem_map, List.mem_map] at hi
    rcases hi with ⟨x, -, rfl⟩ | ⟨p, -, rfl⟩
    · split at hctx
      · next hopen => simp [hopen]
      · next hopen =>
        rw [if_neg hopen]
        exact fun hnone => hopen ⟨hctx, by rw [hnone]; rfl⟩
    · exact Option.some_ne_none _
  · rw [haborted.invs, State.abortedInvs, hfetched]
    exact List.mem_append_right _ (List.mem_map_of_mem hp)

end Control

/-! ### Faults on the rings (R101, R104) -/

section Fault
variable {s : State} {k : Nat}

/-- The registers of the queues lie above those of the events. -/
theorem queue_above (k : Nat) :
    Ev.HQ_EVT_STATUS_q_fault.status < Reg.HQ_Q_CTRL k ∧ Ev.HQ_EVT_STATUS_q_fault.counter < Reg.HQ_Q_CTRL k :=
  ⟨Nat.lt_add_right _ (by decide), Nat.lt_add_right _ (by decide)⟩

/-- A fault on a ring stops its queue with a code, and is counted. -/
theorem State.queueFault_effect (s : State) (k code : Nat) {t : State} (ht : t = s.queueFault k code) :
    t.queue k = { s.queue k with fault := true, code := code, discard := (s.queue k).discard || code == 0x0B21 } ∧
      t.flag (Fld.HQ_Q_CTRL_run k) = false ∧ Counted s t Ev.HQ_EVT_STATUS_q_fault ∧
      RegsKept s t (Reg.HQ_Q_CTRL k :: Ev.HQ_EVT_STATUS_q_fault.regs) ∧ (∀ j, j ≠ k → t.queue j = s.queue j) ∧
      t = { s with regs := t.regs, msix := t.msix, msixPending := t.msixPending, queues := t.queues } := by
  obtain ⟨hstatus, hcounter⟩ := queue_above k
  obtain ⟨r, hrun, hflag, hkept⟩ := s.setRunBit_eq k false
  obtain ⟨q, hq⟩ :
      ∃ q, q = { s.queue k with fault := true, code := code, discard := (s.queue k).discard || code == 0x0B21 } := ⟨_, rfl⟩
  have hfault : t = ((s.withRegs r).setQueue k q).hqEvent Ev.HQ_EVT_STATUS_q_fault := by
    rw [ht, hq]
    exact congrArg (fun m : State => (m.setQueue k _).hqEvent Ev.HQ_EVT_STATUS_q_fault) hrun
  obtain ⟨hcounted, honly, hkept'⟩ := hqEvent_effect _ (by decide) (by decide) hfault
  have hqueues : t.queues = ((s.withRegs r).setQueue k q).queues := (congrArg State.queues honly :)
  have hmoved : OnlyMoved ((s.withRegs r).setQueue k q) t Ev.HQ_EVT_STATUS_q_fault.regs := ⟨honly, hkept'⟩
  refine ⟨?_, ?_, hcounted.since (hkept _ (by simp [hcounter.ne])), fun a ha => ?_, fun j hj => ?_, ?_⟩
  · rw [State.queue_congr hqueues, State.queue_setQueue_same, hq]
  · rw [State.flag, hmoved.fld (by simp [Evt.regs, hstatus.ne', hcounter.ne']) (by simp)]
    exact hflag
  · rw [List.mem_cons, not_or] at ha
    exact (hkept' a ha.2).trans (hkept a (by simpa using ha.1))
  · rw [State.queue_congr hqueues, State.queue_setQueue_ne _ _ hj]
    rfl
  · rw [hqueues]
    exact honly

theorem sqFetchFault_stops (hholds : s.holds k = true) (hmore : (s.queue k).sqHead ≠ (s.queue k).sqTail)
    (hrun : s.flag (Fld.HQ_Q_CTRL_run k) = true) : exec (.sqFetchFault k) s = .next (s.queueFault k 0x0B20) :=
  congrArg Host.Outcome.next (if_pos (by simp [hholds, hmore, hrun]))

theorem cqWriteFault_stops (hholds : s.holds k = true) : exec (.cqWriteFault k) s = .next (s.queueFault k 0x0B21) :=
  congrArg Host.Outcome.next (if_pos hholds)

end Fault

/-- Settles O22: a write of HQ_Q_CTRL is taken apart by its bits abort and run (`State.writeQueueCtrl_of_holds`); the abort of a queue
keeps its register (`State.abortQueue_aborted`), and a fault on a ring stops its queue (`State.queueFault_effect`). -/
theorem queueControl : Obligations.QueueControl := by
  unfold Obligations.QueueControl
  refine ⟨fun who k value s _ => queueStop_stops, fun who k value s _ => queueRun_runs, fun who k value s => queueAbort_aborts,
    fun k s _ hholds hmore hrun => ?_, fun k s _ hholds => ?_⟩
  · obtain ⟨hqueue, hfault⟩ := s.queueFault_effect k 0x0B20 rfl
    exact ⟨_, sqFetchFault_stops hholds hmore hrun, congrArg Queue.fault hqueue, congrArg Queue.code hqueue, hfault⟩
  · obtain ⟨hqueue, hfault⟩ := s.queueFault_effect k 0x0B21 rfl
    exact ⟨_, cqWriteFault_stops hholds, congrArg Queue.fault hqueue, congrArg Queue.code hqueue,
      (congrArg Queue.discard hqueue).trans (Bool.or_true _), hfault⟩

end Sys2Proof.Machine
end

section
/-! What tile, stem and arg-max operations (chapter 06) write: the bytes of their outputs, and nothing else. -/

namespace Sys2Proof.Machine

/-! ### Writes that stay within some ranges -/

/-- The second state is the first but for physical memory, in which bytes outside the ranges listed are as they were. -/
structure WrittenIn (s t : State) (rs : List (Nat × Nat)) : Prop where
  only : t = { s with phys := t.phys }
  kept : ∀ p, (∀ y ∈ rs, p < y.1 ∨ y.1 + y.2 ≤ p) → t.byteAt p = s.byteAt p

namespace WrittenIn
variable {s t u : State} {rs : List (Nat × Nat)}

theorem refl (s : State) (rs : List (Nat × Nat)) : WrittenIn s s rs := ⟨rfl, fun _ _ => rfl⟩

theorem trans (hst : WrittenIn s t rs) (htu : WrittenIn t u rs) : WrittenIn s u rs :=
  ⟨htu.only.trans (congrArg (fun a : State => { a with phys := u.phys }) hst.only),
    fun p hp => (htu.kept p hp).trans (hst.kept p hp)⟩

/-- A byte string written within one of the ranges. -/
theorem writeDie {die x base n : Nat} {bs : Bytes} (s : State) (hr : (base, n) ∈ rs) (hlo : base ≤ dieLocal die x)
    (hhi : dieLocal die x + bs.length ≤ base + n) : WrittenIn s (s.writeDie die x bs) rs := by
  refine ⟨s.writePhys_phys_only bs _, fun p hp => ?_⟩
  have hout := hp _ hr
  rw [State.writeDie, State.byteAt_writePhys, if_neg (by omega)]

end WrittenIn

/-! ### Rows of a tensor (R109, R110) -/

theorem length_packRun (f : Format) (qs : List Int) : (packRun f qs).length = runBytes f qs.length := by
  simp [packRun, runBytes, List.length_flatten, Function.comp_def, length_leBytes]

theorem ceilDiv_mono {a b : Nat} (h : a ≤ b) (w : Nat) : ceilDiv a w ≤ ceilDiv b w :=
  Nat.div_le_div_right (by omega)

theorem runBytes_mono (f : Format) {a b : Nat} (h : a ≤ b) : runBytes f a ≤ runBytes f b :=
  Nat.mul_le_mul_right _ (ceilDiv_mono h _)

theorem le_alignUp {n : Nat} (hn : 0 < n) (v : Nat) : v ≤ alignUp n v := le_ceilDiv_mul v hn

/-- Where the bytes of a row end, with the zeros up to the next row's boundary. -/
def Tensor.rowEnd (t : Tensor) (row : Nat) : Nat :=
  if t.pixels = 0 then t.rowOff (row + 1)
  else if row % t.pixels + 1 = t.pixels then (row / t.pixels + 1) * alignUp 64 (t.pixels * runBytes t.fmt t.inner)
  else t.rowOff (row + 1)

theorem State.writeRow_eq (s : State) (t : Tensor) (row : Nat) (qs : List Int) :
    s.writeRow t row qs = s.writeDie t.die (t.addr + t.rowOff row)
      (packRun t.fmt qs ++ List.replicate (t.rowEnd row - t.rowOff row - (packRun t.fmt qs).length) 0) := rfl

theorem Tensor.rowOff_succ_of_inner (t : Tensor) {row : Nat} (hp : t.pixels ≠ 0) (h : row % t.pixels + 1 ≠ t.pixels) :
    t.rowOff (row + 1) = row / t.pixels * alignUp 64 (t.pixels * runBytes t.fmt t.inner) +
      (row % t.pixels + 1) * runBytes t.fmt t.inner := by
  have hpos := Nat.pos_of_ne_zero hp
  have hlt : row % t.pixels + 1 < t.pixels := by have := Nat.mod_lt row hpos; omega
  have hrow : row + 1 = row % t.pixels + 1 + t.pixels * (row / t.pixels) := by have := Nat.mod_add_div row t.pixels; omega
  have hdiv : (row + 1) / t.pixels = row / t.pixels := by rw [hrow, Nat.add_mul_div_left _ _ hpos, Nat.div_eq_of_lt hlt, Nat.zero_add]
  have hmod : (row + 1) % t.pixels = row % t.pixels + 1 := by rw [hrow, Nat.add_mul_mod_self_left, Nat.mod_eq_of_lt hlt]
  rw [Tensor.rowOff, if_neg hp, hdiv, hmod]

/-- A row holds the bytes of its elements. -/
theorem Tensor.rowOff_add_runBytes_le (t : Tensor) (row : Nat) : t.rowOff row + runBytes t.fmt t.inner ≤ t.rowEnd row := by
  unfold Tensor.rowEnd
  split
  · next hp =>
    rw [Tensor.rowOff, Tensor.rowOff, if_pos hp, if_pos hp, Nat.succ_mul]
    have := le_alignUp (by decide : 0 < 64) (runBytes t.fmt t.inner)
    omega
  · next hp =>
    split
    · next hlast =>
      have := le_alignUp (by decide : 0 < 64) (t.pixels * runBytes t.fmt t.inner)
      rw [Tensor.rowOff, if_neg hp, Nat.succ_mul, Nat.add_assoc, ← Nat.succ_mul, Nat.succ_eq_add_one, hlast]
      omega
    · next hin =>
      rw [t.rowOff_succ_of_inner hp hin, Tensor.rowOff, if_neg hp, Nat.succ_mul]
      omega

/-- A row ends within the tensor. -/
theorem Tensor.rowEnd_le_size (t : Tensor) {row n : Nat} (h : row < n) : t.rowEnd row ≤ t.size n := by
  unfold Tensor.rowEnd Tensor.size
  split
  · next hp =>
    rw [Tensor.rowOff, Tensor.rowOff, if_pos hp, if_pos hp]
    exact Nat.mul_le_mul_right _ h
  · next hp =>
    have hline : row / t.pixels + 1 ≤ ceilDiv n t.pixels := by
      rw [← Nat.add_div_right _ (Nat.pos_of_ne_zero hp)]
      exact Nat.div_le_div_right (by omega)
    have hsize := Nat.mul_le_mul_right (alignUp 64 (t.pixels * runBytes t.fmt t.inner)) hline
    split
    · exact hsize
    · next hin =>
      have hlt := Nat.mod_lt row (Nat.pos_of_ne_zero hp)
      have hpixels : (row % t.pixels + 1) * runBytes t.fmt t.inner ≤ t.pixels * runBytes t.fmt t.inner := Nat.mul_le_mul_right _ hlt
      have := le_alignUp (by decide : 0 < 64) (t.pixels * runBytes t.fmt t.inner)
      rw [t.rowOff_succ_of_inner hp hin]
      rw [Nat.succ_mul] at hsize
      omega

theorem dieLocal_add (die x y : Nat) : dieLocal die (x + y) = dieLocal die x + y := (Nat.add_assoc _ x y).symm

namespace WrittenIn
variable {rs : List (Nat × Nat)}

theorem writeRow (s : State) {t : Tensor} {row n : Nat} {qs : List Int} (hr : (dieLocal t.die t.addr, t.size n) ∈ rs)
    (hq : qs.length ≤ t.inner) (hrow : row < n) : WrittenIn s (s.writeRow t row qs) rs := by
  have hlen := runBytes_mono t.fmt hq
  have hin := t.rowOff_add_runBytes_le row
  have hend := t.rowEnd_le_size hrow
  rw [State.writeRow_eq]
  refine writeDie s hr (by rw [dieLocal_add]; omega) ?_
  rw [dieLocal_add, List.length_append, List.length_replicate, length_packRun]
  omega

theorem writeRows {t : Tensor} {n : Nat} (qss : List (List Int)) (s : State) (row : Nat)
    (hr : (dieLocal t.die t.addr, t.size n) ∈ rs) (hq : ∀ qs ∈ qss, qs.length ≤ t.inner) (hrow : row + qss.length ≤ n) :
    WrittenIn s (s.writeRows t row qss) rs := by
  induction qss generalizing s row with
  | nil => exact refl s rs
  | cons q qss ih =>
    rw [List.length_cons] at hrow
    exact (writeRow s hr (hq q List.mem_cons_self) (by omega)).trans
      (ih _ (row + 1) (fun qs h => hq qs (List.mem_cons_of_mem _ h)) (by omega))

theorem writeScales {die base n : Nat} (ws : List Scale) (s : State) (addr : Nat) (hr : (base, n) ∈ rs)
    (hlo : base ≤ dieLocal die addr) (hhi : dieLocal die addr + 2 * ws.length ≤ base + n) :
    WrittenIn s (s.writeScales die addr ws) rs := by
  induction ws generalizing s addr with
  | nil => exact refl s rs
  | cons w ws ih =>
    rw [List.length_cons] at hhi
    exact (writeDie s hr hlo (by rw [length_leBytes]; omega)).trans
      (ih _ (addr + 2) (by rw [dieLocal_add]; omega) (by rw [dieLocal_add]; omega))

theorem writeRecords {die base n : Nat} (recs : List Bytes) (s : State) (addr : Nat) (hr : (base, n) ∈ rs)
    (hlen : ∀ b ∈ recs, b.length = 8) (hlo : base ≤ dieLocal die addr)
    (hhi : dieLocal die addr + 8 * recs.length ≤ base + n) : WrittenIn s (s.writeRecords die addr recs) rs := by
  induction recs generalizing s addr with
  | nil => exact refl s rs
  | cons b recs ih =>
    have hb := hlen b List.mem_cons_self
    rw [List.length_cons] at hhi
    exact (writeDie s hr hlo (by omega)).trans
      (ih _ (addr + b.length) (fun x h => hlen x (List.mem_cons_of_mem _ h)) (by rw [dieLocal_add]; omega) (by rw [dieLocal_add]; omega))

end WrittenIn

/-! ### The rows that stage 5 leaves (R118) -/

theorem length_softmaxRow (f : Format) (fin fp : Nat) (xs : List (Option Int)) : (softmaxRow f fin fp xs).length = xs.length := by
  unfold softmaxRow
  split
  · exact List.length_map _
  · simp

theorem length_absmax (f : Format) (xs : List (Int × Int)) : (absmax f xs).qs.length ≤ xs.length := by
  unfold absmax
  extract_lets e0
  clear_value e0
  cases e0 with
  | none => exact Nat.zero_le _
  | some em =>
    dsimp only
    split
    · simp
    · simp

/-- The blocks of a row have no more elements than the row. -/
theorem sum_length_blocksOf {α : Type} (w : Nat) (xs : List α) : ((blocksOf w xs).map List.length).sum ≤ xs.length := by
  have hsum (c : Nat) : ((List.range c).map (fun b => ((xs.drop (b * w)).take w).length)).sum = min (c * w) xs.length := by
    induction c with
    | zero => simp
    | succ c ih =>
      rw [List.range_succ, List.map_append, List.sum_append, ih, Nat.succ_mul]
      simp only [List.map_cons, List.map_nil, List.sum_cons, List.sum_nil, List.length_take, List.length_drop]
      omega
  rw [blocksOf, List.map_map]
  exact (hsum _).trans_le (Nat.min_le_right _ _)

/-- No row of an output is longer than the rows that enter stage 5. -/
def OutData.rowsWithin (od : OutData) (n : Nat) : Prop := ∀ qs ∈ od.rows, qs.length ≤ n

section Stage
variable {n : Nat} {xss : List (List Elem)}

theorem outSoftmax_rowsWithin (f : Format) (g fp : Nat) (h : ∀ xs ∈ xss, xs.length = n) : (outSoftmax f g fp xss).rowsWithin n := by
  intro qs hqs
  simp only [outSoftmax, List.map_map, List.mem_map, Function.comp_apply] at hqs
  obtain ⟨xs, hxs, rfl⟩ := hqs
  simp [length_softmaxRow, h xs hxs]

theorem outDyn_rowsWithin (f : Format) (g : Nat) (h : ∀ xs ∈ xss, xs.length = n) : (outDyn f g xss).rowsWithin n := by
  have hhead : (xss.headD []).length ≤ n := by
    cases xss with
    | nil => exact Nat.zero_le _
    | cons xs _ => exact (h xs List.mem_cons_self).le
  have hquant (bs : List (List Elem)) :
      ((bs.map (fun b => absmax f (b.map (fun x => (x.a, x.e))))).map (·.qs)).flatten.length ≤ (bs.map List.length).sum := by
    rw [List.length_flatten, List.map_map, List.map_map]
    exact List.sum_le_sum fun b _ => (length_absmax f _).trans (List.length_map _).le
  intro qs hqs
  unfold outDyn at hqs
  extract_lets q r rs at hqs
  split at hqs
  · obtain ⟨i, -, rfl⟩ := List.mem_map.mp hqs
    exact (List.length_take_le _ _).trans hhead
  · obtain ⟨bs, hbs, rfl⟩ := List.mem_map.mp hqs
    obtain ⟨xs, hxs, rfl⟩ := List.mem_map.mp hbs
    refine (hquant _).trans ?_
    split
    · exact (sum_length_blocksOf _ xs).trans (h xs hxs).le
    · simp [h xs hxs]

theorem State.outRequant_rowsWithin (s : State) (die : Nat) (o : TileOp) (f : Format) (h : ∀ xs ∈ xss, xs.length = n) :
    (s.outRequant die o f xss).rowsWithin n := by
  intro qs hqs
  simp only [State.outRequant, List.map_map, List.mem_map, Function.comp_apply] at hqs
  obtain ⟨xs, hxs, rfl⟩ := hqs
  simp [h xs hxs]

theorem State.outStage_rowsWithin (s : State) (die : Nat) (o : TileOp) (f : Format) (h : ∀ xs ∈ xss, xs.length = n) :
    (s.outStage die o f xss).rowsWithin n := by
  unfold State.outStage
  split
  · exact outSoftmax_rowsWithin f _ _ h
  · split
    · exact outDyn_rowsWithin f _ h
    · exact s.outRequant_rowsWithin die o f h

end Stage

/-! ### Whole operations -/

/-- An operation's result writes within the output ranges that it names. -/
def OpResult.Within (x : OpResult) (s : State) : Prop := WrittenIn s x.state x.outs

theorem OpResult.within_stop (s : State) (code : Nat) : (OpResult.stop s code).Within s := WrittenIn.refl s []

/-- An operation that a condition stops writes within its ranges where the one that goes on does. -/
theorem OpResult.Within.stop_or {s : State} {x : OpResult} (h : x.Within s) (c : Prop) [Decidable c] (code : Nat) :
    (if c then OpResult.stop s code else x).Within s := by
  split
  · exact within_stop s code
  · exact h

theorem State.writeOut_within (s : State) {t : Tensor} {od : OutData} (h : od.rowsWithin t.inner) : (s.writeOut t od).Within s :=
  (WrittenIn.writeRows od.rows s 0 List.mem_cons_self h (Nat.zero_add _).le).trans
    (WrittenIn.writeScales od.scales _ t.sAddr (List.mem_cons_of_mem _ List.mem_cons_self) le_rfl le_rfl)

theorem length_argmaxRecord (xs : List (Int × Scale)) : (argmaxRecord xs).length = 8 := by
  unfold argmaxRecord
  extract_lets best
  clear_value best
  cases best with
  | none => rfl
  | some b => simp [length_leBytes]

theorem State.writeRecords_within (s : State) (die addr : Nat) {recs : List Bytes} (h : ∀ b ∈ recs, b.length = 8) (code : Nat)
    (sat : SatEvents) : OpResult.Within ⟨s.writeRecords die addr recs, code, sat, [(dieLocal die addr, 8 * recs.length)]⟩ s :=
  WrittenIn.writeRecords recs s addr List.mem_cons_self h le_rfl le_rfl

section Results
variable (s : State) (die : Nat) (args : Bytes) (o : TileOp)

theorem State.gemmResult_within : (s.gemmResult die args o).Within s := by
  unfold State.gemmResult
  split
  · extract_lets m a b ew xss
    have hrows : ∀ xs ∈ xss, xs.length = o.n := fun xs hxs => by
      obtain ⟨i, -, rfl⟩ := List.mem_map.mp hxs
      simp
    exact (((s.writeOut_within (s.outStage_rowsWithin die o _ hrows)).stop_or _ _).stop_or _ _).stop_or _ _
  · exact OpResult.within_stop s _

theorem State.ewResult_within : (s.ewResult die args o).Within s := by
  unfold State.ewResult
  split
  · extract_lets m a ew xss
    have hrows : ∀ xs ∈ xss, xs.length = o.n := fun xs hxs => by
      obtain ⟨i, -, rfl⟩ := List.mem_map.mp hxs
      simp
    exact (((s.writeOut_within (s.outStage_rowsWithin die o _ hrows)).stop_or _ _).stop_or _ _).stop_or _ _
  · exact OpResult.within_stop s _

theorem State.convResult_within : (s.convResult die o).Within s := by
  have hrows (fa fb fo : Format) : ∀ xs ∈ s.convElems die o fa fb fo, xs.length = o.n := fun xs hxs => by
    obtain ⟨i, -, rfl⟩ := List.mem_map.mp hxs
    simp
  unfold State.convResult
  split
  · extract_lets g wout
    exact (s.writeOut_within (s.outStage_rowsWithin die o _ (hrows _ _ _))).stop_or _ _
  · exact OpResult.within_stop s _

theorem State.stemArgmaxResult_within : (s.stemArgmaxResult die o).Within s := by
  unfold State.stemArgmaxResult
  split
  · extract_lets xss od scaleFor recs
    refine (s.writeRecords_within die o.outAddr (fun b hb => ?_) _ _).stop_or _ _
    obtain ⟨p, -, rfl⟩ := List.mem_map.mp hb
    exact length_argmaxRecord _
  · exact OpResult.within_stop s _

theorem State.argmaxResult_within : (s.argmaxResult die o).Within s := by
  unfold State.argmaxResult
  split
  · extract_lets hin win a recs
    refine s.writeRecords_within die o.outAddr (fun b hb => ?_) _ _
    obtain ⟨p, -, rfl⟩ := List.mem_map.mp hb
    exact length_argmaxRecord _
  · exact OpResult.within_stop s _

end Results

/-! ### Operations that write nothing (R114) -/

section Stops
variable {s : State} {die : Nat} {args : Bytes} {o : TileOp} {fa fb fo : Format}

theorem State.results_of_no_rows (hA : formatOf o.fmtA = some fa) (hB : formatOf o.fmtB = some fb) (hO : formatOf o.fmtOut = some fo)
    (hm : o.rows args = 0) : s.gemmResult die args o = OpResult.stop s 0 ∧ s.ewResult die args o = OpResult.stop s 0 := by
  constructor
  · simp [State.gemmResult, hA, hB, hO, hm]
  · simp [State.ewResult, hA, hO, hm]

theorem State.results_of_rows_above (hA : formatOf o.fmtA = some fa) (hB : formatOf o.fmtB = some fb) (hO : formatOf o.fmtOut = some fo)
    (hm : o.m < o.rows args) : s.gemmResult die args o = OpResult.stop s 0x0107 ∧ s.ewResult die args o = OpResult.stop s 0x0107 := by
  constructor
  · simp [State.gemmResult, hA, hB, hO, hm]
  · simp [State.ewResult, hA, hO, hm]

theorem State.rqOk_of_out_of_range {i : Nat} (hdyn : o.dyn = false) (hfunc : o.func ≠ 9) (hi : i < (if o.rqPerCh then o.n else 1))
    (ht : (s.rqEntry die o.rqAddr i).2 < -512 ∨ 511 < (s.rqEntry die o.rqAddr i).2) : s.rqOk die o = false := by
  have hrange : (List.range (if o.rqPerCh then o.n else 1)).all (fun i =>
      decide (-512 ≤ (s.rqEntry die o.rqAddr i).2) && decide ((s.rqEntry die o.rqAddr i).2 ≤ 511)) = false :=
    List.all_eq_false.mpr ⟨i, List.mem_range.mpr hi, by simp; omega⟩
  simpa [State.rqOk, hdyn, hfunc] using hrange

theorem State.results_of_rq_out_of_range (hA : formatOf o.fmtA = some fa) (hB : formatOf o.fmtB = some fb)
    (hO : formatOf o.fmtOut = some fo) (hle : o.rows args ≤ o.m) (hpos : 0 < o.rows args) (hrq : s.rqOk die o = false) :
    s.gemmResult die args o = OpResult.stop s 0x0107 ∧ s.ewResult die args o = OpResult.stop s 0x0107 ∧
      s.convResult die o = OpResult.stop s 0x0107 ∧ s.stemArgmaxResult die o = OpResult.stop s 0x0107 := by
  refine ⟨?_, ?_, ?_, ?_⟩
  · simp [State.gemmResult, hA, hB, hO, hrq, Nat.not_lt.mpr hle, hpos.ne']
  · simp [State.ewResult, hA, hO, hrq, Nat.not_lt.mpr hle, hpos.ne']
  · simp [State.convResult, hA, hB, hO, hrq]
  · simp [State.stemArgmaxResult, hA, hB, hO, hrq]

end Stops

/-- Settles O26: every result writes within the ranges that it names (`State.gemmResult_within` and its like), and one whose M or
requantisation exponents do not allow it is a stop (`State.results_of_…`). -/
theorem tileOutputs : Obligations.TileOutputs := by
  unfold Obligations.TileOutputs
  refine ⟨fun s die args o x p hx => ?_, fun _ _ _ _ _ _ _ => State.results_of_no_rows,
    fun _ _ _ _ _ _ _ => State.results_of_rows_above, fun _ _ _ _ _ _ _ _ hA hB hO hle hpos hdyn hfunc hi ht =>
      State.results_of_rq_out_of_range hA hB hO hle hpos (State.rqOk_of_out_of_range hdyn hfunc hi ht)⟩
  have hwithin : x.Within s := by
    simp only [List.mem_cons, List.not_mem_nil, or_false] at hx
    obtain rfl | rfl | rfl | rfl | rfl := hx
    · exact s.gemmResult_within die args o
    · exact s.convResult_within die o
    · exact s.ewResult_within die args o
    · exact s.stemArgmaxResult_within die o
    · exact s.argmaxResult_within die o
  exact hwithin.kept p

end Sys2Proof.Machine
end

section
/-! The statement about tile, stem and arg-max operations (chapter 06): how a run executes one, and how an uncorrectable error ends it. -/

namespace Sys2Proof.Machine

/-! ### The run that a command executes (R115) -/

theorem State.run?_of_startable {s : State} {run opcode : Nat} {r : Run} {d : Bytes} (h : s.startable run opcode = some (r, d)) :
    s.run? run = some r := by
  unfold State.startable at h
  split at h
  · cases h
  · next x hx =>
    split at h
    · cases h
    · split at h
      · cases h
      · split at h
        · cases h
          exact hx
        · cases h

theorem State.id_of_startable {s : State} {run opcode : Nat} {r : Run} {d : Bytes} (h : s.startable run opcode = some (r, d)) :
    r.id = run := State.id_of_run? (State.run?_of_startable h)

/-- A run that is put in its own place in a state with the runs of another is found there. -/
theorem State.run?_setRun_of_startable {s m : State} {run opcode : Nat} {r x : Run} {d : Bytes}
    (h : s.startable run opcode = some (r, d)) (hruns : m.runs = s.runs) (hid : x.id = r.id) : (m.setRun x).run? run = some x := by
  have hrun : m.run? x.id = some r := by
    rw [hid, State.id_of_startable h, State.run?, hruns]
    exact State.run?_of_startable h
  rw [← State.id_of_startable h, ← hid]
  exact State.run?_setRun_same hrun

section Commands
variable {s : State} {run opcode : Nat} {r : Run} {d : Bytes} {f : Run → TileOp → State → OpResult}

theorem State.doTileOp_of_free (ecc : Ecc) (hfree : s.tilesFree r = true) (h : s.startable run opcode = some (r, d)) :
    s.doTileOp run opcode ecc f = s.execOp r ecc (f r (tileOpOf d)) := by
  simp only [State.doTileOp, h, hfree, if_true]

theorem State.doTileOp_of_busy (ecc : Ecc) (hbusy : s.tilesFree r = false) (h : s.startable run opcode = some (r, d)) :
    s.doTileOp run opcode ecc f = s := by
  simp only [State.doTileOp, h, hbusy, Bool.false_eq_true, if_false]

theorem State.doEngineOp_of_free (ecc : Ecc) (hfree : s.engineFree r = true) (h : s.startable run opcode = some (r, d)) :
    s.doEngineOp run opcode ecc f = s.execOp r ecc (f r (tileOpOf d)) := by
  simp only [State.doEngineOp, h, hfree, if_true]

theorem State.doEngineOp_of_busy (ecc : Ecc) (hbusy : s.engineFree r = false) (h : s.startable run opcode = some (r, d)) :
    s.doEngineOp run opcode ecc f = s := by
  simp only [State.doEngineOp, h, hbusy, Bool.false_eq_true, if_false]

/-- An operation that meets no error leaves its result in memory and in its run. -/
theorem State.executed_execOp {g : State → OpResult} (h : s.startable run opcode = some (r, d)) (hwithin : (g s).Within s) :
    Executed s (s.execOp r .clean g) run r (g s) := by
  change Executed s ((g s).state.setRun (r.finishOp (g s).code (g s).sat r.die (g s).outs)) run r (g s)
  generalize g s = x at hwithin ⊢
  obtain ⟨m, code, sat, outs⟩ := x
  obtain ⟨phys, rfl⟩ : ∃ phys, m = { s with phys := phys } := ⟨_, hwithin.only⟩
  exact ⟨⟨_, State.run?_setRun_of_startable h rfl rfl, rfl, rfl, rfl, rfl, rfl, rfl, rfl, rfl, rfl⟩, rfl, rfl⟩

theorem State.executes_doTileOp (hfree : s.tilesFree r = true) (h : s.startable run opcode = some (r, d))
    (hwithin : (f r (tileOpOf d) s).Within s) :
    Executed s (s.doTileOp run opcode .clean f) run r (f r (tileOpOf d) s) := by
  rw [State.doTileOp_of_free .clean hfree h]
  exact State.executed_execOp h hwithin

theorem State.executes_doEngineOp (hfree : s.engineFree r = true) (h : s.startable run opcode = some (r, d))
    (hwithin : (f r (tileOpOf d) s).Within s) :
    Executed s (s.doEngineOp run opcode .clean f) run r (f r (tileOpOf d) s) := by
  rw [State.doEngineOp_of_free .clean hfree h]
  exact State.executed_execOp h hwithin

end Commands

/-! ### The output ranges depend on physical memory alone -/

section Congr
variable {s t : State} (h : t.phys = s.phys)
include h

theorem State.readDie_of_phys : t.readDie = s.readDie := by
  funext die x n
  simp only [State.readDie, State.readPhys, State.byteAt, h]

theorem State.tensorElem_of_phys : t.tensorElem = s.tensorElem := by
  funext x row col
  simp only [State.tensorElem, State.readDie_of_phys h]

theorem State.tensorWord_of_phys : t.tensorWord = s.tensorWord := by
  funext x row col
  simp only [State.tensorWord, State.readDie_of_phys h]

theorem State.tensorScale_of_phys : t.tensorScale = s.tensorScale := by
  funext x row col
  simp only [State.tensorScale, State.tensorWord_of_phys h]

theorem State.gemmElem_of_phys : t.gemmElem = s.gemmElem := by
  funext o a b i j
  simp only [State.gemmElem, State.weightElem, State.tensorElem_of_phys h, State.tensorScale_of_phys h]

theorem State.midStages_of_phys : t.midStages = s.midStages := by
  funext die o ew row col x
  simp only [State.midStages, State.readDie_of_phys h, State.tensorElem_of_phys h, State.tensorWord_of_phys h]

theorem State.rqEntry_of_phys : t.rqEntry = s.rqEntry := by
  funext die addr i
  simp only [State.rqEntry, State.readDie_of_phys h]

theorem State.outStage_of_phys : t.outStage = s.outStage := by
  funext die o f xss
  simp only [State.outStage, State.outRequant, State.rqScales, State.rqEntry_of_phys h, State.readDie_of_phys h]

theorem State.outs_gemmResult_of_phys (die : Nat) (args : Bytes) (o : TileOp) :
    (t.gemmResult die args o).outs = (s.gemmResult die args o).outs := by
  have hrq : t.rqOk die o = s.rqOk die o := by simp only [State.rqOk, State.rqEntry_of_phys h]
  simp only [State.gemmResult, hrq, State.gemmElem_of_phys h, State.midStages_of_phys h, State.outStage_of_phys h]
  split
  · split
    · rfl
    · split
      · rfl
      · split
        · rfl
        · rfl
  · rfl

end Congr

/-! ### An operation that an uncorrectable error ends (R108) -/

/-- A table reads the same with another value for unlisted keys that agrees at the key. -/
theorem Sparse.get_of_default_eq {α : Type} {d d' : Nat → α} {m : Sparse α} {k : Nat} (h : d k = d' k) :
    Sparse.get d m k = Sparse.get d' m k := by
  induction m with
  | nil => exact h
  | cons p m ih => simp only [Sparse.get, ih]

theorem State.byteAt_undefRange (s : State) {base n p : Nat} (h : p < base ∨ base + n ≤ p) :
    (s.undefRange base n).byteAt p = s.byteAt p := by
  have hout : Fill.covers ⟨base, n, s.freeCtr + 1⟩ p = false := by simp [Fill.covers]; omega
  exact (Sparse.get_filter _ (fun a => !Fill.covers ⟨base, n, s.freeCtr + 1⟩ a) s.phys.cells (by simp [hout])).trans
    (Sparse.get_of_default_eq (memDefault_fill hout))

theorem State.byteAt_undefRanges (rs : List (Nat × Nat)) (s : State) {p : Nat} (h : ∀ y ∈ rs, p < y.1 ∨ y.1 + y.2 ≤ p) :
    (s.undefRanges rs).byteAt p = s.byteAt p := by
  induction rs generalizing s with
  | nil => rfl
  | cons r rs ih =>
    obtain ⟨hr, hrs⟩ := List.forall_mem_cons.mp h
    exact (ih (s.undefRange r.1 r.2) hrs).trans (s.byteAt_undefRange hr)

/-- Where no vector is raised, the registers alone move. -/
theorem OnlyMoved.withRegs_eq {s t : State} {l : List Nat} (h : OnlyMoved s t l) (hmsix : t.msix = s.msix)
    (hpending : t.msixPending = s.msixPending) : t = s.withRegs t.regs := by
  refine h.only.trans ?_
  rw [hmsix, hpending]
  rfl

/-- An uncorrectable error in SRAM as the tiles note it: counted and described. -/
def State.sramError (s : State) (die tile line : Nat) : State :=
  (((s.event (Ev.TILE_EVT_STATUS_ecc_uncorr die)).setFld (Fld.TILE_ECC_LAST_tile die) tile).setFld (Fld.TILE_ECC_LAST_uncorr die) 1).setFld
    (Fld.TILE_ECC_LAST_line die) line

theorem onlyMoved_sramError (s : State) (die tile line : Nat) :
    OnlyMoved s (s.sramError die tile line) (Reg.TILE_ECC_LAST die :: (Ev.TILE_EVT_STATUS_ecc_uncorr die).regs) := by
  have hevent := onlyMoved_event s (Ev.TILE_EVT_STATUS_ecc_uncorr die)
  have htile := hevent.trans (onlyMoved_setFld _ (f := Fld.TILE_ECC_LAST_tile die) tile (by simp))
  have huncorr := htile.trans (onlyMoved_setFld _ (f := Fld.TILE_ECC_LAST_uncorr die) 1 (by simp))
  have hline := huncorr.trans (onlyMoved_setFld _ (f := Fld.TILE_ECC_LAST_line die) line (by simp))
  exact hline.mono (by simp)

theorem counted_sramError (s : State) (die tile line : Nat) :
    Counted s (s.sramError die tile line) (Ev.TILE_EVT_STATUS_ecc_uncorr die) := by
  have hother (a : Nat) (ha : a ≠ Reg.TILE_ECC_LAST die) :
      (s.sramError die tile line).reg a = (s.event (Ev.TILE_EVT_STATUS_ecc_uncorr die)).reg a := by
    rw [State.sramError, State.reg_setFld_ne _ _ (by simp) ha, State.reg_setFld_ne _ _ (by simp) ha, State.reg_setFld_ne _ _ (by simp) ha]
  obtain ⟨hbit, hcount⟩ := counted_event s (e := Ev.TILE_EVT_STATUS_ecc_uncorr die) (by simp [Ev.TILE_EVT_STATUS_ecc_uncorr])
    (by simp [Ev.TILE_EVT_STATUS_ecc_uncorr])
  unfold Counted
  rw [hother _ (by simp [Ev.TILE_EVT_STATUS_ecc_uncorr]), hother _ (by simp [Ev.TILE_EVT_STATUS_ecc_uncorr])]
  exact ⟨hbit, hcount⟩

/-- An error that ends an operation is reported to Crust; one in SRAM is described and counted too. -/
theorem State.eccCheck_of_error (s : State) (die : Nat) {ecc : Ecc} (hcorrected : ∀ tile line, ecc ≠ .corrected tile line)
    (hclean : ecc ≠ .clean) :
    ∃ regs, s.eccCheck die ecc = ((s.withRegs regs).report 0x0B 0, true) ∧
      RegsKept s (s.withRegs regs) (Reg.TILE_ECC_LAST die :: (Ev.TILE_EVT_STATUS_ecc_uncorr die).regs) ∧
      (∀ tile line, ecc = .uncorrectable tile line → Counted s (s.withRegs regs) (Ev.TILE_EVT_STATUS_ecc_uncorr die)) := by
  cases ecc with
  | clean => exact absurd rfl hclean
  | corrected tile line => exact absurd rfl (hcorrected tile line)
  | external => exact ⟨s.regs, rfl, fun _ _ => rfl, nofun⟩
  | uncorrectable tile line =>
    have hecc : s.eccCheck die (.uncorrectable tile line) = ((s.sramError die tile line).report 0x0B 0, true) := by
      simp only [State.eccCheck, State.sramError]
    have hmoved := onlyMoved_sramError s die tile line
    have honly := hmoved.withRegs_eq
      (by rw [State.sramError, State.setFld_msix, State.setFld_msix, State.setFld_msix, State.event_msix])
      (by rw [State.sramError, State.setFld_msixPending, State.setFld_msixPending, State.setFld_msixPending, State.event_msixPending])
    have hcounted := counted_sramError s die tile line
    generalize s.sramError die tile line = m at hecc hmoved honly hcounted
    obtain ⟨regs, rfl⟩ : ∃ regs, m = s.withRegs regs := ⟨_, honly⟩
    exact ⟨regs, hecc, hmoved.kept, fun _ _ _ => hcounted⟩

/-- A GEMM that an error ends (R108): its run ends with 0x0204, and its outputs are open. -/
theorem State.execOp_of_error {s : State} {run : Nat} {ecc : Ecc} {r : Run} {d : Bytes} {t : State}
    (h : s.startable run 0x01 = some (r, d)) (hcorrected : ∀ tile line, ecc ≠ .corrected tile line) (hclean : ecc ≠ .clean)
    (ht : t = s.execOp r ecc (fun a => a.gemmResult r.die r.args (tileOpOf d))) :
    (∃ r', t.run? run = some r' ∧ r'.executed = true ∧ r'.opCode = 0x0204 ∧ r'.outs = []) ∧
      (∀ tile line, ecc = .uncorrectable tile line → Counted s t (Ev.TILE_EVT_STATUS_ecc_uncorr r.die)) ∧
      t.crust = { s.crust with reports := s.crust.reports ++ [(0x0B, 0)] } ∧
      (∀ p, (∀ y ∈ (s.gemmResult r.die r.args (tileOpOf d)).outs, p < y.1 ∨ y.1 + y.2 ≤ p) → t.byteAt p = s.byteAt p) ∧
      t = { s with runs := t.runs, regs := t.regs, crust := t.crust, phys := t.phys, freeCtr := t.freeCtr } ∧
      RegsKept s t (Reg.TILE_ECC_LAST r.die :: (Ev.TILE_EVT_STATUS_ecc_uncorr r.die).regs) := by
  obtain ⟨regs, hecc, hkept, hcounted⟩ := s.eccCheck_of_error r.die hcorrected hclean
  let m := (s.withRegs regs).report 0x0B 0
  have houts : (m.gemmResult r.die r.args (tileOpOf d)).outs = (s.gemmResult r.die r.args (tileOpOf d)).outs :=
    State.outs_gemmResult_of_phys (by rfl) _ _ _
  have hbytes (p : Nat) (hp : ∀ y ∈ (s.gemmResult r.die r.args (tileOpOf d)).outs, p < y.1 ∨ y.1 + y.2 ≤ p) :=
    m.byteAt_undefRanges _ hp
  have honly := State.undefRanges_only (s.gemmResult r.die r.args (tileOpOf d)).outs m
  have hexec : t = (m.undefRanges (s.gemmResult r.die r.args (tileOpOf d)).outs).setRun (r.finishOp 0x0204 {} r.die []) := by
    rw [ht, ← houts]
    simp only [State.execOp, hecc, if_true, m]
  generalize m.undefRanges (s.gemmResult r.die r.args (tileOpOf d)).outs = u at hbytes honly hexec
  obtain ⟨phys, free, rfl⟩ : ∃ phys free, u = { m with phys := phys, freeCtr := free } := ⟨_, _, honly⟩
  subst hexec
  exact ⟨⟨_, State.run?_setRun_of_startable h rfl rfl, rfl, rfl, rfl⟩, hcounted, rfl, hbytes, rfl, hkept⟩

/-- Settles O25: an operation whose tiles or engine are free leaves its result in memory and in its run (`State.executes_doTileOp`,
`State.executes_doEngineOp`), since it writes within its output ranges; one that an error ends leaves them open
(`State.execOp_of_error`). -/
theorem tileOperations : Obligations.TileOperations := by
  unfold Obligations.TileOperations
  refine ⟨?gemm, ?conv, ?ew, ?stemFirst, ?stemLast, ?stemArgmax, ?argmax, ?failed, ?tilesBusy, ?engineBusy⟩
  case gemm => exact fun _ _ _ s hfree h =>
    ⟨_, rfl, State.executes_doTileOp (f := fun r o t => t.gemmResult r.die r.args o) hfree h (s.gemmResult_within ..)⟩
  case conv => exact fun _ _ _ s hfree h =>
    ⟨_, rfl, State.executes_doTileOp (f := fun r o t => t.convResult r.die o) hfree h (s.convResult_within ..)⟩
  case ew => exact fun _ _ _ s hfree h =>
    ⟨_, rfl, State.executes_doTileOp (f := fun r o t => t.ewResult r.die r.args o) hfree h (s.ewResult_within ..)⟩
  case stemFirst => exact fun _ _ _ s hfree h =>
    ⟨_, rfl, State.executes_doEngineOp (f := fun r o t => t.convResult r.die o) hfree h (s.convResult_within ..)⟩
  case stemLast => exact fun _ _ _ s hfree h =>
    ⟨_, rfl, State.executes_doEngineOp (f := fun r o t => t.convResult r.die o) hfree h (s.convResult_within ..)⟩
  case stemArgmax => exact fun _ _ _ s hfree h =>
    ⟨_, rfl, State.executes_doEngineOp (f := fun r o t => t.stemArgmaxResult r.die o) hfree h (s.stemArgmaxResult_within ..)⟩
  case argmax => exact fun _ _ _ s hfree h =>
    ⟨_, rfl, State.executes_doEngineOp (f := fun r o t => t.argmaxResult r.die o) hfree h (s.argmaxResult_within ..)⟩
  case failed => exact fun _ _ _ _ _ hfree h hcorrected hclean =>
    ⟨_, rfl, State.execOp_of_error h hcorrected hclean (State.doTileOp_of_free _ hfree h)⟩
  case tilesBusy => exact fun _ ecc _ _ _ hbusy h => congrArg Host.Outcome.next (State.doTileOp_of_busy ecc hbusy h)
  case engineBusy => exact fun _ ecc _ _ _ hbusy h => congrArg Host.Outcome.next (State.doEngineOp_of_busy ecc hbusy h)

end Sys2Proof.Machine
end

section
/-! The statement about speculation (chapter 07): the accepted prefix, what the verification of a batch entry changes, and how the
operation goes on and ends. -/

namespace Sys2Proof.Machine

/-! ### The accepted prefix (R132) -/

/-- The accepted count is the length of the longest common prefix. -/
theorem acceptedPrefix_longest (ys ts : List Nat) :
    acceptedPrefix ys ts ≤ ys.length ∧ acceptedPrefix ys ts ≤ ts.length ∧
      ys.take (acceptedPrefix ys ts) = ts.take (acceptedPrefix ys ts) ∧
      (∀ y t, ys[acceptedPrefix ys ts]? = some y → ts[acceptedPrefix ys ts]? = some t → y ≠ t) := by
  induction ys generalizing ts with
  | nil => simp [acceptedPrefix]
  | cons y ys ih =>
    cases ts with
    | nil => simp [acceptedPrefix]
    | cons t ts =>
      by_cases hyt : y = t
      · obtain ⟨hys, hts, htake, hnext⟩ := ih ts
        subst hyt
        simpa [acceptedPrefix, hys, hts, htake] using hnext
      · simp [acceptedPrefix, hyt]

/-! ### Memory of a die -/

/-- The bytes of a number that some bytes spell are those bytes. -/
theorem leBytes_leNat (bs : Bytes) : leBytes bs.length (leNat bs) = bs := by
  induction bs with
  | nil => rfl
  | cons b bs ih =>
    have hlt := b.isLt
    have hlow : BitVec.ofNat 8 (leNat (b :: bs)) = b := by
      apply BitVec.eq_of_toNat_eq
      rw [BitVec.toNat_ofNat, leNat]
      omega
    have hhigh : leNat (b :: bs) / 256 = leNat bs := by
      rw [leNat]
      omega
    rw [List.length_cons, leBytes, hlow, hhigh, ih]

theorem State.length_readDie (s : State) (die x n : Nat) : (s.readDie die x n).length = n := by
  simp [State.readDie, State.readPhys]

theorem State.readDie_writeDie_same (s : State) (die x : Nat) (bs : Bytes) : (s.writeDie die x bs).readDie die x bs.length = bs :=
  s.readPhys_writePhys bs _

/-- Bytes of a die that a write does not reach stay. -/
theorem State.readDie_writeDie_ne (s : State) {die x y n : Nat} (bs : Bytes) (h : y + n ≤ x ∨ x + bs.length ≤ y) :
    (s.writeDie die x bs).readDie die y n = s.readDie die y n := by
  refine List.map_congr_left fun i hi => ?_
  have hlt := List.mem_range.mp hi
  rw [State.writeDie, State.byteAt_writePhys, dieLocal, dieLocal, if_neg (by omega)]

/-! ### What the verification of an entry changes -/

/-- The second state is the first but for memory, the length table and its pages, and registers of the blocks KV of the Cache die and
SPEC of the Generation die. -/
structure VerifyFrame (s t : State) : Prop where
  only : t = { s with regs := t.regs, phys := t.phys, kv := t.kv, kvPages := t.kvPages, kvTouched := t.kvTouched, tlb := t.tlb }
  kept : BlocksKept s t [0x141, 0x260]

namespace VerifyFrame
variable {s t u : State}

theorem refl (s : State) : VerifyFrame s s := ⟨rfl, fun _ _ => rfl⟩

theorem trans (hst : VerifyFrame s t) (htu : VerifyFrame t u) : VerifyFrame s u :=
  ⟨htu.only.trans (congrArg (fun a : State => { a with
      regs := u.regs, phys := u.phys, kv := u.kv, kvPages := u.kvPages, kvTouched := u.kvTouched, tlb := u.tlb }) hst.only),
    fun a ha => (htu.kept a ha).trans (hst.kept a ha)⟩

theorem foldl {α : Type} {f : State → α → State} (hf : ∀ a x, VerifyFrame a (f a x)) (xs : List α) (s : State) :
    VerifyFrame s (xs.foldl f s) := by
  induction xs generalizing s with
  | nil => exact refl s
  | cons x xs ih => exact (hf s x).trans (ih _)

theorem writeDie (s : State) (die x : Nat) (bs : Bytes) : VerifyFrame s (s.writeDie die x bs) := by
  have honly := s.writePhys_phys_only bs (dieLocal die x)
  unfold State.writeDie
  generalize s.writePhys (dieLocal die x) bs = t at honly
  rw [honly]
  exact ⟨rfl, fun _ _ => rfl⟩

theorem count64 (s : State) {a : Nat} (n : Nat) (ha : a / 65536 ∈ [0x141, 0x260]) (ha' : (a + 4) / 65536 ∈ [0x141, 0x260]) :
    VerifyFrame s (s.count64 a n) :=
  ⟨rfl, fun _ hx => s.reg_setReg64_ne _ (fun h => hx (h ▸ ha)) (fun h => hx (h ▸ ha'))⟩

theorem event (s : State) {e : Evt} (hs : e.status / 65536 ∈ [0x141, 0x260]) (hc : e.counter / 65536 ∈ [0x141, 0x260]) :
    VerifyFrame s (s.event e) :=
  ⟨rfl, fun _ hx => s.reg_event_ne (fun h => hx (h ▸ hs)) (fun h => hx (h ▸ hc))⟩

theorem settled (s : State) (ctx q : Nat) : VerifyFrame s (s.settled ctx q) := by
  unfold State.settled
  split
  · exact refl s
  · exact ⟨rfl, fun _ _ => rfl⟩

theorem kvRollback (s : State) (q c : Nat) : VerifyFrame s (s.kvRollback q c) := by
  unfold State.kvRollback
  extract_lets e drop n s1 gone
  have hpages : VerifyFrame s { s1.tlbDrop gone with kvPages := s1.kvPages.filter (fun p => !drop p.1) } :=
    ⟨rfl, fun a _ => State.reg_congr rfl a⟩
  exact hpages.trans (count64 _ n (a := Reg.KV_PAGES_RECLAIMED) (by decide) (by decide))

theorem verifyEntry (s : State) (r : Run) (d : Bytes) (i : Nat) : VerifyFrame s (s.verifyEntry r d i) := by
  unfold State.verifyEntry
  extract_lets addr b flags q qs e k s1 ts a l' s1' dq dl s2 s3
  split
  · exact refl s
  · split
    · exact (writeDie s _ _ _).trans (event _ (by decide) (by decide))
    · split
      · have hs1 : VerifyFrame s s1 := foldl (fun a x => (kvRollback a _ _).trans (settled _ _ _)) qs s
        exact hs1.trans ((writeDie _ _ _ _).trans (event _ (by decide) (by decide)))
      · have hs1 : VerifyFrame s s1' := (kvRollback s q l').trans (settled _ _ _)
        have hs2 : VerifyFrame s s2 := by
          unfold s2
          split
          · exact hs1
          · exact hs1.trans (((kvRollback _ _ _).trans (settled _ _ _)).trans (writeDie _ _ _ _))
        have hs3 : VerifyFrame s s3 := hs2.trans ((writeDie _ _ _ _).trans (writeDie _ _ _ _))
        have hcounts := ((count64 s3 1 (a := Reg.SPEC_ROUNDS) (by decide) (by decide)).trans
          (count64 _ k (a := Reg.SPEC_PROPOSED) (by decide) (by decide))).trans
          (count64 _ a (a := Reg.SPEC_ACCEPTED) (by decide) (by decide))
        exact hs3.trans hcounts

theorem verifyEntries (r : Run) (d : Bytes) (is : List Nat) (s : State) : VerifyFrame s (s.verifyEntries r d is) := by
  induction is generalizing s with
  | nil => exact refl s
  | cons i is ih => exact (verifyEntry s r d i).trans (ih _)

end VerifyFrame

/-! ### A sequence rolled back and settled -/

theorem State.kvEntry_settled (s : State) (ctx q x : Nat) : (s.settled ctx q).kvEntry x = s.kvEntry x := by
  unfold State.settled
  split
  · rfl
  · rfl

theorem State.phys_settled (s : State) (ctx q : Nat) : (s.settled ctx q).phys = s.phys := by
  unfold State.settled
  split
  · rfl
  · rfl

theorem State.kvEntry_kvRollback_same (s : State) (q c : Nat) :
    (s.kvRollback q c).kvEntry q = { s.kvEntry q with committed := c, tentative := c } := s.kvEntry_setKv_same q _

theorem State.kv_writeDie (s : State) (die x : Nat) (bs : Bytes) : (s.writeDie die x bs).kv = s.kv :=
  (congrArg State.kv (s.writePhys_phys_only bs (dieLocal die x)) :)

/-! ### One entry (R132, R134) -/

section Entry
variable {r : Run} {d b : Bytes} {i : Nat} {s : State}

theorem State.verifyEntry_of_idle (hb : b = s.readDie r.die (fieldAt d 0x20 4 + 16 * i) 16)
    (hidle : bit (fieldAt b 0xE 1) 0 = false ∨ bit (fieldAt b 0xE 1) 3 = true) : s.verifyEntry r d i = s := by
  subst hb
  exact if_pos hidle

/-- An entry with a stale tag is marked as such, and counted. -/
theorem State.verifyEntry_of_stale (hb : b = s.readDie r.die (fieldAt d 0x20 4 + 16 * i) 16) (hactive : bit (fieldAt b 0xE 1) 0 = true)
    (hpending : bit (fieldAt b 0xE 1) 3 = false) (hstale : s.seqCurrent (fieldAt b 0 2) (fieldAt b 2 2) = false) :
    s.verifyEntry r d i = (s.writeDie r.die (fieldAt d 0x20 4 + 16 * i + 0xE) (leBytes 1 (setBits (fieldAt b 0xE 1) 0 2 2))).event
      Ev.SPEC_EVT_STATUS_stale := by
  have hround : ¬(bit (fieldAt b 0xE 1) 0 = false ∨ bit (fieldAt b 0xE 1) 3 = true) := by simp [hactive, hpending]
  have hany : (putSeqs b).any (fun x => !s.seqCurrent x.1 x.2) = true := by simp [putSeqs, hstale]
  subst hb
  exact (if_neg hround).trans (if_pos hany)

/-- The state that an entry without a draft sequence leaves with `a` tokens accepted, up to the counters: the sequence at its new
length, the token that follows pending, and the count. -/
def State.accepted (s : State) (r : Run) (d b : Bytes) (i a : Nat) : State :=
  let addr := fieldAt d 0x20 4 + 16 * i
  let q := fieldAt b 0 2
  let ts := s.tokens r.die (fieldAt d 0x2C 4 + 64 * i) (fieldAt b 0xC 1 + 1)
  ((((s.kvRollback q ((s.kvEntry q).committed + a + 1)).settled r.ctx q).writeDie r.die (addr + 8) (leBytes 4 (ts.getD a 0))).writeDie r.die
    (addr + 0xD) (leBytes 1 a))

theorem State.verifyEntry_of_accepted {a : Nat} (hb : b = s.readDie r.die (fieldAt d 0x20 4 + 16 * i) 16)
    (hactive : bit (fieldAt b 0xE 1) 0 = true) (hpending : bit (fieldAt b 0xE 1) 3 = false) (hdraft : fieldAt b 4 2 = 0xFFFF)
    (hcurrent : s.seqCurrent (fieldAt b 0 2) (fieldAt b 2 2) = true)
    (hlen : (s.kvEntry (fieldAt b 0 2)).tentative = (s.kvEntry (fieldAt b 0 2)).committed + fieldAt b 0xC 1 + 1)
    (ha : a = acceptedPrefix (s.tokens r.die (fieldAt d 0x28 4 + 32 * i) (fieldAt b 0xC 1))
      (s.tokens r.die (fieldAt d 0x2C 4 + 64 * i) (fieldAt b 0xC 1 + 1))) :
    s.verifyEntry r d i = (((s.accepted r d b i a).count64 Reg.SPEC_ROUNDS 1).count64 Reg.SPEC_PROPOSED (fieldAt b 0xC 1)).count64
      Reg.SPEC_ACCEPTED a := by
  have hround : ¬(bit (fieldAt b 0xE 1) 0 = false ∨ bit (fieldAt b 0xE 1) 3 = true) := by simp [hactive, hpending]
  have hany : ¬(putSeqs b).any (fun x => !s.seqCurrent x.1 x.2) = true := by simp [putSeqs, hdraft, hcurrent]
  subst hb ha
  refine (if_neg hround).trans ((if_neg hany).trans ((if_neg (not_not_intro hlen)).trans ?_))
  simp only [hdraft, if_true, State.accepted]

/-- A token of a table, as the four bytes that stand there. -/
theorem State.leBytes_token (s : State) (die addr : Nat) {n a : Nat} (h : a < n) :
    leBytes 4 ((s.tokens die addr n).getD a 0) = s.readDie die (addr + 4 * a) 4 := by
  have htoken : (s.tokens die addr n).getD a 0 = leNat (s.readDie die (addr + 4 * a) 4) := by simp [State.tokens, h]
  have hbytes := leBytes_leNat (s.readDie die (addr + 4 * a) 4)
  rwa [State.length_readDie, ← htoken] at hbytes

theorem State.accepted_effect {a : Nat} (ha : a ≤ fieldAt b 0xC 1) {t : State} (hkv : t.kv = (s.accepted r d b i a).kv)
    (hphys : t.phys = (s.accepted r d b i a).phys) :
    (t.kvEntry (fieldAt b 0 2)).committed = (s.kvEntry (fieldAt b 0 2)).committed + a + 1 ∧
      (t.kvEntry (fieldAt b 0 2)).tentative = (s.kvEntry (fieldAt b 0 2)).committed + a + 1 ∧
      (∀ q, q ≠ fieldAt b 0 2 → t.kvEntry q = s.kvEntry q) ∧
      t.readDie r.die (fieldAt d 0x20 4 + 16 * i + 8) 4 = s.readDie r.die (fieldAt d 0x2C 4 + 64 * i + 4 * a) 4 ∧
      t.readDie r.die (fieldAt d 0x20 4 + 16 * i + 0xD) 1 = leBytes 1 a := by
  have hentry (x : Nat) : t.kvEntry x = (s.kvRollback (fieldAt b 0 2) ((s.kvEntry (fieldAt b 0 2)).committed + a + 1)).kvEntry x := by
    rw [State.kvEntry, hkv, State.accepted, State.kv_writeDie, State.kv_writeDie]
    exact State.kvEntry_settled _ _ _ x
  have htoken := s.leBytes_token r.die (fieldAt d 0x2C 4 + 64 * i) (Nat.lt_succ_of_le ha)
  refine ⟨?_, ?_, fun q hq => ?_, ?_, ?_⟩
  · rw [hentry, State.kvEntry_kvRollback_same]
  · rw [hentry, State.kvEntry_kvRollback_same]
  · rw [hentry, State.kvEntry_kvRollback_ne _ _ hq]
  · rw [State.readDie_of_phys hphys, State.accepted, State.readDie_writeDie_ne _ _ (.inl (by omega)), htoken]
    have hsame := State.readDie_writeDie_same ((s.kvRollback (fieldAt b 0 2) ((s.kvEntry (fieldAt b 0 2)).committed + a + 1)).settled r.ctx
      (fieldAt b 0 2)) r.die (fieldAt d 0x20 4 + 16 * i + 8) (s.readDie r.die (fieldAt d 0x2C 4 + 64 * i + 4 * a) 4)
    rwa [State.length_readDie] at hsame
  · rw [State.readDie_of_phys hphys]
    exact State.readDie_writeDie_same _ _ _ (leBytes 1 a)

end Entry

/-! ### The operation (R108, R134) -/

section Operation
variable {run n m : Nat} {r : Run} {d : Bytes} {s : State}

theorem exec_specVerify_of_clean (h : s.startable run 0x42 = some (r, d)) (hm : m = min n (fieldAt d 0x24 2 - r.progress)) :
    exec (.specVerify (run, n, .clean)) s = .next ((s.verifyEntries r d ((List.range m).map (r.progress + ·))).setRun
      (if r.progress + m < fieldAt d 0x24 2 then { r with progress := r.progress + m } else r.finishOp 0 {} r.die [])) := by
  change execSpecVerify (run, n, .clean) s = _
  simp only [execSpecVerify, h, State.eccCheck, Bool.false_eq_true, if_false, hm]

theorem exec_specVerify_of_error (h : s.startable run 0x42 = some (r, d)) :
    exec (.specVerify (run, n, .external)) s = .next ((s.report 0x0B 0).setRun (r.finishOp 0x0204 {} r.die [])) := by
  change execSpecVerify (run, n, .external) s = _
  simp only [execSpecVerify, h, State.eccCheck, if_true]

theorem specVerify_handles (h : s.startable run 0x42 = some (r, d)) (hm : m = min n (fieldAt d 0x24 2 - r.progress)) :
    ∃ t, exec (.specVerify (run, n, .clean)) s = .next t ∧
      (r.progress + m < fieldAt d 0x24 2 → t.run? run = some { r with progress := r.progress + m }) ∧
      (fieldAt d 0x24 2 ≤ r.progress + m → ∃ r', t.run? run = some r' ∧ r'.executed = true ∧ r'.opCode = 0) ∧
      t.kv = (s.verifyEntries r d ((List.range m).map (r.progress + ·))).kv ∧
      t.phys = (s.verifyEntries r d ((List.range m).map (r.progress + ·))).phys ∧ BlocksKept s t [0x141, 0x260] ∧
      t = { s with regs := t.regs, phys := t.phys, runs := t.runs, kv := t.kv, kvPages := t.kvPages, kvTouched := t.kvTouched,
                   tlb := t.tlb } := by
  have hexec := exec_specVerify_of_clean h hm
  obtain ⟨honly, hkept⟩ := VerifyFrame.verifyEntries r d ((List.range m).map (r.progress + ·)) s
  generalize s.verifyEntries r d ((List.range m).map (r.progress + ·)) = u at hexec honly hkept
  have hruns : u.runs = s.runs := (congrArg State.runs honly :)
  refine ⟨_, hexec, fun hmore => ?_, fun hend => ?_, rfl, rfl, hkept, ?_⟩
  · rw [if_pos hmore]
    exact State.run?_setRun_of_startable h hruns rfl
  · rw [if_neg (Nat.not_lt.mpr hend)]
    exact ⟨_, State.run?_setRun_of_startable h hruns rfl, rfl, rfl⟩
  · rw [honly]
    rfl

end Operation

/-- Settles O30: a command verifies its entries one after the other (`specVerify_handles`), each of which moves what its case says
(`State.verifyEntry_of_accepted`, `State.verifyEntry_of_idle`, `State.verifyEntry_of_stale`), with the longest common prefix accepted
(`acceptedPrefix_longest`). -/
theorem speculation : Obligations.Speculation := by
  unfold Obligations.Speculation
  refine ⟨fun _ _ _ _ _ _ => specVerify_handles, fun _ _ _ _ s h => ?_, acceptedPrefix_longest,
    fun r d b i a s hb hactive hpending hdraft hcurrent hlen ha => ?_, fun _ _ _ _ _ => State.verifyEntry_of_idle,
    fun r d b i s hb hactive hpending hstale => ?_⟩
  · exact ⟨_, exec_specVerify_of_error h, ⟨_, State.run?_setRun_of_startable (m := s.report 0x0B 0) h rfl rfl, rfl, rfl⟩, rfl, rfl⟩
  · have hle : a ≤ fieldAt b 0xC 1 := by
      have := (acceptedPrefix_longest (s.tokens r.die (fieldAt d 0x28 4 + 32 * i) (fieldAt b 0xC 1))
        (s.tokens r.die (fieldAt d 0x2C 4 + 64 * i) (fieldAt b 0xC 1 + 1))).1
      rwa [← ha, State.tokens, List.length_map, List.length_range] at this
    rw [State.verifyEntry_of_accepted hb hactive hpending hdraft hcurrent hlen ha]
    exact State.accepted_effect hle (by rw [State.count64_kv, State.count64_kv, State.count64_kv])
      (by rw [State.count64_phys, State.count64_phys, State.count64_phys])
  · rw [State.verifyEntry_of_stale hb hactive hpending hstale]
    exact ⟨s.kv_writeDie _ _ _, (counted_event _ (by decide) (by decide)).since
      (State.reg_congr (congrArg State.regs (s.writePhys_phys_only _ _) :) _), State.readDie_writeDie_same s _ _ (leBytes 1 _)⟩

end Sys2Proof.Machine
end

section
/-! A module in which one run stands at one operation, for statements that a concrete state refutes. -/

namespace Sys2Proof.Machine

/-- A run of programme 7 of context 5 on a die, at its first operation. -/
def loneRun (die : Nat) (args : Bytes) (ready : Bool) : Run :=
  { id := 0, ctx := 5, die := die, prog := 7, op := 0, unit := 0, args := args, origin := .invocation 0, start := 0, executed := false
    opCode := 0, sat := {}, satDie := die, outs := [], codes := [], recs := [], prefetches := [], waitEnd := none, substitute := none
    putReady := ready, progress := 0, done := none }

/-- A layout whose programme 7 is one operation, with further sections. -/
def loneLayout (op : Bytes) (more : List Section) : Layout := ⟨0, ⟨4, [[0, 0, 7, 0, 0, 0, 0, 0, 64]], op⟩ :: more⟩

/-- The state after reset with that layout active and that run. -/
def loneState (op : Bytes) (more : List Section) (r : Run) : State :=
  { State.reset with layout := some (loneLayout op more), runs := [r] }

end Sys2Proof.Machine
end

section
/-! The statement about handoffs (chapter 07), which the publication of a sequence that its invocation has touched refutes. -/

namespace Sys2Proof.Machine

/-! ### HANDOFF_PUT_PUBLISH (R128) -/

section Publish
variable {run k : Nat} {r : Run} {d : Bytes} {l : Layout} {m s : State}

theorem State.syncValue_of_object {i : Nat} (hlayout : s.layout = some l) (hobj : l.syncObj i = some k) : s.syncValue i = s.sync k := by
  simp [State.syncValue, hlayout, hobj]

/-- With room in the ring and its record written, a put signals its sync object and leaves its sequences settled. -/
theorem exec_handoffPutPublish_of_room (h : s.startable run 0x40 = some (r, d)) (hlayout : s.layout = some l)
    (hready : r.putReady = true) (hobj : l.syncObj (fieldAt d 0x10 2) = some k)
    (hroom : s.sync k - s.syncValue (fieldAt d 0x12 2) < fieldAt d 2 2)
    (hwrite : (s.moveRight (fieldAt d 1 1) (putSeqs (putArgs r d))).writeVa (.engine r.die) .engineWrite r.ctx
      (fieldAt d 8 8 + s.sync k % fieldAt d 2 2 * 64) (handoffRecord r.ctx (fieldAt d 1 1) (putArgs r d)
        (s.kvEntry (fieldAt (putArgs r d) 0 2)).committed (fieldAt d 0x18 8) (fieldAt d 0x14 4) (s.sync k)) = .ok m) :
    exec (.handoffPutPublish run) s = .next (((putSeqs (putArgs r d)).foldl (fun (a : State) x => a.settled r.ctx x.1)
      (m.signal k 1)).setRun (r.finishOp 0 {} r.die [])) := by
  change execHandoffPutPublish run s = _
  have hput := State.syncValue_of_object hlayout hobj
  simp only [execHandoffPutPublish, h, hlayout, hready, hput, Nat.not_le.mpr hroom, hwrite, hobj, Option.elim_some, Bool.true_eq_false,
    or_self, if_false]

@[simp] theorem State.moveRight_kvTouched (dst : Nat) (qs : List (Nat × Nat)) (s : State) :
    (s.moveRight dst qs).kvTouched = s.kvTouched := by
  induction qs generalizing s with
  | nil => rfl
  | cons q qs ih => exact ih _

@[simp] theorem State.signal_kvTouched (n : Nat) : (s.signal k n).kvTouched = s.kvTouched := by
  unfold State.signal
  split <;> simp

@[simp] theorem State.signal_kv (n : Nat) : (s.signal k n).kv = s.kv := by
  unfold State.signal
  split <;> simp

/-- A sequence without an open group is none that its context has still to settle. -/
theorem State.not_mem_kvTouched_settled {x : KvTouch} (hclosed : (s.kvEntry x.seq).groupOpen = false) :
    x ∉ (s.settled x.ctx x.seq).kvTouched := by
  simp [State.settled, hclosed]

end Publish

/-- HANDOFF_PUT to context 6 over a ring of four records at address 0, with sync IDs 3 and 4. -/
def putOp : Bytes := [0x40, 6, 4, 0, 0, 0, 0, 0, 0, 0, 0, 0, 0, 0, 0, 0, 3, 0, 4, 0]

/-- Sync ID 3: object 0 of the Cache die, from a share of context 5. -/
def putSections : List Section := [⟨2, [[5, 1, 4, 0, 0, 0, 0, 0, 8]], []⟩, ⟨0x10, [[5, 1, 3]], []⟩]

/-- Context 5 hands over sequence 9, to which its invocation has appended: the put waits to be published. -/
def putState : State :=
  { (loneState putOp putSections (loneRun 2 [9, 0, 1, 0, 0xFF, 0xFF] true)).setKv 9 { holder := 5, owner := 5, valid := true } with
    maps := [⟨5, 0, 65536, 1, 0, 0, [(0, 65536)], 0⟩], kvTouched := [⟨5, some 0, 9⟩] }

/-- Refutes O29: its clause for a publication says that the state after it is the one in which the record has been written but for the
runs, the sync objects and the length table. In `putState` the invocation of context 5 has appended to the sequence that it hands over,
whose group is closed; the publication takes the sequence out of the list that the invocation settles at its end (R145), which the clause
leaves unchanged. -/
theorem not_handoff : ¬ Obligations.Handoff := by
  unfold Obligations.Handoff
  rintro ⟨-, -, hpublish, -⟩
  have hstart : putState.startable 0 0x40 = some (loneRun 2 [9, 0, 1, 0, 0xFF, 0xFF] true, slice putOp 0 64) := by decide +kernel
  have hobj : (loneLayout putOp putSections).syncObj (fieldAt (slice putOp 0 64) 0x10 2) = some 4096 := by decide +kernel
  have hroom : putState.sync 4096 - putState.syncValue (fieldAt (slice putOp 0 64) 0x12 2) < fieldAt (slice putOp 0 64) 2 2 := by
    decide +kernel
  have hsync : putState.sync 4096 + 1 < 2 ^ 64 := by decide +kernel
  have hwritable : ((putState.moveRight 6 [(9, 1)]).writeVa (.engine 2) .engineWrite 5 0
      (handoffRecord 5 6 (putArgs (loneRun 2 [9, 0, 1, 0, 0xFF, 0xFF] true) (slice putOp 0 64)) 0 0 0 0)).isOk = true := by
    decide +kernel
  cases hwrite : (putState.moveRight 6 [(9, 1)]).writeVa (.engine 2) .engineWrite 5 0
      (handoffRecord 5 6 (putArgs (loneRun 2 [9, 0, 1, 0, 0xFF, 0xFF] true) (slice putOp 0 64)) 0 0 0 0) with
  | error e =>
    rw [hwrite] at hwritable
    exact Bool.false_ne_true hwritable
  | ok m =>
    obtain ⟨t, hexec, -, -, -, -, -, -, honly⟩ := hpublish 0 4096 _ _ _ m putState hstart rfl rfl hobj hsync hroom hwrite
    rw [exec_handoffPutPublish_of_room hstart rfl rfl hobj hroom hwrite] at hexec
    injection hexec with ht
    have htouched : t.kvTouched = putState.kvTouched := (congrArg State.kvTouched honly).trans
      ((congrArg State.kvTouched (State.writeVa_only hwrite) :).trans (State.moveRight_kvTouched 6 [(9, 1)] putState))
    have hkv : m.kv = (putState.moveRight 6 [(9, 1)]).kv := (congrArg State.kv (State.writeVa_only hwrite) :)
    have hclosed : ((m.signal 4096 1).kvEntry 9).groupOpen = false := by
      simp only [State.kvEntry, State.signal_kv, hkv]
      rfl
    have hsettled : t.kvTouched = ((m.signal 4096 1).settled 5 9).kvTouched := (congrArg State.kvTouched ht).symm
    have hmem : (⟨5, some 0, 9⟩ : KvTouch) ∈ ((m.signal 4096 1).settled 5 9).kvTouched := by
      rw [← hsettled, htouched]
      exact List.mem_singleton.mpr rfl
    exact State.not_mem_kvTouched_settled hclosed hmem

end Sys2Proof.Machine
end

section
/-! The statement about solver operations (chapter 17), which a set-up index that no layout has refutes. -/

namespace Sys2Proof.Machine

/-! ### What the end of a solve moves (R313 to R315) -/

section SolverEnd
variable {s : State} {r : Run} {a : SolvRun}

theorem CountsIn.setFld (s : State) {f : Fld} (v : Nat) {b : Nat} (ha : f.addr / 65536 = b) (ha' : (f.addr + 4) / 65536 = b) :
    CountsIn s (s.setFld f v) [b] := by
  unfold State.setFld
  split
  · exact setReg s _ ha
  · exact setReg64 s _ ha ha'

theorem CountsIn.eventIf (s : State) (c : Bool) {e : Evt} {b : Nat} (hs : e.status / 65536 = b) (hc : e.counter / 65536 = b) :
    CountsIn s (s.eventIf c e) [b] := by
  cases c with
  | true => exact (setReg s _ hs).trans (setReg _ _ hc)
  | false => exact refl s _

theorem CountsIn.eventAdd (s : State) (n : Nat) {e : Evt} {b : Nat} (hs : e.status / 65536 = b) (hc : e.counter / 65536 = b) :
    CountsIn s (s.eventAdd e n) [b] := by
  unfold State.eventAdd
  split
  · exact refl s _
  · exact (setReg s _ hs).trans (setReg _ _ hc)

/-- The registers of a completed solve lie in the solver's block. -/
theorem State.countsIn_solvLast (s : State) (k code iters : Nat) : CountsIn s (s.solvLast k code iters) [0x2A] := by
  have hiterations := CountsIn.setFld s (f := Fld.SOLV_LAST_iterations) (b := 0x2A) iters (by decide) (by decide)
  have hsetup := hiterations.trans (CountsIn.setFld _ (f := Fld.SOLV_LAST_setup) k (by decide) (by decide))
  have hcode := hsetup.trans (CountsIn.setFld _ (f := Fld.SOLV_LAST_code) code (by decide) (by decide))
  exact hcode.trans (CountsIn.setFld _ (f := Fld.SOLV_STATUS_setup) k (by decide) (by decide))

/-- The events of a solve lie in the solver's block. -/
theorem State.countsIn_solvEvents (s : State) (o : SolvResult) : CountsIn s (s.solvEvents o) [0x2A] := by
  have hrange := CountsIn.eventAdd s (e := Ev.SOLV_EVT_STATUS_range) (b := 0x2A) o.ranges (by decide) (by decide)
  have hpivot := hrange.trans (CountsIn.eventAdd _ (e := Ev.SOLV_EVT_STATUS_pivot_floor) o.pivots (by decide) (by decide))
  have hdegraded := hpivot.trans (CountsIn.eventIf _ o.overflow (e := Ev.SOLV_EVT_STATUS_degraded) (by decide) (by decide))
  have hlate := hdegraded.trans (CountsIn.eventIf _ o.late (e := Ev.SOLV_EVT_STATUS_deadline) (by decide) (by decide))
  have hbreakdown := hlate.trans (CountsIn.eventIf _ (o.code == 0x0605) (e := Ev.SOLV_EVT_STATUS_breakdown) (by decide) (by decide))
  exact hbreakdown.trans (CountsIn.eventIf _ _ (e := Ev.SOLV_EVT_STATUS_fallback) (by decide) (by decide))

/-- A set-up kept as valid sets prev_valid of its register. -/
theorem State.prevValid_setSolvSetup (s : State) (k : Nat) {x : SolvSetup} (hvalid : x.valid = true) :
    ((s.setSolvSetup k x).reg (Reg.SOLV_SETUP k)).getLsbD 3 = true := by
  have hbit (a b c d : Nat) (ha : a ≤ 1) (hb : b ≤ 1) (hc : c ≤ 1) : (a + 2 * b + 4 * c + 8 * 1 + 65536 * d).testBit 3 = true := by
    rw [Nat.testBit_eq_decide_div_mod_eq, decide_eq_true_eq]
    omega
  have hle (b : Bool) : b2n b ≤ 1 := by cases b <;> decide
  have hget (u : State) : State.solvSetup { u with solv := { u.solv with setups := Sparse.put (fun _ => {}) u.solv.setups k x } } k = x :=
    Sparse.get_put_same
  simp only [State.setSolvSetup, State.solvReg, hget, State.reg_setReg_same, BitVec.getLsbD_ofNat, hvalid]
  exact hbit _ _ _ _ (hle _) (hle _) (hle _)

/-- The end of a solve sets prev_valid of its set-up's register, in whatever block the set-up's number has that register lie. -/
theorem State.prevValid_solvEnd (s : State) (r : Run) (a : SolvRun) (stop : Option (Nat × Nat))
    (hblock : Reg.SOLV_SETUP a.setup / 65536 ≠ 0x2A) :
    ((s.solvEnd r a stop).reg (Reg.SOLV_SETUP a.setup)).getLsbD 3 = true := by
  unfold State.solvEnd
  extract_lets rec' p x o s1 s2 s3
  have hsetup : (s2.reg (Reg.SOLV_SETUP a.setup)).getLsbD 3 = true := State.prevValid_setSolvSetup _ _ rfl
  have hs3 : s3.reg (Reg.SOLV_SETUP a.setup) = s2.reg (Reg.SOLV_SETUP a.setup) :=
    ((s2.countsIn_solvLast a.setup o.code o.iters).trans (State.countsIn_solvEvents _ o)).kept _ (by simpa using hblock)
  have hidle := (CountsIn.setFld s3 (f := Fld.SOLV_STATUS_busy) (b := 0x2A) 0 (by decide) (by decide)).trans
    (CountsIn.setFld _ (f := Fld.SOLV_STATUS_factorising) 0 (by decide) (by decide))
  have hend : ((s3.setFld Fld.SOLV_STATUS_busy 0).setFld Fld.SOLV_STATUS_factorising 0).reg (Reg.SOLV_SETUP a.setup) =
      s3.reg (Reg.SOLV_SETUP a.setup) := hidle.kept _ (by simpa using hblock)
  rw [← hs3, ← hend] at hsetup
  exact hsetup

/-- The second command of a run ends the operation. -/
theorem exec_solvRun_of_active {run : Nat} {d : Bytes} (h : s.startable run 0x70 = some (r, d)) (hactive : s.solv.active = some a)
    (hrun : a.run = run) (hdeadline : s.monoNs ≤ s.solvDeadline a) : exec (.solvRun (run, .clean)) s = .next (s.solvEnd r a none) := by
  change execSolvRun (run, .clean) s = _
  simp [execSolvRun, State.eccCheck, h, hactive, hrun, Nat.not_lt.mpr hdeadline]

end SolverEnd

/-- A solve of set-up 16384 by the run. -/
def solveState : State :=
  { loneState [0x70] [] (loneRun 0 [] false) with solv := { active := some ⟨0, 16384, 0, false, false⟩ } }

/-- Refutes O47: its clause for the end of a solve keeps the registers outside block 0x2A, but it holds of every number of the set-up
that is solved, where a layout has 16. In `solveState` the set-up is number 16384, whose register SOLV_SETUP_k lies in block 0x2B. -/
theorem not_solverRuns : ¬ Obligations.SolverRuns := by
  unfold Obligations.SolverRuns
  rintro ⟨-, -, hends, -⟩
  have hstart : solveState.startable 0 0x70 = some (loneRun 0 [] false, slice [0x70] 0 64) := by decide +kernel
  have hdeadline : solveState.monoNs ≤ solveState.solvDeadline ⟨0, 16384, 0, false, false⟩ := by decide +kernel
  obtain ⟨t, hexec, -, -, -, -, -, -, -, hkept, -⟩ := hends 0 _ _ _ _ solveState hstart rfl rfl hdeadline rfl
  rw [exec_solvRun_of_active hstart rfl rfl hdeadline] at hexec
  injection hexec with ht
  have hset : (t.reg (Reg.SOLV_SETUP 16384)).getLsbD 3 = true := ht ▸ solveState.prevValid_solvEnd _ _ none (by decide)
  have hclear : (solveState.reg (Reg.SOLV_SETUP 16384)).getLsbD 3 = false := by decide +kernel
  rw [hkept (Reg.SOLV_SETUP 16384) (by decide), hclear] at hset
  exact Bool.false_ne_true hset

end Sys2Proof.Machine
end

section
/-! The statement about planner batches (chapter 16): the release of pins and the end of a batch. -/

namespace Sys2Proof.Machine

/-! ### Registers after a conditional or repeated event (R8) -/

theorem State.reg_eventIf_ne (s : State) (c : Bool) {e : Evt} {a : Nat} (h : a ≠ e.status) (h' : a ≠ e.counter) :
    (s.eventIf c e).reg a = s.reg a := by
  cases c with
  | true => exact s.reg_event_ne h h'
  | false => rfl

theorem State.reg_eventAdd_ne (s : State) (n : Nat) {e : Evt} {a : Nat} (h : a ≠ e.status) (h' : a ≠ e.counter) :
    (s.eventAdd e n).reg a = s.reg a := by
  unfold State.eventAdd
  split
  · rfl
  · exact (State.reg_setReg_ne _ _ h').trans (State.reg_setReg_ne _ _ h)

/-! ### What the release of pins moves (R266, R269) -/

/-- The state with the registers, the memory, the flash store and the free values of another. -/
def State.withStore (s u : State) : State := { s with regs := u.regs, phys := u.phys, flash := u.flash, freeCtr := u.freeCtr }

/-- The second state is the first but for registers of some blocks, memory, the flash store and the free values. -/
structure StoreFrame (s t : State) (blocks : List Nat) : Prop where
  only : t = s.withStore t
  kept : BlocksKept s t blocks

namespace StoreFrame
variable {s t u : State} {l l' : List Nat}

theorem refl (s : State) (l : List Nat) : StoreFrame s s l := ⟨rfl, fun _ _ => rfl⟩

theorem trans (hst : StoreFrame s t l) (htu : StoreFrame t u l) : StoreFrame s u l :=
  ⟨htu.only.trans (congrArg (fun a : State => a.withStore u) hst.only :), fun a ha => (htu.kept a ha).trans (hst.kept a ha)⟩

theorem mono (h : StoreFrame s t l) (hl : l ⊆ l') : StoreFrame s t l' := ⟨h.only, fun a ha => h.kept a fun hal => ha (hl hal)⟩

theorem of_countsIn (h : CountsIn s t l) : StoreFrame s t l := by
  obtain ⟨regs, rfl⟩ : ∃ regs, t = s.withRegs regs := ⟨_, h.only⟩
  exact ⟨rfl, h.kept⟩

/-- A write through translation, or into SRAM, moves no register. -/
theorem writeVa {who : Master} {acc : Access} {ctx va : Nat} {bs : Bytes} (h : s.writeVa who acc ctx va bs = .ok t) :
    StoreFrame s t l := by
  obtain ⟨phys, flash, free, rfl⟩ : ∃ phys flash free, t = { s with phys := phys, flash := flash, freeCtr := free } :=
    ⟨_, _, _, State.writeVa_only h⟩
  exact ⟨rfl, fun _ _ => rfl⟩

theorem writeDie (s : State) (die x : Nat) (bs : Bytes) : StoreFrame s (s.writeDie die x bs) l := by
  rw [State.writeDie, State.writePhys_phys_only]
  exact ⟨rfl, fun _ _ => rfl⟩

theorem setRun (h : StoreFrame s t l) (x : Run) : StoreFrame (s.setRun x) (t.setRun x) l := by
  obtain ⟨u, rfl⟩ : ∃ u, t = s.withStore u := ⟨_, h.only⟩
  exact ⟨rfl, h.kept⟩

theorem foldl {α : Type} {f : State → α → State} (hf : ∀ a x, StoreFrame a (f a x) l) (xs : List α) (s : State) :
    StoreFrame s (xs.foldl f s) l :=
  List.foldlRecOn (motive := fun t => StoreFrame s t l) xs f (refl s l) fun a ha x _ => ha.trans (hf a x)

/-- A fault that the Reflex die's translation reports moves its block XLT. -/
theorem xltFault (s : State) (ctx code va : Nat) : StoreFrame s (s.xltFault 0 ctx code va) [6] := by
  unfold State.xltFault
  split
  · exact refl s _
  · have hevent : CountsIn s (s.event
        (if code = 0x0201 then Ev.XLT_EVT_STATUS_unmapped 0
          else if code = 0x0202 then Ev.XLT_EVT_STATUS_write 0 else Ev.XLT_EVT_STATUS_range 0)) [6] := by
      split
      · exact CountsIn.eventIf s true (e := Ev.XLT_EVT_STATUS_unmapped 0) (by decide) (by decide)
      · split
        · exact CountsIn.eventIf s true (e := Ev.XLT_EVT_STATUS_write 0) (by decide) (by decide)
        · exact CountsIn.eventIf s true (e := Ev.XLT_EVT_STATUS_range 0) (by decide) (by decide)
    have hctx := hevent.trans (CountsIn.setFld _ (f := Fld.XLT_FAULT_LAST_ctx_id 0) ctx (by decide) (by decide))
    have hcode := hctx.trans (CountsIn.setFld _ (f := Fld.XLT_FAULT_LAST_code 0) code (by decide) (by decide))
    exact of_countsIn (hcode.trans (CountsIn.setFld _ (f := Fld.XLT_FAULT_VA_va 0) va (by decide) (by decide)))

theorem writeNode (s : State) (cfg : MapCfg) (i : Nat) (bs : Bytes) : StoreFrame s (s.writeNode cfg i bs) [6] := by
  unfold State.writeNode
  split
  · exact writeDie s 0 _ bs
  · split
    · next hw => exact writeVa hw
    · exact xltFault s _ _ _

theorem releaseNodes (s : State) (before : List World) : StoreFrame s (s.releaseNodes before) [6] := by
  unfold State.releaseNodes
  split
  · exact refl s _
  · refine foldl (fun a i => ?_) _ s
    exact trans (t := a.useFree 16) ⟨rfl, fun _ _ => rfl⟩ (writeNode _ _ _ _)

end StoreFrame

/-- The registers of the map store lie in its block. -/
theorem State.countsIn_mapRegs (s : State) : CountsIn s s.mapRegs [0x28] := by
  have hfree := CountsIn.setFld s (f := Fld.MAP_NODES_free) (b := 0x28) (s.mapCfg?.elim 0 (·.nodes) - nodesUsed s.heldWorlds)
    (by decide) (by decide)
  have hused := hfree.trans (CountsIn.setFld _ (f := Fld.MAP_PINS_used) s.map.pins.length (by decide) (by decide))
  exact hused.trans (CountsIn.setReg64 _ (a := Reg.MAP_DELTA_HEAD) s.map.head (by decide) (by decide))

/-- The state without the pins of a reader. -/
def State.unpinned (s : State) (owner : Option Nat) : State :=
  { s with map := { s.map with pins := s.map.pins.filter (fun p => p.owner != owner) } }

theorem StoreFrame.dropPins (s : State) (owner : Option Nat) : StoreFrame (s.unpinned owner) (s.dropPins owner) [6, 0x28] := by
  have hnodes := StoreFrame.releaseNodes (s.unpinned owner) s.heldWorlds
  have hregs := StoreFrame.of_countsIn ((s.unpinned owner).releaseNodes s.heldWorlds).countsIn_mapRegs
  exact (hnodes.mono (by simp)).trans (hregs.mono (by simp))

/-! ### A reader without pins releases nothing (R266) -/

theorem mem_insertRange {r x : Nat × Nat} {rs : List (Nat × Nat)} : x ∈ insertRange r rs ↔ x = r ∨ x ∈ rs := by
  induction rs with
  | nil => simp [insertRange]
  | cons y ys ih =>
    unfold insertRange
    split
    · exact List.mem_cons
    · rw [List.mem_cons, ih, List.mem_cons]
      exact or_left_comm

theorem pairwise_insertRange {r : Nat × Nat} {rs : List (Nat × Nat)} (h : rs.Pairwise (fun x y => x.1 ≤ y.1)) :
    (insertRange r rs).Pairwise (fun x y => x.1 ≤ y.1) := by
  induction rs with
  | nil => exact List.pairwise_singleton _ _
  | cons y ys ih =>
    obtain ⟨hy, hys⟩ := List.pairwise_cons.mp h
    unfold insertRange
    split
    · next hle => exact List.pairwise_cons.mpr ⟨List.forall_mem_cons.mpr ⟨hle, fun x hx => hle.trans (hy x hx)⟩, h⟩
    · next hgt =>
      exact List.pairwise_cons.mpr
        ⟨fun x hx => (mem_insertRange.mp hx).elim (fun e => e ▸ (Nat.le_of_not_le hgt)) (hy x), ih hys⟩

theorem pairwise_sortRanges (rs : List (Nat × Nat)) : (sortRanges rs).Pairwise (fun x y => x.1 ≤ y.1) :=
  List.foldlRecOn (motive := List.Pairwise fun x y => x.1 ≤ y.1) rs (fun a r => insertRange r a) List.Pairwise.nil
    fun _ h _ _ => pairwise_insertRange h

/-- No gap has a length below an end that has been reached. -/
theorem gapsIn_of_le {hi lo : Nat} (h : hi ≤ lo) (rs : List (Nat × Nat)) : ∀ g ∈ gapsIn hi lo rs, g.2 = 0 := by
  induction rs generalizing lo with
  | nil => simp [gapsIn, Nat.not_lt.mpr h]
  | cons x xs ih =>
    unfold gapsIn
    split
    · rintro g (_ | ⟨_, hg⟩)
      · simp only
        omega
      · exact ih (h.trans (Nat.le_max_left _ _)) g hg
    · exact ih (h.trans (Nat.le_max_left _ _))

/-- Rising ranges leave no gap in one of their own. -/
theorem gapsIn_of_mem {r : Nat × Nat} {lo : Nat} {rs : List (Nat × Nat)} (hsorted : rs.Pairwise (fun x y => x.1 ≤ y.1)) (hr : r ∈ rs)
    (hlo : r.1 ≤ lo) : ∀ g ∈ gapsIn (r.1 + r.2) lo rs, g.2 = 0 := by
  induction rs generalizing lo with
  | nil => cases hr
  | cons x xs ih =>
    obtain ⟨hx, hxs⟩ := List.pairwise_cons.mp hsorted
    have hstart : ¬ lo < x.1 := by
      rcases List.mem_cons.mp hr with rfl | hr
      · exact Nat.not_lt.mpr hlo
      · exact Nat.not_lt.mpr ((hx r hr).trans hlo)
    unfold gapsIn
    rw [if_neg hstart]
    rcases List.mem_cons.mp hr with rfl | hr
    · exact gapsIn_of_le (Nat.le_max_right _ _) xs
    · exact ih hxs hr (hlo.trans (Nat.le_max_left _ _))

/-- Ranges in order lie outside none of themselves: what is outside has no index. -/
theorem outside_sortRanges (rs : List (Nat × Nat)) :
    ((sortRanges rs).flatMap (fun r => outside r (sortRanges rs))).flatMap (fun r => (List.range r.2).map (r.1 + ·)) = [] := by
  refine List.flatMap_eq_nil_iff.mpr fun g hg => ?_
  obtain ⟨r, hr, hg⟩ := List.mem_flatMap.mp hg
  rw [gapsIn_of_mem (pairwise_sortRanges rs) hr le_rfl g hg]
  rfl

/-- Worlds that are all still held release nothing. -/
theorem State.releaseNodes_held (s : State) : s.releaseNodes s.heldWorlds = s := by
  unfold State.releaseNodes
  split
  · rfl
  · extract_lets used gone
    have hgone : gone = [] := outside_sortRanges _
    rw [hgone]
    rfl

/-- A reader without pins leaves memory as it is. -/
theorem State.dropPins_of_unpinned {s : State} {owner : Option Nat} (h : ∀ p ∈ s.map.pins, p.owner ≠ owner) :
    s.dropPins owner = s.mapRegs := by
  have hpins : s.unpinned owner = s := by
    have hall : s.map.pins.filter (fun p => p.owner != owner) = s.map.pins := List.filter_eq_self.mpr fun p hp => by simpa using h p hp
    rw [State.unpinned, hall]
  calc s.dropPins owner = ((s.unpinned owner).releaseNodes s.heldWorlds).mapRegs := rfl
    _ = s.mapRegs := by rw [hpins, s.releaseNodes_held]

/-! ### The end of a batch (R285, R296) -/

section EndBatch
variable {s : State} {r : Run} {code : Nat}

/-- The state without its batch. -/
def State.unbatched (s : State) : State := { s with plan := { s.plan with batch := none } }

/-- The state without its batch, with the batch's run marked and its pins gone. -/
def State.batchEnded (s : State) (r : Run) (code : Nat) : State :=
  (s.unbatched.unpinned (some r.id)).setRun (r.finishOp code {} r.die [])

theorem State.endBatch_eq : s.endBatch r code =
    ((s.unbatched.dropPins (some r.id)).setFld Fld.PLAN_STATUS_busy 0).setRun (r.finishOp code {} r.die []) := rfl

theorem StoreFrame.endBatch (s : State) (r : Run) (code : Nat) : StoreFrame (s.batchEnded r code) (s.endBatch r code) [6, 0x28, 0x29] := by
  have hpins := StoreFrame.dropPins s.unbatched (some r.id)
  have hbusy := CountsIn.setFld (s.unbatched.dropPins (some r.id)) (f := Fld.PLAN_STATUS_busy) (b := 0x29) 0 (by decide) (by decide)
  rw [State.endBatch_eq]
  exact ((hpins.mono (by simp)).trans ((of_countsIn hbusy).mono (by simp))).setRun _

theorem State.regs_endBatch : (s.endBatch r code).regs = ((s.unbatched.dropPins (some r.id)).setFld Fld.PLAN_STATUS_busy 0).regs := by
  rw [State.endBatch_eq, State.setRun_regs]

/-- A register outside XLT, the map store and PLAN_STATUS. -/
theorem State.reg_endBatch {a : Nat} (hblock : a / 65536 ∉ [6, 0x28]) (ha : a ≠ Reg.PLAN_STATUS) :
    (s.endBatch r code).reg a = s.reg a := by
  rw [State.reg_congr State.regs_endBatch, State.reg_setFld_ne _ 0 (by decide) ha]
  exact (StoreFrame.dropPins _ (some r.id)).kept a hblock

theorem State.flag_busy_endBatch : (s.endBatch r code).flag Fld.PLAN_STATUS_busy = false := by
  rw [State.flag, State.fld_congr State.regs_endBatch, State.fld_setFld_same _ 0 (by decide)]
  rfl

theorem State.fld_code_endBatch : (s.endBatch r code).fld Fld.PLAN_STATUS_code = s.fld Fld.PLAN_STATUS_code := by
  rw [State.fld_congr State.regs_endBatch, State.fld_setFld_ne _ 0 (by decide) (by decide) (by decide)]
  exact State.fld_of_reg (by decide) ((StoreFrame.dropPins _ (some r.id)).kept _ (by decide))

/-- A batch that holds no pin leaves memory as it is. -/
theorem State.memory_endBatch (h : ∀ p ∈ s.map.pins, p.owner ≠ some r.id) :
    (s.endBatch r code).phys = s.phys ∧ (s.endBatch r code).flash = s.flash := by
  obtain ⟨regs, honly⟩ : ∃ regs, s.unbatched.dropPins (some r.id) = s.unbatched.withRegs regs :=
    ⟨_, (State.dropPins_of_unpinned (s := s.unbatched) h).trans s.unbatched.countsIn_mapRegs.only⟩
  rw [State.endBatch_eq, State.setRun_phys, State.setRun_flash, State.setFld_phys, State.setFld_flash, honly]
  exact ⟨rfl, rfl⟩

end EndBatch

end Sys2Proof.Machine
end

section
/-! The statement about planner batches (chapter 16): the second half of a batch, which publishes what its Sieve left. -/

namespace Sys2Proof.Machine

/-! ### The second half of a batch that retained nothing (R285, R296) -/

section Second
variable {s m : State} {r : Run} {b : PlanBatch} {o : PlanOut} {cfg : MapCfg} {base : PlanFrame}

/-- A publication writes memory alone, through the translation of its owner. -/
theorem State.publishMailbox_only {ctx va c : Nat} {bs : Bytes} (h : s.publishMailbox ctx va c bs = .ok m) :
    ∃ phys flash free, m = { s with phys := phys, flash := flash, freeCtr := free } := by
  simp only [State.publishMailbox] at h
  split at h
  · cases h
  · next a ha =>
    split at h
    · cases h
    · next u hu =>
      have hm := State.writeVa_only h
      rw [State.writeVa_only hu, State.writeVa_only ha] at hm
      exact ⟨_, _, _, hm⟩

/-- The counts of a published batch lie in the planner's block. -/
theorem State.countsIn_planCounts (s : State) (o : PlanOut) (b : PlanBatch) : CountsIn s (s.planCounts o b) [0x29] := by
  have hbatches : CountsIn s (s.count64 Reg.PLAN_BATCHES 1) [0x29] := CountsIn.setReg64 s _ (by decide) (by decide)
  have hcode := hbatches.trans (CountsIn.setFld _ (f := Fld.PLAN_STATUS_code) o.status (by decide) (by decide))
  have hcand := hcode.trans (CountsIn.setFld _ (f := Fld.PLAN_LAST_candidate) o.index (by decide) (by decide))
  have hrank := hcand.trans (CountsIn.setFld _ (f := Fld.PLAN_LAST_rank) (if o.kind = 1 then 0 else o.rank) (by decide) (by decide))
  have hkind := hrank.trans (CountsIn.setFld _ (f := Fld.PLAN_LAST_kind) o.kind (by decide) (by decide))
  have hlambda := hkind.trans (CountsIn.setFld _ (f := Fld.PLAN_LAST_lambda) o.lambda (by decide) (by decide))
  have htests := hlambda.trans (CountsIn.setReg64 _ (a := Reg.PLAN_LAST_TESTS) b.tests (by decide) (by decide))
  have hqueries := htests.trans (CountsIn.setReg64 _ (a := Reg.PLAN_LAST_QUERIES) b.queries (by decide) (by decide))
  exact hqueries.trans (CountsIn.setFld _ (f := Fld.PLAN_LAST_CYCLES_cycles) _ (by decide) (by decide))

/-- The counts of a published batch leave the counter of STOPs alone. -/
theorem State.reg_noPlan_planCounts :
    (s.planCounts o b).reg Ev.PLAN_EVT_STATUS_no_plan.counter = s.reg Ev.PLAN_EVT_STATUS_no_plan.counter := by
  unfold State.planCounts State.count64
  rw [State.reg_setFld_ne _ _ (by decide) (by decide), State.reg_setReg64_ne _ _ (by decide) (by decide),
    State.reg_setReg64_ne _ _ (by decide) (by decide), State.reg_setFld_ne _ _ (by decide) (by decide),
    State.reg_setFld_ne _ _ (by decide) (by decide), State.reg_setFld_ne _ _ (by decide) (by decide),
    State.reg_setFld_ne _ _ (by decide) (by decide), State.reg_setFld_ne _ _ (by decide) (by decide),
    State.reg_setReg64_ne _ _ (by decide) (by decide)]

/-- PLAN_STATUS.code states the status of a published batch. -/
theorem State.fld_code_planCounts : (s.planCounts o b).fld Fld.PLAN_STATUS_code = o.status % 2 ^ 16 := by
  unfold State.planCounts
  rw [State.fld_setFld_ne _ _ (by decide) (by decide) (by decide),
    State.fld_of_reg (by decide) (State.reg_setReg64_ne _ _ (by decide) (by decide)),
    State.fld_of_reg (by decide) (State.reg_setReg64_ne _ _ (by decide) (by decide)),
    State.fld_setFld_ne _ _ (by decide) (by decide) (by decide), State.fld_setFld_ne _ _ (by decide) (by decide) (by decide),
    State.fld_setFld_ne _ _ (by decide) (by decide) (by decide), State.fld_setFld_ne _ _ (by decide) (by decide) (by decide),
    State.fld_setFld_same _ _ (by decide)]

/-- The second half of a batch without a tree and without retained candidates publishes a STOP with the status 0x0501. -/
theorem State.planSecond_of_none (htree : b.tree = false) (hretained : b.retained = []) (hcfg : s.mapCfg? = some cfg)
    (hbase : startBase b.block = some base) : s.planSecond r b = s.publishStop r b 0x0501 0 (some 0) (some 0) := by
  have hnone (a : State) (e : Evt) : a.eventAdd e 0 = a := rfl
  have hfalse (a : State) (e : Evt) : a.eventIf false e = a := rfl
  cases b
  cases htree
  cases hretained
  simp only [State.planSecond, hcfg, hbase, PlanCtx.choose, hnone, hfalse, Bool.false_eq_true, Bool.false_and, if_false, true_or, if_true,
    Nat.add_zero, List.isEmpty_nil]

/-- A second command of a batch's run takes its second half. -/
theorem exec_planBatch_of_running {run : Nat} {d : Bytes} (h : s.startable run 0x60 = some (r, d)) (hbatch : s.plan.batch = some b)
    (hrun : b.run = run) : exec (.planBatch (run, .clean)) s = .next (s.planSecond r b) := by
  change execPlanBatch (run, .clean) s = _
  simp [execPlanBatch, State.eccCheck, h, hbatch, hrun]

/-- The planner once a STOP is in its mailbox: one more publication, and the previous plan kept (R296). -/
def State.stopKept (m : State) (o : PlanOut) : State :=
  { m with plan := { m.plan with tStop := if m.plan.prev.isSome then some o.tStop else none, pubs := m.plan.pubs + 1 } }

/-- A STOP published and counted. -/
def State.stopCounted (m : State) (b : PlanBatch) (o : PlanOut) : State :=
  ((m.stopKept o).planCounts o b).event Ev.PLAN_EVT_STATUS_no_plan

theorem State.publishStop_of_ok (h : stopMail s r b = .ok m) : s.publishStop r b 0x0501 0 (some 0) (some 0) =
    (m.stopCounted b (s.stopOut r b 0x0501 (some 0) (some 0))).endBatch r 0 := by
  unfold stopMail at h
  simp only [State.publishStop, State.publishPlan, h]
  rfl

theorem State.publishStop_of_error {e : Nat × Nat} (h : stopMail s r b = .error e) : s.publishStop r b 0x0501 0 (some 0) (some 0) =
    s.faultBatch r ((s.engineCtx 7).getD 0) e := by
  unfold stopMail at h
  simp only [State.publishStop, State.publishPlan, h]

theorem State.countsIn_stopCounted (m : State) (b : PlanBatch) (o : PlanOut) : CountsIn (m.stopKept o) (m.stopCounted b o) [0x29] :=
  (State.countsIn_planCounts _ o b).trans
    (CountsIn.eventIf _ true (e := Ev.PLAN_EVT_STATUS_no_plan) (by decide) (by decide))

theorem State.fld_code_stopCounted : (m.stopCounted b o).fld Fld.PLAN_STATUS_code = o.status % 2 ^ 16 :=
  (State.fld_of_reg (by decide) (State.reg_event_ne _ (by decide) (by decide))).trans State.fld_code_planCounts

theorem State.counted_stopCounted : Counted m (m.stopCounted b o) Ev.PLAN_EVT_STATUS_no_plan :=
  (counted_event _ (by decide) (by decide)).since State.reg_noPlan_planCounts

/-- An event counted before the end of a batch stands after it. -/
theorem Counted.endBatch {e : Evt} (h : Counted m s e) (hstatus : e.status / 65536 ∉ [6, 0x28]) (hcounter : e.counter / 65536 ∉ [6, 0x28])
    (hs : e.status ≠ Reg.PLAN_STATUS) (hc : e.counter ≠ Reg.PLAN_STATUS) (code : Nat) : Counted m (s.endBatch r code) e := by
  obtain ⟨hbit, hcount⟩ := h
  rw [← State.reg_endBatch hstatus hs (r := r) (code := code)] at hbit
  rw [← State.reg_endBatch hcounter hc (r := r) (code := code)] at hcount
  exact ⟨hbit, hcount⟩

/-- A batch that retained nothing publishes a STOP and ends (R296). -/
theorem planBatch_stops {run : Nat} {d : Bytes} (h : s.startable run 0x60 = some (r, d)) (hmail : stopMail s r b = .ok m) {t : State}
    (ht : t = (m.stopCounted b (s.stopOut r b 0x0501 (some 0) (some 0))).endBatch r 0) :
    t.plan.batch = none ∧ t.plan.pubs = s.plan.pubs + 1 ∧ t.plan.prev = s.plan.prev ∧
      t.flag Fld.PLAN_STATUS_busy = false ∧ (∃ r', t.run? run = some r' ∧ r'.executed = true ∧ r'.opCode = 0) ∧
      t.fld Fld.PLAN_STATUS_code = 0x0501 ∧ Counted s t Ev.PLAN_EVT_STATUS_no_plan ∧
      (∀ p ∈ t.map.pins, p.owner ≠ some run) ∧ ((∀ p ∈ s.map.pins, p.owner ≠ some run) → t.phys = m.phys ∧ t.flash = m.flash) ∧
      BlocksKept s t [6, 0x28, 0x29] ∧
      t = { s with regs := t.regs, phys := t.phys, flash := t.flash, runs := t.runs, plan := t.plan, map := t.map,
                   freeCtr := t.freeCtr } := by
  have hid := State.id_of_startable h
  generalize ho : s.stopOut r b 0x0501 (some 0) (some 0) = o at ht
  have hstatus : o.status = 0x0501 := ho ▸ rfl
  have hcounts := m.countsIn_stopCounted b o
  have hframe := StoreFrame.endBatch (m.stopCounted b o) r 0
  have hbusy := State.flag_busy_endBatch (s := m.stopCounted b o) (r := r) (code := 0)
  have hcode : t.fld Fld.PLAN_STATUS_code = 0x0501 := by
    rw [ht, State.fld_code_endBatch, State.fld_code_stopCounted, hstatus]
    rfl
  have hcounted : Counted m t Ev.PLAN_EVT_STATUS_no_plan :=
    ht ▸ State.counted_stopCounted.endBatch (by decide) (by decide) (by decide) (by decide) 0
  have hmemory := State.memory_endBatch (s := m.stopCounted b o) (r := r) (code := 0)
  rw [← ht] at hframe hbusy hmemory
  clear ht
  generalize m.stopCounted b o = u at *
  obtain ⟨regs, rfl⟩ : ∃ regs, u = (m.stopKept o).withRegs regs := ⟨_, hcounts.only⟩
  obtain ⟨phys, flash, free, rfl⟩ := State.publishMailbox_only hmail
  have hkept := hframe.kept
  obtain ⟨v, rfl⟩ : ∃ v, t = State.withStore _ v := ⟨t, hframe.only⟩
  refine ⟨rfl, rfl, rfl, hbusy, ⟨_, State.run?_setRun_of_startable h rfl rfl, rfl, rfl⟩, hcode, hcounted, fun p hp => ?_, ?_, ?_, rfl⟩
  · have howner := (List.mem_filter.mp hp).2
    rw [← hid]
    simpa using howner
  · intro hpins
    exact hmemory (hid.symm ▸ hpins)
  · exact fun a ha => (hkept a ha).trans ((hcounts.mono (by simp)).kept a ha)

/-- A batch that a fault or an error ends publishes nothing (R108, R186, R298). -/
theorem planBatch_gives_up {run code : Nat} {d : Bytes} (h : s.startable run 0x60 = some (r, d)) {u t : State} (hu : StoreFrame m u [6])
    (hruns : m.runs = s.runs) (ht : t = u.endBatch r code) :
    t.plan = { m.plan with batch := none } ∧ (∃ r', t.run? run = some r' ∧ r'.executed = true ∧ r'.opCode = code) ∧
      BlocksKept m t [6, 0x28, 0x29] ∧
      t = { m with regs := t.regs, phys := t.phys, flash := t.flash, runs := t.runs, plan := t.plan, map := t.map,
                   freeCtr := t.freeCtr } := by
  have hframe := StoreFrame.endBatch u r code
  rw [← ht] at hframe
  clear ht
  have hkept : BlocksKept m t [6, 0x28, 0x29] := fun a ha => (hframe.kept a ha).trans ((hu.mono (by simp)).kept a ha)
  obtain ⟨v, rfl⟩ : ∃ v, u = m.withStore v := ⟨u, hu.only⟩
  obtain ⟨w, rfl⟩ : ∃ w, t = State.withStore _ w := ⟨t, hframe.only⟩
  exact ⟨rfl, ⟨_, State.run?_setRun_of_startable h hruns rfl, rfl, rfl⟩, hkept, rfl⟩

/-- An uncorrectable error ends the batch of a run, or what the run was to begin. -/
theorem exec_planBatch_of_external {run : Nat} {d : Bytes} (h : s.startable run 0x60 = some (r, d))
    (hbatch : s.plan.batch.elim true (fun b => b.run == run) = true) :
    exec (.planBatch (run, .external)) s = .next ((s.report 0x0B 0).endBatch r 0x0204) := by
  have hown : s.plan.batch.elim false (fun b => b.run != run) = false := by
    cases hb : s.plan.batch with
    | none => rfl
    | some b => simpa [hb] using hbatch
  change execPlanBatch (run, .external) s = _
  simp [execPlanBatch, State.eccCheck, h, hown]

end Second

end Sys2Proof.Machine
end

section
/-! The statement about planner batches (chapter 16): the first half of a batch, which reads neither the mode nor the status of commands. -/

namespace Sys2Proof.Machine

/-! ### What the tests of candidates depend on (R291 to R293) -/

/-- The state with other registers and another map store. -/
def State.withMap (s : State) (regs : Sparse Word) (map : MapSt) : State := { s with regs := regs, map := map }

section Tests
variable {s : State} {regs : Sparse Word} {map : MapSt} (hmode : (s.withMap regs map).fld Fld.FTL_STATUS_mode = s.fld Fld.FTL_STATUS_mode)
include hmode

theorem State.readVaByte_withMap (who : Master) (ctx va : Nat) :
    (s.withMap regs map).readVaByte who ctx va = s.readVaByte who ctx va := by
  have htranslate : (s.withMap regs map).translate who .read ctx va = s.translate who .read ctx va := rfl
  have hflash (a : Nat) : (s.withMap regs map).flashRead a = s.flashRead a := by
    simp only [State.flashRead, hmode]
    rfl
  simp only [State.readVaByte, htranslate, hflash]
  rfl

theorem State.readVa_withMap (who : Master) (ctx va n : Nat) : (s.withMap regs map).readVa who ctx va n = s.readVa who ctx va n := by
  induction n generalizing va with
  | zero => rfl
  | succ n ih => simp only [State.readVa, State.readVaByte_withMap hmode, ih]

theorem State.fieldSample_withMap (cfg : MapCfg) (p : List Int) : (s.withMap regs map).fieldSample cfg p = s.fieldSample cfg p := by
  simp only [State.fieldSample, State.readVa_withMap hmode]

variable (hvalid : (s.withMap regs map).flag Fld.MAP_STATUS_sdf_valid = s.flag Fld.MAP_STATUS_sdf_valid)
include hvalid

theorem State.queryField_withMap (cfg : MapCfg) (x : PlacedCapsule) : (s.withMap regs map).queryField cfg x = s.queryField cfg x := by
  simp only [State.queryField, hvalid, State.fieldSample_withMap hmode]

theorem State.querySegment_withMap (p : PlanCtx) (k i : Nat) (xs : List PlacedCapsule) (m : List Nat) (r : CandResult) :
    (s.withMap regs map).querySegment p k i xs m r = s.querySegment p k i xs m r := by
  induction xs generalizing i m r with
  | nil => rfl
  | cons x xs ih => simp only [State.querySegment, State.queryField_withMap hmode hvalid, ih]

theorem State.querySegments_withMap (p : PlanCtx) (k : Nat) (xs : List (Bytes × List Int)) (r : CandResult) :
    (s.withMap regs map).querySegments p k xs r = s.querySegments p k xs r := by
  induction xs generalizing k r with
  | nil => rfl
  | cons x xs ih => simp only [State.querySegments, State.querySegment_withMap hmode hvalid, ih]

theorem State.testCandidate_withMap (p : PlanCtx) (c : Bytes) : (s.withMap regs map).testCandidate p c = s.testCandidate p c := by
  simp only [State.testCandidate, State.querySegments_withMap hmode hvalid]

/-- The tests of candidates read the store's mode and the field's validity among the registers, and nothing of the map store. -/
theorem State.testCandidates_withMap (p : PlanCtx) (cs : List Bytes) :
    (s.withMap regs map).testCandidates p cs = s.testCandidates p cs := by
  induction cs with
  | nil => rfl
  | cons c cs ih => 
    unfold State.testCandidates
    rw [State.testCandidate_withMap hmode hvalid, ih]

end Tests

/-! ### A mode change that waited (R273) -/

theorem State.reg_mapBusy_ne (s : State) {a : Nat} (h : a ≠ Reg.MAP_CMD_STATUS) : s.mapBusy.reg a = s.reg a :=
  s.reg_setFld_ne _ (by decide) h

theorem State.reg_mapStatus_ne (s : State) (code : Nat) {a : Nat} (h : a ≠ Reg.MAP_CMD_STATUS) : (s.mapStatus code).reg a = s.reg a :=
  (State.reg_mapBusy_ne _ h).trans (s.reg_setFld_ne _ (by decide) h)

theorem State.countsIn_mapBusy (s : State) : CountsIn s s.mapBusy [0x28] := CountsIn.setFld s _ (by decide) (by decide)

theorem State.countsIn_mapStatus (s : State) (code : Nat) : CountsIn s (s.mapStatus code) [0x28] :=
  (CountsIn.setFld s (f := Fld.MAP_CMD_STATUS_code) code (by decide) (by decide)).trans (State.countsIn_mapBusy _)

/-- A mode as it takes effect, before the status of commands. -/
def State.modeSet (s : State) (m : Nat) : State :=
  (({ s with map := { s.map with wanted := none, cmdWaits := false } } : State).setFld Fld.MAP_STATUS_mode m).eventIf
    (s.fld Fld.MAP_STATUS_mode != m) Ev.MAP_EVT_STATUS_mode_change

theorem State.countsIn_modeSet (s : State) (m : Nat) :
    CountsIn { s with map := { s.map with wanted := none, cmdWaits := false } } (s.modeSet m) [0x28] :=
  (CountsIn.setFld _ (f := Fld.MAP_STATUS_mode) m (by decide) (by decide)).trans
    (CountsIn.eventIf _ _ (e := Ev.MAP_EVT_STATUS_mode_change) (by decide) (by decide))

/-- A mode that takes effect leaves the field's validity. -/
theorem State.fld_valid_modeSet (s : State) (m : Nat) : (s.modeSet m).fld Fld.MAP_STATUS_sdf_valid = s.fld Fld.MAP_STATUS_sdf_valid :=
  (State.fld_of_reg (by decide) (State.reg_eventIf_ne _ _ (by decide) (by decide))).trans
    (State.fld_setFld_ne _ m (f := Fld.MAP_STATUS_mode) (by decide) (by decide) (by decide))

/-- The second state is the first but for the map store and registers of its block, which leave the field's validity. -/
structure ModeFrame (s t : State) : Prop where
  only : t = s.withMap t.regs t.map
  kept : BlocksKept s t [0x28]
  valid : t.fld Fld.MAP_STATUS_sdf_valid = s.fld Fld.MAP_STATUS_sdf_valid

theorem ModeFrame.refl (s : State) : ModeFrame s s := ⟨rfl, fun _ _ => rfl, rfl⟩

theorem ModeFrame.modeSet (s : State) (m : Nat) : ModeFrame s (s.modeSet m) := by
  have hset := s.countsIn_modeSet m
  have hvalid := s.fld_valid_modeSet m
  generalize s.modeSet m = t at *
  obtain ⟨regs, rfl⟩ : ∃ regs, t = State.withRegs _ regs := ⟨_, hset.only⟩
  exact ⟨rfl, hset.kept, hvalid⟩

theorem ModeFrame.countsIn {s t u : State} (hst : ModeFrame s t) (htu : CountsIn t u [0x28])
    (hvalid : u.reg Reg.MAP_STATUS = t.reg Reg.MAP_STATUS) : ModeFrame s u := by
  obtain ⟨regs, rfl⟩ : ∃ regs, u = t.withRegs regs := ⟨_, htu.only⟩
  obtain ⟨regs', map, rfl⟩ : ∃ regs map, t = s.withMap regs map := ⟨_, _, hst.only⟩
  exact ⟨rfl, fun a ha => (htu.kept a ha).trans (hst.kept a ha), (State.fld_of_reg (by decide) hvalid).trans hst.valid⟩

/-- A mode change that may take effect, where one waits. -/
theorem ModeFrame.settleMode (s : State) : ModeFrame s s.settleMode := by
  unfold State.settleMode
  split
  · exact refl s
  · next m hwanted =>
    split
    · exact refl s
    · split
      · exact (modeSet s m).countsIn (State.countsIn_mapStatus _ 0) (State.reg_mapStatus_ne _ 0 (by decide))
      · exact (modeSet s m).countsIn (State.countsIn_mapBusy _) (State.reg_mapBusy_ne _ (by decide))

theorem ModeFrame.runs {s t : State} (h : ModeFrame s t) : t.runs = s.runs := (congrArg State.runs h.only :)

theorem ModeFrame.mapCfg? {s t : State} (h : ModeFrame s t) : t.mapCfg? = s.mapCfg? := (congrArg State.mapCfg? h.only :)

/-! ### The first half of a batch (R283, R285) -/

section First
variable {s : State} {r : Run} {d : Bytes} {cfg : MapCfg} {base : PlanFrame} {rs : List CandResult}

/-- A first command of a run takes the first half of a batch, after a mode change that waited. -/
theorem exec_planBatch_of_idle {run : Nat} (h : s.startable run 0x60 = some (r, d)) (hbatch : s.plan.batch = none) :
    exec (.planBatch (run, .clean)) s = .next (s.settleMode.planFirst r d) := by
  change execPlanBatch (run, .clean) s = _
  simp [execPlanBatch, State.eccCheck, h, hbatch]

theorem State.planFirst_of_excess (hcfg : s.mapCfg? = some cfg)
    (hbad : fieldAt d 0xC 2 < batchCount d r.args ∨ cfg.slots ≤ batchSlot d r.args) :
    s.planFirst r d = s.setRun (r.finishOp 0x0107 {} r.die []) := by
  simp only [State.planFirst, hcfg, hbad, if_true]

theorem State.planFirst_of_empty (hcfg : s.mapCfg? = some cfg) (hcount : batchCount d r.args = 0) (hslot : batchSlot d r.args < cfg.slots) :
    s.planFirst r d = s.setRun (r.finishOp 0 {} r.die []) := by
  simp only [State.planFirst, hcfg, hcount, Nat.not_lt_zero, Nat.not_le.mpr hslot, or_self, if_false, if_true]

/-- In SDF mode a batch whose tests end without a fault is kept with what they found. -/
theorem State.planFirst_of_tested (hcfg : s.mapCfg? = some cfg) (hcount : 0 < batchCount d r.args)
    (hmost : batchCount d r.args ≤ fieldAt d 0xC 2) (hslot : batchSlot d r.args < cfg.slots)
    (hmode : s.flag Fld.MAP_STATUS_mode = false)
    (hok : startOk (planModelOf (s.blob 9)) (s.startBlock d (planModelOf (s.blob 9))) = true)
    (hbase : startBase (s.startBlock d (planModelOf (s.blob 9))) = some base)
    (htests : (s.setFld Fld.PLAN_STATUS_mode 0).testCandidates
      ((s.setFld Fld.PLAN_STATUS_mode 0).planCtx cfg (s.startBlock d (planModelOf (s.blob 9))) base none)
      (chunks 32 (batchCount d r.args) (s.readDie 0 (fieldAt d 8 4) (32 * batchCount d r.args))) = .ok rs) :
    s.planFirst r d = (s.setFld Fld.PLAN_STATUS_mode 0).tested d (s.openBatch r d false) rs := by
  have hfits : ¬ (fieldAt d 0xC 2 < batchCount d r.args ∨ cfg.slots ≤ batchSlot d r.args) := by omega
  simp only [State.planFirst, hcfg, hfits, hcount.ne', hmode, Bool.false_and, Bool.false_eq_true, if_false, State.openBatch, b2n,
    hok, hbase, if_true, htests]

/-- The batch with what its tests found. -/
def PlanBatch.found (b : PlanBatch) (rs : List CandResult) : PlanBatch :=
  let num := fun (o : Nat) => (rs.filter (fun x => x.outcome == o)).length
  { b with
    retained := sieve rs, clear := num 0, hit := num 1, invalid := num 2 + num 3
    tests := (rs.map (·.tests)).sum, queries := (rs.map (·.queries)).sum }

/-- The state with the result array of a batch, where its descriptor names one, and the batch. -/
def State.resultsKept (s : State) (d : Bytes) (b : PlanBatch) (rs : List CandResult) : State :=
  let s1 := if fieldAt d 0x14 4 = 0 then s else s.writeDie 0 (fieldAt d 0x14 4) (rs.map candRecord).flatten
  { s1 with plan := { s1.plan with batch := some (b.found rs) } }

theorem State.tested_eq (s : State) (d : Bytes) (b : PlanBatch) (rs : List CandResult) :
    s.tested d b rs = ((s.resultsKept d b rs).setFld Fld.PLAN_STATUS_busy 1).eventAdd Ev.PLAN_EVT_STATUS_cand_invalid
      (rs.filter (fun x => x.outcome == 2)).length := rfl

theorem State.resultsKept_only (s : State) (d : Bytes) (b : PlanBatch) (rs : List CandResult) :
    ∃ phys, s.resultsKept d b rs = { s with phys := phys, plan := { s.plan with batch := some (b.found rs) } } := by
  unfold State.resultsKept
  split
  · exact ⟨s.phys, rfl⟩
  · rw [State.writeDie, State.writePhys_phys_only]
    exact ⟨_, rfl⟩

/-- Each result takes eight bytes of the array (R297). -/
theorem length_candRecords (rs : List CandResult) : (rs.map candRecord).flatten.length = 8 * rs.length := by
  induction rs with
  | nil => rfl
  | cons x xs ih =>
    have hlen : (candRecord x).length = 8 := by simp [candRecord, length_leBytes]
    rw [List.map_cons, List.flatten_cons, List.length_append, ih, hlen, List.length_cons]
    omega

/-- A batch with what its tests found moves registers of the planner beside what it keeps. -/
theorem State.countsIn_tested (s : State) (d : Bytes) (b : PlanBatch) (rs : List CandResult) :
    CountsIn (s.resultsKept d b rs) (s.tested d b rs) [0x29] :=
  (CountsIn.setFld _ (f := Fld.PLAN_STATUS_busy) 1 (by decide) (by decide)).trans
    (CountsIn.eventAdd _ _ (e := Ev.PLAN_EVT_STATUS_cand_invalid) (by decide) (by decide))

theorem State.tested_only (s : State) (d : Bytes) (b : PlanBatch) (rs : List CandResult) : ∃ regs phys,
    s.tested d b rs = { s with regs := regs, phys := phys, plan := { s.plan with batch := some (b.found rs) } } := by
  have honly := (s.countsIn_tested d b rs).only
  obtain ⟨phys, hkept⟩ := s.resultsKept_only d b rs
  rw [hkept] at honly
  exact ⟨_, phys, honly⟩

theorem State.readDie_tested (s : State) (d : Bytes) (b : PlanBatch) (rs : List CandResult) (hnamed : fieldAt d 0x14 4 ≠ 0) :
    (s.tested d b rs).readDie 0 (fieldAt d 0x14 4) (8 * rs.length) = (rs.map candRecord).flatten := by
  obtain ⟨regs, honly⟩ : ∃ regs, s.tested d b rs = (s.resultsKept d b rs).withRegs regs := ⟨_, (s.countsIn_tested d b rs).only⟩
  rw [← length_candRecords, honly]
  simp only [State.resultsKept, if_neg hnamed]
  exact State.readDie_writeDie_same s 0 _ _

theorem State.flag_busy_tested (s : State) (d : Bytes) (b : PlanBatch) (rs : List CandResult) :
    (s.tested d b rs).flag Fld.PLAN_STATUS_busy = true := by
  have hfld : (s.tested d b rs).fld Fld.PLAN_STATUS_busy = 1 := by
    rw [State.tested_eq, State.fld_of_reg (by decide) (State.reg_eventAdd_ne _ _ (by decide) (by decide)),
      State.fld_setFld_same _ _ (by decide)]
    rfl
  rw [State.flag, hfld]
  rfl

theorem State.flag_mode_tested (s : State) (d : Bytes) (b : PlanBatch) (rs : List CandResult) :
    (s.tested d b rs).flag Fld.PLAN_STATUS_mode = s.flag Fld.PLAN_STATUS_mode := by
  have hfld : (s.tested d b rs).fld Fld.PLAN_STATUS_mode = s.fld Fld.PLAN_STATUS_mode := by
    obtain ⟨phys, hkept⟩ := s.resultsKept_only d b rs
    rw [State.tested_eq, State.fld_of_reg (by decide) (State.reg_eventAdd_ne _ _ (by decide) (by decide)),
      State.fld_setFld_ne _ _ (by decide) (by decide) (by decide), hkept]
    exact State.fld_congr rfl _
  rw [State.flag, State.flag, hfld]

/-- The same after a mode change that waited, for tests of the state before it. -/
theorem State.planFirst_settleMode (hcfg : s.mapCfg? = some cfg) (hcount : 0 < batchCount d r.args)
    (hmost : batchCount d r.args ≤ fieldAt d 0xC 2) (hslot : batchSlot d r.args < cfg.slots)
    (hmode : s.settleMode.flag Fld.MAP_STATUS_mode = false)
    (hok : startOk (planModelOf (s.blob 9)) (s.startBlock d (planModelOf (s.blob 9))) = true)
    (hbase : startBase (s.startBlock d (planModelOf (s.blob 9))) = some base)
    (htests : s.testCandidates (s.planCtx cfg (s.startBlock d (planModelOf (s.blob 9))) base none)
      (chunks 32 (batchCount d r.args) (s.readDie 0 (fieldAt d 8 4) (32 * batchCount d r.args))) = .ok rs) :
    s.settleMode.planFirst r d = (s.settleMode.setFld Fld.PLAN_STATUS_mode 0).tested d (s.openBatch r d false) rs := by
  have hsettled := ModeFrame.settleMode s
  generalize s.settleMode = x at *
  obtain ⟨regs, map, rfl⟩ : ∃ regs map, x = s.withMap regs map := ⟨_, _, hsettled.only⟩
  have hstatus := CountsIn.setFld (s.withMap regs map) (f := Fld.PLAN_STATUS_mode) (b := 0x29) 0 (by decide) (by decide)
  have hflash := State.fld_of_reg (f := Fld.FTL_STATUS_mode) (by decide)
    ((hstatus.kept Reg.FTL_STATUS (by decide)).trans (hsettled.kept Reg.FTL_STATUS (by decide)))
  have hvalid := (State.fld_of_reg (f := Fld.MAP_STATUS_sdf_valid) (by decide) (hstatus.kept Reg.MAP_STATUS (by decide))).trans
    hsettled.valid
  refine State.planFirst_of_tested hcfg hcount hmost hslot hmode hok hbase ?_
  obtain ⟨regs', hset⟩ : ∃ regs', (s.withMap regs map).setFld Fld.PLAN_STATUS_mode 0 = s.withMap regs' map := ⟨_, hstatus.only⟩
  rw [hset] at hflash hvalid ⊢
  exact (State.testCandidates_withMap hflash (congrArg (· == 1) hvalid) _ _).trans htests

/-- A batch in SDF mode with what its tests found is its run's, which stays where it is. -/
theorem State.tested_effect {run : Nat} (h : s.startable run 0x60 = some (r, d)) {u t : State} (hruns : u.runs = s.runs)
    (hsdf : u.flag Fld.PLAN_STATUS_mode = false) (ht : t = u.tested d (s.openBatch r d false) rs) :
    t.run? run = some r ∧ t.flag Fld.PLAN_STATUS_busy = true ∧ t.flag Fld.PLAN_STATUS_mode = false ∧
      (∃ b, t.plan.batch = some b ∧ b.run = run ∧ b.tree = false ∧ b.retained = sieve rs ∧ b.ran = 0 ∧ b.since = s.monoNs ∧
        b.block = s.startBlock d (planModelOf (s.blob 9)) ∧ b.cands = s.readDie 0 (fieldAt d 8 4) (32 * batchCount d r.args)) ∧
      (fieldAt d 0x14 4 ≠ 0 → t.readDie 0 (fieldAt d 0x14 4) (8 * rs.length) = (rs.map candRecord).flatten) ∧ t.map = u.map := by
  have hbusy := u.flag_busy_tested d (s.openBatch r d false) rs
  have hmode := (u.flag_mode_tested d (s.openBatch r d false) rs).trans hsdf
  have hresults := u.readDie_tested d (s.openBatch r d false) rs
  have honly := u.tested_only d (s.openBatch r d false) rs
  rw [← ht] at hbusy hmode hresults honly
  obtain ⟨regs, phys, rfl⟩ := honly
  have hrun : u.run? run = some r := by
    rw [State.run?, hruns]
    exact State.run?_of_startable h
  exact ⟨hrun, hbusy, hmode, ⟨_, rfl, State.id_of_startable h, rfl, rfl, rfl, rfl, rfl, rfl⟩, hresults, rfl⟩

/-- A batch that its first half ends leaves what the mode change left. -/
theorem planBatch_ends_first {run code : Nat} (h : s.startable run 0x60 = some (r, d)) (hbatch : s.plan.batch = none)
    (hends : s.settleMode.planFirst r d = s.settleMode.setRun (r.finishOp code {} r.die [])) :
    ∃ t, exec (.planBatch (run, .clean)) s = .next t ∧ (∃ r', t.run? run = some r' ∧ r'.executed = true ∧ r'.opCode = code) ∧
      t = { s.settleMode with runs := t.runs } :=
  ⟨_, (exec_planBatch_of_idle h hbatch).trans (congrArg _ hends),
    ⟨_, State.run?_setRun_of_startable h (ModeFrame.settleMode s).runs rfl, rfl, rfl⟩, rfl⟩

end First

/-- Settles O46: the two halves of a batch, each by what its registers, its pins and the rest of the state do. -/
theorem plannerBatches : Obligations.PlannerBatches := by
  unfold Obligations.PlannerBatches
  refine ⟨?excess, ?empty, ?tested, ?stops, ?mailFault, ?failed⟩
  case excess =>
    intro run r d cfg s h hbatch hcfg hbad
    exact planBatch_ends_first h hbatch (State.planFirst_of_excess ((ModeFrame.settleMode s).mapCfg?.trans hcfg) hbad)
  case empty =>
    intro run r d cfg s h hbatch hcfg hcount hslot
    exact planBatch_ends_first h hbatch (State.planFirst_of_empty ((ModeFrame.settleMode s).mapCfg?.trans hcfg) hcount hslot)
  case tested =>
    intro run n r d cfg base rs s h hbatch hcfg hn hcount hmost hslot hmode hok hbase htests
    subst hn
    have hsdf : (s.settleMode.setFld Fld.PLAN_STATUS_mode 0).flag Fld.PLAN_STATUS_mode = false :=
      congrArg (· == 1) (State.fld_setFld_same _ 0 (by decide))
    have hruns := (State.setFld_runs s.settleMode Fld.PLAN_STATUS_mode 0).trans (ModeFrame.settleMode s).runs
    obtain ⟨hrun, hbusy, hmode', hkept, hresults, hmap⟩ := State.tested_effect h hruns hsdf
      (State.planFirst_settleMode hcfg hcount hmost hslot hmode hok hbase htests)
    exact ⟨_, exec_planBatch_of_idle h hbatch, hrun, hbusy, hmode', hkept, hresults, hmap.trans (State.setFld_map _ _ _)⟩
  case stops =>
    intro run r d cfg base b m s h hbatch hrun htree hretained hcfg hbase hmail
    refine ⟨_, (exec_planBatch_of_running h hbatch hrun).trans ?_, planBatch_stops h hmail rfl⟩
    rw [State.planSecond_of_none htree hretained hcfg hbase, State.publishStop_of_ok hmail]
  case mailFault =>
    intro run e r d cfg base b s h hbatch hrun htree hretained hcfg hbase hmail
    refine ⟨_, (exec_planBatch_of_running h hbatch hrun).trans ?_,
      planBatch_gives_up h (StoreFrame.xltFault s ((s.engineCtx 7).getD 0) e.1 e.2) rfl rfl⟩
    rw [State.planSecond_of_none htree hretained hcfg hbase, State.publishStop_of_error hmail]
    rfl
  case failed =>
    intro run r d s h hbatch
    refine ⟨_, exec_planBatch_of_external h hbatch, ?_⟩
    have hends := planBatch_gives_up (s := s) (m := s.report 0x0B 0) (code := 0x0204) h (StoreFrame.refl _ _) rfl rfl
    generalize (s.report 0x0B 0).endBatch r 0x0204 = t at *
    obtain ⟨hplan, hdone, -, honly⟩ := hends
    have hcrust : t.crust = _ := congrArg State.crust honly
    refine ⟨hplan, hdone, hcrust, honly.trans ?_⟩
    rw [hcrust]
    rfl

end Sys2Proof.Machine
end

section
/-! The statement about the host's key-value commands (chapter 08), which a FREE of a sequence that its invocation has touched refutes. -/

namespace Sys2Proof.Machine

/-! ### KV_CMD_TAKE_EFFECT (R153) -/

@[simp] theorem State.kvTouched_kvRollback (s : State) (q c : Nat) : (s.kvRollback q c).kvTouched = s.kvTouched :=
  State.count64_kvTouched ..

/-- A sequence that is freed leaves the list of those that invocations have still to settle. -/
theorem State.kvTouched_kvFree (s : State) (q : Nat) : (s.kvFree q).kvTouched = s.kvTouched.filter (fun x => x.seq != q) := by
  rw [s.kvFree_eq q, State.freeEntry, State.setKv_kvTouched, State.kvTouched_kvRollback, State.setKv_kvTouched]

@[simp] theorem State.kvTouched_kvStatus (s : State) (code : Nat) : (s.kvStatus code).kvTouched = s.kvTouched := by
  simp [State.kvStatus]

/-- A waiting FREE of a valid sequence takes effect once no append or attention that runs names it. -/
theorem exec_kvCmdTakeEffect_of_free {p : KvPending} {s : State} (hpending : s.kvPending = some p) (hop : p.op = 2)
    (hidle : ∀ r ∈ s.runs, p.seq ∉ s.runSeqs r) (hvalid : (s.kvEntry p.seq).valid = true) :
    exec .kvCmdTakeEffect s = .next (({ s with kvPending := none }.kvFree p.seq).kvStatus 0) := by
  have hrunning : ¬s.runs.any (fun r => (s.runSeqs r).contains p.seq) = true := by simpa using hidle
  have hentry : ({ s with kvPending := none }.kvEntry p.seq).valid = true := hvalid
  change execKvCmdTakeEffect s = _
  simp only [execKvCmdTakeEffect, hpending, if_neg hrunning, hentry, Bool.true_eq_false, if_false, hop, if_true]

/-- A programme of context 5 runs and stands before its next operation; its invocation has appended to sequence 9, for which a FREE
waits. -/
def freeState : State :=
  { State.reset.setKv 9 { holder := 5, owner := 5, valid := true } with
    runs := [loneRun 2 [] false], kvTouched := [⟨5, some 0, 9⟩], kvPending := some ⟨2, 9, 0⟩ }

/-- Refutes O9: its clause for a FREE that takes effect says which fields of the state may change, and the list of the sequences that
invocations have still to settle (R145) is none of them. In `freeState` the invocation of context 5 has appended to the sequence that is
freed, and the FREE takes the sequence out of that list. -/
theorem not_kvCommands : ¬ Obligations.KvCommands := by
  unfold Obligations.KvCommands
  rintro ⟨-, -, -, -, -, -, hfree, -⟩
  have hidle : ∀ r ∈ freeState.runs, 9 ∉ freeState.runSeqs r := by simp [freeState, State.runSeqs, loneRun]
  have hvalid : (freeState.kvEntry 9).valid = true := rfl
  obtain ⟨t, hexec, -, -, -, -, -, -, -, -, -, -, -, honly⟩ := hfree ⟨2, 9, 0⟩ freeState rfl rfl (by decide) hidle hvalid
  rw [exec_kvCmdTakeEffect_of_free rfl rfl hidle hvalid] at hexec
  injection hexec with ht
  have hkept : t.kvTouched = [⟨5, some 0, 9⟩] := (congrArg State.kvTouched honly :)
  have hdropped : t.kvTouched = [] := by
    rw [← ht, State.kvTouched_kvStatus, State.kvTouched_kvFree]
    rfl
  rw [hkept] at hdropped
  cases hdropped

end Sys2Proof.Machine
end

section
/-! The rules of appends and attention (chapter 08): what an append that is accepted or refused moves, how a list of appends is handled,
and what an attention writes. -/

namespace Sys2Proof.Machine

/-! ### States that differ in memory, pages and registers -/

/-- The state with the memory and the pages of sequences of another. -/
def State.withPages (s u : State) : State := { s with phys := u.phys, kvPages := u.kvPages }

theorem State.withPages_trans {s t u : State} (hst : t = s.withPages t) (htu : u = t.withPages u) : u = s.withPages u :=
  htu.trans (congrArg (fun a : State => a.withPages u) hst :)

/-- The second state is the first but for registers of some blocks and physical memory. -/
structure MemoryFrame (s t : State) (blocks : List Nat) : Prop where
  only : t = { s with phys := t.phys, regs := t.regs }
  kept : BlocksKept s t blocks

namespace MemoryFrame
variable {s t u : State} {l : List Nat}

theorem refl (s : State) (l : List Nat) : MemoryFrame s s l := ⟨rfl, fun _ _ => rfl⟩

theorem trans (hst : MemoryFrame s t l) (htu : MemoryFrame t u l) : MemoryFrame s u l :=
  ⟨htu.only.trans (congrArg (fun a : State => { a with phys := u.phys, regs := u.regs }) hst.only),
    fun a ha => (htu.kept a ha).trans (hst.kept a ha)⟩

theorem of_countsIn (h : CountsIn s t l) : MemoryFrame s t l := by
  obtain ⟨regs, rfl⟩ : ∃ regs, t = s.withRegs regs := ⟨_, h.only⟩
  exact ⟨rfl, h.kept⟩

theorem writeDie (s : State) (die x : Nat) (bs : Bytes) : MemoryFrame s (s.writeDie die x bs) l := by
  rw [State.writeDie, State.writePhys_phys_only]
  exact ⟨rfl, fun _ _ => rfl⟩

theorem writeScales (die : Nat) (ws : List Scale) (s : State) (addr : Nat) : MemoryFrame s (s.writeScales die addr ws) l := by
  induction ws generalizing s addr with
  | nil => exact refl s l
  | cons w ws ih => exact (writeDie s die addr _).trans (ih _ _)

theorem foldl {α : Type} {f : State → α → State} (hf : ∀ a x, MemoryFrame a (f a x) l) (xs : List α) (s : State) :
    MemoryFrame s (xs.foldl f s) l :=
  List.foldlRecOn (motive := fun t => MemoryFrame s t l) xs f (refl s l) fun a ha x _ => ha.trans (hf a x)

/-- An operation that a condition stops moves no more than the one that goes on. -/
theorem stop_or {x : OpResult} (h : MemoryFrame s x.state l) (c : Prop) [Decidable c] (code : Nat) :
    MemoryFrame s (if c then OpResult.stop s code else x).state l := by
  split
  · exact refl s l
  · exact h

end MemoryFrame

/-- The second state is the first but for memory, the length table, the pages and marks of its sequences, and registers of the block KV of
the Cache die. -/
structure AppendFrame (s t : State) : Prop where
  only : t = { s with phys := t.phys, regs := t.regs, kv := t.kv, kvPages := t.kvPages, kvTouched := t.kvTouched }
  kept : BlocksKept s t [0x141]

namespace AppendFrame
variable {s t u : State}

theorem refl (s : State) : AppendFrame s s := ⟨rfl, fun _ _ => rfl⟩

theorem trans (hst : AppendFrame s t) (htu : AppendFrame t u) : AppendFrame s u :=
  ⟨htu.only.trans (congrArg (fun a : State => { a with
      phys := u.phys, regs := u.regs, kv := u.kv, kvPages := u.kvPages, kvTouched := u.kvTouched }) hst.only),
    fun a ha => (htu.kept a ha).trans (hst.kept a ha)⟩

end AppendFrame

/-! ### Events counted -/

/-- An event stays counted while another one is. -/
theorem Counted.eventIf {s m : State} {e e' : Evt} (h : Counted s m e) (c : Bool) (hstatus : e.status ≠ e'.counter)
    (hcounter : e.counter ≠ e'.status) (hcounters : e.counter ≠ e'.counter) (hother : e'.status ≠ e'.counter) :
    Counted s (m.eventIf c e') e := by
  cases c with
  | false => exact h
  | true =>
    obtain ⟨hbit, hcount⟩ := h
    refine ⟨?_, (congrArg BitVec.toNat (m.reg_event_ne hcounter hcounters)).trans hcount⟩
    by_cases hsame : e.status = e'.status
    · change ((m.event e').reg e.status).getLsbD e.bit = true
      rw [hsame, m.reg_event_status hother, BitVec.getLsbD_or, ← hsame, hbit, Bool.true_or]
    · exact (congrArg (·.getLsbD e.bit) (m.reg_event_ne hsame hstatus)).trans hbit

/-- An event stays counted while a field of another register is written. -/
theorem Counted.setFld {s m : State} {e : Evt} (h : Counted s m e) {f : Fld} (v : Nat) (hf : f.lo + f.width ≤ 32)
    (hstatus : e.status ≠ f.addr) (hcounter : e.counter ≠ f.addr) : Counted s (m.setFld f v) e := by
  unfold Counted
  rw [m.reg_setFld_ne v hf hstatus, m.reg_setFld_ne v hf hcounter]
  exact h

theorem onlyMoved_eventIf (s : State) (c : Bool) (e : Evt) : OnlyMoved s (s.eventIf c e) e.regs := by
  cases c with
  | true => exact onlyMoved_event s e
  | false => exact (OnlyMoved.refl s).mono (List.nil_subset _)

theorem CountsIn.count64 (s : State) {a b : Nat} (n : Nat) (ha : a / 65536 = b) (ha' : (a + 4) / 65536 = b) :
    CountsIn s (s.count64 a n) [b] := setReg64 s _ ha ha'

/-! ### Appends that are refused (R144) -/

/-- The state in which a refusal is counted and recorded. -/
def State.noteRefusal (s : State) (q code : Nat) : State :=
  (((s.event Ev.KV_EVT_STATUS_refused).eventIf (code == 0x0308) Ev.KV_EVT_STATUS_pool_empty).setFld Fld.KV_REFUSE_LAST_seq_id q).setFld
    Fld.KV_REFUSE_LAST_code code

/-- The registers in which a refusal is counted and recorded. -/
def refusalRegs : List Nat := Reg.KV_REFUSE_LAST :: Ev.KV_EVT_STATUS_refused.regs ++ Ev.KV_EVT_STATUS_pool_empty.regs

theorem onlyMoved_noteRefusal (s : State) (q code : Nat) : OnlyMoved s (s.noteRefusal q code) refusalRegs := by
  have hevent := (onlyMoved_event s Ev.KV_EVT_STATUS_refused).trans
    (onlyMoved_eventIf _ (code == 0x0308) Ev.KV_EVT_STATUS_pool_empty)
  have hseq := hevent.trans (onlyMoved_setFld _ (f := Fld.KV_REFUSE_LAST_seq_id) q (by decide))
  have hcode := hseq.trans (onlyMoved_setFld _ (f := Fld.KV_REFUSE_LAST_code) code (by decide))
  exact hcode.mono (by decide)

/-- A refusal moves registers alone. -/
theorem State.noteRefusal_only (s : State) (q code : Nat) : s.noteRefusal q code = s.withRegs (s.noteRefusal q code).regs :=
  (onlyMoved_noteRefusal s q code).withRegs_eq
    (by rw [State.noteRefusal, State.setFld_msix, State.setFld_msix, State.eventIf_msix, State.event_msix])
    (by rw [State.noteRefusal, State.setFld_msixPending, State.setFld_msixPending, State.eventIf_msixPending, State.event_msixPending])

theorem State.refuseLast_noteRefusal (s : State) (q : Nat) {code : Nat} (hcode : code < 65536) :
    (s.noteRefusal q code).fld Fld.KV_REFUSE_LAST_seq_id = q % 2 ^ Fld.KV_REFUSE_LAST_seq_id.width ∧
      (s.noteRefusal q code).fld Fld.KV_REFUSE_LAST_code = code := by
  unfold State.noteRefusal
  refine ⟨?_, ?_⟩
  · rw [State.fld_setFld_ne _ _ (by decide) (by decide) (by decide), State.fld_setFld_same _ _ (by decide)]
  · exact (State.fld_setFld_same _ _ (by decide)).trans (Nat.mod_eq_of_lt hcode)

theorem counted_noteRefusal (s : State) (q code : Nat) : Counted s (s.noteRefusal q code) Ev.KV_EVT_STATUS_refused := by
  have hevent := (counted_event s (e := Ev.KV_EVT_STATUS_refused) (by decide) (by decide)).eventIf (code == 0x0308)
    (e' := Ev.KV_EVT_STATUS_pool_empty) (by decide) (by decide) (by decide) (by decide)
  exact (hevent.setFld (f := Fld.KV_REFUSE_LAST_seq_id) q (by decide) (by decide) (by decide)).setFld
    (f := Fld.KV_REFUSE_LAST_code) code (by decide) (by decide) (by decide)

section Entry
variable {s : State} {ctx layer : Nat} {inv : Option Nat} {tent : Bool} {src : Tensor} {w : KvWork}

/-- The codes of refusals are 16-bit numbers. -/
theorem State.appendRefusal_lt (s : State) (ctx layer : Nat) (tent : Bool) (w : KvWork) : s.appendRefusal ctx layer tent w < 65536 := by
  unfold State.appendRefusal
  extract_lets e
  split_ifs
  all_goals decide

theorem State.appendEntry_of_refused (h : s.appendRefusal ctx layer tent w ≠ 0) :
    s.appendEntry ctx inv layer tent src w =
      (s.noteRefusal w.seq (s.appendRefusal ctx layer tent w), s.appendRefusal ctx layer tent w, {}) := if_pos h

/-! ### Appends that are accepted (R143, R146, R147) -/

theorem State.kvMap_only (s : State) (q page : Nat) : s.kvMap q page = s.withPages (s.kvMap q page) := by
  unfold State.kvMap
  split
  · rfl
  · rfl

theorem State.kvMapAll_only (q : Nat) (ps : List Nat) (s : State) : s.kvMapAll q ps = s.withPages (s.kvMapAll q ps) := by
  induction ps generalizing s with
  | nil => rfl
  | cons p ps ih => exact State.withPages_trans (s.kvMap_only q p) (ih _)

theorem State.appendVec_only (s : State) (q layer pos kv h : Nat) (src : Tensor) (row : Nat) :
    (s.appendVec q layer pos kv h src row).1 = s.withPages (s.appendVec q layer pos kv h src row).1 := by
  unfold State.appendVec
  extract_lets e g xs z at' s1
  have h1 : s1 = _ := s.writePhys_phys_only _ _
  rw [State.writePhys_phys_only _ s1, h1]
  rfl

theorem State.appendTokens_only (s : State) (layer : Nat) (w : KvWork) (src : Tensor) :
    (s.appendTokens layer w src).1 = s.withPages (s.appendTokens layer w src).1 := by
  unfold State.appendTokens
  extract_lets g idx
  refine List.foldlRecOn (motive := fun x : State × SatEvents => x.1 = s.withPages x.1) idx _ rfl fun x hx i _ => ?_
  exact State.withPages_trans hx (State.appendVec_only ..)

/-- The state in which the pages of an accepted append are mapped and its vectors are written. -/
def State.appendPages (s : State) (layer : Nat) (src : Tensor) (w : KvWork) : State :=
  let g := kvGeom (s.kvEntry w.seq)
  ((s.kvMapAll w.seq (kvNewPages (s.kvEntry w.seq) layer w.start w.count)).appendTokens layer w
    { src with inner := 2 * g.heads * g.dim }).1

theorem State.appendPages_only (s : State) (layer : Nat) (src : Tensor) (w : KvWork) :
    s.appendPages layer src w = s.withPages (s.appendPages layer src w) :=
  State.withPages_trans (State.kvMapAll_only ..) (State.appendTokens_only ..)

/-- The state with the mark that an invocation of a context has still to settle a sequence. -/
def State.markTouched (s : State) (x : KvTouch) : State :=
  { s with kvTouched := if s.kvTouched.contains x then s.kvTouched else s.kvTouched ++ [x] }

theorem State.mem_markTouched (s : State) (x : KvTouch) : x ∈ (s.markTouched x).kvTouched := by
  unfold State.markTouched
  split
  · next h => exact List.contains_iff_mem.mp h
  · exact List.mem_append_right _ List.mem_cons_self

/-- The state that an accepted append of a layer leaves. -/
def State.appendDone (s : State) (ctx : Nat) (inv : Option Nat) (layer : Nat) (tent : Bool) (src : Tensor) (w : KvWork) : State :=
  (((s.appendPages layer src w).setKv w.seq ((s.kvEntry w.seq).appended layer tent w)).count64 Reg.KV_TOKENS_APPENDED
    w.count).markTouched ⟨ctx, inv, w.seq⟩

theorem State.appendEntry_of_accepted (h : s.appendRefusal ctx layer tent w = 0) :
    (s.appendEntry ctx inv layer tent src w).1 = s.appendDone ctx inv layer tent src w ∧
      (s.appendEntry ctx inv layer tent src w).2.1 = 0 := by
  unfold State.appendEntry
  extract_lets code s1 e g s2 x s3 t
  rw [if_neg (not_not_intro h)]
  exact ⟨rfl, rfl⟩

theorem State.kv_appendDone (s : State) (ctx : Nat) (inv : Option Nat) (layer : Nat) (tent : Bool) (src : Tensor) (w : KvWork) :
    (s.appendDone ctx inv layer tent src w).kv = (s.setKv w.seq ((s.kvEntry w.seq).appended layer tent w)).kv := by
  have hpages : (s.appendPages layer src w).kv = s.kv := (congrArg State.kv (s.appendPages_only layer src w) :)
  rw [State.appendDone, State.markTouched, State.count64_kv, State.setKv, State.setKv, hpages]

/-- An append that is accepted advances its own entry alone, and its invocation has still to settle it. -/
theorem State.appendEntry_accepted_effect (h : s.appendRefusal ctx layer tent w = 0) :
    (s.appendEntry ctx inv layer tent src w).2.1 = 0 ∧
      (s.appendEntry ctx inv layer tent src w).1.kvEntry w.seq = (s.kvEntry w.seq).appended layer tent w ∧
      (∀ q, q ≠ w.seq → (s.appendEntry ctx inv layer tent src w).1.kvEntry q = s.kvEntry q) ∧
      ⟨ctx, inv, w.seq⟩ ∈ (s.appendEntry ctx inv layer tent src w).1.kvTouched := by
  obtain ⟨hstate, hcode⟩ := State.appendEntry_of_accepted (inv := inv) (src := src) h
  have hentry (q : Nat) : (s.appendEntry ctx inv layer tent src w).1.kvEntry q =
      (s.setKv w.seq ((s.kvEntry w.seq).appended layer tent w)).kvEntry q := by
    rw [hstate, State.kvEntry, State.kv_appendDone]
    rfl
  refine ⟨hcode, (hentry _).trans (s.kvEntry_setKv_same _ _), fun q hq => (hentry q).trans (s.kvEntry_setKv_ne _ hq), ?_⟩
  rw [hstate]
  exact State.mem_markTouched _ _

/-- An append that is refused moves registers alone: it is counted and recorded. -/
theorem State.appendEntry_refused_effect (h : s.appendRefusal ctx layer tent w ≠ 0) :
    (s.appendEntry ctx inv layer tent src w).2.1 = s.appendRefusal ctx layer tent w ∧
      (s.appendEntry ctx inv layer tent src w).1.fld Fld.KV_REFUSE_LAST_seq_id = w.seq % 2 ^ Fld.KV_REFUSE_LAST_seq_id.width ∧
      (s.appendEntry ctx inv layer tent src w).1.fld Fld.KV_REFUSE_LAST_code = s.appendRefusal ctx layer tent w ∧
      Counted s (s.appendEntry ctx inv layer tent src w).1 Ev.KV_EVT_STATUS_refused ∧
      (s.appendEntry ctx inv layer tent src w).1 = { s with regs := (s.appendEntry ctx inv layer tent src w).1.regs } := by
  obtain ⟨hseq, hcode⟩ := s.refuseLast_noteRefusal w.seq (s.appendRefusal_lt ctx layer tent w)
  rw [State.appendEntry_of_refused h]
  exact ⟨rfl, hseq, hcode, counted_noteRefusal .., State.noteRefusal_only ..⟩

end Entry

/-! ### The entry of a sequence (R143, R145) -/

section Appended
variable {e : KvEntry} {layer : Nat}

theorem KvEntry.ok_iff : e.ok = true ↔ e.committed ≤ e.tentative ∧ (e.groupOpen = true ∨ e.cursor = 0) := by
  simp [KvEntry.ok]

/-- The last layer closes the group and counts it whole. -/
theorem KvEntry.appended_last (tent : Bool) (w : KvWork) (h : layer + 1 = e.layers) :
    (e.appended layer tent w).tentative = e.tentative + w.count ∧
      (e.appended layer tent w).committed = (if tent then e.committed else e.committed + w.count) ∧
      (e.appended layer tent w).groupOpen = false ∧ (e.appended layer tent w).cursor = 0 := by
  simp [KvEntry.appended, h, KvEntry.closeGroup]

/-- A layer before the last leaves the lengths as they are and the group open. -/
theorem KvEntry.appended_inner (tent : Bool) (w : KvWork) (h : layer + 1 ≠ e.layers) (hopen : layer ≠ 0 → e.groupOpen = true) :
    (e.appended layer tent w).tentative = e.tentative ∧ (e.appended layer tent w).committed = e.committed ∧
      (e.appended layer tent w).groupOpen = true := by
  simp only [KvEntry.appended, if_neg h]
  split
  · exact ⟨rfl, rfl, rfl⟩
  · next hlayer => exact ⟨rfl, rfl, hopen hlayer⟩

/-- An append of any layer keeps the committed length at or below the tentative one. -/
theorem KvEntry.ok_appended (tent : Bool) (w : KvWork) (hok : e.ok = true) (hopen : layer ≠ 0 → e.groupOpen = true) :
    (e.appended layer tent w).ok = true := by
  obtain ⟨hle, -⟩ := KvEntry.ok_iff.mp hok
  rw [KvEntry.ok_iff]
  by_cases hlast : layer + 1 = e.layers
  · obtain ⟨htent, hcomm, -, hcursor⟩ := KvEntry.appended_last tent w hlast
    refine ⟨?_, .inr hcursor⟩
    rw [htent, hcomm]
    split
    · omega
    · omega
  · obtain ⟨htent, hcomm, hgroup⟩ := KvEntry.appended_inner tent w hlast hopen
    exact ⟨by omega, .inl hgroup⟩

end Appended

/-! ### A list of appends (R144, R149, R150) -/

theorem AppendFrame.appendEntry (s : State) (ctx : Nat) (inv : Option Nat) (layer : Nat) (tent : Bool) (src : Tensor) (w : KvWork) :
    AppendFrame s (s.appendEntry ctx inv layer tent src w).1 := by
  by_cases h : s.appendRefusal ctx layer tent w = 0
  · obtain ⟨u, hpages⟩ : ∃ u, s.appendPages layer src w = s.withPages u := ⟨_, s.appendPages_only layer src w⟩
    rw [(State.appendEntry_of_accepted h).1, State.appendDone, hpages]
    have hcount (m : State) := CountsIn.count64 m (a := Reg.KV_TOKENS_APPENDED) w.count (b := 0x141) (by decide) (by decide)
    exact ⟨rfl, (hcount ((s.withPages u).setKv w.seq ((s.kvEntry w.seq).appended layer tent w))).kept⟩
  · rw [State.appendEntry_of_refused h]
    have hkept := (onlyMoved_noteRefusal s w.seq (s.appendRefusal ctx layer tent w)).blocksKept (blocks := [0x141]) (by decide)
    have honly := s.noteRefusal_only w.seq (s.appendRefusal ctx layer tent w)
    generalize s.noteRefusal w.seq (s.appendRefusal ctx layer tent w) = m at hkept honly ⊢
    obtain ⟨regs, rfl⟩ : ∃ regs, m = s.withRegs regs := ⟨_, honly⟩
    exact ⟨rfl, hkept⟩

theorem AppendFrame.kvAppendResult (s : State) (r : Run) (d : Bytes) : AppendFrame s (s.kvAppendResult r d).state := by
  unfold State.kvAppendResult
  extract_lets kind tent layer ws
  split
  · exact refl s
  · extract_lets src rowLen x bad
    split
    · exact refl s
    · refine List.foldlRecOn (motive := fun x : State × List Nat × SatEvents => AppendFrame s x.1) ws _ (b := (s, [], {})) (refl s)
        fun x hx w _ => ?_
      exact hx.trans (appendEntry x.1 r.ctx _ _ _ _ w)

theorem lowestCode_singleton (code : Nat) : lowestCode [code] = code := by
  by_cases h : code = 0
  · subst h
    rfl
  · simp [lowestCode, h]

/-- A list of one append that is refused: the refusal's state and its code. -/
theorem State.kvAppendResult_of_refused {s : State} {r : Run} {d : Bytes} {f : Format} {w : KvWork}
    (hf : formatOf (bits (fieldAt d 3 1) 0 4) = some f)
    (hlist : s.kvList r.die (bits (fieldAt d 1 1) 0 2) (fieldAt d 4 4) (fieldAt d 8 2) = [w])
    (hbatch : s.kvBatchOk r.ctx r.die (fieldAt d 0xC 4)
      (fun x => runBytes f (2 * (kvGeom (s.kvEntry x.seq)).heads * (kvGeom (s.kvEntry x.seq)).dim)) [w] = true)
    (hok : s.kvListOk r.die (bits (fieldAt d 1 1) 0 2) (fieldAt d 4 4) (fieldAt d 8 2) false [w] = true)
    (h : s.appendRefusal r.ctx (fieldAt d 2 1) (bit (fieldAt d 1 1) 2) w ≠ 0) :
    (s.kvAppendResult r d).state = s.noteRefusal w.seq (s.appendRefusal r.ctx (fieldAt d 2 1) (bit (fieldAt d 1 1) 2) w) ∧
      (s.kvAppendResult r d).code = s.appendRefusal r.ctx (fieldAt d 2 1) (bit (fieldAt d 1 1) 2) w := by
  simp only [State.kvAppendResult, hf, hlist, hbatch, hok, Bool.not_true, Bool.or_self, Bool.false_eq_true, if_false, List.foldl_cons,
    List.foldl_nil, State.appendEntry_of_refused h, List.nil_append, lowestCode_singleton, if_neg h, and_self]

/-! ### KV_APPEND (R108, R115) -/

section KvAppend
variable {run : Nat} {r : Run} {d : Bytes} {s : State}

theorem exec_kvAppend_of_clean (h : s.startable run 0x50 = some (r, d)) :
    exec (.kvAppend (run, .clean)) s = .next (((s.kvAppendResult r d).state.setRun
      (r.finishOp (s.kvAppendResult r d).code (s.kvAppendResult r d).sat 1 [])).noteActive 2) := by
  change execKvAppend (run, .clean) s = _
  simp only [execKvAppend, h, State.eccCheck, Bool.false_eq_true, if_false]

theorem exec_kvAppend_of_external (h : s.startable run 0x50 = some (r, d)) :
    exec (.kvAppend (run, .external)) s = .next (((s.report 0x0B 0).setRun (r.finishOp 0x0204 {} 1 [])).noteActive 2) := by
  change execKvAppend (run, .external) s = _
  simp only [execKvAppend, h, State.eccCheck, if_true]

/-- An append records its result in its run. -/
theorem kvAppend_executes (h : s.startable run 0x50 = some (r, d)) :
    ∃ t, exec (.kvAppend (run, .clean)) s = .next t ∧
      (∃ r', t.run? run = some r' ∧ r'.executed = true ∧ r'.opCode = (s.kvAppendResult r d).code ∧
        r'.sat = (s.kvAppendResult r d).sat ∧ r'.satDie = 1 ∧ r'.done = r.done) ∧
      t.phys = (s.kvAppendResult r d).state.phys ∧ t.kv = (s.kvAppendResult r d).state.kv ∧
      t = { s with phys := t.phys, regs := t.regs, kv := t.kv, kvPages := t.kvPages, kvTouched := t.kvTouched, runs := t.runs,
                   power := t.power } ∧
      BlocksKept s t [0x141] := by
  have hexec := exec_kvAppend_of_clean h
  obtain ⟨honly, hkept⟩ := AppendFrame.kvAppendResult s r d
  generalize s.kvAppendResult r d = x at hexec honly hkept ⊢
  obtain ⟨m, code, sat, outs⟩ := x
  have hruns : m.runs = s.runs := (congrArg State.runs honly :)
  refine ⟨_, hexec, ⟨_, State.run?_setRun_of_startable (x := r.finishOp code sat 1 []) h hruns rfl, rfl, rfl, rfl, rfl, rfl⟩, rfl, rfl,
    ?_, hkept⟩
  obtain ⟨phys, regs, kv, pages, touched, rfl⟩ : ∃ phys regs kv pages touched,
      m = { s with phys := phys, regs := regs, kv := kv, kvPages := pages, kvTouched := touched } := ⟨_, _, _, _, _, honly⟩
  rfl

/-- An append whose source cannot be read appends nothing and ends with 0x0204. -/
theorem kvAppend_of_external (h : s.startable run 0x50 = some (r, d)) :
    ∃ t, exec (.kvAppend (run, .external)) s = .next t ∧
      (∃ r', t.run? run = some r' ∧ r'.executed = true ∧ r'.opCode = 0x0204 ∧ r'.done = r.done) ∧
      t.crust = { s.crust with reports := s.crust.reports ++ [(0x0B, 0)] } ∧
      t = { s with runs := t.runs, crust := t.crust, power := t.power } :=
  ⟨_, exec_kvAppend_of_external h, ⟨_, State.run?_setRun_of_startable (m := s.report 0x0B 0) (x := r.finishOp 0x0204 {} 1 []) h rfl rfl,
    rfl, rfl, rfl⟩, rfl, rfl⟩

/-- An operation whose one append is refused completes with the refusal's code and moves registers alone. -/
theorem kvAppend_of_refused {f : Format} {w : KvWork} (h : s.startable run 0x50 = some (r, d))
    (hf : formatOf (bits (fieldAt d 3 1) 0 4) = some f)
    (hlist : s.kvList r.die (bits (fieldAt d 1 1) 0 2) (fieldAt d 4 4) (fieldAt d 8 2) = [w])
    (hbatch : s.kvBatchOk r.ctx r.die (fieldAt d 0xC 4)
      (fun x => runBytes f (2 * (kvGeom (s.kvEntry x.seq)).heads * (kvGeom (s.kvEntry x.seq)).dim)) [w] = true)
    (hok : s.kvListOk r.die (bits (fieldAt d 1 1) 0 2) (fieldAt d 4 4) (fieldAt d 8 2) false [w] = true)
    (hrefused : s.appendRefusal r.ctx (fieldAt d 2 1) (bit (fieldAt d 1 1) 2) w ≠ 0) :
    ∃ t, exec (.kvAppend (run, .clean)) s = .next t ∧
      (∃ r', t.run? run = some r' ∧ r'.executed = true ∧
        r'.opCode = s.appendRefusal r.ctx (fieldAt d 2 1) (bit (fieldAt d 1 1) 2) w ∧ r'.done = r.done) ∧
      t.fld Fld.KV_REFUSE_LAST_seq_id = w.seq % 2 ^ Fld.KV_REFUSE_LAST_seq_id.width ∧
      t.fld Fld.KV_REFUSE_LAST_code = s.appendRefusal r.ctx (fieldAt d 2 1) (bit (fieldAt d 1 1) 2) w ∧
      Counted s t Ev.KV_EVT_STATUS_refused ∧ t.phys = s.phys ∧ t.kv = s.kv ∧ t.kvPages = s.kvPages ∧
      RegsKept s t (Reg.KV_REFUSE_LAST :: Ev.KV_EVT_STATUS_refused.regs ++ Ev.KV_EVT_STATUS_pool_empty.regs) ∧
      t = { s with regs := t.regs, runs := t.runs, power := t.power } := by
  obtain ⟨hstate, hcode⟩ := State.kvAppendResult_of_refused hf hlist hbatch hok hrefused
  have hexec := exec_kvAppend_of_clean h
  have hlt := s.appendRefusal_lt r.ctx (fieldAt d 2 1) (bit (fieldAt d 1 1) 2) w
  rw [hstate, hcode] at hexec
  generalize s.appendRefusal r.ctx (fieldAt d 2 1) (bit (fieldAt d 1 1) 2) w = code at hexec hlt ⊢
  obtain ⟨hseq, hlast⟩ := s.refuseLast_noteRefusal w.seq hlt
  have hcounted := counted_noteRefusal s w.seq code
  have hkept := (onlyMoved_noteRefusal s w.seq code).kept
  obtain ⟨regs, hregs⟩ : ∃ regs, s.noteRefusal w.seq code = s.withRegs regs := ⟨_, s.noteRefusal_only w.seq code⟩
  rw [hregs] at hexec hseq hlast hcounted hkept
  exact ⟨_, hexec, ⟨_, State.run?_setRun_of_startable (m := s.withRegs regs) h rfl rfl, rfl, rfl, rfl⟩, hseq, hlast, hcounted,
    rfl, rfl, rfl, hkept, rfl⟩

end KvAppend

/-! ### ATTN (R120, R149 to R151) -/

/-- A fault that a die's translation reports moves its block XLT alone (R186). -/
theorem CountsIn.xltFault (s : State) (die ctx code va : Nat) : CountsIn s (s.xltFault die ctx code va) [die * 256 + 6] := by
  unfold State.xltFault
  split
  · exact refl s _
  · have hevent : CountsIn s (s.event
        (if code = 0x0201 then Ev.XLT_EVT_STATUS_unmapped die
          else if code = 0x0202 then Ev.XLT_EVT_STATUS_write die else Ev.XLT_EVT_STATUS_range die)) [die * 256 + 6] := by
      split
      · exact dieEvent s true die 0x60000 0 0x60004 (by decide) (by decide)
      · split
        · exact dieEvent s true die 0x60000 1 0x60008 (by decide) (by decide)
        · exact dieEvent s true die 0x60000 2 0x6000C (by decide) (by decide)
    have hctx := hevent.trans (dieFld _ die 0x60020 0 6 ctx (by decide) (by decide))
    have hcode := hctx.trans (dieFld _ die 0x60020 16 16 code (by decide) (by decide))
    exact hcode.trans (dieFld _ die 0x60028 0 64 va (by decide) (by decide))

/-- An attention moves memory, and the block XLT of its die where a translation faults. -/
theorem MemoryFrame.attnResult (s : State) (r : Run) (d : Bytes) : MemoryFrame s (s.attnResult r d).state [r.die * 256 + 6] := by
  unfold State.attnResult
  extract_lets layer group ws rs rv width stale jobs
  split
  · extract_lets res t sw
    refine stop_or (stop_or (stop_or ?_ _ _) _ _) _ _
    clear_value res
    split
    · exact of_countsIn (CountsIn.xltFault s r.die r.ctx _ _)
    · extract_lets s1
      have hrows : MemoryFrame s s1 [r.die * 256 + 6] := foldl (fun a o => writeDie a _ _ _) _ s
      exact hrows.trans (writeScales _ _ _ _)
  · exact refl s _

section Attn
variable {run : Nat} {r : Run} {d : Bytes} {s : State}

theorem exec_attn_of_free (h : s.startable run 0x51 = some (r, d)) (hfree : s.tilesFree r = true) :
    exec (.attn run .clean) s = .next ((s.attnResult r d).state.setRun
      (r.finishOp (s.attnResult r d).code (s.attnResult r d).sat r.die (s.attnResult r d).outs)) := by
  change execAttn run .clean s = _
  simp only [execAttn, h, hfree, if_true, State.execOp, State.eccCheck, Bool.false_eq_true, if_false]

/-- An attention records its result in its run. -/
theorem attn_executes (h : s.startable run 0x51 = some (r, d)) (hfree : s.tilesFree r = true) :
    ∃ t, exec (.attn run .clean) s = .next t ∧
      (∃ r', t.run? run = some r' ∧ r'.executed = true ∧ r'.opCode = (s.attnResult r d).code ∧ r'.outs = (s.attnResult r d).outs ∧
        r'.op = r.op ∧ r'.done = r.done) ∧
      t.phys = (s.attnResult r d).state.phys ∧ t.kv = s.kv ∧ t = { s with phys := t.phys, regs := t.regs, runs := t.runs } ∧
      BlocksKept s t [r.die * 256 + 6] := by
  have hexec := exec_attn_of_free h hfree
  obtain ⟨honly, hkept⟩ := MemoryFrame.attnResult s r d
  generalize s.attnResult r d = x at hexec honly hkept ⊢
  obtain ⟨m, code, sat, outs⟩ := x
  obtain ⟨phys, regs, rfl⟩ : ∃ phys regs, m = { s with phys := phys, regs := regs } := ⟨_, _, honly⟩
  exact ⟨_, hexec, ⟨_, State.run?_setRun_of_startable h rfl rfl, rfl, rfl, rfl, rfl, rfl⟩, rfl, rfl, rfl, hkept⟩

/-- An attention over a list of one sequence that is out of range or not valid stops (R155). -/
theorem State.attnResult_of_invalid {fq fo : Format} {w : KvWork} (hq : formatOf (bits (fieldAt d 0xA 1) 0 4) = some fq)
    (ho : formatOf (bits (fieldAt d 0xA 1) 4 4) = some fo)
    (hrq : ∀ a ∈ [fieldAt d 0x1C 4, fieldAt d 0x20 4], -512 ≤ (s.rqEntry r.die a 0).2 ∧ (s.rqEntry r.die a 0).2 ≤ 511)
    (hlist : s.kvList r.die (bits (fieldAt d 1 1) 0 2) (fieldAt d 4 4) (fieldAt d 8 2) = [w])
    (hinvalid : 4095 < w.seq ∨ (s.kvEntry w.seq).valid = false) : s.attnResult r d = OpResult.stop s 0x0302 := by
  have hscores := hrq (fieldAt d 0x1C 4) List.mem_cons_self
  have hvalues := hrq (fieldAt d 0x20 4) (List.mem_cons_of_mem _ List.mem_cons_self)
  have hrange : ¬((s.rqEntry r.die (fieldAt d 0x1C 4) 0).2 < -512 ∨ 511 < (s.rqEntry r.die (fieldAt d 0x1C 4) 0).2 ∨
      (s.rqEntry r.die (fieldAt d 0x20 4) 0).2 < -512 ∨ 511 < (s.rqEntry r.die (fieldAt d 0x20 4) 0).2) := by omega
  simp only [State.attnResult, hq, ho, hlist, if_neg hrange, List.map_cons, List.map_nil, if_pos hinvalid, lowestCode_singleton, ne_eq,
    Nat.reduceEqDiff, not_false_eq_true, if_true]

end Attn

/-! ### The obligations -/

/-- Settles O27: the cases of an entry after an append (`KvEntry.appended_last`, `KvEntry.appended_inner`), of a rollback, and of an
accepted append (`State.appendEntry_accepted_effect`); the operations move what their results do (`kvAppend_executes`, `attn_executes`). -/
theorem appendsAndAttention : Obligations.AppendsAndAttention := by
  unfold Obligations.AppendsAndAttention
  refine ⟨fun e layer tent w hok hlayer hopen => ⟨KvEntry.ok_appended tent w hok hopen, fun hlast => ?last, fun hinner => ?inner⟩,
    fun s q c => ?rollback, fun _ _ _ _ => kvAppend_executes, fun _ _ _ _ => kvAppend_of_external,
    fun _ _ _ _ _ _ _ => State.appendEntry_accepted_effect, fun _ _ _ _ => attn_executes,
    fun _ _ _ _ _ _ => State.attnResult_of_invalid⟩
  case last =>
    obtain ⟨htent, hcomm, hgroup, -⟩ := KvEntry.appended_last tent w hlast
    exact ⟨htent, hcomm, hgroup⟩
  case inner =>
    obtain ⟨htent, -, hgroup⟩ := KvEntry.appended_inner tent w hinner.ne hopen
    exact ⟨htent, hgroup⟩
  case rollback =>
    rw [State.kvEntry_kvRollback_same]
    exact ⟨rfl, rfl, fun _ hj => s.kvEntry_kvRollback_ne c hj⟩

/-- Settles O28: a refused append is counted and recorded and moves nothing else (`State.appendEntry_refused_effect`), and the operation
completes with its code (`kvAppend_of_refused`). -/
theorem refusedAppend : Obligations.RefusedAppend := by
  unfold Obligations.RefusedAppend
  exact ⟨fun _ _ _ _ _ _ _ => State.appendEntry_refused_effect, fun _ _ _ _ _ _ => kvAppend_of_refused⟩

end Sys2Proof.Machine
end

section
/-! The statement about the sequence engines (chapter 09), which a RESTORE refused on a die that still holds a command refutes. -/

namespace Sys2Proof.Machine

/-! ### The start of a command (R168) -/

section Start
variable {s : State} {who : Requester} {die v : Nat}

/-- The state with the fields of SEQ_CMD as a start writes them. -/
def State.seqFields (s : State) (die op v : Nat) : State :=
  (((s.setFld (Fld.SEQ_CMD_op die) op).setFld (Fld.SEQ_CMD_engine die) (bits v 4 2)).setFld (Fld.SEQ_CMD_slot die) (bits v 8 6)).setFld
    (Fld.SEQ_CMD_class die) (bits v 16 3)

theorem onlyMoved_seqFields (s : State) (die op v : Nat) : OnlyMoved s (s.seqFields die op v) [Reg.SEQ_CMD die] := by
  have hop := onlyMoved_setFld s (f := Fld.SEQ_CMD_op die) op (by simp)
  have hengine := hop.trans (onlyMoved_setFld _ (f := Fld.SEQ_CMD_engine die) (bits v 4 2) (by simp))
  have hslot := hengine.trans (onlyMoved_setFld _ (f := Fld.SEQ_CMD_slot die) (bits v 8 6) (by simp))
  have hclass := hslot.trans (onlyMoved_setFld _ (f := Fld.SEQ_CMD_class die) (bits v 16 3) (by simp))
  exact hclass.mono (by simp)

/-- A start that is taken acts on the slot that it names, with its fields written. -/
theorem State.seqStart_of_ready (h : seqReady s who die v = true) (op : Nat) (f : Nat → State → State) :
    s.seqStart who die op v f = f (seqKey die v) (s.seqFields die op v) := by
  have hmoved := onlyMoved_seqFields s die op v
  unfold seqReady at h
  simp only [Bool.and_eq_true, Bool.not_eq_true', decide_eq_true_eq] at h
  obtain ⟨⟨hserved, hidle⟩, hengine⟩ := h
  have hidle' : ¬ (s.seqFields die op v).flag (Fld.SEQ_CMD_STATUS_busy die) = true := by
    rw [State.flag, hmoved.fld (by simp) (by simp)]
    exact ne_true_of_eq_false hidle
  have hengine' : ¬ (s.seqFields die op v).fld (Fld.SEQ_CAP_engines die) ≤ bits v 4 2 := by
    rw [hmoved.fld (by simp) (by simp)]
    exact hengine.not_ge
  rw [State.seqStart, State.busWrite_of_served _ hserved]
  exact (if_neg hidle').trans (if_neg hengine')

end Start

/-! ### SEQ_RESTORE (R168) -/

/-- A RESTORE of a slot whose engine no resident context holds, or that is not empty, fails with 0x0481. -/
theorem exec_seqRestore_of_refused {s : State} {who : Requester} {die v : Nat} (h : seqReady s who die v = true)
    (hrefused : s.engineOwner (seqKey die v) = none ∨ (s.seqSlot (seqKey die v)).phase ≠ .empty) :
    exec (.seqRestore who die v) s = .next ((s.seqFields die 3 v).restoreFailed die 0x0481) := by
  change execSeqRestore who die v s = _
  rw [execSeqRestore, State.seqStart_of_ready h]
  obtain ⟨regs, msix, pending, hfields⟩ : ∃ regs msix pending,
      s.seqFields die 3 v = { s with regs := regs, msix := msix, msixPending := pending } := ⟨_, _, _, (onlyMoved_seqFields s die 3 v).only⟩
  have howner : (s.seqFields die 3 v).engineOwner (seqKey die v) = s.engineOwner (seqKey die v) := by
    rw [hfields]
    rfl
  have hslot : (s.seqFields die 3 v).seqSlot (seqKey die v) = s.seqSlot (seqKey die v) := by
    rw [hfields]
    rfl
  cases hk : s.engineOwner (seqKey die v) with
  | none => simp only [howner, hk]
  | some k =>
    have hphase := hrefused.resolve_left (by simp [hk])
    simp only [howner, hk, hslot, if_pos hphase]

/-- A command of a die that has ended is pending no longer. -/
theorem State.seqCmd_seqStatus (s : State) (die code : Nat) : (s.seqStatus die code).seqCmd die = none := by
  rw [State.seqStatus, State.seqCmd, State.setFld_seqCmds, State.setFld_seqCmds, State.setSeqCmd, Sparse.get_put_same]

/-- The state after reset, but for an UNBIND of slot 0 of the first engine that is pending on die 2, whose status still reads idle. -/
def restoreState : State := State.reset.setSeqCmd 2 (some ⟨4, 512, 0, false⟩)

/-- Refutes O31: its clause for a RESTORE that is refused says that nothing but registers moves, and the list of the dies' commands is no
register. A command's end takes the command of its die out of that list (`State.seqCmd_seqStatus`), and the clause asks only that the
status reads idle, not that no command is pending. In `restoreState` one is pending, and a RESTORE of a slot whose engine no context
holds takes it out of the list. The model's commands write the status and the list together, so it is the clause's reach over every state
that fails, not the engines' behaviour: it lacks the list among what may move, or the hypothesis that no command is pending. -/
theorem not_sequences : ¬ Obligations.Sequences := by
  unfold Obligations.Sequences
  rintro ⟨-, -, -, -, -, -, -, -, -, -, -, hrefuses, -⟩
  have hready : seqReady restoreState (.baker 2) 2 0 = true := by decide +kernel
  have howner : restoreState.engineOwner (seqKey 2 0) = none := rfl
  obtain ⟨t, hexec, -, -, honly, -⟩ := hrefuses (.baker 2) 2 0 restoreState hready (.inl howner)
  rw [exec_seqRestore_of_refused hready (.inl howner)] at hexec
  injection hexec with ht
  have hkept : t.seqCmd 2 = some ⟨4, 512, 0, false⟩ := (congrArg (fun a : State => a.seqCmd 2) honly :)
  have hended : t.seqCmd 2 = none := ht ▸ State.seqCmd_seqStatus _ 2 0x0481
  rw [hkept] at hended
  cases hended

end Sys2Proof.Machine
end

section
/-! The statement about the tier manager's commands (chapter 10), which a translation-buffer entry of no bytes refutes. -/

namespace Sys2Proof.Machine

/-! ### TIER_UNMAP_TAKE_EFFECT (R179, R187) -/

/-- The buffer entries of a context that meet a range. -/
def TlbEntry.meets (e : TlbEntry) (ctx base len : Nat) : Bool := e.ctx == ctx && decide (e.va < base + len) && decide (base < e.va + e.len)

theorem TlbEntry.not_meets_of_end_le {e : TlbEntry} {base : Nat} (h : e.va + e.len ≤ base) (ctx len : Nat) :
    e.meets ctx base len = false := by
  simp [TlbEntry.meets, h]

/-- An invalidation leaves the entries of a buffer that it does not name. -/
theorem State.mem_tlbOf_tlbDrop {s : State} {die : Nat} {e : TlbEntry} {gone : TlbEntry → Bool} (h : e ∈ s.tlbOf die)
    (hstays : gone e = false) : e ∈ (s.tlbDrop gone).tlbOf die := by
  unfold State.tlbOf State.tlbDrop at *
  dsimp only
  generalize s.tlb = m at *
  induction m with
  | nil => exact h
  | cons p ps ih =>
    obtain ⟨d, es⟩ := p
    simp only [Sparse.get] at h
    rw [List.filterMap_cons]
    dsimp only
    by_cases hd : d = die
    · rw [if_pos hd] at h
      have hmem : e ∈ es.filter (fun e => !gone e) := List.mem_filter.mpr ⟨h, by rw [hstays]; rfl⟩
      cases hrest : es.filter (fun e => !gone e) with
      | nil => rw [hrest] at hmem; cases hmem
      | cons x xs =>
        rw [hrest] at hmem
        simp only [Sparse.get, if_pos hd]
        exact hmem
    · rw [if_neg hd] at h
      cases es.filter (fun e => !gone e) with
      | nil => exact ih h
      | cons x xs =>
        simp only [Sparse.get, if_neg hd]
        exact ih h

/-- The state with the commands' status idle and a code of success. -/
def State.tierDone (s : State) : State := (s.setFld Fld.TIER_CMD_STATUS_busy 0).tierStatus 0

/-- A waiting UNLINK_SEQ takes effect at once where no transfer is in flight. -/
theorem exec_tierUnmapTakeEffect_of_unlink {p : TierPending} {s : State} (hpending : s.tierPending = some p) (hop : p.op ≠ 2)
    (hidle : s.transferRanges = []) :
    exec .tierUnmapTakeEffect s = .next
      ({ s.tlbDrop (fun e => e.meets p.ctx ((s.kvEntry p.aux).base * 0x100000000) 0x100000000) with
          tierPending := none, seqLinks := s.seqLinks.filter (fun x => x != (p.ctx, p.aux)) } : State).tierDone := by
  change execTierUnmapTakeEffect s = _
  simp only [execTierUnmapTakeEffect, hpending, if_neg hop, hidle, List.any_nil, Bool.false_eq_true, if_false]
  rfl

/-- An UNLINK_SEQ of sequence 0 waits, and a buffer holds an entry of no bytes at the sequence's base. -/
def unlinkState : State := { State.reset with tierPending := some ⟨5, 0, 0, 0, 0⟩, tlb := [(0, [⟨0, 0, 0, 0⟩])] }

/-- Refutes O32: its clause for an UNLINK_SEQ that takes effect says that no entry of a translation buffer that begins in the sequence's
4 GiB remains, and an entry of no bytes at the sequence's base meets no range (R187), so that it stays. In `unlinkState` die 0 holds one.
A walk fills in entries of whole pages, so it is the clause's reach over every state that fails, not the tier manager's behaviour: it
lacks the hypothesis that entries have bytes, or the test of the clause for FREE, which asks whether ranges meet. -/
theorem not_tierCommands : ¬ Obligations.TierCommands := by
  unfold Obligations.TierCommands
  rintro ⟨-, -, -, -, -, -, -, -, -, -, hunlinks⟩
  have hop : (5 : Nat) ≠ 2 := by decide
  have hidle : unlinkState.transferRanges = [] := rfl
  obtain ⟨t, hexec, -, -, -, hgone, -⟩ := hunlinks ⟨5, 0, 0, 0, 0⟩ unlinkState rfl rfl hidle
  have heffect := exec_tierUnmapTakeEffect_of_unlink (p := ⟨5, 0, 0, 0, 0⟩) (s := unlinkState) rfl hop hidle
  clear hidle
  have ht := Host.Outcome.next.inj (heffect.symm.trans hexec)
  have hentry : (⟨0, 0, 0, 0⟩ : TlbEntry) ∈ unlinkState.tlbOf 0 := by simp [unlinkState, State.tlbOf, Sparse.get]
  have hmissed : TlbEntry.meets ⟨0, 0, 0, 0⟩ 0 ((unlinkState.kvEntry 0).base * 0x100000000) 0x100000000 = false :=
    TlbEntry.not_meets_of_end_le (Nat.zero_le _) _ _
  have hbuffers : t.tlb = (unlinkState.tlbDrop
      (fun e => e.meets 0 ((unlinkState.kvEntry 0).base * 0x100000000) 0x100000000)).tlb := by
    rw [← ht, State.tierDone, State.tierStatus, State.setFld_tlb, State.setFld_tlb]
  have hstays : (⟨0, 0, 0, 0⟩ : TlbEntry) ∈ t.tlbOf 0 := by
    rw [State.tlbOf, hbuffers]
    exact State.mem_tlbOf_tlbDrop hentry hmissed
  exact hgone 0 _ hstays ⟨rfl, rfl⟩

end Sys2Proof.Machine
end

section
/-! The statement about translation walks and memory scrubs (chapter 10): what a walk puts into a translation buffer, and what a fault
that finds no entry reports. -/

namespace Sys2Proof.Machine

/-! ### Fields of two words (R5) -/

theorem State.reg64_lt (s : State) (a : Nat) : s.reg64 a < 2 ^ 64 := by
  have hlow := (s.reg a).isLt
  have hhigh := (s.reg (a + 4)).isLt
  unfold State.reg64
  omega

/-- A field that takes up a pair of registers reads the pair. -/
theorem State.fld_pair (s : State) (a : Nat) : s.fld ⟨a, 0, 64⟩ = s.reg64 a := by
  have hlt := s.reg64_lt a
  rw [State.fld, if_neg (by simp), bits, pow_zero, Nat.div_one, Nat.mod_eq_of_lt hlt]

/-- A field that takes up a pair of registers is written as the pair. -/
theorem State.setFld_pair (s : State) (a v : Nat) : s.setFld ⟨a, 0, 64⟩ v = s.setReg64 a (v % 2 ^ 64) := by
  have hlt := s.reg64_lt a
  have hbits : setBits (s.reg64 a) 0 64 v = v % 2 ^ 64 := by
    unfold setBits
    omega
  rw [State.setFld, if_neg (by simp), hbits]

/-! ### Faults of translation (R186) -/

/-- The registers that the report of an access without an entry moves on a die. -/
def unmappedRegs (die : Nat) : List Nat :=
  [Reg.XLT_FAULT_LAST die, Reg.XLT_FAULT_VA die, Reg.XLT_FAULT_VA die + 4] ++ (Ev.XLT_EVT_STATUS_unmapped die).regs

theorem State.xltFault_unmapped (s : State) (die k va : Nat) : s.xltFault die k 0x0201 va =
    ((((s.event (Ev.XLT_EVT_STATUS_unmapped die)).setFld (Fld.XLT_FAULT_LAST_ctx_id die) k).setFld
      (Fld.XLT_FAULT_LAST_code die) 0x0201).setFld (Fld.XLT_FAULT_VA_va die) va) := by
  rw [State.xltFault, if_neg (by decide), if_pos rfl]

/-- An access without an entry is counted on its die, with its context and address. -/
theorem State.xltFault_unmapped_effect (s : State) (die : Nat) {k va : Nat} (hk : k < 64) (hva : va < 2 ^ 48) {t : State}
    (ht : t = s.xltFault die k 0x0201 va) :
    Counted s t (Ev.XLT_EVT_STATUS_unmapped die) ∧ t.fld (Fld.XLT_FAULT_LAST_ctx_id die) = k ∧
      t.fld (Fld.XLT_FAULT_LAST_code die) = 0x0201 ∧ t.fld (Fld.XLT_FAULT_VA_va die) = va ∧ t = { s with regs := t.regs } ∧
      RegsKept s t (unmappedRegs die) := by
  obtain ⟨m, hm⟩ : ∃ m, m = ((s.event (Ev.XLT_EVT_STATUS_unmapped die)).setFld (Fld.XLT_FAULT_LAST_ctx_id die) k).setFld
    (Fld.XLT_FAULT_LAST_code die) 0x0201 := ⟨_, rfl⟩
  have hvalue : t = m.setReg64 (Reg.XLT_FAULT_VA die) (va % 2 ^ 64) := by
    rw [ht, hm, ← State.setFld_pair, State.xltFault_unmapped]
  have hcounted : Counted s m (Ev.XLT_EVT_STATUS_unmapped die) := by
    rw [hm]
    exact ((counted_event s (e := Ev.XLT_EVT_STATUS_unmapped die) (by simp [Ev.XLT_EVT_STATUS_unmapped])
      (by simp [Ev.XLT_EVT_STATUS_unmapped])).setFld k (by simp) (by simp [Ev.XLT_EVT_STATUS_unmapped])
      (by simp [Ev.XLT_EVT_STATUS_unmapped])).setFld _ (by simp) (by simp [Ev.XLT_EVT_STATUS_unmapped])
      (by simp [Ev.XLT_EVT_STATUS_unmapped])
  have hkept {a : Nat} (ha : a ≠ Reg.XLT_FAULT_VA die) (ha' : a ≠ Reg.XLT_FAULT_VA die + 4) : t.reg a = m.reg a := by
    rw [hvalue, State.reg_setReg64_ne _ _ ha ha']
  have hoffset {o : Nat} (ho : o ≠ 0x60028 ∧ o ≠ 0x6002C) : t.reg (die * 0x1000000 + o) = m.reg (die * 0x1000000 + o) :=
    hkept (a := die * 0x1000000 + o) (by rw [Reg.XLT_FAULT_VA]; omega) (by rw [Reg.XLT_FAULT_VA]; omega)
  have hctx : m.fld (Fld.XLT_FAULT_LAST_ctx_id die) = k := by
    rw [hm, State.fld_setFld_ne _ _ (by simp) (by simp) (by simp), State.fld_setFld_same _ _ (by simp)]
    exact Nat.mod_eq_of_lt hk
  have hcode : m.fld (Fld.XLT_FAULT_LAST_code die) = 0x0201 := by
    rw [hm, State.fld_setFld_same _ _ (by simp)]
    exact Nat.mod_eq_of_lt (by simp)
  refine ⟨⟨?_, ?_⟩, ?_, ?_, ?_, ht ▸ (CountsIn.xltFault s die k 0x0201 va).only, fun a ha => ?_⟩
  · exact (congrArg (·.getLsbD 0) (hoffset (o := 0x60000) (by decide))).trans hcounted.1
  · exact (congrArg BitVec.toNat (hoffset (o := 0x60004) (by decide))).trans hcounted.2
  · exact (State.fld_of_reg (f := Fld.XLT_FAULT_LAST_ctx_id die) (by simp) (hoffset (o := 0x60020) (by decide))).trans hctx
  · exact (State.fld_of_reg (f := Fld.XLT_FAULT_LAST_code die) (by simp) (hoffset (o := 0x60020) (by decide))).trans hcode
  · rw [State.fld_pair, hvalue, State.reg64_setReg64]
    omega
  · simp only [unmappedRegs, Evt.regs, Ev.XLT_EVT_STATUS_unmapped, List.cons_append, List.nil_append, List.mem_cons, List.not_mem_nil,
      or_false, not_or] at ha
    obtain ⟨hlast, hva, hva', hstatus, hcounter⟩ := ha
    rw [hkept hva hva', hm, State.reg_setFld_ne _ _ (by simp) hlast, State.reg_setFld_ne _ _ (by simp) hlast,
      State.reg_event_ne _ hstatus hcounter]

/-! ### Walks (R184) -/

theorem pageBytes_pos (page : Nat) : 0 < pageBytes page := by
  unfold pageBytes
  split
  · decide
  · split
    · decide
    · decide

section Walk
variable {s : State} {die k va : Nat} {write : Bool} {e : TlbEntry}

theorem exec_tlbWalk_of_ok {x : Target} (h : s.translate (.engine die) (if write then .engineWrite else .read) k va = .ok x) :
    exec (.tlbWalk die k va write) s = .next (s.walked die k va) := by
  change execTlbWalk die k va write s = _
  simp only [execTlbWalk, h]

theorem exec_tlbWalk_of_error {code : Nat}
    (h : s.translate (.engine die) (if write then .engineWrite else .read) k va = .error code) :
    exec (.tlbWalk die k va write) s = .next ((s.walked die k va).xltFault die k code va) := by
  change execTlbWalk die k va write s = _
  simp only [execTlbWalk, h]

/-- An address that translates is not about to be unmapped (R179). -/
theorem State.unmapPending_of_translate {who : Master} {acc : Access} {x : Target} (h : s.translate who acc k va = .ok x) :
    s.unmapPending k va = false := by
  unfold State.translate at h
  split at h
  · cases h
  · split at h
    · cases h
    · next hpending => exact Bool.eq_false_of_not_eq_true hpending

theorem State.walked_of_hit (h : s.tlbHit die k va = true) : s.walked die k va = s := if_pos (by rw [h, Bool.true_or])

/-- A miss is filled with what the walk finds, at the end of a buffer that has room. -/
theorem State.walked_of_miss (hmiss : s.tlbHit die k va = false) (hpending : s.unmapPending k va = false)
    (hwalk : s.walkEntry k va = some e) (hroom : (s.tlbOf die).length + s.lockedOn die < 4096) :
    s.walked die k va = { s with tlb := Sparse.put (fun _ => []) s.tlb die (s.tlbOf die ++ [e]) } := by
  rw [State.walked, hmiss, hpending, hwalk]
  exact if_pos hroom

/-- What a walk finds is an entry of its context for a page that holds the address. -/
theorem State.walkEntry_covers (h : s.walkEntry k va = some e) : e.ctx = k ∧ e.va ≤ va ∧ va < e.va + e.len := by
  unfold State.walkEntry at h
  extract_lets w n at h
  have hn : 0 < n := by
    unfold n
    cases s.mapping? k va with
    | none => decide
    | some m => exact pageBytes_pos m.page
  split at h
  · cases h
  · cases h
    refine ⟨rfl, Nat.div_mul_le_self va n, ?_⟩
    exact Nat.lt_div_mul_add hn

/-- A buffer that holds an entry for an address serves it. -/
theorem State.tlbHit_of_mem (hmem : e ∈ s.tlbOf die) (hctx : e.ctx = k) (hlo : e.va ≤ va) (hhi : va < e.va + e.len) :
    s.tlbHit die k va = true := by
  rw [State.tlbHit, List.any_eq_true.mpr ⟨e, hmem, by simp [hctx, hlo, hhi]⟩, Bool.true_or]

/-- A walk that finds an entry puts it into the buffer of its die, which serves the address from then on. -/
theorem State.walked_fills (hmiss : s.tlbHit die k va = false) (hpending : s.unmapPending k va = false)
    (hwalk : s.walkEntry k va = some e) (hroom : (s.tlbOf die).length + s.lockedOn die < 4096) {t : State} (ht : t = s.walked die k va) :
    t.tlbOf die = s.tlbOf die ++ [e] ∧ t.tlbHit die k va = true ∧ (∀ d, d ≠ die → t.tlbOf d = s.tlbOf d) ∧
      t = { s with tlb := t.tlb } := by
  rw [State.walked_of_miss hmiss hpending hwalk hroom] at ht
  have hbuffer : t.tlbOf die = s.tlbOf die ++ [e] := ht ▸ Sparse.get_put_same
  obtain ⟨hctx, hlo, hhi⟩ := State.walkEntry_covers hwalk
  refine ⟨hbuffer, State.tlbHit_of_mem (e := e) (by simp [hbuffer]) hctx hlo hhi, fun d hd => ?_, ?_⟩
  · rw [ht]
    exact Sparse.get_put_ne hd
  · rw [ht]

/-- A walk that finds no entry faults, and what it leaves in the buffers is all else that it changes. -/
theorem tlbWalk_unmapped (hk : k < 64) (hva : va < 2 ^ 48)
    (h : s.translate (.engine die) (if write then .engineWrite else .read) k va = .error 0x0201) :
    ∃ t, exec (.tlbWalk die k va write) s = .next t ∧ Counted s t (Ev.XLT_EVT_STATUS_unmapped die) ∧
      t.fld (Fld.XLT_FAULT_LAST_ctx_id die) = k ∧ t.fld (Fld.XLT_FAULT_LAST_code die) = 0x0201 ∧ t.fld (Fld.XLT_FAULT_VA_va die) = va ∧
      t = { s.walked die k va with regs := t.regs } ∧ RegsKept s t (unmappedRegs die) := by
  have hregs : (s.walked die k va).regs = s.regs := (congrArg State.regs (s.walked_only die k va) :)
  obtain ⟨hcounted, hctx, hcode, hat, honly, hkept⟩ := (s.walked die k va).xltFault_unmapped_effect die hk hva rfl
  exact ⟨_, exec_tlbWalk_of_error h, hcounted.since (State.reg_congr hregs _), hctx, hcode, hat, honly,
    fun a ha => (hkept a ha).trans (State.reg_congr hregs a)⟩

end Walk

/-! ### Scrubs (R188, R343, R346) -/

theorem exec_memoryScrub_of_place {addr : Nat} {e : Ecc} (s : State) (hexists : physExists addr = true)
    (ht2 : addr < 0x2000000000 ∨ 0x3000000000 ≤ addr) :
    exec (.memoryScrub (some addr) e) s = .next (if eccLost e then s.report 0x0B 0 else s) :=
  if_neg (by simp only [hexists, Bool.true_eq_false, false_or]; omega)

theorem exec_memoryScrub_of_nowhere {addr : Nat} (e : Ecc) (s : State) (h : physExists addr = false) :
    exec (.memoryScrub (some addr) e) s = .fault .noSuchMemory := if_pos (.inl h)

theorem eccLost_of_uncorrected {e : Ecc} (h : (∃ tile line, e = .uncorrectable tile line) ∨ e = .external) : eccLost e = true := by
  obtain ⟨tile, line, rfl⟩ | rfl := h
  · rfl
  · rfl

theorem eccLost_of_corrected {e : Ecc} (h : e = .clean ∨ ∃ tile line, e = .corrected tile line) : eccLost e = false := by
  obtain rfl | ⟨tile, line, rfl⟩ := h
  · rfl
  · rfl

/-! ### The obligation -/

/-- Settles O34: an access that its buffer serves, and a miss that is filled, by the walk's entry; a miss that finds none, by the fault
that it reports; scrubs, by the outcome of their error-correcting code. -/
theorem walksAndScrubs : Obligations.WalksAndScrubs := by
  unfold Obligations.WalksAndScrubs
  refine ⟨?hits, ?fills, ?faults, ?corrects, ?reports, ?reportsOwn, ?nowhere⟩
  case hits =>
    intro die k va p write s hok hhit
    rw [exec_tlbWalk_of_ok hok, State.walked_of_hit hhit]
  case fills =>
    intro die k va p write e s hok hmiss hwalk hroom
    exact ⟨_, exec_tlbWalk_of_ok hok, State.walked_fills hmiss (State.unmapPending_of_translate hok) hwalk hroom rfl⟩
  case faults => exact fun die k va write s hk hva hfault => tlbWalk_unmapped hk hva hfault
  case corrects =>
    intro addr e s hexists ht2 he
    rw [exec_memoryScrub_of_place s hexists ht2, eccLost_of_corrected he]
    rfl
  case reports =>
    intro addr e s hexists ht2 he
    rw [exec_memoryScrub_of_place s hexists ht2, eccLost_of_uncorrected he]
    exact ⟨_, rfl, rfl⟩
  case reportsOwn =>
    intro e s he
    refine ⟨_, congrArg Host.Outcome.next (if_pos (eccLost_of_uncorrected he)), rfl⟩
  case nowhere => exact fun addr e s => exec_memoryScrub_of_nowhere e s

end Sys2Proof.Machine
end

section
/-! The statement about the flash store (chapter 10): reads and writes of its bytes, commits of its journal, and the moves of blocks. -/

namespace Sys2Proof.Machine

/-! ### Events over a state with the same registers (R8) -/

/-- An event counts from every state with the registers that it finds. -/
theorem counted_of_regs {s u t : State} {e : Evt} (hregs : u.regs = s.regs) (ht : t.regs = (u.event e).regs) (he : e.status ≠ e.counter)
    (hb : e.bit < 32) : Counted s t e := by
  have hcounted := (counted_event u he hb).since (State.reg_congr hregs _)
  rwa [Counted, ← State.reg_congr ht, ← State.reg_congr ht] at hcounted

theorem regsKept_of_regs {s u t : State} {e : Evt} (hregs : u.regs = s.regs) (ht : t.regs = (u.event e).regs) : RegsKept s t e.regs :=
  fun a ha => (State.reg_congr ht a).trans ((regsKept_event u e a ha).trans (State.reg_congr hregs a))

/-! ### Reads of a codeword (R194, R195) -/

section Read
variable {s : State} {word b : Nat} {d : FlashDecode}

theorem exec_flashRead_of_online (hword : word / 16 < 33554432) (hopen : s.blkOpen 1 0x43 = true) (hmode : s.fld Fld.FTL_STATUS_mode ≠ 0)
    {o : FlashDecode} (ho : s.readOutcome word d = o) :
    exec (.flashRead word d) s = .next
      { ((s.readCodeword word o).noteActive 2).eventIf (o = .uncorrectable) Ev.FTL_EVT_STATUS_uncorr with
        answer := leBytes 2 (if o = .uncorrectable then 0x0401 else 0) } := by
  subst ho
  change execFlashRead word d s = _
  rw [execFlashRead, if_neg hword.not_ge, hopen, if_neg hmode]
  rfl

theorem exec_flashRead_of_offline (hword : word / 16 < 33554432) (hopen : s.blkOpen 1 0x43 = true)
    (hmode : s.fld Fld.FTL_STATUS_mode = 0) : exec (.flashRead word d) s = .next { s with answer := leBytes 2 0x0403 } := by
  change execFlashRead word d s = _
  rw [execFlashRead, if_neg hword.not_ge, hopen, if_pos hmode]
  rfl

theorem State.readOutcome_of_good (h : word ∉ s.flash.bad) (d : FlashDecode) : s.readOutcome word d = d := if_neg (by simpa using h)

theorem State.readOutcome_of_uncorrectable (h : d = .uncorrectable ∨ word ∈ s.flash.bad) : s.readOutcome word d = .uncorrectable := by
  unfold State.readOutcome
  split
  · rfl
  · next hgood => exact h.resolve_right (by simpa using hgood)

theorem State.countRead_of_unmapped {unit : Nat} (h : s.flash.map.find? (fun p => p.1 == unit) = none) (shifts : Nat) :
    s.countRead unit shifts = s := by
  rw [State.countRead, h]

/-- A read that is counted moves the counts of reads and the queue of relocations alone. -/
theorem State.countRead_only (s : State) (unit shifts : Nat) : ∃ reads relocate,
    s.countRead unit shifts = { s with flash := { s.flash with reads := reads, relocate := relocate } } := by
  unfold State.countRead
  split
  · exact ⟨_, _, rfl⟩
  · extract_lets f n f1
    split
    · exact ⟨_, _, rfl⟩
    · exact ⟨_, _, rfl⟩

theorem FlashStore.mem_relocate_queue (f : FlashStore) (b : Nat) : b ∈ (f.queue b).relocate := by
  unfold FlashStore.queue
  split
  · next h => simpa using h
  · simp

/-- A read of a unit that a block holds is counted for that block, which the threshold queues for relocation. -/
theorem State.countRead_counts {unit : Nat} (h : s.flash.map.find? (fun p => p.1 == unit) = some (unit, b)) {t : State}
    (ht : t = s.countRead unit 0) :
    Sparse.get (fun _ => 0) t.flash.reads b = Sparse.get (fun _ => 0) s.flash.reads b + 1 ∧
      (∀ c, c ≠ b → Sparse.get (fun _ => 0) t.flash.reads c = Sparse.get (fun _ => 0) s.flash.reads c) ∧
      (max (s.fld Fld.FTL_RD_THRESH_reads) 10000 ≤ Sparse.get (fun _ => 0) t.flash.reads b → b ∈ t.flash.relocate) := by
  have hreads : t.flash.reads = Sparse.put (fun _ => 0) s.flash.reads b (Sparse.get (fun _ => 0) s.flash.reads b + 1) := by
    rw [ht, State.countRead, h]
    dsimp only
    split
    · rfl
    · rfl
  have hcount : Sparse.get (fun _ => 0) t.flash.reads b = Sparse.get (fun _ => 0) s.flash.reads b + 1 := by
    rw [hreads, Sparse.get_put_same]
  refine ⟨hcount, fun c hc => ?_, fun hqueue => ?_⟩
  · rw [hreads, Sparse.get_put_ne hc]
  · rw [hcount] at hqueue
    rw [ht, State.countRead, h]
    dsimp only
    rw [if_pos (.inl hqueue)]
    exact FlashStore.mem_relocate_queue _ b

/-- A codeword that needs no help is answered with 0, and counts one read of the block that holds it. -/
theorem flashRead_clean (hword : word / 16 < 33554432) (hopen : s.blkOpen 1 0x43 = true) (hmode : s.fld Fld.FTL_STATUS_mode ≠ 0)
    (hgood : word ∉ s.flash.bad) {t : State} (ht : t = { (s.countRead (word / 16) 0).noteActive 2 with answer := leBytes 2 0 }) :
    exec (.flashRead word (.hard false)) s = .next t ∧ t.flash.bytes = s.flash.bytes ∧ t.flash.bad = s.flash.bad ∧ t.regs = s.regs ∧
      t = { s with flash := t.flash, answer := t.answer, power := t.power } := by
  obtain ⟨reads, relocate, hread⟩ := s.countRead_only (word / 16) 0
  refine ⟨?_, ?_⟩
  · rw [exec_flashRead_of_online hword hopen hmode (State.readOutcome_of_good hgood _), ht]
    rfl
  · rw [hread] at ht
    subst ht
    exact ⟨rfl, rfl, rfl, rfl⟩

/-- A codeword that cannot be corrected is noted as unreadable. -/
theorem State.readCodeword_uncorrectable (s : State) (word : Nat) {u : State} (hu : u = (s.readCodeword word .uncorrectable).noteActive 2) :
    (∀ c, c ∈ u.flash.bad ↔ c = word ∨ c ∈ s.flash.bad) ∧ u.flash.bytes = s.flash.bytes ∧ u.regs = s.regs ∧
      u = { s with flash := u.flash, power := u.power } := by
  obtain ⟨reads, relocate, hread⟩ := s.countRead_only (word / 16) 8
  rw [State.readCodeword, hread] at hu
  subst hu
  refine ⟨fun c => ?_, rfl, rfl, rfl⟩
  change c ∈ (if s.flash.bad.contains word then s.flash.bad else word :: s.flash.bad) ↔ _
  split
  · next hbad =>
    have hmem : word ∈ s.flash.bad := by simpa using hbad
    exact ⟨.inr, fun hc => hc.elim (fun hc => hc ▸ hmem) id⟩
  · exact List.mem_cons

theorem exec_flashRead_of_uncorrectable (hword : word / 16 < 33554432) (hopen : s.blkOpen 1 0x43 = true)
    (hmode : s.fld Fld.FTL_STATUS_mode ≠ 0) (h : d = .uncorrectable ∨ word ∈ s.flash.bad) :
    exec (.flashRead word d) s = .next
      { ((s.readCodeword word .uncorrectable).noteActive 2).event Ev.FTL_EVT_STATUS_uncorr with answer := leBytes 2 0x0401 } :=
  exec_flashRead_of_online hword hopen hmode (State.readOutcome_of_uncorrectable h)

/-- A codeword that cannot be corrected is answered with 0x0401, counted, and noted as unreadable. -/
theorem flashRead_uncorrectable (hword : word / 16 < 33554432) (hopen : s.blkOpen 1 0x43 = true) (hmode : s.fld Fld.FTL_STATUS_mode ≠ 0)
    (h : d = .uncorrectable ∨ word ∈ s.flash.bad) :
    ∃ t, exec (.flashRead word d) s = .next t ∧ t.answer = leBytes 2 0x0401 ∧ (∀ c, c ∈ t.flash.bad ↔ c = word ∨ c ∈ s.flash.bad) ∧
      t.flash.bytes = s.flash.bytes ∧ Counted s t Ev.FTL_EVT_STATUS_uncorr ∧ RegsKept s t Ev.FTL_EVT_STATUS_uncorr.regs ∧
      t = { s with answer := t.answer, regs := t.regs, flash := t.flash, power := t.power } := by
  have hexec := exec_flashRead_of_uncorrectable hword hopen hmode h
  generalize hu : (s.readCodeword word .uncorrectable).noteActive 2 = u at hexec
  rw [State.event_withRegs] at hexec
  obtain ⟨hbad, hbytes, hregs, honly⟩ := s.readCodeword_uncorrectable word hu.symm
  exact ⟨_, hexec, rfl, hbad, hbytes, counted_of_regs hregs rfl (by decide) (by decide), regsKept_of_regs hregs rfl,
    (congrArg (fun v : State => { v with
      answer := leBytes 2 0x0401, regs := (u.event Ev.FTL_EVT_STATUS_uncorr).regs }) honly :)⟩

end Read

/-! ### Writes (R194, R197) -/

/-- A table after writes to other keys. -/
theorem Sparse.get_foldl_put_ne {α β : Type} [DecidableEq α] {d : Nat → α} {key : β → Nat} {value : β → α} {xs : List β} {k : Nat}
    (h : ∀ x ∈ xs, key x ≠ k) (m : Sparse α) :
    Sparse.get d (xs.foldl (fun m x => Sparse.put d m (key x) (value x)) m) k = Sparse.get d m k :=
  List.foldlRecOn (motive := fun n => Sparse.get d n k = Sparse.get d m k) xs _ rfl fun _ hn x hx =>
    (Sparse.get_put_ne (h x hx).symm).trans hn

/-- A codeword that is taken up again loses its own bytes and no other. -/
theorem State.bytes_renewCodeword (s : State) {c x : Nat} (h : x / 4096 ≠ c) :
    Sparse.get (fun _ => 0) (s.renewCodeword c).flash.bytes x = Sparse.get (fun _ => 0) s.flash.bytes x := by
  have hother : ∀ i ∈ List.range 4096, c * 4096 + i ≠ x := fun i hi hx => h (by rw [List.mem_range] at hi; omega)
  simp only [State.renewCodeword, Sparse.get_foldl_put_ne hother]

/-- What a write of bytes does to the store (R194, R197): they stand where they were written, every other byte stays unless an unreadable
codeword was taken up for it, the codewords written are readable, and the journal buffer holds as many bytes more. -/
structure Stored (s t : State) (a : Nat) (bs : Bytes) : Prop where
  bytes : ∀ i, i < bs.length → Sparse.get (fun _ => 0) t.flash.bytes (a + i) = bs.getD i 0
  others : ∀ x, (x < a ∨ a + bs.length ≤ x) → x / 4096 ∉ s.flash.bad →
    Sparse.get (fun _ => 0) t.flash.bytes x = Sparse.get (fun _ => 0) s.flash.bytes x
  bad : ∀ c ∈ t.flash.bad, c ∈ s.flash.bad ∧ ∀ i, i < bs.length → c ≠ (a + i) / 4096
  journalBytes : t.flash.journalBytes = s.flash.journalBytes + bs.length
  only : t = { s with flash := t.flash, freeCtr := t.freeCtr }

/-- The codeword that a byte is put into is readable: it is taken up again where it was not. -/
theorem State.flashPut_codeword (s : State) (c : Nat) {m : State} (hm : m = if s.flash.bad.contains c then s.renewCodeword c else s) :
    (∀ x, x / 4096 ∉ s.flash.bad → Sparse.get (fun _ => 0) m.flash.bytes x = Sparse.get (fun _ => 0) s.flash.bytes x) ∧
      (∀ x ∈ m.flash.bad, x ∈ s.flash.bad ∧ x ≠ c) ∧ m.flash.journalBytes = s.flash.journalBytes := by
  by_cases hbad : s.flash.bad.contains c = true
  · rw [if_pos hbad] at hm
    subst hm
    have hmem : c ∈ s.flash.bad := by simpa using hbad
    refine ⟨fun x hx => s.bytes_renewCodeword fun hc => hx (hc ▸ hmem), fun x hx => ?_, by rw [State.renewCodeword]⟩
    rw [State.renewCodeword] at hx
    obtain ⟨hx, hne⟩ := List.mem_filter.mp hx
    exact ⟨hx, by simpa using hne⟩
  · rw [if_neg hbad] at hm
    subst hm
    exact ⟨fun _ _ => rfl, fun x hx => ⟨hx, fun hc => hbad (by simpa using hc ▸ hx)⟩, rfl⟩

theorem stored_flashPut (s : State) (a : Nat) (b : BitVec 8) : Stored s (s.flashPut a b) a [b] := by
  obtain ⟨m, hm⟩ : ∃ m, m = if s.flash.bad.contains (a / 4096) then s.renewCodeword (a / 4096) else s := ⟨_, rfl⟩
  obtain ⟨hothers, hbad, hcount⟩ := s.flashPut_codeword (a / 4096) hm
  have hbytes : (s.flashPut a b).flash.bytes = Sparse.put (fun _ => 0) m.flash.bytes a b := by
    rw [hm]
    rfl
  have hbads : (s.flashPut a b).flash.bad = m.flash.bad := by
    rw [hm]
    rfl
  refine ⟨fun i hi => ?_, fun x hx hgood => ?_, fun c hc => ?_, ?_, s.flashPut_only a b⟩
  · obtain rfl : i = 0 := Nat.lt_one_iff.mp hi
    rw [hbytes]
    exact Sparse.get_put_same
  · have hne : x ≠ a := by
      rw [List.length_singleton] at hx
      omega
    rw [hbytes, Sparse.get_put_ne hne, hothers x hgood]
  · obtain ⟨hc, hne⟩ := hbad c (hbads ▸ hc)
    refine ⟨hc, fun i hi => ?_⟩
    obtain rfl : i = 0 := Nat.lt_one_iff.mp hi
    exact hne
  · rw [← hcount, hm]
    rfl

/-- A write of bytes one after the other: none takes up a codeword again that one before it has written. -/
theorem Stored.cons {s m t : State} {a : Nat} {b : BitVec 8} {bs : Bytes} (hput : Stored s m a [b]) (hputs : Stored m t (a + 1) bs) :
    Stored s t a (b :: bs) := by
  have hreadable : a / 4096 ∉ m.flash.bad := fun hbad => (hput.bad _ hbad).2 0 Nat.one_pos rfl
  refine ⟨fun i hi => ?_, fun x hx hgood => ?_, fun c hc => ?_, ?_, ?_⟩
  · cases i with
    | zero => exact (hputs.others a (.inl (Nat.lt_succ_self a)) hreadable).trans (hput.bytes 0 Nat.one_pos)
    | succ i =>
      have hbyte := hputs.bytes i (Nat.lt_of_succ_lt_succ hi)
      rwa [Nat.add_right_comm a 1 i] at hbyte
  · rw [List.length_cons] at hx
    have hstill : x / 4096 ∉ m.flash.bad := fun hbad => hgood (hput.bad _ hbad).1
    exact (hputs.others x (by omega) hstill).trans (hput.others x (by simp only [List.length_singleton]; omega) hgood)
  · obtain ⟨hm, hlater⟩ := hputs.bad c hc
    obtain ⟨hs, hfirst⟩ := hput.bad c hm
    refine ⟨hs, fun i hi => ?_⟩
    cases i with
    | zero => exact hfirst 0 Nat.one_pos
    | succ i =>
      have hne := hlater i (Nat.lt_of_succ_lt_succ hi)
      rwa [Nat.add_right_comm a 1 i] at hne
  · rw [hputs.journalBytes, hput.journalBytes, List.length_singleton, List.length_cons, Nat.add_assoc, Nat.add_comm 1]
  · exact hputs.only.trans (congrArg (fun u : State => { u with flash := t.flash, freeCtr := t.freeCtr }) hput.only :)

theorem stored_flashPuts (bs : Bytes) (s : State) (a : Nat) : Stored s (s.flashPuts a bs) a bs := by
  induction bs generalizing s a with
  | nil => exact ⟨nofun, fun _ _ _ => rfl, fun _ hc => ⟨hc, nofun⟩, rfl, rfl⟩
  | cons b bs ih => exact (stored_flashPut s a b).cons (ih _ _)

section Write
variable {s : State} {addr : Nat} {data : Bytes}

theorem exec_flashWrite_of_writable (hend : addr + data.length ≤ 33554432 * 65536) (hopen : s.blkOpen 1 0x43 = true)
    (hmode : s.fld Fld.FTL_STATUS_mode = 2) :
    exec (.flashWrite addr data) s = .next { (s.flashPuts addr data).noteActive 2 with answer := leBytes 2 0 } := by
  have hwritable : s.flashWritable = 0 := by
    rw [State.flashWritable, hmode]
    rfl
  change execFlashWrite addr data s = _
  rw [execFlashWrite, if_neg hend.not_gt, hopen, hwritable]
  rfl

theorem exec_flashWrite_of_refused (hend : addr + data.length ≤ 33554432 * 65536) (hopen : s.blkOpen 1 0x43 = true)
    (hmode : s.fld Fld.FTL_STATUS_mode = 0 ∨ s.fld Fld.FTL_STATUS_mode = 1) :
    exec (.flashWrite addr data) s = .next
      { s with answer := leBytes 2 (if s.fld Fld.FTL_STATUS_mode = 0 then 0x0403 else 0x0405) } := by
  change execFlashWrite addr data s = _
  rw [execFlashWrite, if_neg hend.not_gt, hopen]
  obtain hmode | hmode := hmode
  · rw [State.flashWritable, hmode]
    rfl
  · rw [State.flashWritable, hmode]
    rfl

/-- A write in READ_WRITE stores its bytes. -/
theorem flashWrite_stores (hend : addr + data.length ≤ 33554432 * 65536) (hopen : s.blkOpen 1 0x43 = true)
    (hmode : s.fld Fld.FTL_STATUS_mode = 2) :
    ∃ t, exec (.flashWrite addr data) s = .next t ∧ t.answer = leBytes 2 0 ∧
      (∀ i, i < data.length → Sparse.get (fun _ => 0) t.flash.bytes (addr + i) = data.getD i 0) ∧
      (∀ a, (a < addr ∨ addr + data.length ≤ a) → a / 4096 ∉ s.flash.bad →
        Sparse.get (fun _ => 0) t.flash.bytes a = Sparse.get (fun _ => 0) s.flash.bytes a) ∧
      (∀ c ∈ t.flash.bad, c ∈ s.flash.bad ∧ ∀ i, i < data.length → c ≠ (addr + i) / 4096) ∧
      t.flash.journalBytes = s.flash.journalBytes + data.length ∧ t.regs = s.regs ∧
      t = { s with flash := t.flash, answer := t.answer, power := t.power, freeCtr := t.freeCtr } := by
  obtain ⟨hbytes, hothers, hbad, hcount, honly⟩ := stored_flashPuts data s addr
  refine ⟨_, exec_flashWrite_of_writable hend hopen hmode, rfl, hbytes, hothers, hbad, hcount, ?_, ?_⟩
  · exact (congrArg State.regs honly :)
  · rw [honly]
    rfl

end Write

/-! ### Commits of the journal (R197) -/

/-- A commit empties the journal buffer, counts its units and changes no byte. -/
theorem State.commitJournal_effect (s : State) {t : State} (ht : t = s.commitJournal) :
    t.flash.journal = [] ∧ t.flash.journalBytes = 0 ∧ t.flash.lastCommit = s.now ∧ t.flash.bytes = s.flash.bytes ∧
      t.flash.bad = s.flash.bad ∧
      t.reg64 Reg.FTL_UNITS_WRITTEN = (s.reg64 Reg.FTL_UNITS_WRITTEN + s.flash.journal.length) % 2 ^ 64 ∧
      t = { s with regs := t.regs, flash := t.flash } ∧ RegsKept s t [Reg.FTL_UNITS_WRITTEN, Reg.FTL_UNITS_WRITTEN + 4] := by
  subst ht
  refine ⟨rfl, rfl, rfl, rfl, rfl, s.reg64_count64 Reg.FTL_UNITS_WRITTEN _, rfl, fun a ha => ?_⟩
  simp only [List.mem_cons, List.not_mem_nil, or_false, not_or] at ha
  exact s.reg_setReg64_ne _ ha.1 ha.2

theorem exec_journalCommit_of_due {s : State} (hopen : s.blkOpen 1 0x43 = true) (hmode : s.fld Fld.FTL_STATUS_mode ≠ 0)
    (hdue : s.flash.lastCommit + 4000000 ≤ s.now ∨ 0x4000000 ≤ s.flash.journalBytes) :
    exec .journalCommit s = .next (s.commitJournal.noteActive 2) :=
  congrArg Host.Outcome.next (if_pos ⟨hopen, hmode, hdue⟩)

theorem journalCommit_empties {s : State} (hopen : s.blkOpen 1 0x43 = true) (hmode : s.fld Fld.FTL_STATUS_mode ≠ 0)
    (hdue : s.flash.lastCommit + 4000000 ≤ s.now ∨ 0x4000000 ≤ s.flash.journalBytes) :
    ∃ t, exec .journalCommit s = .next t ∧ t.flash.journal = [] ∧ t.flash.journalBytes = 0 ∧ t.flash.lastCommit = s.now ∧
      t.flash.bytes = s.flash.bytes ∧ t.flash.bad = s.flash.bad ∧
      t.reg64 Reg.FTL_UNITS_WRITTEN = (s.reg64 Reg.FTL_UNITS_WRITTEN + s.flash.journal.length) % 2 ^ 64 ∧
      t = { s with regs := t.regs, flash := t.flash, power := t.power } ∧
      RegsKept s t [Reg.FTL_UNITS_WRITTEN, Reg.FTL_UNITS_WRITTEN + 4] := by
  have hexec := exec_journalCommit_of_due hopen hmode hdue
  generalize hu : s.commitJournal = u at hexec
  obtain ⟨hjournal, hpending, hlast, hbytes, hbad, hunits, honly, hkept⟩ := s.commitJournal_effect hu.symm
  exact ⟨_, hexec, hjournal, hpending, hlast, hbytes, hbad, hunits,
    (congrArg (fun v : State => { v with power := (u.noteActive 2).power }) honly :), hkept⟩

/-! ### Moves of blocks (R195, R196) -/

section Move
variable {f : FlashStore} {src dst u : Nat}

theorem FlashStore.mem_map_move (h : (u, src) ∈ f.map) : (u, dst) ∈ (f.move src dst).map :=
  List.mem_map.mpr ⟨_, h, if_pos rfl⟩

/-- A block whose units have moved holds none. -/
theorem FlashStore.not_mem_map_move (hne : src ≠ dst) : (u, src) ∉ (f.move src dst).map := by
  intro h
  obtain ⟨p, -, hp⟩ := List.mem_map.mp h
  split at hp
  · exact hne (congrArg Prod.snd hp).symm
  · next hsrc => exact hsrc (congrArg Prod.snd hp)

theorem FlashStore.isFree_move (hne : src ≠ dst) :
    (f.move src dst).isFree src = (!f.retired.contains src && !f.factoryBad.contains src) := by
  have hempty : (f.move src dst).map.any (fun p => p.2 == src) = false := by
    rw [List.any_eq_false]
    rintro ⟨v, b⟩ hp hb
    rw [beq_iff_eq] at hb
    subst hb
    exact FlashStore.not_mem_map_move hne hp
  rw [FlashStore.isFree, hempty]
  rfl

theorem FlashStore.erases_move :
    Sparse.get (fun _ => 0) (f.move src dst).erases src = Sparse.get (fun _ => 0) f.erases src + 1 := by
  simp only [FlashStore.move, Sparse.get_put_same]

theorem FlashStore.not_mem_relocate_move : src ∉ (f.move src dst).relocate := by simp [FlashStore.move]

end Move

section Block
variable {s : State} {block fresh : Nat}

theorem exec_flashRelocation_of_queued (hopen : s.blkOpen 1 0x43 = true) (hqueued : block ∈ s.flash.relocate)
    (hfree : s.flash.isFree fresh = true) (hne : block ≠ fresh) (hmode : s.fld Fld.FTL_STATUS_mode = 2) :
    exec (.flashRelocation block fresh) s =
      .next ({ s.noteActive 2 with flash := s.flash.move block fresh }.event Ev.FTL_EVT_STATUS_relocate) :=
  congrArg Host.Outcome.next (if_pos (by simp [hopen, hqueued, hfree, hne, hmode]))

/-- A relocation moves the block's units, leaves the queue and is counted. -/
theorem flashRelocation_moves (hopen : s.blkOpen 1 0x43 = true) (hqueued : block ∈ s.flash.relocate)
    (hfree : s.flash.isFree fresh = true) (hne : block ≠ fresh) (hmode : s.fld Fld.FTL_STATUS_mode = 2) :
    ∃ t, exec (.flashRelocation block fresh) s = .next t ∧ t.flash = s.flash.move block fresh ∧
      Counted s t Ev.FTL_EVT_STATUS_relocate ∧ t = { s with regs := t.regs, flash := t.flash, power := t.power } ∧
      RegsKept s t Ev.FTL_EVT_STATUS_relocate.regs := by
  have hexec := exec_flashRelocation_of_queued hopen hqueued hfree hne hmode
  generalize hu : ({ s.noteActive 2 with flash := s.flash.move block fresh } : State) = u at hexec
  have hregs : u.regs = s.regs := hu ▸ rfl
  have honly : u = { s with flash := s.flash.move block fresh, power := u.power } := hu ▸ rfl
  have hflash := congrArg State.flash hu.symm
  exact ⟨_, hexec, hflash, counted_of_regs hregs rfl (by decide) (by decide),
    (congrArg (fun v : State => { v with regs := (u.event Ev.FTL_EVT_STATUS_relocate).regs, flash := u.flash }) honly :),
    regsKept_of_regs hregs rfl⟩

theorem exec_wearLevelling_of_spread (hopen : s.blkOpen 1 0x43 = true) (hspread : 256 < s.flash.spread)
    (hfree : s.flash.isFree fresh = true) (hne : block ≠ fresh) (hused : s.flash.map.any (fun p => p.2 == block) = true)
    (hleast : ∀ p ∈ s.flash.map, Sparse.get (fun _ => 0) s.flash.erases block ≤ Sparse.get (fun _ => 0) s.flash.erases p.2)
    (hmode : s.fld Fld.FTL_STATUS_mode = 2) :
    exec (.wearLevelling block fresh) s = .next { s.noteActive 2 with flash := s.flash.move block fresh } := by
  have hall : s.flash.map.all (fun p => decide
      (Sparse.get (fun _ => 0) s.flash.erases block ≤ Sparse.get (fun _ => 0) s.flash.erases p.2)) = true := by
    simpa using hleast
  exact congrArg Host.Outcome.next (if_pos (by simp only [hopen, hspread, hfree, hused, hall, hmode]; simp [hne]))

/-! ### BLOCK_RETIRE (R196, R198) -/

/-- The store with a block's units moved and the block retired. -/
def FlashStore.retire (f : FlashStore) (block fresh : Nat) : FlashStore :=
  { f.move block fresh with retired := f.retired ++ [block] }

/-- A retired block is never free again. -/
theorem FlashStore.isFree_retire (f : FlashStore) (block fresh : Nat) : (f.retire block fresh).isFree block = false := by
  simp [FlashStore.isFree, FlashStore.retire]

/-- The state once a block is retired and the retirement counted. -/
def State.retireBlock (s : State) (block fresh : Nat) : State :=
  { s.noteActive 2 with flash := s.flash.retire block fresh }.event Ev.FTL_EVT_STATUS_retire

theorem exec_blockRetire_of_failed (hopen : s.blkOpen 1 0x43 = true) (hin : block ∉ s.flash.retired)
    (hfree : s.flash.isFree fresh = true) (hne : block ≠ fresh) :
    exec (.blockRetire block fresh) s = .next (if (s.retireBlock block fresh).spareBlocks * 50 < Config.flashBlocks
      then (s.retireBlock block fresh).storeReadOnly 2 else s.retireBlock block fresh) :=
  congrArg Host.Outcome.next (if_neg (by simp [hopen, hin, hfree, hne]))

/-- A store that accepted writes and is READ_ONLY from then on, with a reason. -/
structure Remounted (s t : State) (reason : Nat) : Prop where
  mode : t.fld Fld.FTL_STATUS_mode = 1
  reason : t.fld Fld.FTL_STATUS_ro_reason = reason
  counted : Counted s t Ev.FTL_EVT_STATUS_remount
  retired : ∀ u, Counted u s Ev.FTL_EVT_STATUS_retire → Counted u t Ev.FTL_EVT_STATUS_retire
  only : t = s.withRegs t.regs
  kept : RegsKept s t (Reg.FTL_STATUS :: Ev.FTL_EVT_STATUS_remount.regs)

theorem State.storeReadOnly_remounted (hmode : s.fld Fld.FTL_STATUS_mode = 2) {reason : Nat} (hreason : reason < 4) :
    Remounted s (s.storeReadOnly reason) reason := by
  have hdone : s.storeReadOnly reason =
      ((s.setFld Fld.FTL_STATUS_mode 1).setFld Fld.FTL_STATUS_ro_reason reason).event Ev.FTL_EVT_STATUS_remount := if_pos hmode
  have hmoved := ((onlyMoved_setFld s (f := Fld.FTL_STATUS_mode) 1 (by decide)).trans
    (onlyMoved_setFld _ (f := Fld.FTL_STATUS_ro_reason) reason (by decide))).trans (onlyMoved_event _ Ev.FTL_EVT_STATUS_remount)
  rw [hdone]
  refine ⟨?_, ?_, ?_, fun u hu => ?_, ?_, (hmoved.mono (by simp)).kept⟩
  · rw [State.fld_event_ne _ (by decide) (by decide) (by decide), State.fld_setFld_ne _ _ (by decide) (by decide) (by decide),
      State.fld_setFld_same _ _ (by decide)]
    rfl
  · rw [State.fld_event_ne _ (by decide) (by decide) (by decide), State.fld_setFld_same _ _ (by decide)]
    exact Nat.mod_eq_of_lt hreason
  · refine (counted_event _ (by decide) (by decide)).since ?_
    rw [State.reg_setFld_ne _ _ (by decide) (by decide), State.reg_setFld_ne _ _ (by decide) (by decide)]
  · exact ((hu.setFld 1 (f := Fld.FTL_STATUS_mode) (by decide) (by decide) (by decide)).setFld reason
      (f := Fld.FTL_STATUS_ro_reason) (by decide) (by decide) (by decide)).eventIf true (e' := Ev.FTL_EVT_STATUS_remount) (by decide)
      (by decide) (by decide) (by decide)
  · exact (((CountsIn.setFld s (f := Fld.FTL_STATUS_mode) 1 (b := 0x143) (by decide) (by decide)).trans
      (CountsIn.setFld _ (f := Fld.FTL_STATUS_ro_reason) reason (by decide) (by decide))).trans
      (CountsIn.eventIf _ true (e := Ev.FTL_EVT_STATUS_remount) (by decide) (by decide))).only

/-- The registers that a retirement moves. -/
def retireRegs : List Nat := Reg.FTL_STATUS :: Ev.FTL_EVT_STATUS_retire.regs ++ Ev.FTL_EVT_STATUS_remount.regs

/-- A retirement is counted, and leaves the store READ_ONLY where too few spares are left. -/
theorem blockRetire_retires (hopen : s.blkOpen 1 0x43 = true) (hin : block ∉ s.flash.retired) (hfree : s.flash.isFree fresh = true)
    (hne : block ≠ fresh) (hmode : s.fld Fld.FTL_STATUS_mode = 2) :
    ∃ t, exec (.blockRetire block fresh) s = .next t ∧ t.flash = s.flash.retire block fresh ∧ Counted s t Ev.FTL_EVT_STATUS_retire ∧
      t.fld Fld.FTL_STATUS_mode = (if t.spareBlocks * 50 < Config.flashBlocks then 1 else 2) ∧
      (t.spareBlocks * 50 < Config.flashBlocks → t.fld Fld.FTL_STATUS_ro_reason = 2 ∧ Counted s t Ev.FTL_EVT_STATUS_remount) ∧
      t = { s with regs := t.regs, flash := t.flash, power := t.power } ∧ RegsKept s t retireRegs := by
  obtain ⟨m, hm⟩ : ∃ m, m = s.retireBlock block fresh := ⟨_, rfl⟩
  have hretired : Counted s m Ev.FTL_EVT_STATUS_retire := hm ▸ counted_event { s.noteActive 2 with flash := _ } (by decide) (by decide)
  have hmode' : m.fld Fld.FTL_STATUS_mode = 2 := by
    rw [hm, State.retireBlock, State.fld_event_ne _ (by decide) (by decide) (by decide)]
    exact hmode
  have hkept : RegsKept s m Ev.FTL_EVT_STATUS_retire.regs := hm ▸ regsKept_event { s.noteActive 2 with flash := _ } _
  have honly : m = { s with regs := m.regs, flash := s.flash.retire block fresh, power := m.power } := by
    rw [hm]
    rfl
  have hexec := exec_blockRetire_of_failed hopen hin hfree hne
  rw [← hm] at hexec
  by_cases hspare : m.spareBlocks * 50 < Config.flashBlocks
  · rw [if_pos hspare] at hexec
    obtain ⟨hread, hreason, hcounted, hstill, honly', hkept'⟩ := m.storeReadOnly_remounted hmode' (reason := 2) (by decide)
    generalize m.storeReadOnly 2 = t at *
    have hflash : t.flash = m.flash := (congrArg State.flash honly' :)
    have hspare' : t.spareBlocks * 50 < Config.flashBlocks := by
      rw [State.spareBlocks, hflash]
      exact hspare
    refine ⟨t, hexec, hflash.trans (congrArg State.flash honly :), hstill s hretired, ?_, fun _ => ⟨hreason, hcounted.since ?_⟩, ?_,
      fun a ha => ?_⟩
    · rw [if_pos hspare', hread]
    · exact hkept _ (by decide)
    · rw [honly', honly]
      rfl
    · simp only [retireRegs, List.cons_append, List.mem_cons, List.mem_append, not_or] at ha
      obtain ⟨hstatus, hretire, hremount⟩ := ha
      rw [hkept' a (by simp [hstatus, hremount]), hkept a hretire]
  · rw [if_neg hspare] at hexec
    refine ⟨m, hexec, (congrArg State.flash honly :), hretired, ?_, fun h => absurd h hspare, ?_, fun a ha => hkept a fun h => ha ?_⟩
    · rw [if_neg hspare, hmode']
    · rw [honly]
    · simp [retireRegs, h]

end Block

/-! ### The obligation -/

/-- Settles O35: reads by the outcome of their codeword, writes by the mode of the store and byte after byte, a commit by what it
empties, and relocation, wear levelling and retirement by the move of a block that they share. -/
theorem flashStore : Obligations.FlashStore := by
  unfold Obligations.FlashStore
  refine ⟨?readsMapped, ?readsUnmapped, ?uncorrectable, ?offline, ?writes, ?refused, ?commits, ?readsPast, ?writesPast, ?relocates,
    ?levels, ?retires⟩
  case readsMapped =>
    intro word b s hword hopen hmode hgood hmapped
    obtain ⟨hexec, hbytes, hbad, hregs, honly⟩ := flashRead_clean hword hopen hmode hgood rfl
    obtain ⟨hcount, hothers, hqueue⟩ := State.countRead_counts hmapped rfl
    exact ⟨_, hexec, rfl, hcount, hothers, hqueue, hbytes, hbad, hregs, honly⟩
  case readsUnmapped =>
    intro word s hword hopen hmode hgood hmapped
    obtain ⟨hexec, -⟩ := flashRead_clean hword hopen hmode hgood rfl
    rw [State.countRead_of_unmapped hmapped] at hexec
    exact ⟨_, hexec, rfl⟩
  case uncorrectable => exact fun word d s hword hopen hmode h => flashRead_uncorrectable hword hopen hmode h
  case offline => exact fun word d s hword hopen hmode => ⟨_, exec_flashRead_of_offline hword hopen hmode, rfl⟩
  case writes => exact fun addr data s hend hopen hmode => flashWrite_stores hend hopen hmode
  case refused => exact fun addr data s hend hopen hmode => ⟨_, exec_flashWrite_of_refused hend hopen hmode, rfl⟩
  case commits => exact fun s hopen hmode hdue => journalCommit_empties hopen hmode hdue
  case readsPast => exact fun word d s hword => if_pos (by omega)
  case writesPast => exact fun addr data s hend => if_pos hend
  case relocates =>
    intro block fresh s hopen hqueued hfree hne hmode
    obtain ⟨t, hexec, hflash, hcounted, hrest⟩ := flashRelocation_moves hopen hqueued hfree hne hmode
    refine ⟨t, hexec, ?_, ?_, ?_, ?_, ?_, hcounted, hrest⟩
    all_goals rw [hflash]
    · exact FlashStore.not_mem_relocate_move
    · exact FlashStore.isFree_move hne
    · exact fun u => FlashStore.mem_map_move
    · exact FlashStore.erases_move
    · rfl
  case levels =>
    intro block fresh s hopen hspread hfree hne hused hleast hmode
    exact ⟨_, exec_wearLevelling_of_spread hopen hspread hfree hne hused hleast hmode, fun u => FlashStore.mem_map_move,
      FlashStore.erases_move, rfl, rfl⟩
  case retires =>
    intro block fresh s hopen hin hfree hne hmode
    obtain ⟨t, hexec, hflash, hrest⟩ := blockRetire_retires hopen hin hfree hne hmode
    refine ⟨t, hexec, ?_, ?_, ?_, ?_, ?_, ?_, hrest⟩
    all_goals rw [hflash]
    · exact s.flash.isFree_retire block fresh
    · rfl
    · exact fun u => FlashStore.mem_map_move
    · exact fun u => FlashStore.not_mem_map_move hne
    · exact FlashStore.erases_move (dst := fresh)
    · rfl

end Sys2Proof.Machine
end

section
/-! Transfers of run-time prefetches (chapter 10): the runs of an identifier, the transfers that start when others end, and what the
cancellation of a layer's transfers changes. -/

namespace Sys2Proof.Machine

/-! ### The runs of an identifier -/

theorem State.eq_or_mem_of_mem_setRun {s : State} {r x : Run} (h : x ∈ (s.setRun r).runs) : x = r ∨ x ∈ s.runs ∧ x.id ≠ r.id := by
  obtain ⟨y, hy, hx⟩ := List.mem_map.mp h
  split at hx
  · exact .inl hx.symm
  · next hid => exact .inr (hx ▸ ⟨hy, hid⟩)

theorem State.mem_of_run? {s : State} {n : Nat} {r : Run} (h : s.run? n = some r) : r ∈ s.runs := List.mem_of_find?_eq_some h

/-- There are runs of an identifier, and each of them has a property. -/
structure State.RunsAre (s : State) (n : Nat) (P : Run → Prop) : Prop where
  found : ∃ x ∈ s.runs, x.id = n
  all : ∀ x ∈ s.runs, x.id = n → P x

namespace State.RunsAre
variable {s : State} {n : Nat} {P Q : Run → Prop}

/-- The run of the identifier has the property. -/
theorem run? (h : s.RunsAre n P) : ∃ r, s.run? n = some r ∧ P r := by
  obtain ⟨x, hx, hid⟩ := h.found
  cases hr : s.run? n with
  | none => exact absurd (beq_iff_eq.mpr hid) (List.find?_eq_none.mp hr x hx)
  | some r => exact ⟨r, rfl, h.all r (State.mem_of_run? hr) (State.id_of_run? hr)⟩

theorem mono (h : s.RunsAre n P) (hPQ : ∀ x, P x → Q x) : s.RunsAre n Q := ⟨h.found, fun x hx hid => hPQ x (h.all x hx hid)⟩

/-- A run written takes the place of every run of its identifier. -/
theorem setRun_same {r x : Run} (h : x ∈ s.runs) (hid : x.id = r.id) (hP : P r) : (s.setRun r).RunsAre r.id P := by
  refine ⟨⟨r, List.mem_map.mpr ⟨x, h, if_pos hid⟩, rfl⟩, fun y hy hyid => ?_⟩
  obtain rfl | ⟨-, hne⟩ := State.eq_or_mem_of_mem_setRun hy
  · exact hP
  · exact absurd hyid hne

/-- A run whose next operation issues is the only one of its identifier. -/
theorem issueRun_same {r : Run} (s : State) (hP : P r) : (s.issueRun r).RunsAre r.id P := by
  refine ⟨⟨r, List.mem_append_right _ (List.mem_singleton_self r), rfl⟩, fun y hy hyid => ?_⟩
  obtain hy | hy := List.mem_append.mp hy
  · exact absurd hyid (by simpa using (List.mem_filter.mp hy).2)
  · rw [List.mem_singleton.mp hy]
    exact hP

/-- A run written keeps the property where the run in whose place it stands keeps it. -/
theorem setRun (h : s.RunsAre n P) {r x : Run} (hx : x ∈ s.runs) (hid : r.id = x.id) (hP : P x → P r) : (s.setRun r).RunsAre n P := by
  by_cases hn : r.id = n
  · subst hn
    exact setRun_same hx hid.symm (hP (h.all x hx hid.symm))
  · obtain ⟨y, hy, hyid⟩ := h.found
    refine ⟨⟨y, List.mem_map.mpr ⟨y, hy, if_neg fun hyr => hn (hyr.symm.trans hyid)⟩, hyid⟩, fun z hz hzid => ?_⟩
    obtain rfl | ⟨hz, -⟩ := State.eq_or_mem_of_mem_setRun hz
    · exact absurd hzid hn
    · exact h.all z hz hzid

end State.RunsAre

/-! ### The phases of a run's records -/

section Phases
variable {r : Run} {i : Nat} {ph : PrefetchPhase} {q : Nat × PrefetchPhase}

theorem Run.mem_setPrefetch (h : q ∈ (r.setPrefetch i ph).prefetches) : q = (i, ph) ∨ q ∈ r.prefetches ∧ q.1 ≠ i := by
  obtain ⟨y, hy, hq⟩ := List.mem_map.mp h
  split at hq
  · exact .inl hq.symm
  · next hne => exact .inr (hq ▸ ⟨hy, hne⟩)

theorem Run.mem_setPrefetch_same (h : q ∈ r.prefetches) (hi : q.1 = i) : (i, ph) ∈ (r.setPrefetch i ph).prefetches :=
  List.mem_map.mpr ⟨q, h, if_pos hi⟩

theorem Run.mem_setPrefetch_ne (h : q ∈ r.prefetches) (hi : q.1 ≠ i) : q ∈ (r.setPrefetch i ph).prefetches :=
  List.mem_map.mpr ⟨q, h, if_neg hi⟩

/-- A record stands in a phase, and waits in none of its entries for a transfer to start. -/
structure Run.Stands (r : Run) (i : Nat) (ph : PrefetchPhase) : Prop where
  mem : (i, ph) ∈ r.prefetches
  settled : ∀ q ∈ r.prefetches, q.1 = i → q.2 ≠ .issued

theorem Run.stands_setPrefetch (h : q ∈ r.prefetches) (hi : q.1 = i) (hph : ph ≠ .issued) : (r.setPrefetch i ph).Stands i ph := by
  refine ⟨Run.mem_setPrefetch_same h hi, fun y hy hyi => ?_⟩
  obtain rfl | ⟨-, hne⟩ := Run.mem_setPrefetch hy
  · exact hph
  · exact absurd hyi hne

/-- The start of another record's transfer leaves a record where it stands. -/
theorem Run.Stands.start (h : r.Stands i ph) (hq : q ∈ r.prefetches) (hissued : q.2 = .issued) :
    (r.setPrefetch q.1 .inFlight).Stands i ph := by
  have hne : i ≠ q.1 := fun hi => h.settled q hq hi.symm hissued
  refine ⟨Run.mem_setPrefetch_ne h.mem hne, fun y hy hyi => ?_⟩
  obtain rfl | ⟨hy, -⟩ := Run.mem_setPrefetch hy
  · exact fun hph => PrefetchPhase.noConfusion hph
  · exact h.settled y hy hyi

end Phases

/-! ### Transfers that wait for one of their invocation's eight (R179, R189) -/

theorem State.pendingRange_congr {s t : State} (hpending : t.tierPending = s.tierPending) (hkv : t.kv = s.kv) (hmaps : t.maps = s.maps)
    (b : Bytes) : t.pendingRange b = s.pendingRange b := by
  have hunmaps : t.unmapPending = s.unmapPending := by
    funext ctx va
    simp only [State.unmapPending, State.kvEntry, State.mapping?, hpending, hkv, hmaps]
  simp only [State.pendingRange, State.pendingIn, hunmaps]

/-- No transfer that waits runs through a range about to be unmapped, where each waits in an earlier state in which none did. -/
theorem waitersClear.of_runs {s t : State} (h : waitersClear s) (hpending : t.tierPending = s.tierPending) (hkv : t.kv = s.kv)
    (hmaps : t.maps = s.maps)
    (hruns : ∀ x ∈ t.runs, ∀ q ∈ x.prefetches, q.2 = .issued → ∃ y ∈ s.runs, y.recs = x.recs ∧ q ∈ y.prefetches) : waitersClear t := by
  intro x hx q hq hissued
  obtain ⟨y, hy, hrecs, hqy⟩ := hruns x hx q hq hissued
  rw [State.pendingRange_congr hpending hkv hmaps, ← hrecs]
  exact h y hy q hqy hissued

/-- The start of a transfer leaves fewer that wait. -/
theorem waitersClear.start {s : State} (h : waitersClear s) {x : Run} (hx : x ∈ s.runs) (i : Nat) :
    waitersClear (s.setRun (x.setPrefetch i .inFlight)) := by
  refine waitersClear.of_runs h rfl rfl rfl fun y hy q hq hissued => ?_
  obtain rfl | ⟨hy, -⟩ := State.eq_or_mem_of_mem_setRun hy
  · obtain rfl | ⟨hq, -⟩ := Run.mem_setPrefetch hq
    · cases hissued
    · exact ⟨x, hx, rfl, hq⟩
  · exact ⟨y, hy, rfl, hq⟩

section Promote
variable {s : State} {ctx run : Nat} {inv : Option Nat}

theorem State.mem_of_mem_invRuns {x : Run} (h : x ∈ s.invRuns ctx run inv) : x ∈ s.runs := List.mem_of_mem_filter h

/-- Whatever holds at first, and still where a transfer that waits starts, holds once the transfers of an invocation have started. -/
theorem State.promote_induction {motive : State → Prop} (n : Nat) (hclear : waitersClear s) (hs : motive s)
    (hstart : ∀ (u : State) (x : Run) (p : Nat × PrefetchPhase), motive u → x ∈ u.runs → p ∈ x.prefetches → p.2 = .issued →
      motive (u.setRun (x.setPrefetch p.1 .inFlight))) : motive (s.promote ctx run inv n) := by
  induction n generalizing s with
  | zero => exact hs
  | succ n ih =>
    rw [State.promote]
    split
    · exact hs
    · next x hx =>
      have hmem := State.mem_of_mem_invRuns (List.mem_of_find?_eq_some hx)
      split
      · exact hs
      · split
        · exact hs
        · next p hp =>
          have hpmem := List.mem_of_find?_eq_some hp
          have hissued : p.2 = .issued := by simpa using List.find?_some hp
          rw [hclear x hmem p hpmem hissued]
          exact ih (waitersClear.start hclear hmem p.1) (hstart s x p hs hmem hpmem hissued)

/-- The start of transfers changes the runs alone. -/
theorem State.promote_only (n : Nat) (hclear : waitersClear s) :
    s.promote ctx run inv n = { s with runs := (s.promote ctx run inv n).runs } :=
  State.promote_induction (motive := fun t => t = { s with runs := t.runs }) n hclear rfl fun _ x p hu _ _ _ =>
    (congrArg (fun v : State => v.setRun (x.setPrefetch p.1 .inFlight)) hu :)

/-- What a run keeps when one of its transfers starts holds of the runs of an identifier once transfers have started. -/
theorem State.RunsAre.promote {k : Nat} {P : Run → Prop} (h : s.RunsAre k P) (n : Nat) (hclear : waitersClear s)
    (hstart : ∀ x p, P x → p ∈ x.prefetches → p.2 = .issued → P (x.setPrefetch p.1 .inFlight)) :
    (s.promote ctx run inv n).RunsAre k P :=
  State.promote_induction (motive := fun t => t.RunsAre k P) n hclear h fun _ x p hu hx hp hissued =>
    hu.setRun hx rfl fun hP => hstart x p hP hp hissued

/-- Where no transfer waits, none starts. -/
theorem State.promote_of_none (n : Nat) (h : ∀ x ∈ s.runs, ∀ q ∈ x.prefetches, q.2 ≠ .issued) : s.promote ctx run inv n = s := by
  cases n with
  | zero => rfl
  | succ n =>
    have hnone : (s.invRuns ctx run inv).find? (fun x => x.prefetches.any (fun p => p.2 == .issued)) = none :=
      List.find?_eq_none.mpr fun x hx hany => by
        obtain ⟨q, hq, hissued⟩ := List.any_eq_true.mp hany
        exact h x (State.mem_of_mem_invRuns hx) q hq (beq_iff_eq.mp hissued)
    rw [State.promote]
    simp only [hnone]

/-- A programme that runs alone in its invocation starts its first transfer that waits, where fewer than eight run. -/
theorem State.promote_of_lone {x : Run} {p : Nat × PrefetchPhase} (n : Nat) (hlone : s.invRuns ctx run inv = [x])
    (hroom : transfersOf [x] < 8) (hp : x.prefetches.find? (fun p => p.2 == .issued) = some p) (hclear : waitersClear s) :
    s.promote ctx run inv (n + 1) = (s.setRun (x.setPrefetch p.1 .inFlight)).promote ctx run inv n := by
  have hmem : x ∈ s.runs := State.mem_of_mem_invRuns (hlone ▸ List.mem_singleton_self x)
  have hissued : p.2 = .issued := by simpa using List.find?_some hp
  have hany : x.prefetches.any (fun p => p.2 == .issued) = true :=
    List.any_eq_true.mpr ⟨p, List.mem_of_find?_eq_some hp, by simp [hissued]⟩
  have hrange := hclear x hmem p (List.mem_of_find?_eq_some hp) hissued
  rw [State.promote]
  simp only [hlone, List.find?_cons, hany, if_neg hroom.not_ge, hp, hrange]

end Promote

/-! ### The cancellation of transfers (R135, R190) -/

/-- What the cancellation of transfers changes: memory, the flash store and the count of cancelled ones; events that are set stay. -/
structure CancelFrame (s t : State) : Prop where
  only : t = { s with regs := t.regs, phys := t.phys, flash := t.flash, freeCtr := t.freeCtr, power := t.power }
  kept : RegsKept s t Ev.TIER_EVT_STATUS_cancel.regs
  set : ∀ i, (s.reg Reg.TIER_EVT_STATUS).getLsbD i = true → (t.reg Reg.TIER_EVT_STATUS).getLsbD i = true

namespace CancelFrame
variable {s t u : State}

theorem refl (s : State) : CancelFrame s s := ⟨rfl, fun _ _ => rfl, fun _ => id⟩

theorem trans (hst : CancelFrame s t) (htu : CancelFrame t u) : CancelFrame s u where
  only := htu.only.trans (congrArg (fun a : State =>
    { a with regs := u.regs, phys := u.phys, flash := u.flash, freeCtr := u.freeCtr, power := u.power }) hst.only)
  kept a ha := (htu.kept a ha).trans (hst.kept a ha)
  set i hi := htu.set i (hst.set i hi)

/-- A change of neither registers nor what the tier manager's commands name. -/
theorem of_regs (h : t = { s with phys := t.phys, flash := t.flash, freeCtr := t.freeCtr, power := t.power }) : CancelFrame s t := by
  have hregs : t.regs = s.regs := (congrArg State.regs h :)
  refine ⟨?_, fun a _ => State.reg_congr hregs a, fun i hi => ?_⟩
  · rw [hregs]
    exact h
  · rwa [State.reg_congr hregs]

theorem countCancelled (s : State) : CancelFrame s (s.event Ev.TIER_EVT_STATUS_cancel) :=
  ⟨rfl, regsKept_event s _, fun _ => State.getLsbD_event_of_set (by decide)⟩

theorem cancelPrefetches (r : Run) (ps : List (Nat × PrefetchPhase)) (s : State) : CancelFrame s (s.cancelPrefetches r ps) := by
  induction ps generalizing s with
  | nil => exact refl s
  | cons p ps ih =>
    rw [State.cancelPrefetches]
    refine trans ?_ (ih _)
    split
    · extract_lets rec' bs s2
      have hfree : CancelFrame s (s.useFree bs.length) := of_regs rfl
      have hactive : CancelFrame s s2 := (hfree.trans (countCancelled _)).trans (of_regs rfl)
      exact hactive.trans (of_regs (by rw [State.putVa_only]))
    · exact refl s

/-- An event of the tier manager other than a cancellation stays counted. -/
theorem counted {m : State} {e : Evt} (h : CancelFrame m t) (hcounted : Counted s m e) (hstatus : e.status = Reg.TIER_EVT_STATUS)
    (hcounter : e.counter ∉ Ev.TIER_EVT_STATUS_cancel.regs) : Counted s t e := by
  obtain ⟨hbit, hcount⟩ := hcounted
  refine ⟨?_, (congrArg BitVec.toNat (h.kept _ hcounter)).trans hcount⟩
  rw [hstatus] at hbit ⊢
  exact h.set _ hbit

theorem fld (h : CancelFrame s t) {f : Fld} (ha : f.addr ∉ Ev.TIER_EVT_STATUS_cancel.regs) (hf : f.lo + f.width ≤ 32) :
    t.fld f = s.fld f := by
  rw [State.fld_word _ hf, State.fld_word _ hf, h.kept _ ha]

theorem blocksKept (h : CancelFrame s t) : BlocksKept s t [0x142] := fun a ha => h.kept a fun hmem => ha (by
  have hall : ∀ a ∈ Ev.TIER_EVT_STATUS_cancel.regs, a / 65536 ∈ [0x142] := by decide
  exact hall a hmem)

end CancelFrame

/-- A transfer that has neither ended nor been cancelled. -/
def PrefetchPhase.unfinished (ph : PrefetchPhase) : Bool := ph == .waiting || ph == .issued || ph == .inFlight

/-- A run with some of its records cancelled. -/
def Run.cancel (r : Run) (ps : List (Nat × PrefetchPhase)) : Run := ps.foldl (fun a p => a.setPrefetch p.1 .cancelled) r

theorem State.cancelLayer_eq (s : State) (r : Run) (ps : List (Nat × PrefetchPhase)) :
    s.cancelLayer r ps =
      (s.cancelPrefetches r (ps.filter (fun p => p.2.unfinished)), r.cancel (ps.filter (fun p => p.2.unfinished))) := rfl

section Cancel
variable {r : Run} {ps : List (Nat × PrefetchPhase)} {q : Nat × PrefetchPhase}

/-- Cancelled records change their phases alone. -/
theorem Run.cancel_only (r : Run) (ps : List (Nat × PrefetchPhase)) : r.cancel ps = { r with prefetches := (r.cancel ps).prefetches } :=
  List.foldlRecOn (motive := fun x : Run => x = { r with prefetches := x.prefetches }) _ _ rfl fun x hx p _ =>
    (congrArg (fun y : Run => { y with prefetches := (x.setPrefetch p.1 .cancelled).prefetches }) hx :)

/-- A record is cancelled, or stands as it did and is none of those named. -/
theorem Run.mem_cancel (h : q ∈ (r.cancel ps).prefetches) : q.2 = .cancelled ∨ q ∈ r.prefetches ∧ ∀ p ∈ ps, q.1 ≠ p.1 := by
  induction ps generalizing r with
  | nil => exact .inr ⟨h, nofun⟩
  | cons p ps ih =>
    obtain hq | ⟨hq, hps⟩ := ih h
    · exact .inl hq
    · obtain rfl | ⟨hq, hne⟩ := Run.mem_setPrefetch hq
      · exact .inl rfl
      · exact .inr ⟨hq, List.forall_mem_cons.mpr ⟨hne, hps⟩⟩

theorem Run.mem_of_issued_of_mem_cancel (h : q ∈ (r.cancel ps).prefetches) (hissued : q.2 = .issued) : q ∈ r.prefetches := by
  obtain hq | ⟨hq, -⟩ := Run.mem_cancel h
  · rw [hq] at hissued
    cases hissued
  · exact hq

/-- No record whose unfinished entries are all among those cancelled stays unfinished. -/
theorem Run.not_unfinished_of_mem_cancel (hps : ∀ p ∈ r.prefetches, p.1 = q.1 → p.2.unfinished = true → p ∈ ps)
    (h : q ∈ (r.cancel (ps.filter (fun p => p.2.unfinished))).prefetches) : q.2.unfinished = false := by
  obtain hq | ⟨hq, hne⟩ := Run.mem_cancel h
  · rw [hq]
    rfl
  · by_contra hunfinished
    rw [Bool.not_eq_false] at hunfinished
    exact hne q (List.mem_filter.mpr ⟨hps q hq rfl hunfinished, hunfinished⟩) rfl

theorem PrefetchPhase.unfinished_eq_false {ph : PrefetchPhase} (h : ph.unfinished = false) :
    ph ≠ .inFlight ∧ ph ≠ .waiting ∧ ph ≠ .issued := by
  simp only [PrefetchPhase.unfinished, Bool.or_eq_false_iff, beq_eq_false_iff_ne] at h
  exact ⟨h.2, h.1.1, h.1.2⟩

end Cancel

end Sys2Proof.Machine
end

section
/-! The statement about run-time prefetches (chapter 10): their start, their end, and the paths of late layers. -/

namespace Sys2Proof.Machine

/-! ### PREFETCH_ISSUE (R189) -/

theorem State.pendingRange_eq_none {s : State} {b : Bytes} (h : ∀ x ∈ recRanges b, s.pendingIn x.1 x.2.1 x.2.2 = false) :
    s.pendingRange b = none := List.find?_eq_none.mpr fun x hx => Bool.eq_false_iff.mp (h x hx)

theorem prefetchIssue_starts (run : Nat) (r : Run) (l : Layout) (p : Nat × PrefetchPhase) (s : State) (hrun : s.run? run = some r)
    (hlayout : s.layout = some l) (hp : r.prefetches.find? (fun x => x.2 == .waiting) = some p) (hdone : r.done = none)
    (hopen : s.blkOpen 1 0x42 = true)
    (htime : r.start + l.plannedOffset r.prog (fieldAt (r.recs.getD p.1 []) 2 2) ≤ s.now + fieldAt (r.recs.getD p.1 []) 0x1C 4)
    (hfree : ∀ x ∈ recRanges (r.recs.getD p.1 []), s.pendingIn x.1 x.2.1 x.2.2 = false) :
    ∃ t, exec (.prefetchIssue run) s = .next t ∧ t.run? run = some (r.setPrefetch p.1
      (if transfersOf (s.invRuns r.ctx r.id (s.runInv r)) < 8 then .inFlight else .issued)) ∧ t = { s with runs := t.runs } := by
  have hphase : (if 8 ≤ transfersOf (s.invRuns r.ctx r.id (s.runInv r)) then PrefetchPhase.issued else .inFlight) =
      if transfersOf (s.invRuns r.ctx r.id (s.runInv r)) < 8 then .inFlight else .issued := by
    split
    · next hfull => rw [if_neg hfull.not_gt]
    · next hfull => rw [if_pos (not_le.mp hfull)]
  have hexec : exec (.prefetchIssue run) s = .next (s.setRun (r.setPrefetch p.1
      (if transfersOf (s.invRuns r.ctx r.id (s.runInv r)) < 8 then .inFlight else .issued))) := by
    change execPrefetchIssue run s = _
    simp [-List.getD_eq_getElem?_getD, execPrefetchIssue, hrun, hlayout, hp, hdone, hopen, htime.not_gt, State.pendingRange_eq_none hfree,
      hphase]
  obtain rfl := State.id_of_run? hrun
  exact ⟨_, hexec, State.run?_setRun_same (r := r.setPrefetch p.1 _) hrun, rfl⟩

/-! ### PREFETCH_COMPLETE (R189, R192) -/

theorem State.runInv_congr {s t : State} (hctxs : t.ctxs = s.ctxs) (x : Run) : t.runInv x = s.runInv x := by
  simp only [State.runInv, State.ctx, hctxs]

theorem State.invRuns_congr {s t : State} (hctxs : t.ctxs = s.ctxs) (hruns : t.runs = s.runs) (ctx run : Nat) (inv : Option Nat) :
    t.invRuns ctx run inv = s.invRuns ctx run inv := by
  simp only [State.invRuns, hruns, State.runInv_congr hctxs]

/-- A programme that runs alone in its invocation still does where another state of it is written. -/
theorem State.invRuns_setRun_of_lone {s : State} {x r : Run} {ctx : Nat} {inv : Option Nat} (hid : x.id = r.id)
    (hlone : s.invRuns ctx r.id inv = [x]) : (s.setRun r).invRuns ctx r.id inv = [r] := by
  have hpred : (fun y => y.id == r.id || (y.ctx == ctx && inv.isSome && s.runInv y == inv)) ∘ (fun y => if y.id = r.id then r else y) =
      fun y => y.id == r.id || (y.ctx == ctx && inv.isSome && s.runInv y == inv) := by
    funext y
    by_cases hy : y.id = r.id
    · simp [hy]
    · simp [hy]
  change (s.runs.map (fun y => if y.id = r.id then r else y)).filter
    (fun y => y.id == r.id || (y.ctx == ctx && inv.isSome && s.runInv y == inv)) = [r]
  rw [List.filter_map, hpred]
  change (s.invRuns ctx r.id inv).map _ = [r]
  rw [hlone, List.map_singleton, if_pos hid]

section Phases
variable {r : Run} {i : Nat} {ph : PrefetchPhase} {q : Nat × PrefetchPhase}

/-- A transfer that ends leaves fewer in flight. -/
theorem transfersOf_setPrefetch_lt (h : (i, PrefetchPhase.inFlight) ∈ r.prefetches) (hph : ph ≠ .inFlight) :
    transfersOf [r.setPrefetch i ph] < transfersOf [r] := by
  have hpred : (fun p : Nat × PrefetchPhase => p.2 == .inFlight) ∘ (fun x => if x.1 = i then (i, ph) else x) =
      fun x => decide (x.1 ≠ i) && x.2 == .inFlight := by
    funext x
    by_cases hx : x.1 = i
    · simp [hx, hph]
    · simp [hx]
  simp only [transfersOf, List.flatMap_singleton, Run.setPrefetch, List.filter_map, List.length_map, hpred]
  rw [← List.filter_filter]
  exact List.length_filter_lt_length_iff_exists.mpr ⟨_, List.mem_filter.mpr ⟨h, rfl⟩, by simp⟩

/-- The first record that waits for a transfer stays the first when another record's transfer ends. -/
theorem Run.find?_issued_setPrefetch (h : r.prefetches.find? (fun x => x.2 == .issued) = some q) (hne : q.1 ≠ i) (hph : ph ≠ .issued) :
    (r.setPrefetch i ph).prefetches.find? (fun x => x.2 == .issued) = some q := by
  obtain ⟨hq, as, bs, hsplit, has⟩ := List.find?_eq_some_iff_append.mp h
  refine List.find?_eq_some_iff_append.mpr ⟨hq, as.map (fun x => if x.1 = i then (i, ph) else x),
    bs.map (fun x => if x.1 = i then (i, ph) else x), ?_, fun y hy => ?_⟩
  · simp only [Run.setPrefetch, hsplit, List.map_append, List.map_cons, if_neg hne]
  · obtain ⟨x, hx, rfl⟩ := List.mem_map.mp hy
    split
    · simpa using hph
    · exact has x hx

end Phases

/-- The state in which a completed prefetch has moved its data, before a transfer that waits for it starts. -/
def State.prefetched (m : State) (r : Run) (i : Nat) : State := m.setRun (r.setPrefetch i .done)

section Complete
variable {run i : Nat} {found : Found} {r : Run} {m s : State}

theorem exec_prefetchComplete_of_ok (hfound : found.lost = false) (hrun : s.run? run = some r)
    (hi : (i, PrefetchPhase.inFlight) ∈ r.prefetches)
    (hm : ((s.noteActive 2).countReads r.ctx (fieldAt (r.recs.getD i []) 8 8) (fieldAt (r.recs.getD i []) 0x18 4) found).transfer r.ctx
      (fieldAt (r.recs.getD i []) 8 8) (fieldAt (r.recs.getD i []) 0x10 8) (fieldAt (r.recs.getD i []) 0x18 4) = .ok m) :
    exec (.prefetchComplete run i found) s = .next ((m.prefetched r i).promote r.ctx run (s.runInv r) 16) := by
  change execPrefetchComplete run i found s = _
  simp [-List.getD_eq_getElem?_getD, execPrefetchComplete, hrun, hi, hfound, hm, State.prefetched]

/-- A transfer changes memory, the flash store, the registers that count its reads and the time of the last activity alone. -/
theorem State.prefetchMoved_only {ctx src dst len : Nat}
    (hm : ((s.noteActive 2).countReads ctx src len found).transfer ctx src dst len = .ok m) :
    m = { s with regs := m.regs, phys := m.phys, flash := m.flash, freeCtr := m.freeCtr, power := m.power } ∧
      RegsKept s m [Reg.FTL_CORR_CNT, Reg.FTL_CORR_CNT + 4] := by
  have hread := FlashReadFrame.countReads (s.noteActive 2) ctx src len found
  have honly := State.transfer_only hm
  generalize (s.noteActive 2).countReads ctx src len found = u at hread honly
  have hregs : m.regs = u.regs := (congrArg State.regs honly :)
  refine ⟨?_, fun a ha => (State.reg_congr hregs a).trans (hread.kept a ha)⟩
  obtain ⟨hu, -, -⟩ := hread
  rw [honly, hu]
  rfl

theorem waitersClear.prefetched (h : waitersClear s) (hrun : s.run? run = some r)
    (hm : m = { s with regs := m.regs, phys := m.phys, flash := m.flash, freeCtr := m.freeCtr, power := m.power }) :
    waitersClear (m.prefetched r i) := by
  refine waitersClear.of_runs h (t := m.prefetched r i) (congrArg State.tierPending hm :) (congrArg State.kv hm :)
    (congrArg State.maps hm :) fun x hx q hq hissued => ?_
  obtain rfl | ⟨hx, -⟩ := State.eq_or_mem_of_mem_setRun hx
  · obtain rfl | ⟨hq, -⟩ := Run.mem_setPrefetch hq
    · cases hissued
    · exact ⟨r, State.mem_of_run? hrun, rfl, hq⟩
  · exact ⟨x, (congrArg State.runs hm :) ▸ hx, rfl, hq⟩

/-- A record whose transfer ends starts no other one: where no transfer waits, the run stands as it then is. -/
theorem State.promote_prefetched_of_none {ctx n k : Nat} {inv : Option Nat} (hrun : s.run? run = some r) (hruns : m.runs = s.runs)
    (hnone : ∀ x ∈ s.runs, ∀ q ∈ x.prefetches, q.2 ≠ .issued) : (m.prefetched r i).promote ctx n inv k = m.prefetched r i := by
  refine State.promote_of_none k fun x hx q hq => ?_
  obtain rfl | ⟨hx, -⟩ := State.eq_or_mem_of_mem_setRun hx
  · obtain rfl | ⟨hq, -⟩ := Run.mem_setPrefetch hq
    · exact fun h => PrefetchPhase.noConfusion h
    · exact hnone r (State.mem_of_run? hrun) q hq
  · exact hnone x (hruns ▸ hx) q hq

/-- The first transfer that waits starts in the place of the one that ended. -/
theorem State.promote_prefetched_of_lone {q : Nat × PrefetchPhase} (k : Nat) (hrun : s.run? run = some r) (hclear : waitersClear s)
    (hi : (i, PrefetchPhase.inFlight) ∈ r.prefetches)
    (hm : m = { s with regs := m.regs, phys := m.phys, flash := m.flash, freeCtr := m.freeCtr, power := m.power })
    (hlone : s.invRuns r.ctx run (s.runInv r) = [r]) (hroom : transfersOf [r] ≤ 8)
    (hq : r.prefetches.find? (fun x => x.2 == .issued) = some q) (hne : q.1 ≠ i) :
    ((m.prefetched r i).promote r.ctx run (s.runInv r) (k + 1)).RunsAre run (fun x => x.Stands q.1 .inFlight) := by
  obtain rfl := State.id_of_run? hrun
  have hclear' : waitersClear (m.prefetched r i) := waitersClear.prefetched hclear hrun hm
  have hruns : m.runs = s.runs := (congrArg State.runs hm :)
  have hlone' : (m.prefetched r i).invRuns r.ctx r.id (s.runInv r) = [r.setPrefetch i .done] :=
    State.invRuns_setRun_of_lone (x := r) rfl ((State.invRuns_congr (congrArg State.ctxs hm :) hruns r.ctx r.id _).trans hlone)
  have hq' : (r.setPrefetch i .done).prefetches.find? (fun x => x.2 == .issued) = some q :=
    Run.find?_issued_setPrefetch hq hne PrefetchPhase.noConfusion
  have hmem : r.setPrefetch i .done ∈ (m.prefetched r i).runs :=
    State.mem_of_mem_invRuns (hlone' ▸ List.mem_singleton_self _)
  have hfew := transfersOf_setPrefetch_lt (ph := .done) hi PrefetchPhase.noConfusion
  rw [State.promote_of_lone k hlone' (by omega) hq' hclear']
  have hstarted := State.RunsAre.setRun_same (r := (r.setPrefetch i .done).setPrefetch q.1 .inFlight)
    (P := fun x => x.Stands q.1 .inFlight) hmem rfl (Run.stands_setPrefetch (List.mem_of_find?_eq_some hq') rfl PrefetchPhase.noConfusion)
  exact hstarted.promote k (waitersClear.start hclear' hmem q.1) fun x p hx hp hissued => hx.start hp hissued

end Complete

theorem prefetchComplete_moves (run i : Nat) (found : Found) (r : Run) (m s : State) (hfound : found.lost = false)
    (hrun : s.run? run = some r) (hi : (i, PrefetchPhase.inFlight) ∈ r.prefetches) (hclear : waitersClear s)
    (hm : ((s.noteActive 2).countReads r.ctx (fieldAt (r.recs.getD i []) 8 8) (fieldAt (r.recs.getD i []) 0x18 4) found).transfer r.ctx
      (fieldAt (r.recs.getD i []) 8 8) (fieldAt (r.recs.getD i []) 0x10 8) (fieldAt (r.recs.getD i []) 0x18 4) = .ok m) :
    ∃ t, exec (.prefetchComplete run i found) s = .next t ∧ RegsKept s t [Reg.FTL_CORR_CNT, Reg.FTL_CORR_CNT + 4] ∧
      (∃ r', t.run? run = some r' ∧ (i, PrefetchPhase.done) ∈ r'.prefetches) ∧
      ((∀ x ∈ s.runs, ∀ q ∈ x.prefetches, q.2 ≠ .issued) → t.run? run = some (r.setPrefetch i .done)) ∧
      (∀ q, s.invRuns r.ctx run (s.runInv r) = [r] → transfersOf [r] ≤ 8 → r.prefetches.find? (fun x => x.2 == .issued) = some q →
        q.1 ≠ i → ∃ r', t.run? run = some r' ∧ (q.1, PrefetchPhase.inFlight) ∈ r'.prefetches) ∧
      t = { m with runs := t.runs } := by
  obtain ⟨honly, hkept⟩ := State.prefetchMoved_only hm
  have hruns : m.runs = s.runs := (congrArg State.runs honly :)
  have hclear' : waitersClear (m.prefetched r i) := waitersClear.prefetched hclear hrun honly
  have hpromoted := State.promote_only (ctx := r.ctx) (run := run) (inv := s.runInv r) 16 hclear'
  have hid := State.id_of_run? hrun
  have hended : (m.prefetched r i).RunsAre run (fun x => x.Stands i .done) := by
    rw [← hid]
    exact State.RunsAre.setRun_same (x := r) (r := r.setPrefetch i .done) (hruns ▸ State.mem_of_run? hrun) rfl
      (Run.stands_setPrefetch hi rfl PrefetchPhase.noConfusion)
  refine ⟨_, exec_prefetchComplete_of_ok hfound hrun hi hm, ?_, ?_, fun hnone => ?_, fun q hlone hroom hq hne => ?_, hpromoted⟩
  · exact fun a ha => (State.reg_congr (congrArg State.regs hpromoted :) a).trans (hkept a ha)
  · obtain ⟨r', hr', hstands⟩ := (hended.promote 16 hclear' fun x p hx hp hissued => hx.start hp hissued).run?
    exact ⟨r', hr', hstands.mem⟩
  · rw [State.promote_prefetched_of_none hrun hruns hnone, ← hid]
    exact State.run?_setRun_same (r := r.setPrefetch i .done) (x := r) (by rw [State.run?, hruns]; exact hid ▸ hrun)
  · obtain ⟨r', hr', hstands⟩ := (State.promote_prefetched_of_lone 15 hrun hclear hi honly hlone hroom hq hne).run?
    exact ⟨r', hr', hstands.mem⟩

/-! ### The path of a late layer (R190, R193) -/

/-- The event of a path taken: SKIP, RESIDENT or WAIT. -/
def pathEvt (kind : Nat) : Evt :=
  if kind = 0 then Ev.TIER_EVT_STATUS_path_skip else if kind = 1 then Ev.TIER_EVT_STATUS_path_resident else Ev.TIER_EVT_STATUS_path_wait

theorem pathEvt_mem (kind : Nat) :
    pathEvt kind ∈ [Ev.TIER_EVT_STATUS_path_skip, Ev.TIER_EVT_STATUS_path_resident, Ev.TIER_EVT_STATUS_path_wait] := by
  unfold pathEvt
  split
  · exact .head _
  · split
    · exact .tail _ (.head _)
    · exact .tail _ (.tail _ (.head _))

theorem pathEvt_status (kind : Nat) : (pathEvt kind).status = Reg.TIER_EVT_STATUS := by
  have hall : ∀ e ∈ [Ev.TIER_EVT_STATUS_path_skip, Ev.TIER_EVT_STATUS_path_resident, Ev.TIER_EVT_STATUS_path_wait],
    e.status = Reg.TIER_EVT_STATUS := by decide
  exact hall _ (pathEvt_mem kind)

theorem pathEvt_bit_lt (kind : Nat) : (pathEvt kind).bit < 32 := by
  have hall : ∀ e ∈ [Ev.TIER_EVT_STATUS_path_skip, Ev.TIER_EVT_STATUS_path_resident, Ev.TIER_EVT_STATUS_path_wait], e.bit < 32 := by
    decide
  exact hall _ (pathEvt_mem kind)

/-- The counter of a path taken is no other register of those that a late layer or a cancellation moves. -/
theorem pathEvt_counter (kind : Nat) : (pathEvt kind).counter ∉ [Reg.TIER_PATH_LAST, Reg.TIER_PATH_PROG] ++
    Ev.TIER_EVT_STATUS_miss.regs ++ Ev.TIER_EVT_STATUS_cancel.regs := by
  have hall : ∀ e ∈ [Ev.TIER_EVT_STATUS_path_skip, Ev.TIER_EVT_STATUS_path_resident, Ev.TIER_EVT_STATUS_path_wait],
    e.counter ∉ [Reg.TIER_PATH_LAST, Reg.TIER_PATH_PROG] ++ Ev.TIER_EVT_STATUS_miss.regs ++ Ev.TIER_EVT_STATUS_cancel.regs := by
    decide
  exact hall _ (pathEvt_mem kind)

/-- The registers in which a late layer's path is counted and recorded. -/
def pathRegs (kind : Nat) : List Nat := [Reg.TIER_PATH_LAST, Reg.TIER_PATH_PROG] ++ Ev.TIER_EVT_STATUS_miss.regs ++ (pathEvt kind).regs

/-- The registers TIER_PATH_LAST and TIER_PATH_PROG filled in. -/
def State.notePath (s : State) (r : Run) (layer kind : Nat) : State :=
  (((s.setFld Fld.TIER_PATH_LAST_ctx_id r.ctx).setFld Fld.TIER_PATH_LAST_kind kind).setFld Fld.TIER_PATH_LAST_layer layer).setReg
    Reg.TIER_PATH_PROG (BitVec.ofNat 32 r.prog)

theorem State.pathTaken_eq (s : State) (r : Run) (layer kind : Nat) :
    s.pathTaken r layer kind false = ((s.event Ev.TIER_EVT_STATUS_miss).event (pathEvt kind)).notePath r layer kind := rfl

theorem State.regsKept_notePath (s : State) (r : Run) (layer kind : Nat) :
    RegsKept s (s.notePath r layer kind) [Reg.TIER_PATH_LAST, Reg.TIER_PATH_PROG] := by
  intro a ha
  simp only [List.mem_cons, List.not_mem_nil, or_false, not_or] at ha
  obtain ⟨hlast, hprog⟩ := ha
  rw [State.notePath, State.reg_setReg_ne _ _ hprog, State.reg_setFld_ne _ _ (by decide) hlast,
    State.reg_setFld_ne _ _ (by decide) hlast, State.reg_setFld_ne _ _ (by decide) hlast]

theorem State.withRegs_trans {s t u : State} (ht : t = s.withRegs t.regs) (hu : u = t.withRegs u.regs) : u = s.withRegs u.regs :=
  hu.trans ((congrArg (fun a : State => a.withRegs u.regs) ht).trans rfl)

theorem State.setReg_withRegs (s : State) (a : Nat) (v : Word) : s.setReg a v = s.withRegs (s.setReg a v).regs := rfl

theorem State.notePath_only (s : State) (r : Run) (layer kind : Nat) :
    s.notePath r layer kind = s.withRegs (s.notePath r layer kind).regs := by
  have hctx := State.setFld_of_withRegs (s := s) (t := s) rfl Fld.TIER_PATH_LAST_ctx_id r.ctx
  have hkind := State.setFld_of_withRegs hctx Fld.TIER_PATH_LAST_kind kind
  have hlayer := State.setFld_of_withRegs hkind Fld.TIER_PATH_LAST_layer layer
  exact State.withRegs_trans hlayer (State.setReg_withRegs ..)

theorem State.fld_notePath_kind (s : State) (r : Run) (layer kind : Nat) :
    (s.notePath r layer kind).fld Fld.TIER_PATH_LAST_kind = kind % 4 := by
  rw [State.notePath, State.fld_setReg_ne _ _ (by decide) (by decide), State.fld_setFld_ne _ _ (by decide) (by decide) (by decide),
    State.fld_setFld_same _ _ (by decide)]
  rfl

/-- An event stays counted where its registers are kept. -/
theorem Counted.of_regsKept {s m t : State} {e : Evt} {l : List Nat} (h : Counted s m e) (hkept : RegsKept m t l) (hstatus : e.status ∉ l)
    (hcounter : e.counter ∉ l) : Counted s t e := by
  rw [Counted, hkept _ hstatus, hkept _ hcounter]
  exact h

/-- What the path of a late layer changes: registers, in which the miss and the path are counted and the path is recorded. -/
structure PathTaken (s t : State) (kind : Nat) : Prop where
  only : t = s.withRegs t.regs
  kept : RegsKept s t (pathRegs kind)
  missed : Counted s t Ev.TIER_EVT_STATUS_miss
  counted : Counted s t (pathEvt kind)
  recorded : t.fld Fld.TIER_PATH_LAST_kind = kind % 4

theorem pathTaken_of_late (s : State) (r : Run) (layer kind : Nat) : PathTaken s (s.pathTaken r layer kind false) kind := by
  rw [State.pathTaken_eq]
  have hevents : OnlyMoved s ((s.event Ev.TIER_EVT_STATUS_miss).event (pathEvt kind))
      (Ev.TIER_EVT_STATUS_miss.regs ++ (pathEvt kind).regs) :=
    (onlyMoved_event s _).trans (onlyMoved_event _ _)
  have hnoted := State.regsKept_notePath ((s.event Ev.TIER_EVT_STATUS_miss).event (pathEvt kind)) r layer kind
  have hcounter := pathEvt_counter kind
  simp only [List.mem_append, not_or] at hcounter
  obtain ⟨⟨hpath, hmiss⟩, -⟩ := hcounter
  simp only [Evt.regs, List.mem_cons, List.not_mem_nil, or_false, not_or] at hmiss
  obtain ⟨hstatus, hmiss⟩ := hmiss
  have hne : (pathEvt kind).status ≠ (pathEvt kind).counter := by
    rw [pathEvt_status]
    exact Ne.symm hstatus
  have hpathStatus : (pathEvt kind).status ∉ [Reg.TIER_PATH_LAST, Reg.TIER_PATH_PROG] := by
    rw [pathEvt_status]
    decide
  have hmissed := (counted_event s (e := Ev.TIER_EVT_STATUS_miss) (by decide) (by decide)).eventIf true (e' := pathEvt kind)
    (Ne.symm hstatus) (by rw [pathEvt_status]; decide) (Ne.symm hmiss) hne
  have hcounted : Counted s ((s.event Ev.TIER_EVT_STATUS_miss).event (pathEvt kind)) (pathEvt kind) :=
    (counted_event _ hne (pathEvt_bit_lt kind)).since (s.reg_event_ne hstatus hmiss)
  refine ⟨?_, fun a ha => ?_, hmissed.of_regsKept hnoted (by decide) (by decide), hcounted.of_regsKept hnoted hpathStatus hpath,
    State.fld_notePath_kind ..⟩
  · exact State.withRegs_trans (State.withRegs_trans (s.event_withRegs _) (State.event_withRegs ..)) (State.notePath_only ..)
  · simp only [pathRegs, List.mem_append, not_or] at ha
    obtain ⟨⟨hpath, hmiss⟩, hkind⟩ := ha
    refine (hnoted a hpath).trans (hevents.kept a ?_)
    simp only [List.mem_append, not_or]
    exact ⟨hmiss, hkind⟩

/-! ### Memory zeroed (R177) -/

/-- A byte of a range that is zeroed reads 0. -/
theorem State.byteAt_zeroRange_inside (s : State) {base len a : Nat} (hlow : base ≤ a) (hhigh : a < base + len) :
    (s.zeroRange base len).byteAt a = 0 := by
  have hcovers : Fill.covers ⟨base, len, 0⟩ a = true := by simp [Fill.covers, hlow, hhigh]
  obtain hdefault | hmem := Sparse.get_eq_default_or_mem (memDefault (s.zeroRange base len).phys.fills) (s.zeroRange base len).phys.cells a
  · refine hdefault.trans ?_
    simp [State.zeroRange, Memory.fill, memDefault, hcovers]
  · have hout := (List.mem_filter.mp hmem).2
    simp [hcovers] at hout

theorem State.byteAt_zeroRange_outside (s : State) {base len a : Nat} (h : a < base ∨ base + len ≤ a) :
    (s.zeroRange base len).byteAt a = s.byteAt a := by
  have hout : Fill.covers ⟨base, len, 0⟩ a = false := by
    simp [Fill.covers]
    omega
  exact (Sparse.get_filter _ (fun a => !Fill.covers ⟨base, len, 0⟩ a) s.phys.cells (by simp [hout])).trans
    (Sparse.get_of_default_eq (memDefault_fill hout))

theorem State.byteAt_zeroRange_of_zero {s : State} {a : Nat} (base len : Nat) (h : s.byteAt a = 0) :
    (s.zeroRange base len).byteAt a = 0 := by
  by_cases hin : base ≤ a ∧ a < base + len
  · exact s.byteAt_zeroRange_inside hin.1 hin.2
  · exact (s.byteAt_zeroRange_outside (by omega)).trans h

/-- The rows of a tensor that is zeroed read 0. -/
theorem State.byteAt_zeroTensor (s : State) (t : Tensor) (rows cols : Nat) {a : Nat} (hlow : dieLocal t.die t.addr ≤ a)
    (hhigh : a < dieLocal t.die t.addr + t.size rows) : (s.zeroTensor t rows cols).byteAt a = 0 :=
  State.byteAt_zeroRange_of_zero _ _ (s.byteAt_zeroRange_inside hlow hhigh)

/-! ### PREFETCH_DEADLINE of a SKIP path (R190, R191) -/

/-- The output tensor of a GEMM of a run. -/
def gemmOutput (r : Run) (d : Bytes) (f : Format) : Tensor :=
  ⟨r.die, (tileOpOf d).outAddr, (tileOpOf d).soAddr, f, (tileOpOf d).granO, (tileOpOf d).n, 0⟩

theorem State.zeroOutput_of_gemm (s : State) {r : Run} {d : Bytes} {f : Format} (hop : fieldAt d 0 1 = 1)
    (hfmt : formatOf (tileOpOf d).fmtOut = some f) :
    s.zeroOutput r d = s.zeroTensor (gemmOutput r d f) ((tileOpOf d).rows r.args) (tileOpOf d).n := by
  have hopcode : (tileOpOf d).opcode = 1 := hop
  simp [State.zeroOutput, hopcode, hfmt, gemmOutput]

/-- A record of the index is late. -/
def Run.Late (r : Run) (i : Nat) : Prop := i ∈ r.lateRecords.map (·.1)

/-- A run past a layer that was skipped, with none of the layer's transfers unfinished. -/
structure Run.Skipped (r x : Run) : Prop where
  op : x.op = r.op + 1
  codes : x.codes = r.codes ++ [0]
  executed : x.executed = false
  done : x.done = none
  ended : ∀ q ∈ x.prefetches, r.Late q.1 → q.2.unfinished = false

/-- The run past the layer it stands at, with the layer's transfers cancelled. -/
def Run.skip (r : Run) : Run :=
  { r.cancel (r.lateRecords.filter (fun p => p.2.unfinished)) with op := r.op + 1, codes := r.codes ++ [0] }

theorem Run.skip_id (r : Run) : r.skip.id = r.id := (congrArg Run.id (Run.cancel_only r _) :)

theorem Run.skip_prog (r : Run) : r.skip.prog = r.prog := (congrArg Run.prog (Run.cancel_only r _) :)

section Skip
variable {r x : Run} {p : Nat × PrefetchPhase}

/-- Every unfinished record of a late record's index is late. -/
theorem Run.mem_lateRecords_of_unfinished (hlate : r.Late p.1) (hp : p ∈ r.prefetches) (hunfinished : p.2.unfinished = true) :
    p ∈ r.lateRecords := by
  obtain ⟨y, hy, hyp⟩ := List.mem_map.mp hlate
  have hlayer : fieldAt (r.recs.getD y.1 []) 2 2 = r.op := by
    have hy := (List.mem_filter.mp hy).2
    simp only [Bool.and_eq_true, beq_iff_eq] at hy
    exact hy.2
  refine List.mem_filter.mpr ⟨hp, ?_⟩
  rw [← hyp, hlayer, beq_self_eq_true, Bool.and_true, decide_eq_true_eq]
  intro hdone
  rw [hdone] at hunfinished
  cases hunfinished

theorem Run.skipped_skip (hexecuted : r.executed = false) (hdone : r.done = none) : r.Skipped r.skip where
  op := rfl
  codes := rfl
  executed := (congrArg Run.executed (Run.cancel_only r _)).trans hexecuted
  done := (congrArg Run.done (Run.cancel_only r _)).trans hdone
  ended _ hq hlate := Run.not_unfinished_of_mem_cancel (ps := r.lateRecords)
    (fun _ hp hpq hunfinished => Run.mem_lateRecords_of_unfinished (hpq ▸ hlate) hp hunfinished) hq

/-- No transfer that starts later is one of the layer skipped. -/
theorem Run.Skipped.start (h : r.Skipped x) (hp : p ∈ x.prefetches) (hissued : p.2 = .issued) :
    r.Skipped (x.setPrefetch p.1 .inFlight) := by
  refine ⟨h.op, h.codes, h.executed, h.done, fun q hq hlate => ?_⟩
  obtain rfl | ⟨hq, -⟩ := Run.mem_setPrefetch hq
  · have hended := h.ended p hp hlate
    rw [hissued] at hended
    cases hended
  · exact h.ended q hq hlate

end Skip

/-- A cancellation of transfers changes the same in a state with other registers. -/
theorem CancelFrame.since {s m u : State} (h : CancelFrame m u) (hm : m = s.withRegs m.regs) :
    u = { s with regs := u.regs, phys := u.phys, flash := u.flash, freeCtr := u.freeCtr, power := u.power } :=
  h.only.trans ((congrArg (fun a : State =>
    { a with regs := u.regs, phys := u.phys, flash := u.flash, freeCtr := u.freeCtr, power := u.power }) hm).trans rfl)

/-- An operation would start but for a record of its layer that is late and whose transfer has not failed (R190). -/
structure LateLayer (s : State) (run : Nat) (r : Run) (d : Bytes) (p : Nat × PrefetchPhase) (ps : List (Nat × PrefetchPhase)) : Prop where
  run : s.run? run = some r
  op : s.currentOp r = some d
  starts : s.couldStart r d = true
  executed : r.executed = false
  done : r.done = none
  own : r.substitute = none
  wait : r.waitEnd = none
  late : r.lateRecords = p :: ps
  unfailed : (p.2 == PrefetchPhase.failed) = false

section Deadline
variable {run : Nat} {r : Run} {d : Bytes} {l : Layout} {p : Nat × PrefetchPhase} {ps : List (Nat × PrefetchPhase)} {s : State}

theorem LateLayer.exec_of_wait (h : LateLayer s run r d p ps)
    (hkind : fieldAt (s.pathRec r.ctx (fieldAt (r.recs.getD p.1 []) 6 2)) 1 1 = 2) :
    exec (.prefetchDeadline run) s = .next ((s.pathTaken r r.op 2 false).setRun
      { r with waitEnd := some (s.monoNs + fieldAt (s.pathRec r.ctx (fieldAt (r.recs.getD p.1 []) 6 2)) 0x14 4) }) := by
  obtain ⟨hrun, hop, hstarts, hexecuted, hdone, hown, hwait, hlate, hunfailed⟩ := h
  change execPrefetchDeadline run s = _
  simp [-List.getD_eq_getElem?_getD, execPrefetchDeadline, hrun, hop, hlate, hexecuted, hdone, hown, hwait, hstarts, hkind, hunfailed]

theorem LateLayer.exec_of_skip (h : LateLayer s run r d p ps)
    (hkind : fieldAt (s.pathRec r.ctx (fieldAt (r.recs.getD p.1 []) 6 2)) 1 1 = 0) :
    exec (.prefetchDeadline run) s = .next (((((s.pathTaken r r.op 0 false).cancelPrefetches r
      (r.lateRecords.filter (fun p => p.2.unfinished))).zeroOutput r d).nextOp r.skip).promote r.ctx run (s.runInv r) 16) := by
  obtain ⟨hrun, hop, hstarts, hexecuted, hdone, hown, hwait, hlate, hunfailed⟩ := h
  change execPrefetchDeadline run s = _
  simp [-List.getD_eq_getElem?_getD, execPrefetchDeadline, hrun, hop, hlate, hexecuted, hdone, hown, hwait, hstarts, hkind, hunfailed,
    State.cancelLayer_eq, Run.skip]

/-- A programme that goes on past a layer issues its next operation. -/
theorem State.nextOp_of_more {u : State} {x : Run} (hlayout : u.layout = some l) (hmore : x.op < (l.progOps x.prog).length) :
    u.nextOp x = u.issueRun x := by
  simp [State.nextOp, hlayout, hmore]

/-- No transfer that waits once a layer is skipped waited before for a range about to be unmapped. -/
theorem waitersClear.skip {u : State} (h : waitersClear s) (hrun : s.run? run = some r)
    (hu : u = { s with regs := u.regs, phys := u.phys, flash := u.flash, freeCtr := u.freeCtr, power := u.power }) :
    waitersClear (u.issueRun r.skip) := by
  refine waitersClear.of_runs h (t := u.issueRun r.skip) (congrArg State.tierPending hu :) (congrArg State.kv hu :)
    (congrArg State.maps hu :) fun x hx q hq hissued => ?_
  obtain hx | hx := List.mem_append.mp hx
  · exact ⟨x, (congrArg State.runs hu :) ▸ (List.mem_filter.mp hx).1, rfl, hq⟩
  · obtain rfl := List.mem_singleton.mp hx
    exact ⟨r, State.mem_of_run? hrun, (congrArg Run.recs (Run.cancel_only r _).symm :), Run.mem_of_issued_of_mem_cancel hq hissued⟩

end Deadline

theorem prefetchDeadline_skips (run : Nat) (r : Run) (d : Bytes) (l : Layout) (p : Nat × PrefetchPhase) (ps : List (Nat × PrefetchPhase))
    (f : Format) (s : State) (hlate : LateLayer s run r d p ps) (hlayout : s.layout = some l) (hclear : waitersClear s)
    (hkind : fieldAt (s.pathRec r.ctx (fieldAt (r.recs.getD p.1 []) 6 2)) 1 1 = 0) (hmore : r.op + 1 < (l.progOps r.prog).length)
    (hgemm : fieldAt d 0 1 = 1) (hfmt : formatOf (tileOpOf d).fmtOut = some f) :
    ∃ t, exec (.prefetchDeadline run) s = .next t ∧ (∃ r', t.run? run = some r' ∧ r.Skipped r') ∧
      Counted s t Ev.TIER_EVT_STATUS_miss ∧ Counted s t Ev.TIER_EVT_STATUS_path_skip ∧ t.fld Fld.TIER_PATH_LAST_kind = 0 ∧
      (∀ a, dieLocal r.die (tileOpOf d).outAddr ≤ a →
        a < dieLocal r.die (tileOpOf d).outAddr + (gemmOutput r d f).size ((tileOpOf d).rows r.args) → t.byteAt a = 0) ∧
      BlocksKept s t [0x142] := by
  have hexec := hlate.exec_of_skip hkind
  have htaken := pathTaken_of_late s r r.op 0
  have hframe := CancelFrame.cancelPrefetches r (r.lateRecords.filter (fun p => p.2.unfinished)) (s.pathTaken r r.op 0 false)
  generalize s.pathTaken r r.op 0 false = m at hexec htaken hframe
  generalize m.cancelPrefetches r (r.lateRecords.filter (fun p => p.2.unfinished)) = u at hexec hframe
  have hzeroed (a : Nat) (hlow : dieLocal r.die (tileOpOf d).outAddr ≤ a)
      (hhigh : a < dieLocal r.die (tileOpOf d).outAddr + (gemmOutput r d f).size ((tileOpOf d).rows r.args)) :
      (u.zeroTensor (gemmOutput r d f) ((tileOpOf d).rows r.args) (tileOpOf d).n).byteAt a = 0 := u.byteAt_zeroTensor _ _ _ hlow hhigh
  have hzero : CancelFrame m (u.zeroTensor (gemmOutput r d f) ((tileOpOf d).rows r.args) (tileOpOf d).n) :=
    hframe.trans (CancelFrame.of_regs rfl)
  rw [u.zeroOutput_of_gemm hgemm hfmt] at hexec
  generalize u.zeroTensor (gemmOutput r d f) ((tileOpOf d).rows r.args) (tileOpOf d).n = z at hexec hzeroed hzero
  have honly := hzero.since htaken.only
  have hclear' := waitersClear.skip hclear hlate.run honly
  rw [State.nextOp_of_more (l := l) ((congrArg State.layout honly :).trans hlayout) (by rw [Run.skip_prog]; exact hmore)] at hexec
  have hskipped : (z.issueRun r.skip).RunsAre run r.Skipped :=
    r.skip_id.trans (State.id_of_run? hlate.run) ▸ State.RunsAre.issueRun_same z (Run.skipped_skip hlate.executed hlate.done)
  have hrunAfter := (hskipped.promote (ctx := r.ctx) (run := run) (inv := s.runInv r) 16 hclear' fun x p hx hp hissued =>
    hx.start hp hissued).run?
  have hpromoted := State.promote_only (ctx := r.ctx) (run := run) (inv := s.runInv r) 16 hclear'
  generalize (z.issueRun r.skip).promote r.ctx run (s.runInv r) 16 = t at hexec hrunAfter hpromoted
  have hregs : t.regs = z.regs := (congrArg State.regs hpromoted :)
  have hsame : RegsKept z t [] := fun a _ => State.reg_congr hregs a
  refine ⟨t, hexec, hrunAfter, ?_, ?_, ?_, fun a hlow hhigh => ?_, fun a ha => ?_⟩
  · exact (hzero.counted htaken.missed rfl (by decide)).of_regsKept hsame nofun nofun
  · exact (hzero.counted htaken.counted rfl (by decide)).of_regsKept hsame nofun nofun
  · exact (State.fld_congr hregs _).trans ((hzero.fld (by decide) (by decide)).trans htaken.recorded)
  · have hphys : t.phys = z.phys := (congrArg State.phys hpromoted :)
    rw [State.byteAt, hphys]
    exact hzeroed a hlow hhigh
  · have hpath : ∀ a ∈ pathRegs 0, a / 65536 ∈ [0x142] := by decide
    exact (State.reg_congr hregs a).trans ((hzero.blocksKept a ha).trans (htaken.kept a fun hmem => ha (hpath a hmem)))

/-! ### PREFETCH_DEADLINE of a WAIT path (R190, R191) -/

theorem State.setRun_of_withRegs {s m : State} (h : m = s.withRegs m.regs) (r : Run) :
    m.setRun r = { s with regs := (m.setRun r).regs, runs := (m.setRun r).runs } :=
  (congrArg (fun a : State => { a with runs := (m.setRun r).runs }) h).trans rfl

theorem State.run?_of_withRegs {s m : State} (h : m = s.withRegs m.regs) (n : Nat) : m.run? n = s.run? n :=
  (congrArg (fun a : State => a.run? n) h :)

theorem prefetchDeadline_waits (run : Nat) (r : Run) (d : Bytes) (p : Nat × PrefetchPhase) (ps : List (Nat × PrefetchPhase)) (s : State)
    (hlate : LateLayer s run r d p ps) (hkind : fieldAt (s.pathRec r.ctx (fieldAt (r.recs.getD p.1 []) 6 2)) 1 1 = 2) :
    ∃ t, exec (.prefetchDeadline run) s = .next t ∧
      t.run? run = some { r with waitEnd := some (s.monoNs + fieldAt (s.pathRec r.ctx (fieldAt (r.recs.getD p.1 []) 6 2)) 0x14 4) } ∧
      Counted s t Ev.TIER_EVT_STATUS_miss ∧ Counted s t Ev.TIER_EVT_STATUS_path_wait ∧ t.fld Fld.TIER_PATH_LAST_kind = 2 ∧
      t = { s with regs := t.regs, runs := t.runs } ∧
      RegsKept s t ([Reg.TIER_PATH_LAST, Reg.TIER_PATH_PROG] ++ Ev.TIER_EVT_STATUS_miss.regs ++ Ev.TIER_EVT_STATUS_path_wait.regs) := by
  have hexec := hlate.exec_of_wait hkind
  have hrun := hlate.run
  obtain ⟨honly, hkept, hmissed, hcounted, hrecorded⟩ := pathTaken_of_late s r r.op 2
  generalize s.pathTaken r r.op 2 false = m at hexec honly hkept hmissed hcounted hrecorded
  generalize s.monoNs + fieldAt (s.pathRec r.ctx (fieldAt (r.recs.getD p.1 []) 6 2)) 0x14 4 = time at hexec ⊢
  have hrunMid : m.run? run = some r := (State.run?_of_withRegs honly run).trans hrun
  obtain rfl := State.id_of_run? hrun
  have hset := State.run?_setRun_same (r := { r with waitEnd := some time }) hrunMid
  have hsetOnly := State.setRun_of_withRegs honly { r with waitEnd := some time }
  have hregs : (m.setRun { r with waitEnd := some time }).regs = m.regs := rfl
  generalize m.setRun { r with waitEnd := some time } = t at hexec hset hsetOnly hregs
  have hsame : RegsKept m t [] := fun a _ => State.reg_congr hregs a
  exact ⟨t, hexec, hset, hmissed.of_regsKept hsame nofun nofun, hcounted.of_regsKept hsame nofun nofun,
    (State.fld_congr hregs _).trans hrecorded, hsetOnly, fun a ha => (State.reg_congr hregs a).trans (hkept a ha)⟩

/-! ### PREFETCH_WAIT_TIMEOUT (R191) -/

/-- A run that has ended with a code, and none of whose transfers is unfinished. -/
structure Run.Ended (x : Run) (code : Nat) : Prop where
  done : x.done = some code
  ended : ∀ q ∈ x.prefetches, q.2.unfinished = false

/-- No transfer of a run that has ended starts. -/
theorem Run.Ended.start {x : Run} {code : Nat} {p : Nat × PrefetchPhase} (h : x.Ended code) (hp : p ∈ x.prefetches)
    (hissued : p.2 = .issued) : (x.setPrefetch p.1 .inFlight).Ended code := by
  have hended := h.ended p hp
  rw [hissued] at hended
  cases hended

section Timeout
variable {run n code time : Nat} {r : Run} {s : State}

theorem exec_prefetchWaitTimeout_of_late (hrun : s.run? run = some r) (hdone : r.done = none) (hwait : r.waitEnd = some time)
    (hlate : r.lateRecords ≠ []) (htime : time ≤ s.monoNs) : exec (.prefetchWaitTimeout run) s = .next (s.failRun r 0x0402) := by
  obtain ⟨p, ps, hlate⟩ := List.exists_cons_of_ne_nil hlate
  change execPrefetchWaitTimeout run s = _
  simp [execPrefetchWaitTimeout, hrun, hdone, hwait, hlate, htime.not_gt]

/-- A run with its unfinished transfers cancelled and a code. -/
def Run.cut (r : Run) (code : Nat) : Run :=
  { r.cancel (r.prefetches.filter (fun p => p.2.unfinished)) with executed := false, done := some code }

theorem Run.ended_cut (r : Run) (code : Nat) : (r.cut code).Ended code where
  done := rfl
  ended _ hq := Run.not_unfinished_of_mem_cancel (ps := r.prefetches) (fun _ hp _ _ => hp) hq

theorem Run.cut_id (r : Run) (code : Nat) : (r.cut code).id = r.id := (congrArg Run.id (Run.cancel_only r _) :)

theorem State.setRun_setRun {m : State} {x y : Run} (h : y.id = x.id) : (m.setRun x).setRun y = m.setRun y := by
  have hruns : ((m.runs.map (fun z => if z.id = x.id then x else z)).map (fun z => if z.id = y.id then y else z)) =
      m.runs.map (fun z => if z.id = y.id then y else z) := by
    rw [List.map_map]
    refine List.map_congr_left fun z _ => ?_
    by_cases hz : z.id = x.id
    · simp [hz, h]
    · simp [hz, h]
  exact (congrArg (fun rs => { m with runs := rs }) hruns :)

/-- A programme of an invocation that ends early: its transfers are cancelled, and it and the invocation have the code. -/
theorem State.cutRun_of_invocation (horigin : r.origin = .invocation n) (hdone : r.done = none) :
    ∃ u crust power, CancelFrame s u ∧
      s.cutRun r code = ({ u with crust := crust, power := power }.setRun (r.cut code)).setInvDone r.ctx n code := by
  have horigin' : (r.cancel (r.prefetches.filter (fun p => p.2.unfinished))).origin = .invocation n :=
    (congrArg Run.origin (Run.cancel_only r _) :).trans horigin
  have hctx : (r.cancel (r.prefetches.filter (fun p => p.2.unfinished))).ctx = r.ctx := (congrArg Run.ctx (Run.cancel_only r _) :)
  have hframe := CancelFrame.cancelPrefetches r (r.prefetches.filter (fun p => p.2.unfinished)) s
  simp only [State.cutRun, hdone, Option.isSome_none, Bool.false_eq_true, if_false, State.cancelLayer_eq]
  generalize s.cancelPrefetches r (r.prefetches.filter (fun p => p.2.unfinished)) = u at hframe ⊢
  obtain ⟨crust, power, hended⟩ := State.endRun_of_invocation
    (u.setRun (r.cancel (r.prefetches.filter (fun p => p.2.unfinished)))) code horigin'
  refine ⟨u, crust, power, hframe, ?_⟩
  have hset := State.setRun_setRun (m := { u with crust := crust, power := power })
    (x := r.cancel (r.prefetches.filter (fun p => p.2.unfinished))) (y := r.cut code) rfl
  exact hended.trans ((congrArg (State.setInvDone _ · n code) hctx).trans (congrArg (State.setInvDone · r.ctx n code) hset))

/-- No transfer that waits once a programme has ended early waited before for a range about to be unmapped. -/
theorem waitersClear.cut {u w : State} (h : waitersClear s) (hrun : s.run? run = some r) (hu : CancelFrame s u)
    (hw : w = { u with crust := w.crust, power := w.power, runs := (u.setRun (r.cut code)).runs, invs := w.invs }) : waitersClear w := by
  refine waitersClear.of_runs h ?_ ?_ ?_ fun x hx q hq hissued => ?_
  · exact (congrArg State.tierPending hw :).trans (congrArg State.tierPending hu.only :)
  · exact (congrArg State.kv hw :).trans (congrArg State.kv hu.only :)
  · exact (congrArg State.maps hw :).trans (congrArg State.maps hu.only :)
  · have hx : x ∈ (u.setRun (r.cut code)).runs := (congrArg State.runs hw :) ▸ hx
    obtain rfl | ⟨hx, -⟩ := State.eq_or_mem_of_mem_setRun hx
    · exact ⟨r, State.mem_of_run? hrun, (congrArg Run.recs (Run.cancel_only r _).symm :), Run.mem_of_issued_of_mem_cancel hq hissued⟩
    · exact ⟨x, (congrArg State.runs hu.only :) ▸ hx, rfl, hq⟩

end Timeout

theorem prefetchWaitTimeout_ends (run n time : Nat) (r : Run) (s : State) (hrun : s.run? run = some r) (horigin : r.origin = .invocation n)
    (hdone : r.done = none) (hwait : r.waitEnd = some time) (hlate : r.lateRecords ≠ []) (htime : time ≤ s.monoNs)
    (hclear : waitersClear s) :
    ∃ t, exec (.prefetchWaitTimeout run) s = .next t ∧ (∃ r', t.run? run = some r' ∧ r'.Ended 0x0402) ∧ BlocksKept s t [0x142] := by
  have hexec := exec_prefetchWaitTimeout_of_late hrun hdone hwait hlate htime
  obtain ⟨u, crust, power, hframe, hcut⟩ := State.cutRun_of_invocation (s := s) (code := 0x0402) horigin hdone
  obtain rfl := State.id_of_run? hrun
  rw [State.failRun, hcut] at hexec
  have hended : (({ u with crust := crust, power := power }.setRun (r.cut 0x0402)).setInvDone r.ctx n 0x0402).RunsAre r.id
      (fun x => x.Ended 0x0402) := by
    have hmem : r ∈ u.runs := (congrArg State.runs hframe.only :) ▸ State.mem_of_run? hrun
    have hset := State.RunsAre.setRun_same (s := { u with crust := crust, power := power }) (r := r.cut 0x0402)
      (P := fun x => x.Ended 0x0402) hmem (r.cut_id _).symm (r.ended_cut _)
    rw [Run.cut_id] at hset
    exact ⟨hset.found, hset.all⟩
  have hregs : (({ u with crust := crust, power := power }.setRun (r.cut 0x0402)).setInvDone r.ctx n 0x0402).regs = u.regs := rfl
  have hclear' : waitersClear (({ u with crust := crust, power := power }.setRun (r.cut 0x0402)).setInvDone r.ctx n 0x0402) :=
    waitersClear.cut hclear hrun hframe rfl
  generalize ({ u with crust := crust, power := power }.setRun (r.cut 0x0402)).setInvDone r.ctx n 0x0402 = w at hexec hended hregs hclear'
  have hpromoted := State.promote_only (ctx := r.ctx) (run := r.id) (inv := s.runInv r) 16 hclear'
  refine ⟨_, hexec, (hended.promote 16 hclear' fun x p hx hp hissued => hx.start hp hissued).run?, fun a ha => ?_⟩
  exact (State.reg_congr (congrArg State.regs hpromoted :) a).trans ((State.reg_congr hregs a).trans (hframe.blocksKept a ha))

/-- Settles O33: each clause by what the command's execution comes to, and by what of it the start of waiting transfers keeps. -/
theorem prefetches : Obligations.Prefetches := by
  unfold Obligations.Prefetches
  refine ⟨prefetchIssue_starts, prefetchComplete_moves, ?skip, ?wait, ?timeout⟩
  case skip =>
    intro run r d l p ps f s hrun hlayout hop hstarts hexecuted hdone hown hwait hlate hclear hunfailed hkind hmore hgemm hfmt
    obtain ⟨t, hexec, ⟨r', hr', hskipped⟩, heffects⟩ := prefetchDeadline_skips run r d l p ps f s
      ⟨hrun, hop, hstarts, hexecuted, hdone, hown, hwait, hlate, beq_eq_false_iff_ne.mpr hunfailed⟩ hlayout hclear hkind hmore hgemm hfmt
    exact ⟨t, hexec, ⟨r', hr', hskipped.op, hskipped.codes, hskipped.executed, hskipped.done,
      fun x hx hlate => PrefetchPhase.unfinished_eq_false (hskipped.ended x hx hlate)⟩, heffects⟩
  case wait =>
    intro run r d p ps s hrun hop hstarts hexecuted hdone hown hwait hlate hunfailed
    exact prefetchDeadline_waits run r d p ps s
      ⟨hrun, hop, hstarts, hexecuted, hdone, hown, hwait, hlate, beq_eq_false_iff_ne.mpr hunfailed⟩
  case timeout =>
    intro run n time r s hrun horigin hdone hwait hlate htime hclear
    obtain ⟨t, hexec, ⟨r', hr', hended⟩, hkept⟩ := prefetchWaitTimeout_ends run n time r s hrun horigin hdone hwait hlate htime hclear
    exact ⟨t, hexec, ⟨r', hr', hended.done, fun x hx => PrefetchPhase.unfinished_eq_false (hended.ended x hx)⟩, hkept⟩

end Sys2Proof.Machine
end

section
/-! Traffic regulation and copies of time (chapters 01 and 11): windows that begin, requests that complete, snapshots, the clear of
latency maxima, retried flits and realignments, and the statement about them. -/

namespace Sys2Proof.Machine

/-! ### BUDGET_WINDOW_START (R206) -/

/-- A window whose boundary has come begins anew, and its requests that wait are over budget no longer. -/
theorem State.rollWindow_of_due {s : State} {loc i : Nat}
    (h : (Sparse.get (fun _ => {}) s.windows (windowKey loc i)).next ≤ s.localNow loc) :
    s.rollWindow loc (some i) = { s with
      windows := Sparse.put (fun _ => {}) s.windows (windowKey loc i) ⟨s.nextWindow i (s.localNow loc), 0⟩
      requests := s.requests.map (fun x =>
        if x.loc = loc ∧ x.record = some i ∧ x.granted.isNone = true then { x with overBudget := false } else x) } := if_pos h

theorem State.rollWindow_of_early {s : State} {loc i : Nat}
    (h : s.localNow loc < (Sparse.get (fun _ => {}) s.windows (windowKey loc i)).next) : s.rollWindow loc (some i) = s :=
  if_neg h.not_ge

theorem exec_budgetWindowStart (loc i : Nat) (s : State) :
    exec (.budgetWindowStart (loc, i)) s = .next (if (s.recs 5)[i]?.isSome then s.rollWindow loc (some i) else s) := rfl

theorem budgetWindowStart_restarts {loc i : Nat} {r : Bytes} {s : State} (hrec : (s.recs 5)[i]? = some r)
    (hdue : (Sparse.get (fun _ => {}) s.windows (windowKey loc i)).next ≤ s.localNow loc) :
    ∃ t, exec (.budgetWindowStart (loc, i)) s = .next t ∧
      Sparse.get (fun _ => {}) t.windows (windowKey loc i) = ⟨s.nextWindow i (s.localNow loc), 0⟩ ∧
      (∀ q ∈ t.requests, q.loc = loc → q.record = some i → q.granted = none → q.overBudget = false) ∧
      t.requests.length = s.requests.length ∧ t = { s with windows := t.windows, requests := t.requests } := by
  have hexec := exec_budgetWindowStart loc i s
  rw [hrec, Option.isSome_some, if_pos rfl, State.rollWindow_of_due hdue] at hexec
  refine ⟨_, hexec, Sparse.get_put_same, fun q hq hloc hrecord hgranted => ?_, List.length_map _, rfl⟩
  obtain ⟨x, -, hx⟩ := List.mem_map.mp hq
  split at hx
  · exact hx ▸ rfl
  · next hother =>
    subst hx
    exact absurd ⟨hloc, hrecord, Option.isNone_iff_eq_none.mpr hgranted⟩ hother

theorem exec_budgetWindowStart_of_early {loc i : Nat} {s : State}
    (h : s.localNow loc < (Sparse.get (fun _ => {}) s.windows (windowKey loc i)).next) :
    exec (.budgetWindowStart (loc, i)) s = .next s := by
  rw [exec_budgetWindowStart, State.rollWindow_of_early h, ite_self]

/-! ### Late counters (R213) -/

/-- True where a latency exceeds the target at a resource that a request crossed. -/
def State.lateAt (s : State) (lat : Nat) (p : Nat × Nat × Nat × Option Nat) : Bool := decide (s.latencyTarget p.2.2.2 p.2.2.1 < lat)

theorem State.countLate_only (s : State) (lat : Nat) (ps : List (Nat × Nat × Nat × Option Nat)) :
    s.countLate lat ps = s.withRegs (s.countLate lat ps).regs := by
  induction ps generalizing s with
  | nil => rfl
  | cons p ps ih =>
    obtain ⟨loc, res, cls, rec'⟩ := p
    rw [State.countLate]
    split
    · exact State.withRegs_trans (s.setReg_withRegs _ _) (ih _)
    · exact ih s

theorem State.lateAt_setReg (s : State) (a : Nat) (v : Word) : (s.setReg a v).lateAt = s.lateAt := rfl

/-- A register advances once for each late resource that counts in it. -/
theorem State.reg_countLate (s : State) (lat : Nat) (ps : List (Nat × Nat × Nat × Option Nat)) (a : Nat) :
    (s.countLate lat ps).reg a =
      s.reg a + BitVec.ofNat 32 (ps.countP (fun p => decide (Reg.MON_LATE p.1 p.2.1 p.2.2.1 = a) && s.lateAt lat p)) := by
  induction ps generalizing s with
  | nil => exact (BitVec.add_zero _).symm
  | cons p ps ih =>
    have hp : s.lateAt lat p = decide (s.latencyTarget p.2.2.2 p.2.2.1 < lat) := rfl
    rw [State.countLate, List.countP_cons, hp]
    by_cases hlate : s.latencyTarget p.2.2.2 p.2.2.1 < lat
    · rw [if_pos hlate, ih, State.lateAt_setReg, State.reg_setReg]
      by_cases ha : Reg.MON_LATE p.1 p.2.1 p.2.2.1 = a
      · subst ha
        simp only [decide_true, hlate, Bool.and_self, if_true, BitVec.ofNat_add]
        rw [BitVec.add_assoc, BitVec.add_comm 1]
        rfl
      · simp only [Ne.symm ha, ha, decide_false, Bool.false_and, Bool.false_eq_true, if_false, Nat.add_zero]
    · simp only [hlate, if_false, ih, decide_false, Bool.and_false, Bool.false_eq_true, Nat.add_zero]

/-- Each resource and class of a die has a late counter of its own. -/
theorem late_inj {loc res cls loc' res' cls' : Nat} (hres : res < 10) (hcls : cls < 8) (hres' : res' < 10)
    (hcls' : cls' < 8) :
    Reg.MON_LATE loc res cls = Reg.MON_LATE loc' res' cls' ↔ loc = loc' ∧ res = res' ∧ cls = cls' := by
  unfold Reg.MON_LATE
  omega

/-- The late counters lie in the block MON. -/
theorem late_block {loc res cls : Nat} (hres : res < 10) (hcls : cls < 8) : Reg.MON_LATE loc res cls / 65536 % 256 = 5 := by
  unfold Reg.MON_LATE
  omega

section Late
variable {s : State} {lat : Nat} {ps : List (Nat × Nat × Nat × Option Nat)}
  (hps : ∀ p ∈ ps, p.1 < 5 ∧ p.2.1 < 10 ∧ p.2.2.1 < 8)
include hps

theorem State.reg_late_countLate {res cls : Nat} (loc : Nat) (hres : res < 10) (hcls : cls < 8) :
    (s.countLate lat ps).reg (Reg.MON_LATE loc res cls) = s.reg (Reg.MON_LATE loc res cls) +
      BitVec.ofNat 32 (ps.countP (fun p => p.1 == loc && p.2.1 == res && p.2.2.1 == cls && s.lateAt lat p)) := by
  rw [State.reg_countLate]
  congr 2
  refine List.countP_congr fun p hp => ?_
  obtain ⟨-, hpres, hpcls⟩ := hps p hp
  simp only [Bool.and_eq_true, decide_eq_true_eq, beq_iff_eq, late_inj hpres hpcls hres hcls, and_assoc]

/-- Late resources are counted in the block MON alone. -/
theorem State.reg_countLate_ne {a : Nat} (ha : a / 65536 % 256 ≠ 5) : (s.countLate lat ps).reg a = s.reg a := by
  have hnone : ps.countP (fun p => decide (Reg.MON_LATE p.1 p.2.1 p.2.2.1 = a) && s.lateAt lat p) = 0 := by
    refine List.countP_eq_zero.mpr fun p hp hcounts => ?_
    obtain ⟨-, hpres, hpcls⟩ := hps p hp
    rw [Bool.and_eq_true, decide_eq_true_eq] at hcounts
    exact ha (hcounts.1 ▸ late_block hpres hpcls)
  rw [State.reg_countLate, hnone]
  exact BitVec.add_zero _

end Late

/-! ### What follows a completion once its deadline is judged (R206, R207, R211) -/

theorem TrafficFrame.of_regs {s t : State} (h : t = { s with regs := t.regs }) : TrafficFrame s t := by
  have hrequests : t.requests = s.requests := (congrArg State.requests h :)
  have hwindows : t.windows = s.windows := (congrArg State.windows h :)
  have hcrust : t.crust = s.crust := (congrArg State.crust h :)
  unfold TrafficFrame
  rw [hrequests, hwindows, hcrust]
  exact h

/-- A register of the block TCL beside dl_miss and its counter on a die. -/
structure BesideMiss (die a : Nat) : Prop where
  block : a / 65536 % 256 = 4
  status : a ≠ Reg.TCL_EVT_STATUS die
  counter : a ≠ (Ev.TCL_EVT_STATUS_dl_miss die).counter

theorem BesideMiss.of_offset (die loc : Nat) {offset : Nat} (hblock : offset / 65536 = 4) (hstatus : offset ≠ 0x40000)
    (hcounter : offset ≠ 0x40008) : BesideMiss die (loc * 0x1000000 + offset) where
  block := by omega
  status := by unfold Reg.TCL_EVT_STATUS; omega
  counter := by unfold Ev.TCL_EVT_STATUS_dl_miss; dsimp only; omega

theorem dlMiss_counter_ne (die loc : Nat) : (Ev.TCL_EVT_STATUS_dl_miss die).counter ≠ Reg.TCL_EVT_STATUS loc := by
  unfold Ev.TCL_EVT_STATUS_dl_miss Reg.TCL_EVT_STATUS
  dsimp only
  omega

/-- The second state is the first but for what the arbiters hold, with the same requests in it, no register moved outside the block
TCL, and every dl_miss counted on a die as it was. -/
structure MissKept (die : Nat) (s t : State) : Prop where
  frame : TrafficFrame s t
  kept : ∀ a, a / 65536 % 256 ≠ 4 → t.reg a = s.reg a
  counted : ∀ {m : State}, Counted m s (Ev.TCL_EVT_STATUS_dl_miss die) → Counted m t (Ev.TCL_EVT_STATUS_dl_miss die)
  ids : t.requests.map Request.id = s.requests.map Request.id

namespace MissKept
variable {die : Nat} {s t u : State}

theorem refl (die : Nat) (s : State) : MissKept die s s := ⟨.refl s, fun _ _ => rfl, id, rfl⟩

theorem trans (hst : MissKept die s t) (htu : MissKept die t u) : MissKept die s u :=
  ⟨hst.frame.trans htu.frame, fun a ha => (htu.kept a ha).trans (hst.kept a ha), fun h => htu.counted (hst.counted h),
    htu.ids.trans hst.ids⟩

theorem foldl {α : Type} {f : State → α → State} (hf : ∀ a x, MissKept die a (f a x)) (xs : List α) (s : State) :
    MissKept die s (xs.foldl f s) := by
  induction xs generalizing s with
  | nil => exact refl die s
  | cons x xs ih => exact (hf s x).trans (ih (f s x))

theorem of_regs_eq (hregs : t.regs = s.regs) (hframe : TrafficFrame s t)
    (hids : t.requests.map Request.id = s.requests.map Request.id) : MissKept die s t where
  frame := hframe
  kept a _ := State.reg_congr hregs a
  counted h := by
    unfold Counted at h ⊢
    rwa [State.reg_congr hregs, State.reg_congr hregs]
  ids := hids

theorem setFld (s : State) {f : Fld} (v : Nat) (hf : f.lo + f.width ≤ 32) (h : BesideMiss die f.addr) :
    MissKept die s (s.setFld f v) where
  frame := .of_regs (s.setFld_regs_only f v)
  kept a ha := s.reg_setFld_ne v hf fun haddr => ha (haddr ▸ h.block)
  counted hm := hm.setFld v hf h.status.symm h.counter.symm
  ids := by rw [State.setFld_requests]

theorem event (s : State) {e : Evt} {loc : Nat} (hs : e.status = Reg.TCL_EVT_STATUS loc) (hne : e.status ≠ e.counter)
    (h : BesideMiss die e.counter) : MissKept die s (s.event e) where
  frame := .of_regs rfl
  kept _ ha := s.reg_event_ne (hs ▸ ne_of_block_ne ha) fun hc => ha (hc ▸ h.block)
  counted hm := hm.eventIf true h.status.symm (hs ▸ dlMiss_counter_ne die loc) h.counter.symm hne
  ids := rfl

/-- The fields of TCL_C0_LAST written. -/
theorem setLast (s : State) (loc ctx res kind : Nat) :
    MissKept die s (((s.setFld (Fld.TCL_C0_LAST_ctx_id loc) ctx).setFld (Fld.TCL_C0_LAST_resource loc) res).setFld
      (Fld.TCL_C0_LAST_kind loc) kind) := by
  have hlast : BesideMiss die (Reg.TCL_C0_LAST loc) := .of_offset die loc (by decide) (by decide) (by decide)
  exact ((setFld s (f := ⟨Reg.TCL_C0_LAST loc, 0, 6⟩) ctx (by simp) hlast).trans
    (setFld _ (f := ⟨Reg.TCL_C0_LAST loc, 8, 4⟩) res (by simp) hlast)).trans
    (setFld _ (f := ⟨Reg.TCL_C0_LAST loc, 12, 1⟩) kind (by simp) hlast)

theorem reportOverBudget (s : State) (q : Request) : MissKept die s (s.reportOverBudget q) := by
  have hevent := event (die := die) s (e := Ev.TCL_EVT_STATUS_c0_over q.loc) rfl
    (by unfold Ev.TCL_EVT_STATUS_c0_over Reg.TCL_EVT_STATUS; dsimp only; omega)
    (.of_offset die q.loc (by decide) (by decide) (by decide))
  have hreport (m : State) : MissKept die m (m.report 0x0C 0) := of_regs_eq rfl rfl rfl
  exact (hevent.trans (setLast _ q.loc q.ctx q.res 0)).trans (hreport _)

end MissKept

/-- A window rolled keeps which requests stand. -/
theorem Rolled.ids {s t : State} (h : Rolled s t) : t.requests.map Request.id = s.requests.map Request.id := by
  obtain ⟨⟨mark, hreqs⟩, -⟩ := h
  rw [hreqs, List.map_map]
  rfl

theorem missKept_arrive (die : Nat) (s : State) (q : Request) : MissKept die s (s.arrive q) := by
  have hroll := rolled_rollWindow s q.loc q.record
  have hrolled : MissKept die s (s.rollWindow q.loc q.record) := .of_regs_eq hroll.regs hroll.frame hroll.ids
  rw [s.arrive_eq q]
  extract_lets r s1
  have hplaced : MissKept die r s1 := by
    refine .of_regs_eq rfl (.with_requests ..) ?_
    rw [List.map_map]
    refine List.map_congr_left fun x _ => ?_
    rw [Function.comp_apply]
    split
    · next hid => exact hid.symm
    · rfl
  split
  · exact (hrolled.trans hplaced).trans (.reportOverBudget s1 q)
  · exact hrolled.trans hplaced

theorem missKept_release (die : Nat) (s : State) (die' master : Nat) : MissKept die s (s.release die' master) := by
  refine .foldl (fun a x => ?_) _ s
  rw [a.send_eq x]
  split
  · exact missKept_arrive die a (a.sentRequest x)
  · exact .refl die a

/-- The longest latency of class 0 noted, and a class-0 request that was late reported in TCL_C0_LAST (R211). -/
def State.noteClass0 (s : State) (q : Request) (lat : Nat) (late : Bool) : State :=
  if q.cls = 0 then
    if late then
      ((((s.noteLatency q.die q.res lat).event (Ev.TCL_EVT_STATUS_c0_target q.die)).setFld (Fld.TCL_C0_LAST_ctx_id q.die) q.ctx).setFld
        (Fld.TCL_C0_LAST_resource q.die) q.res).setFld (Fld.TCL_C0_LAST_kind q.die) 1
    else s.noteLatency q.die q.res lat
  else s

theorem missKept_noteClass0 (s : State) {q : Request} (hres : q.res < 10) (lat : Nat) (late : Bool) :
    MissKept q.die s (s.noteClass0 q lat late) := by
  have hbeside : BesideMiss q.die (Reg.TCL_C0_LAT_MAX q.die q.res) := by
    unfold Reg.TCL_C0_LAT_MAX
    rw [Nat.add_assoc]
    exact .of_offset q.die q.die (by omega) (by omega) (by omega)
  have hlatency : MissKept q.die s (s.noteLatency q.die q.res lat) :=
    .setFld s (f := ⟨Reg.TCL_C0_LAT_MAX q.die q.res, 0, 24⟩) _ (by simp) hbeside
  unfold State.noteClass0
  split
  · split
    · have hevent := MissKept.event (die := q.die) (s.noteLatency q.die q.res lat) (e := Ev.TCL_EVT_STATUS_c0_target q.die)
        rfl (by unfold Ev.TCL_EVT_STATUS_c0_target Reg.TCL_EVT_STATUS; dsimp only; omega) (.of_offset q.die q.die (by decide) (by decide) (by decide))
      exact (hlatency.trans hevent).trans (.setLast _ q.die q.ctx q.res 1)
    · exact hlatency
  · exact .refl q.die s

/-! ### REQUEST_COMPLETE (R207, R213) -/

/-- The state without a request. -/
def State.dropRequest (s : State) (id : Nat) : State := { s with requests := s.requests.filter (fun x => x.id != id) }

/-- The resources that a request has crossed once its last one has served it. -/
def Request.crossed (q : Request) : List (Nat × Nat × Nat × Option Nat) := q.passed ++ [(q.loc, q.res, q.cls, q.record)]

/-- The latency of a request that completes. -/
def State.latency (s : State) (q : Request) : Nat := ((s.localNow q.die : Int) - q.issued).toNat

/-- A request gone and counted late, before its deadline is judged. -/
def State.completed (s : State) (q : Request) (id : Nat) : State := (s.dropRequest id).countLate (s.latency q) q.crossed

/-- True where a request completes after its deadline. -/
def State.missed (s : State) (q : Request) : Bool := q.due.elim false (fun d => decide (d < s.localNow q.die))

theorem exec_requestComplete_of_granted {id : Nat} {q : Request} {s : State} (hfind : s.requests.find? (fun x => x.id == id) = some q)
    (hgranted : q.granted.isSome = true) :
    exec (.requestComplete id) s = .next ((((s.completed q id).eventIf (s.missed q) (Ev.TCL_EVT_STATUS_dl_miss q.die)).noteClass0 q
      (s.latency q) (decide (s.latencyTarget q.record q.cls < s.latency q))).release q.die q.master) := by
  have hserved : ¬(q.granted.isNone = true) := by
    rw [Option.isNone_iff_eq_none, ← ne_eq, ← Option.isSome_iff_ne_none]
    exact hgranted
  change execRequestComplete id s = _
  unfold execRequestComplete
  rw [hfind]
  dsimp only
  rw [if_neg hserved]
  rfl

theorem State.completed_frame (s : State) (q : Request) (id : Nat) : TrafficFrame s (s.completed q id) :=
  (TrafficFrame.with_requests s _).trans (.of_regs ((s.dropRequest id).countLate_only _ _))

theorem State.completed_requests (s : State) (q : Request) (id : Nat) :
    (s.completed q id).requests = s.requests.filter (fun x => x.id != id) :=
  (congrArg State.requests ((s.dropRequest id).countLate_only _ _) :)

theorem requestComplete_leaves {id : Nat} {q : Request} {s : State} (hfind : s.requests.find? (fun x => x.id == id) = some q)
    (hgranted : q.granted.isSome = true) (hres : q.res < 10)
    (hcrossed : ∀ p ∈ q.passed ++ [(q.loc, q.res, q.cls, q.record)], p.1 < 5 ∧ p.2.1 < 10 ∧ p.2.2.1 < 8) :
    ∃ t, exec (.requestComplete id) s = .next t ∧ (∀ x ∈ t.requests, x.id ≠ id) ∧
      (∀ loc res cls, loc < 5 → res < 10 → cls < 8 →
        t.reg (Reg.MON_LATE loc res cls) = s.reg (Reg.MON_LATE loc res cls) +
          BitVec.ofNat 32 ((q.passed ++ [(q.loc, q.res, q.cls, q.record)]).countP (fun p =>
            p.1 == loc && p.2.1 == res && p.2.2.1 == cls && decide (s.latencyTarget p.2.2.2 p.2.2.1 < ((s.localNow q.die : Int) - q.issued).toNat)))) ∧
      (∀ d, q.due = some d → d < s.localNow q.die → Counted s t (Ev.TCL_EVT_STATUS_dl_miss q.die)) ∧ TrafficRegsOnly s t ∧
      t = { s with requests := t.requests, windows := t.windows, regs := t.regs, crust := t.crust } := by
  have hrest := (missKept_noteClass0 ((s.completed q id).eventIf (s.missed q) (Ev.TCL_EVT_STATUS_dl_miss q.die)) hres (s.latency q)
    (decide (s.latencyTarget q.record q.cls < s.latency q))).trans (missKept_release q.die _ q.die q.master)
  have hjudged := onlyMoved_eventIf (s.completed q id) (s.missed q) (Ev.TCL_EVT_STATUS_dl_miss q.die)
  have hevent {a : Nat} (ha : a / 65536 % 256 ≠ 4) :
      ((s.completed q id).eventIf (s.missed q) (Ev.TCL_EVT_STATUS_dl_miss q.die)).reg a = (s.completed q id).reg a :=
    State.reg_eventIf_ne _ _ (e := ⟨Reg.TCL_EVT_STATUS q.die, 1, q.die * 0x1000000 + 0x40008⟩) (ne_of_block_ne ha) (ne_of_block_ne ha)
  refine ⟨_, exec_requestComplete_of_granted hfind hgranted, fun x hx hid => ?gone, fun loc res cls _ hr hcls => ?late,
    fun d hdue hpast => ?missed, fun a h4 h5 => ?blocks, ?frame⟩
  case gone =>
    have hmem : id ∈ (s.completed q id).requests.map Request.id := by
      have hx' := List.mem_map_of_mem (f := Request.id) hx
      rwa [hrest.ids, State.eventIf_requests, hid] at hx'
    rw [s.completed_requests q id] at hmem
    obtain ⟨y, hy, hyid⟩ := List.mem_map.mp hmem
    rw [List.mem_filter, bne_iff_ne] at hy
    exact hy.2 hyid
  case late =>
    have hmon : Reg.MON_LATE loc res cls / 65536 % 256 ≠ 4 := by
      rw [late_block hr hcls]
      decide
    rw [hrest.kept _ hmon, hevent hmon]
    exact State.reg_late_countLate (s := s.dropRequest id) hcrossed loc hr hcls
  case missed =>
    have hmiss : s.missed q = true := by
      rw [State.missed, hdue]
      exact decide_eq_true hpast
    have hcounter : (s.completed q id).reg (Ev.TCL_EVT_STATUS_dl_miss q.die).counter =
        s.reg (Ev.TCL_EVT_STATUS_dl_miss q.die).counter :=
      State.reg_countLate_ne (s := s.dropRequest id) hcrossed (by unfold Ev.TCL_EVT_STATUS_dl_miss; dsimp only; omega)
    refine hrest.counted ?_
    rw [hmiss]
    exact (counted_event (s.completed q id) (dlMiss_counter_ne q.die q.die).symm (by simp [Ev.TCL_EVT_STATUS_dl_miss])).since hcounter
  case blocks =>
    rw [hrest.kept a h4, hevent h4]
    exact State.reg_countLate_ne (s := s.dropRequest id) hcrossed h5
  case frame =>
    exact ((s.completed_frame q id).trans (.of_regs (State.eventIf_regs_only ..))).trans hrest.frame

/-! ### SNAPSHOT_ARM (R5, R214) -/

/-- An event leaves the fields of its status register that do not hold its bit. -/
theorem State.fld_event_of_not_bit (s : State) {e : Evt} {g : Fld} (hg : g.lo + g.width ≤ 32) (hstatus : g.addr = e.status)
    (hne : e.status ≠ e.counter) (hbit : e.bit < g.lo ∨ g.lo + g.width ≤ e.bit) : (s.event e).fld g = s.fld g := by
  rw [State.fld_word _ hg, State.fld_word _ hg, hstatus, s.reg_event_status hne]
  refine Nat.eq_of_testBit_eq fun i => ?_
  rw [testBit_bits, testBit_bits, BitVec.toNat_or, BitVec.toNat_ofNat, Nat.testBit_or, Nat.testBit_mod_two_pow, Nat.testBit_two_pow]
  by_cases hi : i < g.width
  · have hother : e.bit ≠ g.lo + i := by omega
    simp [hother]
  · simp [hi]

/-- The state without a requester's staged half of a pair (R5). -/
def State.unstaged (s : State) (who : Requester) (low : Nat) : State := { s with staged := dropHalf s.staged who low }

theorem State.setReg64_withRegs (s : State) (a v : Nat) : s.setReg64 a v = s.withRegs (s.setReg64 a v).regs := rfl

section Arm
variable {s : State} {die time : Nat}

theorem exec_snapshotArm_of_served {who : Requester} (time : Nat) (hs : s.served who die 0x05 false = true) :
    exec (.snapshotArm who die time) s =
      .next ((s.unstaged who (Reg.MON_SNAP_TIME die)).armSnapshot die time) := by
  change execSnapshotArm who die time s = _
  rw [execSnapshotArm, State.busWrite_of_served _ hs]
  rfl

/-- A snapshot's time written, and whether the snapshot is armed. -/
def State.setSnapshot (s : State) (die time armed : Nat) : State :=
  (s.setReg64 (Reg.MON_SNAP_TIME die) time).setFld (Fld.MON_SNAP_STATUS_armed die) armed

theorem State.armSnapshot_of_far (h : s.localNow die + 100 ≤ time) : s.armSnapshot die time = s.setSnapshot die time 1 :=
  if_neg h.not_gt

theorem State.armSnapshot_of_near (h : time < s.localNow die + 100) :
    s.armSnapshot die time = (s.setSnapshot die time 0).event (Ev.MON_SNAP_STATUS_missed die) := if_pos h

theorem State.setSnapshot_withRegs (armed : Nat) :
    s.setSnapshot die time armed = s.withRegs (s.setSnapshot die time armed).regs :=
  State.setFld_of_withRegs (s.setReg64_withRegs _ _) _ _

theorem State.fld_setSnapshot (armed : Nat) :
    (s.setSnapshot die time armed).fld (Fld.MON_SNAP_STATUS_armed die) = armed % 2 := State.fld_setFld_same _ _ (by simp)

theorem State.reg64_setSnapshot (armed : Nat) (htime : time < 2 ^ 64) :
    (s.setSnapshot die time armed).reg64 (Reg.MON_SNAP_TIME die) = time := by
  have hmoved := onlyMoved_setFld (s.setReg64 (Reg.MON_SNAP_TIME die) time) (f := Fld.MON_SNAP_STATUS_armed die) armed (by simp)
  rw [State.setSnapshot, hmoved.reg64 (by simp) (by simp), State.reg64_setReg64, Nat.mod_eq_of_lt htime]

theorem State.regsKept_setSnapshot (armed : Nat) :
    RegsKept s (s.setSnapshot die time armed) [Reg.MON_SNAP_TIME die, Reg.MON_SNAP_TIME die + 4, Reg.MON_SNAP_STATUS die] := by
  intro a ha
  simp only [List.mem_cons, List.not_mem_nil, or_false, not_or] at ha
  obtain ⟨hlow, hhigh, hstatus⟩ := ha
  rw [State.setSnapshot, State.reg_setFld_ne _ _ (by simp) hstatus, State.reg_setReg64_ne _ _ hlow hhigh]

end Arm

theorem snapMissed_separate (die : Nat) : (Ev.MON_SNAP_STATUS_missed die).status ≠ (Ev.MON_SNAP_STATUS_missed die).counter := by
  unfold Ev.MON_SNAP_STATUS_missed Reg.MON_SNAP_STATUS
  dsimp only
  omega

theorem snapTaken_separate (die : Nat) : (Ev.MON_SNAP_STATUS_taken die).status ≠ (Ev.MON_SNAP_STATUS_taken die).counter := by
  unfold Ev.MON_SNAP_STATUS_taken Reg.MON_SNAP_STATUS
  dsimp only
  omega

theorem snapshotArm_arms {who : Requester} {die time : Nat} {s : State} (hs : s.served who die 0x05 false = true)
    (htime : time < 2 ^ 64) (hfar : s.localNow die + 100 ≤ time) :
    ∃ t, exec (.snapshotArm who die time) s = .next t ∧ t.flag (Fld.MON_SNAP_STATUS_armed die) = true ∧
      t.reg64 (Reg.MON_SNAP_TIME die) = time ∧
      RegsKept s t [Reg.MON_SNAP_TIME die, Reg.MON_SNAP_TIME die + 4, Reg.MON_SNAP_STATUS die] ∧
      t = { s with regs := t.regs, staged := dropHalf s.staged who (Reg.MON_SNAP_TIME die) } := by
  have hexec := exec_snapshotArm_of_served time hs
  rw [State.armSnapshot_of_far (s := s.unstaged who _) hfar] at hexec
  exact ⟨_, hexec, beq_iff_eq.mpr (State.fld_setSnapshot 1), State.reg64_setSnapshot 1 htime, State.regsKept_setSnapshot 1,
    State.setSnapshot_withRegs 1⟩

theorem snapshotArm_misses {who : Requester} {die time : Nat} {s : State} (hs : s.served who die 0x05 false = true)
    (hnear : time < s.localNow die + 100) :
    ∃ t, exec (.snapshotArm who die time) s = .next t ∧ t.flag (Fld.MON_SNAP_STATUS_armed die) = false ∧
      t.flag (Fld.MON_SNAP_STATUS_missed die) = true ∧
      t = { s with regs := t.regs, staged := dropHalf s.staged who (Reg.MON_SNAP_TIME die) } ∧
      RegsKept s t (Reg.MON_SNAP_TIME die :: (Reg.MON_SNAP_TIME die + 4) :: (Ev.MON_SNAP_STATUS_missed die).regs) := by
  have hexec := exec_snapshotArm_of_served time hs
  rw [State.armSnapshot_of_near (s := s.unstaged who _) hnear] at hexec
  set m := s.unstaged who (Reg.MON_SNAP_TIME die)
  have hsep := snapMissed_separate die
  have honly := State.setSnapshot_withRegs (s := m) (die := die) (time := time) 0
  refine ⟨_, hexec, ?armed, ?missed, ?only, fun a ha => ?kept⟩
  case armed =>
    rw [State.flag, State.fld_event_of_not_bit _ (by simp) rfl hsep (.inr (by simp [Ev.MON_SNAP_STATUS_missed])), State.fld_setSnapshot]
    rfl
  case missed =>
    obtain ⟨hbit, -⟩ := counted_event (m.setSnapshot die time 0) hsep (by simp [Ev.MON_SNAP_STATUS_missed])
    exact State.flag_of_getLsbD (by decide) hbit
  case only => exact State.withRegs_trans honly (State.event_withRegs _ _)
  case kept =>
    simp only [Evt.regs, List.mem_cons, List.not_mem_nil, or_false, not_or] at ha
    obtain ⟨hlow, hhigh, hstatus, hcounter⟩ := ha
    rw [State.reg_event_ne _ hstatus hcounter]
    refine State.regsKept_setSnapshot (s := m) 0 a ?_
    simp only [List.mem_cons, List.not_mem_nil, or_false, not_or]
    exact ⟨hlow, hhigh, hstatus⟩

/-! ### SNAPSHOT_TAKE (R214) -/

/-- Registers copied to the same distance, and none of them a copy itself: each copy has its register's value. -/
theorem State.reg_copyRegs_of_mem {n : Nat} {ps : List (Nat × Nat)} (hdist : ∀ p ∈ ps, p.2 = p.1 + n)
    (hapart : ∀ p ∈ ps, ∀ p' ∈ ps, p.1 ≠ p'.2) (s : State) {p : Nat × Nat} (hp : p ∈ ps) : (s.copyRegs ps).reg p.2 = s.reg p.1 := by
  induction ps generalizing s p with
  | nil => cases hp
  | cons q qs ih =>
    have hih {x : Nat × Nat} (hx : x ∈ qs) := ih (fun x hx => hdist x (List.mem_cons_of_mem _ hx))
      (fun x hx y hy => hapart x (List.mem_cons_of_mem _ hx) y (List.mem_cons_of_mem _ hy)) (s.setReg q.2 (s.reg q.1)) hx
    rcases List.mem_cons.mp hp with rfl | hrest
    · by_cases hagain : ∃ x ∈ qs, p.2 = x.2
      · obtain ⟨x, hx, hpx⟩ := hagain
        have hsource : p.1 = x.1 := by
          have hpd := hdist p hp
          have hxd := hdist x (List.mem_cons_of_mem _ hx)
          omega
        rw [hpx, State.copyRegs, hih hx, s.reg_setReg_ne _ (hapart x (List.mem_cons_of_mem _ hx) p hp), hsource]
      · rw [State.copyRegs, State.reg_copyRegs_ne _ fun x hx hpx => hagain ⟨x, hx, hpx⟩, State.reg_setReg_same]
    · rw [State.copyRegs, hih hrest, s.reg_setReg_ne _ (hapart p hp q List.mem_cons_self)]

/-- A counter of a die and its shadow, which lies 4 KiB above it. -/
theorem shadowPairs_distance {die : Nat} {p : Nat × Nat} (hp : p ∈ shadowPairs die) : p.2 = p.1 + 0x1000 := by
  simp only [shadowPairs, List.mem_flatMap, List.mem_range, List.mem_cons, List.not_mem_nil, or_false] at hp
  obtain ⟨r, -, c, -, rfl | rfl | rfl⟩ := hp
  · unfold Reg.MON_BYTES_SHADOW Reg.MON_BYTES; dsimp only; omega
  · unfold Reg.MON_BYTES_SHADOW Reg.MON_BYTES; dsimp only; omega
  · unfold Reg.MON_LATE_SHADOW Reg.MON_LATE; dsimp only; omega

theorem State.reg_copyRegs_shadow (s : State) {die : Nat} {p : Nat × Nat} (hp : p ∈ shadowPairs die) :
    (s.copyRegs (shadowPairs die)).reg p.2 = s.reg p.1 := by
  refine State.reg_copyRegs_of_mem (fun _ => shadowPairs_distance) (fun x hx y hy => ?_) s hp
  have hdistance := shadowPairs_distance hx
  obtain ⟨-, hx⟩ := shadowPairs_range hx
  obtain ⟨hy, -⟩ := shadowPairs_range hy
  omega

/-- Each byte counter, word by word, and each late counter has a shadow. -/
theorem mem_shadowPairs (die : Nat) {r c : Nat} (hr : r < 10) (hc : c < 8) {p : Nat × Nat}
    (hp : p ∈ [(Reg.MON_BYTES die r c, Reg.MON_BYTES_SHADOW die r c), (Reg.MON_BYTES die r c + 4, Reg.MON_BYTES_SHADOW die r c + 4),
      (Reg.MON_LATE die r c, Reg.MON_LATE_SHADOW die r c)]) : p ∈ shadowPairs die :=
  List.mem_flatMap.mpr ⟨r, List.mem_range.mpr hr, List.mem_flatMap.mpr ⟨c, List.mem_range.mpr hc, hp⟩⟩

section Shadowed
variable {s : State} {ps : List (Nat × Nat)} {at' time : Nat} {seq armed : Fld} {e : Evt} (hseq : seq.lo + seq.width ≤ 32)
  (hseqAddr : seq.addr = e.status) (harmed : armed.lo + armed.width ≤ 32) (harmedAddr : armed.addr = e.status)
include hseq hseqAddr harmed harmedAddr

/-- Beside the instant, the status and the counter of a snapshot, the registers are as the copy leaves them. -/
theorem State.reg_shadowed_of_ne {a : Nat} (hat : a ≠ at') (hat' : a ≠ at' + 4) (hstatus : a ≠ e.status) (hcounter : a ≠ e.counter) :
    (s.shadowed ps at' time seq armed e).reg a = (s.copyRegs ps).reg a := by
  unfold State.shadowed
  dsimp only
  rw [State.reg_event_ne _ hstatus hcounter, State.reg_setFld_ne _ _ harmed (harmedAddr ▸ hstatus),
    State.reg_setFld_ne _ _ hseq (hseqAddr ▸ hstatus), State.reg_setReg64_ne _ _ hat hat']

theorem State.reg64_shadowed_at (hstatus : e.status ≠ at') (hstatus' : e.status ≠ at' + 4) (hcounter : e.counter ≠ at')
    (hcounter' : e.counter ≠ at' + 4) : (s.shadowed ps at' time seq armed e).reg64 at' = time % 2 ^ 64 := by
  rw [← State.reg64_setReg64 (s.copyRegs ps) at' time]
  unfold State.shadowed State.reg64
  dsimp only
  rw [State.reg_event_ne _ hstatus.symm hcounter.symm, State.reg_event_ne _ hstatus'.symm hcounter'.symm,
    State.reg_setFld_ne _ _ harmed (harmedAddr ▸ hstatus.symm), State.reg_setFld_ne _ _ harmed (harmedAddr ▸ hstatus'.symm),
    State.reg_setFld_ne _ _ hseq (hseqAddr ▸ hstatus.symm), State.reg_setFld_ne _ _ hseq (hseqAddr ▸ hstatus'.symm)]

omit hseq hseqAddr in
/-- A snapshot that is taken is no longer armed. -/
theorem State.fld_shadowed_armed (hsep : e.status ≠ e.counter) (hbit : e.bit < armed.lo ∨ armed.lo + armed.width ≤ e.bit) :
    (s.shadowed ps at' time seq armed e).fld armed = 0 := by
  unfold State.shadowed
  dsimp only
  rw [State.fld_event_of_not_bit _ harmed harmedAddr hsep hbit, State.fld_setFld_same _ _ harmed, Nat.zero_mod]

end Shadowed

section Take
variable {s : State} {die : Nat} (harmed : s.flag (Fld.MON_SNAP_STATUS_armed die) = true)
  (hdue : s.reg64 (Reg.MON_SNAP_TIME die) ≤ s.localNow die)
include harmed hdue

theorem State.takeSnapshot_of_due :
    s.takeSnapshot die = s.shadowed (shadowPairs die) (Reg.MON_SNAP_AT die) (s.reg64 (Reg.MON_SNAP_TIME die))
      (Fld.MON_SNAP_STATUS_seq die) (Fld.MON_SNAP_STATUS_armed die) (Ev.MON_SNAP_STATUS_taken die) := by
  rw [State.takeSnapshot_eq, harmed, decide_eq_true hdue]
  rfl

theorem State.flag_takeSnapshot_armed : (s.takeSnapshot die).flag (Fld.MON_SNAP_STATUS_armed die) = false := by
  rw [State.takeSnapshot_of_due harmed hdue, State.flag,
    State.fld_shadowed_armed (by simp) rfl (snapTaken_separate die) (.inr (by simp [Ev.MON_SNAP_STATUS_taken]))]
  rfl

theorem State.reg64_takeSnapshot_at :
    (s.takeSnapshot die).reg64 (Reg.MON_SNAP_AT die) = s.reg64 (Reg.MON_SNAP_TIME die) := by
  rw [State.takeSnapshot_of_due harmed hdue, State.reg64_shadowed_at (by simp) rfl (by simp) rfl,
    Nat.mod_eq_of_lt (s.reg64_lt _)]
  all_goals unfold Ev.MON_SNAP_STATUS_taken Reg.MON_SNAP_STATUS Reg.MON_SNAP_AT; dsimp only; omega

/-- A snapshot that is taken leaves in each shadow what its counter holds. -/
theorem State.reg_takeSnapshot_shadow {p : Nat × Nat} (hp : p ∈ shadowPairs die) : (s.takeSnapshot die).reg p.2 = s.reg p.1 := by
  obtain ⟨hlow, -⟩ := shadowPairs_range hp
  have hne (offset : Nat) (hoffset : offset < 0x52000) : p.2 ≠ die * 0x1000000 + offset := by omega
  rw [State.takeSnapshot_of_due harmed hdue, ← s.reg_copyRegs_shadow hp]
  exact State.reg_shadowed_of_ne (by simp) rfl (by simp) rfl (hne 0x50018 (by decide)) (hne 0x5001C (by decide))
    (hne 0x50008 (by decide)) (hne 0x5000C (by decide))

end Take

theorem exec_snapshotTake_of_open {die : Nat} {s : State} (h : s.blkOpen die 0x05 = true) :
    exec (.snapshotTake die) s = .next (s.takeSnapshot die) := by
  change execSnapshotTake die s = _
  rw [execSnapshotTake, if_pos h]

theorem snapshotTake_shadows {die : Nat} {s : State} (hopen : s.blkOpen die 0x05 = true)
    (harmed : s.flag (Fld.MON_SNAP_STATUS_armed die) = true) (hdue : s.reg64 (Reg.MON_SNAP_TIME die) ≤ s.localNow die) :
    ∃ t, exec (.snapshotTake die) s = .next t ∧ t.flag (Fld.MON_SNAP_STATUS_armed die) = false ∧
      (∀ r c, r < 10 → c < 8 → t.reg64 (Reg.MON_BYTES_SHADOW die r c) = s.reg64 (Reg.MON_BYTES die r c) ∧
        t.reg (Reg.MON_LATE_SHADOW die r c) = s.reg (Reg.MON_LATE die r c) ∧
        t.reg64 (Reg.MON_BYTES die r c) = s.reg64 (Reg.MON_BYTES die r c)) ∧
      t.reg64 (Reg.MON_SNAP_AT die) = s.reg64 (Reg.MON_SNAP_TIME die) ∧ t = { s with regs := t.regs } ∧
      BlocksKept s t [die * 256 + 5] := by
  refine ⟨_, exec_snapshotTake_of_open hopen, State.flag_takeSnapshot_armed harmed hdue, fun r c hr hc => ⟨?bytes, ?late,
    s.reg64_bytes_takeSnapshot die hr hc⟩, State.reg64_takeSnapshot_at harmed hdue, s.takeSnapshot_regs_only die, fun a ha => ?blocks⟩
  case bytes =>
    have hlow := State.reg_takeSnapshot_shadow harmed hdue (mem_shadowPairs die hr hc List.mem_cons_self)
    have hhigh := State.reg_takeSnapshot_shadow harmed hdue (mem_shadowPairs die hr hc (List.mem_cons_of_mem _ List.mem_cons_self))
    rw [State.reg64, State.reg64, hlow, hhigh]
  case late =>
    exact State.reg_takeSnapshot_shadow harmed hdue
      (mem_shadowPairs die hr hc (List.mem_cons_of_mem _ (List.mem_cons_of_mem _ List.mem_cons_self)))
  case blocks =>
    rw [List.mem_singleton] at ha
    exact s.reg_takeSnapshot_ne (by omega) (by omega)

/-! ### LATENCY_MAX_CLEAR (R211) -/

/-- Registers set to zero. -/
def State.zeroRegs (s : State) (addr : Nat → Nat) (ks : List Nat) : State := ks.foldl (fun (a : State) k => a.setReg (addr k) 0) s

theorem State.zeroRegs_only (s : State) (addr : Nat → Nat) (ks : List Nat) :
    s.zeroRegs addr ks = { s with regs := (s.zeroRegs addr ks).regs } := by
  induction ks generalizing s with
  | nil => rfl
  | cons k ks ih => exact (ih (s.setReg (addr k) 0) :)

theorem State.reg_zeroRegs (s : State) (addr : Nat → Nat) (ks : List Nat) (a : Nat) :
    (s.zeroRegs addr ks).reg a = if a ∈ ks.map addr then 0 else s.reg a := by
  induction ks generalizing s with
  | nil => rfl
  | cons k ks ih =>
    have hrec : s.zeroRegs addr (k :: ks) = (s.setReg (addr k) 0).zeroRegs addr ks := rfl
    rw [hrec, ih, State.reg_setReg, List.map_cons]
    by_cases hrest : a ∈ ks.map addr
    · rw [if_pos hrest, if_pos (List.mem_cons_of_mem _ hrest)]
    · rw [if_neg hrest]
      simp only [List.mem_cons, hrest, or_false]

theorem exec_latencyMaxClear_of_served {who : Requester} {die : Nat} {s : State} (hs : s.served who die 0x04 false = true) :
    exec (.latencyMaxClear who die) s = .next (s.zeroRegs (Reg.TCL_C0_LAT_MAX die) (List.range 10)) := by
  change execLatencyMaxClear who die s = _
  rw [execLatencyMaxClear, State.busWrite_of_served _ hs]
  rfl

theorem latencyMaxClear_zeroes {who : Requester} {die : Nat} {s : State} (hs : s.served who die 0x04 false = true) :
    ∃ t, exec (.latencyMaxClear who die) s = .next t ∧ (∀ r, r < 10 → t.reg (Reg.TCL_C0_LAT_MAX die r) = 0) ∧
      RegsKept s t ((List.range 10).map (Reg.TCL_C0_LAT_MAX die)) ∧ t = { s with regs := t.regs } := by
  refine ⟨_, exec_latencyMaxClear_of_served hs, fun r hr => ?_, fun a ha => ?_, s.zeroRegs_only _ _⟩
  · rw [State.reg_zeroRegs, if_pos (List.mem_map_of_mem (List.mem_range.mpr hr))]
  · rw [State.reg_zeroRegs, if_neg ha]

/-! ### DEVICE_TIME_REALIGN (R19, R218) -/

theorem rolled_rollAll (s : State) (die : Nat) : Rolled s (s.rollAll die) := by
  refine Rolled.foldl (fun a p => ?_) _ s
  split
  · exact rolled_rollWindow a die _
  · exact .refl a

/-- A die's own copy of device time with the steps adopted, and a new offset. -/
def State.adopt (s : State) (die : Nat) : State := { s with
  dieSkew := Sparse.put (fun _ => 0) s.dieSkew die (s.freeCtr + 1)
  dieLag := Sparse.put (fun _ => 0) s.dieLag die 0
  freeCtr := s.freeCtr + 1 }

theorem exec_deviceTimeRealign_of_die {die : Nat} (s : State) (hdie : die ≠ 0) :
    exec (.deviceTimeRealign die) s = .next (if s.lag die = 0 then s.adopt die
      else (((s.rollAll die).adopt die).retarget die).shiftRequests die (-(s.lag die))) := by
  change execDeviceTimeRealign die s = _
  rw [execDeviceTimeRealign, if_neg hdie]
  rfl

theorem State.localNow_congr {s t : State} {die : Nat} (htime : t.devTime = s.devTime)
    (hskew : Sparse.get (fun _ => 0) t.dieSkew die = Sparse.get (fun _ => 0) s.dieSkew die) (hlag : t.lag die = s.lag die) :
    t.localNow die = s.localNow die := by
  rw [State.localNow, State.localNow, hskew, hlag, State.now, State.now, htime]

theorem State.localNow_adopt_ne (s : State) {die d : Nat} (h : d ≠ die) : (s.adopt die).localNow d = s.localNow d := by
  refine State.localNow_congr rfl ?_ ?_
  · dsimp only [State.adopt]
    exact Sparse.get_put_ne h
  · dsimp only [State.lag, State.adopt]
    exact Sparse.get_put_ne h

/-- A copy without steps to adopt is within 8 ns of device time. -/
theorem State.localNow_adopt_near (s : State) {die : Nat} (hdie : die ≠ 0) :
    s.now ≤ (s.adopt die).localNow die + 8 ∧ (s.adopt die).localNow die ≤ s.now + 8 := by
  have hlag : (s.adopt die).lag die = 0 := by
    dsimp only [State.lag, State.adopt]
    exact Sparse.get_put_same
  have hnow : (s.adopt die).now = s.now := rfl
  rw [State.localNow, if_neg hdie, hlag, hnow]
  generalize Config.dieSkew _ = skew
  omega

theorem deviceTimeRealign_near {die : Nat} {s : State} (hdie : 1 ≤ die) :
    ∃ t, exec (.deviceTimeRealign die) s = .next t ∧ t.now = s.now ∧ s.now ≤ t.localNow die + 8 ∧ t.localNow die ≤ s.now + 8 ∧
      (∀ d, d ≠ die → t.localNow d = s.localNow d) ∧
      t.requests = (if s.lag die = 0 then s.requests else (s.rollAll die).requests.map (Request.shift die (-(s.lag die)))) ∧
      t = { s with dieSkew := t.dieSkew, dieLag := t.dieLag, freeCtr := t.freeCtr, windows := t.windows, requests := t.requests } := by
  have hne : die ≠ 0 := Nat.ne_of_gt hdie
  have hexec := exec_deviceTimeRealign_of_die s hne
  obtain ⟨hlow, hhigh⟩ := s.localNow_adopt_near hne
  by_cases hlag : s.lag die = 0
  · rw [if_pos hlag] at hexec ⊢
    exact ⟨_, hexec, rfl, hlow, hhigh, fun d hd => s.localNow_adopt_ne hd, rfl, rfl⟩
  · rw [if_neg hlag] at hexec ⊢
    obtain ⟨-, honly⟩ := rolled_rollAll s die
    have honly' : (((s.rollAll die).adopt die).retarget die).shiftRequests die (-(s.lag die)) =
        { s.adopt die with
          windows := (((s.rollAll die).adopt die).retarget die).windows
          requests := (s.rollAll die).requests.map (Request.shift die (-(s.lag die))) } :=
      congrArg (fun a : State => { a.adopt die with
        windows := (((s.rollAll die).adopt die).retarget die).windows
        requests := (s.rollAll die).requests.map (Request.shift die (-(s.lag die))) }) honly
    rw [honly'] at hexec
    exact ⟨_, hexec, rfl, hlow, hhigh, fun d hd => s.localNow_adopt_ne hd, rfl, rfl⟩

/-! ### The obligation -/

theorem exec_flitRetry (s : State) : exec .flitRetry s = .next s := rfl

/-- Settles O13: windows begin by `State.rollWindow`; a completion is what late counters and its deadline note, and what follows leaves
them (`MissKept`); a snapshot copies each counter to its shadow; a realignment leaves no lag but the bounded offset of R19. -/
theorem windows : Obligations.Windows := by
  unfold Obligations.Windows
  exact ⟨fun _ _ _ _ => budgetWindowStart_restarts, fun _ _ s h => ⟨s, exec_budgetWindowStart_of_early h, rfl⟩,
    fun _ _ _ hfind hgranted _ hres => requestComplete_leaves hfind hgranted hres, fun _ _ _ _ _ hs => snapshotArm_arms hs,
    fun _ _ _ _ _ hs => snapshotArm_misses hs, fun _ _ _ hopen => snapshotTake_shadows hopen,
    fun _ _ _ _ hs => latencyMaxClear_zeroes hs, fun s => ⟨s, exec_flitRetry s, rfl⟩,
    fun _ _ hdie _ _ => deviceTimeRealign_near hdie⟩

end Sys2Proof.Machine
end

section
/-! The queue's front, the table of map cells, and the choices of the planner (chapters 15 and 16). -/

namespace Sys2Proof.Machine

/-- Settles O1: `step` is defined by what stands at the front of the queue. -/
theorem stepRunsFront : Obligations.StepRunsFront := by
  unfold Obligations.StepRunsFront
  exact fun _ _ _ => rfl

/-- Settles O60: each part of the reset state is a literal. -/
theorem resetMeetsInvariants : Obligations.ResetMeetsInvariants := by
  unfold Obligations.ResetMeetsInvariants
  exact ⟨Memory.wf_reset, rfl, rfl, rfl, by decide, rfl⟩

/-! ### Cells of the map (R264) -/

section WriteCell
variable {confirm : Nat} {costs : Bytes} {old : MapCell}

theorem writeCell_solid {r : Nat} (hr : r = 2 ∨ r = 3) : writeCell confirm r costs old = ⟨r, 0, costs⟩ := by
  rw [writeCell, if_pos hr]

theorem writeCell_free_of_open (hold : old.state = 0 ∨ old.state = 1) :
    writeCell confirm 1 costs old = ⟨1, 0, List.replicate 7 0⟩ := by
  rw [writeCell, if_neg (by omega), if_pos hold]

theorem writeCell_free_of_solid (hold : old.state = 2 ∨ old.state = 3) :
    writeCell confirm 1 costs old =
      if confirm ≤ old.free + 1 then ⟨1, 0, List.replicate 7 0⟩ else { old with free := old.free + 1 } := by
  rw [writeCell, if_neg (by omega), if_neg (by omega)]

end WriteCell

/-- Settles O43, row by row of the table: a solid result, a FREE on an open cell, and a FREE on a solid one before and at its last
confirmation. -/
theorem writeFollowsTable : Obligations.WriteFollowsTable := by
  unfold Obligations.WriteFollowsTable
  intro confirm costs old
  refine ⟨writeCell_solid (.inl rfl), writeCell_solid (.inr rfl), writeCell_free_of_open, fun hold hfew => ?_, fun hold hmany => ?_⟩
  · rw [writeCell_free_of_solid hold, if_neg (by omega)]
  · rw [writeCell_free_of_solid hold, if_pos hmany]

/-! ### The Sieve (R293) -/

/-- The order of the Sieve: by cost, then by index. -/
def rankBefore (x y : Nat × Nat) : Prop := x.1 < y.1 ∨ (x.1 = y.1 ∧ x.2 < y.2)

theorem rankBefore_of_not {x y : Nat × Nat} (h : ¬rankBefore x y) (hne : x.2 ≠ y.2) : rankBefore y x := by
  simp only [rankBefore] at *
  omega

theorem rankBefore_trans {x y z : Nat × Nat} (hxy : rankBefore x y) (hyz : rankBefore y z) : rankBefore x z := by
  simp only [rankBefore] at *
  omega

theorem mem_insertRank {x y : Nat × Nat} {l : List (Nat × Nat)} : y ∈ insertRank x l ↔ y = x ∨ y ∈ l := by
  induction l with
  | nil => simp [insertRank]
  | cons z zs ih =>
    simp only [insertRank]
    split
    · simp
    · simp only [List.mem_cons, ih]
      tauto

theorem pairwise_insertRank {x : Nat × Nat} {l : List (Nat × Nat)} (hl : l.Pairwise rankBefore) (hx : ∀ y ∈ l, x.2 ≠ y.2) :
    (insertRank x l).Pairwise rankBefore := by
  induction l with
  | nil => simp [insertRank]
  | cons z zs ih =>
    obtain ⟨hz, hzs⟩ := List.pairwise_cons.mp hl
    simp only [insertRank]
    split
    · next hbefore =>
      refine List.pairwise_cons.mpr ⟨fun y hy => ?_, hl⟩
      rcases List.mem_cons.mp hy with rfl | hy
      · exact hbefore
      · exact rankBefore_trans hbefore (hz y hy)
    · next hafter =>
      refine List.pairwise_cons.mpr ⟨fun y hy => ?_, ih hzs fun y hy => hx y (List.mem_cons_of_mem _ hy)⟩
      rcases mem_insertRank.mp hy with rfl | hy
      · exact rankBefore_of_not hafter (hx z List.mem_cons_self)
      · exact hz y hy

/-- The clear candidates of a list with their indices, placed among those before them. -/
def rankClear (l : List (Nat × Nat)) (rs : List (CandResult × Nat)) : List (Nat × Nat) :=
  rs.foldl (fun l r => if r.1.outcome = 0 then insertRank (r.1.cost, r.2) l else l) l

theorem mem_rankClear {x : Nat × Nat} {rs : List (CandResult × Nat)} {l : List (Nat × Nat)} :
    x ∈ rankClear l rs ↔ x ∈ l ∨ ∃ r ∈ rs, r.1.outcome = 0 ∧ x = (r.1.cost, r.2) := by
  induction rs generalizing l with
  | nil => simp [rankClear]
  | cons r rs ih =>
    rw [rankClear, List.foldl_cons]
    refine ih.trans ?_
    split
    · next hclear => simp only [mem_insertRank, List.exists_mem_cons_iff, hclear, true_and]; tauto
    · next hclear => simp [hclear]

theorem pairwise_rankClear {rs : List (CandResult × Nat)} {l : List (Nat × Nat)} (hl : l.Pairwise rankBefore)
    (hrs : rs.Pairwise (fun r r' => r.2 ≠ r'.2)) (hapart : ∀ r ∈ rs, ∀ y ∈ l, r.2 ≠ y.2) : (rankClear l rs).Pairwise rankBefore := by
  induction rs generalizing l with
  | nil => exact hl
  | cons r rs ih =>
    obtain ⟨hr, hrs⟩ := List.pairwise_cons.mp hrs
    have hlater := fun q hq => hapart q (List.mem_cons_of_mem r hq)
    rw [rankClear, List.foldl_cons]
    split
    · refine ih (pairwise_insertRank hl (hapart r List.mem_cons_self)) hrs fun q hq y hy => ?_
      rcases mem_insertRank.mp hy with rfl | hy
      · exact (hr q hq).symm
      · exact hlater q hq y hy
    · exact ih hl hrs hlater

section Sieve
variable (rs : List CandResult)

theorem sieve_eq_take : sieve rs = (rankClear [] rs.zipIdx).take 8 := rfl

theorem mem_ranked {x : Nat × Nat} :
    x ∈ rankClear [] rs.zipIdx ↔ ∃ c, rs[x.2]? = some c ∧ c.outcome = 0 ∧ c.cost = x.1 := by
  rw [mem_rankClear]
  constructor
  · rintro (h | ⟨r, hr, hclear, rfl⟩)
    · exact absurd h List.not_mem_nil
    · exact ⟨r.1, List.mem_zipIdx_iff_getElem?.mp hr, hclear, rfl⟩
  · rintro ⟨c, hc, hclear, hcost⟩
    exact .inr ⟨(c, x.2), List.mem_zipIdx_iff_getElem?.mpr hc, hclear, by rw [hcost]⟩

theorem pairwise_ranked : (rankClear [] rs.zipIdx).Pairwise rankBefore := by
  refine pairwise_rankClear .nil ?_ (fun _ _ _ h => absurd h List.not_mem_nil)
  have hindices : (rs.zipIdx.map Prod.snd).Nodup := by
    rw [List.zipIdx_map_snd]
    exact List.nodup_range'
  exact List.pairwise_map.mp hindices

/-- What the first eight of a ranked list leave out comes after each of them, and there are eight. -/
theorem left_out_comes_after {l : List (Nat × Nat)} (hl : l.Pairwise rankBefore) {n : Nat} {x : Nat × Nat} (hx : x ∈ l)
    (hout : x ∉ l.take n) : (l.take n).length = n ∧ ∀ y ∈ l.take n, rankBefore y x := by
  have hdrop : x ∈ l.drop n := by
    rw [← List.take_append_drop n l, List.mem_append] at hx
    exact hx.resolve_left hout
  have hlong : n ≤ l.length := by
    by_contra hshort
    rw [List.drop_eq_nil_of_le (by omega)] at hdrop
    exact List.not_mem_nil hdrop
  rw [← List.take_append_drop n l, List.pairwise_append] at hl
  exact ⟨by simpa using hlong, fun y hy => hl.2.2 y hy x hdrop⟩

end Sieve

/-! ### Time-scaling (R295) -/

section Lambda
variable (p : PlanCtx) (segs : List (Bytes × List Int))

theorem PlanCtx.lambda_some {n l : Nat} (h : p.lambda segs n = some l) :
    1 ≤ l ∧ l ≤ n ∧ p.rateOk segs l = true ∧ ∀ k, l < k → k ≤ n → p.rateOk segs k = false := by
  induction n with
  | zero => cases h
  | succ n ih =>
    rw [PlanCtx.lambda] at h
    split at h
    · next hok =>
      cases h
      exact ⟨by omega, Nat.le_refl _, hok, fun k hlow hhigh => by omega⟩
    · next hbad =>
      obtain ⟨hpos, hle, hok, habove⟩ := ih h
      refine ⟨hpos, by omega, hok, fun k hlow hhigh => ?_⟩
      rcases Nat.lt_or_ge n k with hk | hk
      · rw [show k = n + 1 by omega]
        simpa using hbad
      · exact habove k hlow hk

theorem PlanCtx.lambda_none {n k : Nat} (h : p.lambda segs n = none) (hpos : 1 ≤ k) (hk : k ≤ n) : p.rateOk segs k = false := by
  induction n with
  | zero => omega
  | succ n ih =>
    rw [PlanCtx.lambda] at h
    split at h
    · cases h
    · next hbad =>
      rcases Nat.lt_or_ge n k with hk' | hk'
      · rw [show k = n + 1 by omega]
        simpa using hbad
      · exact ih h hk'

end Lambda

/-- Settles O45: the Sieve is the first eight of the clear candidates in rank order (`mem_ranked`, `pairwise_ranked`), and time-scaling
tries the rates from the highest down. -/
theorem plannerChoice : Obligations.PlannerChoice := by
  unfold Obligations.PlannerChoice
  refine ⟨fun rs => ⟨List.length_take_le _ _, fun x hx => (mem_ranked rs).mp (List.mem_of_mem_take hx),
    (pairwise_ranked rs).sublist (List.take_sublist _ _), fun i c hc hclear hout => ?_⟩,
    fun p segs l h => p.lambda_some segs h, fun p segs k h => p.lambda_none segs h⟩
  exact left_out_comes_after (pairwise_ranked rs) ((mem_ranked rs).mpr ⟨c, hc, hclear, rfl⟩) hout

end Sys2Proof.Machine
end

section
/-! Registers that only some operations move, and the rules of the safe-torque-off outputs (chapter 19): what an assertion, a release, a
stop and a wiring fault change and leave alone. -/

namespace Sys2Proof.Machine

/-! ### Registers kept -/

section Kept
variable {s t u : State} {l l' : List Nat}

theorem RegsKept.refl (s : State) (l : List Nat) : RegsKept s s l := fun _ _ => rfl

theorem RegsKept.of_regs (h : t.regs = s.regs) (l : List Nat) : RegsKept s t l := fun a _ => State.reg_congr h a

theorem RegsKept.trans (hst : RegsKept s t l) (htu : RegsKept t u l) : RegsKept s u l :=
  fun a ha => (htu a ha).trans (hst a ha)

theorem RegsKept.mono (h : RegsKept s t l) (hl : l ⊆ l') : RegsKept s t l' := fun a ha => h a fun hal => ha (hl hal)

theorem RegsKept.reg (h : RegsKept s t l) {a : Nat} (ha : a ∉ l) : t.reg a = s.reg a := h a ha

theorem RegsKept.fld (h : RegsKept s t l) {f : Fld} (hf : f.lo + f.width ≤ 32) (ha : f.addr ∉ l) : t.fld f = s.fld f :=
  State.fld_of_reg hf (h f.addr ha)

theorem RegsKept.flag (h : RegsKept s t l) {f : Fld} (hf : f.lo + f.width ≤ 32) (ha : f.addr ∉ l) : t.flag f = s.flag f := by
  rw [State.flag, State.flag, h.fld hf ha]

theorem RegsKept.foldl {α : Type} {f : State → α → State} {xs : List α} (hf : ∀ a, ∀ x ∈ xs, RegsKept a (f a x) l) (s : State) :
    RegsKept s (xs.foldl f s) l := by
  induction xs generalizing s with
  | nil => exact .refl s l
  | cons x xs ih => exact (hf s x List.mem_cons_self).trans (ih (fun a y hy => hf a y (List.mem_cons_of_mem _ hy)) _)

theorem RegsKept.blocksKept {blocks : List Nat} (h : RegsKept s t l) (hl : ∀ a ∈ l, a / 65536 ∈ blocks) : BlocksKept s t blocks :=
  fun _ ha => h.reg fun hal => ha (hl _ hal)

theorem regsKept_setFld (s : State) {f : Fld} (v : Nat) (hf : f.lo + f.width ≤ 32) (ha : f.addr ∈ l) : RegsKept s (s.setFld f v) l :=
  fun _ hb => s.reg_setFld_ne v hf fun h => hb (h ▸ ha)

theorem regsKept_setReg (s : State) {a : Nat} (v : Word) (ha : a ∈ l) : RegsKept s (s.setReg a v) l :=
  fun _ hb => s.reg_setReg_ne v fun h => hb (h ▸ ha)

theorem regsKept_setReg64 (s : State) {a : Nat} (v : Nat) (ha : a ∈ l) (ha' : a + 4 ∈ l) : RegsKept s (s.setReg64 a v) l :=
  fun _ hb => s.reg_setReg64_ne v (fun h => hb (h ▸ ha)) (fun h => hb (h ▸ ha'))

theorem regsKept_event_of_mem (s : State) {e : Evt} (hs : e.status ∈ l) (hc : e.counter ∈ l) : RegsKept s (s.event e) l :=
  (regsKept_event s e).mono (by simp [Evt.regs, hs, hc])

theorem State.flag_setFld_same (s : State) {f : Fld} (v : Nat) (h : f.lo + f.width ≤ 32) (hw : f.width = 1) :
    (s.setFld f v).flag f = (v % 2 == 1) := by
  rw [State.flag, s.fld_setFld_same v h, hw, Nat.pow_one]

end Kept

/-! ### What an update leaves beside registers and Crust's own state -/

/-- A function of the state that every step of a fold keeps is kept by the fold. -/
theorem foldl_keeps {α β : Type} {π : State → β} {f : State → α → State} {xs : List α} (hf : ∀ a, ∀ x ∈ xs, π (f a x) = π a) (s : State) :
    π (xs.foldl f s) = π s := by
  induction xs generalizing s with
  | nil => rfl
  | cons x xs ih => exact (ih (fun a y hy => hf a y (List.mem_cons_of_mem _ hy)) _).trans (hf s x List.mem_cons_self)

/-- The state beside the register file and what Crust holds. -/
def State.sansCrust (s : State) : State := { s with regs := [], crust := {} }

theorem State.eq_of_sansCrust {s t : State} (h : t.sansCrust = s.sansCrust) : t = { s with regs := t.regs, crust := t.crust } :=
  congrArg (fun a : State => { a with regs := t.regs, crust := t.crust }) h

/-! ### Safe torque off (R354, R359) -/

/-- The registers of the outputs' status and of a group. -/
def stoRegs (g : Nat) : List Nat := [Reg.SIO_STO_STATUS, Reg.CRUST_GROUP g]

section Sto
variable (s : State) (g : Nat)

theorem State.driveOutputs_only : s.driveOutputs = { s with regs := s.driveOutputs.regs } := rfl

theorem State.regsKept_driveOutputs : RegsKept s s.driveOutputs [Reg.SIO_STO_STATUS] :=
  regsKept_setFld s _ (by decide) (by simp)

theorem State.fld_driveOutputs {f : Fld} (hf : f.lo + f.width ≤ 32)
    (h : f.addr ≠ Reg.SIO_STO_STATUS ∨ f.lo + f.width ≤ 4 ∨ 12 ≤ f.lo) : s.driveOutputs.fld f = s.fld f :=
  s.fld_setFld_ne _ (by decide) hf (by simpa using h)

theorem State.setGroupStop_only (x : Option GroupStop) :
    s.setGroupStop g x = { s with regs := (s.setGroupStop g x).regs, crust := (s.setGroupStop g x).crust } := rfl

theorem State.regsKept_setGroupStop (x : Option GroupStop) : RegsKept s (s.setGroupStop g x) [Reg.CRUST_GROUP g] :=
  (RegsKept.of_regs rfl _ : RegsKept s { s with crust := (s.setGroupStop g x).crust } [Reg.CRUST_GROUP g]).trans
    (regsKept_setFld _ _ (by simp) (by simp))

theorem State.groupStop_setGroupStop (x : Option GroupStop) (h : Nat) :
    (s.setGroupStop g x).groupStop h = if h = g then x else s.groupStop h := Sparse.get_put

theorem State.sansCrust_assertGroup : (s.assertGroup g).sansCrust = s.sansCrust := rfl

theorem State.reports_assertGroup : (s.assertGroup g).crust.reports = s.crust.reports := rfl

theorem State.groupStop_driveOutputs (h : Nat) : s.driveOutputs.groupStop h = s.groupStop h := rfl

theorem State.groupStop_assertGroup (h : Nat) : (s.assertGroup g).groupStop h = if h = g then none else s.groupStop h :=
  (State.groupStop_driveOutputs _ h).trans (State.groupStop_setGroupStop _ g none h)

theorem State.regsKept_assertGroup : RegsKept s (s.assertGroup g) (stoRegs g) := by
  have hstatus : RegsKept s (s.setFld Fld.SIO_STO_STATUS_asserted (setBits (s.fld Fld.SIO_STO_STATUS_asserted) g 1 1)) (stoRegs g) :=
    regsKept_setFld s _ (by decide) (by simp [stoRegs])
  refine (hstatus.trans ?_).trans ((State.regsKept_driveOutputs _).mono (by simp [stoRegs]))
  exact (RegsKept.of_regs rfl _).trans ((State.regsKept_setGroupStop _ g none).mono (by simp [stoRegs]))

theorem crustGroup_ne_stoStatus {g : Nat} (hg : g < 4) : Reg.SIO_STO_STATUS ≠ Reg.CRUST_GROUP g := by
  simp only [Reg.CRUST_GROUP, Reg.SIO_STO_STATUS]
  omega

theorem State.fld_asserted_assertGroup {g : Nat} (hg : g < 4) :
    (s.assertGroup g).fld Fld.SIO_STO_STATUS_asserted = setBits (s.fld Fld.SIO_STO_STATUS_asserted) g 1 1 % 2 ^ 4 := by
  refine (State.fld_driveOutputs _ (by decide) (.inr (.inl (by decide)))).trans ?_
  refine ((State.regsKept_setGroupStop _ g none).fld (by decide) (by simpa using crustGroup_ne_stoStatus hg)).trans ?_
  exact s.fld_setFld_same (f := Fld.SIO_STO_STATUS_asserted) _ (by decide)

/-- A group is asserted after an assertion where it was, or where the assertion is its own. -/
theorem State.asserted_assertGroup {g : Nat} (hg : g < 4) (h : Nat) :
    (s.assertGroup g).asserted h = (decide (h = g) || s.asserted h) := by
  have hfour : s.fld Fld.SIO_STO_STATUS_asserted < 2 ^ 4 := by
    rw [State.fld_word _ (by decide)]
    exact bits_lt ..
  rw [State.asserted, State.asserted, s.fld_asserted_assertGroup hg, Nat.mod_eq_of_lt (setBits_lt hfour (by omega)), testBit_setBits]
  by_cases hh : h = g
  · simp [hh]
  · rw [if_neg (by omega), decide_eq_false hh, Bool.false_or]

theorem State.allAsserted_iff : s.allAsserted = true ↔ ∀ g, g < 4 → s.asserted g = true := by
  have hfour : s.fld Fld.SIO_STO_STATUS_asserted < 2 ^ 4 := by
    rw [State.fld_word _ (by decide)]
    exact bits_lt ..
  simp only [State.allAsserted, State.asserted, beq_iff_eq]
  constructor
  · intro h g hg
    rw [h]
    interval_cases g <;> rfl
  · intro h
    have h0 := h 0 (by omega)
    have h1 := h 1 (by omega)
    have h2 := h 2 (by omega)
    have h3 := h 3 (by omega)
    generalize s.fld Fld.SIO_STO_STATUS_asserted = v at *
    interval_cases v <;> simp_all (decide := true)

end Sto

/-! ### Every group asserted (R344) -/

/-- The registers of the outputs' status and of the four groups. -/
def stoAllRegs : List Nat := [Reg.SIO_STO_STATUS, Reg.CRUST_GROUP 0, Reg.CRUST_GROUP 1, Reg.CRUST_GROUP 2, Reg.CRUST_GROUP 3]

theorem stoRegs_subset {g : Nat} (hg : g < 4) : stoRegs g ⊆ stoAllRegs := by
  interval_cases g <;> simp [stoRegs, stoAllRegs]

section AssertAll
variable (s : State)

theorem State.assertAll_eq : s.assertAll = (((s.assertGroup 0).assertGroup 1).assertGroup 2).assertGroup 3 := by
  rw [State.assertAll, show List.range 4 = [0, 1, 2, 3] from rfl, List.foldl_cons, List.foldl_cons, List.foldl_cons, List.foldl_cons,
    List.foldl_nil]

theorem State.sansCrust_assertAll : s.assertAll.sansCrust = s.sansCrust := by
  rw [State.assertAll]
  exact foldl_keeps (fun a g _ => a.sansCrust_assertGroup g) s

theorem State.reports_assertAll : s.assertAll.crust.reports = s.crust.reports := by
  rw [State.assertAll]
  exact foldl_keeps (π := fun a => a.crust.reports) (fun a g _ => a.reports_assertGroup g) s

theorem State.regsKept_assertAll : RegsKept s s.assertAll stoAllRegs :=
  .foldl (fun a _ hg => (a.regsKept_assertGroup _).mono (stoRegs_subset (List.mem_range.mp hg))) s

theorem State.asserted_assertAll {g : Nat} (hg : g < 4) : s.assertAll.asserted g = true := by
  rw [s.assertAll_eq, State.asserted_assertGroup _ (by omega), State.asserted_assertGroup _ (by omega),
    State.asserted_assertGroup _ (by omega), State.asserted_assertGroup _ (by omega)]
  interval_cases g <;> simp

theorem State.groupStop_assertAll {g : Nat} (hg : g < 4) : s.assertAll.groupStop g = none := by
  rw [s.assertAll_eq]
  simp only [State.groupStop_assertGroup]
  interval_cases g <;> simp

theorem State.sansCrust_report (e x : Nat) : (s.report e x).sansCrust = s.sansCrust := rfl

theorem State.groupStop_report (e x g : Nat) : (s.report e x).groupStop g = s.groupStop g := rfl

theorem State.asserted_report (e x g : Nat) : (s.report e x).asserted g = s.asserted g := rfl

theorem State.reports_report (e x : Nat) : (s.report e x).crust.reports = s.crust.reports ++ [(e, x)] := rfl

theorem State.regsKept_report (e x : Nat) (l : List Nat) : RegsKept s (s.report e x) l := .of_regs rfl l

/-- What a hardware stop does, before any reaction (R344). -/
theorem State.hardStop_stops (event : Nat) :
    (s.hardStop event).allAsserted = true ∧ (s.hardStop event).crust.reports = s.crust.reports ++ [(event, 0)] ∧
      (∀ g, g < 4 → (s.hardStop event).groupStop g = none) ∧ (s.hardStop event).sansCrust = s.sansCrust ∧
      RegsKept s (s.hardStop event) stoAllRegs := by
  rw [State.hardStop, State.allAsserted_iff, State.reports_report, s.reports_assertAll, State.sansCrust_report, s.sansCrust_assertAll]
  exact ⟨fun g hg => (State.asserted_report ..).trans (s.asserted_assertAll hg), rfl,
    fun g hg => (State.groupStop_report ..).trans (s.groupStop_assertAll hg), rfl,
    s.regsKept_assertAll.trans (State.regsKept_report _ _ _ _)⟩

end AssertAll

/-! ### The stops in hardware (R344) -/

/-- A heartbeat that fails and a lockstep mismatch stop Crust and every group. -/
theorem stopped_and_not_running (s : State) {t : State} (ht : t = (s.setFld Fld.CRUST_STATUS_run 0).hardStop 0x14) :
    t.allAsserted = true ∧ t.flag Fld.CRUST_STATUS_run = false ∧ t.crust.reports = s.crust.reports ++ [(0x14, 0)] ∧
      (∀ g, g < 4 → t.groupStop g = none) ∧ t = { s with regs := t.regs, crust := t.crust } ∧
      RegsKept s t [Reg.SIO_STO_STATUS, Reg.CRUST_STATUS, Reg.CRUST_GROUP 0, Reg.CRUST_GROUP 1, Reg.CRUST_GROUP 2,
        Reg.CRUST_GROUP 3] := by
  obtain ⟨hall, hreports, hstops, honly, hkept⟩ := (s.setFld Fld.CRUST_STATUS_run 0).hardStop_stops 0x14
  rw [← ht] at hall hreports hstops honly hkept
  refine ⟨hall, ?_, hreports, hstops, State.eq_of_sansCrust honly, ?_⟩
  · exact (hkept.flag (by decide) (by decide)).trans (s.flag_setFld_same 0 (by decide) rfl)
  · exact (regsKept_setFld s _ (by decide) (by simp)).trans (hkept.mono (by simp [stoAllRegs]))

/-- A clock is more than 2 % off where the comparison of R344 says so on either side. -/
theorem State.clockTrips_iff (s : State) (d khz : Nat) :
    s.clockTrips d khz = true ↔ 98 * s.clock16 d > 1600 * khz ∨ 1600 * khz > 102 * s.clock16 d := by
  rw [State.clockTrips, decide_eq_true_iff]
  omega

theorem monitored_iff (d : Nat) : monitored d = true ↔ d = 0 ∨ d = 8 ∨ d = 12 := by
  simp [monitored, or_assoc]

theorem exec_clockMonitorTrip (d khz : Nat) (s : State) :
    exec (.clockMonitorTrip (d, khz)) s = .next (if monitored d && s.clockTrips d khz then s.hardStop 0x12 else s) := rfl

/-- Settles O49: each event is `State.hardStop`, whose effect is said once (`State.hardStop_stops`). -/
theorem hardwareStops : Obligations.HardwareStops := by
  unfold Obligations.HardwareStops
  refine ⟨fun s => ⟨_, rfl, stopped_and_not_running s rfl⟩, fun s => ?_, fun d khz s hd hoff => ?_, fun d khz s h => ?_⟩
  · obtain ⟨hall, hrun, hreports, -, honly, hkept⟩ := stopped_and_not_running s rfl
    exact ⟨_, rfl, hall, hrun, hreports, honly, hkept⟩
  · obtain ⟨hall, hreports, -, honly, hkept⟩ := s.hardStop_stops 0x12
    refine ⟨_, ?_, hall, hreports, State.eq_of_sansCrust honly, hkept⟩
    rw [exec_clockMonitorTrip, (monitored_iff d).mpr hd, (s.clockTrips_iff d khz).mpr hoff]
    rfl
  · rw [exec_clockMonitorTrip, if_neg]
    rw [Bool.and_eq_true, monitored_iff, State.clockTrips_iff]
    omega

end Sys2Proof.Machine
end

section
/-! The reaction unit (chapter 19), whose statement a group outside the four refutes. -/

namespace Sys2Proof.Machine

/-- A LOOPS record of slot 0 that names group 4, which the module does not have. -/
def strayLoop : Bytes := List.replicate 15 0 ++ [4]

/-- SLOT_FAULT of slot 0 waits, and the slot's record names group 4. -/
def strayGroup : State :=
  { State.reset with layout := some ⟨0, [⟨0xB, [strayLoop], []⟩]⟩, crust := { reports := [(3, 0)] } }

theorem exec_crustEvent_cons {s : State} {e src : Nat} {xs : List (Nat × Nat)} (h : s.crust.reports = (e, src) :: xs) :
    exec .crustEvent s = .next ({ s with crust := { s.crust with reports := xs } }.react e src) := by
  change execCrustEvent s = _
  rw [execCrustEvent, h]

/-- Group 4 would have its register where CRUST_EVT_STATUS is: the end of its stop clears the bit of the event. -/
theorem getLsbD_react_strayGroup :
    (({ strayGroup with crust := { strayGroup.crust with reports := [] } }.react 3 0).reg Reg.CRUST_EVT_STATUS).getLsbD 3 = false := by
  decide

/-- Refutes O48: nothing in the state bounds the group that a record names. The reaction to SLOT_FAULT of a slot whose record names group 4
clears `stopping` of CRUST_GROUP_4, which is bit 3 of CRUST_EVT_STATUS, so the event's own status bit does not read 1. -/
theorem not_crustEvents : ¬ Obligations.CrustEvents := by
  unfold Obligations.CrustEvents
  rintro ⟨hevent, -⟩
  obtain ⟨t, hexec, -, hcounted, -⟩ := hevent 3 0 [] strayGroup rfl (by decide)
  rw [exec_crustEvent_cons (xs := []) rfl] at hexec
  injection hexec with ht
  have hbit := hcounted.1
  rw [← ht] at hbit
  exact absurd (getLsbD_react_strayGroup.symm.trans hbit) (by decide)

end Sys2Proof.Machine
end

section
/-! The clears of the reaction unit (chapter 19), whose statement the register of a loop slot refutes. -/

namespace Sys2Proof.Machine

/-- The state after reset with a layout that configures loop slot 0, in group 0. -/
def oneLoop : State := { State.reset with layout := some ⟨0, [⟨0xB, [List.replicate 16 0], []⟩]⟩ }

theorem exec_crustClear_of_served {s : State} {who : Requester} (v : Nat) (h : s.served who 0 0x2C false = true) :
    exec (.crustClear who v) s = .next (s.writeCrustClr (setBits v 8 1 1)) := by
  change execCrustClear who v s = _
  rw [execCrustClear, State.busWrite_of_served _ h]

/-- Refutes O52: a clear of group 0 puts the group's loop slots to OFF (R362), and with that writes their registers LOOP_SLOT_n, which are
in block 0x2B, while the statement keeps every block but 0x2C and 0x2E. After reset every group is asserted and may be cleared, and
LOOP_SLOT_0 changes from 0 to the word of a slot in OFF, whose `configured` bit is 1. -/
theorem not_torqueOff : ¬ Obligations.TorqueOff := by
  unfold Obligations.TorqueOff
  rintro ⟨-, -, -, -, -, -, -, -, -, hclear, -⟩
  have hserved : oneLoop.served .crust 0 0x2C false = true := by decide
  obtain ⟨t, hexec, -, -, -, -, -, -, -, hkept, -⟩ := hclear .crust 1 0 oneLoop hserved (by decide) (by decide) (by decide)
  rw [exec_crustClear_of_served 1 hserved] at hexec
  injection hexec with ht
  have hslot := hkept (Reg.LOOP_SLOT 0) (by decide)
  rw [← ht] at hslot
  exact absurd hslot (by decide)

end Sys2Proof.Machine
end

section
/-! Firmware updates (chapter 21), whose statement a directory with the last sequence number refutes. -/

namespace Sys2Proof.Machine

/-- The directory record with the last sequence number, in which slot A is preferred. -/
def lastRecord : DirRec := ⟨2 ^ 32 - 1, 0, 1, 1⟩

/-- An update of slot B with an empty image is under way, and copy 0 of the directory holds the last record. -/
def lastSequence : State :=
  { State.reset with boot := { State.reset.boot.norPut 0 lastRecord.bytes with update := some (1, []) } }

/-- The state after a readback that agrees (R392 steps 4 and 5): the directory written, and the update's end counted. -/
def State.updated (s : State) (slot : Nat) (img : Bytes) : State :=
  let s1 := { s with boot := { s.boot with update := none }.norPut (slotBase slot) img }
  ((((s1.writeDir fun d => { d.withState slot 1 with preferred := slot }).setFld Fld.BOOT_UPD_STATUS_busy 0).setFld
    Fld.BOOT_UPD_STATUS_progress 100).setFld Fld.BOOT_UPD_STATUS_code 0).event Ev.BOOT_EVT_STATUS_upd_done

theorem exec_bootUpdateComplete {s : State} {slot : Nat} {img : Bytes} (h : s.boot.update = some (slot, img)) :
    exec (.bootUpdateComplete true) s = .next (s.updated slot img) := by
  change execBootUpdateComplete true s = _
  rw [execBootUpdateComplete, h]
  rfl

/-- The sequence number after the last is 0, so the copy that holds the last one stays in use. -/
theorem preferred_lastSequence_updated : (lastSequence.updated 1 []).boot.dir.1.preferred = 0 := by
  decide +kernel

/-- Refutes O55: the new record has sequence number (2^32 − 1 + 1) mod 2^32 = 0, below the one in copy 0, so BOOT_UPDATE_COMPLETE leaves slot
A preferred. -/
theorem not_boot : ¬ Obligations.Boot := by
  unfold Obligations.Boot
  rintro ⟨-, -, -, -, -, -, -, -, -, -, hcomplete, -⟩
  obtain ⟨t, hexec, -, hpreferred, -⟩ := hcomplete 1 [] lastSequence rfl (by decide)
  rw [exec_bootUpdateComplete rfl] at hexec
  injection hexec with ht
  rw [← ht, preferred_lastSequence_updated] at hpreferred
  exact absurd hpreferred (by decide)

end Sys2Proof.Machine
end

section
/-! The time base (chapter 12) and an idle cycle: rate adjustments, held slots, steps of device time, stamps and the pulse per second. -/

namespace Sys2Proof.Machine

/-! ### Signed fields -/

theorem toSigned_of_nonneg {w n : Nat} (h : 2 * n < 2 ^ w) : toSigned w n = n := by
  have hn : n % 2 ^ w = n := Nat.mod_eq_of_lt (by omega)
  rw [toSigned, hn]
  exact if_pos h

theorem toSigned_mod (w v : Nat) : toSigned w (v % 2 ^ w) = toSigned w v := by
  rw [toSigned, toSigned, Nat.mod_mod]

/-- A value that fits a signed field is what the field reads. -/
theorem toSigned_ofSigned_32 {i : Int} (hlo : -2147483648 ≤ i) (hhi : i < 2147483648) : toSigned 32 (ofSigned 32 i) = i := by
  simp only [toSigned, ofSigned]
  omega

theorem clampI_eq_max_min (lo hi v : Int) (h : lo ≤ hi) : clampI lo hi v = max lo (min hi v) := by
  unfold clampI
  omega

theorem neg_lt_toSigned_32 (v : Nat) : -2147483648 ≤ toSigned 32 v := by
  simp only [toSigned]
  omega

/-! ### TIME_RATE_WRITE (R217) -/

/-- The adjustment that a write of TIME_RATE leaves. -/
theorem State.toSigned_writeTimeRate (s : State) (v : Nat) :
    toSigned 32 ((s.writeTimeRate v).fld Fld.TIME_RATE_adj) = max (-51200000) (min 51200000 (toSigned 32 v)) := by
  obtain ⟨hlo, hhi⟩ := clampI_mem (by decide : (-51200000 : Int) ≤ 51200000) (toSigned 32 v)
  have hevent (c : Bool) (m : State) : (m.eventIf c Ev.TIME_EVT_STATUS_rate_clamp).fld Fld.TIME_RATE_adj = m.fld Fld.TIME_RATE_adj :=
    State.fld_of_reg (by decide) (m.reg_eventIf_ne c (by decide) (by decide))
  rw [State.writeTimeRate, hevent, State.fld_setFld_same _ _ (by decide), toSigned_mod, toSigned_ofSigned_32 (by omega) (by omega),
    clampI_eq_max_min _ _ _ (by decide)]

theorem State.eventIf_false (s : State) (e : Evt) : s.eventIf false e = s := rfl

theorem State.eventIf_only_of {s m : State} (c : Bool) (e : Evt) (h : m = { s with regs := m.regs }) :
    m.eventIf c e = { s with regs := (m.eventIf c e).regs } := by
  cases c with
  | false => exact h
  | true => exact congrArg (fun a : State => { a with regs := (m.event e).regs }) h

theorem timeRateWrite_clamps {who : Requester} {value : Nat} {s : State} (hs : s.served who 0 0x23 false = true) :
    ∃ t, exec (.timeRateWrite who value) s = .next t ∧
      toSigned 32 (t.fld Fld.TIME_RATE_adj) = max (-51200000) (min 51200000 (toSigned 32 value)) ∧
      ((toSigned 32 value < -51200000 ∨ 51200000 < toSigned 32 value) → Counted s t Ev.TIME_EVT_STATUS_rate_clamp) ∧
      (-51200000 ≤ toSigned 32 value → toSigned 32 value ≤ 51200000 → RegsKept s t [Reg.TIME_RATE]) ∧
      RegsKept s t (Reg.TIME_RATE :: Ev.TIME_EVT_STATUS_rate_clamp.regs) ∧ t = { s with regs := t.regs } := by
  have hexec : exec (.timeRateWrite who value) s = .next (s.writeTimeRate value) := by
    change execTimeRateWrite who value s = _
    rw [execTimeRateWrite, State.busWrite_of_served _ hs]
  have hadj (v : Nat) : OnlyMoved s (s.setFld Fld.TIME_RATE_adj v) [Reg.TIME_RATE] := onlyMoved_setFld s v (by decide)
  have hmoved : OnlyMoved s (s.writeTimeRate value) (Reg.TIME_RATE :: Ev.TIME_EVT_STATUS_rate_clamp.regs) :=
    (hadj _).trans (onlyMoved_eventIf _ _ _)
  refine ⟨_, hexec, s.toSigned_writeTimeRate value, fun hout => ?_, fun hlo hhi => ?_, hmoved.kept, ?_⟩
  · have hne : toSigned 32 value ≠ clampI (-51200000) 51200000 (toSigned 32 value) := by
      unfold clampI
      omega
    rw [State.writeTimeRate, decide_eq_true hne]
    exact (counted_event _ (by decide) (by decide)).since ((hadj _).reg (by decide))
  · rw [State.writeTimeRate, clampI_of_mem hlo hhi, decide_eq_false (by simp), State.eventIf_false]
    exact (hadj _).kept
  · unfold State.writeTimeRate
    exact State.eventIf_only_of _ _ rfl

/-! ### Held slots (R336) -/

/-- A slot as the fallback unit holds it: in FAULT it stays there, otherwise it is OFF; it waits for OFF. -/
def LoopSlot.held (x : LoopSlot) : LoopSlot := if x.mode = 3 then { x with rearm := true } else { x.cleared with rearm := true }

theorem LoopSlot.mode_held (x : LoopSlot) : x.held.mode = if x.mode = 3 then 3 else 0 := by
  unfold LoopSlot.held
  split
  · assumption
  · rfl

theorem LoopSlot.rearm_held (x : LoopSlot) : x.held.rearm = true := by
  unfold LoopSlot.held
  split <;> rfl

theorem LoopSlot.c_held (x : LoopSlot) : x.held.c = x.c := by
  unfold LoopSlot.held
  split <;> rfl

theorem LoopSlot.held_held (x : LoopSlot) : x.held.held = x.held := by
  by_cases hfault : x.mode = 3 <;> simp [LoopSlot.held, hfault, LoopSlot.cleared]

/-- Slots that the fallback unit may have come to hold, with their registers. -/
structure Holds (s t : State) : Prop where
  only : t = { s with regs := t.regs, loops := t.loops }
  slot (n : Nat) : t.loopSlot n = s.loopSlot n ∨ t.loopSlot n = (s.loopSlot n).held

namespace Holds
variable {s t u : State}

theorem refl (s : State) : Holds s s := ⟨rfl, fun _ => .inl rfl⟩

theorem trans (hst : Holds s t) (htu : Holds t u) : Holds s u := by
  refine ⟨htu.only.trans (congrArg (fun a : State => { a with regs := u.regs, loops := u.loops }) hst.only), fun n => ?_⟩
  rcases hst.slot n with hs | hs <;> rcases htu.slot n with ht | ht
  · exact .inl (ht.trans hs)
  · exact .inr (hs ▸ ht)
  · exact .inr (ht.trans hs)
  · exact .inr (ht.trans (by rw [hs, LoopSlot.held_held]))

/-- A held slot stays as it is held. -/
theorem slot_of_held (h : Holds t u) {n : Nat} {x : LoopSlot} (hx : t.loopSlot n = x.held) : u.loopSlot n = x.held := by
  rcases h.slot n with hu | hu
  · exact hu.trans hx
  · rw [hu, hx, LoopSlot.held_held]

section Fold
variable {α : Type} {f : State → α → State} (hf : ∀ a x, Holds a (f a x))
include hf

theorem foldl (xs : List α) (s : State) : Holds s (xs.foldl f s) := by
  induction xs generalizing s with
  | nil => exact refl s
  | cons x xs ih => exact (hf s x).trans (ih (f s x))

/-- One step that holds a slot is enough. -/
theorem slot_foldl {xs : List α} {y : α} (hy : y ∈ xs) {n : Nat} {s : State}
    (hheld : ∀ a, Holds s a → (f a y).loopSlot n = (a.loopSlot n).held) :
    (xs.foldl f s).loopSlot n = (s.loopSlot n).held := by
  induction xs generalizing s with
  | nil => cases hy
  | cons x xs ih =>
    rw [List.foldl_cons]
    rcases List.mem_cons.mp hy with rfl | hy
    · exact (foldl hf xs (f s y)).slot_of_held (hheld s (refl s))
    · rcases (hf s x).slot n with hx | hx
      · rw [ih hy (fun a ha => hheld a ((hf s x).trans ha)), hx]
      · exact (foldl hf xs (f s x)).slot_of_held hx

end Fold

end Holds

theorem State.loopSlot_setLoopSlot (s : State) (m n : Nat) (x : LoopSlot) :
    (s.setLoopSlot m x).loopSlot n = if n = m then x else s.loopSlot n := Sparse.get_put

theorem State.holds_setLoopSlot (s : State) (n : Nat) : Holds s (s.setLoopSlot n (s.loopSlot n).held) := by
  refine ⟨rfl, fun m => ?_⟩
  rw [State.loopSlot_setLoopSlot]
  split
  · subst m
    exact .inr rfl
  · exact .inl rfl

/-- A slot held where its record names the group. -/
def State.holdRec (g : Nat) (a : State) (r : Bytes) : State :=
  if fieldAt r 0xF 1 = g then a.setLoopSlot (loopNumber r) (a.loopSlot (loopNumber r)).held else a

theorem State.holdSlots_eq (s : State) (g t : Nat) :
    s.holdSlots g t = if s.groupHeld g t then (s.recs 0xB).foldl (State.holdRec g) s else s := rfl

theorem State.holds_holdRec (g : Nat) (a : State) (r : Bytes) : Holds a (a.holdRec g r) := by
  unfold State.holdRec
  split
  · exact a.holds_setLoopSlot _
  · exact .refl a

theorem State.holds_holdSlots (s : State) (g t : Nat) : Holds s (s.holdSlots g t) := by
  rw [State.holdSlots_eq]
  split
  · exact .foldl (State.holds_holdRec g) _ s
  · exact .refl s

theorem State.holds_holdAll (s : State) : Holds s s.holdAll := .foldl (fun a g => a.holds_holdSlots g a.now) _ s

theorem State.holdAll_of_not_held {s : State} (h : ∀ g, g < 4 → s.groupHeld g s.now = false) : s.holdAll = s := by
  have hkeep (gs : List Nat) (hgs : ∀ g ∈ gs, g < 4) : gs.foldl (fun (a : State) g => a.holdSlots g a.now) s = s := by
    induction gs with
    | nil => rfl
    | cons g gs ih =>
      have hg : s.holdSlots g s.now = s := by
        rw [State.holdSlots_eq, h g (hgs g List.mem_cons_self), if_neg nofun]
      rw [List.foldl_cons, hg, ih fun x hx => hgs x (List.mem_cons_of_mem _ hx)]
  exact hkeep _ fun g hg => List.mem_range.mp hg

/-- The slots of a group that is held are held. -/
theorem State.loopSlot_holdAll {s : State} {g : Nat} {r : Bytes} (hg : g < 4) (hr : r ∈ s.recs 0xB) (hgroup : fieldAt r 0xF 1 = g)
    (hheld : s.groupHeld g s.now = true) : s.holdAll.loopSlot (loopNumber r) = (s.loopSlot (loopNumber r)).held := by
  refine Holds.slot_foldl (fun a g => a.holds_holdSlots g a.now) (List.mem_range.mpr hg) fun a ha => ?_
  have hsame : a.groupHeld g a.now = s.groupHeld g s.now ∧ a.recs 0xB = s.recs 0xB := by
    rw [ha.only]
    exact ⟨rfl, rfl⟩
  rw [State.holdSlots_eq, hsame.1, if_pos hheld, hsame.2]
  refine Holds.slot_foldl (State.holds_holdRec g) hr fun b _ => ?_
  rw [State.holdRec, if_pos hgroup, State.loopSlot_setLoopSlot, if_pos rfl]

/-! ### An idle cycle (R216, R217, R336, R401) -/

theorem step_idle {s : State} (h : s.pending = []) : step s = .next s.tick.holdAll.proofPulse.finishQuote := by
  rw [step, h]
  rfl

theorem State.proofPulse_of_not_running {s : State} (h : s.proofRunning = false) : s.proofPulse = s := by
  rw [State.proofPulse, h]
  rfl

theorem State.finishQuote_of_none {s : State} (h : s.boot.quote = none) : s.finishQuote = s := by
  rw [State.finishQuote, h]

theorem State.devTime_tick (s : State) : (s.tick.devTime : Int) =
    s.devTime + (if s.held.contains 8 then 0 else 256000000000 + toSigned 32 (s.fld Fld.TIME_RATE_adj)) := by
  have hrate := neg_lt_toSigned_32 (s.fld Fld.TIME_RATE_adj)
  rw [State.tick, State.tickStep]
  dsimp only
  split
  · omega
  · omega

theorem idle_advances {s : State} (hpending : s.pending = []) (hquote : s.boot.quote = none) (hproof : s.proofRunning = false)
    (hfree : ∀ g, g < 4 → s.tick.groupHeld g s.tick.now = false) :
    ∃ t, step s = .next t ∧
      (t.devTime : Int) = s.devTime + (if s.held.contains 8 then 0 else 256000000000 + toSigned 32 (s.fld Fld.TIME_RATE_adj)) ∧
      (s.held.contains 8 = false → s.devTime < t.devTime) ∧ t.mono = s.mono + 32 ∧
      t = { s with devTime := t.devTime, mono := t.mono } := by
  have htick : s.tick.holdAll.proofPulse.finishQuote = s.tick := by
    rw [State.holdAll_of_not_held hfree, State.proofPulse_of_not_running (s := s.tick) hproof,
      State.finishQuote_of_none (s := s.tick) hquote]
  refine ⟨s.tick, (step_idle hpending).trans (congrArg Host.Outcome.next htick), s.devTime_tick, fun hrun => ?_, rfl, rfl⟩
  have hnow := s.devTime_tick
  have hrate := neg_lt_toSigned_32 (s.fld Fld.TIME_RATE_adj)
  rw [hrun, if_neg nofun] at hnow
  omega

theorem idle_holds {g : Nat} {r : Bytes} {s : State} (hpending : s.pending = []) (hquote : s.boot.quote = none)
    (hproof : s.proofRunning = false) (hg : g < 4) (hr : r ∈ s.recs 0xB) (hgroup : fieldAt r 0xF 1 = g)
    (hheld : s.tick.groupHeld g s.tick.now = true) :
    ∃ t, step s = .next t ∧ (t.loopSlot (loopNumber r)).mode = (if (s.loopSlot (loopNumber r)).mode = 3 then 3 else 0) ∧
      (t.loopSlot (loopNumber r)).rearm = true ∧ (t.loopSlot (loopNumber r)).c = (s.loopSlot (loopNumber r)).c := by
  have honly := s.tick.holds_holdAll.only
  have hdone : s.tick.holdAll.proofPulse.finishQuote = s.tick.holdAll := by
    rw [State.proofPulse_of_not_running ((congrArg State.proofRunning honly).trans hproof),
      State.finishQuote_of_none ((congrArg (fun a => a.boot.quote) honly).trans hquote)]
  refine ⟨_, (step_idle hpending).trans (congrArg Host.Outcome.next hdone), ?_⟩
  rw [State.loopSlot_holdAll (s := s.tick) hg hr hgroup hheld, LoopSlot.mode_held, LoopSlot.rearm_held, LoopSlot.c_held]
  exact ⟨rfl, rfl, rfl⟩

/-- A write through the windows of BAR2 moves memory and the flash store alone. -/
theorem State.bar2Put_only (bs : Bytes) (s : State) (off : Nat) :
    s.bar2Put off bs = { s with phys := (s.bar2Put off bs).phys, flash := (s.bar2Put off bs).flash, freeCtr := (s.bar2Put off bs).freeCtr } := by
  induction bs generalizing s off with
  | nil => rfl
  | cons b bs ih =>
    rw [State.bar2Put]
    split
    next p _ => exact (ih (s.setByte p b) _ :)
    next a _ =>
      refine (ih (s.flashPut a b) _).trans ?_
      exact congrArg (fun x : State => { x with
        phys := ((s.flashPut a b).bar2Put (off + 1) bs).phys
        flash := ((s.flashPut a b).bar2Put (off + 1) bs).flash
        freeCtr := ((s.flashPut a b).bar2Put (off + 1) bs).freeCtr }) (s.flashPut_only a b)
    next => exact ih s _

/-- A quote that is being formed ends, written or not. -/
theorem State.finishQuote_ends (s : State) : s.finishQuote.boot.quote = none ∧ s.finishQuote.mono = s.mono := by
  rw [State.finishQuote]
  split
  next hnone => exact ⟨hnone, rfl⟩
  next a b hsome =>
    generalize b ++ ecdsaSign Config.identityKey b ++ List.replicate 92 0 = bs
    dsimp only
    split
    · rw [State.bar2Put_only]
      exact ⟨rfl, rfl⟩
    · simp

theorem State.mono_proofPulse (s : State) : s.proofPulse.mono = s.mono := by
  unfold State.proofPulse
  dsimp only
  split
  · rfl
  · split
    · split <;> rfl
    · split <;> rfl

/-- Settles O2: a write of the rate clamps it; an idle cycle advances both times, holds the slots of the groups that are held, and ends
a quote. -/
theorem rateAdjustment : Obligations.RateAdjustment := by
  unfold Obligations.RateAdjustment
  refine ⟨fun _ _ _ hs => timeRateWrite_clamps hs, fun _ => idle_advances, fun _ _ _ => idle_holds, fun _ s hpending _ => ?_⟩
  obtain ⟨hquote, hmono⟩ := s.tick.holdAll.proofPulse.finishQuote_ends
  refine ⟨_, step_idle hpending, hquote, hmono.trans ((State.mono_proofPulse _).trans ?_)⟩
  rw [s.tick.holds_holdAll.only]
  rfl

end Sys2Proof.Machine
end

section
/-! Steps of device time, PTP stamp FIFOs and the pulse per second (chapter 12). -/

namespace Sys2Proof.Machine

/-! ### TIME_STEP (R218) -/

theorem State.rollAll_withRegs (s : State) (r : Sparse Word) (loc : Nat) : (s.withRegs r).rollAll loc = (s.rollAll loc).withRegs r := by
  have hwindow (a : State) (x : Option Nat) : (a.withRegs r).rollWindow loc x = (a.rollWindow loc x).withRegs r := by
    cases x with
    | none => rfl
    | some i =>
      have htime : (a.withRegs r).localNow loc = a.localNow loc := rfl
      have hwindows : (a.withRegs r).windows = a.windows := rfl
      rw [State.rollWindow, State.rollWindow, htime, hwindows]
      split <;> rfl
  refine List.foldl_hom (State.withRegs · r) (fun a p => ?_)
  split
  · exact hwindow a _
  · rfl

/-- What a move of device time changes: the copies of the other dies keep theirs by a lag, and requests keep what they have waited. -/
theorem State.moveTime_only (s : State) (d : Int) : s.moveTime d = { s with
    devTime := ((s.devTime : Int) + d * 80000000000).toNat
    dieLag := [1, 2, 3, 4].foldl (fun m k => Sparse.put (fun _ => 0) m k (s.lag k - d)) s.dieLag
    windows := (s.moveTime d).windows
    requests := (s.rollAll 0).requests.map (Request.shift 0 d)
    ports := { s.ports with ppsRise := s.ports.ppsRise + d, steps := s.ports.steps ++ [(s.mono, d)] } } := by
  have hroll := (rolled_rollAll s 0).2
  exact congrArg (fun a : State => { a with
    devTime := ((s.devTime : Int) + d * 80000000000).toNat
    dieLag := [1, 2, 3, 4].foldl (fun m k => Sparse.put (fun _ => 0) m k (s.lag k - d)) s.dieLag
    windows := (s.moveTime d).windows
    requests := (s.rollAll 0).requests.map (Request.shift 0 d)
    ports := { s.ports with ppsRise := s.ports.ppsRise + d, steps := s.ports.steps ++ [(s.mono, d)] } }) hroll

theorem State.lag_moveTime (s : State) (o : Int) {d : Nat} (h : 1 ≤ d) (h' : d < 5) : (s.moveTime o).lag d = s.lag d - o := by
  rw [State.lag, s.moveTime_only]
  simp only [List.foldl_cons, List.foldl_nil, Sparse.get_put]
  interval_cases d <;> rfl

theorem State.devTime_moveTime (s : State) {o : Int} (h : 0 ≤ (s.devTime : Int) + o * 80000000000) :
    ((s.moveTime o).devTime : Int) = s.devTime + o * 80000000000 := by
  rw [s.moveTime_only]
  exact Int.toNat_of_nonneg h

/-- A die's own copy of device time stays until its next realignment. -/
theorem State.localNow_moveTime (s : State) {o : Int} {d : Nat} (hd : 1 ≤ d) (hd' : d < 5)
    (h : 0 ≤ (s.devTime : Int) + o * 80000000000) : (s.moveTime o).localNow d = s.localNow d := by
  have htime := s.devTime_moveTime h
  have hskew : (s.moveTime o).dieSkew = s.dieSkew := by
    rw [s.moveTime_only]
  rw [State.localNow, State.localNow, s.lag_moveTime o hd hd', hskew, State.now, State.now, if_neg (by omega), if_neg (by omega)]
  generalize Config.dieSkew _ = skew
  omega

section Step
variable {s : State} {r : Sparse Word} (hregs : RegsKept s (s.withRegs r) [Reg.TIME_CTRL])
include hregs

/-- The conditions of a step do not depend on TIME_CTRL. -/
theorem State.stepAllowed_withRegs : (s.withRegs r).stepAllowed = s.stepAllowed := by
  have hquiesced (k : Nat) : (s.withRegs r).quiesced k = s.quiesced k := by
    have hrun : (s.withRegs r).flag (Fld.HQ_Q_CTRL_run k) = s.flag (Fld.HQ_Q_CTRL_run k) :=
      hregs.flag (by simp) (by simp only [Reg.HQ_Q_CTRL, Reg.TIME_CTRL, List.mem_singleton]; omega)
    rw [State.quiesced, hrun]
    rfl
  have harmed (d : Nat) : (s.withRegs r).flag (Fld.MON_SNAP_STATUS_armed d) = s.flag (Fld.MON_SNAP_STATUS_armed d) :=
    hregs.flag (by simp) (by simp only [Reg.MON_SNAP_STATUS, Reg.TIME_CTRL, List.mem_singleton]; omega)
  have hctx (k : Nat) : (s.withRegs r).ctx k = s.ctx k := rfl
  have hrecs (x : Nat) : (s.withRegs r).recs x = s.recs x := rfl
  have howner : (s.withRegs r).fusionOwner = s.fusionOwner := rfl
  simp only [State.stepAllowed, State.periodicRuns, State.loopsActive, State.fusionActive, hquiesced, harmed, hctx, hrecs, howner]

theorem State.reg64_timeStep_withRegs : (s.withRegs r).reg64 Reg.TIME_STEP = s.reg64 Reg.TIME_STEP := by
  rw [State.reg64, State.reg64, hregs.reg (by decide), hregs.reg (by decide)]

end Step

/-- A write of TIME_CTRL that steps writes its fields first, and nothing else. -/
theorem exec_timeStep_of_served {who : Requester} (value : Nat) {s : State} (hs : s.served who 0 0x23 false = true) :
    ∃ r, RegsKept s (s.withRegs r) [Reg.TIME_CTRL] ∧ exec (.timeStep who value) s = .next (s.withRegs r).timeStep := by
  obtain ⟨v, hv⟩ : ∃ v, v = setBits value 0 1 1 := ⟨_, rfl⟩
  have hexec : exec (.timeStep who value) s = .next (s.writeTimeCtrl v) := by
    change execTimeStep who value s = _
    rw [execTimeStep, State.busWrite_of_served _ hs, hv]
  have hbit : bit v 0 = true := hv ▸ bit_setBits (by omega)
  rw [hexec, State.writeTimeCtrl, if_pos hbit]
  refine ⟨(((s.setFld Fld.TIME_CTRL_pps_in_en (bits v 1 1)).setFld Fld.TIME_CTRL_pps_out_en (bits v 2 1)).setFld
    Fld.TIME_CTRL_pps_gate (bits v 3 1)).regs, ?_, ?_⟩
  · exact ((regsKept_setFld s _ (by decide) (by decide)).trans (regsKept_setFld _ _ (by decide) (by decide))).trans
      (regsKept_setFld _ _ (by decide) (by decide))
  · rfl

theorem timeStep_moves {who : Requester} {value : Nat} {s : State} (hs : s.served who 0 0x23 false = true)
    (hallowed : s.stepAllowed = true) (hpos : 0 ≤ (s.devTime : Int) + toSigned 64 (s.reg64 Reg.TIME_STEP) * 80000000000) :
    ∃ t, exec (.timeStep who value) s = .next t ∧
      (t.devTime : Int) = s.devTime + toSigned 64 (s.reg64 Reg.TIME_STEP) * 80000000000 ∧
      Counted s t Ev.TIME_EVT_STATUS_step_done ∧ (∀ d, 1 ≤ d → d < 5 → t.localNow d = s.localNow d) ∧
      t = { s with devTime := t.devTime, regs := t.regs, dieLag := t.dieLag, windows := t.windows,
                   requests := (s.rollAll 0).requests.map (Request.shift 0 (toSigned 64 (s.reg64 Reg.TIME_STEP))),
                   ports := { s.ports with ppsRise := s.ports.ppsRise + toSigned 64 (s.reg64 Reg.TIME_STEP),
                                           steps := s.ports.steps ++ [(s.mono, toSigned 64 (s.reg64 Reg.TIME_STEP))] } } ∧
      RegsKept s t (Reg.TIME_CTRL :: Ev.TIME_EVT_STATUS_step_done.regs) := by
  obtain ⟨r, hregs, hexec⟩ := exec_timeStep_of_served value hs
  obtain ⟨o, ho⟩ : ∃ o, o = toSigned 64 (s.reg64 Reg.TIME_STEP) := ⟨_, rfl⟩
  have hstep : (s.withRegs r).timeStep = ((s.withRegs r).moveTime o).event Ev.TIME_EVT_STATUS_step_done := by
    rw [State.timeStep, State.stepAllowed_withRegs hregs, State.reg64_timeStep_withRegs hregs, ← ho, hallowed, decide_eq_true (ho ▸ hpos)]
    rfl
  rw [← ho] at hpos ⊢
  have hmove := (s.withRegs r).moveTime_only o
  have hkept : ((s.withRegs r).moveTime o).regs = r := by rw [hmove]; rfl
  rw [hstep] at hexec
  refine ⟨_, hexec, (s.withRegs r).devTime_moveTime hpos, ?_, fun d hd hd' => (s.withRegs r).localNow_moveTime hd hd' hpos, ?_, ?_⟩
  · exact (counted_event _ (by decide) (by decide)).since ((State.reg_congr (s := s.withRegs r) hkept _).trans (hregs.reg (by decide)))
  · rw [State.rollAll_withRegs] at hmove
    generalize (s.withRegs r).moveTime o = t at hmove ⊢
    rw [hmove]
    rfl
  · refine ((hregs.mono (by simp)).trans (.of_regs hkept _)).trans (regsKept_event_of_mem _ ?_ ?_) <;> decide

theorem timeStep_rejected {who : Requester} {value : Nat} {s : State} (hs : s.served who 0 0x23 false = true)
    (hno : s.stepAllowed = false ∨ (s.devTime : Int) + toSigned 64 (s.reg64 Reg.TIME_STEP) * 80000000000 < 0) :
    ∃ t, exec (.timeStep who value) s = .next t ∧ Counted s t Ev.TIME_EVT_STATUS_step_reject ∧ t = { s with regs := t.regs } ∧
      RegsKept s t (Reg.TIME_CTRL :: Ev.TIME_EVT_STATUS_step_reject.regs) := by
  obtain ⟨r, hregs, hexec⟩ := exec_timeStep_of_served value hs
  have hstep : (s.withRegs r).timeStep = (s.withRegs r).event Ev.TIME_EVT_STATUS_step_reject := by
    rw [State.timeStep, State.stepAllowed_withRegs hregs, State.reg64_timeStep_withRegs hregs]
    refine if_neg ?_
    rw [Bool.and_eq_true, decide_eq_true_eq]
    rintro ⟨hallowed, hpos⟩
    rcases hno with hno | hno
    · exact absurd (hno.symm.trans hallowed) nofun
    · exact absurd hpos (Int.not_le.mpr hno)
  rw [hstep] at hexec
  exact ⟨_, hexec, (counted_event _ (by decide) (by decide)).since (hregs.reg (by decide)), rfl,
    (hregs.mono (by simp)).trans (regsKept_event_of_mem _ (by decide) (by decide))⟩

/-- A change of registers after one of registers and ports. -/
theorem State.only_of_ports {s m t : State} (ht : t = { m with regs := t.regs }) (hm : m = { s with regs := m.regs, ports := m.ports }) :
    t = { s with regs := t.regs, ports := t.ports } := by
  have hports : t.ports = m.ports := (congrArg State.ports ht :)
  rw [hports]
  refine ht.trans ?_
  exact congrArg (fun a : State => { a with regs := t.regs }) hm

/-! ### PTP_FIFO_POP (R224) -/

theorem State.answered_only {s t : State} (answer : Bytes) (h : t = { s with regs := t.regs, ports := t.ports }) :
    { t with answer := answer } = { s with regs := t.regs, ports := t.ports, answer := answer } :=
  congrArg (fun a : State => { a with answer := answer }) h

theorem exec_ptpFifoPop_of_readable {who : Requester} {port : Nat} {s : State} (hs : s.readable who 0 0x23 = true) :
    exec (.ptpFifoPop who port) s =
      .next { s.popFifo port with answer := leBytes 4 ((s.popFifo port).reg (Reg.TIME_PORT_FIFO_HDR port)).toNat } := by
  change execPtpFifoPop who port s = _
  rw [execPtpFifoPop, State.busRead_of_readable _ hs]

/-- The registers of a port's FIFO. -/
def fifoRegs (port : Nat) : List Nat := [Reg.TIME_PORT_FIFO_HDR port, Reg.TIME_PORT_FIFO_NS port, Reg.TIME_PORT_FIFO_NS port + 4,
  Reg.TIME_PORT_FIFO_FRAC port]

theorem ptpFifoPop_pops {who : Requester} {port : Nat} {e : PtpStamp} {q : List PtpStamp} {s : State}
    (hs : s.readable who 0 0x23 = true) (hq : s.fifo port = e :: q) (hmsg : e.msgType < 4) (hseq : e.seq < 65536) (hns : e.ns < 2 ^ 64)
    (hfrac : e.frac < 65536) :
    ∃ t, exec (.ptpFifoPop who port) s = .next t ∧ t.fifo port = q ∧
      t.answer = leBytes 4 (1 + 2 * b2n e.egress + 4 * e.msgType + 65536 * e.seq) ∧
      t.reg64 (Reg.TIME_PORT_FIFO_NS port) = e.ns ∧ (t.reg (Reg.TIME_PORT_FIFO_FRAC port)).toNat = e.frac ∧
      (∀ p, p ≠ port → t.fifo p = s.fifo p) ∧ t = { s with regs := t.regs, ports := t.ports, answer := t.answer } ∧
      RegsKept s t (fifoRegs port) := by
  have hegress := b2n_lt e.egress
  obtain ⟨hdr, hhdr⟩ : ∃ hdr, hdr = 1 + 2 * b2n e.egress + 4 * e.msgType + 65536 * e.seq := ⟨_, rfl⟩
  obtain ⟨s1, hs1⟩ : ∃ s1, s1 = (s.setFifo port q).setReg64 (Reg.TIME_PORT_FIFO_NS port) e.ns := ⟨_, rfl⟩
  have hpop : s.popFifo port = (s1.setReg (Reg.TIME_PORT_FIFO_FRAC port) (BitVec.ofNat 32 e.frac)).setReg
      (Reg.TIME_PORT_FIFO_HDR port) (BitVec.ofNat 32 hdr) := by
    rw [State.popFifo, hq, hs1, hhdr]
  have hexec := exec_ptpFifoPop_of_readable (port := port) hs
  rw [hpop, State.reg_setReg_same, BitVec.toNat_ofNat, Nat.mod_eq_of_lt (by omega : hdr < 2 ^ 32), hhdr] at hexec
  rw [hhdr] at hpop
  have hns_hdr : Reg.TIME_PORT_FIFO_NS port ≠ Reg.TIME_PORT_FIFO_HDR port := by simp
  have hns_frac : Reg.TIME_PORT_FIFO_NS port ≠ Reg.TIME_PORT_FIFO_FRAC port := by simp
  have hns'_hdr : Reg.TIME_PORT_FIFO_NS port + 4 ≠ Reg.TIME_PORT_FIFO_HDR port := by simp only [Reg.TIME_PORT_FIFO_NS, Reg.TIME_PORT_FIFO_HDR]; omega
  have hns'_frac : Reg.TIME_PORT_FIFO_NS port + 4 ≠ Reg.TIME_PORT_FIFO_FRAC port := by simp only [Reg.TIME_PORT_FIFO_NS, Reg.TIME_PORT_FIFO_FRAC]; omega
  have hfrac_hdr : Reg.TIME_PORT_FIFO_FRAC port ≠ Reg.TIME_PORT_FIFO_HDR port := by simp
  have hother (p : Nat) (hp : p ≠ port) : (s.setFifo port q).fifo p = s.fifo p := Sparse.get_put_ne hp
  refine ⟨_, hexec, ?_, rfl, ?_, ?_, fun p hp => ?_, ?_, ?_⟩
  · rw [hs1]
    exact Sparse.get_put_same
  · change State.reg64 (State.setReg (State.setReg s1 _ _) _ _) _ = _
    rw [State.reg64, State.reg_setReg_ne _ _ hns_hdr, State.reg_setReg_ne _ _ hns_frac, State.reg_setReg_ne _ _ hns'_hdr,
      State.reg_setReg_ne _ _ hns'_frac, hs1]
    exact (State.reg64_setReg64 ..).trans (Nat.mod_eq_of_lt hns)
  · change ((State.setReg (State.setReg s1 _ _) _ _).reg _).toNat = _
    rw [State.reg_setReg_ne _ _ hfrac_hdr, State.reg_setReg_same, BitVec.toNat_ofNat, Nat.mod_eq_of_lt (by omega)]
  · rw [hs1]
    exact hother p hp
  · have hset : s1 = { s with regs := s1.regs, ports := s1.ports } := hs1 ▸ State.only_of_ports rfl rfl
    have hfrac := State.only_of_ports (t := s1.setReg (Reg.TIME_PORT_FIFO_FRAC port) (BitVec.ofNat 32 e.frac)) rfl hset
    exact State.answered_only _ (State.only_of_ports rfl hfrac)
  · have hset : RegsKept s s1 (fifoRegs port) := hs1 ▸ (RegsKept.of_regs rfl _ : RegsKept s (s.setFifo port q) _).trans
      (regsKept_setReg64 _ _ (by simp [fifoRegs]) (by simp [fifoRegs]))
    exact (hset.trans (regsKept_setReg _ _ (by simp [fifoRegs]))).trans (regsKept_setReg _ _ (by simp [fifoRegs]))

theorem ptpFifoPop_empty {who : Requester} {port : Nat} {s : State} (hs : s.readable who 0 0x23 = true) (hq : s.fifo port = []) :
    ∃ t, exec (.ptpFifoPop who port) s = .next t ∧ t.answer = [0, 0, 0, 0] ∧ t.ports = s.ports ∧
      t = { s with regs := t.regs, answer := t.answer } ∧ RegsKept s t [Reg.TIME_PORT_FIFO_HDR port] := by
  have hexec := exec_ptpFifoPop_of_readable (port := port) hs
  have hpop : s.popFifo port = s.setReg (Reg.TIME_PORT_FIFO_HDR port) 0 := by rw [State.popFifo, hq]
  rw [hpop, State.reg_setReg_same] at hexec
  exact ⟨_, hexec, rfl, rfl, rfl, regsKept_setReg s _ (by simp)⟩

/-! ### PPS (R228, R229) -/

theorem ppsInEdge_stamps {s : State} (hen : s.flag Fld.TIME_CTRL_pps_in_en = true) :
    ∃ t, exec .ppsInEdge s = .next t ∧ t.reg64 Reg.TIME_PPS_IN = s.now % 2 ^ 64 ∧
      t.fld Fld.TIME_STATUS_pps_in_seq = (s.fld Fld.TIME_STATUS_pps_in_seq + 1) % 2 ^ Fld.TIME_STATUS_pps_in_seq.width ∧
      Counted s t Ev.TIME_EVT_STATUS_pps_in ∧ t = { s with regs := t.regs, ports := t.ports } ∧
      RegsKept s t ([Reg.TIME_PPS_IN, Reg.TIME_PPS_IN + 4, Reg.TIME_STATUS] ++ Ev.TIME_EVT_STATUS_pps_in.regs ++
        Ev.TIME_EVT_STATUS_pps_in_glitch.regs) := by
  obtain ⟨glitch, hglitch⟩ : ∃ glitch, glitch =
    (s.ports.ppsSeen && decide ((s.now : Int) - (s.reg64 Reg.TIME_PPS_IN : Int) < 500000000)) := ⟨_, rfl⟩
  obtain ⟨s1, hs1⟩ : ∃ s1, s1 = { s with ports := { s.ports with ppsSeen := true } }.setReg64 Reg.TIME_PPS_IN s.now := ⟨_, rfl⟩
  obtain ⟨s2, hs2⟩ : ∃ s2, s2 = s1.setFld Fld.TIME_STATUS_pps_in_seq (s1.fld Fld.TIME_STATUS_pps_in_seq + 1) := ⟨_, rfl⟩
  have hexec : exec .ppsInEdge s = .next ((s2.event Ev.TIME_EVT_STATUS_pps_in).eventIf glitch Ev.TIME_EVT_STATUS_pps_in_glitch) := by
    change execPpsInEdge s = _
    rw [execPpsInEdge, hen, hs2, hs1, hglitch]
    rfl
  have hstamp : RegsKept s s1 [Reg.TIME_PPS_IN, Reg.TIME_PPS_IN + 4] := by
    rw [hs1]
    exact (RegsKept.of_regs rfl _ : RegsKept s { s with ports := { s.ports with ppsSeen := true } } _).trans
      (regsKept_setReg64 _ _ (by simp) (by simp))
  have hseq : RegsKept s1 s2 [Reg.TIME_STATUS] := hs2 ▸ regsKept_setFld s1 _ (by decide) (by decide)
  have hlast : OnlyMoved s2 ((s2.event Ev.TIME_EVT_STATUS_pps_in).eventIf glitch Ev.TIME_EVT_STATUS_pps_in_glitch)
      (Ev.TIME_EVT_STATUS_pps_in.regs ++ Ev.TIME_EVT_STATUS_pps_in_glitch.regs) :=
    (onlyMoved_event s2 _).trans (onlyMoved_eventIf _ _ _)
  refine ⟨_, hexec, ?_, ?_, ?_, ?_, ?_⟩
  · rw [hlast.reg64 (by decide) (by decide), State.reg64, hseq.reg (by decide), hseq.reg (by decide), hs1]
    exact State.reg64_setReg64 ..
  · rw [hlast.fld (by decide) (by decide), hs2, State.fld_setFld_same _ _ (by decide), hstamp.fld (by decide) (by decide)]
  · refine Counted.eventIf ?_ _ (by decide) (by decide) (by decide) (by decide)
    exact (counted_event _ (by decide) (by decide)).since ((hseq.reg (by decide)).trans (hstamp.reg (by decide)))
  · rw [hs1] at hs2
    have hports : s2 = { s with regs := s2.regs, ports := s2.ports } := hs2 ▸ rfl
    exact State.only_of_ports (State.eventIf_only_of glitch _ (State.event_withRegs s2 _)) hports
  · exact ((hstamp.mono (by simp)).trans (hseq.mono (by simp))).trans (hlast.kept.mono (by decide))

/-- Settles O11: a step moves device time by what TIME_STEP says and leaves what the other dies read; a pop hands over the oldest stamp; an
edge of the pulse per second is stamped, risen or fallen. -/
theorem timeStepsAndStamps : Obligations.TimeStepsAndStamps := by
  unfold Obligations.TimeStepsAndStamps
  refine ⟨fun _ _ _ => timeStep_moves, fun _ _ _ => timeStep_rejected, fun _ _ _ _ _ hs _ => ptpFifoPop_pops hs,
    fun _ _ _ hs _ => ptpFifoPop_empty hs, fun _ => ppsInEdge_stamps, fun s hen hdue hhigh hgate => ?_, fun s hhigh hend => ?_⟩
  · refine ⟨_, congrArg Host.Outcome.next (if_pos ?_), rfl⟩
    rw [hen, hdue, hhigh]
    cases hg : s.flag Fld.TIME_CTRL_pps_gate with
    | false => rfl
    | true => rw [hgate hg]; rfl
  · refine ⟨_, congrArg Host.Outcome.next (if_pos ?_), rfl⟩
    rw [hhigh, decide_eq_true hend]
    rfl

end Sys2Proof.Machine
end

section
/-! The loss of input (chapter 23), whose statement an episode of scope FULL refutes. -/

namespace Sys2Proof.Machine

/-- The module as a power-on reset leaves it, its episode still running, with the input lost. -/
def lossInEpisode : State := (State.reset.activate 1).setFld Fld.PWR_STATUS_input_loss 1

/-- What the exhaustion of the bank does first: it switches off every rail but RAIL_AON (R430). -/
def State.railsCut (s : State) (bank : Nat) : State :=
  ((List.range 7).foldl (fun (a : State) i => a.setRail (i + 1) { a.rail (i + 1) with off := true, step := none }) s).setFld
    Fld.PWR_VOLT_bank_mv bank

theorem exec_holdupExhausted_of_loss {s : State} {bank : Nat} (h : s.flag Fld.PWR_STATUS_input_loss = true) (hbank : bank < 28000) :
    exec (.holdupExhausted bank) s = .next ((s.railsCut bank).activate 2) := by
  change execHoldupExhausted bank s = _
  rw [execHoldupExhausted, if_pos ⟨.inl h, hbank⟩]
  rfl

/-- The BROWNOUT that follows joins the episode, whose scope FULL resets the rails too (R405, R406, R410). -/
theorem on_after_joined_brownout : (((lossInEpisode.railsCut 0).activate 2).rail 1).off = false := by
  decide +kernel

/-- Refutes O4: the hold-up runs out while the episode of a power-on reset runs. The rails are switched off, and the BROWNOUT that joins the
episode of scope FULL puts them back to their reset values, in which none is off. -/
theorem not_powerCap : ¬ Obligations.PowerCap := by
  unfold Obligations.PowerCap
  rintro ⟨-, -, -, -, hholdup, -⟩
  have hloss : lossInEpisode.flag Fld.PWR_STATUS_input_loss = true := by decide +kernel
  obtain ⟨t, hexec, hoff, -⟩ := hholdup 0 lossInEpisode (by decide +kernel) hloss (by decide)
  rw [exec_holdupExhausted_of_loss hloss (by decide)] at hexec
  injection hexec with ht
  have hrail := hoff 1 (by decide)
  rw [← ht, on_after_joined_brownout] at hrail
  exact absurd hrail (by simp)

end Sys2Proof.Machine
end

section
/-! Resets of the module (chapter 22): what a reset leaves, an episode that begins, the end of a lasting source, and the release of the
domains. -/

namespace Sys2Proof.Machine

/-! ### What a reset leaves (R406) -/

/-- The state beside registers and the halves of pairs. -/
def State.sansRegs (s : State) : State := { s with regs := [], latches := [], staged := [] }

theorem State.sansRegs_setFld (s : State) (f : Fld) (v : Nat) : (s.setFld f v).sansRegs = s.sansRegs := by
  rw [s.setFld_regs_only]
  rfl

theorem State.sansRegs_keyRegs (s : State) : s.keyRegs.sansRegs = s.sansRegs := by
  unfold State.keyRegs
  simp only [State.sansRegs_setFld]

theorem State.reg_keyRegs (s : State) {a : Nat} (ha : a ≠ Reg.KEY_SLOT_STATUS) (ha' : a ≠ Reg.KEY_FUSES) : s.keyRegs.reg a = s.reg a := by
  unfold State.keyRegs
  dsimp only
  rw [State.reg_setFld_ne _ _ (by decide) ha', State.reg_setFld_ne _ _ (by decide) ha, State.reg_setFld_ne _ _ (by decide) ha]

/-- A register of RX_AON outlives a reset of scope MODULE. -/
theorem State.reg_moduleReset (s : State) {a : Nat} (ha : aonReg a = true) : s.moduleReset.reg a = s.reg a := by
  have hne {b : Nat} (hb : aonReg b = false) : a ≠ b := fun h => absurd (ha.symm.trans ((congrArg aonReg h).trans hb)) nofun
  unfold State.moduleReset
  rw [State.reg_keyRegs _ (hne (by decide)) (hne (by decide))]
  exact Sparse.get_filter resetOf (fun a => aonReg a || ftlKept a) s.regs (by rw [ha, Bool.true_or])

theorem State.sansRegs_moduleReset (s : State) : s.moduleReset.sansRegs =
    { s.keptByReset [] [] [] with rails := s.rails, power := { s.power with stretch := [] }, rst := s.rst } :=
  State.sansRegs_keyRegs _

theorem State.sansRegs_fullReset (s : State) : s.fullReset.sansRegs = s.keptByReset [] [] [] := State.sansRegs_keyRegs _

/-! ### An episode begins (R405) -/

theorem rstCnt_ne_cause (code : Nat) : Reg.RST_CNT code ≠ Reg.RST_CAUSE := by
  simp only [Reg.RST_CNT, Reg.RST_CAUSE]
  omega

theorem rstCnt_ne_blkStatus (code : Nat) : Reg.RST_CNT code ≠ Reg.RST_BLK_STATUS := by
  simp only [Reg.RST_CNT, Reg.RST_BLK_STATUS]
  omega

/-- The registers of the reset controller as a source that begins an episode leaves them (R405). -/
def State.causeShown (s : State) (code : Nat) : State :=
  ((s.setFld Fld.RST_CAUSE_wdog_die 0).setFld Fld.RST_CAUSE_sources (setBits 0 (code - 1) 1 1)).setFld Fld.RST_CAUSE_first code

/-- The state of the reset controller in an episode that begins (R405, R409). -/
def State.episodeOf (s : State) (r : RstSt) (code : Nat) (full : Bool) : RstSt :=
  { r with
    active := if lasting code && !r.active.contains code then r.active ++ [code] else r.active
    episode := true, full := full, holdFrom := s.monoNs, lastRelease := none, dies := [], repeatDies := [], blk := none
    began := s.refCycle }

/-- RST_BLK_STATUS with no block reset under way. -/
def State.noBlock (s : State) : State := (s.setFld Fld.RST_BLK_STATUS_busy 0).setFld Fld.RST_BLK_STATUS_phase 0

theorem State.activate_por (s : State) : s.activate 1 =
    { (s.fullReset.causeShown 1).noBlock with rst := s.episodeOf {} 1 true, held := List.range 40 } := by
  unfold State.activate State.episodeOf
  simp [State.causeShown, State.noBlock]

theorem State.activate_begins {s : State} {code : Nat} (hepisode : s.rst.episode = false) (hcode : code ≠ 1) : s.activate code =
    { ((s.moduleReset.causeShown code).countReset code).noBlock with
      rst := s.episodeOf s.rst code false, held := (List.range 39).map (· + 1) } := by
  unfold State.activate State.episodeOf
  simp [hepisode, hcode, State.causeShown, State.noBlock]

theorem State.sansRegs_causeShown (s : State) (code : Nat) : (s.causeShown code).sansRegs = s.sansRegs := by
  simp only [State.causeShown, State.sansRegs_setFld]

theorem State.sansRegs_countReset (s : State) (code : Nat) : (s.countReset code).sansRegs = s.sansRegs := State.sansRegs_setFld ..

theorem State.sansRegs_noBlock (s : State) : s.noBlock.sansRegs = s.sansRegs := by
  simp only [State.noBlock, State.sansRegs_setFld]

theorem State.regsKept_causeShown (s : State) (code : Nat) : RegsKept s (s.causeShown code) [Reg.RST_CAUSE] :=
  ((regsKept_setFld s _ (by decide) (by simp)).trans (regsKept_setFld _ _ (by decide) (by simp))).trans
    (regsKept_setFld _ _ (by decide) (by simp))

theorem State.regsKept_noBlock (s : State) : RegsKept s s.noBlock [Reg.RST_BLK_STATUS] :=
  (regsKept_setFld s _ (by decide) (by simp)).trans (regsKept_setFld _ _ (by decide) (by simp))

theorem State.regsKept_countReset (s : State) (code : Nat) : RegsKept s (s.countReset code) [Reg.RST_CNT code] :=
  regsKept_setFld s _ (by simp) (by simp)

theorem State.sources_causeShown (s : State) (code : Nat) :
    (s.causeShown code).fld Fld.RST_CAUSE_sources = setBits 0 (code - 1) 1 1 % 2 ^ 9 := by
  rw [State.causeShown, State.fld_setFld_ne _ _ (by decide) (by decide) (by decide), State.fld_setFld_same _ _ (by decide)]

theorem State.first_causeShown (s : State) {code : Nat} (hcode : code < 16) : (s.causeShown code).fld Fld.RST_CAUSE_first = code := by
  rw [State.causeShown, State.fld_setFld_same _ _ (by decide)]
  exact Nat.mod_eq_of_lt hcode

/-- The registers after a source has begun an episode. -/
theorem State.regsKept_begun (s : State) (code : Nat) :
    RegsKept (s.causeShown code) ((s.causeShown code).countReset code).noBlock [Reg.RST_CNT code, Reg.RST_BLK_STATUS] :=
  ((State.regsKept_countReset _ code).mono (by simp)).trans ((State.regsKept_noBlock _).mono (by simp))

/-- What an episode of scope MODULE leaves: the controller says why it began, the rails and the registers of RX_AON stay, and nothing of
the host's work does (R405, R406). -/
theorem State.activate_effect {s : State} {code : Nat} (hepisode : s.rst.episode = false) (hcode : code ≠ 1) (hlow : 1 ≤ code) (hhigh : code ≤ 9) :
    (s.activate code).sansRegs = { s.keptByReset [] [] [] with
      rails := s.rails, power := { s.power with stretch := [] }
      rst := s.episodeOf s.rst code false, held := (List.range 39).map (· + 1) } ∧
    (s.activate code).fld Fld.RST_CAUSE_sources = setBits 0 (code - 1) 1 1 % 2 ^ 9 ∧ (s.activate code).fld Fld.RST_CAUSE_first = code ∧
    (s.activate code).fld (Fld.RST_CNT_count code) = (s.fld (Fld.RST_CNT_count code) + 1) % 65536 ∧
    (∀ a, aonReg a = true → a ∉ [Reg.RST_CAUSE, Reg.RST_CNT code, Reg.RST_BLK_STATUS] → (s.activate code).reg a = s.reg a) := by
  obtain ⟨m, hm⟩ : ∃ m, m = s.moduleReset.causeShown code := ⟨_, rfl⟩
  obtain ⟨u, hu⟩ : ∃ u, u = (m.countReset code).noBlock := ⟨_, rfl⟩
  have hact := State.activate_begins hepisode hcode
  rw [← hm, ← hu] at hact
  have hbegun : RegsKept m u [Reg.RST_CNT code, Reg.RST_BLK_STATUS] := by
    rw [hu, hm]
    exact s.moduleReset.regsKept_begun code
  have hcause : RegsKept s.moduleReset m [Reg.RST_CAUSE] := hm ▸ State.regsKept_causeShown _ code
  have hcnt : Reg.RST_CNT code ∉ [Reg.RST_CAUSE] := by simpa using rstCnt_ne_cause code
  have hsame (f : Fld) : (s.activate code).fld f = u.fld f := by
    rw [hact]
    rfl
  have hrst_cnt : Reg.RST_CAUSE ∉ [Reg.RST_CNT code, Reg.RST_BLK_STATUS] := by
    simpa using (rstCnt_ne_cause code).symm
  refine ⟨?_, ?_, ?_, ?_, fun a ha hout => ?_⟩
  · have hsans : u.sansRegs = s.moduleReset.sansRegs := by
      rw [hu, State.sansRegs_noBlock, State.sansRegs_countReset, hm, State.sansRegs_causeShown]
    rw [hact]
    exact congrArg (fun a : State => { a with rst := s.episodeOf s.rst code false, held := (List.range 39).map (· + 1) })
      (hsans.trans s.sansRegs_moduleReset)
  · rw [hsame, hbegun.fld (by decide) hrst_cnt, hm, State.sources_causeShown]
  · rw [hsame, hbegun.fld (by decide) hrst_cnt, hm, State.first_causeShown _ (by omega)]
  · have hblk : (Fld.RST_CNT_count code).addr ∉ [Reg.RST_BLK_STATUS] := by simpa using rstCnt_ne_blkStatus code
    have haon : aonReg (Reg.RST_CNT code) = true := by
      interval_cases code <;> decide
    rw [hsame, hu, (State.regsKept_noBlock _).fld (by simp) hblk, State.countReset, State.fld_setFld_same _ _ (by simp),
      hcause.fld (by simp) hcnt, State.fld_of_reg (s := s) (f := Fld.RST_CNT_count code) (by simp) (s.reg_moduleReset haon)]
    exact Nat.mod_mod _ 65536
  · simp only [List.mem_cons, List.not_mem_nil, or_false, not_or] at hout
    obtain ⟨hc, hn, hb⟩ := hout
    have hreg : (s.activate code).reg a = u.reg a := by
      rw [hact]
      rfl
    rw [hreg, hbegun.reg (by simp [hn, hb]), hcause.reg (by simp [hc]), s.reg_moduleReset ha]

/-- The parts of a state whose module a reset of scope MODULE has taken. -/
theorem State.of_sansRegs_module {s t : State} {r : RstSt} {ds : List Nat} (h : t.sansRegs = { s.keptByReset [] [] [] with
    rails := s.rails, power := { s.power with stretch := [] }, rst := r, held := ds }) :
    t.rst = r ∧ t.held = ds ∧ t.layout = none ∧ t.ctxs = [] ∧ t.queues = [] ∧ t.runs = [] ∧ t.crust = {} ∧ t.rails = s.rails :=
  ⟨(congrArg State.rst h :), (congrArg State.held h :), (congrArg State.layout h :), (congrArg State.ctxs h :),
    (congrArg State.queues h :), (congrArg State.runs h :), (congrArg State.crust h :), (congrArg State.rails h :)⟩

/-- A source of scope MODULE that begins an episode. -/
theorem State.activate_module {s : State} {code : Nat} (hepisode : s.rst.episode = false) (hcode : code ≠ 1) (hlow : 1 ≤ code)
    (hhigh : code ≤ 9) :
    (s.activate code).rst = s.episodeOf s.rst code false ∧ (s.activate code).held = (List.range 39).map (· + 1) ∧
      (s.activate code).layout = none ∧ (s.activate code).ctxs = [] ∧ (s.activate code).queues = [] ∧ (s.activate code).runs = [] ∧
      (s.activate code).crust = {} ∧ (s.activate code).rails = s.rails :=
  State.of_sansRegs_module (State.activate_effect hepisode hcode hlow hhigh).1

/-! ### POWER_ON_RESET (R403, R405, R406) -/

/-- What scope FULL leaves: what outlives every reset, and a cause of 1. -/
theorem State.activate_por_effect (s : State) :
    (s.activate 1).sansRegs = { s.keptByReset [] [] [] with rst := s.episodeOf {} 1 true, held := List.range 40 } ∧
    (s.activate 1).fld Fld.RST_CAUSE_sources = 1 ∧ (s.activate 1).fld Fld.RST_CAUSE_first = 1 := by
  obtain ⟨u, hu⟩ : ∃ u, u = (s.fullReset.causeShown 1).noBlock := ⟨_, rfl⟩
  have hact := s.activate_por
  rw [← hu] at hact
  have hsans : u.sansRegs = s.keptByReset [] [] [] := by
    rw [hu, State.sansRegs_noBlock, State.sansRegs_causeShown, s.sansRegs_fullReset]
  have hcause : RegsKept (s.fullReset.causeShown 1) u [Reg.RST_BLK_STATUS] := hu ▸ State.regsKept_noBlock _
  have hsame (f : Fld) : (s.activate 1).fld f = u.fld f := by
    rw [hact]
    rfl
  rw [hsame, hsame, hcause.fld (by decide) (by decide), hcause.fld (by decide) (by decide), State.sources_causeShown,
    State.first_causeShown _ (by decide), hact]
  exact ⟨congrArg (fun a : State => { a with rst := s.episodeOf {} 1 true, held := List.range 40 }) hsans, by decide, rfl⟩

/-- The parts of a state that a reset of scope FULL has taken, and what outlives every reset. -/
theorem State.of_sansRegs_full {s t : State} {r : RstSt} {ds : List Nat}
    (h : t.sansRegs = { s.keptByReset [] [] [] with rst := r, held := ds }) :
    t.rst = r ∧ t.held = ds ∧ t.layout = none ∧ t.ctxs = [] ∧ t.queues = [] ∧ t.runs = [] ∧ t.kv = [] ∧ t.syncs = [] ∧
      t.rails = List.replicate 8 {} ∧ t.devTime = 0 ∧ t.pending = s.pending ∧ t.hostMem = s.hostMem ∧
      t.flash = { s.flash with lastCommit := 0 } ∧ t.boot = s.boot.kept ∧ t.mono = s.mono :=
  ⟨(congrArg State.rst h :), (congrArg State.held h :), (congrArg State.layout h :), (congrArg State.ctxs h :), (congrArg State.queues h :),
    (congrArg State.runs h :), (congrArg State.kv h :), (congrArg State.syncs h :), (congrArg State.rails h :), (congrArg State.devTime h :),
    (congrArg State.pending h :), (congrArg State.hostMem h :), (congrArg State.flash h :), (congrArg State.boot h :),
    (congrArg State.mono h :)⟩

theorem powerOnReset_clears (s : State) : ∃ t, exec .powerOnReset s = .next t ∧ t.rst.episode = true ∧ t.rst.full = true ∧
    t.held = List.range 40 ∧ t.layout = none ∧ t.ctxs = [] ∧ t.queues = [] ∧ t.runs = [] ∧ t.kv = [] ∧ t.syncs = [] ∧
    t.rails = List.replicate 8 {} ∧ t.devTime = 0 ∧ t.fld Fld.RST_CAUSE_sources = 1 ∧ t.fld Fld.RST_CAUSE_first = 1 ∧
    t.pending = s.pending ∧ t.hostMem = s.hostMem ∧ t.flash.bytes = s.flash.bytes ∧ t.boot.nor = s.boot.nor ∧
    t.boot.keys = s.boot.keys ∧ t.boot.rollback = s.boot.rollback ∧ t.mono = s.mono := by
  obtain ⟨honly, hsources, hfirst⟩ := s.activate_por_effect
  obtain ⟨hrst, hheld, hlayout, hctxs, hqueues, hruns, hkv, hsyncs, hrails, htime, hpending, hhost, hflash, hboot, hmono⟩ :=
    State.of_sansRegs_full honly
  exact ⟨s.activate 1, rfl, congrArg RstSt.episode hrst, congrArg RstSt.full hrst, hheld, hlayout, hctxs, hqueues, hruns, hkv, hsyncs,
    hrails, htime, hsources, hfirst, hpending, hhost, (congrArg FlashStore.bytes hflash :), (congrArg BootSt.nor hboot :),
    (congrArg BootSt.keys hboot :), (congrArg BootSt.rollback hboot :), hmono⟩

/-! ### The sources of scope MODULE (R403 to R406) -/

theorem pinResetAssert_begins {n : Nat} {s : State} (hn : 64 ≤ n) (hactive : s.rst.active.contains 3 = false)
    (hepisode : s.rst.episode = false) : ∃ t, exec (.pinResetAssert n) s = .next t ∧ t.rst.active.contains 3 = true ∧
      t.rst.episode = true ∧ t.held = (List.range 39).map (· + 1) ∧ t.layout = none ∧ t.ctxs = [] ∧ t.queues = [] ∧ t.runs = [] ∧
      t.fld Fld.RST_CAUSE_sources = 4 ∧ t.fld Fld.RST_CAUSE_first = 3 ∧
      t.fld (Fld.RST_CNT_count 3) = (s.fld (Fld.RST_CNT_count 3) + 1) % 65536 ∧ t.rails = s.rails ∧
      (∀ k, k < 32 → t.reg (Reg.BKP_RAM k) = s.reg (Reg.BKP_RAM k)) := by
  have hexec : exec (.pinResetAssert n) s = .next (s.activate 3) := by
    change execPinResetAssert n s = _
    rw [execPinResetAssert, if_neg (by rw [hactive]; simp [hn])]
  obtain ⟨-, hsources, hfirst, hcount, hkept⟩ := State.activate_effect hepisode (by decide : (3 : Nat) ≠ 1) (by decide) (by decide)
  obtain ⟨hrst, hheld, hlayout, hctxs, hqueues, hruns, -, hrails⟩ :=
    State.activate_module hepisode (by decide : (3 : Nat) ≠ 1) (by decide) (by decide)
  refine ⟨_, hexec, ?_, ?_, hheld, hlayout, hctxs, hqueues, hruns, hsources, hfirst, hcount, hrails, fun k hk => hkept _ ?_ ?_⟩
  · rw [hrst, State.episodeOf, hactive]
    simp [lasting]
  · rw [hrst]
    rfl
  · have hblock : Reg.BKP_RAM k / 0x10000 = 0x22 := by simp only [Reg.BKP_RAM]; omega
    have hdie : Reg.BKP_RAM k / 0x1000000 = 0 := by simp only [Reg.BKP_RAM]; omega
    rw [aonReg, hdie, hblock]
    rfl
  · simp only [Reg.BKP_RAM, Reg.RST_CAUSE, Reg.RST_CNT, Reg.RST_BLK_STATUS, List.mem_cons, List.not_mem_nil, or_false]
    omega

theorem crustReset_begins {at' : Nat} {s : State} (htrip : s.crust.trip = some at') (hdue : at' + 1000000 ≤ s.monoNs)
    (hepisode : s.rst.episode = false) : ∃ t, exec .crustReset s = .next t ∧ t.rst.episode = true ∧
      t.held = (List.range 39).map (· + 1) ∧ t.layout = none ∧ t.runs = [] ∧ t.crust = {} ∧ t.fld Fld.RST_CAUSE_sources = 16 ∧
      t.fld Fld.RST_CAUSE_first = 5 ∧ t.fld (Fld.RST_CNT_count 5) = (s.fld (Fld.RST_CNT_count 5) + 1) % 65536 ∧ t.rails = s.rails := by
  have hexec : exec .crustReset s = .next (s.activate 5) := by
    change execCrustReset s = _
    rw [execCrustReset, htrip]
    dsimp only
    rw [if_neg (by omega)]
  obtain ⟨-, hsources, hfirst, hcount, -⟩ := State.activate_effect hepisode (by decide : (5 : Nat) ≠ 1) (by decide) (by decide)
  obtain ⟨hrst, hheld, hlayout, -, -, hruns, hcrust, hrails⟩ :=
    State.activate_module hepisode (by decide : (5 : Nat) ≠ 1) (by decide) (by decide)
  exact ⟨_, hexec, congrArg RstSt.episode hrst, hheld, hlayout, hruns, hcrust, hsources, hfirst, hcount, hrails⟩

theorem bit_setBits_zero_two (v x i : Nat) (hi : i < 2) : bit (setBits v 0 2 x) i = x.testBit i := bit_setBits ⟨by omega, by omega⟩

/-- A write of RST_SW_CTRL notes its fields and the reference cycle before anything else. -/
def State.swNoted (s : State) (v : Nat) : State :=
  let s1 := (s.setFld Fld.RST_SW_CTRL_scope (bits v 1 1)).setFld Fld.RST_SW_CTRL_dies (bits v 2 3)
  { s1 with rst := { s1.rst with swAt := some s1.refCycle } }

theorem State.swNoted_only (s : State) (v : Nat) :
    s.swNoted v = { s with regs := (s.swNoted v).regs, rst := { s.rst with swAt := some s.refCycle } } := rfl

theorem State.regsKept_swNoted (s : State) (v : Nat) : RegsKept s (s.swNoted v) [Reg.RST_SW_CTRL] :=
  (regsKept_setFld s _ (by decide) (by simp)).trans
    ((regsKept_setFld _ _ (by decide) (by simp)).trans (.of_regs rfl _))

theorem exec_swResetModule_of_served {who : Requester} {value : Nat} {s : State} (hs : s.served who 0 0x20 true = true) :
    exec (.swResetModule who value) s = .next ((s.swNoted (setBits value 0 2 1)).activate 8) := by
  obtain ⟨v, hv⟩ : ∃ v, v = setBits value 0 2 1 := ⟨_, rfl⟩
  have hstart : bit v 0 = true := hv ▸ bit_setBits_zero_two value 1 0 (by omega)
  have hscope : bit v 1 = false := hv ▸ bit_setBits_zero_two value 1 1 (by omega)
  change execSwResetModule who value s = _
  rw [execSwResetModule, State.busWrite_of_served _ hs, ← hv, State.writeSwCtrl, hstart, hscope]
  rfl

theorem swResetModule_begins {who : Requester} {value : Nat} {s : State} (hs : s.served who 0 0x20 true = true)
    (hepisode : s.rst.episode = false) : ∃ t, exec (.swResetModule who value) s = .next t ∧ t.rst.episode = true ∧
      t.held = (List.range 39).map (· + 1) ∧ t.layout = none ∧ t.ctxs = [] ∧ t.queues = [] ∧ t.runs = [] ∧
      t.fld Fld.RST_CAUSE_first = 8 ∧ t.fld (Fld.RST_CNT_count 8) = (s.fld (Fld.RST_CNT_count 8) + 1) % 65536 ∧ t.rails = s.rails := by
  have hexec := exec_swResetModule_of_served (value := value) hs
  generalize hv : setBits value 0 2 1 = v at hexec
  have hnoted : (s.swNoted v).rst.episode = false := hepisode
  obtain ⟨-, -, hfirst, hcount, -⟩ := State.activate_effect hnoted (by decide : (8 : Nat) ≠ 1) (by decide) (by decide)
  obtain ⟨hrst, hheld, hlayout, hctxs, hqueues, hruns, -, hrails⟩ :=
    State.activate_module hnoted (by decide : (8 : Nat) ≠ 1) (by decide) (by decide)
  rw [(s.regsKept_swNoted v).fld (by decide) (by decide)] at hcount
  exact ⟨_, hexec, congrArg RstSt.episode hrst, hheld, hlayout, hctxs, hqueues, hruns, hfirst, hcount, hrails⟩

/-! ### The end of a lasting source (R404, R405, R434) -/

theorem not_contains_filter_ne (l : List Nat) (c : Nat) : (l.filter (fun x => x != c)).contains c = false := by
  simp [List.mem_filter]

theorem pinResetRelease_ends {n : Nat} {s : State} (hn : 64 ≤ n) (hactive : s.rst.active.contains 3 = true) :
    ∃ t, exec (.pinResetRelease n) s = .next t ∧ t.rst.active.contains 3 = false ∧ t.rst.holdFrom = s.monoNs ∧
      t = { s with rst := t.rst } ∧ { t.rst with active := s.rst.active, holdFrom := s.rst.holdFrom } = s.rst :=
  ⟨s.deactivate 3, congrArg Host.Outcome.next (if_pos ⟨hn, hactive⟩), not_contains_filter_ne .., rfl, rfl, rfl⟩

theorem thermSourceClear_ends {s : State} (hactive : s.rst.active.contains 7 = true) (hdue : s.rst.thermAt + 1000000000 ≤ s.monoNs)
    (hcool : ∀ u ∈ s.rst.tripped, ∀ i, i < unitSensors u → s.temp u i < clearTemp u) :
    ∃ t, exec .thermSourceClear s = .next t ∧ t.rst.active.contains 7 = false ∧ t.rst.tripped = [] ∧ t.rst.holdFrom = s.monoNs ∧
      t = { s with rst := t.rst } := by
  refine ⟨_, congrArg Host.Outcome.next (if_pos ⟨hactive, hdue, ?_⟩), not_contains_filter_ne .., rfl, rfl, rfl⟩
  rw [List.all_eq_true]
  intro u hu
  rw [List.all_eq_true]
  exact fun i hi => decide_eq_true (hcool u hu i (List.mem_range.mp hi))

/-! ### The release of the domains (R409) -/

/-- The release of the first held domain; that of the last ends the episode. -/
theorem State.releaseNext_releases {s : State} {d : Nat} {ds : List Nat} (h : s.held = d :: ds) :
    s.releaseNext.held = ds ∧ (ds ≠ [] → s.releaseNext.rst.lastRelease = some s.monoNs) ∧
      (ds = [] → s.releaseNext.rst.episode = false) ∧
      s.releaseNext = { s with held := s.releaseNext.held, rst := s.releaseNext.rst, boot := s.releaseNext.boot } := by
  rw [State.releaseNext, h]
  cases ds with
  | nil => by_cases hd : d = 1 <;> simp [hd]
  | cons e es => by_cases hd : d = 1 <;> simp [hd]

theorem resetHoldEnd_releases {d : Nat} {ds : List Nat} {s : State} (hheld : s.held = d :: ds) (hactive : s.rst.active = [])
    (hfirst : s.rst.lastRelease = none) (hrails : s.railsOff = false) (hdue : s.rst.holdFrom + 10240 ≤ s.monoNs) :
    ∃ t, exec .resetHoldEnd s = .next t ∧ t.held = ds ∧ (ds ≠ [] → t.rst.lastRelease = some s.monoNs) ∧
      (ds = [] → t.rst.episode = false) ∧ t = { s with held := t.held, rst := t.rst, boot := t.boot } := by
  refine ⟨s.releaseNext, congrArg Host.Outcome.next (if_pos ?_), State.releaseNext_releases hheld⟩
  simp [hactive, hfirst, hrails, hdue]

theorem domainRelease_releases {d last : Nat} {ds : List Nat} {s : State} (hheld : s.held = d :: ds) (hactive : s.rst.active = [])
    (hlast : s.rst.lastRelease = some last) (hrails : s.railsOff = false) (hdue : last + 2560 ≤ s.monoNs) :
    ∃ t, exec .domainRelease s = .next t ∧ t.held = ds ∧ (ds ≠ [] → t.rst.lastRelease = some s.monoNs) ∧
      (ds = [] → t.rst.episode = false) ∧ t = { s with held := t.held, rst := t.rst, boot := t.boot } := by
  refine ⟨s.releaseNext, ?_, State.releaseNext_releases hheld⟩
  change execDomainRelease s = _
  rw [execDomainRelease, hlast]
  exact congrArg Host.Outcome.next (if_pos (by simp [hactive, hrails, hdue]))

/-- Settles O7: a source that begins an episode is `State.activate` (`State.activate_effect`); what follows ends sources and releases domains
one by one. -/
theorem moduleResets : Obligations.ModuleResets := by
  unfold Obligations.ModuleResets
  exact ⟨powerOnReset_clears, fun _ _ => pinResetAssert_begins, fun _ _ => crustReset_begins, fun _ _ _ => swResetModule_begins,
    fun _ _ => pinResetRelease_ends, fun _ => thermSourceClear_ends, fun _ _ _ => resetHoldEnd_releases,
    fun _ _ _ _ => domainRelease_releases⟩

end Sys2Proof.Machine
end

section
/-! States that differ in registers alone. -/

namespace Sys2Proof.Machine

/-- The second state is the first but for the registers listed. -/
structure RegsMoved (s t : State) (moved : List Nat) : Prop where
  only : t = { s with regs := t.regs }
  kept : RegsKept s t moved

namespace RegsMoved
variable {s t u : State} {l l' : List Nat}

theorem refl (s : State) (l : List Nat) : RegsMoved s s l := ⟨rfl, .refl s l⟩

theorem mono (h : RegsMoved s t l) (hl : l ⊆ l') : RegsMoved s t l' := ⟨h.only, h.kept.mono hl⟩

/-- Two updates of the same registers. -/
theorem trans (hst : RegsMoved s t l) (htu : RegsMoved t u l) : RegsMoved s u l :=
  ⟨htu.only.trans (congrArg (fun a : State => { a with regs := u.regs }) hst.only), hst.kept.trans htu.kept⟩

theorem append (hst : RegsMoved s t l) (htu : RegsMoved t u l') : RegsMoved s u (l ++ l') :=
  (hst.mono (List.subset_append_left l l')).trans (htu.mono (List.subset_append_right l l'))

theorem reg (h : RegsMoved s t l) {a : Nat} (ha : a ∉ l) : t.reg a = s.reg a := h.kept.reg ha

theorem fld (h : RegsMoved s t l) {f : Fld} (hf : f.lo + f.width ≤ 32) (ha : f.addr ∉ l) : t.fld f = s.fld f := h.kept.fld hf ha

theorem flag (h : RegsMoved s t l) {f : Fld} (hf : f.lo + f.width ≤ 32) (ha : f.addr ∉ l) : t.flag f = s.flag f := h.kept.flag hf ha

theorem reg64 (h : RegsMoved s t l) {a : Nat} (ha : a ∉ l) (ha' : a + 4 ∉ l) : t.reg64 a = s.reg64 a := by
  rw [State.reg64, State.reg64, h.reg ha, h.reg ha']

/-- What a state holds beside registers and Crust's own state. -/
theorem sansCrust (h : RegsMoved s t l) : t.sansCrust = s.sansCrust := (congrArg State.sansCrust h.only).trans rfl

theorem setFld (s : State) {f : Fld} (v : Nat) (hf : f.lo + f.width ≤ 32) (ha : f.addr ∈ l) : RegsMoved s (s.setFld f v) l :=
  ⟨s.setFld_regs_only f v, regsKept_setFld s v hf ha⟩

theorem setReg (s : State) {a : Nat} (v : Word) (ha : a ∈ l) : RegsMoved s (s.setReg a v) l :=
  ⟨rfl, regsKept_setReg s v ha⟩

theorem setReg64 (s : State) {a : Nat} (v : Nat) (ha : a ∈ l) (ha' : a + 4 ∈ l) : RegsMoved s (s.setReg64 a v) l :=
  ⟨rfl, regsKept_setReg64 s v ha ha'⟩

theorem event (s : State) (e : Evt) : RegsMoved s (s.event e) e.regs := ⟨rfl, regsKept_event s e⟩

theorem eventIf (s : State) (c : Bool) (e : Evt) : RegsMoved s (s.eventIf c e) e.regs := by
  cases c
  · exact refl s _
  · exact event s e

theorem ite {p : Prop} [Decidable p] (ht : RegsMoved s t l) (hu : RegsMoved s u l) : RegsMoved s (if p then t else u) l := by
  split
  · exact ht
  · exact hu

theorem foldl {α : Type} {f : State → α → State} {xs : List α} (hf : ∀ a, ∀ x ∈ xs, RegsMoved a (f a x) l) (s : State) :
    RegsMoved s (xs.foldl f s) l := by
  induction xs generalizing s with
  | nil => exact refl s l
  | cons x xs ih => exact (hf s x List.mem_cons_self).trans (ih (fun a y hy => hf a y (List.mem_cons_of_mem _ hy)) _)

/-- An event counted after registers moved that are none of its own. -/
theorem counted {e : Evt} (h : RegsMoved s t l) (he : e.status ≠ e.counter) (hb : e.bit < 32) (hc : e.counter ∉ l) : Counted s (t.event e) e :=
  (counted_event t he hb).since (h.reg hc)

end RegsMoved

end Sys2Proof.Machine
end

section
/-! Sensor supplies, wiring faults, the cable diagnostic and the status page (chapter 24). -/

namespace Sys2Proof.Machine

/-! ### Sensor supplies (R445, R446) -/

section Supply
variable (s : State) (k : Nat)

theorem spwr_ctrl_ne_status : Reg.PWR_SPWR_CTRL k ≠ Reg.PWR_SPWR_STATUS k := by
  simp only [Reg.PWR_SPWR_CTRL, Reg.PWR_SPWR_STATUS]
  omega

theorem spwr_not_event {k : Nat} (hk : k < 4) (a : Nat) (ha : Reg.PWR_SPWR_EVT ≤ a) :
    Reg.PWR_SPWR_CTRL k ≠ a ∧ Reg.PWR_SPWR_STATUS k ≠ a := by
  simp only [Reg.PWR_SPWR_CTRL, Reg.PWR_SPWR_STATUS, Reg.PWR_SPWR_EVT] at *
  omega

theorem State.regsMoved_spwrOff (state : Nat) :
    RegsMoved s (s.spwrOff k state) [Reg.PWR_SPWR_CTRL k, Reg.PWR_SPWR_STATUS k] :=
  ((RegsMoved.setFld s 0 (by simp) (by simp)).trans (.setFld _ state (by simp) (by simp))).trans (.setFld _ 0 (by simp) (by simp))

/-- A supply that is switched off: its output is off, its current 0, its state shown. -/
theorem State.spwrOff_effect {state : Nat} (h : state < 8) : (s.spwrOff k state).flag (Fld.PWR_SPWR_CTRL_en k) = false ∧
    (s.spwrOff k state).fld (Fld.PWR_SPWR_STATUS_state k) = state ∧ (s.spwrOff k state).fld (Fld.PWR_SPWR_STATUS_ma k) = 0 := by
  have hne := spwr_ctrl_ne_status k
  refine ⟨?_, ?_, ?_⟩
  · rw [State.flag, State.spwrOff, State.fld_setFld_ne _ _ (by simp) (by simp) (.inl hne), State.fld_setFld_ne _ _ (by simp) (by simp) (.inl hne),
      State.fld_setFld_same _ _ (by simp)]
    rfl
  · rw [State.spwrOff, State.fld_setFld_ne _ _ (by simp) (by simp) (by simp), State.fld_setFld_same _ _ (by simp)]
    exact Nat.mod_eq_of_lt h
  · rw [State.spwrOff, State.fld_setFld_same _ _ (by simp)]
    rfl

/-- A supply switched off and its event counted. -/
theorem State.spwrOff_counted {k : Nat} (hk : k < 4) {state : Nat} (h : state < 8) {e : Evt} (hs : e.status = Reg.PWR_SPWR_EVT)
    (hc : Reg.PWR_SPWR_EVT < e.counter) (hb : e.bit < 32) {m : State} (hm : m.regs = s.regs) :
    ((m.spwrOff k state).event e).flag (Fld.PWR_SPWR_CTRL_en k) = false ∧
    ((m.spwrOff k state).event e).fld (Fld.PWR_SPWR_STATUS_state k) = state ∧
    ((m.spwrOff k state).event e).fld (Fld.PWR_SPWR_STATUS_ma k) = 0 ∧ Counted s ((m.spwrOff k state).event e) e ∧
    RegsKept s ((m.spwrOff k state).event e) (Reg.PWR_SPWR_CTRL k :: Reg.PWR_SPWR_STATUS k :: e.regs) ∧
    (m.spwrOff k state).event e = { m with regs := ((m.spwrOff k state).event e).regs } := by
  obtain ⟨hen, hstate, hma⟩ := m.spwrOff_effect k h
  have hevent := RegsMoved.event (m.spwrOff k state) e
  obtain ⟨hcs, hss⟩ := spwr_not_event hk e.status (by omega)
  obtain ⟨hcc, hsc⟩ := spwr_not_event hk e.counter (by omega)
  have hctrl : Reg.PWR_SPWR_CTRL k ∉ e.regs := by simp [Evt.regs, hcs, hcc]
  have hstatus : Reg.PWR_SPWR_STATUS k ∉ e.regs := by simp [Evt.regs, hss, hsc]
  have hoff := m.regsMoved_spwrOff k state
  have hkept := (RegsKept.of_regs hm _ : RegsKept s m [Reg.PWR_SPWR_CTRL k, Reg.PWR_SPWR_STATUS k]).trans hoff.kept
  have hall := hoff.append hevent
  refine ⟨(hevent.kept.flag (by simp) hctrl).trans hen, (hevent.kept.fld (by simp) hstatus).trans hstate,
    (hevent.kept.fld (by simp) hstatus).trans hma, (counted_event _ (by omega) hb).since (hkept.reg (by simp [hcc.symm, hsc.symm])),
    (RegsKept.of_regs hm _).trans hall.kept, hall.only⟩

end Supply

theorem spwrOverload_trips {k ma ns : Nat} {s : State} (hk : k < 4) (hen : s.flag (Fld.PWR_SPWR_CTRL_en k) = true)
    (hover : 5000 < ma ∨ (2000 < ma ∧ 1000000 ≤ ns)) :
    ∃ t, exec (.spwrOverload k ma ns) s = .next t ∧ t.flag (Fld.PWR_SPWR_CTRL_en k) = false ∧
      t.fld (Fld.PWR_SPWR_STATUS_state k) = 2 ∧ t.fld (Fld.PWR_SPWR_STATUS_ma k) = 0 ∧ Counted s t Ev.PWR_SPWR_EVT_trip ∧
      RegsKept s t (Reg.PWR_SPWR_CTRL k :: Reg.PWR_SPWR_STATUS k :: Ev.PWR_SPWR_EVT_trip.regs) ∧
      Sparse.get (fun _ => none) t.power.spwrTrip k = some s.monoNs ∧ t = { s with regs := t.regs, power := t.power } := by
  obtain ⟨m, hm⟩ : ∃ m : State, m =
    { s with power := { s.power with spwrTrip := Sparse.put (fun _ => none) s.power.spwrTrip k (some s.monoNs) } } := ⟨_, rfl⟩
  have hexec : exec (.spwrOverload k ma ns) s = .next ((m.spwrOff k 2).event Ev.PWR_SPWR_EVT_trip) := by
    change execSpwrOverload k ma ns s = _
    rw [execSpwrOverload, if_neg (by omega), if_neg (by rw [hen]; simp; omega), hm]
  obtain ⟨hoff, hstate, hma, hcounted, hkept, honly⟩ := s.spwrOff_counted hk (by decide : 2 < 8) (e := Ev.PWR_SPWR_EVT_trip) rfl
    (by decide) (by decide) (m := m) (hm ▸ rfl)
  generalize (m.spwrOff k 2).event Ev.PWR_SPWR_EVT_trip = t at *
  rw [hm] at honly
  have hpower : t.power = { s.power with spwrTrip := Sparse.put (fun _ => none) s.power.spwrTrip k (some s.monoNs) } :=
    (congrArg State.power honly :)
  refine ⟨t, hexec, hoff, hstate, hma, hcounted, hkept, ?_, ?_⟩
  · rw [show t.power.spwrTrip = Sparse.put (fun _ => none) s.power.spwrTrip k (some s.monoNs) from
      (congrArg (fun a : State => a.power.spwrTrip) honly :)]
    exact Sparse.get_put_same
  · rw [hpower]
    exact honly

theorem spwrOpen_opens {k ma ns : Nat} {s : State} (hk : k < 4) (hon : s.fld (Fld.PWR_SPWR_STATUS_state k) = 1) (hma : ma < 10)
    (hns : 100000000 ≤ ns) :
    ∃ t, exec (.spwrOpen k ma ns) s = .next t ∧ t.fld (Fld.PWR_SPWR_STATUS_state k) = 3 ∧ t.fld (Fld.PWR_SPWR_STATUS_ma k) = ma ∧
      Counted s t Ev.PWR_SPWR_EVT_open ∧ RegsKept s t (Reg.PWR_SPWR_STATUS k :: Ev.PWR_SPWR_EVT_open.regs) ∧
      t = { s with regs := t.regs } := by
  obtain ⟨m, hm⟩ : ∃ m, m = (s.setFld (Fld.PWR_SPWR_STATUS_state k) 3).setFld (Fld.PWR_SPWR_STATUS_ma k) ma := ⟨_, rfl⟩
  have hexec : exec (.spwrOpen k ma ns) s = .next (m.event Ev.PWR_SPWR_EVT_open) := by
    change execSpwrOpen k ma ns s = _
    rw [execSpwrOpen, if_neg (by omega), if_neg (by omega), hm]
  have hset : RegsMoved s m [Reg.PWR_SPWR_STATUS k] :=
    hm ▸ (RegsMoved.setFld s _ (by simp) (by simp)).trans (.setFld _ _ (by simp) (by simp))
  have hevent := RegsMoved.event m Ev.PWR_SPWR_EVT_open
  have hstatus : Reg.PWR_SPWR_STATUS k ∉ Ev.PWR_SPWR_EVT_open.regs := by
    simp only [Evt.regs, Ev.PWR_SPWR_EVT_open, List.mem_cons, List.not_mem_nil, or_false, not_or]
    exact ⟨(spwr_not_event hk _ (by decide)).2, (spwr_not_event hk _ (by decide)).2⟩
  refine ⟨_, hexec, ?_, ?_, ?_, ?_, ?_⟩
  · rw [hevent.fld (by simp) hstatus, hm, State.fld_setFld_ne _ _ (by simp) (by simp) (by simp), State.fld_setFld_same _ _ (by simp)]
    rfl
  · rw [hevent.fld (by simp) hstatus, hm, State.fld_setFld_same _ _ (by simp)]
    exact Nat.mod_eq_of_lt (by simp; omega)
  · refine (counted_event m (by decide) (by decide)).since (hset.reg ?_)
    simpa using (spwr_not_event hk _ (by decide)).2.symm
  · exact (hset.append hevent).kept
  · exact (hset.append hevent).only

/-- What a back-feed and a reversed source share. -/
theorem State.spwrBackfed_effect (s : State) {k state : Nat} (hk : k < 4) (h : state < 8) {t : State} (ht : t = s.spwrBackfed k state) :
    t.flag (Fld.PWR_SPWR_CTRL_en k) = false ∧ t.fld (Fld.PWR_SPWR_STATUS_state k) = state ∧ Counted s t Ev.PWR_SPWR_EVT_backfeed ∧
      RegsKept s t (Reg.PWR_SPWR_CTRL k :: Reg.PWR_SPWR_STATUS k :: Ev.PWR_SPWR_EVT_backfeed.regs) ∧
      Sparse.get (fun _ => none) t.power.spwrBack k = some s.refCycle ∧ t = { s with regs := t.regs, power := t.power } := by
  obtain ⟨m, hm⟩ : ∃ m : State, m =
    { s with power := { s.power with spwrBack := Sparse.put (fun _ => none) s.power.spwrBack k (some s.refCycle) } } := ⟨_, rfl⟩
  have ht' : t = (m.spwrOff k state).event Ev.PWR_SPWR_EVT_backfeed := by rw [ht, hm, State.spwrBackfed]
  obtain ⟨hoff, hstate, -, hcounted, hkept, honly⟩ := s.spwrOff_counted hk h (e := Ev.PWR_SPWR_EVT_backfeed) rfl (by decide) (by decide)
    (m := m) (hm ▸ rfl)
  rw [← ht'] at hoff hstate hcounted hkept honly
  rw [hm] at honly
  have hpower : t.power = { s.power with spwrBack := Sparse.put (fun _ => none) s.power.spwrBack k (some s.refCycle) } :=
    (congrArg State.power honly :)
  refine ⟨hoff, hstate, hcounted, hkept, ?_, ?_⟩
  · rw [show t.power.spwrBack = Sparse.put (fun _ => none) s.power.spwrBack k (some s.refCycle) from
      (congrArg (fun a : State => a.power.spwrBack) honly :)]
    exact Sparse.get_put_same
  · rw [hpower]
    exact honly

theorem spwrBackfeed_switches_off {k mv : Nat} {s : State} (hk : k < 4) (hmv : 13000 < mv) :
    exec (.spwrBackfeed k mv) s = .next (s.spwrBackfed k 4) := by
  change execSpwrBackfeed k mv s = _
  rw [execSpwrBackfeed, if_neg (by omega)]

theorem spwrReverse_switches_off {k : Nat} {mv : Int} {s : State} (hk : k < 4) (hmv : mv < -500) :
    exec (.spwrReverse k mv) s = .next (s.spwrBackfed k 5) := by
  change execSpwrReverse k mv s = _
  rw [execSpwrReverse, if_neg (by omega)]

theorem exec_spwrEnableWrite_of_served {who : Requester} {k : Nat} (value : Nat) {s : State} (hs : s.served who 0 0x21 false = true)
    (hk : k < 4) : exec (.spwrEnableWrite who k value) s = .next (s.writeSpwr k value) := by
  change execSpwrEnableWrite who k value s = _
  rw [execSpwrEnableWrite, State.busWrite_of_served _ hs, if_pos hk]

theorem spwrEnableWrite_enables {who : Requester} {k value : Nat} {s : State} (hs : s.served who 0 0x21 false = true) (hk : k < 4)
    (hen : value.testBit 0 = true)
    (htrip : ∀ at', Sparse.get (fun _ => none) s.power.spwrTrip k = some at' → at' + 100000000 ≤ s.monoNs)
    (hback : Sparse.get (fun _ => none) s.power.spwrBack k ≠ some s.refCycle) :
    ∃ t, exec (.spwrEnableWrite who k value) s = .next t ∧ t.flag (Fld.PWR_SPWR_CTRL_en k) = true ∧
      t.fld (Fld.PWR_SPWR_STATUS_state k) = 1 ∧ RegsKept s t [Reg.PWR_SPWR_CTRL k, Reg.PWR_SPWR_STATUS k] ∧
      t = { s with regs := t.regs } := by
  have hno : ¬((Sparse.get (fun _ => none) s.power.spwrTrip k).elim false (fun t => decide (s.monoNs < t + 100000000)) ||
      Sparse.get (fun _ => none) s.power.spwrBack k == some s.refCycle) = true := by
    rw [Bool.or_eq_true, not_or, beq_iff_eq]
    refine ⟨?_, hback⟩
    rcases htripped : Sparse.get (fun _ => none) s.power.spwrTrip k with - | at'
    · exact Bool.false_ne_true
    · rw [Option.elim_some, decide_eq_true_iff, Nat.not_lt]
      exact htrip at' htripped
  have hexec := exec_spwrEnableWrite_of_served value hs hk
  rw [State.writeSpwr, if_pos (show bit value 0 = true from hen), if_neg hno] at hexec
  refine ⟨_, hexec, ?_, ?_, ?_, ?_⟩
  · rw [State.flag, State.fld_setFld_ne _ _ (by simp) (by simp) (.inl (spwr_ctrl_ne_status k)), State.fld_setFld_same _ _ (by simp)]
    rfl
  · rw [State.fld_setFld_same _ _ (by simp)]
    rfl
  · exact (regsKept_setFld s _ (by simp) (by simp)).trans (regsKept_setFld _ _ (by simp) (by simp))
  · rw [State.setFld_regs_only, State.setFld_regs_only s]

theorem spwrEnableWrite_overridden {who : Requester} {k value : Nat} {s : State} (hs : s.served who 0 0x21 false = true) (hk : k < 4)
    (hen : value.testBit 0 = true) (hback : Sparse.get (fun _ => none) s.power.spwrBack k = some s.refCycle) :
    exec (.spwrEnableWrite who k value) s = .next s := by
  rw [exec_spwrEnableWrite_of_served value hs hk, State.writeSpwr, if_pos (show bit value 0 = true from hen),
    if_pos (by rw [hback]; simp)]

/-! ### Wiring faults (R445) -/

section Wires
variable (s : State) (k : Nat)

theorem sioWire_not_event (a : Nat) (ha : a < Reg.SIO_WIRE 0) : Reg.SIO_WIRE k ≠ a := by
  simp only [Reg.SIO_WIRE] at *
  omega

theorem State.regsKept_setWire (cs : List Nat) : RegsKept s (s.setWire k cs) [Reg.SIO_WIRE k] :=
  (RegsKept.of_regs rfl _ : RegsKept s { s with crust := (s.setWire k cs).crust } [Reg.SIO_WIRE k]).trans
    (regsKept_setFld _ _ (by simp) (by simp))

theorem State.sansCrust_setWire (cs : List Nat) : (s.setWire k cs).sansCrust = s.sansCrust := rfl

theorem State.sansCrust_setFld (f : Fld) (v : Nat) : (s.setFld f v).sansCrust = s.sansCrust := by
  rw [State.setFld_regs_only]
  rfl

theorem State.sansCrust_event (e : Evt) : (s.event e).sansCrust = s.sansCrust := (RegsMoved.event s e).sansCrust

theorem State.live_setWire (cs : List Nat) : (s.setWire k cs).flag (Fld.SIO_WIRE_live k) = !cs.isEmpty := by
  rw [State.flag, State.setWire, State.fld_setFld_same _ _ (by simp)]
  cases cs <;> rfl

theorem State.fld_setWire_ne (cs : List Nat) {f : Fld} (hf : f.lo + f.width ≤ 32)
    (h : f.addr ≠ Reg.SIO_WIRE k ∨ f.lo + f.width ≤ 3 ∨ 4 ≤ f.lo) : (s.setWire k cs).fld f = s.fld f :=
  State.fld_setFld_ne _ _ (by simp) hf (by simpa using h)

theorem State.wire_setWire (cs : List Nat) : (s.setWire k cs).wire k = cs := Sparse.get_put_same

theorem State.off_setWire (cs : List Nat) : (s.setWire k cs).crust.off = s.crust.off := rfl

/-- A wiring fault found where none is latched: it is live and latched, counted, and reported to Crust. -/
theorem State.wireFault_latches {cond : Nat} (ma : Nat) (hfree : s.fld (Fld.SIO_WIRE_cond k) = 0) (hcond : cond < 8) {t : State}
    (ht : t = s.wireFault k cond ma) :
    t.fld (Fld.SIO_WIRE_cond k) = cond ∧ t.flag (Fld.SIO_WIRE_live k) = true ∧ (0x16, 0) ∈ t.crust.reports ∧
      t = { s with regs := t.regs, crust := t.crust } ∧ RegsKept s t (Reg.SIO_WIRE k :: Ev.SIO_WIRE_EVT_wire.regs) := by
  obtain ⟨cs, hcs, hsome⟩ : ∃ cs, cs = (if (s.wire k).contains cond then s.wire k else s.wire k ++ [cond]) ∧ cs.isEmpty = false := by
    refine ⟨_, rfl, ?_⟩
    split
    next h =>
      cases hw : s.wire k with
      | nil => rw [hw] at h; exact absurd h nofun
      | cons x xs => rfl
    · simp
  obtain ⟨s1, hs1⟩ : ∃ s1, s1 = (s.setWire k cs).setFld (Fld.SIO_WIRE_ma k) ma := ⟨_, rfl⟩
  have hfault : t = ((s1.setFld (Fld.SIO_WIRE_cond k) cond).event Ev.SIO_WIRE_EVT_wire).report 0x16 0 := by
    rw [ht, State.wireFault, State.latchWire, if_pos hfree, hs1, hcs]
  have hwire : Reg.SIO_WIRE k ∉ Ev.SIO_WIRE_EVT_wire.regs := by
    simp only [Evt.regs, Ev.SIO_WIRE_EVT_wire, List.mem_cons, List.not_mem_nil, or_false, not_or]
    exact ⟨sioWire_not_event k _ (by decide), sioWire_not_event k _ (by decide)⟩
  have hcounted : RegsKept (s1.setFld (Fld.SIO_WIRE_cond k) cond) t Ev.SIO_WIRE_EVT_wire.regs := by
    rw [hfault]
    exact (regsKept_event _ _).trans (State.regsKept_report _ _ _ _)
  have hset : RegsKept s s1 [Reg.SIO_WIRE k] := hs1 ▸ (s.regsKept_setWire k cs).trans (regsKept_setFld _ _ (by simp) (by simp))
  refine ⟨?_, ?_, ?_, ?_, ?_⟩
  · rw [hcounted.fld (by simp) hwire, State.fld_setFld_same _ _ (by simp)]
    exact Nat.mod_eq_of_lt hcond
  · rw [hcounted.flag (by simp) hwire, State.flag, State.fld_setFld_ne _ _ (by simp) (by simp) (by simp), hs1,
      State.fld_setFld_ne _ _ (by simp) (by simp) (by simp)]
    exact (s.live_setWire k cs).trans (by rw [hsome]; rfl)
  · rw [hfault, State.reports_report]
    simp
  · refine State.eq_of_sansCrust ?_
    rw [hfault, hs1, State.sansCrust_report, State.sansCrust_event, State.sansCrust_setFld, State.sansCrust_setFld,
      State.sansCrust_setWire]
  · have hcond : RegsKept s1 (s1.setFld (Fld.SIO_WIRE_cond k) cond) [Reg.SIO_WIRE k] := regsKept_setFld s1 _ (by simp) (by simp)
    exact ((hset.trans hcond).mono (by simp)).trans (hcounted.mono (List.subset_cons_self _ _))

/-- An output that the hardware switches off is not energised. -/
theorem State.outputOff_effect {t : State} (ht : t = s.outputOff k) : t.energised k = false ∧ t.crust.reports = s.crust.reports ∧
    t.sansCrust = s.sansCrust ∧ RegsKept s t [Reg.SIO_STO_STATUS] := by
  have hoff : t.crust.off.contains k = true := by
    rw [ht]
    change (if s.crust.off.contains k then s.crust.off else s.crust.off ++ [k]).contains k = true
    split
    next h => exact h
    · simp
  refine ⟨?_, ?_, ?_, ?_⟩
  · rw [State.energised, hoff]
    rfl
  · rw [ht]
    rfl
  · rw [ht]
    rfl
  · rw [ht]
    exact (RegsKept.of_regs rfl _).trans (State.regsKept_driveOutputs _)

end Wires

/-- A wiring fault of an output that also switches it off. -/
theorem wireFault_outputOff {x cond : Nat} (ma : Nat) {s : State} (hfree : s.fld (Fld.SIO_WIRE_cond x) = 0) (hcond : cond < 8) {t : State}
    (ht : t = (s.wireFault x cond ma).outputOff x) : t.fld (Fld.SIO_WIRE_cond x) = cond ∧ t.flag (Fld.SIO_WIRE_live x) = true ∧
      t.energised x = false ∧ (0x16, 0) ∈ t.crust.reports ∧ t = { s with regs := t.regs, crust := t.crust } ∧
      RegsKept s t (Reg.SIO_STO_STATUS :: Reg.SIO_WIRE x :: Ev.SIO_WIRE_EVT_wire.regs) := by
  obtain ⟨m, hm⟩ : ∃ m, m = s.wireFault x cond ma := ⟨_, rfl⟩
  obtain ⟨hlatched, hlive, hreport, honly, hkept⟩ := s.wireFault_latches x ma hfree hcond hm
  obtain ⟨hoff, hreports, honly', hkept'⟩ := m.outputOff_effect x (ht.trans (hm ▸ rfl))
  have hwire : Reg.SIO_WIRE x ∉ [Reg.SIO_STO_STATUS] := by simpa using sioWire_not_event x _ (by decide)
  refine ⟨(hkept'.fld (by simp) hwire).trans hlatched, (hkept'.flag (by simp) hwire).trans hlive, hoff, hreports ▸ hreport, ?_, ?_⟩
  · exact State.eq_of_sansCrust (honly'.trans ((congrArg State.sansCrust honly).trans rfl))
  · exact (hkept.mono (List.subset_cons_self _ _)).trans (hkept'.mono (by simp))

theorem exec_stoShortGnd_of_short {x ma ns : Nat} {s : State} (hx : x < 8) (hon : s.energised x = true) (hma : 300 ≤ ma) (hns : 50000 ≤ ns) :
    exec (.stoShortGnd x ma ns) s = .next ((s.wireFault x 2 ma).outputOff x) := by
  change execStoShortGnd x ma ns s = _
  rw [execStoShortGnd, if_neg (by omega), if_neg (by rw [hon]; simp; omega), if_neg (by omega)]

theorem exec_stoExternalVoltage_of_high {x mv ns : Nat} {s : State} (hx : x < 8) (hoff : s.energised x = false) (hmv : 3000 < mv)
    (hns : 1000000 ≤ ns) : exec (.stoExternalVoltage x mv ns) s = .next (s.wireFault x 3 (s.fld (Fld.SIO_WIRE_ma x))) := by
  change execStoExternalVoltage x mv ns s = _
  rw [execStoExternalVoltage, if_neg (by omega), if_neg (by rw [hoff]; simp; omega), if_neg (by omega)]

theorem exec_stoOpenWire_of_open {x ma ns : Nat} {s : State} (hx : x < 8) (hon : s.energised x = true) (hma : ma < 2) (hns : 10000000 ≤ ns) :
    exec (.stoOpenWire x ma ns) s = .next (s.wireFault x 1 ma) := by
  change execStoOpenWire x ma ns s = _
  rw [execStoOpenWire, if_neg (by omega), if_neg (by rw [hon]; simp; omega), if_neg (by omega)]

theorem exec_stoReverseSource_of_reversed {x : Nat} {mv : Int} {s : State} (hx : x < 8) (hmv : mv < -1000) :
    exec (.stoReverseSource x mv) s = .next ((s.wireFault x 5 (s.fld (Fld.SIO_WIRE_ma x))).outputOff x) := by
  change execStoReverseSource x mv s = _
  rw [execStoReverseSource, if_neg (by omega), if_neg (by omega)]

theorem testBit_setBits_single (v c : Nat) (b : Bool) : (setBits v c 1 (b2n b)).testBit c = b := by
  rw [testBit_setBits, if_pos ⟨Nat.le_refl c, by omega⟩, Nat.sub_self]
  cases b <;> rfl

theorem estopSourceShort_latches {c ma ns : Nat} {s : State} (hc : c < 2) (hma : 20 ≤ ma) (hns : 1000000 ≤ ns)
    (hfree : s.fld (Fld.SIO_WIRE_cond (8 + c)) = 0) :
    ∃ t, exec (.estopSourceShort c ma ns) s = .next t ∧ t.fld (Fld.SIO_WIRE_cond (8 + c)) = 2 ∧
      (t.fld Fld.SIO_STO_STATUS_estop).testBit c = s.inRun c false ∧ (0x16, 0) ∈ t.crust.reports ∧
      t = { s with regs := t.regs, crust := t.crust } ∧
      RegsKept s t (Reg.SIO_STO_STATUS :: Reg.SIO_WIRE (8 + c) :: Ev.SIO_WIRE_EVT_wire.regs) := by
  obtain ⟨m, hm⟩ : ∃ m, m = s.wireFault (8 + c) 2 ma := ⟨_, rfl⟩
  obtain ⟨v, hv⟩ : ∃ v, v = setBits (s.fld Fld.SIO_STO_STATUS_estop) c 1 (b2n (s.inRun c false)) := ⟨_, rfl⟩
  have hexec : exec (.estopSourceShort c ma ns) s = .next (m.setFld Fld.SIO_STO_STATUS_estop v) := by
    change execEstopSourceShort c ma ns s = _
    rw [execEstopSourceShort, if_neg (by omega), if_neg (by omega), if_neg (by omega), hm, hv]
  obtain ⟨hlatched, -, hreport, honly, hkept⟩ := s.wireFault_latches (8 + c) ma hfree (by decide) hm
  have hset : RegsMoved m _ [Reg.SIO_STO_STATUS] := .setFld m v (f := Fld.SIO_STO_STATUS_estop) (by decide) (by simp)
  have hwire : Reg.SIO_WIRE (8 + c) ∉ [Reg.SIO_STO_STATUS] := by simpa using sioWire_not_event (8 + c) _ (by decide)
  refine ⟨_, hexec, (hset.kept.fld (by simp) hwire).trans hlatched, ?_, ?_, ?_, 
    (hkept.mono (List.subset_cons_self _ _)).trans (hset.kept.mono (by simp))⟩
  · rw [State.fld_setFld_same _ _ (by decide), Nat.testBit_mod_two_pow, hv, testBit_setBits_single, decide_eq_true hc, Bool.true_and]
  · rwa [State.setFld_crust]
  · exact State.eq_of_sansCrust ((State.sansCrust_setFld _ _ _).trans ((congrArg State.sansCrust honly).trans rfl))

/-- A measurement that does not find the one condition that is present ends it, and what is latched stays. -/
theorem stoShortGnd_ends {x ma ns : Nat} {s : State} (hx : x < 8) (hma : ma < 300) (hwire : s.wire x = [2]) :
    ∃ t, exec (.stoShortGnd x ma ns) s = .next t ∧ t.flag (Fld.SIO_WIRE_live x) = false ∧ t.wire x = [] ∧
      t.fld (Fld.SIO_WIRE_cond x) = s.fld (Fld.SIO_WIRE_cond x) ∧ t.fld (Fld.SIO_WIRE_ma x) = ma ∧ RegsKept s t [Reg.SIO_WIRE x] ∧
      t = { s with regs := t.regs, crust := t.crust } := by
  have hexec : exec (.stoShortGnd x ma ns) s = .next ((s.setWire x []).setFld (Fld.SIO_WIRE_ma x) ma) := by
    change execStoShortGnd x ma ns s = _
    rw [execStoShortGnd, if_neg (by omega), if_pos (.inr hma), State.endWire, hwire, Nat.min_eq_left (by omega)]
    rfl
  refine ⟨_, hexec, ?_, ?_, ?_, ?_, (s.regsKept_setWire x []).trans (regsKept_setFld _ _ (by simp) (by simp)), ?_⟩
  · rw [State.flag, State.fld_setFld_ne _ _ (by simp) (by simp) (by simp)]
    exact s.live_setWire x []
  · rw [State.wire, State.setFld_crust]
    exact s.wire_setWire x []
  · rw [State.fld_setFld_ne _ _ (by simp) (by simp) (by simp)]
    exact s.fld_setWire_ne x [] (by simp) (.inr (.inl (by simp)))
  · rw [State.fld_setFld_same _ _ (by simp)]
    exact Nat.mod_eq_of_lt (by simp; omega)
  · exact State.eq_of_sansCrust ((State.sansCrust_setFld _ _ _).trans (s.sansCrust_setWire x []))

/-! ### SIO_WIRE_CLEAR (R445) -/

/-- One wire cleared, unless its condition is present now. -/
def State.clearWire (live : Nat) (a : State) (k : Nat) : State :=
  if a.flag (Fld.SIO_WIRE_live k) && live.testBit k then a else (a.setWire k []).setFld (Fld.SIO_WIRE_cond k) 0

theorem State.sansCrust_clearWire (live : Nat) (a : State) (k : Nat) : (a.clearWire live k).sansCrust = a.sansCrust := by
  unfold State.clearWire
  split
  · rfl
  · exact (State.sansCrust_setFld _ _ _).trans (a.sansCrust_setWire k [])

theorem State.regsKept_clearWire (live : Nat) (a : State) (k : Nat) : RegsKept a (a.clearWire live k) [Reg.SIO_WIRE k] := by
  unfold State.clearWire
  split
  · exact .refl a _
  · exact (a.regsKept_setWire k []).trans (regsKept_setFld _ _ (by simp) (by simp))

theorem sioWire_injective {j k : Nat} (h : Reg.SIO_WIRE j = Reg.SIO_WIRE k) : j = k := by
  simp only [Reg.SIO_WIRE] at h
  omega

theorem State.cond_clearWire_same (live : Nat) (a : State) (k : Nat) : (a.clearWire live k).fld (Fld.SIO_WIRE_cond k) =
    if a.flag (Fld.SIO_WIRE_live k) && live.testBit k then a.fld (Fld.SIO_WIRE_cond k) else 0 := by
  unfold State.clearWire
  split
  · rfl
  · exact State.fld_setFld_same _ _ (by simp)

/-- Wires cleared one after another: each by its own state alone. -/
theorem State.cond_clearWires (live : Nat) {ks : List Nat} (hks : ks.Nodup) (s : State) {k : Nat} (hk : k ∈ ks) :
    (ks.foldl (State.clearWire live) s).fld (Fld.SIO_WIRE_cond k) =
      if s.flag (Fld.SIO_WIRE_live k) && live.testBit k then s.fld (Fld.SIO_WIRE_cond k) else 0 := by
  induction ks generalizing s with
  | nil => cases hk
  | cons j js ih =>
    obtain ⟨hj, hjs⟩ := List.nodup_cons.mp hks
    rw [List.foldl_cons]
    by_cases hjk : k = j
    · subst hjk
      have hrest : RegsKept (s.clearWire live k) (js.foldl (State.clearWire live) (s.clearWire live k)) (js.map Reg.SIO_WIRE) :=
        .foldl (fun a i hi => (State.regsKept_clearWire live a i).mono
            (List.cons_subset.mpr ⟨List.mem_map_of_mem hi, List.nil_subset _⟩)) _
      have hout : Reg.SIO_WIRE k ∉ js.map Reg.SIO_WIRE := by
        rintro hmem
        obtain ⟨i, hi, hik⟩ := List.mem_map.mp hmem
        exact hj (sioWire_injective hik ▸ hi)
      rw [hrest.fld (by simp) hout, State.cond_clearWire_same]
    · have hkept : RegsKept s (s.clearWire live j) [Reg.SIO_WIRE j] := State.regsKept_clearWire live s j
      have hout : Reg.SIO_WIRE k ∉ [Reg.SIO_WIRE j] := by
        rw [List.mem_singleton]
        exact fun h => hjk (sioWire_injective h)
      rw [ih hjs _ ((List.mem_cons.mp hk).resolve_left hjk), hkept.flag (by simp) hout, hkept.fld (by simp) hout]

theorem sioWireClear_clears {who : Requester} {live : Nat} {s : State} (hs : s.served who 0 0x2E false = true) :
    ∃ t, exec (.sioWireClear who live) s = .next t ∧
      (∀ k, k < 10 → t.fld (Fld.SIO_WIRE_cond k) =
        if s.flag (Fld.SIO_WIRE_live k) && live.testBit k then s.fld (Fld.SIO_WIRE_cond k) else 0) ∧
      RegsKept s t ((List.range 10).map Reg.SIO_WIRE) ∧ t = { s with regs := t.regs, crust := t.crust } := by
  have hexec : exec (.sioWireClear who live) s = .next ((List.range 10).foldl (State.clearWire live) s) := by
    change execSioWireClear who live s = _
    rw [execSioWireClear, State.busWrite_of_served _ hs]
    rfl
  refine ⟨_, hexec, fun k hk => State.cond_clearWires live List.nodup_range s (List.mem_range.mpr hk), ?_, ?_⟩
  · exact .foldl (fun a i hi => (State.regsKept_clearWire live a i).mono
      (List.cons_subset.mpr ⟨List.mem_map_of_mem hi, List.nil_subset _⟩)) s
  · exact State.eq_of_sansCrust (foldl_keeps (fun a k _ => State.sansCrust_clearWire live a k) s)

/-! ### ETH_CABLE_DIAGNOSTIC (R445) -/

theorem ethCableDiagnostic_reports {port cond distance : Nat} {s : State} (hport : port < 12) (hcond : cond < 4) (hfault : cond ≠ 0)
    (hmode : s.portMode port ≠ 0) (hlink : s.flag (Fld.ETH_STATUS_link_up port) = false) (hopen : s.blkOpen 0 0x24 = true) :
    ∃ t, exec (.ethCableDiagnostic port cond distance) s = .next t ∧ t.fld (Fld.ETH_PAIR_cond port) = cond ∧
      t.flag (Fld.ETH_STATUS_pair_fault port) = true ∧ Counted s t Ev.ETH_PAIR_EVT_pair_fault ∧ t = { s with regs := t.regs } ∧
      RegsKept s t (Reg.ETH_PAIR port :: Reg.ETH_STATUS port :: Ev.ETH_PAIR_EVT_pair_fault.regs) := by
  obtain ⟨m, hm⟩ : ∃ m, m = ((s.setFld (Fld.ETH_PAIR_cond port) cond).setFld (Fld.ETH_PAIR_distance port) distance).setFld
    (Fld.ETH_STATUS_pair_fault port) 1 := ⟨_, rfl⟩
  have hexec : exec (.ethCableDiagnostic port cond distance) s = .next (m.event Ev.ETH_PAIR_EVT_pair_fault) := by
    change execEthCableDiagnostic port cond distance s = _
    rw [execEthCableDiagnostic, if_neg (by rw [hlink, hopen]; simp; omega), if_neg hfault, hm, bne_iff_ne.mpr hfault]
    rfl
  have hpair : Reg.ETH_PAIR port ≠ Reg.ETH_STATUS port := by simp only [Reg.ETH_PAIR, Reg.ETH_STATUS]; omega
  have hregs : ∀ a ∈ Ev.ETH_PAIR_EVT_pair_fault.regs, Reg.ETH_PAIR port ≠ a ∧ Reg.ETH_STATUS port ≠ a := by
    simp only [Evt.regs, Ev.ETH_PAIR_EVT_pair_fault, Reg.ETH_PAIR, Reg.ETH_STATUS, Reg.ETH_PAIR_EVT, List.mem_cons, List.not_mem_nil, or_false]
    omega
  have hset : RegsMoved s m [Reg.ETH_PAIR port, Reg.ETH_STATUS port] :=
    hm ▸ ((RegsMoved.setFld s _ (by simp) (by simp)).trans (.setFld _ _ (by simp) (by simp))).trans (.setFld _ _ (by simp) (by simp))
  have hevent := RegsMoved.event m Ev.ETH_PAIR_EVT_pair_fault
  refine ⟨_, hexec, ?_, ?_, ?_, ?_, ?_⟩
  · rw [hevent.fld (by simp) (fun h => (hregs _ h).1 rfl), hm, State.fld_setFld_ne _ _ (by simp) (by simp) (.inl hpair),
      State.fld_setFld_ne _ _ (by simp) (by simp) (by simp), State.fld_setFld_same _ _ (by simp)]
    exact Nat.mod_eq_of_lt (by simp; omega)
  · rw [State.flag, hevent.fld (by simp) (fun h => (hregs _ h).2 rfl), hm, State.fld_setFld_same _ _ (by simp)]
    rfl
  · refine (counted_event m (by decide) (by decide)).since (hset.reg fun h => ?_)
    obtain ⟨hp, hstat⟩ := hregs Ev.ETH_PAIR_EVT_pair_fault.counter (by simp [Evt.regs])
    rcases List.mem_pair.mp h with h | h
    · exact hp h.symm
    · exact hstat h.symm
  · exact (hset.append hevent).only
  · exact (hset.append hevent).kept

/-! ### The status page (R441) -/

theorem slice_getD_one (bs : Bytes) (c : Nat) : slice bs c 1 = [bs.getD c 0] := by
  rw [slice, List.getD_eq_getElem?_getD]
  by_cases hc : c < bs.length
  · rw [List.drop_eq_getElem_cons hc, List.take_succ_cons, List.getElem?_eq_getElem hc]
    rfl
  · rw [List.drop_of_length_le (by omega)]
    simp [hc]

theorem slice_getD_succ (bs : Bytes) (c n : Nat) : slice bs c (n + 1) = bs.getD c 0 :: slice bs (c + 1) n := by
  rw [slice, slice, List.getD_eq_getElem?_getD]
  by_cases hc : c < bs.length
  · rw [List.drop_eq_getElem_cons hc, List.take_succ_cons, List.getElem?_eq_getElem hc, List.length_cons, Nat.add_sub_add_right]
    rfl
  · rw [List.drop_of_length_le (by omega), List.drop_of_length_le (by omega)]
    simp [hc, List.replicate_succ]

/-- The status page begins with the vendor. -/
theorem State.statusPage_vendor (s : State) : s.statusPage.getD 0 0 = 0x1E ∧ s.statusPage.getD 1 0 = 0x5A := ⟨rfl, rfl⟩

theorem smbusReadByte_answers {c : Nat} {s : State} (hc : c < 256) (hheld : s.held.contains 0 = false) :
    ∃ t, exec (.smbusReadByte c) s = .next t ∧ t = { s with answer := [s.statusPage.getD c 0] } := by
  refine ⟨_, ?_, rfl⟩
  change execSmbusReadByte c s = _
  rw [execSmbusReadByte, hheld, if_neg nofun, Nat.mod_eq_of_lt hc, slice_getD_one]

theorem smbusReadWord_answers {c : Nat} {s : State} (hc : c < 256) (heven : c % 2 = 0) (hheld : s.held.contains 0 = false) :
    ∃ t, exec (.smbusReadWord c) s = .next t ∧
      t = { s with answer := [s.statusPage.getD c 0, s.statusPage.getD (c + 1) 0] } ∧ (c = 0 → t.answer = [0x1E, 0x5A]) := by
  refine ⟨_, ?_, rfl, ?_⟩
  · change execSmbusReadWord c s = _
    rw [execSmbusReadWord, hheld, if_neg nofun, if_pos heven, Nat.mod_eq_of_lt hc, slice_getD_succ, slice_getD_one]
  · rintro rfl
    obtain ⟨hlow, hhigh⟩ := s.statusPage_vendor
    dsimp only
    rw [hlow, hhigh]

/-- Settles O6: a supply is switched off by `State.spwrOff`, a wiring fault latched by `State.wireFault`, and each clear, diagnostic and read
of the status page looks at its own wire, port or byte. -/
theorem wiring : Obligations.Wiring := by
  unfold Obligations.Wiring
  refine ⟨fun _ _ _ _ => spwrOverload_trips, fun _ _ _ _ => spwrOpen_opens,
    fun _ _ s hk hmv => ⟨_, spwrBackfeed_switches_off hk hmv, s.spwrBackfed_effect hk (by decide) rfl⟩,
    fun _ _ s hk hmv => ⟨_, spwrReverse_switches_off hk hmv, s.spwrBackfed_effect hk (by decide) rfl⟩,
    fun _ _ _ _ => spwrEnableWrite_enables, fun _ _ _ _ => spwrEnableWrite_overridden,
    fun _ ma _ _ hx hon hma hns hfree => ⟨_, exec_stoShortGnd_of_short hx hon hma hns, wireFault_outputOff ma hfree (by decide) rfl⟩,
    fun x _ _ s hx hoff hmv hns hfree =>
      ⟨_, exec_stoExternalVoltage_of_high hx hoff hmv hns, s.wireFault_latches x _ hfree (by decide) rfl⟩,
    fun x ma _ s hx hon hma hns hfree => ⟨_, exec_stoOpenWire_of_open hx hon hma hns, s.wireFault_latches x ma hfree (by decide) rfl⟩,
    fun _ _ _ hx hmv hfree => ⟨_, exec_stoReverseSource_of_reversed hx hmv, wireFault_outputOff _ hfree (by decide) rfl⟩,
    fun _ _ _ _ => estopSourceShort_latches, fun _ _ _ _ => stoShortGnd_ends, fun _ _ _ => sioWireClear_clears,
    fun _ _ _ _ => ethCableDiagnostic_reports, fun _ _ => smbusReadByte_answers, fun _ _ => smbusReadWord_answers,
    fun _ _ s => ⟨s, rfl, rfl⟩⟩

end Sys2Proof.Machine
end

section
/-! Rails, droop and thermal limits (chapter 23). -/

namespace Sys2Proof.Machine

/-! ### What the cycles noted leave (R76) -/

/-- Values of a table renewed each by a function of its key and value: what a key reads as follows, where the unlisted value stays. -/
theorem Sparse.get_map {α β : Type} {d : Nat → α} {f : Nat × α → Nat × α} {π : α → β} (hkey : ∀ p, (f p).1 = p.1)
    (hval : ∀ p, π (f p).2 = π p.2) (m : Sparse α) (k : Nat) : π (Sparse.get d (m.map f) k) = π (Sparse.get d m k) := by
  induction m with
  | nil => rfl
  | cons p m ih =>
    obtain ⟨j, v⟩ := p
    rw [List.map_cons, ← Prod.mk.eta (p := f (j, v)), hkey]
    simp only [Sparse.get]
    split
    · exact hval (j, v)
    · exact ih

theorem any_map_congr {α : Type} {f : α → α} {P : α → Bool} (h : ∀ x, P (f x) = P x) (xs : List α) : (xs.map f).any P = xs.any P := by
  rw [List.any_map]
  exact congrArg xs.any (funext h)

section Noted
variable (s : State) (doms : Nat → Bool) (lost : Int)

/-- Each context of the state with cycles noted, in terms of the context before. -/
def State.notedCtx (p : Nat × Ctx) : Nat × Ctx :=
  if (s.layout.bind (fun l => l.schedRec p.1)).elim false (fun r => doms (fieldAt r 2 1)) then
    (p.1, { p.2 with acts := p.2.acts.map (fun a => { a with ran := s.cyclesRun p.1 a - lost, since := s.monoNs }) })
  else p

theorem State.noteCycles_ctxs : (s.noteCycles doms lost).ctxs = s.ctxs.map (s.notedCtx doms lost) := rfl

theorem State.notedCtx_key (p : Nat × Ctx) : (s.notedCtx doms lost p).1 = p.1 := by
  unfold State.notedCtx
  split <;> rfl

theorem State.notedCtx_phase (p : Nat × Ctx) : (s.notedCtx doms lost p).2.phase = p.2.phase := by
  unfold State.notedCtx
  split <;> rfl

theorem State.notedCtx_sched (p : Nat × Ctx) : (s.notedCtx doms lost p).2.sched = p.2.sched := by
  unfold State.notedCtx
  split <;> rfl

theorem State.notedCtx_idle (p : Nat × Ctx) : (s.notedCtx doms lost p).2.acts.isEmpty = p.2.acts.isEmpty := by
  unfold State.notedCtx
  split
  · exact List.isEmpty_map
  · rfl

theorem State.phase_noteCycles (k : Nat) : ((s.noteCycles doms lost).ctx k).phase = (s.ctx k).phase :=
  Sparse.get_map (π := Ctx.phase) (s.notedCtx_key doms lost) (s.notedCtx_phase doms lost) s.ctxs k

theorem State.quiesced_noteCycles (k : Nat) : (s.noteCycles doms lost).quiesced k = s.quiesced k := by
  have hsched : ((s.noteCycles doms lost).ctx k).sched = (s.ctx k).sched :=
    Sparse.get_map (π := Ctx.sched) (s.notedCtx_key doms lost) (s.notedCtx_sched doms lost) s.ctxs k
  have hidle : ((s.noteCycles doms lost).ctx k).acts.isEmpty = (s.ctx k).acts.isEmpty :=
    Sparse.get_map (π := fun c : Ctx => c.acts.isEmpty) (s.notedCtx_key doms lost) (s.notedCtx_idle doms lost) s.ctxs k
  rw [State.quiesced, State.quiesced, hsched, hidle]
  rfl

theorem State.railFloor_noteCycles (r : Nat) : (s.noteCycles doms lost).railFloor r = s.railFloor r := by
  have hschedule : (s.noteCycles doms lost).scheduleFloor r = s.scheduleFloor r := by
    simp only [State.scheduleFloor, s.quiesced_noteCycles, s.phase_noteCycles]
    rfl
  have hloops : (s.noteCycles doms lost).loopsActive = s.loopsActive := by
    simp only [State.loopsActive, s.phase_noteCycles]
    rfl
  have hreflex : (s.noteCycles doms lost).reflexFloor = s.reflexFloor := by
    rw [State.reflexFloor, State.reflexFloor, hloops]
    rfl
  rw [State.railFloor, State.railFloor, hschedule, hreflex]

theorem State.activePhases_noteCycles : (s.noteCycles doms lost).activePhases = s.activePhases := by
  have hloading : (s.noteCycles doms lost).ctxs.any (fun p => p.2.phase == .loading) = s.ctxs.any (fun p => p.2.phase == .loading) := by
    rw [s.noteCycles_ctxs]
    exact any_map_congr (fun p => by rw [s.notedCtx_phase]) _
  simp only [State.activePhases, hloading, s.phase_noteCycles]
  rfl

theorem State.preferred_noteCycles (r : Nat) : (s.noteCycles doms lost).preferred r = s.preferred r := by
  simp only [State.preferred, s.activePhases_noteCycles]
  rfl

end Noted

/-! ### Targets and steps (R421, R424) -/

theorem Rail.begin_target (x : Rail) (now : Nat) : (x.begin now).target = x.target := by
  unfold Rail.begin
  split <;> rfl

theorem Rail.begin_step (x : Rail) (now : Nat) : (x.begin now).step =
    if x.off || x.step.isSome || x.current == x.target then x.step else some (decide (x.current < x.target), now) := by
  unfold Rail.begin
  split <;> rfl

/-- A step that begins changes the rail's step alone. -/
theorem Rail.begin_only (x : Rail) (now : Nat) : x.begin now = { x with step := (x.begin now).step } := by
  unfold Rail.begin
  split <;> rfl

theorem State.dropPref_only (s : State) : s.dropPref = { s with power := { s.power with oldPref := s.dropPref.power.oldPref } } := by
  unfold State.dropPref
  split
  · rfl
  · split <;> rfl

/-- A rail's target, once the preferences held over have been dropped and the cycles noted. -/
def State.newTarget (s : State) (r : Nat) : Nat := (s.dropPref.noteCycles (fun _ => true) 0).railTarget r

theorem State.newTarget_eq (s : State) (r : Nat) : s.newTarget r = if fixedRail r then 15 else
    max (s.dropPref.railFloor r) (min (s.dropPref.preferred r) (min (s.rail r).capLimit (min (s.rail r).thermLimit
      (min (s.rail r).droopLimit (s.fld (Fld.PWR_RAIL_LIMIT_sw_max r)))))) := by
  obtain ⟨m, hm⟩ : ∃ m, m = s.dropPref := ⟨_, rfl⟩
  have honly : m = { s with power := m.power } := by
    rw [hm, s.dropPref_only]
  have hrail : (m.noteCycles (fun _ => true) 0).rail r = s.rail r := State.rail_congr (congrArg State.rails honly :) r
  have hfld : (m.noteCycles (fun _ => true) 0).fld (Fld.PWR_RAIL_LIMIT_sw_max r) = s.fld (Fld.PWR_RAIL_LIMIT_sw_max r) :=
    State.fld_congr (congrArg State.regs honly :) _
  rw [State.newTarget, ← hm, State.railTarget, State.railFloor_noteCycles, State.preferred_noteCycles, hrail, hfld]

/-- The rail that a target update leaves. -/
def State.retargeted (s : State) (r : Nat) (x : Rail) : Rail := { x with target := s.newTarget r }.begin s.monoNs

theorem railTargetUpdate_sets {s : State} (hlen : s.rails.length = 8) : ∃ t, exec .railTargetUpdate s = .next t ∧
    (∀ r, r < 8 →
      (t.rail r).target = (if fixedRail r then 15 else
        max (s.dropPref.railFloor r) (min (s.dropPref.preferred r) (min (s.rail r).capLimit (min (s.rail r).thermLimit
          (min (s.rail r).droopLimit (s.fld (Fld.PWR_RAIL_LIMIT_sw_max r))))))) ∧
      (t.rail r).step = (if (s.rail r).off || (s.rail r).step.isSome || (s.rail r).current == (t.rail r).target then (s.rail r).step
        else some (decide ((s.rail r).current < (t.rail r).target), s.monoNs)) ∧
      { t.rail r with target := (s.rail r).target, step := (s.rail r).step } = s.rail r) ∧
    t = { s.dropPref.noteCycles (fun _ => true) 0 with rails := t.rails } ∧ { t.power with oldPref := s.power.oldPref } = s.power := by
  obtain ⟨m, hm⟩ : ∃ m, m = s.dropPref.noteCycles (fun _ => true) 0 := ⟨_, rfl⟩
  obtain ⟨t, ht⟩ : ∃ t, t = (List.range 8).foldl (fun (a : State) r => a.setRail r (s.retargeted r (a.rail r))) m := ⟨_, rfl⟩
  have hpref := s.dropPref_only
  have hmono : s.dropPref.monoNs = s.monoNs := by
    rw [hpref]
    rfl
  have hexec : exec .railTargetUpdate s = .next t := by
    rw [ht, hm]
    change Host.Outcome.next ((List.range 8).foldl _ _) = _
    unfold State.retargeted
    rw [← hmono]
    rfl
  have hrails : m.rails = s.rails := hm ▸ (congrArg State.rails hpref :)
  have hpower : m.power = s.dropPref.power := hm ▸ rfl
  obtain ⟨hread, -, honly⟩ := State.fold_setRail s.retargeted (List.range 8) List.nodup_range m
    (fun r hr => by rw [hrails, hlen]; exact List.mem_range.mp hr)
  rw [← ht] at hread honly
  refine ⟨t, hexec, fun r hr => ?_, hm ▸ honly, ?_⟩
  · have hrail : t.rail r = s.retargeted r (s.rail r) := by
      rw [hread, if_pos (List.mem_range.mpr hr), State.rail_congr hrails]
    have htarget : (t.rail r).target = s.newTarget r := by
      rw [hrail]
      exact Rail.begin_target _ _
    refine ⟨htarget.trans (s.newTarget_eq r), ?_, ?_⟩
    · rw [htarget, hrail]
      exact Rail.begin_step _ _
    · rw [hrail, State.retargeted, Rail.begin_only]
  · rw [show t.power = s.dropPref.power from (congrArg State.power honly :).trans hpower, hpref]

theorem railStepComplete_moves {r : Nat} {s : State} {up : Bool} {start : Nat} (hr : r < 8) (hlen : s.rails.length = 8)
    (hok : railOk r (s.rail r) = true) (hfixed : fixedRail r = false) (hstep : (s.rail r).step = some (up, start))
    (hdue : start + 25000 ≤ s.monoNs) (hroom : if up then (s.rail r).current < 15 else lowestPoint r < (s.rail r).current) :
    ∃ t, exec (.railStepComplete r) s = .next t ∧
      (t.rail r).current = (if up then (s.rail r).current + 1 else (s.rail r).current - 1) ∧
      (t.rail r).step = (if (s.rail r).off || (t.rail r).current == (s.rail r).target then none
        else some (decide ((t.rail r).current < (s.rail r).target), s.monoNs)) ∧
      { t.rail r with current := (s.rail r).current, step := (s.rail r).step } = s.rail r ∧
      (∀ q, q ≠ r → t.rail q = s.rail q) ∧ t = { s.noteCycles (fun d => domainRail d == r) 0 with rails := t.rails } := by
  have hlow : lowestPoint r ≤ (s.rail r).current := by
    simp only [railOk, Bool.and_eq_true, decide_eq_true_eq] at hok
    tauto
  obtain ⟨c, hc⟩ : ∃ c, c = if up then (s.rail r).current + 1 else (s.rail r).current - 1 := ⟨_, rfl⟩
  have hpoint : max (lowestPoint r) (if up then min 15 ((s.rail r).current + 1) else (s.rail r).current - 1) = c := by
    cases up
    · simp only [Bool.false_eq_true, if_false] at hroom hc ⊢
      omega
    · simp only [if_true] at hroom hc ⊢
      omega
  obtain ⟨x, hx⟩ : ∃ x : Rail, x = { s.rail r with current := c, step := none } := ⟨_, rfl⟩
  obtain ⟨m, hm⟩ : ∃ m, m = s.noteCycles (fun d => domainRail d == r) 0 := ⟨_, rfl⟩
  have hrails : m.rails = s.rails := hm ▸ rfl
  have hexec : exec (.railStepComplete r) s = .next (m.setRail r (x.begin s.monoNs)) := by
    change execRailStepComplete r s = _
    rw [execRailStepComplete]
    dsimp only
    rw [hstep]
    dsimp only
    rw [if_neg (by rw [hfixed]; simp; omega), hpoint, hm, hx]
  have hread : (m.setRail r (x.begin s.monoNs)).rail r = x.begin s.monoNs := by
    rw [State.rail_setRail, if_pos ⟨rfl, by rw [hrails, hlen]; exact hr⟩]
  have hbegun := x.begin_only s.monoNs
  have hcurrent : (x.begin s.monoNs).current = c := by rw [hbegun, hx]
  refine ⟨_, hexec, ?_, ?_, ?_, fun q hq => ?_, hm ▸ rfl⟩
  · rw [hread, hcurrent, hc]
  · rw [hread, hcurrent, Rail.begin_step, hx]
    simp
  · rw [hread, hbegun, hx]
  · rw [State.rail_setRail, if_neg (fun h => hq h.1), State.rail_congr hrails]

/-! ### Droop (R422, R423) -/

section Droop
variable (s : State) (d : Nat)

theorem clkDom_not_event (n k : Nat) : Reg.CLK_DOM n k ≠ Reg.CLK_EVT_STATUS n ∧ Reg.CLK_DOM n k ≠ n * 0x1000000 + 0x10004 := by
  simp only [Reg.CLK_DOM, Reg.CLK_EVT_STATUS]
  omega

theorem State.stretchFrom_setStretch (x : Option Nat) : (s.setStretch d x).stretchFrom d = x := by
  rw [State.stretchFrom, State.setStretch, State.setFld_power]
  exact Sparse.get_put_same

theorem State.regsKept_setStretch (x : Option Nat) : RegsKept s (s.setStretch d x) [Reg.CLK_DOM (domainDie d) d] := by
  unfold State.setStretch
  generalize hm : ({ s with power := { s.power with stretch := Sparse.put (fun _ => none) s.power.stretch d x } } : State) = m
  exact (RegsKept.of_regs (hm ▸ rfl) _).trans (regsKept_setFld m _ (by simp) (by simp))

theorem State.stretching_setStretch (x : Option Nat) :
    (s.setStretch d x).fld (Fld.CLK_DOM_stretching (domainDie d) d) = b2n x.isSome := by
  rw [State.setStretch, State.fld_setFld_same _ _ (by simp)]
  exact Nat.mod_eq_of_lt (by cases x <;> simp [b2n])

theorem State.stretched_setStretch (x : Option Nat) :
    (s.setStretch d x).fld (Fld.CLK_DOM_stretched (domainDie d) d) = s.fld (Fld.CLK_DOM_stretched (domainDie d) d) := by
  rw [State.setStretch, State.fld_setFld_ne _ _ (by simp) (by simp) (by simp)]
  exact State.fld_congr rfl _

end Droop

theorem droopDetect_stretches {d depth : Nat} {s : State} (hd : d < 40) (hdepth : 50 ≤ depth) (hrest : s.stretchFrom d = none)
    (hheld : s.held.contains d = false) :
    ∃ t, exec (.droopDetect d depth) s = .next t ∧ t.stretchFrom d = some s.monoNs ∧
      t.fld (Fld.CLK_DOM_stretching (domainDie d) d) = 1 ∧ Counted s t (Ev.CLK_EVT_STATUS_droop (domainDie d)) ∧
      RegsKept s t ((Fld.CLK_DOM_stretching (domainDie d) d).addr :: (Ev.CLK_EVT_STATUS_droop (domainDie d)).regs) ∧
      t = { s with regs := t.regs, power := t.power } := by
  obtain ⟨e, he⟩ : ∃ e, e = Ev.CLK_EVT_STATUS_droop (domainDie d) := ⟨_, rfl⟩
  obtain ⟨m, hm⟩ : ∃ m, m = s.setStretch d (some s.monoNs) := ⟨_, rfl⟩
  have hexec : exec (.droopDetect d depth) s = .next (m.event e) := by
    change execDroopDetect d depth s = _
    rw [execDroopDetect, if_neg (by rw [hrest, hheld]; simp; omega), hm, he]
  have hevent := RegsMoved.event m e
  have hset : RegsKept s m [Reg.CLK_DOM (domainDie d) d] := hm ▸ s.regsKept_setStretch d _
  have hout : Reg.CLK_DOM (domainDie d) d ∉ e.regs := by
    rw [he, Evt.regs, List.mem_pair, not_or]
    exact clkDom_not_event (domainDie d) d
  rw [← he]
  refine ⟨_, hexec, ?_, ?_, ?_, ?_, ?_⟩
  · rw [State.stretchFrom, State.event_power, hm]
    exact s.stretchFrom_setStretch d _
  · rw [hevent.fld (by simp) hout, hm, State.stretching_setStretch]
    rfl
  · refine (counted_event m ?_ ?_).since (hset.reg ?_)
    · rw [he]
      simp [Ev.CLK_EVT_STATUS_droop, Reg.CLK_EVT_STATUS]
    · rw [he]
      exact (by decide : 0 < 32)
    · rw [he, List.mem_singleton]
      exact (clkDom_not_event (domainDie d) d).2.symm
  · exact (hset.mono (by simp)).trans (hevent.kept.mono (List.subset_cons_self _ _))
  · refine hevent.only.trans ?_
    rw [State.event_power, hm]
    exact congrArg (fun a : State => { a with regs := ((s.setStretch d (some s.monoNs)).event e).regs }) (s.setStretch_only d _)

theorem stretchEnd_ends {d cycles start : Nat} {s : State} (hfrom : s.stretchFrom d = some start) :
    ∃ t, exec (.stretchEnd d cycles) s = .next t ∧ t.stretchFrom d = none ∧
      t.fld (Fld.CLK_DOM_stretching (domainDie d) d) = 0 ∧
      t.fld (Fld.CLK_DOM_stretched (domainDie d) d) = (s.fld (Fld.CLK_DOM_stretched (domainDie d) d) + cycles) % 65536 ∧
      RegsKept s t [(Fld.CLK_DOM_stretching (domainDie d) d).addr] ∧
      t = { s.noteCycles (fun x => x == d) (8000000 * cycles) with regs := t.regs, power := t.power } := by
  obtain ⟨n, hn⟩ : ∃ n, n = s.noteCycles (fun x => x == d) (8000000 * cycles) := ⟨_, rfl⟩
  obtain ⟨m, hm⟩ : ∃ m, m = n.setStretch d none := ⟨_, rfl⟩
  obtain ⟨v, hv⟩ : ∃ v, v = (s.fld (Fld.CLK_DOM_stretched (domainDie d) d) + cycles) % 65536 := ⟨_, rfl⟩
  have hexec : exec (.stretchEnd d cycles) s = .next (m.setFld (Fld.CLK_DOM_stretched (domainDie d) d) v) := by
    change execStretchEnd d cycles s = _
    rw [execStretchEnd, hfrom, hm, hn, hv]
  have hregs : n.regs = s.regs := hn ▸ rfl
  have hset : RegsKept n m [Reg.CLK_DOM (domainDie d) d] := hm ▸ n.regsKept_setStretch d none
  rw [← hn, ← hv]
  refine ⟨_, hexec, ?_, ?_, ?_, ?_, ?_⟩
  · rw [State.stretchFrom, State.setFld_power, hm]
    exact n.stretchFrom_setStretch d none
  · rw [State.fld_setFld_ne _ _ (by simp) (by simp) (by simp), hm, State.stretching_setStretch]
    rfl
  · rw [State.fld_setFld_same _ _ (by simp)]
    exact Nat.mod_eq_of_lt (by simp; omega)
  · exact ((RegsKept.of_regs hregs _).trans hset).trans (regsKept_setFld _ _ (by simp) (by simp))
  · rw [State.setFld_power]
    refine (State.setFld_regs_only _ _ _).trans ?_
    rw [hm]
    exact congrArg (fun a : State => { a with regs := ((n.setStretch d none).setFld (Fld.CLK_DOM_stretched (domainDie d) d) v).regs })
      (n.setStretch_only d none)

theorem droopPersist_lowers {d start : Nat} {s : State} (hd : d < 40) (hfrom : s.stretchFrom d = some start) (hdue : start + 10000 ≤ s.monoNs) :
    ∃ t, exec (.droopPersist d) s = .next t ∧
      t.rails = s.rails.set (domainRail d)
        { s.rail (domainRail d) with droopLimit := (s.rail (domainRail d)).droopLimit - 1, droopAt := s.monoNs } ∧
      Counted s t (Ev.CLK_EVT_STATUS_droop_persist (domainDie d)) ∧
      t = { s with regs := t.regs, power := t.power, rails := t.rails } ∧
     BlocksKept s t [domainDie d * 256 + 1] := by
  obtain ⟨e, he⟩ : ∃ e, e = Ev.CLK_EVT_STATUS_droop_persist (domainDie d) := ⟨_, rfl⟩
  obtain ⟨x, hx⟩ : ∃ x : Rail, x =
    { s.rail (domainRail d) with droopLimit := (s.rail (domainRail d)).droopLimit - 1, droopAt := s.monoNs } := ⟨_, rfl⟩
  obtain ⟨n, hn⟩ : ∃ n, n = s.setRail (domainRail d) x := ⟨_, rfl⟩
  obtain ⟨m, hm⟩ : ∃ m, m = n.setStretch d (some s.monoNs) := ⟨_, rfl⟩
  have hexec : exec (.droopPersist d) s = .next (m.event e) := by
    change execDroopPersist d s = _
    rw [execDroopPersist, hfrom]
    dsimp only
    rw [if_neg (by omega), hm, hn, hx, he]
  have hregs : n.regs = s.regs := hn ▸ rfl
  have hset : RegsKept s m [Reg.CLK_DOM (domainDie d) d] :=
    (RegsKept.of_regs hregs _).trans (hm ▸ n.regsKept_setStretch d (some s.monoNs))
  have honly : m = { n with regs := m.regs, power := m.power } := hm ▸ n.setStretch_only d _
  have hevent := RegsMoved.event m e
  have hbase : e.status = Reg.CLK_EVT_STATUS (domainDie d) ∧ e.counter = domainDie d * 0x1000000 + 0x10008 ∧ e.bit = 1 := he ▸ ⟨rfl, rfl, rfl⟩
  obtain ⟨hstatus, hcounter, hbit⟩ := hbase
  rw [← hx, ← he]
  refine ⟨_, hexec, ?_, ?_, ?_, ?_⟩
  · rw [State.event_rails, honly, hn]
    rfl
  · refine (counted_event m ?_ (by omega)).since (hset.reg ?_)
    · rw [hstatus, hcounter, Reg.CLK_EVT_STATUS]
      omega
    · rw [hcounter, List.mem_singleton, Reg.CLK_DOM]
      omega
  · refine hevent.only.trans ?_
    rw [State.event_power, State.event_rails, honly, hn]
    rfl
  · refine RegsKept.blocksKept ((hset.mono (List.subset_append_left _ e.regs)).trans (hevent.kept.mono (List.subset_append_right _ _))) ?_
    have hdie : d / 16384 = 0 := by omega
    simp only [Evt.regs, hstatus, hcounter, Reg.CLK_DOM, Reg.CLK_EVT_STATUS, List.mem_append, List.mem_cons, List.not_mem_nil, or_false]
    omega

theorem droopLimitRaise_raises {r : Nat} {s : State} (hlimit : (s.rail r).droopLimit < 15) (hdue : (s.rail r).droopAt + 10000000 ≤ s.monoNs) :
    ∃ t, exec (.droopLimitRaise r) s = .next t ∧
      t = { s with rails := s.rails.set r { s.rail r with droopLimit := (s.rail r).droopLimit + 1, droopAt := s.monoNs } } := by
  refine ⟨_, ?_, rfl⟩
  change execDroopLimitRaise r s = _
  rw [execDroopLimitRaise]
  dsimp only
  rw [if_pos ⟨hlimit, hdue⟩]
  rfl

/-- Settles O3: a target update rewrites each rail once (`State.fold_setRail`), the cycles noted leave what targets read
(`State.newTarget_eq`), and stretching moves its domain's register alone. -/
theorem railControl : Obligations.RailControl := by
  unfold Obligations.RailControl
  exact ⟨fun _ => railTargetUpdate_sets, fun _ _ _ _ => railStepComplete_moves, fun _ _ _ hd => droopDetect_stretches hd,
    fun _ _ _ _ _ => stretchEnd_ends, fun _ _ _ hd _ => droopPersist_lowers hd, fun _ _ _ _ => droopLimitRaise_raises⟩


/-! ### Temperature samples (R432, R433) -/

/-- What each of several updates says of its own subject holds after all of them, where none undoes what another's says. -/
theorem foldl_establishes {α : Type} {f : State → α → State} {P : α → State → Prop} {R : α → α → Prop} {xs : List α} (hR : xs.Pairwise R)
    (hset : ∀ a, ∀ x ∈ xs, P x (f a x)) (hkeep : ∀ a, ∀ x ∈ xs, ∀ y ∈ xs, R x y → P x a → P x (f a y)) (s : State) :
    ∀ x ∈ xs, P x (xs.foldl f s) := by
  induction xs generalizing s with
  | nil => exact fun x hx => absurd hx List.not_mem_nil
  | cons y ys ih =>
    obtain ⟨hy, hys⟩ := List.pairwise_cons.mp hR
    intro x hx
    rcases List.mem_cons.mp hx with rfl | hx
    · have hrest : ∀ (zs : List α) (a : State), zs ⊆ ys → P x a → P x (zs.foldl f a) := by
        intro zs
        induction zs with
        | nil => exact fun _ _ h => h
        | cons z zs ihz =>
          intro a hsub h
          obtain ⟨hz, hzs⟩ := List.cons_subset.mp hsub
          exact ihz _ hzs (hkeep a x List.mem_cons_self z (List.mem_cons_of_mem _ hz) (hy z hz) h)
      exact hrest ys _ (List.Subset.refl ys) (hset s x List.mem_cons_self)
    · exact ih hys (fun a z hz => hset a z (List.mem_cons_of_mem _ hz))
        (fun a z hz w hw => hkeep a z (List.mem_cons_of_mem _ hz) w (List.mem_cons_of_mem _ hw)) (f s y) x hx

theorem allSensors_bounds : ∀ p ∈ allSensors, p.1 < 7 ∧ p.2 < 8 := by decide

theorem allSensors_nodup : allSensors.Nodup := by decide

/-- The registers that a round of samples may write. -/
def sampleRegs : List Nat :=
  Reg.PWR_STATUS :: (Ev.THRM_EVT_STATUS_sensor_fault.regs ++ Ev.THRM_EVT_STATUS_warn.regs) ++ allSensors.map (fun p => Reg.THRM_TEMP p.1 p.2)

theorem sampleRegs_blocks : ∀ a ∈ sampleRegs, a / 65536 ∈ [0x21, 0x31] := by decide

theorem thrmTemp_mem {u i : Nat} (h : (u, i) ∈ allSensors) : Reg.THRM_TEMP u i ∈ sampleRegs :=
  List.mem_append_right _ (List.mem_map.mpr ⟨(u, i), h, rfl⟩)

section Samples
variable (s : State) (u i : Nat) (reading : Int)

/-- Whether a sample shows its sensor faulty (R432). -/
def State.sampleFaulty : Bool :=
  decide (reading < -320) || decide (1200 < reading) ||
    decide ((if s.power.sensors.any (fun p => p.1 == 8 * u + i) && (s.sensor u i).reading == reading then (s.sensor u i).since
      else s.monoNs) + 1000000 ≤ s.monoNs)

/-- What a sample leaves of its sensor. -/
def State.sampled : Sensor :=
  ⟨reading, if s.power.sensors.any (fun p => p.1 == 8 * u + i) && (s.sensor u i).reading == reading then (s.sensor u i).since else s.monoNs,
    if !s.sampleFaulty u i reading && decide (8 * (tripC u : Int) ≤ reading) then min ((s.sensor u i).trips + 1) 3 else 0⟩

/-- The state with a sensor's sample held. -/
def State.heldSample : State :=
  { s with power := { s.power with sensors := Sparse.put (fun _ => {}) s.power.sensors (8 * u + i) (s.sampled u i reading) } }

/-- A sample shown in its register. -/
def State.shownSample : State :=
  ((s.heldSample u i reading).setFld (Fld.THRM_TEMP_temp u i) (ofSigned 16 reading)).setFld (Fld.THRM_TEMP_fault u i)
    (b2n (s.sampleFaulty u i reading))

theorem State.sampleSensor_eq : s.sampleSensor u i reading = if s.sampleFaulty u i reading then
    ((s.shownSample u i reading).setFld Fld.PWR_STATUS_code 0x0D45).event Ev.THRM_EVT_STATUS_sensor_fault
    else s.shownSample u i reading := rfl

theorem State.power_sampleSensor : (s.sampleSensor u i reading).power = (s.heldSample u i reading).power := by
  have hshown : (s.shownSample u i reading).power = (s.heldSample u i reading).power := by
    rw [State.shownSample, State.setFld_power, State.setFld_power]
  rw [s.sampleSensor_eq]
  split
  · rw [State.event_power, State.setFld_power, hshown]
  · exact hshown

theorem State.sensor_sampleSensor (v j : Nat) :
    (s.sampleSensor u i reading).sensor v j = if 8 * v + j = 8 * u + i then s.sampled u i reading else s.sensor v j := by
  rw [State.sensor, s.power_sampleSensor]
  exact Sparse.get_put

theorem State.shownSample_moved (h : (u, i) ∈ allSensors) :
    RegsMoved (s.heldSample u i reading) (s.sampleSensor u i reading) sampleRegs := by
  have hshown : RegsMoved (s.heldSample u i reading) (s.shownSample u i reading) sampleRegs :=
    (RegsMoved.setFld _ _ (by simp) (thrmTemp_mem h)).trans (.setFld _ _ (by simp) (thrmTemp_mem h))
  rw [s.sampleSensor_eq]
  split
  · exact (hshown.trans (.setFld _ _ (by decide) (by decide))).trans ((RegsMoved.event _ _).mono (by decide))
  · exact hshown

/-- The samples move registers and the sensors' samples. -/
theorem State.sampleSensor_only : s.sampleSensor u i reading =
    { s with regs := (s.sampleSensor u i reading).regs, power := (s.sampleSensor u i reading).power } := by
  rw [s.power_sampleSensor, s.sampleSensor_eq]
  split
  · exact (RegsMoved.event _ Ev.THRM_EVT_STATUS_sensor_fault).only.trans (by
      rw [State.shownSample, State.setFld_regs_only, State.setFld_regs_only (State.setFld _ _ _), State.setFld_regs_only]
      rfl)
  · rw [State.shownSample, State.setFld_regs_only, State.setFld_regs_only (s.heldSample u i reading)]
    rfl

theorem State.regsKept_sampleSensor (h : (u, i) ∈ allSensors) : RegsKept s (s.sampleSensor u i reading) sampleRegs :=
  (RegsKept.of_regs rfl _).trans (s.shownSample_moved u i reading h).kept

theorem thrmTemp_ne_event {u i : Nat} : Reg.THRM_TEMP u i ∉ Ev.THRM_EVT_STATUS_sensor_fault.regs ∧ Reg.THRM_TEMP u i ≠ Reg.PWR_STATUS ∧
    Reg.THRM_TEMP u i ∉ Ev.THRM_EVT_STATUS_warn.regs := by
  simp only [Evt.regs, Ev.THRM_EVT_STATUS_sensor_fault, Ev.THRM_EVT_STATUS_warn, Reg.THRM_TEMP, Reg.THRM_EVT_STATUS, Reg.PWR_STATUS,
    List.mem_cons, List.not_mem_nil, or_false]
  omega

/-- The registers of sensors after a sample: each but the sampled one's as before the showing of a fault. -/
theorem State.temp_sampleSensor {v j : Nat} : (s.sampleSensor u i reading).fld (Fld.THRM_TEMP_temp v j) =
    (s.shownSample u i reading).fld (Fld.THRM_TEMP_temp v j) := by
  obtain ⟨hevent, hstatus, -⟩ := @thrmTemp_ne_event v j
  rw [s.sampleSensor_eq]
  split
  · rw [(RegsMoved.event _ _).fld (by simp) hevent, State.fld_setFld_ne _ _ (by decide) (by simp) (.inl hstatus)]
  · rfl

theorem State.temp_sampleSensor_same : (s.sampleSensor u i reading).fld (Fld.THRM_TEMP_temp u i) = ofSigned 16 reading := by
  rw [s.temp_sampleSensor, State.shownSample, State.fld_setFld_ne _ _ (by simp) (by simp) (by simp), State.fld_setFld_same _ _ (by simp)]
  have hpos : (0 : Int) < 2 ^ 16 := by decide
  exact Nat.mod_eq_of_lt (by have := Int.emod_lt_of_pos reading hpos; simp only [ofSigned]; omega)

theorem State.temp_sampleSensor_ne {v j : Nat} (h : Reg.THRM_TEMP u i ≠ Reg.THRM_TEMP v j) :
    (s.sampleSensor u i reading).fld (Fld.THRM_TEMP_temp v j) = s.fld (Fld.THRM_TEMP_temp v j) := by
  rw [s.temp_sampleSensor, State.shownSample, State.fld_setFld_ne _ _ (by simp) (by simp) (.inl h.symm),
    State.fld_setFld_ne _ _ (by simp) (by simp) (.inl h.symm)]
  exact State.fld_congr rfl _

end Samples

/-- A sensor's reading below the trip, held and shown. -/
def SampleShown (p : (Nat × Nat) × Int) (a : State) : Prop :=
  (a.sensor p.1.1 p.1.2).reading = p.2 ∧ (a.sensor p.1.1 p.1.2).trips = 0 ∧ a.fld (Fld.THRM_TEMP_temp p.1.1 p.1.2) = ofSigned 16 p.2

theorem State.sampleSensor_shows (a : State) {p : (Nat × Nat) × Int} (hcool : p.2 < 8 * (tripC p.1.1 : Int)) :
    SampleShown p (a.sampleSensor p.1.1 p.1.2 p.2) := by
  have hsensor := a.sensor_sampleSensor p.1.1 p.1.2 p.2 p.1.1 p.1.2
  rw [if_pos rfl] at hsensor
  refine ⟨by rw [hsensor]; rfl, ?_, a.temp_sampleSensor_same _ _ _⟩
  rw [hsensor, State.sampled]
  exact if_neg (by rw [decide_eq_false (by omega), Bool.and_false]; exact Bool.false_ne_true)

theorem SampleShown.sampleSensor {a : State} {p q : (Nat × Nat) × Int} (hp : p.1 ∈ allSensors) (hq : q.1 ∈ allSensors) (hne : p.1 ≠ q.1)
    (h : SampleShown p a) : SampleShown p (a.sampleSensor q.1.1 q.1.2 q.2) := by
  obtain ⟨hpu, hpi⟩ := allSensors_bounds _ hp
  obtain ⟨hqu, hqi⟩ := allSensors_bounds _ hq
  have hother : ¬(p.1.1 = q.1.1 ∧ p.1.2 = q.1.2) := fun h => hne (Prod.ext h.1 h.2)
  have hsensor := a.sensor_sampleSensor q.1.1 q.1.2 q.2 p.1.1 p.1.2
  rw [if_neg (by omega)] at hsensor
  obtain ⟨hreading, htrips, htemp⟩ := h
  refine ⟨by rw [hsensor]; exact hreading, by rw [hsensor]; exact htrips, (a.temp_sampleSensor_ne _ _ _ ?_).trans htemp⟩
  simp only [Reg.THRM_TEMP]
  omega

/-- Whether every sensor of a rail's units reads 5 °C below its throttle threshold. -/
def State.railCool (s : State) (r : Nat) : Bool :=
  (railSensors r).all (fun p => decide (s.temp p.1 p.2 < 8 * (s.throttleC p.1 : Int) - 40))

/-- A rail with its cooling time noted. -/
def State.cooled (s : State) (r : Nat) (x : Rail) : Rail :=
  { x with coolSince := if s.railCool r then some (x.coolSince.getD s.monoNs) else none }

theorem State.noteCool_eq (s : State) : s.noteCool = (List.range 8).foldl (fun (a : State) r => a.setRail r (s.cooled r (a.rail r))) s := rfl

theorem State.sampleSensors_only (ps : List ((Nat × Nat) × Int)) (s : State) :
    ps.foldl (fun (a : State) p => a.sampleSensor p.1.1 p.1.2 p.2) s =
      { s with regs := (ps.foldl (fun (a : State) p => a.sampleSensor p.1.1 p.1.2 p.2) s).regs
               power := (ps.foldl (fun (a : State) p => a.sampleSensor p.1.1 p.1.2 p.2) s).power } := by
  induction ps generalizing s with
  | nil => rfl
  | cons p ps ih =>
    rw [List.foldl_cons]
    refine (ih _).trans ?_
    generalize ps.foldl _ _ = t
    exact congrArg (fun a : State => { a with regs := t.regs, power := t.power }) (s.sampleSensor_only _ _ _)

/-- Each sensor's reading is held and shown once every sensor has been sampled. -/
theorem State.sampleSensors_show {ps : List ((Nat × Nat) × Int)} (hfst : ps.map Prod.fst = allSensors)
    (hcool : ∀ p ∈ ps, p.2 < 8 * (tripC p.1.1 : Int)) (s : State) :
    ∀ p ∈ ps, SampleShown p (ps.foldl (fun (a : State) p => a.sampleSensor p.1.1 p.1.2 p.2) s) := by
  have hmem : ∀ p ∈ ps, p.1 ∈ allSensors := fun p hp => hfst ▸ List.mem_map_of_mem hp
  have hkeys : (ps.map Prod.fst).Pairwise (fun x y => x ≠ y) := by
    rw [hfst]
    exact allSensors_nodup
  refine foldl_establishes (P := SampleShown) (R := fun p q => p.1 ≠ q.1) (List.pairwise_map.mp hkeys) ?_ ?_ s
  · exact fun a p hp => a.sampleSensor_shows (hcool p hp)
  · exact fun a p hp q hq hne h => h.sampleSensor (hmem p hp) (hmem q hq) hne

/-- Readings that lie below the trips: each held and shown, and nothing trips. -/
theorem thermalSample_shows {readings : List Int} {s : State} (hopen : s.blkOpen 0 0x31 = true) (hn : readings.length = 26)
    (hlen : s.rails.length = 8) (hcool : ∀ p, p ∈ allSensors.zip readings → p.2 < 8 * (tripC p.1.1 : Int)) :
    ∃ t, exec (.thermalSample readings) s = .next t ∧
      (∀ p, p ∈ allSensors.zip readings → (t.sensor p.1.1 p.1.2).reading = p.2 ∧
        t.fld (Fld.THRM_TEMP_temp p.1.1 p.1.2) = ofSigned 16 p.2) ∧
      t = { s with regs := t.regs, power := t.power, rails := t.rails } ∧
      (∀ r, r < 8 → { t.rail r with coolSince := (s.rail r).coolSince } = s.rail r) ∧
   BlocksKept s t [0x21, 0x31] := by
  obtain ⟨ps, hps⟩ : ∃ ps, ps = allSensors.zip readings := ⟨_, rfl⟩
  have hfst : ps.map Prod.fst = allSensors := by
    rw [hps, List.map_fst_zip]
    rw [hn]
    decide
  have hmem : ∀ p ∈ ps, p.1 ∈ allSensors := fun p hp => hfst ▸ List.mem_map_of_mem hp
  obtain ⟨m, hm⟩ : ∃ m, m = ps.foldl (fun (a : State) p => a.sampleSensor p.1.1 p.1.2 p.2) s := ⟨_, rfl⟩
  obtain ⟨c, hc⟩ : ∃ c, c = m.noteCool := ⟨_, rfl⟩
  obtain ⟨warm, hwarm⟩ : ∃ warm, warm = allSensors.any (fun p => decide (8 * (m.warnC p.1 : Int) ≤ m.temp p.1 p.2)) := ⟨_, rfl⟩
  have hshown : ∀ p ∈ ps, SampleShown p m := by
    rw [hm]
    rw [← hps] at hcool
    exact State.sampleSensors_show hfst hcool s
  have honly : m = { s with regs := m.regs, power := m.power } := hm ▸ State.sampleSensors_only ps s
  have hkept : RegsKept s m sampleRegs := by
    rw [hm]
    exact .foldl (fun a p hp => a.regsKept_sampleSensor _ _ _ (hmem p hp)) s
  have hrails : m.rails = s.rails := (congrArg State.rails honly :)
  obtain ⟨hread, -, hcooled⟩ := State.fold_setRail m.cooled (List.range 8) List.nodup_range m
    (fun r hr => by rw [hrails, hlen]; exact List.mem_range.mp hr)
  rw [← m.noteCool_eq, ← hc] at hread hcooled
  have hpower : c.power = m.power := (congrArg State.power hcooled :)
  have hevent := RegsMoved.eventIf c warm Ev.THRM_EVT_STATUS_warn
  obtain ⟨t, ht⟩ : ∃ t, t = c.eventIf warm Ev.THRM_EVT_STATUS_warn := ⟨_, rfl⟩
  rw [← ht] at hevent
  have hsensor : ∀ u i, t.sensor u i = m.sensor u i := fun u i => by
    rw [State.sensor, State.sensor, show t.power = c.power from (congrArg State.power hevent.only :), hpower]
  have hnone : allSensors.filter (fun p => decide ((t.sensor p.1 p.2).trips = 3)) = [] := by
    rw [List.filter_eq_nil_iff]
    intro p hp
    obtain ⟨q, hq, rfl⟩ := List.mem_map.mp (hfst ▸ hp : p ∈ ps.map Prod.fst)
    rw [hsensor, (hshown q hq).2.1]
    decide
  have hexec : exec (.thermalSample readings) s = .next t := by
    change execThermalSample readings s = _
    rw [execThermalSample, hopen, hn, if_neg (by decide)]
    dsimp only
    rw [← hps, ← hm, ← hwarm, ← hc, ← ht, hnone, List.foldl_nil]
  have htrails : t.rails = c.rails := (congrArg State.rails hevent.only :)
  rw [← hps]
  refine ⟨t, hexec, fun p hp => ?_, ?_, fun r hr => ?_, ?_⟩
  · obtain ⟨hreading, -, htemp⟩ := hshown p hp
    rw [hsensor, hevent.fld (by simp) thrmTemp_ne_event.2.2, State.fld_congr (congrArg State.regs hcooled :)]
    exact ⟨hreading, htemp⟩
  · refine hevent.only.trans ?_
    rw [show t.power = m.power from (congrArg State.power hevent.only :).trans hpower, htrails]
    exact (congrArg (fun a : State => { a with regs := t.regs }) hcooled).trans
      (congrArg (fun a : State => { a with regs := t.regs, rails := c.rails }) honly)
  · rw [State.rail_congr htrails, hread, if_pos (List.mem_range.mpr hr), State.rail_congr hrails]
    rfl
  · refine RegsKept.blocksKept ?_ sampleRegs_blocks
    exact (hkept.trans (.of_regs (congrArg State.regs hcooled :) _)).trans (hevent.kept.mono (by decide))

theorem thermThrottleStep_lowers {r : Nat} {s : State}
    (hhot : (railSensors r).any (fun p => decide (8 * (s.throttleC p.1 : Int) ≤ s.temp p.1 p.2)) = true)
    (hdue : (s.rail r).thermAt + 1000000 ≤ s.monoNs) :
    ∃ t, exec (.thermThrottleStep r) s = .next t ∧
      t.rails = s.rails.set r { s.rail r with thermLimit := (s.rail r).thermLimit - 1, thermAt := s.monoNs } ∧
      Counted s t Ev.THRM_EVT_STATUS_throttle ∧ RegsKept s t Ev.THRM_EVT_STATUS_throttle.regs ∧
      t = { s with regs := t.regs, rails := t.rails } := by
  obtain ⟨m, hm⟩ : ∃ m, m = s.setRail r { s.rail r with thermLimit := (s.rail r).thermLimit - 1, thermAt := s.monoNs } := ⟨_, rfl⟩
  have hexec : exec (.thermThrottleStep r) s = .next (m.event Ev.THRM_EVT_STATUS_throttle) := by
    change execThermThrottleStep r s = _
    rw [execThermThrottleStep]
    dsimp only
    rw [if_pos ⟨hhot, hdue⟩, hm]
  have hregs : m.regs = s.regs := hm ▸ rfl
  have hrails : m.rails = s.rails.set r { s.rail r with thermLimit := (s.rail r).thermLimit - 1, thermAt := s.monoNs } := hm ▸ rfl
  have honly : m = { s with rails := m.rails } := hm ▸ rfl
  have hevent := RegsMoved.event m Ev.THRM_EVT_STATUS_throttle
  refine ⟨_, hexec, ?_, (counted_event m (by decide) (by decide)).since (State.reg_congr hregs _),
    (RegsKept.of_regs hregs _).trans hevent.kept, ?_⟩
  · rw [State.event_rails, hrails]
  · rw [State.event_rails]
    exact hevent.only.trans (congrArg (fun a : State => { a with regs := (m.event Ev.THRM_EVT_STATUS_throttle).regs }) honly)

theorem thermRecoverStep_raises {r since : Nat} {s : State} (hcool : (s.rail r).coolSince = some since) (hlimit : (s.rail r).thermLimit < 15)
    (hsince : since + 10000000 ≤ s.monoNs) (hdue : (s.rail r).thermAt + 10000000 ≤ s.monoNs) :
    ∃ t, exec (.thermRecoverStep r) s = .next t ∧
      t = { s with rails := s.rails.set r { s.rail r with thermLimit := (s.rail r).thermLimit + 1, thermAt := s.monoNs } } := by
  refine ⟨_, ?_, rfl⟩
  change execThermRecoverStep r s = _
  rw [execThermRecoverStep]
  dsimp only
  rw [hcool]
  dsimp only
  rw [if_pos ⟨hlimit, by omega⟩]
  rfl

/-- Settles O5: the samples are folded sensor by sensor, none undoing another (`foldl_establishes`), and no count of samples above the trip
advances below it. -/
theorem thermalControl : Obligations.ThermalControl := by
  unfold Obligations.ThermalControl
  exact ⟨fun _ _ => thermalSample_shows, fun _ _ _ _ => thermThrottleStep_lowers, fun _ _ _ _ _ => thermRecoverStep_raises⟩

end Sys2Proof.Machine
end

section
/-! The joint bus (chapter 13): feedback frames, check instants, clears and command cycles. -/

namespace Sys2Proof.Machine

/-! ### Streams -/

section Streams
variable (s : State) (i : Nat) (x : StreamSt)

theorem State.stream_setStream (j : Nat) : (s.setStream i x).stream j = if j = i then x else s.stream j := Sparse.get_put

theorem State.stream_setStream_same : (s.setStream i x).stream i = x := Sparse.get_put_same

theorem State.stream_setStream_ne {j : Nat} (h : j ≠ i) : (s.setStream i x).stream j = s.stream j := Sparse.get_put_ne h

theorem State.setStream_only : s.setStream i x = { s with ports := (s.setStream i x).ports } := rfl

theorem State.stream_congr {s t : State} (h : t.ports = s.ports) (j : Nat) : t.stream j = s.stream j := by
  rw [State.stream, State.stream, h]

end Streams

/-- Registers moved after the ports changed. -/
theorem RegsMoved.only_ports {s m t : State} {l : List Nat} (h : RegsMoved m t l) (hm : m = { s with ports := m.ports }) :
    t = { s with ports := t.ports, regs := t.regs } := by
  have hports : t.ports = m.ports := (congrArg State.ports h.only :)
  rw [hports]
  exact h.only.trans (congrArg (fun a : State => { a with regs := t.regs }) hm)

theorem RegsMoved.ports {s t : State} {l : List Nat} (h : RegsMoved s t l) : t.ports = s.ports := (congrArg State.ports h.only :)

theorem RegsMoved.crust {s t : State} {l : List Nat} (h : RegsMoved s t l) : t.crust = s.crust := (congrArg State.crust h.only :)

theorem RegsMoved.stream {s t : State} {l : List Nat} (h : RegsMoved s t l) (j : Nat) : t.stream j = s.stream j :=
  State.stream_congr h.ports j

/-- The register of a stream is none of the engine's events, of its last fault, or of its clear. -/
theorem jbusStream_apart {i a : Nat} (hi : i < 160) (ha : a < Reg.JBUS_STREAM 0) : Reg.JBUS_STREAM i ≠ a := by
  simp only [Reg.JBUS_STREAM] at *
  omega

theorem jbusStream_not_mem {i : Nat} {l : List Nat} (hl : ∀ a ∈ l, a < Reg.JBUS_STREAM 0) : Reg.JBUS_STREAM i ∉ l := fun h => by
  have := hl _ h
  simp only [Reg.JBUS_STREAM] at this
  omega

/-! ### Feedback frames (R238) -/

/-- The state once a joint frame has left the queue. -/
def State.dequeued (s : State) (xs : List RxFrame) : State := { s with ports := { s.ports with jbusIn := xs } }

theorem exec_jbusFbReceive_cons {x : RxFrame} {xs : List RxFrame} {s : State} (hin : s.ports.jbusIn = x :: xs)
    (hopen : s.blkOpen 0 0x26 = true) : exec .jbusFbReceive s =
      .next ((s.dequeued xs).jointFrame (s.feedbackStream x.port x.frame) x.port x.stamp x.frame) := by
  change execJbusFbReceive s = _
  rw [execJbusFbReceive, hin]
  dsimp only
  rw [if_neg (by rw [hopen]; decide)]
  rfl

/-- A frame that counts as an event of the engine and changes nothing else. -/
theorem jbusFrame_counts {xs : List RxFrame} {s t : State} {e : Evt} (he : e.status ≠ e.counter) (hb : e.bit < 32)
    (ht : t = (s.dequeued xs).event e) : t.ports = { s.ports with jbusIn := xs } ∧ Counted s t e ∧ RegsKept s t e.regs ∧
      t = { s with ports := t.ports, regs := t.regs } := by
  have hevent := RegsMoved.event (s.dequeued xs) e
  rw [← ht] at hevent
  exact ⟨hevent.ports, ht ▸ (counted_event _ he hb).since rfl, (RegsKept.of_regs rfl _).trans hevent.kept, hevent.only_ports rfl⟩

theorem jbusFbReceive_crcErr {i : Nat} {x : RxFrame} {xs : List RxFrame} {s : State} (hin : s.ports.jbusIn = x :: xs)
    (hopen : s.blkOpen 0 0x26 = true) (hstream : s.feedbackStream x.port x.frame = some i) (hsafety : s.streamSafety i = none)
    (hcrc : jointCrcOk x.frame = false) :
    ∃ t, exec .jbusFbReceive s = .next t ∧ t.ports = { s.ports with jbusIn := xs } ∧ Counted s t Ev.JBUS_EVT_STATUS_crc_err ∧
      RegsKept s t Ev.JBUS_EVT_STATUS_crc_err.regs ∧ t = { s with ports := t.ports, regs := t.regs } := by
  refine ⟨_, exec_jbusFbReceive_cons hin hopen, jbusFrame_counts (by decide) (by decide) ?_⟩
  have hsafety' : (s.dequeued xs).streamSafety i = none := hsafety
  rw [hstream, State.jointFrame]
  rw [hcrc, if_neg (by simp), State.crustFeedback, hsafety', State.acceptFeedback]
  dsimp only
  rw [hcrc]
  rfl

theorem jbusFbReceive_unknown {x : RxFrame} {xs : List RxFrame} {s : State} (hin : s.ports.jbusIn = x :: xs)
    (hopen : s.blkOpen 0 0x26 = true)
    (hnone : s.feedbackStream x.port x.frame = none ∨ ∃ i, s.feedbackStream x.port x.frame = some i ∧ jointCrcOk x.frame = true ∧
      feedbackFormed ((s.streamRec i).getD []) x.frame = false) :
    ∃ t, exec .jbusFbReceive s = .next t ∧ t.ports = { s.ports with jbusIn := xs } ∧ Counted s t Ev.JBUS_EVT_STATUS_unknown ∧
      RegsKept s t Ev.JBUS_EVT_STATUS_unknown.regs ∧ t = { s with ports := t.ports, regs := t.regs } := by
  refine ⟨_, exec_jbusFbReceive_cons hin hopen, jbusFrame_counts (by decide) (by decide) ?_⟩
  rcases hnone with hstream | ⟨i, hstream, hcrc, hformed⟩
  · rw [hstream]
    rfl
  · have hrec : (s.dequeued xs).streamRec i = s.streamRec i := rfl
    rw [hstream, State.jointFrame]
    rw [hrec, hcrc, hformed, if_pos (by decide)]

theorem jbusFbReceive_accepts {i n : Nat} {x : RxFrame} {xs : List RxFrame} {r : Bytes} {s : State} (hin : s.ports.jbusIn = x :: xs)
    (hopen : s.blkOpen 0 0x26 = true) (hstream : s.feedbackStream x.port x.frame = some i) (hrec : s.streamRec i = some r)
    (hsafety : s.streamSafety i = none) (hcrc : jointCrcOk x.frame = true) (hformed : feedbackFormed r x.frame = true)
    (hlast : (s.stream i).last = none) (hn : n = 16 + fieldAt x.frame (frameBody x.frame + 6) 2)
    (hage : 0 ≤ age x.stamp (fieldAt x.frame (frameBody x.frame + 8) 4))
    (hfresh : age x.stamp (fieldAt x.frame (frameBody x.frame + 8) 4) ≤ fieldAt r 0x10 4) :
    ∃ t, exec .jbusFbReceive s = .next t ∧ t.ports.jbusIn = xs ∧ t.readDie 0 (fieldAt r 0x14 4) n = slice x.frame (frameBody x.frame) n ∧
      (∀ a, (a < dieLocal 0 (fieldAt r 0x14 4) ∨ dieLocal 0 (fieldAt r 0x14 4) + n ≤ a) → t.byteAt a = s.byteAt a) ∧
      (t.stream i).last = some (fieldAt x.frame (frameBody x.frame + 4) 2) ∧
      (t.stream i).accepted = (s.stream i).accepted ++ [(x.stamp, fieldAt x.frame (frameBody x.frame + 8) 4)] ∧
      t = { s with ports := t.ports, phys := t.phys, regs := t.regs } ∧
     RegsKept s t [Reg.JBUS_STREAM i] := by
  obtain ⟨y, hy⟩ : ∃ y, y = { s.stream i with last := some (fieldAt x.frame (frameBody x.frame + 4) 2), accepted := (s.stream i).accepted ++
    [(x.stamp, fieldAt x.frame (frameBody x.frame + 8) 4)] } := ⟨_, rfl⟩
  obtain ⟨q, hq⟩ : ∃ q, q = s.dequeued xs := ⟨_, rfl⟩
  obtain ⟨c, hc⟩ : ∃ c, c = q.setFld (Fld.JBUS_STREAM_counter i) (fieldAt x.frame (frameBody x.frame + 4) 2) := ⟨_, rfl⟩
  obtain ⟨m, hm⟩ : ∃ m, m = c.setStream i y := ⟨_, rfl⟩
  obtain ⟨bs, hbs⟩ : ∃ bs, bs = slice x.frame (frameBody x.frame) n := ⟨_, rfl⟩
  have hlen : bs.length = n := hbs ▸ length_slice _ _ _
  have hstate : q.stream i = s.stream i := hq ▸ rfl
  have hexec : exec .jbusFbReceive s = .next (m.writeDie 0 (fieldAt r 0x14 4) bs) := by
    have hrec' : q.streamRec i = some r := hq ▸ hrec
    have hsafety' : q.streamSafety i = none := hq ▸ hsafety
    rw [exec_jbusFbReceive_cons hin hopen, hstream, ← hq, State.jointFrame]
    rw [hrec', Option.getD_some, hformed, hcrc, if_neg (by decide), State.crustFeedback, hsafety', State.acceptFeedback]
    dsimp only
    rw [hstate, hlast, hcrc, Option.elim_none, if_neg (by decide), if_neg (by decide), if_neg (by omega), ← hn, ← hbs, hm, hc, hy]
    rfl
  have hcounter : RegsMoved q c [Reg.JBUS_STREAM i] := hc ▸ .setFld q _ (by simp) (by simp)
  have honly : m.writeDie 0 (fieldAt r 0x14 4) bs = { m with phys := (m.writeDie 0 (fieldAt r 0x14 4) bs).phys } :=
    State.writePhys_phys_only bs m (dieLocal 0 (fieldAt r 0x14 4))
  have hread := State.readDie_writeDie_same m 0 (fieldAt r 0x14 4) bs
  have hbyte := State.byteAt_writePhys bs m (dieLocal 0 (fieldAt r 0x14 4))
  change ∀ a, (m.writeDie 0 (fieldAt r 0x14 4) bs).byteAt a = _ at hbyte
  obtain ⟨t, ht⟩ : ∃ t, t = m.writeDie 0 (fieldAt r 0x14 4) bs := ⟨_, rfl⟩
  rw [← ht] at honly hread hbyte hexec
  have hcleared : c = { s with ports := c.ports, regs := c.regs } := hcounter.only_ports (hq ▸ rfl)
  have hset : m = { s with ports := m.ports, regs := c.regs } := by
    rw [hm]
    exact congrArg (fun a : State => { a with ports := (c.setStream i y).ports }) hcleared
  have hports : t.ports = m.ports := (congrArg State.ports honly :)
  have hregs : t.regs = c.regs := (congrArg State.regs honly :).trans (hm ▸ rfl)
  have hthis : t.stream i = y := by
    rw [State.stream_congr hports, hm]
    exact c.stream_setStream_same i y
  refine ⟨t, hexec, ?_, ?_, fun a ha => ?_, by rw [hthis, hy], by rw [hthis, hy], ?_, ?_⟩
  · rw [hports, hm]
    change c.ports.jbusIn = xs
    rw [hcounter.ports, hq]
    rfl
  · rw [← hlen, hread, hbs, length_slice]
  · rw [hbyte, if_neg (by omega), hm]
    change c.byteAt a = s.byteAt a
    rw [hcounter.only, hq]
    rfl
  · rw [hports, hregs]
    exact honly.trans (congrArg (fun a : State => { a with phys := t.phys }) hset)
  · exact ((RegsKept.of_regs (hq ▸ rfl) _).trans hcounter.kept).trans (.of_regs hregs _)

/-! ### Check instants and clears (R239) -/

/-- A stream's fault entered (R239, R240). -/
theorem State.faultStream_faults (s : State) {i : Nat} (cause : Nat) {r : Bytes} (hrec : s.streamRec i = some r) (hi : i < 160) {t : State}
    (ht : t = s.faultStream i cause) : t.flag (Fld.JBUS_STREAM_fault i) = true ∧
      t.fld (Fld.JBUS_STREAM_misses i) = s.fld (Fld.JBUS_STREAM_misses i) ∧
      t.flag (Fld.JBUS_STREAM_served i) = s.flag (Fld.JBUS_STREAM_served i) ∧
      t.crust = { s.crust with reports := s.crust.reports ++ [(0x05, i)] } ∧ t.ports = s.ports ∧
      Counted s t Ev.JBUS_EVT_STATUS_stream_fault ∧ t = { s with regs := t.regs, crust := t.crust } ∧
      RegsKept s t (Reg.JBUS_STREAM i :: Reg.JBUS_FAULT_LAST :: Ev.JBUS_EVT_STATUS_stream_fault.regs) := by
  obtain ⟨v, hv⟩ : ∃ v, v = BitVec.ofNat 32 (i % 256 + 256 * (fieldAt r 2 1 % 16) + 4096 * cause + 65536 * fieldAt r 4 2) := ⟨_, rfl⟩
  obtain ⟨f, hf⟩ : ∃ f, f = s.setFld (Fld.JBUS_STREAM_fault i) 1 := ⟨_, rfl⟩
  obtain ⟨m, hm⟩ : ∃ m, m = (f.event Ev.JBUS_EVT_STATUS_stream_fault).setReg Reg.JBUS_FAULT_LAST v := ⟨_, rfl⟩
  have hreport : t = m.report 0x05 i := by
    rw [ht, State.faultStream, hrec, hm, hf, hv]
  have hset : RegsMoved s f [Reg.JBUS_STREAM i] := hf ▸ .setFld s _ (by simp) (by simp)
  have hlast : RegsMoved f m (Reg.JBUS_FAULT_LAST :: Ev.JBUS_EVT_STATUS_stream_fault.regs) :=
    hm ▸ ((RegsMoved.event f _).mono (List.subset_cons_self _ _)).trans (.setReg _ _ (by simp))
  have hmoved := hset.append hlast
  have hregs : t.regs = m.regs := hreport ▸ rfl
  have hcrust : t.crust = { m.crust with reports := m.crust.reports ++ [(0x05, i)] } := hreport ▸ rfl
  have hout : Reg.JBUS_STREAM i ∉ Reg.JBUS_FAULT_LAST :: Ev.JBUS_EVT_STATUS_stream_fault.regs := jbusStream_not_mem (by decide)
  have hfault : RegsKept f t (Reg.JBUS_FAULT_LAST :: Ev.JBUS_EVT_STATUS_stream_fault.regs) := hlast.kept.trans (.of_regs hregs _)
  refine ⟨?_, ?_, ?_, ?_, ?_, ?_, ?_, hmoved.kept.trans (.of_regs hregs _)⟩
  · rw [hfault.flag (by simp) hout, hf, State.flag_setFld_same _ _ (by simp) rfl]
    rfl
  · rw [hfault.fld (by simp) hout, hf, State.fld_setFld_ne _ _ (by simp) (by simp) (by simp)]
  · rw [hfault.flag (by simp) hout, hf, State.flag, State.flag, State.fld_setFld_ne _ _ (by simp) (by simp) (by simp)]
  · rw [hcrust, hmoved.crust]
  · rw [hreport]
    exact hmoved.ports
  · have hcounted : Counted f (f.event Ev.JBUS_EVT_STATUS_stream_fault) Ev.JBUS_EVT_STATUS_stream_fault :=
      counted_event f (by decide) (by decide)
    have hafter : RegsKept (f.event Ev.JBUS_EVT_STATUS_stream_fault) t [Reg.JBUS_FAULT_LAST] :=
      (hm ▸ regsKept_setReg _ _ (by simp) : RegsKept _ m _).trans (.of_regs hregs _)
    exact (hcounted.of_regsKept hafter (by decide) (by decide)).since (hset.reg (by simpa using (jbusStream_apart hi (by decide)).symm))
  · rw [hcrust, hregs]
    refine hreport.trans ?_
    exact congrArg (fun a : State => { a with crust := { m.crust with reports := m.crust.reports ++ [(0x05, i)] } }) hmoved.only

/-- An event counted before a stream faults stays counted. -/
theorem Counted.faultStream {m s : State} {e : Evt} (h : Counted m s e) (i cause : Nat) (hs : e.status ≠ Reg.JBUS_STREAM i)
    (hc : e.counter ≠ Reg.JBUS_STREAM i) (hs' : e.status ≠ Reg.JBUS_FAULT_LAST) (hc' : e.counter ≠ Reg.JBUS_FAULT_LAST)
    (hcount : e.status ≠ Ev.JBUS_EVT_STATUS_stream_fault.counter) (hstat : e.counter ≠ Ev.JBUS_EVT_STATUS_stream_fault.status)
    (hcounts : e.counter ≠ Ev.JBUS_EVT_STATUS_stream_fault.counter) : Counted m (s.faultStream i cause) e := by
  cases hrec : s.streamRec i with
  | none =>
    rw [State.faultStream, hrec]
    exact h
  | some r =>
    have hevent := (h.setFld 1 (f := Fld.JBUS_STREAM_fault i) (by simp) hs hc).eventIf true hcount hstat hcounts (by decide)
    rw [State.faultStream, hrec]
    exact hevent.of_regsKept ((regsKept_setReg _ _ (by simp) : RegsKept _ _ [Reg.JBUS_FAULT_LAST]).trans (State.regsKept_report _ _ _ _))
      (by simpa using hs') (by simpa using hc')

/-- The state of a stream after a check instant. -/
def StreamSt.checked (x : StreamSt) (accepted : List (Nat × Nat)) (run : Nat) : StreamSt :=
  { x with next := x.next + 1, accepted := accepted, servedRun := run }

/-- The registers of a stream that a check instant shows. -/
def State.showCheck (s : State) (i : Nat) (served : Bool) (misses : Nat) : State :=
  (s.setFld (Fld.JBUS_STREAM_served i) (b2n served)).setFld (Fld.JBUS_STREAM_misses i) misses

section Shown
variable (s : State) (i : Nat) (served : Bool) (misses : Nat)

theorem State.showCheck_moved : RegsMoved s (s.showCheck i served misses) [Reg.JBUS_STREAM i] :=
  (RegsMoved.setFld s _ (by simp) (by simp)).trans (.setFld _ _ (by simp) (by simp))

theorem State.misses_showCheck (h : misses < 256) : (s.showCheck i served misses).fld (Fld.JBUS_STREAM_misses i) = misses := by
  rw [State.showCheck, State.fld_setFld_same _ _ (by simp)]
  exact Nat.mod_eq_of_lt h

theorem State.served_showCheck : (s.showCheck i served misses).flag (Fld.JBUS_STREAM_served i) = served := by
  rw [State.flag, State.showCheck, State.fld_setFld_ne _ _ (by simp) (by simp) (by simp), State.fld_setFld_same _ _ (by simp)]
  cases served <;> rfl

theorem State.fault_showCheck : (s.showCheck i served misses).flag (Fld.JBUS_STREAM_fault i) = s.flag (Fld.JBUS_STREAM_fault i) := by
  rw [State.flag, State.flag, State.showCheck, State.fld_setFld_ne _ _ (by simp) (by simp) (by simp),
    State.fld_setFld_ne _ _ (by simp) (by simp) (by simp)]

end Shown

theorem jbusFbCheck_misses {i m : Nat} {r : Bytes} {s : State} (hi : i < 160) (hrec : s.streamRec i = some r) (hkind : streamKind r = 1)
    (hopen : s.blkOpen 0 0x26 = true) (hdue : cycleInstant r (s.stream i).next ≤ s.now) (hnone : (s.stream i).accepted = [])
    (hm : m = min 255 (s.fld (Fld.JBUS_STREAM_misses i) + 1)) :
    ∃ t, exec (.jbusFbCheck i) s = .next t ∧ (t.stream i).next = (s.stream i).next + 1 ∧ (t.stream i).servedRun = 0 ∧
      t.fld (Fld.JBUS_STREAM_misses i) = m ∧ t.flag (Fld.JBUS_STREAM_served i) = false ∧ Counted s t Ev.JBUS_EVT_STATUS_miss ∧
      (fieldAt r 7 1 ≤ m → s.flag (Fld.JBUS_STREAM_fault i) = false →
        t.flag (Fld.JBUS_STREAM_fault i) = true ∧ t.crust.reports = s.crust.reports ++ [(0x05, i)] ∧
        Counted s t Ev.JBUS_EVT_STATUS_stream_fault) ∧
      (m < fieldAt r 7 1 → t.flag (Fld.JBUS_STREAM_fault i) = s.flag (Fld.JBUS_STREAM_fault i) ∧ t.crust = s.crust) ∧
      (∀ j, j ≠ i → t.stream j = s.stream j) ∧ t = { s with ports := t.ports, regs := t.regs, crust := t.crust } ∧
     RegsKept s t (Reg.JBUS_STREAM i :: Reg.JBUS_FAULT_LAST :: Ev.JBUS_EVT_STATUS_miss.regs ++
       Ev.JBUS_EVT_STATUS_stream_fault.regs) := by
  have hm255 : m < 256 := by omega
  obtain ⟨a, ha⟩ : ∃ a, a = s.setStream i ((s.stream i).checked [] 0) := ⟨_, rfl⟩
  obtain ⟨b, hb⟩ : ∃ b, b = a.showCheck i false m := ⟨_, rfl⟩
  obtain ⟨c, hc⟩ : ∃ c, c = b.event Ev.JBUS_EVT_STATUS_miss := ⟨_, rfl⟩
  have hexec : exec (.jbusFbCheck i) s = .next
      (if fieldAt r 7 1 ≤ m ∧ s.flag (Fld.JBUS_STREAM_fault i) = false then c.faultStream i 0 else c) := by
    change execJbusFbCheck i s = _
    rw [execJbusFbCheck, hrec]
    dsimp only
    rw [if_neg (by rw [hkind, hopen]; simp; omega), hnone]
    simp only [List.filter_nil, List.any_nil, Bool.false_eq_true, if_false, Bool.not_false, Bool.true_and, Bool.and_eq_true, decide_eq_true_eq,
      Bool.not_eq_true']
    rw [← hm, hc, hb, ha]
    rfl
  have hshow : RegsMoved a b [Reg.JBUS_STREAM i] := hb ▸ a.showCheck_moved i false m
  have hevent : RegsMoved b c Ev.JBUS_EVT_STATUS_miss.regs := hc ▸ .event b _
  have hout : Reg.JBUS_STREAM i ∉ Ev.JBUS_EVT_STATUS_miss.regs := jbusStream_not_mem (by decide)
  have hcounted : Counted s c Ev.JBUS_EVT_STATUS_miss :=
    hc ▸ (hshow.counted (by decide) (by decide) (by simpa using (jbusStream_apart hi (by decide)).symm) : Counted a _ _).since (ha ▸ rfl)
  have hmoved : RegsMoved a c (Reg.JBUS_STREAM i :: Ev.JBUS_EVT_STATUS_miss.regs) := hshow.append hevent
  have honly : c = { s with ports := c.ports, regs := c.regs } := hmoved.only_ports (ha ▸ rfl)
  have hstream : ∀ j, c.stream j = a.stream j := hmoved.stream
  have hthis : c.stream i = (s.stream i).checked [] 0 := by
    rw [hstream, ha]
    exact s.stream_setStream_same i _
  have hother : ∀ j, j ≠ i → c.stream j = s.stream j := fun j hj => by
    rw [hstream, ha]
    exact s.stream_setStream_ne i _ hj
  have hmisses : c.fld (Fld.JBUS_STREAM_misses i) = m := by
    rw [hevent.fld (by simp) hout, hb]
    exact a.misses_showCheck i false m hm255
  have hserved : c.flag (Fld.JBUS_STREAM_served i) = false := by
    rw [hevent.flag (by simp) hout, hb]
    exact a.served_showCheck i false m
  have hfault : c.flag (Fld.JBUS_STREAM_fault i) = s.flag (Fld.JBUS_STREAM_fault i) := by
    rw [hevent.flag (by simp) hout, hb, a.fault_showCheck i false m, ha]
    rfl
  have hkept : RegsKept s c (Reg.JBUS_STREAM i :: Reg.JBUS_FAULT_LAST :: Ev.JBUS_EVT_STATUS_miss.regs ++
      Ev.JBUS_EVT_STATUS_stream_fault.regs) :=
    ((RegsKept.of_regs (ha ▸ rfl) _).trans hmoved.kept).mono (by simp [Evt.regs, Ev.JBUS_EVT_STATUS_miss])
  have hcrust : c.crust = s.crust := (congrArg State.crust honly :)
  by_cases hfaults : fieldAt r 7 1 ≤ m ∧ s.flag (Fld.JBUS_STREAM_fault i) = false
  · rw [if_pos hfaults] at hexec
    obtain ⟨t, ht⟩ : ∃ t, t = c.faultStream i 0 := ⟨_, rfl⟩
    have hrec' : c.streamRec i = some r := by
      rw [honly]
      exact hrec
    obtain ⟨hset, hmisses', hserved', hreports, hports, hfaulted, honly', hkept'⟩ := c.faultStream_faults 0 hrec' hi ht
    have hmissed : Counted s t Ev.JBUS_EVT_STATUS_miss := ht ▸ hcounted.faultStream i 0 (jbusStream_apart hi (by decide)).symm
      (jbusStream_apart hi (by decide)).symm (by decide) (by decide) (by decide) (by decide) (by decide)
    have hcount : Ev.JBUS_EVT_STATUS_stream_fault.counter ∉ Reg.JBUS_STREAM i :: Ev.JBUS_EVT_STATUS_miss.regs := by
      rw [List.mem_cons, not_or]
      exact ⟨(jbusStream_apart hi (by decide)).symm, by decide⟩
    rw [← ht] at hexec
    refine ⟨t, hexec, ?_, ?_, hmisses'.trans hmisses, hserved'.trans hserved, hmissed, fun _ _ => ⟨hset, ?_, ?_⟩, fun hlt => ?_, fun j hj => ?_,
      ?_, ?_⟩
    · rw [State.stream_congr hports, hthis]
      rfl
    · rw [State.stream_congr hports, hthis]
      rfl
    · rw [hreports, hcrust]
    · exact hfaulted.since ((hmoved.reg hcount).trans (ha ▸ rfl))
    · exact absurd hfaults.1 (by omega)
    · exact (State.stream_congr hports j).trans (hother j hj)
    · rw [hports]
      exact honly'.trans (congrArg (fun b : State => { b with regs := t.regs, crust := t.crust }) honly)
    · exact hkept.trans (hkept'.mono (by simp [Evt.regs, Ev.JBUS_EVT_STATUS_stream_fault, Ev.JBUS_EVT_STATUS_miss]))
  · rw [if_neg hfaults] at hexec
    exact ⟨c, hexec, by rw [hthis]; rfl, by rw [hthis]; rfl, hmisses, hserved, hcounted, fun hle hclear => absurd ⟨hle, hclear⟩ hfaults,
      fun _ => ⟨hfault, hcrust⟩, hother,
      by rw [hcrust]; exact honly, hkept⟩

theorem jbusFbCheck_serves {i ingress stamp : Nat} {r : Bytes} {s : State} (hrec : s.streamRec i = some r) (hkind : streamKind r = 1)
    (hopen : s.blkOpen 0 0x26 = true) (hdue : cycleInstant r (s.stream i).next ≤ s.now) (haccepted : (s.stream i).accepted = [(ingress, stamp)])
    (hin : 0 ≤ age (cycleInstant r (s.stream i).next % 2 ^ 32) ingress) (hstamp : 0 ≤ age (cycleInstant r (s.stream i).next % 2 ^ 32) stamp)
    (hfresh : age (cycleInstant r (s.stream i).next % 2 ^ 32) stamp ≤ fieldAt r 0x10 4) :
    ∃ t, exec (.jbusFbCheck i) s = .next t ∧ (t.stream i).next = (s.stream i).next + 1 ∧
      (t.stream i).servedRun = (s.stream i).servedRun + 1 ∧ (t.stream i).accepted = [] ∧ t.fld (Fld.JBUS_STREAM_misses i) = 0 ∧
      t.flag (Fld.JBUS_STREAM_served i) = true ∧ RegsKept s t [Reg.JBUS_STREAM i] ∧ t = { s with ports := t.ports, regs := t.regs } := by
  obtain ⟨a, ha⟩ : ∃ a, a = s.setStream i ((s.stream i).checked [] ((s.stream i).servedRun + 1)) := ⟨_, rfl⟩
  have hexec : exec (.jbusFbCheck i) s = .next (a.showCheck i true 0) := by
    change execJbusFbCheck i s = _
    rw [execJbusFbCheck, hrec]
    dsimp only
    rw [if_neg (by rw [hkind, hopen]; simp; omega), haccepted]
    simp only [List.filter_cons, List.filter_nil, hin, hstamp, hfresh, decide_true, if_true, List.any_cons, List.any_nil, Bool.and_self, Bool.or_false,
      Bool.not_true, Bool.false_and, Bool.false_eq_true, if_false, Int.not_lt.mpr hin, decide_false]
    rw [ha]
    rfl
  have hmoved := a.showCheck_moved i true 0
  have hthis : ((a.showCheck i true 0).stream i) = (s.stream i).checked [] ((s.stream i).servedRun + 1) := by
    rw [hmoved.stream, ha]
    exact s.stream_setStream_same i _
  refine ⟨_, hexec, by rw [hthis]; rfl, by rw [hthis]; rfl, by rw [hthis]; rfl, a.misses_showCheck i true 0 (by decide), a.served_showCheck i true 0,
    (RegsKept.of_regs (ha ▸ rfl) _).trans hmoved.kept, hmoved.only_ports (ha ▸ rfl)⟩

theorem jbusClear_clears {who : Requester} {i : Nat} {r : Bytes} {s : State} (hi : i < 160) (hs : s.served who 0 0x26 false = true)
    (hrec : s.streamRec i = some r) (hrun : fieldAt r 7 1 ≤ (s.stream i).servedRun) :
    ∃ t, exec (.jbusClear who i) s = .next t ∧ t.flag (Fld.JBUS_STREAM_fault i) = false ∧
      RegsKept s t [Reg.JBUS_CLR, Reg.JBUS_STREAM i] ∧ t = { s with regs := t.regs } := by
  have hlow : bits (i % 256 + 256) 0 8 = i := by
    rw [bits]
    omega
  have hclear : bit (i % 256 + 256) 8 = true := by
    interval_cases i <;> rfl
  obtain ⟨m, hm⟩ : ∃ m, m = s.setFld Fld.JBUS_CLR_stream i := ⟨_, rfl⟩
  have hexec : exec (.jbusClear who i) s = .next (m.setFld (Fld.JBUS_STREAM_fault i) 0) := by
    change execJbusClear who i s = _
    rw [execJbusClear, State.busWrite_of_served _ hs, State.writeJbusClr, hlow, hrec]
    dsimp only
    rw [hclear, decide_eq_true hrun, Bool.and_self, if_pos rfl, hm]
  have hmoved : RegsMoved s (m.setFld (Fld.JBUS_STREAM_fault i) 0) [Reg.JBUS_CLR, Reg.JBUS_STREAM i] :=
    (hm ▸ .setFld s _ (by decide) (by simp) : RegsMoved s m _).trans (.setFld m _ (by simp) (by simp))
  exact ⟨_, hexec, State.flag_setFld_same _ _ (by simp) rfl, hmoved.kept, hmoved.only⟩

/-! ### Command cycles (R226, R235) -/

theorem jbusCmdBuild_builds {i : Nat} {r : Bytes} {x : StreamSt} {s : State} (hrec : s.streamRec i = some r) (hkind : streamKind r = 0)
    (hopen : s.blkOpen 0 0x26 = true) (hx : s.stream i = x) (htake : x.takeover = none) (hdue : cycleInstant r x.next ≤ s.now + 2000)
    (hdelivered : s.delivered i x.next = true) : ∃ t, exec (.jbusCmdBuild i) s = .next t ∧
      t.stream i = { x with built := some (x.next, s.commandFrame r (x.next % 65536) (s.bufferRecords r), false), next := x.next + 1 } ∧
      (∀ j, j ≠ i → t.stream j = s.stream j) ∧ t = { s with ports := t.ports } := by
  refine ⟨_, ?_, s.stream_setStream_same i _, fun j hj => s.stream_setStream_ne i _ hj, rfl⟩
  change execJbusCmdBuild i s = _
  rw [execJbusCmdBuild, hrec]
  dsimp only
  rw [hx, if_neg (by rw [hkind, hopen, htake]; simp; omega), if_pos hdelivered]

theorem jbusCmdBuild_late {i : Nat} {r : Bytes} {x : StreamSt} {s : State} (hrec : s.streamRec i = some r) (hkind : streamKind r = 0)
    (hopen : s.blkOpen 0 0x26 = true) (hx : s.stream i = x) (htake : x.takeover = none) (hdue : cycleInstant r x.next ≤ s.now + 2000)
    (hdelivered : s.delivered i x.next = false) : ∃ t, exec (.jbusCmdBuild i) s = .next t ∧
      t.stream i = { x with next := x.next + 1, missed := some x.next } ∧
      Counted s t Ev.JBUS_EVT_STATUS_cmd_late ∧ t.crust.reports = s.crust.reports ++ [(0x01, i)] ∧
      t = { s with ports := t.ports, regs := t.regs, crust := t.crust } ∧
     RegsKept s t (Reg.JBUS_FAULT_LAST :: Ev.JBUS_EVT_STATUS_cmd_late.regs) := by
  obtain ⟨v, hv⟩ : ∃ v, v = BitVec.ofNat 32 (i % 256 + 256 * (fieldAt r 2 1 % 16) + 4096 * 2 + 65536 * fieldAt r 4 2) := ⟨_, rfl⟩
  obtain ⟨y, hy⟩ : ∃ y : StreamSt, y = { x with next := x.next + 1, missed := some x.next } := ⟨_, rfl⟩
  obtain ⟨a, ha⟩ : ∃ a, a = s.setStream i y := ⟨_, rfl⟩
  obtain ⟨m, hm⟩ : ∃ m, m = (a.event Ev.JBUS_EVT_STATUS_cmd_late).setReg Reg.JBUS_FAULT_LAST v := ⟨_, rfl⟩
  have hexec : exec (.jbusCmdBuild i) s = .next (m.report 0x01 i) := by
    change execJbusCmdBuild i s = _
    rw [execJbusCmdBuild, hrec]
    dsimp only
    rw [hx, if_neg (by rw [hkind, hopen, htake]; simp; omega), if_neg (by rw [hdelivered]; decide), hm, ha, hy, hv]
  have hmoved : RegsMoved a m (Reg.JBUS_FAULT_LAST :: Ev.JBUS_EVT_STATUS_cmd_late.regs) :=
    hm ▸ ((RegsMoved.event a _).mono (List.subset_cons_self _ _)).trans (.setReg _ _ (by simp))
  have hlast : RegsKept (a.event Ev.JBUS_EVT_STATUS_cmd_late) m [Reg.JBUS_FAULT_LAST] := hm ▸ regsKept_setReg _ _ (by simp)
  have hcounted : Counted a m Ev.JBUS_EVT_STATUS_cmd_late :=
    (counted_event a (by decide) (by decide)).of_regsKept hlast (by decide) (by decide)
  rw [← hy]
  refine ⟨_, hexec, ?_, hcounted.since (ha ▸ rfl), ?_, ?_, (RegsKept.of_regs (ha ▸ rfl) _).trans (hmoved.kept.trans (.of_regs rfl _))⟩
  · change m.stream i = y
    rw [hmoved.stream, ha]
    exact s.stream_setStream_same i y
  · rw [State.reports_report, hmoved.crust, ha]
    rfl
  · exact congrArg (fun b : State => { b with crust := (m.report 0x01 i).crust }) (hmoved.only_ports (s := s) (ha ▸ rfl))

theorem jbusCmdTransmit_sends {i j ago port : Nat} {r f : Bytes} {s : State} (hrec : s.streamRec i = some r)
    (hsim : streamSim r = false) (hport : fieldAt r 2 1 = port) (hbuilt : (s.stream i).built = some (j, f, false))
    (hdue : cycleInstant r j ≤ s.now) (hlink : s.flag (Fld.ETH_STATUS_link_up port) = true) (hsafety : s.streamSafety i = none) :
    ∃ t, exec (.jbusCmdTransmit i ago false) s = .next t ∧
      t.ports.sent = s.ports.sent ++ [⟨port, insertStamp (stampOf (s.egressTime port (s.capture ago))) f, true⟩] ∧
      (t.stream i).built = none ∧ (t.stream i).left = some j ∧ t.fld (Fld.JBUS_STREAM_counter i) = j % 65536 ∧
      RegsKept s t [Reg.JBUS_STREAM i] ∧ t = { s with ports := t.ports, regs := t.regs } := by
  obtain ⟨g, hg⟩ : ∃ g, g = insertStamp (stampOf (s.egressTime port (s.capture ago))) f := ⟨_, rfl⟩
  obtain ⟨y, hy⟩ : ∃ y : StreamSt, y = { s.stream i with built := none, left := some j, joints := frameJoints f } := ⟨_, rfl⟩
  obtain ⟨a, ha⟩ : ∃ a, a = (s.setStream i y).sendFrame port g true := ⟨_, rfl⟩
  obtain ⟨t, ht⟩ : ∃ t, t = a.setFld (Fld.JBUS_STREAM_counter i) (j % 65536) := ⟨_, rfl⟩
  have hmoved : RegsMoved a t [Reg.JBUS_STREAM i] := ht ▸ .setFld a _ (by simp) (by simp)
  have hsafe : t.streamSafety i = none := by
    rw [hmoved.only, ha]
    exact hsafety
  have hexec : exec (.jbusCmdTransmit i ago false) s = .next t := by
    change execJbusCmdTransmit i ago false s = _
    rw [execJbusCmdTransmit, hrec, hbuilt]
    dsimp only
    rw [if_neg (by omega), hsim, hport, hlink, ← hy, ← hg]
    simp only [Bool.false_eq_true, if_false, Bool.true_eq_false]
    rw [← ha, ← ht, State.crustCommand, hsafe]
  refine ⟨t, hexec, ?_, ?_, ?_, ?_, (RegsKept.of_regs (ha ▸ rfl) _).trans hmoved.kept, hmoved.only_ports (ha ▸ rfl)⟩
  · rw [hmoved.ports, ha, ← hg]
    rfl
  · rw [hmoved.stream, ha]
    change ((s.setStream i y).stream i).built = none
    rw [State.stream_setStream_same, hy]
  · rw [hmoved.stream, ha]
    change ((s.setStream i y).stream i).left = some j
    rw [State.stream_setStream_same, hy]
  · rw [ht, State.fld_setFld_same _ _ (by simp)]
    exact Nat.mod_mod _ 65536

/-- Settles O39: the engine takes one frame at a time, each check instant shows its stream (`State.showCheck`) and may fault it
(`State.faultStream_faults`), and each command cycle is built, found late or sent. -/
theorem jointBus : Obligations.JointBus := by
  unfold Obligations.JointBus
  exact ⟨fun i n x xs r s hin hopen hstream hrec hsafety hcrc hformed hlast hn _ hage hfresh =>
      jbusFbReceive_accepts hin hopen hstream hrec hsafety hcrc hformed hlast hn hage hfresh,
    fun _ _ _ _ => jbusFbReceive_crcErr, fun _ _ _ => jbusFbReceive_unknown, fun _ _ _ _ => jbusFbCheck_misses,
    fun _ _ _ _ _ _ => jbusFbCheck_serves, fun _ _ _ _ => jbusClear_clears, fun _ _ _ _ => jbusCmdBuild_builds,
    fun _ _ _ _ => jbusCmdBuild_late, fun _ _ _ _ _ _ _ _ => jbusCmdTransmit_sends⟩

end Sys2Proof.Machine
end

section
/-! Ethernet ports (chapter 13): frames received and transmitted, a port's mode, and links. -/

namespace Sys2Proof.Machine

/-! ### Ring entries (R241) -/

/-- A signal moves sync objects, a register of the host queues, and vectors. -/
theorem State.signal_moves (s : State) (k n : Nat) {t : State} (ht : t = s.signal k n) :
    RegsKept s t Ev.HQ_EVT_STATUS_sync_overflow.regs ∧
      t = { s with regs := t.regs, msix := t.msix, msixPending := t.msixPending, syncs := t.syncs } := by
  rw [State.signal] at ht
  split at ht
  · rw [ht]
    exact ⟨.of_regs rfl _, rfl⟩
  · obtain ⟨m, hm⟩ : ∃ m, m = s.setSync k (2 ^ 64 - 1) := ⟨_, rfl⟩
    rw [← hm] at ht
    have hmoved := onlyMoved_hqEvent m Ev.HQ_EVT_STATUS_sync_overflow
    rw [← ht] at hmoved
    have hsyncs : t.syncs = m.syncs := (congrArg State.syncs hmoved.only :)
    refine ⟨(RegsKept.of_regs (hm ▸ rfl) _).trans hmoved.kept, ?_⟩
    rw [hsyncs]
    exact hmoved.only.trans (congrArg (fun a : State => { a with regs := t.regs, msix := t.msix, msixPending := t.msixPending })
      (show m = { s with syncs := m.syncs } from hm ▸ rfl))

theorem State.signalId_moves (s : State) (i n : Nat) {t : State} (ht : t = s.signalId i n) :
    RegsKept s t Ev.HQ_EVT_STATUS_sync_overflow.regs ∧
      t = { s with regs := t.regs, msix := t.msix, msixPending := t.msixPending, syncs := t.syncs } := by
  rw [State.signalId] at ht
  split at ht
  · rw [ht]
    exact ⟨.refl s _, rfl⟩
  · exact s.signal_moves _ _ ht

/-- An entry whose data fit its ring, published: the stream's count advances and its sync object is signalled. -/
theorem State.publishEntry_publishes {s m : State} {i : Nat} {r data : Bytes} {h : EntryHead} (hroom : data.length + 64 ≤ fieldAt r 0x24 4)
    (hcut : h.truncated = false)
    (hwrite : s.writeVa (.engine 0) .engineWrite (fieldAt r 0 1) (ringEntry r ((s.stream i).pubs + 1))
      (headBytes ((s.stream i).pubs + 1) data.length false h ++ data) = .ok m) {t : State} (ht : t = s.publishEntry i r h data) :
    t.phys = m.phys ∧ t.stream i = { s.stream i with pubs := (s.stream i).pubs + 1 } ∧ (∀ j, j ≠ i → t.stream j = s.stream j) ∧
      t.ports = { s.ports with streams := t.ports.streams } ∧ RegsKept s t Ev.HQ_EVT_STATUS_sync_overflow.regs ∧
      t = { m with regs := t.regs, msix := t.msix, msixPending := t.msixPending, ports := t.ports, syncs := t.syncs } := by
  obtain ⟨y, hy⟩ : ∃ y, y = { m.stream i with pubs := (s.stream i).pubs + 1 } := ⟨_, rfl⟩
  obtain ⟨a, ha⟩ : ∃ a, a = m.setStream i y := ⟨_, rfl⟩
  have honly := State.writeVa_only hwrite
  have hports : m.ports = s.ports := (congrArg State.ports honly :)
  have hregs : m.regs = s.regs := (congrArg State.regs honly :)
  have hsignal : t = a.signalId (fieldAt r 0x30 2) 1 := by
    rw [ht, State.publishEntry]
    dsimp only
    rw [List.take_of_length_le (by omega), hcut, decide_eq_false (by omega), Bool.or_false, hwrite]
    dsimp only
    rw [ha, hy]
  obtain ⟨hkept, hmoved⟩ := a.signalId_moves _ _ hsignal
  have hports' : t.ports = a.ports := (congrArg State.ports hmoved :)
  refine ⟨(congrArg State.phys hmoved :).trans (ha ▸ rfl), ?_, fun j hj => ?_, ?_, (RegsKept.of_regs (ha ▸ hregs) _).trans hkept, ?_⟩
  · rw [State.stream_congr hports', ha, State.stream_setStream_same, hy, State.stream_congr hports]
  · rw [State.stream_congr hports', ha, State.stream_setStream_ne _ _ _ hj, State.stream_congr hports]
  · rw [hports', ha, ← hports]
    rfl
  · rw [hports']
    exact hmoved.trans (congrArg (fun b : State => { b with regs := t.regs, msix := t.msix, msixPending := t.msixPending, syncs := t.syncs })
      (show a = { m with ports := a.ports } from ha ▸ rfl))

theorem syncOverflow_blocks : ∀ a ∈ Ev.HQ_EVT_STATUS_sync_overflow.regs, a / 65536 ∈ [0x145] := by decide

/-! ### Reception (R223) -/

theorem State.notePtp_of_none (s : State) (port : Nat) (egress : Bool) (t : Int) {f : Bytes} (h : ptpEvent f = none) :
    s.notePtp port egress t f = s := by
  rw [State.notePtp, h]

/-- A PTP event message noted moves its port's FIFO, or counts its loss. -/
theorem State.notePtp_moves (s : State) (port : Nat) (egress : Bool) (stamp : Int) (f : Bytes) {t : State}
    (ht : t = s.notePtp port egress stamp f) : t.ports = { s.ports with fifos := t.ports.fifos } ∧
      RegsKept s t Ev.TIME_EVT_STATUS_fifo_ovf.regs ∧ t = { s with ports := t.ports, regs := t.regs } := by
  cases hevent : ptpEvent f with
  | none =>
    rw [State.notePtp_of_none s port egress stamp hevent] at ht
    rw [ht]
    exact ⟨rfl, .refl s _, rfl⟩
  | some msg =>
    rw [State.notePtp, hevent] at ht
    dsimp only at ht
    split at ht
    · rw [ht]
      exact ⟨rfl, .refl s _, rfl⟩
    · split at ht
      · rw [ht]
        exact ⟨rfl, .of_regs rfl _, rfl⟩
      · have hmoved := RegsMoved.event s Ev.TIME_EVT_STATUS_fifo_ovf
        rw [← ht] at hmoved
        exact ⟨by rw [hmoved.ports], hmoved.kept, hmoved.only_ports rfl⟩

theorem fifoOvf_blocks : ∀ a ∈ Ev.TIME_EVT_STATUS_fifo_ovf.regs, a / 65536 ∈ [0x23] := by decide

theorem State.portMode_notePtp (s : State) (port q : Nat) (egress : Bool) (stamp : Int) (f : Bytes) :
    (s.notePtp port egress stamp f).portMode q = s.portMode q := by
  obtain ⟨-, hkept, -⟩ := s.notePtp_moves port egress stamp f rfl
  have hctrl : (Fld.ETH_CTRL_mode q).addr ∉ Ev.TIME_EVT_STATUS_fifo_ovf.regs := by
    simp only [Evt.regs, Ev.TIME_EVT_STATUS_fifo_ovf, Reg.ETH_CTRL, Reg.TIME_EVT_STATUS, List.mem_cons, List.not_mem_nil, or_false]
    omega
  rw [State.portMode, State.portMode, hkept.fld (by simp) hctrl]

theorem State.sensorStream_notePtp (s : State) (port q : Nat) (egress : Bool) (stamp : Int) (f g : Bytes) :
    (s.notePtp port egress stamp f).sensorStream q g = s.sensorStream q g := by
  obtain ⟨-, -, honly⟩ := s.notePtp_moves port egress stamp f rfl
  have hrecs : ∀ k, (s.notePtp port egress stamp f).recs k = s.recs k := fun k => by
    rw [State.recs, State.recs, show (s.notePtp port egress stamp f).layout = s.layout from (congrArg State.layout honly :)]
  have hstreams : ∀ ks, (s.notePtp port egress stamp f).portStreams q ks = s.portStreams q ks := fun ks => by
    rw [State.portStreams, State.portStreams, hrecs]
  have hrec : ∀ i, (s.notePtp port egress stamp f).streamRec i = s.streamRec i := fun i => by
    rw [State.streamRec, State.streamRec, hrecs]
  rw [State.sensorStream, State.sensorStream, s.portMode_notePtp, hstreams]
  simp only [hrec]

section Receive
variable {port ago : Nat} {f : Bytes} {s : State} (hport : port < 12) (hopen : s.blkOpen 0 0x24 = true) (hmode : s.portMode port ≠ 0)
  (hlink : s.flag (Fld.ETH_STATUS_link_up port) = true)
include hport hopen hmode hlink

theorem ethGuard : ¬(12 ≤ port ∨ s.blkOpen 0 0x24 = false ∨ s.portMode port = 0 ∨ s.flag (Fld.ETH_STATUS_link_up port) = false) := by
  rw [hopen, hlink]
  simp [hmode]
  exact hport

theorem ethFrameReceive_joint (hjoint : s.portMode port = 1) (htype : frameType f = s.ports.ethertype) :
    ∃ t, exec (.ethFrameReceive port ago f) s = .next t ∧
      t.ports.jbusIn = s.ports.jbusIn ++ [⟨port, stampOf (s.ingressTime port (s.capture ago)), f⟩] ∧ t.ports.sent = s.ports.sent ∧
      t.ports.streams = s.ports.streams ∧ t.ports.fwIn = s.ports.fwIn ∧ t = { s with ports := t.ports, regs := t.regs } ∧
     BlocksKept s t [0x23] := by
  obtain ⟨m, hm⟩ : ∃ m, m = s.notePtp port false (s.ingressTime port (s.capture ago)) f := ⟨_, rfl⟩
  obtain ⟨hports, hkept, honly⟩ := s.notePtp_moves port false _ f hm
  obtain ⟨x, hx⟩ : ∃ x : RxFrame, x = ⟨port, stampOf (s.ingressTime port (s.capture ago)), f⟩ := ⟨_, rfl⟩
  have hexec : exec (.ethFrameReceive port ago f) s = .next { m with ports := { m.ports with jbusIn := m.ports.jbusIn ++ [x] } } := by
    change execEthFrameReceive port ago f s = _
    rw [execEthFrameReceive, if_neg (ethGuard hport hopen hmode hlink)]
    dsimp only
    rw [if_pos ⟨hjoint, htype⟩, hm, hx]
  rw [← hx]
  refine ⟨_, hexec, ?_, ?_, ?_, ?_, ?_, (hkept.trans (.of_regs rfl _)).blocksKept fifoOvf_blocks⟩
  · exact congrArg (fun l => l ++ [x]) (congrArg PortsSt.jbusIn hports :)
  · exact (congrArg PortsSt.sent hports :)
  · exact (congrArg PortsSt.streams hports :)
  · exact (congrArg PortsSt.fwIn hports :)
  · exact congrArg (fun a : State => { a with ports := { m.ports with jbusIn := m.ports.jbusIn ++ [x] } }) honly

theorem ethFrameReceive_firmware (hother : s.portMode port = 1 → frameType f ≠ s.ports.ethertype) (hnone : s.sensorStream port f = none) :
    ∃ t, exec (.ethFrameReceive port ago f) s = .next t ∧
      t.ports.fwIn = s.ports.fwIn ++ [⟨port, stampOf (s.ingressTime port (s.capture ago)), f⟩] ∧ t.ports.jbusIn = s.ports.jbusIn ∧
      t.ports.sent = s.ports.sent ∧ t.ports.streams = s.ports.streams ∧ t = { s with ports := t.ports, regs := t.regs } ∧
     BlocksKept s t [0x23] := by
  obtain ⟨m, hm⟩ : ∃ m, m = s.notePtp port false (s.ingressTime port (s.capture ago)) f := ⟨_, rfl⟩
  obtain ⟨hports, hkept, honly⟩ := s.notePtp_moves port false _ f hm
  obtain ⟨x, hx⟩ : ∃ x : RxFrame, x = ⟨port, stampOf (s.ingressTime port (s.capture ago)), f⟩ := ⟨_, rfl⟩
  have hexec : exec (.ethFrameReceive port ago f) s = .next { m with ports := { m.ports with fwIn := m.ports.fwIn ++ [x] } } := by
    change execEthFrameReceive port ago f s = _
    rw [execEthFrameReceive, if_neg (ethGuard hport hopen hmode hlink)]
    dsimp only
    rw [if_neg fun h => hother h.1 h.2, s.sensorStream_notePtp, hnone, hm, hx]
  rw [← hx]
  refine ⟨_, hexec, ?_, ?_, ?_, ?_, ?_, (hkept.trans (.of_regs rfl _)).blocksKept fifoOvf_blocks⟩
  · exact congrArg (fun l => l ++ [x]) (congrArg PortsSt.fwIn hports :)
  · exact (congrArg PortsSt.jbusIn hports :)
  · exact (congrArg PortsSt.sent hports :)
  · exact (congrArg PortsSt.streams hports :)
  · exact congrArg (fun a : State => { a with ports := { m.ports with fwIn := m.ports.fwIn ++ [x] } }) honly

theorem ethFrameReceive_sensor {i : Nat} {r : Bytes} {m : State} (hsensor : s.portMode port = 2) (hptp : ptpEvent f = none)
    (hstream : s.sensorStream port f = some i) (hrec : s.streamRec i = some r) (hroom : f.length + 64 ≤ fieldAt r 0x24 4)
    (hwrite : s.writeVa (.engine 0) .engineWrite (fieldAt r 0 1) (ringEntry r ((s.stream i).pubs + 1))
      (headBytes ((s.stream i).pubs + 1) f.length false
        ⟨ofSigned 64 (s.ingressTime port (s.capture ago) / 65536), 0, 0, false, false, false, 0⟩ ++ f) = .ok m) :
    ∃ t, exec (.ethFrameReceive port ago f) s = .next t ∧ t.phys = m.phys ∧ (t.stream i).pubs = (s.stream i).pubs + 1 ∧
      (∀ j, j ≠ i → t.stream j = s.stream j) ∧ t.ports.fwIn = s.ports.fwIn ∧ t.ports.jbusIn = s.ports.jbusIn ∧ BlocksKept s t [0x145] ∧
      t = { m with regs := t.regs, msix := t.msix, msixPending := t.msixPending, ports := t.ports, syncs := t.syncs } := by
  obtain ⟨h, hh⟩ : ∃ h : EntryHead, h = ⟨ofSigned 64 (s.ingressTime port (s.capture ago) / 65536), 0, 0, false, false, false, 0⟩ := ⟨_, rfl⟩
  obtain ⟨t, ht⟩ : ∃ t, t = s.publishEntry i r h f := ⟨_, rfl⟩
  have hexec : exec (.ethFrameReceive port ago f) s = .next t := by
    change execEthFrameReceive port ago f s = _
    rw [execEthFrameReceive, if_neg (ethGuard hport hopen hmode hlink)]
    dsimp only
    rw [if_neg (by rw [hsensor]; simp), s.notePtp_of_none _ _ _ hptp, hstream]
    dsimp only
    rw [hrec, Option.getD_some, ← hh, ht]
  obtain ⟨hphys, hthis, hother, hports, hkept, honly⟩ := State.publishEntry_publishes hroom (by rw [hh]) (hh ▸ hwrite) ht
  exact ⟨t, hexec, hphys, by rw [hthis], hother, (congrArg PortsSt.fwIn hports :), (congrArg PortsSt.jbusIn hports :),
    hkept.blocksKept syncOverflow_blocks, honly⟩

theorem ethFrameTransmit_sends (hguard : s.guarded port f.length = false) (hptp : ptpEvent f = none) :
    ∃ t, exec (.ethFrameTransmit port ago f) s = .next t ∧
      t = { s with ports := { s.ports with sent := s.ports.sent ++ [⟨port, f, true⟩] } } := by
  refine ⟨_, ?_, rfl⟩
  have hsync : s.completesSync port f = false := by
    rw [State.completesSync, hptp]
    simp
  change execEthFrameTransmit port ago f s = _
  rw [execEthFrameTransmit, if_neg (by rw [hopen, hlink, hguard]; simp [hmode]; exact hport)]
  dsimp only
  rw [s.notePtp_of_none _ _ _ hptp, hsync]
  rfl

end Receive

theorem ethFrameReceive_of_down {port ago : Nat} {f : Bytes} {s : State} (hlink : s.flag (Fld.ETH_STATUS_link_up port) = false) :
    exec (.ethFrameReceive port ago f) s = .next s := by
  change execEthFrameReceive port ago f s = _
  rw [execEthFrameReceive, if_pos (.inr (.inr (.inr hlink)))]

/-! ### Modes (R230) -/

/-- The mode of a port and, where it is OFF, the loss of its link and of its diagnostic. -/
theorem State.setPortMode_sets (s : State) (port : Nat) {v : Nat} (hv : v < 4) {t : State} (ht : t = s.setPortMode port v) :
    t.fld (Fld.ETH_CTRL_mode port) = v ∧ t.fld (Fld.ETH_CTRL_speed port) = s.fld (Fld.ETH_CTRL_speed port) ∧
      (v = 0 → t.flag (Fld.ETH_STATUS_link_up port) = false) ∧
      RegsMoved s t [Reg.ETH_CTRL port, Reg.ETH_STATUS port, Reg.ETH_PAIR port] := by
  obtain ⟨m, hm⟩ : ∃ m, m = s.setFld (Fld.ETH_CTRL_mode port) v := ⟨_, rfl⟩
  have hmode : m.fld (Fld.ETH_CTRL_mode port) = v := by
    rw [hm, State.fld_setFld_same _ _ (by simp)]
    exact Nat.mod_eq_of_lt hv
  have hspeed : m.fld (Fld.ETH_CTRL_speed port) = s.fld (Fld.ETH_CTRL_speed port) := by
    rw [hm, State.fld_setFld_ne _ _ (by simp) (by simp) (by simp)]
  have hset : RegsMoved s m [Reg.ETH_CTRL port, Reg.ETH_STATUS port, Reg.ETH_PAIR port] := hm ▸ .setFld s _ (by simp) (by simp)
  rw [State.setPortMode] at ht
  rw [← hm] at ht
  by_cases hoff : v = 0 ∨ v = 3
  · rw [if_pos hoff] at ht
    obtain ⟨u, hu⟩ : ∃ u, u = m.setFld (Fld.ETH_STATUS_link_up port) 0 := ⟨_, rfl⟩
    rw [← hu] at ht
    have hpair : Reg.ETH_STATUS port ∉ [Reg.ETH_PAIR port] := by
      simp only [Reg.ETH_STATUS, Reg.ETH_PAIR, List.mem_singleton]
      omega
    obtain ⟨w, hw⟩ : ∃ w, w = (u.setFld (Fld.ETH_PAIR_cond port) 4).setFld (Fld.ETH_PAIR_distance port) 0 := ⟨_, rfl⟩
    rw [← hw] at ht
    have hdown : RegsMoved m u [Reg.ETH_STATUS port, Reg.ETH_PAIR port] := hu ▸ .setFld m _ (by simp) (by simp)
    have hdiag : RegsMoved u w [Reg.ETH_PAIR port] := hw ▸ (RegsMoved.setFld u _ (by simp) (by simp)).trans (.setFld _ _ (by simp) (by simp))
    have hfault : RegsMoved w t [Reg.ETH_STATUS port, Reg.ETH_PAIR port] := ht ▸ .setFld w _ (by simp) (by simp)
    have hall : RegsMoved m t [Reg.ETH_STATUS port, Reg.ETH_PAIR port] := (hdown.trans (hdiag.mono (by simp))).trans hfault
    have hctrl : Reg.ETH_CTRL port ∉ [Reg.ETH_STATUS port, Reg.ETH_PAIR port] := by
      simp only [Reg.ETH_STATUS, Reg.ETH_PAIR, Reg.ETH_CTRL, List.mem_cons, List.not_mem_nil, or_false]
      omega
    refine ⟨(hall.fld (by simp) hctrl).trans hmode, (hall.fld (by simp) hctrl).trans hspeed, fun _ => ?_, hset.trans (hall.mono (by simp))⟩
    rw [State.flag, ht, State.fld_setFld_ne _ _ (by simp) (by simp) (by simp), hdiag.fld (by simp) hpair, hu,
      State.fld_setFld_same _ _ (by simp)]
    rfl
  · rw [if_neg hoff] at ht
    rw [ht]
    exact ⟨hmode, hspeed, fun h => absurd (.inl h) hoff, hset⟩

/-- The speed and the master role of a port as a write of its control register gives them. -/
theorem State.ethCtrl_shown (s : State) (port v : Nat) {m : State}
    (hm : m = (s.setFld (Fld.ETH_CTRL_speed port) (bits v 2 2)).setFld (Fld.ETH_CTRL_phy_master port) (bits v 4 1)) :
    m.fld (Fld.ETH_CTRL_mode port) = s.fld (Fld.ETH_CTRL_mode port) ∧ m.fld (Fld.ETH_CTRL_speed port) = bits v 2 2 ∧
      RegsMoved s m [Reg.ETH_CTRL port] := by
  rw [hm]
  refine ⟨?_, ?_, (RegsMoved.setFld s _ (by simp) (by simp)).trans (.setFld _ _ (by simp) (by simp))⟩
  · rw [State.fld_setFld_ne _ _ (by simp) (by simp) (by simp), State.fld_setFld_ne _ _ (by simp) (by simp) (by simp)]
  · rw [State.fld_setFld_ne _ _ (by simp) (by simp) (by simp), State.fld_setFld_same _ _ (by simp)]
    exact Nat.mod_eq_of_lt (bits_lt ..)

theorem exec_ethCtrlWrite_of_served {who : Requester} {port : Nat} (v : Nat) {s : State} (hs : s.served who 0 0x24 false = true)
    (hport : port < 12) : exec (.ethCtrlWrite who port v) s = .next (s.writeEthCtrl port v) := by
  change execEthCtrlWrite who port v s = _
  rw [execEthCtrlWrite, State.busWrite_of_served _ hs, if_pos hport]

theorem ethCtrlWrite_sets {who : Requester} {port v : Nat} {s : State} (hs : s.served who 0 0x24 false = true) (hport : port < 12)
    (hnamed : s.portNamed port = false) (hsensor : 8 ≤ port → bits v 0 2 ≠ 1) :
    ∃ t, exec (.ethCtrlWrite who port v) s = .next t ∧ t.fld (Fld.ETH_CTRL_mode port) = bits v 0 2 ∧
      t.fld (Fld.ETH_CTRL_speed port) = bits v 2 2 ∧ (bits v 0 2 = 0 → t.flag (Fld.ETH_STATUS_link_up port) = false) ∧
      RegsKept s t [Reg.ETH_CTRL port, Reg.ETH_STATUS port, Reg.ETH_PAIR port] ∧ t = { s with regs := t.regs } := by
  obtain ⟨m, hm⟩ : ∃ m, m = (s.setFld (Fld.ETH_CTRL_speed port) (bits v 2 2)).setFld (Fld.ETH_CTRL_phy_master port) (bits v 4 1) := ⟨_, rfl⟩
  obtain ⟨-, hspeed, hshown⟩ := s.ethCtrl_shown port v hm
  have hexec := exec_ethCtrlWrite_of_served v hs hport
  rw [State.writeEthCtrl, hnamed, Bool.false_or, ← hm, if_neg (by rw [Bool.and_eq_true, decide_eq_true_iff, beq_iff_eq]; exact fun h => hsensor h.1 h.2)]
    at hexec
  obtain ⟨hmode, hspeed', hdown, hmoved⟩ := m.setPortMode_sets port (bits_lt v 0 2) rfl
  have hall := (hshown.mono (by simp)).trans hmoved
  exact ⟨_, hexec, hmode, hspeed'.trans hspeed, hdown, hall.kept, hall.only⟩

theorem ethCtrlWrite_keeps {who : Requester} {port v : Nat} {s : State} (hs : s.served who 0 0x24 false = true) (hport : port < 12)
    (hnamed : s.portNamed port = true) :
    ∃ t, exec (.ethCtrlWrite who port v) s = .next t ∧ t.fld (Fld.ETH_CTRL_mode port) = s.fld (Fld.ETH_CTRL_mode port) ∧
      RegsKept s t [Reg.ETH_CTRL port] ∧ t = { s with regs := t.regs } := by
  obtain ⟨m, hm⟩ : ∃ m, m = (s.setFld (Fld.ETH_CTRL_speed port) (bits v 2 2)).setFld (Fld.ETH_CTRL_phy_master port) (bits v 4 1) := ⟨_, rfl⟩
  obtain ⟨hmode, -, hshown⟩ := s.ethCtrl_shown port v hm
  have hexec := exec_ethCtrlWrite_of_served v hs hport
  rw [State.writeEthCtrl, hnamed, Bool.true_or, ← hm, if_pos rfl] at hexec
  exact ⟨m, hexec, hmode, hshown.kept, hshown.only⟩

/-! ### Links (R238, R240) -/

theorem State.streamRec_of_mem_portStreams {s : State} {port i : Nat} {ks : List Nat} (h : i ∈ s.portStreams port ks) :
    ∃ r, s.streamRec i = some r := by
  obtain ⟨p, hp, rfl⟩ := List.mem_map.mp h
  obtain ⟨hmem, -⟩ := List.mem_filter.mp hp
  exact ⟨p.1, List.mem_zipIdx_iff_getElem?.mp hmem⟩

/-- Streams renewed one by one: what each renewal leaves of a stream is left by all. -/
theorem State.foldl_setStream (f : StreamSt → StreamSt) (is : List Nat) (s : State) :
    (∀ (P : StreamSt → Prop), (∀ x, P (f x)) → ∀ i ∈ is, P ((is.foldl (fun (a : State) i => a.setStream i (f (a.stream i))) s).stream i)) ∧
      is.foldl (fun (a : State) i => a.setStream i (f (a.stream i))) s =
        { s with ports := (is.foldl (fun (a : State) i => a.setStream i (f (a.stream i))) s).ports } := by
  induction is using List.reverseRecOn with
  | nil => exact ⟨fun _ _ i hi => absurd hi List.not_mem_nil, rfl⟩
  | append_singleton is j ih =>
    obtain ⟨heach, honly⟩ := ih
    rw [List.foldl_append, List.foldl_cons, List.foldl_nil]
    generalize is.foldl (fun (a : State) i => a.setStream i (f (a.stream i))) s = t at *
    refine ⟨fun P hP i hi => ?_, congrArg (fun a : State => { a with ports := (t.setStream j (f (t.stream j))).ports }) honly⟩
    rw [State.stream_setStream]
    split
    · exact hP _
    next hij => exact heach P hP i ((List.mem_append.mp hi).resolve_right (by simpa using hij))

theorem ethLinkUp_links {port speed : Nat} {swapped : Bool} {s : State} (hport : port < 12) (hmode : s.portMode port ≠ 0) :
    ∃ t, exec (.ethLinkUp port speed swapped) s = .next t ∧ t.flag (Fld.ETH_STATUS_link_up port) = true ∧
      (∀ i ∈ s.portStreams port [1], (t.stream i).last = none) ∧
      RegsKept s t [Reg.ETH_STATUS port, Reg.ETH_PAIR port] ∧ t = { s with regs := t.regs, ports := t.ports } := by
  obtain ⟨v, hv⟩ : ∃ v, v = if 8 ≤ port then 3 else if speed = 3 then 0 else speed := ⟨_, rfl⟩
  obtain ⟨a, ha⟩ : ∃ a, a = (s.setFld (Fld.ETH_STATUS_link_up port) 1).setFld (Fld.ETH_STATUS_speed port) v := ⟨_, rfl⟩
  obtain ⟨m, hm⟩ : ∃ m, m = a.setFld (Fld.ETH_PAIR_polarity_rev port) (b2n swapped) := ⟨_, rfl⟩
  obtain ⟨t, ht⟩ : ∃ t, t = (s.portStreams port [1]).foldl
    (fun (b : State) i => b.setStream i { b.stream i with last := none, crustLast := none }) m := ⟨_, rfl⟩
  have hexec : exec (.ethLinkUp port speed swapped) s = .next t := by
    change execEthLinkUp port speed swapped s = _
    rw [execEthLinkUp, if_neg (by simp [hmode]; exact hport), ht, hm, ha, hv]
  obtain ⟨heach, honly⟩ := State.foldl_setStream (fun x => { x with last := none, crustLast := none }) (s.portStreams port [1]) m
  rw [← ht] at honly
  have hregs : t.regs = m.regs := (congrArg State.regs honly :)
  have hpair : Reg.ETH_STATUS port ≠ Reg.ETH_PAIR port := by
    simp only [Reg.ETH_STATUS, Reg.ETH_PAIR]
    omega
  have hmoved : RegsMoved s m [Reg.ETH_STATUS port, Reg.ETH_PAIR port] := by
    rw [hm, ha]
    exact ((RegsMoved.setFld s _ (by simp) (by simp)).trans (.setFld _ _ (by simp) (by simp))).trans (.setFld _ _ (by simp) (by simp))
  refine ⟨t, hexec, ?_, ?_, hmoved.kept.trans (.of_regs hregs _), ?_⟩
  · rw [State.flag, State.fld_congr hregs, hm, State.fld_setFld_ne _ _ (by simp) (by simp) (.inl hpair), ha,
      State.fld_setFld_ne _ _ (by simp) (by simp) (by simp), State.fld_setFld_same _ _ (by simp)]
    rfl
  · rw [ht]
    exact heach (fun x => x.last = none) (fun _ => rfl)
  · rw [hregs]
    exact honly.trans (congrArg (fun b : State => { b with ports := t.ports }) hmoved.only)

/-- Streams that fault one after another on the loss of their port's link (R240). -/
theorem State.faultStreams_fault {is : List Nat} (cause : Nat) {s t : State} (hrec : ∀ i ∈ is, ∃ r, s.streamRec i = some r) (hi : ∀ i ∈ is, i < 160)
    (ht : t = is.foldl (fun (a : State) i => a.faultStream i cause) s) :
    (∀ i ∈ is, t.flag (Fld.JBUS_STREAM_fault i) = true ∧ (0x05, i) ∈ t.crust.reports) ∧
      (∀ j, j < 160 → s.flag (Fld.JBUS_STREAM_fault j) = true → t.flag (Fld.JBUS_STREAM_fault j) = true) ∧
      (∃ more, t.crust.reports = s.crust.reports ++ more ∧ more.length = is.length) ∧
      t.ports = s.ports ∧ BlocksKept s t [0x26] ∧ t = { s with regs := t.regs, crust := t.crust } := by
  induction is generalizing s with
  | nil =>
    rw [ht]
    exact ⟨fun i hi => absurd hi List.not_mem_nil, fun _ _ h => h, ⟨[], (List.append_nil _).symm, rfl⟩, rfl, fun _ _ => rfl, rfl⟩
  | cons i is ih =>
    obtain ⟨r, hr⟩ := hrec i List.mem_cons_self
    have hi160 := hi i List.mem_cons_self
    obtain ⟨m, hm⟩ : ∃ m, m = s.faultStream i cause := ⟨_, rfl⟩
    obtain ⟨hset, -, -, hreports, hports, -, honly, hkept⟩ := s.faultStream_faults cause hr hi160 hm
    have hlayout : m.layout = s.layout := (congrArg State.layout honly :)
    have hrec' : ∀ j ∈ is, ∃ r, m.streamRec j = some r := fun j hj => by
      obtain ⟨q, hq⟩ := hrec j (List.mem_cons_of_mem _ hj)
      exact ⟨q, by rw [State.streamRec, State.recs, hlayout]; exact hq⟩
    obtain ⟨hall, hstay, ⟨more, hmore, hlen⟩, hports', hblocks, honly'⟩ :=
      ih hrec' (fun j hj => hi j (List.mem_cons_of_mem _ hj)) (ht.trans (by rw [List.foldl_cons, hm]))
    have hfirst : s.crust.reports ++ [(0x05, i)] = m.crust.reports := by rw [hreports]
    refine ⟨fun j hj => ?_, fun j hj hfault => hstay j hj ?_, ⟨(0x05, i) :: more, ?_, by simp [hlen]⟩, hports'.trans hports, ?_, ?_⟩
    · rcases List.mem_cons.mp hj with rfl | hj
      · exact ⟨hstay j hi160 hset, by rw [hmore, ← hfirst]; simp⟩
      · exact hall j hj
    · by_cases hij : j = i
      · rw [hij]
        exact hset
      · have hout : Reg.JBUS_STREAM j ∉ Reg.JBUS_STREAM i :: Reg.JBUS_FAULT_LAST :: Ev.JBUS_EVT_STATUS_stream_fault.regs := by
          rw [List.mem_cons, not_or]
          exact ⟨by simp only [Reg.JBUS_STREAM]; omega, jbusStream_not_mem (by decide)⟩
        rw [hkept.flag (by simp) hout]
        exact hfault
    · rw [hmore, ← hfirst, List.append_assoc]
      rfl
    · have hfirst : BlocksKept s m [0x26] := hkept.blocksKept (by
        simp only [Evt.regs, Ev.JBUS_EVT_STATUS_stream_fault, Reg.JBUS_STREAM, Reg.JBUS_FAULT_LAST, Reg.JBUS_EVT_STATUS, List.mem_cons,
          List.not_mem_nil, or_false]
        omega)
      exact fun a ha => (hblocks a ha).trans (hfirst a ha)
    · exact honly'.trans (congrArg (fun b : State => { b with regs := t.regs, crust := t.crust }) honly)

theorem Counted.faultStreams {m : State} {e : Evt} {is : List Nat} (cause : Nat) (hi : ∀ i ∈ is, i < 160) (hs : e.status < Reg.JBUS_STREAM 0)
    (hc : e.counter < Reg.JBUS_STREAM 0) (hs' : e.status ≠ Reg.JBUS_FAULT_LAST) (hc' : e.counter ≠ Reg.JBUS_FAULT_LAST)
    (hcount : e.status ≠ Ev.JBUS_EVT_STATUS_stream_fault.counter) (hstat : e.counter ≠ Ev.JBUS_EVT_STATUS_stream_fault.status)
    (hcounts : e.counter ≠ Ev.JBUS_EVT_STATUS_stream_fault.counter) {s : State} (h : Counted m s e) :
    Counted m (is.foldl (fun (a : State) i => a.faultStream i cause) s) e := by
  induction is generalizing s with
  | nil => exact h
  | cons i is ih =>
    have hi160 := hi i List.mem_cons_self
    exact ih (fun j hj => hi j (List.mem_cons_of_mem _ hj)) (h.faultStream i cause (jbusStream_apart hi160 hs).symm
      (jbusStream_apart hi160 hc).symm hs' hc' hcount hstat hcounts)

/-- The joint streams of a port that are not host-fed (R240). -/
def State.linkStreams (s : State) (port : Nat) : List Nat := (s.portStreams port [0, 1]).filter (fun i => !streamSim ((s.streamRec i).getD []))

/-- The streams among them that are not in fault. -/
def State.freshStreams (s : State) (port : Nat) : List Nat := (s.linkStreams port).filter (fun i => !s.flag (Fld.JBUS_STREAM_fault i))

/-- A port's link lost and counted, before the runs of its streams end. -/
def State.linkLost (s : State) (port : Nat) : State := (s.setFld (Fld.ETH_STATUS_link_up port) 0).event Ev.JBUS_EVT_STATUS_link_down

/-- The runs of served cycles of a port's streams ended. -/
def State.runsEnded (s : State) (port : Nat) : State :=
  (s.linkStreams port).foldl (fun (a : State) i => a.setStream i { a.stream i with servedRun := 0 }) (s.linkLost port)

theorem exec_ethLinkDown_joint {port : Nat} {s : State} (hlink : s.flag (Fld.ETH_STATUS_link_up port) = true) (hmode : s.portMode port = 1) :
    exec (.ethLinkDown port) s = .next (if (s.freshStreams port).isEmpty then
      (s.runsEnded port).report 0x05 ((s.linkStreams port).headD ((s.portStreams port [0, 1]).headD 0xFF))
      else (s.freshStreams port).foldl (fun (a : State) i => a.faultStream i 1) (s.runsEnded port)) := by
  change execEthLinkDown port s = _
  rw [execEthLinkDown, if_neg (by rw [hlink]; decide)]
  dsimp only
  rw [if_pos hmode]
  rfl

theorem ethStatus_blocks {port : Nat} (hport : port < 12) : ∀ a ∈ Reg.ETH_STATUS port :: Ev.JBUS_EVT_STATUS_link_down.regs, a / 65536 ∈ [0x24, 0x26] := by
  simp only [Evt.regs, Ev.JBUS_EVT_STATUS_link_down, Reg.ETH_STATUS, Reg.JBUS_EVT_STATUS, List.mem_cons, List.not_mem_nil, or_false]
  omega

theorem State.linkLost_moved (s : State) (port : Nat) : RegsMoved s (s.linkLost port) (Reg.ETH_STATUS port :: Ev.JBUS_EVT_STATUS_link_down.regs) :=
  (RegsMoved.setFld s 0 (by simp) (by simp)).append (l := [Reg.ETH_STATUS port]) (.event _ _)

section LinkLost
variable {port : Nat} {s : State} (hport : port < 12)
include hport

theorem ethStatus_not_event : Reg.ETH_STATUS port ∉ Ev.JBUS_EVT_STATUS_link_down.regs := by
  simp only [Evt.regs, Ev.JBUS_EVT_STATUS_link_down, Reg.ETH_STATUS, Reg.JBUS_EVT_STATUS, List.mem_cons, List.not_mem_nil, or_false]
  omega

theorem State.link_linkLost : (s.linkLost port).flag (Fld.ETH_STATUS_link_up port) = false := by
  rw [State.linkLost, (RegsMoved.event _ _).flag (by simp) (ethStatus_not_event hport)]
  exact State.flag_setFld_same s _ (by simp) rfl

theorem State.counted_linkLost : Counted s (s.linkLost port) Ev.JBUS_EVT_STATUS_link_down := by
  have hcount : Ev.JBUS_EVT_STATUS_link_down.counter ∉ [Reg.ETH_STATUS port] := by
    simp only [Ev.JBUS_EVT_STATUS_link_down, Reg.ETH_STATUS, List.mem_singleton]
    omega
  exact (RegsMoved.setFld s 0 (f := Fld.ETH_STATUS_link_up port) (l := [Reg.ETH_STATUS port]) (by simp) (by simp)).counted (by decide) (by decide) hcount

theorem ethLinkDown_alone (hlink : s.flag (Fld.ETH_STATUS_link_up port) = true) (hmode : s.portMode port = 1)
    (hnone : s.portStreams port [0, 1] = []) :
    ∃ t, exec (.ethLinkDown port) s = .next t ∧ t.flag (Fld.ETH_STATUS_link_up port) = false ∧
      Counted s t Ev.JBUS_EVT_STATUS_link_down ∧ RegsKept s t (Reg.ETH_STATUS port :: Ev.JBUS_EVT_STATUS_link_down.regs) ∧
      t.crust = { s.crust with reports := s.crust.reports ++ [(0x05, 0xFF)] } ∧ t = { s with regs := t.regs, crust := t.crust } := by
  have hmine : s.linkStreams port = [] := by rw [State.linkStreams, hnone, List.filter_nil]
  have hexec := exec_ethLinkDown_joint hlink hmode
  rw [State.freshStreams, State.runsEnded, hmine, hnone, List.filter_nil, List.isEmpty_nil, if_pos rfl, List.foldl_nil] at hexec
  have hmoved := s.linkLost_moved port
  have hdown := State.link_linkLost (s := s) hport
  have hcounted := State.counted_linkLost (s := s) hport
  generalize s.linkLost port = m at *
  refine ⟨_, hexec, hdown, hcounted, hmoved.kept.trans (.of_regs rfl _), ?_, ?_⟩
  · rw [← hmoved.crust]
    rfl
  · exact congrArg (fun b : State => { b with crust := (m.report 0x05 0xFF).crust }) hmoved.only

theorem ethLinkDown_faults (hlink : s.flag (Fld.ETH_STATUS_link_up port) = true) (hmode : s.portMode port = 1)
    (hi : ∀ i ∈ s.portStreams port [0, 1], i < 160) :
    ∃ t, exec (.ethLinkDown port) s = .next t ∧ t.flag (Fld.ETH_STATUS_link_up port) = false ∧
      Counted s t Ev.JBUS_EVT_STATUS_link_down ∧ s.crust.reports.length < t.crust.reports.length ∧
      (∀ i ∈ s.portStreams port [0, 1], streamSim ((s.streamRec i).getD []) = false →
        t.flag (Fld.JBUS_STREAM_fault i) = true ∧ (t.stream i).servedRun = 0 ∧
        (s.flag (Fld.JBUS_STREAM_fault i) = false → (0x05, i) ∈ t.crust.reports)) ∧
      BlocksKept s t [0x24, 0x26] ∧ t = { s with regs := t.regs, ports := t.ports, crust := t.crust } := by
  have hexec := exec_ethLinkDown_joint hlink hmode
  obtain ⟨m, hm⟩ : ∃ m, m = s.runsEnded port := ⟨_, rfl⟩
  obtain ⟨hruns, hended⟩ := State.foldl_setStream (fun x => { x with servedRun := 0 }) (s.linkStreams port) (s.linkLost port)
  change s.runsEnded port = _ at hended
  change ∀ P : StreamSt → Prop, (∀ x : StreamSt, P { x with servedRun := 0 }) → ∀ i ∈ s.linkStreams port, P ((s.runsEnded port).stream i) at hruns
  have hlost := s.linkLost_moved port
  have hregs : m.regs = (s.linkLost port).regs := hm ▸ (congrArg State.regs hended :)
  have hcrust : m.crust = s.crust := (hm ▸ (congrArg State.crust hended :) : m.crust = (s.linkLost port).crust).trans hlost.crust
  have honly : m = { s with regs := m.regs, ports := m.ports } := by
    rw [hregs, hm]
    exact hended.trans (congrArg (fun b : State => { b with ports := (s.runsEnded port).ports }) hlost.only)
  have hkept : RegsKept s m (Reg.ETH_STATUS port :: Ev.JBUS_EVT_STATUS_link_down.regs) := hlost.kept.trans (.of_regs hregs _)
  have hcounted : Counted s m Ev.JBUS_EVT_STATUS_link_down := (State.counted_linkLost hport).of_regsKept (.of_regs hregs []) (by simp) (by simp)
  have hdown : m.flag (Fld.ETH_STATUS_link_up port) = false := by
    rw [State.flag, State.fld_congr hregs]
    exact State.link_linkLost hport
  have hmine : ∀ i ∈ s.portStreams port [0, 1], streamSim ((s.streamRec i).getD []) = false → i ∈ s.linkStreams port :=
    fun i hmem hsim => List.mem_filter.mpr ⟨hmem, by rw [hsim]; rfl⟩
  have hserved : ∀ i ∈ s.linkStreams port, (m.stream i).servedRun = 0 := hm ▸ hruns (fun x => x.servedRun = 0) (fun _ => rfl)
  have hfault : ∀ i, i < 160 → m.flag (Fld.JBUS_STREAM_fault i) = s.flag (Fld.JBUS_STREAM_fault i) := fun i hi160 => by
    refine hkept.flag (by simp) ?_
    rw [List.mem_cons, not_or]
    refine ⟨?_, jbusStream_not_mem (by decide)⟩
    simp only [Reg.JBUS_STREAM, Reg.ETH_STATUS]
    omega
  have hfresh : ∀ i ∈ s.linkStreams port, s.flag (Fld.JBUS_STREAM_fault i) = false → i ∈ s.freshStreams port :=
    fun i hmem hclear => List.mem_filter.mpr ⟨hmem, by rw [hclear]; rfl⟩
  have hblocks := hkept.blocksKept (ethStatus_blocks hport)
  rw [← hm] at hexec
  by_cases hempty : s.freshStreams port = []
  · rw [hempty, List.isEmpty_nil, if_pos rfl] at hexec
    refine ⟨_, hexec, hdown, hcounted, ?_, fun i hmem hsim => ?_, hblocks, ?_⟩
    · rw [State.reports_report, List.length_append, hcrust]
      exact Nat.lt_succ_self _
    · have hstays : s.flag (Fld.JBUS_STREAM_fault i) = true := by
        by_contra hclear
        have := hfresh i (hmine i hmem hsim) (Bool.eq_false_iff.mpr hclear)
        rw [hempty] at this
        exact absurd this List.not_mem_nil
      exact ⟨(hfault i (hi i hmem)).trans hstays, hserved i (hmine i hmem hsim), fun hclear => absurd (hstays.symm.trans hclear) nofun⟩
    · obtain ⟨c, hc⟩ : ∃ c, c = (m.report 0x05 ((s.linkStreams port).headD ((s.portStreams port [0, 1]).headD 0xFF))).crust := ⟨_, rfl⟩
      have hreport : m.report 0x05 ((s.linkStreams port).headD ((s.portStreams port [0, 1]).headD 0xFF)) = { m with crust := c } := hc ▸ rfl
      rw [hreport]
      exact congrArg (fun b : State => { b with crust := c }) honly
  · rw [if_neg (by rw [List.isEmpty_iff]; exact hempty)] at hexec
    obtain ⟨t, ht⟩ : ∃ t, t = (s.freshStreams port).foldl (fun (a : State) i => a.faultStream i 1) m := ⟨_, rfl⟩
    have hmem : ∀ i ∈ s.freshStreams port, i ∈ s.portStreams port [0, 1] := fun i hi =>
      (List.mem_filter.mp (List.mem_filter.mp hi).1).1
    have hrec : ∀ i ∈ s.freshStreams port, ∃ r, m.streamRec i = some r := fun i hi => by
      rw [State.streamRec, State.recs, show m.layout = s.layout from (congrArg State.layout honly :)]
      exact State.streamRec_of_mem_portStreams (hmem i hi)
    obtain ⟨hall, hstay, ⟨more, hmore, hlen⟩, hports, hkept', honly'⟩ := State.faultStreams_fault 1 hrec (fun i h => hi i (hmem i h)) ht
    have hstatus : Reg.ETH_STATUS port / 65536 ∉ [0x26] := by
      simp only [Reg.ETH_STATUS, List.mem_singleton]
      omega
    have hlink' : t.flag (Fld.ETH_STATUS_link_up port) = m.flag (Fld.ETH_STATUS_link_up port) := by
      rw [State.flag, State.flag, State.fld_of_reg (by simp) (hkept' _ hstatus)]
    rw [← ht] at hexec
    refine ⟨t, hexec, hlink'.trans hdown, ?_, ?_, fun i hin hsim => ⟨?_, ?_, ?_⟩, ?_, ?_⟩
    · rw [ht]
      exact hcounted.faultStreams 1 (fun i h => hi i (hmem i h)) (by decide) (by decide) (by decide) (by decide) (by decide) (by decide) (by decide)
    · rw [hmore, List.length_append, hlen, hcrust]
      have := List.length_pos_iff.mpr hempty
      omega
    · cases hclear : s.flag (Fld.JBUS_STREAM_fault i) with
      | false => exact (hall i (hfresh i (hmine i hin hsim) hclear)).1
      | true => exact hstay i (hi i hin) ((hfault i (hi i hin)).trans hclear)
    · rw [State.stream_congr hports]
      exact hserved i (hmine i hin hsim)
    · exact fun hclear => (hall i (hfresh i (hmine i hin hsim) hclear)).2
    · exact fun a ha => (hkept' a fun h => ha (List.mem_cons_of_mem _ h)).trans (hblocks a ha)
    · rw [hports]
      exact honly'.trans (congrArg (fun b : State => { b with regs := t.regs, crust := t.crust }) honly)

end LinkLost

/-- Settles O38: a frame is noted and handed on (`State.notePtp_moves`, `State.publishEntry_publishes`), and a link lost faults its port's
streams one by one (`State.faultStreams_fault`). -/
theorem ethernetPorts : Obligations.EthernetPorts := by
  unfold Obligations.EthernetPorts
  refine ⟨fun _ _ _ s hport hopen hjoint hlink htype => ethFrameReceive_joint hport hopen (by omega) hlink hjoint htype,
    fun _ _ _ s hport hopen hmode hlink => ethFrameReceive_firmware hport hopen hmode hlink,
    fun _ _ _ _ _ _ s hport hopen hsensor hlink hptp hstream hrec hroom hwrite =>
      ethFrameReceive_sensor hport hopen (by omega) hlink hsensor hptp hstream hrec hroom hwrite,
    fun _ _ _ _ => ethFrameReceive_of_down,
    fun _ _ _ s hport hopen hmode hlink => ethFrameTransmit_sends hport hopen hmode hlink,
    fun _ _ _ _ => ethCtrlWrite_sets, fun _ _ _ _ => ethCtrlWrite_keeps, fun _ s hport => ethLinkDown_alone hport,
    fun _ s hport => ethLinkDown_faults hport, fun _ _ _ _ => ethLinkUp_links⟩

end Sys2Proof.Machine
end

section
/-! Camera frames and host-fed entries (chapter 13). -/

namespace Sys2Proof.Machine

/-! ### A write through translation does not read the ports (R180 to R186) -/

/-- The state with other registers and other ports. -/
def State.withPorts (s : State) (regs : Sparse Word) (ports : PortsSt) : State := { s with regs := regs, ports := ports }

section WithPorts
variable {regs : Sparse Word} {ports : PortsSt}

theorem State.putVa_withPorts (bs : Bytes) (s : State) (who : Master) (acc : Access) (ctx va : Nat) :
    (s.withPorts regs ports).putVa who acc ctx va bs = (s.putVa who acc ctx va bs).withPorts regs ports := by
  induction bs generalizing s va with
  | nil => rfl
  | cons b bs ih =>
    have htranslate : (s.withPorts regs ports).translate who acc ctx va = s.translate who acc ctx va := rfl
    rw [State.putVa, State.putVa, htranslate]
    split
    next p _ => exact ih (s.setByte p b) (va + 1)
    next a _ =>
      have hput : (s.withPorts regs ports).flashPut a b = (s.flashPut a b).withPorts regs ports := by
        unfold State.flashPut
        by_cases hbad : s.flash.bad.contains (a / 4096) = true
        · rw [if_pos (show (s.withPorts regs ports).flash.bad.contains (a / 4096) = true from hbad), if_pos hbad]
          rfl
        · rw [if_neg (show ¬(s.withPorts regs ports).flash.bad.contains (a / 4096) = true from hbad), if_neg hbad]
          rfl
      rw [hput]
      exact ih (s.flashPut a b) (va + 1)
    next => exact ih s (va + 1)

theorem State.writeVa_withPorts {s m : State} {who : Master} {acc : Access} {ctx va : Nat} {bs : Bytes}
    (hmode : (s.withPorts regs ports).fld Fld.FTL_STATUS_mode = s.fld Fld.FTL_STATUS_mode) (h : s.writeVa who acc ctx va bs = .ok m) :
    (s.withPorts regs ports).writeVa who acc ctx va bs = .ok (m.withPorts regs ports) := by
  have hfault : ∀ n va, (s.withPorts regs ports).writeFault who acc ctx va n = s.writeFault who acc ctx va n := by
    intro n
    induction n with
    | zero => exact fun _ => rfl
    | succ n ih =>
      intro va
      have htranslate : (s.withPorts regs ports).translate who acc ctx va = s.translate who acc ctx va := rfl
      have hwritable : (s.withPorts regs ports).flashWritable = s.flashWritable := by
        rw [State.flashWritable, State.flashWritable, hmode]
      rw [State.writeFault, State.writeFault, htranslate, hwritable]
      simp only [ih]
  unfold State.writeVa at h ⊢
  rw [hfault, State.putVa_withPorts]
  cases hcase : s.writeFault who acc ctx va bs.length with
  | some e =>
    rw [hcase] at h
    cases h
  | none =>
    rw [hcase] at h
    cases h
    rfl

end WithPorts

/-! ### The frame in progress (R242) -/

section Cams
variable (s : State) (port vc : Nat) (x : Option CamFrame)

theorem State.camFrame_setCam : (s.setCam port vc x).camFrame port vc = x := by
  rw [State.camFrame, State.setCam, State.setFld_ports]
  exact Sparse.get_put_same

theorem State.busy_setCam (hvc : vc < 4) : bit ((s.setCam port vc x).fld (Fld.CSI_STATUS_vc_busy port)) vc = x.isSome := by
  rw [State.setCam, State.fld_setFld_same _ _ (by simp), bit, Nat.testBit_mod_two_pow, testBit_setBits]
  cases x <;> simp [hvc, b2n]

theorem State.frames_setCam : (s.setCam port vc x).fld (Fld.CSI_STATUS_frames port) = s.fld (Fld.CSI_STATUS_frames port) := by
  rw [State.setCam, State.fld_setFld_ne _ _ (by simp) (by simp) (by simp)]
  exact State.fld_congr rfl _

theorem State.setCam_moves {t : State} (ht : t = s.setCam port vc x) : t.ports = { s.ports with cams := t.ports.cams } ∧
    RegsKept s t [Reg.CSI_STATUS port] ∧ t = { s with ports := t.ports, regs := t.regs } := by
  obtain ⟨m, hm⟩ : ∃ m : State, m = { s with ports := { s.ports with cams := Sparse.put (fun _ => none) s.ports.cams (4 * port + vc) x } } := ⟨_, rfl⟩
  have hset : RegsMoved m t [Reg.CSI_STATUS port] := by
    rw [ht, State.setCam, ← hm]
    exact .setFld m _ (by simp) (by simp)
  refine ⟨?_, (RegsKept.of_regs (hm ▸ rfl) _).trans hset.kept, hset.only_ports (hm ▸ rfl)⟩
  rw [hset.ports, hm]

end Cams

theorem csiStatus_not_event {port : Nat} (hport : port < 4) {l : List Nat} (hl : ∀ a ∈ l, Reg.CSI_EVT_STATUS ≤ a) : Reg.CSI_STATUS port ∉ l :=
  fun h => by
    have := hl _ h
    simp only [Reg.CSI_STATUS, Reg.CSI_EVT_STATUS] at this
    omega

theorem csiEvent_not_status {port a : Nat} (hport : port < 4) (ha : Reg.CSI_EVT_STATUS ≤ a) : a ∉ [Reg.CSI_STATUS port] := by
  simp only [Reg.CSI_STATUS, Reg.CSI_EVT_STATUS, List.mem_singleton] at *
  omega

/-- What a receiver that is ready lets through. -/
theorem csiGuard {port vc : Nat} {s : State} (h : csiReady s port vc = true) :
    port < 4 ∧ vc < 4 ∧ ¬(4 ≤ port ∨ 4 ≤ vc ∨ s.blkOpen 0 0x25 = false ∨ s.flag (Fld.CSI_CTRL_en port) = false ∨
      s.fld (Fld.CSI_CTRL_lanes port) = 3) := by
  simp only [csiReady, Bool.and_eq_true, decide_eq_true_eq, bne_iff_ne] at h
  obtain ⟨⟨⟨⟨hport, hvc⟩, hopen⟩, hen⟩, hlanes⟩ := h
  refine ⟨hport, hvc, ?_⟩
  rw [hopen, hen]
  simp [hlanes]
  omega

/-- The state after a packet's header has been counted where it was corrected. -/
def State.headerCounted (s : State) (hdr : Bool) : State := s.eventIf hdr Ev.CSI_EVT_STATUS_hdr_corr

section Counts
variable (s : State) (hdr : Bool) {port : Nat} (hport : port < 4)

theorem State.headerCounted_moved : RegsMoved s (s.headerCounted hdr) Ev.CSI_EVT_STATUS_hdr_corr.regs := .eventIf s hdr _

theorem State.counted_headerCounted (h : hdr = true) : Counted s (s.headerCounted hdr) Ev.CSI_EVT_STATUS_hdr_corr := by
  rw [h]
  exact counted_event s (by decide) (by decide)

theorem State.camFrame_congr {s t : State} (h : t.ports = s.ports) (port vc : Nat) : t.camFrame port vc = s.camFrame port vc := by
  rw [State.camFrame, State.camFrame, h]

theorem State.cameraStream_congr {s t : State} (h : t.layout = s.layout) (port vc dt : Nat) : t.cameraStream port vc dt = s.cameraStream port vc dt := by
  have hrecs : ∀ k, t.recs k = s.recs k := fun k => by rw [State.recs, State.recs, h]
  have hstreams : ∀ ks, t.portStreams port ks = s.portStreams port ks := fun ks => by rw [State.portStreams, State.portStreams, hrecs]
  have hrec : ∀ i, t.streamRec i = s.streamRec i := fun i => by rw [State.streamRec, State.streamRec, hrecs]
  rw [State.cameraStream, State.cameraStream, hstreams]
  simp only [hrec]

end Counts

theorem csiFrameReceive_unmatched {port vc number ago own dt : Nat} {data : Bytes} {crc : Bool} {s : State} (hready : csiReady s port vc = true)
    (hnone : s.cameraStream port vc dt = none) :
    ∃ t, exec (.csiFrameReceive port vc .packet number ago own dt data false crc) s = .next t ∧
      Counted s t Ev.CSI_EVT_STATUS_unmatched ∧ RegsKept s t Ev.CSI_EVT_STATUS_unmatched.regs ∧ t = { s with regs := t.regs } := by
  obtain ⟨-, -, hguard⟩ := csiGuard hready
  have hexec : exec (.csiFrameReceive port vc .packet number ago own dt data false crc) s = .next (s.event Ev.CSI_EVT_STATUS_unmatched) := by
    change execCsiFrameReceive port vc .packet number ago own dt data false crc s = _
    rw [execCsiFrameReceive, if_neg hguard]
    dsimp only
    rw [Bool.false_and, State.eventIf_false, State.csiPayload, hnone, Option.isNone_none, if_pos rfl]
  have hmoved := RegsMoved.event s Ev.CSI_EVT_STATUS_unmatched
  exact ⟨_, hexec, counted_event s (by decide) (by decide), hmoved.kept, hmoved.only⟩

theorem csiFrameReceive_joins {port vc number ago own dt i : Nat} {data : Bytes} {crc : Bool} {x : CamFrame} {s : State}
    (hready : csiReady s port vc = true) (hstream : s.cameraStream port vc dt = some i) (hframe : s.camFrame port vc = some x) :
    ∃ t, exec (.csiFrameReceive port vc .packet number ago own dt data true crc) s = .next t ∧
      t.camFrame port vc = some (x.add dt data (!crc)) ∧ Counted s t Ev.CSI_EVT_STATUS_hdr_corr ∧ t.ports.streams = s.ports.streams ∧
      RegsKept s t (Reg.CSI_STATUS port :: Ev.CSI_EVT_STATUS_hdr_corr.regs) ∧ t = { s with ports := t.ports, regs := t.regs } := by
  obtain ⟨hport, -, hguard⟩ := csiGuard hready
  obtain ⟨m, hm⟩ : ∃ m, m = s.headerCounted true := ⟨_, rfl⟩
  have hmoved := s.headerCounted_moved true
  have hcounted := s.counted_headerCounted true rfl
  rw [← hm] at hmoved hcounted
  obtain ⟨t, ht⟩ : ∃ t, t = m.setCam port vc (some (x.add dt data (!crc))) := ⟨_, rfl⟩
  have hlayout : m.layout = s.layout := (congrArg State.layout hmoved.only :)
  have hexec : exec (.csiFrameReceive port vc .packet number ago own dt data true crc) s = .next t := by
    have hkind : (true && CsiKind.packet != CsiKind.badHeader) = true := rfl
    change execCsiFrameReceive port vc .packet number ago own dt data true crc s = _
    rw [execCsiFrameReceive, if_neg hguard]
    dsimp only
    rw [hkind, ← State.headerCounted, ← hm, State.csiPayload, State.cameraStream_congr hlayout, hstream,
      State.camFrame_congr hmoved.ports, hframe, ht]
    rfl
  obtain ⟨hports, hkept, honly⟩ := m.setCam_moves port vc _ ht
  refine ⟨t, hexec, ht ▸ m.camFrame_setCam port vc _, ?_, ?_, ?_, ?_⟩
  · exact hcounted.of_regsKept hkept (csiEvent_not_status hport (by decide)) (csiEvent_not_status hport (by decide))
  · rw [hports, hmoved.ports]
  · exact (hmoved.kept.mono (List.subset_cons_self _ _)).trans (hkept.mono (by simp))
  · exact honly.trans (congrArg (fun b : State => { b with ports := t.ports, regs := t.regs }) hmoved.only)

/-! ### Frame starts (R227) -/

theorem State.exposureStamp_headerCounted (s : State) (hdr : Bool) {port vc : Nat} (hport : port < 4) (hvc : vc < 4) (capture : Int) :
    (s.headerCounted hdr).exposureStamp port vc capture = s.exposureStamp port vc capture := by
  have hout : (Fld.TIME_CSI_OFS_ns port vc).addr ∉ Ev.CSI_EVT_STATUS_hdr_corr.regs := by
    simp only [Evt.regs, Ev.CSI_EVT_STATUS_hdr_corr, Reg.TIME_CSI_OFS, Reg.CSI_EVT_STATUS, List.mem_cons, List.not_mem_nil, or_false]
    omega
  rw [State.exposureStamp, State.exposureStamp, (s.headerCounted_moved hdr).fld (by simp) hout]

theorem csiFrameReceive_starts {port vc number ago own dt : Nat} {data : Bytes} {hdr crc : Bool} {s : State} (hready : csiReady s port vc = true)
    (hidle : s.camFrame port vc = none) :
    ∃ t, exec (.csiFrameReceive port vc .start number ago own dt data hdr crc) s = .next t ∧
      t.camFrame port vc = some ⟨number, s.capture ago, s.exposureStamp port vc (s.capture ago), own, false, []⟩ ∧
      bit (t.fld (Fld.CSI_STATUS_vc_busy port)) vc = true ∧
      Sparse.get (fun _ => 0) t.ports.exposure (4 * port + vc) = s.exposureStamp port vc (s.capture ago) ∧
      RegsKept s t (Reg.CSI_STATUS port :: Ev.CSI_EVT_STATUS_hdr_corr.regs) ∧ (hdr = true → Counted s t Ev.CSI_EVT_STATUS_hdr_corr) ∧
      (hdr = false → RegsKept s t [Reg.CSI_STATUS port]) ∧ t.ports.streams = s.ports.streams ∧
      t = { s with ports := t.ports, regs := t.regs } := by
  obtain ⟨hport, hvc, hguard⟩ := csiGuard hready
  obtain ⟨stamp, hstamp⟩ : ∃ stamp, stamp = s.exposureStamp port vc (s.capture ago) := ⟨_, rfl⟩
  obtain ⟨m, hm⟩ : ∃ m, m = s.headerCounted hdr := ⟨_, rfl⟩
  have hmoved := s.headerCounted_moved hdr
  have hcapture : m.capture ago = s.capture ago := by
    rw [hm, (s.headerCounted_moved hdr).only]
    rfl
  have hstamp' : m.exposureStamp port vc (s.capture ago) = stamp := by
    rw [hm, hstamp]
    exact s.exposureStamp_headerCounted hdr hport hvc _
  have hcounted := s.counted_headerCounted hdr
  rw [← hm] at hmoved hcounted
  obtain ⟨u, hu⟩ : ∃ u, u = m.setCam port vc (some ⟨number, s.capture ago, stamp, own, false, []⟩) := ⟨_, rfl⟩
  have hidle' : m.camFrame port vc = none := (State.camFrame_congr hmoved.ports port vc).trans hidle
  have hexec : exec (.csiFrameReceive port vc .start number ago own dt data hdr crc) s = .next (u.noteExposure port vc stamp) := by
    have hkind : (hdr && CsiKind.start != CsiKind.badHeader) = hdr := Bool.and_true hdr
    change execCsiFrameReceive port vc .start number ago own dt data hdr crc s = _
    rw [execCsiFrameReceive, if_neg hguard]
    dsimp only
    rw [hkind, ← State.headerCounted, ← hm, State.csiStart]
    rw [hcapture, hstamp', State.endCamera, hidle', hu]
  obtain ⟨hports, hkept, honly⟩ := m.setCam_moves port vc _ hu
  rw [← hstamp]
  refine ⟨_, hexec, ?_, ?_, ?_, ?_, fun hdr' => ?_, fun hdr' => ?_, ?_, ?_⟩
  · change u.camFrame port vc = _
    rw [hu]
    exact m.camFrame_setCam port vc _
  · change bit (u.fld (Fld.CSI_STATUS_vc_busy port)) vc = true
    rw [hu]
    exact m.busy_setCam port vc _ hvc
  · exact Sparse.get_put_same
  · exact ((hmoved.kept.mono (List.subset_cons_self _ _)).trans (hkept.mono (by simp))).trans (.of_regs rfl _)
  · exact (hcounted hdr').of_regsKept (hkept.trans (.of_regs rfl _)) (csiEvent_not_status hport (by decide))
      (csiEvent_not_status hport (by decide))
  · have hsame : m = s := by
      rw [hm, hdr', State.headerCounted, State.eventIf_false]
    rw [← hsame]
    exact hkept.trans (.of_regs rfl _)
  · change u.ports.streams = s.ports.streams
    rw [hports, hmoved.ports]
  · exact congrArg (fun b : State => { b with ports := (u.noteExposure port vc stamp).ports })
      (honly.trans (congrArg (fun b : State => { b with ports := u.ports, regs := u.regs }) hmoved.only))

/-! ### Frame ends (R242) -/

/-- The state of a channel whose frame without errors has ended, before its entry is published. -/
def State.frameEnded (s : State) (port vc : Nat) : State :=
  (s.setCam port vc none).setFld (Fld.CSI_STATUS_frames port) ((s.setCam port vc none).fld (Fld.CSI_STATUS_frames port) + 1)

theorem State.frameEnded_moves (s : State) (port : Nat) {vc : Nat} (hvc : vc < 4) {t : State} (ht : t = s.frameEnded port vc) :
    t.ports = { s.ports with cams := t.ports.cams } ∧ t.camFrame port vc = none ∧ bit (t.fld (Fld.CSI_STATUS_vc_busy port)) vc = false ∧
      t.fld (Fld.CSI_STATUS_frames port) = (s.fld (Fld.CSI_STATUS_frames port) + 1) % 65536 ∧
      RegsKept s t [Reg.CSI_STATUS port] ∧ t = { s with ports := t.ports, regs := t.regs } := by
  obtain ⟨m, hm⟩ : ∃ m, m = s.setCam port vc none := ⟨_, rfl⟩
  obtain ⟨hports, hkept, honly⟩ := s.setCam_moves port vc none hm
  have hframes : m.fld (Fld.CSI_STATUS_frames port) = s.fld (Fld.CSI_STATUS_frames port) := hm ▸ s.frames_setCam port vc none
  have hbusy : bit (m.fld (Fld.CSI_STATUS_vc_busy port)) vc = false := hm ▸ s.busy_setCam port vc none hvc
  rw [State.frameEnded, ← hm] at ht
  have hset : RegsMoved m t [Reg.CSI_STATUS port] := ht ▸ .setFld m _ (by simp) (by simp)
  refine ⟨?_, ?_, ?_, ?_, hkept.trans hset.kept, hset.only.trans ?_⟩
  · rw [hset.ports]
    exact hports
  · rw [State.camFrame_congr hset.ports, hm]
    exact s.camFrame_setCam port vc none
  · rw [ht, State.fld_setFld_ne _ _ (by simp) (by simp) (by simp)]
    exact hbusy
  · rw [ht, State.fld_setFld_same _ _ (by simp), hframes]
    rfl
  · rw [hset.ports]
    exact congrArg (fun b : State => { b with regs := t.regs }) honly

theorem State.cameraEntries_single {s : State} {port vc dt i : Nat} {data : Bytes} {x : CamFrame} (herr : x.err = false) (hdata : x.data = [(dt, data)])
    (hstream : s.cameraStream port vc dt = some i) : s.cameraEntries port vc x = [(i, data)] := by
  simp [State.cameraEntries, herr, hdata, hstream]

theorem csiFrameReceive_publishes {port vc number ago own dt dt' i : Nat} {data bs r : Bytes} {hdr crc isOwn : Bool} {x : CamFrame} {m s : State}
    (hready : csiReady s port vc = true) (hframe : s.camFrame port vc = some x) (hdata : x.data = [(dt, data)]) (herr : x.err = false)
    (hstream : s.cameraStream port vc dt = some i) (hrec : s.streamRec i = some r) (hsafety : s.streamSafety i = none)
    (hisOwn : isOwn = bit (fieldAt r 0x23 1) 0) (hroom : data.length + 64 ≤ fieldAt r 0x24 4)
    (hwrite : s.writeVa (.engine 0) .engineWrite (fieldAt r 0 1) (ringEntry r ((s.stream i).pubs + 1))
      (headBytes ((s.stream i).pubs + 1) data.length false ⟨ofSigned 64 (x.capture / 65536),
        if isOwn then x.own % 2 ^ 32 else x.exposure, x.number % 65536, false, false, isOwn, 0⟩ ++ data)
      = .ok m) :
    ∃ t, exec (.csiFrameReceive port vc .finish number ago own dt' bs hdr crc) s = .next t ∧ t.phys = m.phys ∧
      (t.stream i).pubs = (s.stream i).pubs + 1 ∧ t.camFrame port vc = none ∧ bit (t.fld (Fld.CSI_STATUS_vc_busy port)) vc = false ∧
      t.fld (Fld.CSI_STATUS_frames port) = (s.fld (Fld.CSI_STATUS_frames port) + 1) % 65536 ∧
     BlocksKept s t [0x25, 0x145] ∧ (∀ j, j ≠ i → t.stream j = s.stream j) ∧
     t = { m with regs := t.regs, msix := t.msix, msixPending := t.msixPending, ports := t.ports, syncs := t.syncs } := by
  obtain ⟨hport, hvc, hguard⟩ := csiGuard hready
  obtain ⟨h, hh⟩ : ∃ h : EntryHead, h = ⟨ofSigned 64 (x.capture / 65536), if isOwn then x.own % 2 ^ 32 else x.exposure, x.number % 65536,
    false, false, isOwn, 0⟩ := ⟨_, rfl⟩
  obtain ⟨c, hc⟩ : ∃ c, c = s.headerCounted hdr := ⟨_, rfl⟩
  obtain ⟨u, hu⟩ : ∃ u, u = c.frameEnded port vc := ⟨_, rfl⟩
  obtain ⟨t, ht⟩ : ∃ t, t = u.publishEntry i r h data := ⟨_, rfl⟩
  have hmoved := s.headerCounted_moved hdr
  rw [← hc] at hmoved
  obtain ⟨hports, hnone, hbusy, hframes, hkept, honly⟩ := c.frameEnded_moves port hvc hu
  have honly' : u = s.withPorts u.regs u.ports :=
    honly.trans (congrArg (fun b : State => { b with ports := u.ports, regs := u.regs }) hmoved.only)
  have hkept' : RegsKept s u (Reg.CSI_STATUS port :: Ev.CSI_EVT_STATUS_hdr_corr.regs) :=
    (hmoved.kept.mono (List.subset_cons_self _ _)).trans (hkept.mono (by simp))
  have hblocks : ∀ a ∈ Reg.CSI_STATUS port :: Ev.CSI_EVT_STATUS_hdr_corr.regs, a / 65536 ∈ [0x25, 0x145] := by
    simp only [Evt.regs, Ev.CSI_EVT_STATUS_hdr_corr, Reg.CSI_STATUS, Reg.CSI_EVT_STATUS, List.mem_cons, List.not_mem_nil, or_false]
    omega
  have hrec' : u.streamRec i = some r := by
    rw [honly']
    exact hrec
  have hstreams : ∀ j, u.stream j = s.stream j := fun j => by
    rw [State.stream, State.stream, hports, hmoved.ports]
  have hctrl : u.fld Fld.FTL_STATUS_mode = s.fld Fld.FTL_STATUS_mode := hkept'.fld (by decide) (by
    simp only [Evt.regs, Ev.CSI_EVT_STATUS_hdr_corr, Reg.CSI_STATUS, Reg.CSI_EVT_STATUS, Reg.FTL_STATUS, List.mem_cons, List.not_mem_nil, or_false]
    omega)
  have hwrite' := State.writeVa_withPorts (regs := u.regs) (ports := u.ports) (by rw [← honly']; exact hctrl) hwrite
  rw [← honly', ← hh, ← hstreams i] at hwrite'
  obtain ⟨hphys, hthis, hother, hports', hsync, hmoves⟩ := State.publishEntry_publishes hroom (by rw [hh]) hwrite' ht
  have hsafety' : t.streamSafety i = none := by
    rw [hmoves, State.writeVa_only hwrite]
    exact hsafety
  have hexec : exec (.csiFrameReceive port vc .finish number ago own dt' bs hdr crc) s = .next t := by
    have hkind : (hdr && CsiKind.finish != CsiKind.badHeader) = hdr := Bool.and_true hdr
    have hlayout : c.layout = s.layout := (congrArg State.layout hmoved.only :)
    change execCsiFrameReceive port vc .finish number ago own dt' bs hdr crc s = _
    rw [execCsiFrameReceive, if_neg hguard]
    dsimp only
    rw [hkind, ← State.headerCounted, ← hc, State.endCamera, State.camFrame_congr hmoved.ports, hframe]
    dsimp only
    rw [State.cameraEntries_single herr hdata ((State.cameraStream_congr hlayout port vc dt).trans hstream), herr]
    simp only [List.foldl_cons, List.foldl_nil, Bool.false_and, State.cameraEvents, State.eventIf_false]
    rw [← State.frameEnded, ← hu, State.publishCamera]
    rw [hrec', Option.getD_some, ← hisOwn, ← hh, ← ht, State.crustCamera, hsafety']
  have hout : Reg.CSI_STATUS port ∉ Ev.HQ_EVT_STATUS_sync_overflow.regs := by
    simp only [Evt.regs, Ev.HQ_EVT_STATUS_sync_overflow, Reg.CSI_STATUS, Reg.HQ_EVT_STATUS, List.mem_cons, List.not_mem_nil, or_false]
    omega
  refine ⟨t, hexec, hphys, by rw [hthis, hstreams], ?_, ?_, ?_, ?_, fun j hj => (hother j hj).trans (hstreams j), hmoves⟩
  · rw [State.camFrame, hports']
    exact hnone
  · rw [hsync.fld (by simp) hout]
    exact hbusy
  · rw [hsync.fld (by simp) hout, hframes, hmoved.fld (by simp) (csiStatus_not_event hport (by decide))]
  · exact fun a ha => ((hsync.blocksKept syncOverflow_blocks) a fun h => ha (List.mem_cons_of_mem _ h)).trans (hkept'.blocksKept hblocks a ha)

/-! ### Host-fed entries (R243) -/

theorem simEntryRelease_publishes {i : Nat} {r e : Bytes} {m s : State} (hrec : s.streamRec i = some r) (hsim : streamSim r = true)
    (hkind : streamKind r = 2) (hopen : s.blkOpen 0 0x26 = true)
    (hread : s.readVa (.engine 0) (fieldAt r 0 1) (ringEntry r ((s.stream i).pubs + 1)) (fieldAt r 0x24 4) = .ok e)
    (hpending : fieldAt e 0 4 = 1) (hdue : fieldAt e 0x20 8 ≤ s.now) (hroom : fieldAt e 4 4 + 64 ≤ fieldAt r 0x24 4)
    (hwrite : s.writeVa (.engine 0) .engineWrite (fieldAt r 0 1) (ringEntry r ((s.stream i).pubs + 1))
      (headBytes ((s.stream i).pubs + 1) (fieldAt e 4 4) false
        ⟨(s.simTime (fieldAt e 0x20 8) / 65536).toNat, 0, 0, false, false, false, fieldAt e 0x20 8⟩ ++
        slice e 0x40 (fieldAt e 4 4)) = .ok m) :
    ∃ t, exec (.simEntryRelease i) s = .next t ∧ t.phys = m.phys ∧ (t.stream i).pubs = (s.stream i).pubs + 1 ∧
      (∀ j, j ≠ i → t.stream j = s.stream j) ∧
     BlocksKept s t [0x145] ∧ t = { m with regs := t.regs, msix := t.msix, msixPending := t.msixPending, ports := t.ports, syncs := t.syncs } := by
  obtain ⟨h, hh⟩ : ∃ h : EntryHead, h = ⟨(s.simTime (fieldAt e 0x20 8) / 65536).toNat, 0, 0, false, false, false, fieldAt e 0x20 8⟩ := ⟨_, rfl⟩
  obtain ⟨data, hdata⟩ : ∃ data, data = slice e 0x40 (fieldAt e 4 4) := ⟨_, rfl⟩
  obtain ⟨t, ht⟩ : ∃ t, t = s.publishEntry i r h data := ⟨_, rfl⟩
  have hlen : data.length = fieldAt e 4 4 := hdata ▸ length_slice ..
  have hexec : exec (.simEntryRelease i) s = .next t := by
    change execSimEntryRelease i s = _
    rw [execSimEntryRelease, hrec]
    dsimp only
    rw [if_neg (by rw [hsim, hkind, hopen]; decide), hread]
    dsimp only
    rw [if_neg (by omega), State.simEntry]
    dsimp only
    rw [if_neg (by omega), if_neg (by omega), decide_eq_false (by omega), Nat.min_eq_left (by omega), ← hh, ← hdata, ht]
  rw [← hh, ← hdata, ← hlen] at hwrite
  obtain ⟨hphys, hthis, hother, -, hkept, honly⟩ := State.publishEntry_publishes (by omega) (by rw [hh]) hwrite ht
  exact ⟨t, hexec, hphys, by rw [hthis], hother, hkept.blocksKept syncOverflow_blocks, honly⟩

theorem simEntryRelease_waits {i : Nat} {r e : Bytes} {s : State} (hrec : s.streamRec i = some r) (hsim : streamSim r = true)
    (hkind : streamKind r ≠ 0) (hopen : s.blkOpen 0 0x26 = true)
    (hread : s.readVa (.engine 0) (fieldAt r 0 1) (ringEntry r ((s.stream i).pubs + 1)) (fieldAt r 0x24 4) = .ok e)
    (hwaits : fieldAt e 0 4 ≠ 1 ∨ s.now < fieldAt e 0x20 8) : exec (.simEntryRelease i) s = .next s := by
  change execSimEntryRelease i s = _
  rw [execSimEntryRelease, hrec]
  dsimp only
  rw [if_neg (by rw [hsim, hopen]; simp [hkind]), hread]
  dsimp only
  rw [if_pos hwaits]

/-- Settles O40: the channel's frame is held and released (`State.setCam_moves`), and its entry published as on any ring
(`State.publishEntry_publishes`), for a write through translation does not read what the receiver has moved. -/
theorem camerasAndHostFed : Obligations.CamerasAndHostFed := by
  unfold Obligations.CamerasAndHostFed
  exact ⟨fun _ _ _ _ _ _ _ _ _ _ => csiFrameReceive_starts, fun _ _ _ _ _ _ _ _ _ => csiFrameReceive_unmatched,
    fun _ _ _ _ _ _ _ _ _ _ _ => csiFrameReceive_joins, fun _ _ _ _ _ _ _ _ _ _ _ _ _ _ _ _ _ => csiFrameReceive_publishes,
    fun _ _ _ _ _ => simEntryRelease_publishes, fun _ _ _ _ => simEntryRelease_waits⟩

end Sys2Proof.Machine
end

section
/-! The fallback unit, protective separation and starters (chapter 19). -/

namespace Sys2Proof.Machine

/-! ### Missed cycles (R351) -/

theorem cmdEgressCheck_misses {i : Nat} {r : Bytes} {x : StreamSt} {s : State} (hrec : s.streamRec i = some r) (hkind : streamKind r = 0)
    (hx : s.stream i = x) (hdue : cycleInstant r x.probe + 4000 ≤ s.now) (hleft : ∀ j, x.left = some j → j < x.probe) :
    ∃ t, exec (.cmdEgressCheck i) s = .next t ∧
      t.stream i = { x with probe := x.probe + 1, missed := if x.takeover.isSome then none else x.missed <|> some x.probe } ∧
      t.crust.reports = s.crust.reports ++ [(0x01, i)] ∧ t = { s with ports := t.ports, crust := t.crust } := by
  have hnone : x.left.elim false (fun j => decide (x.probe ≤ j)) = false := by
    cases hj : x.left with
    | none => rfl
    | some j =>
      have := hleft j hj
      exact decide_eq_false (by omega)
  obtain ⟨y, hy⟩ : ∃ y, y = { x with probe := x.probe + 1, missed := if x.takeover.isSome then none else x.missed <|> some x.probe } :=
    ⟨_, rfl⟩
  rw [← hy]
  refine ⟨(s.setStream i y).report 0x01 i, ?_, s.stream_setStream_same i y, rfl, rfl⟩
  change execCmdEgressCheck i s = _
  rw [execCmdEgressCheck, hrec]
  dsimp only
  rw [hx, if_neg (by rw [hkind]; omega), hnone, if_neg Bool.false_ne_true, hy]

theorem cmdEgressCheck_finds {i j : Nat} {r : Bytes} {x : StreamSt} {s : State} (hrec : s.streamRec i = some r) (hkind : streamKind r = 0)
    (hx : s.stream i = x) (hdue : cycleInstant r x.probe + 4000 ≤ s.now) (hleft : x.left = some j) (hj : x.probe ≤ j) :
    ∃ t, exec (.cmdEgressCheck i) s = .next t ∧ t.stream i = { x with probe := x.probe + 1 } ∧ t = { s with ports := t.ports } := by
  refine ⟨_, ?_, s.stream_setStream_same i _, rfl⟩
  change execCmdEgressCheck i s = _
  rw [execCmdEgressCheck, hrec]
  dsimp only
  rw [hx, if_neg (by rw [hkind]; omega), hleft, Option.elim_some, decide_eq_true hj, if_pos rfl]

theorem cmdEgressCheck_waits {i : Nat} {r : Bytes} {s : State} (hrec : s.streamRec i = some r)
    (hearly : s.now < cycleInstant r (s.stream i).probe + 4000) : exec (.cmdEgressCheck i) s = .next s := by
  change execCmdEgressCheck i s = _
  rw [execCmdEgressCheck, hrec]
  dsimp only
  rw [if_pos (.inr hearly)]

/-! ### Substitutes (R352) -/

theorem fallbackBuild_builds {i t0 : Nat} {r : Bytes} {x : StreamSt} {s : State} (hrec : s.streamRec i = some r) (hx : s.stream i = x)
    (htake : x.takeover = some t0) (hdue : cycleInstant r x.next ≤ s.now + 2000) :
    ∃ t, exec (.fallbackBuild i) s = .next t ∧
      (let recs := s.substituteRecords i r (cycleInstant r x.next - t0)
      t.stream i = { recs.2 with built := some (x.next, s.commandFrame r (x.next % 65536) recs.1, true), next := x.next + 1, formed := recs.1 }) ∧
      (∀ j, j ≠ i → t.stream j = s.stream j) ∧ t = { s with ports := t.ports } := by
  refine ⟨_, ?_, s.stream_setStream_same i _, fun j hj => s.stream_setStream_ne i _ hj, rfl⟩
  change execFallbackBuild i s = _
  rw [execFallbackBuild, hrec, hx, htake]
  dsimp only
  rw [if_neg (by omega)]

theorem fallbackBuild_waits {i t0 : Nat} {r : Bytes} {s : State} (hrec : s.streamRec i = some r) (htake : (s.stream i).takeover = some t0)
    (hearly : s.now + 2000 < cycleInstant r (s.stream i).next) : exec (.fallbackBuild i) s = .next s := by
  change execFallbackBuild i s = _
  rw [execFallbackBuild, hrec, htake]
  dsimp only
  rw [if_pos hearly]

section Records
variable {i g port e n joint : Nat} {x : StreamSt} {s : State}

theorem State.substituteRecord_idle (h : s.asserted g = true ∨ s.feedbackCopy port joint = none) :
    s.substituteRecord i g port e n joint x = (leBytes 1 joint ++ List.replicate 15 0, x) := by
  have hzero : leBytes 1 joint ++ leBytes 1 0 ++ [0, 0] ++ leBytes 4 (ofSigned 32 0) ++ leBytes 4 0 ++ leBytes 2 0 ++ [0, 0] =
      leBytes 1 joint ++ List.replicate 15 0 := by
    simp only [List.append_assoc]
    rfl
  rw [State.substituteRecord]
  cases hcopy : s.feedbackCopy port joint with
  | none =>
    dsimp only
    rw [hzero]
  | some p =>
    dsimp only
    rw [if_pos (h.resolve_right (by rw [hcopy]; exact nofun)), hzero]

theorem find?_eq_none_of_ne {α : Type} {xs : List (Nat × α)} (h : ∀ p ∈ xs, p.1 ≠ n) : xs.find? (fun p => p.1 == n) = none := by
  rw [List.find?_eq_none]
  exact fun p hp => by simpa using h p hp

theorem any_eq_false_of_ne {α : Type} {xs : List (Nat × α)} (h : ∀ p ∈ xs, p.1 ≠ n) : xs.any (fun p => p.1 == n) = false := by
  rw [List.any_eq_false]
  exact fun p hp => by simpa using h p hp

variable {pos vel : Int} {sr : Bytes} {y : GroupStop} (hasserted : s.asserted g = false) (hcopy : s.feedbackCopy port joint = some (pos, vel))
  (hsafety : s.streamSafety i = some sr) (hstop : s.groupStop g = some y)
include hasserted hcopy hsafety hstop

theorem State.substituteRecord_ramp (hcat : y.cat = 1) (he : e < s.ss1Ns g) (hfirst : ∀ p ∈ x.ramp, p.1 ≠ n) :
    s.substituteRecord i g port e n joint x =
      (leBytes 1 joint ++ [3, 0, 0] ++ leBytes 4 (ofSigned 32 (divRne (vel * ((s.ss1Ns g : Int) - e)) (s.ss1Ns g))) ++ [0, 0, 0, 0] ++
        leBytes 2 (fieldAt sr 6 2) ++ [0, 0], { x with ramp := x.ramp ++ [(n, vel)] }) := by
  rw [State.substituteRecord, hcopy, hsafety, hstop]
  dsimp only
  rw [hasserted, if_neg Bool.false_ne_true, Option.elim_some, if_pos ⟨hcat, he⟩, find?_eq_none_of_ne hfirst, any_eq_false_of_ne hfirst,
    if_neg Bool.false_ne_true, Option.elim_some, Option.map_none, Option.getD_none, List.append_assoc (leBytes 1 joint) (leBytes 1 3)]
  rfl

theorem State.substituteRecord_parked (hcat : y.cat ≠ 1 ∨ s.ss1Ns g ≤ e) (hfirst : ∀ p ∈ x.parked, p.1 ≠ n) :
    s.substituteRecord i g port e n joint x =
      (leBytes 1 joint ++ [2, 0, 0] ++ leBytes 4 (ofSigned 32 pos) ++ [0, 0, 0, 0] ++ leBytes 2 (fieldAt sr 6 2) ++ [0, 0],
        { x with parked := x.parked ++ [(n, pos)] }) := by
  rw [State.substituteRecord, hcopy, hsafety, hstop]
  dsimp only
  rw [hasserted, if_neg Bool.false_ne_true, Option.elim_some, if_neg (by omega), find?_eq_none_of_ne hfirst, any_eq_false_of_ne hfirst,
    if_neg Bool.false_ne_true, Option.elim_some, Option.map_none, Option.getD_none, List.append_assoc (leBytes 1 joint) (leBytes 1 2)]
  rfl

end Records

/-! ### The end of a ramp (R354) -/

theorem ss1RampEnd_asserts {g : Nat} {x : GroupStop} {s : State} (hg : g < 4) (hstop : s.groupStop g = some x) (hcat : x.cat = 1)
    (hdue : x.rampFrom + s.ss1Ns g ≤ s.now) :
    ∃ t, exec (.ss1RampEnd g) s = .next t ∧ t.asserted g = true ∧ t.groupStop g = none ∧ (∀ h, s.asserted h = true → t.asserted h = true) ∧
      t = { s with regs := t.regs, crust := t.crust } ∧
     RegsKept s t [Reg.SIO_STO_STATUS, Reg.CRUST_GROUP g] := by
  have hexec : exec (.ss1RampEnd g) s = .next (s.assertGroup g) := by
    change execSs1RampEnd g s = _
    rw [execSs1RampEnd, hstop]
    dsimp only
    rw [if_pos ⟨hcat, hdue⟩]
  refine ⟨_, hexec, ?_, ?_, fun h hh => ?_, State.eq_of_sansCrust (s.sansCrust_assertGroup g), s.regsKept_assertGroup g⟩
  · rw [s.asserted_assertGroup hg, decide_eq_true rfl, Bool.true_or]
  · rw [s.groupStop_assertGroup, if_pos rfl]
  · rw [s.asserted_assertGroup hg, hh, Bool.or_true]

theorem ss1RampEnd_waits {g : Nat} {s : State} (h : ∀ x, s.groupStop g = some x → x.cat = 1 → s.now < x.rampFrom + s.ss1Ns g) :
    exec (.ss1RampEnd g) s = .next s := by
  change execSs1RampEnd g s = _
  rw [execSs1RampEnd]
  cases hstop : s.groupStop g with
  | none => rfl
  | some x =>
    dsimp only
    rw [if_neg]
    rintro ⟨hcat, hdue⟩
    have := h x hstop hcat
    omega

/-- Settles O50: each check and each substitute writes its own stream, and the end of a ramp is one assertion (`State.asserted_assertGroup`). -/
theorem fallbackUnit : Obligations.FallbackUnit := by
  unfold Obligations.FallbackUnit
  exact ⟨fun _ _ _ _ => cmdEgressCheck_misses, fun _ _ _ _ _ => cmdEgressCheck_finds, fun _ _ _ => cmdEgressCheck_waits,
    fun _ _ _ _ _ => fallbackBuild_builds, fun _ _ _ _ => fallbackBuild_waits, fun _ _ _ _ _ _ _ _ => State.substituteRecord_idle,
    fun _ _ _ _ _ _ _ _ _ _ _ _ => State.substituteRecord_ramp, fun _ _ _ _ _ _ _ _ _ _ _ _ => State.substituteRecord_parked,
    fun _ _ _ => ss1RampEnd_asserts, fun _ _ => ss1RampEnd_waits⟩

/-! ### Perception frames (R355) -/

/-- The factor published moves its register and the byte string at its address. -/
theorem State.publishFactor_moves (s : State) {t : State} (ht : t = s.publishFactor) :
    (∀ f : Fld, f.lo + f.width ≤ 32 → f.addr ≠ Reg.CRUST_STATUS ∨ f.lo + f.width ≤ Fld.CRUST_STATUS_factor.lo → t.fld f = s.fld f) ∧
      t.crust = s.crust ∧ RegsKept s t [Reg.CRUST_STATUS] ∧ t = { s with regs := t.regs, phys := t.phys } := by
  have hsame : t = s → (∀ f : Fld, f.lo + f.width ≤ 32 → f.addr ≠ Reg.CRUST_STATUS ∨ f.lo + f.width ≤ Fld.CRUST_STATUS_factor.lo →
      t.fld f = s.fld f) ∧ t.crust = s.crust ∧ RegsKept s t [Reg.CRUST_STATUS] ∧ t = { s with regs := t.regs, phys := t.phys } := by
    intro h
    rw [h]
    exact ⟨fun _ _ _ => rfl, rfl, .refl s _, rfl⟩
  rw [State.publishFactor] at ht
  split at ht
  · exact hsame ht
  next g _ =>
    dsimp only at ht
    generalize (if s.crust.degrade then min s.crust.psf.factor (fieldAt g 0x2A 2) else s.crust.psf.factor) = v at ht
    split at ht
    · exact hsame ht
    · obtain ⟨m, hm⟩ : ∃ m, m = if fieldAt g 0x3C 4 = 0 then s else s.writeDie 0 (fieldAt g 0x3C 4) (leBytes 2 v) := ⟨_, rfl⟩
      rw [← hm] at ht
      have honly : m = { s with phys := m.phys } := by
        rw [hm]
        split
        · rfl
        · exact State.writePhys_phys_only _ s _
      have hregs : m.regs = s.regs := (congrArg State.regs honly :)
      have hmoved : RegsMoved m t [Reg.CRUST_STATUS] := ht ▸ .setFld m v (by decide) (by simp)
      refine ⟨fun f hf hout => ?_, hmoved.crust.trans (congrArg State.crust honly :), (RegsKept.of_regs hregs _).trans hmoved.kept, ?_⟩
      · rw [ht, State.fld_setFld_ne _ _ (by decide) hf (by tauto), State.fld_congr hregs]
      · rw [show t.phys = m.phys from (congrArg State.phys hmoved.only :)]
        exact hmoved.only.trans (congrArg (fun b : State => { b with regs := t.regs }) honly)

theorem State.publishFactor_trusted (s : State) : s.publishFactor.flag Fld.CRUST_STATUS_trusted = s.flag Fld.CRUST_STATUS_trusted := by
  rw [State.flag, State.flag, (s.publishFactor_moves rfl).1 _ (by decide) (.inr (by decide))]

/-- The factor of a frame that the main ring holds (R355). -/
def State.frameFactor (s : State) (g : Bytes) (mask checker : Nat) (trusted : Bool) : Nat :=
  if trusted then s.zoneFactor mask else min (s.zoneFactor (mask ||| checker)) (fieldAt g 0x2C 2)

/-- A frame judged: what Crust keeps of it, its verdict and its registers. -/
def State.judged (s : State) (q : PsfSt) (trusted : Bool) (v : Word) : State :=
  ({ s with crust := { s.crust with psf := q } }.setFld Fld.CRUST_STATUS_trusted (b2n trusted)).setReg Reg.CRUST_PSF v

theorem State.judged_effect (s : State) (q : PsfSt) (trusted : Bool) (v : Word) {t : State} (ht : t = s.judged q trusted v) :
    t.flag Fld.CRUST_STATUS_trusted = trusted ∧ t.crust = { s.crust with psf := q } ∧ RegsKept s t [Reg.CRUST_STATUS, Reg.CRUST_PSF] ∧
      t = { s with regs := t.regs, crust := t.crust } := by
  obtain ⟨m, hm⟩ : ∃ m : State, m = { s with crust := { s.crust with psf := q } } := ⟨_, rfl⟩
  rw [State.judged, ← hm] at ht
  have hset : RegsMoved (m.setFld Fld.CRUST_STATUS_trusted (b2n trusted)) t [Reg.CRUST_PSF] := ht ▸ .setReg _ _ (by simp)
  have hmoved : RegsMoved m t [Reg.CRUST_STATUS, Reg.CRUST_PSF] := (RegsMoved.setFld m _ (by decide) (by simp)).trans (hset.mono (by simp))
  refine ⟨?_, hmoved.crust.trans (hm ▸ rfl), (RegsKept.of_regs (hm ▸ rfl) _).trans hmoved.kept, ?_⟩
  · rw [hset.flag (by decide) (by decide), State.flag_setFld_same _ _ (by decide) rfl]
    cases trusted <;> rfl
  · rw [hmoved.crust]
    exact hmoved.only.trans (congrArg (fun b : State => { b with regs := t.regs }) (show m = { s with crust := m.crust } from hm ▸ rfl))

/-- A frame that the main ring holds is judged with the checker's mask, if the checker's ring holds it too. -/
theorem psfEvaluate_judges {frame stamp mask : Nat} {g : Bytes} {chk : Option (Nat × Nat)} {trusted : Bool} {s : State}
    (hglobal : s.safetyGlobal = some g) (hk : fieldAt g 9 1 ≠ 0)
    (hmain : s.psfEntry (fieldAt g 0x20 4) (fieldAt g 0x28 2) frame = some (stamp, mask))
    (hchk : s.psfEntry (fieldAt g 0x24 4) (fieldAt g 0x28 2) frame = chk) (hage : fieldAt g 0x30 4 ≤ age (s.now % 2 ^ 32) stamp)
    (hnew : s.crust.psf.frames.contains (frame, stamp) = false)
    (htrusted : (chk.isSome && mask == (chk.elim 0 (·.2)) ||| s.lidarMask (fieldAt g 0x34 4)) = trusted) :
    ∃ t, exec (.psfEvaluate frame) s = .next t ∧ t.flag Fld.CRUST_STATUS_trusted = trusted ∧
      t.crust.psf.factor = s.frameFactor g mask ((chk.elim 0 (·.2)) ||| s.lidarMask (fieldAt g 0x34 4)) trusted ∧
      t.crust.psf.lastEval = some s.now ∧ (trusted = true → t.crust.reports = s.crust.reports) ∧
      BlocksKept s t [0x2C] ∧ t = { s with regs := t.regs, phys := t.phys, crust := t.crust } := by
  obtain ⟨checker, hchecker⟩ : ∃ checker, checker = (chk.elim 0 (·.2)) ||| s.lidarMask (fieldAt g 0x34 4) := ⟨_, rfl⟩
  rw [← hchecker] at htrusted ⊢
  obtain ⟨last, hlast⟩ : ∃ last, last = (s.crust.psf.untrusted ++ [!trusted]).drop (s.crust.psf.untrusted.length + 1 - max (fieldAt g 0xA 1) 1) :=
    ⟨_, rfl⟩
  obtain ⟨bad, hbad⟩ : ∃ bad, bad = (last.filter id).length := ⟨_, rfl⟩
  obtain ⟨q, hq⟩ : ∃ q : PsfSt, q = { s.crust.psf with
    untrusted := last
    frames := (s.crust.psf.frames ++ [(frame, stamp)]).drop (s.crust.psf.frames.length + 1 - max (fieldAt g 0x28 2) 1)
    lastEval := some s.now, factor := s.frameFactor g mask checker trusted } := ⟨_, rfl⟩
  obtain ⟨j, hj⟩ : ∃ j, j = s.judged q trusted (BitVec.ofNat 32 (bad % 256 + 256 * (frame % 2 ^ 24))) := ⟨_, rfl⟩
  obtain ⟨m, hm⟩ : ∃ m, m = if !trusted && decide (fieldAt g 9 1 ≤ bad) then j.report 0x06 0 else j := ⟨_, rfl⟩
  have hexec : exec (.psfEvaluate frame) s = .next m.publishFactor := by
    change execPsfEvaluate frame s = _
    rw [execPsfEvaluate, hglobal]
    dsimp only
    rw [hmain, hchk, show ((some (stamp, mask) : Option (Nat × Nat)) <|> chk) = some (stamp, mask) from rfl]
    simp only [Option.isSome_some, Option.elim_some, Bool.true_and]
    rw [if_neg (by rw [hnew]; simp [hk]; omega), ← hchecker, htrusted, ← hlast, ← hbad, hm, hj, hq]
    rfl
  obtain ⟨hflag, hcrust, hkept, honly⟩ := s.judged_effect q trusted _ hj
  have hmflag : m.flag Fld.CRUST_STATUS_trusted = trusted := by
    rw [hm]
    split
    · exact hflag
    · exact hflag
  have hmpsf : m.crust.psf = q := by
    rw [hm]
    split
    · exact congrArg CrustSt.psf hcrust
    · exact congrArg CrustSt.psf hcrust
  have hmregs : m.regs = j.regs := by
    rw [hm]
    split <;> rfl
  have hmonly : m = { s with regs := m.regs, crust := m.crust } := by
    have hreport : m = { j with crust := m.crust } := by
      rw [hm]
      split <;> rfl
    rw [hmregs]
    exact hreport.trans (congrArg (fun b : State => { b with crust := m.crust }) honly)
  obtain ⟨hfld, hpcrust, hpkept, hponly⟩ := m.publishFactor_moves rfl
  refine ⟨_, hexec, m.publishFactor_trusted.trans hmflag, ?_, ?_, fun htrue => ?_, ?_, ?_⟩
  · rw [hpcrust, hmpsf, hq]
  · rw [hpcrust, hmpsf, hq]
  · rw [hpcrust, hm, htrue, Bool.not_true, Bool.false_and, if_neg Bool.false_ne_true, hcrust]
  · exact ((hkept.trans (.of_regs hmregs _)).trans (hpkept.mono (by simp))).blocksKept (by decide)
  · rw [hpcrust]
    exact hponly.trans (congrArg (fun b : State => { b with regs := m.publishFactor.regs, phys := m.publishFactor.phys }) hmonly)

theorem psfValidityExpiry_defaults {t0 : Nat} {g : Bytes} {s : State} (hglobal : s.safetyGlobal = some g) (hk : fieldAt g 9 1 ≠ 0)
    (hlast : s.crust.psf.lastEval = some t0) (hdue : t0 + fieldAt g 0x34 4 ≤ s.now) :
    ∃ t, exec .psfValidityExpiry s = .next t ∧ t.crust.psf.factor = fieldAt g 0x2C 2 ∧ t.crust.psf.lastEval = none ∧
      t.crust.reports = s.crust.reports ∧
     BlocksKept s t [0x2C] ∧ t = { s with regs := t.regs, phys := t.phys, crust := t.crust } := by
  obtain ⟨m, hm⟩ : ∃ m : State, m = { s with crust := { s.crust with psf := { s.crust.psf with factor := fieldAt g 0x2C 2, lastEval := none } } } :=
    ⟨_, rfl⟩
  have hexec : exec .psfValidityExpiry s = .next m.publishFactor := by
    change execPsfValidityExpiry s = _
    rw [execPsfValidityExpiry, hglobal, hlast]
    dsimp only
    rw [if_neg (by omega), hm]
  obtain ⟨-, hcrust, hkept, honly⟩ := m.publishFactor_moves rfl
  refine ⟨_, hexec, by rw [hcrust, hm], by rw [hcrust, hm], by rw [hcrust, hm], ((RegsKept.of_regs (hm ▸ rfl) _).trans hkept).blocksKept (by decide), ?_⟩
  rw [hcrust]
  exact honly.trans (congrArg (fun b : State => { b with regs := m.publishFactor.regs, phys := m.publishFactor.phys })
    (show m = { s with crust := m.crust } from hm ▸ rfl))

theorem psfSpeed_reports {i n since : Nat} {g : Bytes} {s : State} (hglobal : s.safetyGlobal = some g)
    (hfast : (s.stream i).fast.find? (fun p => p.1 == n) = some (n, since, false)) (hdue : since + fieldAt g 0x38 4 < s.now) :
    ∃ t, exec (.psfSpeed i n) s = .next t ∧ t.crust.reports = s.crust.reports ++ [(0x07, i)] ∧
      (t.stream i).fast.find? (fun p => p.1 == n) = some (n, since, true) ∧ t = { s with ports := t.ports, crust := t.crust } := by
  obtain ⟨y, hy⟩ : ∃ y, y = { s.stream i with fast := (n, since, true) :: (s.stream i).fast.filter (fun p => p.1 != n) } := ⟨_, rfl⟩
  refine ⟨(s.setStream i y).report 0x07 i, ?_, rfl, ?_, rfl⟩
  · change execPsfSpeed i n s = _
    rw [execPsfSpeed, hglobal]
    dsimp only
    rw [hfast]
    dsimp only
    rw [if_neg (by omega), hy]
  · change ((s.setStream i y).stream i).fast.find? (fun p => p.1 == n) = _
    rw [State.stream_setStream_same, hy]
    simp

/-! ### Starters (R358) -/

theorem starterDigest_compares {i : Nat} {x : StarterRun} {sr bs : Bytes} {s : State} (hx : s.crust.starters[i]? = some x)
    (hended : x.ended.isSome = true) (hdigested : x.digested = false) (hsr : sr = (s.recs 0xE).getD x.index [])
    (hread : s.readVa (.engine 0) (fieldAt sr 0 1) (fieldAt sr 0x10 8) (fieldAt sr 0xC 4) = .ok bs) :
    ∃ t, exec (.starterDigest i) s = .next t ∧
      t.crust.reports = s.crust.reports ++ (if (sha512 bs).take 32 = slice sr 0x20 32 then [] else [(0x08, 0)]) ∧
      t = { s with crust := t.crust } := by
  have hexec : exec (.starterDigest i) s = .next (if (sha512 bs).take 32 = slice sr 0x20 32 then
      { s with crust := s.crust.setStarter i { x with digested := true } }
      else { s with crust := s.crust.setStarter i { x with digested := true } }.report 0x08 0) := by
    change execStarterDigest i s = _
    rw [execStarterDigest, hx]
    dsimp only
    rw [if_neg (by rw [hdigested]; cases hend : x.ended <;> simp_all), ← hsr, hread]
  by_cases hsame : (sha512 bs).take 32 = slice sr 0x20 32
  · rw [if_pos hsame] at hexec ⊢
    exact ⟨_, hexec, (List.append_nil _).symm, rfl⟩
  · rw [if_neg hsame] at hexec ⊢
    exact ⟨_, hexec, rfl, rfl⟩

theorem starterDigest_once {i : Nat} {x : StarterRun} {s : State} (hx : s.crust.starters[i]? = some x) (hdigested : x.digested = true) :
    exec (.starterDigest i) s = .next s := by
  change execStarterDigest i s = _
  rw [execStarterDigest, hx]
  dsimp only
  rw [if_pos (.inr hdigested)]

/-- Whether the activation or the run of a starter that has not ended is gone (R358). -/
def State.starterGone (s : State) (x : StarterRun) : Bool :=
  x.ended.isNone && (match x.run with
    | some id => (s.run? id).isNone
    | none => !(s.ctx (fieldAt ((s.recs 0xE).getD x.index []) 0 1)).acts.any (fun a => a.index == x.act && a.start == x.start))

theorem exec_starterLate {i : Nat} {x : StarterRun} {s : State} (hx : s.crust.starters[i]? = some x) : exec (.starterLate i) s =
    .next (if x.late ∨ (s.starterGone x = false ∧ s.now ≤ x.due) ∨ x.ended.elim false (fun t => decide (t ≤ x.due)) = true then s
      else { s with crust := s.crust.setStarter i { x with late := true, digested := x.digested || s.starterGone x } }.report 0x09 0) := by
  change execStarterLate i s = _
  rw [execStarterLate, hx]
  rfl

theorem starterLate_reports {i : Nat} {x : StarterRun} {s : State} (hx : s.crust.starters[i]? = some x) (hended : x.ended = none)
    (hlate : x.late = false) (h : s.starterGone x = true ∨ x.due < s.now) :
    ∃ t, exec (.starterLate i) s = .next t ∧ t.crust.reports = s.crust.reports ++ [(0x09, 0)] ∧ t = { s with crust := t.crust } := by
  have hexec := exec_starterLate hx
  rw [if_neg] at hexec
  · exact ⟨_, hexec, rfl, rfl⟩
  · rw [hlate, hended, Option.elim_none, not_or, not_or]
    refine ⟨Bool.false_ne_true, fun ⟨hgone, hdue⟩ => ?_, Bool.false_ne_true⟩
    rcases h with h | h
    · exact absurd (h.symm.trans hgone) nofun
    · omega

theorem starterLate_once {i : Nat} {x : StarterRun} {s : State} (hx : s.crust.starters[i]? = some x) (hlate : x.late = true) :
    exec (.starterLate i) s = .next s := by
  rw [exec_starterLate hx, if_pos (.inl hlate)]

theorem starterLate_waits {i id : Nat} {x : StarterRun} {s : State} (hx : s.crust.starters[i]? = some x) (hrun : x.run = some id)
    (hruns : (s.run? id).isSome = true) (hdue : s.now ≤ x.due) : exec (.starterLate i) s = .next s := by
  have hgone : s.starterGone x = false := by
    rw [State.starterGone, hrun]
    dsimp only
    rw [Option.isNone_eq_false_iff.mpr hruns, Bool.and_false]
  rw [exec_starterLate hx, if_pos (.inr (.inl ⟨hgone, hdue⟩))]

theorem starterGone_of_run {x : StarterRun} {id : Nat} {s : State} (hended : x.ended = none) (hrun : x.run = some id) (hnone : s.run? id = none) :
    s.starterGone x = true := by
  rw [State.starterGone, hended, hrun]
  dsimp only
  rw [hnone]
  rfl

theorem starterGone_of_activation {x : StarterRun} {s : State} (hended : x.ended = none) (hrun : x.run = none)
    (hacts : ∀ a ∈ (s.ctx (fieldAt ((s.recs 0xE).getD x.index []) 0 1)).acts, a.index = x.act → a.start ≠ x.start) : s.starterGone x = true := by
  rw [State.starterGone, hended, hrun]
  dsimp only
  rw [Option.isNone_none, Bool.true_and, Bool.not_eq_true', List.any_eq_false]
  intro a ha
  rw [Bool.and_eq_true, beq_iff_eq, beq_iff_eq]
  exact fun h => hacts a ha h.1 h.2

/-- Settles O51: each frame is judged once (`psfEvaluate_judges`), and a starter is compared, or found late or gone, once. -/
theorem perception : Obligations.Perception := by
  unfold Obligations.Perception
  refine ⟨fun frame stamp mask g s hglobal hk hmain ⟨st, c, hchk, hmask⟩ hage hnew => ?_,
    fun frame stamp mask g s hglobal hk hmain hchk hage hnew => ?_, fun _ _ _ => psfValidityExpiry_defaults, fun _ _ _ _ _ => psfSpeed_reports,
    fun _ _ _ _ _ => starterDigest_compares, fun _ _ _ => starterDigest_once,
    fun _ _ _ hx hended hlate hdue => starterLate_reports hx hended hlate (.inr hdue),
    fun _ _ _ _ hx hended hlate hrun hnone => starterLate_reports hx hended hlate (.inl (starterGone_of_run hended hrun hnone)),
    fun _ _ _ hx hended hlate hrun hacts => starterLate_reports hx hended hlate (.inl (starterGone_of_activation hended hrun hacts)),
    fun _ _ _ _ => starterLate_waits, fun _ _ _ => starterLate_once⟩
  · obtain ⟨t, hexec, hflag, hfactor, hlast, hreports, hkept, honly⟩ := psfEvaluate_judges (trusted := true) hglobal hk hmain hchk hage hnew
      (by simp [hmask])
    exact ⟨t, hexec, hflag, hfactor, hlast, hreports rfl, hkept, honly⟩
  · obtain ⟨t, hexec, hflag, hfactor, hlast, -, hkept, honly⟩ := psfEvaluate_judges (trusted := false) hglobal hk hmain hchk hage hnew rfl
    exact ⟨t, hexec, hflag, hfactor.trans_le (Nat.min_le_right _ _), hlast, hkept, honly⟩

end Sys2Proof.Machine
end

section
/-! Two-party changes (R363, R364, R396 to R398): what a step of a change reads, how it fails, and what a committed record touches. -/

namespace Sys2Proof.Machine

/-! ### The operation selected in CRUST_CHG_CTRL, of which no check of a record depends -/

/-- A state in whose CRUST_CHG_CTRL an operation and a party are selected. -/
def State.chgSelected (s : State) (op party : Nat) : State :=
  (s.setFld Fld.CRUST_CHG_CTRL_op op).setFld Fld.CRUST_CHG_CTRL_party party

theorem State.chgSelected_moved (s : State) (op party : Nat) : RegsMoved s (s.chgSelected op party) [Reg.CRUST_CHG_CTRL] :=
  (RegsMoved.setFld s op (by decide) (by simp)).trans (RegsMoved.setFld _ party (by decide) (by simp))

theorem State.writeChgCtrl_start (s : State) {v : Nat} (hstart : bit v 0 = true) :
    s.writeChgCtrl v =
      if bits v 1 2 = 1 then (s.chgSelected (bits v 1 2) (bits v 3 1)).chgNonce
      else if bits v 1 2 = 2 then (s.chgSelected (bits v 1 2) (bits v 3 1)).chgStage (bits v 3 1)
      else if bits v 1 2 = 3 then (s.chgSelected (bits v 1 2) (bits v 3 1)).chgCommit (bits v 3 1)
      else s.chgSelected (bits v 1 2) (bits v 3 1) := by
  rw [State.writeChgCtrl, hstart, Bool.not_true, if_neg (by decide)]
  rfl

theorem exec_chgNonce_of_served {who : Requester} {s : State} (hs : s.served who 0 0x2C false = true) :
    exec (.chgNonce who) s = .next (s.chgSelected 1 0).chgNonce := by
  change execChgNonce who s = _
  rw [execChgNonce, State.busWrite_of_served _ hs, s.writeChgCtrl_start (by decide), if_pos (by decide),
    show bits 3 1 2 = 1 by decide, show bits 3 3 1 = 0 by decide]

theorem exec_chgStage_of_served {who : Requester} {party : Nat} {s : State} (hs : s.served who 0 0x2C false = true) (hp : party < 2) :
    exec (.chgStage who party) s = .next ((s.chgSelected 2 party).chgStage party) := by
  change execChgStage who party s = _
  have hbit : bit (5 + 8 * (party % 2)) 0 = true := by interval_cases party <;> decide
  have hop : bits (5 + 8 * (party % 2)) 1 2 = 2 := by interval_cases party <;> decide
  have hparty : bits (5 + 8 * (party % 2)) 3 1 = party := by interval_cases party <;> decide
  rw [execChgStage, State.busWrite_of_served _ hs, s.writeChgCtrl_start hbit, hop, hparty, if_neg (by decide), if_pos rfl]

theorem exec_chgCommit_of_served {who : Requester} {party : Nat} {s : State} (hs : s.served who 0 0x2C false = true) (hp : party < 2) :
    exec (.chgCommit who party) s = .next ((s.chgSelected 3 party).chgCommit party) := by
  change execChgCommit who party s = _
  have hbit : bit (7 + 8 * (party % 2)) 0 = true := by interval_cases party <;> decide
  have hop : bits (7 + 8 * (party % 2)) 1 2 = 3 := by interval_cases party <;> decide
  have hparty : bits (7 + 8 * (party % 2)) 3 1 = party := by interval_cases party <;> decide
  rw [execChgCommit, State.busWrite_of_served _ hs, s.writeChgCtrl_start hbit, hop, hparty, if_neg (by decide), if_neg (by decide),
    if_pos rfl]

namespace RegsMoved
variable {s m : State}

/-- Where a byte of BAR2 leads depends on the registers of the windows and of the start alone. -/
theorem bar2Target {l : List Nat} (h : RegsMoved s m l) (hl : ∀ a ∈ l, a / 65536 ∉ [0x2F, 0x145]) (acc : Access) (off : Nat) :
    m.bar2Target acc off = s.bar2Target acc off := by
  have htranslate : m.translate = s.translate := (congrArg State.translate h.only :)
  have hnot {a : Nat} (ha : a / 65536 = 0x2F ∨ a / 65536 = 0x145) : a ∉ l := fun hmem => hl a hmem (by simpa using ha)
  have hstaging : m.stagingBase = s.stagingBase := by
    rw [State.stagingBase, State.stagingBase, h.fld (f := Fld.BOOT_STATUS_state) (by decide) (hnot (by decide))]
  unfold State.bar2Target
  by_cases hk : 64 ≤ off / 0x40000000
  · simp only [hk, if_true]
  · have hctrl : Reg.HQ_WIN_CTRL (off / 0x40000000) ∉ l := hnot (by simp only [Reg.HQ_WIN_CTRL]; omega)
    have hmode := h.fld (f := Fld.HQ_WIN_CTRL_mode (off / 0x40000000)) (by simp) hctrl
    have hctx := h.fld (f := Fld.HQ_WIN_CTRL_ctx_id (off / 0x40000000)) (by simp) hctrl
    have hbase := h.reg64 (a := Reg.HQ_WIN_BASE (off / 0x40000000)) (hnot (by simp only [Reg.HQ_WIN_BASE]; omega))
      (hnot (by simp only [Reg.HQ_WIN_BASE]; omega))
    simp only [htranslate, hmode, hctx, hbase, hstaging]

theorem bar2Byte_chg (h : RegsMoved s m [Reg.CRUST_CHG_CTRL]) (off : Nat) : m.bar2Byte off = s.bar2Byte off := by
  have hphys : m.byteAt = s.byteAt := (congrArg State.byteAt h.only :)
  have hflash : m.flash = s.flash := (congrArg State.flash h.only :)
  have hread : m.flashRead = s.flashRead := by
    funext a
    rw [State.flashRead, State.flashRead, hflash, h.fld (f := Fld.FTL_STATUS_mode) (by decide) (by decide)]
  simp only [State.bar2Byte, h.bar2Target (by decide), hphys, hread]

theorem bar2Bytes_chg (h : RegsMoved s m [Reg.CRUST_CHG_CTRL]) (off n : Nat) : m.bar2Bytes off n = s.bar2Bytes off n := by
  induction n generalizing off with
  | zero => rfl
  | succ n ih => rw [State.bar2Bytes, State.bar2Bytes, h.bar2Byte_chg, ih]

theorem readChange (h : RegsMoved s m [Reg.CRUST_CHG_CTRL]) : m.readChange = s.readChange := by
  simp only [State.readChange, h.reg64 (a := Reg.CRUST_CHG_ADDR) (by decide) (by decide), h.bar2Bytes_chg]

theorem nonceBytes (h : RegsMoved s m [Reg.CRUST_CHG_CTRL]) : m.nonceBytes = s.nonceBytes := by
  have hreg (k : Nat) (hk : k ∈ List.range 4) : m.reg (Reg.CRUST_NONCE k) = s.reg (Reg.CRUST_NONCE k) := by
    have := List.mem_range.mp hk
    exact h.reg (by simp [Reg.CRUST_CHG_CTRL, Reg.CRUST_NONCE]; omega)
  rw [State.nonceBytes, State.nonceBytes]
  exact List.flatMap_congr fun k hk => by rw [hreg k hk]

theorem boot (h : RegsMoved s m l) : m.boot = s.boot := (congrArg State.boot h.only :)

theorem useFree {l : List Nat} (h : RegsMoved s m l) (n : Nat) : RegsMoved (s.useFree n) (m.useFree n) l :=
  ⟨(congrArg (fun a : State => a.useFree n) h.only :).trans rfl, h.kept⟩

theorem monoNs (h : RegsMoved s m l) : m.monoNs = s.monoNs := (congrArg State.monoNs h.only :)

theorem partySigned (h : RegsMoved s m [Reg.CRUST_CHG_CTRL]) (r : Bytes) (party : Nat) : m.partySigned r party = s.partySigned r party := by
  have hslot : m.slotStatus = s.slotStatus := by
    funext i
    rw [State.slotStatus, State.slotStatus, h.fld (f := Fld.KEY_SLOT_STATUS_sa) (by decide) (by decide),
      h.fld (f := Fld.KEY_SLOT_STATUS_oa) (by decide) (by decide)]
  have hkey : m.enrolledKey = s.enrolledKey := by
    funext authority slot
    rw [State.enrolledKey, State.enrolledKey, hslot, h.boot]
  rw [State.partySigned, State.partySigned, hkey, h.boot]

end RegsMoved

/-! ### How a step fails -/

/-- The registers that a step of a change may move beside what a record says. -/
def chgRegs : List Nat := [Reg.CRUST_CHG_CTRL, Reg.CRUST_CHG_STATUS]

/-- A state of a change in CRUST_CHG_STATUS, with a code. -/
def State.showChange (s : State) (state code : Nat) : State :=
  (s.setFld Fld.CRUST_CHG_STATUS_state state).setFld Fld.CRUST_CHG_STATUS_code code

section Show
variable (s : State) {state code : Nat}

theorem State.showChange_moved : RegsMoved s (s.showChange state code) [Reg.CRUST_CHG_STATUS] :=
  (RegsMoved.setFld s state (by decide) (by simp)).trans (RegsMoved.setFld _ code (by decide) (by simp))

theorem State.state_showChange : (s.showChange state code).fld Fld.CRUST_CHG_STATUS_state = state % 4 :=
  ((s.setFld _ state).fld_setFld_ne (f := Fld.CRUST_CHG_STATUS_code) (g := Fld.CRUST_CHG_STATUS_state) code (by decide) (by decide)
    (.inr (by decide))).trans (s.fld_setFld_same (f := Fld.CRUST_CHG_STATUS_state) state (by decide))

theorem State.code_showChange : (s.showChange state code).fld Fld.CRUST_CHG_STATUS_code = code % 0x10000 :=
  (s.setFld _ state).fld_setFld_same (f := Fld.CRUST_CHG_STATUS_code) code (by decide)

end Show

/-- A step of a change that ends with a state and a code, and with a record staged or none. -/
structure ChangeStep (s t : State) (staged : Option StagedChange) (state code : Nat) : Prop where
  staged : t.crust.staged = staged
  state : t.fld Fld.CRUST_CHG_STATUS_state = state % 4
  code : t.fld Fld.CRUST_CHG_STATUS_code = code % 0x10000
  kept : RegsKept s t chgRegs
  rest : t.sansCrust = s.sansCrust

/-- A state with a record staged, or with none. -/
def State.withStaged (s : State) (staged : Option StagedChange) : State := { s with crust := { s.crust with staged := staged } }

/-- CRUST_CHG_STATUS is written, and then the record staged is replaced. -/
theorem changeStep_of_shown {s m u : State} {state code : Nat} (h : RegsMoved s m [Reg.CRUST_CHG_CTRL]) (hu : u = m.showChange state code)
    (staged : Option StagedChange) : ChangeStep s (u.withStaged staged) staged state code := by
  have hmoved : RegsMoved m u [Reg.CRUST_CHG_STATUS] := by rw [hu]; exact m.showChange_moved
  have hstate : u.fld Fld.CRUST_CHG_STATUS_state = state % 4 := by rw [hu]; exact m.state_showChange
  have hcode : u.fld Fld.CRUST_CHG_STATUS_code = code % 0x10000 := by rw [hu]; exact m.code_showChange
  exact ⟨rfl, hstate, hcode, (h.kept.mono (by decide)).trans (hmoved.kept.mono (by decide)), hmoved.sansCrust.trans h.sansCrust⟩

/-- The record staged is replaced, and then CRUST_CHG_STATUS is written. -/
theorem changeStep_of_staged {s m u : State} {state code : Nat} {staged : Option StagedChange} (h : RegsMoved s m [Reg.CRUST_CHG_CTRL])
    (hu : u = (m.withStaged staged).showChange state code) : ChangeStep s u staged state code := by
  have hmoved : RegsMoved (m.withStaged staged) u [Reg.CRUST_CHG_STATUS] := by rw [hu]; exact State.showChange_moved _
  have hstate : u.fld Fld.CRUST_CHG_STATUS_state = state % 4 := by rw [hu]; exact State.state_showChange _
  have hcode : u.fld Fld.CRUST_CHG_STATUS_code = code % 0x10000 := by rw [hu]; exact State.code_showChange _
  exact ⟨congrArg CrustSt.staged hmoved.crust, hstate, hcode, (h.kept.mono (by decide)).trans (hmoved.kept.mono (by decide)),
    hmoved.sansCrust.trans h.sansCrust⟩

theorem State.chgFail_eq (s : State) (code : Nat) : s.chgFail code = (s.showChange 0 code).withStaged none := by
  have hcrust : (s.showChange 0 code).crust = s.crust := s.showChange_moved.crust
  rw [State.withStaged, hcrust, State.showChange, State.chgFail]

theorem ChangeStep.only {s t : State} {staged : Option StagedChange} {state code : Nat} (h : ChangeStep s t staged state code) :
    t = { s with regs := t.regs, crust := t.crust } := State.eq_of_sansCrust h.rest

theorem State.chgFail_fails {s m : State} (h : RegsMoved s m [Reg.CRUST_CHG_CTRL]) (code : Nat) : ChangeStep s (m.chgFail code) none 0 code :=
  m.chgFail_eq code ▸ changeStep_of_shown h rfl none

/-! ### STAGE and COMMIT -/

theorem State.chgStage_of_ok {m : State} {party : Nat} {r : Bytes} (hread : m.readChange = (r, false))
    (hform : changeFormOk m.boot.keyStates r = true) (hstate : m.fld Fld.CRUST_CHG_STATUS_state ≠ 0) (hnonce : slice r 8 16 = m.nonceBytes)
    (hsigned : m.partySigned r party = true) :
    m.chgStage party = (m.withStaged (some ⟨r, party, m.monoNs⟩)).showChange 2 0 := by
  rw [State.chgStage, hread, State.showChange, State.withStaged]
  simp [hform, hstate, hnonce, hsigned]

theorem State.chgStage_of_fault {m : State} {party : Nat} {r : Bytes} (hread : m.readChange = (r, false))
    (hbad : changeFormOk m.boot.keyStates r = false ∨ m.fld Fld.CRUST_CHG_STATUS_state = 0 ∨ slice r 8 16 ≠ m.nonceBytes ∨
      m.partySigned r party = false) :
    m.chgStage party = m.chgFail (if changeFormOk m.boot.keyStates r = false then 0x0905
      else if m.fld Fld.CRUST_CHG_STATUS_state = 0 ∨ slice r 8 16 ≠ m.nonceBytes then 0x0902 else 0x0901) := by
  rw [State.chgStage, hread]
  by_cases hform : changeFormOk m.boot.keyStates r = true
  · by_cases hnonce : m.fld Fld.CRUST_CHG_STATUS_state = 0 ∨ slice r 8 16 ≠ m.nonceBytes
    · simp [hform, hnonce]
    · have hsigned : m.partySigned r party = false := by
        rcases hbad with h | h | h | h
        · exact absurd (hform.symm.trans h) (by decide)
        · exact absurd (.inl h) hnonce
        · exact absurd (.inr h) hnonce
        · exact h
      simp [hform, hnonce, hsigned]
  · simp [hform]

section Commit
variable {m : State} {party : Nat} {c : StagedChange}

theorem State.chgCommit_of_refused
    (h : m.crust.staged = none ∨ ∃ c, m.crust.staged = some c ∧ (c.at' + 10000000000 ≤ m.monoNs ∨ c.party = party)) :
    m.chgCommit party = m.chgFail
      (if m.crust.staged.elim true (fun c => decide (c.at' + 10000000000 ≤ m.monoNs)) then 0x0904 else 0x0903) := by
  rw [State.chgCommit]
  rcases h with h | ⟨c, h, hwhy⟩
  · rw [h, Option.elim_none, if_pos rfl]
  · rw [h, Option.elim_some]
    by_cases hlate : c.at' + 10000000000 ≤ m.monoNs
    · simp only [if_pos hlate, decide_eq_true hlate, if_true]
    · simp only [if_neg hlate, decide_eq_false hlate, if_pos (hwhy.resolve_left hlate).symm]
      rfl

variable {r : Bytes} (hstaged : m.crust.staged = some c) (htime : m.monoNs < c.at' + 10000000000) (hother : c.party = 1 - party)
  (hp : party < 2) (hread : m.readChange = (r, false))
include hstaged htime hother hp hread

/-- A commit in time by the other party compares the bytes, and then checks the signature. -/
theorem State.chgCommit_of_other :
    m.chgCommit party =
      if chgSigned r ≠ chgSigned c.record then (m.useFree 1).chgFail (m.freeCode [0x0901, 0x0902, 0x0903, 0x0904, 0x0905])
      else if !m.partySigned r party then m.chgFail 0x0901 else (m.chgFail 0).applyChange c.record := by
  have hsame : ¬ party = c.party := by omega
  have hsigner : 1 - c.party = party := by omega
  rw [State.chgCommit, hstaged]
  simp only [if_neg (Nat.not_le.mpr htime), if_neg hsame, hread, hsigner]
  simp

end Commit

/-! ### A record applied -/

theorem State.applyTp_moved (s : State) (x : Bytes) : RegsMoved s (s.applyTp x) [fieldAt x 0 4] := .setReg s _ (by simp)

theorem State.reg_applyTp (s : State) (x : Bytes) (a : Nat) :
    (s.applyTp x).reg a =
      if a = fieldAt x 0 4 then
        (s.reg a &&& ~~~ BitVec.ofNat 32 (fieldAt x 4 4)) ||| (BitVec.ofNat 32 (fieldAt x 8 4) &&& BitVec.ofNat 32 (fieldAt x 4 4))
      else s.reg a := by
  split
  case isTrue h => rw [h]; exact s.reg_setReg_same _ _
  case isFalse h => exact s.reg_setReg_ne _ h

theorem State.getLsbD_applyTp (s : State) (x : Bytes) {i : Nat} (hi : i < 32) :
    ((s.applyTp x).reg (fieldAt x 0 4)).getLsbD i =
      if (fieldAt x 4 4).testBit i then (fieldAt x 8 4).testBit i else (s.reg (fieldAt x 0 4)).getLsbD i := by
  rw [s.reg_applyTp, if_pos rfl]
  simp only [BitVec.getLsbD_or, BitVec.getLsbD_and, BitVec.getLsbD_not, BitVec.getLsbD_ofNat, hi, decide_true, Bool.true_and]
  by_cases h : (fieldAt x 4 4).testBit i <;> simp [h]

/-- What the items leave in a register depends on that register alone. -/
theorem State.reg_foldl_applyTp {s t : State} {a : Nat} (h : t.reg a = s.reg a) (xs : List Bytes) :
    (xs.foldl (fun (u : State) x => u.applyTp x) t).reg a = (xs.foldl (fun (u : State) x => u.applyTp x) s).reg a := by
  induction xs generalizing s t with
  | nil => exact h
  | cons x xs ih => exact ih (by rw [State.reg_applyTp, State.reg_applyTp, h])

theorem State.foldl_applyTp_moved (s : State) (xs : List Bytes) :
    RegsMoved s (xs.foldl (fun (u : State) x => u.applyTp x) s) (xs.map (fun x => fieldAt x 0 4)) :=
  .foldl (fun a x hx => (a.applyTp_moved x).mono (by simpa using ⟨x, hx, rfl⟩)) s

theorem State.setKeySlot_boot (s : State) (i : Nat) (k : KeySlot) :
    (s.setKeySlot i k).boot = { s.boot with keys := Sparse.put (fun _ => {}) s.boot.keys i k } := by
  unfold State.setKeySlot
  split <;> rfl

/-- The state beside the registers and the boot parts. -/
def State.sansBoot (s : State) : State := { s with regs := [], boot := {} }

theorem State.sansBoot_setFld (s : State) (f : Fld) (v : Nat) : (s.setFld f v).sansBoot = s.sansBoot := by
  rw [s.setFld_regs_only f v]
  rfl

theorem State.sansBoot_setKeySlot (s : State) (i : Nat) (k : KeySlot) : (s.setKeySlot i k).sansBoot = s.sansBoot := by
  unfold State.setKeySlot
  split <;> exact (State.sansBoot_setFld _ _ _).trans rfl

theorem State.regsKept_setKeySlot (s : State) (i : Nat) (k : KeySlot) : RegsKept s (s.setKeySlot i k) [Reg.KEY_SLOT_STATUS] := by
  unfold State.setKeySlot
  split <;> exact (RegsKept.of_regs rfl _).trans (regsKept_setFld _ _ (by decide) (by simp))

theorem State.sansBoot_applyKey (s : State) (x : Bytes) : (s.applyKey x).sansBoot = s.sansBoot := by
  unfold State.applyKey
  split <;> exact State.sansBoot_setKeySlot _ _ _

theorem State.regsKept_applyKey (s : State) (x : Bytes) : RegsKept s (s.applyKey x) [Reg.KEY_SLOT_STATUS] := by
  unfold State.applyKey
  split
  · exact (RegsKept.of_regs rfl _).trans (State.regsKept_setKeySlot _ _ _)
  · exact s.regsKept_setKeySlot _ _

/-- What an item leaves in the boot parts depends on them alone. -/
theorem State.applyKey_boot {s t : State} (h : t.boot = s.boot) (x : Bytes) : (t.applyKey x).boot = (s.applyKey x).boot := by
  unfold State.applyKey
  split
  · rw [State.setKeySlot_boot, State.setKeySlot_boot, h]
  · rw [State.setKeySlot_boot, State.setKeySlot_boot, h]

theorem State.foldl_applyKey_boot {s t : State} (h : t.boot = s.boot) (xs : List Bytes) :
    (xs.foldl (fun (u : State) x => u.applyKey x) t).boot = (xs.foldl (fun (u : State) x => u.applyKey x) s).boot := by
  induction xs generalizing s t with
  | nil => exact h
  | cons x xs ih => exact ih (State.applyKey_boot h x)

/-- The enrolment of keys moves KEY_SLOT_STATUS and the boot parts alone. -/
theorem State.foldl_applyKey_keeps (s : State) (xs : List Bytes) {t : State} (ht : t = xs.foldl (fun (u : State) x => u.applyKey x) s) :
    t = { s with regs := t.regs, boot := t.boot } ∧ RegsKept s t [Reg.KEY_SLOT_STATUS] := by
  have hrest : t.sansBoot = s.sansBoot := ht ▸ foldl_keeps (fun a x _ => a.sansBoot_applyKey x) s
  exact ⟨congrArg (fun a : State => { a with regs := t.regs, boot := t.boot }) hrest, ht ▸ .foldl (fun a x _ => a.regsKept_applyKey x) s⟩

/-! ### An unlock (R398) -/

/-- The registers that an unlock moves. -/
def unlockRegs : List Nat := Reg.KEY_DEBUG :: Reg.SIO_STO_CTRL :: stoAllRegs

theorem State.staged_assertGroup (s : State) (g : Nat) : (s.assertGroup g).crust.staged = s.crust.staged := rfl

theorem State.staged_assertAll (s : State) : s.assertAll.crust.staged = s.crust.staged := by
  rw [State.assertAll]
  exact foldl_keeps (π := fun a => a.crust.staged) (fun a g _ => a.staged_assertGroup g) s

theorem State.applyUnlock_unlocks (s : State) (scope seconds : Nat) {t : State} (ht : t = s.applyUnlock scope seconds) :
    t.fld Fld.KEY_DEBUG_scope = scope % 8 ∧ t.flag Fld.KEY_DEBUG_forced_hold = true ∧ t.fld Fld.SIO_STO_CTRL_hold = 15 ∧
      t.allAsserted = true ∧ t.boot = { s.boot with unlocked := true, unlockEnd := some (s.monoNs + seconds * 1000000000) } ∧
      t.crust.staged = s.crust.staged ∧ RegsKept s t unlockRegs ∧ t = { s with regs := t.regs, crust := t.crust, boot := t.boot } := by
  obtain ⟨m, hm⟩ : ∃ m, m = (s.setFld Fld.KEY_DEBUG_scope scope).setFld Fld.KEY_DEBUG_forced_hold 1 := ⟨_, rfl⟩
  have hkey : RegsMoved s m [Reg.KEY_DEBUG] := by
    rw [hm]
    exact (RegsMoved.setFld s scope (by decide) (by simp)).trans (RegsMoved.setFld _ 1 (by decide) (by simp))
  have hscope : m.fld Fld.KEY_DEBUG_scope = scope % 8 := by
    rw [hm, State.fld_setFld_ne (f := Fld.KEY_DEBUG_forced_hold) (g := Fld.KEY_DEBUG_scope) _ _ (by decide) (by decide) (.inr (by decide))]
    exact s.fld_setFld_same (f := Fld.KEY_DEBUG_scope) scope (by decide)
  have hforced : m.flag Fld.KEY_DEBUG_forced_hold = true := by
    rw [hm, State.flag_setFld_same _ _ (by decide) rfl]
    rfl
  obtain ⟨b, hb⟩ : ∃ b : BootSt, b = { s.boot with unlocked := true, unlockEnd := some (s.monoNs + seconds * 1000000000) } := ⟨_, rfl⟩
  obtain ⟨u, hu⟩ : ∃ u, u = ({ m with boot := b } : State).setFld Fld.SIO_STO_CTRL_hold 15 := ⟨_, rfl⟩
  have hunlocked : t = u.assertAll := by
    rw [ht, State.applyUnlock, ← hm, hkey.boot, hkey.monoNs, ← hb, ← hu]
  have hheld : RegsMoved { m with boot := b } u [Reg.SIO_STO_CTRL] := by
    rw [hu]
    exact RegsMoved.setFld _ _ (by decide) (by simp)
  have hhold : u.fld Fld.SIO_STO_CTRL_hold = 15 := by
    rw [hu]
    exact State.fld_setFld_same (f := Fld.SIO_STO_CTRL_hold) _ 15 (by decide)
  have hsto : RegsKept u t stoAllRegs := by rw [hunlocked]; exact u.regsKept_assertAll
  have hall : t.allAsserted = true := by
    rw [hunlocked, State.allAsserted_iff]
    exact fun g hg => u.asserted_assertAll hg
  have hstaged : t.crust.staged = u.crust.staged := by rw [hunlocked]; exact u.staged_assertAll
  have hrest : t.sansCrust = u.sansCrust := by rw [hunlocked]; exact u.sansCrust_assertAll
  have hboot : t.boot = b := (congrArg State.boot (State.eq_of_sansCrust hrest)).trans hheld.boot
  refine ⟨?_, ?_, ?_, hall, hboot.trans hb, ?_, ?_, ?_⟩
  · exact (hsto.fld (by decide) (by decide)).trans ((hheld.fld (f := Fld.KEY_DEBUG_scope) (by decide) (by decide)).trans hscope)
  · exact (hsto.flag (by decide) (by decide)).trans ((hheld.flag (f := Fld.KEY_DEBUG_forced_hold) (by decide) (by decide)).trans hforced)
  · exact (hsto.fld (by decide) (by decide)).trans hhold
  · exact hstaged.trans ((congrArg CrustSt.staged hheld.crust).trans (congrArg CrustSt.staged hkey.crust))
  · exact (hkey.kept.mono (by simp [unlockRegs])).trans
      ((RegsKept.of_regs rfl _ : RegsKept m { m with boot := b } unlockRegs).trans
        ((hheld.kept.mono (by simp [unlockRegs])).trans (hsto.mono (by simp [unlockRegs]))))
  · have honly := State.eq_of_sansCrust (hrest.trans hheld.sansCrust)
    rw [hboot, honly.trans (congrArg (fun a : State => { a with regs := t.regs, crust := t.crust, boot := b }) hkey.only)]

/-! ### A nonce -/

theorem slice_zero_eq_take {bs : Bytes} {n : Nat} (h : n ≤ bs.length) : slice bs 0 n = bs.take n := by
  simp only [slice, List.drop_zero, List.length_take, Nat.min_eq_left h, Nat.sub_self, List.replicate_zero, List.append_nil]

/-- A word written from four bytes spells them. -/
theorem leBytes_word {bs : Bytes} (h : 4 ≤ bs.length) : leBytes 4 (BitVec.ofNat 32 (fieldAt bs 0 4)).toNat = bs.take 4 := by
  have hlt : fieldAt bs 0 4 < 2 ^ 32 := fieldAt_lt bs 0 4
  have hspell := leBytes_leNat (slice bs 0 4)
  rw [length_slice] at hspell
  rw [BitVec.toNat_ofNat, Nat.mod_eq_of_lt hlt, fieldAt, hspell, slice_zero_eq_take h]

theorem State.setRegBytes_moved (s : State) (n : Nat) {a : Nat} (bs : Bytes) :
    RegsMoved s (s.setRegBytes a n bs) ((List.range n).map (fun i => a + 4 * i)) := by
  induction n generalizing s a bs with
  | zero => exact .refl s _
  | succ n ih =>
    have hhead : a ∈ (List.range (n + 1)).map (fun i => a + 4 * i) := List.mem_map.mpr ⟨0, by simp⟩
    refine (RegsMoved.setReg s _ hhead).trans ((ih _ (a := a + 4) (bs.drop 4)).mono fun x hx => ?_)
    obtain ⟨i, hi, rfl⟩ := List.mem_map.mp hx
    exact List.mem_map.mpr ⟨i + 1, List.mem_range.mpr (by have := List.mem_range.mp hi; omega), by omega⟩

theorem State.reg_setRegBytes (s : State) {n : Nat} {a : Nat} (bs : Bytes) {i : Nat} (hi : i < n) :
    (s.setRegBytes a n bs).reg (a + 4 * i) = BitVec.ofNat 32 (fieldAt (bs.drop (4 * i)) 0 4) := by
  induction n generalizing s a bs i with
  | zero => omega
  | succ n ih =>
    rw [State.setRegBytes]
    cases i with
    | zero =>
      refine ((State.setRegBytes_moved _ n (a := a + 4) (bs.drop 4)).reg ?_).trans (s.reg_setReg_same _ _)
      simp only [List.mem_map, List.mem_range]
      omega
    | succ i =>
      rw [show a + 4 * (i + 1) = a + 4 + 4 * i by omega, ih _ (a := a + 4) (bs.drop 4) (by omega), List.drop_drop,
        show 4 + 4 * i = 4 * (i + 1) by omega]

theorem State.nonceBytes_setRegBytes (s : State) {bs : Bytes} (h : bs.length = 16) :
    (s.setRegBytes (Reg.CRUST_NONCE 0) 4 bs).nonceBytes = bs := by
  have hword (i : Nat) (hi : i < 4) :
      leBytes 4 ((s.setRegBytes (Reg.CRUST_NONCE 0) 4 bs).reg (Reg.CRUST_NONCE i)).toNat = (bs.drop (4 * i)).take 4 := by
    rw [show Reg.CRUST_NONCE i = Reg.CRUST_NONCE 0 + 4 * i by simp [Reg.CRUST_NONCE], s.reg_setRegBytes bs hi]
    exact leBytes_word (by rw [List.length_drop]; omega)
  have hlast : (bs.drop 12).take 4 = bs.drop 12 := List.take_of_length_le (by rw [List.length_drop]; omega)
  rw [State.nonceBytes, show List.range 4 = [0, 1, 2, 3] from rfl, List.flatMap_cons, List.flatMap_cons, List.flatMap_cons,
    List.flatMap_cons, List.flatMap_nil, hword 0 (by omega), hword 1 (by omega), hword 2 (by omega), hword 3 (by omega), List.append_nil,
    hlast, show 4 * 2 = 8 by rfl, show bs.drop 12 = (bs.drop 8).drop 4 by rw [List.drop_drop], List.take_append_drop,
    show bs.drop 8 = (bs.drop 4).drop 4 by rw [List.drop_drop], Nat.mul_one, List.take_append_drop, Nat.mul_zero, List.drop_zero,
    List.take_append_drop]

/-- The registers that a NONCE moves. -/
def nonceRegs : List Nat := (List.range 4).map (fun i => Reg.CRUST_NONCE 0 + 4 * i)

theorem chgNonce_begins {s m t : State} (h : RegsMoved s m [Reg.CRUST_CHG_CTRL]) (ht : t = m.chgNonce) :
    t.crust.staged = none ∧ t.fld Fld.CRUST_CHG_STATUS_state = 1 ∧ t.fld Fld.CRUST_CHG_STATUS_code = 0 ∧
      t.nonceBytes = leBytes 16 (Config.nonce s.freeCtr).toNat ∧
      t = { s with regs := t.regs, crust := t.crust, freeCtr := s.freeCtr + 1 } ∧ BlocksKept s t [0x2C] := by
  obtain ⟨u, hu⟩ : ∃ u, u = (m.useFree 1).withStaged none := ⟨_, rfl⟩
  obtain ⟨w, hw⟩ : ∃ w, w = u.setRegBytes (Reg.CRUST_NONCE 0) 4 (leBytes 16 (Config.nonce s.freeCtr).toNat) := ⟨_, rfl⟩
  have hfree : m.freeCtr = s.freeCtr := (congrArg State.freeCtr h.only :)
  have hshown : t = w.showChange 1 0 := by
    rw [ht, hw, hu, State.chgNonce, State.showChange, State.withStaged, hfree]
    rfl
  have hwritten : RegsMoved u w nonceRegs := hw ▸ u.setRegBytes_moved 4 _
  have hstatus : RegsMoved w t [Reg.CRUST_CHG_STATUS] := by rw [hshown]; exact w.showChange_moved
  have hnonce : w.nonceBytes = leBytes 16 (Config.nonce s.freeCtr).toNat := by
    rw [hw]
    exact u.nonceBytes_setRegBytes (length_leBytes _ _)
  have hmoved : RegsMoved u t (nonceRegs ++ [Reg.CRUST_CHG_STATUS]) := hwritten.append hstatus
  have hkept : RegsKept m u (nonceRegs ++ [Reg.CRUST_CHG_STATUS]) := .of_regs (by rw [hu]; rfl) _
  have hrest : t.sansCrust = (s.useFree 1).sansCrust := by
    rw [hmoved.sansCrust, hu]
    exact congrArg (fun a : State => (a.useFree 1).sansCrust) h.only
  refine ⟨?_, ?_, ?_, ?_, State.eq_of_sansCrust hrest, ?_⟩
  · rw [hmoved.crust, hu]
    rfl
  · rw [hshown, w.state_showChange]
  · rw [hshown, w.code_showChange]
  · rw [← hnonce, State.nonceBytes, State.nonceBytes]
    refine List.flatMap_congr fun k hk => ?_
    have := List.mem_range.mp hk
    rw [hstatus.reg (by simp only [Reg.CRUST_NONCE, Reg.CRUST_CHG_STATUS, List.mem_singleton]; omega)]
  · exact ((h.kept.mono (List.subset_append_left _ (nonceRegs ++ [Reg.CRUST_CHG_STATUS]))).trans
      ((hkept.trans hmoved.kept).mono (List.subset_append_right _ _))).blocksKept (by decide)

/-! ### The steps of a change -/

theorem State.freeCode_mem (s : State) {codes : List Nat} (h : codes ≠ []) : s.freeCode codes ∈ codes := by
  have hlt : Config.freeNat s.freeCtr % codes.length < codes.length := Nat.mod_lt _ (List.length_pos_iff.mpr h)
  rw [State.freeCode, List.getD_eq_getElem _ _ hlt]
  exact List.getElem_mem hlt

section Steps
variable {who : Requester} {party : Nat} {r : Bytes} {s : State} (hs : s.served who 0 0x2C false = true) (hp : party < 2)
include hs hp

theorem chgStage_stages (hread : s.readChange = (r, false)) (hform : changeFormOk s.boot.keyStates r = true)
    (hstate : s.fld Fld.CRUST_CHG_STATUS_state ≠ 0) (hnonce : slice r 8 16 = s.nonceBytes) (hsigned : s.partySigned r party = true) :
    ∃ t, exec (.chgStage who party) s = .next t ∧ ChangeStep s t (some ⟨r, party, s.monoNs⟩) 2 0 := by
  have h := s.chgSelected_moved 2 party
  rw [← h.readChange] at hread
  rw [← h.boot] at hform
  rw [← h.fld (by decide) (by decide)] at hstate
  rw [← h.nonceBytes] at hnonce
  rw [← h.partySigned] at hsigned
  exact ⟨_, exec_chgStage_of_served hs hp,
    changeStep_of_staged h (h.monoNs ▸ State.chgStage_of_ok hread hform hstate hnonce hsigned)⟩

theorem chgStage_fails (hread : s.readChange = (r, false))
    (hbad : changeFormOk s.boot.keyStates r = false ∨ s.fld Fld.CRUST_CHG_STATUS_state = 0 ∨ slice r 8 16 ≠ s.nonceBytes ∨
      s.partySigned r party = false) :
    ∃ t, exec (.chgStage who party) s = .next t ∧
      ChangeStep s t none 0 (if changeFormOk s.boot.keyStates r = false then 0x0905
        else if s.fld Fld.CRUST_CHG_STATUS_state = 0 ∨ slice r 8 16 ≠ s.nonceBytes then 0x0902 else 0x0901) := by
  have h := s.chgSelected_moved 2 party
  have hstate := h.fld (f := Fld.CRUST_CHG_STATUS_state) (by decide) (by decide)
  refine ⟨_, exec_chgStage_of_served hs hp, ?_⟩
  rw [← h.readChange] at hread
  rw [← h.boot, ← hstate, ← h.nonceBytes, ← h.partySigned] at hbad
  rw [← h.boot, ← hstate, ← h.nonceBytes, State.chgStage_of_fault hread hbad]
  exact State.chgFail_fails h _

theorem chgCommit_refused
    (hnone : s.crust.staged = none ∨ ∃ c, s.crust.staged = some c ∧ (c.at' + 10000000000 ≤ s.monoNs ∨ c.party = party)) :
    ∃ t, exec (.chgCommit who party) s = .next t ∧
      ChangeStep s t none 0 (if s.crust.staged.elim true (fun c => decide (c.at' + 10000000000 ≤ s.monoNs)) then 0x0904 else 0x0903) := by
  have h := s.chgSelected_moved 3 party
  refine ⟨_, exec_chgCommit_of_served hs hp, ?_⟩
  rw [← h.crust, ← h.monoNs] at hnone ⊢
  rw [State.chgCommit_of_refused hnone]
  exact State.chgFail_fails h _

variable {c : StagedChange} (hstaged : s.crust.staged = some c) (htime : s.monoNs < c.at' + 10000000000) (hother : c.party = 1 - party)
  (hread : s.readChange = (r, false))
include hstaged htime hother hread

theorem exec_chgCommit_of_other :
    exec (.chgCommit who party) s = .next
      (if chgSigned r ≠ chgSigned c.record then
        ((s.chgSelected 3 party).useFree 1).chgFail ((s.chgSelected 3 party).freeCode [0x0901, 0x0902, 0x0903, 0x0904, 0x0905])
      else if !s.partySigned r party then (s.chgSelected 3 party).chgFail 0x0901
      else ((s.chgSelected 3 party).chgFail 0).applyChange c.record) := by
  have h := s.chgSelected_moved 3 party
  rw [← h.crust] at hstaged
  rw [← h.monoNs] at htime
  rw [← h.readChange] at hread
  rw [exec_chgCommit_of_served hs hp, State.chgCommit_of_other hstaged htime hother hp hread, h.partySigned]

theorem chgCommit_unsigned (hsame : chgSigned r = chgSigned c.record) (hsigned : s.partySigned r party = false) :
    ∃ t, exec (.chgCommit who party) s = .next t ∧ ChangeStep s t none 0 0x0901 := by
  refine ⟨_, exec_chgCommit_of_other hs hp hstaged htime hother hread, ?_⟩
  rw [if_neg (not_not_intro hsame), hsigned, Bool.not_false, if_pos rfl]
  exact State.chgFail_fails (s.chgSelected_moved 3 party) _

theorem chgCommit_differs (hdiff : chgSigned r ≠ chgSigned c.record) :
    ∃ t code, exec (.chgCommit who party) s = .next t ∧ code ∈ [0x0901, 0x0902, 0x0903, 0x0904, 0x0905] ∧
      ChangeStep (s.useFree 1) t none 0 code := by
  refine ⟨_, (s.chgSelected 3 party).freeCode [0x0901, 0x0902, 0x0903, 0x0904, 0x0905],
    exec_chgCommit_of_other hs hp hstaged htime hother hread, State.freeCode_mem _ (by simp), ?_⟩
  have h := s.chgSelected_moved 3 party
  rw [if_pos hdiff]
  exact State.chgFail_fails (h.useFree 1) _

/-- A commit that passes every check applies the record to a state whose change has ended. -/
theorem chgCommit_applies (hsame : chgSigned r = chgSigned c.record) (hsigned : s.partySigned r party = true) :
    ∃ m, exec (.chgCommit who party) s = .next (m.applyChange c.record) ∧ ChangeStep s m none 0 0 := by
  refine ⟨(s.chgSelected 3 party).chgFail 0, ?_, State.chgFail_fails (s.chgSelected_moved 3 party) 0⟩
  rw [exec_chgCommit_of_other hs hp hstaged htime hother hread, if_neg (not_not_intro hsame), hsigned, Bool.not_true,
    if_neg (by decide)]

end Steps

/-! ### What a committed record touches -/

section Applied
variable {s m t : State} {r : Bytes} (h : ChangeStep s m none 0 0) (ht : t = m.applyChange r)
include h ht

theorem applyChange_tp (hkind : fieldAt r 5 1 = 1) :
    t.crust.staged = none ∧
      (∀ a, a ≠ Reg.CRUST_CHG_CTRL → a ≠ Reg.CRUST_CHG_STATUS →
        t.reg a = ((tpItems r).foldl (fun (u : State) x => u.applyTp x) s).reg a) ∧
      ((∀ x ∈ tpItems r, fieldAt x 0 4 ≠ Reg.CRUST_CHG_STATUS) →
        t.fld Fld.CRUST_CHG_STATUS_state = 0 ∧ t.fld Fld.CRUST_CHG_STATUS_code = 0) ∧
      t = { s with regs := t.regs, crust := t.crust } := by
  have happlied : t = (tpItems r).foldl (fun (u : State) x => u.applyTp x) m := by rw [ht, State.applyChange, if_pos hkind]
  have hmoved : RegsMoved m t ((tpItems r).map (fun x => fieldAt x 0 4)) := happlied ▸ m.foldl_applyTp_moved _
  refine ⟨(congrArg CrustSt.staged hmoved.crust).trans h.staged, fun a hctrl hstatus => ?_, fun hitems => ?_,
    State.eq_of_sansCrust (hmoved.sansCrust.trans h.rest)⟩
  · rw [happlied]
    exact State.reg_foldl_applyTp (h.kept.reg (by simp [chgRegs, hctrl, hstatus])) _
  · have haddr : Reg.CRUST_CHG_STATUS ∉ (tpItems r).map (fun x => fieldAt x 0 4) := fun hmem => by
      obtain ⟨x, hx, haddr⟩ := List.mem_map.mp hmem
      exact hitems x hx haddr
    exact ⟨(hmoved.fld (f := Fld.CRUST_CHG_STATUS_state) (by decide) haddr).trans h.state,
      (hmoved.fld (f := Fld.CRUST_CHG_STATUS_code) (by decide) haddr).trans h.code⟩

theorem applyChange_keys (hkind : fieldAt r 5 1 = 2) :
    t.crust.staged = none ∧ t.fld Fld.CRUST_CHG_STATUS_state = 0 ∧ t.fld Fld.CRUST_CHG_STATUS_code = 0 ∧
      t.boot = ((keyItems r).foldl (fun (u : State) x => u.applyKey x) s).boot ∧ BlocksKept s t [0x2C, 0x30] ∧
      t = { s with regs := t.regs, crust := t.crust, boot := t.boot } := by
  have happlied : t = (keyItems r).foldl (fun (u : State) x => u.applyKey x) m := by
    rw [ht, State.applyChange, if_neg (by omega), if_pos hkind]
  obtain ⟨honly, hkept⟩ := m.foldl_applyKey_keeps _ happlied
  have hboot : m.boot = s.boot := (congrArg State.boot h.only :)
  have hcrust : t.crust = m.crust := (congrArg State.crust honly :)
  refine ⟨(congrArg CrustSt.staged hcrust).trans h.staged, ?_, ?_, ?_, ?_, ?_⟩
  · exact (hkept.fld (by decide) (by decide)).trans h.state
  · exact (hkept.fld (by decide) (by decide)).trans h.code
  · rw [happlied]
    exact State.foldl_applyKey_boot hboot _
  · exact ((h.kept.mono (List.subset_append_left chgRegs [Reg.KEY_SLOT_STATUS])).trans
      (hkept.mono (List.subset_append_right chgRegs _))).blocksKept (by decide)
  · rw [hcrust]
    exact honly.trans (congrArg (fun a : State => { a with regs := t.regs, boot := t.boot }) h.only)

theorem applyChange_unlocks (hkind : fieldAt r 5 1 = 3) :
    t.crust.staged = none ∧ t.fld Fld.CRUST_CHG_STATUS_state = 0 ∧ t.fld Fld.CRUST_CHG_STATUS_code = 0 ∧
      t.fld Fld.KEY_DEBUG_scope = fieldAt r 0x20 4 % 8 ∧ t.flag Fld.KEY_DEBUG_forced_hold = true ∧
      t.fld Fld.SIO_STO_CTRL_hold = 15 ∧ t.allAsserted = true ∧
      t.boot.unlockEnd = some (s.monoNs + fieldAt r 0x24 4 * 1000000000) ∧ BlocksKept s t [0x2C, 0x2E, 0x30] ∧
      t = { s with regs := t.regs, crust := t.crust, boot := t.boot } := by
  have happlied : t = m.applyUnlock (fieldAt r 0x20 4) (fieldAt r 0x24 4) := by
    rw [ht, State.applyChange, if_neg (by omega), if_neg (by omega)]
  obtain ⟨hscope, hforced, hhold, hall, hboot, hstaged, hkept, honly⟩ := m.applyUnlock_unlocks _ _ happlied
  have hmono : m.monoNs = s.monoNs := (congrArg State.monoNs h.only :)
  refine ⟨hstaged.trans h.staged, ?_, ?_, hscope, hforced, hhold, hall, ?_, ?_, ?_⟩
  · exact (hkept.fld (by decide) (by decide)).trans h.state
  · exact (hkept.fld (by decide) (by decide)).trans h.code
  · rw [hboot, hmono]
  · exact ((h.kept.mono (List.subset_append_left chgRegs unlockRegs)).trans
      (hkept.mono (List.subset_append_right chgRegs _))).blocksKept (by decide)
  · exact honly.trans (congrArg (fun a : State => { a with regs := t.regs, crust := t.crust, boot := t.boot }) h.only)

end Applied

theorem chgStageExpiry_expires {s : State} {c : StagedChange} (hstaged : s.crust.staged = some c)
    (htime : c.at' + 10000000000 ≤ s.monoNs) :
    ∃ t, exec .chgStageExpiry s = .next t ∧ t.crust = { s.crust with staged := none } ∧ t.fld Fld.CRUST_CHG_STATUS_state = 0 ∧
      RegsKept s t [Reg.CRUST_CHG_STATUS] ∧ t = { s with regs := t.regs, crust := t.crust } := by
  refine ⟨{ s.setFld Fld.CRUST_CHG_STATUS_state 0 with crust := { s.crust with staged := none } }, ?_, rfl, ?_, ?_, rfl⟩
  · change execChgStageExpiry s = _
    rw [execChgStageExpiry, hstaged]
    simp only [if_neg (Nat.not_lt.mpr htime)]
  · exact s.fld_setFld_same (f := Fld.CRUST_CHG_STATUS_state) 0 (by decide)
  · exact regsKept_setFld s (f := Fld.CRUST_CHG_STATUS_state) 0 (by decide) (by simp)

/-- Settles O53: a step of a change ends in a `ChangeStep` (a failure, a record staged, or the end of a change), and a commit by the other
party over the same bytes then applies the record, kind by kind. -/
theorem changes : Obligations.Changes := by
  unfold Obligations.Changes
  refine ⟨fun who s hs => ?_, fun who party r s hs hp hread hform hstate hnonce hsigned => ?_, fun who party r s hs hp hread hbad => ?_,
    fun who party s hs hp hnone => ?_, fun who party c r s hs hp hstaged htime hother hread hsame hsigned hkind => ?_,
    fun c s => chgStageExpiry_expires, fun who party c r s hs hp hstaged htime hother hread hsame hsigned => ?_,
    fun who party c r s hs hp hstaged htime hother hread hdiff => ?_,
    fun who party c r s hs hp hstaged htime hother hread hsame hsigned hkind => ?_,
    fun who party c r s hs hp hstaged htime hother hread hsame hsigned hkind => ?_,
    fun s x => ⟨fun i hi => s.getLsbD_applyTp x hi, (s.applyTp_moved x).kept, (s.applyTp_moved x).only⟩⟩
  case refine_1 => exact ⟨_, exec_chgNonce_of_served hs, chgNonce_begins (s.chgSelected_moved 1 0) rfl⟩
  case refine_2 =>
    obtain ⟨t, hexec, h⟩ := chgStage_stages hs hp hread hform hstate hnonce hsigned
    exact ⟨t, hexec, h.staged, h.state, h.code, h.kept, h.only⟩
  case refine_3 =>
    obtain ⟨t, hexec, h⟩ := chgStage_fails hs hp hread hbad
    refine ⟨t, hexec, h.staged, h.state, h.code.trans (Nat.mod_eq_of_lt ?_), h.only, h.kept⟩
    split
    · decide
    · split <;> decide
  case refine_4 =>
    obtain ⟨t, hexec, h⟩ := chgCommit_refused hs hp hnone
    refine ⟨t, hexec, h.staged, h.state, h.code.trans (Nat.mod_eq_of_lt ?_), h.kept, h.only⟩
    split <;> decide
  case refine_5 =>
    obtain ⟨m, hexec, h⟩ := chgCommit_applies hs hp hstaged htime hother hread hsame hsigned
    exact ⟨_, hexec, applyChange_unlocks h rfl hkind⟩
  case refine_6 =>
    obtain ⟨t, hexec, h⟩ := chgCommit_unsigned hs hp hstaged htime hother hread hsame hsigned
    exact ⟨t, hexec, h.staged, h.state, h.code, h.kept, h.only⟩
  case refine_7 =>
    obtain ⟨t, code, hexec, hcode, h⟩ := chgCommit_differs hs hp hstaged htime hother hread hdiff
    have hlt : code < 0x10000 := by
      simp only [List.mem_cons, List.not_mem_nil, or_false] at hcode
      omega
    exact ⟨t, hexec, h.staged, h.state, (h.code.trans (Nat.mod_eq_of_lt hlt)).symm ▸ hcode, h.kept, h.only⟩
  case refine_8 =>
    obtain ⟨m, hexec, h⟩ := chgCommit_applies hs hp hstaged htime hother hread hsame hsigned
    exact ⟨_, hexec, applyChange_tp h rfl hkind⟩
  case refine_9 =>
    obtain ⟨m, hexec, h⟩ := chgCommit_applies hs hp hstaged htime hother hread hsame hsigned
    exact ⟨_, hexec, applyChange_keys h rfl hkind⟩

end Sys2Proof.Machine
end

section
/-! The proof run and the rotating self-tests (R367 to R373). -/

namespace Sys2Proof.Machine

/-! ### A fold whose updates move registers of their own -/

/-- In a fold whose updates move disjoint registers, each update's registers end as that update leaves them. -/
theorem RegsMoved.foldl_local {α : Type} {f : State → α → State} {own : α → List Nat} {xs : List α} {x : α}
    (hf : ∀ a, ∀ y ∈ xs, RegsMoved a (f a y) (own y)) (hx : x ∈ xs) (hnodup : xs.Nodup)
    (hown : ∀ y ∈ xs, y ≠ x → ∀ a ∈ own x, a ∉ own y) (s : State) :
    ∃ m, (∀ a ∈ own x, m.reg a = s.reg a) ∧ ∀ a ∈ own x, (xs.foldl f s).reg a = (f m x).reg a := by
  obtain ⟨ys, zs, rfl⟩ := List.append_of_mem hx
  have hnot : x ∉ ys ++ zs := (List.nodup_cons.mp (List.nodup_middle.mp hnodup)).1
  have hys : ∀ y ∈ ys, y ≠ x := fun y hy h => hnot (List.mem_append_left _ (h ▸ hy))
  have hzs : ∀ z ∈ zs, z ≠ x := fun z hz h => hnot (List.mem_append_right _ (h ▸ hz))
  have hkept (ws : List α) (hws : ws ⊆ ys ++ x :: zs) (hne : ∀ w ∈ ws, w ≠ x) (u : State) {a : Nat} (ha : a ∈ own x) :
      (ws.foldl f u).reg a = u.reg a := by
    induction ws generalizing u with
    | nil => rfl
    | cons w ws ih =>
      have hw : w ∈ ys ++ x :: zs := hws List.mem_cons_self
      exact (ih (fun v hv => hws (List.mem_cons_of_mem _ hv)) (fun v hv => hne v (List.mem_cons_of_mem _ hv)) _).trans
        ((hf u w hw).reg (hown w hw (hne w List.mem_cons_self) a ha))
  refine ⟨ys.foldl f s, fun a ha => hkept ys (by simp) hys s ha, fun a ha => ?_⟩
  rw [List.foldl_append, List.foldl_cons]
  exact hkept zs (by simp) hzs _ ha

/-! ### The proof run (R367 to R369) -/

/-- The registers that the result of a proof run on a die moves. -/
def proofRegs (d : Nat) : List Nat := Reg.INJ_PROOF_STATUS d :: (Ev.INJ_EVT_STATUS_proof_fail d).regs

theorem proofStatus_not_event (d : Nat) : Reg.INJ_PROOF_STATUS d ∉ (Ev.INJ_EVT_STATUS_proof_fail d).regs := by
  simp only [Evt.regs, Ev.INJ_EVT_STATUS_proof_fail, Reg.INJ_PROOF_STATUS, Reg.INJ_EVT_STATUS, List.mem_cons, List.not_mem_nil, or_false]
  omega

theorem proofRegs_disjoint {d e : Nat} (h : e ≠ d) : ∀ a ∈ proofRegs d, a ∉ proofRegs e := by
  simp only [proofRegs, Evt.regs, Ev.INJ_EVT_STATUS_proof_fail, Reg.INJ_PROOF_STATUS, Reg.INJ_EVT_STATUS, List.mem_cons, List.not_mem_nil,
    or_false]
  omega

theorem State.proofResult_moved (s : State) (d first : Nat) : RegsMoved s (s.proofResult d first) (proofRegs d) := by
  have hset (a : State) (lo width v : Nat) (h : lo + width ≤ 32) : RegsMoved a (a.setFld ⟨Reg.INJ_PROOF_STATUS d, lo, width⟩ v) (proofRegs d) :=
    .setFld a v h (by simp [proofRegs])
  have hdone := hset s 0 1 1 (by decide)
  rw [State.proofResult]
  split
  · exact hdone.trans ((hset _ 1 1 1 (by decide)).trans ((hset _ 8 8 first (by decide)).trans
      ((RegsMoved.event _ _).mono (List.subset_cons_self _ _))))
  · split
    · exact hdone
    · exact hdone.trans (hset _ 8 8 0 (by decide))

section Result
variable (s : State) (d : Nat) {first : Nat}

theorem State.proofResult_done : (s.proofResult d first).flag (Fld.INJ_PROOF_STATUS_done d) = true := by
  obtain ⟨u, hu⟩ : ∃ u, u = s.setFld (Fld.INJ_PROOF_STATUS_done d) 1 := ⟨_, rfl⟩
  have hdone : u.fld (Fld.INJ_PROOF_STATUS_done d) = 1 := hu ▸ s.fld_setFld_same 1 (by simp)
  rw [State.proofResult, ← hu, State.flag, beq_iff_eq]
  split
  · rw [(RegsMoved.event _ _).fld (by simp) (proofStatus_not_event d), State.fld_setFld_ne _ _ (by simp) (by simp) (by simp),
      State.fld_setFld_ne _ _ (by simp) (by simp) (by simp), hdone]
  · split
    · exact hdone
    · rw [State.fld_setFld_ne _ _ (by simp) (by simp) (by simp), hdone]

theorem State.proofResult_passed :
    (s.proofResult d 0).flag (Fld.INJ_PROOF_STATUS_proof_fail d) = s.flag (Fld.INJ_PROOF_STATUS_proof_fail d) := by
  obtain ⟨u, hu⟩ : ∃ u, u = s.setFld (Fld.INJ_PROOF_STATUS_done d) 1 := ⟨_, rfl⟩
  have hfail : u.flag (Fld.INJ_PROOF_STATUS_proof_fail d) = s.flag (Fld.INJ_PROOF_STATUS_proof_fail d) := by
    rw [State.flag, hu, s.fld_setFld_ne 1 (by simp) (by simp) (by simp), State.flag]
  rw [State.proofResult, ← hu, if_neg (by simp), ← hfail]
  split
  · rfl
  · rw [State.flag, State.fld_setFld_ne _ _ (by simp) (by simp) (by simp), State.flag]

theorem State.proofResult_failed (hfirst : first ≠ 0) (hlt : first < 256) :
    (s.proofResult d first).flag (Fld.INJ_PROOF_STATUS_proof_fail d) = true ∧
      (s.proofResult d first).fld (Fld.INJ_PROOF_STATUS_first_id d) = first ∧
      Counted s (s.proofResult d first) (Ev.INJ_EVT_STATUS_proof_fail d) := by
  obtain ⟨u, hu⟩ : ∃ u, u = s.setFld (Fld.INJ_PROOF_STATUS_done d) 1 := ⟨_, rfl⟩
  have hmoved (a : State) (lo width v : Nat) (h : lo + width ≤ 32) :
      RegsMoved a (a.setFld ⟨Reg.INJ_PROOF_STATUS d, lo, width⟩ v) [Reg.INJ_PROOF_STATUS d] := .setFld a v h (by simp)
  rw [State.proofResult, ← hu, if_pos hfirst]
  refine ⟨?_, ?_, ?_⟩
  · rw [(RegsMoved.event _ _).flag (by simp) (proofStatus_not_event d), State.flag, State.fld_setFld_ne _ _ (by simp) (by simp) (by simp),
      u.fld_setFld_same 1 (by simp)]
    rfl
  · rw [(RegsMoved.event _ _).fld (by simp) (proofStatus_not_event d), State.fld_setFld_same _ _ (by simp)]
    exact Nat.mod_eq_of_lt hlt
  · refine RegsMoved.counted ((hu ▸ hmoved s 0 1 1 (by decide)).trans ((hmoved u 1 1 1 (by decide)).trans (hmoved _ 8 8 first (by decide))))
      ?_ (by simp [Ev.INJ_EVT_STATUS_proof_fail]) ?_
    · simp only [Ev.INJ_EVT_STATUS_proof_fail, Reg.INJ_EVT_STATUS]
      omega
    · simp only [Ev.INJ_EVT_STATUS_proof_fail, Reg.INJ_PROOF_STATUS, List.mem_singleton]
      omega

end Result

theorem presentDies_nodup (s : State) : s.presentDies.Nodup := List.nodup_range.filter _

theorem State.proofResults_moved (s : State) (rs : List ProofCheck) :
    RegsMoved s (s.proofResults rs) (s.presentDies.flatMap proofRegs) :=
  .foldl (fun a d hd => (a.proofResult_moved d _).mono fun _ hx => List.mem_flatMap.mpr ⟨d, hd, hx⟩) s

/-- The registers of a present die end a proof run as its own result leaves them. -/
theorem State.proofResults_local (s : State) (rs : List ProofCheck) {d : Nat} (hd : d ∈ s.presentDies) :
    ∃ m : State, (∀ a ∈ proofRegs d, m.reg a = s.reg a) ∧
      ∀ a ∈ proofRegs d, (s.proofResults rs).reg a = (m.proofResult d (firstFailing rs d)).reg a :=
  RegsMoved.foldl_local (fun a e _ => a.proofResult_moved e _) hd (presentDies_nodup s) (fun _ _ h => proofRegs_disjoint h) s

/-- The outputs driven after what Crust holds has changed. -/
theorem State.redriven (s : State) (c : CrustSt) {t : State} (ht : t = ({ s with crust := c } : State).driveOutputs) :
    t.crust = c ∧ t.sansCrust = s.sansCrust ∧ RegsKept s t [Reg.SIO_STO_STATUS] ∧ ∀ h, t.asserted h = s.asserted h := by
  subst ht
  exact ⟨rfl, rfl, (RegsKept.of_regs rfl _).trans (State.regsKept_driveOutputs _), fun h =>
    congrArg (fun n => Nat.testBit n h) (State.fld_driveOutputs _ (f := Fld.SIO_STO_STATUS_asserted) (by decide) (.inr (.inl (by decide))))⟩

/-- The end of a proof run: the outputs are driven with no test, and each present die is given its result. -/
theorem exec_proofRunComplete {rs : List ProofCheck} {s : State} (hrun : s.proofRunning = true) : exec (.proofRunComplete rs) s = .next (({ s with proofRunning := false }.setProofOut none).proofResults rs) := by
  change execProofRunComplete rs s = _
  rw [execProofRunComplete, if_pos hrun]

/-- What the end of a proof run leaves in general, and on a present die. -/
theorem proofRunComplete_ends {rs : List ProofCheck} {s t : State} (ht : t = ({ s with proofRunning := false }.setProofOut none).proofResults rs) :
    t.crust = { s.crust with proofOut := none } ∧ t.sansCrust = ({ s with proofRunning := false } : State).sansCrust ∧
      BlocksKept s t [8, 0x2E, 0x108, 0x208, 0x308, 0x408] ∧
      ∀ d ∈ s.presentDies, ∃ m : State, (∀ a ∈ proofRegs d, m.reg a = s.reg a) ∧
        ∀ a ∈ proofRegs d, t.reg a = (m.proofResult d (firstFailing rs d)).reg a := by
  obtain ⟨u, hu⟩ : ∃ u, u = ({ s with proofRunning := false } : State).setProofOut none := ⟨_, rfl⟩
  rw [← hu] at ht
  obtain ⟨hcrust, hrest, hkept, -⟩ := State.redriven _ _ hu
  have hmoved : RegsMoved u t (u.presentDies.flatMap proofRegs) := ht ▸ u.proofResults_moved rs
  have hpresent : u.presentDies = s.presentDies := (congrArg State.presentDies (State.eq_of_sansCrust hrest)).trans rfl
  refine ⟨hmoved.crust.trans hcrust, hmoved.sansCrust.trans hrest, ?_, fun d hd => ?_⟩
  · refine fun a ha => (hmoved.kept.blocksKept (fun b hb => ?_) a ha).trans (hkept.blocksKept (by decide) a ha)
    obtain ⟨d, hd, hreg⟩ := List.mem_flatMap.mp hb
    have hlt : d < 5 := List.mem_range.mp (List.mem_filter.mp (hpresent ▸ hd)).1
    simp only [proofRegs, Evt.regs, Ev.INJ_EVT_STATUS_proof_fail, Reg.INJ_PROOF_STATUS, Reg.INJ_EVT_STATUS, List.mem_cons,
      List.not_mem_nil, or_false] at hreg
    interval_cases d <;> rcases hreg with rfl | rfl | rfl <;> decide
  · obtain ⟨m, hm, hlocal⟩ := u.proofResults_local rs (hpresent.symm ▸ hd)
    refine ⟨m, fun a ha => (hm a ha).trans (hkept.reg ?_), fun a ha => ht ▸ hlocal a ha⟩
    simp only [proofRegs, Evt.regs, Ev.INJ_EVT_STATUS_proof_fail, Reg.INJ_PROOF_STATUS, Reg.INJ_EVT_STATUS, List.mem_cons,
      List.not_mem_nil, or_false] at ha
    simp only [List.mem_singleton, Reg.SIO_STO_STATUS]
    omega

theorem proofRunComplete_passes {rs : List ProofCheck} {s : State} (hrun : s.proofRunning = true) :
    ∃ t, exec (.proofRunComplete rs) s = .next t ∧ t.proofRunning = false ∧ t.crust.proofOut = none ∧
      (∀ d ∈ s.presentDies, t.flag (Fld.INJ_PROOF_STATUS_done d) = true) ∧
      (∀ d ∈ s.presentDies, (∀ c ∈ rs, c.die = d → c.detected = true ∧ c.reported = true) →
        t.flag (Fld.INJ_PROOF_STATUS_proof_fail d) = s.flag (Fld.INJ_PROOF_STATUS_proof_fail d)) ∧
      t = { s with regs := t.regs, crust := t.crust, proofRunning := false } ∧ { t.crust with proofOut := s.crust.proofOut } = s.crust ∧
     BlocksKept s t [8, 0x2E, 0x108, 0x208, 0x308, 0x408] := by
  refine ⟨_, exec_proofRunComplete hrun, ?_⟩
  obtain ⟨t, ht⟩ : ∃ t, t = ({ s with proofRunning := false }.setProofOut none).proofResults rs := ⟨_, rfl⟩
  rw [← ht]
  obtain ⟨hcrust, hrest, hkept, hlocal⟩ := proofRunComplete_ends ht
  have honly := State.eq_of_sansCrust hrest
  refine ⟨(congrArg State.proofRunning honly :), by rw [hcrust], fun d hd => ?_, fun d hd hpass => ?_, honly, by rw [hcrust], hkept⟩
  · obtain ⟨m, -, hreg⟩ := hlocal d hd
    rw [State.flag, State.fld_of_reg (by simp) (hreg _ (by simp [proofRegs]))]
    exact m.proofResult_done d
  · obtain ⟨m, hm, hreg⟩ := hlocal d hd
    have hnone : firstFailing rs d = 0 := by
      rw [firstFailing, List.find?_eq_none.mpr fun c hc => ?_]
      · rfl
      · by_cases hdie : c.die = d
        · simp [hdie, checkPassed, hpass c hc hdie]
        · simp [hdie]
    rw [hnone] at hreg
    rw [State.flag, State.fld_of_reg (by simp) (hreg _ (by simp [proofRegs]))]
    exact (m.proofResult_passed d).trans (congrArg (· == 1) (State.fld_of_reg (by simp) (hm _ (by simp [proofRegs]))))

theorem proofRunComplete_fails {rs : List ProofCheck} {d : Nat} {c : ProofCheck} {s : State} (hrun : s.proofRunning = true)
    (hd : d ∈ s.presentDies) (hfind : rs.find? (fun x => x.die == d && !(x.detected && x.reported)) = some c) (hid : c.id ≠ 0)
    (hlt : c.id < 256) :
    ∃ t, exec (.proofRunComplete rs) s = .next t ∧ t.flag (Fld.INJ_PROOF_STATUS_proof_fail d) = true ∧
      t.fld (Fld.INJ_PROOF_STATUS_first_id d) = c.id ∧ Counted s t (Ev.INJ_EVT_STATUS_proof_fail d) := by
  refine ⟨_, exec_proofRunComplete hrun, ?_⟩
  obtain ⟨t, ht⟩ : ∃ t, t = ({ s with proofRunning := false }.setProofOut none).proofResults rs := ⟨_, rfl⟩
  rw [← ht]
  obtain ⟨-, -, -, hlocal⟩ := proofRunComplete_ends ht
  obtain ⟨m, hm, hreg⟩ := hlocal d hd
  have hfirst : firstFailing rs d = c.id := by
    rw [firstFailing, show (fun c : ProofCheck => c.die == d && !checkPassed c) = fun x => x.die == d && !(x.detected && x.reported) from rfl,
      hfind]
    rfl
  rw [hfirst] at hreg
  obtain ⟨hfail, hshown, hstatus, hcount⟩ := m.proofResult_failed d hid hlt
  refine ⟨?_, ?_, ?_, ?_⟩
  · rw [State.flag, State.fld_of_reg (by simp) (hreg _ (by simp [proofRegs]))]
    exact hfail
  · rw [State.fld_of_reg (by simp) (hreg _ (by simp [proofRegs]))]
    exact hshown
  · rw [hreg _ (by simp [proofRegs, Evt.regs])]
    exact hstatus
  · rw [hreg _ (by simp [proofRegs, Evt.regs]), hcount, hm _ (by simp [proofRegs, Evt.regs])]

theorem exec_proofRunOnDemand_of_served {who : Requester} {s : State} (hs : s.served who 0 0x08 false = true) :
    exec (.proofRunOnDemand who) s = .next
      (if s.fld Fld.SIO_STO_STATUS_asserted = 15 ∧ s.proofRunning = false ∧
        (s.ctxs.all (fun p => p.2.phase != .resident || s.quiesced p.1)) = true then { s with proofRunning := true }
      else s.event (Ev.INJ_EVT_STATUS_cmd_reject 0)) := by
  change execProofRunOnDemand who s = _
  rw [execProofRunOnDemand, State.busWrite_of_served _ hs]

theorem proofRunOnDemand_starts {who : Requester} {s : State} (hs : s.served who 0 0x08 false = true) (hall : s.allAsserted = true)
    (hrun : s.proofRunning = false) (hquiet : ∀ p ∈ s.ctxs, p.2.phase = .resident → s.quiesced p.1 = true) :
    exec (.proofRunOnDemand who) s = .next { s with proofRunning := true } := by
  rw [exec_proofRunOnDemand_of_served hs, if_pos]
  refine ⟨beq_iff_eq.mp hall, hrun, List.all_eq_true.mpr fun p hp => ?_⟩
  by_cases hphase : p.2.phase = .resident
  · rw [hquiet p hp hphase, Bool.or_true]
  · rw [bne_iff_ne.mpr hphase, Bool.true_or]

theorem proofRunOnDemand_rejected {who : Requester} {s : State} (hs : s.served who 0 0x08 false = true)
    (h : s.allAsserted = false ∨ s.proofRunning = true ∨ ∃ p ∈ s.ctxs, p.2.phase = .resident ∧ s.quiesced p.1 = false) :
    exec (.proofRunOnDemand who) s = .next (s.event (Ev.INJ_EVT_STATUS_cmd_reject 0)) := by
  rw [exec_proofRunOnDemand_of_served hs, if_neg]
  rintro ⟨hall, hrun, hquiet⟩
  rcases h with h | h | ⟨p, hp, hphase, hbusy⟩
  · exact Bool.false_ne_true (h.symm.trans (beq_iff_eq.mpr hall))
  · exact Bool.false_ne_true (hrun.symm.trans h)
  · have := List.all_eq_true.mp hquiet p hp
    simp [hphase, hbusy] at this

/-! ### The repetition of a failed proof run (R368) -/

/-- SELFTEST raised, with the time. -/
def State.repeatFail (s : State) : State := ({ s with crust := { s.crust with failAt := some s.monoNs } } : State).report 0x11 0

theorem exec_proofFailRepeat_of_due {s : State} (hfailed : s.proofFailed = true)
    (hdue : ∀ t0, s.crust.failAt = some t0 → t0 + 1000000 ≤ s.monoNs) : exec .proofFailRepeat s = .next s.repeatFail := by
  have helim : s.crust.failAt.elim true (fun t => decide (t + 1000000 ≤ s.monoNs)) = true := by
    cases h : s.crust.failAt with
    | none => rfl
    | some t0 => rw [Option.elim_some, decide_eq_true (hdue t0 h)]
  change execProofFailRepeat s = _
  rw [execProofFailRepeat, hfailed, helim, Bool.and_self, if_pos rfl, State.repeatFail]

theorem exec_proofFailRepeat_of_recent {t0 : Nat} {s : State} (hlast : s.crust.failAt = some t0) (hrecent : s.monoNs < t0 + 1000000) :
    exec .proofFailRepeat s = .next s := by
  have helim : s.crust.failAt.elim true (fun t => decide (t + 1000000 ≤ s.monoNs)) = false := by
    rw [hlast, Option.elim_some, decide_eq_false (Nat.not_le.mpr hrecent)]
  change execProofFailRepeat s = _
  rw [execProofFailRepeat, helim, Bool.and_false, if_neg Bool.false_ne_true]

theorem proofFailRepeat_reports {d : Nat} {s : State} (hd : d ∈ s.presentDies) (hfail : s.flag (Fld.INJ_PROOF_STATUS_proof_fail d) = true)
    (hdue : ∀ t0, s.crust.failAt = some t0 → t0 + 1000000 ≤ s.monoNs) :
    ∃ t, exec .proofFailRepeat s = .next t ∧ t.crust = { s.crust with failAt := some s.monoNs, reports := s.crust.reports ++ [(0x11, 0)] } ∧
      (∀ g, t.releasable g = false) ∧ exec .proofFailRepeat t = .next t ∧ t = { s with crust := t.crust } := by
  have hfailed : s.proofFailed = true := List.any_eq_true.mpr ⟨d, hd, hfail⟩
  obtain ⟨t, ht⟩ : ∃ t, t = s.repeatFail := ⟨_, rfl⟩
  have hcrust : t.crust = { s.crust with failAt := some s.monoNs, reports := s.crust.reports ++ [(0x11, 0)] } := ht ▸ rfl
  have honly : t = { s with crust := t.crust } := ht ▸ rfl
  have hmono : t.monoNs = s.monoNs := (congrArg State.monoNs honly :)
  have hstill : t.proofFailed = true := (congrArg State.proofFailed honly :).trans hfailed
  refine ⟨t, ht ▸ exec_proofFailRepeat_of_due hfailed hdue, hcrust, fun g => ?_, ?_, honly⟩
  · rw [State.releasable, hstill, Bool.not_true, Bool.and_false]
  · exact exec_proofFailRepeat_of_recent (t0 := s.monoNs) (by rw [hcrust]) (by omega)

/-! ### Rotating self-tests (R370 to R373) -/

theorem State.lastPass_notePass (s : State) (key : Nat) : (s.notePass key).lastPass key = s.monoNs := Sparse.get_put_same

theorem State.selftestFail_fails {s m t : State} (hm : m.sansCrust = s.sansCrust) (hreports : m.crust.reports = s.crust.reports)
    (ht : t = m.selftestFail) :
    t.crust = { m.crust with reports := s.crust.reports ++ [(0x11, 0)] } ∧ Counted m t (Ev.INJ_EVT_STATUS_st_fail 0) ∧
      t = { s with regs := t.regs, crust := t.crust } ∧ RegsKept m t (Ev.INJ_EVT_STATUS_st_fail 0).regs := by
  have hmoved := RegsMoved.event m (Ev.INJ_EVT_STATUS_st_fail 0)
  have hcounted := counted_event m (e := Ev.INJ_EVT_STATUS_st_fail 0) (by decide) (by decide)
  subst ht
  refine ⟨?_, hcounted, State.eq_of_sansCrust (hmoved.sansCrust.trans hm), hmoved.kept⟩
  rw [← hreports]
  rfl

theorem exec_selftestSlot_first {g : Nat} {detected : Bool} {s : State} (hslot : s.now % 50000000 / 5000000 = 0)
    (hrun : s.flag Fld.CRUST_STATUS_run = true) : exec (.selftestSlot g detected) s = .next (s.judgeTest 0 detected) := by
  change execSelftestSlot g detected s = _
  rw [execSelftestSlot, hslot, hrun]
  rfl

theorem selftestSlot_pulses {g : Nat} {s : State} (hslot : s.now % 50000000 / 5000000 = 5) (hrun : s.flag Fld.CRUST_STATUS_run = true)
    (hturn : s.pulseTurn (s.now / 5000000) = some g) (hpulse : s.crust.pulse = none) :
    ∃ t, exec (.selftestSlot g true) s = .next t ∧ t.crust.pulse = some (2 * g, s.monoNs) ∧ t.energised (2 * g) = false ∧
      t.crust.turn = (s.now / 5000000, g + 1) ∧ (∀ h, t.asserted h = s.asserted h) ∧ t = { s with regs := t.regs, crust := t.crust } ∧
     RegsKept s t [Reg.SIO_STO_STATUS] := by
  obtain ⟨c, hc⟩ : ∃ c, c = { s.crust with pulse := some (2 * g, s.monoNs), turn := (s.now / 5000000, g + 1) } := ⟨_, rfl⟩
  have hexec : exec (.selftestSlot g true) s = .next ({ s with crust := c } : State).driveOutputs := by
    change execSelftestSlot g true s = _
    rw [execSelftestSlot, hslot, hrun, hturn, hpulse, hc]
    simp
  obtain ⟨t, ht⟩ : ∃ t, t = ({ s with crust := c } : State).driveOutputs := ⟨_, rfl⟩
  obtain ⟨hcrust, hrest, hkept, hasserted⟩ := s.redriven c ht
  have hreleased : s.asserted g = false := by
    have hfound := List.find?_some hturn
    simp only [Bool.and_eq_true, State.pulsable] at hfound
    simpa using hfound.2.1.1.2
  refine ⟨t, ht ▸ hexec, by rw [hcrust, hc], ?_, by rw [hcrust, hc], hasserted, State.eq_of_sansCrust hrest, hkept⟩
  rw [State.energised, Nat.mul_div_cancel_left g (by decide), hasserted, hreleased, hcrust, hc]
  simp

/-- A pulse of 200 µs that has lasted: the test is over, the outputs are driven, and the wire and the test are judged. -/
theorem exec_stoPulseEnd_of_due {x t0 : Nat} {high : Bool} {s m : State} (hpulse : s.crust.pulse = some (x, t0)) (hdue : t0 + 200000 ≤ s.monoNs)
    (hm : m = ({ s with crust := { s.crust with pulse := none } } : State).driveOutputs) :
    exec (.stoPulseEnd high) s = .next
      ((if high then m.latchWire x 4 (m.fld (Fld.SIO_WIRE_ma x)) else m.endWire x 4 (m.fld (Fld.SIO_WIRE_ma x))).judgeTest
        (4 * (5 + 2 * (x % 2)) + x / 2) (!high)) := by
  subst hm
  change execStoPulseEnd high s = _
  rw [execStoPulseEnd, hpulse]
  simp only [if_neg (Nat.not_lt.mpr hdue)]

/-- A measurement that does not find a condition moves its wire alone. -/
theorem State.endWire_ends (s : State) (k cond ma : Nat) {t : State} (ht : t = s.endWire k cond ma) :
    t.sansCrust = s.sansCrust ∧ { t.crust with wires := s.crust.wires } = s.crust ∧ RegsKept s t [Reg.SIO_WIRE k] := by
  obtain ⟨u, hu⟩ : ∃ u, u = s.setWire k ((s.wire k).filter (fun c => c != cond)) := ⟨_, rfl⟩
  have hshown : RegsMoved u t [Reg.SIO_WIRE k] := by
    rw [ht, State.endWire, ← hu]
    exact .setFld u _ (by simp) (by simp)
  refine ⟨hshown.sansCrust.trans (hu ▸ s.sansCrust_setWire k _), ?_, (hu ▸ s.regsKept_setWire k _ : RegsKept s u _).trans hshown.kept⟩
  rw [hshown.crust, hu]
  rfl

theorem stoPulseEnd_passes {x t0 : Nat} {s : State} (hpulse : s.crust.pulse = some (x, t0)) (hdue : t0 + 200000 ≤ s.monoNs) :
    ∃ t, exec (.stoPulseEnd false) s = .next t ∧ t.crust.pulse = none ∧ t.lastPass (4 * (5 + 2 * (x % 2)) + x / 2) = s.monoNs ∧
      t.crust.reports = s.crust.reports ∧ (∀ h, t.asserted h = s.asserted h) ∧ t = { s with regs := t.regs, crust := t.crust } ∧
     RegsKept s t [Reg.SIO_STO_STATUS, Reg.SIO_WIRE x] := by
  obtain ⟨m, hm⟩ : ∃ m, m = ({ s with crust := { s.crust with pulse := none } } : State).driveOutputs := ⟨_, rfl⟩
  obtain ⟨u, hu⟩ : ∃ u, u = m.endWire x 4 (m.fld (Fld.SIO_WIRE_ma x)) := ⟨_, rfl⟩
  obtain ⟨hcrust, hrest, hkept, hasserted⟩ := s.redriven _ hm
  obtain ⟨hrest', hcrust', hkept'⟩ := m.endWire_ends _ _ _ hu
  have hmono : u.monoNs = s.monoNs := (congrArg State.monoNs (State.eq_of_sansCrust (hrest'.trans hrest))).trans rfl
  have hexec : exec (.stoPulseEnd false) s = .next (u.notePass (4 * (5 + 2 * (x % 2)) + x / 2)) := by
    rw [exec_stoPulseEnd_of_due hpulse hdue hm, if_neg Bool.false_ne_true, ← hu]
    rfl
  refine ⟨_, hexec, ?_, (State.lastPass_notePass _ _).trans hmono, ?_, fun h => ?_, State.eq_of_sansCrust (hrest'.trans hrest), ?_⟩
  · exact (congrArg CrustSt.pulse hcrust' :).trans (by rw [hcrust])
  · exact (congrArg CrustSt.reports hcrust' :).trans (by rw [hcrust])
  · refine Eq.trans (congrArg (fun n => Nat.testBit n h) (hkept'.fld (f := Fld.SIO_STO_STATUS_asserted) (by decide) ?_)) (hasserted h)
    simpa using (sioWire_not_event x _ (by decide)).symm
  · exact (hkept.mono (by simp)).trans (hkept'.mono (by simp))

theorem State.latchWire_latches (s : State) (k : Nat) {cond : Nat} (ma : Nat) (hfree : s.fld (Fld.SIO_WIRE_cond k) = 0) (hcond : cond < 8)
    {t : State} (ht : t = s.latchWire k cond ma) :
    t.fld (Fld.SIO_WIRE_cond k) = cond ∧ t.flag (Fld.SIO_WIRE_live k) = true ∧ t.sansCrust = s.sansCrust ∧
      { t.crust with wires := s.crust.wires } = s.crust ∧ RegsKept s t (Reg.SIO_WIRE k :: Ev.SIO_WIRE_EVT_wire.regs) := by
  obtain ⟨u, hu⟩ : ∃ u, u = t.report 0x16 0 := ⟨_, rfl⟩
  obtain ⟨hlatched, hlive, -, honly, hkept⟩ := s.wireFault_latches k ma hfree hcond (hu.trans (by rw [ht, State.wireFault]))
  have hregs : u.regs = t.regs := hu ▸ rfl
  have hrest : t.sansCrust = u.sansCrust := hu ▸ rfl
  refine ⟨?_, ?_, hrest.trans ((congrArg State.sansCrust honly).trans rfl), ?_, fun a ha => (State.reg_congr hregs a).symm.trans (hkept a ha)⟩
  · exact (State.fld_of_reg (by simp) (State.reg_congr hregs _)).symm.trans hlatched
  · rw [State.flag, ← State.fld_of_reg (t := u) (by simp) (State.reg_congr hregs _)]
    exact hlive
  · obtain ⟨v, hv⟩ : ∃ v, v = (s.setWire k (if (s.wire k).contains cond then s.wire k else s.wire k ++ [cond])).setFld (Fld.SIO_WIRE_ma k) ma :=
      ⟨_, rfl⟩
    have hcrust : v.crust = (s.setWire k (if (s.wire k).contains cond then s.wire k else s.wire k ++ [cond])).crust := by
      rw [hv]
      exact (RegsMoved.setFld (l := [Reg.SIO_WIRE k]) _ _ (by simp) (by simp)).crust
    have hshown : RegsMoved v t (Reg.SIO_WIRE k :: Ev.SIO_WIRE_EVT_wire.regs) := by
      rw [ht, State.latchWire, if_pos hfree, ← hv]
      exact (RegsMoved.setFld v _ (by simp) (by simp)).trans ((RegsMoved.event _ _).mono (List.subset_cons_self _ _))
    rw [hshown.crust, hcrust]
    rfl

theorem stoPulseEnd_fails {x t0 : Nat} {s : State} (hpulse : s.crust.pulse = some (x, t0)) (hdue : t0 + 200000 ≤ s.monoNs)
    (hx : x < 8) (hfree : s.fld (Fld.SIO_WIRE_cond x) = 0) :
    ∃ t, exec (.stoPulseEnd true) s = .next t ∧ t.crust.pulse = none ∧ t.fld (Fld.SIO_WIRE_cond x) = 4 ∧
      t.flag (Fld.SIO_WIRE_live x) = true ∧ t.crust.reports = s.crust.reports ++ [(0x11, 0)] ∧ Counted s t (Ev.INJ_EVT_STATUS_st_fail 0) ∧
     RegsKept s t (Reg.SIO_STO_STATUS :: Reg.SIO_WIRE x :: Ev.SIO_WIRE_EVT_wire.regs ++ (Ev.INJ_EVT_STATUS_st_fail 0).regs) ∧ t =
       { s with regs := t.regs, crust := t.crust } := by
  obtain ⟨m, hm⟩ : ∃ m, m = ({ s with crust := { s.crust with pulse := none } } : State).driveOutputs := ⟨_, rfl⟩
  obtain ⟨u, hu⟩ : ∃ u, u = m.latchWire x 4 (m.fld (Fld.SIO_WIRE_ma x)) := ⟨_, rfl⟩
  obtain ⟨t, ht⟩ : ∃ t, t = u.selftestFail := ⟨_, rfl⟩
  obtain ⟨hcrust, hrest, hkept, -⟩ := s.redriven _ hm
  have hsto : Reg.SIO_WIRE x ∉ [Reg.SIO_STO_STATUS] := by simpa using sioWire_not_event x _ (by decide)
  obtain ⟨hlatched, hlive, hrest', hcrust', hkept'⟩ := m.latchWire_latches x _ ((hkept.fld (by simp) hsto).trans hfree) (by decide) hu
  obtain ⟨hcrust'', hcounted, honly, hkept''⟩ := State.selftestFail_fails (hrest'.trans hrest)
    ((congrArg CrustSt.reports hcrust' :).trans (by rw [hcrust])) ht
  have hexec : exec (.stoPulseEnd true) s = .next t := by
    rw [exec_stoPulseEnd_of_due hpulse hdue hm, if_pos rfl, ← hu, ht]
    rfl
  have hwire : Reg.SIO_WIRE x ∉ (Ev.INJ_EVT_STATUS_st_fail 0).regs := by
    simp only [Evt.regs, Ev.INJ_EVT_STATUS_st_fail, Reg.INJ_EVT_STATUS, List.mem_cons, List.not_mem_nil, or_false, Reg.SIO_WIRE]
    omega
  have hcounter : u.reg (Ev.INJ_EVT_STATUS_st_fail 0).counter = s.reg (Ev.INJ_EVT_STATUS_st_fail 0).counter := by
    refine (hkept'.reg ?_).trans (hkept.reg (by decide))
    interval_cases x <;> decide
  refine ⟨t, hexec, ?_, (hkept''.fld (by simp) hwire).trans hlatched, (hkept''.flag (by simp) hwire).trans hlive, by rw [hcrust''],
    hcounted.since hcounter, ?_, honly⟩
  · rw [hcrust'']
    exact (congrArg CrustSt.pulse hcrust' :).trans (by rw [hcrust])
  · exact (hkept.mono (by simp)).trans ((hkept'.mono fun a ha => List.mem_append_left _ (List.mem_cons_of_mem _ ha)).trans (hkept''.mono (List.subset_append_right _ _)))

theorem estopTestEnd_passes {c t0 : Nat} {s : State} (htest : s.crust.estopTest = some (c, t0)) (hdue : t0 + 100000 ≤ s.monoNs) :
    ∃ t, exec (.estopTestEnd false) s = .next t ∧ t.crust.estopTest = none ∧ t.lastPass (4 * (6 + 2 * c)) = s.monoNs ∧
      t.crust.reports = s.crust.reports ∧ RegsKept s t [Reg.SIO_WIRE (8 + c)] ∧ t = { s with regs := t.regs, crust := t.crust } := by
  obtain ⟨m, hm⟩ : ∃ m, m = ({ s with crust := { s.crust with estopTest := none } } : State) := ⟨_, rfl⟩
  obtain ⟨u, hu⟩ : ∃ u, u = m.endWire (8 + c) 6 (m.fld (Fld.SIO_WIRE_ma (8 + c))) := ⟨_, rfl⟩
  obtain ⟨hrest', hcrust', hkept'⟩ := m.endWire_ends _ _ _ hu
  have hrest : m.sansCrust = s.sansCrust := hm ▸ rfl
  have hcrust : m.crust = { s.crust with estopTest := none } := hm ▸ rfl
  have hkept : RegsKept s m [Reg.SIO_WIRE (8 + c)] := .of_regs (hm ▸ rfl) _
  have hmono : u.monoNs = s.monoNs := (congrArg State.monoNs (State.eq_of_sansCrust (hrest'.trans hrest))).trans rfl
  have hexec : exec (.estopTestEnd false) s = .next (u.notePass (4 * (6 + 2 * c))) := by
    change execEstopTestEnd false s = _
    rw [execEstopTestEnd, htest]
    simp only [if_neg (Nat.not_lt.mpr hdue), ← hm, if_neg Bool.false_ne_true, ← hu]
    rfl
  refine ⟨_, hexec, ?_, (State.lastPass_notePass _ _).trans hmono, ?_, hkept.trans hkept', State.eq_of_sansCrust (hrest'.trans hrest)⟩
  · exact (congrArg CrustSt.estopTest hcrust' :).trans (by rw [hcrust])
  · exact (congrArg CrustSt.reports hcrust' :).trans (by rw [hcrust])

theorem selftestOverdue_of_raised {slot g : Nat} {s : State} (h : s.crust.overdue.contains (4 * slot + g) = true) :
    exec (.selftestOverdue slot g) s = .next s := by
  change execSelftestOverdue slot g s = _
  rw [execSelftestOverdue]
  simp only [h, or_true, if_true]

theorem selftestOverdue_raises {slot g : Nat} {s : State} (hrun : s.flag Fld.CRUST_STATUS_run = true)
    (hinterval : s.intervalRuns slot g = true) (hlate : s.lastPass (4 * slot + g) + 100000000 < s.monoNs)
    (hnew : s.crust.overdue.contains (4 * slot + g) = false) :
    ∃ t, exec (.selftestOverdue slot g) s = .next t ∧ t.crust.overdue = s.crust.overdue ++ [4 * slot + g] ∧
      t.crust.reports = s.crust.reports ++ [(0x11, 0)] ∧ Counted s t (Ev.INJ_EVT_STATUS_st_fail 0) ∧
      exec (.selftestOverdue slot g) t = .next t ∧
     RegsKept s t (Ev.INJ_EVT_STATUS_st_fail 0).regs ∧ t = { s with regs := t.regs, crust := t.crust } := by
  obtain ⟨m, hm⟩ : ∃ m, m = ({ s with crust := { s.crust with overdue := s.crust.overdue ++ [4 * slot + g] } } : State) := ⟨_, rfl⟩
  obtain ⟨t, ht⟩ : ∃ t, t = m.selftestFail := ⟨_, rfl⟩
  have hregs : m.regs = s.regs := hm ▸ rfl
  have hoverdue : m.crust.overdue = s.crust.overdue ++ [4 * slot + g] := hm ▸ rfl
  obtain ⟨hcrust, hcounted, honly, hkept⟩ := State.selftestFail_fails (s := s) (hm ▸ rfl) (hm ▸ rfl) ht
  have hexec : exec (.selftestOverdue slot g) s = .next t := by
    change execSelftestOverdue slot g s = _
    rw [execSelftestOverdue]
    simp only [hrun, hinterval, hnew, Nat.not_le.mpr hlate, Bool.true_eq_false, Bool.false_eq_true, or_self, if_false, ← hm, ← ht]
  have hraised : t.crust.overdue = s.crust.overdue ++ [4 * slot + g] := by rw [hcrust, hoverdue]
  refine ⟨t, hexec, hraised, by rw [hcrust], hcounted.since (State.reg_congr hregs _), selftestOverdue_of_raised ?_,
    (RegsKept.of_regs hregs _).trans hkept, honly⟩
  rw [hraised]
  simp

/-- Settles O54: a proof run gives each present die its own result (`RegsMoved.foldl_local`); the end of a pulse or of a channel's test drives
the outputs, measures the wire, and notes a pass or reports SELFTEST. -/
theorem selfTests : Obligations.SelfTests := by
  unfold Obligations.SelfTests
  refine ⟨fun who s => proofRunOnDemand_starts, fun who s hs h => ?_, fun rs s => proofRunComplete_passes,
    fun rs d c s => proofRunComplete_fails, fun d s => proofFailRepeat_reports, fun g s hslot hrun => ?_, fun g s hslot hrun => ?_,
    fun g s => selftestSlot_pulses, fun x t0 s hpulse hdue _ => stoPulseEnd_passes hpulse hdue, fun x t0 s => stoPulseEnd_fails,
    fun c t0 s htest hdue _ => estopTestEnd_passes htest hdue, fun slot g s => selftestOverdue_raises⟩
  case refine_1 =>
    have hmoved := RegsMoved.event s (Ev.INJ_EVT_STATUS_cmd_reject 0)
    exact ⟨_, proofRunOnDemand_rejected hs h, counted_event s (by decide) (by decide), hmoved.only, hmoved.kept⟩
  case refine_2 =>
    exact ⟨_, exec_selftestSlot_first hslot hrun, s.lastPass_notePass 0, rfl, rfl⟩
  case refine_3 =>
    obtain ⟨t, ht⟩ : ∃ t, t = s.selftestFail := ⟨_, rfl⟩
    obtain ⟨hcrust, hcounted, honly, hkept⟩ := State.selftestFail_fails rfl rfl ht
    exact ⟨t, (exec_selftestSlot_first hslot hrun).trans (ht ▸ rfl), by rw [hcrust], hcounted, honly, hkept⟩

end Sys2Proof.Machine
end

section
/-! The cores' watchdogs and restarts (R389, R390), and attestation quotes (R398 to R401). -/

namespace Sys2Proof.Machine

/-! ### A write through BAR2 (R86) -/

section Put
variable (s : State)

theorem State.bar2Target_sansTime (d m : Nat) (b : BootSt) : ({ s with devTime := d, mono := m, boot := b } : State).bar2Target = s.bar2Target := rfl

theorem State.bar2Target_sansPhys (p : Memory) (f : FlashStore) (n : Nat) :
    ({ s with phys := p, flash := f, freeCtr := n } : State).bar2Target = s.bar2Target := rfl

theorem State.bar2Target_setByte (p : Nat) (b : BitVec 8) : (s.setByte p b).bar2Target = s.bar2Target := rfl

theorem State.bar2Target_flashPut (p : Nat) (b : BitVec 8) : (s.flashPut p b).bar2Target = s.bar2Target := by
  rw [s.flashPut_only p b]
  rfl

end Put

/-- The bytes of physical memory that a write through BAR2 leaves depend on physical memory and on where the bytes lead. -/
theorem State.phys_bar2Put {u v : State} (bs : Bytes) {off : Nat} (hphys : v.phys = u.phys) (htarget : v.bar2Target = u.bar2Target) :
    (v.bar2Put off bs).phys = (u.bar2Put off bs).phys := by
  induction bs generalizing u v off with
  | nil => exact hphys
  | cons b bs ih =>
    rw [State.bar2Put, State.bar2Put, htarget]
    split
    next p _ =>
      refine ih ?_ (by rw [State.bar2Target_setByte, State.bar2Target_setByte, htarget])
      rw [State.setByte, State.setByte, hphys]
    next a _ =>
      refine ih ?_ (by rw [State.bar2Target_flashPut, State.bar2Target_flashPut, htarget])
      rw [u.flashPut_only a b, v.flashPut_only a b]
      exact hphys
    next => exact ih hphys htarget

theorem State.bar2WriteOk_congr {u v : State} (htarget : v.bar2Target = u.bar2Target) (hflash : v.flashWritable = u.flashWritable) (off n : Nat) :
    v.bar2WriteOk off n = u.bar2WriteOk off n := by
  induction n generalizing off with
  | zero => rfl
  | succ n ih => rw [State.bar2WriteOk, State.bar2WriteOk, htarget, hflash, ih]

/-! ### An idle cycle that ends a quote (R401) -/

/-- The state of a cycle in which a quote is no longer being formed. -/
def State.quoteEnded (s : State) : State := { s with boot := { s.boot with quote := none } }.setFld Fld.KEY_ATT_STATUS_busy 0

theorem State.finishQuote_eq {s : State} {a : Nat} {b : Bytes} (h : s.boot.quote = some (a, b)) :
    s.finishQuote =
      if s.quoteEnded.bar2WriteOk a 512 then
        { s.quoteEnded.bar2Put a (b ++ ecdsaSign Config.identityKey b ++ List.replicate 92 0) with
          boot := { (s.quoteEnded.bar2Put a (b ++ ecdsaSign Config.identityKey b ++ List.replicate 92 0)).boot with
            quotes := (s.quoteEnded.bar2Put a (b ++ ecdsaSign Config.identityKey b ++ List.replicate 92 0)).boot.quotes + 1 } }.setFld
          Fld.KEY_ATT_STATUS_code 0
      else (s.quoteEnded.setFld Fld.KEY_ATT_STATUS_code 0x0C20).hqEvent Ev.HQ_EVT_STATUS_win_fault := by
  rw [State.finishQuote, h]
  rfl

/-- What the end of a quote leaves before it is written. -/
theorem State.quoteEnded_moved (s : State) {u : State} (hu : u = s.quoteEnded) :
    RegsMoved { s with boot := { s.boot with quote := none } } u [Reg.KEY_ATT_STATUS] ∧ u.flag Fld.KEY_ATT_STATUS_busy = false := by
  subst hu
  exact ⟨.setFld _ _ (by decide) (by simp), State.flag_setFld_same _ _ (by decide) rfl⟩

/-- Where BAR2 leads, and whether flash may be written, once time has passed and a quote has ended. -/
theorem State.quoteEnded_bar2 (s : State) {u : State} (hu : u = s.tick.quoteEnded) :
    u.bar2Target = s.bar2Target ∧ u.flashWritable = s.flashWritable ∧ u.phys = s.phys := by
  obtain ⟨hmoved, -⟩ := s.tick.quoteEnded_moved hu
  refine ⟨?_, ?_, (congrArg State.phys hmoved.only :)⟩
  · funext acc off
    exact hmoved.bar2Target (by decide) acc off
  · rw [State.flashWritable, hmoved.fld (f := Fld.FTL_STATUS_mode) (by decide) (by decide)]
    rfl

theorem step_of_quote {s : State} (hpending : s.pending = []) (hproof : s.proofRunning = false)
    (hfree : ∀ g, g < 4 → s.tick.groupHeld g s.tick.now = false) : step s = .next s.tick.finishQuote := by
  rw [step_idle hpending, State.holdAll_of_not_held hfree, State.proofPulse_of_not_running (s := s.tick) hproof]

theorem quote_written {a : Nat} {b : Bytes} {s : State} (hpending : s.pending = []) (hquote : s.boot.quote = some (a, b))
    (hproof : s.proofRunning = false) (hfree : ∀ g, g < 4 → s.tick.groupHeld g s.tick.now = false) (hok : s.bar2WriteOk a 512 = true) :
    ∃ t, step s = .next t ∧ t.boot = { s.boot with quote := none, quotes := s.boot.quotes + 1 } ∧
      t.flag Fld.KEY_ATT_STATUS_busy = false ∧ t.fld Fld.KEY_ATT_STATUS_code = 0 ∧
      t.phys = (s.bar2Put a (b ++ ecdsaSign Config.identityKey b ++ List.replicate 92 0)).phys ∧ RegsKept s t [Reg.KEY_ATT_STATUS] := by
  obtain ⟨u, hu⟩ : ∃ u, u = s.tick.quoteEnded := ⟨_, rfl⟩
  obtain ⟨bs, hbs⟩ : ∃ bs, bs = b ++ ecdsaSign Config.identityKey b ++ List.replicate 92 0 := ⟨_, rfl⟩
  obtain ⟨hmoved, hbusy⟩ := s.tick.quoteEnded_moved hu
  obtain ⟨htarget, hflash, hphys⟩ := s.quoteEnded_bar2 hu
  obtain ⟨v, hv⟩ : ∃ v, v = u.bar2Put a bs := ⟨_, rfl⟩
  have honly : v = { u with phys := v.phys, flash := v.flash, freeCtr := v.freeCtr } := hv ▸ u.bar2Put_only bs a
  have hregs : v.regs = u.regs := (congrArg State.regs honly :)
  have hboot : v.boot = { s.boot with quote := none } := (congrArg State.boot honly :).trans hmoved.boot
  obtain ⟨w, hw⟩ : ∃ w, w = ({ v with boot := { v.boot with quotes := v.boot.quotes + 1 } } : State) := ⟨_, rfl⟩
  have hwregs : w.regs = u.regs := (hw ▸ rfl : w.regs = v.regs).trans hregs
  have hwboot : w.boot = { v.boot with quotes := v.boot.quotes + 1 } := hw ▸ rfl
  have hwphys : w.phys = v.phys := hw ▸ rfl
  have hshown : RegsMoved w (w.setFld Fld.KEY_ATT_STATUS_code 0) [Reg.KEY_ATT_STATUS] := .setFld _ _ (by decide) (by simp)
  have hstep : step s = .next (w.setFld Fld.KEY_ATT_STATUS_code 0) := by
    rw [step_of_quote hpending hproof hfree, State.finishQuote_eq (s := s.tick) hquote, ← hu, ← hbs, ← hv,
      State.bar2WriteOk_congr htarget hflash, hok, if_pos rfl, ← hw]
  refine ⟨_, hstep, ?_, ?_, State.fld_setFld_same (f := Fld.KEY_ATT_STATUS_code) _ 0 (by decide), ?_, ?_⟩
  · rw [State.setFld_boot, hwboot, hboot]
  · rw [State.flag, State.fld_setFld_ne _ _ (by decide) (by decide) (.inr (by decide)), State.fld_of_reg (by decide) (State.reg_congr hwregs _)]
    exact hbusy
  · rw [State.setFld_phys, hwphys, hv, hbs]
    exact State.phys_bar2Put _ hphys htarget
  · exact (((RegsKept.of_regs rfl _ : RegsKept s { s.tick with boot := { s.tick.boot with quote := none } } _).trans hmoved.kept).trans
      (.of_regs hwregs _)).trans hshown.kept

theorem quote_faults {a : Nat} {b : Bytes} {s : State} (hpending : s.pending = []) (hquote : s.boot.quote = some (a, b))
    (hproof : s.proofRunning = false) (hfree : ∀ g, g < 4 → s.tick.groupHeld g s.tick.now = false) (hok : s.bar2WriteOk a 512 = false) :
    ∃ t, step s = .next t ∧ t.boot = { s.boot with quote := none } ∧ t.flag Fld.KEY_ATT_STATUS_busy = false ∧
      t.fld Fld.KEY_ATT_STATUS_code = 0x0C20 ∧ Counted s t Ev.HQ_EVT_STATUS_win_fault ∧ t.phys = s.phys := by
  obtain ⟨u, hu⟩ : ∃ u, u = s.tick.quoteEnded := ⟨_, rfl⟩
  obtain ⟨hmoved, hbusy⟩ := s.tick.quoteEnded_moved hu
  obtain ⟨htarget, hflash, hphys⟩ := s.quoteEnded_bar2 hu
  obtain ⟨v, hv⟩ : ∃ v, v = u.setFld Fld.KEY_ATT_STATUS_code 0x0C20 := ⟨_, rfl⟩
  have hshown : RegsMoved u v [Reg.KEY_ATT_STATUS] := hv ▸ .setFld u _ (by decide) (by simp)
  have hcode : v.fld Fld.KEY_ATT_STATUS_code = 0x0C20 := hv ▸ u.fld_setFld_same (f := Fld.KEY_ATT_STATUS_code) 0x0C20 (by decide)
  have hidle : v.flag Fld.KEY_ATT_STATUS_busy = false := by
    rw [State.flag, hv, State.fld_setFld_ne _ _ (by decide) (by decide) (.inr (by decide))]
    exact hbusy
  have hkept := regsKept_hqEvent v Ev.HQ_EVT_STATUS_win_fault
  have hstep : step s = .next (v.hqEvent Ev.HQ_EVT_STATUS_win_fault) := by
    rw [step_of_quote hpending hproof hfree, State.finishQuote_eq (s := s.tick) hquote, ← hu, State.bar2WriteOk_congr htarget hflash, hok,
      if_neg Bool.false_ne_true, ← hv]
  refine ⟨_, hstep, ?_, (hkept.flag (by decide) (by decide)).trans hidle, (hkept.fld (by decide) (by decide)).trans hcode,
    (counted_hqEvent v (by decide) (by decide)).since ?_, ?_⟩
  · rw [State.hqEvent_boot, hshown.boot, hmoved.boot]
    rfl
  · rw [hshown.reg (by decide), hmoved.reg (by decide)]
    rfl
  · rw [State.hqEvent_phys, (congrArg State.phys hshown.only :), hphys]

theorem exec_attestationQuote_of_served {who : Requester} {s : State} (hs : s.served who 0 0x30 false = true) :
    exec (.attestationQuote who) s = .next s.quote := by
  change execAttestationQuote who s = _
  rw [execAttestationQuote, State.busWrite_of_served _ hs]

theorem attestationQuote_samples {who : Requester} {s : State} (hs : s.served who 0 0x30 false = true) (hquote : s.boot.quote = none) :
    ∃ t, exec (.attestationQuote who) s = .next t ∧ t.flag Fld.KEY_ATT_STATUS_busy = true ∧
      t.boot = { s.boot with quote := some (s.reg64 Reg.KEY_ATT_ADDR / 64 * 64, s.quoteBody) } ∧
      RegsKept s t [Reg.KEY_ATT_STATUS] ∧ t = { s with regs := t.regs, boot := t.boot } := by
  obtain ⟨b, hb⟩ : ∃ b : BootSt, b = { s.boot with quote := some (s.reg64 Reg.KEY_ATT_ADDR / 64 * 64, s.quoteBody) } := ⟨_, rfl⟩
  have hmoved : RegsMoved { s with boot := b } (({ s with boot := b } : State).setFld Fld.KEY_ATT_STATUS_busy 1) [Reg.KEY_ATT_STATUS] :=
    .setFld _ _ (by decide) (by simp)
  refine ⟨({ s with boot := b } : State).setFld Fld.KEY_ATT_STATUS_busy 1, ?_, State.flag_setFld_same _ _ (by decide) rfl,
    hmoved.boot.trans hb, (RegsKept.of_regs rfl _).trans hmoved.kept, ?_⟩
  · rw [exec_attestationQuote_of_served hs, State.quote, hquote, if_neg (by decide), hb]
  · rw [hmoved.boot]
    exact hmoved.only

theorem debugUnlockExpiry_ends {stop : Nat} {s : State} (hend : s.boot.unlockEnd = some stop) (hdue : stop ≤ s.monoNs) :
    ∃ t, exec .debugUnlockExpiry s = .next t ∧ t.fld Fld.KEY_DEBUG_scope = 0 ∧ t.boot = { s.boot with unlockEnd := none } ∧
      t.flag Fld.KEY_DEBUG_forced_hold = s.flag Fld.KEY_DEBUG_forced_hold ∧ RegsKept s t [Reg.KEY_DEBUG] ∧
      t = { s with regs := t.regs, boot := t.boot } := by
  obtain ⟨b, hb⟩ : ∃ b : BootSt, b = { s.boot with unlockEnd := none } := ⟨_, rfl⟩
  have hmoved : RegsMoved { s with boot := b } (({ s with boot := b } : State).setFld Fld.KEY_DEBUG_scope 0) [Reg.KEY_DEBUG] :=
    .setFld _ _ (by decide) (by simp)
  refine ⟨({ s with boot := b } : State).setFld Fld.KEY_DEBUG_scope 0, ?_, State.fld_setFld_same (f := Fld.KEY_DEBUG_scope) _ 0 (by decide),
    hmoved.boot.trans hb, ?_, (RegsKept.of_regs rfl _).trans hmoved.kept, ?_⟩
  · change execDebugUnlockExpiry s = _
    rw [execDebugUnlockExpiry, hend]
    simp only [if_neg (Nat.not_lt.mpr hdue), ← hb]
  · rw [State.flag, State.fld_setFld_ne _ _ (by decide) (by decide) (.inr (by decide)), State.flag]
    rfl
  · rw [hmoved.boot]
    exact hmoved.only

/-! ### A core restarts (R389) -/

/-- The state beside registers, boot parts and the vectors raised. -/
def State.sansVectors (s : State) : State := { s with regs := [], boot := {}, msix := [], msixPending := [] }

section Cores
variable (s : State) (d : Nat)

/-- A core that is no longer running. -/
def State.coreStopped : State := (s.setFld (Fld.BKR_STATUS_running d) 0).setFld (Fld.BKR_STATUS_restarting d) 1

/-- A core that restarts, as the host sees it. -/
def State.coreAway : State := s.setFld Fld.HQ_DEV_STATE_bkr_restarting (setBits (s.fld Fld.HQ_DEV_STATE_bkr_restarting) d 1 1)

theorem bkrStatus_ne_hq {d : Nat} (hd : d < 5) : Reg.HQ_DEV_STATE ≠ Reg.BKR_STATUS d := by
  interval_cases d <;> decide

theorem State.coreStopped_moved : RegsMoved s (s.coreStopped d) [Reg.BKR_STATUS d] :=
  (RegsMoved.setFld s 0 (by simp) (by simp)).trans (RegsMoved.setFld _ 1 (by simp) (by simp))

theorem State.running_coreStopped : (s.coreStopped d).flag (Fld.BKR_STATUS_running d) = false := by
  rw [State.flag, State.coreStopped, State.fld_setFld_ne _ _ (by simp) (by simp) (by simp), State.fld_setFld_same _ _ (by simp)]
  rfl

theorem State.coreAway_moved : RegsMoved s (s.coreAway d) [Reg.HQ_DEV_STATE] := .setFld s _ (by decide) (by simp)

theorem State.state_coreAway : (s.coreAway d).fld Fld.HQ_DEV_STATE_state = s.fld Fld.HQ_DEV_STATE_state :=
  s.fld_setFld_ne _ (by decide) (by decide) (.inr (by decide))

theorem State.testBit_coreAway {d : Nat} (hd : d < 5) : ((s.coreAway d).fld Fld.HQ_DEV_STATE_bkr_restarting).testBit d = true := by
  rw [State.coreAway, s.fld_setFld_same (f := Fld.HQ_DEV_STATE_bkr_restarting) _ (by decide), Nat.testBit_mod_two_pow, testBit_setBits]
  simp [hd]

end Cores

/-- The boot parts once a core's watchdog has expired, and once the core restarts. -/
def State.expiryNoted (s : State) (d : Nat) : BootSt :=
  { s.boot with wdog := Sparse.put (fun _ => []) s.boot.wdog d (s.recentExpiries d ++ [s.monoNs]) }

/-- The boot parts of a core that restarts. -/
def BootSt.restarts (b : BootSt) (d t : Nat) : BootSt := { b with restart := Sparse.put (fun _ => none) b.restart d (some t) }

theorem exec_bakerWatchdogExpiry_of_few {d : Nat} {s u w : State} (hd : d < 5) (hrun : s.flag (Fld.BKR_STATUS_running d) = true)
    (hup : s.restartOf d = none) (hfew : (s.recentExpiries d).length < 3)
    (hu : u = ({ s with boot := s.expiryNoted d } : State).event (Ev.BKR_EVT_STATUS_wdog d))
    (hw : w = (({ u with boot := u.boot.restarts d u.monoNs } : State).coreStopped d).coreAway d) (hready : w.fld Fld.HQ_DEV_STATE_state = 2) :
    exec (.bakerWatchdogExpiry d) s = .next ((w.setFld Fld.HQ_DEV_STATE_state 3).hqEvent Ev.HQ_EVT_STATUS_bkr_restart) := by
  have hfree : ¬(5 ≤ d ∨ s.flag (Fld.BKR_STATUS_running d) = false ∨ (s.restartOf d).isSome = true) := by
    rw [hrun, hup]
    simp
    omega
  change execBakerWatchdogExpiry d s = _
  rw [execBakerWatchdogExpiry, if_neg hfree]
  rw [hw, State.coreAway, State.coreStopped, BootSt.restarts, hu, State.expiryNoted] at hready
  simp only [if_neg (Nat.not_le.mpr hfew)]
  rw [if_pos hready, hw, State.coreAway, State.coreStopped, BootSt.restarts, hu, State.expiryNoted]

theorem bakerWatchdogExpiry_restarts {d : Nat} {s : State} (hd : d < 5) (hrun : s.flag (Fld.BKR_STATUS_running d) = true)
    (hup : s.restartOf d = none) (hfew : (s.recentExpiries d).length < 3) (hready : s.fld Fld.HQ_DEV_STATE_state = 2) :
    ∃ t, exec (.bakerWatchdogExpiry d) s = .next t ∧ t.flag (Fld.BKR_STATUS_running d) = false ∧ t.restartOf d = some s.monoNs ∧
      (t.fld Fld.HQ_DEV_STATE_bkr_restarting).testBit d = true ∧ t.fld Fld.HQ_DEV_STATE_state = 3 ∧
      Counted s t (Ev.BKR_EVT_STATUS_wdog d) ∧ Counted s t Ev.HQ_EVT_STATUS_bkr_restart ∧
      t = { s with regs := t.regs, boot := t.boot, msix := t.msix, msixPending := t.msixPending } ∧
     BlocksKept s t [0x145, d * 256 + 7] := by
  obtain ⟨a, ha⟩ : ∃ a, a = ({ s with boot := s.expiryNoted d } : State) := ⟨_, rfl⟩
  obtain ⟨u, hu⟩ : ∃ u, u = a.event (Ev.BKR_EVT_STATUS_wdog d) := ⟨_, rfl⟩
  obtain ⟨v, hv⟩ : ∃ v, v = ({ u with boot := u.boot.restarts d u.monoNs } : State) := ⟨_, rfl⟩
  obtain ⟨x, hx⟩ : ∃ x, x = v.coreStopped d := ⟨_, rfl⟩
  obtain ⟨w, hw⟩ : ∃ w, w = x.coreAway d := ⟨_, rfl⟩
  obtain ⟨y, hy⟩ : ∃ y, y = w.setFld Fld.HQ_DEV_STATE_state 3 := ⟨_, rfl⟩
  have hregsA : a.regs = s.regs := ha ▸ rfl
  have hregsV : v.regs = u.regs := hv ▸ rfl
  have hmovedU : RegsMoved a u (Ev.BKR_EVT_STATUS_wdog d).regs := hu ▸ .event a _
  have hmovedX : RegsMoved v x [Reg.BKR_STATUS d] := hx ▸ v.coreStopped_moved d
  have hmovedW : RegsMoved x w [Reg.HQ_DEV_STATE] := hw ▸ x.coreAway_moved d
  have hmovedY : RegsMoved w y [Reg.HQ_DEV_STATE] := hy ▸ .setFld w 3 (by decide) (by simp)
  have hkept := regsKept_hqEvent y Ev.HQ_EVT_STATUS_bkr_restart
  have hevent : ∀ r ∈ (Ev.BKR_EVT_STATUS_wdog d).regs, r ∉ [Reg.BKR_STATUS d] ∧ r ∉ [Reg.HQ_DEV_STATE] ∧
      r ∉ Ev.HQ_EVT_STATUS_bkr_restart.regs ∧ Reg.HQ_DEV_STATE ≠ r ∧ r / 65536 = d * 256 + 7 := by
    interval_cases d <;> decide
  have hblock : ∀ r ∈ Ev.HQ_EVT_STATUS_bkr_restart.regs, r / 65536 = 0x145 ∧ r ∉ (Ev.BKR_EVT_STATUS_wdog d).regs ∧
      r ∉ [Reg.BKR_STATUS d] ∧ r ∉ [Reg.HQ_DEV_STATE] ∧ Reg.BKR_STATUS d ≠ r ∧ Reg.HQ_DEV_STATE ≠ r := by
    interval_cases d <;> decide
  have hstate : w.fld Fld.HQ_DEV_STATE_state = 2 := by
    rw [hw, x.state_coreAway, hmovedX.fld (by decide) (by simpa using bkrStatus_ne_hq hd), State.fld_of_reg (by decide) (State.reg_congr hregsV _),
      hmovedU.fld (by decide) (fun h => (hevent _ h).2.2.2.1 rfl), State.fld_of_reg (by decide) (State.reg_congr hregsA _), hready]
  have hexec : exec (.bakerWatchdogExpiry d) s = .next (y.hqEvent Ev.HQ_EVT_STATUS_bkr_restart) := by
    rw [hy]
    exact exec_bakerWatchdogExpiry_of_few hd hrun hup hfew (hu.trans (by rw [ha])) (hw.trans (by rw [hx, hv])) hstate
  have hbefore : ∀ r ∈ Ev.HQ_EVT_STATUS_bkr_restart.regs, y.reg r = s.reg r := fun r hr => by
    obtain ⟨-, hwdog, hbkr, hdev, -⟩ := hblock r hr
    rw [hmovedY.reg hdev, hmovedW.reg hdev, hmovedX.reg hbkr, State.reg_congr hregsV, hmovedU.reg hwdog, State.reg_congr hregsA]
  have hafter : ∀ r ∈ (Ev.BKR_EVT_STATUS_wdog d).regs, (y.hqEvent Ev.HQ_EVT_STATUS_bkr_restart).reg r = u.reg r := fun r hr => by
    obtain ⟨hbkr, hdev, hrestart, -⟩ := hevent r hr
    rw [hkept.reg hrestart, hmovedY.reg hdev, hmovedW.reg hdev, hmovedX.reg hbkr, State.reg_congr hregsV]
  have hdevState : Reg.HQ_DEV_STATE ∉ Ev.HQ_EVT_STATUS_bkr_restart.regs := by decide
  have hbkrStatus : Reg.BKR_STATUS d ∉ Ev.HQ_EVT_STATUS_bkr_restart.regs := fun h => (hblock _ h).2.2.2.2.1 rfl
  have hbkrDev : Reg.BKR_STATUS d ∉ [Reg.HQ_DEV_STATE] := by simpa using (bkrStatus_ne_hq hd).symm
  refine ⟨_, hexec, ?_, ?_, ?_, ?_, ?_, ?_, ?_, ?_⟩
  · rw [hkept.flag (by simp) hbkrStatus, hmovedY.flag (by simp) hbkrDev, hmovedW.flag (by simp) hbkrDev, hx]
    exact v.running_coreStopped d
  · have hboot : y.boot = u.boot.restarts d u.monoNs := by
      rw [hmovedY.boot, hmovedW.boot, hmovedX.boot, hv]
    have hmono : u.monoNs = s.monoNs := hmovedU.monoNs.trans (ha ▸ rfl)
    rw [State.restartOf, State.hqEvent_boot, hboot, hmono, BootSt.restarts, Sparse.get_put_same]
  · rw [hkept.fld (by decide) hdevState, hy, State.fld_setFld_ne _ _ (by decide) (by decide) (.inr (by decide)), hw]
    exact x.testBit_coreAway hd
  · rw [hkept.fld (by decide) hdevState, hy]
    exact w.fld_setFld_same (f := Fld.HQ_DEV_STATE_state) 3 (by decide)
  · have hcounted : Counted a u (Ev.BKR_EVT_STATUS_wdog d) :=
      hu ▸ counted_event a (by simp only [Ev.BKR_EVT_STATUS_wdog, Reg.BKR_EVT_STATUS]; omega) (by simp [Ev.BKR_EVT_STATUS_wdog])
    refine Counted.since ?_ (State.reg_congr hregsA _)
    rw [Counted, hafter _ (by simp [Evt.regs]), hafter _ (by simp [Evt.regs])]
    exact hcounted
  · exact (counted_hqEvent y (by decide) (by decide)).since (hbefore _ (by decide))
  · have hrest : (y.hqEvent Ev.HQ_EVT_STATUS_bkr_restart).sansVectors = s.sansVectors := by
      rw [y.hqEvent_only]
      calc y.sansVectors
        _ = w.sansVectors := (congrArg State.sansVectors hmovedY.only :)
        _ = x.sansVectors := (congrArg State.sansVectors hmovedW.only :)
        _ = v.sansVectors := (congrArg State.sansVectors hmovedX.only :)
        _ = u.sansVectors := hv ▸ rfl
        _ = a.sansVectors := (congrArg State.sansVectors hmovedU.only :)
        _ = s.sansVectors := ha ▸ rfl
    exact (congrArg (fun b : State => { b with
      regs := (y.hqEvent Ev.HQ_EVT_STATUS_bkr_restart).regs, boot := (y.hqEvent Ev.HQ_EVT_STATUS_bkr_restart).boot
      msix := (y.hqEvent Ev.HQ_EVT_STATUS_bkr_restart).msix
      msixPending := (y.hqEvent Ev.HQ_EVT_STATUS_bkr_restart).msixPending }) hrest :)
  · intro r hr
    simp only [List.mem_cons, List.not_mem_nil, or_false, not_or] at hr
    have hdev : r ∉ [Reg.HQ_DEV_STATE] := fun h => hr.1 (by rw [List.mem_singleton.mp h]; decide)
    have hbkr : r ∉ [Reg.BKR_STATUS d] := fun h => hr.2 (by rw [List.mem_singleton.mp h]; simp only [Reg.BKR_STATUS]; omega)
    rw [hkept.reg (fun h => hr.1 (hblock r h).1), hmovedY.reg hdev, hmovedW.reg hdev, hmovedX.reg hbkr, State.reg_congr hregsV,
      hmovedU.reg (fun h => hr.2 (hevent r h).2.2.2.2), State.reg_congr hregsA]

/-! ### A fourth expiry (R390) -/

theorem State.boot_keyRegs (s : State) : s.keyRegs.boot = s.boot := by
  unfold State.keyRegs
  simp only [State.setFld_boot]

/-- A source of scope MODULE or FULL keeps of the boot parts what every reset keeps, and holds domains. -/
theorem State.activate_boot (s : State) {code : Nat} (hcode : code ≠ 1) : (s.activate code).boot = s.boot.kept ∧ (s.activate code).held ≠ [] := by
  unfold State.activate
  rw [if_neg hcode]
  dsimp only
  constructor
  · have hreset : (if (code == 1 || (s.rst.episode && s.rst.full)) = true then s.combinedReset else s.moduleReset).boot = s.boot.kept := by
      split
      · exact State.boot_keyRegs _
      · exact State.boot_keyRegs _
    have hif (p : Prop) [Decidable p] (a : State) (f : Fld) (v : Nat) : (if p then a else a.setFld f v).boot = a.boot := by
      split
      · rfl
      · exact State.setFld_boot ..
    simp only [State.setFld_boot, State.countReset, hif, if_neg hcode, hreset]
  · split <;> decide

theorem bakerWatchdogExpiry_escalates {d : Nat} {s : State} (hd : d < 5) (hrun : s.flag (Fld.BKR_STATUS_running d) = true)
    (hup : s.restartOf d = none) (hmany : 3 ≤ (s.recentExpiries d).length) :
    ∃ t, exec (.bakerWatchdogExpiry d) s = .next t ∧ t.fld Fld.RST_CAUSE_wdog_die = d ∧ t.restartOf d = none ∧ t.held ≠ [] := by
  obtain ⟨u, hu⟩ : ∃ u, u = (({ s with boot := s.expiryNoted d } : State).event (Ev.BKR_EVT_STATUS_wdog d)).event
    (Ev.BKR_EVT_STATUS_escalated d) := ⟨_, rfl⟩
  obtain ⟨hboot, hheld⟩ := u.activate_boot (code := 4) (by decide)
  have hexec : exec (.bakerWatchdogExpiry d) s = .next ((u.activate 4).setFld Fld.RST_CAUSE_wdog_die d) := by
    have hfree : ¬(5 ≤ d ∨ s.flag (Fld.BKR_STATUS_running d) = false ∨ (s.restartOf d).isSome = true) := by
      rw [hrun, hup]
      simp
      omega
    change execBakerWatchdogExpiry d s = _
    rw [execBakerWatchdogExpiry, if_neg hfree]
    simp only [if_pos hmany]
    rw [hu, State.expiryNoted]
  refine ⟨_, hexec, ?_, ?_, ?_⟩
  · rw [State.fld_setFld_same _ _ (by decide)]
    exact Nat.mod_eq_of_lt (by change d < 8; omega)
  · rw [State.restartOf, State.setFld_boot, hboot]
    rfl
  · rw [State.setFld_held]
    exact hheld

/-! ### The end of a restart (R389, R92) -/

theorem setBits_two_pow (hd : d < 5) : setBits (2 ^ d) d 1 0 = 0 := by
  interval_cases d <;> decide

/-- A core that runs again and has been counted. -/
def State.coreStarted (s : State) (d n : Nat) : State :=
  ((s.setFld (Fld.BKR_STATUS_running d) 1).setFld (Fld.BKR_STATUS_restarting d) 0).setFld (Fld.BKR_STATUS_restarts d) n

section Started
variable (s : State) (d n : Nat)

theorem State.coreStarted_moved : RegsMoved s (s.coreStarted d n) [Reg.BKR_STATUS d] :=
  ((RegsMoved.setFld s 1 (by simp) (by simp)).trans (RegsMoved.setFld _ 0 (by simp) (by simp))).trans
    (RegsMoved.setFld _ n (by simp) (by simp))

theorem State.running_coreStarted : (s.coreStarted d n).flag (Fld.BKR_STATUS_running d) = true := by
  rw [State.flag, State.coreStarted, State.fld_setFld_ne _ _ (by simp) (by simp) (by simp), State.fld_setFld_ne _ _ (by simp) (by simp) (by simp),
    State.fld_setFld_same _ _ (by simp)]
  rfl

theorem State.restarts_coreStarted : (s.coreStarted d n).fld (Fld.BKR_STATUS_restarts d) = n % 65536 :=
  State.fld_setFld_same _ _ (by simp)

/-- The last core that restarts comes back: the device is READY. -/
theorem State.coreBack_last {d : Nat} (hd : d < 5) (hlast : s.fld Fld.HQ_DEV_STATE_bkr_restarting = 2 ^ d)
    (hstate : s.fld Fld.HQ_DEV_STATE_state = 3) :
    (s.coreBack d).fld Fld.HQ_DEV_STATE_bkr_restarting = 0 ∧ (s.coreBack d).fld Fld.HQ_DEV_STATE_state = 2 ∧
      RegsMoved s (s.coreBack d) [Reg.HQ_DEV_STATE] := by
  obtain ⟨m, hm⟩ : ∃ m, m = s.setFld Fld.HQ_DEV_STATE_bkr_restarting (setBits (s.fld Fld.HQ_DEV_STATE_bkr_restarting) d 1 0) := ⟨_, rfl⟩
  have hnone : m.fld Fld.HQ_DEV_STATE_bkr_restarting = 0 := by
    rw [hm, s.fld_setFld_same (f := Fld.HQ_DEV_STATE_bkr_restarting) _ (by decide), hlast, setBits_two_pow hd]
    rfl
  have hthree : m.fld Fld.HQ_DEV_STATE_state = 3 := by
    rw [hm, s.fld_setFld_ne _ (by decide) (by decide) (.inr (by decide)), hstate]
  have hback : s.coreBack d = m.setFld Fld.HQ_DEV_STATE_state 2 := by
    rw [State.coreBack, ← hm, hnone, hthree]
    rfl
  rw [hback]
  refine ⟨?_, m.fld_setFld_same (f := Fld.HQ_DEV_STATE_state) 2 (by decide), ?_⟩
  · rw [m.fld_setFld_ne _ (by decide) (by decide) (.inr (by decide)), hnone]
  · exact (hm ▸ RegsMoved.setFld s _ (by decide) (by simp) : RegsMoved s m [Reg.HQ_DEV_STATE]).trans (.setFld m 2 (by decide) (by simp))

end Started

theorem bakerRestartComplete_restores {d : Nat} {s : State} (hd : d < 5) (hrestarting : (s.restartOf d).isSome = true)
    (hstate : s.fld Fld.HQ_DEV_STATE_state = 3) (hlast : s.fld Fld.HQ_DEV_STATE_bkr_restarting = 2 ^ d) :
    ∃ t, exec (.bakerRestartComplete d) s = .next t ∧ t.flag (Fld.BKR_STATUS_running d) = true ∧ t.restartOf d = none ∧
      t.fld Fld.HQ_DEV_STATE_bkr_restarting = 0 ∧ t.fld Fld.HQ_DEV_STATE_state = 2 ∧
      t.fld (Fld.BKR_STATUS_restarts d) = (s.fld (Fld.BKR_STATUS_restarts d) + 1) % 65536 ∧ t = { s with regs := t.regs, boot := t.boot } ∧
     BlocksKept s t [0x145, d * 256 + 7] := by
  obtain ⟨b, hb⟩ : ∃ b : BootSt, b = { s.boot with restart := Sparse.erase d s.boot.restart } := ⟨_, rfl⟩
  obtain ⟨u, hu⟩ : ∃ u, u = ({ s with boot := b } : State) := ⟨_, rfl⟩
  have hregs : u.regs = s.regs := hu ▸ rfl
  obtain ⟨n, hn⟩ : ∃ n, n = (u.fld (Fld.BKR_STATUS_restarts d) + 1) % 65536 := ⟨_, rfl⟩
  obtain ⟨v, hv⟩ : ∃ v, v = u.coreStarted d n := ⟨_, rfl⟩
  have hmoved : RegsMoved u v [Reg.BKR_STATUS d] := hv ▸ u.coreStarted_moved d n
  have hdev : Reg.HQ_DEV_STATE ∉ [Reg.BKR_STATUS d] := by simpa using bkrStatus_ne_hq hd
  have hbkr : Reg.BKR_STATUS d ∉ [Reg.HQ_DEV_STATE] := by simpa using (bkrStatus_ne_hq hd).symm
  have hsame {f : Fld} (hf : f.lo + f.width ≤ 32) (ha : f.addr = Reg.HQ_DEV_STATE) : v.fld f = s.fld f := by
    rw [hmoved.fld hf (ha ▸ hdev), State.fld_of_reg hf (State.reg_congr hregs _)]
  obtain ⟨hzero, htwo, hback⟩ := v.coreBack_last hd ((hsame (by decide) rfl).trans hlast) ((hsame (by decide) rfl).trans hstate)
  have hexec : exec (.bakerRestartComplete d) s = .next (v.coreBack d) := by
    have hsome : ¬(s.restartOf d).isNone = true := by
      rw [Option.isNone_iff_eq_none, ← Option.not_isSome_iff_eq_none, hrestarting]
      simp
    change execBakerRestartComplete d s = _
    rw [execBakerRestartComplete, if_neg hsome, hv, State.coreStarted, hn, hu, hb]
  have hboot : (v.coreBack d).boot = b := by rw [hback.boot, hmoved.boot, hu]
  refine ⟨_, hexec, ?_, ?_, hzero, htwo, ?_, ?_, ?_⟩
  · rw [hback.flag (by simp) hbkr, hv]
    exact u.running_coreStarted d n
  · rw [State.restartOf, hboot, hb, Sparse.get_erase_same]
  · rw [hback.fld (by simp) hbkr, hv, u.restarts_coreStarted d n, hn, Nat.mod_mod, State.fld_of_reg (by simp) (State.reg_congr hregs _)]
  · have hrest : (v.coreBack d).sansBoot = s.sansBoot := by
      calc (v.coreBack d).sansBoot
        _ = v.sansBoot := (congrArg State.sansBoot hback.only :)
        _ = u.sansBoot := (congrArg State.sansBoot hmoved.only :)
        _ = s.sansBoot := hu ▸ rfl
    exact (congrArg (fun a : State => { a with regs := (v.coreBack d).regs, boot := (v.coreBack d).boot }) hrest :)
  · intro r hr
    simp only [List.mem_cons, List.not_mem_nil, or_false, not_or] at hr
    have hdev : r ∉ [Reg.HQ_DEV_STATE] := fun h => hr.1 (by rw [List.mem_singleton.mp h]; decide)
    have hbkr : r ∉ [Reg.BKR_STATUS d] := fun h => hr.2 (by rw [List.mem_singleton.mp h]; simp only [Reg.BKR_STATUS]; omega)
    rw [hback.reg hdev, hmoved.reg hbkr, State.reg_congr hregs]

/-- Settles O56: the expiry and the end of a restart move BKR_STATUS_d, HQ_DEV_STATE and the events' registers one after another; a quote that
is being formed ends in the next idle cycle (`step_of_quote`), written where BAR2 led before the cycle (`State.phys_bar2Put`). -/
theorem bakersAndQuotes : Obligations.BakersAndQuotes := by
  unfold Obligations.BakersAndQuotes
  refine ⟨fun _ _ => bakerWatchdogExpiry_restarts, fun _ _ => bakerWatchdogExpiry_escalates, fun _ _ => bakerRestartComplete_restores,
    fun _ _ => attestationQuote_samples, fun who s hs hquote => ?_, fun _ _ => debugUnlockExpiry_ends, fun _ _ _ => quote_written,
    fun _ _ _ => quote_faults⟩
  rw [exec_attestationQuote_of_served hs, State.quote, if_pos hquote]

end Sys2Proof.Machine
end

section
/-! Resets of dies, of the host port and of single blocks (R407, R408, R413 to R417). -/

namespace Sys2Proof.Machine

/-! ### SW_RESET_DIES (R408) -/

theorem State.coreBack_moved (s : State) (d : Nat) : RegsMoved s (s.coreBack d) [Reg.HQ_DEV_STATE] := by
  have hset : RegsMoved s (s.setFld Fld.HQ_DEV_STATE_bkr_restarting (setBits (s.fld Fld.HQ_DEV_STATE_bkr_restarting) d 1 0))
      [Reg.HQ_DEV_STATE] := .setFld s _ (by decide) (by simp)
  unfold State.coreBack
  exact .ite (hset.trans (.setFld _ 2 (by decide) (by simp))) hset

/-- What the reset of a spoke die leaves of the module: the reset controller and its registers, the layout, the contexts and the other dies. -/
structure DieFrame (s t : State) (d : Nat) : Prop where
  layout : t.layout = s.layout
  ctxs : t.ctxs = s.ctxs
  rst : t.rst = s.rst
  held : t.held = s.held
  mono : t.mono = s.mono
  reg : t.reg (Reg.RST_CNT 8) = s.reg (Reg.RST_CNT 8)
  present : t.diesPresent = if s.diesPresent.testBit d then s.diesPresent - 2 ^ d else s.diesPresent
  mods : t.linkMods = s.linkMods.set d 0

/-- The registers of a die taken away. -/
theorem State.reg_filter_die {s t : State} {d a : Nat} (h : t.regs = s.regs.filter (fun p => p.1 / 0x1000000 != d)) (ha : a / 0x1000000 ≠ d) :
    t.reg a = s.reg a := by
  rw [State.reg, State.reg, h]
  exact Sparse.get_filter resetOf (fun x => x / 0x1000000 != d) s.regs (by simpa using ha)

theorem State.dieReset_frame (s : State) {d : Nat} (hd : d ≠ 0) : DieFrame s (s.dieReset d) d := by
  unfold State.dieReset
  extract_lets p b s1
  have hback := s1.coreBack_moved d
  obtain ⟨u, hu⟩ : ∃ u, u = s1.coreBack d := ⟨_, rfl⟩
  rw [← hu] at hback ⊢
  have hcnt : s1.reg (Reg.RST_CNT 8) = s.reg (Reg.RST_CNT 8) := State.reg_filter_die (d := d) rfl (fun h => hd (h.symm.trans (by decide)))
  exact ⟨(congrArg State.layout hback.only :), (congrArg State.ctxs hback.only :), (congrArg State.rst hback.only :),
    (congrArg State.held hback.only :), (congrArg State.mono hback.only :), (hback.reg (by decide)).trans hcnt,
    (congrArg State.diesPresent hback.only :), (congrArg State.linkMods hback.only :)⟩

theorem testBit_sub_two_pow {n k : Nat} (h : n.testBit k = true) (i : Nat) : (n - 2 ^ k).testBit i = (n.testBit i && i != k) := by
  have hodd : n / 2 ^ k % 2 = 1 := by simpa [Nat.testBit_eq_decide_div_mod_eq] using h
  have hclear : n - 2 ^ k = setBits n k 1 0 := by
    have hlow := Nat.mod_add_div n (2 ^ k)
    have hhigh : n / 2 ^ (k + 1) = n / 2 ^ k / 2 := by rw [Nat.div_div_eq_div_mul, Nat.pow_succ]
    have hsplit : n / 2 ^ k / 2 * 2 ^ (k + 1) + 2 ^ k = 2 ^ k * (n / 2 ^ k) := by
      conv_rhs => rw [← Nat.div_add_mod (n / 2 ^ k) 2, hodd]
      ring
    rw [setBits, hhigh]
    omega
  rw [hclear, testBit_setBits]
  by_cases hi : i = k
  · simp [hi]
  · rw [if_neg (by omega), bne_iff_ne.mpr hi, Bool.and_true]

/-- A die out of service. -/
def OutOfService (d : Nat) (s : State) : Prop := s.diesPresent.testBit d = false ∧ s.linkMods.getD d 0 = 0

theorem State.dieReset_takes (s : State) {d : Nat} (hd : d ≠ 0) : OutOfService d (s.dieReset d) := by
  have h := s.dieReset_frame hd
  rw [OutOfService, h.present, h.mods]
  constructor
  · split
    next hbit => rw [testBit_sub_two_pow hbit, bne_self_eq_false, Bool.and_false]
    next hbit => simpa using hbit
  · rw [List.getD_eq_getElem?_getD, List.getElem?_set, if_pos rfl]
    split <;> rfl

theorem OutOfService.dieReset {s : State} {d e : Nat} (h : OutOfService d s) (he : e ≠ 0) (hne : d ≠ e) : OutOfService d (s.dieReset e) := by
  have hframe := s.dieReset_frame he
  obtain ⟨hbit, hmods⟩ := h
  rw [OutOfService, hframe.present, hframe.mods]
  constructor
  · split
    next hb => rw [testBit_sub_two_pow hb, hbit, Bool.false_and]
    next => exact hbit
  · rw [List.getD_eq_getElem?_getD, List.getElem?_set_ne hne.symm, ← List.getD_eq_getElem?_getD, hmods]

/-- What the resets of spoke dies leave. -/
structure DiesFrame (s t : State) : Prop where
  layout : t.layout = s.layout
  ctxs : t.ctxs = s.ctxs
  rst : t.rst = s.rst
  held : t.held = s.held
  mono : t.mono = s.mono
  reg : t.reg (Reg.RST_CNT 8) = s.reg (Reg.RST_CNT 8)

theorem DiesFrame.foldl {ds : List Nat} (hds : ∀ d ∈ ds, d ≠ 0) (s : State) : DiesFrame s (ds.foldl (fun (a : State) d => a.dieReset d) s) := by
  induction ds generalizing s with
  | nil => exact ⟨rfl, rfl, rfl, rfl, rfl, rfl⟩
  | cons d ds ih =>
    have hd := s.dieReset_frame (hds d List.mem_cons_self)
    have hrest := ih (fun e he => hds e (List.mem_cons_of_mem _ he)) (s.dieReset d)
    exact ⟨hrest.layout.trans hd.layout, hrest.ctxs.trans hd.ctxs, hrest.rst.trans hd.rst, hrest.held.trans hd.held,
      hrest.mono.trans hd.mono, hrest.reg.trans hd.reg⟩

theorem bits_two_three_testBit (v i : Nat) (hi : i < 3) : (bits v 2 3).testBit i = v.testBit (2 + i) := by
  rw [testBit_bits, decide_eq_true hi, Bool.true_and]

/-- The spoke dies that a write of RST_SW_CTRL names. -/
def namedDies (value : Nat) : List Nat := [2, 3, 4].filter (fun d => (bits value 2 3).testBit (d - 2))

theorem mem_namedDies {value d : Nat} : d ∈ namedDies value ↔ 2 ≤ d ∧ d ≤ 4 ∧ value.testBit d = true := by
  rw [namedDies, List.mem_filter]
  constructor
  · rintro ⟨hd, hbit⟩
    have hrange : 2 ≤ d ∧ d ≤ 4 := by
      simp only [List.mem_cons, List.not_mem_nil, or_false] at hd
      omega
    rw [bits_two_three_testBit _ _ (by omega), show 2 + (d - 2) = d by omega] at hbit
    exact ⟨hrange.1, hrange.2, hbit⟩
  · rintro ⟨hlo, hhi, hbit⟩
    refine ⟨?_, ?_⟩
    · simp only [List.mem_cons, List.not_mem_nil, or_false]
      omega
    · rw [bits_two_three_testBit _ _ (by omega), show 2 + (d - 2) = d by omega, hbit]

theorem namedDies_nodup (value : Nat) : (namedDies value).Pairwise (· ≠ ·) := List.Nodup.filter _ (by decide)

theorem namedDies_eq_nil {value : Nat} (h : bits value 2 3 = 0) : namedDies value = [] := by
  rw [namedDies, h]
  rfl

theorem namedDies_ne_nil {value : Nat} (h : bits value 2 3 ≠ 0) : namedDies value ≠ [] := by
  have hlt := bits_lt value 2 3
  rw [namedDies]
  generalize bits value 2 3 = m at h hlt
  interval_cases m
  · exact absurd rfl h
  all_goals decide

theorem exec_swResetDies_of_served {who : Requester} {value : Nat} {s : State} (hs : s.served who 0 0x20 true = true) :
    exec (.swResetDies who value) s = .next ((s.swNoted (setBits value 0 2 3)).diesReset (bits value 2 3)) := by
  obtain ⟨v, hv⟩ : ∃ v, v = setBits value 0 2 3 := ⟨_, rfl⟩
  have hstart : bit v 0 = true := hv ▸ bit_setBits_zero_two value 3 0 (by omega)
  have hscope : bit v 1 = true := hv ▸ bit_setBits_zero_two value 3 1 (by omega)
  have hmask : bits v 2 3 = bits value 2 3 := hv ▸ bits_setBits_disjoint (.inr (by omega))
  change execSwResetDies who value s = _
  rw [execSwResetDies, State.busWrite_of_served _ hs, ← hv, State.writeSwCtrl, hstart, hscope, hmask]
  simp only [Bool.not_true, Bool.false_eq_true, if_false, if_true]
  rw [State.swNoted, hmask]

theorem swResetDies_resets {who : Requester} {value : Nat} {s : State} (hs : s.served who 0 0x20 true = true) (hnamed : bits value 2 3 ≠ 0)
    (hepisode : s.rst.episode = false) (hidle : ∀ d, 2 ≤ d → d ≤ 4 → value.testBit d = true → s.dieIdle d = true) :
    ∃ t, exec (.swResetDies who value) s = .next t ∧
      (∀ d, d < 40 → t.held.contains d = (s.held.contains d || (decide (2 ≤ domainDie d) && value.testBit (domainDie d)))) ∧
      (∀ d, 2 ≤ d → d ≤ 4 → value.testBit d = true → t.diesPresent.testBit d = false ∧ t.linkMods.getD d 0 = 0) ∧
      t.fld (Fld.RST_CNT_count 8) = (s.fld (Fld.RST_CNT_count 8) + 1) % 65536 ∧ t.layout = s.layout ∧ t.ctxs = s.ctxs := by
  obtain ⟨m, hm⟩ : ∃ m, m = s.swNoted (setBits value 0 2 3) := ⟨_, rfl⟩
  have honly : m = { s with regs := m.regs, rst := m.rst } := hm ▸ rfl
  have hnoted : m.rst.episode = false := by rw [hm]; exact hepisode
  have hreg : m.reg (Reg.RST_CNT 8) = s.reg (Reg.RST_CNT 8) := hm ▸ (s.regsKept_swNoted _).reg (by decide)
  have hdieIdle : (namedDies value).all m.dieIdle = true := by
    rw [List.all_eq_true]
    intro d hd
    obtain ⟨hlo, hhi, hbit⟩ := mem_namedDies.mp hd
    exact (congrArg (fun a => a.dieIdle d) honly :).trans (hidle d hlo hhi hbit)
  have hne0 : ∀ d ∈ namedDies value, d ≠ 0 := fun d hd => by
    have := (mem_namedDies.mp hd).1
    omega
  obtain ⟨u, hu⟩ : ∃ u, u = (namedDies value).foldl (fun (a : State) d => a.dieReset d) m := ⟨_, rfl⟩
  have hframe : DiesFrame m u := hu ▸ DiesFrame.foldl hne0 m
  obtain ⟨w, hw⟩ : ∃ w, w = u.countReset 8 := ⟨_, rfl⟩
  have hcounted : RegsMoved u w [Reg.RST_CNT 8] := hw ▸ .setFld u _ (by decide) (by simp)
  have hexec : exec (.swResetDies who value) s = .next { w with
      rst := { w.rst with
        holdFrom := w.monoNs, lastRelease := none
        dies := [2, 3, 4].filter (fun d => (namedDies value).contains d || m.rst.dies.contains d)
        repeatDies := m.rst.repeatDies.filter (fun d => !(namedDies value).contains d) }
      held := (List.range 40).filter (fun d => m.held.contains d || (namedDies value).contains (domainDie d)) } := by
    have hsome : (namedDies value).isEmpty = false := by
      cases h : namedDies value with
      | nil => exact absurd h (namedDies_ne_nil hnamed)
      | cons => rfl
    have hgo : ¬((namedDies value).isEmpty || m.rst.episode || !(namedDies value).all m.dieIdle) = true := by
      rw [hsome, hnoted, hdieIdle]
      decide
    rw [exec_swResetDies_of_served hs, ← hm, State.diesReset]
    change Host.Outcome.next (if ((namedDies value).isEmpty || m.rst.episode || !(namedDies value).all m.dieIdle) = true then _ else _) = _
    rw [if_neg hgo, hw, hu]
    rfl
  refine ⟨_, hexec, fun d hd => ?_, fun d hlo hhi hbit => ?_, ?_, ?_, ?_⟩
  · have hdie : domainDie d ≤ 4 := by
      unfold domainDie
      split_ifs <;> omega
    have hnamedDie : (namedDies value).contains (domainDie d) = (decide (2 ≤ domainDie d) && value.testBit (domainDie d)) := by
      rw [Bool.eq_iff_iff, List.contains_iff_mem, mem_namedDies, Bool.and_eq_true, decide_eq_true_iff]
      exact ⟨fun ⟨hlo, _, hbit⟩ => ⟨hlo, hbit⟩, fun ⟨hlo, hbit⟩ => ⟨hlo, hdie, hbit⟩⟩
    have hheld : m.held = s.held := (congrArg State.held honly :)
    rw [← hnamedDie, ← hheld, Bool.eq_iff_iff, List.contains_iff_mem, List.mem_filter, List.mem_range]
    exact ⟨fun h => h.2, fun h => ⟨hd, h⟩⟩
  · have hout : OutOfService d u := hu ▸ foldl_establishes (P := OutOfService) (R := (· ≠ ·)) (namedDies_nodup value)
      (fun a x hx => a.dieReset_takes (hne0 x hx)) (fun a x _ y hy hne h => h.dieReset (hne0 y hy) hne) m d
      (mem_namedDies.mpr ⟨hlo, hhi, hbit⟩)
    exact ⟨(congrArg (fun n => Nat.testBit n d) (congrArg State.diesPresent hcounted.only) :).trans hout.1,
      (congrArg (fun l => List.getD l d 0) (congrArg State.linkMods hcounted.only) :).trans hout.2⟩
  · have hfld : u.fld (Fld.RST_CNT_count 8) = s.fld (Fld.RST_CNT_count 8) := State.fld_of_reg (by decide) (hframe.reg.trans hreg)
    refine Eq.trans (b := w.fld (Fld.RST_CNT_count 8)) rfl ?_
    rw [hw, State.countReset, State.fld_setFld_same _ _ (by decide), hfld]
    exact Nat.mod_mod _ 65536
  · exact (congrArg State.layout hcounted.only :).trans (hframe.layout.trans (congrArg State.layout honly :))
  · exact (congrArg State.ctxs hcounted.only :).trans (hframe.ctxs.trans (congrArg State.ctxs honly :))

theorem swResetDies_rejected {who : Requester} {value : Nat} {s : State} (hs : s.served who 0 0x20 true = true)
    (h : bits value 2 3 = 0 ∨ s.rst.episode = true ∨ ∃ d, 2 ≤ d ∧ d ≤ 4 ∧ value.testBit d = true ∧ s.dieIdle d = false) :
    ∃ t, exec (.swResetDies who value) s = .next t ∧ Counted s t Ev.RST_EVT_STATUS_cmd_reject ∧
      RegsKept s t (Reg.RST_SW_CTRL :: Ev.RST_EVT_STATUS_cmd_reject.regs) ∧ { t.rst with swAt := s.rst.swAt } = s.rst ∧
      t = { s with regs := t.regs, rst := t.rst } := by
  obtain ⟨m, hm⟩ : ∃ m, m = s.swNoted (setBits value 0 2 3) := ⟨_, rfl⟩
  have honly : m = { s with regs := m.regs, rst := { s.rst with swAt := some s.refCycle } } := hm ▸ s.swNoted_only _
  have hkept : RegsKept s m [Reg.RST_SW_CTRL] := hm ▸ s.regsKept_swNoted _
  have hstop : ((namedDies value).isEmpty || m.rst.episode || !(namedDies value).all m.dieIdle) = true := by
    rcases h with h | h | ⟨d, hlo, hhi, hbit, hbusy⟩
    · rw [namedDies_eq_nil h]
      rfl
    · have : m.rst.episode = true := (congrArg (fun a => a.rst.episode) honly :).trans h
      rw [this, Bool.or_true, Bool.true_or]
    · have hall : (namedDies value).all m.dieIdle = false := by
        rw [List.all_eq_false]
        exact ⟨d, mem_namedDies.mpr ⟨hlo, hhi, hbit⟩, by rw [(congrArg (fun a => a.dieIdle d) honly :).trans hbusy]; decide⟩
      rw [hall, Bool.not_false, Bool.or_true]
  have hexec : exec (.swResetDies who value) s = .next (m.event Ev.RST_EVT_STATUS_cmd_reject) := by
    rw [exec_swResetDies_of_served hs, ← hm, State.diesReset]
    change Host.Outcome.next (if ((namedDies value).isEmpty || m.rst.episode || !(namedDies value).all m.dieIdle) = true then _ else _) = _
    rw [if_pos hstop]
    rfl
  have hevent := RegsMoved.event m Ev.RST_EVT_STATUS_cmd_reject
  have hrst : m.rst = { s.rst with swAt := some s.refCycle } := (congrArg State.rst honly :)
  refine ⟨_, hexec, (counted_event m (by decide) (by decide)).since (hkept.reg (by decide)),
    (hkept.mono (by simp)).trans (hevent.kept.mono (List.subset_cons_self _ _)), ?_, ?_⟩
  · rw [(congrArg State.rst hevent.only :).trans hrst]
  · rw [(congrArg State.rst hevent.only :).trans hrst]
    exact hevent.only.trans (congrArg (fun a : State => { a with regs := (m.event Ev.RST_EVT_STATUS_cmd_reject).regs }) honly)

/-! ### The host port (R407) -/

/-- The registers of other blocks stay when a block is reset. -/
theorem State.reg_resetBlock (s : State) {die block a : Nat} (h : ¬(a / 0x1000000 = die ∧ a / 0x10000 % 0x100 = block)) :
    (s.resetBlock die block).reg a = s.reg a :=
  Sparse.get_filter resetOf (fun x => !(x / 0x1000000 == die && x / 0x10000 % 0x100 == block)) s.regs (by
    simp only [Bool.not_eq_true', Bool.and_eq_false_iff, beq_eq_false_iff_ne]
    exact not_and_or.mp h)

/-- The registers of a block that is reset read their reset values. -/
theorem State.reg_resetBlock_own (s : State) {die block a : Nat} (hdie : a / 0x1000000 = die) (hblock : a / 0x10000 % 0x100 = block) :
    (s.resetBlock die block).reg a = resetOf a := by
  rcases Sparse.get_eq_default_or_mem resetOf (s.resetBlock die block).regs a with h | h
  · exact h
  · obtain ⟨-, hkeep⟩ := List.mem_filter.mp h
    simp [hdie, hblock] at hkeep

/-- The state beside registers, half-written pairs and what an abandoned host port loses. -/
def State.sansHost (s : State) : State :=
  { s with regs := [], latches := [], staged := [], queues := [], invs := [], runs := [], ctxs := [], kvTouched := [], proposal := none, load := none,
           msixTable := [], msixPending := [] }

/-- The host port reset, where no load is in progress. -/
def State.hostPortLost (s : State) : State :=
  (((s.orphanInvs.resetBlock 1 0x44).resetBlock 1 0x45).countReset 6).setFld Fld.HQ_DEV_STATE_bkr_restarting
    (s.fld Fld.HQ_DEV_STATE_bkr_restarting)

/-- A context whose activations' invocations have lost their completion records. -/
def Ctx.orphaned (c : Ctx) : Ctx := { c with acts := c.acts.map (fun a => { a with inv := a.inv.map orphanOf }) }

theorem State.ctx_orphanInvs (s : State) (k : Nat) : (s.orphanInvs.ctx k).phase = (s.ctx k).phase :=
  Sparse.get_map (d := fun _ => ({} : Ctx)) (π := Ctx.phase) (f := fun p : Nat × Ctx => (p.1, p.2.orphaned)) (fun _ => rfl) (fun _ => rfl) s.ctxs k

theorem State.hostPortLost_effect (s : State) {u : State} (hu : u = s.hostPortLost) :
    u.sansHost = s.sansHost ∧ u.queues = [] ∧ u.load = s.load ∧ u.fld Fld.HQ_DEV_STATE_state = 0 ∧
      u.fld (Fld.RST_CNT_count 6) = (s.fld (Fld.RST_CNT_count 6) + 1) % 65536 ∧ ∀ k, (u.ctx k).phase = (s.ctx k).phase := by
  obtain ⟨a, ha⟩ : ∃ a, a = s.orphanInvs.resetBlock 1 0x44 := ⟨_, rfl⟩
  obtain ⟨b, hb⟩ : ∃ b, b = a.resetBlock 1 0x45 := ⟨_, rfl⟩
  obtain ⟨c, hc⟩ : ∃ c, c = b.countReset 6 := ⟨_, rfl⟩
  have hcount : RegsMoved b c [Reg.RST_CNT 6] := hc ▸ .setFld b _ (by decide) (by simp)
  have hset : RegsMoved c u [Reg.HQ_DEV_STATE] := by
    rw [hu, State.hostPortLost, ← ha, ← hb, ← hc]
    exact .setFld c _ (by decide) (by simp)
  have hrest : u.sansHost = s.sansHost := calc u.sansHost
    _ = c.sansHost := (congrArg State.sansHost hset.only :)
    _ = b.sansHost := (congrArg State.sansHost hcount.only :)
    _ = a.sansHost := hb ▸ rfl
    _ = s.sansHost := ha ▸ rfl
  have hparts {α : Type} (π : State → α) (hπ : ∀ x r, π { x with regs := r } = π x) (hb' : π b = π s.orphanInvs) : π u = π s.orphanInvs := by
    rw [hset.only, hπ, hcount.only, hπ, hb']
  have hreset : b.fld Fld.HQ_DEV_STATE_state = 0 := by
    rw [State.fld_word _ (by decide), hb, a.reg_resetBlock_own (by decide) (by decide)]
    decide
  have hold : b.fld (Fld.RST_CNT_count 6) = s.fld (Fld.RST_CNT_count 6) := by
    refine State.fld_of_reg (by decide) ?_
    rw [hb, a.reg_resetBlock (by decide), ha, State.reg_resetBlock _ (by decide)]
    rfl
  refine ⟨hrest, hparts State.queues (fun _ _ => rfl) (by rw [hb, ha]; rfl), hparts State.load (fun _ _ => rfl) (by rw [hb, ha]; rfl), ?_, ?_, fun k => ?_⟩
  · rw [hu, State.hostPortLost, ← ha, ← hb, ← hc, State.fld_setFld_ne _ _ (by decide) (by decide) (.inr (by decide)),
      hcount.fld (by decide) (by decide), hreset]
  · rw [hset.fld (by decide) (by decide), hc, State.countReset, State.fld_setFld_same _ _ (by decide), hold]
    exact Nat.mod_mod _ 65536
  · exact (congrArg Ctx.phase (hparts (fun x => x.ctx k) (fun _ _ => rfl) (by rw [hb, ha]; rfl))).trans (s.ctx_orphanInvs k)

theorem hostReset_clears {s : State} (hstate : s.fld Fld.BOOT_STATUS_state ≠ 0) (hload : s.load = none) :
    ∃ t, exec .hostReset s = .next t ∧ t.queues = [] ∧ t.proposal = none ∧ t.fld Fld.HQ_DEV_STATE_state = 0 ∧
      t.fld (Fld.RST_CNT_count 6) = (s.fld (Fld.RST_CNT_count 6) + 1) % 65536 ∧ t.layout = s.layout ∧ t.phys = s.phys ∧
      t.syncs = s.syncs ∧ t.kv = s.kv ∧ t.held = s.held ∧ (∀ k, (t.ctx k).phase = (s.ctx k).phase) := by
  obtain ⟨u, hu⟩ : ∃ u, u = s.hostPortLost := ⟨_, rfl⟩
  obtain ⟨hrest, hqueues, hnone, hdev, hcount, hctx⟩ := s.hostPortLost_effect hu
  have hexec : exec .hostReset s = .next { u with proposal := none, load := none, msixTable := [], msixPending := [] } := by
    change execHostReset s = _
    have hload' : ¬u.load.isSome = true := by rw [hnone, hload]; decide
    rw [execHostReset, if_neg hstate, State.hostPortReset]
    change Host.Outcome.next (_ : State) = _
    rw [← State.hostPortLost, ← hu]
    simp only [if_neg hload']
  exact ⟨_, hexec, hqueues, rfl, hdev, hcount, (congrArg State.layout hrest :), (congrArg State.phys hrest :), (congrArg State.syncs hrest :),
    (congrArg State.kv hrest :), (congrArg State.held hrest :), hctx⟩

theorem hostReset_begins {s : State} (hstate : s.fld Fld.BOOT_STATUS_state = 0) (hepisode : s.rst.episode = false) :
    ∃ t, exec .hostReset s = .next t ∧ t.rst.episode = true ∧ t.held = (List.range 39).map (· + 1) ∧
      t.fld Fld.RST_CAUSE_first = 6 ∧ t.layout = none := by
  obtain ⟨-, -, hfirst, -⟩ := State.activate_effect hepisode (by decide : (6 : Nat) ≠ 1) (by decide) (by decide)
  obtain ⟨hrst, hheld, hlayout, -⟩ := State.activate_module hepisode (by decide : (6 : Nat) ≠ 1) (by decide) (by decide)
  refine ⟨s.activate 6, ?_, congrArg RstSt.episode hrst, hheld, hfirst, hlayout⟩
  change execHostReset s = _
  rw [execHostReset, if_pos hstate]

/-- The registers in which firmware shows itself. -/
def firmwareRegs : List Nat := [Reg.HQ_FW_VERSION, Reg.HQ_IF_FW] ++ (List.range 16).map (fun i => Reg.HQ_FW_DIGEST 0 + 4 * i)

theorem State.showFirmware_shows (s : State) :
    RegsMoved s s.showFirmware firmwareRegs ∧
      ∀ f, s.boot.fw = some f →
        s.showFirmware.reg Reg.HQ_FW_VERSION = BitVec.ofNat 32 f.version ∧ s.showFirmware.reg Reg.HQ_IF_FW = BitVec.ofNat 32 f.ifWord := by
  cases h : s.boot.fw with
  | none =>
    have hshown : s.showFirmware = s := by rw [State.showFirmware, h]
    rw [hshown]
    exact ⟨.refl s _, nofun⟩
  | some f =>
    obtain ⟨a, ha⟩ : ∃ a, a = s.setReg Reg.HQ_FW_VERSION (BitVec.ofNat 32 f.version) := ⟨_, rfl⟩
    obtain ⟨b, hb⟩ : ∃ b, b = a.setReg Reg.HQ_IF_FW (BitVec.ofNat 32 f.ifWord) := ⟨_, rfl⟩
    have hshown : s.showFirmware = b.setRegBytes (Reg.HQ_FW_DIGEST 0) 16 f.digest := by rw [State.showFirmware, h, hb, ha]
    have hdigest := b.setRegBytes_moved 16 (a := Reg.HQ_FW_DIGEST 0) f.digest
    rw [hshown]
    refine ⟨?_, fun g hg => ?_⟩
    · have hwords : RegsMoved s b [Reg.HQ_FW_VERSION, Reg.HQ_IF_FW] := by
        rw [hb, ha]
        exact (RegsMoved.setReg s _ (by simp)).trans (.setReg _ _ (by simp))
      exact hwords.append hdigest
    · cases hg
      rw [hdigest.reg (by decide), hdigest.reg (by decide), hb, State.reg_setReg_same, State.reg_setReg_ne _ _ (by decide), ha,
        State.reg_setReg_same]
      exact ⟨rfl, rfl⟩

theorem State.linkUp_links (s : State) {width rate : Nat} (flit : Bool) (hwidth : width < 16) (hrate : rate < 16) {t : State}
    (ht : t = s.linkUp width rate flit) :
    t.fld Fld.PCIE_LINK_STATUS_width = width ∧ t.fld Fld.PCIE_LINK_STATUS_rate = rate ∧ t.flag Fld.PCIE_LINK_STATUS_flit = flit ∧
      t.flag Fld.PCIE_LINK_STATUS_up = true ∧ RegsMoved s t [Reg.PCIE_LINK_STATUS] := by
  have hset (a : State) (lo w v : Nat) (h : lo + w ≤ 32) : RegsMoved a (a.setFld ⟨Reg.PCIE_LINK_STATUS, lo, w⟩ v) [Reg.PCIE_LINK_STATUS] :=
    .setFld a v h (by simp)
  have hkeep (a : State) {f g : Fld} (v : Nat) (hf : f.lo + f.width ≤ 32) (hg : g.lo + g.width ≤ 32)
      (h : g.addr ≠ f.addr ∨ g.lo + g.width ≤ f.lo ∨ f.lo + f.width ≤ g.lo) : (a.setFld f v).fld g = a.fld g := a.fld_setFld_ne v hf hg h
  subst ht
  refine ⟨?_, ?_, ?_, State.flag_setFld_same _ _ (by decide) rfl, ?_⟩
  · rw [State.linkUp, hkeep _ _ (by decide) (by decide) (.inr (by decide)), hkeep _ _ (by decide) (by decide) (.inr (by decide)),
      hkeep _ _ (by decide) (by decide) (.inr (by decide)), State.fld_setFld_same _ _ (by decide)]
    exact Nat.mod_eq_of_lt (by simpa using hwidth)
  · rw [State.linkUp, hkeep _ _ (by decide) (by decide) (.inr (by decide)), hkeep _ _ (by decide) (by decide) (.inr (by decide)),
      State.fld_setFld_same _ _ (by decide)]
    exact Nat.mod_eq_of_lt (by simpa using hrate)
  · rw [State.flag, State.linkUp, hkeep _ _ (by decide) (by decide) (.inr (by decide)), State.fld_setFld_same _ _ (by decide)]
    cases flit <;> rfl
  · exact (((hset s _ _ width (by decide)).trans (hset _ _ _ rate (by decide))).trans (hset _ _ _ (b2n flit) (by decide))).trans
      (hset _ _ _ 1 (by decide))

theorem hostPortReconfigure_configures {width rate : Nat} {flit : Bool} {s : State} (hstate : s.fld Fld.BOOT_STATUS_state = 1)
    (hdev : s.fld Fld.HQ_DEV_STATE_state = 0) (hwidth : width < 16) (hrate : rate < 16) :
    ∃ t, exec (.hostPortReconfigure width rate flit) s = .next t ∧ t.fld Fld.HQ_DEV_STATE_state = 1 ∧
      t.fld Fld.PCIE_LINK_STATUS_width = width ∧ t.fld Fld.PCIE_LINK_STATUS_rate = rate ∧
      t.flag Fld.PCIE_LINK_STATUS_flit = flit ∧ t.flag Fld.PCIE_LINK_STATUS_up = true ∧
      (∀ f, s.boot.fw = some f → t.reg Reg.HQ_FW_VERSION = BitVec.ofNat 32 f.version ∧ t.reg Reg.HQ_IF_FW = BitVec.ofNat 32 f.ifWord) ∧
      BlocksKept s t [0x144, 0x145] ∧ t = { s with regs := t.regs } := by
  obtain ⟨u, hu⟩ : ∃ u, u = s.linkUp width rate flit := ⟨_, rfl⟩
  obtain ⟨hw, hr, hf, hup, hlink⟩ := s.linkUp_links flit hwidth hrate hu
  obtain ⟨hfirmware, hshown⟩ := u.showFirmware_shows
  have hset : RegsMoved u.showFirmware (u.showFirmware.setFld Fld.HQ_DEV_STATE_state 1) [Reg.HQ_DEV_STATE] := .setFld _ _ (by decide) (by simp)
  have hexec : exec (.hostPortReconfigure width rate flit) s = .next (u.showFirmware.setFld Fld.HQ_DEV_STATE_state 1) := by
    change execHostPortReconfigure width rate flit s = _
    rw [execHostPortReconfigure, hstate, hdev, ← hu]
    rfl
  have hmoved : RegsMoved s (u.showFirmware.setFld Fld.HQ_DEV_STATE_state 1) ([Reg.PCIE_LINK_STATUS] ++ (firmwareRegs ++ [Reg.HQ_DEV_STATE])) :=
    hlink.append (hfirmware.append hset)
  have hlater : RegsMoved u (u.showFirmware.setFld Fld.HQ_DEV_STATE_state 1) (firmwareRegs ++ [Reg.HQ_DEV_STATE]) := hfirmware.append hset
  refine ⟨_, hexec, State.fld_setFld_same (f := Fld.HQ_DEV_STATE_state) _ 1 (by decide), (hlater.fld (by decide) (by decide)).trans hw,
    (hlater.fld (by decide) (by decide)).trans hr, (hlater.flag (by decide) (by decide)).trans hf, (hlater.flag (by decide) (by decide)).trans hup,
    fun f hfw => ?_, hmoved.kept.blocksKept (by decide), hmoved.only⟩
  rw [hset.reg (by decide), hset.reg (by decide)]
  exact hshown f (hlink.boot ▸ hfw)

end Sys2Proof.Machine
end

section
/-! Resets of single blocks (R413 to R417). -/

namespace Sys2Proof.Machine

/-! ### What the clearing of a block leaves -/

/-- The always-on time base and RST_BLK_STATUS kept. -/
structure ClearFrame (s t : State) : Prop where
  mono : t.mono = s.mono
  status : t.reg Reg.RST_BLK_STATUS = s.reg Reg.RST_BLK_STATUS

namespace ClearFrame
variable {s t u : State}

theorem refl (s : State) : ClearFrame s s := ⟨rfl, rfl⟩

theorem trans (hst : ClearFrame s t) (htu : ClearFrame t u) : ClearFrame s u := ⟨htu.mono.trans hst.mono, htu.status.trans hst.status⟩

theorem setReg (s : State) {a : Nat} (v : Word) (ha : a ≠ Reg.RST_BLK_STATUS) : ClearFrame s (s.setReg a v) :=
  ⟨rfl, s.reg_setReg_ne v ha.symm⟩

theorem setFld (s : State) {f : Fld} (v : Nat) (hf : f.lo + f.width ≤ 32) (ha : f.addr ≠ Reg.RST_BLK_STATUS) : ClearFrame s (s.setFld f v) :=
  ⟨(congrArg State.mono (s.setFld_regs_only f v) :), s.reg_setFld_ne v hf ha.symm⟩

theorem setReg64 (s : State) {a : Nat} (v : Nat) (ha : a ≠ Reg.RST_BLK_STATUS) (ha' : a + 4 ≠ Reg.RST_BLK_STATUS) :
    ClearFrame s (s.setReg64 a v) :=
  ⟨rfl, s.reg_setReg64_ne v ha.symm ha'.symm⟩

theorem ite {p : Prop} [Decidable p] (ht : ClearFrame s t) (hu : ClearFrame s u) : ClearFrame s (if p then t else u) := by
  split
  · exact ht
  · exact hu

theorem withLoops (s : State) (x : LoopsSt) : ClearFrame s { s with loops := x } := ⟨rfl, rfl⟩
theorem withPorts (s : State) (x : PortsSt) : ClearFrame s { s with ports := x } := ⟨rfl, rfl⟩
theorem withMap (s : State) (x : MapSt) : ClearFrame s { s with map := x } := ⟨rfl, rfl⟩
theorem withSolv (s : State) (x : SolvSt) : ClearFrame s { s with solv := x } := ⟨rfl, rfl⟩

theorem foldl {α : Type} {f : State → α → State} {xs : List α} (hf : ∀ a, ∀ x ∈ xs, ClearFrame a (f a x)) (s : State) :
    ClearFrame s (xs.foldl f s) := by
  induction xs generalizing s with
  | nil => exact refl s
  | cons x xs ih => exact (hf s x List.mem_cons_self).trans (ih (fun a y hy => hf a y (List.mem_cons_of_mem _ hy)) _)

theorem resetBlock (s : State) {die block : Nat} (h : block ≠ 0x20) : ClearFrame s (s.resetBlock die block) :=
  ⟨rfl, s.reg_resetBlock (fun hreg => h (hreg.2.symm.trans (by decide)))⟩

theorem setLoopSlot (s : State) (n : Nat) (x : LoopSlot) : ClearFrame s (s.setLoopSlot n x) :=
  (withLoops s _).trans (setReg _ _ (by simp only [Reg.LOOP_SLOT, Reg.RST_BLK_STATUS]; omega))

theorem startLoops (s : State) (rs : List Bytes) : ClearFrame s (s.startLoops rs) := by
  unfold State.startLoops
  refine (foldl (fun a r _ => setLoopSlot a _ _) s).trans (foldl (fun a e _ => ?_) _)
  split
  · exact refl a
  · exact withLoops a _

theorem restartStreams (s : State) : ClearFrame s s.restartStreams :=
  (withPorts s { s.ports with jbusIn := [] }).trans (foldl (fun a _ _ => withPorts a _) _)

theorem mapRegs (s : State) : ClearFrame s s.mapRegs :=
  ((setFld s _ (by decide) (by decide)).trans (setFld _ _ (by decide) (by decide))).trans (setReg64 _ _ (by decide) (by decide))

theorem resetMap (s : State) : ClearFrame s s.resetMap := by
  unfold State.resetMap
  extract_lets s1 s2
  have hbusy : ClearFrame s1 s2 := (setReg _ _ (by decide)).trans (setFld _ _ (by decide) (by decide))
  have hregs : ClearFrame s2 { s2 with regs := s2.regs.filter (fun p => !(0x281000 ≤ p.1 && p.1 < 0x283000)) } :=
    ⟨rfl, Sparse.get_filter resetOf (fun a => !(0x281000 ≤ a && a < 0x283000)) s2.regs (by decide)⟩
  exact (((withMap s {}).trans hbusy).trans hregs).trans (mapRegs _)

theorem resetSetups (s : State) (ks : List Nat) : ClearFrame s (s.resetSetups ks) :=
  foldl (fun a k _ => (withSolv a _).trans (setReg _ _ (by simp only [Reg.SOLV_SETUP, Reg.RST_BLK_STATUS]; omega))) s

/-- What a block's own chapter clears beside its registers. -/
theorem clearBlock (s : State) (die block : Nat) : (s.clearBlock die block).mono = s.mono ∧
    (block ≠ 0x20 → ClearFrame s (s.clearBlock die block)) := by
  suffices h : block = 0x43 ∨ ClearFrame (s.resetBlock die block) (s.clearBlock die block) by
    rcases h with rfl | h
    · exact ⟨rfl, fun _ => ⟨rfl, Sparse.get_filter resetOf (fun a => a / 0x10000 != 0x143 || ftlKept a) s.regs (by decide)⟩⟩
    · exact ⟨h.mono.trans rfl, fun hb => (resetBlock s hb).trans h⟩
  unfold State.clearBlock
  extract_lets s1
  by_cases hb : block = 0x43
  · exact .inl hb
  · rw [if_neg hb]
    exact .inr <| ite ⟨rfl, rfl⟩ <| ite ⟨rfl, rfl⟩ <| ite ⟨rfl, rfl⟩ <| ite (restartStreams s1) <| ite (withPorts s1 _) <|
      ite (withPorts s1 _) <| ite ⟨rfl, rfl⟩ <| ite (resetMap s1) <| ite ⟨rfl, rfl⟩ <| ite ((withSolv s1 {}).trans (resetSetups _ _)) <|
      ite (startLoops s1 _) <| ite ⟨rfl, rfl⟩ (refl s1)

end ClearFrame

/-! ### A block is reset (R414, R415) -/

/-- What RST_BLK_TERM and RST_BLK_STATUS show of a reset that has terminated `n` operations and commands. -/
def State.showTerm (s : State) (n : Nat) : State :=
  ((s.setFld Fld.RST_BLK_TERM_ops (min n 65535)).setFld Fld.RST_BLK_STATUS_phase 2).setFld Fld.RST_BLK_STATUS_code
    (if n = 0 then 0 else 0x0D10)

section Show
variable (s : State) (n : Nat)

theorem State.showTerm_moved : RegsMoved s (s.showTerm n) [Reg.RST_BLK_TERM, Reg.RST_BLK_STATUS] :=
  ((RegsMoved.setFld s _ (by decide) (by simp)).trans (.setFld _ 2 (by decide) (by simp))).trans (.setFld _ _ (by decide) (by simp))

theorem State.phase_showTerm : (s.showTerm n).fld Fld.RST_BLK_STATUS_phase = 2 := by
  rw [State.showTerm, State.fld_setFld_ne _ _ (by decide) (by decide) (.inr (by decide)), State.fld_setFld_same _ _ (by decide)]
  rfl

theorem State.ops_showTerm : (s.showTerm n).fld Fld.RST_BLK_TERM_ops = min n 65535 := by
  rw [State.showTerm, State.fld_setFld_ne _ _ (by decide) (by decide) (.inl (by decide)),
    State.fld_setFld_ne _ _ (by decide) (by decide) (.inl (by decide)), State.fld_setFld_same _ _ (by decide)]
  exact Nat.mod_eq_of_lt (by change min n 65535 < 65536; omega)

theorem State.code_showTerm (h : n ≠ 0) : (s.showTerm n).fld Fld.RST_BLK_STATUS_code = 0x0D10 := by
  rw [State.showTerm, if_neg h, State.fld_setFld_same _ _ (by decide)]
  rfl

theorem State.busy_showTerm : (s.showTerm n).fld Fld.RST_BLK_STATUS_busy = s.fld Fld.RST_BLK_STATUS_busy := by
  rw [State.showTerm, State.fld_setFld_ne _ _ (by decide) (by decide) (.inr (by decide)),
    State.fld_setFld_ne _ _ (by decide) (by decide) (.inr (by decide)), State.fld_setFld_ne _ _ (by decide) (by decide) (.inl (by decide))]

end Show

/-- A state with a block held by its reset from now on. -/
def State.blockHeld (s : State) (die block : Nat) (sirug : Bool) : State :=
  { s with rst := { s.rst with blk := some ⟨die, block, sirug, s.monoNs⟩ } }

theorem State.fld_blockHeld (s : State) (die block : Nat) (sirug : Bool) (f : Fld) : (s.blockHeld die block sirug).fld f = s.fld f := rfl

section Reset
variable {s : State} {die block : Nat} {sirug : Bool}

theorem State.resetNow_shows (s : State) (die block : Nat) (sirug : Bool) :
    ∃ u, s.resetNow die block sirug = (State.showTerm u (s.blockLoad die block)).blockHeld die block sirug := ⟨_, rfl⟩

/-- A block with nothing in flight is cleared, and nothing else is done. -/
theorem State.resetNow_of_idle (h : s.blockLoad die block = 0) :
    s.resetNow die block sirug = ((s.clearBlock die block).showTerm 0).blockHeld die block sirug := by
  obtain ⟨hruns, hcmds⟩ : s.blockRuns die block = [] ∧ s.blockCmds die block = 0 := by
    rw [State.blockLoad, Nat.add_eq_zero_iff, List.length_eq_zero_iff] at h
    exact h
  obtain ⟨u, hu⟩ : ∃ u, u = s.clearBlock die block := ⟨_, rfl⟩
  have hother : block = 0x42 → s.slotTransfers = [] ∧ s.failResidencies = s ∧ s.tierPending = none := fun hb => by
    rw [State.blockCmds, if_neg (by omega), if_pos hb] at hcmds
    have htier : b2n s.tierPending.isSome = 0 := by omega
    have hloading : (s.ctxs.filter (fun p => p.2.phase == .loading)) = [] := List.length_eq_zero_iff.mp (by omega)
    refine ⟨List.length_eq_zero_iff.mp (by omega), by rw [State.failResidencies, hloading]; rfl, ?_⟩
    cases hp : s.tierPending with
    | none => rfl
    | some => rw [hp] at htier; cases htier
  have hmoved : (if block = 0x42 then s.slotTransfers.foldl (fun (a : State) d => a.endSlotTransfer d) s.failResidencies else s) = s := by
    split
    next hb =>
      obtain ⟨hslots, hfail, -⟩ := hother hb
      rw [hslots, hfail]
      rfl
    next => rfl
  have hcmd : u.endBlockCmd s die block = u := by
    unfold State.endBlockCmd
    split
    next hb =>
      rw [State.blockCmds, if_pos hb] at hcmds
      cases hk : s.kvPending with
      | none => rfl
      | some => rw [hk] at hcmds; cases hcmds
    split
    next hb =>
      rw [(hother hb).2.2]
      rfl
    split
    next hb =>
      rw [State.blockCmds, if_neg (by omega), if_neg (by omega), if_pos hb] at hcmds
      cases hc : s.seqCmd die with
      | none => rfl
      | some => rw [hc] at hcmds; cases hcmds
    split
    next hb =>
      have hzero : s.blockCmds 0 0x28 = 0 := by
        rw [State.blockCmds, if_neg (by omega), if_neg (by omega), if_neg (by omega), if_pos hb] at hcmds
        rw [State.blockCmds, if_neg (by omega), if_neg (by omega), if_neg (by omega), if_pos rfl, hcmds]
      rw [if_pos hzero]
    rfl
  have hshown : s.resetNow die block sirug =
      ((((if block = 0x42 then ((s.blockRuns die block).foldl (fun (a : State) r => a.terminateRun r) s).slotTransfers.foldl
          (fun (a : State) d => a.endSlotTransfer d) ((s.blockRuns die block).foldl (fun (a : State) r => a.terminateRun r) s).failResidencies
        else (s.blockRuns die block).foldl (fun (a : State) r => a.terminateRun r) s).clearBlock die block).endBlockCmd s die block).showTerm
          (s.blockLoad die block)).blockHeld die block sirug := rfl
  rw [hshown, hruns, List.foldl_nil, hmoved, ← hu, hcmd, h]

/-- The reset of a block with nothing in flight, as RST_BLK_STATUS and RST_BLK_TERM show it. -/
theorem State.resetNow_idle_effect (h : s.blockLoad die block = 0) {t : State} (ht : t = s.resetNow die block sirug) :
    t.fld Fld.RST_BLK_STATUS_phase = 2 ∧ t.fld Fld.RST_BLK_TERM_ops = 0 ∧ t.rst.blk = some ⟨die, block, sirug, s.monoNs⟩ ∧
      (block ≠ 0x20 → t.fld Fld.RST_BLK_STATUS_busy = s.fld Fld.RST_BLK_STATUS_busy) := by
  obtain ⟨hmono, hstatus⟩ := ClearFrame.clearBlock s die block
  obtain ⟨u, hu⟩ : ∃ u, u = s.clearBlock die block := ⟨_, rfl⟩
  obtain ⟨v, hv⟩ : ∃ v, v = u.showTerm 0 := ⟨_, rfl⟩
  have hshown : t = v.blockHeld die block sirug := by rw [ht, State.resetNow_of_idle h, ← hu, ← hv]
  rw [← hu] at hmono hstatus
  have hfld (f : Fld) : t.fld f = v.fld f := by rw [hshown, State.fld_blockHeld]
  have hmono' : v.mono = s.mono := hv ▸ (congrArg State.mono (u.showTerm_moved 0).only :).trans hmono
  refine ⟨(hfld _).trans (hv ▸ u.phase_showTerm 0), (hfld _).trans (hv ▸ u.ops_showTerm 0), ?_, fun hb => ?_⟩
  · have hns : v.monoNs = s.monoNs := by rw [State.monoNs, State.monoNs, hmono']
    rw [hshown, State.blockHeld, hns]
  · rw [hfld, hv, u.busy_showTerm 0]
    exact State.fld_of_reg (by decide) (hstatus hb).status

theorem blockDrainDone_resets {b : BlockReset} (hblk : s.rst.blk = some b) (hphase : s.fld Fld.RST_BLK_STATUS_phase = 1)
    (hload : s.blockLoad b.die b.block = 0) :
    ∃ t, exec .blockDrainDone s = .next t ∧ t.fld Fld.RST_BLK_STATUS_phase = 2 ∧ t.fld Fld.RST_BLK_TERM_ops = 0 ∧
      t.rst.blk = some ⟨b.die, b.block, false, s.monoNs⟩ := by
  obtain ⟨hp, hops, hheld, -⟩ := State.resetNow_idle_effect (sirug := false) hload rfl
  refine ⟨_, ?_, hp, hops, hheld⟩
  change execBlockDrainDone s = _
  rw [execBlockDrainDone, hblk]
  simp only [hphase, hload, and_self, if_true]

theorem blockDrainTimeout_terminates {b : BlockReset} (hblk : s.rst.blk = some b) (hphase : s.fld Fld.RST_BLK_STATUS_phase = 1)
    (hload : s.blockLoad b.die b.block ≠ 0) (hdue : b.since + s.drainNs ≤ s.monoNs) :
    ∃ t, exec .blockDrainTimeout s = .next t ∧ t.fld Fld.RST_BLK_STATUS_phase = 2 ∧
      t.fld Fld.RST_BLK_TERM_ops = min (s.blockLoad b.die b.block) 65535 ∧ t.fld Fld.RST_BLK_STATUS_code = 0x0D10 ∧
      t.flag Fld.RST_EVT_STATUS_blk_escalated = true := by
  obtain ⟨u, hu⟩ := s.resetNow_shows b.die b.block false
  obtain ⟨v, hv⟩ : ∃ v, v = s.resetNow b.die b.block false := ⟨_, rfl⟩
  have hfld (f : Fld) : v.fld f = (State.showTerm u (s.blockLoad b.die b.block)).fld f := by rw [hv, hu, State.fld_blockHeld]
  have hexec : exec .blockDrainTimeout s = .next (v.event Ev.RST_EVT_STATUS_blk_escalated) := by
    change execBlockDrainTimeout s = _
    rw [execBlockDrainTimeout, hblk]
    rw [hv]
    exact congrArg Host.Outcome.next (if_pos ⟨hphase, hdue, hload⟩)
  have hkept := regsKept_event v Ev.RST_EVT_STATUS_blk_escalated
  obtain ⟨hstatus, -⟩ := counted_event v (e := Ev.RST_EVT_STATUS_blk_escalated) (by decide) (by decide)
  refine ⟨_, hexec, ?_, ?_, ?_, ?_⟩
  · rw [hkept.fld (by decide) (by decide), hfld, State.phase_showTerm]
  · rw [hkept.fld (by decide) (by decide), hfld, State.ops_showTerm]
  · rw [hkept.fld (by decide) (by decide), hfld, State.code_showTerm _ _ hload]
  · exact State.flag_of_getLsbD (by decide) hstatus

end Reset

/-! ### A block reset requested (R413, R416, R417) -/

/-- The fields of RST_BLK_CTRL noted. -/
def State.blkNoted (s : State) (v : Nat) : State :=
  ((s.setFld Fld.RST_BLK_CTRL_mode (bits v 1 1)).setFld Fld.RST_BLK_CTRL_die (bits v 8 3)).setFld Fld.RST_BLK_CTRL_block (bits v 16 8)

theorem State.blkNoted_moved (s : State) (v : Nat) : RegsMoved s (s.blkNoted v) [Reg.RST_BLK_CTRL] :=
  ((RegsMoved.setFld s _ (by decide) (by simp)).trans (.setFld _ _ (by decide) (by simp))).trans (.setFld _ _ (by decide) (by simp))

/-- A request accepted: it is counted, and RST_BLK_STATUS shows it. -/
def State.blkAccepted (s : State) : State :=
  (((s.countReset 9).setFld Fld.RST_BLK_STATUS_busy 1).setFld Fld.RST_BLK_STATUS_code 0).setFld Fld.RST_BLK_TERM_ops 0

theorem State.blkAccepted_shows (s : State) {t : State} (ht : t = s.blkAccepted) :
    RegsMoved s t [Reg.RST_CNT 9, Reg.RST_BLK_STATUS, Reg.RST_BLK_TERM] ∧
      t.fld (Fld.RST_CNT_count 9) = (s.fld (Fld.RST_CNT_count 9) + 1) % 65536 ∧ t.fld Fld.RST_BLK_STATUS_busy = 1 := by
  obtain ⟨m, hm⟩ : ∃ m, m = s.countReset 9 := ⟨_, rfl⟩
  have hcount : RegsMoved s m [Reg.RST_CNT 9] := hm ▸ .setFld s _ (by decide) (by simp)
  have hshown : RegsMoved m t [Reg.RST_BLK_STATUS, Reg.RST_BLK_TERM] := by
    rw [ht, State.blkAccepted, ← hm]
    exact ((RegsMoved.setFld m 1 (by decide) (by simp)).trans (.setFld _ 0 (by decide) (by simp))).trans (.setFld _ 0 (by decide) (by simp))
  refine ⟨hcount.append hshown, ?_, ?_⟩
  · rw [hshown.fld (by decide) (by decide), hm, State.countReset, State.fld_setFld_same _ _ (by decide)]
    exact Nat.mod_mod _ 65536
  · rw [ht, State.blkAccepted, State.fld_setFld_ne _ _ (by decide) (by decide) (.inl (by decide)),
      State.fld_setFld_ne _ _ (by decide) (by decide) (.inr (by decide)), State.fld_setFld_same _ _ (by decide)]
    rfl

/-- The condition under which a request is ignored. -/
def State.blkStopped (s : State) (die block : Nat) : Bool :=
  s.rst.episode || s.rst.blk.isSome || s.swResetNow || !blockResettable die block ||
    (blockNeedsSto block && s.fld Fld.SIO_STO_STATUS_asserted != 15)

theorem State.startBlockReset_eq (s : State) (die block : Nat) (sirug : Bool) :
    s.startBlockReset die block sirug =
      if s.blkStopped die block then s.rstReject
      else if sirug then s.blkAccepted.resetNow die block true
      else (s.blkAccepted.setFld Fld.RST_BLK_STATUS_phase 1).blockHeld die block false := by
  have hheld : (s.blkAccepted.setFld Fld.RST_BLK_STATUS_phase 1).blockHeld die block false =
      { s.blkAccepted.setFld Fld.RST_BLK_STATUS_phase 1 with
        rst := { s.blkAccepted.rst with blk := some ⟨die, block, false, s.blkAccepted.monoNs⟩ } } := by
    have hmono : (s.blkAccepted.setFld Fld.RST_BLK_STATUS_phase 1).monoNs = s.blkAccepted.monoNs := by
      rw [State.monoNs, State.monoNs, State.setFld_mono]
    rw [State.blockHeld, State.setFld_rst, hmono]
  rw [hheld, State.startBlockReset, State.blkStopped, State.blkAccepted]

section Request
variable {who : Requester} {value : Nat} {s : State} (hs : s.served who 0 0x20 true = true)
include hs

theorem exec_blockResetDrain_of_served : exec (.blockResetDrain who value) s =
    .next ((s.blkNoted (setBits value 0 2 1)).startBlockReset (bits value 8 3) (bits value 16 8) false) := by
  obtain ⟨v, hv⟩ : ∃ v, v = setBits value 0 2 1 := ⟨_, rfl⟩
  have hstart : bit v 0 = true := hv ▸ bit_setBits_zero_two value 1 0 (by omega)
  have hmode : bit v 1 = false := hv ▸ bit_setBits_zero_two value 1 1 (by omega)
  have hdie : bits v 8 3 = bits value 8 3 := hv ▸ bits_setBits_disjoint (.inr (by omega))
  have hblock : bits v 16 8 = bits value 16 8 := hv ▸ bits_setBits_disjoint (.inr (by omega))
  change execBlockResetDrain who value s = _
  rw [execBlockResetDrain, State.busWrite_of_served _ hs, ← hv, State.writeBlkCtrl, hstart, if_pos rfl, hmode, State.blkNoted, hdie, hblock]

theorem exec_blockResetSirug_of_served : exec (.blockResetSirug who value) s =
    .next ((s.blkNoted (setBits value 0 2 3)).startBlockReset (bits value 8 3) (bits value 16 8) true) := by
  obtain ⟨v, hv⟩ : ∃ v, v = setBits value 0 2 3 := ⟨_, rfl⟩
  have hstart : bit v 0 = true := hv ▸ bit_setBits_zero_two value 3 0 (by omega)
  have hmode : bit v 1 = true := hv ▸ bit_setBits_zero_two value 3 1 (by omega)
  have hdie : bits v 8 3 = bits value 8 3 := hv ▸ bits_setBits_disjoint (.inr (by omega))
  have hblock : bits v 16 8 = bits value 16 8 := hv ▸ bits_setBits_disjoint (.inr (by omega))
  change execBlockResetSirug who value s = _
  rw [execBlockResetSirug, State.busWrite_of_served _ hs, ← hv, State.writeBlkCtrl, hstart, if_pos rfl, hmode, State.blkNoted, hdie, hblock]

end Request

section Accepted
variable {s m : State} {value : Nat} (hm : RegsMoved s m [Reg.RST_BLK_CTRL])
include hm

theorem blkStopped_noted (die block : Nat) : m.blkStopped die block = s.blkStopped die block := by
  have hrst : m.rst = s.rst := (congrArg State.rst hm.only :)
  have hnow : m.swResetNow = s.swResetNow := (congrArg State.swResetNow hm.only :)
  rw [State.blkStopped, State.blkStopped, hrst, hnow, hm.fld (f := Fld.SIO_STO_STATUS_asserted) (by decide) (by decide)]

theorem blkStopped_of_accepted (hblock : blockResettable (bits value 8 3) (bits value 16 8) = true) (hepisode : s.rst.episode = false)
    (hblk : s.rst.blk = none) (hsto : blockNeedsSto (bits value 16 8) = true → s.allAsserted = true) (hsw : s.swResetNow = false) :
    m.blkStopped (bits value 8 3) (bits value 16 8) = false := by
  have htorque : (blockNeedsSto (bits value 16 8) && s.fld Fld.SIO_STO_STATUS_asserted != 15) = false := by
    cases h : blockNeedsSto (bits value 16 8) with
    | false => rfl
    | true => rw [beq_iff_eq.mp (hsto h)]; rfl
  rw [blkStopped_noted hm, State.blkStopped, hepisode, hblk, hsw, hblock, htorque]
  rfl

theorem blkStopped_of_refused (h : blockRefused s value) : m.blkStopped (bits value 8 3) (bits value 16 8) = true := by
  rw [blkStopped_noted hm, State.blkStopped]
  rcases h with h | h | h | h | ⟨hneeds, hsto⟩
  · rw [h]
    simp
  · rw [h, Bool.true_or, Bool.true_or, Bool.true_or, Bool.true_or]
  · rw [Option.isSome_iff_ne_none.mpr h]
    simp
  · rw [h]
    simp
  · have hnot : (s.fld Fld.SIO_STO_STATUS_asserted != 15) = true := by rw [bne, Bool.not_eq_true']; exact hsto
    rw [hneeds, hnot, Bool.true_and, Bool.or_true]

/-- A request ignored leaves cmd_reject alone. -/
theorem blockReset_rejected (h : blockRefused s value) (sirug : Bool) {t : State}
    (ht : t = m.startBlockReset (bits value 8 3) (bits value 16 8) sirug) :
    Counted s t Ev.RST_EVT_STATUS_cmd_reject ∧ RegsKept s t (Reg.RST_BLK_CTRL :: Ev.RST_EVT_STATUS_cmd_reject.regs) ∧
      t = { s with regs := t.regs } := by
  have hreject : t = m.event Ev.RST_EVT_STATUS_cmd_reject := by
    rw [ht, State.startBlockReset_eq, blkStopped_of_refused hm h, if_pos rfl, State.rstReject]
  have hmoved : RegsMoved s t ([Reg.RST_BLK_CTRL] ++ Ev.RST_EVT_STATUS_cmd_reject.regs) := hreject ▸ hm.append (.event m _)
  exact ⟨hreject ▸ hm.counted (by decide) (by decide) (by decide), hmoved.kept, hmoved.only⟩

end Accepted

section Granted
variable {who : Requester} {value : Nat} {s : State} (hs : s.served who 0 0x20 true = true)
  (hblock : blockResettable (bits value 8 3) (bits value 16 8) = true) (hepisode : s.rst.episode = false) (hblk : s.rst.blk = none)
  (hsto : blockNeedsSto (bits value 16 8) = true → s.allAsserted = true) (hsw : s.swResetNow = false)
include hs hblock hepisode hblk hsto hsw

theorem blockResetDrain_begins :
    ∃ t, exec (.blockResetDrain who value) s = .next t ∧
      t.rst.blk = some ⟨bits value 8 3, bits value 16 8, false, s.monoNs⟩ ∧ t.fld Fld.RST_BLK_STATUS_busy = 1 ∧
      t.fld Fld.RST_BLK_STATUS_phase = 1 ∧ t.blkOpen (bits value 8 3) (bits value 16 8) = false ∧
      t.fld (Fld.RST_CNT_count 9) = (s.fld (Fld.RST_CNT_count 9) + 1) % 65536 ∧ t = { s with regs := t.regs, rst := t.rst } ∧
     BlocksKept s t [0x20] := by
  obtain ⟨m, hm⟩ : ∃ m, m = s.blkNoted (setBits value 0 2 1) := ⟨_, rfl⟩
  have hnoted : RegsMoved s m [Reg.RST_BLK_CTRL] := hm ▸ s.blkNoted_moved _
  obtain ⟨u, hu⟩ : ∃ u, u = m.blkAccepted := ⟨_, rfl⟩
  obtain ⟨haccepted, hcount, hbusy⟩ := m.blkAccepted_shows hu
  obtain ⟨v, hv⟩ : ∃ v, v = u.setFld Fld.RST_BLK_STATUS_phase 1 := ⟨_, rfl⟩
  have hphase : RegsMoved u v [Reg.RST_BLK_STATUS] := hv ▸ .setFld u 1 (by decide) (by simp)
  have hmoved : RegsMoved s v ([Reg.RST_BLK_CTRL] ++ ([Reg.RST_CNT 9, Reg.RST_BLK_STATUS, Reg.RST_BLK_TERM] ++ [Reg.RST_BLK_STATUS])) :=
    hnoted.append (haccepted.append hphase)
  have hexec : exec (.blockResetDrain who value) s = .next (v.blockHeld (bits value 8 3) (bits value 16 8) false) := by
    rw [exec_blockResetDrain_of_served hs, ← hm, State.startBlockReset_eq, blkStopped_of_accepted hnoted hblock hepisode hblk hsto hsw,
      if_neg Bool.false_ne_true, if_neg Bool.false_ne_true, ← hu, ← hv]
  have hheld : (v.blockHeld (bits value 8 3) (bits value 16 8) false).rst.blk = some ⟨bits value 8 3, bits value 16 8, false, s.monoNs⟩ := by
    rw [State.blockHeld, hmoved.monoNs]
  refine ⟨_, hexec, hheld, ?_, ?_, ?_, ?_, ?_, fun a ha => hmoved.kept.blocksKept (by decide) a ha⟩
  · rw [State.fld_blockHeld, hv, State.fld_setFld_ne _ _ (by decide) (by decide) (.inr (by decide)), hbusy]
  · rw [State.fld_blockHeld, hv]
    exact u.fld_setFld_same (f := Fld.RST_BLK_STATUS_phase) 1 (by decide)
  · rw [State.blkOpen, hheld]
    simp
  · rw [State.fld_blockHeld, hphase.fld (by decide) (by decide), hcount, hnoted.fld (by decide) (by decide)]
  · exact (congrArg (fun a : State => { a with
      regs := v.regs, rst := (v.blockHeld (bits value 8 3) (bits value 16 8) false).rst }) hmoved.only :)

theorem blockResetSirug_resets (hload : s.blockLoad (bits value 8 3) (bits value 16 8) = 0) :
    ∃ t, exec (.blockResetSirug who value) s = .next t ∧
      t.rst.blk = some ⟨bits value 8 3, bits value 16 8, true, s.monoNs⟩ ∧ t.fld Fld.RST_BLK_STATUS_busy = 1 ∧
      t.fld Fld.RST_BLK_STATUS_phase = 2 ∧ t.fld Fld.RST_BLK_TERM_ops = 0 := by
  obtain ⟨m, hm⟩ : ∃ m, m = s.blkNoted (setBits value 0 2 3) := ⟨_, rfl⟩
  have hnoted : RegsMoved s m [Reg.RST_BLK_CTRL] := hm ▸ s.blkNoted_moved _
  obtain ⟨u, hu⟩ : ∃ u, u = m.blkAccepted := ⟨_, rfl⟩
  obtain ⟨haccepted, -, hbusy⟩ := m.blkAccepted_shows hu
  have hmoved := hnoted.append haccepted
  have hidle : u.blockLoad (bits value 8 3) (bits value 16 8) = 0 :=
    (congrArg (fun a => a.blockLoad (bits value 8 3) (bits value 16 8)) hmoved.only :).trans hload
  have hnot : bits value 16 8 ≠ 0x20 := fun h => by
    rw [h] at hblock
    simp [blockResettable] at hblock
  have hexec : exec (.blockResetSirug who value) s = .next (u.resetNow (bits value 8 3) (bits value 16 8) true) := by
    rw [exec_blockResetSirug_of_served hs, ← hm, State.startBlockReset_eq, blkStopped_of_accepted hnoted hblock hepisode hblk hsto hsw,
      if_neg Bool.false_ne_true, if_pos rfl, ← hu]
  obtain ⟨hphase, hops, hheld, hkeep⟩ := State.resetNow_idle_effect (sirug := true) hidle rfl
  exact ⟨_, hexec, hmoved.monoNs ▸ hheld, (hkeep hnot).trans hbusy, hphase, hops⟩

end Granted

/-! ### The release of a block (R414) -/

/-- The reset controller and the registers of its block kept. -/
structure WaitFrame (s t : State) : Prop where
  rst : t.rst = s.rst
  regs : ∀ a, a / 65536 = 0x20 → t.reg a = s.reg a

namespace WaitFrame
variable {s t u : State}

theorem refl (s : State) : WaitFrame s s := ⟨rfl, fun _ _ => rfl⟩

theorem trans (hst : WaitFrame s t) (htu : WaitFrame t u) : WaitFrame s u :=
  ⟨htu.rst.trans hst.rst, fun a ha => (htu.regs a ha).trans (hst.regs a ha)⟩

theorem beginResidency (s : State) (k : Nat) : WaitFrame s (s.beginResidency k) := by
  have hloading : WaitFrame s (s.loading k) := ⟨rfl, fun _ _ => rfl⟩
  rcases s.beginResidency_cases k with ⟨code, hfailed⟩ | hentered | hloads
  · have h := State.residencyFailed_fails (s.loading k) k code
    rw [hfailed]
    refine hloading.trans ⟨(congrArg State.rst h.only :), fun a ha => h.kept a fun hmem => ?_⟩
    simp only [Evt.regs, Ev.LAY_CTX_EVENT_res_fail, List.mem_cons, List.not_mem_nil, or_false] at hmem
    rcases hmem with rfl | rfl <;> exact absurd ha (by decide)
  · have h := State.enterResident_entered (s.loading k) k
    rw [hentered]
    refine hloading.trans ⟨(congrArg State.rst h.only :), fun a ha => h.kept a fun hmem => ?_⟩
    rcases List.mem_append.mp hmem with hmem | hmem
    · simp only [Evt.regs, Ev.LAY_CTX_EVENT_resident, List.mem_cons, List.not_mem_nil, or_false] at hmem
      rcases hmem with rfl | rfl <;> exact absurd ha (by decide)
    · unfold State.fusionRegs at hmem
      split at hmem
      · simp only [List.mem_cons, List.not_mem_nil, or_false] at hmem
        rw [hmem] at ha
        exact absurd ha (by decide)
      · cases hmem
  · rw [hloads]
    exact hloading

theorem startWaiting (s : State) (n : Nat) : WaitFrame s (s.startWaiting n) := by
  induction n generalizing s with
  | zero => exact refl s
  | succ n ih =>
    rcases s.startWaiting_succ n with hrests | ⟨p, -, -, hbegins⟩
    · rw [hrests]
      exact refl s
    · rw [hbegins]
      exact (beginResidency s p.1).trans (ih _)

end WaitFrame

/-- A block open again: RST_BLK_STATUS shows no reset, and blk_done is counted. -/
def State.blkReleased (s : State) : State :=
  (({ s with rst := { s.rst with blk := none } }.setFld Fld.RST_BLK_STATUS_busy 0).setFld Fld.RST_BLK_STATUS_phase 0).event
    Ev.RST_EVT_STATUS_blk_done

theorem State.blkReleased_shows (s : State) {t : State} (ht : t = s.blkReleased) :
    t.rst = { s.rst with blk := none } ∧ t.fld Fld.RST_BLK_STATUS_busy = 0 ∧ t.fld Fld.RST_BLK_STATUS_phase = 0 ∧
      Counted s t Ev.RST_EVT_STATUS_blk_done ∧ RegsKept s t (Reg.RST_BLK_STATUS :: Ev.RST_EVT_STATUS_blk_done.regs) ∧
      t = { s with regs := t.regs, rst := t.rst } := by
  obtain ⟨m, hm⟩ : ∃ m, m = ({ s with rst := { s.rst with blk := none } } : State) := ⟨_, rfl⟩
  obtain ⟨u, hu⟩ : ∃ u, u = (m.setFld Fld.RST_BLK_STATUS_busy 0).setFld Fld.RST_BLK_STATUS_phase 0 := ⟨_, rfl⟩
  have hreleased : t = u.event Ev.RST_EVT_STATUS_blk_done := by rw [ht, State.blkReleased, hu, hm]
  have hshown : RegsMoved m u [Reg.RST_BLK_STATUS] := by
    rw [hu]
    exact (RegsMoved.setFld m 0 (by decide) (by simp)).trans (.setFld _ 0 (by decide) (by simp))
  have hevent : RegsMoved u t Ev.RST_EVT_STATUS_blk_done.regs := hreleased ▸ .event u _
  have hmoved : RegsMoved m t ([Reg.RST_BLK_STATUS] ++ Ev.RST_EVT_STATUS_blk_done.regs) := hshown.append hevent
  have hregs : m.regs = s.regs := hm ▸ rfl
  have hrst : t.rst = { s.rst with blk := none } := (congrArg State.rst hmoved.only :).trans (hm ▸ rfl)
  refine ⟨hrst, ?_, ?_, ?_, (RegsKept.of_regs hregs _).trans hmoved.kept, ?_⟩
  · rw [hevent.fld (by decide) (by decide), hu, State.fld_setFld_ne _ _ (by decide) (by decide) (.inr (by decide)),
      State.fld_setFld_same _ _ (by decide)]
    rfl
  · rw [hevent.fld (by decide) (by decide), hu, State.fld_setFld_same _ _ (by decide)]
    rfl
  · have hcounted : Counted m t Ev.RST_EVT_STATUS_blk_done := hreleased ▸ hshown.counted (by decide) (by decide) (by decide)
    exact hcounted.since (State.reg_congr hregs _)
  · rw [hrst]
    exact hmoved.only.trans (hm ▸ rfl)

theorem exec_blockResetRelease {b : BlockReset} {s : State} (hblk : s.rst.blk = some b) (hphase : s.fld Fld.RST_BLK_STATUS_phase = 2)
    (hdue : b.since + 2560 ≤ s.monoNs) : exec .blockResetRelease s = .next (s.blkReleased.startWaiting 64) := by
  change execBlockResetRelease s = _
  rw [execBlockResetRelease, hblk]
  exact congrArg Host.Outcome.next (if_pos ⟨hphase, hdue⟩)

theorem blockResetRelease_opens {b : BlockReset} {s : State} (hblk : s.rst.blk = some b) (hphase : s.fld Fld.RST_BLK_STATUS_phase = 2)
    (hdue : b.since + 2560 ≤ s.monoNs) :
    ∃ t, exec .blockResetRelease s = .next t ∧ t.rst.blk = none ∧ (∀ die block, t.blkOpen die block = true) ∧
      t.fld Fld.RST_BLK_STATUS_busy = 0 ∧ t.fld Fld.RST_BLK_STATUS_phase = 0 ∧ Counted s t Ev.RST_EVT_STATUS_blk_done := by
  obtain ⟨u, hu⟩ : ∃ u, u = s.blkReleased := ⟨_, rfl⟩
  obtain ⟨hrst, hbusy, hidle, ⟨hstatus, hcount⟩, -⟩ := s.blkReleased_shows hu
  have hframe := WaitFrame.startWaiting u 64
  have hnone : (u.startWaiting 64).rst.blk = none := by rw [hframe.rst, hrst]
  refine ⟨_, hu ▸ exec_blockResetRelease hblk hphase hdue, hnone, fun die block => ?_, ?_, ?_, ?_, ?_⟩
  · rw [State.blkOpen, hnone]
    rfl
  · exact (State.fld_of_reg (by decide) (hframe.regs _ (by decide))).trans hbusy
  · exact (State.fld_of_reg (by decide) (hframe.regs _ (by decide))).trans hidle
  · rw [hframe.regs _ (by decide)]
    exact hstatus
  · rw [hframe.regs _ (by decide)]
    exact hcount

theorem blockResetRelease_alone {b : BlockReset} {s : State} (hblk : s.rst.blk = some b) (hphase : s.fld Fld.RST_BLK_STATUS_phase = 2)
    (hdue : b.since + 2560 ≤ s.monoNs) (hwaiting : s.ctxs.any (fun p => p.2.waiting) = false) :
    ∃ t, exec .blockResetRelease s = .next t ∧ { t.rst with blk := s.rst.blk } = s.rst ∧
      RegsKept s t (Reg.RST_BLK_STATUS :: Ev.RST_EVT_STATUS_blk_done.regs) ∧ t = { s with regs := t.regs, rst := t.rst } := by
  obtain ⟨u, hu⟩ : ∃ u, u = s.blkReleased := ⟨_, rfl⟩
  obtain ⟨hrst, -, -, -, hkept, honly⟩ := s.blkReleased_shows hu
  have hctxs : u.ctxs = s.ctxs := (congrArg State.ctxs honly :)
  have hrests : u.startWaiting 64 = u := State.startWaiting_of_none (fun p hp => by
    rw [hctxs] at hp
    simpa using List.any_eq_false.mp hwaiting p hp) 64
  refine ⟨u, (exec_blockResetRelease hblk hphase hdue).trans (by rw [← hu, hrests]), by rw [hrst], hkept, honly⟩

/-- Settles O8: the resets of dies are folded, none undoing another; a request for a block is ignored where `State.blkStopped`, and a block with
nothing in flight is cleared and nothing else (`State.resetNow_of_idle`). -/
theorem partialResets : Obligations.PartialResets := by
  unfold Obligations.PartialResets
  refine ⟨fun _ _ _ => swResetDies_resets, fun _ _ _ => swResetDies_rejected, fun _ => hostReset_clears, fun _ => hostReset_begins,
    fun _ _ _ _ => hostPortReconfigure_configures, fun _ _ _ => blockResetDrain_begins, fun _ _ _ => blockResetSirug_resets,
    fun _ _ s hs h => ⟨_, exec_blockResetDrain_of_served hs, blockReset_rejected (s.blkNoted_moved _) h false rfl⟩,
    fun _ _ s hs h => ⟨_, exec_blockResetSirug_of_served hs, blockReset_rejected (s.blkNoted_moved _) h true rfl⟩,
    fun _ _ => blockDrainDone_resets, fun _ _ => blockDrainTimeout_terminates, fun _ _ => blockResetRelease_opens,
    fun _ _ => blockResetRelease_alone⟩

end Sys2Proof.Machine
end

section
/-! The loop engines (chapter 18): what one evaluation of a slot writes, shows and counts, and the passes made of them. -/

namespace Sys2Proof.Machine

/-! ### Writes into a range of memory -/

/-- The second state is the first but for the `n` bytes of memory from `lo` on. -/
structure WroteIn (s t : State) (lo n : Nat) : Prop where
  only : t = { s with phys := t.phys }
  bytes (a : Nat) (h : a < lo ∨ lo + n ≤ a) : t.byteAt a = s.byteAt a

namespace WroteIn
variable {s t u : State} {lo n : Nat}

theorem refl (s : State) (lo n : Nat) : WroteIn s s lo n := ⟨rfl, fun _ _ => rfl⟩

theorem trans (hst : WroteIn s t lo n) (htu : WroteIn t u lo n) : WroteIn s u lo n :=
  ⟨htu.only.trans (congrArg (fun a : State => { a with phys := u.phys }) hst.only),
    fun a h => (htu.bytes a h).trans (hst.bytes a h)⟩

theorem writeDie (s : State) {x y n : Nat} {bs : Bytes} (hlo : y ≤ x) (hhi : x + bs.length ≤ y + n) :
    WroteIn s (s.writeDie 0 x bs) (dieLocal 0 y) n := by
  refine ⟨s.writePhys_phys_only bs _, fun a h => ?_⟩
  rw [State.writeDie, State.byteAt_writePhys, if_neg]
  simp only [dieLocal] at h ⊢
  omega

end WroteIn

/-! ### The command record (R234, R329) -/

section Command
variable (s : State) (r : Bytes) (base mode : Nat) (c : Int)

/-- The command value alone written into the record at `base`. -/
def State.writeOutput : State := s.writeDie 0 (base + 4 + 4 * fieldAt r 0x2A 1) (leBytes 4 (ofSigned 32 c))

/-- The head and the gains of the record at `base` written. -/
def State.writeHead : State :=
  (s.writeDie 0 base [BitVec.ofNat 8 (fieldAt r 0x2B 1), BitVec.ofNat 8 (if mode = 0 then 0 else fieldAt r 0x3B 1), 0, 0]).writeDie 0
    (base + 0xC) (slice r 0x42 2 ++ [0, 0])

/-- A field of the record at `base` is zero where no slot writes it. -/
def State.zeroField (f : Nat) : State :=
  if s.fieldWritten (fieldAt r 0x28 1) (fieldAt r 0x29 1) f then s else s.writeDie 0 (base + 4 + 4 * f) [0, 0, 0, 0]

theorem State.writeCommand_eq :
    s.writeCommand r mode c =
      if bit (fieldAt r 3 1) 0 then
        (((s.writeOutput r (slotRecord s r) c).writeHead r (slotRecord s r) mode).zeroField r (slotRecord s r) 0).zeroField r
          (slotRecord s r) 1
      else s.writeOutput r (slotRecord s r) c := rfl

/-- The value that a slot writes into the record at `base`, beside which it writes in the record alone. -/
structure CommandWritten (s t : State) (r : Bytes) (base n : Nat) (c : Int) : Prop where
  wrote : WroteIn s t (dieLocal 0 base) n
  output : r ∈ s.recs 0xB → fieldAt r 0x2A 1 < 2 → t.readDie 0 (base + 4 + 4 * fieldAt r 0x2A 1) 4 = leBytes 4 (ofSigned 32 c)

variable {s r base mode c}

theorem State.writeOutput_written {n : Nat} (hn : 8 + 4 * fieldAt r 0x2A 1 ≤ n) : CommandWritten s (s.writeOutput r base c) r base n c := by
  have hlen := length_leBytes 4 (ofSigned 32 c)
  refine ⟨.writeDie s (by omega) (by omega), fun _ _ => ?_⟩
  have h := s.readDie_writeDie_same 0 (base + 4 + 4 * fieldAt r 0x2A 1) (leBytes 4 (ofSigned 32 c))
  rwa [hlen] at h

theorem CommandWritten.step {t u : State} {n : Nat} (h : CommandWritten s t r base n c) (hwrote : WroteIn t u (dieLocal 0 base) n)
    (hread : r ∈ t.recs 0xB → fieldAt r 0x2A 1 < 2 →
      u.readDie 0 (base + 4 + 4 * fieldAt r 0x2A 1) 4 = t.readDie 0 (base + 4 + 4 * fieldAt r 0x2A 1) 4) :
    CommandWritten s u r base n c := by
  refine ⟨h.wrote.trans hwrote, fun hr hf => ?_⟩
  have hrt : r ∈ t.recs 0xB := by
    rw [h.wrote.only]
    exact hr
  exact (hread hrt hf).trans (h.output hr hf)

theorem CommandWritten.writeHead {t : State} {n : Nat} (h : CommandWritten s t r base n c) (hn : 16 ≤ n) :
    CommandWritten s (t.writeHead r base mode) r base n c := by
  have hlen : (slice r 0x42 2 ++ [0, 0] : Bytes).length = 4 := by
    rw [List.length_append, length_slice]
    rfl
  refine h.step (.trans (.writeDie _ (by omega) (by simpa using by omega)) (.writeDie _ (by omega) (by omega))) fun _ hf => ?_
  rw [State.writeHead, State.readDie_writeDie_ne _ _ (.inl (by omega)), State.readDie_writeDie_ne _ _ (.inr (by simp))]

theorem CommandWritten.zeroField {t : State} {n f : Nat} (h : CommandWritten s t r base n c) (hn : 16 ≤ n) (hf : f < 2) :
    CommandWritten s (t.zeroField r base f) r base n c := by
  unfold State.zeroField
  split
  · exact h
  next hfree =>
    refine h.step (.writeDie _ (by omega) (by simpa using by omega)) fun hr hown => ?_
    have hne : fieldAt r 0x2A 1 ≠ f := by
      rintro rfl
      exact hfree (List.any_eq_true.mpr ⟨r, hr, by simp⟩)
    exact State.readDie_writeDie_ne _ _ (by simpa using by omega)

theorem State.writeCommand_written {n : Nat} (hn : 8 + 4 * fieldAt r 0x2A 1 ≤ n) (hn' : 16 ≤ n) :
    CommandWritten s (s.writeCommand r mode c) r (slotRecord s r) n c := by
  rw [State.writeCommand_eq]
  have hout := s.writeOutput_written (base := slotRecord s r) (c := c) hn
  split
  · exact ((hout.writeHead hn').zeroField hn' (by omega)).zeroField hn' (by omega)
  · exact hout

theorem State.writeCommand_only : s.writeCommand r mode c = { s with phys := (s.writeCommand r mode c).phys } :=
  (State.writeCommand_written (n := 16 + 4 * fieldAt r 0x2A 1) (by omega) (by omega)).wrote.only

end Command

/-! ### One evaluation (R324 to R332, R334) -/

section Eval
variable (s : State) (r : Bytes) (j : Nat) (held left mismatch : Bool)

/-- A control block that R323 takes. -/
def controlGood (blk : Bytes) : Bool := decide (fieldAt blk 0 1 ≤ 2) && allZero (slice blk 1 1) && allZero (slice blk 4 12)

/-- The control block of a slot. -/
def State.controlBlock : Bytes := s.readDie 0 (fieldAt r 0x2C 4) 16

/-- The mode of an evaluation, and whether the slot waits on for OFF. -/
def State.slotMode : Nat × Bool :=
  evalModeOf (s.loopSlot (loopNumber r)) held left (controlGood (s.controlBlock r)) (fieldAt (s.controlBlock r) 0 1)

/-- What the law of an evaluation yields. -/
def State.slotLaw : LoopEval :=
  evalMode r { s.loopSlot (loopNumber r) with rearm := (s.slotMode r held left).2 } (s.slotMode r held left).1
    (sfieldAt (s.controlBlock r) 2 2) (s.loopSource (slice r 0x10 8)) (s.loopSource (slice r 0x18 8)) (s.loopSource (slice r 0x20 8))

def State.feedbackStale : Bool := (loopFeedback r).any (fun i => !s.flag (Fld.JBUS_STREAM_served i))

def State.feedbackFault : Bool := (loopFeedback r).any (fun i => s.flag (Fld.JBUS_STREAM_fault i))

/-- A following error that has lasted (R332). -/
def State.followingFault : Bool :=
  (s.slotMode r held left).1 == 2 && decide (faultCount r ≤ (s.slotLaw r held left).slot.timer)

/-- The slot as an evaluation leaves it. -/
def State.slotAfter : LoopSlot :=
  { (s.slotLaw r held left).slot with
    mode := if s.feedbackFault r || s.followingFault r held left then 3 else (s.slotMode r held left).1
    c := slotCommand r (s.slotLaw r held left).slot.u
    feCause := s.followingFault r held left && !s.feedbackFault r
    done := if mismatch then (s.loopSlot (loopNumber r)).done else some j }

/-- The status block written where the record names one (R323). -/
def State.writeStatus (s : State) (r bs : Bytes) : State := if fieldAt r 0x30 4 = 0 then s else s.writeDie 0 (fieldAt r 0x30 4) bs

/-- The slot, its command record and its status block as an evaluation leaves them. -/
def State.slotWritten : State :=
  ((s.setLoopSlot (loopNumber r) (s.slotAfter r j held left mismatch)).writeCommand r (s.slotMode r held left).1
    (slotCommand r (s.slotLaw r held left).slot.u)).writeStatus r
    (statusBlock j { s.slotLaw r held left with slot := s.slotAfter r j held left mismatch } (s.feedbackStale r)
      (slotCommand r (s.slotLaw r held left).slot.u))

/-- The events that an evaluation counts before its faults. -/
def State.evalEvents (s : State) (sats : Nat) (limited stale bump bad : Bool) : State :=
  ((((s.eventTimes Ev.LOOP_EVT_STATUS_sat sats).eventIf limited Ev.LOOP_EVT_STATUS_limit).eventIf stale
    Ev.LOOP_EVT_STATUS_stale_in).eventIf bump Ev.LOOP_EVT_STATUS_bump).eventIf bad Ev.LOOP_EVT_STATUS_ctrl_err

/-- The faults of an evaluation (R334). -/
def State.evalFaults (s : State) (n g : Nat) (fb fe mismatch : Bool) : State :=
  let s5 := if fb then (s.event Ev.LOOP_EVT_STATUS_fb_fault).loopFault n g 0x0702 0x03
    else if fe then (s.event Ev.LOOP_EVT_STATUS_fe_fault).loopFault n g 0x0701 0x03 else s
  if mismatch then (s5.event Ev.LOOP_EVT_STATUS_lockstep).loopFault n g 0x0703 0x02 else s5

theorem State.evalSlot_eq : ∃ sats,
    s.evalSlot r j held left mismatch =
      ((s.slotWritten r j held left mismatch).evalEvents sats (s.slotLaw r held left).limited (s.feedbackStale r)
        (s.slotLaw r held left).bump (!controlGood (s.controlBlock r))).evalFaults (loopNumber r) (fieldAt r 0xF 1) (s.feedbackFault r)
        (s.followingFault r held left) mismatch := ⟨_, rfl⟩

end Eval

/-! ### Events and faults of an evaluation -/

/-- The registers that an evaluation's events move. -/
def evalEventRegs : List Nat := Ev.LOOP_EVT_STATUS_sat.regs ++ Ev.LOOP_EVT_STATUS_limit.regs ++ Ev.LOOP_EVT_STATUS_stale_in.regs ++
  Ev.LOOP_EVT_STATUS_bump.regs ++ Ev.LOOP_EVT_STATUS_ctrl_err.regs

theorem RegsMoved.eventTimes (s : State) (e : Evt) (n : Nat) : RegsMoved s (s.eventTimes e n) e.regs := by
  induction n generalizing s with
  | zero => exact .refl s _
  | succ n ih => exact (RegsMoved.event s e).trans (ih _)

theorem State.evalEvents_moved (s : State) (sats : Nat) (limited stale bump bad : Bool) :
    RegsMoved s (s.evalEvents sats limited stale bump bad) evalEventRegs :=
  ((((RegsMoved.eventTimes s _ _).append (.eventIf _ _ _)).append (.eventIf _ _ _)).append (.eventIf _ _ _)).append (.eventIf _ _ _)

/-- The second state is the first but for registers of the loop engines other than the count of evaluations, and reports to Crust. -/
structure LoopNoted (s t : State) : Prop where
  only : t = { s with regs := t.regs, crust := t.crust }
  blocks : BlocksKept s t [0x2B]
  evals : t.reg64 Reg.LOOP_EVALS = s.reg64 Reg.LOOP_EVALS

namespace LoopNoted
variable {s t u : State}

theorem refl (s : State) : LoopNoted s s := ⟨rfl, fun _ _ => rfl, rfl⟩

theorem trans (hst : LoopNoted s t) (htu : LoopNoted t u) : LoopNoted s u :=
  ⟨htu.only.trans (congrArg (fun a : State => { a with regs := u.regs, crust := u.crust }) hst.only),
    fun a ha => (htu.blocks a ha).trans (hst.blocks a ha), htu.evals.trans hst.evals⟩

theorem of_moved {l : List Nat} (h : RegsMoved s t l) (hl : ∀ a ∈ l, a / 65536 ∈ [0x2B]) (hlo : Reg.LOOP_EVALS ∉ l)
    (hhi : Reg.LOOP_EVALS + 4 ∉ l) : LoopNoted s t :=
  ⟨h.only.trans (congrArg (fun c => { s with regs := t.regs, crust := c }) h.crust.symm), h.kept.blocksKept hl, h.reg64 hlo hhi⟩

theorem report (s : State) (e x : Nat) : LoopNoted s (s.report e x) := ⟨rfl, fun _ _ => rfl, rfl⟩

theorem fault (s : State) (e : Evt) (n g code event : Nat) (hl : ∀ a ∈ e.regs ++ [Reg.LOOP_FAULT_LAST], a / 65536 ∈ [0x2B])
    (hlo : Reg.LOOP_EVALS ∉ e.regs ++ [Reg.LOOP_FAULT_LAST]) (hhi : Reg.LOOP_EVALS + 4 ∉ e.regs ++ [Reg.LOOP_FAULT_LAST]) :
    LoopNoted s ((s.event e).loopFault n g code event) :=
  (of_moved ((RegsMoved.event s e).append (.setReg _ _ (l := [Reg.LOOP_FAULT_LAST]) (by simp))) hl hlo hhi).trans (.report _ _ _)

end LoopNoted

theorem State.evalEvents_noted (s : State) (sats : Nat) (limited stale bump bad : Bool) :
    LoopNoted s (s.evalEvents sats limited stale bump bad) :=
  .of_moved (s.evalEvents_moved sats limited stale bump bad) (by decide) (by decide) (by decide)

theorem State.evalFaults_noted (s : State) (n g : Nat) (fb fe mismatch : Bool) : LoopNoted s (s.evalFaults n g fb fe mismatch) := by
  have hlaw : LoopNoted s (if fb then (s.event Ev.LOOP_EVT_STATUS_fb_fault).loopFault n g 0x0702 0x03
      else if fe then (s.event Ev.LOOP_EVT_STATUS_fe_fault).loopFault n g 0x0701 0x03 else s) := by
    split
    · exact .fault s _ _ _ _ _ (by decide) (by decide) (by decide)
    · split
      · exact .fault s _ _ _ _ _ (by decide) (by decide) (by decide)
      · exact .refl s
  unfold State.evalFaults
  dsimp only
  split
  · exact hlaw.trans (.fault _ _ _ _ _ _ (by decide) (by decide) (by decide))
  · exact hlaw

theorem State.evalFaults_of_none (s : State) (n g : Nat) : s.evalFaults n g false false false = s := rfl

theorem State.reg_loopFault_ne (s : State) (n g code event : Nat) {a : Nat} (ha : a ≠ Reg.LOOP_FAULT_LAST) :
    (s.loopFault n g code event).reg a = s.reg a := s.reg_setReg_ne _ ha

theorem State.reports_loopFault (s : State) (n g code event : Nat) :
    (s.loopFault n g code event).crust.reports = s.crust.reports ++ [(event, n)] := rfl

theorem State.crust_event (s : State) (e : Evt) : (s.event e).crust = s.crust := rfl

theorem State.evalFaults_of_feedback (s : State) (n g : Nat) (fe : Bool) :
    s.evalFaults n g true fe false = (s.event Ev.LOOP_EVT_STATUS_fb_fault).loopFault n g 0x0702 0x03 := by
  simp [State.evalFaults]

/-- A feedback fault is counted and reported. -/
theorem State.evalFaults_feedback (s : State) (n g : Nat) (fe : Bool) :
    Counted s (s.evalFaults n g true fe false) Ev.LOOP_EVT_STATUS_fb_fault ∧
      (s.evalFaults n g true fe false).crust.reports = s.crust.reports ++ [(0x03, n)] := by
  rw [s.evalFaults_of_feedback, Counted, State.reg_loopFault_ne _ _ _ _ _ (by decide), State.reg_loopFault_ne _ _ _ _ _ (by decide),
    State.reports_loopFault, State.crust_event]
  exact ⟨counted_event s (by decide) (by decide), rfl⟩

/-! ### What an evaluation and a pass change -/

theorem State.reg64_mod (s : State) (a : Nat) : s.reg64 a % 2 ^ 64 = s.reg64 a := Nat.mod_eq_of_lt (s.reg64_lt a)

/-- The second state is the first but for the slots listed, registers of the loop engines, memory and Crust's own state; `k` evaluations
have been counted. -/
structure LoopFrame (s t : State) (slots : List Nat) (k : Nat) : Prop where
  only : t = { s with loops := t.loops, regs := t.regs, phys := t.phys, crust := t.crust }
  next : t.loops.next = s.loops.next
  slot (m : Nat) (h : m ∉ slots) : t.loopSlot m = s.loopSlot m
  blocks : BlocksKept s t [0x2B]
  evals : t.reg64 Reg.LOOP_EVALS = (s.reg64 Reg.LOOP_EVALS + k) % 2 ^ 64

namespace LoopFrame
variable {s t u : State} {l l' : List Nat} {k k' : Nat}

theorem refl (s : State) (l : List Nat) : LoopFrame s s l 0 := ⟨rfl, rfl, fun _ _ => rfl, fun _ _ => rfl, (s.reg64_mod _).symm⟩

theorem mono (h : LoopFrame s t l k) (hl : l ⊆ l') : LoopFrame s t l' k :=
  ⟨h.only, h.next, fun m hm => h.slot m fun hml => hm (hl hml), h.blocks, h.evals⟩

theorem trans (hst : LoopFrame s t l k) (htu : LoopFrame t u l' k') : LoopFrame s u (l ++ l') (k + k') := by
  refine ⟨?_, htu.next.trans hst.next, fun m hm => ?_, fun a ha => (htu.blocks a ha).trans (hst.blocks a ha), ?_⟩
  · exact htu.only.trans (congrArg (fun a : State => { a with loops := u.loops, regs := u.regs, phys := u.phys, crust := u.crust }) hst.only)
  · rw [List.mem_append, not_or] at hm
    exact (htu.slot m hm.2).trans (hst.slot m hm.1)
  · rw [htu.evals, hst.evals]
    omega

/-- Two changes of the same slots. -/
theorem trans' (hst : LoopFrame s t l k) (htu : LoopFrame t u l k') : LoopFrame s u l (k + k') := (hst.trans htu).mono (by simp)

theorem of_noted (h : LoopNoted s t) (l : List Nat) : LoopFrame s t l 0 := by
  have hloops : t.loops = s.loops := (congrArg State.loops h.only :)
  refine ⟨?_, by rw [hloops], fun m _ => by rw [State.loopSlot, State.loopSlot, hloops], h.blocks, h.evals.trans (s.reg64_mod _).symm⟩
  rw [h.only]

theorem of_phys (h : t = { s with phys := t.phys }) (l : List Nat) : LoopFrame s t l 0 := by
  have hloops : t.loops = s.loops := (congrArg State.loops h :)
  have hregs : t.regs = s.regs := (congrArg State.regs h :)
  have hreg (a : Nat) : t.reg a = s.reg a := State.reg_congr hregs a
  refine ⟨?_, by rw [hloops], fun m _ => by rw [State.loopSlot, State.loopSlot, hloops], fun a _ => hreg a, ?_⟩
  · rw [h]
  · rw [State.reg64, State.reg64, hreg, hreg]
    exact (s.reg64_mod Reg.LOOP_EVALS).symm

theorem setLoopSlot (s : State) {n : Nat} (hn : n < 512) (x : LoopSlot) : LoopFrame s (s.setLoopSlot n x) [n] 0 := by
  have hkept : RegsKept s (s.setLoopSlot n x) [Reg.LOOP_SLOT n] := regsKept_setReg _ _ (by simp)
  refine ⟨rfl, rfl, fun m hm => ?_, hkept.blocksKept ?_, ?_⟩
  · rw [State.loopSlot_setLoopSlot, if_neg (by simpa using hm)]
  · simp only [List.mem_singleton, forall_eq, Reg.LOOP_SLOT]
    omega
  · have hapart (a : Nat) (ha : a < Reg.LOOP_SLOT 0) : a ∉ [Reg.LOOP_SLOT n] := by
      simp only [List.mem_singleton, Reg.LOOP_SLOT] at ha ⊢
      omega
    rw [Nat.add_zero, State.reg64_mod, State.reg64, State.reg64, hkept.reg (hapart _ (by decide)), hkept.reg (hapart _ (by decide))]

end LoopFrame

section Slot
variable (s : State) (r : Bytes) (j : Nat) (held left mismatch : Bool)

theorem State.writeStatus_only (bs : Bytes) : s.writeStatus r bs = { s with phys := (s.writeStatus r bs).phys } := by
  unfold State.writeStatus
  split
  · rfl
  · exact s.writePhys_phys_only bs _

variable {r} in
theorem State.slotWritten_frame (hn : loopNumber r < 512) : LoopFrame s (s.slotWritten r j held left mismatch) [loopNumber r] 0 :=
  ((LoopFrame.setLoopSlot s hn _).trans' (.of_phys State.writeCommand_only _)).trans' (.of_phys (State.writeStatus_only _ r _) _)

theorem State.loopSlot_slotWritten :
    (s.slotWritten r j held left mismatch).loopSlot (loopNumber r) = s.slotAfter r j held left mismatch := by
  unfold State.slotWritten
  rw [(LoopFrame.of_phys (State.writeStatus_only _ r _) []).slot _ (by simp), (LoopFrame.of_phys State.writeCommand_only []).slot _ (by simp),
    State.loopSlot_setLoopSlot, if_pos rfl]

variable {r} in
theorem State.evalSlot_frame (hn : loopNumber r < 512) : LoopFrame s (s.evalSlot r j held left mismatch) [loopNumber r] 0 := by
  obtain ⟨sats, h⟩ := s.evalSlot_eq r j held left mismatch
  rw [h]
  exact ((s.slotWritten_frame j held left mismatch hn).trans' (.of_noted (State.evalEvents_noted ..) _)).trans'
    (.of_noted (State.evalFaults_noted ..) _)

theorem State.loopSlot_evalSlot :
    (s.evalSlot r j held left mismatch).loopSlot (loopNumber r) = s.slotAfter r j held left mismatch := by
  obtain ⟨sats, h⟩ := s.evalSlot_eq r j held left mismatch
  rw [h, (LoopFrame.of_noted (State.evalFaults_noted ..) []).slot _ (by simp), (LoopFrame.of_noted (State.evalEvents_noted ..) []).slot _ (by simp),
    State.loopSlot_slotWritten]

theorem State.phys_evalSlot : (s.evalSlot r j held left mismatch).phys = (s.slotWritten r j held left mismatch).phys := by
  obtain ⟨sats, h⟩ := s.evalSlot_eq r j held left mismatch
  rw [h]
  have hphys {a b : State} (hab : LoopNoted a b) : b.phys = a.phys := (congrArg State.phys hab.only :)
  exact (hphys (State.evalFaults_noted ..)).trans (hphys (State.evalEvents_noted ..))

theorem State.crust_slotWritten : (s.slotWritten r j held left mismatch).crust = s.crust := by
  unfold State.slotWritten
  rw [State.writeStatus_only, State.writeCommand_only]
  rfl

variable {r} in
theorem State.loopClear_frame (hn : loopNumber r < 512) (g : Nat) : LoopFrame s (s.loopClear (loopNumber r) g) [loopNumber r] 0 := by
  have hclear : LoopFrame s (s.setFld Fld.LOOP_CLR_clear 0) [loopNumber r] 0 :=
    .of_noted (.of_moved (.setFld s 0 (by decide) (l := [Reg.LOOP_CLR]) (by simp)) (by decide) (by decide) (by decide)) _
  unfold State.loopClear
  dsimp only
  split
  · split
    · split
      · exact hclear.trans' (.setLoopSlot _ hn _)
      · exact hclear
    · exact hclear.trans' (.of_noted (.of_moved (.event _ _) (by decide) (by decide) (by decide)) _)
  · exact .refl s _

/-- A pending clear touches a slot in FAULT alone. -/
theorem State.loopSlot_loopClear {n : Nat} (g : Nat) (h : (s.loopSlot n).mode ≠ 3) : (s.loopClear n g).loopSlot n = s.loopSlot n := by
  unfold State.loopClear
  dsimp only
  have hclear : (s.setFld Fld.LOOP_CLR_clear 0).loopSlot n = s.loopSlot n := rfl
  split
  · split
    · rw [if_neg (hclear ▸ h)]
      exact hclear
    · rfl
  · rfl

theorem State.loopClear_of_none {n : Nat} (g : Nat) (h : s.flag Fld.LOOP_CLR_clear = false) : s.loopClear n g = s := by
  rw [State.loopClear, h]
  rfl

end Slot

/-! ### A slot's turn in a pass (R320) -/

section Turn
variable {s : State} {r : Bytes} {j t : Nat} {bad : List Nat}

theorem State.passSlot_of_idle (h : evaluates s r = false) : s.passSlot r j t bad = s := by
  rw [evaluates, Bool.or_eq_false_iff, beq_eq_false_iff_ne, beq_eq_false_iff_ne] at h
  rw [State.passSlot, if_pos h]

theorem State.passSlot_of_evaluates (h : evaluates s r = true) :
    s.passSlot r j t bad =
      (if ((s.loopClear (loopNumber r) (fieldAt r 0xF 1)).loopSlot (loopNumber r)).mode = 3 then
        s.loopClear (loopNumber r) (fieldAt r 0xF 1)
      else (s.loopClear (loopNumber r) (fieldAt r 0xF 1)).evalSlot r j (s.groupHeld (fieldAt r 0xF 1) t)
        ((s.loopSlot (loopNumber r)).mode == 3 && ((s.loopClear (loopNumber r) (fieldAt r 0xF 1)).loopSlot (loopNumber r)).mode == 0)
        (bad.contains (loopNumber r))).count64 Reg.LOOP_EVALS 1 := by
  rw [State.passSlot, if_neg]
  rw [evaluates, Bool.or_eq_true, beq_iff_eq, beq_iff_eq] at h
  tauto

theorem LoopFrame.count (s : State) (l : List Nat) : LoopFrame s (s.count64 Reg.LOOP_EVALS 1) l 1 :=
  ⟨rfl, rfl, fun _ _ => rfl, (regsKept_setReg64 (l := [Reg.LOOP_EVALS, Reg.LOOP_EVALS + 4]) s _ (by simp) (by simp)).blocksKept (by decide),
    s.reg64_count64 Reg.LOOP_EVALS 1⟩

theorem State.passSlot_frame (h : evaluates s r = true) (hn : loopNumber r < 512) :
    LoopFrame s (s.passSlot r j t bad) [loopNumber r] 1 := by
  rw [State.passSlot_of_evaluates h]
  refine LoopFrame.trans' (k := 0) ?_ (.count _ _)
  have hclear := s.loopClear_frame hn (fieldAt r 0xF 1)
  split
  · exact hclear
  · exact hclear.trans' (State.evalSlot_frame _ j _ _ _ hn)

/-- A slot that is not in FAULT is evaluated. -/
theorem State.passSlot_of_run (h : evaluates s r = true) (hmode : (s.loopSlot (loopNumber r)).mode ≠ 3) :
    s.passSlot r j t bad = ((s.loopClear (loopNumber r) (fieldAt r 0xF 1)).evalSlot r j (s.groupHeld (fieldAt r 0xF 1) t) false
      (bad.contains (loopNumber r))).count64 Reg.LOOP_EVALS 1 := by
  rw [State.passSlot_of_evaluates h, s.loopSlot_loopClear _ hmode, if_neg hmode, beq_eq_false_iff_ne.mpr hmode]
  rfl

theorem State.loopSlot_count64 (s : State) (a k n : Nat) : (s.count64 a k).loopSlot n = s.loopSlot n := rfl

theorem State.done_passSlot (h : evaluates s r = true) (hmode : (s.loopSlot (loopNumber r)).mode ≠ 3) (hbad : loopNumber r ∉ bad) :
    ((s.passSlot r j t bad).loopSlot (loopNumber r)).done = some j := by
  rw [State.passSlot_of_run h hmode, State.loopSlot_count64, State.loopSlot_evalSlot, State.slotAfter]
  exact if_neg (by simpa using hbad)

end Turn

/-! ### A pass (R320) -/

theorem evaluates_of_frame {s t : State} {l : List Nat} {k : Nat} (h : LoopFrame s t l k) (r : Bytes) : evaluates t r = evaluates s r := by
  rw [h.only]
  rfl

/-- The turns of some records change those slots alone that evaluate, and count them. -/
theorem passSlots_frame {rs : List Bytes} (hn : ∀ r ∈ rs, loopNumber r < 512) (j t : Nat) (bad : List Nat) (s : State) :
    LoopFrame s (rs.foldl (fun (a : State) r => a.passSlot r j t bad) s) ((rs.filter (evaluates s)).map loopNumber)
      (rs.filter (evaluates s)).length := by
  induction rs generalizing s with
  | nil => exact .refl s _
  | cons r rs ih =>
    have ih' := ih (fun x hx => hn x (List.mem_cons_of_mem _ hx)) (s.passSlot r j t bad)
    rw [List.foldl_cons, List.filter_cons]
    by_cases h : evaluates s r = true
    · have hr := State.passSlot_frame (j := j) (t := t) (bad := bad) h (hn r List.mem_cons_self)
      rw [funext (evaluates_of_frame hr)] at ih'
      rw [if_pos h, List.map_cons, List.length_cons, Nat.add_comm]
      exact hr.trans ih'
    · rw [State.passSlot_of_idle (by simpa using h)] at ih' ⊢
      rwa [if_neg h]

theorem done_passSlots {rs : List Bytes} (hn : ∀ r ∈ rs, loopNumber r < 512) (hdistinct : rs.Pairwise fun a b => loopNumber a ≠ loopNumber b)
    {j t : Nat} {bad : List Nat} {s : State} {r : Bytes} (hr : r ∈ rs) (h : evaluates s r = true)
    (hmode : (s.loopSlot (loopNumber r)).mode ≠ 3) (hbad : loopNumber r ∉ bad) :
    ((rs.foldl (fun (a : State) x => a.passSlot x j t bad) s).loopSlot (loopNumber r)).done = some j := by
  induction rs generalizing s with
  | nil => cases hr
  | cons x xs ih =>
    obtain ⟨hfirst, hrest⟩ := List.pairwise_cons.mp hdistinct
    have hn' : ∀ y ∈ xs, loopNumber y < 512 := fun y hy => hn y (List.mem_cons_of_mem _ hy)
    rw [List.foldl_cons]
    rcases List.mem_cons.mp hr with rfl | hr
    · rw [(passSlots_frame hn' j t bad _).slot, State.done_passSlot h hmode hbad]
      simp only [List.mem_map, List.mem_filter, not_exists, not_and, and_imp]
      exact fun y hy _ heq => hfirst y hy heq.symm
    · have hx : LoopFrame s (s.passSlot x j t bad) [loopNumber x] (if evaluates s x then 1 else 0) := by
        split
        next hev => exact State.passSlot_frame hev (hn x List.mem_cons_self)
        next hev =>
          rw [State.passSlot_of_idle (by simpa using hev)]
          exact .refl s _
      refine ih hn' hrest hr ((evaluates_of_frame hx r).trans h) ?_
      rwa [hx.slot _ (by simpa using (hfirst r hr).symm)]

/-- The records of an engine are records of the layout, each of a slot of its own. -/
theorem State.engineLoops_spec (s : State) {e : Nat} (he : e < 4) :
    (∀ r ∈ s.engineLoops e, r ∈ s.recs 0xB ∧ loopNumber r < 512) ∧
      (s.engineLoops e).Pairwise fun a b => loopNumber a ≠ loopNumber b := by
  have hrec {n : Nat} {r : Bytes} (h : s.loopRec n = some r) : r ∈ s.recs 0xB ∧ loopNumber r = n :=
    ⟨List.mem_of_find?_eq_some h, by simpa using List.find?_some h⟩
  constructor
  · intro r hr
    obtain ⟨k, hk, hfind⟩ := List.mem_filterMap.mp hr
    have hlt := List.mem_range.mp hk
    exact ⟨(hrec hfind).1, by rw [(hrec hfind).2]; omega⟩
  · rw [State.engineLoops, List.pairwise_filterMap]
    refine List.Pairwise.imp (fun hlt => ?_) List.pairwise_lt_range
    intro a ha b hb
    rw [(hrec ha).2, (hrec hb).2]
    omega

/-- The engine's next pass instant noted. -/
def State.passDone (s : State) (e j : Nat) : State :=
  { s with loops := { s.loops with next := Sparse.put (fun _ => 0) s.loops.next e (j + 1) } }

/-- A pass whose instant has come, while no group is held. -/
theorem exec_loopPass {e j at' : Nat} {bad : List Nat} {r : Bytes} {rs : List Bytes} {s : State} (hloops : s.engineLoops e = r :: rs)
    (hj : j = Sparse.get (fun _ => 0) s.loops.next e) (hat : at' = fieldAt r 8 4 + j * fieldAt r 4 4) (hnow : at' ≤ s.now)
    (hopen : s.blkOpen 0 0x2B = true) (hfree : ∀ g t, s.groupHeld g t = false) :
    exec (.loopPass e bad) s = .next ((((r :: rs).filter (fun x => j % max (fieldAt x 0xC 1) 1 == 0)).foldl
      (fun a x => a.passSlot x j at' bad) s).passDone e j) := by
  subst hj hat
  have hhold (g t : Nat) : s.holdSlots g t = s := by
    rw [State.holdSlots_eq, hfree, if_neg nofun]
  change execLoopPass e bad s = _
  rw [execLoopPass, hloops]
  dsimp only
  rw [if_neg (by simp [hopen]; omega)]
  simp only [show List.range 4 = [0, 1, 2, 3] from rfl, List.foldl_cons, List.foldl_nil, hhold]
  rfl

section Done
variable (s : State) (e j : Nat)

theorem State.next_passDone_same : Sparse.get (fun _ => 0) (s.passDone e j).loops.next e = j + 1 := by
  simp only [State.passDone, Sparse.get_put_same]

theorem State.next_passDone_ne {x : Nat} (h : x ≠ e) :
    Sparse.get (fun _ => 0) (s.passDone e j).loops.next x = Sparse.get (fun _ => 0) s.loops.next x := by
  simp only [State.passDone]
  exact Sparse.get_put_ne h

theorem State.loopSlot_passDone (n : Nat) : (s.passDone e j).loopSlot n = s.loopSlot n := rfl

theorem State.reg64_passDone (a : Nat) : (s.passDone e j).reg64 a = s.reg64 a := rfl

end Done

/-! ### A pass of an engine with one due slot -/

section One
variable {e j : Nat} {bad : List Nat} {r : Bytes} {s : State}

/-- The pass of an engine whose only slot is due. -/
theorem exec_loopPass_one (hloops : s.engineLoops e = [r]) (hj : j = Sparse.get (fun _ => 0) s.loops.next e)
    (hnow : fieldAt r 8 4 + j * fieldAt r 4 4 ≤ s.now) (hopen : s.blkOpen 0 0x2B = true) (hfree : ∀ g t, s.groupHeld g t = false)
    (hdue : j % max (fieldAt r 0xC 1) 1 = 0) :
    exec (.loopPass e bad) s = .next ((s.passSlot r j (fieldAt r 8 4 + j * fieldAt r 4 4) bad).passDone e j) := by
  rw [exec_loopPass hloops hj rfl hnow hopen hfree, List.filter_cons, if_pos (by simpa using hdue)]
  rfl

theorem loopNumber_of_engineLoops (he : e < 4) (hloops : s.engineLoops e = [r]) : r ∈ s.recs 0xB ∧ loopNumber r < 512 :=
  (s.engineLoops_spec he).1 r (by simp [hloops])

theorem evaluates_of_resident (h : (s.ctx (fieldAt r 0 1)).phase = .resident) : evaluates s r = true := by
  rw [evaluates, h]
  rfl

/-- A slot in FAULT that no clear names stays there, and is counted. -/
theorem State.passSlot_of_fault {t : Nat} (h : evaluates s r = true) (hclear : s.flag Fld.LOOP_CLR_clear = false)
    (hmode : (s.loopSlot (loopNumber r)).mode = 3) : s.passSlot r j t bad = s.count64 Reg.LOOP_EVALS 1 := by
  rw [State.passSlot_of_evaluates h, s.loopClear_of_none _ hclear, if_pos hmode]

theorem loopPass_keepsFault (hloops : s.engineLoops e = [r]) (hj : j = Sparse.get (fun _ => 0) s.loops.next e)
    (hnow : fieldAt r 8 4 + j * fieldAt r 4 4 ≤ s.now) (hopen : s.blkOpen 0 0x2B = true) (hfree : ∀ g t, s.groupHeld g t = false)
    (hdue : j % max (fieldAt r 0xC 1) 1 = 0) (hphase : (s.ctx (fieldAt r 0 1)).phase = .resident)
    (hclear : s.flag Fld.LOOP_CLR_clear = false) (hmode : (s.loopSlot (loopNumber r)).mode = 3) :
    ∃ t, exec (.loopPass e []) s = .next t ∧ t.loopSlot (loopNumber r) = s.loopSlot (loopNumber r) ∧
      Sparse.get (fun _ => 0) t.loops.next e = j + 1 ∧
      (∀ x, x ≠ e → Sparse.get (fun _ => 0) t.loops.next x = Sparse.get (fun _ => 0) s.loops.next x) ∧
      t.reg64 Reg.LOOP_EVALS = (s.reg64 Reg.LOOP_EVALS + 1) % 2 ^ 64 ∧ t.phys = s.phys ∧ t = { s with loops := t.loops, regs := t.regs } ∧
     RegsKept s t [Reg.LOOP_EVALS, Reg.LOOP_EVALS + 4] := by
  refine ⟨_, exec_loopPass_one hloops hj hnow hopen hfree hdue, ?_⟩
  rw [State.passSlot_of_fault (evaluates_of_resident hphase) hclear hmode]
  exact ⟨rfl, State.next_passDone_same .., fun x hx => State.next_passDone_ne _ _ _ hx, s.reg64_count64 _ 1, rfl, rfl,
    regsKept_setReg64 s _ (by simp) (by simp)⟩

/-- A pass of one slot is, beside the engine's next instant, that slot's evaluation and its count. -/
theorem loopPass_evaluates (he : e < 4) (hloops : s.engineLoops e = [r]) (hj : j = Sparse.get (fun _ => 0) s.loops.next e)
    (hnow : fieldAt r 8 4 + j * fieldAt r 4 4 ≤ s.now) (hopen : s.blkOpen 0 0x2B = true) (hfree : ∀ g t, s.groupHeld g t = false)
    (hdue : j % max (fieldAt r 0xC 1) 1 = 0) (hrun : evaluates s r = true) (hclear : s.flag Fld.LOOP_CLR_clear = false)
    (hmode : (s.loopSlot (loopNumber r)).mode ≠ 3) {m : State} (hm : m = s.evalSlot r j false false false) :
    ∃ t, exec (.loopPass e []) s = .next t ∧ t.loopSlot (loopNumber r) = s.slotAfter r j false false false ∧
      Sparse.get (fun _ => 0) t.loops.next e = j + 1 ∧ t.phys = m.phys ∧ t.crust = m.crust ∧
      (∀ k, k ≠ loopNumber r → t.loopSlot k = s.loopSlot k) ∧ t.reg64 Reg.LOOP_EVALS = (s.reg64 Reg.LOOP_EVALS + 1) % 2 ^ 64 ∧
      t = { s with loops := t.loops, regs := t.regs, phys := t.phys, crust := t.crust } ∧
      BlocksKept s t [0x2B] ∧ RegsKept m t [Reg.LOOP_EVALS, Reg.LOOP_EVALS + 4] := by
  obtain ⟨-, hn⟩ := loopNumber_of_engineLoops he hloops
  have hpass : s.passSlot r j (fieldAt r 8 4 + j * fieldAt r 4 4) [] = m.count64 Reg.LOOP_EVALS 1 := by
    rw [State.passSlot_of_run hrun hmode, s.loopClear_of_none _ hclear, hfree, hm]
    rfl
  have hframe := State.passSlot_frame (j := j) (t := fieldAt r 8 4 + j * fieldAt r 4 4) (bad := []) hrun hn
  have hslot : (m.count64 Reg.LOOP_EVALS 1).loopSlot (loopNumber r) = s.slotAfter r j false false false := by
    rw [State.loopSlot_count64, hm, State.loopSlot_evalSlot]
  refine ⟨_, exec_loopPass_one hloops hj hnow hopen hfree hdue, ?_⟩
  rw [hpass] at hframe ⊢
  refine ⟨hslot, State.next_passDone_same .., rfl, rfl, fun k hk => hframe.slot k (by simpa using hk), hframe.evals, ?_, hframe.blocks,
    regsKept_setReg64 m _ (by simp) (by simp)⟩
  exact congrArg (fun a => a.passDone e j) hframe.only

/-- A feedback stream at fault puts the slot into FAULT. -/
theorem State.slotAfter_of_feedback (hfb : s.feedbackFault r = true) (held left mismatch : Bool) :
    (s.slotAfter r j held left mismatch).mode = 3 ∧ (s.slotAfter r j held left mismatch).feCause = false := by
  rw [State.slotAfter, hfb]
  exact ⟨rfl, Bool.and_false _⟩

theorem Counted.of_reg {s t u : State} {e : Evt} (h : Counted s t e) (hs : u.reg e.status = t.reg e.status)
    (hc : u.reg e.counter = t.reg e.counter) : Counted s u e := by
  rw [Counted, hs, hc]
  exact h

theorem State.feedbackFault_iff : s.feedbackFault r = true ↔ ∃ i ∈ loopFeedback r, s.flag (Fld.JBUS_STREAM_fault i) = true :=
  List.any_eq_true

/-- What is counted and reported where a feedback stream is at fault. -/
theorem State.evalSlot_feedback (hn : loopNumber r < 512) (hfb : s.feedbackFault r = true) (held left : Bool) :
    Counted s (s.evalSlot r j held left false) Ev.LOOP_EVT_STATUS_fb_fault ∧
      (s.evalSlot r j held left false).crust.reports = s.crust.reports ++ [(0x03, loopNumber r)] := by
  obtain ⟨sats, h⟩ := s.evalSlot_eq r j held left false
  rw [h, hfb]
  have hevents := State.evalEvents_moved (s.slotWritten r j held left false) sats (s.slotLaw r held left).limited (s.feedbackStale r)
    (s.slotLaw r held left).bump (!controlGood (s.controlBlock r))
  obtain ⟨hcount, hreports⟩ := State.evalFaults_feedback ((s.slotWritten r j held left false).evalEvents sats (s.slotLaw r held left).limited
    (s.feedbackStale r) (s.slotLaw r held left).bump (!controlGood (s.controlBlock r))) (loopNumber r) (fieldAt r 0xF 1)
    (s.followingFault r held left)
  refine ⟨hcount.since ?_, hreports.trans ?_⟩
  · rw [hevents.reg (by decide)]
    unfold State.slotWritten
    rw [State.writeStatus_only, State.writeCommand_only]
    exact State.reg_setReg_ne _ _ (by simp only [Reg.LOOP_SLOT, Ev.LOOP_EVT_STATUS_fb_fault]; omega)
  · rw [hevents.crust, State.crust_slotWritten]

theorem loopPass_feedbackFault (he : e < 4) (hloops : s.engineLoops e = [r]) (hj : j = Sparse.get (fun _ => 0) s.loops.next e)
    (hnow : fieldAt r 8 4 + j * fieldAt r 4 4 ≤ s.now) (hopen : s.blkOpen 0 0x2B = true) (hfree : ∀ g t, s.groupHeld g t = false)
    (hdue : j % max (fieldAt r 0xC 1) 1 = 0) (hrun : evaluates s r = true) (hclear : s.flag Fld.LOOP_CLR_clear = false)
    (hmode : (s.loopSlot (loopNumber r)).mode ≠ 3) (hfb : s.feedbackFault r = true) :
    ∃ t, exec (.loopPass e []) s = .next t ∧ (t.loopSlot (loopNumber r)).mode = 3 ∧ (t.loopSlot (loopNumber r)).feCause = false ∧
      Counted s t Ev.LOOP_EVT_STATUS_fb_fault ∧ t.crust.reports = s.crust.reports ++ [(0x03, loopNumber r)] ∧
      (∀ k, k ≠ loopNumber r → t.loopSlot k = s.loopSlot k) ∧ t.reg64 Reg.LOOP_EVALS = (s.reg64 Reg.LOOP_EVALS + 1) % 2 ^ 64 ∧
      t = { s with loops := t.loops, regs := t.regs, phys := t.phys, crust := t.crust } ∧ BlocksKept s t [0x2B] := by
  obtain ⟨t, hexec, hslot, -, -, hcrust, hothers, hevals, honly, hblocks, hkept⟩ :=
    loopPass_evaluates he hloops hj hnow hopen hfree hdue hrun hclear hmode rfl
  obtain ⟨hcount, hreports⟩ := State.evalSlot_feedback (j := j) (loopNumber_of_engineLoops he hloops).2 hfb false false
  obtain ⟨hfault, hcause⟩ := State.slotAfter_of_feedback (j := j) hfb false false false
  refine ⟨t, hexec, hslot ▸ hfault, hslot ▸ hcause, hcount.of_reg (hkept.reg (by decide)) (hkept.reg (by decide)), ?_, hothers, hevals, honly,
    hblocks⟩
  rw [hcrust, hreports]

end One

/-! ### An evaluation without a fault (R324 to R332) -/

/-- The law of a mode (R330, R331). -/
theorem evalMode_off (r : Bytes) (x : LoopSlot) (u rv yv fv : Int) : (evalMode r x 0 u rv yv fv).slot = x.cleared := rfl

theorem evalMode_manual (r : Bytes) (x : LoopSlot) (u rv yv fv : Int) :
    (evalMode r x 1 u rv yv fv).slot.u = min (max u (sfieldAt r 0x4C 2)) (sfieldAt r 0x4E 2) ∧
      (evalMode r x 1 u rv yv fv).slot.integ = x.integ ∧ (evalMode r x 1 u rv yv fv).slot.timer = 0 := ⟨rfl, rfl, rfl⟩

theorem evalMode_auto (r : Bytes) (x : LoopSlot) (u rv yv fv : Int) : ∃ raw,
    (evalMode r x 2 u rv yv fv).slot.u = min (max raw (sfieldAt r 0x4C 2)) (sfieldAt r 0x4E 2) := ⟨_, rfl⟩

section Run
variable {e j : Nat} {r blk : Bytes} {s : State}

theorem controlGood_of (hm : fieldAt blk 0 1 ≤ 2) (hone : fieldAt blk 1 1 = 0) (hrest : slice blk 4 12 = List.replicate 12 0) :
    controlGood blk = true := by
  have hbyte : slice blk 1 1 = [0] := by
    obtain ⟨b, hb⟩ : ∃ b, slice blk 1 1 = [b] := List.length_eq_one_iff.mp (length_slice blk 1 1)
    rw [fieldAt, hb] at hone
    rw [hb, BitVec.eq_of_toNat_eq (x := b) (y := 0) (by simpa [leNat] using hone)]
  rw [controlGood, hbyte, hrest, decide_eq_true hm]
  rfl

/-- The mode that a good control block asks for. -/
theorem State.slotMode_of_good {m : Nat} (hrearm : (s.loopSlot (loopNumber r)).rearm = false) (hblk : blk = s.controlBlock r)
    (hgood : controlGood blk = true) (hm : m = fieldAt blk 0 1) : s.slotMode r false false = (m, false) := by
  subst hblk hm
  rw [State.slotMode, hgood, evalModeOf, hrearm]
  rfl

theorem State.slotLaw_of_mode {m : Nat} (hmode : s.slotMode r false false = (m, false)) : s.slotLaw r false false = slotEval s r m := by
  rw [State.slotLaw, hmode]
  rfl

/-- The slot after an evaluation without a fault. -/
theorem State.slotAfter_of_none {m : Nat} (hmode : s.slotMode r false false = (m, false)) (hfb : s.feedbackFault r = false)
    (hfe : m = 2 → (slotEval s r m).slot.timer < faultCount r) :
    s.followingFault r false false = false ∧ s.slotAfter r j false false false =
      { (slotEval s r m).slot with mode := m, c := slotCommand r (slotEval s r m).slot.u, feCause := false, done := some j } := by
  have hnone : s.followingFault r false false = false := by
    rw [State.followingFault, State.slotLaw_of_mode hmode, hmode, Bool.and_eq_false_iff, beq_eq_false_iff_ne, decide_eq_false_iff_not, not_le]
    by_cases hm : m = 2
    · exact .inr (hfe hm)
    · exact .inl hm
  refine ⟨hnone, ?_⟩
  rw [State.slotAfter, hnone, hfb, State.slotLaw_of_mode hmode, hmode]
  rfl

/-- What an evaluation writes into memory. -/
theorem State.slotWritten_writes (hr : r ∈ s.recs 0xB) (hfield : fieldAt r 0x2A 1 < 2) {held left mismatch : Bool} {t : State}
    (ht : t = s.slotWritten r j held left mismatch) :
    (fieldAt r 0x30 4 = 0 → t.readDie 0 (slotRecord s r + 4 + 4 * fieldAt r 0x2A 1) 4 =
      leBytes 4 (ofSigned 32 (slotCommand r (s.slotLaw r held left).slot.u))) ∧
    (fieldAt r 0x30 4 ≠ 0 → t.readDie 0 (fieldAt r 0x30 4) 32 =
      statusBlock j { s.slotLaw r held left with slot := s.slotAfter r j held left mismatch } (s.feedbackStale r)
        (slotCommand r (s.slotLaw r held left).slot.u)) ∧
    (∀ a, (a < dieLocal 0 (slotRecord s r) ∨ dieLocal 0 (slotRecord s r) + 16 ≤ a) →
      (fieldAt r 0x30 4 = 0 ∨ a < dieLocal 0 (fieldAt r 0x30 4) ∨ dieLocal 0 (fieldAt r 0x30 4) + 32 ≤ a) → t.byteAt a = s.byteAt a) := by
  obtain ⟨hwrote, hout⟩ := State.writeCommand_written (s := s.setLoopSlot (loopNumber r) (s.slotAfter r j held left mismatch)) (r := r)
    (mode := (s.slotMode r held left).1) (c := slotCommand r (s.slotLaw r held left).slot.u) (n := 16) (by omega) le_rfl
  have hlen : (statusBlock j { s.slotLaw r held left with slot := s.slotAfter r j held left mismatch } (s.feedbackStale r)
      (slotCommand r (s.slotLaw r held left).slot.u)).length = 32 := by
    simp [statusBlock, length_leBytes]
  rw [State.slotWritten, State.writeStatus] at ht
  split at ht
  next hzero =>
    subst ht
    exact ⟨fun _ => hout hr hfield, fun h => absurd hzero h, fun a ha _ => hwrote.bytes a ha⟩
  next hnonzero =>
    refine ⟨fun h => absurd h hnonzero, fun _ => ?_, fun a ha hstatus => ?_⟩
    · have hsame := State.readDie_writeDie_same ((s.setLoopSlot (loopNumber r) (s.slotAfter r j held left mismatch)).writeCommand r
        (s.slotMode r held left).1 (slotCommand r (s.slotLaw r held left).slot.u)) 0 (fieldAt r 0x30 4)
        (statusBlock j { s.slotLaw r held left with slot := s.slotAfter r j held left mismatch } (s.feedbackStale r)
          (slotCommand r (s.slotLaw r held left).slot.u))
      rw [hlen] at hsame
      exact ht ▸ hsame
    · have hstay := (WroteIn.writeDie (x := fieldAt r 0x30 4) (n := 32) ((s.setLoopSlot (loopNumber r)
        (s.slotAfter r j held left mismatch)).writeCommand r (s.slotMode r held left).1 (slotCommand r (s.slotLaw r held left).slot.u)) le_rfl
        (Nat.add_le_add_left hlen.le _)).bytes a (hstatus.resolve_left hnonzero)
      rw [ht, hstay]
      exact hwrote.bytes a ha

/-- An evaluation without a fault reports nothing. -/
theorem State.crust_evalSlot (hfb : s.feedbackFault r = false) (hfe : s.followingFault r false false = false) :
    (s.evalSlot r j false false false).crust = s.crust := by
  obtain ⟨sats, h⟩ := s.evalSlot_eq r j false false false
  rw [h, hfb, hfe, State.evalFaults_of_none]
  exact (State.evalEvents_moved ..).crust.trans (State.crust_slotWritten ..)

/-- What the law of a mode gives for its output (R330, R331). -/
theorem slotEval_laws (s : State) (r : Bytes) (m : Nat) {blk : Bytes} (hblk : blk = s.controlBlock r) {f : LoopEval} (hf : f = slotEval s r m) :
    (m = 0 → f.slot.u = 0 ∧ f.slot.integ = 0 ∧ f.slot.sections = [] ∧ f.slot.timer = 0) ∧
    (m = 1 → f.slot.u = min (max (sfieldAt blk 2 2) (sfieldAt r 0x4C 2)) (sfieldAt r 0x4E 2) ∧
      f.slot.integ = (s.loopSlot (loopNumber r)).integ ∧ f.slot.timer = 0) ∧
    (m = 2 → f.slot.u ≤ sfieldAt r 0x4E 2 ∧ (sfieldAt r 0x4C 2 ≤ sfieldAt r 0x4E 2 → sfieldAt r 0x4C 2 ≤ f.slot.u)) := by
  subst hf hblk
  refine ⟨?_, ?_, ?_⟩
  · rintro rfl
    rw [slotEval, evalMode_off]
    exact ⟨rfl, rfl, rfl, rfl⟩
  · rintro rfl
    exact evalMode_manual ..
  · rintro rfl
    obtain ⟨raw, hraw⟩ := evalMode_auto r { s.loopSlot (loopNumber r) with rearm := false } (sfieldAt (s.controlBlock r) 2 2)
      (s.loopSource (slice r 0x10 8)) (s.loopSource (slice r 0x18 8)) (s.loopSource (slice r 0x20 8))
    rw [slotEval, State.controlBlock] at *
    omega

/-- A pass that evaluates a slot without a fault. -/
theorem loopPass_runs {m : Nat} {f : LoopEval} (he : e < 4) (hloops : s.engineLoops e = [r]) (hj : j = Sparse.get (fun _ => 0) s.loops.next e)
    (hnow : fieldAt r 8 4 + j * fieldAt r 4 4 ≤ s.now) (hopen : s.blkOpen 0 0x2B = true) (hfree : ∀ g t, s.groupHeld g t = false)
    (hdue : j % max (fieldAt r 0xC 1) 1 = 0) (hrun : evaluates s r = true) (hclear : s.flag Fld.LOOP_CLR_clear = false)
    (hmode : (s.loopSlot (loopNumber r)).mode ≠ 3) (hrearm : (s.loopSlot (loopNumber r)).rearm = false)
    (hfb : s.feedbackFault r = false) (hblk : blk = s.controlBlock r) (hreq : m = fieldAt blk 0 1) (hgood : controlGood blk = true)
    (hfield : fieldAt r 0x2A 1 < 2) (hf : f = slotEval s r m) (hfe : m = 2 → f.slot.timer < faultCount r) :
    ∃ t, exec (.loopPass e []) s = .next t ∧
      t.loopSlot (loopNumber r) = { f.slot with mode := m, c := slotCommand r f.slot.u, feCause := false, done := some j } ∧
      (fieldAt r 0x30 4 = 0 → t.readDie 0 (slotRecord s r + 4 + 4 * fieldAt r 0x2A 1) 4 =
        leBytes 4 (ofSigned 32 (slotCommand r f.slot.u))) ∧
      (fieldAt r 0x30 4 ≠ 0 → t.readDie 0 (fieldAt r 0x30 4) 32 = statusBlock j { f with slot := t.loopSlot (loopNumber r) }
        (s.feedbackStale r) (slotCommand r f.slot.u)) ∧
      (∀ a, (a < dieLocal 0 (slotRecord s r) ∨ dieLocal 0 (slotRecord s r) + 16 ≤ a) →
        (fieldAt r 0x30 4 = 0 ∨ a < dieLocal 0 (fieldAt r 0x30 4) ∨ dieLocal 0 (fieldAt r 0x30 4) + 32 ≤ a) → t.byteAt a = s.byteAt a) ∧
      (∀ k, k ≠ loopNumber r → t.loopSlot k = s.loopSlot k) ∧ Sparse.get (fun _ => 0) t.loops.next e = j + 1 ∧
      t.reg64 Reg.LOOP_EVALS = (s.reg64 Reg.LOOP_EVALS + 1) % 2 ^ 64 ∧
      t = { s with loops := t.loops, regs := t.regs, phys := t.phys } ∧ BlocksKept s t [0x2B] := by
  subst hf
  have hslotMode := State.slotMode_of_good hrearm hblk hgood hreq
  obtain ⟨hnone, hafter⟩ := State.slotAfter_of_none (j := j) hslotMode hfb hfe
  obtain ⟨t, hexec, hslot, hnext, hphys, hcrust, hothers, hevals, honly, hblocks, -⟩ :=
    loopPass_evaluates he hloops hj hnow hopen hfree hdue hrun hclear hmode rfl
  rw [State.phys_evalSlot] at hphys
  rw [State.crust_evalSlot hfb hnone] at hcrust
  obtain ⟨hout, hstatus, hbytes⟩ := State.slotWritten_writes (j := j) (loopNumber_of_engineLoops he hloops).1 hfield
    (held := false) (left := false) (mismatch := false) rfl
  rw [State.slotLaw_of_mode hslotMode] at hout hstatus
  have hread := State.readDie_of_phys hphys
  have hbyte (a : Nat) : t.byteAt a = (s.slotWritten r j false false false).byteAt a := by
    rw [State.byteAt, State.byteAt, hphys]
  refine ⟨t, hexec, hslot.trans hafter, fun h => hread ▸ hout h, fun h => ?_, fun a ha hb => (hbyte a).trans (hbytes a ha hb), hothers, hnext,
    hevals, ?_, hblocks⟩
  · rw [hread, hstatus h, hslot]
  · exact honly.trans (congrArg (fun c => { s with loops := t.loops, regs := t.regs, phys := t.phys, crust := c }) hcrust)

end Run

/-! ### A pass of an engine with several slots, and clears (R320, R335) -/

theorem loopPass_passes {e j at' : Nat} {bad : List Nat} {r : Bytes} {rs due : List Bytes} {s : State} (he : e < 4)
    (hloops : s.engineLoops e = r :: rs) (hj : j = Sparse.get (fun _ => 0) s.loops.next e) (hat : at' = fieldAt r 8 4 + j * fieldAt r 4 4)
    (hnow : at' ≤ s.now) (hopen : s.blkOpen 0 0x2B = true) (hfree : ∀ g t, s.groupHeld g t = false)
    (hdue : due = (r :: rs).filter (fun x => j % max (fieldAt x 0xC 1) 1 == 0)) :
    ∃ t, exec (.loopPass e bad) s = .next t ∧ Sparse.get (fun _ => 0) t.loops.next e = j + 1 ∧
      t.phys = (due.foldl (fun a x => a.passSlot x j at' bad) s).phys ∧
      t.reg64 Reg.LOOP_EVALS = (s.reg64 Reg.LOOP_EVALS + (due.filter (evaluates s)).length) % 2 ^ 64 ∧
      (∀ n, n ∉ (due.filter (evaluates s)).map loopNumber → t.loopSlot n = s.loopSlot n) ∧
      (∀ x ∈ due, evaluates s x = true → (s.loopSlot (loopNumber x)).mode ≠ 3 → loopNumber x ∉ bad →
        (t.loopSlot (loopNumber x)).done = some j) ∧
      t = { s with loops := t.loops, regs := t.regs, phys := t.phys, crust := t.crust } ∧
     BlocksKept s t [0x2B] := by
  obtain ⟨hrecs, hdistinct⟩ := s.engineLoops_spec he
  have hsub : due.Sublist (s.engineLoops e) := hdue ▸ hloops ▸ List.filter_sublist
  have hnum : ∀ x ∈ due, loopNumber x < 512 := fun x hx => (hrecs x (hsub.subset hx)).2
  have hframe := passSlots_frame hnum j at' bad s
  refine ⟨_, hdue ▸ exec_loopPass hloops hj hat hnow hopen hfree, State.next_passDone_same .., rfl, hframe.evals, hframe.slot,
    fun x hx => done_passSlots hnum (hdistinct.sublist hsub) hx, ?_, hframe.blocks⟩
  exact congrArg (fun a => a.passDone e j) hframe.only

/-- A pass whose instant has not come does nothing. -/
theorem loopPass_waits {e : Nat} {r : Bytes} {rs : List Bytes} {s : State} (hloops : s.engineLoops e = r :: rs)
    (hnow : s.now < fieldAt r 8 4 + Sparse.get (fun _ => 0) s.loops.next e * fieldAt r 4 4) : exec (.loopPass e []) s = .next s := by
  change execLoopPass e [] s = _
  rw [execLoopPass, hloops]
  exact congrArg Host.Outcome.next (if_pos (.inl hnow))

theorem loopClear_waits {who : Requester} {n : Nat} {s : State} (hs : s.served who 0 0x2B false = true) (hn : n < 512) :
    ∃ t, exec (.loopClear who n) s = .next t ∧ t.fld Fld.LOOP_CLR_slot = n ∧ t.flag Fld.LOOP_CLR_clear = true ∧
      RegsKept s t [Reg.LOOP_CLR] ∧ t = { s with regs := t.regs } := by
  have hslot : bits (n + 512) 0 9 = n := by
    simp only [bits]
    omega
  have hbit : bit (n + 512) 9 = true := by
    rw [bit, Nat.testBit_eq_decide_div_mod_eq]
    simp
    omega
  have hwrite : s.writeLoopClr (n + 512) = (s.setFld Fld.LOOP_CLR_slot n).setFld Fld.LOOP_CLR_clear 1 := by
    rw [State.writeLoopClr, hslot, if_pos hbit]
  have hexec : exec (.loopClear who n) s = .next ((s.setFld Fld.LOOP_CLR_slot n).setFld Fld.LOOP_CLR_clear 1) := by
    change execLoopClear who n s = _
    rw [execLoopClear, State.busWrite_of_served _ hs, Nat.mod_eq_of_lt hn, hwrite]
  have hmoved : RegsMoved s ((s.setFld Fld.LOOP_CLR_slot n).setFld Fld.LOOP_CLR_clear 1) [Reg.LOOP_CLR] :=
    (RegsMoved.setFld s n (by decide) (by simp)).trans (.setFld _ 1 (by decide) (by simp))
  refine ⟨_, hexec, ?_, ?_, hmoved.kept, hmoved.only⟩
  · rw [State.fld_setFld_ne _ _ (by decide) (by decide) (.inr (by decide)), State.fld_setFld_same _ _ (by decide)]
    exact Nat.mod_eq_of_lt hn
  · exact State.flag_setFld_same _ 1 (by decide) rfl

/-- Settles O41: a turn is `State.passSlot`, whose frame is said once (`State.passSlot_frame`); a pass is the turns of its due slots. -/
theorem loopPasses : Obligations.LoopPasses := by
  unfold Obligations.LoopPasses
  refine ⟨?fault, ?feedback, ?run, ?several, ?early, fun _ _ _ => loopClear_waits⟩
  case fault =>
    rintro e j n r s - hloops hj rfl hnow hopen hfree hdue hphase hclear hmode
    exact loopPass_keepsFault hloops hj hnow hopen hfree hdue hphase hclear hmode
  case feedback =>
    rintro e j n r s he hloops hj rfl hnow hopen hfree hdue hphase hclear hmode hfb
    exact loopPass_feedbackFault he hloops hj hnow hopen hfree hdue (evaluates_of_resident hphase) hclear hmode (State.feedbackFault_iff.mpr hfb)
  case run =>
    rintro e j n m r blk f s he hloops hj rfl hnow hopen hfree hdue hrun hclear hmode hrearm hfb hblk hreq hm hone hrest hfield hf hfe
    have hnone : s.feedbackFault r = false := List.any_eq_false.mpr fun i hi => by simp [hfb i hi]
    obtain ⟨hoff, hman, hauto⟩ := slotEval_laws s r m hblk hf
    obtain ⟨t, hexec, hslot, hout, hstatus, hbytes, hothers, hnext, hevals, honly, hblocks⟩ :=
      loopPass_runs he hloops hj hnow hopen hfree hdue hrun hclear hmode hrearm hnone hblk hreq (controlGood_of (hreq ▸ hm) hone hrest) hfield hf
        hfe
    exact ⟨t, hexec, hslot, hoff, hman, hauto, hout, hstatus, hbytes, hothers, hnext, hevals, honly, hblocks⟩
  case several =>
    intro e j at' bad r rs due s he hloops hj hat hnow hopen hfree hdue
    exact loopPass_passes he hloops hj hat hnow hopen hfree hdue
  case early => exact fun e r rs s hloops hnow => loopPass_waits hloops hnow

end Sys2Proof.Machine
end

section
/-! The world map's trees (chapter 15): reading a cell after a write, and after nodes have taken their places. -/

namespace Sys2Proof.Machine

/-! ### Reading a tree (R260, R262, R263) -/

theorem childNumber_lt (d : Nat) (p : List Nat) : childNumber d p < 8 := by
  have hle (b : Bool) : b2n b ≤ 1 := by cases b <;> decide
  have h0 := hle (bit (p.getD 0 0) d)
  have h1 := hle (bit (p.getD 1 0) d)
  have h2 := hle (bit (p.getD 2 0) d)
  unfold childNumber
  omega

theorem MapTree.length_kids (t : MapTree) : t.kids.length = 8 := by cases t <;> rfl

theorem MapTree.get_absent (d : Nat) (p : List Nat) : MapTree.get d .absent p = unknownCell := by cases d <;> rfl

theorem MapTree.get_cell (d : Nat) (c : MapCell) (p : List Nat) : MapTree.get d (.cell c) p = c := by cases d <;> rfl

theorem MapTree.get_ofCell (d : Nat) (c : MapCell) (p : List Nat) : MapTree.get d (.ofCell c) p = c := by
  unfold MapTree.ofCell
  split
  next h => rw [MapTree.get_absent, h]
  next => exact MapTree.get_cell d c p

/-- A child of a list all of whose members are the same. -/
theorem getD_of_all {cs : List MapTree} {t : MapTree} (h : cs.all (fun x => x == t) = true) {j : Nat} (hj : j < cs.length) :
    cs.getD j .absent = t := by
  rw [List.getD_eq_getElem _ _ hj]
  simpa using List.all_eq_true.mp h _ (List.getElem_mem hj)

theorem MapTree.getD_kids_absent {j : Nat} (hj : j < 8) : MapTree.absent.kids.getD j .absent = .absent :=
  getD_of_all (by decide) hj

theorem MapTree.getD_kids_cell (c : MapCell) {j : Nat} (hj : j < 8) : (MapTree.cell c).kids.getD j .absent = .cell c :=
  getD_of_all (by simp [MapTree.kids]) hj

/-- A cell of a tree is the cell of the child on its path. -/
theorem MapTree.get_succ (d : Nat) (t : MapTree) (p : List Nat) :
    MapTree.get (d + 1) t p = MapTree.get d (t.kids.getD (childNumber d p) .absent) p := by
  cases t with
  | absent => rw [MapTree.getD_kids_absent (childNumber_lt d p), MapTree.get_absent, MapTree.get_absent]
  | cell c => rw [MapTree.getD_kids_cell c (childNumber_lt d p), MapTree.get_cell, MapTree.get_cell]
  | inner g c0 c1 c2 c3 c4 c5 c6 c7 => rfl

/-- The children of a node that is not merged. -/
theorem kids_inner_getD {cs : List MapTree} (hlen : cs.length = 8) (g : Nat) :
    (MapTree.inner g (cs.getD 0 .absent) (cs.getD 1 .absent) (cs.getD 2 .absent) (cs.getD 3 .absent) (cs.getD 4 .absent) (cs.getD 5 .absent)
      (cs.getD 6 .absent) (cs.getD 7 .absent)).kids = cs := by
  obtain ⟨c0, c1, c2, c3, c4, c5, c6, c7, rfl⟩ : ∃ c0 c1 c2 c3 c4 c5 c6 c7, cs = [c0, c1, c2, c3, c4, c5, c6, c7] := by
    match cs, hlen with
    | [c0, c1, c2, c3, c4, c5, c6, c7], _ => exact ⟨c0, c1, c2, c3, c4, c5, c6, c7, rfl⟩
  rfl

/-- The canonical form changes no cell (R263). -/
theorem MapTree.get_canonNode {cs : List MapTree} (hlen : cs.length = 8) (d : Nat) (p : List Nat) :
    MapTree.get (d + 1) (canonNode cs) p = MapTree.get d (cs.getD (childNumber d p) .absent) p := by
  have hj : childNumber d p < cs.length := hlen ▸ childNumber_lt d p
  have hinner : MapTree.get (d + 1) (.inner newGroup (cs.getD 0 .absent) (cs.getD 1 .absent) (cs.getD 2 .absent) (cs.getD 3 .absent)
      (cs.getD 4 .absent) (cs.getD 5 .absent) (cs.getD 6 .absent) (cs.getD 7 .absent)) p =
      MapTree.get d (cs.getD (childNumber d p) .absent) p := by
    rw [MapTree.get_succ, kids_inner_getD hlen]
  unfold canonNode
  dsimp only
  split
  next hall => rw [getD_of_all hall hj, MapTree.get_absent, MapTree.get_absent]
  next =>
    split
    next x _ =>
      split
      next hall => rw [getD_of_all hall hj, MapTree.get_cell, MapTree.get_cell]
      next => exact hinner
    next => exact hinner

/-- A cell reads as it was written (R263). -/
theorem MapTree.get_put_same (d : Nat) (t : MapTree) (p : List Nat) (c : MapCell) : (t.put d p c).get d p = c := by
  induction d generalizing t with
  | zero => exact MapTree.get_ofCell 0 c p
  | succ d ih =>
    have hlen : (t.kids.set (childNumber d p) (MapTree.put d (t.kids.getD (childNumber d p) .absent) p c)).length = 8 := by
      rw [List.length_set, t.length_kids]
    rw [MapTree.put, MapTree.get_canonNode hlen, List.getD_eq_getElem _ _ (hlen ▸ childNumber_lt d p), List.getElem_set_self]
    exact ih _

/-- The three bits of a child's number. -/
theorem childBits_inj : ∀ a0 a1 a2 b0 b1 b2 : Bool, b2n a0 + 2 * b2n a1 + 4 * b2n a2 = b2n b0 + 2 * b2n b1 + 4 * b2n b2 →
    a0 = b0 ∧ a1 = b1 ∧ a2 = b2 := by decide

theorem mod_succ_of_bit {d x y : Nat} (hbit : bit x d = bit y d) (h : x % 2 ^ d = y % 2 ^ d) : x % 2 ^ (d + 1) = y % 2 ^ (d + 1) := by
  rw [bit, bit, Nat.testBit_eq_decide_div_mod_eq, Nat.testBit_eq_decide_div_mod_eq, decide_eq_decide] at hbit
  rw [Nat.mod_pow_succ, Nat.mod_pow_succ, h]
  congr 2
  omega

/-- Two cells that differ and lie below the same child differ below it. -/
theorem differ_below {d : Nat} {p q : List Nat} (hchild : childNumber d p = childNumber d q)
    (h : ∃ i < 3, p.getD i 0 % 2 ^ (d + 1) ≠ q.getD i 0 % 2 ^ (d + 1)) : ∃ i < 3, p.getD i 0 % 2 ^ d ≠ q.getD i 0 % 2 ^ d := by
  obtain ⟨h0, h1, h2⟩ := childBits_inj _ _ _ _ _ _ hchild
  obtain ⟨i, hi, hne⟩ := h
  refine ⟨i, hi, fun heq => hne (mod_succ_of_bit ?_ heq)⟩
  interval_cases i
  · exact h0
  · exact h1
  · exact h2

/-- A write leaves every other cell (R263). -/
theorem MapTree.get_put_ne (d : Nat) (t : MapTree) {p q : List Nat} (c : MapCell) (h : ∃ i < 3, p.getD i 0 % 2 ^ d ≠ q.getD i 0 % 2 ^ d) :
    (t.put d p c).get d q = t.get d q := by
  induction d generalizing t with
  | zero => simp [Nat.mod_one] at h
  | succ d ih =>
    have hlen : (t.kids.set (childNumber d p) (MapTree.put d (t.kids.getD (childNumber d p) .absent) p c)).length = 8 := by
      rw [List.length_set, t.length_kids]
    rw [MapTree.put, MapTree.get_canonNode hlen, MapTree.get_succ]
    by_cases hchild : childNumber d p = childNumber d q
    · rw [hchild, List.getD_eq_getElem _ _ (by rw [List.length_set, t.length_kids]; exact childNumber_lt d q), List.getElem_set_self]
      exact ih _ (differ_below hchild h)
    · rw [List.getD_eq_getElem?_getD, List.getElem?_set_ne hchild, ← List.getD_eq_getElem?_getD]

/-- Two cells differ in some coordinate. -/
theorem differ_of_coords {d : Nat} {p q : List Nat} (h : p.getD 0 0 % 2 ^ d ≠ q.getD 0 0 % 2 ^ d ∨ p.getD 1 0 % 2 ^ d ≠ q.getD 1 0 % 2 ^ d ∨
    p.getD 2 0 % 2 ^ d ≠ q.getD 2 0 % 2 ^ d) : ∃ i < 3, p.getD i 0 % 2 ^ d ≠ q.getD i 0 % 2 ^ d := by
  rcases h with h | h | h
  · exact ⟨0, by omega, h⟩
  · exact ⟨1, by omega, h⟩
  · exact ⟨2, by omega, h⟩

/-! ### Places (R265, R269) -/

/-- Two trees whose children read alike. -/
theorem MapTree.get_inner_congr {g g' : Nat} {c0 c1 c2 c3 c4 c5 c6 c7 y0 y1 y2 y3 y4 y5 y6 y7 : MapTree}
    (h0 : ∀ d q, MapTree.get d y0 q = MapTree.get d c0 q) (h1 : ∀ d q, MapTree.get d y1 q = MapTree.get d c1 q)
    (h2 : ∀ d q, MapTree.get d y2 q = MapTree.get d c2 q) (h3 : ∀ d q, MapTree.get d y3 q = MapTree.get d c3 q)
    (h4 : ∀ d q, MapTree.get d y4 q = MapTree.get d c4 q) (h5 : ∀ d q, MapTree.get d y5 q = MapTree.get d c5 q)
    (h6 : ∀ d q, MapTree.get d y6 q = MapTree.get d c6 q) (h7 : ∀ d q, MapTree.get d y7 q = MapTree.get d c7 q) (d : Nat) (q : List Nat) :
    MapTree.get d (.inner g y0 y1 y2 y3 y4 y5 y6 y7) q = MapTree.get d (.inner g' c0 c1 c2 c3 c4 c5 c6 c7) q := by
  cases d with
  | zero => rfl
  | succ d =>
    have hj := childNumber_lt d q
    rw [MapTree.get_succ, MapTree.get_succ]
    generalize childNumber d q = j at *
    interval_cases j
    · exact h0 d q
    · exact h1 d q
    · exact h2 d q
    · exact h3 d q
    · exact h4 d q
    · exact h5 d q
    · exact h6 d q
    · exact h7 d q

/-- Nodes that take their places leave every cell. -/
theorem MapTree.get_place {cfg : MapCfg} {free : Nat} (t : MapTree) {level : Nat} {x : Placing} {y : MapTree × Placing}
    (h : t.place cfg free level x = some y) (d : Nat) (q : List Nat) : MapTree.get d y.1 q = MapTree.get d t q := by
  induction t generalizing level x y d q with
  | absent =>
    cases h
    rfl
  | cell c =>
    cases h
    rfl
  | inner g c0 c1 c2 c3 c4 c5 c6 c7 ih0 ih1 ih2 ih3 ih4 ih5 ih6 ih7 =>
    unfold MapTree.place at h
    split at h
    · cases h
      rfl
    · simp only [Option.bind_eq_some_iff, Option.map_eq_some_iff] at h
      obtain ⟨b, -, y0, h0, y1, h1, y2, h2, y3, h3, y4, h4, y5, h5, y6, h6, y7, h7, rfl⟩ := h
      exact MapTree.get_inner_congr (fun d q => ih0 h0 d q) (fun d q => ih1 h1 d q) (fun d q => ih2 h2 d q) (fun d q => ih3 h3 d q)
        (fun d q => ih4 h4 d q) (fun d q => ih5 h5 d q) (fun d q => ih6 h6 d q) (fun d q => ih7 h7 d q) d q

/-- A tree with its root placed, without the state (R265). -/
def placedTree (worlds : List World) (free : Nat) (cfg : MapCfg) (tree : MapTree) : Option (Nat × MapTree) :=
  if tree = .absent then some (0, .absent)
  else ((Placing.mk (nodeRangesOf worlds) 0 []).group cfg free 0 1).bind fun r => (tree.place cfg free 0 r.2).map fun x => (r.1, x.1)

/-- A tree's places depend on the worlds held and the free values alone. -/
theorem State.placeTree_places (s : State) (cfg : MapCfg) (tree : MapTree) :
    (s.placeTree cfg tree).map (·.2) = placedTree s.heldWorlds s.freeCtr cfg tree := by
  unfold State.placeTree placedTree
  split
  · rfl
  · simp only [Option.map_bind, Option.map_map, Function.comp_def]

theorem State.get_placeTree {s : State} {cfg : MapCfg} {tree placed : MapTree} {root : Nat}
    (h : (s.placeTree cfg tree).map (·.2) = some (root, placed)) (d : Nat) (q : List Nat) : placed.get d q = tree.get d q := by
  rw [State.placeTree_places, placedTree] at h
  split at h
  next habsent =>
    cases h
    rw [habsent]
  next =>
    simp only [Option.bind_eq_some_iff, Option.map_eq_some_iff] at h
    obtain ⟨r, -, x, hx, heq⟩ := h
    cases heq
    exact tree.get_place hx d q

theorem State.placeTree_frame {s : State} {cfg : MapCfg} {tree : MapTree} {x : State × Nat × MapTree} (h : s.placeTree cfg tree = some x) :
    StoreFrame s x.1 [6] := by
  unfold State.placeTree at h
  split at h
  · cases h
    exact .refl s _
  · simp only [Option.bind_eq_some_iff, Option.map_eq_some_iff] at h
    obtain ⟨r, -, y, -, rfl⟩ := h
    exact .trans (t := s.useFree y.2.taken) ⟨rfl, fun _ _ => rfl⟩ (.foldl (fun a (p : Nat × Bytes) => StoreFrame.writeNode a cfg p.1 p.2) _ _)

/-! ### What an epoch of a slot moves (R265 to R268) -/

/-- The state with the registers, the memory, the flash store and the free values of another, and its worlds, pins and deltas. -/
def State.withWorlds (s u : State) : State :=
  { s with regs := u.regs, phys := u.phys, flash := u.flash, freeCtr := u.freeCtr
           map := { s.map with worlds := u.map.worlds, pins := u.map.pins, head := u.map.head } }

/-- The second state is the first but for registers of some blocks, memory, the flash store, free values, and the worlds, pins and deltas of
the map store. -/
structure MapMoved (s t : State) (blocks : List Nat) : Prop where
  only : t = s.withWorlds t
  kept : BlocksKept s t blocks

namespace MapMoved
variable {s t u : State} {l l' : List Nat}

theorem trans (hst : MapMoved s t l) (htu : MapMoved t u l) : MapMoved s u l :=
  ⟨htu.only.trans (congrArg (fun a : State => a.withWorlds u) hst.only :),
    fun a ha => (htu.kept a ha).trans (hst.kept a ha)⟩

theorem mono (h : MapMoved s t l) (hl : l ⊆ l') : MapMoved s t l' := ⟨h.only, fun a ha => h.kept a fun hal => ha (hl hal)⟩

theorem of_store (h : StoreFrame s t l) : MapMoved s t l := by
  obtain ⟨u, rfl⟩ : ∃ u, t = s.withStore u := ⟨t, h.only⟩
  exact ⟨rfl, h.kept⟩

theorem of_counts (h : CountsIn s t l) : MapMoved s t l := of_store (.of_countsIn h)

theorem of_map (s : State) (worlds : Sparse World) (pins : List MapPin) (head : Nat) :
    MapMoved s { s with map := { s.map with worlds := worlds, pins := pins, head := head } } l := ⟨rfl, fun _ _ => rfl⟩

end MapMoved

theorem StoreFrame.map {s t : State} {l : List Nat} (h : StoreFrame s t l) : t.map = s.map := (congrArg State.map h.only :)

theorem CountsIn.map {s t : State} {l : List Nat} (h : CountsIn s t l) : t.map = s.map := (congrArg State.map h.only :)

/-- Delta records move memory, the report of a fault, and the head of their ring. -/
theorem State.appendDeltas_moved (s : State) (cfg : MapCfg) (epoch : Nat) (hs : List Bytes) :
    MapMoved s (s.appendDeltas cfg epoch hs) [6] ∧ (s.appendDeltas cfg epoch hs).map.worlds = s.map.worlds ∧
      (s.appendDeltas cfg epoch hs).map.head = s.map.head + hs.length := by
  induction hs generalizing s with
  | nil => exact ⟨⟨rfl, fun _ _ => rfl⟩, rfl, rfl⟩
  | cons h hs ih =>
    unfold State.appendDeltas
    extract_lets va s1
    have hframe : StoreFrame s s1 [6] := by
      unfold s1
      split
      next hw => exact .writeVa hw
      next => exact .xltFault s _ _ _
    obtain ⟨hmoved, hworlds, hhead⟩ := ih { s1 with map := { s1.map with head := s1.map.head + 1 } }
    have hmap := hframe.map
    refine ⟨((MapMoved.of_store hframe).trans (.of_map s1 s1.map.worlds s1.map.pins _)).trans hmoved, hworlds.trans ?_, hhead.trans ?_⟩
    · rw [hmap]
    · change s1.map.head + 1 + hs.length = _
      rw [hmap, List.length_cons]
      omega

theorem State.markLost_moved (s : State) (n : Nat) :
    MapMoved s (s.markLost n) [0x28] ∧ (s.markLost n).map.worlds = s.map.worlds ∧ (s.markLost n).map.head = s.map.head := by
  unfold State.markLost
  extract_lets lost
  split
  · exact ⟨(MapMoved.of_map s s.map.worlds _ s.map.head).trans
      (.of_counts (.eventIf _ true (e := Ev.MAP_EVT_STATUS_delta_lost) (by decide) (by decide))), rfl, rfl⟩
  · exact ⟨⟨rfl, fun _ _ => rfl⟩, rfl, rfl⟩

/-- A world as the current one of its slot. -/
def State.keepWorld (s : State) (slot : Nat) (w : World) : State :=
  { s with map := { s.map with worlds := Sparse.put (fun _ => {}) s.map.worlds slot w } }

/-- A world as the current one of its slot, with its deltas and its register. -/
def State.epochNoted (s : State) (cfg : MapCfg) (slot : Nat) (w : World) (heads : List Bytes) : State :=
  (((s.keepWorld slot w).appendDeltas cfg w.epoch heads).markLost cfg.deltaEntries).setReg64 (Reg.MAP_EPOCH slot) w.epoch

theorem State.setWorld_eq (s : State) (cfg : MapCfg) (slot : Nat) (w : World) (heads : List Bytes) :
    s.setWorld cfg slot w heads = ((s.epochNoted cfg slot w heads).releaseNodes s.heldWorlds).mapRegs := rfl

theorem State.epochNoted_moved (s : State) (cfg : MapCfg) {slot : Nat} (hslot : slot < 1024) (w : World) (heads : List Bytes) :
    MapMoved s (s.epochNoted cfg slot w heads) [0x28, 6] ∧
      (s.epochNoted cfg slot w heads).map.worlds = Sparse.put (fun _ => {}) s.map.worlds slot w ∧
      (s.epochNoted cfg slot w heads).map.head = s.map.head + heads.length := by
  obtain ⟨hdeltas, hworlds, hhead⟩ := (s.keepWorld slot w).appendDeltas_moved cfg w.epoch heads
  obtain ⟨hlost, hworlds', hhead'⟩ := ((s.keepWorld slot w).appendDeltas cfg w.epoch heads).markLost_moved cfg.deltaEntries
  have hepoch : CountsIn _ (s.epochNoted cfg slot w heads) [0x28] :=
    .setReg64 (((s.keepWorld slot w).appendDeltas cfg w.epoch heads).markLost cfg.deltaEntries) _ (by simp only [Reg.MAP_EPOCH]; omega)
      (by simp only [Reg.MAP_EPOCH]; omega)
  have hkept : MapMoved s (s.keepWorld slot w) [0x28, 6] := .of_map s _ s.map.pins s.map.head
  refine ⟨((hkept.trans (hdeltas.mono (by simp))).trans (hlost.mono (by simp))).trans (.of_counts (hepoch.mono (by simp))), ?_, ?_⟩
  · exact (congrArg MapSt.worlds hepoch.map).trans (hworlds'.trans hworlds)
  · exact (congrArg MapSt.head hepoch.map).trans (hhead'.trans hhead)

/-- A world becomes the current epoch of its slot. -/
theorem State.setWorld_moved (s : State) (cfg : MapCfg) {slot : Nat} (hslot : slot < 1024) (w : World) (heads : List Bytes) :
    MapMoved s (s.setWorld cfg slot w heads) [0x28, 6] ∧
      (s.setWorld cfg slot w heads).map.worlds = Sparse.put (fun _ => {}) s.map.worlds slot w ∧
      (s.setWorld cfg slot w heads).map.head = s.map.head + heads.length := by
  obtain ⟨hnoted, hworlds, hhead⟩ := s.epochNoted_moved cfg hslot w heads
  have hnodes := StoreFrame.releaseNodes (s.epochNoted cfg slot w heads) s.heldWorlds
  have hregs := State.countsIn_mapRegs ((s.epochNoted cfg slot w heads).releaseNodes s.heldWorlds)
  have hmap := hregs.map.trans hnodes.map
  rw [State.setWorld_eq, hmap]
  exact ⟨(hnoted.trans (.of_store (hnodes.mono (by simp)))).trans (.of_counts (hregs.mono (by simp))), hworlds, hhead⟩

/-- What a new epoch of a slot has made of a state. -/
structure EpochMade (s t : State) (slot : Nat) (w : World) : Prop where
  moved : MapMoved s t [0x28, 6]
  world : t.world slot = w
  others (k : Nat) (h : k ≠ slot) : t.world k = s.world k

theorem State.setWorld_made {s m : State} (hm : StoreFrame s m [0x28, 6]) (cfg : MapCfg) {slot : Nat} (hslot : slot < 1024) (w : World)
    (heads : List Bytes) : EpochMade s (m.setWorld cfg slot w heads) slot w := by
  obtain ⟨hmoved, hworlds, -⟩ := m.setWorld_moved cfg hslot w heads
  refine ⟨(MapMoved.of_store hm).trans hmoved, ?_, fun k hk => ?_⟩
  · rw [State.world, hworlds, Sparse.get_put_same]
  · rw [State.world, State.world, hworlds, Sparse.get_put_ne hk, hm.map]

/-- A tree whose nodes find places makes the slot's next epoch. -/
theorem State.newEpoch_of_places {s : State} {cfg : MapCfg} {slot root : Nat} {tree placed : MapTree} {heads : List Bytes} (hslot : slot < 1024)
    (h : placedTree s.heldWorlds s.freeCtr cfg tree = some (root, placed)) :
    ∃ u, s.newEpoch cfg slot tree heads = some u ∧ EpochMade s u slot ⟨(s.world slot).epoch + 1, root, placed⟩ := by
  rw [← State.placeTree_places, Option.map_eq_some_iff] at h
  obtain ⟨x, hx, hxp⟩ := h
  refine ⟨_, by rw [State.newEpoch, hx]; rfl, ?_⟩
  have h1 : x.2.1 = root := congrArg Prod.fst hxp
  have h2 : x.2.2 = placed := congrArg Prod.snd hxp
  rw [← h1, ← h2]
  exact State.setWorld_made ((State.placeTree_frame hx).mono (by simp)) cfg hslot _ _

theorem State.newEpoch_of_none {s : State} {cfg : MapCfg} {slot : Nat} {tree : MapTree} {heads : List Bytes}
    (h : placedTree s.heldWorlds s.freeCtr cfg tree = none) : s.newEpoch cfg slot tree heads = none := by
  rw [← State.placeTree_places, Option.map_eq_none_iff] at h
  rw [State.newEpoch, h]
  rfl

end Sys2Proof.Machine
end

section
/-! The commands of the world map (chapter 15). -/

namespace Sys2Proof.Machine

/-! ### A command that starts (R275) -/

/-- The command register as a start leaves it. -/
def State.mapAsked (s : State) (op slot : Nat) : State := (s.setFld Fld.MAP_CMD_op op).setFld Fld.MAP_CMD_slot slot

theorem State.mapAsked_moved (s : State) (op slot : Nat) : RegsMoved s (s.mapAsked op slot) [Reg.MAP_CMD] :=
  (RegsMoved.setFld s op (by decide) (by simp)).trans (.setFld _ slot (by decide) (by simp))

/-- The word of a start says its operation and its slot. -/
theorem startWord {op slot : Nat} (hop : op < 16) (hslot : slot < 1024) :
    bits (1 + 2 * op + 32 * (slot % 1024)) 1 4 = op ∧ bits (1 + 2 * op + 32 * (slot % 1024)) 5 10 = slot ∧
      bit (1 + 2 * op + 32 * (slot % 1024)) 0 = true := by
  refine ⟨?_, ?_, ?_⟩
  · simp only [bits]
    omega
  · simp only [bits]
    omega
  · rw [bit, Nat.testBit_zero]
    simp
    omega

theorem State.mapStart_of_ready {s : State} {who : Requester} {op slot : Nat} (h : mapReady s who = true) (hop : 0 < op) (hop' : op ≤ 8)
    (hslot : slot < 1024) : s.mapStart who op slot = (s.mapAsked op slot).runMapCommand op slot := by
  rw [mapReady, Bool.and_eq_true, Bool.not_eq_true'] at h
  obtain ⟨hserved, hbusy⟩ := h
  obtain ⟨hword, hword', hbit⟩ := startWord (op := op) (slot := slot) (by omega) hslot
  have hidle : (s.mapAsked op slot).flag Fld.MAP_CMD_STATUS_busy = false := by
    rw [(s.mapAsked_moved op slot).flag (by decide) (by decide), hbusy]
  rw [State.mapStart, State.busWrite_of_served _ hserved, State.writeMapCmd, hword, hword', hbit, ← State.mapAsked, hidle, beq_false_of_ne (by omega), decide_eq_false (by omega)]
  rfl

/-- A start while a command is busy. -/
theorem State.mapStart_of_busy {s : State} {who : Requester} {op slot : Nat} (hserved : s.served who 0 0x28 false = true)
    (hbusy : s.flag Fld.MAP_CMD_STATUS_busy = true) (hop : op < 16) (hslot : slot < 1024) :
    s.mapStart who op slot = (s.mapAsked op slot).event Ev.MAP_EVT_STATUS_cmd_reject := by
  obtain ⟨hword, hword', hbit⟩ := startWord hop hslot
  have hidle : (s.mapAsked op slot).flag Fld.MAP_CMD_STATUS_busy = true := by
    rw [(s.mapAsked_moved op slot).flag (by decide) (by decide), hbusy]
  rw [State.mapStart, State.busWrite_of_served _ hserved, State.writeMapCmd, hword, hword', hbit, ← State.mapAsked, hidle]
  rfl

/-! ### What a state asked for a command keeps -/

section Kept
variable {s m : State} {l : List Nat} (h : RegsMoved s m l)
include h

theorem RegsMoved.mapCfg? : m.mapCfg? = s.mapCfg? := (congrArg State.mapCfg? h.only :)

theorem RegsMoved.map : m.map = s.map := (congrArg State.map h.only :)

theorem RegsMoved.world (k : Nat) : m.world k = s.world k := by rw [State.world, State.world, h.map]

theorem RegsMoved.pinFree (n : Nat) : m.pinFree n = s.pinFree n := by rw [State.pinFree, State.pinFree, h.map]

theorem RegsMoved.heldWorlds : m.heldWorlds = s.heldWorlds := by rw [State.heldWorlds, State.heldWorlds, h.map]

theorem RegsMoved.freeCtr : m.freeCtr = s.freeCtr := (congrArg State.freeCtr h.only :)

theorem RegsMoved.waits : mapWaits m = mapWaits s := by rw [mapWaits, mapWaits, h.map]

end Kept

section Asked
variable {s m : State} (h : RegsMoved s m [Reg.MAP_CMD])
include h

theorem RegsMoved.fusionActive : m.fusionActive = s.fusionActive := by
  have hctxs : m.ctxs = s.ctxs := (congrArg State.ctxs h.only :)
  have howner : m.fusionOwner = s.fusionOwner := (congrArg State.fusionOwner h.only :)
  have hrecs : m.recs 0xA = s.recs 0xA := (congrArg (fun a => a.recs 0xA) h.only :)
  have hinvs : m.invs = s.invs := (congrArg State.invs h.only :)
  have hquiesced (k : Nat) : m.quiesced k = s.quiesced k := by
    have hrun : m.flag (Fld.HQ_Q_CTRL_run k) = s.flag (Fld.HQ_Q_CTRL_run k) :=
      h.flag (by simp) (by simp only [Reg.HQ_Q_CTRL, Reg.MAP_CMD, List.mem_singleton]; omega)
    rw [State.quiesced, State.quiesced, hrun, State.ctx, State.ctx, hctxs, hinvs]
  simp only [State.fusionActive, State.ctx, hctxs, howner, hrecs, hquiesced]

theorem RegsMoved.readVa (who : Master) (ctx va n : Nat) : m.readVa who ctx va n = s.readVa who ctx va n := by
  have hmode : m.fld Fld.FTL_STATUS_mode = s.fld Fld.FTL_STATUS_mode := h.fld (by decide) (by decide)
  obtain ⟨regs, rfl⟩ : ∃ regs, m = s.withMap regs s.map := ⟨m.regs, h.only⟩
  exact State.readVa_withMap hmode who ctx va n

theorem RegsMoved.readSnapshot (cfg : MapCfg) (va : Nat) : m.readSnapshot cfg va = s.readSnapshot cfg va := by
  simp only [State.readSnapshot, h.readVa]

theorem RegsMoved.writeVa {who : Master} {acc : Access} {ctx va : Nat} {bs : Bytes} {w : State} (hw : s.writeVa who acc ctx va bs = .ok w) :
    m.writeVa who acc ctx va bs = .ok { w with regs := m.regs } := by
  have hmode : m.fld Fld.FTL_STATUS_mode = s.fld Fld.FTL_STATUS_mode := h.fld (by decide) (by decide)
  have hports : w.ports = s.ports := (congrArg State.ports (State.writeVa_only hw) :)
  obtain ⟨regs, rfl⟩ : ∃ regs, m = s.withPorts regs s.ports := ⟨m.regs, h.only⟩
  rw [State.writeVa_withPorts hmode hw, ← hports]
  rfl

theorem MapMoved.of_asked {t : State} {l : List Nat} (ht : MapMoved m t l) (hl : 0x28 ∈ l) : MapMoved s t l := by
  refine .trans ⟨?_, h.kept.blocksKept (by simpa [Reg.MAP_CMD] using hl)⟩ ht
  rw [h.only]
  rfl

theorem EpochMade.of_asked {t : State} {slot : Nat} {w : World} (ht : EpochMade m t slot w) : EpochMade s t slot w :=
  ⟨.of_asked h ht.moved (by simp), ht.world, fun k hk => (ht.others k hk).trans (h.world k)⟩

end Asked

/-! ### The end of a command (R275) -/

/-- The status of commands after an end. -/
theorem State.mapStatus_shows (s : State) {code : Nat} (hcode : code < 65536) :
    (s.mapStatus code).fld Fld.MAP_CMD_STATUS_code = code ∧ (s.mapStatus code).flag Fld.MAP_CMD_STATUS_busy = mapWaits s := by
  constructor
  · rw [State.mapStatus, State.mapBusy, State.fld_setFld_ne _ _ (by decide) (by decide) (.inr (by decide)), State.fld_setFld_same _ _ (by decide)]
    exact Nat.mod_eq_of_lt hcode
  · rw [State.mapStatus, State.mapBusy, State.flag_setFld_same _ _ (by decide) rfl, mapWaits, State.setFld_map]
    cases s.map.build.isSome || s.map.wanted.isSome <;> rfl

theorem MapMoved.waits {s t : State} {l : List Nat} (h : MapMoved s t l) : mapWaits t = mapWaits s := by
  have hmap : t.map = { s.map with worlds := t.map.worlds, pins := t.map.pins, head := t.map.head } := (congrArg State.map h.only :)
  rw [mapWaits, hmap]
  rfl

/-- A command whose epoch was made. -/
theorem EpochMade.ended {s u t : State} {slot : Nat} {w : World} (h : EpochMade s u slot w) (ht : t = u.mapStatus 0) :
    t.world slot = w ∧ (∀ k, k ≠ slot → t.world k = s.world k) ∧ t.fld Fld.MAP_CMD_STATUS_code = 0 ∧
      t.flag Fld.MAP_CMD_STATUS_busy = mapWaits s ∧ BlocksKept s t [0x28, 6] ∧ t.map.head = u.map.head ∧
      t = { s with regs := t.regs, phys := t.phys, flash := t.flash, map := t.map, crust := t.crust, freeCtr := t.freeCtr } := by
  have hstatus := u.countsIn_mapStatus 0
  obtain ⟨hcode, hbusy⟩ := u.mapStatus_shows (code := 0) (by decide)
  rw [← ht] at hstatus hcode hbusy
  have hmoved := h.moved.trans (.of_counts (hstatus.mono (by simp)))
  have hworld (k : Nat) : t.world k = u.world k := by rw [State.world, State.world, hstatus.map]
  refine ⟨(hworld slot).trans h.world, fun k hk => (hworld k).trans (h.others k hk), hcode, hbusy.trans h.moved.waits, hmoved.kept, ?_, ?_⟩
  · rw [hstatus.map]
  · exact hmoved.only.trans (by rw [hmoved.only]; rfl)

/-- A command that its pool has not the nodes for (R270). -/
theorem noNodes_ended {s m t : State} (hm : RegsMoved s m [Reg.MAP_CMD]) (ht : t = m.mapOutcome none) :
    t.map = s.map ∧ t.fld Fld.MAP_CMD_STATUS_code = 0x0580 ∧ Counted s t Ev.MAP_EVT_STATUS_nodes_full ∧
      t.crust = { s.crust with reports := s.crust.reports ++ [(0x0F, 0)] } ∧ BlocksKept s t [0x28] ∧
      t = { s with regs := t.regs, crust := t.crust } := by
  have ht : t = m.nodesFull.mapStatus 0x0580 := ht
  have hcode := (m.nodesFull.mapStatus_shows (code := 0x0580) (by decide)).1
  have hstatus := m.nodesFull.countsIn_mapStatus 0x0580
  have hreg (a : Nat) (ha : a ≠ Reg.MAP_CMD_STATUS) : t.reg a = (m.event Ev.MAP_EVT_STATUS_nodes_full).reg a := by
    rw [ht, State.reg_mapStatus_ne _ _ ha]
    rfl
  have hcounted : Counted s (m.event Ev.MAP_EVT_STATUS_nodes_full) Ev.MAP_EVT_STATUS_nodes_full :=
    hm.counted (by decide) (by decide) (by decide)
  have hcrust : t.crust = { s.crust with reports := s.crust.reports ++ [(0x0F, 0)] } := by
    rw [ht, (congrArg State.crust hstatus.only :), ← hm.crust]
    rfl
  rw [← ht] at hcode hstatus
  have hevent : RegsMoved s (m.event Ev.MAP_EVT_STATUS_nodes_full) (Reg.MAP_CMD :: Ev.MAP_EVT_STATUS_nodes_full.regs) :=
    hm.append (.event _ _)
  refine ⟨?_, hcode, ⟨?_, ?_⟩, hcrust, fun a ha => ?_, ?_⟩
  · exact hstatus.map.trans hm.map
  · rw [hreg _ (by decide)]
    exact hcounted.1
  · rw [hreg _ (by decide)]
    exact hcounted.2
  · exact (hstatus.kept a ha).trans ((hevent.kept.blocksKept (by decide)) a ha)
  · rw [hcrust]
    refine hstatus.only.trans ?_
    rw [State.nodesFull, hm.only]
    rfl

end Sys2Proof.Machine
end

section
/-! The commands of the world map (chapter 15): each command's effect. -/

namespace Sys2Proof.Machine

/-! ### The effect of each command (R274 to R276) -/

section Effects
variable {m : State} {cfg : MapCfg} {slot : Nat} (hcfg : m.mapCfg? = some cfg) (hslots : slot < cfg.slots)
include hcfg hslots

theorem State.run_fork (hsrc : m.fld Fld.MAP_CMD_ARG_count % 1024 < cfg.slots) (hopen : ¬(slot = 0 ∧ m.fusionActive = true))
    (hpin : m.pinFree 1 = true) : m.runMapCommand 1 slot =
      (m.setWorld cfg slot { m.world (m.fld Fld.MAP_CMD_ARG_count % 1024) with epoch := (m.world slot).epoch + 1 } [wholeSlot slot]).mapStatus
        0 := by
  simp [State.runMapCommand, hcfg, Nat.not_le.mpr hslots, Nat.not_le.mpr hsrc, hpin, eq_false hopen]

theorem State.run_clear (hopen : ¬(slot = 0 ∧ m.fusionActive = true)) :
    m.runMapCommand 2 slot = m.mapOutcome (m.newEpoch cfg slot .absent [wholeSlot slot]) := by
  simp [State.runMapCommand, hcfg, Nat.not_le.mpr hslots, eq_false hopen]

theorem State.run_load {tree : MapTree} (hopen : ¬(slot = 0 ∧ m.fusionActive = true))
    (hread : m.readSnapshot cfg (m.reg64 Reg.MAP_CMD_VA) = .ok tree) :
    m.runMapCommand 4 slot = m.mapOutcome (m.newEpoch cfg slot tree [wholeSlot slot]) := by
  simp [State.runMapCommand, hcfg, Nat.not_le.mpr hslots, hread, eq_false hopen]

theorem State.run_write {b : Bytes} (hcount : m.fld Fld.MAP_CMD_ARG_count = 1)
    (hread : m.readVa (.engine 0) cfg.owner (m.reg64 Reg.MAP_CMD_VA) 32 = .ok b) :
    m.runMapCommand 3 slot = m.mapWriteRecords cfg slot (chunks 32 1 b) := by
  simp [State.runMapCommand, hcfg, Nat.not_le.mpr hslots, hcount, hread]

theorem State.run_snapshot {w : State} (hpin : m.pinFree 1 = true)
    (hwrite : m.writeVa (.engine 0) .engineWrite cfg.owner (m.reg64 Reg.MAP_CMD_VA) (snapshotBytes cfg (m.world slot)) = .ok w) :
    m.runMapCommand 5 slot = w.mapStatus 0 := by
  simp [State.runMapCommand, hcfg, Nat.not_le.mpr hslots, hpin, hwrite]

end Effects

/-! ### Epochs made (R265, R269, R270) -/

/-- A tree that a command gives a slot, where its nodes find places. -/
theorem State.newTree_makes {s m : State} {cfg : MapCfg} {slot : Nat} {root : Nat} {tree placed : MapTree} {heads : List Bytes} (hslot : slot < 1024)
    (hm : RegsMoved s m [Reg.MAP_CMD]) (hplaces : placedTree s.heldWorlds s.freeCtr cfg tree = some (root, placed)) :
    ∃ u, m.newEpoch cfg slot tree heads = some u ∧ EpochMade s u slot ⟨(s.world slot).epoch + 1, root, placed⟩ := by
  have hplaces' : placedTree m.heldWorlds m.freeCtr cfg tree = some (root, placed) := by rw [hm.heldWorlds, hm.freeCtr, hplaces]
  obtain ⟨u, hu, hmade⟩ := State.newEpoch_of_places (heads := heads) hslot hplaces'
  exact ⟨u, hu, hm.world slot ▸ hmade.of_asked hm⟩

section Commands
variable {who : Requester} {slot : Nat} {cfg : MapCfg} {s : State} (hready : mapReady s who = true) (hcfg : s.mapCfg? = some cfg)
include hready hcfg

theorem mapFork_makes {src : Nat} (hopen : slotOpen s cfg slot) (hsrc : src = s.fld Fld.MAP_CMD_ARG_count % 1024) (hsrc' : src < cfg.slots)
    (hpin : s.pinFree 1 = true) :
    ∃ t, exec (.mapFork who slot) s = .next t ∧ t.world slot = ⟨(s.world slot).epoch + 1, (s.world src).root, (s.world src).tree⟩ ∧
      (∀ k, k ≠ slot → t.world k = s.world k) ∧ t.map.head = s.map.head + 1 ∧ t.fld Fld.MAP_CMD_STATUS_code = 0 ∧
      t.flag Fld.MAP_CMD_STATUS_busy = mapWaits s ∧ BlocksKept s t [0x28, 6] ∧
      t = { s with regs := t.regs, phys := t.phys, flash := t.flash, map := t.map, crust := t.crust, freeCtr := t.freeCtr } := by
  obtain ⟨hslot, hslots, hidle⟩ := hopen
  have hm := s.mapAsked_moved 1 slot
  have hstart := State.mapStart_of_ready (op := 1) hready (by omega) (by omega) hslot
  generalize s.mapAsked 1 slot = m at *
  have hcount : m.fld Fld.MAP_CMD_ARG_count = s.fld Fld.MAP_CMD_ARG_count := hm.fld (by decide) (by decide)
  have hrun := State.run_fork (hm.mapCfg?.trans hcfg) hslots (hcount ▸ hsrc ▸ hsrc') (hm.fusionActive ▸ hidle) ((hm.pinFree 1).trans hpin)
  rw [hcount, ← hsrc, hm.world, hm.world] at hrun
  have hmade := (State.setWorld_made (.of_countsIn (.refl m _)) cfg hslot { s.world src with epoch := (s.world slot).epoch + 1 }
    [wholeSlot slot]).of_asked hm
  have hhead := (m.setWorld_moved cfg hslot { s.world src with epoch := (s.world slot).epoch + 1 } [wholeSlot slot]).2.2
  obtain ⟨hworld, hothers, hcode, hbusy, hkept, hhead', honly⟩ := hmade.ended rfl
  exact ⟨_, congrArg Host.Outcome.next (hstart.trans hrun), hworld, hothers, hhead'.trans (hhead.trans (by rw [hm.map]; rfl)), hcode, hbusy,
    hkept, honly⟩

theorem mapClear_makes (hopen : slotOpen s cfg slot) :
    ∃ t, exec (.mapClear who slot) s = .next t ∧ t.world slot = ⟨(s.world slot).epoch + 1, 0, .absent⟩ ∧
      (∀ k, k ≠ slot → t.world k = s.world k) ∧ t.fld Fld.MAP_CMD_STATUS_code = 0 ∧ BlocksKept s t [0x28, 6] ∧
      t = { s with regs := t.regs, phys := t.phys, flash := t.flash, map := t.map, crust := t.crust, freeCtr := t.freeCtr } := by
  obtain ⟨hslot, hslots, hidle⟩ := hopen
  have hm := s.mapAsked_moved 2 slot
  have hstart := State.mapStart_of_ready (op := 2) hready (by omega) (by omega) hslot
  generalize s.mapAsked 2 slot = m at *
  have hrun := State.run_clear (hm.mapCfg?.trans hcfg) hslots (hm.fusionActive ▸ hidle)
  obtain ⟨u, hu, hmade⟩ := State.newTree_makes (cfg := cfg) (heads := [wholeSlot slot]) hslot hm (if_pos rfl)
  rw [hu] at hrun
  obtain ⟨hworld, hothers, hcode, -, hkept, -, honly⟩ := hmade.ended rfl
  exact ⟨_, congrArg Host.Outcome.next (hstart.trans hrun), hworld, hothers, hcode, hkept, honly⟩

theorem mapLoad_runs {m : State} {tree : MapTree} (hopen : slotOpen s cfg slot) (hm : m = s.mapAsked 4 slot)
    (hread : s.readSnapshot cfg (s.reg64 Reg.MAP_CMD_VA) = .ok tree) :
    exec (.mapLoad who slot) s = .next (m.mapOutcome (m.newEpoch cfg slot tree [wholeSlot slot])) := by
  obtain ⟨hslot, hslots, hidle⟩ := hopen
  have hmoved := s.mapAsked_moved 4 slot
  have hstart := State.mapStart_of_ready (op := 4) hready (by omega) (by omega) hslot
  rw [← hm] at hmoved hstart
  have hva : m.reg64 Reg.MAP_CMD_VA = s.reg64 Reg.MAP_CMD_VA := hmoved.reg64 (by decide) (by decide)
  have hread' : m.readSnapshot cfg (m.reg64 Reg.MAP_CMD_VA) = .ok tree := by rw [hva, hmoved.readSnapshot, hread]
  exact congrArg Host.Outcome.next (hstart.trans (State.run_load (hmoved.mapCfg?.trans hcfg) hslots (hmoved.fusionActive ▸ hidle) hread'))

theorem mapLoad_makes {root : Nat} {tree placed : MapTree} (hopen : slotOpen s cfg slot)
    (hread : s.readSnapshot cfg (s.reg64 Reg.MAP_CMD_VA) = .ok tree) (hplaces : (s.placeTree cfg tree).map (·.2) = some (root, placed)) :
    ∃ t, exec (.mapLoad who slot) s = .next t ∧ t.world slot = ⟨(s.world slot).epoch + 1, root, placed⟩ ∧
      (∀ q, placed.get cfg.depth q = tree.get cfg.depth q) ∧ (∀ k, k ≠ slot → t.world k = s.world k) ∧
      t.fld Fld.MAP_CMD_STATUS_code = 0 ∧ BlocksKept s t [0x28, 6] ∧
      t = { s with regs := t.regs, phys := t.phys, flash := t.flash, map := t.map, crust := t.crust, freeCtr := t.freeCtr } := by
  have hrun := mapLoad_runs hready hcfg hopen rfl hread
  obtain ⟨u, hu, hmade⟩ := State.newTree_makes (cfg := cfg) (heads := [wholeSlot slot]) hopen.1 (s.mapAsked_moved 4 slot)
    (s.placeTree_places cfg tree ▸ hplaces)
  rw [hu] at hrun
  obtain ⟨hworld, hothers, hcode, -, hkept, -, honly⟩ := hmade.ended rfl
  exact ⟨_, hrun, hworld, State.get_placeTree hplaces cfg.depth, hothers, hcode, hkept, honly⟩

theorem mapLoad_full {tree : MapTree} (hopen : slotOpen s cfg slot) (hread : s.readSnapshot cfg (s.reg64 Reg.MAP_CMD_VA) = .ok tree)
    (hplaces : s.placeTree cfg tree = none) :
    ∃ t, exec (.mapLoad who slot) s = .next t ∧ t.map = s.map ∧ t.fld Fld.MAP_CMD_STATUS_code = 0x0580 ∧
      Counted s t Ev.MAP_EVT_STATUS_nodes_full ∧ t.crust = { s.crust with reports := s.crust.reports ++ [(0x0F, 0)] } ∧
      BlocksKept s t [0x28] ∧ t = { s with regs := t.regs, crust := t.crust } := by
  have hm := s.mapAsked_moved 4 slot
  have hrun := mapLoad_runs hready hcfg hopen rfl hread
  generalize s.mapAsked 4 slot = m at *
  have hnone : placedTree m.heldWorlds m.freeCtr cfg tree = none := by
    rw [hm.heldWorlds, hm.freeCtr, ← State.placeTree_places, hplaces]
    rfl
  rw [State.newEpoch_of_none hnone] at hrun
  exact ⟨_, hrun, noNodes_ended hm rfl⟩

end Commands

/-! ### A write of one cell (R264, R276) -/

theorem State.length_readVa {s : State} {who : Master} {ctx va n : Nat} {bs : Bytes} (h : s.readVa who ctx va n = .ok bs) : bs.length = n := by
  induction n generalizing va bs with
  | zero =>
    cases h
    rfl
  | succ n ih =>
    rw [State.readVa] at h
    split at h
    · cases h
    · split at h
      · cases h
      next hrest =>
        cases h
        rw [List.length_cons, ih hrest]

theorem chunks_one {b : Bytes} {n : Nat} (h : b.length = n) : chunks n 1 b = [b] := by
  simp [chunks, slice, ← h]

/-- A batch of one cell inside the tree. -/
theorem State.mapBatch_one (m : State) {cfg : MapCfg} {slot : Nat} {p : List Int} {q : List Nat} {f : MapCell → MapCell}
    (hinside : cfg.relative p = some q) : ∃ heads, m.mapBatch cfg slot [(p, f)] =
      m.newEpoch cfg slot ((m.world slot).tree.put cfg.depth q (f ((m.world slot).tree.get cfg.depth q))) heads := by
  have hlist : [(p, f)].filterMap (fun (w : List Int × (MapCell → MapCell)) => (cfg.relative w.1).map (fun p => (p, w.2))) = [(q, f)] := by
    simp [hinside]
  rw [State.mapBatch, hlist]
  exact ⟨_, rfl⟩

section Write
variable {who : Requester} {slot : Nat} {cfg : MapCfg} {b : Bytes} {p : List Int} {q : List Nat} {f : MapCell → MapCell} {new : MapTree}
  {s : State} (hready : mapReady s who = true) (hcfg : s.mapCfg? = some cfg) (hslot : slot < 1024) (hslots : slot < cfg.slots)
  (hcount : s.fld Fld.MAP_CMD_ARG_count = 1) (hread : s.readVa (.engine 0) cfg.owner (s.reg64 Reg.MAP_CMD_VA) 32 = .ok b)
  (hrecord : writeRecord cfg b = some (p, f)) (hinside : cfg.relative p = some q)
  (hnew : new = (s.world slot).tree.put cfg.depth q (f ((s.world slot).tree.get cfg.depth q)))
include hready hcfg hslot hslots hcount hread hrecord hinside hnew

theorem mapWrite_runs {m : State} (hm : m = s.mapAsked 3 slot) :
    ∃ heads, exec (.mapWrite who slot) s = .next (m.mapOutcome (m.newEpoch cfg slot new heads)) := by
  have hmoved := s.mapAsked_moved 3 slot
  have hstart := State.mapStart_of_ready (op := 3) hready (by omega) (by omega) hslot
  rw [← hm] at hmoved hstart
  have hva : m.reg64 Reg.MAP_CMD_VA = s.reg64 Reg.MAP_CMD_VA := hmoved.reg64 (by decide) (by decide)
  have hread' : m.readVa (.engine 0) cfg.owner (m.reg64 Reg.MAP_CMD_VA) 32 = .ok b := by rw [hva, hmoved.readVa, hread]
  have hrun := State.run_write (hmoved.mapCfg?.trans hcfg) hslots ((hmoved.fld (by decide) (by decide)).trans hcount) hread'
  obtain ⟨heads, hbatch⟩ := m.mapBatch_one (slot := slot) (f := f) hinside
  rw [hmoved.world, ← hnew] at hbatch
  refine ⟨heads, congrArg Host.Outcome.next (hstart.trans (hrun.trans ?_))⟩
  rw [chunks_one (State.length_readVa hread), State.mapWriteRecords, List.filterMap_cons_some hrecord, List.filterMap_nil, ← hbatch]
  rfl

theorem mapWrite_makes {root : Nat} {placed : MapTree} (hplaces : (s.placeTree cfg new).map (·.2) = some (root, placed)) :
    ∃ t, exec (.mapWrite who slot) s = .next t ∧ t.flag Fld.MAP_CMD_STATUS_busy = mapWaits s ∧ (∀ k, k ≠ slot → t.world k = s.world k) ∧
      t.fld Fld.MAP_CMD_STATUS_code = 0 ∧ t.world slot = ⟨(s.world slot).epoch + 1, root, placed⟩ ∧
      placed.get cfg.depth q = f ((s.world slot).tree.get cfg.depth q) ∧
      (∀ u, (∃ i < 3, u.getD i 0 % 2 ^ cfg.depth ≠ q.getD i 0 % 2 ^ cfg.depth) →
        placed.get cfg.depth u = (s.world slot).tree.get cfg.depth u) ∧
      BlocksKept s t [0x28, 6] ∧
      t = { s with regs := t.regs, phys := t.phys, flash := t.flash, map := t.map, crust := t.crust, freeCtr := t.freeCtr } := by
  obtain ⟨heads, hrun⟩ := mapWrite_runs hready hcfg hslot hslots hcount hread hrecord hinside hnew rfl
  obtain ⟨u, hu, hmade⟩ := State.newTree_makes (cfg := cfg) (heads := heads) hslot (s.mapAsked_moved 3 slot)
    (s.placeTree_places cfg new ▸ hplaces)
  have hget := State.get_placeTree hplaces cfg.depth
  rw [hu] at hrun
  obtain ⟨hworld, hothers, hcode, hbusy, hkept, -, honly⟩ := hmade.ended rfl
  refine ⟨_, hrun, hbusy, hothers, hcode, hworld, ?_, fun u hne => ?_, hkept, honly⟩
  · rw [hget, hnew, MapTree.get_put_same]
  · obtain ⟨i, hi, hne⟩ := hne
    rw [hget, hnew, MapTree.get_put_ne _ _ _ ⟨i, hi, Ne.symm hne⟩]

theorem mapWrite_full (hplaces : s.placeTree cfg new = none) :
    ∃ t, exec (.mapWrite who slot) s = .next t ∧ t.map = s.map ∧ t.fld Fld.MAP_CMD_STATUS_code = 0x0580 ∧
      Counted s t Ev.MAP_EVT_STATUS_nodes_full ∧ t.crust = { s.crust with reports := s.crust.reports ++ [(0x0F, 0)] } ∧
      BlocksKept s t [0x28] ∧ t = { s with regs := t.regs, crust := t.crust } := by
  have hm := s.mapAsked_moved 3 slot
  obtain ⟨heads, hrun⟩ := mapWrite_runs hready hcfg hslot hslots hcount hread hrecord hinside hnew rfl
  generalize s.mapAsked 3 slot = m at *
  have hnone : placedTree m.heldWorlds m.freeCtr cfg new = none := by
    rw [hm.heldWorlds, hm.freeCtr, ← State.placeTree_places, hplaces]
    rfl
  rw [State.newEpoch_of_none hnone] at hrun
  exact ⟨_, hrun, noNodes_ended hm rfl⟩

end Write

/-! ### Snapshots, and starts while a command is busy (R274, R275) -/

theorem mapSnapshot_writes {who : Requester} {slot : Nat} {cfg : MapCfg} {s w : State} (hready : mapReady s who = true)
    (hcfg : s.mapCfg? = some cfg) (hslot : slot < 1024) (hslots : slot < cfg.slots) (hpin : s.pinFree 1 = true)
    (hwrite : s.writeVa (.engine 0) .engineWrite cfg.owner (s.reg64 Reg.MAP_CMD_VA) (snapshotBytes cfg (s.world slot)) = .ok w) :
    ∃ t, exec (.mapSnapshot who slot) s = .next t ∧ t.phys = w.phys ∧ t.map = s.map ∧ t.fld Fld.MAP_CMD_STATUS_code = 0 ∧
      BlocksKept s t [0x28] ∧ t = { w with regs := t.regs } := by
  have hm := s.mapAsked_moved 5 slot
  have hstart := State.mapStart_of_ready (op := 5) hready (by omega) (by omega) hslot
  generalize s.mapAsked 5 slot = m at *
  have hva : m.reg64 Reg.MAP_CMD_VA = s.reg64 Reg.MAP_CMD_VA := hm.reg64 (by decide) (by decide)
  have hwrite' : m.writeVa (.engine 0) .engineWrite cfg.owner (m.reg64 Reg.MAP_CMD_VA) (snapshotBytes cfg (m.world slot)) =
      .ok { w with regs := m.regs } := by
    rw [hva, hm.world]
    exact hm.writeVa hwrite
  have hrun := State.run_snapshot (hm.mapCfg?.trans hcfg) hslots ((hm.pinFree 1).trans hpin) hwrite'
  obtain ⟨v, hv⟩ : ∃ v, v = { w with regs := m.regs } := ⟨_, rfl⟩
  rw [← hv] at hrun
  have hstatus := v.countsIn_mapStatus 0
  have hcode := (v.mapStatus_shows (code := 0) (by decide)).1
  generalize v.mapStatus 0 = t at *
  have hreg (a : Nat) : v.reg a = m.reg a := State.reg_congr (hv ▸ rfl) a
  have honly : t = { w with regs := t.regs } := hstatus.only.trans (hv ▸ rfl)
  refine ⟨t, congrArg Host.Outcome.next (hstart.trans hrun), (congrArg State.phys honly :), ?_, hcode, fun a ha => ?_, honly⟩
  · exact (congrArg State.map honly).trans (congrArg State.map (State.writeVa_only hwrite) :)
  · exact ((hstatus.kept a ha).trans (hreg a)).trans (hm.kept.blocksKept (by decide) a ha)

theorem mapClear_rejected {who : Requester} {slot : Nat} {s : State} (hserved : s.served who 0 0x28 false = true)
    (hbusy : s.flag Fld.MAP_CMD_STATUS_busy = true) :
    ∃ t, exec (.mapClear who slot) s = .next t ∧ Counted s t Ev.MAP_EVT_STATUS_cmd_reject ∧ t = { s with regs := t.regs } ∧
      RegsKept s t (Reg.MAP_CMD :: Ev.MAP_EVT_STATUS_cmd_reject.regs) := by
  have hmod : s.mapStart who 2 slot = s.mapStart who 2 (slot % 1024) := by
    rw [State.mapStart, State.mapStart, Nat.mod_mod]
  have hm := s.mapAsked_moved 2 (slot % 1024)
  have hstart := State.mapStart_of_busy hserved hbusy (op := 2) (by omega) (Nat.mod_lt slot (by omega : 0 < 1024))
  generalize s.mapAsked 2 (slot % 1024) = m at *
  have hevent : RegsMoved s (m.event Ev.MAP_EVT_STATUS_cmd_reject) (Reg.MAP_CMD :: Ev.MAP_EVT_STATUS_cmd_reject.regs) := hm.append (.event _ _)
  exact ⟨_, congrArg Host.Outcome.next (hmod.trans hstart), hm.counted (by decide) (by decide) (by decide), hevent.only, hevent.kept⟩

/-! ### Builds of the distance field (R272, R292) -/

/-- The field as a build that has begun leaves it. -/
def State.fieldBuilding (s : State) : State := (s.setFld Fld.MAP_STATUS_sdf_valid 0).setFld Fld.MAP_STATUS_building 1

/-- A build that has begun. -/
def State.buildBegun (s : State) (b : SdfBuild) : State :=
  { s.fieldBuilding with map := { s.fieldBuilding.map with build := some { b with begun := true } } }

section Begin
variable (s : State) (b : SdfBuild)

theorem State.beginBuild_of_source (cfg : MapCfg) {b : SdfBuild} (h : b.src < 2) : s.beginBuild cfg b = s.buildBegun b := by
  unfold State.beginBuild
  dsimp only
  rw [if_neg (by omega), if_pos (by omega)]
  rfl

theorem State.fieldBuilding_moved : RegsMoved s s.fieldBuilding [Reg.MAP_STATUS] :=
  (RegsMoved.setFld s 0 (by decide) (by simp)).trans (.setFld _ 1 (by decide) (by simp))

theorem State.flags_fieldBuilding :
    s.fieldBuilding.flag Fld.MAP_STATUS_sdf_valid = false ∧ s.fieldBuilding.flag Fld.MAP_STATUS_building = true := by
  constructor
  · rw [State.flag, State.fieldBuilding, State.fld_setFld_ne _ _ (by decide) (by decide) (.inr (by decide)), State.fld_setFld_same _ _ (by decide)]
    rfl
  · exact State.flag_setFld_same _ 1 (by decide) rfl

/-- What the begin of a build shows and keeps. -/
theorem State.buildBegun_shows {t : State} (ht : t = s.buildBegun b) :
    t.flag Fld.MAP_STATUS_sdf_valid = false ∧ t.flag Fld.MAP_STATUS_building = true ∧
      t.map = { s.map with build := some { b with begun := true } } ∧ t = { s with regs := t.regs, map := t.map } ∧
      RegsKept s t [Reg.MAP_STATUS] := by
  have hmoved := s.fieldBuilding_moved
  have hflags := s.flags_fieldBuilding
  unfold State.buildBegun at ht
  generalize s.fieldBuilding = u at *
  have hmap : t.map = { s.map with build := some { b with begun := true } } := by rw [ht, ← hmoved.map]
  have hreg (a : Nat) : t.reg a = u.reg a := State.reg_congr (ht ▸ rfl) a
  refine ⟨?_, ?_, hmap, ?_, fun a ha => (hreg a).trans (hmoved.reg ha)⟩
  · rw [← hflags.1, State.flag, State.flag, State.fld_of_reg (by decide) (hreg _)]
  · rw [← hflags.2, State.flag, State.flag, State.fld_of_reg (by decide) (hreg _)]
  · rw [ht, hmoved.only]

end Begin

theorem State.sdfBatchRuns_of_none {s : State} (h : s.plan.batch = none) : s.sdfBatchRuns = false := by
  rw [State.sdfBatchRuns, h]
  rfl

/-- The busy flag of commands as it stands. -/
theorem State.busy_mapBusy (s : State) : s.mapBusy.flag Fld.MAP_CMD_STATUS_busy = mapWaits s := by
  rw [State.mapBusy, State.flag_setFld_same _ _ (by decide) rfl, mapWaits]
  cases s.map.build.isSome || s.map.wanted.isSome <;> rfl

theorem State.mapBusy_moved (s : State) : RegsMoved s s.mapBusy [Reg.MAP_CMD_STATUS] := .setFld s _ (by decide) (by simp)

theorem mapBuildSdf_begins {who : Requester} {cfg : MapCfg} {s : State} (hready : mapReady s who = true) (hcfg : s.mapCfg? = some cfg)
    (hsrc : s.fld Fld.MAP_CMD_ARG_src < 2) (hbatch : s.plan.batch = none) :
    ∃ t, exec (.mapBuildSdf who) s = .next t ∧ t.flag Fld.MAP_STATUS_sdf_valid = false ∧ t.flag Fld.MAP_STATUS_building = true ∧
      t.flag Fld.MAP_CMD_STATUS_busy = true ∧ (∃ b, t.map.build = some b ∧ b.begun = true ∧ b.src = s.fld Fld.MAP_CMD_ARG_src ∧
        b.va = s.reg64 Reg.MAP_CMD_VA) ∧ t.map.worlds = s.map.worlds ∧ t = { s with regs := t.regs, map := t.map } ∧
      BlocksKept s t [0x28] := by
  have hm := s.mapAsked_moved 6 0
  have hstart := State.mapStart_of_ready (op := 6) (slot := 0) hready (by omega) (by omega) (by omega)
  generalize s.mapAsked 6 0 = m at *
  obtain ⟨b, hb⟩ : ∃ b : SdfBuild, b = ⟨m.fld Fld.MAP_CMD_ARG_src, m.fld Fld.MAP_CMD_ARG_count, m.fld Fld.MAP_CMD_ARG_slot,
    m.reg64 Reg.MAP_CMD_VA, false⟩ := ⟨_, rfl⟩
  have hbsrc : b.src = s.fld Fld.MAP_CMD_ARG_src := by
    rw [hb]
    exact hm.fld (f := Fld.MAP_CMD_ARG_src) (by decide) (by decide)
  have hbva : b.va = s.reg64 Reg.MAP_CMD_VA := by
    rw [hb]
    exact hm.reg64 (a := Reg.MAP_CMD_VA) (by decide) (by decide)
  have hidle : m.sdfBatchRuns = false := State.sdfBatchRuns_of_none ((congrArg (fun a => a.plan.batch) hm.only).trans hbatch)
  have hrun : m.runMapCommand 6 0 = (m.buildBegun b).mapBusy := by
    rw [← m.beginBuild_of_source cfg (hbsrc ▸ hsrc)]
    simp [State.runMapCommand, hm.mapCfg?, hcfg, State.startBuild, hidle, hb]
  obtain ⟨hvalid, hbuilding, hmap, honly, hkept⟩ := m.buildBegun_shows b rfl
  have hbusy := (m.buildBegun b).busy_mapBusy
  have hstatus := (m.buildBegun b).mapBusy_moved
  generalize m.buildBegun b = u at *
  generalize u.mapBusy = t at *
  have hmap' : t.map = { s.map with build := some { b with begun := true } } := by rw [hstatus.map, hmap, hm.map]
  refine ⟨t, congrArg Host.Outcome.next (hstart.trans hrun), ?_, ?_, ?_, ⟨{ b with begun := true }, by rw [hmap'], rfl, hbsrc, hbva⟩, by rw [hmap'], ?_, ?_⟩
  · rw [hstatus.flag (by decide) (by decide), hvalid]
  · rw [hstatus.flag (by decide) (by decide), hbuilding]
  · rw [hbusy, mapWaits, hmap]
    rfl
  · rw [hstatus.only, honly, hm.only]
  · have hall : RegsKept s t [Reg.MAP_CMD, Reg.MAP_STATUS, Reg.MAP_CMD_STATUS] :=
      ((hm.kept.mono (by simp)).trans (hkept.mono (by simp))).trans (hstatus.kept.mono (by simp))
    exact hall.blocksKept (by decide)

theorem sdfBuildBegin_begins {b : SdfBuild} {cfg : MapCfg} {s : State} (hbuild : s.map.build = some b) (hcfg : s.mapCfg? = some cfg)
    (hwaits : b.begun = false) (hsrc : b.src < 2) (hbatch : s.plan.batch = none) (hopen : s.blkOpen 0 0x28 = true) :
    ∃ t, exec .sdfBuildBegin s = .next t ∧ t.flag Fld.MAP_STATUS_sdf_valid = false ∧ t.flag Fld.MAP_STATUS_building = true ∧
      t.map = { s.map with build := some { b with begun := true } } ∧ t = { s with regs := t.regs, map := t.map } ∧
      BlocksKept s t [0x28] := by
  have hexec : exec .sdfBuildBegin s = .next (s.buildBegun b) := by
    change execSdfBuildBegin s = _
    rw [← s.beginBuild_of_source cfg hsrc]
    simp [execSdfBuildBegin, hbuild, hcfg, hwaits, State.sdfBatchRuns_of_none hbatch, hopen]
  obtain ⟨hvalid, hbuilding, hmap, honly, hkept⟩ := s.buildBegun_shows b rfl
  exact ⟨_, hexec, hvalid, hbuilding, hmap, honly, hkept.blocksKept (by decide)⟩

/-! ### The end of a build (R272) -/

/-- The registers of the map store's counts. -/
def mapCountRegs : List Nat := [Reg.MAP_NODES, Reg.MAP_PINS, Reg.MAP_DELTA_HEAD, Reg.MAP_DELTA_HEAD + 4]

theorem State.mapRegs_moved (s : State) : RegsMoved s s.mapRegs mapCountRegs :=
  ((RegsMoved.setFld s _ (by decide) (by decide)).trans (.setFld _ _ (by decide) (by decide))).trans
    (.setReg64 _ _ (by decide) (by decide))

theorem State.reg_dropPins (s : State) (owner : Option Nat) {a : Nat} (h : a / 65536 ∉ [6]) (h' : a ∉ mapCountRegs) :
    (s.dropPins owner).reg a = s.reg a :=
  ((State.mapRegs_moved _).reg h').trans ((StoreFrame.releaseNodes (s.unpinned owner) s.heldWorlds).kept a h)

/-- The field as the end of its build leaves it. -/
def State.fieldBuilt (s : State) : State :=
  { s.setFld Fld.MAP_STATUS_sdf_valid 1 with map := { s.map with build := none } }.setFld Fld.MAP_STATUS_building 0

theorem State.fieldBuilt_shows (s : State) {t : State} (ht : t = s.fieldBuilt) :
    t.flag Fld.MAP_STATUS_sdf_valid = true ∧ t.flag Fld.MAP_STATUS_building = false ∧ t.map = { s.map with build := none } ∧
      t = { s with regs := t.regs, map := t.map } ∧ RegsKept s t [Reg.MAP_STATUS] := by
  have hset : RegsMoved s (s.setFld Fld.MAP_STATUS_sdf_valid 1) [Reg.MAP_STATUS] := .setFld s 1 (by decide) (by simp)
  have hvalid := s.flag_setFld_same (f := Fld.MAP_STATUS_sdf_valid) 1 (by decide) rfl
  unfold State.fieldBuilt at ht
  generalize s.setFld Fld.MAP_STATUS_sdf_valid 1 = u at *
  obtain ⟨v, hv⟩ : ∃ v, v = { u with map := { s.map with build := none } } := ⟨_, rfl⟩
  rw [← hv] at ht
  have hmoved : RegsMoved v t [Reg.MAP_STATUS] := ht ▸ .setFld v 0 (by decide) (by simp)
  have hreg (a : Nat) : v.reg a = u.reg a := State.reg_congr (hv ▸ rfl) a
  have hmap : t.map = { s.map with build := none } := hmoved.map.trans (hv ▸ rfl)
  refine ⟨?_, ?_, hmap, ?_, fun a ha => (hmoved.reg ha).trans ((hreg a).trans (hset.reg ha))⟩
  · rw [ht, State.flag, State.fld_setFld_ne _ _ (by decide) (by decide) (.inr (by decide)), State.fld_of_reg (by decide) (hreg _)]
    exact hvalid
  · rw [ht]
    exact State.flag_setFld_same v 0 (by decide) rfl
  · rw [hmap, hmoved.only, hv, hset.only]

theorem State.finishBuild_of_ok {s m : State} {cfg : MapCfg} {b : SdfBuild} {solid : List Nat → Bool} (hsource : s.buildSource cfg b = .ok solid)
    (hwrite : s.writeVa (.engine 0) .engineWrite cfg.owner cfg.sdfVa
      (((fieldCells cfg).map (fun p => leBytes 2 (ofSigned 16 (fieldValue cfg solid (fieldCells cfg) p)))).flatten) = .ok m) :
    s.finishBuild cfg b = ((m.fieldBuilt.dropPins none).mapStatus 0).event Ev.MAP_EVT_STATUS_sdf_built := by
  rw [State.finishBuild, hsource]
  dsimp only
  rw [hwrite]
  dsimp only
  rw [State.endBuild, State.setFld_map, State.fieldBuilt]

theorem sdfBuildComplete_ends {b : SdfBuild} {cfg : MapCfg} {solid : List Nat → Bool} {m s : State} (hbuild : s.map.build = some b)
    (hbegun : b.begun = true) (hcfg : s.mapCfg? = some cfg) (hsource : s.buildSource cfg b = .ok solid)
    (hwrite : s.writeVa (.engine 0) .engineWrite cfg.owner cfg.sdfVa
      (((fieldCells cfg).map (fun p => leBytes 2 (ofSigned 16 (fieldValue cfg solid (fieldCells cfg) p)))).flatten) = .ok m) :
    ∃ t, exec .sdfBuildComplete s = .next t ∧ t.flag Fld.MAP_STATUS_sdf_valid = true ∧ t.flag Fld.MAP_STATUS_building = false ∧
      t.map.build = none ∧ t.fld Fld.MAP_CMD_STATUS_code = 0 ∧ t.flag Fld.MAP_CMD_STATUS_busy = s.map.wanted.isSome ∧
      Counted s t Ev.MAP_EVT_STATUS_sdf_built ∧ t.map.worlds = s.map.worlds ∧ t.map.pins = s.map.pins.filter (fun p => p.owner != none) ∧
      ((∀ p ∈ s.map.pins, p.owner ≠ none) → t.phys = m.phys ∧ t.flash = m.flash ∧ t.freeCtr = m.freeCtr) ∧
      BlocksKept s t [0x28, 6] ∧ t = { m with regs := t.regs, phys := t.phys, flash := t.flash, map := t.map, freeCtr := t.freeCtr } := by
  have hexec : exec .sdfBuildComplete s = .next (s.finishBuild cfg b) := by
    change execSdfBuildComplete s = _
    simp [execSdfBuildComplete, hbuild, hcfg, hbegun]
  rw [State.finishBuild_of_ok hsource hwrite] at hexec
  have hwritten := State.writeVa_only hwrite
  have hmap : m.map = s.map := (congrArg State.map hwritten :)
  have hregs (a : Nat) : m.reg a = s.reg a := State.reg_congr (congrArg State.regs hwritten :) a
  obtain ⟨hvalid, hbuilding, humap, huonly, hukept⟩ := m.fieldBuilt_shows rfl
  generalize m.fieldBuilt = u at *
  have hdrop := StoreFrame.dropPins u none
  have hdropReg {a : Nat} := u.reg_dropPins none (a := a)
  have hdropNone (h : ∀ p ∈ u.map.pins, p.owner ≠ none) : RegsMoved u (u.dropPins none) mapCountRegs :=
    State.dropPins_of_unpinned h ▸ u.mapRegs_moved
  generalize u.dropPins none = v at *
  obtain ⟨hcode, hbusy⟩ := v.mapStatus_shows (code := 0) (by decide)
  have hstatus := v.countsIn_mapStatus 0
  have hstatusReg {a : Nat} := v.reg_mapStatus_ne 0 (a := a)
  generalize v.mapStatus 0 = w at *
  have hevent := RegsMoved.event w Ev.MAP_EVT_STATUS_sdf_built
  have hcount := counted_event w (e := Ev.MAP_EVT_STATUS_sdf_built) (by decide) (by decide)
  generalize w.event Ev.MAP_EVT_STATUS_sdf_built = t at *
  have hvmap : v.map = { s.map with build := none, pins := s.map.pins.filter (fun p => p.owner != none) } := by
    rw [hdrop.map, State.unpinned, humap, hmap]
  have htmap : t.map = v.map := hevent.map.trans hstatus.map
  have hreg {a : Nat} (h6 : a / 65536 ∉ [6]) (hcounts : a ∉ mapCountRegs) (hcmd : a ≠ Reg.MAP_CMD_STATUS)
      (hev : a ∉ Ev.MAP_EVT_STATUS_sdf_built.regs) : t.reg a = u.reg a :=
    (hevent.reg hev).trans ((hstatusReg hcmd).trans (hdropReg h6 hcounts))
  have hfield : t.reg Reg.MAP_STATUS = u.reg Reg.MAP_STATUS := hreg (by decide) (by decide) (by decide) (by decide)
  have hflag {f : Fld} (hf : f.lo + f.width ≤ 32) (ha : f.addr = Reg.MAP_STATUS) : t.flag f = u.flag f := by
    rw [State.flag, State.flag, (State.fld_of_reg hf (by rw [ha, hfield]) : t.fld f = u.fld f)]
  have hmoved : StoreFrame (u.unpinned none) t [0x28, 6] :=
    ((hdrop.mono (by simp)).trans ((StoreFrame.of_countsIn hstatus).mono (by simp))).trans
      ((StoreFrame.of_countsIn ⟨hevent.only, hevent.kept.blocksKept (by decide)⟩ : StoreFrame w t [0x28]).mono (by simp))
  refine ⟨t, hexec, ?_, ?_, ?_, ?_, ?_, hcount.since ?_, ?_, ?_, fun hnone => ?_, fun a ha => ?_, ?_⟩
  · rw [hflag (by decide) rfl, hvalid]
  · rw [hflag (by decide) rfl, hbuilding]
  · rw [htmap, hvmap]
  · rw [hevent.fld (by decide) (by decide), hcode]
  · rw [hevent.flag (by decide) (by decide), hbusy, mapWaits, hvmap]
    rfl
  · rw [hstatusReg (by decide), hdropReg (by decide) (by decide), hukept.reg (by decide), hregs]
  · rw [htmap, hvmap]
  · rw [htmap, hvmap]
  · have hdropped := hdropNone (by rw [humap, hmap]; exact hnone)
    have hv : t.phys = u.phys ∧ t.flash = u.flash ∧ t.freeCtr = u.freeCtr := by
      rw [hevent.only, hstatus.only, hdropped.only]
      exact ⟨rfl, rfl, rfl⟩
    rw [hv.1, hv.2.1, hv.2.2, huonly]
    exact ⟨rfl, rfl, rfl⟩
  · have hblocks := hukept.blocksKept (blocks := [0x28, 6]) (by decide)
    exact (hmoved.kept a ha).trans ((hblocks a ha).trans (hregs a))
  · obtain ⟨regs, map, rfl⟩ : ∃ regs map, u = { m with regs := regs, map := map } := ⟨_, _, huonly⟩
    obtain ⟨x, rfl⟩ : ∃ x, t = State.withStore _ x := ⟨t, hmoved.only⟩
    rfl

/-! ### Modes (R273) -/

section Modes
variable {who : Requester} {s : State}

/-- A mode change asked for by a command holds busy. -/
theorem State.wantMode_waits (m : State) (mode : Nat) {t : State} (ht : t = m.wantMode mode true) :
    t.map.wanted = some mode ∧ t.map.cmdWaits = true ∧ t.flag Fld.MAP_CMD_STATUS_busy = true ∧ t = { m with regs := t.regs, map := t.map } ∧
      RegsKept m t [Reg.MAP_CMD_STATUS] := by
  obtain ⟨u, hu⟩ : ∃ u, u = { m with map := { m.map with wanted := some mode, cmdWaits := m.map.cmdWaits || true } } := ⟨_, rfl⟩
  have ht : t = u.mapBusy := ht.trans (hu ▸ rfl)
  have hmoved := u.mapBusy_moved
  have hbusy := u.busy_mapBusy
  rw [← ht] at hmoved hbusy
  have humap : u.map = { m.map with wanted := some mode, cmdWaits := m.map.cmdWaits || true } := hu ▸ rfl
  refine ⟨?_, ?_, ?_, ?_, fun a ha => (hmoved.reg ha).trans (State.reg_congr (hu ▸ rfl) a)⟩
  · rw [hmoved.map, humap]
  · rw [hmoved.map, humap, Bool.or_true]
  · rw [hbusy, mapWaits, humap]
    exact Bool.or_true _
  · rw [hmoved.only, hu]

theorem mapEnterTree_waits (hready : mapReady s who = true) (hlive : (s.world 0).epoch ≠ 0) :
    ∃ t, exec (.mapEnterTree who) s = .next t ∧ t.map.wanted = some 1 ∧ t.map.cmdWaits = true ∧
      t.flag Fld.MAP_CMD_STATUS_busy = true ∧ t.fld Fld.MAP_STATUS_mode = s.fld Fld.MAP_STATUS_mode ∧
      t = { s with regs := t.regs, map := t.map } ∧ RegsKept s t [Reg.MAP_CMD, Reg.MAP_CMD_STATUS] := by
  have hm := s.mapAsked_moved 7 0
  have hstart := State.mapStart_of_ready (op := 7) (slot := 0) hready (by omega) (by omega) (by omega)
  generalize s.mapAsked 7 0 = m at *
  have hrun : m.runMapCommand 7 0 = m.wantMode 1 true := by simp [State.runMapCommand, hm.world, hlive]
  obtain ⟨hwanted, hwaits, hbusy, honly, hkept⟩ := m.wantMode_waits 1 rfl
  have hall : RegsKept s (m.wantMode 1 true) [Reg.MAP_CMD, Reg.MAP_CMD_STATUS] := (hm.kept.mono (by simp)).trans (hkept.mono (by simp))
  refine ⟨_, congrArg Host.Outcome.next (hstart.trans hrun), hwanted, hwaits, hbusy, hall.fld (by decide) (by decide), ?_, hall⟩
  rw [honly, hm.only]

theorem mapEnterSdf_waits (hready : mapReady s who = true) (hvalid : s.flag Fld.MAP_STATUS_sdf_valid = true) :
    ∃ t, exec (.mapEnterSdf who) s = .next t ∧ t.map.wanted = some 0 ∧ t.flag Fld.MAP_CMD_STATUS_busy = true ∧
      t = { s with regs := t.regs, map := t.map } ∧ RegsKept s t [Reg.MAP_CMD, Reg.MAP_CMD_STATUS] := by
  have hm := s.mapAsked_moved 8 0
  have hstart := State.mapStart_of_ready (op := 8) (slot := 0) hready (by omega) (by omega) (by omega)
  generalize s.mapAsked 8 0 = m at *
  have hvalid' : m.flag Fld.MAP_STATUS_sdf_valid = true := (hm.flag (by decide) (by decide)).trans hvalid
  have hrun : m.runMapCommand 8 0 = m.wantMode 0 true := by simp [State.runMapCommand, hvalid']
  obtain ⟨hwanted, -, hbusy, honly, hkept⟩ := m.wantMode_waits 0 rfl
  refine ⟨_, congrArg Host.Outcome.next (hstart.trans hrun), hwanted, hbusy, ?_, (hm.kept.mono (by simp)).trans (hkept.mono (by simp))⟩
  rw [honly, hm.only]

theorem mapEnterSdf_invalid (hready : mapReady s who = true) (hvalid : s.flag Fld.MAP_STATUS_sdf_valid = false) :
    ∃ t, exec (.mapEnterSdf who) s = .next t ∧ t.map = s.map ∧ t.fld Fld.MAP_CMD_STATUS_code = 0x0583 ∧ t = { s with regs := t.regs } ∧
      RegsKept s t [Reg.MAP_CMD, Reg.MAP_CMD_STATUS] := by
  have hm := s.mapAsked_moved 8 0
  have hstart := State.mapStart_of_ready (op := 8) (slot := 0) hready (by omega) (by omega) (by omega)
  generalize s.mapAsked 8 0 = m at *
  have hvalid' : m.flag Fld.MAP_STATUS_sdf_valid = false := (hm.flag (by decide) (by decide)).trans hvalid
  have hrun : m.runMapCommand 8 0 = m.mapStatus 0x0583 := by simp [State.runMapCommand, hvalid']
  have hstatus : RegsMoved m (m.mapStatus 0x0583) [Reg.MAP_CMD_STATUS] :=
    (RegsMoved.setFld m _ (by decide) (by simp)).trans (State.mapBusy_moved _)
  have hall := (hm.mono (l' := [Reg.MAP_CMD, Reg.MAP_CMD_STATUS]) (by simp)).trans (hstatus.mono (by simp))
  exact ⟨_, congrArg Host.Outcome.next (hstart.trans hrun), hall.map, (m.mapStatus_shows (by decide)).1, hall.only, hall.kept⟩

/-- A mode that takes effect. -/
theorem State.modeSet_sets (s : State) {m : Nat} (hm : m < 2) {t : State} (ht : t = s.modeSet m) :
    t.fld Fld.MAP_STATUS_mode = m ∧ (s.fld Fld.MAP_STATUS_mode ≠ m → Counted s t Ev.MAP_EVT_STATUS_mode_change) := by
  obtain ⟨u, hu⟩ : ∃ u, u = { s with map := { s.map with wanted := none, cmdWaits := false } } := ⟨_, rfl⟩
  have hset : RegsMoved u (u.setFld Fld.MAP_STATUS_mode m) [Reg.MAP_STATUS] := .setFld u m (by decide) (by simp)
  have hmode : (u.setFld Fld.MAP_STATUS_mode m).fld Fld.MAP_STATUS_mode = m := by
    rw [u.fld_setFld_same (f := Fld.MAP_STATUS_mode) m (by decide)]
    exact Nat.mod_eq_of_lt hm
  have ht : t = (u.setFld Fld.MAP_STATUS_mode m).eventIf (s.fld Fld.MAP_STATUS_mode != m) Ev.MAP_EVT_STATUS_mode_change :=
    ht.trans (by rw [State.modeSet, hu])
  generalize u.setFld Fld.MAP_STATUS_mode m = v at *
  refine ⟨?_, fun hne => ?_⟩
  · rw [ht, (RegsMoved.eventIf v _ _).fld (by decide) (by decide), hmode]
  · rw [ht, bne_iff_ne.mpr hne]
    exact (counted_event v (by decide) (by decide)).since ((hset.reg (by decide)).trans (State.reg_congr (hu ▸ rfl) _))

theorem mapModeChange_changes {m : Nat} (hwanted : s.map.wanted = some m) (hm : m < 2) (hbatch : s.plan.batch = none) :
    ∃ t, exec .mapModeChange s = .next t ∧ t.fld Fld.MAP_STATUS_mode = m ∧ t.map.wanted = none ∧
      (s.fld Fld.MAP_STATUS_mode ≠ m → Counted s t Ev.MAP_EVT_STATUS_mode_change) ∧
      t.flag Fld.MAP_CMD_STATUS_busy = s.map.build.isSome ∧ (s.map.cmdWaits = true → t.fld Fld.MAP_CMD_STATUS_code = 0) ∧
      t = { s with regs := t.regs, map := t.map } ∧ BlocksKept s t [0x28] := by
  have hexec : exec .mapModeChange s = .next (if s.map.cmdWaits then (s.modeSet m).mapStatus 0 else (s.modeSet m).mapBusy) := by
    change execMapModeChange s = _
    rw [execMapModeChange, State.settleMode, hwanted]
    dsimp only
    rw [hbatch]
    rfl
  obtain ⟨hmode, hcounted⟩ := s.modeSet_sets hm rfl
  have hset := s.countsIn_modeSet m
  generalize s.modeSet m = u at *
  have humap : u.map = { s.map with wanted := none, cmdWaits := false } := hset.map
  have hwaits : mapWaits u = s.map.build.isSome := by
    rw [mapWaits, humap]
    exact Bool.or_false _
  obtain ⟨t, ht⟩ : ∃ t, t = if s.map.cmdWaits then u.mapStatus 0 else u.mapBusy := ⟨_, rfl⟩
  have hmoved : RegsMoved u t [Reg.MAP_CMD_STATUS] :=
    ht ▸ .ite ((RegsMoved.setFld u 0 (by decide) (by simp)).trans (State.mapBusy_moved _)) u.mapBusy_moved
  have hbusy : t.flag Fld.MAP_CMD_STATUS_busy = mapWaits u := by
    rw [ht]
    split
    · exact (u.mapStatus_shows (by decide)).2
    · exact u.busy_mapBusy
  rw [← ht] at hexec
  refine ⟨t, hexec, ?_, ?_, fun hne => (hcounted hne).of_reg (hmoved.reg (by decide)) (hmoved.reg (by decide)), hbusy.trans hwaits,
    fun hcmd => ?_, ?_, fun a ha => ?_⟩
  · rw [hmoved.fld (by decide) (by decide), hmode]
  · rw [hmoved.map, humap]
  · rw [ht, if_pos hcmd]
    exact (u.mapStatus_shows (by decide)).1
  · rw [hmoved.only, hset.only]
    rfl
  · exact (hmoved.kept.blocksKept (by decide) a ha).trans (hset.kept a ha)

end Modes

/-- Settles O44: a tree reads as it was written because the canonical form changes no cell (`MapTree.get_canonNode`); a command makes an epoch
through `State.setWorld`, whose effect is said once (`State.setWorld_moved`). -/
theorem mapStore : Obligations.MapStore := by
  unfold Obligations.MapStore
  refine ⟨fun d t p c => ⟨MapTree.get_put_same d t p c, fun q h => MapTree.get_put_ne d t c (differ_of_coords h)⟩, ?fork, ?clear, ?loadFull,
    ?write, ?writeFull, ?load, ?snapshot, fun _ _ _ => mapClear_rejected, fun _ _ _ => mapBuildSdf_begins, fun _ _ _ => sdfBuildBegin_begins,
    ?built, fun _ _ => mapEnterTree_waits, fun _ _ => mapEnterSdf_waits, fun _ _ => mapEnterSdf_invalid, fun _ _ => mapModeChange_changes⟩
  case fork => exact fun who slot src cfg s hready hcfg => mapFork_makes hready hcfg
  case clear => exact fun who slot cfg s hready hcfg => mapClear_makes hready hcfg
  case loadFull => exact fun who slot cfg tree s hready hcfg => mapLoad_full hready hcfg
  case write =>
    intro who slot root cfg b p q f new placed s hready hcfg hslot hslots hcount hread hrecord hinside hnew
    exact mapWrite_makes hready hcfg hslot hslots hcount hread hrecord hinside hnew
  case writeFull =>
    intro who slot cfg b p q f new s hready hcfg hslot hslots hcount hread hrecord hinside hnew
    exact mapWrite_full hready hcfg hslot hslots hcount hread hrecord hinside hnew
  case load => exact fun who slot root cfg tree placed s hready hcfg => mapLoad_makes hready hcfg
  case snapshot => exact fun who slot cfg m s => mapSnapshot_writes
  case built => exact fun b cfg solid m s => sdfBuildComplete_ends

end Sys2Proof.Machine
end

section
/-! The fusion engine's slots (chapter 14): what a cut-off and a completion move. -/

namespace Sys2Proof.Machine

/-! ### What a slot that starts moves (R248 to R255) -/

/-- The state with the registers, the memory, Crust's own state, the fusion engine and the free values of another. -/
def State.withSlot (s u : State) : State :=
  { s with regs := u.regs, phys := u.phys, crust := u.crust, fusion := u.fusion, freeCtr := u.freeCtr }

/-- The second state is the first but for registers of the fusion engine and of XLT, memory, Crust's own state and the fusion engine. -/
structure SlotFrame (s t : State) : Prop where
  only : t = s.withSlot t
  kept : BlocksKept s t [0x27, 6]

namespace SlotFrame
variable {s t u : State}

theorem refl (s : State) : SlotFrame s s := ⟨rfl, fun _ _ => rfl⟩

theorem trans (hst : SlotFrame s t) (htu : SlotFrame t u) : SlotFrame s u :=
  ⟨htu.only.trans (congrArg (fun a : State => a.withSlot u) hst.only :), fun a ha => (htu.kept a ha).trans (hst.kept a ha)⟩

theorem foldl {α : Type} {f : State → α → State} {xs : List α} (hf : ∀ a, ∀ x ∈ xs, SlotFrame a (f a x)) (s : State) :
    SlotFrame s (xs.foldl f s) := by
  induction xs generalizing s with
  | nil => exact refl s
  | cons x xs ih => exact (hf s x List.mem_cons_self).trans (ih (fun a y hy => hf a y (List.mem_cons_of_mem _ hy)) _)

theorem ite {p : Prop} [Decidable p] (ht : SlotFrame s t) (hu : SlotFrame s u) : SlotFrame s (if p then t else u) := by
  split
  · exact ht
  · exact hu

theorem of_counts {b : Nat} (h : CountsIn s t [b]) (hb : b ∈ [0x27, 6] := by simp) : SlotFrame s t := by
  obtain ⟨regs, rfl⟩ : ∃ regs, t = s.withRegs regs := ⟨_, h.only⟩
  exact ⟨rfl, fun a ha => h.kept a fun hab => ha (List.mem_singleton.mp hab ▸ hb)⟩

theorem setByte (s : State) (a : Nat) (b : BitVec 8) : SlotFrame s (s.setByte a b) := ⟨rfl, fun _ _ => rfl⟩

theorem fusion (s : State) (f : FusionSt) : SlotFrame s { s with fusion := f } := ⟨rfl, fun _ _ => rfl⟩

end SlotFrame

section Streams
variable (s : State) (owner : Nat) {i : Nat} (hi : i < 256)

/-- An event of the fusion engine. -/
theorem SlotFrame.eventAdd (n : Nat) (e : Evt) (hs : e.status / 65536 = 0x27) (hc : e.counter / 65536 = 0x27) : SlotFrame s (s.eventAdd e n) :=
  .of_counts (.eventAdd s n hs hc)

theorem SlotFrame.event (e : Evt) (hs : e.status / 65536 = 0x27) (hc : e.counter / 65536 = 0x27) : SlotFrame s (s.event e) :=
  .of_counts (.eventIf s true hs hc)

theorem SlotFrame.eventIf (c : Bool) (e : Evt) (hs : e.status / 65536 = 0x27) (hc : e.counter / 65536 = 0x27) :
    SlotFrame s (s.eventIf c e) := .of_counts (.eventIf s c hs hc)

include hi

/-- A field of a stream's register. -/
theorem SlotFrame.streamFld (lo width v : Nat) : SlotFrame s (s.setFld ⟨Reg.FUSN_STREAM i, lo, width⟩ v) :=
  .of_counts (b := 0x27) (.setFld s v (by simp only [Reg.FUSN_STREAM]; omega) (by simp only [Reg.FUSN_STREAM]; omega))

theorem State.stopFusionStream_frame (e : Nat × Nat) : SlotFrame s (s.stopFusionStream owner i e) :=
  ((SlotFrame.of_counts (b := 6) (CountsIn.xltFault s 0 owner e.1 e.2)).trans (.streamFld _ hi 0 1 1)).trans
    (.event _ _ (by decide) (by decide))

/-- An entry noted as taken. -/
def State.entryTaken (s : State) (i c want : Nat) : State :=
  ({ s with fusion := { s.fusion with taken := Sparse.put (fun _ => 0) s.fusion.taken i c } }.eventAdd
    Ev.FUSN_EVT_STATUS_drop (c - want)).setFld (Fld.FUSN_STREAM_consumed i) (s.fld (Fld.FUSN_STREAM_consumed i) + 1)

theorem State.entryTaken_frame (c want : Nat) : SlotFrame s (s.entryTaken i c want) :=
  ((SlotFrame.fusion s _).trans (.eventAdd _ _ _ (by decide) (by decide))).trans (.streamFld _ hi 16 16 _)

/-- The entries of a stream taken are samples of that stream. -/
theorem State.takeStream_frame (n fuel : Nat) (acc : List FusionSample) :
    SlotFrame s (s.takeStream owner n i fuel acc).1 ∧ ∀ y ∈ (s.takeStream owner n i fuel acc).2, y ∈ acc ∨ y.stream = i := by
  induction fuel generalizing s acc with
  | zero => exact ⟨.refl s, fun y hy => .inl hy⟩
  | succ fuel ih =>
    have hstep {u : State} (hu : SlotFrame s u) : SlotFrame s (u.takeStream owner n i fuel acc).1 ∧
        ∀ y ∈ (u.takeStream owner n i fuel acc).2, y ∈ acc ∨ y.stream = i := ⟨hu.trans (ih u acc).1, (ih u acc).2⟩
    rw [State.takeStream]
    dsimp only
    split
    next e _ => exact ⟨s.stopFusionStream_frame owner hi e, fun y hy => .inl hy⟩
    next => exact ⟨.refl s, fun y hy => .inl hy⟩
    next c x _ =>
      have htaken := s.entryTaken_frame hi c (Sparse.get (fun _ => 0) s.fusion.taken i + 1)
      split
      · exact ⟨.refl s, fun y hy => .inl hy⟩
      · split
        · exact hstep htaken
        · split
          · exact hstep (htaken.trans (.event _ Ev.FUSN_EVT_STATUS_stale (by decide) (by decide)))
          · split
            · exact hstep (htaken.trans (.fusion _ _))
            · refine ⟨htaken.trans (ih _ _).1, fun y hy => ?_⟩
              rcases (ih _ _).2 y hy with hy | hy
              · exact (List.mem_append.mp hy).imp_right fun hy => congrArg FusionSample.stream (List.mem_singleton.mp hy)
              · exact .inr hy

end Streams

/-- The samples taken at a cut-off are samples of the grid's streams. -/
theorem State.takeSamples_frame (s : State) (owner n k i : Nat) (acc : List FusionSample) (hk : i + k ≤ 256) (hacc : ∀ y ∈ acc, y.stream < 256) :
    SlotFrame s (s.takeSamples owner n k i acc).1 ∧ ∀ y ∈ (s.takeSamples owner n k i acc).2, y.stream < 256 := by
  induction k generalizing s i acc with
  | zero => exact ⟨.refl s, hacc⟩
  | succ k ih =>
    rw [State.takeSamples]
    split
    · exact ih s (i + 1) acc (by omega) hacc
    · obtain ⟨htaken, hnew⟩ := s.takeStream_frame owner (by omega : i < 256) n (fieldAt (s.fusionStream i) 0xC 2) acc
      obtain ⟨hrest, hall⟩ := ih (s.takeStream owner n i (fieldAt (s.fusionStream i) 0xC 2) acc).1 (i + 1)
        (s.takeStream owner n i (fieldAt (s.fusionStream i) 0xC 2) acc).2 (by omega)
        fun y hy => (hnew y hy).elim (hacc y) fun heq => by omega
      exact ⟨htaken.trans hrest, hall⟩

/-! ### Marks (R250, R253) -/

section Marks
variable (s : State) (g : GridFrame)

theorem State.markCell_frame (c : List Int) (stream : Nat) (hit : Bool) : SlotFrame s (s.markCell g c stream hit) := by
  unfold State.markCell
  split
  · exact .refl s
  · exact .setByte s _ _

theorem State.raiseCost_frame (c : List Int) (l : Nat) : SlotFrame s (s.raiseCost g c l) := by
  unfold State.raiseCost
  split
  · exact .ite (.setByte s _ _) (.refl s)
  · exact .refl s

theorem State.markPoint_frame (stream margin : Nat) (o e : List Int) (noReturn : Bool) (labels : List Nat) :
    SlotFrame s (s.markPoint g stream margin o e noReturn labels) := by
  unfold State.markPoint
  extract_lets cellOf ec n s1
  have hline : SlotFrame s s1 := .foldl (fun a _ _ => .ite (a.markCell_frame g _ _ _) (.refl a)) s
  exact hline.trans (.ite (s1.markCell_frame g _ _ _) ((s1.markCell_frame g _ _ _).trans (.foldl (fun a l _ => a.raiseCost_frame g _ l) _)))

end Marks

section MarkRuns
variable (m : MarkRun) (g : Option GridFrame) (grid : Option PoseSample) (i : Nat) (d : Bytes)

theorem MarkRun.point_frame (x : FusionPoint) (mount : PoseSample) : SlotFrame m.state (m.point g grid i d x mount).state := by
  unfold MarkRun.point
  dsimp only
  split
  · exact .refl m.state
  · exact m.state.markPoint_frame ..

theorem MarkRun.points_frame (ps : List FusionPoint) : SlotFrame m.state (m.points g grid i d ps).state := by
  unfold MarkRun.points
  induction ps generalizing m with
  | nil => exact .refl m.state
  | cons x xs ih =>
    refine SlotFrame.trans ?_ (ih _)
    dsimp only
    split
    · exact .refl m.state
    · split
      · exact .refl m.state
      · exact m.point_frame ..

theorem MarkRun.entries_frame (all : List FusionSample) (left : Nat) (xs : List FusionSample) :
    SlotFrame m.state (m.entries g grid all i d left xs).state := by
  induction xs generalizing m left with
  | nil => exact .refl m.state
  | cons x xs ih =>
    unfold MarkRun.entries
    extract_lets labels ps ts lost s1 m1
    have hevents : SlotFrame m.state s1 := (SlotFrame.eventAdd _ _ _ (by decide) (by decide)).trans (.eventIf _ _ _ (by decide) (by decide))
    exact hevents.trans ((m1.points_frame ..).trans (ih _ _))

theorem MarkRun.streams_frame (all : List FusionSample) (k : Nat) : SlotFrame m.state (m.streams g grid all k i).state := by
  induction k generalizing m i with
  | zero => exact .refl m.state
  | succ k ih =>
    unfold MarkRun.streams
    extract_lets d m1
    have hone : SlotFrame m.state m1.state := by
      unfold m1
      split
      · exact m.entries_frame ..
      · exact .refl m.state
    exact hone.trans (ih _ _)

end MarkRuns

/-! ### A slot that starts (R255) -/

theorem State.countLates_frame (s : State) {lates : List FusionSample} (h : ∀ y ∈ lates, y.stream < 256) : SlotFrame s (s.countLates lates) :=
  (SlotFrame.eventAdd s _ Ev.FUSN_EVT_STATUS_late (by decide) (by decide)).trans <| .foldl (fun a y hy =>
    .of_counts (b := 0x27) (.setReg a _ (by have := h y hy; simp only [Reg.FUSN_LATE]; omega))) _

/-- The slot that runs, as its start notes it. -/
def State.runNoted (s : State) (f : FusionRun) : State :=
  (({ s with fusion := { s.fusion with run := some f } } : State).afterSlot f.n).setFld Fld.FUSN_STATUS_busy 1

theorem State.runNoted_shows (s : State) (f : FusionRun) :
    SlotFrame s (s.runNoted f) ∧ (s.runNoted f).fusion.run = some f ∧ (s.runNoted f).fusion.next = f.n + 1 ∧
      (s.runNoted f).flag Fld.FUSN_STATUS_busy = true := by
  obtain ⟨u, hu⟩ : ∃ u, u = ({ s with fusion := { s.fusion with run := some f } } : State).afterSlot f.n := ⟨_, rfl⟩
  have hframe : SlotFrame s u := hu ▸ (SlotFrame.fusion s _).trans (.fusion _ _)
  have hmoved : RegsMoved u (s.runNoted f) [Reg.FUSN_STATUS] := by
    rw [State.runNoted, ← hu]
    exact .setFld u 1 (by decide) (by simp)
  have hfusion : (s.runNoted f).fusion = u.fusion := (congrArg State.fusion hmoved.only :)
  refine ⟨hframe.trans (.of_counts (b := 0x27) ⟨hmoved.only, hmoved.kept.blocksKept (by decide)⟩), ?_, ?_, ?_⟩
  · rw [hfusion, hu]
    rfl
  · rw [hfusion, hu]
    rfl
  · rw [State.runNoted, ← hu]
    exact State.flag_setFld_same u 1 (by decide) rfl

/-- A grid slot without a pose noted and reported. -/
def State.poseMissed (s : State) (missing : Bool) : State := if missing then (s.event Ev.FUSN_EVT_STATUS_grid_pose).report 0x0D 0 else s

theorem State.poseMissed_frame (s : State) (missing : Bool) :
    SlotFrame s (s.poseMissed missing) ∧ (s.poseMissed missing).fusion = s.fusion ∧
      (s.poseMissed missing).flag Fld.FUSN_STATUS_busy = s.flag Fld.FUSN_STATUS_busy := by
  unfold State.poseMissed
  split
  · exact ⟨(SlotFrame.event s _ (by decide) (by decide)).trans ⟨rfl, fun _ _ => rfl⟩, rfl,
      (RegsMoved.event s Ev.FUSN_EVT_STATUS_grid_pose).flag (by decide) (by decide)⟩
  · exact ⟨.refl s, rfl, rfl⟩

theorem State.startSlot_starts (s : State) (r : Bytes) (owner n : Nat) {t : State} (ht : t = s.startSlot r owner n) :
    SlotFrame s t ∧ (∃ f, t.fusion.run = some f ∧ f.n = n) ∧ t.fusion.next = n + 1 ∧ t.flag Fld.FUSN_STATUS_busy = true := by
  have hstreams : fieldAt r 2 1 < 256 := fieldAt_lt r 2 1
  unfold State.startSlot at ht
  extract_lets at' streams x used s1 s2 grid frame s3 m applied lates s4 stopped status lidar run src s5 s6 at ht
  obtain ⟨htaken, hsamples⟩ := s.takeSamples_frame owner n streams 0 [] (by omega) (by simp)
  have hlates : ∀ y ∈ lates, y.stream < 256 := fun y hy =>
    hsamples y (List.mem_of_mem_filter (List.mem_of_mem_filter (List.mem_of_mem_filter hy)))
  have hposes : SlotFrame s1 s2 := .foldl (fun a i hi => .ite (.streamFld a (by have := List.mem_range.mp hi; omega) 1 1 _) (.refl a)) s1
  have hzero : SlotFrame s2 s3 := ⟨rfl, fun _ _ => rfl⟩
  have hmarks : SlotFrame s3 m.state := MarkRun.streams_frame ⟨s3, [], []⟩ frame grid 0 used streams
  have hs4 : SlotFrame s s4 :=
    ((((htaken.trans (.eventAdd _ _ Ev.FUSN_EVT_STATUS_unpaired (by decide) (by decide))).trans hposes).trans hzero).trans
      hmarks).trans (m.state.countLates_frame hlates)
  have ht : t = (s4.runNoted run).poseMissed grid.isNone := ht
  obtain ⟨hnoted, hrun, hnext, hbusy⟩ := s4.runNoted_shows run
  obtain ⟨hmissed, hfusion, hflag⟩ := (s4.runNoted run).poseMissed_frame grid.isNone
  rw [ht, hfusion, hflag]
  exact ⟨(hs4.trans hnoted).trans hmissed, ⟨run, hrun, rfl⟩, hnext, hbusy⟩

/-! ### A publication (R102, R255) -/

/-- A slot published beside its mailbox, before its signal. -/
def State.slotShown (m : State) (pubs n status lidar : Nat) : State :=
  let s2 := ({ m with fusion := { m.fusion with pubs := pubs } }.setReg64 Reg.FUSN_SLOT n).setFld Fld.FUSN_STATUS_code status
  { s2 with crust := { s2.crust with psf := { s2.crust.psf with lidar := lidar, lidarAt := some s2.now } } }

theorem State.slotShown_shows (m : State) (pubs : Nat) {n status : Nat} (lidar : Nat) (hn : n < 2 ^ 64) (hstatus : status < 65536) {t : State}
    (ht : t = m.slotShown pubs n status lidar) :
    t.reg64 Reg.FUSN_SLOT = n ∧ t.fld Fld.FUSN_STATUS_code = status ∧ t.flag Fld.FUSN_STATUS_busy = m.flag Fld.FUSN_STATUS_busy ∧
      t.fusion = { m.fusion with pubs := pubs } ∧ t.crust.psf.lidar = lidar ∧ t = { m with regs := t.regs, crust := t.crust, fusion := t.fusion } ∧
      RegsKept m t [Reg.FUSN_SLOT, Reg.FUSN_SLOT + 4, Reg.FUSN_STATUS] := by
  obtain ⟨u, hu⟩ : ∃ u, u = { m with fusion := { m.fusion with pubs := pubs } } := ⟨_, rfl⟩
  have hslot : (u.setReg64 Reg.FUSN_SLOT n).reg64 Reg.FUSN_SLOT = n := (u.reg64_setReg64 _ _).trans (Nat.mod_eq_of_lt hn)
  have hmoved : RegsMoved u (u.setReg64 Reg.FUSN_SLOT n) [Reg.FUSN_SLOT, Reg.FUSN_SLOT + 4] := .setReg64 u n (by simp) (by simp)
  rw [State.slotShown, ← hu] at ht
  generalize u.setReg64 Reg.FUSN_SLOT n = v at *
  have hcode : (v.setFld Fld.FUSN_STATUS_code status).fld Fld.FUSN_STATUS_code = status := by
    rw [v.fld_setFld_same (f := Fld.FUSN_STATUS_code) status (by decide)]
    exact Nat.mod_eq_of_lt hstatus
  have hbusy : (v.setFld Fld.FUSN_STATUS_code status).flag Fld.FUSN_STATUS_busy = v.flag Fld.FUSN_STATUS_busy := by
    rw [State.flag, State.flag, State.fld_setFld_ne _ _ (by decide) (by decide) (.inr (by decide))]
  have hmoved' : RegsMoved v (v.setFld Fld.FUSN_STATUS_code status) [Reg.FUSN_STATUS] := .setFld v status (by decide) (by simp)
  generalize v.setFld Fld.FUSN_STATUS_code status = w at *
  have hreg (a : Nat) : t.reg a = w.reg a := State.reg_congr (ht ▸ rfl) a
  have huReg (a : Nat) : u.reg a = m.reg a := State.reg_congr (hu ▸ rfl) a
  have hfusion : t.fusion = { m.fusion with pubs := pubs } := by rw [ht, hmoved'.only, hmoved.only, hu]
  refine ⟨?_, ?_, ?_, hfusion, by rw [ht], ?_, fun a ha => ?_⟩
  · rw [State.reg64, hreg, hreg, ← State.reg64, hmoved'.reg64 (by decide) (by decide), hslot]
  · rw [State.fld_of_reg (by decide) (hreg _), hcode]
  · rw [State.flag, State.fld_of_reg (by decide) (hreg _), ← State.flag, hbusy, hmoved.flag (by decide) (by decide), State.flag, State.flag,
      State.fld_of_reg (by decide) (huReg _)]
  · rw [hfusion, ht, hmoved'.only, hmoved.only, hu]
  · rw [List.mem_cons, List.mem_cons, not_or, not_or] at ha
    rw [hreg, hmoved'.reg ha.2.2, hmoved.reg (by simp [ha.1, ha.2.1]), huReg]

/-- What a publication moves. -/
theorem State.publishSlot_publishes {s m : State} {r payload : Bytes} {owner n status lidar : Nat} (hn : n < 2 ^ 64) (hstatus : status < 65536)
    (hmail : s.publishMailbox owner (fieldAt r 0x30 8) (s.fusion.pubs + 1) payload = .ok m) {t : State}
    (ht : t = s.publishSlot r owner n status lidar payload) :
    t.fusion = { s.fusion with pubs := s.fusion.pubs + 1 } ∧ t.reg64 Reg.FUSN_SLOT = n ∧ t.fld Fld.FUSN_STATUS_code = status ∧
      t.flag Fld.FUSN_STATUS_busy = s.flag Fld.FUSN_STATUS_busy ∧ t.crust.psf.lidar = lidar ∧
      RegsKept s t ([Reg.FUSN_SLOT, Reg.FUSN_SLOT + 4, Reg.FUSN_STATUS] ++ Ev.HQ_EVT_STATUS_sync_overflow.regs) ∧
      (∃ phys flash free, m = { s with phys := phys, flash := flash, freeCtr := free }) ∧
      t = { m with regs := t.regs, msix := t.msix, msixPending := t.msixPending, syncs := t.syncs, crust := t.crust, fusion := t.fusion } := by
  have hwritten := State.publishMailbox_only hmail
  have ht : t = (m.slotShown (s.fusion.pubs + 1) n status lidar).signalId (fieldAt r 0x2A 2) 1 := by
    rw [ht, State.publishSlot]
    dsimp only
    rw [hmail, State.slotShown]
  obtain ⟨hslot, hcode, hbusy, hfusion, hlidar, honly, hkept⟩ := m.slotShown_shows (s.fusion.pubs + 1) lidar hn hstatus rfl
  generalize m.slotShown (s.fusion.pubs + 1) n status lidar = u at *
  obtain ⟨hsignal, hmoved⟩ := u.signalId_moves _ _ ht
  have hcrust : t.crust = u.crust := (congrArg State.crust hmoved :)
  have htfusion : t.fusion = u.fusion := (congrArg State.fusion hmoved :)
  have hm : m.fusion = s.fusion ∧ m.regs = s.regs := by
    obtain ⟨phys, flash, free, hm⟩ := hwritten
    rw [hm]
    exact ⟨rfl, rfl⟩
  have hmReg (a : Nat) : m.reg a = s.reg a := State.reg_congr hm.2 a
  refine ⟨?_, ?_, ?_, ?_, hcrust ▸ hlidar, ?_, hwritten, ?_⟩
  · rw [htfusion, hfusion, hm.1]
  · rw [State.reg64, hsignal.reg (by decide), hsignal.reg (by decide), ← State.reg64, hslot]
  · rw [hsignal.fld (by decide) (by decide), hcode]
  · rw [hsignal.flag (by decide) (by decide), hbusy, State.flag, State.flag, State.fld_of_reg (by decide) (hmReg _)]
  · exact (RegsKept.trans (fun a _ => hmReg a) (hkept.mono (List.subset_append_left _ _))).trans (hsignal.mono (List.subset_append_right _ _))
  · rw [hcrust, htfusion]
    exact hmoved.trans (congrArg (fun a : State => { a with regs := t.regs, msix := t.msix, msixPending := t.msixPending, syncs := t.syncs })
      honly)

theorem State.publishSlot_of_error {s : State} {r payload : Bytes} {owner n status lidar : Nat} {e : Nat × Nat}
    (hmail : s.publishMailbox owner (fieldAt r 0x30 8) (s.fusion.pubs + 1) payload = .error e) :
    s.publishSlot r owner n status lidar payload = s.xltFault 0 owner e.1 e.2 := by
  rw [State.publishSlot]
  dsimp only
  rw [hmail]

/-! ### Cut-offs (R248, R255) -/

section Cutoff
variable {n owner : Nat} {r : Bytes} {s : State} (hrec : s.fusionRec = some r) (howner : s.fusionOwner = some owner)
include hrec howner

theorem exec_fusionCutoff (hactive : s.fusionActive = true) (hopen : s.blkOpen 0 0x27 = true) (hn : n = s.fusionNext r)
    (hnow : gridInstant r n + fieldAt r 0xC 4 ≤ s.now) :
    exec .fusionCutoff s = .next (if s.fusion.run.isSome then
      (s.slotSkipped n).1.publishSlot r owner n 0x0802 s.allZones (s.slotSkipped n).2 else s.startSlot r owner n) := by
  change execFusionCutoff s = _
  rw [execFusionCutoff, hrec, howner]
  dsimp only
  rw [← hn, if_neg (by simp [hactive, hopen]; omega), State.slotRuns, hactive, Bool.true_and]

theorem fusionCutoff_waits (hnow : s.now < gridInstant r (s.fusionNext r) + fieldAt r 0xC 4) : exec .fusionCutoff s = .next s := by
  change execFusionCutoff s = _
  rw [execFusionCutoff, hrec, howner]
  dsimp only
  rw [if_pos (.inr (.inr hnow))]

theorem fusionCutoff_starts (hactive : s.fusionActive = true) (hopen : s.blkOpen 0 0x27 = true) (hn : n = s.fusionNext r)
    (hnow : gridInstant r n + fieldAt r 0xC 4 ≤ s.now) (hidle : s.fusion.run = none) :
    ∃ t, exec .fusionCutoff s = .next t ∧ (∃ f, t.fusion.run = some f ∧ f.n = n) ∧ t.fusion.next = n + 1 ∧
      t.flag Fld.FUSN_STATUS_busy = true ∧ t.map = s.map ∧ BlocksKept s t [0x27, 6] ∧
      t = { s with regs := t.regs, phys := t.phys, crust := t.crust, fusion := t.fusion, freeCtr := t.freeCtr } := by
  obtain ⟨hframe, hrun, hnext, hbusy⟩ := s.startSlot_starts r owner n rfl
  refine ⟨_, ?_, hrun, hnext, hbusy, (congrArg State.map hframe.only :), hframe.kept, hframe.only⟩
  rw [exec_fusionCutoff hrec howner hactive hopen hn hnow, hidle]
  rfl

end Cutoff

/-! ### Slots that are skipped (R255) -/

section Skipped
variable {n : Nat} {s : State}

theorem State.slotSkipped_shows {u : State} (hu : u = (s.slotSkipped n).1) :
    u.fusion = { s.fusion with next := n + 1, restart := none } ∧ Counted s u Ev.FUSN_EVT_STATUS_overrun ∧
      RegsKept s u Ev.FUSN_EVT_STATUS_overrun.regs ∧ u = { s with regs := u.regs, fusion := u.fusion, freeCtr := s.freeCtr + 44 } := by
  have hevent := RegsMoved.event (s.afterSlot n) Ev.FUSN_EVT_STATUS_overrun
  have hcount := counted_event (s.afterSlot n) (e := Ev.FUSN_EVT_STATUS_overrun) (by decide) (by decide)
  have hu : u = ((s.afterSlot n).event Ev.FUSN_EVT_STATUS_overrun).useFree 44 := hu
  generalize (s.afterSlot n).event Ev.FUSN_EVT_STATUS_overrun = v at *
  have hreg (a : Nat) : u.reg a = v.reg a := State.reg_congr (hu ▸ rfl) a
  have hfusion : v.fusion = { s.fusion with next := n + 1, restart := none } := (congrArg State.fusion hevent.only :)
  refine ⟨?_, (hcount.since rfl).of_reg (hreg _) (hreg _), fun a ha => (hreg a).trans (hevent.reg ha), ?_⟩
  · rw [hu, ← hfusion]
    rfl
  · rw [hu, hevent.only]
    rfl

variable {owner : Nat} {r : Bytes} {f : FusionRun} (hrec : s.fusionRec = some r) (howner : s.fusionOwner = some owner)
  (hactive : s.fusionActive = true) (hopen : s.blkOpen 0 0x27 = true) (hn : n = s.fusionNext r)
  (hnow : gridInstant r n + fieldAt r 0xC 4 ≤ s.now) (hruns : s.fusion.run = some f)
include hrec howner hactive hopen hn hnow hruns

theorem exec_fusionCutoff_skipped : exec .fusionCutoff s =
    .next ((s.slotSkipped n).1.publishSlot r owner n 0x0802 s.allZones (s.slotSkipped n).2) := by
  rw [exec_fusionCutoff hrec howner hactive hopen hn hnow, hruns]
  rfl

theorem fusionCutoff_skips {m : State} (hsmall : n < 2 ^ 64)
    (hmail : (s.slotSkipped n).1.publishMailbox owner (fieldAt r 0x30 8) (s.fusion.pubs + 1) (s.slotSkipped n).2 = .ok m) :
    ∃ t, exec .fusionCutoff s = .next t ∧ t.fusion.run = some f ∧ t.fusion.next = n + 1 ∧ t.fusion.restart = none ∧
      t.fld Fld.FUSN_STATUS_code = 0x0802 ∧ t.reg64 Reg.FUSN_SLOT = n ∧ Counted s t Ev.FUSN_EVT_STATUS_overrun ∧ t.phys = m.phys ∧
      t.map = s.map ∧ BlocksKept s t [0x27, 0x145] ∧
      t = { s with regs := t.regs, msix := t.msix, msixPending := t.msixPending, phys := t.phys, flash := m.flash, syncs := t.syncs,
                   crust := t.crust, fusion := t.fusion, freeCtr := m.freeCtr } := by
  have hexec := exec_fusionCutoff_skipped hrec howner hactive hopen hn hnow hruns
  obtain ⟨hufusion, hcounted, hukept, huonly⟩ := s.slotSkipped_shows (n := n) rfl
  generalize (s.slotSkipped n).1 = u at *
  obtain ⟨hfusion, hslot, hcode, -, -, hkept, hwritten, honly⟩ :=
    State.publishSlot_publishes (s := u) (status := 0x0802) (lidar := s.allZones) hsmall (by decide) (by rw [hufusion]; exact hmail) rfl
  generalize u.publishSlot r owner n 0x0802 s.allZones (s.slotSkipped n).2 = t at *
  refine ⟨t, hexec, ?_, ?_, ?_, hcode, hslot, hcounted.of_reg (hkept.reg (by decide)) (hkept.reg (by decide)),
    (congrArg State.phys honly :), ?_, fun a ha => ?_, ?_⟩
  · rw [hfusion, hufusion]
    exact hruns
  · rw [hfusion, hufusion]
  · rw [hfusion, hufusion]
  · obtain ⟨phys, flash, free, hm⟩ := hwritten
    rw [honly, hm, huonly]
  · exact (hkept.blocksKept (by decide) a ha).trans (hukept.blocksKept (by decide) a ha)
  · have hphys : t.phys = m.phys := (congrArg State.phys honly :)
    rw [hphys]
    obtain ⟨phys, flash, free, rfl⟩ := hwritten
    obtain ⟨regs, fusion, rfl⟩ : ∃ regs fusion, u = { s with regs := regs, fusion := fusion, freeCtr := s.freeCtr + 44 } := ⟨_, _, huonly⟩
    exact honly

theorem fusionCutoff_skipFaults {e : Nat × Nat}
    (hmail : (s.slotSkipped n).1.publishMailbox owner (fieldAt r 0x30 8) (s.fusion.pubs + 1) (s.slotSkipped n).2 = .error e) :
    ∃ t, exec .fusionCutoff s = .next t ∧ t.fusion = { s.fusion with next := n + 1, restart := none } ∧
      Counted s t Ev.FUSN_EVT_STATUS_overrun ∧ BlocksKept s t [0x27, 6] ∧ t.reg Reg.FUSN_STATUS = s.reg Reg.FUSN_STATUS ∧
      t.reg64 Reg.FUSN_SLOT = s.reg64 Reg.FUSN_SLOT ∧ t = { s with regs := t.regs, fusion := t.fusion, freeCtr := s.freeCtr + 44 } := by
  have hexec := exec_fusionCutoff_skipped hrec howner hactive hopen hn hnow hruns
  obtain ⟨hufusion, hcounted, hukept, huonly⟩ := s.slotSkipped_shows (n := n) rfl
  generalize (s.slotSkipped n).1 = u at *
  rw [State.publishSlot_of_error (s := u) (by rw [hufusion]; exact hmail)] at hexec
  have hfault := CountsIn.xltFault u 0 owner e.1 e.2
  generalize u.xltFault 0 owner e.1 e.2 = t at *
  have hreg {a : Nat} (ha : a / 65536 ∉ [0 * 256 + 6]) : t.reg a = u.reg a := hfault.kept a ha
  have hfusion : t.fusion = u.fusion := (congrArg State.fusion hfault.only :)
  refine ⟨t, hexec, hfusion.trans hufusion, hcounted.of_reg (hreg (by decide)) (hreg (by decide)), fun a ha => ?_, ?_, ?_, ?_⟩
  · exact (hreg (by simp only [List.mem_cons, List.not_mem_nil, or_false, not_or] at ha ⊢; omega)).trans (hukept.blocksKept (blocks := [0x27, 6]) (by decide) a ha)
  · rw [hreg (by decide), hukept.reg (by decide)]
  · rw [State.reg64, State.reg64, hreg (by decide), hreg (by decide), hukept.reg (by decide), hukept.reg (by decide)]
  · rw [hfusion]
    obtain ⟨regs, fusion, rfl⟩ : ∃ regs fusion, u = { s with regs := regs, fusion := fusion, freeCtr := s.freeCtr + 44 } := ⟨_, _, huonly⟩
    exact hfault.only

end Skipped

/-! ### The map write of a slot that ends (R255) -/

/-- The second state is the first but for registers, memory, the flash store, Crust's own state, the map store and free values; the registers
outside the map store and XLT stay but for the count of disputed cells. -/
structure ResultFrame (s t : State) : Prop where
  only : t = { s with regs := t.regs, phys := t.phys, flash := t.flash, crust := t.crust, map := t.map, freeCtr := t.freeCtr }
  kept (a : Nat) (h : a / 65536 ∉ [0x28, 6]) (h' : a ∉ Ev.FUSN_EVT_STATUS_dispute.regs) : t.reg a = s.reg a

theorem State.newEpoch_moved {s u : State} {cfg : MapCfg} {slot : Nat} {tree : MapTree} {heads : List Bytes} (hslot : slot < 1024)
    (h : s.newEpoch cfg slot tree heads = some u) : MapMoved s u [0x28, 6] := by
  rw [State.newEpoch, Option.map_eq_some_iff] at h
  obtain ⟨x, hx, rfl⟩ := h
  exact (MapMoved.of_store ((State.placeTree_frame hx).mono (by simp))).trans (State.setWorld_moved _ cfg hslot _ _).1

theorem State.mapBatch_moved {s u : State} {cfg : MapCfg} {slot : Nat} {ws : List (List Int × (MapCell → MapCell))} (hslot : slot < 1024)
    (h : s.mapBatch cfg slot ws = some u) : MapMoved s u [0x28, 6] := by
  unfold State.mapBatch at h
  extract_lets inside s1 old new at h
  have hevents := RegsMoved.eventTimes s Ev.MAP_EVT_STATUS_outside (ws.length - inside.length)
  have hcounts : MapMoved s s1 [0x28, 6] := .of_counts ⟨hevents.only, hevents.kept.blocksKept (by decide)⟩
  split at h
  · rw [Option.some.injEq] at h
    exact h ▸ hcounts
  · exact hcounts.trans (State.newEpoch_moved hslot h)

theorem ResultFrame.of_moved {s t : State} (h : MapMoved s t [0x28, 6]) : ResultFrame s t :=
  ⟨h.only.trans (by rw [h.only]; rfl), fun a ha _ => h.kept a ha⟩

theorem ResultFrame.nodesFull (s : State) : ResultFrame s s.nodesFull :=
  ⟨rfl, fun _ ha _ => (RegsMoved.event s Ev.MAP_EVT_STATUS_nodes_full).kept.blocksKept (blocks := [0x28, 6]) (by decide) _ ha⟩

theorem ResultFrame.disputes {s t : State} (h : ResultFrame s t) (n : Nat) : ResultFrame s (t.eventAdd Ev.FUSN_EVT_STATUS_dispute n) := by
  have hadd : RegsMoved t (t.eventAdd Ev.FUSN_EVT_STATUS_dispute n) Ev.FUSN_EVT_STATUS_dispute.regs := by
    unfold State.eventAdd
    exact .ite (.refl t _) ((RegsMoved.setReg t _ (by simp [Evt.regs])).trans (.setReg _ _ (by simp [Evt.regs])))
  refine ⟨?_, fun a ha hdispute => (hadd.reg hdispute).trans (h.kept a ha hdispute)⟩
  obtain ⟨v, hv⟩ : ∃ v, v = t.eventAdd Ev.FUSN_EVT_STATUS_dispute n := ⟨_, rfl⟩
  have honly := hadd.only
  rw [← hv] at honly ⊢
  rw [honly, h.only]

theorem State.slotResult_frame (s : State) (r : Bytes) (f : FusionRun) : ResultFrame s (s.slotResult r f).1 := by
  unfold State.slotResult
  split
  · extract_lets ws disputed s1
    have hbatch : ResultFrame s s1 := by
      unfold s1
      split
      next hu => exact .of_moved (State.mapBatch_moved (by decide) hu)
      next => exact .nodesFull s
    exact hbatch.disputes _
  · exact ⟨rfl, fun _ _ _ => rfl⟩

/-! ### Completions (R255 to R257) -/

theorem State.slotEnds_shows (s : State) {t : State} (ht : t = s.slotEnds) :
    t.fusion = { s.fusion with run := none } ∧ t.flag Fld.FUSN_STATUS_busy = false ∧ RegsKept s t [Reg.FUSN_STATUS] ∧
      t = { s with regs := t.regs, fusion := t.fusion } := by
  obtain ⟨u, hu⟩ : ∃ u, u = { s with fusion := { s.fusion with run := none } } := ⟨_, rfl⟩
  have hmoved : RegsMoved u t [Reg.FUSN_STATUS] := by
    rw [ht, State.slotEnds, ← hu]
    exact .setFld u 0 (by decide) (by simp)
  have hreg (a : Nat) : u.reg a = s.reg a := State.reg_congr (hu ▸ rfl) a
  refine ⟨?_, ?_, fun a ha => (hmoved.reg ha).trans (hreg a), ?_⟩
  · exact (congrArg State.fusion hmoved.only).trans (hu ▸ rfl)
  · rw [ht, State.slotEnds]
    exact State.flag_setFld_same _ 0 (by decide) rfl
  · rw [hmoved.only, hu]

/-- The state that a completion publishes. -/
theorem State.slotResult_ends {s u : State} {r : Bytes} {f : FusionRun} (hu : u = (s.slotEnds.slotResult r f).1) :
    u.fusion = { s.fusion with run := none } ∧ u.flag Fld.FUSN_STATUS_busy = false ∧ u.reg64 Reg.FUSN_SLOT = s.reg64 Reg.FUSN_SLOT ∧
      BlocksKept s u [0x27, 0x28, 6, 0x145] ∧
      u = { s with regs := u.regs, phys := u.phys, flash := u.flash, crust := u.crust, map := u.map, fusion := u.fusion,
                   freeCtr := u.freeCtr } := by
  obtain ⟨hfusion, hbusy, hkept, honly⟩ := s.slotEnds_shows rfl
  have hresult := hu ▸ s.slotEnds.slotResult_frame r f
  generalize s.slotEnds = v at *
  have hufusion : u.fusion = v.fusion := (congrArg State.fusion hresult.only :)
  have hreg {a : Nat} (ha : a / 65536 ∉ [0x28, 6]) (hdispute : a ∉ Ev.FUSN_EVT_STATUS_dispute.regs) : u.reg a = v.reg a :=
    hresult.kept a ha hdispute
  refine ⟨hufusion.trans hfusion, ?_, ?_, fun a ha => ?_, ?_⟩
  · rw [← hbusy, State.flag, State.flag, State.fld_of_reg (by decide) (hreg (by decide) (by decide))]
  · rw [State.reg64, State.reg64, hreg (by decide) (by decide), hreg (by decide) (by decide), hkept.reg (by decide), hkept.reg (by decide)]
  · have hdispute : ∀ b ∈ Ev.FUSN_EVT_STATUS_dispute.regs, b / 65536 = 0x27 := by decide
    simp only [List.mem_cons, List.not_mem_nil, or_false, not_or] at ha
    refine (hreg (by simp [ha.2.1, ha.2.2.1]) fun hmem => ha.1 (hdispute a hmem)).trans (hkept.reg ?_)
    rw [List.mem_singleton]
    exact fun heq => ha.1 (by rw [heq]; decide)
  · rw [hresult.only, honly]

section Complete
variable {owner : Nat} {r : Bytes} {f : FusionRun} {s : State} (hrec : s.fusionRec = some r) (howner : s.fusionOwner = some owner)
  (hruns : s.fusion.run = some f)
include hrec howner hruns

theorem fusionSlotComplete_stopped (hactive : s.fusionActive = false) :
    ∃ t, exec .fusionSlotComplete s = .next t ∧ t.fusion = { s.fusion with run := none } ∧ t.flag Fld.FUSN_STATUS_busy = false ∧
      RegsKept s t [Reg.FUSN_STATUS] ∧ t = { s with regs := t.regs, fusion := t.fusion } := by
  obtain ⟨hfusion, hbusy, hkept, honly⟩ := s.slotEnds_shows rfl
  refine ⟨_, ?_, hfusion, hbusy, hkept, honly⟩
  change execFusionSlotComplete s = _
  rw [execFusionSlotComplete, hrec, howner, hruns]
  dsimp only
  rw [if_pos (by rw [State.slotRuns, hactive]; rfl)]

theorem exec_fusionSlotComplete (hactive : s.fusionActive = true) : exec .fusionSlotComplete s =
    .next ((s.slotEnds.slotResult r f).1.publishSlot r owner f.n f.status f.lidar (s.slotEnds.slotResult r f).2) := by
  change execFusionSlotComplete s = _
  rw [execFusionSlotComplete, hrec, howner, hruns]
  dsimp only
  rw [if_neg (by rw [State.slotRuns, hactive, hruns]; exact Bool.false_ne_true ∘ Eq.symm)]

theorem fusionSlotComplete_publishes {m : State} (hactive : s.fusionActive = true) (hn : f.n < 2 ^ 64) (hstatus : f.status < 65536)
    (hmail : (s.slotEnds.slotResult r f).1.publishMailbox owner (fieldAt r 0x30 8) (s.fusion.pubs + 1) (s.slotEnds.slotResult r f).2 = .ok m) :
    ∃ t, exec .fusionSlotComplete s = .next t ∧ t.fusion = { s.fusion with run := none, pubs := s.fusion.pubs + 1 } ∧
      t.flag Fld.FUSN_STATUS_busy = false ∧ t.reg64 Reg.FUSN_SLOT = f.n ∧ t.fld Fld.FUSN_STATUS_code = f.status ∧
      t.crust.psf.lidar = f.lidar ∧ t.phys = m.phys ∧ t.map = (s.slotEnds.slotResult r f).1.map ∧
      BlocksKept s t [0x27, 0x28, 6, 0x145] ∧
      t = { s with regs := t.regs, msix := t.msix, msixPending := t.msixPending, phys := t.phys, flash := t.flash, syncs := t.syncs,
                   crust := t.crust, map := t.map, fusion := t.fusion, freeCtr := t.freeCtr } := by
  have hexec := exec_fusionSlotComplete hrec howner hruns hactive
  obtain ⟨hufusion, hubusy, -, hublocks, huonly⟩ := State.slotResult_ends (s := s) (r := r) (f := f) rfl
  generalize (s.slotEnds.slotResult r f).1 = u at *
  obtain ⟨hfusion, hslot, hcode, hbusy, hlidar, hkept, hwritten, honly⟩ :=
    State.publishSlot_publishes (s := u) (lidar := f.lidar) hn hstatus (by rw [hufusion]; exact hmail) rfl
  generalize u.publishSlot r owner f.n f.status f.lidar (s.slotEnds.slotResult r f).2 = t at *
  have hmap : t.map = u.map := by
    obtain ⟨phys, flash, free, hm⟩ := hwritten
    rw [honly, hm]
  refine ⟨t, hexec, ?_, hbusy.trans hubusy, hslot, hcode, hlidar, (congrArg State.phys honly :), hmap,
    fun a ha => (hkept.blocksKept (by decide) a ha).trans (hublocks a ha), ?_⟩
  · rw [hfusion, hufusion]
  · obtain ⟨phys, flash, free, hm⟩ := hwritten
    rw [honly, hm, huonly]

theorem fusionSlotComplete_faults {e : Nat × Nat} (hactive : s.fusionActive = true)
    (hmail : (s.slotEnds.slotResult r f).1.publishMailbox owner (fieldAt r 0x30 8) (s.fusion.pubs + 1) (s.slotEnds.slotResult r f).2 =
      .error e) :
    ∃ t, exec .fusionSlotComplete s = .next t ∧ t.fusion = { s.fusion with run := none } ∧ t.flag Fld.FUSN_STATUS_busy = false ∧
      t.reg64 Reg.FUSN_SLOT = s.reg64 Reg.FUSN_SLOT ∧ t.map = (s.slotEnds.slotResult r f).1.map ∧
      t = { s with regs := t.regs, phys := t.phys, flash := t.flash, crust := t.crust, map := t.map, fusion := t.fusion,
                   freeCtr := t.freeCtr } := by
  have hexec := exec_fusionSlotComplete hrec howner hruns hactive
  obtain ⟨hufusion, hubusy, huslot, -, huonly⟩ := State.slotResult_ends (s := s) (r := r) (f := f) rfl
  generalize (s.slotEnds.slotResult r f).1 = u at *
  rw [State.publishSlot_of_error (s := u) (by rw [hufusion]; exact hmail)] at hexec
  have hfault := CountsIn.xltFault u 0 owner e.1 e.2
  generalize u.xltFault 0 owner e.1 e.2 = t at *
  have hreg {a : Nat} (ha : a / 65536 ∉ [0 * 256 + 6]) : t.reg a = u.reg a := hfault.kept a ha
  refine ⟨t, hexec, ?_, ?_, ?_, hfault.map, ?_⟩
  · exact (congrArg State.fusion hfault.only).trans hufusion
  · rw [← hubusy, State.flag, State.flag, State.fld_of_reg (by decide) (hreg (by decide))]
  · rw [← huslot, State.reg64, State.reg64, hreg (by decide), hreg (by decide)]
  · rw [hfault.only, huonly]
    rfl

end Complete

/-- Settles O42: a slot's start and its map write are framed once (`State.startSlot_starts`, `State.slotResult_frame`), and so is a publication
(`State.publishSlot_publishes`). -/
theorem fusionSlots : Obligations.FusionSlots := by
  unfold Obligations.FusionSlots
  refine ⟨?skip, ?skipFault, ?start, fun owner r s hrec howner => fusionCutoff_waits hrec howner, ?publish, ?fault, ?stopped⟩
  case skip =>
    intro n owner r f m s hrec howner hactive hopen hn hnow hruns
    exact fusionCutoff_skips hrec howner hactive hopen hn hnow hruns
  case skipFault =>
    intro n owner e r f s hrec howner hactive hopen hn hnow hruns
    exact fusionCutoff_skipFaults hrec howner hactive hopen hn hnow hruns
  case start => exact fun n owner r s hrec howner => fusionCutoff_starts hrec howner
  case publish => exact fun owner r f m s hrec howner hruns => fusionSlotComplete_publishes hrec howner hruns
  case fault => exact fun owner e r f s hrec howner hruns => fusionSlotComplete_faults hrec howner hruns
  case stopped => exact fun owner r f s hrec howner hruns => fusionSlotComplete_stopped hrec howner hruns

end Sys2Proof.Machine
end

section
/-! What every step keeps: physical memory in canonical form (log entry 4) and every rail within its bounds (R419, R420). A function of the
state that touches neither states an equivalence, so that the facts about the functions it calls rewrite its own. -/

namespace Sys2Proof.Machine

/-- Eight rails, each within its bounds: `State.railsOk` as the rails alone say it. -/
def railsWithin (l : List Rail) : Bool := decide (l.length = 8) && (List.range 8).all (fun r => railOk r (l.getD r {}))

theorem State.railsOk_eq (s : State) : s.railsOk = railsWithin s.rails := rfl

/-- Memory is in canonical form where `pm` asks for it, and the rails are within their bounds where `pr` asks for it. -/
def Sound (pm pr : Prop) (s : State) : Prop := (pm → s.phys.wf = true) ∧ (pr → railsWithin s.rails = true)

/-- A command leaves a sound state behind. -/
def SoundOut (pm pr : Prop) : Host.Outcome State Fault Refusal → Prop
  | .next t => Sound pm pr t
  | _ => True

section
variable {pm pr : Prop}

/-! ### Updates of the state -/

/-- A state is sound by its memory and its rails alone. -/
@[simp] theorem sound_mk : Sound pm pr (State.mk x0 x1 x2 x3 x4 x5 x6 x7 x8 x9 x10 x11 x12 x13 x14 x15 x16 x17 x18 x19 x20 x21 x22 x23
    x24 x25 x26 x27 x28 x29 x30 x31 x32 x33 x34 x35 x36 x37 x38 x39 x40 x41 x42 x43 x44 x45 x46 x47 x48 x49 x50 x51 x52 x53 x54 x55 x56) ↔
    (pm → x6.wf = true) ∧ (pr → railsWithin x53 = true) := Iff.rfl

@[simp] theorem sound_parts (s : State) : ((pm → s.phys.wf = true) ∧ (pr → railsWithin s.rails = true)) ↔ Sound pm pr s := Iff.rfl

@[simp] theorem sound_ite (c : Prop) [Decidable c] (s t : State) :
    Sound pm pr (if c then s else t) ↔ if c then Sound pm pr s else Sound pm pr t := by
  split <;> rfl

theorem Sound.ite {c : Prop} [Decidable c] {s t : State} (hs : c → Sound pm pr s) (ht : ¬c → Sound pm pr t) :
    Sound pm pr (if c then s else t) := by
  split
  next hc => exact hs hc
  next hc => exact ht hc

@[simp] theorem soundOut_next (s : State) : SoundOut pm pr (.next s) ↔ Sound pm pr s := Iff.rfl

@[simp] theorem soundOut_fault (e : Fault) : SoundOut pm pr (.fault e) := trivial

@[simp] theorem sound_foldl {α : Type} (f : State → α → State) (hf : ∀ a x, Sound pm pr (f a x) ↔ Sound pm pr a) (l : List α) (s : State) :
    Sound pm pr (l.foldl f s) ↔ Sound pm pr s := by
  induction l generalizing s with
  | nil => rfl
  | cons x l ih => exact (ih _).trans (hf s x)

@[simp] theorem Sound.foldl {α : Type} {f : State → α → State} (hf : ∀ a x, Sound pm pr a → Sound pm pr (f a x)) (l : List α) {s : State}
    (h : Sound pm pr s) : Sound pm pr (l.foldl f s) := by
  induction l generalizing s with
  | nil => exact h
  | cons x l ih => exact ih (hf _ _ h)

@[simp] theorem Sound.foldl_fst {α β : Type} {f : State × β → α → State × β} (hf : ∀ a x, Sound pm pr a.1 → Sound pm pr (f a x).1)
    (l : List α) {a : State × β} (h : Sound pm pr a.1) : Sound pm pr (l.foldl f a).1 := by
  induction l generalizing a with
  | nil => exact h
  | cons x l ih => exact ih (hf _ _ h)

/-! ### Writes of memory -/

@[simp] theorem Memory.wf_watch (m : Memory) (w : List Watch) : Memory.wf { m with watch := w } = m.wf := rfl


@[simp] theorem sound_setByte {s : State} (a : Nat) (b : BitVec 8) (h : Sound pm pr s) : Sound pm pr (s.setByte a b) :=
  ⟨fun hm => Memory.wf_setByte a b (h.1 hm), h.2⟩

@[simp] theorem sound_writePhys {s : State} (a : Nat) (bs : Bytes) (h : Sound pm pr s) : Sound pm pr (s.writePhys a bs) := by
  induction bs generalizing s a with
  | nil => exact h
  | cons b bs ih => exact ih (a + 1) (sound_setByte a b h)

@[simp] theorem sound_zeroRange {s : State} (b n : Nat) (h : Sound pm pr s) : Sound pm pr (s.zeroRange b n) :=
  ⟨fun hm => Memory.wf_zeroRange b n (h.1 hm), h.2⟩

@[simp] theorem sound_undefRange {s : State} (b n : Nat) (h : Sound pm pr s) : Sound pm pr (s.undefRange b n) :=
  ⟨fun hm => Memory.wf_undefRange b n (h.1 hm), h.2⟩

@[simp] theorem sound_undefRanges {s : State} (rs : List (Nat × Nat)) (h : Sound pm pr s) : Sound pm pr (s.undefRanges rs) := by
  induction rs generalizing s with
  | nil => exact h
  | cons r rs ih => exact ih (sound_undefRange r.1 r.2 h)

@[simp] theorem sound_zeroRanges {s : State} (rs : List (Nat × Nat)) (h : Sound pm pr s) : Sound pm pr (s.zeroRanges rs) := by
  induction rs generalizing s with
  | nil => exact h
  | cons r rs ih => exact ih (sound_zeroRange r.1 r.2 h)

@[simp] theorem sound_writeDie {s : State} (die x : Nat) (bs : Bytes) (h : Sound pm pr s) : Sound pm pr (s.writeDie die x bs) :=
  sound_writePhys _ bs h

/-! ### Writes of a rail -/

theorem railOk_iff {r : Nat} {x : Rail} : railOk r x = true ↔
    (lowestPoint r ≤ x.current ∧ x.current ≤ 15) ∧ (lowestPoint r ≤ x.target ∧ x.target ≤ 15) ∧
      (x.capLimit ≤ 15 ∧ x.thermLimit ≤ 15 ∧ x.droopLimit ≤ 15) ∧ (fixedRail r = true → x.current = 15 ∧ x.target = 15) := by
  cases h : fixedRail r <;> simp [railOk, and_assoc, h]

theorem lowestPoint_le (r : Nat) : lowestPoint r ≤ 15 := by
  by_cases h : r < 8
  · interval_cases r <;> decide
  · rw [lowestPoint, List.getD_eq_default _ _ (by simpa using h)]

theorem railsWithin_iff {l : List Rail} : railsWithin l = true ↔ l.length = 8 ∧ ∀ r, r < 8 → railOk r (l.getD r {}) = true := by
  simp [railsWithin, List.all_eq_true]

theorem Sound.rail {s : State} (h : Sound pm pr s) (hr : pr) (r : Nat) : railOk r (s.rail r) = true := by
  obtain ⟨hlen, hall⟩ := railsWithin_iff.mp (h.2 hr)
  by_cases h8 : r < 8
  · exact hall r h8
  · have hlow := lowestPoint_le r
    rw [State.rail, List.getD_eq_default _ _ (by omega), railOk_iff]
    simp [hlow]

theorem Sound.setRail {s : State} {r : Nat} {x : Rail} (h : Sound pm pr s) (hx : pr → railOk r x = true) : Sound pm pr (s.setRail r x) := by
  refine ⟨h.1, fun hr => railsWithin_iff.mpr ?_⟩
  obtain ⟨hlen, hall⟩ := railsWithin_iff.mp (h.2 hr)
  refine ⟨(s.length_setRail r x).trans hlen, fun q hq => ?_⟩
  have hrail := s.rail_setRail r q x
  rw [State.rail, State.rail] at hrail
  rw [hrail]
  split
  next heq => exact heq.1 ▸ hx hr
  next => exact hall q hq

/-- A rail that keeps its point and its target and whose limits are no higher than OPP_15 stays within its bounds. -/
theorem Sound.setRail_kept {s : State} {r : Nat} {y : Rail} (h : Sound pm pr s) (hc : y.current = (s.rail r).current)
    (ht : y.target = (s.rail r).target)
    (hl : (s.rail r).capLimit ≤ 15 ∧ (s.rail r).thermLimit ≤ 15 ∧ (s.rail r).droopLimit ≤ 15 →
      y.capLimit ≤ 15 ∧ y.thermLimit ≤ 15 ∧ y.droopLimit ≤ 15) : Sound pm pr (s.setRail r y) := by
  refine h.setRail fun hr => ?_
  obtain ⟨hcur, htgt, hlim, hfix⟩ := railOk_iff.mp (h.rail hr r)
  rw [railOk_iff, hc, ht]
  exact ⟨hcur, htgt, hl hlim, hfix⟩

theorem railOk_begin {r : Nat} {x : Rail} (now : Nat) : railOk r (x.begin now) = railOk r x := by
  unfold Rail.begin
  split <;> rfl

theorem State.railFloor_le (s : State) (r : Nat) : s.railFloor r ≤ 15 := Nat.min_le_left _ _

theorem State.lowestPoint_le_railFloor (s : State) (r : Nat) : lowestPoint r ≤ s.railFloor r := by
  have hlow := lowestPoint_le r
  unfold State.railFloor
  omega

theorem State.railTarget_within {s : State} {r : Nat} (h : railOk r (s.rail r) = true) :
    lowestPoint r ≤ s.railTarget r ∧ s.railTarget r ≤ 15 := by
  obtain ⟨-, -, hlim, -⟩ := railOk_iff.mp h
  have hfloor := s.railFloor_le r
  have hlow := s.lowestPoint_le_railFloor r
  have hle := lowestPoint_le r
  unfold State.railTarget
  split
  · omega
  · dsimp only
    omega

end

end Sys2Proof.Machine
end

section
namespace Sys2Proof.Machine

section
variable {pm pr : Prop}

/-! ### The functions of Machine/Ops.lean -/

@[simp] theorem sound_setReg (s : State) (a : Nat) (v : Word) : Sound pm pr (s.setReg a v) ↔ Sound pm pr s := by
  simp [State.setReg]

@[simp] theorem sound_setReg64 (s : State) (a v : Nat) : Sound pm pr (s.setReg64 a v) ↔ Sound pm pr s := by
  simp [State.setReg64]

@[simp] theorem sound_setFld (s : State) (f : Fld) (v : Nat) : Sound pm pr (s.setFld f v) ↔ Sound pm pr s := by
  simp [State.setFld]

@[simp] theorem sound_count64 (s : State) (a n : Nat) : Sound pm pr (s.count64 a n) ↔ Sound pm pr s := by
  simp [State.count64]

@[simp] theorem sound_resetBlock (s : State) (die block : Nat) : Sound pm pr (s.resetBlock die block) ↔ Sound pm pr s := by
  simp [State.resetBlock]

@[simp] theorem sound_useFree (s : State) (n : Nat) : Sound pm pr (s.useFree n) ↔ Sound pm pr s := by
  simp [State.useFree]

@[simp] theorem sound_writeHost (s : State) (a : Nat) (bs : Bytes) : Sound pm pr (s.writeHost a bs) ↔ Sound pm pr s := by
  induction bs generalizing s a with
  | nil => rfl
  | cons b bs ih => simp [State.writeHost, ih]

@[simp] theorem sound_setCtx (s : State) (k : Nat) (c : Ctx) : Sound pm pr (s.setCtx k c) ↔ Sound pm pr s := by
  simp [State.setCtx]

@[simp] theorem sound_setQueue (s : State) (k : Nat) (q : Queue) : Sound pm pr (s.setQueue k q) ↔ Sound pm pr s := by
  simp [State.setQueue]

@[simp] theorem sound_setKv (s : State) (q : Nat) (e : KvEntry) : Sound pm pr (s.setKv q e) ↔ Sound pm pr s := by
  simp [State.setKv]

@[simp] theorem sound_setRun (s : State) (r : Run) : Sound pm pr (s.setRun r) ↔ Sound pm pr s := by
  simp [State.setRun]

@[simp] theorem sound_setSlot (s : State) (key : Nat) (x : SeqSlot) : Sound pm pr (s.setSlot key x) ↔ Sound pm pr s := by
  simp [State.setSlot]

@[simp] theorem sound_setSeqCmd (s : State) (die : Nat) (c : Option SeqCmd) : Sound pm pr (s.setSeqCmd die c) ↔ Sound pm pr s := by
  simp [State.setSeqCmd]

@[simp] theorem sound_setSync (s : State) (k v : Nat) : Sound pm pr (s.setSync k v) ↔ Sound pm pr s := by
  simp [State.setSync]

@[simp] theorem sound_noteActive (s : State) (phase : Nat) : Sound pm pr (s.noteActive phase) ↔ Sound pm pr s := by
  simp [State.noteActive]

@[simp] theorem sound_noteDie (s : State) (die : Nat) : Sound pm pr (s.noteDie die) ↔ Sound pm pr s := by
  simp [State.noteDie]

/-! ### The functions of Machine/Flags.lean -/

@[simp] theorem sound_event (s : State) (e : Evt) : Sound pm pr (s.event e) ↔ Sound pm pr s := by
  simp [State.event]

@[simp] theorem sound_eventIf (s : State) (c : Bool) (e : Evt) : Sound pm pr (s.eventIf c e) ↔ Sound pm pr s := by
  simp [State.eventIf]

@[simp] theorem sound_eventTimes (s : State) (e : Evt) (n : Nat) : Sound pm pr (s.eventTimes e n) ↔ Sound pm pr s := by
  induction n generalizing s with
  | zero => rfl
  | succ n ih => simp [State.eventTimes, ih]

@[simp] theorem sound_raise (s : State) (v : Nat) : Sound pm pr (s.raise v) ↔ Sound pm pr s := by
  simp [State.raise]

@[simp] theorem sound_hqEvent (s : State) (e : Evt) : Sound pm pr (s.hqEvent e) ↔ Sound pm pr s := by
  simp [State.hqEvent]

@[simp] theorem sound_report (s : State) (event source : Nat) : Sound pm pr (s.report event source) ↔ Sound pm pr s := by
  simp [State.report]

@[simp] theorem sound_satEvents (s : State) (die : Nat) (e : SatEvents) : Sound pm pr (s.satEvents die e) ↔ Sound pm pr s := by
  simp [State.satEvents]

@[simp] theorem sound_signal (s : State) (k amount : Nat) : Sound pm pr (s.signal k amount) ↔ Sound pm pr s := by
  simp [State.signal]

@[simp] theorem sound_signalId (s : State) (i amount : Nat) : Sound pm pr (s.signalId i amount) ↔ Sound pm pr s := by
  unfold State.signalId
  split <;> simp

theorem Sound.busWrite {s : State} {who : Requester} {die block : Nat} {always : Bool} {f : State → State} (h : Sound pm pr s)
    (hf : ∀ a, Sound pm pr a → Sound pm pr (f a)) : Sound pm pr (s.busWrite who die block always f) := by
  unfold State.busWrite
  (repeat' split) <;> simp [h, hf]

@[simp] theorem sound_busWrite (s : State) (who : Requester) (die block : Nat) (always : Bool) (f : State → State)
    (hf : ∀ a, Sound pm pr (f a) ↔ Sound pm pr a) : Sound pm pr (s.busWrite who die block always f) ↔ Sound pm pr s := by
  unfold State.busWrite
  (repeat' split) <;> simp [hf]

/-! ### The functions of Machine/Translate.lean -/

@[simp] theorem sound_renewCodeword (s : State) (c : Nat) : Sound pm pr (s.renewCodeword c) ↔ Sound pm pr s := by
  simp [State.renewCodeword]

@[simp] theorem sound_flashPut (s : State) (a : Nat) (b : BitVec 8) : Sound pm pr (s.flashPut a b) ↔ Sound pm pr s := by
  simp [State.flashPut]

@[simp] theorem sound_putVa (s : State) (who : Master) (acc : Access) (ctx va : Nat) (bs : Bytes) (h : Sound pm pr s) :
    Sound pm pr (s.putVa who acc ctx va bs) := by
  induction bs generalizing s va with
  | nil => exact h
  | cons b bs ih =>
    rw [State.putVa]
    split <;> exact ih _ _ (by simp [h])

theorem Sound.writeVa {s t : State} {who : Master} {acc : Access} {ctx va : Nat} {bs : Bytes} (h : Sound pm pr s)
    (hw : s.writeVa who acc ctx va bs = .ok t) : Sound pm pr t := by
  unfold State.writeVa at hw
  split at hw
  · cases hw
  · cases hw
    exact sound_putVa s who acc ctx va bs h

@[simp] theorem sound_countRead (s : State) (unit shifts : Nat) : Sound pm pr (s.countRead unit shifts) ↔ Sound pm pr s := by
  unfold State.countRead
  split <;> simp

@[simp] theorem sound_readCodeword (s : State) (c : Nat) (d : FlashDecode) : Sound pm pr (s.readCodeword c d) ↔ Sound pm pr s := by
  unfold State.readCodeword
  (repeat' split) <;> simp

@[simp] theorem sound_readCodewords (s : State) (ctx : Nat) (found : Found) (i : Nat) (xs : List Nat) :
    Sound pm pr (s.readCodewords ctx found i xs) ↔ Sound pm pr s := by
  induction xs generalizing s i with
  | nil => rfl
  | cons x xs ih =>
    rw [State.readCodewords]
    split
    · dsimp only
      split <;> simp [ih]
    · exact ih s (i + 1)

@[simp] theorem sound_countReads (s : State) (ctx va len : Nat) (found : Found) : Sound pm pr (s.countReads ctx va len found) ↔ Sound pm pr
    s := by
  simp [State.countReads]

@[simp] theorem sound_xltFault (s : State) (die ctx code va : Nat) : Sound pm pr (s.xltFault die ctx code va) ↔ Sound pm pr s := by
  simp [State.xltFault]

@[simp] theorem sound_accessFault (s : State) (die ctx code va : Nat) : Sound pm pr (s.accessFault die ctx code va) ↔ Sound pm pr s := by
  simp [State.accessFault]

@[simp] theorem sound_tlbFill (s : State) (die locked : Nat) (e : TlbEntry) : Sound pm pr (s.tlbFill die locked e) ↔ Sound pm pr s := by
  simp [State.tlbFill]

@[simp] theorem sound_tlbEvict (s : State) (die n : Nat) : Sound pm pr (s.tlbEvict die n) ↔ Sound pm pr s := by
  induction n generalizing s with
  | zero => rfl
  | succ n ih => simp [State.tlbEvict, ih]

@[simp] theorem sound_tlbDrop (s : State) (gone : TlbEntry → Bool) : Sound pm pr (s.tlbDrop gone) ↔ Sound pm pr s := by
  simp [State.tlbDrop]

/-! ### The functions of Machine/Operands.lean -/

@[simp] theorem sound_writeRow (s : State) (t : Tensor) (row : Nat) (qs : List Int) (h : Sound pm pr s) : Sound pm pr (s.writeRow t row qs)
    := by
  simp [State.writeRow, h]

@[simp] theorem sound_writeRows (s : State) (t : Tensor) (row : Nat) (qs : List (List Int)) (h : Sound pm pr s) :
    Sound pm pr (s.writeRows t row qs) := by
  induction qs generalizing s row with
  | nil => exact h
  | cons q qs ih => exact ih _ _ (sound_writeRow s t row q h)

@[simp] theorem sound_writeScales (s : State) (die addr : Nat) (ws : List Scale) (h : Sound pm pr s) :
    Sound pm pr (s.writeScales die addr ws) := by
  induction ws generalizing s addr with
  | nil => exact h
  | cons w ws ih => exact ih _ _ (sound_writeDie die addr _ h)

/-! ### The functions of Machine/Tiles.lean -/

@[simp] theorem sound_issueRun (s : State) (r : Run) : Sound pm pr (s.issueRun r) ↔ Sound pm pr s := by
  simp [State.issueRun]

@[simp] theorem sound_OpResult_stop (s : State) (code : Nat) (h : Sound pm pr s) : Sound pm pr (OpResult.stop s code).state := by
  simp [OpResult.stop, h]

@[simp] theorem sound_writeOut (s : State) (t : Tensor) (od : OutData) (h : Sound pm pr s) : Sound pm pr (s.writeOut t od).state := by
  simp [State.writeOut, h]

@[simp] theorem sound_gemmResult (s : State) (die : Nat) (args : Bytes) (o : TileOp) (h : Sound pm pr s) : Sound pm pr
    (s.gemmResult die args o).state := by
  unfold State.gemmResult
  dsimp only
  (repeat' split) <;> simp [h]

@[simp] theorem sound_convResult (s : State) (die : Nat) (o : TileOp) (h : Sound pm pr s) : Sound pm pr (s.convResult die o).state := by
  unfold State.convResult
  (repeat' split) <;> simp [h]

@[simp] theorem sound_ewResult (s : State) (die : Nat) (args : Bytes) (o : TileOp) (h : Sound pm pr s) : Sound pm pr
    (s.ewResult die args o).state := by
  unfold State.ewResult
  dsimp only
  (repeat' split) <;> simp [h]

@[simp] theorem sound_writeRecords (s : State) (die addr : Nat) (rs : List Bytes) (h : Sound pm pr s) :
    Sound pm pr (s.writeRecords die addr rs) := by
  induction rs generalizing s addr with
  | nil => exact h
  | cons r rs ih => exact ih _ _ (sound_writeDie die addr r h)

@[simp] theorem sound_stemArgmaxResult (s : State) (die : Nat) (o : TileOp) (h : Sound pm pr s) : Sound pm pr
    (s.stemArgmaxResult die o).state := by
  unfold State.stemArgmaxResult
  (repeat' split) <;> simp [h]

@[simp] theorem sound_argmaxResult (s : State) (die : Nat) (o : TileOp) (h : Sound pm pr s) : Sound pm pr (s.argmaxResult die o).state := by
  unfold State.argmaxResult
  split <;> simp [h]

@[simp] theorem sound_eccCheck (s : State) (die : Nat) (y0 : Ecc) : Sound pm pr (s.eccCheck die y0).1 ↔ Sound pm pr s := by
  unfold State.eccCheck
  split <;> simp

@[simp] theorem sound_execOp (s : State) (r : Run) (ecc : Ecc) (f : State → OpResult)
    (hf : ∀ a, Sound pm pr a → Sound pm pr (f a).state) (h : Sound pm pr s) : Sound pm pr (s.execOp r ecc f) := by
  unfold State.execOp
  dsimp only
  split
  · simp [h]
  · simpa using hf _ ((sound_eccCheck s r.die ecc).mpr h)

@[simp] theorem sound_doTileOp (s : State) (run opcode : Nat) (ecc : Ecc) (f : Run → TileOp → State → OpResult)
    (hf : ∀ r o a, Sound pm pr a → Sound pm pr (f r o a).state) (h : Sound pm pr s) : Sound pm pr (s.doTileOp run opcode ecc f) := by
  unfold State.doTileOp
  split
  · split
    · exact sound_execOp s _ ecc _ (hf _ _) h
    · exact h
  · exact h

@[simp] theorem sound_doEngineOp (s : State) (run opcode : Nat) (ecc : Ecc) (f : Run → TileOp → State → OpResult)
    (hf : ∀ r o a, Sound pm pr a → Sound pm pr (f r o a).state) (h : Sound pm pr s) : Sound pm pr (s.doEngineOp run opcode ecc f) := by
  unfold State.doEngineOp
  split
  · split
    · exact sound_execOp s _ ecc _ (hf _ _) h
    · exact h
  · exact h

@[simp] theorem sound_execGemm (run : Nat) (ecc : Ecc) (s : State) (h : Sound pm pr s) : SoundOut pm pr (execGemm run ecc s) := by
  refine sound_doTileOp s run _ ecc _ (fun r o a ha => ?_) h
  exact sound_gemmResult a r.die r.args o ha

@[simp] theorem sound_execConv (run : Nat) (ecc : Ecc) (s : State) (h : Sound pm pr s) : SoundOut pm pr (execConv run ecc s) := by
  refine sound_doTileOp s run _ ecc _ (fun r o a ha => ?_) h
  exact sound_convResult a r.die o ha

@[simp] theorem sound_execEw (run : Nat) (ecc : Ecc) (s : State) (h : Sound pm pr s) : SoundOut pm pr (execEw run ecc s) := by
  refine sound_doTileOp s run _ ecc _ (fun r o a ha => ?_) h
  exact sound_ewResult a r.die r.args o ha

@[simp] theorem sound_execStemFirst (run : Nat) (ecc : Ecc) (s : State) (h : Sound pm pr s) : SoundOut pm pr (execStemFirst run ecc s) := by
  refine sound_doEngineOp s run _ ecc _ (fun r o a ha => ?_) h
  exact sound_convResult a r.die o ha

@[simp] theorem sound_execStemLast (run : Nat) (ecc : Ecc) (s : State) (h : Sound pm pr s) : SoundOut pm pr (execStemLast run ecc s) := by
  refine sound_doEngineOp s run _ ecc _ (fun r o a ha => ?_) h
  exact sound_convResult a r.die o ha

@[simp] theorem sound_execStemLastArgmax (run : Nat) (ecc : Ecc) (s : State) (h : Sound pm pr s) : SoundOut pm pr
    (execStemLastArgmax run ecc s) := by
  refine sound_doEngineOp s run _ ecc _ (fun r o a ha => ?_) h
  exact sound_stemArgmaxResult a r.die o ha

@[simp] theorem sound_execArgmax (run : Nat) (ecc : Ecc) (s : State) (h : Sound pm pr s) : SoundOut pm pr (execArgmax run ecc s) := by
  refine sound_doEngineOp s run _ ecc _ (fun r o a ha => ?_) h
  exact sound_argmaxResult a r.die o ha

/-! ### The functions of Machine/Kv.lean -/

@[simp] theorem sound_kvMap (s : State) (q page : Nat) (h : Sound pm pr s) : Sound pm pr (s.kvMap q page) := by
  unfold State.kvMap
  split <;> simp [h]

@[simp] theorem sound_kvMapAll (s : State) (q : Nat) (ps : List Nat) (h : Sound pm pr s) : Sound pm pr (s.kvMapAll q ps) := by
  induction ps generalizing s with
  | nil => exact h
  | cons p ps ih => exact ih _ (sound_kvMap s q p h)

@[simp] theorem sound_kvRollback (s : State) (q c : Nat) : Sound pm pr (s.kvRollback q c) ↔ Sound pm pr s := by
  simp [State.kvRollback]

@[simp] theorem sound_kvFree (s : State) (q : Nat) : Sound pm pr (s.kvFree q) ↔ Sound pm pr s := by
  simp [State.kvFree]

@[simp] theorem sound_kvSettle (s : State) (ts : List KvTouch) : Sound pm pr (s.kvSettle ts) ↔ Sound pm pr s := by
  induction ts generalizing s with
  | nil => rfl
  | cons t ts ih =>
    rw [State.kvSettle, ih]
    split <;> simp

@[simp] theorem sound_appendVec (s : State) (q layer pos kv h : Nat) (src : Tensor) (row : Nat) (hs : Sound pm pr s) : Sound pm pr
    (s.appendVec q layer pos kv h src row).1 := by
  simp [State.appendVec, hs]

@[simp] theorem sound_appendTokens (s : State) (layer : Nat) (w : KvWork) (src : Tensor) (h : Sound pm pr s) :
    Sound pm pr (s.appendTokens layer w src).1 := by
  refine Sound.foldl_fst (fun a x ha => ?_) _ h
  exact sound_appendVec a.1 _ layer _ _ _ src _ ha

@[simp] theorem sound_appendEntry (s : State) (ctx : Nat) (inv : Option Nat) (layer : Nat) (tent : Bool) (src : Tensor) (w : KvWork)
    (h : Sound pm pr s) : Sound pm pr (s.appendEntry ctx inv layer tent src w).1 := by
  unfold State.appendEntry
  dsimp only
  (repeat' split) <;> simp [h]

@[simp] theorem sound_kvAppendResult (s : State) (r : Run) (d : Bytes) (h : Sound pm pr s) : Sound pm pr (s.kvAppendResult r d).state := by
  unfold State.kvAppendResult
  dsimp only
  split
  · exact h
  · split
    · exact h
    · refine Sound.foldl_fst (fun a w ha => ?_) _ h
      exact sound_appendEntry a.1 _ _ _ _ _ w ha

@[simp] theorem sound_execKvAppend (op : Nat × Ecc) (s : State) (h : Sound pm pr s) : SoundOut pm pr (execKvAppend op s) := by
  unfold execKvAppend
  split <;> simp [h]

@[simp] theorem sound_attnResult (s : State) (r : Run) (d : Bytes) (h : Sound pm pr s) : Sound pm pr (s.attnResult r d).state := by
  unfold State.attnResult
  dsimp only
  split
  · (repeat' split) <;> try simp [h]
    all_goals exact sound_writeScales _ _ _ _ (Sound.foldl (fun a o ha => sound_writeRow a _ _ _ ha) _ h)
  · exact h

@[simp] theorem sound_execAttn (run : Nat) (ecc : Ecc) (s : State) (h : Sound pm pr s) : SoundOut pm pr (execAttn run ecc s) := by
  unfold execAttn
  rw [soundOut_next]
  split
  · exact h
  · split
    · exact sound_execOp s _ ecc _ (fun a ha => sound_attnResult a _ _ ha) h
    · exact h

theorem Sound.kvStart {s : State} {who : Requester} {op seq : Nat} {f : State → State} (h : Sound pm pr s)
    (hf : ∀ a, Sound pm pr a → Sound pm pr (f a)) : Sound pm pr (s.kvStart who op seq f) := by
  refine h.busWrite fun a ha => ?_
  dsimp only
  split
  · simpa using ha
  · exact hf _ (by simpa using ha)

@[simp] theorem sound_kvStart (s : State) (who : Requester) (op seq : Nat) (f : State → State)
    (hf : ∀ a, Sound pm pr (f a) ↔ Sound pm pr a) : Sound pm pr (s.kvStart who op seq f) ↔ Sound pm pr s := by
  refine sound_busWrite s who 1 0x41 false _ fun a => ?_
  dsimp only
  split <;> simp [hf]

@[simp] theorem sound_kvStatus (s : State) (code : Nat) : Sound pm pr (s.kvStatus code) ↔ Sound pm pr s := by
  simp [State.kvStatus]

@[simp] theorem sound_execKvCreate (who : Requester) (seq : Nat) (s : State) (h : Sound pm pr s) : SoundOut pm pr (execKvCreate who seq s)
    := by
  refine Sound.kvStart h fun a ha => ?_
  dsimp only
  split <;> simp [ha]

@[simp] theorem sound_execKvFree (who : Requester) (seq : Nat) (s : State) (h : Sound pm pr s) : SoundOut pm pr (execKvFree who seq s) := by
  simp [execKvFree, h]

@[simp] theorem sound_execKvTruncate (who : Requester) (seq : Nat) (s : State) (h : Sound pm pr s) : SoundOut pm pr
    (execKvTruncate who seq s) := by
  simp [execKvTruncate, h]

@[simp] theorem sound_execKvGrant (who : Requester) (seq : Nat) (s : State) (h : Sound pm pr s) : SoundOut pm pr (execKvGrant who seq s) :=
    by
  simp [execKvGrant, h]

@[simp] theorem sound_setRegBytes (s : State) (a n : Nat) (bs : Bytes) : Sound pm pr (s.setRegBytes a n bs) ↔ Sound pm pr s := by
  induction n generalizing s a bs with
  | zero => rfl
  | succ n ih => simp [State.setRegBytes, ih]

@[simp] theorem sound_execKvRead (who : Requester) (seq : Nat) (s : State) (h : Sound pm pr s) : SoundOut pm pr (execKvRead who seq s) := by
  simp [execKvRead, h]

@[simp] theorem sound_execKvCmdTakeEffect (s : State) (h : Sound pm pr s) : SoundOut pm pr (execKvCmdTakeEffect s) := by
  unfold execKvCmdTakeEffect
  split <;> simp [h]

@[simp] theorem sound_execKvPoolWrite (who : Requester) (pages : Bool) (value : Nat) (s : State) (h : Sound pm pr s) : SoundOut pm pr
    (execKvPoolWrite who pages value s) := by
  simp [execKvPoolWrite, h]

/-! ### The functions of Machine/Nodes.lean -/

@[simp] theorem sound_mapRegs (s : State) : Sound pm pr s.mapRegs ↔ Sound pm pr s := by
  simp [State.mapRegs]

@[simp] theorem sound_writeNode (s : State) (cfg : MapCfg) (i : Nat) (bs : Bytes) (h : Sound pm pr s) : Sound pm pr (s.writeNode cfg i bs)
    := by
  unfold State.writeNode
  split
  · exact sound_writeDie 0 _ bs h
  · split
    next hw => exact h.writeVa hw
    next => simpa using h

theorem Sound.placeTree {s t : State} {cfg : MapCfg} {tree placed : MapTree} {i : Nat} (h : Sound pm pr s)
    (hp : s.placeTree cfg tree = some (t, i, placed)) : Sound pm pr t := by
  unfold State.placeTree at hp
  split at hp
  · cases hp
    exact h
  · simp only [Option.bind_eq_some_iff, Option.map_eq_some_iff] at hp
    obtain ⟨r, -, x, -, hx⟩ := hp
    cases hx
    exact Sound.foldl (fun a p ha => sound_writeNode a cfg p.1 p.2 ha) _ (by simpa using h)

@[simp] theorem sound_releaseNodes (s : State) (before : List World) (h : Sound pm pr s) : Sound pm pr (s.releaseNodes before) := by
  unfold State.releaseNodes
  split
  · exact h
  · exact Sound.foldl (fun a i ha => sound_writeNode _ _ i _ (by simpa using ha)) _ h

@[simp] theorem sound_dropPins (s : State) (owner : Option Nat) (h : Sound pm pr s) : Sound pm pr (s.dropPins owner) := by
  simp [State.dropPins, h]

/-! ### The functions of Machine/Contexts.lean -/

@[simp] theorem sound_startRun (s : State) (ctx prog unit : Nat) (args : Bytes) (origin : Origin) : Sound pm pr
    (s.startRun ctx prog unit args origin) ↔ Sound pm pr s := by
  simp [State.startRun]

@[simp] theorem sound_setInvDone (s : State) (ctx n code : Nat) : Sound pm pr (s.setInvDone ctx n code) ↔ Sound pm pr s := by
  simp [State.setInvDone]

@[simp] theorem sound_settleActivation (s : State) (ctx k : Nat) (h : Sound pm pr s) : Sound pm pr (s.settleActivation ctx k) := by
  unfold State.settleActivation
  dsimp only
  (repeat' split) <;> simp [h]

@[simp] theorem sound_endRun (s0 : State) (r : Run) (code : Nat) (h : Sound pm pr s0) : Sound pm pr (s0.endRun r code) := by
  unfold State.endRun
  split <;> simp [h]

@[simp] theorem sound_cancelPrefetches (s : State) (r : Run) (ps : List (Nat × PrefetchPhase)) (h : Sound pm pr s) :
    Sound pm pr (s.cancelPrefetches r ps) := by
  induction ps generalizing s with
  | nil => exact h
  | cons p ps ih =>
    refine ih _ ?_
    dsimp only
    split <;> simp [h]

@[simp] theorem sound_countOp (s : State) (die opcode : Nat) : Sound pm pr (s.countOp die opcode) ↔ Sound pm pr s := by
  simp [State.countOp]

@[simp] theorem sound_dropEngineWork (s : State) (r : Run) (h : Sound pm pr s) : Sound pm pr (s.dropEngineWork r) := by
  simp [State.dropEngineWork, h]

@[simp] theorem sound_abortRun (s : State) (code : Nat) (r : Run) (h : Sound pm pr s) : Sound pm pr (s.abortRun code r) := by
  unfold State.abortRun
  dsimp only
  generalize hs1 : (State.dropEngineWork _ r).cancelPrefetches r r.prefetches = s1
  have h1 : Sound pm pr s1 := by
    rw [← hs1]
    split <;> simp [h]
  cases r.origin <;> (repeat' split) <;> simp [h1]

@[simp] theorem sound_abortRuns (s : State) (code : Nat) (rs : List Run) (h : Sound pm pr s) : Sound pm pr (s.abortRuns code rs) := by
  induction rs generalizing s with
  | nil => exact h
  | cons r rs ih => exact ih _ (sound_abortRun s code r h)

@[simp] theorem sound_startProgram (s : State) (ctx prog unit : Nat) (args : Bytes) (origin : Origin) (h : Sound pm pr s) :
    Sound pm pr (s.startProgram ctx prog unit args origin) := by
  unfold State.startProgram
  dsimp only
  split
  · cases (s.startRun ctx prog unit args origin).run? s.nextRun <;> simp [h]
  · simpa using h

@[simp] theorem sound_stopContext (s : State) (k code : Nat) (h : Sound pm pr s) : Sound pm pr (s.stopContext k code) := by
  simp [State.stopContext, h]

@[simp] theorem sound_lockEntries (s : State) (k : Nat) : Sound pm pr (s.lockEntries k) ↔ Sound pm pr s := by
  simp [State.lockEntries]

@[simp] theorem sound_dropLidar (s : State) (k : Nat) : Sound pm pr (s.dropLidar k) ↔ Sound pm pr s := by
  simp [State.dropLidar]

@[simp] theorem sound_noteRestart (s : State) (k : Nat) : Sound pm pr (s.noteRestart k) ↔ Sound pm pr s := by
  simp [State.noteRestart]

@[simp] theorem sound_enterResident (s : State) (k : Nat) : Sound pm pr (s.enterResident k) ↔ Sound pm pr s := by
  simp [State.enterResident]

@[simp] theorem sound_residencyFailed (s : State) (k code : Nat) : Sound pm pr (s.residencyFailed k code) ↔ Sound pm pr s := by
  simp [State.residencyFailed]

@[simp] theorem sound_lockFullEvents (s : State) (k n : Nat) : Sound pm pr (s.lockFullEvents k n) ↔ Sound pm pr s := by
  simp [State.lockFullEvents]

@[simp] theorem sound_finishResidency (s : State) (k : Nat) : Sound pm pr (s.finishResidency k) ↔ Sound pm pr s := by
  simp [State.finishResidency]

@[simp] theorem sound_beginResidency (s : State) (k : Nat) : Sound pm pr (s.beginResidency k) ↔ Sound pm pr s := by
  simp [State.beginResidency]

@[simp] theorem sound_startWaiting (s : State) (n : Nat) : Sound pm pr (s.startWaiting n) ↔ Sound pm pr s := by
  induction n generalizing s with
  | zero => rfl
  | succ n ih =>
    rw [State.startWaiting]
    split
    · rfl
    · split <;> simp [ih]

@[simp] theorem sound_ctxReject (s : State) : Sound pm pr s.ctxReject ↔ Sound pm pr s := by
  simp [State.ctxReject]

theorem Sound.ctxRequest {s : State} {who : Requester} {op k : Nat} {f : State → State} (h : Sound pm pr s)
    (hf : ∀ a, Sound pm pr a → Sound pm pr (f a)) : Sound pm pr (s.ctxRequest who op k f) := by
  refine h.busWrite fun a ha => ?_
  dsimp only
  split
  · simpa using ha
  · exact hf _ (by simpa using ha)

@[simp] theorem sound_ctxRequest (s : State) (who : Requester) (op k : Nat) (f : State → State)
    (hf : ∀ a, Sound pm pr (f a) ↔ Sound pm pr a) : Sound pm pr (s.ctxRequest who op k f) ↔ Sound pm pr s := by
  refine sound_busWrite s who 1 0x46 false _ fun a => ?_
  dsimp only
  split <;> simp [hf]

@[simp] theorem sound_askResidency (s : State) (k : Nat) : Sound pm pr (s.askResidency k) ↔ Sound pm pr s := by
  simp [State.askResidency]

@[simp] theorem sound_execMakeResident (who : Requester) (k : Nat) (s : State) (h : Sound pm pr s) : SoundOut pm pr
    (execMakeResident who k s) := by
  simp [execMakeResident, h]

@[simp] theorem sound_dropShares (s : State) (k : Nat) (h : Sound pm pr s) : Sound pm pr (s.dropShares k) := by
  unfold State.dropShares
  split <;> simp [h]

@[simp] theorem sound_dropSlots (s : State) (k : Nat) : Sound pm pr (s.dropSlots k) ↔ Sound pm pr s := by
  simp [State.dropSlots]

@[simp] theorem sound_execMakeNonresident (who : Requester) (k : Nat) (s : State) (h : Sound pm pr s) :
    SoundOut pm pr (execMakeNonresident who k s) := by
  refine Sound.ctxRequest h fun a ha => ?_
  dsimp only
  split <;> simp [ha]

@[simp] theorem sound_execRelease (who : Requester) (k : Nat) (s : State) (h : Sound pm pr s) : SoundOut pm pr (execRelease who k s) := by
  simp [execRelease, h]

@[simp] theorem sound_nextTransfer (s : State) (k : Nat) : Sound pm pr (s.nextTransfer k) ↔ Sound pm pr s := by
  unfold State.nextTransfer
  dsimp only
  (repeat' split) <;> simp

theorem Sound.transfer {s t : State} {ctx src dst len : Nat} (h : Sound pm pr s) (ht : s.transfer ctx src dst len = .ok t) :
    Sound pm pr t := by
  unfold State.transfer at ht
  dsimp only at ht
  split at ht
  · cases ht
  · split at ht
    · cases ht
    next hw =>
      cases ht
      have hfree : Sound pm pr { s with tierPending := none } := by simpa using h
      simpa using hfree.writeVa hw

@[simp] theorem sound_execResidencyTransferComplete (k : Nat) (found : Found) (s : State) (h : Sound pm pr s) :
    SoundOut pm pr (execResidencyTransferComplete k found s) := by
  unfold execResidencyTransferComplete
  rw [soundOut_next]
  split
  · simp only [sound_startWaiting]
    split
    · simp [h]
    · split
      · split <;> simp [h]
      next ht => exact (sound_nextTransfer _ k).mpr (Sound.transfer (by simpa using h) ht)
  · exact h

@[simp] theorem sound_execScheduleActivation (k : Nat) (s : State) (h : Sound pm pr s) : SoundOut pm pr (execScheduleActivation k s) := by
  unfold execScheduleActivation
  split <;> simp [h]

@[simp] theorem sound_noteCycles (s : State) (doms : Nat → Bool) (lost : Int) : Sound pm pr (s.noteCycles doms lost) ↔ Sound pm pr s := by
  simp [State.noteCycles]

@[simp] theorem sound_passStep (s : State) (ctx k : Nat) : Sound pm pr (s.passStep ctx k) ↔ Sound pm pr s := by
  simp [State.passStep]

@[simp] theorem sound_execScheduleStepIssue (ctx k : Nat) (s : State) (h : Sound pm pr s) : SoundOut pm pr (execScheduleStepIssue ctx k s)
    := by
  unfold execScheduleStepIssue
  dsimp only
  (repeat' split) <;> simp [h]

@[simp] theorem sound_overrun (s : State) (ctx k die : Nat) (h : Sound pm pr s) : Sound pm pr (s.overrun ctx k die) := by
  simp [State.overrun, h]

@[simp] theorem sound_execBudgetOverrun (ctx : Nat) (alone : Bool) (n : Nat) (s : State) (h : Sound pm pr s) : SoundOut pm pr
    (execBudgetOverrun ctx alone n s) := by
  unfold execBudgetOverrun
  (repeat' split) <;> simp [h]

@[simp] theorem sound_execOperationComplete (run : Nat) (s : State) (h : Sound pm pr s) : SoundOut pm pr (execOperationComplete run s) := by
  unfold execOperationComplete
  split <;> simp [h]

/-! ### The functions of Machine/Prompt.lean -/

@[simp] theorem sound_execHandoffPut (op : Nat × Ecc) (s : State) (h : Sound pm pr s) : SoundOut pm pr (execHandoffPut op s) := by
  unfold execHandoffPut
  split <;> simp [h]

@[simp] theorem sound_moveRight (s : State) (ctx : Nat) (qs : List (Nat × Nat)) : Sound pm pr (s.moveRight ctx qs) ↔ Sound pm pr s := by
  induction qs generalizing s with
  | nil => rfl
  | cons q qs ih => simp [State.moveRight, ih]

@[simp] theorem sound_settled (s : State) (ctx q : Nat) : Sound pm pr (s.settled ctx q) ↔ Sound pm pr s := by
  simp [State.settled]

@[simp] theorem sound_execHandoffPutPublish (run : Nat) (s : State) (h : Sound pm pr s) : SoundOut pm pr (execHandoffPutPublish run s) := by
  unfold execHandoffPutPublish
  rw [soundOut_next]
  split
  next r d l _ _ =>
    dsimp only
    split
    · exact h
    · split
      · simp [h]
      next t hw =>
        have ht : Sound pm pr t := Sound.writeVa (by simpa using h) hw
        cases l.syncObj (fieldAt d 0x10 2) <;> simp [ht]
  next => exact h

@[simp] theorem sound_takeRecords (s : State) (r : Run) (d : Bytes) (n : Nat) (cs : List Nat) (h : Sound pm pr s) :
    Sound pm pr (s.takeRecords r d n cs).1 := by
  induction n generalizing s cs with
  | zero => exact h
  | succ n ih =>
    unfold State.takeRecords
    dsimp only
    split
    · exact h
    · split
      · exact h
      · split
        · exact h
        · refine ih _ _ ?_
          split <;> simp [h]

@[simp] theorem sound_execHandoffTake (op : Nat × Ecc) (s : State) (h : Sound pm pr s) : SoundOut pm pr (execHandoffTake op s) := by
  unfold execHandoffTake
  dsimp only
  (repeat' split) <;> simp [h]

@[simp] theorem sound_verifyEntry (s : State) (r : Run) (d : Bytes) (i : Nat) (h : Sound pm pr s) : Sound pm pr (s.verifyEntry r d i) := by
  unfold State.verifyEntry
  dsimp only
  split
  · exact h
  · split
    · simp [h]
    · split
      · simp [h]
      · simp only [sound_count64]
        refine sound_writeDie _ _ _ (sound_writeDie _ _ _ ?_)
        split <;> simp [h]

@[simp] theorem sound_verifyEntries (s : State) (r : Run) (d : Bytes) (is : List Nat) (h : Sound pm pr s) :
    Sound pm pr (s.verifyEntries r d is) := by
  induction is generalizing s with
  | nil => exact h
  | cons i is ih => exact ih _ (sound_verifyEntry s r d i h)

@[simp] theorem sound_execSpecVerify (part : Nat × Nat × Ecc) (s : State) (h : Sound pm pr s) : SoundOut pm pr (execSpecVerify part s) := by
  unfold execSpecVerify
  split <;> simp [h]

/-! ### The functions of Machine/HostLink.lean -/

@[simp] theorem sound_bar2Put (s : State) (off : Nat) (bs : Bytes) (h : Sound pm pr s) : Sound pm pr (s.bar2Put off bs) := by
  induction bs generalizing s off with
  | nil => exact h
  | cons b bs ih =>
    refine ih _ _ ?_
    split <;> simp [h]

@[simp] theorem sound_execBar2Read (off : Nat) (got : Nat × Found) (s : State) (h : Sound pm pr s) : SoundOut pm pr (execBar2Read off got s)
    := by
  unfold execBar2Read
  dsimp only
  (repeat' split) <;> simp [h]

@[simp] theorem sound_execBar2Write (off : Nat) (data : Bytes) (s : State) (h : Sound pm pr s) : SoundOut pm pr (execBar2Write off data s)
    := by
  simp [execBar2Write, h]

@[simp] theorem sound_tailDoorbell (s : State) (k v : Nat) : Sound pm pr (s.tailDoorbell k v) ↔ Sound pm pr s := by
  simp [State.tailDoorbell]

@[simp] theorem sound_headDoorbell (s : State) (k v : Nat) : Sound pm pr (s.headDoorbell k v) ↔ Sound pm pr s := by
  simp [State.headDoorbell]

@[simp] theorem sound_execSubmissionTailDoorbell (k value : Nat) (s : State) (h : Sound pm pr s) : SoundOut pm pr
    (execSubmissionTailDoorbell k value s) := by
  simp [execSubmissionTailDoorbell, h]

@[simp] theorem sound_execCompletionHeadDoorbell (k value : Nat) (s : State) (h : Sound pm pr s) : SoundOut pm pr
    (execCompletionHeadDoorbell k value s) := by
  simp [execCompletionHeadDoorbell, h]

@[simp] theorem sound_syncSlotWrite (s : State) (id off size v : Nat) : Sound pm pr (s.syncSlotWrite id off size v) ↔ Sound pm pr s := by
  unfold State.syncSlotWrite
  (repeat' split) <;> simp

@[simp] theorem sound_execSyncSlotWrite (id off size value : Nat) (s : State) (h : Sound pm pr s) : SoundOut pm pr
    (execSyncSlotWrite id off size value s) := by
  simp [execSyncSlotWrite, h]

@[simp] theorem sound_execSyncSlotRead (id : Option Nat) (off size : Nat) (s : State) (h : Sound pm pr s) : SoundOut pm pr
    (execSyncSlotRead id off size s) := by
  unfold execSyncSlotRead
  dsimp only
  (repeat' split) <;> simp [h]

@[simp] theorem sound_msixWrite (s : State) (off size v : Nat) : Sound pm pr (s.msixWrite off size v) ↔ Sound pm pr s := by
  simp [State.msixWrite]

@[simp] theorem sound_execBar4InvalidWrite (off size value : Nat) (s : State) (h : Sound pm pr s) : SoundOut pm pr
    (execBar4InvalidWrite off size value s) := by
  simp [execBar4InvalidWrite, h]

@[simp] theorem sound_execIfPropose (who : Requester) (s : State) (h : Sound pm pr s) : SoundOut pm pr (execIfPropose who s) := by
  simp [execIfPropose, h]

@[simp] theorem sound_answerProposal (s : State) (p : Word) : Sound pm pr (s.answerProposal p) ↔ Sound pm pr s := by
  simp [State.answerProposal]

@[simp] theorem sound_execIfAnswer (s : State) (h : Sound pm pr s) : SoundOut pm pr (execIfAnswer s) := by
  unfold execIfAnswer
  split <;> simp [h]

@[simp] theorem sound_coreBack (s : State) (die : Nat) : Sound pm pr (s.coreBack die) ↔ Sound pm pr s := by
  simp [State.coreBack]

@[simp] theorem sound_execDescriptorFetch (k : Nat) (s : State) (h : Sound pm pr s) : SoundOut pm pr (execDescriptorFetch k s) := by
  simp [execDescriptorFetch, h]

@[simp] theorem sound_popFetched (s : State) (k n : Nat) : Sound pm pr (s.popFetched k n) ↔ Sound pm pr s := by
  simp [State.popFetched]

@[simp] theorem sound_addInv (s : State) (i : Invocation) : Sound pm pr (s.addInv i) ↔ Sound pm pr s := by
  simp [State.addInv]

@[simp] theorem sound_startInvocation (s : State) (l : Layout) (k n : Nat) (d : Bytes) (h : Sound pm pr s) : Sound pm pr
    (s.startInvocation l k n d) := by
  simp [State.startInvocation, h]

@[simp] theorem sound_execInvocationStart (k : Nat) (s : State) (h : Sound pm pr s) : SoundOut pm pr (execInvocationStart k s) := by
  unfold execInvocationStart
  split <;> simp [h]

@[simp] theorem sound_postRecord (s : State) (a : Nat) (b : Bytes) : Sound pm pr (s.postRecord a b) ↔ Sound pm pr s := by
  simp [State.postRecord]

@[simp] theorem sound_publish (s : State) (i : Invocation) (code : Nat) : Sound pm pr (s.publish i code) ↔ Sound pm pr s := by
  simp [State.publish]

@[simp] theorem sound_execInvocationComplete (k n : Nat) (s : State) (h : Sound pm pr s) : SoundOut pm pr (execInvocationComplete k n s) :=
    by
  unfold execInvocationComplete
  (repeat' split) <;> simp [h]

@[simp] theorem sound_queueFault (s : State) (k code : Nat) : Sound pm pr (s.queueFault k code) ↔ Sound pm pr s := by
  simp [State.queueFault]

@[simp] theorem sound_execSqFetchFault (k : Nat) (s : State) (h : Sound pm pr s) : SoundOut pm pr (execSqFetchFault k s) := by
  simp [execSqFetchFault, h]

@[simp] theorem sound_execCqWriteFault (k : Nat) (s : State) (h : Sound pm pr s) : SoundOut pm pr (execCqWriteFault k s) := by
  simp [execCqWriteFault, h]

@[simp] theorem sound_abortQueue (s : State) (k : Nat) (h : Sound pm pr s) : Sound pm pr (s.abortQueue k) := by
  simp [State.abortQueue, h]

@[simp] theorem sound_writeQueueCtrl (s : State) (k v : Nat) (h : Sound pm pr s) : Sound pm pr (s.writeQueueCtrl k v) := by
  simp [State.writeQueueCtrl, h]

@[simp] theorem sound_execQueueStop (who : Requester) (k value : Nat) (s : State) (h : Sound pm pr s) :
    SoundOut pm pr (execQueueStop who k value s) :=
  Sound.busWrite h fun a ha => sound_writeQueueCtrl a k _ ha

@[simp] theorem sound_execQueueRun (who : Requester) (k value : Nat) (s : State) (h : Sound pm pr s) :
    SoundOut pm pr (execQueueRun who k value s) :=
  Sound.busWrite h fun a ha => sound_writeQueueCtrl a k _ ha

@[simp] theorem sound_execQueueAbort (who : Requester) (k value : Nat) (s : State) (h : Sound pm pr s) :
    SoundOut pm pr (execQueueAbort who k value s) :=
  Sound.busWrite h fun a ha => sound_writeQueueCtrl a k _ ha

@[simp] theorem sound_writeNotifier (s : State) (k v : Nat) : Sound pm pr (s.writeNotifier k v) ↔ Sound pm pr s := by
  simp [State.writeNotifier]

@[simp] theorem sound_execNotifierArm (who : Requester) (k value : Nat) (s : State) (h : Sound pm pr s) : SoundOut pm pr
    (execNotifierArm who k value s) := by
  simp [execNotifierArm, h]

@[simp] theorem sound_execNotifierFire (k : Nat) (s : State) (h : Sound pm pr s) : SoundOut pm pr (execNotifierFire k s) := by
  simp [execNotifierFire, h]

/-! ### The functions of Machine/Tiers.lean -/

theorem Sound.tierStart {s : State} {who : Requester} {op v : Nat} {f : State → State} (h : Sound pm pr s)
    (hf : ∀ a, Sound pm pr a → Sound pm pr (f a)) : Sound pm pr (s.tierStart who op v f) := by
  refine h.busWrite fun a ha => ?_
  dsimp only
  split
  · simpa using ha
  · exact hf _ (by simpa using ha)

@[simp] theorem sound_tierStart (s : State) (who : Requester) (op v : Nat) (f : State → State)
    (hf : ∀ a, Sound pm pr (f a) ↔ Sound pm pr a) : Sound pm pr (s.tierStart who op v f) ↔ Sound pm pr s := by
  refine sound_busWrite s who 1 0x42 false _ fun a => ?_
  dsimp only
  split <;> simp [hf]

@[simp] theorem sound_tierStatus (s : State) (code : Nat) : Sound pm pr (s.tierStatus code) ↔ Sound pm pr s := by
  simp [State.tierStatus]

@[simp] theorem sound_newObject (s : State) (id len : Nat) (units : List (Nat × Nat)) : Sound pm pr (s.newObject id len units) ↔ Sound pm pr
    s := by
  simp [State.newObject]

@[simp] theorem sound_tierAlloc (s : State) (h : Sound pm pr s) : Sound pm pr s.tierAlloc := by
  unfold State.tierAlloc
  dsimp only
  (repeat' split) <;> simp [h]

@[simp] theorem sound_execTierAlloc (who : Requester) (value : Nat) (s : State) (h : Sound pm pr s) : SoundOut pm pr
    (execTierAlloc who value s) :=
  Sound.tierStart h fun a ha => sound_tierAlloc a ha

@[simp] theorem sound_execTierFree (who : Requester) (value : Nat) (s : State) (h : Sound pm pr s) : SoundOut pm pr
    (execTierFree who value s) := by
  simp [execTierFree, h]

@[simp] theorem sound_execTierShare (who : Requester) (value : Nat) (s : State) (h : Sound pm pr s) : SoundOut pm pr
    (execTierShare who value s) := by
  refine Sound.tierStart h fun a ha => ?_
  dsimp only
  (repeat' split) <;> simp [ha]

@[simp] theorem sound_execTierLinkSeq (who : Requester) (value : Nat) (s : State) (h : Sound pm pr s) : SoundOut pm pr
    (execTierLinkSeq who value s) := by
  simp [execTierLinkSeq, h]

@[simp] theorem sound_execTierUnlinkSeq (who : Requester) (value : Nat) (s : State) (h : Sound pm pr s) : SoundOut pm pr
    (execTierUnlinkSeq who value s) := by
  simp [execTierUnlinkSeq, h]

end

end Sys2Proof.Machine
end

section
namespace Sys2Proof.Machine

section
variable {pm pr : Prop}

/-! ### The functions of Machine/Tiers.lean -/

@[simp] theorem sound_commitJournal (s : State) : Sound pm pr s.commitJournal ↔ Sound pm pr s := by
  simp [State.commitJournal]

@[simp] theorem sound_execTierFlush (who : Requester) (value : Nat) (s : State) (h : Sound pm pr s) : SoundOut pm pr
    (execTierFlush who value s) := by
  simp [execTierFlush, h]

@[simp] theorem sound_execTierUnmapTakeEffect (s : State) (h : Sound pm pr s) : SoundOut pm pr (execTierUnmapTakeEffect s) := by
  unfold execTierUnmapTakeEffect
  split <;> simp [h]

@[simp] theorem sound_cancelLayer (s : State) (r : Run) (ps : List (Nat × PrefetchPhase)) (h : Sound pm pr s) :
    Sound pm pr (s.cancelLayer r ps).1 :=
  sound_cancelPrefetches s r _ h

@[simp] theorem sound_cutRun (s : State) (r : Run) (code : Nat) (h : Sound pm pr s) : Sound pm pr (s.cutRun r code) := by
  unfold State.cutRun
  dsimp only
  split <;> simp [h]

@[simp] theorem sound_promote (s : State) (ctx run : Nat) (inv : Option Nat) (n : Nat) (h : Sound pm pr s) :
    Sound pm pr (s.promote ctx run inv n) := by
  induction n generalizing s with
  | zero => exact h
  | succ n ih =>
    unfold State.promote
    dsimp only
    split
    · exact h
    · split
      · exact h
      · split
        · exact h
        · split <;> exact ih _ (by simp [h])

@[simp] theorem sound_failRun (s : State) (r : Run) (code : Nat) (h : Sound pm pr s) : Sound pm pr (s.failRun r code) := by
  simp [State.failRun, h]

@[simp] theorem sound_execPrefetchIssue (run : Nat) (s : State) (h : Sound pm pr s) : SoundOut pm pr (execPrefetchIssue run s) := by
  unfold execPrefetchIssue
  dsimp only
  (repeat' split) <;> simp [h]

@[simp] theorem sound_pathTaken (s : State) (r : Run) (layer kind : Nat) (lower : Bool) : Sound pm pr (s.pathTaken r layer kind lower) ↔
    Sound pm pr s := by
  simp [State.pathTaken]

@[simp] theorem sound_prefetchLost (s : State) (r : Run) (i : Nat) (code : Nat) (h : Sound pm pr s) : Sound pm pr (s.prefetchLost r i code)
    := by
  simp [State.prefetchLost, h]

@[simp] theorem sound_execPrefetchComplete (run i : Nat) (found : Found) (s : State) (h : Sound pm pr s) :
    SoundOut pm pr (execPrefetchComplete run i found s) := by
  unfold execPrefetchComplete
  rw [soundOut_next]
  split
  · exact h
  · split
    · exact h
    · refine sound_promote _ _ _ _ _ ?_
      split
      · simp [h]
      · split
        next ht => simpa using Sound.transfer (by simpa using h) ht
        next => (repeat' split) <;> simp [h]

@[simp] theorem sound_zeroTensor (s : State) (t : Tensor) (rows cols : Nat) (h : Sound pm pr s) : Sound pm pr (s.zeroTensor t rows cols) :=
    by
  simp [State.zeroTensor, h]

@[simp] theorem sound_zeroAttn (s : State) (r : Run) (d : Bytes) (f : Format) (h : Sound pm pr s) : Sound pm pr (s.zeroAttn r d f) := by
  refine Sound.foldl (fun a w ha => ?_) _ h
  dsimp only
  split <;> simp [ha]

@[simp] theorem sound_zeroOutput (s : State) (r : Run) (d : Bytes) (h : Sound pm pr s) : Sound pm pr (s.zeroOutput r d) := by
  unfold State.zeroOutput
  dsimp only
  split
  · simp [h]
  · split
    · cases formatOf (bits (fieldAt d 0xA 1) 4 4) <;> simp [h]
    · (repeat' split) <;> simp [h]

@[simp] theorem sound_nextOp (s : State) (r1 : Run) (h : Sound pm pr s) : Sound pm pr (s.nextOp r1) := by
  unfold State.nextOp
  split <;> simp [h]

@[simp] theorem sound_execPrefetchDeadline (run : Nat) (s : State) (h : Sound pm pr s) : SoundOut pm pr (execPrefetchDeadline run s) := by
  unfold execPrefetchDeadline
  rw [soundOut_next]
  dsimp only
  split
  · exact h
  next r _ =>
    split
    · split
      · exact h
      · split
        · simp [h]
        · refine sound_promote _ _ _ _ _ ?_
          generalize hc : (State.pathTaken s r r.op _ _).cancelLayer r r.lateRecords = x
          have hx : Sound pm pr x.1 := by
            rw [← hc]
            simp [h]
          (repeat' split) <;> simp [hx]
    · exact h

@[simp] theorem sound_execPrefetchWaitTimeout (run : Nat) (s : State) (h : Sound pm pr s) : SoundOut pm pr (execPrefetchWaitTimeout run s)
    := by
  unfold execPrefetchWaitTimeout
  (repeat' split) <;> simp [h]

@[simp] theorem sound_walked (s : State) (die ctx va : Nat) : Sound pm pr (s.walked die ctx va) ↔ Sound pm pr s := by
  unfold State.walked
  split
  · rfl
  · cases s.walkEntry ctx va <;> simp

@[simp] theorem sound_execTlbWalk (die ctx va : Nat) (write : Bool) (s : State) (h : Sound pm pr s) : SoundOut pm pr
    (execTlbWalk die ctx va write s) := by
  unfold execTlbWalk
  split <;> simp [h]

@[simp] theorem sound_execMemoryScrub (addr : Option Nat) (ecc : Ecc) (s : State) (h : Sound pm pr s) :
    SoundOut pm pr (execMemoryScrub addr ecc s) := by
  unfold execMemoryScrub
  (repeat' split) <;> simp [h]

/-! ### The functions of Machine/Flash.lean -/

@[simp] theorem sound_execFlashRead (word : Nat) (d : FlashDecode) (s : State) (h : Sound pm pr s) : SoundOut pm pr (execFlashRead word d s)
    := by
  unfold execFlashRead
  split <;> simp [h]

@[simp] theorem sound_flashPuts (s : State) (a : Nat) (bs : Bytes) : Sound pm pr (s.flashPuts a bs) ↔ Sound pm pr s := by
  induction bs generalizing s a with
  | nil => rfl
  | cons b bs ih => simp [State.flashPuts, ih]

@[simp] theorem sound_execFlashWrite (addr : Nat) (data : Bytes) (s : State) (h : Sound pm pr s) : SoundOut pm pr
    (execFlashWrite addr data s) := by
  unfold execFlashWrite
  split <;> simp [h]

@[simp] theorem sound_execJournalCommit (s : State) (h : Sound pm pr s) : SoundOut pm pr (execJournalCommit s) := by
  simp [execJournalCommit, h]

@[simp] theorem sound_execFlashRelocation (block fresh : Nat) (s : State) (h : Sound pm pr s) : SoundOut pm pr
    (execFlashRelocation block fresh s) := by
  simp [execFlashRelocation, h]

@[simp] theorem sound_execWearLevelling (block fresh : Nat) (s : State) (h : Sound pm pr s) : SoundOut pm pr
    (execWearLevelling block fresh s) := by
  simp [execWearLevelling, h]

@[simp] theorem sound_storeReadOnly (s : State) (reason : Nat) : Sound pm pr (s.storeReadOnly reason) ↔ Sound pm pr s := by
  simp [State.storeReadOnly]

@[simp] theorem sound_execBlockRetire (block fresh : Nat) (s : State) (h : Sound pm pr s) : SoundOut pm pr (execBlockRetire block fresh s)
    := by
  simp [execBlockRetire, h]

/-! ### The functions of Machine/Seq.lean -/

@[simp] theorem sound_putSeqRow (s : State) (die : Nat) (x : SeqSlot) (r : Nat) (v : SeqRow) (h : Sound pm pr s) :
    Sound pm pr (s.putSeqRow die x r v) := by
  unfold State.putSeqRow
  dsimp only
  have h2 := sound_writeDie die (x.base + (seqImage x.kind x.rows x.width).exps + 2 * r) (leBytes 2 (ofSigned 16 v.e)) h
  split
  · exact sound_writeDie _ _ _ (sound_writeDie _ _ _ h2)
  · exact sound_writeDie _ _ _ h2

@[simp] theorem sound_putSeqRows (s : State) (die : Nat) (x : SeqSlot) (r : Nat) (vs : List SeqRow) (h : Sound pm pr s) :
    Sound pm pr (s.putSeqRows die x r vs) := by
  induction vs generalizing s r with
  | nil => exact h
  | cons v vs ih => exact ih _ _ (sound_putSeqRow s die x r v h)

@[simp] theorem sound_seqStepRow (s : State) (die : Nat) (o : SeqOp) (init : SeqRow) (reset hold : Bool) (outRow : Nat) (row0 : SeqRow)
    (h : Sound pm pr s) : Sound pm pr (s.seqStepRow die o init reset hold outRow row0).1 := by
  unfold State.seqStepRow
  (repeat' split) <;> simp [h]

@[simp] theorem sound_seqStep (s : State) (die : Nat) (o : SeqOp) (init : SeqRow) (t : Nat) (rows : List SeqRow) (h : Sound pm pr s) :
    Sound pm pr (s.seqStep die o init t rows).1 := by
  refine Sound.foldl_fst (fun a p ha => ?_) _ h
  exact sound_seqStepRow a.1 die o init _ _ _ p.1 ha

@[simp] theorem sound_seqSteps (s : State) (die : Nat) (o : SeqOp) (init : SeqRow) (n t : Nat) (rows : List SeqRow) (ev : SatEvents)
    (h : Sound pm pr s) : Sound pm pr (s.seqSteps die o init n t rows ev).1 := by
  induction n generalizing s t rows ev with
  | zero => exact h
  | succ n ih => exact ih _ _ _ _ (by simp [h])

@[simp] theorem sound_runChunk (s : State) (l : Layout) (r : Run) (d : Bytes) (x : SeqSlot) (n steps : Nat) (h : Sound pm pr s) : Sound pm
    pr (s.runChunk l r d x n steps) := by
  unfold State.runChunk
  split <;> simp [h]

@[simp] theorem sound_chunkMoved (s : State) (r : Run) : Sound pm pr (s.chunkMoved r) ↔ Sound pm pr s := by
  simp [State.chunkMoved]

@[simp] theorem sound_chunkSteps (s : State) (l : Layout) (r : Run) (d : Bytes) (x : SeqSlot) (n steps : Nat) (ecc : Ecc)
    (h : Sound pm pr s) : Sound pm pr (s.chunkSteps l r d x n steps ecc) := by
  simp [State.chunkSteps, h]

@[simp] theorem sound_execSeqChunk (part : Nat × Nat) (ecc : Ecc) (s : State) (h : Sound pm pr s) : SoundOut pm pr (execSeqChunk part ecc s)
    := by
  unfold execSeqChunk
  (repeat' split) <;> simp [h]

theorem Sound.seqStart {s : State} {who : Requester} {die op v : Nat} {f : Nat → State → State} (h : Sound pm pr s)
    (hf : ∀ key a, Sound pm pr a → Sound pm pr (f key a)) : Sound pm pr (s.seqStart who die op v f) := by
  refine h.busWrite fun a ha => ?_
  dsimp only
  split
  · simpa using ha
  · split
    · simpa using ha
    · exact hf _ _ (by simpa using ha)

@[simp] theorem sound_seqStart (s : State) (who : Requester) (die op v : Nat) (f : Nat → State → State)
    (hf : ∀ key a, Sound pm pr (f key a) ↔ Sound pm pr a) : Sound pm pr (s.seqStart who die op v f) ↔ Sound pm pr s := by
  refine sound_busWrite s who die 0x0B false _ fun a => ?_
  dsimp only
  split
  · simp
  · split <;> simp [hf]

@[simp] theorem sound_seqStatus (s : State) (die code : Nat) : Sound pm pr (s.seqStatus die code) ↔ Sound pm pr s := by
  simp [State.seqStatus]

@[simp] theorem sound_takeTag (s : State) (key : Nat) : Sound pm pr (s.takeTag key) ↔ Sound pm pr s := by
  simp [State.takeTag]

@[simp] theorem sound_execSeqBind (who : Requester) (die value : Nat) (s : State) (h : Sound pm pr s) : SoundOut pm pr
    (execSeqBind who die value s) := by
  refine Sound.seqStart h fun key a ha => ?_
  (repeat' split) <;> simp [ha]

@[simp] theorem sound_seqClose (s : State) (die key op va : Nat) : Sound pm pr (s.seqClose die key op va) ↔ Sound pm pr s := by
  simp [State.seqClose]

@[simp] theorem sound_execSeqSwapOut (who : Requester) (die value : Nat) (s : State) (h : Sound pm pr s) : SoundOut pm pr
    (execSeqSwapOut who die value s) := by
  refine Sound.seqStart h fun key a ha => ?_
  dsimp only
  (repeat' split) <;> simp [ha]

@[simp] theorem sound_execSeqUnbind (who : Requester) (die value : Nat) (s : State) (h : Sound pm pr s) : SoundOut pm pr
    (execSeqUnbind who die value s) := by
  simp [execSeqUnbind, h]

@[simp] theorem sound_restoreFailed (s : State) (die code : Nat) : Sound pm pr (s.restoreFailed die code) ↔ Sound pm pr s := by
  simp [State.restoreFailed]

@[simp] theorem sound_execSeqRestore (who : Requester) (die value : Nat) (s : State) (h : Sound pm pr s) : SoundOut pm pr
    (execSeqRestore who die value s) := by
  refine Sound.seqStart h fun key a ha => ?_
  dsimp only
  (repeat' split) <;> simp [ha]

@[simp] theorem sound_endWaits (s : State) (key : Nat) : Sound pm pr (s.endWaits key) ↔ Sound pm pr s := by
  simp [State.endWaits]

@[simp] theorem sound_execSeqSlotRelease (die : Nat) (s : State) (h : Sound pm pr s) : SoundOut pm pr (execSeqSlotRelease die s) := by
  unfold execSeqSlotRelease
  split <;> simp [h]

theorem Sound.restoreResult {s t : State} {die : Nat} {c : SeqCmd} (h : Sound pm pr s) (ht : s.restoreResult die c = .ok t) :
    Sound pm pr t := by
  unfold State.restoreResult at ht
  dsimp only at ht
  (repeat' split at ht) <;> cases ht
  simp [h]

@[simp] theorem sound_execSeqTransferComplete (die : Nat) (found : Found) (s : State) (h : Sound pm pr s) :
    SoundOut pm pr (execSeqTransferComplete die found s) := by
  unfold execSeqTransferComplete
  rw [soundOut_next]
  split
  · exact h
  next c _ =>
    dsimp only
    split
    · exact h
    · split
      · split
        · simp [h]
        · split
          · simp [h]
          next hw => simpa using Sound.writeVa (by simpa using h) hw
      · split
        · simp [h]
        · split
          next ht => simpa using Sound.restoreResult (by simpa using h) ht
          next e _ => cases e.2 <;> simp [h]

/-! ### The functions of Machine/Traffic.lean -/

@[simp] theorem sound_rollWindow (s : State) (loc : Nat) (rec' : Option Nat) : Sound pm pr (s.rollWindow loc rec') ↔ Sound pm pr s := by
  unfold State.rollWindow
  split <;> simp

@[simp] theorem sound_rollAll (s : State) (loc : Nat) : Sound pm pr (s.rollAll loc) ↔ Sound pm pr s := by
  simp [State.rollAll]

@[simp] theorem sound_retarget (s : State) (loc : Nat) : Sound pm pr (s.retarget loc) ↔ Sound pm pr s := by
  simp [State.retarget]

@[simp] theorem sound_shiftRequests (s : State) (die : Nat) (d : Int) : Sound pm pr (s.shiftRequests die d) ↔ Sound pm pr s := by
  simp [State.shiftRequests]

@[simp] theorem sound_arrive (s0 : State) (q0 : Request) : Sound pm pr (s0.arrive q0) ↔ Sound pm pr s0 := by
  simp [State.arrive]

@[simp] theorem sound_send (s : State) (q : Request) : Sound pm pr (s.send q) ↔ Sound pm pr s := by
  simp [State.send]

@[simp] theorem sound_issue (s : State) (die master : Nat) (src : ReqSource) (bytes : Nat) (y0 : List (Nat × Nat)) : Sound pm pr
    (s.issue die master src bytes y0) ↔ Sound pm pr s := by
  unfold State.issue
  split <;> simp

@[simp] theorem sound_execRequestIssue (die master loc res : Nat) (src : ReqSource) (bytes : Nat) (va : Option (Nat × Bool)) (s : State)
    (h : Sound pm pr s) : SoundOut pm pr (execRequestIssue die master loc res src bytes va s) := by
  unfold execRequestIssue
  dsimp only
  (repeat' split) <;> simp [h]

@[simp] theorem sound_copyRegs (s : State) (xs : List (Nat × Nat)) : Sound pm pr (s.copyRegs xs) ↔ Sound pm pr s := by
  induction xs generalizing s with
  | nil => rfl
  | cons x xs ih => simp [State.copyRegs, ih]

@[simp] theorem sound_takeSnapshot (s : State) (die : Nat) : Sound pm pr (s.takeSnapshot die) ↔ Sound pm pr s := by
  simp [State.takeSnapshot]

@[simp] theorem sound_execSnapshotTake (die : Nat) (s : State) (h : Sound pm pr s) : SoundOut pm pr (execSnapshotTake die s) := by
  simp [execSnapshotTake, h]

@[simp] theorem sound_armSnapshot (s : State) (die t : Nat) : Sound pm pr (s.armSnapshot die t) ↔ Sound pm pr s := by
  simp [State.armSnapshot]

@[simp] theorem sound_execSnapshotArm (who : Requester) (die time : Nat) (s : State) (h : Sound pm pr s) : SoundOut pm pr
    (execSnapshotArm who die time s) := by
  simp [execSnapshotArm, h]

@[simp] theorem sound_pass (s : State) (q : Request) : Sound pm pr (s.pass q) ↔ Sound pm pr s := by
  unfold State.pass
  split <;> simp

@[simp] theorem sound_execArbiterGrant (loc res : Nat) (s : State) (h : Sound pm pr s) : SoundOut pm pr (execArbiterGrant loc res s) := by
  unfold execArbiterGrant
  rw [soundOut_next]
  extract_lets here s0 t
  have h0 : Sound pm pr s0 := by simp [s0, h]
  clear_value s0
  split
  · exact h
  next p rest _ =>
    extract_lets q n s1 s2
    clear_value q
    have h2 : Sound pm pr s2 := by
      rw [show s2 = s1.count64 (Reg.MON_BYTES loc res q.cls) n from rfl, sound_count64]
      dsimp only [s1]
      split <;> simpa using h0
    clear_value s2
    split <;> simp [h2]

@[simp] theorem sound_execBudgetWindowStart (at' : Nat × Nat) (s : State) (h : Sound pm pr s) : SoundOut pm pr (execBudgetWindowStart at' s)
    := by
  simp [execBudgetWindowStart, h]

@[simp] theorem sound_noteLatency (s : State) (die res ns : Nat) : Sound pm pr (s.noteLatency die res ns) ↔ Sound pm pr s := by
  simp [State.noteLatency]

@[simp] theorem sound_countLate (s : State) (lat : Nat) (ps : List (Nat × Nat × Nat × Option Nat)) :
    Sound pm pr (s.countLate lat ps) ↔ Sound pm pr s := by
  induction ps generalizing s with
  | nil => rfl
  | cons p ps ih =>
    rw [State.countLate, ih]
    split <;> simp

@[simp] theorem sound_release (s : State) (die master : Nat) : Sound pm pr (s.release die master) ↔ Sound pm pr s := by
  simp [State.release]

@[simp] theorem sound_execRequestComplete (id : Nat) (s : State) (h : Sound pm pr s) : SoundOut pm pr (execRequestComplete id s) := by
  unfold execRequestComplete
  split <;> simp [h]

@[simp] theorem sound_execLatencyMaxClear (who : Requester) (die : Nat) (s : State) (h : Sound pm pr s) : SoundOut pm pr
    (execLatencyMaxClear who die s) := by
  simp [execLatencyMaxClear, h]

@[simp] theorem sound_execFlitRetry (s : State) (h : Sound pm pr s) : SoundOut pm pr (execFlitRetry s) := by
  simp [execFlitRetry, h]

@[simp] theorem sound_execDeviceTimeRealign (die : Nat) (s : State) (h : Sound pm pr s) : SoundOut pm pr (execDeviceTimeRealign die s) := by
  simp [execDeviceTimeRealign, h]

/-! ### The functions of Machine/Time.lean -/

@[simp] theorem sound_busRead (s : State) (who : Requester) (die block : Nat) (f : State → State)
    (hf : ∀ a, Sound pm pr (f a) ↔ Sound pm pr a) : Sound pm pr (s.busRead who die block f) ↔ Sound pm pr s := by
  unfold State.busRead
  (repeat' split) <;> simp [hf]

@[simp] theorem sound_eventAdd (s : State) (e : Evt) (n : Nat) : Sound pm pr (s.eventAdd e n) ↔ Sound pm pr s := by
  simp [State.eventAdd]

@[simp] theorem sound_writeTimeRate (s : State) (v : Nat) : Sound pm pr (s.writeTimeRate v) ↔ Sound pm pr s := by
  simp [State.writeTimeRate]

@[simp] theorem sound_execTimeRateWrite (who : Requester) (value : Nat) (s : State) (h : Sound pm pr s) : SoundOut pm pr
    (execTimeRateWrite who value s) := by
  simp [execTimeRateWrite, h]

@[simp] theorem sound_moveTime (s : State) (d : Int) : Sound pm pr (s.moveTime d) ↔ Sound pm pr s := by
  simp [State.moveTime]

@[simp] theorem sound_timeStep (s : State) : Sound pm pr s.timeStep ↔ Sound pm pr s := by
  simp [State.timeStep]

@[simp] theorem sound_writeTimeCtrl (s : State) (v : Nat) : Sound pm pr (s.writeTimeCtrl v) ↔ Sound pm pr s := by
  simp [State.writeTimeCtrl]

@[simp] theorem sound_execTimeStep (who : Requester) (value : Nat) (s : State) (h : Sound pm pr s) : SoundOut pm pr
    (execTimeStep who value s) := by
  simp [execTimeStep, h]

@[simp] theorem sound_setFifo (s : State) (port : Nat) (q : List PtpStamp) : Sound pm pr (s.setFifo port q) ↔ Sound pm pr s := by
  simp [State.setFifo]

@[simp] theorem sound_notePtp (s : State) (port : Nat) (egress : Bool) (t : Int) (f : Bytes) : Sound pm pr (s.notePtp port egress t f) ↔
    Sound pm pr s := by
  unfold State.notePtp
  split <;> simp

@[simp] theorem sound_popFifo (s : State) (port : Nat) : Sound pm pr (s.popFifo port) ↔ Sound pm pr s := by
  unfold State.popFifo
  split <;> simp

@[simp] theorem sound_execPtpFifoPop (who : Requester) (port : Nat) (s : State) (h : Sound pm pr s) : SoundOut pm pr
    (execPtpFifoPop who port s) := by
  simp [execPtpFifoPop, h]

@[simp] theorem sound_execPpsInEdge (s : State) (h : Sound pm pr s) : SoundOut pm pr (execPpsInEdge s) := by
  simp [execPpsInEdge, h]

@[simp] theorem sound_execPpsOutRise (s : State) (h : Sound pm pr s) : SoundOut pm pr (execPpsOutRise s) := by
  simp [execPpsOutRise, h]

@[simp] theorem sound_execPpsOutFall (s : State) (h : Sound pm pr s) : SoundOut pm pr (execPpsOutFall s) := by
  simp [execPpsOutFall, h]

/-! ### The functions of Machine/Sto.lean -/

@[simp] theorem sound_setGroupStop (s : State) (g : Nat) (x : Option GroupStop) : Sound pm pr (s.setGroupStop g x) ↔ Sound pm pr s := by
  simp [State.setGroupStop]

@[simp] theorem sound_driveOutputs (s : State) : Sound pm pr s.driveOutputs ↔ Sound pm pr s := by
  simp [State.driveOutputs]

@[simp] theorem sound_assertGroup (s : State) (g : Nat) : Sound pm pr (s.assertGroup g) ↔ Sound pm pr s := by
  simp [State.assertGroup]

@[simp] theorem sound_assertAll (s : State) : Sound pm pr s.assertAll ↔ Sound pm pr s := by
  simp [State.assertAll]

@[simp] theorem sound_notePass (s : State) (key : Nat) : Sound pm pr (s.notePass key) ↔ Sound pm pr s := by
  simp [State.notePass]

@[simp] theorem sound_setWire (s : State) (k : Nat) (cs : List Nat) : Sound pm pr (s.setWire k cs) ↔ Sound pm pr s := by
  simp [State.setWire]

@[simp] theorem sound_latchWire (s : State) (k cond ma : Nat) : Sound pm pr (s.latchWire k cond ma) ↔ Sound pm pr s := by
  simp [State.latchWire]

@[simp] theorem sound_endWire (s : State) (k cond ma : Nat) : Sound pm pr (s.endWire k cond ma) ↔ Sound pm pr s := by
  simp [State.endWire]

@[simp] theorem sound_releaseGroup (s : State) (g : Nat) : Sound pm pr (s.releaseGroup g) ↔ Sound pm pr s := by
  simp [State.releaseGroup]

@[simp] theorem sound_releaseGroups (s : State) : Sound pm pr s.releaseGroups ↔ Sound pm pr s := by
  simp [State.releaseGroups]

@[simp] theorem sound_substituteLeft (s : State) (i : Nat) : Sound pm pr (s.substituteLeft i) ↔ Sound pm pr s := by
  refine sound_foldl _ (fun a g => ?_) _ s
  split
  · rfl
  · dsimp only
    split <;> simp

/-! ### The functions of Machine/Ports.lean -/

@[simp] theorem sound_setStream (s : State) (i : Nat) (x : StreamSt) : Sound pm pr (s.setStream i x) ↔ Sound pm pr s := by
  simp [State.setStream]

@[simp] theorem sound_faultStream (s : State) (i cause : Nat) : Sound pm pr (s.faultStream i cause) ↔ Sound pm pr s := by
  unfold State.faultStream
  split <;> simp

@[simp] theorem sound_publishEntry (s : State) (i : Nat) (r : Bytes) (e : EntryHead) (data : Bytes) (h : Sound pm pr s) :
    Sound pm pr (s.publishEntry i r e data) := by
  unfold State.publishEntry
  dsimp only
  split
  · simp [h]
  next hw => simpa using h.writeVa hw

@[simp] theorem sound_noteFeedback (s : State) (i port vmax n : Nat) (rec' : Bytes) : Sound pm pr (s.noteFeedback i port vmax n rec') ↔
    Sound pm pr s := by
  simp [State.noteFeedback]

@[simp] theorem sound_crustFeedback (s : State) (i port ingress : Nat) (f : Bytes) : Sound pm pr (s.crustFeedback i port ingress f) ↔ Sound
    pm pr s := by
  unfold State.crustFeedback
  split <;> simp

@[simp] theorem sound_acceptFeedback (s : State) (i ingress : Nat) (r f : Bytes) (h : Sound pm pr s) : Sound pm pr
    (s.acceptFeedback i ingress r f) := by
  simp [State.acceptFeedback, h]

@[simp] theorem sound_jointFrame (s : State) (stream : Option Nat) (port ingress : Nat) (f : Bytes) (h : Sound pm pr s) : Sound pm pr
    (s.jointFrame stream port ingress f) := by
  unfold State.jointFrame
  split <;> simp [h]

@[simp] theorem sound_execJbusFbReceive (s : State) (h : Sound pm pr s) : SoundOut pm pr (execJbusFbReceive s) := by
  unfold execJbusFbReceive
  split <;> simp [h]

@[simp] theorem sound_execJbusFbCheck (i : Nat) (s : State) (h : Sound pm pr s) : SoundOut pm pr (execJbusFbCheck i s) := by
  unfold execJbusFbCheck
  split <;> simp [h]

@[simp] theorem sound_writeJbusClr (s : State) (v : Nat) : Sound pm pr (s.writeJbusClr v) ↔ Sound pm pr s := by
  unfold State.writeJbusClr
  dsimp only
  (repeat' split) <;> simp

@[simp] theorem sound_execJbusClear (who : Requester) (i : Nat) (s : State) (h : Sound pm pr s) : SoundOut pm pr (execJbusClear who i s) :=
    by
  simp [execJbusClear, h]

@[simp] theorem sound_execEthFrameReceive (port ago : Nat) (frame : Bytes) (s : State) (h : Sound pm pr s) : SoundOut pm pr
    (execEthFrameReceive port ago frame s) := by
  unfold execEthFrameReceive
  dsimp only
  (repeat' split) <;> simp [h]

@[simp] theorem sound_sendFrame (s : State) (port : Nat) (f : Bytes) (ok : Bool) : Sound pm pr (s.sendFrame port f ok) ↔ Sound pm pr s := by
  simp [State.sendFrame]

@[simp] theorem sound_execEthFrameTransmit (port ago : Nat) (frame : Bytes) (s : State) (h : Sound pm pr s) : SoundOut pm pr
    (execEthFrameTransmit port ago frame s) := by
  simp [execEthFrameTransmit, h]

@[simp] theorem sound_setPortMode (s : State) (port m : Nat) : Sound pm pr (s.setPortMode port m) ↔ Sound pm pr s := by
  simp [State.setPortMode]

@[simp] theorem sound_writeEthCtrl (s : State) (port v : Nat) : Sound pm pr (s.writeEthCtrl port v) ↔ Sound pm pr s := by
  simp [State.writeEthCtrl]

@[simp] theorem sound_execEthCtrlWrite (who : Requester) (port value : Nat) (s : State) (h : Sound pm pr s) : SoundOut pm pr
    (execEthCtrlWrite who port value s) := by
  simp [execEthCtrlWrite, h]

@[simp] theorem sound_execEthLinkDown (port : Nat) (s : State) (h : Sound pm pr s) : SoundOut pm pr (execEthLinkDown port s) := by
  simp [execEthLinkDown, h]

@[simp] theorem sound_execEthLinkUp (port speed : Nat) (swapped : Bool) (s : State) (h : Sound pm pr s) : SoundOut pm pr
    (execEthLinkUp port speed swapped s) := by
  simp [execEthLinkUp, h]

@[simp] theorem sound_execJbusCmdBuild (i : Nat) (s : State) (h : Sound pm pr s) : SoundOut pm pr (execJbusCmdBuild i s) := by
  unfold execJbusCmdBuild
  split <;> simp [h]

@[simp] theorem sound_crustCommand (s : State) (i stamp t : Nat) (crcOk : Bool) : Sound pm pr (s.crustCommand i stamp t crcOk) ↔ Sound pm pr
    s := by
  unfold State.crustCommand
  split <;> simp

end

end Sys2Proof.Machine
end

section
namespace Sys2Proof.Machine

section
variable {pm pr : Prop}

/-! ### The functions of Machine/Ports.lean -/

@[simp] theorem sound_checkSubstitute (s : State) (i : Nat) (f : Bytes) : Sound pm pr (s.checkSubstitute i f) ↔ Sound pm pr s := by
  simp [State.checkSubstitute]

@[simp] theorem sound_substituteDeparts (s : State) (i : Nat) (f : Bytes) : Sound pm pr (s.substituteDeparts i f) ↔ Sound pm pr s := by
  simp [State.substituteDeparts]

@[simp] theorem sound_execJbusCmdTransmit (i ago : Nat) (corrupt : Bool) (s : State) (h : Sound pm pr s) : SoundOut pm pr
    (execJbusCmdTransmit i ago corrupt s) := by
  unfold execJbusCmdTransmit
  split <;> simp [h]

@[simp] theorem sound_crustCamera (s : State) (i number tIn stamp : Nat) : Sound pm pr (s.crustCamera i number tIn stamp) ↔ Sound pm pr s :=
    by
  unfold State.crustCamera
  split <;> simp

@[simp] theorem sound_noteExposure (s : State) (port vc stamp : Nat) : Sound pm pr (s.noteExposure port vc stamp) ↔ Sound pm pr s := by
  simp [State.noteExposure]

@[simp] theorem sound_setCam (s : State) (port vc : Nat) (x : Option CamFrame) : Sound pm pr (s.setCam port vc x) ↔ Sound pm pr s := by
  simp [State.setCam]

@[simp] theorem sound_publishCamera (s : State) (i tIn number exposure own release : Nat) (err cut : Bool) (data : Bytes)
    (h : Sound pm pr s) : Sound pm pr (s.publishCamera i tIn number exposure own release err cut data) := by
  simp [State.publishCamera, h]

@[simp] theorem sound_cameraEvents (s : State) (port : Nat) (err cut : Bool) : Sound pm pr (s.cameraEvents port err cut) ↔ Sound pm pr s :=
    by
  simp [State.cameraEvents]

@[simp] theorem sound_endCamera (s : State) (port vc : Nat) (cut : Bool) (h : Sound pm pr s) : Sound pm pr (s.endCamera port vc cut) := by
  unfold State.endCamera
  split
  · exact h
  · refine Sound.foldl (fun a p ha => sound_publishCamera a _ _ _ _ _ _ _ _ _ ha) _ ?_
    simpa using h

@[simp] theorem sound_csiStart (s : State) (port vc number ago own : Nat) (h : Sound pm pr s) : Sound pm pr
    (s.csiStart port vc number ago own) := by
  simp [State.csiStart, h]

@[simp] theorem sound_csiPayload (s : State) (port vc dt : Nat) (bs : Bytes) (crcOk : Bool) :
    Sound pm pr (s.csiPayload port vc dt bs crcOk) ↔ Sound pm pr s := by
  unfold State.csiPayload
  split
  · simp
  · cases s.camFrame port vc <;> simp

@[simp] theorem sound_execCsiFrameReceive (port vc : Nat) (kind : CsiKind) (number ago ownStamp dt : Nat) (data : Bytes)
    (hdrCorr crcOk : Bool) (s : State) (h : Sound pm pr s) :
    SoundOut pm pr (execCsiFrameReceive port vc kind number ago ownStamp dt data hdrCorr crcOk s) := by
  unfold execCsiFrameReceive
  rw [soundOut_next]
  split
  · exact h
  · extract_lets s1
    have h1 : Sound pm pr s1 := by simpa [s1] using h
    split
    · simp [h1]
    · simp [h1]
    · cases s1.camFrame port vc <;> simp [h1]
    · simp [h1]

@[simp] theorem sound_simEntry (s : State) (i : Nat) (r e : Bytes) (h : Sound pm pr s) : Sound pm pr (s.simEntry i r e) := by
  simp [State.simEntry, h]

@[simp] theorem sound_execSimEntryRelease (i : Nat) (s : State) (h : Sound pm pr s) : SoundOut pm pr (execSimEntryRelease i s) := by
  unfold execSimEntryRelease
  dsimp only
  (repeat' split) <;> simp [h]

/-! ### The functions of Machine/Loops.lean -/

@[simp] theorem sound_setLoopSlot (s : State) (n : Nat) (x : LoopSlot) : Sound pm pr (s.setLoopSlot n x) ↔ Sound pm pr s := by
  simp [State.setLoopSlot]

@[simp] theorem sound_holdSlots (s : State) (g t : Nat) : Sound pm pr (s.holdSlots g t) ↔ Sound pm pr s := by
  simp [State.holdSlots]

@[simp] theorem sound_writeCommand (s : State) (r : Bytes) (mode : Nat) (c : Int) (h : Sound pm pr s) : Sound pm pr
    (s.writeCommand r mode c) := by
  unfold State.writeCommand
  extract_lets st n base s1
  have h1 : Sound pm pr s1 := sound_writeDie _ _ _ h
  split
  · refine Sound.foldl (fun a f ha => ?_) _ (sound_writeDie _ _ _ (sound_writeDie _ _ _ h1))
    split
    · exact ha
    · exact sound_writeDie _ _ _ ha
  · exact h1

@[simp] theorem sound_loopFault (s : State) (n group code event : Nat) : Sound pm pr (s.loopFault n group code event) ↔ Sound pm pr s := by
  simp [State.loopFault]

@[simp] theorem sound_loopClear (s : State) (n group : Nat) : Sound pm pr (s.loopClear n group) ↔ Sound pm pr s := by
  simp [State.loopClear]

@[simp] theorem sound_evalSlot (s : State) (r : Bytes) (j : Nat) (held left mismatch : Bool) (h : Sound pm pr s) : Sound pm pr
    (s.evalSlot r j held left mismatch) := by
  simp [State.evalSlot, h]

@[simp] theorem sound_passSlot (s : State) (r : Bytes) (j t : Nat) (bad : List Nat) (h : Sound pm pr s) : Sound pm pr (s.passSlot r j t bad)
    := by
  simp [State.passSlot, h]

@[simp] theorem sound_execLoopPass (engine : Nat) (bad : List Nat) (s : State) (h : Sound pm pr s) : SoundOut pm pr
    (execLoopPass engine bad s) := by
  unfold execLoopPass
  rw [soundOut_next]
  split
  · exact h
  · extract_lets j t s0 due s1
    have h0 : Sound pm pr s0 := by simpa [s0] using h
    have h1 : Sound pm pr s1 := Sound.foldl (fun a r ha => sound_passSlot a r j t bad ha) _ h0
    split
    · exact h
    · simpa using h1

@[simp] theorem sound_writeLoopClr (s : State) (v : Nat) : Sound pm pr (s.writeLoopClr v) ↔ Sound pm pr s := by
  simp [State.writeLoopClr]

@[simp] theorem sound_execLoopClear (who : Requester) (slot : Nat) (s : State) (h : Sound pm pr s) : SoundOut pm pr
    (execLoopClear who slot s) := by
  simp [execLoopClear, h]

@[simp] theorem sound_startLoops (s : State) (rs : List Bytes) : Sound pm pr (s.startLoops rs) ↔ Sound pm pr s := by
  unfold State.startLoops
  rw [sound_foldl]
  · simp
  · intro a e
    split <;> simp

/-! ### The functions of Machine/Map.lean -/

@[simp] theorem sound_appendDeltas (s : State) (cfg : MapCfg) (epoch : Nat) (hs : List Bytes) (h : Sound pm pr s) :
    Sound pm pr (s.appendDeltas cfg epoch hs) := by
  induction hs generalizing s with
  | nil => exact h
  | cons x xs ih =>
    refine ih _ ?_
    dsimp only
    split
    next hw => simpa using h.writeVa hw
    next => simpa using h

@[simp] theorem sound_markLost (s : State) (entries : Nat) : Sound pm pr (s.markLost entries) ↔ Sound pm pr s := by
  simp [State.markLost]

@[simp] theorem sound_setWorld (s : State) (cfg : MapCfg) (slot : Nat) (w : World) (heads : List Bytes) (h : Sound pm pr s) : Sound pm pr
    (s.setWorld cfg slot w heads) := by
  simp [State.setWorld, h]

theorem Sound.newEpoch {s t : State} {cfg : MapCfg} {slot : Nat} {tree : MapTree} {heads : List Bytes} (h : Sound pm pr s)
    (ht : s.newEpoch cfg slot tree heads = some t) : Sound pm pr t := by
  obtain ⟨x, hx, rfl⟩ := Option.map_eq_some_iff.mp ht
  simpa using sound_setWorld x.1 cfg slot _ heads (h.placeTree hx)

theorem Sound.mapBatch {s t : State} {cfg : MapCfg} {slot : Nat} {ws : List (List Int × (MapCell → MapCell))} (h : Sound pm pr s)
    (ht : s.mapBatch cfg slot ws = some t) : Sound pm pr t := by
  unfold State.mapBatch at ht
  extract_lets inside s1 at ht
  have h1 : Sound pm pr s1 := by simpa [s1] using h
  split at ht
  · exact Option.some.inj ht ▸ h1
  · exact h1.newEpoch ht

@[simp] theorem sound_nodesFull (s : State) : Sound pm pr s.nodesFull ↔ Sound pm pr s := by
  simp [State.nodesFull]

@[simp] theorem sound_mapBusy (s : State) : Sound pm pr s.mapBusy ↔ Sound pm pr s := by
  simp [State.mapBusy]

@[simp] theorem sound_mapStatus (s : State) (code : Nat) : Sound pm pr (s.mapStatus code) ↔ Sound pm pr s := by
  simp [State.mapStatus]

@[simp] theorem sound_mapFault (s : State) (cfg : MapCfg) (e : Nat × Nat) : Sound pm pr (s.mapFault cfg e) ↔ Sound pm pr s := by
  simp [State.mapFault]

@[simp] theorem sound_mapAccessFault (s : State) (cfg : MapCfg) (e : Nat × Nat) : Sound pm pr (s.mapAccessFault cfg e) ↔ Sound pm pr s := by
  simp [State.mapAccessFault]

@[simp] theorem sound_mapOutcome (s : State) (r : Option State) (h : Sound pm pr s) (hr : ∀ u, r = some u → Sound pm pr u) :
    Sound pm pr (s.mapOutcome r) := by
  cases r with
  | none => simpa [State.mapOutcome] using h
  | some u => simpa [State.mapOutcome] using hr u rfl

@[simp] theorem sound_mapWriteRecords (s : State) (cfg : MapCfg) (slot : Nat) (rs : List Bytes) (h : Sound pm pr s) :
    Sound pm pr (s.mapWriteRecords cfg slot rs) := by
  unfold State.mapWriteRecords
  dsimp only
  split
  · simpa using h
  · exact sound_mapOutcome s _ h fun u hu => h.mapBatch hu

@[simp] theorem sound_pin (s : State) (owner : Option Nat) (slot : Nat) : Sound pm pr (s.pin owner slot) ↔ Sound pm pr s := by
  simp [State.pin]

@[simp] theorem sound_endBuild (s : State) (code : Nat) (h : Sound pm pr s) : Sound pm pr (s.endBuild code) := by
  simp [State.endBuild, h]

@[simp] theorem sound_beginBuild (s : State) (cfg : MapCfg) (b : SdfBuild) (h : Sound pm pr s) : Sound pm pr (s.beginBuild cfg b) := by
  simp [State.beginBuild, h]

@[simp] theorem sound_startBuild (s : State) (cfg : MapCfg) (h : Sound pm pr s) : Sound pm pr (s.startBuild cfg) := by
  simp [State.startBuild, h]

@[simp] theorem sound_wantMode (s : State) (mode : Nat) (byCommand : Bool) : Sound pm pr (s.wantMode mode byCommand) ↔ Sound pm pr s := by
  simp [State.wantMode]

@[simp] theorem sound_settleMode (s : State) : Sound pm pr s.settleMode ↔ Sound pm pr s := by
  unfold State.settleMode
  split <;> simp

@[simp] theorem sound_crustSdf (s : State) : Sound pm pr s.crustSdf ↔ Sound pm pr s := by
  simp [State.crustSdf]

@[simp] theorem sound_runMapCommand (s : State) (op slot : Nat) (h : Sound pm pr s) : Sound pm pr (s.runMapCommand op slot) := by
  have hepoch : ∀ cfg tree heads, Sound pm pr (s.mapOutcome (s.newEpoch cfg slot tree heads)) :=
    fun cfg tree heads => sound_mapOutcome s _ h fun u hu => h.newEpoch hu
  unfold State.runMapCommand
  refine Sound.ite (fun _ => by simp [h]) fun _ => Sound.ite (fun _ => by simp [h]) fun _ => ?_
  cases s.mapCfg? with
  | none => simp [h]
  | some cfg =>
    refine Sound.ite (fun _ => by simp [h]) fun _ => Sound.ite (fun _ => by simp [h]) fun _ => Sound.ite (fun _ => by simp [h]) fun _ => ?_
    refine Sound.ite (fun _ => by simp [h]) fun _ => Sound.ite (fun _ => by simp [h]) fun _ => Sound.ite (fun _ => hepoch _ _ _) fun _ => ?_
    refine Sound.ite (fun _ => Sound.ite (fun _ => by simp [h]) fun _ => ?_) fun _ => Sound.ite (fun _ => ?_) fun _ => ?_
    · split <;> simp [h]
    · split
      · simp [h]
      · exact hepoch _ _ _
    · split
      · simp [h]
      next hw => simpa using h.writeVa hw

@[simp] theorem sound_writeMapCmd (s : State) (v : Nat) (h : Sound pm pr s) : Sound pm pr (s.writeMapCmd v) := by
  simp [State.writeMapCmd, h]

@[simp] theorem sound_mapStart (s : State) (who : Requester) (op slot : Nat) (h : Sound pm pr s) : Sound pm pr (s.mapStart who op slot) :=
  h.busWrite fun a ha => sound_writeMapCmd a _ ha

@[simp] theorem sound_execMapFork (who : Requester) (slot : Nat) (s : State) (h : Sound pm pr s) : SoundOut pm pr (execMapFork who slot s)
    := by
  simp [execMapFork, h]

@[simp] theorem sound_execMapClear (who : Requester) (slot : Nat) (s : State) (h : Sound pm pr s) : SoundOut pm pr (execMapClear who slot s)
    := by
  simp [execMapClear, h]

@[simp] theorem sound_execMapWrite (who : Requester) (slot : Nat) (s : State) (h : Sound pm pr s) : SoundOut pm pr (execMapWrite who slot s)
    := by
  simp [execMapWrite, h]

@[simp] theorem sound_execMapLoad (who : Requester) (slot : Nat) (s : State) (h : Sound pm pr s) : SoundOut pm pr (execMapLoad who slot s)
    := by
  simp [execMapLoad, h]

@[simp] theorem sound_execMapSnapshot (who : Requester) (slot : Nat) (s : State) (h : Sound pm pr s) : SoundOut pm pr
    (execMapSnapshot who slot s) := by
  simp [execMapSnapshot, h]

@[simp] theorem sound_execMapBuildSdf (who : Requester) (s : State) (h : Sound pm pr s) : SoundOut pm pr (execMapBuildSdf who s) := by
  simp [execMapBuildSdf, h]

@[simp] theorem sound_execMapEnterTree (who : Requester) (s : State) (h : Sound pm pr s) : SoundOut pm pr (execMapEnterTree who s) := by
  simp [execMapEnterTree, h]

@[simp] theorem sound_execMapEnterSdf (who : Requester) (s : State) (h : Sound pm pr s) : SoundOut pm pr (execMapEnterSdf who s) := by
  simp [execMapEnterSdf, h]

@[simp] theorem sound_execSdfBuildBegin (s : State) (h : Sound pm pr s) : SoundOut pm pr (execSdfBuildBegin s) := by
  unfold execSdfBuildBegin
  split <;> simp [h]

@[simp] theorem sound_finishBuild (s : State) (cfg : MapCfg) (b : SdfBuild) (h : Sound pm pr s) : Sound pm pr (s.finishBuild cfg b) := by
  unfold State.finishBuild
  dsimp only
  split
  · simp [h]
  · split
    · simp [h]
    next hw => simp [h.writeVa hw]

@[simp] theorem sound_execSdfBuildComplete (s : State) (h : Sound pm pr s) : SoundOut pm pr (execSdfBuildComplete s) := by
  unfold execSdfBuildComplete
  split <;> simp [h]

@[simp] theorem sound_execMapModeChange (s : State) (h : Sound pm pr s) : SoundOut pm pr (execMapModeChange s) := by
  simp [execMapModeChange, h]

@[simp] theorem sound_resetMap (s : State) : Sound pm pr s.resetMap ↔ Sound pm pr s := by
  simp [State.resetMap]

/-! ### The functions of Machine/Fusion.lean -/

theorem Sound.publishMailbox {s t : State} {ctx va c : Nat} {payload : Bytes} (h : Sound pm pr s)
    (ht : s.publishMailbox ctx va c payload = .ok t) : Sound pm pr t := by
  unfold State.publishMailbox at ht
  dsimp only at ht
  split at ht
  · cases ht
  next ha =>
    split at ht
    · cases ht
    next hb => exact ((h.writeVa ha).writeVa hb).writeVa ht

@[simp] theorem sound_stopFusionStream (s : State) (owner i : Nat) (e : Nat × Nat) : Sound pm pr (s.stopFusionStream owner i e) ↔ Sound pm
    pr s := by
  simp [State.stopFusionStream]

@[simp] theorem sound_takeStream (s : State) (owner n i fuel : Nat) (acc : List FusionSample) :
    Sound pm pr (s.takeStream owner n i fuel acc).1 ↔ Sound pm pr s := by
  induction fuel generalizing s acc with
  | zero => rfl
  | succ fuel ih =>
    rw [State.takeStream]
    dsimp only
    (repeat' split) <;> simp [ih]

@[simp] theorem sound_takeSamples (s : State) (owner n k i : Nat) (acc : List FusionSample) :
    Sound pm pr (s.takeSamples owner n k i acc).1 ↔ Sound pm pr s := by
  induction k generalizing s i acc with
  | zero => rfl
  | succ k ih =>
    rw [State.takeSamples]
    split <;> simp [ih]

@[simp] theorem sound_markCell (s : State) (g : GridFrame) (c : List Int) (stream : Nat) (hit : Bool) (h : Sound pm pr s) : Sound pm pr
    (s.markCell g c stream hit) := by
  unfold State.markCell
  split <;> simp [h]

@[simp] theorem sound_raiseCost (s : State) (g : GridFrame) (c : List Int) (l : Nat) (h : Sound pm pr s) : Sound pm pr (s.raiseCost g c l)
    := by
  unfold State.raiseCost
  split <;> simp [h]

@[simp] theorem sound_markPoint (s : State) (g : GridFrame) (stream margin : Nat) (o e : List Int) (noReturn : Bool) (labels : List Nat)
    (h : Sound pm pr s) : Sound pm pr (s.markPoint g stream margin o e noReturn labels) := by
  unfold State.markPoint
  extract_lets cellOf ec n s1
  have h1 : Sound pm pr s1 := by
    refine Sound.foldl (fun a k ha => ?_) _ h
    dsimp only
    split <;> simp [ha]
  split
  · exact sound_markCell s1 g ec stream false h1
  · exact Sound.foldl (fun a l ha => sound_raiseCost a g ec l ha) _ (sound_markCell s1 g ec stream true h1)

@[simp] theorem sound_MarkRun_point (m : MarkRun) (g : Option GridFrame) (grid : Option PoseSample) (i : Nat) (d : Bytes) (x : FusionPoint)
    (mount : PoseSample) (h : Sound pm pr m.state) : Sound pm pr (MarkRun.point m g grid i d x mount).state := by
  unfold MarkRun.point
  split <;> simp [h]

@[simp] theorem sound_MarkRun_points (m : MarkRun) (g : Option GridFrame) (grid : Option PoseSample) (i : Nat) (d : Bytes)
    (ps : List FusionPoint) (h : Sound pm pr m.state) : Sound pm pr (m.points g grid i d ps).state := by
  induction ps generalizing m with
  | nil => exact h
  | cons x ps ih =>
    refine ih _ ?_
    dsimp only
    (repeat' split) <;> simp [h]

@[simp] theorem sound_MarkRun_entries (m : MarkRun) (g : Option GridFrame) (grid : Option PoseSample) (all : List FusionSample) (i : Nat)
    (d : Bytes) (left : Nat) (xs : List FusionSample) (h : Sound pm pr m.state) :
    Sound pm pr (m.entries g grid all i d left xs).state := by
  induction xs generalizing m left with
  | nil => exact h
  | cons x xs ih =>
    refine ih _ _ (sound_MarkRun_points _ _ _ _ _ _ ?_)
    simpa using h

@[simp] theorem sound_MarkRun_streams (m : MarkRun) (g : Option GridFrame) (grid : Option PoseSample) (all : List FusionSample) (k i : Nat)
    (h : Sound pm pr m.state) : Sound pm pr (m.streams g grid all k i).state := by
  induction k generalizing m i with
  | zero => exact h
  | succ k ih =>
    refine ih _ _ ?_
    split <;> simp [h]

@[simp] theorem sound_publishSlot (s : State) (r : Bytes) (owner n status lidar : Nat) (payload : Bytes) (h : Sound pm pr s) :
    Sound pm pr (s.publishSlot r owner n status lidar payload) := by
  unfold State.publishSlot
  dsimp only
  split
  · simp [h]
  next ht => simpa using h.publishMailbox ht

@[simp] theorem sound_afterSlot (s : State) (n : Nat) : Sound pm pr (s.afterSlot n) ↔ Sound pm pr s := by
  simp [State.afterSlot]

@[simp] theorem sound_countLates (s : State) (lates : List FusionSample) : Sound pm pr (s.countLates lates) ↔ Sound pm pr s := by
  simp [State.countLates]

@[simp] theorem sound_startSlot (s : State) (r : Bytes) (owner n : Nat) (h : Sound pm pr s) : Sound pm pr (s.startSlot r owner n) := by
  unfold State.startSlot
  extract_lets t streams x used s1 s2 grid frame s3 m applied lates s4 stopped status lidar run fu s5 s6
  have h2 : Sound pm pr s2 := by
    refine (sound_foldl _ (fun a i => ?_) _ s1).mpr (by simpa [s1, x] using h)
    split <;> simp
  have hm : Sound pm pr m.state := sound_MarkRun_streams _ _ _ _ _ _ (sound_zeroRange _ _ h2)
  have h6 : Sound pm pr s6 := by simpa [s6, s5, s4] using hm
  split <;> simp [h6]

@[simp] theorem sound_slotSkipped (s : State) (n : Nat) : Sound pm pr (s.slotSkipped n).1 ↔ Sound pm pr s := by
  simp [State.slotSkipped]

@[simp] theorem sound_execFusionCutoff (s : State) (h : Sound pm pr s) : SoundOut pm pr (execFusionCutoff s) := by
  unfold execFusionCutoff
  split <;> simp [h]

@[simp] theorem sound_slotResult (s : State) (r : Bytes) (f : FusionRun) (h : Sound pm pr s) : Sound pm pr (s.slotResult r f).1 := by
  unfold State.slotResult
  dsimp only
  split
  · rw [sound_eventAdd]
    split
    next hu => exact h.mapBatch hu
    next => simpa using h
  · simpa using h

@[simp] theorem sound_slotEnds (s : State) : Sound pm pr s.slotEnds ↔ Sound pm pr s := by
  simp [State.slotEnds]

@[simp] theorem sound_execFusionSlotComplete (s : State) (h : Sound pm pr s) : SoundOut pm pr (execFusionSlotComplete s) := by
  unfold execFusionSlotComplete
  split <;> simp [h]

/-! ### The functions of Machine/Plan.lean -/

@[simp] theorem sound_endBatch (s : State) (r : Run) (code : Nat) (h : Sound pm pr s) : Sound pm pr (s.endBatch r code) := by
  simp [State.endBatch, h]

@[simp] theorem sound_faultBatch (s : State) (r : Run) (ctx : Nat) (e : Nat × Nat) (h : Sound pm pr s) : Sound pm pr (s.faultBatch r ctx e)
    := by
  simp [State.faultBatch, h]

@[simp] theorem sound_planCounts (s : State) (o : PlanOut) (b : PlanBatch) : Sound pm pr (s.planCounts o b) ↔ Sound pm pr s := by
  simp [State.planCounts]

@[simp] theorem sound_publishPlan (s : State) (r : Run) (b : PlanBatch) (o : PlanOut) (code : Nat) (h : Sound pm pr s) :
    Sound pm pr (s.publishPlan r b o code) := by
  unfold State.publishPlan
  dsimp only
  split
  · simp [h]
  next ht => exact sound_endBatch _ r code (by simpa using h.publishMailbox ht)

@[simp] theorem sound_publishStop (s : State) (r : Run) (b : PlanBatch) (status code : Nat) (e0 e1 : Option Nat) (h : Sound pm pr s) : Sound
    pm pr (s.publishStop r b status code e0 e1) := by
  simp [State.publishStop, h]

@[simp] theorem sound_tested (s : State) (d : Bytes) (b : PlanBatch) (rs : List CandResult) (h : Sound pm pr s) : Sound pm pr
    (s.tested d b rs) := by
  simp [State.tested, h]

@[simp] theorem sound_planFirst (s : State) (r : Run) (d : Bytes) (h : Sound pm pr s) : Sound pm pr (s.planFirst r d) := by
  unfold State.planFirst
  dsimp only
  (repeat' split) <;> simp [h]

@[simp] theorem sound_planSecond (s : State) (r : Run) (b : PlanBatch) (h : Sound pm pr s) : Sound pm pr (s.planSecond r b) := by
  unfold State.planSecond
  dsimp only
  (repeat' split) <;> simp [h]

@[simp] theorem sound_execPlanBatch (op : Nat × Ecc) (s : State) (h : Sound pm pr s) : SoundOut pm pr (execPlanBatch op s) := by
  unfold execPlanBatch
  dsimp only
  (repeat' split) <;> simp [h]

/-! ### The functions of Machine/Solver.lean -/

@[simp] theorem sound_solvReg (s : State) (k : Nat) : Sound pm pr (s.solvReg k) ↔ Sound pm pr s := by
  simp [State.solvReg]

@[simp] theorem sound_setSolvSetup (s : State) (k : Nat) (x : SolvSetup) : Sound pm pr (s.setSolvSetup k x) ↔ Sound pm pr s := by
  simp [State.setSolvSetup]

@[simp] theorem sound_resetSetups (s : State) (ks : List Nat) : Sound pm pr (s.resetSetups ks) ↔ Sound pm pr s := by
  simp [State.resetSetups]

@[simp] theorem sound_watching (s : State) (ws : List Watch) (h : Sound pm pr s) : Sound pm pr (s.watching ws) := by
  simp [State.watching, h]

@[simp] theorem sound_solvArea (s : State) (r : Bytes) (h : Sound pm pr s) : Sound pm pr (s.solvArea r) := by
  simp [State.solvArea, h]

@[simp] theorem sound_solvLast (s : State) (k code iters : Nat) : Sound pm pr (s.solvLast k code iters) ↔ Sound pm pr s := by
  simp [State.solvLast]

@[simp] theorem sound_solvFirst (s : State) (r : Run) (d : Bytes) (h : Sound pm pr s) : Sound pm pr (s.solvFirst r d) := by
  simp [State.solvFirst, h]

@[simp] theorem sound_solvEvents (s : State) (o : SolvResult) : Sound pm pr (s.solvEvents o) ↔ Sound pm pr s := by
  simp [State.solvEvents]

@[simp] theorem sound_solvEnd (s : State) (r : Run) (a : SolvRun) (stop : Option (Nat × Nat)) (h : Sound pm pr s) :
    Sound pm pr (s.solvEnd r a stop) := by
  unfold State.solvEnd
  extract_lets rec' p x o s1 s2 s3 solv s4
  have h1 : Sound pm pr s1 := sound_writeDie _ _ _ (sound_writeDie _ _ _ (by simp [h]))
  have h2 : Sound pm pr s2 := by simp [s2, h1]
  simpa [s4, s3] using h2

@[simp] theorem sound_execSolvRun (op : Nat × Ecc) (s : State) (h : Sound pm pr s) : SoundOut pm pr (execSolvRun op s) := by
  unfold execSolvRun
  rw [soundOut_next]
  split
  · exact h
  · dsimp only
    split
    · exact h
    · split
      · simp [h]
      · cases (s.eccCheck 0 op.2).1.solv.active <;> simp [h]

@[simp] theorem sound_execSolverDeadline (run outer inner : Nat) (s : State) (h : Sound pm pr s) : SoundOut pm pr
    (execSolverDeadline run outer inner s) := by
  unfold execSolverDeadline
  split <;> simp [h]

@[simp] theorem sound_execFactorBudgetExpiry (run : Nat) (s : State) (h : Sound pm pr s) : SoundOut pm pr (execFactorBudgetExpiry run s) :=
    by
  unfold execFactorBudgetExpiry
  split <;> simp [h]

/-! ### The functions of Machine/Crust.lean -/

@[simp] theorem sound_publishFactor (s : State) (h : Sound pm pr s) : Sound pm pr s.publishFactor := by
  unfold State.publishFactor
  split <;> simp [h]

@[simp] theorem sound_handOver (s : State) (i cycle : Nat) : Sound pm pr (s.handOver i cycle) ↔ Sound pm pr s := by
  unfold State.handOver
  split <;> simp

@[simp] theorem sound_stopGroup (s : State) (g : Nat) (estop : Bool) : Sound pm pr (s.stopGroup g estop) ↔ Sound pm pr s := by
  simp [State.stopGroup]

@[simp] theorem sound_latchLevel (s : State) (g level e : Nat) : Sound pm pr (s.latchLevel g level e) ↔ Sound pm pr s := by
  simp [State.latchLevel]

@[simp] theorem sound_react (s : State) (e source : Nat) (h : Sound pm pr s) : Sound pm pr (s.react e source) := by
  simp [State.react, h]

@[simp] theorem sound_execCrustEvent (s : State) (h : Sound pm pr s) : SoundOut pm pr (execCrustEvent s) := by
  unfold execCrustEvent
  split <;> simp [h]

@[simp] theorem sound_hardStop (s : State) (event : Nat) : Sound pm pr (s.hardStop event) ↔ Sound pm pr s := by
  simp [State.hardStop]

@[simp] theorem sound_execHeartbeatMiss (s : State) (h : Sound pm pr s) : SoundOut pm pr (execHeartbeatMiss s) := by
  simp [execHeartbeatMiss, h]

@[simp] theorem sound_execClockMonitorTrip (measured : Nat × Nat) (s : State) (h : Sound pm pr s) : SoundOut pm pr
    (execClockMonitorTrip measured s) := by
  simp [execClockMonitorTrip, h]

@[simp] theorem sound_execCrustLockstepMismatch (s : State) (h : Sound pm pr s) : SoundOut pm pr (execCrustLockstepMismatch s) := by
  simp [execCrustLockstepMismatch, h]

@[simp] theorem sound_execCmdEgressCheck (i : Nat) (s : State) (h : Sound pm pr s) : SoundOut pm pr (execCmdEgressCheck i s) := by
  unfold execCmdEgressCheck
  split <;> simp [h]

@[simp] theorem sound_execFallbackBuild (i : Nat) (s : State) (h : Sound pm pr s) : SoundOut pm pr (execFallbackBuild i s) := by
  unfold execFallbackBuild
  split <;> simp [h]

@[simp] theorem sound_execSs1RampEnd (g : Nat) (s : State) (h : Sound pm pr s) : SoundOut pm pr (execSs1RampEnd g s) := by
  unfold execSs1RampEnd
  split <;> simp [h]

@[simp] theorem sound_execPsfEvaluate (frame : Nat) (s : State) (h : Sound pm pr s) : SoundOut pm pr (execPsfEvaluate frame s) := by
  unfold execPsfEvaluate
  dsimp only
  (repeat' split) <;> simp [h]

@[simp] theorem sound_execPsfValidityExpiry (s : State) (h : Sound pm pr s) : SoundOut pm pr (execPsfValidityExpiry s) := by
  unfold execPsfValidityExpiry
  split <;> simp [h]

@[simp] theorem sound_execPsfSpeed (stream rec' : Nat) (s : State) (h : Sound pm pr s) : SoundOut pm pr (execPsfSpeed stream rec' s) := by
  unfold execPsfSpeed
  dsimp only
  (repeat' split) <;> simp [h]

@[simp] theorem sound_execStarterDigest (i : Nat) (s : State) (h : Sound pm pr s) : SoundOut pm pr (execStarterDigest i s) := by
  unfold execStarterDigest
  dsimp only
  (repeat' split) <;> simp [h]

@[simp] theorem sound_execStarterLate (i : Nat) (s : State) (h : Sound pm pr s) : SoundOut pm pr (execStarterLate i s) := by
  unfold execStarterLate
  split <;> simp [h]

@[simp] theorem sound_execStoReadbackFault (output : Nat) (high : Bool) (ns : Nat) (s : State) (h : Sound pm pr s) : SoundOut pm pr
    (execStoReadbackFault output high ns s) := by
  simp [execStoReadbackFault, h]

@[simp] theorem sound_execEstopOpen (channel : Nat × Bool) (ns : Nat) (s : State) (h : Sound pm pr s) : SoundOut pm pr
    (execEstopOpen channel ns s) := by
  simp [execEstopOpen, h]

@[simp] theorem sound_execEstopDiscrepancy (closed : Bool × Bool) (ns : Nat) (s : State) (h : Sound pm pr s) : SoundOut pm pr
    (execEstopDiscrepancy closed ns s) := by
  unfold execEstopDiscrepancy
  split <;> simp [h]

@[simp] theorem sound_writeHold (s : State) (v : Nat) : Sound pm pr (s.writeHold v) ↔ Sound pm pr s := by
  simp [State.writeHold]

@[simp] theorem sound_execSioHoldWrite (who : Requester) (value : Nat) (s : State) (h : Sound pm pr s) : SoundOut pm pr
    (execSioHoldWrite who value s) := by
  simp [execSioHoldWrite, h]

@[simp] theorem sound_execEstopReset (who : Requester) (value : Nat) (held : Nat × Nat × Bool) (s : State) (h : Sound pm pr s) : SoundOut pm
    pr (execEstopReset who value held s) := by
  simp [execEstopReset, h]

@[simp] theorem sound_handBack (s : State) (g : Nat) : Sound pm pr (s.handBack g) ↔ Sound pm pr s := by
  simp [State.handBack]

@[simp] theorem sound_clearGroup (s : State) (g : Nat) : Sound pm pr (s.clearGroup g) ↔ Sound pm pr s := by
  simp [State.clearGroup]

@[simp] theorem sound_clearGlobal (s : State) (h : Sound pm pr s) : Sound pm pr s.clearGlobal := by
  simp [State.clearGlobal, h]

@[simp] theorem sound_writeCrustClr (s : State) (v : Nat) (h : Sound pm pr s) : Sound pm pr (s.writeCrustClr v) := by
  simp [State.writeCrustClr, h]

@[simp] theorem sound_execCrustClear (who : Requester) (value : Nat) (s : State) (h : Sound pm pr s) : SoundOut pm pr
    (execCrustClear who value s) := by
  refine Sound.busWrite h fun a ha => ?_
  simp [ha]

/-! ### The functions of Machine/Selftest.lean -/

@[simp] theorem sound_execProofRunOnDemand (who : Requester) (s : State) (h : Sound pm pr s) : SoundOut pm pr (execProofRunOnDemand who s)
    := by
  simp [execProofRunOnDemand, h]

@[simp] theorem sound_proofResult (s : State) (die first : Nat) : Sound pm pr (s.proofResult die first) ↔ Sound pm pr s := by
  simp [State.proofResult]

@[simp] theorem sound_proofResults (s : State) (results : List ProofCheck) : Sound pm pr (s.proofResults results) ↔ Sound pm pr s := by
  simp [State.proofResults]

@[simp] theorem sound_setProofOut (s : State) (x : Option (Nat × Nat)) : Sound pm pr (s.setProofOut x) ↔ Sound pm pr s := by
  simp [State.setProofOut]

@[simp] theorem sound_proofPulse (s : State) : Sound pm pr s.proofPulse ↔ Sound pm pr s := by
  unfold State.proofPulse
  (repeat' split) <;> simp

@[simp] theorem sound_execProofRunComplete (results : List ProofCheck) (s : State) (h : Sound pm pr s) : SoundOut pm pr
    (execProofRunComplete results s) := by
  simp [execProofRunComplete, h]

@[simp] theorem sound_execProofFailRepeat (s : State) (h : Sound pm pr s) : SoundOut pm pr (execProofFailRepeat s) := by
  simp [execProofFailRepeat, h]

@[simp] theorem sound_selftestFail (s : State) : Sound pm pr s.selftestFail ↔ Sound pm pr s := by
  simp [State.selftestFail]

@[simp] theorem sound_judgeTest (s : State) (key : Nat) (detected : Bool) : Sound pm pr (s.judgeTest key detected) ↔ Sound pm pr s := by
  simp [State.judgeTest]

@[simp] theorem sound_execSelftestSlot (g : Nat) (detected : Bool) (s : State) (h : Sound pm pr s) : SoundOut pm pr
    (execSelftestSlot g detected s) := by
  simp [execSelftestSlot, h]

@[simp] theorem sound_execStoPulseEnd (high : Bool) (s : State) (h : Sound pm pr s) : SoundOut pm pr (execStoPulseEnd high s) := by
  unfold execStoPulseEnd
  split <;> simp [h]

@[simp] theorem sound_execEstopTestEnd (closed : Bool) (s : State) (h : Sound pm pr s) : SoundOut pm pr (execEstopTestEnd closed s) := by
  unfold execEstopTestEnd
  split <;> simp [h]

@[simp] theorem sound_execSelftestOverdue (slot g : Nat) (s : State) (h : Sound pm pr s) : SoundOut pm pr (execSelftestOverdue slot g s) :=
    by
  simp [execSelftestOverdue, h]

/-! ### The functions of Machine/Reset.lean -/

@[simp] theorem sound_keyRegs (s : State) : Sound pm pr s.keyRegs ↔ Sound pm pr s := by
  simp [State.keyRegs]

@[simp] theorem sound_keptByReset (s : State) (regs : Sparse Word) (latches staged : List PairHalf) :
    Sound pm pr (s.keptByReset regs latches staged) :=
  ⟨fun _ => rfl, fun _ => show railsWithin (List.replicate 8 {}) = true by decide⟩

@[simp] theorem sound_moduleReset (s : State) (h : Sound pm pr s) : Sound pm pr s.moduleReset := by
  rw [State.moduleReset, sound_keyRegs]
  exact ⟨fun _ => rfl, h.2⟩

@[simp] theorem sound_fullReset (s : State) : Sound pm pr s.fullReset := by
  simp [State.fullReset]

@[simp] theorem sound_combinedReset (s : State) : Sound pm pr s.combinedReset := by
  simp [State.combinedReset]

@[simp] theorem sound_countReset (s : State) (code : Nat) : Sound pm pr (s.countReset code) ↔ Sound pm pr s := by
  simp [State.countReset]

@[simp] theorem sound_activate (s : State) (code : Nat) (h : Sound pm pr s) : Sound pm pr (s.activate code) := by
  simp [State.activate, h]

@[simp] theorem sound_deactivate (s : State) (code : Nat) : Sound pm pr (s.deactivate code) ↔ Sound pm pr s := by
  simp [State.deactivate]

@[simp] theorem sound_execPowerOnReset (s : State) (h : Sound pm pr s) : SoundOut pm pr (execPowerOnReset s) := by
  simp [execPowerOnReset, h]

@[simp] theorem sound_execPinResetAssert (samples : Nat) (s : State) (h : Sound pm pr s) : SoundOut pm pr (execPinResetAssert samples s) :=
    by
  simp [execPinResetAssert, h]

@[simp] theorem sound_execPinResetRelease (samples : Nat) (s : State) (h : Sound pm pr s) : SoundOut pm pr (execPinResetRelease samples s)
    := by
  simp [execPinResetRelease, h]

@[simp] theorem sound_execCrustReset (s : State) (h : Sound pm pr s) : SoundOut pm pr (execCrustReset s) := by
  unfold execCrustReset
  split <;> simp [h]

@[simp] theorem sound_execThermSourceClear (s : State) (h : Sound pm pr s) : SoundOut pm pr (execThermSourceClear s) := by
  simp [execThermSourceClear, h]

@[simp] theorem sound_rstReject (s : State) : Sound pm pr s.rstReject ↔ Sound pm pr s := by
  simp [State.rstReject]

@[simp] theorem sound_dieReset (s : State) (die : Nat) (h : Sound pm pr s) : Sound pm pr (s.dieReset die) := by
  simp [State.dieReset, h]

@[simp] theorem sound_diesReset (s : State) (mask : Nat) (h : Sound pm pr s) : Sound pm pr (s.diesReset mask) := by
  unfold State.diesReset
  dsimp only
  split
  · simpa using h
  · simpa using Sound.foldl (fun a d ha => sound_dieReset a d ha) _ h

@[simp] theorem sound_writeSwCtrl (s : State) (v : Nat) (h : Sound pm pr s) : Sound pm pr (s.writeSwCtrl v) := by
  simp [State.writeSwCtrl, h]

@[simp] theorem sound_execSwResetModule (who : Requester) (value : Nat) (s : State) (h : Sound pm pr s) : SoundOut pm pr
    (execSwResetModule who value s) := by
  refine Sound.busWrite h fun a ha => ?_
  simp [ha]

@[simp] theorem sound_execSwResetDies (who : Requester) (value : Nat) (s : State) (h : Sound pm pr s) : SoundOut pm pr
    (execSwResetDies who value s) := by
  refine Sound.busWrite h fun a ha => ?_
  simp [ha]

end

end Sys2Proof.Machine
end

section
namespace Sys2Proof.Machine

section
variable {pm pr : Prop}

/-! ### The functions of Machine/Reset.lean -/

@[simp] theorem sound_releaseNext (s : State) : Sound pm pr s.releaseNext ↔ Sound pm pr s := by
  unfold State.releaseNext
  split <;> simp

@[simp] theorem sound_execResetHoldEnd (s : State) (h : Sound pm pr s) : SoundOut pm pr (execResetHoldEnd s) := by
  simp [execResetHoldEnd, h]

@[simp] theorem sound_execDomainRelease (s : State) (h : Sound pm pr s) : SoundOut pm pr (execDomainRelease s) := by
  unfold execDomainRelease
  split <;> simp [h]

@[simp] theorem sound_orphanInvs (s : State) : Sound pm pr s.orphanInvs ↔ Sound pm pr s := by
  simp [State.orphanInvs]

@[simp] theorem sound_hostPortReset (s : State) : Sound pm pr s.hostPortReset ↔ Sound pm pr s := by
  simp [State.hostPortReset]

@[simp] theorem sound_execHostReset (s : State) (h : Sound pm pr s) : SoundOut pm pr (execHostReset s) := by
  simp [execHostReset, h]

@[simp] theorem sound_showFirmware (s : State) : Sound pm pr s.showFirmware ↔ Sound pm pr s := by
  unfold State.showFirmware
  split <;> simp

@[simp] theorem sound_linkUp (s : State) (width rate : Nat) (flit : Bool) : Sound pm pr (s.linkUp width rate flit) ↔ Sound pm pr s := by
  simp [State.linkUp]

@[simp] theorem sound_execHostPortReconfigure (width rate : Nat) (flit : Bool) (s : State) (h : Sound pm pr s) : SoundOut pm pr
    (execHostPortReconfigure width rate flit s) := by
  simp [execHostPortReconfigure, h]

@[simp] theorem sound_terminateRun (s : State) (r : Run) (h : Sound pm pr s) : Sound pm pr (s.terminateRun r) :=
  sound_endRun _ r _ (sound_undefRanges _ (sound_cancelPrefetches _ r _ (sound_dropEngineWork s r h)))

@[simp] theorem sound_restoreEnded (s : State) (die : Nat) (c : Option SeqCmd) : Sound pm pr (s.restoreEnded die c) ↔ Sound pm pr s := by
  simp [State.restoreEnded]

@[simp] theorem sound_endBlockCmd (s was : State) (die block : Nat) : Sound pm pr (s.endBlockCmd was die block) ↔ Sound pm pr s := by
  simp [State.endBlockCmd]

@[simp] theorem sound_endSlotTransfer (s : State) (die : Nat) : Sound pm pr (s.endSlotTransfer die) ↔ Sound pm pr s := by
  unfold State.endSlotTransfer
  split <;> simp

@[simp] theorem sound_failResidencies (s : State) : Sound pm pr s.failResidencies ↔ Sound pm pr s := by
  simp [State.failResidencies]

@[simp] theorem sound_restartStreams (s : State) : Sound pm pr s.restartStreams ↔ Sound pm pr s := by
  simp [State.restartStreams]

@[simp] theorem sound_restartFusion (s : State) : Sound pm pr s.restartFusion ↔ Sound pm pr s := by
  simp [State.restartFusion]

@[simp] theorem sound_clearBlock (s : State) (die block : Nat) : Sound pm pr (s.clearBlock die block) ↔ Sound pm pr s := by
  simp [State.clearBlock]

@[simp] theorem sound_resetNow (s : State) (die block : Nat) (sirug : Bool) (h : Sound pm pr s) : Sound pm pr (s.resetNow die block sirug)
    := by
  unfold State.resetNow
  extract_lets n s1 s2 s4 s5
  have h1 : Sound pm pr s1 := Sound.foldl (fun a r ha => sound_terminateRun a r ha) _ h
  have h2 : Sound pm pr s2 := Sound.ite (fun _ => by simpa using h1) fun _ => h1
  simpa [s5, s4] using h2

@[simp] theorem sound_startBlockReset (s : State) (die block : Nat) (sirug : Bool) (h : Sound pm pr s) : Sound pm pr
    (s.startBlockReset die block sirug) := by
  simp [State.startBlockReset, h]

@[simp] theorem sound_writeBlkCtrl (s : State) (v : Nat) (h : Sound pm pr s) : Sound pm pr (s.writeBlkCtrl v) := by
  simp [State.writeBlkCtrl, h]

@[simp] theorem sound_execBlockResetDrain (who : Requester) (value : Nat) (s : State) (h : Sound pm pr s) : SoundOut pm pr
    (execBlockResetDrain who value s) := by
  refine Sound.busWrite h fun a ha => ?_
  simp [ha]

@[simp] theorem sound_execBlockResetSirug (who : Requester) (value : Nat) (s : State) (h : Sound pm pr s) : SoundOut pm pr
    (execBlockResetSirug who value s) := by
  refine Sound.busWrite h fun a ha => ?_
  simp [ha]

@[simp] theorem sound_execBlockDrainDone (s : State) (h : Sound pm pr s) : SoundOut pm pr (execBlockDrainDone s) := by
  unfold execBlockDrainDone
  split <;> simp [h]

@[simp] theorem sound_execBlockDrainTimeout (s : State) (h : Sound pm pr s) : SoundOut pm pr (execBlockDrainTimeout s) := by
  unfold execBlockDrainTimeout
  split <;> simp [h]

@[simp] theorem sound_execBlockResetRelease (s : State) (h : Sound pm pr s) : SoundOut pm pr (execBlockResetRelease s) := by
  unfold execBlockResetRelease
  split <;> simp [h]

/-! ### The functions of Machine/Power.lean -/

@[simp] theorem sound_dropPref (s : State) : Sound pm pr s.dropPref ↔ Sound pm pr s := by
  unfold State.dropPref
  split <;> simp

@[simp] theorem sound_execRailTargetUpdate (s : State) (h : Sound pm pr s) : SoundOut pm pr (execRailTargetUpdate s) := by
  unfold execRailTargetUpdate
  rw [soundOut_next]
  extract_lets u
  have hu : Sound pm pr u := by simpa [u] using h
  refine Sound.foldl (fun a r ha => ?_) _ hu
  refine ha.setRail fun hr => ?_
  obtain ⟨hcur, -, hlim, hfix⟩ := railOk_iff.mp (ha.rail hr r)
  rw [railOk_begin, railOk_iff]
  refine ⟨hcur, State.railTarget_within (hu.rail hr r), hlim, fun hf => ⟨(hfix hf).1, ?_⟩⟩
  simp [State.railTarget, hf]

@[simp] theorem sound_execRailStepComplete (r : Nat) (s : State) (h : Sound pm pr s) : SoundOut pm pr (execRailStepComplete r s) := by
  unfold execRailStepComplete
  rw [soundOut_next]
  dsimp only
  split
  · exact h
  next up t _ =>
    refine Sound.ite (fun _ => h) fun hgo => ?_
    refine Sound.setRail (by simpa using h) fun hr => ?_
    obtain ⟨⟨hlow, hcur⟩, htgt, hlim, -⟩ := railOk_iff.mp (h.rail hr r)
    have hle := lowestPoint_le r
    rw [railOk_begin, railOk_iff]
    refine ⟨⟨Nat.le_max_left _ _, ?_⟩, htgt, hlim, fun hf => absurd (Or.inr (Or.inl hf)) hgo⟩
    dsimp only
    split <;> omega

@[simp] theorem sound_setStretch (s : State) (d : Nat) (x : Option Nat) : Sound pm pr (s.setStretch d x) ↔ Sound pm pr s := by
  simp [State.setStretch]

@[simp] theorem sound_execDroopDetect (d depth : Nat) (s : State) (h : Sound pm pr s) : SoundOut pm pr (execDroopDetect d depth s) := by
  simp [execDroopDetect, h]

@[simp] theorem sound_execStretchEnd (d cycles : Nat) (s : State) (h : Sound pm pr s) : SoundOut pm pr (execStretchEnd d cycles s) := by
  unfold execStretchEnd
  split <;> simp [h]

@[simp] theorem sound_execDroopPersist (d : Nat) (s : State) (h : Sound pm pr s) : SoundOut pm pr (execDroopPersist d s) := by
  unfold execDroopPersist
  rw [soundOut_next]
  split
  · exact h
  · refine Sound.ite (fun _ => h) fun _ => ?_
    rw [sound_event, sound_setStretch]
    refine h.setRail_kept rfl rfl fun hl => ?_
    dsimp only
    omega

@[simp] theorem sound_execDroopLimitRaise (r : Nat) (s : State) (h : Sound pm pr s) : SoundOut pm pr (execDroopLimitRaise r s) := by
  unfold execDroopLimitRaise
  rw [soundOut_next]
  exact Sound.ite (fun hc => h.setRail_kept rfl rfl fun hl => ⟨hl.1, hl.2.1, hc.1⟩) fun _ => h

@[simp] theorem sound_cappedBit (s : State) : Sound pm pr s.cappedBit ↔ Sound pm pr s := by
  simp [State.cappedBit]

@[simp] theorem sound_lowerCaps (s : State) (rs : List Nat) (h : Sound pm pr s) : Sound pm pr (s.lowerCaps rs) := by
  rw [State.lowerCaps, sound_cappedBit]
  refine Sound.foldl (fun a r ha => ?_) _ h
  refine ha.setRail_kept rfl rfl fun hl => ?_
  dsimp only
  omega

@[simp] theorem sound_overCap (s : State) (mw : Nat) (h : Sound pm pr s) : Sound pm pr (s.overCap mw) := by
  simp [State.overCap, h]

@[simp] theorem sound_raiseCap (s : State) (h : Sound pm pr s) : Sound pm pr s.raiseCap := by
  unfold State.raiseCap
  refine Sound.ite (fun _ => h) fun _ => ?_
  split
  · exact h
  next r hr =>
    have hlt : (s.rail r).capLimit < 15 := by simpa using List.find?_some hr
    have hset : Sound pm pr (s.setRail r { s.rail r with capLimit := (s.rail r).capLimit + 1 }) :=
      h.setRail_kept rfl rfl fun hl => ⟨hlt, hl.2⟩
    rw [sound_cappedBit]
    exact hset

@[simp] theorem sound_execPowerSample (mw vinMv bankMv : Nat) (s : State) (h : Sound pm pr s) : SoundOut pm pr
    (execPowerSample mw vinMv bankMv s) := by
  simp [execPowerSample, h]

@[simp] theorem sound_sampleSensor (s : State) (u i : Nat) (reading : Int) : Sound pm pr (s.sampleSensor u i reading) ↔ Sound pm pr s := by
  simp [State.sampleSensor]

@[simp] theorem sound_trip (s : State) (u i : Nat) (h : Sound pm pr s) : Sound pm pr (s.trip u i) := by
  simp [State.trip, h]

@[simp] theorem sound_noteCool (s : State) (h : Sound pm pr s) : Sound pm pr s.noteCool := by
  refine Sound.foldl (fun a r ha => ?_) _ h
  exact ha.setRail_kept rfl rfl id

@[simp] theorem sound_execThermalSample (readings : List Int) (s : State) (h : Sound pm pr s) : SoundOut pm pr
    (execThermalSample readings s) := by
  unfold execThermalSample
  rw [soundOut_next]
  refine Sound.ite (fun _ => h) fun _ => ?_
  refine Sound.foldl (fun a p ha => sound_trip a p.1 p.2 ha) _ ?_
  simp [h]

@[simp] theorem sound_execThermThrottleStep (r : Nat) (s : State) (h : Sound pm pr s) : SoundOut pm pr (execThermThrottleStep r s) := by
  unfold execThermThrottleStep
  rw [soundOut_next]
  refine Sound.ite (fun _ => ?_) fun _ => h
  rw [sound_event]
  refine h.setRail_kept rfl rfl fun hl => ?_
  dsimp only
  omega

@[simp] theorem sound_execThermRecoverStep (r : Nat) (s : State) (h : Sound pm pr s) : SoundOut pm pr (execThermRecoverStep r s) := by
  unfold execThermRecoverStep
  rw [soundOut_next]
  dsimp only
  split
  · exact h
  · exact Sound.ite (fun hc => h.setRail_kept rfl rfl fun hl => ⟨hl.1, hc.1, hl.2.2⟩) fun _ => h

@[simp] theorem sound_spwrOff (s : State) (k state : Nat) : Sound pm pr (s.spwrOff k state) ↔ Sound pm pr s := by
  simp [State.spwrOff]

@[simp] theorem sound_execInputLoss (vinMv ns : Nat) (s : State) (h : Sound pm pr s) : SoundOut pm pr (execInputLoss vinMv ns s) := by
  unfold execInputLoss
  rw [soundOut_next]
  refine Sound.ite (fun _ => h) fun _ => ?_
  extract_lets s1 s2 s3 s4
  have h3 : Sound pm pr s3 := Sound.ite (fun _ => by simpa [s2, s1] using h) fun _ => by simpa [s2, s1] using h
  have h4 : Sound pm pr s4 := by
    rw [show s4 = State.cappedBit _ from rfl, sound_cappedBit]
    refine Sound.foldl (fun a r ha => ?_) _ h3
    exact ha.setRail_kept rfl rfl fun hl => ⟨s3.railFloor_le r, hl.2⟩
  simpa using h4

@[simp] theorem sound_execInputRestored (vinMv ns : Nat) (s : State) (h : Sound pm pr s) : SoundOut pm pr (execInputRestored vinMv ns s) :=
    by
  simp [execInputRestored, h]

@[simp] theorem sound_execHoldupExhausted (bankMv : Nat) (s : State) (h : Sound pm pr s) : SoundOut pm pr (execHoldupExhausted bankMv s) :=
    by
  unfold execHoldupExhausted
  rw [soundOut_next]
  refine Sound.ite (fun _ => sound_activate _ 2 ?_) fun _ => h
  rw [sound_setFld]
  refine Sound.foldl (fun a i ha => ?_) _ h
  exact ha.setRail_kept rfl rfl id

@[simp] theorem sound_execBrownout (r depth ns : Nat) (s : State) (h : Sound pm pr s) : SoundOut pm pr (execBrownout r depth ns s) := by
  simp [execBrownout, h]

@[simp] theorem sound_spwrMa (s : State) (k ma : Nat) : Sound pm pr (s.spwrMa k ma) ↔ Sound pm pr s := by
  simp [State.spwrMa]

@[simp] theorem sound_execSpwrOverload (k ma ns : Nat) (s : State) (h : Sound pm pr s) : SoundOut pm pr (execSpwrOverload k ma ns s) := by
  simp [execSpwrOverload, h]

@[simp] theorem sound_execSpwrOpen (k ma ns : Nat) (s : State) (h : Sound pm pr s) : SoundOut pm pr (execSpwrOpen k ma ns s) := by
  simp [execSpwrOpen, h]

@[simp] theorem sound_spwrBackfed (s : State) (k state : Nat) : Sound pm pr (s.spwrBackfed k state) ↔ Sound pm pr s := by
  simp [State.spwrBackfed]

@[simp] theorem sound_execSpwrBackfeed (k mv : Nat) (s : State) (h : Sound pm pr s) : SoundOut pm pr (execSpwrBackfeed k mv s) := by
  simp [execSpwrBackfeed, h]

@[simp] theorem sound_execSpwrReverse (k : Nat) (mv : Int) (s : State) (h : Sound pm pr s) : SoundOut pm pr (execSpwrReverse k mv s) := by
  simp [execSpwrReverse, h]

@[simp] theorem sound_writeSpwr (s : State) (k v : Nat) : Sound pm pr (s.writeSpwr k v) ↔ Sound pm pr s := by
  simp [State.writeSpwr]

@[simp] theorem sound_execSpwrEnableWrite (who : Requester) (k value : Nat) (s : State) (h : Sound pm pr s) : SoundOut pm pr
    (execSpwrEnableWrite who k value s) := by
  simp [execSpwrEnableWrite, h]

@[simp] theorem sound_wireFault (s : State) (k cond ma : Nat) : Sound pm pr (s.wireFault k cond ma) ↔ Sound pm pr s := by
  simp [State.wireFault]

@[simp] theorem sound_outputOff (s : State) (x : Nat) : Sound pm pr (s.outputOff x) ↔ Sound pm pr s := by
  simp [State.outputOff]

@[simp] theorem sound_execStoShortGnd (x ma ns : Nat) (s : State) (h : Sound pm pr s) : SoundOut pm pr (execStoShortGnd x ma ns s) := by
  simp [execStoShortGnd, h]

@[simp] theorem sound_execStoExternalVoltage (x mv ns : Nat) (s : State) (h : Sound pm pr s) : SoundOut pm pr
    (execStoExternalVoltage x mv ns s) := by
  simp [execStoExternalVoltage, h]

@[simp] theorem sound_execStoOpenWire (x ma ns : Nat) (s : State) (h : Sound pm pr s) : SoundOut pm pr (execStoOpenWire x ma ns s) := by
  simp [execStoOpenWire, h]

@[simp] theorem sound_execStoReverseSource (x : Nat) (mv : Int) (s : State) (h : Sound pm pr s) : SoundOut pm pr
    (execStoReverseSource x mv s) := by
  simp [execStoReverseSource, h]

@[simp] theorem sound_execEstopSourceShort (channel ma ns : Nat) (s : State) (h : Sound pm pr s) : SoundOut pm pr
    (execEstopSourceShort channel ma ns s) := by
  simp [execEstopSourceShort, h]

@[simp] theorem sound_clearWires (s : State) (live : Nat) : Sound pm pr (s.clearWires live) ↔ Sound pm pr s := by
  simp [State.clearWires]

@[simp] theorem sound_execSioWireClear (who : Requester) (live : Nat) (s : State) (h : Sound pm pr s) : SoundOut pm pr
    (execSioWireClear who live s) := by
  simp [execSioWireClear, h]

@[simp] theorem sound_execEthCableDiagnostic (port cond distance : Nat) (s : State) (h : Sound pm pr s) : SoundOut pm pr
    (execEthCableDiagnostic port cond distance s) := by
  simp [execEthCableDiagnostic, h]

@[simp] theorem sound_execSmbusReadByte (c : Nat) (s : State) (h : Sound pm pr s) : SoundOut pm pr (execSmbusReadByte c s) := by
  simp [execSmbusReadByte, h]

@[simp] theorem sound_execSmbusReadWord (c : Nat) (s : State) (h : Sound pm pr s) : SoundOut pm pr (execSmbusReadWord c s) := by
  simp [execSmbusReadWord, h]

@[simp] theorem sound_execSmbusWrite (u_c : Nat) (u_data : Bytes) (s : State) (h : Sound pm pr s) : SoundOut pm pr
    (execSmbusWrite u_c u_data s) := by
  simp [execSmbusWrite, h]

/-! ### The functions of Machine/Boot.lean -/

@[simp] theorem sound_showDir (s : State) : Sound pm pr s.showDir ↔ Sound pm pr s := by
  simp [State.showDir]

@[simp] theorem sound_writeDir (s : State) (f : DirRec → DirRec) : Sound pm pr (s.writeDir f) ↔ Sound pm pr s := by
  simp [State.writeDir]

@[simp] theorem sound_ramPut (s : State) (off : Nat) (bs : Bytes) : Sound pm pr (s.ramPut off bs) ↔ Sound pm pr s := by
  induction bs generalizing s off with
  | nil => rfl
  | cons b bs ih => simp [State.ramPut, ih]

@[simp] theorem sound_setFailCount (s : State) (step n : Nat) : Sound pm pr (s.setFailCount step n) ↔ Sound pm pr s := by
  simp [State.setFailCount]

@[simp] theorem sound_logRecord (s : State) (step kind code : Nat) : Sound pm pr (s.logRecord step kind code) ↔ Sound pm pr s := by
  simp [State.logRecord]

@[simp] theorem sound_haltAt (s : State) (n : Nat) : Sound pm pr (s.haltAt n) ↔ Sound pm pr s := by
  simp [State.haltAt]

@[simp] theorem sound_skipStep (s : State) (n : Nat) : Sound pm pr (s.skipStep n) ↔ Sound pm pr s := by
  rw [State.skipStep]
  generalize hs : State.event _ Ev.BOOT_EVT_STATUS_alternative = s1
  have h1 : Sound pm pr s1 ↔ Sound pm pr s := by simp [← hs]
  simpa using h1

@[simp] theorem sound_enterStep (s : State) (n : Nat) (alt : Bool) : Sound pm pr (s.enterStep n alt) ↔ Sound pm pr s := by
  simp [State.enterStep]

@[simp] theorem sound_beginStep (s : State) (n : Nat) : Sound pm pr (s.beginStep n) ↔ Sound pm pr s := by
  unfold State.beginStep
  split <;> simp

@[simp] theorem sound_exitFail (s : State) (n code : Nat) (h : Sound pm pr s) : Sound pm pr (s.exitFail n code) := by
  unfold State.exitFail
  extract_lets charged s1 s2
  have h1 : Sound pm pr s1 := Sound.ite (fun _ => h) fun _ => by simpa using h
  have h2 : Sound pm pr s2 := by simpa [s2] using h1
  exact sound_activate _ 8 (by simpa using h2)

@[simp] theorem sound_exitOk (s : State) (n : Nat) (alt : Bool) (code : Nat) : Sound pm pr (s.exitOk n alt code) ↔ Sound pm pr s := by
  simp [State.exitOk]

@[simp] theorem sound_romStart (s : State) (corrected uncorrectable : Bool) :
    Sound pm pr (s.romStart corrected uncorrectable) ↔ Sound pm pr s := by
  -- The definition is unfolded before it is applied: applied, the kernel would evaluate the boot log to check the unfolding.
  obtain ⟨f, hf⟩ : ∃ f, f = State.romStart := ⟨_, rfl⟩
  rw [← hf]
  delta State.romStart at hf
  rw [hf]
  beta_reduce
  extract_lets lost s1 s2 s3 s4 src s5 fallback
  have h1 : Sound pm pr s1 ↔ Sound pm pr s := by simp [s1]
  clear_value s1
  have h2 : Sound pm pr s2 ↔ Sound pm pr s1 := by
    dsimp only [s2]
    split <;> simp
  clear_value s2
  have h3 : Sound pm pr s3 ↔ Sound pm pr s2 := by simp [s3]
  clear_value s3
  have h5 : Sound pm pr s5 ↔ Sound pm pr s3 := by simp [s5, s4]
  have hfall : ∀ t slot, Sound pm pr (fallback t slot) ↔ Sound pm pr t := by simp [fallback]
  clear_value s5 fallback
  rw [← h1, ← h2, ← h3, ← h5]
  split
  · rfl
  · dsimp only
    (repeat' split) <;> simp [hfall]

@[simp] theorem sound_fwVerify (s : State) (alt : Bool) (h : Sound pm pr s) : Sound pm pr (s.fwVerify alt) := by
  unfold State.fwVerify
  dsimp only
  (repeat' split) <;> simp [h]

@[simp] theorem sound_checkKeys (s : State) : Sound pm pr s.checkKeys ↔ Sound pm pr s := by
  simp [State.checkKeys]

@[simp] theorem sound_holdupStep (s : State) (t1 t2 : Nat) (unmeasured : Bool) (h : Sound pm pr s) : Sound pm pr
    (s.holdupStep t1 t2 unmeasured) := by
  simp [State.holdupStep, h]

@[simp] theorem sound_mountStore (s : State) (readable : Bool) : Sound pm pr (s.mountStore readable) ↔ Sound pm pr s := by
  simp [State.mountStore]

@[simp] theorem sound_dieInService (s : State) (die mods : Nat) : Sound pm pr (s.dieInService die mods) ↔ Sound pm pr s := by
  simp [State.dieInService]

@[simp] theorem sound_bootDone (s : State) : Sound pm pr s.bootDone ↔ Sound pm pr s := by
  unfold State.bootDone
  split <;> simp

@[simp] theorem sound_startPasses (s : State) : Sound pm pr s.startPasses ↔ Sound pm pr s := by
  simp [State.startPasses]

@[simp] theorem sound_runStep (s : State) (n : Nat) (alt : Bool) (ok : Bool) (data : List Nat) (h : Sound pm pr s) : Sound pm pr
    (s.runStep n alt ok data) := by
  simp [State.runStep, h]

@[simp] theorem sound_execBringUp (ok : Bool) (data : List Nat) (s : State) (h : Sound pm pr s) : SoundOut pm pr (execBringUp ok data s) :=
    by
  unfold execBringUp
  (repeat' split) <;> simp [h]

@[simp] theorem sound_execStepTimeout (s : State) (h : Sound pm pr s) : SoundOut pm pr (execStepTimeout s) := by
  unfold execStepTimeout
  split <;> simp [h]

@[simp] theorem sound_execDieBringupRepeat (die mods : Nat) (ready : Bool) (s : State) (h : Sound pm pr s) : SoundOut pm pr
    (execDieBringupRepeat die mods ready s) := by
  simp [execDieBringupRepeat, h]

@[simp] theorem sound_clearLog (s : State) : Sound pm pr s.clearLog ↔ Sound pm pr s := by
  simp [State.clearLog]

@[simp] theorem sound_execBootLogClear (who : Requester) (s : State) (h : Sound pm pr s) : SoundOut pm pr (execBootLogClear who s) := by
  simp [execBootLogClear, h]

@[simp] theorem sound_updateFails (s : State) (code : Nat) : Sound pm pr (s.updateFails code) ↔ Sound pm pr s := by
  simp [State.updateFails]

@[simp] theorem sound_startUpdate (s : State) (slot : Nat) : Sound pm pr (s.startUpdate slot) ↔ Sound pm pr s := by
  simp [State.startUpdate]

@[simp] theorem sound_writeUpdCtrl (s : State) (v : Nat) : Sound pm pr (s.writeUpdCtrl v) ↔ Sound pm pr s := by
  simp [State.writeUpdCtrl]

end

end Sys2Proof.Machine
end

section
namespace Sys2Proof.Machine

section
variable {pm pr : Prop}

/-! ### The functions of Machine/Boot.lean -/

@[simp] theorem sound_execBootUpdate (who : Requester) (value : Nat) (s : State) (h : Sound pm pr s) : SoundOut pm pr
    (execBootUpdate who value s) := by
  simp [execBootUpdate, h]

@[simp] theorem sound_execBootUpdateComplete (agrees : Bool) (s : State) (h : Sound pm pr s) : SoundOut pm pr
    (execBootUpdateComplete agrees s) := by
  unfold execBootUpdateComplete
  split <;> simp [h]

@[simp] theorem sound_execBakerWatchdogExpiry (die : Nat) (s : State) (h : Sound pm pr s) : SoundOut pm pr (execBakerWatchdogExpiry die s)
    := by
  unfold execBakerWatchdogExpiry
  rw [soundOut_next]
  refine Sound.ite (fun _ => h) fun _ => ?_
  extract_lets ts b1 s1 b2 s2 s3 s4
  have h1 : Sound pm pr s1 := by simpa [s1] using h
  clear_value s1
  have h4 : Sound pm pr s4 := by simpa [s4, s3, s2] using h1
  clear_value s4
  refine Sound.ite (fun _ => by simp [h1]) fun _ => ?_
  rw [sound_hqEvent]
  exact Sound.ite (fun _ => by simpa using h4) fun _ => h4

@[simp] theorem sound_execBakerRestartComplete (die : Nat) (s : State) (h : Sound pm pr s) : SoundOut pm pr (execBakerRestartComplete die s)
    := by
  simp [execBakerRestartComplete, h]

@[simp] theorem sound_quote (s : State) : Sound pm pr s.quote ↔ Sound pm pr s := by
  simp [State.quote]

@[simp] theorem sound_finishQuote (s : State) (h : Sound pm pr s) : Sound pm pr s.finishQuote := by
  unfold State.finishQuote
  split <;> simp [h]

@[simp] theorem sound_execAttestationQuote (who : Requester) (s : State) (h : Sound pm pr s) : SoundOut pm pr (execAttestationQuote who s)
    := by
  simp [execAttestationQuote, h]

@[simp] theorem sound_execDebugUnlockExpiry (s : State) (h : Sound pm pr s) : SoundOut pm pr (execDebugUnlockExpiry s) := by
  unfold execDebugUnlockExpiry
  split <;> simp [h]

/-! ### The functions of Machine/Change.lean -/

@[simp] theorem sound_chgFail (s : State) (code : Nat) : Sound pm pr (s.chgFail code) ↔ Sound pm pr s := by
  simp [State.chgFail]

@[simp] theorem sound_chgNonce (s : State) : Sound pm pr s.chgNonce ↔ Sound pm pr s := by
  simp [State.chgNonce]

@[simp] theorem sound_chgStage (s : State) (party : Nat) : Sound pm pr (s.chgStage party) ↔ Sound pm pr s := by
  simp [State.chgStage]

@[simp] theorem sound_applyTp (s : State) (x : Bytes) : Sound pm pr (s.applyTp x) ↔ Sound pm pr s := by
  simp [State.applyTp]

@[simp] theorem sound_setKeySlot (s : State) (i : Nat) (k : KeySlot) : Sound pm pr (s.setKeySlot i k) ↔ Sound pm pr s := by
  simp [State.setKeySlot]

@[simp] theorem sound_applyKey (s : State) (x : Bytes) : Sound pm pr (s.applyKey x) ↔ Sound pm pr s := by
  simp [State.applyKey]

@[simp] theorem sound_applyUnlock (s : State) (scope seconds : Nat) : Sound pm pr (s.applyUnlock scope seconds) ↔ Sound pm pr s := by
  simp [State.applyUnlock]

@[simp] theorem sound_applyChange (s : State) (r : Bytes) : Sound pm pr (s.applyChange r) ↔ Sound pm pr s := by
  simp [State.applyChange]

@[simp] theorem sound_chgCommit (s : State) (party : Nat) : Sound pm pr (s.chgCommit party) ↔ Sound pm pr s := by
  unfold State.chgCommit
  split <;> simp

@[simp] theorem sound_writeChgCtrl (s : State) (v : Nat) : Sound pm pr (s.writeChgCtrl v) ↔ Sound pm pr s := by
  simp [State.writeChgCtrl]

@[simp] theorem sound_execChgNonce (who : Requester) (s : State) (h : Sound pm pr s) : SoundOut pm pr (execChgNonce who s) := by
  simp [execChgNonce, h]

@[simp] theorem sound_execChgStage (who : Requester) (party : Nat) (s : State) (h : Sound pm pr s) : SoundOut pm pr
    (execChgStage who party s) := by
  simp [execChgStage, h]

@[simp] theorem sound_execChgCommit (who : Requester) (party : Nat) (s : State) (h : Sound pm pr s) : SoundOut pm pr
    (execChgCommit who party s) := by
  simp [execChgCommit, h]

@[simp] theorem sound_execChgStageExpiry (s : State) (h : Sound pm pr s) : SoundOut pm pr (execChgStageExpiry s) := by
  unfold execChgStageExpiry
  split <;> simp [h]

/-! ### The functions of Machine/Loader.lean -/

@[simp] theorem sound_layIdle (s : State) : Sound pm pr s.layIdle ↔ Sound pm pr s := by
  simp [State.layIdle]

@[simp] theorem sound_loadEnds (s : State) (op code : Nat) : Sound pm pr (s.loadEnds op code) ↔ Sound pm pr s := by
  simp [State.loadEnds]

@[simp] theorem sound_loadFails (s : State) (op : Nat) (secs : List Sec) (f : Finding) : Sound pm pr (s.loadFails op secs f) ↔ Sound pm pr s
    := by
  simp [State.loadFails]

@[simp] theorem sound_beginLoad (s : State) (op : Nat) : Sound pm pr (s.beginLoad op) ↔ Sound pm pr s := by
  unfold State.beginLoad
  dsimp only
  (repeat' split) <;> simp

@[simp] theorem sound_writeLayCtrl (s : State) (v : Nat) : Sound pm pr (s.writeLayCtrl v) ↔ Sound pm pr s := by
  simp [State.writeLayCtrl]

@[simp] theorem sound_layStart (s : State) (who : Requester) (op v : Nat) : Sound pm pr (s.layStart who op v) ↔ Sound pm pr s := by
  simp [State.layStart]

@[simp] theorem sound_execLayoutFullLoad (who : Requester) (value : Nat) (s : State) (h : Sound pm pr s) : SoundOut pm pr
    (execLayoutFullLoad who value s) := by
  simp [execLayoutFullLoad, h]

@[simp] theorem sound_execLayoutPartialLoad (who : Requester) (value : Nat) (s : State) (h : Sound pm pr s) : SoundOut pm pr
    (execLayoutPartialLoad who value s) := by
  simp [execLayoutPartialLoad, h]

@[simp] theorem sound_execLayoutValidate (who : Requester) (value : Nat) (s : State) (h : Sound pm pr s) : SoundOut pm pr
    (execLayoutValidate who value s) := by
  simp [execLayoutValidate, h]

@[simp] theorem sound_removeLayout (s : State) : Sound pm pr s.removeLayout ↔ Sound pm pr s := by
  simp [State.removeLayout]

@[simp] theorem sound_initSyncs (s : State) (l : Layout) : Sound pm pr (s.initSyncs l) ↔ Sound pm pr s := by
  refine sound_foldl _ (fun a r => ?_) _ s
  cases l.syncObj (fieldAt r 2 2) <;> simp

@[simp] theorem sound_clearRegs (s : State) (a n : Nat) : Sound pm pr (s.clearRegs a n) ↔ Sound pm pr s := by
  simp [State.clearRegs]

@[simp] theorem sound_installStreams (s : State) : Sound pm pr s.installStreams ↔ Sound pm pr s := by
  simp [State.installStreams]

@[simp] theorem sound_installSafety (s : State) (h : Sound pm pr s) : Sound pm pr s.installSafety := by
  unfold State.installSafety
  exact sound_publishFactor _ (by simp [h])

@[simp] theorem sound_installEngines (s : State) : Sound pm pr s.installEngines ↔ Sound pm pr s := by
  simp [State.installEngines]

@[simp] theorem sound_setDigest (s : State) (d : Bytes) : Sound pm pr (s.setDigest d) ↔ Sound pm pr s := by
  simp [State.setDigest]

@[simp] theorem sound_commitFull (s : State) (img : Bytes) (h : Sound pm pr s) : Sound pm pr (s.commitFull img) := by
  simp [State.commitFull, h]

@[simp] theorem sound_keepPasses (s t : State) : Sound pm pr (s.keepPasses t) ↔ Sound pm pr t := by
  refine sound_foldl _ (fun a e => ?_) _ t
  split <;> simp

@[simp] theorem sound_commitPartial (s : State) (img : Bytes) : Sound pm pr (s.commitPartial img) ↔ Sound pm pr s := by
  simp [State.commitPartial]

@[simp] theorem sound_execLayoutCommit (s : State) (h : Sound pm pr s) : SoundOut pm pr (execLayoutCommit s) := by
  unfold execLayoutCommit
  split <;> simp [h]

/-! ### The functions of Machine/Bar0.lean -/

@[simp] theorem sound_readLow (s : State) (who : Requester) (a : Nat) : Sound pm pr (s.readLow who a) ↔ Sound pm pr s := by
  simp [State.readLow]

@[simp] theorem sound_readHigh (s : State) (who : Requester) (a : Nat) : Sound pm pr (s.readHigh who a) ↔ Sound pm pr s := by
  unfold State.readHigh
  split <;> simp

@[simp] theorem sound_execPairLowRead (who : Requester) (a : Nat) (s : State) (h : Sound pm pr s) : SoundOut pm pr (execPairLowRead who a s)
    := by
  simp [execPairLowRead, h]

@[simp] theorem sound_execPairHighRead (who : Requester) (a : Nat) (s : State) (h : Sound pm pr s) : SoundOut pm pr
    (execPairHighRead who a s) := by
  simp [execPairHighRead, h]

@[simp] theorem sound_putReg (s : State) (a : Nat) (v : Word) : Sound pm pr (s.putReg a v) ↔ Sound pm pr s := by
  unfold State.putReg
  split <;> simp

@[simp] theorem sound_after (s : State) (o : Host.Outcome State Fault Refusal) (h : Sound pm pr s) (ho : SoundOut pm pr o) :
    Sound pm pr (s.after o) := by
  cases o with
  | next t => exact ho
  | fault e => exact h
  | refused e => exact h

@[simp] theorem sound_putPair (s : State) (who : Requester) (low v : Nat) (h : Sound pm pr s) : Sound pm pr (s.putPair who low v) := by
  unfold State.putPair
  split <;> simp [h]

@[simp] theorem sound_writeLow (s : State) (who : Requester) (a v : Nat) : Sound pm pr (s.writeLow who a v) ↔ Sound pm pr s := by
  simp [State.writeLow]

@[simp] theorem sound_writeHigh (s : State) (who : Requester) (a v : Nat) (h : Sound pm pr s) : Sound pm pr (s.writeHigh who a v) := by
  simp [State.writeHigh, h]

theorem Sound.writeCommand? {s t : State} {who : Requester} {a v : Nat} (h : Sound pm pr s) (ht : s.writeCommand? who a v = some t) :
    Sound pm pr t := by
  unfold State.writeCommand? at ht
  dsimp only at ht
  split at ht
  case h_10 => cases ht
  all_goals
    cases ht
    (repeat' split) <;> simp [h]

theorem Sound.writeSpecial? {s t : State} {who : Requester} {a v : Nat} (h : Sound pm pr s) (ht : s.writeSpecial? who a v = some t) :
    Sound pm pr t := by
  have hmap : ∀ (o : Option Nat) (f : Nat → State), (∀ k, Sound pm pr (f k)) → o.map f = some t → Sound pm pr t := by
    intro o f hf hk
    obtain ⟨k, -, rfl⟩ := Option.map_eq_some_iff.mp hk
    exact hf k
  unfold State.writeSpecial? at ht
  dsimp only at ht
  split at ht
  case h_2 | h_5 => exact hmap _ _ (by simp [h]) ht
  case h_13 =>
    split at ht
    · cases ht
      simp [h]
    · exact hmap _ _ (by simp [h]) ht
  all_goals
    (repeat' split at ht) <;> cases ht
    all_goals simp [h]

@[simp] theorem sound_writeReg (s : State) (who : Requester) (a v : Nat) (h : Sound pm pr s) : Sound pm pr (s.writeReg who a v) := by
  unfold State.writeReg
  refine Sound.ite (fun _ => h) fun _ => Sound.ite (fun _ => by simp [h]) fun _ => Sound.ite (fun _ => by simp [h]) fun _ => ?_
  split
  next t ht =>
    split at ht
    · exact h.writeCommand? ht
    · cases ht
  next =>
    cases hs : s.writeSpecial? who a v with
    | none => simpa using h
    | some t => exact h.writeSpecial? hs

@[simp] theorem sound_execRegisterWrite (who : Requester) (a value : Nat) (s : State) (h : Sound pm pr s) :
    SoundOut pm pr (execRegisterWrite who a value s) := by
  unfold execRegisterWrite
  rw [soundOut_next]
  exact Sound.ite (fun _ => Sound.busWrite h fun b hb => sound_writeReg b who a _ hb) fun _ => h

@[simp] theorem sound_execPairLowWrite (who : Requester) (a value : Nat) (s : State) (h : Sound pm pr s) : SoundOut pm pr
    (execPairLowWrite who a value s) := by
  simp [execPairLowWrite, h]

@[simp] theorem sound_execPairHighWrite (who : Requester) (a value : Nat) (s : State) (h : Sound pm pr s) :
    SoundOut pm pr (execPairHighWrite who a value s) := by
  unfold execPairHighWrite
  rw [soundOut_next]
  exact Sound.ite (fun _ => Sound.busWrite h fun b hb => sound_writeHigh b who a _ hb) fun _ => h

@[simp] theorem sound_execBar0InvalidAccess (a size : Nat) (write : Bool) (s : State) (h : Sound pm pr s) : SoundOut pm pr
    (execBar0InvalidAccess a size write s) := by
  simp [execBar0InvalidAccess, h]

@[simp] theorem sound_execBar0AbsentDieAccess (a : Nat) (write : Bool) (s : State) (h : Sound pm pr s) : SoundOut pm pr
    (execBar0AbsentDieAccess a write s) := by
  simp [execBar0AbsentDieAccess, h]

/-! ### The functions of Machine/Dispatch.lean -/

@[simp] theorem sound_exec (i : Instr) (s : State) (h : Sound pm pr s) : SoundOut pm pr (exec i s) := by
  unfold exec
  split <;> simp [h]

/-! ### The functions of Machine/Tick.lean -/

@[simp] theorem sound_tick (s : State) : Sound pm pr s.tick ↔ Sound pm pr s := by
  simp [State.tick]

@[simp] theorem sound_holdAll (s : State) : Sound pm pr s.holdAll ↔ Sound pm pr s := by
  simp [State.holdAll]

@[simp] theorem sound_idle (s : State) (h : Sound pm pr s) : Sound pm pr s.idle := by
  simp [State.idle, h]

/-! ### The functions of Machine/Step.lean -/

@[simp] theorem sound_step (s : State) (h : Sound pm pr s) : SoundOut pm pr (step s) := by
  unfold step
  split <;> simp [h]

end

/-- Settles O58: a step leaves memory canonical, since every command and every cycle does. -/
theorem memoryStaysCanonical : Obligations.MemoryStaysCanonical := by
  unfold Obligations.MemoryStaysCanonical
  intro s t hs ht
  have hsound : Sound True False s := ⟨fun _ => hs, False.elim⟩
  have hstep := sound_step s hsound
  rw [ht] at hstep
  exact hstep.1 trivial

/-- Settles O59: a step leaves the rails within their bounds, since every command and every cycle does. -/
theorem railsStayInBounds : Obligations.RailsStayInBounds := by
  unfold Obligations.RailsStayInBounds
  intro s t hs ht
  have hsound : Sound False True s := ⟨False.elim, fun _ => s.railsOk_eq ▸ hs⟩
  have hstep := sound_step s hsound
  rw [ht] at hstep
  exact t.railsOk_eq.trans (hstep.2 trivial)

end Sys2Proof.Machine
end
